-- ==== Sys2Proof/Word.lean ====
section
/-! DEFINITION. The word types of the management address space (R6), of wire formats and of the model's maps. -/

namespace Sys2Proof

/-- A management register or address: 32 bits (R6). -/
abbrev Word := BitVec 32

/-- One byte. -/
abbrev Byte := BitVec 8

/-- A byte string, in the order in which the spec says it travels. -/
abbrev Bytes := List Byte

/-- A word string. -/
abbrev Words := List Word

/-- A sparse map from a number to a value: a list of (key, value) pairs in rising key order. -/
abbrev NMap (α : Type) := List (Nat × α)

end Sys2Proof
end

