-- ==== Sys2Proof/Syntax.lean ====
section
/-! DEFINITION. The commands the block takes: one constructor for each row of the table of operations and events,
with what the event carries as its operands (the table gives no bits; log entry 3). -/

namespace Sys2Proof

/-- The management paths, in their fixed order (R69, R74). -/
inductive Path where
  | p43 | usb | tun0 | tun1
deriving DecidableEq, Repr

/-- The path's number: the order of R74. -/
def Path.idx : Path → Nat
  | .p43 => 0 | .usb => 1 | .tun0 => 2 | .tun1 => 3

/-- Fabric ports and positions F0-F19 (R97). -/
abbrev FabPort := Fin 20
/-- Ports P0-P19 (R14). -/
abbrev Port := Fin 20
/-- Type-C ports P0-P7, which can carry the Canopy link (R14). -/
abbrev CanPort := Fin 8
/-- Crown ports P0 and P1. -/
abbrev Crown := Fin 2
/-- Tunnels TUN0-TUN255. -/
abbrev Tun := Fin 256
/-- Lane cells LC0-LC31. -/
abbrev LaneCell := Fin 32
/-- Buffer cells BC0-BC79. -/
abbrev BufCell := Fin 80
/-- Display pipes D0-D3. -/
abbrev Pipe := Fin 4
/-- Time bases TB0-TB3. -/
abbrev TimeBase := Fin 4
/-- Event pins EVT_0-EVT_7. -/
abbrev EvtPin := Fin 8
/-- Groves G0-G7 and, as 8, GF. -/
abbrev Grove := Fin 9
/-- Ports of the USB 2.0 tree, n = 7h + p - 1 (R352). -/
abbrev TreePort := Fin 35
/-- Power channels PC0-PC9. -/
abbrev Channel := Fin 10

/-- The clocks whose failure the monitor declares (R18, R19). -/
inductive Clock where
  | ref | sys | fab | mem | time | usb | key | standby
  | pix (d : Pipe)
deriving DecidableEq, Repr

/-- What a vendor request names: an address or offset, and its wLength (R78). -/
structure Span where
  addr : Word
  wlen : Nat
deriving DecidableEq, Repr

/-- What comes in an I2C transfer to a 7-bit address (R83). -/
structure I2c (α : Type) where
  dev : BitVec 7
  val : α
deriving DecidableEq, Repr

/-- COUNT and ADDR of a management message (R81). -/
structure MgmtRange where
  count : Byte
  addr : Word
deriving DecidableEq, Repr

/-- What the receiver sees of a codeword (R211, R220, R229): that it cannot be corrected, that it follows another such one at once, and that a
unit overlaps it. -/
structure Codeword where
  fec : Bool
  next : Bool
  hits : Bool
deriving DecidableEq, Repr

/-- SEQ and TB of a link-time message (R221). -/
structure XchTag where
  seq : Fin 64
  tb : TimeBase
deriving DecidableEq, Repr

/-- What ends delineation on a port: a word, or none where the link words are lost (R214, R229). -/
structure LostWord where
  port : CanPort
  w : Option Word
deriving DecidableEq, Repr

/-- The lanes on which a standard's own recovery leaves a port (R263). -/
structure Recovery where
  port : Port
  lanes : Fin 8
deriving DecidableEq, Repr

/-- One request that a partner's capabilities raise (R93, R111, R112): its kind and index; for a DisplayPort stream
the pixels per second, bits per pixel times 16 and secondary-data rate of the mode requested, whether it arrives
compressed and whether the sink takes DSC. -/
structure PReq where
  kind : Nat
  index : Nat
  pixRate : Nat := 0
  bpp16 : Nat := 0
  sdpRate : Nat := 0
  dscIn : Bool := false
  dscOk : Bool := false
deriving DecidableEq, Repr

/-- One tunnel pair of a cascade child, from its capability-change report (R99, R243). -/
structure ChildPair where
  k : Nat
  cls : Nat
  floorD : Nat
  ceilD : Nat
  floorU : Nat
  ceilU : Nat
deriving DecidableEq, Repr

/-- A partner as the capability exchange reports it: the personality it can take (mask of the branch modes of R38, or
the code of ADP_STAT.PERS), what its link runs at, the payload rates of the port's transmit and receive in Mb/s (of a USB4 link that
comes up: its raw rates), its requests, a cascade child's pairs and number of hubs, its identity, and a PCIe link's negotiated
Max_Payload_Size. -/
structure Partner where
  supports : Nat
  pers : Nat
  rate : Nat
  width : Nat
  speed : Nat
  txMbps : Nat
  rxMbps : Nat
  usb4 : Bool := false
  reqs : List PReq := []
  children : List ChildPair := []
  hubs : Nat := 0
  ident : Nat := 0
  mps : Nat := 512
deriving DecidableEq, Repr

/-- The tunnel-table parameter words of R123 other than TT_LIMIT. -/
inductive TtParam where
  | shape | meter | cbs | pbs
deriving DecidableEq, Repr

/-- One DisplayPort link-training attempt (R313): the rate and lanes tried, and whether it succeeded. -/
structure DpTry where
  rate : Nat
  lanes : Nat
  ok : Bool
deriving DecidableEq, Repr

/-- A read error of one fuse word during a load attempt (R410): the word and what is read in its place. -/
structure FuseErr where
  word : Nat
  value : Word
deriving DecidableEq, Repr

/-- What the CC pins and the cable show at an attach (R445, R446): the partner's current advertisement, the cable's
rating, whether the partner is USB PD capable, and the modes it supports (a mask by the branch mode numbers of R38). -/
structure CcInfo where
  supports : Nat := 0
  rp : Nat
  cable5A : Bool
  cableEpr : Bool
  vconnNeeded : Bool
  pd : Bool
deriving DecidableEq, Repr

/-- A participant of a power-state request (R432). -/
abbrev Participant := Fin 19

/-- A participant's answer (R432): accept, defer by milliseconds, or refuse with a reason. -/
inductive Answer where
  | accept
  | defer (n : Nat)
  | refuse (reason : Nat)
deriving DecidableEq, Repr

/-- The wake sources by number (R436). -/
abbrev WakeSrc := Fin 8

/-- The crown port a button belongs to. -/
abbrev BtnPort := Fin 2

/-- The reset sources that stay asserted until they release (R416). -/
inductive ResetSrc where
  | por | brownOut | resetN | thermal | warmN
deriving DecidableEq, Repr

/-- The commands. -/
inductive Instr where
  /-- REGISTER_WRITE (R7). -/
  | registerWrite (path : Path) (addr : Word) (v : Word)
  /-- UNMAPPED_ACCESS (R73). -/
  | unmappedAccess (path : Path) (addr : Word) (wr : Bool)
  /-- SEGMENT_INGRESS (R21). -/
  | segmentIngress (port : Port) (hdr : BitVec 64) (payload : Bytes)
  /-- CLOCK_FAILURE (R19). -/
  | clockFailure (clk : Clock)
  /-- SETTLE_TIMER_EXPIRY (R23). -/
  | settleTimerExpiry
  /-- SOLVE_COMMIT (R115). -/
  | solveCommit (t : Nat)
  /-- TABLE_SWAP (R116). -/
  | tableSwap
  /-- IMAGE_LOAD (R50). -/
  | imageLoad
  /-- IMAGE_STREAM_COMPLETE (R47). -/
  | imageStreamComplete
  /-- FLASH_READ_ERROR (R47). -/
  | flashReadError (copyB : Bool)
  /-- IMAGE_CONFIG_COMPLETE (R53). -/
  | imageConfigComplete
  /-- CHECK (R66). -/
  | check (path : Path)
  /-- CHECK_COMPLETE (R66). -/
  | checkComplete
  /-- ADVANCE (R49). -/
  | advance (path : Path)
  /-- GO (R55). -/
  | go (path : Path) (v : Word)
  /-- SLICE_RELOAD_COMMIT (R57). -/
  | sliceReloadCommit
  /-- RELOAD_RECONFIG_COMPLETE (R58). -/
  | reloadReconfigComplete
  /-- READ32 (R78): `req` is the bRequest of the SETUP packet; 0x01 is READ32, and one that R78 does not list is met as the rule says. -/
  | read32 (req : Byte) (span : Span)
  /-- WRITE32 (R79). -/
  | write32 (span : Span) (v : Word) (status : Bool)
  /-- DREAD (R78). -/
  | dread (addr : Word) (wlen : Nat)
  /-- DWRITE (R79). -/
  | dwrite (addr : Word) (data : Bytes) (status : Bool)
  /-- FLASH_ERASE (R78). -/
  | flashErase (span : Span) (status : Bool)
  /-- FLASH_PROG (R78). -/
  | flashProg (off : Word) (data : Bytes) (status : Bool)
  /-- FLASH_READ (R78). -/
  | flashRead (off : Word) (wlen : Nat)
  /-- FLASH_STAT (R78). -/
  | flashStat (wlen : Nat)
  /-- FLASH_OP_COMPLETE (R80). -/
  | flashOpComplete (ok : Bool)
  /-- READ (R81). -/
  | read (crown : Crown) (tag : Byte) (count : Byte) (addr : Word)
  /-- WRITE (R81). -/
  | write (crown : Crown) (tag : Byte) (count : Byte) (addr : Word) (data : Words)
  /-- MGMT_FLASH_ERASE (R81). -/
  | mgmtFlashErase (crown : Crown) (tag : Byte) (count : Byte) (off : Word)
  /-- MGMT_FLASH_PROG (R81). -/
  | mgmtFlashProg (crown : Crown) (tag : Byte) (count : Byte) (off : Word) (data : Words)
  /-- MGMT_FLASH_READ (R81). -/
  | mgmtFlashRead (crown : Crown) (tag : Byte) (count : Byte) (off : Word)
  /-- MGMT_RESERVED_OP (R81). -/
  | mgmtReservedOp (crown : Crown) (op : Byte) (tag : Byte) (r : MgmtRange)
  /-- EVENT (R91). -/
  | event (crown : Crown)
  /-- EP1_IN_TOKEN (R91). -/
  | ep1InToken
  /-- EP1_ACK (R343). -/
  | ep1Ack
  /-- ARM (R76). -/
  | arm (path : Path) (v : Word)
  /-- SYS_DWDATA_ACCESS (R77). -/
  | sysDwdataAccess (path : Path) (w : Option Word)
  /-- I2C_WRITE_TRANSFER (R83). -/
  | i2cWriteTransfer (addr : I2c Word) (data : Bytes)
  /-- I2C_SET_READ_ADDRESS (R83). -/
  | i2cSetReadAddress (addr : I2c Word)
  /-- I2C_READ_TRANSFER (R83). -/
  | i2cReadTransfer (nbytes : I2c Nat)
  /-- I2C_INVALID_COMMAND (R83). -/
  | i2cInvalidCommand (cmd : I2c Byte)
  /-- SPI_WRITE_FRAME (R84). -/
  | spiWriteFrame (addr : Word) (data : Bytes)
  /-- SPI_READ_FRAME (R84). -/
  | spiReadFrame (addr : Word) (nbytes : Nat)
  /-- SPI_INVALID_COMMAND (R84). -/
  | spiInvalidCommand (cmd : Byte) (nbytes : Nat)
  /-- HOSTSEL_CHANGE (R95). -/
  | hostselChange (path : Path) (v : Word)
  /-- TT_LIMIT_WRITE (R123). -/
  | ttLimitWrite (path : Path) (n : Tun) (v : Word)
  /-- TT_PARAM_WRITE (R123). -/
  | ttParamWrite (path : Path) (n : Tun) (reg : TtParam) (v : Word)
  /-- FLUSH_COMPLETE (R167). -/
  | flushComplete (n : Tun)
  /-- QUARANTINE_END (R106). -/
  | quarantineEnd (n : Tun)
  /-- FABRIC_SLOT (R128). -/
  | fabricSlot (accBad : BitVec 20) (retBad : BitVec 20) (outBad : BitVec 20)
  /-- MAP_SWITCH (R135). -/
  | mapSwitch
  /-- XGAP_TIMEOUT (R142). -/
  | xgapTimeout (n : Tun)
  /-- RETURN_TIMER (R141). -/
  | returnTimer (n : Tun)
  /-- EGRESS_UNIT_START (R187). -/
  | egressUnitStart (port : Port)
  /-- CUT_THROUGH_ABORT (R144). -/
  | cutThroughAbort (port : Port)
  /-- BACKOFF_END (R144). -/
  | backoffEnd (port : Port)
  /-- STALL_TIMER_EXPIRY (R168). -/
  | stallTimerExpiry (port : Port)
  /-- PAUSE_REPEAT (R166). -/
  | pauseRepeat (port : Port)
  /-- PORT_RETRAIN_WAIT (R527). -/
  | portRetrainWait (port : Port)
  /-- VOID_RECLAIM (R169). -/
  | voidReclaim (n : Tun) (gen : Fin 4)
  /-- BUFFER_CELL_RETIRE (R171). -/
  | bufferCellRetire (cell : BufCell) (logic : Bool)
  /-- CELL_EVACUATED (R172). -/
  | cellEvacuated (cell : BufCell)
  /-- LEAD_FRAME_START (R179). -/
  | leadFrameStart (total : Nat) (inc : Nat)
  /-- LEAD_SOURCE_LOST (R181). -/
  | leadSourceLost
  /-- NSRC_WRITE (R183). -/
  | nsrcWrite (path : Path) (v : Word)
  /-- SCHED_VIRT_WRITE (R182). -/
  | schedVirtWrite (path : Path) (v : Word)
  /-- OVH_WRITE (R190). -/
  | ovhWrite (path : Path) (port : Port) (v : Word)
  /-- QBV_CYCLE_START (R199). -/
  | qbvCycleStart (port : Port)
  /-- CREDIT (R223). -/
  | credit (port : CanPort) (tun : Tun) (limit : BitVec 16)
  /-- CREDIT_TIMER (R224). -/
  | creditTimer (n : Tun)
  /-- LGRANT (R225). -/
  | lgrant (port : CanPort) (tun : Tun) (pipe : Pipe) (line : Fin 8192) (frm : Fin 16)
  /-- RACK (R230). -/
  | rack (port : CanPort) (lun : BitVec 16)
  /-- RNAK (R230). -/
  | rnak (port : CanPort) (lun : BitVec 16)
  /-- RNAK_REPEAT (R229). -/
  | rnakRepeat (port : CanPort)
  /-- RESUME (R229). -/
  | resume (port : CanPort) (lun : BitVec 16)
  /-- UNCORRECTABLE_CODEWORD (R229). -/
  | uncorrectableCodeword (cell : LaneCell) (pairB : Bool) (cw : Codeword) (slots : List (BitVec 64))
  /-- RECORD_CLOSE (R234). -/
  | recordClose (port : CanPort)
  /-- TAG (R238). -/
  | tag (port : CanPort) (epoch : Bool) (recno : BitVec 15) (tag : BitVec 128)
  /-- KEY_UPDATE_START (R237). -/
  | keyUpdateStart (port : CanPort)
  /-- KUPD (R237). -/
  | kupd (port : CanPort) (epoch : Byte) (lun : BitVec 16)
  /-- KUPD_REPEAT (R237). -/
  | kupdRepeat (port : CanPort)
  /-- KACK (R237). -/
  | kack (port : CanPort) (epoch : Byte)
  /-- KACK_TIMEOUT (R237). -/
  | kackTimeout (port : CanPort)
  /-- CAPS (R222). -/
  | caps (port : CanPort) (part : Fin 4) (content : BitVec 36) (pref : Fin 3)
  /-- KSHARE (R236). -/
  | kshare (port : CanPort) (index : Fin 24) (w : Word)
  /-- HSFIN (R240). -/
  | hsfin (port : CanPort) (verify : Word)
  /-- TSYNC (R369). -/
  | tsync (port : CanPort) (seq : Fin 64) (tb : TimeBase)
  /-- TTX (R370). -/
  | ttx (port : CanPort) (x : XchTag) (ns : BitVec 22) (fr : BitVec 8)
  /-- TRX (R370). -/
  | trx (port : CanPort) (x : XchTag) (ns : BitVec 22) (fr : BitVec 8)
  /-- LINK_TIME_TSYNC (R369). -/
  | linkTimeTsync (port : CanPort)
  /-- EXCHANGE_ABANDON (R369). -/
  | exchangeAbandon (port : CanPort)
  /-- ENTER_MODE (R240). -/
  | enterMode (port : CanPort)
  /-- TRAINING_LIMIT (R241). -/
  | trainingLimit (port : CanPort)
  /-- RETRAIN (R218). -/
  | retrain (path : Path) (port : CanPort)
  /-- UPREF_WRITE (R244). -/
  | uprefWrite (crown : Crown) (v : Word)
  /-- RECEIVER_DETECT (R259). -/
  | receiverDetect (cell : LaneCell)
  /-- TS1 (R259). -/
  | ts1 (cell : LaneCell) (pairB : Bool) (info : BitVec 11) (inverted : Bool)
  /-- TS2 (R258). -/
  | ts2 (cell : LaneCell) (pairB : Bool) (count : Fin 16) (seed : BitVec 31)
  /-- LOSS_OF_LOCK (R262). -/
  | lossOfLock (cell : LaneCell) (pairB : Bool)
  /-- LOS (R262). -/
  | los (cell : LaneCell) (pairB : Bool)
  /-- LOS_TIMEOUT (R263). -/
  | losTimeout (port : Port)
  /-- RETRAIN_TIMEOUT (R260). -/
  | retrainTimeout (port : Port)
  /-- SELFCHK_COMPLETE (R261). -/
  | selfchkComplete (cell : LaneCell) (pass : Bool)
  /-- RTRN (R260). -/
  | rtrn (path : Path) (cell : LaneCell)
  /-- HOLD (R272). -/
  | hold (path : Path) (cell : LaneCell) (on : Bool)
  /-- TEST_ENABLE (R272). -/
  | testEnable (path : Path) (cell : LaneCell) (v : Word)
  /-- CLR (R276). -/
  | clr (path : Path) (cell : LaneCell)
  /-- INJECT (R271). -/
  | inject (path : Path) (cell : LaneCell) (v : Word)
  /-- INJECT_COMPLETE (R271). -/
  | injectComplete (cell : LaneCell)
  /-- PIPE_LINE_START (R225). -/
  | pipeLineStart (d : Pipe)
  /-- LINE_DECISION (R289). -/
  | lineDecision (d : Pipe)
  /-- PIXEL_UNIT (R284). -/
  | pixelUnit (d : Pipe) (line : Nat) (data : Bytes)
  /-- SECONDARY_DATA_PACKET (R283). -/
  | secondaryDataPacket (d : Pipe) (line : Nat) (data : Bytes)
  /-- AUX_REQUEST (R314). -/
  | auxRequest (d : Pipe) (data : Bytes)
  /-- AUX_REPLY (R283). -/
  | auxReply (d : Pipe) (data : Bytes)
  /-- HPD_INTERRUPT (R283). -/
  | hpdInterrupt (d : Pipe)
  /-- STREAM_ATTRIBUTES (R286). -/
  | streamAttributes (d : Pipe) (data : Bytes)
  /-- PIPE_FRAME_START (R297). -/
  | pipeFrameStart (d : Pipe)
  /-- TE_EDGE (R299). -/
  | teEdge (pin : Fin 4)
  /-- TE_MISS (R299). -/
  | teMiss (d : Pipe)
  /-- GENLOCK_EDGE (R298). -/
  | genlockEdge
  /-- FSBASE_WRITE (R290). -/
  | fsbaseWrite (path : Path) (d : Pipe) (v : Word)
  /-- TLP (R311). -/
  | tlp (port : Port) (tun : Tun) (ok : Bool) (prefixes : Bytes) (head : Bytes) (data : Bytes)
  /-- USB3_PACKET (R311). -/
  | usb3Packet (port : Port) (tun : Tun) (ok : Bool) (head : Bytes) (data : Bytes)
  /-- ETHERNET_FRAME (R321). -/
  | ethernetFrame (port : Port) (frame : Bytes) (ok : Bool)
  /-- HPD_CHANGE (R314). -/
  | hpdChange (port : Port) (high : Bool) (partner : Option Partner)
  /-- DP_LINK_TRAINING (R313). -/
  | dpLinkTraining (port : Port) (tries : List DpTry)
  /-- EJECT_PRESS (R318). -/
  | ejectPress (port : Port)
  /-- EJREQ (R324). -/
  | ejreq (path : Path) (port : Port)
  /-- POWER_CONTROLLER_OFF (R318). -/
  | powerControllerOff (port : Port)
  /-- POWER_CONTROLLER_ON (R318). -/
  | powerControllerOn (port : Port)
  /-- EJECT_LINK_DISABLE (R318). -/
  | ejectLinkDisable (port : Port)
  /-- SURPRISE_REMOVAL (R319). -/
  | surpriseRemoval (port : Port)
  /-- ETHMAP_WRITE (R322). -/
  | ethmapWrite (path : Path) (port : Port) (v : Word)
  /-- MAXFRM_WRITE (R322). -/
  | maxfrmWrite (path : Path) (port : Port) (v : Word)
  /-- PFCEN_WRITE (R325). -/
  | pfcenWrite (path : Path) (port : Port) (v : Word)
  /-- LINK_UP (R22). -/
  | linkUp (port : Port) (partner : Partner)
  /-- LINK_DOWN (R263). -/
  | linkDown (port : Port)
  /-- PASS_OVER (R328). -/
  | passOver (crown : Crown)
  /-- UPSTREAM_CHANGE (R331). -/
  | upstreamChange
  /-- BUS_RESET (R344). -/
  | busReset (high : Bool)
  /-- PORT_RESET (R345). -/
  | portReset (n : TreePort) (speed : Fin 4)
  /-- DEVICE_CONNECT (R338). -/
  | deviceConnect (n : TreePort) (pullup : Option Bool)
  /-- OVERCURRENT (R337). -/
  | overcurrent (n : TreePort)
  /-- BABBLE (R340). -/
  | babble (n : TreePort)
  /-- GLOBAL_SUSPEND (R347). -/
  | globalSuspend
  /-- REMOTE_WAKE (R348). -/
  | remoteWake (n : TreePort) (enabled : Bool)
  /-- RESUME_END (R349). -/
  | resumeEnd (n : TreePort)
  /-- PORT_SUSPEND (R347). -/
  | portSuspend (n : TreePort)
  /-- PORT_POWER (R337). -/
  | portPower (n : TreePort) (on : Bool)
  /-- CLEAR_TT_BUFFER (R339). -/
  | clearTtBuffer (n : TreePort) (buf : Byte)
  /-- RESET_TT (R339). -/
  | resetTt (n : TreePort)
  /-- CLEAR_FEATURE_ENDPOINT_HALT (R342). -/
  | clearFeatureEndpointHalt
  /-- SET_CONFIGURATION (R342). -/
  | setConfiguration (cfg : Byte)
  /-- SET_INTERFACE (R342). -/
  | setInterface (alt : Byte)
  /-- TBINCI_WRITE (R355). -/
  | tbinciWrite (path : Path) (n : TimeBase) (v : Word)
  /-- TBINCF_WRITE (R355). -/
  | tbincfWrite (path : Path) (n : TimeBase) (v : Word)
  /-- RUN (R356). -/
  | run (path : Path) (n : TimeBase) (v : Word)
  /-- TBLD_WRITE (R356). -/
  | tbldWrite (path : Path) (n : TimeBase) (fr : Bool) (v : Word)
  /-- WRAP (R354). -/
  | wrap (n : TimeBase)
  /-- TAKE (R358). -/
  | take (path : Path)
  /-- TIME_SEND (R365). -/
  | timeSend (port : Port) (header : Bytes) (frame : Bytes)
  /-- TIME_SEND_REPORT (R366). -/
  | timeSendReport (port : Port) (header : Bytes) (frame : Bytes)
  /-- TIME_SEND_CORRECTION (R367). -/
  | timeSendCorrection (port : Port) (header : Bytes) (frame : Bytes)
  /-- COMPARE (R375). -/
  | compare (e : EvtPin)
  /-- RASTER_COMPARE (R376). -/
  | rasterCompare (e : EvtPin)
  /-- PULSE_END (R374). -/
  | pulseEnd (e : EvtPin)
  /-- LVLCLR (R380). -/
  | lvlclr (path : Path) (e : EvtPin)
  /-- CAPTURE (R377). -/
  | capture (e : EvtPin) (rising : Bool)
  /-- FAULT_REPORT (R385). -/
  | faultReport (kind : Fin 16) (unit : Byte) (tun : Byte) (det : Byte)
  /-- FAILOVER (R393). -/
  | failover
  /-- PROGRESS_WATCHDOG (R384). -/
  | progressWatchdog (g : Grove)
  /-- ARBITER_WATCHDOG (R384). -/
  | arbiterWatchdog (g : Grove)
  /-- CHECKPOINT (R386). -/
  | checkpoint (g : Grove)
  /-- CHECKPOINT_COMPLETE (R386). -/
  | checkpointComplete (g : Grove)
  /-- GF_SELFTEST (R394). -/
  | gfSelftest (ok : Bool)
  /-- LOCKSTEP_MISMATCH (R396). -/
  | lockstepMismatch
  /-- MANAGEMENT_WATCHDOG (R396). -/
  | managementWatchdog
  /-- MGMT_RESTART_COMPLETE (R396). -/
  | mgmtRestartComplete (aOk : Bool) (bOk : Bool)
  /-- FLTINJ (R400). -/
  | fltinj (path : Path) (v : Word)
  /-- POR (R416). -/
  | por
  /-- BROWN_OUT (R416). -/
  | brownOut
  /-- RESET_N (R416). -/
  | resetN
  /-- WARM_N (R416). -/
  | warmN
  /-- THERMAL_TRIP (R416). -/
  | thermalTrip
  /-- COLD (R423). -/
  | cold (path : Path) (v : Word)
  /-- WARM (R423). -/
  | warm (path : Path) (v : Word)
  /-- PRST (R423). -/
  | prst (path : Path) (v : Word)
  /-- RESET_RELEASE (R420). -/
  | resetRelease (src : ResetSrc)
  /-- DOMAIN_RELEASE (R419). -/
  | domainRelease
  /-- FUSE_LOAD_ATTEMPT (R410). -/
  | fuseLoadAttempt (errs : List FuseErr)
  /-- POWER_GATE_OPEN (R404). -/
  | powerGateOpen
  /-- FIRMWARE_BOOT (R406). -/
  | firmwareBoot (sfdp : Option Nat)
  /-- LPDDR_TRAINING_COMPLETE (R407). -/
  | lpddrTrainingComplete
  /-- CORE_PG (R515). -/
  | corePg (high : Bool)
  /-- CORE_PG_TIMEOUT (R515). -/
  | corePgTimeout
  /-- PS_REQUEST (R432). -/
  | psRequest (path : Path) (v : Word)
  /-- AUTO_DROWSE (R432). -/
  | autoDrowse
  /-- PARTICIPANT_ANSWER (R433). -/
  | participantAnswer (who : Participant) (ans : Answer)
  /-- DEFER_EXPIRY (R433). -/
  | deferExpiry (who : Participant)
  /-- ENTRY_COMMIT (R434). -/
  | entryCommit
  /-- AON_ARMED (R434). -/
  | aonArmed
  /-- WAKE (R436). -/
  | wake (src : WakeSrc)
  /-- RETURN_STEP (R437). -/
  | returnStep
  /-- RETURN_TIMEOUT (R437). -/
  | returnTimeout
  /-- BUTTON (R438). -/
  | button (e : BtnPort)
  /-- LINK_IDLE (R429). -/
  | linkIdle (port : Port)
  /-- CC_ATTACH (R446). -/
  | ccAttach (port : CanPort) (cc2 : Bool) (asSource : Bool) (info : CcInfo)
  /-- CC_DETACH (R446). -/
  | ccDetach (port : CanPort)
  /-- VBUS_LOSS (R446). -/
  | vbusLoss (port : CanPort)
  /-- DRP_TOGGLE (R446). -/
  | drpToggle (port : CanPort)
  /-- SOURCE_CAPABILITIES (R449). -/
  | sourceCapabilities (port : CanPort) (pdos : Words)
  /-- REQUEST (R455). -/
  | request (port : CanPort) (rdo : Word)
  /-- CONVERTER_STEP (R454). -/
  | converterStep (port : CanPort) (meas : Nat)
  /-- PS_RDY (R455). -/
  | psRdy (port : CanPort)
  /-- TRANSITION_LIMIT (R455). -/
  | transitionLimit (port : CanPort)
  /-- HARD_RESET (R455). -/
  | hardReset (port : CanPort)
  /-- HRST (R460). -/
  | hrst (path : Path) (port : CanPort)
  /-- ERREC (R459). -/
  | errec (path : Path) (port : CanPort)
  /-- DR_SWAP (R448). -/
  | drSwap (port : CanPort) (fromPartner : Bool) (accepted : Bool)
  /-- PR_SWAP (R452). -/
  | prSwap (port : CanPort) (fromPartner : Bool) (accepted : Bool)
  /-- VCONN_SWAP (R447). -/
  | vconnSwap (port : CanPort)
  /-- PPS_CURRENT_LIMIT (R456). -/
  | ppsCurrentLimit (port : CanPort) (above : Bool)
  /-- PPS_TIMEOUT (R456). -/
  | ppsTimeout (port : CanPort)
  /-- EPR_KEEPALIVE_TIMEOUT (R456). -/
  | eprKeepaliveTimeout (port : CanPort)
  /-- DISCOVER_SVIDS (R239). -/
  | discoverSvids (port : CanPort)
  /-- DISCOVER_MODES (R239). -/
  | discoverModes (port : CanPort) (svid : BitVec 16)
  /-- ENTER_USB (R241). -/
  | enterUsb (port : CanPort) (mode : Fin 8)
  /-- POWER_GOOD (R466). -/
  | powerGood (ch : Channel)
  /-- SHORT_CIRCUIT (R467). -/
  | shortCircuit (ch : Channel)
  /-- CHANNEL_OVERCURRENT (R467). -/
  | channelOvercurrent (ch : Channel)
  /-- FAULT_TIMER (R467). -/
  | faultTimer (ch : Channel)
  /-- UNDERVOLTAGE (R467). -/
  | undervoltage (ch : Channel)
  /-- REVERSE_CURRENT (R467). -/
  | reverseCurrent (ch : Channel)
  /-- RETRY_BACKOFF (R468). -/
  | retryBackoff (ch : Channel)
  /-- CHANNEL_CLR (R482). -/
  | channelClr (path : Path) (ch : Channel)
  /-- FEED_QUALIFIED (R471). -/
  | feedQualified (feedB : Bool)
  /-- FEED_LOSS (R471). -/
  | feedLoss
  /-- DEAD_TIME (R471). -/
  | deadTime
  /-- FEED_RETURN (R471). -/
  | feedReturn
  /-- PWRWARN (R473). -/
  | pwrwarn
  /-- FEED_PRESENCE (R472). -/
  | feedPresence (feedB : Bool) (present : Bool)
  /-- LEASE_RECOMPUTE (R480). -/
  | leaseRecompute
  /-- LEASE_OVERDRAW (R479). -/
  | leaseOverdraw (port : CanPort)
  /-- BUDGET_WRITE (R474). -/
  | budgetWrite (path : Path) (v : Word)
  /-- LOAD (R495). -/
  | load (path : Path) (v : Word)
  /-- KEY_WRITE (R495). -/
  | keyWrite (path : Path) (v : Word)
  /-- STORE (R497). -/
  | store (path : Path) (v : Word)
  /-- STORE_COMPLETE (R494). -/
  | storeComplete (ok : Bool)
  /-- DESTROY (R497). -/
  | destroy (path : Path) (v : Word)
  /-- ATTEST (R500). -/
  | attest (path : Path) (v : Word)
  /-- ZEROISE (R502). -/
  | zeroise (path : Path)
  /-- REMASK (R490). -/
  | remask (flip : Bool)
  /-- TAMPER_ALARM (R504). -/
  | tamperAlarm (src : Fin 4)
  /-- THERMAL_SAMPLE (R524). -/
  | thermalSample (temp : BitVec 16)
  /-- LOSS_OF_ALIGNMENT (R213). -/
  | lossOfAlignment (port : CanPort)
  /-- DELINEATION_ERROR (R229). -/
  | delineationError (e : LostWord)
  /-- CELL_LOS_TIMEOUT (R219). -/
  | cellLosTimeout (cell : LaneCell)
  /-- STANDARD_RECOVERY (R264). -/
  | standardRecovery (r : Recovery)
  /-- CHECKER_SYNC (R269). -/
  | checkerSync (cell : LaneCell) (pairB : Bool)
  /-- CHECKER_ERROR (R278). -/
  | checkerError (cell : LaneCell) (pairB : Bool)
  /-- PORT_UP_HOLD (R527). -/
  | portUpHold (port : Port)
  /-- POWER_GOOD_HOLD (R468). -/
  | powerGoodHold (ch : Channel)
  /-- REF_LOCK (R419). -/
  | refLock
  /-- CORE_EN_RETRY (R515). -/
  | coreEnRetry
  /-- CC_TERMINATION_CHANGE (R457). -/
  | ccTerminationChange (port : CanPort) (present : Bool)
  /-- VBUS_DISCHARGED (R457). -/
  | vbusDischarged (port : CanPort)
  /-- ERROR_RECOVERY_END (R459). -/
  | errorRecoveryEnd (port : CanPort)
  /-- EXPLICIT_CONTRACT (R448). -/
  | explicitContract (port : CanPort)
  /-- CLEARFEATURE_PORT_SUSPEND (R349). -/
  | clearfeaturePortSuspend (n : TreePort)
  /-- GLOBAL_SUSPEND_END (R348). -/
  | globalSuspendEnd
  /-- ROUTER_RESET (R416). -/
  | routerReset
  /-- CASCADE_MGMT_RESPONSE (R70). -/
  | cascadeMgmtResponse (port : CanPort) (op : Byte) (tag : Byte) (status : Byte) (count : Byte) (addr : Word) (data : Words)
  /-- ANSWER_TIMEOUT (R433). -/
  | answerTimeout (who : Participant)
  /-- RAMP_COMPLETE (R465). -/
  | rampComplete (ch : Channel)
  /-- OVERCURRENT_END (R467). -/
  | overcurrentEnd (ch : Channel)
  /-- RATING_EXCURSION (R523). -/
  | ratingExcursion (supply : Byte) (ended : Bool)
  /-- AVS_DEVIATION (R526). -/
  | avsDeviation (meas : BitVec 12)
deriving DecidableEq, Repr

end Sys2Proof
end

