-- ==== Sys2Proof/Decode.lean ====
section
/-! DEFINITION. Commands from words: the table of operations and events gives its rows no bits, so no word spells a command. -/

namespace Sys2Proof

/-- The command that a word of `nbits` bits spells by the table's bits: none, since the table gives no row any bits (log entry 3). -/
def decodeTableWord (_nbits _w : Nat) : Option Instr := none

end Sys2Proof
end

