-- ==== Sys2Proof/Config.lean ====
section
/-! DEFINITION. What the manual leaves to a standard or leaves open: constants with no body, so that nothing can be
proved from a value the model chose. -/

namespace Sys2Proof

/-- A value that the spec leaves undefined, by the number of the occasion (`State.freeCtr`; log entry 4). -/
opaque Config.free : Nat → Nat

/-- The colouring that the firmware's algorithm gives a colour demand, keyed 20 * input + colour (R134): where it is not a valid
map of the demand, the model takes one of its own. -/
opaque Config.expressMap : NMap Nat → NMap Nat

/-- SHA-384 of a byte string (FIPS 180-4), 48 bytes (R47). -/
opaque Config.sha384 : Bytes → Bytes

/-- SHA-256 of a byte string, 32 bytes. -/
opaque Config.sha256 : Bytes → Bytes

/-- Whether an ECDSA P-384 signature over a digest verifies under a public key (R47). -/
opaque Config.ecdsaOk : (key sig digest : Bytes) → Bool

/-- The public P-384 key of a private scalar (R501). -/
opaque Config.ecdsaPub : Bytes → Bytes

/-- AES-256-GCM decryption: the plaintext, none where the tag fails (R48). -/
opaque Config.gcmOpen : (key iv aad ct tag : Bytes) → Option Bytes

/-- AES-256-GCM encryption: ciphertext and tag. -/
opaque Config.gcmSeal : (key iv aad pt : Bytes) → Bytes × Bytes

/-- AES-KWP unwrapping (RFC 5649): none where the integrity check fails (R48, R498). -/
opaque Config.kwpUnwrap : (kek wrapped : Bytes) → Option Bytes

/-- HMAC-SHA-384. -/
opaque Config.hmac384 : (key msg : Bytes) → Bytes

/-- HKDF-Expand with SHA-384, to a length (RFC 5869); HKDF-Extract is `hmac384` under the salt. -/
opaque Config.hkdfExpand : (prk info : Bytes) → Nat → Bytes

/-- Whether 96 bytes are a point on P-384 (R240). -/
opaque Config.pointOk : Bytes → Bool

/-- The shared secret of an elliptic-curve exchange between a private scalar and a public value. -/
opaque Config.ecdh : (priv pub : Bytes) → Bytes

/-- The device secret DS in its fuse row, 32 bytes (R491). -/
opaque Config.deviceSecret : Bytes

/-- Whether the row of DS passes its own CRC-16 (R491). -/
opaque Config.deviceSecretOk : Bool

/-- HMAC-SHA-256 (R492, R500). -/
opaque Config.hmac256 : (key msg : Bytes) → Bytes

/-- What R192 needs of a stream whose figures the hub is not told, by the identity of the partner it comes through and the pipe or child pair
(log entry 51): its segments per active line, its line period in ps, and the cycle T_c in ps of each other hub on its path that is not locked
to its raster, 0 for one that is. -/
opaque Config.farStream : (ident key : Nat) → Nat × Nat × List Nat

/-- The grant lead of a stream for which no lead of R192 exists at the shortest cycle, by its line period and its cycles (log entry 51). -/
opaque Config.leadBeyond : (line : Nat) → (cycles : List Nat) → Nat

/-- Which of its two management tunnels a child serves towards its parent, by the child's identity (R99, log entry 51). -/
opaque Config.childCrown : Nat → Nat

/-- Where the PCI Express capability stands in the configuration space of the switch's ports, a multiple of 4 (R317, log entry 113). -/
opaque Config.pcieCap : Nat

/-- What the die's trims make of the AVS duty (R516, log entry 118). -/
opaque Config.avsTrim : List Nat → Nat

/-- The board's VIO_F (false) and VIO_M (true) are at 3.3 V (R513, R514, log entry 119). -/
opaque Config.bank33 : Bool → Bool

end Sys2Proof
end

