-- ==== Sys2Proof/Machine/Maps.lean ====
section
/-! DEFINITION. The operations on sparse maps and on byte memories, and the plain number helpers (bits, byte order,
saturation) that every other file uses. -/

namespace Sys2Proof.Machine

/-- The value listed at a key. -/
def mfind {α : Type} (m : NMap α) (k : Nat) : Option α :=
  match m with
  | [] => none
  | e :: t => if k = e.1 then some e.2 else mfind t k

/-- The value at a key, `d` where none is listed. -/
def mget {α : Type} (d : α) (m : NMap α) (k : Nat) : α := (mfind m k).getD d

/-- List `v` at `k`, keeping the keys rising. -/
def mins {α : Type} (m : NMap α) (k : Nat) (v : α) : NMap α :=
  match m with
  | [] => [(k, v)]
  | e :: t => if k < e.1 then (k, v) :: e :: t else if k = e.1 then (k, v) :: t else e :: mins t k v

/-- Drop what is listed at `k`. -/
def mdel {α : Type} (m : NMap α) (k : Nat) : NMap α := m.filter fun e => e.1 ≠ k

/-- Give key `k` the value `v` in a map whose unlisted keys read `d`: the default is never listed. -/
def mput {α : Type} [DecidableEq α] (d : α) (m : NMap α) (k : Nat) (v : α) : NMap α :=
  if v = d then mdel m k else mins m k v

/-- The canonical form: keys strictly rising, no default listed. -/
def mwf {α : Type} [DecidableEq α] (d : α) (m : NMap α) : Bool :=
  (m.map Prod.fst).Pairwise (· < ·) && m.all fun e => e.2 ≠ d

/-- Apply `f` to every listed value (for a map whose default `f` keeps). -/
def mmap {α : Type} (f : Nat → α → α) (m : NMap α) : NMap α := m.map fun e => (e.1, f e.1 e.2)

/-! ### Byte memories: a canonical list of cells whose unlisted addresses read `d`. -/

/-- One byte. -/
def memGet (d : Byte) (m : NMap Byte) (a : Nat) : Byte := mget d m a

/-- `n` bytes from address `a`. -/
def memRead (d : Byte) (m : NMap Byte) (a n : Nat) : Bytes := (List.range n).map fun i => memGet d m (a + i)

/-- Store bytes from address `a` on. -/
def memWrite (d : Byte) (m : NMap Byte) (a : Nat) : Bytes → NMap Byte
  | [] => m
  | b :: t => memWrite d (mput d m a b) (a + 1) t

/-! ### Numbers -/

/-- Bits `hi : lo` of a number. -/
def bits (x hi lo : Nat) : Nat := x / 2 ^ lo % 2 ^ (hi + 1 - lo)

/-- Bit `k` of a number. -/
def bit (x k : Nat) : Bool := x / 2 ^ k % 2 = 1

/-- 1 or 0. -/
def b2n (b : Bool) : Nat := if b then 1 else 0

/-- Add one, holding at `m` (a saturating counter). -/
def satInc (m x : Nat) : Nat := if x < m then x + 1 else x

/-- The whole part of x / y, rounded up; 0 where y is 0. -/
def ceilDiv (x y : Nat) : Nat := (x + y - 1) / y

/-- A little-endian number (R6). -/
def leNat : Bytes → Nat
  | [] => 0
  | b :: t => b.toNat + 256 * leNat t

/-- The `n` low bytes of a number, little-endian (R6). -/
def leBytes : Nat → Nat → Bytes
  | 0, _ => []
  | n + 1, x => BitVec.ofNat 8 x :: leBytes n (x / 256)

/-- A big-endian number. -/
def beNat (bs : Bytes) : Nat := bs.foldl (fun a b => 256 * a + b.toNat) 0

/-- The `n` low bytes of a number, most significant first. -/
def beBytes (n x : Nat) : Bytes := (leBytes n x).reverse

/-- Byte strings as little-endian words; bytes short of a word are dropped (R79, R83, R84). -/
def bytesWords : Bytes → Words
  | a :: b :: c :: d :: t => BitVec.ofNat 32 (leNat [a, b, c, d]) :: bytesWords t
  | _ => []

/-- Words as little-endian bytes. -/
def wordsBytes (ws : Words) : Bytes := ws.flatMap fun w => leBytes 4 w.toNat

/-- The bytes of a slice of a byte string; a byte past its end is left out. -/
def slice (bs : Bytes) (off n : Nat) : Bytes := (bs.drop off).take n

/-- The little-endian number of `n` bytes at `off`. -/
def leAt (bs : Bytes) (off n : Nat) : Nat := leNat (slice bs off n)

/-- A byte at an offset, 0 past the end. -/
def byteAt (bs : Bytes) (off : Nat) : Nat := (bs.getD off 0).toNat

/-- Cut a byte string into records of `n` bytes; `fuel` bounds the number of records. -/
def records (n : Nat) : Nat → Bytes → List Bytes
  | 0, _ => []
  | fuel + 1, bs => if bs.length < n then [] else bs.take n :: records n fuel (bs.drop n)

/-- A reflected CRC step over eight bits: the IEEE 802.3 CRC-32 (R34, R410). -/
def crc32Bits : Nat → Nat → Nat
  | 0, c => c
  | n + 1, c => crc32Bits n (if c % 2 = 1 then (c / 2) ^^^ 0xEDB88320 else c / 2)

/-- The IEEE 802.3 CRC-32 of a byte string. -/
def crc32 (bs : Bytes) : Nat :=
  (bs.foldl (fun c b => crc32Bits 8 (c ^^^ b.toNat)) 0xFFFFFFFF) ^^^ 0xFFFFFFFF

/-- Eight steps of the CRC-16 with polynomial 0x1021, most significant bit first (R102). -/
def crc16Bits : Nat → Nat → Nat
  | 0, c => c
  | n + 1, c => crc16Bits n (if 0x8000 ≤ c then (2 * c % 65536) ^^^ 0x1021 else 2 * c)

/-- The header check of R102: initial value 0xFFFF, no reflection, no final inversion. -/
def crc16 (bs : Bytes) : Nat := bs.foldl (fun c b => crc16Bits 8 (c ^^^ (b.toNat * 256))) 0xFFFF

end Sys2Proof.Machine
end

