-- ==== Sys2Proof/Machine/Regs.lean ====
section
/-! DEFINITION. The register map: every register and field that the spec's register tables define, its address
(R72), its access code (R7), its reset value and reach (R10), and the range of values it takes where the table
states one. A value outside that range is a reserved encoding of the field (R8; DEDUCED, log entry 7). -/

namespace Sys2Proof.Machine

/-- Access codes (R7). -/
inductive Acc where
  | ro | rw | wo | w1c | w1s | rwl
deriving DecidableEq, Repr

/-- The narrowest reset that restores a value (R10); `none` is the mark for a live value. -/
inductive Reach where
  | P | G | W | C | POR | none
deriving DecidableEq, Repr

/-- One field of one register. `key` is its bit address: eight times the byte address plus its low bit. -/
structure Fld where
  key : Nat
  w : Nat
  acc : Acc
  reach : Reach
  reset : Nat
  lo : Nat
  hi : Nat
deriving DecidableEq, Repr

/-- A field of width `w` at bit `lo` of the register at byte address `a`. -/
def fld (a lo w : Nat) (acc : Acc) (reach : Reach) (reset : Nat) (mn : Nat := 0) (mx : Nat := 2 ^ w - 1) : Fld :=
  { key := 8 * a + lo, w := w, acc := acc, reach := reach, reset := reset, lo := mn, hi := mx }

/-- The low bit of the field inside its register. -/
def Fld.pos (f : Fld) : Nat := f.key % 32

/-- The grove of a port P0-P19 (R14); 8 where there is none. -/
def portGrove (p : Nat) : Nat :=
  match p with
  | 0 => 0 | 2 => 0 | 1 => 1 | 3 => 1 | 4 => 2 | 5 => 2 | 6 => 3 | 7 => 3 | 8 => 4 | 9 => 4 | 10 => 5 | 11 => 5
  | 12 => 6 | 13 => 6 | 14 => 6 | 15 => 6 | 16 => 7 | 17 => 7 | 18 => 7 | 19 => 7 | _ => 8

/-- The port's place, in ascending order, among the ports of its grove (R177). -/
def portPlace (p : Nat) : Nat :=
  match p with
  | 2 => 1 | 3 => 1 | 5 => 1 | 7 => 1 | 9 => 1 | 11 => 1 | 13 => 1 | 14 => 2 | 15 => 3 | 17 => 1 | 18 => 2
  | 19 => 3 | _ => 0

/-- The port of grove `g` at place `k`. -/
def portOf (g k : Nat) : Option Nat := (List.range 20).find? fun p => portGrove p = g && portPlace p = k

/-- The address of a register that each port has in its grove's range at `off + st * place` (R177). -/
def portReg (p off st : Nat) : Nat := 0x100000 + 0x10000 * portGrove p + off + st * portPlace p

/-- The port that owns a lane cell (R14). -/
def cellPort (c : Nat) : Nat :=
  if c < 16 then
    (match c / 2 with | 0 => 0 | 1 => 2 | 2 => 1 | 3 => 3 | k => k)
  else if c < 24 then 8 + (c - 16) / 2 else c - 12

/-- The grove that owns a lane cell (R14). -/
def cellGrove (c : Nat) : Nat := c / 4

/-- Each path has its own instance of some registers (R75, R496): the model keeps path `i`'s instance beside
the 32-bit address space. -/
def instanceAddr (i : Nat) : Nat := i * 2 ^ 32

/-! ### The fields -/

/-- R29. -/
def SYS_SETTLE_PEND : Fld := fld (0x60) 31 1 .ro .W 0

/-- R29. -/
def SYS_SETTLE_RUN : Fld := fld (0x60) 30 1 .ro .W 0

/-- R29. -/
def SYS_SETTLE_LEFT : Fld := fld (0x60) 16 12 .ro .W 0

/-- R29. -/
def SYS_SETTLE_SOLVES : Fld := fld (0x60) 0 16 .ro .W 0

/-- R30. -/
def SYS_GUARD_RATED : Fld := fld (0x64) 31 1 .ro .none 0

/-- R30. -/
def SYS_GUARD_SETTLED : Fld := fld (0x64) 30 1 .ro .W 0

/-- R30. -/
def SYS_GUARD_SINGLE : Fld := fld (0x64) 29 1 .ro .C 1

/-- R30. -/
def SYS_GUARD_USB4X : Fld := fld (0x64) 28 1 .ro .W 0

/-- R30. -/
def SYS_GUARD_EXCUR : Fld := fld (0x64) 16 8 .ro .C 0

/-- R30. -/
def SYS_GUARD_FAULTS : Fld := fld (0x64) 8 8 .ro .C 0

/-- R30. -/
def SYS_GUARD_EXC : Fld := fld (0x64) 0 1 .w1c .C 0

/-- R63. -/
def CFG_STATUS_LOADED : Fld := fld (0x40000) 31 1 .ro .W 0

/-- R63. -/
def CFG_STATUS_COPY : Fld := fld (0x40000) 30 1 .ro .W 0

/-- R63. -/
def CFG_STATUS_ENC : Fld := fld (0x40000) 29 1 .ro .W 0

/-- R63. -/
def CFG_STATUS_FALLBK : Fld := fld (0x40000) 28 1 .ro .W 0

/-- R63. -/
def CFG_STATUS_HOLD : Fld := fld (0x40000) 27 1 .ro .W 0

/-- R63. -/
def CFG_STATUS_RESA : Fld := fld (0x40000) 20 4 .ro .W 0

/-- R63. -/
def CFG_STATUS_RESB : Fld := fld (0x40000) 16 4 .ro .W 0

/-- R63. -/
def CFG_STATUS_SVN : Fld := fld (0x40000) 8 8 .ro .W 0

/-- R63. -/
def CFG_STATUS_ARBCNT : Fld := fld (0x40000) 0 6 .ro .none 0

/-- R66. -/
def CFG_CTL_CHECK : Fld := fld (0x40040) 2 1 .w1s .W 0

/-- R66. -/
def CFG_CTL_ADVANCE : Fld := fld (0x40040) 1 1 .w1s .W 0

/-- R67. -/
def CFG_RELOAD_GO : Fld := fld (0x40044) 31 1 .w1s .W 0

/-- R67. -/
def CFG_RELOAD_GROVE : Fld := fld (0x40044) 0 4 .rw .W 0 0 7

/-- R67. -/
def CFG_RLDST_BUSY : Fld := fld (0x40048) 31 1 .ro .W 0

/-- R67. -/
def CFG_RLDST_DONE : Fld := fld (0x40048) 30 1 .w1c .W 0

/-- R67. -/
def CFG_RLDST_REJ : Fld := fld (0x40048) 29 1 .w1c .W 0

/-- R67. -/
def CFG_RLDST_ABORT : Fld := fld (0x40048) 28 1 .w1c .W 0

/-- R67. -/
def CFG_RLDST_CAUSE : Fld := fld (0x40048) 20 4 .ro .W 0

/-- R67. -/
def CFG_RLDST_PORTS : Fld := fld (0x40048) 0 4 .ro .W 0

/-- R68. -/
def CFG_ENVERR_ERR : Fld := fld (0x4004c) 31 1 .w1c .W 0

/-- R68. -/
def CFG_ENVERR_CLAMP : Fld := fld (0x4004c) 30 1 .w1c .W 0

/-- R68. -/
def CFG_ENVERR_LOCK : Fld := fld (0x4004c) 29 1 .w1c .W 0

/-- R68. -/
def CFG_ENVERR_COUNT : Fld := fld (0x4004c) 0 16 .ro .W 0

/-- R68. -/
def CFG_ENVADDR_ADDR : Fld := fld (0x40050) 0 32 .ro .W 0

/-- R71. -/
def SYS_PATH_ENTUN1 : Fld := fld (0x18) 3 1 .rwl .C 1

/-- R71. -/
def SYS_PATH_ENTUN0 : Fld := fld (0x18) 2 1 .rwl .C 1

/-- R71. -/
def SYS_PATH_ENUSB : Fld := fld (0x18) 1 1 .rwl .C 1

/-- R71. -/
def SYS_PATH_ENBRD : Fld := fld (0x18) 0 1 .rwl .C 1

/-- R75. -/
def SYS_DWADDR_ADDR (i : Nat) : Fld := fld (instanceAddr i + 0x20) 2 30 .rw .W 0

/-- R75. -/
def SYS_DWCTL_BUSY (i : Nat) : Fld := fld (instanceAddr i + 0x24) 31 1 .ro .W 0

/-- R75. -/
def SYS_DWCTL_ERR (i : Nat) : Fld := fld (instanceAddr i + 0x24) 30 1 .w1c .W 0

/-- R75. -/
def SYS_DWCTL_LEN (i : Nat) : Fld := fld (instanceAddr i + 0x24) 16 11 .rw .W 1 1 1024

/-- R75. -/
def SYS_DWCTL_STEP (i : Nat) : Fld := fld (instanceAddr i + 0x24) 4 8 .rw .W 1

/-- R75. -/
def SYS_DWCTL_ARM (i : Nat) : Fld := fld (instanceAddr i + 0x24) 1 1 .wo .W 0

/-- R75. -/
def SYS_DWCTL_DIR (i : Nat) : Fld := fld (instanceAddr i + 0x24) 0 1 .rw .W 0

/-- R75. -/
def SYS_DWDATA_DATA (i : Nat) : Fld := fld (instanceAddr i + 0x28) 0 32 .rw .none 0

/-- R86. -/
def GRV_EVSUM_OWN (i : Nat) : Fld := fld (0x100ff8 + 0x10000 * i) 4 1 .ro .G 0

/-- R86. -/
def GRV_EVSUM_CELL (i : Nat) : Fld := fld (0x100ff8 + 0x10000 * i) 0 4 .ro .G 0

/-- R87. -/
def SYS_EVSUM_SYS : Fld := fld (0x40) 25 1 .ro .W 0

/-- R87. -/
def SYS_EVSUM_RST : Fld := fld (0x40) 24 1 .ro .POR 0

/-- R87. -/
def SYS_EVSUM_FUSE : Fld := fld (0x40) 23 1 .ro .POR 0

/-- R87. -/
def SYS_EVSUM_CFG : Fld := fld (0x40) 22 1 .ro .W 0

/-- R87. -/
def SYS_EVSUM_KEY : Fld := fld (0x40) 21 1 .ro .W 0

/-- R87. -/
def SYS_EVSUM_TIM : Fld := fld (0x40) 20 1 .ro .W 0

/-- R87. -/
def SYS_EVSUM_USB : Fld := fld (0x40) 19 1 .ro .W 0

/-- R87. -/
def SYS_EVSUM_PD : Fld := fld (0x40) 18 1 .ro .POR 0

/-- R87. -/
def SYS_EVSUM_PPATH : Fld := fld (0x40) 17 1 .ro .POR 0

/-- R87. -/
def SYS_EVSUM_PST : Fld := fld (0x40) 16 1 .ro .W 0

/-- R87. -/
def SYS_EVSUM_SCHED : Fld := fld (0x40) 15 1 .ro .W 0

/-- R87. -/
def SYS_EVSUM_MEM : Fld := fld (0x40) 14 1 .ro .W 0

/-- R87. -/
def SYS_EVSUM_FAB : Fld := fld (0x40) 13 1 .ro .W 0

/-- R87. -/
def SYS_EVSUM_PIPE : Fld := fld (0x40) 9 4 .ro .W 0

/-- R87. -/
def SYS_EVSUM_GROVE : Fld := fld (0x40) 0 9 .ro .G 0

/-- R92. -/
def SYS_ID_VENDOR : Fld := fld (0x0) 16 16 .ro .POR 20314

/-- R92. -/
def SYS_ID_DEVICE : Fld := fld (0x0) 0 16 .ro .none 0

/-- R92. -/
def SYS_REV_STEPMAJ : Fld := fld (0x4) 24 8 .ro .POR 1

/-- R92. -/
def SYS_REV_STEPMIN : Fld := fld (0x4) 16 8 .ro .POR 1

/-- R92. -/
def SYS_REV_VARIANT : Fld := fld (0x4) 0 4 .ro .none 0

/-- R92. -/
def SYS_UID_UID (i : Nat) : Fld := fld (0x8 + 0x4 * i) 0 32 .ro .none 0

/-- R92. -/
def SYS_FWVER_MAJOR : Fld := fld (0x10) 24 8 .ro .W 0

/-- R92. -/
def SYS_FWVER_MINOR : Fld := fld (0x10) 16 8 .ro .W 0

/-- R92. -/
def SYS_FWVER_BUILD : Fld := fld (0x10) 0 16 .ro .W 0

/-- R92. -/
def SYS_STAGE_FWRDY : Fld := fld (0x14) 7 1 .ro .W 0

/-- R92. -/
def SYS_STAGE_HOLD : Fld := fld (0x14) 6 1 .ro .W 0

/-- R92. -/
def SYS_STAGE_FUSEFLT : Fld := fld (0x14) 5 1 .ro .POR 0

/-- R92. -/
def SYS_STAGE_STAGE : Fld := fld (0x14) 0 2 .ro .W 0

/-- R120. -/
def TT_STATE_STATE (i : Nat) : Fld := fld (0x400000 + 0x40 * i) 29 3 .ro .W 0

/-- R120. -/
def TT_STATE_GEN (i : Nat) : Fld := fld (0x400000 + 0x40 * i) 27 2 .ro .W 0

/-- R120. -/
def TT_STATE_KIND (i : Nat) : Fld := fld (0x400000 + 0x40 * i) 24 3 .ro .W 0

/-- R120. -/
def TT_STATE_CLS (i : Nat) : Fld := fld (0x400000 + 0x40 * i) 21 3 .ro .W 0

/-- R120. -/
def TT_STATE_MODE (i : Nat) : Fld := fld (0x400000 + 0x40 * i) 18 3 .ro .P 0

/-- R120. -/
def TT_STATE_DIR (i : Nat) : Fld := fld (0x400000 + 0x40 * i) 17 1 .ro .W 0

/-- R120. -/
def TT_STATE_CASC (i : Nat) : Fld := fld (0x400000 + 0x40 * i) 16 1 .ro .W 0

/-- R120. -/
def TT_STATE_PEER (i : Nat) : Fld := fld (0x400000 + 0x40 * i) 8 8 .ro .W 0

/-- R120. -/
def TT_STATE_CAUSE (i : Nat) : Fld := fld (0x400000 + 0x40 * i) 4 4 .ro .W 0

/-- R122. -/
def TT_ENDP_INPORT (i : Nat) : Fld := fld (0x400004 + 0x40 * i) 27 5 .ro .W 0

/-- R122. -/
def TT_ENDP_OUTPORT (i : Nat) : Fld := fld (0x400004 + 0x40 * i) 22 5 .ro .W 0

/-- R122. -/
def TT_ENDP_INFAB (i : Nat) : Fld := fld (0x400004 + 0x40 * i) 17 5 .ro .W 0

/-- R122. -/
def TT_ENDP_OUTFAB (i : Nat) : Fld := fld (0x400004 + 0x40 * i) 12 5 .ro .W 0

/-- R122. -/
def TT_ENDP_PIPE (i : Nat) : Fld := fld (0x400004 + 0x40 * i) 10 2 .ro .W 0

/-- R122. -/
def TT_ENDP_PIPEV (i : Nat) : Fld := fld (0x400004 + 0x40 * i) 9 1 .ro .W 0

/-- R122. -/
def TT_ENDP_CHILD (i : Nat) : Fld := fld (0x400004 + 0x40 * i) 0 8 .ro .W 0

/-- R122. -/
def TT_REQ_PORT (i : Nat) : Fld := fld (0x400008 + 0x40 * i) 27 5 .ro .W 0

/-- R122. -/
def TT_REQ_KIND (i : Nat) : Fld := fld (0x400008 + 0x40 * i) 24 3 .ro .W 0

/-- R122. -/
def TT_REQ_INDEX (i : Nat) : Fld := fld (0x400008 + 0x40 * i) 20 4 .ro .W 0

/-- R122. -/
def TT_REQ_HOME (i : Nat) : Fld := fld (0x400008 + 0x40 * i) 12 8 .ro .W 0

/-- R123. -/
def TT_ALLOT_ACT (i : Nat) : Fld := fld (0x40000c + 0x40 * i) 21 11 .ro .P 0

/-- R123. -/
def TT_ALLOT_NEXT (i : Nat) : Fld := fld (0x40000c + 0x40 * i) 10 11 .ro .P 0

/-- R123. -/
def TT_LIMIT_CEIL (i : Nat) : Fld := fld (0x400010 + 0x40 * i) 16 11 .rw .W 0

/-- R123. -/
def TT_LIMIT_FLOOR (i : Nat) : Fld := fld (0x400010 + 0x40 * i) 0 11 .rw .W 0

/-- R123. -/
def TT_SHAPE_BURST (i : Nat) : Fld := fld (0x400014 + 0x40 * i) 0 32 .rw .W 0

/-- R123. -/
def TT_METER_CAWARE (i : Nat) : Fld := fld (0x400018 + 0x40 * i) 31 1 .ro .W 0

/-- R123. -/
def TT_METER_PIR (i : Nat) : Fld := fld (0x400018 + 0x40 * i) 16 11 .rw .W 0

/-- R123. -/
def TT_METER_CIR (i : Nat) : Fld := fld (0x400018 + 0x40 * i) 0 11 .rw .W 0

/-- R123. -/
def TT_CBS_CBS (i : Nat) : Fld := fld (0x40001c + 0x40 * i) 0 32 .rw .W 0

/-- R123. -/
def TT_PBS_PBS (i : Nat) : Fld := fld (0x400020 + 0x40 * i) 0 32 .rw .W 0

/-- R124. -/
def TT_SEQ_INSEQ (i : Nat) : Fld := fld (0x400024 + 0x40 * i) 16 11 .ro .P 0

/-- R124. -/
def TT_SEQ_OUTSEQ (i : Nat) : Fld := fld (0x400024 + 0x40 * i) 0 11 .ro .P 0

/-- R124. -/
def TT_SEGIN_COUNT (i : Nat) : Fld := fld (0x400028 + 0x40 * i) 0 32 .ro .P 0

/-- R124. -/
def TT_SEGOUT_COUNT (i : Nat) : Fld := fld (0x40002c + 0x40 * i) 0 32 .ro .P 0

/-- R124. -/
def TT_DISC_GENDIS (i : Nat) : Fld := fld (0x400030 + 0x40 * i) 16 16 .ro .W 0

/-- R125. -/
def PST_SOLVE_BUSY : Fld := fld (0x20800) 31 1 .ro .W 0

/-- R125. -/
def PST_SOLVE_ARMED : Fld := fld (0x20800) 30 1 .ro .W 0

/-- R125. -/
def PST_SOLVE_BANK : Fld := fld (0x20800) 29 1 .ro .W 0

/-- R125. -/
def PST_SOLVE_CANCEL : Fld := fld (0x20800) 28 1 .w1c .W 0

/-- R125. -/
def PST_SOLVE_REFUSED : Fld := fld (0x20800) 16 8 .ro .W 0

/-- R125. -/
def PST_SOLVE_DEGRADED : Fld := fld (0x20800) 8 8 .ro .W 0

/-- R125. -/
def PST_SOLVE_TIME : Fld := fld (0x20800) 0 8 .ro .W 0

/-- R125. -/
def PST_HOSTSEL_SEL : Fld := fld (0x20804) 0 20 .rw .C 0

/-- R125. -/
def PST_REFUSE_TUN (i : Nat) : Fld := fld (0x20810 + 0x4 * i) 0 32 .ro .W 0

/-- R148. -/
def FAB_STATUS_MAPBANK : Fld := fld (0xa0000) 31 1 .ro .W 0

/-- R148. -/
def FAB_STATUS_MAPPEND : Fld := fld (0xa0000) 30 1 .ro .W 0

/-- R148. -/
def FAB_STATUS_PHASE : Fld := fld (0xa0000) 20 5 .ro .none 0

/-- R148. -/
def FAB_STATUS_FENCE : Fld := fld (0xa0000) 0 20 .ro .W 0

/-- R148. -/
def FAB_CTCTL_BACKOFF : Fld := fld (0xa0004) 24 8 .rw .W 10 1 255

/-- R148. -/
def FAB_CTCTL_SAF : Fld := fld (0xa0004) 0 20 .rw .W 0

/-- R148. -/
def FAB_SLOT_COUNT : Fld := fld (0xa0008) 0 32 .ro .W 0

/-- R149. -/
def FAB_REMAP_ATT (i : Nat) : Fld := fld (0xa0040 + 0x4 * i) 31 1 .ro .W 1

/-- R149. -/
def FAB_REMAP_PHYS (i : Nat) : Fld := fld (0xa0040 + 0x4 * i) 0 5 .ro .W i

/-- R150. -/
def FAB_XMAPA_ENT (i : Nat) : Fld := fld (0xa0100 + 0x4 * i) 0 30 .ro .W 0

/-- R150. -/
def FAB_XMAPB_ENT (i : Nat) : Fld := fld (0xa0300 + 0x4 * i) 0 30 .ro .W 0

/-- R151. -/
def FAB_OUTSEG_COUNT (i : Nat) : Fld := fld (0xa0500 + 0x10 * i) 0 32 .ro .W 0

/-- R151. -/
def FAB_PARK_AREA (i : Nat) : Fld := fld (0xa0504 + 0x10 * i) 16 16 .ro .W 0

/-- R151. -/
def FAB_PARK_PEAK (i : Nat) : Fld := fld (0xa0504 + 0x10 * i) 0 9 .ro .W 0

/-- R151. -/
def FAB_STOMP_ABORTS (i : Nat) : Fld := fld (0xa0508 + 0x10 * i) 16 16 .ro .W 0

/-- R151. -/
def FAB_STOMP_CTUNITS (i : Nat) : Fld := fld (0xa0508 + 0x10 * i) 0 16 .ro .W 0

/-- R151. -/
def FAB_XGAP_TUN (i : Nat) : Fld := fld (0xa050c + 0x10 * i) 0 8 .ro .W 0

/-- R173. -/
def FAB_PART_INSVC (i : Nat) : Fld := fld (0xa0800 + 0x4 * i) 28 4 .ro .C 15

/-- R173. -/
def FAB_PART_EVAC (i : Nat) : Fld := fld (0xa0800 + 0x4 * i) 24 4 .ro .C 0

/-- R173. -/
def FAB_PART_OCC (i : Nat) : Fld := fld (0xa0800 + 0x4 * i) 0 14 .ro .none 0

/-- R173. -/
def FAB_BULK_CAP : Fld := fld (0xa0850) 16 16 .rw .W 1024 64 4096

/-- R173. -/
def FAB_BULK_G : Fld := fld (0xa0850) 0 9 .rw .W 256 64 320

/-- R173. -/
def FAB_CETHR_LIMIT : Fld := fld (0xa0858) 0 16 .rw .C 64 1 65535

/-- R174. -/
def MEM_SPBASE_BASE : Fld := fld (0xb0100) 0 6 .rw .W 0

/-- R174. -/
def MEM_SPSIZE_SIZE : Fld := fld (0xb0104) 0 5 .rw .W 4 1 16

/-- R174. -/
def MEM_SPSHARE_WR : Fld := fld (0xb0108) 8 8 .rw .W 4 2 16

/-- R174. -/
def MEM_SPSHARE_RD : Fld := fld (0xb0108) 0 8 .rw .W 8 4 16

/-- R174. -/
def MEM_SPSTAT_GLOBAL : Fld := fld (0xb010c) 31 1 .ro .W 0

/-- R174. -/
def MEM_SPSTAT_FREE : Fld := fld (0xb010c) 0 20 .ro .none 0

/-- R175. -/
def MEM_SPQ_QUOTA (i : Nat) : Fld := fld (0xb0140 + 0x4 * i) 0 20 .rw .W 16384 1024 1048575

/-- R175. -/
def MEM_SPUSE_HELD (i : Nat) : Fld := fld (0xb01a0 + 0x4 * i) 31 1 .ro .W 0

/-- R175. -/
def MEM_SPUSE_PAGES (i : Nat) : Fld := fld (0xb01a0 + 0x4 * i) 0 20 .ro .W 0

/-- R175. -/
def MEM_VOID_GEN3 (i : Nat) : Fld := fld (0xb0200 + 0x4 * i) 24 8 .ro .W 0

/-- R175. -/
def MEM_VOID_GEN2 (i : Nat) : Fld := fld (0xb0200 + 0x4 * i) 16 8 .ro .W 0

/-- R175. -/
def MEM_VOID_GEN1 (i : Nat) : Fld := fld (0xb0200 + 0x4 * i) 8 8 .ro .W 0

/-- R175. -/
def MEM_VOID_GEN0 (i : Nat) : Fld := fld (0xb0200 + 0x4 * i) 0 8 .ro .W 0

/-- R177. -/
def GRV_FLOW_STALL (i : Nat) : Fld := fld (portReg i 0x400 0x4) 24 8 .rw .P 20 1 255

/-- R177. -/
def GRV_FLOW_HEAD (i : Nat) : Fld := fld (portReg i 0x400 0x4) 16 8 .rw .P 48 8 255

/-- R177. -/
def GRV_FLOW_ICL (i : Nat) : Fld := fld (portReg i 0x400 0x4) 8 8 .rw .P 64 16 255

/-- R177. -/
def GRV_FLST_EGHELD (i : Nat) : Fld := fld (portReg i 0x440 0x4) 31 1 .ro .P 0

/-- R177. -/
def GRV_FLST_INHELD (i : Nat) : Fld := fld (portReg i 0x440 0x4) 30 1 .ro .P 0

/-- R177. -/
def GRV_FLST_TIMER (i : Nat) : Fld := fld (portReg i 0x440 0x4) 15 15 .ro .P 0

/-- R177. -/
def GRV_FLST_STALLS (i : Nat) : Fld := fld (portReg i 0x440 0x4) 10 5 .ro .W 0

/-- R177. -/
def GRV_FLST_OVRUN (i : Nat) : Fld := fld (portReg i 0x440 0x4) 5 5 .ro .W 0

/-- R177. -/
def GRV_FLST_XDISC (i : Nat) : Fld := fld (portReg i 0x440 0x4) 0 5 .ro .W 0

/-- R203. -/
def SCHED_LEAD_STATE : Fld := fld (0xc0000) 30 2 .ro .W 0

/-- R203. -/
def SCHED_LEAD_NSRC : Fld := fld (0xc0000) 20 4 .rw .W 0 0 9

/-- R203. -/
def SCHED_LEAD_SRC : Fld := fld (0xc0000) 16 4 .ro .W 9

/-- R203. -/
def SCHED_LEAD_LINES : Fld := fld (0xc0000) 0 13 .rw .W 0 2 8191

/-- R203. -/
def SCHED_LPOS_LINE : Fld := fld (0xc0004) 16 13 .ro .none 0

/-- R203. -/
def SCHED_LPOS_FRAC : Fld := fld (0xc0004) 0 16 .ro .none 0

/-- R203. -/
def SCHED_LTOT_TOTAL : Fld := fld (0xc0008) 0 13 .ro .W 0

/-- R203. -/
def SCHED_LINC_INC : Fld := fld (0xc000c) 0 32 .ro .W 0

/-- R204. -/
def SCHED_FRAME_COUNT : Fld := fld (0xc0010) 0 32 .ro .W 0

/-- R204. -/
def SCHED_VIRT_RATE : Fld := fld (0xc0014) 14 18 .rw .W 0 24000 240000

/-- R204. -/
def SCHED_VIRT_VLINES : Fld := fld (0xc0014) 0 13 .rw .W 0 2 8191

/-- R204. -/
def SCHED_SLEW_MAX : Fld := fld (0xc0018) 0 8 .rw .W 5 1 10

/-- R206. -/
def GRV_CALCTL_MODE (i : Nat) : Fld := fld (portReg i 0x480 0x4) 31 1 .ro .W 0

/-- R206. -/
def GRV_CALCTL_TBSEL (i : Nat) : Fld := fld (portReg i 0x480 0x4) 24 3 .rw .W 0 0 3

/-- R206. -/
def GRV_CALCTL_LASTA (i : Nat) : Fld := fld (portReg i 0x480 0x4) 18 6 .ro .W 0

/-- R206. -/
def GRV_CALCTL_LASTB (i : Nat) : Fld := fld (portReg i 0x480 0x4) 12 6 .ro .W 0

/-- R206. -/
def GRV_CALCTL_OVH (i : Nat) : Fld := fld (portReg i 0x480 0x4) 0 10 .rw .W 0

/-- R206. -/
def GRV_CALST_BANK (i : Nat) : Fld := fld (portReg i 0x4c0 0x4) 31 1 .ro .W 0

/-- R206. -/
def GRV_CALST_CUR (i : Nat) : Fld := fld (portReg i 0x4c0 0x4) 25 6 .ro .none 0

/-- R206. -/
def GRV_CALST_BT (i : Nat) : Fld := fld (portReg i 0x4c0 0x4) 0 17 .ro .P 0

/-- R207. -/
def GRV_QBVBASE_BASE (i : Nat) : Fld := fld (portReg i 0x500 0x4) 0 32 .rw .W 0

/-- R207. -/
def GRV_QBVCYC_CYCLE (i : Nat) : Fld := fld (portReg i 0x540 0x4) 0 32 .rw .W 0

/-- R207. -/
def GRV_QBVEXT_EXT (i : Nat) : Fld := fld (portReg i 0x580 0x4) 0 32 .rw .W 1000

/-- R246. -/
def CAN_CTL_RETRAIN (i : Nat) : Fld := fld (portReg i 0x600 0x4) 31 1 .w1s .P 0

/-- R246. -/
def CAN_CTL_ASYM (i : Nat) : Fld := fld (portReg i 0x600 0x4) 29 2 .rw .W 1

/-- R246. -/
def CAN_CTL_PREF (i : Nat) : Fld := fld (portReg i 0x600 0x4) 27 2 .rw .W 0 0 2

/-- R246. -/
def CAN_CTL_KEYIVL (i : Nat) : Fld := fld (portReg i 0x600 0x4) 16 4 .rw .W 8 0 8

/-- R246. -/
def CAN_CTL_KMAX (i : Nat) : Fld := fld (portReg i 0x600 0x4) 8 7 .rw .W 64 2 64

/-- R246. -/
def CAN_CTL_TIME (i : Nat) : Fld := fld (portReg i 0x600 0x4) 0 1 .rw .W 1

/-- R247. -/
def CAN_STAT_STATE (i : Nat) : Fld := fld (portReg i 0x640 0x4) 29 3 .ro .P 0

/-- R247. -/
def CAN_STAT_MODE (i : Nat) : Fld := fld (portReg i 0x640 0x4) 27 2 .ro .P 0

/-- R247. -/
def CAN_STAT_ROLE (i : Nat) : Fld := fld (portReg i 0x640 0x4) 26 1 .ro .P 0

/-- R247. -/
def CAN_STAT_PKIND (i : Nat) : Fld := fld (portReg i 0x640 0x4) 24 2 .ro .P 0

/-- R247. -/
def CAN_STAT_TXEP (i : Nat) : Fld := fld (portReg i 0x640 0x4) 16 8 .ro .P 0

/-- R247. -/
def CAN_STAT_RXEP (i : Nat) : Fld := fld (portReg i 0x640 0x4) 8 8 .ro .P 0

/-- R248. -/
def CAN_ERR_UNCORR (i : Nat) : Fld := fld (portReg i 0x680 0x4) 24 8 .ro .P 0

/-- R248. -/
def CAN_ERR_RNAKTX (i : Nat) : Fld := fld (portReg i 0x680 0x4) 16 8 .ro .P 0

/-- R248. -/
def CAN_ERR_RNAKRX (i : Nat) : Fld := fld (portReg i 0x680 0x4) 8 8 .ro .P 0

/-- R248. -/
def CAN_ERR_CSLOT (i : Nat) : Fld := fld (portReg i 0x680 0x4) 0 8 .ro .P 0

/-- R248. -/
def CAN_ERR2_EARLY (i : Nat) : Fld := fld (portReg i 0x6c0 0x4) 24 8 .ro .P 0

/-- R248. -/
def CAN_ERR2_PROTO (i : Nat) : Fld := fld (portReg i 0x6c0 0x4) 16 8 .ro .W 0

/-- R248. -/
def CAN_ERR2_TAGFAIL (i : Nat) : Fld := fld (portReg i 0x6c0 0x4) 8 8 .ro .W 0

/-- R250. -/
def CAN_UPHDR_HUBS (i : Nat) : Fld := fld (0x102000 + 0x10000 * i) 29 3 .ro .W 1

/-- R250. -/
def CAN_UPHDR_SERIAL (i : Nat) : Fld := fld (0x102000 + 0x10000 * i) 0 16 .ro .W 0

/-- R250. -/
def CAN_UPREF_REF (i : Nat) : Fld := fld (0x102004 + 0x10000 * i) 0 15 .rw .W 0

/-- R250. -/
def CAN_UPREP_VALID (i : Nat) (j : Nat) : Fld := fld (0x102010 + 0x10000 * i + 4 * j) 31 1 .ro .W 0

/-- R250. -/
def CAN_UPREP_CLS (i : Nat) (j : Nat) : Fld := fld (0x102010 + 0x10000 * i + 4 * j) 28 3 .ro .W 0

/-- R250. -/
def CAN_UPREP_CEIL (i : Nat) (j : Nat) : Fld := fld (0x102010 + 0x10000 * i + 4 * j) 11 11 .ro .W 0

/-- R250. -/
def CAN_UPREP_FLOOR (i : Nat) (j : Nat) : Fld := fld (0x102010 + 0x10000 * i + 4 * j) 0 11 .ro .W 0

/-- R273. -/
def LC_CTL_HOLD (i : Nat) : Fld := fld (0x200000 + 0x1000 * i) 31 1 .rw .W 0

/-- R273. -/
def LC_CTL_RTRN (i : Nat) : Fld := fld (0x200000 + 0x1000 * i) 30 1 .w1s .P 0

/-- R273. -/
def LC_CTL_TXPA (i : Nat) : Fld := fld (0x200000 + 0x1000 * i) 12 4 .rw .W 0

/-- R273. -/
def LC_CTL_TXPB (i : Nat) : Fld := fld (0x200000 + 0x1000 * i) 8 4 .rw .W 0

/-- R273. -/
def LC_CTL_RXPA (i : Nat) : Fld := fld (0x200000 + 0x1000 * i) 4 4 .rw .W 0

/-- R273. -/
def LC_CTL_RXPB (i : Nat) : Fld := fld (0x200000 + 0x1000 * i) 0 4 .rw .W 0

/-- R273. -/
def LC_STAT_STATE (i : Nat) : Fld := fld (0x200004 + 0x1000 * i) 28 4 .ro .P 0

/-- R273. -/
def LC_STAT_OWNER (i : Nat) : Fld := fld (0x200004 + 0x1000 * i) 24 4 .ro .W (cellGrove i)

/-- R273. -/
def LC_STAT_RATE (i : Nat) : Fld := fld (0x200004 + 0x1000 * i) 19 5 .ro .P 0

/-- R273. -/
def LC_STAT_ORIENT (i : Nat) : Fld := fld (0x200004 + 0x1000 * i) 18 1 .ro .P 0

/-- R273. -/
def LC_STAT_DIR (i : Nat) : Fld := fld (0x200004 + 0x1000 * i) 16 2 .ro .none 0

/-- R273. -/
def LC_STAT_LOSA (i : Nat) : Fld := fld (0x200004 + 0x1000 * i) 15 1 .ro .none 0

/-- R273. -/
def LC_STAT_LOSB (i : Nat) : Fld := fld (0x200004 + 0x1000 * i) 7 1 .ro .none 0

/-- R273. -/
def LC_STAT_LOCKA (i : Nat) : Fld := fld (0x200004 + 0x1000 * i) 14 1 .ro .P 0

/-- R273. -/
def LC_STAT_LOCKB (i : Nat) : Fld := fld (0x200004 + 0x1000 * i) 6 1 .ro .P 0

/-- R273. -/
def LC_STAT_INVA (i : Nat) : Fld := fld (0x200004 + 0x1000 * i) 13 1 .ro .P 0

/-- R273. -/
def LC_STAT_INVB (i : Nat) : Fld := fld (0x200004 + 0x1000 * i) 5 1 .ro .P 0

/-- R273. -/
def LC_STAT_RANKA (i : Nat) : Fld := fld (0x200004 + 0x1000 * i) 11 2 .ro .P 0

/-- R273. -/
def LC_STAT_RANKB (i : Nat) : Fld := fld (0x200004 + 0x1000 * i) 3 2 .ro .P 0

/-- R275. -/
def LC_RTR_RETRAINS (i : Nat) : Fld := fld (0x200008 + 0x1000 * i) 16 16 .ro .W 0

/-- R275. -/
def LC_RTR_FAILS (i : Nat) : Fld := fld (0x200008 + 0x1000 * i) 8 8 .ro .W 0

/-- R275. -/
def LC_RTR_CONSEC (i : Nat) : Fld := fld (0x200008 + 0x1000 * i) 0 2 .ro .P 0

/-- R275. -/
def LC_FECA_CORR (i : Nat) : Fld := fld (0x20000c + 0x1000 * i) 8 24 .ro .P 0

/-- R275. -/
def LC_FECB_CORR (i : Nat) : Fld := fld (0x200010 + 0x1000 * i) 8 24 .ro .P 0

/-- R275. -/
def LC_FECA_UNCORR (i : Nat) : Fld := fld (0x20000c + 0x1000 * i) 0 8 .ro .P 0

/-- R275. -/
def LC_FECB_UNCORR (i : Nat) : Fld := fld (0x200010 + 0x1000 * i) 0 8 .ro .P 0

/-- R275. -/
def LC_LOS_TIME (i : Nat) : Fld := fld (0x200014 + 0x1000 * i) 8 8 .rw .W 10 1 255

/-- R275. -/
def LC_LOS_THR (i : Nat) : Fld := fld (0x200014 + 0x1000 * i) 0 8 .rw .W 80 40 200

/-- R276. -/
def LC_TEST_EN (i : Nat) : Fld := fld (0x200020 + 0x1000 * i) 31 1 .rw .W 0

/-- R276. -/
def LC_TEST_RATE (i : Nat) : Fld := fld (0x200020 + 0x1000 * i) 26 5 .rw .W 0 0 16

/-- R276. -/
def LC_TEST_PATA (i : Nat) : Fld := fld (0x200020 + 0x1000 * i) 20 4 .rw .W 0 0 7

/-- R276. -/
def LC_TEST_PATB (i : Nat) : Fld := fld (0x200020 + 0x1000 * i) 16 4 .rw .W 0 0 7

/-- R276. -/
def LC_TEST_LOOPA (i : Nat) : Fld := fld (0x200020 + 0x1000 * i) 14 2 .rw .W 0 0 2

/-- R276. -/
def LC_TEST_LOOPB (i : Nat) : Fld := fld (0x200020 + 0x1000 * i) 12 2 .rw .W 0 0 2

/-- R276. -/
def LC_TEST_CLR (i : Nat) : Fld := fld (0x200020 + 0x1000 * i) 0 1 .w1s .W 0

/-- R276. -/
def LC_INJ_GO (i : Nat) : Fld := fld (0x200024 + 0x1000 * i) 31 1 .w1s .W 0

/-- R276. -/
def LC_INJ_PAIR (i : Nat) : Fld := fld (0x200024 + 0x1000 * i) 30 1 .rw .W 0

/-- R276. -/
def LC_INJ_TYPE (i : Nat) : Fld := fld (0x200024 + 0x1000 * i) 28 2 .rw .W 0 0 2

/-- R276. -/
def LC_INJ_LEN (i : Nat) : Fld := fld (0x200024 + 0x1000 * i) 20 8 .rw .W 1 1 255

/-- R276. -/
def LC_INJ_COUNT (i : Nat) : Fld := fld (0x200024 + 0x1000 * i) 0 16 .rw .W 1 1 65535

/-- R277. -/
def LC_CHKA_SYNC (i : Nat) : Fld := fld (0x200028 + 0x1000 * i) 31 1 .ro .W 0

/-- R277. -/
def LC_CHKB_SYNC (i : Nat) : Fld := fld (0x20002c + 0x1000 * i) 31 1 .ro .W 0

/-- R277. -/
def LC_CHKA_ERR (i : Nat) : Fld := fld (0x200028 + 0x1000 * i) 0 31 .ro .W 0

/-- R277. -/
def LC_CHKB_ERR (i : Nat) : Fld := fld (0x20002c + 0x1000 * i) 0 31 .ro .W 0

/-- R277. -/
def LC_CHKT_TIME (i : Nat) : Fld := fld (0x200030 + 0x1000 * i) 0 32 .ro .W 0

/-- R277. -/
def LC_HOLD_USED (i : Nat) : Fld := fld (0x200034 + 0x1000 * i) 23 9 .ro .P 0

/-- R277. -/
def LC_HOLD_PEAK (i : Nat) : Fld := fld (0x200034 + 0x1000 * i) 14 9 .ro .P 0

/-- R277. -/
def LC_HOLD_STOPS (i : Nat) : Fld := fld (0x200034 + 0x1000 * i) 0 8 .ro .W 0

/-- R304. -/
def PIPE_CTL_FHOLD (i : Nat) : Fld := fld (0x300000 + 0x10000 * i) 31 1 .rw .W 0

/-- R304. -/
def PIPE_CTL_NTOFF (i : Nat) : Fld := fld (0x300000 + 0x10000 * i) 30 1 .rw .W 0

/-- R304. -/
def PIPE_CTL_TSRC (i : Nat) : Fld := fld (0x300000 + 0x10000 * i) 28 2 .rw .W 0 0 2

/-- R304. -/
def PIPE_CTL_TESEL (i : Nat) : Fld := fld (0x300000 + 0x10000 * i) 26 2 .rw .W 0

/-- R304. -/
def PIPE_STAT_STATE (i : Nat) : Fld := fld (0x300004 + 0x10000 * i) 29 3 .ro .W 0

/-- R304. -/
def PIPE_STAT_NOTICE (i : Nat) : Fld := fld (0x300004 + 0x10000 * i) 26 3 .ro .W 0

/-- R304. -/
def PIPE_STAT_FSVAL (i : Nat) : Fld := fld (0x300004 + 0x10000 * i) 25 1 .ro .C 0

/-- R304. -/
def PIPE_STAT_HBUF (i : Nat) : Fld := fld (0x300004 + 0x10000 * i) 24 1 .ro .C 0

/-- R304. -/
def PIPE_STAT_LOCKED (i : Nat) : Fld := fld (0x300004 + 0x10000 * i) 23 1 .ro .W 0

/-- R304. -/
def PIPE_STAT_DSC (i : Nat) : Fld := fld (0x300004 + 0x10000 * i) 22 1 .ro .W 0

/-- R304. -/
def PIPE_STAT_LINE (i : Nat) : Fld := fld (0x300004 + 0x10000 * i) 0 13 .ro .none 0

/-- R304. -/
def PIPE_ROUTE_VALID (i : Nat) : Fld := fld (0x300008 + 0x10000 * i) 31 1 .ro .W 0

/-- R304. -/
def PIPE_ROUTE_PORT (i : Nat) : Fld := fld (0x300008 + 0x10000 * i) 0 5 .ro .W 0

/-- R305. -/
def PIPE_HTIM_HTOTAL (i : Nat) : Fld := fld (0x300010 + 0x10000 * i) 16 16 .ro .W 0

/-- R305. -/
def PIPE_HTIM_HACTIVE (i : Nat) : Fld := fld (0x300010 + 0x10000 * i) 0 16 .ro .W 0

/-- R305. -/
def PIPE_VTIM_VTOTAL (i : Nat) : Fld := fld (0x300014 + 0x10000 * i) 16 13 .ro .W 0

/-- R305. -/
def PIPE_VTIM_VACTIVE (i : Nat) : Fld := fld (0x300014 + 0x10000 * i) 0 13 .ro .W 0

/-- R305. -/
def PIPE_PCLK_PCLK (i : Nat) : Fld := fld (0x300018 + 0x10000 * i) 0 32 .ro .W 0

/-- R305. -/
def PIPE_FMT_FORMAT (i : Nat) : Fld := fld (0x30001c + 0x10000 * i) 24 8 .ro .W 0

/-- R305. -/
def PIPE_FMT_DSCBPP (i : Nat) : Fld := fld (0x30001c + 0x10000 * i) 16 8 .ro .W 0

/-- R305. -/
def PIPE_FMT_SLICEH (i : Nat) : Fld := fld (0x30001c + 0x10000 * i) 0 4 .ro .W 0

/-- R305. -/
def PIPE_FSBASE_BASE (i : Nat) : Fld := fld (0x300020 + 0x10000 * i) 0 5 .rw .C (2 + i)

/-- R305. -/
def PIPE_FRAME_COUNT (i : Nat) : Fld := fld (0x300024 + 0x10000 * i) 0 32 .ro .W 0

/-- R306. -/
def PIPE_L1CTL_SRC (i : Nat) : Fld := fld (0x300030 + 0x10000 * i) 31 1 .rw .W 0

/-- R306. -/
def PIPE_L1CTL_FMT (i : Nat) : Fld := fld (0x300030 + 0x10000 * i) 28 3 .rw .W 0 0 4

/-- R306. -/
def PIPE_L1CTL_PITCH (i : Nat) : Fld := fld (0x300030 + 0x10000 * i) 0 16 .rw .W 0

/-- R306. -/
def PIPE_L1ADDR_ADDR (i : Nat) : Fld := fld (0x300034 + 0x10000 * i) 0 32 .rw .W 0

/-- R306. -/
def PIPE_L2CTL_EN (i : Nat) : Fld := fld (0x300040 + 0x10000 * i) 31 1 .rw .W 0

/-- R306. -/
def PIPE_L2CTL_FMT (i : Nat) : Fld := fld (0x300040 + 0x10000 * i) 28 3 .rw .W 0 0 4

/-- R306. -/
def PIPE_L2CTL_GALPHA (i : Nat) : Fld := fld (0x300040 + 0x10000 * i) 16 8 .rw .W 255

/-- R306. -/
def PIPE_L2CTL_PITCH (i : Nat) : Fld := fld (0x300040 + 0x10000 * i) 0 16 .rw .W 0

/-- R306. -/
def PIPE_L2ADDR_ADDR (i : Nat) : Fld := fld (0x300044 + 0x10000 * i) 0 32 .rw .W 0

/-- R306. -/
def PIPE_L2POS_Y (i : Nat) : Fld := fld (0x300048 + 0x10000 * i) 16 13 .rw .W 0

/-- R306. -/
def PIPE_L2POS_X (i : Nat) : Fld := fld (0x300048 + 0x10000 * i) 0 13 .rw .W 0

/-- R306. -/
def PIPE_L2SIZE_H (i : Nat) : Fld := fld (0x30004c + 0x10000 * i) 16 9 .rw .W 1 1 256

/-- R306. -/
def PIPE_L2SIZE_W (i : Nat) : Fld := fld (0x30004c + 0x10000 * i) 0 11 .rw .W 1 1 1024

/-- R306. -/
def PIPE_BG_RGB (i : Nat) : Fld := fld (0x300050 + 0x10000 * i) 0 30 .rw .W 0

/-- R306. -/
def PIPE_NOTICE_DELAY (i : Nat) : Fld := fld (0x300060 + 0x10000 * i) 16 16 .rw .W 0 100 60000

/-- R306. -/
def PIPE_NOTICE_SHOW (i : Nat) : Fld := fld (0x300060 + 0x10000 * i) 0 8 .rw .W 8 1 60

/-- R307. -/
def PIPE_CNT_HOLDLN (i : Nat) : Fld := fld (0x300064 + 0x10000 * i) 16 16 .ro .W 0

/-- R307. -/
def PIPE_CNT_INCOMP (i : Nat) : Fld := fld (0x300064 + 0x10000 * i) 8 8 .ro .W 0

/-- R307. -/
def PIPE_CNT_TEMISS (i : Nat) : Fld := fld (0x300064 + 0x10000 * i) 0 8 .ro .W 0

/-- R324. -/
def ADP_STAT_STATE (i : Nat) : Fld := fld (portReg i 0x3000 0x100) 28 4 .ro .P 0

/-- R324. -/
def ADP_STAT_PERS (i : Nat) : Fld := fld (portReg i 0x3000 0x100) 24 4 .ro .P 0

/-- R324. -/
def ADP_STAT_RATE (i : Nat) : Fld := fld (portReg i 0x3000 0x100) 19 5 .ro .P 0

/-- R324. -/
def ADP_STAT_WIDTH (i : Nat) : Fld := fld (portReg i 0x3000 0x100) 16 3 .ro .P 0

/-- R324. -/
def ADP_STAT_SPEED (i : Nat) : Fld := fld (portReg i 0x3000 0x100) 13 3 .ro .P 0

/-- R324. -/
def ADP_PCIE_EJREQ (i : Nat) : Fld := fld (portReg i 0x3004 0x100) 31 1 .w1s .P 0

/-- R324. -/
def ADP_PCIE_PRESENT (i : Nat) : Fld := fld (portReg i 0x3004 0x100) 30 1 .ro .P 0

/-- R324. -/
def ADP_PCIE_DLLACT (i : Nat) : Fld := fld (portReg i 0x3004 0x100) 29 1 .ro .P 0

/-- R324. -/
def ADP_PCIE_PIND (i : Nat) : Fld := fld (portReg i 0x3004 0x100) 27 2 .ro .P 0

/-- R324. -/
def ADP_PCIE_URSYN (i : Nat) : Fld := fld (portReg i 0x3004 0x100) 0 16 .ro .W 0

/-- R325. -/
def ADP_ETHMAP_PCP (i n : Nat) : Fld := fld (portReg i 0x3008 0x100) (4 * n) 4 .rw .W 0

/-- R325. -/
def ADP_ETHCTL_FEC (i : Nat) : Fld := fld (portReg i 0x300c 0x100) 30 2 .rw .W 2 0 2

/-- R325. -/
def ADP_ETHCTL_PFCEN (i : Nat) : Fld := fld (portReg i 0x300c 0x100) 29 1 .rw .W 0

/-- R325. -/
def ADP_ETHCTL_UNTAG (i : Nat) : Fld := fld (portReg i 0x300c 0x100) 25 4 .rw .W 0

/-- R325. -/
def ADP_ETHCTL_MAXFRM (i : Nat) : Fld := fld (portReg i 0x300c 0x100) 0 14 .rw .W 1522 1518 9216

/-- R325. -/
def ADP_CNT_RXBAD (i : Nat) : Fld := fld (portReg i 0x3010 0x100) 16 16 .ro .W 0

/-- R325. -/
def ADP_CNT_NOTUN (i : Nat) : Fld := fld (portReg i 0x3010 0x100) 0 16 .ro .W 0

/-- R325. -/
def ADP_DP_HPD (i : Nat) : Fld := fld (portReg i 0x3014 0x100) 31 1 .ro .none 0

/-- R325. -/
def ADP_DP_SINKDSC (i : Nat) : Fld := fld (portReg i 0x3014 0x100) 30 1 .ro .P 0

/-- R325. -/
def ADP_DP_TRAINS (i : Nat) : Fld := fld (portReg i 0x3014 0x100) 8 8 .ro .W 0

/-- R325. -/
def ADP_DP_FALLBK (i : Nat) : Fld := fld (portReg i 0x3014 0x100) 0 8 .ro .W 0

/-- R351. -/
def USB_STAT_UPSEL : Fld := fld (0x90000) 30 2 .ro .W 0

/-- R351. -/
def USB_STAT_DNSEL : Fld := fld (0x90000) 28 2 .ro .W 0

/-- R351. -/
def USB_STAT_SPEED : Fld := fld (0x90000) 26 2 .ro .W 0

/-- R351. -/
def USB_STAT_SUSP : Fld := fld (0x90000) 25 1 .ro .W 0

/-- R351. -/
def USB_STAT_PULLUP : Fld := fld (0x90000) 24 1 .ro .W 0

/-- R351. -/
def USB_STAT_SWITCHES : Fld := fld (0x90000) 16 8 .ro .C 0

/-- R351. -/
def USB_MGT_CONF : Fld := fld (0x90004) 31 1 .ro .W 0

/-- R351. -/
def USB_MGT_ALT : Fld := fld (0x90004) 29 2 .ro .W 0

/-- R351. -/
def USB_MGT_EP1HALT : Fld := fld (0x90004) 28 1 .ro .W 0

/-- R351. -/
def USB_MGT_RWEN : Fld := fld (0x90004) 27 1 .ro .W 0

/-- R351. -/
def USB_MGT_ADDR : Fld := fld (0x90004) 17 7 .ro .W 0

/-- R351. -/
def USB_MGT_SILENT : Fld := fld (0x90004) 8 8 .ro .W 0

/-- R351. -/
def USB_MGT_RESETS : Fld := fld (0x90004) 0 8 .ro .W 0

/-- R352. -/
def USB_PST_CONN (i : Nat) : Fld := fld (0x90100 + 0x4 * i) 31 1 .ro .W 0

/-- R352. -/
def USB_PST_EN (i : Nat) : Fld := fld (0x90100 + 0x4 * i) 30 1 .ro .W 0

/-- R352. -/
def USB_PST_SUSP (i : Nat) : Fld := fld (0x90100 + 0x4 * i) 29 1 .ro .W 0

/-- R352. -/
def USB_PST_SPEED (i : Nat) : Fld := fld (0x90100 + 0x4 * i) 27 2 .ro .W 3

/-- R352. -/
def USB_PST_PWR (i : Nat) : Fld := fld (0x90100 + 0x4 * i) 26 1 .ro .W 0

/-- R352. -/
def USB_PST_OC (i : Nat) : Fld := fld (0x90100 + 0x4 * i) 25 1 .ro .W 0

/-- R352. -/
def USB_PST_RWAKE (i : Nat) : Fld := fld (0x90100 + 0x4 * i) 24 1 .w1c .W 0

/-- R352. -/
def USB_PST_BABBLE (i : Nat) : Fld := fld (0x90100 + 0x4 * i) 8 8 .ro .W 0

/-- R352. -/
def USB_PST_OCCNT (i : Nat) : Fld := fld (0x90100 + 0x4 * i) 0 8 .ro .W 0

/-- R378. -/
def TIM_TBCTL_RUN (i : Nat) : Fld := fld (0x50000 + 0x40 * i) 31 1 .rw .W (if i = 0 then 1 else 0)

/-- R378. -/
def TIM_TBCTL_STSRC (i : Nat) : Fld := fld (0x50000 + 0x40 * i) 27 4 .rw .W 0

/-- R378. -/
def TIM_TBCTL_ARMED (i : Nat) : Fld := fld (0x50000 + 0x40 * i) 26 1 .ro .W 0

/-- R378. -/
def TIM_TBCTL_ROLE (i : Nat) : Fld := fld (0x50000 + 0x40 * i) 24 2 .ro .W 0

/-- R378. -/
def TIM_TBCTL_ARG (i : Nat) : Fld := fld (0x50000 + 0x40 * i) 16 8 .ro .W 0

/-- R378. -/
def TIM_TBCTL_HOSTSRV (i : Nat) : Fld := fld (0x50000 + 0x40 * i) 15 1 .rw .W 0

/-- R378. -/
def TIM_TBCTL_LOCK (i : Nat) : Fld := fld (0x50000 + 0x40 * i) 14 1 .ro .W 0

/-- R378. -/
def TIM_TBINCI_NS (i : Nat) : Fld := fld (0x50004 + 0x40 * i) 0 8 .rw .W 1

/-- R378. -/
def TIM_TBINCF_FRAC (i : Nat) : Fld := fld (0x50008 + 0x40 * i) 0 32 .rw .W 0

/-- R378. -/
def TIM_TBLDNS_NS (i : Nat) : Fld := fld (0x5000c + 0x40 * i) 0 32 .rw .W 0

/-- R378. -/
def TIM_TBLDFR_FRAC (i : Nat) : Fld := fld (0x50010 + 0x40 * i) 0 32 .rw .W 0

/-- R378. -/
def TIM_TBWRAP_WRAPS (i : Nat) : Fld := fld (0x50014 + 0x40 * i) 0 32 .ro .W 0

/-- R378. -/
def TIM_LFTNS_NS (i : Nat) : Fld := fld (0x50018 + 0x40 * i) 0 32 .ro .W 0

/-- R378. -/
def TIM_LFTFRM_FRAME : Fld := fld (0x50100) 0 32 .ro .W 0

/-- R379. -/
def TIM_SNAP_TAKE : Fld := fld (0x50200) 31 1 .w1s .W 0

/-- R379. -/
def TIM_SNNS_NS (i : Nat) : Fld := fld (0x50210 + 0x8 * i) 0 32 .ro .W 0

/-- R379. -/
def TIM_SNFR_FRAC (i : Nat) : Fld := fld (0x50214 + 0x8 * i) 0 32 .ro .W 0

/-- R379. -/
def TIM_SNWR_WRAPS (i : Nat) : Fld := fld (0x50230 + 0x4 * i) 0 32 .ro .W 0

/-- R379. -/
def TIM_SNRAS_POS : Fld := fld (0x50240) 0 32 .ro .W 0

/-- R379. -/
def TIM_SNFRM_FRAME : Fld := fld (0x50244) 0 32 .ro .W 0

/-- R379. -/
def TIM_ASYIN_PS (i : Nat) : Fld := fld (0x50300 + 0x8 * i) 0 24 .rw .C 0

/-- R379. -/
def TIM_ASYOUT_PS (i : Nat) : Fld := fld (0x50304 + 0x8 * i) 0 24 .rw .C 0

/-- R379. -/
def TIM_LNKOFF_OFF (i : Nat) : Fld := fld (0x50500 + 0x10 * i) 0 32 .ro .P 0

/-- R379. -/
def TIM_LNKDLY_DLY (i : Nat) : Fld := fld (0x50504 + 0x10 * i) 0 32 .ro .P 0

/-- R379. -/
def TIM_LNK_SEQ (i : Nat) : Fld := fld (0x50508 + 0x10 * i) 24 8 .ro .P 0

/-- R379. -/
def TIM_LNK_MISSED (i : Nat) : Fld := fld (0x50508 + 0x10 * i) 16 8 .ro .P 0

/-- R379. -/
def TIM_LNK_EXCH (i : Nat) : Fld := fld (0x50508 + 0x10 * i) 0 16 .ro .P 0

/-- R380. -/
def TIM_EVCTL_MODE (i : Nat) : Fld := fld (0x50400 + 0x20 * i) 28 4 .rw .W 0 0 7

/-- R380. -/
def TIM_EVCTL_TBSEL (i : Nat) : Fld := fld (0x50400 + 0x20 * i) 26 2 .rw .W 0

/-- R380. -/
def TIM_EVCTL_POL (i : Nat) : Fld := fld (0x50400 + 0x20 * i) 25 1 .rw .W 1

/-- R380. -/
def TIM_EVCTL_LVLCLR (i : Nat) : Fld := fld (0x50400 + 0x20 * i) 24 1 .w1s .W 0

/-- R380. -/
def TIM_EVCTL_DIV (i : Nat) : Fld := fld (0x50400 + 0x20 * i) 20 4 .rw .W 1 1 15

/-- R380. -/
def TIM_EVCTL_WIDTH (i : Nat) : Fld := fld (0x50400 + 0x20 * i) 0 12 .rw .W 125 1 4095

/-- R380. -/
def TIM_EVCMP_CMP (i : Nat) : Fld := fld (0x50404 + 0x20 * i) 0 32 .rw .W 0

/-- R380. -/
def TIM_EVPER_PERIOD (i : Nat) : Fld := fld (0x50408 + 0x20 * i) 0 32 .rw .W 0

/-- R380. -/
def TIM_EVRAS_LINE (i : Nat) : Fld := fld (0x5040c + 0x20 * i) 8 13 .rw .W 0

/-- R380. -/
def TIM_EVRAS_FRAC (i : Nat) : Fld := fld (0x5040c + 0x20 * i) 0 8 .rw .W 0

/-- R380. -/
def TIM_EVCNS_NS (i : Nat) : Fld := fld (0x50410 + 0x20 * i) 0 32 .ro .W 0

/-- R380. -/
def TIM_EVCST_VALID (i : Nat) : Fld := fld (0x50414 + 0x20 * i) 31 1 .w1c .W 0

/-- R380. -/
def TIM_EVCST_OVF (i : Nat) : Fld := fld (0x50414 + 0x20 * i) 30 1 .w1c .W 0

/-- R380. -/
def TIM_EVCST_EDGE (i : Nat) : Fld := fld (0x50414 + 0x20 * i) 29 1 .ro .W 0

/-- R380. -/
def TIM_EVCST_LINE (i : Nat) : Fld := fld (0x50414 + 0x20 * i) 16 13 .ro .W 0

/-- R380. -/
def TIM_EVCST_LFRAC (i : Nat) : Fld := fld (0x50414 + 0x20 * i) 8 8 .ro .W 0

/-- R380. -/
def TIM_EVCST_TFRAC (i : Nat) : Fld := fld (0x50414 + 0x20 * i) 0 8 .ro .W 0

/-- R399. -/
def RST_FLTSTAT_GFFOR : Fld := fld (0x10100) 28 4 .ro .C 15

/-- R399. -/
def RST_FLTSTAT_SEQ : Fld := fld (0x10100) 25 3 .ro .C 0

/-- R399. -/
def RST_FLTSTAT_GFOK : Fld := fld (0x10100) 24 1 .ro .C 1

/-- R399. -/
def RST_FLTSTAT_MGT : Fld := fld (0x10100) 22 2 .ro .C 0

/-- R399. -/
def RST_FLTSTAT_FENCED : Fld := fld (0x10100) 0 9 .ro .C 0

/-- R399. -/
def RST_FLTTIME_LAST : Fld := fld (0x10104) 16 16 .ro .C 0

/-- R399. -/
def RST_FLTTIME_MAX : Fld := fld (0x10104) 0 16 .ro .C 0

/-- R399. -/
def RST_FLTPTR_COUNT : Fld := fld (0x10108) 3 5 .ro .C 0

/-- R399. -/
def RST_FLTPTR_NEXT : Fld := fld (0x10108) 0 3 .ro .C 0

/-- R400. -/
def RST_FLTINJ_GO : Fld := fld (0x1010c) 31 1 .rwl .C 0

/-- R400. -/
def RST_FLTINJ_KIND : Fld := fld (0x1010c) 24 4 .rwl .C 0

/-- R400. -/
def RST_FLTINJ_UNIT : Fld := fld (0x1010c) 0 8 .rwl .C 0

/-- R401. -/
def RST_FLTLOG0_KIND (i : Nat) : Fld := fld (0x10110 + 0x8 * i) 28 4 .ro .C 0

/-- R401. -/
def RST_FLTLOG0_SECOND (i : Nat) : Fld := fld (0x10110 + 0x8 * i) 27 1 .ro .C 0

/-- R401. -/
def RST_FLTLOG0_INJ (i : Nat) : Fld := fld (0x10110 + 0x8 * i) 26 1 .ro .C 0

/-- R401. -/
def RST_FLTLOG0_UNIT (i : Nat) : Fld := fld (0x10110 + 0x8 * i) 16 8 .ro .C 0

/-- R401. -/
def RST_FLTLOG0_TUN (i : Nat) : Fld := fld (0x10110 + 0x8 * i) 8 8 .ro .C 0

/-- R401. -/
def RST_FLTLOG0_DET (i : Nat) : Fld := fld (0x10110 + 0x8 * i) 0 8 .ro .C 0

/-- R401. -/
def RST_FLTLOG1_TIME (i : Nat) : Fld := fld (0x10114 + 0x8 * i) 0 32 .ro .C 0

/-- R414. -/
def FUSE_LDST_SHADOW_VALID : Fld := fld (0x30000) 31 1 .ro .POR 0

/-- R414. -/
def FUSE_LDST_FAULT : Fld := fld (0x30000) 30 1 .ro .POR 0

/-- R414. -/
def FUSE_LDST_ATTEMPT : Fld := fld (0x30000) 28 2 .ro .POR 0

/-- R414. -/
def FUSE_LDST_RESTARTS : Fld := fld (0x30000) 16 8 .ro .POR 0

/-- R414. -/
def FUSE_LDST_CRCLO : Fld := fld (0x30000) 0 16 .ro .POR 0

/-- R424. -/
def RST_CAUSE_GRV : Fld := fld (0x10000) 14 9 .w1c .POR 0

/-- R424. -/
def RST_CAUSE_ZERO : Fld := fld (0x10000) 13 1 .w1c .POR 0

/-- R424. -/
def RST_CAUSE_PORT : Fld := fld (0x10000) 12 1 .w1c .POR 0

/-- R424. -/
def RST_CAUSE_MWDOG : Fld := fld (0x10000) 11 1 .w1c .POR 0

/-- R424. -/
def RST_CAUSE_LOCKSTEP : Fld := fld (0x10000) 10 1 .w1c .POR 0

/-- R424. -/
def RST_CAUSE_SEQWARM : Fld := fld (0x10000) 9 1 .w1c .POR 0

/-- R424. -/
def RST_CAUSE_HOST : Fld := fld (0x10000) 8 1 .w1c .POR 0

/-- R424. -/
def RST_CAUSE_SWWARM : Fld := fld (0x10000) 7 1 .w1c .POR 0

/-- R424. -/
def RST_CAUSE_WARMN : Fld := fld (0x10000) 6 1 .w1c .POR 0

/-- R424. -/
def RST_CAUSE_SEQCOLD : Fld := fld (0x10000) 5 1 .w1c .POR 0

/-- R424. -/
def RST_CAUSE_THERM : Fld := fld (0x10000) 4 1 .w1c .POR 0

/-- R424. -/
def RST_CAUSE_SWCOLD : Fld := fld (0x10000) 3 1 .w1c .POR 0

/-- R424. -/
def RST_CAUSE_RESETN : Fld := fld (0x10000) 2 1 .w1c .POR 0

/-- R424. -/
def RST_CAUSE_BOR : Fld := fld (0x10000) 1 1 .w1c .POR 0

/-- R424. -/
def RST_CAUSE_POR : Fld := fld (0x10000) 0 1 .w1c .POR 0

/-- R425. -/
def RST_CTL_KEY : Fld := fld (0x10004) 24 8 .wo .W 0

/-- R425. -/
def RST_CTL_PORT : Fld := fld (0x10004) 8 5 .rw .W 0 0 19

/-- R425. -/
def RST_CTL_PRST : Fld := fld (0x10004) 3 1 .w1s .W 0

/-- R425. -/
def RST_CTL_COLD : Fld := fld (0x10004) 2 1 .w1s .C 0

/-- R425. -/
def RST_CTL_WARM : Fld := fld (0x10004) 1 1 .w1s .W 0

/-- R426. -/
def RST_BOOT_SAPDONE : Fld := fld (0x10008) 31 1 .ro .W 0

/-- R426. -/
def RST_BOOT_WAITPWR : Fld := fld (0x10008) 30 1 .ro .W 0

/-- R426. -/
def RST_BOOT_FWFAIL : Fld := fld (0x10008) 29 1 .ro .W 0

/-- R426. -/
def RST_BOOT_FWCOPY : Fld := fld (0x10008) 28 1 .ro .W 0

/-- R426. -/
def RST_BOOT_SAPTIME : Fld := fld (0x10008) 16 10 .ro .W 0

/-- R426. -/
def RST_BOOT_STANDTIME : Fld := fld (0x10008) 0 16 .ro .W 0

/-- R426. -/
def RST_PRTRC_PORTS : Fld := fld (0x1000c) 0 20 .w1c .POR 0

/-- R440. -/
def PST_PSCTL_GO : Fld := fld (0x20000) 31 1 .w1s .W 0

/-- R440. -/
def PST_PSCTL_AUTO : Fld := fld (0x20000) 30 1 .rw .W 0

/-- R440. -/
def PST_PSCTL_IDLE : Fld := fld (0x20000) 8 8 .rw .W 100 1 255

/-- R440. -/
def PST_PSCTL_TARGET : Fld := fld (0x20000) 0 3 .rw .W 0 0 4

/-- R440. -/
def PST_PSSTAT_STATE : Fld := fld (0x20004) 29 3 .ro .W 0

/-- R440. -/
def PST_PSSTAT_FROM : Fld := fld (0x20004) 26 3 .ro .POR 0

/-- R440. -/
def PST_PSSTAT_PHASE : Fld := fld (0x20004) 24 2 .ro .W 0

/-- R440. -/
def PST_PSSTAT_WHO : Fld := fld (0x20004) 19 5 .ro .W 0

/-- R440. -/
def PST_PSSTAT_REASON : Fld := fld (0x20004) 15 4 .ro .W 0

/-- R440. -/
def PST_PSSTAT_DEFERS : Fld := fld (0x20004) 0 8 .ro .W 0

/-- R442. -/
def PST_WAKEEN_TAMPER : Fld := fld (0x20008) 7 1 .ro .POR 1

/-- R442. -/
def PST_WAKEEN_EN : Fld := fld (0x20008) 0 7 .rw .POR 63

/-- R442. -/
def PST_WAKEST_SRC : Fld := fld (0x2000c) 0 8 .w1c .POR 0

/-- R442. -/
def PST_RETTIME_LAST : Fld := fld (0x20010) 0 32 .ro .POR 0

/-- R460. -/
def PD_CTL_HRST (i : Nat) : Fld := fld (0x70000 + 0x40 * i) 31 1 .w1s .POR 0

/-- R460. -/
def PD_CTL_ERREC (i : Nat) : Fld := fld (0x70000 + 0x40 * i) 30 1 .w1s .POR 0

/-- R460. -/
def PD_CTL_SLEW (i : Nat) : Fld := fld (0x70000 + 0x40 * i) 20 8 .rw .POR 4 1 32

/-- R460. -/
def PD_CTL_TRLIM (i : Nat) : Fld := fld (0x70000 + 0x40 * i) 12 8 .rw .POR 240 50 255

/-- R460. -/
def PD_CTL_EPREN (i : Nat) : Fld := fld (0x70000 + 0x40 * i) 11 1 .rw .POR 1

/-- R460. -/
def PD_CTL_PPSEN (i : Nat) : Fld := fld (0x70000 + 0x40 * i) 10 1 .rw .POR 1

/-- R460. -/
def PD_CTL_TRYSRC (i : Nat) : Fld := fld (0x70000 + 0x40 * i) 9 1 .rw .POR 1

/-- R460. -/
def PD_STAT_CCST (i : Nat) : Fld := fld (0x70004 + 0x40 * i) 29 3 .ro .POR 0

/-- R460. -/
def PD_STAT_ORIENT (i : Nat) : Fld := fld (0x70004 + 0x40 * i) 28 1 .ro .POR 0

/-- R460. -/
def PD_STAT_PROLE (i : Nat) : Fld := fld (0x70004 + 0x40 * i) 27 1 .ro .POR 0

/-- R460. -/
def PD_STAT_DROLE (i : Nat) : Fld := fld (0x70004 + 0x40 * i) 26 1 .ro .POR 0

/-- R460. -/
def PD_STAT_VCONN (i : Nat) : Fld := fld (0x70004 + 0x40 * i) 25 1 .ro .POR 0

/-- R460. -/
def PD_STAT_CONTR (i : Nat) : Fld := fld (0x70004 + 0x40 * i) 22 3 .ro .POR 0

/-- R460. -/
def PD_STAT_CAB5A (i : Nat) : Fld := fld (0x70004 + 0x40 * i) 21 1 .ro .POR 0

/-- R460. -/
def PD_STAT_CABEPR (i : Nat) : Fld := fld (0x70004 + 0x40 * i) 20 1 .ro .POR 0

/-- R460. -/
def PD_STAT_RPLVL (i : Nat) : Fld := fld (0x70004 + 0x40 * i) 18 2 .ro .POR 3

/-- R461. -/
def PD_RDO_RDO (i : Nat) : Fld := fld (0x70008 + 0x40 * i) 0 32 .ro .POR 0

/-- R461. -/
def PD_VBUS_TARGET (i : Nat) : Fld := fld (0x7000c + 0x40 * i) 16 12 .ro .POR 250

/-- R461. -/
def PD_VBUS_MEAS (i : Nat) : Fld := fld (0x7000c + 0x40 * i) 0 12 .ro .none 0

/-- R461. -/
def PD_CV_CVEN (i : Nat) : Fld := fld (0x70010 + 0x40 * i) 31 1 .ro .POR 0

/-- R461. -/
def PD_CV_STATE (i : Nat) : Fld := fld (0x70010 + 0x40 * i) 28 3 .ro .POR 0

/-- R461. -/
def PD_CV_ADJ (i : Nat) : Fld := fld (0x70010 + 0x40 * i) 0 8 .ro .POR 0

/-- R462. -/
def PD_CNT_HRST (i : Nat) : Fld := fld (0x70014 + 0x40 * i) 24 8 .ro .POR 0

/-- R462. -/
def PD_CNT_TRFAIL (i : Nat) : Fld := fld (0x70014 + 0x40 * i) 16 8 .ro .POR 0

/-- R462. -/
def PD_CNT_COLL (i : Nat) : Fld := fld (0x70014 + 0x40 * i) 8 8 .ro .POR 0

/-- R462. -/
def PD_CNT_ERREC (i : Nat) : Fld := fld (0x70014 + 0x40 * i) 0 8 .ro .POR 0

/-- R462. -/
def PD_GLOB_FWPOL : Fld := fld (0x70400) 31 1 .ro .POR 0

/-- R462. -/
def PD_GLOB_DBBOOT : Fld := fld (0x70400) 30 1 .ro .POR 0

/-- R462. -/
def PD_GLOB_DBDENY : Fld := fld (0x70400) 29 1 .ro .POR 0

/-- R462. -/
def PD_GLOB_DBPORT : Fld := fld (0x70400) 28 1 .ro .POR 0

/-- R462. -/
def PD_GLOB_FPDOV : Fld := fld (0x70400) 27 1 .ro .POR 0

/-- R462. -/
def PD_GLOB_FPDOC : Fld := fld (0x70400) 24 3 .ro .POR 0

/-- R462. -/
def PD_GLOB_SEEDPORT : Fld := fld (0x70400) 16 8 .ro .POR 255

/-- R482. -/
def PC_CTL_CLR (i : Nat) : Fld := fld (0x80000 + 0x20 * i) 31 1 .w1s .POR 0

/-- R482. -/
def PC_CTL_MODE (i : Nat) : Fld := fld (0x80000 + 0x20 * i) 30 1 .rw .POR 0

/-- R482. -/
def PC_CTL_RETRIES (i : Nat) : Fld := fld (0x80000 + 0x20 * i) 26 4 .rw .POR 0 1 15

/-- R482. -/
def PC_CTL_FLTT (i : Nat) : Fld := fld (0x80000 + 0x20 * i) 20 6 .rw .POR 0 1 50

/-- R482. -/
def PC_CTL_ILIM (i : Nat) : Fld := fld (0x80000 + 0x20 * i) 7 13 .rw .POR 0

/-- R482. -/
def PC_CTL_GATE (i : Nat) : Fld := fld (0x80000 + 0x20 * i) 0 7 .rw .POR 0 0 100

/-- R482. -/
def PC_STAT_STATE (i : Nat) : Fld := fld (0x80004 + 0x20 * i) 28 4 .ro .POR 0

/-- R482. -/
def PC_STAT_PG (i : Nat) : Fld := fld (0x80004 + 0x20 * i) 27 1 .ro .POR 0

/-- R482. -/
def PC_STAT_REV (i : Nat) : Fld := fld (0x80004 + 0x20 * i) 26 1 .ro .POR 0

/-- R482. -/
def PC_STAT_CAUSE (i : Nat) : Fld := fld (0x80004 + 0x20 * i) 23 3 .ro .POR 0

/-- R482. -/
def PC_STAT_ATTEMPT (i : Nat) : Fld := fld (0x80004 + 0x20 * i) 19 4 .ro .POR 0

/-- R483. -/
def PC_MEAS_VOUT (i : Nat) : Fld := fld (0x80008 + 0x20 * i) 21 11 .ro .none 0

/-- R483. -/
def PC_MEAS_VIN (i : Nat) : Fld := fld (0x80008 + 0x20 * i) 10 11 .ro .none 0

/-- R483. -/
def PC_MEAS_I (i : Nat) : Fld := fld (0x80008 + 0x20 * i) 0 10 .ro .none 0

/-- R483. -/
def PC_CNT_SC (i : Nat) : Fld := fld (0x8000c + 0x20 * i) 24 8 .ro .POR 0

/-- R483. -/
def PC_CNT_OC (i : Nat) : Fld := fld (0x8000c + 0x20 * i) 16 8 .ro .POR 0

/-- R483. -/
def PC_CNT_UV (i : Nat) : Fld := fld (0x8000c + 0x20 * i) 8 8 .ro .POR 0

/-- R483. -/
def PC_CNT_LATCH (i : Nat) : Fld := fld (0x8000c + 0x20 * i) 0 8 .ro .POR 0

/-- R484. -/
def PP_FEED_ACTIVE : Fld := fld (0x80200) 30 2 .ro .POR 0

/-- R484. -/
def PP_FEED_QUALA : Fld := fld (0x80200) 29 1 .ro .POR 0

/-- R484. -/
def PP_FEED_QUALB : Fld := fld (0x80200) 28 1 .ro .POR 0

/-- R484. -/
def PP_FEED_PRESA : Fld := fld (0x80200) 27 1 .ro .none 0

/-- R484. -/
def PP_FEED_PRESB : Fld := fld (0x80200) 26 1 .ro .none 0

/-- R484. -/
def PP_FEED_WARN : Fld := fld (0x80200) 25 1 .ro .POR 0

/-- R484. -/
def PP_FEED_CHG : Fld := fld (0x80200) 0 16 .ro .POR 0

/-- R484. -/
def PP_FEEDCTL_DT : Fld := fld (0x80204) 8 6 .rw .POR 20 5 50

/-- R484. -/
def PP_FEEDCTL_RET : Fld := fld (0x80204) 0 8 .rw .POR 1 1 60

/-- R486. -/
def PST_CORE_CEIL : Fld := fld (0x20020) 16 16 .ro .W 0

/-- R486. -/
def PST_CORE_BUDGET : Fld := fld (0x20020) 0 16 .rw .W 0

/-- R486. -/
def PST_CUSE_EFF : Fld := fld (0x20024) 16 16 .ro .none 0

/-- R486. -/
def PST_CUSE_GRANTED : Fld := fld (0x20024) 0 16 .ro .W 0

/-- R486. -/
def PST_EXT_LOW : Fld := fld (0x20028) 31 1 .ro .W 0

/-- R486. -/
def PST_EXT_BUS : Fld := fld (0x20028) 30 1 .ro .W 0

/-- R486. -/
def PST_EXT_AVAIL : Fld := fld (0x20028) 18 12 .ro .W 0

/-- R486. -/
def PST_EXT_LEASED : Fld := fld (0x20028) 6 12 .ro .W 0

/-- R486. -/
def PST_LEASE_MW (i : Nat) : Fld := fld (0x20040 + 0x4 * i) 0 32 .ro .W 0

/-- R486. -/
def PST_U2LEASE_PORTS : Fld := fld (0x20068) 0 20 .ro .W 0

/-- R486. -/
def PST_GRANT_MW (i : Nat) : Fld := fld (0x20080 + 0x4 * i) 0 16 .ro .W 0

/-- R505. -/
def KEY_CMD_GO (i : Nat) : Fld := fld (instanceAddr i + 0x60000) 31 1 .w1s .W 0

/-- R505. -/
def KEY_CMD_OP (i : Nat) : Fld := fld (instanceAddr i + 0x60000) 24 4 .rw .W 0

/-- R505. -/
def KEY_CMD_SLOT (i : Nat) : Fld := fld (instanceAddr i + 0x60000) 16 5 .rw .W 0

/-- R505. -/
def KEY_CMD_ARG (i : Nat) : Fld := fld (instanceAddr i + 0x60000) 8 8 .rw .W 0

/-- R505. -/
def KEY_STAT_BUSY (i : Nat) : Fld := fld (instanceAddr i + 0x60004) 31 1 .ro .W 0

/-- R505. -/
def KEY_STAT_RESULT (i : Nat) : Fld := fld (instanceAddr i + 0x60004) 24 4 .ro .W 0

/-- R505. -/
def KEY_STAT_SEQ (i : Nat) : Fld := fld (instanceAddr i + 0x60004) 0 16 .ro .W 0

/-- R505. -/
def KEY_VAULT_KEKV : Fld := fld (0x60010) 31 1 .ro .W 0

/-- R505. -/
def KEY_VAULT_FROZEN : Fld := fld (0x60010) 30 1 .ro .C 0

/-- R505. -/
def KEY_VAULT_HALT : Fld := fld (0x60010) 29 1 .ro .POR 0

/-- R505. -/
def KEY_VAULT_STHOLD : Fld := fld (0x60010) 28 1 .ro .C 0

/-- R505. -/
def KEY_VAULT_DSV : Fld := fld (0x60010) 27 1 .ro .none 0

/-- R505. -/
def KEY_VAULT_POLICY : Fld := fld (0x60010) 26 1 .ro .none 0

/-- R505. -/
def KEY_VAULT_REMASK : Fld := fld (0x60010) 0 16 .ro .W 0

/-- R506. -/
def KEY_TAMP_ALARM : Fld := fld (0x60014) 31 1 .w1c .POR 0

/-- R506. -/
def KEY_TAMP_POLICY : Fld := fld (0x60014) 28 2 .ro .none 0

/-- R506. -/
def KEY_TAMP_SRC : Fld := fld (0x60014) 24 4 .w1c .POR 0

/-- R506. -/
def KEY_TAMP_ABORTS : Fld := fld (0x60014) 8 8 .ro .POR 0

/-- R506. -/
def KEY_TAMP_COUNT : Fld := fld (0x60014) 0 8 .ro .POR 0

/-- R506. -/
def KEY_BLOB_ERR : Fld := fld (0x60018) 31 1 .ro .W 0

/-- R506. -/
def KEY_BLOB_PAGE : Fld := fld (0x60018) 27 4 .ro .W 0

/-- R506. -/
def KEY_BLOB_NEXT : Fld := fld (0x60018) 22 5 .ro .W 0

/-- R506. -/
def KEY_BLOB_PRESENT : Fld := fld (0x60018) 0 4 .ro .W 0

/-- R506. -/
def KEY_ZTAG_TAG : Fld := fld (0x6001c) 0 32 .ro .W 0

/-- R507. -/
def KEY_SLOT_STATE (i : Nat) : Fld := fld (0x60100 + 0x4 * i) 30 2 .ro .W 0

/-- R507. -/
def KEY_SLOT_KEYID (i : Nat) : Fld := fld (0x60100 + 0x4 * i) 24 4 .ro .W 0

/-- R507. -/
def KEY_SLOT_LEN (i : Nat) : Fld := fld (0x60100 + 0x4 * i) 16 8 .ro .W 0

/-- R507. -/
def KEY_SLOT_GEN (i : Nat) : Fld := fld (0x60100 + 0x4 * i) 0 16 .ro .W 0

/-- R507. -/
def KEY_TAG_TAG (i : Nat) : Fld := fld (0x60180 + 0x4 * i) 0 32 .ro .W 0

/-- R507. -/
def KEY_DATA_DATA (i : Nat) (j : Nat) : Fld := fld (instanceAddr i + 0x60200 + 4 * j) 0 32 .wo .W 0

/-- R507. -/
def KEY_RESP_RESP (i : Nat) (j : Nat) : Fld := fld (instanceAddr i + 0x60280 + 4 * j) 0 32 .ro .W 0

/-- R525. -/
def PST_AVS_DUTY : Fld := fld (0x200c0) 24 8 .ro .W 128

/-- R525. -/
def PST_AVS_TARGET : Fld := fld (0x200c0) 12 12 .ro .W 750

/-- R525. -/
def PST_AVS_MEAS : Fld := fld (0x200c0) 0 12 .ro .none 0

/-- R525. -/
def PST_THERM_WARN : Fld := fld (0x200c4) 24 8 .rw .W 100 60 110

/-- R525. -/
def PST_THERM_PEAK : Fld := fld (0x200c4) 16 8 .ro .C 0

/-- R525. -/
def PST_THERM_TEMP : Fld := fld (0x200c4) 0 16 .ro .none 0

/-- R65. -/
def CFG_SERIAL_SERIAL : Fld := fld (0x40004) 0 32 .ro .W 0

/-- R65. -/
def CFG_DIGEST_DIGEST (i : Nat) : Fld := fld (0x40010 + 0x4 * i) 0 32 .ro .W 0

/-- R65. -/
def CFG_PERMIT_PERMIT : Fld := fld (0x40054) 0 8 .ro .none 0

/-- R88. -/
def SYS_EVMASK_IRQ_MASK : Fld := fld (0x44) 0 26 .rw .C 67108863

/-- R88. -/
def SYS_EVMASK_EP1_MASK : Fld := fld (0x48) 0 26 .rw .C 0

/-- R88. -/
def SYS_EVMASK_TUN_MASK : Fld := fld (0x4c) 0 26 .rw .C 0

/-- R413. -/
def FUSE_VAR_V : Fld := fld (0x30010) 0 32 .ro .none 0

/-- R413. -/
def FUSE_UID_V (i : Nat) : Fld := fld (0x30014 + 0x4 * i) 0 32 .ro .none 0

/-- R413. -/
def FUSE_RKH_V (i : Nat) (j : Nat) : Fld := fld (0x30040 + 0x30 * i + 4 * j) 0 32 .ro .none 0

/-- R413. -/
def FUSE_RKREV_V : Fld := fld (0x30100) 0 32 .ro .none 0

/-- R413. -/
def FUSE_ARB_V : Fld := fld (0x30104) 0 32 .ro .none 0

/-- R413. -/
def FUSE_RLD_V : Fld := fld (0x30108) 0 32 .ro .none 0

/-- R413. -/
def FUSE_DBG_V : Fld := fld (0x3010c) 0 32 .ro .none 0

/-- R413. -/
def FUSE_KEYPOL_V : Fld := fld (0x30110) 0 32 .ro .none 0

/-- R413. -/
def FUSE_TAMPOL_V : Fld := fld (0x30114) 0 32 .ro .none 0

/-- R413. -/
def FUSE_PINMAP_V (i : Nat) : Fld := fld (0x30120 + 0x4 * i) 0 32 .ro .none 0

/-- R413. -/
def FUSE_PDO_V (i : Nat) : Fld := fld (0x30140 + 0x4 * i) 0 32 .ro .none 0

/-- R413. -/
def FUSE_TRIM_V (i : Nat) : Fld := fld (0x30180 + 0x4 * i) 0 32 .ro .none 0

/-- R413. -/
def FUSE_CRC_V : Fld := fld (0x30200) 0 32 .ro .none 0

/-- R249. -/
def CAN_PEER_V (i : Nat) (j : Nat) : Fld := fld (portReg i 0x700 0x10 + 4 * j) 0 32 .ro .P 0

/-- R249. -/
def CAN_THASH_V (i : Nat) (j : Nat) : Fld := fld (portReg i 0x800 0x40 + 4 * j) 0 32 .ro .P 0

/-- R206. -/
def GRV_CALA_ENTRY (i : Nat) (j : Nat) : Fld := fld (portReg i 0x1000 0x200 + 4 * j) 0 32 .ro .W 0

/-- R206. -/
def GRV_CALB_ENTRY (i : Nat) (j : Nat) : Fld := fld (portReg i 0x1100 0x200 + 4 * j) 0 32 .ro .W 0

/-! ### Events (R85): units 0-25 are the bits of SYS_EVSUM, units 32-63 are lane cells 0-31. -/

/-- The base address of a unit's register range. -/
def evBase (u : Nat) : Nat :=
  if u < 9 then 0x100000 + 0x10000 * u
  else if u < 13 then 0x300000 + 0x10000 * (u - 9)
  else if 32 ≤ u then 0x200000 + 0x1000 * (u - 32)
  else match u with
    | 13 => 0xA0000 | 14 => 0xB0000 | 15 => 0xC0000 | 16 => 0x20000 | 17 => 0x80000 | 18 => 0x70000
    | 19 => 0x90000 | 20 => 0x50000 | 21 => 0x60000 | 22 => 0x40000 | 23 => 0x30000 | 24 => 0x10000 | _ => 0

/-- The leaves a unit defines, as a mask (R87 and each chapter's leaf table). -/
def evDefined (u : Nat) : Nat :=
  if u < 9 then 0x807FFF00
  else if u < 13 then 0x800001FF
  else if 32 ≤ u then 0x800003FF
  else match u with
    | 13 => 0x8000003F | 14 => 0x8000000F | 15 => 0x8000000F | 16 => 0x800F03FF | 17 => 0x8000001F
    | 18 => 0x800001FF | 19 => 0x800000FF | 20 => 0x83FFFFFF | 21 => 0x8000003F | 22 => 0x80000000
    | 23 => 0x80000003 | 24 => 0x8000001F | _ => 0x800003FF

/-- The reach of a unit's event registers (R85). -/
def evReach (u : Nat) : Reach :=
  if u < 9 then .G else if u = 17 ∨ u = 18 ∨ u = 23 ∨ u = 24 then .POR else .W

/-- EVSTAT of a unit (R85). -/
def EVSTAT (i : Nat) : Fld := fld (evBase i + 0xFF0) 0 32 .w1c (evReach i) 0

/-- EVEN of a unit (R85). -/
def EVEN (i : Nat) : Fld := fld (evBase i + 0xFF4) 0 32 .rw (evReach i) (evDefined i)

/-- The registers by name; an indexed register carries its index beside it. -/
inductive RegId where
  | SYS_SETTLE | SYS_GUARD | CFG_STATUS | CFG_CTL | CFG_RELOAD | CFG_RLDST | CFG_ENVERR | CFG_ENVADDR 
  | SYS_PATH | SYS_DWADDR | SYS_DWCTL | SYS_DWDATA | GRV_EVSUM | SYS_EVSUM | SYS_ID | SYS_REV | SYS_UID 
  | SYS_FWVER | SYS_STAGE | TT_STATE | TT_ENDP | TT_REQ | TT_ALLOT | TT_LIMIT | TT_SHAPE | TT_METER | TT_CBS 
  | TT_PBS | TT_SEQ | TT_SEGIN | TT_SEGOUT | TT_DISC | PST_SOLVE | PST_HOSTSEL | PST_REFUSE | FAB_STATUS 
  | FAB_CTCTL | FAB_SLOT | FAB_REMAP | FAB_XMAPA | FAB_XMAPB | FAB_OUTSEG | FAB_PARK | FAB_STOMP | FAB_XGAP 
  | FAB_PART | FAB_BULK | FAB_CETHR | MEM_SPBASE | MEM_SPSIZE | MEM_SPSHARE | MEM_SPSTAT | MEM_SPQ 
  | MEM_SPUSE | MEM_VOID | GRV_FLOW | GRV_FLST | SCHED_LEAD | SCHED_LPOS | SCHED_LTOT | SCHED_LINC 
  | SCHED_FRAME | SCHED_VIRT | SCHED_SLEW | GRV_CALCTL | GRV_CALST | GRV_QBVBASE | GRV_QBVCYC | GRV_QBVEXT 
  | CAN_CTL | CAN_STAT | CAN_ERR | CAN_ERR2 | CAN_UPHDR | CAN_UPREF | CAN_UPREP | LC_CTL | LC_STAT | LC_RTR 
  | LC_FECA | LC_FECB | LC_LOS | LC_TEST | LC_INJ | LC_CHKA | LC_CHKB | LC_CHKT | LC_HOLD | PIPE_CTL 
  | PIPE_STAT | PIPE_ROUTE | PIPE_HTIM | PIPE_VTIM | PIPE_PCLK | PIPE_FMT | PIPE_FSBASE | PIPE_FRAME 
  | PIPE_L1CTL | PIPE_L1ADDR | PIPE_L2CTL | PIPE_L2ADDR | PIPE_L2POS | PIPE_L2SIZE | PIPE_BG | PIPE_NOTICE 
  | PIPE_CNT | ADP_STAT | ADP_PCIE | ADP_ETHMAP | ADP_ETHCTL | ADP_CNT | ADP_DP | USB_STAT | USB_MGT 
  | USB_PST | TIM_TBCTL | TIM_TBINCI | TIM_TBINCF | TIM_TBLDNS | TIM_TBLDFR | TIM_TBWRAP | TIM_LFTNS 
  | TIM_LFTFRM | TIM_SNAP | TIM_SNNS | TIM_SNFR | TIM_SNWR | TIM_SNRAS | TIM_SNFRM | TIM_ASYIN | TIM_ASYOUT 
  | TIM_LNKOFF | TIM_LNKDLY | TIM_LNK | TIM_EVCTL | TIM_EVCMP | TIM_EVPER | TIM_EVRAS | TIM_EVCNS | TIM_EVCST 
  | RST_FLTSTAT | RST_FLTTIME | RST_FLTPTR | RST_FLTINJ | RST_FLTLOG0 | RST_FLTLOG1 | FUSE_LDST | RST_CAUSE 
  | RST_CTL | RST_BOOT | RST_PRTRC | PST_PSCTL | PST_PSSTAT | PST_WAKEEN | PST_WAKEST | PST_RETTIME | PD_CTL 
  | PD_STAT | PD_RDO | PD_VBUS | PD_CV | PD_CNT | PD_GLOB | PC_CTL | PC_STAT | PC_MEAS | PC_CNT | PP_FEED 
  | PP_FEEDCTL | PST_CORE | PST_CUSE | PST_EXT | PST_LEASE | PST_U2LEASE | PST_GRANT | KEY_CMD | KEY_STAT 
  | KEY_VAULT | KEY_TAMP | KEY_BLOB | KEY_ZTAG | KEY_SLOT | KEY_TAG | KEY_DATA | KEY_RESP | PST_AVS 
  | PST_THERM | CFG_SERIAL | CFG_DIGEST | CFG_PERMIT | SYS_EVMASK_IRQ | SYS_EVMASK_EP1 | SYS_EVMASK_TUN 
  | FUSE_VAR | FUSE_UID | FUSE_RKH | FUSE_RKREV | FUSE_ARB | FUSE_RLD | FUSE_DBG | FUSE_KEYPOL | FUSE_TAMPOL 
  | FUSE_PINMAP | FUSE_PDO | FUSE_TRIM | FUSE_CRC | CAN_PEER | CAN_THASH | GRV_CALA | GRV_CALB | EV_STAT 
  | EV_EN 
deriving DecidableEq, Repr

/-- The fields of a register, by its indices. -/
def regFields (r : RegId) (i j : Nat) : List Fld :=
  match r with
  | .SYS_SETTLE => [SYS_SETTLE_PEND, SYS_SETTLE_RUN, SYS_SETTLE_LEFT, SYS_SETTLE_SOLVES]
  | .SYS_GUARD => [SYS_GUARD_RATED, SYS_GUARD_SETTLED, SYS_GUARD_SINGLE, SYS_GUARD_USB4X, SYS_GUARD_EXCUR,
      SYS_GUARD_FAULTS, SYS_GUARD_EXC]
  | .CFG_STATUS => [CFG_STATUS_LOADED, CFG_STATUS_COPY, CFG_STATUS_ENC, CFG_STATUS_FALLBK, CFG_STATUS_HOLD,
      CFG_STATUS_RESA, CFG_STATUS_RESB, CFG_STATUS_SVN, CFG_STATUS_ARBCNT]
  | .CFG_CTL => [CFG_CTL_CHECK, CFG_CTL_ADVANCE]
  | .CFG_RELOAD => [CFG_RELOAD_GO, CFG_RELOAD_GROVE]
  | .CFG_RLDST => [CFG_RLDST_BUSY, CFG_RLDST_DONE, CFG_RLDST_REJ, CFG_RLDST_ABORT, CFG_RLDST_CAUSE,
      CFG_RLDST_PORTS]
  | .CFG_ENVERR => [CFG_ENVERR_ERR, CFG_ENVERR_CLAMP, CFG_ENVERR_LOCK, CFG_ENVERR_COUNT]
  | .CFG_ENVADDR => [CFG_ENVADDR_ADDR]
  | .SYS_PATH => [SYS_PATH_ENTUN1, SYS_PATH_ENTUN0, SYS_PATH_ENUSB, SYS_PATH_ENBRD]
  | .SYS_DWADDR => [SYS_DWADDR_ADDR i]
  | .SYS_DWCTL => [SYS_DWCTL_BUSY i, SYS_DWCTL_ERR i, SYS_DWCTL_LEN i, SYS_DWCTL_STEP i, SYS_DWCTL_ARM i,
      SYS_DWCTL_DIR i]
  | .SYS_DWDATA => [SYS_DWDATA_DATA i]
  | .GRV_EVSUM => [GRV_EVSUM_OWN i, GRV_EVSUM_CELL i]
  | .SYS_EVSUM => [SYS_EVSUM_SYS, SYS_EVSUM_RST, SYS_EVSUM_FUSE, SYS_EVSUM_CFG, SYS_EVSUM_KEY, SYS_EVSUM_TIM,
      SYS_EVSUM_USB, SYS_EVSUM_PD, SYS_EVSUM_PPATH, SYS_EVSUM_PST, SYS_EVSUM_SCHED, SYS_EVSUM_MEM,
      SYS_EVSUM_FAB, SYS_EVSUM_PIPE, SYS_EVSUM_GROVE]
  | .SYS_ID => [SYS_ID_VENDOR, SYS_ID_DEVICE]
  | .SYS_REV => [SYS_REV_STEPMAJ, SYS_REV_STEPMIN, SYS_REV_VARIANT]
  | .SYS_UID => [SYS_UID_UID i]
  | .SYS_FWVER => [SYS_FWVER_MAJOR, SYS_FWVER_MINOR, SYS_FWVER_BUILD]
  | .SYS_STAGE => [SYS_STAGE_FWRDY, SYS_STAGE_HOLD, SYS_STAGE_FUSEFLT, SYS_STAGE_STAGE]
  | .TT_STATE => [TT_STATE_STATE i, TT_STATE_GEN i, TT_STATE_KIND i, TT_STATE_CLS i, TT_STATE_MODE i,
      TT_STATE_DIR i, TT_STATE_CASC i, TT_STATE_PEER i, TT_STATE_CAUSE i]
  | .TT_ENDP => [TT_ENDP_INPORT i, TT_ENDP_OUTPORT i, TT_ENDP_INFAB i, TT_ENDP_OUTFAB i, TT_ENDP_PIPE i,
      TT_ENDP_PIPEV i, TT_ENDP_CHILD i]
  | .TT_REQ => [TT_REQ_PORT i, TT_REQ_KIND i, TT_REQ_INDEX i, TT_REQ_HOME i]
  | .TT_ALLOT => [TT_ALLOT_ACT i, TT_ALLOT_NEXT i]
  | .TT_LIMIT => [TT_LIMIT_CEIL i, TT_LIMIT_FLOOR i]
  | .TT_SHAPE => [TT_SHAPE_BURST i]
  | .TT_METER => [TT_METER_CAWARE i, TT_METER_PIR i, TT_METER_CIR i]
  | .TT_CBS => [TT_CBS_CBS i]
  | .TT_PBS => [TT_PBS_PBS i]
  | .TT_SEQ => [TT_SEQ_INSEQ i, TT_SEQ_OUTSEQ i]
  | .TT_SEGIN => [TT_SEGIN_COUNT i]
  | .TT_SEGOUT => [TT_SEGOUT_COUNT i]
  | .TT_DISC => [TT_DISC_GENDIS i]
  | .PST_SOLVE => [PST_SOLVE_BUSY, PST_SOLVE_ARMED, PST_SOLVE_BANK, PST_SOLVE_CANCEL, PST_SOLVE_REFUSED,
      PST_SOLVE_DEGRADED, PST_SOLVE_TIME]
  | .PST_HOSTSEL => [PST_HOSTSEL_SEL]
  | .PST_REFUSE => [PST_REFUSE_TUN i]
  | .FAB_STATUS => [FAB_STATUS_MAPBANK, FAB_STATUS_MAPPEND, FAB_STATUS_PHASE, FAB_STATUS_FENCE]
  | .FAB_CTCTL => [FAB_CTCTL_BACKOFF, FAB_CTCTL_SAF]
  | .FAB_SLOT => [FAB_SLOT_COUNT]
  | .FAB_REMAP => [FAB_REMAP_ATT i, FAB_REMAP_PHYS i]
  | .FAB_XMAPA => [FAB_XMAPA_ENT i]
  | .FAB_XMAPB => [FAB_XMAPB_ENT i]
  | .FAB_OUTSEG => [FAB_OUTSEG_COUNT i]
  | .FAB_PARK => [FAB_PARK_AREA i, FAB_PARK_PEAK i]
  | .FAB_STOMP => [FAB_STOMP_ABORTS i, FAB_STOMP_CTUNITS i]
  | .FAB_XGAP => [FAB_XGAP_TUN i]
  | .FAB_PART => [FAB_PART_INSVC i, FAB_PART_EVAC i, FAB_PART_OCC i]
  | .FAB_BULK => [FAB_BULK_CAP, FAB_BULK_G]
  | .FAB_CETHR => [FAB_CETHR_LIMIT]
  | .MEM_SPBASE => [MEM_SPBASE_BASE]
  | .MEM_SPSIZE => [MEM_SPSIZE_SIZE]
  | .MEM_SPSHARE => [MEM_SPSHARE_WR, MEM_SPSHARE_RD]
  | .MEM_SPSTAT => [MEM_SPSTAT_GLOBAL, MEM_SPSTAT_FREE]
  | .MEM_SPQ => [MEM_SPQ_QUOTA i]
  | .MEM_SPUSE => [MEM_SPUSE_HELD i, MEM_SPUSE_PAGES i]
  | .MEM_VOID => [MEM_VOID_GEN3 i, MEM_VOID_GEN2 i, MEM_VOID_GEN1 i, MEM_VOID_GEN0 i]
  | .GRV_FLOW => [GRV_FLOW_STALL i, GRV_FLOW_HEAD i, GRV_FLOW_ICL i]
  | .GRV_FLST => [GRV_FLST_EGHELD i, GRV_FLST_INHELD i, GRV_FLST_TIMER i, GRV_FLST_STALLS i, GRV_FLST_OVRUN i,
      GRV_FLST_XDISC i]
  | .SCHED_LEAD => [SCHED_LEAD_STATE, SCHED_LEAD_NSRC, SCHED_LEAD_SRC, SCHED_LEAD_LINES]
  | .SCHED_LPOS => [SCHED_LPOS_LINE, SCHED_LPOS_FRAC]
  | .SCHED_LTOT => [SCHED_LTOT_TOTAL]
  | .SCHED_LINC => [SCHED_LINC_INC]
  | .SCHED_FRAME => [SCHED_FRAME_COUNT]
  | .SCHED_VIRT => [SCHED_VIRT_RATE, SCHED_VIRT_VLINES]
  | .SCHED_SLEW => [SCHED_SLEW_MAX]
  | .GRV_CALCTL => [GRV_CALCTL_MODE i, GRV_CALCTL_TBSEL i, GRV_CALCTL_LASTA i, GRV_CALCTL_LASTB i,
      GRV_CALCTL_OVH i]
  | .GRV_CALST => [GRV_CALST_BANK i, GRV_CALST_CUR i, GRV_CALST_BT i]
  | .GRV_QBVBASE => [GRV_QBVBASE_BASE i]
  | .GRV_QBVCYC => [GRV_QBVCYC_CYCLE i]
  | .GRV_QBVEXT => [GRV_QBVEXT_EXT i]
  | .CAN_CTL => [CAN_CTL_RETRAIN i, CAN_CTL_ASYM i, CAN_CTL_PREF i, CAN_CTL_KEYIVL i, CAN_CTL_KMAX i,
      CAN_CTL_TIME i]
  | .CAN_STAT => [CAN_STAT_STATE i, CAN_STAT_MODE i, CAN_STAT_ROLE i, CAN_STAT_PKIND i, CAN_STAT_TXEP i,
      CAN_STAT_RXEP i]
  | .CAN_ERR => [CAN_ERR_UNCORR i, CAN_ERR_RNAKTX i, CAN_ERR_RNAKRX i, CAN_ERR_CSLOT i]
  | .CAN_ERR2 => [CAN_ERR2_EARLY i, CAN_ERR2_PROTO i, CAN_ERR2_TAGFAIL i]
  | .CAN_UPHDR => [CAN_UPHDR_HUBS i, CAN_UPHDR_SERIAL i]
  | .CAN_UPREF => [CAN_UPREF_REF i]
  | .CAN_UPREP => [CAN_UPREP_VALID i j, CAN_UPREP_CLS i j, CAN_UPREP_CEIL i j, CAN_UPREP_FLOOR i j]
  | .LC_CTL => [LC_CTL_HOLD i, LC_CTL_RTRN i, LC_CTL_TXPA i, LC_CTL_TXPB i, LC_CTL_RXPA i, LC_CTL_RXPB i]
  | .LC_STAT => [LC_STAT_STATE i, LC_STAT_OWNER i, LC_STAT_RATE i, LC_STAT_ORIENT i, LC_STAT_DIR i,
      LC_STAT_LOSA i, LC_STAT_LOSB i, LC_STAT_LOCKA i, LC_STAT_LOCKB i, LC_STAT_INVA i, LC_STAT_INVB i,
      LC_STAT_RANKA i, LC_STAT_RANKB i]
  | .LC_RTR => [LC_RTR_RETRAINS i, LC_RTR_FAILS i, LC_RTR_CONSEC i]
  | .LC_FECA => [LC_FECA_CORR i, LC_FECA_UNCORR i]
  | .LC_FECB => [LC_FECB_CORR i, LC_FECB_UNCORR i]
  | .LC_LOS => [LC_LOS_TIME i, LC_LOS_THR i]
  | .LC_TEST => [LC_TEST_EN i, LC_TEST_RATE i, LC_TEST_PATA i, LC_TEST_PATB i, LC_TEST_LOOPA i,
      LC_TEST_LOOPB i, LC_TEST_CLR i]
  | .LC_INJ => [LC_INJ_GO i, LC_INJ_PAIR i, LC_INJ_TYPE i, LC_INJ_LEN i, LC_INJ_COUNT i]
  | .LC_CHKA => [LC_CHKA_SYNC i, LC_CHKA_ERR i]
  | .LC_CHKB => [LC_CHKB_SYNC i, LC_CHKB_ERR i]
  | .LC_CHKT => [LC_CHKT_TIME i]
  | .LC_HOLD => [LC_HOLD_USED i, LC_HOLD_PEAK i, LC_HOLD_STOPS i]
  | .PIPE_CTL => [PIPE_CTL_FHOLD i, PIPE_CTL_NTOFF i, PIPE_CTL_TSRC i, PIPE_CTL_TESEL i]
  | .PIPE_STAT => [PIPE_STAT_STATE i, PIPE_STAT_NOTICE i, PIPE_STAT_FSVAL i, PIPE_STAT_HBUF i,
      PIPE_STAT_LOCKED i, PIPE_STAT_DSC i, PIPE_STAT_LINE i]
  | .PIPE_ROUTE => [PIPE_ROUTE_VALID i, PIPE_ROUTE_PORT i]
  | .PIPE_HTIM => [PIPE_HTIM_HTOTAL i, PIPE_HTIM_HACTIVE i]
  | .PIPE_VTIM => [PIPE_VTIM_VTOTAL i, PIPE_VTIM_VACTIVE i]
  | .PIPE_PCLK => [PIPE_PCLK_PCLK i]
  | .PIPE_FMT => [PIPE_FMT_FORMAT i, PIPE_FMT_DSCBPP i, PIPE_FMT_SLICEH i]
  | .PIPE_FSBASE => [PIPE_FSBASE_BASE i]
  | .PIPE_FRAME => [PIPE_FRAME_COUNT i]
  | .PIPE_L1CTL => [PIPE_L1CTL_SRC i, PIPE_L1CTL_FMT i, PIPE_L1CTL_PITCH i]
  | .PIPE_L1ADDR => [PIPE_L1ADDR_ADDR i]
  | .PIPE_L2CTL => [PIPE_L2CTL_EN i, PIPE_L2CTL_FMT i, PIPE_L2CTL_GALPHA i, PIPE_L2CTL_PITCH i]
  | .PIPE_L2ADDR => [PIPE_L2ADDR_ADDR i]
  | .PIPE_L2POS => [PIPE_L2POS_Y i, PIPE_L2POS_X i]
  | .PIPE_L2SIZE => [PIPE_L2SIZE_H i, PIPE_L2SIZE_W i]
  | .PIPE_BG => [PIPE_BG_RGB i]
  | .PIPE_NOTICE => [PIPE_NOTICE_DELAY i, PIPE_NOTICE_SHOW i]
  | .PIPE_CNT => [PIPE_CNT_HOLDLN i, PIPE_CNT_INCOMP i, PIPE_CNT_TEMISS i]
  | .ADP_STAT => [ADP_STAT_STATE i, ADP_STAT_PERS i, ADP_STAT_RATE i, ADP_STAT_WIDTH i, ADP_STAT_SPEED i]
  | .ADP_PCIE => [ADP_PCIE_EJREQ i, ADP_PCIE_PRESENT i, ADP_PCIE_DLLACT i, ADP_PCIE_PIND i, ADP_PCIE_URSYN i]
  | .ADP_ETHMAP => (List.range 8).map (ADP_ETHMAP_PCP i)
  | .ADP_ETHCTL => [ADP_ETHCTL_FEC i, ADP_ETHCTL_PFCEN i, ADP_ETHCTL_UNTAG i, ADP_ETHCTL_MAXFRM i]
  | .ADP_CNT => [ADP_CNT_RXBAD i, ADP_CNT_NOTUN i]
  | .ADP_DP => [ADP_DP_HPD i, ADP_DP_SINKDSC i, ADP_DP_TRAINS i, ADP_DP_FALLBK i]
  | .USB_STAT => [USB_STAT_UPSEL, USB_STAT_DNSEL, USB_STAT_SPEED, USB_STAT_SUSP, USB_STAT_PULLUP,
      USB_STAT_SWITCHES]
  | .USB_MGT => [USB_MGT_CONF, USB_MGT_ALT, USB_MGT_EP1HALT, USB_MGT_RWEN, USB_MGT_ADDR, USB_MGT_SILENT,
      USB_MGT_RESETS]
  | .USB_PST => [USB_PST_CONN i, USB_PST_EN i, USB_PST_SUSP i, USB_PST_SPEED i, USB_PST_PWR i, USB_PST_OC i,
      USB_PST_RWAKE i, USB_PST_BABBLE i, USB_PST_OCCNT i]
  | .TIM_TBCTL => [TIM_TBCTL_RUN i, TIM_TBCTL_STSRC i, TIM_TBCTL_ARMED i, TIM_TBCTL_ROLE i, TIM_TBCTL_ARG i,
      TIM_TBCTL_HOSTSRV i, TIM_TBCTL_LOCK i]
  | .TIM_TBINCI => [TIM_TBINCI_NS i]
  | .TIM_TBINCF => [TIM_TBINCF_FRAC i]
  | .TIM_TBLDNS => [TIM_TBLDNS_NS i]
  | .TIM_TBLDFR => [TIM_TBLDFR_FRAC i]
  | .TIM_TBWRAP => [TIM_TBWRAP_WRAPS i]
  | .TIM_LFTNS => [TIM_LFTNS_NS i]
  | .TIM_LFTFRM => [TIM_LFTFRM_FRAME]
  | .TIM_SNAP => [TIM_SNAP_TAKE]
  | .TIM_SNNS => [TIM_SNNS_NS i]
  | .TIM_SNFR => [TIM_SNFR_FRAC i]
  | .TIM_SNWR => [TIM_SNWR_WRAPS i]
  | .TIM_SNRAS => [TIM_SNRAS_POS]
  | .TIM_SNFRM => [TIM_SNFRM_FRAME]
  | .TIM_ASYIN => [TIM_ASYIN_PS i]
  | .TIM_ASYOUT => [TIM_ASYOUT_PS i]
  | .TIM_LNKOFF => [TIM_LNKOFF_OFF i]
  | .TIM_LNKDLY => [TIM_LNKDLY_DLY i]
  | .TIM_LNK => [TIM_LNK_SEQ i, TIM_LNK_MISSED i, TIM_LNK_EXCH i]
  | .TIM_EVCTL => [TIM_EVCTL_MODE i, TIM_EVCTL_TBSEL i, TIM_EVCTL_POL i, TIM_EVCTL_LVLCLR i, TIM_EVCTL_DIV i,
      TIM_EVCTL_WIDTH i]
  | .TIM_EVCMP => [TIM_EVCMP_CMP i]
  | .TIM_EVPER => [TIM_EVPER_PERIOD i]
  | .TIM_EVRAS => [TIM_EVRAS_LINE i, TIM_EVRAS_FRAC i]
  | .TIM_EVCNS => [TIM_EVCNS_NS i]
  | .TIM_EVCST => [TIM_EVCST_VALID i, TIM_EVCST_OVF i, TIM_EVCST_EDGE i, TIM_EVCST_LINE i, TIM_EVCST_LFRAC i,
      TIM_EVCST_TFRAC i]
  | .RST_FLTSTAT => [RST_FLTSTAT_GFFOR, RST_FLTSTAT_SEQ, RST_FLTSTAT_GFOK, RST_FLTSTAT_MGT, RST_FLTSTAT_FENCED]
  | .RST_FLTTIME => [RST_FLTTIME_LAST, RST_FLTTIME_MAX]
  | .RST_FLTPTR => [RST_FLTPTR_COUNT, RST_FLTPTR_NEXT]
  | .RST_FLTINJ => [RST_FLTINJ_GO, RST_FLTINJ_KIND, RST_FLTINJ_UNIT]
  | .RST_FLTLOG0 => [RST_FLTLOG0_KIND i, RST_FLTLOG0_SECOND i, RST_FLTLOG0_INJ i, RST_FLTLOG0_UNIT i,
      RST_FLTLOG0_TUN i, RST_FLTLOG0_DET i]
  | .RST_FLTLOG1 => [RST_FLTLOG1_TIME i]
  | .FUSE_LDST => [FUSE_LDST_SHADOW_VALID, FUSE_LDST_FAULT, FUSE_LDST_ATTEMPT, FUSE_LDST_RESTARTS,
      FUSE_LDST_CRCLO]
  | .RST_CAUSE => [RST_CAUSE_GRV, RST_CAUSE_ZERO, RST_CAUSE_PORT, RST_CAUSE_MWDOG, RST_CAUSE_LOCKSTEP,
      RST_CAUSE_SEQWARM, RST_CAUSE_HOST, RST_CAUSE_SWWARM, RST_CAUSE_WARMN, RST_CAUSE_SEQCOLD, RST_CAUSE_THERM,
      RST_CAUSE_SWCOLD, RST_CAUSE_RESETN, RST_CAUSE_BOR, RST_CAUSE_POR]
  | .RST_CTL => [RST_CTL_KEY, RST_CTL_PORT, RST_CTL_PRST, RST_CTL_COLD, RST_CTL_WARM]
  | .RST_BOOT => [RST_BOOT_SAPDONE, RST_BOOT_WAITPWR, RST_BOOT_FWFAIL, RST_BOOT_FWCOPY, RST_BOOT_SAPTIME,
      RST_BOOT_STANDTIME]
  | .RST_PRTRC => [RST_PRTRC_PORTS]
  | .PST_PSCTL => [PST_PSCTL_GO, PST_PSCTL_AUTO, PST_PSCTL_IDLE, PST_PSCTL_TARGET]
  | .PST_PSSTAT => [PST_PSSTAT_STATE, PST_PSSTAT_FROM, PST_PSSTAT_PHASE, PST_PSSTAT_WHO, PST_PSSTAT_REASON,
      PST_PSSTAT_DEFERS]
  | .PST_WAKEEN => [PST_WAKEEN_TAMPER, PST_WAKEEN_EN]
  | .PST_WAKEST => [PST_WAKEST_SRC]
  | .PST_RETTIME => [PST_RETTIME_LAST]
  | .PD_CTL => [PD_CTL_HRST i, PD_CTL_ERREC i, PD_CTL_SLEW i, PD_CTL_TRLIM i, PD_CTL_EPREN i, PD_CTL_PPSEN i,
      PD_CTL_TRYSRC i]
  | .PD_STAT => [PD_STAT_CCST i, PD_STAT_ORIENT i, PD_STAT_PROLE i, PD_STAT_DROLE i, PD_STAT_VCONN i,
      PD_STAT_CONTR i, PD_STAT_CAB5A i, PD_STAT_CABEPR i, PD_STAT_RPLVL i]
  | .PD_RDO => [PD_RDO_RDO i]
  | .PD_VBUS => [PD_VBUS_TARGET i, PD_VBUS_MEAS i]
  | .PD_CV => [PD_CV_CVEN i, PD_CV_STATE i, PD_CV_ADJ i]
  | .PD_CNT => [PD_CNT_HRST i, PD_CNT_TRFAIL i, PD_CNT_COLL i, PD_CNT_ERREC i]
  | .PD_GLOB => [PD_GLOB_FWPOL, PD_GLOB_DBBOOT, PD_GLOB_DBDENY, PD_GLOB_DBPORT, PD_GLOB_FPDOV, PD_GLOB_FPDOC,
      PD_GLOB_SEEDPORT]
  | .PC_CTL => [PC_CTL_CLR i, PC_CTL_MODE i, PC_CTL_RETRIES i, PC_CTL_FLTT i, PC_CTL_ILIM i, PC_CTL_GATE i]
  | .PC_STAT => [PC_STAT_STATE i, PC_STAT_PG i, PC_STAT_REV i, PC_STAT_CAUSE i, PC_STAT_ATTEMPT i]
  | .PC_MEAS => [PC_MEAS_VOUT i, PC_MEAS_VIN i, PC_MEAS_I i]
  | .PC_CNT => [PC_CNT_SC i, PC_CNT_OC i, PC_CNT_UV i, PC_CNT_LATCH i]
  | .PP_FEED => [PP_FEED_ACTIVE, PP_FEED_QUALA, PP_FEED_QUALB, PP_FEED_PRESA, PP_FEED_PRESB, PP_FEED_WARN,
      PP_FEED_CHG]
  | .PP_FEEDCTL => [PP_FEEDCTL_DT, PP_FEEDCTL_RET]
  | .PST_CORE => [PST_CORE_CEIL, PST_CORE_BUDGET]
  | .PST_CUSE => [PST_CUSE_EFF, PST_CUSE_GRANTED]
  | .PST_EXT => [PST_EXT_LOW, PST_EXT_BUS, PST_EXT_AVAIL, PST_EXT_LEASED]
  | .PST_LEASE => [PST_LEASE_MW i]
  | .PST_U2LEASE => [PST_U2LEASE_PORTS]
  | .PST_GRANT => [PST_GRANT_MW i]
  | .KEY_CMD => [KEY_CMD_GO i, KEY_CMD_OP i, KEY_CMD_SLOT i, KEY_CMD_ARG i]
  | .KEY_STAT => [KEY_STAT_BUSY i, KEY_STAT_RESULT i, KEY_STAT_SEQ i]
  | .KEY_VAULT => [KEY_VAULT_KEKV, KEY_VAULT_FROZEN, KEY_VAULT_HALT, KEY_VAULT_STHOLD, KEY_VAULT_DSV,
      KEY_VAULT_POLICY, KEY_VAULT_REMASK]
  | .KEY_TAMP => [KEY_TAMP_ALARM, KEY_TAMP_POLICY, KEY_TAMP_SRC, KEY_TAMP_ABORTS, KEY_TAMP_COUNT]
  | .KEY_BLOB => [KEY_BLOB_ERR, KEY_BLOB_PAGE, KEY_BLOB_NEXT, KEY_BLOB_PRESENT]
  | .KEY_ZTAG => [KEY_ZTAG_TAG]
  | .KEY_SLOT => [KEY_SLOT_STATE i, KEY_SLOT_KEYID i, KEY_SLOT_LEN i, KEY_SLOT_GEN i]
  | .KEY_TAG => [KEY_TAG_TAG i]
  | .KEY_DATA => [KEY_DATA_DATA i j]
  | .KEY_RESP => [KEY_RESP_RESP i j]
  | .PST_AVS => [PST_AVS_DUTY, PST_AVS_TARGET, PST_AVS_MEAS]
  | .PST_THERM => [PST_THERM_WARN, PST_THERM_PEAK, PST_THERM_TEMP]
  | .CFG_SERIAL => [CFG_SERIAL_SERIAL]
  | .CFG_DIGEST => [CFG_DIGEST_DIGEST i]
  | .CFG_PERMIT => [CFG_PERMIT_PERMIT]
  | .SYS_EVMASK_IRQ => [SYS_EVMASK_IRQ_MASK]
  | .SYS_EVMASK_EP1 => [SYS_EVMASK_EP1_MASK]
  | .SYS_EVMASK_TUN => [SYS_EVMASK_TUN_MASK]
  | .FUSE_VAR => [FUSE_VAR_V]
  | .FUSE_UID => [FUSE_UID_V i]
  | .FUSE_RKH => [FUSE_RKH_V i j]
  | .FUSE_RKREV => [FUSE_RKREV_V]
  | .FUSE_ARB => [FUSE_ARB_V]
  | .FUSE_RLD => [FUSE_RLD_V]
  | .FUSE_DBG => [FUSE_DBG_V]
  | .FUSE_KEYPOL => [FUSE_KEYPOL_V]
  | .FUSE_TAMPOL => [FUSE_TAMPOL_V]
  | .FUSE_PINMAP => [FUSE_PINMAP_V i]
  | .FUSE_PDO => [FUSE_PDO_V i]
  | .FUSE_TRIM => [FUSE_TRIM_V i]
  | .FUSE_CRC => [FUSE_CRC_V]
  | .CAN_PEER => [CAN_PEER_V i j]
  | .CAN_THASH => [CAN_THASH_V i j]
  | .GRV_CALA => [GRV_CALA_ENTRY i j]
  | .GRV_CALB => [GRV_CALB_ENTRY i j]
  | .EV_STAT => [EVSTAT i]
  | .EV_EN => [EVEN i]

/-- One row of the address map: a family of registers at `base + s1 * a + s2 * b + s3 * c`. A port row's first
two indices are the grove and the place of the port. -/
structure MapRow where
  id : RegId
  base : Nat
  s1 : Nat
  c1 : Nat
  s2 : Nat
  c2 : Nat
  s3 : Nat
  c3 : Nat
  i0 : Nat
  port : Bool
deriving DecidableEq, Repr

/-- A row with at most two indices. -/
def rowL (id : RegId) (base : Nat) (s1 : Nat := 0) (c1 : Nat := 1) (s2 : Nat := 0) (c2 : Nat := 1) (i0 : Nat := 0) :
    MapRow := ⟨id, base, s1, c1, s2, c2, 0, 1, i0, false⟩

/-- A port row. -/
def rowP (id : RegId) (off st : Nat) (s3 : Nat := 0) (c3 : Nat := 1) (groves : Nat := 8) : MapRow :=
  ⟨id, 0x100000 + off, 0x10000, groves, st, 4, s3, c3, 0, true⟩

/-- The address map, part 1 (R72 and the register tables). -/
def mapRows1 : List MapRow := [
  rowL .SYS_SETTLE 0x60, rowL .SYS_GUARD 0x64, rowL .CFG_STATUS 0x40000, rowL .CFG_CTL 0x40040,
  rowL .CFG_RELOAD 0x40044, rowL .CFG_RLDST 0x40048, rowL .CFG_ENVERR 0x4004c, rowL .CFG_ENVADDR 0x40050,
  rowL .SYS_PATH 0x18, rowL .SYS_DWADDR 0x20, rowL .SYS_DWCTL 0x24, rowL .SYS_DWDATA 0x28,
  rowL .GRV_EVSUM 0x100ff8 0x10000 9, rowL .SYS_EVSUM 0x40, rowL .SYS_ID 0x0, rowL .SYS_REV 0x4,
  rowL .SYS_UID 0x8 0x4 2, rowL .SYS_FWVER 0x10, rowL .SYS_STAGE 0x14, rowL .TT_STATE 0x400000 0x40 256,
  rowL .TT_ENDP 0x400004 0x40 256, rowL .TT_REQ 0x400008 0x40 256, rowL .TT_ALLOT 0x40000c 0x40 256,
  rowL .TT_LIMIT 0x400010 0x40 256, rowL .TT_SHAPE 0x400014 0x40 256, rowL .TT_METER 0x400018 0x40 256,
  rowL .TT_CBS 0x40001c 0x40 256, rowL .TT_PBS 0x400020 0x40 256, rowL .TT_SEQ 0x400024 0x40 256,
  rowL .TT_SEGIN 0x400028 0x40 256, rowL .TT_SEGOUT 0x40002c 0x40 256, rowL .TT_DISC 0x400030 0x40 256,
  rowL .PST_SOLVE 0x20800, rowL .PST_HOSTSEL 0x20804, rowL .PST_REFUSE 0x20810 0x4 8, rowL .FAB_STATUS 0xa0000,
  rowL .FAB_CTCTL 0xa0004, rowL .FAB_SLOT 0xa0008, rowL .FAB_REMAP 0xa0040 0x4 20,
  rowL .FAB_XMAPA 0xa0100 0x4 80]

/-- The address map, part 2 (R72 and the register tables). -/
def mapRows2 : List MapRow := [
  rowL .FAB_XMAPB 0xa0300 0x4 80, rowL .FAB_OUTSEG 0xa0500 0x10 20, rowL .FAB_PARK 0xa0504 0x10 20,
  rowL .FAB_STOMP 0xa0508 0x10 20, rowL .FAB_XGAP 0xa050c 0x10 20, rowL .FAB_PART 0xa0800 0x4 20,
  rowL .FAB_BULK 0xa0850, rowL .FAB_CETHR 0xa0858, rowL .MEM_SPBASE 0xb0100, rowL .MEM_SPSIZE 0xb0104,
  rowL .MEM_SPSHARE 0xb0108, rowL .MEM_SPSTAT 0xb010c, rowL .MEM_SPQ 0xb0140 0x4 20,
  rowL .MEM_SPUSE 0xb01a0 0x4 20, rowL .MEM_VOID 0xb0200 0x4 256, rowP .GRV_FLOW 0x400 0x4,
  rowP .GRV_FLST 0x440 0x4, rowL .SCHED_LEAD 0xc0000, rowL .SCHED_LPOS 0xc0004, rowL .SCHED_LTOT 0xc0008,
  rowL .SCHED_LINC 0xc000c, rowL .SCHED_FRAME 0xc0010, rowL .SCHED_VIRT 0xc0014, rowL .SCHED_SLEW 0xc0018,
  rowP .GRV_CALCTL 0x480 0x4, rowP .GRV_CALST 0x4c0 0x4, rowP .GRV_QBVBASE 0x500 0x4,
  rowP .GRV_QBVCYC 0x540 0x4, rowP .GRV_QBVEXT 0x580 0x4, rowP .CAN_CTL 0x600 0x4 0 1 4,
  rowP .CAN_STAT 0x640 0x4 0 1 4, rowP .CAN_ERR 0x680 0x4 0 1 4, rowP .CAN_ERR2 0x6c0 0x4 0 1 4,
  rowL .CAN_UPHDR 0x102000 0x10000 2, rowL .CAN_UPREF 0x102004 0x10000 2,
  rowL .CAN_UPREP 0x102010 0x10000 2 4 30, rowL .LC_CTL 0x200000 0x1000 32, rowL .LC_STAT 0x200004 0x1000 32,
  rowL .LC_RTR 0x200008 0x1000 32, rowL .LC_FECA 0x20000c 0x1000 32]

/-- The address map, part 3 (R72 and the register tables). -/
def mapRows3 : List MapRow := [
  rowL .LC_FECB 0x200010 0x1000 32, rowL .LC_LOS 0x200014 0x1000 32, rowL .LC_TEST 0x200020 0x1000 32,
  rowL .LC_INJ 0x200024 0x1000 32, rowL .LC_CHKA 0x200028 0x1000 32, rowL .LC_CHKB 0x20002c 0x1000 32,
  rowL .LC_CHKT 0x200030 0x1000 32, rowL .LC_HOLD 0x200034 0x1000 32, rowL .PIPE_CTL 0x300000 0x10000 4,
  rowL .PIPE_STAT 0x300004 0x10000 4, rowL .PIPE_ROUTE 0x300008 0x10000 4, rowL .PIPE_HTIM 0x300010 0x10000 4,
  rowL .PIPE_VTIM 0x300014 0x10000 4, rowL .PIPE_PCLK 0x300018 0x10000 4, rowL .PIPE_FMT 0x30001c 0x10000 4,
  rowL .PIPE_FSBASE 0x300020 0x10000 4, rowL .PIPE_FRAME 0x300024 0x10000 4,
  rowL .PIPE_L1CTL 0x300030 0x10000 4, rowL .PIPE_L1ADDR 0x300034 0x10000 4,
  rowL .PIPE_L2CTL 0x300040 0x10000 4, rowL .PIPE_L2ADDR 0x300044 0x10000 4,
  rowL .PIPE_L2POS 0x300048 0x10000 4, rowL .PIPE_L2SIZE 0x30004c 0x10000 4, rowL .PIPE_BG 0x300050 0x10000 4,
  rowL .PIPE_NOTICE 0x300060 0x10000 4, rowL .PIPE_CNT 0x300064 0x10000 4, rowP .ADP_STAT 0x3000 0x100,
  rowP .ADP_PCIE 0x3004 0x100, rowP .ADP_ETHMAP 0x3008 0x100, rowP .ADP_ETHCTL 0x300c 0x100,
  rowP .ADP_CNT 0x3010 0x100, rowP .ADP_DP 0x3014 0x100, rowL .USB_STAT 0x90000, rowL .USB_MGT 0x90004,
  rowL .USB_PST 0x90100 0x4 35, rowL .TIM_TBCTL 0x50000 0x40 4, rowL .TIM_TBINCI 0x50004 0x40 4,
  rowL .TIM_TBINCF 0x50008 0x40 4, rowL .TIM_TBLDNS 0x5000c 0x40 4, rowL .TIM_TBLDFR 0x50010 0x40 4]

/-- The address map, part 4 (R72 and the register tables). -/
def mapRows4 : List MapRow := [
  rowL .TIM_TBWRAP 0x50014 0x40 4, rowL .TIM_LFTNS 0x50018 0x40 4, rowL .TIM_LFTFRM 0x50100,
  rowL .TIM_SNAP 0x50200, rowL .TIM_SNNS 0x50210 0x8 4, rowL .TIM_SNFR 0x50214 0x8 4,
  rowL .TIM_SNWR 0x50230 0x4 4, rowL .TIM_SNRAS 0x50240, rowL .TIM_SNFRM 0x50244,
  rowL .TIM_ASYIN 0x50300 0x8 20, rowL .TIM_ASYOUT 0x50304 0x8 20, rowL .TIM_LNKOFF 0x50500 0x10 8,
  rowL .TIM_LNKDLY 0x50504 0x10 8, rowL .TIM_LNK 0x50508 0x10 8, rowL .TIM_EVCTL 0x50400 0x20 8,
  rowL .TIM_EVCMP 0x50404 0x20 8, rowL .TIM_EVPER 0x50408 0x20 8, rowL .TIM_EVRAS 0x5040c 0x20 8,
  rowL .TIM_EVCNS 0x50410 0x20 8, rowL .TIM_EVCST 0x50414 0x20 8, rowL .RST_FLTSTAT 0x10100,
  rowL .RST_FLTTIME 0x10104, rowL .RST_FLTPTR 0x10108, rowL .RST_FLTINJ 0x1010c,
  rowL .RST_FLTLOG0 0x10110 0x8 8, rowL .RST_FLTLOG1 0x10114 0x8 8, rowL .FUSE_LDST 0x30000,
  rowL .RST_CAUSE 0x10000, rowL .RST_CTL 0x10004, rowL .RST_BOOT 0x10008, rowL .RST_PRTRC 0x1000c,
  rowL .PST_PSCTL 0x20000, rowL .PST_PSSTAT 0x20004, rowL .PST_WAKEEN 0x20008, rowL .PST_WAKEST 0x2000c,
  rowL .PST_RETTIME 0x20010, rowL .PD_CTL 0x70000 0x40 8, rowL .PD_STAT 0x70004 0x40 8,
  rowL .PD_RDO 0x70008 0x40 8, rowL .PD_VBUS 0x7000c 0x40 8]

/-- The address map, part 5 (R72 and the register tables). -/
def mapRows5 : List MapRow := [
  rowL .PD_CV 0x70010 0x40 8, rowL .PD_CNT 0x70014 0x40 8, rowL .PD_GLOB 0x70400, rowL .PC_CTL 0x80000 0x20 10,
  rowL .PC_STAT 0x80004 0x20 10, rowL .PC_MEAS 0x80008 0x20 10, rowL .PC_CNT 0x8000c 0x20 10,
  rowL .PP_FEED 0x80200, rowL .PP_FEEDCTL 0x80204, rowL .PST_CORE 0x20020, rowL .PST_CUSE 0x20024,
  rowL .PST_EXT 0x20028, rowL .PST_LEASE 0x20048 4 8 0 1 2, rowL .PST_U2LEASE 0x20068,
  rowL .PST_GRANT 0x20080 0x4 9, rowL .KEY_CMD 0x60000, rowL .KEY_STAT 0x60004, rowL .KEY_VAULT 0x60010,
  rowL .KEY_TAMP 0x60014, rowL .KEY_BLOB 0x60018, rowL .KEY_ZTAG 0x6001c, rowL .KEY_SLOT 0x60100 0x4 32,
  rowL .KEY_TAG 0x60180 0x4 32, rowL .KEY_DATA 0x60200 0 1 4 32, rowL .KEY_RESP 0x60280 0 1 4 8,
  rowL .PST_AVS 0x200c0, rowL .PST_THERM 0x200c4, rowL .CFG_SERIAL 0x40004, rowL .CFG_DIGEST 0x40010 0x4 12,
  rowL .CFG_PERMIT 0x40054, rowL .SYS_EVMASK_IRQ 0x44, rowL .SYS_EVMASK_EP1 0x48, rowL .SYS_EVMASK_TUN 0x4c,
  rowL .FUSE_VAR 0x30010, rowL .FUSE_UID 0x30014 0x4 2, rowL .FUSE_RKH 0x30040 0x30 4 4 12,
  rowL .FUSE_RKREV 0x30100, rowL .FUSE_ARB 0x30104, rowL .FUSE_RLD 0x30108, rowL .FUSE_DBG 0x3010c]

/-- The address map, part 6 (R72 and the register tables). -/
def mapRows6 : List MapRow := [
  rowL .FUSE_KEYPOL 0x30110, rowL .FUSE_TAMPOL 0x30114, rowL .FUSE_PINMAP 0x30120 0x4 2,
  rowL .FUSE_PDO 0x30140 0x4 8, rowL .FUSE_TRIM 0x30180 0x4 32, rowL .FUSE_CRC 0x30200,
  rowP .CAN_PEER 0x700 0x10 4 3 4, rowP .CAN_THASH 0x800 0x40 4 12 4, rowP .GRV_CALA 0x1000 0x200 4 64,
  rowP .GRV_CALB 0x1100 0x200 4 64, rowL .EV_STAT 0x100ff0 0x10000 9, rowL .EV_STAT 0x300ff0 0x10000 4 0 1 9,
  rowL .EV_STAT 0x200ff0 0x1000 32 0 1 32, rowL .EV_STAT 0xa0ff0 0 1 0 1 13, rowL .EV_STAT 0xb0ff0 0 1 0 1 14,
  rowL .EV_STAT 0xc0ff0 0 1 0 1 15, rowL .EV_STAT 0x20ff0 0 1 0 1 16, rowL .EV_STAT 0x80ff0 0 1 0 1 17,
  rowL .EV_STAT 0x70ff0 0 1 0 1 18, rowL .EV_STAT 0x90ff0 0 1 0 1 19, rowL .EV_STAT 0x50ff0 0 1 0 1 20,
  rowL .EV_STAT 0x60ff0 0 1 0 1 21, rowL .EV_STAT 0x40ff0 0 1 0 1 22, rowL .EV_STAT 0x30ff0 0 1 0 1 23,
  rowL .EV_STAT 0x10ff0 0 1 0 1 24, rowL .EV_STAT 0xff0 0 1 0 1 25, rowL .EV_EN 0x100ff4 0x10000 9,
  rowL .EV_EN 0x300ff4 0x10000 4 0 1 9, rowL .EV_EN 0x200ff4 0x1000 32 0 1 32, rowL .EV_EN 0xa0ff4 0 1 0 1 13,
  rowL .EV_EN 0xb0ff4 0 1 0 1 14, rowL .EV_EN 0xc0ff4 0 1 0 1 15, rowL .EV_EN 0x20ff4 0 1 0 1 16,
  rowL .EV_EN 0x80ff4 0 1 0 1 17, rowL .EV_EN 0x70ff4 0 1 0 1 18, rowL .EV_EN 0x90ff4 0 1 0 1 19,
  rowL .EV_EN 0x50ff4 0 1 0 1 20, rowL .EV_EN 0x60ff4 0 1 0 1 21, rowL .EV_EN 0x40ff4 0 1 0 1 22,
  rowL .EV_EN 0x30ff4 0 1 0 1 23]

/-- The address map, part 7 (R72 and the register tables). -/
def mapRows7 : List MapRow := [
  rowL .EV_EN 0x10ff4 0 1 0 1 24, rowL .EV_EN 0xff4 0 1 0 1 25]

/-- The whole address map. -/
def mapRows : List MapRow := mapRows1 ++ mapRows2 ++ mapRows3 ++ mapRows4 ++ mapRows5 ++ mapRows6 ++ mapRows7

/-- Whether a stride of an index reaches the remainder `d`: the index and what is left. A stride of 0 is no index. -/
def MapRow.split (d s c : Nat) : Option (Nat × Nat) :=
  if s = 0 then some (0, d) else if d / s < c then some (d / s, d % s) else none

/-- The indices at which a row holds the word address `a`. -/
def MapRow.at? (r : MapRow) (a : Nat) : Option (Nat × Nat) :=
  if a < r.base then none else
  match MapRow.split (a - r.base) r.s1 r.c1 with
  | none => none
  | some (x, d) =>
    match MapRow.split d r.s2 r.c2 with
    | none => none
    | some (y, e) =>
      match MapRow.split e r.s3 r.c3 with
      | none => none
      | some (z, rest) =>
        if rest ≠ 0 then none
        else if r.port then (portOf x y).map fun p => (p, z) else some (x + r.i0, y)

/-- The register at a word address, with its indices (R72, R73); none where the map defines no register. -/
def decodeAddr (a : Nat) : Option (RegId × Nat × Nat) :=
  mapRows.findSome? fun r => (r.at? a).map fun x => (r.id, x.1, x.2)

/-- Whether each path has its own instance of the register (R75, R496). -/
def perPath : RegId → Bool
  | .SYS_DWADDR => true | .SYS_DWCTL => true | .SYS_DWDATA => true
  | .KEY_CMD => true | .KEY_STAT => true | .KEY_DATA => true | .KEY_RESP => true
  | _ => false

/-- The register that path number `p` reaches at a word address. A per-path register's first index is the path. -/
def decodeFor (p a : Nat) : Option (RegId × Nat × Nat) :=
  match decodeAddr a with
  | none => none
  | some (r, i, j) => if perPath r then some (r, p, j) else some (r, i, j)

/-- The register and field that a bit address belongs to. -/
def decodeKey (k : Nat) : Option (RegId × Nat × Nat × Fld) :=
  let byte := k / 32 * 4
  match decodeFor (byte / 2 ^ 32) (byte % 2 ^ 32) with
  | none => none
  | some (r, i, j) => ((regFields r i j).find? fun f => f.key = k).map fun f => (r, i, j, f)

end Sys2Proof.Machine
end

