-- ==== Sys2Proof/Machine/State.lean ====
section
/-! DEFINITION. The state of the block: plain data. The registers stand in one sparse map (`regs`, keyed by field);
everything the spec gives the machine beside its registers stands in the structures below. `Fault` and `Refusal`
are the two ways in which a step does not answer a next state. -/

namespace Sys2Proof.Machine

/-- What stops the block with a fault. The spec gives no command that stops the machine, so none is raised; an
unused name is safe. -/
inductive Fault where
  /-- Raised by nothing. Safe. -/
  | halted
deriving DecidableEq, Repr

/-- Why a command has no meaning here. -/
inductive Refusal where
  /-- A command that has no meaning yet: answered by Dispatch only. Safe. -/
  | notModelled (mnemonic : String)
deriving DecidableEq, Repr

/-- What the hub puts on one of its interfaces (a record only: nothing reads it back; log entry 3). -/
inductive Out where
  /-- A word returned to a path's reader. -/
  | readData (path : Path) (w : Word)
  /-- Bytes returned on a path, or driven by the P43 target. -/
  | readBytes (path : Path) (data : Bytes)
  /-- A STALL of EP0. -/
  | stall
  /-- A NACK of the I2C target. -/
  | nack
  /-- A NAK of EP1. -/
  | ep1Nak
  /-- An event report on EP1. -/
  | ep1Report (data : Bytes)
  /-- A management message to the upstream partner of a crown port, as the agent hands it to the fabric at F19. -/
  | mgmt (crown : Crown) (op tag status count : Nat) (addr : Word) (data : Words)
  /-- A management message delivered to the hub's own agent, or forwarded to the host (R70). -/
  | relay (toAgent : Bool) (op tag status count : Nat) (addr : Word) (data : Words)
  /-- A message of the hub's own agent to the child on a cascade port, as it hands it to the fabric at F19 (R70). -/
  | toChild (port : Nat) (op tag count : Nat) (addr : Word) (data : Words)
  /-- A segment handed to a port's link. -/
  | segment (port : Nat) (hdr : BitVec 64) (payload : Bytes)
  /-- A Canopy control message sent on a port: its name and its fields. -/
  | can (port : Nat) (msg : String) (args : List Nat)
  /-- A protocol unit (packet, frame, completion) sent on a port. -/
  | unit (port : Nat) (what : String) (data : Bytes)
  /-- A line scanned out by a pipe. -/
  | line (pipe : Nat) (n : Nat) (what : String) (data : Bytes)
  /-- A pin driven by the hub. -/
  | pin (name : String) (n : Nat) (level : Bool)
  /-- A Power Delivery message or line reset on a port. -/
  | pd (port : Nat) (msg : String) (args : List Nat)
  /-- Anything else the hub signals. -/
  | note (what : String) (args : List Nat)
deriving DecidableEq, Repr

/-- One section of a loaded image: TYPE, INST and plaintext (R34, R35). -/
structure Sec where
  ty : Nat
  inst : Nat
  data : Bytes
deriving DecidableEq, Repr

/-- A verified image as the image store holds it (R33 to R36): the header fields that are read later and the sections. -/
structure Image where
  header : Bytes
  svn : Nat
  serial : Nat
  enc : Bool
  digest : Bytes
  secs : List Sec
deriving DecidableEq, Repr

/-- What the loader is doing (R47, R50, R53). -/
inductive Loading where
  | idle
  /-- Streaming a copy of a load; whether the other candidate is left to try, and whether this is it. -/
  | streaming (copyB : Bool) (other : Bool) (second : Bool)
  /-- Applying the image to the groves. -/
  | configuring
deriving DecidableEq, Repr

/-- A slice reload in progress (R55 to R58): before its commit, or, after a structural commit, until the changed
ports are set up. -/
structure Reload where
  grove : Nat
  copyB : Bool
  committed : Bool
  ports : List Nat
deriving DecidableEq, Repr

/-- A flash erase or program in progress (R78, R80). -/
structure FlashOp where
  erase : Bool
  off : Nat
  data : Bytes
  /-- The management message that it answers when it is done: crown port, OP, TAG and ADDR (R81). -/
  reply : Option (Crown × Nat × Nat × Word) := none
deriving DecidableEq, Repr

/-- The event output of EP1 or of a management tunnel (R90, R91). -/
structure Report where
  due : Bool := false
  seq : Nat := 0
deriving DecidableEq, Repr

/-- An armed burst of a data window: the words that remain, and the STEP and DIR it was armed with (R75, R77). -/
structure Burst where
  left : Nat
  step : Nat
  wr : Bool
deriving DecidableEq, Repr

/-- State of the management paths (R74 to R91) beside their registers. -/
structure Mgmt where
  i2cAddr : Nat := 0
  /-- Armed bursts, by path number. -/
  bursts : NMap Burst := []
  /-- Requests that TUN0 and TUN1 hold while FWRDY is 0, or behind a flash operation of their own, oldest first (R82, R397). -/
  held : NMap (List Instr) := []
  /-- Management messages that the fabric has handed to the agent at F19: the tunnel and the payload, oldest first (R127). -/
  inbox : List (Nat × Bytes) := []
  /-- The TAG of the next own request to a child, less 0xC0 (R70). -/
  tagNext : Nat := 0
  ep1 : Report := {}
  tun0 : Report := {}
  tun1 : Report := {}
  ep1Sent : Option Bytes := none
  flashStat : Nat := 0
  flashOp : Option FlashOp := none
  /-- EP1's silences in succession, three of which make the host halt it (R341); the management function signals remote wake (R348). -/
  ep1Silent : Nat := 0
  wake : Bool := false
  flashSize : Nat := 0x1000000
deriving DecidableEq, Repr

/-- The image loader and the image store (R47 to R62). -/
structure Loader where
  doing : Loading := .idle
  image : Option Image := none
  reload : Option Reload := none
  /-- CFG_CTL.CHECK runs: whether a flash read error has been met in copy A and in copy B (R66). -/
  check : Option (Bool × Bool) := none
  /-- A read error in the header or signature block of copy A and of copy B, before the load (R47). -/
  headA : Bool := false
  headB : Bool := false
  /-- The lock of R58 holds for the reload's grove. -/
  lock : Option Nat := none
  /-- The image's fields of power-on-reset reach have been given since the last POR (R10). -/
  porApplied : Bool := false
deriving DecidableEq, Repr

/-- One tunnel of a solve's result: its number, kind, class, direction, request key, ports, mode step, allotment,
and whether it is admitted (with the cause where not). -/
structure TunPlan where
  tun : Nat
  kind : Nat
  cls : Nat
  up : Bool
  port : Nat
  index : Nat
  home : Nat
  crown : Nat
  pipe : Option Nat
  casc : Bool
  child : Nat
  mode : Nat
  allot : Nat
  admitted : Bool
  cause : Nat
deriving DecidableEq, Repr

/-- A committed solve whose swap is armed (R115 to R117): its plan, each entry's STATE and GEN before it, how many requests it
refused and degraded, the core grants by grove (R476), the pipes' grant leads (R192) and the hubs it counts (R245). -/
structure Commit where
  plan : List TunPlan
  prev : NMap (Nat × Nat)
  refused : Nat
  degraded : Nat
  prevRefused : List Nat
  grants : NMap Nat
  leads : NMap Nat
  hubs : Nat
deriving DecidableEq, Repr

/-- The settle timer and the solver (R22 to R25, R113 to R117). -/
structure Solver where
  deadline : Nat := 0
  att : NMap Partner := []
  sample : Option (NMap Partner) := none
  commit : Option Commit := none
  /-- The plan of the last swap that took effect. -/
  active : List TunPlan := []
  /-- The tunnels whose teardown ends in a structural event (R95). -/
  moved : List Nat := []
  /-- The tunnels that the last committed solve refused (R125). -/
  lastRefused : List Nat := []
  /-- Lead frame start reached at least 2 lines after the commit is due: the commit's clock time (R116). -/
  committedAt : Nat := 0
  /-- Whether a first table swap has taken the hub into Stand (R408). -/
  stood : Bool := false
  /-- An attach or detach event came in the cycle in which the running timer was due: the expiry of that cycle is void (R24). -/
  tied : Bool := false
  /-- The clock time at which the sample was taken, where the timer was due in that very cycle (R24). -/
  expired : Option Nat := none
deriving DecidableEq, Repr

/-- A segment: the header fields of R101 but for the HEC, which is computed, and the valid payload bytes. -/
structure Seg where
  tun : Nat
  cls : Nat
  gen : Nat
  first : Bool
  last : Bool
  col : Nat
  seq : Nat
  line : Nat
  payload : Bytes
deriving DecidableEq, Repr

/-- A segment in a bulk queue of an intermediate, and whether it came from F18 (R156). -/
structure QSeg where
  seg : Seg
  spilt : Bool
deriving DecidableEq, Repr

/-- A page of a spill queue (R159): its number in the page area, how many of its 32 places have been written, and the segments
not yet read back, oldest first. -/
structure SPage where
  page : Nat
  wrote : Nat
  segs : List Seg
deriving DecidableEq, Repr

/-- One intermediate, buffer partition j (R129, R154 to R158). Bulk queues are keyed 2 * output + (class - 2). -/
structure Inter where
  express : NMap (List Seg) := []
  bulk : NMap (List QSeg) := []
  spillWrite : List QSeg := []
  spilled : List Nat := []
  /-- The ACCEPT mask given to each input at its last meeting: its reservations (R155). -/
  mask : NMap Nat := []
  /-- Pending RETURNs, oldest first: destination, tunnel, OUTSEQ (R139). -/
  rets : List (Nat × Nat × Nat) := []
  /-- Forwarded segments retained until the checkpoint after their egress, with their output (R388). -/
  kept : List (Nat × Seg) := []
deriving DecidableEq, Repr

/-- A parked segment: in the reorder area or in the store (R140). -/
structure Parked where
  seg : Seg
  area : Bool
deriving DecidableEq, Repr

/-- One output position: what is parked, and the tunnels whose RETURN waits to be sent (R140, R141). -/
structure OutPos where
  parked : List Parked := []
  retq : List Nat := []
deriving DecidableEq, Repr

/-- Per-tunnel flow state: shaper credit and meter buckets in 1/8,192,000 byte with the times they were brought up to
date (R193, R195), the deficits at egress (R187) and at the grove arbiter (R194), WINLO (R141), OUTSEQ at the last RETURN, the SEQ
expected where no register counts it (F19 on the first pass of a time tunnel; the M return path, R127), the SEQ of the next
segment that enters at F19 (R130), and the reserved ingress places (R164). -/
structure Flow where
  credit : Int := 0
  creditAt : Nat := 0
  tc : Nat := 0
  tp : Nat := 0
  meterAt : Nat := 0
  deficit : Nat := 0
  inDef : Nat := 0
  winlo : Nat := 0
  lastRet : Nat := 0
  mid : Nat := 0
  second : Nat := 0
  places : Nat := 0
deriving DecidableEq, Repr

/-- Egress and port-down state of a port: the tunnel of a unit in cut-through and what has been sent of it, backoff, paused
classes or priorities, the stall timer's start, the round-robin pointers by class, the retrain wait in units of 100 ms and
whether it runs (R143, R144, R168, R187, R527). -/
structure Egress where
  /-- The tunnel whose unit at the head of its queue met R143 when its F segment left the resequencer. -/
  ctMark : Option Nat := none
  ct : Option Nat := none
  ctSent : List Seg := []
  backoff : Bool := false
  /-- Paused priorities (8: the whole port) with the time at which each pause ends. -/
  paused : NMap Nat := []
  stallAt : Nat := 0
  rr : NMap Nat := []
  wait : Nat := 1
  waiting : Bool := false
  /-- HEAD and ICL as of the last table swap (R177). -/
  headroom : Nat := 0x30
  icl : Nat := 0x40
  /-- What the hub withholds from the partner now (R166): a PFC priority 0 to 7, 8 the whole port by PAUSE, 16 + n the link credit of tunnel n. -/
  pausing : List Nat := []
  /-- What the keeper's log held at the takeover and discards as the intermediates send it again: TUN and SEQ (R266). -/
  redo : List (Nat × Nat) := []
  /-- The keeper's transmit log, oldest first: TUN, SEQ and LUN of what was sent since the last completed checkpoint; how
  many of its entries the capture under way covers; and covered ones whose RACK is still owed (R233, R266). -/
  log : List (Nat × Nat × Nat) := []
  mark : Nat := 0
  owed : List (Nat × Nat × Nat) := []
deriving DecidableEq, Repr

/-- The fabric, its stores and the memory agent's spill queues. -/
structure Fab where
  /-- Ingress stores by tunnel; and what enters at F19: the second pass of a time tunnel, and as 256 + n what the management agent
  sends on tunnel n (R127). -/
  ingress : NMap (List Seg) := []
  second : NMap (List Seg) := []
  inter : NMap Inter := []
  pos : NMap OutPos := []
  flow : NMap Flow := []
  /-- Transmit queues by tunnel. -/
  txq : NMap (List Seg) := []
  eg : NMap Egress := []
  /-- The ACCEPT mask that input i last received from intermediate j, keyed 20 * i + j. -/
  seen : NMap Nat := []
  /-- Round-robin pointers of the grove arbiters: among blocks keyed 8 * position + class, among the tunnels of a block 160 + 8 * block +
  class; and the blocks' deficits keyed 8 * block + class (R194). A block is a port; 20 and 21 are the management and the time agent. -/
  rr : NMap Nat := []
  bdef : NMap Nat := []
  /-- Spill queues keyed (20 * partition + output) * 2 + (class - 2), each a chain of pages, and the slot each was last served in. -/
  spill : NMap (List SPage) := []
  served : NMap Nat := []
  /-- Void segments still stored, keyed 4 * tunnel + GEN (R169). -/
  voids : NMap Nat := []
  /-- Segments that egress has handed to the display pipes, oldest first, until the pipes have taken them (R143). -/
  handed : List Seg := []
  /-- FAB_BULK as it took effect at the last table swap (R173). -/
  bulkG : Nat := 256
  bulkCap : Nat := 1024
deriving DecidableEq, Repr

/-- A time-mode gate list as adopted at a swap (R199, R200). -/
structure Qbv where
  base : Nat := 0
  cycle : Nat := 0
  tb : Nat := 0
  /-- The extended time from which the regular series runs. -/
  start : Nat := 0
  /-- The extended time of the swap, while the first cycle of the list runs from there. -/
  began : Option Nat := none
  /-- The position at which the gates are held: while the base stands still, and after a restart until the series begins. -/
  held : Nat := 0
deriving DecidableEq, Repr

/-- A change of a time base's INC, RUN or value (R361): when it was made, and the base's extended value, INC and RUN before it. -/
structure TbMark where
  instant : Nat
  value : Nat
  inc : Nat
  run : Bool
deriving DecidableEq, Repr

/-- The lead raster and the calendars beside their registers (R178 to R201). -/
structure Sched where
  /-- The last 16 changes of each time base, the latest first (R361). -/
  marks : NMap (List TbMark) := []
  /-- The lead position in 2^-32 line. -/
  lpos : Nat := 0
  /-- The nominal line period in ps, as adopted. -/
  lineps : Nat := 0
  /-- Consecutive frames of another TOTAL, of a period more than 2 % off (R182), and of a phase error below 1/256 line (R180). -/
  offTotal : Nat := 0
  offPeriod : Nat := 0
  inPhase : Nat := 0
  /-- The line period in ps that the slew works towards; 0 for none (R180). -/
  target : Nat := 0
  /-- A geometry change that no solve has sampled yet; the old geometry is held over until a swap; the geometry that the solve sampled. -/
  changing : Bool := false
  held : Bool := false
  sampled : Option (Nat × Nat × Nat) := none
  /-- The last edge of each TE input and, as 4, of GENLOCK: its clock time; and the measured period in ns (R178). -/
  edges : NMap Nat := []
  periods : NMap Nat := []
  /-- The grant lead of each pipe, as of the last swap (R192). -/
  leads : NMap Nat := []
  /-- OVH, TBSEL and QBV values written since the last swap are pending in the registers; the active ones are here. -/
  ovh : NMap Nat := []
  skipped : NMap Bool := []
  qbv : NMap Qbv := []
deriving DecidableEq, Repr

/-- Canopy credit of one tunnel (R223, R224): the limit the partner last gave and the segments sent; the limit given to
the partner, the segments received, and the limit in the last CREDIT sent. -/
structure Credit where
  limit : Nat := 0
  sent : Nat := 0
  given : Nat := 0
  received : Nat := 0
  told : Nat := 0
deriving DecidableEq, Repr

/-- A unit sent on a Canopy link and not yet released: its LUN, a segment or (none) a tag, its epoch, and
the record it belongs to with its place there (R228, R233). -/
structure LUnit where
  lun : Nat
  seg : Option Seg
  tag : Nat
  epoch : Nat
  recno : Nat
  place : Nat
deriving DecidableEq, Repr

/-- A link-time exchange: its SEQ and the times t1 to t4 held so far, in 1/256 ns (R369, R370). -/
structure Xch where
  seq : Nat
  times : NMap Nat
deriving DecidableEq, Repr

/-- A unit in a hold buffer: its arrival number, its bytes, and whether a capture has passed since it was admitted (R265). -/
structure HoldUnit where
  number : Nat
  bytes : Nat
  captured : Bool
deriving DecidableEq, Repr

/-- What a checkpoint holds of a tunnel whose ingress lies in the grove (R387): INSEQ and SEGIN, WINLO, shaper credit and meter buckets, and
the segments received on a Canopy link. -/
structure InCk where
  inseq : Nat := 0
  segin : Nat := 0
  winlo : Nat := 0
  credit : Int := 0
  tc : Nat := 0
  tp : Nat := 0
  received : Nat := 0
deriving DecidableEq, Repr

/-- What a checkpoint holds of a tunnel whose egress lies in the grove (R387): the SEQ after the last one handed to the link keeper, SEGOUT, the
egress deficit, OUTSEQ at the last RETURN, and LIMIT and SENT. -/
structure OutCk where
  next : Nat := 0
  segout : Nat := 0
  deficit : Nat := 0
  lastRet : Nat := 0
  limit : Nat := 0
  sent : Nat := 0
deriving DecidableEq, Repr

/-- What a checkpoint holds of a port (R387): the expected LUN and the open receive record with its epoch, and the pause state in both directions. -/
structure PortCk where
  lun : Nat := 0
  segs : Nat := 0
  record : Bytes := []
  recno : Nat := 0
  epoch : Nat := 0
  paused : NMap Nat := []
  pausing : List Nat := []
deriving DecidableEq, Repr

/-- A grove's checkpoint (R387): its tunnels by ingress and by egress (256 + n: the M return path), what its reorder stores hold (TUN, SEQ), and
its ports. -/
structure Ckpt where
  ins : NMap InCk := []
  outs : NMap OutCk := []
  parked : List (Nat × Nat) := []
  ports : NMap PortCk := []
deriving DecidableEq, Repr

/-- A Canopy-capable port beside its registers. `entered` is the mode entered at attach: 0 none, 1 Canopy, 2 USB4,
3 DisplayPort alt mode, 4 USB 3.2 (R39). -/
structure Can where
  entered : Nat := 0
  /-- The link failed until the next detach (R241), and the modes withdrawn until then. -/
  failed : Bool := false
  withdrawn : Nat := 0
  /-- The modes that the partner supports, as discovery finds them (R39). -/
  supports : Nat := 0
  /-- The plug is flipped: the orientation multiplexer holds until detach (R253). -/
  flip : Bool := false
  /-- A retrain asked for by RTRN waits for the crossbar's switch. -/
  rtrn : Bool := false
  /-- Single-cell mode: 0 none, 1 the lower cell survives, 2 the higher (R219). -/
  single : Nat := 0
  /-- The exchange: the upstream partner's preferred mode, its CAPS parts and KSHARE words (R222, R236). -/
  pref : Nat := 0
  caps : NMap Nat := []
  /-- The CAPS parts that the hub sends in this training, and the mode it prefers (R218, R236, R246). -/
  own : List Nat := []
  wants : Nat := 0
  share : NMap Nat := []
  /-- The ephemeral private key and the PRK of the training (R236). -/
  priv : Bytes := []
  prk : Bytes := []
  /-- The partner's VERIFY has checked, and the pair that turned is still training (R240). -/
  checked : Bool := false
  /-- The LUN of the next unit to send, of the oldest unit not released, and of the next unit expected (R228 to R230). -/
  lunTx : Nat := 0
  lunOld : Nat := 0
  lunRx : Nat := 0
  retry : List LUnit := []
  /-- An error stands: units are discarded until the RESUME that names the expected LUN (R229). -/
  discarding : Bool := false
  /-- The open transmit and receive records: number of segments, plaintext and RECNO (R234, R235). -/
  txSegs : Nat := 0
  txRec : Bytes := []
  txRecno : Nat := 0
  rxSegs : Nat := 0
  rxRec : Bytes := []
  rxRecno : Nat := 0
  /-- Traffic secrets of the current epochs, and the old ones kept for replays with the unit L of their switch (R237). -/
  secTx : Bytes := []
  secRx : Bytes := []
  oldTx : Option (Nat × Bytes) := none
  oldRx : Option (Nat × Bytes) := none
  /-- When the transmit epoch began (R237). -/
  epochAt : Nat := 0
  /-- A transmit key update announced for unit L, whether it is acknowledged, and a receive update due at unit L. -/
  upd : Option Nat := none
  updAck : Bool := false
  updRx : Option (Nat × Bytes) := none
  /-- Link time: the exchange under way, the SEQ of the last TSYNC sent, results in tolerance and misses in succession. -/
  xch : Option Xch := none
  seqTx : Nat := 0
  good : Nat := 0
  missed : Nat := 0
deriving DecidableEq, Repr

/-- The shared engine of a lane cell (R252): the pairs (false A, true B) that wait for training and for adaptation and calibration, what it serves
now (whether for training, and the pair), since when, and the pair that each kind of service went to last. -/
structure Engine where
  train : List Bool := []
  control : List Bool := []
  grant : Option (Bool × Bool) := none
  since : Nat := 0
  lastTrain : Bool := true
  lastControl : Bool := true
deriving DecidableEq, Repr

/-- A lane cell beside its registers. -/
structure Lane where
  /-- The LOCK bit last received on pair A and on pair B; whether the cell has gone on to TS2 within a retrain. -/
  lockA : Bool := false
  lockB : Bool := false
  ts2 : Bool := false
  /-- The scrambler seeds received (R258). -/
  seedA : Nat := 0
  seedB : Nat := 0
  /-- The pair changed direction for the link's mode, receives now, and has not finished training (R240). -/
  turnA : Bool := false
  turnB : Bool := false
  /-- The shared engine (R252). -/
  engine : Engine := {}
  /-- Uncorrectable codewords in succession on a pair (R211). -/
  runA : Nat := 0
  runB : Nat := 0
  /-- FAULT lasts until the next cold reset (R395). -/
  faulted : Bool := false
  /-- The result of a SELFCHK, until the port's other cell has its own. -/
  checked : Option Bool := none
  /-- When the checker's time last began (R277). -/
  chkAt : Nat := 0
  /-- The hold buffer and its count of arrivals (R265). -/
  hold : List HoldUnit := []
  arrivals : Nat := 0
  /-- The hold buffer has no room: inflow is held (R264). -/
  stopped : Bool := false
deriving DecidableEq, Repr

/-- A unit that a fenced grove's hold buffer keeps until the replay (R265, R362): its tunnel, its pre-colour, and of a frame of a Time tunnel the
base and, for an event message, the instant of its capture. -/
structure LateUnit where
  tun : Nat
  pre : Nat
  time : Option (Nat × Option Nat)
  data : Bytes
deriving DecidableEq, Repr

/-- A port adapter beside its registers. -/
structure Adapter where
  /-- What the hold buffer delivers once the grove's cells are connected to GF (R267). -/
  late : List LateUnit := []
  ejected : Bool := false
  /-- Of a crown port on the Canopy link: by kind, the tunnel in which the host addresses the switch or the hub itself, chosen at a table swap (R311). -/
  own : NMap Nat := []
  /-- The slot's power is off after an eject (R318). -/
  slotOff : Bool := false
  /-- Attention Button Pressed; a press that waits for the link to be back in L0 (R318). -/
  attention : Bool := false
  pressDue : Bool := false
  /-- Non-posted requests outstanding to the port, oldest first (R319), and DPC triggered on it. -/
  outstanding : List Bytes := []
  dpc : Bool := false
  /-- Link-downs in succession of the standard's own recovery (R261). -/
  downs : Nat := 0
  /-- The output link could not carry its stream (R313). -/
  noStep0 : Bool := false
  /-- ADP_ETHMAP, UNTAG and MAXFRM as of the last table swap (R321, R322). -/
  ethmap : Nat := 0
  untag : Nat := 0
  maxfrm : Nat := 1522
  /-- At a crown port (R310): what the host has written into the PCIe switch's configuration space, by 1024 * device + word, and the depth of the
  Enhanced SuperSpeed hub. -/
  cfg : NMap Nat := []
  depth : Nat := 0
deriving DecidableEq, Repr

/-- The MST branch device of a USB4 crown link (R287): the sideband request that is being written, the replies that wait to be read, the pipe and
PBN of each payload id, and the output ports whose PHY is powered down. -/
structure Branch where
  req : Bytes := []
  replies : List Bytes := []
  payloads : NMap (Nat × Nat) := []
  phyOff : List Nat := []
deriving DecidableEq, Repr

/-- A display pipe beside its registers (R281 to R303): adopted attributes; the last attributes seen; attributes waiting
for adoption, and whether their swap has come; whether the tunnel is newly ACTIVE; the line buffer; the line last decided
and whether it comes from L0; the attributes under which H and W are written, the lines of W written and its last line;
the latched layer registers; a TE edge seen in blanking; when a line was last scanned from L0; notices. -/
structure PipeSt where
  attrs : Option Bytes := none
  seen : Option Bytes := none
  next : Option Bytes := none
  armed : Bool := false
  fresh : Bool := true
  lines : NMap Bytes := []
  decided : Option (Nat × Bool) := none
  hAttrs : Option Bytes := none
  wAttrs : Option Bytes := none
  wCount : Nat := 0
  wLast : Nat := 0
  latched : List Nat := []
  teSeen : Bool := false
  extended : Nat := 0
  liveAt : Nat := 0
  unsupp : Bool := false
  reducedUntil : Nat := 0
  shown : Nat := 0
  /-- The latest grant since the tunnel became ACTIVE, as FRM and LINE, and the active lines that grants have covered and whose pixel unit has
  not come (R225, R226, R283). -/
  grant : Option (Nat × Nat) := none
  due : List Nat := []
  /-- The stream unit that its segments are building up (R143, R283). -/
  frag : Bytes := []
  /-- The address of the native DPCD read that has been relayed to the sink and is not answered yet (R314). -/
  aux : Option Nat := none
  /-- A sideband request waits for the sink's answer: its identifier (R287); and the branch device, on the adapter of the lowest routed pipe. -/
  remote : Option Nat := none
  branch : Branch := {}
  /-- How far the pipe steers its PIX clock in push mode, in millionths (R287). -/
  steer : Int := 0
deriving DecidableEq, Repr

/-- Start and reset (R403 to R420): the sources that stay asserted; the reach in effect (0 none, 1 warm, 2 cold, 3 POR); how
many domains of the order of R419 are released (AON 1, KEY 2, USB 3, SYS 4, TIME 5, MEM 6, FAB 7, G0 8 to G7 15, GF 16,
PIX 17, LANE 18); a fuse load under way; REF lock; the power gate open; CORE_EN and CORE_PG; LPDDR trained; the clock time from which RST_BOOT counts;
and what the hub puts on the 17 balls of R415, by the codes of R415 (unlisted: high impedance). -/
structure Boot where
  srcs : List ResetSrc := []
  reach : Nat := 0
  released : Nat := 1
  fusing : Bool := true
  refLock : Bool := false
  gate : Bool := false
  coreEn : Bool := true
  corePg : Bool := false
  trained : Bool := false
  t0 : Nat := 0
  pins : NMap Nat := []
  /-- The function bytes of the 28 configurable balls as PINS gave them, which AON keeps through Rest and Dormant (R438, R439, R512); none from a
  reset until the PINS section applies (R422). -/
  pinFns : List Nat := []
  /-- The I2CT_ASEL ball as sampled at POR (R83). -/
  asel : Bool := false
  /-- Causes of warm reach that wait for a fuse load to end (R411). -/
  later : List Nat := []
  /-- Groves whose self-test is due at this reset (R394). -/
  retest : List Nat := []
deriving DecidableEq, Repr

/-- An EVT pin: whether its output is active, and the lead frames since TIM_EVRAS was written (R374 to R376). -/
structure Evt where
  active : Bool := false
  frames : Nat := 0
deriving DecidableEq, Repr

/-- A tree port beside its register: the PORT_POWER feature, the change bits of its port status, a host-initiated and a
device-initiated resume under way, and what its translator's non-periodic buffers hold (R337 to R349). -/
structure TreeP where
  on : Bool := false
  cConn : Bool := false
  cEn : Bool := false
  cSusp : Bool := false
  cOc : Bool := false
  cRst : Bool := false
  resumeHost : Bool := false
  resumeDev : Bool := false
  tt : List Nat := []
deriving DecidableEq, Repr

/-- The USB 2.0 tree: the crown ports passed over (R328), EP1's data toggle (R342), and the tree ports. -/
structure Tree where
  passed : Nat := 0
  toggle : Bool := false
  ports : NMap TreeP := []
deriving DecidableEq, Repr

/-- A Type-C port beside its registers (R444 to R459): the partner speaks PD; the source objects offered, or received as sink;
the own request under way (0 none, 1 DR_Swap, 2 PR_Swap); the transition under way, by the new target in 20 mV and the
request that it serves; the loop holds at CC open; Hard Resets without a contract; the discharge FET; Rp
withdrawn; error recovery due when the channel closes again. -/
structure PdPort where
  pd : Bool := false
  vconnNeeded : Bool := false
  offer : Words := []
  own : Nat := 0
  moving : Option (Nat × Word) := none
  /-- TARGET in 0.5 mV. -/
  pos : Nat := 10000
  holding : Bool := false
  hards : Nat := 0
  discharge : Bool := false
  withdrawnRp : Bool := false
  erDue : Bool := false
  /-- The Rp termination is withdrawn or the port waits for VBUS to fall before it attaches again. -/
  waitVbus : Bool := false
  /-- A lower lease was offered and the sink has not yet come within it. -/
  overdrawn : Bool := false
  /-- A revoked lease waits for the transition in progress (R480). -/
  revokeDue : Bool := false
  /-- When the 30 ms after the hub's Accept end, before which TARGET does not move (R455). -/
  rampAt : Nat := 0
deriving DecidableEq, Repr

/-- The feeds and the steward (R471 to R481): presence; the dead time that runs, by what it follows (1, 2, 3: feed A, feed B,
a crown sink channel lost; 4: a planned return to A; 5: a move from a crown port to a feed); whether the firmware
has computed leases (R481); LPDDR in self-refresh with admission stopped (R473). -/
structure Power where
  present : NMap Bool := []
  dead : Option Nat := none
  leased : Bool := false
  stopped : Bool := false
  /-- Supplies that lie outside their operating range, and 256 for the junction (R523). -/
  outside : List Nat := []
  /-- The latest power-good: its channel, its clock time, and whether it released PWRWARN_N (R470). -/
  good : Option (Nat × Nat × Bool) := none
  /-- The clock time after that at which each channel latched (R468). -/
  latchedAt : NMap Nat := []
  /-- The shed table, with the supply that it is for (R478). -/
  shed : Option (Nat × NMap Nat) := none
deriving DecidableEq, Repr

/-- The key vault beside its registers (R489 to R504): the unmasked slot values, 64 bytes each; a zeroise since the last
release of KEY; the slot that is re-masked next; paths whose command waits; and a STORE whose programming runs, with its path
and record. -/
structure Vault where
  slots : NMap Bytes := []
  zeroised : Bool := false
  next : Nat := 0
  waiting : List Path := []
  storing : Option (Path × Bytes) := none
  /-- An alarm before KEY is released is answered at that release (R504). -/
  alarmDue : Bool := false
deriving DecidableEq, Repr

/-- A power-state request and a return (R432 to R437): the target; the participants that have not accepted, those that wait out
a deferral, and its sum in ms; wake sources asserted as level before AON is armed; the step of the return (1 regulator to 4 logic) and
the clock time of its wake; the ports that Doze took down, the groves that it gates, and when Doze began. -/
structure PsReq where
  target : Nat := 0
  waiting : List Nat := []
  deferring : List Nat := []
  deferSum : Nat := 0
  level : Nat := 0
  step : Nat := 0
  wakeAt : Nat := 0
  downed : List Nat := []
  gated : List Nat := []
  dozeAt : Nat := 0
deriving DecidableEq, Repr

/-- The fault sequencer beside its registers: reports of the last 50 microseconds (time, kind, unit, log entry), the start of
the takeover, what takes up the standby PLL (8: its own fault), REF in holdover, and a restart of the management engine under
way (R19, R385, R391, R396). -/
structure Faults where
  recent : List (Nat × Nat × Nat × Nat) := []
  start : Nat := 0
  pll : Option Nat := none
  refFailed : Bool := false
  restarting : Bool := false
deriving DecidableEq, Repr


/-- The state of the block. -/
structure State where
  /-- The commands that wait, first in, first out. -/
  pending : List Instr
  /-- The registers: a field's key to its value; a field not listed holds its reset value. -/
  regs : NMap Nat
  /-- TIME cycles (1 ns) since power-on. -/
  clock : Nat
  /-- The MODEL's own counter of free values; not the spec's. -/
  freeCtr : Nat
  /-- What the hub has sent, newest first. -/
  sent : List Out
  /-- The boot flash on P42 (R50, R528): an unlisted byte is erased. -/
  flash : NMap Byte
  /-- The external LPDDR 5X (R157, R289): an unlisted byte reads 0. -/
  dram : NMap Byte
  mg : Mgmt
  ld : Loader
  sv : Solver
  fb : Fab
  sc : Sched
  /-- Canopy credits by tunnel. -/
  cr : NMap Credit
  /-- Canopy ports, lane cells and adapters. -/
  cn : NMap Can
  lc : NMap Lane
  ad : NMap Adapter
  /-- Time bases: the running value in 2^-32 ns, modulo 2^64 (R354). -/
  tb : NMap Nat
  /-- The last complete checkpoint of each grove, and the capture being written (R386). -/
  ck : NMap Ckpt
  ckp : NMap Ckpt
  /-- What each time base adds in a TIME cycle, in 2^-32 ns; 1 ns where none is listed (R354, R355). -/
  incs : NMap Nat
  /-- Display pipes. -/
  pp : NMap PipeSt
  /-- Start and reset. -/
  bt : Boot
  /-- EVT pins. -/
  ev : NMap Evt
  /-- The USB 2.0 tree. -/
  ut : Tree
  /-- Type-C ports. -/
  pd : NMap PdPort
  /-- The feeds and the steward. -/
  pw : Power
  /-- The key vault. -/
  kv : Vault
  /-- The power-state request. -/
  ps : PsReq
  /-- The fault sequencer. -/
  ft : Faults
  /-- The fuse array by word offset (R413; log entry 6). -/
  otp : NMap Nat
deriving DecidableEq, Repr

/-- The machine right after a power-on reset has released AON: every register holds its reset value but RST_CAUSE, in which
the POR sets its own bit (R421), and the first fuse load runs (R410). -/
def State.reset : State :=
  { pending := [], regs := [(RST_CAUSE_POR.key, 1)], clock := 0, freeCtr := 0, sent := [], flash := [], dram := [], mg := {}, ld := {},
    sv := {}, fb := {}, sc := {}, cr := [], cn := [], lc := [],
    ad := [], tb := [], ck := [], ckp := [], incs := [], pp := [], bt := {}, ev := [], ut := {}, pd := [], pw := {}, kv := {}, ps := {}, ft := {}, otp := [(0x10, 1), (0x200, 0x1246BD48)]
  }

end Sys2Proof.Machine
end

