-- ==== Sys2Proof/Machine/Ops.lean ====
section
/-! DEFINITION. The named operations over the state: reading and writing register fields, event leaves and the
reports they make due, the summary registers, the variant's resources, and free values. -/

namespace Sys2Proof.Machine

/-- The value of a field: never wider than the field, in any state. -/
def State.rd (s : State) (f : Fld) : Nat := mget f.reset s.regs f.key % 2 ^ f.w

/-- Give a field a value, cut to its width. -/
def State.wr (s : State) (f : Fld) (v : Nat) : State :=
  { s with regs := mput f.reset s.regs f.key (v % 2 ^ f.w) }

/-- Whether a field is non-zero. -/
def State.on (s : State) (f : Fld) : Bool := s.rd f ≠ 0

/-- Write a one-bit field. -/
def State.setB (s : State) (f : Fld) (b : Bool) : State := s.wr f (b2n b)

/-- Count up, saturating at the field's greatest value. -/
def State.inc (s : State) (f : Fld) : State := s.wr f (satInc (2 ^ f.w - 1) (s.rd f))

/-- Count up modulo the field's width. -/
def State.incMod (s : State) (f : Fld) : State := s.wr f (s.rd f + 1)

/-- Write a list of fields in order. -/
def State.wrs (s : State) (l : List (Fld × Nat)) : State := l.foldl (fun t e => t.wr e.1 e.2) s

/-- Record what the hub sends. -/
def State.emit (s : State) (o : Out) : State := { s with sent := o :: s.sent }

/-- A fresh free value (log entry 4). -/
def State.free (s : State) : Nat × State := (Config.free s.freeCtr, { s with freeCtr := s.freeCtr + 1 })

/-- Apply an operation for each element of a list, in order. -/
def forAll {α : Type} (l : List α) (f : α → State → State) (s : State) : State := l.foldl (fun t x => f x t) s

/-- Apply an operation only where a condition holds. -/
def onlyIf (c : Bool) (f : State → State) (s : State) : State := if c then f s else s

/-! ### The variant (R2, R412) -/

/-- Whether the fuse load failed three times (R412). -/
def fuseFault (s : State) : Bool := s.on SYS_STAGE_FUSEFLT

/-- The variant whose resources the hub has: 1, 2 or 3 (R2). Without a valid fuse load, those of the TL9616 (R412). -/
def variant (s : State) : Nat :=
  match (if fuseFault s then 3 else bits (s.rd FUSE_VAR_V) 3 0) with
  | 1 => 1
  | 2 => 2
  | _ => 3

/-- Groves of the variant; 8 is GF (R2). -/
def grovePresent (v g : Nat) : Bool :=
  match v with
  | 1 => g < 9
  | 2 => [0, 1, 2, 4, 6, 8].contains g
  | _ => [0, 1, 4, 8].contains g

/-- Ports of the variant (R2). -/
def portPresent (v p : Nat) : Bool :=
  if p < 20 then grovePresent v (portGrove p)
  else if p < 40 then (match v with | 1 => true | 2 => p < 32 | _ => p < 22)
  else p < 48

/-- The number of display pipes (R2). -/
def pipeCount (v : Nat) : Nat := match v with | 1 => 4 | 2 => 3 | _ => 2

/-- The number of tunnels (R2). -/
def tunCount (v : Nat) : Nat := match v with | 1 => 256 | 2 => 128 | _ => 64

/-- Power channels PC0-PC9: PC4-PC9 serve P2-P7 (R2, R14). -/
def channelPresent (v n : Nat) : Bool := n < 4 || (n < 10 && portPresent v (n - 2))

/-- Whether the registers at a word address belong to an absent resource (R3). -/
def absentAddr (v a : Nat) : Bool :=
  if 0x100000 ≤ a ∧ a < 0x190000 then !grovePresent v ((a - 0x100000) / 0x10000)
  else if 0x200000 ≤ a ∧ a < 0x220000 then !grovePresent v (cellGrove ((a - 0x200000) / 0x1000))
  else if 0x300000 ≤ a ∧ a < 0x340000 then pipeCount v ≤ (a - 0x300000) / 0x10000
  else if 0x400000 ≤ a ∧ a < 0x404000 then tunCount v ≤ (a - 0x400000) / 0x40
  else if 0x80000 ≤ a ∧ a < 0x80140 then !channelPresent v ((a - 0x80000) / 0x20)
  else false

/-- The event unit of a word address's register range (R85). -/
def unitOfAddr (a : Nat) : Nat :=
  if 0x100000 ≤ a ∧ a < 0x190000 then (a - 0x100000) / 0x10000
  else if 0x200000 ≤ a ∧ a < 0x220000 then 32 + (a - 0x200000) / 0x1000
  else if 0x300000 ≤ a ∧ a < 0x340000 then 9 + (a - 0x300000) / 0x10000
  else match a / 0x10000 with
    | 1 => 24 | 2 => 16 | 3 => 23 | 4 => 22 | 5 => 20 | 6 => 21 | 7 => 18 | 8 => 17 | 9 => 19
    | 10 => 13 | 11 => 14 | 12 => 15 | 0x40 => 16 | _ => 25

/-! ### Events (R85 to R91) -/

/-- The grove that GF stands in for, if any (R399). -/
def gfFor (s : State) : Option Nat :=
  if s.rd RST_FLTSTAT_GFFOR = 15 then none else some (s.rd RST_FLTSTAT_GFFOR)

/-- A grove is fenced and GF does not stand in for it (R398). -/
def groveDark (s : State) (g : Nat) : Bool := bit (s.rd RST_FLTSTAT_FENCED) g && gfFor s ≠ some g

/-- The grove that does the work of grove `g`: GF once it stands in for it. -/
def servedBy (s : State) (g : Nat) : Nat := if gfFor s = some g then 8 else g

/-- The pending leaves of a unit (R85). -/
def pendingLeaves (s : State) (u : Nat) : Nat := s.rd (EVSTAT u) &&& s.rd (EVEN u)

/-- The lane cells that a grove's summary shows (R86). -/
def cellsOf (s : State) (g : Nat) : List Nat :=
  if g = 8 then (match gfFor s with | some h => [4 * h, 4 * h + 1, 4 * h + 2, 4 * h + 3] | none => [])
  else [4 * g, 4 * g + 1, 4 * g + 2, 4 * g + 3]

/-- GRV_EVSUM_g (R86). -/
def groveSummary (s : State) (g : Nat) : Nat :=
  b2n (pendingLeaves s g ≠ 0) * 16 +
    ((cellsOf s g).mapIdx fun k c => b2n (pendingLeaves s (32 + c) ≠ 0) * 2 ^ k).sum

/-- SYS_EVSUM (R87). -/
def chipSummary (s : State) : Nat :=
  ((List.range 26).map fun n =>
    b2n (if n < 9 then groveSummary s n ≠ 0 else pendingLeaves s n ≠ 0) * 2 ^ n).sum

/-- The summary bit of a unit: a lane cell's is its serving grove's. -/
def summaryBit (s : State) (u : Nat) : Nat := if 32 ≤ u then servedBy s (cellGrove (u - 32)) else u

/-- Whether a crown port faces a child hub by its image's DOWN bit: the PORT record's MODES bit 2 (R38). -/
def portRecord (s : State) (p : Nat) : Option Bytes :=
  match s.ld.image with
  | none => none
  | some im => (im.secs.filter fun x => x.ty = 1).findSome? fun x =>
      (records 8 4 x.data).find? fun r => byteAt r 0 = p

/-- MODES of a port's record, 0 without one (R37, R38). -/
def portModes (s : State) (p : Nat) : Nat := match portRecord s p with | none => 0 | some r => byteAt r 2

/-- DOWN of a crown port (R38). -/
def isDown (s : State) (p : Nat) : Bool := p < 2 && bit (portModes s p) 2

/-- A port's Canopy link is active (R247). -/
def canActive (s : State) (p : Nat) : Bool := s.rd (CAN_STAT_STATE p) = 4

/-- Whether a path is enabled in SYS_PATH (R71). -/
def pathEnabled (s : State) (p : Path) : Bool :=
  match p with
  | .p43 => s.on SYS_PATH_ENBRD
  | .usb => s.on SYS_PATH_ENUSB
  | .tun0 => s.on SYS_PATH_ENTUN0
  | .tun1 => s.on SYS_PATH_ENTUN1

/-- The management tunnel of a crown port. -/
def tunPath (c : Nat) : Path := if c = 0 then .tun0 else .tun1

/-- Whether a report can fall due on a management tunnel (R91); FWRDY only holds its sending back. -/
def tunCarries (s : State) (c : Nat) : Bool := canActive s c && !isDown s c && pathEnabled s (tunPath c)

/-- Make a report due on each output whose mask covers summary bit `n` (R91). The suspended management function signals remote wake where the host
has enabled it (R348). -/
def markDue (s : State) (n : Nat) : State :=
  let rises := bit (s.rd SYS_EVMASK_EP1_MASK) n && !s.mg.ep1.due
  { s with mg := { s.mg with
      wake := s.mg.wake || (rises && s.on USB_STAT_SUSP && s.on USB_MGT_RWEN)
      ep1 := { s.mg.ep1 with due := s.mg.ep1.due || bit (s.rd SYS_EVMASK_EP1_MASK) n }
      tun0 := { s.mg.tun0 with due := s.mg.tun0.due || (bit (s.rd SYS_EVMASK_TUN_MASK) n && tunCarries s 0) }
      tun1 := { s.mg.tun1 with due := s.mg.tun1.due || (bit (s.rd SYS_EVMASK_TUN_MASK) n && tunCarries s 1) } } }

/-- Set leaf `b` of unit `u`; a leaf that rises while enabled makes reports due (R85, R91). -/
def raise (u b : Nat) (s : State) : State :=
  let old := s.rd (EVSTAT u)
  if bit old b then s
  else
    let t := s.wr (EVSTAT u) (old + 2 ^ b)
    if bit (s.rd (EVEN u)) b then markDue t (summaryBit s u) else t

/-- The tunnel's report once it can carry reports again, or none while it cannot (R91). -/
def tunReportState (c : Nat) (s : State) : State :=
  let due := tunCarries s c && (chipSummary s &&& s.rd SYS_EVMASK_TUN_MASK) ≠ 0
  if c = 0 then { s with mg := { s.mg with tun0 := { s.mg.tun0 with due := due } } }
  else { s with mg := { s.mg with tun1 := { s.mg.tun1 with due := due } } }

/-- Leaves that are pending make a report due on a tunnel that can carry one again (R91). -/
def tunsDue (s : State) : State :=
  let now (c : Nat) : Bool := tunCarries s c && (chipSummary s &&& s.rd SYS_EVMASK_TUN_MASK) ≠ 0
  { s with mg := { s.mg with tun0 := { s.mg.tun0 with due := s.mg.tun0.due || now 0 }, tun1 := { s.mg.tun1 with due := s.mg.tun1.due || now 1 } } }

/-- Leaves that are pending once a reset releases make a report due on every output whose mask covers them (R91). -/
def reportsDue (s : State) : State :=
  let t := tunsDue s
  { t with mg := { t.mg with ep1 := { t.mg.ep1 with due := t.mg.ep1.due || (chipSummary t &&& t.rd SYS_EVMASK_EP1_MASK) ≠ 0 } } }

/-- Drop a tunnel's due report when it can no longer carry one (R91). -/
def tunReportDrop (c : Nat) (s : State) : State :=
  if tunCarries s c then s
  else if c = 0 then { s with mg := { s.mg with tun0 := { s.mg.tun0 with due := false } } }
  else { s with mg := { s.mg with tun1 := { s.mg.tun1 with due := false } } }

/-- The configuration-error leaf of the range that holds address `a` (R8); the tunnel table reports in
PST_EVSTAT.TTWRERR instead (R8, R123). -/
def cfgErr (a : Nat) (s : State) : State :=
  if 0x400000 ≤ a ∧ a < 0x404000 then raise 16 16 s else raise (unitOfAddr a) 31 s

/-- IRQ_N is driven low (R89). -/
def irqAsserted (s : State) : Bool :=
  if s.rd SYS_STAGE_STAGE = 0 then [17, 18, 23, 24].any fun u => pendingLeaves s u ≠ 0
  else (chipSummary s &&& s.rd SYS_EVMASK_IRQ_MASK) ≠ 0

/-! ### Envelope events (R46, R57, R58, R68) -/

/-- Record an envelope event: 31 ERR, 30 CLAMP, 29 LOCK. -/
def envEvent (f : Fld) (a : Nat) (s : State) : State :=
  raise 25 4 (((s.setB f true).inc CFG_ENVERR_COUNT).wr CFG_ENVADDR_ADDR a)

/-- The envelope of the field at `lo`, `w` wide, of the register at `a`: its MIN and MAX (R45). -/
def envelope (s : State) (a lo w : Nat) : Option (Nat × Nat) :=
  match s.ld.image with
  | none => none
  | some im => (im.secs.filter fun x => x.ty = 5).findSome? fun x =>
      (records 16 2048 x.data).findSome? fun r =>
        if leAt r 0 4 = a ∧ leAt r 4 4 = (2 ^ w - 1) * 2 ^ lo then some (leAt r 8 4, leAt r 12 4) else none

/-- Whether the debug lock is blown (R71, R271, R400, R412). -/
def debugLocked (s : State) : Bool := fuseFault s || bit (s.rd FUSE_DBG_V) 0

/-- A value lies within the field's envelope, if it has one (R46). -/
def envAllows (s : State) (a : Nat) (f : Fld) (v : Nat) : Bool :=
  match envelope s a f.pos f.w with
  | some (mn, mx) => mn ≤ v && v ≤ mx
  | none => true

/-- An effect that places `v` in a field: kept from happening, with the envelope event, where the envelope does not allow it (R46). -/
def ifAllowed (a : Nat) (f : Fld) (v : Nat) (effect : State → State) (s : State) : State :=
  if envAllows s a f v then effect s else envEvent CFG_ENVERR_ERR a s

/-- Write one RW field under R8 and R46: a reserved encoding leaves it and raises the configuration error; a value
outside the envelope leaves it and raises the envelope event. -/
def wrField (a : Nat) (f : Fld) (v : Nat) (s : State) : State :=
  if v < f.lo ∨ f.hi < v then cfgErr a s
  else ifAllowed a f v (fun t => t.wr f v) s

/-- A leaf becomes pending by its enable (R91). -/
def setEven (u v : Nat) (s : State) : State :=
  let t := s.wr (EVEN u) v
  if pendingLeaves t u &&& (2 ^ 32 - 1 - pendingLeaves s u) ≠ 0 then markDue t (summaryBit s u) else t

/-- A write to EVEN of a unit (R85, R91), within its envelope (R46): a leaf that becomes pending makes reports due. -/
def wrEven (u v : Nat) (s : State) : State :=
  let new := v &&& evDefined u
  ifAllowed ((EVEN u).key / 32 * 4) (EVEN u) new (setEven u new) s

/-- The effect of a written word on one field by its access code (R7). -/
def wrAcc (a v : Nat) (f : Fld) (s : State) : State :=
  let x := bits v (f.pos + f.w - 1) f.pos
  match f.acc with
  | .ro => s
  | .wo => s
  | .rw => wrField a f x s
  | .rwl => if debugLocked s then s else wrField a f x s
  | .w1c => s.wr f (s.rd f &&& (2 ^ f.w - 1 - x))
  | .w1s => s.wr f (s.rd f ||| x)

/-- A written word, field by field (R7). -/
def wrWord (a v : Nat) (fs : List Fld) (s : State) : State := forAll fs (wrAcc a v) s

/-- The word a list of fields reads as; write-only fields read 0 (R7). -/
def wordOf (s : State) (fs : List Fld) : Nat :=
  (fs.map fun f => if f.acc = .wo then 0 else s.rd f * 2 ^ f.pos).sum

/-- A time base counts: started, and not waiting for its start edge (R356). -/
def tbRunning (s : State) (n : Nat) : Bool := s.on (TIM_TBCTL_RUN n) && !s.on (TIM_TBCTL_ARMED n)

/-- Every internal monitor reads within the ratings (R30): supplies and temperature, and no clock stands failed — REF in holdover, or the
frozen vault's; a domain that the standby PLL has taken up has its clock again (DEDUCED, log entry 106). -/
def allRated (s : State) : Bool := s.pw.outside.isEmpty && !s.ft.refFailed && !s.on KEY_VAULT_FROZEN

/-- RATED falls: EXC, and EXCUR counts (R30). -/
def noteExcursion (s : State) : State := (s.wr SYS_GUARD_EXC 1).inc SYS_GUARD_EXCUR

/-- Milliseconds and microseconds in TIME cycles. -/
def ms (n : Nat) : Nat := 1000000 * n

/-! ### Credits -/

def State.credit (s : State) (n : Nat) : Credit := mget {} s.cr n
def State.setCredit (s : State) (n : Nat) (c : Credit) : State := { s with cr := mput {} s.cr n c }

end Sys2Proof.Machine
end

