-- ==== Sys2Proof/Machine/Image.lean ====
section
/-! DEFINITION. The layout image (chapter 02): its container, the sections and their records, verification (R47) and
the fields that the image gives the register map. -/

namespace Sys2Proof.Machine

/-- The first section of a TYPE and INST (R34). -/
def Image.sec (im : Image) (ty inst : Nat) : Option Bytes :=
  (im.secs.find? fun x => x.ty = ty ∧ x.inst = inst).map (·.data)

/-- A chip-scoped section's bytes, empty when absent. -/
def Image.chip (im : Image) (ty : Nat) : Bytes := (im.sec ty 0xFFFF).getD []

/-- The records of every section of a TYPE, each with its section's INST. -/
def Image.recs (im : Image) (ty n : Nat) : List (Nat × Bytes) :=
  (im.secs.filter fun x => x.ty = ty).flatMap fun x => (records n 2048 x.data).map fun r => (x.inst, r)

/-- PORT record of a port (R37). -/
def Image.port (im : Image) (p : Nat) : Option Bytes :=
  ((im.recs 1 8).find? fun r => byteAt r.2 0 = p).map (·.2)

/-- LANE record of a lane cell (R40). -/
def Image.lane (im : Image) (c : Nat) : Option Bytes :=
  ((im.recs 2 8).find? fun r => r.1 = c / 4 ∧ byteAt r.2 0 = c % 4).map (·.2)

/-- CAL record of a port (R43). -/
def Image.cal (im : Image) (p : Nat) : Option Bytes :=
  ((im.recs 4 264).find? fun r => byteAt r.2 0 = p).map (·.2)

/-- The entries of a CAL record (R43). -/
def calEntries (r : Bytes) : List Nat := (List.range (byteAt r 1)).map fun e => leAt r (8 + 4 * e) 4

/-- One tunnel template (R41) with its home base, if it has one (R98). -/
structure Tmpl where
  kind : Nat
  cls : Nat
  port : Nat
  index : Nat
  floor : Nat
  ceil : Nat
  burst : Nat
  cir : Nat
  pir : Nat
  cbs : Nat
  pbs : Nat
  caware : Nat
deriving DecidableEq, Repr

/-- A TUNT record's fields (R41); class 0xFF takes the CLASS section's default (R42). -/
def tmplOf (im : Image) (r : Bytes) : Tmpl :=
  { kind := byteAt r 0
    cls := if byteAt r 1 = 0xFF then byteAt (im.chip 0x10) (byteAt r 0) else byteAt r 1
    port := byteAt r 2, index := byteAt r 3, floor := leAt r 4 2, ceil := leAt r 6 2, burst := leAt r 8 4
    cir := leAt r 12 2, pir := leAt r 14 2, cbs := leAt r 16 4, pbs := leAt r 20 4, caware := byteAt r 24 }

/-- Whether key (p, k, i) comes before (q, l, j) in canonical order (R93). -/
def keyLt (a b : Nat × Nat × Nat) : Bool :=
  a.1 < b.1 || (a.1 = b.1 && (a.2.1 < b.2.1 || (a.2.1 = b.2.1 && a.2.2 < b.2.2)))

/-- Insert by a key in canonical order. -/
def insertKey {α : Type} (key : α → Nat × Nat × Nat) (x : α) : List α → List α
  | [] => [x]
  | y :: t => if keyLt (key x) (key y) then x :: y :: t else y :: insertKey key x t

/-- Sort by canonical key (R93). -/
def sortKey {α : Type} (key : α → Nat × Nat × Nat) (l : List α) : List α := l.foldr (insertKey key) []

/-- The templates of an image in canonical order (R93, R98). -/
def Image.templates (im : Image) : List Tmpl :=
  sortKey (fun t => (t.port, t.kind, t.index)) ((im.recs 3 32).map fun r => tmplOf im r.2)

/-- Give home blocks in canonical order from TUN2 on: 2 numbers, or 32 for a cascade template; none once a block
would pass the variant's highest tunnel (R98). -/
def homesFrom (limit : Nat) : Nat → List Tmpl → List (Tmpl × Option Nat)
  | _, [] => []
  | base, t :: rest =>
    let n := if t.kind = 6 then 32 else 2
    if base + n ≤ limit then (t, some base) :: homesFrom limit (base + n) rest
    else (t, none) :: rest.map fun u => (u, none)

/-- Every template with its home block (R98). -/
def homes (s : State) : List (Tmpl × Option Nat) :=
  match s.ld.image with
  | none => []
  | some im => homesFrom (tunCount (variant s)) 2 (im.templates.filter fun t => t.kind ≠ 5)

/-! ### Port kinds and rates -/

/-- KIND of a port (R14, R37). -/
def portKind (p : Nat) : Nat := if p < 2 then 1 else if p < 8 then 2 else if p < 12 then 3 else 4

/-- Longest unit in bytes and payload rate in Mb/s of every mode that a port record allows, for R31 at load (R190). MAXRATE gives PCIe's
rate; Max_Payload_Size is taken as 512 bytes (R315). A branch port in alt mode hands its stream to a pipe, and with pin assignment D carries
USB 3.2 Gen 2x1 beside it. Which mode a partner will bring is not known at load, so each has to hold (DEDUCED, log entry 42). -/
def unitsAndRates (r : Bytes) : List (Nat × Nat) :=
  let m := byteAt r 2
  let w := byteAt r 3
  let when (b : Bool) (l : List (Nat × Nat)) : List (Nat × Nat) := if b then l else []
  match byteAt r 1 with
  | 1 => when (bit m 0) [(128, 153600)] ++ when (bit m 1) [(128, 38787)]
  | 2 => when (bit m 0) [(128, 153600)] ++ when (bit m 1) [(128, 38787)] ++ when (bit m 2) [(128, 307200), (1040, 9696)] ++
      when (bit m 3) [(1040, 19393)]
  | 3 => [(128, 307200)]
  | _ => match m with
    | 1 => [(532, w * (match byteAt r 4 with | 1 => 2000 | 2 => 4000 | 3 => 7877 | 4 => 15754 | _ => 31508))]
    | 2 => [(1522, 25000)]
    | 3 => [(1522, 10000)]
    | 4 => [(1522, 10000)]
    | 5 => [(1040, 9696)]
    | _ => [(128, 307200)]

/-- A port's byte time in 1/16 ps at a payload rate in Mb/s, rounded up (R190). -/
def byteTime (mbps : Nat) : Nat := ceilDiv (128 * 1000000) mbps

/-- A unit's transmit time in ns (R189). -/
def txTime (b ovh bt : Nat) : Nat := ceilDiv (ceilDiv ((b + ovh) * bt) 16) 1000

/-- A window open to C0 or C1 admits a lower class (R31). -/
def mixedWindow (e : Nat) : Bool := (bit e 27 && (bit e 28 || bit e 29 || bit e 30)) || (bit e 28 && (bit e 29 || bit e 30))

/-- R31 for a list of calendar entries on a port whose longest unit, overhead and byte time are given. -/
def calR31 (unit ovh bt : Nat) (es : List Nat) : Bool := txTime unit ovh bt ≤ 160 || es.all fun e => !mixedWindow e

/-- The start of a raster entry in 1/256 line (R185). -/
def calStart (e : Nat) : Nat := bits e 20 8 * 256 + bits e 7 0

/-- Strictly rising. -/
def rising : List Nat → Bool
  | a :: b :: t => a < b && rising (b :: t)
  | _ => true

/-- The rules of R186 for a raster calendar, but for R31. -/
def rasterOk (es : List Nat) : Bool :=
  (es.headD 0 % 2 ^ 21 = 0) && rising (es.map calStart) &&
  (es.dropLast.all fun e => !bit e 26) &&
  (es.all fun e => bits e 25 21 = 0 && (if bit e 26 then bits e 31 27 = 0 && calStart e ≠ 0 else bit e 31))

/-- The rules of R198 for a time-mode calendar, but for R31. -/
def timeOk (es : List Nat) : Bool := es.all fun e => bits e 26 24 = 0 && bits e 23 0 ≠ 0 && bit e 31

/-- A port of a grove has a personality: it is not absorbed and not unused (R16, R37). -/
def hasPersonality (r : Bytes) : Bool := byteAt r 1 ≠ 0 && byteAt r 2 ≠ 0

/-- A port that the running image gives a personality (R16). -/
def configured (s : State) (p : Nat) : Bool := match portRecord s p with | some r => hasPersonality r | none => false

/-! ### Content rules (step 10 of R47) -/

/-- Classes that a kind may take (R42); 7 is inherit. -/
def classAllowed (kind cls : Nat) : Bool :=
  match kind with
  | 0 => cls = 0
  | 1 => cls = 1 || cls = 2 || cls = 3
  | 2 => cls = 2 || cls = 3
  | 3 => cls = 1 || cls = 2 || cls = 3
  | 4 => cls = 0 || cls = 1
  | 5 => cls = 4
  | 6 => cls = 7
  | _ => false

/-- A PORT record's values (R37, R38). -/
def portRecOk (r : Bytes) : Bool :=
  let p := byteAt r 0
  let k := byteAt r 1
  let m := byteAt r 2
  let w := byteAt r 3
  let x := byteAt r 4
  let f := byteAt r 5
  byteAt r 6 = 0 && byteAt r 7 = 0 && f < 4 && (f < 2 || k = 1) && (k = 0 || k = portKind p) &&
  (match k with
   | 0 => m = 0 && w = 0 && x = 0
   | 1 => m < 8 && (bit m 0 || bit m 1) && (!bit m 2 || (bit m 0 && !bit m 1)) && w = 0 && x = 0
   | 2 => m < 16 && m ≠ 0 && w = 0 && x = 0
   | 3 => (m = 1 || m = 2) && w = 0 && 1 ≤ x && x ≤ 6
   | _ => if m = 0 then w = 0 && x = 0
          else m ≤ 6 && (w = 1 || w = 2 || w = 4) && (m ≠ 6 || w = 2) &&
            (if m = 1 then 1 ≤ x && x ≤ 5 else if m = 6 then 1 ≤ x && x ≤ 6 else x = 0))

/-- The bonding rules of R15. -/
def bondingOk (im : Image) : Bool :=
  let modes (p : Nat) : Nat × Nat × Nat := match im.port p with | none => (0, 0, 0) | some r => (byteAt r 1, byteAt r 2, byteAt r 3)
  let absorbed (p : Nat) : Bool := modes p = (4, 0, 0)
  (List.range 8).all fun q =>
    let p := 12 + q
    let (k, m, w) := modes p
    if k = 4 ∧ m ≠ 0 then
      (match w with
       | 1 => true
       | 2 => p % 2 = 0 && absorbed (p + 1) && (m = 1 || m = 6)
       | _ => p % 4 = 0 && absorbed (p + 1) && absorbed (p + 2) && absorbed (p + 3) && m = 1)
    else if k = 4 then
      let w2 := (modes (p - p % 2)).2
      let w4 := (modes (p - p % 4)).2
      (p % 2 = 1 && w2.1 ≠ 0 && w2.2 = 2) || (p % 4 ≠ 0 && w4.1 ≠ 0 && w4.2 = 4)
    else true

/-- The values of a TUNT record of grove `g` (R41, R42, R96). -/
def tuntOk (im : Image) (g : Nat) (r : Bytes) : Bool :=
  let t := tmplOf im r
  t.kind ≤ 6 && t.kind ≠ 5 && classAllowed t.kind t.cls && (byteAt r 1 ≤ 4 || byteAt r 1 = 0xFF) &&
  portGrove t.port = g && t.port < 20 && t.index < 16 && t.floor ≤ t.ceil && 1 ≤ t.ceil && t.ceil ≤ 1024 &&
  t.cir ≤ t.pir && t.caware ≤ 1 && (slice r 25 7).all (· = 0)

/-- Whether a list repeats nothing. -/
def distinct (l : List Nat) : Bool := l.Nodup

/-- A CAL record's own rules, but for R31 (R43, R186, R197, R198). -/
def calRecOk (im : Image) (g : Nat) (r : Bytes) : Bool :=
  let p := byteAt r 0
  let n := byteAt r 1
  let m := byteAt r 2
  p < 20 && portGrove p = g && 1 ≤ n && n ≤ 64 && m ≤ 1 && byteAt r 3 = 0 && leAt r 6 2 = 0 && leAt r 4 2 < 1024 &&
  (slice r (8 + 4 * n) (4 * (64 - n))).all (· = 0) &&
  (if m = 1 then timeOk (calEntries r) &&
      (match im.port p with | none => false | some q => byteAt q 1 = 4 && 2 ≤ byteAt q 2 && byteAt q 2 ≤ 4)
   else rasterOk (calEntries r))

/-- The functions a ball may carry, by its index (R512). -/
def pinFnOk (i f : Nat) : Bool :=
  if 6 ≤ i ∧ i ≤ 10 then f = 1 || f = 2
  else f = 0 || (f = 0xFF && 11 ≤ i) ||
    (15 ≤ i && i ≤ 22 && ((0x10 ≤ f && f ≤ 0x17) || (0x20 ≤ f && f ≤ 0x27) || f = 0x40)) ||
    ((i = 15 || i = 16) && (f = 0x30 || f = 0x31))

/-- The rules of R513 for the PINS section, but for absent ports (R4); index 0 to 5 lie on VIO_F, the others on VIO_M (R510). -/
def pinsOk (im : Image) (b : Bytes) : Bool :=
  let fn (i : Nat) : Nat := byteAt b (2 * i)
  let evt := (List.range 8).map fun e => fn (15 + e)
  b.length = 56 &&
  ((List.range 28).all fun i =>
    let l := byteAt b (2 * i + 1)
    pinFnOk i (fn i) && bits l 3 1 < 4 && bits l 5 4 < 3 && bits l 7 6 = 0 && bit l 0 = Config.bank33 (6 ≤ i)) &&
  ((List.range 5).all fun k => fn (6 + k) = fn 6) &&
  distinct (evt.filter fun f => (0x10 ≤ f && f < 0x30) || f = 0x40) &&
  (evt.all fun f =>
    if (0x10 ≤ f ∧ f ≤ 0x17) ∨ (0x20 ≤ f ∧ f ≤ 0x27) then
      (match im.port (12 + f % 16) with | none => false | some r => byteAt r 1 = 4 && byteAt r 2 = 1)
    else true)

/-- Bytes per pixel of a format code (R293). -/
def fmtBytes (f : Nat) : Nat := match f with | 0 => 2 | 1 => 3 | _ => 4

/-- The bitmap set of R301 at its offset in the DISP section. -/
def bitmapsOk (b : Bytes) : Bool :=
  let n := leAt b 0 2
  let es := records 16 n (b.drop 4)
  1 ≤ n && n ≤ 32 && leAt b 2 2 = 0 && es.length = n &&
  (es.all fun e =>
    let w := leAt e 4 2
    let h := leAt e 6 2
    1 ≤ byteAt e 0 && byteAt e 0 ≤ 4 && (byteAt e 1 ≤ 3 || byteAt e 1 = 0xFF) && byteAt e 2 ≤ 4 && byteAt e 3 = 0 &&
    1 ≤ w && w ≤ 1024 && 1 ≤ h && h ≤ 256 && leAt e 12 4 = w * h * fmtBytes (byteAt e 2)) &&
  (es.map fun e => leAt e 12 4).sum ≤ 0x200000 && distinct (es.map fun e => byteAt e 0 * 256 + byteAt e 1)

/-- The DISP section (R44). -/
def dispOk (b : Bytes) : Bool :=
  28 ≤ b.length && byteAt b 0 ≤ 9 && byteAt b 1 = 0 && 2 ≤ leAt b 2 2 && leAt b 2 2 ≤ 8191 &&
  24000 ≤ leAt b 4 4 && leAt b 4 4 ≤ 240000 &&
  ((List.range 4).all fun d =>
    let r := byteAt b (8 + d)
    let n := leAt b (16 + 2 * d) 2
    ((2 ≤ r && r ≤ 11) || r = 0xFF) && 100 ≤ n && n ≤ 60000) &&
  (slice b 12 4).all (· = 0) &&
  (leAt b 24 4 = 0 || bitmapsOk (b.drop (leAt b 24 4)))

/-- The TIME section (R44). -/
def timeSecOk (b : Bytes) : Bool :=
  b.length = 6 && (List.range 3).all fun k =>
    match byteAt b (2 * k) with
    | 0 => true
    | 1 => byteAt b (2 * k + 1) < 128
    | 2 => byteAt b (2 * k + 1) < 8
    | _ => false

/-- The POWER section's ranges (R488), for the channels present. -/
def powerOk (v : Nat) (b : Bytes) : Bool :=
  let list := (slice b 240 32).map (·.toNat)
  let used := list.filter (· ≠ 0xFF)
  let feed (o : Nat) : Bool :=
    let mn := leAt b (o + 8) 2
    let mx := leAt b (o + 10) 2
    let wn := leAt b (o + 12) 2
    leAt b o 4 ≤ leAt b (o + 4) 4 && mn < wn && wn < mx && 3000 ≤ mn && mx ≤ 22000
  b.length = 272 && 6000 ≤ leAt b 0 2 && leAt b 0 2 ≤ 15000 && 500 ≤ leAt b 2 2 && leAt b 2 2 ≤ 6000 &&
  leAt b 4 2 ≤ 5000 && leAt b 6 2 = 0 && feed 8 && feed 24 &&
  ((List.range 10).all fun n =>
    let o := 40 + 16 * n
    !channelPresent v n ||
    (leAt b o 2 < leAt b (o + 2) 2 && leAt b (o + 4) 2 ≠ 0 && 1 ≤ byteAt b (o + 6) && byteAt b (o + 6) ≤ 50 &&
     1 ≤ byteAt b (o + 7) && byteAt b (o + 7) ≤ 100 && byteAt b (o + 8) ≤ 1 && 1 ≤ byteAt b (o + 9) &&
     byteAt b (o + 9) ≤ 15 && leAt b (o + 10) 2 = 0 && (2 ≤ n || leAt b (o + 12) 4 = 0))) &&
  (used.all fun e => (2 ≤ e && e ≤ 9) || (20 ≤ e && e ≤ 39)) && distinct used && list.take used.length = used

/-- R4: nothing is assigned to an absent resource. -/
def absentOk (v : Nat) (im : Image) : Bool :=
  let pw := im.chip 0x11
  let pins := im.chip 0x12
  let disp := im.chip 0x13
  let zero (bs : Bytes) : Bool := bs.all (· = 0)
  (im.secs.all fun x => 8 ≤ x.inst || grovePresent v x.inst) &&
  ((im.recs 3 32).all fun r => portPresent v (byteAt r.2 2)) &&
  ((im.recs 4 264).all fun r => portPresent v (byteAt r.2 0)) &&
  ((List.range 28).all fun i =>
    let f := byteAt pins (2 * i)
    !(0x10 ≤ f && f < 0x30) || f = 0xFF || portPresent v (12 + f % 16)) &&
  ((List.range 10).all fun n => channelPresent v n || zero (slice pw (40 + 16 * n) 16)) &&
  ((slice pw 240 32).all fun e => e.toNat = 0xFF || (if e.toNat < 20 then channelPresent v e.toNat else portPresent v e.toNat)) &&
  ((List.range 20).all fun p => portPresent v p || leAt pw (200 + 2 * p) 2 = 0) &&
  (disp.length = 0 || (List.range 4).all fun d =>
    let r := byteAt disp (8 + d)
    r = 0xFF || (d < pipeCount v && portPresent v r))

/-- R31 for every CAL record (R43). -/
def calsR31 (im : Image) : Bool :=
  (im.recs 4 264).all fun r =>
    match im.port (byteAt r.2 0) with
    | none => true
    | some q => (unitsAndRates q).all fun u => calR31 u.1 (leAt r.2 4 2) (byteTime u.2) (calEntries r.2)

/-- The routes of D0 to D3 as the DISP section gives them; 0xFF is none (R44). -/
def routeBytes (im : Image) : List Nat :=
  let disp := im.chip 0x13
  (List.range 4).map fun d => if disp.length = 0 then 0xFF else byteAt disp (8 + d)

/-- The flex DisplayPort groups of an image by their lowest port (R279). -/
def dpGroups (im : Image) : List Nat :=
  [12, 14, 16, 18].filter fun p => match im.port p with | none => false | some r => byteAt r 1 = 4 && byteAt r 2 = 6

/-- The effective route of a pipe (R279): its ROUTE, else its turn among the flex groups. -/
def effectiveRoute (im : Image) (d : Nat) : Option Nat :=
  let rs := routeBytes im
  let r := rs.getD d 0xFF
  if r ≠ 0xFF then some r else (dpGroups im)[((rs.take d).filter (· = 0xFF)).length]?

/-- Section presence (R35): DISP stands once a pipe has a route, its own or its turn among the flex groups (R279). -/
def presenceOk (v : Nat) (im : Image) : Bool :=
  ((List.range 8).all fun g => !grovePresent v g || ((im.sec 1 g).isSome && (im.sec 2 g).isSome)) &&
  (im.sec 0x10 0xFFFF).isSome && (im.sec 0x11 0xFFFF).isSome && (im.sec 0x12 0xFFFF).isSome &&
  ((im.sec 0x13 0xFFFF).isSome || (List.range (pipeCount v)).all fun d => (effectiveRoute im d).isNone)

/-- The route rules of R280 for the pipes of the variant. -/
def routesOk (v : Nat) (im : Image) : Bool :=
  let ds := List.range (pipeCount v)
  let eff := ds.filterMap (effectiveRoute im)
  distinct eff && ((dpGroups im).all fun g => eff.contains g) &&
  (ds.all fun d =>
    let r := (routeBytes im).getD d 0xFF
    r = 0xFF || (match im.port r with
      | none => false
      | some q => (byteAt q 1 = 3) || (byteAt q 1 = 2 && bit (byteAt q 2) 2)))

/-- The register fields whose reset value the image gives, with those values (the register tables' "image" resets). -/
def imageFields (im : Image) : List (Fld × Nat) :=
  let disp := im.chip 0x13
  let pw := im.chip 0x11
  let tm := im.chip 0x14
  let lead := if disp.length = 0 then [(SCHED_LEAD_NSRC, 9), (SCHED_LEAD_LINES, 1125), (SCHED_LTOT_TOTAL, 1125),
      (SCHED_VIRT_RATE, 60000), (SCHED_VIRT_VLINES, 1125), (SCHED_LINC_INC, 60000 * 1125 * 4294967296 / 1000000000000)]
    else [(SCHED_LEAD_NSRC, byteAt disp 0), (SCHED_LEAD_LINES, leAt disp 2 2), (SCHED_LTOT_TOTAL, leAt disp 2 2),
      (SCHED_VIRT_RATE, leAt disp 4 4), (SCHED_VIRT_VLINES, leAt disp 2 2),
      (SCHED_LINC_INC, leAt disp 4 4 * leAt disp 2 2 * 4294967296 / 1000000000000)]
  let pipes := (List.range 4).flatMap fun d =>
    let r := effectiveRoute im d
    [(PIPE_ROUTE_VALID d, b2n r.isSome), (PIPE_ROUTE_PORT d, r.getD 0),
     (PIPE_NOTICE_DELAY d, if disp.length = 0 then 2000 else leAt disp (16 + 2 * d) 2)]
  let cells := (im.recs 2 8).flatMap fun r =>
    let c := 4 * r.1 + byteAt r.2 0
    let t := byteAt r.2 2
    let x := byteAt r.2 3
    [(LC_CTL_TXPA c, t), (LC_CTL_TXPB c, t), (LC_CTL_RXPA c, x), (LC_CTL_RXPB c, x),
     (LC_STAT_DIR c, if cellPort c < 2 then 2 else if cellPort c < 8 then 1 else byteAt r.2 1)]
  let cals := (im.recs 4 264).flatMap fun r =>
    let p := byteAt r.2 0
    [(GRV_CALCTL_MODE p, byteAt r.2 2), (GRV_CALCTL_LASTA p, byteAt r.2 1 - 1), (GRV_CALCTL_OVH p, leAt r.2 4 2)] ++
    ((List.range 64).map fun e => (GRV_CALA_ENTRY p e, leAt r.2 (8 + 4 * e) 4))
  let roles := if tm.length = 0 then [] else (List.range 3).flatMap fun k =>
    [(TIM_TBCTL_ROLE (k + 1), byteAt tm (2 * k)), (TIM_TBCTL_ARG (k + 1), byteAt tm (2 * k + 1))]
  let chans := (List.range 10).flatMap fun n =>
    let o := 40 + 16 * n
    [(PC_CTL_MODE n, byteAt pw (o + 8)), (PC_CTL_RETRIES n, byteAt pw (o + 9)), (PC_CTL_FLTT n, byteAt pw (o + 6)),
     (PC_CTL_ILIM n, leAt pw o 2)]
  lead ++ pipes ++ cells ++ cals ++ roles ++ [(PST_CORE_CEIL, leAt pw 0 2), (PST_CORE_BUDGET, leAt pw 0 2)] ++ chans

/-- The default of a field for R45: what the image gives it, else its reset value. -/
def imageDefault (im : Image) (f : Fld) : Nat :=
  match (imageFields im).find? fun e => e.1.key = f.key with
  | some e => e.2
  | none => f.reset

/-- The ENV rules of R45 for a record of a section with the given INST. -/
def envOk (im : Image) (inst : Nat) (r : Bytes) : Bool :=
  let a := leAt r 0 4
  let inGrove := 0x100000 ≤ a && a < 0x190000
  let inCell := 0x200000 ≤ a && a < 0x220000
  let scope := if inst = 0xFFFF then !inGrove && !inCell
    else (inGrove && (a - 0x100000) / 0x10000 = inst) || (inCell && cellGrove ((a - 0x200000) / 0x1000) = inst)
  scope && leAt r 8 4 ≤ leAt r 12 4 && !(0x400000 ≤ a && a < 0x404000) &&
  (match decodeAddr a with
   | none => false
   | some (id, i, j) =>
     (regFields id i j).any fun f => f.acc = .rw && leAt r 4 4 = (2 ^ f.w - 1) * 2 ^ f.pos &&
       leAt r 8 4 ≤ imageDefault im f && imageDefault im f ≤ leAt r 12 4)

/-- The port that a lane cell serves in an image: the lowest of its bonded group (R15). -/
def Image.owner (im : Image) (c : Nat) : Nat :=
  let q := cellPort c
  let width (p : Nat) : Nat := match im.port p with | some r => byteAt r 3 | none => 1
  if q < 12 ∨ width q ≠ 0 then q else if width (q - q % 2) = 2 then q - q % 2 else if width (q - q % 4) = 4 then q - q % 4 else q

/-- DIR of a LANE record is what the personality of a display or flex port needs (R254, R255). The settings of a cell that serves no
configured port are not used (R37). -/
def laneDirOk (im : Image) (c dir : Nat) : Bool :=
  match im.port (im.owner c) with
  | none => true
  | some q =>
    if !hasPersonality q then true
    else match byteAt q 1 with
      | 3 => dir = 3
      | 4 => if byteAt q 2 = 6 then dir = 3 else dir = 1
      | _ => true

/-- Whether the image inverts a pair of a lane cell: POL of its LANE record (R40). -/
def Image.inverts (im : Image) (c : Nat) (pairB : Bool) : Bool := match im.lane c with | none => false | some r => bit (byteAt r 4) (b2n pairB)

/-- The remaining content rules (result code 0xE). -/
def otherOk (v : Nat) (im : Image) : Bool :=
  let cls := im.chip 0x10
  let templates := (im.recs 3 32).map fun r => tmplOf im r.2
  presenceOk v im &&
  ((im.secs.filter fun x => x.ty = 1 && x.inst < 8).all fun x =>
    let rs := records 8 32 x.data
    x.data.length = 8 * rs.length && (rs.all portRecOk) && distinct (rs.map fun r => byteAt r 0) &&
    (rs.all fun r => byteAt r 0 < 20 && portGrove (byteAt r 0) = x.inst) &&
    rs.length = ((List.range 20).filter fun p => portGrove p = x.inst).length) &&
  ((im.secs.filter fun x => x.ty = 2 && x.inst < 8).all fun x =>
    let rs := records 8 32 x.data
    x.data.length = 32 && distinct (rs.map fun r => byteAt r 0) &&
    (rs.all fun r => byteAt r 0 < 4 && byteAt r 1 < 4 && byteAt r 2 < 16 && byteAt r 3 < 16 && byteAt r 4 < 4 && (slice r 5 3).all (· = 0) &&
      laneDirOk im (4 * x.inst + byteAt r 0) (byteAt r 1))) &&
  ((im.secs.filter fun x => x.ty = 4).all fun x => x.data.length % 264 = 0) && ((im.secs.filter fun x => x.ty = 5).all fun x => x.data.length % 16 = 0) &&
  ((im.secs.filter fun x => x.ty = 5).map fun x => x.data.length).sum ≤ 16 * 2048 &&
  cls.length = 8 && ((List.range 7).all fun k => classAllowed k (byteAt cls k)) && byteAt cls 7 = 0 &&
  ((im.recs 3 32).all fun r => tuntOk im r.1 r.2) &&
  ((im.secs.filter fun x => x.ty = 3).all fun x => x.data.length % 32 = 0 && x.data.length ≤ 64 * 32) &&
  distinct (templates.map fun t => (t.port * 256 + t.kind) * 256 + t.index) &&
  distinct ((templates.filter fun t => t.kind = 6).map (·.port)) &&
  ((im.recs 4 264).all fun r => calRecOk im r.1 r.2) && distinct ((im.recs 4 264).map fun r => byteAt r.2 0) &&
  ((im.recs 1 8).all fun r => !hasPersonality r.2 || (im.cal (byteAt r.2 0)).isSome) &&
  ((im.recs 4 264).all fun r => match im.port (byteAt r.2 0) with | none => false | some q => hasPersonality q) &&
  powerOk v (im.chip 0x11) && pinsOk im (im.chip 0x12) && ((im.sec 0x13 0xFFFF).isNone || dispOk (im.chip 0x13)) &&
  routesOk v im && ((im.sec 0x14 0xFFFF).isNone || timeSecOk (im.chip 0x14))

/-- Step 10 of R47: 1 or the result code. Where several content rules are broken, the codes of R64 are tried in
rising order (DESIGN CHOICE, log entry 8). -/
def contentCode (v : Nat) (im : Image) : Nat :=
  if !absentOk v im then 0xA
  else if !bondingOk im then 0xB
  else if !calsR31 im then 0xC
  else if !((im.recs 5 16).all fun r => envOk im r.1 r.2) then 0xD
  else if !otherOk v im then 0xE
  else 1

/-! ### Verification (R47) -/

/-- Where a copy stands in flash. -/
def copyBase (copyB : Bool) : Nat := if copyB then 0x800000 else 0x400000

/-- Bytes of the boot flash; an erased byte is 0xFF. -/
def flashBytes (s : State) (off n : Nat) : Bytes := memRead 0xFF s.flash off n

/-- A copy's header. -/
def copyHeader (s : State) (copyB : Bool) : Bytes := flashBytes s (copyBase copyB) 0x100

/-- LEN of a header, and whether step 2 holds of it (R33). A LEN that leaves no room for header, directory and signature block, which the rule
does not name, fails it as well (DESIGN CHOICE, log entry 102). -/
def lenOk (h : Bytes) (max : Nat) : Bool := leAt h 8 4 % 16 = 0 && leAt h 8 4 ≤ max && 0x600 ≤ leAt h 8 4

/-- Steps 1 to 5 of R47 for the container with a MAGIC at a flash offset: 1 or the result code. -/
def headerCodeAt (s : State) (magic : Bytes) (base max : Nat) : Nat :=
  let h := flashBytes s base 0x100
  let vm := byteAt h 0xC
  let sig := flashBytes s (base + leAt h 8 4 - 256) 256
  let k := byteAt sig 0
  let hash := wordsBytes ((List.range 12).map fun n => BitVec.ofNat 32 (s.rd (FUSE_RKH_V k n)))
  if slice h 0 4 ≠ magic ∨ leAt h 4 2 ≠ 1 ∨ leAt h 6 2 ≠ 0x100 ∨ 63 < leAt h 0x10 4 then 2
  else if !lenOk h max then 9
  else if !bit vm (variant s - 1) ∨ 8 ≤ vm then 3
  else if leAt h 0x10 4 < bits (s.rd FUSE_ARB_V) 5 0 then 4
  else if 3 < k ∨ bit (s.rd FUSE_RKREV_V) k ∨ fuseFault s then 5
  else if Config.sha384 (slice sig 4 96) ≠ hash then 6
  else 1

/-- Steps 1 to 5 of R47 for an image copy. -/
def headerCode (s : State) (copyB : Bool) : Nat := headerCodeAt s [0x54, 0x4C, 0x49, 0x4D] (copyBase copyB) 0x400000

/-- A directory entry: TYPE, INST, OFFSET, LENGTH, CRC (R34). -/
structure DirEnt where
  ty : Nat
  inst : Nat
  off : Nat
  len : Nat
  crc : Nat
deriving DecidableEq, Repr

/-- The used directory entries of a copy. -/
def directory (b : Bytes) : List DirEnt :=
  (records 16 (leAt b 0x1C 2) (slice b 0x100 0x400)).map fun r =>
    { ty := leAt r 0 2, inst := leAt r 2 2, off := leAt r 4 4, len := leAt r 8 4, crc := leAt r 12 4 }

/-- The directory rules of R34. -/
def directoryOk (b : Bytes) (len : Nat) : Bool :=
  let n := leAt b 0x1C 2
  let es := directory b
  1 ≤ n && n ≤ 64 && ((slice b (0x100 + 16 * n) (16 * (64 - n))).all (· = 0)) &&
  (es.all fun e =>
    ([1, 2, 3, 4, 5, 0x10, 0x11, 0x12, 0x13, 0x14].contains e.ty) &&
    (if e.ty ≤ 4 then e.inst < 8 else if e.ty = 5 then e.inst < 8 || e.inst = 0xFFFF else e.inst = 0xFFFF) &&
    0x500 ≤ e.off && e.off % 16 = 0 && e.off + e.len ≤ len - 256) &&
  distinct (es.map fun e => e.ty * 65536 + e.inst) &&
  (es.all fun e => es.all fun f => e = f || e.off + e.len ≤ f.off || f.off + f.len ≤ e.off)

/-- The KEK, once KS0 holds it (R491). -/
def kek (s : State) : Option Bytes := if s.on KEY_VAULT_KEKV then some ((mget [] s.kv.slots 0).take 32) else none

/-- The image key that a copy's WKEY unwraps to (R48). -/
def imageKey (s : State) (b : Bytes) : Option Bytes := (kek s).bind fun k => Config.kwpUnwrap k (slice b 0x20 40)

/-- The plaintext of a streamed copy: as stored, or opened under the unwrapped image key (R48). -/
def plaintext (s : State) (b : Bytes) : Option Bytes :=
  let len := leAt b 8 4
  if bit (leAt b 0x18 4) 0 then
    match imageKey s b with
    | none => none
    | some key =>
      let aad := slice b 0 0x54 ++ List.replicate 16 0 ++ slice b 0x64 (0x500 - 0x64)
      (Config.gcmOpen key (slice b 0x48 12) aad (slice b 0x500 (len - 256 - 0x500)) (slice b 0x54 16)).map fun pt =>
        slice b 0 0x500 ++ pt ++ b.drop (len - 256)
  else some b

/-- The image in a plaintext copy. -/
def imageOf (b digest : Bytes) : Image :=
  { header := slice b 0 0x500, svn := leAt b 0x10 4, serial := leAt b 0x14 4, enc := bit (leAt b 0x18 4) 0
    digest := digest, secs := (directory b).map fun e => { ty := e.ty, inst := e.inst, data := slice b e.off e.len } }

/-- Steps 6 to 10 of R47 over a whole copy: the result code and, where it passes, the image. -/
def streamCode (s : State) (copyB : Bool) : Nat × Option Image :=
  let len := leAt (copyHeader s copyB) 8 4
  let b := flashBytes s (copyBase copyB) len
  let digest := Config.sha384 (slice b 0 (len - 256))
  if !directoryOk b len then (9, none)
  else if !Config.ecdsaOk (slice b (len - 252) 96) (slice b (len - 156) 96) digest then (7, none)
  else match plaintext s b with
    | none => (8, none)
    | some p =>
      if !((directory p).all fun e => crc32 (slice p e.off e.len) = e.crc) then (9, none)
      else
        let im := imageOf p digest
        let c := contentCode (variant s) im
        (c, if c = 1 then some im else none)

/-- The result code of a copy under all steps of R47. -/
def copyCode (s : State) (copyB : Bool) : Nat :=
  let c := headerCode s copyB
  if c ≠ 1 then c else (streamCode s copyB).1

/-- Where a firmware copy stands in flash (R405). -/
def firmwareBase (copyB : Bool) : Nat := if copyB then 0x200000 else 0x10000

/-- Steps 1 to 5 of R47 for a firmware copy (R405, R406). -/
def firmwareHeader (s : State) (copyB : Bool) : Nat := headerCodeAt s [0x54, 0x4C, 0x46, 0x57] (firmwareBase copyB) 0x1F0000

/-- A firmware copy passes steps 1 to 7 and 9 of R47, with its one section (R405, R406). -/
def firmwarePasses (s : State) (copyB : Bool) : Bool :=
  firmwareHeader s copyB = 1 &&
  (let len := leAt (flashBytes s (firmwareBase copyB) 0x100) 8 4
   let b := flashBytes s (firmwareBase copyB) len
   leAt b 0x1C 2 = 1 && ((slice b 0x110 0x3F0).all (· = 0)) &&
   (directory b).all (fun e => e.ty = 0x100 && e.inst = 0xFFFF && 0x500 ≤ e.off && e.off % 16 = 0 && e.off + e.len ≤ len - 256 &&
     crc32 (slice b e.off e.len) = e.crc) &&
   Config.ecdsaOk (slice b (len - 252) 96) (slice b (len - 156) 96) (Config.sha384 (slice b 0 (len - 256))))

/-- SVN and SERIAL of a container at a flash offset. -/
def svnSerial (s : State) (base : Nat) : Nat × Nat := (leAt (flashBytes s base 0x100) 0x10 4, leAt (flashBytes s base 0x100) 0x14 4)

/-- Copy B goes before copy A: higher SVN, then higher SERIAL; A where they are equal (R50). -/
def preferB (s : State) (baseA baseB : Nat) : Bool :=
  let a := svnSerial s baseA
  let b := svnSerial s baseB
  a.1 < b.1 || (a.1 = b.1 && a.2 < b.2)

/-- The length of grove slice `g` (R36). -/
def sliceLength (im : Image) (g : Nat) : Nat := ((im.secs.filter fun x => x.inst = g).map fun x => x.data.length).sum

/-- Whether two images differ outside slice `g` (R56). -/
def differsOutside (a b : Image) (g : Nat) : Bool :=
  let hdr (im : Image) : Bytes := slice im.header 0 8 ++ slice im.header 12 4 ++ slice im.header 0x18 4 ++
    slice im.header 0x1E 2 ++ slice im.header 0x64 156
  let others (im : Image) : List Sec := im.secs.filter fun x => x.inst ≠ g
  hdr a ≠ hdr b || !((others a).all fun x => (others b).contains x) || !((others b).all fun x => (others a).contains x)

/-- The ports of grove `g` whose PORT record, or whose lane cells' LANE records, differ (R57). -/
def changedPorts (a b : Image) (g : Nat) : List Nat :=
  (List.range 20).filter fun p => portGrove p = g &&
    (a.port p ≠ b.port p || (List.range 32).any fun c => (a.owner c = p || b.owner c = p) && a.lane c ≠ b.lane c)

end Sys2Proof.Machine
end

