-- ==== Sys2Proof/Machine/Tunnel.lean ====
section
/-! DEFINITION. Attach and structural events and the settle timer (R22 to R24), the life of a tunnel entry
(R105 to R107, R116, R117, R119), the management tunnels (R100) and the writes of the tunnel table (R123). -/

namespace Sys2Proof.Machine

/-- Tunnel states by name (R105). -/
def stFREE : Nat := 0
def stADMIT : Nat := 1
def stACTIVE : Nat := 2
def stTEARING : Nat := 3
def stQUAR : Nat := 4
def stREFUSED : Nat := 5

/-- A tunnel is established. -/
def tunActive (s : State) (n : Nat) : Bool := s.rd (TT_STATE_STATE n) = stACTIVE

/-! ### The settle timer -/

/-- Cancel a solve between its sample and its swap (R117). -/
def cancelSolve (s : State) : State :=
  if s.sv.sample.isNone && s.sv.commit.isNone then s
  else
    let t := match s.sv.commit with
      | none => s
      | some c =>
        let u := forAll c.prev (fun e st =>
          if st.rd (TT_STATE_STATE e.1) = stADMIT ∨ st.rd (TT_STATE_STATE e.1) = stREFUSED then
            (st.wr (TT_STATE_STATE e.1) e.2.1).wr (TT_STATE_GEN e.1) e.2.2
          else st) s
        { u with sv := { u.sv with lastRefused := c.prevRefused } }
    let t := { t with sv := { t.sv with sample := none, commit := none }, sc := { t.sc with changing := t.sc.held, sampled := none } }
    raise 16 19 (t.wrs [(PST_SOLVE_BUSY, 0), (PST_SOLVE_ARMED, 0), (PST_SOLVE_CANCEL, 1), (FAB_STATUS_MAPPEND, 0)])

/-- A solve that still runs is abandoned before its commit (the races of chapter 04, R396). -/
def dropSolve (s : State) : State :=
  if s.sv.sample.isSome && s.sv.commit.isNone then
    { (s.wr PST_SOLVE_BUSY 0) with sv := { s.sv with sample := none }, sc := { s.sc with changing := s.sc.held, sampled := none } } else s

/-! ### The balls that AON keeps (R438, R439, R512) -/

/-- The function that PINS gives a configurable ball, by its index of R512. -/
def pinFn (s : State) (i : Nat) : Nat := s.bt.pinFns.getD i 0

/-- P46 has stopped: VIO_M is out of its range (R524). -/
def p46Stopped (s : State) : Bool := s.pw.outside.contains 6

/-- The function that PINS gives an EVT pin: 0 its own, under TIM_EVCTL (R374, R512). -/
def evtFn (s : State) (e : Nat) : Nat := pinFn s (15 + e)

/-- The EVT pin to which PINS gives a function. -/
def evtOf (s : State) (f : Nat) : Option Nat := (List.range 8).find? fun e => evtFn s e = f

/-- What the indicator shows (R439): 0 off, 1 steady, 2 dimmed to 25 %, 3 100 ms in every 2 s, 4 100 ms in every 200 ms. -/
def indicator (s : State) : Nat :=
  if s.rd PST_PSSTAT_PHASE = 1 ∨ s.rd PST_PSSTAT_PHASE = 3 then 4
  else match s.rd PST_PSSTAT_STATE with | 0 => 1 | 1 => 1 | 2 => 2 | 3 => 3 | _ => 0

/-- AON drives the indicator's pin, where PINS gives one (R439). -/
def showIndicator (s : State) : State :=
  match evtOf s 0x40 with
  | some e => s.emit (.note "indicator" [e, indicator s])
  | none => s

/-! ### Power states: what attaches and wakes end (R430 to R436) -/

/-- Replace the power-state request's own state. -/
def State.setPs (s : State) (x : PsReq) : State := { s with ps := x }

/-- A port that Doze took down trains again. -/
def trainAgain (p : Nat) (s : State) : State :=
  { s with fb := { s.fb with eg := mput {} s.fb.eg p { (mget {} s.fb.eg p) with waiting := true } } }

/-- The timer of a PAUSED notice held while the hub was in Doze (R430). -/
def shiftPaused (d : Nat) (s : State) : State :=
  let x := mget {} s.pp d
  let y : PipeSt := { x with liveAt := x.liveAt + (s.clock - s.ps.dozeAt) }
  { s with pp := mput {} s.pp d y }

/-- Forced hold frames of Doze end, and what Doze took down trains again (R430; DEDUCED, log entry 14). -/
def leaveDoze (s : State) : State :=
  let t := forAll (List.range (pipeCount (variant s))) (fun d u => shiftPaused d (if u.on (PIPE_ROUTE_VALID d) then u.wr (PIPE_CTL_FHOLD d) 0 else u)) s
  (forAll t.ps.downed trainAgain t).setPs { t.ps with downed := [] }

/-- The hub goes back to Active from Drowse or Doze at once (R432, R436). -/
def toActive (s : State) : State :=
  let st := s.rd PST_PSSTAT_STATE
  if st = 0 ∨ 3 ≤ st then s
  else
    let t := showIndicator (raise 16 0 (s.wrs [(PST_PSSTAT_STATE, 0), (PST_PSCTL_GO, 0)]))
    if st = 2 then leaveDoze t else t

/-- A participant has accepted the request that is being asked or committed, and holds off new work of its own until it ends (R433). -/
def holdsOff (s : State) (w : Nat) : Bool :=
  s.rd PST_PSSTAT_PHASE = 2 || (s.rd PST_PSSTAT_PHASE = 1 && !s.ps.waiting.contains w)

/-- A power-state request ends in a refusal (R433). -/
def psRefuse (who reason : Nat) (s : State) : State :=
  showIndicator (raise 16 1 ((s.wrs [(PST_PSSTAT_WHO, who), (PST_PSSTAT_REASON, reason), (PST_PSSTAT_PHASE, 0), (PST_PSCTL_GO, 0)]).setPs
    { downed := s.ps.downed, gated := s.ps.gated, dozeAt := s.ps.dozeAt }))

/-- In Drowse or Doze an attach or detach event returns the hub to Active (R436), but for one of a shutdown itself. -/
def attachWakes (s : State) : State := if s.rd PST_PSSTAT_PHASE = 0 then toActive s else s

/-- The running timer is due in this very cycle. -/
def settleDue (s : State) : Bool := s.on SYS_SETTLE_RUN && s.sv.deadline ≤ s.clock

/-- An attach or detach event in the cycle of the timer's expiry counts as before it (R24): an expiry still to come in this cycle is
void, and one that has been taken in it is taken back before its solve has run. -/
def settleTie (s : State) : State :=
  if settleDue s then { s with sv := { s.sv with tied := true } }
  else if s.sv.expired = some s.clock ∧ s.sv.commit.isNone then
    { (s.wr PST_SOLVE_BUSY 0) with sv := { s.sv with sample := none, expired := none }, sc := { s.sc with changing := s.sc.held, sampled := none } }
  else s

/-- Start the settle timer at 200 ms. -/
def startSettle (s : State) : State :=
  let t := s.wrs [(SYS_SETTLE_PEND, 1), (SYS_SETTLE_RUN, 1), (SYS_GUARD_SETTLED, 0)]
  { t with sv := { t.sv with deadline := t.clock + ms 200 } }

/-- An attach or detach event restarts the timer and cancels a pending solve (R22, R117). Before an image is
configured the timer has not started (R53; DEDUCED, log entry 9). -/
def attachEvent (s : State) : State :=
  let t := attachWakes s
  if t.on CFG_STATUS_LOADED then startSettle (cancelSolve (settleTie t)) else t

/-- Any other structural event starts the timer only if it is idle (R23). -/
def structuralEvent (s : State) : State :=
  if !s.on CFG_STATUS_LOADED then s
  else if s.on SYS_SETTLE_RUN then s.wr SYS_SETTLE_PEND 1 else startSettle s

/-- A partner is attached to a port (or replaces the one there). -/
def attachPartner (p : Nat) (q : Partner) (s : State) : State :=
  attachEvent { s with sv := { s.sv with att := mins s.sv.att p q } }

/-- A port's partner is gone. -/
def detachPartner (p : Nat) (s : State) : State :=
  attachEvent { s with sv := { s.sv with att := mdel s.sv.att p } }

/-! ### Entries -/

/-- A child pair's floor and ceiling, downstream then upstream, in units of the parent's reference rates (R243). -/
def childLimits (q : Partner) (c : ChildPair) (refD refU : Nat) : (Nat × Nat) × (Nat × Nat) :=
  let conv (f e link ref : Nat) : Nat × Nat :=
    let x := ceilDiv (f * link) ref
    (x, min 1024 (max x (if ref = 0 then 0 else e * link / ref)))
  (conv c.floorD c.ceilD q.txMbps refD, conv c.floorU c.ceilU q.rxMbps refU)

/-- The reference rates of a crown port in Mb/s: downstream and upstream (R109). -/
def refRates (att : NMap Partner) (c : Nat) : Nat × Nat :=
  match mfind att c with
  | none => (0, 0)
  | some q => (q.rxMbps, q.txMbps)

/-- The template that bounds an entry: a display pair's upstream tunnel has floor 1 and ceiling 4 (R111), a cascade
child's tunnels take floor, ceiling and class from the child's report (R99), every other entry its TUNT record. -/
def entryTmpl (s : State) (n : Nat) : Option Tmpl :=
  let p := s.rd (TT_REQ_PORT n)
  let k := s.rd (TT_REQ_KIND n)
  let i := s.rd (TT_REQ_INDEX n)
  let up := s.on (TT_STATE_DIR n)
  match (homes s).find? fun e => e.1.port = p && e.1.kind = k && (e.1.index = i || k = 6) with
  | none => none
  | some (t, _) =>
    if k = 0 ∧ up then some { t with floor := 1, ceil := 4 }
    else if k = 6 then
      let crown := s.rd (if up then TT_ENDP_OUTPORT n else TT_ENDP_INPORT n)
      let ref := refRates s.sv.att crown
      if n < s.rd (TT_REQ_HOME n) + 2 then none
      else match mfind s.sv.att p with
      | none => some t
      | some q => match q.children.find? fun c => c.k = i with
        | none => some t
        | some c =>
          let l := childLimits q c ref.1 ref.2
          some { t with floor := if up then l.2.1 else l.1.1, ceil := if up then l.2.2 else l.1.2 }
    else some t

/-- Return an entry's parameters to its template's values (R123). -/
def applyTemplate (n : Nat) (s : State) : State :=
  match entryTmpl s n with
  | none => s
  | some t => s.wrs [(TT_LIMIT_CEIL n, t.ceil), (TT_LIMIT_FLOOR n, t.floor), (TT_SHAPE_BURST n, t.burst),
      (TT_METER_CAWARE n, t.caware), (TT_METER_PIR n, t.pir), (TT_METER_CIR n, t.cir), (TT_CBS_CBS n, t.cbs), (TT_PBS_PBS n, t.pbs)]

/-- The entry and the other tunnel of its pair (R107). -/
def pairOf (s : State) (n : Nat) : List Nat := if n < 2 then [n] else [n, s.rd (TT_STATE_PEER n)]

/-- Tear a pair down: ACTIVE goes to TEARING with its cause, parameters return to their template (R106, R107, R123). -/
def teardown (n cause : Nat) (s : State) : State :=
  forAll (pairOf s n) (fun m t =>
    if t.rd (TT_STATE_STATE m) = stACTIVE then
      applyTemplate m ((t.wr (TT_STATE_STATE m) stTEARING).wr (TT_STATE_CAUSE m) cause)
    else t) s

/-- The tunnels that have a port as an endpoint. -/
def tunnelsOf (s : State) (p : Nat) : List Nat :=
  (List.range 256).filter fun n => s.rd (TT_STATE_STATE n) ≠ stFREE &&
    (s.rd (TT_ENDP_INPORT n) = p || s.rd (TT_ENDP_OUTPORT n) = p)

/-- The entries that name a port as an endpoint, whatever their state (R119). -/
def entriesOf (s : State) (p : Nat) : List Nat :=
  (List.range 256).filter fun n => s.rd (TT_ENDP_INPORT n) = p || s.rd (TT_ENDP_OUTPORT n) = p

/-- A port's partner is gone: every tunnel with an endpoint there is torn down (R106, R108). -/
def dropTunnels (p cause : Nat) (s : State) : State := forAll (tunnelsOf s p) (fun n t => teardown n cause t) s

/-- The fields of an entry that a port reset of either endpoint restores (R119, R120, R123, R124). -/
def tunPortFields (n : Nat) : List Fld :=
  [TT_STATE_MODE n, TT_ALLOT_ACT n, TT_ALLOT_NEXT n, TT_SEQ_INSEQ n, TT_SEQ_OUTSEQ n, TT_SEGIN_COUNT n, TT_SEGOUT_COUNT n]

/-- The logical fabric port of a port (R97). -/
def fabOf (p : Nat) : Nat :=
  if p = 31 then 19
  else 2 * portGrove p + (if portGrove p < 6 then portPlace p else portPlace p / 2)

/-- A management tunnel becomes active at once, its credit counters at 0 (R100, R106, R223). CAUSE keeps the last teardown's (R120). -/
def activateMgmt (n : Nat) (s : State) : State :=
  if s.rd (TT_STATE_STATE n) ≠ stFREE then s
  else (s.wrs [(TT_STATE_STATE n, stACTIVE), (TT_STATE_GEN n, s.rd (TT_STATE_GEN n) + 1), (TT_STATE_KIND n, 5),
    (TT_STATE_CLS n, 4), (TT_ENDP_INPORT n, n), (TT_ENDP_OUTPORT n, 31), (TT_ENDP_INFAB n, fabOf n),
    (TT_ENDP_OUTFAB n, 19), (TT_REQ_PORT n, n), (TT_REQ_KIND n, 5), (TT_SEQ_INSEQ n, 0), (TT_SEQ_OUTSEQ n, 0)]).setCredit n {}

/-- Whether the last solve that took effect refused the entry's request and its partner is still attached (R106). -/
def stillRefused (s : State) (n : Nat) : Bool :=
  s.sv.active.any fun e => e.tun = n && !e.admitted && (mfind s.sv.att e.port).isSome

/-- The flush of a tunnel completes: its pair goes from TEARING to QUAR (R106, R107). -/
def enterQuarantine (n : Nat) (s : State) : State :=
  forAll (pairOf s n) (fun m t => if t.rd (TT_STATE_STATE m) = stTEARING then t.wr (TT_STATE_STATE m) stQUAR else t) s

/-- Quarantine ends for one entry: FREE, or REFUSED; a management tunnel whose link is active again activates
(R100, R106). -/
def leaveQuarantine (m : Nat) (t : State) : State :=
  if t.rd (TT_STATE_STATE m) ≠ stQUAR then t
  else if m < 2 then
    let u := t.wr (TT_STATE_STATE m) stFREE
    if canActive u m && !isDown u m then activateMgmt m u else u
  else t.wr (TT_STATE_STATE m) (if stillRefused t m then stREFUSED else stFREE)

/-- The end of a pair's quarantine; for a pair whose upstream crown port changed it is a structural event (R95). -/
def endQuarantine (n : Nat) (s : State) : State :=
  if s.rd (TT_STATE_STATE n) ≠ stQUAR then s
  else
    let pr := pairOf s n
    let moved := pr.any fun m => s.sv.moved.contains m
    let t := forAll pr leaveQuarantine s
    let u := { t with sv := { t.sv with moved := t.sv.moved.filter fun m => !pr.contains m } }
    if moved then structuralEvent u else u

/-- QUARANTINE_END (R106): 1 ms after an entry entered QUAR. -/
def execQuarantineEnd (n : Tun) (s : State) : Host.Outcome State Fault Refusal := .next (endQuarantine n s)

/-! ### Writes of the tunnel table (R123) -/

/-- Place one field of an entry when its value is in range; otherwise leave it and set TTWRERR (R8, R123). -/
def wrTun (f : Fld) (ok : Bool) (v : Nat) (s : State) : State := if ok then s.wr f v else raise 16 16 s

/-- Whether an entry takes writes: ADMIT or ACTIVE (R123). -/
def entryLive (s : State) (n : Nat) : Bool := s.rd (TT_STATE_STATE n) = stADMIT || s.rd (TT_STATE_STATE n) = stACTIVE

/-- A write to TT_LIMIT_n: CEIL first, then FLOOR against it; a change is a mode change (R23, R123). -/
def wrTtLimit (n v : Nat) (s : State) : State :=
  match entryTmpl s n with
  | none => s
  | some t =>
    if !entryLive s n then s
    else
      let a := wrTun (TT_LIMIT_CEIL n) (bits v 26 16 ≤ t.ceil) (bits v 26 16) s
      let b := wrTun (TT_LIMIT_FLOOR n) (t.floor ≤ bits v 10 0 && bits v 10 0 ≤ a.rd (TT_LIMIT_CEIL n)) (bits v 10 0) a
      if b.rd (TT_LIMIT_CEIL n) ≠ s.rd (TT_LIMIT_CEIL n) ∨ b.rd (TT_LIMIT_FLOOR n) ≠ s.rd (TT_LIMIT_FLOOR n)
      then structuralEvent b else b

/-- A write to another parameter word of an entry (R123). A TT_METER word places CIR first and judges PIR against it (DESIGN CHOICE, log
entry 47); the words of an entry without a template take no write (DESIGN CHOICE, log entry 100). -/
def wrTtParam (n : Nat) (r : TtParam) (v : Nat) (s : State) : State :=
  match entryTmpl s n with
  | none => s
  | some t =>
    if !entryLive s n then s
    else match r with
      | .shape => wrTun (TT_SHAPE_BURST n) (128 ≤ v && v ≤ t.burst) v s
      | .meter =>
        let a := wrTun (TT_METER_CIR n) (bits v 10 0 ≤ t.cir) (bits v 10 0) s
        wrTun (TT_METER_PIR n) (a.rd (TT_METER_CIR n) ≤ bits v 26 16 && bits v 26 16 ≤ t.pir) (bits v 26 16) a
      | .cbs => wrTun (TT_CBS_CBS n) (v ≤ t.cbs) v s
      | .pbs => wrTun (TT_PBS_PBS n) (v ≤ t.pbs) v s

/-- A write to PST_HOSTSEL: bits 0 and 1 are ignored; a change is a mode change (R95, R125). -/
def wrHostsel (v : Nat) (s : State) : State :=
  let new := v % 2 ^ 20 / 4 * 4
  if new = s.rd PST_HOSTSEL_SEL then s
  else ifAllowed 0x20804 PST_HOSTSEL_SEL new (fun t => structuralEvent (t.wr PST_HOSTSEL_SEL new)) s

/-- The upstream crown port of a port's requests (R95): the selected one if it is host-facing and its link is active,
else the other. A request whose own port is a crown port has no bit of HOSTSEL, as bits 0 and 1 are ignored: P0 comes first, then P1 (DESIGN
CHOICE, log entry 120). -/
def upstreamCrown (s : State) (p : Nat) : Option Nat :=
  let ok (c : Nat) : Bool := !isDown s c && (s.rd (CAN_STAT_STATE c) = 4 || s.rd (CAN_STAT_STATE c) = 5)
  let sel := b2n (bit (s.rd PST_HOSTSEL_SEL) p)
  if ok sel then some sel else if ok (1 - sel) then some (1 - sel) else none

/-- PST_REFUSE_n as it reads (R125). -/
def refuseWord (s : State) (k : Nat) : Nat :=
  ((List.range 32).map fun j =>
    let n := 32 * k + j
    b2n (s.rd (TT_STATE_STATE n) = stREFUSED || (s.rd (TT_STATE_STATE n) = stQUAR && s.sv.lastRefused.contains n)) * 2 ^ j).sum

end Sys2Proof.Machine
end

