-- ==== Sys2Proof/Machine/Stores.lean ====
section
/-! DEFINITION. Accessors of the state beside the registers, and the segment as it stands in a header word (R101 to
R103). -/

namespace Sys2Proof.Machine

def State.flow (s : State) (n : Nat) : Flow := mget {} s.fb.flow n
def State.setFlow (s : State) (n : Nat) (f : Flow) : State := { s with fb := { s.fb with flow := mput {} s.fb.flow n f } }
def State.ingressQ (s : State) (n : Nat) : List Seg := mget [] s.fb.ingress n
def State.setIngress (s : State) (n : Nat) (q : List Seg) : State := { s with fb := { s.fb with ingress := mput [] s.fb.ingress n q } }
def State.secondQ (s : State) (n : Nat) : List Seg := mget [] s.fb.second n
def State.setSecond (s : State) (n : Nat) (q : List Seg) : State := { s with fb := { s.fb with second := mput [] s.fb.second n q } }
def State.tx (s : State) (n : Nat) : List Seg := mget [] s.fb.txq n
def State.setTx (s : State) (n : Nat) (q : List Seg) : State := { s with fb := { s.fb with txq := mput [] s.fb.txq n q } }
def State.inter (s : State) (j : Nat) : Inter := mget {} s.fb.inter j
def State.setInter (s : State) (j : Nat) (x : Inter) : State := { s with fb := { s.fb with inter := mput {} s.fb.inter j x } }
def State.outPos (s : State) (o : Nat) : OutPos := mget {} s.fb.pos o
def State.setOutPos (s : State) (o : Nat) (x : OutPos) : State := { s with fb := { s.fb with pos := mput {} s.fb.pos o x } }
def State.eg (s : State) (p : Nat) : Egress := mget {} s.fb.eg p
def State.setEg (s : State) (p : Nat) (x : Egress) : State := { s with fb := { s.fb with eg := mput {} s.fb.eg p x } }
def State.spillQ (s : State) (k : Nat) : List SPage := mget [] s.fb.spill k
def State.setSpill (s : State) (k : Nat) (q : List SPage) : State := { s with fb := { s.fb with spill := mput [] s.fb.spill k q } }
def State.can (s : State) (p : Nat) : Can := mget {} s.cn p
def State.setCan (s : State) (p : Nat) (c : Can) : State := { s with cn := mput {} s.cn p c }
def State.lane (s : State) (c : Nat) : Lane := mget {} s.lc c
def State.setLane (s : State) (c : Nat) (x : Lane) : State := { s with lc := mput {} s.lc c x }
def State.pipe (s : State) (d : Nat) : PipeSt := mget {} s.pp d
def State.setPipe (s : State) (d : Nat) (x : PipeSt) : State := { s with pp := mput {} s.pp d x }
def State.evt (s : State) (e : Nat) : Evt := mget {} s.ev e
def State.setEvt (s : State) (e : Nat) (x : Evt) : State := { s with ev := mput {} s.ev e x }
/-- What the hub puts on a ball of R415: 0 high impedance, 1 weak pull-down, 2 low, 3 high. -/
def State.setPin (s : State) (b code : Nat) : State := { s with bt := { s.bt with pins := mput 0 s.bt.pins b code } }
def State.tree (s : State) (n : Nat) : TreeP := mget {} s.ut.ports n
def State.setTree (s : State) (n : Nat) (x : TreeP) : State := { s with ut := { s.ut with ports := mput {} s.ut.ports n x } }
def State.pdp (s : State) (p : Nat) : PdPort := mget {} s.pd p
def State.setPdp (s : State) (p : Nat) (x : PdPort) : State := { s with pd := mput {} s.pd p x }
def State.adp (s : State) (p : Nat) : Adapter := mget {} s.ad p
def State.setAdp (s : State) (p : Nat) (x : Adapter) : State := { s with ad := mput {} s.ad p x }

/-! ### The segment (R101, R102) -/

/-- Header bits 63:16 as a number. -/
def segHeader (g : Seg) : Nat :=
  ((((((((g.tun * 8 + g.cls) * 4 + g.gen) * 2 + b2n g.first) * 2 + b2n g.last) * 4 + g.col) * 2048 + g.seq) * 8192 + g.line) * 128 +
    g.payload.length)

/-- The header word with its HEC. -/
def segWord (g : Seg) : BitVec 64 := BitVec.ofNat 64 (segHeader g * 65536 + crc16 (beBytes 6 (segHeader g)))

/-- Payload bytes past LEN are sent as 0 (R102). -/
def segPayload (g : Seg) : Bytes := g.payload ++ List.replicate (120 - g.payload.length) 0

/-- A received header and payload as a segment; none where it is malformed (R102). -/
def parseSeg (h : BitVec 64) (payload : Bytes) : Option Seg :=
  let x := h.toNat
  let len := bits x 22 16
  let l := bit x 49
  if crc16 (beBytes 6 (x / 65536)) ≠ bits x 15 0 ∨ 4 < bits x 55 53 ∨ bits x 48 47 = 3 ∨ len = 0 ∨ 120 < len ∨ (!l ∧ len ≠ 120)
  then none
  else some { tun := bits x 63 56, cls := bits x 55 53, gen := bits x 52 51, first := bit x 50, last := l, col := bits x 48 47,
              seq := bits x 46 36, line := bits x 35 23, payload := payload.take len }

/-- Cut a unit into segments (R101, R103); only tunnel, flags and payload are set. `fuel` bounds the segments. -/
def cutUnit (n : Nat) : Nat → Bool → Bytes → List Seg
  | 0, _, _ => []
  | fuel + 1, first, bs =>
    let seg (l : Bool) (p : Bytes) : Seg :=
      { tun := n, cls := 0, gen := 0, first := first, last := l, col := 0, seq := 0, line := 0, payload := p }
    if bs.length ≤ 120 then [seg true bs] else seg false (bs.take 120) :: cutUnit n fuel false (bs.drop 120)

/-! ### The shared engine of a lane cell (R252) -/

/-- The next pair to be served of those that wait: the other one than last time, where it waits. -/
def enginePick (waiting : List Bool) (last : Bool) : Option Bool := if waiting.contains (!last) then some (!last) else waiting.head?

/-- The engine goes on at its grant's end, at most 1 microsecond after its start: training before control, A and B in turn. -/
def engineStep (clock : Nat) (e : Engine) : Engine :=
  if e.grant.isSome && clock < e.since + 1000 then e
  else match enginePick e.train e.lastTrain with
    | some b => { e with train := e.train.erase b, grant := some (true, b), since := clock, lastTrain := b }
    | none => match enginePick e.control e.lastControl with
      | some b => { e with control := e.control.erase b, grant := some (false, b), since := clock, lastControl := b }
      | none => { e with grant := none }

/-- The engines of the cells at a cycle. -/
def runEngines (s : State) : State :=
  forAll ((s.lc.filter fun e => e.2.engine.grant.isSome).map (·.1)) (fun c t =>
    t.setLane c { (t.lane c) with engine := engineStep t.clock (t.lane c).engine }) s

end Sys2Proof.Machine
end

