-- ==== Sys2Proof/Machine/Link.lean ====
section
/-! DEFINITION. The Canopy link keeper: pairs and modes (R217), keys and records (R234 to R237), units and their release
(R228 to R233), the start of training (R240), and checkpoints (R386, R390). -/

namespace Sys2Proof.Machine

/-! ### Pairs -/

/-- The lane cells of a port, lower first. -/
def portCells (p : Nat) : List Nat := (List.range 32).filter fun c => cellPort c = p

/-- A flex port's share of a bonded group by its PORT record: its cells when it leads one, none when it is absorbed (R15). -/
def groupCells (s : State) (p : Nat) : List Nat :=
  if p < 12 then portCells p
  else match portRecord s p with
    | none => portCells p
    | some r => if byteAt r 1 = 4 ∧ byteAt r 2 = 0 then [] else (List.range (max 1 (byteAt r 3))).map fun k => 12 + p + k

/-- The port that a lane cell serves: a bonded group's lowest (R15). -/
def servedPort (s : State) (c : Nat) : Nat :=
  ((List.range 20).find? fun p => (groupCells s p).contains c).getD (cellPort c)

/-- The hub is the upstream end of a port's Canopy link: a branch port, or a crown port with DOWN set (R217). -/
def isUpEnd (s : State) (p : Nat) : Bool := 2 ≤ p || isDown s p

/-- Whether a pair carries the down direction in a mode (R217). -/
def pairDown (mode : Nat) (isY pairB : Bool) : Bool :=
  match mode with
  | 1 => !pairB || isY
  | 2 => !pairB && !isY
  | _ => !pairB

/-- LC_STAT.DIR of a cell: bit 0, A transmits; bit 1, B transmits. -/
def dirCode (up isY : Bool) (mode : Nat) : Nat :=
  b2n (pairDown mode isY false == up) + 2 * b2n (pairDown mode isY true == up)

/-- A cell is the higher-numbered one of its port. -/
def isY (c : Nat) : Bool := (portCells (cellPort c)).head? ≠ some c

/-- The cells that a port's link uses: not in FAULT, and in single-cell mode the surviving one. -/
def liveCells (s : State) (p : Nat) : List Nat :=
  (portCells p).filter fun c => !(s.lane c).faulted &&
    (match (s.can p).single with | 1 => !isY c | 2 => isY c | _ => true)

/-- A pair transmits. -/
def pairTx (s : State) (c : Nat) (pairB : Bool) : Bool := bit (s.rd (LC_STAT_DIR c)) (b2n pairB)

/-- Lock of a pair. -/
def lockF (c : Nat) (pairB : Bool) : Fld := if pairB then LC_STAT_LOCKB c else LC_STAT_LOCKA c
/-- Inversion of a pair. -/
def invF (c : Nat) (pairB : Bool) : Fld := if pairB then LC_STAT_INVB c else LC_STAT_INVA c
/-- Rank of a pair. -/
def rankF (c : Nat) (pairB : Bool) : Fld := if pairB then LC_STAT_RANKB c else LC_STAT_RANKA c
/-- LOS of a pair. -/
def losF (c : Nat) (pairB : Bool) : Fld := if pairB then LC_STAT_LOSB c else LC_STAT_LOSA c

/-- The receive pairs of some cells. -/
def rxPairs (s : State) (cs : List Nat) : List (Nat × Bool) :=
  (cs.flatMap fun c => [(c, false), (c, true)]).filter fun e => !pairTx s e.1 e.2

/-- Give the cells of a port the pair directions of a mode. -/
def setDirs (p mode : Nat) (s : State) : State :=
  forAll (portCells p) (fun c t => t.wr (LC_STAT_DIR c) (dirCode (isUpEnd s p) (isY c) mode)) s

/-- SYS_ID as the CAPS carry it: VENDOR and DEVICE (R222). -/
def deviceId (s : State) : Nat :=
  if fuseFault s then 0 else match bits (s.rd FUSE_VAR_V) 3 0 with | 1 => 0x9648 | 2 => 0x9632 | 3 => 0x9616 | _ => 0

/-- The hub's own CAPS parts (R222), by CAN_CTL as it stands. -/
def ownCaps (s : State) (p : Nat) : List Nat :=
  [2 ^ 32 + b2n (!isUpEnd s p) * 2 ^ 31 + (if p < 2 then 1 else 2) * 2 ^ 29 + s.rd (CAN_CTL_ASYM p) * 2 ^ 27 +
     s.rd (CAN_CTL_TIME p) * 2 ^ 26 + s.rd (CAN_CTL_KMAX p) * 2 ^ 19,
   s.rd SYS_ID_VENDOR * 65536 + deviceId s, s.rd (FUSE_UID_V 0), s.rd (FUSE_UID_V 1)]

/-- A port starts training as a Canopy link: step 1 of R240, pairs symmetric, or single-cell with a cell in FAULT (R219). The settings of CAN_CTL
that the training goes by are those of now (R218, R246). -/
def startCanopy (p : Nat) (s : State) : State :=
  let bad := (portCells p).filter fun c => (s.lane c).faulted
  let sg := match bad with | [] => 0 | c :: _ => if isY c then 1 else 2
  let s := s.setCan p { (s.can p) with single := sg, own := ownCaps s p, wants := s.rd (CAN_CTL_PREF p) }
  let live := liveCells s p
  if live = [] then s
  else
    let t := s.wrs [(CAN_STAT_STATE p, 1), (CAN_STAT_MODE p, if sg = 0 then 0 else 3), (CAN_STAT_ROLE p, b2n (isUpEnd s p))]
    forAll live (fun c u => (u.wrs [(LC_STAT_STATE c, 1), (LC_STAT_RATE c, 0x10), (LC_STAT_ORIENT c, b2n (u.can p).flip),
      (lockF c false, 0), (lockF c true, 0)]).setLane c { (u.lane c) with lockA := false, lockB := false, ts2 := false, turnA := false, turnB := false, runA := 0, runB := 0 })
      (setDirs p (if sg = 0 then 0 else 3) t)

/-- The 16 groups of a training sequence (R257): MARK, INFO, SEED, COUNT and FILL. -/
def trainingGroups (ts2 : Bool) (info seed count : Nat) : List Nat :=
  [if ts2 then 2177 else 2176, info, bits seed 30 20, bits seed 19 9, 4 * bits seed 8 0, count] ++ (List.range 10).map fun n => 2048 + 13 * n

/-- The transmit pairs of some cells. -/
def txPairs (s : State) (cs : List Nat) : List (Nat × Bool) :=
  (cs.flatMap fun c => [(c, false), (c, true)]).filter fun e => pairTx s e.1 e.2

/-- INFO of a transmit pair (R257): its rank among the port's, its direction, LOCK, SINGLE and the transmit preset. -/
def trainingInfo (s : State) (p : Nat) (e : Nat × Bool) (lock : Bool) : Nat :=
  ((txPairs s (liveCells s p)).findIdx (· == e)) * 512 + b2n (!isUpEnd s p) * 256 + b2n lock * 128 + b2n ((s.can p).single ≠ 0) * 64 +
    s.rd (if e.2 then LC_CTL_TXPB e.1 else LC_CTL_TXPA e.1)

/-- Send training sequences on some transmit pairs of a port: TS1, as a record that stands for as many as the state lasts, or the 16 TS2 with
COUNT 15 to 0 (R257, R259). The spec gives no seed but that it is not 0. -/
def sendTraining (p : Nat) (ts2 lock : Bool) (pairs : List (Nat × Bool)) (s : State) : State :=
  forAll pairs (fun e t =>
    let (x, t) := t.free
    let send (count : Nat) (u : State) : State :=
      u.emit (.can p (if ts2 then "TS2" else "TS1") (e.1 :: b2n e.2 :: trainingGroups ts2 (trainingInfo u p e lock) (x % (2 ^ 31 - 1) + 1) count))
    if ts2 then forAll ((List.range 16).map (15 - ·)) send t else send 0 t) s

/-! ### A fenced grove's keepers -/

/-- A grove that a takeover has fenced and whose positions are not yet attached to GF (R145, R391). -/
def awaitsRemap (s : State) : Option Nat := if s.rd RST_FLTSTAT_SEQ = 4 then gfFor s else none

/-- The port's grove is fenced: its keepers let no CREDIT, LGRANT or RACK advance and a retrain that is asked for wait (R267). -/
def portFenced (s : State) (p : Nat) : Bool := awaitsRemap s = some (portGrove p)

/-! ### Keys and records -/

/-- ASCII bytes of a label. -/
def ascii (x : String) : Bytes := x.toList.map fun c => BitVec.ofNat 8 c.toNat

/-- The key, the salt and the next secret of a traffic secret (R236, R237). -/
def keyOf (sec : Bytes) : Bytes := Config.hkdfExpand sec (ascii "key") 32
def saltOf (sec : Bytes) : Bytes := Config.hkdfExpand sec (ascii "salt") 4
def nextOf (sec : Bytes) : Bytes := Config.hkdfExpand sec (ascii "next") 48

/-- The tag of a record: AES-256-GCM under SALT and RECNO, no additional data (R235). -/
def recordTag (sec record : Bytes) (recno : Nat) : Nat :=
  beNat (slice (Config.gcmSeal (keyOf sec) (saltOf sec ++ beBytes 8 recno) [] record).2 0 16)

/-- The 128 bytes of a segment. -/
def segBytes (g : Seg) : Bytes := beBytes 8 (segWord g).toNat ++ segPayload g

/-- AES-256-GCM's keystream for a record: what it makes of zeros (R235). -/
def keyStream (sec : Bytes) (recno n : Nat) : Bytes :=
  (Config.gcmSeal (keyOf sec) (saltOf sec ++ beBytes 8 recno) [] (List.replicate n 0)).1

/-- Bytes at a position of a record under its keystream: the ciphertext of plaintext, and the plaintext of ciphertext (R235). -/
def cipher (sec : Bytes) (recno pos : Nat) (data : Bytes) : Bytes :=
  let k := keyStream sec recno (pos + data.length)
  data.mapIdx fun i b => b ^^^ k.getD (pos + i) 0

/-- A segment's payload as the link carries it: its header in clear, its 120 bytes at its place in its record (R235). -/
def wirePayload (sec : Bytes) (recno place : Nat) (g : Seg) : Bytes := cipher sec recno (128 * place + 8) (segPayload g)

/-- The switch to the next transmit epoch, at unit L once it is acknowledged (R237). -/
def switchTx (p : Nat) (s : State) : State :=
  let c := s.can p
  if c.upd = some c.lunTx ∧ c.updAck then
    (s.setCan p { c with oldTx := some (c.lunTx, c.secTx), secTx := nextOf c.secTx, txRecno := 0, epochAt := s.clock, upd := none, updAck := false }).incMod
      (CAN_STAT_TXEP p)
  else s

/-- Close the open transmit record with its tag unit (R234). -/
def closeRecord (p : Nat) (s : State) : State :=
  let c := s.can p
  let e := s.rd (CAN_STAT_TXEP p)
  let tag := recordTag c.secTx c.txRec c.txRecno
  let t := s.setCan p { c with lunTx := (c.lunTx + 1) % 65536, txSegs := 0, txRec := [], txRecno := c.txRecno + 1
                               retry := c.retry ++ [{ lun := c.lunTx, seg := none, tag := tag, epoch := e, recno := c.txRecno, place := 0 }] }
  switchTx p (t.emit (.can p "TAG" [e % 2, c.txRecno % 32768, tag]))

/-- The next unit to send is L - 1 of an announced update. -/
def beforeSwitch (c : Can) : Bool := match c.upd with | none => false | some l => (c.lunTx + 1) % 65536 = l

/-- Close the open record where its 512th segment has gone out, or where unit L - 1 is due (R234, R237). -/
def closeDue (p : Nat) (s : State) : State :=
  if 512 ≤ (s.can p).txSegs || beforeSwitch (s.can p) then closeRecord p s else s

/-- A segment goes out on a Canopy link: numbered, recorded, encrypted, and kept for retry (R228, R234, R235). A 512th segment whose tag is unit
L - 2 leaves unit L - 1 to the tag of an empty record (log entry 111). -/
def sendLink (p : Nat) (g : Seg) (s : State) : State :=
  let c := s.can p
  let u : LUnit := { lun := c.lunTx, seg := some g, tag := 0, epoch := s.rd (CAN_STAT_TXEP p), recno := c.txRecno, place := c.txSegs }
  let t := s.setCan p { c with lunTx := (c.lunTx + 1) % 65536, txSegs := c.txSegs + 1, txRec := c.txRec ++ segBytes g, retry := c.retry ++ [u] }
  let t := t.emit (.segment p (segWord g) (wirePayload c.secTx c.txRecno c.txSegs g))
  closeDue p (closeDue p t)

/-- The sender waits with IDLE words for a KACK at unit L (R237). -/
def linkWaits (s : State) (p : Nat) : Bool := (s.can p).upd = some (s.can p).lunTx

/-! ### Release -/

/-- Drop retained segments by (TUN, SEQ). -/
def dropKept (l : List (Nat × Nat)) (s : State) : State :=
  let drop (x : Inter) : Inter := { x with kept := x.kept.filter fun k => !l.contains (k.2.tun, k.2.seq) }
  let m := (mmap (fun _ x => drop x) s.fb.inter).filter fun e => e.2 ≠ {}
  { s with fb := { s.fb with inter := m } }

/-- A unit stands in a port's retry state. -/
def unreleased (s : State) (p lun : Nat) : Bool := (s.can p).retry.any fun u => u.lun = lun

/-- Release a port's covered segments that owe no RACK (R233, R389). -/
def settleOwed (p : Nat) (s : State) : State :=
  let e := s.eg p
  let free := e.owed.filter fun x => !canActive s p || !unreleased s p x.2.2
  dropKept (free.map fun x => (x.1, x.2.1)) (s.setEg p { e with owed := e.owed.filter fun x => canActive s p && unreleased s p x.2.2 })

/-- Release every unit before `m` (R230); the old transmit key goes once unit L - 1 is covered (R237). -/
def releaseTo (p m : Nat) (s : State) : State :=
  let c := s.can p
  let n := (m + 65536 - c.lunOld) % 65536
  let gone (u : LUnit) : Bool := (u.lun + 65536 - c.lunOld) % 65536 < n
  let old := match c.oldTx with | none => none | some (l, k) => if (l + 65536 - c.lunOld) % 65536 ≤ n then none else some (l, k)
  settleOwed p (s.setCan p { c with lunOld := m, retry := c.retry.filter fun u => !gone u, oldTx := old })

/-- The traffic secret of a kept unit's epoch: the current one's, or the one kept for replays (R237). -/
def unitSecret (s : State) (p : Nat) (u : LUnit) : Bytes :=
  if u.epoch = s.rd (CAN_STAT_TXEP p) then (s.can p).secTx else match (s.can p).oldTx with | none => [] | some o => o.2

/-- Send a kept unit again, byte for byte: a segment is encrypted again at its recorded place (R228, R230, R233). -/
def resend (p : Nat) (u : LUnit) (s : State) : State :=
  match u.seg with
  | some g => s.emit (.segment p (segWord g) (wirePayload (unitSecret s p u) u.recno u.place g))
  | none => s.emit (.can p "TAG" [u.epoch % 2, u.recno % 32768, u.tag])

/-! ### Errors and retry at the receiver -/

/-- Send an RNAK with the expected LUN and count it. -/
def sendRnak (p : Nat) (s : State) : State := (s.emit (.can p "RNAK" [(s.can p).lunRx])).inc (CAN_ERR_RNAKTX p)

/-- An error of R229: discard until the RESUME. -/
def linkError (p : Nat) (s : State) : State :=
  if !canActive s p || (s.can p).discarding then s
  else sendRnak p (s.setCan p { (s.can p) with discarding := true })

/-! ### Checkpoints -/

/-- The ports of a grove. -/
def grovePorts (g : Nat) : List Nat := (List.range 20).filter fun p => portGrove p = g

/-- The grove whose state a grove's checkpoint holds: GF uses the place of the grove it stands in for (R386). -/
def ckGrove (s : State) (g : Nat) : Option Nat := if g < 8 then some g else gfFor s

/-- KiB that a cell's hold buffer holds. -/
def holdKib (x : Lane) : Nat := ceilDiv ((x.hold.map (·.bytes)).sum) 1024

/-- Cells whose hold buffer exists: 480 KiB in LC0, LC1, LC4, LC5, 64 KiB in LC24 to LC31. -/
def holdSize (c : Nat) : Nat := if [0, 1, 4, 5].contains c then 480 else if 24 ≤ c then 64 else 0

/-- Where a hold buffer stops inflow, and where it lets it go on, in KiB (R264): an Ethernet keeper pauses at 52 and goes on at 40; USB4 and USB
3.2 return credit only for free room. -/
def holdStop (s : State) (p c : Nat) : Nat := if [2, 3, 4].contains (s.rd (ADP_STAT_PERS p)) then 52 else holdSize c
def holdGo (s : State) (p c : Nat) : Nat := if [2, 3, 4].contains (s.rd (ADP_STAT_PERS p)) then 40 else holdSize c - 1

/-- A unit that a port receives is recorded in its first hold buffer in service (R265, R395). -/
def holdUnit (p bytes : Nat) (s : State) : State :=
  match (groupCells s p).find? fun c => holdSize c ≠ 0 && !(s.lane c).faulted with
  | none => s
  | some c =>
    let x := s.lane c
    let y : Lane := { x with hold := x.hold ++ [{ number := x.arrivals, bytes := bytes, captured := false }], arrivals := x.arrivals + 1 }
    let t := (s.setLane c y).wr (LC_HOLD_USED c) (holdKib y)
    let t := if t.rd (LC_HOLD_PEAK c) < holdKib y then t.wr (LC_HOLD_PEAK c) (holdKib y) else t
    if !x.stopped ∧ holdStop s p c ≤ holdKib y then raise (32 + c) 6 ((t.setLane c { y with stopped := true }).inc (LC_HOLD_STOPS c)) else t

end Sys2Proof.Machine
end

