-- ==== Sys2Proof/Machine/Fabric.lean ====
section
/-! DEFINITION. Ingress (R21, R104), meters and shapers (R193 to R196), the two-stage fabric (R127 to R145), the
partitions, push-out and spill (R153 to R161), and what a flush clears (R167, R169). -/

namespace Sys2Proof.Machine

/-! ### Positions -/

/-- The position is fenced (R145). -/
def fenced (s : State) (o : Nat) : Bool := bit (s.rd FAB_STATUS_FENCE) o

/-- The entry of a stream: a tunnel's own, or that of the management tunnel on which the agent at F19 sends, as stream 256 + n (R127). -/
def entryOf (n : Nat) : Nat := n % 256

/-- A stream is established. -/
def streamLive (s : State) (n : Nat) : Bool := tunActive s (entryOf n)

/-- Where a stream's segments enter the fabric, and where they leave it: what the agent sends on TUN0 and TUN1 leaves at P0 and P1, on a child's
management tunnel with the tunnel (R70, R127). -/
def inPosOf (s : State) (n : Nat) : Nat := if 256 ≤ n then 19 else s.rd (TT_ENDP_INFAB n)
def outPosOf (s : State) (n : Nat) : Nat :=
  if 256 ≤ n ∧ entryOf n < 2 then fabOf (entryOf n) else s.rd (TT_ENDP_OUTFAB (entryOf n))

/-- A time tunnel crosses the fabric twice, by way of F19 (R130). -/
def twoPass (s : State) (n : Nat) : Bool := n < 256 && s.rd (TT_STATE_KIND n) = 4

/-- The class whose path a stream takes (R130). -/
def clsOf (s : State) (n : Nat) : Nat := s.rd (TT_STATE_CLS (entryOf n))

/-- The tunnel is on the bulk path: C2 or C3. -/
def isBulk (s : State) (n : Nat) : Bool := clsOf s n = 2 || clsOf s n = 3

/-- The egress port and the ingress port of a stream. -/
def outPortOf (s : State) (n : Nat) : Nat := if 256 ≤ n ∧ entryOf n < 2 then entryOf n else s.rd (TT_ENDP_OUTPORT (entryOf n))
def inPortOf (s : State) (n : Nat) : Nat := s.rd (TT_ENDP_INPORT n)

/-- The reference rate of a tunnel in Mb/s: its upstream crown link in its direction (R109). -/
def refRate (s : State) (n : Nat) : Nat :=
  let up := s.on (TT_STATE_DIR n)
  let crown := if up then outPortOf s n else inPortOf s n
  match mfind s.sv.att crown with
  | none => 0
  | some q => if up then q.txMbps else q.rxMbps

/-! ### Meters (R195) and shapers (R193) -/

/-- One byte in the buckets' unit: at `u` units of a link of `r` Mb/s a bucket gains u * r of it each nanosecond. -/
def byteUnit : Nat := 8192000

/-- The committed and the peak bucket of a tunnel, brought up to date (R195). -/
def bucketsNow (s : State) (n : Nat) : Nat × Nat :=
  let f := s.flow n
  let dt := s.clock - f.meterAt
  let r := refRate s n
  (min (s.rd (TT_CBS_CBS n) * byteUnit) (f.tc + s.rd (TT_METER_CIR n) * r * dt),
   min (s.rd (TT_PBS_PBS n) * byteUnit) (f.tp + s.rd (TT_METER_PIR n) * r * dt))

/-- Bring a tunnel's meter buckets up to date and mark a segment of `len` bytes: the two-rate three-colour marker of
RFC 2698, given the pre-colour (0 in colour-blind operation). -/
def meter (n len pre : Nat) (s : State) : Nat × State :=
  let f := s.flow n
  let tc := (bucketsNow s n).1
  let tp := (bucketsNow s n).2
  let b := len * byteUnit
  let aware := s.on (TT_METER_CAWARE n)
  let pc := if aware then pre else 0
  if pc = 2 ∨ tp < b then (2, s.setFlow n { f with tc := tc, tp := tp, meterAt := s.clock })
  else if pc = 1 ∨ tc < b then (1, s.setFlow n { f with tc := tc, tp := tp - b, meterAt := s.clock })
  else (0, s.setFlow n { f with tc := tc - b, tp := tp - b, meterAt := s.clock })

/-- Bring a tunnel's shaper credit up to date (R193). -/
def creditNow (s : State) (n : Nat) : Int :=
  let f := s.flow n
  min (s.rd (TT_SHAPE_BURST n) * byteUnit : Nat) (f.credit + (s.rd (TT_ALLOT_ACT n) * refRate s n * (s.clock - f.creditAt) : Nat))

/-- Flow state of a tunnel that becomes ACTIVE: no credit, full buckets (R193, R195). -/
def startFlow (n : Nat) (s : State) : State :=
  s.setFlow n { (s.flow n) with credit := 0, creditAt := s.clock, tc := s.rd (TT_CBS_CBS n) * byteUnit,
                                tp := s.rd (TT_PBS_PBS n) * byteUnit, meterAt := s.clock, deficit := 0, inDef := 0, winlo := 0, lastRet := 0,
                                mid := 0, second := 0 }

/-! ### Ingress (R21, R99, R104, R164) -/

/-- The lead line at this instant (R104, R179). -/
def leadLine (s : State) : Nat := s.sc.lpos / 2 ^ 32

/-- The base of the cascade home block of a port whose Canopy link carries a child hub (R99). -/
def cascadeBase (s : State) (p : Nat) : Option Nat :=
  if !(p < 8 && canActive s p) then none
  else match (homes s).find? fun e => e.1.port = p && e.1.kind = 6 with
    | some (_, h) => h
    | none => none

/-- The hub's number for a TUN received on a port: a cascade port's child numbering is rewritten (R99). -/
def rewriteIn (s : State) (p t : Nat) : Nat :=
  match cascadeBase s p with
  | none => t
  | some b => if t < 2 then b + 1 else b + t

/-- A TUN received on a cascade port that the child's numbering does not hold (R99). -/
def outsideHome (s : State) (p t : Nat) : Bool := (cascadeBase s p).isSome && 32 ≤ t

/-- The TUN that leaves on a port (R99). -/
def rewriteOut (s : State) (p k : Nat) : Nat :=
  let n := entryOf k
  match cascadeBase s p with
  | none => n
  | some b => if b ≤ n ∧ n < b + 2 then s.rd (TT_ENDP_CHILD n) else if b ≤ n ∧ n < b + 32 then n - b else n

/-- Admit a segment into the ingress store of its tunnel (R104, R195): SEQ, GEN and CLS from the entry, LINE from the lead
raster but for C0, colour from the meter of a C2 or C3 tunnel; cascade segments keep class, colour and flags. -/
def admitSeg (n pre : Nat) (g : Seg) (s : State) : State :=
  let casc := s.on (TT_STATE_CASC n)
  let cls := if casc then g.cls else clsOf s n
  let (col, t) := if isBulk s n && !casc then meter n g.payload.length pre s else (if casc then g.col else 0, s)
  let seg : Seg := { g with tun := n, cls := cls, gen := s.rd (TT_STATE_GEN n), col := col, seq := s.rd (TT_SEQ_INSEQ n)
                            line := if clsOf s n = 0 then g.line else leadLine s }
  ((t.setIngress n (t.ingressQ n ++ [seg])).incMod (TT_SEQ_INSEQ n)).incMod (TT_SEGIN_COUNT n)

/-- A segment that belongs to no established tunnel of the port is discarded and counted (R21). -/
def genDiscard (n : Nat) (s : State) : State := s.inc (TT_DISC_GENDIS n)

/-- Whether the tunnel has a free reserved place (R164). -/
def placeFree (s : State) (n : Nat) : Bool := (s.ingressQ n).length < (if n < 2 then 16 else (s.flow n).places)

/-- A link in a low-power state returns for a unit (R429). -/
def wakeLink (p : Nat) (s : State) : State := if s.rd (ADP_STAT_STATE p) = 3 then s.wr (ADP_STAT_STATE p) 2 else s

/-- A segment of tunnel `n`, in the hub's numbering, arrives at the ingress adapter of a port. While admission is stopped none is admitted
(R473). -/
def ingressSeg (p n pre : Nat) (g : Seg) (s : State) : State :=
  let s := wakeLink p s
  if s.pw.stopped then s
  else if !tunActive s n || g.gen ≠ s.rd (TT_STATE_GEN n) || inPortOf s n ≠ p then genDiscard n s
  else if !placeFree s n then s.inc (GRV_FLST_OVRUN p)
  else admitSeg n pre g s

/-- A unit that the adapter itself cuts into segments arrives for tunnel `n` (R103). -/
def ingressUnit (p n pre line : Nat) (data : Bytes) (s : State) : State :=
  forAll (cutUnit n 80 true data) (fun g t =>
    ingressSeg p n pre { g with tun := n, gen := t.rd (TT_STATE_GEN n), line := line } t) s

/-! ### Spill store bookkeeping (R159, R165, R169) -/

/-- Pages of the page area (R159): the spill store less the reorder area and the reload buffer. -/
def totalPages (s : State) : Nat := s.rd MEM_SPSIZE_SIZE * 32768 - 32 * tunCount (variant s) - 64

/-- The first byte of the spill store, of a place of the page area, and of a slot of the reorder area (R140, R159). -/
def spillBase (s : State) : Nat := s.rd MEM_SPBASE_BASE * 0x8000000
def pageAddr (s : State) (page place : Nat) : Nat := spillBase s + 0x20000 * tunCount (variant s) + 4096 * page + 128 * place
def areaAddr (s : State) (n seq : Nat) : Nat := spillBase s + 0x20000 * n + 128 * (seq % 1024)

/-- A segment is stored whole, header included (R159). -/
def storeSeg (a : Nat) (g : Seg) (s : State) : State := { s with dram := memWrite 0 s.dram a (segBytes g) }

/-- The segments of a spill queue, oldest first. -/
def pageSegs (l : List SPage) : List Seg := l.flatMap (·.segs)

/-- Pages in use for output `o`. -/
def outPages (s : State) (o : Nat) : Nat :=
  ((List.range 20).map fun j => (s.spillQ ((20 * j + o) * 2)).length + (s.spillQ ((20 * j + o) * 2 + 1)).length).sum

/-- Pages in use. -/
def usedPages (s : State) : Nat := (s.fb.spill.map fun e => e.2.length).sum

/-- The lowest free page; which one the memory agent takes the spec does not say (DESIGN CHOICE, log entry 108). -/
def freePage (s : State) : Nat :=
  let used := s.fb.spill.flatMap fun e => e.2.map (·.page)
  ((List.range (used.length + 1)).find? fun k => !used.contains k).getD 0

/-- Append a segment to a spill queue: at the end of its last page, or in a new page of the chain (R159). -/
def appendSpill (k : Nat) (g : Seg) (s : State) : State :=
  let l := s.spillQ k
  match l.getLast? with
  | some e =>
    if e.wrote < 32 then
      storeSeg (pageAddr s e.page e.wrote) g (s.setSpill k (l.dropLast ++ [{ e with wrote := e.wrote + 1, segs := e.segs ++ [g] }]))
    else storeSeg (pageAddr s (freePage s) 0) g (s.setSpill k (l ++ [{ page := freePage s, wrote := 1, segs := [g] }]))
  | none => storeSeg (pageAddr s (freePage s) 0) g (s.setSpill k [{ page := freePage s, wrote := 1, segs := [g] }])

/-- Drop the head of a chain of pages; a page that holds nothing more is free. -/
def popHead : List SPage → List SPage
  | [] => []
  | e :: t => match e.segs with
    | [] => t
    | [_] => t
    | _ :: r => { e with segs := r } :: t

/-- Keep the segments of a chain that satisfy `f`; a page that holds none is free. -/
def keepPages (f : Seg → Bool) (l : List SPage) : List SPage :=
  (l.map fun e => { e with segs := e.segs.filter f }).filter fun e => e.segs ≠ []

/-- Bring MEM_SPUSE of output `o` and MEM_SPSTAT.GLOBAL up to date (R165). -/
def updateSpill (o : Nat) (s : State) : State :=
  let pages := outPages s o
  let q := s.rd (MEM_SPQ_QUOTA o)
  let t := s.wr (MEM_SPUSE_PAGES o) pages
  let t := if q ≤ pages then (if t.on (MEM_SPUSE_HELD o) then t else raise 14 0 (t.wr (MEM_SPUSE_HELD o) 1))
    else if pages ≤ q * 7 / 8 then t.wr (MEM_SPUSE_HELD o) 0 else t
  let free := totalPages t - usedPages t
  if free < max (totalPages t / 16) 8192 then
    (if t.on MEM_SPSTAT_GLOBAL then t else raise 14 1 (t.wr MEM_SPSTAT_GLOBAL 1))
  else if max (totalPages t / 8) 12288 < free then t.wr MEM_SPSTAT_GLOBAL 0 else t

/-- Set MEM_VOID of a (tunnel, GEN) pair from its exact count, in units of 32 rounded up (R175). -/
def setVoid (n g c : Nat) (s : State) : State :=
  let f := match g with | 0 => MEM_VOID_GEN0 n | 1 => MEM_VOID_GEN1 n | 2 => MEM_VOID_GEN2 n | _ => MEM_VOID_GEN3 n
  { (s.wr f (min 255 (ceilDiv c 32))) with fb := { s.fb with voids := mput 0 s.fb.voids (4 * n + g) c } }

/-- Whether a spilled segment belongs to a void pair: a session that is not its tunnel's live one. -/
def isVoid (s : State) (g : Seg) : Bool :=
  g.gen ≠ s.rd (TT_STATE_GEN g.tun) ||
    !(s.rd (TT_STATE_STATE g.tun) = stACTIVE || s.rd (TT_STATE_STATE g.tun) = stTEARING)

/-! ### Partitions (R154 to R158, R172) -/

/-- Cells of partition `j` in service. -/
def cellsInService (s : State) (j : Nat) : Nat := ((List.range 4).filter fun k => bit (s.rd (FAB_PART_INSVC j)) k).length

/-- A partition that has lost three cells is out: its intermediate takes part in no connection (R398). -/
def partitionOut (s : State) (j : Nat) : Bool := cellsInService s j ≤ 1

/-- The guarantee of each output in partition `j`: G, or three quarters of it per retired cell (R172). -/
def guarantee (s : State) (j : Nat) : Nat := s.fb.bulkG * cellsInService s j / 4

/-- The shared pool of partition `j` (R154, R172). -/
def sharedPool (s : State) (j : Nat) : Nat := 2048 * cellsInService s j - 104 - 19 * guarantee s j

/-- A retained segment is bulk. -/
def keptBulk (k : Nat × Seg) : Bool := k.2.cls = 2 || k.2.cls = 3

/-- Bulk occupancy of output `o` in an intermediate; a retained bulk segment keeps its place (R389). -/
def outOcc (x : Inter) (o : Nat) : Nat :=
  (mget [] x.bulk (2 * o)).length + (mget [] x.bulk (2 * o + 1)).length + (x.kept.filter fun k => k.1 = o && keptBulk k).length

/-- Places reserved for output `o`: inputs whose last mask accepts it (R155). -/
def reserved (x : Inter) (o : Nat) : Nat := (x.mask.filter fun e => bit e.2 o).length

/-- Places of the shared pool in use; a retained express segment takes one (R389). -/
def sharedUsed (x : Inter) (g : Nat) : Nat :=
  ((List.range 20).map fun o => outOcc x o + reserved x o - g).sum + (x.spillWrite.length - 64) +
    (x.kept.filter fun k => !keptBulk k).length

/-- The places of a partition in use (FAB_PART_j.OCC, R173). -/
def partOcc (x : Inter) : Nat :=
  (x.express.map fun e => e.2.length).sum + (x.bulk.map fun e => e.2.length).sum + x.spillWrite.length + x.kept.length

/-- A queue of output `o` is spilled (R158). -/
def outSpilled (x : Inter) (o : Nat) : Bool := x.spilled.contains (2 * o) || x.spilled.contains (2 * o + 1)

/-- The spill-write queue with the places of reserved arrivals that may go straight to it, so that it never exceeds 2,048 (R154, R158; DEDUCED, log
entry 107). -/
def spillClaim (x : Inter) : Nat :=
  x.spillWrite.length + (((List.range 18).filter (outSpilled x)).map fun o => reserved x o).sum

/-- The ACCEPT mask that partition `j` sets for its next meeting with an input, whose own reservation has lapsed: it
reserves for each output in turn (R155). A shared place counts as free only while more than 512 are free (R389); an output with a spilled queue
gets a place only while the spill-write queue has one too. -/
def acceptMask (s : State) (j : Nat) (x : Inter) : Nat :=
  let g := guarantee s j
  let pool := sharedPool s j
  ((List.range 18).foldl (fun (acc : Nat × Nat × Nat) o =>
      let have_ := outOcc x o + reserved x o
      let sp := b2n (outSpilled x o)
      if fenced s o || (outSpilled x o && 2048 ≤ acc.2.2) then acc
      else if have_ < g then (acc.1 + 2 ^ o, acc.2.1, acc.2.2 + sp)
      else if have_ < s.fb.bulkCap ∧ acc.2.1 + 512 < pool then (acc.1 + 2 ^ o, acc.2.1 + 1, acc.2.2 + sp)
      else acc) (0, sharedUsed x g, spillClaim x)).1

/-- The bulk queue of an output that a segment joins: 1 for C3, 0 otherwise. -/
def bulkIx (g : Seg) : Nat := if g.cls = 3 then 1 else 0

/-- The rank of a segment as a victim of an arrival of class `c` (R157): lower goes first; none where not eligible. -/
def victimRank (c : Nat) (q : QSeg) : Option Nat :=
  if q.spilt || q.seg.cls ≤ c then none else some ((2 - q.seg.col) * 2 + (if q.seg.cls = 3 then 0 else 1))

/-- The victim in a queue pair, each queue in order of arrival: least rank, then the last (R157). -/
def pickVictim (c : Nat) (l : List QSeg) : Option QSeg :=
  l.foldl (fun best q =>
    match victimRank c q, best with
    | none, _ => best
    | some _, none => some q
    | some r, some b =>
      match victimRank c b with
      | none => some q
      | some rb => if r ≤ rb then some q else best) none

/-- Remove the last occurrence of an element. -/
def eraseLast {α : Type} [DecidableEq α] (l : List α) (x : α) : List α := ((l.reverse).erase x).reverse

/-- The drain line of queue (j, o, c) is high: its spill queue is not empty (R158). -/
def drainHigh (s : State) (j key : Nat) : Bool := s.spillQ (40 * j + key) ≠ []

/-- The spill-write queue of an intermediate holds a segment of the queue. -/
def writeHolds (s : State) (x : Inter) (key : Nat) : Bool := x.spillWrite.any fun w => 2 * outPosOf s w.seg.tun + bulkIx w.seg = key

/-- A bulk segment joins its queue, and a victim may be pushed out (R156, R157). The queue stops being spilled if nothing of it is left on the way
to the memory agent or there (R158). -/
def joinBulk (j o : Nat) (q : QSeg) (s : State) : State :=
  let x := s.inter j
  let key := 2 * o + bulkIx q.seg
  let done := !drainHigh s j key && !writeHolds s x key
  let x := { x with spilled := if done then x.spilled.filter (· ≠ key) else x.spilled, bulk := mput [] x.bulk key (mget [] x.bulk key ++ [q]) }
  let both := mget [] x.bulk (2 * o) ++ mget [] x.bulk (2 * o + 1)
  match (if guarantee s j < outOcc x o then pickVictim q.seg.cls both else none) with
  | none => s.setInter j x
  | some v =>
    let vk := 2 * o + bulkIx v.seg
    let y := { x with spilled := vk :: x.spilled.filter (· ≠ vk) }
    if 2048 ≤ spillClaim y then s.setInter j x
    else raise 14 3 (s.setInter j { y with bulk := mput [] x.bulk vk (eraseLast (mget [] x.bulk vk) v), spillWrite := x.spillWrite ++ [v] })

/-- A bulk segment arrives from an input at intermediate `j` for output `o`: into the spill-write queue behind what has spilled, else into its
queue (R156 to R158). -/
def bulkArrive (j o : Nat) (q : QSeg) (s : State) : State :=
  let x := s.inter j
  let key := 2 * o + bulkIx q.seg
  if x.spilled.contains key && (drainHigh s j key || writeHolds s x key) then s.setInter j { x with spillWrite := x.spillWrite ++ [q] }
  else joinBulk j o q s

/-! ### Output: resequencing and hand-over (R140, R162, R163) -/

/-- Segments that wait in the transmit queues of a port: of the express classes, or of one bulk class. -/
def txCount (s : State) (p : Nat) (bulk : Bool) (c : Nat) : Nat :=
  (s.fb.txq.map fun e => (e.2.filter fun g => outPortOf s e.1 = p && (if bulk then g.cls = c else (g.cls < 2 || g.cls = 4))).length).sum

/-- Whether the egress adapter takes a segment now: express always, bulk while its class has one of 16 places (R162). -/
def adapterTakes (s : State) (g : Seg) : Bool := !isBulk s g.tun || txCount s (outPortOf s g.tun) true g.cls < 16

/-- The SEQ expected next of a stream at an output: OUTSEQ, or a count of its own at the first pass of a time tunnel and on the M return path
(R127, R130, R140). -/
def expected (s : State) (o n : Nat) : Nat :=
  if 256 ≤ n || (o = 19 && twoPass s n) then (s.flow n).mid else s.rd (TT_SEQ_OUTSEQ n)

/-- The expected SEQ advances by one. -/
def advanceSeq (o n : Nat) (s : State) : State :=
  if 256 ≤ n || (o = 19 && twoPass s n) then s.setFlow n { (s.flow n) with mid := ((s.flow n).mid + 1) % 2048 } else s.incMod (TT_SEQ_OUTSEQ n)

/-- A port whose units are packets that egress puts together again: not Canopy, USB4 or a display stream (R143). -/
def packetEgress (s : State) (p n : Nat) : Bool :=
  !(p < 8 && (s.rd (CAN_STAT_STATE p) = 4 || s.rd (CAN_STAT_STATE p) = 5)) && s.rd (TT_STATE_KIND (entryOf n)) ≠ 0

/-- The payload rate of a port's link in Mb/s: what it sends, and what it receives. -/
def portTx (s : State) (p : Nat) : Nat := match mfind s.sv.att p with | none => 0 | some q => q.txMbps
def portRx (s : State) (p : Nat) : Nat := match mfind s.sv.att p with | none => 0 | some q => q.rxMbps

/-- A unit of a stream starts cut-through at a port as its F segment leaves the resequencer (R143): no unit is being transmitted and no whole one
waits, the port is not faster than the ingress, nothing of the tunnel lies in the reorder area, and the port neither stores and forwards nor is in
backoff. -/
def cutsThrough (s : State) (p n : Nat) : Bool :=
  packetEgress s p n && (s.eg p).ct.isNone && (s.eg p).ctMark.isNone &&
  !(s.fb.txq.any fun e => outPortOf s e.1 = p && e.2.any (·.last)) &&
  portTx s p ≤ portRx s (inPortOf s n) &&
  !((s.outPos (outPosOf s n)).parked.any fun q => q.area && q.seg.tun = n) &&
  !bit (s.rd FAB_CTCTL_SAF) (outPosOf s n) && !(s.eg p).backoff

/-- The egress adapter of a port takes a segment; an F segment is judged for cut-through (R143). -/
def toAdapter (p : Nat) (g : Seg) (s : State) : State :=
  let t := if g.first && cutsThrough s p g.tun then s.setEg p { (s.eg p) with ctMark := some g.tun } else s
  t.setTx g.tun (t.tx g.tun ++ [g])

/-- A segment of a time tunnel waits at F19 for its second pass, numbered by that pass's own count (R130). -/
def toSecond (n : Nat) (g : Seg) (s : State) : State :=
  let f := s.flow n
  (s.setFlow n { f with second := (f.second + 1) % 2048 }).setSecond n (s.secondQ n ++ [{ g with seq := f.second }])

/-- Hand a segment over at its output: the expected SEQ advances and the position counts it; an express segment that finds 64 express places
taken is discarded (R140, R151, R163). At F19 a time tunnel's segment waits for its second pass and a management message goes to the agent
(R127, R130). -/
def handOver (o : Nat) (g : Seg) (s : State) : State :=
  let n := g.tun
  let p := outPortOf s n
  let t := (advanceSeq o n s).incMod (FAB_OUTSEG_COUNT o)
  if o = 19 ∧ twoPass s n then toSecond n g t
  else if o = 19 then { t with mg := { t.mg with inbox := t.mg.inbox ++ [(n, segPayload g)] } }
  else if !isBulk t n ∧ 64 ≤ txCount t p false 0 then dropKept [(n, g.seq)] (t.inc (GRV_FLST_XDISC p))
  else toAdapter p g t

/-- Queue a RETURN once OUTSEQ has advanced by 64 since the last one (R141). -/
def maybeReturn (o n : Nat) (s : State) : State :=
  if isBulk s n ∧ 64 ≤ (s.rd (TT_SEQ_OUTSEQ n) + 2048 - (s.flow n).lastRet) % 2048 then
    let x := s.outPos o
    (s.setOutPos o { x with retq := x.retq.filter (· ≠ n) ++ [n] }).setFlow n { (s.flow n) with lastRet := s.rd (TT_SEQ_OUTSEQ n) }
  else s

/-- Parked segments of stream `n` that are now next pass in turn (R140); `fuel` bounds how many. -/
def unpark (o n : Nat) : Nat → State → State
  | 0, s => s
  | fuel + 1, s =>
    let x := s.outPos o
    match x.parked.find? fun q => q.seg.tun = n && q.seg.seq = expected s o n with
    | none => s
    | some q =>
      if !adapterTakes s q.seg then s
      else unpark o n fuel (maybeReturn o n (handOver o q.seg (s.setOutPos o { x with parked := x.parked.erase q })))

/-- Places of a port's transmit queues have become free: what is parked for them passes in turn (R162, R170). -/
def unparkPort (p : Nat) (s : State) : State :=
  let o := fabOf p
  forAll (((s.outPos o).parked.map (·.seg.tun)).eraseDups.filter fun n => outPortOf s n = p) (fun n t => unpark o n 1024 t) s

/-- Park a segment: in the express or bulk part of the store, or in its slot of the reorder area when the bulk part is full (R140). -/
def park (o : Nat) (g : Seg) (s : State) : State :=
  let x := s.outPos o
  let inStore := (x.parked.filter fun q => !q.area && isBulk s q.seg.tun).length
  let area := isBulk s g.tun && 224 ≤ inStore
  let t := s.setOutPos o { x with parked := x.parked ++ [{ seg := g, area := area }] }
  let used := ((t.outPos o).parked.filter fun q => !q.area).length
  if area then raise 13 4 ((storeSeg (areaAddr t g.tun g.seq) g t).inc (FAB_PARK_AREA o))
  else if t.rd (FAB_PARK_PEAK o) < used then t.wr (FAB_PARK_PEAK o) used else t

/-- The time agent adds a unit of its own to a time tunnel (R365, R370). -/
def agentUnit (n : Nat) (data : Bytes) (s : State) : State :=
  forAll (cutUnit n 80 true data) (fun g t =>
    toSecond n { g with cls := clsOf t n, gen := t.rd (TT_STATE_GEN n), line := leadLine t } t) s

/-- The 120 bytes of a management message (R81). -/
def mgmtBytes (op tag status : Nat) (count : Nat) (addr : Word) (data : Words) : Bytes :=
  let b := [BitVec.ofNat 8 op, BitVec.ofNat 8 tag, BitVec.ofNat 8 status, BitVec.ofNat 8 count] ++ leBytes 4 addr.toNat ++ wordsBytes data
  b ++ List.replicate (120 - b.length) 0

/-- The management agent sends a message on a management tunnel: it enters the fabric at F19 as the M return path (R81, R127). -/
def agentMessage (n : Nat) (payload : Bytes) (s : State) : State :=
  let k := 256 + n
  if !tunActive s n then s
  else toSecond k { tun := k, cls := 4, gen := s.rd (TT_STATE_GEN n), first := true, last := true, col := 0, seq := 0, line := leadLine s,
                    payload := payload } s

/-- A segment arrives at output position `o` (R140). -/
def outArrive (o : Nat) (g : Seg) (s : State) : State :=
  let n := g.tun
  let d := (g.seq + 2048 - expected s o n) % 2048
  if 1024 ≤ d then s
  else if d = 0 ∧ adapterTakes s g then unpark o n 1024 (maybeReturn o n (handOver o g s))
  else if (s.outPos o).parked.any fun q => q.seg.tun = n && q.seg.seq = g.seq then s
  else park o g s

/-! ### One slot (R128, R136, R137) -/

/-- The express map's output for position `i` in phase `t`, from the active bank (R131, R150). -/
def mapEntry (s : State) (i t : Nat) : Option Nat :=
  let w := if s.on FAB_STATUS_MAPBANK then s.rd (FAB_XMAPB_ENT (4 * i + t / 5)) else s.rd (FAB_XMAPA_ENT (4 * i + t / 5))
  let e := t % 5
  if bit w (6 * e + 5) then some (bits w (6 * e + 4) (6 * e)) else none

/-- Stage two, a forward to F18: the memory agent stores the head of the spill-write queue, or counts it as void (R159,
R169). -/
def toMemoryAgent (j : Nat) (s : State) : State :=
  let x := s.inter j
  match x.spillWrite with
  | [] => s
  | q :: rest =>
    let o := outPosOf s q.seg.tun
    let k := (20 * j + o) * 2 + bulkIx q.seg
    let t := appendSpill k q.seg (s.setInter j { x with spillWrite := rest })
    let t := if isVoid t q.seg then setVoid q.seg.tun q.seg.gen (mget 0 t.fb.voids (4 * q.seg.tun + q.seg.gen) + 1) t else t
    updateSpill o t

/-- Stage two at intermediate `j` in phase `t`: the first it holds for the output, unless the output is fenced (R137); a
forwarded segment stays retained until the next checkpoint after its egress; the agents at F18 and F19 accept at once (R389). -/
def stageTwo (t : Nat) (j : Nat) (s : State) : State :=
  let o := (j + t) % 20
  let keep (g : Seg) : List (Nat × Seg) := if o < 18 then [(o, g)] else []
  if fenced s o || partitionOut s j then s
  else if o = 18 then toMemoryAgent j s
  else
    let x := s.inter j
    match mget [] x.express o with
    | g :: rest => outArrive o g (s.setInter j { x with express := mput [] x.express o rest, kept := x.kept ++ keep g })
    | [] =>
      match mget [] x.bulk (2 * o) with
      | q :: rest => outArrive o q.seg (s.setInter j { x with bulk := mput [] x.bulk (2 * o) rest, kept := x.kept ++ keep q.seg })
      | [] =>
        match mget [] x.bulk (2 * o + 1) with
        | q :: rest => outArrive o q.seg (s.setInter j { x with bulk := mput [] x.bulk (2 * o + 1) rest, kept := x.kept ++ keep q.seg })
        | [] => s

/-! ### The sideband words (R138, R139) -/

/-- Even parity over bits 31:1 in bit 0: the parity of a whole word is then 0. -/
def parityOf (w : Nat) : Nat := ((List.range 32).filter (bit w)).length % 2

/-- A word with its parity bit. -/
def withParity (w : Nat) : Nat := w + parityOf w

/-- ACCEPT: TYPE 0b10 and MASK. -/
def acceptWord (mask : Nat) : Nat := withParity (2 * 2 ^ 30 + mask * 2 ^ 10)

/-- RETURN: TYPE 0b01, DEST, TUN and OUTSEQ; the empty word is 0. -/
def returnWord : Option (Nat × Nat × Nat) → Nat
  | none => 0
  | some (dest, n, q) => withParity (2 ^ 30 + dest * 2 ^ 25 + n * 2 ^ 17 + q * 2 ^ 6)

/-- A word as it arrives: `bad` marks one in which a bit has changed, taken as bit 0 since any one bit fails the parity alike. -/
def arrives (w : Nat) (bad : Bool) : Nat := if bad then w ^^^ 1 else w

/-- The MASK of an ACCEPT that arrives: 0 where it fails parity. -/
def maskOf (w : Nat) : Nat := if parityOf w = 0 ∧ bits w 31 30 = 2 then bits w 29 10 else 0

/-- The DEST, TUN and OUTSEQ of a RETURN that arrives; none where it is empty or fails parity. -/
def returnOf (w : Nat) : Option (Nat × Nat × Nat) :=
  if parityOf w = 0 ∧ bits w 31 30 = 1 then some (bits w 29 25, bits w 24 17, bits w 16 6) else none

/-- A word that fails parity sets SIDEPAR (R139). -/
def checkWord (w : Nat) (s : State) : State := if parityOf w = 0 then s else raise 13 5 s

/-- The reverse sideband of stage two: the output's next RETURN, or an empty word, reaches the intermediate, which keeps one RETURN for each
tunnel (R138, R139). Word 0 is 0. -/
def sidebandTwo (t : Nat) (bad : BitVec 20) (j : Nat) (s : State) : State :=
  let o := (j + t) % 20
  let x := s.outPos o
  let w := arrives (returnWord (x.retq.head?.map fun n => (inPosOf s n, n, s.rd (TT_SEQ_OUTSEQ n)))) (bad.getLsbD o)
  let u := checkWord w (s.setOutPos o { x with retq := x.retq.tail })
  match returnOf w with
  | none => u
  | some r =>
    let y := u.inter j
    u.setInter j { y with rets := y.rets.filter (fun e => e.2.1 ≠ r.2.1) ++ [r] }

/-! ### The grove arbiter (R194) -/

/-- The block of a stream at its input position: its port's adapter; at F19 the management agent and the time agent. -/
def blockOf (s : State) (i n : Nat) : Nat := if i = 19 then (if 256 ≤ n then 20 else 21) else inPortOf s n

/-- The next candidate after the last one served, round robin. -/
def roundRobin (last : Nat) (cands : List Nat) : Option Nat :=
  match cands.find? fun n => last < n with
  | some n => some n
  | none => cands.head?

/-- One pick of a deficit round robin: the last one served goes on while its deficit covers its segment; else the next one, which gains a quantum of
128 bytes, more than any segment. The second component is the deficit after the pick. -/
def drrPick (last : Nat) (deficit len : Nat → Nat) (cands : List Nat) : Option (Nat × Nat) :=
  if cands.contains last && len last ≤ deficit last then some (last, deficit last - len last)
  else (roundRobin last cands).map fun n => (n, deficit n + 128 - len n)

/-- The queue of a stream at input position `i`. -/
def inQueue (s : State) (i n : Nat) : List Seg := if i = 19 then s.secondQ n else s.ingressQ n

/-- LEN of the segment that a stream would present. -/
def headLen (s : State) (i n : Nat) : Nat := match inQueue s i n with | [] => 0 | g :: _ => g.payload.length

/-- What a block offers among candidates of one class: deficit round robin among its tunnels (the level of the block). -/
def blockPick (s : State) (i c : Nat) (cands : List Nat) (b : Nat) : Option (Nat × Nat) :=
  drrPick (mget 0 s.fb.rr (160 + 8 * b + c)) (fun n => (s.flow n).inDef) (headLen s i) (cands.filter fun n => blockOf s i n = b)

/-- A pick: the stream, whether the pass charges its shaper, its class and block, and the deficits that the pick leaves to both. -/
structure Pick where
  n : Nat
  charge : Bool
  cls : Nat
  block : Nat
  tunDef : Nat
  blockDef : Nat
deriving DecidableEq, Repr

/-- The pick among candidates of one class: deficit round robin among the blocks (the level of the grove), each with what it offers. -/
def classPick (s : State) (i c : Nat) (charge : Bool) (cands : List Nat) : Option Pick :=
  let bs := (List.range 22).filter fun b => cands.any fun n => blockOf s i n = b
  let offer (b : Nat) : Option (Nat × Nat) := blockPick s i c cands b
  match drrPick (mget 0 s.fb.rr (8 * i + c)) (fun b => mget 0 s.fb.bdef (8 * b + c)) (fun b => match offer b with | none => 0 | some r => headLen s i r.1) bs with
  | none => none
  | some (b, bd) => (offer b).map fun r => { n := r.1, charge := charge, cls := c, block := b, tunDef := r.2, blockDef := bd }

/-- The class order M, C0, C1, C2, C3. -/
def classOrder : List Nat := [4, 0, 1, 2, 3]

/-- What the arbiter presents among candidate streams: the allotted pass, then the excess pass, each in class order (R194). -/
def arbitrate (s : State) (i : Nat) (cands : List Nat) : Option Pick :=
  let pick (l : List Nat) (charge : Bool) : Option Pick := classOrder.findSome? fun c => classPick s i c charge (l.filter fun n => clsOf s n = c)
  match pick (cands.filter fun n => clsOf s n = 4 || i = 19 || 0 ≤ creditNow s n) true with
  | some r => some r
  | none => pick cands false

/-- The established streams that hold a segment at input position `i`, with the output each goes to now. -/
def waitingAt (s : State) (i : Nat) : List (Nat × Nat) :=
  if i = 19 then (s.fb.second.filter fun e => e.2 ≠ [] && streamLive s e.1).map fun e => (e.1, outPosOf s e.1)
  else ((s.fb.ingress.filter fun e => e.2 ≠ [] && tunActive s e.1 && inPosOf s e.1 = i).map fun e =>
    (e.1, if twoPass s e.1 then 19 else outPosOf s e.1))

/-- Take the presented segment from its queue at position `i`: the deficits are kept while something waits (R194), and the allotted pass charges the
shaper of its grove (R193). -/
def take (i : Nat) (k : Pick) (s : State) : Option (Seg × State) :=
  match inQueue s i k.n with
  | [] => none
  | g :: rest =>
    let t := if i = 19 then s.setSecond k.n rest else s.setIngress k.n rest
    let busy := (waitingAt t i).any fun e => blockOf t i e.1 = k.block && clsOf t e.1 = k.cls
    let t := { t with fb := { t.fb with rr := mput 0 (mput 0 t.fb.rr (8 * i + k.cls) k.block) (160 + 8 * k.block + k.cls) k.n
                                        bdef := mput 0 t.fb.bdef (8 * k.block + k.cls) (if busy then k.blockDef else 0) } }
    let f : Flow := { t.flow k.n with inDef := if rest = [] then 0 else k.tunDef }
    let f := if clsOf s k.n = 4 || i = 19 then f
      else { f with credit := creditNow t k.n - (if k.charge then (g.payload.length * byteUnit : Nat) else 0), creditAt := t.clock }
    some (g, t.setFlow k.n f)

/-- The memory agent passes over a segment of a void session: it is no longer stored (R169). -/
def passVoid (g : Seg) (s : State) : State := setVoid g.tun g.gen (mget 0 s.fb.voids (4 * g.tun + g.gen) - 1) s

/-- The memory agent, as input F18, presents the head of an eligible spill queue: C2 before C3, then the least recently
served (R160). Void segments before it are skipped. It joins its queue at the intermediate that accepts it. -/
def readBack (j : Nat) (s : State) : State :=
  let mask := mget 0 s.fb.seen (20 * 18 + j)
  let live := (s.fb.spill.filter fun e => bit mask (e.1 / 2 % 20) && !fenced s (e.1 / 2 % 20) && (pageSegs e.2).any fun g => !isVoid s g).map (·.1)
  let older (a b : Nat) : Bool := a % 2 < b % 2 || (a % 2 = b % 2 && mget 0 s.fb.served a ≤ mget 0 s.fb.served b)
  match live.foldl (fun (b : Option Nat) e => match b with | none => some e | some x => if older x e then b else some e) none with
  | none => s
  | some k =>
    let past := (pageSegs (s.spillQ k)).takeWhile fun g => isVoid s g
    let l := past.foldl (fun q _ => popHead q) (s.spillQ k)
    match pageSegs l with
    | [] => s
    | g :: _ =>
      let o := k / 2 % 20
      let t := forAll past passVoid (s.setSpill k (popHead l))
      let t := { t with fb := { t.fb with served := mput 0 t.fb.served k (s.rd FAB_SLOT_COUNT + 1) } }
      updateSpill o (joinBulk j o { seg := g, spilt := true } t)

/-- Stage one at position `i` in phase `t` (R136): the map's express segment, else a bulk segment that the last ACCEPT and
the window allow (R141), else nothing. -/
def stageOne (t : Nat) (i : Nat) (s : State) : State :=
  let j := (i + t) % 20
  if fenced s i || partitionOut s j then s
  else if i = 18 then readBack j s
  else
    let w : List (Nat × Nat) := waitingAt s i
    let express : Option Pick := match mapEntry s i t with
      | none => none
      | some o => if fenced s o then none else arbitrate s i ((w.filter fun (e : Nat × Nat) => e.2 = o && !isBulk s e.1).map Prod.fst)
    match express with
    | some k =>
      (match take i k s with
       | none => s
       | some (g, u) =>
         let o := if i ≠ 19 ∧ twoPass s k.n then 19 else outPosOf s k.n
         let x := u.inter j
         u.setInter j { x with express := mput [] x.express o (mget [] x.express o ++ [g]) })
    | none =>
      let mask := mget 0 s.fb.seen (20 * i + j)
      let open_ (n : Nat) : Bool := match inQueue s i n with
        | [] => false
        | g :: _ => (g.seq + 2048 - (s.flow n).winlo) % 2048 < 1024
      match arbitrate s i ((w.filter fun (e : Nat × Nat) => isBulk s e.1 && bit mask e.2 && open_ e.1).map Prod.fst) with
      | none => s
      | some k =>
        match take i k s with
        | none => s
        | some (g, u) => bulkArrive j (outPosOf s k.n) { seg := g, spilt := false } u

/-- The reverse sideband of stage one at position `i`: the intermediate's new ACCEPT and its oldest RETURN for this
input, or an empty word (R138, R139, R155). -/
def sidebandOne (t : Nat) (badAcc badRet : BitVec 20) (i : Nat) (s : State) : State :=
  let j := (i + t) % 20
  let x := s.inter j
  let x := { x with mask := mdel x.mask i }
  let m := acceptMask s j x
  let x := { x with mask := mput 0 x.mask i m }
  let ret := x.rets.find? fun r => r.1 = i
  let u := s.setInter j { x with rets := match ret with | none => x.rets | some r => x.rets.erase r }
  let acc := arrives (acceptWord m) (badAcc.getLsbD i)
  let rw_ := arrives (returnWord ret) (badRet.getLsbD i)
  let u := checkWord rw_ (checkWord acc { u with fb := { u.fb with seen := mput 0 u.fb.seen (20 * i + j) (maskOf acc) } })
  match returnOf rw_ with
  | none => u
  | some (_, n, q) => u.setFlow n { (u.flow n) with winlo := q }

/-- One slot: every stage-two read, then every stage-one write, then the sidebands (R128, R136 to R139). -/
def fabricSlot (badAcc badRet badOut : BitVec 20) (s : State) : State :=
  let t := s.rd FAB_SLOT_COUNT % 20
  let ps := List.range 20
  let a := forAll ps (stageTwo t) s
  let b := forAll ps (stageOne t) a
  let c := forAll ps (sidebandTwo t badOut) b
  let d := forAll ps (sidebandOne t badAcc badRet) c
  d.incMod FAB_SLOT_COUNT

/-- MAP_SWITCH (R135): the committed map becomes active at the first phase 0 at or after its swap. -/
def execMapSwitch (s : State) : Host.Outcome State Fault Refusal :=
  if s.on FAB_STATUS_MAPPEND ∧ s.sv.commit.isNone ∧ s.rd FAB_SLOT_COUNT % 20 = 0 then
    .next (raise 13 2 (s.wrs [(FAB_STATUS_MAPBANK, 1 - s.rd FAB_STATUS_MAPBANK), (FAB_STATUS_MAPPEND, 0)]))
  else .next s

/-- RETURN_TIMER (R141): 2 microseconds after an advance that no RETURN reports, the output sends one. -/
def execReturnTimer (n : Tun) (s : State) : Host.Outcome State Fault Refusal :=
  if isBulk s n.val ∧ s.rd (TT_SEQ_OUTSEQ n.val) ≠ (s.flow n.val).lastRet then
    let o := outPosOf s n.val
    let x := s.outPos o
    .next ((s.setOutPos o { x with retq := x.retq.filter (· ≠ n.val) ++ [n.val] }).setFlow n.val
      { (s.flow n.val) with lastRet := s.rd (TT_SEQ_OUTSEQ n.val) })
  else .next s

/-! ### Flush (R167) and reclaim (R169) -/

/-- Clear a tunnel's segments from every store; what has spilled is marked void (R167). -/
def flushTunnel (n : Nat) (s : State) : State :=
  let keep (g : Seg) : Bool := entryOf g.tun ≠ n
  let gen := s.rd (TT_STATE_GEN n)
  let spilt := (s.fb.spill.map fun e => ((pageSegs e.2).filter fun g => g.tun = n && g.gen = gen).length).sum
  let fb := s.fb
  let t := { s with fb := { fb with
    ingress := mdel fb.ingress n
    second := mdel (mdel fb.second n) (256 + n)
    txq := mdel (mdel fb.txq n) (256 + n)
    flow := mdel (mdel fb.flow n) (256 + n)
    eg := (mmap (fun _ x => if x.ct.any (fun m => entryOf m = n) || x.ctMark.any (fun m => entryOf m = n) then { x with ct := none, ctMark := none, ctSent := [] }
      else x) fb.eg).filter fun e => e.2 ≠ {}
    inter := mmap (fun _ x => { x with
      express := (x.express.map fun e => (e.1, e.2.filter keep)).filter fun e => e.2 ≠ []
      bulk := (x.bulk.map fun e => (e.1, e.2.filter fun q => keep q.seg)).filter fun e => e.2 ≠ []
      spillWrite := x.spillWrite.filter fun q => keep q.seg
      rets := x.rets.filter fun r => r.2.1 ≠ n
      kept := x.kept.filter fun k => keep k.2 }) fb.inter
    pos := mmap (fun _ x => { x with parked := x.parked.filter fun q => keep q.seg, retq := x.retq.filter (· ≠ n) }) fb.pos } }
  let t := if spilt = 0 then t else setVoid n gen (mget 0 t.fb.voids (4 * n + gen) + spilt) t
  forAll [outPortOf s n, outPortOf s (256 + n)] (fun p u => if p < 20 then unparkPort p u else u) t

/-- VOID_RECLAIM (R169): the memory agent has read past every void segment of a (TUN, GEN) pair and freed each page that
holds no live segment. -/
def voidReclaim (n g : Nat) (s : State) : State :=
  if mget 0 s.fb.voids (4 * n + g) = 0 then s
  else
    let t := { s with fb := { s.fb with spill :=
      (mmap (fun _ l => keepPages (fun q => !(q.tun = n && q.gen = g)) l) s.fb.spill).filter fun e => e.2 ≠ [] } }
    forAll (List.range 20) updateSpill (setVoid n g 0 t)

/-- VOID_RECLAIM. -/
def execVoidReclaim (n : Tun) (gen : Fin 4) (s : State) : Host.Outcome State Fault Refusal := .next (voidReclaim n.val gen.val s)

/-- CELL_EVACUATED (R172): a retired cell is empty and is power-gated. -/
def execCellEvacuated (cell : BufCell) (s : State) : Host.Outcome State Fault Refusal :=
  let j := cell.val / 4
  let e := s.rd (FAB_PART_EVAC j)
  let k := cell.val % 4
  .next (if bit e k then s.wr (FAB_PART_EVAC j) (e - 2 ^ k) else s)

end Sys2Proof.Machine
end

