-- ==== Sys2Proof/Machine/Sched.lean ====
section
/-! DEFINITION. The lead raster (R178 to R183), calendars and gates (R184 to R190, R197 to R200), the choice of a unit at
an egress port (R143, R144, R187), and the chapter's register writes. -/

namespace Sys2Proof.Machine

/-! ### Geometry of a lead source (R178) -/

/-- TOTAL and nominal line period in ps of a source; none where it cannot be adopted. -/
def sourceGeometry (s : State) (k : Nat) : Option (Nat × Nat) :=
  if k < 4 then
    let v := s.rd (PIPE_VTIM_VTOTAL k)
    let h := s.rd (PIPE_HTIM_HTOTAL k)
    let f := s.rd (PIPE_PCLK_PCLK k)
    if v < 2 ∨ 8191 < v ∨ f = 0 then none else some (v, h * 1000000000 / f)
  else if k < 9 then
    let l := s.rd SCHED_LEAD_LINES
    let p := mget 0 s.sc.periods (k - 4)
    if l < 2 ∨ p = 0 then none else some (l, p * 1000 / l)
  else
    let l := s.rd SCHED_VIRT_VLINES
    let r := s.rd SCHED_VIRT_RATE
    if l < 2 ∨ r = 0 then none else some (l, 1000000000000000 / (r * l))

/-- The advance per TIME cycle for a line period in ps (R179). -/
def lincOf (lineps : Nat) : Nat := if lineps = 0 then 0 else 2 ^ 32 * 1000 / lineps

/-- The lead's nominal line period in ns times 1000. -/
def linePs (s : State) : Nat := if s.rd SCHED_LINC_INC = 0 then 0 else 2 ^ 32 * 1000 / s.rd SCHED_LINC_INC

/-- A frame period in ns is more than 2 % off the lead's nominal one (R182). -/
def offNominal (s : State) (period : Nat) : Bool :=
  let nom := s.rd SCHED_LTOT_TOTAL * s.sc.lineps
  nom + nom / 50 < period * 1000 || period * 1000 < nom - nom / 50

/-- Steer SCHED_LINC towards a line period within the slew limit (R180). -/
def slewTo (target : Nat) (s : State) : State :=
  let lim := s.sc.lineps * s.rd SCHED_SLEW_MAX / 1024
  let cur := linePs s
  let next := if cur + lim < target then cur + lim else if target + lim < cur then cur - lim else target
  s.wr SCHED_LINC_INC (lincOf next)

/-- Used entries of a port's bank: 0 A, 1 B. -/
def bankEntries (s : State) (p bank : Nat) : List Nat :=
  if bank = 0 then (List.range (s.rd (GRV_CALCTL_LASTA p) + 1)).map fun e => s.rd (GRV_CALA_ENTRY p e)
  else (List.range (s.rd (GRV_CALCTL_LASTB p) + 1)).map fun e => s.rd (GRV_CALB_ENTRY p e)

/-- The active calendar. -/
def calendar (s : State) (p : Nat) : List Nat := bankEntries s p (s.rd (GRV_CALST_BANK p))

/-- The cycle of a raster calendar in 2^-8 line, 0 for the frame (R184). -/
def rasterCycle (es : List Nat) : Nat := match es.getLast? with | some e => if bit e 26 then calStart e else 0 | none => 0

/-- The frame ends within a cycle of a port's raster calendar, before an entry of that cycle: CALSKIP, once a swap (R184). -/
def noteSkip (p : Nat) (s : State) : State :=
  let es := calendar s p
  let frame := s.rd SCHED_LTOT_TOTAL * 256
  let c := rasterCycle es
  let left := if c = 0 then frame else frame % c
  if s.on (GRV_CALCTL_MODE p) ∨ mget false s.sc.skipped p ∨ left = 0 ∨ !(es.any fun e => !bit e 26 && left ≤ calStart e) then s
  else raise (portGrove p) 8 { s with sc := { s.sc with skipped := mins s.sc.skipped p true } }

/-- The position returns to 0.0 (R179): the frame is counted, and the time unit copies the bases' NS and the count (R373).
Raster compares count the frame (R376). -/
def frameInstant (s : State) : State :=
  let s := forAll (List.range 20) noteSkip s
  let s := { (s.incMod SCHED_FRAME_COUNT) with sc := { s.sc with lpos := 0 } }
  let s := forAll ((List.range 4).filter (tbRunning s)) (fun n t => t.wr (TIM_LFTNS_NS n) (mget 0 t.tb n / 2 ^ 32)) s
  let s := forAll (List.range 8) (fun e t => t.setEvt e { (t.evt e) with frames := (t.evt e).frames + 1 }) s
  s.wr TIM_LFTFRM_FRAME (s.rd SCHED_FRAME_COUNT)

/-- The position reaches TOTAL in the next TIME cycle. -/
def leadEnds (s : State) : Bool := 1 ≤ s.rd SCHED_LTOT_TOTAL && s.rd SCHED_LTOT_TOTAL * 2 ^ 32 ≤ s.sc.lpos + s.rd SCHED_LINC_INC

/-- From one lead line to the next, the line period moves on towards what the source asks for (R180). -/
def slewLine (s : State) : State := if s.sc.target = 0 then s else slewTo s.sc.target s

/-- One cycle of the lead position (R179). -/
def leadCycle (s : State) : State :=
  if s.rd SCHED_LTOT_TOTAL = 0 then s
  else if leadEnds s then slewLine (frameInstant s)
  else
    let x := s.sc.lpos + s.rd SCHED_LINC_INC
    let t := { s with sc := { s.sc with lpos := x } }
    if x / 2 ^ 32 = s.sc.lpos / 2 ^ 32 then t else slewLine t

/-- LEAD_FRAME_START (R179): the cycle in which the position, advancing by `inc`, reaches `total` and returns to 0.0. It comes at no other
position, and with no other TOTAL and INC than the raster's own (DESIGN CHOICE, log entry 55). -/
def execLeadFrameStart (total inc : Nat) (s : State) : Host.Outcome State Fault Refusal :=
  .next (if leadEnds s ∧ total = s.rd SCHED_LTOT_TOTAL ∧ inc = s.rd SCHED_LINC_INC then leadCycle s else s)

/-- A geometry change is declared (R182): a mode change; the raster is in holdover with its old geometry until the swap. -/
def declareGeometry (s : State) : State :=
  structuralEvent (raise 15 2 ({ s with sc := { s.sc with changing := true, held := true, target := 0, inPhase := 0, offTotal := 0, offPeriod := 0 } }.wr
    SCHED_LEAD_STATE 3))

/-- The phase error at a frame start of the source, in 2^-32 line, and how far the lead has to go for its frame start to meet the source's
next one. -/
def leadPhase (s : State) : Nat × Nat :=
  let total := s.rd SCHED_LTOT_TOTAL * 2 ^ 32
  if 2 * s.sc.lpos < total then (s.sc.lpos, total - s.sc.lpos) else (total - s.sc.lpos, 2 * total - s.sc.lpos)

/-- The source starts a frame, `period` ns long: the slew aims at the line period with which the next frame starts meet (R180, R181; DESIGN CHOICE,
log entry 55), and four frames with a small phase error lock. -/
def followSource (period : Nat) (s : State) : State :=
  let e := leadPhase s
  let n := if e.1 < 2 ^ 24 then min 4 (s.sc.inPhase + 1) else 0
  let t := { s with sc := { s.sc with inPhase := n, target := ceilDiv (period * 1000 * 2 ^ 32) e.2 } }
  if n < 4 then t.wr SCHED_LEAD_STATE 1
  else if s.rd SCHED_LEAD_STATE = 2 then t
  else raise 15 0 (t.wr SCHED_LEAD_STATE 2)

/-- A source starts a frame of `total` lines and `period` ns, 0 where none has been measured. It counts for the active source only, and not
while a change waits for its swap (R180 to R182). -/
def sourceFrame (k total period : Nat) (s : State) : State :=
  if s.rd SCHED_LEAD_SRC ≠ k ∨ s.sc.held then s
  else
    let a := if total ≠ s.rd SCHED_LTOT_TOTAL then s.sc.offTotal + 1 else 0
    let b := if period ≠ 0 ∧ offNominal s period then s.sc.offPeriod + 1 else 0
    let t := { s with sc := { s.sc with offTotal := a, offPeriod := b } }
    if 4 ≤ a ∨ 4 ≤ b then declareGeometry t
    else if period = 0 then t
    else followSource period t

/-- LEAD_SOURCE_LOST (R181): holdover; SCHED_LINC stays. The virtual raster has no source to lose. -/
def execLeadSourceLost (s : State) : Host.Outcome State Fault Refusal :=
  if s.rd SCHED_LEAD_SRC = 9 ∨ s.rd SCHED_LEAD_STATE = 3 then .next s
  else
    let k := s.rd SCHED_LEAD_SRC
    let x := { s.sc with inPhase := 0, offTotal := 0, offPeriod := 0, target := 0
                         edges := if 4 ≤ k then mdel s.sc.edges (k - 4) else s.sc.edges }
    .next (raise 15 1 ({ s with sc := x }.wr SCHED_LEAD_STATE 3))

/-- What a solve samples for its swap: the source to adopt, if it is another or has changed, with its geometry; a source that cannot be adopted
leaves the lead on the one it has (R178, R182, R183). -/
def sampleGeometry (s : State) : Option (Nat × Nat × Nat) :=
  let n := s.rd SCHED_LEAD_NSRC
  let cur := s.rd SCHED_LEAD_SRC
  let take (k : Nat) : Option (Nat × Nat × Nat) := (sourceGeometry s k).map fun g => (k, g.1, g.2)
  match (if n = cur then none else take n) with
  | some g => some g
  | none => if s.sc.changing then take cur else none

/-- The adoption of a sampled geometry at the table swap: the position is set to 0.0 (R182, R183). A change declared since the sample holds on until
the next swap. -/
def adoptGeometry (s : State) : State :=
  match s.sc.sampled with
  | none => s
  | some (src, total, lp) =>
    let hold := s.sc.changing && src = s.rd SCHED_LEAD_SRC
    let t := s.wrs [(SCHED_LEAD_SRC, src), (SCHED_LTOT_TOTAL, total), (SCHED_LINC_INC, lincOf lp),
      (SCHED_LEAD_STATE, if hold then 3 else if src = 9 then 0 else 1)]
    let t := { t with sc := { t.sc with lpos := 0, lineps := lp, offTotal := 0, offPeriod := 0, inPhase := 0, target := 0, changing := hold, held := hold,
                                        sampled := none } }
    if src = s.rd SCHED_LEAD_SRC then t else raise 15 3 t

/-- A write to SCHED_LEAD (R183, R203): a change of NSRC is a mode change. -/
def wrSchedLead (v : Nat) (s : State) : State :=
  let t := wrWord 0xC0000 v (regFields .SCHED_LEAD 0 0) s
  if t.rd SCHED_LEAD_NSRC ≠ s.rd SCHED_LEAD_NSRC then structuralEvent t else t

/-- A write to SCHED_VIRT: a geometry change while the virtual raster is active (R182). -/
def wrSchedVirt (v : Nat) (s : State) : State :=
  let t := wrWord 0xC0014 v (regFields .SCHED_VIRT 0 0) s
  if s.rd SCHED_LEAD_SRC = 9 then declareGeometry t else t

/-! ### Calendars and gates -/

/-- The overhead in force: as of the last swap (R190). -/
def ovhOf (s : State) (p : Nat) : Nat := (mfind s.sc.ovh p).getD (s.rd (GRV_CALCTL_OVH p))

/-- The negotiated Max_Payload_Size of a port's PCIe partner. -/
def maxPayload (s : State) (p : Nat) : Nat := match mfind s.sv.att p with | none => 512 | some q => min 512 (max 128 q.mps)

/-- A DisplayPort pipe handoff (R190). -/
def isHandoff (s : State) (p : Nat) : Bool := [6, 7, 8, 9].contains (s.rd (ADP_STAT_PERS p))

/-- A branch port in alt mode that carries USB 3.2 Gen 2x1 beside its stream (R190). -/
def altUsb (s : State) (p : Nat) : Bool :=
  s.rd (ADP_STAT_PERS p) = 9 && (match mfind s.sv.att p with | none => false | some q => q.reqs.any fun x => x.kind = 2)

/-- The byte time that R189 uses at a port: the handoff's 417, else BT. -/
def btOf (s : State) (p : Nat) : Nat := if isHandoff s p then 417 else s.rd (GRV_CALST_BT p)

/-- The byte time of a USB 3.2 Gen 2x1 link. -/
def usbBt : Nat := byteTime 9696

/-- The unit, overhead and byte time by which R31 and R191 judge a port, given its overhead register and its maximum frame (R190). -/
def worstUnit (s : State) (p ovh maxfrm : Nat) : Nat × Nat × Nat :=
  if altUsb s p then (1040, 24, usbBt)
  else if isHandoff s p then (128, 0, 417)
  else (match s.rd (ADP_STAT_PERS p) with
    | 1 => maxPayload s p + 20 | 2 => maxfrm | 3 => maxfrm | 4 => maxfrm | 5 => 1040 | 10 => 1040 | _ => 128, ovh, s.rd (GRV_CALST_BT p))

/-- The banks that a new overhead or maximum frame must leave within R31: the active calendar, and the other while a solve is committed (R190). -/
def liveBanks (s : State) (p : Nat) : List Nat :=
  let b := s.rd (GRV_CALST_BANK p)
  if s.sv.commit.isSome then [b, 1 - b] else [b]

/-- The port's calendars keep R31 under an overhead and a maximum frame. -/
def keepsR31 (s : State) (p ovh maxfrm : Nat) : Bool :=
  let u := worstUnit s p ovh maxfrm
  s.rd (GRV_CALST_BT p) = 0 || (liveBanks s p).all fun b => calR31 u.1 u.2.1 u.2.2 (bankEntries s p b)

/-- The place of the entry in force at position `x` (1/256 line) of a cycle. -/
def rasterIdx (es : List Nat) (x : Nat) : Nat := (es.filter fun e => calStart e ≤ x && !bit e 26).length - 1

/-- The entry in force at position `x` (1/256 line) of a cycle. -/
def rasterAt (es : List Nat) (x : Nat) : Nat := es.getD (rasterIdx es x) 0

/-- The extended time of a base in ns (R199). -/
def extTime (s : State) (n : Nat) : Nat := s.rd (TIM_TBWRAP_WRAPS n) * 2 ^ 32 + mget 0 s.tb n / 2 ^ 32

/-- The interval list of a time-mode calendar in ns (R198). -/
def intervals (es : List Nat) : List Nat := es.map fun e => 8 * bits e 23 0

/-- CYCLE of a time-mode port: the register as adopted, or the sum of the intervals (R199). -/
def qbvCycle (s : State) (p : Nat) : Nat :=
  let c := (mget {} s.sc.qbv p).cycle
  if c = 0 then (intervals (calendar s p)).sum else c

/-- The position within the time-mode cycle in ns, and what is left of that cycle, none while the gates are held (R199, R200): the first
cycle of a list runs from its swap to the series; a base that stands still, or has started again and not reached BASE, holds the gates. -/
def qbvWhere (s : State) (p : Nat) : Nat × Option Nat :=
  let q := mget {} s.sc.qbv p
  let x := extTime s q.tb
  let c := qbvCycle s p
  if !tbRunning s q.tb then (q.held, none)
  else if x < q.start then (match q.began with | some b => (x - b, some (q.start - x)) | none => (q.held, some (q.start - x)))
  else if c = 0 then (0, none)
  else ((x - q.base) % c, some (c - (x - q.base) % c))

/-- The position alone. -/
def qbvPos (s : State) (p : Nat) : Nat := (qbvWhere s p).1

/-- The gates stay as they are while the position does not move. -/
def qbvHolds (s : State) (p : Nat) : Bool :=
  let q := mget {} s.sc.qbv p
  !tbRunning s q.tb || (q.began.isNone && extTime s q.tb < q.start)

/-- The place of the entry in force at `x` ns of a time-mode cycle; the last entry holds. -/
def timeIdx : List Nat → Nat → Nat
  | [], _ => 0
  | [_], _ => 0
  | e :: t, x => if x < 8 * bits e 23 0 then 0 else 1 + timeIdx t (x - 8 * bits e 23 0)

/-- The entry in force at `x` ns of a time-mode cycle. -/
def timeAt (es : List Nat) (x : Nat) : Nat := es.getD (timeIdx es x) 0

/-- The position within a raster cycle in 2^-32 line. -/
def rasterPos (s : State) (p : Nat) : Nat :=
  let c := rasterCycle (calendar s p) * 2 ^ 24
  if c = 0 then s.sc.lpos else s.sc.lpos % c

/-- The place of the entry in force in a port's active calendar. -/
def currentEntry (s : State) (p : Nat) : Nat :=
  if s.on (GRV_CALCTL_MODE p) then timeIdx (calendar s p) (qbvPos s p) else rasterIdx (calendar s p) (rasterPos s p / 2 ^ 24)

/-- The gate mask in force at a port. -/
def gates (s : State) (p : Nat) : Nat := (calendar s p).getD (currentEntry s p) 0

/-- The gate bit of a class: M 31, C3 30, C2 29, C1 28, C0 27 (R185). -/
def gateBit (c : Nat) : Nat := if c = 4 then 31 else 27 + c

/-- Whether a class's gate is open (R187). -/
def gateOpen (s : State) (p c : Nat) : Bool := bit (gates s p) (gateBit c)

/-- The first close of a class in a list of (distance in ns, entry). -/
def firstClose (c : Nat) (l : List (Nat × Nat)) : Option Nat := (l.find? fun e => !bit e.2 (gateBit c)).map (·.1)

/-- Window starts ahead at a port, nearest first, as (distance in ns rounded down, entry): the rest of this cycle and
one whole cycle after it (R189). -/
def windowsAhead (s : State) (p : Nat) : List (Nat × Nat) :=
  let es := calendar s p
  if s.on (GRV_CALCTL_MODE p) then
    let x := qbvPos s p
    let starts := (intervals es).foldl (fun (acc : List Nat × Nat) i => (acc.1 ++ [acc.2], acc.2 + i)) ([], 0)
    let tab := starts.1.zip es
    match (qbvWhere s p).2 with
    | none => []
    | some left =>
      (if qbvHolds s p then [] else (tab.filter fun e => x < e.1 && e.1 < x + left).map fun e => (e.1 - x, e.2)) ++
        (tab.filter fun e => e.1 < qbvCycle s p).map fun e => (left + e.1, e.2)
  else
    let frame := s.rd SCHED_LTOT_TOTAL * 2 ^ 32
    let cyc := rasterCycle es * 2 ^ 24
    let x := rasterPos s p
    let left := if cyc = 0 then frame - s.sc.lpos else min (cyc - x) (frame - s.sc.lpos)
    let ns (d : Nat) : Nat := d / s.rd SCHED_LINC_INC
    let at_ (e : Nat) : Nat := calStart e * 2 ^ 24
    let wins := es.filter fun e => !bit e 26
    (wins.filter fun e => x < at_ e && at_ e < x + left).map (fun e => (ns (at_ e - x), e)) ++
      wins.map fun e => (ns (left + at_ e), e)

/-- The transmit time in ns of `b` bytes of a tunnel at a port (R189, R190): a USB 3 unit of an alt-mode port has its own link's figures. -/
def unitTime (s : State) (p n b : Nat) : Nat :=
  if altUsb s p && s.rd (TT_STATE_KIND (entryOf n)) = 2 then txTime b 24 usbBt else txTime b (if isHandoff s p then 0 else ovhOf s p) (btOf s p)

/-- The guard band (R189): a unit of `b` bytes of tunnel `n` in class `c` ends before its gate closes. -/
def guardOk (s : State) (p c n b : Nat) : Bool :=
  match firstClose c (windowsAhead s p) with
  | none => true
  | some d => unitTime s p n b ≤ d

/-! ### Egress (R143, R187) -/

/-- The first whole unit at the head of a queue: the segments up to the first L, and the rest. -/
def headUnit : List Seg → Option (List Seg × List Seg)
  | [] => none
  | g :: t => if g.last then some ([g], t) else (headUnit t).map fun r => (g :: r.1, r.2)

/-- Bytes of a unit: the sum of its segments' LEN (R187). -/
def unitLen (u : List Seg) : Nat := (u.map fun g => g.payload.length).sum

/-- The PFC priority of an Ethernet tunnel: the lowest PCP that maps to it (R321). -/
def prioOf (s : State) (n : Nat) : Option Nat :=
  let a := s.adp (if s.on (TT_STATE_DIR (entryOf n)) then inPortOf s n else outPortOf s n)
  if s.rd (TT_STATE_KIND (entryOf n)) = 3 then (List.range 8).find? fun k => bits a.ethmap (4 * k + 3) (4 * k) = s.rd (TT_REQ_INDEX (entryOf n)) else none

/-- Whether a stream is credit-governed on a Canopy link: all but the downstream tunnel of a DisplayPort stream, which in a cascade home block is a
child's downstream tunnel of class C0 (R223). -/
def creditGoverned (s : State) (k : Nat) : Bool :=
  let n := entryOf k
  !((s.rd (TT_STATE_KIND n) = 0 || (s.on (TT_STATE_CASC n) && s.rd (TT_STATE_CLS n) = 0)) && !s.on (TT_STATE_DIR n))

/-- The partner lets the port send a segment of a tunnel: Canopy credit but for a display pair's downstream tunnel
(R223), or a priority that is not paused. -/
def sendAllowed (s : State) (p n : Nat) : Bool :=
  if linkWaits s p && p < 8 && canActive s p then false
  else if p < 8 && canActive s p then
    let c := s.credit (entryOf n)
    let d := (c.limit + 65536 - c.sent) % 65536
    !creditGoverned s n || (1 ≤ d && d ≤ 32767)
  else
    let still (k : Nat) : Bool := s.clock < mget 0 (s.eg p).paused k
    !(still 8 || (match prioOf s n with | none => false | some k => still k))

/-- What a stream could start at a port now: the segments of the unit and what stays queued; `true` for a unit that goes on in cut-through. A unit
that met R143 as it came starts with what has come of it; any other packet starts whole. -/
def readyUnit (s : State) (p n : Nat) : Option (List Seg × List Seg × Bool) :=
  if !packetEgress s p n then (match s.tx n with | [] => none | g :: t => some ([g], t, false))
  else match headUnit (s.tx n) with
    | some (u, t) => some (u, t, false)
    | none => if (s.eg p).ctMark = some n ∧ s.tx n ≠ [] then some (s.tx n, [], true) else none

/-- Deficit round robin order: the tunnels after the last one served, then the others. -/
def drrOrder (last : Nat) (l : List Nat) : List Nat := (l.filter fun n => last < n) ++ l.filter fun n => n ≤ last

/-- One segment goes out at a port: counted, logged by the keeper (R266), and Canopy credit used once (R223). TUN is rewritten on a cascade port; a
display stream goes to its pipe (R143). A segment that the keeper sent before a takeover is discarded, though the grove counts it (R266, R393). -/
def sendSeg (p : Nat) (g : Seg) (s : State) : State :=
  let t := wakeLink p s
  let can := p < 8 && canActive t p
  let e := t.eg p
  let m := entryOf g.tun
  let again := e.redo.contains (g.tun, g.seq)
  let t := t.setEg p (if again then { e with redo := e.redo.erase (g.tun, g.seq) } else { e with log := e.log ++ [(g.tun, g.seq, (t.can p).lunTx)] })
  let t := t.incMod (TT_SEGOUT_COUNT m)
  let c := t.credit m
  let t := if can then t.setCredit m { c with sent := (c.sent + 1) % 65536 } else t
  let out : Seg := { g with tun := rewriteOut t p g.tun }
  if again then t
  else if can then sendLink p out t
  else if isHandoff t p && t.rd (TT_STATE_KIND m) = 0 then { t with fb := { t.fb with handed := t.fb.handed ++ [g] } }
  else t.emit (.segment p (segWord out) (segPayload out))

/-- Send segments on a port's link. -/
def sendSegs (p : Nat) (u : List Seg) (s : State) : State := forAll u (sendSeg p) s

/-- Visit the tunnels of one class (R187): the chosen unit, or none, with deficits brought up. -/
def visit (p c : Nat) : List Nat → State → Option (Nat × List Seg × List Seg × Bool) × State
  | [], s => (none, s)
  | n :: rest, s =>
    match readyUnit s p n with
    | none => visit p c rest (s.setFlow n { (s.flow n) with deficit := 0 })
    | some (u, t, ct) =>
      let b := unitLen u
      if !sendAllowed s p n || !guardOk s p c n b then visit p c rest s
      else
        let f := s.flow n
        if f.deficit < b then visit p c rest (s.setFlow n { f with deficit := f.deficit + 120 * (1 + s.rd (TT_ALLOT_ACT (entryOf n)) / 8) })
        else (some (n, u, t, ct), s.setFlow n { f with deficit := f.deficit - b })

/-- A deficit returns to 0 when its tunnel has no unit ready (R187). -/
def clearDeficits (p : Nat) (s : State) : State :=
  { s with fb := { s.fb with flow := (mmap (fun n f =>
      if outPortOf s n = p && f.deficit ≠ 0 && (readyUnit s p n).isNone then { f with deficit := 0 } else f) s.fb.flow).filter fun e => e.2 ≠ {} } }

/-- The unit that a port starts: class by class under the gates (R187). -/
def chooseUnit (p : Nat) : List Nat → State → Option (Nat × Nat × List Seg × List Seg × Bool) × State
  | [], s => (none, s)
  | c :: cs, s =>
    if !gateOpen s p c then chooseUnit p cs s
    else
      let l := (s.fb.txq.map (·.1)).filter fun n => outPortOf s n = p && clsOf s n = c
      match visit p c (drrOrder (mget 0 (s.eg p).rr c) l) s with
      | (some (n, u, t, ct), t') => (some (c, n, u, t, ct), t')
      | (none, t') => chooseUnit p cs t'

/-- A port holds a segment of an ACTIVE tunnel that its partner does not let it send (R168). -/
def portStalled (s : State) (p : Nat) : Bool :=
  s.fb.txq.any fun e => outPortOf s e.1 = p && streamLive s e.1 && e.2 ≠ [] && !sendAllowed s p e.1

/-- Start or reset the stall timer (R168): a port that sends, or is idle, has none. -/
def updateStall (p : Nat) (sending : Bool) (s : State) : State :=
  if !sending && portStalled s p then
    (if s.on (GRV_FLST_EGHELD p) then s else (s.wr (GRV_FLST_EGHELD p) 1).setEg p { (s.eg p) with stallAt := s.clock })
  else s.wr (GRV_FLST_EGHELD p) 0

/-- The stall timer stops once the port is no longer kept from sending (R168). -/
def settleStall (p : Nat) (s : State) : State := if s.on (GRV_FLST_EGHELD p) && !portStalled s p then s.wr (GRV_FLST_EGHELD p) 0 else s

/-- Start what an egress port can start. A unit in cut-through goes on with the segments that have come (R143); a fenced position sends nothing
(R145). The places that become free take what is parked (R162). -/
def egressStart (p : Nat) (s : State) : State :=
  let e := s.eg p
  if fenced s (fabOf p) then s
  else match e.ct with
  | some n =>
    let q := s.tx n
    unparkPort p (match headUnit q with
      | some (u, t) =>
        let x := sendSegs p u (s.setTx n t)
        x.setEg p { (x.eg p) with ct := none, ctSent := [] }
      | none =>
        let x := sendSegs p q (s.setTx n [])
        x.setEg p { (x.eg p) with ctSent := e.ctSent ++ q })
  | none =>
    match chooseUnit p classOrder (clearDeficits p s) with
    | (none, t) => updateStall p false t
    | (some (c, n, u, rest, ct), t) =>
      let marked : Bool := e.ctMark = some n
      let t := clearDeficits p (sendSegs p u (t.setTx n rest))
      let x := t.eg p
      let t := t.setEg p { x with rr := mput 0 x.rr c n, ctMark := none, ct := if ct then some n else none, ctSent := if ct then u else [] }
      unparkPort p (updateStall p true (if marked then t.incMod (FAB_STOMP_CTUNITS (outPosOf t n)) else t))

/-- A unit in cut-through is broken off as its standard has it; it is kept, to be sent whole ahead of its tunnel's later units, and the keeper's log
holds it no more (R144, R266). -/
def breakOff (p n : Nat) (s : State) : State :=
  let e := s.eg p
  let how := match s.rd (ADP_STAT_PERS p) with | 1 => "TLP nullified" | 5 => "DPP abort" | 10 => "DPP abort" | _ => "frame with inverted FCS"
  let gone (x : Nat × Nat × Nat) : Bool := e.ctSent.any fun g => g.tun = x.1 && g.seq = x.2.1
  let t := (s.setTx n (e.ctSent ++ s.tx n)).setEg p { e with ct := none, ctMark := none, ctSent := [], backoff := true, log := e.log.filter fun x => !gone x }
  raise 13 1 ((t.inc (FAB_STOMP_ABORTS (outPosOf s n))).emit (.unit p how []))

/-- CUT_THROUGH_ABORT (R144): the next segment of the unit in cut-through is late; the port goes into backoff. -/
def execCutThroughAbort (port : Port) (s : State) : Host.Outcome State Fault Refusal :=
  match (s.eg port.val).ct with
  | none => .next s
  | some n => .next (breakOff port.val n s)

/-- BACKOFF_END (R144). -/
def execBackoffEnd (port : Port) (s : State) : Host.Outcome State Fault Refusal :=
  .next (s.setEg port.val { (s.eg port.val) with backoff := false })

/-- QBV_CYCLE_START (R199, R200): the gate list starts again at a cycle start of the series; the first cycle after a swap is over with it. -/
def execQbvCycleStart (port : Port) (s : State) : Host.Outcome State Fault Refusal :=
  let p := port.val
  let q := mget {} s.sc.qbv p
  if !s.on (GRV_CALCTL_MODE p) || !tbRunning s q.tb || extTime s q.tb < q.start then .next s
  else .next { s with sc := { s.sc with qbv := mput {} s.sc.qbv p { q with held := 0, began := none } } }

/-- The gates of the time-mode ports of a base stay as they stand when it stops (R199). -/
def holdGates (n : Nat) (s : State) : State :=
  { s with sc := { s.sc with qbv := mmap (fun p q => if q.tb = n then { q with held := (qbvWhere s p).1, began := none } else q) s.sc.qbv } }

/-- The series of the time-mode ports of a base starts again at BASE when the base does (R199). -/
def restartSeries (n : Nat) (s : State) : State :=
  { s with sc := { s.sc with qbv := mmap (fun _ q => if q.tb = n then { q with start := q.base, began := none } else q) s.sc.qbv } }

/-- Adopt a port's time-mode parameters at the swap: the first cycle ends at the first series start at least EXT ns on
(R200). -/
def adoptQbv (p : Nat) (s : State) : State :=
  if !s.on (GRV_CALCTL_MODE p) then s
  else
    let tb := s.rd (GRV_CALCTL_TBSEL p)
    let base := s.rd (GRV_QBVBASE_BASE p)
    let c0 := s.rd (GRV_QBVCYC_CYCLE p)
    let cyc := if c0 = 0 then (intervals (calendar s p)).sum else c0
    let now := extTime s tb
    let target := now + s.rd (GRV_QBVEXT_EXT p)
    let start := if cyc = 0 then target else if target ≤ base then base else base + ceilDiv (target - base) cyc * cyc
    let t := { s with sc := { s.sc with qbv := mput {} s.sc.qbv p { base := base, cycle := c0, tb := tb, start := start, began := some now } } }
    if now + cyc < start then raise (portGrove p) 10 t else t

/-- A write to GRV_CALCTL (R190, R206): an OVH that would make the active or the pending calendar break R31 is refused. -/
def wrCalctl (p v : Nat) (s : State) : State :=
  let a := portReg p 0x480 4
  let s := wrField a (GRV_CALCTL_TBSEL p) (bits v 26 24) s
  let o := bits v 9 0
  if !keepsR31 s p o (s.adp p).maxfrm then raise (portGrove p) 9 s
  else
    let keep := ovhOf s p
    let t := wrField a (GRV_CALCTL_OVH p) o s
    { t with sc := { t.sc with ovh := mins t.sc.ovh p keep } }

end Sys2Proof.Machine
end

