-- ==== Sys2Proof/Machine/Flow.lean ====
section
/-! DEFINITION. Port reset and port-down (R119, R167, R417), the flush, the stall limit and fresh training (R168, R527),
pause (R166), and what the ports do when a crown link changes (R95, R100). -/

namespace Sys2Proof.Machine

/-- The registers of a port that hold fields of port reach. -/
def portRegIds (p : Nat) (cs : List Nat) : List Fld :=
  let can := if p < 8 then regFields .CAN_CTL p 0 ++ regFields .CAN_STAT p 0 ++ regFields .CAN_ERR p 0 ++ regFields .CAN_ERR2 p 0 ++
      ((List.range 3).flatMap fun j => regFields .CAN_PEER p j) ++ ((List.range 12).flatMap fun j => regFields .CAN_THASH p j) ++
      regFields .TIM_LNKOFF p 0 ++ regFields .TIM_LNKDLY p 0 ++ regFields .TIM_LNK p 0 else []
  let cells := cs.flatMap fun c =>
    regFields .LC_CTL c 0 ++ regFields .LC_STAT c 0 ++ regFields .LC_RTR c 0 ++ regFields .LC_FECA c 0 ++ regFields .LC_FECB c 0 ++
    regFields .LC_HOLD c 0
  regFields .GRV_FLOW p 0 ++ regFields .GRV_FLST p 0 ++ regFields .GRV_CALST p 0 ++ regFields .ADP_STAT p 0 ++
    regFields .ADP_PCIE p 0 ++ regFields .ADP_DP p 0 ++ can ++ cells

/-- The fields that a port reset restores (R10): those of port reach, with the tunnels' of R119. -/
def portFields (p : Nat) (cs : List Nat) : List Fld := (portRegIds p cs).filter fun f => f.reach = .P

/-- Restore fields to their reset values. -/
def restore (fs : List Fld) (s : State) : State := forAll fs (fun f t => t.wr f f.reset) s

/-- The fields of port reach of a port whose training ends or begins anew; a cell in FAULT still shows it (R395). -/
def clearPort (p : Nat) (s : State) : State :=
  forAll (portCells p) (fun c t => if (t.lane c).faulted then t.wr (LC_STAT_STATE c) 9 else t) (restore (portFields p (portCells p)) s)

/-- A port's link is up: Canopy active, USB4, or the adapter up or in a low-power state. -/
def portUp (s : State) (p : Nat) : Bool :=
  (p < 8 && (s.rd (CAN_STAT_STATE p) = 4 || s.rd (CAN_STAT_STATE p) = 5)) ||
  s.rd (ADP_STAT_STATE p) = 2 || s.rd (ADP_STAT_STATE p) = 3 || s.rd (ADP_STAT_STATE p) = 6

/-- A port reset: fields of port reach, the port's protocol state, and the causes it records (R417, R424, R426). What
outlasts it (the entered mode, the retrain wait, EJECTED) is kept. -/
def portReset (p : Nat) (s : State) : State :=
  let ts := entriesOf s p
  let t := forAll ts (fun n u => restore (tunPortFields n) u) (restore (portFields p (groupCells s p)) s)
  let e := t.eg p
  let t := t.setEg p { wait := e.wait, waiting := e.waiting, headroom := e.headroom, icl := e.icl }
  let c := t.can p
  let t := t.setCan p { entered := c.entered, failed := c.failed, withdrawn := c.withdrawn, supports := c.supports, flip := c.flip }
  let a := t.adp p
  let t := t.setAdp p { ejected := a.ejected, slotOff := a.slotOff, downs := a.downs, ethmap := a.ethmap, untag := a.untag,
                        maxfrm := a.maxfrm, noStep0 := a.noStep0 }
  let t := if a.ejected then t.wr (ADP_STAT_STATE p) 5 else t
  let held := (groupCells s p).any fun c => s.on (LC_CTL_HOLD c)
  let t := forAll (groupCells s p) (fun c u =>
    let x := u.lane c
    let u := u.setLane c { faulted := x.faulted, chkAt := x.chkAt, arrivals := x.arrivals }
    if x.faulted then u.wr (LC_STAT_STATE c) 9
    else if held then u.wr (LC_STAT_STATE c) (if u.on (LC_TEST_EN c) then 6 else 7) else u) t
  let t := t.wr RST_PRTRC_PORTS (t.rd RST_PRTRC_PORTS ||| 2 ^ p)
  t.wr RST_CAUSE_PORT 1

/-- A port-down (R167): every tunnel with an endpoint at the port enters TEARING, the link's leaves are set, and the port is
reset. A TUN path's window belongs to its crown port; a due report of it is dropped (R91), and so are its held requests (R82). -/
def portDown (p cause : Nat) (s : State) : State :=
  let wasCan := p < 8 && canActive s p
  let wasAdp := s.rd (ADP_STAT_STATE p) = 2
  let s := dropTunnels p cause s
  let s := portReset p s
  let s := { s with sv := { s.sv with att := mdel s.sv.att p } }
  let s := if wasCan then raise (portGrove p) 12 s else s
  let s := if wasAdp then raise (portGrove p) 18 s else s
  if p < 2 then
    let quiet (op : FlashOp) : FlashOp := if op.reply.any (fun r => r.1.val = p) then { op with reply := none } else op
    let mg : Mgmt := { s.mg with bursts := mdel s.mg.bursts (2 + p), held := mdel s.mg.held p, flashOp := s.mg.flashOp.map quiet }
    tunReportDrop p { (s.wr (SYS_DWCTL_BUSY (2 + p)) 0) with mg := mg }
  else s

/-- Fresh training is kept from starting (R16, R527); Doze keeps down the ports of the groves that it gates (R428, R430). -/
def retrainBlocked (s : State) (p : Nat) : Bool :=
  !configured s p || (s.adp p).ejected || ((groupCells s p).any fun c => s.on (LC_CTL_HOLD c)) || (p < 8 && (s.can p).entered = 0) ||
  (s.on KEY_VAULT_HALT && (s.can p).entered = 1) || groveDark s (portGrove p) || 3 ≤ s.rd PST_PSSTAT_STATE ||
  (s.rd PST_PSSTAT_STATE = 2 && s.ps.gated.contains (portGrove p))

/-- Start the wait of R527: 100 ms, doubling at each later port-down of the port up to 6.4 s. -/
def scheduleRetrain (p : Nat) (s : State) : State :=
  let e := s.eg p
  s.setEg p { e with waiting := true, wait := min 64 (2 * e.wait) }

/-- Start training a port: a Canopy link from step 1 of R240, any other link in its adapter and by its standard, whose
detect the cells report (R259). -/
def startTraining (p : Nat) (s : State) : State :=
  if p < 8 ∧ (s.can p).entered = 1 then startCanopy p s
  else
    forAll ((groupCells s p).filter fun c => !(s.lane c).faulted) (fun c t =>
      t.wrs [(LC_STAT_STATE c, 1), (LC_STAT_ORIENT c, if p < 8 then b2n (t.can p).flip else 0)]) (s.wr (ADP_STAT_STATE p) 1)

/-- A port-down while the partner stays attached is an attach and detach event, and the port trains afresh by itself
(R22, R527). -/
def portDownAttached (p cause : Nat) (s : State) : State := scheduleRetrain p (attachEvent (portDown p cause s))

/-- STALL_TIMER_EXPIRY (R168): takes effect while the stall timer runs and its port is still kept from sending. -/
def execStallTimerExpiry (port : Port) (s : State) : Host.Outcome State Fault Refusal :=
  let p := port.val
  let t := settleStall p s
  if t.on (GRV_FLST_EGHELD p) then .next ((portDownAttached p 1 t).inc (GRV_FLST_STALLS p)) else .next t

/-- PORT_RETRAIN_WAIT (R527): a wait whose port may not train yet goes on. -/
def execPortRetrainWait (port : Port) (s : State) : Host.Outcome State Fault Refusal :=
  let p := port.val
  let e := s.eg p
  if !e.waiting ∨ retrainBlocked s p then .next s
  else .next (startTraining p (s.setEg p { e with waiting := false }))

/-- PORT_UP_HOLD (R527): the port has stayed up for 10 s. -/
def execPortUpHold (port : Port) (s : State) : Host.Outcome State Fault Refusal :=
  let p := port.val
  .next (if portUp s p then s.setEg p { (s.eg p) with wait := 1 } else s)


/-! ### Withheld credit and pause (R165, R166) -/

/-- Whether the hub withholds ingress credit from a tunnel for the spill store (R165). -/
def spillHeld (s : State) (n : Nat) : Bool := isBulk s n && (s.on MEM_SPSTAT_GLOBAL || s.on (MEM_SPUSE_HELD (outPosOf s n)))

/-- Free reserved places of a tunnel (R164). -/
def freePlaces (s : State) (n : Nat) : Nat := if n < 2 then 16 - (s.ingressQ n).length - (mget [] s.mg.held n).length else (s.flow n).places - (s.ingressQ n).length

/-- The tunnels that enter at a port. -/
def ingressTunnels (s : State) (p : Nat) : List Nat := (List.range 256).filter fun n => tunActive s n && inPortOf s n = p

/-- An Ethernet port. -/
def isEthernet (s : State) (p : Nat) : Bool := [2, 3, 4].contains (s.rd (ADP_STAT_PERS p))

/-- A port whose standard has link credit for what enters: PCIe, USB 3, or USB4 (R166). -/
def hasLinkCredit (s : State) (p : Nat) : Bool :=
  [1, 5, 10].contains (s.rd (ADP_STAT_PERS p)) || (p < 8 && s.rd (CAN_STAT_STATE p) = 5)

/-- The hub withholds ingress credit of a tunnel: for the spill store, or at an Ethernet port for its headroom (R165, R166). -/
def tunnelHeld (s : State) (p n : Nat) : Bool := spillHeld s n || (isEthernet s p && freePlaces s n ≤ (s.eg p).headroom)

/-- The hub withholds ingress credit, or sends pause, on a port (GRV_FLST_p.INHELD). -/
def ingressHeld (s : State) (p : Nat) : Bool := (ingressTunnels s p).any (tunnelHeld s p)

/-- What the hub has to withhold from the partner of a port now (R166; R264 where the hold buffer has no room): with PFC the priorities of the held tunnels, else the whole port (8); link
credit of the held tunnels (16 + n). Canopy credit stands in R224. -/
def withheld (s : State) (p : Nat) : List Nat :=
  let full := (groupCells s p).any fun c => (s.lane c).stopped
  let ns := (ingressTunnels s p).filter fun n => full || tunnelHeld s p n
  if isEthernet s p then
    (if s.on (ADP_ETHCTL_PFCEN p) then (if full then List.range 8 else (ns.filterMap (prioOf s)).eraseDups)
     else if full || ns ≠ [] then [8] else [])
  else if hasLinkCredit s p then ns.map (16 + ·) else []

/-- A pause frame to the partner: PAUSE of the port, or PFC with the enable vector of the priorities and a time for each (IEEE 802.3, 802.1Q). -/
def pauseOut (p quanta : Nat) (ks : List Nat) (s : State) : State :=
  let s := if ks.contains 8 then s.emit (.unit p "PAUSE" (beBytes 2 quanta)) else s
  let ps := ks.filter (· < 8)
  if ps = [] then s
  else s.emit (.unit p "PFC" (beBytes 2 (ps.map (2 ^ ·)).sum ++ (List.range 8).flatMap fun k => beBytes 2 (if ps.contains k then quanta else 0)))

/-- The form in which a PCIe, USB4 or USB 3 link's credit is withheld (R166). -/
def creditForm (s : State) (p : Nat) : String :=
  if s.rd (ADP_STAT_PERS p) = 1 then "UpdateFC" else if p < 8 && s.rd (CAN_STAT_STATE p) = 5 then "USB4 path credit" else "LCRD"

/-- Bring what the hub withholds on a port up to date: quanta 0xFFFF when pause begins, 0 when it ends; link credit is withheld and restored
(R166). -/
def updatePause (p : Nat) (s : State) : State :=
  let old := (s.eg p).pausing
  let want := withheld s p
  if want = old then s
  else
    let t := s.setEg p { s.eg p with pausing := want }
    let up := want.filter fun k => !old.contains k
    let down := old.filter fun k => !want.contains k
    let t := pauseOut p 0 down (pauseOut p 0xFFFF up t)
    let t := forAll (up.filter (16 ≤ ·)) (fun k u => u.emit (.note (creditForm u p ++ " withheld") [p, k - 16])) t
    forAll (down.filter (16 ≤ ·)) (fun k u => u.emit (.note (creditForm u p ++ " restored") [p, k - 16])) t

/-- PAUSE_REPEAT (R166). -/
def execPauseRepeat (port : Port) (s : State) : Host.Outcome State Fault Refusal :=
  .next (pauseOut port.val 0xFFFF (s.eg port.val).pausing s)

/-- FLUSH_COMPLETE (R167): takes effect for a tunnel in TEARING; both tunnels of the pair are flushed and enter QUAR. Credit and pause that the
flushed places held back are released, and stall timers that nothing keeps running stop (R168). -/
def execFlushComplete (n : Tun) (s : State) : Host.Outcome State Fault Refusal :=
  if s.rd (TT_STATE_STATE n.val) ≠ stTEARING then .next s
  else
    let t := enterQuarantine n.val (forAll (pairOf s n.val) flushTunnel s)
    .next (forAll (List.range 20) (fun p u => settleStall p (updatePause p u)) t)

/-! ### Register writes of chapter 06 -/

/-- Whether any tunnel is ADMIT or ACTIVE (R174). -/
def anyLive (s : State) : Bool := (List.range 256).any fun n => entryLive s n

/-- A write to MEM_SPBASE or MEM_SPSIZE (R174). -/
def wrSpill (a : Nat) (f : Fld) (v : Nat) (s : State) : State :=
  if anyLive s then raise 14 2 s else wrField a f (bits v (f.pos + f.w - 1) f.pos) s

/-- A write to MEM_SPSHARE (R174): WR and RD each within their range; their sum is then at most 32. -/
def wrSpshare (v : Nat) (s : State) : State := wrField 0xB0108 MEM_SPSHARE_RD (bits v 7 0) (wrField 0xB0108 MEM_SPSHARE_WR (bits v 15 8) s)

/-- A write to MEM_SPQ_n: at most the page area's size (R175). -/
def wrSpq (n v : Nat) (s : State) : State :=
  if totalPages s < bits v 19 0 then cfgErr (0xB0140 + 4 * n) s else updateSpill n (wrField (0xB0140 + 4 * n) (MEM_SPQ_QUOTA n) (bits v 19 0) s)

/-- A write to FAB_BULK: CAP lies between G and 4,096 (R173). -/
def wrBulk (v : Nat) (s : State) : State :=
  let a := 0xA0850
  let t := wrField a FAB_BULK_G (bits v 8 0) s
  let c := bits v 31 16
  if c < t.rd FAB_BULK_G ∨ 4096 < c then cfgErr a t else wrField a FAB_BULK_CAP c t

/-- A write to GRV_FLOW_p: STALL, ICL, then HEAD, which stays at most ICL (R177). -/
def wrFlow (p v : Nat) (s : State) : State :=
  let a := portReg p 0x400 4
  let t := wrField a (GRV_FLOW_ICL p) (bits v 15 8) (wrField a (GRV_FLOW_STALL p) (bits v 31 24) s)
  let h := bits v 23 16
  if t.rd (GRV_FLOW_ICL p) < h then
    (match envelope t a 16 8 with | some _ => envEvent CFG_ENVERR_ERR a t | none => t)
  else wrField a (GRV_FLOW_HEAD p) h t

/-- Reserve ingress places at a table swap (R164), and take FAB_BULK, HEAD and ICL into force (R173, R177). -/
def reservePlaces (s : State) : State :=
  let act := (List.range 256).filter fun n => tunActive s n && inPortOf s n < 20
  let t := forAll act (fun n t =>
    let p := inPortOf s n
    let k := (act.filter fun m => portGrove (inPortOf s m) = portGrove p).length
    t.setFlow n { (t.flow n) with places := min (s.rd (GRV_FLOW_ICL p)) (4096 / k) }) s
  let t := forAll (List.range 20) (fun p t => t.setEg p { (t.eg p) with headroom := t.rd (GRV_FLOW_HEAD p), icl := t.rd (GRV_FLOW_ICL p) }) t
  { t with fb := { t.fb with bulkG := t.rd FAB_BULK_G, bulkCap := t.rd FAB_BULK_CAP } }

/-! ### Checkpoints (R386, R387) -/

/-- What a checkpoint holds of a tunnel that enters in the grove (R202, R387). -/
def inCk (s : State) (n : Nat) : InCk :=
  let f := s.flow n
  { inseq := s.rd (TT_SEQ_INSEQ n), segin := s.rd (TT_SEGIN_COUNT n), winlo := f.winlo, credit := creditNow s n, tc := (bucketsNow s n).1,
    tp := (bucketsNow s n).2, received := (s.credit n).received }

/-- What a checkpoint holds of a stream that leaves in the grove (R202, R387): OUTSEQ stands past what waits in the transmit queue, which is lost with
the grove. -/
def outCk (s : State) (n : Nat) : OutCk :=
  let f := s.flow n
  let c := s.credit (entryOf n)
  let waiting := s.tx n ++ (if (s.eg (outPortOf s n)).ct = some n then (s.eg (outPortOf s n)).ctSent else [])
  { next := (expected s (outPosOf s n) n + 2048 - waiting.length % 2048) % 2048, segout := s.rd (TT_SEGOUT_COUNT (entryOf n)), deficit := f.deficit,
    lastRet := f.lastRet, limit := c.limit, sent := c.sent }

/-- What a checkpoint holds of a port (R387). -/
def portCk (s : State) (p : Nat) : PortCk :=
  let c := s.can p
  { lun := c.lunRx, segs := c.rxSegs, record := c.rxRec, recno := c.rxRecno, epoch := s.rd (CAN_STAT_RXEP p), paused := (s.eg p).paused, pausing := (s.eg p).pausing }

/-- The streams that leave the fabric in a grove. -/
def outStreams (s : State) (h : Nat) : List Nat :=
  ((List.range 256).filter fun n => tunActive s n && outPosOf s n / 2 = h) ++
    (((s.fb.flow.map (·.1)).filter (256 ≤ ·)).filter fun n => streamLive s n && outPosOf s n / 2 = h)

/-- A grove captures its dynamic state at a unit boundary (R386, R387). -/
def capture (g : Nat) (s : State) : State :=
  match if (awaitsRemap s).isSome && g = 8 then none else ckGrove s g with
  | none => s
  | some h =>
    let ps := grovePorts h
    let k : Ckpt := { ins := ((List.range 256).filter fun n => tunActive s n && inPosOf s n / 2 = h).map fun n => (n, inCk s n)
                      outs := (outStreams s h).map fun n => (n, outCk s n)
                      parked := [2 * h, 2 * h + 1].flatMap fun o => (s.outPos o).parked.map fun q => (q.seg.tun, q.seg.seq)
                      ports := ps.map fun p => (p, portCk s p) }
    let t := forAll ps (fun p u => u.setEg p { (u.eg p) with mark := (u.eg p).log.length }) s
    let t := forAll (ps.flatMap portCells) (fun c u =>
      u.setLane c { (u.lane c) with hold := (u.lane c).hold.map fun x => { x with captured := true } }) t
    { t with ckp := mins t.ckp h k }

/-- The old receive key goes once what has been acknowledged reaches unit L - 1 (R237). -/
def forgetOldKey (p now : Nat) (s : State) : State :=
  match (s.can p).oldRx with
  | none => s
  | some (l, _) => if (now + 65536 - l) % 65536 < 32768 then s.setCan p { (s.can p) with oldRx := none } else s

/-- The checkpoint of a grove is sealed and its halves swap (R386): what it covers is acknowledged to partners, freed from
hold buffers, and released from the intermediates (R232, R265, R389, R390). -/
def ckComplete (g : Nat) (s : State) : State :=
  match if (awaitsRemap s).isSome && g = 8 then none else ckGrove s g with
  | none => s
  | some h =>
    match mfind s.ckp h with
    | none => s
    | some k =>
      let prev := mget {} s.ck h
      let t := { s with ck := mins s.ck h k, ckp := mdel s.ckp h }
      let t := forAll (grovePorts h) (fun p u =>
        let e := u.eg p
        let u := settleOwed p (u.setEg p { e with log := e.log.drop e.mark, mark := 0, owed := e.owed ++ e.log.take e.mark })
        let now := (mget {} k.ports p).lun
        let u := forgetOldKey p now u
        if p < 8 && canActive u p && now ≠ (mget {} prev.ports p).lun then u.emit (.can p "RACK" [(now + 65535) % 65536])
        else if u.rd (ADP_STAT_PERS p) = 1 then u.emit (.note "PCIe ACK" [p])
        else if u.rd (ADP_STAT_PERS p) = 5 ∨ u.rd (ADP_STAT_PERS p) = 10 then u.emit (.note "LGOOD" [p])
        else u) t
      forAll ((grovePorts h).flatMap portCells) (fun c u =>
        let x := u.lane c
        let y : Lane := { x with hold := x.hold.filter fun e => !e.captured }
        let y : Lane := { y with stopped := x.stopped && holdGo u (servedPort u c) c < holdKib y }
        (u.setLane c y).wr (LC_HOLD_USED c) (holdKib y)) t


end Sys2Proof.Machine
end

