-- ==== Sys2Proof/Machine/Canopy.lean ====
section
/-! DEFINITION. The Canopy link: credits (R223, R224), grants (R227), retry (R229, R230), records and key updates (R234 to
R238), bring-up and fallback (R239 to R241), and a child's report (R243). -/

namespace Sys2Proof.Machine

/-! ### Credits -/

/-- LIMIT as the hub would advertise it now: the segments received and the free places, held while ingress credit of the
tunnel is withheld (R166, R224). -/
def limitNow (s : State) (n : Nat) : Nat :=
  let c := s.credit n
  let l := (c.received + freePlaces s n) % 65536
  if spillHeld s n || 32767 < (l + 65536 - c.given) % 65536 then c.given else l

/-- Send CREDIT for a tunnel with its LIMIT of now (R224). -/
def sendCredit (n : Nat) (s : State) : State :=
  let p := inPortOf s n
  let l := limitNow s n
  (s.setCredit n { (s.credit n) with given := l, told := l }).emit (.can p "CREDIT" [rewriteOut s p n, l])

/-- A CREDIT is due once LIMIT has advanced by min(32, half of ICL rounded up) (R224). -/
def creditUpdate (n : Nat) (s : State) : State :=
  let p := inPortOf s n
  if p < 8 && canActive s p && !portFenced s p && creditGoverned s n && tunActive s n then
    let step := min 32 (ceilDiv (s.eg p).icl 2)
    let l := limitNow s n
    let adv := (l + 65536 - (s.credit n).told) % 65536
    if step ≤ adv && adv ≤ 32767 && adv ≠ 0 then sendCredit n s
    else s.setCredit n { (s.credit n) with given := l }
  else s

/-- CREDIT (R223): a cumulative limit; an older one changes nothing. Any credit resets the stall timer (R168). -/
def execCredit (port : CanPort) (tun : Tun) (limit : BitVec 16) (s : State) : Host.Outcome State Fault Refusal :=
  let p := port.val
  if !canActive s p ∨ outsideHome s p tun.val then .next s
  else
    let n := rewriteIn s p tun.val
    let c := s.credit n
    let d := (limit.toNat + 65536 - c.limit) % 65536
    .next (if d = 0 ∨ 32767 < d then s else (s.setCredit n { c with limit := limit.toNat }).wr (GRV_FLST_EGHELD p) 0)

/-- CREDIT_TIMER (R224): the 2 microsecond or 100 microsecond timer of a tunnel. -/
def execCreditTimer (n : Tun) (s : State) : Host.Outcome State Fault Refusal :=
  let p := inPortOf s n.val
  .next (if p < 8 && canActive s p && !portFenced s p && creditGoverned s n.val && tunActive s n.val then sendCredit n.val s else s)

/-- LGRANT (R227): a grant received on a downstream link for a tunnel of the port's home block is relayed on the crown link that the tunnel
comes from, with TUN rewritten. The hub itself sources no C0 data for its partners. -/
def execLgrant (port : CanPort) (tun : Tun) (pipe : Pipe) (line : Fin 8192) (frm : Fin 16) (s : State) :
    Host.Outcome State Fault Refusal :=
  let p := port.val
  let n := rewriteIn s p tun.val
  let c := s.rd (TT_ENDP_INPORT n)
  .next (if (cascadeBase s p).isSome && !outsideHome s p tun.val && tunActive s n && canActive s p && c < 2 && canActive s c then
    s.emit (.can c "LGRANT" [n, pipe.val, line.val, frm.val]) else s)

/-! ### Retry -/

/-- A protocol error of the link takes the port down (R230). -/
def protoError (p : Nat) (s : State) : State := portDownAttached p 1 (s.inc (CAN_ERR2_PROTO p))

/-- RACK (R230): releases every unit up to and including the one named. -/
def execRack (port : CanPort) (lun : BitVec 16) (s : State) : Host.Outcome State Fault Refusal :=
  let p := port.val
  let c := s.can p
  if !canActive s p then .next s
  else if (lun.toNat + 65536 - c.lunOld) % 65536 < (c.lunTx + 65536 - c.lunOld) % 65536 then
    .next (releaseTo p ((lun.toNat + 1) % 65536) s)
  else .next (protoError p s)

/-- RNAK (R230): releases what comes before the unit named, then RESUME and everything from it on again. The unit that the
hub would send next may be named: nothing is sent again then (R260). -/
def execRnak (port : CanPort) (lun : BitVec 16) (s : State) : Host.Outcome State Fault Refusal :=
  let p := port.val
  let c := s.can p
  if !canActive s p then .next s
  else if (lun.toNat + 65536 - c.lunOld) % 65536 ≤ (c.lunTx + 65536 - c.lunOld) % 65536 then
    let t := (releaseTo p lun.toNat (s.inc (CAN_ERR_RNAKRX p))).emit (.can p "RESUME" [lun.toNat])
    .next (forAll (t.can p).retry (resend p) t)
  else .next (protoError p s)

/-- RNAK_REPEAT (R229). -/
def execRnakRepeat (port : CanPort) (s : State) : Host.Outcome State Fault Refusal :=
  let p := port.val
  .next (if canActive s p && (s.can p).discarding then sendRnak p s else s)

/-- RESUME (R229): the expected unit ends the discard; any other is an error, whose RNAK goes out at once. -/
def execResume (port : CanPort) (lun : BitVec 16) (s : State) : Host.Outcome State Fault Refusal :=
  let p := port.val
  let c := s.can p
  if !canActive s p then .next s
  else if lun.toNat = c.lunRx then .next (s.setCan p { c with discarding := false })
  else .next (sendRnak p (s.setCan p { c with discarding := true }))

/-- A word of the stream where a unit or a link word may begin (R214). -/
inductive LinkWord where
  | segment | idle | tag (epoch recno : Nat) | resume (lun : Nat) | reserved
deriving DecidableEq, Repr

/-- What a word says that begins a unit, or follows a link word (R214). -/
def readWord (w : Word) : LinkWord :=
  let x := w.toNat
  if bits x 31 21 ≠ 0x7FF then .segment
  else match bits x 20 16 with
    | 0x1F => .idle
    | 1 => .tag (bits x 15 15) (bits x 14 0)
    | 2 => .resume (bits x 15 0)
    | _ => .reserved

/-- The words of what the hub sends in the stream (R214): a segment of 32 words, a TAG with its 4 tag words, a RESUME. -/
def streamWords (o : Out) : Words :=
  let cut (b : Bytes) : Words := (List.range (b.length / 4)).map fun i => BitVec.ofNat 32 (beNat (slice b (4 * i) 4))
  match o with
  | .segment _ h b => cut (beBytes 8 h.toNat ++ b)
  | .can _ "TAG" [e, r, g] => BitVec.ofNat 32 (0xFFE10000 + e * 2 ^ 15 + r) :: cut (beBytes 16 g)
  | .can _ "RESUME" [l] => [BitVec.ofNat 32 (0xFFE20000 + l)]
  | _ => []

/-- DELINEATION_ERROR (R214, R229): delineation is lost (none), or a word is a link word of a reserved type. -/
def execDelineationError (e : LostWord) (s : State) : Host.Outcome State Fault Refusal :=
  .next (if (e.w.map readWord).getD .reserved = .reserved then linkError e.port.val s else s)

/-- The CRC-8 of a control slot's bits 63 to 8 (R220). -/
def slotCrc (w : BitVec 64) : Nat :=
  (List.range 56).foldl (fun r i => let x := 2 * r; if (r / 128 + w.toNat / 2 ^ (63 - i)) % 2 = 1 then (x % 256) ^^^ 7 else x % 256) 0xFF

/-- A control slot passes its CRC (R220). -/
def slotOk (w : BitVec 64) : Bool := slotCrc w = w.toNat % 256

/-- TYPE and BODY of the link-control messages that a record of a sent message stands for (R221). -/
def slotBodies (name : String) (x : List Nat) : List (Nat × Nat) :=
  let a (i : Nat) : Nat := x.getD i 0
  let time : Nat := a 0 * 2 ^ 32 + a 1 * 2 ^ 30 + a 2 * 2 ^ 8 + a 3
  match name with
  | "CREDIT" => [(1, a 0 * 2 ^ 30 + a 1 * 2 ^ 14)]
  | "LGRANT" => [(2, a 0 * 2 ^ 30 + a 1 * 2 ^ 28 + a 2 * 2 ^ 15 + a 3 * 2 ^ 11)]
  | "RACK" => [(3, a 0 * 2 ^ 22)]
  | "RNAK" => [(4, a 0 * 2 ^ 22)]
  | "TSYNC" => [(5, a 0 * 2 ^ 32 + a 1 * 2 ^ 30)]
  | "TTX" => [(6, time)]
  | "TRX" => [(7, time)]
  | "KUPD" => [(8, a 0 * 2 ^ 30 + a 1 * 2 ^ 14)]
  | "KACK" => [(9, a 0 * 2 ^ 30)]
  | "CAPS" => x.mapIdx fun k v => (0xA, k * 2 ^ 36 + v)
  | "KSHARE" => x.mapIdx fun k v => (0xB, k * 2 ^ 32 + v)
  | "HSFIN" => [(0xC, a 0 * 2 ^ 6)]
  | _ => []

/-- A control slot with its CRC (R220). -/
def slotWord (ptr fseq type body : Nat) : BitVec 64 :=
  let x := ptr * 2 ^ 55 + fseq * 2 ^ 50 + type * 2 ^ 46 + body * 2 ^ 8
  BitVec.ofNat 64 (x + slotCrc (BitVec.ofNat 64 x))

/-- What a receiver takes from a control slot: TYPE and BODY; nothing where the CRC fails (R220). -/
def readSlot (w : BitVec 64) : Option (Nat × Nat) := if slotOk w then some (bits w.toNat 49 46, bits w.toNat 45 8) else none

/-- The switch to the next receive epoch at unit L (R237). -/
def switchRx (p : Nat) (s : State) : State :=
  let c := s.can p
  match c.updRx with
  | none => s
  | some (l, next) =>
    if c.lunRx = l then
      (s.setCan p { c with oldRx := some (l, c.secRx), secRx := next, rxRecno := 0, rxRec := [], rxSegs := 0, updRx := none }).incMod
        (CAN_STAT_RXEP p)
    else s

/-- A segment unit is received in order: decrypted at its place in the open record, counted and added to it (R228, R235). -/
def receiveUnit (p : Nat) (hdr : BitVec 64) (payload : Bytes) (s : State) : Bytes × State :=
  let s := switchRx p s
  let c := s.can p
  let plain := cipher c.secRx c.rxRecno (128 * c.rxSegs + 8) payload
  (plain, s.setCan p { c with lunRx := (c.lunRx + 1) % 65536, rxSegs := c.rxSegs + 1, rxRec := c.rxRec ++ beBytes 8 hdr.toNat ++ plain })

/-! ### Records and keys -/

/-- RECORD_CLOSE (R234): 8 microseconds after the first segment of the record. -/
def execRecordClose (port : CanPort) (s : State) : Host.Outcome State Fault Refusal :=
  let p := port.val
  .next (if canActive s p && (s.can p).txSegs ≠ 0 then closeDue p (closeRecord p s) else s)

/-- A tag that does not match (R238). -/
def tagFail (p : Nat) (s : State) : State := portDownAttached p 1 (raise (portGrove p) 13 (s.inc (CAN_ERR2_TAGFAIL p)))

/-- TAG (R235, R238): a tag unit is checked against the open record; while an error stands it is discarded. -/
def execTag (port : CanPort) (epoch : Bool) (recno : BitVec 15) (tag : BitVec 128) (s : State) : Host.Outcome State Fault Refusal :=
  let p := port.val
  if !canActive s p || (s.can p).discarding then .next s
  else
    let s := switchRx p s
    let c := s.can p
    if epoch = bit (s.rd (CAN_STAT_RXEP p)) 0 ∧ recno.toNat = c.rxRecno % 32768 ∧ tag.toNat = recordTag c.secRx c.rxRec c.rxRecno then
      .next (s.setCan p { c with lunRx := (c.lunRx + 1) % 65536, rxSegs := 0, rxRec := [], rxRecno := c.rxRecno + 1 })
    else .next (tagFail p s)

/-- Send the KUPD of the announced update. -/
def sendKupd (p l : Nat) (s : State) : State := s.emit (.can p "KUPD" [(s.rd (CAN_STAT_TXEP p) + 1) % 256, l])

/-- The transmit epoch has used its records, or 3,600 s have passed since it began (R237). -/
def epochWorn (s : State) (p : Nat) : Bool :=
  2 ^ (16 + s.rd (CAN_CTL_KEYIVL p)) ≤ (s.can p).txRecno || (s.can p).epochAt + 3600000000000 ≤ s.clock

/-- KEY_UPDATE_START (R237): L is at least 64 units beyond the last sent; how far beyond is left free. -/
def execKeyUpdateStart (port : CanPort) (s : State) : Host.Outcome State Fault Refusal :=
  let p := port.val
  let c := s.can p
  if !canActive s p || c.upd.isSome || !epochWorn s p then .next s
  else
    let (v, t) := s.free
    let l := (c.lunTx + 63 + v % 16384) % 65536
    .next (sendKupd p l (t.setCan p { c with upd := some l, updAck := false }))

/-- KUPD (R237): the next epoch's secret is derived and acknowledged; a repeat is acknowledged again. -/
def execKupd (port : CanPort) (epoch : Byte) (lun : BitVec 16) (s : State) : Host.Outcome State Fault Refusal :=
  let p := port.val
  let c := s.can p
  let now := s.rd (CAN_STAT_RXEP p)
  if !canActive s p then .next s
  else if epoch.toNat = (now + 1) % 256 then
    .next ((s.setCan p { c with updRx := some (lun.toNat, nextOf c.secRx) }).emit (.can p "KACK" [epoch.toNat]))
  else if epoch.toNat = now ∧ c.oldRx.isSome then .next (s.emit (.can p "KACK" [epoch.toNat]))
  else .next s

/-- KUPD_REPEAT (R237). -/
def execKupdRepeat (port : CanPort) (s : State) : Host.Outcome State Fault Refusal :=
  let p := port.val
  match (s.can p).upd with
  | none => .next s
  | some l => .next (if canActive s p && !(s.can p).updAck then sendKupd p l s else s)

/-- KACK (R237). -/
def execKack (port : CanPort) (epoch : Byte) (s : State) : Host.Outcome State Fault Refusal :=
  let p := port.val
  let c := s.can p
  if canActive s p && c.upd.isSome && epoch.toNat = (s.rd (CAN_STAT_TXEP p) + 1) % 256 then
    .next (switchTx p (s.setCan p { c with updAck := true }))
  else .next s

/-- KACK_TIMEOUT (R237). -/
def execKackTimeout (port : CanPort) (s : State) : Host.Outcome State Fault Refusal :=
  let p := port.val
  .next (if canActive s p && (s.can p).upd.isSome && !(s.can p).updAck then portDownAttached p 1 s else s)

/-! ### Bring-up -/

/-- The payload rates of a Canopy link in Mb/s by mode: down and up (R217). -/
def modeRates (mode : Nat) : Nat × Nat :=
  match mode with | 0 => (153600, 153600) | 1 => (230400, 76800) | 2 => (76800, 230400) | _ => (76800, 76800)

/-- A Canopy partner as the link knows it; VENDOR, DEVICE and UID are its identity (R222). -/
def canPartner (s : State) (p : Nat) : Partner :=
  let (d, u) := modeRates (s.rd (CAN_STAT_MODE p))
  let up := isUpEnd s p
  { supports := 0, pers := 0, rate := 0, width := 0, speed := 0, txMbps := if up then d else u, rxMbps := if up then u else d
    ident := s.rd (CAN_PEER_V p 0) * 2 ^ 64 + s.rd (CAN_PEER_V p 2) * 2 ^ 32 + s.rd (CAN_PEER_V p 1) }

/-- The variant has the Canopy link at the port: a TL9616 lacks it at its branch ports (R2). -/
def offersCanopy (s : State) (p : Nat) : Bool := p < 2 || variant s ≠ 3

/-- The mode that a port takes in its partner (R39, R239): the first of its allowed modes that the partner supports and
that has not been withdrawn; a crown port with DOWN takes only the Canopy link. 0 is USB 2.0 only. -/
def chosenMode (s : State) (p : Nat) : Nat :=
  let c := s.can p
  let m := portModes s p &&& c.supports
  let ok (k : Nat) : Bool := bit m k && !bit c.withdrawn k
  if 2 ≤ p then (if ok 0 && offersCanopy s p then 1 else if ok 1 then 2 else if ok 2 then 3 else if ok 3 then 4 else 0)
  else if isDown s p && ok 0 then 1 else 0

/-- Enter the chosen mode: the Canopy link waits for its acknowledgement, any other starts its own training. -/
def enterChosen (p : Nat) (s : State) : State :=
  match chosenMode s p with
  | 0 => s.setCan p { (s.can p) with entered := 0 }
  | 1 => (s.setCan p { (s.can p) with entered := 0 }).emit (.pd p "Enter_Mode" [0x4F5A, 1])
  | k => startTraining p ((s.setCan p { (s.can p) with entered := k }).emit (.pd p (if k = 2 then "Enter_USB" else "Enter_Mode") [k]))

/-- The handshake has failed, or a limit has passed (R241): lanes stop, Attention, the mode withdrawn, FALLBK; the port goes
on to the next mode (R39). -/
def handshakeFail (p : Nat) (s : State) : State :=
  let c := s.can p
  let t := clearPort p s
  let t := t.setCan p { flip := c.flip, failed := true, withdrawn := c.withdrawn ||| 1, supports := c.supports }
  let t := forAll (portCells p) (fun x u => u.setLane x { faulted := (u.lane x).faulted, chkAt := (u.lane x).chkAt }) t
  let t := raise (portGrove p) 14 ((t.wr (CAN_STAT_STATE p) 6).emit (.pd p "Attention" [0x4F5A, 2]))
  if 2 ≤ p then enterChosen p t else t

/-- ENTER_MODE (R240): the acknowledgement of Enter Mode. With no cell left, or a halted vault, the link cannot come up; a port to which the
image gives no personality, and a TL9616's branch port, do not enter the mode (R2, R16). -/
def execEnterMode (port : CanPort) (s : State) : Host.Outcome State Fault Refusal :=
  let p := port.val
  let t := s.setCan p { (s.can p) with entered := 1 }
  .next (if !configured s p || !offersCanopy s p then s else if (portCells p).all (fun c => (s.lane c).faulted) || s.on KEY_VAULT_HALT then handshakeFail p t else startCanopy p t)

/-- The bring-up is in one of its steps. -/
def bringingUp (s : State) (p : Nat) : Bool := 1 ≤ s.rd (CAN_STAT_STATE p) && s.rd (CAN_STAT_STATE p) ≤ 3

/-- The capability exchange begins once the port's cells are up (R240 step 3). -/
def beginCaps (p : Nat) (s : State) : State := (s.wr (CAN_STAT_STATE p) 2).emit (.can p "CAPS" (s.can p).own)

/-- The mode that both ends settle on (R218): the upstream end's preference where the ASYM fields of both CAPS allow it. -/
def settledMode (s : State) (p : Nat) : Nat :=
  if (s.can p).single ≠ 0 then 3
  else
    let want := if isUpEnd s p then (s.can p).wants else (s.can p).pref
    let both := bits ((s.can p).own.getD 0 0) 28 27 &&& bits (mget 0 (s.can p).caps 0) 28 27
    if want = 1 ∧ bit both 0 then 1 else if want = 2 ∧ bit both 1 then 2 else 0

/-- The vault takes no part in a handshake: held by a tamper alarm, halted, or frozen (R504, R19). -/
def vaultHeld (s : State) : Bool := s.on KEY_VAULT_STHOLD || s.on KEY_VAULT_HALT || s.on KEY_VAULT_FROZEN

/-- End the capability exchange: settle the mode, turn the pair that changes direction, and send the key share of a fresh
ephemeral key (R236, R240 steps 3 to 5). A vault that is held stops the handshake here (R504). -/
def endCaps (p : Nat) (s : State) : State :=
  let part0 := mget 0 (s.can p).caps 0
  if vaultHeld s then s
  else if bits part0 35 32 ≠ 1 ∨ bit part0 31 = !isUpEnd s p then handshakeFail p s
  else
    let m := settledMode s p
    let t := setDirs p m (s.wrs [(CAN_STAT_MODE p, m), (CAN_STAT_STATE p, 3), (CAN_STAT_PKIND p, bits part0 30 29)])
    let turns (c : Nat) (b : Bool) : Bool := pairTx s c b != pairTx t c b
    let turned := (portCells p).flatMap fun c => ([false, true].filter (turns c)).map fun b => lockF c b
    let t := forAll (portCells p) (fun c u => u.setLane c { (u.lane c) with turnA := turns c false && !pairTx u c false
                                                                            turnB := turns c true && !pairTx u c true }) (restore turned t)
    let now := (txPairs t (liveCells t p)).filter fun e => turns e.1 e.2
    let t := sendTraining p true true now (sendTraining p false true now t)
    let (v, t) := t.free
    let key := beBytes 48 v
    let pub := Config.ecdsaPub key
    let t := restore [KEY_SLOT_STATE (6 + 2 * p), KEY_SLOT_STATE (7 + 2 * p)] t
    (t.setCan p { (t.can p) with priv := key }).emit (.can p "KSHARE" (((List.range 24).map fun k => beNat (slice pub (4 * k) 4))))

/-- CAPS (R222, R240): a part is recorded; with all four held, or at a wrong VER or ROLE, the exchange ends. -/
def execCaps (port : CanPort) (part : Fin 4) (content : BitVec 36) (pref : Fin 3) (s : State) : Host.Outcome State Fault Refusal :=
  let p := port.val
  if !(s.rd (CAN_STAT_STATE p) = 1 ∨ s.rd (CAN_STAT_STATE p) = 2) then .next s
  else
    let s := if s.rd (CAN_STAT_STATE p) = 1 then beginCaps p s else s
    let x := content.toNat
    let c := s.can p
    let t := s.setCan p { c with caps := mins c.caps part.val x, pref := if part.val = 0 then pref.val else c.pref }
    let t := if part.val = 0 then t else t.wr (CAN_PEER_V p (part.val - 1)) (x % 2 ^ 32)
    if part.val = 0 ∧ (bits x 35 32 ≠ 1 ∨ bit x 31 = !isUpEnd s p) then .next (handshakeFail p t)
    else .next (if (t.can p).caps.length = 4 then endCaps p t else t)

/-- TH (R236): over the upstream end's CAPS, the downstream end's, and the two public keys in that order. -/
def transcript (s : State) (p : Nat) (peerPub : Bytes) : Bytes :=
  let part (x : Nat) : Bytes := beBytes 5 x
  let own := (s.can p).own.flatMap part
  let peer := (List.range 4).flatMap fun k => part (mget 0 (s.can p).caps k)
  let ownPub := Config.ecdsaPub (s.can p).priv
  Config.sha384 (if isUpEnd s p then own ++ peer ++ ownPub ++ peerPub else peer ++ own ++ peerPub ++ ownPub)

/-- The VERIFY of an end by its ROLE (R236). -/
def verifyOf (prk th : Bytes) (role : Nat) : Nat :=
  beNat (slice (Config.hmac384 (Config.hkdfExpand prk (ascii "canopy fin") 48) (th ++ [BitVec.ofNat 8 role])) 0 4)

/-- TH as CAN_THASH_p shows it. -/
def thBytes (s : State) (p : Nat) : Bytes := (List.range 12).flatMap fun k => leBytes 4 (s.rd (CAN_THASH_V p k))

/-- Derive the keys once the partner's public key is whole (R236): TH, PRK, the traffic secrets; then HSFIN goes out 8 times (R240). -/
def deriveKeys (p : Nat) (s : State) : State :=
  let c := s.can p
  let pub := (List.range 24).flatMap fun k => beBytes 4 (mget 0 c.share k)
  if !Config.pointOk pub then handshakeFail p s
  else
    let th := transcript s p pub
    let prk := Config.hmac384 th (Config.ecdh c.priv pub)
    let dn := Config.hkdfExpand prk (ascii "canopy dn") 48
    let up := Config.hkdfExpand prk (ascii "canopy up") 48
    let t := forAll (List.range 12) (fun k u => u.wr (CAN_THASH_V p k) (leAt th (4 * k) 4)) s
    let hubUp := isUpEnd s p
    forAll (List.range 8) (fun _ u => u.emit (.can p "HSFIN" [verifyOf prk th (b2n (!hubUp))]))
      (t.setCan p { c with prk := prk, secTx := if hubUp then dn else up, secRx := if hubUp then up else dn })

/-- KSHARE (R236, R240): the first one also ends the capability exchange. -/
def execKshare (port : CanPort) (index : Fin 24) (w : Word) (s : State) : Host.Outcome State Fault Refusal :=
  let p := port.val
  let s := if s.rd (CAN_STAT_STATE p) = 2 then endCaps p s else s
  let c := s.can p
  if s.rd (CAN_STAT_STATE p) ≠ 3 ∨ c.prk ≠ [] ∨ vaultHeld s then .next s
  else
    let t := s.setCan p { c with share := mins c.share index.val w.toNat }
    .next (if (t.can p).share.length = 24 then deriveKeys p t else t)

/-! ### A child's report (R243) -/

/-- The report of the child on one of its crown ports: its pairs' class, allotment and ceiling, the hubs it counts. -/
def writeReport (c hubs : Nat) (s : State) : State :=
  let t := forAll (List.range 30) (fun k u =>
    let n := k + 2
    let mine := (s.rd (TT_ENDP_INPORT n) = c || s.rd (TT_ENDP_OUTPORT n) = c) && entryLive s n
    u.wrs [(CAN_UPREP_VALID c k, b2n mine), (CAN_UPREP_CLS c k, if mine then s.rd (TT_STATE_CLS n) else 0),
      (CAN_UPREP_CEIL c k, if mine then s.rd (TT_LIMIT_CEIL n) else 0), (CAN_UPREP_FLOOR c k, if mine then s.rd (TT_ALLOT_ACT n) else 0)]) s
  raise c 15 ((t.wr (CAN_UPHDR_HUBS c) hubs).incMod (CAN_UPHDR_SERIAL c))

/-- The upstream partner of a crown port is a hub: PKIND 1 or 2 with ROLE 0 (R243). -/
def hubAbove (s : State) (c : Nat) : Bool := !isDown s c && (s.rd (CAN_STAT_PKIND c) = 1 || s.rd (CAN_STAT_PKIND c) = 2)

/-- The link becomes active (R240 step 6): credit for its management tunnel, CANUP, the attach of R22, a child's report. -/
def linkActive (p : Nat) (s : State) : State :=
  let t := raise (portGrove p) 11 ((s.setCan p { (s.can p) with epochAt := s.clock }).wr (CAN_STAT_STATE p) 4)
  let t := attachPartner p (canPartner t p) (t.wr (GRV_CALST_BT p) (byteTime (canPartner t p).txMbps))
  if p < 2 ∧ !isDown t p then
    let t := activateMgmt p t
    let t := if tunActive t p then sendCredit p (t.setCredit p {}) else t
    let t := writeReport p (t.rd (CAN_UPHDR_HUBS p)) t
    let t := if hubAbove t p then t.wr SYS_EVMASK_TUN_MASK (t.rd SYS_EVMASK_TUN_MASK ||| 2 ^ portGrove p) else t
    tunReportState p t
  else t

/-- A receive pair that changed its direction has not finished its training (R240 step 4). -/
def turning (s : State) (p : Nat) : Bool := (portCells p).any fun c => (s.lane c).turnA || (s.lane c).turnB

/-- HSFIN (R240): VERIFY is checked; one that comes before the keys cannot check. The link is active once the pair that turned is trained too. -/
def execHsfin (port : CanPort) (verify : Word) (s : State) : Host.Outcome State Fault Refusal :=
  let p := port.val
  if s.rd (CAN_STAT_STATE p) ≠ 3 ∨ vaultHeld s then .next s
  else if (s.can p).prk ≠ [] ∧ verify.toNat = verifyOf (s.can p).prk (thBytes s p) (b2n (isUpEnd s p)) then
    .next (if turning s p then s.setCan p { (s.can p) with checked := true } else linkActive p s)
  else .next (handshakeFail p s)

/-- TRAINING_LIMIT (R241): a limit of R240 or R259 passes while the link is coming up. -/
def execTrainingLimit (port : CanPort) (s : State) : Host.Outcome State Fault Refusal :=
  .next (if bringingUp s port.val then handshakeFail port.val s else s)

/-- Setting CAN_CTL_p.RETRAIN (R218): a port-down followed by an attach; during the handshake it restarts from step 1. -/
def retrainPort (p : Nat) (s : State) : State :=
  if canActive s p then startTraining p (attachEvent (portDown p 1 s))
  else if bringingUp s p then
    let c := s.can p
    startCanopy p ((clearPort p s).setCan p { entered := 1, withdrawn := c.withdrawn, supports := c.supports, flip := c.flip })
  else s

/-- A write to CAN_CTL_p: its settings, then RETRAIN, which clears at once (R246). -/
def wrCanCtl (p v : Nat) (s : State) : State :=
  let t := wrWord (portReg p 0x600 4) v ((regFields .CAN_CTL p 0).filter fun f => f.acc = .rw) s
  if bit v 31 then retrainPort p t else t

/-- A write to CAN_UPREF (R244, R251): a change is a mode change. -/
def wrUpref (c v : Nat) (s : State) : State :=
  let t := wrField (0x102004 + 0x10000 * c) (CAN_UPREF_REF c) (bits v 14 0) s
  if t.rd (CAN_UPREF_REF c) = s.rd (CAN_UPREF_REF c) then t else structuralEvent (raise c 16 t)

end Sys2Proof.Machine
end

