-- ==== Sys2Proof/Machine/LaneCell.lean ====
section
/-! DEFINITION. Lane cells: training (R258, R259), retraining and single-cell mode (R219, R260), self-check (R261), the
detectors (R262, R263), and the test logic (R269 to R272). -/

namespace Sys2Proof.Machine

/-- Lane-cell states by name (R274). -/
def lcTS1 : Nat := 2
def lcTS2 : Nat := 3
def lcUP : Nat := 4
def lcRETRAIN : Nat := 5

/-- A port in the Canopy link whose cells are up or retraining (its CAN state is past training). -/
def canRunning (s : State) (p : Nat) : Bool := p < 8 && 2 ≤ s.rd (CAN_STAT_STATE p) && s.rd (CAN_STAT_STATE p) ≤ 4

/-! ### Retraining -/

/-- All pairs of the live cells of a port train, from a cell state on. -/
def trainCells (p st : Nat) (s : State) : State :=
  sendTraining p false false (txPairs s (liveCells s p)) <| forAll (liveCells s p) (fun c t =>
    (restore [lockF c false, lockF c true] (t.wr (LC_STAT_STATE c) st)).setLane c
      { (t.lane c) with lockA := false, lockB := false, ts2 := false, turnA := false, turnB := false, runA := 0, runB := 0 }) s

/-- All pairs of the live cells of a port train again, with the link-layer state kept (R260). -/
def startRetrain (p : Nat) (s : State) : State := trainCells p lcRETRAIN s

/-- A single cell trains: within the port's first training it goes on from TS1, later it retrains (R219, R260). -/
def trainSingle (p : Nat) (s : State) : State := if s.rd (CAN_STAT_STATE p) = 1 then trainCells p lcTS1 s else startRetrain p s

/-- The port is in UP on some live cell, so that a cause of retrain applies. -/
def canRetrain (s : State) (p : Nat) : Bool :=
  canRunning s p && (liveCells s p).any fun c => s.rd (LC_STAT_STATE c) = lcUP

/-- A cause of retrain (R260). -/
def retrainCause (p : Nat) (s : State) : State := if canRetrain s p then startRetrain p s else s

/-- Enter single-cell mode on cell `c`: pair A down, pair B up, the port's other cell off (R219). -/
def enterSingle (c : Nat) (s : State) : State :=
  let p := cellPort c
  let t := s.setCan p { (s.can p) with single := if isY c then 2 else 1 }
  let t := ((t.wr (CAN_STAT_MODE p) 3).wr (GRV_CALST_BT p) (byteTime 76800)).wr (LC_STAT_DIR c) (dirCode (isUpEnd s p) (isY c) 3)
  let t := forAll ((portCells p).filter fun d => d ≠ c && !(s.lane d).faulted) (fun d u => u.wr (LC_STAT_STATE d) 0) t
  match mfind t.sv.att p with
  | none => trainSingle p t
  | some q => trainSingle p { t with sv := { t.sv with att := mins t.sv.att p { q with txMbps := 76800, rxMbps := 76800 } } }

/-- Single-cell mode on `c` where the port trains or runs on two cells; on an active link the reduced rate is a mode change (R219, R395). -/
def takeSingle (c : Nat) (s : State) : State :=
  let p := cellPort c
  if (s.can p).single ≠ 0 || (s.lane c).faulted then s
  else if canActive s p then structuralEvent (enterSingle c s)
  else if p < 8 && bringingUp s p then enterSingle c s
  else s

/-! ### Training -/

/-- The live cells of a port that have the states of a training under way. -/
def trainState (st : Nat) : Bool := st = lcTS1 || st = lcRETRAIN

/-- Every receive pair of the port's live cells has lock and has received LOCK = 1 (R259): its cells go on to TS2. -/
def advanceTs2 (p : Nat) (s : State) : State :=
  let cs := (liveCells s p).filter fun c => trainState (s.rd (LC_STAT_STATE c))
  let ready (e : Nat × Bool) : Bool := s.on (lockF e.1 e.2) && (if e.2 then (s.lane e.1).lockB else (s.lane e.1).lockA)
  if cs = [] ∨ !(rxPairs s (liveCells s p)).all ready then s
  else sendTraining p true true (txPairs s cs) <| forAll cs (fun c t => (if t.rd (LC_STAT_STATE c) = lcTS1 then t.wr (LC_STAT_STATE c) lcTS2 else t).setLane c
    { (t.lane c) with ts2 := true }) s

/-- RECEIVER_DETECT (R259): DETECT to TS1. -/
def execReceiverDetect (cell : LaneCell) (s : State) : Host.Outcome State Fault Refusal :=
  let c := cell.val
  let p := cellPort c
  .next (if s.rd (LC_STAT_STATE c) = 1 ∧ p < 8 ∧ (s.can p).entered = 1 then sendTraining p false false (txPairs s [c]) (s.wr (LC_STAT_STATE c) lcTS1) else s)

/-- A pair asks the cell's shared engine for service: for training, or for adaptation and calibration (R252). -/
def askEngine (c : Nat) (training b : Bool) (s : State) : State :=
  let x := s.lane c
  let e := x.engine
  let add (l : List Bool) : List Bool := if l.contains b then l else l ++ [b]
  s.setLane c { x with engine := engineStep s.clock (if training then { e with train := add e.train } else { e with control := add e.control }) }

/-- The receive pairs of a cell that is up ask for the periodic adaptation and calibration (R252; the period is open: log entry 112). -/
def askControl (c : Nat) (s : State) : State := forAll (rxPairs s [c]) (fun e t => askEngine c false e.2 t) s

/-- A receive pair locks on training sequences: lock, polarity and rank (R258). -/
def pairLocks (c : Nat) (b : Bool) (info : Nat) (inverted : Bool) (s : State) : State :=
  let t := s.wrs [(lockF c b, 1), (invF c b, b2n inverted), (rankF c b, bits info 10 9), (losF c b, 0)]
  if inverted then raise (32 + c) 5 t else t

/-- TS1 (R258 to R260, R219): 8 sequences with their MARK in place have been received on a pair. -/
def execTs1 (cell : LaneCell) (pairB : Bool) (info : BitVec 11) (inverted : Bool) (s : State) : Host.Outcome State Fault Refusal :=
  let c := cell.val
  let p := cellPort c
  let i := info.toNat
  if !(p < 8) || pairTx s c pairB || (s.lane c).faulted then .next s
  else
    let turn := if pairB then (s.lane c).turnB else (s.lane c).turnA
    let s := if bit i 6 then takeSingle c s else if s.rd (LC_STAT_STATE c) = lcUP && !turn then retrainCause p s else s
    if trainState (s.rd (LC_STAT_STATE c)) then
      let t := pairLocks c pairB i inverted (askEngine c true pairB s)
      let locked (u : State) : Bool := (rxPairs u (liveCells u p)).all fun e => u.on (lockF e.1 e.2)
      let t := if locked t && !locked s then sendTraining p false true (txPairs t (liveCells t p)) t else t
      let x := t.lane c
      .next (advanceTs2 p (t.setLane c (if pairB then { x with lockB := bit i 7 } else { x with lockA := bit i 7 })))
    else if turn && s.rd (LC_STAT_STATE c) = lcUP then .next (pairLocks c pairB i inverted s)
    else .next s

/-- The handshake is done and its last pair has trained: the link is active (R240 steps 4 and 6). -/
def finishTurn (p : Nat) (s : State) : State :=
  if s.rd (CAN_STAT_STATE p) = 3 && (s.can p).checked && !turning s p then linkActive p s else s

/-- The port's live cells are all up: the capability exchange begins, or, after a retrain, each end names the unit it
expects (R240, R260). -/
def portCellsUp (p : Nat) (wasRetrain : Bool) (s : State) : State :=
  if !(liveCells s p).all (fun c => s.rd (LC_STAT_STATE c) = lcUP) then s
  else if s.rd (CAN_STAT_STATE p) = 1 then beginCaps p s
  else if wasRetrain ∧ canActive s p then sendRnak p (s.setCan p { (s.can p) with discarding := true })
  else finishTurn p s

/-- TS2 (R258): the seed is loaded; the sequence with COUNT 0 sets the superframe origin and the cell enters UP. A pair that
turned trains alone (R240 step 4). -/
def execTs2 (cell : LaneCell) (pairB : Bool) (count : Fin 16) (seed : BitVec 31) (s : State) : Host.Outcome State Fault Refusal :=
  let c := cell.val
  let p := cellPort c
  let st := s.rd (LC_STAT_STATE c)
  let x := s.lane c
  let turn := st = lcUP && (if pairB then x.turnB else x.turnA) && s.on (lockF c pairB)
  if !(p < 8) || pairTx s c pairB || !(st = lcTS2 || (st = lcRETRAIN && x.ts2) || turn) then .next s
  else
    let y : Lane := if pairB then { x with seedB := seed.toNat } else { x with seedA := seed.toNat }
    let t := s.setLane c y
    if count.val ≠ 0 then .next t
    else if turn then .next (finishTurn p (t.setLane c (if pairB then { y with turnB := false } else { y with turnA := false })))
    else
      let re := st = lcRETRAIN
      let t := askControl c ((t.wr (LC_STAT_STATE c) lcUP).setLane c { (t.lane c) with ts2 := false })
      let t := if re then raise (32 + c) 2 ((t.inc (LC_RTR_RETRAINS c)).wr (LC_RTR_CONSEC c) 0) else t
      .next (portCellsUp p re t)

/-! ### Detectors -/

/-- A pair has lost lock (R262, R263). -/
def loseLock (c : Nat) (pairB : Bool) (s : State) : State :=
  let t := raise (32 + c) 1 (s.wr (lockF c pairB) 0)
  if cellPort c < 8 && !pairTx s c pairB then retrainCause (cellPort c) t else t

/-- LOSS_OF_LOCK (R262, R263). -/
def execLossOfLock (cell : LaneCell) (pairB : Bool) (s : State) : Host.Outcome State Fault Refusal := .next (loseLock cell.val pairB s)

/-- UNCORRECTABLE_CODEWORD (R211, R220, R229). `cw.fec`: a codeword of a pair cannot be corrected; it is counted for the pair and the port,
`cw.hits` says whether a unit overlaps it, `cw.next` whether it follows another at once, and the third in succession is loss of lock. Every control
slot in it is ignored and counted; without `cw.fec`, the slots that fail their CRC are. -/
def execUncorrectableCodeword (cell : LaneCell) (pairB : Bool) (cw : Codeword) (slots : List (BitVec 64)) (s : State) :
    Host.Outcome State Fault Refusal :=
  let c := cell.val
  let p := cellPort c
  if !canRunning s p then .next s
  else
    let t := forAll (slots.filter fun w => cw.fec || !slotOk w) (fun _ u => u.inc (CAN_ERR_CSLOT p)) s
    if !cw.fec then .next t
    else
      let x := t.lane c
      let run := 1 + (if !cw.next then 0 else if pairB then x.runB else x.runA)
      let t := t.setLane c (if pairB then { x with runB := run } else { x with runA := run })
      let t := (t.inc (if pairB then LC_FECB_UNCORR c else LC_FECA_UNCORR c)).inc (CAN_ERR_UNCORR p)
      let t := if cw.hits then linkError p t else t
      .next (if 3 ≤ run then loseLock c pairB t else t)

/-- LOS (R262, R263). -/
def execLos (cell : LaneCell) (pairB : Bool) (s : State) : Host.Outcome State Fault Refusal :=
  let c := cell.val
  let t := raise (32 + c) 0 (s.wr (losF c pairB) 1)
  .next (if cellPort c < 8 && !pairTx s c pairB then retrainCause (cellPort c) t else t)

/-- LOSS_OF_ALIGNMENT (R213, R260). -/
def execLossOfAlignment (port : CanPort) (s : State) : Host.Outcome State Fault Refusal := .next (retrainCause port.val s)

/-- Every receive pair of some cells has LOS. -/
def allLos (s : State) (cs : List Nat) : Bool := (rxPairs s cs).all fun e => s.on (losF e.1 e.2)

/-- LOS_TIMEOUT (R263): LOS on every receive pair of a Canopy port for 1 ms. -/
def execLosTimeout (port : Port) (s : State) : Host.Outcome State Fault Refusal :=
  let p := port.val
  .next (if canRunning s p && allLos s (liveCells s p) then portDownAttached p 1 s else s)

/-- The two-cell condition of R219 step 3: LOS on every receive pair of one cell, signal on the other. -/
def cellDark (s : State) (c : Nat) : Bool :=
  let others := (liveCells s (cellPort c)).filter (· ≠ c)
  allLos s [c] && others ≠ [] && (rxPairs s others).all fun e => !s.on (losF e.1 e.2)

/-- CELL_LOS_TIMEOUT (R219): the hub acts as though it had received SINGLE on the other cell. -/
def execCellLosTimeout (cell : LaneCell) (s : State) : Host.Outcome State Fault Refusal :=
  let c := cell.val
  if cellPort c < 8 && cellDark s c then
    (match (liveCells s (cellPort c)).find? (· ≠ c) with
     | none => .next s
     | some d => .next (takeSingle d s))
  else .next s

/-- A failed retrain or link-down counts towards SELFCHK (R261). -/
def countFail (c : Nat) (s : State) : State :=
  let n := s.rd (LC_RTR_CONSEC c) + 1
  if n < 3 then s.wr (LC_RTR_CONSEC c) n
  else raise (32 + c) 3 ((s.wr (LC_RTR_CONSEC c) 3).wr (LC_STAT_STATE c) 8)

/-- RETRAIN_TIMEOUT (R260, R261): the retrain has failed and the next starts, or the cells check themselves. A failure
while one cell is dark is not counted towards the three (R219). -/
def execRetrainTimeout (port : Port) (s : State) : Host.Outcome State Fault Refusal :=
  let p := port.val
  let cs := (liveCells s p).filter fun c => s.rd (LC_STAT_STATE c) = lcRETRAIN
  if cs = [] then .next s
  else
    let dark := (liveCells s p).any (cellDark s)
    let t := forAll cs (fun c u => u.inc (LC_RTR_FAILS c)) s
    let t := if dark then t else forAll cs countFail t
    .next (if (liveCells t p).any fun c => t.rd (LC_STAT_STATE c) = 8 then t else startRetrain p t)

/-- RTRN (R260): the bit clears at once. During a failover the retrain waits for the crossbar's switch. -/
def setRtrn (c : Nat) (s : State) : State :=
  let p := cellPort c
  if !(p < 8) then s else if portFenced s p then s.setCan p { (s.can p) with rtrn := canRetrain s p } else retrainCause p s

/-! ### HOLD and test -/

/-- HOLD of a cell (R272): set, it takes the port down and holds its cells; cleared, the port trains afresh. The cells of a port to which
the image gives no personality are power-gated and stay so (R16). -/
def setHold (c : Nat) (on : Bool) (s : State) : State :=
  let p := servedPort s c
  let was := (groupCells s p).any fun d => s.on (LC_CTL_HOLD d)
  let t := s.setB (LC_CTL_HOLD c) on
  let now := (groupCells s p).any fun d => t.on (LC_CTL_HOLD d)
  if s.ld.image.isSome && !configured s p then t
  else if now && !was then portDown p 1 (if portUp s p then attachEvent t else t)
  else if was && !now then
    let u := forAll ((groupCells s p).filter fun d => !(t.lane d).faulted) (fun d v => v.wr (LC_STAT_STATE d) 0) t
    if retrainBlocked u p then u else startTraining p u
  else t

/-- A write to LC_CTL_c: presets, HOLD, then RTRN (R273). -/
def wrLcCtl (c v : Nat) (s : State) : State :=
  let a := 0x200000 + 0x1000 * c
  let t := wrWord a v [LC_CTL_TXPA c, LC_CTL_TXPB c, LC_CTL_RXPA c, LC_CTL_RXPB c] s
  let t := if bit v 31 = t.on (LC_CTL_HOLD c) then t
    else ifAllowed a (LC_CTL_HOLD c) (b2n (bit v 31)) (setHold c (bit v 31)) t
  if bit v 30 then setRtrn c t else t

/-- The pattern and the loopback chosen for a pair. -/
def patF (c : Nat) (pairB : Bool) : Fld := if pairB then LC_TEST_PATB c else LC_TEST_PATA c
def loopF (c : Nat) (pairB : Bool) : Fld := if pairB then LC_TEST_LOOPB c else LC_TEST_LOOPA c

/-- A pattern of the generator and the checker (R269): a PRBS of x^n + x^m + 1, or a repeated run of PAM3 levels. -/
inductive Pattern where
  | none | prbs (n m : Nat) | levels (l : List Int)
deriving DecidableEq, Repr

/-- The pattern that a code of PATA or PATB names (R269, R276). -/
def patternOf (k : Nat) : Pattern :=
  match k with
  | 1 => .prbs 7 6 | 2 => .prbs 9 5 | 3 => .prbs 15 14 | 4 => .prbs 23 18 | 5 => .prbs 31 28
  | 6 => .levels [-1, 1] | 7 => .levels [-1, 0, 1, 0]
  | _ => .none

/-- The next bit of a PRBS after the bits sent, the latest first (R269). -/
def prbsBit (n m : Nat) (sent : List Bool) : Bool := sent.getD (n - 1) false != sent.getD (m - 1) false

/-- The polynomial's exponents, or the levels counted from 1, that describe a pattern. -/
def patternArgs (k : Nat) : List Nat :=
  match patternOf k with | .none => [] | .prbs n m => [n, m, 0] | .levels l => l.map fun x => (x + 1).toNat

/-- What a pair's driver sends in test mode (R269, R270): nothing, its own generator's pattern, or, retimed, what the cell's other pair
receives. A far-end loopback needs one receive pair and one transmit pair. -/
inductive Drive where
  | off | pattern (k : Nat) | far
deriving DecidableEq, Repr

/-- A pair's driver in test mode. Near-end loopback leaves the driver's output enabled. -/
def drive (s : State) (c : Nat) (b : Bool) : Drive :=
  if s.rd (LC_STAT_STATE c) ≠ 6 ∨ !pairTx s c b then .off
  else if s.rd (loopF c !b) = 2 ∧ !pairTx s c (!b) then .far
  else if s.rd (patF c b) = 0 then .off
  else .pattern (s.rd (patF c b))

/-- A pair's checker has a signal to check (R269, R270): a receive pair with a pattern chosen, or a transmit pair that near-end loopback links to
its own receiver while its generator drives it. -/
def checks (s : State) (c : Nat) (b : Bool) : Bool :=
  s.rd (LC_STAT_STATE c) = 6 && s.rd (patF c b) ≠ 0 && (!pairTx s c b || (s.rd (loopF c b) = 1 && drive s c b ≠ .far))

/-- What a cell's drivers send changes with the test (R270). -/
def noteDrive (c : Nat) (s t : State) : State :=
  forAll [false, true] (fun b u =>
    if drive s c b = drive t c b then u
    else match drive t c b with
      | .off => u.emit (.note "test drive off" [c, b2n b])
      | .pattern k => u.emit (.note "test pattern" (c :: b2n b :: patternArgs k))
      | .far => u.emit (.note "far-end loopback" [c, b2n b])) t

/-- Clear the checker's counters (R276). -/
def clearChecker (c : Nat) (s : State) : State :=
  let t := restore [LC_CHKA_ERR c, LC_CHKB_ERR c, LC_CHKT_TIME c] s
  t.setLane c { (t.lane c) with chkAt := t.clock }

/-- The checker's time as LC_CHKT_c reads it: it runs in test mode while a checker is synchronised. -/
def checkTime (s : State) (c : Nat) : Nat :=
  if s.rd (LC_STAT_STATE c) = 6 ∧ (s.on (LC_CHKA_SYNC c) ∨ s.on (LC_CHKB_SYNC c)) then
    min (2 ^ 32 - 1) (s.rd (LC_CHKT_TIME c) + (s.clock - (s.lane c).chkAt) / 1000)
  else s.rd (LC_CHKT_TIME c)

/-- Whether a pattern code suits a rate code: square and staircase need PAM3 (R269). -/
def patternOk (rate pat : Nat) : Bool := pat < 6 || rate = 0xE || rate = 0x10

/-- One pattern field of LC_TEST_c. -/
def wrPattern (a : Nat) (f : Fld) (rate pat : Nat) (s : State) : State := if patternOk rate pat then wrField a f pat s else cfgErr a s

/-- EN of a held cell starts test mode (R272); elsewhere it is refused. -/
def enterTest (c : Nat) (s : State) : State :=
  if s.on (LC_CTL_HOLD c) ∧ s.rd (LC_STAT_STATE c) = 7 then (s.wr (LC_TEST_EN c) 1).wr (LC_STAT_STATE c) 6 else raise (32 + c) 8 s

/-- EN cleared: the checkers stop, and the cell is held again (R272). -/
def leaveTest (c : Nat) (s : State) : State :=
  let u := (s.wr (LC_CHKT_TIME c) (checkTime s c)).wr (LC_TEST_EN c) 0
  let u := restore [LC_CHKA_SYNC c, LC_CHKB_SYNC c] u
  if u.rd (LC_STAT_STATE c) = 6 then u.wr (LC_STAT_STATE c) 7 else u

/-- A write to LC_TEST_c (R272, R276). RATE is judged with the EN of the same write. -/
def wrLcTest (c v : Nat) (s : State) : State :=
  let a := 0x200020 + 0x1000 * c
  let en := bit v 31
  let t := if bits v 30 26 = 0 ∧ en then cfgErr a s else wrField a (LC_TEST_RATE c) (bits v 30 26) s
  let r := t.rd (LC_TEST_RATE c)
  let t := wrPattern a (LC_TEST_PATB c) r (bits v 19 16) (wrPattern a (LC_TEST_PATA c) r (bits v 23 20) t)
  let t := wrWord a v [LC_TEST_LOOPA c, LC_TEST_LOOPB c] t
  let t := if en = t.on (LC_TEST_EN c) then t else ifAllowed a (LC_TEST_EN c) (b2n en) (if en then enterTest c else leaveTest c) t
  noteDrive c s (if bit v 0 then clearChecker c t else t)

/-- A write to LC_INJ_c (R271): test mode, or a live link while the debug lock is unblown. -/
def wrLcInj (c v : Nat) (s : State) : State :=
  let a := 0x200024 + 0x1000 * c
  let t := wrWord a v [LC_INJ_PAIR c, LC_INJ_TYPE c, LC_INJ_LEN c, LC_INJ_COUNT c] s
  if !bit v 31 then t
  else if t.rd (LC_STAT_STATE c) = 6 ∨ (t.rd (LC_STAT_STATE c) = lcUP ∧ !debugLocked t) then
    (t.wr (LC_INJ_GO c) 1).emit (.note "inject errors" [c, t.rd (LC_INJ_PAIR c), t.rd (LC_INJ_TYPE c), t.rd (LC_INJ_LEN c), t.rd (LC_INJ_COUNT c)])
  else raise (32 + c) 9 t

/-- INJECT_COMPLETE (R271). -/
def execInjectComplete (cell : LaneCell) (s : State) : Host.Outcome State Fault Refusal := .next (s.wr (LC_INJ_GO cell.val) 0)

/-- CHECKER_SYNC (R269, R270): 64 error-free symbols in test mode; counting starts, at a checker that has a signal to check. -/
def execCheckerSync (cell : LaneCell) (pairB : Bool) (s : State) : Host.Outcome State Fault Refusal :=
  let c := cell.val
  if !checks s c pairB then .next s
  else
    let t := if s.on (LC_CHKA_SYNC c) ∨ s.on (LC_CHKB_SYNC c) then s else s.setLane c { (s.lane c) with chkAt := s.clock }
    .next (t.wr (if pairB then LC_CHKB_SYNC c else LC_CHKA_SYNC c) 1)

/-- CHECKER_ERROR (R278): counted once synchronised; the first of either checker after CLR sets CHKERR. -/
def execCheckerError (cell : LaneCell) (pairB : Bool) (s : State) : Host.Outcome State Fault Refusal :=
  let c := cell.val
  if !s.on (if pairB then LC_CHKB_SYNC c else LC_CHKA_SYNC c) then .next s
  else
    let first := s.rd (LC_CHKA_ERR c) = 0 ∧ s.rd (LC_CHKB_ERR c) = 0
    let t := s.inc (if pairB then LC_CHKB_ERR c else LC_CHKA_ERR c)
    .next (if first then raise (32 + c) 7 t else t)

end Sys2Proof.Machine
end

