-- ==== Sys2Proof/Machine/Pipe.lean ====
section
/-! DEFINITION. Display pipes (R279 to R308): attributes, pixel units and the frame store, the line decision and
composition, timing sources, line grants, and notices. -/

namespace Sys2Proof.Machine

/-! ### Attributes (R282, R285) -/

/-- A big-endian field of a unit. -/
def beAt (b : Bytes) (off n : Nat) : Nat := beNat (slice b off n)

def aFormat (a : Bytes) : Nat := byteAt a 1
def aHActive (a : Bytes) : Nat := beAt a 2 2
def aHTotal (a : Bytes) : Nat := beAt a 4 2
def aVActive (a : Bytes) : Nat := beAt a 6 2
def aVTotal (a : Bytes) : Nat := beAt a 8 2
def aPclk (a : Bytes) : Nat := beAt a 18 4
def aDscBpp (a : Bytes) : Nat := byteAt a 23
def aSliceH (a : Bytes) : Nat := byteAt a 24
def aDsc (a : Bytes) : Bool := aFormat a = 0x80

/-- Attributes within R282, with the timing rules of R285. -/
def attrsOk (a : Bytes) : Bool :=
  let ha := aHActive a
  let ht := aHTotal a
  let va := aVActive a
  let vt := aVTotal a
  let pk := aPclk a
  (aFormat a = 6 || aFormat a = 8 || aFormat a = 10 || (aDsc a && 1 ≤ aSliceH a && aSliceH a ≤ 8 && 1 ≤ aDscBpp a)) &&
  1 ≤ ha && ha ≤ 7680 && 1 ≤ va && va ≤ 4320 && va + 1 ≤ vt && vt ≤ 8191 && ha + 8 ≤ ht && ht ≤ 16384 &&
  1 ≤ pk && pk ≤ 2400000 && 1600 * pk ≤ ht * 1000000 && 24 * ht * vt ≤ pk * 1000 && pk * 1000 ≤ 240 * ht * vt &&
  ha + beAt a 10 2 + beAt a 12 2 + 1 ≤ ht && beAt a 14 2 + beAt a 16 2 ≤ vt - va

/-- Bytes of a pixel unit (R284). A DSC unit holds DSCBPP / 16 bits a pixel. -/
def unitBytes (a : Bytes) : Nat :=
  if aDsc a then ceilDiv (aHActive a * aDscBpp a) 128 else ceilDiv (aHActive a * 3 * aFormat a) 8

/-- Bytes per pixel as stored (R290): RGB888, XRGB2101010, or the unit itself for DSC. -/
def linePitch (a : Bytes) : Nat :=
  ceilDiv (if aDsc a then unitBytes a else aHActive a * (if aFormat a = 10 then 4 else 3)) 256 * 256

/-! ### Pixels (R284, R290, R293, R294): a pixel is three components of 10 bits -/

/-- One pixel, 10 bits a component. -/
abbrev Px := Nat × Nat × Nat

/-- Widen a component of `b` bits to 10 (R294). -/
def widen (b c : Nat) : Nat :=
  match b with | 5 => c * 32 + c | 6 => c * 16 + c / 4 | 8 => c * 4 + c / 64 | _ => c

/-- Cut a bit string into `n` fields of `b` bits, the first from the most significant end of `w` bits. -/
def fieldsOf (x b : Nat) : Nat → Nat → List Nat
  | 0, _ => []
  | n + 1, w => x / 2 ^ (w - b) % 2 ^ b :: fieldsOf x b n (w - b)

/-- Group components into pixels. -/
def triples : List Nat → List Px
  | r :: g :: b :: t => (r, g, b) :: triples t
  | _ => []

/-- The pixels of a pixel unit of `n` pixels at `b` bits (R284). -/
def unpack (b n : Nat) (data : Bytes) : List Px :=
  triples ((fieldsOf (beNat data) b (3 * n) (8 * data.length)).map (widen b))

/-- Pack components of `b` bits, padded to a byte with 0 (R284, R294). -/
def pack (b : Nat) (ps : List Px) : Bytes :=
  let cs := ps.flatMap fun p => [p.1, p.2.1, p.2.2]
  let x := cs.foldl (fun a c => a * 2 ^ b + c / 2 ^ (10 - b)) 0
  let n := ceilDiv (cs.length * b) 8
  beBytes n (x * 2 ^ (8 * n - cs.length * b))

/-- A stored word of a format of R293 as a pixel and its alpha. -/
def pixelOf (fmt x : Nat) : Px × Nat :=
  match fmt with
  | 0 => ((widen 5 (bits x 15 11), widen 6 (bits x 10 5), widen 5 (bits x 4 0)), 255)
  | 3 => ((widen 8 (bits x 23 16), widen 8 (bits x 15 8), widen 8 (bits x 7 0)), bits x 31 24)
  | 4 => ((bits x 29 20, bits x 19 10, bits x 9 0), 255)
  | _ => ((widen 8 (bits x 23 16), widen 8 (bits x 15 8), widen 8 (bits x 7 0)), 255)

/-- `n` pixels of a format at an address in LPDDR. -/
def fetchPixels (s : State) (fmt a n : Nat) : List (Px × Nat) :=
  (List.range n).map fun i => pixelOf fmt (leNat (memRead 0 s.dram (a + i * fmtBytes fmt) (fmtBytes fmt)))

/-- The store's bytes of a pixel (R290): 10-bit lines as XRGB2101010, others as RGB888. -/
def storeBytes (b : Nat) (p : Px) : Bytes :=
  if b = 10 then leBytes 4 (p.1 * 2 ^ 20 + p.2.1 * 2 ^ 10 + p.2.2)
  else leBytes 3 (p.1 / 4 * 65536 + p.2.1 / 4 * 256 + p.2.2 / 4)

/-! ### Routes, tunnels and regions -/

/-- The downstream stream tunnel that a pipe consumes (R281). -/
def pipeTunnel (s : State) (d : Nat) : Option Nat :=
  (List.range 256).find? fun n => s.rd (TT_STATE_STATE n) ≠ stFREE && s.rd (TT_STATE_KIND n) = 0 && !s.on (TT_STATE_DIR n) &&
    s.on (TT_ENDP_PIPEV n) && s.rd (TT_ENDP_PIPE n) = d

/-- The pipe's tunnel is ACTIVE. -/
def pipeActive (s : State) (d : Nat) : Bool := match pipeTunnel s d with | none => false | some n => tunActive s n

/-- The pipe has a route and its port is up. -/
def pipeDriven (s : State) (d : Nat) : Bool := s.on (PIPE_ROUTE_VALID d) && portUp s (s.rd (PIPE_ROUTE_PORT d))

/-- The first byte of a pipe's frame store, and of its buffer `b` (R290). -/
def storeBase (s : State) (d : Nat) : Nat := s.rd (PIPE_FSBASE_BASE d) * 0x10000000
def bufferBase (s : State) (d b : Nat) : Nat := storeBase s d + b * 0x07F00000

/-- PIPE_STAT.LOCKED (R298). -/
def pipeLocked (s : State) (d : Nat) : Bool :=
  let src := s.rd SCHED_LEAD_SRC
  src = d ||
  (s.rd (PIPE_VTIM_VTOTAL d) = s.rd SCHED_LTOT_TOTAL &&
    ((s.rd (PIPE_CTL_TSRC d) = 1 && src = 8) || (s.rd (PIPE_CTL_TSRC d) = 2 && src = 4 + s.rd (PIPE_CTL_TESEL d))))

/-- PIPE_STAT.STATE as it reads (R304). -/
def pipeStateNow (s : State) (d : Nat) : Nat :=
  if !pipeDriven s d then 0
  else if (s.pipe d).attrs.isNone then 1
  else if s.on (PIPE_CTL_FHOLD d) then 4
  else if s.rd (PIPE_STAT_STATE d) = 2 then 2 else 3

/-- A line is scanned from L0 or L1: STATE, its leaves, and HOLDLN (R304, R307, R308). -/
def scanned (d : Nat) (l0 : Bool) (s : State) : State :=
  let old := s.rd (PIPE_STAT_STATE d)
  let t := s.wr (PIPE_STAT_STATE d) (if s.on (PIPE_CTL_FHOLD d) then 4 else if l0 then 2 else 3)
  let t := if l0 then t.setPipe d { (t.pipe d) with liveAt := t.clock } else if pipeActive t d then t.inc (PIPE_CNT_HOLDLN d) else t
  let new := t.rd (PIPE_STAT_STATE d)
  if old = 2 ∧ new = 3 then raise (9 + d) 0 t else if old = 3 ∧ new = 2 then raise (9 + d) 1 t else t

/-- Show adopted attributes in the timing registers (R305). -/
def adoptAttrs (d : Nat) (a : Bytes) (s : State) : State :=
  (s.wrs [(PIPE_HTIM_HTOTAL d, aHTotal a), (PIPE_HTIM_HACTIVE d, aHActive a), (PIPE_VTIM_VTOTAL d, aVTotal a),
    (PIPE_VTIM_VACTIVE d, aVActive a), (PIPE_PCLK_PCLK d, aPclk a), (PIPE_FMT_FORMAT d, aFormat a), (PIPE_FMT_DSCBPP d, aDscBpp a),
    (PIPE_FMT_SLICEH d, aSliceH a), (PIPE_STAT_DSC d, b2n (aDsc a))]).setPipe d
    { (s.pipe d) with attrs := some a, next := none, armed := false, unsupp := false, lines := [], decided := none }

/-! ### Units of a stream -/

/-- A stream-attributes unit (R285, R286): the first after the tunnel became ACTIVE waits for the next line 0; a different one is a
mode change and waits for its swap; attributes outside R282 are never adopted. -/
def takeAttributes (d : Nat) (data : Bytes) (s : State) : State :=
  let x := s.pipe d
  let a := data.take 25
  if !pipeActive s d ∨ (x.seen = some a ∧ !x.fresh) then s
  else if !attrsOk a then raise (9 + d) 3 (s.setPipe d { x with seen := some a, unsupp := true })
  else if x.fresh then s.setPipe d { x with seen := some a, fresh := false, next := some a, armed := true }
  else if x.attrs = some a then s.setPipe d { x with seen := some a }
  else structuralEvent (raise (9 + d) 4 (s.setPipe d { x with seen := some a, next := some a, armed := false }))

/-- STREAM_ATTRIBUTES (R285, R286). -/
def execStreamAttributes (d : Pipe) (data : Bytes) (s : State) : Host.Outcome State Fault Refusal := .next (takeAttributes d.val data s)

/-- The whole of W has been written: the buffers exchange roles (R291). -/
def frameComplete (d : Nat) (s : State) : State :=
  let x := s.pipe d
  (s.wrs [(PIPE_STAT_FSVAL d, 1), (PIPE_STAT_HBUF d, 1 - s.rd (PIPE_STAT_HBUF d))]).setPipe d
    { x with hAttrs := x.wAttrs, wAttrs := none, wCount := 0, wLast := 0 }

/-- Write a pixel unit to W at its line (R290, R291); a line not after the last one begins a new frame. -/
def storeLine (d line : Nat) (a data : Bytes) (s : State) : State :=
  let x := s.pipe d
  let fresh := x.wCount = 0 ∨ line ≤ x.wLast ∨ x.wAttrs ≠ some a
  let t := if fresh ∧ x.wCount ≠ 0 then raise (9 + d) 7 (s.inc (PIPE_CNT_INCOMP d)) else s
  let n := if fresh then 1 else x.wCount + 1
  let bytes := if aDsc a then data else (unpack (aFormat a) (aHActive a) data).flatMap (storeBytes (aFormat a))
  let at_ := bufferBase s d (1 - s.rd (PIPE_STAT_HBUF d)) + line * linePitch a
  let t := { t with dram := memWrite 0 t.dram at_ bytes }
  let t := t.setPipe d { (t.pipe d) with wAttrs := some a, wCount := n, wLast := line }
  if n = aVActive a then frameComplete d t else t

/-- A pixel unit (R284, R288, R291). -/
def takePixels (d line : Nat) (data : Bytes) (s : State) : State :=
  let x := s.pipe d
  match x.attrs with
  | none => s
  | some a =>
    if !pipeActive s d ∨ aVActive a ≤ line then s
    else if data.length ≠ unitBytes a then raise (9 + d) 6 s
    else
      let v := aVTotal a
      let passed : Bool := match x.decided with
        | none => false
        | some (y, _) => (line + v - y) % v = 0 || v / 2 < (line + v - y) % v
      let t := if passed || 16 ≤ x.lines.length then s else s.setPipe d { x with lines := mins x.lines line data }
      storeLine d line a data t

/-- PIXEL_UNIT (R283, R284, R288, R291): the pixel unit of its line. -/
def execPixelUnit (d : Pipe) (line : Nat) (data : Bytes) (s : State) : Host.Outcome State Fault Refusal :=
  .next (takePixels d.val line data (s.setPipe d.val { (s.pipe d.val) with due := (s.pipe d.val).due.erase line }))

/-- A unit of a reserved type (R283). -/
def reservedUnit (d : Nat) (s : State) : State := raise (9 + d) 6 s

/-- A secondary-data packet (R283): passed on to the output with its line. -/
def takePacket (d line : Nat) (data : Bytes) (s : State) : State :=
  if byteAt data 0 ≠ 1 then reservedUnit d s
  else if pipeActive s d then s.emit (.line d line "SDP" (data.drop 1)) else s

/-- SECONDARY_DATA_PACKET (R283). -/
def execSecondaryDataPacket (d : Pipe) (line : Nat) (data : Bytes) (s : State) : Host.Outcome State Fault Refusal :=
  .next (takePacket d.val line data s)

/-- A unit of the pipe's upstream tunnel enters at the pipe's port (R283), unless the AUX of a lost grove has stopped (R398). -/
def pipeUpstream (d : Nat) (data : Bytes) (s : State) : State :=
  match pipeTunnel s d with
  | none => s
  | some n =>
    if !tunActive s n ∨ groveDark s (portGrove (s.rd (PIPE_ROUTE_PORT d))) then s
    else ingressUnit (s.rd (PIPE_ROUTE_PORT d)) (s.rd (TT_STATE_PEER n)) 0 (s.rd (PIPE_STAT_LINE d)) data s

/-- A byte of the sink's DPCD as the hub relays it: at steps 1 and 2, for a sink that decodes DSC, DSC support and a maximum of 12 or 8 bits
per pixel (R112, R314); the capability bits of Adaptive-Sync and of HDCP 1.x and 2.x are cleared (R312). The addresses are DisplayPort's
(log entry 110). -/
def dpcdShown (step : Nat) (dsc : Bool) (a : Nat) (b : Byte) : Byte :=
  let imposed := dsc && (step = 1 || step = 2)
  match a with
  | 0x00007 => b &&& 0xBF
  | 0x02214 => b &&& 0xFE
  | 0x68028 => b &&& 0xFE
  | 0x6921F => b &&& 0xFD
  | 0x00060 => if imposed then b ||| 1 else b
  | 0x00067 => if imposed then (if step = 1 then 0xC0 else 0x80) else b
  | 0x00068 => if imposed then b &&& 0xFC else b
  | _ => b

/-- HPD_INTERRUPT (R283): type 0x82. -/
def execHpdInterrupt (d : Pipe) (s : State) : Host.Outcome State Fault Refusal := .next (pipeUpstream d.val [0x82] s)

/-! ### The line decision (R289, R303) -/

/-- The next line of the pipe's timing: panel-timed frames are extended at their last line (R299). -/
def nextLine (s : State) (d : Nat) : Nat :=
  let v := s.rd (PIPE_VTIM_VTOTAL d)
  let n := s.rd (PIPE_STAT_LINE d)
  if s.rd (PIPE_CTL_TSRC d) = 2 then
    (if (s.pipe d).teSeen ∧ s.rd (PIPE_VTIM_VACTIVE d) ≤ n then 0 else if n + 1 < v then n + 1 else n)
  else if n + 1 < v then n + 1 else 0

/-- Whether line `y` can come from L0: its pixel unit is in the buffer; a DSC slice row, every line of it. -/
def inBuffer (s : State) (d y : Nat) (a : Bytes) : Bool :=
  let x := s.pipe d
  let have_ (k : Nat) : Bool := (mfind x.lines k).isSome
  if aDsc a then (List.range (aSliceH a)).all fun k => aVActive a ≤ y + k || have_ (y + k) else have_ y

/-- LINE_DECISION (R289): for the line after the one being scanned, 640 ns after its start. Within a DSC slice row the
decision of its first line stands. -/
def execLineDecision (d : Pipe) (s : State) : Host.Outcome State Fault Refusal :=
  let d := d.val
  let x := s.pipe d
  match x.attrs with
  | none => .next s
  | some a =>
    let y := nextLine s d
    if aVActive a ≤ y then .next s
    else
      let row := aDsc a && y % aSliceH a ≠ 0
      let l0 := !s.on (PIPE_CTL_FHOLD d) &&
        (if row then (match x.decided with | some (_, b) => b | none => false) else inBuffer s d y a)
      .next (s.setPipe d { x with decided := some (y, l0) })

/-! ### Notices (R300 to R302) -/

/-- The highest notice kind whose condition holds on a pipe; the PAUSED timer holds in Doze (R430). -/
def noticeKind (s : State) (d : Nat) : Nat :=
  let x := s.pipe d
  let refused := match pipeTunnel s d with | none => false | some n => s.rd (TT_STATE_STATE n) = stREFUSED
  if x.unsupp then 4
  else if refused then 3
  else if s.clock < x.reducedUntil then 2
  else if pipeActive s d && ms (s.rd (PIPE_NOTICE_DELAY d)) ≤ (if s.rd PST_PSSTAT_STATE = 2 then s.ps.dozeAt else s.clock) - x.liveAt then 1 else 0

/-- The notice bitmap set of the loaded image (R44, R301). -/
def bitmapSet (s : State) : Bytes :=
  match s.ld.image with
  | none => []
  | some im => let b := im.chip 0x13; if leAt b 24 4 = 0 then [] else b.drop (leAt b 24 4)

/-- The entry of a notice: that of the pipe, else that of any pipe (R302). -/
def noticeEntry (s : State) (kind d : Nat) : Option Bytes :=
  let b := bitmapSet s
  let es := records 16 (leAt b 0 2) (b.drop 4)
  match es.find? fun e => byteAt e 0 = kind && byteAt e 1 = d with
  | some e => some e
  | none => es.find? fun e => byteAt e 0 = kind && byteAt e 1 = 0xFF

/-- A pipe draws no notice itself: DSC, or NTOFF. -/
def movesNotice (s : State) (d : Nat) : Bool := s.on (PIPE_STAT_DSC d) || s.on (PIPE_CTL_NTOFF d)

/-- Where a pipe's notice is drawn (R302). -/
def noticeHost (s : State) (d : Nat) : Option Nat :=
  let k := (s.pipe d).shown
  if !movesNotice s d then some d
  else (List.range 4).find? fun e => e ≠ d && (s.pipe e).attrs.isSome && !movesNotice s e && (s.pipe e).shown ≤ k

/-- The notice drawn on a pipe: its kind and the pipe it concerns; the highest kind, its own first. -/
def noticeOn (s : State) (d : Nat) : Option (Nat × Nat) :=
  let l := ((d :: (List.range 4).filter (· ≠ d)).filter fun e => (s.pipe e).shown ≠ 0 && noticeHost s e = some d).map fun e => ((s.pipe e).shown, e)
  l.foldl (fun b e => match b with | none => some e | some x => if x.1 < e.1 then some e else some x) none

/-! ### Composition (R294 to R297) -/

/-- A layer-2 rectangle: left, top, width, height, format, byte address, pitch, global alpha. -/
structure Rect where
  x : Nat
  y : Nat
  w : Nat
  h : Nat
  fmt : Nat
  addr : Nat
  pitch : Nat
  galpha : Nat
deriving DecidableEq, Repr

/-- The layer registers in the order in which they are latched (R297). -/
def layerRegs (d : Nat) : List Fld :=
  [PIPE_L1CTL_SRC d, PIPE_L1CTL_FMT d, PIPE_L1CTL_PITCH d, PIPE_L1ADDR_ADDR d, PIPE_L2CTL_EN d, PIPE_L2CTL_FMT d, PIPE_L2CTL_GALPHA d,
   PIPE_L2CTL_PITCH d, PIPE_L2ADDR_ADDR d, PIPE_L2POS_Y d, PIPE_L2POS_X d, PIPE_L2SIZE_H d, PIPE_L2SIZE_W d, PIPE_BG_RGB d]

/-- A latched layer value. -/
def latch (s : State) (d k : Nat) : Nat := ((s.pipe d).latched.getD k 0)

/-- L2 of a pipe: the notice, else the driver's rectangle (R296). -/
def layer2 (s : State) (d : Nat) (a : Bytes) : Option Rect :=
  match (noticeOn s d).bind fun e => noticeEntry s e.1 e.2 with
  | some e =>
    let w := leAt e 4 2
    let h := leAt e 6 2
    some { x := (aHActive a - w) / 2, y := (aVActive a - h) * 3 / 4, w := w, h := h, fmt := byteAt e 2
           addr := storeBase s d + 0x0FE00000 + leAt e 8 4, pitch := w * fmtBytes (byteAt e 2), galpha := 255 }
  | none =>
    if latch s d 4 = 0 then none
    else some { x := latch s d 10, y := latch s d 9, w := latch s d 12, h := latch s d 11, fmt := latch s d 5
                addr := latch s d 8 * 64, pitch := latch s d 7, galpha := latch s d 6 }

/-- The background colour. -/
def background (s : State) (d : Nat) : Px := let c := latch s d 13; (bits c 29 20, bits c 19 10, bits c 9 0)

/-- Line `y` of L1 (R289, R295): H, or the still image, or nothing. A still image is there once its pitch is set, and a hold frame stored compressed
shows nothing in an uncompressed stream (log entry 116). -/
def layer1 (s : State) (d y : Nat) (a : Bytes) : List Px :=
  let still := (fetchPixels s (latch s d 1) (latch s d 3 * 64 + y * latch s d 2) (aHActive a)).map (·.1)
  if latch s d 0 = 1 then still
  else if s.on (PIPE_STAT_FSVAL d) then
    (match (s.pipe d).hAttrs with
     | none => []
     | some h =>
       if aVActive h ≤ y || aDsc h then []
       else ((fetchPixels s (if aFormat h = 10 then 4 else 1) (bufferBase s d (s.rd (PIPE_STAT_HBUF d)) + y * linePitch h) (aHActive h)).map (·.1)).take
         (aHActive a))
  else if latch s d 2 ≠ 0 then still else []

/-- Blend one component (R294). -/
def blend (al c2 cb : Nat) : Nat := (al * c2 + (255 - al) * cb + 127) / 255

/-- One pixel of L2 over what lies beneath (R294). -/
def blendPx (galpha : Nat) (p2 : Px × Nat) (pb : Px) : Px :=
  let al := (p2.2 * galpha + 127) / 255
  (blend al p2.1.1 pb.1, blend al p2.1.2.1 pb.2.1, blend al p2.1.2.2 pb.2.2)

/-- Put L2 over line `y` of the picture. -/
def overlay (s : State) (r : Rect) (y : Nat) (base : List Px) : List Px :=
  if y < r.y ∨ r.y + r.h ≤ y then base
  else
    let row := fetchPixels s r.fmt (r.addr + (y - r.y) * r.pitch) (min r.w (base.length - r.x))
    base.mapIdx fun i p => if r.x ≤ i then (match row[i - r.x]? with | some q => blendPx r.galpha q p | none => p) else p

/-- Cut a line to the active width, or pad it with background. -/
def fitLine (n : Nat) (bg : Px) (l : List Px) : List Px := l.take n ++ List.replicate (n - l.length) bg

/-- What the pipe sends for active line `y` (R289, R294, R303). -/
def lineOut (s : State) (d y : Nat) (l0 : Bool) (a : Bytes) : Bytes :=
  let live := mfind (s.pipe d).lines y
  if aDsc a then
    match l0, live with
    | true, some x => x
    | _, _ => if s.on (PIPE_STAT_FSVAL d) && (s.pipe d).hAttrs = some a then memRead 0 s.dram (bufferBase s d (s.rd (PIPE_STAT_HBUF d)) + y * linePitch a) (unitBytes a) else []
  else
    let base := match l0, live with
      | true, some x => unpack (aFormat a) (aHActive a) x
      | _, _ => layer1 s d y a
    let base := fitLine (aHActive a) (background s d) base
    pack (aFormat a) (match layer2 s d a with | none => base | some r => overlay s r y base)

/-! ### Timing (R225, R297 to R299) -/

/-- A grant covers the lines up to LINE of FRM: the active lines that it adds fall due (R225, R283). -/
def coverLines (d f l : Nat) (s : State) : State :=
  let x := s.pipe d
  let v := s.rd (PIPE_VTIM_VTOTAL d)
  let n := match x.grant with | none => l + 1 | some (f0, l0) => (f + 16 - f0) % 16 * v + l - l0
  let add := ((List.range (min n v)).map fun i => (l + v - (min n v - 1 - i)) % v).filter fun y => y < s.rd (PIPE_VTIM_VACTIVE d)
  s.setPipe d { x with grant := some (f, l), due := x.due ++ add.filter fun y => !x.due.contains y }

/-- Send the line grant for the start of line `n` (R225): not while FHOLD is 1, and only to a Canopy link. A stream that a USB4 link pushes is
accounted alike, two lines ahead (R192). -/
def sendGrant (d n : Nat) (s : State) : State :=
  match pipeTunnel s d with
  | none => s
  | some t =>
    let p := inPortOf s t
    if s.on (PIPE_CTL_FHOLD d) || !tunActive s t || portFenced s p then s
    else
      let k := if p < 8 && canActive s p then mget 2 s.sc.leads d else 2
      let v := s.rd (PIPE_VTIM_VTOTAL d)
      let l := (n + k) % v
      let f := (s.rd (PIPE_FRAME_COUNT d) + (if v ≤ n + k then 1 else 0)) % 16
      let u := coverLines d f l s
      if p < 8 && canActive s p then u.emit (.can p "LGRANT" [rewriteOut s p t, d, l, f]) else u

/-- The stream that a pipe consumes is pushed: it arrives on a USB4 link (R242, R287). -/
def pushed (s : State) (d : Nat) : Bool :=
  match pipeTunnel s d with
  | none => false
  | some n => tunActive s n && inPortOf s n < 2 && s.rd (CAN_STAT_STATE (inPortOf s n)) = 5

/-- In push mode the pipe steers its PIX clock, so that each pixel unit is complete 2 lines before its scan, or SLICEH + 1 lines for DSC: by at
most 0.5 %, faster where more lines than that wait and slower where fewer do; by how much is left free (R287). -/
def steerPix (d n : Nat) (a : Bytes) (s : State) : State :=
  if !pushed s d then s
  else
    let ahead := (((List.range 16).map fun i => n + 1 + i).takeWhile fun y => (mfind (s.pipe d).lines y).isSome).length
    let want := if aDsc a then aSliceH a + 1 else 2
    let (v, t) := s.free
    let by_ : Int := Int.ofNat (v % 5001)
    t.setPipe d { (t.pipe d) with steer := if ahead < want then -by_ else if want < ahead then by_ else 0 }

/-- The start of line `n`: it is scanned as decided, leaves the line buffer, and its grant goes out. -/
def lineStart (d n : Nat) (s : State) : State :=
  let x := s.pipe d
  match x.attrs with
  | none => s
  | some a =>
    let t := s.wr (PIPE_STAT_LINE d) n
    let t :=
      if aVActive a ≤ n then t
      else
        let l0 := match x.decided with | some (y, b) => y = n && b | none => false
        if aDsc a && !(s.on (PIPE_STAT_FSVAL d) && x.hAttrs = some a) then t
        else
          let u := scanned d l0 (t.emit (.line d n (if l0 then "L0" else "L1") (lineOut t d n l0 a)))
          steerPix d n a (u.setPipe d { (u.pipe d) with lines := mdel (u.pipe d).lines n })
    sendGrant d n t

/-- A frame start (R286, R297, R300): attributes whose time has come are adopted, the layers latched, notices start or end,
the frame is counted, and line 0 starts. -/
def frameStart (d : Nat) (s : State) : State :=
  let x := s.pipe d
  let t := match x.next with | some a => if x.armed then adoptAttrs d a s else s | none => s
  let t := if (t.pipe d).decided = some (0, true) then t.setPipe d { (t.pipe d) with liveAt := t.clock } else t
  let x := t.pipe d
  let k := noticeKind t d
  let t := t.setPipe d { x with latched := (layerRegs d).map fun f => t.rd f, shown := k, teSeen := false, extended := 0 }
  let t := t.wr (PIPE_STAT_NOTICE d) k
  let t := if k ≠ 0 ∧ k ≠ x.shown then raise (9 + d) 2 t else t
  if x.attrs.isNone then t
  else
    let g := sourceGeometry t d
    let v := t.rd (PIPE_VTIM_VTOTAL d)
    lineStart d 0 (sourceFrame d v (v * ((g.map (·.2)).getD 0) / 1000) (t.incMod (PIPE_FRAME_COUNT d)))

/-- PIPE_FRAME_START (R297). -/
def execPipeFrameStart (d : Pipe) (s : State) : Host.Outcome State Fault Refusal := .next (frameStart d.val s)

/-- PIPE_LINE_START (R225): the start of the pipe's next line; line 0 is its frame start. -/
def execPipeLineStart (d : Pipe) (s : State) : Host.Outcome State Fault Refusal :=
  let d := d.val
  if (s.pipe d).attrs.isNone then .next s
  else
    let n := nextLine s d
    if n = 0 then .next (frameStart d s)
    else
      let t := if n = s.rd (PIPE_STAT_LINE d) then s.setPipe d { (s.pipe d) with extended := (s.pipe d).extended + 1 } else s
      .next (lineStart d n t)

/-- An edge of a TE input, or as 4 of GENLOCK: a frame start of that source, with the period measured since the edge before (R178, R180). -/
def sourceEdge (k : Nat) (s : State) : State :=
  let period := match mfind s.sc.edges k with | none => 0 | some at_ => s.clock - at_
  let t := { s with sc := { s.sc with edges := mins s.sc.edges k s.clock
                                      periods := if period = 0 then s.sc.periods else mins s.sc.periods k period } }
  sourceFrame (4 + k) (t.rd SCHED_LEAD_LINES) period t

/-- TE_EDGE (R299, R524): in blanking, the next line of a pipe timed by it is line 0; in active lines it is ignored. -/
def execTeEdge (pin : Fin 4) (s : State) : Host.Outcome State Fault Refusal :=
  if p46Stopped s then .next s
  else .next (forAll (List.range 4) (fun d t =>
    if t.rd (PIPE_CTL_TSRC d) = 2 ∧ t.rd (PIPE_CTL_TESEL d) = pin.val ∧ (t.pipe d).attrs.isSome ∧
       t.rd (PIPE_VTIM_VACTIVE d) ≤ t.rd (PIPE_STAT_LINE d) then
      t.setPipe d { (t.pipe d) with teSeen := true }
    else t) (sourceEdge pin.val s))

/-- TE_MISS (R299): no edge has come within VTOTAL further lines of the frame's end. -/
def execTeMiss (d : Pipe) (s : State) : Host.Outcome State Fault Refusal :=
  let d := d.val
  if s.rd (PIPE_CTL_TSRC d) = 2 ∧ (s.pipe d).attrs.isSome ∧ !(s.pipe d).teSeen ∧ s.rd (PIPE_VTIM_VTOTAL d) ≤ (s.pipe d).extended then
    .next (frameStart d (raise (9 + d) 5 (s.inc (PIPE_CNT_TEMISS d))))
  else .next s

/-- A pipe that GENLOCK times steers its PIX clock so that its line 0 meets the edge: by at most 0.5 %, and by no more than the slew limit moves a line
(R298); by how much is left free. -/
def steerGenlock (d : Nat) (s : State) : State :=
  if s.rd (PIPE_CTL_TSRC d) ≠ 1 ∨ (s.pipe d).attrs.isNone then s
  else
    let n := s.rd (PIPE_STAT_LINE d)
    let (v, t) := s.free
    let by_ : Int := Int.ofNat (v % (min 5000 (s.rd SCHED_SLEW_MAX * 1000000 / 1024) + 1))
    t.setPipe d { (t.pipe d) with steer := if n = 0 then 0 else if 2 * n ≤ s.rd (PIPE_VTIM_VTOTAL d) then -by_ else by_ }

/-- GENLOCK_EDGE (R178, R298, R524): the falling edge is frame start of the source. -/
def execGenlockEdge (s : State) : Host.Outcome State Fault Refusal :=
  .next (if p46Stopped s then s else forAll (List.range 4) steerGenlock (sourceEdge 4 s))

/-! ### Writes (R290, R306) -/

/-- A write to PIPE_L1CTL_d or PIPE_L2CTL_d: a pitch is a multiple of 64 (R306). -/
def wrLayerCtl (a v : Nat) (pitch : Fld) (others : List Fld) (s : State) : State :=
  let t := wrWord a v others s
  if bits v 15 0 % 64 = 0 then wrField a pitch (bits v 15 0) t else cfgErr a t

/-- Two byte ranges overlap. -/
def overlaps (a n b m : Nat) : Bool := a < b + m && b < a + n

/-- A write to PIPE_FSBASE_d (R290). -/
def wrFsbase (d v : Nat) (s : State) : State :=
  let a := 0x300020 + 0x10000 * d
  let base := bits v 4 0 * 0x10000000
  let clash := overlaps base 0x10000000 (s.rd MEM_SPBASE_BASE * 0x8000000) (s.rd MEM_SPSIZE_SIZE * 0x8000000) ||
    (List.range (pipeCount (variant s))).any fun e => e ≠ d && overlaps base 0x10000000 (storeBase s e) 0x10000000
  if pipeStateNow s d ≠ 0 ∨ clash then raise (9 + d) 8 s else wrField a (PIPE_FSBASE_BASE d) (bits v 4 0) s

/-- The notice copy of every routed pipe takes the image's bitmap set (R301). -/
def copyNotices (s : State) : State :=
  forAll (List.range 4) (fun d t =>
    if t.on (PIPE_ROUTE_VALID d) then { t with dram := memWrite 0 t.dram (storeBase t d + 0x0FE00000) ((bitmapSet t).take 0x200000) } else t) s

/-- Pipes whose request a swap gives a higher mode step show REDUCED (R300). -/
def showReduced (d : Nat) (s : State) : State :=
  s.setPipe d { (s.pipe d) with reducedUntil := s.clock + ms (1000 * s.rd (PIPE_NOTICE_SHOW d)) }

/-- A table swap arms waiting attributes (R286). -/
def armAttrs (s : State) : State :=
  forAll (List.range 4) (fun d t => if (t.pipe d).next.isSome then t.setPipe d { (t.pipe d) with armed := true } else t) s

/-- Data that a stream sends beyond its latest grant (R226): no grant has gone out, or its line is an active one past the latest grant's, and no
earlier grant leaves it still to come. -/
def beyondGrant (s : State) (n line : Nat) : Bool :=
  if s.rd (TT_STATE_KIND n) = 0 && !s.on (TT_STATE_DIR n) && s.on (TT_ENDP_PIPEV n) then
    let d := s.rd (TT_ENDP_PIPE n)
    match (s.pipe d).grant with
    | none => true
    | some (_, l) => l < line && line < s.rd (PIPE_VTIM_VACTIVE d) && !(s.pipe d).due.contains line
  else false

end Sys2Proof.Machine
end

