-- ==== Sys2Proof/Machine/Switch.lean ====
section
/-! DEFINITION. Personalities (R324), and the functions that the hub presents at each host-facing crown port (R310, R311, R315, R317): a PCIe
switch, whose upstream port is virtual, and an Enhanced SuperSpeed hub. -/

namespace Sys2Proof.Machine

/-! ### Personalities -/

/-- The personality a port runs or would run (ADP_STAT.PERS): by its PORT record, and at a branch port by the mode entered. An absorbed flex port,
for which R324 has no code, has none: its port status reads STATE 0 and PERS 0, as ABSORBED (DESIGN CHOICE, log entry 99). -/
def persOf (s : State) (p : Nat) : Nat :=
  if p < 8 then (match (s.can p).entered with | 3 => 9 | 4 => 10 | _ => 0)
  else match portRecord s p with
    | none => 0
    | some r => match byteAt r 1 with
      | 3 => if byteAt r 2 = 1 then 7 else 8
      | 4 => byteAt r 2
      | _ => 0

/-- A code is an Ethernet, a DisplayPort, or a USB 3 personality. -/
def persEth (k : Nat) : Bool := k = 2 || k = 3 || k = 4
def persDp (k : Nat) : Bool := 6 ≤ k && k ≤ 9
def persUsb (k : Nat) : Bool := k = 5 || k = 10

/-- The upstream tunnel of a port's ACTIVE request of a kind. -/
def upTunnel (s : State) (p kind index : Nat) : Option Nat :=
  (List.range 256).find? fun n => tunActive s n && s.on (TT_STATE_DIR n) && s.rd (TT_REQ_PORT n) = p && s.rd (TT_REQ_KIND n) = kind &&
    s.rd (TT_REQ_INDEX n) = index

/-- The downstream tunnel of a port's ACTIVE request of a kind from a crown port. -/
def downTunnel (s : State) (c q kind : Nat) : Option Nat :=
  (List.range 256).find? fun n => tunActive s n && !s.on (TT_STATE_DIR n) && s.rd (TT_REQ_PORT n) = q && s.rd (TT_REQ_KIND n) = kind &&
    s.rd (TT_ENDP_INPORT n) = c

/-- The tunnel in which a Canopy host addresses a function itself: the downstream one of the lowest-numbered ACTIVE request of a kind (R311). -/
def lowestOwn (s : State) (c kind : Nat) : Option Nat :=
  (List.range 256).find? fun n => tunActive s n && !s.on (TT_STATE_DIR n) && !s.on (TT_STATE_CASC n) && s.rd (TT_REQ_KIND n) = kind &&
    s.rd (TT_ENDP_INPORT n) = c

/-- That tunnel as the last table swap chose it, while it is ACTIVE: its successor serves from the next swap on (R311). -/
def ownTunnel (s : State) (c kind : Nat) : Option Nat := (mfind (s.adp c).own kind).filter (tunActive s)

/-- A table swap chooses the tunnels of the switch's and the hub's own traffic (R311). -/
def adoptOwn (s : State) : State :=
  forAll [0, 1] (fun c t =>
    t.setAdp c { (t.adp c) with own := [1, 2].filterMap fun k => (lowestOwn t c k).map fun n => (k, n) }) s

/-! ### The PCIe switch (R310, R315, R317): the layouts of its configuration space and of a TLP are PCI Express's (log entry 113) -/

/-- A port has a downstream port of the switch, at the device number equal to its own: the lowest port of a flex PCIe group, or a branch port to
which the image gives USB4 downstream (R310). The image alone fixes them, so that the host enumerates an empty port too. -/
def switchPort (s : State) (q : Nat) : Bool :=
  if q < 8 then 2 ≤ q && bit (portModes s q) 1
  else match portRecord s q with
    | none => false
    | some r => 12 ≤ q && byteAt r 1 = 4 && byteAt r 2 = 1

/-- The devices of the internal bus. -/
def switchPorts (s : State) : List Nat := (List.range 20).filter (switchPort s)

/-- The place of the upstream port's own registers beside those of the devices. -/
def upstreamDev : Nat := 31

/-- The bits of a configuration word that a host writes: command, bus numbers, and the windows of memory. -/
def cfgMask (dw : Nat) : Nat :=
  match dw with
  | 1 => 0x00000547 | 6 => 0x00FFFFFF | 8 => 0xFFF0FFF0 | 9 => 0xFFF0FFF0 | 10 => 0xFFFFFFFF | 11 => 0xFFFFFFFF | _ => 0

/-- A written configuration word of a function of the switch at crown port `c`; every one is 0 after a reset of the port. -/
def cfgWord (s : State) (c dev dw : Nat) : Nat := mget 0 (s.adp c).cfg (1024 * dev + dw)

/-- The bus on a function's downstream side, and the last bus below it. -/
def secondary (s : State) (c dev : Nat) : Nat := bits (cfgWord s c dev 6) 15 8
def subordinate (s : State) (c dev : Nat) : Nat := bits (cfgWord s c dev 6) 23 16

/-- An address lies in one of the memory windows of a function, whose decoding is enabled. -/
def inWindow (s : State) (c dev a : Nat) : Bool :=
  let m := cfgWord s c dev 8
  let f := cfgWord s c dev 9
  let lo := cfgWord s c dev 10 * 2 ^ 32 + bits f 15 4 * 2 ^ 20
  let hi := cfgWord s c dev 11 * 2 ^ 32 + bits f 31 20 * 2 ^ 20 + 0xFFFFF
  bit (cfgWord s c dev 1) 1 &&
    ((bits m 15 4 * 2 ^ 20 ≤ a && a ≤ bits m 31 20 * 2 ^ 20 + 0xFFFFF) || (lo ≤ a && a ≤ hi))

/-- Where a TLP goes from the upstream port (R311). -/
inductive Route where
  /-- To a downstream port, and whether as a Type 0 configuration request. -/
  | port (q : Nat) (asType0 : Bool)
  /-- To every downstream port. -/
  | every
  /-- To a function of the switch. -/
  | own (dev : Nat)
  | nowhere
deriving DecidableEq, Repr

/-- A TLP past its prefixes. -/
def tlpHeader : Nat → Bytes → Bytes
  | 0, t => t
  | fuel + 1, t => if byteAt t 0 / 32 = 4 then tlpHeader fuel (t.drop 4) else t

/-- The downstream port whose buses hold a bus number. -/
def busOwner (s : State) (c b : Nat) : Option Nat :=
  (switchPorts s).find? fun q => secondary s c q ≠ 0 && secondary s c q ≤ b && b ≤ subordinate s c q

/-- A TLP that is routed by ID. -/
def routeId (s : State) (c b : Nat) : Route := match busOwner s c b with | none => .nowhere | some q => .port q false

/-- A TLP that is routed by address: through the window of the upstream port and that of one downstream port. -/
def routeAddress (s : State) (c a : Nat) : Route :=
  match (switchPorts s).find? fun q => inWindow s c upstreamDev a && inWindow s c q a with
  | none => .nowhere
  | some q => .port q false

/-- The address that a TLP names: of 3 or of 4 words of header. -/
def tlpAddress (t : Bytes) : Nat := if byteAt t 0 / 32 % 2 = 1 then beAt t 8 8 else beAt t 8 4

/-- The route of a TLP by its type (R311). -/
def routeTlp (s : State) (c : Nat) (t : Bytes) : Route :=
  let b := byteAt t 8
  match byteAt t 0 % 32 with
  | 0x04 => .own upstreamDev
  | 0x05 =>
    if b = secondary s c upstreamDev then (if switchPort s (byteAt t 9 / 8) then .own (byteAt t 9 / 8) else .nowhere)
    else (match busOwner s c b with | none => .nowhere | some q => .port q (b = secondary s c q))
  | 0x0A => routeId s c b
  | 0x0B => routeId s c b
  | 0x12 => routeId s c b
  | 0x11 => routeAddress s c (tlpAddress t)
  | 0x13 => .every
  | 0x14 => .own upstreamDev
  | 0x00 => routeAddress s c (tlpAddress t)
  | 0x01 => routeAddress s c (tlpAddress t)
  | 0x0C => routeAddress s c (tlpAddress t)
  | 0x0D => routeAddress s c (tlpAddress t)
  | 0x0E => routeAddress s c (tlpAddress t)
  | _ => .nowhere

/-- A TLP that its completer answers: a read, a configuration, I/O or atomic request. -/
def nonPosted (t : Bytes) : Bool :=
  let k := byteAt t 0 % 32
  ((k = 0 || k = 1) && byteAt t 0 / 32 < 2) || k = 2 || k = 4 || k = 5 || k = 0x0C || k = 0x0D || k = 0x0E

/-- Slot Capabilities of a downstream port (R317); the slot power limit, which the spec does not give, as an argument. -/
def slotCaps (s : State) (q limit : Nat) : Nat :=
  let button := 12 ≤ q && (evtOf s (0x10 + (q - 12))).isSome
  b2n button + 2 + 0x10 + 0x40 + limit % 1024 * 2 ^ 7 + 2 ^ 18 + q * 2 ^ 19

/-- Slot Control and Status of a downstream port: power indicator, power controller, attention button pressed, presence (R317, R318, R324). -/
def hotPlugWord (s : State) (q : Nat) : Nat :=
  let a := s.adp q
  let ind := match s.rd (ADP_PCIE_PIND q) with | 1 => 1 | 2 => 2 | _ => 3
  ind * 2 ^ 8 + b2n a.slotOff * 2 ^ 10 + b2n a.attention * 2 ^ 16 + b2n (s.on (ADP_PCIE_PRESENT q)) * 2 ^ 22

/-- A configuration word as it reads (R315, R317): what neither the spec nor a write gives is left free. -/
def cfgRead (s : State) (c dev dw : Nat) : Nat × State :=
  let down := dev ≠ upstreamDev
  let (v, t) := s.free
  if dw = 0 then ((deviceId s + (if down then 0x0100 else 0)) * 65536 + s.rd SYS_ID_VENDOR, s)
  else if dw = 2 then (0x06040000 + v % 256, t)
  else if dw = 3 then (0x00010000, s)
  else if dw = 9 then (cfgWord s c dev 9 + 0x00010001, s)
  else if cfgMask dw ≠ 0 then (cfgWord s c dev dw, s)
  else if down ∧ dw = Config.pcieCap / 4 + 5 then (slotCaps s dev v, t)
  else if down ∧ dw = Config.pcieCap / 4 + 6 then (hotPlugWord s dev, s)
  else (v % 2 ^ 32, t)

/-- An Unsupported Request completion for a request TLP. -/
def urCompletion (req : Bytes) : Bytes := [0x0A, 0, 0, 0, 0, 0, 0x20, 4] ++ slice req 4 3 ++ [0]

/-- A completion with success for a configuration request, with its data if it read. -/
def cfgCompletion (t : Bytes) (data : Option Nat) : Bytes :=
  (match data with | none => ([0x0A, 0, 0, 0] : Bytes) | some _ => [0x4A, 0, 0, 1]) ++ slice t 8 2 ++ [0, 4] ++ slice t 4 3 ++ [0] ++
    (match data with | none => [] | some v => leBytes 4 v)

/-! ### The Enhanced SuperSpeed hub (R310): the packet's layout is USB 3.2's (log entry 113) -/

/-- The port that a hub port serves: 1 to 6 are P2 to P7, 7 to 14 are P12 to P19. -/
def hubPort (k : Nat) : Option Nat := if 1 ≤ k ∧ k ≤ 6 then some (k + 1) else if 7 ≤ k ∧ k ≤ 14 then some (k + 5) else none

/-- A hub port can report a connection: its port has a USB 3 personality, and is not absorbed. -/
def hubPortLive (s : State) (k : Nat) : Bool :=
  match hubPort k with
  | none => false
  | some q => persUsb (persOf s q) || (q < 8 && s.rd (CAN_STAT_STATE q) = 5)

/-- A hub port reports a connection (R310). -/
def hubConnected (s : State) (k : Nat) : Bool := match hubPort k with | none => false | some q => hubPortLive s k && portUp s q

/-- The Container ID that every hub and the management function carry: SYS_UID and eight fixed bytes (R310, R335). -/
def containerId (s : State) : Bytes :=
  leBytes 4 (s.rd (FUSE_UID_V 0)) ++ leBytes 4 (s.rd (FUSE_UID_V 1)) ++ [0x54, 0x49, 0x52, 0x4C, 0x4F, 0x53, 0x55, 0x48]

/-- A BOS descriptor: USB 2.0 Extension, without LPM, and Container ID (R335). -/
def bosDescriptor (s : State) : Bytes := ([5, 0x0F, 32, 0, 2, 7, 0x10, 2, 0, 0, 0, 0, 20, 0x10, 4, 0] : Bytes) ++ containerId s

/-- The hub port that a packet's route string names at the hub's depth, 0 for the hub itself. -/
def routeNibble (s : State) (c : Nat) (data : Bytes) : Nat :=
  let d := (s.adp c).depth
  bits (leAt data 0 4) (8 + 4 * d) (5 + 4 * d)

/-- A packet of the hub's own default control pipe (R311): SET_HUB_DEPTH sets the nibble that the hub goes by; GET_DESCRIPTOR of the BOS is
answered. What else the hub answers is USB 3.2's. -/
def hubRequest (c : Nat) (data : Bytes) (s : State) : State :=
  let setup := byteAt data 0 % 32 = 8 && bit (byteAt data 5) 7
  if setup && byteAt data 14 = 0x20 && byteAt data 15 = 0x0C then s.setAdp c { (s.adp c) with depth := leAt data 16 2 % 5 }
  else if setup && byteAt data 14 = 0x80 && byteAt data 15 = 6 && byteAt data 17 = 0x0F then s.emit (.unit c "hub descriptor" (bosDescriptor s))
  else s.emit (.note "hub request" [c])

end Sys2Proof.Machine
end

