-- ==== Sys2Proof/Machine/Mst.lean ====
section
/-! DEFINITION. The DisplayPort OUT adapters of a USB4 crown link, and the MST branch device on the adapter of the lowest routed pipe (R287). The
addresses and the framing of sideband messages are DisplayPort's (log entry 114). -/

namespace Sys2Proof.Machine

/-- The pipes that have a route: one DisplayPort OUT adapter for each (R287). -/
def routedPipes (s : State) : List Nat := (List.range 4).filter fun d => s.on (PIPE_ROUTE_VALID d)

/-- The adapter that also accepts MST: that of the lowest routed pipe, over USB4. -/
def mstAdapter (s : State) (k : Nat) : Bool := (routedPipes s).head? = some k && pushed s k

/-- The pipe that an output port of the branch device leads to: port 1 + d. -/
def mstPipe (s : State) (port : Nat) : Option Nat := if 1 ≤ port ∧ (routedPipes s).contains (port - 1) then some (port - 1) else none

/-! ### Framing -/

/-- A CRC of `w` bits over `n` bits of a number, most significant first, with initial value 0. -/
def crcBits (w poly x : Nat) : Nat → Nat
  | 0 => 0
  | n + 1 =>
    let r := crcBits w poly (x / 2) n
    let b := (r / 2 ^ (w - 1) + x) % 2
    (2 * r % 2 ^ w) ^^^ (if b = 1 then poly else 0)

/-- A reply as sideband transactions of at most 47 bytes of body, each with its header and the CRCs of both. -/
def frameReply (body : Bytes) : Nat → Bool → List Bytes
  | 0, _ => []
  | fuel + 1, first =>
    let part := body.take 47
    let last := decide (body.length ≤ 47)
    let h : Bytes := [0x10, BitVec.ofNat 8 (part.length + 1)]
    let flags := b2n first * 8 + b2n last * 4
    let x := beNat h * 16 + flags
    (h ++ [BitVec.ofNat 8 (flags * 16 + crcBits 4 0x3 x 20)] ++ part ++ [BitVec.ofNat 8 (crcBits 8 0xD5 (beNat part) (8 * part.length))]) ::
      (if last then [] else frameReply (body.drop 47) fuel false)

/-- The body of a request that has been written whole: its header gives the bytes of the path, and the length of body and CRC. -/
def requestBody (b : Bytes) : Option Bytes :=
  let rad := byteAt b 0 / 16 / 2
  let n := byteAt b (1 + rad) % 64
  if b.length < 3 + rad + n then none else some (slice b (3 + rad) (n - 1))

/-! ### The branch device -/

/-- A reply waits at the adapter, and an interrupt says so. -/
def mstReply (k : Nat) (body : Bytes) (s : State) : State :=
  let x := s.pipe k
  pipeUpstream k [0x82] (s.setPipe k { x with branch := { x.branch with replies := x.branch.replies ++ frameReply body (body.length + 1) true } })

/-- A request that is turned away. -/
def mstNak (k id reason : Nat) (s : State) : State :=
  let (v, t) := s.free
  mstReply k ([BitVec.ofNat 8 (128 + id)] ++ beBytes 16 v ++ [BitVec.ofNat 8 reason, 0]) t

/-- A sideband request for a sink goes to it over AUX or I2C, and waits for the answer. -/
def mstRelay (k id d : Nat) (data : Bytes) (address : Option Nat) (s : State) : State :=
  let x := s.pipe d
  let what := if id = 0x20 ∨ id = 0x21 then "AUX" else "I2C"
  if x.remote.isSome then mstNak k id 4 s
  else (s.setPipe d { x with remote := some id, aux := address }).emit (.unit (s.rd (PIPE_ROUTE_PORT d)) what data)

/-- What LINK_ADDRESS answers: the branch device's identity, its input port, and output port 1 + d for every routed pipe d, with the state of
its plug. -/
def linkAddress (s : State) (v : Nat) : Bytes :=
  let outs := (routedPipes s).flatMap fun d =>
    [BitVec.ofNat 8 (0x30 + 1 + d), BitVec.ofNat 8 (64 * b2n (s.on (ADP_DP_HPD (s.rd (PIPE_ROUTE_PORT d))))), BitVec.ofNat 8 v] ++ beBytes 16 (v / 256) ++
      [(0x11 : Byte)]
  [0x01] ++ beBytes 16 (v / 2 ^ 136) ++ [BitVec.ofNat 8 (1 + (routedPipes s).length), 0x90, 0xC0] ++ outs

/-- A sideband request (R287): the ten messages that the branch device supports; every other is turned away. -/
def mstRequest (k : Nat) (body : Bytes) (s : State) : State :=
  let id := byteAt body 0 % 128
  let port := byteAt body 1 / 16
  let x := s.pipe k
  let keep (b : Branch) (u : State) : State := u.setPipe k { (u.pipe k) with branch := b }
  let head : Bytes := [BitVec.ofNat 8 id, BitVec.ofNat 8 (port * 16)]
  if id = 0x01 then let (v, t) := s.free; mstReply k (linkAddress t v) t
  else if id = 0x14 then mstReply k [0x14] (keep { x.branch with payloads := [] } s)
  else match mstPipe s port with
    | none => mstNak k id 3 s
    | some d =>
      match id with
      | 0x10 => let (v, t) := s.free; mstReply k (head ++ beBytes 4 v) t
      | 0x11 =>
        let vcpi := byteAt body 2 % 128
        let pbn := beAt body 3 2
        mstReply k (head ++ slice body 2 3)
          (keep { x.branch with payloads := if pbn = 0 then mdel x.branch.payloads vcpi else mins x.branch.payloads vcpi (d, pbn) } s)
      | 0x20 => mstRelay k id d ([BitVec.ofNat 8 (0x90 + byteAt body 1 % 16)] ++ slice body 2 2 ++ [BitVec.ofNat 8 (byteAt body 4 - 1)])
          (some (byteAt body 1 % 16 * 65536 + beAt body 2 2)) s
      | 0x21 => mstRelay k id d ([BitVec.ofNat 8 (0x80 + byteAt body 1 % 16)] ++ slice body 2 2 ++ [BitVec.ofNat 8 (byteAt body 4 - 1)] ++ body.drop 5)
          none s
      | 0x22 => mstRelay k id d (body.drop 1) none s
      | 0x23 => mstRelay k id d (body.drop 1) none s
      | 0x24 => mstReply k head (keep { x.branch with phyOff := x.branch.phyOff.erase d } s)
      | 0x25 => mstReply k head (keep { x.branch with phyOff := if x.branch.phyOff.contains d then x.branch.phyOff else x.branch.phyOff ++ [d] } s)
      | _ => mstNak k id 4 s

/-- The sink's answer to a sideband request. -/
def mstAnswer (k id d : Nat) (data : Bytes) (s : State) : State :=
  if byteAt data 0 ≠ 0 then mstNak k id 4 s
  else if id = 0x20 ∨ id = 0x22 then
    mstReply k ([BitVec.ofNat 8 id, BitVec.ofNat 8 (1 + d), BitVec.ofNat 8 (data.length - 1)] ++ data.drop 1) s
  else mstReply k [BitVec.ofNat 8 id, BitVec.ofNat 8 (16 * (1 + d))] s

/-- The DPCD of the branch device: the windows of requests and replies, the interrupt vector, and the capability to take MST. -/
def mstDpcd (a : Nat) : Bool := (0x1000 ≤ a && a < 0x1200) || (0x1400 ≤ a && a < 0x1600) || a = 0x2003 || a = 0x0021

/-- The branch device of pipe `k` takes the acknowledgement of a native AUX write, with its own state now `b`. -/
def mstAck (k : Nat) (b : Branch) (s : State) : State :=
  pipeUpstream k [0x81, 0] (s.setPipe k { s.pipe k with branch := b })

/-- `data` written at byte `off` of the request's place: a request that is whole is carried out. -/
def mstPut (k off : Nat) (data : Bytes) (s : State) : State :=
  let b := (s.pipe k).branch
  let req := b.req.take off ++ data
  match requestBody req with
  | none => mstAck k { b with req := req } s
  | some body => mstRequest k body (mstAck k { b with req := [] } s)

/-- A native AUX write to it: the request's place, or the acknowledgement of a reply, which makes room for the next. -/
def mstWrite (k a : Nat) (data : Bytes) (s : State) : State :=
  let b := (s.pipe k).branch
  if a < 0x1200 then mstPut k (a - 0x1000) data s
  else mstAck k (if a = 0x2003 ∧ bit (byteAt data 0) 4 then { b with replies := b.replies.drop 1 } else b) s

/-- A native AUX read of it. -/
def mstRead (k a n : Nat) (s : State) : State :=
  let x := (s.pipe k).branch
  let window := x.replies.head?.getD []
  let bytes : Bytes :=
    if 0x1400 ≤ a ∧ a < 0x1600 then (List.range n).map fun i => window.getD (a - 0x1400 + i) 0
    else if a = 0x2003 then [BitVec.ofNat 8 (16 * b2n (!x.replies.isEmpty))]
    else if a = 0x0021 then [1]
    else List.replicate n 0
  pipeUpstream k (0x81 :: 0 :: bytes) s

end Sys2Proof.Machine
end

