-- ==== Sys2Proof/Machine/Adapter.lean ====
section
/-! DEFINITION. Port adapters (R309 to R326): link-up and link-down, DisplayPort outputs, PCIe with eject and surprise
removal, Ethernet, USB 3, and the stamps of time frames at ingress (R359 to R365). -/

namespace Sys2Proof.Machine

/-! ### Rates -/

/-- The lane rates of a personality, rising (R17, R254). -/
def persRates (k : Nat) : List Nat :=
  if k = 1 then [1, 4, 6, 0xB, 0xF] else if k = 2 then [0xD] else if k = 3 ∨ k = 4 then [9] else if persUsb k then [4, 8]
  else if persDp k then [3, 2, 5, 7, 8, 0xA, 0xC] else []

/-- A link of the port's personality can run at a rate: one of its own, and no higher than MAXRATE of the PORT record allows, which counts
PCIe's rates from 1, and DisplayPort's from 2.7 Gb/s on (R17, R37, R254, R313). -/
def rateUsable (s : State) (p code : Nat) : Bool :=
  let k := persOf s p
  let x := match portRecord s p with | none => 0 | some r => byteAt r 4
  match (persRates k).findIdx? (· = code) with
  | none => false
  | some i => x = 0 || (if k = 1 then i < x else i ≤ x)

/-- Where a personality does not detect polarity itself, the cells invert the pairs that the LANE records name (R40, R254, R256). -/
def applyPol (p : Nat) (s : State) : State :=
  let k := persOf s p
  match s.ld.image with
  | none => s
  | some im =>
    if !(persDp k || persEth k) then s
    else forAll (groupCells s p) (fun c t => t.wrs [(LC_STAT_INVA c, b2n (im.inverts c false)), (LC_STAT_INVB c, b2n (im.inverts c true))]) s

/-- The pair directions that a personality sets at a Type-C port (R254, R255). In alternate mode every pair transmits, but for pin assignment D,
whose USB 3.2 link takes the connector's lane 1; the other personalities have a pair of each direction in each cell, and asymmetric USB4 turns one
pair as the host asks (log entry 115). -/
def persDirs (p : Nat) (q : Partner) (s : State) : State :=
  let mode := if q.txMbps = q.rxMbps then 0 else if (q.rxMbps < q.txMbps) = isUpEnd s p then 1 else 2
  if !(p < 8) then s
  else if q.usb4 then setDirs p mode s
  else if persOf s p ≠ 9 then setDirs p 0 s
  else forAll (portCells p) (fun c t => t.wr (LC_STAT_DIR c) (if (q.reqs.any fun x => x.kind = 2) && !isY c then 1 else 3)) s

/-- A link-up or link-down of a port is an attach and detach event: not that of a branch port's USB 3.2 link (R22, R108). -/
def linkEvents (p : Nat) : Bool := 8 ≤ p

/-- The partner's link has come up, or gone down, without being an event of R22. -/
def setPartner (p : Nat) (q : Partner) (s : State) : State := { s with sv := { s.sv with att := mins s.sv.att p q } }

/-- A partner's link comes up (R22): the adapter's state and that of its cells, the byte time, and the attach. -/
def adapterUp (p : Nat) (q : Partner) (s : State) : State :=
  let k := persOf s p
  let t := s.wrs [(ADP_STAT_STATE p, 2), (ADP_STAT_PERS p, k), (ADP_STAT_RATE p, q.rate), (ADP_STAT_WIDTH p, q.width),
    (ADP_STAT_SPEED p, q.speed), (ADP_PCIE_PRESENT p, b2n (k = 1)), (ADP_PCIE_DLLACT p, b2n (k = 1)), (GRV_CALST_BT p, byteTime q.txMbps)]
  let t := forAll ((groupCells t p).filter fun c => !(t.lane c).faulted) (fun c u => u.wrs [(LC_STAT_STATE c, 4), (LC_STAT_RATE c, q.rate)]) t
  (if linkEvents p then attachPartner p q else setPartner p q) (raise (portGrove p) 17 (applyPol p (persDirs p q t)))

/-- An eject press (R318): while the link retrains it is reported once the link is back. -/
def ejectPress (p : Nat) (s : State) : State :=
  let a := s.adp p
  let st := s.rd (ADP_STAT_STATE p)
  if s.rd (ADP_STAT_PERS p) ≠ 1 then s
  else if st = 1 ∨ st = 6 then s.setAdp p { a with pressDue := true }
  else raise (portGrove p) 19 ((s.setAdp p { a with attention := true, pressDue := false }).emit (.unit p "hot-plug interrupt" []))

/-- EJECT_PRESS (R317, R318): the eject input that PINS gives the port has been low for 20 ms. -/
def execEjectPress (port : Port) (s : State) : Host.Outcome State Fault Refusal :=
  let p := port.val
  .next (if 12 ≤ p ∧ !p46Stopped s ∧ (evtOf s (0x10 + (p - 12))).isSome then ejectPress p s else s)

/-- A write to ADP_PCIE_p: EJREQ acts as a press and clears at once (R324). -/
def wrAdpPcie (p v : Nat) (s : State) : State := if bit v 31 then ejectPress p s else s

/-- Power Controller Control is written off (R318): new requests stop; a port whose link is down is EJECTED at once. -/
def slotPowerOff (p : Nat) (s : State) : State :=
  if persOf s p ≠ 1 then s
  else
    let a := s.adp p
    match s.rd (ADP_STAT_STATE p) with
    | 4 => s
    | 5 => s
    | 0 => (s.setAdp p { a with ejected := true, slotOff := true }).wr (ADP_STAT_STATE p) 5
    | _ => (s.setAdp p { a with slotOff := true }).wr (ADP_STAT_STATE p) 4

/-- POWER_CONTROLLER_OFF (R318). -/
def execPowerControllerOff (port : Port) (s : State) : Host.Outcome State Fault Refusal := .next (slotPowerOff port.val s)

/-- EJECT_LINK_DISABLE (R318): the completions are in, or 10 ms have passed; link-down is a port-down. -/
def execEjectLinkDisable (port : Port) (s : State) : Host.Outcome State Fault Refusal :=
  let p := port.val
  if s.rd (ADP_STAT_STATE p) ≠ 4 then .next s
  else
    let t := attachEvent (portDown p 1 (s.setAdp p { (s.adp p) with ejected := true }))
    .next (raise (portGrove p) 18 (t.wr (ADP_STAT_STATE p) 5))

/-- Power Controller Control is written on (R318): an EJECTED port trains again. -/
def slotPowerOn (p : Nat) (s : State) : State :=
  if s.rd (ADP_STAT_STATE p) ≠ 5 then s
  else
    let t := (s.setAdp p { (s.adp p) with ejected := false, slotOff := false }).wr (ADP_STAT_STATE p) 0
    if retrainBlocked t p then t else startTraining p t

/-- POWER_CONTROLLER_ON (R318). -/
def execPowerControllerOn (port : Port) (s : State) : Host.Outcome State Fault Refusal := .next (slotPowerOn port.val s)

/-! ### PCIe -/

/-- A TLP is a completion: Fmt and Type say Cpl or CplD. -/
def isCompletion (data : Bytes) : Bool := byteAt data 0 % 32 = 0x0A

/-- A unit discarded for its own standard's check (R309). -/
def rxBad (p : Nat) (s : State) : State := s.inc (ADP_CNT_RXBAD p)

/-- A unit that finds no tunnel (R311, R321). -/
def noTunnel (p : Nat) (s : State) : State := s.inc (ADP_CNT_NOTUN p)

/-- A unit that a port receives by its standard is held in the port's hold buffer (R264, R265). -/
def holdsUnits (s : State) (p : Nat) : Bool :=
  let k := s.rd (ADP_STAT_PERS p)
  (p < 2 && s.rd (CAN_STAT_STATE p) = 5) || (12 ≤ p && (persEth k || persUsb k))

/-- What arrives at a port between the fence and the remap is lost with the grove: the partner replays it (R267, R393). -/
def fencedPort (s : State) (p : Nat) : Bool := portFenced s p && !holdsUnits s p

/-! ### Captures (R360, R361, R364, R365) -/

/-- A base's extended value, its wraps included, in 2^-32 ns. -/
def baseNow (s : State) (n : Nat) : Nat := s.rd (TIM_TBWRAP_WRAPS n) * 2 ^ 64 + mget 0 s.tb n

/-- A signed 24-bit value. -/
def signed24 (x : Nat) : Int := if x < 2 ^ 23 then (x : Int) else (x : Int) - 2 ^ 24

/-- Picoseconds in 2^-32 ns. -/
def psUnits (x : Int) : Int := x * 2 ^ 32 / 1000

/-- A value moved by picoseconds, modulo the extended time. -/
def movedBy (x : Nat) (ps : Int) : Nat := (((x : Int) + psUnits ps) % 2 ^ 96).toNat

/-- An egress stamp: the pin time and TIM_ASYOUT_p (R360). -/
def stampOut (s : State) (p n : Nat) : Nat := movedBy (baseNow s n) (signed24 (s.rd (TIM_ASYOUT_PS p)))

/-- An ingress stamp: the pin time less TIM_ASYIN_p (R360). -/
def stampIn (s : State) (p n : Nat) : Nat := movedBy (baseNow s n) (-signed24 (s.rd (TIM_ASYIN_PS p)))

/-- Keep a change of a base's INC, RUN or value, of which the last 16 are kept (R361). -/
def noteChange (n : Nat) (s : State) : State :=
  let m : TbMark := { instant := s.clock, value := baseNow s n, inc := mget (2 ^ 32) s.incs n, run := tbRunning s n }
  { s with sc := { s.sc with marks := mins s.sc.marks n ((m :: mget [] s.sc.marks n).take 16) } }

/-- A base's value at an instant, back through its changes, the latest first; none where the instant is older than the oldest of 16. -/
def rewind (k value inc at_ : Nat) (run : Bool) (instant : Nat) : List TbMark → Option Nat
  | [] => if k = 16 then none else some (value - b2n run * (inc * (at_ - instant)))
  | m :: l =>
    if m.instant ≤ instant then some (value - b2n run * (inc * (at_ - instant)))
    else rewind (k + 1) m.value m.inc m.instant m.run instant l

/-- The value of a base at a capture (R361): what it held at that instant. A capture stands at the start of its TIME cycle (log entry 117). -/
def baseAt (s : State) (n instant : Nat) : Option Nat :=
  rewind 0 (baseNow s n) (mget (2 ^ 32) s.incs n) s.clock (tbRunning s n) instant (mget [] s.sc.marks n)

/-- Bytes 4 to 15 of an upstream time header: WRAPS, NS, FRAC in 1/65,536 ns, reserved (R365). -/
def stampBytes (x : Nat) : Bytes := beBytes 4 (x / 2 ^ 64) ++ beBytes 4 (x / 2 ^ 32) ++ beBytes 2 (x / 2 ^ 16) ++ [0, 0]

/-- The header of an ingress frame (R361, R364, R365): VALID with the time of an event message's capture; a capture too old to convert is not
VALID and sets TSINV. -/
def ingressHeader (p tb : Nat) (capture : Option Nat) (s : State) : Bytes × State :=
  let head (valid : Nat) : Bytes := [0x01, BitVec.ofNat 8 (4 * tb + valid), 0, 0]
  match capture with
  | none => (head 0 ++ List.replicate 12 0, s)
  | some c => match baseAt s tb c with
    | some x => (head 1 ++ stampBytes (movedBy x (-signed24 (s.rd (TIM_ASYIN_PS p)))), s)
    | none => (head 0 ++ List.replicate 12 0, raise 20 25 s)

/-! ### Units that enter -/

/-- A unit enters its tunnel; a frame of a Time tunnel behind its header. -/
def deliver (p line : Nat) (x : LateUnit) (s : State) : State :=
  match x.time with
  | none => ingressUnit p x.tun x.pre line x.data s
  | some (tb, capture) => let (h, t) := ingressHeader p tb capture s; ingressUnit p x.tun x.pre line (h ++ x.data) t

/-- A unit arrives at a port, with its pre-colour (R196), and is recorded in its hold buffer where the personality has one, from which a fenced
grove has it later (R264, R265, R267, R362). -/
def takeIn (p line : Nat) (x : LateUnit) (s : State) : State :=
  if fencedPort s p then s
  else
    let t := if holdsUnits s p then updatePause p (holdUnit p x.data.length s) else s
    if portFenced s p then t.setAdp p { (t.adp p) with late := (t.adp p).late ++ [x] } else deliver p line x t

/-- A unit without a time header arrives. -/
def admitUnit (p n pre line : Nat) (data : Bytes) (s : State) : State := takeIn p line { tun := n, pre := pre, time := none, data := data } s

/-- The hold buffer's units are delivered once the port's cells are connected to GF (R267). -/
def deliverLate (p : Nat) (s : State) : State :=
  forAll (s.adp p).late (deliver p (leadLine s)) (s.setAdp p { (s.adp p) with late := [] })

/-- The UR completion of a request that a crown port turns away goes back up on that port (R311). -/
def turnAway (p : Nat) (t : Bytes) (s : State) : State :=
  if nonPosted t then s.emit (.unit p "TLP" (urCompletion t)) else s

/-- A write to Slot Control and Status of a downstream port (R318, R324): the power indicator, which the hub drives on the EVT pin that PINS
gives it, Power Controller Control, and the attention button, which a 1 clears. -/
def slotControl (q v : Nat) (s : State) : State :=
  let pind := match bits v 9 8 with | 1 => 1 | 2 => 2 | 3 => 0 | _ => s.rd (ADP_PCIE_PIND q)
  let t := s.wr (ADP_PCIE_PIND q) pind
  let t := match (if 12 ≤ q then evtOf t (0x20 + (q - 12)) else none) with | none => t | some e => t.emit (.pin "EVT" e (pind ≠ 0))
  let t := if bit v 16 then t.setAdp q { (t.adp q) with attention := false } else t
  if bit v 10 then slotPowerOff q t else slotPowerOn q t

/-- The bits that a request's byte enables select. -/
def enableMask (be : Nat) : Nat := ((List.range 4).map fun i => b2n (bit be i) * (255 * 256 ^ i)).sum

/-- A TLP for a function of the switch itself (R311, R315): a configuration request is carried out and answered, a request of any other kind
turned away. -/
def switchAccess (c dev : Nat) (t : Bytes) (s : State) : State :=
  let dw := byteAt t 10 % 16 * 64 + byteAt t 11 / 4
  let cfg := byteAt t 0 % 32 = 4 || byteAt t 0 % 32 = 5
  let answer (d : Option Nat) (u : State) : State := u.emit (.unit c "TLP" (cfgCompletion t d))
  if !cfg then turnAway c t s
  else if byteAt t 9 % 8 ≠ 0 then turnAway c t s
  else if byteAt t 0 / 32 = 0 then let (v, u) := cfgRead s c dev dw; answer (some v) u
  else
    let m := enableMask (byteAt t 7 % 16)
    let v := leAt t 12 4
    let mix (old mask : Nat) : Nat := (old &&& (0xFFFFFFFF - (mask &&& m))) ||| (v &&& (mask &&& m))
    if dev ≠ upstreamDev ∧ dw = Config.pcieCap / 4 + 6 then answer none (slotControl dev (mix (hotPlugWord s dev &&& 0xFFFF) 0xFFFFFFFF) s)
    else
      let a := s.adp c
      answer none (s.setAdp c { a with cfg := mput 0 a.cfg (1024 * dev + dw) (mix (cfgWord s c dev dw) (cfgMask dw)) })

/-- A TLP leaves the switch through a downstream port (R311): in the port's tunnel, on a Canopy link only where it came in that tunnel. -/
def switchForward (c tun q : Nat) (asType0 : Bool) (data t : Bytes) (s : State) : State :=
  let pre := data.take (data.length - t.length)
  let unit := if asType0 then pre ++ [BitVec.ofNat 8 (byteAt t 0 - 1)] ++ t.drop 1 else data
  let st := s.rd (ADP_STAT_STATE q)
  match downTunnel s c q 1 with
  | none => turnAway c t s
  | some d =>
    if (s.rd (CAN_STAT_STATE c) ≠ 5 && d ≠ tun) || st = 4 || st = 5 then turnAway c t s
    else admitUnit c d 0 (leadLine s) unit
      (if nonPosted t then s.setAdp q { (s.adp q) with outstanding := (s.adp q).outstanding ++ [t] } else s)

/-- A TLP at a crown port (R311). -/
def switchTlp (c tun : Nat) (data : Bytes) (s : State) : State :=
  let t := tlpHeader data.length data
  match routeTlp s c t with
  | .nowhere => turnAway c t s
  | .own dev => if s.rd (CAN_STAT_STATE c) = 5 ∨ ownTunnel s c 1 = some tun then switchAccess c dev t s else turnAway c t s
  | .port q asType0 => switchForward c tun q asType0 data t s
  | .every => forAll ((switchPorts s).filter fun q => match downTunnel s c q 1 with
      | none => false
      | some d => s.rd (CAN_STAT_STATE c) = 5 || d = tun) (fun q u => switchForward c tun q false data t u) s

/-- TLP (R309, R311). At a crown port the switch routes it, by its own bytes; `tun` is the tunnel it came in on a Canopy link. Elsewhere it
enters `tun`, the port's own upstream tunnel: every TLP travels the tree through the upstream port (R315). -/
def execTlp (port : Port) (tun : Tun) (ok : Bool) (prefixes head data : Bytes) (s : State) : Host.Outcome State Fault Refusal :=
  let p := port.val
  let b := prefixes ++ head ++ data
  if !ok then .next (rxBad p s)
  else if p < 2 then .next (switchTlp p tun.val b s)
  else
    let a := s.adp p
    let t := if isCompletion b then s.setAdp p { a with outstanding := a.outstanding.drop 1 } else s
    .next (admitUnit p tun.val 0 (leadLine s) b t)

/-- A link is lost while the port is neither EJECTING nor EJECTED (R319): UR completions, DPC, SURPRISE, port-down. -/
def surpriseRemoval (p : Nat) (s : State) : State :=
  let a := s.adp p
  let up := (upTunnel s p 1 0).getD 0
  let t := forAll a.outstanding (fun r u => (ingressUnit p up 0 (leadLine u) (urCompletion r) u).inc (ADP_PCIE_URSYN p)) s
  let t := raise (portGrove p) 20 (t.setAdp p { a with outstanding := [] })
  let t := attachEvent (portDown p 1 t)
  t.setAdp p { (t.adp p) with dpc := true }

/-- SURPRISE_REMOVAL (R319). -/
def execSurpriseRemoval (port : Port) (s : State) : Host.Outcome State Fault Refusal :=
  let p := port.val
  let st := s.rd (ADP_STAT_STATE p)
  .next (if s.rd (ADP_STAT_PERS p) = 1 ∧ (st = 2 ∨ st = 3 ∨ st = 6) then surpriseRemoval p s else s)

/-! ### Link-up and link-down -/

/-- The rates of a USB4 link that the hub takes: Gen 3 and Gen 4; a port with a partner below Gen 3 stays at USB 2.0 (R242, R254). -/
def usb4Rate (code : Nat) : Bool := code = 0xC || code = 0xE

/-- A USB4 link's reference rate: 0.95 of its raw rate of 40, 80 or 120 Gb/s (R109, R242). -/
def usb4Mbps (raw : Nat) : Nat := raw * 95 / 100

/-- LINK_UP (R22; traffic on a port that Doze took down ends Doze, R436): a USB4 partner brings the port's USB4 link up, or, below Gen 3,
leaves the port at USB 2.0 (R242), at payload rates that
follow from the link's raw rates (R109), any other its adapter. A link comes up only at a rate that its personality has (R17). -/
def execLinkUp (port : Port) (partner : Partner) (s : State) : Host.Outcome State Fault Refusal :=
  let p := port.val
  if s.rd PST_PSSTAT_STATE = 2 ∧ s.ps.downed.contains p then .next (toActive s)
  else if retrainBlocked s p then .next s
  else if partner.usb4 then
    (if p < 8 ∧ (s.can p).entered = 2 ∧ usb4Rate partner.rate then
      let partner := { partner with txMbps := usb4Mbps partner.txMbps, rxMbps := usb4Mbps partner.rxMbps }
      let t := s.wrs [(CAN_STAT_STATE p, 5), (CAN_STAT_ROLE p, b2n (2 ≤ p)), (GRV_CALST_BT p, byteTime partner.txMbps)]
      let t := forAll ((groupCells t p).filter fun c => !(t.lane c).faulted) (fun c u => u.wrs [(LC_STAT_STATE c, 4), (LC_STAT_RATE c, partner.rate)]) t
      .next (attachPartner p partner (persDirs p partner t))
    else if p < 8 ∧ (s.can p).entered = 2 then .next (s.setCan p { (s.can p) with entered := 0 })
    else .next s)
  else if !rateUsable s p partner.rate then .next s
  else
    let t := adapterUp p partner s
    .next (if (t.adp p).pressDue then ejectPress p t else t)

/-- A standard link goes down: three in succession lead to SELFCHK (R261, R263). -/
def linkDown (p : Nat) (s : State) : State :=
  let n := (s.adp p).downs + 1
  let t := if s.rd (ADP_STAT_PERS p) = 1 ∧ s.rd (ADP_STAT_STATE p) ≠ 4 then surpriseRemoval p s
    else if linkEvents p || s.rd (CAN_STAT_STATE p) = 5 then attachEvent (portDown p 1 s) else portDown p 1 s
  let t := t.setAdp p { (t.adp p) with downs := if n < 3 then n else 0 }
  forAll ((groupCells t p).filter fun c => !(t.lane c).faulted) (fun c u =>
    let v := u.wr (LC_RTR_CONSEC c) (min n 3)
    if n < 3 then v else raise (32 + c) 3 (v.wr (LC_STAT_STATE c) 8)) t

/-- LINK_DOWN (R263): of a port whose link is up by its standard. A Canopy link goes down by its own rules. -/
def execLinkDown (port : Port) (s : State) : Host.Outcome State Fault Refusal :=
  let p := port.val
  .next (if portUp s p ∧ !(p < 8 ∧ canActive s p) then linkDown p s else s)

/-- A port's partner runs at a fraction of its rate from now on. -/
def reduceRate (p num den : Nat) (s : State) : State :=
  match mfind s.sv.att p with
  | none => s
  | some q =>
    let r : Partner := { q with txMbps := q.txMbps * num / den, rxMbps := q.rxMbps * num / den }
    ({ s with sv := { s.sv with att := mins s.sv.att p r } }).wr (GRV_CALST_BT p) (byteTime r.txMbps)

/-- A port runs on fewer lanes: a mode change, which the next solve charges (R263, R395). -/
def narrowTo (p w : Nat) (s : State) : State :=
  let old := max 1 (s.rd (ADP_STAT_WIDTH p))
  let t := reduceRate p w old (s.wr (ADP_STAT_WIDTH p) w)
  structuralEvent (match mfind t.sv.att p with
    | none => t
    | some q => { t with sv := { t.sv with att := mins t.sv.att p { q with width := w } } })

/-- STANDARD_RECOVERY (R263, R264, R316): the keeper completes it alone; the link goes on, on fewer lanes where the recovery ends with `lanes`
fewer than before, and a press that waited is reported. -/
def execStandardRecovery (r : Recovery) (s : State) : Host.Outcome State Fault Refusal :=
  let p := r.port.val
  if !portUp s p ∨ (p < 8 ∧ canActive s p) then .next s
  else
    let t := s.setAdp p { (s.adp p) with downs := 0 }
    let t := if 1 ≤ r.lanes.val ∧ r.lanes.val < s.rd (ADP_STAT_WIDTH p) then narrowTo p r.lanes.val t else t
    let t := if s.rd (ADP_STAT_STATE p) = 6 then t.wr (ADP_STAT_STATE p) 2 else t
    .next (if (t.adp p).pressDue then ejectPress p t else t)

/-! ### DisplayPort outputs -/

/-- The pipe that drives a port. -/
def pipeOfPort (s : State) (p : Nat) : Option Nat :=
  (List.range 4).find? fun d => s.on (PIPE_ROUTE_VALID d) && s.rd (PIPE_ROUTE_PORT d) = p

/-- HPD_CHANGE (R314, R22): the change travels upstream as a unit; a rise starts training, a fall is the detach. In Rest and Dormant
the port is down and only the level is seen. -/
def execHpdChange (port : Port) (high : Bool) (partner : Option Partner) (s : State) : Host.Outcome State Fault Refusal :=
  let p := port.val
  if !persDp (persOf s p) ∨ groveDark s (portGrove p) then .next s
  else if 3 ≤ s.rd PST_PSSTAT_STATE then .next (s.setB (ADP_DP_HPD p) high)
  else
    let t := s.setB (ADP_DP_HPD p) high
    let t := match pipeOfPort t p with | none => t | some d => pipeUpstream d [0x82] t
    if high then
      let t := t.wrs [(ADP_STAT_STATE p, 1), (ADP_STAT_PERS p, persOf s p),
        (ADP_DP_SINKDSC p, match partner with | none => 0 | some q => b2n (q.reqs.any (·.dscOk)))]
      .next (match partner with | none => attachEvent t | some q => attachPartner p q t)
    else
      let t := if portUp s p then portDown p 1 t else (portReset p (dropTunnels p 1 t)).wr RST_CAUSE_PORT (s.rd RST_CAUSE_PORT)
      let t := (detachPartner p t).setAdp p { (t.adp p) with noStep0 := false }
      .next (t.setEg p { (t.eg p) with wait := 1, waiting := false })

/-- Mb/s of a DisplayPort lane after coding, by rate code (R274, R312). -/
def dpLaneMbps (code : Nat) : Nat :=
  match code with
  | 3 => 1296 | 2 => 2160 | 5 => 4320 | 7 => 6480 | 8 => 9697 | 0xA => 13091 | 0xC => 19394 | _ => 0

/-- The rate that adopted attributes need, in kb/s. -/
def streamKbps (a : Bytes) : Nat := if aDsc a then aPclk a * aDscBpp a / 16 else aPclk a * 3 * aFormat a

/-- The timing of the hold frame, which the pipe scans until its stream resumes (R292). -/
def resumeHold (d : Nat) (s : State) : State :=
  match (s.pipe d).attrs, (s.pipe d).hAttrs with
  | none, some a => if s.on (PIPE_STAT_FSVAL d) then adoptAttrs d a s else s
  | _, _ => s

/-- DP_LINK_TRAINING (R313): the attempts in order, falling back until one succeeds or none is left; each lane cell that is not in
FAULT carries two lanes (R395), but for the one that pin assignment D gives USB 3.2 (R312). -/
def execDpLinkTraining (port : Port) (tries : List DpTry) (s : State) : Host.Outcome State Fault Refusal :=
  let p := port.val
  if !persDp (persOf s p) ∨ !s.on (ADP_DP_HPD p) ∨ groveDark s (portGrove p) ∨ 3 ≤ s.rd PST_PSSTAT_STATE then .next s
  else
    let lanes := 2 * ((groupCells s p).filter fun c => !(s.lane c).faulted && !(altUsb s p && !isY c)).length
    let tries := tries.filter fun t => t.lanes ≤ lanes && [1, 2, 4].contains t.lanes && rateUsable s p t.rate
    let failed := (tries.takeWhile fun t => !t.ok).length
    let good := tries.find? (·.ok)
    let falls := if good.isSome then failed else failed - 1
    let t := forAll (List.range falls) (fun _ u => u.inc (ADP_DP_FALLBK p)) (s.inc (ADP_DP_TRAINS p))
    match good with
    | none => .next (raise (portGrove p) 22 (t.wr (ADP_STAT_STATE p) 0))
    | some g =>
      let t := t.wrs [(ADP_STAT_STATE p, 2), (ADP_STAT_PERS p, persOf s p), (ADP_STAT_RATE p, g.rate), (ADP_STAT_WIDTH p, g.lanes),
        (GRV_CALST_BT p, 417)]
      let t := forAll ((groupCells t p).filter fun c => !(t.lane c).faulted) (fun c u => u.wrs [(LC_STAT_STATE c, 4), (LC_STAT_RATE c, g.rate)]) t
      let t := match mfind t.sv.att p with | none => t | some q => persDirs p q t
      let t := raise (portGrove p) 17 (applyPol p t)
      match pipeOfPort t p with
      | none => .next t
      | some d =>
        let t := resumeHold d t
        let bad := match (t.pipe d).attrs with | none => false | some a => decide (dpLaneMbps g.rate * g.lanes * 1000 < streamKbps a)
        .next (t.setAdp p { (t.adp p) with noStep0 := bad })

/-- DPCD link-rate code of a rate code. -/
def dpcdRate (code : Nat) : Nat :=
  match code with | 3 => 0x06 | 2 => 0x0A | 5 => 0x14 | 7 => 0x1E | 8 => 0x01 | 0xA => 0x04 | 0xC => 0x02 | _ => 0

/-- A byte of the hub's own output link state (R314): rate, lanes, lane status; what the spec gives no value is left free. -/
def dpcdByte (p a : Nat) (s : State) : Nat × State :=
  let up := b2n (s.rd (ADP_STAT_STATE p) = 2)
  let w := s.rd (ADP_STAT_WIDTH p)
  match a with
  | 0x100 => (dpcdRate (s.rd (ADP_STAT_RATE p)), s)
  | 0x101 => (w, s)
  | 0x202 => (up * (0x07 + (if 2 ≤ w then 0x70 else 0)), s)
  | 0x203 => (up * (if w = 4 then 0x77 else 0), s)
  | _ => let (v, t) := s.free; (v % 256, t)

/-- Bytes of hub-owned DPCD from an address. -/
def dpcdRead (p a : Nat) : Nat → State → Bytes × State
  | 0, s => ([], s)
  | n + 1, s =>
    let (b, t) := dpcdByte p a s
    let (l, u) := dpcdRead p (a + 1) n t
    (BitVec.ofNat 8 b :: l, u)

/-- DPCD that the hub owns, and the maximum link rate and lane count, which it answers with values that carry the allotment (R314). -/
def dpcdOwned (a : Nat) : Bool := (0x100 ≤ a && a < 0x120) || (0x200 ≤ a && a < 0x300)
def dpcdMax (a : Nat) : Bool := a = 1 || a = 2

/-- A reply of the sink as it goes upstream: an acknowledged native read shows the DPCD that the hub shows, its own included where the read
takes in some of it. -/
def shownBytes (p step a : Nat) : Bytes → State → Bytes × State
  | [], s => ([], s)
  | b :: l, s =>
    let (x, t) : Byte × State :=
      if dpcdOwned a then let (v, t) := dpcdByte p a s; (BitVec.ofNat 8 v, t)
      else if dpcdMax a then let (v, t) := s.free; (BitVec.ofNat 8 v, t)
      else (dpcdShown step (s.on (ADP_DP_SINKDSC p)) a b, s)
    let (r, u) := shownBytes p step (a + 1) l t
    (x :: r, u)

/-- A reply as it goes upstream. -/
def shownReply (d : Nat) (data : Bytes) (s : State) : Bytes × State :=
  let step := match pipeTunnel s d with | none => 0 | some n => s.rd (TT_STATE_MODE n)
  match (s.pipe d).aux with
  | none => (data, s)
  | some a =>
    if byteAt data 0 ≠ 0 then (data, s)
    else let (l, t) := shownBytes (s.rd (PIPE_ROUTE_PORT d)) step a (data.drop 1) s; (data.take 1 ++ l, t)

/-- An AUX request (R314): native reads and writes of hub-owned DPCD are answered here, reads of the maximum rate and lanes with
values that carry the allotment (left free), everything else is relayed to the sink. -/
def auxRequest (k : Nat) (data : Bytes) (s : State) : State :=
  let p := s.rd (PIPE_ROUTE_PORT k)
  let cmd := byteAt data 0 / 16
  let a := byteAt data 0 % 16 * 65536 + byteAt data 1 * 256 + byteAt data 2
  let n := if data.length < 4 then 0 else byteAt data 3 % 16 + 1
  let every (f : Nat → Bool) : Bool := n ≠ 0 && (List.range n).all fun i => f (a + i)
  if !pipeActive s k ∨ groveDark s (portGrove p) then s
  else if cmd = 9 && every dpcdOwned then let (b, t) := dpcdRead p a n s; pipeUpstream k (0x81 :: 0 :: b) t
  else if cmd = 8 && dpcdOwned a then pipeUpstream k [0x81, 0] s
  else if cmd = 9 && every dpcdMax then
    let (v, t) := s.free
    pipeUpstream k (0x81 :: 0 :: beBytes n v) t
  else if cmd = 9 && mstAdapter s k && mstDpcd a then mstRead k a n s
  else if cmd = 8 && mstAdapter s k && mstDpcd a then mstWrite k a (data.drop 4) s
  else (s.setPipe k { (s.pipe k) with aux := if cmd = 9 then some a else none }).emit (.unit p "AUX" data)

/-- AUX_REQUEST (R283, R314). -/
def execAuxRequest (d : Pipe) (data : Bytes) (s : State) : Host.Outcome State Fault Refusal := .next (auxRequest d.val data s)

/-- AUX_REPLY (R283, R287, R314): type 0x81 upstream; the answer to a sideband request goes into its reply. -/
def execAuxReply (d : Pipe) (data : Bytes) (s : State) : Host.Outcome State Fault Refusal :=
  let x := s.pipe d.val
  let (shown, t) := shownReply d.val data s
  let t := t.setPipe d.val { x with aux := none, remote := none }
  .next (match x.remote with
    | some id => (match (routedPipes s).head? with | some k => mstAnswer k id d.val shown t | none => t)
    | none => pipeUpstream d.val (0x81 :: shown) t)

/-! ### PTP frames (R321, R363, R364) -/

/-- The base of a PTP domain (R364). -/
def domainBase (s : State) (dom : Nat) : Nat :=
  ((List.range 4).find? fun n => n ≠ 0 && s.rd (TIM_TBCTL_ROLE n) = 1 && s.rd (TIM_TBCTL_ARG n) = dom).getD 0

/-- Where a frame's payload begins and its EtherType, past up to two VLAN tags. -/
def etherType (f : Bytes) : Nat × Nat :=
  let t0 := beAt f 12 2
  if t0 = 0x8100 ∨ t0 = 0x88A8 then
    let t1 := beAt f 16 2
    if t1 = 0x8100 ∨ t1 = 0x88A8 then (22, beAt f 20 2) else (18, t1)
  else (14, t0)

/-- The PTP header of a frame (R321): layer 2, or UDP over IPv4 or IPv6 to port 319 or 320. -/
def ptpAt (f : Bytes) : Option Nat :=
  let (o, t) := etherType f
  let udp (h : Nat) : Option Nat := if beAt f (h + 2) 2 = 319 ∨ beAt f (h + 2) 2 = 320 then some (h + 8) else none
  if t = 0x88F7 then some o
  else if t = 0x0800 ∧ byteAt f (o + 9) = 17 then udp (o + 4 * (byteAt f o % 16))
  else if t = 0x86DD ∧ byteAt f (o + 6) = 17 then udp (o + 40)
  else none

/-- A PTP message is an event message: Sync, Delay_Req, Pdelay_Req, Pdelay_Resp (R363). -/
def ptpEvent (f : Bytes) (o : Nat) : Bool := byteAt f o % 16 < 4

/-! ### Ethernet -/

/-- A pause or PFC frame of the partner: priorities paused for quanta of 512 bit times (R166, R168); quanta 0 ends it and
resets the stall timer. -/
def pauseFrame (p : Nat) (f : Bytes) (s : State) : State :=
  let (o, _) := etherType f
  let e := s.eg p
  let dur (q : Nat) : Nat := q * 512 * 1000 / max 1 (portTx s p)
  let set (m : NMap Nat) (k q : Nat) : NMap Nat := if q = 0 then mdel m k else mins m k (s.clock + dur q)
  let op := beAt f o 2
  if op = 1 then
    let q := beAt f (o + 2) 2
    let t := s.setEg p { e with paused := set e.paused 8 q }
    if q = 0 then t.wr (GRV_FLST_EGHELD p) 0 else t
  else if op = 0x101 then
    let en := beAt f (o + 2) 2
    let ks := (List.range 8).filter fun k => bit en k
    let q (k : Nat) : Nat := beAt f (o + 4 + 2 * k) 2
    let t := s.setEg p { e with paused := ks.foldl (fun m k => set m k (q k)) e.paused }
    if ks.any fun k => q k = 0 then t.wr (GRV_FLST_EGHELD p) 0 else t
  else s

/-- ETHERNET_FRAME (R309, R321, R364, R365): from destination address to the last data byte. A tagged frame's DEI bit makes its pre-colour yellow
(R196). -/
def execEthernetFrame (port : Port) (frame : Bytes) (ok : Bool) (s : State) : Host.Outcome State Fault Refusal :=
  let p := port.val
  let k := s.rd (ADP_STAT_PERS p)
  if !persEth k then .next s
  else if !ok ∨ frame.length < 60 ∨ s.rd (ADP_ETHCTL_MAXFRM p) < frame.length + 4 then .next (rxBad p s)
  else if (etherType frame).2 = 0x8808 then .next (pauseFrame p frame s)
  else
    let tagged := beAt frame 12 2 = 0x8100 ∨ beAt frame 12 2 = 0x88A8
    let a := s.adp p
    let pre := b2n (tagged && bit (byteAt frame 14) 4)
    let index := if tagged then bits a.ethmap (4 * (byteAt frame 14 / 32) + 3) (4 * (byteAt frame 14 / 32)) else a.untag
    let plain : State := match upTunnel s p 3 index with
      | none => noTunnel p s
      | some n => admitUnit p n pre (leadLine s) frame s
    match ptpAt frame with
    | none => .next plain
    | some o =>
      match (List.range 16).findSome? fun i => upTunnel s p 4 i with
      | none => .next plain
      | some n =>
        let time := (domainBase s (byteAt frame (o + 4)), if ptpEvent frame o then some s.clock else none)
        .next (takeIn p (leadLine s) { tun := n, pre := pre, time := some time, data := frame } s)

/-- The image gives a port an Ethernet template of an index (R322). -/
def ethTemplate (s : State) (p i : Nat) : Bool := (homes s).any fun e => e.1.port = p && e.1.kind = 3 && e.1.index = i

/-- A write to ADP_ETHMAP_p: each PCP of its own (R322). -/
def wrEthmap (p v : Nat) (s : State) : State :=
  forAll (List.range 8) (fun k t =>
    let i := bits v (4 * k + 3) (4 * k)
    if ethTemplate s p i then wrField (portReg p 0x3008 0x100) (ADP_ETHMAP_PCP p k) i t else raise (portGrove p) 21 t) s

/-- ADP_ETHMAP_p as a word. -/
def ethmapWord (s : State) (p : Nat) : Nat := wordOf s ((List.range 8).map (ADP_ETHMAP_PCP p))

/-- A write to ADP_ETHCTL_p (R322, R325): FEC, PFCEN (a change is a mode change), UNTAG, and MAXFRM against R31. -/
def wrEthctl (p v : Nat) (s : State) : State :=
  let a := portReg p 0x300c 0x100
  let t := wrField a (ADP_ETHCTL_FEC p) (bits v 31 30) s
  let t1 := wrField a (ADP_ETHCTL_PFCEN p) (bits v 29 29) t
  let t := if t1.rd (ADP_ETHCTL_PFCEN p) ≠ t.rd (ADP_ETHCTL_PFCEN p) then structuralEvent t1 else t1
  let t := if ethTemplate s p (bits v 28 25) then wrField a (ADP_ETHCTL_UNTAG p) (bits v 28 25) t else raise (portGrove p) 21 t
  let m := bits v 13 0
  if 1518 ≤ m ∧ m ≤ 9216 ∧ !keepsR31 t p (ovhOf t p) m then raise (portGrove p) 9 t
  else wrField a (ADP_ETHCTL_MAXFRM p) m t

/-- A table swap takes ADP_ETHMAP, UNTAG and MAXFRM into force (R321, R322). -/
def adoptEth (s : State) : State :=
  forAll (List.range 20) (fun p t =>
    t.setAdp p { (t.adp p) with ethmap := ethmapWord t p, untag := t.rd (ADP_ETHCTL_UNTAG p), maxfrm := t.rd (ADP_ETHCTL_MAXFRM p) }) s

/-! ### USB 3 -/

/-- A packet leaves the Enhanced SuperSpeed hub through a hub port (R311): in its port's tunnel, on a Canopy link only where it came in it. -/
def hubForward (c tun k : Nat) (data : Bytes) (s : State) : State :=
  match (hubPort k).bind fun q => downTunnel s c q 2 with
  | none => noTunnel c s
  | some d => if !hubPortLive s k || (s.rd (CAN_STAT_STATE c) ≠ 5 && d ≠ tun) then noTunnel c s else admitUnit c d 0 (leadLine s) data s

/-- A packet at a crown port (R311): the hub routes it by its route string; a time-stamp packet, which has none, goes to every port. -/
def hubPacket (c tun : Nat) (data : Bytes) (s : State) : State :=
  let k := routeNibble s c data
  if byteAt data 0 % 32 = 12 then
    forAll ((List.range 15).filter fun j => hubPortLive s j && (match (hubPort j).bind fun q => downTunnel s c q 2 with
      | none => false
      | some d => s.rd (CAN_STAT_STATE c) = 5 || d = tun)) (fun j t => hubForward c tun j data t) s
  else if k ≠ 0 then hubForward c tun k data s
  else if s.rd (CAN_STAT_STATE c) = 5 ∨ ownTunnel s c 2 = some tun then hubRequest c data s
  else noTunnel c s

/-- USB3_PACKET (R309, R311): at a crown port the hub routes it by its own bytes; elsewhere it enters `tun`, the port's own upstream tunnel. -/
def execUsb3Packet (port : Port) (tun : Tun) (ok : Bool) (head data : Bytes) (s : State) : Host.Outcome State Fault Refusal :=
  let p := port.val
  .next (if !ok then rxBad p s
    else if p < 2 then hubPacket p tun.val (head ++ data) s
    else admitUnit p tun.val 0 (leadLine s) (head ++ data) s)

end Sys2Proof.Machine
end

