-- ==== Sys2Proof/Machine/Slot.lean ====
section
/-! DEFINITION. A segment that arrives on a port's link (R21, R102, R226, R229), and the slot of the fabric with what
follows from it: credits, pause and the pressure signal (R224, R166, R389). -/

namespace Sys2Proof.Machine

/-- A segment of a tunnel lies beyond the credit that the partner has been given (R164). -/
def beyondCredit (s : State) (n : Nat) : Bool :=
  let d := ((s.credit n).told + 65536 - (s.credit n).received) % 65536
  creditGoverned s n && !(1 ≤ d && d ≤ 32767)

/-- A segment of the child's management tunnel `n`, at the cascade port (R70): an answer to the parent's own request goes to its agent and
not to the host, an EVENT to both; `true` where the segment goes on to the host. -/
def childMessage (n : Nat) (g : Seg) (s : State) : Bool × State :=
  let copy : State := { s with mg := { s.mg with inbox := s.mg.inbox ++ [(n, segPayload g)] } }
  if !tunActive s n then (true, s)
  else if byteAt g.payload 0 = 5 then (true, copy)
  else if 0xC0 ≤ byteAt g.payload 1 then (false, copy)
  else (true, s)

/-- A well-formed segment unit of a Canopy link, in order: decrypted and recorded by the link (R228, R235), then discarded where it lies
beyond the grant (R226) or beyond the credit granted (R164), else admitted and its credit brought up to date (R224). -/
def canopySegment (p : Nat) (hdr : BitVec 64) (payload : Bytes) (g : Seg) (s : State) : State :=
  let n := rewriteIn s p g.tun
  let (plain, t) := receiveUnit p hdr payload s
  let g := { g with payload := plain.take g.payload.length }
  if outsideHome s p g.tun then genDiscard g.tun t
  else if beyondGrant s n g.line then t.inc (CAN_ERR2_EARLY p)
  else
    let c := t.credit n
    let beyond := tunActive t n && inPortOf t n = p && g.gen = t.rd (TT_STATE_GEN n) && beyondCredit t n
    let t := if creditGoverned t n then t.setCredit n { c with received := (c.received + 1) % 65536 } else t
    if beyond then t.inc (GRV_FLST_OVRUN p)
    else
      let r := if cascadeBase t p = some (n - 1) then childMessage n g t else (true, t)
      creditUpdate n (if r.1 then ingressSeg p n g.col g r.2 else r.2)

/-- A segment arrives on a port's link (R21, R101 to R104, R229). While an error stands on a Canopy link every unit is discarded. -/
def segmentArrives (p : Nat) (hdr : BitVec 64) (payload : Bytes) (s : State) : State :=
  if fencedPort s p then s
  else if p < 8 ∧ canActive s p then
    (if (s.can p).discarding then s
     else match parseSeg hdr payload with
       | none => linkError p s
       | some g => canopySegment p hdr payload g s)
  else match parseSeg hdr payload with
    | none => rxBad p s
    | some g =>
      let t := if holdsUnits s p then holdUnit p payload.length s else s
      updatePause p (ingressSeg p g.tun 0 g t)

/-- Free places of a partition's shared pool (R389). -/
def sharedFree (s : State) (j : Nat) : Nat := sharedPool s j - sharedUsed (s.inter j) (guarantee s j)

/-- The pressure signal: a partition whose retention reserve has fallen to 256 free places makes the groves whose segments
it retains capture (R389). -/
def pressure (before : State) (s : State) : State :=
  let low := (List.range 20).filter fun j => sharedFree s j ≤ 256 && 256 < sharedFree before j
  let gs := (List.range 9).filter fun g => low.any fun j => (s.inter j).kept.any fun k => k.1 / 2 = g
  forAll gs (fun g => capture (servedBy s g)) s

/-- One slot of the fabric, then what depends on the places freed (R128, R166, R224, R389). -/
def slotStep (accBad retBad outBad : BitVec 20) (s : State) : State :=
  let t := pressure s (fabricSlot accBad retBad outBad s)
  forAll (List.range 20) updatePause (forAll (List.range 256) creditUpdate t)

/-! ### Display streams (R143, R283) -/

/-- A whole unit of a pipe's stream, tagged with a line (R283): the first that is tagged with a granted active line is its pixel unit; any other
says by its type byte what it is. -/
def streamUnit (d : Pipe) (line : Nat) (data : Bytes) (s : State) : State :=
  let x := s.pipe d.val
  if x.due.contains line then takePixels d.val line data (s.setPipe d.val { x with due := x.due.erase line })
  else match byteAt data 0 with
    | 1 => takePacket d.val line data s
    | 2 => auxRequest d.val (data.drop 1) s
    | 3 => takeAttributes d.val data s
    | _ => reservedUnit d.val s

/-- A segment that egress has handed to the display pipes joins its unit; the last one completes it. -/
def pipeSegment (g : Seg) (s : State) : State :=
  let d : Pipe := ⟨s.rd (TT_ENDP_PIPE g.tun) % 4, Nat.mod_lt _ (by decide)⟩
  let x := s.pipe d.val
  let data := if g.first then g.payload else x.frag ++ g.payload
  if !s.on (TT_ENDP_PIPEV g.tun) then s
  else if g.last then streamUnit d g.line data (s.setPipe d.val { x with frag := [] })
  else s.setPipe d.val { x with frag := data }

/-- The pipes take what egress has handed to them (R143). -/
def pipesTake (s : State) : State := forAll s.fb.handed pipeSegment { s with fb := { s.fb with handed := [] } }

/-- EGRESS_UNIT_START (R187). -/
def execEgressUnitStart (port : Port) (s : State) : Host.Outcome State Fault Refusal := .next (pipesTake (egressStart port.val s))

end Sys2Proof.Machine
end

