-- ==== Sys2Proof/Machine/Time.lean ====
section
/-! DEFINITION. The time unit (R354 to R381): time bases and the TIME cycle, snapshots, time commands, link time, and the
event pins. -/

namespace Sys2Proof.Machine

/-! ### Time bases (R354 to R358) -/

/-- What a base adds in a TIME cycle, in 2^-32 ns. -/
def incOf (s : State) (n : Nat) : Nat := mget (2 ^ 32) s.incs n

/-- Set a base's INC: the registers and what is in force (R355). -/
def setInc (n v : Nat) (s : State) : State :=
  { (noteChange n (s.wrs [(TIM_TBINCI_NS n, v / 2 ^ 32), (TIM_TBINCF_FRAC n, v)])) with incs := mput (2 ^ 32) s.incs n v }

/-- The next value of a base does not fit 64 bits: NS carries. -/
def baseCarries (s : State) (n : Nat) : Bool := 2 ^ 64 ≤ mget 0 s.tb n + incOf s n

/-- One TIME cycle of a running base (R354): INC is added; a carry out of NS counts a wrap and sets WRAPn. -/
def baseCycle (n : Nat) (s : State) : State :=
  let t := { s with tb := mput 0 s.tb n ((mget 0 s.tb n + incOf s n) % 2 ^ 64) }
  if baseCarries s n then raise 20 n (t.incMod (TIM_TBWRAP_WRAPS n)) else t

/-- WRAP (R354): the cycle of a running base in which NS wraps. -/
def execWrap (n : TimeBase) (s : State) : Host.Outcome State Fault Refusal :=
  .next (if tbRunning s n.val && baseCarries s n.val then baseCycle n.val s else s)

/-- A write to TIM_TBINCI_n applies it with the held fraction from the next cycle (R355). -/
def wrTbinci (n v : Nat) (s : State) : State :=
  let t := wrField (0x50004 + 0x40 * n) (TIM_TBINCI_NS n) (v % 256) s
  if t.rd (TIM_TBINCI_NS n) = v % 256 then
    { noteChange n t with incs := mput (2 ^ 32) t.incs n (t.rd (TIM_TBINCI_NS n) * 2 ^ 32 + t.rd (TIM_TBINCF_FRAC n)) }
  else t

/-- A base starts: its wraps return to 0 (R356), and gate lists that follow it begin their series again (R199). -/
def startBase (n : Nat) (s : State) : State :=
  restartSeries n ((noteChange n s).wrs [(TIM_TBCTL_RUN n, 1), (TIM_TBCTL_ARMED n, 0), (TIM_TBWRAP_WRAPS n, 0)])

/-- RUN of a write (R356): start at once, arm for an EVT edge, keep running, or stop. -/
def setRun (n : Nat) (run : Bool) (s : State) : State :=
  if !run then (if tbRunning s n then holdGates n (noteChange n s) else s).wrs [(TIM_TBCTL_RUN n, 0), (TIM_TBCTL_ARMED n, 0)]
  else if tbRunning s n then s
  else if s.rd (TIM_TBCTL_STSRC n) = 0 then startBase n s
  else s.wrs [(TIM_TBCTL_RUN n, 1), (TIM_TBCTL_ARMED n, 1)]

/-- A write to TIM_TBCTL_n: STSRC, whose codes 1 to 7 are reserved, HOSTSRV, then RUN (R356, R378). -/
def wrTbctl (n v : Nat) (s : State) : State :=
  let a := 0x50000 + 0x40 * n
  let src := bits v 30 27
  let t := if 1 ≤ src ∧ src ≤ 7 then cfgErr a s else wrField a (TIM_TBCTL_STSRC n) src s
  let t := wrField a (TIM_TBCTL_HOSTSRV n) (bits v 15 15) t
  match envelope t a 31 1 with
  | some (mn, mx) => if b2n (bit v 31) < mn ∨ mx < b2n (bit v 31) then envEvent CFG_ENVERR_ERR a t else setRun n (bit v 31) t
  | none => setRun n (bit v 31) t

/-- A write to TIM_TBLDNS_n or TIM_TBLDFR_n (R356): a stopped base takes that part at once; a running one ignores it. -/
def wrTbld (n : Nat) (fr : Bool) (v : Nat) (s : State) : State :=
  if tbRunning s n then raise 20 4 s
  else
    let a := (if fr then 0x50010 else 0x5000C) + 0x40 * n
    let f := if fr then TIM_TBLDFR_FRAC n else TIM_TBLDNS_NS n
    let t := wrField a f v s
    if t.rd f ≠ v then t
    else
      let x := mget 0 t.tb n
      let t := noteChange n t
      { t with tb := mput 0 t.tb n (if fr then x / 2 ^ 32 * 2 ^ 32 + v else v * 2 ^ 32 + x % 2 ^ 32) }

/-- TAKE (R358): all bases, the lead position and SCHED_FRAME in one cycle; the bit clears. -/
def takeSnapshot (s : State) : State :=
  let t := forAll (List.range 4) (fun n t =>
    t.wrs [(TIM_SNNS_NS n, mget 0 s.tb n / 2 ^ 32), (TIM_SNFR_FRAC n, mget 0 s.tb n), (TIM_SNWR_WRAPS n, s.rd (TIM_TBWRAP_WRAPS n))]) s
  t.wrs [(TIM_SNRAS_POS, s.sc.lpos / 2 ^ 16), (TIM_SNFRM_FRAME, s.rd SCHED_FRAME_COUNT), (TIM_SNAP_TAKE, 0)]

/-- One TIME cycle: what happens when no command waits. Before the TIME domain is released nothing counts (R357, R419). -/
def tick (s : State) : State :=
  let t := runEngines { s with clock := s.clock + 1 }
  if s.bt.released < 5 then t
  else leadCycle (forAll ((List.range 4).filter (tbRunning t)) baseCycle t)

/-! ### Time commands (R365 to R367) -/

/-- The frame's UDP checksum: `none` where the frame is not UDP; whether it is IPv6, and where the checksum stands. -/
def udpChecksum (f : Bytes) : Option (Bool × Nat) :=
  let (o, t) := etherType f
  if t = 0x0800 ∧ byteAt f (o + 9) = 17 then some (false, o + 4 * (byteAt f o % 16) + 6)
  else if t = 0x86DD ∧ byteAt f (o + 6) = 17 then some (true, o + 46)
  else none

/-- Replace bytes of a string from an offset on. -/
def patch (b : Bytes) (off : Nat) (x : Bytes) : Bytes := b.take off ++ x ++ b.drop (off + x.length)

/-- Send an 0x02 report for a command in the port's upstream Time tunnel (R365, R366). -/
def egressReport (p tb : Nat) (hdr : Bytes) (s : State) : State :=
  match (List.range 16).findSome? fun i => upTunnel s p 4 i with
  | none => s
  | some n => agentUnit n ([0x02, BitVec.ofNat 8 (4 * tb + 1)] ++ slice hdr 2 2 ++ stampBytes (stampOut s p tb)) s

/-- The TB field of a downstream command. -/
def cmdBase (hdr : Bytes) : Nat := bits (byteAt hdr 1) 3 2

/-- Send a frame on the port. -/
def sendFrame (p : Nat) (f : Bytes) (s : State) : State := s.emit (.unit p "frame" f)

/-- TIME_SEND (R365): the frame of an 0x10 command is sent. -/
def execTimeSend (port : Port) (header frame : Bytes) (s : State) : Host.Outcome State Fault Refusal :=
  .next (if byteAt header 0 = 0x10 then sendFrame port.val frame s else s)

/-- TIME_SEND_REPORT (R366): the frame of an 0x11 command is sent and its egress time reported. -/
def execTimeSendReport (port : Port) (header frame : Bytes) (s : State) : Host.Outcome State Fault Refusal :=
  .next (if byteAt header 0 = 0x11 then egressReport port.val (cmdBase header) header (sendFrame port.val frame s) else s)

/-- The frame with the one-step correction applied, where it can be (R367). -/
def corrected (e : Nat) (header frame : Bytes) : Option Bytes :=
  let off := beAt header 4 2
  let delta := (e / 2 ^ 32 % 2 ^ 32 + 2 ^ 32 - beAt header 8 4) % 2 ^ 32
  if 1000000000 ≤ delta ∨ frame.length < off + 8 then none
  else
    let f := patch frame off (beBytes 8 (beAt frame off 8 + delta * 2 ^ 16 + e / 2 ^ 16 % 2 ^ 16))
    match udpChecksum frame with
    | none => some f
    | some (true, _) => none
    | some (false, c) => some (patch f c [0, 0])

/-- TIME_SEND_CORRECTION (R367): the correction, or the frame unchanged and a report with CORR = 0. -/
def execTimeSendCorrection (port : Port) (header frame : Bytes) (s : State) : Host.Outcome State Fault Refusal :=
  let p := port.val
  let tb := cmdBase header
  if byteAt header 0 ≠ 0x12 then .next s
  else match corrected (stampOut s p tb) header frame with
    | some f => .next (sendFrame p f s)
    | none => .next (egressReport p tb header (sendFrame p frame s))

/-! ### Link time (R368 to R372) -/

/-- A base whose role is Canopy link time for a port. -/
def roleBase (s : State) (p : Nat) : Option Nat :=
  (List.range 4).find? fun n => s.rd (TIM_TBCTL_ROLE n) = 2 && s.rd (TIM_TBCTL_ARG n) = p

/-- The base in which a link's end stamps (R368). -/
def linkBase (s : State) (p : Nat) : Nat :=
  match roleBase s p with
  | some n => n
  | none => if p < 2 then 0 else (roleBase s (b2n (bit (s.rd PST_HOSTSEL_SEL) p))).getD 0

/-- The link carries time: TIME at both ends (R368). -/
def carriesTime (s : State) (p : Nat) : Bool := canActive s p && s.on (CAN_CTL_TIME p) && bit (mget 0 (s.can p).caps 0) 26

/-- A time in 1/256 ns modulo 2^22 ns. -/
def quarterK (x : Nat) : Nat := x / 2 ^ 24 % 2 ^ 30

/-- Record one of the four times of an exchange. -/
def setTime (p k v : Nat) (s : State) : State :=
  match (s.can p).xch with
  | none => s
  | some x => s.setCan p { (s.can p) with xch := some { x with times := mins x.times k v } }

/-- Send TTX and TRX of an exchange: when the own TSYNC was sent, and when the peer's was received. -/
def sendTimes (p seq tx rx : Nat) (s : State) : State :=
  (s.emit (.can p "TTX" [seq, linkBase s p, tx / 256, tx % 256])).emit (.can p "TRX" [seq, linkBase s p, rx / 256, rx % 256])

/-- LINK_TIME_TSYNC (R369): the upstream end starts an exchange. -/
def execLinkTimeTsync (port : CanPort) (s : State) : Host.Outcome State Fault Refusal :=
  let p := port.val
  if !carriesTime s p || !isUpEnd s p then .next s
  else
    let c := s.can p
    let q := (c.seqTx + 1) % 64
    let b := linkBase s p
    .next ((s.setCan p { c with seqTx := q, xch := some { seq := q, times := [(1, quarterK (stampOut s p b))] } }).emit (.can p "TSYNC" [q, b]))

/-- TSYNC (R369): the peer's is stamped; the downstream end answers it with its own; both then send their times. -/
def execTsync (port : CanPort) (seq : Fin 64) (_tb : TimeBase) (s : State) : Host.Outcome State Fault Refusal :=
  let p := port.val
  let q := seq.val
  let b := linkBase s p
  let rx := quarterK (stampIn s p b)
  if !carriesTime s p then .next s
  else if isUpEnd s p then
    (match (s.can p).xch with
     | none => .next s
     | some x => if x.seq = q then .next (sendTimes p q (mget 0 x.times 1) rx (setTime p 4 rx s)) else .next s)
  else
    let tx := quarterK (stampOut s p b)
    let t := s.setCan p { (s.can p) with xch := some { seq := q, times := [(2, rx), (3, tx)] } }
    .next (sendTimes p q tx rx (t.emit (.can p "TSYNC" [q, b])))

/-- A difference of times modulo 2^22 ns, signed, in 1/256 ns. -/
def timeDiff (a b : Nat) : Int :=
  let d : Nat := (a + 2 ^ 30 - b) % 2 ^ 30
  if d < 2 ^ 29 then (d : Int) else (d : Int) - 2 ^ 30

/-- Half of a number; the spec gives no rounding of an odd one, so that it is left free which neighbour is taken. -/
def halfFree (x : Int) (s : State) : Int × State :=
  if x % 2 = 0 then (x / 2, s)
  else
    let (v, t) := s.free
    (x / 2 + Int.ofNat (v % 2), t)

/-- A number as a 32-bit two's complement. -/
def word32 (x : Int) : Nat := (x % 2 ^ 32).toNat

/-- LOCK of a base changes (R372). -/
def setLock (n : Nat) (b : Bool) (s : State) : State :=
  if s.on (TIM_TBCTL_LOCK n) = b then s else raise 20 6 (s.setB (TIM_TBCTL_LOCK n) b)

/-- The base that link time on a port steers: one whose role names that crown port, at the downstream end (R372). -/
def steered (s : State) (p : Nat) : Option Nat := if p < 2 && !isUpEnd s p then roleBase s p else none

/-- A result reaches the servo (R372): LOCK after 16 offsets within 20 ns in succession, lost above 200 ns; INC is corrected,
by an amount the spec leaves to the firmware, within 250 ppm of 1 ns, while the base and the firmware run and the host does not steer it. -/
def servo (p n : Nat) (off : Int) (s : State) : State :=
  let m := off.natAbs
  let c := s.can p
  let good := if m ≤ 20 * 256 then min 16 (c.good + 1) else 0
  let t := s.setCan p { c with good := good }
  let t := if good = 16 then setLock n true t else if 200 * 256 < m then setLock n false t else t
  if t.on (TIM_TBCTL_HOSTSRV n) || !tbRunning t n || !t.on SYS_STAGE_FWRDY then t
  else
    let d := 2 ^ 32 * 250 / 1000000
    let (v, t) := t.free
    setInc n (2 ^ 32 - d + v % (2 * d + 1)) t

/-- The 0x03 report of a result (R365, R370). -/
def linkReport (p n : Nat) (off dly : Nat) (seq : Nat) (s : State) : State :=
  match (List.range 16).findSome? fun i => upTunnel s p 4 i with
  | none => s
  | some m => agentUnit m ([0x03, BitVec.ofNat 8 (p + 16 * s.rd (TIM_TBCTL_LOCK n)), 0, 0] ++ beBytes 4 off ++ beBytes 4 dly ++
      [BitVec.ofNat 8 seq, 0, 0, 0]) s

/-- The end of an exchange with its offset and delay: the registers, the servo and the report (R370 to R372). -/
def finishExchange (p seq : Nat) (off dly : Int) (s : State) : State :=
  let t := s.setCan p { (s.can p) with xch := none, missed := 0 }
  let t := (t.wrs [(TIM_LNKOFF_OFF p, word32 off), (TIM_LNKDLY_DLY p, word32 dly), (TIM_LNK_SEQ p, seq)]).incMod (TIM_LNK_EXCH p)
  let t := raise 20 5 t
  let t := match steered t p with | none => t | some n => servo p n off t
  linkReport p (linkBase t p) (word32 off) (word32 dly) seq t

/-- An exchange is complete once all four times are held (R370). -/
def completeExchange (p : Nat) (s : State) : State :=
  match (s.can p).xch with
  | none => s
  | some x =>
    match mfind x.times 1, mfind x.times 2, mfind x.times 3, mfind x.times 4 with
    | some t1, some t2, some t3, some t4 =>
      let d1 := timeDiff t2 t1
      let d2 := timeDiff t4 t3
      let a := halfFree (if isUpEnd s p then d2 - d1 else d1 - d2) s
      let b := halfFree (d1 + d2) a.2
      finishExchange p x.seq a.1 b.1 b.2
    | _, _, _, _ => s

/-- A TTX or TRX of the exchange under way supplies one of its times. -/
def peerTime (p seq k v : Nat) (s : State) : State :=
  match (s.can p).xch with
  | none => s
  | some x => if carriesTime s p && x.seq = seq then completeExchange p (setTime p k v s) else s

/-- TTX (R370): when the peer sent its TSYNC. -/
def execTtx (port : CanPort) (x : XchTag) (ns : BitVec 22) (fr : BitVec 8) (s : State) : Host.Outcome State Fault Refusal :=
  .next (peerTime port.val x.seq.val (if isUpEnd s port.val then 3 else 1) (ns.toNat * 256 + fr.toNat) s)

/-- TRX (R370): when the peer received the own TSYNC. -/
def execTrx (port : CanPort) (x : XchTag) (ns : BitVec 22) (fr : BitVec 8) (s : State) : Host.Outcome State Fault Refusal :=
  .next (peerTime port.val x.seq.val (if isUpEnd s port.val then 2 else 4) (ns.toNat * 256 + fr.toNat) s)

/-- EXCHANGE_ABANDON (R369, R372): counted; the eighth in succession ends lock. -/
def execExchangeAbandon (port : CanPort) (s : State) : Host.Outcome State Fault Refusal :=
  let p := port.val
  let c := s.can p
  if c.xch.isNone then .next s
  else
    let t := (s.setCan p { c with xch := none, missed := min 8 (c.missed + 1), good := 0 }).inc (TIM_LNK_MISSED p)
    .next (match steered s p with
      | none => t
      | some n => if 8 ≤ c.missed + 1 then setLock n false t else t)

/-! ### Event pins (R374 to R377) -/

/-- The mode in which an EVT pin behaves: off where PINS gives it a function of its own or none, and while P46 has stopped (R374, R524). -/
def evtMode (s : State) (e : Nat) : Nat := if evtFn s e = 0 ∧ !p46Stopped s then s.rd (TIM_EVCTL_MODE e) else 0

/-- What an EVT pin puts on its ball (R374): the compare modes drive it to the level that POL gives its activity; every other is an input. -/
def evtCode (s : State) (e : Nat) : Nat :=
  let m := evtMode s e
  if 1 ≤ m ∧ m ≤ 4 then 2 + b2n ((s.evt e).active == s.on (TIM_EVCTL_POL e)) else 0

/-- Show an EVT pin's state on its ball; until PINS applies the ball stays as the reset left it (R422). -/
def showEvt (e : Nat) (s : State) : State := if s.bt.pinFns = [] then s else s.setPin e (evtCode s e)

/-- Drive an EVT pin active or inactive. -/
def driveEvt (e : Nat) (b : Bool) (s : State) : State :=
  (showEvt e (s.setEvt e { (s.evt e) with active := b })).emit (.pin "EVT" e (b == s.on (TIM_EVCTL_POL e)))

/-- The image's PINS section takes the 17 balls over (R422, R512): an EVT ball of its own function follows TIM_EVCTL; GENLOCK and the TE
inputs, and what P44, P45 and the indicators drive, are not levels that the hub holds. -/
def applyPins (s : State) : State :=
  let sec := match s.ld.image with | some im => im.chip 0x12 | none => []
  showIndicator (forAll (List.range 8) showEvt { s with bt := { s.bt with pins := [], pinFns := (List.range 28).map fun i => byteAt sec (2 * i) } })

/-- The selected base has reached or passed CMP in its last TIME cycle (R375). -/
def compareReached (s : State) (e : Nat) : Bool :=
  let n := s.rd (TIM_EVCTL_TBSEL e)
  (mget 0 s.tb n + 2 ^ 64 - s.rd (TIM_EVCMP_CMP e) * 2 ^ 32) % 2 ^ 64 < max 1 (incOf s n)

/-- An EVT pin compares the time of a running base (R374, R375). -/
def comparing (s : State) (k : Nat) : Bool := (evtMode s k = 1 || evtMode s k = 2) && tbRunning s (s.rd (TIM_EVCTL_TBSEL k))

/-- A compare fires: the pin is active, and PERIOD is added to CMP (R375). -/
def fireCompare (k : Nat) (s : State) : State :=
  raise 20 (8 + k) ((driveEvt k true s).wr (TIM_EVCMP_CMP k) (s.rd (TIM_EVCMP_CMP k) + s.rd (TIM_EVPER_PERIOD k)))

/-- COMPARE (R375): the running base reaches CMP. -/
def execCompare (e : EvtPin) (s : State) : Host.Outcome State Fault Refusal :=
  .next (if comparing s e.val ∧ compareReached s e.val then fireCompare e.val s else s)

/-- The lead position has passed TIM_EVRAS in its last TIME cycle. -/
def rasterReached (s : State) (e : Nat) : Bool :=
  let x := s.rd (TIM_EVRAS_LINE e) * 2 ^ 32 + s.rd (TIM_EVRAS_FRAC e) * 2 ^ 24
  x ≤ s.sc.lpos && s.sc.lpos - x < max 1 (s.rd SCHED_LINC_INC)

/-- RASTER_COMPARE (R376): every DIV-th lead frame from the write of TIM_EVRAS; none at or beyond TOTAL. -/
def execRasterCompare (e : EvtPin) (s : State) : Host.Outcome State Fault Refusal :=
  let k := e.val
  if (evtMode s k = 3 ∨ evtMode s k = 4) ∧ s.rd (TIM_EVRAS_LINE k) < s.rd SCHED_LTOT_TOTAL ∧ rasterReached s k ∧
      (s.evt k).frames % s.rd (TIM_EVCTL_DIV k) = 0 then
    .next (raise 20 (8 + k) (driveEvt k true s))
  else .next s

/-- PULSE_END (R374): WIDTH × 8 ns after the last compare. -/
def execPulseEnd (e : EvtPin) (s : State) : Host.Outcome State Fault Refusal :=
  let k := e.val
  .next (if (evtMode s k = 1 ∨ evtMode s k = 3) ∧ (s.evt k).active then driveEvt k false s else s)

/-- A write to TIM_EVCTL_e (R374, R380): a MODE change leaves the pin inactive; LVLCLR ends a level and clears at once. A pin
with a function of its own ignores the register. -/
def wrEvctl (e v : Nat) (s : State) : State :=
  if evtFn s e ≠ 0 then s
  else
    let t := wrWord (0x50400 + 0x20 * e) v ((regFields .TIM_EVCTL e 0).filter fun f => f.acc = .rw) s
    let t := if t.rd (TIM_EVCTL_MODE e) ≠ s.rd (TIM_EVCTL_MODE e) && (t.evt e).active then driveEvt e false t else showEvt e t
    if bit v 24 && (t.rd (TIM_EVCTL_MODE e) = 2 || t.rd (TIM_EVCTL_MODE e) = 4) && (t.evt e).active then driveEvt e false t else t

/-- A write to TIM_EVRAS_e starts its count of frames (R376). -/
def wrEvras (e v : Nat) (s : State) : State :=
  let t := wrWord (0x5040C + 0x20 * e) v (regFields .TIM_EVRAS e 0) s
  t.setEvt e { (t.evt e) with frames := 0 }

/-- CAPTURE (R377): an edge that has stayed for 4 ns. A rising edge starts the bases armed for the pin (R356). -/
def execCapture (e : EvtPin) (rising : Bool) (s : State) : Host.Outcome State Fault Refusal :=
  let k := e.val
  let m := evtMode s k
  if !(m = 5 ∨ m = 6 ∨ m = 7) then .next s
  else
    let n := s.rd (TIM_EVCTL_TBSEL k)
    let counts := if rising then m ≠ 6 else m ≠ 5
    let t :=
      if !counts then s
      else if s.on (TIM_EVCST_VALID k) then raise 20 24 (s.wr (TIM_EVCST_OVF k) 1)
      else raise 20 (16 + k) (s.wrs [(TIM_EVCNS_NS k, mget 0 s.tb n / 2 ^ 32), (TIM_EVCST_TFRAC k, mget 0 s.tb n / 2 ^ 24),
        (TIM_EVCST_LINE k, s.sc.lpos / 2 ^ 32), (TIM_EVCST_LFRAC k, s.sc.lpos / 2 ^ 24), (TIM_EVCST_EDGE k, b2n rising),
        (TIM_EVCST_VALID k, 1)])
    let armed := (List.range 4).filter fun b => s.on (TIM_TBCTL_ARMED b) && s.rd (TIM_TBCTL_STSRC b) = 8 + k
    .next (if rising then forAll armed startBase t else t)

end Sys2Proof.Machine
end

