-- ==== Sys2Proof/Machine/Usb.lean ====
section
/-! DEFINITION. The USB 2.0 hub tree (R327 to R353). -/

namespace Sys2Proof.Machine

/-! ### Topology (R327) -/

/-- The physical port that a tree port serves; P0 or P1 at UH0.6 by DNSEL; none for internal ports and those that never connect. -/
def treeExternal (s : State) (n : Nat) : Option Nat :=
  let p : Option Nat :=
    if n = 5 then (match s.rd USB_STAT_DNSEL with | 1 => some 0 | 2 => some 1 | _ => none)
    else if 7 ≤ n ∧ n ≤ 26 then some (n + 13)
    else if 27 ≤ n ∧ n ≤ 32 then some (n - 25)
    else none
  match p with | none => none | some q => if portPresent (variant s) q then some q else none

/-- An internal port with something behind it: UH1 to UH4 and the management function. -/
def treeInternal (n : Nat) : Bool := n < 5

/-- The tree runs: the USB domain is released (R350). -/
def treeRuns (s : State) : Bool := 3 ≤ s.bt.released

/-- A power channel conducts. -/
def pathClosed (s : State) (n : Nat) : Bool := 1 ≤ s.rd (PC_STAT_STATE n) && s.rd (PC_STAT_STATE n) ≤ 4

/-- A tree port may be powered: in Seedling always, but not from a dead-battery start until the first leases; from Sapling on
under a lease (R337, R350, R481). -/
def treeMayPower (s : State) (n : Nat) : Bool :=
  if s.pw.leased then bit (s.rd PST_U2LEASE_PORTS) (n - 7) else !(s.on PD_GLOB_DBBOOT)

/-- Port power as PORT_POWER reports it: at a Type-C port, whether its VBUS path is closed (R337). -/
def treePower (s : State) (n : Nat) : Bool :=
  match treeExternal s n with
  | some p => if p < 8 then pathClosed s (p + 2) else s.on (USB_PST_PWR n)
  | none => treeInternal n && (s.tree n).on

/-- Data can pass on a tree port: powered, and not disabled by ClearFeature(PORT_POWER). -/
def treeData (s : State) (n : Nat) : Bool := treePower s n && (s.tree n).on

/-! ### Reset of the tree (R344) -/

/-- A port has no connection. -/
def treeDrop (n : Nat) (s : State) : State :=
  (restore [USB_PST_CONN n, USB_PST_EN n, USB_PST_SUSP n, USB_PST_SPEED n] s).setTree n
    { (s.tree n) with resumeHost := false, resumeDev := false, tt := [] }

/-- Switch the power of P20 to P39's port switch. -/
def treeSwitch (n : Nat) (b : Bool) (s : State) : State :=
  if 7 ≤ n ∧ n ≤ 26 ∧ s.on (USB_PST_PWR n) ≠ b then (s.setB (USB_PST_PWR n) b).emit (.pin "UPEN" (n + 13) b) else s

/-- A port enters Powered-off. -/
def treeOff (n : Nat) (s : State) : State :=
  let t := treeSwitch n false (treeDrop n s)
  ((t.setTree n {}).wr (USB_PST_OC n) 0).wr (USB_PST_PWR n) 0

/-- The management function returns to its default state: a vendor write in progress commits nothing, the USB path's data
window clears BUSY (R344). A report that waits for its ACK is kept (R343). -/
def functionReset (s : State) : State :=
  let t := s.wrs [(USB_MGT_CONF, 0), (USB_MGT_ALT, 0), (USB_MGT_EP1HALT, 0), (USB_MGT_RWEN, 0), (USB_MGT_ADDR, 0), (SYS_DWCTL_BUSY 1, 0)]
  { t with ut := { t.ut with toggle := false }
           mg := { t.mg with bursts := mdel t.mg.bursts 1, ep1Silent := 0, wake := false } }

/-- The whole tree resets. -/
def treeReset (s : State) : State := forAll (List.range 35) treeOff ((functionReset s).wr USB_STAT_SUSP 0)

/-! ### Upstream (R328 to R331) -/

/-- A port is attached and holds a data role: 0 UFP, 1 DFP. -/
def holdsRole (s : State) (p role : Nat) : Bool :=
  (s.rd (PD_STAT_CCST p) = 2 || s.rd (PD_STAT_CCST p) = 3) && s.rd (PD_STAT_DROLE p) = role

/-- An upstream candidate (R328). -/
def candidate (s : State) (c : Nat) : Bool := holdsRole s c 0 && !isDown s c

/-- The crown port that R328 names: the lower candidate that has not been passed over. -/
def namedUpstream (s : State) : Option Nat := [0, 1].find? fun c => candidate s c && !bit s.ut.passed c

/-- The code of a crown port in USB_STAT. -/
def crownCode (c : Option Nat) : Nat := match c with | none => 0 | some k => k + 1

/-- Apply R328 and R329 as things stand; a change of the upstream is R331. -/
def updateTree (s : State) : State :=
  let up := crownCode (if treeRuns s then namedUpstream s else none)
  let dn := crownCode ([0, 1].find? fun c => isDown s c && holdsRole s c 1)
  let s := if dn = s.rd USB_STAT_DNSEL then s else (treeDrop 5 s).wr USB_STAT_DNSEL dn
  if up = s.rd USB_STAT_UPSEL then s
  else
    let t := treeReset (s.wrs [(USB_STAT_PULLUP, 0), (USB_STAT_SPEED, 0)])
    let t := (t.wrs [(USB_STAT_UPSEL, up), (USB_STAT_PULLUP, b2n (up ≠ 0))]).inc USB_STAT_SWITCHES
    (raise 19 0 t).emit (.pin "UH0 pull-up" up (up ≠ 0))

/-- A crown port's attach ends: it is no longer passed over (R328). -/
def treeDetach (p : Nat) (s : State) : State :=
  updateTree { s with ut := { s.ut with passed := if bit s.ut.passed p then s.ut.passed - 2 ^ p else s.ut.passed } }

/-- PASS_OVER (R328): the upstream's pull-up has been applied for 1 s without a bus reset or SOF while another candidate exists. -/
def execPassOver (crown : Crown) (s : State) : Host.Outcome State Fault Refusal :=
  let c := crown.val
  .next (if s.rd USB_STAT_UPSEL = c + 1 ∧ candidate s (1 - c) then
    updateTree { s with ut := { s.ut with passed := if bit s.ut.passed c then s.ut.passed else s.ut.passed + 2 ^ c } } else s)

/-- UPSTREAM_CHANGE (R331). -/
def execUpstreamChange (s : State) : Host.Outcome State Fault Refusal := .next (updateTree s)

/-- BUS_RESET (R344): recognised on the upstream; `high` is the outcome of the chirp. -/
def execBusReset (high : Bool) (s : State) : Host.Outcome State Fault Refusal :=
  .next (if s.on USB_STAT_PULLUP then
    raise 19 1 (((treeReset s).wr USB_STAT_SPEED (if high then 2 else 1)).inc USB_MGT_RESETS) else s)

/-! ### Tree ports -/

/-- The device on an internal port resets with the port: a hub's ports go to Powered-off, and the management function to its default state (R344,
R345). -/
def resetBehind (k : Nat) (s : State) : State :=
  if k = 4 then functionReset s else if k < 4 then forAll ((List.range 7).map (7 * (k + 1) + ·)) treeOff s else s

/-- PORT_RESET (R344, R345): `speed` is 0 full, 1 low, 2 high. -/
def execPortReset (n : TreePort) (speed : Fin 4) (s : State) : Host.Outcome State Fault Refusal :=
  let k := n.val
  let s := resetBehind k s
  if !s.on (USB_PST_CONN k) ∨ speed.val = 3 then .next s
  else .next ((s.wrs [(USB_PST_EN k, 1), (USB_PST_SUSP k, 0), (USB_PST_SPEED k, speed.val)]).setTree k
    { (s.tree k) with cRst := true, resumeHost := false, resumeDev := false })

/-- DEVICE_CONNECT (R338): a pull-up on D- (`some true`) or D+ appears, or is removed (`none`). -/
def execDeviceConnect (n : TreePort) (pullup : Option Bool) (s : State) : Host.Outcome State Fault Refusal :=
  let k := n.val
  if (treeExternal s k).isNone ∨ !treeData s k then .next s
  else match pullup with
    | some dm => .next ((s.wrs [(USB_PST_CONN k, 1), (USB_PST_SPEED k, b2n dm)]).setTree k { (s.tree k) with cConn := true })
    | none => if s.on (USB_PST_CONN k) then let t := treeDrop k s; .next (t.setTree k { (t.tree k) with cConn := true }) else .next s

/-- An overcurrent on a tree port: reported and counted (R337). -/
def treeOvercurrent (n : Nat) (s : State) : State :=
  let t := treeSwitch n false (treeDrop n s)
  raise 19 3 (((t.setTree n { (t.tree n) with on := false, cOc := true }).wr (USB_PST_OC n) 1).inc (USB_PST_OCCNT n))

/-- OVERCURRENT (R337): the overcurrent input of P20 to P39 has been low for 1 ms. -/
def execOvercurrent (n : TreePort) (s : State) : Host.Outcome State Fault Refusal :=
  let k := n.val
  .next (if (treeExternal s k).isSome ∧ 7 ≤ k ∧ k ≤ 26 ∧ s.on (USB_PST_PWR k) then treeOvercurrent k s else s)

/-- BABBLE (R340): that port only is disabled. -/
def execBabble (n : TreePort) (s : State) : Host.Outcome State Fault Refusal :=
  let k := n.val
  .next (if s.on (USB_PST_EN k) then
    raise 19 2 (((s.wr (USB_PST_EN k) 0).inc (USB_PST_BABBLE k)).setTree k { (s.tree k) with cEn := true }) else s)

/-- PORT_POWER (R337). -/
def execPortPower (n : TreePort) (on : Bool) (s : State) : Host.Outcome State Fault Refusal :=
  let k := n.val
  if !treeRuns s then .next s
  else if treeInternal k then
    .next (if on then (s.wrs [(USB_PST_PWR k, 1), (USB_PST_CONN k, 1), (USB_PST_SPEED k, if s.rd USB_STAT_SPEED = 2 then 2 else 0)]).setTree k
        { (s.tree k) with on := true } else s)
  else match treeExternal s k with
    | none => .next s
    | some p =>
      if !on then let t := treeSwitch k false (treeDrop k s); .next (t.setTree k { (t.tree k) with on := false })
      else
        let t := (s.setTree k { (s.tree k) with on := true }).wr (USB_PST_OC k) 0
        .next (if 20 ≤ p ∧ treeMayPower s k then treeSwitch k true t else t)

/-! ### Suspend and resume (R347 to R349) -/

/-- GLOBAL_SUSPEND (R347). -/
def execGlobalSuspend (s : State) : Host.Outcome State Fault Refusal :=
  .next (if s.on USB_STAT_PULLUP ∧ !s.on USB_STAT_SUSP then raise 19 5 (s.wr USB_STAT_SUSP 1) else s)

/-- GLOBAL_SUSPEND_END (R348). -/
def execGlobalSuspendEnd (s : State) : Host.Outcome State Fault Refusal :=
  .next (if s.on USB_STAT_SUSP then raise 19 6 { s.wr USB_STAT_SUSP 0 with mg := { s.mg with wake := false } } else s)

/-- PORT_SUSPEND (R347). -/
def execPortSuspend (n : TreePort) (s : State) : Host.Outcome State Fault Refusal :=
  .next (if s.on (USB_PST_EN n.val) then s.wr (USB_PST_SUSP n.val) 1 else s)

/-- REMOTE_WAKE (R348, R349): on a selectively suspended port the hub drives resume; a globally suspended tree passes the wake
upstream if the host has enabled it at every hub on the path (`enabled`). -/
def execRemoteWake (n : TreePort) (enabled : Bool) (s : State) : Host.Outcome State Fault Refusal :=
  let k := n.val
  let sel := s.on (USB_PST_SUSP k)
  if !s.on (USB_PST_CONN k) ∨ !(sel ∨ s.on USB_STAT_SUSP) then .next s
  else
    let t := raise 19 4 (s.wr (USB_PST_RWAKE k) 1)
    let t := if sel then t.setTree k { (t.tree k) with resumeDev := true } else t
    .next (if s.on USB_STAT_SUSP ∧ enabled then t.emit (.note "upstream resume" [k]) else t)

/-- CLEARFEATURE_PORT_SUSPEND (R349): a host-initiated resume, which merges with the device's. -/
def execClearfeaturePortSuspend (n : TreePort) (s : State) : Host.Outcome State Fault Refusal :=
  .next (if s.on (USB_PST_SUSP n.val) then s.setTree n.val { (s.tree n.val) with resumeHost := true } else s)

/-- RESUME_END (R348, R349): at the later of the two periods. -/
def execResumeEnd (n : TreePort) (s : State) : Host.Outcome State Fault Refusal :=
  let k := n.val
  let x := s.tree k
  if !x.resumeHost && !x.resumeDev then .next s
  else
    let t := (s.wr (USB_PST_SUSP k) 0).setTree k { x with cSusp := true, resumeHost := false, resumeDev := false }
    .next (if x.resumeDev then raise 19 4 (t.wr (USB_PST_RWAKE k) 1) else t)

/-! ### Translators and the management function -/

/-- CLEAR_TT_BUFFER (R339). -/
def execClearTtBuffer (n : TreePort) (buf : Byte) (s : State) : Host.Outcome State Fault Refusal :=
  .next (s.setTree n.val { (s.tree n.val) with tt := (s.tree n.val).tt.filter (· ≠ buf.toNat) })

/-- RESET_TT (R339): only the port it names. -/
def execResetTt (n : TreePort) (s : State) : Host.Outcome State Fault Refusal :=
  .next (s.setTree n.val { (s.tree n.val) with tt := [] })

/-- EP1's toggle returns to DATA0; a report that waits for its ACK is sent again with the same SEQ (R342, R343). -/
def resetEp1 (s : State) : State := { s with ut := { s.ut with toggle := false } }

/-- CLEAR_FEATURE_ENDPOINT_HALT (R341, R342). -/
def execClearFeatureEndpointHalt (s : State) : Host.Outcome State Fault Refusal :=
  let t := resetEp1 s
  .next ({ t with mg := { t.mg with ep1Silent := 0 } }.wr USB_MGT_EP1HALT 0)

/-- SET_CONFIGURATION (R336, R342): configuration 0 or 1. -/
def execSetConfiguration (cfg : Byte) (s : State) : Host.Outcome State Fault Refusal :=
  .next (if cfg.toNat ≤ 1 then (resetEp1 s).wrs [(USB_MGT_CONF, cfg.toNat), (USB_MGT_ALT, 0), (USB_MGT_EP1HALT, 0)] else s.emit .stall)

/-- A report that waits for its ACK is built again, with the same SEQ, for a packet size that changes (chapter 12, corner cases). -/
def rebuildReport (s : State) : State :=
  if s.mg.ep1Sent.isNone then s
  else { s with mg := { s.mg with ep1Sent := none, ep1 := { due := true, seq := (s.mg.ep1.seq + 255) % 256 } } }

/-- SET_INTERFACE (R336, R342): alternate settings 0 to 3 of the configured function. -/
def execSetInterface (alt : Byte) (s : State) : Host.Outcome State Fault Refusal :=
  .next (if s.on USB_MGT_CONF ∧ alt.toNat ≤ 3 then (resetEp1 (if alt.toNat = s.rd USB_MGT_ALT then s else rebuildReport s)).wrs [(USB_MGT_ALT, alt.toNat), (USB_MGT_EP1HALT, 0)] else s.emit .stall)

/-! ### Descriptors (R333 to R336) -/

/-- UH0 to UH4 and the management function, as they answer for themselves. -/
inductive TreeFunction where
  | hub (n : Fin 5)
  | management
deriving DecidableEq, Repr

/-- The tree runs at high speed: at UH0's upstream speed (R333, R336). -/
def highSpeed (s : State) : Bool := s.rd USB_STAT_SPEED = 2

/-- A function's device descriptor (R333, R336). -/
def deviceDescriptor (f : TreeFunction) (s : State) : Bytes :=
  let (cls, proto, product) : Nat × Nat × Nat := match f with
    | .hub n => (9, if highSpeed s then 2 else 0, if n.val = 0 then 0x96A0 else 0x96A1)
    | .management => (0xFF, 0, 0x96AF)
  [18, 1] ++ leBytes 2 0x0210 ++ [BitVec.ofNat 8 cls, 0, BitVec.ofNat 8 proto, 64] ++ leBytes 2 0x4F5A ++ leBytes 2 product ++
    leBytes 2 0x0101 ++ [0, 0, 0, 1]

/-- An interface descriptor with EP1 IN, of type interrupt. -/
def interfaceDescriptor (alt cls sub proto size interval : Nat) : Bytes :=
  [9, 4, 0, BitVec.ofNat 8 alt, 1, BitVec.ofNat 8 cls, BitVec.ofNat 8 sub, BitVec.ofNat 8 proto, 0] ++
    [7, 5, 0x81, 3] ++ leBytes 2 size ++ [BitVec.ofNat 8 interval]

/-- A function's configuration descriptor, with its interface's alternate settings (R333, R336). -/
def configurationDescriptor (f : TreeFunction) (s : State) : Bytes :=
  let alts : Bytes := match f with
    | .hub _ => if highSpeed s then interfaceDescriptor 0 9 0 1 1 12 ++ interfaceDescriptor 1 9 0 2 1 12 else interfaceDescriptor 0 9 0 0 1 255
    | .management => (List.range 4).flatMap fun k => interfaceDescriptor k 0xFF 1 1 (8 * 2 ^ k) 1
  let attributes : Byte := match f with | .hub _ => 0xE0 | .management => 0xA0
  [9, 2] ++ leBytes 2 (9 + alts.length) ++ [1, 1, 0, attributes, 0] ++ alts

/-- A hub's class descriptor (R334): 7 ports. -/
def hubDescriptor (n : Fin 5) : Bytes :=
  let removable : Byte := match n.val with | 0 => 0xBE | 4 => 0xC0 | _ => 0
  [9, 0x29, 7] ++ leBytes 2 (if n.val = 0 then 0x000D else 0x0009) ++ [50, 0, removable, 0xFF]

/-- What GET_DESCRIPTOR answers by its type (R333 to R336); every function carries the Container ID. -/
def treeDescriptor (f : TreeFunction) (kind : Nat) (s : State) : Option Bytes :=
  match kind, f with
  | 1, _ => some (deviceDescriptor f s)
  | 2, _ => some (configurationDescriptor f s)
  | 0x0F, _ => some (bosDescriptor s)
  | 0x29, .hub n => some (hubDescriptor n)
  | _, _ => none

end Sys2Proof.Machine
end

