-- ==== Sys2Proof/Machine/Supply.lean ====
section
/-! DEFINITION. What PD, the power paths and the resets share: the power channels (R464 to R470), the end of a contract or of
an attach (R457, R459), the objects that a source offers (R444, R450), and the external-watt budget (R477 to R481). -/

namespace Sys2Proof.Machine

/-- The POWER section of the loaded image, empty without one (R488). -/
def powerSec (s : State) : Bytes := match s.ld.image with | none => [] | some im => im.chip 0x11

/-- BASE and AUXW, in mW. -/
def baseMw (s : State) : Nat := leAt (powerSec s) 2 2
def auxMw (s : State) : Nat := leAt (powerSec s) 4 2

/-- What is granted of the core budget in all: BASE and the groves' leases (R476). -/
def sumGrants (s : State) : State :=
  s.wr PST_CUSE_GRANTED (baseMw s + ((List.range 9).map fun k => s.rd (PST_GRANT_MW k)).sum)

/-- WATTS and PEAK of feed A (0) or B (1). -/
def feedWatts (s : State) (f : Nat) : Nat := leAt (powerSec s) (8 + 16 * f) 4
def feedPeak (s : State) (f : Nat) : Nat := leAt (powerSec s) (12 + 16 * f) 4

/-- PMAX of a channel, in mW. -/
def pmax (s : State) (n : Nat) : Nat := leAt (powerSec s) (52 + 16 * n) 4

/-- The firmware is up and holds an image's POWER section: the steward can compute leases. -/
def stewardUp (s : State) : Bool := s.on SYS_STAGE_FWRDY && s.ld.image.isSome

/-! ### Ports -/

/-- A port is attached as source, or as sink (R460). -/
def asSource (s : State) (p : Nat) : Bool := s.rd (PD_STAT_CCST p) = 2
def asSink (s : State) (p : Nat) : Bool := s.rd (PD_STAT_CCST p) = 3

/-- The tree port behind a Type-C port (R327). -/
def treePortOf (s : State) (p : Nat) : Option Nat :=
  if 2 ≤ p then some (p + 25) else if s.rd USB_STAT_DNSEL = p + 1 then some 5 else none

/-- mA that an Rp level advertises: default USB power, 1.5 A, 3.0 A (R449). -/
def rpMilliamps (lvl : Nat) : Nat := match lvl with | 0 => 500 | 1 => 1500 | 2 => 3000 | _ => 0

/-- The object of an offer at a position counted from 1. -/
def objectAt (offer : Words) (pos : Nat) : Nat := if pos = 0 then 0 else ((offer.getD (pos - 1) 0) : Word).toNat

/-- A source object is programmable (PPS). -/
def objPps (o : Nat) : Bool := bits o 31 30 = 3

/-- What a request asks of an object: millivolts and milliamps. -/
def requested (offer : Words) (rdo : Nat) : Nat × Nat :=
  let o := objectAt offer (bits rdo 31 28)
  if objPps o then (20 * bits rdo 20 9, 50 * bits rdo 6 0) else (50 * bits o 19 10, 10 * bits rdo 19 10)

/-- The power of a port's contract in mW: PD_RDO_p's, or 5 V at the Type-C current (R477). -/
def contractMw (s : State) (p : Nat) : Nat :=
  match s.rd (PD_STAT_CONTR p) with
  | 0 => 0
  | 1 => 5 * rpMilliamps (s.rd (PD_STAT_RPLVL p))
  | _ => let (mv, ma) := requested (s.pdp p).offer (s.rd (PD_RDO_RDO p)); mv * ma / 1000

/-! ### Supplies (R471, R477) -/

/-- The first crown port that could feed the rail: attached as sink, its channel neither latched nor in backoff (R468, R471). -/
def crownSink (s : State) : Option Nat := [0, 1].find? fun p => asSink s p && s.rd (PC_STAT_STATE (p + 2)) < 5

/-- The crown port whose sink channel conducts. -/
def crownActive (s : State) : Option Nat := [0, 1].find? fun p => s.on (PC_STAT_REV (p + 2)) && pathClosed s (p + 2)

/-- A feed could be closed: qualified, its channel neither latched nor in backoff. -/
def feedReady (s : State) (f : Nat) : Bool := s.on (if f = 0 then PP_FEED_QUALA else PP_FEED_QUALB) && s.rd (PC_STAT_STATE f) < 5

/-- Whether any feed is qualified. -/
def anyFeed (s : State) : Bool := s.on PP_FEED_QUALA || s.on PP_FEED_QUALB

/-- The supplies that could be closed, by their PP_FEED.ACTIVE code, in the order of R471. -/
def supplies (s : State) : List Nat :=
  (if feedReady s 0 then [1] else []) ++ (if feedReady s 1 then [2] else []) ++ (if (crownSink s).isSome then [3] else [])

/-- WATTS of a supply, and PEAK; both are the contract's for a crown sink channel (R477, R478). -/
def supplyMw (s : State) (a : Nat) : Nat :=
  match a with
  | 1 => feedWatts s 0
  | 2 => feedWatts s 1
  | 3 => match (match crownActive s with | some p => some p | none => crownSink s) with | some p => contractMw s p | none => 0
  | _ => 0
def supplyPeak (s : State) (a : Nat) : Nat :=
  match a with | 1 => feedPeak s 0 | 2 => feedPeak s 1 | k => supplyMw s k

/-- The available power E (R477). -/
def availMw (s : State) : Nat := supplyMw s (s.rd PP_FEED_ACTIVE)

/-- The second supply: what the combiner would close if the active one were lost (R478). -/
def secondSupply (s : State) : Option Nat := (supplies s).find? fun a => a ≠ s.rd PP_FEED_ACTIVE

/-! ### Leases (R477) -/

/-- The VBUS source ports that take leases: attached to a sink, their channel present; none of P0 and P1 while a crown sink
channel is the active supply (R481). -/
def leasePorts (s : State) (active : Nat) : List Nat :=
  (List.range 8).filter fun p => asSource s p && channelPresent (variant s) (p + 2) && !(active = 3 && p < 2)

/-- Power that the hub itself takes (R477). -/
def hubMw (s : State) : Nat :=
  ceilDiv ((baseMw s + ((List.range 9).map fun g => s.rd (PST_GRANT_MW g)).sum) * 5) 4 + auxMw s

/-- A port's requested extra over its floor: what its contract takes, unless it has none or its request says that the offer
does not suffice (DESIGN CHOICE, log entry 10). -/
def extraMw (s : State) (p : Nat) : Nat :=
  if s.rd (PD_STAT_CONTR p) < 2 ∨ bit (s.rd (PD_RDO_RDO p)) 26 then 2 ^ 32 else contractMw s p - 2500

/-- One consumer's share in the order of R477: the remainder and the leases so far. -/
def leaseOne (s : State) (floors : List Nat) (e : Nat) (r : Nat × NMap Nat) : Nat × NMap Nat :=
  if e < 20 then
    if !floors.contains (e - 2) ∨ e < 2 then r
    else
      let x := min (min (pmax s e - 2500) (extraMw s (e - 2))) r.1
      (r.1 - x, mins r.2 e (2500 + x))
  else if !portPresent (variant s) e ∨ 40 ≤ e ∨ r.1 < 2500 then r
  else (r.1 - 2500, mins r.2 e 2500)

/-- The priority list: POWER's entries, then the unlisted codes in rising order. -/
def leaseOrder (s : State) : List Nat :=
  let l := ((slice (powerSec s) 240 32).map (·.toNat)).filter (· ≠ 0xFF)
  l ++ ((List.range 40).filter fun e => ((2 ≤ e && e < 10) || 20 ≤ e) && !l.contains e)

/-- The leases that `e` mW give while `active` supplies, by code: 2 to 9 channels, 20 to 39 tree ports (R477). -/
def leaseTable (s : State) (active e : Nat) : NMap Nat :=
  let ports := leasePorts s active
  let rem := e - hubMw s
  let floors := ports.take (rem / 2500)
  let start := floors.foldl (fun m p => mins m (p + 2) 2500) ([] : NMap Nat)
  ((leaseOrder s).foldl (fun r c => leaseOne s floors c r) (rem - 2500 * floors.length, start)).2

/-- Floors of the attached sources, in mW (R477, R481). -/
def floorsMw (s : State) : Nat := 2500 * (leasePorts s (s.rd PP_FEED_ACTIVE)).length

/-- B_eff (R481). -/
def beff (s : State) : Nat := min (s.rd PST_CORE_BUDGET) ((availMw s - auxMw s - floorsMw s) * 4 / 5)

/-- A change of B_eff is a mode change (R481). -/
def withBeff (f : State → State) (s : State) : State := let t := f s; if beff t = beff s then t else structuralEvent t

/-- The sum of the leases, in mW. -/
def leasedMw (s : State) : Nat :=
  (((List.range 10).map fun n => if n < 2 then 0 else s.rd (PST_LEASE_MW n)).sum +
    2500 * ((List.range 20).filter fun k => bit (s.rd PST_U2LEASE_PORTS) k).length)

/-- The shed table (R478): what R477 would give if the second supply were the only one. While no supply is active the last one stands. -/
def precomputeShed (s : State) : State :=
  if s.rd PP_FEED_ACTIVE = 0 then s
  else { s with pw := { s.pw with shed := (secondSupply s).map fun a => (a, leaseTable s a (supplyMw s a)) } }

/-- PST_EXT as the leases stand, and the shed table after their change; LOW sets EXTLOW as it rises (R478, R481, R486). -/
def updateExt (s : State) : State :=
  let low := beff s < baseMw s
  let t := precomputeShed (s.wrs [(PST_EXT_BUS, b2n (s.rd PP_FEED_ACTIVE = 3)), (PST_EXT_AVAIL, min 4095 (availMw s / 100)), (PST_EXT_LOW, b2n low),
    (PST_EXT_LEASED, min 4095 (leasedMw s / 100))])
  if low ∧ !s.on PST_EXT_LOW then raise 16 6 t else t

/-! ### Channels (R465 to R468) -/

/-- I_G of a slow ramp in microamperes (R465): PC_CTL's GATE, or the POWER section's where that is 0. -/
def gateMicroamps (s : State) (n : Nat) : Nat := if s.on (PC_CTL_GATE n) then s.rd (PC_CTL_GATE n) else byteAt (powerSec s) (47 + 16 * n)

/-- Close a channel: the slow ramp, or, onto a charged rail, at 2 mA, which skips it (R465, R471). A latched channel stays
open. -/
def closeChannel (n : Nat) (fast rev : Bool) (s : State) : State :=
  if s.rd (PC_STAT_STATE n) = 6 ∨ s.rd (PC_STAT_STATE n) = 5 ∨ pathClosed s n then s
  else (s.wrs [(PC_STAT_STATE n, if fast then 2 else 1), (PC_STAT_PG n, 0), (PC_STAT_REV n, b2n rev)]).emit
    (.note "PCG up, microamperes" [n, if fast then 2000 else gateMicroamps s n])

/-- A channel opens: its gate is pulled down with 10 mA, or with 200 mA at a fault (R465). -/
def openAt (ma n : Nat) (s : State) : State :=
  if pathClosed s n then (s.wrs [(PC_STAT_STATE n, 0), (PC_STAT_PG n, 0), (PC_STAT_REV n, 0)]).emit (.note "PCG down, milliamperes" [n, ma]) else s

/-- A normal opening (R465). -/
def openChannel (n : Nat) (s : State) : State := openAt 10 n s

/-- The latch, a running backoff and the attempt count are cleared, as at a detach (R108, R468). -/
def clearLatch (n : Nat) (s : State) : State :=
  let t := s.wr (PC_STAT_ATTEMPT n) 0
  if 5 ≤ s.rd (PC_STAT_STATE n) then t.wr (PC_STAT_STATE n) 0 else t

/-- A channel latches (R468). -/
def latchChannel (n : Nat) (s : State) : State :=
  let t := raise 17 1 ((s.wr (PC_STAT_STATE n) 6).inc (PC_CNT_LATCH n))
  { t with pw := { t.pw with latchedAt := mput 0 t.pw.latchedAt n (t.clock + 1) } }

/-- After a fault opening the channel follows its MODE: it latches, or waits out a backoff (R468). -/
def followMode (n : Nat) (s : State) : State :=
  if !s.on (PC_CTL_MODE n) ∨ s.rd (PC_CTL_RETRIES n) ≤ s.rd (PC_STAT_ATTEMPT n) then latchChannel n s
  else s.wrs [(PC_STAT_STATE n, 5), (PC_STAT_ATTEMPT n, s.rd (PC_STAT_ATTEMPT n) + 1)]

/-! ### Contracts -/

/-- Set a port's converter target at once, in 20 mV. -/
def setTarget (p t20 : Nat) (s : State) : State := (s.wr (PD_VBUS_TARGET p) t20).setPdp p { (s.pdp p) with pos := 40 * t20 }

/-- The first masked port's whole offer ends with its contract (R450). -/
def releaseSeed (p : Nat) (s : State) : State := if s.rd PD_GLOB_SEEDPORT = p then s.wr PD_GLOB_SEEDPORT 0xFF else s

/-- A port's contract is discarded, with a transition in progress and an own request. -/
def pdDiscard (p : Nat) (s : State) : State :=
  releaseSeed p ((s.wrs [(PD_STAT_CONTR p, 0), (PD_RDO_RDO p, 0)]).setPdp p
    { (s.pdp p) with offer := [], own := 0, moving := none, overdrawn := false, revokeDue := false })

/-- A tree port loses its device when the port behind it is gone (R338). -/
def treePortGone (p : Nat) (s : State) : State :=
  match treePortOf s p with
  | none => s
  | some n => if s.on (USB_PST_CONN n) then let t := treeDrop n s; t.setTree n { (t.tree n) with cConn := true } else s

/-- The supply of the combiner is lost: no supply is active until the dead time, coded by what was lost, ends (R471). -/
def supplyLost (code : Nat) (s : State) : State :=
  let t := s.wr PP_FEED_ACTIVE 0
  { t with pw := { t.pw with dead := some code } }

/-- A detach of a Type-C port has debounced (R457, R446, R22): path and converter off, VCONN off, contract and lease gone, the
channel's latch and backoff cleared, the link down; as source, VBUS is discharged before the next attach. -/
def detachCore (p : Nat) (s : State) : State :=
  let src := asSource s p
  let moving := (s.pdp p).moving.isSome
  let sunk := crownActive s = some p
  let t := clearLatch (p + 2) (openChannel (p + 2) s)
  let t := if sunk then supplyLost 3 t else t
  let t := (setTarget p 250 (pdDiscard p t)).setPdp p { (s.pdp p) with
    pd := false, vconnNeeded := false, offer := [], own := 0, moving := none, pos := 10000, holding := false, hards := 0, discharge := src,
    withdrawnRp := false, erDue := false, waitVbus := src, overdrawn := false, revokeDue := false }
  let t := t.wrs [(PD_CV_CVEN p, 0), (PD_CV_STATE p, 0), (PD_CV_ADJ p, 0), (PD_STAT_CCST p, 0), (PD_STAT_ORIENT p, 0), (PD_STAT_PROLE p, 0),
    (PD_STAT_DROLE p, 0), (PD_STAT_VCONN p, 0), (PD_STAT_CAB5A p, 0), (PD_STAT_CABEPR p, 0), (PD_STAT_RPLVL p, 3), (PST_LEASE_MW (p + 2), 0)]
  let t := raise 18 1 t
  let t := if moving ∧ src then raise 18 5 t else t
  let down := portUp s p || 1 ≤ s.rd (CAN_STAT_STATE p) || 1 ≤ s.rd (ADP_STAT_STATE p)
  let t := if down then portDown p 1 t else let u := dropTunnels p 1 t; { u with sv := { u.sv with att := mdel u.sv.att p } }
  let t := (attachEvent t).setCan p {}
  let t := t.setEg p { (t.eg p) with wait := 1, waiting := false }
  let t := updateExt (treePortGone p t)
  if p < 2 then treeDetach p t else t

/-- Error recovery (R459): the CC terminations go for 30 ms, which is a detach. -/
def errorRecovery (p : Nat) (s : State) : State :=
  raise 18 7 (((if asSource s p || asSink s p then detachCore p s else s).inc (PD_CNT_ERREC p)).wr (PD_STAT_CCST p) 4)

/-- A Hard Reset sent or received on an attached port (R455, R459): the transition stops, the contract goes, a source returns VBUS
through vSafe0V to 5 V. After three without a contract the port runs error recovery instead. -/
def hardReset (p : Nat) (sent : Bool) (s : State) : State :=
  if !(asSource s p || asSink s p) then s
  else if 3 ≤ (s.pdp p).hards then errorRecovery p s
  else
    let t := raise 18 3 (s.inc (PD_CNT_HRST p))
    let t := if sent then t.emit (.pd p "Hard Reset" []) else t
    let t := (pdDiscard p t).wr (PD_STAT_CONTR p) 1
    let t := t.setPdp p { (t.pdp p) with hards := (s.pdp p).hards + 1 }
    if asSource s p then setTarget p 250 (t.wr (PD_CV_STATE p) 1) else t

/-! ### Objects that a source offers (R444, R450) -/

/-- A Fixed Supply object: volts and milliamps. -/
def fixedPdo (v ma : Nat) : Word := BitVec.ofNat 32 (v * 20 * 1024 + min 1023 (ma / 10))

/-- The fuse list's used words (R450). -/
def fuseList (s : State) : List Nat :=
  if fuseFault s then [] else ((List.range 7).map fun k => s.rd (FUSE_PDO_V k)).takeWhile (· ≠ 0)

/-- The port mask of the fuse list. -/
def fuseMask (s : State) : Nat := if fuseFault s then 0 else bits (s.rd (FUSE_PDO_V 7)) 7 0

/-- The fuse list is valid (R450). -/
def fuseListValid (s : State) : Bool :=
  let l := fuseList s
  let mv (o : Nat) : Nat := 50 * bits o 19 10
  (l.head?.map mv) = some 5000 && (l.all fun o => bits o 31 30 = 0 && mv o ≤ 20000 && bits o 9 0 ≤ 500) && rising (l.map mv) && fuseMask s ≠ 0

/-- The objects of the hardware policy: the whole list at no more than 3 A to the port that holds it, object 1 at 1.5 A to the
others (R450). -/
def seedCaps (s : State) (p : Nat) : Words :=
  let cap (ma o : Nat) : Word := BitVec.ofNat 32 (o - bits o 9 0 + min (bits o 9 0) (ma / 10))
  if s.rd PD_GLOB_SEEDPORT = p then (fuseList s).map (cap 3000) else ((fuseList s).take 1).map (cap 1500)

/-- The cable's limit: 5 A where its identity reports it, else 3 A (R444). -/
def cableMa (s : State) (p : Nat) : Nat := if s.on (PD_STAT_CAB5A p) then 5000 else 3000

/-- The firmware's objects for a lease (R444, R477): fixed SPR objects, PPS on P2 to P7, EPR on a host-facing crown port. The
capability bits of the first object are left 0 (log entry 11). -/
def firmwareCaps (s : State) (p : Nat) : Words :=
  let lease := s.rd (PST_LEASE_MW (p + 2))
  let ma (v : Nat) : Nat := min (cableMa s p) (lease / v)
  let spr := [5, 9, 15, 20].filterMap fun v => if ma v < 10 then none else some (fixedPdo v (ma v))
  let pps := if 2 ≤ p ∧ s.on (PD_CTL_PPSEN p) ∧ 50 ≤ ma 21 then
    [BitVec.ofNat 32 (3 * 2 ^ 30 + 210 * 2 ^ 17 + 33 * 2 ^ 8 + ma 21 / 50)] else []
  let epr := if p < 2 ∧ !isDown s p ∧ s.on (PD_CTL_EPREN p) ∧ s.on (PD_STAT_CAB5A p) ∧ s.on (PD_STAT_CABEPR p) then
    [28, 36, 48].filterMap fun v => if ma v < 10 then none else some (fixedPdo v (ma v)) else []
  if epr = [] then spr ++ pps else spr ++ List.replicate (7 - spr.length) 0 ++ epr

/-- Send Source_Capabilities (R450, R477). -/
def sourceCaps (p : Nat) (s : State) : State :=
  let caps := if s.on PD_GLOB_FWPOL ∧ s.pw.leased then firmwareCaps s p else seedCaps s p
  (s.setPdp p { (s.pdp p) with offer := caps }).emit (.pd p "Source_Capabilities" (caps.map (·.toNat)))

/-! ### Applying leases (R479, R480) -/

/-- A channel's lease changes: a lower one is revoked, a higher one offered; one that a transition delays stands until the
transition ends; a port left without its floor withdraws Rp (R477, R479, R480). -/
def setLease (n new : Nat) (s : State) : State :=
  let p := n - 2
  let old := s.rd (PST_LEASE_MW n)
  if !asSource s p then s.wr (PST_LEASE_MW n) 0
  else if new < old ∧ (s.pdp p).moving.isSome then s.setPdp p { (s.pdp p) with revokeDue := true }
  else
    let t := s.wr (PST_LEASE_MW n) new
    if new = 0 then
      if (s.pdp p).withdrawnRp then t
      else
        let t := openChannel n (pdDiscard p t)
        (t.wr (PD_STAT_RPLVL p) 3).setPdp p { (t.pdp p) with withdrawnRp := true }
    else if (s.pdp p).withdrawnRp then
      let t := closeChannel n false false (t.wrs [(PD_STAT_RPLVL p, 2), (PD_STAT_CONTR p, 1)])
      sourceCaps p (t.setPdp p { (t.pdp p) with withdrawnRp := false })
    else if new = old then t
    else
      let t := sourceCaps p t
      if new < old ∧ new < contractMw s p then t.setPdp p { (t.pdp p) with overdrawn := true } else t

/-- A tree port gains or loses its lease: one that is lost turns its power off as an overcurrent; one that is gained powers a port
that waits for it (R337, R481). -/
def setTreeLease (k : Nat) (has : Bool) (s : State) : State :=
  let n := k + 7
  let had := bit (s.rd PST_U2LEASE_PORTS) k
  if has = had then s
  else
    let t := s.wr PST_U2LEASE_PORTS (if has then s.rd PST_U2LEASE_PORTS + 2 ^ k else s.rd PST_U2LEASE_PORTS - 2 ^ k)
    if has then (if (t.tree n).on then treeSwitch n true t else t)
    else if t.on (USB_PST_PWR n) then treeOvercurrent n t else t

/-- Give the leases of a table: all that change. -/
def applyLeases (m : NMap Nat) (s : State) : State :=
  let first := !s.pw.leased
  let s := { s with pw := { s.pw with leased := true } }
  let s := forAll [2, 3, 4, 5, 6, 7, 8, 9] (fun n t => setLease n (mget 0 m n) t) s
  let s := forAll (List.range 20) (fun k t => setTreeLease k (mget 0 m (20 + k) ≠ 0) t) s
  let held (k : Nat) : Bool := first && !bit (s.rd PST_U2LEASE_PORTS) k && s.on (USB_PST_PWR (k + 7))
  forAll ((List.range 20).filter held) (fun k t => treeOvercurrent (k + 7) t) s

/-- Whether a table lowers a lease in force. -/
def lowers (m : NMap Nat) (s : State) : Bool :=
  ([2, 3, 4, 5, 6, 7, 8, 9].any fun n => mget 0 m n < s.rd (PST_LEASE_MW n)) ||
  (List.range 20).any fun k => bit (s.rd PST_U2LEASE_PORTS) k && mget 0 m (20 + k) = 0

/-- The steward recomputes the leases (R477, R478, R480). -/
def recomputeLeases (s : State) : State :=
  if !stewardUp s then s
  else
    let e := match secondSupply s with | some b => min (availMw s) (supplyPeak s b) | none => availMw s
    let m := leaseTable s (s.rd PP_FEED_ACTIVE) e
    let t := updateExt (withBeff (applyLeases m) s)
    if lowers m s then raise 16 5 t else t

/-- The hardware steward applies the shed table of the supply that has taken over (R479); one for another supply than the precomputed one it computes. -/
def applyShed (s : State) : State :=
  if !s.pw.leased ∨ s.ld.image.isNone then s
  else
    let m := match s.pw.shed with
      | some (a, m) => if a = s.rd PP_FEED_ACTIVE then m else leaseTable s (s.rd PP_FEED_ACTIVE) (availMw s)
      | none => leaseTable s (s.rd PP_FEED_ACTIVE) (availMw s)
    let shed := mmap (fun n x => if n < 20 then min x (s.rd (PST_LEASE_MW n)) else if bit (s.rd PST_U2LEASE_PORTS) (n - 20) then x else 0) m
    raise 16 4 (updateExt (applyLeases shed s))

/-! ### Fault openings (R467 to R469) -/

/-- A fault opening of a VBUS channel ends the port's contract and its lease, and is an overcurrent on its tree port; error
recovery follows when the channel closes again (R469). A crown channel that fed the rail is a supply lost. -/
def vbusFault (p : Nat) (sunk : Bool) (s : State) : State :=
  let t := pdDiscard p s
  let t := (t.wr (PST_LEASE_MW (p + 2)) 0).setPdp p { (t.pdp p) with erDue := true }
  let t := updateExt (match treePortOf t p with | some n => treeOvercurrent n t | none => t)
  if sunk then supplyLost 3 t else t

/-- A fault opening (R465, R467 to R469). A feed's is a loss of the supply as well where the feed was active. -/
def faultOpening (n : Nat) (s : State) : State :=
  if !pathClosed s n then s
  else
    let sunk := 2 ≤ n && crownActive s = some (n - 2)
    let t := raise 17 0 (followMode n (openAt 200 n s))
    if n < 2 then (if s.rd PP_FEED_ACTIVE = n + 1 then supplyLost (n + 1) t else t) else vbusFault (n - 2) sunk t

end Sys2Proof.Machine
end

