-- ==== Sys2Proof/Machine/Pd.lean ====
section
/-! DEFINITION. Type-C and Power Delivery (R444 to R463). -/

namespace Sys2Proof.Machine

/-- A PD port is attached. -/
def attached (s : State) (p : Nat) : Bool := asSource s p || asSink s p

/-- The firmware is needed for an answer and is not there: the protocol engine answers Wait (R397). -/
def policyAbsent (s : State) : Bool := s.on PD_GLOB_FWPOL && !s.on SYS_STAGE_FWRDY

/-- The firmware's source policy is in force on the ports: it holds policy and has computed leases (R451, R481). -/
def fwSources (s : State) : Bool := s.on PD_GLOB_FWPOL && s.pw.leased

/-- The port may attach as source (R444, R450, R481): under the hardware policy with a valid fuse list, its mask and a qualified
feed; under the firmware's, a host-facing crown port only while a feed is qualified. -/
def maySource (s : State) (p : Nat) : Bool :=
  if fwSources s then (2 ≤ p && portPresent (variant s) p) || isDown s p || (p < 2 && anyFeed s)
  else fuseListValid s && bit (fuseMask s) p && anyFeed s && !(s.on PD_GLOB_DBBOOT && 2 ≤ p) && portPresent (variant s) p

/-- The port may attach as sink: a crown port that does not face a child hub (R444). -/
def maySink (s : State) (p : Nat) : Bool := p < 2 && !isDown s p

/-- A source starts or ends an AMS of its own: Rp says SinkTxNG meanwhile (R446, R458); in Seedling R450 governs. -/
def sinkTx (p : Nat) (ok : Bool) (s : State) : State :=
  if asSource s p ∧ s.on PD_GLOB_FWPOL ∧ !(s.pdp p).withdrawnRp then s.wr (PD_STAT_RPLVL p) (if ok then 2 else 1) else s

/-- Start an own request (1 DR_Swap, 2 PR_Swap): a sink only while it sees SinkTxOk (R458). -/
def startOwn (p k : Nat) (s : State) : State :=
  if (s.pdp p).own ≠ 0 ∨ (asSink s p ∧ s.rd (PD_STAT_RPLVL p) ≠ 2) then s
  else (sinkTx p false (s.setPdp p { (s.pdp p) with own := k })).emit (.pd p (if k = 1 then "DR_Swap" else "PR_Swap") [])

/-- The own request ends. -/
def endOwn (p : Nat) (s : State) : State := sinkTx p true (s.setPdp p { (s.pdp p) with own := 0 })

/-- A crown port without the data role of R448 asks for it at each new explicit contract. -/
def wantRole (p : Nat) (s : State) : State :=
  if p < 2 ∧ s.rd (PD_STAT_DROLE p) ≠ b2n (isDown s p) then startOwn p 1 s else s

/-- The lease that an attach between epochs gets at once (R480). -/
def attachLease (p : Nat) (s : State) : State :=
  if !s.pw.leased ∨ (p < 2 ∧ s.rd PP_FEED_ACTIVE = 3) then s
  else
    let e := match secondSupply s with | some b => min (availMw s) (supplyPeak s b) | none => availMw s
    let used := ((List.range 8).map fun q => s.rd (PST_LEASE_MW (q + 2))).sum +
      2500 * ((List.range 20).filter fun k => bit (s.rd PST_U2LEASE_PORTS) k).length
    updateExt (s.wr (PST_LEASE_MW (p + 2)) (min (pmax s (p + 2)) (e - hubMw s - used)))

/-- CC_ATTACH as source (R446, R447, R450): Rp, VCONN where the other pin carries Ra, the path closes, the offer goes out. -/
def attachSource (p : Nat) (info : CcInfo) (s : State) : State :=
  let t := s.wrs [(PD_STAT_CCST p, 2), (PD_STAT_PROLE p, 1), (PD_STAT_DROLE p, 1), (PD_STAT_VCONN p, b2n info.vconnNeeded), (PD_STAT_RPLVL p, 2),
    (PD_CV_CVEN p, 1), (PD_CV_STATE p, 1)]
  let t := setTarget p 250 t
  let t := if !fwSources t ∧ t.rd PD_GLOB_SEEDPORT = 0xFF then t.wr PD_GLOB_SEEDPORT p else t
  let t := attachLease p (closeChannel (p + 2) false false t)
  if info.pd then sourceCaps p t else t

/-- A crown port attaches as sink; without another supply its channel feeds the rail (R464, R471). -/
def attachSink (p : Nat) (info : CcInfo) (s : State) : State :=
  let t := s.wrs [(PD_STAT_CCST p, 3), (PD_STAT_PROLE p, 0), (PD_STAT_DROLE p, 0), (PD_STAT_VCONN p, 0), (PD_STAT_RPLVL p, min 3 info.rp)]
  if t.rd PP_FEED_ACTIVE = 0 ∧ t.pw.dead.isNone ∧ !anyFeed t then updateExt ((closeChannel (p + 2) false true t).wr PP_FEED_ACTIVE 3) else t

/-- CC_ATTACH (R446, R447, R39): the termination has been stable for 120 ms. -/
def execCcAttach (port : CanPort) (cc2 asSource : Bool) (info : CcInfo) (s : State) : Host.Outcome State Fault Refusal :=
  let p := port.val
  if 2 ≤ s.rd (PD_STAT_CCST p) ∨ (s.pdp p).waitVbus ∨ !(if asSource then maySource s p else maySink s p) then .next s
  else
    let t := s.wrs [(PD_STAT_ORIENT p, b2n cc2), (PD_STAT_CAB5A p, b2n info.cable5A), (PD_STAT_CABEPR p, b2n info.cableEpr), (PD_STAT_CONTR p, 1)]
    let t := t.setPdp p { (t.pdp p) with pd := info.pd, vconnNeeded := info.vconnNeeded }
    let t := t.setCan p { supports := info.supports, flip := cc2 }
    let t := withBeff (fun u => if asSource then attachSource p info u else attachSink p info u) t
    let t := attachEvent (raise 18 0 t)
    let t := if p < 2 then updateTree t else t
    .next (if t.on CFG_STATUS_LOADED ∧ t.rd PST_PSSTAT_STATE < 3 ∧ (2 ≤ p ∨ isDown t p) then enterChosen p t else t)

/-- CC_DETACH (R446, R457): Rd has been absent for 15 ms at a source port. -/
def execCcDetach (port : CanPort) (s : State) : Host.Outcome State Fault Refusal :=
  .next (if asSource s port.val then withBeff (detachCore port.val) s else s)

/-- CC_TERMINATION_CHANGE (R446, R457): an unattached port debounces; a source holds TARGET while CC is open, and goes on where the
termination returns. -/
def execCcTerminationChange (port : CanPort) (present : Bool) (s : State) : Host.Outcome State Fault Refusal :=
  let p := port.val
  let st := s.rd (PD_STAT_CCST p)
  if st < 2 then .next (if (s.pdp p).waitVbus then s else s.wr (PD_STAT_CCST p) (b2n present))
  else if st = 2 then
    let t := s.setPdp p { (s.pdp p) with holding := !present }
    .next (if !present ∧ t.on (PD_CV_CVEN p) then t.wr (PD_CV_STATE p) 1 else t)
  else .next s

/-- VBUS_DISCHARGED (R457): VBUS is below 0.8 V. -/
def execVbusDischarged (port : CanPort) (s : State) : Host.Outcome State Fault Refusal :=
  let x := s.pdp port.val
  .next (s.setPdp port.val { x with discharge := false, waitVbus := false })

/-- ERROR_RECOVERY_END (R459): the terminations return. -/
def execErrorRecoveryEnd (port : CanPort) (s : State) : Host.Outcome State Fault Refusal :=
  .next (if s.rd (PD_STAT_CCST port.val) = 4 then s.wr (PD_STAT_CCST port.val) 0 else s)

/-- DRP_TOGGLE (R446): an unattached host-facing crown port, while a feed is qualified, presents the other of Rp and Rd. -/
def execDrpToggle (port : CanPort) (s : State) : Host.Outcome State Fault Refusal :=
  let p := port.val
  .next (if maySink s p ∧ s.rd (PD_STAT_CCST p) = 0 ∧ anyFeed s ∧ !(s.pdp p).waitVbus then
    s.wr (PD_STAT_RPLVL p) (if s.rd (PD_STAT_RPLVL p) = 3 then 2 else 3) else s)

/-! ### The hub as sink -/

/-- A request for an object at an operating and maximum current. -/
def rdoFor (pos ma : Nat) : Word := BitVec.ofNat 32 (pos * 2 ^ 28 + min 1023 (ma / 10) * 1024 + min 1023 (ma / 10))

/-- SOURCE_CAPABILITIES (R449, R452): in Seedling object 1 at the Rp current; the firmware may request any fixed object of up to
20 V and 5 A, and the spec leaves it open which. -/
def execSourceCapabilities (port : CanPort) (pdos : Words) (s : State) : Host.Outcome State Fault Refusal :=
  let p := port.val
  if !asSink s p then .next s
  else if policyAbsent s then .next (s.emit (.pd p "Wait" []))
  else
    let ask (pos ma : Nat) (t : State) : State :=
      let rdo := rdoFor pos ma
      (t.setPdp p { (t.pdp p) with offer := pdos, moving := some (0, rdo) }).emit (.pd p "Request" [rdo.toNat])
    if !s.on PD_GLOB_FWPOL then .next (ask 1 (rpMilliamps (s.rd (PD_STAT_RPLVL p))) s)
    else
      let fixed := (List.range pdos.length).filter fun k =>
        let o := objectAt pdos (k + 1)
        o ≠ 0 && bits o 31 30 = 0 && 50 * bits o 19 10 ≤ 20000
      let (x, t) := s.free
      let pos := fixed.getD (x % fixed.length) 0 + 1
      .next (ask pos (min 5000 (10 * bits (objectAt pdos pos) 9 0)) t)

/-- EXPLICIT_CONTRACT (R448): the partner's PS_RDY answers the hub's Request. -/
def execExplicitContract (port : CanPort) (s : State) : Host.Outcome State Fault Refusal :=
  let p := port.val
  match (s.pdp p).moving with
  | none => .next s
  | some (_, rdo) =>
    if !asSink s p then .next s
    else
      let t := s.setPdp p { (s.pdp p) with moving := none, hards := 0 }
      let t := withBeff (fun u => updateExt (u.wrs [(PD_STAT_CONTR p, 2), (PD_RDO_RDO p, rdo.toNat)])) t
      .next (wantRole p (raise 18 2 t))

/-! ### Source transitions (R454 to R456) -/

/-- A request can be met: its object exists, its current and, for PPS, its voltage lie within it (R455). -/
def requestOk (offer : Words) (rdo : Nat) : Bool :=
  let o := objectAt offer (bits rdo 31 28)
  o ≠ 0 && (if objPps o then 100 * bits o 15 8 ≤ 20 * bits rdo 20 9 && 20 * bits rdo 20 9 ≤ 100 * bits o 24 17 && bits rdo 6 0 ≤ bits o 6 0
    else bits rdo 19 10 ≤ bits o 9 0)

/-- A request of the partner that crosses an own one at a source: the own completes, and the partner's gets Wait (R458). -/
def crossed (p : Nat) (s : State) : State := raise 18 6 ((s.inc (PD_CNT_COLL p)).emit (.pd p "Wait" []))

/-- REQUEST (R455, R458). -/
def execRequest (port : CanPort) (rdo : Word) (s : State) : Host.Outcome State Fault Refusal :=
  let p := port.val
  if !asSource s p then .next s
  else if (s.pdp p).own ≠ 0 then .next (crossed p s)
  else if policyAbsent s then .next (s.emit (.pd p "Wait" []))
  else if !requestOk (s.pdp p).offer rdo.toNat then .next (s.emit (.pd p "Reject" []))
  else
    let t20 := (requested (s.pdp p).offer rdo.toNat).1 / 20
    let st := if s.rd (PD_VBUS_TARGET p) < t20 then 2 else if t20 < s.rd (PD_VBUS_TARGET p) then 3 else 1
    .next (((s.setPdp p { (s.pdp p) with moving := some (t20, rdo), rampAt := s.clock + ms 30 }).wr (PD_CV_STATE p) st).emit (.pd p "Accept" []))

/-- CONVERTER_STEP (R454, R455): the loop senses VBUS, in 20 mV, moves TARGET along the ramp, once 30 ms have passed since the Accept, and steps
CVADJ by 1 microampere while VBUS is more than 20 mV away. -/
def execConverterStep (port : CanPort) (meas : Nat) (s : State) : Host.Outcome State Fault Refusal :=
  let p := port.val
  let s := s.wr (PD_VBUS_MEAS p) (min 4095 meas)
  let x := s.pdp p
  if !s.on (PD_CV_CVEN p) then .next s
  else
    let d := 25 * s.rd (PD_CTL_SLEW p)
    let goal := match x.moving with | some (t, _) => 40 * t | none => x.pos
    let pos := if x.holding ∨ (x.moving.isSome ∧ s.clock < x.rampAt) then x.pos else if x.pos < goal then min goal (x.pos + d) else max goal (x.pos - d)
    let falling := x.moving.isSome && goal < x.pos
    let st := if x.holding then 1 else if pos < goal then 2 else if goal < pos then 3 else if s.rd (PD_CV_STATE p) = 4 then 4 else 1
    let tg := pos / 40
    let t := (s.wrs [(PD_VBUS_TARGET p, tg), (PD_CV_STATE p, st)]).setPdp p { x with pos := pos, discharge := falling && 105 * tg < 100 * meas }
    let a := t.rd (PD_CV_ADJ p)
    .next (t.wr (PD_CV_ADJ p) (if meas + 1 < tg then min 255 (a + 1) else if tg + 1 < meas then a - 1 else a))

/-- A source transition is over: a lease that waited for it is applied (R480). -/
def transitionOver (p : Nat) (s : State) : State :=
  if (s.pdp p).revokeDue then recomputeLeases (s.setPdp p { (s.pdp p) with revokeDue := false }) else s

/-- PS_RDY (R455): VBUS has stayed in its window for 1 ms at the end of the ramp; the contract is made. -/
def execPsRdy (port : CanPort) (s : State) : Host.Outcome State Fault Refusal :=
  let p := port.val
  let x := s.pdp p
  match x.moving with
  | none => .next s
  | some (t20, rdo) =>
    if !asSource s p ∨ x.pos ≠ 40 * t20 ∨ x.holding then .next s
    else
      let pos := bits rdo.toNat 31 28
      let kind := if objPps (objectAt x.offer pos) then 3 else if 8 ≤ pos then 4 else 2
      let t := (s.wrs [(PD_STAT_CONTR p, kind), (PD_RDO_RDO p, rdo.toNat), (PD_CV_STATE p, 1)]).emit (.pd p "PS_RDY" [])
      let t := t.setPdp p { x with moving := none, hards := 0, discharge := false }
      let t := if contractMw t p ≤ t.rd (PST_LEASE_MW (p + 2)) then t.setPdp p { (t.pdp p) with overdrawn := false } else t
      let t := closeChannel (p + 2) false false (raise 18 2 t)
      .next (wantRole p (transitionOver p t))

/-- TRANSITION_LIMIT (R455): PS_RDY was not sent within TRLIM. -/
def execTransitionLimit (port : CanPort) (s : State) : Host.Outcome State Fault Refusal :=
  let p := port.val
  if !asSource s p ∨ (s.pdp p).moving.isNone then .next s
  else
    let late := (s.pdp p).revokeDue
    let t := hardReset p true (raise 18 4 (s.inc (PD_CNT_TRFAIL p)))
    let t := if asSource t p then t.wr (PD_CV_STATE p) 5 else t
    .next (if late then recomputeLeases t else t)

/-- HARD_RESET (R455): the partner's. -/
def execHardReset (port : CanPort) (s : State) : Host.Outcome State Fault Refusal :=
  let p := port.val
  let late := (s.pdp p).revokeDue
  let busy := asSource s p && (s.pdp p).moving.isSome
  let t := withBeff (hardReset p false) s
  let t := if busy ∧ asSource t p then t.wr (PD_CV_STATE p) 5 else t
  .next (if late then recomputeLeases t else t)

/-- PPS_CURRENT_LIMIT (R456): every 100 microseconds TARGET falls by 20 mV, not below the object's minimum, while the current is
above the one requested, and rises again to the voltage requested once it has fallen back. -/
def execPpsCurrentLimit (port : CanPort) (above : Bool) (s : State) : Host.Outcome State Fault Refusal :=
  let p := port.val
  let x := s.pdp p
  if s.rd (PD_STAT_CONTR p) ≠ 3 ∨ x.moving.isSome ∨ x.holding ∨ !asSource s p then .next s
  else
    let rdo := s.rd (PD_RDO_RDO p)
    let least := 5 * bits (objectAt x.offer (bits rdo 31 28)) 15 8
    let want := (requested x.offer rdo).1 / 20
    let t := s.rd (PD_VBUS_TARGET p)
    if above then .next (if least < t then setTarget p (t - 1) (s.wr (PD_CV_STATE p) 4) else s.wr (PD_CV_STATE p) 4)
    else if t < want then .next (setTarget p (t + 1) (s.wr (PD_CV_STATE p) (if t + 1 < want then 4 else 1)))
    else .next (if s.rd (PD_CV_STATE p) = 4 then s.wr (PD_CV_STATE p) 1 else s)

/-- PPS_TIMEOUT (R456): a PPS sink has been silent for 14 s. -/
def execPpsTimeout (port : CanPort) (s : State) : Host.Outcome State Fault Refusal :=
  .next (if s.rd (PD_STAT_CONTR port.val) = 3 ∧ asSource s port.val then hardReset port.val true s else s)

/-- EPR_KEEPALIVE_TIMEOUT (R456): an EPR sink's keep-alive is missing for 1 s. -/
def execEprKeepaliveTimeout (port : CanPort) (s : State) : Host.Outcome State Fault Refusal :=
  .next (if s.rd (PD_STAT_CONTR port.val) = 4 ∧ asSource s port.val then hardReset port.val true s else s)

/-- A write to PD_CTL_p: its settings, then HRST and ERREC, which clear at once (R460). -/
def wrPdCtl (p v : Nat) (s : State) : State :=
  let t := wrWord (0x70000 + 0x40 * p) v ((regFields .PD_CTL p 0).filter fun f => f.acc = .rw) s
  let t := if bit v 31 then withBeff (hardReset p true) t else t
  if bit v 30 then withBeff (errorRecovery p) t else t

/-! ### Swaps (R444, R448, R452, R458) -/

/-- The data role changes. -/
def swapData (p : Nat) (s : State) : State :=
  let t := s.wr (PD_STAT_DROLE p) (1 - s.rd (PD_STAT_DROLE p))
  if p < 2 then updateTree t else t

/-- The power role of a host-facing crown port changes (R444, R464): the path opens and closes again in the other direction, and the
contract starts afresh. -/
def swapPower (p : Nat) (s : State) : State :=
  let sunk := crownActive s = some p
  let t := openChannel (p + 2) (pdDiscard p s)
  let t := if sunk then supplyLost 5 t else t
  let t := setTarget p 250 (t.wrs [(PD_STAT_CONTR p, 1), (PD_STAT_RPLVL p, 2), (PST_LEASE_MW (p + 2), 0)])
  if asSink s p then
    let t := closeChannel (p + 2) false false (t.wrs [(PD_STAT_CCST p, 2), (PD_STAT_PROLE p, 1), (PD_CV_CVEN p, 1), (PD_CV_STATE p, 1)])
    sourceCaps p (attachLease p t)
  else updateExt (t.wrs [(PD_STAT_CCST p, 3), (PD_STAT_PROLE p, 0), (PD_CV_CVEN p, 0), (PD_CV_STATE p, 0), (PD_CV_ADJ p, 0)])

/-- A partner's request meets an own one under way (R458): as source the own wins and the partner's gets Wait; as sink the own is
withdrawn and the partner's answered. -/
def onCollision (p : Nat) (answer : State → State) (s : State) : State :=
  if (s.pdp p).own = 0 then answer s
  else if asSource s p then crossed p s
  else raise 18 6 (answer ((s.setPdp p { (s.pdp p) with own := 0 }).inc (PD_CNT_COLL p)))

/-- DR_SWAP (R444, R448): the partner's is accepted only towards the role of the port; the answer to the own one swaps the roles. -/
def execDrSwap (port : CanPort) (fromPartner accepted : Bool) (s : State) : Host.Outcome State Fault Refusal :=
  let p := port.val
  if !attached s p then .next s
  else if fromPartner then
    .next (onCollision p (fun t =>
      if p < 2 ∧ t.rd (PD_STAT_DROLE p) ≠ b2n (isDown t p) then swapData p (t.emit (.pd p "Accept" [])) else t.emit (.pd p "Reject" [])) s)
  else if (s.pdp p).own ≠ 1 then .next s
  else let t := endOwn p s; .next (if accepted then swapData p t else t)

/-- PR_SWAP (R444, R452): only host-facing crown ports swap, and none becomes source without a qualified feed. -/
def execPrSwap (port : CanPort) (fromPartner accepted : Bool) (s : State) : Host.Outcome State Fault Refusal :=
  let p := port.val
  if !attached s p then .next s
  else if fromPartner then
    .next (onCollision p (fun t =>
      if policyAbsent t then t.emit (.pd p "Wait" [])
      else if maySink t p ∧ (asSource t p ∨ anyFeed t) then withBeff (swapPower p) (t.emit (.pd p "Accept" []))
      else t.emit (.pd p "Reject" [])) s)
  else if (s.pdp p).own ≠ 2 then .next s
  else let t := endOwn p s; .next (if accepted then withBeff (swapPower p) t else t)

/-- VCONN_SWAP (R444, R447): VCONN goes to the partner, or comes back to the hub while it is source. -/
def execVconnSwap (port : CanPort) (s : State) : Host.Outcome State Fault Refusal :=
  let p := port.val
  if !attached s p then .next s
  else if s.on (PD_STAT_VCONN p) then .next ((s.wr (PD_STAT_VCONN p) 0).emit (.pd p "Accept" []))
  else if asSource s p then .next ((s.wr (PD_STAT_VCONN p) 1).emit (.pd p "Accept" []))
  else .next (s.emit (.pd p "Reject" []))

/-! ### Modes (R239, R241) -/

/-- A crown port that announces the Canopy link (R239). -/
def announces (s : State) (p : Nat) : Bool := p < 2 && !isDown s p && bit (portModes s p) 0 && attached s p

/-- DISCOVER_SVIDS (R239). -/
def execDiscoverSvids (port : CanPort) (s : State) : Host.Outcome State Fault Refusal :=
  .next (if announces s port.val then s.emit (.pd port.val "SVIDs" [0x4F5A]) else s.emit (.pd port.val "NAK" []))

/-- DISCOVER_MODES (R239, R241, R504): the mode VDO unless the mode has been withdrawn. -/
def execDiscoverModes (port : CanPort) (svid : BitVec 16) (s : State) : Host.Outcome State Fault Refusal :=
  let p := port.val
  .next (if announces s p ∧ svid = 0x4F5A ∧ !(s.can p).failed ∧ !s.on KEY_VAULT_HALT then s.emit (.pd p "Modes" [1]) else s.emit (.pd p "NAK" []))

/-- ENTER_USB (R241): a host-facing crown port with MODES bit 1 that does not run the Canopy link becomes a USB4 device router;
`mode` is the USB mode asked for, 2 for USB4. -/
def execEnterUsb (port : CanPort) (mode : Fin 8) (s : State) : Host.Outcome State Fault Refusal :=
  let p := port.val
  let c := s.can p
  if !(p < 2) ∨ isDown s p ∨ !bit (portModes s p) 1 ∨ !attached s p ∨ mode.val ≠ 2 ∨ c.entered = 2 ∨ (c.entered = 1 ∧ !c.failed) then
    .next (s.emit (.pd p "Reject" []))
  else .next (startTraining p ((s.setCan p { c with entered := 2 }).emit (.pd p "Accept" [])))

end Sys2Proof.Machine
end

