-- ==== Sys2Proof/Machine/Vault.lean ====
section
/-! DEFINITION. The key vault and tamper (R489 to R508), the hold of R51, and the start of a return from a power state, which an
alarm makes (R436). -/

namespace Sys2Proof.Machine

/-! ### Slots (R489, R490) -/

/-- The integrity tag of a slot's 64-byte value (R490). -/
def slotTag (n : Nat) (v : Bytes) : Nat :=
  leAt (Config.sha256 (BitVec.ofNat 8 n :: (v ++ List.replicate (64 - v.length) 0))) 0 4

/-- Write a slot: its value, STATE and the rest of KEY_SLOT_n, and its tag. -/
def setSlot (n state keyid len gen : Nat) (v : Bytes) (s : State) : State :=
  let t := s.wrs [(KEY_SLOT_STATE n, state), (KEY_SLOT_KEYID n, keyid), (KEY_SLOT_LEN n, len), (KEY_SLOT_GEN n, gen), (KEY_TAG_TAG n, slotTag n v)]
  let t := if n = 0 then t.setB KEY_VAULT_KEKV (state = 2) else t
  { t with kv := { t.kv with slots := mput [] t.kv.slots n v } }

/-- Overwrite a slot with zeros: EMPTY, with a fresh tag. -/
def clearSlot (n : Nat) (s : State) : State := setSlot n 0 0 0 0 [] s

/-- What a Canopy slot holds: the ephemeral private key and PRK of a handshake, then the transmit and the receive secret of the
oldest epoch in use (R501). -/
def canopySlot (s : State) (n : Nat) : Bytes :=
  let c := s.can ((n - 6) / 2)
  if canActive s ((n - 6) / 2) then
    (if n % 2 = 0 then (match c.oldTx with | some (_, k) => k | none => c.secTx)
     else (match c.oldRx with | some (_, k) => k | none => c.secRx))
  else if n % 2 = 0 then c.priv else c.prk

/-- The value that an attestation slot's key holds. -/
def slotKey (s : State) (n : Nat) : Bytes := (mget [] s.kv.slots n).take (s.rd (KEY_SLOT_LEN n))

/-- UID as R491 uses it: the two words, each little-endian. -/
def uidBytes (s : State) : Bytes := leBytes 4 (s.rd (FUSE_UID_V 0)) ++ leBytes 4 (s.rd (FUSE_UID_V 1))

/-- DS is programmed and its row passes its CRC (R491, KEY_VAULT.DSV). -/
def dsValid : Bool := Config.deviceSecretOk && !(Config.deviceSecret.all (· = 0))

/-- The release of KEY derives the KEK into KS0, or leaves it EMPTY (R491). -/
def deriveKek (s : State) : State :=
  let t := if !dsValid || s.kv.zeroised || s.on KEY_VAULT_HALT then clearSlot 0 s
    else setSlot 0 2 0 32 0 (Config.hkdfExpand (Config.hmac384 (uidBytes s) Config.deviceSecret) (ascii "tirlos kek") 32) s
  { t with kv := { t.kv with zeroised := false } }

/-! ### Blobs (R492 to R494) -/

/-- Record `i` of the blob region. -/
def blobRecord (s : State) (i : Nat) : Bytes := flashBytes s (0x3F0000 + 128 * i) 128

/-- The key that a record's WRAP unwraps to, with its prefix. -/
def unwrapRecord (s : State) (r : Bytes) : Option Bytes :=
  (kek s).bind fun k => Config.kwpUnwrap k (slice r 16 (8 * byteAt r 5 + 16))

/-- The check of a record but for its COMMIT: 1, or the result code (R493, R498). -/
def recordCode (s : State) (r : Bytes) : Nat :=
  let lenw := byteAt r 5
  if slice r 0 4 ≠ [0x4B, 0x42, 0x4C, 0x42] ∨ byteAt r 4 = 0 ∨ 4 < byteAt r 4 ∨ !([0, 4, 6, 8].contains lenw) ∨
    leAt r 8 4 = 0 ∨ leAt r 8 4 = 0xFFFFFFFF then 4
  else if lenw = 0 then (if leAt r 12 4 = 0 then 1 else 6)
  else match unwrapRecord s r with
    | none => 5
    | some x =>
      if x.take 8 ≠ slice r 4 8 ∨ x.length ≠ 8 * lenw + 8 then 5
      else if slice (Config.hmac256 (x.drop 8) (ascii "tirlos kcv")) 0 4 ≠ slice r 12 4 then 6 else 1

/-- A complete record (R493). -/
def recordComplete (s : State) (r : Bytes) : Bool := leAt r 124 4 = 0x5A5AA5A5 && recordCode s r = 1

/-- The current record of a KEYID: the complete one with the highest GEN. -/
def currentRecord (s : State) (k : Nat) : Option Bytes :=
  (List.range 512).foldl (fun best i =>
    let r := blobRecord s i
    if byteAt r 4 ≠ k ∨ !recordComplete s r then best
    else match best with | some b => if leAt b 8 4 < leAt r 8 4 then some r else best | none => some r) none

/-- The current record holds a key, not a tombstone. -/
def keyRecord (s : State) (k : Nat) : Option Bytes := (currentRecord s k).filter fun r => byteAt r 5 ≠ 0

/-- A record's place is erased. -/
def blankRecord (s : State) (i : Nat) : Bool := (blobRecord s i).all (· = 0xFF)

/-- The firmware scans the region (R493): which KEYIDs have a key, and the record written next, the first erased one after one that
is not (DESIGN CHOICE, log entry 12). -/
def scanBlobs (s : State) : State :=
  let t := s.wr KEY_BLOB_PRESENT (((List.range 4).map fun k => b2n (keyRecord s (k + 1)).isSome * 2 ^ k).sum)
  let at' := ((List.range 512).find? fun i => blankRecord s i && !blankRecord s ((i + 511) % 512)).getD 0
  t.wrs [(KEY_BLOB_PAGE, at' / 32), (KEY_BLOB_NEXT, at' % 32)]

/-- Program one record at the write position, and advance. -/
def putRecord (r : Bytes) (s : State) : State :=
  let i := 32 * s.rd KEY_BLOB_PAGE + s.rd KEY_BLOB_NEXT
  let t := { s with flash := memWrite 0xFF s.flash (0x3F0000 + 128 * i) r }
  t.wrs [(KEY_BLOB_PAGE, (i + 1) % 512 / 32), (KEY_BLOB_NEXT, (i + 1) % 32)]

/-- STORE programs a record and its COMMIT in ring order; on coming to a new page it rewrites the current records of the page after
it, the oldest, and erases that page, so that the page to be written next is always erased (R494; DESIGN CHOICE, log entry 12). -/
def programRecord (r : Bytes) (s : State) : State :=
  let t := putRecord (r.take 124 ++ leBytes 4 0x5A5AA5A5) s
  if t.rd KEY_BLOB_NEXT ≠ 0 then t
  else
    let old := (t.rd KEY_BLOB_PAGE + 1) % 16
    let inOld (k : Nat) : Option Bytes :=
      match currentRecord t k with
      | none => none
      | some r => if (List.range 32).any fun j => blobRecord t (32 * old + j) = r then some r else none
    let keep := [1, 2, 3, 4].filterMap inOld
    let u := forAll keep putRecord t
    { u with flash := u.flash.filter fun e => e.1 < 0x3F0000 + 4096 * old ∨ 0x3F1000 + 4096 * old ≤ e.1 }

/-! ### Commands (R495 to R500) -/

/-- A command of a path ends (R498, R505): RESULT, SEQ, its data cleared, and the response, which reads 0 on any result but Done. -/
def endCommand (i result : Nat) (resp : Bytes) (s : State) : State :=
  let t := (s.wrs [(KEY_STAT_RESULT i, result), (KEY_STAT_BUSY i, 0), (KEY_CMD_GO i, 0)]).incMod (KEY_STAT_SEQ i)
  let t := forAll (List.range 32) (fun j u => u.wr (KEY_DATA_DATA i j) 0) t
  let t := forAll (List.range 8) (fun j u => u.wr (KEY_RESP_RESP i j) (if result = 1 then leAt resp (4 * j) 4 else 0)) t
  raise 21 0 t

/-- The first `n` bytes of a path's KEY_DATA. -/
def keyData (s : State) (i n : Nat) : Bytes :=
  (((List.range 32).flatMap fun j => leBytes 4 (s.rd (KEY_DATA_DATA i j)))).take n

/-- Load the current key record of a KEYID into its slot (R495): the result and the state. The atomic policy goes by way of KS31,
which it clears. -/
def loadKey (k : Nat) (s : State) : Nat × State :=
  match keyRecord s k with
  | none => (7, s)
  | some r =>
    match unwrapRecord s r with
    | none => (5, if bit (s.rd FUSE_KEYPOL_V) 0 then clearSlot (1 + k) s else s)
    | some x =>
      let t := setSlot (1 + k) 2 k (8 * byteAt r 5) (leAt r 8 2) (x.drop 8) s
      (1, if bit (s.rd FUSE_KEYPOL_V) 0 then t else clearSlot 31 t)

/-- The message of ATTEST (R500). -/
def attestMessage (s : State) (challenge : Bytes) (bind : Nat) : Bytes :=
  let digest := match s.ld.image with | some im => im.digest.take 48 | none => List.replicate 48 0
  ascii "TIRLOS-ATTEST-1" ++ challenge ++ digest ++ uidBytes s ++ [BitVec.ofNat 8 (s.rd CFG_STATUS_SVN), BitVec.ofNat 8 bind] ++
    (if bind = 0 then List.replicate 48 0 else thBytes s (bind - 16))

/-- ATTEST (R499, R500): the result, the response and the state. -/
def attest (i : Nat) (s : State) : Nat × Bytes × State :=
  let n := s.rd (KEY_CMD_SLOT i)
  let bind := s.rd (KEY_CMD_ARG i)
  if n < 2 ∨ 5 < n ∨ !(bind = 0 ∨ (16 ≤ bind ∧ bind < 24)) then (3, [], s)
  else if !s.on CFG_STATUS_LOADED ∨ (bind ≠ 0 ∧ !canActive s (bind - 16)) then (9, [], s)
  else
    let (res, t) := if s.rd (KEY_SLOT_STATE n) = 2 then (1, s) else loadKey (n - 1) s
    if res ≠ 1 then (if res = 7 then 8 else res, [], t)
    else (1, Config.hmac256 (slotKey t n) (attestMessage t (keyData t i 32) bind), t)

/-- Ports whose Canopy link is active go down; a handshake under way, whose keys are gone, starts again (R502). -/
def dropLinks (s : State) : State :=
  forAll (List.range 8) (fun p t =>
    if canActive t p then portDownAttached p 1 t else if bringingUp t p ∧ (t.can p).priv ≠ [] then retrainPort p t else t) s

/-- The hub holds as under R51: no grove is configured and the firmware runs on. -/
def imageHold (s : State) : State :=
  let t := s.wrs [(CFG_STATUS_HOLD, 1), (SYS_STAGE_HOLD, 1)]
  { t with ld := { t.ld with doing := .idle } }

/-- The image key leaves KS1 (R489). -/
def dropKey (s : State) : State := if s.rd (KEY_SLOT_STATE 1) = 0 then s else clearSlot 1 s

/-- A slice reload before its commit aborts with a cause (R59, R61); the lock ends. -/
def abortReload (cause : Nat) (s : State) : State :=
  match s.ld.reload with
  | none => s
  | some r =>
    if r.committed then s
    else
      let t := s.wrs [(CFG_RLDST_BUSY, 0), (CFG_RLDST_ABORT, 1), (CFG_RLDST_CAUSE, cause)]
      dropKey { t with ld := { t.ld with reload := none, lock := none } }

/-- A CHECK that runs ends without results. -/
def stopCheck (s : State) : State := { (s.wr CFG_CTL_CHECK 0) with ld := { s.ld with check := none } }

/-- What an alarm or a zeroise does to a load in progress (R61): a load stops and the hub holds; a reload before its commit aborts. -/
def keysLost (s : State) : State :=
  let t := match s.ld.doing with
    | .streaming _ _ _ => imageHold s
    | .configuring => imageHold { s with ld := { s.ld with image := none } }
    | .idle => s
  let t := if t.ld.check.isSome then stopCheck t else t
  abortReload 9 (dropKey t)

/-- Replace the vault's own state. -/
def State.setKv (s : State) (x : Vault) : State := { s with kv := x }

/-- A command in progress, which can only be a STORE, ends with a result and returns nothing (R502, R504, R19). -/
def abortStore (result : Nat) (s : State) : State :=
  match s.kv.storing with
  | none => s
  | some (p, _) => let t := endCommand p.idx result [] (clearSlot 31 s); t.setKv { t.kv with storing := none }

/-- A zeroise (R502). -/
def zeroise (s : State) : State :=
  let t := raise 21 3 ((forAll (List.range 32) clearSlot (abortStore 10 s)).wr RST_CAUSE_ZERO 1)
  keysLost (dropLinks (t.setKv { t.kv with zeroised := true }))

/-- Run the command that a path's KEY_CMD holds (R497); only a STORE whose record passes does not end at once. -/
def runCommand (p : Path) (s : State) : State :=
  let i := p.idx
  let op := s.rd (KEY_CMD_OP i)
  let n := s.rd (KEY_CMD_SLOT i)
  let arg := s.rd (KEY_CMD_ARG i)
  let held := s.on KEY_VAULT_FROZEN || s.on KEY_VAULT_HALT
  let noKek := !s.on KEY_VAULT_KEKV || s.on KEY_VAULT_STHOLD
  if held then endCommand i 11 [] s
  else match op with
  | 1 =>
    if arg = 0 ∨ 4 < arg then endCommand i 3 [] s
    else if noKek then endCommand i 11 [] s
    else let (r, t) := loadKey arg s; endCommand i r [] t
  | 2 =>
    if !bit (s.rd FUSE_KEYPOL_V) 0 ∨ p ≠ .p43 then endCommand i 2 [] s
    else if n < 2 ∨ 5 < n ∨ !([32, 48, 64].contains arg) then endCommand i 3 [] s
    else endCommand i 1 [] (setSlot n 2 0 arg 0 (keyData s i arg) s)
  | 3 =>
    let r := keyData s i 128
    let gen := match currentRecord s (byteAt r 4) with | some b => leAt b 8 4 | none => 0
    if noKek then endCommand i 11 [] s
    else if recordCode s r ≠ 1 then endCommand i (recordCode s r) [] s
    else if leAt r 8 4 ≤ gen then endCommand i 7 [] s
    else let t := clearSlot 31 s; { t with kv := { t.kv with storing := some (p, r) } }
  | 4 =>
    if n < 2 ∨ 5 < n then endCommand i 3 [] s
    else let t := clearSlot n s; endCommand i 1 [] (t.wr KEY_ZTAG_TAG (slotTag n []))
  | 5 => if noKek then endCommand i 11 [] s else let (r, x, t) := attest i s; endCommand i r x t
  | _ => endCommand i 1 [] (zeroise s)

/-- Run waiting commands in order of arrival until one has to wait: behind a STORE (R496), or while the vault holds new work off (R433). -/
def drainKeys : List Path → State → State
  | [], s => s
  | p :: rest, s =>
    if s.kv.storing.isSome || holdsOff s 16 then { s with kv := { s.kv with waiting := p :: rest } }
    else drainKeys rest (runCommand p s)

/-- Commands that waited run once the vault is free. -/
def nextKeys (s : State) : State := drainKeys s.kv.waiting { s with kv := { s.kv with waiting := [] } }

/-- A write to KEY_CMD of a path (R497, R505): SLOT, ARG and OP, whose other codes are reserved; then GO. While the path's own
command waits or runs the write is ignored (DESIGN CHOICE, log entry 13). -/
def wrKeyCmd (p : Path) (v : Nat) (s : State) : State :=
  let i := p.idx
  let op := bits v 27 24
  if s.on (KEY_STAT_BUSY i) then s
  else
    let a := 0x60000
    let t := wrField a (KEY_CMD_ARG i) (bits v 15 8) (wrField a (KEY_CMD_SLOT i) (bits v 20 16) s)
    if op = 0 ∨ 6 < op then cfgErr a t
    else
      let t := wrField a (KEY_CMD_OP i) op t
      if !bit v 31 ∨ t.rd (KEY_CMD_OP i) = 0 then t
      else
        let t := t.wrs [(KEY_CMD_GO i, 1), (KEY_STAT_BUSY i, 1)]
        drainKeys (t.kv.waiting ++ [p]) { t with kv := { t.kv with waiting := [] } }

/-- STORE_COMPLETE (R494, R497): the programming of the record and its COMMIT ends. -/
def execStoreComplete (ok : Bool) (s : State) : Host.Outcome State Fault Refusal :=
  match s.kv.storing with
  | none => .next s
  | some (p, r) =>
    let t := { s with kv := { s.kv with storing := none } }
    if ok then .next (nextKeys (endCommand p.idx 1 [] (scanBlobs ((programRecord r t).wr KEY_BLOB_ERR 0))))
    else
      let t := if t.on KEY_BLOB_ERR then t else raise 21 5 (t.wr KEY_BLOB_ERR 1)
      .next (nextKeys (endCommand p.idx 12 [] t))

/-! ### Tamper (R503, R504) -/

/-- The effective tamper policy (R412, R413). -/
def tamperPolicy (s : State) : Nat := if fuseFault s then 0 else min 2 (bits (s.rd FUSE_TAMPOL_V) 1 0)

/-- The hub comes to hold as under R51: every port goes down and no grove is configured (R504). -/
def holdHub (s : State) : State :=
  let t := imageHold (cancelSolve (s.wrs [(CFG_STATUS_LOADED, 0), (SYS_SETTLE_RUN, 0), (SYS_SETTLE_PEND, 0)]))
  forAll (List.range 20) (fun p u => if portUp u p ∨ (p < 8 ∧ bringingUp u p) then portDown p 1 u else u) t

/-- The response to an alarm whose scope includes STHOLD, zeroise and HALT as told (R504). -/
def tamperResponse (sthold : Bool) (s : State) : State :=
  let pol := tamperPolicy s
  let t := if sthold then s.wr KEY_VAULT_STHOLD 1 else s
  let t := if sthold ∧ t.on CFG_STATUS_LOADED then holdHub t else t
  let t := if 1 ≤ pol then zeroise t else t
  if 2 ≤ pol then holdHub (t.wr KEY_VAULT_HALT 1) else t

/-- A wake source is of edge type: a P43 address match, and a button to which PINS gives the edge function (R436, R438). -/
def edgeWake (s : State) (src : Nat) : Bool :=
  src = 6 || ((src = 4 || src = 5) && evtFn s (src - 4) = 0x31)

/-- A wake source acts (R435, R436): in Rest or Dormant the return begins; in Drowse or Doze the hub goes back to Active; while a request
is being asked, it is refused with 0x9; between ENTRY_COMMIT and AON_ARMED only a level is kept. The regulator step of a
return from Dormant drives CORE_EN high (R437). -/
def wakeUp (src : Nat) (s : State) : State :=
  let st := s.rd PST_PSSTAT_STATE
  if 3 ≤ st then
    let t := s.wr PST_WAKEST_SRC (s.rd PST_WAKEST_SRC ||| 2 ^ src)
    if t.rd PST_PSSTAT_PHASE = 3 then t
    else
      let t := showIndicator ((t.wrs [(PST_PSSTAT_PHASE, 3), (PST_PSSTAT_FROM, st)]).setPs { t.ps with step := 1, wakeAt := t.clock })
      if st = 4 then ({ t with bt := { t.bt with coreEn := true } }).emit (.pin "CORE_EN" 0 true) else t
  else if s.rd PST_PSSTAT_PHASE = 1 then nextKeys (psRefuse 18 9 s)
  else if s.rd PST_PSSTAT_PHASE = 2 then (if edgeWake s src then s else s.setPs { s.ps with level := s.ps.level ||| 2 ^ src })
  else toActive s

/-- The alarm is latched in AON (R503), and a running STORE aborts (R504). -/
def latchAlarm (src : Nat) (s : State) : State :=
  let t := (s.wrs [(KEY_TAMP_ALARM, 1), (KEY_TAMP_SRC, s.rd KEY_TAMP_SRC ||| 2 ^ src)]).inc KEY_TAMP_COUNT
  let t := if s.on KEY_TAMP_ALARM then t else raise 21 2 t
  if t.kv.storing.isSome then abortStore 10 (t.inc KEY_TAMP_ABORTS) else t

/-- The response of the moment (R504, R61). -/
def answerAlarm (s : State) : State :=
  let st := s.rd PST_PSSTAT_STATE
  if 3 ≤ st then wakeUp 7 (tamperResponse false s)
  else if s.bt.released < 2 then s.setKv { s.kv with alarmDue := true }
  else
    let u := if s.rd SYS_STAGE_STAGE < 2 then tamperResponse true (keysLost s) else tamperResponse false (abortReload 9 s)
    if st = 0 ∧ u.rd PST_PSSTAT_PHASE = 0 then u else wakeUp 7 u

/-- TAMPER_ALARM (R503, R504). -/
def execTamperAlarm (src : Fin 4) (s : State) : Host.Outcome State Fault Refusal := .next (nextKeys (answerAlarm (latchAlarm src.val s)))

/-- The release of KEY (R491, R504): the KEK is derived, then an alarm of Seedling takes effect. -/
def releaseKey (s : State) : State :=
  let t := deriveKek s
  if t.kv.alarmDue then tamperResponse true { t with kv := { t.kv with alarmDue := false } } else t

end Sys2Proof.Machine
end

