-- ==== Sys2Proof/Machine/Reset.lean ====
section
/-! DEFINITION. Start and reset (R403 to R427), the core supply (R515), and the start of the firmware (R406, R451). -/

namespace Sys2Proof.Machine

/-! ### What a reset restores (R10, R417) -/

/-- A reset of a reach (1 warm, 2 cold, 3 power-on) restores values of a mark. -/
def restores (reach : Nat) : Reach → Bool
  | .P => 1 ≤ reach
  | .G => 1 ≤ reach
  | .W => 1 ≤ reach
  | .C => 2 ≤ reach
  | .POR => 3 ≤ reach
  | .none => false

/-- A listed register value outlasts the reset. -/
def outlasts (reach k : Nat) : Bool :=
  match decodeKey k with
  | some (_, _, _, f) => !restores reach f.reach
  | none => true

/-- Restore every field in reach to its reset value. -/
def resetRegs (reach : Nat) (s : State) : State := { s with regs := s.regs.filter fun e => outlasts reach e.1 }

/-- The fabric, the schedules, the credits and the time bases return to their start. -/
def resetFabric (s : State) : State := { s with fb := {}, sc := {}, cr := [], tb := [], incs := [] }

/-- The management engine, the loader and the solver: the image goes with them (R53). The I2C read address starts at 0 (DESIGN CHOICE, log entry
121). -/
def resetManagement (s : State) : State :=
  { s with mg := { flashSize := s.mg.flashSize }, ld := { porApplied := s.ld.porApplied }, sv := {}, ck := [], ckp := [] }

/-- Ports: a cell in FAULT stays in FAULT until a cold reset (R395); what the attach found and the mode entered stay (R417); a
TL9648 keeps its EVT pins through a warm reset (R422). -/
def resetPorts (cold : Bool) (s : State) : State :=
  let keep (x : Lane) : Lane := if x.faulted && !cold then { faulted := true } else {}
  let cells := (mmap (fun _ x => keep x) s.lc).filter fun e => e.2 ≠ {}
  let can (x : Can) : Can := { entered := x.entered, failed := x.failed, withdrawn := x.withdrawn, supports := x.supports, flip := x.flip }
  let cans := (mmap (fun _ x => can x) s.cn).filter fun e => e.2 ≠ {}
  { s with lc := cells, cn := cans, ad := [], ev := if variant s = 1 && !cold then s.ev else [], ut := {} }

/-- Pipes: a warm reset keeps what H is written under; a cold one loses the frame stores (R417). -/
def resetPipes (cold : Bool) (s : State) : State :=
  let keep (x : PipeSt) : PipeSt := { hAttrs := x.hAttrs }
  { s with pp := if cold then [] else (mmap (fun _ x => keep x) s.pp).filter fun e => e.2 ≠ {}, dram := if cold then [] else s.dram }

/-- The vault's slots are cleared (R489); the steward's leases go, and admission is stopped until MEM is released (R418). -/
def resetVault (s : State) : State :=
  { s with kv := { zeroised := s.kv.zeroised, alarmDue := s.kv.alarmDue }, ps := {}, ft := { pll := s.ft.pll, refFailed := s.ft.refFailed }
           pw := { s.pw with leased := false, stopped := true } }

/-- The 17 balls take the states of the fuse pin reset map (R415). -/
def mapPins (s : State) : State :=
  forAll (List.range 17) (fun b t => t.setPin b (s.rd (FUSE_PINMAP_V (b / 16)) / 4 ^ (b % 16) % 4)) s

/-- The balls under a reset (R2, R422): a TL9648 holds them through a warm reset. -/
def resetPins (cold : Bool) (s : State) : State := if variant s = 1 ∧ !cold then s else mapPins s

/-- The cells in FAULT show it again. -/
def showFaults (s : State) : State := forAll (List.range 32) (fun c t => if (t.lane c).faulted then t.wr (LC_STAT_STATE c) 9 else t) s

/-- Groves that are fenced run their self-test at this reset (R394). -/
def fencedGroves (s : State) : List Nat := (List.range 9).filter fun g => bit (s.rd RST_FLTSTAT_FENCED) g

/-- A reset in Dormant, or in a return from it, starts the core supply afresh (R417). -/
def coreBack (s : State) : State :=
  if s.rd PST_PSSTAT_STATE = 4 then { s with bt := { s.bt with coreEn := true, corePg := false, refLock := false } } else s

/-- The boot state as a reset of warm or cold reach holds the domains: all but AON. -/
def holdDomains (reach : Nat) (s : State) : State :=
  let s := coreBack s
  { s with bt := { s.bt with reach := max reach s.bt.reach, released := min 1 s.bt.released, trained := s.bt.trained && reach < 2
                             retest := (s.bt.retest ++ fencedGroves s).dedup, later := [], pinFns := [] } }

/-- A clock that failed is served by its own source again after a cold reset. -/
def resetClocks (s : State) : State := { s with ft := {} }

/-- A reset of warm (1) or cold (2) reach is taken (R417, R418): every domain in reach is held and restored. The hardware policy
takes over PD again (R451), a takeover is abandoned, and a management engine that had stopped restarts on cores that the spec
does not name (R398). -/
def takeReset (reach : Nat) (s : State) : State :=
  let cold := 2 ≤ reach
  let t := (resetPipes cold (resetPorts cold (resetManagement (resetFabric (resetVault (holdDomains reach s)))))).emit (.pin "UH0 pull-up" 0 false)
  let t := if cold then resetClocks t else t
  let t := resetPins cold (showFaults ((resetRegs reach t).wrs [(PD_GLOB_FWPOL, 0), (RST_FLTSTAT_SEQ, 0)]))
  if t.rd RST_FLTSTAT_MGT = 3 then (let (x, t) := t.free; t.wr RST_FLTSTAT_MGT (x % 3)) else t

/-- The cause bits of RST_CAUSE by number (R424). -/
def causeFld (k : Nat) : Fld :=
  match k with
  | 0 => RST_CAUSE_POR | 1 => RST_CAUSE_BOR | 2 => RST_CAUSE_RESETN | 3 => RST_CAUSE_SWCOLD | 4 => RST_CAUSE_THERM | 5 => RST_CAUSE_SEQCOLD
  | 6 => RST_CAUSE_WARMN | 7 => RST_CAUSE_SWWARM | 8 => RST_CAUSE_HOST | 9 => RST_CAUSE_SEQWARM | 10 => RST_CAUSE_LOCKSTEP
  | 11 => RST_CAUSE_MWDOG | 12 => RST_CAUSE_PORT | _ => RST_CAUSE_ZERO

/-! ### Release (R419, R420) -/

/-- Milliseconds since RST_BOOT's time began. -/
def sinceStart (s : State) : Nat := (s.clock - s.bt.t0) / 1000000

/-- The work of Sapling is complete (R407, R426). -/
def checkSapling (s : State) : State :=
  if s.on SYS_STAGE_FWRDY && s.bt.trained && (s.on CFG_STATUS_LOADED || s.on CFG_STATUS_HOLD) && !s.on RST_BOOT_SAPDONE then
    s.wrs [(RST_BOOT_SAPDONE, 1), (RST_BOOT_SAPTIME, min 1023 (sinceStart s))]
  else s

/-- What the release of a domain brings, by its number in the order of R419: KEY derives the KEK and starts RST_BOOT's time, the tree
comes up with USB, SYS begins Sapling, MEM leaves self-refresh, and after the last one leaves that are still pending make reports due (R91). -/
def domainEffect (k : Nat) (s : State) : State :=
  match k with
  | 2 => releaseKey (if s.bt.reach = 3 ∨ s.bt.reach = 0 then s else { s with bt := { s.bt with t0 := s.clock } })
  | 3 => updateTree s
  | 4 => s.wr SYS_STAGE_STAGE (max 1 (s.rd SYS_STAGE_STAGE))
  | 6 => { s with pw := { s.pw with stopped := false } }
  | 18 => reportsDue { s with bt := { s.bt with reach := 0 } }
  | _ => s

/-- A domain's release is held up: KEY waits for SHADOW_VALID, REF lock and CORE_PG, SYS for the power gate (R404, R410, R515). -/
def domainWaits (k : Nat) (s : State) : Bool :=
  match k with
  | 2 => !s.on FUSE_LDST_SHADOW_VALID || !s.bt.refLock || !s.bt.corePg
  | 4 => !s.bt.gate || fuseFault s
  | _ => false

/-- Release the next domain in the order, if nothing holds it up; in Rest and Dormant only the last step of a return does (R437). -/
def releaseNext (s : State) : State :=
  let k := s.bt.released + 1
  let away := 3 ≤ s.rd PST_PSSTAT_STATE && s.ps.step < 4
  if away ∨ !s.bt.srcs.isEmpty ∨ s.bt.released = 0 ∨ 18 < k then s
  else if domainWaits k s then
    (if k = 4 ∧ !s.on RST_BOOT_WAITPWR then raise 24 3 (s.wr RST_BOOT_WAITPWR 1) else s)
  else domainEffect k { s with bt := { s.bt with released := k } }

/-- A new fuse load begins: SHADOW_VALID is cleared (R410). A hub that has failed three times stays as it is until a POR (R412). -/
def startFuses (s : State) : State :=
  if fuseFault s then s
  else
    let t := s.wr FUSE_LDST_SHADOW_VALID 0
    let t := if s.bt.fusing then t.inc FUSE_LDST_RESTARTS else t.wr FUSE_LDST_ATTEMPT 0
    { t with bt := { t.bt with fusing := true } }

/-- The last source has released (R420): release begins. A warm reach releases KEY at once; a cold one loads the fuses first. -/
def beginRelease (s : State) : State :=
  if !s.bt.srcs.isEmpty ∨ s.bt.reach = 0 then s
  else
    let t := raise 24 0 s
    if 2 ≤ s.bt.reach then startFuses t else releaseNext t

/-- A source is taken (R411, R416, R420): its cause bit, then the reset, of the union of the reaches of the sources that are asserted; `alone` says
that no other is. A warm reach alone waits for a fuse load to end. -/
def requestReset (alone : Bool) (reach cause : Nat) (s : State) : State :=
  let t := s.wr (causeFld cause) 1
  if alone ∧ reach < 2 ∧ s.bt.fusing ∧ 1 ≤ s.bt.released then { t with bt := { t.bt with later := t.bt.later ++ [cause] } }
  else takeReset reach (if alone then { t with bt := { t.bt with reach := 0 } } else t)

/-- A pulse source (R416): taken, and released at once unless another source is asserted. -/
def pulseReset (reach cause : Nat) (s : State) : State :=
  let t := requestReset s.bt.srcs.isEmpty reach cause s
  if t.bt.later.isEmpty then beginRelease t else t

/-- A source that stays asserted until RESET_RELEASE. -/
def assertReset (src : ResetSrc) (reach cause : Nat) (s : State) : State :=
  requestReset (s.bt.srcs.all (· = src)) reach cause (if s.bt.srcs.contains src then s else { s with bt := { s.bt with srcs := s.bt.srcs ++ [src] } })

/-- What a power-on reset leaves of the state: the outside world, the flash and the fuses. -/
def powerOnReset (s : State) : State :=
  let r : State := State.reset
  { r with pending := s.pending, clock := s.clock, freeCtr := s.freeCtr, sent := s.sent, flash := s.flash, otp := s.otp
           pw := { present := s.pw.present, outside := s.pw.outside }
           bt := { srcs := if s.bt.srcs.contains .por then s.bt.srcs else s.bt.srcs ++ [.por], reach := 3, released := 0, fusing := false, coreEn := false, asel := s.bt.asel } }

/-! ### Power paths at a reset -/

/-- The combiner closes a supply by its code, onto a charged rail or slowly (R465, R471). -/
def closeSupply (a : Nat) (fast : Bool) (s : State) : State :=
  match a with
  | 1 => closeChannel 0 fast false (s.wr PP_FEED_ACTIVE 1)
  | 2 => closeChannel 1 fast false (s.wr PP_FEED_ACTIVE 2)
  | 3 => match crownSink s with | some p => closeChannel (p + 2) fast true (s.wr PP_FEED_ACTIVE 3) | none => s
  | _ => s

/-- The thermal trip opens every path, clears latches and attempt counts, and discards every contract: each port attaches afresh
(R416, R417). -/
def openAllPaths (s : State) : State :=
  let t := forAll (List.range 8) (fun p u => if asSource u p || asSink u p then detachCore p u else u) s
  let t := forAll (List.range 10) (fun n u => clearLatch n (openChannel n u)) t
  let t := t.wr PP_FEED_ACTIVE 0
  { t with pw := { t.pw with dead := none } }

/-! ### The sources (R416) -/

/-- POR. -/
def execPor (s : State) : Host.Outcome State Fault Refusal := .next (powerOnReset s)

/-- BROWN_OUT: VDD_CORE below 0.60 V for 2 microseconds; while CORE_EN is low there is no core supply to fall. -/
def execBrownOut (s : State) : Host.Outcome State Fault Refusal := .next (if s.bt.coreEn then assertReset .brownOut 2 1 s else s)

/-- RESET_N. -/
def execResetN (s : State) : Host.Outcome State Fault Refusal := .next (assertReset .resetN 2 2 s)

/-- WARM_N. -/
def execWarmN (s : State) : Host.Outcome State Fault Refusal := .next (assertReset .warmN 1 6 s)

/-- THERMAL_TRIP. -/
def execThermalTrip (s : State) : Host.Outcome State Fault Refusal := .next (assertReset .thermal 2 4 (openAllPaths s))

/-- ROUTER_RESET: a USB4 router reset of the upstream adapter. -/
def execRouterReset (s : State) : Host.Outcome State Fault Refusal :=
  .next (if [0, 1].any (fun c => !isDown s c && s.rd (CAN_STAT_STATE c) = 5) then pulseReset 1 8 s else s)

/-- A write to RST_CTL (R423, R425): PORT, then COLD and WARM under KEY 0xA5, then PRST. -/
def wrRstCtl (p : Path) (v : Nat) (s : State) : State :=
  let t := wrField 0x10004 RST_CTL_PORT (bits v 12 8) s
  let port := t.rd RST_CTL_PORT
  let t := if bit v 3 ∧ configured t port then portDownAttached port 1 t else t
  if !bit v 1 ∧ !bit v 2 then t
  else if bits v 31 24 ≠ 0xA5 then raise 24 1 t
  else if bit v 2 then pulseReset 2 3 t
  else pulseReset 1 (if p = .p43 then 7 else 8) t

/-- RESET_RELEASE (R419, R420, R452): the source releases; release begins with the last one. At the release of POR, AON is released
and the fuse load starts; DBBOOT is set when no feed is qualified, and DBPORT names a crown port by a VBUS that is not modelled. -/
def execResetRelease (src : ResetSrc) (s : State) : Host.Outcome State Fault Refusal :=
  if !s.bt.srcs.contains src then .next s
  else
    let t := { s with bt := { s.bt with srcs := s.bt.srcs.filter (· ≠ src) } }
    let t := if src = .thermal then (match (supplies t).head? with | some a => closeSupply a false t | none => t) else t
    if src = .por then
      let (x, t) := t.free
      let t := if anyFeed t then (match (supplies t).head? with | some f => closeSupply f false t | none => t) else t.wrs [(PD_GLOB_DBBOOT, 1), (PD_GLOB_DBPORT, x % 2)]
      .next { t with bt := { t.bt with released := 1, fusing := true, coreEn := true, t0 := t.clock } }
    else if s.bt.released = 0 ∨ !s.bt.later.isEmpty then .next t
    else .next (beginRelease t)

/-- DOMAIN_RELEASE (R419). -/
def execDomainRelease (s : State) : Host.Outcome State Fault Refusal := .next (releaseNext s)

/-- REF_LOCK (R419). -/
def execRefLock (s : State) : Host.Outcome State Fault Refusal := .next { s with bt := { s.bt with refLock := true } }

/-- POWER_GATE_OPEN (R404): the steward hardware finds a supply of at least 2.5 W. -/
def execPowerGateOpen (s : State) : Host.Outcome State Fault Refusal :=
  .next (if anyFeed s ∨ (crownSink s).any (fun p => 2500 ≤ 5 * rpMilliamps (s.rd (PD_STAT_RPLVL p)) || 2500 ≤ contractMw s p) then
    (let t := s.wr RST_BOOT_WAITPWR 0; { t with bt := { t.bt with gate := true } }) else s)

/-! ### The core supply (R515, R524) -/

/-- In Dormant, before the return has driven CORE_EN high, the hub ignores CORE_PG. -/
def coreOff (s : State) : Bool := s.rd PST_PSSTAT_STATE = 4 && s.rd PST_PSSTAT_PHASE ≠ 3

/-- CORE_PG: its rise lets the release order pass AON; its fall while CORE_EN is high is a core brown-out. -/
def execCorePg (high : Bool) (s : State) : Host.Outcome State Fault Refusal :=
  if !s.bt.coreEn ∨ coreOff s then .next s
  else
    let t := { s with bt := { s.bt with corePg := high } }
    .next (if !high ∧ s.bt.corePg then assertReset .brownOut 2 1 t else t)

/-- CORE_PG_TIMEOUT: 10 ms after CORE_EN without CORE_PG the hub drops CORE_EN for 100 ms. -/
def execCorePgTimeout (s : State) : Host.Outcome State Fault Refusal :=
  .next (if s.bt.coreEn ∧ !s.bt.corePg then ({ s with bt := { s.bt with coreEn := false } }).emit (.pin "CORE_EN" 0 false) else s)

/-- CORE_EN_RETRY: the 100 ms have passed. -/
def execCoreEnRetry (s : State) : Host.Outcome State Fault Refusal :=
  .next (if !s.bt.coreEn ∧ !coreOff s ∧ 1 ≤ s.bt.released then ({ s with bt := { s.bt with coreEn := true } }).emit (.pin "CORE_EN" 0 true) else s)

/-! ### Fuses (R410 to R413) -/

/-- The array as an attempt reads it: word offset to value. -/
def fuseWord (s : State) (errs : List FuseErr) (off : Nat) : Nat :=
  match errs.find? fun e => e.word = off with
  | some e => e.value.toNat
  | none => mget 0 s.otp off

/-- The shadow registers with the word each holds. -/
def shadowFields : List (Fld × Nat) :=
  [(FUSE_VAR_V, 0x10), (FUSE_UID_V 0, 0x14), (FUSE_UID_V 1, 0x18), (FUSE_RKREV_V, 0x100), (FUSE_ARB_V, 0x104), (FUSE_RLD_V, 0x108),
   (FUSE_DBG_V, 0x10C), (FUSE_KEYPOL_V, 0x110), (FUSE_TAMPOL_V, 0x114), (FUSE_PINMAP_V 0, 0x120), (FUSE_PINMAP_V 1, 0x124), (FUSE_CRC_V, 0x200)] ++
  ((List.range 4).flatMap fun k => (List.range 12).map fun n => (FUSE_RKH_V k n, 0x40 + 0x30 * k + 4 * n)) ++
  ((List.range 8).map fun n => (FUSE_PDO_V n, 0x140 + 4 * n)) ++ ((List.range 32).map fun n => (FUSE_TRIM_V n, 0x180 + 4 * n))

/-- The CRC-32 of words 0x010 to 0x1FC (R410). -/
def fuseCrc (s : State) (errs : List FuseErr) : Nat := crc32 ((List.range 124).flatMap fun k => leBytes 4 (fuseWord s errs (0x10 + 4 * k)))

/-- A load ends: warm resets that waited for it are taken (R411). -/
def fusesDone (s : State) : State :=
  let t := { s with bt := { s.bt with fusing := false, later := [] } }
  if s.bt.later.isEmpty then t else beginRelease (takeReset 1 { t with bt := { t.bt with reach := 0 } })

/-- FUSE_LOAD_ATTEMPT (R410, R412): an attempt with the read errors it meets. With SHADOW_VALID the pin reset map takes effect (R422). -/
def execFuseLoadAttempt (errs : List FuseErr) (s : State) : Host.Outcome State Fault Refusal :=
  if !s.bt.fusing ∨ s.bt.released = 0 ∨ !s.bt.srcs.all (· == .warmN) then .next s
  else
    let c := fuseCrc s errs
    let t := s.wr FUSE_LDST_CRCLO c
    if c = fuseWord s errs 0x200 then
      let t := t.wrs (shadowFields.map fun e => (e.1, fuseWord s errs e.2))
      let t := mapPins (t.wr FUSE_LDST_SHADOW_VALID 1)
      .next (fusesDone (t.wrs [(PD_GLOB_FPDOV, b2n (fuseListValid t)), (PD_GLOB_FPDOC, (fuseList t).length)]))
    else
      let t := raise 23 0 (t.wr FUSE_LDST_ATTEMPT (s.rd FUSE_LDST_ATTEMPT + 1))
      if t.rd FUSE_LDST_ATTEMPT < 3 then .next t
      else .next (fusesDone (raise 23 1 (t.wrs [(SYS_STAGE_FUSEFLT, 1), (FUSE_LDST_FAULT, 1), (PD_GLOB_FPDOV, 0), (PD_GLOB_FPDOC, 0)])))

/-! ### Power-state requests (R432, R433) -/

/-- The participants that exist and can answer. -/
def participants (s : State) : List Nat :=
  (List.range 19).filter fun w =>
    if w < 9 then grovePresent (variant s) w && !bit (s.rd RST_FLTSTAT_FENCED) w else if w < 13 then w - 9 < pipeCount (variant s) else true

/-- Ask every participant for a target. -/
def psAsk (target : Nat) (s : State) : State :=
  showIndicator ((s.wrs [(PST_PSSTAT_PHASE, 1), (PST_PSSTAT_DEFERS, 0)]).setPs
    { downed := s.ps.downed, gated := s.ps.gated, dozeAt := s.ps.dozeAt, target := target, waiting := participants s })

/-- The entries of R432. -/
def entryAllowed (st target : Nat) : Bool :=
  match st with
  | 0 => 1 ≤ target && target ≤ 4
  | 1 => target = 0 || (2 ≤ target && target ≤ 4)
  | 2 => target = 0 || target = 3 || target = 4
  | _ => false

/-- The firmware takes up a request for TARGET (R432): Active at once, another state by asking, or a refusal with 0xA. -/
def psRequest (s : State) : State :=
  let target := s.rd PST_PSCTL_TARGET
  if !entryAllowed (s.rd PST_PSSTAT_STATE) target then s.wrs [(PST_PSSTAT_WHO, 18), (PST_PSSTAT_REASON, 0xA), (PST_PSCTL_GO, 0)]
  else if target = 0 then toActive s
  else psAsk target s

/-! ### The firmware (R403, R406, R451) -/

/-- The AVS duty that the steward takes from the die's trims, within 43 to 213 (R516); how a trim gives it the spec does not say. -/
def avsDuty (s : State) : Nat := 43 + Config.avsTrim ((List.range 32).map fun n => s.rd (FUSE_TRIM_V n)) % 171

/-- The AVS duty is set, and the target with it (R516, R525). -/
def setDuty (d : Nat) (s : State) : State := s.wrs [(PST_AVS_DUTY, d), (PST_AVS_TARGET, 600 + 300 * d / 256)]

/-- The firmware is up (R350, R451, R516): FWRDY rises; at its first rise it takes over PD policy; every port whose power is on gets a
lease; the blob region is scanned; AVS takes its duty from a trim whose meaning the spec does not give; a power-state request that
waits is taken up. -/
def firmwareUp (s : State) : State :=
  let first := !s.on PD_GLOB_FWPOL
  let t := tunsDue (raise 25 5 (s.wrs [(SYS_STAGE_FWRDY, 1), (PD_GLOB_FWPOL, 1)]))
  let t := if t.rd PST_AVS_DUTY = 128 then setDuty (avsDuty t) t else t
  let t := if first ∧ !t.on PD_GLOB_DBBOOT then
    t.wr PST_U2LEASE_PORTS (((List.range 20).map fun k => b2n (t.on (USB_PST_PWR (k + 7))) * 2 ^ k).sum) else t
  let t := if t.on KEY_VAULT_KEKV then scanBlobs t else t
  if t.on PST_PSCTL_GO ∧ t.rd PST_PSSTAT_PHASE = 0 ∧ t.rd PST_PSSTAT_STATE < 3 then psRequest t else t

/-- FIRMWARE_BOOT (R406, R528): the boot ROM reads the flash size, verifies the copies in the order of R50 and runs the first that
passes; the version that the firmware reports is not given by the spec. -/
def firmwareBoot (sfdp : Option Nat) (s : State) : State :=
  if s.bt.released < 4 ∨ s.on SYS_STAGE_FWRDY ∨ s.on RST_BOOT_FWFAIL ∨ s.rd RST_FLTSTAT_MGT = 3 then s
  else
    let t := { s with mg := { s.mg with flashSize := sfdp.getD 0x1000000 } }
    let a := firmwarePasses t false
    let b := firmwarePasses t true
    if !a ∧ !b then (raise 24 2 (t.wr RST_BOOT_FWFAIL 1)).emit (.pin "P42" 0 false)
    else
      let runB := b && (!a || preferB t 0x10000 0x200000)
      let (x, t) := t.free
      firmwareUp (t.wrs [(RST_BOOT_FWCOPY, b2n runB), (SYS_FWVER_MAJOR, x), (SYS_FWVER_MINOR, x / 256), (SYS_FWVER_BUILD, x / 65536)])

/-- LPDDR_TRAINING_COMPLETE (R407). -/
def execLpddrTrainingComplete (s : State) : Host.Outcome State Fault Refusal :=
  .next (if 6 ≤ s.bt.released then checkSapling { s with bt := { s.bt with trained := true } } else s)

end Sys2Proof.Machine
end

