-- ==== Sys2Proof/Machine/Fault.lean ====
section
/-! DEFINITION. Faults (R382 to R402): the log, grove takeover, lane-cell degradation, buffer-cell retirement, clocks (R18, R19), the
management engine (R396), checkpoints (R386), and the re-masking of the vault's slots (R490). -/

namespace Sys2Proof.Machine

/-! ### The log (R385, R401) -/

/-- The grove that a report names: a block's, a grove's, an express gap's; GF's self-test names GF. -/
def faultGrove (kind unit : Nat) : Option Nat :=
  if kind = 3 ∨ kind = 4 ∨ kind = 0xA then some unit else if kind = 5 then some 8 else none

/-- A report names a unit that an earlier report named, or one inside it (R385). -/
def sameFault (kind unit kind' unit' : Nat) : Bool :=
  match faultGrove kind' unit' with
  | some g => faultGrove kind unit = some g || (kind = 1 && cellGrove unit = g)
  | none => kind = kind' && unit = unit'

/-- A report names the grove of a lane cell that was reported before (R385: one fault, a grove fault). -/
def widens (kind unit kind' unit' : Nat) : Bool := kind' = 1 && faultGrove kind unit = some (cellGrove unit')

/-- The reports of the last 50 microseconds. -/
def recentReports (s : State) : List (Nat × Nat × Nat × Nat) := s.ft.recent.filter fun e => s.clock ≤ e.1 + 50000

/-- Write what a log entry says of its fault. -/
def writeEntry (k kind unit tun det : Nat) (inj : Bool) (s : State) : State :=
  s.wrs [(RST_FLTLOG0_KIND k, kind), (RST_FLTLOG0_INJ k, b2n inj), (RST_FLTLOG0_UNIT k, unit), (RST_FLTLOG0_TUN k, tun), (RST_FLTLOG0_DET k, det)]

/-- Note a report for R385. -/
def noteReport (kind unit k : Nat) (s : State) : State :=
  { s with ft := { s.ft with recent := recentReports s ++ [(s.clock, kind, unit, k)] } }

/-- Log a fault as a new entry and count it (R28, R30, R401); a second fault, or one outside the fault model, ends SINGLE (R383, R398). -/
def logFault (kind unit tun det : Nat) (inj : Bool) (s : State) : State :=
  let k := s.rd RST_FLTPTR_NEXT
  let t := s.inc SYS_GUARD_FAULTS
  let again := 2 ≤ t.rd SYS_GUARD_FAULTS
  let t := writeEntry k kind unit tun det inj t
  let t := t.wrs [(RST_FLTLOG0_SECOND k, b2n again), (RST_FLTLOG1_TIME k, mget 0 t.tb 0 / 2 ^ 32)]
  let t := raise 25 6 (noteReport kind unit k ((t.inc RST_FLTPTR_COUNT).incMod RST_FLTPTR_NEXT))
  if again ∨ kind = 0xB then raise 25 8 (t.wr SYS_GUARD_SINGLE 0) else t

/-- A report reaches the sequencer: whether it is part of a fault already logged, and the log brought up to date. -/
def takeReport (kind unit tun det : Nat) (inj : Bool) (s : State) : Bool × State :=
  if (recentReports s).any (fun e => sameFault kind unit e.2.1 e.2.2.1) then (true, s)
  else match (recentReports s).find? fun e => widens kind unit e.2.1 e.2.2.1 with
    | some e => (false, noteReport kind unit e.2.2.2 (writeEntry e.2.2.2 kind unit tun det inj s))
    | none => (false, logFault kind unit tun det inj s)

/-! ### Grove takeover (R391 to R393) -/

/-- A partner of the port replays what it sent since the checkpoint, or what was sent is lost (R27): every ingress but one that a hold
buffer covers. -/
def partnerReplays (s : State) (p : Nat) : Bool := !holdsUnits s p

/-- The ingress of a tunnel returns to the restored checkpoint (R387, R393): INSEQ and SEGIN with the tail of its ingress store, WINLO, shaper and
meter, and what a Canopy link has received. The LIMIT that the partner holds stands. -/
def restoreIn (k : InCk) (n : Nat) (s : State) : State :=
  let back (g : Seg) : Bool := (g.seq + 2048 - k.inseq) % 2048 < 1024
  let t := (s.setIngress n ((s.ingressQ n).filter fun g => !back g)).wrs [(TT_SEQ_INSEQ n, k.inseq), (TT_SEGIN_COUNT n, k.segin)]
  t.setCredit n { (t.credit n) with received := k.received }

/-- Shaper credit, meter buckets and WINLO of a tunnel return to the checkpoint; they fill on from now (R202, R387). -/
def restoreShaper (k : InCk) (n : Nat) (s : State) : State :=
  s.setFlow n { (s.flow n) with credit := k.credit, creditAt := s.clock, tc := k.tc, tp := k.tp, meterAt := s.clock, winlo := k.winlo }

/-- The egress of a stream returns to the restored checkpoint (R202, R387): what its transmit queue held comes again from the intermediates. -/
def restoreOut (k : OutCk) (n : Nat) (s : State) : State :=
  let o := outPosOf s n
  let m := entryOf n
  let t := s.setFlow n { (s.flow n) with deficit := k.deficit, lastRet := k.lastRet }
  let t := if 256 ≤ n then t.setFlow n { (t.flow n) with mid := k.next }
    else t.wrs [(TT_SEQ_OUTSEQ n, k.next), (TT_SEGOUT_COUNT n, k.segout)]
  (if o < 19 then t.setCredit m { (t.credit m) with limit := k.limit, sent := k.sent } else t).setTx n []

/-- The receiver goes back before a switch of the partner's epoch: the old key serves again until unit L (R237). -/
def backEpoch (p epoch : Nat) (s : State) : State :=
  let c := s.can p
  match c.oldRx with
  | none => s
  | some (l, k) =>
    if s.rd (CAN_STAT_RXEP p) = epoch then s
    else (s.setCan p { c with secRx := k, updRx := some (l, c.secRx), oldRx := none }).wr (CAN_STAT_RXEP p) epoch

/-- A port's ingress at a takeover: the receiver goes back to the checkpoint and asks its partner for a replay: RNAK, NAK or LBAD (R267,
R316, R323). -/
def replayPort (k : Ckpt) (p : Nat) (s : State) : State :=
  if !partnerReplays s p then s
  else
    let s := forAll (ingressTunnels s p) (fun n t => restoreIn (mget {} k.ins n) n t) s
    if p < 8 ∧ canActive s p then
      let r := mget {} k.ports p
      let t := backEpoch p r.epoch s
      sendRnak p (t.setCan p { (t.can p) with lunRx := r.lun, rxSegs := r.segs, rxRec := r.record, rxRecno := r.recno, discarding := true })
    else if s.rd (ADP_STAT_PERS p) = 1 ∧ portUp s p then s.emit (.unit p "NAK" [])
    else if persUsb (s.rd (ADP_STAT_PERS p)) ∧ portUp s p then s.emit (.unit p "LBAD" [])
    else s

/-- A port's egress at a takeover: pause stands as the checkpoint has it; a packet that the fence cut off is broken off; and the keeper will discard
what its log holds (R266, R387). -/
def replayKeeper (k : Ckpt) (p : Nat) (s : State) : State :=
  let r := mget {} k.ports p
  let t := match (s.eg p).ct with | none => s | some n => (breakOff p n s).setTx n []
  let e := t.eg p
  t.setEg p { e with paused := r.paused, pausing := r.pausing, ctMark := none, redo := e.log.map fun x => (x.1, x.2.1) }

/-- The reorder stores of a grove's positions are abandoned, and every intermediate resends, in the order of arrival, what it retains for them
(R145, R393): it arrives as any other segment does. -/
def replayEgress (g : Nat) (s : State) : State :=
  let s := forAll [2 * g, 2 * g + 1] (fun o t => t.setOutPos o { (t.outPos o) with parked := [] }) s
  let kept := (List.range 20).flatMap fun j => (s.inter j).kept.filter fun e => e.1 / 2 = g
  forAll kept (fun e t => outArrive e.1 e.2 t) s

/-- The switch of a takeover (R391 step 5), at a phase 0: crossbar and remap attach the grove's cells and positions to GF, the fences clear, and replay
begins from the restored checkpoint. Without a checkpoint since the reset, everything is replayed from its start. -/
def remapGrove (g : Nat) (s : State) : State :=
  let f := s.rd FAB_STATUS_FENCE
  let t := s.wrs [(FAB_REMAP_PHYS (2 * g), 16), (FAB_REMAP_PHYS (2 * g + 1), 17), (FAB_REMAP_ATT 16, 0), (FAB_REMAP_ATT 17, 0),
    (FAB_STATUS_FENCE, f - (f &&& (3 * 4 ^ g))), (RST_FLTSTAT_SEQ, 6)]
  let t := raise 13 3 (forAll [4 * g, 4 * g + 1, 4 * g + 2, 4 * g + 3] (fun c u => u.wr (LC_STAT_OWNER c) 8) t)
  let k := mget {} t.ck g
  let t := forAll ((List.range 256).filter fun n => tunActive t n && inPosOf t n / 2 = g) (fun n u => restoreShaper (mget {} k.ins n) n u) t
  let t := forAll (grovePorts g) deliverLate (forAll (grovePorts g) (replayPort k) t)
  let t := forAll (grovePorts g) (replayKeeper k) t
  let t := replayEgress g (forAll (outStreams t g) (fun n u => restoreOut (mget {} k.outs n) n u) t)
  forAll ((grovePorts g).filter fun p => p < 8 && (t.can p).rtrn) (fun p u => retrainCause p (u.setCan p { (u.can p) with rtrn := false })) t

/-- The switch, where a takeover waits for it. -/
def remapDue (s : State) : State := match awaitsRemap s with | none => s | some g => remapGrove g s

/-- GF is to take the place of grove `g` (R391 steps 1 to 4): fenced, leases revoked, GF with the slice, the mirror and the checkpoint. The grove reset
restores its fields of grove reach. -/
def takeover (g : Nat) (s : State) : State :=
  let t := s.wrs [(RST_CAUSE_GRV, s.rd RST_CAUSE_GRV ||| 2 ^ g), (RST_FLTSTAT_FENCED, s.rd RST_FLTSTAT_FENCED ||| 2 ^ g),
    (FAB_STATUS_FENCE, s.rd FAB_STATUS_FENCE ||| (3 * 4 ^ g)), (RST_FLTSTAT_GFFOR, g), (RST_FLTSTAT_SEQ, 4),
    (PST_GRANT_MW 8, s.rd (PST_GRANT_MW g)), (PST_GRANT_MW g, 0)]
  let t := restore [EVSTAT g, EVEN g] t
  let t := match t.ld.reload with | some r => if r.grove = g then abortReload 8 t else t | none => t
  { t with ckp := mdel t.ckp g, ft := { t.ft with start := t.clock } }

/-- A grove for which GF does not stand in is fenced, and its ports go down but for display outputs, which keep scanning (R398). -/
def loseGrove (g : Nat) (s : State) : State :=
  let t := s.wrs [(RST_CAUSE_GRV, s.rd RST_CAUSE_GRV ||| 2 ^ g), (RST_FLTSTAT_FENCED, s.rd RST_FLTSTAT_FENCED ||| 2 ^ g),
    (FAB_STATUS_FENCE, s.rd FAB_STATUS_FENCE ||| (3 * 4 ^ g)), (PST_GRANT_MW g, 0)]
  let t := sumGrants (restore [EVSTAT g, EVEN g] t)
  let t := match t.ld.reload with | some r => if r.grove = g then abortReload 8 t else t | none => t
  forAll (grovePorts g) (fun p u =>
    if isHandoff u p then u else if portUp u p then attachEvent (portDown p 1 u) else if p < 8 ∧ bringingUp u p then portDown p 1 u else u) t

/-- GF fails while it stands in: the grove that it serves is lost (R398). -/
def loseFallow (h : Nat) (s : State) : State :=
  let t := s.wrs [(RST_FLTSTAT_GFOK, 0), (RST_FLTSTAT_GFFOR, 15), (RST_FLTSTAT_SEQ, 0), (PST_GRANT_MW 8, 0), (RST_CAUSE_GRV, s.rd RST_CAUSE_GRV ||| 256)]
  loseGrove h (t.wr RST_FLTSTAT_FENCED (t.rd RST_FLTSTAT_FENCED ||| 256))

/-- A fault of grove `g` or of one of its blocks (R382, R391, R394, R398). A fenced grove is power-gated. -/
def groveFault (g : Nat) (s : State) : State :=
  if g = 8 then (match gfFor s with | some h => loseFallow h s | none => s.wr RST_FLTSTAT_GFOK 0)
  else if bit (s.rd RST_FLTSTAT_FENCED) g then s
  else if (gfFor s).isNone ∧ s.on RST_FLTSTAT_GFOK then takeover g s
  else loseGrove g s

/-- A takeover that runs ends: a switch still to come comes before it (R391 step 6). -/
def endTakeover (s : State) : State :=
  if s.rd RST_FLTSTAT_SEQ = 0 then s
  else
    let s := remapDue s
    let us := min 65535 ((s.clock - s.ft.start) / 1000)
    raise 25 7 (s.wrs [(RST_FLTSTAT_SEQ, 0), (RST_FLTTIME_LAST, us), (RST_FLTTIME_MAX, max us (s.rd RST_FLTTIME_MAX))])

/-- FAILOVER (R391 step 6): the last replay source is drained. -/
def execFailover (s : State) : Host.Outcome State Fault Refusal := .next (endTakeover s)

/-! ### Lane cells (R261, R395) -/

/-- The port of a failed cell goes on with the cells it has left, by its personality (R395); each change is a mode change. -/
def degradePort (p : Nat) (s : State) : State :=
  let all := groupCells s p
  let live := all.filter fun c => !(s.lane c).faulted
  let pers := s.rd (ADP_STAT_PERS p)
  if !portUp s p ∧ !(p < 8 ∧ bringingUp s p) then s
  else if live = [] ∨ liveCells s p = [] then portDownAttached p 1 s
  else if p < 8 ∧ canActive s p then (match live.head? with | some c => takeSingle c s | none => s)
  else if p < 8 ∧ s.rd (CAN_STAT_STATE p) = 5 then structuralEvent (reduceRate p 1 2 s)
  else if p < 8 ∧ bringingUp s p then retrainPort p s
  else if persDp pers then structuralEvent (s.wr (ADP_STAT_STATE p) 1)
  else if pers = 10 then narrowTo p 1 (s.wr (ADP_STAT_PERS p) 5)
  else if pers = 1 then
    let w := s.rd (ADP_STAT_WIDTH p)
    narrowTo p (w / 2) s
  else portDownAttached p 1 s

/-- A lane cell enters FAULT: its hold buffer is out of service, its port degrades, and FAILOVER marks the end (R395). -/
def failCell (c : Nat) (s : State) : State :=
  if (s.lane c).faulted then s
  else
    let t := s.setLane c { faulted := true, chkAt := (s.lane c).chkAt }
    let t := restore [LC_HOLD_USED c] (t.wr (LC_STAT_STATE c) 9)
    raise 25 7 (degradePort (servedPort s c) (raise (32 + c) 4 t))

/-! ### Buffer cells (R171, R172, R398) -/

/-- A buffer cell is out of service. -/
def cellRetired (s : State) (b : Nat) : Bool := !bit (s.rd (FAB_PART_INSVC (b / 4))) (b % 4)

/-- Retire a buffer cell: it is being emptied, and its partition's masks are made anew from its new division. -/
def retireCell (b : Nat) (s : State) : State :=
  if cellRetired s b then s
  else s.wrs [(FAB_PART_INSVC (b / 4), s.rd (FAB_PART_INSVC (b / 4)) - 2 ^ (b % 4)), (FAB_PART_EVAC (b / 4), s.rd (FAB_PART_EVAC (b / 4)) ||| 2 ^ (b % 4))]

/-! ### Clocks (R19, R398) -/

/-- A time base moves by at most 2 ns, by an amount that the spec leaves open; it does not wrap in the move. A CMP passed in the move fires once. -/
def jumpBase (n : Nat) (s : State) : State :=
  let (x, s) := s.free
  let old := mget 0 s.tb n
  let new := min (2 ^ 64 - 1) (old + x % (2 ^ 34 + 1) - 2 ^ 33)
  let passed (t : State) (e : Nat) : Bool := comparing t e && t.rd (TIM_EVCTL_TBSEL e) = n && old < t.rd (TIM_EVCMP_CMP e) * 2 ^ 32 && t.rd (TIM_EVCMP_CMP e) * 2 ^ 32 ≤ new
  let t := { noteChange n s with tb := mput 0 s.tb n new }
  forAll ((List.range 8).filter (passed t)) fireCompare t

/-- The vault freezes (R19): a running STORE ends and no re-masking or new operation takes place until the next cold reset. -/
def freezeVault (s : State) : State :=
  if s.on KEY_VAULT_FROZEN then s else raise 21 4 (abortStore 11 (s.wr KEY_VAULT_FROZEN 1))

/-- What a failed clock brings (R19, R30, R398), by its code of R401. -/
def clockFault (u : Nat) (s : State) : State :=
  let s := if allRated s then noteExcursion s else s
  if s.ft.refFailed ∨ s.ft.pll.isSome then pulseReset 2 5 s
  else if u = 1 then { s with ft := { s.ft with refFailed := true } }
  else if u = 7 then freezeVault s
  else
    let t := { s with ft := { s.ft with pll := some u } }
    if u = 5 then raise 20 7 (forAll ((List.range 4).filter (tbRunning t)) jumpBase t) else t

/-! ### The management engine (R396 to R398) -/

/-- A lockstep mismatch or a watchdog expiry, with its cause of RST_CAUSE: both cores restart, or an engine that runs on one core stops. -/
def mgmtFault (cause : Nat) (s : State) : State :=
  let t := dropSolve (raise 25 9 (s.wrs [(SYS_STAGE_FWRDY, 0), (causeFld cause, 1)]))
  if s.rd RST_FLTSTAT_MGT = 0 then { t with ft := { t.ft with restarting := true } } else t.wr RST_FLTSTAT_MGT 3

/-- The engine runs, so that a detector of it can report. -/
def engineRuns (s : State) : Bool := 4 ≤ s.bt.released && s.rd RST_FLTSTAT_MGT ≠ 3 && !s.ft.restarting

/-- MGMT_RESTART_COMPLETE (R396 steps 2 to 4): the cores that pass their self-test run on; with none the engine has stopped. Firmware that
was up is up again and restarts the settle timer. -/
def mgmtRestarted (aOk bOk : Bool) (s : State) : State :=
  if !s.ft.restarting then s
  else
    let t := { s with ft := { s.ft with restarting := false } }
    let t := t.wr RST_FLTSTAT_MGT (if aOk && bOk then 0 else if aOk then 1 else if bOk then 2 else 3)
    if !aOk && !bOk then t
    else if !t.on PD_GLOB_FWPOL then t
    else (let u := firmwareUp t; if u.on CFG_STATUS_LOADED then startSettle u else u)

/-! ### The handling of a report -/

/-- The unit of a report exists, and a detector of it can report. -/
def reportable (kind unit : Nat) (s : State) : Bool :=
  match kind with
  | 1 => unit < 32 && grovePresent (variant s) (cellGrove unit) && !(s.lane unit).faulted
  | 2 => unit < 80 && !cellRetired s unit
  | 3 => grovePresent (variant s) unit && unit < 9 && !bit (s.rd RST_FLTSTAT_FENCED) unit
  | 4 => grovePresent (variant s) unit && unit < 9 && !bit (s.rd RST_FLTSTAT_FENCED) unit
  | 5 => unit = 8 && (gfFor s).isNone && s.on RST_FLTSTAT_GFOK
  | 6 => (1 ≤ unit && unit ≤ 8) || (16 ≤ unit && unit < 16 + pipeCount (variant s))
  | 7 => unit < 2 && engineRuns s
  | 8 => unit < 2 && engineRuns s
  | 9 => unit < 2
  | 10 => unit < 9 && grovePresent (variant s) unit && !bit (s.rd RST_FLTSTAT_FENCED) unit
  | 11 => true
  | _ => false

/-- What a fault brings, once logged. -/
def handleFault (kind unit : Nat) (s : State) : State :=
  match kind with
  | 1 => failCell unit s
  | 2 => retireCell unit s
  | 3 => groveFault unit s
  | 4 => groveFault unit s
  | 5 => s.wr RST_FLTSTAT_GFOK 0
  | 6 => clockFault unit s
  | 7 => mgmtFault 10 s
  | 8 => mgmtFault 11 s
  | 10 => groveFault unit s
  | 11 => pulseReset 1 9 s
  | _ => s

/-- A report reaches the fault sequencer (R385, R391): it is logged unless it is part of a fault already logged, and its unit handled. A
lane cell whose grove was reported just before is still degraded. -/
def reportFault (kind unit tun det : Nat) (inj : Bool) (s : State) : State :=
  if !reportable kind unit s then s
  else
    let r := takeReport kind unit tun det inj s
    if r.1 && kind ≠ 1 && kind ≠ 2 then r.2 else handleFault kind unit r.2

/-- FAULT_REPORT (R384, R385). -/
def execFaultReport (kind : Fin 16) (unit tun det : Byte) (s : State) : Host.Outcome State Fault Refusal :=
  .next (reportFault kind.val unit.toNat (if kind.val = 10 then tun.toNat else 0) det.toNat false s)

/-- PROGRESS_WATCHDOG (R384, row 5): a block of the grove with work pending completed no unit within 8 microseconds. -/
def execProgressWatchdog (g : Grove) (s : State) : Host.Outcome State Fault Refusal := .next (reportFault 3 g.val 0 5 false s)

/-- ARBITER_WATCHDOG (R384, row 10). -/
def execArbiterWatchdog (g : Grove) (s : State) : Host.Outcome State Fault Refusal := .next (reportFault 4 g.val 0 10 false s)

/-- XGAP_TIMEOUT (R142): a parked express segment has waited 40 slots for the one before it. The timeout does not run for what replay owes
(R393). A gap that no grove injected is charged to the chip-level unit at its position. -/
def execXgapTimeout (n : Tun) (s : State) : Host.Outcome State Fault Refusal :=
  let o := if twoPass s n.val && (s.outPos 19).parked.any (fun q => q.seg.tun = n.val) then 19 else outPosOf s n.val
  let owed (q : Nat) : Bool := s.rd RST_FLTSTAT_SEQ = 6 && gfFor s = some (o / 2) && (mget {} s.ck (o / 2)).parked.contains (n.val, q)
  if isBulk s n.val || fenced s o || !((s.outPos o).parked.any fun q => q.seg.tun = n.val && !owed q.seg.seq) then .next s
  else
    let t := raise 13 0 (s.wr (FAB_XGAP_TUN o) n.val)
    let g := inPosOf s n.val / 2
    .next (if g < 8 then reportFault 0xA (servedBy s g) n.val 9 false t else reportFault 0xB g 0 9 false t)

/-- BUFFER_CELL_RETIRE (R171): the corrected-error threshold, or a control-logic fault. -/
def execBufferCellRetire (cell : BufCell) (_logic : Bool) (s : State) : Host.Outcome State Fault Refusal := .next (reportFault 2 cell.val 0 3 false s)

/-- CLOCK_FAILURE (R18, R19). -/
def execClockFailure (clk : Clock) (s : State) : Host.Outcome State Fault Refusal :=
  let u := match clk with
    | .ref => 1 | .sys => 2 | .fab => 3 | .mem => 4 | .time => 5 | .usb => 6 | .key => 7 | .standby => 8 | .pix d => 16 + d.val
  .next (reportFault 6 u 0 12 false s)

/-- LOCKSTEP_MISMATCH (R396). Without lockstep there is nothing to compare. The core that the entry names is not given. -/
def execLockstepMismatch (s : State) : Host.Outcome State Fault Refusal :=
  if s.rd RST_FLTSTAT_MGT ≠ 0 then .next s
  else
    let (x, t) := s.free
    .next (reportFault 7 (x % 2) 0 13 false t)

/-- MANAGEMENT_WATCHDOG (R396, R398): not serviced for 5 ms. -/
def execManagementWatchdog (s : State) : Host.Outcome State Fault Refusal :=
  let (x, t) := s.free
  .next (reportFault 8 (match s.rd RST_FLTSTAT_MGT with | 1 => 0 | 2 => 1 | _ => x % 2) 0 14 false t)

/-- SELFCHK_COMPLETE (R261): a cell that fails enters FAULT; once every cell of the port that checked itself has passed, the failure lies in
the channel and the port goes down. -/
def execSelfchkComplete (cell : LaneCell) (pass : Bool) (s : State) : Host.Outcome State Fault Refusal :=
  let c := cell.val
  if s.rd (LC_STAT_STATE c) ≠ 8 then .next s
  else if !pass then .next (reportFault 1 c 0 1 false s)
  else
    let t := s.setLane c { (s.lane c) with checked := some true }
    let t := t.wr (LC_RTR_CONSEC c) 0
    let p := servedPort t c
    let waits := (groupCells t p).any fun d => t.rd (LC_STAT_STATE d) = 8 && (t.lane d).checked.isNone
    .next (if waits then t else portDownAttached p 1 t)

/-! ### Checkpoints (R386) -/

/-- CHECKPOINT: a grove captures. A fenced grove takes none. -/
def execCheckpoint (g : Grove) (s : State) : Host.Outcome State Fault Refusal :=
  .next (if bit (s.rd RST_FLTSTAT_FENCED) g.val then s else capture g.val s)

/-- CHECKPOINT_COMPLETE: the halves swap; what the release of segments brings follows (R389, R390). -/
def execCheckpointComplete (g : Grove) (s : State) : Host.Outcome State Fault Refusal :=
  if bit (s.rd RST_FLTSTAT_FENCED) g.val then .next s
  else
    let t := ckComplete g.val s
    .next (forAll (List.range 20) updatePause (forAll (List.range 256) creditUpdate t))

/-! ### The fallow grove's self-test (R394) -/

/-- A grove that was fenced has run its self-test at reset: it is taken back, or GF stands in for the first that failed. -/
def retested (g : Nat) (ok : Bool) (s : State) : State :=
  let f := s.rd RST_FLTSTAT_FENCED
  let clear := if bit f g then f - 2 ^ g else f
  if g = 8 then (if ok then s.wrs [(RST_FLTSTAT_FENCED, clear), (RST_FLTSTAT_GFOK, 1)] else s.wrs [(RST_FLTSTAT_FENCED, f ||| 256), (RST_FLTSTAT_GFOK, 0)])
  else if ok then s.wrs [(RST_FLTSTAT_FENCED, clear), (RST_FLTSTAT_GFFOR, if gfFor s = some g then 15 else s.rd RST_FLTSTAT_GFFOR)]
  else if (gfFor s = none ∨ gfFor s = some g) ∧ s.on RST_FLTSTAT_GFOK then
    let t := s.wrs [(RST_FLTSTAT_FENCED, f ||| 2 ^ g), (RST_FLTSTAT_GFFOR, g), (FAB_REMAP_PHYS (2 * g), 16), (FAB_REMAP_PHYS (2 * g + 1), 17),
      (FAB_REMAP_ATT 16, 0), (FAB_REMAP_ATT 17, 0)]
    raise 13 3 (forAll [4 * g, 4 * g + 1, 4 * g + 2, 4 * g + 3] (fun c u => u.wr (LC_STAT_OWNER c) 8) t)
  else s.wrs [(RST_FLTSTAT_FENCED, f ||| 2 ^ g), (FAB_STATUS_FENCE, s.rd FAB_STATUS_FENCE ||| (3 * 4 ^ g))]

/-- GF_SELFTEST: at a reset, of the next grove that was fenced; otherwise of the fallow GF, whose failure is a fault. The spec names no
detector for it. -/
def execGfSelftest (ok : Bool) (s : State) : Host.Outcome State Fault Refusal :=
  match s.bt.retest with
  | g :: rest => .next (if s.bt.released < 4 then s else retested g ok { s with bt := { s.bt with retest := rest } })
  | [] =>
    if ok then .next s
    else
      let (x, t) := s.free
      .next (reportFault 5 8 0 (x % 256) false t)

/-! ### Injection (R400) -/

/-- The kinds that RST_FLTINJ injects. -/
def injectable (k : Nat) : Bool := [1, 2, 3, 4, 7].contains k

/-- A write to RST_FLTINJ: KIND and UNIT, then GO, which clears when the report is taken. The detector that an entry names is not given. -/
def wrRstFltinj (v : Nat) (s : State) : State :=
  if debugLocked s then s
  else
    let a := 0x1010C
    let t := if injectable (bits v 27 24) then wrField a RST_FLTINJ_KIND (bits v 27 24) s else cfgErr a s
    let t := wrField a RST_FLTINJ_UNIT (bits v 7 0) t
    if !bit v 31 ∨ !injectable (t.rd RST_FLTINJ_KIND) then t
    else
      let (x, t) := t.free
      reportFault (t.rd RST_FLTINJ_KIND) (t.rd RST_FLTINJ_UNIT) 0 (x % 256) true t

/-! ### Re-masking (R490) -/

/-- REMASK: the next slot is re-masked and its tag recomputed; a slot whose bits flipped goes to BAD and is cleared, which is an error that a
chip-level unit cannot correct (R383). A frozen vault does not re-mask. -/
def execRemask (flip : Bool) (s : State) : Host.Outcome State Fault Refusal :=
  if s.bt.released < 2 ∨ s.on KEY_VAULT_FROZEN then .next s
  else
    let n := s.kv.next
    let t := (if n = 31 then s.incMod KEY_VAULT_REMASK else s).setKv { s.kv with next := (n + 1) % 32 }
    if !flip then .next t
    else
      let t := (setSlot n 3 0 0 0 [] t)
      let t := raise 21 1 t
      let t := if 6 ≤ n ∧ n < 22 ∧ (canActive t ((n - 6) / 2) ∨ bringingUp t ((n - 6) / 2)) then portDownAttached ((n - 6) / 2) 1 t else t
      .next (reportFault 0xB 0 0 6 false t)

end Sys2Proof.Machine
end

