-- ==== Sys2Proof/Machine/Power.lean ====
section
/-! DEFINITION. Power channels and their faults (R464 to R470), the feed combiner (R471 to R473), the steward's commands (R474, R477 to
R480), the loss of VBUS at a sink (R446, R457), and the monitors (R523, R524, R526). -/

namespace Sys2Proof.Machine

/-! ### Channels (R465 to R470) -/

/-- RAMP_COMPLETE (R465): full enhancement; the channel qualifies. -/
def execRampComplete (ch : Channel) (s : State) : Host.Outcome State Fault Refusal :=
  .next (if s.rd (PC_STAT_STATE ch.val) = 1 then s.wr (PC_STAT_STATE ch.val) 2 else s)

/-- The channel carries the combiner's supply. -/
def isSupply (s : State) (n : Nat) : Bool := if n < 2 then s.rd PP_FEED_ACTIVE = n + 1 else s.on (PC_STAT_REV n)

/-- POWER_GOOD (R466, R471): 1 ms of all conditions; a supply's releases PWRWARN_N. -/
def execPowerGood (ch : Channel) (s : State) : Host.Outcome State Fault Refusal :=
  let n := ch.val
  if s.rd (PC_STAT_STATE n) ≠ 2 then .next s
  else
    let t := s.wrs [(PC_STAT_STATE n, 3), (PC_STAT_PG n, 1)]
    let frees := isSupply t n && t.on PP_FEED_WARN
    let t := { t with pw := { t.pw with good := some (n, t.clock, frees) } }
    .next (if frees then (t.wr PP_FEED_WARN 0).emit (.pin "PWRWARN_N" 0 true) else t)

/-- A power-good of this very cycle is withheld: what it released of PWRWARN_N is driven low again (R470). -/
def withholdGood (n : Nat) (s : State) : State :=
  if s.pw.good = some (n, s.clock, true) then (s.wr PP_FEED_WARN 1).emit (.pin "PWRWARN_N" 0 false) else s

/-- POWER_GOOD_HOLD (R468): power-good has been held for 10 s. -/
def execPowerGoodHold (ch : Channel) (s : State) : Host.Outcome State Fault Refusal :=
  .next (if s.on (PC_STAT_PG ch.val) then s.wr (PC_STAT_ATTEMPT ch.val) 0 else s)

/-- A trip of a channel: its cause, its counter, the fault opening (R467, R482, R483). -/
def trip (n cause : Nat) (f : Fld) (s : State) : State :=
  if !pathClosed s n then s else withBeff (faultOpening n) ((s.wr (PC_STAT_CAUSE n) cause).inc f)

/-- SHORT_CIRCUIT (R467). -/
def execShortCircuit (ch : Channel) (s : State) : Host.Outcome State Fault Refusal := .next (trip ch.val 1 (PC_CNT_SC ch.val) s)

/-- CHANNEL_OVERCURRENT (R467, R470): the current is regulated and the fault timer starts; power-good falls. -/
def execChannelOvercurrent (ch : Channel) (s : State) : Host.Outcome State Fault Refusal :=
  .next (if pathClosed s ch.val then withholdGood ch.val (s.wrs [(PC_STAT_STATE ch.val, 4), (PC_STAT_PG ch.val, 0)]) else s)

/-- OVERCURRENT_END (R467, R470): the timer stops and a fresh qualification begins. -/
def execOvercurrentEnd (ch : Channel) (s : State) : Host.Outcome State Fault Refusal :=
  .next (if s.rd (PC_STAT_STATE ch.val) = 4 then s.wr (PC_STAT_STATE ch.val) 2 else s)

/-- FAULT_TIMER (R467): still at ILIM after FLTT. -/
def execFaultTimer (ch : Channel) (s : State) : Host.Outcome State Fault Refusal :=
  .next (if s.rd (PC_STAT_STATE ch.val) = 4 then trip ch.val 2 (PC_CNT_OC ch.val) s else s)

/-- UNDERVOLTAGE (R467): a VBUS source's detector is armed from power-good until the next transition begins. -/
def execUndervoltage (ch : Channel) (s : State) : Host.Outcome State Fault Refusal :=
  let n := ch.val
  let armed := n < 2 || (s.on (PC_STAT_PG n) && !s.on (PC_STAT_REV n) && (s.pdp (n - 2)).moving.isNone)
  .next (if armed then trip n 3 (PC_CNT_UV n) s else s)

/-- REVERSE_CURRENT (R467). -/
def execReverseCurrent (ch : Channel) (s : State) : Host.Outcome State Fault Refusal := .next (trip ch.val 4 (PC_CNT_UV ch.val) s)

/-- The stop of R473 ends once a feed can be closed. -/
def leaveStop (s : State) : State := if 6 ≤ s.bt.released then { s with pw := { s.pw with stopped := false } } else s

/-- A channel that is free to close does so: a feed's or a crown sink's where no supply is active (R471), a VBUS source's while its
port is attached, whereupon error recovery runs where a fault opening came before (R469). -/
def closeFree (n : Nat) (s : State) : State :=
  let idle := s.rd PP_FEED_ACTIVE = 0 && s.pw.dead.isNone
  if n < 2 then (if idle ∧ feedReady s n then leaveStop (updateExt (closeSupply (n + 1) false s)) else s)
  else
    let p := n - 2
    let due := (s.pdp p).erDue
    let t := if asSource s p then closeChannel n false false s
      else if asSink s p ∧ idle ∧ !anyFeed s then updateExt ((closeChannel n false true s).wr PP_FEED_ACTIVE 3)
      else s
    if due ∧ attached t p then errorRecovery p t else t

/-- The same, as a mode change where B_eff changes (R481). -/
def closeAgain (n : Nat) (s : State) : State := withBeff (closeFree n) s

/-- RETRY_BACKOFF (R468). -/
def execRetryBackoff (ch : Channel) (s : State) : Host.Outcome State Fault Refusal :=
  .next (if s.rd (PC_STAT_STATE ch.val) = 5 then closeAgain ch.val (s.wr (PC_STAT_STATE ch.val) 0) else s)

/-- A write to PC_CTL_n (R482): ILIM is bounded by the image's; CLR clears a latch and clears at once, but not one of this very cycle, in
which the new fault wins. -/
def wrPcCtl (n v : Nat) (s : State) : State :=
  let a := 0x80000 + 0x20 * n
  let t := wrWord a v [PC_CTL_MODE n, PC_CTL_RETRIES n, PC_CTL_FLTT n, PC_CTL_GATE n] s
  let t := match t.ld.image with
    | none => wrField a (PC_CTL_ILIM n) (bits v 19 7) t
    | some im => if leAt (im.chip 0x11) (40 + 16 * n) 2 < bits v 19 7 then cfgErr a t else wrField a (PC_CTL_ILIM n) (bits v 19 7) t
  if bit v 31 ∧ t.rd (PC_STAT_STATE n) = 6 ∧ mget 0 t.pw.latchedAt n ≠ t.clock + 1 then closeAgain n (t.wr (PC_STAT_STATE n) 0) else t

/-! ### Feeds (R471 to R473) -/

/-- Every grove captures a checkpoint at once (R473). -/
def captureAll (s : State) : State := forAll (List.range 8) (fun g t => capture (servedBy t g) t) s

/-- No supply is left to close (R473): admission stops, LPDDR goes into self-refresh, PC2 to PC9 and the tree ports' power open. -/
def noSupply (s : State) : State :=
  let t := { s with pw := { s.pw with stopped := true } }
  let t := forAll [2, 3, 4, 5, 6, 7, 8, 9] faultOpening t
  let t := forAll ((List.range 20).filter fun k => t.on (USB_PST_PWR (k + 7))) (fun k u => treeOvercurrent (k + 7) u) t
  raise 17 4 t

/-- PWRWARN (R471, R473): the active feed has fallen through its VWARN. -/
def execPwrwarn (s : State) : Host.Outcome State Fault Refusal :=
  let a := s.rd PP_FEED_ACTIVE
  if a = 0 ∨ a = 3 then .next s
  else
    let t := captureAll (raise 17 3 ((s.wr PP_FEED_WARN 1).emit (.pin "PWRWARN_N" 0 false)))
    .next (if (secondSupply t).isNone then withBeff noSupply t else t)

/-- FEED_LOSS (R471): the active feed has left its window; its channel makes a fault opening, which is the combiner's and follows no MODE. -/
def execFeedLoss (s : State) : Host.Outcome State Fault Refusal :=
  let a := s.rd PP_FEED_ACTIVE
  if a = 0 ∨ a = 3 then .next s
  else
    let n := a - 1
    .next (withBeff (fun t => supplyLost a (raise 17 0 (openAt 200 n (t.wr (if n = 0 then PP_FEED_QUALA else PP_FEED_QUALB) 0)))) s)

/-- The supplies in the order in which the dead time's end takes them: after a changeover away from a feed the others come first. -/
def nextSupplies (s : State) (code : Nat) : List Nat :=
  (supplies s).filter (fun a => !(code ≤ 2 && a = code)) ++ (supplies s).filter fun a => code ≤ 2 && a = code

/-- A changeover after a loss: counted, announced, the shed table applied; with the lost feed's presence input still reporting it, a
feed fault (R471, R472, R479), whose detector the spec does not number. -/
def changedOver (code : Nat) (s : State) : State :=
  let t := applyShed (raise 17 2 (s.inc PP_FEED_CHG))
  if code ≤ 2 ∧ mget false t.pw.present (code - 1) then
    let (x, t) := t.free
    reportFault 9 (code - 1) 0 (x % 256) false t
  else t

/-- DEAD_TIME (R471, R473). -/
def execDeadTime (s : State) : Host.Outcome State Fault Refusal :=
  match s.pw.dead with
  | none => .next s
  | some code =>
    let t := { s with pw := { s.pw with dead := none } }
    match nextSupplies t code with
    | [] => .next (withBeff noSupply t)
    | a :: _ => .next (withBeff (fun u => let u := closeSupply a true u; if code ≤ 3 then changedOver code u else updateExt u) t)

/-- What a newly qualified feed brings: it is closed where nothing is active; a crown port that supplies gives way to it; every host-facing
crown port where the hub is sink asks for a PR_Swap, and DBDENY ends (R452, R453, R471, R473). -/
def takeFeed (f : Nat) (first : Bool) (s : State) : State :=
  let t := s.wr PD_GLOB_DBDENY 0
  let t := if !feedReady t f then t
    else if t.rd PP_FEED_ACTIVE = 0 ∧ t.pw.dead.isNone then updateExt (closeSupply (f + 1) false t)
    else if t.rd PP_FEED_ACTIVE = 3 then
      (match crownActive t with | some p => supplyLost 5 (openChannel (p + 2) t) | none => supplyLost 5 t)
    else t
  let t := if feedReady t f then leaveStop t else t
  if first then forAll [0, 1] (fun p u => if asSink u p ∧ maySink u p ∧ (u.pdp p).pd then startOwn p 2 u else u) t else t

/-- FEED_QUALIFIED (R471): a feed has been within its window for 10 ms. While POR holds AON it is only noted. -/
def execFeedQualified (feedB : Bool) (s : State) : Host.Outcome State Fault Refusal :=
  let f := b2n feedB
  let q := if feedB then PP_FEED_QUALB else PP_FEED_QUALA
  if s.on q then .next s
  else
    let first := !anyFeed s
    let t := s.wr q 1
    .next (if t.bt.released = 0 then t else withBeff (takeFeed f first) t)

/-- FEED_RETURN (R471): feed A has been qualified for RET seconds while B is active. -/
def execFeedReturn (s : State) : Host.Outcome State Fault Refusal :=
  .next (if s.rd PP_FEED_ACTIVE = 2 ∧ feedReady s 0 then withBeff (fun t => supplyLost 4 (openChannel 1 t)) s else s)

/-- FEED_PRESENCE (R468, R472): a removal clears the channel's latch; a feed that is not active is then no longer qualified. -/
def execFeedPresence (feedB present : Bool) (s : State) : Host.Outcome State Fault Refusal :=
  let f := b2n feedB
  let t := { s with pw := { s.pw with present := mput false s.pw.present f present } }
  if present then .next t
  else
    let t := clearLatch f t
    .next (if t.rd PP_FEED_ACTIVE = f + 1 then t else t.wr (if feedB then PP_FEED_QUALB else PP_FEED_QUALA) 0)

/-! ### The steward (R474, R477 to R480) -/

/-- LEASE_RECOMPUTE (R480). -/
def execLeaseRecompute (s : State) : Host.Outcome State Fault Refusal := .next (recomputeLeases s)

/-- LEASE_OVERDRAW (R479): 500 ms after the lower offer the sink still draws above its lease. -/
def execLeaseOverdraw (port : CanPort) (s : State) : Host.Outcome State Fault Refusal :=
  let p := port.val
  let x := s.pdp p
  .next (if x.overdrawn ∧ asSource s p then withBeff (hardReset p true) (s.setPdp p { x with overdrawn := false }) else s)

/-- A write to PST_CORE: BUDGET from 6,000 to CEIL; a change is a mode change (R23, R474). -/
def wrBudget (v : Nat) (s : State) : State :=
  let x := bits v 15 0
  if x < 6000 ∨ s.rd PST_CORE_CEIL < x then cfgErr 0x20020 s
  else
    let t := wrField 0x20020 PST_CORE_BUDGET x s
    if t.rd PST_CORE_BUDGET = s.rd PST_CORE_BUDGET then t else structuralEvent (updateExt t)

/-- VBUS_LOSS (R446, R457): the detach of a sink, suspended during a PR_Swap; where the hub ran from that VBUS alone, a POR. -/
def execVbusLoss (port : CanPort) (s : State) : Host.Outcome State Fault Refusal :=
  let p := port.val
  if !asSink s p ∨ (s.pdp p).own = 2 then .next s
  else if crownActive s = some p ∧ !anyFeed s ∧ !asSink s (1 - p) then .next (powerOnReset s)
  else .next (withBeff (detachCore p) s)

/-! ### Monitors (R523 to R526) -/

/-- A monitor leaves its ratings or returns to them; RATED reads 0 while any lies outside. -/
def setOutside (k : Nat) (out : Bool) (s : State) : State :=
  let was := s.pw.outside
  let rated := allRated s
  let now := if out then (if was.contains k then was else was ++ [k]) else was.filter (· ≠ k)
  let t := { s with pw := { s.pw with outside := now } }
  if rated ∧ !now.isEmpty then noteExcursion t else t

/-- RATING_EXCURSION (R523, R524): of the supply in the order of R514, 0 VDD_CORE to 7 VSYS_AON. -/
def execRatingExcursion (supply : Byte) (ended : Bool) (s : State) : Host.Outcome State Fault Refusal :=
  .next (if supply.toNat < 8 then setOutside supply.toNat (!ended) s else s)

/-- AVS_DEVIATION (R526): MEAS, which differs from TARGET by more than 4 % for 10 microseconds. -/
def execAvsDeviation (meas : BitVec 12) (s : State) : Host.Outcome State Fault Refusal :=
  let t := s.wr PST_AVS_MEAS meas.toNat
  let d := (meas.toNat - s.rd PST_AVS_TARGET) + (s.rd PST_AVS_TARGET - meas.toNat)
  .next (if 4 * s.rd PST_AVS_TARGET < 100 * d then raise 16 9 t else t)

/-- THERMAL_SAMPLE (R524, R525): the reading, signed in 1/16 degree; the trip and the tamper alarm are commands of their own. -/
def execThermalSample (temp : BitVec 16) (s : State) : Host.Outcome State Fault Refusal :=
  let t := s.wr PST_THERM_TEMP temp.toNat
  let deg := (temp.toInt / 16).toNat
  let t := if t.rd PST_THERM_PEAK < deg then t.wr PST_THERM_PEAK (min 255 deg) else t
  let t := if ((16 * t.rd PST_THERM_WARN : Nat) : Int) ≤ temp.toInt then raise 16 8 t else t
  .next (setOutside 256 (decide (105 * 16 < temp.toInt)) t)

end Sys2Proof.Machine
end

