-- ==== Sys2Proof/Machine/PowerState.lean ====
section
/-! DEFINITION. Power states (R428 to R439). -/

namespace Sys2Proof.Machine

/-! ### Requests (R432, R433) -/

/-- A write to PST_PSCTL: AUTO, IDLE and TARGET, then GO. A request while another is asked, committed or a return runs is not allowed; without
the firmware it waits. -/
def wrPsctl (v : Nat) (s : State) : State :=
  let t := wrWord 0x20000 v [PST_PSCTL_AUTO, PST_PSCTL_IDLE, PST_PSCTL_TARGET] s
  if !bit v 31 then t
  else if t.rd PST_PSSTAT_PHASE ≠ 0 ∨ 3 ≤ t.rd PST_PSSTAT_STATE then t.wrs [(PST_PSSTAT_WHO, 18), (PST_PSSTAT_REASON, 0xA)]
  else
    let u := t.wr PST_PSCTL_GO 1
    if u.on SYS_STAGE_FWRDY then psRequest u else u

/-- No solve is pending and no takeover runs (R432). -/
def quiet (s : State) : Bool :=
  !s.on SYS_SETTLE_PEND && !s.on SYS_SETTLE_RUN && s.sv.sample.isNone && s.sv.commit.isNone && s.rd RST_FLTSTAT_SEQ = 0

/-- AUTO_DROWSE (R432). -/
def execAutoDrowse (s : State) : Host.Outcome State Fault Refusal :=
  .next (if s.on PST_PSCTL_AUTO ∧ s.on SYS_STAGE_FWRDY ∧ s.rd PST_PSSTAT_STATE = 0 ∧ s.rd PST_PSSTAT_PHASE = 0 ∧ quiet s then psAsk 1 s else s)

/-- A grove keeps its power in Doze: one of its ports is up with a personality other than display output (R430). -/
def dozePowered (s : State) (g : Nat) : Bool := (grovePorts g).any fun p => portUp s p && !isHandoff s p

/-- A port that is up or on its way: there is something to take down. -/
def portBusy (s : State) (p : Nat) : Bool := portUp s p || 1 ≤ s.rd (ADP_STAT_STATE p) || (p < 8 && 1 ≤ s.rd (CAN_STAT_STATE p))

/-- The ports that the entry to a state takes down: in Doze those of the groves that are gated, but for display outputs; in Rest and Dormant
every one (R430, R431). -/
def goingDown (s : State) (target : Nat) : List Nat :=
  if target ≤ 1 then []
  else (List.range 20).filter fun p => portBusy s p && (3 ≤ target || (!dozePowered s (portGrove p) && !isHandoff s p))

/-- A grove carries a C0 stream that is live: a pipe is showing the stream's own frames (R433). -/
def liveStream (s : State) (g : Nat) : Bool :=
  (List.range 4).any fun d => pipeStateNow s d = 2 &&
    match pipeTunnel s d with
    | some n => clsOf s n = 0 && (inPosOf s n / 2 = g || outPosOf s n / 2 = g)
    | none => false

/-- Units of a tunnel stand in its ingress store or its transmit queue. -/
def unitsHeld (s : State) (n : Nat) : Bool := s.ingressQ n ≠ [] || s.tx n ≠ []

/-- The REFUSE that the state of a participant calls for (R433): its reason. -/
def mustRefuse (s : State) (w : Nat) : Option Nat :=
  if w = 17 ∧ s.rd RST_FLTSTAT_SEQ ≠ 0 then some 5
  else if w < 9 ∧ 3 ≤ s.ps.target ∧ liveStream s w then some 1
  else none

/-- The state of a participant calls for a DEFER (R433); whether a control transfer runs in the tree, its own answer tells. -/
def mustDefer (s : State) (w : Nat) : Bool :=
  if w < 9 then (grovePorts w).any fun p => (goingDown s s.ps.target).contains p && (tunnelsOf s p).any (unitsHeld s)
  else if w < 13 then 3 ≤ s.ps.target && (s.pipe (w - 9)).wCount ≠ 0
  else if w = 13 then s.fb.spill.any (fun e => e.2 ≠ []) || s.fb.inter.any fun e => e.2.spillWrite ≠ []
  else if w = 15 then s.pd.any fun e => e.2.moving.isSome || e.2.own ≠ 0
  else if w = 16 then s.kv.storing.isSome || s.kv.waiting ≠ []
  else if w = 18 then s.sv.sample.isSome || s.ld.reload.isSome
  else false

/-- A request is refused, and the vault takes up what it held off. -/
def endRequest (w r : Nat) (s : State) : State := nextKeys (psRefuse w r s)

/-- A participant defers by `n` ms; deferrals of more than 2 s in all are REFUSE 0x8 (R433). -/
def putOff (w n : Nat) (s : State) : State :=
  let t := s.inc PST_PSSTAT_DEFERS
  let sum := s.ps.deferSum + n
  if 2000 < sum then endRequest w 8 t else t.setPs { s.ps with deferring := s.ps.deferring ++ [w], deferSum := sum }

/-- PARTICIPANT_ANSWER (R433). Where the state of the participant calls for a REFUSE it refuses, and where it calls for a DEFER it does not accept:
the milliseconds are then a free value from 1 to 255. -/
def execParticipantAnswer (who : Participant) (ans : Answer) (s : State) : Host.Outcome State Fault Refusal :=
  let w := who.val
  if s.rd PST_PSSTAT_PHASE ≠ 1 ∨ !s.ps.waiting.contains w ∨ s.ps.deferring.contains w then .next s
  else match mustRefuse s w with
    | some r => .next (endRequest w r s)
    | none => match ans with
      | .accept =>
        if mustDefer s w then (let (x, t) := s.free; .next (putOff w (x % 255 + 1) t))
        else .next (s.setPs { s.ps with waiting := s.ps.waiting.filter (· ≠ w) })
      | .refuse r => .next (endRequest w r s)
      | .defer n => .next (putOff w n s)

/-- DEFER_EXPIRY (R433): the participant is asked again. -/
def execDeferExpiry (who : Participant) (s : State) : Host.Outcome State Fault Refusal :=
  .next (if s.rd PST_PSSTAT_PHASE = 1 then s.setPs { s.ps with deferring := s.ps.deferring.filter (· ≠ who.val) } else s)

/-- ANSWER_TIMEOUT (R433): 1 ms without an answer. -/
def execAnswerTimeout (who : Participant) (s : State) : Host.Outcome State Fault Refusal :=
  .next (if s.rd PST_PSSTAT_PHASE = 1 ∧ s.ps.waiting.contains who.val ∧ !s.ps.deferring.contains who.val then endRequest who.val 7 s else s)

/-! ### Entry (R430, R431, R434) -/

/-- A state takes effect. -/
def enterState (st : Nat) (s : State) : State :=
  nextKeys (showIndicator (raise 16 0 (s.wrs [(PST_PSSTAT_STATE, st), (PST_PSSTAT_PHASE, 0), (PST_PSCTL_GO, 0)])))

/-- Doze: the ports of the groves that are gated go down, but for display outputs; every routed pipe is held (R430). -/
def enterDoze (s : State) : State :=
  let down := goingDown s 2
  let t := forAll down (fun p u => portDown p 1 u) s
  let t := if down.isEmpty then t else attachEvent t
  let t := forAll ((List.range 4).filter fun d => t.on (PIPE_ROUTE_VALID d)) (fun d u => u.wr (PIPE_CTL_FHOLD d) 1) t
  (enterState 2 t).setPs { downed := down, gated := (List.range 9).filter fun g => !dozePowered s g, dozeAt := t.clock }

/-- ENTRY_COMMIT (R434): every participant has accepted; Drowse and Doze take effect at once. -/
def execEntryCommit (s : State) : Host.Outcome State Fault Refusal :=
  if s.rd PST_PSSTAT_PHASE ≠ 1 ∨ !s.ps.waiting.isEmpty then .next s
  else match s.ps.target with
    | 1 => .next ((enterState 1 s).setPs {})
    | 2 => .next (enterDoze s)
    | _ => .next (s.wr PST_PSSTAT_PHASE 2)

/-- P0 to P19 go down and their tunnels are flushed; the entry sets no bit of RST_CAUSE (R431, R434). -/
def allPortsDown (s : State) : State :=
  let t := (forAll (goingDown s 3) (fun p u => portDown p 1 u) (cancelSolve s)).wr RST_CAUSE_PORT (s.rd RST_CAUSE_PORT)
  let t := forAll ((List.range 256).filter fun n => t.rd (TT_STATE_STATE n) = stTEARING) (fun n u => enterQuarantine n (flushTunnel n u)) t
  t.wrs [(SYS_SETTLE_RUN, 0), (SYS_SETTLE_PEND, 0), (SYS_STAGE_FWRDY, 0)]

/-- Rest: the domains but AON, KEY and USB are gated, LPDDR is in self-refresh, and VDD_CORE is at its retention level (R428, R437, R516). -/
def gateRest (s : State) : State :=
  { setDuty 43 s with bt := { s.bt with released := min 3 s.bt.released }, pw := { s.pw with stopped := true } }

/-- What stops on the way to Dormant: the tree leaves the bus, frame stores and key slots go, and CORE_EN falls (R428, R431). -/
def stopForDormant (s : State) : State :=
  let t := treeReset (s.wr USB_STAT_PULLUP 0)
  let t := forAll (List.range 4) (fun d u => (u.wr (PIPE_STAT_FSVAL d) 0).setPipe d { (u.pipe d) with hAttrs := none }) (t.emit (.pin "UH0 pull-up" 0 false))
  let t := forAll (List.range 32) clearSlot t
  let t := t.wrs [(CFG_STATUS_LOADED, 0), (CFG_STATUS_HOLD, 0), (SYS_STAGE_HOLD, 0), (RST_BOOT_SAPDONE, 0), (PST_AVS_DUTY, 128), (PST_AVS_TARGET, 750)]
  t.emit (.pin "CORE_EN" 0 false)

/-- Dormant: AON only. The image store and LPDDR lose what they hold; Sapling will follow the return (R428, R431, R437). -/
def gateDormant (s : State) : State :=
  let t := stopForDormant s
  { t with dram := [], ld := { t.ld with doing := .idle, image := none, reload := none, lock := none }
           pw := { t.pw with stopped := true }
           bt := { t.bt with released := min 1 t.bt.released, coreEn := false, corePg := false, refLock := false, trained := false } }

/-- AON_ARMED (R434): the wake detectors are armed and the shutdown runs, once a takeover that still runs has completed; a level that is asserted
then wakes the hub at its end (R435). -/
def execAonArmed (s : State) : Host.Outcome State Fault Refusal :=
  if s.rd PST_PSSTAT_PHASE ≠ 2 then .next s
  else
    let target := s.ps.target
    let level := s.ps.level
    let t := endTakeover s
    let t := if t.rd PST_PSSTAT_STATE = 2 then leaveDoze t else t
    let t := allPortsDown t
    let t := if target = 4 then gateDormant t else gateRest t
    let t := (enterState target t).setPs {}
    .next (forAll ((List.range 8).filter fun k => bit level k) wakeUp t)

/-! ### Waking and the return (R436, R437) -/

/-- A wake source's enable (R442). -/
def wakeEnabled (s : State) (src : Nat) : Bool := src = 7 || bit (s.rd PST_WAKEEN_EN) src

/-- WAKE (R435, R436): Drowse and Doze are left on any source, but a button changes no state there (R438). -/
def execWake (src : WakeSrc) (s : State) : Host.Outcome State Fault Refusal :=
  let k := src.val
  let light := s.rd PST_PSSTAT_STATE < 3 ∧ s.rd PST_PSSTAT_PHASE = 0
  .next (if light then (if k = 4 ∨ k = 5 then s else wakeUp k s) else if wakeEnabled s k then wakeUp k s else s)

/-- Every configured port trains, and a branch port without a mode takes its own. -/
def trainPorts (s : State) : State :=
  forAll (List.range 20) (fun p t =>
    if !configured t p ∨ retrainBlocked t p && !(p < 8) then t
    else if p < 8 then
      (if (t.can p).entered ≠ 0 ∧ !retrainBlocked t p then startTraining p t
       else if (t.can p).entered = 0 ∧ asSource t p ∧ (2 ≤ p ∨ isDown t p) then enterChosen p t else t)
    else startTraining p t) s

/-- The return ends: STATE reads Active, and RETTIME the time from the wake to FWRDY (R437). -/
def returned (s : State) : State :=
  let us := min (2 ^ 32 - 1) ((s.clock - s.ps.wakeAt) / 1000)
  let t := (enterState 0 (s.wrs [(PST_RETTIME_LAST, us), (SYS_STAGE_STAGE, 1)])).setPs {}
  { t with sv := { t.sv with stood := false } }

/-- The logic step of a return from Rest: the domains are released and the firmware restarts from retention. -/
def restLogic (s : State) : State :=
  let t := returned (firmwareUp { s with bt := { s.bt with released := 18 } })
  let t := trainPorts t
  if t.on CFG_STATUS_LOADED then startSettle t else t

/-- RETURN_STEP (R437): the ready signal of the step that runs has risen. From Dormant the regulator's is CORE_PG, there is no memory step,
and the logic's is the FWRDY of Sapling. -/
def execReturnStep (s : State) : Host.Outcome State Fault Refusal :=
  let x := s.ps
  if s.rd PST_PSSTAT_PHASE ≠ 3 then .next s
  else if s.rd PST_PSSTAT_STATE = 3 then
    match x.step with
    | 1 => .next (setDuty (avsDuty s) (s.setPs { x with step := 2 }))
    | 2 => .next (s.setPs { x with step := 3 })
    | 3 => .next { (s.setPs { x with step := 4 }) with pw := { s.pw with stopped := false } }
    | _ => .next (restLogic s)
  else
    match x.step with
    | 1 => .next (if s.bt.corePg then { (s.setPs { x with step := 2 }) with bt := { s.bt with t0 := s.clock } } else s)
    | 2 => .next { (s.setPs { x with step := 4 }) with bt := { s.bt with refLock := true } }
    | _ => .next (if s.on SYS_STAGE_FWRDY then returned s else s)

/-- RETURN_TIMEOUT (R437): the hub goes back to the state it left. -/
def execReturnTimeout (s : State) : Host.Outcome State Fault Refusal :=
  if s.rd PST_PSSTAT_PHASE ≠ 3 then .next s
  else
    let t := showIndicator (raise 16 2 ((s.wrs [(PST_PSSTAT_PHASE, 0), (SYS_STAGE_FWRDY, 0)]).setPs {}))
    if t.rd PST_PSSTAT_STATE = 3 then .next (gateRest t)
    else
      let t := forAll (List.range 32) clearSlot t
      let b : Boot := { t.bt with released := min 1 t.bt.released, coreEn := false, corePg := false, refLock := false, trained := false }
      .next (({ t with bt := b }).emit (.pin "CORE_EN" 0 false))

/-! ### Buttons and links (R429, R438) -/

/-- EVT_e has the button function. -/
def isButton (s : State) (e : Nat) : Bool := !p46Stopped s && (evtFn s e = 0x30 || evtFn s e = 0x31)

/-- BUTTON (R438). -/
def execButton (e : BtnPort) (s : State) : Host.Outcome State Fault Refusal :=
  let k := e.val
  if !isButton s k then .next s
  else if 3 ≤ s.rd PST_PSSTAT_STATE then .next (if wakeEnabled s (4 + k) then wakeUp (4 + k) s else s)
  else
    let t := raise 16 3 s
    .next (if t.rd PST_PSSTAT_PHASE ≠ 0 ∧ wakeEnabled t (4 + k) then wakeUp (4 + k) t else t)

/-- LINK_IDLE (R429): in Drowse, and in Doze where the port stays up, a PCIe or USB 3 link that has been idle for IDLE enters a low-power
state. A Canopy link keeps every pair running and an Ethernet link stays up. -/
def execLinkIdle (port : Port) (s : State) : Host.Outcome State Fault Refusal :=
  let p := port.val
  let st := s.rd PST_PSSTAT_STATE
  let k := s.rd (ADP_STAT_PERS p)
  .next (if (st = 1 ∨ st = 2) ∧ s.rd (ADP_STAT_STATE p) = 2 ∧ (k = 1 ∨ persUsb k) then s.wr (ADP_STAT_STATE p) 3 else s)

end Sys2Proof.Machine
end

