-- ==== Sys2Proof/Machine/Loader.lean ====
section
/-! DEFINITION. The image loader (R47 to R68): the load in Sapling, CHECK and ADVANCE, and slice reload. -/

namespace Sys2Proof.Machine

/-! ### The load (R47 to R53) -/

/-- Record a copy's result code (R63, R64). -/
def setRes (copyB : Bool) (code : Nat) (s : State) : State := s.wr (if copyB then CFG_STATUS_RESB else CFG_STATUS_RESA) code

/-- The image key of an encrypted copy goes into KS1 while the copy is streamed (R48, R489). -/
def holdKey (copyB : Bool) (s : State) : State :=
  let h := copyHeader s copyB
  if bit (leAt h 0x18 4) 0 then (match imageKey s h with | some k => setSlot 1 2 0 k.length 0 k s | none => s) else s

/-- Start to stream a copy. -/
def startStream (copyB other second : Bool) (s : State) : State :=
  let t := holdKey copyB s
  { t with ld := { t.ld with doing := .streaming copyB other second } }

/-- Neither copy loads (R51). -/
def loadHold (s : State) : State := checkSapling (imageHold (dropKey s))

/-- The code of a copy's header and signature block: a read error met there before the load is 0xF (R47). -/
def headerResult (s : State) (copyB : Bool) : Nat := if (if copyB then s.ld.headB else s.ld.headA) then 0xF else headerCode s copyB

/-- IMAGE_LOAD (R50, R53): both headers are read and the candidates ordered. A copy that passes steps 1 to 5 reports 0 until it
is streamed. A vault on hold or halt loads nothing (R504). -/
def execImageLoad (s : State) : Host.Outcome State Fault Refusal :=
  if !s.on SYS_STAGE_FWRDY ∨ !engineRuns s ∨ s.on CFG_STATUS_LOADED ∨ s.on CFG_STATUS_HOLD ∨ s.ld.doing ≠ .idle then .next s
  else if s.on KEY_VAULT_STHOLD ∨ s.on KEY_VAULT_HALT then .next (loadHold s)
  else
    let a := headerResult s false
    let b := headerResult s true
    let t := setRes true (if b = 1 then 0 else b) (setRes false (if a = 1 then 0 else a) s)
    let t := { t with ld := { t.ld with headA := false, headB := false } }
    if a ≠ 1 ∧ b ≠ 1 then .next (loadHold t)
    else .next (startStream (b = 1 && (a ≠ 1 || preferB s (copyBase false) (copyBase true))) (a = 1 && b = 1) false t)

/-- A field lies in a grove's or a lane cell's range. -/
def groveScoped (f : Fld) : Bool :=
  let a := f.key / 8
  (0x100000 ≤ a && a < 0x190000) || (0x200000 ≤ a && a < 0x220000)

/-- Give fields the values that the image gives them; those of power-on-reset reach once after a POR (R10). -/
def giveFields (l : List (Fld × Nat)) (s : State) : State := s.wrs (l.filter fun e => !(s.ld.porApplied && e.1.reach = .POR))

/-- CFG_SERIAL, CFG_DIGEST and SVN report an image, as do COPY and ENC (R57, R63, R65). -/
def showImage (copyB : Bool) (im : Image) (s : State) : State :=
  (s.wrs [(CFG_STATUS_COPY, b2n copyB), (CFG_STATUS_ENC, b2n im.enc), (CFG_STATUS_SVN, im.svn), (CFG_SERIAL_SERIAL, im.serial)]).wrs
    ((List.range 12).map fun n => (CFG_DIGEST_DIGEST n, leAt im.digest (4 * n) 4))

/-- A verified image goes into the image store and its chip-scoped sections are applied; the steward can then lease (R48, R54, R477). -/
def takeImage (copyB second : Bool) (im : Image) (s : State) : State :=
  let t := showImage copyB im (dropKey s)
  let t := { (t.setB CFG_STATUS_FALLBK second) with ld := { t.ld with doing := .configuring, image := some im } }
  let t := giveFields ((imageFields im).filter fun e => !groveScoped e.1) t
  applyPins (recomputeLeases { t with ld := { t.ld with porApplied := true } })

/-- A streamed copy fails: the other candidate is streamed, if it is left, or the hub holds (R50, R51). -/
def loadFailed (copyB other : Bool) (code : Nat) (s : State) : State :=
  let t := setRes copyB code (dropKey s)
  if other then startStream (!copyB) false true t else loadHold t

/-- IMAGE_STREAM_COMPLETE (R47): the verdict on steps 6 to 10. -/
def execImageStreamComplete (s : State) : Host.Outcome State Fault Refusal :=
  match s.ld.doing with
  | .streaming copyB other second =>
    match streamCode s copyB with
    | (_, some im) => .next (takeImage copyB second im (setRes copyB 1 s))
    | (code, none) => .next (loadFailed copyB other code s)
  | _ => .next s

/-! ### Slice reload (R55 to R62) -/

/-- A reload is refused with a cause (R55, R67). -/
def rejectReload (cause : Nat) (s : State) : State := s.wrs [(CFG_RLDST_REJ, 1), (CFG_RLDST_CAUSE, cause)]

/-- A reload ends: BUSY clears and the lock ends (R58). -/
def endReload (s : State) : State :=
  let t := dropKey (s.wr CFG_RLDST_BUSY 0)
  { t with ld := { t.ld with reload := none, lock := none } }

/-- The causes that a write of GO finds. R55 lists them without an order: where several apply, busy comes first and the others in the order of R55
(DESIGN CHOICE, log entry 37). -/
def reloadCause (s : State) (g : Nat) : Nat :=
  if s.on CFG_RLDST_BUSY then 3
  else if !s.on CFG_STATUS_LOADED then 0xA
  else if fuseFault s || !bit (s.rd FUSE_RLD_V) g then 1
  else if !grovePresent (variant s) g then 7
  else if gfFor s = some g then 2
  else 0

/-- A write to CFG_RELOAD (R55, R58, R67): the staged copy is the one that is not running. A GO written with a reserved GROVE starts a reload of
the grove that the field still holds (DESIGN CHOICE, log entry 103), and a GO while a CHECK runs is taken (DESIGN CHOICE, log entry 104). -/
def wrReload (v : Nat) (s : State) : State :=
  let t := wrField 0x40044 CFG_RELOAD_GROVE (bits v 3 0) s
  let g := t.rd CFG_RELOAD_GROVE
  let c := reloadCause t g
  if !bit v 31 then t
  else if c ≠ 0 then rejectReload c t
  else
    let b := !t.on CFG_STATUS_COPY
    let t := holdKey b (t.wrs [(CFG_RLDST_BUSY, 1), (CFG_RLDST_CAUSE, 0)])
    { t with ld := { t.ld with reload := some { grove := g, copyB := b, committed := false, ports := [] }, lock := some g } }

/-- The cause of a refusal once the staged copy has been streamed, 0 for none (R55). -/
def stagedCause (old : Image) (code : Nat) (im : Option Image) (g : Nat) : Nat :=
  match im with
  | none => 4
  | some new => if code ≠ 1 then 4 else if differsOutside old new g then 5 else if 262144 < sliceLength new g then 6 else 0

/-- Clamp one enveloped field to its nearer bound (R57). -/
def clampField (r : Bytes) (s : State) : State :=
  let a := leAt r 0 4
  match decodeAddr a with
  | none => s
  | some (id, i, j) =>
    match (regFields id i j).find? fun f => leAt r 4 4 = (2 ^ f.w - 1) * 2 ^ f.pos with
    | none => s
    | some f =>
      let x := s.rd f
      let y := max (leAt r 8 4) (min (leAt r 12 4) x)
      if x = y then s else envEvent CFG_ENVERR_CLAMP a (s.wr f y)

/-- Fields outside the new envelopes of slice `g` are clamped (R57). -/
def clampSlice (g : Nat) (im : Image) (s : State) : State :=
  forAll ((im.recs 5 16).filter fun r => r.1 = g) (fun r t => clampField r.2 t) s

/-- A new CAL overhead waits for the next swap, as a write to OVH does (R57, R190). -/
def newOverhead (old im : Image) (p : Nat) (s : State) : State :=
  match im.cal p with
  | none => s
  | some r =>
    if old.cal p = some r then s
    else
      let keep := ovhOf s p
      let t := s.wr (GRV_CALCTL_OVH p) (leAt r 4 2)
      { t with sc := { t.sc with ovh := mins t.sc.ovh p keep } }

/-- The commit (R57): the image store holds the staged image; the changed ports of a structural reload go down. FALLBK, of which R57 says
nothing, is left as it was (DESIGN CHOICE, log entry 105). -/
def commitReload (r : Reload) (old im : Image) (s : State) : State :=
  let ch := changedPorts old im r.grove
  let t := showImage r.copyB im (dropKey s)
  let t := structuralEvent { (t.wr CFG_RLDST_DONE 1) with ld := { t.ld with image := some im } }
  let t := clampSlice r.grove im t
  let t := forAll (grovePorts r.grove) (newOverhead old im) t
  if ch.isEmpty then endReload t
  else
    let t := t.wr CFG_RLDST_PORTS ((ch.map fun p => 2 ^ portPlace p).sum)
    let t := attachEvent (forAll ch (fun p u => portDown p 5 u) t)
    { t with ld := { t.ld with reload := some { r with committed := true, ports := ch } } }

/-- SLICE_RELOAD_COMMIT (R55 to R57): the staged copy has been streamed and is judged. -/
def execSliceReloadCommit (s : State) : Host.Outcome State Fault Refusal :=
  match s.ld.reload, s.ld.image with
  | some r, some old =>
    if r.committed then .next s
    else
      let h := headerCode s r.copyB
      let v := if h = 1 then streamCode s r.copyB else (h, none)
      let t := setRes r.copyB v.1 s
      let c := stagedCause old v.1 v.2 r.grove
      match v.2 with
      | some im => .next (if c = 0 then commitReload r old im t else rejectReload c (endReload t))
      | none => .next (rejectReload 4 (endReload t))
  | _, _ => .next s

/-- The fields of a changed port and of its lane cells that the new records give: the CAL record goes into the active bank. -/
def changedFields (s : State) (im : Image) (p : Nat) : List (Fld × Nat) :=
  let cells := (List.range 32).filter fun c => im.owner c = p
  let lane := (imageFields im).filter fun e => cells.any fun c => 0x200000 + 0x1000 * c ≤ e.1.key / 8 && e.1.key / 8 < 0x201000 + 0x1000 * c
  match im.cal p with
  | none => lane
  | some r =>
    let a := s.rd (GRV_CALST_BANK p) = 0
    lane ++ [(GRV_CALCTL_MODE p, byteAt r 2), (if a then GRV_CALCTL_LASTA p else GRV_CALCTL_LASTB p, byteAt r 1 - 1), (GRV_CALCTL_OVH p, leAt r 4 2)] ++
      (List.range 64).map fun e => (if a then GRV_CALA_ENTRY p e else GRV_CALB_ENTRY p e, leAt r (8 + 4 * e) 4)

/-- A changed port is set up from the new records and starts detection or training (R16, R39, R57). -/
def setUpPort (im : Image) (p : Nat) (s : State) : State :=
  let t := s.wrs (changedFields s im p)
  let t := { t with sc := { t.sc with ovh := mdel t.sc.ovh p } }
  if !configured t p then t
  else if p < 8 ∧ (2 ≤ p ∨ isDown t p) then (if asSource t p then enterChosen p t else t)
  else if retrainBlocked t p then t else startTraining p t

/-- RELOAD_RECONFIG_COMPLETE (R58): every changed port has been set up; a pipe's route follows the new flex groups (R279). -/
def execReloadReconfigComplete (s : State) : Host.Outcome State Fault Refusal :=
  match s.ld.reload, s.ld.image with
  | some r, some im =>
    if !r.committed then .next s
    else
      let routes := (List.range 4).flatMap fun d => [(PIPE_ROUTE_VALID d, b2n (effectiveRoute im d).isSome), (PIPE_ROUTE_PORT d, (effectiveRoute im d).getD 0)]
      .next (endReload (forAll r.ports (setUpPort im) (s.wrs routes)))
  | _, _ => .next s

/-! ### Read errors (R47, R50) -/

/-- A read error in a slice reload's staged copy: the copy fails (R55). -/
def reloadReadError (copyB : Bool) (s : State) : State := rejectReload 4 (endReload (setRes copyB 0xF s))

/-- FLASH_READ_ERROR (R47): while a copy streams, for a load, a reload or a CHECK; before a load, in its header or signature block. -/
def execFlashReadError (copyB : Bool) (s : State) : Host.Outcome State Fault Refusal :=
  match s.ld.doing with
  | .streaming b other _ => .next (if b = copyB then loadFailed copyB other 0xF s else s)
  | _ =>
    match s.ld.reload, s.ld.check with
    | some r, _ => .next (if !r.committed ∧ r.copyB = copyB then reloadReadError copyB s else s)
    | none, some (a, b) => .next { s with ld := { s.ld with check := some (a || !copyB, b || copyB) } }
    | none, none => .next (if s.on CFG_STATUS_LOADED ∨ s.on CFG_STATUS_HOLD ∨ s.ld.doing ≠ .idle ∨ !s.on SYS_STAGE_FWRDY then s
        else { s with ld := { s.ld with headA := s.ld.headA || !copyB, headB := s.ld.headB || copyB } })

/-! ### Configuration (R53, R54) -/

/-- R453 keeps the groves unconfigured: the hub runs from a crown port whose FLAGS bit 1 is clear and no feed is qualified. -/
def startDenied (s : State) : Bool :=
  s.rd PP_FEED_ACTIVE = 3 && !anyFeed s &&
    (match crownSink s with | none => false | some p => !(match portRecord s p with | none => false | some r => bit (byteAt r 5) 1))

/-- Deny the start (R453). -/
def denyStart (s : State) : State := if s.on PD_GLOB_DBDENY then s else raise 18 8 (s.wr PD_GLOB_DBDENY 1)

/-- The lead's nominal line period as the image gives the virtual raster (R178). -/
def startRaster (s : State) : State :=
  { s with sc := { s.sc with lineps := match sourceGeometry s 9 with | none => 0 | some g => g.2 } }

/-- Configure the groves (R53, R54): their sections are applied, LOADED is set, the ports start detection, and the settle timer starts (R408). -/
def configureHub (im : Image) (s : State) : State :=
  let t := giveFields ((imageFields im).filter fun e => groveScoped e.1) (s.wr PD_GLOB_DBDENY 0)
  let t := { t with ld := { t.ld with doing := .idle } }
  let t := startRaster (t.wrs [(CFG_STATUS_LOADED, 1), (PST_CUSE_GRANTED, baseMw t)])
  structuralEvent (checkSapling (trainPorts (copyNotices t)))

/-- IMAGE_CONFIG_COMPLETE (R53, R394, R453, R481): the self-tests of groves that are due come first; a denied start and a budget below
BASE leave the groves unconfigured until the command comes again. -/
def execImageConfigComplete (s : State) : Host.Outcome State Fault Refusal :=
  match s.ld.doing, s.ld.image with
  | .configuring, some im =>
    if !s.bt.retest.isEmpty then .next s
    else if startDenied s then .next (denyStart s)
    else if beff s < baseMw s then .next (updateExt s)
    else .next (configureHub im s)
  | _, _ => .next s

/-! ### CHECK and ADVANCE (R49, R62, R66) -/

/-- ADVANCE (R49): the counter rises to the lower of the running image's SVN and the running firmware's. The CRC word of the array is
taken to be programmed with it. -/
def advance (s : State) : State :=
  if !s.on CFG_STATUS_LOADED ∨ s.rd SYS_STAGE_STAGE ≠ 2 ∨ s.on CFG_STATUS_FALLBK then s
  else
    let new := min (s.rd CFG_STATUS_SVN) (svnSerial s (firmwareBase (s.on RST_BOOT_FWCOPY))).1
    if new ≤ bits (s.rd FUSE_ARB_V) 5 0 then s
    else
      let w := s.rd FUSE_ARB_V / 64 * 64 + new
      let t := { s with otp := mput 0 s.otp 0x104 w }
      let c := fuseCrc t []
      ({ t with otp := mput 0 t.otp 0x200 c }).wrs [(FUSE_ARB_V, w), (FUSE_CRC_V, c)]

/-- A write to CFG_CTL (R62, R66): CHECK is ignored while a reload is busy, and while a CHECK runs (DESIGN CHOICE, log entry 104); ADVANCE
clears when done or refused. -/
def wrCfgCtl (v : Nat) (s : State) : State :=
  let t := if bit v 2 ∧ !s.on CFG_RLDST_BUSY ∧ s.ld.check.isNone then
    holdKey false (holdKey true { (s.wr CFG_CTL_CHECK 1) with ld := { s.ld with check := some (false, false) } }) else s
  if bit v 1 then advance t else t

/-- CHECK_COMPLETE (R66): both copies have been streamed in full, copy A first. -/
def execCheckComplete (s : State) : Host.Outcome State Fault Refusal :=
  match s.ld.check with
  | none => .next s
  | some (a, b) =>
    let ca := if a then 0xF else copyCode s false
    let cb := if b then 0xF else copyCode s true
    .next (dropKey (stopCheck (setRes true cb (setRes false ca s))))

end Sys2Proof.Machine
end

