-- ==== Sys2Proof/Machine/Allot.lean ====
section
/-! DEFINITION. The solver's arithmetic (R109 to R114, R133, R134, R245, R474, R475): floors and mode steps, degradation and refusal,
the max-min distribution, and the express map. It deals only in integers and visits requests only in canonical order. -/

namespace Sys2Proof.Machine

/-- One request of a solve: its key (R93) and its place in the tunnel table, its class, limits by direction (downstream, upstream), what
its partner asks, the partner's link, the reference rates, and what the solve decides: cause (0 while admitted), step, allotments. -/
structure SReq where
  port : Nat
  kind : Nat
  index : Nat
  num : Nat
  home : Nat
  crown : Nat
  casc : Bool
  cls : Nat
  pipe : Option Nat
  floor : Nat × Nat
  ceil : Nat × Nat
  ask : PReq
  link : Partner
  ref : Nat × Nat
  /-- Its steps set the port's own link: not inside a USB4 or Canopy link (R474). -/
  imposes : Bool
  /-- Mb/s that a DisplayPort output's trained link carries where it cannot carry step 0, else none (R313). -/
  outLink : Option Nat
  hubs : Nat
  cause : Nat := 0
  step : Nat := 0
  a : Nat × Nat := (0, 0)
deriving DecidableEq, Repr

/-- What a solve takes from elsewhere: PCORE by port, the core direction's capacity, and the pairs of positions that take one more
colour (R133, R475). -/
structure SEnv where
  pcore : List Nat
  coreCap : Nat
  extra : List Nat
deriving DecidableEq, Repr

/-- Admitted so far. -/
def SReq.ok (r : SReq) : Bool := r.cause = 0

/-! ### Mode steps (R112) -/

/-- Bits per pixel times 16 of a stream at a step. -/
def stepBpp (q : PReq) (st : Nat) : Nat := if st = 0 then q.bpp16 else if st = 1 then 192 else 128

/-- A stream's payload rate at a step, in 1/16 b/s. -/
def stepRate16 (q : PReq) (st : Nat) : Nat := q.pixRate * stepBpp q st + 16 * q.sdpRate

/-- Whether a request can take a step at all. -/
def takes (r : SReq) (st : Nat) : Bool :=
  match r.kind with
  | 0 => (st = 1 || st = 2) && r.ask.dscOk && (!r.ask.dscIn || stepBpp r.ask st < r.ask.bpp16) &&
      (match r.outLink with | none => true | some m => stepRate16 r.ask st ≤ 16000000 * m)
  | 1 => 1 ≤ st && st ≤ 3
  | 2 => st = 1
  | _ => false

/-- Mb/s of a lane by rate code (R274). -/
def laneMbps (code : Nat) : Nat :=
  match code with
  | 1 => 2500 | 4 => 5000 | 6 => 8000 | 8 => 10000 | 0xB => 16000 | 0xF => 32000 | _ => 0

/-- Lanes and lane rate at a step of a link that trained to `w` lanes of `g` Mb/s (R112). -/
def linkStep (kind st w g : Nat) : Nat × Nat :=
  match kind with
  | 1 => (match st with | 0 => (w, g) | 1 => (max 1 (w / 2), g) | 2 => (1, g) | _ => (1, min g 8000))
  | 2 => if st = 0 then (w, g) else (1, g)
  | _ => (w, g)

/-- Lanes and lane rate of the port's link at a step. -/
def linkAt (r : SReq) (st : Nat) : Nat × Nat := linkStep r.kind st r.link.width (laneMbps r.link.rate)

/-- A partner port's payload rate at the request's step. -/
def partRate (r : SReq) (full : Nat) : Nat :=
  let l0 := linkAt r 0
  let l := linkAt r r.step
  if !r.imposes ∨ r.step = 0 ∨ l0.1 * l0.2 = 0 then full else full * (l.1 * l.2) / (l0.1 * l0.2)

/-- The floors of a request at its step (R111): a DisplayPort stream's downstream floor is what its mode needs. -/
def floorsAt (r : SReq) : Nat × Nat :=
  if r.kind = 0 then (ceilDiv (stepRate16 r.ask r.step * 1024) (16000000 * r.ref.1), r.floor.2) else r.floor

/-- A request at a step, its allotments at their floors. -/
def SReq.atStep (r : SReq) (st : Nat) : SReq :=
  let q := { r with step := st }
  { q with a := floorsAt q }

/-! ### Directions

Link directions are 0 and 1, crown receive; 2 and 3, crown transmit; 10 + p, partner transmit; 40 + p, partner receive. Position
directions are 100 + i in the role of input and 130 + o in the role of output. The core direction is 200. -/

/-- What a request charges on link directions (R109, R110). -/
def linkCharges (r : SReq) : List (Nat × Nat) :=
  [(r.crown, r.a.1), (2 + r.crown, r.a.2), (10 + r.port, ceilDiv (r.a.1 * r.ref.1) (partRate r r.link.txMbps)),
   (40 + r.port, ceilDiv (r.a.2 * r.ref.2) (partRate r r.link.rxMbps))]

/-- The class takes the express path (R130). -/
def expressCls (c : Nat) : Bool := c = 0 || c = 1 || c = 4

/-- The pairs of positions that a request's express tunnels cross, keyed 20 * i + o, with allotment times reference rate (R133). Time tunnels
pass F19. -/
def pairWeights (r : SReq) : List (Nat × Nat) :=
  let c := fabOf r.crown
  let p := fabOf r.port
  let d := r.a.1 * r.ref.1
  let u := r.a.2 * r.ref.2
  if !expressCls r.cls then []
  else if r.kind = 4 then [(20 * c + 19, d), (20 * 19 + p, d), (20 * p + 19, u), (20 * 19 + c, u)]
  else [(20 * c + p, d), (20 * p + c, u)]

/-- Add to a map of numbers. -/
def addAt (m : NMap Nat) (k v : Nat) : NMap Nat := mput 0 m k (mget 0 m k + v)

/-- Sum a list of charges by key. -/
def tally (l : List (Nat × Nat)) : NMap Nat := l.foldl (fun m e => addAt m e.1 e.2) []

/-- The colour demand X (R133). -/
def colourDemand (env : SEnv) (rs : List SReq) : NMap Nat :=
  let w := tally ((rs.filter (·.ok)).flatMap pairWeights)
  env.extra.foldl (fun m k => addAt m k 1) (w.map fun e => (e.1, ceilDiv e.2 14745600))

/-- A port's core charge (R474): at the smallest lane count and the lowest rate that its admitted requests' steps impose. -/
def coreCharge (env : SEnv) (rs : List SReq) (p : Nat) : Nat :=
  let l := rs.filter fun r => r.ok && r.port = p
  match l with
  | [] => 0
  | r0 :: _ =>
    let l0 := linkAt r0 0
    let set := (l.filter fun r => r.imposes && 1 ≤ r.step).map fun r => linkAt r r.step
    let lanes := set.foldl (fun m e => min m e.1) l0.1
    let rate := set.foldl (fun m e => min m e.2) l0.2
    let pc := env.pcore.getD p 0
    if l0.1 * l0.2 = 0 then pc else ceilDiv (pc * (lanes * rate)) (l0.1 * l0.2)

/-- The charges of every port. -/
def coreTotal (env : SEnv) (rs : List SReq) : Nat := ((List.range 20).map (coreCharge env rs)).sum

/-- What stands on every direction. -/
def totals (env : SEnv) (rs : List SReq) : NMap Nat :=
  let links := (rs.filter (·.ok)).flatMap linkCharges
  let x := colourDemand env rs
  tally (links ++ x.flatMap (fun e => [(100 + e.1 / 20, e.2), (130 + e.1 % 20, e.2)]) ++ [(200, coreTotal env rs)])

/-- A direction's capacity (R110, R133, R475). -/
def capOf (env : SEnv) (d : Nat) : Nat := if d < 100 then 1000 else if d < 200 then 20 else env.coreCap

/-- The oversubscribed directions. -/
def oversubscribed (env : SEnv) (rs : List SReq) : List Nat :=
  ((totals env rs).filter fun e => capOf env e.1 < e.2).map (·.1)

/-- The directions that a request crosses at its floors (R113). -/
def crossed' (env : SEnv) (rs : List SReq) (r : SReq) : List Nat :=
  (((linkCharges r).filter fun e => 1 ≤ e.2).map (·.1)) ++
  (((pairWeights r).filter fun e => 1 ≤ e.2).flatMap fun e => [100 + e.1 / 20, 130 + e.1 % 20]) ++
  (if 1 ≤ coreCharge env rs r.port then [200] else [])

/-- The request crosses an oversubscribed direction. -/
def hits (env : SEnv) (rs : List SReq) (r : SReq) (ov : List Nat) : Bool := r.ok && (crossed' env rs r).any ov.contains

/-! ### Order of work (R113, R114) -/

/-- Take the next step of request `i` that it can take and that lowers a charge on an oversubscribed direction (R112). -/
def stepOnce (env : SEnv) (rs : List SReq) (i : Nat) : Option (List SReq) :=
  match rs[i]? with
  | none => none
  | some r =>
    let ov := oversubscribed env rs
    let before := totals env rs
    if !hits env rs r ov then none
    else
      [1, 2, 3].findSome? fun st =>
        if st ≤ r.step ∨ !takes r st then none
        else
          let next := rs.set i (r.atStep st)
          let after := totals env next
          if ov.any fun d => mget 0 after d < mget 0 before d then some next else none

/-- One pass of the degradation loop, and whether it changed anything and has to go on. -/
def degradePass (env : SEnv) : List Nat → List SReq → Bool → List SReq × Bool
  | [], rs, changed => (rs, changed)
  | i :: is, rs, changed =>
    match stepOnce env rs i with
    | none => degradePass env is rs changed
    | some next => if (oversubscribed env next).isEmpty then (next, false) else degradePass env is next true

/-- The degradation loop; every pass that goes on has taken a step, so `fuel` of three steps a request is enough. -/
def degrade (env : SEnv) : Nat → List SReq → List SReq
  | 0, rs => rs
  | fuel + 1, rs =>
    if (oversubscribed env rs).isEmpty then rs
    else
      match degradePass env (List.range rs.length).reverse rs false with
      | (next, true) => degrade env fuel next
      | (next, false) => next

/-- Refuse the last request in canonical order that crosses an oversubscribed direction, with cause 2. -/
def refuseLoop (env : SEnv) : Nat → List SReq → List SReq
  | 0, rs => rs
  | fuel + 1, rs =>
    let ov := oversubscribed env rs
    if ov.isEmpty then rs
    else
      match (List.range rs.length).reverse.find? fun i => (rs[i]?).any fun r => hits env rs r ov with
      | none => rs
      | some i => refuseLoop env fuel (rs.mapIdx fun k r => if k = i then { r with cause := 2 } else r)

/-- One unit more for one tunnel of a request, if everything it crosses can take it. -/
def grow (env : SEnv) (rs : List SReq) (i : Nat) (up : Bool) : Option (List SReq) :=
  match rs[i]? with
  | none => none
  | some r =>
    let a := if up then (r.a.1, r.a.2 + 1) else (r.a.1 + 1, r.a.2)
    let past := if up then r.ceil.2 < a.2 else r.ceil.1 < a.1
    let next := rs.set i { r with a := a }
    let before := totals env rs
    let after := totals env next
    if past ∨ (after.any fun e => mget 0 before e.1 < e.2 && capOf env e.1 < e.2) then none else some next

/-- One round over the unfrozen tunnels: those that grew stay unfrozen. -/
def growRound (env : SEnv) : List (Nat × Bool) → List SReq → List (Nat × Bool) × List SReq
  | [], rs => ([], rs)
  | e :: es, rs =>
    match grow env rs e.1 e.2 with
    | none => growRound env es rs
    | some next => let r := growRound env es next; (e :: r.1, r.2)

/-- The rounds of a class; a tunnel grows at most 1,024 times. -/
def growClass (env : SEnv) : Nat → List (Nat × Bool) → List SReq → List SReq
  | 0, _, rs => rs
  | fuel + 1, l, rs =>
    if l.isEmpty then rs else (let r := growRound env l rs; growClass env fuel r.1 r.2)

/-- The unfrozen tunnels of a class: request by request, downstream before upstream. -/
def unfrozen (rs : List SReq) (c : Nat) : List (Nat × Bool) :=
  (List.range rs.length).flatMap fun i =>
    match rs[i]? with
    | none => []
    | some r => if r.ok ∧ r.cls = c then
        (if r.a.1 < r.ceil.1 then [(i, false)] else []) ++ (if r.a.2 < r.ceil.2 then [(i, true)] else []) else []

/-- Max-min fair by class, C1 then C2 then C3. -/
def distribute (env : SEnv) (rs : List SReq) : List SReq :=
  [1, 2, 3].foldl (fun q c => growClass env 1025 (unfrozen q c) q) rs

/-! ### Before the loops -/

/-- Drop children from the end of the order while the total exceeds five. -/
def dropHubs : List (Nat × Nat) → Nat → List Nat
  | [], _ => []
  | e :: es, total => if 5 < total then e.1 :: dropHubs es (total - e.2) else []

/-- The five-hub limit (R245): the ports whose children are refused, given each child's port and HUBS in canonical order. -/
def cascadeRefused (hubs : List (Nat × Nat)) : List Nat := dropHubs hubs.reverse (1 + (hubs.map (·.2)).sum)

/-- The step at which a request starts: 0, or for a stream whose output cannot carry step 0 the first it can take; none of them is
refusal (R313). -/
def startStep (r : SReq) : SReq :=
  if !r.ok then r
  else if r.kind = 0 ∧ r.outLink.isSome then
    (match [1, 2].find? (takes r) with | some st => r.atStep st | none => { r with cause := 2 })
  else r.atStep 0

/-- The solve: what it decides for every request. -/
def allot (env : SEnv) (rs : List SReq) : List SReq :=
  let start := rs.map startStep
  distribute env (refuseLoop env (rs.length + 1) (degrade env (3 * rs.length + 1) start))

/-- The core direction is oversubscribed as the loops begin (R487). -/
def coreOver (env : SEnv) (rs : List SReq) : Bool := (oversubscribed env (rs.map startStep)).contains 200

/-! ### The express map (R131 to R134) -/

/-- The ceiling demand: each C1 tunnel's ceiling in place of its allotment (R134). -/
def ceilingDemand (env : SEnv) (rs : List SReq) : NMap Nat :=
  colourDemand env (rs.map fun r => if r.cls = 1 then { r with a := r.ceil } else r)

/-- Colours in a row or a column. -/
def rowSum (x : NMap Nat) (i : Nat) : Nat := ((x.filter fun e => e.1 / 20 = i).map (·.2)).sum
def colSum (x : NMap Nat) (o : Nat) : Nat := ((x.filter fun e => e.1 % 20 = o).map (·.2)).sum

/-- One round of raising colours towards the ceilings. -/
def raiseRound (xc : NMap Nat) (x : NMap Nat) : NMap Nat :=
  xc.foldl (fun m e => if mget 0 m e.1 < e.2 ∧ rowSum m (e.1 / 20) < 20 ∧ colSum m (e.1 % 20) < 20 then addAt m e.1 1 else m) x

/-- Rounds until one adds nothing; a row holds at most 20 colours. -/
def raiseColours (xc : NMap Nat) : Nat → NMap Nat → NMap Nat
  | 0, x => x
  | fuel + 1, x => let y := raiseRound xc x; if y = x then x else raiseColours xc fuel y

/-- A map of colours, keyed 20 * input + colour, gives every pair its colours and no colour twice to an output (R132). -/
def validColours (x m : NMap Nat) : Bool :=
  mwf 20 m && (m.all fun e => e.1 < 400 && e.2 < 20) &&
  ((List.range 400).all fun k => (m.filter fun e => e.1 / 20 = k / 20 && e.2 = k % 20).length = mget 0 x k) &&
  ((m.map fun e => 20 * (e.1 % 20) + e.2).Nodup)

/-- The first colour that input `i` does not use. -/
def freeAtRow (m : NMap Nat) (i : Nat) : Option Nat := (List.range 20).find? fun c => (mfind m (20 * i + c)).isNone

/-- The input that sends colour `c` to output `o`. -/
def rowOf (m : NMap Nat) (c o : Nat) : Option Nat := (List.range 20).find? fun i => mfind m (20 * i + c) = some o

/-- The first colour that output `o` does not use. -/
def freeAtCol (m : NMap Nat) (o : Nat) : Option Nat := (List.range 20).find? fun c => (rowOf m c o).isNone

/-- The entries of the chain of colours `a` and `b` that begins at output `o`. -/
def chain (m : NMap Nat) (a b : Nat) : Nat → Nat → List (Nat × Nat × Nat)
  | 0, _ => []
  | fuel + 1, o =>
    match rowOf m a o with
    | none => []
    | some i => (i, a, o) :: (match mfind m (20 * i + b) with | none => [] | some q => (i, b, q) :: chain m a b fuel q)

/-- Give a pair one more colour: one free at both ends, or after the chain that stands in the way has changed its two colours. -/
def addColour (m : NMap Nat) (i o : Nat) : NMap Nat :=
  match freeAtRow m i, freeAtCol m o with
  | some a, some b =>
    let l := chain m a b 20 o
    let m1 := l.foldl (fun q e => mdel q (20 * e.1 + e.2.1)) m
    let m2 := l.foldl (fun q e => mins q (20 * e.1 + (a + b - e.2.1)) e.2.2) m1
    mins m2 (20 * i + a) o
  | _, _ => m

/-- The model's own colouring of a demand: pair by pair, ascending. -/
def ownColours (x : NMap Nat) : NMap Nat :=
  x.foldl (fun m e => (List.range e.2).foldl (fun q _ => addColour q (e.1 / 20) (e.1 % 20)) m) []

/-- The map that the firmware commits: a valid one; which, the spec leaves to its algorithm (R134). -/
def chooseColours (x : NMap Nat) : NMap Nat :=
  let m := Config.expressMap x
  if validColours x m then m else ownColours x

/-- Word `n` of a map bank (R150): five phases of one input. -/
def mapWord (m : NMap Nat) (n : Nat) : Nat :=
  ((List.range 5).map fun e =>
    let t := 5 * (n % 4) + e
    match mfind m (20 * (n / 4) + (n / 4 + t) % 20) with
    | none => 0
    | some o => (32 + o) * 2 ^ (6 * e)).sum

end Sys2Proof.Machine
end

