-- ==== Sys2Proof/Machine/Calendar.lean ====
section
/-! DEFINITION. The calendars that the firmware builds after a solve, and the grant leads of the pipes (R191, R192). -/

namespace Sys2Proof.Machine

/-- A tunnel that leaves by a port: its class, its charge there, and the request whose downstream stream it carries, if it is one. -/
structure Leaving where
  cls : Nat
  charge : Nat
  stream : Option SReq
deriving DecidableEq, Repr

/-- The admitted tunnels that leave by port `e`. -/
def leaving (rs : List SReq) (e : Nat) : List Leaving :=
  (rs.filter (·.ok)).flatMap fun r =>
    (if r.port = e then [{ cls := r.cls, charge := ceilDiv (r.a.1 * r.ref.1) (partRate r r.link.txMbps)
                           stream := if r.cls = 0 ∧ r.kind ≠ 4 then some r else none }] else []) ++
    (if r.crown = e then [{ cls := r.cls, charge := r.a.2, stream := none }] else [])

/-- Transmit time in ns of the longest C2 or C3 unit of a port (R189 to R191), with the OVH and MAXFRM that the swap brings into force. -/
def tLong (s : State) (e : Nat) : Nat :=
  let u := worstUnit s e (s.rd (GRV_CALCTL_OVH e)) (s.rd (ADP_ETHCTL_MAXFRM e))
  txTime u.1 u.2.1 u.2.2

/-- A port is short (R191). -/
def isShort (s : State) (e : Nat) : Bool := tLong s e ≤ 160

/-- Picoseconds of a 128-byte segment at a port (R190, R192). -/
def segPs (s : State) (e : Nat) : Nat := ceilDiv (128 * btOf s e) 16

/-- The attributes of a pipe's stream as the hub knows them: those waiting, else the adopted ones. -/
def pipeAttrs (s : State) (d : Nat) : Option Bytes := match (s.pipe d).next with | some a => some a | none => (s.pipe d).attrs

/-- S_d, segments per active line, and T_d in ps of a pipe's stream (R192). -/
def pipeLoad (a : Bytes) : Nat × Nat := (ceilDiv (unitBytes a) 120, aHTotal a * 1000000000 / aPclk a)

/-- A stream as R192 sizes it: segments per active line, its line period in ps, whether it is locked to this hub's lead raster, and the cycles in
ps of the other hubs on its path, 0 for one that it is locked to. -/
structure Stream where
  seg : Nat
  td : Nat
  locked : Bool
  others : List Nat
deriving DecidableEq, Repr

/-- The identity of the partner at a port. -/
def identOf (s : State) (p : Nat) : Nat := match mfind s.sv.att p with | none => 0 | some q => q.ident

/-- The figures of a request's stream: of a pipe of this hub, its attributes, and what lies above its crown port; of a child's pipe, and of a pipe
before its first attributes, what the hub is not told (log entry 51). -/
def streamOf (s : State) (r : SReq) : Stream :=
  let above := if hubAbove s r.crown then (Config.farStream (identOf s r.crown) (16 + r.pipe.getD 0)).2.2 else []
  match r.pipe.bind (pipeAttrs s) with
  | some a => { seg := (pipeLoad a).1, td := (pipeLoad a).2, locked := pipeLocked s (r.pipe.getD 0), others := above }
  | none =>
    let x := Config.farStream (identOf s r.port) r.index
    { seg := x.1, td := x.2.1, locked := false, others := x.2.2 ++ above }

/-- The smallest grant lead for a stream given the cycles on its path; a locked hub stands as 0 (R192). -/
def grantLead (td : Nat) (cycles : List Nat) : Option Nat :=
  if td = 0 then none
  else
    let k := max 2 (1 + ceilDiv (cycles.sum + 600000 * cycles.length) td)
    if k + (cycles.map fun c => ceilDiv c td).sum + 1 ≤ 16 then some k else none

/-- The cycles on a stream's path where this hub's is `tc`. -/
def pathCycles (x : Stream) (tc : Nat) : List Nat := (if x.locked then 0 else tc) :: x.others

/-- The divisor of the line that a stream asks for: the smallest that leaves it a grant lead (R191, R192). -/
def slipDivisor (x : Stream) (tl : Nat) : Nat :=
  if x.locked then 1 else ([1, 2, 4, 8, 16].find? fun m => (grantLead x.td (pathCycles x (tl / m))).isSome).getD 16

/-- The divisor at a port that carries C0 for pipes: that of its neediest stream. -/
def portDivisor (s : State) (tl : Nat) (l : List Leaving) : Nat :=
  ((l.filterMap (·.stream)).map fun r => slipDivisor (streamOf s r) tl).foldl max 1

/-- A stream's need in the express window (R192), in 1/262,144 ps, for a cycle of `cyc` 1/256 lines. -/
def streamNeed (s : State) (e tl cyc : Nat) (r : SReq) : Nat :=
  let x := streamOf s r
  if x.locked then x.seg * cyc * 1024 * segPs s e else (ceilDiv (x.seg * tl * cyc) (256 * x.td) + 1) * segPs s e * 262144

/-- The masks of the express window and of the glade: M, C3, C2, C1, C0 from bit 31 down (R185, R191). On a port that is not short the express
window opens the timed class that the port carries. -/
def expressMask (short : Bool) (c0 : Bool) : Nat := if short then 31 else if c0 then 17 else 18
def gladeMask (short : Bool) : Nat := if short then 30 else 28

/-- A calendar from its windows, each the mask and the start in 1/256 line, and its cycle; a one-frame cycle has no WRAP entry (R185, R191). -/
def windows (ws : List (Nat × Nat)) (cyc : Nat) (frame : Bool) : List Nat :=
  (ws.filter fun w => w.2 < cyc).map (fun w => w.1 * 2 ^ 27 + w.2) ++ (if frame then [] else [2 ^ 26 + cyc])

/-- The raster calendar of port `e` for a line period `tl` in ps and `total` lines (R191). On a port that is not short and carries C0 and C1, the
express window is cut into one for each, since R31 forbids one that opens both (R186; DEDUCED, log entry 15). -/
def rasterCalendar (s : State) (rs : List SReq) (tl total e : Nat) : List Nat :=
  let l := leaving rs e
  let short := isShort s e
  let c0 := l.any fun x => x.cls = 0
  let c1 := l.any fun x => x.cls = 1
  if !c0 ∧ (short ∨ !c1) ∨ tl = 0 then [31 * 2 ^ 27]
  else
    let pipes := l.any fun x => x.stream.isSome
    let lines := max 1 (ceilDiv (8 * tLong s e * 1000) tl)
    let frame := !pipes && total ≤ lines
    let cyc := if pipes then 256 / portDivisor s tl l else if frame then 256 * total else 256 * lines
    let n0 := ((l.filter fun x => x.cls = 0).map fun x =>
      match x.stream with | some r => streamNeed s e tl cyc r | none => x.charge * tl * cyc).sum
    let n1 := (((l.filter fun x => x.cls = 1).map (·.charge)).sum + 8) * tl * cyc
    let whole := 1024 * tl
    let w := ceilDiv (n0 + n1) whole
    if !short ∧ c0 ∧ c1 then
      let w0 := max 1 (min (ceilDiv n0 whole) (cyc - 1))
      windows [(expressMask short true, 0), (expressMask short false, w0), (gladeMask short, max w (w0 + 1))] cyc frame
    else windows [(expressMask short c0, 0), (gladeMask short, w)] cyc frame

/-- The list of a port: the firmware's own in raster mode, the image's in time mode (R191, R197). -/
def nextCalendar (s : State) (rs : List SReq) (tl total e : Nat) : List Nat :=
  match s.ld.image with
  | none => [31 * 2 ^ 27]
  | some im =>
    match im.cal e with
    | none => [31 * 2 ^ 27]
    | some r => if byteAt r 2 = 1 then calEntries r else rasterCalendar s rs tl total e

/-- Write a port's inactive bank: its entries and the index of the last (R201). -/
def writeBank (e : Nat) (es : List Nat) (s : State) : State :=
  let b := s.rd (GRV_CALST_BANK e)
  let t := s.wr (if b = 0 then GRV_CALCTL_LASTB e else GRV_CALCTL_LASTA e) (es.length - 1)
  forAll (List.range es.length) (fun k u => u.wr (if b = 0 then GRV_CALB_ENTRY e k else GRV_CALA_ENTRY e k) (es.getD k 0)) t

/-- A pipe's grant lead (R192): the smallest that its path allows with the cycle that the handoff takes; a stream pushed under USB4 counts 2. -/
def leadOf (s : State) (tl : Nat) (r : SReq) : Nat :=
  if s.rd (CAN_STAT_STATE r.crown) = 5 then 2
  else
    let x := streamOf s r
    let cycles := pathCycles x (tl / slipDivisor x tl)
    (grantLead x.td cycles).getD (Config.leadBeyond x.td cycles)

end Sys2Proof.Machine
end

