-- ==== Sys2Proof/Machine/Solver.lean ====
section
/-! DEFINITION. The settle epoch's end, the solve's commit and the table swap (R22 to R29, R95 to R100, R106, R113 to R117, R243 to
R245, R408, R476). -/

namespace Sys2Proof.Machine

/-! ### The end of the settle epoch (R23) -/

/-- SETTLE_TIMER_EXPIRY (R23, R24, R480): the firmware recomputes the leases, samples the attached set and starts to solve; once it has accepted a
power-state request it holds that off until the request ends (R433). -/
def execSettleTimerExpiry (s : State) : Host.Outcome State Fault Refusal :=
  if s.sv.tied then .next { s with sv := { s.sv with tied := false } }
  else if !s.on SYS_SETTLE_RUN ∨ !s.on SYS_STAGE_FWRDY ∨ !s.on CFG_STATUS_LOADED ∨ !engineRuns s ∨ holdsOff s 18 ∨ s.sv.sample.isSome ∨ s.sv.commit.isSome
  then .next s
  else
    let due := if settleDue s then some s.clock else none
    let t := (recomputeLeases s).wrs [(SYS_SETTLE_RUN, 0), (SYS_SETTLE_PEND, 0), (PST_SOLVE_BUSY, 1)]
    let g := sampleGeometry t
    .next { t with sv := { t.sv with sample := some t.sv.att, expired := due }
                   sc := { t.sc with sampled := g, changing := t.sc.changing && !(g.any fun x => x.1 = t.rd SCHED_LEAD_SRC) } }

/-! ### Requests (R93 to R99, R111) -/

/-- The entry stands for a request and takes writes, so that its limits count (R111, R123). -/
def ownsEntry (s : State) (n port kind index : Nat) : Bool :=
  entryLive s n && s.rd (TT_REQ_PORT n) = port && s.rd (TT_REQ_KIND n) = kind && s.rd (TT_REQ_INDEX n) = index

/-- A tunnel's floor and ceiling: its entry's, or the template's. -/
def limitsOf (s : State) (n port kind index : Nat) (d : Nat × Nat) : Nat × Nat :=
  if ownsEntry s n port kind index then (s.rd (TT_LIMIT_FLOOR n), s.rd (TT_LIMIT_CEIL n)) else d

/-- A port has a time role: a base follows its Canopy link's time, or an Ethernet port stands in some PTP domain (R44, R94). -/
def timeRole (s : State) (p : Nat) : Bool :=
  [1, 2, 3].any fun n => (canActive s p && s.rd (TIM_TBCTL_ROLE n) = 2 && s.rd (TIM_TBCTL_ARG n) = p) ||
    (isEthernet s p && s.rd (TIM_TBCTL_ROLE n) = 1)

/-- What a partner asks for a template: one of its own requests, or the Time request of a port with a time role. -/
def askFor (s : State) (t : Tmpl) (q : Partner) : Option PReq :=
  match q.reqs.find? fun x => x.kind = t.kind && x.index = t.index with
  | some x => some x
  | none => if t.kind = 4 ∧ timeRole s t.port then some { kind := 4, index := t.index } else none

/-- Assemble a request. -/
def mkReq (s : State) (att : NMap Partner) (t : Tmpl) (home index num crown cls : Nat) (casc : Bool) (lim : (Nat × Nat) × (Nat × Nat)) (ask : PReq)
    (q : Partner) : SReq :=
  let d := limitsOf s num t.port t.kind index lim.1
  let u := limitsOf s (num + 1) t.port t.kind index lim.2
  { port := t.port, kind := t.kind, index := index, num := num, home := home, crown := crown, casc := casc, cls := cls
    pipe := if t.kind = 0 then pipeOfPort s t.port else none
    floor := (d.1, u.1), ceil := (d.2, u.2), ask := ask, link := q, ref := refRates att crown
    imposes := !(t.port < 8 && (s.rd (CAN_STAT_STATE t.port) = 4 || s.rd (CAN_STAT_STATE t.port) = 5))
    outLink := if t.kind = 0 ∧ (s.adp t.port).noStep0 then some (dpLaneMbps (s.rd (ADP_STAT_RATE t.port)) * s.rd (ADP_STAT_WIDTH t.port)) else none
    hubs := q.hubs }

/-- The requests of one template (R94, R99); `base` is its home block, none past the last tunnel. A template without one gives tunnel
number 256, which no entry has. -/
def templateReqs (s : State) (att : NMap Partner) (t : Tmpl) (base : Option Nat) : List SReq :=
  match mfind att t.port, upstreamCrown s t.port with
  | some q, some c =>
    let b := base.getD 256
    if t.kind = 6 then
      (if canActive s t.port then (sortKey (fun x : ChildPair => (0, 0, x.k)) q.children).map fun x =>
        mkReq s att t b x.k (if x.k < 15 ∧ base.isSome then b + 2 + 2 * x.k else 256) c x.cls true
          (childLimits q x (refRates att c).1 (refRates att c).2) { kind := 6, index := x.k } q else [])
    else match askFor s t q with
      | none => []
      | some x => [mkReq s att t b t.index b c t.cls false ((t.floor, t.ceil), if t.kind = 0 then (1, 4) else (t.floor, t.ceil)) x q]
  | _, _ => []

/-- All requests of an attached set in canonical order (R93). -/
def requests (s : State) (att : NMap Partner) : List SReq := (homes s).flatMap fun e => templateReqs s att e.1 e.2

/-- A number that cannot be given now: quarantined or being torn down, or its next session still has void segments (R106, R169). -/
def numberHeld (s : State) (n : Nat) : Bool :=
  s.rd (TT_STATE_STATE n) = stQUAR || s.rd (TT_STATE_STATE n) = stTEARING ||
  (s.rd (TT_STATE_STATE n) ≠ stACTIVE && mget 0 s.fb.voids (4 * n + (s.rd (TT_STATE_GEN n) + 1) % 4) ≠ 0)

/-- The ports that face children, with their HUBS, in canonical order; only the hub nearest the host counts them (R245). -/
def facing (s : State) (rs : List SReq) : List (Nat × Nat) :=
  let l := (rs.filter fun r => r.casc && !hubAbove s r.crown).map fun r => (r.port, r.hubs)
  l.foldl (fun acc e => if acc.contains e then acc else acc ++ [e]) []

/-- The cause with which a request is refused before the loops, 0 for none (R96, R98, R99, R106, R166, R244, R245). -/
def earlyCause (s : State) (cut : List Nat) (r : SReq) : Nat :=
  if 256 ≤ r.num then 3
  else if r.casc && cut.contains r.port then 0xA
  else if r.kind = 0 && r.pipe.isNone then 8
  else if r.cls = 1 && isEthernet s r.port && !s.on (ADP_ETHCTL_PFCEN r.port) then 9
  else if 2 ≤ r.num && r.num < 32 && bit (s.rd (CAN_UPREF_REF r.crown)) ((r.num - 2) / 2) then 7
  else if numberHeld s r.num || numberHeld s (r.num + 1) then 4
  else 0

/-- The cascade ports that are served: their base, port and crown port. -/
def cascadePorts (s : State) (att : NMap Partner) : List (Nat × Nat × Nat) :=
  (homes s).filterMap fun e =>
    if e.1.kind ≠ 6 then none
    else match e.2, mfind att e.1.port, upstreamCrown s e.1.port with
      | some b, some _, some c => if canActive s e.1.port then some (b, e.1.port, c) else none
      | _, _, _ => none

/-- What the solve takes from elsewhere (R133, R475). -/
def solveEnv (s : State) (att : NMap Partner) : SEnv :=
  let mgmt := [0, 1].flatMap fun c => if canActive s c && !isDown s c then [20 * fabOf c + 19, 20 * 19 + fabOf c] else []
  let casc := (cascadePorts s att).flatMap fun e => [20 * fabOf e.2.2 + fabOf e.2.1, 20 * fabOf e.2.1 + fabOf e.2.2]
  { pcore := (List.range 20).map fun p => leAt (powerSec s) (200 + 2 * p) 2, coreCap := beff s - baseMw s, extra := mgmt ++ casc }

/-! ### The plan -/

/-- The two tunnels of a request. -/
def plansOf (r : SReq) : List TunPlan :=
  let one (up : Bool) : TunPlan :=
    { tun := r.num + b2n up, kind := r.kind, cls := r.cls, up := up, port := r.port, index := r.index, home := r.home, crown := r.crown
      pipe := r.pipe, casc := r.casc, child := if r.casc then r.num + b2n up - r.home else 0, mode := r.step
      allot := if r.ok then (if up then r.a.2 else r.a.1) else 0, admitted := r.ok, cause := r.cause }
  if r.num < 256 then [one false, one true] else []

/-- The child's management tunnel and its return path (R99): they take no part in allotment. Which of the child's two it is, the hub is not
told: it is fixed by the child, and open here (log entry 51). -/
def childPlans (s : State) (e : Nat × Nat × Nat) : List TunPlan :=
  let (b, p, c) := e
  let held := numberHeld s b || numberHeld s (b + 1)
  let one (up : Bool) : TunPlan :=
    { tun := b + b2n up, kind := 6, cls := 4, up := up, port := p, index := 0, home := b, crown := c, pipe := none, casc := true
      child := Config.childCrown (match mfind s.sv.att p with | none => 0 | some q => q.ident) % 2, mode := 0, allot := 0, admitted := !held, cause := if held then 4 else 0 }
  [one false, one true]

/-- Whether an entry already stands for a planned tunnel (R95). -/
def samePlan (s : State) (x : TunPlan) : Bool :=
  s.rd (TT_REQ_PORT x.tun) = x.port && s.rd (TT_REQ_KIND x.tun) = x.kind && s.rd (TT_REQ_INDEX x.tun) = x.index

/-- Towards the same crown port. -/
def sameCrown (s : State) (x : TunPlan) : Bool :=
  s.rd (if x.up then TT_ENDP_OUTPORT x.tun else TT_ENDP_INPORT x.tun) = x.crown

/-- Fill an entry with its request (R122, R123). -/
def fillEntry (x : TunPlan) (s : State) : State :=
  let n := x.tun
  let i := if x.up then x.port else x.crown
  let o := if x.up then x.crown else x.port
  applyTemplate n (s.wrs [(TT_STATE_KIND n, x.kind), (TT_STATE_CLS n, x.cls), (TT_STATE_DIR n, b2n x.up), (TT_STATE_CASC n, b2n x.casc),
    (TT_STATE_PEER n, if x.up then n - 1 else n + 1), (TT_ENDP_INPORT n, i), (TT_ENDP_OUTPORT n, o), (TT_ENDP_INFAB n, fabOf i),
    (TT_ENDP_OUTFAB n, fabOf o), (TT_ENDP_PIPE n, x.pipe.getD 0), (TT_ENDP_PIPEV n, b2n x.pipe.isSome), (TT_ENDP_CHILD n, x.child),
    (TT_REQ_PORT n, x.port), (TT_REQ_KIND n, x.kind), (TT_REQ_INDEX n, x.index), (TT_REQ_HOME n, x.home)])

/-- Commit one planned tunnel (R106, R115). -/
def commitEntry (x : TunPlan) (s : State) : State :=
  let n := x.tun
  let st := s.rd (TT_STATE_STATE n)
  let t := s.wr (TT_ALLOT_NEXT n) x.allot
  if x.admitted then
    if st = stFREE ∨ st = stREFUSED then (fillEntry x t).wrs [(TT_STATE_STATE n, stADMIT), (TT_STATE_GEN n, s.rd (TT_STATE_GEN n) + 1)] else t
  else if st = stFREE then (fillEntry x t).wrs [(TT_STATE_STATE n, stREFUSED), (TT_STATE_CAUSE n, x.cause)]
  else if st = stREFUSED ∨ st = stQUAR then t.wr (TT_STATE_CAUSE n) x.cause
  else t

/-- Write the inactive bank of the express map (R134, R135). -/
def commitMap (m : NMap Nat) (s : State) : State :=
  let b := s.on FAB_STATUS_MAPBANK
  (forAll (List.range 80) (fun n t => t.wr (if b then FAB_XMAPA_ENT n else FAB_XMAPB_ENT n) (mapWord m n)) s).wr FAB_STATUS_MAPPEND 1

/-- The lead geometry that the swap will adopt: line period in ps and lines. -/
def nextGeometry (s : State) : Nat × Nat :=
  match s.sc.sampled with
  | some g => (g.2.2, g.2.1)
  | none => (s.sc.lineps, s.rd SCHED_LTOT_TOTAL)

/-- Write the inactive calendar bank of every configured port. -/
def commitCalendars (rs : List SReq) (s : State) : State :=
  let g := nextGeometry s
  forAll ((List.range 20).filter (configured s)) (fun e t => writeBank e (nextCalendar s rs g.1 g.2 e) t) s

/-- Core grants by the grove that holds them (R476); a fenced grove for which GF does not stand in gets none (R11, R392). -/
def grantsOf (s : State) (env : SEnv) (rs : List SReq) : NMap Nat :=
  tally (((List.range 20).filter fun p => !groveDark s (portGrove p)).map fun p => (servedBy s (portGrove p), coreCharge env rs p))

/-- Refused and degraded requests, the hubs counted, and the leads of the pipes. -/
def countIf (rs : List SReq) (f : SReq → Bool) : Nat := (rs.filter f).length
def hubsCounted (rs : List SReq) : Nat :=
  1 + (((rs.filter fun r => r.casc && r.ok).map fun r => (r.port, r.hubs)).dedup.map (·.2)).sum
def leadsOf (s : State) (rs : List SReq) : NMap Nat :=
  (rs.filter fun r => r.ok && r.kind = 0).foldl (fun m r => match r.pipe with
    | none => m
    | some d => mins m d (leadOf s (nextGeometry s).1 r)) []

/-- The requests as a solve decides them. -/
def solved (s : State) (att : NMap Partner) : List SReq :=
  let rs := requests s att
  let cut := cascadeRefused (facing s rs)
  allot (solveEnv s att) (rs.map fun r => { r with cause := earlyCause s cut r })

/-- The core direction was oversubscribed in the solve. -/
def solveCoreOver (s : State) (att : NMap Partner) : Bool :=
  let rs := requests s att
  let cut := cascadeRefused (facing s rs)
  coreOver (solveEnv s att) (rs.map fun r => { r with cause := earlyCause s cut r })

/-- Replace the solver's own state. -/
def State.setSv (s : State) (x : Solver) : State := { s with sv := x }

/-- The commit record. -/
def commitRecord (s : State) (att : NMap Partner) (rs : List SReq) : Commit :=
  let plan := rs.flatMap plansOf ++ (cascadePorts s att).flatMap (childPlans s)
  { plan := plan, prev := plan.foldl (fun m x => mins m x.tun (s.rd (TT_STATE_STATE x.tun), s.rd (TT_STATE_GEN x.tun))) []
    refused := countIf rs fun r => !r.ok, degraded := countIf rs fun r => r.ok && 1 ≤ r.step, prevRefused := s.sv.lastRefused
    grants := grantsOf s (solveEnv s att) rs, leads := leadsOf s rs, hubs := hubsCounted rs }

/-- The solver completes and commits to the inactive banks (R115). `t` is how long it took in units of 10 microseconds. -/
def commitSolve (t : Nat) (att : NMap Partner) (s : State) : State :=
  let rs := solved s att
  let c := commitRecord s att rs
  let u := forAll c.plan commitEntry (forAll (List.range 256) (fun n t => t.wr (TT_ALLOT_NEXT n) 0) s)
  let u := commitMap (chooseColours (raiseColours (ceilingDemand (solveEnv s att) rs) 400 (colourDemand (solveEnv s att) rs))) (commitCalendars rs u)
  let u := u.wrs [(PST_SOLVE_BUSY, 0), (PST_SOLVE_ARMED, 1), (PST_SOLVE_REFUSED, min 255 c.refused), (PST_SOLVE_DEGRADED, min 255 c.degraded),
    (PST_SOLVE_TIME, min 255 t), (SYS_SETTLE_SOLVES, s.rd SYS_SETTLE_SOLVES + 1)]
  let u := if solveCoreOver s att then raise 16 7 u else u
  let refused := (c.plan.filter fun x => !x.admitted).map (·.tun)
  u.setSv { u.sv with sample := none, commit := some c, lastRefused := refused, committedAt := s.clock }

/-- SOLVE_COMMIT (R115). -/
def execSolveCommit (t : Nat) (s : State) : Host.Outcome State Fault Refusal :=
  match s.sv.sample with
  | none => .next s
  | some att => .next (if s.on SYS_STAGE_FWRDY ∧ engineRuns s ∧ s.sv.commit.isNone then commitSolve t att s else s)

/-! ### The swap (R116) -/

/-- An entry becomes ACTIVE: SEQ counters and credits at 0, shaper and meters fresh, and on a Canopy link its credit advertised (R106,
R193, R195, R223). -/
def becomeActive (x : TunPlan) (s : State) : State :=
  let n := x.tun
  let t := s.wrs [(TT_STATE_STATE n, stACTIVE), (TT_SEQ_INSEQ n, 0), (TT_SEQ_OUTSEQ n, 0)]
  let t := (startFlow n t).setCredit n {}
  match x.pipe with
  | none => t
  | some d => if x.up then t else t.setPipe d { (t.pipe d) with fresh := true, liveAt := t.clock, grant := none, due := [], frag := [] }

/-- A PCIe or USB 3 port retrains its downstream link to a mode step: lanes and lane rate of the step, out of what the partner trained to
(R112, R317, R323). The keeper completes the retrain (STANDARD_RECOVERY). -/
def retrainTo (p kind st : Nat) (s : State) : State :=
  match mfind s.sv.att p with
  | none => s
  | some q =>
    let g := laneMbps q.rate
    let l := linkStep kind st q.width g
    let rate := if l.2 < g then 6 else q.rate
    let t := s.wrs [(ADP_STAT_STATE p, 6), (ADP_STAT_WIDTH p, l.1), (ADP_STAT_RATE p, rate),
      (GRV_CALST_BT p, byteTime (q.txMbps * (l.1 * l.2) / max 1 (q.width * g)))]
    forAll ((groupCells t p).filter fun c => !(t.lane c).faulted) (fun c u => u.wr (LC_STAT_RATE c) rate) t

/-- A mode step other than before: the port imposes it, and at a higher one a pipe shows REDUCED (R112, R300). A display stream's step shows
in the capabilities that the pipe relays (R314); a child imposes its own. -/
def imposeStep (x : TunPlan) (s : State) : State :=
  let old := s.rd (TT_STATE_MODE x.tun)
  let t := s.wr (TT_STATE_MODE x.tun) x.mode
  if x.up ∨ old = x.mode then t
  else
    let t := t.emit (.note "mode step imposed" [x.port, x.kind, x.mode])
    let t := if (x.kind = 1 ∨ x.kind = 2) ∧ portUp t x.port then retrainTo x.port x.kind x.mode t else t
    if old < x.mode then (match x.pipe with | some d => showReduced d t | none => t) else t

/-- The tunnel is to come back towards its new place once its quarantine has ended (R95). -/
def noteMoved (n : Nat) (s : State) : State := s.setSv { s.sv with moved := s.sv.moved ++ [n] }

/-- The swap for one planned tunnel. -/
def swapEntry (x : TunPlan) (s : State) : State :=
  let n := x.tun
  let st := s.rd (TT_STATE_STATE n)
  if x.admitted then
    if st = stADMIT then imposeStep x (becomeActive x s)
    else if st ≠ stACTIVE then s
    else if !samePlan s x then teardown n 5 s
    else if !sameCrown s x then noteMoved n (teardown n 6 s)
    else imposeStep x s
  else if st = stACTIVE then teardown n x.cause s
  else s

/-- An entry that the solve no longer holds: a refused one is FREE, an active one is torn down (R106). -/
def swapGone (plan : List TunPlan) (n : Nat) (s : State) : State :=
  if plan.any fun x => x.tun = n then s
  else if s.rd (TT_STATE_STATE n) = stREFUSED then s.wr (TT_STATE_STATE n) stFREE
  else if s.rd (TT_STATE_STATE n) = stACTIVE then teardown n 1 s
  else s

/-- The calendar banks flip, with the calendar parameters that waited for the swap (R190, R200, R201). -/
def flipCalendars (s : State) : State :=
  let ps := (List.range 20).filter (configured s)
  let mode (p : Nat) : Nat := match s.ld.image with | none => 0 | some im => (match im.cal p with | none => 0 | some r => byteAt r 2)
  let t := forAll ps (fun p u => u.wrs [(GRV_CALST_BANK p, 1 - u.rd (GRV_CALST_BANK p)), (GRV_CALCTL_MODE p, mode p)]) s
  let t := { t with sc := { t.sc with ovh := [], skipped := [] } }
  forAll ps adoptQbv t

/-- Grove core leases, reductions before increases (R476). A grove fenced since the commit, for which GF does not stand in, gets none, and GF gets
the lease of the grove that it has come to stand in for (R11, R392). -/
def giveGrants (g : NMap Nat) (s : State) : State :=
  let lease (k : Nat) : Nat := if k = 8 then (match gfFor s with | some h => max (mget 0 g 8) (mget 0 g h) | none => 0)
    else if bit (s.rd RST_FLTSTAT_FENCED) k then 0 else mget 0 g k
  sumGrants (s.wrs ((List.range 9).map fun k => (PST_GRANT_MW k, lease k)))

/-- The first swap takes the hub into Stand (R408). -/
def enterStand (s : State) : State :=
  if s.sv.stood then s
  else raise 24 4 ((s.setSv { s.sv with stood := true }).wrs [(SYS_STAGE_STAGE, 2), (RST_BOOT_STANDTIME, min 65535 (sinceStart s))])

/-- A request of the hub's own agent to a child, on number `b` of its home block (R70): TAG runs through 0xC0 to 0xFF. -/
def toChild (p b op count : Nat) (addr : Word) (data : Words) (s : State) : State :=
  let tag := 0xC0 + s.mg.tagNext % 64
  let t := { s with mg := { s.mg with tagNext := (s.mg.tagNext + 1) % 64 } }
  agentMessage b (mgmtBytes op tag 0 count addr data) (t.emit (.toChild p op tag count addr data))

/-- A register of the child's crown grove that faces this hub, by its offset from CAN_UPHDR. -/
def childReg (s : State) (b off : Nat) : Word := BitVec.ofNat 32 (0x102000 + 0x10000 * s.rd (TT_ENDP_CHILD b) + off)

/-- The report of a child is read with READ messages of at most 28 words (R81, R243): CAN_UPHDR to the end of CAN_UPREP_n. -/
def readReport (p b : Nat) (s : State) : State := toChild p b 1 6 (childReg s b 0x70) [] (toChild p b 1 28 (childReg s b 0) [] s)

/-- What the parent does at a child after a swap: it reads the report through a management tunnel that has just come up, and writes the pairs it
refuses into CAN_UPREF (R243, R244). -/
def tellChild (plan : List TunPlan) (e : Nat × Nat × Nat) (s : State) : State :=
  let p := e.2.1
  let mine := plan.filter fun x => x.casc && x.port = p && !x.up && x.tun ≠ e.1
  let mask := (mine.map fun x => b2n (!x.admitted) * 2 ^ x.index).sum
  toChild p e.1 2 1 (childReg s e.1 4) [BitVec.ofNat 32 mask] (readReport p e.1 s)

/-- At the end of a solve a child writes its report (R243). -/
def reportUp (hubs : Nat) (s : State) : State :=
  forAll [0, 1] (fun c t => if canActive t c && !isDown t c then writeReport c hubs t else t) s

/-- NEXT becomes ACT for one entry (R116); the shaper credit earned at the old rate is settled first (R193). -/
def swapAllot (n : Nat) (s : State) : State :=
  let next := s.rd (TT_ALLOT_NEXT n)
  if next = s.rd (TT_ALLOT_ACT n) then s
  else (s.setFlow n { (s.flow n) with credit := creditNow s n, creditAt := s.clock }).wr (TT_ALLOT_ACT n) next

/-- The swap, in one step across all ports (R116). -/
def swapTables (c : Commit) (s : State) : State :=
  let old := s
  let t := forAll c.plan swapEntry (forAll (List.range 256) swapAllot s)
  let t := forAll ((List.range 256).drop 2) (swapGone c.plan) t
  let t := adoptOwn (adoptEth (flipCalendars (adoptGeometry t)))
  let t := reservePlaces t
  let t := forAll (c.plan.filter fun x => old.rd (TT_STATE_STATE x.tun) = stADMIT) (fun x u =>
    let p := u.rd (TT_ENDP_INPORT x.tun)
    if p < 8 && canActive u p && creditGoverned u x.tun then sendCredit x.tun u else u) t
  let t := armAttrs { t with sc := { t.sc with leads := c.leads } }
  let t := giveGrants c.grants t
  let raised := c.plan.any fun x => x.admitted && old.rd (TT_STATE_MODE x.tun) < x.mode
  let t := if 1 ≤ c.refused then raise 16 17 t else t
  let t := if raised then raise 16 18 t else t
  let t := raise 25 2 (t.wrs [(PST_SOLVE_ARMED, 0), (PST_SOLVE_BANK, 1 - t.rd PST_SOLVE_BANK)])
  let t := t.setSv { t.sv with commit := none, active := c.plan }
  let t := reportUp c.hubs (enterStand t)
  let t := forAll (cascadePorts t t.sv.att) (tellChild c.plan) t
  if !t.on SYS_SETTLE_RUN ∧ !t.on SYS_SETTLE_PEND then t.wr SYS_GUARD_SETTLED 1 else t

/-- TABLE_SWAP (R116): a lead frame start at least 2 lead lines after the commit. -/
def execTableSwap (s : State) : Host.Outcome State Fault Refusal :=
  match s.sv.commit with
  | none => .next s
  | some c => .next (if s.sc.lpos = 0 ∧ 1000 * s.sv.committedAt + 2 * linePs s ≤ 1000 * s.clock then swapTables c s else s)

/-! ### A child's report at its parent (R70, R243) -/

/-- Replace or drop one direction of a child's pair by a report word: VALID, CLS, CEIL, FLOOR. -/
def putPair (j : Nat) (w : Nat) (l : List ChildPair) : List ChildPair :=
  let k := j / 2
  let rest := l.filter fun x => x.k ≠ k
  if !bit w 31 then rest
  else
    let old : ChildPair := (l.find? fun x => x.k = k).getD { k := k, cls := 0, floorD := 0, ceilD := 0, floorU := 0, ceilU := 0 }
    let new : ChildPair := if j % 2 = 0 then { old with cls := bits w 30 28, floorD := bits w 10 0, ceilD := bits w 21 11 }
      else { old with cls := bits w 30 28, floorU := bits w 10 0, ceilU := bits w 21 11 }
    sortKey (fun x : ChildPair => (0, 0, x.k)) (new :: rest)

/-- One word of the child's registers as read: CAN_UPHDR gives HUBS, CAN_UPREP a pair's direction. -/
def takeReportWord (q : Partner) (a w : Nat) : Partner :=
  let o := a % 65536
  if o = 0x2000 then { q with hubs := bits w 31 29 }
  else if 0x2010 ≤ o ∧ o < 0x2088 then { q with children := putPair ((o - 0x2010) / 4) w q.children }
  else q

/-- The words of a READ response from their address on. -/
def takeReport' (q : Partner) : Nat → Words → Partner
  | _, [] => q
  | a, w :: ws => takeReport' (takeReportWord q a w.toNat) (a + 4) ws

/-- An address range that holds part of the report. -/
def holdsReport (a n : Nat) : Bool := a % 65536 < 0x2088 && 0x2000 < a % 65536 + 4 * n

/-- A child's new report takes the place of the old one: the limits of a live entry of its pairs follow, where the report moves them (R99,
R243). -/
def refreshLimits (p : Nat) (was now : State) : State :=
  forAll ((List.range 256).filter fun n => entryLive now n && now.on (TT_STATE_CASC n) && now.rd (TT_REQ_PORT n) = p) (fun n t =>
    match entryTmpl was n, entryTmpl now n with
    | some a, some b => if a.floor = b.floor ∧ a.ceil = b.ceil then t else t.wrs [(TT_LIMIT_CEIL n, b.ceil), (TT_LIMIT_FLOOR n, b.floor)]
    | _, _ => t) now

/-- A message of the child's management tunnel that reaches the hub's own agent (R70, R243): an EVENT makes it read the report; a report that a
response brings is the attach event of R22. -/
def childAnswer (p b op tag status count : Nat) (addr : Word) (data : Words) (s : State) : State :=
  let t := s.emit (.relay true op tag status count addr data)
  if op = 5 then readReport p b t
  else match mfind t.sv.att p with
    | none => t
    | some q =>
      if op = 0x81 ∧ status = 0 ∧ holdsReport addr.toNat count then refreshLimits p t (attachPartner p (takeReport' q addr.toNat (data.take count)) t) else t

/-- CASCADE_MGMT_RESPONSE (R70, R243): a message of the child's management tunnel. A response to the parent's own request goes to its agent and
not to the host; every other goes on to the host; an EVENT goes to both. -/
def execCascadeMgmtResponse (port : CanPort) (op tag status count : Byte) (addr : Word) (data : Words) (s : State) : Host.Outcome State Fault Refusal :=
  let p := port.val
  let (o, g, st, n) := (op.toNat, tag.toNat, status.toNat, count.toNat)
  match cascadeBase s p with
  | none => .next s
  | some b =>
    if !tunActive s (b + 1) then .next s
    else if o = 5 then .next (childAnswer p b o g st n addr data (s.emit (.relay false o g st n addr data)))
    else if g < 0xC0 then .next (s.emit (.relay false o g st n addr data))
    else .next (childAnswer p b o g st n addr data s)

end Sys2Proof.Machine
end

