-- ==== Sys2Proof/Machine/RegAccess.lean ====
section
/-! DEFINITION. The register fabric (R3, R7 to R9, R69, R71 to R77): what a register reads as, live fields included, and what a write of
it does; the data window of each path. -/

namespace Sys2Proof.Machine

/-! ### Reading -/

/-- A word of R73 that the map reserves: entry offsets 0x34 to 0x3C of the tunnel table, and 0xFFC of an event block. -/
def reservedWord (a : Nat) : Bool :=
  if 0x400000 ≤ a ∧ a < 0x404000 then 0x34 ≤ a % 0x40
  else (decodeAddr (a / 0x1000 * 0x1000 + 0xFF0)).isSome && a % 0x1000 = 0xFFC

/-- A Canopy link's key slot: 6 to 21 (R489). -/
def isCanopySlot (n : Nat) : Bool := 6 ≤ n && n < 22

/-- A Canopy slot holds a key: VALID, unless it went to BAD (R490, R507). -/
def slotState (s : State) (n : Nat) : Nat :=
  if !isCanopySlot n || s.rd (KEY_SLOT_STATE n) = 3 then s.rd (KEY_SLOT_STATE n) else if canopySlot s n = [] then 0 else 2

/-- A tree port that never connects (R352). -/
def neverConnects (s : State) (n : Nat) : Bool := (treeExternal s n).isNone && !treeInternal n && n ≠ 5

/-- The registers of a personality that the port does not have (section Registers of chapter 11). -/
def lacksPersonality (s : State) (r : RegId) (p : Nat) : Bool :=
  match r with
  | .ADP_PCIE => persOf s p ≠ 1
  | .ADP_ETHMAP => !persEth (persOf s p)
  | .ADP_ETHCTL => !persEth (persOf s p)
  | .ADP_DP => !persDp (persOf s p)
  | _ => false

/-- The fields of a register that read something other than their stored value, with what they read. -/
def liveFields (s : State) (r : RegId) (i : Nat) : List (Fld × Nat) :=
  match r with
  | .SYS_ID => [(SYS_ID_DEVICE, deviceId s)]
  | .SYS_REV => [(SYS_REV_VARIANT, if fuseFault s then 0 else bits (s.rd FUSE_VAR_V) 3 0)]
  | .SYS_UID => [(SYS_UID_UID i, s.rd (FUSE_UID_V i))]
  | .SYS_STAGE => [(SYS_STAGE_HOLD, s.rd CFG_STATUS_HOLD)]
  | .SYS_SETTLE => [(SYS_SETTLE_LEFT, if s.on SYS_SETTLE_RUN then ceilDiv (s.sv.deadline - s.clock) 1000000 else 0)]
  | .SYS_GUARD => [(SYS_GUARD_RATED, b2n (allRated s)), (SYS_GUARD_USB4X, b2n ([0, 1].any fun c => s.rd (CAN_STAT_STATE c) = 5))]
  | .CFG_STATUS => [(CFG_STATUS_ARBCNT, bits (s.rd FUSE_ARB_V) 5 0)]
  | .CFG_PERMIT => [(CFG_PERMIT_PERMIT, bits (s.rd FUSE_RLD_V) 7 0)]
  | .PST_REFUSE => [(PST_REFUSE_TUN i, refuseWord s i)]
  | .PST_CUSE => [(PST_CUSE_EFF, beff s)]
  | .PST_EXT => [(PST_EXT_AVAIL, min 4095 (availMw s / 100)), (PST_EXT_LEASED, min 4095 (leasedMw s / 100))]
  | .FAB_STATUS => [(FAB_STATUS_PHASE, s.rd FAB_SLOT_COUNT % 20)]
  | .FAB_PART => [(FAB_PART_OCC i, partOcc (s.inter i))]
  | .MEM_SPSTAT => [(MEM_SPSTAT_FREE, totalPages s - usedPages s)]
  | .GRV_FLST => [(GRV_FLST_INHELD i, b2n (ingressHeld s i)),
      (GRV_FLST_TIMER i, if s.on (GRV_FLST_EGHELD i) then min 25500 ((s.clock - (s.eg i).stallAt) / 1000000) else 0)]
  | .GRV_CALST => [(GRV_CALST_CUR i, currentEntry s i)]
  | .SCHED_LPOS => [(SCHED_LPOS_LINE, s.sc.lpos / 2 ^ 32), (SCHED_LPOS_FRAC, s.sc.lpos / 2 ^ 16 % 65536)]
  | .LC_CHKT => [(LC_CHKT_TIME i, checkTime s i)]
  | .PIPE_STAT => [(PIPE_STAT_STATE i, pipeStateNow s i), (PIPE_STAT_LOCKED i, b2n (pipeLocked s i)),
      (PIPE_STAT_NOTICE i, if noticeKind s i = 0 then (s.pipe i).shown else noticeKind s i)]
  | .USB_PST => [(USB_PST_PWR i, b2n (match treeExternal s i with | some p => if p < 8 then treePower s i else s.on (USB_PST_PWR i) | none => s.on (USB_PST_PWR i)))]
  | .PP_FEED => [(PP_FEED_PRESA, b2n (mget false s.pw.present 0)), (PP_FEED_PRESB, b2n (mget false s.pw.present 1))]
  | .KEY_VAULT => [(KEY_VAULT_DSV, b2n (s.on FUSE_LDST_SHADOW_VALID && dsValid)), (KEY_VAULT_POLICY, bits (s.rd FUSE_KEYPOL_V) 0 0)]
  | .KEY_TAMP => [(KEY_TAMP_POLICY, tamperPolicy s)]
  | .KEY_SLOT => if isCanopySlot i then [(KEY_SLOT_STATE i, slotState s i), (KEY_SLOT_LEN i, (canopySlot s i).length)] else []
  | .KEY_TAG => if isCanopySlot i && slotState s i = 2 then [(KEY_TAG_TAG i, slotTag i (canopySlot s i))] else []
  | .GRV_EVSUM => [(GRV_EVSUM_OWN i, groveSummary s i / 16), (GRV_EVSUM_CELL i, groveSummary s i % 16)]
  | _ => []

/-- The value that a field reads, given the live ones of its register. -/
def fieldNow (s : State) (live : List (Fld × Nat)) (f : Fld) : Nat :=
  if f.acc = .wo then 0
  else match live.find? fun e => e.1.key = f.key with
    | some e => e.2 % 2 ^ f.w
    | none => s.rd f

/-- The word that a register reads (R7, R8). -/
def regWord (s : State) (r : RegId) (i j : Nat) : Nat :=
  match r with
  | .SYS_EVSUM => chipSummary s
  | .TIM_EVCTL => if evtFn s i ≠ 0 then 0 else wordOf s (regFields r i j)
  | .SYS_DWDATA => 0
  | _ =>
    if lacksPersonality s r i then 0
    else if r = .USB_PST ∧ neverConnects s i then 0
    else ((regFields r i j).map fun f => fieldNow s (liveFields s r i) f * 2 ^ f.pos).sum

/-- An access to an unmapped address (R73). While SYS is held in reset there is no leaf to set. -/
def decodeError (s : State) : State := if 4 ≤ s.bt.released then raise 25 0 s else s

/-- The word that a path would read at a mapped word address, 0 elsewhere. -/
def peekWord (p : Path) (a : Nat) (s : State) : Nat :=
  if absentAddr (variant s) a then 0
  else match decodeFor p.idx a with
    | none => 0
    | some (r, i, j) => regWord s r i j

/-- A read of a word other than SYS_DWDATA (R3, R73). -/
def fabricRead (p : Path) (a : Nat) (s : State) : Nat × State :=
  if absentAddr (variant s) a ∨ (decodeFor p.idx a).isSome ∨ reservedWord a then (peekWord p a s, s) else (0, decodeError s)

/-! ### Writing -/

/-- Envelope error or warning: DWERR with the window's ERR (R76, R77). -/
def windowError (i : Nat) (s : State) : State := raise 25 1 (s.wr (SYS_DWCTL_ERR i) 1)

/-- A burst's range stays in its 64 KiB block (R76). -/
def burstFits (a len step : Nat) : Bool := (a + (len - 1) * step * 4) / 65536 = a / 65536

/-- Arm a path's window with its registers as they stand (R76). -/
def armWindow (i : Nat) (s : State) : State :=
  let len := s.rd (SYS_DWCTL_LEN i)
  let step := s.rd (SYS_DWCTL_STEP i)
  if s.on (SYS_DWCTL_BUSY i) || !burstFits (4 * s.rd (SYS_DWADDR_ADDR i)) len step then windowError i s
  else
    let t := s.wr (SYS_DWCTL_BUSY i) 1
    { t with mg := { t.mg with bursts := mins t.mg.bursts i { left := len, step := step, wr := s.on (SYS_DWCTL_DIR i) } } }

/-- A write to SYS_DWCTL (R75): ERR, then LEN, STEP and DIR, then ARM. -/
def wrDwctl (p : Path) (v : Nat) (s : State) : State :=
  let i := p.idx
  let t := wrWord 0x24 v [SYS_DWCTL_ERR i, SYS_DWCTL_LEN i, SYS_DWCTL_STEP i, SYS_DWCTL_DIR i] s
  if bit v 1 then armWindow i t else t

/-- After a write of SYS_PATH, a tunnel's due report follows what it can carry (R91). -/
def tunFollow (c : Nat) (before s : State) : State :=
  if tunCarries s c then (if tunCarries before c then s else tunReportState c s) else tunReportDrop c s

/-- A write to SYS_PATH (R71, R91). -/
def wrPath (v : Nat) (s : State) : State :=
  let t := wrWord 0x18 v (regFields .SYS_PATH 0 0) s
  tunFollow 1 s (tunFollow 0 s t)

/-- A write to SYS_EVMASK_TUN; a child keeps the bits of its crown groves set while its partner there is a hub (R243). -/
def wrTunMask (v : Nat) (s : State) : State :=
  let t := wrWord 0x4C v (regFields .SYS_EVMASK_TUN 0 0) s
  forAll [0, 1] (fun c t => if canActive t c && hubAbove t c then t.wr SYS_EVMASK_TUN_MASK (t.rd SYS_EVMASK_TUN_MASK ||| 2 ^ portGrove c) else t) t

/-- What a write of a word to a register does (R7, and the rule of each register that has its own). -/
def writeReg (p : Path) (r : RegId) (i j a v : Nat) (s : State) : State :=
  match r with
  | .SYS_PATH => wrPath v s
  | .SYS_DWCTL => wrDwctl p v s
  | .SYS_EVMASK_TUN => wrTunMask v s
  | .EV_EN => wrEven i v s
  | .CFG_CTL => wrCfgCtl v s
  | .CFG_RELOAD => wrReload v s
  | .TT_LIMIT => wrTtLimit i v s
  | .TT_SHAPE => wrTtParam i .shape v s
  | .TT_METER => wrTtParam i .meter v s
  | .TT_CBS => wrTtParam i .cbs v s
  | .TT_PBS => wrTtParam i .pbs v s
  | .PST_HOSTSEL => wrHostsel v s
  | .FAB_BULK => wrBulk v s
  | .MEM_SPBASE => wrSpill a MEM_SPBASE_BASE v s
  | .MEM_SPSIZE => wrSpill a MEM_SPSIZE_SIZE v s
  | .MEM_SPSHARE => wrSpshare v s
  | .MEM_SPQ => wrSpq i v s
  | .GRV_FLOW => wrFlow i v s
  | .SCHED_LEAD => wrSchedLead v s
  | .SCHED_VIRT => wrSchedVirt v s
  | .GRV_CALCTL => wrCalctl i v s
  | .CAN_CTL => wrCanCtl i v s
  | .CAN_UPREF => wrUpref i v s
  | .LC_CTL => wrLcCtl i v s
  | .LC_TEST => wrLcTest i v s
  | .LC_INJ => wrLcInj i v s
  | .PIPE_FSBASE => wrFsbase i v s
  | .PIPE_L1CTL => wrLayerCtl a v (PIPE_L1CTL_PITCH i) [PIPE_L1CTL_SRC i, PIPE_L1CTL_FMT i] s
  | .PIPE_L2CTL => wrLayerCtl a v (PIPE_L2CTL_PITCH i) [PIPE_L2CTL_EN i, PIPE_L2CTL_FMT i, PIPE_L2CTL_GALPHA i] s
  | .ADP_PCIE => wrAdpPcie i v s
  | .ADP_ETHMAP => wrEthmap i v s
  | .ADP_ETHCTL => wrEthctl i v s
  | .TIM_TBCTL => wrTbctl i v s
  | .TIM_TBINCI => wrTbinci i v s
  | .TIM_TBLDNS => wrTbld i false v s
  | .TIM_TBLDFR => wrTbld i true v s
  | .TIM_SNAP => if bit v 31 then takeSnapshot s else s
  | .TIM_EVCTL => wrEvctl i v s
  | .TIM_EVRAS => wrEvras i v s
  | .RST_CTL => wrRstCtl p v s
  | .RST_FLTINJ => wrRstFltinj v s
  | .PST_PSCTL => wrPsctl v s
  | .PD_CTL => wrPdCtl i v s
  | .PC_CTL => wrPcCtl i v s
  | .PST_CORE => wrBudget v s
  | .KEY_CMD => wrKeyCmd p v s
  | .KEY_DATA => s.wr (KEY_DATA_DATA i j) v
  | _ => wrWord a v (regFields r i j) s

/-- The grove whose range, or whose lane cells' range, holds an address. -/
def groveOfAddr (a : Nat) : Option Nat :=
  if 0x100000 ≤ a ∧ a < 0x190000 then some ((a - 0x100000) / 0x10000)
  else if 0x200000 ≤ a ∧ a < 0x220000 then some (cellGrove ((a - 0x200000) / 0x1000))
  else none

/-- The lock of R58 covers an address. -/
def lockedAddr (s : State) (a : Nat) : Bool := s.ld.lock.isSome && s.ld.lock = groveOfAddr a

/-- A write of a word other than SYS_DWDATA (R3, R58, R73). -/
def fabricWrite (p : Path) (a v : Nat) (s : State) : State :=
  if absentAddr (variant s) a then s
  else match decodeFor p.idx a with
    | none => if reservedWord a then s else decodeError s
    | some (r, i, j) =>
      if lockedAddr s a then envEvent CFG_ENVERR_LOCK a s
      else if lacksPersonality s r i then s
      else writeReg p r i j a v s

/-! ### The data window (R75 to R77) -/

/-- One word has passed: ADDR advances and the remaining count falls. -/
def advanceBurst (i : Nat) (b : Burst) (s : State) : State :=
  let t := s.wr (SYS_DWADDR_ADDR i) (s.rd (SYS_DWADDR_ADDR i) + b.step)
  let left := b.left - 1
  let m := { t.mg with bursts := if left = 0 then mdel t.mg.bursts i else mins t.mg.bursts i { b with left := left } }
  if left = 0 then { t with mg := m }.wr (SYS_DWCTL_BUSY i) 0 else { t with mg := m }

/-- An access to SYS_DWDATA (R77): a read, or a write of a word. A transfer that lies on SYS_DWDATA itself moves nothing (DESIGN
CHOICE, log entry 17). -/
def windowAccess (p : Path) (w : Option Nat) (s : State) : Nat × State :=
  let i := p.idx
  match mfind s.mg.bursts i with
  | none => (0, windowError i s)
  | some b =>
    if b.wr ≠ w.isSome then (0, windowError i s)
    else
      let a := 4 * s.rd (SYS_DWADDR_ADDR i)
      let r : Nat × State := if a = 0x28 then (0, s) else match w with
        | none => fabricRead p a s
        | some v => (0, fabricWrite p a v s)
      (r.1, advanceBurst i b r.2)

/-- A read of a word on a path (R74: SYS_DWDATA alone has a side effect). -/
def regRead (p : Path) (a : Nat) (s : State) : Nat × State := if a = 0x28 then windowAccess p none s else fabricRead p a s

/-- A write of a word on a path. -/
def regWrite (p : Path) (a v : Nat) (s : State) : State := if a = 0x28 then (windowAccess p (some v) s).2 else fabricWrite p a v s

/-- Read words from an address on, with step 1. -/
def readWords (p : Path) : Nat → Nat → State → List Nat × State
  | _, 0, s => ([], s)
  | a, n + 1, s =>
    let r := regRead p (a % 2 ^ 32) s
    let q := readWords p (a + 4) n r.2
    (r.1 :: q.1, q.2)

/-- Write words from an address on, with step 1, each committing in turn. -/
def writeWords (p : Path) : Nat → List Nat → State → State
  | _, [], s => s
  | a, v :: t, s => writeWords p (a + 4) t (regWrite p (a % 2 ^ 32) v s)

/-! ### What a path reaches (R69, R71) -/

/-- What a path reaches: nothing, the AON subset, or the whole map. -/
inductive Scope where
  | none | aon | whole
deriving DecidableEq, Repr

/-- PINS gives P43 the SPI target's function (R512); before PINS is applied both targets answer (DESIGN CHOICE, log entry 16). -/
def p43Spi (s : State) : Bool := pinFn s 6 = 2

/-- P43 is held to the AON subset: in Seedling, in Rest and Dormant, and while ENBRD is 0 (R69, R71, R436). -/
def p43Limited (s : State) : Bool := s.rd SYS_STAGE_STAGE = 0 || 3 ≤ s.rd PST_PSSTAT_STATE || !s.on SYS_PATH_ENBRD

/-- The P43 target is dead: AON is in reset, or VIO_M is out of its range (R422, R514). -/
def p43Dead (s : State) : Bool := s.bt.released = 0 || s.pw.outside.contains 6

/-- A management tunnel can be reached: its link is active, the port does not have DOWN set, and the hub does not hold under R51 (R69). -/
def tunReachable (s : State) (c : Nat) : Bool := canActive s c && !isDown s c && !s.on CFG_STATUS_HOLD

/-- What a path reaches now (R69). -/
def scopeOf (s : State) (p : Path) : Scope :=
  match p with
  | .p43 => if p43Dead s then .none else if p43Limited s then (if p43Spi s then .none else .aon) else .whole
  | .usb => if s.on SYS_STAGE_FWRDY && s.on SYS_PATH_ENUSB then .whole else .none
  | .tun0 => if s.on SYS_STAGE_FWRDY && tunReachable s 0 && s.on SYS_PATH_ENTUN0 then .whole else .none
  | .tun1 => if s.on SYS_STAGE_FWRDY && tunReachable s 1 && s.on SYS_PATH_ENTUN1 then .whole else .none

/-- The AON subset (R69). -/
def inAon (a : Nat) : Bool := a < 0x18 || [1, 3, 7, 8].contains (a / 0x10000)

/-- A word write by a path, within what it reaches. -/
def pathWrite (p : Path) (a v : Nat) (s : State) : State :=
  match scopeOf s p with
  | .none => s
  | .aon => if inAon a then regWrite p a v s else s
  | .whole => regWrite p a v s

/-- Word reads by a path from an address on: no answer where it reaches nothing. -/
def pathRead (p : Path) (a n : Nat) (s : State) : Option (List Nat) × State :=
  match scopeOf s p with
  | .none => (none, s)
  | .whole => let r := readWords p a n s; (some r.1, r.2)
  | .aon =>
    let ws := (List.range n).foldl (fun (acc : List Nat × State) k =>
      let b := (a + 4 * k) % 2 ^ 32
      if inAon b then (let r := regRead p b acc.2; (acc.1 ++ [r.1], r.2)) else (acc.1 ++ [0], acc.2)) ([], s)
    (some ws.1, ws.2)

end Sys2Proof.Machine
end

