-- ==== Sys2Proof/Machine/Paths.lean ====
section
/-! DEFINITION. The management paths (chapter 03): USB vendor requests, management messages, the P43 target, flash requests and
event reports; and the commands that write a register by a path. -/

namespace Sys2Proof.Machine

/-! ### Flash requests (R52, R78, R80, R405, R494, R528) -/

/-- A byte range overlaps another. -/
def rangesMeet (a n b m : Nat) : Bool := a < b + m && b < a + n

/-- The regions that the firmware refuses to erase or program: the running image copy, the running firmware copy, and the blobs. -/
def protectedRange (s : State) (off n : Nat) : Bool :=
  (s.ld.image.isSome && rangesMeet off n (copyBase (s.on CFG_STATUS_COPY)) 0x400000) ||
  rangesMeet off n (firmwareBase (s.on RST_BOOT_FWCOPY)) 0x1F0000 || rangesMeet off n 0x3F0000 0x10000

/-- An erase or a program request: its status code in a management response, and its effect on FLASH_STAT. -/
def flashRequest (erase : Bool) (off n : Nat) (data : Bytes) (reply : Option (Crown × Nat × Nat × Word)) (s : State) : Nat × State :=
  if s.mg.flashOp.isSome then (3, s)
  else if s.mg.flashSize < off + n then (5, { s with mg := { s.mg with flashStat := 4 } })
  else if protectedRange s off n then (4, { s with mg := { s.mg with flashStat := 3 } })
  else (0, { s with mg := { s.mg with flashStat := 1, flashOp := some { erase := erase, off := off, data := data, reply := reply } } })

/-- Program bytes: an erased byte takes its value; what another byte becomes the spec does not say, and `x` supplies it. -/
def programBytes (off : Nat) (data : Bytes) (x : Nat) (m : NMap Byte) : NMap Byte :=
  let old := memRead 0xFF m off data.length
  memWrite 0xFF m off ((data.zip (old.zip (leBytes data.length x))).map fun e => if e.2.1 = 0xFF ∨ e.2.1 = e.1 then e.1 else e.2.2)

/-! ### USB vendor requests (R78 to R80, R341) -/

/-- A vendor request is met: silence while FWRDY is 0, a STALL while ENUSB is 0, else `f`. -/
def vendorRequest (f : State → State) (s : State) : State :=
  if !s.on SYS_STAGE_FWRDY then (if treeRuns s then s.inc USB_MGT_SILENT else s)
  else if !s.on SYS_PATH_ENUSB then s.emit .stall
  else f s

/-- A burst's length in bytes: 4 to 4,096, a multiple of 4. -/
def burstLength (n : Nat) : Bool := 4 ≤ n && n ≤ 4096 && n % 4 = 0

/-- Load the USB path's window with a request's burst and arm it (R76, R78); whether the arm was accepted. -/
def loadBurst (a len : Nat) (wr : Bool) (s : State) : Bool × State :=
  let t := armWindow 1 (s.wrs [(SYS_DWADDR_ADDR 1, a / 4), (SYS_DWCTL_LEN 1, len), (SYS_DWCTL_STEP 1, 1), (SYS_DWCTL_DIR 1, b2n wr)])
  (!(s.on (SYS_DWCTL_BUSY 1) || !burstFits a len 1), t)

/-- Read `n` words through a path's window. -/
def readWindow (p : Path) : Nat → State → List Nat × State
  | 0, s => ([], s)
  | n + 1, s =>
    let r := windowAccess p none s
    let q := readWindow p n r.2
    (r.1 :: q.1, q.2)

/-- Write words through a path's window. -/
def writeWindow (p : Path) (ws : Words) (s : State) : State := forAll ws (fun w t => (windowAccess p (some w.toNat) t).2) s

/-- Numbers as words. -/
def asWords (l : List Nat) : Words := l.map (BitVec.ofNat 32)

/-- READ32 (R78); any other bRequest is answered with a STALL. -/
def execRead32 (req : Byte) (span : Span) (s : State) : Host.Outcome State Fault Refusal :=
  .next (vendorRequest (fun s =>
    if req ≠ 1 ∨ span.wlen ≠ 4 ∨ span.addr.toNat % 4 ≠ 0 then s.emit .stall
    else
      let r := readWords .usb span.addr.toNat 1 s
      r.2.emit (.readBytes .usb (wordsBytes (asWords r.1)))) s)

/-- WRITE32 (R79): `status` tells whether the status stage completes. -/
def execWrite32 (span : Span) (v : Word) (status : Bool) (s : State) : Host.Outcome State Fault Refusal :=
  .next (vendorRequest (fun s =>
    if span.wlen ≠ 4 ∨ span.addr.toNat % 4 ≠ 0 then s.emit .stall else if status then regWrite .usb span.addr.toNat v.toNat s else s) s)

/-- DREAD (R78). -/
def execDread (addr : Word) (wlen : Nat) (s : State) : Host.Outcome State Fault Refusal :=
  .next (vendorRequest (fun s =>
    if !burstLength wlen ∨ addr.toNat % 4 ≠ 0 then s.emit .stall
    else
      let b := loadBurst addr.toNat (wlen / 4) false s
      if !b.1 then b.2.emit .stall
      else
        let r := readWindow .usb (wlen / 4) b.2
        r.2.emit (.readBytes .usb (wordsBytes (asWords r.1)))) s)

/-- DWRITE (R78, R79). -/
def execDwrite (addr : Word) (data : Bytes) (status : Bool) (s : State) : Host.Outcome State Fault Refusal :=
  .next (vendorRequest (fun s =>
    if !burstLength data.length ∨ addr.toNat % 4 ≠ 0 then s.emit .stall
    else if !status then s
    else
      let b := loadBurst addr.toNat (data.length / 4) true s
      if !b.1 then b.2.emit .stall else writeWindow .usb (bytesWords data) b.2) s)

/-- FLASH_ERASE (R78): the offset is aligned to a sector of 64 KiB. -/
def execFlashErase (span : Span) (status : Bool) (s : State) : Host.Outcome State Fault Refusal :=
  .next (vendorRequest (fun s =>
    if span.wlen ≠ 0 ∨ span.addr.toNat % 65536 ≠ 0 then s.emit .stall else if status then (flashRequest true span.addr.toNat 65536 [] none s).2 else s) s)

/-- FLASH_PROG (R78): within one sector. -/
def execFlashProg (off : Word) (data : Bytes) (status : Bool) (s : State) : Host.Outcome State Fault Refusal :=
  .next (vendorRequest (fun s =>
    if !burstLength data.length ∨ off.toNat % 4 ≠ 0 ∨ 65536 < off.toNat % 65536 + data.length then s.emit .stall
    else if status then (flashRequest false off.toNat data.length data none s).2 else s) s)

/-- FLASH_READ (R78, R528). -/
def execFlashRead (off : Word) (wlen : Nat) (s : State) : Host.Outcome State Fault Refusal :=
  .next (vendorRequest (fun s =>
    if !burstLength wlen ∨ off.toNat % 4 ≠ 0 ∨ s.mg.flashSize < off.toNat + wlen then s.emit .stall
    else s.emit (.readBytes .usb (flashBytes s off.toNat wlen))) s)

/-- FLASH_STAT (R78). -/
def execFlashStat (wlen : Nat) (s : State) : Host.Outcome State Fault Refusal :=
  .next (vendorRequest (fun s =>
    if wlen ≠ 4 then s.emit .stall else s.emit (.readBytes .usb (leBytes 4 s.mg.flashStat))) s)

/-! ### Management messages (R81, R82) -/

/-- The agent sends a message on TUN0 or TUN1 (R81, R127). -/
def sendMgmt (c : Crown) (op tag status : Nat) (addr : Word) (data : Words) (s : State) : State :=
  agentMessage c.val (mgmtBytes op tag status data.length addr data) (s.emit (.mgmt c op tag status data.length addr data))

/-- A response on a management tunnel: OP with bit 7 set, the request's TAG (R81). -/
def respond (c : Crown) (op tag status : Nat) (addr : Word) (data : Words) (s : State) : State := sendMgmt c (op ||| 0x80) tag status addr data s

/-- The range of `n` words from an address leaves the address's 64 KiB block, or the address is unaligned. -/
def badRange (addr : Word) (n : Nat) : Bool := addr.toNat % 4 ≠ 0 || !burstFits addr.toNat n 1

/-- A COUNT within 1 to 28. -/
def goodCount (count : Byte) : Bool := 1 ≤ count.toNat && count.toNat ≤ 28

/-- The words of a message: COUNT of them, absent ones 0. -/
def messageWords (count : Byte) (data : Words) : Words := (data ++ List.replicate count.toNat 0).take count.toNat

/-- A READ message is carried out. -/
def serveRead (c : Crown) (tag count : Byte) (addr : Word) (s : State) : State :=
  if !goodCount count then respond c 1 tag.toNat 2 addr [] s
  else if badRange addr count.toNat then respond c 1 tag.toNat 1 addr [] s
  else
    let r := readWords (tunPath c.val) addr.toNat count.toNat s
    respond c 1 tag.toNat 0 addr (asWords r.1) r.2

/-- Words written from an address on request a reset (R423). -/
def requestsReset (a : Nat) (ws : List Nat) : Bool :=
  a ≤ 0x10004 && (match ws[(0x10004 - a) / 4]? with | none => false | some v => bits v 31 24 = 0xA5 && (bit v 1 || bit v 2))

/-- What the agent has still to send on a management tunnel goes out at once: the response to a reset request is sent before the reset is taken
(R416, R423). -/
def sendWaiting (c : Nat) (s : State) : State :=
  let k := 256 + c
  forAll (s.tx k ++ s.secondQ k) (sendSeg c) ((s.setTx k []).setSecond k [])

/-- A WRITE message is carried out. -/
def serveWrite (c : Crown) (tag count : Byte) (addr : Word) (data : Words) (s : State) : State :=
  if !goodCount count then respond c 2 tag.toNat 2 addr [] s
  else if badRange addr count.toNat then respond c 2 tag.toNat 1 addr [] s
  else
    let ws := (messageWords count data).map (·.toNat)
    if requestsReset addr.toNat ws then writeWords (tunPath c.val) addr.toNat ws (sendWaiting c.val (respond c 2 tag.toNat 0 addr [] s))
    else respond c 2 tag.toNat 0 addr [] (writeWords (tunPath c.val) addr.toNat ws s)

/-- A flash operation that has begun is answered when it is done; one that is refused, at once (R81; DEDUCED, log entry 24). -/
def startFlash (c : Crown) (op tag : Nat) (off : Word) (r : Nat × State) : State := if r.1 = 0 then r.2 else respond c op tag r.1 off [] r.2

/-- A FLASH_ERASE message is carried out. -/
def serveErase (c : Crown) (tag count : Byte) (off : Word) (s : State) : State :=
  if count ≠ 0 then respond c 0x10 tag.toNat 2 off [] s
  else if off.toNat % 65536 ≠ 0 then respond c 0x10 tag.toNat 1 off [] s
  else
    startFlash c 0x10 tag.toNat off (flashRequest true off.toNat 65536 [] (some (c, 0x10, tag.toNat, off)) s)

/-- A FLASH_PROG message is carried out. -/
def serveProg (c : Crown) (tag count : Byte) (off : Word) (data : Words) (s : State) : State :=
  if !goodCount count then respond c 0x11 tag.toNat 2 off [] s
  else if badRange off count.toNat then respond c 0x11 tag.toNat 1 off [] s
  else
    startFlash c 0x11 tag.toNat off
      (flashRequest false off.toNat (4 * count.toNat) (wordsBytes (messageWords count data)) (some (c, 0x11, tag.toNat, off)) s)

/-- A FLASH_READ message is carried out. -/
def serveFlashRead (c : Crown) (tag count : Byte) (off : Word) (s : State) : State :=
  if !goodCount count then respond c 0x12 tag.toNat 2 off [] s
  else if badRange off count.toNat then respond c 0x12 tag.toNat 1 off [] s
  else if s.mg.flashSize < off.toNat + 4 * count.toNat then respond c 0x12 tag.toNat 5 off [] s
  else respond c 0x12 tag.toNat 0 off (bytesWords (flashBytes s off.toNat (4 * count.toNat))) s

/-- Whether an OP and a COUNT make a request of R81. -/
def requestForm (op count : Byte) : Bool :=
  match op.toNat with
  | 0x01 => goodCount count
  | 0x02 => goodCount count
  | 0x10 => count = 0
  | 0x11 => goodCount count
  | 0x12 => goodCount count
  | _ => false

/-- A message with a reserved OP, or a COUNT outside its OP's range, is answered (R81). -/
def serveReserved (c : Crown) (op tag count : Byte) (addr : Word) (s : State) : State :=
  if requestForm op count then s else respond c op.toNat tag.toNat 2 addr [] s

/-- Carry out a management message; one on a disabled path is discarded (R71). -/
def serve (m : Instr) (s : State) : State :=
  let on (c : Crown) (f : State → State) : State := if pathEnabled s (tunPath c.val) then f s else s
  match m with
  | .read c tag count addr => on c (serveRead c tag count addr)
  | .write c tag count addr data => on c (serveWrite c tag count addr data)
  | .mgmtFlashErase c tag count off => on c (serveErase c tag count off)
  | .mgmtFlashProg c tag count off data => on c (serveProg c tag count off data)
  | .mgmtFlashRead c tag count off => on c (serveFlashRead c tag count off)
  | .mgmtReservedOp c op tag r => on c (serveReserved c op tag r.count r.addr)
  | _ => s

/-- A tunnel's flash operation is under way: its later requests wait, so that the responses keep their order (R82). -/
def flashPending (s : State) (c : Nat) : Bool := s.mg.flashOp.any fun op => op.reply.any fun r => r.1.val = c

/-- A message is held behind the tunnel's earlier ones, at most 16 of them (R82). -/
def holdMessage (c : Nat) (m : Instr) (s : State) : State :=
  let q := mget [] s.mg.held c
  if q.length < 16 then { s with mg := { s.mg with held := mins s.mg.held c (q ++ [m]) } } else s

/-- A management message arrives (R69, R71, R82): discarded where the tunnel does not reach or is disabled, held while FWRDY is 0 or an earlier
request of the tunnel still waits, else carried out. -/
def arrive (c : Crown) (m : Instr) (s : State) : State :=
  if !tunReachable s c.val ∨ !pathEnabled s (tunPath c.val) then s
  else if s.on SYS_STAGE_FWRDY && !flashPending s c.val then serve m s
  else holdMessage c.val m s

/-- The held requests of a tunnel are carried out in order, up to one that has to wait. -/
def serveQueue (c : Nat) (s : State) : State :=
  if !s.on SYS_STAGE_FWRDY then s
  else forAll (mget [] s.mg.held c) (fun m t => if flashPending t c then holdMessage c m t else serve m t) { s with mg := { s.mg with held := mdel s.mg.held c } }

/-- Once FWRDY rises the held requests are carried out, TUN0's before TUN1's (R74, R397). -/
def serveHeld (s : State) : State := serveQueue 1 (serveQueue 0 s)

/-- A flash operation that a management message asked for is answered when it is done: STATUS 0x00, or 0x05 for a flash error; the tunnel's next
requests follow (R81, R82). -/
def answerFlash (op : FlashOp) (ok : Bool) (s : State) : State :=
  match op.reply with
  | none => s
  | some (c, o, tag, addr) =>
    if !tunReachable s c.val ∨ !pathEnabled s (tunPath c.val) then s
    else serveQueue c.val (respond c o tag (if ok then 0 else 5) addr [] s)

/-- FLASH_OP_COMPLETE (R80). What a failed operation leaves in its range is free. -/
def execFlashOpComplete (ok : Bool) (s : State) : Host.Outcome State Fault Refusal :=
  match s.mg.flashOp with
  | none => .next s
  | some op =>
    let (x, t) := s.free
    let n := if op.erase then 0x10000 else op.data.length
    let m := if !ok then memWrite 0xFF t.flash op.off (leBytes n x)
      else if op.erase then t.flash.filter fun e => e.1 < op.off || op.off + 0x10000 ≤ e.1
      else programBytes op.off op.data x t.flash
    .next (answerFlash op ok { t with flash := m, mg := { t.mg with flashOp := none, flashStat := if ok then 2 else 4 } })

/-- READ (R81). -/
def execRead (crown : Crown) (tag count : Byte) (addr : Word) (s : State) : Host.Outcome State Fault Refusal :=
  .next (arrive crown (.read crown tag count addr) s)

/-- WRITE (R81). -/
def execWrite (crown : Crown) (tag count : Byte) (addr : Word) (data : Words) (s : State) : Host.Outcome State Fault Refusal :=
  .next (arrive crown (.write crown tag count addr data) s)

/-- MGMT_FLASH_ERASE (R81). -/
def execMgmtFlashErase (crown : Crown) (tag count : Byte) (off : Word) (s : State) : Host.Outcome State Fault Refusal :=
  .next (arrive crown (.mgmtFlashErase crown tag count off) s)

/-- MGMT_FLASH_PROG (R81). -/
def execMgmtFlashProg (crown : Crown) (tag count : Byte) (off : Word) (data : Words) (s : State) : Host.Outcome State Fault Refusal :=
  .next (arrive crown (.mgmtFlashProg crown tag count off data) s)

/-- MGMT_FLASH_READ (R81). -/
def execMgmtFlashRead (crown : Crown) (tag count : Byte) (off : Word) (s : State) : Host.Outcome State Fault Refusal :=
  .next (arrive crown (.mgmtFlashRead crown tag count off) s)

/-- MGMT_RESERVED_OP (R81). -/
def execMgmtReservedOp (crown : Crown) (op tag : Byte) (r : MgmtRange) (s : State) : Host.Outcome State Fault Refusal :=
  .next (arrive crown (.mgmtReservedOp crown op tag r) s)

/-- FIRMWARE_BOOT (R406, R528). -/
def execFirmwareBoot (sfdp : Option Nat) (s : State) : Host.Outcome State Fault Refusal := .next (serveHeld (firmwareBoot sfdp s))

/-- MGMT_RESTART_COMPLETE (R396, R397). -/
def execMgmtRestartComplete (aOk bOk : Bool) (s : State) : Host.Outcome State Fault Refusal :=
  .next (serveHeld (mgmtRestarted aOk bOk s))

/-! ### Event reports (R90, R91, R343) -/

/-- The records of a unit of the summary: UNIT, SUB and the EVSTAT of each pending part; a grove's lane cells come first. -/
def unitRecords (s : State) (n : Nat) : List (Nat × Nat × Nat) :=
  let own := if pendingLeaves s n = 0 then [] else [(n, 0xFF, s.rd (EVSTAT n))]
  if n < 9 then
    ((cellsOf s n).mapIdx fun k c => if pendingLeaves s (32 + c) = 0 then [] else [(n, k, s.rd (EVSTAT (32 + c)))]).flatten ++ own
  else own

/-- An event report of at most `room` records (R90): header, then records. -/
def reportBytes (s : State) (mask seq room : Nat) : Bytes :=
  let sum := chipSummary s &&& mask
  let rs := ((List.range 26).filter fun n => bit sum n).flatMap (unitRecords s)
  let now := rs.take room
  leBytes 1 1 ++ leBytes 1 seq ++ leBytes 1 (b2n (room < rs.length)) ++ leBytes 1 now.length ++ leBytes 4 sum ++
    now.flatMap fun r => leBytes 1 r.1 ++ leBytes 1 r.2.1 ++ leBytes 2 0 ++ leBytes 4 r.2.2

/-- EVENT (R91): a report that is due on a tunnel that carries it, once FWRDY is 1. The spec gives its TAG, STATUS and ADDR no value: they are 0
(DESIGN CHOICE, log entry 109). -/
def execEvent (crown : Crown) (s : State) : Host.Outcome State Fault Refusal :=
  let c := crown.val
  let r := if c = 0 then s.mg.tun0 else s.mg.tun1
  if !r.due ∨ !tunCarries s c ∨ !s.on SYS_STAGE_FWRDY then .next s
  else
    let data := bytesWords (reportBytes s (s.rd SYS_EVMASK_TUN_MASK) (r.seq % 256) 13)
    let r' : Report := { due := false, seq := (r.seq + 1) % 256 }
    let m := if c = 0 then { s.mg with tun0 := r' } else { s.mg with tun1 := r' }
    .next (sendMgmt crown 5 0 0 0 data { s with mg := m })

/-- EP1's packet size by the alternate setting (R336). -/
def ep1Size (s : State) : Nat := 8 * 2 ^ s.rd USB_MGT_ALT

/-- EP1_IN_TOKEN (R91, R341, R343): silence while FWRDY is 0; a STALL while the endpoint is halted; the report that waits for its ACK
again; a new report; or a NAK. -/
def execEp1InToken (s : State) : Host.Outcome State Fault Refusal :=
  if !treeRuns s ∨ !s.on USB_MGT_CONF then .next s
  else if !s.on SYS_STAGE_FWRDY then
    let t := s.inc USB_MGT_SILENT
    let n := t.mg.ep1Silent + 1
    let t := { t with mg := { t.mg with ep1Silent := n } }
    .next (if n = 3 then raise 19 7 (t.wr USB_MGT_EP1HALT 1) else t)
  else
  let s := { s with mg := { s.mg with ep1Silent := 0 } }
  if s.on USB_MGT_EP1HALT then .next (s.emit .stall)
  else match s.mg.ep1Sent with
    | some b => .next (s.emit (.ep1Report b))
    | none =>
      if !s.mg.ep1.due then .next (s.emit .ep1Nak)
      else
        let b := reportBytes s (s.rd SYS_EVMASK_EP1_MASK) (s.mg.ep1.seq % 256) ((ep1Size s - 8) / 8)
        .next ({ s with mg := { s.mg with ep1Sent := some b, ep1 := { due := false, seq := (s.mg.ep1.seq + 1) % 256 } } }.emit (.ep1Report b))

/-- EP1_ACK (R343): the report is delivered, and the toggle advances. -/
def execEp1Ack (s : State) : Host.Outcome State Fault Refusal :=
  .next (if s.mg.ep1Sent.isSome then { s with mg := { s.mg with ep1Sent := none }, ut := { s.ut with toggle := !s.ut.toggle } } else s)

/-! ### The P43 target (R83, R84) -/

/-- The I2C target answers: P43 is alive, does not carry the SPI function, and is called by its own address (R83). -/
def i2cAnswers (s : State) (dev : BitVec 7) : Bool := !p43Dead s && !p43Spi s && dev = (if s.bt.asel then 0x3B else 0x3A)

/-- The SPI target answers (R69): not in Seedling, nor while ENBRD is 0; under PINS only with its function. -/
def spiAnswers (s : State) : Bool := !p43Dead s && !p43Limited s && (s.bt.pinFns = [] || p43Spi s)

/-- Word writes by P43 from an address on, each within what the path reaches. -/
def p43Write (a : Nat) (ws : Words) (s : State) : State :=
  (ws.foldl (fun (acc : Nat × State) w => (acc.1 + 4, pathWrite .p43 (acc.1 % 2 ^ 32) w.toNat acc.2)) (a, s)).2

/-- Bytes that P43 reads from an address on. -/
def p43Read (a n : Nat) (s : State) : Bytes × State :=
  let r := pathRead .p43 a (ceilDiv n 4) s
  ((wordsBytes (asWords (r.1.getD []))).take n, r.2)

/-- An address as P43 takes it: the words of the map are aligned (DEDUCED, log entry 18). -/
def wordAddr (addr : Word) : Nat := addr.toNat / 4 * 4

/-- I2C_WRITE_TRANSFER (R83): each complete word commits. -/
def execI2cWriteTransfer (addr : I2c Word) (data : Bytes) (s : State) : Host.Outcome State Fault Refusal :=
  .next (if i2cAnswers s addr.dev then p43Write (wordAddr addr.val) (bytesWords data) s else s)

/-- I2C_SET_READ_ADDRESS (R83). -/
def execI2cSetReadAddress (addr : I2c Word) (s : State) : Host.Outcome State Fault Refusal :=
  .next (if i2cAnswers s addr.dev then { s with mg := { s.mg with i2cAddr := wordAddr addr.val } } else s)

/-- I2C_READ_TRANSFER (R83): a further transfer goes on after the last word of which all four bytes were transferred. -/
def execI2cReadTransfer (nbytes : I2c Nat) (s : State) : Host.Outcome State Fault Refusal :=
  if !i2cAnswers s nbytes.dev then .next s
  else
    let r := p43Read s.mg.i2cAddr nbytes.val s
    let t := { r.2 with mg := { r.2.mg with i2cAddr := (s.mg.i2cAddr + nbytes.val / 4 * 4) % 2 ^ 32 } }
    .next (t.emit (.readBytes .p43 r.1))

/-- I2C_INVALID_COMMAND (R83). -/
def execI2cInvalidCommand (cmd : I2c Byte) (s : State) : Host.Outcome State Fault Refusal :=
  .next (if i2cAnswers s cmd.dev ∧ cmd.val ≠ 1 ∧ cmd.val ≠ 2 then s.emit .nack else s)

/-- SPI_WRITE_FRAME (R84). -/
def execSpiWriteFrame (addr : Word) (data : Bytes) (s : State) : Host.Outcome State Fault Refusal :=
  .next (if spiAnswers s then p43Write (wordAddr addr) (bytesWords data) s else s)

/-- SPI_READ_FRAME (R84): the four turnaround bytes are undefined. -/
def execSpiReadFrame (addr : Word) (nbytes : Nat) (s : State) : Host.Outcome State Fault Refusal :=
  if !spiAnswers s then .next s
  else
    let (x, t) := s.free
    let r := p43Read (wordAddr addr) nbytes t
    .next (r.2.emit (.readBytes .p43 (leBytes 4 x ++ r.1)))

/-- SPI_INVALID_COMMAND (R84). -/
def execSpiInvalidCommand (cmd : Byte) (nbytes : Nat) (s : State) : Host.Outcome State Fault Refusal :=
  .next (if spiAnswers s ∧ cmd ≠ 2 ∧ cmd ≠ 0x0B then s.emit (.readBytes .p43 (List.replicate nbytes 0xFF)) else s)

/-! ### Commands that write a register by a path -/

/-- A path writes bits of a register beside its current settings. -/
def writeBits (p : Path) (a set : Nat) (s : State) : State := pathWrite p a (peekWord p a s ||| set) s

/-- REGISTER_WRITE (R7). -/
def execRegisterWrite (path : Path) (addr v : Word) (s : State) : Host.Outcome State Fault Refusal :=
  .next (pathWrite path (wordAddr addr) v.toNat s)

/-- UNMAPPED_ACCESS (R73): an access to an address that no register occupies. -/
def execUnmappedAccess (path : Path) (addr : Word) (wr : Bool) (s : State) : Host.Outcome State Fault Refusal :=
  let a := wordAddr addr
  if (decodeFor path.idx a).isSome ∨ absentAddr (variant s) a ∨ reservedWord a then .next s
  else if wr then .next (pathWrite path a 0 s)
  else
    let r := pathRead path a 1 s
    .next (match r.1 with | some [w] => r.2.emit (.readData path (BitVec.ofNat 32 w)) | _ => r.2)

/-- ARM (R76). -/
def execArm (path : Path) (v : Word) (s : State) : Host.Outcome State Fault Refusal := .next (pathWrite path 0x24 (v.toNat ||| 2) s)

/-- SYS_DWDATA_ACCESS (R77): a read, or a write of a word. -/
def execSysDwdataAccess (path : Path) (w : Option Word) (s : State) : Host.Outcome State Fault Refusal :=
  match w with
  | some v => .next (pathWrite path 0x28 v.toNat s)
  | none =>
    let r := pathRead path 0x28 1 s
    .next (match r.1 with | some [x] => r.2.emit (.readData path (BitVec.ofNat 32 x)) | _ => r.2)

/-- CHECK (R66). -/
def execCheck (path : Path) (s : State) : Host.Outcome State Fault Refusal := .next (pathWrite path 0x40040 4 s)

/-- ADVANCE (R49). -/
def execAdvance (path : Path) (s : State) : Host.Outcome State Fault Refusal := .next (pathWrite path 0x40040 2 s)

/-- GO (R55). -/
def execGo (path : Path) (v : Word) (s : State) : Host.Outcome State Fault Refusal := .next (pathWrite path 0x40044 (v.toNat ||| 2 ^ 31) s)

/-- HOSTSEL_CHANGE (R125). -/
def execHostselChange (path : Path) (v : Word) (s : State) : Host.Outcome State Fault Refusal := .next (pathWrite path 0x20804 v.toNat s)

/-- TT_LIMIT_WRITE (R123). -/
def execTtLimitWrite (path : Path) (n : Tun) (v : Word) (s : State) : Host.Outcome State Fault Refusal :=
  .next (pathWrite path (0x400010 + 0x40 * n.val) v.toNat s)

/-- The entry offset of a parameter word (R123). -/
def ttOffset : TtParam → Nat
  | .shape => 0x14 | .meter => 0x18 | .cbs => 0x1C | .pbs => 0x20

/-- TT_PARAM_WRITE (R123). -/
def execTtParamWrite (path : Path) (n : Tun) (reg : TtParam) (v : Word) (s : State) : Host.Outcome State Fault Refusal :=
  .next (pathWrite path (0x400000 + 0x40 * n.val + ttOffset reg) v.toNat s)

/-- NSRC_WRITE (R183). -/
def execNsrcWrite (path : Path) (v : Word) (s : State) : Host.Outcome State Fault Refusal := .next (pathWrite path 0xC0000 v.toNat s)

/-- SCHED_VIRT_WRITE (R182). -/
def execSchedVirtWrite (path : Path) (v : Word) (s : State) : Host.Outcome State Fault Refusal := .next (pathWrite path 0xC0014 v.toNat s)

/-- OVH_WRITE (R190). -/
def execOvhWrite (path : Path) (port : Port) (v : Word) (s : State) : Host.Outcome State Fault Refusal :=
  .next (pathWrite path (portReg port.val 0x480 4) v.toNat s)

/-- RETRAIN (R218). -/
def execRetrain (path : Path) (port : CanPort) (s : State) : Host.Outcome State Fault Refusal :=
  .next (writeBits path (portReg port.val 0x600 4) (2 ^ 31) s)

/-- UPREF_WRITE (R244): the parent's WRITE message on the crown port's management tunnel. -/
def execUprefWrite (crown : Crown) (v : Word) (s : State) : Host.Outcome State Fault Refusal :=
  .next (pathWrite (tunPath crown.val) (0x102004 + 0x10000 * crown.val) v.toNat s)

/-- RTRN (R260). -/
def execRtrn (path : Path) (cell : LaneCell) (s : State) : Host.Outcome State Fault Refusal :=
  .next (writeBits path (0x200000 + 0x1000 * cell.val) (2 ^ 30) s)

/-- HOLD (R272). -/
def execHold (path : Path) (cell : LaneCell) (on : Bool) (s : State) : Host.Outcome State Fault Refusal :=
  let a := 0x200000 + 0x1000 * cell.val
  .next (pathWrite path a (peekWord path a s % 2 ^ 31 + b2n on * 2 ^ 31) s)

/-- TEST_ENABLE (R272). -/
def execTestEnable (path : Path) (cell : LaneCell) (v : Word) (s : State) : Host.Outcome State Fault Refusal :=
  .next (pathWrite path (0x200020 + 0x1000 * cell.val) v.toNat s)

/-- CLR (R276). -/
def execClr (path : Path) (cell : LaneCell) (s : State) : Host.Outcome State Fault Refusal :=
  .next (writeBits path (0x200020 + 0x1000 * cell.val) 1 s)

/-- INJECT (R271). -/
def execInject (path : Path) (cell : LaneCell) (v : Word) (s : State) : Host.Outcome State Fault Refusal :=
  .next (pathWrite path (0x200024 + 0x1000 * cell.val) (v.toNat ||| 2 ^ 31) s)

/-- FSBASE_WRITE (R290). -/
def execFsbaseWrite (path : Path) (d : Pipe) (v : Word) (s : State) : Host.Outcome State Fault Refusal :=
  .next (pathWrite path (0x300020 + 0x10000 * d.val) v.toNat s)

/-- EJREQ (R318). -/
def execEjreq (path : Path) (port : Port) (s : State) : Host.Outcome State Fault Refusal :=
  .next (pathWrite path (portReg port.val 0x3004 0x100) (2 ^ 31) s)

/-- ETHMAP_WRITE (R322). -/
def execEthmapWrite (path : Path) (port : Port) (v : Word) (s : State) : Host.Outcome State Fault Refusal :=
  .next (pathWrite path (portReg port.val 0x3008 0x100) v.toNat s)

/-- MAXFRM_WRITE (R321). -/
def execMaxfrmWrite (path : Path) (port : Port) (v : Word) (s : State) : Host.Outcome State Fault Refusal :=
  .next (pathWrite path (portReg port.val 0x300C 0x100) v.toNat s)

/-- PFCEN_WRITE (R325). -/
def execPfcenWrite (path : Path) (port : Port) (v : Word) (s : State) : Host.Outcome State Fault Refusal :=
  .next (pathWrite path (portReg port.val 0x300C 0x100) v.toNat s)

/-- TBINCI_WRITE (R355). -/
def execTbinciWrite (path : Path) (n : TimeBase) (v : Word) (s : State) : Host.Outcome State Fault Refusal :=
  .next (pathWrite path (0x50004 + 0x40 * n.val) v.toNat s)

/-- TBINCF_WRITE (R355). -/
def execTbincfWrite (path : Path) (n : TimeBase) (v : Word) (s : State) : Host.Outcome State Fault Refusal :=
  .next (pathWrite path (0x50008 + 0x40 * n.val) v.toNat s)

/-- RUN (R356). -/
def execRun (path : Path) (n : TimeBase) (v : Word) (s : State) : Host.Outcome State Fault Refusal :=
  .next (pathWrite path (0x50000 + 0x40 * n.val) v.toNat s)

/-- TBLD_WRITE (R356): the nanoseconds, or the fraction. -/
def execTbldWrite (path : Path) (n : TimeBase) (fr : Bool) (v : Word) (s : State) : Host.Outcome State Fault Refusal :=
  .next (pathWrite path ((if fr then 0x50010 else 0x5000C) + 0x40 * n.val) v.toNat s)

/-- TAKE (R358). -/
def execTake (path : Path) (s : State) : Host.Outcome State Fault Refusal := .next (pathWrite path 0x50200 (2 ^ 31) s)

/-- LVLCLR (R374). -/
def execLvlclr (path : Path) (e : EvtPin) (s : State) : Host.Outcome State Fault Refusal :=
  .next (writeBits path (0x50400 + 0x20 * e.val) (2 ^ 24) s)

/-- FLTINJ (R400). -/
def execFltinj (path : Path) (v : Word) (s : State) : Host.Outcome State Fault Refusal := .next (pathWrite path 0x1010C (v.toNat ||| 2 ^ 31) s)

/-- COLD (R423). -/
def execCold (path : Path) (v : Word) (s : State) : Host.Outcome State Fault Refusal := .next (pathWrite path 0x10004 (v.toNat ||| 4) s)

/-- WARM (R423). -/
def execWarm (path : Path) (v : Word) (s : State) : Host.Outcome State Fault Refusal := .next (pathWrite path 0x10004 (v.toNat ||| 2) s)

/-- PRST (R425). -/
def execPrst (path : Path) (v : Word) (s : State) : Host.Outcome State Fault Refusal := .next (pathWrite path 0x10004 (v.toNat ||| 8) s)

/-- PS_REQUEST (R432). -/
def execPsRequest (path : Path) (v : Word) (s : State) : Host.Outcome State Fault Refusal :=
  .next (pathWrite path 0x20000 (v.toNat ||| 2 ^ 31) s)

/-- HRST (R460). -/
def execHrst (path : Path) (port : CanPort) (s : State) : Host.Outcome State Fault Refusal :=
  .next (writeBits path (0x70000 + 0x40 * port.val) (2 ^ 31) s)

/-- ERREC (R460). -/
def execErrec (path : Path) (port : CanPort) (s : State) : Host.Outcome State Fault Refusal :=
  .next (writeBits path (0x70000 + 0x40 * port.val) (2 ^ 30) s)

/-- CHANNEL_CLR (R482). -/
def execChannelClr (path : Path) (ch : Channel) (s : State) : Host.Outcome State Fault Refusal :=
  .next (writeBits path (0x80000 + 0x20 * ch.val) (2 ^ 31) s)

/-- BUDGET_WRITE (R474). -/
def execBudgetWrite (path : Path) (v : Word) (s : State) : Host.Outcome State Fault Refusal := .next (pathWrite path 0x20020 v.toNat s)

/-- A KEY_CMD word with the OP of a command and GO; the rest of the word as given (R497). -/
def keyWord (op v : Nat) : Nat := 2 ^ 31 + op * 2 ^ 24 + v % 2 ^ 24

/-- LOAD (R497). -/
def execLoad (path : Path) (v : Word) (s : State) : Host.Outcome State Fault Refusal := .next (pathWrite path 0x60000 (keyWord 1 v.toNat) s)

/-- KEY_WRITE (R497). -/
def execKeyWrite (path : Path) (v : Word) (s : State) : Host.Outcome State Fault Refusal := .next (pathWrite path 0x60000 (keyWord 2 v.toNat) s)

/-- STORE (R497). -/
def execStore (path : Path) (v : Word) (s : State) : Host.Outcome State Fault Refusal := .next (pathWrite path 0x60000 (keyWord 3 v.toNat) s)

/-- DESTROY (R497). -/
def execDestroy (path : Path) (v : Word) (s : State) : Host.Outcome State Fault Refusal := .next (pathWrite path 0x60000 (keyWord 4 v.toNat) s)

/-- ATTEST (R497, R500). -/
def execAttest (path : Path) (v : Word) (s : State) : Host.Outcome State Fault Refusal := .next (pathWrite path 0x60000 (keyWord 5 v.toNat) s)

/-- ZEROISE (R497, R502). -/
def execZeroise (path : Path) (s : State) : Host.Outcome State Fault Refusal := .next (pathWrite path 0x60000 (keyWord 6 0) s)

end Sys2Proof.Machine
end

