-- ==== Sys2Proof/Machine/Agent.lean ====
section
/-! DEFINITION. The management agent at F19 (R70, R81, R127): the messages that the fabric hands to it, and the two commands that may bring one: a
segment's arrival and a slot of the fabric. -/

namespace Sys2Proof.Machine

/-- The payload of a management message as a request of R81. -/
def parseMessage (c : Crown) (b : Bytes) : Instr :=
  let op := b.getD 0 0
  let tag := b.getD 1 0
  let count := b.getD 3 0
  let addr : Word := BitVec.ofNat 32 (leAt b 4 4)
  let data := (bytesWords (b.drop 8)).take count.toNat
  if !requestForm op count then .mgmtReservedOp c op tag ⟨count, addr⟩
  else match op.toNat with
    | 0x01 => .read c tag count addr
    | 0x02 => .write c tag count addr data
    | 0x10 => .mgmtFlashErase c tag count addr
    | 0x11 => .mgmtFlashProg c tag count addr data
    | _ => .mgmtFlashRead c tag count addr

/-- A message reaches the agent: from TUN0 or TUN1 a request of the host, from a child's management tunnel what concerns the hub itself. -/
def agentTake (m : Nat × Bytes) (s : State) : State :=
  let n := m.1
  let b := m.2
  if h : n < 2 then arrive ⟨n, h⟩ (parseMessage ⟨n, h⟩ b) s
  else match (List.range 8).find? fun p => cascadeBase s p = some (n - 1) with
    | none => s
    | some p => childAnswer p (n - 1) (byteAt b 0) (byteAt b 1) (byteAt b 2) (byteAt b 3) (BitVec.ofNat 32 (leAt b 4 4))
        ((bytesWords (b.drop 8)).take (byteAt b 3)) s

/-- The agent takes every message that has been handed to it, in order. -/
def agentWork (s : State) : State := forAll s.mg.inbox agentTake { s with mg := { s.mg with inbox := [] } }

/-- SEGMENT_INGRESS (R21, R101 to R104, R229). -/
def execSegmentIngress (port : Port) (hdr : BitVec 64) (payload : Bytes) (s : State) : Host.Outcome State Fault Refusal :=
  .next (agentWork (segmentArrives port.val hdr payload s))

/-- FABRIC_SLOT (R128): at a phase 0 a takeover's remap comes first (R145). Each operand marks the sideband words that fail parity (R138). -/
def execFabricSlot (accBad retBad outBad : BitVec 20) (s : State) : Host.Outcome State Fault Refusal :=
  .next (agentWork (slotStep accBad retBad outBad (if s.rd FAB_SLOT_COUNT % 20 = 0 then remapDue s else s)))

end Sys2Proof.Machine
end

