-- ==== Sys2Proof/Machine/Dispatch.lean ====
section
/-! DEFINITION. One arm per command: the meaning it has. -/

namespace Sys2Proof.Machine

/-- The effect of a command on everything but the queue. -/
def exec (i : Instr) (s : State) : Host.Outcome State Fault Refusal :=
  match i with
  | .registerWrite path addr v => Sys2Proof.Machine.execRegisterWrite path addr v s
  | .unmappedAccess path addr wr => Sys2Proof.Machine.execUnmappedAccess path addr wr s
  | .segmentIngress port hdr payload => Sys2Proof.Machine.execSegmentIngress port hdr payload s
  | .clockFailure clk => Sys2Proof.Machine.execClockFailure clk s
  | .settleTimerExpiry => Sys2Proof.Machine.execSettleTimerExpiry s
  | .solveCommit t => Sys2Proof.Machine.execSolveCommit t s
  | .tableSwap => Sys2Proof.Machine.execTableSwap s
  | .imageLoad => Sys2Proof.Machine.execImageLoad s
  | .imageStreamComplete => Sys2Proof.Machine.execImageStreamComplete s
  | .flashReadError copyB => Sys2Proof.Machine.execFlashReadError copyB s
  | .imageConfigComplete => Sys2Proof.Machine.execImageConfigComplete s
  | .check path => Sys2Proof.Machine.execCheck path s
  | .checkComplete => Sys2Proof.Machine.execCheckComplete s
  | .advance path => Sys2Proof.Machine.execAdvance path s
  | .go path v => Sys2Proof.Machine.execGo path v s
  | .sliceReloadCommit => Sys2Proof.Machine.execSliceReloadCommit s
  | .reloadReconfigComplete => Sys2Proof.Machine.execReloadReconfigComplete s
  | .read32 req span => Sys2Proof.Machine.execRead32 req span s
  | .write32 span v status => Sys2Proof.Machine.execWrite32 span v status s
  | .dread addr wlen => Sys2Proof.Machine.execDread addr wlen s
  | .dwrite addr data status => Sys2Proof.Machine.execDwrite addr data status s
  | .flashErase span status => Sys2Proof.Machine.execFlashErase span status s
  | .flashProg off data status => Sys2Proof.Machine.execFlashProg off data status s
  | .flashRead off wlen => Sys2Proof.Machine.execFlashRead off wlen s
  | .flashStat wlen => Sys2Proof.Machine.execFlashStat wlen s
  | .flashOpComplete ok => Sys2Proof.Machine.execFlashOpComplete ok s
  | .read crown tag count addr => Sys2Proof.Machine.execRead crown tag count addr s
  | .write crown tag count addr data => Sys2Proof.Machine.execWrite crown tag count addr data s
  | .mgmtFlashErase crown tag count off => Sys2Proof.Machine.execMgmtFlashErase crown tag count off s
  | .mgmtFlashProg crown tag count off data => Sys2Proof.Machine.execMgmtFlashProg crown tag count off data s
  | .mgmtFlashRead crown tag count off => Sys2Proof.Machine.execMgmtFlashRead crown tag count off s
  | .mgmtReservedOp crown op tag r => Sys2Proof.Machine.execMgmtReservedOp crown op tag r s
  | .event crown => Sys2Proof.Machine.execEvent crown s
  | .ep1InToken => Sys2Proof.Machine.execEp1InToken s
  | .ep1Ack => Sys2Proof.Machine.execEp1Ack s
  | .arm path v => Sys2Proof.Machine.execArm path v s
  | .sysDwdataAccess path w => Sys2Proof.Machine.execSysDwdataAccess path w s
  | .i2cWriteTransfer addr data => Sys2Proof.Machine.execI2cWriteTransfer addr data s
  | .i2cSetReadAddress addr => Sys2Proof.Machine.execI2cSetReadAddress addr s
  | .i2cReadTransfer nbytes => Sys2Proof.Machine.execI2cReadTransfer nbytes s
  | .i2cInvalidCommand cmd => Sys2Proof.Machine.execI2cInvalidCommand cmd s
  | .spiWriteFrame addr data => Sys2Proof.Machine.execSpiWriteFrame addr data s
  | .spiReadFrame addr nbytes => Sys2Proof.Machine.execSpiReadFrame addr nbytes s
  | .spiInvalidCommand cmd nbytes => Sys2Proof.Machine.execSpiInvalidCommand cmd nbytes s
  | .hostselChange path v => Sys2Proof.Machine.execHostselChange path v s
  | .ttLimitWrite path n v => Sys2Proof.Machine.execTtLimitWrite path n v s
  | .ttParamWrite path n reg v => Sys2Proof.Machine.execTtParamWrite path n reg v s
  | .flushComplete n => Sys2Proof.Machine.execFlushComplete n s
  | .quarantineEnd n => Sys2Proof.Machine.execQuarantineEnd n s
  | .fabricSlot accBad retBad outBad => Sys2Proof.Machine.execFabricSlot accBad retBad outBad s
  | .mapSwitch => Sys2Proof.Machine.execMapSwitch s
  | .xgapTimeout n => Sys2Proof.Machine.execXgapTimeout n s
  | .returnTimer n => Sys2Proof.Machine.execReturnTimer n s
  | .egressUnitStart port => Sys2Proof.Machine.execEgressUnitStart port s
  | .cutThroughAbort port => Sys2Proof.Machine.execCutThroughAbort port s
  | .backoffEnd port => Sys2Proof.Machine.execBackoffEnd port s
  | .stallTimerExpiry port => Sys2Proof.Machine.execStallTimerExpiry port s
  | .pauseRepeat port => Sys2Proof.Machine.execPauseRepeat port s
  | .portRetrainWait port => Sys2Proof.Machine.execPortRetrainWait port s
  | .voidReclaim n gen => Sys2Proof.Machine.execVoidReclaim n gen s
  | .bufferCellRetire cell logic => Sys2Proof.Machine.execBufferCellRetire cell logic s
  | .cellEvacuated cell => Sys2Proof.Machine.execCellEvacuated cell s
  | .leadFrameStart total inc => Sys2Proof.Machine.execLeadFrameStart total inc s
  | .leadSourceLost => Sys2Proof.Machine.execLeadSourceLost s
  | .nsrcWrite path v => Sys2Proof.Machine.execNsrcWrite path v s
  | .schedVirtWrite path v => Sys2Proof.Machine.execSchedVirtWrite path v s
  | .ovhWrite path port v => Sys2Proof.Machine.execOvhWrite path port v s
  | .qbvCycleStart port => Sys2Proof.Machine.execQbvCycleStart port s
  | .credit port tun limit => Sys2Proof.Machine.execCredit port tun limit s
  | .creditTimer n => Sys2Proof.Machine.execCreditTimer n s
  | .lgrant port tun pipe line frm => Sys2Proof.Machine.execLgrant port tun pipe line frm s
  | .rack port lun => Sys2Proof.Machine.execRack port lun s
  | .rnak port lun => Sys2Proof.Machine.execRnak port lun s
  | .rnakRepeat port => Sys2Proof.Machine.execRnakRepeat port s
  | .resume port lun => Sys2Proof.Machine.execResume port lun s
  | .uncorrectableCodeword cell pairB cw slots => Sys2Proof.Machine.execUncorrectableCodeword cell pairB cw slots s
  | .recordClose port => Sys2Proof.Machine.execRecordClose port s
  | .tag port epoch recno tag => Sys2Proof.Machine.execTag port epoch recno tag s
  | .keyUpdateStart port => Sys2Proof.Machine.execKeyUpdateStart port s
  | .kupd port epoch lun => Sys2Proof.Machine.execKupd port epoch lun s
  | .kupdRepeat port => Sys2Proof.Machine.execKupdRepeat port s
  | .kack port epoch => Sys2Proof.Machine.execKack port epoch s
  | .kackTimeout port => Sys2Proof.Machine.execKackTimeout port s
  | .caps port part content pref => Sys2Proof.Machine.execCaps port part content pref s
  | .kshare port index w => Sys2Proof.Machine.execKshare port index w s
  | .hsfin port verify => Sys2Proof.Machine.execHsfin port verify s
  | .tsync port seq tb => Sys2Proof.Machine.execTsync port seq tb s
  | .ttx port x ns fr => Sys2Proof.Machine.execTtx port x ns fr s
  | .trx port x ns fr => Sys2Proof.Machine.execTrx port x ns fr s
  | .linkTimeTsync port => Sys2Proof.Machine.execLinkTimeTsync port s
  | .exchangeAbandon port => Sys2Proof.Machine.execExchangeAbandon port s
  | .enterMode port => Sys2Proof.Machine.execEnterMode port s
  | .trainingLimit port => Sys2Proof.Machine.execTrainingLimit port s
  | .retrain path port => Sys2Proof.Machine.execRetrain path port s
  | .uprefWrite crown v => Sys2Proof.Machine.execUprefWrite crown v s
  | .receiverDetect cell => Sys2Proof.Machine.execReceiverDetect cell s
  | .ts1 cell pairB info inverted => Sys2Proof.Machine.execTs1 cell pairB info inverted s
  | .ts2 cell pairB count seed => Sys2Proof.Machine.execTs2 cell pairB count seed s
  | .lossOfLock cell pairB => Sys2Proof.Machine.execLossOfLock cell pairB s
  | .los cell pairB => Sys2Proof.Machine.execLos cell pairB s
  | .losTimeout port => Sys2Proof.Machine.execLosTimeout port s
  | .retrainTimeout port => Sys2Proof.Machine.execRetrainTimeout port s
  | .selfchkComplete cell pass => Sys2Proof.Machine.execSelfchkComplete cell pass s
  | .rtrn path cell => Sys2Proof.Machine.execRtrn path cell s
  | .hold path cell on => Sys2Proof.Machine.execHold path cell on s
  | .testEnable path cell v => Sys2Proof.Machine.execTestEnable path cell v s
  | .clr path cell => Sys2Proof.Machine.execClr path cell s
  | .inject path cell v => Sys2Proof.Machine.execInject path cell v s
  | .injectComplete cell => Sys2Proof.Machine.execInjectComplete cell s
  | .pipeLineStart d => Sys2Proof.Machine.execPipeLineStart d s
  | .lineDecision d => Sys2Proof.Machine.execLineDecision d s
  | .pixelUnit d line data => Sys2Proof.Machine.execPixelUnit d line data s
  | .secondaryDataPacket d line data => Sys2Proof.Machine.execSecondaryDataPacket d line data s
  | .auxRequest d data => Sys2Proof.Machine.execAuxRequest d data s
  | .auxReply d data => Sys2Proof.Machine.execAuxReply d data s
  | .hpdInterrupt d => Sys2Proof.Machine.execHpdInterrupt d s
  | .streamAttributes d data => Sys2Proof.Machine.execStreamAttributes d data s
  | .pipeFrameStart d => Sys2Proof.Machine.execPipeFrameStart d s
  | .teEdge pin => Sys2Proof.Machine.execTeEdge pin s
  | .teMiss d => Sys2Proof.Machine.execTeMiss d s
  | .genlockEdge => Sys2Proof.Machine.execGenlockEdge s
  | .fsbaseWrite path d v => Sys2Proof.Machine.execFsbaseWrite path d v s
  | .tlp port tun ok prefixes head data => Sys2Proof.Machine.execTlp port tun ok prefixes head data s
  | .usb3Packet port tun ok head data => Sys2Proof.Machine.execUsb3Packet port tun ok head data s
  | .ethernetFrame port frame ok => Sys2Proof.Machine.execEthernetFrame port frame ok s
  | .hpdChange port high partner => Sys2Proof.Machine.execHpdChange port high partner s
  | .dpLinkTraining port tries => Sys2Proof.Machine.execDpLinkTraining port tries s
  | .ejectPress port => Sys2Proof.Machine.execEjectPress port s
  | .ejreq path port => Sys2Proof.Machine.execEjreq path port s
  | .powerControllerOff port => Sys2Proof.Machine.execPowerControllerOff port s
  | .powerControllerOn port => Sys2Proof.Machine.execPowerControllerOn port s
  | .ejectLinkDisable port => Sys2Proof.Machine.execEjectLinkDisable port s
  | .surpriseRemoval port => Sys2Proof.Machine.execSurpriseRemoval port s
  | .ethmapWrite path port v => Sys2Proof.Machine.execEthmapWrite path port v s
  | .maxfrmWrite path port v => Sys2Proof.Machine.execMaxfrmWrite path port v s
  | .pfcenWrite path port v => Sys2Proof.Machine.execPfcenWrite path port v s
  | .linkUp port partner => Sys2Proof.Machine.execLinkUp port partner s
  | .linkDown port => Sys2Proof.Machine.execLinkDown port s
  | .passOver crown => Sys2Proof.Machine.execPassOver crown s
  | .upstreamChange => Sys2Proof.Machine.execUpstreamChange s
  | .busReset high => Sys2Proof.Machine.execBusReset high s
  | .portReset n speed => Sys2Proof.Machine.execPortReset n speed s
  | .deviceConnect n pullup => Sys2Proof.Machine.execDeviceConnect n pullup s
  | .overcurrent n => Sys2Proof.Machine.execOvercurrent n s
  | .babble n => Sys2Proof.Machine.execBabble n s
  | .globalSuspend => Sys2Proof.Machine.execGlobalSuspend s
  | .remoteWake n enabled => Sys2Proof.Machine.execRemoteWake n enabled s
  | .resumeEnd n => Sys2Proof.Machine.execResumeEnd n s
  | .portSuspend n => Sys2Proof.Machine.execPortSuspend n s
  | .portPower n on => Sys2Proof.Machine.execPortPower n on s
  | .clearTtBuffer n buf => Sys2Proof.Machine.execClearTtBuffer n buf s
  | .resetTt n => Sys2Proof.Machine.execResetTt n s
  | .clearFeatureEndpointHalt => Sys2Proof.Machine.execClearFeatureEndpointHalt s
  | .setConfiguration cfg => Sys2Proof.Machine.execSetConfiguration cfg s
  | .setInterface alt => Sys2Proof.Machine.execSetInterface alt s
  | .tbinciWrite path n v => Sys2Proof.Machine.execTbinciWrite path n v s
  | .tbincfWrite path n v => Sys2Proof.Machine.execTbincfWrite path n v s
  | .run path n v => Sys2Proof.Machine.execRun path n v s
  | .tbldWrite path n fr v => Sys2Proof.Machine.execTbldWrite path n fr v s
  | .wrap n => Sys2Proof.Machine.execWrap n s
  | .take path => Sys2Proof.Machine.execTake path s
  | .timeSend port header frame => Sys2Proof.Machine.execTimeSend port header frame s
  | .timeSendReport port header frame => Sys2Proof.Machine.execTimeSendReport port header frame s
  | .timeSendCorrection port header frame => Sys2Proof.Machine.execTimeSendCorrection port header frame s
  | .compare e => Sys2Proof.Machine.execCompare e s
  | .rasterCompare e => Sys2Proof.Machine.execRasterCompare e s
  | .pulseEnd e => Sys2Proof.Machine.execPulseEnd e s
  | .lvlclr path e => Sys2Proof.Machine.execLvlclr path e s
  | .capture e rising => Sys2Proof.Machine.execCapture e rising s
  | .faultReport kind unit tun det => Sys2Proof.Machine.execFaultReport kind unit tun det s
  | .failover => Sys2Proof.Machine.execFailover s
  | .progressWatchdog g => Sys2Proof.Machine.execProgressWatchdog g s
  | .arbiterWatchdog g => Sys2Proof.Machine.execArbiterWatchdog g s
  | .checkpoint g => Sys2Proof.Machine.execCheckpoint g s
  | .checkpointComplete g => Sys2Proof.Machine.execCheckpointComplete g s
  | .gfSelftest ok => Sys2Proof.Machine.execGfSelftest ok s
  | .lockstepMismatch => Sys2Proof.Machine.execLockstepMismatch s
  | .managementWatchdog => Sys2Proof.Machine.execManagementWatchdog s
  | .mgmtRestartComplete aOk bOk => Sys2Proof.Machine.execMgmtRestartComplete aOk bOk s
  | .fltinj path v => Sys2Proof.Machine.execFltinj path v s
  | .por => Sys2Proof.Machine.execPor s
  | .brownOut => Sys2Proof.Machine.execBrownOut s
  | .resetN => Sys2Proof.Machine.execResetN s
  | .warmN => Sys2Proof.Machine.execWarmN s
  | .thermalTrip => Sys2Proof.Machine.execThermalTrip s
  | .cold path v => Sys2Proof.Machine.execCold path v s
  | .warm path v => Sys2Proof.Machine.execWarm path v s
  | .prst path v => Sys2Proof.Machine.execPrst path v s
  | .resetRelease src => Sys2Proof.Machine.execResetRelease src s
  | .domainRelease => Sys2Proof.Machine.execDomainRelease s
  | .fuseLoadAttempt errs => Sys2Proof.Machine.execFuseLoadAttempt errs s
  | .powerGateOpen => Sys2Proof.Machine.execPowerGateOpen s
  | .firmwareBoot sfdp => Sys2Proof.Machine.execFirmwareBoot sfdp s
  | .lpddrTrainingComplete => Sys2Proof.Machine.execLpddrTrainingComplete s
  | .corePg high => Sys2Proof.Machine.execCorePg high s
  | .corePgTimeout => Sys2Proof.Machine.execCorePgTimeout s
  | .psRequest path v => Sys2Proof.Machine.execPsRequest path v s
  | .autoDrowse => Sys2Proof.Machine.execAutoDrowse s
  | .participantAnswer who ans => Sys2Proof.Machine.execParticipantAnswer who ans s
  | .deferExpiry who => Sys2Proof.Machine.execDeferExpiry who s
  | .entryCommit => Sys2Proof.Machine.execEntryCommit s
  | .aonArmed => Sys2Proof.Machine.execAonArmed s
  | .wake src => Sys2Proof.Machine.execWake src s
  | .returnStep => Sys2Proof.Machine.execReturnStep s
  | .returnTimeout => Sys2Proof.Machine.execReturnTimeout s
  | .button e => Sys2Proof.Machine.execButton e s
  | .linkIdle port => Sys2Proof.Machine.execLinkIdle port s
  | .ccAttach port cc2 asSource info => Sys2Proof.Machine.execCcAttach port cc2 asSource info s
  | .ccDetach port => Sys2Proof.Machine.execCcDetach port s
  | .vbusLoss port => Sys2Proof.Machine.execVbusLoss port s
  | .drpToggle port => Sys2Proof.Machine.execDrpToggle port s
  | .sourceCapabilities port pdos => Sys2Proof.Machine.execSourceCapabilities port pdos s
  | .request port rdo => Sys2Proof.Machine.execRequest port rdo s
  | .converterStep port meas => Sys2Proof.Machine.execConverterStep port meas s
  | .psRdy port => Sys2Proof.Machine.execPsRdy port s
  | .transitionLimit port => Sys2Proof.Machine.execTransitionLimit port s
  | .hardReset port => Sys2Proof.Machine.execHardReset port s
  | .hrst path port => Sys2Proof.Machine.execHrst path port s
  | .errec path port => Sys2Proof.Machine.execErrec path port s
  | .drSwap port fromPartner accepted => Sys2Proof.Machine.execDrSwap port fromPartner accepted s
  | .prSwap port fromPartner accepted => Sys2Proof.Machine.execPrSwap port fromPartner accepted s
  | .vconnSwap port => Sys2Proof.Machine.execVconnSwap port s
  | .ppsCurrentLimit port above => Sys2Proof.Machine.execPpsCurrentLimit port above s
  | .ppsTimeout port => Sys2Proof.Machine.execPpsTimeout port s
  | .eprKeepaliveTimeout port => Sys2Proof.Machine.execEprKeepaliveTimeout port s
  | .discoverSvids port => Sys2Proof.Machine.execDiscoverSvids port s
  | .discoverModes port svid => Sys2Proof.Machine.execDiscoverModes port svid s
  | .enterUsb port mode => Sys2Proof.Machine.execEnterUsb port mode s
  | .powerGood ch => Sys2Proof.Machine.execPowerGood ch s
  | .shortCircuit ch => Sys2Proof.Machine.execShortCircuit ch s
  | .channelOvercurrent ch => Sys2Proof.Machine.execChannelOvercurrent ch s
  | .faultTimer ch => Sys2Proof.Machine.execFaultTimer ch s
  | .undervoltage ch => Sys2Proof.Machine.execUndervoltage ch s
  | .reverseCurrent ch => Sys2Proof.Machine.execReverseCurrent ch s
  | .retryBackoff ch => Sys2Proof.Machine.execRetryBackoff ch s
  | .channelClr path ch => Sys2Proof.Machine.execChannelClr path ch s
  | .feedQualified feedB => Sys2Proof.Machine.execFeedQualified feedB s
  | .feedLoss => Sys2Proof.Machine.execFeedLoss s
  | .deadTime => Sys2Proof.Machine.execDeadTime s
  | .feedReturn => Sys2Proof.Machine.execFeedReturn s
  | .pwrwarn => Sys2Proof.Machine.execPwrwarn s
  | .feedPresence feedB present => Sys2Proof.Machine.execFeedPresence feedB present s
  | .leaseRecompute => Sys2Proof.Machine.execLeaseRecompute s
  | .leaseOverdraw port => Sys2Proof.Machine.execLeaseOverdraw port s
  | .budgetWrite path v => Sys2Proof.Machine.execBudgetWrite path v s
  | .load path v => Sys2Proof.Machine.execLoad path v s
  | .keyWrite path v => Sys2Proof.Machine.execKeyWrite path v s
  | .store path v => Sys2Proof.Machine.execStore path v s
  | .storeComplete ok => Sys2Proof.Machine.execStoreComplete ok s
  | .destroy path v => Sys2Proof.Machine.execDestroy path v s
  | .attest path v => Sys2Proof.Machine.execAttest path v s
  | .zeroise path => Sys2Proof.Machine.execZeroise path s
  | .remask flip => Sys2Proof.Machine.execRemask flip s
  | .tamperAlarm src => Sys2Proof.Machine.execTamperAlarm src s
  | .thermalSample temp => Sys2Proof.Machine.execThermalSample temp s
  | .lossOfAlignment port => Sys2Proof.Machine.execLossOfAlignment port s
  | .delineationError e => Sys2Proof.Machine.execDelineationError e s
  | .cellLosTimeout cell => Sys2Proof.Machine.execCellLosTimeout cell s
  | .standardRecovery r => Sys2Proof.Machine.execStandardRecovery r s
  | .checkerSync cell pairB => Sys2Proof.Machine.execCheckerSync cell pairB s
  | .checkerError cell pairB => Sys2Proof.Machine.execCheckerError cell pairB s
  | .portUpHold port => Sys2Proof.Machine.execPortUpHold port s
  | .powerGoodHold ch => Sys2Proof.Machine.execPowerGoodHold ch s
  | .refLock => Sys2Proof.Machine.execRefLock s
  | .coreEnRetry => Sys2Proof.Machine.execCoreEnRetry s
  | .ccTerminationChange port present => Sys2Proof.Machine.execCcTerminationChange port present s
  | .vbusDischarged port => Sys2Proof.Machine.execVbusDischarged port s
  | .errorRecoveryEnd port => Sys2Proof.Machine.execErrorRecoveryEnd port s
  | .explicitContract port => Sys2Proof.Machine.execExplicitContract port s
  | .clearfeaturePortSuspend n => Sys2Proof.Machine.execClearfeaturePortSuspend n s
  | .globalSuspendEnd => Sys2Proof.Machine.execGlobalSuspendEnd s
  | .routerReset => Sys2Proof.Machine.execRouterReset s
  | .cascadeMgmtResponse port op tag status count addr data => Sys2Proof.Machine.execCascadeMgmtResponse port op tag status count addr data s
  | .answerTimeout who => Sys2Proof.Machine.execAnswerTimeout who s
  | .rampComplete ch => Sys2Proof.Machine.execRampComplete ch s
  | .overcurrentEnd ch => Sys2Proof.Machine.execOvercurrentEnd ch s
  | .ratingExcursion supply ended => Sys2Proof.Machine.execRatingExcursion supply ended s
  | .avsDeviation meas => Sys2Proof.Machine.execAvsDeviation meas s

end Sys2Proof.Machine
end

