-- ==== Sys2Proof/Safety.lean ====
section
/-! DEFINITION. The terms in which claims about the block are stated: what a command leaves alone, which leaves of the event tree stand,
what a path reaches, and the invariant of the model's data. -/

namespace Sys2Proof.Machine

/-- The parts of the state beside the registers, and `regs`, all of the registers. -/
inductive Part where
  | pending | regs | clock | freeCtr | sent | flash | dram | mg | ld | sv | fb | sc | cr | cn | lc | ad | tb | ck | ckp | incs | pp | bt
  | ev | ut | pd | pw | kv | ps | ft | otp
deriving DecidableEq, Repr

/-- Two states agree on a part. -/
def Part.same (p : Part) (s t : State) : Prop :=
  match p with
  | .pending => t.pending = s.pending | .regs => t.regs = s.regs | .clock => t.clock = s.clock | .freeCtr => t.freeCtr = s.freeCtr
  | .sent => t.sent = s.sent | .flash => t.flash = s.flash | .dram => t.dram = s.dram | .mg => t.mg = s.mg | .ld => t.ld = s.ld
  | .sv => t.sv = s.sv | .fb => t.fb = s.fb | .sc => t.sc = s.sc | .cr => t.cr = s.cr | .cn => t.cn = s.cn | .lc => t.lc = s.lc
  | .ad => t.ad = s.ad | .tb => t.tb = s.tb | .ck => t.ck = s.ck | .ckp => t.ckp = s.ckp | .incs => t.incs = s.incs
  | .pp => t.pp = s.pp | .bt => t.bt = s.bt | .ev => t.ev = s.ev | .ut => t.ut = s.ut | .pd => t.pd = s.pd | .pw => t.pw = s.pw
  | .kv => t.kv = s.kv | .ps => t.ps = s.ps | .ft => t.ft = s.ft | .otp => t.otp = s.otp

/-- Every part of the state but those listed is what it was. -/
def partsOnly (ps : List Part) (s t : State) : Prop := ∀ p, p ∉ ps → p.same s t

/-- Every register field but those listed holds what it held. -/
def fieldsOnly (fs : List Fld) (s t : State) : Prop := ∀ f : Fld, (∀ g ∈ fs, f.key ≠ g.key) → t.rd f = s.rd f

/-- The frame of a command that writes the listed fields of the register map, and of the rest of the state the listed parts. -/
def onlyWrites (fs : List Fld) (ps : List Part) (s t : State) : Prop := fieldsOnly fs s t ∧ partsOnly (.regs :: ps) s t

/-- Leaf `b` of unit `u` stands (R85). -/
def leafSet (s : State) (u b : Nat) : Prop := bit (s.rd (EVSTAT u)) b = true

/-- A path's write to a word address arrives at a register that is present and not locked (R3, R58, R69). -/
def writable (s : State) (p : Path) (a : Nat) : Prop :=
  scopeOf s p = .whole ∧ absentAddr (variant s) a = false ∧ lockedAddr s a = false

/-- No envelope of the image bounds a field of the register at an address (R45). -/
def unbounded (s : State) (a : Nat) : Prop := ∀ lo w, envelope s a lo w = none

/-- A path's write arrives at the register of an address, and only the register's own rule bounds it. -/
def plainly (s : State) (p : Path) (a : Nat) : Prop := writable s p a ∧ unbounded s a

/-- A tunnel takes a segment that enters at a port: it is ACTIVE there, has a free reserved place (R164), and admission runs (R473). -/
def admits (s : State) (p n : Nat) : Prop :=
  tunActive s n = true ∧ inPortOf s n = p ∧ placeFree s n = true ∧ s.pw.stopped = false

/-- A unit that fits one segment has joined the ingress store of a tunnel behind what was there. -/
def arrived (n : Nat) (data : Bytes) (s t : State) : Prop :=
  ∃ g : Seg, t.ingressQ n = s.ingressQ n ++ [g] ∧ g.tun = n ∧ g.payload = data ∧ g.first = true ∧ g.last = true

/-- The register map, the boot flash, the LPDDR and the fuse array are canonical: keys strictly rising; in the two byte memories no
entry equal to what an unlisted address reads as. -/
def Canonical (s : State) : Prop :=
  (s.regs.map Prod.fst).Pairwise (· < ·) ∧ mwf 0xFF s.flash = true ∧ mwf 0 s.dram = true ∧ (s.otp.map Prod.fst).Pairwise (· < ·)

/-- What a write of any register can come to: everything but the queue, the clock and the boot flash. -/
def registerParts : List Part :=
  [.regs, .freeCtr, .sent, .dram, .mg, .ld, .sv, .fb, .sc, .cr, .cn, .lc, .ad, .tb, .ck, .ckp, .incs, .pp, .bt, .ev, .ut, .pd, .pw, .kv, .ps, .ft, .otp]

/-- What a reset of cold or warm reach can come to. -/
def resetParts : List Part := registerParts.filter fun p => p ≠ .pd && p ≠ .otp

/-- What a stop of the hub can come to. -/
def stopParts : List Part := registerParts.filter fun p => p ≠ .otp

/-- What a port-down comes to. -/
def portDownParts : List Part := [.regs, .sent, .mg, .sv, .fb, .sc, .cn, .lc, .ad, .pp, .ps]

/-- The parts of the state that a command can change. -/
def touches : Instr → List Part
  | .registerWrite _ _ _ => registerParts
  | .unmappedAccess _ _ _ => registerParts
  | .segmentIngress _ _ _ => registerParts
  | .clockFailure _ => resetParts
  | .settleTimerExpiry => [.regs, .sent, .mg, .sv, .sc, .ut, .pd, .pw]
  | .solveCommit _ => [.regs, .mg, .sv]
  | .tableSwap => [.regs, .sent, .mg, .sv, .fb, .sc, .cr, .ad, .tb, .pp]
  | .imageLoad => [.regs, .ld, .kv]
  | .imageStreamComplete => [.regs, .sent, .mg, .ld, .sv, .bt, .ut, .pd, .pw, .kv]
  | .flashReadError _ => [.regs, .ld, .kv]
  | .imageConfigComplete => [.regs, .sent, .dram, .mg, .ld, .sv, .sc, .cn, .lc, .pw]
  | .check _ => registerParts
  | .checkComplete => [.regs, .ld, .kv]
  | .advance _ => registerParts
  | .go _ _ => registerParts
  | .sliceReloadCommit => [.regs, .sent, .mg, .ld, .sv, .fb, .sc, .cn, .lc, .ad, .pp, .kv, .ps]
  | .reloadReconfigComplete => [.regs, .sent, .ld, .sc, .cn, .lc, .kv]
  | .read32 _ _ => registerParts
  | .write32 _ _ _ => registerParts
  | .dread _ _ => registerParts
  | .dwrite _ _ _ => registerParts
  | .flashErase _ _ => [.regs, .sent, .mg]
  | .flashProg _ _ _ => [.regs, .sent, .mg]
  | .flashRead _ _ => [.regs, .sent]
  | .flashStat _ => [.regs, .sent]
  | .flashOpComplete _ => [.regs, .freeCtr, .sent, .flash, .dram, .mg, .ld, .sv, .fb, .sc, .cr, .cn, .lc, .ad, .tb, .ck, .ckp, .incs, .pp, .bt, .ev, .ut, .pd, .pw, .kv, .ps, .ft, .otp]
  | .read _ _ _ _ => registerParts
  | .write _ _ _ _ _ => registerParts
  | .mgmtFlashErase _ _ _ _ => registerParts
  | .mgmtFlashProg _ _ _ _ _ => registerParts
  | .mgmtFlashRead _ _ _ _ => registerParts
  | .mgmtReservedOp _ _ _ _ => registerParts
  | .event _ => [.sent, .mg, .fb]
  | .ep1InToken => [.regs, .sent, .mg]
  | .ep1Ack => [.mg, .ut]
  | .arm _ _ => registerParts
  | .sysDwdataAccess _ _ => registerParts
  | .i2cWriteTransfer _ _ => registerParts
  | .i2cSetReadAddress _ => [.mg]
  | .i2cReadTransfer _ => registerParts
  | .i2cInvalidCommand _ => [.sent]
  | .spiWriteFrame _ _ => registerParts
  | .spiReadFrame _ _ => registerParts
  | .spiInvalidCommand _ _ => [.sent]
  | .hostselChange _ _ => registerParts
  | .ttLimitWrite _ _ _ => registerParts
  | .ttParamWrite _ _ _ _ => registerParts
  | .flushComplete _ => [.regs, .sent, .mg, .fb]
  | .quarantineEnd _ => [.regs, .sv, .cr]
  | .fabricSlot _ _ _ => registerParts
  | .mapSwitch => [.regs, .mg]
  | .xgapTimeout _ => resetParts
  | .returnTimer _ => [.fb]
  | .egressUnitStart _ => [.regs, .freeCtr, .sent, .dram, .mg, .sv, .fb, .cr, .cn, .pp]
  | .cutThroughAbort _ => [.regs, .sent, .mg, .fb]
  | .backoffEnd _ => [.fb]
  | .stallTimerExpiry _ => portDownParts
  | .pauseRepeat _ => [.sent]
  | .portRetrainWait _ => [.regs, .fb, .cn, .lc]
  | .voidReclaim _ _ => [.regs, .mg, .fb]
  | .bufferCellRetire _ _ => resetParts
  | .cellEvacuated _ => [.regs]
  | .leadFrameStart _ _ => [.regs, .mg, .sc, .ev]
  | .leadSourceLost => [.regs, .mg, .sc]
  | .nsrcWrite _ _ => registerParts
  | .schedVirtWrite _ _ => registerParts
  | .ovhWrite _ _ _ => registerParts
  | .qbvCycleStart _ => [.sc]
  | .credit _ _ _ => [.regs, .cr]
  | .creditTimer _ => [.sent, .cr]
  | .lgrant _ _ _ _ _ => [.sent]
  | .rack _ _ => portDownParts
  | .rnak _ _ => portDownParts
  | .rnakRepeat _ => [.regs, .sent]
  | .resume _ _ => [.regs, .sent, .cn]
  | .uncorrectableCodeword _ _ _ _ => [.regs, .freeCtr, .sent, .mg, .cn, .lc]
  | .recordClose _ => [.regs, .sent, .cn]
  | .tag _ _ _ _ => portDownParts
  | .keyUpdateStart _ => [.freeCtr, .sent, .cn]
  | .kupd _ _ _ => [.sent, .cn]
  | .kupdRepeat _ => [.sent]
  | .kack _ _ => [.regs, .cn]
  | .kackTimeout _ => portDownParts
  | .caps _ _ _ _ => [.regs, .freeCtr, .sent, .mg, .cn, .lc]
  | .kshare _ _ _ => [.regs, .freeCtr, .sent, .mg, .cn, .lc]
  | .hsfin _ _ => [.regs, .sent, .mg, .sv, .fb, .sc, .cr, .cn, .lc, .pp, .ps]
  | .tsync _ _ _ => [.sent, .cn]
  | .ttx _ _ _ _ => [.regs, .freeCtr, .mg, .fb, .sc, .cn, .incs]
  | .trx _ _ _ _ => [.regs, .freeCtr, .mg, .fb, .sc, .cn, .incs]
  | .linkTimeTsync _ => [.sent, .cn]
  | .exchangeAbandon _ => [.regs, .mg, .cn]
  | .enterMode _ => [.regs, .sent, .mg, .cn, .lc]
  | .trainingLimit _ => [.regs, .sent, .mg, .cn, .lc]
  | .retrain _ _ => registerParts
  | .uprefWrite _ _ => registerParts
  | .receiverDetect _ => [.regs, .freeCtr, .sent]
  | .ts1 _ _ _ _ => [.regs, .freeCtr, .sent, .mg, .sv, .cn, .lc]
  | .ts2 _ _ _ _ => [.regs, .sent, .mg, .sv, .fb, .sc, .cr, .cn, .lc, .pp, .ps]
  | .lossOfLock _ _ => [.regs, .freeCtr, .sent, .mg, .lc]
  | .los _ _ => [.regs, .freeCtr, .sent, .mg, .lc]
  | .losTimeout _ => portDownParts
  | .retrainTimeout _ => [.regs, .freeCtr, .sent, .mg, .lc]
  | .selfchkComplete _ _ => resetParts
  | .rtrn _ _ => registerParts
  | .hold _ _ _ => registerParts
  | .testEnable _ _ _ => registerParts
  | .clr _ _ => registerParts
  | .inject _ _ _ => registerParts
  | .injectComplete _ => [.regs]
  | .pipeLineStart _ => [.regs, .freeCtr, .sent, .mg, .sv, .sc, .pp]
  | .lineDecision _ => [.pp]
  | .pixelUnit _ _ _ => [.regs, .dram, .mg, .pp]
  | .secondaryDataPacket _ _ _ => [.regs, .sent, .mg]
  | .auxRequest _ _ => [.regs, .freeCtr, .sent, .fb, .pp]
  | .auxReply _ _ => [.regs, .freeCtr, .fb, .pp]
  | .hpdInterrupt _ => [.regs, .fb]
  | .streamAttributes _ _ => [.regs, .mg, .sv, .pp]
  | .pipeFrameStart _ => [.regs, .freeCtr, .sent, .mg, .sv, .sc, .pp]
  | .teEdge _ => [.regs, .mg, .sv, .sc, .pp]
  | .teMiss _ => [.regs, .freeCtr, .sent, .mg, .sv, .sc, .pp]
  | .genlockEdge => [.regs, .freeCtr, .mg, .sv, .sc, .pp]
  | .fsbaseWrite _ _ _ => registerParts
  | .tlp _ _ _ _ _ _ => [.regs, .freeCtr, .sent, .mg, .fb, .cn, .lc, .ad, .ckp]
  | .usb3Packet _ _ _ _ _ => [.regs, .sent, .mg, .fb, .lc, .ad, .ckp]
  | .ethernetFrame _ _ _ => [.regs, .sent, .mg, .fb, .lc, .ad, .ckp]
  | .hpdChange _ _ _ => portDownParts
  | .dpLinkTraining _ _ => [.regs, .mg, .ad, .pp]
  | .ejectPress _ => [.regs, .sent, .mg, .ad]
  | .ejreq _ _ => registerParts
  | .powerControllerOff _ => [.regs, .ad]
  | .powerControllerOn _ => [.regs, .cn, .lc, .ad]
  | .ejectLinkDisable _ => portDownParts
  | .surpriseRemoval _ => portDownParts
  | .ethmapWrite _ _ _ => registerParts
  | .maxfrmWrite _ _ _ => registerParts
  | .pfcenWrite _ _ _ => registerParts
  | .linkUp _ _ => [.regs, .sent, .mg, .sv, .fb, .sc, .cn, .ad, .pp, .ps]
  | .linkDown _ => portDownParts
  | .passOver _ => [.regs, .sent, .mg, .ut]
  | .upstreamChange => [.regs, .sent, .mg, .ut]
  | .busReset _ => [.regs, .sent, .mg, .ut]
  | .portReset _ _ => [.regs, .sent, .mg, .ut]
  | .deviceConnect _ _ => [.regs, .ut]
  | .overcurrent _ => [.regs, .sent, .mg, .ut]
  | .babble _ => [.regs, .mg, .ut]
  | .globalSuspend => [.regs, .mg]
  | .remoteWake _ _ => [.regs, .sent, .mg, .ut]
  | .resumeEnd _ => [.regs, .mg, .ut]
  | .portSuspend _ => [.regs]
  | .portPower _ _ => [.regs, .sent, .ut]
  | .clearTtBuffer _ _ => [.ut]
  | .resetTt _ => [.ut]
  | .clearFeatureEndpointHalt => [.regs, .mg, .ut]
  | .setConfiguration _ => [.regs, .sent, .ut]
  | .setInterface _ => [.regs, .sent, .mg, .ut]
  | .tbinciWrite _ _ _ => registerParts
  | .tbincfWrite _ _ _ => registerParts
  | .run _ _ _ => registerParts
  | .tbldWrite _ _ _ _ => registerParts
  | .wrap _ => [.regs, .mg, .tb]
  | .take _ => registerParts
  | .timeSend _ _ _ => [.sent]
  | .timeSendReport _ _ _ => [.sent, .fb]
  | .timeSendCorrection _ _ _ => [.sent, .fb]
  | .compare _ => [.regs, .sent, .mg, .bt, .ev]
  | .rasterCompare _ => [.regs, .sent, .mg, .bt, .ev]
  | .pulseEnd _ => [.sent, .bt, .ev]
  | .lvlclr _ _ => registerParts
  | .capture _ _ => [.regs, .mg, .sc]
  | .faultReport _ _ _ _ => resetParts
  | .failover => [.regs, .freeCtr, .sent, .dram, .mg, .fb, .cr, .cn, .lc, .ad, .ckp]
  | .progressWatchdog _ => resetParts
  | .arbiterWatchdog _ => resetParts
  | .checkpoint _ => [.fb, .lc, .ckp]
  | .checkpointComplete _ => [.regs, .sent, .fb, .cr, .cn, .lc, .ck, .ckp]
  | .gfSelftest _ => resetParts
  | .lockstepMismatch => resetParts
  | .managementWatchdog => resetParts
  | .mgmtRestartComplete _ _ => registerParts
  | .fltinj _ _ => registerParts
  | .por => [.regs, .sent, .dram, .mg, .ld, .sv, .fb, .sc, .cr, .cn, .lc, .ad, .tb, .ck, .ckp, .incs, .pp, .bt, .ev, .ut, .pd, .pw, .kv, .ps, .ft]
  | .brownOut => resetParts
  | .resetN => resetParts
  | .warmN => resetParts
  | .thermalTrip => stopParts
  | .cold _ _ => registerParts
  | .warm _ _ => registerParts
  | .prst _ _ => registerParts
  | .resetRelease _ => [.regs, .freeCtr, .sent, .mg, .ld, .sv, .fb, .sc, .cn, .lc, .ad, .pp, .bt, .ut, .pw, .kv, .ps]
  | .domainRelease => [.regs, .sent, .mg, .ld, .sv, .fb, .sc, .cn, .lc, .ad, .pp, .bt, .ut, .pw, .kv, .ps]
  | .fuseLoadAttempt _ => resetParts
  | .powerGateOpen => [.regs, .bt]
  | .firmwareBoot _ => registerParts
  | .lpddrTrainingComplete => [.regs, .bt]
  | .corePg _ => resetParts
  | .corePgTimeout => [.sent, .bt]
  | .psRequest _ _ => registerParts
  | .autoDrowse => [.regs, .sent, .ps]
  | .participantAnswer _ _ => [.regs, .freeCtr, .sent, .mg, .ld, .sv, .fb, .sc, .cn, .lc, .ad, .pp, .kv, .ps]
  | .deferExpiry _ => [.ps]
  | .entryCommit => [.regs, .sent, .mg, .ld, .sv, .fb, .sc, .cn, .lc, .ad, .pp, .kv, .ps]
  | .aonArmed => [.regs, .freeCtr, .sent, .dram, .mg, .ld, .sv, .fb, .sc, .cr, .cn, .lc, .ad, .ckp, .pp, .bt, .ut, .pw, .kv, .ps]
  | .wake _ => [.regs, .sent, .mg, .ld, .sv, .fb, .sc, .cn, .lc, .ad, .pp, .bt, .kv, .ps]
  | .returnStep => [.regs, .sent, .mg, .ld, .sv, .fb, .sc, .cn, .lc, .ad, .pp, .bt, .pw, .kv, .ps]
  | .returnTimeout => [.regs, .sent, .mg, .bt, .pw, .kv, .ps]
  | .button _ => [.regs, .sent, .mg, .ld, .sv, .fb, .sc, .cn, .lc, .ad, .pp, .bt, .kv, .ps]
  | .linkIdle _ => [.regs]
  | .ccAttach _ _ _ _ => [.regs, .sent, .mg, .sv, .fb, .sc, .cn, .lc, .pp, .ut, .pd, .pw, .ps]
  | .ccDetach _ => [.regs, .sent, .mg, .sv, .fb, .sc, .cn, .lc, .ad, .pp, .ut, .pd, .pw, .ps]
  | .vbusLoss _ => [.regs, .sent, .dram, .mg, .ld, .sv, .fb, .sc, .cr, .cn, .lc, .ad, .tb, .ck, .ckp, .incs, .pp, .bt, .ev, .ut, .pd, .pw, .kv, .ps, .ft]
  | .drpToggle _ => [.regs]
  | .sourceCapabilities _ _ => [.freeCtr, .sent, .pd]
  | .request _ _ => [.regs, .sent, .mg, .pd]
  | .converterStep _ _ => [.regs, .pd]
  | .psRdy _ => [.regs, .sent, .mg, .sv, .ut, .pd, .pw]
  | .transitionLimit _ => [.regs, .sent, .mg, .sv, .fb, .sc, .cn, .lc, .ad, .pp, .ut, .pd, .pw, .ps]
  | .hardReset _ => [.regs, .sent, .mg, .sv, .fb, .sc, .cn, .lc, .ad, .pp, .ut, .pd, .pw, .ps]
  | .hrst _ _ => registerParts
  | .errec _ _ => registerParts
  | .drSwap _ _ _ => [.regs, .sent, .mg, .ut, .pd]
  | .prSwap _ _ _ => [.regs, .sent, .mg, .sv, .pd, .pw]
  | .vconnSwap _ => [.regs, .sent]
  | .ppsCurrentLimit _ _ => [.regs, .pd]
  | .ppsTimeout _ => [.regs, .sent, .mg, .sv, .fb, .sc, .cn, .lc, .ad, .pp, .ut, .pd, .pw, .ps]
  | .eprKeepaliveTimeout _ => [.regs, .sent, .mg, .sv, .fb, .sc, .cn, .lc, .ad, .pp, .ut, .pd, .pw, .ps]
  | .discoverSvids _ => [.sent]
  | .discoverModes _ _ => [.sent]
  | .enterUsb _ _ => [.regs, .sent, .cn, .lc]
  | .powerGood _ => [.regs, .sent, .pw]
  | .shortCircuit _ => [.regs, .sent, .mg, .sv, .ut, .pd, .pw]
  | .channelOvercurrent _ => [.regs, .sent]
  | .faultTimer _ => [.regs, .sent, .mg, .sv, .ut, .pd, .pw]
  | .undervoltage _ => [.regs, .sent, .mg, .sv, .ut, .pd, .pw]
  | .reverseCurrent _ => [.regs, .sent, .mg, .sv, .ut, .pd, .pw]
  | .retryBackoff _ => [.regs, .sent, .mg, .sv, .fb, .sc, .cn, .lc, .ad, .pp, .ut, .pd, .pw, .ps]
  | .channelClr _ _ => registerParts
  | .feedQualified _ => [.regs, .sent, .mg, .sv, .pd, .pw]
  | .feedLoss => [.regs, .sent, .mg, .sv, .pw]
  | .deadTime => stopParts
  | .feedReturn => [.regs, .sent, .sv, .pw]
  | .pwrwarn => [.regs, .sent, .mg, .sv, .fb, .lc, .ckp, .ut, .pd, .pw]
  | .feedPresence _ _ => [.regs, .pw]
  | .leaseRecompute => [.regs, .sent, .mg, .sv, .ut, .pd, .pw]
  | .leaseOverdraw _ => [.regs, .sent, .mg, .sv, .fb, .sc, .cn, .lc, .ad, .pp, .ut, .pd, .pw, .ps]
  | .budgetWrite _ _ => registerParts
  | .load _ _ => registerParts
  | .keyWrite _ _ => registerParts
  | .store _ _ => registerParts
  | .storeComplete _ => [.regs, .sent, .flash, .mg, .ld, .sv, .fb, .sc, .cn, .lc, .ad, .pp, .kv, .ps]
  | .destroy _ _ => registerParts
  | .attest _ _ => registerParts
  | .zeroise _ => registerParts
  | .remask _ => resetParts
  | .tamperAlarm _ => [.regs, .sent, .mg, .ld, .sv, .fb, .sc, .cn, .lc, .ad, .pp, .bt, .kv, .ps]
  | .thermalSample _ => [.regs, .mg, .pw]
  | .lossOfAlignment _ => [.regs, .freeCtr, .sent, .lc]
  | .delineationError _ => [.regs, .sent, .cn]
  | .cellLosTimeout _ => [.regs, .freeCtr, .sent, .sv, .cn, .lc]
  | .standardRecovery _ => [.regs, .sent, .mg, .sv, .ad]
  | .checkerSync _ _ => [.regs, .lc]
  | .checkerError _ _ => [.regs, .mg]
  | .portUpHold _ => [.fb]
  | .powerGoodHold _ => [.regs]
  | .refLock => [.bt]
  | .coreEnRetry => [.sent, .bt]
  | .ccTerminationChange _ _ => [.regs, .pd]
  | .vbusDischarged _ => [.pd]
  | .errorRecoveryEnd _ => [.regs]
  | .explicitContract _ => [.regs, .sent, .mg, .sv, .pd, .pw]
  | .clearfeaturePortSuspend _ => [.ut]
  | .globalSuspendEnd => [.regs, .mg]
  | .routerReset => resetParts
  | .cascadeMgmtResponse _ _ _ _ _ _ _ => [.regs, .sent, .mg, .sv, .fb, .sc, .pp, .ps]
  | .answerTimeout _ => [.regs, .sent, .mg, .ld, .sv, .fb, .sc, .cn, .lc, .ad, .pp, .kv, .ps]
  | .rampComplete _ => [.regs]
  | .overcurrentEnd _ => [.regs]
  | .ratingExcursion _ _ => [.regs, .pw]
  | .avsDeviation _ => [.regs, .mg]

end Sys2Proof.Machine
end

