-- ==== Sys2Proof/WellFormed.lean ====
section
/-! DEFINITION. Which commands an interface can carry: the addresses, lengths and codes that the rule of a row lets its operands take
(log entry 3). A term outside these is no event of the block; what the rules say of a wrong request (a STALL, a STATUS) is the meaning's. -/

namespace Sys2Proof

/-- A word address (R6). -/
def alignedWord (a : Word) : Bool := a.toNat % 4 = 0

/-- A COUNT in the range of an operation that carries words (R81). -/
def countOk (count : Byte) : Bool := 1 ≤ count.toNat && count.toNat ≤ 28

/-- A request that has a row of its own: its OP, with a COUNT in the range of that OP (R81). -/
def namedOp (op count : Byte) : Bool :=
  ([0x01, 0x02, 0x11, 0x12].contains op.toNat && countOk count) || (op.toNat = 0x10 && count.toNat = 0)

/-- Whether an event with these operands can occur. -/
def Instr.wellFormed : Instr → Bool
  | .registerWrite _ addr _ => alignedWord addr
  | .unmappedAccess _ addr _ => alignedWord addr
  | .segmentIngress _ _ payload => payload.length = 120
  | .read _ _ count _ => countOk count
  | .write _ _ count _ data => countOk count && data.length = count.toNat
  | .mgmtFlashErase _ _ count _ => count.toNat = 0
  | .mgmtFlashProg _ _ count _ data => countOk count && data.length = count.toNat
  | .mgmtFlashRead _ _ count _ => countOk count
  | .read32 req _ => !([0x02, 0x03, 0x04, 0x10, 0x11, 0x12, 0x13].contains req.toNat)
  | .mgmtReservedOp _ op _ r => !namedOp op r.count
  | .i2cInvalidCommand cmd => cmd.val ≠ 1 && cmd.val ≠ 2
  | .spiInvalidCommand cmd _ => cmd ≠ 2 && cmd ≠ 0x0B
  | .pixelUnit _ line _ => line < 8192
  | .secondaryDataPacket _ line _ => line < 8192
  | .portReset _ speed => speed.val ≠ 3
  | .participantAnswer _ (.refuse r) => r ≤ 15
  | .participantAnswer _ (.defer n) => 1 ≤ n && n ≤ 255
  | .converterStep _ meas => meas < 4096
  | _ => true

end Sys2Proof
end

