-- ==== Sys2Proof/Certificates/Slice0/Obligations.lean ====
section
/-! DEFINITION. The statements for the provers: what a step does, what every step keeps, and for each family of commands what it does, that
it completes, and what it leaves alone. -/

open Sys2Proof Sys2Proof.Machine

/-! ### The step, the queue, reset -/

/-- A step carries out the command at the front of the queue on the state with the rest of the queue: first in, first out (the block's
own cut, log entry 3). -/
def Obligations.StepRunsTheFrontCommand : Prop :=
  ∀ (c : Instr) (q : List Instr) (s : State), s.pending = c :: q → step s = exec c { s with pending := q }

/-- On an empty queue a step is one cycle of the TIME clock: the clock advances by 1 ns, the time bases, the lead raster and the shared
engines of the lane cells go on, and nothing that the block has sent, stored in its memories or fused changes (the model's choice, log
entry 3). -/
def Obligations.EmptyQueueTicks : Prop :=
  ∀ s : State, s.pending = [] →
    ∃ t, step s = .next t ∧ t.clock = s.clock + 1 ∧ partsOnly [.regs, .clock, .mg, .sc, .lc, .tb, .ev] s t

/-- The invariant of the model's data holds right after reset. -/
def Obligations.ResetIsCanonical : Prop := Canonical State.reset

/-- Every step from any state whose register map and memories are canonical, of any command or of none, leaves them canonical. -/
def Obligations.StepsKeepTheCanonicalForm : Prop :=
  ∀ s t : State, Canonical s → step s = .next t → Canonical t

/-- After reset every register field holds its reset value, but RST_CAUSE.POR, which the power-on reset has set (R10, R421); no command
waits, and the boot flash and the LPDDR list nothing (log entry 5). A reset value the
spec does not give is the model's choice (log entry 1). -/
def Obligations.ResetValues : Prop :=
  (∀ f : Fld, f.key ≠ RST_CAUSE_POR.key → State.reset.rd f = f.reset % 2 ^ f.w) ∧ State.reset.rd RST_CAUSE_POR = 1 ∧
    State.reset.pending = [] ∧ State.reset.flash = [] ∧ State.reset.dram = []

/-! ### Tunnels, the fabric, buffers and egress (chapters 04 to 06) -/

/-- R106, R167: the end of a flush takes a tunnel from TEARING to QUAR with none of its segments left in its ingress store or transmit
queue, and changes nothing but registers, the fabric's stores, reports, and the pause frames and credit that it releases; 1 ms later the
entry is FREE, or REFUSED while its refused partner is attached; a management tunnel is ACTIVE again where its link is (R100). -/
def Obligations.TeardownEndsInQuarantineThenFree : Prop :=
  (∀ (n : Tun) (s : State), s.rd (TT_STATE_STATE n.val) = stTEARING →
    ∃ t, exec (.flushComplete n) s = .next t ∧ t.rd (TT_STATE_STATE n.val) = stQUAR ∧ t.ingressQ n.val = [] ∧ t.tx n.val = [] ∧
      partsOnly [.regs, .sent, .mg, .fb] s t) ∧
  (∀ (n : Tun) (s : State), s.rd (TT_STATE_STATE n.val) = stQUAR → 2 ≤ n.val →
    ∃ t, exec (.quarantineEnd n) s = .next t ∧ t.rd (TT_STATE_STATE n.val) = (if stillRefused s n.val then stREFUSED else stFREE) ∧
      partsOnly [.regs, .sv, .cr] s t) ∧
  (∀ (n : Tun) (s : State), s.rd (TT_STATE_STATE n.val) = stQUAR → n.val < 2 →
    ∃ t, exec (.quarantineEnd n) s = .next t ∧
      t.rd (TT_STATE_STATE n.val) = (if canActive s n.val && !isDown s n.val then stACTIVE else stFREE) ∧ partsOnly [.regs, .sv, .cr] s t) ∧
  (∀ (n : Tun) (s : State), s.rd (TT_STATE_STATE n.val) ≠ stTEARING → exec (.flushComplete n) s = .next s) ∧
  (∀ (n : Tun) (s : State), s.rd (TT_STATE_STATE n.val) ≠ stQUAR → exec (.quarantineEnd n) s = .next s)

/-- R128: a fabric slot advances the slot counter by one; outside a phase 0 that a takeover waits for it changes registers, stores, credits,
hold buffers and captures alone; then the management agent takes what the slot has handed to it (R127). -/
def Obligations.FabricSlotAdvances : Prop :=
  (∀ (a r o : BitVec 20) (s : State), ∃ u, exec (.fabricSlot a r o) s = .next (agentWork u) ∧
    u.rd FAB_SLOT_COUNT = (s.rd FAB_SLOT_COUNT + 1) % 2 ^ FAB_SLOT_COUNT.w) ∧
  (∀ (a r o : BitVec 20) (s : State), (s.rd FAB_SLOT_COUNT % 20 = 0 → awaitsRemap s = none) →
    ∃ u, exec (.fabricSlot a r o) s = .next (agentWork u) ∧ partsOnly [.regs, .sent, .dram, .mg, .fb, .cr, .lc, .ckp] s u) ∧
  (∀ s : State, s.mg.inbox = [] → agentWork s = s)

/-- R135: at a phase 0 at or after its swap the committed map becomes active: the bank flips and MAPSW is set; else nothing happens.
R141: an advance of OUTSEQ that no RETURN reported is reported 2 microseconds later. R169: the reclaim of a (tunnel, GEN) pair leaves no
void segment of it. R172: an empty retiring cell is gated: its EVAC bit falls. R142, R171: an express gap that replay does not owe, at a
position that is not fenced, and a retired cell reach the fault sequencer. -/
def Obligations.FabricEventsTakeEffect : Prop :=
  (∀ s : State, s.on FAB_STATUS_MAPPEND = true → s.sv.commit = none → s.rd FAB_SLOT_COUNT % 20 = 0 →
    ∃ t, exec .mapSwitch s = .next t ∧ t.rd FAB_STATUS_MAPBANK = 1 - s.rd FAB_STATUS_MAPBANK ∧ t.rd FAB_STATUS_MAPPEND = 0 ∧
      leafSet t 13 2 ∧ onlyWrites [FAB_STATUS_MAPBANK, FAB_STATUS_MAPPEND, EVSTAT 13] [.mg] s t) ∧
  (∀ s : State, (s.on FAB_STATUS_MAPPEND = false ∨ s.sv.commit ≠ none ∨ s.rd FAB_SLOT_COUNT % 20 ≠ 0) → exec .mapSwitch s = .next s) ∧
  (∀ (n : Tun) (s : State), isBulk s n.val = true → s.rd (TT_SEQ_OUTSEQ n.val) ≠ (s.flow n.val).lastRet →
    ∃ t, exec (.returnTimer n) s = .next t ∧ n.val ∈ (t.outPos (outPosOf s n.val)).retq ∧
      (t.flow n.val).lastRet = s.rd (TT_SEQ_OUTSEQ n.val) ∧ partsOnly [.fb] s t) ∧
  (∀ (n : Tun) (g : Fin 4) (s : State), mget 0 s.fb.voids (4 * n.val + g.val) ≠ 0 →
    ∃ t, exec (.voidReclaim n g) s = .next t ∧ mget 0 t.fb.voids (4 * n.val + g.val) = 0 ∧
      (∀ e ∈ t.fb.spill, ∀ q ∈ pageSegs e.2, ¬(q.tun = n.val ∧ q.gen = g.val)) ∧ partsOnly [.regs, .mg, .fb] s t) ∧
  (∀ (c : BufCell) (s : State), bit (s.rd (FAB_PART_EVAC (c.val / 4))) (c.val % 4) = true →
    ∃ t, exec (.cellEvacuated c) s = .next t ∧ bit (t.rd (FAB_PART_EVAC (c.val / 4))) (c.val % 4) = false ∧
      onlyWrites [FAB_PART_EVAC (c.val / 4)] [] s t) ∧
  (∀ (c : BufCell) (l : Bool) (s : State), reportable 2 c.val s = true →
    ∃ t, exec (.bufferCellRetire c l) s = .next t ∧ cellRetired t c.val = true) ∧
  (∀ (n : Tun) (s : State), isBulk s n.val = false → twoPass s n.val = false → fenced s (outPosOf s n.val) = false →
    s.rd RST_FLTSTAT_SEQ ≠ 6 → ((s.outPos (outPosOf s n.val)).parked.any fun q => q.seg.tun = n.val) = true →
    ∃ u, exec (.xgapTimeout n) s = .next (if inPosOf s n.val / 2 < 8 then reportFault 0xA (servedBy s (inPosOf s n.val / 2)) n.val 9 false u
        else reportFault 0xB (inPosOf s n.val / 2) 0 9 false u) ∧
      u.rd (FAB_XGAP_TUN (outPosOf s n.val)) = n.val ∧ leafSet u 13 0)

/-- R143, R144, R187: an egress port whose position is not fenced starts the unit that the classes, the gates and deficit round robin choose,
which leaves its queue, and goes on with one in cut-through until its last segment; an abort keeps the unit whole at the head of its queue
and sets STOMP; backoff ends. R166: a pause in force is repeated with quanta 0xFFFF, of the port or of a priority. -/
def Obligations.EgressPortsSendAndPause : Prop :=
  (∀ (p : Port) (s : State) (c n : Nat) (u rest : List Seg) (ct : Bool), fenced s (fabOf p.val) = false → (s.eg p.val).ct = none →
    (chooseUnit p.val classOrder (clearDeficits p.val s)).1 = some (c, n, u, rest, ct) →
    ∃ t l, exec (.egressUnitStart p) s = .next t ∧ t.tx n = rest ++ l ∧ (t.eg p.val).ct = (if ct then some n else none) ∧
      partsOnly [.regs, .freeCtr, .sent, .dram, .mg, .sv, .fb, .cr, .cn, .pp] s t) ∧
  (∀ (p : Port) (s : State) (n : Nat), fenced s (fabOf p.val) = false → (s.eg p.val).ct = some n → headUnit (s.tx n) = none →
    ∃ t, exec (.egressUnitStart p) s = .next t ∧ (t.eg p.val).ct = some n ∧ (t.eg p.val).ctSent = (s.eg p.val).ctSent ++ s.tx n) ∧
  (∀ (p : Port) (s : State) (n : Nat) (u rest : List Seg), fenced s (fabOf p.val) = false → (s.eg p.val).ct = some n →
    headUnit (s.tx n) = some (u, rest) →
    ∃ t l, exec (.egressUnitStart p) s = .next t ∧ t.tx n = rest ++ l ∧ (t.eg p.val).ct = none) ∧
  (∀ (p : Port) (s : State) (n : Nat), (s.eg p.val).ct = some n →
    ∃ t, exec (.cutThroughAbort p) s = .next t ∧ (t.eg p.val).ct = none ∧ (t.eg p.val).backoff = true ∧
      t.tx n = (s.eg p.val).ctSent ++ s.tx n ∧ leafSet t 13 1 ∧
      onlyWrites [FAB_STOMP_ABORTS (outPosOf s n), EVSTAT 13] [.sent, .mg, .fb] s t) ∧
  (∀ (p : Port) (s : State), (s.eg p.val).ct = none → exec (.cutThroughAbort p) s = .next s) ∧
  (∀ (p : Port) (s : State), ∃ t, exec (.backoffEnd p) s = .next t ∧ (t.eg p.val).backoff = false ∧ partsOnly [.fb] s t) ∧
  (∀ (p : Port) (s : State), (s.eg p.val).pausing = [8] →
    exec (.pauseRepeat p) s = .next (s.emit (.unit p.val "PAUSE" (beBytes 2 0xFFFF)))) ∧
  (∀ (p : Port) (k : Fin 8) (s : State), (s.eg p.val).pausing = [k.val] →
    exec (.pauseRepeat p) s = .next (s.emit (.unit p.val "PFC"
      (beBytes 2 (2 ^ k.val) ++ (List.range 8).flatMap fun j => beBytes 2 (if j = k.val then 0xFFFF else 0))))) ∧
  (∀ (p : Port) (s : State), ∃ t, exec (.pauseRepeat p) s = .next t ∧ partsOnly [.sent] s t)

/-- R168, R527: at the stall limit of a port that is still kept from sending, the port goes down and its partner is lost until it trains afresh
after a wait; a port that can send again stops its timer; the wait's end starts training where nothing keeps the port down; ten seconds up
return the wait to 100 ms. -/
def Obligations.StalledPortsGoDownAndTrainAfresh : Prop :=
  (∀ (p : Port) (s : State), s.on (GRV_FLST_EGHELD p.val) = true → portStalled s p.val = true →
    ∃ t, exec (.stallTimerExpiry p) s = .next t ∧ mfind t.sv.att p.val = none ∧ (t.eg p.val).waiting = true ∧
      partsOnly portDownParts s t) ∧
  (∀ (p : Port) (s : State), s.on (GRV_FLST_EGHELD p.val) = true → portStalled s p.val = false →
    ∃ t, exec (.stallTimerExpiry p) s = .next t ∧ t.rd (GRV_FLST_EGHELD p.val) = 0 ∧ onlyWrites [GRV_FLST_EGHELD p.val] [] s t) ∧
  (∀ (p : Port) (s : State), s.on (GRV_FLST_EGHELD p.val) = false → exec (.stallTimerExpiry p) s = .next s) ∧
  (∀ (p : Port) (s : State), (s.eg p.val).waiting = true → retrainBlocked s p.val = false → (s.can p.val).entered ≠ 1 ∨ 8 ≤ p.val →
    ∃ t, exec (.portRetrainWait p) s = .next t ∧ (t.eg p.val).waiting = false ∧ t.rd (ADP_STAT_STATE p.val) = 1 ∧
      partsOnly [.regs, .fb, .cn, .lc] s t) ∧
  (∀ (p : CanPort) (s : State), (s.eg p.val).waiting = true → retrainBlocked s p.val = false → (s.can p.val).entered = 1 →
    (∃ c ∈ portCells p.val, (s.lane c).faulted = false) →
    ∃ t, exec (.portRetrainWait ⟨p.val, by omega⟩) s = .next t ∧ (t.eg p.val).waiting = false ∧ t.rd (CAN_STAT_STATE p.val) = 1) ∧
  (∀ (p : Port) (s : State), portUp s p.val = true →
    ∃ t, exec (.portUpHold p) s = .next t ∧ (t.eg p.val).wait = 1 ∧ partsOnly [.fb] s t)

/-! ### The lead raster (chapter 07) -/

/-- R179: a lead frame start, in the cycle in which the position reaches TOTAL, returns the lead position to 0.0 and counts the frame; at any
other time, or for another TOTAL or increment than the raster's, it does nothing. R181: the loss of the source puts the lead raster into holdover
with LOST set and its increment kept. R199: a running time-mode gate list past its start begins its cycle again. -/
def Obligations.LeadRasterEvents : Prop :=
  (∀ s : State, leadEnds s = true →
    ∃ t, exec (.leadFrameStart (s.rd SCHED_LTOT_TOTAL) (s.rd SCHED_LINC_INC)) s = .next t ∧ t.sc.lpos = 0 ∧
      t.rd SCHED_FRAME_COUNT = (s.rd SCHED_FRAME_COUNT + 1) % 2 ^ SCHED_FRAME_COUNT.w ∧ partsOnly [.regs, .mg, .sc, .ev] s t) ∧
  (∀ (n k : Nat) (s : State), leadEnds s = false ∨ n ≠ s.rd SCHED_LTOT_TOTAL ∨ k ≠ s.rd SCHED_LINC_INC →
    exec (.leadFrameStart n k) s = .next s) ∧
  (∀ s : State, s.rd SCHED_LEAD_SRC ≠ 9 → s.rd SCHED_LEAD_STATE ≠ 3 →
    ∃ t, exec .leadSourceLost s = .next t ∧ t.rd SCHED_LEAD_STATE = 3 ∧ leafSet t 15 1 ∧
      onlyWrites [SCHED_LEAD_STATE, EVSTAT 15] [.mg, .sc] s t) ∧
  (∀ s : State, s.rd SCHED_LEAD_SRC = 9 ∨ s.rd SCHED_LEAD_STATE = 3 → exec .leadSourceLost s = .next s) ∧
  (∀ (p : Port) (s : State), s.on (GRV_CALCTL_MODE p.val) = true → tbRunning s (mget {} s.sc.qbv p.val).tb = true →
    (mget {} s.sc.qbv p.val).start ≤ extTime s (mget {} s.sc.qbv p.val).tb →
    ∃ t, exec (.qbvCycleStart p) s = .next t ∧ (mget {} t.sc.qbv p.val).held = 0 ∧ (mget {} t.sc.qbv p.val).began = none ∧
      partsOnly [.sc] s t)

/-! ### The Canopy link (chapter 08) -/

/-- R223, R224, R227: a received CREDIT raises the limit of its tunnel, modulo 65,536, and ends the stall; an older one changes nothing;
the credit timer sends the limit of now, unless the port's keepers wait for a takeover; a line grant of an ACTIVE cascade tunnel, received
on its downstream link, is relayed on the crown link that the tunnel comes from, with TUN rewritten. -/
def Obligations.CreditAndGrants : Prop :=
  (∀ (p : CanPort) (n : Tun) (l : BitVec 16) (s : State), canActive s p.val = true → outsideHome s p.val n.val = false →
    (l.toNat + 65536 - (s.credit (rewriteIn s p.val n.val)).limit) % 65536 ≠ 0 →
    (l.toNat + 65536 - (s.credit (rewriteIn s p.val n.val)).limit) % 65536 ≤ 32767 →
    ∃ t, exec (.credit p n l) s = .next t ∧ (t.credit (rewriteIn s p.val n.val)).limit = l.toNat ∧
      t.rd (GRV_FLST_EGHELD p.val) = 0 ∧ onlyWrites [GRV_FLST_EGHELD p.val] [.cr] s t) ∧
  (∀ (p : CanPort) (n : Tun) (l : BitVec 16) (s : State), canActive s p.val = true →
    32767 < (l.toNat + 65536 - (s.credit (rewriteIn s p.val n.val)).limit) % 65536 → exec (.credit p n l) s = .next s) ∧
  (∀ (n : Tun) (s : State), inPortOf s n.val < 8 → canActive s (inPortOf s n.val) = true → portFenced s (inPortOf s n.val) = false →
    creditGoverned s n.val = true → tunActive s n.val = true →
    ∃ t, exec (.creditTimer n) s = .next t ∧ (t.credit n.val).told = limitNow s n.val ∧
      t.sent = .can (inPortOf s n.val) "CREDIT" [rewriteOut s (inPortOf s n.val) n.val, limitNow s n.val] :: s.sent ∧
      partsOnly [.sent, .cr] s t) ∧
  (∀ (p : CanPort) (n : Tun) (d : Pipe) (y : Fin 8192) (f : Fin 16) (s : State) (b : Nat), cascadeBase s p.val = some b →
    outsideHome s p.val n.val = false → tunActive s (rewriteIn s p.val n.val) = true → canActive s p.val = true →
    s.rd (TT_ENDP_INPORT (rewriteIn s p.val n.val)) < 2 → canActive s (s.rd (TT_ENDP_INPORT (rewriteIn s p.val n.val))) = true →
    exec (.lgrant p n d y f) s =
      .next (s.emit (.can (s.rd (TT_ENDP_INPORT (rewriteIn s p.val n.val))) "LGRANT" [rewriteIn s p.val n.val, d.val, y.val, f.val])))

/-- R229, R230: RACK releases the units up to the one named; RNAK those before it, and RESUME names it; either outside the units sent
takes the port down. An error makes the receiver discard, and RNAK goes out, at once and on each repeat, until the RESUME that names
the unit expected. R211, R220: an uncorrectable codeword is counted, makes the receiver discard where a unit overlaps it, and is loss of
lock when it is the third in succession; control slots that fail are counted. -/
def Obligations.RetryOfCanopyUnits : Prop :=
  (∀ (p : CanPort) (l : BitVec 16) (s : State), canActive s p.val = true →
    (l.toNat + 65536 - (s.can p.val).lunOld) % 65536 < ((s.can p.val).lunTx + 65536 - (s.can p.val).lunOld) % 65536 →
    ∃ t, exec (.rack p l) s = .next t ∧ (t.can p.val).lunOld = (l.toNat + 1) % 65536 ∧ (t.can p.val).lunTx = (s.can p.val).lunTx ∧
      partsOnly [.fb, .cn] s t) ∧
  (∀ (p : CanPort) (l : BitVec 16) (s : State), canActive s p.val = true →
    ((s.can p.val).lunTx + 65536 - (s.can p.val).lunOld) % 65536 ≤ (l.toNat + 65536 - (s.can p.val).lunOld) % 65536 →
    ∃ t, exec (.rack p l) s = .next t ∧ mfind t.sv.att p.val = none ∧ (t.eg p.val).waiting = true) ∧
  (∀ (p : CanPort) (l : BitVec 16) (s : State), canActive s p.val = true →
    (l.toNat + 65536 - (s.can p.val).lunOld) % 65536 ≤ ((s.can p.val).lunTx + 65536 - (s.can p.val).lunOld) % 65536 →
    ∃ t, exec (.rnak p l) s = .next t ∧ (t.can p.val).lunOld = l.toNat ∧ Out.can p.val "RESUME" [l.toNat] ∈ t.sent ∧
      partsOnly [.regs, .sent, .fb, .cn] s t) ∧
  (∀ (p : CanPort) (l : BitVec 16) (s : State), canActive s p.val = true →
    ((s.can p.val).lunTx + 65536 - (s.can p.val).lunOld) % 65536 < (l.toNat + 65536 - (s.can p.val).lunOld) % 65536 →
    ∃ t, exec (.rnak p l) s = .next t ∧ mfind t.sv.att p.val = none ∧ (t.eg p.val).waiting = true) ∧
  (∀ (p : CanPort) (s : State), canActive s p.val = true → (s.can p.val).discarding = true →
    ∃ t, exec (.rnakRepeat p) s = .next t ∧ t.sent = .can p.val "RNAK" [(s.can p.val).lunRx] :: s.sent ∧
      onlyWrites [CAN_ERR_RNAKTX p.val] [.sent] s t) ∧
  (∀ (p : CanPort) (w : Option Word) (s : State), canActive s p.val = true → (s.can p.val).discarding = false →
    (∀ x, w = some x → readWord x = .reserved) →
    ∃ t, exec (.delineationError ⟨p, w⟩) s = .next t ∧ (t.can p.val).discarding = true ∧
      t.sent = .can p.val "RNAK" [(s.can p.val).lunRx] :: s.sent ∧ onlyWrites [CAN_ERR_RNAKTX p.val] [.sent, .cn] s t) ∧
  (∀ (p : CanPort) (l : BitVec 16) (s : State), canActive s p.val = true → l.toNat = (s.can p.val).lunRx →
    ∃ t, exec (.resume p l) s = .next t ∧ (t.can p.val).discarding = false ∧ partsOnly [.cn] s t) ∧
  (∀ (p : CanPort) (l : BitVec 16) (s : State), canActive s p.val = true → l.toNat ≠ (s.can p.val).lunRx →
    ∃ t, exec (.resume p l) s = .next t ∧ (t.can p.val).discarding = true ∧
      t.sent = .can p.val "RNAK" [(s.can p.val).lunRx] :: s.sent ∧ onlyWrites [CAN_ERR_RNAKTX p.val] [.sent, .cn] s t) ∧
  (∀ (c : LaneCell) (b next hits : Bool) (l : List (BitVec 64)) (s : State), canRunning s (cellPort c.val) = true →
    ∃ t, exec (.uncorrectableCodeword c b ⟨true, next, hits⟩ l) s = .next t ∧
      t.rd (CAN_ERR_UNCORR (cellPort c.val)) = satInc (2 ^ (CAN_ERR_UNCORR (cellPort c.val)).w - 1) (s.rd (CAN_ERR_UNCORR (cellPort c.val))) ∧
      (hits = true → canActive s (cellPort c.val) = true → (t.can (cellPort c.val)).discarding = true) ∧
      (next = true → 2 ≤ (if b then (s.lane c.val).runB else (s.lane c.val).runA) → t.rd (lockF c.val b) = 0 ∧ leafSet t (32 + c.val) 1) ∧
      partsOnly [.regs, .freeCtr, .sent, .mg, .cn, .lc] s t) ∧
  (∀ (c : LaneCell) (b next hits : Bool) (l : List (BitVec 64)) (s : State), canRunning s (cellPort c.val) = true →
    ∃ t, exec (.uncorrectableCodeword c b ⟨false, next, hits⟩ l) s = .next t ∧ onlyWrites [CAN_ERR_CSLOT (cellPort c.val)] [] s t ∧
      t.rd (CAN_ERR_CSLOT (cellPort c.val)) =
        min (2 ^ (CAN_ERR_CSLOT (cellPort c.val)).w - 1) (s.rd (CAN_ERR_CSLOT (cellPort c.val)) + (l.filter fun w => !slotOk w).length))

/-- R234, R235, R238: a record with segments closes with its tag; a tag unit that checks opens the next receive record; one that does
not takes the port down and clears the keys. R237: a worn epoch starts a transmit key update, which names a unit at least 64 beyond the last
sent and is announced and repeated by KUPD; the receiver of KUPD holds the next secret for the unit named and answers KACK; at the unit the
acknowledged sender goes to the next epoch; without KACK the port goes down and its keys are cleared. -/
def Obligations.RecordsTagsAndKeyUpdates : Prop :=
  (∀ (p : CanPort) (s : State), canActive s p.val = true → (s.can p.val).txSegs ≠ 0 → (s.can p.val).upd = none →
    ∃ t, exec (.recordClose p) s = .next t ∧ (t.can p.val).txSegs = 0 ∧ (t.can p.val).txRec = [] ∧
      (t.can p.val).lunTx = ((s.can p.val).lunTx + 1) % 65536 ∧
      t.sent = .can p.val "TAG" [s.rd (CAN_STAT_TXEP p.val) % 2, (s.can p.val).txRecno % 32768,
        recordTag (s.can p.val).secTx (s.can p.val).txRec (s.can p.val).txRecno] :: s.sent ∧ partsOnly [.sent, .cn] s t) ∧
  (∀ (p : CanPort) (e : Bool) (r : BitVec 15) (g : BitVec 128) (s : State), canActive s p.val = true → (s.can p.val).discarding = false →
    (s.can p.val).updRx = none → e = bit (s.rd (CAN_STAT_RXEP p.val)) 0 → r.toNat = (s.can p.val).rxRecno % 32768 →
    g.toNat = recordTag (s.can p.val).secRx (s.can p.val).rxRec (s.can p.val).rxRecno →
    ∃ t, exec (.tag p e r g) s = .next t ∧ (t.can p.val).rxSegs = 0 ∧ (t.can p.val).rxRec = [] ∧
      (t.can p.val).rxRecno = (s.can p.val).rxRecno + 1 ∧ (t.can p.val).lunRx = ((s.can p.val).lunRx + 1) % 65536 ∧
      partsOnly [.cn] s t) ∧
  (∀ (p : CanPort) (e : Bool) (r : BitVec 15) (g : BitVec 128) (s : State), canActive s p.val = true → (s.can p.val).discarding = false →
    (s.can p.val).updRx = none → g.toNat ≠ recordTag (s.can p.val).secRx (s.can p.val).rxRec (s.can p.val).rxRecno →
    ∃ t, exec (.tag p e r g) s = .next t ∧ (t.can p.val).secTx = [] ∧ (t.can p.val).secRx = [] ∧ (t.can p.val).prk = [] ∧
      t.rd (CAN_ERR2_TAGFAIL p.val) = satInc 255 (s.rd (CAN_ERR2_TAGFAIL p.val)) ∧
      leafSet t (portGrove p.val) 13 ∧ (t.eg p.val).waiting = true) ∧
  (∀ (p : CanPort) (s : State), canActive s p.val = true → (s.can p.val).upd = none → epochWorn s p.val = true →
    ∃ t l, exec (.keyUpdateStart p) s = .next t ∧ (t.can p.val).upd = some l ∧ (t.can p.val).updAck = false ∧
      63 ≤ (l + 65536 - (s.can p.val).lunTx % 65536) % 65536 ∧
      t.sent = .can p.val "KUPD" [(s.rd (CAN_STAT_TXEP p.val) + 1) % 256, l] :: s.sent ∧ partsOnly [.freeCtr, .sent, .cn] s t) ∧
  (∀ (p : CanPort) (s : State), epochWorn s p.val = false → exec (.keyUpdateStart p) s = .next s) ∧
  (∀ (p : CanPort) (e : Byte) (l : BitVec 16) (s : State), canActive s p.val = true → e.toNat = (s.rd (CAN_STAT_RXEP p.val) + 1) % 256 →
    ∃ t, exec (.kupd p e l) s = .next t ∧ (t.can p.val).updRx = some (l.toNat, nextOf (s.can p.val).secRx) ∧
      t.sent = .can p.val "KACK" [e.toNat] :: s.sent ∧ partsOnly [.sent, .cn] s t) ∧
  (∀ (p : CanPort) (l : Nat) (s : State), canActive s p.val = true → (s.can p.val).upd = some l → (s.can p.val).updAck = false →
    exec (.kupdRepeat p) s = .next (s.emit (.can p.val "KUPD" [(s.rd (CAN_STAT_TXEP p.val) + 1) % 256, l]))) ∧
  (∀ (p : CanPort) (e : Byte) (l : Nat) (s : State), canActive s p.val = true → (s.can p.val).upd = some l →
    e.toNat = (s.rd (CAN_STAT_TXEP p.val) + 1) % 256 →
    ∃ t, exec (.kack p e) s = .next t ∧ onlyWrites [CAN_STAT_TXEP p.val] [.cn] s t ∧
      (l ≠ (s.can p.val).lunTx → (t.can p.val).updAck = true ∧ t.rd (CAN_STAT_TXEP p.val) = s.rd (CAN_STAT_TXEP p.val)) ∧
      (l = (s.can p.val).lunTx → (t.can p.val).secTx = nextOf (s.can p.val).secTx ∧ (t.can p.val).upd = none ∧
        t.rd (CAN_STAT_TXEP p.val) = e.toNat)) ∧
  (∀ (p : CanPort) (l : Nat) (s : State), canActive s p.val = true → (s.can p.val).upd = some l → (s.can p.val).updAck = false →
    ∃ t, exec (.kackTimeout p) s = .next t ∧ (t.can p.val).secTx = [] ∧ (t.can p.val).secRx = [] ∧ (t.eg p.val).waiting = true)

/-- R222, R236, R240, R241: each CAPS part and KSHARE word is recorded; the fourth part settles the mode and starts the handshake; the
last KSHARE word of a valid public key brings HSFIN; an HSFIN that checks makes the link active, which is an attach, once the pair that
turned is trained too; one that does not fails the handshake. A bring-up starts at ENTER_MODE on a port that the image gives a personality
and the variant the mode, and a limit that passes fails it. -/
def Obligations.CanopyBringUp : Prop :=
  (∀ (p : CanPort) (s : State), configured s p.val = true → offersCanopy s p.val = true →
    (∃ c ∈ portCells p.val, (s.lane c).faulted = false) → s.on KEY_VAULT_HALT = false →
    ∃ t, exec (.enterMode p) s = .next t ∧ t.rd (CAN_STAT_STATE p.val) = 1 ∧ (t.can p.val).entered = 1 ∧
      partsOnly [.regs, .cn, .lc] s t) ∧
  (∀ (p : CanPort) (s : State), configured s p.val = false ∨ offersCanopy s p.val = false → exec (.enterMode p) s = .next s) ∧
  (∀ (p : CanPort) (k : Fin 4) (x : BitVec 36) (m : Fin 3) (s : State), s.rd (CAN_STAT_STATE p.val) = 2 → k.val ≠ 0 →
    (mins (s.can p.val).caps k.val x.toNat).length ≠ 4 →
    ∃ t, exec (.caps p k x m) s = .next t ∧ (t.can p.val).caps = mins (s.can p.val).caps k.val x.toNat ∧
      t.rd (CAN_PEER_V p.val (k.val - 1)) = x.toNat % 2 ^ 32 ∧ onlyWrites [CAN_PEER_V p.val (k.val - 1)] [.cn] s t) ∧
  (∀ (p : CanPort) (x : BitVec 36) (m : Fin 3) (s : State), s.rd (CAN_STAT_STATE p.val) = 2 → bits x.toNat 35 32 = 1 →
    bit x.toNat 31 = isUpEnd s p.val → (mins (s.can p.val).caps 0 x.toNat).length ≠ 4 →
    ∃ t, exec (.caps p 0 x m) s = .next t ∧ (t.can p.val).caps = mins (s.can p.val).caps 0 x.toNat ∧ (t.can p.val).pref = m.val ∧
      partsOnly [.cn] s t) ∧
  (∀ (p : CanPort) (k : Fin 4) (x : BitVec 36) (m : Fin 3) (s : State), s.rd (CAN_STAT_STATE p.val) = 2 → vaultHeld s = false →
    (mins (s.can p.val).caps k.val x.toNat).length = 4 → bits (mget 0 (mins (s.can p.val).caps k.val x.toNat) 0) 35 32 = 1 →
    bit (mget 0 (mins (s.can p.val).caps k.val x.toNat) 0) 31 = isUpEnd s p.val →
    ∃ t, exec (.caps p k x m) s = .next t ∧ t.rd (CAN_STAT_STATE p.val) = 3 ∧ (∃ l, Out.can p.val "KSHARE" l ∈ t.sent)) ∧
  (∀ (p : CanPort) (k : Fin 24) (w : Word) (s : State), s.rd (CAN_STAT_STATE p.val) = 3 → (s.can p.val).prk = [] → vaultHeld s = false →
    (mins (s.can p.val).share k.val w.toNat).length ≠ 24 →
    ∃ t, exec (.kshare p k w) s = .next t ∧ (t.can p.val).share = mins (s.can p.val).share k.val w.toNat ∧ partsOnly [.cn] s t) ∧
  (∀ (p : CanPort) (k : Fin 24) (w : Word) (s : State), s.rd (CAN_STAT_STATE p.val) = 3 → (s.can p.val).prk = [] → vaultHeld s = false →
    (mins (s.can p.val).share k.val w.toNat).length = 24 →
    Config.pointOk ((List.range 24).flatMap fun j => beBytes 4 (mget 0 (mins (s.can p.val).share k.val w.toNat) j)) = true →
    ∃ t, exec (.kshare p k w) s = .next t ∧ (∃ v, Out.can p.val "HSFIN" [v] ∈ t.sent) ∧ partsOnly [.regs, .sent, .cn] s t) ∧
  (∀ (p : CanPort) (v : Word) (s : State), s.rd (CAN_STAT_STATE p.val) = 3 → vaultHeld s = false → (s.can p.val).prk ≠ [] →
    v.toNat = verifyOf (s.can p.val).prk (thBytes s p.val) (b2n (isUpEnd s p.val)) → turning s p.val = false →
    ∃ t, exec (.hsfin p v) s = .next t ∧ t.rd (CAN_STAT_STATE p.val) = 4 ∧ leafSet t (portGrove p.val) 11 ∧
      mfind t.sv.att p.val ≠ none) ∧
  (∀ (p : CanPort) (v : Word) (s : State), s.rd (CAN_STAT_STATE p.val) = 3 → vaultHeld s = false → (s.can p.val).prk ≠ [] →
    v.toNat = verifyOf (s.can p.val).prk (thBytes s p.val) (b2n (isUpEnd s p.val)) → turning s p.val = true →
    ∃ t, exec (.hsfin p v) s = .next t ∧ (t.can p.val).checked = true ∧ partsOnly [.cn] s t) ∧
  (∀ (p : CanPort) (v : Word) (s : State), s.rd (CAN_STAT_STATE p.val) = 3 → vaultHeld s = false →
    v.toNat ≠ verifyOf (s.can p.val).prk (thBytes s p.val) (b2n (isUpEnd s p.val)) →
    ∃ t, exec (.hsfin p v) s = .next t ∧ t.rd (CAN_STAT_STATE p.val) = 6 ∧ (t.can p.val).failed = true) ∧
  (∀ (p : CanPort) (s : State), bringingUp s p.val = true →
    ∃ t, exec (.trainingLimit p) s = .next t ∧ t.rd (CAN_STAT_STATE p.val) = 6 ∧ (t.can p.val).failed = true ∧
      leafSet t (portGrove p.val) 14) ∧
  (∀ (p : CanPort) (s : State), bringingUp s p.val = false → exec (.trainingLimit p) s = .next s)

/-! ### Lane cells (chapter 09) -/

/-- R258, R259: a detected receiver takes a cell of an entered port from DETECT to TS1, which it then sends; TS1 sequences lock a receive pair
and say its polarity and rank; the TS2 with COUNT 0 takes the cell to UP, and one before it gives the seed. -/
def Obligations.LaneCellTraining : Prop :=
  (∀ (c : LaneCell) (s : State), s.rd (LC_STAT_STATE c.val) = 1 → cellPort c.val < 8 → (s.can (cellPort c.val)).entered = 1 →
    ∃ t, exec (.receiverDetect c) s = .next t ∧ t.rd (LC_STAT_STATE c.val) = lcTS1 ∧ onlyWrites [LC_STAT_STATE c.val] [.freeCtr, .sent] s t) ∧
  (∀ (c : LaneCell) (b v : Bool) (i : BitVec 11) (s : State), cellPort c.val < 8 → pairTx s c.val b = false → (s.lane c.val).faulted = false →
    bit i.toNat 6 = false → trainState (s.rd (LC_STAT_STATE c.val)) = true →
    ∃ t, exec (.ts1 c b i v) s = .next t ∧ t.rd (lockF c.val b) = 1 ∧ t.rd (invF c.val b) = b2n v ∧
      t.rd (rankF c.val b) = bits i.toNat 10 9 ∧ (v = true → leafSet t (32 + c.val) 5) ∧
      partsOnly [.regs, .freeCtr, .sent, .mg, .lc] s t) ∧
  (∀ (c : LaneCell) (b : Bool) (k : Fin 16) (x : BitVec 31) (s : State), cellPort c.val < 8 → pairTx s c.val b = false →
    s.rd (LC_STAT_STATE c.val) = lcTS2 → k.val ≠ 0 →
    ∃ t, exec (.ts2 c b k x) s = .next t ∧ (if b then (t.lane c.val).seedB else (t.lane c.val).seedA) = x.toNat ∧ partsOnly [.lc] s t) ∧
  (∀ (c : LaneCell) (b : Bool) (x : BitVec 31) (s : State), cellPort c.val < 8 → pairTx s c.val b = false →
    s.rd (LC_STAT_STATE c.val) = lcTS2 ∨ s.rd (LC_STAT_STATE c.val) = lcRETRAIN ∧ (s.lane c.val).ts2 = true →
    s.rd (CAN_STAT_STATE (cellPort c.val)) ≠ 3 →
    ∃ t, exec (.ts2 c b 0 x) s = .next t ∧ t.rd (LC_STAT_STATE c.val) = lcUP ∧ partsOnly [.regs, .sent, .mg, .cn, .lc] s t) ∧
  (∀ (c : LaneCell) (b : Bool) (x : BitVec 31) (s : State), cellPort c.val < 8 → pairTx s c.val b = false →
    s.rd (LC_STAT_STATE c.val) = lcUP → (if b then (s.lane c.val).turnB else (s.lane c.val).turnA) = true → s.on (lockF c.val b) = true →
    (s.can (cellPort c.val)).checked = false →
    ∃ t, exec (.ts2 c b 0 x) s = .next t ∧ (if b then (t.lane c.val).turnB else (t.lane c.val).turnA) = false ∧ partsOnly [.lc] s t)

/-- R260 to R263, R213, R219: loss of lock and loss of signal are recorded with their leaves and retrain a running Canopy link, as loss
of alignment does; 1 ms of LOS on every receive pair is a port-down; a dark cell beside one with signal ends in single-cell mode; a
retrain that misses its limit is counted. R269 to R271, R278: in test mode a checker with a signal to check that synchronises sets SYNC; a
synchronised checker counts its errors, the first since CLR with its leaf; the last injection clears GO. -/
def Obligations.DetectorsAndTestLogic : Prop :=
  (∀ (c : LaneCell) (b : Bool) (s : State), ∃ t, exec (.lossOfLock c b) s = .next t ∧ t.rd (lockF c.val b) = 0 ∧
    leafSet t (32 + c.val) 1 ∧ partsOnly [.regs, .freeCtr, .sent, .mg, .lc] s t) ∧
  (∀ (c : LaneCell) (b : Bool) (s : State), ∃ t, exec (.los c b) s = .next t ∧ t.rd (losF c.val b) = 1 ∧
    leafSet t (32 + c.val) 0 ∧ partsOnly [.regs, .freeCtr, .sent, .mg, .lc] s t) ∧
  (∀ (p : CanPort) (s : State), canRetrain s p.val = true →
    ∃ t, exec (.lossOfAlignment p) s = .next t ∧ (∀ c ∈ liveCells s p.val, t.rd (LC_STAT_STATE c) = lcRETRAIN) ∧
      partsOnly [.regs, .freeCtr, .sent, .lc] s t) ∧
  (∀ (p : CanPort) (s : State), canRunning s p.val = true → allLos s (liveCells s p.val) = true →
    ∃ t, exec (.losTimeout ⟨p.val, by omega⟩) s = .next t ∧ mfind t.sv.att p.val = none ∧ (t.eg p.val).waiting = true) ∧
  (∀ (c : LaneCell) (s : State), cellPort c.val < 8 → cellDark s c.val = true → canActive s (cellPort c.val) = true →
    (s.can (cellPort c.val)).single = 0 →
    ∃ t, exec (.cellLosTimeout c) s = .next t ∧ t.rd (CAN_STAT_MODE (cellPort c.val)) = 3 ∧ (t.can (cellPort c.val)).single ≠ 0) ∧
  (∀ (p : Port) (s : State) (c : Nat), c ∈ liveCells s p.val → s.rd (LC_STAT_STATE c) = lcRETRAIN →
    ∃ t, exec (.retrainTimeout p) s = .next t ∧ t.rd (LC_RTR_FAILS c) = satInc (2 ^ (LC_RTR_FAILS c).w - 1) (s.rd (LC_RTR_FAILS c)) ∧
      partsOnly [.regs, .freeCtr, .sent, .mg, .lc] s t) ∧
  (∀ (c : LaneCell) (b : Bool) (s : State), checks s c.val b = true →
    ∃ t, exec (.checkerSync c b) s = .next t ∧ t.rd (if b then LC_CHKB_SYNC c.val else LC_CHKA_SYNC c.val) = 1 ∧
      onlyWrites [if b then LC_CHKB_SYNC c.val else LC_CHKA_SYNC c.val] [.lc] s t) ∧
  (∀ (c : LaneCell) (b : Bool) (s : State), s.on (if b then LC_CHKB_SYNC c.val else LC_CHKA_SYNC c.val) = true →
    ∃ t, exec (.checkerError c b) s = .next t ∧
      t.rd (if b then LC_CHKB_ERR c.val else LC_CHKA_ERR c.val) =
        satInc (2 ^ (LC_CHKA_ERR c.val).w - 1) (s.rd (if b then LC_CHKB_ERR c.val else LC_CHKA_ERR c.val)) ∧
      (s.rd (LC_CHKA_ERR c.val) = 0 → s.rd (LC_CHKB_ERR c.val) = 0 → leafSet t (32 + c.val) 7) ∧
      onlyWrites [if b then LC_CHKB_ERR c.val else LC_CHKA_ERR c.val, EVSTAT (32 + c.val)] [.mg] s t) ∧
  (∀ (c : LaneCell) (s : State), ∃ t, exec (.injectComplete c) s = .next t ∧ t.rd (LC_INJ_GO c.val) = 0 ∧
    onlyWrites [LC_INJ_GO c.val] [] s t)

/-! ### Segments, display pipes and port adapters (chapters 05, 10 and 11) -/

/-- R21, R104, R226, R229: a well-formed segment of an established tunnel joins the tunnel's ingress store: as it came on a link that is no
Canopy link, and decrypted on a Canopy link where it is in order, within its grant and its credit; a malformed one is counted by an adapter,
and makes a Canopy receiver discard and send RNAK; a segment of another GEN, tunnel or port is discarded and counted. What the segment brings
to the management agent follows (R127). -/
def Obligations.SegmentsAreAdmittedOrDiscarded : Prop :=
  (∀ (p : Port) (h : BitVec 64) (b : Bytes) (g : Seg) (s : State), fencedPort s p.val = false → (8 ≤ p.val ∨ canActive s p.val = false) →
    parseSeg h b = some g → admits s p.val g.tun → g.gen = s.rd (TT_STATE_GEN g.tun) →
    ∃ u e, exec (.segmentIngress p h b) s = .next (agentWork u) ∧ u.ingressQ g.tun = s.ingressQ g.tun ++ [e] ∧ e.payload = g.payload ∧
      e.first = g.first ∧ e.last = g.last ∧ partsOnly [.regs, .sent, .mg, .fb, .lc] s u) ∧
  (∀ (p : CanPort) (h : BitVec 64) (b : Bytes) (g : Seg) (n : Nat) (s : State), fencedPort s p.val = false → canActive s p.val = true →
    (s.can p.val).discarding = false → parseSeg h b = some g → n = rewriteIn s p.val g.tun → outsideHome s p.val g.tun = false →
    beyondGrant s n g.line = false → beyondCredit s n = false → cascadeBase s p.val ≠ some (n - 1) →
    admits s p.val n → g.gen = s.rd (TT_STATE_GEN n) →
    ∃ u e, exec (.segmentIngress ⟨p.val, by omega⟩ h b) s = .next (agentWork u) ∧ u.ingressQ n = s.ingressQ n ++ [e] ∧
      e.payload = (receiveUnit p.val h b s).1.take g.payload.length ∧ e.first = g.first ∧ e.last = g.last ∧
      partsOnly [.regs, .sent, .fb, .cr, .cn] s u) ∧
  (∀ (p : Port) (h : BitVec 64) (b : Bytes) (s : State), fencedPort s p.val = false → parseSeg h b = none →
    (8 ≤ p.val ∨ canActive s p.val = false) →
    ∃ u, exec (.segmentIngress p h b) s = .next (agentWork u) ∧ onlyWrites [ADP_CNT_RXBAD p.val] [] s u ∧
      u.rd (ADP_CNT_RXBAD p.val) = satInc (2 ^ (ADP_CNT_RXBAD p.val).w - 1) (s.rd (ADP_CNT_RXBAD p.val))) ∧
  (∀ (p : CanPort) (h : BitVec 64) (b : Bytes) (s : State), fencedPort s p.val = false → parseSeg h b = none → canActive s p.val = true →
    (s.can p.val).discarding = false →
    ∃ u, exec (.segmentIngress ⟨p.val, by omega⟩ h b) s = .next (agentWork u) ∧ (u.can p.val).discarding = true ∧
      u.sent = .can p.val "RNAK" [(s.can p.val).lunRx] :: s.sent ∧ onlyWrites [CAN_ERR_RNAKTX p.val] [.sent, .cn] s u) ∧
  (∀ (p : Port) (h : BitVec 64) (b : Bytes) (g : Seg) (s : State), fencedPort s p.val = false → parseSeg h b = some g →
    (8 ≤ p.val ∨ canActive s p.val = false) → s.pw.stopped = false → g.tun < 256 →
    (tunActive s g.tun = false ∨ g.gen ≠ s.rd (TT_STATE_GEN g.tun) ∨ inPortOf s g.tun ≠ p.val) →
    ∃ u, exec (.segmentIngress p h b) s = .next (agentWork u) ∧ u.fb.ingress = s.fb.ingress ∧
      u.rd (TT_DISC_GENDIS g.tun) = satInc (2 ^ (TT_DISC_GENDIS g.tun).w - 1) (s.rd (TT_DISC_GENDIS g.tun)))

/-- R285, R286: the first attributes of a newly ACTIVE stream are armed for the next line 0; changed ones wait for their swap with ATTR
set; attributes outside R282 are never adopted and set UNSUPP. R283, R314: AUX replies, with what the hub shows of the sink's DPCD, and HPD
interrupts enter the pipe's upstream tunnel under their type bytes; an AUX request that is neither a native read nor a native write goes to
the sink, and a write of what the hub owns is acknowledged upstream. -/
def Obligations.AttributesAndAuxTravelByThePipe : Prop :=
  (∀ (d : Pipe) (b : Bytes) (s : State), pipeActive s d.val = true → attrsOk (b.take 25) = true → (s.pipe d.val).fresh = true →
    ∃ t, exec (.streamAttributes d b) s = .next t ∧ (t.pipe d.val).next = some (b.take 25) ∧ (t.pipe d.val).armed = true ∧
      (t.pipe d.val).attrs = (s.pipe d.val).attrs ∧ partsOnly [.pp] s t) ∧
  (∀ (d : Pipe) (b : Bytes) (s : State), pipeActive s d.val = true → attrsOk (b.take 25) = true → (s.pipe d.val).fresh = false →
    (s.pipe d.val).seen ≠ some (b.take 25) → (s.pipe d.val).attrs ≠ some (b.take 25) →
    ∃ t, exec (.streamAttributes d b) s = .next t ∧ (t.pipe d.val).next = some (b.take 25) ∧ (t.pipe d.val).armed = false ∧
      (t.pipe d.val).attrs = (s.pipe d.val).attrs ∧ leafSet t (9 + d.val) 4 ∧ partsOnly [.regs, .mg, .sv, .pp] s t) ∧
  (∀ (d : Pipe) (b : Bytes) (s : State), pipeActive s d.val = true → attrsOk (b.take 25) = false →
    (s.pipe d.val).fresh = true ∨ (s.pipe d.val).seen ≠ some (b.take 25) →
    ∃ t, exec (.streamAttributes d b) s = .next t ∧ (t.pipe d.val).unsupp = true ∧ (t.pipe d.val).next = (s.pipe d.val).next ∧
      (t.pipe d.val).attrs = (s.pipe d.val).attrs ∧ leafSet t (9 + d.val) 3 ∧ onlyWrites [EVSTAT (9 + d.val)] [.mg, .pp] s t) ∧
  (∀ (d : Pipe) (b : Bytes) (n : Nat) (s : State), pipeTunnel s d.val = some n → tunActive s n = true →
    groveDark s (portGrove (s.rd (PIPE_ROUTE_PORT d.val))) = false →
    admits s (s.rd (PIPE_ROUTE_PORT d.val)) (s.rd (TT_STATE_PEER n)) →
    ((s.pipe d.val).remote = none → (shownReply d.val b s).1.length < 120 →
      ∃ t, exec (.auxReply d b) s = .next t ∧ arrived (s.rd (TT_STATE_PEER n)) (0x81 :: (shownReply d.val b s).1) s t ∧
        partsOnly [.regs, .freeCtr, .fb, .pp] s t) ∧
    (∃ t, exec (.hpdInterrupt d) s = .next t ∧ arrived (s.rd (TT_STATE_PEER n)) [0x82] s t ∧ partsOnly [.regs, .fb] s t) ∧
    (byteAt b 0 / 16 = 8 → byteAt b 0 % 16 = 0 → byteAt b 1 = 1 → byteAt b 2 < 0x20 →
      ∃ t, exec (.auxRequest d b) s = .next t ∧ arrived (s.rd (TT_STATE_PEER n)) [0x81, 0] s t ∧ partsOnly [.regs, .fb] s t)) ∧
  (∀ (d : Pipe) (b : Bytes) (s : State), (s.pipe d.val).aux = none ∨ byteAt b 0 ≠ 0 → shownReply d.val b s = (b, s)) ∧
  (∀ (d : Pipe) (b : Bytes) (s : State), pipeActive s d.val = true → groveDark s (portGrove (s.rd (PIPE_ROUTE_PORT d.val))) = false →
    byteAt b 0 / 16 ≠ 8 → byteAt b 0 / 16 ≠ 9 →
    ∃ t, exec (.auxRequest d b) s = .next t ∧ t.sent = .unit (s.rd (PIPE_ROUTE_PORT d.val)) "AUX" b :: s.sent ∧
      (t.pipe d.val).aux = none ∧ partsOnly [.sent, .pp] s t)

/-- R283, R284, R288, R290, R291: a pixel unit of the right length joins the line buffer, unless its line has been decided, and is
stored at its line of the frame buffer that is written, and no other byte of the LPDDR changes; one of another length is discarded with
LENERR; a secondary-data packet goes out with its line, and a unit of a reserved type is discarded with LENERR. -/
def Obligations.PixelUnitsReachBufferAndStore : Prop :=
  (∀ (d : Pipe) (y : Nat) (b a : Bytes) (s : State), (s.pipe d.val).attrs = some a → pipeActive s d.val = true → y < aVActive a →
    b.length = unitBytes a → (s.pipe d.val).lines.length < 16 →
    (∀ z l, (s.pipe d.val).decided = some (z, l) → (y + aVTotal a - z) % aVTotal a ≠ 0 ∧
      (y + aVTotal a - z) % aVTotal a ≤ aVTotal a / 2) →
    ∃ t, exec (.pixelUnit d y b) s = .next t ∧ mfind (t.pipe d.val).lines y = some b ∧ partsOnly [.regs, .dram, .mg, .pp] s t ∧
      let row := if aDsc a then b else (unpack (aFormat a) (aHActive a) b).flatMap (storeBytes (aFormat a))
      let at_ := bufferBase s d.val (1 - s.rd (PIPE_STAT_HBUF d.val)) + y * linePitch a
      (∀ k, k < row.length → memGet 0 t.dram (at_ + k) = row.getD k 0) ∧
        ∀ k, k < at_ ∨ at_ + row.length ≤ k → memGet 0 t.dram k = memGet 0 s.dram k) ∧
  (∀ (d : Pipe) (y : Nat) (b a : Bytes) (s : State), (s.pipe d.val).attrs = some a → pipeActive s d.val = true → y < aVActive a →
    b.length ≠ unitBytes a →
    ∃ t, exec (.pixelUnit d y b) s = .next t ∧ leafSet t (9 + d.val) 6 ∧ onlyWrites [EVSTAT (9 + d.val)] [.mg, .pp] s t) ∧
  (∀ (d : Pipe) (y : Nat) (b : Bytes) (s : State), byteAt b 0 = 1 → pipeActive s d.val = true →
    exec (.secondaryDataPacket d y b) s = .next (s.emit (.line d.val y "SDP" (b.drop 1)))) ∧
  (∀ (d : Pipe) (y : Nat) (b : Bytes) (s : State), byteAt b 0 ≠ 1 →
    ∃ t, exec (.secondaryDataPacket d y b) s = .next t ∧ leafSet t (9 + d.val) 6 ∧ onlyWrites [EVSTAT (9 + d.val)] [.mg] s t)

/-- R225, R289, R297 to R299: the line decision is for the line after the one scanned, from L0 exactly where the live line is in the
buffer and FHOLD is 0; a line start takes the pipe to its next line; a frame start counts the frame, latches the layer registers and
starts line 0; an edge of TE in blanking makes the next line line 0, and an edge missed for VTOTAL further lines starts it with TEMISS; edges
of TE and GENLOCK are stamped for the lead raster while P46 has its supply (R524). -/
def Obligations.PipeTiming : Prop :=
  (∀ (d : Pipe) (a : Bytes) (s : State), (s.pipe d.val).attrs = some a → nextLine s d.val < aVActive a → aDsc a = false →
    ∃ t, exec (.lineDecision d) s = .next t ∧ partsOnly [.pp] s t ∧
      (t.pipe d.val).decided = some (nextLine s d.val, !s.on (PIPE_CTL_FHOLD d.val) && inBuffer s d.val (nextLine s d.val) a)) ∧
  (∀ (d : Pipe) (s : State), (s.pipe d.val).attrs ≠ none → nextLine s d.val ≠ 0 →
    ∃ t, exec (.pipeLineStart d) s = .next t ∧ t.rd (PIPE_STAT_LINE d.val) = nextLine s d.val ∧
      t.rd (PIPE_FRAME_COUNT d.val) = s.rd (PIPE_FRAME_COUNT d.val) ∧ partsOnly [.regs, .freeCtr, .sent, .mg, .pp] s t) ∧
  (∀ (d : Pipe) (s : State), (s.pipe d.val).attrs ≠ none →
    ∃ t, exec (.pipeFrameStart d) s = .next t ∧ t.rd (PIPE_STAT_LINE d.val) = 0 ∧
      t.rd (PIPE_FRAME_COUNT d.val) = (s.rd (PIPE_FRAME_COUNT d.val) + 1) % 2 ^ (PIPE_FRAME_COUNT d.val).w ∧
      (t.pipe d.val).latched = (layerRegs d.val).map fun f => s.rd f) ∧
  (∀ (d : Pipe) (s : State), (s.pipe d.val).attrs ≠ none → s.rd (PIPE_CTL_TSRC d.val) = 2 → (s.pipe d.val).teSeen = false →
    s.rd (PIPE_VTIM_VTOTAL d.val) ≤ (s.pipe d.val).extended →
    ∃ t, exec (.teMiss d) s = .next t ∧ t.rd (PIPE_STAT_LINE d.val) = 0 ∧ leafSet t (9 + d.val) 5 ∧
      t.rd (PIPE_CNT_TEMISS d.val) = satInc (2 ^ (PIPE_CNT_TEMISS d.val).w - 1) (s.rd (PIPE_CNT_TEMISS d.val))) ∧
  (∀ (k : Fin 4) (d : Pipe) (s : State), p46Stopped s = false → s.rd (PIPE_CTL_TSRC d.val) = 2 → s.rd (PIPE_CTL_TESEL d.val) = k.val →
    (s.pipe d.val).attrs ≠ none → s.rd (PIPE_VTIM_VACTIVE d.val) ≤ s.rd (PIPE_STAT_LINE d.val) →
    ∃ t, exec (.teEdge k) s = .next t ∧ (t.pipe d.val).teSeen = true ∧ mfind t.sc.edges k.val = some s.clock ∧
      partsOnly [.regs, .mg, .sv, .sc, .pp] s t) ∧
  (∀ s : State, p46Stopped s = false → ∃ t, exec .genlockEdge s = .next t ∧ mfind t.sc.edges 4 = some s.clock ∧
    partsOnly [.regs, .freeCtr, .mg, .sv, .sc, .pp] s t) ∧
  (∀ (k : Fin 4) (s : State), p46Stopped s = true → exec (.teEdge k) s = .next s ∧ exec .genlockEdge s = .next s)

/-- R309 to R311, R315, R321: a unit that fails its own standard's check is discarded and counted, whatever it is; one of a branch or flex port
that passes enters its tunnel; at a crown port the switch turns away a non-posted request that routes to no port with Unsupported Request,
answers a read of the first word of its own configuration space with its device and vendor identity, and sends what routes to a port into the
port's tunnel; a USB 3 packet to a hub port without a connection and an Ethernet frame that finds no tunnel are counted. -/
def Obligations.AdapterUnitsEnterTheirTunnels : Prop :=
  (∀ (p : Port) (n : Tun) (x y z : Bytes) (s : State),
    (∃ t, exec (.tlp p n false x y z) s = .next t ∧ onlyWrites [ADP_CNT_RXBAD p.val] [] s t ∧
      t.rd (ADP_CNT_RXBAD p.val) = satInc (2 ^ (ADP_CNT_RXBAD p.val).w - 1) (s.rd (ADP_CNT_RXBAD p.val))) ∧
    (∃ t, exec (.usb3Packet p n false y z) s = .next t ∧ onlyWrites [ADP_CNT_RXBAD p.val] [] s t ∧
      t.rd (ADP_CNT_RXBAD p.val) = satInc (2 ^ (ADP_CNT_RXBAD p.val).w - 1) (s.rd (ADP_CNT_RXBAD p.val)))) ∧
  (∀ (p : Port) (b : Bytes) (s : State), persEth (s.rd (ADP_STAT_PERS p.val)) = true →
    ∃ t, exec (.ethernetFrame p b false) s = .next t ∧ onlyWrites [ADP_CNT_RXBAD p.val] [] s t ∧
      t.rd (ADP_CNT_RXBAD p.val) = satInc (2 ^ (ADP_CNT_RXBAD p.val).w - 1) (s.rd (ADP_CNT_RXBAD p.val))) ∧
  (∀ (p : Port) (n : Tun) (b x y z : Bytes) (s : State), b = x ++ y ++ z → 2 ≤ p.val → portFenced s p.val = false → admits s p.val n.val → b.length ≤ 120 →
    (∃ t, exec (.tlp p n true x y z) s = .next t ∧ arrived n.val b s t) ∧
    (∃ t, exec (.usb3Packet p n true (x ++ y) z) s = .next t ∧ arrived n.val b s t)) ∧
  (∀ (p : Port) (n : Tun) (b x y z : Bytes) (s : State), b = x ++ y ++ z → p.val < 2 → routeTlp s p.val (tlpHeader b.length b) = .nowhere →
    exec (.tlp p n true x y z) s =
      .next (if nonPosted (tlpHeader b.length b) then s.emit (.unit p.val "TLP" (urCompletion (tlpHeader b.length b))) else s)) ∧
  (∀ (p : Port) (n : Tun) (b h x y z : Bytes) (s : State), b = x ++ y ++ z → p.val < 2 → h = tlpHeader b.length b → byteAt h 0 = 4 → byteAt h 9 % 8 = 0 →
    byteAt h 10 % 16 = 0 → byteAt h 11 < 4 → s.rd (CAN_STAT_STATE p.val) = 5 →
    exec (.tlp p n true x y z) s =
      .next (s.emit (.unit p.val "TLP" (cfgCompletion h (some (deviceId s * 65536 + s.rd SYS_ID_VENDOR)))))) ∧
  (∀ (p : Port) (n d : Tun) (b x y z : Bytes) (q : Nat) (s : State), b = x ++ y ++ z → p.val < 2 → routeTlp s p.val (tlpHeader b.length b) = .port q false →
    downTunnel s p.val q 1 = some d.val → s.rd (CAN_STAT_STATE p.val) = 5 ∨ d = n →
    s.rd (ADP_STAT_STATE q) ≠ 4 → s.rd (ADP_STAT_STATE q) ≠ 5 → portFenced s p.val = false → admits s p.val d.val → b.length ≤ 120 →
    ∃ t, exec (.tlp p n true x y z) s = .next t ∧ arrived d.val b s t) ∧
  (∀ (p : Port) (n : Tun) (b y z : Bytes) (s : State), b = y ++ z → p.val < 2 → byteAt b 0 % 32 ≠ 12 → routeNibble s p.val b ≠ 0 →
    hubPortLive s (routeNibble s p.val b) = false →
    ∃ t, exec (.usb3Packet p n true y z) s = .next t ∧ onlyWrites [ADP_CNT_NOTUN p.val] [] s t ∧
      t.rd (ADP_CNT_NOTUN p.val) = satInc (2 ^ (ADP_CNT_NOTUN p.val).w - 1) (s.rd (ADP_CNT_NOTUN p.val))) ∧
  (∀ (p : Port) (n d : Tun) (b y z : Bytes) (q : Nat) (s : State), b = y ++ z → p.val < 2 → byteAt b 0 % 32 ≠ 12 → routeNibble s p.val b ≠ 0 →
    hubPortLive s (routeNibble s p.val b) = true → hubPort (routeNibble s p.val b) = some q → downTunnel s p.val q 2 = some d.val →
    s.rd (CAN_STAT_STATE p.val) = 5 ∨ d = n → portFenced s p.val = false → admits s p.val d.val → b.length ≤ 120 →
    ∃ t, exec (.usb3Packet p n true y z) s = .next t ∧ arrived d.val b s t) ∧
  (∀ (p : Port) (b : Bytes) (s : State), persEth (s.rd (ADP_STAT_PERS p.val)) = true → 60 ≤ b.length → b.length ≤ 120 →
    b.length + 4 ≤ s.rd (ADP_ETHCTL_MAXFRM p.val) → (etherType b).2 ≠ 0x8808 → ptpAt b = none →
    beAt b 12 2 ≠ 0x8100 → beAt b 12 2 ≠ 0x88A8 →
    (∀ n, upTunnel s p.val 3 (s.adp p.val).untag = some n → portFenced s p.val = false → admits s p.val n →
      ∃ t, exec (.ethernetFrame p b true) s = .next t ∧ arrived n b s t) ∧
    (upTunnel s p.val 3 (s.adp p.val).untag = none →
      ∃ t, exec (.ethernetFrame p b true) s = .next t ∧ onlyWrites [ADP_CNT_NOTUN p.val] [] s t ∧
        t.rd (ADP_CNT_NOTUN p.val) = satInc (2 ^ (ADP_CNT_NOTUN p.val).w - 1) (s.rd (ADP_CNT_NOTUN p.val))))

/-- R17, R22, R242, R263, R313, R314: a link that comes up at a rate its personality has is an attach, in its adapter or as a USB4 link, which
below Gen 3 leaves the port at USB 2.0; a standard link that goes down is a port-down; the standard's own recovery ends a run of
link-downs; HPD high starts an output's training and is an attach, HPD low a detach; training ends up at the first rate and width that
succeed, or down with DPTRAIN. R318, R319: an eject press at the input that PINS gives the slot sets Attention Button Pressed and EJECT, and
waits while the link retrains; the slot's power control off takes a port that is up to EJECTING, and one that is down to EJECTED; the link's
disable takes it on to EJECTED with a port-down; power on ends that; a link lost outside an eject completes what is outstanding, triggers DPC
and sets SURPRISE. -/
def Obligations.LinksComeAndGoAndSlotsEject : Prop :=
  (∀ (p : Port) (q : Partner) (s : State), s.rd PST_PSSTAT_STATE ≠ 2 ∨ p.val ∉ s.ps.downed → retrainBlocked s p.val = false → q.usb4 = false →
    rateUsable s p.val q.rate = true →
    ∃ t, exec (.linkUp p q) s = .next t ∧ t.rd (ADP_STAT_STATE p.val) = 2 ∧ mfind t.sv.att p.val = some q ∧
      leafSet t (portGrove p.val) 17) ∧
  (∀ (p : CanPort) (q : Partner) (s : State), s.rd PST_PSSTAT_STATE ≠ 2 ∨ p.val ∉ s.ps.downed → retrainBlocked s p.val = false →
    q.usb4 = true → (s.can p.val).entered = 2 →
    (usb4Rate q.rate = true → ∃ t, exec (.linkUp ⟨p.val, by omega⟩ q) s = .next t ∧ t.rd (CAN_STAT_STATE p.val) = 5 ∧
      mfind t.sv.att p.val = some { q with txMbps := usb4Mbps q.txMbps, rxMbps := usb4Mbps q.rxMbps }) ∧
    (usb4Rate q.rate = false → ∃ t, exec (.linkUp ⟨p.val, by omega⟩ q) s = .next t ∧ (t.can p.val).entered = 0 ∧ partsOnly [.cn] s t)) ∧
  (∀ (p : Port) (q : Partner) (s : State), s.rd PST_PSSTAT_STATE = 2 → p.val ∈ s.ps.downed → exec (.linkUp p q) s = .next (toActive s)) ∧
  (∀ (p : Port) (w : Fin 8) (s : State), portUp s p.val = true → (8 ≤ p.val ∨ canActive s p.val = false) →
    (∃ t, exec (.linkDown p) s = .next t ∧ mfind t.sv.att p.val = none ∧
      (t.adp p.val).downs = (if (s.adp p.val).downs + 1 < 3 then (s.adp p.val).downs + 1 else 0)) ∧
    (∃ t, exec (.standardRecovery ⟨p, w⟩) s = .next t ∧ (t.adp p.val).downs = 0 ∧
      t.rd (ADP_STAT_STATE p.val) = (if s.rd (ADP_STAT_STATE p.val) = 6 then 2 else s.rd (ADP_STAT_STATE p.val)) ∧
      t.rd (ADP_STAT_WIDTH p.val) = (if 1 ≤ w.val ∧ w.val < s.rd (ADP_STAT_WIDTH p.val) then w.val else s.rd (ADP_STAT_WIDTH p.val)) ∧
      partsOnly [.regs, .sent, .mg, .sv, .ad] s t)) ∧
  (∀ (p : Port) (q : Option Partner) (s : State), persDp (persOf s p.val) = true → groveDark s (portGrove p.val) = false →
    s.rd PST_PSSTAT_STATE < 3 →
    (∃ t, exec (.hpdChange p true q) s = .next t ∧ t.rd (ADP_DP_HPD p.val) = 1 ∧ t.rd (ADP_STAT_STATE p.val) = 1 ∧
      ∀ r, q = some r → mfind t.sv.att p.val = q) ∧
    (∃ t, exec (.hpdChange p false q) s = .next t ∧ t.rd (ADP_DP_HPD p.val) = 0 ∧ mfind t.sv.att p.val = none ∧
      (t.eg p.val).waiting = false ∧ (t.eg p.val).wait = 1)) ∧
  (∀ (p : Port) (l m : List DpTry) (s : State), persDp (persOf s p.val) = true → s.on (ADP_DP_HPD p.val) = true →
    groveDark s (portGrove p.val) = false → s.rd PST_PSSTAT_STATE < 3 →
    m = (l.filter fun x => x.lanes ≤ 2 * ((groupCells s p.val).filter fun c => !(s.lane c).faulted && !(altUsb s p.val && !isY c)).length &&
      [1, 2, 4].contains x.lanes && rateUsable s p.val x.rate) →
    (∀ g, m.find? (·.ok) = some g →
      ∃ t, exec (.dpLinkTraining p l) s = .next t ∧ t.rd (ADP_STAT_STATE p.val) = 2 ∧
        t.rd (ADP_STAT_RATE p.val) = g.rate % 2 ^ (ADP_STAT_RATE p.val).w ∧
        t.rd (ADP_STAT_WIDTH p.val) = g.lanes % 2 ^ (ADP_STAT_WIDTH p.val).w ∧ leafSet t (portGrove p.val) 17 ∧
        partsOnly [.regs, .mg, .ad, .pp] s t) ∧
    (m.find? (·.ok) = none →
      ∃ t, exec (.dpLinkTraining p l) s = .next t ∧ t.rd (ADP_STAT_STATE p.val) = 0 ∧ leafSet t (portGrove p.val) 22 ∧
        onlyWrites [ADP_DP_TRAINS p.val, ADP_DP_FALLBK p.val, ADP_STAT_STATE p.val, EVSTAT (portGrove p.val)] [.mg] s t)) ∧
  (∀ (p : Port) (s : State), 12 ≤ p.val → p46Stopped s = false → evtOf s (0x10 + (p.val - 12)) ≠ none → s.rd (ADP_STAT_PERS p.val) = 1 →
    (s.rd (ADP_STAT_STATE p.val) ≠ 1 → s.rd (ADP_STAT_STATE p.val) ≠ 6 →
      ∃ t, exec (.ejectPress p) s = .next t ∧ (t.adp p.val).attention = true ∧ leafSet t (portGrove p.val) 19 ∧
        onlyWrites [EVSTAT (portGrove p.val)] [.sent, .mg, .ad] s t) ∧
    (s.rd (ADP_STAT_STATE p.val) = 1 ∨ s.rd (ADP_STAT_STATE p.val) = 6 →
      ∃ t, exec (.ejectPress p) s = .next t ∧ (t.adp p.val).pressDue = true ∧ partsOnly [.ad] s t)) ∧
  (∀ (p : Port) (s : State), persOf s p.val = 1 → s.rd (ADP_STAT_STATE p.val) ≠ 4 → s.rd (ADP_STAT_STATE p.val) ≠ 5 →
    ∃ t, exec (.powerControllerOff p) s = .next t ∧ (t.adp p.val).slotOff = true ∧
      t.rd (ADP_STAT_STATE p.val) = (if s.rd (ADP_STAT_STATE p.val) = 0 then 5 else 4) ∧ onlyWrites [ADP_STAT_STATE p.val] [.ad] s t) ∧
  (∀ (p : Port) (s : State), s.rd (ADP_STAT_STATE p.val) = 4 →
    ∃ t, exec (.ejectLinkDisable p) s = .next t ∧ t.rd (ADP_STAT_STATE p.val) = 5 ∧ (t.adp p.val).ejected = true ∧
      mfind t.sv.att p.val = none ∧ leafSet t (portGrove p.val) 18) ∧
  (∀ (p : Port) (s : State), s.rd (ADP_STAT_STATE p.val) = 5 →
    ∃ t, exec (.powerControllerOn p) s = .next t ∧ (t.adp p.val).ejected = false ∧ (t.adp p.val).slotOff = false ∧
      (8 ≤ p.val → t.rd (ADP_STAT_STATE p.val) =
        (if retrainBlocked (s.setAdp p.val { (s.adp p.val) with ejected := false }) p.val then 0 else 1)) ∧
      partsOnly [.regs, .cn, .lc, .ad] s t) ∧
  (∀ (p : Port) (s : State), s.rd (ADP_STAT_PERS p.val) = 1 →
    s.rd (ADP_STAT_STATE p.val) = 2 ∨ s.rd (ADP_STAT_STATE p.val) = 3 ∨ s.rd (ADP_STAT_STATE p.val) = 6 →
    ∃ t, exec (.surpriseRemoval p) s = .next t ∧ (t.adp p.val).dpc = true ∧ (t.adp p.val).outstanding = [] ∧
      mfind t.sv.att p.val = none ∧ leafSet t (portGrove p.val) 20)

/-! ### The USB 2.0 tree and time (chapters 12 and 13) -/

/-- R328, R331, R342, R344: the upstream of UH0 becomes the candidate that R328 names, and a candidate passed over is passed by; a bus reset
is counted, takes the speed of the chirp and puts the management function back to its default state; EP1's halt ends, and configuration
and alternate setting are taken, with its toggle back at DATA0; what the function does not have is answered with STALL. R333 to R335: the
identity, attributes and class descriptor that each hub gives, and the Container ID that all give. -/
def Obligations.UsbUpstreamAndFunction : Prop :=
  (∀ s : State, ∃ t, exec .upstreamChange s = .next t ∧
    t.rd USB_STAT_UPSEL = crownCode (if treeRuns s then namedUpstream s else none) ∧ partsOnly [.regs, .sent, .mg, .ut] s t) ∧
  (∀ (c : Crown) (s : State), s.rd USB_STAT_UPSEL = c.val + 1 → candidate s (1 - c.val) = true → bit s.ut.passed (1 - c.val) = false →
    treeRuns s = true →
    ∃ t, exec (.passOver c) s = .next t ∧ bit t.ut.passed c.val = true ∧ t.rd USB_STAT_UPSEL = 2 - c.val ∧ leafSet t 19 0) ∧
  (∀ (h : Bool) (s : State), s.on USB_STAT_PULLUP = true →
    ∃ t, exec (.busReset h) s = .next t ∧ t.rd USB_STAT_SPEED = (if h then 2 else 1) ∧ leafSet t 19 1 ∧ t.rd USB_STAT_SUSP = 0 ∧
      t.rd USB_MGT_RESETS = satInc 255 (s.rd USB_MGT_RESETS) ∧ t.rd USB_MGT_CONF = 0 ∧ t.ut.toggle = false ∧
      (∀ n, n < 35 → t.rd (USB_PST_EN n) = 0) ∧ partsOnly [.regs, .sent, .mg, .ut] s t) ∧
  (∀ s : State, ∃ t, exec .clearFeatureEndpointHalt s = .next t ∧ t.rd USB_MGT_EP1HALT = 0 ∧ t.ut.toggle = false ∧
    onlyWrites [USB_MGT_EP1HALT] [.mg, .ut] s t) ∧
  (∀ (c : Byte) (s : State), c.toNat ≤ 1 →
    ∃ t, exec (.setConfiguration c) s = .next t ∧ t.rd USB_MGT_CONF = c.toNat ∧ t.rd USB_MGT_ALT = 0 ∧ t.ut.toggle = false ∧
      onlyWrites [USB_MGT_CONF, USB_MGT_ALT, USB_MGT_EP1HALT] [.ut] s t) ∧
  (∀ (c : Byte) (s : State), 1 < c.toNat → exec (.setConfiguration c) s = .next (s.emit .stall)) ∧
  (∀ (a : Byte) (s : State), s.on USB_MGT_CONF = true → a.toNat ≤ 3 →
    ∃ t, exec (.setInterface a) s = .next t ∧ t.rd USB_MGT_ALT = a.toNat ∧ t.ut.toggle = false ∧
      onlyWrites [USB_MGT_ALT, USB_MGT_EP1HALT] [.mg, .ut] s t) ∧
  (∀ (a : Byte) (s : State), s.on USB_MGT_CONF = false ∨ 3 < a.toNat → exec (.setInterface a) s = .next (s.emit .stall)) ∧
  (∀ (n : Fin 5) (s : State), ∃ d c h, treeDescriptor (.hub n) 1 s = some d ∧ treeDescriptor (.hub n) 2 s = some c ∧
    treeDescriptor (.hub n) 0x29 s = some h ∧ leAt d 2 2 = 0x0210 ∧ byteAt d 4 = 9 ∧ byteAt d 6 = (if highSpeed s then 2 else 0) ∧ byteAt d 7 = 64 ∧
    leAt d 8 2 = 0x4F5A ∧ leAt d 10 2 = (if n.val = 0 then 0x96A0 else 0x96A1) ∧ leAt d 12 2 = 0x0101 ∧ byteAt d 17 = 1 ∧
    byteAt c 7 = 0xE0 ∧ byteAt c 8 = 0 ∧ byteAt h 2 = 7 ∧ leAt h 3 2 = (if n.val = 0 then 0x000D else 0x0009) ∧ byteAt h 5 = 50 ∧ byteAt h 6 = 0 ∧
    byteAt h 7 = (match n.val with | 0 => 0xBE | 4 => 0xC0 | _ => 0x00)) ∧
  (∀ (f : TreeFunction) (s : State), ∃ b, treeDescriptor f 0x0F s = some b ∧
    b.drop 16 = leBytes 4 (s.rd (FUSE_UID_V 0)) ++ leBytes 4 (s.rd (FUSE_UID_V 1)) ++ [0x54, 0x49, 0x52, 0x4C, 0x4F, 0x53, 0x55, 0x48])

/-- R337 to R340, R344, R345: a device connects and goes on a powered tree port; a port reset enables a connected port at its speed, that of
an internal hub takes its ports to Powered-off, and that of the management function deconfigures it; overcurrent and babble end the port's
power and its enable with their leaves and counts; the PORT_POWER feature switches a port; the translator buffers of one port are cleared,
one or all. -/
def Obligations.TreePortsConnectAndFail : Prop :=
  (∀ (n : TreePort) (m : Bool) (s : State), (treeExternal s n.val).isSome = true → treeData s n.val = true →
    ∃ t, exec (.deviceConnect n (some m)) s = .next t ∧ t.rd (USB_PST_CONN n.val) = 1 ∧ t.rd (USB_PST_SPEED n.val) = b2n m ∧
      (t.tree n.val).cConn = true ∧ onlyWrites [USB_PST_CONN n.val, USB_PST_SPEED n.val] [.ut] s t) ∧
  (∀ (n : TreePort) (s : State), (treeExternal s n.val).isSome = true → treeData s n.val = true → s.on (USB_PST_CONN n.val) = true →
    ∃ t, exec (.deviceConnect n none) s = .next t ∧ t.rd (USB_PST_CONN n.val) = 0 ∧ t.rd (USB_PST_EN n.val) = 0 ∧
      (t.tree n.val).cConn = true ∧ partsOnly [.regs, .ut] s t) ∧
  (∀ (n : TreePort) (v : Fin 4) (s : State), 5 ≤ n.val → s.on (USB_PST_CONN n.val) = true → v.val ≠ 3 →
    ∃ t, exec (.portReset n v) s = .next t ∧ t.rd (USB_PST_EN n.val) = 1 ∧ t.rd (USB_PST_SUSP n.val) = 0 ∧
      t.rd (USB_PST_SPEED n.val) = v.val ∧ (t.tree n.val).cRst = true ∧
      onlyWrites [USB_PST_EN n.val, USB_PST_SUSP n.val, USB_PST_SPEED n.val] [.ut] s t) ∧
  (∀ (n : TreePort) (v : Fin 4) (s : State), n.val < 4 → s.on (USB_PST_CONN n.val) = true → v.val ≠ 3 →
    ∃ t, exec (.portReset n v) s = .next t ∧ t.rd (USB_PST_EN n.val) = 1 ∧ t.rd (USB_PST_SPEED n.val) = v.val ∧
      (∀ j, j < 7 → t.rd (USB_PST_EN (7 * (n.val + 1) + j)) = 0 ∧ t.rd (USB_PST_PWR (7 * (n.val + 1) + j)) = 0) ∧
      partsOnly [.regs, .sent, .ut] s t) ∧
  (∀ (v : Fin 4) (s : State), ∃ t, exec (.portReset 4 v) s = .next t ∧ t.rd USB_MGT_CONF = 0 ∧ t.rd USB_MGT_ADDR = 0 ∧
    t.ut.toggle = false ∧ mfind t.mg.bursts 1 = none ∧ partsOnly [.regs, .mg, .ut] s t) ∧
  (∀ (n : TreePort) (s : State), (treeExternal s n.val).isSome = true → 7 ≤ n.val → n.val ≤ 26 → s.on (USB_PST_PWR n.val) = true →
    ∃ t, exec (.overcurrent n) s = .next t ∧ t.rd (USB_PST_PWR n.val) = 0 ∧ t.rd (USB_PST_OC n.val) = 1 ∧ leafSet t 19 3 ∧
      t.rd (USB_PST_OCCNT n.val) = satInc 255 (s.rd (USB_PST_OCCNT n.val)) ∧ partsOnly [.regs, .sent, .mg, .ut] s t) ∧
  (∀ (n : TreePort) (s : State), s.on (USB_PST_EN n.val) = true →
    ∃ t, exec (.babble n) s = .next t ∧ t.rd (USB_PST_EN n.val) = 0 ∧ t.rd (USB_PST_BABBLE n.val) = satInc 255 (s.rd (USB_PST_BABBLE n.val)) ∧
      leafSet t 19 2 ∧ onlyWrites [USB_PST_EN n.val, USB_PST_BABBLE n.val, EVSTAT 19] [.mg, .ut] s t) ∧
  (∀ (n : TreePort) (p : Nat) (s : State), treeRuns s = true → treeInternal n.val = false → treeExternal s n.val = some p → 20 ≤ p →
    treeMayPower s n.val = true →
    (∃ t, exec (.portPower n true) s = .next t ∧ t.rd (USB_PST_PWR n.val) = 1 ∧ (t.tree n.val).on = true ∧ partsOnly [.regs, .sent, .ut] s t) ∧
    (∃ t, exec (.portPower n false) s = .next t ∧ t.rd (USB_PST_PWR n.val) = 0 ∧ (t.tree n.val).on = false ∧
      partsOnly [.regs, .sent, .ut] s t)) ∧
  (∀ (n : TreePort) (b : Byte) (s : State),
    (∃ t, exec (.clearTtBuffer n b) s = .next t ∧ b.toNat ∉ (t.tree n.val).tt ∧ partsOnly [.ut] s t) ∧
    (∃ t, exec (.resetTt n) s = .next t ∧ (t.tree n.val).tt = [] ∧ partsOnly [.ut] s t))

/-- R347 to R349: global suspend and its end are shown with their leaves; an enabled port is suspended by the host; a device's remote wake
is shown; a resume of either end under way ends in C_PORT_SUSPEND with the port no longer suspended. -/
def Obligations.UsbSuspendAndResume : Prop :=
  (∀ s : State, s.on USB_STAT_PULLUP = true → s.on USB_STAT_SUSP = false →
    ∃ t, exec .globalSuspend s = .next t ∧ t.rd USB_STAT_SUSP = 1 ∧ leafSet t 19 5 ∧ onlyWrites [USB_STAT_SUSP, EVSTAT 19] [.mg] s t) ∧
  (∀ s : State, s.on USB_STAT_SUSP = true →
    ∃ t, exec .globalSuspendEnd s = .next t ∧ t.rd USB_STAT_SUSP = 0 ∧ leafSet t 19 6 ∧ onlyWrites [USB_STAT_SUSP, EVSTAT 19] [.mg] s t) ∧
  (∀ (n : TreePort) (s : State), s.on (USB_PST_EN n.val) = true →
    ∃ t, exec (.portSuspend n) s = .next t ∧ t.rd (USB_PST_SUSP n.val) = 1 ∧ onlyWrites [USB_PST_SUSP n.val] [] s t) ∧
  (∀ (n : TreePort) (e : Bool) (s : State), s.on (USB_PST_CONN n.val) = true → s.on (USB_PST_SUSP n.val) = true →
    ∃ t, exec (.remoteWake n e) s = .next t ∧ t.rd (USB_PST_RWAKE n.val) = 1 ∧ (t.tree n.val).resumeDev = true ∧ leafSet t 19 4 ∧
      onlyWrites [USB_PST_RWAKE n.val, EVSTAT 19] [.sent, .mg, .ut] s t) ∧
  (∀ (n : TreePort) (s : State), s.on (USB_PST_SUSP n.val) = true →
    ∃ t, exec (.clearfeaturePortSuspend n) s = .next t ∧ (t.tree n.val).resumeHost = true ∧ partsOnly [.ut] s t) ∧
  (∀ (n : TreePort) (s : State), (s.tree n.val).resumeHost = true ∨ (s.tree n.val).resumeDev = true →
    ∃ t, exec (.resumeEnd n) s = .next t ∧ t.rd (USB_PST_SUSP n.val) = 0 ∧ (t.tree n.val).cSusp = true ∧
      (t.tree n.val).resumeHost = false ∧ (t.tree n.val).resumeDev = false ∧
      onlyWrites [USB_PST_SUSP n.val, USB_PST_RWAKE n.val, EVSTAT 19] [.mg, .ut] s t)

/-- R354, R375 to R377: a base whose NS carries counts a wrap and sets its leaf; a compare drives the pin active, sets its leaf and advances
CMP by the period; a raster compare does so every DIV-th frame; the pulse ends; a capture records base, raster and edge with VALID, or sets
OVF where the last has not been read. R365 to R367, R369, R370: a time frame is sent as its command says, with an egress report of its stamp
where the port has a Time tunnel, or corrected; link time starts an exchange every millisecond at the upstream end, is answered by the
downstream end, gathers the four times, gives up after its limit, and is complete with the fourth. -/
def Obligations.TimeBasesFramesAndEvents : Prop :=
  (∀ (n : TimeBase) (s : State), tbRunning s n.val = true → baseCarries s n.val = true →
    ∃ t, exec (.wrap n) s = .next t ∧ t.rd (TIM_TBWRAP_WRAPS n.val) = (s.rd (TIM_TBWRAP_WRAPS n.val) + 1) % 2 ^ 32 ∧ leafSet t 20 n.val ∧
      mget 0 t.tb n.val = (mget 0 s.tb n.val + incOf s n.val) % 2 ^ 64 ∧ onlyWrites [TIM_TBWRAP_WRAPS n.val, EVSTAT 20] [.mg, .tb] s t) ∧
  (∀ (e : EvtPin) (s : State), comparing s e.val = true → compareReached s e.val = true →
    ∃ t, exec (.compare e) s = .next t ∧ (t.evt e.val).active = true ∧ leafSet t 20 (8 + e.val) ∧
      t.rd (TIM_EVCMP_CMP e.val) = (s.rd (TIM_EVCMP_CMP e.val) + s.rd (TIM_EVPER_PERIOD e.val)) % 2 ^ 32 ∧
      onlyWrites [TIM_EVCMP_CMP e.val, EVSTAT 20] [.sent, .mg, .bt, .ev] s t) ∧
  (∀ (e : EvtPin) (s : State), evtMode s e.val = 3 ∨ evtMode s e.val = 4 → s.rd (TIM_EVRAS_LINE e.val) < s.rd SCHED_LTOT_TOTAL →
    rasterReached s e.val = true → (s.evt e.val).frames % s.rd (TIM_EVCTL_DIV e.val) = 0 →
    ∃ t, exec (.rasterCompare e) s = .next t ∧ (t.evt e.val).active = true ∧ leafSet t 20 (8 + e.val) ∧
      onlyWrites [EVSTAT 20] [.sent, .mg, .bt, .ev] s t) ∧
  (∀ (e : EvtPin) (s : State), evtMode s e.val = 1 ∨ evtMode s e.val = 3 → (s.evt e.val).active = true →
    ∃ t, exec (.pulseEnd e) s = .next t ∧ (t.evt e.val).active = false ∧ partsOnly [.sent, .bt, .ev] s t) ∧
  (∀ (e : EvtPin) (s : State), evtMode s e.val = 5 ∨ evtMode s e.val = 7 →
    ∃ t, exec (.capture e true) s = .next t ∧
      (s.on (TIM_EVCST_VALID e.val) = true → t.rd (TIM_EVCST_OVF e.val) = 1 ∧ leafSet t 20 24 ∧
        t.rd (TIM_EVCNS_NS e.val) = s.rd (TIM_EVCNS_NS e.val)) ∧
      (s.on (TIM_EVCST_VALID e.val) = false → t.rd (TIM_EVCST_VALID e.val) = 1 ∧ leafSet t 20 (16 + e.val) ∧
        t.rd (TIM_EVCST_EDGE e.val) = 1 ∧
        t.rd (TIM_EVCNS_NS e.val) = mget 0 s.tb (s.rd (TIM_EVCTL_TBSEL e.val)) / 2 ^ 32 % 2 ^ 32) ∧ partsOnly [.regs, .mg, .sc] s t) ∧
  (∀ (p : Port) (h f : Bytes) (s : State), byteAt h 0 = 0x10 → exec (.timeSend p h f) s = .next (s.emit (.unit p.val "frame" f))) ∧
  (∀ (p : Port) (h f : Bytes) (s : State), byteAt h 0 = 0x11 →
    ((∃ n, ((List.range 16).findSome? fun i => upTunnel s p.val 4 i) = some n) →
      ∃ t, exec (.timeSendReport p h f) s = .next t ∧ t.sent = .unit p.val "frame" f :: s.sent ∧ partsOnly [.sent, .fb] s t) ∧
    (((List.range 16).findSome? fun i => upTunnel s p.val 4 i) = none →
      exec (.timeSendReport p h f) s = .next (s.emit (.unit p.val "frame" f)))) ∧
  (∀ (p : Port) (h f g : Bytes) (s : State), byteAt h 0 = 0x12 → corrected (stampOut s p.val (cmdBase h)) h f = some g →
    exec (.timeSendCorrection p h f) s = .next (s.emit (.unit p.val "frame" g))) ∧
  (∀ (p : Port) (h f : Bytes) (s : State), byteAt h 0 = 0x12 → corrected (stampOut s p.val (cmdBase h)) h f = none →
    ∃ t, exec (.timeSendCorrection p h f) s = .next t ∧ t.sent = .unit p.val "frame" f :: s.sent ∧ partsOnly [.sent, .fb] s t) ∧
  (∀ (p : CanPort) (s : State), carriesTime s p.val = true → isUpEnd s p.val = true →
    ∃ t x, exec (.linkTimeTsync p) s = .next t ∧ (t.can p.val).xch = some x ∧ x.seq = ((s.can p.val).seqTx + 1) % 64 ∧
      t.sent = .can p.val "TSYNC" [x.seq, linkBase s p.val] :: s.sent ∧ partsOnly [.sent, .cn] s t) ∧
  (∀ (p : CanPort) (q : Fin 64) (b : TimeBase) (s : State), carriesTime s p.val = true → isUpEnd s p.val = false →
    ∃ t x, exec (.tsync p q b) s = .next t ∧ (t.can p.val).xch = some x ∧ x.seq = q.val ∧ (mfind x.times 2).isSome = true ∧
      (mfind x.times 3).isSome = true ∧ (∃ a c, Out.can p.val "TRX" [q.val, linkBase s p.val, a, c] ∈ t.sent) ∧ partsOnly [.sent, .cn] s t) ∧
  (∀ (p : CanPort) (q : Fin 64) (b : TimeBase) (ns : BitVec 22) (fr : BitVec 8) (x : Xch) (s : State), carriesTime s p.val = true →
    (s.can p.val).xch = some x → x.seq = q.val → x.times = [] →
    (∃ t y, exec (.ttx p ⟨q, b⟩ ns fr) s = .next t ∧ (t.can p.val).xch = some y ∧
      mfind y.times (if isUpEnd s p.val then 3 else 1) = some (ns.toNat * 256 + fr.toNat) ∧ partsOnly [.cn] s t) ∧
    (∃ t y, exec (.trx p ⟨q, b⟩ ns fr) s = .next t ∧ (t.can p.val).xch = some y ∧
      mfind y.times (if isUpEnd s p.val then 2 else 4) = some (ns.toNat * 256 + fr.toNat) ∧ partsOnly [.cn] s t)) ∧
  (∀ (p : CanPort) (q : Fin 64) (b : TimeBase) (ns : BitVec 22) (fr : BitVec 8) (x : Xch) (s : State), carriesTime s p.val = true →
    (s.can p.val).xch = some x → x.seq = q.val → isUpEnd s p.val = true → (mfind x.times 1).isSome = true →
    (mfind x.times 2).isSome = true → (mfind x.times 4).isSome = true →
    ∃ t, exec (.ttx p ⟨q, b⟩ ns fr) s = .next t ∧ (t.can p.val).xch = none ∧ (t.can p.val).missed = 0 ∧
      t.rd (TIM_LNK_SEQ p.val) = q.val ∧ leafSet t 20 5) ∧
  (∀ (p : CanPort) (s : State), (s.can p.val).xch ≠ none →
    ∃ t, exec (.exchangeAbandon p) s = .next t ∧ (t.can p.val).xch = none ∧ (t.can p.val).good = 0 ∧
      t.rd (TIM_LNK_MISSED p.val) = satInc (2 ^ (TIM_LNK_MISSED p.val).w - 1) (s.rd (TIM_LNK_MISSED p.val)) ∧ partsOnly [.regs, .mg, .cn] s t)

/-! ### Faults and reset (chapters 14 and 15) -/

/-- R385, R401: a report of a unit that exists, with no other within 50 microseconds, is logged as the next entry with its kind, unit and
detector, counted, and sets FAULT; R394, R396: a self-test that fails withdraws GF, one at a reset that passes takes the grove back; a mismatch
or a watchdog takes FWRDY down and restarts the cores with its cause, or stops an engine of one core; R19: REF fails into holdover, the vault
freezes with its clock, any other source is replaced by the standby PLL, and a second failure is a cold reset; R383: a chip-level fault is a
warm reset by the fault sequencer. -/
def Obligations.FaultReportsAreLoggedAndHandled : Prop :=
  (∀ (k : Fin 16) (u n d : Byte) (s : State), k = 5 ∨ k = 9 → reportable k.val u.toNat s = true → recentReports s = [] →
    ∃ t, exec (.faultReport k u n d) s = .next t ∧ (k = 5 → t.rd RST_FLTSTAT_GFOK = 0) ∧
      t.rd (RST_FLTLOG0_KIND (s.rd RST_FLTPTR_NEXT)) = k.val ∧
      t.rd (RST_FLTLOG0_UNIT (s.rd RST_FLTPTR_NEXT)) = u.toNat ∧ t.rd (RST_FLTLOG0_DET (s.rd RST_FLTPTR_NEXT)) = d.toNat ∧
      t.rd RST_FLTPTR_NEXT = (s.rd RST_FLTPTR_NEXT + 1) % 8 ∧ t.rd SYS_GUARD_FAULTS = satInc 255 (s.rd SYS_GUARD_FAULTS) ∧ leafSet t 25 6) ∧
  (∀ s : State, reportable 5 8 s = true → recentReports s = [] → s.bt.retest = [] →
    ∃ t, exec (.gfSelftest false) s = .next t ∧ t.rd RST_FLTSTAT_GFOK = 0 ∧ leafSet t 25 6) ∧
  (∀ s : State, s.bt.retest = [] → exec (.gfSelftest true) s = .next s) ∧
  (∀ (g : Grove) (l : List Nat) (s : State), s.bt.retest = g.val :: l → 4 ≤ s.bt.released →
    ∃ t, exec (.gfSelftest true) s = .next t ∧ t.bt.retest = l ∧ bit (t.rd RST_FLTSTAT_FENCED) g.val = false ∧
      onlyWrites [RST_FLTSTAT_FENCED, RST_FLTSTAT_GFFOR, RST_FLTSTAT_GFOK] [.bt] s t) ∧
  (∀ s : State, engineRuns s = true → recentReports s = [] →
    (s.rd RST_FLTSTAT_MGT = 0 → ∃ t, exec .lockstepMismatch s = .next t ∧ t.rd SYS_STAGE_FWRDY = 0 ∧ t.ft.restarting = true ∧
      t.rd RST_CAUSE_LOCKSTEP = 1 ∧ leafSet t 25 9 ∧ leafSet t 25 6) ∧
    (∃ t, exec .managementWatchdog s = .next t ∧ t.rd SYS_STAGE_FWRDY = 0 ∧ t.rd RST_CAUSE_MWDOG = 1 ∧ leafSet t 25 9 ∧
      (if s.rd RST_FLTSTAT_MGT = 0 then t.ft.restarting = true else t.rd RST_FLTSTAT_MGT = 3))) ∧
  (∀ s : State, s.rd RST_FLTSTAT_MGT ≠ 0 → exec .lockstepMismatch s = .next s) ∧
  (∀ s : State, recentReports s = [] → s.ft.refFailed = false → s.ft.pll = none →
    (∃ t, exec (.clockFailure .ref) s = .next t ∧ t.ft.refFailed = true ∧ t.ft.pll = none ∧ leafSet t 25 6 ∧
      (allRated s = true → t.rd SYS_GUARD_EXC = 1)) ∧
    (∃ t, exec (.clockFailure .key) s = .next t ∧ t.rd KEY_VAULT_FROZEN = 1 ∧ leafSet t 25 6 ∧
      (s.on KEY_VAULT_FROZEN = false → leafSet t 21 4))) ∧
  (∀ (k : Clock) (u : Nat) (s : State),
    (k = .sys ∧ u = 2 ∨ k = .fab ∧ u = 3 ∨ k = .mem ∧ u = 4 ∨ k = .time ∧ u = 5 ∨ k = .usb ∧ u = 6 ∨ k = .standby ∧ u = 8 ∨
      ∃ d : Pipe, k = .pix d ∧ u = 16 + d.val ∧ d.val < pipeCount (variant s)) →
    recentReports s = [] → s.ft.refFailed = false → s.ft.pll = none →
    ∃ t, exec (.clockFailure k) s = .next t ∧ t.ft.pll = some u ∧ leafSet t 25 6 ∧ (k = .time → leafSet t 20 7)) ∧
  (∀ (k : Clock) (s : State), (∀ d : Pipe, k = .pix d → d.val < pipeCount (variant s)) → recentReports s = [] →
    s.ft.refFailed = true ∨ s.ft.pll ≠ none → ∃ t, exec (.clockFailure k) s = .next t ∧ t.rd RST_CAUSE_SEQCOLD = 1) ∧
  (∀ (u n d : Byte) (s : State), recentReports s = [] →
    ∃ t, exec (.faultReport 11 u n d) s = .next t ∧ t.rd RST_CAUSE_SEQWARM = 1)

/-- R391, R394: a fault of a grove for which GF is fallow and passed its self-test is a takeover: the grove is fenced, GF stands in for it and
has its grant, and the fabric fences its positions; R145, R393: GF's positions and lane cells are attached by the phase 0 that follows, or at
the latest as the takeover ends; the last replay source that drains ends it, which is a failover with its time. -/
def Obligations.TakeoverAndFailover : Prop :=
  (∀ (g : Grove) (s : State), g.val < 8 → reportable 3 g.val s = true → recentReports s = [] → gfFor s = none →
    s.on RST_FLTSTAT_GFOK = true →
    (∃ t, exec (.progressWatchdog g) s = .next t ∧ t.rd RST_FLTSTAT_GFFOR = g.val ∧ bit (t.rd RST_FLTSTAT_FENCED) g.val = true ∧
      t.rd RST_FLTSTAT_SEQ = 4 ∧ bit (t.rd FAB_STATUS_FENCE) (2 * g.val) = true ∧ bit (t.rd FAB_STATUS_FENCE) (2 * g.val + 1) = true ∧
      t.rd (PST_GRANT_MW 8) = s.rd (PST_GRANT_MW g.val) ∧ t.rd (PST_GRANT_MW g.val) = 0 ∧ t.ft.start = s.clock ∧
      mfind t.ckp g.val = none ∧ leafSet t 25 6 ∧ partsOnly [.regs, .mg, .ld, .ckp, .kv, .ft] s t) ∧
    (∃ t, exec (.arbiterWatchdog g) s = .next t ∧ t.rd RST_FLTSTAT_GFFOR = g.val ∧ bit (t.rd RST_FLTSTAT_FENCED) g.val = true ∧
      t.rd RST_FLTSTAT_SEQ = 4 ∧ bit (t.rd FAB_STATUS_FENCE) (2 * g.val) = true ∧ bit (t.rd FAB_STATUS_FENCE) (2 * g.val + 1) = true ∧
      leafSet t 25 6 ∧ partsOnly [.regs, .mg, .ld, .ckp, .kv, .ft] s t)) ∧
  (∀ (g : Grove) (a r o : BitVec 20) (s : State), g.val < 8 → awaitsRemap s = some g.val → s.rd FAB_SLOT_COUNT % 20 = 0 →
    exec (.fabricSlot a r o) s = .next (agentWork (slotStep a r o (remapGrove g.val s)))) ∧
  (∀ (g : Nat) (s : State), g < 8 → (remapGrove g s).rd (FAB_REMAP_PHYS (2 * g)) = 16 ∧ (remapGrove g s).rd (FAB_REMAP_PHYS (2 * g + 1)) = 17 ∧
    bit ((remapGrove g s).rd FAB_STATUS_FENCE) (2 * g) = false ∧ bit ((remapGrove g s).rd FAB_STATUS_FENCE) (2 * g + 1) = false ∧
    (∀ c, c < 4 → (remapGrove g s).rd (LC_STAT_OWNER (4 * g + c)) = 8) ∧ (remapGrove g s).rd RST_FLTSTAT_SEQ = 6 ∧
    leafSet (remapGrove g s) 13 3) ∧
  (∀ s : State, s.rd RST_FLTSTAT_SEQ ≠ 0 →
    ∃ t, exec .failover s = .next t ∧ t.rd RST_FLTSTAT_SEQ = 0 ∧ leafSet t 25 7 ∧
      t.rd RST_FLTTIME_LAST = min 65535 ((s.clock - s.ft.start) / 1000) ∧
      t.rd RST_FLTTIME_MAX = max (min 65535 ((s.clock - s.ft.start) / 1000)) (s.rd RST_FLTTIME_MAX) ∧
      (awaitsRemap s = none → onlyWrites [RST_FLTSTAT_SEQ, RST_FLTTIME_LAST, RST_FLTTIME_MAX, EVSTAT 25] [.mg] s t)) ∧
  (∀ s : State, s.rd RST_FLTSTAT_SEQ = 0 → exec .failover s = .next s)

/-- R386: a grove that is not fenced captures the state whose place it holds, and the capture becomes its checkpoint when it is sealed. R261: a
cell that fails its self-check enters FAULT; the pass of the last cell of the port that checked itself takes the port down, an earlier one
waits. R490: re-masking passes on to the next slot, and bits that flipped are a chip-level fault (R383). -/
def Obligations.CheckpointsAndSelfChecks : Prop :=
  (∀ (g : Grove) (h : Nat) (s : State), ckGrove s g.val = some h → (g.val = 8 → awaitsRemap s = none) →
    bit (s.rd RST_FLTSTAT_FENCED) g.val = false →
    ∃ t, exec (.checkpoint g) s = .next t ∧ (mfind t.ckp h).isSome = true ∧ t.ck = s.ck ∧ partsOnly [.fb, .lc, .ckp] s t) ∧
  (∀ (g : Grove) (h : Nat) (k : Ckpt) (s : State), ckGrove s g.val = some h → (g.val = 8 → awaitsRemap s = none) →
    bit (s.rd RST_FLTSTAT_FENCED) g.val = false → mfind s.ckp h = some k →
    ∃ t, exec (.checkpointComplete g) s = .next t ∧ mfind t.ck h = some k ∧ mfind t.ckp h = none ∧
      partsOnly [.regs, .sent, .fb, .cr, .cn, .lc, .ck, .ckp] s t) ∧
  (∀ (g : Grove) (s : State), bit (s.rd RST_FLTSTAT_FENCED) g.val = true →
    exec (.checkpoint g) s = .next s ∧ exec (.checkpointComplete g) s = .next s) ∧
  (∀ (c : LaneCell) (s : State), s.rd (LC_STAT_STATE c.val) = 8 → reportable 1 c.val s = true →
    ∃ t, exec (.selfchkComplete c false) s = .next t ∧ (t.lane c.val).faulted = true ∧ t.rd (LC_STAT_STATE c.val) = 9) ∧
  (∀ (c : LaneCell) (s : State), s.rd (LC_STAT_STATE c.val) = 8 →
    (∀ d ∈ groupCells s (servedPort s c.val), d ≠ c.val → s.rd (LC_STAT_STATE d) ≠ 8 ∨ (s.lane d).checked ≠ none) →
    ∃ t, exec (.selfchkComplete c true) s = .next t ∧ mfind t.sv.att (servedPort s c.val) = none ∧
      (t.eg (servedPort s c.val)).waiting = true) ∧
  (∀ (c : LaneCell) (d : Nat) (s : State), s.rd (LC_STAT_STATE c.val) = 8 → d ∈ groupCells s (servedPort s c.val) → d ≠ c.val →
    s.rd (LC_STAT_STATE d) = 8 → (s.lane d).checked = none →
    ∃ t, exec (.selfchkComplete c true) s = .next t ∧ (t.lane c.val).checked = some true ∧ onlyWrites [LC_RTR_CONSEC c.val] [.lc] s t) ∧
  (∀ (c : LaneCell) (b : Bool) (s : State), s.rd (LC_STAT_STATE c.val) ≠ 8 → exec (.selfchkComplete c b) s = .next s) ∧
  (∀ s : State, 2 ≤ s.bt.released → s.on KEY_VAULT_FROZEN = false →
    (∃ t, exec (.remask false) s = .next t ∧ t.kv.next = (s.kv.next + 1) % 32 ∧ t.kv.slots = s.kv.slots ∧
      onlyWrites [KEY_VAULT_REMASK] [.kv] s t) ∧
    (recentReports s = [] → ∃ t, exec (.remask true) s = .next t ∧ t.rd RST_CAUSE_SEQWARM = 1))

/-- R10, R416, R417, R424: a cold reset (RESET_N, a core brown-out, the thermal trip) restores every field of port, grove, warm and cold reach
to its reset value; a warm reset (WARM_N) those of port, grove and warm reach, but the state of cells in FAULT; each keeps what lies beyond its
reach, but for its own cause bit, which it sets, FWPOL, and what a takeover shows; their source stays asserted, and no domain but AON is
released. R411: a warm reset during a fuse load waits for its end. -/
def Obligations.ResetsRestoreTheirReach : Prop :=
  (∀ s : State, ∃ t, exec .resetN s = .next t ∧ t.rd RST_CAUSE_RESETN = 1 ∧ ResetSrc.resetN ∈ t.bt.srcs ∧ t.bt.released ≤ 1 ∧
    2 ≤ t.bt.reach ∧ t.flash = s.flash ∧ t.otp = s.otp ∧ ∀ f r i j, decodeKey f.key = some (r, i, j, f) →
      (f.reach = .P ∨ f.reach = .G ∨ f.reach = .W ∨ f.reach = .C → t.rd f = f.reset % 2 ^ f.w) ∧
      (f.reach = .POR → f.key ≠ RST_CAUSE_RESETN.key → f.key ≠ PD_GLOB_FWPOL.key → t.rd f = s.rd f)) ∧
  (∀ s : State, s.bt.coreEn = true → ∃ t, exec .brownOut s = .next t ∧ t.rd RST_CAUSE_BOR = 1 ∧ ResetSrc.brownOut ∈ t.bt.srcs ∧
    t.bt.released ≤ 1 ∧ ∀ f r i j, decodeKey f.key = some (r, i, j, f) →
      (f.reach = .P ∨ f.reach = .G ∨ f.reach = .W ∨ f.reach = .C → t.rd f = f.reset % 2 ^ f.w)) ∧
  (∀ s : State, s.bt.coreEn = false → exec .brownOut s = .next s) ∧
  (∀ s : State, ¬(s.bt.fusing = true ∧ 1 ≤ s.bt.released ∧ ∀ x ∈ s.bt.srcs, x = .warmN) →
    ∃ t, exec .warmN s = .next t ∧ t.rd RST_CAUSE_WARMN = 1 ∧ ResetSrc.warmN ∈ t.bt.srcs ∧ t.bt.released ≤ 1 ∧
      ∀ f r i j, decodeKey f.key = some (r, i, j, f) →
        (f.reach = .P ∨ f.reach = .G ∨ f.reach = .W → (∀ c, f.key ≠ (LC_STAT_STATE c).key) → t.rd f = f.reset % 2 ^ f.w) ∧
        (f.reach = .C ∨ f.reach = .POR → f.key ≠ RST_CAUSE_WARMN.key → f.key ≠ PD_GLOB_FWPOL.key →
          f.key ≠ RST_FLTSTAT_SEQ.key → f.key ≠ RST_FLTSTAT_MGT.key → t.rd f = s.rd f)) ∧
  (∀ s : State, s.bt.fusing = true → 1 ≤ s.bt.released → (∀ x ∈ s.bt.srcs, x = .warmN) →
    ∃ t, exec .warmN s = .next t ∧ 6 ∈ t.bt.later ∧ ResetSrc.warmN ∈ t.bt.srcs ∧ t.bt.released = s.bt.released ∧
      onlyWrites [RST_CAUSE_WARMN] [.bt] s t ∧ t.rd RST_CAUSE_WARMN = 1) ∧
  (∀ s : State, ∃ t, exec .por s = .next t ∧ t.rd RST_CAUSE_POR = 1 ∧ t.bt.released = 0 ∧ ResetSrc.por ∈ t.bt.srcs ∧
    t.flash = s.flash ∧ t.otp = s.otp ∧ ∀ f : Fld, f.key ≠ RST_CAUSE_POR.key → t.rd f = f.reset % 2 ^ f.w) ∧
  (∀ s : State, ∃ t, exec .thermalTrip s = .next t ∧ t.rd RST_CAUSE_THERM = 1 ∧ ResetSrc.thermal ∈ t.bt.srcs ∧ t.bt.released ≤ 1 ∧
    ∀ f r i j, decodeKey f.key = some (r, i, j, f) →
      (f.reach = .P ∨ f.reach = .G ∨ f.reach = .W ∨ f.reach = .C → t.rd f = f.reset % 2 ^ f.w)) ∧
  (∀ (c : Crown) (s : State), isDown s c.val = false → s.rd (CAN_STAT_STATE c.val) = 5 →
    ∃ t, exec .routerReset s = .next t ∧ t.rd RST_CAUSE_HOST = 1)

/-- R404, R406, R407, R410, R412, R419, R420, R515: a source releases; the domains follow one by one where nothing holds the next up; SYS
waits for the power gate; REF lock, CORE_PG, LPDDR training and the gate are taken as they come; CORE_EN is dropped and driven again; a fuse
load whose CRC matches makes the shadow valid, and one that does not is tried again, the third time being the fuse fault; the firmware copy
that passes raises FWRDY, and with none FWFAIL is set. R396: firmware whose cores restarted is up again, and with no core the engine stands. -/
def Obligations.ReleaseFusesAndFirmware : Prop :=
  (∀ (x : ResetSrc) (s : State), x ∈ s.bt.srcs → ∃ t, exec (.resetRelease x) s = .next t ∧ x ∉ t.bt.srcs ∧
    (x = .por → t.bt.released = 1 ∧ t.bt.fusing = true)) ∧
  (∀ (x : ResetSrc) (s : State), x ∉ s.bt.srcs → exec (.resetRelease x) s = .next s) ∧
  (∀ s : State, s.rd PST_PSSTAT_STATE < 3 → s.bt.srcs = [] → 1 ≤ s.bt.released → s.bt.released < 18 →
    domainWaits (s.bt.released + 1) s = false →
    ∃ t, exec .domainRelease s = .next t ∧ t.bt.released = s.bt.released + 1) ∧
  (∀ s : State, s.rd PST_PSSTAT_STATE < 3 → s.bt.srcs = [] → s.bt.released = 3 → s.bt.gate = false → s.on RST_BOOT_WAITPWR = false →
    ∃ t, exec .domainRelease s = .next t ∧ t.bt = s.bt ∧ t.rd RST_BOOT_WAITPWR = 1 ∧ leafSet t 24 3 ∧
      onlyWrites [RST_BOOT_WAITPWR, EVSTAT 24] [.mg] s t) ∧
  (∀ s : State, ∃ t, exec .refLock s = .next t ∧ t.bt.refLock = true ∧ partsOnly [.bt] s t) ∧
  (∀ s : State, anyFeed s = true →
    ∃ t, exec .powerGateOpen s = .next t ∧ t.bt.gate = true ∧ t.rd RST_BOOT_WAITPWR = 0 ∧ onlyWrites [RST_BOOT_WAITPWR] [.bt] s t) ∧
  (∀ s : State, s.bt.coreEn = true → coreOff s = false →
    (∃ t, exec (.corePg true) s = .next t ∧ t.bt.corePg = true ∧ partsOnly [.bt] s t) ∧
    (s.bt.corePg = true → ∃ t, exec (.corePg false) s = .next t ∧ t.rd RST_CAUSE_BOR = 1 ∧ ResetSrc.brownOut ∈ t.bt.srcs)) ∧
  (∀ s : State, s.bt.coreEn = true → s.bt.corePg = false →
    ∃ t, exec .corePgTimeout s = .next t ∧ t.bt.coreEn = false ∧ t.sent = .pin "CORE_EN" 0 false :: s.sent ∧ partsOnly [.sent, .bt] s t) ∧
  (∀ s : State, s.bt.coreEn = false → coreOff s = false → 1 ≤ s.bt.released →
    ∃ t, exec .coreEnRetry s = .next t ∧ t.bt.coreEn = true ∧ t.sent = .pin "CORE_EN" 0 true :: s.sent ∧ partsOnly [.sent, .bt] s t) ∧
  (∀ s : State, 6 ≤ s.bt.released → ∃ t, exec .lpddrTrainingComplete s = .next t ∧ t.bt.trained = true ∧
    onlyWrites [RST_BOOT_SAPDONE, RST_BOOT_SAPTIME] [.bt] s t) ∧
  (∀ (l : List FuseErr) (s : State), s.bt.fusing = true → 1 ≤ s.bt.released → (∀ x ∈ s.bt.srcs, x = .warmN) →
    (fuseCrc s l = fuseWord s l 0x200 → ∃ t, exec (.fuseLoadAttempt l) s = .next t ∧ t.rd FUSE_LDST_SHADOW_VALID = 1 ∧
      t.bt.fusing = false ∧ t.rd FUSE_VAR_V = fuseWord s l 0x10 % 2 ^ FUSE_VAR_V.w) ∧
    (fuseCrc s l ≠ fuseWord s l 0x200 → s.rd FUSE_LDST_ATTEMPT < 2 → ∃ t, exec (.fuseLoadAttempt l) s = .next t ∧
      t.rd FUSE_LDST_ATTEMPT = s.rd FUSE_LDST_ATTEMPT + 1 ∧ t.bt = s.bt ∧ leafSet t 23 0 ∧
      onlyWrites [FUSE_LDST_CRCLO, FUSE_LDST_ATTEMPT, EVSTAT 23] [.mg] s t) ∧
    (fuseCrc s l ≠ fuseWord s l 0x200 → s.rd FUSE_LDST_ATTEMPT = 2 → s.bt.later = [] → ∃ t, exec (.fuseLoadAttempt l) s = .next t ∧
      t.rd SYS_STAGE_FUSEFLT = 1 ∧ t.bt.fusing = false ∧ leafSet t 23 1)) ∧
  (∀ (z : Option Nat) (s : State), 4 ≤ s.bt.released → s.on SYS_STAGE_FWRDY = false → s.on RST_BOOT_FWFAIL = false →
    s.rd RST_FLTSTAT_MGT ≠ 3 → s.mg.held = [] →
    (firmwarePasses s false = true ∨ firmwarePasses s true = true →
      ∃ t, exec (.firmwareBoot z) s = .next t ∧ t.rd SYS_STAGE_FWRDY = 1 ∧ t.rd PD_GLOB_FWPOL = 1 ∧ leafSet t 25 5) ∧
    (firmwarePasses s false = false → firmwarePasses s true = false →
      ∃ t, exec (.firmwareBoot z) s = .next t ∧ t.rd RST_BOOT_FWFAIL = 1 ∧ t.rd SYS_STAGE_FWRDY = 0 ∧ leafSet t 24 2)) ∧
  (∀ s : State, s.ft.restarting = true → s.on PD_GLOB_FWPOL = true → s.mg.held = [] →
    ∃ t, exec (.mgmtRestartComplete true true) s = .next t ∧ t.rd SYS_STAGE_FWRDY = 1 ∧ t.rd RST_FLTSTAT_MGT = 0 ∧ t.ft.restarting = false) ∧
  (∀ s : State, s.ft.restarting = true → s.mg.held = [] →
    ∃ t, exec (.mgmtRestartComplete false false) s = .next t ∧ t.rd RST_FLTSTAT_MGT = 3 ∧ t.ft.restarting = false ∧
      onlyWrites [RST_FLTSTAT_MGT] [.ft] s t)

/-! ### Power states (chapter 16) -/

/-- R432: with AUTO set and nothing pending the firmware asks for Drowse from Active. R433: an ACCEPT leaves the others to wait for; a participant
whose state calls for a REFUSE refuses with its reason, whatever it answers; a REFUSE ends the request with its WHO and REASON, and the vault
takes up what it held off; a DEFER is counted, also in place of an ACCEPT that the state of the participant forbids (its milliseconds are then
the model's free value, log entry 42), and the participant asked again at its expiry, but for a sum above 2 s, which is REFUSE 0x8; a silent
participant is REFUSE 0x7, and the fault sequencer refuses with 0x5 while a takeover runs. -/
def Obligations.PowerStateRequestsAreAnswered : Prop :=
  (∀ s : State, s.on PST_PSCTL_AUTO = true → s.on SYS_STAGE_FWRDY = true → s.rd PST_PSSTAT_STATE = 0 → s.rd PST_PSSTAT_PHASE = 0 →
    quiet s = true → ∃ t, exec .autoDrowse s = .next t ∧ t.rd PST_PSSTAT_PHASE = 1 ∧ t.ps.target = 1 ∧ t.ps.waiting = participants s ∧
      onlyWrites [PST_PSSTAT_PHASE, PST_PSSTAT_DEFERS] [.sent, .ps] s t) ∧
  (∀ s : State, s.on PST_PSCTL_AUTO = false → exec .autoDrowse s = .next s) ∧
  (∀ (w : Participant) (s : State), s.rd PST_PSSTAT_PHASE = 1 → w.val ∈ s.ps.waiting → w.val ∉ s.ps.deferring → mustRefuse s w.val = none →
    (mustDefer s w.val = false → ∃ t, exec (.participantAnswer w .accept) s = .next t ∧ w.val ∉ t.ps.waiting ∧
      (∀ v, v ≠ w.val → (v ∈ t.ps.waiting ↔ v ∈ s.ps.waiting)) ∧ partsOnly [.ps] s t) ∧
    (mustDefer s w.val = true → s.ps.deferSum ≤ 1745 → ∃ t n, exec (.participantAnswer w .accept) s = .next t ∧ 1 ≤ n ∧ n ≤ 255 ∧
      w.val ∈ t.ps.deferring ∧ t.ps.deferSum = s.ps.deferSum + n ∧ onlyWrites [PST_PSSTAT_DEFERS] [.freeCtr, .ps] s t) ∧
    (∀ r, ∃ u, exec (.participantAnswer w (.refuse r)) s = .next (nextKeys u) ∧ u.rd PST_PSSTAT_WHO = w.val ∧ u.rd PST_PSSTAT_REASON = r % 16 ∧
      u.rd PST_PSSTAT_PHASE = 0 ∧ u.rd PST_PSCTL_GO = 0 ∧ leafSet u 16 1 ∧
      onlyWrites [PST_PSSTAT_WHO, PST_PSSTAT_REASON, PST_PSSTAT_PHASE, PST_PSCTL_GO, EVSTAT 16] [.sent, .mg, .ps] s u) ∧
    (∀ n, s.ps.deferSum + n ≤ 2000 → ∃ t, exec (.participantAnswer w (.defer n)) s = .next t ∧ w.val ∈ t.ps.deferring ∧
      t.ps.deferSum = s.ps.deferSum + n ∧ t.rd PST_PSSTAT_DEFERS = satInc 255 (s.rd PST_PSSTAT_DEFERS) ∧
      onlyWrites [PST_PSSTAT_DEFERS] [.ps] s t) ∧
    (∀ n, 2000 < s.ps.deferSum + n → ∃ u, exec (.participantAnswer w (.defer n)) s = .next (nextKeys u) ∧ u.rd PST_PSSTAT_WHO = w.val ∧
      u.rd PST_PSSTAT_REASON = 8 ∧ u.rd PST_PSSTAT_PHASE = 0 ∧ leafSet u 16 1)) ∧
  (∀ (w : Participant) (a : Answer) (r : Nat) (s : State), s.rd PST_PSSTAT_PHASE = 1 → w.val ∈ s.ps.waiting → w.val ∉ s.ps.deferring →
    mustRefuse s w.val = some r →
    ∃ u, exec (.participantAnswer w a) s = .next (nextKeys u) ∧ u.rd PST_PSSTAT_WHO = w.val ∧ u.rd PST_PSSTAT_REASON = r ∧
      u.rd PST_PSSTAT_PHASE = 0 ∧ leafSet u 16 1) ∧
  (∀ s : State, s.rd RST_FLTSTAT_SEQ ≠ 0 → mustRefuse s 17 = some 5) ∧
  (∀ (w : Participant) (s : State), s.rd PST_PSSTAT_PHASE = 1 → w.val ∈ s.ps.waiting → w.val ∉ s.ps.deferring →
    ∃ u, exec (.answerTimeout w) s = .next (nextKeys u) ∧ u.rd PST_PSSTAT_WHO = w.val ∧ u.rd PST_PSSTAT_REASON = 7 ∧
      u.rd PST_PSSTAT_PHASE = 0 ∧ leafSet u 16 1) ∧
  (∀ u : State, u.kv.waiting = [] → nextKeys u = u) ∧
  (∀ (w : Participant) (s : State), s.rd PST_PSSTAT_PHASE = 1 → ∃ t, exec (.deferExpiry w) s = .next t ∧ w.val ∉ t.ps.deferring ∧
    t.ps.waiting = s.ps.waiting ∧ partsOnly [.ps] s t) ∧
  (∀ (w : Participant) (s : State), s.rd PST_PSSTAT_PHASE ≠ 1 →
    exec (.deferExpiry w) s = .next s ∧ exec (.answerTimeout w) s = .next s ∧ ∀ a, exec (.participantAnswer w a) s = .next s)

/-- R434: once all have accepted, ENTRY_COMMIT enters Drowse and Doze at once, and commits to Rest and Dormant; AON_ARMED runs the shutdown
into them: the firmware is down, the gated domains stop, in Dormant the image and the LPDDR lose what they hold and CORE_EN falls (R431, R428);
a level that was asserted meanwhile wakes the hub at once (R435). Key commands that waited run as a state takes effect (R433). -/
def Obligations.PowerStatesAreEntered : Prop :=
  (∀ s : State, s.rd PST_PSSTAT_PHASE = 1 → s.ps.waiting = [] →
    (s.ps.target = 1 → ∃ u, exec .entryCommit s = .next ((nextKeys u).setPs {}) ∧ u.rd PST_PSSTAT_STATE = 1 ∧ u.rd PST_PSSTAT_PHASE = 0 ∧
      u.rd PST_PSCTL_GO = 0 ∧ leafSet u 16 0 ∧
      onlyWrites [PST_PSSTAT_STATE, PST_PSSTAT_PHASE, PST_PSCTL_GO, EVSTAT 16] [.sent, .mg] s u) ∧
    (s.ps.target = 2 → ∃ u x, exec .entryCommit s = .next ((nextKeys u).setPs x) ∧ x.downed = goingDown s 2 ∧ u.rd PST_PSSTAT_STATE = 2 ∧
      u.rd PST_PSSTAT_PHASE = 0 ∧ u.rd PST_PSCTL_GO = 0 ∧ leafSet u 16 0) ∧
    (s.ps.target = 3 ∨ s.ps.target = 4 → ∃ t, exec .entryCommit s = .next t ∧ t.rd PST_PSSTAT_PHASE = 2 ∧
      onlyWrites [PST_PSSTAT_PHASE] [] s t)) ∧
  (∀ s : State, s.rd PST_PSSTAT_PHASE ≠ 1 ∨ s.ps.waiting ≠ [] → exec .entryCommit s = .next s) ∧
  (∀ s : State, s.rd PST_PSSTAT_PHASE = 2 → s.ps.target = 3 → s.kv.waiting = [] → ∃ t, exec .aonArmed s = .next t ∧
    t.rd PST_PSSTAT_STATE = 3 ∧ t.rd SYS_STAGE_FWRDY = 0 ∧ t.pw.stopped = true ∧ t.bt.released ≤ 3 ∧ t.rd RST_FLTSTAT_SEQ = 0 ∧
    (s.rd RST_FLTSTAT_SEQ = 0 → t.dram = s.dram) ∧
    (s.ps.level = 0 → t.rd PST_PSSTAT_PHASE = 0) ∧
    (∀ k, k < 8 → bit s.ps.level k = true → t.rd PST_PSSTAT_PHASE = 3 ∧ bit (t.rd PST_WAKEST_SRC) k = true)) ∧
  (∀ s : State, s.rd PST_PSSTAT_PHASE = 2 → s.ps.target = 4 → s.ps.level = 0 → s.kv.waiting = [] → ∃ t, exec .aonArmed s = .next t ∧
    t.rd PST_PSSTAT_STATE = 4 ∧ t.rd PST_PSSTAT_PHASE = 0 ∧ t.rd SYS_STAGE_FWRDY = 0 ∧ t.bt.released ≤ 1 ∧ t.bt.coreEn = false ∧ t.dram = [] ∧
    t.ld.image = none ∧ t.rd CFG_STATUS_LOADED = 0 ∧ t.rd USB_STAT_PULLUP = 0) ∧
  (∀ s : State, s.rd PST_PSSTAT_PHASE ≠ 2 → exec .aonArmed s = .next s)

/-- R436: an enabled source wakes the hub from Rest and Dormant, where its bit of WAKEST is set and the return begins; in Drowse and Doze the
hub goes back to Active, and one that is not enabled does nothing in Rest and Dormant; R435: while a request is asked, an enabled source is its
refusal with 0x9. R437: the return takes its steps one by one, the last brings back Active with the time since the wake; a step that is late
sets RETFAIL and the hub goes back to the state it left. R438: a press of a button of the button function sets BUTTON and changes no state
outside Rest and Dormant. R429: an idle PCIe or USB 3 link enters its low-power state in Drowse and Doze. -/
def Obligations.WakingAndReturning : Prop :=
  (∀ (k : WakeSrc) (s : State), 3 ≤ s.rd PST_PSSTAT_STATE → s.rd PST_PSSTAT_PHASE ≠ 3 →
    (wakeEnabled s k.val = true → ∃ t, exec (.wake k) s = .next t ∧ t.rd PST_PSSTAT_PHASE = 3 ∧
      t.rd PST_PSSTAT_FROM = s.rd PST_PSSTAT_STATE ∧ bit (t.rd PST_WAKEST_SRC) k.val = true ∧ t.ps.step = 1 ∧ t.ps.wakeAt = s.clock ∧
      (s.rd PST_PSSTAT_STATE = 4 → t.bt.coreEn = true ∧ t.sent.head? = some (.pin "CORE_EN" 0 true)) ∧
      onlyWrites [PST_PSSTAT_PHASE, PST_PSSTAT_FROM, PST_WAKEST_SRC] [.sent, .bt, .ps] s t) ∧
    (wakeEnabled s k.val = false → exec (.wake k) s = .next s)) ∧
  (∀ (k : WakeSrc) (s : State), s.rd PST_PSSTAT_STATE = 1 ∨ s.rd PST_PSSTAT_STATE = 2 → s.rd PST_PSSTAT_PHASE = 0 →
    k.val ≠ 4 → k.val ≠ 5 → ∃ t, exec (.wake k) s = .next t ∧ t.rd PST_PSSTAT_STATE = 0 ∧ t.rd PST_PSCTL_GO = 0 ∧ leafSet t 16 0 ∧
      partsOnly [.regs, .sent, .mg, .fb, .pp, .ps] s t) ∧
  (∀ (k : WakeSrc) (s : State), s.rd PST_PSSTAT_STATE < 3 → s.rd PST_PSSTAT_PHASE = 0 → k.val = 4 ∨ k.val = 5 → exec (.wake k) s = .next s) ∧
  (∀ (k : WakeSrc) (s : State), s.rd PST_PSSTAT_STATE < 3 → s.rd PST_PSSTAT_PHASE = 1 → wakeEnabled s k.val = true →
    ∃ u, exec (.wake k) s = .next (nextKeys u) ∧ u.rd PST_PSSTAT_WHO = 18 ∧ u.rd PST_PSSTAT_REASON = 9 ∧ u.rd PST_PSSTAT_PHASE = 0 ∧
      leafSet u 16 1) ∧
  (∀ s : State, s.rd PST_PSSTAT_PHASE = 3 → s.rd PST_PSSTAT_STATE = 3 →
    (s.ps.step = 1 → ∃ t, exec .returnStep s = .next t ∧ t.ps.step = 2 ∧ t.rd PST_AVS_TARGET = 600 + 300 * t.rd PST_AVS_DUTY / 256 ∧
      onlyWrites [PST_AVS_DUTY, PST_AVS_TARGET] [.ps] s t) ∧
    (∀ n, n = 2 ∨ n = 3 → s.ps.step = n → ∃ t, exec .returnStep s = .next t ∧ t.ps.step = n + 1 ∧
      (n = 3 → t.pw.stopped = false) ∧ partsOnly [.ps, .pw] s t) ∧
    (s.ps.step = 4 → s.kv.waiting = [] → ∃ t, exec .returnStep s = .next t ∧ t.rd PST_PSSTAT_STATE = 0 ∧ t.rd PST_PSSTAT_PHASE = 0 ∧
      t.rd SYS_STAGE_FWRDY = 1 ∧ t.rd SYS_STAGE_STAGE = 1 ∧
      t.rd PST_RETTIME_LAST = min (2 ^ 32 - 1) ((s.clock - s.ps.wakeAt) / 1000) ∧ t.bt.released = 18)) ∧
  (∀ s : State, s.rd PST_PSSTAT_PHASE = 3 → s.rd PST_PSSTAT_STATE = 4 →
    (s.ps.step = 1 → s.bt.corePg = true → ∃ t, exec .returnStep s = .next t ∧ t.ps.step = 2 ∧ t.bt.t0 = s.clock ∧ partsOnly [.ps, .bt] s t) ∧
    (s.ps.step = 2 → ∃ t, exec .returnStep s = .next t ∧ t.ps.step = 4 ∧ t.bt.refLock = true ∧ partsOnly [.ps, .bt] s t) ∧
    (s.ps.step = 4 → s.on SYS_STAGE_FWRDY = true → s.kv.waiting = [] → ∃ t, exec .returnStep s = .next t ∧ t.rd PST_PSSTAT_STATE = 0 ∧
      t.rd PST_PSSTAT_PHASE = 0 ∧ t.rd PST_RETTIME_LAST = min (2 ^ 32 - 1) ((s.clock - s.ps.wakeAt) / 1000)) ∧
    (s.ps.step = 4 → s.on SYS_STAGE_FWRDY = false → exec .returnStep s = .next s)) ∧
  (∀ s : State, s.rd PST_PSSTAT_PHASE = 3 → ∃ t, exec .returnTimeout s = .next t ∧ t.rd PST_PSSTAT_PHASE = 0 ∧
    t.rd PST_PSSTAT_STATE = s.rd PST_PSSTAT_STATE ∧ t.rd SYS_STAGE_FWRDY = 0 ∧ leafSet t 16 2 ∧
    (s.rd PST_PSSTAT_STATE = 3 → t.rd PST_AVS_DUTY = 43 ∧ t.pw.stopped = true ∧ t.bt.released ≤ 3) ∧
    (s.rd PST_PSSTAT_STATE = 4 → t.bt.coreEn = false ∧ t.bt.released ≤ 1)) ∧
  (∀ s : State, s.rd PST_PSSTAT_PHASE ≠ 3 → exec .returnStep s = .next s ∧ exec .returnTimeout s = .next s) ∧
  (∀ (e : BtnPort) (s : State),
    (isButton s e.val = true → s.rd PST_PSSTAT_STATE < 3 → s.rd PST_PSSTAT_PHASE = 0 → ∃ t, exec (.button e) s = .next t ∧ leafSet t 16 3 ∧
      onlyWrites [EVSTAT 16] [.mg] s t) ∧
    (isButton s e.val = true → 3 ≤ s.rd PST_PSSTAT_STATE → s.rd PST_PSSTAT_PHASE = 0 →
      (wakeEnabled s (4 + e.val) = true →
        ∃ t, exec (.button e) s = .next t ∧ t.rd PST_PSSTAT_PHASE = 3 ∧ bit (t.rd PST_WAKEST_SRC) (4 + e.val) = true) ∧
      (wakeEnabled s (4 + e.val) = false → exec (.button e) s = .next s)) ∧
    (isButton s e.val = false → exec (.button e) s = .next s)) ∧
  (∀ (p : Port) (s : State), s.rd PST_PSSTAT_STATE = 1 ∨ s.rd PST_PSSTAT_STATE = 2 → s.rd (ADP_STAT_STATE p.val) = 2 →
    s.rd (ADP_STAT_PERS p.val) = 1 ∨ persUsb (s.rd (ADP_STAT_PERS p.val)) = true →
    ∃ t, exec (.linkIdle p) s = .next t ∧ t.rd (ADP_STAT_STATE p.val) = 3 ∧ onlyWrites [ADP_STAT_STATE p.val] [] s t) ∧
  (∀ (p : Port) (s : State), s.rd PST_PSSTAT_STATE = 0 ∨ 3 ≤ s.rd PST_PSSTAT_STATE ∨ s.rd (ADP_STAT_STATE p.val) ≠ 2 →
    exec (.linkIdle p) s = .next s)

/-! ### Type-C and Power Delivery (chapter 17) -/

/-- R446, R457: a debounced attach takes its role, orientation and cable, and sets ATTACH; a debounced detach of a source, and the loss of
VBUS at a sink, clear the contract and the terminations and set DETACH, and a source waits for VBUS to fall; where the hub ran from that
VBUS alone the loss is a power-on reset; a termination that is back in time keeps the contract; an unattached crown port toggles; R459:
error recovery ends unattached. -/
def Obligations.PortsAttachAndDetach : Prop :=
  (∀ (p : CanPort) (cc2 : Bool) (i : CcInfo) (s : State), s.rd (PD_STAT_CCST p.val) < 2 → (s.pdp p.val).waitVbus = false →
    (maySource s p.val = true → ∃ t, exec (.ccAttach p cc2 true i) s = .next t ∧ t.rd (PD_STAT_CCST p.val) = 2 ∧
      t.rd (PD_STAT_PROLE p.val) = 1 ∧ t.rd (PD_STAT_DROLE p.val) = 1 ∧ t.rd (PD_STAT_CONTR p.val) = 1 ∧
      t.rd (PD_STAT_ORIENT p.val) = b2n cc2 ∧ t.rd (PD_STAT_CAB5A p.val) = b2n i.cable5A ∧ t.rd (PD_STAT_VCONN p.val) = b2n i.vconnNeeded ∧
      t.rd (PD_CV_CVEN p.val) = 1 ∧ leafSet t 18 0 ∧
      (i.pd = true → ∃ l, Out.pd p.val "Source_Capabilities" l ∈ t.sent)) ∧
    (maySink s p.val = true → ∃ t, exec (.ccAttach p cc2 false i) s = .next t ∧ t.rd (PD_STAT_CCST p.val) = 3 ∧
      t.rd (PD_STAT_PROLE p.val) = 0 ∧ t.rd (PD_STAT_DROLE p.val) = 0 ∧ t.rd (PD_STAT_CONTR p.val) = 1 ∧
      t.rd (PD_STAT_RPLVL p.val) = min 3 i.rp ∧ leafSet t 18 0)) ∧
  (∀ (p : CanPort) (cc2 : Bool) (i : CcInfo) (s : State),
    (maySource s p.val = false → exec (.ccAttach p cc2 true i) s = .next s) ∧
    (maySink s p.val = false → exec (.ccAttach p cc2 false i) s = .next s)) ∧
  (∀ (p : CanPort) (cc2 b : Bool) (i : CcInfo) (s : State), 2 ≤ s.rd (PD_STAT_CCST p.val) ∨ (s.pdp p.val).waitVbus = true →
    exec (.ccAttach p cc2 b i) s = .next s) ∧
  (∀ (p : CanPort) (s : State), asSource s p.val = true → ∃ t, exec (.ccDetach p) s = .next t ∧ t.rd (PD_STAT_CCST p.val) = 0 ∧
    t.rd (PD_STAT_CONTR p.val) = 0 ∧ t.rd (PD_RDO_RDO p.val) = 0 ∧ t.rd (PD_CV_CVEN p.val) = 0 ∧ t.rd (PD_STAT_VCONN p.val) = 0 ∧
    (t.pdp p.val).waitVbus = true ∧ (t.pdp p.val).discharge = true ∧ leafSet t 18 1 ∧
    partsOnly [.regs, .sent, .mg, .sv, .fb, .sc, .cn, .lc, .ad, .pp, .ut, .pd, .pw, .ps] s t) ∧
  (∀ (p : CanPort) (s : State), asSource s p.val = false → exec (.ccDetach p) s = .next s) ∧
  (∀ (p : CanPort) (s : State), asSink s p.val = true → (s.pdp p.val).own ≠ 2 →
    (crownActive s ≠ some p.val ∨ anyFeed s = true ∨ asSink s (1 - p.val) = true → ∃ t, exec (.vbusLoss p) s = .next t ∧ t.rd (PD_STAT_CCST p.val) = 0 ∧
      t.rd (PD_STAT_CONTR p.val) = 0 ∧ (t.pdp p.val).waitVbus = false ∧ leafSet t 18 1) ∧
    (crownActive s = some p.val → anyFeed s = false → asSink s (1 - p.val) = false → ∃ t, exec (.vbusLoss p) s = .next t ∧
      t.rd RST_CAUSE_POR = 1 ∧ ResetSrc.por ∈ t.bt.srcs ∧ t.bt.released = 0)) ∧
  (∀ (p : CanPort) (s : State), (s.pdp p.val).own = 2 ∨ asSink s p.val = false → exec (.vbusLoss p) s = .next s) ∧
  (∀ (p : CanPort) (b : Bool) (s : State),
    (s.rd (PD_STAT_CCST p.val) < 2 → (s.pdp p.val).waitVbus = false → ∃ t, exec (.ccTerminationChange p b) s = .next t ∧
      t.rd (PD_STAT_CCST p.val) = b2n b ∧ onlyWrites [PD_STAT_CCST p.val] [] s t) ∧
    (s.rd (PD_STAT_CCST p.val) = 2 → ∃ t, exec (.ccTerminationChange p b) s = .next t ∧ (t.pdp p.val).holding = !b ∧
      t.rd (PD_STAT_CONTR p.val) = s.rd (PD_STAT_CONTR p.val) ∧
      (b = false → s.on (PD_CV_CVEN p.val) = true → t.rd (PD_CV_STATE p.val) = 1) ∧ onlyWrites [PD_CV_STATE p.val] [.pd] s t) ∧
    (3 ≤ s.rd (PD_STAT_CCST p.val) → exec (.ccTerminationChange p b) s = .next s)) ∧
  (∀ (p : CanPort) (s : State), ∃ t, exec (.vbusDischarged p) s = .next t ∧ (t.pdp p.val).waitVbus = false ∧
    (t.pdp p.val).discharge = false ∧ (∀ q, q ≠ p.val → t.pdp q = s.pdp q) ∧ partsOnly [.pd] s t) ∧
  (∀ (p : CanPort) (s : State), s.rd (PD_STAT_CCST p.val) = 4 →
    ∃ t, exec (.errorRecoveryEnd p) s = .next t ∧ t.rd (PD_STAT_CCST p.val) = 0 ∧ onlyWrites [PD_STAT_CCST p.val] [] s t) ∧
  (∀ (p : CanPort) (s : State), s.rd (PD_STAT_CCST p.val) ≠ 4 → exec (.errorRecoveryEnd p) s = .next s) ∧
  (∀ (p : CanPort) (s : State), maySink s p.val = true → s.rd (PD_STAT_CCST p.val) = 0 → anyFeed s = true → (s.pdp p.val).waitVbus = false →
    ∃ t, exec (.drpToggle p) s = .next t ∧ t.rd (PD_STAT_RPLVL p.val) = (if s.rd (PD_STAT_RPLVL p.val) = 3 then 2 else 3) ∧
      onlyWrites [PD_STAT_RPLVL p.val] [] s t)

/-- R449: in Seedling a sink asks for object 1 at the Rp current, and the firmware for one of the offer's objects; R397: without the
firmware after it has taken over, the answer is Wait. R448: the source's PS_RDY makes the sink's contract. R455: a source accepts what its
offer covers and rejects the rest; 30 ms after the Accept
the converter moves TARGET along its ramp; PS_RDY at its end makes the contract. -/
def Obligations.ContractsAreMade : Prop :=
  (∀ (p : CanPort) (l : Words) (s : State), asSink s p.val = true →
    (s.on PD_GLOB_FWPOL = false → ∃ t, exec (.sourceCapabilities p l) s = .next t ∧ (t.pdp p.val).offer = l ∧
      t.sent = .pd p.val "Request" [(rdoFor 1 (rpMilliamps (s.rd (PD_STAT_RPLVL p.val)))).toNat] :: s.sent ∧ partsOnly [.sent, .pd] s t) ∧
    (s.on PD_GLOB_FWPOL = true → s.on SYS_STAGE_FWRDY = true → ∃ t rdo, exec (.sourceCapabilities p l) s = .next t ∧
      (t.pdp p.val).offer = l ∧ (t.pdp p.val).moving = some (0, rdo) ∧ t.sent = .pd p.val "Request" [rdo.toNat] :: s.sent ∧
      partsOnly [.sent, .pd, .freeCtr] s t) ∧
    (s.on PD_GLOB_FWPOL = true → s.on SYS_STAGE_FWRDY = false → ∃ t, exec (.sourceCapabilities p l) s = .next t ∧
      t.sent = .pd p.val "Wait" [] :: s.sent ∧ partsOnly [.sent] s t)) ∧
  (∀ (p : CanPort) (l : Words) (s : State), asSink s p.val = false → exec (.sourceCapabilities p l) s = .next s) ∧
  (∀ (p : CanPort) (n : Nat) (rdo : Word) (s : State), asSink s p.val = true → (s.pdp p.val).moving = some (n, rdo) →
    ∃ t, exec (.explicitContract p) s = .next t ∧ t.rd (PD_STAT_CONTR p.val) = 2 ∧ t.rd (PD_RDO_RDO p.val) = rdo.toNat ∧
      (t.pdp p.val).moving = none ∧ (t.pdp p.val).hards = 0 ∧ leafSet t 18 2) ∧
  (∀ (p : CanPort) (s : State), (s.pdp p.val).moving = none →
    exec (.explicitContract p) s = .next s ∧ exec (.psRdy p) s = .next s ∧ exec (.transitionLimit p) s = .next s) ∧
  (∀ (p : CanPort) (rdo : Word) (s : State), asSource s p.val = true → (s.pdp p.val).own = 0 → policyAbsent s = false →
    (requestOk (s.pdp p.val).offer rdo.toNat = true → ∃ t, exec (.request p rdo) s = .next t ∧
      (t.pdp p.val).moving = some ((requested (s.pdp p.val).offer rdo.toNat).1 / 20, rdo) ∧ t.sent = .pd p.val "Accept" [] :: s.sent ∧
      onlyWrites [PD_CV_STATE p.val] [.sent, .pd] s t) ∧
    (requestOk (s.pdp p.val).offer rdo.toNat = false → ∃ t, exec (.request p rdo) s = .next t ∧
      t.sent = .pd p.val "Reject" [] :: s.sent ∧ partsOnly [.sent] s t)) ∧
  (∀ (p : CanPort) (rdo : Word) (s : State), asSource s p.val = true → (s.pdp p.val).own = 0 → policyAbsent s = true →
    exec (.request p rdo) s = .next (s.emit (.pd p.val "Wait" []))) ∧
  (∀ (p : CanPort) (rdo : Word) (s : State), asSource s p.val = true → (s.pdp p.val).own ≠ 0 →
    ∃ t, exec (.request p rdo) s = .next t ∧ t.sent = .pd p.val "Wait" [] :: s.sent ∧
      t.rd (PD_CNT_COLL p.val) = satInc 255 (s.rd (PD_CNT_COLL p.val)) ∧ leafSet t 18 6 ∧
      onlyWrites [PD_CNT_COLL p.val, EVSTAT 18] [.sent, .mg] s t) ∧
  (∀ (p : CanPort) (rdo : Word) (s : State), asSource s p.val = false → exec (.request p rdo) s = .next s) ∧
  (∀ (p : CanPort) (m : Nat) (s : State), m < 4096 →
    (s.on (PD_CV_CVEN p.val) = false → ∃ t, exec (.converterStep p m) s = .next t ∧ t.rd (PD_VBUS_MEAS p.val) = m ∧
      onlyWrites [PD_VBUS_MEAS p.val] [] s t) ∧
    (∀ n rdo, s.on (PD_CV_CVEN p.val) = true → (s.pdp p.val).holding = false → (s.pdp p.val).moving = some (n, rdo) →
      (s.pdp p.val).rampAt ≤ s.clock → ∃ t, exec (.converterStep p m) s = .next t ∧ t.rd (PD_VBUS_MEAS p.val) = m ∧
        (t.pdp p.val).pos = (if (s.pdp p.val).pos < 40 * n then min (40 * n) ((s.pdp p.val).pos + 25 * s.rd (PD_CTL_SLEW p.val))
          else max (40 * n) ((s.pdp p.val).pos - 25 * s.rd (PD_CTL_SLEW p.val))) ∧
        t.rd (PD_VBUS_TARGET p.val) = (t.pdp p.val).pos / 40 % 4096 ∧
        onlyWrites [PD_VBUS_MEAS p.val, PD_VBUS_TARGET p.val, PD_CV_STATE p.val, PD_CV_ADJ p.val] [.pd] s t) ∧
    (s.on (PD_CV_CVEN p.val) = true → (s.pdp p.val).holding = true ∨ (s.pdp p.val).moving = none ∨ s.clock < (s.pdp p.val).rampAt →
      ∃ t, exec (.converterStep p m) s = .next t ∧ (t.pdp p.val).pos = (s.pdp p.val).pos)) ∧
  (∀ (p : CanPort) (n : Nat) (rdo : Word) (s : State), asSource s p.val = true → (s.pdp p.val).moving = some (n, rdo) →
    (s.pdp p.val).pos = 40 * n → (s.pdp p.val).holding = false → (s.pdp p.val).revokeDue = false →
    ∃ t, exec (.psRdy p) s = .next t ∧ t.rd (PD_RDO_RDO p.val) = rdo.toNat ∧ (t.pdp p.val).moving = none ∧
      t.rd (PD_STAT_CONTR p.val) = (if objPps (objectAt (s.pdp p.val).offer (bits rdo.toNat 31 28)) then 3
        else if 8 ≤ bits rdo.toNat 31 28 then 4 else 2) ∧ Out.pd p.val "PS_RDY" [] ∈ t.sent ∧ leafSet t 18 2)

/-- R455, R456, R459: a transition that is late, a silent PPS or EPR sink and the partner's Hard Reset end the contract, count, and bring
a source back to 5 V; after three without a contract the port goes into error recovery. R456: a PPS source lowers TARGET by 20 mV while the
current is above the one requested, and not below the object's minimum, and
raises it again to the voltage requested. -/
def Obligations.HardResetsAndCurrentLimits : Prop :=
  (∀ (p : CanPort) (s : State), asSource s p.val = true ∨ asSink s p.val = true → (s.pdp p.val).revokeDue = false →
    ((s.pdp p.val).hards < 3 → ∃ t, exec (.hardReset p) s = .next t ∧ t.rd (PD_STAT_CONTR p.val) = 1 ∧ t.rd (PD_RDO_RDO p.val) = 0 ∧
      t.rd (PD_CNT_HRST p.val) = satInc 255 (s.rd (PD_CNT_HRST p.val)) ∧ (t.pdp p.val).moving = none ∧
      (t.pdp p.val).hards = (s.pdp p.val).hards + 1 ∧ leafSet t 18 3 ∧ (asSource s p.val = true → t.rd (PD_VBUS_TARGET p.val) = 250)) ∧
    (3 ≤ (s.pdp p.val).hards → ∃ t, exec (.hardReset p) s = .next t ∧ t.rd (PD_STAT_CCST p.val) = 4 ∧
      t.rd (PD_CNT_ERREC p.val) = satInc 255 (s.rd (PD_CNT_ERREC p.val)) ∧ leafSet t 18 7)) ∧
  (∀ (p : CanPort) (n : Nat) (rdo : Word) (s : State), asSource s p.val = true → (s.pdp p.val).moving = some (n, rdo) →
    (s.pdp p.val).revokeDue = false → (s.pdp p.val).hards < 3 →
    ∃ t, exec (.transitionLimit p) s = .next t ∧ t.rd (PD_STAT_CONTR p.val) = 1 ∧ t.rd (PD_RDO_RDO p.val) = 0 ∧
      t.rd (PD_CNT_TRFAIL p.val) = satInc 255 (s.rd (PD_CNT_TRFAIL p.val)) ∧ t.rd (PD_VBUS_TARGET p.val) = 250 ∧
      t.rd (PD_CV_STATE p.val) = 5 ∧ (t.pdp p.val).moving = none ∧ t.sent = .pd p.val "Hard Reset" [] :: s.sent ∧ leafSet t 18 4 ∧
      leafSet t 18 3) ∧
  (∀ (p : CanPort) (s : State), asSource s p.val = true → (s.pdp p.val).moving ≠ none → (s.pdp p.val).revokeDue = false →
    3 ≤ (s.pdp p.val).hards → ∃ t, exec (.transitionLimit p) s = .next t ∧ t.rd (PD_STAT_CCST p.val) = 4 ∧ leafSet t 18 7) ∧
  (∀ (p : CanPort) (s : State), asSource s p.val = false → exec (.transitionLimit p) s = .next s) ∧
  (∀ (p : CanPort) (s : State), asSource s p.val = true → (s.pdp p.val).hards < 3 →
    (s.rd (PD_STAT_CONTR p.val) = 3 → ∃ t, exec (.ppsTimeout p) s = .next t ∧ t.rd (PD_STAT_CONTR p.val) = 1 ∧
      t.rd (PD_RDO_RDO p.val) = 0 ∧ t.sent = .pd p.val "Hard Reset" [] :: s.sent ∧ leafSet t 18 3) ∧
    (s.rd (PD_STAT_CONTR p.val) ≠ 3 → exec (.ppsTimeout p) s = .next s) ∧
    (s.rd (PD_STAT_CONTR p.val) = 4 → ∃ t, exec (.eprKeepaliveTimeout p) s = .next t ∧ t.rd (PD_STAT_CONTR p.val) = 1 ∧
      t.rd (PD_RDO_RDO p.val) = 0 ∧ t.sent = .pd p.val "Hard Reset" [] :: s.sent ∧ leafSet t 18 3) ∧
    (s.rd (PD_STAT_CONTR p.val) ≠ 4 → exec (.eprKeepaliveTimeout p) s = .next s)) ∧
  (∀ (p : CanPort) (s : State), asSource s p.val = true → s.rd (PD_STAT_CONTR p.val) = 3 → (s.pdp p.val).moving = none →
    (s.pdp p.val).holding = false →
    (5 * bits (objectAt (s.pdp p.val).offer (bits (s.rd (PD_RDO_RDO p.val)) 31 28)) 15 8 < s.rd (PD_VBUS_TARGET p.val) →
      ∃ t, exec (.ppsCurrentLimit p true) s = .next t ∧ t.rd (PD_VBUS_TARGET p.val) = s.rd (PD_VBUS_TARGET p.val) - 1 ∧
        t.rd (PD_CV_STATE p.val) = 4 ∧ onlyWrites [PD_VBUS_TARGET p.val, PD_CV_STATE p.val] [.pd] s t) ∧
    (s.rd (PD_VBUS_TARGET p.val) ≤ 5 * bits (objectAt (s.pdp p.val).offer (bits (s.rd (PD_RDO_RDO p.val)) 31 28)) 15 8 →
      ∃ t, exec (.ppsCurrentLimit p true) s = .next t ∧ t.rd (PD_CV_STATE p.val) = 4 ∧ onlyWrites [PD_CV_STATE p.val] [] s t) ∧
    (s.rd (PD_VBUS_TARGET p.val) < (requested (s.pdp p.val).offer (s.rd (PD_RDO_RDO p.val))).1 / 20 →
      s.rd (PD_VBUS_TARGET p.val) < 4095 →
      ∃ t, exec (.ppsCurrentLimit p false) s = .next t ∧ t.rd (PD_VBUS_TARGET p.val) = s.rd (PD_VBUS_TARGET p.val) + 1 ∧
        onlyWrites [PD_VBUS_TARGET p.val, PD_CV_STATE p.val] [.pd] s t) ∧
    ((requested (s.pdp p.val).offer (s.rd (PD_RDO_RDO p.val))).1 / 20 ≤ s.rd (PD_VBUS_TARGET p.val) →
      ∃ t, exec (.ppsCurrentLimit p false) s = .next t ∧ onlyWrites [PD_CV_STATE p.val] [] s t))

/-- R444, R447, R448, R452: a partner's DR_Swap is accepted only towards the role of the port, and a PR_Swap only at a host-facing crown port
that can take the new role; a partner's request that crosses an own one at a source gets Wait (R458); the answer to the own request
swaps the role; VCONN is swapped to the partner, and back while the hub is source.
R239, R241: the Canopy SVID and mode are announced on a host-facing crown port that offers them, and USB4 is entered where MODES allows. -/
def Obligations.SwapsAndModes : Prop :=
  (∀ (p : CanPort) (b : Bool) (s : State), attached s p.val = true → (s.pdp p.val).own = 0 →
    (p.val < 2 → s.rd (PD_STAT_DROLE p.val) ≠ b2n (isDown s p.val) → ∃ t, exec (.drSwap p true b) s = .next t ∧
      t.rd (PD_STAT_DROLE p.val) = 1 - s.rd (PD_STAT_DROLE p.val) ∧ Out.pd p.val "Accept" [] ∈ t.sent) ∧
    (2 ≤ p.val ∨ s.rd (PD_STAT_DROLE p.val) = b2n (isDown s p.val) → ∃ t, exec (.drSwap p true b) s = .next t ∧
      t.sent = .pd p.val "Reject" [] :: s.sent ∧ partsOnly [.sent] s t) ∧
    exec (.drSwap p false b) s = .next s) ∧
  (∀ (p : CanPort) (s : State), attached s p.val = true → (s.pdp p.val).own = 1 →
    (∃ t, exec (.drSwap p false true) s = .next t ∧ t.rd (PD_STAT_DROLE p.val) = 1 - s.rd (PD_STAT_DROLE p.val) ∧ (t.pdp p.val).own = 0) ∧
    (∃ t, exec (.drSwap p false false) s = .next t ∧ (t.pdp p.val).own = 0 ∧ onlyWrites [PD_STAT_RPLVL p.val] [.pd] s t)) ∧
  (∀ (p : CanPort) (b : Bool) (s : State), asSource s p.val = true → (s.pdp p.val).own ≠ 0 →
    ∃ t, exec (.drSwap p true b) s = .next t ∧ exec (.prSwap p true b) s = .next t ∧ t.sent = .pd p.val "Wait" [] :: s.sent ∧ leafSet t 18 6 ∧
      onlyWrites [PD_CNT_COLL p.val, EVSTAT 18] [.sent, .mg] s t) ∧
  (∀ (p : CanPort) (b : Bool) (s : State), attached s p.val = true → (s.pdp p.val).own = 0 → policyAbsent s = false →
    (maySink s p.val = true → asSource s p.val = true → ∃ t, exec (.prSwap p true b) s = .next t ∧ t.rd (PD_STAT_CCST p.val) = 3 ∧
      t.rd (PD_STAT_PROLE p.val) = 0 ∧ t.rd (PD_CV_CVEN p.val) = 0 ∧ Out.pd p.val "Accept" [] ∈ t.sent) ∧
    (maySink s p.val = true → asSink s p.val = true → anyFeed s = true → ∃ t, exec (.prSwap p true b) s = .next t ∧
      t.rd (PD_STAT_CCST p.val) = 2 ∧ t.rd (PD_STAT_PROLE p.val) = 1 ∧ t.rd (PD_CV_CVEN p.val) = 1 ∧ Out.pd p.val "Accept" [] ∈ t.sent) ∧
    (maySink s p.val = false ∨ asSink s p.val = true ∧ anyFeed s = false → ∃ t, exec (.prSwap p true b) s = .next t ∧
      t.sent = .pd p.val "Reject" [] :: s.sent ∧ partsOnly [.sent] s t)) ∧
  (∀ (p : CanPort) (s : State), asSource s p.val = true → (s.pdp p.val).own = 2 →
    ∃ t, exec (.prSwap p false true) s = .next t ∧ t.rd (PD_STAT_CCST p.val) = 3 ∧ t.rd (PD_STAT_PROLE p.val) = 0 ∧ (t.pdp p.val).own = 0) ∧
  (∀ (p : CanPort) (s : State), asSink s p.val = true → (s.pdp p.val).own = 2 →
    ∃ t, exec (.prSwap p false true) s = .next t ∧ t.rd (PD_STAT_CCST p.val) = 2 ∧ t.rd (PD_STAT_PROLE p.val) = 1 ∧ (t.pdp p.val).own = 0) ∧
  (∀ (p : CanPort) (s : State), attached s p.val = true →
    (s.on (PD_STAT_VCONN p.val) = true ∨ asSource s p.val = true → ∃ t, exec (.vconnSwap p) s = .next t ∧
      t.rd (PD_STAT_VCONN p.val) = 1 - s.rd (PD_STAT_VCONN p.val) ∧ t.sent = .pd p.val "Accept" [] :: s.sent ∧
      onlyWrites [PD_STAT_VCONN p.val] [.sent] s t) ∧
    (s.on (PD_STAT_VCONN p.val) = false → asSource s p.val = false → ∃ t, exec (.vconnSwap p) s = .next t ∧
      t.sent = .pd p.val "Reject" [] :: s.sent ∧ partsOnly [.sent] s t)) ∧
  (∀ (p : CanPort) (v : BitVec 16) (s : State),
    (announces s p.val = true → (∃ t, exec (.discoverSvids p) s = .next t ∧ t.sent = .pd p.val "SVIDs" [0x4F5A] :: s.sent ∧
      partsOnly [.sent] s t) ∧
      ((s.can p.val).failed = false → s.on KEY_VAULT_HALT = false → ∃ t, exec (.discoverModes p 0x4F5A) s = .next t ∧
        t.sent = .pd p.val "Modes" [1] :: s.sent ∧ partsOnly [.sent] s t)) ∧
    (announces s p.val = false → ∃ t, exec (.discoverSvids p) s = .next t ∧ t.sent = .pd p.val "NAK" [] :: s.sent ∧
      exec (.discoverModes p v) s = .next t ∧ partsOnly [.sent] s t)) ∧
  (∀ (p : CanPort) (s : State), p.val < 2 → isDown s p.val = false → bit (portModes s p.val) 1 = true → attached s p.val = true →
    (s.can p.val).entered ≠ 2 → ((s.can p.val).entered = 1 → (s.can p.val).failed = true) →
    ∃ t, exec (.enterUsb p 2) s = .next t ∧ (t.can p.val).entered = 2 ∧ t.rd (ADP_STAT_STATE p.val) = 1 ∧
      Out.pd p.val "Accept" [] ∈ t.sent) ∧
  (∀ (p : CanPort) (m : Fin 8) (s : State), m.val ≠ 2 ∨ 2 ≤ p.val ∨ attached s p.val = false →
    ∃ t, exec (.enterUsb p m) s = .next t ∧ t.sent = .pd p.val "Reject" [] :: s.sent ∧ partsOnly [.sent] s t)

/-! ### Power channels, feeds, the steward and the monitors (chapters 18 and 20) -/

/-- R465, R466, R467, R468, R470: a channel ramps, qualifies and is power-good; an overcurrent regulates, withholds a power-good of its
cycle and, ended in time, leaves no fault;
10 s of power-good clear the attempts; a backoff that ends closes the channel again. -/
def Obligations.ChannelsCloseAndQualify : Prop :=
  (∀ (n : Channel) (s : State),
    (s.rd (PC_STAT_STATE n.val) = 1 → ∃ t, exec (.rampComplete n) s = .next t ∧ t.rd (PC_STAT_STATE n.val) = 2 ∧
      onlyWrites [PC_STAT_STATE n.val] [] s t) ∧
    (s.rd (PC_STAT_STATE n.val) ≠ 1 → exec (.rampComplete n) s = .next s) ∧
    (s.rd (PC_STAT_STATE n.val) = 2 → ∃ t, exec (.powerGood n) s = .next t ∧ t.rd (PC_STAT_STATE n.val) = 3 ∧
      t.rd (PC_STAT_PG n.val) = 1 ∧ (s.on PP_FEED_WARN = true → isSupply s n.val = true → t.rd PP_FEED_WARN = 0 ∧
        t.sent = .pin "PWRWARN_N" 0 true :: s.sent) ∧
      onlyWrites [PC_STAT_STATE n.val, PC_STAT_PG n.val, PP_FEED_WARN] [.sent, .pw] s t) ∧
    (s.rd (PC_STAT_STATE n.val) ≠ 2 → exec (.powerGood n) s = .next s) ∧
    (s.on (PC_STAT_PG n.val) = true → ∃ t, exec (.powerGoodHold n) s = .next t ∧ t.rd (PC_STAT_ATTEMPT n.val) = 0 ∧
      onlyWrites [PC_STAT_ATTEMPT n.val] [] s t) ∧
    (s.on (PC_STAT_PG n.val) = false → exec (.powerGoodHold n) s = .next s) ∧
    (pathClosed s n.val = true → ∃ t, exec (.channelOvercurrent n) s = .next t ∧ t.rd (PC_STAT_STATE n.val) = 4 ∧
      t.rd (PC_STAT_PG n.val) = 0 ∧ onlyWrites [PC_STAT_STATE n.val, PC_STAT_PG n.val, PP_FEED_WARN] [.sent] s t ∧
      (s.pw.good ≠ some (n.val, s.clock, true) → t.sent = s.sent ∧ t.rd PP_FEED_WARN = s.rd PP_FEED_WARN) ∧
      (s.pw.good = some (n.val, s.clock, true) → t.sent = .pin "PWRWARN_N" 0 false :: s.sent ∧ t.rd PP_FEED_WARN = 1)) ∧
    (pathClosed s n.val = false → exec (.channelOvercurrent n) s = .next s) ∧
    (s.rd (PC_STAT_STATE n.val) = 4 → ∃ t, exec (.overcurrentEnd n) s = .next t ∧ t.rd (PC_STAT_STATE n.val) = 2 ∧
      onlyWrites [PC_STAT_STATE n.val] [] s t) ∧
    (s.rd (PC_STAT_STATE n.val) ≠ 4 → exec (.overcurrentEnd n) s = .next s ∧ exec (.faultTimer n) s = .next s) ∧
    (s.rd (PC_STAT_STATE n.val) = 5 → n.val < 2 → s.rd PP_FEED_ACTIVE = 0 → s.pw.dead = none →
      s.on (if n.val = 0 then PP_FEED_QUALA else PP_FEED_QUALB) = true →
      ∃ t, exec (.retryBackoff n) s = .next t ∧ t.rd (PC_STAT_STATE n.val) = 1 ∧ t.rd PP_FEED_ACTIVE = n.val + 1) ∧
    (s.rd (PC_STAT_STATE n.val) = 5 → 2 ≤ n.val → asSource s (n.val - 2) = true → (s.pdp (n.val - 2)).erDue = false →
      ∃ t, exec (.retryBackoff n) s = .next t ∧ t.rd (PC_STAT_STATE n.val) = 1 ∧ t.rd (PC_STAT_PG n.val) = 0) ∧
    (s.rd (PC_STAT_STATE n.val) = 5 → 2 ≤ n.val → asSink s (n.val - 2) = true → (s.pdp (n.val - 2)).erDue = false →
      s.rd PP_FEED_ACTIVE = 0 → s.pw.dead = none → anyFeed s = false →
      ∃ t, exec (.retryBackoff n) s = .next t ∧ t.rd (PC_STAT_STATE n.val) = 1 ∧ t.rd PP_FEED_ACTIVE = 3) ∧
    (s.rd (PC_STAT_STATE n.val) = 5 → 2 ≤ n.val → asSource s (n.val - 2) = true → (s.pdp (n.val - 2)).erDue = true →
      ∃ t, exec (.retryBackoff n) s = .next t ∧ t.rd (PD_STAT_CCST (n.val - 2)) = 4 ∧ leafSet t 18 7) ∧
    (s.rd (PC_STAT_STATE n.val) ≠ 5 → exec (.retryBackoff n) s = .next s))

/-- R467, R468, R469, R482, R483: a trip records its cause, counts, makes a fault opening and sets CHFLT; the channel latches, or waits out a
backoff while attempts are left; the fault opening of a VBUS channel ends the port's contract and its lease; that of the active feed is a
supply lost. An undervoltage detector that is not armed, and a detector of an open channel, do nothing. -/
def Obligations.TripsOpenTheChannel : Prop :=
  (∀ (n : Channel) (s : State) (c : Instr) (k : Nat) (f : Fld),
    (c = .shortCircuit n ∧ k = 1 ∧ f = PC_CNT_SC n.val ∨ c = .faultTimer n ∧ s.rd (PC_STAT_STATE n.val) = 4 ∧ k = 2 ∧ f = PC_CNT_OC n.val ∨
      c = .reverseCurrent n ∧ k = 4 ∧ f = PC_CNT_UV n.val ∨ c = .undervoltage n ∧ k = 3 ∧ f = PC_CNT_UV n.val ∧
        (n.val < 2 ∨ s.on (PC_STAT_PG n.val) = true ∧ s.on (PC_STAT_REV n.val) = false ∧ (s.pdp (n.val - 2)).moving = none)) →
    (pathClosed s n.val = true → ∃ t, exec c s = .next t ∧ t.rd (PC_STAT_CAUSE n.val) = k ∧ t.rd f = satInc 255 (s.rd f) ∧
      pathClosed t n.val = false ∧ t.rd (PC_STAT_PG n.val) = 0 ∧ t.rd (PC_STAT_REV n.val) = 0 ∧ leafSet t 17 0 ∧
      (s.on (PC_CTL_MODE n.val) = false ∨ s.rd (PC_CTL_RETRIES n.val) ≤ s.rd (PC_STAT_ATTEMPT n.val) →
        t.rd (PC_STAT_STATE n.val) = 6 ∧ t.rd (PC_CNT_LATCH n.val) = satInc 255 (s.rd (PC_CNT_LATCH n.val)) ∧ leafSet t 17 1) ∧
      (s.on (PC_CTL_MODE n.val) = true → s.rd (PC_STAT_ATTEMPT n.val) < s.rd (PC_CTL_RETRIES n.val) →
        t.rd (PC_STAT_STATE n.val) = 5 ∧ t.rd (PC_STAT_ATTEMPT n.val) = s.rd (PC_STAT_ATTEMPT n.val) + 1) ∧
      (2 ≤ n.val → t.rd (PD_STAT_CONTR (n.val - 2)) = 0 ∧ t.rd (PD_RDO_RDO (n.val - 2)) = 0 ∧ t.rd (PST_LEASE_MW n.val) = 0 ∧
        (t.pdp (n.val - 2)).erDue = true) ∧
      (n.val < 2 → s.rd PP_FEED_ACTIVE = n.val + 1 → t.rd PP_FEED_ACTIVE = 0 ∧ t.pw.dead = some (n.val + 1))) ∧
    (pathClosed s n.val = false → exec c s = .next s)) ∧
  (∀ (n : Channel) (s : State), 2 ≤ n.val → s.on (PC_STAT_PG n.val) = false ∨ s.on (PC_STAT_REV n.val) = true ∨
    (s.pdp (n.val - 2)).moving ≠ none → exec (.undervoltage n) s = .next s)

/-- R471, R472, R473: a feed that qualifies is closed where no supply is active, and a crown port that supplies gives way to it; the loss of
the active feed, and the planned return to A, begin the dead time, at whose end the next supply is closed and a changeover counted; with none
left, admission stops and NOSUP is set; PWRWARN_N is driven with its leaf; a presence input that reports removal clears the latch. -/
def Obligations.FeedsChangeOver : Prop :=
  (∀ (b : Bool) (s : State), s.on (if b then PP_FEED_QUALB else PP_FEED_QUALA) = false → 1 ≤ s.bt.released →
    s.rd (PC_STAT_STATE (b2n b)) < 5 →
    (s.rd PP_FEED_ACTIVE = 0 → s.pw.dead = none → ∃ t, exec (.feedQualified b) s = .next t ∧
      t.rd (if b then PP_FEED_QUALB else PP_FEED_QUALA) = 1 ∧ t.rd PP_FEED_ACTIVE = b2n b + 1 ∧ t.rd PD_GLOB_DBDENY = 0 ∧
      pathClosed t (b2n b) = true) ∧
    (s.rd PP_FEED_ACTIVE = 3 → ∃ t, exec (.feedQualified b) s = .next t ∧ t.rd (if b then PP_FEED_QUALB else PP_FEED_QUALA) = 1 ∧
      t.rd PP_FEED_ACTIVE = 0 ∧ t.pw.dead = some 5)) ∧
  (∀ (b : Bool) (s : State), s.on (if b then PP_FEED_QUALB else PP_FEED_QUALA) = false → s.bt.released = 0 →
    ∃ t, exec (.feedQualified b) s = .next t ∧ t.rd (if b then PP_FEED_QUALB else PP_FEED_QUALA) = 1 ∧
      onlyWrites [if b then PP_FEED_QUALB else PP_FEED_QUALA] [] s t) ∧
  (∀ (b : Bool) (s : State), s.on (if b then PP_FEED_QUALB else PP_FEED_QUALA) = true → exec (.feedQualified b) s = .next s) ∧
  (∀ (a : Nat) (s : State), s.rd PP_FEED_ACTIVE = a → a = 1 ∨ a = 2 →
    (∃ t, exec .feedLoss s = .next t ∧ t.rd PP_FEED_ACTIVE = 0 ∧ t.pw.dead = some a ∧ pathClosed t (a - 1) = false ∧
      t.rd (if a = 1 then PP_FEED_QUALA else PP_FEED_QUALB) = 0 ∧ leafSet t 17 0) ∧
    (∃ t, exec .pwrwarn s = .next t ∧ t.rd PP_FEED_WARN = 1 ∧ leafSet t 17 3 ∧ Out.pin "PWRWARN_N" 0 false ∈ t.sent)) ∧
  (∀ s : State, s.rd PP_FEED_ACTIVE = 0 ∨ s.rd PP_FEED_ACTIVE = 3 → exec .feedLoss s = .next s ∧ exec .pwrwarn s = .next s) ∧
  (∀ s : State, s.rd PP_FEED_ACTIVE = 2 → feedReady s 0 = true →
    ∃ t, exec .feedReturn s = .next t ∧ t.rd PP_FEED_ACTIVE = 0 ∧ t.pw.dead = some 4 ∧ pathClosed t 1 = false) ∧
  (∀ s : State, s.rd PP_FEED_ACTIVE ≠ 2 ∨ feedReady s 0 = false → exec .feedReturn s = .next s) ∧
  (∀ s : State, s.pw.dead = none → exec .deadTime s = .next s) ∧
  (∀ (k a : Nat) (l : List Nat) (s : State), s.pw.dead = some k → nextSupplies s k = a :: l →
    ∃ t, exec .deadTime s = .next t ∧ t.pw.dead = none ∧ t.rd PP_FEED_ACTIVE = a ∧
      (k ≤ 3 → t.rd PP_FEED_CHG = satInc 65535 (s.rd PP_FEED_CHG) ∧ leafSet t 17 2)) ∧
  (∀ (k : Nat) (s : State), s.pw.dead = some k → nextSupplies s k = [] →
    ∃ t, exec .deadTime s = .next t ∧ t.pw.stopped = true ∧ leafSet t 17 4 ∧ ∀ n, 2 ≤ n → n < 10 → pathClosed t n = false) ∧
  (∀ (b : Bool) (s : State),
    (∃ t, exec (.feedPresence b true) s = .next t ∧ mget false t.pw.present (b2n b) = true ∧ partsOnly [.pw] s t) ∧
    (∃ t, exec (.feedPresence b false) s = .next t ∧ mget false t.pw.present (b2n b) = false ∧ t.rd (PC_STAT_ATTEMPT (b2n b)) = 0 ∧
      t.rd (PC_STAT_STATE (b2n b)) < 5 ∧
      (s.rd PP_FEED_ACTIVE ≠ b2n b + 1 → t.rd (if b then PP_FEED_QUALB else PP_FEED_QUALA) = 0) ∧
      onlyWrites [PC_STAT_ATTEMPT (b2n b), PC_STAT_STATE (b2n b), PP_FEED_QUALA, PP_FEED_QUALB] [.pw] s t))

/-- R477, R479, R480, R481: the firmware recomputes the leases; a port that is not attached as source has none, and LOW says whether the
effective budget carries BASE; a sink that still overdraws a lowered lease is reset. R523, R30: a supply outside its range is an excursion;
R524, R525, R526: the sensor's reading, its peak and its warning, and the deviation of VDD_CORE. -/
def Obligations.LeasesAndMonitors : Prop :=
  (∀ s : State, stewardUp s = true → ∃ t, exec .leaseRecompute s = .next t ∧ t.pw.leased = true ∧
    t.rd PST_EXT_LOW = (if beff t < baseMw t then 1 else 0) ∧
    ∀ p, p < 8 → asSource s p = false → t.rd (PST_LEASE_MW (p + 2)) = 0) ∧
  (∀ s : State, stewardUp s = false → exec .leaseRecompute s = .next s) ∧
  (∀ (p : CanPort) (s : State), (s.pdp p.val).overdrawn = true → asSource s p.val = true → (s.pdp p.val).hards < 3 →
    ∃ t, exec (.leaseOverdraw p) s = .next t ∧ t.rd (PD_STAT_CONTR p.val) = 1 ∧ Out.pd p.val "Hard Reset" [] ∈ t.sent ∧ leafSet t 18 3 ∧
      (t.pdp p.val).overdrawn = false) ∧
  (∀ (p : CanPort) (s : State), (s.pdp p.val).overdrawn = false → exec (.leaseOverdraw p) s = .next s) ∧
  (∀ (k : Byte) (s : State), k.toNat < 8 →
    (∃ t, exec (.ratingExcursion k false) s = .next t ∧ k.toNat ∈ t.pw.outside ∧
      (allRated s = true → t.rd SYS_GUARD_EXC = 1 ∧ t.rd SYS_GUARD_EXCUR = satInc 255 (s.rd SYS_GUARD_EXCUR)) ∧
      (allRated s = false → t.regs = s.regs) ∧ onlyWrites [SYS_GUARD_EXC, SYS_GUARD_EXCUR] [.pw] s t) ∧
    (∃ t, exec (.ratingExcursion k true) s = .next t ∧ k.toNat ∉ t.pw.outside ∧ partsOnly [.pw] s t)) ∧
  (∀ (k : Byte) (b : Bool) (s : State), 8 ≤ k.toNat → exec (.ratingExcursion k b) s = .next s) ∧
  (∀ (m : BitVec 12) (s : State), ∃ t, exec (.avsDeviation m) s = .next t ∧ t.rd PST_AVS_MEAS = m.toNat ∧
    (4 * s.rd PST_AVS_TARGET < 100 * ((m.toNat - s.rd PST_AVS_TARGET) + (s.rd PST_AVS_TARGET - m.toNat)) → leafSet t 16 9) ∧
    onlyWrites [PST_AVS_MEAS, EVSTAT 16] [.mg] s t) ∧
  (∀ (x : BitVec 16) (s : State), ∃ t, exec (.thermalSample x) s = .next t ∧ t.rd PST_THERM_TEMP = x.toNat ∧
    t.rd PST_THERM_PEAK = max (s.rd PST_THERM_PEAK) (min 255 (x.toInt / 16).toNat) ∧
    (((16 * s.rd PST_THERM_WARN : Nat) : Int) ≤ x.toInt → leafSet t 16 8) ∧ (105 * 16 < x.toInt → 256 ∈ t.pw.outside) ∧
    (x.toInt ≤ 105 * 16 → 256 ∉ t.pw.outside) ∧
    onlyWrites [PST_THERM_TEMP, PST_THERM_PEAK, SYS_GUARD_EXC, SYS_GUARD_EXCUR, EVSTAT 16] [.mg, .pw] s t)

/-! ### Registers and management paths (chapters 01 and 03) -/

/-- R7, R8: a write of a register without a rule of its own acts on each field by its access code: RO and WO fields keep their values, W1C bits
written 1 clear, W1S bits set, RW fields take a value in range, and a reserved encoding leaves the field and sets the configuration
error; RWL is RW until the debug lock is blown. R3: a write to an absent resource is ignored. R69: a path that reaches nothing, or not the
address, changes nothing. R58: a write within the locked grove is an envelope event. R73: an address without a register reads 0 and sets
DECODE. -/
def Obligations.RegisterWritesFollowTheirAccessCodes : Prop :=
  (∀ (p : Path) (a v : Word) (r : RegId) (i j : Nat) (s : State), plainly s p (wordAddr a) → wordAddr a ≠ 0x28 →
    decodeFor p.idx (wordAddr a) = some (r, i, j) → lacksPersonality s r i = false →
    (∀ t, writeReg p r i j (wordAddr a) v.toNat t = wrWord (wordAddr a) v.toNat (regFields r i j) t) →
    ∃ t, exec (.registerWrite p a v) s = .next t ∧ ∀ f ∈ regFields r i j,
      (f.acc = .ro ∨ f.acc = .wo ∨ f.acc = .rwl ∧ debugLocked s = true → t.rd f = s.rd f) ∧
      (f.acc = .w1c → t.rd f = (s.rd f &&& (2 ^ f.w - 1 - bits v.toNat (f.pos + f.w - 1) f.pos))) ∧
      (f.acc = .w1s → t.rd f = (s.rd f ||| bits v.toNat (f.pos + f.w - 1) f.pos)) ∧
      (f.acc = .rw ∨ f.acc = .rwl ∧ debugLocked s = false →
        (f.lo ≤ bits v.toNat (f.pos + f.w - 1) f.pos → bits v.toNat (f.pos + f.w - 1) f.pos ≤ f.hi →
          t.rd f = bits v.toNat (f.pos + f.w - 1) f.pos) ∧
        (bits v.toNat (f.pos + f.w - 1) f.pos < f.lo ∨ f.hi < bits v.toNat (f.pos + f.w - 1) f.pos → t.rd f = s.rd f ∧
          (if 0x400000 ≤ wordAddr a ∧ wordAddr a < 0x404000 then leafSet t 16 16 else leafSet t (unitOfAddr (wordAddr a)) 31)))) ∧
  (∀ (p : Path) (a v : Word) (s : State),
    scopeOf s p = .none ∨ scopeOf s p = .aon ∧ inAon (wordAddr a) = false ∨ scopeOf s p = .whole ∧ absentAddr (variant s) (wordAddr a) = true →
    exec (.registerWrite p a v) s = .next s) ∧
  (∀ (p : Path) (a v : Word) (s : State), scopeOf s p = .whole → absentAddr (variant s) (wordAddr a) = false → wordAddr a ≠ 0x28 →
    lockedAddr s (wordAddr a) = true → (decodeFor p.idx (wordAddr a)).isSome = true →
    ∃ t, exec (.registerWrite p a v) s = .next t ∧ t.rd CFG_ENVERR_LOCK = 1 ∧ t.rd CFG_ENVADDR_ADDR = wordAddr a ∧
      t.rd CFG_ENVERR_COUNT = satInc 65535 (s.rd CFG_ENVERR_COUNT) ∧ leafSet t 25 4 ∧
      onlyWrites [CFG_ENVERR_LOCK, CFG_ENVERR_COUNT, CFG_ENVADDR_ADDR, EVSTAT 25] [.mg] s t) ∧
  (∀ (p : Path) (a v : Word) (s : State), scopeOf s p = .whole → absentAddr (variant s) (wordAddr a) = false →
    decodeFor p.idx (wordAddr a) = none → reservedWord (wordAddr a) = false → 4 ≤ s.bt.released →
    (∃ t, exec (.registerWrite p a v) s = .next t ∧ exec (.unmappedAccess p a true) s = .next t ∧ leafSet t 25 0 ∧
      onlyWrites [EVSTAT 25] [.mg] s t) ∧
    (∃ t, exec (.unmappedAccess p a false) s = .next t ∧ t.sent = .readData p 0 :: s.sent ∧ leafSet t 25 0 ∧
      onlyWrites [EVSTAT 25] [.mg, .sent] s t))

/-- R75, R76, R77: ARM takes LEN, STEP and DIR and, while the window is free and the range stays in its block, arms the burst; a refused arm
sets ERR and DWERR. Each access to SYS_DWDATA in the burst's direction carries one word to or from ADDR as an access of the path does, and ADDR
advances by STEP; the last one frees the window. An access without a burst, or against its direction, moves nothing and sets ERR. -/
def Obligations.DataWindowsMoveWords : Prop :=
  (∀ (p : Path) (v : Word) (s : State), plainly s p 0x24 → 1 ≤ bits v.toNat 26 16 → bits v.toNat 26 16 ≤ 1024 →
    (s.on (SYS_DWCTL_BUSY p.idx) = false →
      burstFits (4 * s.rd (SYS_DWADDR_ADDR p.idx)) (bits v.toNat 26 16) (bits v.toNat 11 4) = true →
      ∃ t, exec (.arm p v) s = .next t ∧ t.rd (SYS_DWCTL_BUSY p.idx) = 1 ∧
        mfind t.mg.bursts p.idx = some { left := bits v.toNat 26 16, step := bits v.toNat 11 4, wr := bit v.toNat 0 } ∧
        onlyWrites [SYS_DWCTL_ERR p.idx, SYS_DWCTL_LEN p.idx, SYS_DWCTL_STEP p.idx, SYS_DWCTL_DIR p.idx, SYS_DWCTL_BUSY p.idx] [.mg] s t) ∧
    (s.on (SYS_DWCTL_BUSY p.idx) = true ∨
      burstFits (4 * s.rd (SYS_DWADDR_ADDR p.idx)) (bits v.toNat 26 16) (bits v.toNat 11 4) = false →
      ∃ t, exec (.arm p v) s = .next t ∧ t.rd (SYS_DWCTL_ERR p.idx) = 1 ∧ leafSet t 25 1 ∧ t.mg.bursts = s.mg.bursts ∧
        t.rd (SYS_DWCTL_BUSY p.idx) = s.rd (SYS_DWCTL_BUSY p.idx))) ∧
  (∀ (p : Path) (b : Burst) (v : Word) (s : State), scopeOf s p = .whole → mfind s.mg.bursts p.idx = some b →
    4 * s.rd (SYS_DWADDR_ADDR p.idx) ≠ 0x28 →
    (b.wr = true → ∃ u t, exec (.registerWrite p (BitVec.ofNat 32 (4 * s.rd (SYS_DWADDR_ADDR p.idx))) v) s = .next u ∧
      exec (.sysDwdataAccess p (some v)) s = .next t ∧ t.rd (SYS_DWADDR_ADDR p.idx) = (u.rd (SYS_DWADDR_ADDR p.idx) + b.step) % 2 ^ 30 ∧
      (b.left ≤ 1 → t.rd (SYS_DWCTL_BUSY p.idx) = 0 ∧ mfind t.mg.bursts p.idx = none) ∧
      (2 ≤ b.left → mfind t.mg.bursts p.idx = some { b with left := b.left - 1 }) ∧
      onlyWrites [SYS_DWADDR_ADDR p.idx, SYS_DWCTL_BUSY p.idx] [.mg] u t) ∧
    (b.wr = false → ∃ t, exec (.sysDwdataAccess p none) s = .next t ∧
      t.sent = .readData p (BitVec.ofNat 32 (peekWord p (4 * s.rd (SYS_DWADDR_ADDR p.idx)) s)) :: s.sent ∧
      t.rd (SYS_DWADDR_ADDR p.idx) = (s.rd (SYS_DWADDR_ADDR p.idx) + b.step) % 2 ^ 30 ∧
      (b.left ≤ 1 → t.rd (SYS_DWCTL_BUSY p.idx) = 0 ∧ mfind t.mg.bursts p.idx = none) ∧
      (2 ≤ b.left → mfind t.mg.bursts p.idx = some { b with left := b.left - 1 }) ∧
      onlyWrites [SYS_DWADDR_ADDR p.idx, SYS_DWCTL_BUSY p.idx, EVSTAT 25] [.mg, .sent] s t)) ∧
  (∀ (p : Path) (v : Word) (s : State), scopeOf s p = .whole →
    (mfind s.mg.bursts p.idx = none ∨ (∃ b, mfind s.mg.bursts p.idx = some b ∧ b.wr = false) →
      ∃ t, exec (.sysDwdataAccess p (some v)) s = .next t ∧ t.rd (SYS_DWCTL_ERR p.idx) = 1 ∧ leafSet t 25 1 ∧
        t.mg.bursts = s.mg.bursts ∧ onlyWrites [SYS_DWCTL_ERR p.idx, EVSTAT 25] [.mg] s t) ∧
    (mfind s.mg.bursts p.idx = none ∨ (∃ b, mfind s.mg.bursts p.idx = some b ∧ b.wr = true) →
      ∃ t, exec (.sysDwdataAccess p none) s = .next t ∧ t.sent = .readData p 0 :: s.sent ∧ t.rd (SYS_DWCTL_ERR p.idx) = 1 ∧ leafSet t 25 1 ∧
        t.mg.bursts = s.mg.bursts ∧ onlyWrites [SYS_DWCTL_ERR p.idx, EVSTAT 25] [.mg, .sent] s t))

/-- R78, R79, R82: while the firmware is up and the path enabled, READ32 returns the register's word, WRITE32 writes it when its status
stage completes, DREAD and DWRITE load the USB window and run a burst of it, and the flash requests are served; a request in the wrong form is
stalled, as is any while the path is off or its burst cannot be armed, and none is answered while FWRDY is 0. R80: an erase makes its sector read
0xFF and leaves the rest, a program of erased bytes stores them, and a failed operation shows code 4. -/
def Obligations.UsbRequestsAreServed : Prop :=
  (∀ (a v : Word) (s : State), s.on SYS_STAGE_FWRDY = true → s.on SYS_PATH_ENUSB = true → a.toNat % 4 = 0 →
    (a.toNat ≠ 0x28 → (decodeFor 1 a.toNat).isSome = true → ∃ t, exec (.read32 1 ⟨a, 4⟩) s = .next t ∧
      t.sent = .readBytes .usb (leBytes 4 (peekWord .usb a.toNat s)) :: s.sent ∧ partsOnly [.sent] s t) ∧
    (∃ t, exec (.write32 ⟨a, 4⟩ v true) s = .next t ∧ exec (.registerWrite .usb a v) s = .next t) ∧
    exec (.write32 ⟨a, 4⟩ v false) s = .next s ∧
    (∀ n, burstLength n = true → s.on (SYS_DWCTL_BUSY 1) = false → burstFits a.toNat (n / 4) 1 = true →
      (∃ t d, exec (.dread a n) s = .next t ∧ t.sent = .readBytes .usb d :: s.sent ∧ d.length = n ∧ t.rd (SYS_DWCTL_BUSY 1) = 0 ∧
        t.rd (SYS_DWADDR_ADDR 1) = (a.toNat / 4 + n / 4) % 2 ^ 30)) ∧
    (s.on (SYS_DWCTL_BUSY 1) = false → (loadBurst a.toNat 1 true s).1 = true ∧
      exec (.dwrite a (leBytes 4 v.toNat) true) s = .next (windowAccess .usb (some v.toNat) (loadBurst a.toNat 1 true s).2).2) ∧
    exec (.dwrite a (leBytes 4 v.toNat) false) s = .next s ∧
    (s.on (SYS_DWCTL_BUSY 1) = true → (∃ t, exec (.dwrite a (leBytes 4 v.toNat) true) s = .next t ∧ t.sent = .stall :: s.sent ∧
        t.rd (SYS_DWCTL_ERR 1) = 1 ∧ t.rd (SYS_DWADDR_ADDR 1) = a.toNat / 4 ∧ leafSet t 25 1 ∧ t.mg.bursts = s.mg.bursts) ∧
      (∃ t, exec (.dread a 4) s = .next t ∧ t.sent = .stall :: s.sent ∧ t.rd (SYS_DWCTL_ERR 1) = 1 ∧
        t.rd (SYS_DWADDR_ADDR 1) = a.toNat / 4 ∧ leafSet t 25 1 ∧ t.mg.bursts = s.mg.bursts))) ∧
  (∀ (a v : Word) (r : Byte) (n : Nat) (s : State), s.on SYS_STAGE_FWRDY = true →
    (s.on SYS_PATH_ENUSB = false ∨ a.toNat % 4 ≠ 0 → exec (.read32 r ⟨a, n⟩) s = .next (s.emit .stall) ∧
      exec (.write32 ⟨a, n⟩ v true) s = .next (s.emit .stall) ∧ exec (.dread a n) s = .next (s.emit .stall) ∧
      exec (.flashRead a n) s = .next (s.emit .stall) ∧ exec (.flashErase ⟨a, n⟩ true) s = .next (s.emit .stall)) ∧
    (r ≠ 1 → exec (.read32 r ⟨a, n⟩) s = .next (s.emit .stall)) ∧
    (n ≠ 4 → exec (.read32 r ⟨a, n⟩) s = .next (s.emit .stall) ∧ exec (.write32 ⟨a, n⟩ v true) s = .next (s.emit .stall) ∧
      exec (.flashStat n) s = .next (s.emit .stall)) ∧
    (n ≠ 0 → exec (.flashErase ⟨a, n⟩ true) s = .next (s.emit .stall)) ∧
    (burstLength n = false → exec (.dread a n) s = .next (s.emit .stall) ∧ exec (.flashRead a n) s = .next (s.emit .stall))) ∧
  (∀ (a v : Word) (r : Byte) (n : Nat) (b : Bool) (s : State), s.on SYS_STAGE_FWRDY = false →
    ∃ t, onlyWrites [USB_MGT_SILENT] [] s t ∧ (treeRuns s = true → t.rd USB_MGT_SILENT = satInc 255 (s.rd USB_MGT_SILENT)) ∧
      exec (.read32 r ⟨a, n⟩) s = .next t ∧ exec (.write32 ⟨a, n⟩ v b) s = .next t ∧
      exec (.dread a n) s = .next t ∧ exec (.flashStat n) s = .next t ∧ exec (.flashErase ⟨a, n⟩ b) s = .next t) ∧
  (∀ (a : Word) (d : Bytes) (s : State), s.on SYS_STAGE_FWRDY = true → s.on SYS_PATH_ENUSB = true → s.mg.flashOp = none →
    (a.toNat % 65536 = 0 → a.toNat + 65536 ≤ s.mg.flashSize → protectedRange s a.toNat 65536 = false →
      ∃ t, exec (.flashErase ⟨a, 0⟩ true) s = .next t ∧ t.mg.flashOp = some { erase := true, off := a.toNat, data := [] } ∧ t.mg.flashStat = 1 ∧
        partsOnly [.mg] s t) ∧
    (a.toNat % 65536 = 0 → exec (.flashErase ⟨a, 0⟩ false) s = .next s) ∧
    (burstLength d.length = true → a.toNat % 4 = 0 → a.toNat % 65536 + d.length ≤ 65536 → a.toNat + d.length ≤ s.mg.flashSize →
      (protectedRange s a.toNat d.length = false → ∃ t, exec (.flashProg a d true) s = .next t ∧
        t.mg.flashOp = some { erase := false, off := a.toNat, data := d } ∧ t.mg.flashStat = 1 ∧ partsOnly [.mg] s t) ∧
      (protectedRange s a.toNat d.length = true → ∃ t, exec (.flashProg a d true) s = .next t ∧ t.mg.flashOp = none ∧
        t.mg.flashStat = 3 ∧ partsOnly [.mg] s t))) ∧
  (∀ (a : Word) (n : Nat) (s : State), s.on SYS_STAGE_FWRDY = true → s.on SYS_PATH_ENUSB = true →
    (burstLength n = true → a.toNat % 4 = 0 → a.toNat + n ≤ s.mg.flashSize → ∃ t, exec (.flashRead a n) s = .next t ∧
      t.sent = .readBytes .usb (flashBytes s a.toNat n) :: s.sent ∧ partsOnly [.sent] s t) ∧
    (∃ t, exec (.flashStat 4) s = .next t ∧ t.sent = .readBytes .usb (leBytes 4 s.mg.flashStat) :: s.sent ∧ partsOnly [.sent] s t)) ∧
  (∀ (o : FlashOp) (s : State), Canonical s → s.mg.flashOp = some o → o.reply = none →
    (o.erase = true → ∃ t, exec (.flashOpComplete true) s = .next t ∧ t.mg.flashOp = none ∧ t.mg.flashStat = 2 ∧
      (∀ x, memGet 0xFF t.flash x = if o.off ≤ x ∧ x < o.off + 65536 then 0xFF else memGet 0xFF s.flash x) ∧
      partsOnly [.flash, .mg, .freeCtr] s t) ∧
    (o.erase = false → (∀ k, k < o.data.length → memGet 0xFF s.flash (o.off + k) = 0xFF) →
      ∃ t, exec (.flashOpComplete true) s = .next t ∧ t.mg.flashOp = none ∧ t.mg.flashStat = 2 ∧
        flashBytes t o.off o.data.length = o.data ∧
        (∀ x, x < o.off ∨ o.off + o.data.length ≤ x → memGet 0xFF t.flash x = memGet 0xFF s.flash x) ∧
        partsOnly [.flash, .mg, .freeCtr] s t) ∧
    (∃ t, exec (.flashOpComplete false) s = .next t ∧ t.mg.flashOp = none ∧ t.mg.flashStat = 4 ∧
      (∀ x, x < o.off ∨ o.off + max 65536 o.data.length ≤ x → memGet 0xFF t.flash x = memGet 0xFF s.flash x) ∧
      partsOnly [.flash, .mg, .freeCtr] s t)) ∧
  (∀ (b : Bool) (s : State), s.mg.flashOp = none → exec (.flashOpComplete b) s = .next s)

/-- R81, R82: a management message of a tunnel that reaches is answered with its OP, TAG and address: READ with the words, WRITE once they
are written, or before a reset that it requests (R423), FLASH_READ with the bytes; a COUNT out of range is STATUS 2, an unaligned range STATUS 1,
a reserved OP STATUS 2; a flash operation begins, or is STATUS 3 while one runs, and is answered once it is done; while FWRDY is 0 a message is
held, and one on a tunnel that does not reach is discarded (R69, R71). R70: a message of a child goes on to the host, or, as a response to the
hub's own request, to its agent; an EVENT to both. -/
def Obligations.ManagementMessagesAreAnswered : Prop :=
  (∀ (c : Crown) (g n : Byte) (a w : Word) (d : Words) (s : State), tunReachable s c.val = true → pathEnabled s (tunPath c.val) = true →
    s.on SYS_STAGE_FWRDY = true → flashPending s c.val = false →
    (a.toNat % 4 = 0 → a.toNat ≠ 0x28 →
      ((decodeFor (tunPath c.val).idx a.toNat).isSome = true → ∃ t, exec (.read c g 1 a) s = .next t ∧
        t.sent = .mgmt c 0x81 g.toNat 0 1 a [BitVec.ofNat 32 (peekWord (tunPath c.val) a.toNat s)] :: s.sent ∧ partsOnly [.sent, .fb] s t) ∧
      (requestsReset a.toNat [w.toNat] = false → ∃ u t, exec (.registerWrite (tunPath c.val) a w) s = .next u ∧
        exec (.write c g 1 a [w]) s = .next t ∧ t.sent = .mgmt c 0x82 g.toNat 0 0 a [] :: u.sent ∧ partsOnly [.sent, .fb] u t) ∧
      (requestsReset a.toNat [w.toNat] = true → exec (.write c g 1 a [w]) s =
        .next (writeWords (tunPath c.val) a.toNat [w.toNat] (sendWaiting c.val (respond c 2 g.toNat 0 a [] s))))) ∧
    (goodCount n = false → ∃ t u, exec (.read c g n a) s = .next t ∧ t.sent = .mgmt c 0x81 g.toNat 2 0 a [] :: s.sent ∧
      partsOnly [.sent, .fb] s t ∧ exec (.write c g n a d) s = .next u ∧ u.sent = .mgmt c 0x82 g.toNat 2 0 a [] :: s.sent ∧
      partsOnly [.sent, .fb] s u) ∧
    (goodCount n = true → badRange a n.toNat = true → ∃ t u, exec (.read c g n a) s = .next t ∧
      t.sent = .mgmt c 0x81 g.toNat 1 0 a [] :: s.sent ∧ partsOnly [.sent, .fb] s t ∧ exec (.write c g n a d) s = .next u ∧
      u.sent = .mgmt c 0x82 g.toNat 1 0 a [] :: s.sent ∧ partsOnly [.sent, .fb] s u) ∧
    (a.toNat % 65536 = 0 → s.mg.flashOp = none → a.toNat + 65536 ≤ s.mg.flashSize → protectedRange s a.toNat 65536 = false →
      ∃ t, exec (.mgmtFlashErase c g 0 a) s = .next t ∧ t.mg.flashStat = 1 ∧
        t.mg.flashOp = some { erase := true, off := a.toNat, data := [], reply := some (c, 0x10, g.toNat, a) } ∧ partsOnly [.mg] s t) ∧
    (goodCount n = true → badRange a n.toNat = false → s.mg.flashOp = none → a.toNat + 4 * n.toNat ≤ s.mg.flashSize →
      d.length = n.toNat → protectedRange s a.toNat (4 * n.toNat) = false →
      ∃ t, exec (.mgmtFlashProg c g n a d) s = .next t ∧ t.mg.flashStat = 1 ∧
        t.mg.flashOp = some { erase := false, off := a.toNat, data := wordsBytes d, reply := some (c, 0x11, g.toNat, a) } ∧ partsOnly [.mg] s t) ∧
    (s.mg.flashOp.isSome = true → a.toNat % 65536 = 0 → ∃ t, exec (.mgmtFlashErase c g 0 a) s = .next t ∧
      t.sent = .mgmt c 0x90 g.toNat 3 0 a [] :: s.sent ∧ partsOnly [.sent, .fb] s t) ∧
    (goodCount n = true → badRange a n.toNat = false → a.toNat + 4 * n.toNat ≤ s.mg.flashSize →
      ∃ t, exec (.mgmtFlashRead c g n a) s = .next t ∧ partsOnly [.sent, .fb] s t ∧
        t.sent = .mgmt c 0x92 g.toNat 0 n.toNat a (bytesWords (flashBytes s a.toNat (4 * n.toNat))) :: s.sent) ∧
    (∀ op, requestForm op n = false → ∃ t, exec (.mgmtReservedOp c op g ⟨n, a⟩) s = .next t ∧
      t.sent = .mgmt c (op.toNat ||| 0x80) g.toNat 2 0 a [] :: s.sent ∧ partsOnly [.sent, .fb] s t)) ∧
  (∀ (b : Bool) (o : FlashOp) (c : Crown) (k g : Nat) (a : Word) (s : State), s.mg.flashOp = some o → o.reply = some (c, k, g, a) →
    tunReachable s c.val = true → pathEnabled s (tunPath c.val) = true →
    ∃ u, exec (.flashOpComplete b) s = .next (serveQueue c.val (respond c k g (if b then 0 else 5) a [] u)) ∧ u.mg.flashOp = none ∧
      u.mg.flashStat = (if b then 2 else 4) ∧ partsOnly [.flash, .mg, .freeCtr] s u) ∧
  (∀ (c : Crown) (g n : Byte) (a : Word) (d : Words) (s : State), tunReachable s c.val = false ∨ pathEnabled s (tunPath c.val) = false →
    exec (.read c g n a) s = .next s ∧ exec (.write c g n a d) s = .next s ∧ exec (.mgmtFlashErase c g n a) s = .next s ∧
      exec (.mgmtFlashProg c g n a d) s = .next s ∧ exec (.mgmtFlashRead c g n a) s = .next s ∧
      ∀ op, exec (.mgmtReservedOp c op g ⟨n, a⟩) s = .next s) ∧
  (∀ (c : Crown) (g n : Byte) (a : Word) (s : State), tunReachable s c.val = true → pathEnabled s (tunPath c.val) = true →
    s.on SYS_STAGE_FWRDY = false ∨ flashPending s c.val = true → (mget [] s.mg.held c.val).length < 16 →
    ∃ t, exec (.read c g n a) s = .next t ∧
      mget [] t.mg.held c.val = mget [] s.mg.held c.val ++ [.read c g n a] ∧ partsOnly [.mg] s t) ∧
  (∀ (p : CanPort) (b : Nat) (op g st n : Byte) (a : Word) (d : Words) (s : State), cascadeBase s p.val = some b →
    tunActive s (b + 1) = true →
    (op ≠ 5 → g.toNat < 0xC0 → exec (.cascadeMgmtResponse p op g st n a d) s =
      .next (s.emit (.relay false op.toNat g.toNat st.toNat n.toNat a d))) ∧
    (op ≠ 5 → 0xC0 ≤ g.toNat → op.toNat ≠ 0x81 ∨ st ≠ 0 → exec (.cascadeMgmtResponse p op g st n a d) s =
      .next (s.emit (.relay true op.toNat g.toNat st.toNat n.toNat a d))) ∧
    (op = 5 → ∃ t, exec (.cascadeMgmtResponse p op g st n a d) s = .next t ∧
      Out.relay false 5 g.toNat st.toNat n.toNat a d ∈ t.sent ∧ Out.relay true 5 g.toNat st.toNat n.toNat a d ∈ t.sent))

/-- R83, R84: a word of an I2C or SPI write commits as a write by P43 at the next address; an I2C target answers its own address alone; an I2C
read goes on from the address set and returns the registers' words, an SPI read follows four bytes that the spec leaves undefined; an unknown
command is not acknowledged, or answered with 0xFF bytes. -/
def Obligations.BoardTransfersReachRegisters : Prop :=
  (∀ (v : BitVec 7) (a w x : Word) (s : State), i2cAnswers s v = true →
    (∃ t, exec (.i2cWriteTransfer ⟨v, a⟩ (leBytes 4 w.toNat)) s = .next t ∧ exec (.registerWrite .p43 a w) s = .next t) ∧
    (∃ u t, exec (.i2cWriteTransfer ⟨v, a⟩ (leBytes 4 w.toNat ++ leBytes 4 x.toNat)) s = .next t ∧ exec (.registerWrite .p43 a w) s = .next u ∧
      exec (.registerWrite .p43 (a + 4) x) u = .next t) ∧
    (∃ t, exec (.i2cSetReadAddress ⟨v, a⟩) s = .next t ∧ t.mg.i2cAddr = wordAddr a ∧ partsOnly [.mg] s t)) ∧
  (∀ (v : BitVec 7) (a : Word) (d : Bytes) (n : Nat) (b : Byte) (s : State), v ≠ (if s.bt.asel then 0x3B else 0x3A) →
    exec (.i2cWriteTransfer ⟨v, a⟩ d) s = .next s ∧ exec (.i2cSetReadAddress ⟨v, a⟩) s = .next s ∧ exec (.i2cReadTransfer ⟨v, n⟩) s = .next s ∧
      exec (.i2cInvalidCommand ⟨v, b⟩) s = .next s) ∧
  (∀ (v : BitVec 7) (a : Word) (d : Bytes) (s : State), d.length < 4 → exec (.i2cWriteTransfer ⟨v, a⟩ d) s = .next s) ∧
  (∀ (v : BitVec 7) (s : State), i2cAnswers s v = true → scopeOf s .p43 = .whole → s.mg.i2cAddr < 2 ^ 32 → s.mg.i2cAddr ≠ 0x28 →
    (decodeFor 0 s.mg.i2cAddr).isSome = true → ∃ t, exec (.i2cReadTransfer ⟨v, 4⟩) s = .next t ∧
      t.sent = .readBytes .p43 (leBytes 4 (peekWord .p43 s.mg.i2cAddr s)) :: s.sent ∧ t.mg.i2cAddr = (s.mg.i2cAddr + 4) % 2 ^ 32 ∧
      partsOnly [.mg, .sent] s t) ∧
  (∀ (v : BitVec 7) (b : Byte) (s : State), i2cAnswers s v = true → b ≠ 1 → b ≠ 2 → ∃ t, exec (.i2cInvalidCommand ⟨v, b⟩) s = .next t ∧
    t.sent = .nack :: s.sent ∧ partsOnly [.sent] s t) ∧
  (∀ (a w : Word) (s : State), spiAnswers s = true → ∃ t, exec (.spiWriteFrame a (leBytes 4 w.toNat)) s = .next t ∧
    exec (.registerWrite .p43 a w) s = .next t) ∧
  (∀ (a : Word) (s : State), spiAnswers s = true → scopeOf s .p43 = .whole → wordAddr a ≠ 0x28 → (decodeFor 0 (wordAddr a)).isSome = true →
    ∃ t l, exec (.spiReadFrame a 4) s = .next t ∧ l.length = 4 ∧
      t.sent = .readBytes .p43 (l ++ leBytes 4 (peekWord .p43 (wordAddr a) s)) :: s.sent ∧ partsOnly [.freeCtr, .sent] s t) ∧
  (∀ (b : Byte) (n : Nat) (s : State), spiAnswers s = true → b ≠ 2 → b ≠ 0x0B → ∃ t, exec (.spiInvalidCommand b n) s = .next t ∧
    t.sent = .readBytes .p43 (List.replicate n 0xFF) :: s.sent ∧ partsOnly [.sent] s t)

/-- R85, R90, R91, R343: a report that is due goes out on its tunnel as an EVENT with the records of the pending leaves, or on EP1 at the next
token, with the next sequence number, and is then no longer due; EP1 repeats it until its ACK, which flips the toggle; with none due the
token is refused, and a halted endpoint stalls; the third token in succession that FWRDY leaves without an answer halts the endpoint. -/
def Obligations.EventReportsGoOut : Prop :=
  (∀ (c : Crown) (s : State), (if c.val = 0 then s.mg.tun0 else s.mg.tun1).due = true → tunCarries s c.val = true →
    s.on SYS_STAGE_FWRDY = true →
    ∃ t d, exec (.event c) s = .next t ∧ d = bytesWords (reportBytes s (s.rd SYS_EVMASK_TUN_MASK)
        ((if c.val = 0 then s.mg.tun0 else s.mg.tun1).seq % 256) 13) ∧ t.sent = .mgmt c 5 0 0 d.length 0 d :: s.sent ∧
      (if c.val = 0 then t.mg.tun0 else t.mg.tun1).due = false ∧
      (if c.val = 0 then t.mg.tun0 else t.mg.tun1).seq = ((if c.val = 0 then s.mg.tun0 else s.mg.tun1).seq + 1) % 256 ∧
      partsOnly [.mg, .sent, .fb] s t) ∧
  (∀ (c : Crown) (s : State), (if c.val = 0 then s.mg.tun0 else s.mg.tun1).due = false ∨ tunCarries s c.val = false ∨
    s.on SYS_STAGE_FWRDY = false → exec (.event c) s = .next s) ∧
  (∀ s : State, treeRuns s = true → s.on USB_MGT_CONF = true → s.on SYS_STAGE_FWRDY = true → s.on USB_MGT_EP1HALT = false →
    (s.mg.ep1Sent = none → s.mg.ep1.due = true → ∃ t d, exec .ep1InToken s = .next t ∧
      d = reportBytes s (s.rd SYS_EVMASK_EP1_MASK) (s.mg.ep1.seq % 256) ((ep1Size s - 8) / 8) ∧ t.sent = .ep1Report d :: s.sent ∧
      t.mg.ep1Sent = some d ∧ t.mg.ep1.due = false ∧ t.mg.ep1.seq = (s.mg.ep1.seq + 1) % 256 ∧ partsOnly [.mg, .sent] s t) ∧
    (s.mg.ep1Sent = none → s.mg.ep1.due = false → ∃ t, exec .ep1InToken s = .next t ∧ t.sent = .ep1Nak :: s.sent ∧
      partsOnly [.mg, .sent] s t) ∧
    (∀ d, s.mg.ep1Sent = some d → (∃ t, exec .ep1InToken s = .next t ∧ t.sent = .ep1Report d :: s.sent ∧ partsOnly [.mg, .sent] s t) ∧
      (∃ t, exec .ep1Ack s = .next t ∧ t.mg.ep1Sent = none ∧ (t.ut.toggle = !s.ut.toggle) ∧ partsOnly [.mg, .ut] s t))) ∧
  (∀ s : State, treeRuns s = true → s.on USB_MGT_CONF = true → s.on SYS_STAGE_FWRDY = true → s.on USB_MGT_EP1HALT = true →
    ∃ t, exec .ep1InToken s = .next t ∧ t.sent = .stall :: s.sent ∧ partsOnly [.mg, .sent] s t) ∧
  (∀ s : State, treeRuns s = true → s.on USB_MGT_CONF = true → s.on SYS_STAGE_FWRDY = false →
    ∃ t, exec .ep1InToken s = .next t ∧ t.rd USB_MGT_SILENT = satInc 255 (s.rd USB_MGT_SILENT) ∧
      (s.mg.ep1Silent = 2 → t.rd USB_MGT_EP1HALT = 1 ∧ leafSet t 19 7) ∧ onlyWrites [USB_MGT_SILENT, USB_MGT_EP1HALT, EVSTAT 19] [.mg] s t) ∧
  (∀ s : State, treeRuns s = false ∨ s.on USB_MGT_CONF = false → exec .ep1InToken s = .next s) ∧
  (∀ s : State, s.mg.ep1Sent = none → exec .ep1Ack s = .next s) ∧
  (∀ (u b : Nat) (s : State), (raise u b s).mg.ep1Sent = s.mg.ep1Sent ∧ (raise u b s).mg.ep1.seq = s.mg.ep1.seq ∧
    (s.mg.ep1.due = true → (raise u b s).mg.ep1.due = true))

/-! ### Configuration, the solver and the tunnel table (chapters 02 and 04) -/

/-- R47 to R53, R453, R481: a load records both headers' codes and streams the better candidate, or holds; a copy that passes goes into the
image store, one that fails gives way to the other or to hold; read errors fail the copy that streams; the configuration of the groves sets
LOADED and starts the settle timer, unless the start is denied or the budget is below BASE. -/
def Obligations.ImagesLoad : Prop :=
  (∀ s : State, s.on SYS_STAGE_FWRDY = true → engineRuns s = true → s.on CFG_STATUS_LOADED = false → s.on CFG_STATUS_HOLD = false →
    s.ld.doing = .idle → s.on KEY_VAULT_STHOLD = false → s.on KEY_VAULT_HALT = false →
    (headerResult s false ≠ 1 → headerResult s true ≠ 1 → ∃ t, exec .imageLoad s = .next t ∧ t.rd CFG_STATUS_HOLD = 1 ∧
      t.rd SYS_STAGE_HOLD = 1 ∧ t.rd CFG_STATUS_RESA = headerResult s false % 16 ∧ t.rd CFG_STATUS_RESB = headerResult s true % 16 ∧
      t.ld.doing = .idle) ∧
    (headerResult s false = 1 → headerResult s true ≠ 1 → ∃ t, exec .imageLoad s = .next t ∧ t.ld.doing = .streaming false false false ∧
      t.rd CFG_STATUS_RESA = 0 ∧ t.rd CFG_STATUS_RESB = headerResult s true % 16) ∧
    (headerResult s false ≠ 1 → headerResult s true = 1 → ∃ t, exec .imageLoad s = .next t ∧ t.ld.doing = .streaming true false false ∧
      t.rd CFG_STATUS_RESA = headerResult s false % 16 ∧ t.rd CFG_STATUS_RESB = 0) ∧
    (headerResult s false = 1 → headerResult s true = 1 → ∃ t, exec .imageLoad s = .next t ∧
      t.ld.doing = .streaming (preferB s (copyBase false) (copyBase true)) true false ∧ t.rd CFG_STATUS_RESA = 0 ∧
      t.rd CFG_STATUS_RESB = 0)) ∧
  (∀ s : State, s.on SYS_STAGE_FWRDY = true → engineRuns s = true → s.on CFG_STATUS_LOADED = false → s.on CFG_STATUS_HOLD = false →
    s.ld.doing = .idle → s.on KEY_VAULT_STHOLD = true ∨ s.on KEY_VAULT_HALT = true →
    ∃ t, exec .imageLoad s = .next t ∧ t.rd CFG_STATUS_HOLD = 1 ∧ t.ld.doing = .idle ∧ partsOnly [.regs, .ld, .kv] s t) ∧
  (∀ s : State, s.on CFG_STATUS_LOADED = true ∨ s.ld.doing ≠ .idle → exec .imageLoad s = .next s) ∧
  (∀ (b o x : Bool) (s : State), s.ld.doing = .streaming b o x →
    (∀ k im, streamCode s b = (k, some im) → ∃ t, exec .imageStreamComplete s = .next t ∧ t.ld.image = some im ∧
      t.ld.doing = .configuring ∧ t.rd (if b then CFG_STATUS_RESB else CFG_STATUS_RESA) = 1) ∧
    (∀ k, streamCode s b = (k, none) → o = true → ∃ t, exec .imageStreamComplete s = .next t ∧ t.ld.doing = .streaming (!b) false true ∧
      t.rd (if b then CFG_STATUS_RESB else CFG_STATUS_RESA) = k % 16) ∧
    (∀ k, streamCode s b = (k, none) → o = false → ∃ t, exec .imageStreamComplete s = .next t ∧ t.ld.doing = .idle ∧
      t.rd CFG_STATUS_HOLD = 1 ∧ t.rd (if b then CFG_STATUS_RESB else CFG_STATUS_RESA) = k % 16) ∧
    (∃ t, exec (.flashReadError b) s = .next t ∧ t.rd (if b then CFG_STATUS_RESB else CFG_STATUS_RESA) = 15 ∧
      t.ld.doing = (if o then .streaming (!b) false true else .idle)) ∧
    exec (.flashReadError (!b)) s = .next s) ∧
  (∀ (x : Bool) (a b : Bool) (s : State), s.ld.doing = .idle → s.ld.reload = none → s.ld.check = some (a, b) →
    ∃ t, exec (.flashReadError x) s = .next t ∧ t.ld.check = some (a || !x, b || x) ∧ partsOnly [.ld] s t) ∧
  (∀ (x : Bool) (s : State), s.ld.doing = .idle → s.ld.reload = none → s.ld.check = none → s.on SYS_STAGE_FWRDY = true →
    s.on CFG_STATUS_LOADED = false → s.on CFG_STATUS_HOLD = false →
    ∃ t, exec (.flashReadError x) s = .next t ∧ headerResult t x = 15 ∧ partsOnly [.ld] s t) ∧
  (∀ (im : Image) (s : State), s.ld.doing = .configuring → s.ld.image = some im → s.bt.retest = [] →
    (startDenied s = true → s.on PD_GLOB_DBDENY = false → ∃ t, exec .imageConfigComplete s = .next t ∧ t.rd PD_GLOB_DBDENY = 1 ∧
      leafSet t 18 8 ∧ onlyWrites [PD_GLOB_DBDENY, EVSTAT 18] [.mg] s t) ∧
    (startDenied s = false → beff s < baseMw s → ∃ t, exec .imageConfigComplete s = .next t ∧ t.rd PST_EXT_LOW = 1 ∧
      t.ld = s.ld ∧ t.rd CFG_STATUS_LOADED = s.rd CFG_STATUS_LOADED) ∧
    (startDenied s = false → baseMw s ≤ beff s → ∃ t, exec .imageConfigComplete s = .next t ∧ t.rd CFG_STATUS_LOADED = 1 ∧
      t.ld.doing = .idle ∧ t.rd SYS_SETTLE_PEND = 1 ∧ t.rd SYS_SETTLE_RUN = 1)) ∧
  (∀ s : State, s.ld.doing = .idle ∨ s.ld.image = none ∨ s.bt.retest ≠ [] → exec .imageConfigComplete s = .next s)

/-- R49, R55 to R58, R62, R66, R67: CHECK starts a check of both copies, whose end records their codes; ADVANCE raises the anti-rollback counter
to the lower of the two SVNs; GO takes a reload and its lock, or records why not, and a reserved GROVE leaves the field (R8); the staged image is judged at the commit, replaces the
running one, and a structural reload stays busy until its ports are set up. -/
def Obligations.ChecksAndSliceReloads : Prop :=
  (∀ (p : Path) (s : State), writable s p 0x40040 →
    (s.on CFG_RLDST_BUSY = false → s.ld.check = none → ∃ t, exec (.check p) s = .next t ∧ t.ld.check = some (false, false) ∧
      t.rd CFG_CTL_CHECK = 1 ∧ partsOnly [.regs, .ld, .kv] s t) ∧
    (s.on CFG_RLDST_BUSY = true ∨ s.ld.check.isSome = true → exec (.check p) s = .next s) ∧
    (s.on CFG_STATUS_LOADED = true → s.rd SYS_STAGE_STAGE = 2 → s.on CFG_STATUS_FALLBK = false →
      bits (s.rd FUSE_ARB_V) 5 0 < min (s.rd CFG_STATUS_SVN) (svnSerial s (firmwareBase (s.on RST_BOOT_FWCOPY))).1 →
      ∃ t, exec (.advance p) s = .next t ∧
        t.rd FUSE_ARB_V = (s.rd FUSE_ARB_V / 64 * 64 + min (s.rd CFG_STATUS_SVN) (svnSerial s (firmwareBase (s.on RST_BOOT_FWCOPY))).1) % 2 ^ 32 ∧
        onlyWrites [FUSE_ARB_V, FUSE_CRC_V] [.otp] s t) ∧
    (s.on CFG_STATUS_LOADED = false ∨ s.rd SYS_STAGE_STAGE ≠ 2 ∨ s.on CFG_STATUS_FALLBK = true → exec (.advance p) s = .next s) ∧
    (min (s.rd CFG_STATUS_SVN) (svnSerial s (firmwareBase (s.on RST_BOOT_FWCOPY))).1 ≤ bits (s.rd FUSE_ARB_V) 5 0 →
      exec (.advance p) s = .next s)) ∧
  (∀ (a b : Bool) (s : State), s.ld.check = some (a, b) → ∃ t, exec .checkComplete s = .next t ∧ t.ld.check = none ∧
    t.rd CFG_CTL_CHECK = 0 ∧ t.rd CFG_STATUS_RESA = (if a then 15 else copyCode s false % 16) ∧
    t.rd CFG_STATUS_RESB = (if b then 15 else copyCode s true % 16)) ∧
  (∀ s : State, s.ld.check = none → exec .checkComplete s = .next s) ∧
  (∀ (p : Path) (v : Word) (s : State), plainly s p 0x40044 → bits v.toNat 3 0 < 8 →
    (reloadCause s (bits v.toNat 3 0) = 0 → ∃ t, exec (.go p v) s = .next t ∧ t.rd CFG_RLDST_BUSY = 1 ∧ t.rd CFG_RLDST_CAUSE = 0 ∧
      t.ld.lock = some (bits v.toNat 3 0) ∧
      t.ld.reload = some { grove := bits v.toNat 3 0, copyB := !s.on CFG_STATUS_COPY, committed := false, ports := [] }) ∧
    (reloadCause s (bits v.toNat 3 0) ≠ 0 → ∃ t, exec (.go p v) s = .next t ∧ t.rd CFG_RLDST_REJ = 1 ∧
      t.rd CFG_RLDST_CAUSE = reloadCause s (bits v.toNat 3 0) ∧
      onlyWrites [CFG_RELOAD_GROVE, CFG_RLDST_REJ, CFG_RLDST_CAUSE] [] s t)) ∧
  (∀ (p : Path) (v : Word) (s : State), plainly s p 0x40044 → 8 ≤ bits v.toNat 3 0 →
    ∃ t, exec (.go p v) s = .next t ∧ t.rd CFG_RELOAD_GROVE = s.rd CFG_RELOAD_GROVE ∧ leafSet t 22 31) ∧
  (∀ (r : Reload) (old : Image) (s : State), s.ld.reload = some r → s.ld.image = some old → r.committed = false →
    (headerCode s r.copyB ≠ 1 ∨ (∃ k, streamCode s r.copyB = (k, none)) → ∃ t, exec .sliceReloadCommit s = .next t ∧
      t.rd CFG_RLDST_REJ = 1 ∧ t.rd CFG_RLDST_CAUSE = 4 ∧ t.rd CFG_RLDST_BUSY = 0 ∧ t.ld.reload = none ∧ t.ld.lock = none ∧
      t.ld.image = some old) ∧
    (∀ k new, headerCode s r.copyB = 1 → streamCode s r.copyB = (k, some new) →
      (stagedCause old k (some new) r.grove ≠ 0 → ∃ t, exec .sliceReloadCommit s = .next t ∧ t.rd CFG_RLDST_REJ = 1 ∧
        t.rd CFG_RLDST_CAUSE = stagedCause old k (some new) r.grove ∧ t.rd CFG_RLDST_BUSY = 0 ∧ t.ld.reload = none ∧ t.ld.lock = none ∧
        t.ld.image = some old) ∧
      (stagedCause old k (some new) r.grove = 0 → ∃ t, exec .sliceReloadCommit s = .next t ∧ t.ld.image = some new ∧
        (changedPorts old new r.grove = [] → t.ld.reload = none ∧ t.ld.lock = none ∧ t.rd CFG_RLDST_BUSY = 0) ∧
        (changedPorts old new r.grove ≠ [] →
          t.ld.reload = some { r with committed := true, ports := changedPorts old new r.grove } ∧ t.ld.lock = s.ld.lock)))) ∧
  (∀ (r : Reload) (im : Image) (s : State), s.ld.reload = some r → s.ld.image = some im → r.committed = true →
    (∃ t, exec .reloadReconfigComplete s = .next t ∧ t.rd CFG_RLDST_BUSY = 0 ∧ t.ld.reload = none ∧ t.ld.lock = none) ∧
    exec .sliceReloadCommit s = .next s) ∧
  (∀ s : State, s.ld.reload = none → exec .sliceReloadCommit s = .next s ∧ exec .reloadReconfigComplete s = .next s)

/-- R23, R24, R95, R115, R116, R117: when the settle timer expires the firmware samples the attached set and solves, unless an attach event of
the same cycle came before; the solve commits to the inactive
banks and arms the swap, which takes effect at a lead frame start at least two lines later, makes the plan the active one and sets SOLVED. A
change of HOSTSEL is a mode change. -/
def Obligations.SolvesCommitAndSwap : Prop :=
  (∀ s : State, s.sv.tied = false → holdsOff s 18 = false → s.on SYS_SETTLE_RUN = true → s.on SYS_STAGE_FWRDY = true → s.on CFG_STATUS_LOADED = true → engineRuns s = true →
    s.sv.sample = none → s.sv.commit = none → ∃ t, exec .settleTimerExpiry s = .next t ∧ t.sv.sample = some s.sv.att ∧
      t.rd PST_SOLVE_BUSY = 1 ∧ t.rd SYS_SETTLE_RUN = 0 ∧ t.rd SYS_SETTLE_PEND = 0) ∧
  (∀ s : State, s.sv.tied = true → ∃ t, exec .settleTimerExpiry s = .next t ∧ t.sv.tied = false ∧ partsOnly [.sv] s t) ∧
  (∀ s : State, s.sv.tied = false → s.on SYS_SETTLE_RUN = false ∨ s.on SYS_STAGE_FWRDY = false ∨ s.on CFG_STATUS_LOADED = false ∨ s.sv.sample.isSome = true ∨
    holdsOff s 18 = true →
    exec .settleTimerExpiry s = .next s) ∧
  (∀ (n : Nat) (a : NMap Partner) (s : State), s.sv.sample = some a → s.on SYS_STAGE_FWRDY = true → engineRuns s = true →
    s.sv.commit = none → ∃ t, exec (.solveCommit n) s = .next t ∧ t.sv.sample = none ∧ t.sv.commit.isSome = true ∧
      t.sv.committedAt = s.clock ∧ t.rd PST_SOLVE_BUSY = 0 ∧ t.rd PST_SOLVE_ARMED = 1 ∧ t.rd PST_SOLVE_TIME = min 255 n ∧
      t.sv.active = s.sv.active) ∧
  (∀ (n : Nat) (s : State), s.sv.sample = none ∨ s.on SYS_STAGE_FWRDY = false → exec (.solveCommit n) s = .next s) ∧
  (∀ (c : Commit) (s : State), s.sv.commit = some c → s.sc.lpos = 0 → 1000 * s.sv.committedAt + 2 * linePs s ≤ 1000 * s.clock →
    ∃ t, exec .tableSwap s = .next t ∧ t.sv.commit = none ∧ t.sv.active = c.plan ∧ t.rd PST_SOLVE_ARMED = 0 ∧
      t.rd PST_SOLVE_BANK = 1 - s.rd PST_SOLVE_BANK ∧ t.sv.stood = true ∧ leafSet t 25 2) ∧
  (∀ s : State, s.sv.commit = none ∨ s.sc.lpos ≠ 0 ∨ 1000 * s.clock < 1000 * s.sv.committedAt + 2 * linePs s →
    exec .tableSwap s = .next s) ∧
  (∀ (p : Path) (v : Word) (s : State), plainly s p 0x20804 →
    (v.toNat % 2 ^ 20 / 4 * 4 ≠ s.rd PST_HOSTSEL_SEL → ∃ t, exec (.hostselChange p v) s = .next t ∧
      t.rd PST_HOSTSEL_SEL = v.toNat % 2 ^ 20 / 4 * 4 ∧
      (s.on CFG_STATUS_LOADED = true → t.rd SYS_SETTLE_PEND = 1 ∧ t.rd SYS_SETTLE_RUN = 1) ∧
      onlyWrites [PST_HOSTSEL_SEL, SYS_SETTLE_PEND, SYS_SETTLE_RUN, SYS_GUARD_SETTLED] [.sv] s t) ∧
    (v.toNat % 2 ^ 20 / 4 * 4 = s.rd PST_HOSTSEL_SEL → exec (.hostselChange p v) s = .next s))

/-- R23, R123: a write to TT_LIMIT of an entry in ADMIT or ACTIVE places CEIL and FLOOR within its template, and a change is a mode change; the
shaper and meter parameters take a value within the template; a value outside leaves the field and sets TTWRERR; an entry in another state
takes none. -/
def Obligations.TunnelParametersStayInTheirTemplates : Prop :=
  (∀ (p : Path) (n : Tun) (v : Word) (m : Tmpl) (s : State), writable s p (0x400010 + 0x40 * n.val) → entryTmpl s n.val = some m →
    entryLive s n.val = true →
    (bits v.toNat 26 16 ≤ m.ceil → m.floor ≤ bits v.toNat 10 0 → bits v.toNat 10 0 ≤ bits v.toNat 26 16 →
      ∃ t, exec (.ttLimitWrite p n v) s = .next t ∧ t.rd (TT_LIMIT_CEIL n.val) = bits v.toNat 26 16 ∧
        t.rd (TT_LIMIT_FLOOR n.val) = bits v.toNat 10 0 ∧
        (bits v.toNat 26 16 ≠ s.rd (TT_LIMIT_CEIL n.val) ∨ bits v.toNat 10 0 ≠ s.rd (TT_LIMIT_FLOOR n.val) →
          s.on CFG_STATUS_LOADED = true → t.rd SYS_SETTLE_PEND = 1) ∧
        onlyWrites [TT_LIMIT_CEIL n.val, TT_LIMIT_FLOOR n.val, SYS_SETTLE_PEND, SYS_SETTLE_RUN, SYS_GUARD_SETTLED] [.sv] s t) ∧
    (m.ceil < bits v.toNat 26 16 → ∃ t, exec (.ttLimitWrite p n v) s = .next t ∧
      t.rd (TT_LIMIT_CEIL n.val) = s.rd (TT_LIMIT_CEIL n.val) ∧ leafSet t 16 16)) ∧
  (∀ (p : Path) (n : Tun) (v : Word) (m : Tmpl) (s : State), entryTmpl s n.val = some m → entryLive s n.val = true →
    (writable s p (0x400014 + 0x40 * n.val) → 128 ≤ v.toNat → v.toNat ≤ m.burst → ∃ t, exec (.ttParamWrite p n .shape v) s = .next t ∧
      t.rd (TT_SHAPE_BURST n.val) = v.toNat ∧ onlyWrites [TT_SHAPE_BURST n.val] [] s t) ∧
    (writable s p (0x400014 + 0x40 * n.val) → v.toNat < 128 ∨ m.burst < v.toNat → ∃ t, exec (.ttParamWrite p n .shape v) s = .next t ∧
      t.rd (TT_SHAPE_BURST n.val) = s.rd (TT_SHAPE_BURST n.val) ∧ leafSet t 16 16 ∧ onlyWrites [EVSTAT 16] [.mg] s t) ∧
    (writable s p (0x400018 + 0x40 * n.val) → bits v.toNat 10 0 ≤ m.cir → bits v.toNat 10 0 ≤ bits v.toNat 26 16 → bits v.toNat 26 16 ≤ m.pir →
      ∃ t, exec (.ttParamWrite p n .meter v) s = .next t ∧ t.rd (TT_METER_CIR n.val) = bits v.toNat 10 0 ∧
        t.rd (TT_METER_PIR n.val) = bits v.toNat 26 16 ∧ onlyWrites [TT_METER_CIR n.val, TT_METER_PIR n.val] [] s t) ∧
    (writable s p (0x40001C + 0x40 * n.val) → v.toNat ≤ m.cbs → ∃ t, exec (.ttParamWrite p n .cbs v) s = .next t ∧
      t.rd (TT_CBS_CBS n.val) = v.toNat ∧ onlyWrites [TT_CBS_CBS n.val] [] s t) ∧
    (writable s p (0x400020 + 0x40 * n.val) → v.toNat ≤ m.pbs → ∃ t, exec (.ttParamWrite p n .pbs v) s = .next t ∧
      t.rd (TT_PBS_PBS n.val) = v.toNat ∧ onlyWrites [TT_PBS_PBS n.val] [] s t)) ∧
  (∀ (p : Path) (n : Tun) (v : Word) (k : TtParam) (s : State), entryLive s n.val = false →
    (writable s p (0x400010 + 0x40 * n.val) → exec (.ttLimitWrite p n v) s = .next s) ∧
    (writable s p (0x400000 + 0x40 * n.val + ttOffset k) → exec (.ttParamWrite p n k v) s = .next s))

/-! ### Commands that a path's write gives (chapters 07 to 18) -/

/-- R182, R183, R190, R290, R318, R321, R322, R325: NSRC and the virtual raster take their values; a change of NSRC is a mode change, and a write of
the virtual raster while it is the source is declared as a geometry change, with the lead raster in holdover; an OVH waits for the swap, and one
that would break R31 is refused with OVHREJ, as is a MAXFRM; a frame store moves only while its pipe is OFF and nothing overlaps; EJREQ
acts as a press of the eject button; the PCP map takes indices that have a template; MAXFRM and PFCEN take their values. -/
def Obligations.SchedulerAndPortSettings : Prop :=
  (∀ (p : Path) (v : Word) (s : State), plainly s p 0xC0000 → bits v.toNat 23 20 ≤ 9 → ∃ t, exec (.nsrcWrite p v) s = .next t ∧
    t.rd SCHED_LEAD_NSRC = bits v.toNat 23 20 ∧
    (bits v.toNat 23 20 ≠ s.rd SCHED_LEAD_NSRC → s.on CFG_STATUS_LOADED = true → t.rd SYS_SETTLE_PEND = 1) ∧
    t.rd SCHED_LEAD_SRC = s.rd SCHED_LEAD_SRC) ∧
  (∀ (p : Path) (v : Word) (s : State), plainly s p 0xC0014 → 24000 ≤ bits v.toNat 31 14 → bits v.toNat 31 14 ≤ 240000 →
    2 ≤ bits v.toNat 12 0 → ∃ t, exec (.schedVirtWrite p v) s = .next t ∧ t.rd SCHED_VIRT_RATE = bits v.toNat 31 14 ∧
      t.rd SCHED_VIRT_VLINES = bits v.toNat 12 0 ∧
      (s.rd SCHED_LEAD_SRC = 9 → t.sc.changing = true ∧ t.rd SCHED_LEAD_STATE = 3 ∧ leafSet t 15 2 ∧
        (s.on CFG_STATUS_LOADED = true → t.rd SYS_SETTLE_PEND = 1))) ∧
  (∀ (p : Path) (q : Port) (v : Word) (s : State), plainly s p (portReg q.val 0x480 4) → bits v.toNat 26 24 ≤ 3 →
    (keepsR31 s q.val (bits v.toNat 9 0) (s.adp q.val).maxfrm = true →
      ∃ t, exec (.ovhWrite p q v) s = .next t ∧ t.rd (GRV_CALCTL_OVH q.val) = bits v.toNat 9 0 ∧ ovhOf t q.val = ovhOf s q.val ∧
        onlyWrites [GRV_CALCTL_TBSEL q.val, GRV_CALCTL_OVH q.val] [.sc] s t) ∧
    (keepsR31 s q.val (bits v.toNat 9 0) (s.adp q.val).maxfrm = false →
      ∃ t, exec (.ovhWrite p q v) s = .next t ∧ t.rd (GRV_CALCTL_OVH q.val) = s.rd (GRV_CALCTL_OVH q.val) ∧
        leafSet t (portGrove q.val) 9)) ∧
  (∀ (p : Path) (d : Pipe) (v : Word) (s : State), plainly s p (0x300020 + 0x10000 * d.val) →
    (pipeStateNow s d.val = 0 →
      overlaps (bits v.toNat 4 0 * 0x10000000) 0x10000000 (s.rd MEM_SPBASE_BASE * 0x8000000) (s.rd MEM_SPSIZE_SIZE * 0x8000000) = false →
      (∀ e, e < pipeCount (variant s) → e ≠ d.val →
        overlaps (bits v.toNat 4 0 * 0x10000000) 0x10000000 (storeBase s e) 0x10000000 = false) →
      ∃ t, exec (.fsbaseWrite p d v) s = .next t ∧ t.rd (PIPE_FSBASE_BASE d.val) = bits v.toNat 4 0 ∧
        onlyWrites [PIPE_FSBASE_BASE d.val] [] s t) ∧
    (pipeStateNow s d.val ≠ 0 → ∃ t, exec (.fsbaseWrite p d v) s = .next t ∧ leafSet t (9 + d.val) 8 ∧
      onlyWrites [EVSTAT (9 + d.val)] [.mg] s t)) ∧
  (∀ (p : Path) (q : Port) (s : State), writable s p (portReg q.val 0x3004 0x100) → persOf s q.val = 1 → s.rd (ADP_STAT_PERS q.val) = 1 →
    s.rd (ADP_STAT_STATE q.val) ≠ 1 → s.rd (ADP_STAT_STATE q.val) ≠ 6 → ∃ t, exec (.ejreq p q) s = .next t ∧
      (t.adp q.val).attention = true ∧ t.sent = .unit q.val "hot-plug interrupt" [] :: s.sent ∧ leafSet t (portGrove q.val) 19 ∧
      onlyWrites [EVSTAT (portGrove q.val)] [.sent, .mg, .ad] s t) ∧
  (∀ (p : Path) (q : Port) (v : Word) (s : State), plainly s p (portReg q.val 0x3008 0x100) → persEth (persOf s q.val) = true →
    (∀ k, k < 8 → ethTemplate s q.val (bits v.toNat (4 * k + 3) (4 * k)) = true) →
    ∃ t, exec (.ethmapWrite p q v) s = .next t ∧ (∀ k, k < 8 → t.rd (ADP_ETHMAP_PCP q.val k) = bits v.toNat (4 * k + 3) (4 * k)) ∧
      onlyWrites ((List.range 8).map (ADP_ETHMAP_PCP q.val)) [] s t) ∧
  (∀ (p : Path) (q : Port) (v : Word) (k : Nat) (s : State), plainly s p (portReg q.val 0x3008 0x100) → persEth (persOf s q.val) = true →
    k < 8 → ethTemplate s q.val (bits v.toNat (4 * k + 3) (4 * k)) = false →
    ∃ t, exec (.ethmapWrite p q v) s = .next t ∧ leafSet t (portGrove q.val) 21 ∧
      t.rd (ADP_ETHMAP_PCP q.val k) = s.rd (ADP_ETHMAP_PCP q.val k)) ∧
  (∀ (p : Path) (q : Port) (v : Word) (s : State), plainly s p (portReg q.val 0x300C 0x100) → persEth (persOf s q.val) = true →
    (∃ t, exec (.pfcenWrite p q v) s = .next t ∧ t.rd (ADP_ETHCTL_PFCEN q.val) = bits v.toNat 29 29 ∧
      (bits v.toNat 29 29 ≠ s.rd (ADP_ETHCTL_PFCEN q.val) → s.on CFG_STATUS_LOADED = true → t.rd SYS_SETTLE_PEND = 1)) ∧
    (1518 ≤ bits v.toNat 13 0 → bits v.toNat 13 0 ≤ 9216 →
      (keepsR31 s q.val (ovhOf s q.val) (bits v.toNat 13 0) = true →
        ∃ t, exec (.maxfrmWrite p q v) s = .next t ∧ t.rd (ADP_ETHCTL_MAXFRM q.val) = bits v.toNat 13 0) ∧
      (keepsR31 s q.val (ovhOf s q.val) (bits v.toNat 13 0) = false →
        ∃ t, exec (.maxfrmWrite p q v) s = .next t ∧ t.rd (ADP_ETHCTL_MAXFRM q.val) = s.rd (ADP_ETHCTL_MAXFRM q.val) ∧
          leafSet t (portGrove q.val) 9)))

/-- R218, R244, R260, R271, R272, R276: RETRAIN takes an active link down and trains it afresh, and restarts a bring-up from its first step; RTRN
retrains the cells of a running one, at once or, while a failover fences its grove, after it (R267); HOLD takes a cell's port down and holds it; test mode is entered only from HELD and left again; CLR clears the checker; an injection starts in test
mode or on a live link while the debug lock is unblown; and the parent's refusals are recorded with their leaf. -/
def Obligations.LinkAndLaneCommands : Prop :=
  (∀ (p : Path) (q : CanPort) (s : State), plainly s p (portReg q.val 0x600 4) → canActive s q.val = true →
    ∃ t, exec (.retrain p q) s = .next t ∧ canActive t q.val = false ∧ mfind t.sv.att q.val = none ∧ leafSet t (portGrove q.val) 12) ∧
  (∀ (p : Path) (q : CanPort) (s : State), plainly s p (portReg q.val 0x600 4) → canActive s q.val = false → bringingUp s q.val = true →
    (portCells q.val).any (fun c => !(s.lane c).faulted) = true →
    ∃ t, exec (.retrain p q) s = .next t ∧ t.rd (CAN_STAT_STATE q.val) = 1 ∧ (t.can q.val).entered = 1) ∧
  (∀ (c : Crown) (v : Word) (s : State), plainly s (tunPath c.val) (0x102004 + 0x10000 * c.val) →
    (bits v.toNat 14 0 ≠ s.rd (CAN_UPREF_REF c.val) → ∃ t, exec (.uprefWrite c v) s = .next t ∧
      t.rd (CAN_UPREF_REF c.val) = bits v.toNat 14 0 ∧ leafSet t c.val 16 ∧
      (s.on CFG_STATUS_LOADED = true → t.rd SYS_SETTLE_PEND = 1)) ∧
    (bits v.toNat 14 0 = s.rd (CAN_UPREF_REF c.val) → ∃ t, exec (.uprefWrite c v) s = .next t ∧ fieldsOnly [] s t)) ∧
  (∀ (p : Path) (c : LaneCell) (s : State), plainly s p (0x200000 + 0x1000 * c.val) → cellPort c.val < 8 →
    canRetrain s (cellPort c.val) = true →
    (portFenced s (cellPort c.val) = false → ∃ t, exec (.rtrn p c) s = .next t ∧
      ∀ d ∈ liveCells s (cellPort c.val), t.rd (LC_STAT_STATE d) = lcRETRAIN) ∧
    (portFenced s (cellPort c.val) = true → ∃ t, exec (.rtrn p c) s = .next t ∧ (t.can (cellPort c.val)).rtrn = true ∧
      ∀ d ∈ liveCells s (cellPort c.val), t.rd (LC_STAT_STATE d) = s.rd (LC_STAT_STATE d))) ∧
  (∀ (p : Path) (c : LaneCell) (s : State), plainly s p (0x200000 + 0x1000 * c.val) → s.rd (LC_CTL_RTRN c.val) = 0 →
    ((∀ d ∈ groupCells s (servedPort s c.val), s.rd (LC_CTL_HOLD d) = 0) → s.ld.image = none ∨ configured s (servedPort s c.val) = true →
      c.val ∈ groupCells s (servedPort s c.val) →
      (s.lane c.val).faulted = false → s.rd (LC_TEST_EN c.val) = 0 → ∃ t, exec (.hold p c true) s = .next t ∧ t.rd (LC_CTL_HOLD c.val) = 1 ∧
        t.rd (LC_STAT_STATE c.val) = 7 ∧ mfind t.sv.att (servedPort s c.val) = none) ∧
    (s.rd (LC_CTL_HOLD c.val) = 1 → ∃ t, exec (.hold p c false) s = .next t ∧ t.rd (LC_CTL_HOLD c.val) = 0)) ∧
  (∀ (p : Path) (c : LaneCell) (v : Word) (s : State), plainly s p (0x200020 + 0x1000 * c.val) →
    (bit v.toNat 31 = true → s.rd (LC_TEST_EN c.val) = 0 → s.rd (LC_CTL_HOLD c.val) = 1 → s.rd (LC_STAT_STATE c.val) = 7 →
      ∃ t, exec (.testEnable p c v) s = .next t ∧ t.rd (LC_TEST_EN c.val) = 1 ∧ t.rd (LC_STAT_STATE c.val) = 6) ∧
    (bit v.toNat 31 = true → s.rd (LC_TEST_EN c.val) = 0 → s.rd (LC_CTL_HOLD c.val) = 0 ∨ s.rd (LC_STAT_STATE c.val) ≠ 7 →
      ∃ t, exec (.testEnable p c v) s = .next t ∧ t.rd (LC_TEST_EN c.val) = 0 ∧ leafSet t (32 + c.val) 8) ∧
    (bit v.toNat 31 = false → s.rd (LC_TEST_EN c.val) = 1 → s.rd (LC_STAT_STATE c.val) = 6 →
      ∃ t, exec (.testEnable p c v) s = .next t ∧ t.rd (LC_TEST_EN c.val) = 0 ∧ t.rd (LC_STAT_STATE c.val) = 7) ∧
    (∃ t, exec (.clr p c) s = .next t ∧ t.rd (LC_CHKA_ERR c.val) = 0 ∧ t.rd (LC_CHKB_ERR c.val) = 0 ∧ t.rd (LC_CHKT_TIME c.val) = 0 ∧
      t.rd (LC_TEST_EN c.val) = s.rd (LC_TEST_EN c.val))) ∧
  (∀ (p : Path) (c : LaneCell) (v : Word) (s : State), plainly s p (0x200024 + 0x1000 * c.val) →
    (s.rd (LC_STAT_STATE c.val) = 6 ∨ s.rd (LC_STAT_STATE c.val) = lcUP ∧ debugLocked s = false →
      ∃ t, exec (.inject p c v) s = .next t ∧ t.rd (LC_INJ_GO c.val) = 1) ∧
    (s.rd (LC_STAT_STATE c.val) ≠ 6 → s.rd (LC_STAT_STATE c.val) ≠ lcUP ∨ debugLocked s = true →
      ∃ t, exec (.inject p c v) s = .next t ∧ t.rd (LC_INJ_GO c.val) = s.rd (LC_INJ_GO c.val) ∧ leafSet t (32 + c.val) 9))

/-- R355, R356, R358, R374: the integer part of an increment applies it with the fraction held; a base starts at once or is armed for an edge, stops,
and takes a load only while it stands; TAKE copies every base, the lead position and the frame count at once; LVLCLR ends a level. -/
def Obligations.TimeBaseCommands : Prop :=
  (∀ (p : Path) (n : TimeBase) (v : Word) (s : State),
    (plainly s p (0x50004 + 0x40 * n.val) → ∃ t, exec (.tbinciWrite p n v) s = .next t ∧ t.rd (TIM_TBINCI_NS n.val) = v.toNat % 256 ∧
      mget (2 ^ 32) t.incs n.val = v.toNat % 256 * 2 ^ 32 + s.rd (TIM_TBINCF_FRAC n.val) ∧ onlyWrites [TIM_TBINCI_NS n.val] [.incs, .sc] s t) ∧
    (plainly s p (0x50008 + 0x40 * n.val) → ∃ t, exec (.tbincfWrite p n v) s = .next t ∧ t.rd (TIM_TBINCF_FRAC n.val) = v.toNat ∧
      onlyWrites [TIM_TBINCF_FRAC n.val] [] s t)) ∧
  (∀ (p : Path) (n : TimeBase) (v : Word) (s : State), plainly s p (0x50000 + 0x40 * n.val) →
    (bit v.toNat 31 = true → bits v.toNat 30 27 = 0 → tbRunning s n.val = false → ∃ t, exec (.run p n v) s = .next t ∧
      t.rd (TIM_TBCTL_RUN n.val) = 1 ∧ t.rd (TIM_TBCTL_ARMED n.val) = 0 ∧ t.rd (TIM_TBWRAP_WRAPS n.val) = 0) ∧
    (bit v.toNat 31 = true → 8 ≤ bits v.toNat 30 27 → tbRunning s n.val = false → ∃ t, exec (.run p n v) s = .next t ∧
      t.rd (TIM_TBCTL_RUN n.val) = 1 ∧ t.rd (TIM_TBCTL_ARMED n.val) = 1 ∧ t.rd (TIM_TBWRAP_WRAPS n.val) = s.rd (TIM_TBWRAP_WRAPS n.val)) ∧
    (bit v.toNat 31 = true → tbRunning s n.val = true → ∃ t, exec (.run p n v) s = .next t ∧ tbRunning t n.val = true ∧
      t.rd (TIM_TBWRAP_WRAPS n.val) = s.rd (TIM_TBWRAP_WRAPS n.val)) ∧
    (bit v.toNat 31 = false → ∃ t, exec (.run p n v) s = .next t ∧ t.rd (TIM_TBCTL_RUN n.val) = 0 ∧ t.rd (TIM_TBCTL_ARMED n.val) = 0)) ∧
  (∀ (p : Path) (n : TimeBase) (b : Bool) (v : Word) (s : State), plainly s p ((if b then 0x50010 else 0x5000C) + 0x40 * n.val) →
    (tbRunning s n.val = false → ∃ t, exec (.tbldWrite p n b v) s = .next t ∧
      t.rd (if b then TIM_TBLDFR_FRAC n.val else TIM_TBLDNS_NS n.val) = v.toNat ∧
      mget 0 t.tb n.val = (if b then mget 0 s.tb n.val / 2 ^ 32 * 2 ^ 32 + v.toNat else v.toNat * 2 ^ 32 + mget 0 s.tb n.val % 2 ^ 32) ∧
      onlyWrites [if b then TIM_TBLDFR_FRAC n.val else TIM_TBLDNS_NS n.val] [.tb, .sc] s t) ∧
    (tbRunning s n.val = true → ∃ t, exec (.tbldWrite p n b v) s = .next t ∧ leafSet t 20 4 ∧ onlyWrites [EVSTAT 20] [.mg] s t)) ∧
  (∀ (p : Path) (s : State), writable s p 0x50200 → ∃ t, exec (.take p) s = .next t ∧
    (∀ n, n < 4 → t.rd (TIM_SNNS_NS n) = mget 0 s.tb n / 2 ^ 32 % 2 ^ 32 ∧ t.rd (TIM_SNFR_FRAC n) = mget 0 s.tb n % 2 ^ 32 ∧
      t.rd (TIM_SNWR_WRAPS n) = s.rd (TIM_TBWRAP_WRAPS n)) ∧
    t.rd TIM_SNRAS_POS = s.sc.lpos / 2 ^ 16 % 2 ^ 32 ∧ t.rd TIM_SNFRM_FRAME = s.rd SCHED_FRAME_COUNT ∧
    t.rd TIM_SNAP_TAKE = 0 ∧ partsOnly [.regs] s t) ∧
  (∀ (p : Path) (e : EvtPin) (s : State), plainly s p (0x50400 + 0x20 * e.val) → evtFn s e.val = 0 → (s.evt e.val).active = true →
    s.rd (TIM_EVCTL_MODE e.val) = 2 ∨ s.rd (TIM_EVCTL_MODE e.val) = 4 → ∃ t, exec (.lvlclr p e) s = .next t ∧
      (t.evt e.val).active = false ∧ t.sent = .pin "EVT" e.val (false == s.on (TIM_EVCTL_POL e.val)) :: s.sent)

/-- R400, R423, R425, R432, R459, R460, R468, R474, R482: an injected report is logged with INJ; COLD and WARM need the key, a wrong one is
KEYREJ, and a WARM during a fuse load waits for its end (R411); PRST takes the port down; a power-state request asks the participants, goes to Active at once, or is refused with 0xA; HRST and ERREC
act on an attached port; CLR clears a latch; BUDGET takes a value between 6,000 and CEIL. -/
def Obligations.ResetAndPowerCommands : Prop :=
  (∀ (p : Path) (v : Word) (s : State), plainly s p 0x1010C →
    (debugLocked s = true → exec (.fltinj p v) s = .next s) ∧
    (debugLocked s = false → bits v.toNat 27 24 = 1 → reportable 1 (bits v.toNat 7 0) s = true → recentReports s = [] →
      ∃ t, exec (.fltinj p v) s = .next t ∧ t.rd (RST_FLTLOG0_KIND (s.rd RST_FLTPTR_NEXT)) = 1 ∧
        t.rd (RST_FLTLOG0_INJ (s.rd RST_FLTPTR_NEXT)) = 1 ∧ t.rd (RST_FLTLOG0_UNIT (s.rd RST_FLTPTR_NEXT)) = bits v.toNat 7 0 ∧
        (t.lane (bits v.toNat 7 0)).faulted = true ∧ leafSet t 25 6)) ∧
  (∀ (p : Path) (v : Word) (s : State), plainly s p 0x10004 →
    (bits v.toNat 31 24 = 0xA5 → ∃ t, exec (.cold p v) s = .next t ∧ t.rd RST_CAUSE_SWCOLD = 1 ∧ t.rd SYS_STAGE_FWRDY = 0 ∧
      t.rd CFG_STATUS_LOADED = 0 ∧ ∀ n, n < 10 → t.rd (PC_STAT_STATE n) = s.rd (PC_STAT_STATE n)) ∧
    (bits v.toNat 31 24 = 0xA5 → bit v.toNat 2 = false → ¬(s.bt.srcs = [] ∧ s.bt.fusing = true ∧ 1 ≤ s.bt.released) →
      ∃ t, exec (.warm p v) s = .next t ∧
      t.rd (if p = .p43 then RST_CAUSE_SWWARM else RST_CAUSE_HOST) = 1 ∧ t.rd SYS_STAGE_FWRDY = 0 ∧ t.rd CFG_STATUS_LOADED = 0) ∧
    (bits v.toNat 31 24 = 0xA5 → bit v.toNat 2 = false → bit v.toNat 3 = false → s.bt.srcs = [] → s.bt.fusing = true → 1 ≤ s.bt.released →
      ∃ t, exec (.warm p v) s = .next t ∧ t.rd (if p = .p43 then RST_CAUSE_SWWARM else RST_CAUSE_HOST) = 1 ∧
      t.bt = { s.bt with later := s.bt.later ++ [if p = .p43 then 7 else 8] }) ∧
    (bits v.toNat 31 24 ≠ 0xA5 → bit v.toNat 3 = false → ∃ t, leafSet t 24 1 ∧ exec (.cold p v) s = .next t ∧
      onlyWrites [RST_CTL_PORT, EVSTAT 24] [.mg] s t) ∧
    (bit v.toNat 1 = false → bit v.toNat 2 = false → bits v.toNat 12 8 < 20 → configured s (bits v.toNat 12 8) = true →
      ∃ t, exec (.prst p v) s = .next t ∧ mfind t.sv.att (bits v.toNat 12 8) = none ∧ (t.eg (bits v.toNat 12 8)).waiting = true ∧
        t.rd RST_CAUSE_PORT = 1)) ∧
  (∀ (p : Path) (v : Word) (s : State), plainly s p 0x20000 → bits v.toNat 2 0 ≤ 4 → s.rd PST_PSSTAT_STATE < 3 →
    (s.rd PST_PSSTAT_PHASE = 0 → s.on SYS_STAGE_FWRDY = true → entryAllowed (s.rd PST_PSSTAT_STATE) (bits v.toNat 2 0) = true →
      (bits v.toNat 2 0 ≠ 0 → ∃ t, exec (.psRequest p v) s = .next t ∧ t.rd PST_PSSTAT_PHASE = 1 ∧ t.rd PST_PSSTAT_DEFERS = 0 ∧ t.ps.target = bits v.toNat 2 0 ∧
        t.ps.waiting = participants s) ∧
      (bits v.toNat 2 0 = 0 → ∃ t, exec (.psRequest p v) s = .next t ∧ t.rd PST_PSSTAT_STATE = 0 ∧ t.rd PST_PSCTL_GO = 0)) ∧
    (s.rd PST_PSSTAT_PHASE ≠ 0 ∨ s.on SYS_STAGE_FWRDY = true ∧ entryAllowed (s.rd PST_PSSTAT_STATE) (bits v.toNat 2 0) = false →
      ∃ t, exec (.psRequest p v) s = .next t ∧ t.rd PST_PSSTAT_WHO = 18 ∧ t.rd PST_PSSTAT_REASON = 0xA ∧
        (s.rd PST_PSSTAT_PHASE = 0 → t.rd PST_PSCTL_GO = 0) ∧ t.rd PST_PSSTAT_PHASE = s.rd PST_PSSTAT_PHASE ∧ t.rd PST_PSSTAT_STATE = s.rd PST_PSSTAT_STATE)) ∧
  (∀ (p : Path) (q : CanPort) (s : State), plainly s p (0x70000 + 0x40 * q.val) → attached s q.val = true →
    s.rd (PD_CTL_HRST q.val) = 0 → s.rd (PD_CTL_ERREC q.val) = 0 →
    ((s.pdp q.val).hards < 3 → ∃ t, exec (.hrst p q) s = .next t ∧ t.rd (PD_STAT_CONTR q.val) = 1 ∧
      t.rd (PD_CNT_HRST q.val) = satInc 255 (s.rd (PD_CNT_HRST q.val)) ∧ Out.pd q.val "Hard Reset" [] ∈ t.sent ∧ leafSet t 18 3) ∧
    (∃ t, exec (.errec p q) s = .next t ∧ t.rd (PD_STAT_CCST q.val) = 4 ∧
      t.rd (PD_CNT_ERREC q.val) = satInc 255 (s.rd (PD_CNT_ERREC q.val)) ∧ leafSet t 18 7)) ∧
  (∀ (p : Path) (n : Channel) (s : State), plainly s p (0x80000 + 0x20 * n.val) → s.rd (PC_STAT_STATE n.val) = 6 →
    mget 0 s.pw.latchedAt n.val ≠ s.clock + 1 → ∃ t, exec (.channelClr p n) s = .next t ∧ t.rd (PC_STAT_STATE n.val) ≠ 6 ∧
      (2 ≤ n.val → attached s (n.val - 2) = false → t.rd (PC_STAT_STATE n.val) = 0) ∧
      (2 ≤ n.val → asSource s (n.val - 2) = true → (s.pdp (n.val - 2)).erDue = false → t.rd (PC_STAT_STATE n.val) = 1)) ∧
  (∀ (p : Path) (v : Word) (s : State), plainly s p 0x20020 →
    (6000 ≤ bits v.toNat 15 0 → bits v.toNat 15 0 ≤ s.rd PST_CORE_CEIL → ∃ t, exec (.budgetWrite p v) s = .next t ∧
      t.rd PST_CORE_BUDGET = bits v.toNat 15 0 ∧
      (bits v.toNat 15 0 ≠ s.rd PST_CORE_BUDGET → s.on CFG_STATUS_LOADED = true → t.rd SYS_SETTLE_PEND = 1)) ∧
    (bits v.toNat 15 0 < 6000 ∨ s.rd PST_CORE_CEIL < bits v.toNat 15 0 → ∃ t, exec (.budgetWrite p v) s = .next t ∧
      t.rd PST_CORE_BUDGET = s.rd PST_CORE_BUDGET ∧ leafSet t 16 31 ∧ onlyWrites [EVSTAT 16] [.mg] s t))

/-! ### The key vault (chapter 19) -/

/-- R489, R494 to R502, R505: a command of a path that the free vault runs ends with its RESULT, BUSY clear, SEQ counted and DONE: LOAD brings the
current record's key into its slot; KEY_WRITE serves P43 alone under its policy; DESTROY empties a slot; ATTEST answers with the HMAC of its
message; ZEROISE empties every slot; a STORE whose record passes stays busy until it is programmed; while the vault is frozen or halted the
result is 11; behind a STORE, and while the vault holds new work off for a power state (R433), a command waits; and a busy path's write is
ignored (the model's choice, log entry 13). -/
def Obligations.KeyCommands : Prop :=
  (∀ (p : Path) (v : Word) (s : State), plainly s p 0x60000 → s.on (KEY_STAT_BUSY p.idx) = false → s.kv.storing = none → holdsOff s 16 = false → s.kv.waiting = [] →
    s.on KEY_VAULT_FROZEN = false → s.on KEY_VAULT_HALT = false →
    (s.on KEY_VAULT_KEKV = true → s.on KEY_VAULT_STHOLD = false → 1 ≤ bits v.toNat 15 8 → bits v.toNat 15 8 ≤ 4 →
      (∀ r x, keyRecord s (bits v.toNat 15 8) = some r → unwrapRecord s r = some x → ∃ t, exec (.load p v) s = .next t ∧
        t.rd (KEY_STAT_RESULT p.idx) = 1 ∧ t.rd (KEY_STAT_BUSY p.idx) = 0 ∧
        t.rd (KEY_STAT_SEQ p.idx) = (s.rd (KEY_STAT_SEQ p.idx) + 1) % 65536 ∧ t.rd (KEY_SLOT_STATE (1 + bits v.toNat 15 8)) = 2 ∧
        t.rd (KEY_SLOT_KEYID (1 + bits v.toNat 15 8)) = bits v.toNat 15 8 ∧
        mget [] t.kv.slots (1 + bits v.toNat 15 8) = x.drop 8 ∧ leafSet t 21 0) ∧
      (keyRecord s (bits v.toNat 15 8) = none → ∃ t, exec (.load p v) s = .next t ∧ t.rd (KEY_STAT_RESULT p.idx) = 7 ∧
        t.rd (KEY_STAT_BUSY p.idx) = 0 ∧ t.kv.slots = s.kv.slots ∧ leafSet t 21 0)) ∧
    (p = .p43 → bit (s.rd FUSE_KEYPOL_V) 0 = true → 2 ≤ bits v.toNat 20 16 → bits v.toNat 20 16 ≤ 5 →
      bits v.toNat 15 8 = 32 ∨ bits v.toNat 15 8 = 48 ∨ bits v.toNat 15 8 = 64 → ∃ t, exec (.keyWrite p v) s = .next t ∧
        t.rd (KEY_STAT_RESULT p.idx) = 1 ∧ t.rd (KEY_SLOT_STATE (bits v.toNat 20 16)) = 2 ∧
        t.rd (KEY_SLOT_LEN (bits v.toNat 20 16)) = bits v.toNat 15 8 ∧
        mget [] t.kv.slots (bits v.toNat 20 16) = keyData s p.idx (bits v.toNat 15 8)) ∧
    (p ≠ .p43 ∨ bit (s.rd FUSE_KEYPOL_V) 0 = false → ∃ t, exec (.keyWrite p v) s = .next t ∧ t.rd (KEY_STAT_RESULT p.idx) = 2 ∧
      t.kv.slots = s.kv.slots ∧ leafSet t 21 0) ∧
    (2 ≤ bits v.toNat 20 16 → bits v.toNat 20 16 ≤ 5 → ∃ t, exec (.destroy p v) s = .next t ∧ t.rd (KEY_STAT_RESULT p.idx) = 1 ∧
      t.rd (KEY_SLOT_STATE (bits v.toNat 20 16)) = 0 ∧ mget [] t.kv.slots (bits v.toNat 20 16) = [] ∧
      t.rd KEY_ZTAG_TAG = slotTag (bits v.toNat 20 16) [] % 2 ^ 32 ∧ leafSet t 21 0) ∧
    (s.on KEY_VAULT_KEKV = true → s.on KEY_VAULT_STHOLD = false → 2 ≤ bits v.toNat 20 16 → bits v.toNat 20 16 ≤ 5 → bits v.toNat 15 8 = 0 →
      s.on CFG_STATUS_LOADED = true → s.rd (KEY_SLOT_STATE (bits v.toNat 20 16)) = 2 → ∃ t, exec (.attest p v) s = .next t ∧
        t.rd (KEY_STAT_RESULT p.idx) = 1 ∧ ∀ j, j < 8 → t.rd (KEY_RESP_RESP p.idx j) =
          leAt (Config.hmac256 (slotKey s (bits v.toNat 20 16)) (attestMessage s (keyData s p.idx 32) 0)) (4 * j) 4 % 2 ^ 32) ∧
    (s.on KEY_VAULT_KEKV = true → s.on KEY_VAULT_STHOLD = false → recordCode s (keyData s p.idx 128) = 1 →
      (∀ b, currentRecord s (byteAt (keyData s p.idx 128) 4) = some b → leAt b 8 4 < leAt (keyData s p.idx 128) 8 4) →
      ∃ t, exec (.store p v) s = .next t ∧ t.kv.storing = some (p, keyData s p.idx 128) ∧ t.rd (KEY_STAT_BUSY p.idx) = 1 ∧
        t.flash = s.flash) ∧
    (s.on KEY_VAULT_KEKV = true → s.on KEY_VAULT_STHOLD = false → recordCode s (keyData s p.idx 128) ≠ 1 →
      ∃ t, exec (.store p v) s = .next t ∧ t.rd (KEY_STAT_RESULT p.idx) = recordCode s (keyData s p.idx 128) % 16 ∧
        t.rd (KEY_STAT_BUSY p.idx) = 0 ∧ t.kv.storing = none) ∧
    (∃ t, exec (.zeroise p) s = .next t ∧ t.rd (KEY_STAT_RESULT p.idx) = 1 ∧ (∀ n, n < 32 → t.rd (KEY_SLOT_STATE n) = 0) ∧
      t.rd RST_CAUSE_ZERO = 1 ∧ t.kv.zeroised = true ∧ leafSet t 21 3)) ∧
  (∀ (p : Path) (v : Word) (s : State), plainly s p 0x60000 → s.on (KEY_STAT_BUSY p.idx) = false → s.kv.storing = none → holdsOff s 16 = false → s.kv.waiting = [] →
    s.on KEY_VAULT_FROZEN = true ∨ s.on KEY_VAULT_HALT = true → ∃ t u, exec (.load p v) s = .next t ∧
      t.rd (KEY_STAT_RESULT p.idx) = 11 ∧ t.kv = s.kv ∧ exec (.zeroise p) s = .next u ∧ u.rd (KEY_STAT_RESULT p.idx) = 11 ∧ u.kv = s.kv) ∧
  (∀ (p : Path) (v : Word) (s : State), plainly s p 0x60000 → s.on (KEY_STAT_BUSY p.idx) = true →
    exec (.load p v) s = .next s ∧ exec (.keyWrite p v) s = .next s ∧ exec (.store p v) s = .next s ∧ exec (.destroy p v) s = .next s ∧
      exec (.attest p v) s = .next s ∧ exec (.zeroise p) s = .next s) ∧
  (∀ (p : Path) (v : Word) (s : State), plainly s p 0x60000 → s.on (KEY_STAT_BUSY p.idx) = false → s.kv.storing.isSome = true ∨ holdsOff s 16 = true →
    s.kv.waiting = [] → ∃ t, exec (.load p v) s = .next t ∧ t.kv.waiting = [p] ∧ t.rd (KEY_STAT_BUSY p.idx) = 1 ∧
      t.kv.slots = s.kv.slots)

/-- R494, R497: the end of a STORE programs its record with COMMIT and ends its command, or ends it with 12 and BLOBERR. R503, R504: an alarm is
latched with its source and counted; before KEY is released it is kept for that release; from there to Stand it sets STHOLD and stops a load,
which holds (R61); in Rest and Dormant it wakes the hub; under policy 1 every slot is emptied, under policy 2 the hub halts as well. -/
def Obligations.StoresEndAndAlarmsLatch : Prop :=
  (∀ (p : Path) (r : Bytes) (s : State), Canonical s → s.kv.storing = some (p, r) → s.kv.waiting = [] →
    (r.length = 128 → s.rd KEY_BLOB_NEXT ≠ 31 → ∃ t, exec (.storeComplete true) s = .next t ∧ t.kv.storing = none ∧
      t.rd (KEY_STAT_RESULT p.idx) = 1 ∧ t.rd (KEY_STAT_BUSY p.idx) = 0 ∧ t.rd KEY_BLOB_ERR = 0 ∧
      blobRecord t (32 * s.rd KEY_BLOB_PAGE + s.rd KEY_BLOB_NEXT) = r.take 124 ++ leBytes 4 0x5A5AA5A5 ∧ leafSet t 21 0) ∧
    (∃ t, exec (.storeComplete false) s = .next t ∧ t.kv.storing = none ∧ t.rd (KEY_STAT_RESULT p.idx) = 12 ∧
      t.rd (KEY_STAT_BUSY p.idx) = 0 ∧ t.rd KEY_BLOB_ERR = 1 ∧ t.flash = s.flash ∧ leafSet t 21 0)) ∧
  (∀ (ok : Bool) (s : State), s.kv.storing = none → exec (.storeComplete ok) s = .next s) ∧
  (∀ (k : Fin 4) (s : State), s.kv.storing = none → s.kv.waiting = [] → ∃ t, exec (.tamperAlarm k) s = .next t ∧
    t.rd KEY_TAMP_ALARM = 1 ∧ bit (t.rd KEY_TAMP_SRC) k.val = true ∧ t.rd KEY_TAMP_COUNT = satInc 255 (s.rd KEY_TAMP_COUNT) ∧
    (s.on KEY_TAMP_ALARM = false → leafSet t 21 2) ∧
    (s.rd PST_PSSTAT_STATE < 3 → s.bt.released < 2 → t.kv = { s.kv with alarmDue := true }) ∧
    (3 ≤ s.rd PST_PSSTAT_STATE → t.rd PST_PSSTAT_PHASE = 3 ∧ bit (t.rd PST_WAKEST_SRC) 7 = true) ∧
    (s.rd PST_PSSTAT_STATE < 3 → 2 ≤ s.bt.released → s.rd SYS_STAGE_STAGE < 2 → t.rd KEY_VAULT_STHOLD = 1 ∧ t.ld.check = none ∧
      (s.ld.doing ≠ .idle → t.rd CFG_STATUS_HOLD = 1 ∧ t.ld.doing = .idle)) ∧
    (2 ≤ s.bt.released ∨ 3 ≤ s.rd PST_PSSTAT_STATE →
      (1 ≤ tamperPolicy s → (∀ n, n < 32 → t.rd (KEY_SLOT_STATE n) = 0) ∧ t.rd RST_CAUSE_ZERO = 1 ∧ leafSet t 21 3) ∧
      (tamperPolicy s = 2 → t.rd KEY_VAULT_HALT = 1 ∧ t.rd CFG_STATUS_LOADED = 0)))

/-! ### Frames -/

/-- No command stops the block: each answers a next state in every state (log entry 3), which differs from the state before only in the
parts that the table `touches` gives the command. So no command touches the queue or the clock, and only the end of a flash operation and of
a STORE writes the boot flash (R80, R494). -/
def Obligations.EveryCommandKeepsWhatItDoesNotTouch : Prop :=
  ∀ (c : Instr) (s : State), ∃ t, exec c s = .next t ∧ partsOnly (touches c) s t
end

