-- ==== Sys2Proof/Laws/Maps.lean ====
section
/-! SUPPORT. Lemmas of the sparse maps and byte memories: what a read gives after a write, and that every operation keeps
the canonical form. -/

namespace Sys2Proof.Machine

/-- An insertion is seen at its key alone. -/
theorem mfind_mins {α : Type} (m : NMap α) (k j : Nat) (v : α) : mfind (mins m k v) j = if j = k then some v else mfind m j := by
  fun_induction mins m k v <;> grind [mfind]

/-- A deletion is seen at its key alone. -/
theorem mfind_mdel {α : Type} (m : NMap α) (k j : Nat) : mfind (mdel m k) j = if j = k then none else mfind m j := by
  induction m <;> grind [mfind, mdel]

theorem mget_mins {α : Type} (d : α) (m : NMap α) (k j : Nat) (v : α) : mget d (mins m k v) j = if j = k then v else mget d m j := by
  grind [mget, mfind_mins]

/-- What a map reads as after a write. -/
theorem mget_mput {α : Type} [DecidableEq α] (d : α) (m : NMap α) (k j : Nat) (v : α) :
    mget d (mput d m k v) j = if j = k then v else mget d m j := by
  grind [mget, mput, mfind_mins, mfind_mdel]

@[simp] theorem mget_mput_same {α : Type} [DecidableEq α] (d : α) (m : NMap α) (k : Nat) (v : α) : mget d (mput d m k v) k = v := by
  grind [mget_mput]

theorem mget_mput_ne {α : Type} [DecidableEq α] (d d' : α) (m : NMap α) (k j : Nat) (v : α) (h : j ≠ k) :
    mget d' (mput d m k v) j = mget d' m j := by
  grind [mget, mput, mfind_mins, mfind_mdel]

@[simp] theorem mget_mins_same {α : Type} (d : α) (m : NMap α) (k : Nat) (v : α) : mget d (mins m k v) k = v := by
  grind [mget_mins]

theorem mget_mins_ne {α : Type} (d : α) (m : NMap α) (k j : Nat) (v : α) (h : j ≠ k) : mget d (mins m k v) j = mget d m j := by
  grind [mget_mins]

/-! ### The canonical form -/

/-- The keys of a map rise strictly. -/
def keysRise {α : Type} (m : NMap α) : Prop := (m.map Prod.fst).Pairwise (· < ·)

theorem mwf_nil {α : Type} [DecidableEq α] (d : α) : mwf d ([] : NMap α) = true := by simp [mwf]

/-- The canonical form as a proposition: keys strictly rising, no default listed. -/
theorem mwf_iff {α : Type} [DecidableEq α] (d : α) (m : NMap α) : mwf d m = true ↔ keysRise m ∧ ∀ e ∈ m, e.2 ≠ d := by
  simp [mwf, keysRise]

/-- What an insertion lists. -/
theorem mem_mins {α : Type} (m : NMap α) (k : Nat) (v : α) (x : Nat × α) (h : x ∈ mins m k v) : x = (k, v) ∨ x ∈ m := by
  fun_induction mins m k v <;> grind

theorem rising_cons {α : Type} (e : Nat × α) (m : NMap α) : keysRise (e :: m) ↔ (∀ x ∈ m, e.1 < x.1) ∧ keysRise m := by
  simp [keysRise]

theorem rising_mins {α : Type} (m : NMap α) (k : Nat) (v : α) (h : keysRise m) : keysRise (mins m k v) := by
  fun_induction mins m k v with
  | case1 => simp [keysRise]
  | case2 e t h' => grind [rising_cons]
  | case3 e t h' h'' => grind [rising_cons]
  | case4 e t h' h'' ih =>
    rw [rising_cons] at *
    refine ⟨fun x hx => ?_, ih h.2⟩
    have := mem_mins t k v x hx
    grind

theorem rising_filter {α : Type} (m : NMap α) (p : Nat × α → Bool) (h : keysRise m) : keysRise (m.filter p) :=
  h.sublist (List.Sublist.map _ List.filter_sublist)

/-- A write to a map keeps its keys strictly rising. -/
theorem rising_mput {α : Type} [DecidableEq α] (d : α) (m : NMap α) (k : Nat) (v : α) (h : keysRise m) : keysRise (mput d m k v) := by
  unfold mput mdel
  split <;> simp only [rising_filter, rising_mins, h]

theorem mwf_filter {α : Type} [DecidableEq α] (d : α) (m : NMap α) (p : Nat × α → Bool) (h : mwf d m = true) : mwf d (m.filter p) = true := by
  grind [mwf_iff, rising_filter]

theorem mwf_mins {α : Type} [DecidableEq α] (d : α) (m : NMap α) (k : Nat) (v : α) (hv : v ≠ d) (h : mwf d m = true) :
    mwf d (mins m k v) = true := by
  rw [mwf_iff] at *
  refine ⟨rising_mins m k v h.1, fun x hx => ?_⟩
  have := mem_mins m k v x hx
  grind

/-- A write keeps the canonical form: giving a key the default drops it. -/
theorem mwf_mput {α : Type} [DecidableEq α] (d : α) (m : NMap α) (k : Nat) (v : α) (h : mwf d m = true) : mwf d (mput d m k v) = true := by
  grind [mput, mdel, mwf_filter, mwf_mins]

/-! ### Byte memories -/

/-- Storing bytes keeps the canonical form. -/
theorem mwf_memWrite (d : Byte) (m : NMap Byte) (a : Nat) (bs : Bytes) (h : mwf d m = true) : mwf d (memWrite d m a bs) = true := by
  induction bs generalizing m a with
  | nil => exact h
  | cons b t ih => exact ih _ _ (mwf_mput d m a b h)

/-- A byte outside the bytes stored reads as before. -/
theorem memGet_memWrite_outside (d : Byte) (m : NMap Byte) (a x : Nat) (bs : Bytes) (h : x < a ∨ a + bs.length ≤ x) :
    memGet d (memWrite d m a bs) x = memGet d m x := by
  induction bs generalizing m a with
  | nil => rfl
  | cons b t ih =>
    simp only [List.length_cons] at h
    rw [memWrite, ih _ _ (by omega)]
    exact mget_mput_ne d d m a x b (by omega)

/-- A byte stored reads back. -/
theorem memGet_memWrite_inside (d : Byte) (m : NMap Byte) (a i : Nat) (bs : Bytes) (h : i < bs.length) :
    memGet d (memWrite d m a bs) (a + i) = bs.getD i 0 := by
  induction bs generalizing m a i with
  | nil => simp at h
  | cons b t ih =>
    rw [memWrite]
    cases i with
    | zero => rw [memGet_memWrite_outside _ _ _ _ _ (by omega)]; simp [memGet]
    | succ j =>
      have := ih (mput d m a b) (a + 1) j (by simpa using h)
      rw [show a + (j + 1) = a + 1 + j by omega, this]
      simp

/-- A listed entry of a map whose keys rise is what its key finds. -/
theorem mfind_of_mem {α : Type} (m : NMap α) (e : Nat × α) (h : keysRise m) (he : e ∈ m) : mfind m e.1 = some e.2 := by
  induction m <;> grind [mfind, rising_cons]

/-- A key finds only what is listed at it. -/
theorem mem_of_mfind {α : Type} (m : NMap α) (k : Nat) (v : α) (h : mfind m k = some v) : (k, v) ∈ m := by
  fun_induction mfind m k <;> grind

/-- Two maps whose keys rise and that list the same entries are the same data. -/
theorem rising_ext {α : Type} (m n : NMap α) (hm : keysRise m) (hn : keysRise n) (h : ∀ e, e ∈ m ↔ e ∈ n) : m = n :=
  List.Perm.eq_of_pairwise (le := fun a b => a.1 < b.1) (fun a b _ _ x y => absurd (Nat.lt_trans x y) (Nat.lt_irrefl _))
    (by simpa [keysRise, List.pairwise_map] using hm) (by simpa [keysRise, List.pairwise_map] using hn)
    ((List.perm_ext_iff_of_nodup (hm.of_map _ fun _ _ => ne_of_apply_ne Prod.fst ∘ Nat.ne_of_lt)
      (hn.of_map _ fun _ _ => ne_of_apply_ne Prod.fst ∘ Nat.ne_of_lt)).2 h)

/-- What a canonical map lists is what it reads as, but for the default. -/
theorem mem_iff_mget {α : Type} [DecidableEq α] (d : α) (m : NMap α) (h : mwf d m = true) (e : Nat × α) :
    e ∈ m ↔ mget d m e.1 = e.2 ∧ e.2 ≠ d := by
  rw [mwf_iff] at h
  refine ⟨fun he => ⟨by simp [mget, mfind_of_mem m e h.1 he], h.2 e he⟩, fun ⟨h1, h2⟩ => mem_of_mfind m e.1 e.2 ?_⟩
  unfold mget at h1
  cases hf : mfind m e.1 <;> simp_all

/-- Two canonical maps that read alike at every key are the same data. -/
theorem mwf_ext {α : Type} [DecidableEq α] (d : α) (m n : NMap α) (hm : mwf d m = true) (hn : mwf d n = true)
    (h : ∀ k, mget d m k = mget d n k) : m = n :=
  rising_ext m n ((mwf_iff d m).1 hm).1 ((mwf_iff d n).1 hn).1 fun e => by rw [mem_iff_mget d m hm, mem_iff_mget d n hn, h]

end Sys2Proof.Machine
end

