-- ==== Sys2Proof/Laws/State.lean ====
section
/-! SUPPORT. The lemmas of the state's updates: what each leaves alone, and what the reads give after it. -/

namespace Sys2Proof.Machine

/-! ### Every component that an update does not name (all by rfl) -/

@[simp] theorem State.wr_rest (s : State) (f : Fld) (v : Nat) :
    (s.wr f v).pending = s.pending ∧ (s.wr f v).clock = s.clock ∧ (s.wr f v).freeCtr = s.freeCtr ∧ (s.wr f v).sent = s.sent ∧
    (s.wr f v).flash = s.flash ∧ (s.wr f v).dram = s.dram ∧ (s.wr f v).mg = s.mg ∧ (s.wr f v).ld = s.ld ∧ (s.wr f v).sv = s.sv ∧
    (s.wr f v).fb = s.fb ∧ (s.wr f v).sc = s.sc ∧ (s.wr f v).cr = s.cr ∧ (s.wr f v).cn = s.cn ∧ (s.wr f v).lc = s.lc ∧ (s.wr f v).ad = s.ad ∧
    (s.wr f v).tb = s.tb ∧ (s.wr f v).ck = s.ck ∧ (s.wr f v).ckp = s.ckp ∧ (s.wr f v).incs = s.incs ∧ (s.wr f v).pp = s.pp ∧ (s.wr f v).bt = s.bt ∧
    (s.wr f v).ev = s.ev ∧ (s.wr f v).ut = s.ut ∧ (s.wr f v).pd = s.pd ∧ (s.wr f v).pw = s.pw ∧ (s.wr f v).kv = s.kv ∧ (s.wr f v).ps = s.ps ∧
    (s.wr f v).ft = s.ft ∧ (s.wr f v).otp = s.otp := by
  and_intros <;> rfl

@[simp] theorem State.setB_rest (s : State) (f : Fld) (b : Bool) :
    (s.setB f b).pending = s.pending ∧ (s.setB f b).clock = s.clock ∧ (s.setB f b).freeCtr = s.freeCtr ∧ (s.setB f b).sent = s.sent ∧
    (s.setB f b).flash = s.flash ∧ (s.setB f b).dram = s.dram ∧ (s.setB f b).mg = s.mg ∧ (s.setB f b).ld = s.ld ∧ (s.setB f b).sv = s.sv ∧
    (s.setB f b).fb = s.fb ∧ (s.setB f b).sc = s.sc ∧ (s.setB f b).cr = s.cr ∧ (s.setB f b).cn = s.cn ∧ (s.setB f b).lc = s.lc ∧
    (s.setB f b).ad = s.ad ∧ (s.setB f b).tb = s.tb ∧ (s.setB f b).ck = s.ck ∧ (s.setB f b).ckp = s.ckp ∧ (s.setB f b).incs = s.incs ∧
    (s.setB f b).pp = s.pp ∧ (s.setB f b).bt = s.bt ∧ (s.setB f b).ev = s.ev ∧ (s.setB f b).ut = s.ut ∧ (s.setB f b).pd = s.pd ∧
    (s.setB f b).pw = s.pw ∧ (s.setB f b).kv = s.kv ∧ (s.setB f b).ps = s.ps ∧ (s.setB f b).ft = s.ft ∧ (s.setB f b).otp = s.otp := by
  and_intros <;> rfl

@[simp] theorem State.inc_rest (s : State) (f : Fld) :
    (s.inc f).pending = s.pending ∧ (s.inc f).clock = s.clock ∧ (s.inc f).freeCtr = s.freeCtr ∧ (s.inc f).sent = s.sent ∧ (s.inc f).flash = s.flash ∧
    (s.inc f).dram = s.dram ∧ (s.inc f).mg = s.mg ∧ (s.inc f).ld = s.ld ∧ (s.inc f).sv = s.sv ∧ (s.inc f).fb = s.fb ∧ (s.inc f).sc = s.sc ∧
    (s.inc f).cr = s.cr ∧ (s.inc f).cn = s.cn ∧ (s.inc f).lc = s.lc ∧ (s.inc f).ad = s.ad ∧ (s.inc f).tb = s.tb ∧ (s.inc f).ck = s.ck ∧
    (s.inc f).ckp = s.ckp ∧ (s.inc f).incs = s.incs ∧ (s.inc f).pp = s.pp ∧ (s.inc f).bt = s.bt ∧ (s.inc f).ev = s.ev ∧ (s.inc f).ut = s.ut ∧
    (s.inc f).pd = s.pd ∧ (s.inc f).pw = s.pw ∧ (s.inc f).kv = s.kv ∧ (s.inc f).ps = s.ps ∧ (s.inc f).ft = s.ft ∧ (s.inc f).otp = s.otp := by
  and_intros <;> rfl

@[simp] theorem State.incMod_rest (s : State) (f : Fld) :
    (s.incMod f).pending = s.pending ∧ (s.incMod f).clock = s.clock ∧ (s.incMod f).freeCtr = s.freeCtr ∧ (s.incMod f).sent = s.sent ∧
    (s.incMod f).flash = s.flash ∧ (s.incMod f).dram = s.dram ∧ (s.incMod f).mg = s.mg ∧ (s.incMod f).ld = s.ld ∧ (s.incMod f).sv = s.sv ∧
    (s.incMod f).fb = s.fb ∧ (s.incMod f).sc = s.sc ∧ (s.incMod f).cr = s.cr ∧ (s.incMod f).cn = s.cn ∧ (s.incMod f).lc = s.lc ∧
    (s.incMod f).ad = s.ad ∧ (s.incMod f).tb = s.tb ∧ (s.incMod f).ck = s.ck ∧ (s.incMod f).ckp = s.ckp ∧ (s.incMod f).incs = s.incs ∧
    (s.incMod f).pp = s.pp ∧ (s.incMod f).bt = s.bt ∧ (s.incMod f).ev = s.ev ∧ (s.incMod f).ut = s.ut ∧ (s.incMod f).pd = s.pd ∧
    (s.incMod f).pw = s.pw ∧ (s.incMod f).kv = s.kv ∧ (s.incMod f).ps = s.ps ∧ (s.incMod f).ft = s.ft ∧ (s.incMod f).otp = s.otp := by
  and_intros <;> rfl

@[simp] theorem State.emit_rest (s : State) (o : Out) :
    (s.emit o).pending = s.pending ∧ (s.emit o).regs = s.regs ∧ (s.emit o).clock = s.clock ∧ (s.emit o).freeCtr = s.freeCtr ∧
    (s.emit o).flash = s.flash ∧ (s.emit o).dram = s.dram ∧ (s.emit o).mg = s.mg ∧ (s.emit o).ld = s.ld ∧ (s.emit o).sv = s.sv ∧
    (s.emit o).fb = s.fb ∧ (s.emit o).sc = s.sc ∧ (s.emit o).cr = s.cr ∧ (s.emit o).cn = s.cn ∧ (s.emit o).lc = s.lc ∧ (s.emit o).ad = s.ad ∧
    (s.emit o).tb = s.tb ∧ (s.emit o).ck = s.ck ∧ (s.emit o).ckp = s.ckp ∧ (s.emit o).incs = s.incs ∧ (s.emit o).pp = s.pp ∧ (s.emit o).bt = s.bt ∧
    (s.emit o).ev = s.ev ∧ (s.emit o).ut = s.ut ∧ (s.emit o).pd = s.pd ∧ (s.emit o).pw = s.pw ∧ (s.emit o).kv = s.kv ∧ (s.emit o).ps = s.ps ∧
    (s.emit o).ft = s.ft ∧ (s.emit o).otp = s.otp := by
  and_intros <;> rfl

@[simp] theorem State.setFlow_rest (s : State) (n : Nat) (x : Flow) :
    (s.setFlow n x).pending = s.pending ∧ (s.setFlow n x).regs = s.regs ∧ (s.setFlow n x).clock = s.clock ∧ (s.setFlow n x).freeCtr = s.freeCtr ∧
    (s.setFlow n x).sent = s.sent ∧ (s.setFlow n x).flash = s.flash ∧ (s.setFlow n x).dram = s.dram ∧ (s.setFlow n x).mg = s.mg ∧
    (s.setFlow n x).ld = s.ld ∧ (s.setFlow n x).sv = s.sv ∧ (s.setFlow n x).sc = s.sc ∧ (s.setFlow n x).cr = s.cr ∧ (s.setFlow n x).cn = s.cn ∧
    (s.setFlow n x).lc = s.lc ∧ (s.setFlow n x).ad = s.ad ∧ (s.setFlow n x).tb = s.tb ∧ (s.setFlow n x).ck = s.ck ∧ (s.setFlow n x).ckp = s.ckp ∧
    (s.setFlow n x).incs = s.incs ∧ (s.setFlow n x).pp = s.pp ∧ (s.setFlow n x).bt = s.bt ∧ (s.setFlow n x).ev = s.ev ∧ (s.setFlow n x).ut = s.ut ∧
    (s.setFlow n x).pd = s.pd ∧ (s.setFlow n x).pw = s.pw ∧ (s.setFlow n x).kv = s.kv ∧ (s.setFlow n x).ps = s.ps ∧ (s.setFlow n x).ft = s.ft ∧
    (s.setFlow n x).otp = s.otp := by
  and_intros <;> rfl

@[simp] theorem State.setIngress_rest (s : State) (n : Nat) (x : List Seg) :
    (s.setIngress n x).pending = s.pending ∧ (s.setIngress n x).regs = s.regs ∧ (s.setIngress n x).clock = s.clock ∧
    (s.setIngress n x).freeCtr = s.freeCtr ∧ (s.setIngress n x).sent = s.sent ∧ (s.setIngress n x).flash = s.flash ∧
    (s.setIngress n x).dram = s.dram ∧ (s.setIngress n x).mg = s.mg ∧ (s.setIngress n x).ld = s.ld ∧ (s.setIngress n x).sv = s.sv ∧
    (s.setIngress n x).sc = s.sc ∧ (s.setIngress n x).cr = s.cr ∧ (s.setIngress n x).cn = s.cn ∧ (s.setIngress n x).lc = s.lc ∧
    (s.setIngress n x).ad = s.ad ∧ (s.setIngress n x).tb = s.tb ∧ (s.setIngress n x).ck = s.ck ∧ (s.setIngress n x).ckp = s.ckp ∧
    (s.setIngress n x).incs = s.incs ∧ (s.setIngress n x).pp = s.pp ∧ (s.setIngress n x).bt = s.bt ∧ (s.setIngress n x).ev = s.ev ∧
    (s.setIngress n x).ut = s.ut ∧ (s.setIngress n x).pd = s.pd ∧ (s.setIngress n x).pw = s.pw ∧ (s.setIngress n x).kv = s.kv ∧
    (s.setIngress n x).ps = s.ps ∧ (s.setIngress n x).ft = s.ft ∧ (s.setIngress n x).otp = s.otp := by
  and_intros <;> rfl

@[simp] theorem State.setSecond_rest (s : State) (n : Nat) (x : List Seg) :
    (s.setSecond n x).pending = s.pending ∧ (s.setSecond n x).regs = s.regs ∧ (s.setSecond n x).clock = s.clock ∧
    (s.setSecond n x).freeCtr = s.freeCtr ∧ (s.setSecond n x).sent = s.sent ∧ (s.setSecond n x).flash = s.flash ∧ (s.setSecond n x).dram = s.dram ∧
    (s.setSecond n x).mg = s.mg ∧ (s.setSecond n x).ld = s.ld ∧ (s.setSecond n x).sv = s.sv ∧ (s.setSecond n x).sc = s.sc ∧
    (s.setSecond n x).cr = s.cr ∧ (s.setSecond n x).cn = s.cn ∧ (s.setSecond n x).lc = s.lc ∧ (s.setSecond n x).ad = s.ad ∧
    (s.setSecond n x).tb = s.tb ∧ (s.setSecond n x).ck = s.ck ∧ (s.setSecond n x).ckp = s.ckp ∧ (s.setSecond n x).incs = s.incs ∧
    (s.setSecond n x).pp = s.pp ∧ (s.setSecond n x).bt = s.bt ∧ (s.setSecond n x).ev = s.ev ∧ (s.setSecond n x).ut = s.ut ∧
    (s.setSecond n x).pd = s.pd ∧ (s.setSecond n x).pw = s.pw ∧ (s.setSecond n x).kv = s.kv ∧ (s.setSecond n x).ps = s.ps ∧
    (s.setSecond n x).ft = s.ft ∧ (s.setSecond n x).otp = s.otp := by
  and_intros <;> rfl

@[simp] theorem State.setTx_rest (s : State) (n : Nat) (x : List Seg) :
    (s.setTx n x).pending = s.pending ∧ (s.setTx n x).regs = s.regs ∧ (s.setTx n x).clock = s.clock ∧ (s.setTx n x).freeCtr = s.freeCtr ∧
    (s.setTx n x).sent = s.sent ∧ (s.setTx n x).flash = s.flash ∧ (s.setTx n x).dram = s.dram ∧ (s.setTx n x).mg = s.mg ∧ (s.setTx n x).ld = s.ld ∧
    (s.setTx n x).sv = s.sv ∧ (s.setTx n x).sc = s.sc ∧ (s.setTx n x).cr = s.cr ∧ (s.setTx n x).cn = s.cn ∧ (s.setTx n x).lc = s.lc ∧
    (s.setTx n x).ad = s.ad ∧ (s.setTx n x).tb = s.tb ∧ (s.setTx n x).ck = s.ck ∧ (s.setTx n x).ckp = s.ckp ∧ (s.setTx n x).incs = s.incs ∧
    (s.setTx n x).pp = s.pp ∧ (s.setTx n x).bt = s.bt ∧ (s.setTx n x).ev = s.ev ∧ (s.setTx n x).ut = s.ut ∧ (s.setTx n x).pd = s.pd ∧
    (s.setTx n x).pw = s.pw ∧ (s.setTx n x).kv = s.kv ∧ (s.setTx n x).ps = s.ps ∧ (s.setTx n x).ft = s.ft ∧ (s.setTx n x).otp = s.otp := by
  and_intros <;> rfl

@[simp] theorem State.setInter_rest (s : State) (n : Nat) (x : Inter) :
    (s.setInter n x).pending = s.pending ∧ (s.setInter n x).regs = s.regs ∧ (s.setInter n x).clock = s.clock ∧ (s.setInter n x).freeCtr = s.freeCtr ∧
    (s.setInter n x).sent = s.sent ∧ (s.setInter n x).flash = s.flash ∧ (s.setInter n x).dram = s.dram ∧ (s.setInter n x).mg = s.mg ∧
    (s.setInter n x).ld = s.ld ∧ (s.setInter n x).sv = s.sv ∧ (s.setInter n x).sc = s.sc ∧ (s.setInter n x).cr = s.cr ∧ (s.setInter n x).cn = s.cn ∧
    (s.setInter n x).lc = s.lc ∧ (s.setInter n x).ad = s.ad ∧ (s.setInter n x).tb = s.tb ∧ (s.setInter n x).ck = s.ck ∧
    (s.setInter n x).ckp = s.ckp ∧ (s.setInter n x).incs = s.incs ∧ (s.setInter n x).pp = s.pp ∧ (s.setInter n x).bt = s.bt ∧
    (s.setInter n x).ev = s.ev ∧ (s.setInter n x).ut = s.ut ∧ (s.setInter n x).pd = s.pd ∧ (s.setInter n x).pw = s.pw ∧ (s.setInter n x).kv = s.kv ∧
    (s.setInter n x).ps = s.ps ∧ (s.setInter n x).ft = s.ft ∧ (s.setInter n x).otp = s.otp := by
  and_intros <;> rfl

@[simp] theorem State.setOutPos_rest (s : State) (n : Nat) (x : OutPos) :
    (s.setOutPos n x).pending = s.pending ∧ (s.setOutPos n x).regs = s.regs ∧ (s.setOutPos n x).clock = s.clock ∧
    (s.setOutPos n x).freeCtr = s.freeCtr ∧ (s.setOutPos n x).sent = s.sent ∧ (s.setOutPos n x).flash = s.flash ∧ (s.setOutPos n x).dram = s.dram ∧
    (s.setOutPos n x).mg = s.mg ∧ (s.setOutPos n x).ld = s.ld ∧ (s.setOutPos n x).sv = s.sv ∧ (s.setOutPos n x).sc = s.sc ∧
    (s.setOutPos n x).cr = s.cr ∧ (s.setOutPos n x).cn = s.cn ∧ (s.setOutPos n x).lc = s.lc ∧ (s.setOutPos n x).ad = s.ad ∧
    (s.setOutPos n x).tb = s.tb ∧ (s.setOutPos n x).ck = s.ck ∧ (s.setOutPos n x).ckp = s.ckp ∧ (s.setOutPos n x).incs = s.incs ∧
    (s.setOutPos n x).pp = s.pp ∧ (s.setOutPos n x).bt = s.bt ∧ (s.setOutPos n x).ev = s.ev ∧ (s.setOutPos n x).ut = s.ut ∧
    (s.setOutPos n x).pd = s.pd ∧ (s.setOutPos n x).pw = s.pw ∧ (s.setOutPos n x).kv = s.kv ∧ (s.setOutPos n x).ps = s.ps ∧
    (s.setOutPos n x).ft = s.ft ∧ (s.setOutPos n x).otp = s.otp := by
  and_intros <;> rfl

@[simp] theorem State.setEg_rest (s : State) (n : Nat) (x : Egress) :
    (s.setEg n x).pending = s.pending ∧ (s.setEg n x).regs = s.regs ∧ (s.setEg n x).clock = s.clock ∧ (s.setEg n x).freeCtr = s.freeCtr ∧
    (s.setEg n x).sent = s.sent ∧ (s.setEg n x).flash = s.flash ∧ (s.setEg n x).dram = s.dram ∧ (s.setEg n x).mg = s.mg ∧ (s.setEg n x).ld = s.ld ∧
    (s.setEg n x).sv = s.sv ∧ (s.setEg n x).sc = s.sc ∧ (s.setEg n x).cr = s.cr ∧ (s.setEg n x).cn = s.cn ∧ (s.setEg n x).lc = s.lc ∧
    (s.setEg n x).ad = s.ad ∧ (s.setEg n x).tb = s.tb ∧ (s.setEg n x).ck = s.ck ∧ (s.setEg n x).ckp = s.ckp ∧ (s.setEg n x).incs = s.incs ∧
    (s.setEg n x).pp = s.pp ∧ (s.setEg n x).bt = s.bt ∧ (s.setEg n x).ev = s.ev ∧ (s.setEg n x).ut = s.ut ∧ (s.setEg n x).pd = s.pd ∧
    (s.setEg n x).pw = s.pw ∧ (s.setEg n x).kv = s.kv ∧ (s.setEg n x).ps = s.ps ∧ (s.setEg n x).ft = s.ft ∧ (s.setEg n x).otp = s.otp := by
  and_intros <;> rfl

@[simp] theorem State.setSpill_rest (s : State) (n : Nat) (x : List SPage) :
    (s.setSpill n x).pending = s.pending ∧ (s.setSpill n x).regs = s.regs ∧ (s.setSpill n x).clock = s.clock ∧ (s.setSpill n x).freeCtr = s.freeCtr ∧
    (s.setSpill n x).sent = s.sent ∧ (s.setSpill n x).flash = s.flash ∧ (s.setSpill n x).dram = s.dram ∧ (s.setSpill n x).mg = s.mg ∧
    (s.setSpill n x).ld = s.ld ∧ (s.setSpill n x).sv = s.sv ∧ (s.setSpill n x).sc = s.sc ∧ (s.setSpill n x).cr = s.cr ∧ (s.setSpill n x).cn = s.cn ∧
    (s.setSpill n x).lc = s.lc ∧ (s.setSpill n x).ad = s.ad ∧ (s.setSpill n x).tb = s.tb ∧ (s.setSpill n x).ck = s.ck ∧
    (s.setSpill n x).ckp = s.ckp ∧ (s.setSpill n x).incs = s.incs ∧ (s.setSpill n x).pp = s.pp ∧ (s.setSpill n x).bt = s.bt ∧
    (s.setSpill n x).ev = s.ev ∧ (s.setSpill n x).ut = s.ut ∧ (s.setSpill n x).pd = s.pd ∧ (s.setSpill n x).pw = s.pw ∧ (s.setSpill n x).kv = s.kv ∧
    (s.setSpill n x).ps = s.ps ∧ (s.setSpill n x).ft = s.ft ∧ (s.setSpill n x).otp = s.otp := by
  and_intros <;> rfl

@[simp] theorem State.setCredit_rest (s : State) (n : Nat) (x : Credit) :
    (s.setCredit n x).pending = s.pending ∧ (s.setCredit n x).regs = s.regs ∧ (s.setCredit n x).clock = s.clock ∧
    (s.setCredit n x).freeCtr = s.freeCtr ∧ (s.setCredit n x).sent = s.sent ∧ (s.setCredit n x).flash = s.flash ∧ (s.setCredit n x).dram = s.dram ∧
    (s.setCredit n x).mg = s.mg ∧ (s.setCredit n x).ld = s.ld ∧ (s.setCredit n x).sv = s.sv ∧ (s.setCredit n x).fb = s.fb ∧
    (s.setCredit n x).sc = s.sc ∧ (s.setCredit n x).cn = s.cn ∧ (s.setCredit n x).lc = s.lc ∧ (s.setCredit n x).ad = s.ad ∧
    (s.setCredit n x).tb = s.tb ∧ (s.setCredit n x).ck = s.ck ∧ (s.setCredit n x).ckp = s.ckp ∧ (s.setCredit n x).incs = s.incs ∧
    (s.setCredit n x).pp = s.pp ∧ (s.setCredit n x).bt = s.bt ∧ (s.setCredit n x).ev = s.ev ∧ (s.setCredit n x).ut = s.ut ∧
    (s.setCredit n x).pd = s.pd ∧ (s.setCredit n x).pw = s.pw ∧ (s.setCredit n x).kv = s.kv ∧ (s.setCredit n x).ps = s.ps ∧
    (s.setCredit n x).ft = s.ft ∧ (s.setCredit n x).otp = s.otp := by
  and_intros <;> rfl

@[simp] theorem State.setCan_rest (s : State) (n : Nat) (x : Can) :
    (s.setCan n x).pending = s.pending ∧ (s.setCan n x).regs = s.regs ∧ (s.setCan n x).clock = s.clock ∧ (s.setCan n x).freeCtr = s.freeCtr ∧
    (s.setCan n x).sent = s.sent ∧ (s.setCan n x).flash = s.flash ∧ (s.setCan n x).dram = s.dram ∧ (s.setCan n x).mg = s.mg ∧
    (s.setCan n x).ld = s.ld ∧ (s.setCan n x).sv = s.sv ∧ (s.setCan n x).fb = s.fb ∧ (s.setCan n x).sc = s.sc ∧ (s.setCan n x).cr = s.cr ∧
    (s.setCan n x).lc = s.lc ∧ (s.setCan n x).ad = s.ad ∧ (s.setCan n x).tb = s.tb ∧ (s.setCan n x).ck = s.ck ∧ (s.setCan n x).ckp = s.ckp ∧
    (s.setCan n x).incs = s.incs ∧ (s.setCan n x).pp = s.pp ∧ (s.setCan n x).bt = s.bt ∧ (s.setCan n x).ev = s.ev ∧ (s.setCan n x).ut = s.ut ∧
    (s.setCan n x).pd = s.pd ∧ (s.setCan n x).pw = s.pw ∧ (s.setCan n x).kv = s.kv ∧ (s.setCan n x).ps = s.ps ∧ (s.setCan n x).ft = s.ft ∧
    (s.setCan n x).otp = s.otp := by
  and_intros <;> rfl

@[simp] theorem State.setLane_rest (s : State) (n : Nat) (x : Lane) :
    (s.setLane n x).pending = s.pending ∧ (s.setLane n x).regs = s.regs ∧ (s.setLane n x).clock = s.clock ∧ (s.setLane n x).freeCtr = s.freeCtr ∧
    (s.setLane n x).sent = s.sent ∧ (s.setLane n x).flash = s.flash ∧ (s.setLane n x).dram = s.dram ∧ (s.setLane n x).mg = s.mg ∧
    (s.setLane n x).ld = s.ld ∧ (s.setLane n x).sv = s.sv ∧ (s.setLane n x).fb = s.fb ∧ (s.setLane n x).sc = s.sc ∧ (s.setLane n x).cr = s.cr ∧
    (s.setLane n x).cn = s.cn ∧ (s.setLane n x).ad = s.ad ∧ (s.setLane n x).tb = s.tb ∧ (s.setLane n x).ck = s.ck ∧ (s.setLane n x).ckp = s.ckp ∧
    (s.setLane n x).incs = s.incs ∧ (s.setLane n x).pp = s.pp ∧ (s.setLane n x).bt = s.bt ∧ (s.setLane n x).ev = s.ev ∧ (s.setLane n x).ut = s.ut ∧
    (s.setLane n x).pd = s.pd ∧ (s.setLane n x).pw = s.pw ∧ (s.setLane n x).kv = s.kv ∧ (s.setLane n x).ps = s.ps ∧ (s.setLane n x).ft = s.ft ∧
    (s.setLane n x).otp = s.otp := by
  and_intros <;> rfl

@[simp] theorem State.setPipe_rest (s : State) (n : Nat) (x : PipeSt) :
    (s.setPipe n x).pending = s.pending ∧ (s.setPipe n x).regs = s.regs ∧ (s.setPipe n x).clock = s.clock ∧ (s.setPipe n x).freeCtr = s.freeCtr ∧
    (s.setPipe n x).sent = s.sent ∧ (s.setPipe n x).flash = s.flash ∧ (s.setPipe n x).dram = s.dram ∧ (s.setPipe n x).mg = s.mg ∧
    (s.setPipe n x).ld = s.ld ∧ (s.setPipe n x).sv = s.sv ∧ (s.setPipe n x).fb = s.fb ∧ (s.setPipe n x).sc = s.sc ∧ (s.setPipe n x).cr = s.cr ∧
    (s.setPipe n x).cn = s.cn ∧ (s.setPipe n x).lc = s.lc ∧ (s.setPipe n x).ad = s.ad ∧ (s.setPipe n x).tb = s.tb ∧ (s.setPipe n x).ck = s.ck ∧
    (s.setPipe n x).ckp = s.ckp ∧ (s.setPipe n x).incs = s.incs ∧ (s.setPipe n x).bt = s.bt ∧ (s.setPipe n x).ev = s.ev ∧ (s.setPipe n x).ut = s.ut ∧
    (s.setPipe n x).pd = s.pd ∧ (s.setPipe n x).pw = s.pw ∧ (s.setPipe n x).kv = s.kv ∧ (s.setPipe n x).ps = s.ps ∧ (s.setPipe n x).ft = s.ft ∧
    (s.setPipe n x).otp = s.otp := by
  and_intros <;> rfl

@[simp] theorem State.setEvt_rest (s : State) (n : Nat) (x : Evt) :
    (s.setEvt n x).pending = s.pending ∧ (s.setEvt n x).regs = s.regs ∧ (s.setEvt n x).clock = s.clock ∧ (s.setEvt n x).freeCtr = s.freeCtr ∧
    (s.setEvt n x).sent = s.sent ∧ (s.setEvt n x).flash = s.flash ∧ (s.setEvt n x).dram = s.dram ∧ (s.setEvt n x).mg = s.mg ∧
    (s.setEvt n x).ld = s.ld ∧ (s.setEvt n x).sv = s.sv ∧ (s.setEvt n x).fb = s.fb ∧ (s.setEvt n x).sc = s.sc ∧ (s.setEvt n x).cr = s.cr ∧
    (s.setEvt n x).cn = s.cn ∧ (s.setEvt n x).lc = s.lc ∧ (s.setEvt n x).ad = s.ad ∧ (s.setEvt n x).tb = s.tb ∧ (s.setEvt n x).ck = s.ck ∧
    (s.setEvt n x).ckp = s.ckp ∧ (s.setEvt n x).incs = s.incs ∧ (s.setEvt n x).pp = s.pp ∧ (s.setEvt n x).bt = s.bt ∧ (s.setEvt n x).ut = s.ut ∧
    (s.setEvt n x).pd = s.pd ∧ (s.setEvt n x).pw = s.pw ∧ (s.setEvt n x).kv = s.kv ∧ (s.setEvt n x).ps = s.ps ∧ (s.setEvt n x).ft = s.ft ∧
    (s.setEvt n x).otp = s.otp := by
  and_intros <;> rfl

@[simp] theorem State.setTree_rest (s : State) (n : Nat) (x : TreeP) :
    (s.setTree n x).pending = s.pending ∧ (s.setTree n x).regs = s.regs ∧ (s.setTree n x).clock = s.clock ∧ (s.setTree n x).freeCtr = s.freeCtr ∧
    (s.setTree n x).sent = s.sent ∧ (s.setTree n x).flash = s.flash ∧ (s.setTree n x).dram = s.dram ∧ (s.setTree n x).mg = s.mg ∧
    (s.setTree n x).ld = s.ld ∧ (s.setTree n x).sv = s.sv ∧ (s.setTree n x).fb = s.fb ∧ (s.setTree n x).sc = s.sc ∧ (s.setTree n x).cr = s.cr ∧
    (s.setTree n x).cn = s.cn ∧ (s.setTree n x).lc = s.lc ∧ (s.setTree n x).ad = s.ad ∧ (s.setTree n x).tb = s.tb ∧ (s.setTree n x).ck = s.ck ∧
    (s.setTree n x).ckp = s.ckp ∧ (s.setTree n x).incs = s.incs ∧ (s.setTree n x).pp = s.pp ∧ (s.setTree n x).bt = s.bt ∧ (s.setTree n x).ev = s.ev ∧
    (s.setTree n x).pd = s.pd ∧ (s.setTree n x).pw = s.pw ∧ (s.setTree n x).kv = s.kv ∧ (s.setTree n x).ps = s.ps ∧ (s.setTree n x).ft = s.ft ∧
    (s.setTree n x).otp = s.otp := by
  and_intros <;> rfl

@[simp] theorem State.setPdp_rest (s : State) (n : Nat) (x : PdPort) :
    (s.setPdp n x).pending = s.pending ∧ (s.setPdp n x).regs = s.regs ∧ (s.setPdp n x).clock = s.clock ∧ (s.setPdp n x).freeCtr = s.freeCtr ∧
    (s.setPdp n x).sent = s.sent ∧ (s.setPdp n x).flash = s.flash ∧ (s.setPdp n x).dram = s.dram ∧ (s.setPdp n x).mg = s.mg ∧
    (s.setPdp n x).ld = s.ld ∧ (s.setPdp n x).sv = s.sv ∧ (s.setPdp n x).fb = s.fb ∧ (s.setPdp n x).sc = s.sc ∧ (s.setPdp n x).cr = s.cr ∧
    (s.setPdp n x).cn = s.cn ∧ (s.setPdp n x).lc = s.lc ∧ (s.setPdp n x).ad = s.ad ∧ (s.setPdp n x).tb = s.tb ∧ (s.setPdp n x).ck = s.ck ∧
    (s.setPdp n x).ckp = s.ckp ∧ (s.setPdp n x).incs = s.incs ∧ (s.setPdp n x).pp = s.pp ∧ (s.setPdp n x).bt = s.bt ∧ (s.setPdp n x).ev = s.ev ∧
    (s.setPdp n x).ut = s.ut ∧ (s.setPdp n x).pw = s.pw ∧ (s.setPdp n x).kv = s.kv ∧ (s.setPdp n x).ps = s.ps ∧ (s.setPdp n x).ft = s.ft ∧
    (s.setPdp n x).otp = s.otp := by
  and_intros <;> rfl

@[simp] theorem State.setAdp_rest (s : State) (n : Nat) (x : Adapter) :
    (s.setAdp n x).pending = s.pending ∧ (s.setAdp n x).regs = s.regs ∧ (s.setAdp n x).clock = s.clock ∧ (s.setAdp n x).freeCtr = s.freeCtr ∧
    (s.setAdp n x).sent = s.sent ∧ (s.setAdp n x).flash = s.flash ∧ (s.setAdp n x).dram = s.dram ∧ (s.setAdp n x).mg = s.mg ∧
    (s.setAdp n x).ld = s.ld ∧ (s.setAdp n x).sv = s.sv ∧ (s.setAdp n x).fb = s.fb ∧ (s.setAdp n x).sc = s.sc ∧ (s.setAdp n x).cr = s.cr ∧
    (s.setAdp n x).cn = s.cn ∧ (s.setAdp n x).lc = s.lc ∧ (s.setAdp n x).tb = s.tb ∧ (s.setAdp n x).ck = s.ck ∧ (s.setAdp n x).ckp = s.ckp ∧
    (s.setAdp n x).incs = s.incs ∧ (s.setAdp n x).pp = s.pp ∧ (s.setAdp n x).bt = s.bt ∧ (s.setAdp n x).ev = s.ev ∧ (s.setAdp n x).ut = s.ut ∧
    (s.setAdp n x).pd = s.pd ∧ (s.setAdp n x).pw = s.pw ∧ (s.setAdp n x).kv = s.kv ∧ (s.setAdp n x).ps = s.ps ∧ (s.setAdp n x).ft = s.ft ∧
    (s.setAdp n x).otp = s.otp := by
  and_intros <;> rfl

@[simp] theorem State.setPin_rest (s : State) (n v : Nat) :
    (s.setPin n v).pending = s.pending ∧ (s.setPin n v).regs = s.regs ∧ (s.setPin n v).clock = s.clock ∧ (s.setPin n v).freeCtr = s.freeCtr ∧
    (s.setPin n v).sent = s.sent ∧ (s.setPin n v).flash = s.flash ∧ (s.setPin n v).dram = s.dram ∧ (s.setPin n v).mg = s.mg ∧
    (s.setPin n v).ld = s.ld ∧ (s.setPin n v).sv = s.sv ∧ (s.setPin n v).fb = s.fb ∧ (s.setPin n v).sc = s.sc ∧ (s.setPin n v).cr = s.cr ∧
    (s.setPin n v).cn = s.cn ∧ (s.setPin n v).lc = s.lc ∧ (s.setPin n v).ad = s.ad ∧ (s.setPin n v).tb = s.tb ∧ (s.setPin n v).ck = s.ck ∧
    (s.setPin n v).ckp = s.ckp ∧ (s.setPin n v).incs = s.incs ∧ (s.setPin n v).pp = s.pp ∧ (s.setPin n v).ev = s.ev ∧ (s.setPin n v).ut = s.ut ∧
    (s.setPin n v).pd = s.pd ∧ (s.setPin n v).pw = s.pw ∧ (s.setPin n v).kv = s.kv ∧ (s.setPin n v).ps = s.ps ∧ (s.setPin n v).ft = s.ft ∧
    (s.setPin n v).otp = s.otp := by
  and_intros <;> rfl

@[simp] theorem State.setSv_rest (s : State) (x : Solver) :
    (s.setSv x).pending = s.pending ∧ (s.setSv x).regs = s.regs ∧ (s.setSv x).clock = s.clock ∧ (s.setSv x).freeCtr = s.freeCtr ∧
    (s.setSv x).sent = s.sent ∧ (s.setSv x).flash = s.flash ∧ (s.setSv x).dram = s.dram ∧ (s.setSv x).mg = s.mg ∧ (s.setSv x).ld = s.ld ∧
    (s.setSv x).fb = s.fb ∧ (s.setSv x).sc = s.sc ∧ (s.setSv x).cr = s.cr ∧ (s.setSv x).cn = s.cn ∧ (s.setSv x).lc = s.lc ∧ (s.setSv x).ad = s.ad ∧
    (s.setSv x).tb = s.tb ∧ (s.setSv x).ck = s.ck ∧ (s.setSv x).ckp = s.ckp ∧ (s.setSv x).incs = s.incs ∧ (s.setSv x).pp = s.pp ∧
    (s.setSv x).bt = s.bt ∧ (s.setSv x).ev = s.ev ∧ (s.setSv x).ut = s.ut ∧ (s.setSv x).pd = s.pd ∧ (s.setSv x).pw = s.pw ∧ (s.setSv x).kv = s.kv ∧
    (s.setSv x).ps = s.ps ∧ (s.setSv x).ft = s.ft ∧ (s.setSv x).otp = s.otp := by
  and_intros <;> rfl

@[simp] theorem State.setPs_rest (s : State) (x : PsReq) :
    (s.setPs x).pending = s.pending ∧ (s.setPs x).regs = s.regs ∧ (s.setPs x).clock = s.clock ∧ (s.setPs x).freeCtr = s.freeCtr ∧
    (s.setPs x).sent = s.sent ∧ (s.setPs x).flash = s.flash ∧ (s.setPs x).dram = s.dram ∧ (s.setPs x).mg = s.mg ∧ (s.setPs x).ld = s.ld ∧
    (s.setPs x).sv = s.sv ∧ (s.setPs x).fb = s.fb ∧ (s.setPs x).sc = s.sc ∧ (s.setPs x).cr = s.cr ∧ (s.setPs x).cn = s.cn ∧ (s.setPs x).lc = s.lc ∧
    (s.setPs x).ad = s.ad ∧ (s.setPs x).tb = s.tb ∧ (s.setPs x).ck = s.ck ∧ (s.setPs x).ckp = s.ckp ∧ (s.setPs x).incs = s.incs ∧
    (s.setPs x).pp = s.pp ∧ (s.setPs x).bt = s.bt ∧ (s.setPs x).ev = s.ev ∧ (s.setPs x).ut = s.ut ∧ (s.setPs x).pd = s.pd ∧ (s.setPs x).pw = s.pw ∧
    (s.setPs x).kv = s.kv ∧ (s.setPs x).ft = s.ft ∧ (s.setPs x).otp = s.otp := by
  and_intros <;> rfl

@[simp] theorem State.setKv_rest (s : State) (x : Vault) :
    (s.setKv x).pending = s.pending ∧ (s.setKv x).regs = s.regs ∧ (s.setKv x).clock = s.clock ∧ (s.setKv x).freeCtr = s.freeCtr ∧
    (s.setKv x).sent = s.sent ∧ (s.setKv x).flash = s.flash ∧ (s.setKv x).dram = s.dram ∧ (s.setKv x).mg = s.mg ∧ (s.setKv x).ld = s.ld ∧
    (s.setKv x).sv = s.sv ∧ (s.setKv x).fb = s.fb ∧ (s.setKv x).sc = s.sc ∧ (s.setKv x).cr = s.cr ∧ (s.setKv x).cn = s.cn ∧ (s.setKv x).lc = s.lc ∧
    (s.setKv x).ad = s.ad ∧ (s.setKv x).tb = s.tb ∧ (s.setKv x).ck = s.ck ∧ (s.setKv x).ckp = s.ckp ∧ (s.setKv x).incs = s.incs ∧
    (s.setKv x).pp = s.pp ∧ (s.setKv x).bt = s.bt ∧ (s.setKv x).ev = s.ev ∧ (s.setKv x).ut = s.ut ∧ (s.setKv x).pd = s.pd ∧ (s.setKv x).pw = s.pw ∧
    (s.setKv x).ps = s.ps ∧ (s.setKv x).ft = s.ft ∧ (s.setKv x).otp = s.otp := by
  and_intros <;> rfl

/-! ### Reads of register fields -/

@[simp] theorem State.rd_emit (s : State) (o : Out) (g : Fld) : (s.emit o).rd g = s.rd g := rfl
@[simp] theorem State.on_emit (s : State) (o : Out) (g : Fld) : (s.emit o).on g = s.on g := rfl

@[simp] theorem State.rd_setFlow (s : State) (n : Nat) (x : Flow) (g : Fld) : (s.setFlow n x).rd g = s.rd g := rfl
@[simp] theorem State.on_setFlow (s : State) (n : Nat) (x : Flow) (g : Fld) : (s.setFlow n x).on g = s.on g := rfl

@[simp] theorem State.rd_setIngress (s : State) (n : Nat) (x : List Seg) (g : Fld) : (s.setIngress n x).rd g = s.rd g := rfl
@[simp] theorem State.on_setIngress (s : State) (n : Nat) (x : List Seg) (g : Fld) : (s.setIngress n x).on g = s.on g := rfl

@[simp] theorem State.rd_setSecond (s : State) (n : Nat) (x : List Seg) (g : Fld) : (s.setSecond n x).rd g = s.rd g := rfl
@[simp] theorem State.on_setSecond (s : State) (n : Nat) (x : List Seg) (g : Fld) : (s.setSecond n x).on g = s.on g := rfl

@[simp] theorem State.rd_setTx (s : State) (n : Nat) (x : List Seg) (g : Fld) : (s.setTx n x).rd g = s.rd g := rfl
@[simp] theorem State.on_setTx (s : State) (n : Nat) (x : List Seg) (g : Fld) : (s.setTx n x).on g = s.on g := rfl

@[simp] theorem State.rd_setInter (s : State) (n : Nat) (x : Inter) (g : Fld) : (s.setInter n x).rd g = s.rd g := rfl
@[simp] theorem State.on_setInter (s : State) (n : Nat) (x : Inter) (g : Fld) : (s.setInter n x).on g = s.on g := rfl

@[simp] theorem State.rd_setOutPos (s : State) (n : Nat) (x : OutPos) (g : Fld) : (s.setOutPos n x).rd g = s.rd g := rfl
@[simp] theorem State.on_setOutPos (s : State) (n : Nat) (x : OutPos) (g : Fld) : (s.setOutPos n x).on g = s.on g := rfl

@[simp] theorem State.rd_setEg (s : State) (n : Nat) (x : Egress) (g : Fld) : (s.setEg n x).rd g = s.rd g := rfl
@[simp] theorem State.on_setEg (s : State) (n : Nat) (x : Egress) (g : Fld) : (s.setEg n x).on g = s.on g := rfl

@[simp] theorem State.rd_setSpill (s : State) (n : Nat) (x : List SPage) (g : Fld) : (s.setSpill n x).rd g = s.rd g := rfl
@[simp] theorem State.on_setSpill (s : State) (n : Nat) (x : List SPage) (g : Fld) : (s.setSpill n x).on g = s.on g := rfl

@[simp] theorem State.rd_setCredit (s : State) (n : Nat) (x : Credit) (g : Fld) : (s.setCredit n x).rd g = s.rd g := rfl
@[simp] theorem State.on_setCredit (s : State) (n : Nat) (x : Credit) (g : Fld) : (s.setCredit n x).on g = s.on g := rfl

@[simp] theorem State.rd_setCan (s : State) (n : Nat) (x : Can) (g : Fld) : (s.setCan n x).rd g = s.rd g := rfl
@[simp] theorem State.on_setCan (s : State) (n : Nat) (x : Can) (g : Fld) : (s.setCan n x).on g = s.on g := rfl

@[simp] theorem State.rd_setLane (s : State) (n : Nat) (x : Lane) (g : Fld) : (s.setLane n x).rd g = s.rd g := rfl
@[simp] theorem State.on_setLane (s : State) (n : Nat) (x : Lane) (g : Fld) : (s.setLane n x).on g = s.on g := rfl

@[simp] theorem State.rd_setPipe (s : State) (n : Nat) (x : PipeSt) (g : Fld) : (s.setPipe n x).rd g = s.rd g := rfl
@[simp] theorem State.on_setPipe (s : State) (n : Nat) (x : PipeSt) (g : Fld) : (s.setPipe n x).on g = s.on g := rfl

@[simp] theorem State.rd_setEvt (s : State) (n : Nat) (x : Evt) (g : Fld) : (s.setEvt n x).rd g = s.rd g := rfl
@[simp] theorem State.on_setEvt (s : State) (n : Nat) (x : Evt) (g : Fld) : (s.setEvt n x).on g = s.on g := rfl

@[simp] theorem State.rd_setTree (s : State) (n : Nat) (x : TreeP) (g : Fld) : (s.setTree n x).rd g = s.rd g := rfl
@[simp] theorem State.on_setTree (s : State) (n : Nat) (x : TreeP) (g : Fld) : (s.setTree n x).on g = s.on g := rfl

@[simp] theorem State.rd_setPdp (s : State) (n : Nat) (x : PdPort) (g : Fld) : (s.setPdp n x).rd g = s.rd g := rfl
@[simp] theorem State.on_setPdp (s : State) (n : Nat) (x : PdPort) (g : Fld) : (s.setPdp n x).on g = s.on g := rfl

@[simp] theorem State.rd_setAdp (s : State) (n : Nat) (x : Adapter) (g : Fld) : (s.setAdp n x).rd g = s.rd g := rfl
@[simp] theorem State.on_setAdp (s : State) (n : Nat) (x : Adapter) (g : Fld) : (s.setAdp n x).on g = s.on g := rfl

@[simp] theorem State.rd_setPin (s : State) (n v : Nat) (g : Fld) : (s.setPin n v).rd g = s.rd g := rfl
@[simp] theorem State.on_setPin (s : State) (n v : Nat) (g : Fld) : (s.setPin n v).on g = s.on g := rfl

@[simp] theorem State.rd_setSv (s : State) (x : Solver) (g : Fld) : (s.setSv x).rd g = s.rd g := rfl
@[simp] theorem State.on_setSv (s : State) (x : Solver) (g : Fld) : (s.setSv x).on g = s.on g := rfl

@[simp] theorem State.rd_setPs (s : State) (x : PsReq) (g : Fld) : (s.setPs x).rd g = s.rd g := rfl
@[simp] theorem State.on_setPs (s : State) (x : PsReq) (g : Fld) : (s.setPs x).on g = s.on g := rfl

@[simp] theorem State.rd_setKv (s : State) (x : Vault) (g : Fld) : (s.setKv x).rd g = s.rd g := rfl
@[simp] theorem State.on_setKv (s : State) (x : Vault) (g : Fld) : (s.setKv x).on g = s.on g := rfl

/-- No field reads a value wider than itself. -/
theorem State.rd_lt (s : State) (f : Fld) : s.rd f < 2 ^ f.w := Nat.mod_lt _ (Nat.two_pow_pos _)

/-- A field that has just been written reads the value, cut to its width. -/
@[simp] theorem State.rd_wr_same (s : State) (f : Fld) (v : Nat) : (s.wr f v).rd f = v % 2 ^ f.w := by simp [rd, wr]

/-- Every other field reads as before. -/
theorem State.rd_wr_ne (s : State) (f g : Fld) (v : Nat) (h : g.key ≠ f.key) : (s.wr f v).rd g = s.rd g :=
  congrArg (· % 2 ^ g.w) (mget_mput_ne _ _ _ _ _ _ h)

theorem State.on_wr_ne (s : State) (f g : Fld) (v : Nat) (h : g.key ≠ f.key) : (s.wr f v).on g = s.on g := by
  simp [on, rd_wr_ne s f g v h]

@[simp] theorem State.rd_setB_same (s : State) (f : Fld) (b : Bool) : (s.setB f b).rd f = b2n b % 2 ^ f.w := rd_wr_same s f _

theorem State.rd_setB_ne (s : State) (f g : Fld) (b : Bool) (h : g.key ≠ f.key) : (s.setB f b).rd g = s.rd g := rd_wr_ne s f g _ h

@[simp] theorem State.rd_inc_same (s : State) (f : Fld) : (s.inc f).rd f = satInc (2 ^ f.w - 1) (s.rd f) % 2 ^ f.w := rd_wr_same s f _

theorem State.rd_inc_ne (s : State) (f g : Fld) (h : g.key ≠ f.key) : (s.inc f).rd g = s.rd g := rd_wr_ne s f g _ h

@[simp] theorem State.rd_incMod_same (s : State) (f : Fld) : (s.incMod f).rd f = (s.rd f + 1) % 2 ^ f.w := rd_wr_same s f _

theorem State.rd_incMod_ne (s : State) (f g : Fld) (h : g.key ≠ f.key) : (s.incMod f).rd g = s.rd g := rd_wr_ne s f g _ h

@[simp] theorem State.wrs_nil (s : State) : s.wrs [] = s := rfl

@[simp] theorem State.wrs_cons (s : State) (e : Fld × Nat) (l : List (Fld × Nat)) : s.wrs (e :: l) = (s.wr e.1 e.2).wrs l := rfl

/-- A field that a list of writes does not name reads as before. -/
theorem State.rd_wrs_ne (s : State) (l : List (Fld × Nat)) (g : Fld) (h : ∀ e ∈ l, g.key ≠ e.1.key) : (s.wrs l).rd g = s.rd g := by
  induction l generalizing s with
  | nil => rfl
  | cons e t ih =>
    rw [wrs_cons, ih _ fun x hx => h x (by simp [hx]), rd_wr_ne _ _ _ _ (h e (by simp))]

/-! ### Reads of the sparse components -/

@[simp] theorem State.flow_setFlow_same (s : State) (n : Nat) (x : Flow) : (s.setFlow n x).flow n = x := mget_mput_same _ _ _ _

theorem State.flow_setFlow_ne (s : State) (n m : Nat) (x : Flow) (h : m ≠ n) : (s.setFlow n x).flow m = s.flow m := mget_mput_ne _ _ _ _ _ _ h

@[simp] theorem State.ingressQ_setIngress_same (s : State) (n : Nat) (x : List Seg) : (s.setIngress n x).ingressQ n = x := mget_mput_same _ _ _ _

theorem State.ingressQ_setIngress_ne (s : State) (n m : Nat) (x : List Seg) (h : m ≠ n) : (s.setIngress n x).ingressQ m = s.ingressQ m := mget_mput_ne _ _ _ _ _ _ h

@[simp] theorem State.secondQ_setSecond_same (s : State) (n : Nat) (x : List Seg) : (s.setSecond n x).secondQ n = x := mget_mput_same _ _ _ _

theorem State.secondQ_setSecond_ne (s : State) (n m : Nat) (x : List Seg) (h : m ≠ n) : (s.setSecond n x).secondQ m = s.secondQ m := mget_mput_ne _ _ _ _ _ _ h

@[simp] theorem State.tx_setTx_same (s : State) (n : Nat) (x : List Seg) : (s.setTx n x).tx n = x := mget_mput_same _ _ _ _

theorem State.tx_setTx_ne (s : State) (n m : Nat) (x : List Seg) (h : m ≠ n) : (s.setTx n x).tx m = s.tx m := mget_mput_ne _ _ _ _ _ _ h

@[simp] theorem State.inter_setInter_same (s : State) (n : Nat) (x : Inter) : (s.setInter n x).inter n = x := mget_mput_same _ _ _ _

theorem State.inter_setInter_ne (s : State) (n m : Nat) (x : Inter) (h : m ≠ n) : (s.setInter n x).inter m = s.inter m := mget_mput_ne _ _ _ _ _ _ h

@[simp] theorem State.outPos_setOutPos_same (s : State) (n : Nat) (x : OutPos) : (s.setOutPos n x).outPos n = x := mget_mput_same _ _ _ _

theorem State.outPos_setOutPos_ne (s : State) (n m : Nat) (x : OutPos) (h : m ≠ n) : (s.setOutPos n x).outPos m = s.outPos m := mget_mput_ne _ _ _ _ _ _ h

@[simp] theorem State.eg_setEg_same (s : State) (n : Nat) (x : Egress) : (s.setEg n x).eg n = x := mget_mput_same _ _ _ _

theorem State.eg_setEg_ne (s : State) (n m : Nat) (x : Egress) (h : m ≠ n) : (s.setEg n x).eg m = s.eg m := mget_mput_ne _ _ _ _ _ _ h

@[simp] theorem State.spillQ_setSpill_same (s : State) (n : Nat) (x : List SPage) : (s.setSpill n x).spillQ n = x := mget_mput_same _ _ _ _

theorem State.spillQ_setSpill_ne (s : State) (n m : Nat) (x : List SPage) (h : m ≠ n) : (s.setSpill n x).spillQ m = s.spillQ m := mget_mput_ne _ _ _ _ _ _ h

@[simp] theorem State.credit_setCredit_same (s : State) (n : Nat) (x : Credit) : (s.setCredit n x).credit n = x := mget_mput_same _ _ _ _

theorem State.credit_setCredit_ne (s : State) (n m : Nat) (x : Credit) (h : m ≠ n) : (s.setCredit n x).credit m = s.credit m := mget_mput_ne _ _ _ _ _ _ h

@[simp] theorem State.can_setCan_same (s : State) (n : Nat) (x : Can) : (s.setCan n x).can n = x := mget_mput_same _ _ _ _

theorem State.can_setCan_ne (s : State) (n m : Nat) (x : Can) (h : m ≠ n) : (s.setCan n x).can m = s.can m := mget_mput_ne _ _ _ _ _ _ h

@[simp] theorem State.lane_setLane_same (s : State) (n : Nat) (x : Lane) : (s.setLane n x).lane n = x := mget_mput_same _ _ _ _

theorem State.lane_setLane_ne (s : State) (n m : Nat) (x : Lane) (h : m ≠ n) : (s.setLane n x).lane m = s.lane m := mget_mput_ne _ _ _ _ _ _ h

@[simp] theorem State.pipe_setPipe_same (s : State) (n : Nat) (x : PipeSt) : (s.setPipe n x).pipe n = x := mget_mput_same _ _ _ _

theorem State.pipe_setPipe_ne (s : State) (n m : Nat) (x : PipeSt) (h : m ≠ n) : (s.setPipe n x).pipe m = s.pipe m := mget_mput_ne _ _ _ _ _ _ h

@[simp] theorem State.evt_setEvt_same (s : State) (n : Nat) (x : Evt) : (s.setEvt n x).evt n = x := mget_mput_same _ _ _ _

theorem State.evt_setEvt_ne (s : State) (n m : Nat) (x : Evt) (h : m ≠ n) : (s.setEvt n x).evt m = s.evt m := mget_mput_ne _ _ _ _ _ _ h

@[simp] theorem State.tree_setTree_same (s : State) (n : Nat) (x : TreeP) : (s.setTree n x).tree n = x := mget_mput_same _ _ _ _

theorem State.tree_setTree_ne (s : State) (n m : Nat) (x : TreeP) (h : m ≠ n) : (s.setTree n x).tree m = s.tree m := mget_mput_ne _ _ _ _ _ _ h

@[simp] theorem State.pdp_setPdp_same (s : State) (n : Nat) (x : PdPort) : (s.setPdp n x).pdp n = x := mget_mput_same _ _ _ _

theorem State.pdp_setPdp_ne (s : State) (n m : Nat) (x : PdPort) (h : m ≠ n) : (s.setPdp n x).pdp m = s.pdp m := mget_mput_ne _ _ _ _ _ _ h

@[simp] theorem State.adp_setAdp_same (s : State) (n : Nat) (x : Adapter) : (s.setAdp n x).adp n = x := mget_mput_same _ _ _ _

theorem State.adp_setAdp_ne (s : State) (n m : Nat) (x : Adapter) (h : m ≠ n) : (s.setAdp n x).adp m = s.adp m := mget_mput_ne _ _ _ _ _ _ h

@[simp] theorem State.flow_wr (s : State) (f : Fld) (v n : Nat) : (s.wr f v).flow n = s.flow n := rfl
@[simp] theorem State.flow_emit (s : State) (o : Out) (n : Nat) : (s.emit o).flow n = s.flow n := rfl

@[simp] theorem State.ingressQ_wr (s : State) (f : Fld) (v n : Nat) : (s.wr f v).ingressQ n = s.ingressQ n := rfl
@[simp] theorem State.ingressQ_emit (s : State) (o : Out) (n : Nat) : (s.emit o).ingressQ n = s.ingressQ n := rfl

@[simp] theorem State.secondQ_wr (s : State) (f : Fld) (v n : Nat) : (s.wr f v).secondQ n = s.secondQ n := rfl
@[simp] theorem State.secondQ_emit (s : State) (o : Out) (n : Nat) : (s.emit o).secondQ n = s.secondQ n := rfl

@[simp] theorem State.tx_wr (s : State) (f : Fld) (v n : Nat) : (s.wr f v).tx n = s.tx n := rfl
@[simp] theorem State.tx_emit (s : State) (o : Out) (n : Nat) : (s.emit o).tx n = s.tx n := rfl

@[simp] theorem State.inter_wr (s : State) (f : Fld) (v n : Nat) : (s.wr f v).inter n = s.inter n := rfl
@[simp] theorem State.inter_emit (s : State) (o : Out) (n : Nat) : (s.emit o).inter n = s.inter n := rfl

@[simp] theorem State.outPos_wr (s : State) (f : Fld) (v n : Nat) : (s.wr f v).outPos n = s.outPos n := rfl
@[simp] theorem State.outPos_emit (s : State) (o : Out) (n : Nat) : (s.emit o).outPos n = s.outPos n := rfl

@[simp] theorem State.eg_wr (s : State) (f : Fld) (v n : Nat) : (s.wr f v).eg n = s.eg n := rfl
@[simp] theorem State.eg_emit (s : State) (o : Out) (n : Nat) : (s.emit o).eg n = s.eg n := rfl

@[simp] theorem State.spillQ_wr (s : State) (f : Fld) (v n : Nat) : (s.wr f v).spillQ n = s.spillQ n := rfl
@[simp] theorem State.spillQ_emit (s : State) (o : Out) (n : Nat) : (s.emit o).spillQ n = s.spillQ n := rfl

@[simp] theorem State.credit_wr (s : State) (f : Fld) (v n : Nat) : (s.wr f v).credit n = s.credit n := rfl
@[simp] theorem State.credit_emit (s : State) (o : Out) (n : Nat) : (s.emit o).credit n = s.credit n := rfl

@[simp] theorem State.can_wr (s : State) (f : Fld) (v n : Nat) : (s.wr f v).can n = s.can n := rfl
@[simp] theorem State.can_emit (s : State) (o : Out) (n : Nat) : (s.emit o).can n = s.can n := rfl

@[simp] theorem State.lane_wr (s : State) (f : Fld) (v n : Nat) : (s.wr f v).lane n = s.lane n := rfl
@[simp] theorem State.lane_emit (s : State) (o : Out) (n : Nat) : (s.emit o).lane n = s.lane n := rfl

@[simp] theorem State.pipe_wr (s : State) (f : Fld) (v n : Nat) : (s.wr f v).pipe n = s.pipe n := rfl
@[simp] theorem State.pipe_emit (s : State) (o : Out) (n : Nat) : (s.emit o).pipe n = s.pipe n := rfl

@[simp] theorem State.evt_wr (s : State) (f : Fld) (v n : Nat) : (s.wr f v).evt n = s.evt n := rfl
@[simp] theorem State.evt_emit (s : State) (o : Out) (n : Nat) : (s.emit o).evt n = s.evt n := rfl

@[simp] theorem State.tree_wr (s : State) (f : Fld) (v n : Nat) : (s.wr f v).tree n = s.tree n := rfl
@[simp] theorem State.tree_emit (s : State) (o : Out) (n : Nat) : (s.emit o).tree n = s.tree n := rfl

@[simp] theorem State.pdp_wr (s : State) (f : Fld) (v n : Nat) : (s.wr f v).pdp n = s.pdp n := rfl
@[simp] theorem State.pdp_emit (s : State) (o : Out) (n : Nat) : (s.emit o).pdp n = s.pdp n := rfl

@[simp] theorem State.adp_wr (s : State) (f : Fld) (v n : Nat) : (s.wr f v).adp n = s.adp n := rfl
@[simp] theorem State.adp_emit (s : State) (o : Out) (n : Nat) : (s.emit o).adp n = s.adp n := rfl

end Sys2Proof.Machine
end

