-- ==== Sys2Proof/Laws/Frame.lean ====
section
/-! SUPPORT. What an operation of the model leaves alone. `Frame k s t`: component `k` of the state (numbered in the order of State's
fields) is in `t` what it was in `s`; `Frame 30 s t`: if the register map and the byte memories of `s` are canonical, so are those of
`t`. Every operation has one lemma: it keeps every component outside its mask, and the canonical form. -/

namespace Sys2Proof.Laws

open Sys2Proof.Machine

/-- Component `k` is unchanged (0 to 29), or the canonical form is kept (30). -/
def Frame (k : Nat) (s t : State) : Prop :=
  match k with
  | 0 => t.pending = s.pending
  | 1 => t.regs = s.regs
  | 2 => t.clock = s.clock
  | 3 => t.freeCtr = s.freeCtr
  | 4 => t.sent = s.sent
  | 5 => t.flash = s.flash
  | 6 => t.dram = s.dram
  | 7 => t.mg = s.mg
  | 8 => t.ld = s.ld
  | 9 => t.sv = s.sv
  | 10 => t.fb = s.fb
  | 11 => t.sc = s.sc
  | 12 => t.cr = s.cr
  | 13 => t.cn = s.cn
  | 14 => t.lc = s.lc
  | 15 => t.ad = s.ad
  | 16 => t.tb = s.tb
  | 17 => t.ck = s.ck
  | 18 => t.ckp = s.ckp
  | 19 => t.incs = s.incs
  | 20 => t.pp = s.pp
  | 21 => t.bt = s.bt
  | 22 => t.ev = s.ev
  | 23 => t.ut = s.ut
  | 24 => t.pd = s.pd
  | 25 => t.pw = s.pw
  | 26 => t.kv = s.kv
  | 27 => t.ps = s.ps
  | 28 => t.ft = s.ft
  | 29 => t.otp = s.otp
  | 30 => Canonical s → Canonical t
  | _ => True

/-- A component that the mask does not name is unchanged. -/
abbrev Kept {α : Type} (m k : Nat) (x y : α) : Prop := m.testBit k = true ∨ x = y

/-- Two states agree on every component outside a mask. -/
structure Same (m : Nat) (t u : State) : Prop where
  pending : Kept m 0 u.pending t.pending
  regs : Kept m 1 u.regs t.regs
  clock : Kept m 2 u.clock t.clock
  freeCtr : Kept m 3 u.freeCtr t.freeCtr
  sent : Kept m 4 u.sent t.sent
  flash : Kept m 5 u.flash t.flash
  dram : Kept m 6 u.dram t.dram
  mg : Kept m 7 u.mg t.mg
  ld : Kept m 8 u.ld t.ld
  sv : Kept m 9 u.sv t.sv
  fb : Kept m 10 u.fb t.fb
  sc : Kept m 11 u.sc t.sc
  cr : Kept m 12 u.cr t.cr
  cn : Kept m 13 u.cn t.cn
  lc : Kept m 14 u.lc t.lc
  ad : Kept m 15 u.ad t.ad
  tb : Kept m 16 u.tb t.tb
  ck : Kept m 17 u.ck t.ck
  ckp : Kept m 18 u.ckp t.ckp
  incs : Kept m 19 u.incs t.incs
  pp : Kept m 20 u.pp t.pp
  bt : Kept m 21 u.bt t.bt
  ev : Kept m 22 u.ev t.ev
  ut : Kept m 23 u.ut t.ut
  pd : Kept m 24 u.pd t.pd
  pw : Kept m 25 u.pw t.pw
  kv : Kept m 26 u.kv t.kv
  ps : Kept m 27 u.ps t.ps
  ft : Kept m 28 u.ft t.ft
  otp : Kept m 29 u.otp t.otp

/-- An outcome's next state keeps component `k`. -/
def FrameO (k : Nat) (s : State) (o : Host.Outcome State Fault Refusal) : Prop := ∀ t, o = .next t → Frame k s t

theorem testBit_sub {a b k : Nat} (h : a &&& b = a) (hk : b.testBit k = false) : a.testBit k = false := by
  have : (a &&& b).testBit k = false := by simp [Nat.testBit_and, hk]
  rwa [h] at this

theorem Frame.refl (k : Nat) (s : State) : Frame k s s := by
  unfold Frame
  split <;> simp

theorem Frame.trans {k : Nat} {s t u : State} (h : Frame k s t) (g : Frame k t u) : Frame k s u := by
  unfold Frame at *
  split at h <;> first | exact g.trans h | exact fun x => g (h x) | trivial

theorem Frame.ite {k : Nat} {s t u : State} {c : Prop} [Decidable c] (h : Frame k s t) (g : Frame k s u) :
    Frame k s (if c then t else u) := by
  split <;> assumption

/-- Every component outside the mask is kept. -/
theorem Same.frame {k m : Nat} {t u : State} (e : Same m t u) (hk : m.testBit k = false) (h30 : Canonical t → Canonical u) : Frame k t u := by
  cases e
  unfold Frame
  split <;> first | trivial | exact h30 | (refine Or.resolve_left ?_ (ne_true_of_eq_false hk); assumption)

/-- A record update that writes only components of the mask, none of them a canonical list. -/
theorem Frame.lit {k m : Nat} {s t u : State} (hk : m.testBit k = false) (hc : m &&& 0x20000062 = 0) (h : Frame k s t) (e : Same m t u) :
    Frame k s u := by
  refine h.trans (e.frame hk ?_)
  have hb (i : Nat) (hi : Nat.testBit 0x20000062 i = true) : ¬ m.testBit i = true := by
    have : (m &&& 0x20000062).testBit i = false := by simp [hc]
    simpa [Nat.testBit_and, hi] using this
  unfold Canonical
  rw [e.regs.resolve_left (hb 1 rfl), e.flash.resolve_left (hb 5 rfl), e.dram.resolve_left (hb 6 rfl), e.otp.resolve_left (hb 29 rfl)]
  exact id

/-- A record update that also writes a canonical list, and keeps the form. -/
theorem Frame.litc {k m : Nat} {s t u : State} (hk : m.testBit k = false) (hc : Canonical t → Canonical u) (h : Frame k s t)
    (e : Same m t u) : Frame k s u := h.trans (e.frame hk hc)

theorem FrameO.next {k : Nat} {s t : State} (h : Frame k s t) : FrameO k s (.next t) := by
  intro u hu
  cases hu
  exact h

theorem FrameO.ite {k : Nat} {s : State} {o p : Host.Outcome State Fault Refusal} {c : Prop} [Decidable c] (h : FrameO k s o)
    (g : FrameO k s p) : FrameO k s (if c then o else p) := by
  split <;> assumption

theorem State_wr_frame {k : Nat} {s t : State} (hk : Nat.testBit 2 k = false) {f : Fld} {v : Nat} (h : Frame k s t) : Frame k s (t.wr f v) := by
  refine h.trans ?_
  by_cases h30 : k = 30
  · subst h30
    intro hc
    exact ⟨rising_mput _ _ _ _ hc.1, hc.2⟩
  · have h1 : k ≠ 1 := by rintro rfl; exact absurd hk (by decide)
    unfold Frame
    split <;> first | rfl | trivial

theorem wrs_frame {k : Nat} {s t : State} (hk : Nat.testBit 2 k = false) {l : List (Fld × Nat)} (h : Frame k s t) :
    Frame k s (t.wrs l) := by
  induction l generalizing t with
  | nil => exact h
  | cons e l ih => exact ih (State_wr_frame hk h)

theorem forAll_frame {k : Nat} {s t : State} {α : Type} {l : List α} {f : α → State → State}
    (hf : ∀ x u, Frame k s u → Frame k s (f x u)) (h : Frame k s t) : Frame k s (forAll l f t) := by
  unfold forAll
  induction l generalizing t with
  | nil => exact h
  | cons x l ih => exact ih (hf x t h)

theorem onlyIf_frame {k : Nat} {s t : State} {c : Bool} {f : State → State} (hf : ∀ u, Frame k s u → Frame k s (f u))
    (h : Frame k s t) : Frame k s (onlyIf c f t) := by
  unfold onlyIf
  split
  · exact hf t h
  · exact h

theorem Frame.snd {k : Nat} {s0 t : State} {α : Type} {x : α × State} {v : α} (e : x = (v, t)) (h : Frame k s0 x.2) : Frame k s0 t := by
  subst e
  exact h

theorem Frame.snd2 {k : Nat} {s0 t : State} {α β : Type} {x : α × β × State} {v : α} {w : β} (e : x = (v, w, t)) (h : Frame k s0 x.2.2) :
    Frame k s0 t := by
  subst e
  exact h

theorem dram_frame {k : Nat} {s t : State} (hk : Nat.testBit 64 k = false) {a : Nat} {bs : Bytes} (h : Frame k s t) :
    Frame k s { t with dram := memWrite 0 t.dram a bs } :=
  Frame.litc (t := t) hk (fun hc => ⟨hc.1, hc.2.1, mwf_memWrite _ _ _ _ hc.2.2.1, hc.2.2.2⟩) h (by constructor <;> first | exact .inl rfl | exact .inr rfl)

theorem flash_frame {k : Nat} {s t : State} (hk : Nat.testBit 32 k = false) {a : Nat} {bs : Bytes} (h : Frame k s t) :
    Frame k s { t with flash := memWrite 0xFF t.flash a bs } :=
  Frame.litc (t := t) hk (fun hc => ⟨hc.1, mwf_memWrite _ _ _ _ hc.2.1, hc.2.2⟩) h (by constructor <;> first | exact .inl rfl | exact .inr rfl)

theorem flashErase_frame {k : Nat} {s t : State} (hk : Nat.testBit 32 k = false) {p : Nat × Byte → Bool} (h : Frame k s t) :
    Frame k s { t with flash := t.flash.filter p } :=
  Frame.litc (t := t) hk (fun hc => ⟨hc.1, mwf_filter _ _ _ hc.2.1, hc.2.2⟩) h (by constructor <;> first | exact .inl rfl | exact .inr rfl)

theorem otp_frame {k : Nat} {s t : State} (hk : Nat.testBit 0x20000000 k = false) {a v : Nat} (h : Frame k s t) :
    Frame k s { t with otp := mput 0 t.otp a v } :=
  Frame.litc (t := t) hk (fun hc => ⟨hc.1, hc.2.1, hc.2.2.1, rising_mput _ _ _ _ hc.2.2.2⟩) h (by constructor <;> first | exact .inl rfl | exact .inr rfl)

end Sys2Proof.Laws
end

