-- ==== Sys2Proof/Laws/FrameOps.lean ====
section
/-! SUPPORT. What each operation of Machine/Ops.lean leaves alone. -/

namespace Sys2Proof.Laws

open Sys2Proof Sys2Proof.Machine

set_option linter.unusedTactic false
set_option linter.unreachableTactic false
set_option linter.unusedVariables false

theorem State_setB_frame {κ : Nat} {σ : State} {s : State} {f : Fld} {b : Bool} (hk : Nat.testBit 2 κ = false) (hF : Frame κ σ s) :
    Frame κ σ (State.setB s f b) := by
  have m2 := hk
  unfold State.setB
  try dsimp only
  repeat' first
    | with_reducible exact hF
    | with_reducible assumption
    | with_reducible refine State_wr_frame m2 ?_

theorem State_inc_frame {κ : Nat} {σ : State} {s : State} {f : Fld} (hk : Nat.testBit 2 κ = false) (hF : Frame κ σ s) :
    Frame κ σ (State.inc s f) := by
  have m2 := hk
  unfold State.inc
  try dsimp only
  repeat' first
    | with_reducible exact hF
    | with_reducible assumption
    | with_reducible refine State_wr_frame m2 ?_

theorem State_incMod_frame {κ : Nat} {σ : State} {s : State} {f : Fld} (hk : Nat.testBit 2 κ = false) (hF : Frame κ σ s) :
    Frame κ σ (State.incMod s f) := by
  have m2 := hk
  unfold State.incMod
  try dsimp only
  repeat' first
    | with_reducible exact hF
    | with_reducible assumption
    | with_reducible refine State_wr_frame m2 ?_

theorem State_emit_frame {κ : Nat} {σ : State} {s : State} {o : Out} (hk : Nat.testBit 16 κ = false) (hF : Frame κ σ s) :
    Frame κ σ (State.emit s o) := by
  have m16 := hk
  unfold State.emit
  try dsimp only
  repeat' first
    | with_reducible exact hF
    | with_reducible assumption
    | (apply Frame.lit m16 rfl; case e => constructor <;> (try dsimp only) <;> first | exact .inl rfl | exact .inr rfl)

theorem State_free_frame {κ : Nat} {σ : State} {s : State} (hk : Nat.testBit 8 κ = false) (hF : Frame κ σ s) :
    Frame κ σ (State.free s).2 := by
  have m8 := hk
  unfold State.free
  try dsimp only
  repeat' first
    | with_reducible exact hF
    | with_reducible assumption
    | split
    | with_reducible refine Frame.snd (by assumption) ?_
    | with_reducible refine Frame.snd2 (by assumption) ?_
    | (dsimp only)
    | (apply Frame.lit m8 rfl; case e => constructor <;> (try dsimp only) <;> first | exact .inl rfl | exact .inr rfl)

theorem markDue_frame {κ : Nat} {σ : State} {s : State} {n : Nat} (hk : Nat.testBit 128 κ = false) (hF : Frame κ σ s) :
    Frame κ σ (markDue s n) := by
  have m128 := hk
  unfold markDue
  try dsimp only
  repeat' first
    | with_reducible exact hF
    | with_reducible assumption
    | (apply Frame.lit m128 rfl; case e => constructor <;> (try dsimp only) <;> first | exact .inl rfl | exact .inr rfl)

theorem raise_frame {κ : Nat} {σ : State} {u : Nat} {b : Nat} {s : State} (hk : Nat.testBit 130 κ = false) (hF : Frame κ σ s) :
    Frame κ σ (raise u b s) := by
  have m2 : Nat.testBit 2 κ = false := testBit_sub rfl hk
  have m128 : Nat.testBit 128 κ = false := testBit_sub rfl hk
  unfold raise
  try dsimp only
  repeat' first
    | with_reducible exact hF
    | with_reducible assumption
    | with_reducible refine State_wr_frame m2 ?_
    | with_reducible refine markDue_frame m128 ?_
    | with_reducible refine Frame.ite ?_ ?_

theorem tunReportState_frame {κ : Nat} {σ : State} {c : Nat} {s : State} (hk : Nat.testBit 128 κ = false) (hF : Frame κ σ s) :
    Frame κ σ (tunReportState c s) := by
  have m128 := hk
  unfold tunReportState
  try dsimp only
  repeat' first
    | with_reducible exact hF
    | with_reducible assumption
    | with_reducible refine Frame.ite ?_ ?_
    | (apply Frame.lit m128 rfl; case e => constructor <;> (try dsimp only) <;> first | exact .inl rfl | exact .inr rfl)

theorem tunsDue_frame {κ : Nat} {σ : State} {s : State} (hk : Nat.testBit 128 κ = false) (hF : Frame κ σ s) :
    Frame κ σ (tunsDue s) := by
  have m128 := hk
  unfold tunsDue
  try dsimp only
  repeat' first
    | with_reducible exact hF
    | with_reducible assumption
    | (apply Frame.lit m128 rfl; case e => constructor <;> (try dsimp only) <;> first | exact .inl rfl | exact .inr rfl)

theorem reportsDue_frame {κ : Nat} {σ : State} {s : State} (hk : Nat.testBit 128 κ = false) (hF : Frame κ σ s) :
    Frame κ σ (reportsDue s) := by
  have m128 := hk
  unfold reportsDue
  try dsimp only
  repeat' first
    | with_reducible exact hF
    | with_reducible assumption
    | with_reducible refine tunsDue_frame m128 ?_
    | (apply Frame.lit m128 rfl; case e => constructor <;> (try dsimp only) <;> first | exact .inl rfl | exact .inr rfl)

theorem tunReportDrop_frame {κ : Nat} {σ : State} {c : Nat} {s : State} (hk : Nat.testBit 128 κ = false) (hF : Frame κ σ s) :
    Frame κ σ (tunReportDrop c s) := by
  have m128 := hk
  unfold tunReportDrop
  try dsimp only
  repeat' first
    | with_reducible exact hF
    | with_reducible assumption
    | with_reducible refine Frame.ite ?_ ?_
    | (apply Frame.lit m128 rfl; case e => constructor <;> (try dsimp only) <;> first | exact .inl rfl | exact .inr rfl)

theorem cfgErr_frame {κ : Nat} {σ : State} {a : Nat} {s : State} (hk : Nat.testBit 130 κ = false) (hF : Frame κ σ s) :
    Frame κ σ (cfgErr a s) := by
  have m130 := hk
  unfold cfgErr
  try dsimp only
  repeat' first
    | with_reducible exact hF
    | with_reducible assumption
    | with_reducible refine raise_frame m130 ?_
    | with_reducible refine Frame.ite ?_ ?_

theorem envEvent_frame {κ : Nat} {σ : State} {f : Fld} {a : Nat} {s : State} (hk : Nat.testBit 130 κ = false) (hF : Frame κ σ s) :
    Frame κ σ (envEvent f a s) := by
  have m130 := hk
  have m2 : Nat.testBit 2 κ = false := testBit_sub rfl hk
  unfold envEvent
  try dsimp only
  repeat' first
    | with_reducible exact hF
    | with_reducible assumption
    | with_reducible refine raise_frame m130 ?_
    | with_reducible refine State_setB_frame m2 ?_
    | with_reducible refine State_inc_frame m2 ?_
    | with_reducible refine State_wr_frame m2 ?_

theorem ifAllowed_frame {κ : Nat} {σ : State} {a : Nat} {f : Fld} {v : Nat} {effect : State → State} {s : State} (hk : Nat.testBit 130 κ = false) (hf : ∀ u, Frame κ σ u → Frame κ σ (effect u)) (hF : Frame κ σ s) :
    Frame κ σ (ifAllowed a f v effect s) := by
  have m130 := hk
  unfold ifAllowed
  try dsimp only
  repeat' first
    | with_reducible exact hF
    | with_reducible assumption
    | with_reducible refine hf _ ?_
    | with_reducible refine envEvent_frame m130 ?_
    | with_reducible refine Frame.ite ?_ ?_

theorem wrField_frame {κ : Nat} {σ : State} {a : Nat} {f : Fld} {v : Nat} {s : State} (hk : Nat.testBit 130 κ = false) (hF : Frame κ σ s) :
    Frame κ σ (wrField a f v s) := by
  have m130 := hk
  have m2 : Nat.testBit 2 κ = false := testBit_sub rfl hk
  unfold wrField
  try dsimp only
  repeat' first
    | with_reducible exact hF
    | with_reducible assumption
    | with_reducible refine cfgErr_frame m130 ?_
    | with_reducible refine ifAllowed_frame m130 (fun _ _ => ?_) ?_
    | with_reducible refine State_wr_frame m2 ?_
    | with_reducible refine Frame.ite ?_ ?_

theorem setEven_frame {κ : Nat} {σ : State} {u : Nat} {v : Nat} {s : State} (hk : Nat.testBit 130 κ = false) (hF : Frame κ σ s) :
    Frame κ σ (setEven u v s) := by
  have m2 : Nat.testBit 2 κ = false := testBit_sub rfl hk
  have m128 : Nat.testBit 128 κ = false := testBit_sub rfl hk
  unfold setEven
  try dsimp only
  repeat' first
    | with_reducible exact hF
    | with_reducible assumption
    | with_reducible refine State_wr_frame m2 ?_
    | with_reducible refine markDue_frame m128 ?_
    | with_reducible refine Frame.ite ?_ ?_

theorem wrEven_frame {κ : Nat} {σ : State} {u : Nat} {v : Nat} {s : State} (hk : Nat.testBit 130 κ = false) (hF : Frame κ σ s) :
    Frame κ σ (wrEven u v s) := by
  have m130 := hk
  unfold wrEven
  try dsimp only
  repeat' first
    | with_reducible exact hF
    | with_reducible assumption
    | with_reducible refine ifAllowed_frame m130 (fun _ _ => ?_) ?_
    | with_reducible refine setEven_frame m130 ?_

theorem wrAcc_frame {κ : Nat} {σ : State} {a : Nat} {v : Nat} {f : Fld} {s : State} (hk : Nat.testBit 130 κ = false) (hF : Frame κ σ s) :
    Frame κ σ (wrAcc a v f s) := by
  have m130 := hk
  have m2 : Nat.testBit 2 κ = false := testBit_sub rfl hk
  unfold wrAcc
  try dsimp only
  repeat' first
    | with_reducible exact hF
    | with_reducible assumption
    | with_reducible refine wrField_frame m130 ?_
    | with_reducible refine State_wr_frame m2 ?_
    | with_reducible refine Frame.ite ?_ ?_
    | split

theorem wrWord_frame {κ : Nat} {σ : State} {a : Nat} {v : Nat} {fs : List Fld} {s : State} (hk : Nat.testBit 130 κ = false) (hF : Frame κ σ s) :
    Frame κ σ (wrWord a v fs s) := by
  have m130 := hk
  unfold wrWord
  try dsimp only
  repeat' first
    | with_reducible exact hF
    | with_reducible assumption
    | with_reducible refine wrAcc_frame m130 ?_
    | with_reducible refine forAll_frame (fun _ _ _ => ?_) ?_

theorem noteExcursion_frame {κ : Nat} {σ : State} {s : State} (hk : Nat.testBit 2 κ = false) (hF : Frame κ σ s) :
    Frame κ σ (noteExcursion s) := by
  have m2 := hk
  unfold noteExcursion
  try dsimp only
  repeat' first
    | with_reducible exact hF
    | with_reducible assumption
    | with_reducible refine State_wr_frame m2 ?_
    | with_reducible refine State_inc_frame m2 ?_

theorem State_setCredit_frame {κ : Nat} {σ : State} {s : State} {n : Nat} {c : Credit} (hk : Nat.testBit 4096 κ = false) (hF : Frame κ σ s) :
    Frame κ σ (State.setCredit s n c) := by
  have m4096 := hk
  unfold State.setCredit
  try dsimp only
  repeat' first
    | with_reducible exact hF
    | with_reducible assumption
    | (apply Frame.lit m4096 rfl; case e => constructor <;> (try dsimp only) <;> first | exact .inl rfl | exact .inr rfl)

end Sys2Proof.Laws
end

