-- ==== Sys2Proof/Laws/FrameTunnel.lean ====
section
/-! SUPPORT. What each operation of Machine/Tunnel.lean leaves alone. -/

namespace Sys2Proof.Laws

open Sys2Proof Sys2Proof.Machine

set_option linter.unusedTactic false
set_option linter.unreachableTactic false
set_option linter.unusedVariables false

theorem cancelSolve_frame {κ : Nat} {σ : State} {s : State} (hk : Nat.testBit 2690 κ = false) (hF : Frame κ σ s) :
    Frame κ σ (cancelSolve s) := by
  have m2 : Nat.testBit 2 κ = false := testBit_sub rfl hk
  have m130 : Nat.testBit 130 κ = false := testBit_sub rfl hk
  have m2560 : Nat.testBit 2560 κ = false := testBit_sub rfl hk
  unfold cancelSolve
  try dsimp only
  repeat' first
    | with_reducible exact hF
    | with_reducible assumption
    | with_reducible refine State_wr_frame m2 ?_
    | with_reducible refine raise_frame m130 ?_
    | with_reducible refine wrs_frame m2 ?_
    | with_reducible refine forAll_frame (fun _ _ _ => ?_) ?_
    | with_reducible refine Frame.ite ?_ ?_
    | split
    | (apply Frame.lit m2560 rfl; case e => constructor <;> (try dsimp only) <;> first | exact .inl rfl | exact .inr rfl)

theorem dropSolve_frame {κ : Nat} {σ : State} {s : State} (hk : Nat.testBit 2562 κ = false) (hF : Frame κ σ s) :
    Frame κ σ (dropSolve s) := by
  have m2 : Nat.testBit 2 κ = false := testBit_sub rfl hk
  have m2560 : Nat.testBit 2560 κ = false := testBit_sub rfl hk
  unfold dropSolve
  try dsimp only
  repeat' first
    | with_reducible exact hF
    | with_reducible assumption
    | with_reducible refine State_wr_frame m2 ?_
    | with_reducible refine Frame.ite ?_ ?_
    | (apply Frame.lit m2560 rfl; case e => constructor <;> (try dsimp only) <;> first | exact .inl rfl | exact .inr rfl)

theorem showIndicator_frame {κ : Nat} {σ : State} {s : State} (hk : Nat.testBit 16 κ = false) (hF : Frame κ σ s) :
    Frame κ σ (showIndicator s) := by
  have m16 := hk
  unfold showIndicator
  try dsimp only
  repeat' first
    | with_reducible exact hF
    | with_reducible assumption
    | with_reducible refine State_emit_frame m16 ?_
    | split

theorem State_setPs_frame {κ : Nat} {σ : State} {s : State} {x : PsReq} (hk : Nat.testBit 134217728 κ = false) (hF : Frame κ σ s) :
    Frame κ σ (State.setPs s x) := by
  have m134217728 := hk
  unfold State.setPs
  try dsimp only
  repeat' first
    | with_reducible exact hF
    | with_reducible assumption
    | (apply Frame.lit m134217728 rfl; case e => constructor <;> (try dsimp only) <;> first | exact .inl rfl | exact .inr rfl)

theorem trainAgain_frame {κ : Nat} {σ : State} {p : Nat} {s : State} (hk : Nat.testBit 1024 κ = false) (hF : Frame κ σ s) :
    Frame κ σ (trainAgain p s) := by
  have m1024 := hk
  unfold trainAgain
  try dsimp only
  repeat' first
    | with_reducible exact hF
    | with_reducible assumption
    | (apply Frame.lit m1024 rfl; case e => constructor <;> (try dsimp only) <;> first | exact .inl rfl | exact .inr rfl)

theorem shiftPaused_frame {κ : Nat} {σ : State} {d : Nat} {s : State} (hk : Nat.testBit 1048576 κ = false) (hF : Frame κ σ s) :
    Frame κ σ (shiftPaused d s) := by
  have m1048576 := hk
  unfold shiftPaused
  try dsimp only
  repeat' first
    | with_reducible exact hF
    | with_reducible assumption
    | (apply Frame.lit m1048576 rfl; case e => constructor <;> (try dsimp only) <;> first | exact .inl rfl | exact .inr rfl)

theorem leaveDoze_frame {κ : Nat} {σ : State} {s : State} (hk : Nat.testBit 135267330 κ = false) (hF : Frame κ σ s) :
    Frame κ σ (leaveDoze s) := by
  have m2 : Nat.testBit 2 κ = false := testBit_sub rfl hk
  have m1024 : Nat.testBit 1024 κ = false := testBit_sub rfl hk
  have m1048576 : Nat.testBit 1048576 κ = false := testBit_sub rfl hk
  have m134217728 : Nat.testBit 134217728 κ = false := testBit_sub rfl hk
  unfold leaveDoze
  try dsimp only
  repeat' first
    | with_reducible exact hF
    | with_reducible assumption
    | with_reducible refine shiftPaused_frame m1048576 ?_
    | with_reducible refine State_wr_frame m2 ?_
    | with_reducible refine trainAgain_frame m1024 ?_
    | with_reducible refine State_setPs_frame m134217728 ?_
    | with_reducible refine forAll_frame (fun _ _ _ => ?_) ?_
    | with_reducible refine Frame.ite ?_ ?_

theorem toActive_frame {κ : Nat} {σ : State} {s : State} (hk : Nat.testBit 135267474 κ = false) (hF : Frame κ σ s) :
    Frame κ σ (toActive s) := by
  have m2 : Nat.testBit 2 κ = false := testBit_sub rfl hk
  have m16 : Nat.testBit 16 κ = false := testBit_sub rfl hk
  have m130 : Nat.testBit 130 κ = false := testBit_sub rfl hk
  have m135267330 : Nat.testBit 135267330 κ = false := testBit_sub rfl hk
  unfold toActive
  try dsimp only
  repeat' first
    | with_reducible exact hF
    | with_reducible assumption
    | with_reducible refine showIndicator_frame m16 ?_
    | with_reducible refine raise_frame m130 ?_
    | with_reducible refine leaveDoze_frame m135267330 ?_
    | with_reducible refine wrs_frame m2 ?_
    | with_reducible refine Frame.ite ?_ ?_

theorem psRefuse_frame {κ : Nat} {σ : State} {who : Nat} {reason : Nat} {s : State} (hk : Nat.testBit 134217874 κ = false) (hF : Frame κ σ s) :
    Frame κ σ (psRefuse who reason s) := by
  have m2 : Nat.testBit 2 κ = false := testBit_sub rfl hk
  have m16 : Nat.testBit 16 κ = false := testBit_sub rfl hk
  have m130 : Nat.testBit 130 κ = false := testBit_sub rfl hk
  have m134217728 : Nat.testBit 134217728 κ = false := testBit_sub rfl hk
  unfold psRefuse
  try dsimp only
  repeat' first
    | with_reducible exact hF
    | with_reducible assumption
    | with_reducible refine showIndicator_frame m16 ?_
    | with_reducible refine raise_frame m130 ?_
    | with_reducible refine State_setPs_frame m134217728 ?_
    | with_reducible refine wrs_frame m2 ?_

theorem attachWakes_frame {κ : Nat} {σ : State} {s : State} (hk : Nat.testBit 135267474 κ = false) (hF : Frame κ σ s) :
    Frame κ σ (attachWakes s) := by
  have m135267474 := hk
  unfold attachWakes
  try dsimp only
  repeat' first
    | with_reducible exact hF
    | with_reducible assumption
    | with_reducible refine toActive_frame m135267474 ?_
    | with_reducible refine Frame.ite ?_ ?_

theorem settleTie_frame {κ : Nat} {σ : State} {s : State} (hk : Nat.testBit 2562 κ = false) (hF : Frame κ σ s) :
    Frame κ σ (settleTie s) := by
  have m2 : Nat.testBit 2 κ = false := testBit_sub rfl hk
  have m2560 : Nat.testBit 2560 κ = false := testBit_sub rfl hk
  unfold settleTie
  try dsimp only
  repeat' first
    | with_reducible exact hF
    | with_reducible assumption
    | with_reducible refine State_wr_frame m2 ?_
    | with_reducible refine Frame.ite ?_ ?_
    | (apply Frame.lit m2560 rfl; case e => constructor <;> (try dsimp only) <;> first | exact .inl rfl | exact .inr rfl)

theorem startSettle_frame {κ : Nat} {σ : State} {s : State} (hk : Nat.testBit 514 κ = false) (hF : Frame κ σ s) :
    Frame κ σ (startSettle s) := by
  have m2 : Nat.testBit 2 κ = false := testBit_sub rfl hk
  have m512 : Nat.testBit 512 κ = false := testBit_sub rfl hk
  unfold startSettle
  try dsimp only
  repeat' first
    | with_reducible exact hF
    | with_reducible assumption
    | with_reducible refine wrs_frame m2 ?_
    | (apply Frame.lit m512 rfl; case e => constructor <;> (try dsimp only) <;> first | exact .inl rfl | exact .inr rfl)

theorem attachEvent_frame {κ : Nat} {σ : State} {s : State} (hk : Nat.testBit 135270034 κ = false) (hF : Frame κ σ s) :
    Frame κ σ (attachEvent s) := by
  have m514 : Nat.testBit 514 κ = false := testBit_sub rfl hk
  have m2562 : Nat.testBit 2562 κ = false := testBit_sub rfl hk
  have m2690 : Nat.testBit 2690 κ = false := testBit_sub rfl hk
  have m135267474 : Nat.testBit 135267474 κ = false := testBit_sub rfl hk
  unfold attachEvent
  try dsimp only
  repeat' first
    | with_reducible exact hF
    | with_reducible assumption
    | with_reducible refine attachWakes_frame m135267474 ?_
    | with_reducible refine startSettle_frame m514 ?_
    | with_reducible refine cancelSolve_frame m2690 ?_
    | with_reducible refine settleTie_frame m2562 ?_
    | with_reducible refine Frame.ite ?_ ?_

theorem structuralEvent_frame {κ : Nat} {σ : State} {s : State} (hk : Nat.testBit 514 κ = false) (hF : Frame κ σ s) :
    Frame κ σ (structuralEvent s) := by
  have m514 := hk
  have m2 : Nat.testBit 2 κ = false := testBit_sub rfl hk
  unfold structuralEvent
  try dsimp only
  repeat' first
    | with_reducible exact hF
    | with_reducible assumption
    | with_reducible refine State_wr_frame m2 ?_
    | with_reducible refine startSettle_frame m514 ?_
    | with_reducible refine Frame.ite ?_ ?_

theorem attachPartner_frame {κ : Nat} {σ : State} {p : Nat} {q : Partner} {s : State} (hk : Nat.testBit 135270034 κ = false) (hF : Frame κ σ s) :
    Frame κ σ (attachPartner p q s) := by
  have m135270034 := hk
  have m512 : Nat.testBit 512 κ = false := testBit_sub rfl hk
  unfold attachPartner
  try dsimp only
  repeat' first
    | with_reducible exact hF
    | with_reducible assumption
    | with_reducible refine attachEvent_frame m135270034 ?_
    | (apply Frame.lit m512 rfl; case e => constructor <;> (try dsimp only) <;> first | exact .inl rfl | exact .inr rfl)

theorem detachPartner_frame {κ : Nat} {σ : State} {p : Nat} {s : State} (hk : Nat.testBit 135270034 κ = false) (hF : Frame κ σ s) :
    Frame κ σ (detachPartner p s) := by
  have m135270034 := hk
  have m512 : Nat.testBit 512 κ = false := testBit_sub rfl hk
  unfold detachPartner
  try dsimp only
  repeat' first
    | with_reducible exact hF
    | with_reducible assumption
    | with_reducible refine attachEvent_frame m135270034 ?_
    | (apply Frame.lit m512 rfl; case e => constructor <;> (try dsimp only) <;> first | exact .inl rfl | exact .inr rfl)

theorem applyTemplate_frame {κ : Nat} {σ : State} {n : Nat} {s : State} (hk : Nat.testBit 2 κ = false) (hF : Frame κ σ s) :
    Frame κ σ (applyTemplate n s) := by
  have m2 := hk
  unfold applyTemplate
  try dsimp only
  repeat' first
    | with_reducible exact hF
    | with_reducible assumption
    | with_reducible refine wrs_frame m2 ?_
    | split

theorem teardown_frame {κ : Nat} {σ : State} {n : Nat} {cause : Nat} {s : State} (hk : Nat.testBit 2 κ = false) (hF : Frame κ σ s) :
    Frame κ σ (teardown n cause s) := by
  have m2 := hk
  unfold teardown
  try dsimp only
  repeat' first
    | with_reducible exact hF
    | with_reducible assumption
    | with_reducible refine applyTemplate_frame m2 ?_
    | with_reducible refine State_wr_frame m2 ?_
    | with_reducible refine forAll_frame (fun _ _ _ => ?_) ?_
    | with_reducible refine Frame.ite ?_ ?_

theorem dropTunnels_frame {κ : Nat} {σ : State} {p : Nat} {cause : Nat} {s : State} (hk : Nat.testBit 2 κ = false) (hF : Frame κ σ s) :
    Frame κ σ (dropTunnels p cause s) := by
  have m2 := hk
  unfold dropTunnels
  try dsimp only
  repeat' first
    | with_reducible exact hF
    | with_reducible assumption
    | with_reducible refine teardown_frame m2 ?_
    | with_reducible refine forAll_frame (fun _ _ _ => ?_) ?_

theorem activateMgmt_frame {κ : Nat} {σ : State} {n : Nat} {s : State} (hk : Nat.testBit 4098 κ = false) (hF : Frame κ σ s) :
    Frame κ σ (activateMgmt n s) := by
  have m2 : Nat.testBit 2 κ = false := testBit_sub rfl hk
  have m4096 : Nat.testBit 4096 κ = false := testBit_sub rfl hk
  unfold activateMgmt
  try dsimp only
  repeat' first
    | with_reducible exact hF
    | with_reducible assumption
    | with_reducible refine State_setCredit_frame m4096 ?_
    | with_reducible refine wrs_frame m2 ?_
    | with_reducible refine Frame.ite ?_ ?_

theorem enterQuarantine_frame {κ : Nat} {σ : State} {n : Nat} {s : State} (hk : Nat.testBit 2 κ = false) (hF : Frame κ σ s) :
    Frame κ σ (enterQuarantine n s) := by
  have m2 := hk
  unfold enterQuarantine
  try dsimp only
  repeat' first
    | with_reducible exact hF
    | with_reducible assumption
    | with_reducible refine State_wr_frame m2 ?_
    | with_reducible refine forAll_frame (fun _ _ _ => ?_) ?_
    | with_reducible refine Frame.ite ?_ ?_

theorem leaveQuarantine_frame {κ : Nat} {σ : State} {m : Nat} {t : State} (hk : Nat.testBit 4098 κ = false) (hF : Frame κ σ t) :
    Frame κ σ (leaveQuarantine m t) := by
  have m4098 := hk
  have m2 : Nat.testBit 2 κ = false := testBit_sub rfl hk
  unfold leaveQuarantine
  try dsimp only
  repeat' first
    | with_reducible exact hF
    | with_reducible assumption
    | with_reducible refine State_wr_frame m2 ?_
    | with_reducible refine activateMgmt_frame m4098 ?_
    | with_reducible refine Frame.ite ?_ ?_

theorem endQuarantine_frame {κ : Nat} {σ : State} {n : Nat} {s : State} (hk : Nat.testBit 4610 κ = false) (hF : Frame κ σ s) :
    Frame κ σ (endQuarantine n s) := by
  have m512 : Nat.testBit 512 κ = false := testBit_sub rfl hk
  have m514 : Nat.testBit 514 κ = false := testBit_sub rfl hk
  have m4098 : Nat.testBit 4098 κ = false := testBit_sub rfl hk
  unfold endQuarantine
  try dsimp only
  repeat' first
    | with_reducible exact hF
    | with_reducible assumption
    | with_reducible refine leaveQuarantine_frame m4098 ?_
    | with_reducible refine structuralEvent_frame m514 ?_
    | with_reducible refine forAll_frame (fun _ _ _ => ?_) ?_
    | with_reducible refine Frame.ite ?_ ?_
    | (apply Frame.lit m512 rfl; case e => constructor <;> (try dsimp only) <;> first | exact .inl rfl | exact .inr rfl)

theorem execQuarantineEnd_frame {κ : Nat} {σ : State} {n : Tun} {s : State} (hk : Nat.testBit 4610 κ = false) (hF : Frame κ σ s) :
    FrameO κ σ (execQuarantineEnd n s) := by
  have m4610 := hk
  unfold execQuarantineEnd
  try dsimp only
  repeat' first
    | with_reducible exact hF
    | with_reducible assumption
    | with_reducible refine endQuarantine_frame m4610 ?_
    | with_reducible refine FrameO.next ?_

theorem wrTun_frame {κ : Nat} {σ : State} {f : Fld} {ok : Bool} {v : Nat} {s : State} (hk : Nat.testBit 130 κ = false) (hF : Frame κ σ s) :
    Frame κ σ (wrTun f ok v s) := by
  have m130 := hk
  have m2 : Nat.testBit 2 κ = false := testBit_sub rfl hk
  unfold wrTun
  try dsimp only
  repeat' first
    | with_reducible exact hF
    | with_reducible assumption
    | with_reducible refine State_wr_frame m2 ?_
    | with_reducible refine raise_frame m130 ?_
    | with_reducible refine Frame.ite ?_ ?_

theorem wrTtLimit_frame {κ : Nat} {σ : State} {n : Nat} {v : Nat} {s : State} (hk : Nat.testBit 642 κ = false) (hF : Frame κ σ s) :
    Frame κ σ (wrTtLimit n v s) := by
  have m130 : Nat.testBit 130 κ = false := testBit_sub rfl hk
  have m514 : Nat.testBit 514 κ = false := testBit_sub rfl hk
  unfold wrTtLimit
  try dsimp only
  repeat' first
    | with_reducible exact hF
    | with_reducible assumption
    | with_reducible refine wrTun_frame m130 ?_
    | with_reducible refine structuralEvent_frame m514 ?_
    | with_reducible refine Frame.ite ?_ ?_
    | split

theorem wrTtParam_frame {κ : Nat} {σ : State} {n : Nat} {r : TtParam} {v : Nat} {s : State} (hk : Nat.testBit 1154 κ = false) (hF : Frame κ σ s) :
    Frame κ σ (wrTtParam n r v s) := by
  have m130 : Nat.testBit 130 κ = false := testBit_sub rfl hk
  have m1024 : Nat.testBit 1024 κ = false := testBit_sub rfl hk
  unfold wrTtParam
  try dsimp only
  repeat' first
    | with_reducible exact hF
    | with_reducible assumption
    | with_reducible refine wrTun_frame m130 ?_
    | with_reducible refine meter_frame m1024 ?_
    | with_reducible refine Frame.ite ?_ ?_
    | split
    | with_reducible refine Frame.snd (by assumption) ?_
    | with_reducible refine Frame.snd2 (by assumption) ?_
    | (dsimp only)

theorem wrHostsel_frame {κ : Nat} {σ : State} {v : Nat} {s : State} (hk : Nat.testBit 642 κ = false) (hF : Frame κ σ s) :
    Frame κ σ (wrHostsel v s) := by
  have m2 : Nat.testBit 2 κ = false := testBit_sub rfl hk
  have m130 : Nat.testBit 130 κ = false := testBit_sub rfl hk
  have m514 : Nat.testBit 514 κ = false := testBit_sub rfl hk
  unfold wrHostsel
  try dsimp only
  repeat' first
    | with_reducible exact hF
    | with_reducible assumption
    | with_reducible refine ifAllowed_frame m130 (fun _ _ => ?_) ?_
    | with_reducible refine structuralEvent_frame m514 ?_
    | with_reducible refine State_wr_frame m2 ?_
    | with_reducible refine Frame.ite ?_ ?_

end Sys2Proof.Laws
end

