-- ==== Sys2Proof/Laws/FrameStores.lean ====
section
/-! SUPPORT. What each operation of Machine/Stores.lean leaves alone. -/

namespace Sys2Proof.Laws

open Sys2Proof Sys2Proof.Machine

set_option linter.unusedTactic false
set_option linter.unreachableTactic false
set_option linter.unusedVariables false

theorem State_setFlow_frame {κ : Nat} {σ : State} {s : State} {n : Nat} {f : Flow} (hk : Nat.testBit 1024 κ = false) (hF : Frame κ σ s) :
    Frame κ σ (State.setFlow s n f) := by
  have m1024 := hk
  unfold State.setFlow
  try dsimp only
  repeat' first
    | with_reducible exact hF
    | with_reducible assumption
    | (apply Frame.lit m1024 rfl; case e => constructor <;> (try dsimp only) <;> first | exact .inl rfl | exact .inr rfl)

theorem State_setIngress_frame {κ : Nat} {σ : State} {s : State} {n : Nat} {q : List Seg} (hk : Nat.testBit 1024 κ = false) (hF : Frame κ σ s) :
    Frame κ σ (State.setIngress s n q) := by
  have m1024 := hk
  unfold State.setIngress
  try dsimp only
  repeat' first
    | with_reducible exact hF
    | with_reducible assumption
    | (apply Frame.lit m1024 rfl; case e => constructor <;> (try dsimp only) <;> first | exact .inl rfl | exact .inr rfl)

theorem State_setSecond_frame {κ : Nat} {σ : State} {s : State} {n : Nat} {q : List Seg} (hk : Nat.testBit 1024 κ = false) (hF : Frame κ σ s) :
    Frame κ σ (State.setSecond s n q) := by
  have m1024 := hk
  unfold State.setSecond
  try dsimp only
  repeat' first
    | with_reducible exact hF
    | with_reducible assumption
    | (apply Frame.lit m1024 rfl; case e => constructor <;> (try dsimp only) <;> first | exact .inl rfl | exact .inr rfl)

theorem State_setTx_frame {κ : Nat} {σ : State} {s : State} {n : Nat} {q : List Seg} (hk : Nat.testBit 1024 κ = false) (hF : Frame κ σ s) :
    Frame κ σ (State.setTx s n q) := by
  have m1024 := hk
  unfold State.setTx
  try dsimp only
  repeat' first
    | with_reducible exact hF
    | with_reducible assumption
    | (apply Frame.lit m1024 rfl; case e => constructor <;> (try dsimp only) <;> first | exact .inl rfl | exact .inr rfl)

theorem State_setInter_frame {κ : Nat} {σ : State} {s : State} {j : Nat} {x : Inter} (hk : Nat.testBit 1024 κ = false) (hF : Frame κ σ s) :
    Frame κ σ (State.setInter s j x) := by
  have m1024 := hk
  unfold State.setInter
  try dsimp only
  repeat' first
    | with_reducible exact hF
    | with_reducible assumption
    | (apply Frame.lit m1024 rfl; case e => constructor <;> (try dsimp only) <;> first | exact .inl rfl | exact .inr rfl)

theorem State_setOutPos_frame {κ : Nat} {σ : State} {s : State} {o : Nat} {x : OutPos} (hk : Nat.testBit 1024 κ = false) (hF : Frame κ σ s) :
    Frame κ σ (State.setOutPos s o x) := by
  have m1024 := hk
  unfold State.setOutPos
  try dsimp only
  repeat' first
    | with_reducible exact hF
    | with_reducible assumption
    | (apply Frame.lit m1024 rfl; case e => constructor <;> (try dsimp only) <;> first | exact .inl rfl | exact .inr rfl)

theorem State_setEg_frame {κ : Nat} {σ : State} {s : State} {p : Nat} {x : Egress} (hk : Nat.testBit 1024 κ = false) (hF : Frame κ σ s) :
    Frame κ σ (State.setEg s p x) := by
  have m1024 := hk
  unfold State.setEg
  try dsimp only
  repeat' first
    | with_reducible exact hF
    | with_reducible assumption
    | (apply Frame.lit m1024 rfl; case e => constructor <;> (try dsimp only) <;> first | exact .inl rfl | exact .inr rfl)

theorem State_setSpill_frame {κ : Nat} {σ : State} {s : State} {k : Nat} {q : List SPage} (hk : Nat.testBit 1024 κ = false) (hF : Frame κ σ s) :
    Frame κ σ (State.setSpill s k q) := by
  have m1024 := hk
  unfold State.setSpill
  try dsimp only
  repeat' first
    | with_reducible exact hF
    | with_reducible assumption
    | (apply Frame.lit m1024 rfl; case e => constructor <;> (try dsimp only) <;> first | exact .inl rfl | exact .inr rfl)

theorem State_setCan_frame {κ : Nat} {σ : State} {s : State} {p : Nat} {c : Can} (hk : Nat.testBit 8192 κ = false) (hF : Frame κ σ s) :
    Frame κ σ (State.setCan s p c) := by
  have m8192 := hk
  unfold State.setCan
  try dsimp only
  repeat' first
    | with_reducible exact hF
    | with_reducible assumption
    | (apply Frame.lit m8192 rfl; case e => constructor <;> (try dsimp only) <;> first | exact .inl rfl | exact .inr rfl)

theorem State_setLane_frame {κ : Nat} {σ : State} {s : State} {c : Nat} {x : Lane} (hk : Nat.testBit 16384 κ = false) (hF : Frame κ σ s) :
    Frame κ σ (State.setLane s c x) := by
  have m16384 := hk
  unfold State.setLane
  try dsimp only
  repeat' first
    | with_reducible exact hF
    | with_reducible assumption
    | (apply Frame.lit m16384 rfl; case e => constructor <;> (try dsimp only) <;> first | exact .inl rfl | exact .inr rfl)

theorem State_setPipe_frame {κ : Nat} {σ : State} {s : State} {d : Nat} {x : PipeSt} (hk : Nat.testBit 1048576 κ = false) (hF : Frame κ σ s) :
    Frame κ σ (State.setPipe s d x) := by
  have m1048576 := hk
  unfold State.setPipe
  try dsimp only
  repeat' first
    | with_reducible exact hF
    | with_reducible assumption
    | (apply Frame.lit m1048576 rfl; case e => constructor <;> (try dsimp only) <;> first | exact .inl rfl | exact .inr rfl)

theorem State_setEvt_frame {κ : Nat} {σ : State} {s : State} {e : Nat} {x : Evt} (hk : Nat.testBit 4194304 κ = false) (hF : Frame κ σ s) :
    Frame κ σ (State.setEvt s e x) := by
  have m4194304 := hk
  unfold State.setEvt
  try dsimp only
  repeat' first
    | with_reducible exact hF
    | with_reducible assumption
    | (apply Frame.lit m4194304 rfl; case e => constructor <;> (try dsimp only) <;> first | exact .inl rfl | exact .inr rfl)

theorem State_setPin_frame {κ : Nat} {σ : State} {s : State} {b : Nat} {code : Nat} (hk : Nat.testBit 2097152 κ = false) (hF : Frame κ σ s) :
    Frame κ σ (State.setPin s b code) := by
  have m2097152 := hk
  unfold State.setPin
  try dsimp only
  repeat' first
    | with_reducible exact hF
    | with_reducible assumption
    | (apply Frame.lit m2097152 rfl; case e => constructor <;> (try dsimp only) <;> first | exact .inl rfl | exact .inr rfl)

theorem State_setTree_frame {κ : Nat} {σ : State} {s : State} {n : Nat} {x : TreeP} (hk : Nat.testBit 8388608 κ = false) (hF : Frame κ σ s) :
    Frame κ σ (State.setTree s n x) := by
  have m8388608 := hk
  unfold State.setTree
  try dsimp only
  repeat' first
    | with_reducible exact hF
    | with_reducible assumption
    | (apply Frame.lit m8388608 rfl; case e => constructor <;> (try dsimp only) <;> first | exact .inl rfl | exact .inr rfl)

theorem State_setPdp_frame {κ : Nat} {σ : State} {s : State} {p : Nat} {x : PdPort} (hk : Nat.testBit 16777216 κ = false) (hF : Frame κ σ s) :
    Frame κ σ (State.setPdp s p x) := by
  have m16777216 := hk
  unfold State.setPdp
  try dsimp only
  repeat' first
    | with_reducible exact hF
    | with_reducible assumption
    | (apply Frame.lit m16777216 rfl; case e => constructor <;> (try dsimp only) <;> first | exact .inl rfl | exact .inr rfl)

theorem State_setAdp_frame {κ : Nat} {σ : State} {s : State} {p : Nat} {x : Adapter} (hk : Nat.testBit 32768 κ = false) (hF : Frame κ σ s) :
    Frame κ σ (State.setAdp s p x) := by
  have m32768 := hk
  unfold State.setAdp
  try dsimp only
  repeat' first
    | with_reducible exact hF
    | with_reducible assumption
    | (apply Frame.lit m32768 rfl; case e => constructor <;> (try dsimp only) <;> first | exact .inl rfl | exact .inr rfl)

theorem runEngines_frame {κ : Nat} {σ : State} {s : State} (hk : Nat.testBit 16384 κ = false) (hF : Frame κ σ s) :
    Frame κ σ (runEngines s) := by
  have m16384 := hk
  unfold runEngines
  try dsimp only
  repeat' first
    | with_reducible exact hF
    | with_reducible assumption
    | with_reducible refine State_setLane_frame m16384 ?_
    | with_reducible refine forAll_frame (fun _ _ _ => ?_) ?_

end Sys2Proof.Laws
end

