-- ==== Sys2Proof/Laws/FrameLink.lean ====
section
/-! SUPPORT. What each operation of Machine/Link.lean leaves alone. -/

namespace Sys2Proof.Laws

open Sys2Proof Sys2Proof.Machine

set_option linter.unusedTactic false
set_option linter.unreachableTactic false
set_option linter.unusedVariables false

theorem setDirs_frame {κ : Nat} {σ : State} {p : Nat} {mode : Nat} {s : State} (hk : Nat.testBit 2 κ = false) (hF : Frame κ σ s) :
    Frame κ σ (setDirs p mode s) := by
  have m2 := hk
  unfold setDirs
  try dsimp only
  repeat' first
    | with_reducible exact hF
    | with_reducible assumption
    | with_reducible refine State_wr_frame m2 ?_
    | with_reducible refine forAll_frame (fun _ _ _ => ?_) ?_

theorem startCanopy_frame {κ : Nat} {σ : State} {p : Nat} {s : State} (hk : Nat.testBit 24578 κ = false) (hF : Frame κ σ s) :
    Frame κ σ (startCanopy p s) := by
  have m2 : Nat.testBit 2 κ = false := testBit_sub rfl hk
  have m8192 : Nat.testBit 8192 κ = false := testBit_sub rfl hk
  have m16384 : Nat.testBit 16384 κ = false := testBit_sub rfl hk
  unfold startCanopy
  try dsimp only
  repeat' first
    | with_reducible exact hF
    | with_reducible assumption
    | with_reducible refine State_setCan_frame m8192 ?_
    | with_reducible refine State_setLane_frame m16384 ?_
    | with_reducible refine setDirs_frame m2 ?_
    | with_reducible refine wrs_frame m2 ?_
    | with_reducible refine forAll_frame (fun _ _ _ => ?_) ?_
    | with_reducible refine Frame.ite ?_ ?_
    | split

theorem sendTraining_frame {κ : Nat} {σ : State} {p : Nat} {ts2 : Bool} {lock : Bool} {pairs : List (Nat × Bool)} {s : State} (hk : Nat.testBit 24 κ = false) (hF : Frame κ σ s) :
    Frame κ σ (sendTraining p ts2 lock pairs s) := by
  have m8 : Nat.testBit 8 κ = false := testBit_sub rfl hk
  have m16 : Nat.testBit 16 κ = false := testBit_sub rfl hk
  unfold sendTraining
  try dsimp only
  repeat' first
    | with_reducible exact hF
    | with_reducible assumption
    | with_reducible refine State_free_frame m8 ?_
    | with_reducible refine State_emit_frame m16 ?_
    | with_reducible refine forAll_frame (fun _ _ _ => ?_) ?_
    | with_reducible refine Frame.ite ?_ ?_
    | split
    | with_reducible refine Frame.snd (by assumption) ?_
    | with_reducible refine Frame.snd2 (by assumption) ?_
    | (dsimp only)

theorem switchTx_frame {κ : Nat} {σ : State} {p : Nat} {s : State} (hk : Nat.testBit 8194 κ = false) (hF : Frame κ σ s) :
    Frame κ σ (switchTx p s) := by
  have m2 : Nat.testBit 2 κ = false := testBit_sub rfl hk
  have m8192 : Nat.testBit 8192 κ = false := testBit_sub rfl hk
  unfold switchTx
  try dsimp only
  repeat' first
    | with_reducible exact hF
    | with_reducible assumption
    | with_reducible refine State_setCan_frame m8192 ?_
    | with_reducible refine State_incMod_frame m2 ?_
    | with_reducible refine Frame.ite ?_ ?_

theorem closeRecord_frame {κ : Nat} {σ : State} {p : Nat} {s : State} (hk : Nat.testBit 8210 κ = false) (hF : Frame κ σ s) :
    Frame κ σ (closeRecord p s) := by
  have m16 : Nat.testBit 16 κ = false := testBit_sub rfl hk
  have m8192 : Nat.testBit 8192 κ = false := testBit_sub rfl hk
  have m8194 : Nat.testBit 8194 κ = false := testBit_sub rfl hk
  unfold closeRecord
  try dsimp only
  repeat' first
    | with_reducible exact hF
    | with_reducible assumption
    | with_reducible refine State_setCan_frame m8192 ?_
    | with_reducible refine switchTx_frame m8194 ?_
    | with_reducible refine State_emit_frame m16 ?_

theorem closeDue_frame {κ : Nat} {σ : State} {p : Nat} {s : State} (hk : Nat.testBit 8210 κ = false) (hF : Frame κ σ s) :
    Frame κ σ (closeDue p s) := by
  have m8210 := hk
  unfold closeDue
  try dsimp only
  repeat' first
    | with_reducible exact hF
    | with_reducible assumption
    | with_reducible refine closeRecord_frame m8210 ?_
    | with_reducible refine Frame.ite ?_ ?_

theorem sendLink_frame {κ : Nat} {σ : State} {p : Nat} {g : Seg} {s : State} (hk : Nat.testBit 8210 κ = false) (hF : Frame κ σ s) :
    Frame κ σ (sendLink p g s) := by
  have m8210 := hk
  have m16 : Nat.testBit 16 κ = false := testBit_sub rfl hk
  have m8192 : Nat.testBit 8192 κ = false := testBit_sub rfl hk
  unfold sendLink
  try dsimp only
  repeat' first
    | with_reducible exact hF
    | with_reducible assumption
    | with_reducible refine State_setCan_frame m8192 ?_
    | with_reducible refine State_emit_frame m16 ?_
    | with_reducible refine closeDue_frame m8210 ?_

theorem dropKept_frame {κ : Nat} {σ : State} {l : List (Nat × Nat)} {s : State} (hk : Nat.testBit 1024 κ = false) (hF : Frame κ σ s) :
    Frame κ σ (dropKept l s) := by
  have m1024 := hk
  unfold dropKept
  try dsimp only
  repeat' first
    | with_reducible exact hF
    | with_reducible assumption
    | (apply Frame.lit m1024 rfl; case e => constructor <;> (try dsimp only) <;> first | exact .inl rfl | exact .inr rfl)

theorem settleOwed_frame {κ : Nat} {σ : State} {p : Nat} {s : State} (hk : Nat.testBit 1024 κ = false) (hF : Frame κ σ s) :
    Frame κ σ (settleOwed p s) := by
  have m1024 := hk
  unfold settleOwed
  try dsimp only
  repeat' first
    | with_reducible exact hF
    | with_reducible assumption
    | with_reducible refine dropKept_frame m1024 ?_
    | with_reducible refine State_setEg_frame m1024 ?_

theorem releaseTo_frame {κ : Nat} {σ : State} {p : Nat} {m : Nat} {s : State} (hk : Nat.testBit 9216 κ = false) (hF : Frame κ σ s) :
    Frame κ σ (releaseTo p m s) := by
  have m1024 : Nat.testBit 1024 κ = false := testBit_sub rfl hk
  have m8192 : Nat.testBit 8192 κ = false := testBit_sub rfl hk
  unfold releaseTo
  try dsimp only
  repeat' first
    | with_reducible exact hF
    | with_reducible assumption
    | with_reducible refine settleOwed_frame m1024 ?_
    | with_reducible refine State_setCan_frame m8192 ?_
    | with_reducible refine Frame.ite ?_ ?_
    | split

theorem resend_frame {κ : Nat} {σ : State} {p : Nat} {u : LUnit} {s : State} (hk : Nat.testBit 16 κ = false) (hF : Frame κ σ s) :
    Frame κ σ (resend p u s) := by
  have m16 := hk
  unfold resend
  try dsimp only
  repeat' first
    | with_reducible exact hF
    | with_reducible assumption
    | with_reducible refine State_emit_frame m16 ?_
    | split

theorem sendRnak_frame {κ : Nat} {σ : State} {p : Nat} {s : State} (hk : Nat.testBit 18 κ = false) (hF : Frame κ σ s) :
    Frame κ σ (sendRnak p s) := by
  have m2 : Nat.testBit 2 κ = false := testBit_sub rfl hk
  have m16 : Nat.testBit 16 κ = false := testBit_sub rfl hk
  unfold sendRnak
  try dsimp only
  repeat' first
    | with_reducible exact hF
    | with_reducible assumption
    | with_reducible refine State_emit_frame m16 ?_
    | with_reducible refine State_inc_frame m2 ?_

theorem linkError_frame {κ : Nat} {σ : State} {p : Nat} {s : State} (hk : Nat.testBit 8210 κ = false) (hF : Frame κ σ s) :
    Frame κ σ (linkError p s) := by
  have m18 : Nat.testBit 18 κ = false := testBit_sub rfl hk
  have m8192 : Nat.testBit 8192 κ = false := testBit_sub rfl hk
  unfold linkError
  try dsimp only
  repeat' first
    | with_reducible exact hF
    | with_reducible assumption
    | with_reducible refine sendRnak_frame m18 ?_
    | with_reducible refine State_setCan_frame m8192 ?_
    | with_reducible refine Frame.ite ?_ ?_

theorem holdUnit_frame {κ : Nat} {σ : State} {p : Nat} {bytes : Nat} {s : State} (hk : Nat.testBit 16514 κ = false) (hF : Frame κ σ s) :
    Frame κ σ (holdUnit p bytes s) := by
  have m2 : Nat.testBit 2 κ = false := testBit_sub rfl hk
  have m130 : Nat.testBit 130 κ = false := testBit_sub rfl hk
  have m16384 : Nat.testBit 16384 κ = false := testBit_sub rfl hk
  unfold holdUnit
  try dsimp only
  repeat' first
    | with_reducible exact hF
    | with_reducible assumption
    | with_reducible refine State_setLane_frame m16384 ?_
    | with_reducible refine State_wr_frame m2 ?_
    | with_reducible refine raise_frame m130 ?_
    | with_reducible refine State_inc_frame m2 ?_
    | with_reducible refine Frame.ite ?_ ?_
    | split

end Sys2Proof.Laws
end

