-- ==== Sys2Proof/Laws/FrameFabric.lean ====
section
/-! SUPPORT. What each operation of Machine/Fabric.lean leaves alone. -/

namespace Sys2Proof.Laws

open Sys2Proof Sys2Proof.Machine

set_option linter.unusedTactic false
set_option linter.unreachableTactic false
set_option linter.unusedVariables false

theorem meter_frame {κ : Nat} {σ : State} {n : Nat} {len : Nat} {pre : Nat} {s : State} (hk : Nat.testBit 1024 κ = false) (hF : Frame κ σ s) :
    Frame κ σ (meter n len pre s).2 := by
  have m1024 := hk
  unfold meter
  try dsimp only
  repeat' first
    | with_reducible exact hF
    | with_reducible assumption
    | with_reducible refine State_setFlow_frame m1024 ?_
    | with_reducible refine Frame.ite ?_ ?_
    | split
    | with_reducible refine Frame.snd (by assumption) ?_
    | with_reducible refine Frame.snd2 (by assumption) ?_
    | (dsimp only)

theorem startFlow_frame {κ : Nat} {σ : State} {n : Nat} {s : State} (hk : Nat.testBit 1024 κ = false) (hF : Frame κ σ s) :
    Frame κ σ (startFlow n s) := by
  have m1024 := hk
  unfold startFlow
  try dsimp only
  repeat' first
    | with_reducible exact hF
    | with_reducible assumption
    | with_reducible refine State_setFlow_frame m1024 ?_

theorem admitSeg_frame {κ : Nat} {σ : State} {n : Nat} {pre : Nat} {g : Seg} {s : State} (hk : Nat.testBit 1026 κ = false) (hF : Frame κ σ s) :
    Frame κ σ (admitSeg n pre g s) := by
  have m2 : Nat.testBit 2 κ = false := testBit_sub rfl hk
  have m1024 : Nat.testBit 1024 κ = false := testBit_sub rfl hk
  unfold admitSeg
  try dsimp only
  repeat' first
    | with_reducible exact hF
    | with_reducible assumption
    | with_reducible refine meter_frame m1024 ?_
    | with_reducible refine State_setIngress_frame m1024 ?_
    | with_reducible refine State_incMod_frame m2 ?_
    | with_reducible refine Frame.ite ?_ ?_
    | split
    | with_reducible refine Frame.snd (by assumption) ?_
    | with_reducible refine Frame.snd2 (by assumption) ?_
    | (dsimp only)

theorem genDiscard_frame {κ : Nat} {σ : State} {n : Nat} {s : State} (hk : Nat.testBit 2 κ = false) (hF : Frame κ σ s) :
    Frame κ σ (genDiscard n s) := by
  have m2 := hk
  unfold genDiscard
  try dsimp only
  repeat' first
    | with_reducible exact hF
    | with_reducible assumption
    | with_reducible refine State_inc_frame m2 ?_

theorem wakeLink_frame {κ : Nat} {σ : State} {p : Nat} {s : State} (hk : Nat.testBit 2 κ = false) (hF : Frame κ σ s) :
    Frame κ σ (wakeLink p s) := by
  have m2 := hk
  unfold wakeLink
  try dsimp only
  repeat' first
    | with_reducible exact hF
    | with_reducible assumption
    | with_reducible refine State_wr_frame m2 ?_
    | with_reducible refine Frame.ite ?_ ?_

theorem ingressSeg_frame {κ : Nat} {σ : State} {p : Nat} {n : Nat} {pre : Nat} {g : Seg} {s : State} (hk : Nat.testBit 1026 κ = false) (hF : Frame κ σ s) :
    Frame κ σ (ingressSeg p n pre g s) := by
  have m1026 := hk
  have m2 : Nat.testBit 2 κ = false := testBit_sub rfl hk
  unfold ingressSeg
  try dsimp only
  repeat' first
    | with_reducible exact hF
    | with_reducible assumption
    | with_reducible refine wakeLink_frame m2 ?_
    | with_reducible refine genDiscard_frame m2 ?_
    | with_reducible refine State_inc_frame m2 ?_
    | with_reducible refine admitSeg_frame m1026 ?_
    | with_reducible refine Frame.ite ?_ ?_

theorem ingressUnit_frame {κ : Nat} {σ : State} {p : Nat} {n : Nat} {pre : Nat} {line : Nat} {data : Bytes} {s : State} (hk : Nat.testBit 1026 κ = false) (hF : Frame κ σ s) :
    Frame κ σ (ingressUnit p n pre line data s) := by
  have m1026 := hk
  unfold ingressUnit
  try dsimp only
  repeat' first
    | with_reducible exact hF
    | with_reducible assumption
    | with_reducible refine ingressSeg_frame m1026 ?_
    | with_reducible refine forAll_frame (fun _ _ _ => ?_) ?_

theorem storeSeg_frame {κ : Nat} {σ : State} {a : Nat} {g : Seg} {s : State} (hk : Nat.testBit 64 κ = false) (hF : Frame κ σ s) :
    Frame κ σ (storeSeg a g s) := by
  have m64 := hk
  unfold storeSeg
  try dsimp only
  repeat' first
    | with_reducible exact hF
    | with_reducible assumption
    | with_reducible refine dram_frame m64 ?_

theorem appendSpill_frame {κ : Nat} {σ : State} {k : Nat} {g : Seg} {s : State} (hk : Nat.testBit 1088 κ = false) (hF : Frame κ σ s) :
    Frame κ σ (appendSpill k g s) := by
  have m64 : Nat.testBit 64 κ = false := testBit_sub rfl hk
  have m1024 : Nat.testBit 1024 κ = false := testBit_sub rfl hk
  unfold appendSpill
  try dsimp only
  repeat' first
    | with_reducible exact hF
    | with_reducible assumption
    | with_reducible refine storeSeg_frame m64 ?_
    | with_reducible refine State_setSpill_frame m1024 ?_
    | with_reducible refine Frame.ite ?_ ?_
    | split

theorem updateSpill_frame {κ : Nat} {σ : State} {o : Nat} {s : State} (hk : Nat.testBit 130 κ = false) (hF : Frame κ σ s) :
    Frame κ σ (updateSpill o s) := by
  have m130 := hk
  have m2 : Nat.testBit 2 κ = false := testBit_sub rfl hk
  unfold updateSpill
  try dsimp only
  repeat' first
    | with_reducible exact hF
    | with_reducible assumption
    | with_reducible refine State_wr_frame m2 ?_
    | with_reducible refine raise_frame m130 ?_
    | with_reducible refine Frame.ite ?_ ?_

theorem setVoid_frame {κ : Nat} {σ : State} {n : Nat} {g : Nat} {c : Nat} {s : State} (hk : Nat.testBit 1026 κ = false) (hF : Frame κ σ s) :
    Frame κ σ (setVoid n g c s) := by
  have m2 : Nat.testBit 2 κ = false := testBit_sub rfl hk
  have m1024 : Nat.testBit 1024 κ = false := testBit_sub rfl hk
  unfold setVoid
  try dsimp only
  repeat' first
    | with_reducible exact hF
    | with_reducible assumption
    | with_reducible refine State_wr_frame m2 ?_
    | split
    | (apply Frame.lit m1024 rfl; case e => constructor <;> (try dsimp only) <;> first | exact .inl rfl | exact .inr rfl)

theorem joinBulk_frame {κ : Nat} {σ : State} {j : Nat} {o : Nat} {q : QSeg} {s : State} (hk : Nat.testBit 1154 κ = false) (hF : Frame κ σ s) :
    Frame κ σ (joinBulk j o q s) := by
  have m130 : Nat.testBit 130 κ = false := testBit_sub rfl hk
  have m1024 : Nat.testBit 1024 κ = false := testBit_sub rfl hk
  unfold joinBulk
  try dsimp only
  repeat' first
    | with_reducible exact hF
    | with_reducible assumption
    | with_reducible refine State_setInter_frame m1024 ?_
    | with_reducible refine raise_frame m130 ?_
    | with_reducible refine Frame.ite ?_ ?_
    | split

theorem bulkArrive_frame {κ : Nat} {σ : State} {j : Nat} {o : Nat} {q : QSeg} {s : State} (hk : Nat.testBit 1154 κ = false) (hF : Frame κ σ s) :
    Frame κ σ (bulkArrive j o q s) := by
  have m1154 := hk
  have m1024 : Nat.testBit 1024 κ = false := testBit_sub rfl hk
  unfold bulkArrive
  try dsimp only
  repeat' first
    | with_reducible exact hF
    | with_reducible assumption
    | with_reducible refine State_setInter_frame m1024 ?_
    | with_reducible refine joinBulk_frame m1154 ?_
    | with_reducible refine Frame.ite ?_ ?_

theorem advanceSeq_frame {κ : Nat} {σ : State} {o : Nat} {n : Nat} {s : State} (hk : Nat.testBit 1026 κ = false) (hF : Frame κ σ s) :
    Frame κ σ (advanceSeq o n s) := by
  have m2 : Nat.testBit 2 κ = false := testBit_sub rfl hk
  have m1024 : Nat.testBit 1024 κ = false := testBit_sub rfl hk
  unfold advanceSeq
  try dsimp only
  repeat' first
    | with_reducible exact hF
    | with_reducible assumption
    | with_reducible refine State_setFlow_frame m1024 ?_
    | with_reducible refine State_incMod_frame m2 ?_
    | with_reducible refine Frame.ite ?_ ?_

theorem toAdapter_frame {κ : Nat} {σ : State} {p : Nat} {g : Seg} {s : State} (hk : Nat.testBit 1024 κ = false) (hF : Frame κ σ s) :
    Frame κ σ (toAdapter p g s) := by
  have m1024 := hk
  unfold toAdapter
  try dsimp only
  repeat' first
    | with_reducible exact hF
    | with_reducible assumption
    | with_reducible refine State_setEg_frame m1024 ?_
    | with_reducible refine State_setTx_frame m1024 ?_
    | with_reducible refine Frame.ite ?_ ?_

theorem toSecond_frame {κ : Nat} {σ : State} {n : Nat} {g : Seg} {s : State} (hk : Nat.testBit 1024 κ = false) (hF : Frame κ σ s) :
    Frame κ σ (toSecond n g s) := by
  have m1024 := hk
  unfold toSecond
  try dsimp only
  repeat' first
    | with_reducible exact hF
    | with_reducible assumption
    | with_reducible refine State_setFlow_frame m1024 ?_
    | with_reducible refine State_setSecond_frame m1024 ?_

theorem handOver_frame {κ : Nat} {σ : State} {o : Nat} {g : Seg} {s : State} (hk : Nat.testBit 1154 κ = false) (hF : Frame κ σ s) :
    Frame κ σ (handOver o g s) := by
  have m2 : Nat.testBit 2 κ = false := testBit_sub rfl hk
  have m128 : Nat.testBit 128 κ = false := testBit_sub rfl hk
  have m1024 : Nat.testBit 1024 κ = false := testBit_sub rfl hk
  have m1026 : Nat.testBit 1026 κ = false := testBit_sub rfl hk
  unfold handOver
  try dsimp only
  repeat' first
    | with_reducible exact hF
    | with_reducible assumption
    | with_reducible refine advanceSeq_frame m1026 ?_
    | with_reducible refine State_incMod_frame m2 ?_
    | with_reducible refine toSecond_frame m1024 ?_
    | with_reducible refine dropKept_frame m1024 ?_
    | with_reducible refine State_inc_frame m2 ?_
    | with_reducible refine toAdapter_frame m1024 ?_
    | with_reducible refine Frame.ite ?_ ?_
    | (apply Frame.lit m128 rfl; case e => constructor <;> (try dsimp only) <;> first | exact .inl rfl | exact .inr rfl)

theorem maybeReturn_frame {κ : Nat} {σ : State} {o : Nat} {n : Nat} {s : State} (hk : Nat.testBit 1024 κ = false) (hF : Frame κ σ s) :
    Frame κ σ (maybeReturn o n s) := by
  have m1024 := hk
  unfold maybeReturn
  try dsimp only
  repeat' first
    | with_reducible exact hF
    | with_reducible assumption
    | with_reducible refine State_setOutPos_frame m1024 ?_
    | with_reducible refine State_setFlow_frame m1024 ?_
    | with_reducible refine Frame.ite ?_ ?_

theorem unpark_frame {κ : Nat} {σ : State} {o : Nat} {n : Nat} {fuel : Nat} {s : State} (hk : Nat.testBit 1154 κ = false) (hF : Frame κ σ s) :
    Frame κ σ (unpark o n fuel s) := by
  have m1154 := hk
  have m1024 : Nat.testBit 1024 κ = false := testBit_sub rfl hk
  induction fuel generalizing s with
  | zero => exact hF
  | succ fuel ih =>
  unfold unpark
  try dsimp only
  repeat' first
    | with_reducible exact hF
    | with_reducible refine ih ?_
    | with_reducible assumption
    | with_reducible refine maybeReturn_frame m1024 ?_
    | with_reducible refine handOver_frame m1154 ?_
    | with_reducible refine State_setOutPos_frame m1024 ?_
    | with_reducible refine Frame.ite ?_ ?_
    | split

theorem unparkPort_frame {κ : Nat} {σ : State} {p : Nat} {s : State} (hk : Nat.testBit 1154 κ = false) (hF : Frame κ σ s) :
    Frame κ σ (unparkPort p s) := by
  have m1154 := hk
  unfold unparkPort
  try dsimp only
  repeat' first
    | with_reducible exact hF
    | with_reducible assumption
    | with_reducible refine unpark_frame m1154 ?_
    | with_reducible refine forAll_frame (fun _ _ _ => ?_) ?_

theorem park_frame {κ : Nat} {σ : State} {o : Nat} {g : Seg} {s : State} (hk : Nat.testBit 1218 κ = false) (hF : Frame κ σ s) :
    Frame κ σ (park o g s) := by
  have m2 : Nat.testBit 2 κ = false := testBit_sub rfl hk
  have m64 : Nat.testBit 64 κ = false := testBit_sub rfl hk
  have m130 : Nat.testBit 130 κ = false := testBit_sub rfl hk
  have m1024 : Nat.testBit 1024 κ = false := testBit_sub rfl hk
  unfold park
  try dsimp only
  repeat' first
    | with_reducible exact hF
    | with_reducible assumption
    | with_reducible refine State_setOutPos_frame m1024 ?_
    | with_reducible refine raise_frame m130 ?_
    | with_reducible refine storeSeg_frame m64 ?_
    | with_reducible refine State_inc_frame m2 ?_
    | with_reducible refine State_wr_frame m2 ?_
    | with_reducible refine Frame.ite ?_ ?_

theorem agentUnit_frame {κ : Nat} {σ : State} {n : Nat} {data : Bytes} {s : State} (hk : Nat.testBit 1024 κ = false) (hF : Frame κ σ s) :
    Frame κ σ (agentUnit n data s) := by
  have m1024 := hk
  unfold agentUnit
  try dsimp only
  repeat' first
    | with_reducible exact hF
    | with_reducible assumption
    | with_reducible refine toSecond_frame m1024 ?_
    | with_reducible refine forAll_frame (fun _ _ _ => ?_) ?_

theorem agentMessage_frame {κ : Nat} {σ : State} {n : Nat} {payload : Bytes} {s : State} (hk : Nat.testBit 1024 κ = false) (hF : Frame κ σ s) :
    Frame κ σ (agentMessage n payload s) := by
  have m1024 := hk
  unfold agentMessage
  try dsimp only
  repeat' first
    | with_reducible exact hF
    | with_reducible assumption
    | with_reducible refine toSecond_frame m1024 ?_
    | with_reducible refine Frame.ite ?_ ?_

theorem outArrive_frame {κ : Nat} {σ : State} {o : Nat} {g : Seg} {s : State} (hk : Nat.testBit 1218 κ = false) (hF : Frame κ σ s) :
    Frame κ σ (outArrive o g s) := by
  have m1218 := hk
  have m1024 : Nat.testBit 1024 κ = false := testBit_sub rfl hk
  have m1154 : Nat.testBit 1154 κ = false := testBit_sub rfl hk
  unfold outArrive
  try dsimp only
  repeat' first
    | with_reducible exact hF
    | with_reducible assumption
    | with_reducible refine unpark_frame m1154 ?_
    | with_reducible refine maybeReturn_frame m1024 ?_
    | with_reducible refine handOver_frame m1154 ?_
    | with_reducible refine park_frame m1218 ?_
    | with_reducible refine Frame.ite ?_ ?_

theorem toMemoryAgent_frame {κ : Nat} {σ : State} {j : Nat} {s : State} (hk : Nat.testBit 1218 κ = false) (hF : Frame κ σ s) :
    Frame κ σ (toMemoryAgent j s) := by
  have m130 : Nat.testBit 130 κ = false := testBit_sub rfl hk
  have m1024 : Nat.testBit 1024 κ = false := testBit_sub rfl hk
  have m1026 : Nat.testBit 1026 κ = false := testBit_sub rfl hk
  have m1088 : Nat.testBit 1088 κ = false := testBit_sub rfl hk
  unfold toMemoryAgent
  try dsimp only
  repeat' first
    | with_reducible exact hF
    | with_reducible assumption
    | with_reducible refine appendSpill_frame m1088 ?_
    | with_reducible refine State_setInter_frame m1024 ?_
    | with_reducible refine setVoid_frame m1026 ?_
    | with_reducible refine updateSpill_frame m130 ?_
    | with_reducible refine Frame.ite ?_ ?_
    | split

theorem stageTwo_frame {κ : Nat} {σ : State} {t : Nat} {j : Nat} {s : State} (hk : Nat.testBit 1218 κ = false) (hF : Frame κ σ s) :
    Frame κ σ (stageTwo t j s) := by
  have m1218 := hk
  have m1024 : Nat.testBit 1024 κ = false := testBit_sub rfl hk
  unfold stageTwo
  try dsimp only
  repeat' first
    | with_reducible exact hF
    | with_reducible assumption
    | with_reducible refine toMemoryAgent_frame m1218 ?_
    | with_reducible refine outArrive_frame m1218 ?_
    | with_reducible refine State_setInter_frame m1024 ?_
    | with_reducible refine Frame.ite ?_ ?_
    | split

theorem checkWord_frame {κ : Nat} {σ : State} {w : Nat} {s : State} (hk : Nat.testBit 130 κ = false) (hF : Frame κ σ s) :
    Frame κ σ (checkWord w s) := by
  have m130 := hk
  unfold checkWord
  try dsimp only
  repeat' first
    | with_reducible exact hF
    | with_reducible assumption
    | with_reducible refine raise_frame m130 ?_
    | with_reducible refine Frame.ite ?_ ?_

theorem sidebandTwo_frame {κ : Nat} {σ : State} {t : Nat} {bad : BitVec 20} {j : Nat} {s : State} (hk : Nat.testBit 1154 κ = false) (hF : Frame κ σ s) :
    Frame κ σ (sidebandTwo t bad j s) := by
  have m130 : Nat.testBit 130 κ = false := testBit_sub rfl hk
  have m1024 : Nat.testBit 1024 κ = false := testBit_sub rfl hk
  unfold sidebandTwo
  try dsimp only
  repeat' first
    | with_reducible exact hF
    | with_reducible assumption
    | with_reducible refine checkWord_frame m130 ?_
    | with_reducible refine State_setOutPos_frame m1024 ?_
    | with_reducible refine State_setInter_frame m1024 ?_
    | split

theorem take_frame {κ : Nat} {σ : State} {i : Nat} {n : Pick} {s t : State} {g : Seg} (hk : Nat.testBit 1024 κ = false)
    (h : Frame κ σ s) (e : take i n s = some (g, t)) : Frame κ σ t := by
  have hf : ∀ {u : State} {x : Fab}, Frame κ σ u → Frame κ σ { u with fb := x } := by
    intro u x hu
    apply Frame.lit (testBit_sub (a := 1024) rfl hk) rfl
    case e => constructor <;> (try dsimp only) <;> first | exact .inl rfl | exact .inr rfl
    exact hu
  unfold take at e
  dsimp only at e
  split at e
  · cases e
  · simp only [Option.some.injEq, Prod.mk.injEq] at e
    obtain ⟨-, rfl⟩ := e
    repeat' first
      | exact h
      | with_reducible refine Frame.ite ?_ ?_
      | with_reducible refine State_setSecond_frame (testBit_sub rfl hk) ?_
      | with_reducible refine State_setIngress_frame (testBit_sub rfl hk) ?_
      | with_reducible refine State_setFlow_frame (testBit_sub rfl hk) ?_
      | exact hf ‹_›
      | refine hf ?_

theorem passVoid_frame {κ : Nat} {σ : State} {g : Seg} {s : State} (hk : Nat.testBit 1026 κ = false) (hF : Frame κ σ s) :
    Frame κ σ (passVoid g s) := by
  have m1026 := hk
  unfold passVoid
  try dsimp only
  repeat' first
    | with_reducible exact hF
    | with_reducible assumption
    | with_reducible refine setVoid_frame m1026 ?_

theorem readBack_frame {κ : Nat} {σ : State} {j : Nat} {s : State} (hk : Nat.testBit 1154 κ = false) (hF : Frame κ σ s) :
    Frame κ σ (readBack j s) := by
  have m1154 := hk
  have m130 : Nat.testBit 130 κ = false := testBit_sub rfl hk
  have m1024 : Nat.testBit 1024 κ = false := testBit_sub rfl hk
  have m1026 : Nat.testBit 1026 κ = false := testBit_sub rfl hk
  unfold readBack
  try dsimp only
  repeat' first
    | with_reducible exact hF
    | with_reducible assumption
    | with_reducible refine passVoid_frame m1026 ?_
    | with_reducible refine State_setSpill_frame m1024 ?_
    | with_reducible refine updateSpill_frame m130 ?_
    | with_reducible refine joinBulk_frame m1154 ?_
    | with_reducible refine forAll_frame (fun _ _ _ => ?_) ?_
    | with_reducible refine Frame.ite ?_ ?_
    | split
    | (apply Frame.lit m1024 rfl; case e => constructor <;> (try dsimp only) <;> first | exact .inl rfl | exact .inr rfl)

theorem stageOne_frame {κ : Nat} {σ : State} {t : Nat} {i : Nat} {s : State} (hk : Nat.testBit 1154 κ = false) (hF : Frame κ σ s) :
    Frame κ σ (stageOne t i s) := by
  have m1154 := hk
  have m1024 : Nat.testBit 1024 κ = false := testBit_sub rfl hk
  unfold stageOne
  try dsimp only
  repeat' first
    | refine take_frame (e := by assumption) m1024 ?_
    | with_reducible exact hF
    | with_reducible assumption
    | with_reducible refine readBack_frame m1154 ?_
    | with_reducible refine State_setInter_frame m1024 ?_
    | with_reducible refine bulkArrive_frame m1154 ?_
    | with_reducible refine Frame.ite ?_ ?_
    | split
    | with_reducible refine Frame.snd (by assumption) ?_
    | with_reducible refine Frame.snd2 (by assumption) ?_
    | (dsimp only)

theorem sidebandOne_frame {κ : Nat} {σ : State} {t : Nat} {badAcc : BitVec 20} {badRet : BitVec 20} {i : Nat} {s : State} (hk : Nat.testBit 1154 κ = false) (hF : Frame κ σ s) :
    Frame κ σ (sidebandOne t badAcc badRet i s) := by
  have m130 : Nat.testBit 130 κ = false := testBit_sub rfl hk
  have m1024 : Nat.testBit 1024 κ = false := testBit_sub rfl hk
  unfold sidebandOne
  try dsimp only
  repeat' first
    | with_reducible exact hF
    | with_reducible assumption
    | with_reducible refine State_setInter_frame m1024 ?_
    | with_reducible refine checkWord_frame m130 ?_
    | with_reducible refine State_setFlow_frame m1024 ?_
    | split
    | (apply Frame.lit m1024 rfl; case e => constructor <;> (try dsimp only) <;> first | exact .inl rfl | exact .inr rfl)

theorem fabricSlot_frame {κ : Nat} {σ : State} {badAcc : BitVec 20} {badRet : BitVec 20} {badOut : BitVec 20} {s : State} (hk : Nat.testBit 1218 κ = false) (hF : Frame κ σ s) :
    Frame κ σ (fabricSlot badAcc badRet badOut s) := by
  have m1218 := hk
  have m2 : Nat.testBit 2 κ = false := testBit_sub rfl hk
  have m1154 : Nat.testBit 1154 κ = false := testBit_sub rfl hk
  unfold fabricSlot
  try dsimp only
  repeat' first
    | with_reducible exact hF
    | with_reducible assumption
    | with_reducible refine stageTwo_frame m1218 ?_
    | with_reducible refine stageOne_frame m1154 ?_
    | with_reducible refine sidebandTwo_frame m1154 ?_
    | with_reducible refine sidebandOne_frame m1154 ?_
    | with_reducible refine State_incMod_frame m2 ?_
    | with_reducible refine forAll_frame (fun _ _ _ => ?_) ?_

theorem execMapSwitch_frame {κ : Nat} {σ : State} {s : State} (hk : Nat.testBit 130 κ = false) (hF : Frame κ σ s) :
    FrameO κ σ (execMapSwitch s) := by
  have m130 := hk
  have m2 : Nat.testBit 2 κ = false := testBit_sub rfl hk
  unfold execMapSwitch
  try dsimp only
  repeat' first
    | with_reducible exact hF
    | with_reducible assumption
    | with_reducible refine raise_frame m130 ?_
    | with_reducible refine wrs_frame m2 ?_
    | with_reducible refine FrameO.next ?_
    | with_reducible refine FrameO.ite ?_ ?_
    | with_reducible refine Frame.ite ?_ ?_

theorem execReturnTimer_frame {κ : Nat} {σ : State} {n : Tun} {s : State} (hk : Nat.testBit 1024 κ = false) (hF : Frame κ σ s) :
    FrameO κ σ (execReturnTimer n s) := by
  have m1024 := hk
  unfold execReturnTimer
  try dsimp only
  repeat' first
    | with_reducible exact hF
    | with_reducible assumption
    | with_reducible refine State_setOutPos_frame m1024 ?_
    | with_reducible refine State_setFlow_frame m1024 ?_
    | with_reducible refine FrameO.next ?_
    | with_reducible refine FrameO.ite ?_ ?_
    | with_reducible refine Frame.ite ?_ ?_

theorem flushTunnel_frame {κ : Nat} {σ : State} {n : Nat} {s : State} (hk : Nat.testBit 1154 κ = false) (hF : Frame κ σ s) :
    Frame κ σ (flushTunnel n s) := by
  have m1154 := hk
  have m1024 : Nat.testBit 1024 κ = false := testBit_sub rfl hk
  have m1026 : Nat.testBit 1026 κ = false := testBit_sub rfl hk
  unfold flushTunnel
  try dsimp only
  repeat' first
    | with_reducible exact hF
    | with_reducible assumption
    | with_reducible refine setVoid_frame m1026 ?_
    | with_reducible refine unparkPort_frame m1154 ?_
    | with_reducible refine forAll_frame (fun _ _ _ => ?_) ?_
    | with_reducible refine Frame.ite ?_ ?_
    | (apply Frame.lit m1024 rfl; case e => constructor <;> (try dsimp only) <;> first | exact .inl rfl | exact .inr rfl)

theorem voidReclaim_frame {κ : Nat} {σ : State} {n : Nat} {g : Nat} {s : State} (hk : Nat.testBit 1154 κ = false) (hF : Frame κ σ s) :
    Frame κ σ (voidReclaim n g s) := by
  have m130 : Nat.testBit 130 κ = false := testBit_sub rfl hk
  have m1024 : Nat.testBit 1024 κ = false := testBit_sub rfl hk
  have m1026 : Nat.testBit 1026 κ = false := testBit_sub rfl hk
  unfold voidReclaim
  try dsimp only
  repeat' first
    | with_reducible exact hF
    | with_reducible assumption
    | with_reducible refine updateSpill_frame m130 ?_
    | with_reducible refine setVoid_frame m1026 ?_
    | with_reducible refine forAll_frame (fun _ _ _ => ?_) ?_
    | with_reducible refine Frame.ite ?_ ?_
    | (apply Frame.lit m1024 rfl; case e => constructor <;> (try dsimp only) <;> first | exact .inl rfl | exact .inr rfl)

theorem execVoidReclaim_frame {κ : Nat} {σ : State} {n : Tun} {gen : Fin 4} {s : State} (hk : Nat.testBit 1154 κ = false) (hF : Frame κ σ s) :
    FrameO κ σ (execVoidReclaim n gen s) := by
  have m1154 := hk
  unfold execVoidReclaim
  try dsimp only
  repeat' first
    | with_reducible exact hF
    | with_reducible assumption
    | with_reducible refine voidReclaim_frame m1154 ?_
    | with_reducible refine FrameO.next ?_

theorem execCellEvacuated_frame {κ : Nat} {σ : State} {cell : BufCell} {s : State} (hk : Nat.testBit 2 κ = false) (hF : Frame κ σ s) :
    FrameO κ σ (execCellEvacuated cell s) := by
  have m2 := hk
  unfold execCellEvacuated
  try dsimp only
  repeat' first
    | with_reducible exact hF
    | with_reducible assumption
    | with_reducible refine State_wr_frame m2 ?_
    | with_reducible refine FrameO.next ?_
    | with_reducible refine FrameO.ite ?_ ?_
    | with_reducible refine Frame.ite ?_ ?_

end Sys2Proof.Laws
end

