-- ==== Sys2Proof/Laws/FrameSched.lean ====
section
/-! SUPPORT. What each operation of Machine/Sched.lean leaves alone. -/

namespace Sys2Proof.Laws

open Sys2Proof Sys2Proof.Machine

set_option linter.unusedTactic false
set_option linter.unreachableTactic false
set_option linter.unusedVariables false

theorem slewTo_frame {κ : Nat} {σ : State} {target : Nat} {s : State} (hk : Nat.testBit 2 κ = false) (hF : Frame κ σ s) :
    Frame κ σ (slewTo target s) := by
  have m2 := hk
  unfold slewTo
  try dsimp only
  repeat' first
    | with_reducible exact hF
    | with_reducible assumption
    | with_reducible refine State_wr_frame m2 ?_
    | with_reducible refine Frame.ite ?_ ?_

theorem noteSkip_frame {κ : Nat} {σ : State} {p : Nat} {s : State} (hk : Nat.testBit 2178 κ = false) (hF : Frame κ σ s) :
    Frame κ σ (noteSkip p s) := by
  have m130 : Nat.testBit 130 κ = false := testBit_sub rfl hk
  have m2048 : Nat.testBit 2048 κ = false := testBit_sub rfl hk
  unfold noteSkip
  try dsimp only
  repeat' first
    | with_reducible exact hF
    | with_reducible assumption
    | with_reducible refine raise_frame m130 ?_
    | with_reducible refine Frame.ite ?_ ?_
    | (apply Frame.lit m2048 rfl; case e => constructor <;> (try dsimp only) <;> first | exact .inl rfl | exact .inr rfl)

theorem frameInstant_frame {κ : Nat} {σ : State} {s : State} (hk : Nat.testBit 4196482 κ = false) (hF : Frame κ σ s) :
    Frame κ σ (frameInstant s) := by
  have m2 : Nat.testBit 2 κ = false := testBit_sub rfl hk
  have m2048 : Nat.testBit 2048 κ = false := testBit_sub rfl hk
  have m2178 : Nat.testBit 2178 κ = false := testBit_sub rfl hk
  have m4194304 : Nat.testBit 4194304 κ = false := testBit_sub rfl hk
  unfold frameInstant
  try dsimp only
  repeat' first
    | with_reducible exact hF
    | with_reducible assumption
    | with_reducible refine noteSkip_frame m2178 ?_
    | with_reducible refine State_incMod_frame m2 ?_
    | with_reducible refine State_wr_frame m2 ?_
    | with_reducible refine State_setEvt_frame m4194304 ?_
    | with_reducible refine forAll_frame (fun _ _ _ => ?_) ?_
    | (apply Frame.lit m2048 rfl; case e => constructor <;> (try dsimp only) <;> first | exact .inl rfl | exact .inr rfl)

theorem slewLine_frame {κ : Nat} {σ : State} {s : State} (hk : Nat.testBit 2 κ = false) (hF : Frame κ σ s) :
    Frame κ σ (slewLine s) := by
  have m2 := hk
  unfold slewLine
  try dsimp only
  repeat' first
    | with_reducible exact hF
    | with_reducible assumption
    | with_reducible refine slewTo_frame m2 ?_
    | with_reducible refine Frame.ite ?_ ?_

theorem leadCycle_frame {κ : Nat} {σ : State} {s : State} (hk : Nat.testBit 4196482 κ = false) (hF : Frame κ σ s) :
    Frame κ σ (leadCycle s) := by
  have m4196482 := hk
  have m2 : Nat.testBit 2 κ = false := testBit_sub rfl hk
  have m2048 : Nat.testBit 2048 κ = false := testBit_sub rfl hk
  unfold leadCycle
  try dsimp only
  repeat' first
    | with_reducible exact hF
    | with_reducible assumption
    | with_reducible refine slewLine_frame m2 ?_
    | with_reducible refine frameInstant_frame m4196482 ?_
    | with_reducible refine Frame.ite ?_ ?_
    | (apply Frame.lit m2048 rfl; case e => constructor <;> (try dsimp only) <;> first | exact .inl rfl | exact .inr rfl)

theorem execLeadFrameStart_frame {κ : Nat} {σ : State} {total : Nat} {inc : Nat} {s : State} (hk : Nat.testBit 4196482 κ = false) (hF : Frame κ σ s) :
    FrameO κ σ (execLeadFrameStart total inc s) := by
  have m4196482 := hk
  unfold execLeadFrameStart
  try dsimp only
  repeat' first
    | with_reducible exact hF
    | with_reducible assumption
    | with_reducible refine leadCycle_frame m4196482 ?_
    | with_reducible refine FrameO.next ?_
    | with_reducible refine FrameO.ite ?_ ?_
    | with_reducible refine Frame.ite ?_ ?_

theorem declareGeometry_frame {κ : Nat} {σ : State} {s : State} (hk : Nat.testBit 2690 κ = false) (hF : Frame κ σ s) :
    Frame κ σ (declareGeometry s) := by
  have m2 : Nat.testBit 2 κ = false := testBit_sub rfl hk
  have m130 : Nat.testBit 130 κ = false := testBit_sub rfl hk
  have m514 : Nat.testBit 514 κ = false := testBit_sub rfl hk
  have m2048 : Nat.testBit 2048 κ = false := testBit_sub rfl hk
  unfold declareGeometry
  try dsimp only
  repeat' first
    | with_reducible exact hF
    | with_reducible assumption
    | with_reducible refine structuralEvent_frame m514 ?_
    | with_reducible refine raise_frame m130 ?_
    | with_reducible refine State_wr_frame m2 ?_
    | (apply Frame.lit m2048 rfl; case e => constructor <;> (try dsimp only) <;> first | exact .inl rfl | exact .inr rfl)

theorem followSource_frame {κ : Nat} {σ : State} {period : Nat} {s : State} (hk : Nat.testBit 2178 κ = false) (hF : Frame κ σ s) :
    Frame κ σ (followSource period s) := by
  have m2 : Nat.testBit 2 κ = false := testBit_sub rfl hk
  have m130 : Nat.testBit 130 κ = false := testBit_sub rfl hk
  have m2048 : Nat.testBit 2048 κ = false := testBit_sub rfl hk
  unfold followSource
  try dsimp only
  repeat' first
    | with_reducible exact hF
    | with_reducible assumption
    | with_reducible refine State_wr_frame m2 ?_
    | with_reducible refine raise_frame m130 ?_
    | with_reducible refine Frame.ite ?_ ?_
    | (apply Frame.lit m2048 rfl; case e => constructor <;> (try dsimp only) <;> first | exact .inl rfl | exact .inr rfl)

theorem sourceFrame_frame {κ : Nat} {σ : State} {k : Nat} {total : Nat} {period : Nat} {s : State} (hk : Nat.testBit 2690 κ = false) (hF : Frame κ σ s) :
    Frame κ σ (sourceFrame k total period s) := by
  have m2690 := hk
  have m2048 : Nat.testBit 2048 κ = false := testBit_sub rfl hk
  have m2178 : Nat.testBit 2178 κ = false := testBit_sub rfl hk
  unfold sourceFrame
  try dsimp only
  repeat' first
    | with_reducible exact hF
    | with_reducible assumption
    | with_reducible refine declareGeometry_frame m2690 ?_
    | with_reducible refine followSource_frame m2178 ?_
    | with_reducible refine Frame.ite ?_ ?_
    | (apply Frame.lit m2048 rfl; case e => constructor <;> (try dsimp only) <;> first | exact .inl rfl | exact .inr rfl)

theorem execLeadSourceLost_frame {κ : Nat} {σ : State} {s : State} (hk : Nat.testBit 2178 κ = false) (hF : Frame κ σ s) :
    FrameO κ σ (execLeadSourceLost s) := by
  have m2 : Nat.testBit 2 κ = false := testBit_sub rfl hk
  have m130 : Nat.testBit 130 κ = false := testBit_sub rfl hk
  have m2048 : Nat.testBit 2048 κ = false := testBit_sub rfl hk
  unfold execLeadSourceLost
  try dsimp only
  repeat' first
    | with_reducible exact hF
    | with_reducible assumption
    | with_reducible refine raise_frame m130 ?_
    | with_reducible refine State_wr_frame m2 ?_
    | with_reducible refine FrameO.next ?_
    | with_reducible refine FrameO.ite ?_ ?_
    | with_reducible refine Frame.ite ?_ ?_
    | (apply Frame.lit m2048 rfl; case e => constructor <;> (try dsimp only) <;> first | exact .inl rfl | exact .inr rfl)

theorem adoptGeometry_frame {κ : Nat} {σ : State} {s : State} (hk : Nat.testBit 2178 κ = false) (hF : Frame κ σ s) :
    Frame κ σ (adoptGeometry s) := by
  have m2 : Nat.testBit 2 κ = false := testBit_sub rfl hk
  have m130 : Nat.testBit 130 κ = false := testBit_sub rfl hk
  have m2048 : Nat.testBit 2048 κ = false := testBit_sub rfl hk
  unfold adoptGeometry
  try dsimp only
  repeat' first
    | with_reducible exact hF
    | with_reducible assumption
    | with_reducible refine raise_frame m130 ?_
    | with_reducible refine wrs_frame m2 ?_
    | with_reducible refine Frame.ite ?_ ?_
    | split
    | (apply Frame.lit m2048 rfl; case e => constructor <;> (try dsimp only) <;> first | exact .inl rfl | exact .inr rfl)

theorem wrSchedLead_frame {κ : Nat} {σ : State} {v : Nat} {s : State} (hk : Nat.testBit 642 κ = false) (hF : Frame κ σ s) :
    Frame κ σ (wrSchedLead v s) := by
  have m130 : Nat.testBit 130 κ = false := testBit_sub rfl hk
  have m514 : Nat.testBit 514 κ = false := testBit_sub rfl hk
  unfold wrSchedLead
  try dsimp only
  repeat' first
    | with_reducible exact hF
    | with_reducible assumption
    | with_reducible refine wrWord_frame m130 ?_
    | with_reducible refine structuralEvent_frame m514 ?_
    | with_reducible refine Frame.ite ?_ ?_

theorem wrSchedVirt_frame {κ : Nat} {σ : State} {v : Nat} {s : State} (hk : Nat.testBit 2690 κ = false) (hF : Frame κ σ s) :
    Frame κ σ (wrSchedVirt v s) := by
  have m2690 := hk
  have m130 : Nat.testBit 130 κ = false := testBit_sub rfl hk
  unfold wrSchedVirt
  try dsimp only
  repeat' first
    | with_reducible exact hF
    | with_reducible assumption
    | with_reducible refine wrWord_frame m130 ?_
    | with_reducible refine declareGeometry_frame m2690 ?_
    | with_reducible refine Frame.ite ?_ ?_

theorem sendSeg_frame {κ : Nat} {σ : State} {p : Nat} {g : Seg} {s : State} (hk : Nat.testBit 13330 κ = false) (hF : Frame κ σ s) :
    Frame κ σ (sendSeg p g s) := by
  have m2 : Nat.testBit 2 κ = false := testBit_sub rfl hk
  have m16 : Nat.testBit 16 κ = false := testBit_sub rfl hk
  have m1024 : Nat.testBit 1024 κ = false := testBit_sub rfl hk
  have m1040 : Nat.testBit 1040 κ = false := testBit_sub rfl hk
  have m4096 : Nat.testBit 4096 κ = false := testBit_sub rfl hk
  have m8210 : Nat.testBit 8210 κ = false := testBit_sub rfl hk
  unfold sendSeg
  try dsimp only
  repeat' first
    | with_reducible exact hF
    | with_reducible assumption
    | with_reducible refine wakeLink_frame m2 ?_
    | with_reducible refine State_setEg_frame m1024 ?_
    | with_reducible refine State_incMod_frame m2 ?_
    | with_reducible refine State_setCredit_frame m4096 ?_
    | with_reducible refine sendLink_frame m8210 ?_
    | with_reducible refine State_emit_frame m16 ?_
    | with_reducible refine Frame.ite ?_ ?_
    | (apply Frame.lit m1040 rfl; case e => constructor <;> (try dsimp only) <;> first | exact .inl rfl | exact .inr rfl)

theorem sendSegs_frame {κ : Nat} {σ : State} {p : Nat} {u : List Seg} {s : State} (hk : Nat.testBit 13330 κ = false) (hF : Frame κ σ s) :
    Frame κ σ (sendSegs p u s) := by
  have m13330 := hk
  unfold sendSegs
  try dsimp only
  repeat' first
    | with_reducible exact hF
    | with_reducible assumption
    | with_reducible refine sendSeg_frame m13330 ?_
    | with_reducible refine forAll_frame (fun _ _ _ => ?_) ?_

theorem visit_frame {κ : Nat} {σ : State} {p c : Nat} {l : List Nat} {s : State} (hk : Nat.testBit 1024 κ = false)
    (h : Frame κ σ s) : Frame κ σ (visit p c l s).2 := by
  induction l generalizing s with
  | nil => exact h
  | cons n rest ih =>
  have hm : Nat.testBit 1024 κ = false := testBit_sub rfl hk
  unfold visit
  split
  · exact ih (State_setFlow_frame hm h)
  · dsimp only
    split
    · exact ih h
    · split
      · exact ih (State_setFlow_frame hm h)
      · exact State_setFlow_frame hm h

theorem clearDeficits_frame {κ : Nat} {σ : State} {p : Nat} {s : State} (hk : Nat.testBit 1024 κ = false) (hF : Frame κ σ s) :
    Frame κ σ (clearDeficits p s) := by
  have m1024 := hk
  unfold clearDeficits
  try dsimp only
  repeat' first
    | with_reducible exact hF
    | with_reducible assumption
    | with_reducible refine Frame.ite ?_ ?_
    | (apply Frame.lit m1024 rfl; case e => constructor <;> (try dsimp only) <;> first | exact .inl rfl | exact .inr rfl)

theorem chooseUnit_frame {κ : Nat} {σ : State} {p : Nat} {l : List Nat} {s : State} (hk : Nat.testBit 1024 κ = false)
    (h : Frame κ σ s) : Frame κ σ (chooseUnit p l s).2 := by
  induction l generalizing s with
  | nil => exact h
  | cons c cs ih =>
  unfold chooseUnit
  split
  · exact ih h
  · dsimp only
    split
    · exact Frame.snd (by assumption) (visit_frame (testBit_sub rfl hk) h)
    · exact ih (Frame.snd (by assumption) (visit_frame (testBit_sub rfl hk) h))

theorem updateStall_frame {κ : Nat} {σ : State} {p : Nat} {sending : Bool} {s : State} (hk : Nat.testBit 1026 κ = false) (hF : Frame κ σ s) :
    Frame κ σ (updateStall p sending s) := by
  have m2 : Nat.testBit 2 κ = false := testBit_sub rfl hk
  have m1024 : Nat.testBit 1024 κ = false := testBit_sub rfl hk
  unfold updateStall
  try dsimp only
  repeat' first
    | with_reducible exact hF
    | with_reducible assumption
    | with_reducible refine State_wr_frame m2 ?_
    | with_reducible refine State_setEg_frame m1024 ?_
    | with_reducible refine Frame.ite ?_ ?_

theorem settleStall_frame {κ : Nat} {σ : State} {p : Nat} {s : State} (hk : Nat.testBit 2 κ = false) (hF : Frame κ σ s) :
    Frame κ σ (settleStall p s) := by
  have m2 := hk
  unfold settleStall
  try dsimp only
  repeat' first
    | with_reducible exact hF
    | with_reducible assumption
    | with_reducible refine State_wr_frame m2 ?_
    | with_reducible refine Frame.ite ?_ ?_

theorem egressStart_frame {κ : Nat} {σ : State} {p : Nat} {s : State} (hk : Nat.testBit 13458 κ = false) (hF : Frame κ σ s) :
    Frame κ σ (egressStart p s) := by
  have m2 : Nat.testBit 2 κ = false := testBit_sub rfl hk
  have m1024 : Nat.testBit 1024 κ = false := testBit_sub rfl hk
  have m1026 : Nat.testBit 1026 κ = false := testBit_sub rfl hk
  have m1154 : Nat.testBit 1154 κ = false := testBit_sub rfl hk
  have m13330 : Nat.testBit 13330 κ = false := testBit_sub rfl hk
  unfold egressStart
  try dsimp only
  repeat' first
    | with_reducible exact hF
    | with_reducible assumption
    | with_reducible refine unparkPort_frame m1154 ?_
    | with_reducible refine sendSegs_frame m13330 ?_
    | with_reducible refine State_setTx_frame m1024 ?_
    | with_reducible refine State_setEg_frame m1024 ?_
    | with_reducible refine chooseUnit_frame m1024 ?_
    | with_reducible refine clearDeficits_frame m1024 ?_
    | with_reducible refine updateStall_frame m1026 ?_
    | with_reducible refine State_incMod_frame m2 ?_
    | with_reducible refine Frame.ite ?_ ?_
    | split
    | with_reducible refine Frame.snd (by assumption) ?_
    | with_reducible refine Frame.snd2 (by assumption) ?_
    | (dsimp only)

theorem breakOff_frame {κ : Nat} {σ : State} {p : Nat} {n : Nat} {s : State} (hk : Nat.testBit 1170 κ = false) (hF : Frame κ σ s) :
    Frame κ σ (breakOff p n s) := by
  have m2 : Nat.testBit 2 κ = false := testBit_sub rfl hk
  have m16 : Nat.testBit 16 κ = false := testBit_sub rfl hk
  have m130 : Nat.testBit 130 κ = false := testBit_sub rfl hk
  have m1024 : Nat.testBit 1024 κ = false := testBit_sub rfl hk
  unfold breakOff
  try dsimp only
  repeat' first
    | with_reducible exact hF
    | with_reducible assumption
    | with_reducible refine State_setTx_frame m1024 ?_
    | with_reducible refine State_setEg_frame m1024 ?_
    | with_reducible refine raise_frame m130 ?_
    | with_reducible refine State_inc_frame m2 ?_
    | with_reducible refine State_emit_frame m16 ?_
    | split

theorem execCutThroughAbort_frame {κ : Nat} {σ : State} {port : Port} {s : State} (hk : Nat.testBit 1170 κ = false) (hF : Frame κ σ s) :
    FrameO κ σ (execCutThroughAbort port s) := by
  have m1170 := hk
  unfold execCutThroughAbort
  try dsimp only
  repeat' first
    | with_reducible exact hF
    | with_reducible assumption
    | with_reducible refine breakOff_frame m1170 ?_
    | with_reducible refine FrameO.next ?_
    | split

theorem execBackoffEnd_frame {κ : Nat} {σ : State} {port : Port} {s : State} (hk : Nat.testBit 1024 κ = false) (hF : Frame κ σ s) :
    FrameO κ σ (execBackoffEnd port s) := by
  have m1024 := hk
  unfold execBackoffEnd
  try dsimp only
  repeat' first
    | with_reducible exact hF
    | with_reducible assumption
    | with_reducible refine State_setEg_frame m1024 ?_
    | with_reducible refine FrameO.next ?_

theorem execQbvCycleStart_frame {κ : Nat} {σ : State} {port : Port} {s : State} (hk : Nat.testBit 2048 κ = false) (hF : Frame κ σ s) :
    FrameO κ σ (execQbvCycleStart port s) := by
  have m2048 := hk
  unfold execQbvCycleStart
  try dsimp only
  repeat' first
    | with_reducible exact hF
    | with_reducible assumption
    | with_reducible refine FrameO.next ?_
    | with_reducible refine FrameO.ite ?_ ?_
    | with_reducible refine Frame.ite ?_ ?_
    | (apply Frame.lit m2048 rfl; case e => constructor <;> (try dsimp only) <;> first | exact .inl rfl | exact .inr rfl)

theorem holdGates_frame {κ : Nat} {σ : State} {n : Nat} {s : State} (hk : Nat.testBit 2048 κ = false) (hF : Frame κ σ s) :
    Frame κ σ (holdGates n s) := by
  have m2048 := hk
  unfold holdGates
  try dsimp only
  repeat' first
    | with_reducible exact hF
    | with_reducible assumption
    | with_reducible refine Frame.ite ?_ ?_
    | (apply Frame.lit m2048 rfl; case e => constructor <;> (try dsimp only) <;> first | exact .inl rfl | exact .inr rfl)

theorem restartSeries_frame {κ : Nat} {σ : State} {n : Nat} {s : State} (hk : Nat.testBit 2048 κ = false) (hF : Frame κ σ s) :
    Frame κ σ (restartSeries n s) := by
  have m2048 := hk
  unfold restartSeries
  try dsimp only
  repeat' first
    | with_reducible exact hF
    | with_reducible assumption
    | with_reducible refine Frame.ite ?_ ?_
    | (apply Frame.lit m2048 rfl; case e => constructor <;> (try dsimp only) <;> first | exact .inl rfl | exact .inr rfl)

theorem adoptQbv_frame {κ : Nat} {σ : State} {p : Nat} {s : State} (hk : Nat.testBit 67714 κ = false) (hF : Frame κ σ s) :
    Frame κ σ (adoptQbv p s) := by
  have m130 : Nat.testBit 130 κ = false := testBit_sub rfl hk
  have m67584 : Nat.testBit 67584 κ = false := testBit_sub rfl hk
  unfold adoptQbv
  try dsimp only
  repeat' first
    | with_reducible exact hF
    | with_reducible assumption
    | with_reducible refine raise_frame m130 ?_
    | with_reducible refine Frame.ite ?_ ?_
    | (apply Frame.lit m67584 rfl; case e => constructor <;> (try dsimp only) <;> first | exact .inl rfl | exact .inr rfl)

theorem wrCalctl_frame {κ : Nat} {σ : State} {p : Nat} {v : Nat} {s : State} (hk : Nat.testBit 2178 κ = false) (hF : Frame κ σ s) :
    Frame κ σ (wrCalctl p v s) := by
  have m130 : Nat.testBit 130 κ = false := testBit_sub rfl hk
  have m2048 : Nat.testBit 2048 κ = false := testBit_sub rfl hk
  unfold wrCalctl
  try dsimp only
  repeat' first
    | with_reducible exact hF
    | with_reducible assumption
    | with_reducible refine wrField_frame m130 ?_
    | with_reducible refine raise_frame m130 ?_
    | with_reducible refine Frame.ite ?_ ?_
    | (apply Frame.lit m2048 rfl; case e => constructor <;> (try dsimp only) <;> first | exact .inl rfl | exact .inr rfl)

end Sys2Proof.Laws
end

