-- ==== Sys2Proof/Laws/FrameFlow.lean ====
section
/-! SUPPORT. What each operation of Machine/Flow.lean leaves alone. -/

namespace Sys2Proof.Laws

open Sys2Proof Sys2Proof.Machine

set_option linter.unusedTactic false
set_option linter.unreachableTactic false
set_option linter.unusedVariables false

theorem restore_frame {κ : Nat} {σ : State} {fs : List Fld} {s : State} (hk : Nat.testBit 2 κ = false) (hF : Frame κ σ s) :
    Frame κ σ (restore fs s) := by
  have m2 := hk
  unfold restore
  try dsimp only
  repeat' first
    | with_reducible exact hF
    | with_reducible assumption
    | with_reducible refine State_wr_frame m2 ?_
    | with_reducible refine forAll_frame (fun _ _ _ => ?_) ?_

theorem clearPort_frame {κ : Nat} {σ : State} {p : Nat} {s : State} (hk : Nat.testBit 2 κ = false) (hF : Frame κ σ s) :
    Frame κ σ (clearPort p s) := by
  have m2 := hk
  unfold clearPort
  try dsimp only
  repeat' first
    | with_reducible exact hF
    | with_reducible assumption
    | with_reducible refine State_wr_frame m2 ?_
    | with_reducible refine restore_frame m2 ?_
    | with_reducible refine forAll_frame (fun _ _ _ => ?_) ?_
    | with_reducible refine Frame.ite ?_ ?_

theorem portReset_frame {κ : Nat} {σ : State} {p : Nat} {s : State} (hk : Nat.testBit 58370 κ = false) (hF : Frame κ σ s) :
    Frame κ σ (portReset p s) := by
  have m2 : Nat.testBit 2 κ = false := testBit_sub rfl hk
  have m1024 : Nat.testBit 1024 κ = false := testBit_sub rfl hk
  have m8192 : Nat.testBit 8192 κ = false := testBit_sub rfl hk
  have m16384 : Nat.testBit 16384 κ = false := testBit_sub rfl hk
  have m32768 : Nat.testBit 32768 κ = false := testBit_sub rfl hk
  unfold portReset
  try dsimp only
  repeat' first
    | with_reducible exact hF
    | with_reducible assumption
    | with_reducible refine restore_frame m2 ?_
    | with_reducible refine State_setEg_frame m1024 ?_
    | with_reducible refine State_setCan_frame m8192 ?_
    | with_reducible refine State_setAdp_frame m32768 ?_
    | with_reducible refine State_wr_frame m2 ?_
    | with_reducible refine State_setLane_frame m16384 ?_
    | with_reducible refine forAll_frame (fun _ _ _ => ?_) ?_
    | with_reducible refine Frame.ite ?_ ?_

theorem portDown_frame {κ : Nat} {σ : State} {p : Nat} {cause : Nat} {s : State} (hk : Nat.testBit 59010 κ = false) (hF : Frame κ σ s) :
    Frame κ σ (portDown p cause s) := by
  have m2 : Nat.testBit 2 κ = false := testBit_sub rfl hk
  have m128 : Nat.testBit 128 κ = false := testBit_sub rfl hk
  have m130 : Nat.testBit 130 κ = false := testBit_sub rfl hk
  have m640 : Nat.testBit 640 κ = false := testBit_sub rfl hk
  have m58370 : Nat.testBit 58370 κ = false := testBit_sub rfl hk
  unfold portDown
  try dsimp only
  repeat' first
    | with_reducible exact hF
    | with_reducible assumption
    | with_reducible refine dropTunnels_frame m2 ?_
    | with_reducible refine portReset_frame m58370 ?_
    | with_reducible refine raise_frame m130 ?_
    | with_reducible refine tunReportDrop_frame m128 ?_
    | with_reducible refine State_wr_frame m2 ?_
    | with_reducible refine Frame.ite ?_ ?_
    | (apply Frame.lit m640 rfl; case e => constructor <;> (try dsimp only) <;> first | exact .inl rfl | exact .inr rfl)

theorem scheduleRetrain_frame {κ : Nat} {σ : State} {p : Nat} {s : State} (hk : Nat.testBit 1024 κ = false) (hF : Frame κ σ s) :
    Frame κ σ (scheduleRetrain p s) := by
  have m1024 := hk
  unfold scheduleRetrain
  try dsimp only
  repeat' first
    | with_reducible exact hF
    | with_reducible assumption
    | with_reducible refine State_setEg_frame m1024 ?_

theorem startTraining_frame {κ : Nat} {σ : State} {p : Nat} {s : State} (hk : Nat.testBit 24578 κ = false) (hF : Frame κ σ s) :
    Frame κ σ (startTraining p s) := by
  have m24578 := hk
  have m2 : Nat.testBit 2 κ = false := testBit_sub rfl hk
  unfold startTraining
  try dsimp only
  repeat' first
    | with_reducible exact hF
    | with_reducible assumption
    | with_reducible refine startCanopy_frame m24578 ?_
    | with_reducible refine State_wr_frame m2 ?_
    | with_reducible refine wrs_frame m2 ?_
    | with_reducible refine forAll_frame (fun _ _ _ => ?_) ?_
    | with_reducible refine Frame.ite ?_ ?_

theorem portDownAttached_frame {κ : Nat} {σ : State} {p : Nat} {cause : Nat} {s : State} (hk : Nat.testBit 135327378 κ = false) (hF : Frame κ σ s) :
    Frame κ σ (portDownAttached p cause s) := by
  have m1024 : Nat.testBit 1024 κ = false := testBit_sub rfl hk
  have m59010 : Nat.testBit 59010 κ = false := testBit_sub rfl hk
  have m135270034 : Nat.testBit 135270034 κ = false := testBit_sub rfl hk
  unfold portDownAttached
  try dsimp only
  repeat' first
    | with_reducible exact hF
    | with_reducible assumption
    | with_reducible refine scheduleRetrain_frame m1024 ?_
    | with_reducible refine attachEvent_frame m135270034 ?_
    | with_reducible refine portDown_frame m59010 ?_

theorem execStallTimerExpiry_frame {κ : Nat} {σ : State} {port : Port} {s : State} (hk : Nat.testBit 135327378 κ = false) (hF : Frame κ σ s) :
    FrameO κ σ (execStallTimerExpiry port s) := by
  have m135327378 := hk
  have m2 : Nat.testBit 2 κ = false := testBit_sub rfl hk
  unfold execStallTimerExpiry
  try dsimp only
  repeat' first
    | with_reducible exact hF
    | with_reducible assumption
    | with_reducible refine settleStall_frame m2 ?_
    | with_reducible refine portDownAttached_frame m135327378 ?_
    | with_reducible refine State_inc_frame m2 ?_
    | with_reducible refine FrameO.next ?_
    | with_reducible refine FrameO.ite ?_ ?_
    | with_reducible refine Frame.ite ?_ ?_

theorem execPortRetrainWait_frame {κ : Nat} {σ : State} {port : Port} {s : State} (hk : Nat.testBit 25602 κ = false) (hF : Frame κ σ s) :
    FrameO κ σ (execPortRetrainWait port s) := by
  have m1024 : Nat.testBit 1024 κ = false := testBit_sub rfl hk
  have m24578 : Nat.testBit 24578 κ = false := testBit_sub rfl hk
  unfold execPortRetrainWait
  try dsimp only
  repeat' first
    | with_reducible exact hF
    | with_reducible assumption
    | with_reducible refine startTraining_frame m24578 ?_
    | with_reducible refine State_setEg_frame m1024 ?_
    | with_reducible refine FrameO.next ?_
    | with_reducible refine FrameO.ite ?_ ?_
    | with_reducible refine Frame.ite ?_ ?_

theorem execPortUpHold_frame {κ : Nat} {σ : State} {port : Port} {s : State} (hk : Nat.testBit 1024 κ = false) (hF : Frame κ σ s) :
    FrameO κ σ (execPortUpHold port s) := by
  have m1024 := hk
  unfold execPortUpHold
  try dsimp only
  repeat' first
    | with_reducible exact hF
    | with_reducible assumption
    | with_reducible refine State_setEg_frame m1024 ?_
    | with_reducible refine FrameO.next ?_
    | with_reducible refine FrameO.ite ?_ ?_
    | with_reducible refine Frame.ite ?_ ?_

theorem pauseOut_frame {κ : Nat} {σ : State} {p : Nat} {quanta : Nat} {ks : List Nat} {s : State} (hk : Nat.testBit 16 κ = false) (hF : Frame κ σ s) :
    Frame κ σ (pauseOut p quanta ks s) := by
  have m16 := hk
  unfold pauseOut
  try dsimp only
  repeat' first
    | with_reducible exact hF
    | with_reducible assumption
    | with_reducible refine State_emit_frame m16 ?_
    | with_reducible refine Frame.ite ?_ ?_

theorem updatePause_frame {κ : Nat} {σ : State} {p : Nat} {s : State} (hk : Nat.testBit 1040 κ = false) (hF : Frame κ σ s) :
    Frame κ σ (updatePause p s) := by
  have m16 : Nat.testBit 16 κ = false := testBit_sub rfl hk
  have m1024 : Nat.testBit 1024 κ = false := testBit_sub rfl hk
  unfold updatePause
  try dsimp only
  repeat' first
    | with_reducible exact hF
    | with_reducible assumption
    | with_reducible refine State_setEg_frame m1024 ?_
    | with_reducible refine pauseOut_frame m16 ?_
    | with_reducible refine State_emit_frame m16 ?_
    | with_reducible refine forAll_frame (fun _ _ _ => ?_) ?_
    | with_reducible refine Frame.ite ?_ ?_

theorem execPauseRepeat_frame {κ : Nat} {σ : State} {port : Port} {s : State} (hk : Nat.testBit 16 κ = false) (hF : Frame κ σ s) :
    FrameO κ σ (execPauseRepeat port s) := by
  have m16 := hk
  unfold execPauseRepeat
  try dsimp only
  repeat' first
    | with_reducible exact hF
    | with_reducible assumption
    | with_reducible refine pauseOut_frame m16 ?_
    | with_reducible refine FrameO.next ?_

theorem execFlushComplete_frame {κ : Nat} {σ : State} {n : Tun} {s : State} (hk : Nat.testBit 1170 κ = false) (hF : Frame κ σ s) :
    FrameO κ σ (execFlushComplete n s) := by
  have m2 : Nat.testBit 2 κ = false := testBit_sub rfl hk
  have m1040 : Nat.testBit 1040 κ = false := testBit_sub rfl hk
  have m1154 : Nat.testBit 1154 κ = false := testBit_sub rfl hk
  unfold execFlushComplete
  try dsimp only
  repeat' first
    | with_reducible exact hF
    | with_reducible assumption
    | with_reducible refine enterQuarantine_frame m2 ?_
    | with_reducible refine flushTunnel_frame m1154 ?_
    | with_reducible refine settleStall_frame m2 ?_
    | with_reducible refine updatePause_frame m1040 ?_
    | with_reducible refine forAll_frame (fun _ _ _ => ?_) ?_
    | with_reducible refine FrameO.next ?_
    | with_reducible refine FrameO.ite ?_ ?_
    | with_reducible refine Frame.ite ?_ ?_

theorem wrSpill_frame {κ : Nat} {σ : State} {a : Nat} {f : Fld} {v : Nat} {s : State} (hk : Nat.testBit 130 κ = false) (hF : Frame κ σ s) :
    Frame κ σ (wrSpill a f v s) := by
  have m130 := hk
  unfold wrSpill
  try dsimp only
  repeat' first
    | with_reducible exact hF
    | with_reducible assumption
    | with_reducible refine raise_frame m130 ?_
    | with_reducible refine wrField_frame m130 ?_
    | with_reducible refine Frame.ite ?_ ?_

theorem wrSpshare_frame {κ : Nat} {σ : State} {v : Nat} {s : State} (hk : Nat.testBit 130 κ = false) (hF : Frame κ σ s) :
    Frame κ σ (wrSpshare v s) := by
  have m130 := hk
  unfold wrSpshare
  try dsimp only
  repeat' first
    | with_reducible exact hF
    | with_reducible assumption
    | with_reducible refine wrField_frame m130 ?_

theorem wrSpq_frame {κ : Nat} {σ : State} {n : Nat} {v : Nat} {s : State} (hk : Nat.testBit 130 κ = false) (hF : Frame κ σ s) :
    Frame κ σ (wrSpq n v s) := by
  have m130 := hk
  unfold wrSpq
  try dsimp only
  repeat' first
    | with_reducible exact hF
    | with_reducible assumption
    | with_reducible refine cfgErr_frame m130 ?_
    | with_reducible refine updateSpill_frame m130 ?_
    | with_reducible refine wrField_frame m130 ?_
    | with_reducible refine Frame.ite ?_ ?_

theorem wrBulk_frame {κ : Nat} {σ : State} {v : Nat} {s : State} (hk : Nat.testBit 130 κ = false) (hF : Frame κ σ s) :
    Frame κ σ (wrBulk v s) := by
  have m130 := hk
  unfold wrBulk
  try dsimp only
  repeat' first
    | with_reducible exact hF
    | with_reducible assumption
    | with_reducible refine wrField_frame m130 ?_
    | with_reducible refine cfgErr_frame m130 ?_
    | with_reducible refine Frame.ite ?_ ?_

theorem wrFlow_frame {κ : Nat} {σ : State} {p : Nat} {v : Nat} {s : State} (hk : Nat.testBit 130 κ = false) (hF : Frame κ σ s) :
    Frame κ σ (wrFlow p v s) := by
  have m130 := hk
  unfold wrFlow
  try dsimp only
  repeat' first
    | with_reducible exact hF
    | with_reducible assumption
    | with_reducible refine wrField_frame m130 ?_
    | with_reducible refine envEvent_frame m130 ?_
    | with_reducible refine Frame.ite ?_ ?_
    | split

theorem reservePlaces_frame {κ : Nat} {σ : State} {s : State} (hk : Nat.testBit 1024 κ = false) (hF : Frame κ σ s) :
    Frame κ σ (reservePlaces s) := by
  have m1024 := hk
  unfold reservePlaces
  try dsimp only
  repeat' first
    | with_reducible exact hF
    | with_reducible assumption
    | with_reducible refine State_setFlow_frame m1024 ?_
    | with_reducible refine State_setEg_frame m1024 ?_
    | with_reducible refine forAll_frame (fun _ _ _ => ?_) ?_
    | (apply Frame.lit m1024 rfl; case e => constructor <;> (try dsimp only) <;> first | exact .inl rfl | exact .inr rfl)

theorem capture_frame {κ : Nat} {σ : State} {g : Nat} {s : State} (hk : Nat.testBit 279552 κ = false) (hF : Frame κ σ s) :
    Frame κ σ (capture g s) := by
  have m1024 : Nat.testBit 1024 κ = false := testBit_sub rfl hk
  have m16384 : Nat.testBit 16384 κ = false := testBit_sub rfl hk
  have m262144 : Nat.testBit 262144 κ = false := testBit_sub rfl hk
  unfold capture
  try dsimp only
  repeat' first
    | with_reducible exact hF
    | with_reducible assumption
    | with_reducible refine State_setEg_frame m1024 ?_
    | with_reducible refine State_setLane_frame m16384 ?_
    | with_reducible refine forAll_frame (fun _ _ _ => ?_) ?_
    | with_reducible refine Frame.ite ?_ ?_
    | split
    | (apply Frame.lit m262144 rfl; case e => constructor <;> (try dsimp only) <;> first | exact .inl rfl | exact .inr rfl)

theorem forgetOldKey_frame {κ : Nat} {σ : State} {p : Nat} {now : Nat} {s : State} (hk : Nat.testBit 8192 κ = false) (hF : Frame κ σ s) :
    Frame κ σ (forgetOldKey p now s) := by
  have m8192 := hk
  unfold forgetOldKey
  try dsimp only
  repeat' first
    | with_reducible exact hF
    | with_reducible assumption
    | with_reducible refine State_setCan_frame m8192 ?_
    | with_reducible refine Frame.ite ?_ ?_
    | split

theorem ckComplete_frame {κ : Nat} {σ : State} {g : Nat} {s : State} (hk : Nat.testBit 418834 κ = false) (hF : Frame κ σ s) :
    Frame κ σ (ckComplete g s) := by
  have m2 : Nat.testBit 2 κ = false := testBit_sub rfl hk
  have m16 : Nat.testBit 16 κ = false := testBit_sub rfl hk
  have m1024 : Nat.testBit 1024 κ = false := testBit_sub rfl hk
  have m8192 : Nat.testBit 8192 κ = false := testBit_sub rfl hk
  have m16384 : Nat.testBit 16384 κ = false := testBit_sub rfl hk
  have m393216 : Nat.testBit 393216 κ = false := testBit_sub rfl hk
  unfold ckComplete
  try dsimp only
  repeat' first
    | with_reducible exact hF
    | with_reducible assumption
    | with_reducible refine settleOwed_frame m1024 ?_
    | with_reducible refine State_setEg_frame m1024 ?_
    | with_reducible refine forgetOldKey_frame m8192 ?_
    | with_reducible refine State_emit_frame m16 ?_
    | with_reducible refine State_setLane_frame m16384 ?_
    | with_reducible refine State_wr_frame m2 ?_
    | with_reducible refine forAll_frame (fun _ _ _ => ?_) ?_
    | with_reducible refine Frame.ite ?_ ?_
    | split
    | (apply Frame.lit m393216 rfl; case e => constructor <;> (try dsimp only) <;> first | exact .inl rfl | exact .inr rfl)

end Sys2Proof.Laws
end

