-- ==== Sys2Proof/Laws/FrameCanopy.lean ====
section
/-! SUPPORT. What each operation of Machine/Canopy.lean leaves alone. -/

namespace Sys2Proof.Laws

open Sys2Proof Sys2Proof.Machine

set_option linter.unusedTactic false
set_option linter.unreachableTactic false
set_option linter.unusedVariables false

theorem sendCredit_frame {κ : Nat} {σ : State} {n : Nat} {s : State} (hk : Nat.testBit 4112 κ = false) (hF : Frame κ σ s) :
    Frame κ σ (sendCredit n s) := by
  have m16 : Nat.testBit 16 κ = false := testBit_sub rfl hk
  have m4096 : Nat.testBit 4096 κ = false := testBit_sub rfl hk
  unfold sendCredit
  try dsimp only
  repeat' first
    | with_reducible exact hF
    | with_reducible assumption
    | with_reducible refine State_setCredit_frame m4096 ?_
    | with_reducible refine State_emit_frame m16 ?_

theorem creditUpdate_frame {κ : Nat} {σ : State} {n : Nat} {s : State} (hk : Nat.testBit 4112 κ = false) (hF : Frame κ σ s) :
    Frame κ σ (creditUpdate n s) := by
  have m4112 := hk
  have m4096 : Nat.testBit 4096 κ = false := testBit_sub rfl hk
  unfold creditUpdate
  try dsimp only
  repeat' first
    | with_reducible exact hF
    | with_reducible assumption
    | with_reducible refine sendCredit_frame m4112 ?_
    | with_reducible refine State_setCredit_frame m4096 ?_
    | with_reducible refine Frame.ite ?_ ?_

theorem execCredit_frame {κ : Nat} {σ : State} {port : CanPort} {tun : Tun} {limit : BitVec 16} {s : State} (hk : Nat.testBit 4098 κ = false) (hF : Frame κ σ s) :
    FrameO κ σ (execCredit port tun limit s) := by
  have m2 : Nat.testBit 2 κ = false := testBit_sub rfl hk
  have m4096 : Nat.testBit 4096 κ = false := testBit_sub rfl hk
  unfold execCredit
  try dsimp only
  repeat' first
    | with_reducible exact hF
    | with_reducible assumption
    | with_reducible refine State_setCredit_frame m4096 ?_
    | with_reducible refine State_wr_frame m2 ?_
    | with_reducible refine FrameO.next ?_
    | with_reducible refine FrameO.ite ?_ ?_
    | with_reducible refine Frame.ite ?_ ?_

theorem execCreditTimer_frame {κ : Nat} {σ : State} {n : Tun} {s : State} (hk : Nat.testBit 4112 κ = false) (hF : Frame κ σ s) :
    FrameO κ σ (execCreditTimer n s) := by
  have m4112 := hk
  unfold execCreditTimer
  try dsimp only
  repeat' first
    | with_reducible exact hF
    | with_reducible assumption
    | with_reducible refine sendCredit_frame m4112 ?_
    | with_reducible refine FrameO.next ?_
    | with_reducible refine FrameO.ite ?_ ?_
    | with_reducible refine Frame.ite ?_ ?_

theorem execLgrant_frame {κ : Nat} {σ : State} {port : CanPort} {tun : Tun} {pipe : Pipe} {line : Fin 8192} {frm : Fin 16} {s : State} (hk : Nat.testBit 16 κ = false) (hF : Frame κ σ s) :
    FrameO κ σ (execLgrant port tun pipe line frm s) := by
  have m16 := hk
  unfold execLgrant
  try dsimp only
  repeat' first
    | with_reducible exact hF
    | with_reducible assumption
    | with_reducible refine State_emit_frame m16 ?_
    | with_reducible refine FrameO.next ?_
    | with_reducible refine FrameO.ite ?_ ?_
    | with_reducible refine Frame.ite ?_ ?_

theorem protoError_frame {κ : Nat} {σ : State} {p : Nat} {s : State} (hk : Nat.testBit 135327378 κ = false) (hF : Frame κ σ s) :
    Frame κ σ (protoError p s) := by
  have m135327378 := hk
  have m2 : Nat.testBit 2 κ = false := testBit_sub rfl hk
  unfold protoError
  try dsimp only
  repeat' first
    | with_reducible exact hF
    | with_reducible assumption
    | with_reducible refine portDownAttached_frame m135327378 ?_
    | with_reducible refine State_inc_frame m2 ?_

theorem execRack_frame {κ : Nat} {σ : State} {port : CanPort} {lun : BitVec 16} {s : State} (hk : Nat.testBit 135327378 κ = false) (hF : Frame κ σ s) :
    FrameO κ σ (execRack port lun s) := by
  have m135327378 := hk
  have m9216 : Nat.testBit 9216 κ = false := testBit_sub rfl hk
  unfold execRack
  try dsimp only
  repeat' first
    | with_reducible exact hF
    | with_reducible assumption
    | with_reducible refine releaseTo_frame m9216 ?_
    | with_reducible refine protoError_frame m135327378 ?_
    | with_reducible refine FrameO.next ?_
    | with_reducible refine FrameO.ite ?_ ?_
    | with_reducible refine Frame.ite ?_ ?_

theorem execRnak_frame {κ : Nat} {σ : State} {port : CanPort} {lun : BitVec 16} {s : State} (hk : Nat.testBit 135327378 κ = false) (hF : Frame κ σ s) :
    FrameO κ σ (execRnak port lun s) := by
  have m135327378 := hk
  have m2 : Nat.testBit 2 κ = false := testBit_sub rfl hk
  have m16 : Nat.testBit 16 κ = false := testBit_sub rfl hk
  have m9216 : Nat.testBit 9216 κ = false := testBit_sub rfl hk
  unfold execRnak
  try dsimp only
  repeat' first
    | with_reducible exact hF
    | with_reducible assumption
    | with_reducible refine releaseTo_frame m9216 ?_
    | with_reducible refine State_inc_frame m2 ?_
    | with_reducible refine State_emit_frame m16 ?_
    | with_reducible refine resend_frame m16 ?_
    | with_reducible refine protoError_frame m135327378 ?_
    | with_reducible refine forAll_frame (fun _ _ _ => ?_) ?_
    | with_reducible refine FrameO.next ?_
    | with_reducible refine FrameO.ite ?_ ?_
    | with_reducible refine Frame.ite ?_ ?_

theorem execRnakRepeat_frame {κ : Nat} {σ : State} {port : CanPort} {s : State} (hk : Nat.testBit 18 κ = false) (hF : Frame κ σ s) :
    FrameO κ σ (execRnakRepeat port s) := by
  have m18 := hk
  unfold execRnakRepeat
  try dsimp only
  repeat' first
    | with_reducible exact hF
    | with_reducible assumption
    | with_reducible refine sendRnak_frame m18 ?_
    | with_reducible refine FrameO.next ?_
    | with_reducible refine FrameO.ite ?_ ?_
    | with_reducible refine Frame.ite ?_ ?_

theorem execResume_frame {κ : Nat} {σ : State} {port : CanPort} {lun : BitVec 16} {s : State} (hk : Nat.testBit 8210 κ = false) (hF : Frame κ σ s) :
    FrameO κ σ (execResume port lun s) := by
  have m18 : Nat.testBit 18 κ = false := testBit_sub rfl hk
  have m8192 : Nat.testBit 8192 κ = false := testBit_sub rfl hk
  unfold execResume
  try dsimp only
  repeat' first
    | with_reducible exact hF
    | with_reducible assumption
    | with_reducible refine State_setCan_frame m8192 ?_
    | with_reducible refine sendRnak_frame m18 ?_
    | with_reducible refine FrameO.next ?_
    | with_reducible refine FrameO.ite ?_ ?_
    | with_reducible refine Frame.ite ?_ ?_

theorem execDelineationError_frame {κ : Nat} {σ : State} {e : LostWord} {s : State} (hk : Nat.testBit 8210 κ = false) (hF : Frame κ σ s) :
    FrameO κ σ (execDelineationError e s) := by
  have m8210 := hk
  unfold execDelineationError
  try dsimp only
  repeat' first
    | with_reducible exact hF
    | with_reducible assumption
    | with_reducible refine linkError_frame m8210 ?_
    | with_reducible refine FrameO.next ?_
    | with_reducible refine FrameO.ite ?_ ?_
    | with_reducible refine Frame.ite ?_ ?_

theorem switchRx_frame {κ : Nat} {σ : State} {p : Nat} {s : State} (hk : Nat.testBit 8194 κ = false) (hF : Frame κ σ s) :
    Frame κ σ (switchRx p s) := by
  have m2 : Nat.testBit 2 κ = false := testBit_sub rfl hk
  have m8192 : Nat.testBit 8192 κ = false := testBit_sub rfl hk
  unfold switchRx
  try dsimp only
  repeat' first
    | with_reducible exact hF
    | with_reducible assumption
    | with_reducible refine State_setCan_frame m8192 ?_
    | with_reducible refine State_incMod_frame m2 ?_
    | with_reducible refine Frame.ite ?_ ?_
    | split

theorem receiveUnit_frame {κ : Nat} {σ : State} {p : Nat} {hdr : BitVec 64} {payload : Bytes} {s : State} (hk : Nat.testBit 8194 κ = false) (hF : Frame κ σ s) :
    Frame κ σ (receiveUnit p hdr payload s).2 := by
  have m8194 := hk
  have m8192 : Nat.testBit 8192 κ = false := testBit_sub rfl hk
  unfold receiveUnit
  try dsimp only
  repeat' first
    | with_reducible exact hF
    | with_reducible assumption
    | with_reducible refine switchRx_frame m8194 ?_
    | with_reducible refine State_setCan_frame m8192 ?_
    | split
    | with_reducible refine Frame.snd (by assumption) ?_
    | with_reducible refine Frame.snd2 (by assumption) ?_
    | (dsimp only)

theorem execRecordClose_frame {κ : Nat} {σ : State} {port : CanPort} {s : State} (hk : Nat.testBit 8210 κ = false) (hF : Frame κ σ s) :
    FrameO κ σ (execRecordClose port s) := by
  have m8210 := hk
  unfold execRecordClose
  try dsimp only
  repeat' first
    | with_reducible exact hF
    | with_reducible assumption
    | with_reducible refine closeDue_frame m8210 ?_
    | with_reducible refine closeRecord_frame m8210 ?_
    | with_reducible refine FrameO.next ?_
    | with_reducible refine FrameO.ite ?_ ?_
    | with_reducible refine Frame.ite ?_ ?_

theorem tagFail_frame {κ : Nat} {σ : State} {p : Nat} {s : State} (hk : Nat.testBit 135327378 κ = false) (hF : Frame κ σ s) :
    Frame κ σ (tagFail p s) := by
  have m135327378 := hk
  have m2 : Nat.testBit 2 κ = false := testBit_sub rfl hk
  have m130 : Nat.testBit 130 κ = false := testBit_sub rfl hk
  unfold tagFail
  try dsimp only
  repeat' first
    | with_reducible exact hF
    | with_reducible assumption
    | with_reducible refine portDownAttached_frame m135327378 ?_
    | with_reducible refine raise_frame m130 ?_
    | with_reducible refine State_inc_frame m2 ?_

theorem execTag_frame {κ : Nat} {σ : State} {port : CanPort} {epoch : Bool} {recno : BitVec 15} {tag : BitVec 128} {s : State} (hk : Nat.testBit 135327378 κ = false) (hF : Frame κ σ s) :
    FrameO κ σ (execTag port epoch recno tag s) := by
  have m135327378 := hk
  have m8192 : Nat.testBit 8192 κ = false := testBit_sub rfl hk
  have m8194 : Nat.testBit 8194 κ = false := testBit_sub rfl hk
  unfold execTag
  try dsimp only
  repeat' first
    | with_reducible exact hF
    | with_reducible assumption
    | with_reducible refine switchRx_frame m8194 ?_
    | with_reducible refine State_setCan_frame m8192 ?_
    | with_reducible refine tagFail_frame m135327378 ?_
    | with_reducible refine FrameO.next ?_
    | with_reducible refine FrameO.ite ?_ ?_
    | with_reducible refine Frame.ite ?_ ?_

theorem sendKupd_frame {κ : Nat} {σ : State} {p : Nat} {l : Nat} {s : State} (hk : Nat.testBit 16 κ = false) (hF : Frame κ σ s) :
    Frame κ σ (sendKupd p l s) := by
  have m16 := hk
  unfold sendKupd
  try dsimp only
  repeat' first
    | with_reducible exact hF
    | with_reducible assumption
    | with_reducible refine State_emit_frame m16 ?_

theorem execKeyUpdateStart_frame {κ : Nat} {σ : State} {port : CanPort} {s : State} (hk : Nat.testBit 8216 κ = false) (hF : Frame κ σ s) :
    FrameO κ σ (execKeyUpdateStart port s) := by
  have m8 : Nat.testBit 8 κ = false := testBit_sub rfl hk
  have m16 : Nat.testBit 16 κ = false := testBit_sub rfl hk
  have m8192 : Nat.testBit 8192 κ = false := testBit_sub rfl hk
  unfold execKeyUpdateStart
  try dsimp only
  repeat' first
    | with_reducible exact hF
    | with_reducible assumption
    | with_reducible refine State_free_frame m8 ?_
    | with_reducible refine sendKupd_frame m16 ?_
    | with_reducible refine State_setCan_frame m8192 ?_
    | with_reducible refine FrameO.next ?_
    | with_reducible refine FrameO.ite ?_ ?_
    | with_reducible refine Frame.ite ?_ ?_
    | split
    | with_reducible refine Frame.snd (by assumption) ?_
    | with_reducible refine Frame.snd2 (by assumption) ?_
    | (dsimp only)

theorem execKupd_frame {κ : Nat} {σ : State} {port : CanPort} {epoch : Byte} {lun : BitVec 16} {s : State} (hk : Nat.testBit 8208 κ = false) (hF : Frame κ σ s) :
    FrameO κ σ (execKupd port epoch lun s) := by
  have m16 : Nat.testBit 16 κ = false := testBit_sub rfl hk
  have m8192 : Nat.testBit 8192 κ = false := testBit_sub rfl hk
  unfold execKupd
  try dsimp only
  repeat' first
    | with_reducible exact hF
    | with_reducible assumption
    | with_reducible refine State_setCan_frame m8192 ?_
    | with_reducible refine State_emit_frame m16 ?_
    | with_reducible refine FrameO.next ?_
    | with_reducible refine FrameO.ite ?_ ?_
    | with_reducible refine Frame.ite ?_ ?_

theorem execKupdRepeat_frame {κ : Nat} {σ : State} {port : CanPort} {s : State} (hk : Nat.testBit 16 κ = false) (hF : Frame κ σ s) :
    FrameO κ σ (execKupdRepeat port s) := by
  have m16 := hk
  unfold execKupdRepeat
  try dsimp only
  repeat' first
    | with_reducible exact hF
    | with_reducible assumption
    | with_reducible refine sendKupd_frame m16 ?_
    | with_reducible refine FrameO.next ?_
    | with_reducible refine FrameO.ite ?_ ?_
    | with_reducible refine Frame.ite ?_ ?_
    | split

theorem execKack_frame {κ : Nat} {σ : State} {port : CanPort} {epoch : Byte} {s : State} (hk : Nat.testBit 8194 κ = false) (hF : Frame κ σ s) :
    FrameO κ σ (execKack port epoch s) := by
  have m8194 := hk
  have m8192 : Nat.testBit 8192 κ = false := testBit_sub rfl hk
  unfold execKack
  try dsimp only
  repeat' first
    | with_reducible exact hF
    | with_reducible assumption
    | with_reducible refine switchTx_frame m8194 ?_
    | with_reducible refine State_setCan_frame m8192 ?_
    | with_reducible refine FrameO.next ?_
    | with_reducible refine FrameO.ite ?_ ?_
    | with_reducible refine Frame.ite ?_ ?_

theorem execKackTimeout_frame {κ : Nat} {σ : State} {port : CanPort} {s : State} (hk : Nat.testBit 135327378 κ = false) (hF : Frame κ σ s) :
    FrameO κ σ (execKackTimeout port s) := by
  have m135327378 := hk
  unfold execKackTimeout
  try dsimp only
  repeat' first
    | with_reducible exact hF
    | with_reducible assumption
    | with_reducible refine portDownAttached_frame m135327378 ?_
    | with_reducible refine FrameO.next ?_
    | with_reducible refine FrameO.ite ?_ ?_
    | with_reducible refine Frame.ite ?_ ?_

theorem enterChosen_frame {κ : Nat} {σ : State} {p : Nat} {s : State} (hk : Nat.testBit 24594 κ = false) (hF : Frame κ σ s) :
    Frame κ σ (enterChosen p s) := by
  have m16 : Nat.testBit 16 κ = false := testBit_sub rfl hk
  have m8192 : Nat.testBit 8192 κ = false := testBit_sub rfl hk
  have m24578 : Nat.testBit 24578 κ = false := testBit_sub rfl hk
  unfold enterChosen
  try dsimp only
  repeat' first
    | with_reducible exact hF
    | with_reducible assumption
    | with_reducible refine State_setCan_frame m8192 ?_
    | with_reducible refine State_emit_frame m16 ?_
    | with_reducible refine startTraining_frame m24578 ?_
    | with_reducible refine Frame.ite ?_ ?_
    | split

theorem handshakeFail_frame {κ : Nat} {σ : State} {p : Nat} {s : State} (hk : Nat.testBit 24722 κ = false) (hF : Frame κ σ s) :
    Frame κ σ (handshakeFail p s) := by
  have m2 : Nat.testBit 2 κ = false := testBit_sub rfl hk
  have m16 : Nat.testBit 16 κ = false := testBit_sub rfl hk
  have m130 : Nat.testBit 130 κ = false := testBit_sub rfl hk
  have m8192 : Nat.testBit 8192 κ = false := testBit_sub rfl hk
  have m16384 : Nat.testBit 16384 κ = false := testBit_sub rfl hk
  have m24594 : Nat.testBit 24594 κ = false := testBit_sub rfl hk
  unfold handshakeFail
  try dsimp only
  repeat' first
    | with_reducible exact hF
    | with_reducible assumption
    | with_reducible refine clearPort_frame m2 ?_
    | with_reducible refine State_setCan_frame m8192 ?_
    | with_reducible refine State_setLane_frame m16384 ?_
    | with_reducible refine raise_frame m130 ?_
    | with_reducible refine State_wr_frame m2 ?_
    | with_reducible refine State_emit_frame m16 ?_
    | with_reducible refine enterChosen_frame m24594 ?_
    | with_reducible refine forAll_frame (fun _ _ _ => ?_) ?_
    | with_reducible refine Frame.ite ?_ ?_

theorem execEnterMode_frame {κ : Nat} {σ : State} {port : CanPort} {s : State} (hk : Nat.testBit 24722 κ = false) (hF : Frame κ σ s) :
    FrameO κ σ (execEnterMode port s) := by
  have m24722 := hk
  have m8192 : Nat.testBit 8192 κ = false := testBit_sub rfl hk
  have m24578 : Nat.testBit 24578 κ = false := testBit_sub rfl hk
  unfold execEnterMode
  try dsimp only
  repeat' first
    | with_reducible exact hF
    | with_reducible assumption
    | with_reducible refine State_setCan_frame m8192 ?_
    | with_reducible refine handshakeFail_frame m24722 ?_
    | with_reducible refine startCanopy_frame m24578 ?_
    | with_reducible refine FrameO.next ?_
    | with_reducible refine FrameO.ite ?_ ?_
    | with_reducible refine Frame.ite ?_ ?_

theorem beginCaps_frame {κ : Nat} {σ : State} {p : Nat} {s : State} (hk : Nat.testBit 18 κ = false) (hF : Frame κ σ s) :
    Frame κ σ (beginCaps p s) := by
  have m2 : Nat.testBit 2 κ = false := testBit_sub rfl hk
  have m16 : Nat.testBit 16 κ = false := testBit_sub rfl hk
  unfold beginCaps
  try dsimp only
  repeat' first
    | with_reducible exact hF
    | with_reducible assumption
    | with_reducible refine State_wr_frame m2 ?_
    | with_reducible refine State_emit_frame m16 ?_

theorem endCaps_frame {κ : Nat} {σ : State} {p : Nat} {s : State} (hk : Nat.testBit 24730 κ = false) (hF : Frame κ σ s) :
    Frame κ σ (endCaps p s) := by
  have m2 : Nat.testBit 2 κ = false := testBit_sub rfl hk
  have m8 : Nat.testBit 8 κ = false := testBit_sub rfl hk
  have m16 : Nat.testBit 16 κ = false := testBit_sub rfl hk
  have m24 : Nat.testBit 24 κ = false := testBit_sub rfl hk
  have m8192 : Nat.testBit 8192 κ = false := testBit_sub rfl hk
  have m16384 : Nat.testBit 16384 κ = false := testBit_sub rfl hk
  have m24722 : Nat.testBit 24722 κ = false := testBit_sub rfl hk
  unfold endCaps
  try dsimp only
  repeat' first
    | with_reducible exact hF
    | with_reducible assumption
    | with_reducible refine handshakeFail_frame m24722 ?_
    | with_reducible refine setDirs_frame m2 ?_
    | with_reducible refine State_setLane_frame m16384 ?_
    | with_reducible refine restore_frame m2 ?_
    | with_reducible refine sendTraining_frame m24 ?_
    | with_reducible refine State_free_frame m8 ?_
    | with_reducible refine State_setCan_frame m8192 ?_
    | with_reducible refine State_emit_frame m16 ?_
    | with_reducible refine wrs_frame m2 ?_
    | with_reducible refine forAll_frame (fun _ _ _ => ?_) ?_
    | with_reducible refine Frame.ite ?_ ?_
    | split
    | with_reducible refine Frame.snd (by assumption) ?_
    | with_reducible refine Frame.snd2 (by assumption) ?_
    | (dsimp only)

theorem execCaps_frame {κ : Nat} {σ : State} {port : CanPort} {part : Fin 4} {content : BitVec 36} {pref : Fin 3} {s : State} (hk : Nat.testBit 24730 κ = false) (hF : Frame κ σ s) :
    FrameO κ σ (execCaps port part content pref s) := by
  have m24730 := hk
  have m2 : Nat.testBit 2 κ = false := testBit_sub rfl hk
  have m18 : Nat.testBit 18 κ = false := testBit_sub rfl hk
  have m8192 : Nat.testBit 8192 κ = false := testBit_sub rfl hk
  have m24722 : Nat.testBit 24722 κ = false := testBit_sub rfl hk
  unfold execCaps
  try dsimp only
  repeat' first
    | with_reducible exact hF
    | with_reducible assumption
    | with_reducible refine beginCaps_frame m18 ?_
    | with_reducible refine State_setCan_frame m8192 ?_
    | with_reducible refine State_wr_frame m2 ?_
    | with_reducible refine handshakeFail_frame m24722 ?_
    | with_reducible refine endCaps_frame m24730 ?_
    | with_reducible refine FrameO.next ?_
    | with_reducible refine FrameO.ite ?_ ?_
    | with_reducible refine Frame.ite ?_ ?_

theorem deriveKeys_frame {κ : Nat} {σ : State} {p : Nat} {s : State} (hk : Nat.testBit 24722 κ = false) (hF : Frame κ σ s) :
    Frame κ σ (deriveKeys p s) := by
  have m24722 := hk
  have m2 : Nat.testBit 2 κ = false := testBit_sub rfl hk
  have m16 : Nat.testBit 16 κ = false := testBit_sub rfl hk
  have m8192 : Nat.testBit 8192 κ = false := testBit_sub rfl hk
  unfold deriveKeys
  try dsimp only
  repeat' first
    | with_reducible exact hF
    | with_reducible assumption
    | with_reducible refine handshakeFail_frame m24722 ?_
    | with_reducible refine State_wr_frame m2 ?_
    | with_reducible refine State_emit_frame m16 ?_
    | with_reducible refine State_setCan_frame m8192 ?_
    | with_reducible refine forAll_frame (fun _ _ _ => ?_) ?_
    | with_reducible refine Frame.ite ?_ ?_

theorem execKshare_frame {κ : Nat} {σ : State} {port : CanPort} {index : Fin 24} {w : Word} {s : State} (hk : Nat.testBit 24730 κ = false) (hF : Frame κ σ s) :
    FrameO κ σ (execKshare port index w s) := by
  have m24730 := hk
  have m8192 : Nat.testBit 8192 κ = false := testBit_sub rfl hk
  have m24722 : Nat.testBit 24722 κ = false := testBit_sub rfl hk
  unfold execKshare
  try dsimp only
  repeat' first
    | with_reducible exact hF
    | with_reducible assumption
    | with_reducible refine endCaps_frame m24730 ?_
    | with_reducible refine State_setCan_frame m8192 ?_
    | with_reducible refine deriveKeys_frame m24722 ?_
    | with_reducible refine FrameO.next ?_
    | with_reducible refine FrameO.ite ?_ ?_
    | with_reducible refine Frame.ite ?_ ?_

theorem writeReport_frame {κ : Nat} {σ : State} {c : Nat} {hubs : Nat} {s : State} (hk : Nat.testBit 130 κ = false) (hF : Frame κ σ s) :
    Frame κ σ (writeReport c hubs s) := by
  have m130 := hk
  have m2 : Nat.testBit 2 κ = false := testBit_sub rfl hk
  unfold writeReport
  try dsimp only
  repeat' first
    | with_reducible exact hF
    | with_reducible assumption
    | with_reducible refine raise_frame m130 ?_
    | with_reducible refine State_wr_frame m2 ?_
    | with_reducible refine State_incMod_frame m2 ?_
    | with_reducible refine wrs_frame m2 ?_
    | with_reducible refine forAll_frame (fun _ _ _ => ?_) ?_
    | with_reducible refine Frame.ite ?_ ?_

theorem linkActive_frame {κ : Nat} {σ : State} {p : Nat} {s : State} (hk : Nat.testBit 135282322 κ = false) (hF : Frame κ σ s) :
    Frame κ σ (linkActive p s) := by
  have m2 : Nat.testBit 2 κ = false := testBit_sub rfl hk
  have m128 : Nat.testBit 128 κ = false := testBit_sub rfl hk
  have m130 : Nat.testBit 130 κ = false := testBit_sub rfl hk
  have m4096 : Nat.testBit 4096 κ = false := testBit_sub rfl hk
  have m4098 : Nat.testBit 4098 κ = false := testBit_sub rfl hk
  have m4112 : Nat.testBit 4112 κ = false := testBit_sub rfl hk
  have m8192 : Nat.testBit 8192 κ = false := testBit_sub rfl hk
  have m135270034 : Nat.testBit 135270034 κ = false := testBit_sub rfl hk
  unfold linkActive
  try dsimp only
  repeat' first
    | with_reducible exact hF
    | with_reducible assumption
    | with_reducible refine raise_frame m130 ?_
    | with_reducible refine State_setCan_frame m8192 ?_
    | with_reducible refine State_wr_frame m2 ?_
    | with_reducible refine attachPartner_frame m135270034 ?_
    | with_reducible refine activateMgmt_frame m4098 ?_
    | with_reducible refine sendCredit_frame m4112 ?_
    | with_reducible refine State_setCredit_frame m4096 ?_
    | with_reducible refine writeReport_frame m130 ?_
    | with_reducible refine tunReportState_frame m128 ?_
    | with_reducible refine Frame.ite ?_ ?_

theorem execHsfin_frame {κ : Nat} {σ : State} {port : CanPort} {verify : Word} {s : State} (hk : Nat.testBit 135298706 κ = false) (hF : Frame κ σ s) :
    FrameO κ σ (execHsfin port verify s) := by
  have m8192 : Nat.testBit 8192 κ = false := testBit_sub rfl hk
  have m24722 : Nat.testBit 24722 κ = false := testBit_sub rfl hk
  have m135282322 : Nat.testBit 135282322 κ = false := testBit_sub rfl hk
  unfold execHsfin
  try dsimp only
  repeat' first
    | with_reducible exact hF
    | with_reducible assumption
    | with_reducible refine State_setCan_frame m8192 ?_
    | with_reducible refine linkActive_frame m135282322 ?_
    | with_reducible refine handshakeFail_frame m24722 ?_
    | with_reducible refine FrameO.next ?_
    | with_reducible refine FrameO.ite ?_ ?_
    | with_reducible refine Frame.ite ?_ ?_

theorem execTrainingLimit_frame {κ : Nat} {σ : State} {port : CanPort} {s : State} (hk : Nat.testBit 24722 κ = false) (hF : Frame κ σ s) :
    FrameO κ σ (execTrainingLimit port s) := by
  have m24722 := hk
  unfold execTrainingLimit
  try dsimp only
  repeat' first
    | with_reducible exact hF
    | with_reducible assumption
    | with_reducible refine handshakeFail_frame m24722 ?_
    | with_reducible refine FrameO.next ?_
    | with_reducible refine FrameO.ite ?_ ?_
    | with_reducible refine Frame.ite ?_ ?_

theorem retrainPort_frame {κ : Nat} {σ : State} {p : Nat} {s : State} (hk : Nat.testBit 135327378 κ = false) (hF : Frame κ σ s) :
    Frame κ σ (retrainPort p s) := by
  have m2 : Nat.testBit 2 κ = false := testBit_sub rfl hk
  have m8192 : Nat.testBit 8192 κ = false := testBit_sub rfl hk
  have m24578 : Nat.testBit 24578 κ = false := testBit_sub rfl hk
  have m59010 : Nat.testBit 59010 κ = false := testBit_sub rfl hk
  have m135270034 : Nat.testBit 135270034 κ = false := testBit_sub rfl hk
  unfold retrainPort
  try dsimp only
  repeat' first
    | with_reducible exact hF
    | with_reducible assumption
    | with_reducible refine startTraining_frame m24578 ?_
    | with_reducible refine attachEvent_frame m135270034 ?_
    | with_reducible refine portDown_frame m59010 ?_
    | with_reducible refine startCanopy_frame m24578 ?_
    | with_reducible refine clearPort_frame m2 ?_
    | with_reducible refine State_setCan_frame m8192 ?_
    | with_reducible refine Frame.ite ?_ ?_

theorem wrCanCtl_frame {κ : Nat} {σ : State} {p : Nat} {v : Nat} {s : State} (hk : Nat.testBit 135327378 κ = false) (hF : Frame κ σ s) :
    Frame κ σ (wrCanCtl p v s) := by
  have m135327378 := hk
  have m130 : Nat.testBit 130 κ = false := testBit_sub rfl hk
  unfold wrCanCtl
  try dsimp only
  repeat' first
    | with_reducible exact hF
    | with_reducible assumption
    | with_reducible refine wrWord_frame m130 ?_
    | with_reducible refine retrainPort_frame m135327378 ?_
    | with_reducible refine Frame.ite ?_ ?_

theorem wrUpref_frame {κ : Nat} {σ : State} {c : Nat} {v : Nat} {s : State} (hk : Nat.testBit 642 κ = false) (hF : Frame κ σ s) :
    Frame κ σ (wrUpref c v s) := by
  have m130 : Nat.testBit 130 κ = false := testBit_sub rfl hk
  have m514 : Nat.testBit 514 κ = false := testBit_sub rfl hk
  unfold wrUpref
  try dsimp only
  repeat' first
    | with_reducible exact hF
    | with_reducible assumption
    | with_reducible refine wrField_frame m130 ?_
    | with_reducible refine structuralEvent_frame m514 ?_
    | with_reducible refine raise_frame m130 ?_
    | with_reducible refine Frame.ite ?_ ?_

end Sys2Proof.Laws
end

