-- ==== Sys2Proof/Laws/FrameLaneCell.lean ====
section
/-! SUPPORT. What each operation of Machine/LaneCell.lean leaves alone. -/

namespace Sys2Proof.Laws

open Sys2Proof Sys2Proof.Machine

set_option linter.unusedTactic false
set_option linter.unreachableTactic false
set_option linter.unusedVariables false

theorem trainCells_frame {κ : Nat} {σ : State} {p : Nat} {st : Nat} {s : State} (hk : Nat.testBit 16410 κ = false) (hF : Frame κ σ s) :
    Frame κ σ (trainCells p st s) := by
  have m2 : Nat.testBit 2 κ = false := testBit_sub rfl hk
  have m24 : Nat.testBit 24 κ = false := testBit_sub rfl hk
  have m16384 : Nat.testBit 16384 κ = false := testBit_sub rfl hk
  unfold trainCells
  try dsimp only
  repeat' first
    | with_reducible exact hF
    | with_reducible assumption
    | with_reducible refine sendTraining_frame m24 ?_
    | with_reducible refine restore_frame m2 ?_
    | with_reducible refine State_wr_frame m2 ?_
    | with_reducible refine State_setLane_frame m16384 ?_
    | with_reducible refine forAll_frame (fun _ _ _ => ?_) ?_

theorem startRetrain_frame {κ : Nat} {σ : State} {p : Nat} {s : State} (hk : Nat.testBit 16410 κ = false) (hF : Frame κ σ s) :
    Frame κ σ (startRetrain p s) := by
  have m16410 := hk
  unfold startRetrain
  try dsimp only
  repeat' first
    | with_reducible exact hF
    | with_reducible assumption
    | with_reducible refine trainCells_frame m16410 ?_

theorem trainSingle_frame {κ : Nat} {σ : State} {p : Nat} {s : State} (hk : Nat.testBit 16410 κ = false) (hF : Frame κ σ s) :
    Frame κ σ (trainSingle p s) := by
  have m16410 := hk
  unfold trainSingle
  try dsimp only
  repeat' first
    | with_reducible exact hF
    | with_reducible assumption
    | with_reducible refine trainCells_frame m16410 ?_
    | with_reducible refine startRetrain_frame m16410 ?_
    | with_reducible refine Frame.ite ?_ ?_
    | split

theorem retrainCause_frame {κ : Nat} {σ : State} {p : Nat} {s : State} (hk : Nat.testBit 16410 κ = false) (hF : Frame κ σ s) :
    Frame κ σ (retrainCause p s) := by
  have m16410 := hk
  unfold retrainCause
  try dsimp only
  repeat' first
    | with_reducible exact hF
    | with_reducible assumption
    | with_reducible refine startRetrain_frame m16410 ?_
    | with_reducible refine Frame.ite ?_ ?_
    | split

theorem enterSingle_frame {κ : Nat} {σ : State} {c : Nat} {s : State} (hk : Nat.testBit 25114 κ = false) (hF : Frame κ σ s) :
    Frame κ σ (enterSingle c s) := by
  have m2 : Nat.testBit 2 κ = false := testBit_sub rfl hk
  have m512 : Nat.testBit 512 κ = false := testBit_sub rfl hk
  have m8192 : Nat.testBit 8192 κ = false := testBit_sub rfl hk
  have m16410 : Nat.testBit 16410 κ = false := testBit_sub rfl hk
  unfold enterSingle
  try dsimp only
  repeat' first
    | with_reducible exact hF
    | with_reducible assumption
    | with_reducible refine State_setCan_frame m8192 ?_
    | with_reducible refine State_wr_frame m2 ?_
    | with_reducible refine trainSingle_frame m16410 ?_
    | with_reducible refine forAll_frame (fun _ _ _ => ?_) ?_
    | with_reducible refine Frame.ite ?_ ?_
    | split
    | (apply Frame.lit m512 rfl; case e => constructor <;> (try dsimp only) <;> first | exact .inl rfl | exact .inr rfl)

theorem takeSingle_frame {κ : Nat} {σ : State} {c : Nat} {s : State} (hk : Nat.testBit 25114 κ = false) (hF : Frame κ σ s) :
    Frame κ σ (takeSingle c s) := by
  have m25114 := hk
  have m514 : Nat.testBit 514 κ = false := testBit_sub rfl hk
  unfold takeSingle
  try dsimp only
  repeat' first
    | with_reducible exact hF
    | with_reducible assumption
    | with_reducible refine structuralEvent_frame m514 ?_
    | with_reducible refine enterSingle_frame m25114 ?_
    | with_reducible refine Frame.ite ?_ ?_
    | split

theorem advanceTs2_frame {κ : Nat} {σ : State} {p : Nat} {s : State} (hk : Nat.testBit 16410 κ = false) (hF : Frame κ σ s) :
    Frame κ σ (advanceTs2 p s) := by
  have m2 : Nat.testBit 2 κ = false := testBit_sub rfl hk
  have m24 : Nat.testBit 24 κ = false := testBit_sub rfl hk
  have m16384 : Nat.testBit 16384 κ = false := testBit_sub rfl hk
  unfold advanceTs2
  try dsimp only
  repeat' first
    | with_reducible exact hF
    | with_reducible assumption
    | with_reducible refine sendTraining_frame m24 ?_
    | with_reducible refine State_wr_frame m2 ?_
    | with_reducible refine State_setLane_frame m16384 ?_
    | with_reducible refine forAll_frame (fun _ _ _ => ?_) ?_
    | with_reducible refine Frame.ite ?_ ?_
    | split

theorem execReceiverDetect_frame {κ : Nat} {σ : State} {cell : LaneCell} {s : State} (hk : Nat.testBit 26 κ = false) (hF : Frame κ σ s) :
    FrameO κ σ (execReceiverDetect cell s) := by
  have m2 : Nat.testBit 2 κ = false := testBit_sub rfl hk
  have m24 : Nat.testBit 24 κ = false := testBit_sub rfl hk
  unfold execReceiverDetect
  try dsimp only
  repeat' first
    | with_reducible exact hF
    | with_reducible assumption
    | with_reducible refine sendTraining_frame m24 ?_
    | with_reducible refine State_wr_frame m2 ?_
    | with_reducible refine FrameO.next ?_
    | with_reducible refine FrameO.ite ?_ ?_
    | with_reducible refine Frame.ite ?_ ?_
    | split

theorem askEngine_frame {κ : Nat} {σ : State} {c : Nat} {training : Bool} {b : Bool} {s : State} (hk : Nat.testBit 16384 κ = false) (hF : Frame κ σ s) :
    Frame κ σ (askEngine c training b s) := by
  have m16384 := hk
  unfold askEngine
  try dsimp only
  repeat' first
    | with_reducible exact hF
    | with_reducible assumption
    | with_reducible refine State_setLane_frame m16384 ?_
    | with_reducible refine Frame.ite ?_ ?_
    | split

theorem askControl_frame {κ : Nat} {σ : State} {c : Nat} {s : State} (hk : Nat.testBit 16384 κ = false) (hF : Frame κ σ s) :
    Frame κ σ (askControl c s) := by
  have m16384 := hk
  unfold askControl
  try dsimp only
  repeat' first
    | with_reducible exact hF
    | with_reducible assumption
    | with_reducible refine askEngine_frame m16384 ?_
    | with_reducible refine forAll_frame (fun _ _ _ => ?_) ?_

theorem pairLocks_frame {κ : Nat} {σ : State} {c : Nat} {b : Bool} {info : Nat} {inverted : Bool} {s : State} (hk : Nat.testBit 130 κ = false) (hF : Frame κ σ s) :
    Frame κ σ (pairLocks c b info inverted s) := by
  have m130 := hk
  have m2 : Nat.testBit 2 κ = false := testBit_sub rfl hk
  unfold pairLocks
  try dsimp only
  repeat' first
    | with_reducible exact hF
    | with_reducible assumption
    | with_reducible refine raise_frame m130 ?_
    | with_reducible refine wrs_frame m2 ?_
    | with_reducible refine Frame.ite ?_ ?_
    | split

theorem execTs1_frame {κ : Nat} {σ : State} {cell : LaneCell} {pairB : Bool} {info : BitVec 11} {inverted : Bool} {s : State} (hk : Nat.testBit 25242 κ = false) (hF : Frame κ σ s) :
    FrameO κ σ (execTs1 cell pairB info inverted s) := by
  have m24 : Nat.testBit 24 κ = false := testBit_sub rfl hk
  have m130 : Nat.testBit 130 κ = false := testBit_sub rfl hk
  have m16384 : Nat.testBit 16384 κ = false := testBit_sub rfl hk
  have m16410 : Nat.testBit 16410 κ = false := testBit_sub rfl hk
  have m25114 : Nat.testBit 25114 κ = false := testBit_sub rfl hk
  unfold execTs1
  try dsimp only
  repeat' first
    | with_reducible exact hF
    | with_reducible assumption
    | with_reducible refine takeSingle_frame m25114 ?_
    | with_reducible refine retrainCause_frame m16410 ?_
    | with_reducible refine pairLocks_frame m130 ?_
    | with_reducible refine askEngine_frame m16384 ?_
    | with_reducible refine sendTraining_frame m24 ?_
    | with_reducible refine advanceTs2_frame m16410 ?_
    | with_reducible refine State_setLane_frame m16384 ?_
    | with_reducible refine FrameO.next ?_
    | with_reducible refine FrameO.ite ?_ ?_
    | with_reducible refine Frame.ite ?_ ?_
    | split

theorem finishTurn_frame {κ : Nat} {σ : State} {p : Nat} {s : State} (hk : Nat.testBit 135282322 κ = false) (hF : Frame κ σ s) :
    Frame κ σ (finishTurn p s) := by
  have m135282322 := hk
  unfold finishTurn
  try dsimp only
  repeat' first
    | with_reducible exact hF
    | with_reducible assumption
    | with_reducible refine linkActive_frame m135282322 ?_
    | with_reducible refine Frame.ite ?_ ?_
    | split

theorem portCellsUp_frame {κ : Nat} {σ : State} {p : Nat} {wasRetrain : Bool} {s : State} (hk : Nat.testBit 135282322 κ = false) (hF : Frame κ σ s) :
    Frame κ σ (portCellsUp p wasRetrain s) := by
  have m135282322 := hk
  have m18 : Nat.testBit 18 κ = false := testBit_sub rfl hk
  have m8192 : Nat.testBit 8192 κ = false := testBit_sub rfl hk
  unfold portCellsUp
  try dsimp only
  repeat' first
    | with_reducible exact hF
    | with_reducible assumption
    | with_reducible refine beginCaps_frame m18 ?_
    | with_reducible refine sendRnak_frame m18 ?_
    | with_reducible refine State_setCan_frame m8192 ?_
    | with_reducible refine finishTurn_frame m135282322 ?_
    | with_reducible refine Frame.ite ?_ ?_
    | split

theorem execTs2_frame {κ : Nat} {σ : State} {cell : LaneCell} {pairB : Bool} {count : Fin 16} {seed : BitVec 31} {s : State} (hk : Nat.testBit 135298706 κ = false) (hF : Frame κ σ s) :
    FrameO κ σ (execTs2 cell pairB count seed s) := by
  have m2 : Nat.testBit 2 κ = false := testBit_sub rfl hk
  have m130 : Nat.testBit 130 κ = false := testBit_sub rfl hk
  have m16384 : Nat.testBit 16384 κ = false := testBit_sub rfl hk
  have m135282322 : Nat.testBit 135282322 κ = false := testBit_sub rfl hk
  unfold execTs2
  try dsimp only
  repeat' first
    | with_reducible exact hF
    | with_reducible assumption
    | with_reducible refine State_setLane_frame m16384 ?_
    | with_reducible refine finishTurn_frame m135282322 ?_
    | with_reducible refine askControl_frame m16384 ?_
    | with_reducible refine State_wr_frame m2 ?_
    | with_reducible refine raise_frame m130 ?_
    | with_reducible refine State_inc_frame m2 ?_
    | with_reducible refine portCellsUp_frame m135282322 ?_
    | with_reducible refine FrameO.next ?_
    | with_reducible refine FrameO.ite ?_ ?_
    | with_reducible refine Frame.ite ?_ ?_
    | split

theorem loseLock_frame {κ : Nat} {σ : State} {c : Nat} {pairB : Bool} {s : State} (hk : Nat.testBit 16538 κ = false) (hF : Frame κ σ s) :
    Frame κ σ (loseLock c pairB s) := by
  have m2 : Nat.testBit 2 κ = false := testBit_sub rfl hk
  have m130 : Nat.testBit 130 κ = false := testBit_sub rfl hk
  have m16410 : Nat.testBit 16410 κ = false := testBit_sub rfl hk
  unfold loseLock
  try dsimp only
  repeat' first
    | with_reducible exact hF
    | with_reducible assumption
    | with_reducible refine raise_frame m130 ?_
    | with_reducible refine State_wr_frame m2 ?_
    | with_reducible refine retrainCause_frame m16410 ?_
    | with_reducible refine Frame.ite ?_ ?_
    | split

theorem execLossOfLock_frame {κ : Nat} {σ : State} {cell : LaneCell} {pairB : Bool} {s : State} (hk : Nat.testBit 16538 κ = false) (hF : Frame κ σ s) :
    FrameO κ σ (execLossOfLock cell pairB s) := by
  have m16538 := hk
  unfold execLossOfLock
  try dsimp only
  repeat' first
    | with_reducible exact hF
    | with_reducible assumption
    | with_reducible refine loseLock_frame m16538 ?_
    | with_reducible refine FrameO.next ?_

theorem execUncorrectableCodeword_frame {κ : Nat} {σ : State} {cell : LaneCell} {pairB : Bool} {cw : Codeword} {slots : List (BitVec 64)} {s : State} (hk : Nat.testBit 24730 κ = false) (hF : Frame κ σ s) :
    FrameO κ σ (execUncorrectableCodeword cell pairB cw slots s) := by
  have m2 : Nat.testBit 2 κ = false := testBit_sub rfl hk
  have m8210 : Nat.testBit 8210 κ = false := testBit_sub rfl hk
  have m16384 : Nat.testBit 16384 κ = false := testBit_sub rfl hk
  have m16538 : Nat.testBit 16538 κ = false := testBit_sub rfl hk
  unfold execUncorrectableCodeword
  try dsimp only
  repeat' first
    | with_reducible exact hF
    | with_reducible assumption
    | with_reducible refine State_inc_frame m2 ?_
    | with_reducible refine State_setLane_frame m16384 ?_
    | with_reducible refine linkError_frame m8210 ?_
    | with_reducible refine loseLock_frame m16538 ?_
    | with_reducible refine forAll_frame (fun _ _ _ => ?_) ?_
    | with_reducible refine FrameO.next ?_
    | with_reducible refine FrameO.ite ?_ ?_
    | with_reducible refine Frame.ite ?_ ?_
    | split

theorem execLos_frame {κ : Nat} {σ : State} {cell : LaneCell} {pairB : Bool} {s : State} (hk : Nat.testBit 16538 κ = false) (hF : Frame κ σ s) :
    FrameO κ σ (execLos cell pairB s) := by
  have m2 : Nat.testBit 2 κ = false := testBit_sub rfl hk
  have m130 : Nat.testBit 130 κ = false := testBit_sub rfl hk
  have m16410 : Nat.testBit 16410 κ = false := testBit_sub rfl hk
  unfold execLos
  try dsimp only
  repeat' first
    | with_reducible exact hF
    | with_reducible assumption
    | with_reducible refine raise_frame m130 ?_
    | with_reducible refine State_wr_frame m2 ?_
    | with_reducible refine retrainCause_frame m16410 ?_
    | with_reducible refine FrameO.next ?_
    | with_reducible refine FrameO.ite ?_ ?_
    | with_reducible refine Frame.ite ?_ ?_
    | split

theorem execLossOfAlignment_frame {κ : Nat} {σ : State} {port : CanPort} {s : State} (hk : Nat.testBit 16410 κ = false) (hF : Frame κ σ s) :
    FrameO κ σ (execLossOfAlignment port s) := by
  have m16410 := hk
  unfold execLossOfAlignment
  try dsimp only
  repeat' first
    | with_reducible exact hF
    | with_reducible assumption
    | with_reducible refine retrainCause_frame m16410 ?_
    | with_reducible refine FrameO.next ?_

theorem execLosTimeout_frame {κ : Nat} {σ : State} {port : Port} {s : State} (hk : Nat.testBit 135327378 κ = false) (hF : Frame κ σ s) :
    FrameO κ σ (execLosTimeout port s) := by
  have m135327378 := hk
  unfold execLosTimeout
  try dsimp only
  repeat' first
    | with_reducible exact hF
    | with_reducible assumption
    | with_reducible refine portDownAttached_frame m135327378 ?_
    | with_reducible refine FrameO.next ?_
    | with_reducible refine FrameO.ite ?_ ?_
    | with_reducible refine Frame.ite ?_ ?_
    | split

theorem execCellLosTimeout_frame {κ : Nat} {σ : State} {cell : LaneCell} {s : State} (hk : Nat.testBit 25114 κ = false) (hF : Frame κ σ s) :
    FrameO κ σ (execCellLosTimeout cell s) := by
  have m25114 := hk
  unfold execCellLosTimeout
  try dsimp only
  repeat' first
    | with_reducible exact hF
    | with_reducible assumption
    | with_reducible refine takeSingle_frame m25114 ?_
    | with_reducible refine FrameO.next ?_
    | with_reducible refine FrameO.ite ?_ ?_
    | with_reducible refine Frame.ite ?_ ?_
    | split

theorem countFail_frame {κ : Nat} {σ : State} {c : Nat} {s : State} (hk : Nat.testBit 130 κ = false) (hF : Frame κ σ s) :
    Frame κ σ (countFail c s) := by
  have m130 := hk
  have m2 : Nat.testBit 2 κ = false := testBit_sub rfl hk
  unfold countFail
  try dsimp only
  repeat' first
    | with_reducible exact hF
    | with_reducible assumption
    | with_reducible refine State_wr_frame m2 ?_
    | with_reducible refine raise_frame m130 ?_
    | with_reducible refine Frame.ite ?_ ?_
    | split

theorem execRetrainTimeout_frame {κ : Nat} {σ : State} {port : Port} {s : State} (hk : Nat.testBit 16538 κ = false) (hF : Frame κ σ s) :
    FrameO κ σ (execRetrainTimeout port s) := by
  have m2 : Nat.testBit 2 κ = false := testBit_sub rfl hk
  have m130 : Nat.testBit 130 κ = false := testBit_sub rfl hk
  have m16410 : Nat.testBit 16410 κ = false := testBit_sub rfl hk
  unfold execRetrainTimeout
  try dsimp only
  repeat' first
    | with_reducible exact hF
    | with_reducible assumption
    | with_reducible refine State_inc_frame m2 ?_
    | with_reducible refine countFail_frame m130 ?_
    | with_reducible refine startRetrain_frame m16410 ?_
    | with_reducible refine forAll_frame (fun _ _ _ => ?_) ?_
    | with_reducible refine FrameO.next ?_
    | with_reducible refine FrameO.ite ?_ ?_
    | with_reducible refine Frame.ite ?_ ?_
    | split

theorem setRtrn_frame {κ : Nat} {σ : State} {c : Nat} {s : State} (hk : Nat.testBit 24602 κ = false) (hF : Frame κ σ s) :
    Frame κ σ (setRtrn c s) := by
  have m8192 : Nat.testBit 8192 κ = false := testBit_sub rfl hk
  have m16410 : Nat.testBit 16410 κ = false := testBit_sub rfl hk
  unfold setRtrn
  try dsimp only
  repeat' first
    | with_reducible exact hF
    | with_reducible assumption
    | with_reducible refine State_setCan_frame m8192 ?_
    | with_reducible refine retrainCause_frame m16410 ?_
    | with_reducible refine Frame.ite ?_ ?_
    | split

theorem setHold_frame {κ : Nat} {σ : State} {c : Nat} {on : Bool} {s : State} (hk : Nat.testBit 135327378 κ = false) (hF : Frame κ σ s) :
    Frame κ σ (setHold c on s) := by
  have m2 : Nat.testBit 2 κ = false := testBit_sub rfl hk
  have m24578 : Nat.testBit 24578 κ = false := testBit_sub rfl hk
  have m59010 : Nat.testBit 59010 κ = false := testBit_sub rfl hk
  have m135270034 : Nat.testBit 135270034 κ = false := testBit_sub rfl hk
  unfold setHold
  try dsimp only
  repeat' first
    | with_reducible exact hF
    | with_reducible assumption
    | with_reducible refine State_setB_frame m2 ?_
    | with_reducible refine portDown_frame m59010 ?_
    | with_reducible refine attachEvent_frame m135270034 ?_
    | with_reducible refine State_wr_frame m2 ?_
    | with_reducible refine startTraining_frame m24578 ?_
    | with_reducible refine forAll_frame (fun _ _ _ => ?_) ?_
    | with_reducible refine Frame.ite ?_ ?_
    | split

theorem wrLcCtl_frame {κ : Nat} {σ : State} {c : Nat} {v : Nat} {s : State} (hk : Nat.testBit 135327386 κ = false) (hF : Frame κ σ s) :
    Frame κ σ (wrLcCtl c v s) := by
  have m130 : Nat.testBit 130 κ = false := testBit_sub rfl hk
  have m24602 : Nat.testBit 24602 κ = false := testBit_sub rfl hk
  have m135327378 : Nat.testBit 135327378 κ = false := testBit_sub rfl hk
  unfold wrLcCtl
  try dsimp only
  repeat' first
    | with_reducible exact hF
    | with_reducible assumption
    | with_reducible refine wrWord_frame m130 ?_
    | with_reducible refine ifAllowed_frame m130 (fun _ _ => ?_) ?_
    | with_reducible refine setHold_frame m135327378 ?_
    | with_reducible refine setRtrn_frame m24602 ?_
    | with_reducible refine Frame.ite ?_ ?_
    | split

theorem noteDrive_frame {κ : Nat} {σ : State} {c : Nat} {s : State} {t : State} (hk : Nat.testBit 16 κ = false) (hF : Frame κ σ t) :
    Frame κ σ (noteDrive c s t) := by
  have m16 := hk
  unfold noteDrive
  try dsimp only
  repeat' first
    | with_reducible exact hF
    | with_reducible assumption
    | with_reducible refine State_emit_frame m16 ?_
    | with_reducible refine forAll_frame (fun _ _ _ => ?_) ?_
    | with_reducible refine Frame.ite ?_ ?_
    | split

theorem clearChecker_frame {κ : Nat} {σ : State} {c : Nat} {s : State} (hk : Nat.testBit 16386 κ = false) (hF : Frame κ σ s) :
    Frame κ σ (clearChecker c s) := by
  have m2 : Nat.testBit 2 κ = false := testBit_sub rfl hk
  have m16384 : Nat.testBit 16384 κ = false := testBit_sub rfl hk
  unfold clearChecker
  try dsimp only
  repeat' first
    | with_reducible exact hF
    | with_reducible assumption
    | with_reducible refine restore_frame m2 ?_
    | with_reducible refine State_setLane_frame m16384 ?_

theorem wrPattern_frame {κ : Nat} {σ : State} {a : Nat} {f : Fld} {rate : Nat} {pat : Nat} {s : State} (hk : Nat.testBit 130 κ = false) (hF : Frame κ σ s) :
    Frame κ σ (wrPattern a f rate pat s) := by
  have m130 := hk
  unfold wrPattern
  try dsimp only
  repeat' first
    | with_reducible exact hF
    | with_reducible assumption
    | with_reducible refine wrField_frame m130 ?_
    | with_reducible refine cfgErr_frame m130 ?_
    | with_reducible refine Frame.ite ?_ ?_
    | split

theorem enterTest_frame {κ : Nat} {σ : State} {c : Nat} {s : State} (hk : Nat.testBit 130 κ = false) (hF : Frame κ σ s) :
    Frame κ σ (enterTest c s) := by
  have m130 := hk
  have m2 : Nat.testBit 2 κ = false := testBit_sub rfl hk
  unfold enterTest
  try dsimp only
  repeat' first
    | with_reducible exact hF
    | with_reducible assumption
    | with_reducible refine State_wr_frame m2 ?_
    | with_reducible refine raise_frame m130 ?_
    | with_reducible refine Frame.ite ?_ ?_
    | split

theorem leaveTest_frame {κ : Nat} {σ : State} {c : Nat} {s : State} (hk : Nat.testBit 2 κ = false) (hF : Frame κ σ s) :
    Frame κ σ (leaveTest c s) := by
  have m2 := hk
  unfold leaveTest
  try dsimp only
  repeat' first
    | with_reducible exact hF
    | with_reducible assumption
    | with_reducible refine State_wr_frame m2 ?_
    | with_reducible refine restore_frame m2 ?_
    | with_reducible refine Frame.ite ?_ ?_
    | split

theorem wrLcTest_frame {κ : Nat} {σ : State} {c : Nat} {v : Nat} {s : State} (hk : Nat.testBit 16530 κ = false) (hF : Frame κ σ s) :
    Frame κ σ (wrLcTest c v s) := by
  have m2 : Nat.testBit 2 κ = false := testBit_sub rfl hk
  have m16 : Nat.testBit 16 κ = false := testBit_sub rfl hk
  have m130 : Nat.testBit 130 κ = false := testBit_sub rfl hk
  have m16386 : Nat.testBit 16386 κ = false := testBit_sub rfl hk
  unfold wrLcTest
  try dsimp only
  repeat' first
    | with_reducible exact hF
    | with_reducible assumption
    | with_reducible refine cfgErr_frame m130 ?_
    | with_reducible refine wrField_frame m130 ?_
    | with_reducible refine wrPattern_frame m130 ?_
    | with_reducible refine wrWord_frame m130 ?_
    | with_reducible refine ifAllowed_frame m130 (fun _ _ => ?_) ?_
    | with_reducible refine enterTest_frame m130 ?_
    | with_reducible refine leaveTest_frame m2 ?_
    | with_reducible refine noteDrive_frame m16 ?_
    | with_reducible refine clearChecker_frame m16386 ?_
    | with_reducible refine Frame.ite ?_ ?_
    | split

theorem wrLcInj_frame {κ : Nat} {σ : State} {c : Nat} {v : Nat} {s : State} (hk : Nat.testBit 146 κ = false) (hF : Frame κ σ s) :
    Frame κ σ (wrLcInj c v s) := by
  have m2 : Nat.testBit 2 κ = false := testBit_sub rfl hk
  have m16 : Nat.testBit 16 κ = false := testBit_sub rfl hk
  have m130 : Nat.testBit 130 κ = false := testBit_sub rfl hk
  unfold wrLcInj
  try dsimp only
  repeat' first
    | with_reducible exact hF
    | with_reducible assumption
    | with_reducible refine wrWord_frame m130 ?_
    | with_reducible refine State_wr_frame m2 ?_
    | with_reducible refine State_emit_frame m16 ?_
    | with_reducible refine raise_frame m130 ?_
    | with_reducible refine Frame.ite ?_ ?_
    | split

theorem execInjectComplete_frame {κ : Nat} {σ : State} {cell : LaneCell} {s : State} (hk : Nat.testBit 2 κ = false) (hF : Frame κ σ s) :
    FrameO κ σ (execInjectComplete cell s) := by
  have m2 := hk
  unfold execInjectComplete
  try dsimp only
  repeat' first
    | with_reducible exact hF
    | with_reducible assumption
    | with_reducible refine State_wr_frame m2 ?_
    | with_reducible refine FrameO.next ?_

theorem execCheckerSync_frame {κ : Nat} {σ : State} {cell : LaneCell} {pairB : Bool} {s : State} (hk : Nat.testBit 16386 κ = false) (hF : Frame κ σ s) :
    FrameO κ σ (execCheckerSync cell pairB s) := by
  have m2 : Nat.testBit 2 κ = false := testBit_sub rfl hk
  have m16384 : Nat.testBit 16384 κ = false := testBit_sub rfl hk
  unfold execCheckerSync
  try dsimp only
  repeat' first
    | with_reducible exact hF
    | with_reducible assumption
    | with_reducible refine State_setLane_frame m16384 ?_
    | with_reducible refine State_wr_frame m2 ?_
    | with_reducible refine FrameO.next ?_
    | with_reducible refine FrameO.ite ?_ ?_
    | with_reducible refine Frame.ite ?_ ?_
    | split

theorem execCheckerError_frame {κ : Nat} {σ : State} {cell : LaneCell} {pairB : Bool} {s : State} (hk : Nat.testBit 130 κ = false) (hF : Frame κ σ s) :
    FrameO κ σ (execCheckerError cell pairB s) := by
  have m130 := hk
  have m2 : Nat.testBit 2 κ = false := testBit_sub rfl hk
  unfold execCheckerError
  try dsimp only
  repeat' first
    | with_reducible exact hF
    | with_reducible assumption
    | with_reducible refine State_inc_frame m2 ?_
    | with_reducible refine raise_frame m130 ?_
    | with_reducible refine FrameO.next ?_
    | with_reducible refine FrameO.ite ?_ ?_
    | with_reducible refine Frame.ite ?_ ?_
    | split

end Sys2Proof.Laws
end

