-- ==== Sys2Proof/Laws/FramePipe.lean ====
section
/-! SUPPORT. What each operation of Machine/Pipe.lean leaves alone. -/

namespace Sys2Proof.Laws

open Sys2Proof Sys2Proof.Machine

set_option linter.unusedTactic false
set_option linter.unreachableTactic false
set_option linter.unusedVariables false

theorem scanned_frame {κ : Nat} {σ : State} {d : Nat} {l0 : Bool} {s : State} (hk : Nat.testBit 1048706 κ = false) (hF : Frame κ σ s) :
    Frame κ σ (scanned d l0 s) := by
  have m2 : Nat.testBit 2 κ = false := testBit_sub rfl hk
  have m130 : Nat.testBit 130 κ = false := testBit_sub rfl hk
  have m1048576 : Nat.testBit 1048576 κ = false := testBit_sub rfl hk
  unfold scanned
  try dsimp only
  repeat' first
    | with_reducible exact hF
    | with_reducible assumption
    | with_reducible refine State_wr_frame m2 ?_
    | with_reducible refine State_setPipe_frame m1048576 ?_
    | with_reducible refine State_inc_frame m2 ?_
    | with_reducible refine raise_frame m130 ?_
    | with_reducible refine Frame.ite ?_ ?_
    | split

theorem adoptAttrs_frame {κ : Nat} {σ : State} {d : Nat} {a : Bytes} {s : State} (hk : Nat.testBit 1048578 κ = false) (hF : Frame κ σ s) :
    Frame κ σ (adoptAttrs d a s) := by
  have m2 : Nat.testBit 2 κ = false := testBit_sub rfl hk
  have m1048576 : Nat.testBit 1048576 κ = false := testBit_sub rfl hk
  unfold adoptAttrs
  try dsimp only
  repeat' first
    | with_reducible exact hF
    | with_reducible assumption
    | with_reducible refine State_setPipe_frame m1048576 ?_
    | with_reducible refine wrs_frame m2 ?_

theorem takeAttributes_frame {κ : Nat} {σ : State} {d : Nat} {data : Bytes} {s : State} (hk : Nat.testBit 1049218 κ = false) (hF : Frame κ σ s) :
    Frame κ σ (takeAttributes d data s) := by
  have m130 : Nat.testBit 130 κ = false := testBit_sub rfl hk
  have m514 : Nat.testBit 514 κ = false := testBit_sub rfl hk
  have m1048576 : Nat.testBit 1048576 κ = false := testBit_sub rfl hk
  unfold takeAttributes
  try dsimp only
  repeat' first
    | with_reducible exact hF
    | with_reducible assumption
    | with_reducible refine raise_frame m130 ?_
    | with_reducible refine State_setPipe_frame m1048576 ?_
    | with_reducible refine structuralEvent_frame m514 ?_
    | with_reducible refine Frame.ite ?_ ?_
    | split

theorem execStreamAttributes_frame {κ : Nat} {σ : State} {d : Pipe} {data : Bytes} {s : State} (hk : Nat.testBit 1049218 κ = false) (hF : Frame κ σ s) :
    FrameO κ σ (execStreamAttributes d data s) := by
  have m1049218 := hk
  unfold execStreamAttributes
  try dsimp only
  repeat' first
    | with_reducible exact hF
    | with_reducible assumption
    | with_reducible refine takeAttributes_frame m1049218 ?_
    | with_reducible refine FrameO.next ?_

theorem frameComplete_frame {κ : Nat} {σ : State} {d : Nat} {s : State} (hk : Nat.testBit 1048578 κ = false) (hF : Frame κ σ s) :
    Frame κ σ (frameComplete d s) := by
  have m2 : Nat.testBit 2 κ = false := testBit_sub rfl hk
  have m1048576 : Nat.testBit 1048576 κ = false := testBit_sub rfl hk
  unfold frameComplete
  try dsimp only
  repeat' first
    | with_reducible exact hF
    | with_reducible assumption
    | with_reducible refine State_setPipe_frame m1048576 ?_
    | with_reducible refine wrs_frame m2 ?_

theorem storeLine_frame {κ : Nat} {σ : State} {d : Nat} {line : Nat} {a : Bytes} {data : Bytes} {s : State} (hk : Nat.testBit 1048770 κ = false) (hF : Frame κ σ s) :
    Frame κ σ (storeLine d line a data s) := by
  have m2 : Nat.testBit 2 κ = false := testBit_sub rfl hk
  have m64 : Nat.testBit 64 κ = false := testBit_sub rfl hk
  have m130 : Nat.testBit 130 κ = false := testBit_sub rfl hk
  have m1048576 : Nat.testBit 1048576 κ = false := testBit_sub rfl hk
  have m1048578 : Nat.testBit 1048578 κ = false := testBit_sub rfl hk
  unfold storeLine
  try dsimp only
  repeat' first
    | with_reducible exact hF
    | with_reducible assumption
    | with_reducible refine raise_frame m130 ?_
    | with_reducible refine State_inc_frame m2 ?_
    | with_reducible refine State_setPipe_frame m1048576 ?_
    | with_reducible refine frameComplete_frame m1048578 ?_
    | with_reducible refine Frame.ite ?_ ?_
    | split
    | with_reducible refine dram_frame m64 ?_

theorem takePixels_frame {κ : Nat} {σ : State} {d : Nat} {line : Nat} {data : Bytes} {s : State} (hk : Nat.testBit 1048770 κ = false) (hF : Frame κ σ s) :
    Frame κ σ (takePixels d line data s) := by
  have m1048770 := hk
  have m130 : Nat.testBit 130 κ = false := testBit_sub rfl hk
  have m1048576 : Nat.testBit 1048576 κ = false := testBit_sub rfl hk
  unfold takePixels
  try dsimp only
  repeat' first
    | with_reducible exact hF
    | with_reducible assumption
    | with_reducible refine raise_frame m130 ?_
    | with_reducible refine State_setPipe_frame m1048576 ?_
    | with_reducible refine storeLine_frame m1048770 ?_
    | with_reducible refine Frame.ite ?_ ?_
    | split

theorem execPixelUnit_frame {κ : Nat} {σ : State} {d : Pipe} {line : Nat} {data : Bytes} {s : State} (hk : Nat.testBit 1048770 κ = false) (hF : Frame κ σ s) :
    FrameO κ σ (execPixelUnit d line data s) := by
  have m1048770 := hk
  have m1048576 : Nat.testBit 1048576 κ = false := testBit_sub rfl hk
  unfold execPixelUnit
  try dsimp only
  repeat' first
    | with_reducible exact hF
    | with_reducible assumption
    | with_reducible refine takePixels_frame m1048770 ?_
    | with_reducible refine State_setPipe_frame m1048576 ?_
    | with_reducible refine FrameO.next ?_

theorem reservedUnit_frame {κ : Nat} {σ : State} {d : Nat} {s : State} (hk : Nat.testBit 130 κ = false) (hF : Frame κ σ s) :
    Frame κ σ (reservedUnit d s) := by
  have m130 := hk
  unfold reservedUnit
  try dsimp only
  repeat' first
    | with_reducible exact hF
    | with_reducible assumption
    | with_reducible refine raise_frame m130 ?_

theorem takePacket_frame {κ : Nat} {σ : State} {d : Nat} {line : Nat} {data : Bytes} {s : State} (hk : Nat.testBit 146 κ = false) (hF : Frame κ σ s) :
    Frame κ σ (takePacket d line data s) := by
  have m16 : Nat.testBit 16 κ = false := testBit_sub rfl hk
  have m130 : Nat.testBit 130 κ = false := testBit_sub rfl hk
  unfold takePacket
  try dsimp only
  repeat' first
    | with_reducible exact hF
    | with_reducible assumption
    | with_reducible refine reservedUnit_frame m130 ?_
    | with_reducible refine State_emit_frame m16 ?_
    | with_reducible refine Frame.ite ?_ ?_
    | split

theorem execSecondaryDataPacket_frame {κ : Nat} {σ : State} {d : Pipe} {line : Nat} {data : Bytes} {s : State} (hk : Nat.testBit 146 κ = false) (hF : Frame κ σ s) :
    FrameO κ σ (execSecondaryDataPacket d line data s) := by
  have m146 := hk
  unfold execSecondaryDataPacket
  try dsimp only
  repeat' first
    | with_reducible exact hF
    | with_reducible assumption
    | with_reducible refine takePacket_frame m146 ?_
    | with_reducible refine FrameO.next ?_

theorem pipeUpstream_frame {κ : Nat} {σ : State} {d : Nat} {data : Bytes} {s : State} (hk : Nat.testBit 1026 κ = false) (hF : Frame κ σ s) :
    Frame κ σ (pipeUpstream d data s) := by
  have m1026 := hk
  unfold pipeUpstream
  try dsimp only
  repeat' first
    | with_reducible exact hF
    | with_reducible assumption
    | with_reducible refine ingressUnit_frame m1026 ?_
    | with_reducible refine Frame.ite ?_ ?_
    | split

theorem execHpdInterrupt_frame {κ : Nat} {σ : State} {d : Pipe} {s : State} (hk : Nat.testBit 1026 κ = false) (hF : Frame κ σ s) :
    FrameO κ σ (execHpdInterrupt d s) := by
  have m1026 := hk
  unfold execHpdInterrupt
  try dsimp only
  repeat' first
    | with_reducible exact hF
    | with_reducible assumption
    | with_reducible refine pipeUpstream_frame m1026 ?_
    | with_reducible refine FrameO.next ?_

theorem execLineDecision_frame {κ : Nat} {σ : State} {d : Pipe} {s : State} (hk : Nat.testBit 1048576 κ = false) (hF : Frame κ σ s) :
    FrameO κ σ (execLineDecision d s) := by
  have m1048576 := hk
  unfold execLineDecision
  try dsimp only
  repeat' first
    | with_reducible exact hF
    | with_reducible assumption
    | with_reducible refine State_setPipe_frame m1048576 ?_
    | with_reducible refine FrameO.next ?_
    | with_reducible refine FrameO.ite ?_ ?_
    | with_reducible refine Frame.ite ?_ ?_
    | split

theorem coverLines_frame {κ : Nat} {σ : State} {d : Nat} {f : Nat} {l : Nat} {s : State} (hk : Nat.testBit 1048576 κ = false) (hF : Frame κ σ s) :
    Frame κ σ (coverLines d f l s) := by
  have m1048576 := hk
  unfold coverLines
  try dsimp only
  repeat' first
    | with_reducible exact hF
    | with_reducible assumption
    | with_reducible refine State_setPipe_frame m1048576 ?_
    | split

theorem sendGrant_frame {κ : Nat} {σ : State} {d : Nat} {n : Nat} {s : State} (hk : Nat.testBit 1048592 κ = false) (hF : Frame κ σ s) :
    Frame κ σ (sendGrant d n s) := by
  have m16 : Nat.testBit 16 κ = false := testBit_sub rfl hk
  have m1048576 : Nat.testBit 1048576 κ = false := testBit_sub rfl hk
  unfold sendGrant
  try dsimp only
  repeat' first
    | with_reducible exact hF
    | with_reducible assumption
    | with_reducible refine coverLines_frame m1048576 ?_
    | with_reducible refine State_emit_frame m16 ?_
    | with_reducible refine Frame.ite ?_ ?_
    | split

theorem steerPix_frame {κ : Nat} {σ : State} {d : Nat} {n : Nat} {a : Bytes} {s : State} (hk : Nat.testBit 1048584 κ = false) (hF : Frame κ σ s) :
    Frame κ σ (steerPix d n a s) := by
  have m8 : Nat.testBit 8 κ = false := testBit_sub rfl hk
  have m1048576 : Nat.testBit 1048576 κ = false := testBit_sub rfl hk
  unfold steerPix
  try dsimp only
  repeat' first
    | with_reducible exact hF
    | with_reducible assumption
    | with_reducible refine State_free_frame m8 ?_
    | with_reducible refine State_setPipe_frame m1048576 ?_
    | with_reducible refine Frame.ite ?_ ?_
    | split
    | with_reducible refine Frame.snd (by assumption) ?_
    | with_reducible refine Frame.snd2 (by assumption) ?_
    | (dsimp only)

theorem lineStart_frame {κ : Nat} {σ : State} {d : Nat} {n : Nat} {s : State} (hk : Nat.testBit 1048730 κ = false) (hF : Frame κ σ s) :
    Frame κ σ (lineStart d n s) := by
  have m2 : Nat.testBit 2 κ = false := testBit_sub rfl hk
  have m16 : Nat.testBit 16 κ = false := testBit_sub rfl hk
  have m1048576 : Nat.testBit 1048576 κ = false := testBit_sub rfl hk
  have m1048584 : Nat.testBit 1048584 κ = false := testBit_sub rfl hk
  have m1048592 : Nat.testBit 1048592 κ = false := testBit_sub rfl hk
  have m1048706 : Nat.testBit 1048706 κ = false := testBit_sub rfl hk
  unfold lineStart
  try dsimp only
  repeat' first
    | with_reducible exact hF
    | with_reducible assumption
    | with_reducible refine State_wr_frame m2 ?_
    | with_reducible refine scanned_frame m1048706 ?_
    | with_reducible refine State_emit_frame m16 ?_
    | with_reducible refine steerPix_frame m1048584 ?_
    | with_reducible refine State_setPipe_frame m1048576 ?_
    | with_reducible refine sendGrant_frame m1048592 ?_
    | with_reducible refine Frame.ite ?_ ?_
    | split

theorem frameStart_frame {κ : Nat} {σ : State} {d : Nat} {s : State} (hk : Nat.testBit 1051290 κ = false) (hF : Frame κ σ s) :
    Frame κ σ (frameStart d s) := by
  have m2 : Nat.testBit 2 κ = false := testBit_sub rfl hk
  have m130 : Nat.testBit 130 κ = false := testBit_sub rfl hk
  have m2690 : Nat.testBit 2690 κ = false := testBit_sub rfl hk
  have m1048576 : Nat.testBit 1048576 κ = false := testBit_sub rfl hk
  have m1048578 : Nat.testBit 1048578 κ = false := testBit_sub rfl hk
  have m1048730 : Nat.testBit 1048730 κ = false := testBit_sub rfl hk
  unfold frameStart
  try dsimp only
  repeat' first
    | with_reducible exact hF
    | with_reducible assumption
    | with_reducible refine adoptAttrs_frame m1048578 ?_
    | with_reducible refine State_setPipe_frame m1048576 ?_
    | with_reducible refine State_wr_frame m2 ?_
    | with_reducible refine raise_frame m130 ?_
    | with_reducible refine lineStart_frame m1048730 ?_
    | with_reducible refine sourceFrame_frame m2690 ?_
    | with_reducible refine State_incMod_frame m2 ?_
    | with_reducible refine Frame.ite ?_ ?_
    | split

theorem execPipeFrameStart_frame {κ : Nat} {σ : State} {d : Pipe} {s : State} (hk : Nat.testBit 1051290 κ = false) (hF : Frame κ σ s) :
    FrameO κ σ (execPipeFrameStart d s) := by
  have m1051290 := hk
  unfold execPipeFrameStart
  try dsimp only
  repeat' first
    | with_reducible exact hF
    | with_reducible assumption
    | with_reducible refine frameStart_frame m1051290 ?_
    | with_reducible refine FrameO.next ?_

theorem execPipeLineStart_frame {κ : Nat} {σ : State} {d : Pipe} {s : State} (hk : Nat.testBit 1051290 κ = false) (hF : Frame κ σ s) :
    FrameO κ σ (execPipeLineStart d s) := by
  have m1051290 := hk
  have m1048576 : Nat.testBit 1048576 κ = false := testBit_sub rfl hk
  have m1048730 : Nat.testBit 1048730 κ = false := testBit_sub rfl hk
  unfold execPipeLineStart
  try dsimp only
  repeat' first
    | with_reducible exact hF
    | with_reducible assumption
    | with_reducible refine frameStart_frame m1051290 ?_
    | with_reducible refine State_setPipe_frame m1048576 ?_
    | with_reducible refine lineStart_frame m1048730 ?_
    | with_reducible refine FrameO.next ?_
    | with_reducible refine FrameO.ite ?_ ?_
    | with_reducible refine Frame.ite ?_ ?_
    | split

theorem sourceEdge_frame {κ : Nat} {σ : State} {k : Nat} {s : State} (hk : Nat.testBit 2690 κ = false) (hF : Frame κ σ s) :
    Frame κ σ (sourceEdge k s) := by
  have m2690 := hk
  have m2048 : Nat.testBit 2048 κ = false := testBit_sub rfl hk
  unfold sourceEdge
  try dsimp only
  repeat' first
    | with_reducible exact hF
    | with_reducible assumption
    | with_reducible refine sourceFrame_frame m2690 ?_
    | with_reducible refine Frame.ite ?_ ?_
    | split
    | (apply Frame.lit m2048 rfl; case e => constructor <;> (try dsimp only) <;> first | exact .inl rfl | exact .inr rfl)

theorem execTeEdge_frame {κ : Nat} {σ : State} {pin : Fin 4} {s : State} (hk : Nat.testBit 1051266 κ = false) (hF : Frame κ σ s) :
    FrameO κ σ (execTeEdge pin s) := by
  have m2690 : Nat.testBit 2690 κ = false := testBit_sub rfl hk
  have m1048576 : Nat.testBit 1048576 κ = false := testBit_sub rfl hk
  unfold execTeEdge
  try dsimp only
  repeat' first
    | with_reducible exact hF
    | with_reducible assumption
    | with_reducible refine State_setPipe_frame m1048576 ?_
    | with_reducible refine sourceEdge_frame m2690 ?_
    | with_reducible refine forAll_frame (fun _ _ _ => ?_) ?_
    | with_reducible refine FrameO.next ?_
    | with_reducible refine FrameO.ite ?_ ?_
    | with_reducible refine Frame.ite ?_ ?_
    | split

theorem execTeMiss_frame {κ : Nat} {σ : State} {d : Pipe} {s : State} (hk : Nat.testBit 1051290 κ = false) (hF : Frame κ σ s) :
    FrameO κ σ (execTeMiss d s) := by
  have m1051290 := hk
  have m2 : Nat.testBit 2 κ = false := testBit_sub rfl hk
  have m130 : Nat.testBit 130 κ = false := testBit_sub rfl hk
  unfold execTeMiss
  try dsimp only
  repeat' first
    | with_reducible exact hF
    | with_reducible assumption
    | with_reducible refine frameStart_frame m1051290 ?_
    | with_reducible refine raise_frame m130 ?_
    | with_reducible refine State_inc_frame m2 ?_
    | with_reducible refine FrameO.next ?_
    | with_reducible refine FrameO.ite ?_ ?_
    | with_reducible refine Frame.ite ?_ ?_
    | split

theorem steerGenlock_frame {κ : Nat} {σ : State} {d : Nat} {s : State} (hk : Nat.testBit 1048584 κ = false) (hF : Frame κ σ s) :
    Frame κ σ (steerGenlock d s) := by
  have m8 : Nat.testBit 8 κ = false := testBit_sub rfl hk
  have m1048576 : Nat.testBit 1048576 κ = false := testBit_sub rfl hk
  unfold steerGenlock
  try dsimp only
  repeat' first
    | with_reducible exact hF
    | with_reducible assumption
    | with_reducible refine State_free_frame m8 ?_
    | with_reducible refine State_setPipe_frame m1048576 ?_
    | with_reducible refine Frame.ite ?_ ?_
    | split
    | with_reducible refine Frame.snd (by assumption) ?_
    | with_reducible refine Frame.snd2 (by assumption) ?_
    | (dsimp only)

theorem execGenlockEdge_frame {κ : Nat} {σ : State} {s : State} (hk : Nat.testBit 1051274 κ = false) (hF : Frame κ σ s) :
    FrameO κ σ (execGenlockEdge s) := by
  have m2690 : Nat.testBit 2690 κ = false := testBit_sub rfl hk
  have m1048584 : Nat.testBit 1048584 κ = false := testBit_sub rfl hk
  unfold execGenlockEdge
  try dsimp only
  repeat' first
    | with_reducible exact hF
    | with_reducible assumption
    | with_reducible refine steerGenlock_frame m1048584 ?_
    | with_reducible refine sourceEdge_frame m2690 ?_
    | with_reducible refine forAll_frame (fun _ _ _ => ?_) ?_
    | with_reducible refine FrameO.next ?_
    | with_reducible refine FrameO.ite ?_ ?_
    | with_reducible refine Frame.ite ?_ ?_
    | split

theorem wrLayerCtl_frame {κ : Nat} {σ : State} {a : Nat} {v : Nat} {pitch : Fld} {others : List Fld} {s : State} (hk : Nat.testBit 130 κ = false) (hF : Frame κ σ s) :
    Frame κ σ (wrLayerCtl a v pitch others s) := by
  have m130 := hk
  unfold wrLayerCtl
  try dsimp only
  repeat' first
    | with_reducible exact hF
    | with_reducible assumption
    | with_reducible refine wrWord_frame m130 ?_
    | with_reducible refine wrField_frame m130 ?_
    | with_reducible refine cfgErr_frame m130 ?_
    | with_reducible refine Frame.ite ?_ ?_
    | split

theorem wrFsbase_frame {κ : Nat} {σ : State} {d : Nat} {v : Nat} {s : State} (hk : Nat.testBit 130 κ = false) (hF : Frame κ σ s) :
    Frame κ σ (wrFsbase d v s) := by
  have m130 := hk
  unfold wrFsbase
  try dsimp only
  repeat' first
    | with_reducible exact hF
    | with_reducible assumption
    | with_reducible refine raise_frame m130 ?_
    | with_reducible refine wrField_frame m130 ?_
    | with_reducible refine Frame.ite ?_ ?_
    | split

theorem copyNotices_frame {κ : Nat} {σ : State} {s : State} (hk : Nat.testBit 64 κ = false) (hF : Frame κ σ s) :
    Frame κ σ (copyNotices s) := by
  have m64 := hk
  unfold copyNotices
  try dsimp only
  repeat' first
    | with_reducible exact hF
    | with_reducible assumption
    | with_reducible refine forAll_frame (fun _ _ _ => ?_) ?_
    | with_reducible refine Frame.ite ?_ ?_
    | split
    | with_reducible refine dram_frame m64 ?_

theorem showReduced_frame {κ : Nat} {σ : State} {d : Nat} {s : State} (hk : Nat.testBit 1048576 κ = false) (hF : Frame κ σ s) :
    Frame κ σ (showReduced d s) := by
  have m1048576 := hk
  unfold showReduced
  try dsimp only
  repeat' first
    | with_reducible exact hF
    | with_reducible assumption
    | with_reducible refine State_setPipe_frame m1048576 ?_

theorem armAttrs_frame {κ : Nat} {σ : State} {s : State} (hk : Nat.testBit 1048576 κ = false) (hF : Frame κ σ s) :
    Frame κ σ (armAttrs s) := by
  have m1048576 := hk
  unfold armAttrs
  try dsimp only
  repeat' first
    | with_reducible exact hF
    | with_reducible assumption
    | with_reducible refine State_setPipe_frame m1048576 ?_
    | with_reducible refine forAll_frame (fun _ _ _ => ?_) ?_
    | with_reducible refine Frame.ite ?_ ?_
    | split

end Sys2Proof.Laws
end

