-- ==== Sys2Proof/Laws/FrameSwitch.lean ====
section
/-! SUPPORT. What each operation of Machine/Switch.lean leaves alone. -/

namespace Sys2Proof.Laws

open Sys2Proof Sys2Proof.Machine

set_option linter.unusedTactic false
set_option linter.unreachableTactic false
set_option linter.unusedVariables false

theorem adoptOwn_frame {κ : Nat} {σ : State} {s : State} (hk : Nat.testBit 32768 κ = false) (hF : Frame κ σ s) :
    Frame κ σ (adoptOwn s) := by
  have m32768 := hk
  unfold adoptOwn
  try dsimp only
  repeat' first
    | with_reducible exact hF
    | with_reducible assumption
    | with_reducible refine State_setAdp_frame m32768 ?_
    | with_reducible refine forAll_frame (fun _ _ _ => ?_) ?_

theorem cfgRead_frame {κ : Nat} {σ : State} {s : State} {c : Nat} {dev : Nat} {dw : Nat} (hk : Nat.testBit 8 κ = false) (hF : Frame κ σ s) :
    Frame κ σ (cfgRead s c dev dw).2 := by
  have m8 := hk
  unfold cfgRead
  try dsimp only
  repeat' first
    | with_reducible exact hF
    | with_reducible assumption
    | with_reducible refine State_free_frame m8 ?_
    | with_reducible refine Frame.ite ?_ ?_
    | split
    | with_reducible refine Frame.snd (by assumption) ?_
    | with_reducible refine Frame.snd2 (by assumption) ?_
    | (dsimp only)

theorem hubRequest_frame {κ : Nat} {σ : State} {c : Nat} {data : Bytes} {s : State} (hk : Nat.testBit 32784 κ = false) (hF : Frame κ σ s) :
    Frame κ σ (hubRequest c data s) := by
  have m16 : Nat.testBit 16 κ = false := testBit_sub rfl hk
  have m32768 : Nat.testBit 32768 κ = false := testBit_sub rfl hk
  unfold hubRequest
  try dsimp only
  repeat' first
    | with_reducible exact hF
    | with_reducible assumption
    | with_reducible refine State_setAdp_frame m32768 ?_
    | with_reducible refine State_emit_frame m16 ?_
    | with_reducible refine Frame.ite ?_ ?_
    | split

end Sys2Proof.Laws
end

