-- ==== Sys2Proof/Laws/FrameMst.lean ====
section
/-! SUPPORT. What each operation of Machine/Mst.lean leaves alone. -/

namespace Sys2Proof.Laws

open Sys2Proof Sys2Proof.Machine

set_option linter.unusedTactic false
set_option linter.unreachableTactic false
set_option linter.unusedVariables false

theorem mstReply_frame {κ : Nat} {σ : State} {k : Nat} {body : Bytes} {s : State} (hk : Nat.testBit 1049602 κ = false) (hF : Frame κ σ s) :
    Frame κ σ (mstReply k body s) := by
  have m1026 : Nat.testBit 1026 κ = false := testBit_sub rfl hk
  have m1048576 : Nat.testBit 1048576 κ = false := testBit_sub rfl hk
  unfold mstReply
  try dsimp only
  repeat' first
    | with_reducible exact hF
    | with_reducible assumption
    | with_reducible refine pipeUpstream_frame m1026 ?_
    | with_reducible refine State_setPipe_frame m1048576 ?_

theorem mstNak_frame {κ : Nat} {σ : State} {k : Nat} {id : Nat} {reason : Nat} {s : State} (hk : Nat.testBit 1049610 κ = false) (hF : Frame κ σ s) :
    Frame κ σ (mstNak k id reason s) := by
  have m8 : Nat.testBit 8 κ = false := testBit_sub rfl hk
  have m1049602 : Nat.testBit 1049602 κ = false := testBit_sub rfl hk
  unfold mstNak
  try dsimp only
  repeat' first
    | with_reducible exact hF
    | with_reducible assumption
    | with_reducible refine State_free_frame m8 ?_
    | with_reducible refine mstReply_frame m1049602 ?_
    | split
    | with_reducible refine Frame.snd (by assumption) ?_
    | with_reducible refine Frame.snd2 (by assumption) ?_
    | (dsimp only)

theorem mstRelay_frame {κ : Nat} {σ : State} {k : Nat} {id : Nat} {d : Nat} {data : Bytes} {address : Option Nat} {s : State} (hk : Nat.testBit 1049626 κ = false) (hF : Frame κ σ s) :
    Frame κ σ (mstRelay k id d data address s) := by
  have m16 : Nat.testBit 16 κ = false := testBit_sub rfl hk
  have m1048576 : Nat.testBit 1048576 κ = false := testBit_sub rfl hk
  have m1049610 : Nat.testBit 1049610 κ = false := testBit_sub rfl hk
  unfold mstRelay
  try dsimp only
  repeat' first
    | with_reducible exact hF
    | with_reducible assumption
    | with_reducible refine mstNak_frame m1049610 ?_
    | with_reducible refine State_setPipe_frame m1048576 ?_
    | with_reducible refine State_emit_frame m16 ?_
    | with_reducible refine Frame.ite ?_ ?_
    | split

theorem mstRequest_frame {κ : Nat} {σ : State} {k : Nat} {body : Bytes} {s : State} (hk : Nat.testBit 1049626 κ = false) (hF : Frame κ σ s) :
    Frame κ σ (mstRequest k body s) := by
  have m1049626 := hk
  have m8 : Nat.testBit 8 κ = false := testBit_sub rfl hk
  have m1048576 : Nat.testBit 1048576 κ = false := testBit_sub rfl hk
  have m1049602 : Nat.testBit 1049602 κ = false := testBit_sub rfl hk
  have m1049610 : Nat.testBit 1049610 κ = false := testBit_sub rfl hk
  unfold mstRequest
  try dsimp only
  repeat' first
    | with_reducible exact hF
    | with_reducible assumption
    | with_reducible refine State_setPipe_frame m1048576 ?_
    | with_reducible refine State_free_frame m8 ?_
    | with_reducible refine mstReply_frame m1049602 ?_
    | with_reducible refine mstNak_frame m1049610 ?_
    | with_reducible refine mstRelay_frame m1049626 ?_
    | with_reducible refine Frame.ite ?_ ?_
    | split
    | with_reducible refine Frame.snd (by assumption) ?_
    | with_reducible refine Frame.snd2 (by assumption) ?_
    | (dsimp only)

theorem mstAnswer_frame {κ : Nat} {σ : State} {k : Nat} {id : Nat} {d : Nat} {data : Bytes} {s : State} (hk : Nat.testBit 1049610 κ = false) (hF : Frame κ σ s) :
    Frame κ σ (mstAnswer k id d data s) := by
  have m1049610 := hk
  have m1049602 : Nat.testBit 1049602 κ = false := testBit_sub rfl hk
  unfold mstAnswer
  try dsimp only
  repeat' first
    | with_reducible exact hF
    | with_reducible assumption
    | with_reducible refine mstNak_frame m1049610 ?_
    | with_reducible refine mstReply_frame m1049602 ?_
    | with_reducible refine Frame.ite ?_ ?_
    | split

theorem mstAck_frame {κ : Nat} {σ : State} {k : Nat} {b : Branch} {s : State} (hk : Nat.testBit 1049602 κ = false) (hF : Frame κ σ s) :
    Frame κ σ (mstAck k b s) := by
  have m1026 : Nat.testBit 1026 κ = false := testBit_sub rfl hk
  have m1048576 : Nat.testBit 1048576 κ = false := testBit_sub rfl hk
  unfold mstAck
  try dsimp only
  repeat' first
    | with_reducible exact hF
    | with_reducible assumption
    | with_reducible refine pipeUpstream_frame m1026 ?_
    | with_reducible refine State_setPipe_frame m1048576 ?_

theorem mstPut_frame {κ : Nat} {σ : State} {k : Nat} {off : Nat} {data : Bytes} {s : State} (hk : Nat.testBit 1049626 κ = false) (hF : Frame κ σ s) :
    Frame κ σ (mstPut k off data s) := by
  have m1049626 := hk
  have m1049602 : Nat.testBit 1049602 κ = false := testBit_sub rfl hk
  unfold mstPut
  try dsimp only
  repeat' first
    | with_reducible exact hF
    | with_reducible assumption
    | with_reducible refine mstAck_frame m1049602 ?_
    | with_reducible refine mstRequest_frame m1049626 ?_
    | split

theorem mstWrite_frame {κ : Nat} {σ : State} {k : Nat} {a : Nat} {data : Bytes} {s : State} (hk : Nat.testBit 1049626 κ = false) (hF : Frame κ σ s) :
    Frame κ σ (mstWrite k a data s) := by
  have m1049626 := hk
  have m1049602 : Nat.testBit 1049602 κ = false := testBit_sub rfl hk
  unfold mstWrite
  try dsimp only
  repeat' first
    | with_reducible exact hF
    | with_reducible assumption
    | with_reducible refine mstPut_frame m1049626 ?_
    | with_reducible refine mstAck_frame m1049602 ?_
    | with_reducible refine Frame.ite ?_ ?_
    | split

theorem mstRead_frame {κ : Nat} {σ : State} {k : Nat} {a : Nat} {n : Nat} {s : State} (hk : Nat.testBit 1026 κ = false) (hF : Frame κ σ s) :
    Frame κ σ (mstRead k a n s) := by
  have m1026 := hk
  unfold mstRead
  try dsimp only
  repeat' first
    | with_reducible exact hF
    | with_reducible assumption
    | with_reducible refine pipeUpstream_frame m1026 ?_
    | with_reducible refine Frame.ite ?_ ?_
    | split

end Sys2Proof.Laws
end

