-- ==== Sys2Proof/Laws/FrameAdapter.lean ====
section
/-! SUPPORT. What each operation of Machine/Adapter.lean leaves alone. -/

namespace Sys2Proof.Laws

open Sys2Proof Sys2Proof.Machine

set_option linter.unusedTactic false
set_option linter.unreachableTactic false
set_option linter.unusedVariables false

theorem applyPol_frame {κ : Nat} {σ : State} {p : Nat} {s : State} (hk : Nat.testBit 2 κ = false) (hF : Frame κ σ s) :
    Frame κ σ (applyPol p s) := by
  have m2 := hk
  unfold applyPol
  try dsimp only
  repeat' first
    | with_reducible exact hF
    | with_reducible assumption
    | with_reducible refine wrs_frame m2 ?_
    | with_reducible refine forAll_frame (fun _ _ _ => ?_) ?_
    | with_reducible refine Frame.ite ?_ ?_
    | split

theorem persDirs_frame {κ : Nat} {σ : State} {p : Nat} {q : Partner} {s : State} (hk : Nat.testBit 2 κ = false) (hF : Frame κ σ s) :
    Frame κ σ (persDirs p q s) := by
  have m2 := hk
  unfold persDirs
  try dsimp only
  repeat' first
    | with_reducible exact hF
    | with_reducible assumption
    | with_reducible refine setDirs_frame m2 ?_
    | with_reducible refine State_wr_frame m2 ?_
    | with_reducible refine forAll_frame (fun _ _ _ => ?_) ?_
    | with_reducible refine Frame.ite ?_ ?_
    | split

theorem setPartner_frame {κ : Nat} {σ : State} {p : Nat} {q : Partner} {s : State} (hk : Nat.testBit 512 κ = false) (hF : Frame κ σ s) :
    Frame κ σ (setPartner p q s) := by
  have m512 := hk
  unfold setPartner
  try dsimp only
  repeat' first
    | with_reducible exact hF
    | with_reducible assumption
    | (apply Frame.lit m512 rfl; case e => constructor <;> (try dsimp only) <;> first | exact .inl rfl | exact .inr rfl)

theorem adapterUp_frame {κ : Nat} {σ : State} {p : Nat} {q : Partner} {s : State} (hk : Nat.testBit 135270034 κ = false) (hF : Frame κ σ s) :
    Frame κ σ (adapterUp p q s) := by
  have m135270034 := hk
  have m2 : Nat.testBit 2 κ = false := testBit_sub rfl hk
  have m130 : Nat.testBit 130 κ = false := testBit_sub rfl hk
  have m512 : Nat.testBit 512 κ = false := testBit_sub rfl hk
  unfold adapterUp
  try dsimp only
  repeat' first
    | with_reducible exact hF
    | with_reducible assumption
    | with_reducible refine attachPartner_frame m135270034 ?_
    | with_reducible refine setPartner_frame m512 ?_
    | with_reducible refine raise_frame m130 ?_
    | with_reducible refine applyPol_frame m2 ?_
    | with_reducible refine persDirs_frame m2 ?_
    | with_reducible refine wrs_frame m2 ?_
    | with_reducible refine forAll_frame (fun _ _ _ => ?_) ?_
    | with_reducible refine Frame.ite ?_ ?_
    | split

theorem ejectPress_frame {κ : Nat} {σ : State} {p : Nat} {s : State} (hk : Nat.testBit 32914 κ = false) (hF : Frame κ σ s) :
    Frame κ σ (ejectPress p s) := by
  have m16 : Nat.testBit 16 κ = false := testBit_sub rfl hk
  have m130 : Nat.testBit 130 κ = false := testBit_sub rfl hk
  have m32768 : Nat.testBit 32768 κ = false := testBit_sub rfl hk
  unfold ejectPress
  try dsimp only
  repeat' first
    | with_reducible exact hF
    | with_reducible assumption
    | with_reducible refine State_setAdp_frame m32768 ?_
    | with_reducible refine raise_frame m130 ?_
    | with_reducible refine State_emit_frame m16 ?_
    | with_reducible refine Frame.ite ?_ ?_
    | split

theorem execEjectPress_frame {κ : Nat} {σ : State} {port : Port} {s : State} (hk : Nat.testBit 32914 κ = false) (hF : Frame κ σ s) :
    FrameO κ σ (execEjectPress port s) := by
  have m32914 := hk
  unfold execEjectPress
  try dsimp only
  repeat' first
    | with_reducible exact hF
    | with_reducible assumption
    | with_reducible refine ejectPress_frame m32914 ?_
    | with_reducible refine FrameO.next ?_
    | with_reducible refine FrameO.ite ?_ ?_
    | with_reducible refine Frame.ite ?_ ?_
    | split

theorem wrAdpPcie_frame {κ : Nat} {σ : State} {p : Nat} {v : Nat} {s : State} (hk : Nat.testBit 32914 κ = false) (hF : Frame κ σ s) :
    Frame κ σ (wrAdpPcie p v s) := by
  have m32914 := hk
  unfold wrAdpPcie
  try dsimp only
  repeat' first
    | with_reducible exact hF
    | with_reducible assumption
    | with_reducible refine ejectPress_frame m32914 ?_
    | with_reducible refine Frame.ite ?_ ?_
    | split

theorem slotPowerOff_frame {κ : Nat} {σ : State} {p : Nat} {s : State} (hk : Nat.testBit 32770 κ = false) (hF : Frame κ σ s) :
    Frame κ σ (slotPowerOff p s) := by
  have m2 : Nat.testBit 2 κ = false := testBit_sub rfl hk
  have m32768 : Nat.testBit 32768 κ = false := testBit_sub rfl hk
  unfold slotPowerOff
  try dsimp only
  repeat' first
    | with_reducible exact hF
    | with_reducible assumption
    | with_reducible refine State_setAdp_frame m32768 ?_
    | with_reducible refine State_wr_frame m2 ?_
    | with_reducible refine Frame.ite ?_ ?_
    | split

theorem execPowerControllerOff_frame {κ : Nat} {σ : State} {port : Port} {s : State} (hk : Nat.testBit 32770 κ = false) (hF : Frame κ σ s) :
    FrameO κ σ (execPowerControllerOff port s) := by
  have m32770 := hk
  unfold execPowerControllerOff
  try dsimp only
  repeat' first
    | with_reducible exact hF
    | with_reducible assumption
    | with_reducible refine slotPowerOff_frame m32770 ?_
    | with_reducible refine FrameO.next ?_

theorem execEjectLinkDisable_frame {κ : Nat} {σ : State} {port : Port} {s : State} (hk : Nat.testBit 135327378 κ = false) (hF : Frame κ σ s) :
    FrameO κ σ (execEjectLinkDisable port s) := by
  have m2 : Nat.testBit 2 κ = false := testBit_sub rfl hk
  have m130 : Nat.testBit 130 κ = false := testBit_sub rfl hk
  have m32768 : Nat.testBit 32768 κ = false := testBit_sub rfl hk
  have m59010 : Nat.testBit 59010 κ = false := testBit_sub rfl hk
  have m135270034 : Nat.testBit 135270034 κ = false := testBit_sub rfl hk
  unfold execEjectLinkDisable
  try dsimp only
  repeat' first
    | with_reducible exact hF
    | with_reducible assumption
    | with_reducible refine attachEvent_frame m135270034 ?_
    | with_reducible refine portDown_frame m59010 ?_
    | with_reducible refine State_setAdp_frame m32768 ?_
    | with_reducible refine raise_frame m130 ?_
    | with_reducible refine State_wr_frame m2 ?_
    | with_reducible refine FrameO.next ?_
    | with_reducible refine FrameO.ite ?_ ?_
    | with_reducible refine Frame.ite ?_ ?_
    | split

theorem slotPowerOn_frame {κ : Nat} {σ : State} {p : Nat} {s : State} (hk : Nat.testBit 57346 κ = false) (hF : Frame κ σ s) :
    Frame κ σ (slotPowerOn p s) := by
  have m2 : Nat.testBit 2 κ = false := testBit_sub rfl hk
  have m24578 : Nat.testBit 24578 κ = false := testBit_sub rfl hk
  have m32768 : Nat.testBit 32768 κ = false := testBit_sub rfl hk
  unfold slotPowerOn
  try dsimp only
  repeat' first
    | with_reducible exact hF
    | with_reducible assumption
    | with_reducible refine State_setAdp_frame m32768 ?_
    | with_reducible refine State_wr_frame m2 ?_
    | with_reducible refine startTraining_frame m24578 ?_
    | with_reducible refine Frame.ite ?_ ?_
    | split

theorem execPowerControllerOn_frame {κ : Nat} {σ : State} {port : Port} {s : State} (hk : Nat.testBit 57346 κ = false) (hF : Frame κ σ s) :
    FrameO κ σ (execPowerControllerOn port s) := by
  have m57346 := hk
  unfold execPowerControllerOn
  try dsimp only
  repeat' first
    | with_reducible exact hF
    | with_reducible assumption
    | with_reducible refine slotPowerOn_frame m57346 ?_
    | with_reducible refine FrameO.next ?_

theorem rxBad_frame {κ : Nat} {σ : State} {p : Nat} {s : State} (hk : Nat.testBit 2 κ = false) (hF : Frame κ σ s) :
    Frame κ σ (rxBad p s) := by
  have m2 := hk
  unfold rxBad
  try dsimp only
  repeat' first
    | with_reducible exact hF
    | with_reducible assumption
    | with_reducible refine State_inc_frame m2 ?_

theorem noTunnel_frame {κ : Nat} {σ : State} {p : Nat} {s : State} (hk : Nat.testBit 2 κ = false) (hF : Frame κ σ s) :
    Frame κ σ (noTunnel p s) := by
  have m2 := hk
  unfold noTunnel
  try dsimp only
  repeat' first
    | with_reducible exact hF
    | with_reducible assumption
    | with_reducible refine State_inc_frame m2 ?_

theorem noteChange_frame {κ : Nat} {σ : State} {n : Nat} {s : State} (hk : Nat.testBit 2048 κ = false) (hF : Frame κ σ s) :
    Frame κ σ (noteChange n s) := by
  have m2048 := hk
  unfold noteChange
  try dsimp only
  repeat' first
    | with_reducible exact hF
    | with_reducible assumption
    | (apply Frame.lit m2048 rfl; case e => constructor <;> (try dsimp only) <;> first | exact .inl rfl | exact .inr rfl)

theorem ingressHeader_frame {κ : Nat} {σ : State} {p : Nat} {tb : Nat} {capture : Option Nat} {s : State} (hk : Nat.testBit 279682 κ = false) (hF : Frame κ σ s) :
    Frame κ σ (ingressHeader p tb capture s).2 := by
  have m130 : Nat.testBit 130 κ = false := testBit_sub rfl hk
  have m279552 : Nat.testBit 279552 κ = false := testBit_sub rfl hk
  unfold ingressHeader
  try dsimp only
  repeat' first
    | with_reducible exact hF
    | with_reducible assumption
    | with_reducible refine capture_frame m279552 ?_
    | with_reducible refine raise_frame m130 ?_
    | split
    | with_reducible refine Frame.snd (by assumption) ?_
    | with_reducible refine Frame.snd2 (by assumption) ?_
    | (dsimp only)

theorem deliver_frame {κ : Nat} {σ : State} {p : Nat} {line : Nat} {x : LateUnit} {s : State} (hk : Nat.testBit 279682 κ = false) (hF : Frame κ σ s) :
    Frame κ σ (deliver p line x s) := by
  have m279682 := hk
  have m1026 : Nat.testBit 1026 κ = false := testBit_sub rfl hk
  have m279552 : Nat.testBit 279552 κ = false := testBit_sub rfl hk
  unfold deliver
  try dsimp only
  repeat' first
    | with_reducible exact hF
    | with_reducible assumption
    | with_reducible refine ingressUnit_frame m1026 ?_
    | with_reducible refine capture_frame m279552 ?_
    | with_reducible refine ingressHeader_frame m279682 ?_
    | split
    | with_reducible refine Frame.snd (by assumption) ?_
    | with_reducible refine Frame.snd2 (by assumption) ?_
    | (dsimp only)

theorem takeIn_frame {κ : Nat} {σ : State} {p : Nat} {line : Nat} {x : LateUnit} {s : State} (hk : Nat.testBit 312466 κ = false) (hF : Frame κ σ s) :
    Frame κ σ (takeIn p line x s) := by
  have m1040 : Nat.testBit 1040 κ = false := testBit_sub rfl hk
  have m16514 : Nat.testBit 16514 κ = false := testBit_sub rfl hk
  have m32768 : Nat.testBit 32768 κ = false := testBit_sub rfl hk
  have m279682 : Nat.testBit 279682 κ = false := testBit_sub rfl hk
  unfold takeIn
  try dsimp only
  repeat' first
    | with_reducible exact hF
    | with_reducible assumption
    | with_reducible refine updatePause_frame m1040 ?_
    | with_reducible refine holdUnit_frame m16514 ?_
    | with_reducible refine State_setAdp_frame m32768 ?_
    | with_reducible refine deliver_frame m279682 ?_
    | with_reducible refine Frame.ite ?_ ?_
    | split

theorem admitUnit_frame {κ : Nat} {σ : State} {p : Nat} {n : Nat} {pre : Nat} {line : Nat} {data : Bytes} {s : State} (hk : Nat.testBit 312466 κ = false) (hF : Frame κ σ s) :
    Frame κ σ (admitUnit p n pre line data s) := by
  have m312466 := hk
  unfold admitUnit
  try dsimp only
  repeat' first
    | with_reducible exact hF
    | with_reducible assumption
    | with_reducible refine takeIn_frame m312466 ?_

theorem deliverLate_frame {κ : Nat} {σ : State} {p : Nat} {s : State} (hk : Nat.testBit 312450 κ = false) (hF : Frame κ σ s) :
    Frame κ σ (deliverLate p s) := by
  have m32768 : Nat.testBit 32768 κ = false := testBit_sub rfl hk
  have m279682 : Nat.testBit 279682 κ = false := testBit_sub rfl hk
  unfold deliverLate
  try dsimp only
  repeat' first
    | with_reducible exact hF
    | with_reducible assumption
    | with_reducible refine deliver_frame m279682 ?_
    | with_reducible refine State_setAdp_frame m32768 ?_
    | with_reducible refine forAll_frame (fun _ _ _ => ?_) ?_

theorem turnAway_frame {κ : Nat} {σ : State} {p : Nat} {t : Bytes} {s : State} (hk : Nat.testBit 16 κ = false) (hF : Frame κ σ s) :
    Frame κ σ (turnAway p t s) := by
  have m16 := hk
  unfold turnAway
  try dsimp only
  repeat' first
    | with_reducible exact hF
    | with_reducible assumption
    | with_reducible refine State_emit_frame m16 ?_
    | with_reducible refine Frame.ite ?_ ?_
    | split

theorem slotControl_frame {κ : Nat} {σ : State} {q : Nat} {v : Nat} {s : State} (hk : Nat.testBit 57362 κ = false) (hF : Frame κ σ s) :
    Frame κ σ (slotControl q v s) := by
  have m2 : Nat.testBit 2 κ = false := testBit_sub rfl hk
  have m16 : Nat.testBit 16 κ = false := testBit_sub rfl hk
  have m32768 : Nat.testBit 32768 κ = false := testBit_sub rfl hk
  have m32770 : Nat.testBit 32770 κ = false := testBit_sub rfl hk
  have m57346 : Nat.testBit 57346 κ = false := testBit_sub rfl hk
  unfold slotControl
  try dsimp only
  repeat' first
    | with_reducible exact hF
    | with_reducible assumption
    | with_reducible refine State_wr_frame m2 ?_
    | with_reducible refine State_emit_frame m16 ?_
    | with_reducible refine State_setAdp_frame m32768 ?_
    | with_reducible refine slotPowerOff_frame m32770 ?_
    | with_reducible refine slotPowerOn_frame m57346 ?_
    | with_reducible refine Frame.ite ?_ ?_
    | split

theorem switchAccess_frame {κ : Nat} {σ : State} {c : Nat} {dev : Nat} {t : Bytes} {s : State} (hk : Nat.testBit 57370 κ = false) (hF : Frame κ σ s) :
    Frame κ σ (switchAccess c dev t s) := by
  have m8 : Nat.testBit 8 κ = false := testBit_sub rfl hk
  have m16 : Nat.testBit 16 κ = false := testBit_sub rfl hk
  have m32768 : Nat.testBit 32768 κ = false := testBit_sub rfl hk
  have m57362 : Nat.testBit 57362 κ = false := testBit_sub rfl hk
  unfold switchAccess
  try dsimp only
  repeat' first
    | with_reducible exact hF
    | with_reducible assumption
    | with_reducible refine State_emit_frame m16 ?_
    | with_reducible refine turnAway_frame m16 ?_
    | with_reducible refine cfgRead_frame m8 ?_
    | with_reducible refine slotControl_frame m57362 ?_
    | with_reducible refine State_setAdp_frame m32768 ?_
    | with_reducible refine Frame.ite ?_ ?_
    | split
    | with_reducible refine Frame.snd (by assumption) ?_
    | with_reducible refine Frame.snd2 (by assumption) ?_
    | (dsimp only)

theorem switchForward_frame {κ : Nat} {σ : State} {c : Nat} {tun : Nat} {q : Nat} {asType0 : Bool} {data : Bytes} {t : Bytes} {s : State} (hk : Nat.testBit 312466 κ = false) (hF : Frame κ σ s) :
    Frame κ σ (switchForward c tun q asType0 data t s) := by
  have m312466 := hk
  have m16 : Nat.testBit 16 κ = false := testBit_sub rfl hk
  have m32768 : Nat.testBit 32768 κ = false := testBit_sub rfl hk
  unfold switchForward
  try dsimp only
  repeat' first
    | with_reducible exact hF
    | with_reducible assumption
    | with_reducible refine turnAway_frame m16 ?_
    | with_reducible refine admitUnit_frame m312466 ?_
    | with_reducible refine State_setAdp_frame m32768 ?_
    | with_reducible refine Frame.ite ?_ ?_
    | split

theorem switchTlp_frame {κ : Nat} {σ : State} {c : Nat} {tun : Nat} {data : Bytes} {s : State} (hk : Nat.testBit 320666 κ = false) (hF : Frame κ σ s) :
    Frame κ σ (switchTlp c tun data s) := by
  have m16 : Nat.testBit 16 κ = false := testBit_sub rfl hk
  have m57370 : Nat.testBit 57370 κ = false := testBit_sub rfl hk
  have m312466 : Nat.testBit 312466 κ = false := testBit_sub rfl hk
  unfold switchTlp
  try dsimp only
  repeat' first
    | with_reducible exact hF
    | with_reducible assumption
    | with_reducible refine turnAway_frame m16 ?_
    | with_reducible refine switchAccess_frame m57370 ?_
    | with_reducible refine switchForward_frame m312466 ?_
    | with_reducible refine forAll_frame (fun _ _ _ => ?_) ?_
    | with_reducible refine Frame.ite ?_ ?_
    | split

theorem execTlp_frame {κ : Nat} {σ : State} {port : Port} {tun : Tun} {ok : Bool} {prefixes : Bytes} {head : Bytes} {data : Bytes} {s : State} (hk : Nat.testBit 320666 κ = false) (hF : Frame κ σ s) :
    FrameO κ σ (execTlp port tun ok prefixes head data s) := by
  have m320666 := hk
  have m2 : Nat.testBit 2 κ = false := testBit_sub rfl hk
  have m32768 : Nat.testBit 32768 κ = false := testBit_sub rfl hk
  have m312466 : Nat.testBit 312466 κ = false := testBit_sub rfl hk
  unfold execTlp
  try dsimp only
  repeat' first
    | with_reducible exact hF
    | with_reducible assumption
    | with_reducible refine rxBad_frame m2 ?_
    | with_reducible refine switchTlp_frame m320666 ?_
    | with_reducible refine State_setAdp_frame m32768 ?_
    | with_reducible refine admitUnit_frame m312466 ?_
    | with_reducible refine FrameO.next ?_
    | with_reducible refine FrameO.ite ?_ ?_
    | with_reducible refine Frame.ite ?_ ?_
    | split

theorem surpriseRemoval_frame {κ : Nat} {σ : State} {p : Nat} {s : State} (hk : Nat.testBit 135327378 κ = false) (hF : Frame κ σ s) :
    Frame κ σ (surpriseRemoval p s) := by
  have m2 : Nat.testBit 2 κ = false := testBit_sub rfl hk
  have m130 : Nat.testBit 130 κ = false := testBit_sub rfl hk
  have m1026 : Nat.testBit 1026 κ = false := testBit_sub rfl hk
  have m32768 : Nat.testBit 32768 κ = false := testBit_sub rfl hk
  have m59010 : Nat.testBit 59010 κ = false := testBit_sub rfl hk
  have m135270034 : Nat.testBit 135270034 κ = false := testBit_sub rfl hk
  unfold surpriseRemoval
  try dsimp only
  repeat' first
    | with_reducible exact hF
    | with_reducible assumption
    | with_reducible refine ingressUnit_frame m1026 ?_
    | with_reducible refine State_inc_frame m2 ?_
    | with_reducible refine raise_frame m130 ?_
    | with_reducible refine State_setAdp_frame m32768 ?_
    | with_reducible refine attachEvent_frame m135270034 ?_
    | with_reducible refine portDown_frame m59010 ?_
    | with_reducible refine forAll_frame (fun _ _ _ => ?_) ?_

theorem execSurpriseRemoval_frame {κ : Nat} {σ : State} {port : Port} {s : State} (hk : Nat.testBit 135327378 κ = false) (hF : Frame κ σ s) :
    FrameO κ σ (execSurpriseRemoval port s) := by
  have m135327378 := hk
  unfold execSurpriseRemoval
  try dsimp only
  repeat' first
    | with_reducible exact hF
    | with_reducible assumption
    | with_reducible refine surpriseRemoval_frame m135327378 ?_
    | with_reducible refine FrameO.next ?_
    | with_reducible refine FrameO.ite ?_ ?_
    | with_reducible refine Frame.ite ?_ ?_
    | split

theorem execLinkUp_frame {κ : Nat} {σ : State} {port : Port} {partner : Partner} {s : State} (hk : Nat.testBit 135310994 κ = false) (hF : Frame κ σ s) :
    FrameO κ σ (execLinkUp port partner s) := by
  have m2 : Nat.testBit 2 κ = false := testBit_sub rfl hk
  have m8192 : Nat.testBit 8192 κ = false := testBit_sub rfl hk
  have m32914 : Nat.testBit 32914 κ = false := testBit_sub rfl hk
  have m135267474 : Nat.testBit 135267474 κ = false := testBit_sub rfl hk
  have m135270034 : Nat.testBit 135270034 κ = false := testBit_sub rfl hk
  unfold execLinkUp
  try dsimp only
  repeat' first
    | with_reducible exact hF
    | with_reducible assumption
    | with_reducible refine toActive_frame m135267474 ?_
    | with_reducible refine attachPartner_frame m135270034 ?_
    | with_reducible refine persDirs_frame m2 ?_
    | with_reducible refine State_setCan_frame m8192 ?_
    | with_reducible refine adapterUp_frame m135270034 ?_
    | with_reducible refine ejectPress_frame m32914 ?_
    | with_reducible refine wrs_frame m2 ?_
    | with_reducible refine forAll_frame (fun _ _ _ => ?_) ?_
    | with_reducible refine FrameO.next ?_
    | with_reducible refine FrameO.ite ?_ ?_
    | with_reducible refine Frame.ite ?_ ?_
    | split

theorem linkDown_frame {κ : Nat} {σ : State} {p : Nat} {s : State} (hk : Nat.testBit 135327378 κ = false) (hF : Frame κ σ s) :
    Frame κ σ (linkDown p s) := by
  have m135327378 := hk
  have m2 : Nat.testBit 2 κ = false := testBit_sub rfl hk
  have m130 : Nat.testBit 130 κ = false := testBit_sub rfl hk
  have m32768 : Nat.testBit 32768 κ = false := testBit_sub rfl hk
  have m59010 : Nat.testBit 59010 κ = false := testBit_sub rfl hk
  have m135270034 : Nat.testBit 135270034 κ = false := testBit_sub rfl hk
  unfold linkDown
  try dsimp only
  repeat' first
    | with_reducible exact hF
    | with_reducible assumption
    | with_reducible refine surpriseRemoval_frame m135327378 ?_
    | with_reducible refine attachEvent_frame m135270034 ?_
    | with_reducible refine portDown_frame m59010 ?_
    | with_reducible refine State_setAdp_frame m32768 ?_
    | with_reducible refine State_wr_frame m2 ?_
    | with_reducible refine raise_frame m130 ?_
    | with_reducible refine forAll_frame (fun _ _ _ => ?_) ?_
    | with_reducible refine Frame.ite ?_ ?_
    | split

theorem execLinkDown_frame {κ : Nat} {σ : State} {port : Port} {s : State} (hk : Nat.testBit 135327378 κ = false) (hF : Frame κ σ s) :
    FrameO κ σ (execLinkDown port s) := by
  have m135327378 := hk
  unfold execLinkDown
  try dsimp only
  repeat' first
    | with_reducible exact hF
    | with_reducible assumption
    | with_reducible refine linkDown_frame m135327378 ?_
    | with_reducible refine FrameO.next ?_
    | with_reducible refine FrameO.ite ?_ ?_
    | with_reducible refine Frame.ite ?_ ?_
    | split

theorem reduceRate_frame {κ : Nat} {σ : State} {p : Nat} {num : Nat} {den : Nat} {s : State} (hk : Nat.testBit 514 κ = false) (hF : Frame κ σ s) :
    Frame κ σ (reduceRate p num den s) := by
  have m2 : Nat.testBit 2 κ = false := testBit_sub rfl hk
  have m512 : Nat.testBit 512 κ = false := testBit_sub rfl hk
  unfold reduceRate
  try dsimp only
  repeat' first
    | with_reducible exact hF
    | with_reducible assumption
    | with_reducible refine State_wr_frame m2 ?_
    | split
    | (apply Frame.lit m512 rfl; case e => constructor <;> (try dsimp only) <;> first | exact .inl rfl | exact .inr rfl)

theorem narrowTo_frame {κ : Nat} {σ : State} {p : Nat} {w : Nat} {s : State} (hk : Nat.testBit 514 κ = false) (hF : Frame κ σ s) :
    Frame κ σ (narrowTo p w s) := by
  have m514 := hk
  have m2 : Nat.testBit 2 κ = false := testBit_sub rfl hk
  have m512 : Nat.testBit 512 κ = false := testBit_sub rfl hk
  unfold narrowTo
  try dsimp only
  repeat' first
    | with_reducible exact hF
    | with_reducible assumption
    | with_reducible refine reduceRate_frame m514 ?_
    | with_reducible refine State_wr_frame m2 ?_
    | with_reducible refine structuralEvent_frame m514 ?_
    | split
    | (apply Frame.lit m512 rfl; case e => constructor <;> (try dsimp only) <;> first | exact .inl rfl | exact .inr rfl)

theorem execStandardRecovery_frame {κ : Nat} {σ : State} {r : Recovery} {s : State} (hk : Nat.testBit 33426 κ = false) (hF : Frame κ σ s) :
    FrameO κ σ (execStandardRecovery r s) := by
  have m2 : Nat.testBit 2 κ = false := testBit_sub rfl hk
  have m514 : Nat.testBit 514 κ = false := testBit_sub rfl hk
  have m32768 : Nat.testBit 32768 κ = false := testBit_sub rfl hk
  have m32914 : Nat.testBit 32914 κ = false := testBit_sub rfl hk
  unfold execStandardRecovery
  try dsimp only
  repeat' first
    | with_reducible exact hF
    | with_reducible assumption
    | with_reducible refine State_setAdp_frame m32768 ?_
    | with_reducible refine narrowTo_frame m514 ?_
    | with_reducible refine State_wr_frame m2 ?_
    | with_reducible refine ejectPress_frame m32914 ?_
    | with_reducible refine FrameO.next ?_
    | with_reducible refine FrameO.ite ?_ ?_
    | with_reducible refine Frame.ite ?_ ?_
    | split

theorem execHpdChange_frame {κ : Nat} {σ : State} {port : Port} {high : Bool} {partner : Option Partner} {s : State} (hk : Nat.testBit 135327378 κ = false) (hF : Frame κ σ s) :
    FrameO κ σ (execHpdChange port high partner s) := by
  have m2 : Nat.testBit 2 κ = false := testBit_sub rfl hk
  have m1024 : Nat.testBit 1024 κ = false := testBit_sub rfl hk
  have m1026 : Nat.testBit 1026 κ = false := testBit_sub rfl hk
  have m32768 : Nat.testBit 32768 κ = false := testBit_sub rfl hk
  have m58370 : Nat.testBit 58370 κ = false := testBit_sub rfl hk
  have m59010 : Nat.testBit 59010 κ = false := testBit_sub rfl hk
  have m135270034 : Nat.testBit 135270034 κ = false := testBit_sub rfl hk
  unfold execHpdChange
  try dsimp only
  repeat' first
    | with_reducible exact hF
    | with_reducible assumption
    | with_reducible refine State_setB_frame m2 ?_
    | with_reducible refine pipeUpstream_frame m1026 ?_
    | with_reducible refine attachEvent_frame m135270034 ?_
    | with_reducible refine attachPartner_frame m135270034 ?_
    | with_reducible refine portDown_frame m59010 ?_
    | with_reducible refine portReset_frame m58370 ?_
    | with_reducible refine dropTunnels_frame m2 ?_
    | with_reducible refine State_wr_frame m2 ?_
    | with_reducible refine detachPartner_frame m135270034 ?_
    | with_reducible refine State_setAdp_frame m32768 ?_
    | with_reducible refine State_setEg_frame m1024 ?_
    | with_reducible refine wrs_frame m2 ?_
    | with_reducible refine FrameO.next ?_
    | with_reducible refine FrameO.ite ?_ ?_
    | with_reducible refine Frame.ite ?_ ?_
    | split

theorem resumeHold_frame {κ : Nat} {σ : State} {d : Nat} {s : State} (hk : Nat.testBit 1048578 κ = false) (hF : Frame κ σ s) :
    Frame κ σ (resumeHold d s) := by
  have m1048578 := hk
  unfold resumeHold
  try dsimp only
  repeat' first
    | with_reducible exact hF
    | with_reducible assumption
    | with_reducible refine adoptAttrs_frame m1048578 ?_
    | with_reducible refine Frame.ite ?_ ?_
    | split

theorem execDpLinkTraining_frame {κ : Nat} {σ : State} {port : Port} {tries : List DpTry} {s : State} (hk : Nat.testBit 1081474 κ = false) (hF : Frame κ σ s) :
    FrameO κ σ (execDpLinkTraining port tries s) := by
  have m2 : Nat.testBit 2 κ = false := testBit_sub rfl hk
  have m130 : Nat.testBit 130 κ = false := testBit_sub rfl hk
  have m32768 : Nat.testBit 32768 κ = false := testBit_sub rfl hk
  have m1048578 : Nat.testBit 1048578 κ = false := testBit_sub rfl hk
  unfold execDpLinkTraining
  try dsimp only
  repeat' first
    | with_reducible exact hF
    | with_reducible assumption
    | with_reducible refine State_inc_frame m2 ?_
    | with_reducible refine raise_frame m130 ?_
    | with_reducible refine State_wr_frame m2 ?_
    | with_reducible refine persDirs_frame m2 ?_
    | with_reducible refine applyPol_frame m2 ?_
    | with_reducible refine resumeHold_frame m1048578 ?_
    | with_reducible refine State_setAdp_frame m32768 ?_
    | with_reducible refine wrs_frame m2 ?_
    | with_reducible refine forAll_frame (fun _ _ _ => ?_) ?_
    | with_reducible refine FrameO.next ?_
    | with_reducible refine FrameO.ite ?_ ?_
    | with_reducible refine Frame.ite ?_ ?_
    | split

theorem dpcdByte_frame {κ : Nat} {σ : State} {p : Nat} {a : Nat} {s : State} (hk : Nat.testBit 8 κ = false) (hF : Frame κ σ s) :
    Frame κ σ (dpcdByte p a s).2 := by
  have m8 := hk
  unfold dpcdByte
  try dsimp only
  repeat' first
    | with_reducible exact hF
    | with_reducible assumption
    | with_reducible refine State_free_frame m8 ?_
    | with_reducible refine Frame.ite ?_ ?_
    | split
    | with_reducible refine Frame.snd (by assumption) ?_
    | with_reducible refine Frame.snd2 (by assumption) ?_
    | (dsimp only)

theorem dpcdRead_frame {κ : Nat} {σ : State} {p a n : Nat} {s : State} (hk : Nat.testBit 8 κ = false)
    (h : Frame κ σ s) : Frame κ σ (dpcdRead p a n s).2 := by
  induction n generalizing a s with
  | zero => exact h
  | succ n ih =>
    unfold dpcdRead
    exact ih (dpcdByte_frame (testBit_sub rfl hk) h)

theorem shownBytes_frame {κ : Nat} {σ : State} {p step a : Nat} {l : Bytes} {s : State} (hk : Nat.testBit 8 κ = false)
    (h : Frame κ σ s) : Frame κ σ (shownBytes p step a l s).2 := by
  induction l generalizing a s with
  | nil => exact h
  | cons b l ih =>
    unfold shownBytes
    by_cases ho : dpcdOwned a = true
    · simp only [ho, ite_true]
      exact ih (dpcdByte_frame (testBit_sub rfl hk) h)
    · by_cases hm : dpcdMax a = true
      · simp only [ho, hm, ite_true, Bool.false_eq_true, ite_false]
        exact ih (State_free_frame (testBit_sub rfl hk) h)
      · simp only [ho, hm, Bool.false_eq_true, ite_false]
        exact ih h

theorem shownReply_frame {κ : Nat} {σ : State} {d : Nat} {data : Bytes} {s : State} (hk : Nat.testBit 8 κ = false) (hF : Frame κ σ s) :
    Frame κ σ (shownReply d data s).2 := by
  have m8 := hk
  unfold shownReply
  try dsimp only
  repeat' first
    | with_reducible exact hF
    | with_reducible assumption
    | with_reducible refine shownBytes_frame m8 ?_
    | with_reducible refine Frame.ite ?_ ?_
    | split
    | with_reducible refine Frame.snd (by assumption) ?_
    | with_reducible refine Frame.snd2 (by assumption) ?_
    | (dsimp only)

theorem auxRequest_frame {κ : Nat} {σ : State} {k : Nat} {data : Bytes} {s : State} (hk : Nat.testBit 1049626 κ = false) (hF : Frame κ σ s) :
    Frame κ σ (auxRequest k data s) := by
  have m1049626 := hk
  have m8 : Nat.testBit 8 κ = false := testBit_sub rfl hk
  have m16 : Nat.testBit 16 κ = false := testBit_sub rfl hk
  have m1026 : Nat.testBit 1026 κ = false := testBit_sub rfl hk
  have m1048576 : Nat.testBit 1048576 κ = false := testBit_sub rfl hk
  unfold auxRequest
  try dsimp only
  repeat' first
    | with_reducible exact hF
    | with_reducible assumption
    | with_reducible refine dpcdRead_frame m8 ?_
    | with_reducible refine pipeUpstream_frame m1026 ?_
    | with_reducible refine State_free_frame m8 ?_
    | with_reducible refine mstRead_frame m1026 ?_
    | with_reducible refine mstWrite_frame m1049626 ?_
    | with_reducible refine State_setPipe_frame m1048576 ?_
    | with_reducible refine State_emit_frame m16 ?_
    | with_reducible refine Frame.ite ?_ ?_
    | split
    | with_reducible refine Frame.snd (by assumption) ?_
    | with_reducible refine Frame.snd2 (by assumption) ?_
    | (dsimp only)

theorem execAuxRequest_frame {κ : Nat} {σ : State} {d : Pipe} {data : Bytes} {s : State} (hk : Nat.testBit 1049626 κ = false) (hF : Frame κ σ s) :
    FrameO κ σ (execAuxRequest d data s) := by
  have m1049626 := hk
  unfold execAuxRequest
  try dsimp only
  repeat' first
    | with_reducible exact hF
    | with_reducible assumption
    | with_reducible refine auxRequest_frame m1049626 ?_
    | with_reducible refine FrameO.next ?_

theorem execAuxReply_frame {κ : Nat} {σ : State} {d : Pipe} {data : Bytes} {s : State} (hk : Nat.testBit 1049610 κ = false) (hF : Frame κ σ s) :
    FrameO κ σ (execAuxReply d data s) := by
  have m1049610 := hk
  have m8 : Nat.testBit 8 κ = false := testBit_sub rfl hk
  have m1026 : Nat.testBit 1026 κ = false := testBit_sub rfl hk
  have m1048576 : Nat.testBit 1048576 κ = false := testBit_sub rfl hk
  unfold execAuxReply
  try dsimp only
  repeat' first
    | with_reducible exact hF
    | with_reducible assumption
    | with_reducible refine shownReply_frame m8 ?_
    | with_reducible refine State_setPipe_frame m1048576 ?_
    | with_reducible refine mstAnswer_frame m1049610 ?_
    | with_reducible refine pipeUpstream_frame m1026 ?_
    | with_reducible refine FrameO.next ?_
    | split
    | with_reducible refine Frame.snd (by assumption) ?_
    | with_reducible refine Frame.snd2 (by assumption) ?_
    | (dsimp only)

theorem pauseFrame_frame {κ : Nat} {σ : State} {p : Nat} {f : Bytes} {s : State} (hk : Nat.testBit 1026 κ = false) (hF : Frame κ σ s) :
    Frame κ σ (pauseFrame p f s) := by
  have m2 : Nat.testBit 2 κ = false := testBit_sub rfl hk
  have m1024 : Nat.testBit 1024 κ = false := testBit_sub rfl hk
  unfold pauseFrame
  try dsimp only
  repeat' first
    | with_reducible exact hF
    | with_reducible assumption
    | with_reducible refine State_setEg_frame m1024 ?_
    | with_reducible refine State_wr_frame m2 ?_
    | with_reducible refine Frame.ite ?_ ?_
    | split

theorem execEthernetFrame_frame {κ : Nat} {σ : State} {port : Port} {frame : Bytes} {ok : Bool} {s : State} (hk : Nat.testBit 312466 κ = false) (hF : Frame κ σ s) :
    FrameO κ σ (execEthernetFrame port frame ok s) := by
  have m312466 := hk
  have m2 : Nat.testBit 2 κ = false := testBit_sub rfl hk
  have m1026 : Nat.testBit 1026 κ = false := testBit_sub rfl hk
  unfold execEthernetFrame
  try dsimp only
  repeat' first
    | with_reducible exact hF
    | with_reducible assumption
    | with_reducible refine rxBad_frame m2 ?_
    | with_reducible refine pauseFrame_frame m1026 ?_
    | with_reducible refine noTunnel_frame m2 ?_
    | with_reducible refine admitUnit_frame m312466 ?_
    | with_reducible refine takeIn_frame m312466 ?_
    | with_reducible refine FrameO.next ?_
    | with_reducible refine FrameO.ite ?_ ?_
    | with_reducible refine Frame.ite ?_ ?_
    | split

theorem wrEthmap_frame {κ : Nat} {σ : State} {p : Nat} {v : Nat} {s : State} (hk : Nat.testBit 130 κ = false) (hF : Frame κ σ s) :
    Frame κ σ (wrEthmap p v s) := by
  have m130 := hk
  unfold wrEthmap
  try dsimp only
  repeat' first
    | with_reducible exact hF
    | with_reducible assumption
    | with_reducible refine wrField_frame m130 ?_
    | with_reducible refine raise_frame m130 ?_
    | with_reducible refine forAll_frame (fun _ _ _ => ?_) ?_
    | with_reducible refine Frame.ite ?_ ?_
    | split

theorem wrEthctl_frame {κ : Nat} {σ : State} {p : Nat} {v : Nat} {s : State} (hk : Nat.testBit 642 κ = false) (hF : Frame κ σ s) :
    Frame κ σ (wrEthctl p v s) := by
  have m130 : Nat.testBit 130 κ = false := testBit_sub rfl hk
  have m514 : Nat.testBit 514 κ = false := testBit_sub rfl hk
  unfold wrEthctl
  try dsimp only
  repeat' first
    | with_reducible exact hF
    | with_reducible assumption
    | with_reducible refine wrField_frame m130 ?_
    | with_reducible refine structuralEvent_frame m514 ?_
    | with_reducible refine raise_frame m130 ?_
    | with_reducible refine Frame.ite ?_ ?_
    | split

theorem adoptEth_frame {κ : Nat} {σ : State} {s : State} (hk : Nat.testBit 32768 κ = false) (hF : Frame κ σ s) :
    Frame κ σ (adoptEth s) := by
  have m32768 := hk
  unfold adoptEth
  try dsimp only
  repeat' first
    | with_reducible exact hF
    | with_reducible assumption
    | with_reducible refine State_setAdp_frame m32768 ?_
    | with_reducible refine forAll_frame (fun _ _ _ => ?_) ?_

theorem hubForward_frame {κ : Nat} {σ : State} {c : Nat} {tun : Nat} {k : Nat} {data : Bytes} {s : State} (hk : Nat.testBit 312466 κ = false) (hF : Frame κ σ s) :
    Frame κ σ (hubForward c tun k data s) := by
  have m312466 := hk
  have m2 : Nat.testBit 2 κ = false := testBit_sub rfl hk
  unfold hubForward
  try dsimp only
  repeat' first
    | with_reducible exact hF
    | with_reducible assumption
    | with_reducible refine noTunnel_frame m2 ?_
    | with_reducible refine admitUnit_frame m312466 ?_
    | with_reducible refine Frame.ite ?_ ?_
    | split

theorem hubPacket_frame {κ : Nat} {σ : State} {c : Nat} {tun : Nat} {data : Bytes} {s : State} (hk : Nat.testBit 312466 κ = false) (hF : Frame κ σ s) :
    Frame κ σ (hubPacket c tun data s) := by
  have m312466 := hk
  have m2 : Nat.testBit 2 κ = false := testBit_sub rfl hk
  have m32784 : Nat.testBit 32784 κ = false := testBit_sub rfl hk
  unfold hubPacket
  try dsimp only
  repeat' first
    | with_reducible exact hF
    | with_reducible assumption
    | with_reducible refine hubForward_frame m312466 ?_
    | with_reducible refine hubRequest_frame m32784 ?_
    | with_reducible refine noTunnel_frame m2 ?_
    | with_reducible refine forAll_frame (fun _ _ _ => ?_) ?_
    | with_reducible refine Frame.ite ?_ ?_
    | split

theorem execUsb3Packet_frame {κ : Nat} {σ : State} {port : Port} {tun : Tun} {ok : Bool} {head : Bytes} {data : Bytes} {s : State} (hk : Nat.testBit 312466 κ = false) (hF : Frame κ σ s) :
    FrameO κ σ (execUsb3Packet port tun ok head data s) := by
  have m312466 := hk
  have m2 : Nat.testBit 2 κ = false := testBit_sub rfl hk
  unfold execUsb3Packet
  try dsimp only
  repeat' first
    | with_reducible exact hF
    | with_reducible assumption
    | with_reducible refine rxBad_frame m2 ?_
    | with_reducible refine hubPacket_frame m312466 ?_
    | with_reducible refine admitUnit_frame m312466 ?_
    | with_reducible refine FrameO.next ?_
    | with_reducible refine FrameO.ite ?_ ?_
    | with_reducible refine Frame.ite ?_ ?_
    | split

end Sys2Proof.Laws
end

