-- ==== Sys2Proof/Laws/FrameSlot.lean ====
section
/-! SUPPORT. What each operation of Machine/Slot.lean leaves alone. -/

namespace Sys2Proof.Laws

open Sys2Proof Sys2Proof.Machine

set_option linter.unusedTactic false
set_option linter.unreachableTactic false
set_option linter.unusedVariables false

theorem childMessage_frame {κ : Nat} {σ : State} {n : Nat} {g : Seg} {s : State} (hk : Nat.testBit 128 κ = false) (hF : Frame κ σ s) :
    Frame κ σ (childMessage n g s).2 := by
  have m128 := hk
  unfold childMessage
  try dsimp only
  repeat' first
    | with_reducible exact hF
    | with_reducible assumption
    | with_reducible refine Frame.ite ?_ ?_
    | split
    | with_reducible refine Frame.snd (by assumption) ?_
    | with_reducible refine Frame.snd2 (by assumption) ?_
    | (dsimp only)
    | (apply Frame.lit m128 rfl; case e => constructor <;> (try dsimp only) <;> first | exact .inl rfl | exact .inr rfl)

theorem canopySegment_frame {κ : Nat} {σ : State} {p : Nat} {hdr : BitVec 64} {payload : Bytes} {g : Seg} {s : State} (hk : Nat.testBit 13458 κ = false) (hF : Frame κ σ s) :
    Frame κ σ (canopySegment p hdr payload g s) := by
  have m2 : Nat.testBit 2 κ = false := testBit_sub rfl hk
  have m128 : Nat.testBit 128 κ = false := testBit_sub rfl hk
  have m1026 : Nat.testBit 1026 κ = false := testBit_sub rfl hk
  have m4096 : Nat.testBit 4096 κ = false := testBit_sub rfl hk
  have m4112 : Nat.testBit 4112 κ = false := testBit_sub rfl hk
  have m8194 : Nat.testBit 8194 κ = false := testBit_sub rfl hk
  unfold canopySegment
  try dsimp only
  repeat' first
    | with_reducible exact hF
    | with_reducible assumption
    | with_reducible refine receiveUnit_frame m8194 ?_
    | with_reducible refine genDiscard_frame m2 ?_
    | with_reducible refine State_inc_frame m2 ?_
    | with_reducible refine State_setCredit_frame m4096 ?_
    | with_reducible refine childMessage_frame m128 ?_
    | with_reducible refine creditUpdate_frame m4112 ?_
    | with_reducible refine ingressSeg_frame m1026 ?_
    | with_reducible refine Frame.ite ?_ ?_
    | split
    | with_reducible refine Frame.snd (by assumption) ?_
    | with_reducible refine Frame.snd2 (by assumption) ?_
    | (dsimp only)

theorem segmentArrives_frame {κ : Nat} {σ : State} {p : Nat} {hdr : BitVec 64} {payload : Bytes} {s : State} (hk : Nat.testBit 29842 κ = false) (hF : Frame κ σ s) :
    Frame κ σ (segmentArrives p hdr payload s) := by
  have m2 : Nat.testBit 2 κ = false := testBit_sub rfl hk
  have m1026 : Nat.testBit 1026 κ = false := testBit_sub rfl hk
  have m1040 : Nat.testBit 1040 κ = false := testBit_sub rfl hk
  have m8210 : Nat.testBit 8210 κ = false := testBit_sub rfl hk
  have m13458 : Nat.testBit 13458 κ = false := testBit_sub rfl hk
  have m16514 : Nat.testBit 16514 κ = false := testBit_sub rfl hk
  unfold segmentArrives
  try dsimp only
  repeat' first
    | with_reducible exact hF
    | with_reducible assumption
    | with_reducible refine linkError_frame m8210 ?_
    | with_reducible refine canopySegment_frame m13458 ?_
    | with_reducible refine rxBad_frame m2 ?_
    | with_reducible refine holdUnit_frame m16514 ?_
    | with_reducible refine updatePause_frame m1040 ?_
    | with_reducible refine ingressSeg_frame m1026 ?_
    | with_reducible refine Frame.ite ?_ ?_
    | split

theorem pressure_frame {κ : Nat} {σ : State} {before : State} {s : State} (hk : Nat.testBit 279552 κ = false) (hF : Frame κ σ s) :
    Frame κ σ (pressure before s) := by
  have m279552 := hk
  unfold pressure
  try dsimp only
  repeat' first
    | with_reducible exact hF
    | with_reducible assumption
    | with_reducible refine capture_frame m279552 ?_
    | with_reducible refine forAll_frame (fun _ _ _ => ?_) ?_

theorem slotStep_frame {κ : Nat} {σ : State} {accBad : BitVec 20} {retBad : BitVec 20} {outBad : BitVec 20} {s : State} (hk : Nat.testBit 283858 κ = false) (hF : Frame κ σ s) :
    Frame κ σ (slotStep accBad retBad outBad s) := by
  have m1040 : Nat.testBit 1040 κ = false := testBit_sub rfl hk
  have m1218 : Nat.testBit 1218 κ = false := testBit_sub rfl hk
  have m4112 : Nat.testBit 4112 κ = false := testBit_sub rfl hk
  have m279552 : Nat.testBit 279552 κ = false := testBit_sub rfl hk
  unfold slotStep
  try dsimp only
  repeat' first
    | with_reducible exact hF
    | with_reducible assumption
    | with_reducible refine pressure_frame m279552 ?_
    | with_reducible refine fabricSlot_frame m1218 ?_
    | with_reducible refine updatePause_frame m1040 ?_
    | with_reducible refine creditUpdate_frame m4112 ?_
    | with_reducible refine forAll_frame (fun _ _ _ => ?_) ?_

theorem streamUnit_frame {κ : Nat} {σ : State} {d : Pipe} {line : Nat} {data : Bytes} {s : State} (hk : Nat.testBit 1050330 κ = false) (hF : Frame κ σ s) :
    Frame κ σ (streamUnit d line data s) := by
  have m130 : Nat.testBit 130 κ = false := testBit_sub rfl hk
  have m146 : Nat.testBit 146 κ = false := testBit_sub rfl hk
  have m1048576 : Nat.testBit 1048576 κ = false := testBit_sub rfl hk
  have m1048770 : Nat.testBit 1048770 κ = false := testBit_sub rfl hk
  have m1049218 : Nat.testBit 1049218 κ = false := testBit_sub rfl hk
  have m1049626 : Nat.testBit 1049626 κ = false := testBit_sub rfl hk
  unfold streamUnit
  try dsimp only
  repeat' first
    | with_reducible exact hF
    | with_reducible assumption
    | with_reducible refine takePixels_frame m1048770 ?_
    | with_reducible refine State_setPipe_frame m1048576 ?_
    | with_reducible refine takePacket_frame m146 ?_
    | with_reducible refine auxRequest_frame m1049626 ?_
    | with_reducible refine takeAttributes_frame m1049218 ?_
    | with_reducible refine reservedUnit_frame m130 ?_
    | with_reducible refine Frame.ite ?_ ?_
    | split

theorem pipeSegment_frame {κ : Nat} {σ : State} {g : Seg} {s : State} (hk : Nat.testBit 1050330 κ = false) (hF : Frame κ σ s) :
    Frame κ σ (pipeSegment g s) := by
  have m1050330 := hk
  have m1048576 : Nat.testBit 1048576 κ = false := testBit_sub rfl hk
  unfold pipeSegment
  try dsimp only
  repeat' first
    | with_reducible exact hF
    | with_reducible assumption
    | with_reducible refine streamUnit_frame m1050330 ?_
    | with_reducible refine State_setPipe_frame m1048576 ?_
    | with_reducible refine Frame.ite ?_ ?_
    | split

theorem pipesTake_frame {κ : Nat} {σ : State} {s : State} (hk : Nat.testBit 1050330 κ = false) (hF : Frame κ σ s) :
    Frame κ σ (pipesTake s) := by
  have m1050330 := hk
  have m1024 : Nat.testBit 1024 κ = false := testBit_sub rfl hk
  unfold pipesTake
  try dsimp only
  repeat' first
    | with_reducible exact hF
    | with_reducible assumption
    | with_reducible refine pipeSegment_frame m1050330 ?_
    | with_reducible refine forAll_frame (fun _ _ _ => ?_) ?_
    | (apply Frame.lit m1024 rfl; case e => constructor <;> (try dsimp only) <;> first | exact .inl rfl | exact .inr rfl)

theorem execEgressUnitStart_frame {κ : Nat} {σ : State} {port : Port} {s : State} (hk : Nat.testBit 1062618 κ = false) (hF : Frame κ σ s) :
    FrameO κ σ (execEgressUnitStart port s) := by
  have m13458 : Nat.testBit 13458 κ = false := testBit_sub rfl hk
  have m1050330 : Nat.testBit 1050330 κ = false := testBit_sub rfl hk
  unfold execEgressUnitStart
  try dsimp only
  repeat' first
    | with_reducible exact hF
    | with_reducible assumption
    | with_reducible refine pipesTake_frame m1050330 ?_
    | with_reducible refine egressStart_frame m13458 ?_
    | with_reducible refine FrameO.next ?_

end Sys2Proof.Laws
end

