-- ==== Sys2Proof/Laws/FrameTime.lean ====
section
/-! SUPPORT. What each operation of Machine/Time.lean leaves alone. -/

namespace Sys2Proof.Laws

open Sys2Proof Sys2Proof.Machine

set_option linter.unusedTactic false
set_option linter.unreachableTactic false
set_option linter.unusedVariables false

theorem setInc_frame {κ : Nat} {σ : State} {n : Nat} {v : Nat} {s : State} (hk : Nat.testBit 526338 κ = false) (hF : Frame κ σ s) :
    Frame κ σ (setInc n v s) := by
  have m2 : Nat.testBit 2 κ = false := testBit_sub rfl hk
  have m2048 : Nat.testBit 2048 κ = false := testBit_sub rfl hk
  have m524288 : Nat.testBit 524288 κ = false := testBit_sub rfl hk
  unfold setInc
  try dsimp only
  repeat' first
    | with_reducible exact hF
    | with_reducible assumption
    | with_reducible refine noteChange_frame m2048 ?_
    | with_reducible refine wrs_frame m2 ?_
    | (apply Frame.lit m524288 rfl; case e => constructor <;> (try dsimp only) <;> first | exact .inl rfl | exact .inr rfl)

theorem baseCycle_frame {κ : Nat} {σ : State} {n : Nat} {s : State} (hk : Nat.testBit 65666 κ = false) (hF : Frame κ σ s) :
    Frame κ σ (baseCycle n s) := by
  have m2 : Nat.testBit 2 κ = false := testBit_sub rfl hk
  have m130 : Nat.testBit 130 κ = false := testBit_sub rfl hk
  have m65536 : Nat.testBit 65536 κ = false := testBit_sub rfl hk
  unfold baseCycle
  try dsimp only
  repeat' first
    | with_reducible exact hF
    | with_reducible assumption
    | with_reducible refine raise_frame m130 ?_
    | with_reducible refine State_incMod_frame m2 ?_
    | with_reducible refine Frame.ite ?_ ?_
    | split
    | (apply Frame.lit m65536 rfl; case e => constructor <;> (try dsimp only) <;> first | exact .inl rfl | exact .inr rfl)

theorem execWrap_frame {κ : Nat} {σ : State} {n : TimeBase} {s : State} (hk : Nat.testBit 65666 κ = false) (hF : Frame κ σ s) :
    FrameO κ σ (execWrap n s) := by
  have m65666 := hk
  unfold execWrap
  try dsimp only
  repeat' first
    | with_reducible exact hF
    | with_reducible assumption
    | with_reducible refine baseCycle_frame m65666 ?_
    | with_reducible refine FrameO.next ?_
    | with_reducible refine FrameO.ite ?_ ?_
    | with_reducible refine Frame.ite ?_ ?_
    | split

theorem wrTbinci_frame {κ : Nat} {σ : State} {n : Nat} {v : Nat} {s : State} (hk : Nat.testBit 526466 κ = false) (hF : Frame κ σ s) :
    Frame κ σ (wrTbinci n v s) := by
  have m130 : Nat.testBit 130 κ = false := testBit_sub rfl hk
  have m2048 : Nat.testBit 2048 κ = false := testBit_sub rfl hk
  have m524288 : Nat.testBit 524288 κ = false := testBit_sub rfl hk
  unfold wrTbinci
  try dsimp only
  repeat' first
    | with_reducible exact hF
    | with_reducible assumption
    | with_reducible refine wrField_frame m130 ?_
    | with_reducible refine noteChange_frame m2048 ?_
    | with_reducible refine Frame.ite ?_ ?_
    | split
    | (apply Frame.lit m524288 rfl; case e => constructor <;> (try dsimp only) <;> first | exact .inl rfl | exact .inr rfl)

theorem startBase_frame {κ : Nat} {σ : State} {n : Nat} {s : State} (hk : Nat.testBit 2050 κ = false) (hF : Frame κ σ s) :
    Frame κ σ (startBase n s) := by
  have m2 : Nat.testBit 2 κ = false := testBit_sub rfl hk
  have m2048 : Nat.testBit 2048 κ = false := testBit_sub rfl hk
  unfold startBase
  try dsimp only
  repeat' first
    | with_reducible exact hF
    | with_reducible assumption
    | with_reducible refine restartSeries_frame m2048 ?_
    | with_reducible refine noteChange_frame m2048 ?_
    | with_reducible refine wrs_frame m2 ?_

theorem setRun_frame {κ : Nat} {σ : State} {n : Nat} {run : Bool} {s : State} (hk : Nat.testBit 2050 κ = false) (hF : Frame κ σ s) :
    Frame κ σ (setRun n run s) := by
  have m2050 := hk
  have m2 : Nat.testBit 2 κ = false := testBit_sub rfl hk
  have m2048 : Nat.testBit 2048 κ = false := testBit_sub rfl hk
  unfold setRun
  try dsimp only
  repeat' first
    | with_reducible exact hF
    | with_reducible assumption
    | with_reducible refine holdGates_frame m2048 ?_
    | with_reducible refine noteChange_frame m2048 ?_
    | with_reducible refine startBase_frame m2050 ?_
    | with_reducible refine wrs_frame m2 ?_
    | with_reducible refine Frame.ite ?_ ?_
    | split

theorem wrTbctl_frame {κ : Nat} {σ : State} {n : Nat} {v : Nat} {s : State} (hk : Nat.testBit 2178 κ = false) (hF : Frame κ σ s) :
    Frame κ σ (wrTbctl n v s) := by
  have m130 : Nat.testBit 130 κ = false := testBit_sub rfl hk
  have m2050 : Nat.testBit 2050 κ = false := testBit_sub rfl hk
  unfold wrTbctl
  try dsimp only
  repeat' first
    | with_reducible exact hF
    | with_reducible assumption
    | with_reducible refine cfgErr_frame m130 ?_
    | with_reducible refine wrField_frame m130 ?_
    | with_reducible refine envEvent_frame m130 ?_
    | with_reducible refine setRun_frame m2050 ?_
    | with_reducible refine Frame.ite ?_ ?_
    | split

theorem wrTbld_frame {κ : Nat} {σ : State} {n : Nat} {fr : Bool} {v : Nat} {s : State} (hk : Nat.testBit 67714 κ = false) (hF : Frame κ σ s) :
    Frame κ σ (wrTbld n fr v s) := by
  have m130 : Nat.testBit 130 κ = false := testBit_sub rfl hk
  have m2048 : Nat.testBit 2048 κ = false := testBit_sub rfl hk
  have m65536 : Nat.testBit 65536 κ = false := testBit_sub rfl hk
  unfold wrTbld
  try dsimp only
  repeat' first
    | with_reducible exact hF
    | with_reducible assumption
    | with_reducible refine raise_frame m130 ?_
    | with_reducible refine wrField_frame m130 ?_
    | with_reducible refine noteChange_frame m2048 ?_
    | with_reducible refine Frame.ite ?_ ?_
    | split
    | (apply Frame.lit m65536 rfl; case e => constructor <;> (try dsimp only) <;> first | exact .inl rfl | exact .inr rfl)

theorem takeSnapshot_frame {κ : Nat} {σ : State} {s : State} (hk : Nat.testBit 2 κ = false) (hF : Frame κ σ s) :
    Frame κ σ (takeSnapshot s) := by
  have m2 := hk
  unfold takeSnapshot
  try dsimp only
  repeat' first
    | with_reducible exact hF
    | with_reducible assumption
    | with_reducible refine wrs_frame m2 ?_
    | with_reducible refine forAll_frame (fun _ _ _ => ?_) ?_

theorem tick_frame {κ : Nat} {σ : State} {s : State} (hk : Nat.testBit 4278406 κ = false) (hF : Frame κ σ s) :
    Frame κ σ (tick s) := by
  have m4 : Nat.testBit 4 κ = false := testBit_sub rfl hk
  have m16384 : Nat.testBit 16384 κ = false := testBit_sub rfl hk
  have m65666 : Nat.testBit 65666 κ = false := testBit_sub rfl hk
  have m4196482 : Nat.testBit 4196482 κ = false := testBit_sub rfl hk
  unfold tick
  try dsimp only
  repeat' first
    | with_reducible exact hF
    | with_reducible assumption
    | with_reducible refine runEngines_frame m16384 ?_
    | with_reducible refine leadCycle_frame m4196482 ?_
    | with_reducible refine baseCycle_frame m65666 ?_
    | with_reducible refine forAll_frame (fun _ _ _ => ?_) ?_
    | with_reducible refine Frame.ite ?_ ?_
    | split
    | (apply Frame.lit m4 rfl; case e => constructor <;> (try dsimp only) <;> first | exact .inl rfl | exact .inr rfl)

theorem egressReport_frame {κ : Nat} {σ : State} {p : Nat} {tb : Nat} {hdr : Bytes} {s : State} (hk : Nat.testBit 1024 κ = false) (hF : Frame κ σ s) :
    Frame κ σ (egressReport p tb hdr s) := by
  have m1024 := hk
  unfold egressReport
  try dsimp only
  repeat' first
    | with_reducible exact hF
    | with_reducible assumption
    | with_reducible refine agentUnit_frame m1024 ?_
    | split

theorem sendFrame_frame {κ : Nat} {σ : State} {p : Nat} {f : Bytes} {s : State} (hk : Nat.testBit 16 κ = false) (hF : Frame κ σ s) :
    Frame κ σ (sendFrame p f s) := by
  have m16 := hk
  unfold sendFrame
  try dsimp only
  repeat' first
    | with_reducible exact hF
    | with_reducible assumption
    | with_reducible refine State_emit_frame m16 ?_

theorem execTimeSend_frame {κ : Nat} {σ : State} {port : Port} {header : Bytes} {frame : Bytes} {s : State} (hk : Nat.testBit 16 κ = false) (hF : Frame κ σ s) :
    FrameO κ σ (execTimeSend port header frame s) := by
  have m16 := hk
  unfold execTimeSend
  try dsimp only
  repeat' first
    | with_reducible exact hF
    | with_reducible assumption
    | with_reducible refine sendFrame_frame m16 ?_
    | with_reducible refine FrameO.next ?_
    | with_reducible refine FrameO.ite ?_ ?_
    | with_reducible refine Frame.ite ?_ ?_
    | split

theorem execTimeSendReport_frame {κ : Nat} {σ : State} {port : Port} {header : Bytes} {frame : Bytes} {s : State} (hk : Nat.testBit 1040 κ = false) (hF : Frame κ σ s) :
    FrameO κ σ (execTimeSendReport port header frame s) := by
  have m16 : Nat.testBit 16 κ = false := testBit_sub rfl hk
  have m1024 : Nat.testBit 1024 κ = false := testBit_sub rfl hk
  unfold execTimeSendReport
  try dsimp only
  repeat' first
    | with_reducible exact hF
    | with_reducible assumption
    | with_reducible refine egressReport_frame m1024 ?_
    | with_reducible refine sendFrame_frame m16 ?_
    | with_reducible refine FrameO.next ?_
    | with_reducible refine FrameO.ite ?_ ?_
    | with_reducible refine Frame.ite ?_ ?_
    | split

theorem execTimeSendCorrection_frame {κ : Nat} {σ : State} {port : Port} {header : Bytes} {frame : Bytes} {s : State} (hk : Nat.testBit 1040 κ = false) (hF : Frame κ σ s) :
    FrameO κ σ (execTimeSendCorrection port header frame s) := by
  have m16 : Nat.testBit 16 κ = false := testBit_sub rfl hk
  have m1024 : Nat.testBit 1024 κ = false := testBit_sub rfl hk
  unfold execTimeSendCorrection
  try dsimp only
  repeat' first
    | with_reducible exact hF
    | with_reducible assumption
    | with_reducible refine sendFrame_frame m16 ?_
    | with_reducible refine egressReport_frame m1024 ?_
    | with_reducible refine FrameO.next ?_
    | with_reducible refine FrameO.ite ?_ ?_
    | with_reducible refine Frame.ite ?_ ?_
    | split

theorem setTime_frame {κ : Nat} {σ : State} {p : Nat} {k : Nat} {v : Nat} {s : State} (hk : Nat.testBit 8192 κ = false) (hF : Frame κ σ s) :
    Frame κ σ (setTime p k v s) := by
  have m8192 := hk
  unfold setTime
  try dsimp only
  repeat' first
    | with_reducible exact hF
    | with_reducible assumption
    | with_reducible refine State_setCan_frame m8192 ?_
    | split

theorem sendTimes_frame {κ : Nat} {σ : State} {p : Nat} {seq : Nat} {tx : Nat} {rx : Nat} {s : State} (hk : Nat.testBit 16 κ = false) (hF : Frame κ σ s) :
    Frame κ σ (sendTimes p seq tx rx s) := by
  have m16 := hk
  unfold sendTimes
  try dsimp only
  repeat' first
    | with_reducible exact hF
    | with_reducible assumption
    | with_reducible refine State_emit_frame m16 ?_

theorem execLinkTimeTsync_frame {κ : Nat} {σ : State} {port : CanPort} {s : State} (hk : Nat.testBit 8208 κ = false) (hF : Frame κ σ s) :
    FrameO κ σ (execLinkTimeTsync port s) := by
  have m16 : Nat.testBit 16 κ = false := testBit_sub rfl hk
  have m8192 : Nat.testBit 8192 κ = false := testBit_sub rfl hk
  unfold execLinkTimeTsync
  try dsimp only
  repeat' first
    | with_reducible exact hF
    | with_reducible assumption
    | with_reducible refine State_setCan_frame m8192 ?_
    | with_reducible refine State_emit_frame m16 ?_
    | with_reducible refine FrameO.next ?_
    | with_reducible refine FrameO.ite ?_ ?_
    | with_reducible refine Frame.ite ?_ ?_
    | split

theorem execTsync_frame {κ : Nat} {σ : State} {port : CanPort} {seq : Fin 64} {_tb : TimeBase} {s : State} (hk : Nat.testBit 8208 κ = false) (hF : Frame κ σ s) :
    FrameO κ σ (execTsync port seq _tb s) := by
  have m16 : Nat.testBit 16 κ = false := testBit_sub rfl hk
  have m8192 : Nat.testBit 8192 κ = false := testBit_sub rfl hk
  unfold execTsync
  try dsimp only
  repeat' first
    | with_reducible exact hF
    | with_reducible assumption
    | with_reducible refine sendTimes_frame m16 ?_
    | with_reducible refine setTime_frame m8192 ?_
    | with_reducible refine State_setCan_frame m8192 ?_
    | with_reducible refine State_emit_frame m16 ?_
    | with_reducible refine FrameO.next ?_
    | with_reducible refine FrameO.ite ?_ ?_
    | with_reducible refine Frame.ite ?_ ?_
    | split

theorem halfFree_frame {κ : Nat} {σ : State} {x : Int} {s : State} (hk : Nat.testBit 8 κ = false) (hF : Frame κ σ s) :
    Frame κ σ (halfFree x s).2 := by
  have m8 := hk
  unfold halfFree
  try dsimp only
  repeat' first
    | with_reducible exact hF
    | with_reducible assumption
    | with_reducible refine State_free_frame m8 ?_
    | with_reducible refine Frame.ite ?_ ?_
    | split
    | with_reducible refine Frame.snd (by assumption) ?_
    | with_reducible refine Frame.snd2 (by assumption) ?_
    | (dsimp only)

theorem setLock_frame {κ : Nat} {σ : State} {n : Nat} {b : Bool} {s : State} (hk : Nat.testBit 130 κ = false) (hF : Frame κ σ s) :
    Frame κ σ (setLock n b s) := by
  have m130 := hk
  have m2 : Nat.testBit 2 κ = false := testBit_sub rfl hk
  unfold setLock
  try dsimp only
  repeat' first
    | with_reducible exact hF
    | with_reducible assumption
    | with_reducible refine raise_frame m130 ?_
    | with_reducible refine State_setB_frame m2 ?_
    | with_reducible refine Frame.ite ?_ ?_
    | split

theorem servo_frame {κ : Nat} {σ : State} {p : Nat} {n : Nat} {off : Int} {s : State} (hk : Nat.testBit 534666 κ = false) (hF : Frame κ σ s) :
    Frame κ σ (servo p n off s) := by
  have m8 : Nat.testBit 8 κ = false := testBit_sub rfl hk
  have m130 : Nat.testBit 130 κ = false := testBit_sub rfl hk
  have m8192 : Nat.testBit 8192 κ = false := testBit_sub rfl hk
  have m526338 : Nat.testBit 526338 κ = false := testBit_sub rfl hk
  unfold servo
  try dsimp only
  repeat' first
    | with_reducible exact hF
    | with_reducible assumption
    | with_reducible refine State_setCan_frame m8192 ?_
    | with_reducible refine setLock_frame m130 ?_
    | with_reducible refine State_free_frame m8 ?_
    | with_reducible refine setInc_frame m526338 ?_
    | with_reducible refine Frame.ite ?_ ?_
    | split
    | with_reducible refine Frame.snd (by assumption) ?_
    | with_reducible refine Frame.snd2 (by assumption) ?_
    | (dsimp only)

theorem linkReport_frame {κ : Nat} {σ : State} {p : Nat} {n : Nat} {off : Nat} {dly : Nat} {seq : Nat} {s : State} (hk : Nat.testBit 1024 κ = false) (hF : Frame κ σ s) :
    Frame κ σ (linkReport p n off dly seq s) := by
  have m1024 := hk
  unfold linkReport
  try dsimp only
  repeat' first
    | with_reducible exact hF
    | with_reducible assumption
    | with_reducible refine agentUnit_frame m1024 ?_
    | split

theorem finishExchange_frame {κ : Nat} {σ : State} {p : Nat} {seq : Nat} {off : Int} {dly : Int} {s : State} (hk : Nat.testBit 535690 κ = false) (hF : Frame κ σ s) :
    Frame κ σ (finishExchange p seq off dly s) := by
  have m2 : Nat.testBit 2 κ = false := testBit_sub rfl hk
  have m130 : Nat.testBit 130 κ = false := testBit_sub rfl hk
  have m1024 : Nat.testBit 1024 κ = false := testBit_sub rfl hk
  have m8192 : Nat.testBit 8192 κ = false := testBit_sub rfl hk
  have m534666 : Nat.testBit 534666 κ = false := testBit_sub rfl hk
  unfold finishExchange
  try dsimp only
  repeat' first
    | with_reducible exact hF
    | with_reducible assumption
    | with_reducible refine State_setCan_frame m8192 ?_
    | with_reducible refine State_incMod_frame m2 ?_
    | with_reducible refine raise_frame m130 ?_
    | with_reducible refine servo_frame m534666 ?_
    | with_reducible refine linkReport_frame m1024 ?_
    | with_reducible refine wrs_frame m2 ?_
    | split

theorem completeExchange_frame {κ : Nat} {σ : State} {p : Nat} {s : State} (hk : Nat.testBit 535690 κ = false)
    (h : Frame κ σ s) : Frame κ σ (completeExchange p s) := by
  have m1 : Nat.testBit 8 κ = false := testBit_sub rfl hk
  unfold completeExchange
  split
  · exact h
  · split
    · exact finishExchange_frame (testBit_sub rfl hk) (halfFree_frame m1 (halfFree_frame m1 h))
    · exact h

theorem peerTime_frame {κ : Nat} {σ : State} {p : Nat} {seq : Nat} {k : Nat} {v : Nat} {s : State} (hk : Nat.testBit 535690 κ = false) (hF : Frame κ σ s) :
    Frame κ σ (peerTime p seq k v s) := by
  have m535690 := hk
  have m8192 : Nat.testBit 8192 κ = false := testBit_sub rfl hk
  unfold peerTime
  try dsimp only
  repeat' first
    | with_reducible exact hF
    | with_reducible assumption
    | with_reducible refine completeExchange_frame m535690 ?_
    | with_reducible refine setTime_frame m8192 ?_
    | with_reducible refine Frame.ite ?_ ?_
    | split

theorem execTtx_frame {κ : Nat} {σ : State} {port : CanPort} {x : XchTag} {ns : BitVec 22} {fr : BitVec 8} {s : State} (hk : Nat.testBit 535690 κ = false) (hF : Frame κ σ s) :
    FrameO κ σ (execTtx port x ns fr s) := by
  have m535690 := hk
  unfold execTtx
  try dsimp only
  repeat' first
    | with_reducible exact hF
    | with_reducible assumption
    | with_reducible refine peerTime_frame m535690 ?_
    | with_reducible refine FrameO.next ?_
    | with_reducible refine FrameO.ite ?_ ?_
    | with_reducible refine Frame.ite ?_ ?_
    | split

theorem execTrx_frame {κ : Nat} {σ : State} {port : CanPort} {x : XchTag} {ns : BitVec 22} {fr : BitVec 8} {s : State} (hk : Nat.testBit 535690 κ = false) (hF : Frame κ σ s) :
    FrameO κ σ (execTrx port x ns fr s) := by
  have m535690 := hk
  unfold execTrx
  try dsimp only
  repeat' first
    | with_reducible exact hF
    | with_reducible assumption
    | with_reducible refine peerTime_frame m535690 ?_
    | with_reducible refine FrameO.next ?_
    | with_reducible refine FrameO.ite ?_ ?_
    | with_reducible refine Frame.ite ?_ ?_
    | split

theorem execExchangeAbandon_frame {κ : Nat} {σ : State} {port : CanPort} {s : State} (hk : Nat.testBit 8322 κ = false) (hF : Frame κ σ s) :
    FrameO κ σ (execExchangeAbandon port s) := by
  have m2 : Nat.testBit 2 κ = false := testBit_sub rfl hk
  have m130 : Nat.testBit 130 κ = false := testBit_sub rfl hk
  have m8192 : Nat.testBit 8192 κ = false := testBit_sub rfl hk
  unfold execExchangeAbandon
  try dsimp only
  repeat' first
    | with_reducible exact hF
    | with_reducible assumption
    | with_reducible refine State_setCan_frame m8192 ?_
    | with_reducible refine State_inc_frame m2 ?_
    | with_reducible refine setLock_frame m130 ?_
    | with_reducible refine FrameO.next ?_
    | with_reducible refine FrameO.ite ?_ ?_
    | with_reducible refine Frame.ite ?_ ?_
    | split

theorem showEvt_frame {κ : Nat} {σ : State} {e : Nat} {s : State} (hk : Nat.testBit 2097152 κ = false) (hF : Frame κ σ s) :
    Frame κ σ (showEvt e s) := by
  have m2097152 := hk
  unfold showEvt
  try dsimp only
  repeat' first
    | with_reducible exact hF
    | with_reducible assumption
    | with_reducible refine State_setPin_frame m2097152 ?_
    | with_reducible refine Frame.ite ?_ ?_
    | split

theorem driveEvt_frame {κ : Nat} {σ : State} {e : Nat} {b : Bool} {s : State} (hk : Nat.testBit 6291472 κ = false) (hF : Frame κ σ s) :
    Frame κ σ (driveEvt e b s) := by
  have m16 : Nat.testBit 16 κ = false := testBit_sub rfl hk
  have m2097152 : Nat.testBit 2097152 κ = false := testBit_sub rfl hk
  have m4194304 : Nat.testBit 4194304 κ = false := testBit_sub rfl hk
  unfold driveEvt
  try dsimp only
  repeat' first
    | with_reducible exact hF
    | with_reducible assumption
    | with_reducible refine showEvt_frame m2097152 ?_
    | with_reducible refine State_setEvt_frame m4194304 ?_
    | with_reducible refine State_emit_frame m16 ?_

theorem applyPins_frame {κ : Nat} {σ : State} {s : State} (hk : Nat.testBit 2097168 κ = false) (hF : Frame κ σ s) :
    Frame κ σ (applyPins s) := by
  have m16 : Nat.testBit 16 κ = false := testBit_sub rfl hk
  have m2097152 : Nat.testBit 2097152 κ = false := testBit_sub rfl hk
  unfold applyPins
  try dsimp only
  repeat' first
    | with_reducible exact hF
    | with_reducible assumption
    | with_reducible refine showIndicator_frame m16 ?_
    | with_reducible refine showEvt_frame m2097152 ?_
    | with_reducible refine forAll_frame (fun _ _ _ => ?_) ?_
    | split
    | (apply Frame.lit m2097152 rfl; case e => constructor <;> (try dsimp only) <;> first | exact .inl rfl | exact .inr rfl)

theorem fireCompare_frame {κ : Nat} {σ : State} {k : Nat} {s : State} (hk : Nat.testBit 6291602 κ = false) (hF : Frame κ σ s) :
    Frame κ σ (fireCompare k s) := by
  have m2 : Nat.testBit 2 κ = false := testBit_sub rfl hk
  have m130 : Nat.testBit 130 κ = false := testBit_sub rfl hk
  have m6291472 : Nat.testBit 6291472 κ = false := testBit_sub rfl hk
  unfold fireCompare
  try dsimp only
  repeat' first
    | with_reducible exact hF
    | with_reducible assumption
    | with_reducible refine raise_frame m130 ?_
    | with_reducible refine driveEvt_frame m6291472 ?_
    | with_reducible refine State_wr_frame m2 ?_

theorem execCompare_frame {κ : Nat} {σ : State} {e : EvtPin} {s : State} (hk : Nat.testBit 6291602 κ = false) (hF : Frame κ σ s) :
    FrameO κ σ (execCompare e s) := by
  have m6291602 := hk
  unfold execCompare
  try dsimp only
  repeat' first
    | with_reducible exact hF
    | with_reducible assumption
    | with_reducible refine fireCompare_frame m6291602 ?_
    | with_reducible refine FrameO.next ?_
    | with_reducible refine FrameO.ite ?_ ?_
    | with_reducible refine Frame.ite ?_ ?_
    | split

theorem execRasterCompare_frame {κ : Nat} {σ : State} {e : EvtPin} {s : State} (hk : Nat.testBit 6291602 κ = false) (hF : Frame κ σ s) :
    FrameO κ σ (execRasterCompare e s) := by
  have m130 : Nat.testBit 130 κ = false := testBit_sub rfl hk
  have m6291472 : Nat.testBit 6291472 κ = false := testBit_sub rfl hk
  unfold execRasterCompare
  try dsimp only
  repeat' first
    | with_reducible exact hF
    | with_reducible assumption
    | with_reducible refine raise_frame m130 ?_
    | with_reducible refine driveEvt_frame m6291472 ?_
    | with_reducible refine FrameO.next ?_
    | with_reducible refine FrameO.ite ?_ ?_
    | with_reducible refine Frame.ite ?_ ?_
    | split

theorem execPulseEnd_frame {κ : Nat} {σ : State} {e : EvtPin} {s : State} (hk : Nat.testBit 6291472 κ = false) (hF : Frame κ σ s) :
    FrameO κ σ (execPulseEnd e s) := by
  have m6291472 := hk
  unfold execPulseEnd
  try dsimp only
  repeat' first
    | with_reducible exact hF
    | with_reducible assumption
    | with_reducible refine driveEvt_frame m6291472 ?_
    | with_reducible refine FrameO.next ?_
    | with_reducible refine FrameO.ite ?_ ?_
    | with_reducible refine Frame.ite ?_ ?_
    | split

theorem wrEvctl_frame {κ : Nat} {σ : State} {e : Nat} {v : Nat} {s : State} (hk : Nat.testBit 6291602 κ = false) (hF : Frame κ σ s) :
    Frame κ σ (wrEvctl e v s) := by
  have m130 : Nat.testBit 130 κ = false := testBit_sub rfl hk
  have m2097152 : Nat.testBit 2097152 κ = false := testBit_sub rfl hk
  have m6291472 : Nat.testBit 6291472 κ = false := testBit_sub rfl hk
  unfold wrEvctl
  try dsimp only
  repeat' first
    | with_reducible exact hF
    | with_reducible assumption
    | with_reducible refine wrWord_frame m130 ?_
    | with_reducible refine driveEvt_frame m6291472 ?_
    | with_reducible refine showEvt_frame m2097152 ?_
    | with_reducible refine Frame.ite ?_ ?_
    | split

theorem wrEvras_frame {κ : Nat} {σ : State} {e : Nat} {v : Nat} {s : State} (hk : Nat.testBit 4194434 κ = false) (hF : Frame κ σ s) :
    Frame κ σ (wrEvras e v s) := by
  have m130 : Nat.testBit 130 κ = false := testBit_sub rfl hk
  have m4194304 : Nat.testBit 4194304 κ = false := testBit_sub rfl hk
  unfold wrEvras
  try dsimp only
  repeat' first
    | with_reducible exact hF
    | with_reducible assumption
    | with_reducible refine wrWord_frame m130 ?_
    | with_reducible refine State_setEvt_frame m4194304 ?_

theorem execCapture_frame {κ : Nat} {σ : State} {e : EvtPin} {rising : Bool} {s : State} (hk : Nat.testBit 2178 κ = false) (hF : Frame κ σ s) :
    FrameO κ σ (execCapture e rising s) := by
  have m2 : Nat.testBit 2 κ = false := testBit_sub rfl hk
  have m130 : Nat.testBit 130 κ = false := testBit_sub rfl hk
  have m2050 : Nat.testBit 2050 κ = false := testBit_sub rfl hk
  unfold execCapture
  try dsimp only
  repeat' first
    | with_reducible exact hF
    | with_reducible assumption
    | with_reducible refine raise_frame m130 ?_
    | with_reducible refine State_wr_frame m2 ?_
    | with_reducible refine startBase_frame m2050 ?_
    | with_reducible refine wrs_frame m2 ?_
    | with_reducible refine forAll_frame (fun _ _ _ => ?_) ?_
    | with_reducible refine FrameO.next ?_
    | with_reducible refine FrameO.ite ?_ ?_
    | with_reducible refine Frame.ite ?_ ?_
    | split

end Sys2Proof.Laws
end

