-- ==== Sys2Proof/Laws/FrameUsb.lean ====
section
/-! SUPPORT. What each operation of Machine/Usb.lean leaves alone. -/

namespace Sys2Proof.Laws

open Sys2Proof Sys2Proof.Machine

set_option linter.unusedTactic false
set_option linter.unreachableTactic false
set_option linter.unusedVariables false

theorem treeDrop_frame {κ : Nat} {σ : State} {n : Nat} {s : State} (hk : Nat.testBit 8388610 κ = false) (hF : Frame κ σ s) :
    Frame κ σ (treeDrop n s) := by
  have m2 : Nat.testBit 2 κ = false := testBit_sub rfl hk
  have m8388608 : Nat.testBit 8388608 κ = false := testBit_sub rfl hk
  unfold treeDrop
  try dsimp only
  repeat' first
    | with_reducible exact hF
    | with_reducible assumption
    | with_reducible refine restore_frame m2 ?_
    | with_reducible refine State_setTree_frame m8388608 ?_

theorem treeSwitch_frame {κ : Nat} {σ : State} {n : Nat} {b : Bool} {s : State} (hk : Nat.testBit 18 κ = false) (hF : Frame κ σ s) :
    Frame κ σ (treeSwitch n b s) := by
  have m2 : Nat.testBit 2 κ = false := testBit_sub rfl hk
  have m16 : Nat.testBit 16 κ = false := testBit_sub rfl hk
  unfold treeSwitch
  try dsimp only
  repeat' first
    | with_reducible exact hF
    | with_reducible assumption
    | with_reducible refine State_setB_frame m2 ?_
    | with_reducible refine State_emit_frame m16 ?_
    | with_reducible refine Frame.ite ?_ ?_
    | split

theorem treeOff_frame {κ : Nat} {σ : State} {n : Nat} {s : State} (hk : Nat.testBit 8388626 κ = false) (hF : Frame κ σ s) :
    Frame κ σ (treeOff n s) := by
  have m2 : Nat.testBit 2 κ = false := testBit_sub rfl hk
  have m18 : Nat.testBit 18 κ = false := testBit_sub rfl hk
  have m8388608 : Nat.testBit 8388608 κ = false := testBit_sub rfl hk
  have m8388610 : Nat.testBit 8388610 κ = false := testBit_sub rfl hk
  unfold treeOff
  try dsimp only
  repeat' first
    | with_reducible exact hF
    | with_reducible assumption
    | with_reducible refine treeSwitch_frame m18 ?_
    | with_reducible refine treeDrop_frame m8388610 ?_
    | with_reducible refine State_setTree_frame m8388608 ?_
    | with_reducible refine State_wr_frame m2 ?_

theorem functionReset_frame {κ : Nat} {σ : State} {s : State} (hk : Nat.testBit 8388738 κ = false) (hF : Frame κ σ s) :
    Frame κ σ (functionReset s) := by
  have m2 : Nat.testBit 2 κ = false := testBit_sub rfl hk
  have m8388736 : Nat.testBit 8388736 κ = false := testBit_sub rfl hk
  unfold functionReset
  try dsimp only
  repeat' first
    | with_reducible exact hF
    | with_reducible assumption
    | with_reducible refine wrs_frame m2 ?_
    | (apply Frame.lit m8388736 rfl; case e => constructor <;> (try dsimp only) <;> first | exact .inl rfl | exact .inr rfl)

theorem treeReset_frame {κ : Nat} {σ : State} {s : State} (hk : Nat.testBit 8388754 κ = false) (hF : Frame κ σ s) :
    Frame κ σ (treeReset s) := by
  have m2 : Nat.testBit 2 κ = false := testBit_sub rfl hk
  have m8388626 : Nat.testBit 8388626 κ = false := testBit_sub rfl hk
  have m8388738 : Nat.testBit 8388738 κ = false := testBit_sub rfl hk
  unfold treeReset
  try dsimp only
  repeat' first
    | with_reducible exact hF
    | with_reducible assumption
    | with_reducible refine treeOff_frame m8388626 ?_
    | with_reducible refine functionReset_frame m8388738 ?_
    | with_reducible refine State_wr_frame m2 ?_
    | with_reducible refine forAll_frame (fun _ _ _ => ?_) ?_

theorem updateTree_frame {κ : Nat} {σ : State} {s : State} (hk : Nat.testBit 8388754 κ = false) (hF : Frame κ σ s) :
    Frame κ σ (updateTree s) := by
  have m8388754 := hk
  have m2 : Nat.testBit 2 κ = false := testBit_sub rfl hk
  have m16 : Nat.testBit 16 κ = false := testBit_sub rfl hk
  have m130 : Nat.testBit 130 κ = false := testBit_sub rfl hk
  have m8388610 : Nat.testBit 8388610 κ = false := testBit_sub rfl hk
  unfold updateTree
  try dsimp only
  repeat' first
    | with_reducible exact hF
    | with_reducible assumption
    | with_reducible refine treeDrop_frame m8388610 ?_
    | with_reducible refine State_wr_frame m2 ?_
    | with_reducible refine treeReset_frame m8388754 ?_
    | with_reducible refine State_inc_frame m2 ?_
    | with_reducible refine raise_frame m130 ?_
    | with_reducible refine State_emit_frame m16 ?_
    | with_reducible refine wrs_frame m2 ?_
    | with_reducible refine Frame.ite ?_ ?_
    | split

theorem treeDetach_frame {κ : Nat} {σ : State} {p : Nat} {s : State} (hk : Nat.testBit 8388754 κ = false) (hF : Frame κ σ s) :
    Frame κ σ (treeDetach p s) := by
  have m8388754 := hk
  have m8388608 : Nat.testBit 8388608 κ = false := testBit_sub rfl hk
  unfold treeDetach
  try dsimp only
  repeat' first
    | with_reducible exact hF
    | with_reducible assumption
    | with_reducible refine updateTree_frame m8388754 ?_
    | with_reducible refine Frame.ite ?_ ?_
    | split
    | (apply Frame.lit m8388608 rfl; case e => constructor <;> (try dsimp only) <;> first | exact .inl rfl | exact .inr rfl)

theorem execPassOver_frame {κ : Nat} {σ : State} {crown : Crown} {s : State} (hk : Nat.testBit 8388754 κ = false) (hF : Frame κ σ s) :
    FrameO κ σ (execPassOver crown s) := by
  have m8388754 := hk
  have m8388608 : Nat.testBit 8388608 κ = false := testBit_sub rfl hk
  unfold execPassOver
  try dsimp only
  repeat' first
    | with_reducible exact hF
    | with_reducible assumption
    | with_reducible refine updateTree_frame m8388754 ?_
    | with_reducible refine FrameO.next ?_
    | with_reducible refine FrameO.ite ?_ ?_
    | with_reducible refine Frame.ite ?_ ?_
    | split
    | (apply Frame.lit m8388608 rfl; case e => constructor <;> (try dsimp only) <;> first | exact .inl rfl | exact .inr rfl)

theorem execUpstreamChange_frame {κ : Nat} {σ : State} {s : State} (hk : Nat.testBit 8388754 κ = false) (hF : Frame κ σ s) :
    FrameO κ σ (execUpstreamChange s) := by
  have m8388754 := hk
  unfold execUpstreamChange
  try dsimp only
  repeat' first
    | with_reducible exact hF
    | with_reducible assumption
    | with_reducible refine updateTree_frame m8388754 ?_
    | with_reducible refine FrameO.next ?_

theorem execBusReset_frame {κ : Nat} {σ : State} {high : Bool} {s : State} (hk : Nat.testBit 8388754 κ = false) (hF : Frame κ σ s) :
    FrameO κ σ (execBusReset high s) := by
  have m8388754 := hk
  have m2 : Nat.testBit 2 κ = false := testBit_sub rfl hk
  have m130 : Nat.testBit 130 κ = false := testBit_sub rfl hk
  unfold execBusReset
  try dsimp only
  repeat' first
    | with_reducible exact hF
    | with_reducible assumption
    | with_reducible refine raise_frame m130 ?_
    | with_reducible refine treeReset_frame m8388754 ?_
    | with_reducible refine State_wr_frame m2 ?_
    | with_reducible refine State_inc_frame m2 ?_
    | with_reducible refine FrameO.next ?_
    | with_reducible refine FrameO.ite ?_ ?_
    | with_reducible refine Frame.ite ?_ ?_
    | split

theorem resetBehind_frame {κ : Nat} {σ : State} {k : Nat} {s : State} (hk : Nat.testBit 8388754 κ = false) (hF : Frame κ σ s) :
    Frame κ σ (resetBehind k s) := by
  have m8388626 : Nat.testBit 8388626 κ = false := testBit_sub rfl hk
  have m8388738 : Nat.testBit 8388738 κ = false := testBit_sub rfl hk
  unfold resetBehind
  try dsimp only
  repeat' first
    | with_reducible exact hF
    | with_reducible assumption
    | with_reducible refine functionReset_frame m8388738 ?_
    | with_reducible refine treeOff_frame m8388626 ?_
    | with_reducible refine forAll_frame (fun _ _ _ => ?_) ?_
    | with_reducible refine Frame.ite ?_ ?_
    | split

theorem execPortReset_frame {κ : Nat} {σ : State} {n : TreePort} {speed : Fin 4} {s : State} (hk : Nat.testBit 8388754 κ = false) (hF : Frame κ σ s) :
    FrameO κ σ (execPortReset n speed s) := by
  have m8388754 := hk
  have m2 : Nat.testBit 2 κ = false := testBit_sub rfl hk
  have m8388608 : Nat.testBit 8388608 κ = false := testBit_sub rfl hk
  unfold execPortReset
  try dsimp only
  repeat' first
    | with_reducible exact hF
    | with_reducible assumption
    | with_reducible refine resetBehind_frame m8388754 ?_
    | with_reducible refine State_setTree_frame m8388608 ?_
    | with_reducible refine wrs_frame m2 ?_
    | with_reducible refine FrameO.next ?_
    | with_reducible refine FrameO.ite ?_ ?_
    | with_reducible refine Frame.ite ?_ ?_
    | split

theorem execDeviceConnect_frame {κ : Nat} {σ : State} {n : TreePort} {pullup : Option Bool} {s : State} (hk : Nat.testBit 8388610 κ = false) (hF : Frame κ σ s) :
    FrameO κ σ (execDeviceConnect n pullup s) := by
  have m8388610 := hk
  have m2 : Nat.testBit 2 κ = false := testBit_sub rfl hk
  have m8388608 : Nat.testBit 8388608 κ = false := testBit_sub rfl hk
  unfold execDeviceConnect
  try dsimp only
  repeat' first
    | with_reducible exact hF
    | with_reducible assumption
    | with_reducible refine State_setTree_frame m8388608 ?_
    | with_reducible refine treeDrop_frame m8388610 ?_
    | with_reducible refine wrs_frame m2 ?_
    | with_reducible refine FrameO.next ?_
    | with_reducible refine FrameO.ite ?_ ?_
    | with_reducible refine Frame.ite ?_ ?_
    | split

theorem treeOvercurrent_frame {κ : Nat} {σ : State} {n : Nat} {s : State} (hk : Nat.testBit 8388754 κ = false) (hF : Frame κ σ s) :
    Frame κ σ (treeOvercurrent n s) := by
  have m2 : Nat.testBit 2 κ = false := testBit_sub rfl hk
  have m18 : Nat.testBit 18 κ = false := testBit_sub rfl hk
  have m130 : Nat.testBit 130 κ = false := testBit_sub rfl hk
  have m8388608 : Nat.testBit 8388608 κ = false := testBit_sub rfl hk
  have m8388610 : Nat.testBit 8388610 κ = false := testBit_sub rfl hk
  unfold treeOvercurrent
  try dsimp only
  repeat' first
    | with_reducible exact hF
    | with_reducible assumption
    | with_reducible refine treeSwitch_frame m18 ?_
    | with_reducible refine treeDrop_frame m8388610 ?_
    | with_reducible refine raise_frame m130 ?_
    | with_reducible refine State_setTree_frame m8388608 ?_
    | with_reducible refine State_wr_frame m2 ?_
    | with_reducible refine State_inc_frame m2 ?_

theorem execOvercurrent_frame {κ : Nat} {σ : State} {n : TreePort} {s : State} (hk : Nat.testBit 8388754 κ = false) (hF : Frame κ σ s) :
    FrameO κ σ (execOvercurrent n s) := by
  have m8388754 := hk
  unfold execOvercurrent
  try dsimp only
  repeat' first
    | with_reducible exact hF
    | with_reducible assumption
    | with_reducible refine treeOvercurrent_frame m8388754 ?_
    | with_reducible refine FrameO.next ?_
    | with_reducible refine FrameO.ite ?_ ?_
    | with_reducible refine Frame.ite ?_ ?_
    | split

theorem execBabble_frame {κ : Nat} {σ : State} {n : TreePort} {s : State} (hk : Nat.testBit 8388738 κ = false) (hF : Frame κ σ s) :
    FrameO κ σ (execBabble n s) := by
  have m2 : Nat.testBit 2 κ = false := testBit_sub rfl hk
  have m130 : Nat.testBit 130 κ = false := testBit_sub rfl hk
  have m8388608 : Nat.testBit 8388608 κ = false := testBit_sub rfl hk
  unfold execBabble
  try dsimp only
  repeat' first
    | with_reducible exact hF
    | with_reducible assumption
    | with_reducible refine raise_frame m130 ?_
    | with_reducible refine State_wr_frame m2 ?_
    | with_reducible refine State_inc_frame m2 ?_
    | with_reducible refine State_setTree_frame m8388608 ?_
    | with_reducible refine FrameO.next ?_
    | with_reducible refine FrameO.ite ?_ ?_
    | with_reducible refine Frame.ite ?_ ?_
    | split

theorem execPortPower_frame {κ : Nat} {σ : State} {n : TreePort} {on : Bool} {s : State} (hk : Nat.testBit 8388626 κ = false) (hF : Frame κ σ s) :
    FrameO κ σ (execPortPower n on s) := by
  have m2 : Nat.testBit 2 κ = false := testBit_sub rfl hk
  have m18 : Nat.testBit 18 κ = false := testBit_sub rfl hk
  have m8388608 : Nat.testBit 8388608 κ = false := testBit_sub rfl hk
  have m8388610 : Nat.testBit 8388610 κ = false := testBit_sub rfl hk
  unfold execPortPower
  try dsimp only
  repeat' first
    | with_reducible exact hF
    | with_reducible assumption
    | with_reducible refine State_setTree_frame m8388608 ?_
    | with_reducible refine treeSwitch_frame m18 ?_
    | with_reducible refine treeDrop_frame m8388610 ?_
    | with_reducible refine State_wr_frame m2 ?_
    | with_reducible refine wrs_frame m2 ?_
    | with_reducible refine FrameO.next ?_
    | with_reducible refine FrameO.ite ?_ ?_
    | with_reducible refine Frame.ite ?_ ?_
    | split

theorem execGlobalSuspend_frame {κ : Nat} {σ : State} {s : State} (hk : Nat.testBit 130 κ = false) (hF : Frame κ σ s) :
    FrameO κ σ (execGlobalSuspend s) := by
  have m130 := hk
  have m2 : Nat.testBit 2 κ = false := testBit_sub rfl hk
  unfold execGlobalSuspend
  try dsimp only
  repeat' first
    | with_reducible exact hF
    | with_reducible assumption
    | with_reducible refine raise_frame m130 ?_
    | with_reducible refine State_wr_frame m2 ?_
    | with_reducible refine FrameO.next ?_
    | with_reducible refine FrameO.ite ?_ ?_
    | with_reducible refine Frame.ite ?_ ?_
    | split

theorem execGlobalSuspendEnd_frame {κ : Nat} {σ : State} {s : State} (hk : Nat.testBit 130 κ = false) (hF : Frame κ σ s) :
    FrameO κ σ (execGlobalSuspendEnd s) := by
  have m130 := hk
  have m2 : Nat.testBit 2 κ = false := testBit_sub rfl hk
  have m128 : Nat.testBit 128 κ = false := testBit_sub rfl hk
  unfold execGlobalSuspendEnd
  try dsimp only
  repeat' first
    | with_reducible exact hF
    | with_reducible assumption
    | with_reducible refine raise_frame m130 ?_
    | with_reducible refine State_wr_frame m2 ?_
    | with_reducible refine FrameO.next ?_
    | with_reducible refine FrameO.ite ?_ ?_
    | with_reducible refine Frame.ite ?_ ?_
    | split
    | (apply Frame.lit m128 rfl; case e => constructor <;> (try dsimp only) <;> first | exact .inl rfl | exact .inr rfl)

theorem execPortSuspend_frame {κ : Nat} {σ : State} {n : TreePort} {s : State} (hk : Nat.testBit 2 κ = false) (hF : Frame κ σ s) :
    FrameO κ σ (execPortSuspend n s) := by
  have m2 := hk
  unfold execPortSuspend
  try dsimp only
  repeat' first
    | with_reducible exact hF
    | with_reducible assumption
    | with_reducible refine State_wr_frame m2 ?_
    | with_reducible refine FrameO.next ?_
    | with_reducible refine FrameO.ite ?_ ?_
    | with_reducible refine Frame.ite ?_ ?_
    | split

theorem execRemoteWake_frame {κ : Nat} {σ : State} {n : TreePort} {enabled : Bool} {s : State} (hk : Nat.testBit 8388754 κ = false) (hF : Frame κ σ s) :
    FrameO κ σ (execRemoteWake n enabled s) := by
  have m2 : Nat.testBit 2 κ = false := testBit_sub rfl hk
  have m16 : Nat.testBit 16 κ = false := testBit_sub rfl hk
  have m130 : Nat.testBit 130 κ = false := testBit_sub rfl hk
  have m8388608 : Nat.testBit 8388608 κ = false := testBit_sub rfl hk
  unfold execRemoteWake
  try dsimp only
  repeat' first
    | with_reducible exact hF
    | with_reducible assumption
    | with_reducible refine raise_frame m130 ?_
    | with_reducible refine State_wr_frame m2 ?_
    | with_reducible refine State_setTree_frame m8388608 ?_
    | with_reducible refine State_emit_frame m16 ?_
    | with_reducible refine FrameO.next ?_
    | with_reducible refine FrameO.ite ?_ ?_
    | with_reducible refine Frame.ite ?_ ?_
    | split

theorem execClearfeaturePortSuspend_frame {κ : Nat} {σ : State} {n : TreePort} {s : State} (hk : Nat.testBit 8388608 κ = false) (hF : Frame κ σ s) :
    FrameO κ σ (execClearfeaturePortSuspend n s) := by
  have m8388608 := hk
  unfold execClearfeaturePortSuspend
  try dsimp only
  repeat' first
    | with_reducible exact hF
    | with_reducible assumption
    | with_reducible refine State_setTree_frame m8388608 ?_
    | with_reducible refine FrameO.next ?_
    | with_reducible refine FrameO.ite ?_ ?_
    | with_reducible refine Frame.ite ?_ ?_
    | split

theorem execResumeEnd_frame {κ : Nat} {σ : State} {n : TreePort} {s : State} (hk : Nat.testBit 8388738 κ = false) (hF : Frame κ σ s) :
    FrameO κ σ (execResumeEnd n s) := by
  have m2 : Nat.testBit 2 κ = false := testBit_sub rfl hk
  have m130 : Nat.testBit 130 κ = false := testBit_sub rfl hk
  have m8388608 : Nat.testBit 8388608 κ = false := testBit_sub rfl hk
  unfold execResumeEnd
  try dsimp only
  repeat' first
    | with_reducible exact hF
    | with_reducible assumption
    | with_reducible refine State_wr_frame m2 ?_
    | with_reducible refine State_setTree_frame m8388608 ?_
    | with_reducible refine raise_frame m130 ?_
    | with_reducible refine FrameO.next ?_
    | with_reducible refine FrameO.ite ?_ ?_
    | with_reducible refine Frame.ite ?_ ?_
    | split

theorem execClearTtBuffer_frame {κ : Nat} {σ : State} {n : TreePort} {buf : Byte} {s : State} (hk : Nat.testBit 8388608 κ = false) (hF : Frame κ σ s) :
    FrameO κ σ (execClearTtBuffer n buf s) := by
  have m8388608 := hk
  unfold execClearTtBuffer
  try dsimp only
  repeat' first
    | with_reducible exact hF
    | with_reducible assumption
    | with_reducible refine State_setTree_frame m8388608 ?_
    | with_reducible refine FrameO.next ?_

theorem execResetTt_frame {κ : Nat} {σ : State} {n : TreePort} {s : State} (hk : Nat.testBit 8388608 κ = false) (hF : Frame κ σ s) :
    FrameO κ σ (execResetTt n s) := by
  have m8388608 := hk
  unfold execResetTt
  try dsimp only
  repeat' first
    | with_reducible exact hF
    | with_reducible assumption
    | with_reducible refine State_setTree_frame m8388608 ?_
    | with_reducible refine FrameO.next ?_

theorem resetEp1_frame {κ : Nat} {σ : State} {s : State} (hk : Nat.testBit 8388608 κ = false) (hF : Frame κ σ s) :
    Frame κ σ (resetEp1 s) := by
  have m8388608 := hk
  unfold resetEp1
  try dsimp only
  repeat' first
    | with_reducible exact hF
    | with_reducible assumption
    | (apply Frame.lit m8388608 rfl; case e => constructor <;> (try dsimp only) <;> first | exact .inl rfl | exact .inr rfl)

theorem execClearFeatureEndpointHalt_frame {κ : Nat} {σ : State} {s : State} (hk : Nat.testBit 8388738 κ = false) (hF : Frame κ σ s) :
    FrameO κ σ (execClearFeatureEndpointHalt s) := by
  have m2 : Nat.testBit 2 κ = false := testBit_sub rfl hk
  have m128 : Nat.testBit 128 κ = false := testBit_sub rfl hk
  have m8388608 : Nat.testBit 8388608 κ = false := testBit_sub rfl hk
  unfold execClearFeatureEndpointHalt
  try dsimp only
  repeat' first
    | with_reducible exact hF
    | with_reducible assumption
    | with_reducible refine resetEp1_frame m8388608 ?_
    | with_reducible refine State_wr_frame m2 ?_
    | with_reducible refine FrameO.next ?_
    | (apply Frame.lit m128 rfl; case e => constructor <;> (try dsimp only) <;> first | exact .inl rfl | exact .inr rfl)

theorem execSetConfiguration_frame {κ : Nat} {σ : State} {cfg : Byte} {s : State} (hk : Nat.testBit 8388626 κ = false) (hF : Frame κ σ s) :
    FrameO κ σ (execSetConfiguration cfg s) := by
  have m2 : Nat.testBit 2 κ = false := testBit_sub rfl hk
  have m16 : Nat.testBit 16 κ = false := testBit_sub rfl hk
  have m8388608 : Nat.testBit 8388608 κ = false := testBit_sub rfl hk
  unfold execSetConfiguration
  try dsimp only
  repeat' first
    | with_reducible exact hF
    | with_reducible assumption
    | with_reducible refine resetEp1_frame m8388608 ?_
    | with_reducible refine State_emit_frame m16 ?_
    | with_reducible refine wrs_frame m2 ?_
    | with_reducible refine FrameO.next ?_
    | with_reducible refine FrameO.ite ?_ ?_
    | with_reducible refine Frame.ite ?_ ?_
    | split

theorem rebuildReport_frame {κ : Nat} {σ : State} {s : State} (hk : Nat.testBit 128 κ = false) (hF : Frame κ σ s) :
    Frame κ σ (rebuildReport s) := by
  have m128 := hk
  unfold rebuildReport
  try dsimp only
  repeat' first
    | with_reducible exact hF
    | with_reducible assumption
    | with_reducible refine Frame.ite ?_ ?_
    | split
    | (apply Frame.lit m128 rfl; case e => constructor <;> (try dsimp only) <;> first | exact .inl rfl | exact .inr rfl)

theorem execSetInterface_frame {κ : Nat} {σ : State} {alt : Byte} {s : State} (hk : Nat.testBit 8388754 κ = false) (hF : Frame κ σ s) :
    FrameO κ σ (execSetInterface alt s) := by
  have m2 : Nat.testBit 2 κ = false := testBit_sub rfl hk
  have m16 : Nat.testBit 16 κ = false := testBit_sub rfl hk
  have m128 : Nat.testBit 128 κ = false := testBit_sub rfl hk
  have m8388608 : Nat.testBit 8388608 κ = false := testBit_sub rfl hk
  unfold execSetInterface
  try dsimp only
  repeat' first
    | with_reducible exact hF
    | with_reducible assumption
    | with_reducible refine resetEp1_frame m8388608 ?_
    | with_reducible refine rebuildReport_frame m128 ?_
    | with_reducible refine State_emit_frame m16 ?_
    | with_reducible refine wrs_frame m2 ?_
    | with_reducible refine FrameO.next ?_
    | with_reducible refine FrameO.ite ?_ ?_
    | with_reducible refine Frame.ite ?_ ?_
    | split

end Sys2Proof.Laws
end

