-- ==== Sys2Proof/Laws/FrameSupply.lean ====
section
/-! SUPPORT. What each operation of Machine/Supply.lean leaves alone. -/

namespace Sys2Proof.Laws

open Sys2Proof Sys2Proof.Machine

set_option linter.unusedTactic false
set_option linter.unreachableTactic false
set_option linter.unusedVariables false

theorem sumGrants_frame {κ : Nat} {σ : State} {s : State} (hk : Nat.testBit 2 κ = false) (hF : Frame κ σ s) :
    Frame κ σ (sumGrants s) := by
  have m2 := hk
  unfold sumGrants
  try dsimp only
  repeat' first
    | with_reducible exact hF
    | with_reducible assumption
    | with_reducible refine State_wr_frame m2 ?_

theorem withBeff_frame {κ : Nat} {σ : State} {f : State → State} {s : State} (hk : Nat.testBit 514 κ = false) (hf : ∀ u, Frame κ σ u → Frame κ σ (f u)) (hF : Frame κ σ s) :
    Frame κ σ (withBeff f s) := by
  have m514 := hk
  unfold withBeff
  try dsimp only
  repeat' first
    | with_reducible exact hF
    | with_reducible assumption
    | with_reducible refine hf _ ?_
    | with_reducible refine structuralEvent_frame m514 ?_
    | with_reducible refine Frame.ite ?_ ?_
    | split

theorem precomputeShed_frame {κ : Nat} {σ : State} {s : State} (hk : Nat.testBit 33554432 κ = false) (hF : Frame κ σ s) :
    Frame κ σ (precomputeShed s) := by
  have m33554432 := hk
  unfold precomputeShed
  try dsimp only
  repeat' first
    | with_reducible exact hF
    | with_reducible assumption
    | with_reducible refine Frame.ite ?_ ?_
    | split
    | (apply Frame.lit m33554432 rfl; case e => constructor <;> (try dsimp only) <;> first | exact .inl rfl | exact .inr rfl)

theorem updateExt_frame {κ : Nat} {σ : State} {s : State} (hk : Nat.testBit 33554562 κ = false) (hF : Frame κ σ s) :
    Frame κ σ (updateExt s) := by
  have m2 : Nat.testBit 2 κ = false := testBit_sub rfl hk
  have m130 : Nat.testBit 130 κ = false := testBit_sub rfl hk
  have m33554432 : Nat.testBit 33554432 κ = false := testBit_sub rfl hk
  unfold updateExt
  try dsimp only
  repeat' first
    | with_reducible exact hF
    | with_reducible assumption
    | with_reducible refine precomputeShed_frame m33554432 ?_
    | with_reducible refine raise_frame m130 ?_
    | with_reducible refine wrs_frame m2 ?_
    | with_reducible refine Frame.ite ?_ ?_
    | split

theorem closeChannel_frame {κ : Nat} {σ : State} {n : Nat} {fast : Bool} {rev : Bool} {s : State} (hk : Nat.testBit 18 κ = false) (hF : Frame κ σ s) :
    Frame κ σ (closeChannel n fast rev s) := by
  have m2 : Nat.testBit 2 κ = false := testBit_sub rfl hk
  have m16 : Nat.testBit 16 κ = false := testBit_sub rfl hk
  unfold closeChannel
  try dsimp only
  repeat' first
    | with_reducible exact hF
    | with_reducible assumption
    | with_reducible refine State_emit_frame m16 ?_
    | with_reducible refine wrs_frame m2 ?_
    | with_reducible refine Frame.ite ?_ ?_
    | split

theorem openAt_frame {κ : Nat} {σ : State} {ma : Nat} {n : Nat} {s : State} (hk : Nat.testBit 18 κ = false) (hF : Frame κ σ s) :
    Frame κ σ (openAt ma n s) := by
  have m2 : Nat.testBit 2 κ = false := testBit_sub rfl hk
  have m16 : Nat.testBit 16 κ = false := testBit_sub rfl hk
  unfold openAt
  try dsimp only
  repeat' first
    | with_reducible exact hF
    | with_reducible assumption
    | with_reducible refine State_emit_frame m16 ?_
    | with_reducible refine wrs_frame m2 ?_
    | with_reducible refine Frame.ite ?_ ?_
    | split

theorem openChannel_frame {κ : Nat} {σ : State} {n : Nat} {s : State} (hk : Nat.testBit 18 κ = false) (hF : Frame κ σ s) :
    Frame κ σ (openChannel n s) := by
  have m18 := hk
  unfold openChannel
  try dsimp only
  repeat' first
    | with_reducible exact hF
    | with_reducible assumption
    | with_reducible refine openAt_frame m18 ?_

theorem clearLatch_frame {κ : Nat} {σ : State} {n : Nat} {s : State} (hk : Nat.testBit 2 κ = false) (hF : Frame κ σ s) :
    Frame κ σ (clearLatch n s) := by
  have m2 := hk
  unfold clearLatch
  try dsimp only
  repeat' first
    | with_reducible exact hF
    | with_reducible assumption
    | with_reducible refine State_wr_frame m2 ?_
    | with_reducible refine Frame.ite ?_ ?_
    | split

theorem latchChannel_frame {κ : Nat} {σ : State} {n : Nat} {s : State} (hk : Nat.testBit 33554562 κ = false) (hF : Frame κ σ s) :
    Frame κ σ (latchChannel n s) := by
  have m2 : Nat.testBit 2 κ = false := testBit_sub rfl hk
  have m130 : Nat.testBit 130 κ = false := testBit_sub rfl hk
  have m33554432 : Nat.testBit 33554432 κ = false := testBit_sub rfl hk
  unfold latchChannel
  try dsimp only
  repeat' first
    | with_reducible exact hF
    | with_reducible assumption
    | with_reducible refine raise_frame m130 ?_
    | with_reducible refine State_wr_frame m2 ?_
    | with_reducible refine State_inc_frame m2 ?_
    | (apply Frame.lit m33554432 rfl; case e => constructor <;> (try dsimp only) <;> first | exact .inl rfl | exact .inr rfl)

theorem followMode_frame {κ : Nat} {σ : State} {n : Nat} {s : State} (hk : Nat.testBit 33554562 κ = false) (hF : Frame κ σ s) :
    Frame κ σ (followMode n s) := by
  have m33554562 := hk
  have m2 : Nat.testBit 2 κ = false := testBit_sub rfl hk
  unfold followMode
  try dsimp only
  repeat' first
    | with_reducible exact hF
    | with_reducible assumption
    | with_reducible refine latchChannel_frame m33554562 ?_
    | with_reducible refine wrs_frame m2 ?_
    | with_reducible refine Frame.ite ?_ ?_
    | split

theorem setTarget_frame {κ : Nat} {σ : State} {p : Nat} {t20 : Nat} {s : State} (hk : Nat.testBit 16777218 κ = false) (hF : Frame κ σ s) :
    Frame κ σ (setTarget p t20 s) := by
  have m2 : Nat.testBit 2 κ = false := testBit_sub rfl hk
  have m16777216 : Nat.testBit 16777216 κ = false := testBit_sub rfl hk
  unfold setTarget
  try dsimp only
  repeat' first
    | with_reducible exact hF
    | with_reducible assumption
    | with_reducible refine State_wr_frame m2 ?_
    | with_reducible refine State_setPdp_frame m16777216 ?_

theorem releaseSeed_frame {κ : Nat} {σ : State} {p : Nat} {s : State} (hk : Nat.testBit 2 κ = false) (hF : Frame κ σ s) :
    Frame κ σ (releaseSeed p s) := by
  have m2 := hk
  unfold releaseSeed
  try dsimp only
  repeat' first
    | with_reducible exact hF
    | with_reducible assumption
    | with_reducible refine State_wr_frame m2 ?_
    | with_reducible refine Frame.ite ?_ ?_
    | split

theorem pdDiscard_frame {κ : Nat} {σ : State} {p : Nat} {s : State} (hk : Nat.testBit 16777218 κ = false) (hF : Frame κ σ s) :
    Frame κ σ (pdDiscard p s) := by
  have m2 : Nat.testBit 2 κ = false := testBit_sub rfl hk
  have m16777216 : Nat.testBit 16777216 κ = false := testBit_sub rfl hk
  unfold pdDiscard
  try dsimp only
  repeat' first
    | with_reducible exact hF
    | with_reducible assumption
    | with_reducible refine releaseSeed_frame m2 ?_
    | with_reducible refine State_setPdp_frame m16777216 ?_
    | with_reducible refine wrs_frame m2 ?_

theorem treePortGone_frame {κ : Nat} {σ : State} {p : Nat} {s : State} (hk : Nat.testBit 8388610 κ = false) (hF : Frame κ σ s) :
    Frame κ σ (treePortGone p s) := by
  have m8388610 := hk
  have m8388608 : Nat.testBit 8388608 κ = false := testBit_sub rfl hk
  unfold treePortGone
  try dsimp only
  repeat' first
    | with_reducible exact hF
    | with_reducible assumption
    | with_reducible refine treeDrop_frame m8388610 ?_
    | with_reducible refine State_setTree_frame m8388608 ?_
    | with_reducible refine Frame.ite ?_ ?_
    | split

theorem supplyLost_frame {κ : Nat} {σ : State} {code : Nat} {s : State} (hk : Nat.testBit 33554434 κ = false) (hF : Frame κ σ s) :
    Frame κ σ (supplyLost code s) := by
  have m2 : Nat.testBit 2 κ = false := testBit_sub rfl hk
  have m33554432 : Nat.testBit 33554432 κ = false := testBit_sub rfl hk
  unfold supplyLost
  try dsimp only
  repeat' first
    | with_reducible exact hF
    | with_reducible assumption
    | with_reducible refine State_wr_frame m2 ?_
    | (apply Frame.lit m33554432 rfl; case e => constructor <;> (try dsimp only) <;> first | exact .inl rfl | exact .inr rfl)

theorem detachCore_frame {κ : Nat} {σ : State} {p : Nat} {s : State} (hk : Nat.testBit 194047634 κ = false) (hF : Frame κ σ s) :
    Frame κ σ (detachCore p s) := by
  have m2 : Nat.testBit 2 κ = false := testBit_sub rfl hk
  have m18 : Nat.testBit 18 κ = false := testBit_sub rfl hk
  have m130 : Nat.testBit 130 κ = false := testBit_sub rfl hk
  have m1024 : Nat.testBit 1024 κ = false := testBit_sub rfl hk
  have m8192 : Nat.testBit 8192 κ = false := testBit_sub rfl hk
  have m59010 : Nat.testBit 59010 κ = false := testBit_sub rfl hk
  have m8388610 : Nat.testBit 8388610 κ = false := testBit_sub rfl hk
  have m8388754 : Nat.testBit 8388754 κ = false := testBit_sub rfl hk
  have m16777216 : Nat.testBit 16777216 κ = false := testBit_sub rfl hk
  have m16777218 : Nat.testBit 16777218 κ = false := testBit_sub rfl hk
  have m16777728 : Nat.testBit 16777728 κ = false := testBit_sub rfl hk
  have m33554434 : Nat.testBit 33554434 κ = false := testBit_sub rfl hk
  have m33554562 : Nat.testBit 33554562 κ = false := testBit_sub rfl hk
  have m135270034 : Nat.testBit 135270034 κ = false := testBit_sub rfl hk
  unfold detachCore
  try dsimp only
  repeat' first
    | with_reducible exact hF
    | with_reducible assumption
    | with_reducible refine clearLatch_frame m2 ?_
    | with_reducible refine openChannel_frame m18 ?_
    | with_reducible refine supplyLost_frame m33554434 ?_
    | with_reducible refine setTarget_frame m16777218 ?_
    | with_reducible refine pdDiscard_frame m16777218 ?_
    | with_reducible refine State_setPdp_frame m16777216 ?_
    | with_reducible refine raise_frame m130 ?_
    | with_reducible refine portDown_frame m59010 ?_
    | with_reducible refine dropTunnels_frame m2 ?_
    | with_reducible refine attachEvent_frame m135270034 ?_
    | with_reducible refine State_setCan_frame m8192 ?_
    | with_reducible refine State_setEg_frame m1024 ?_
    | with_reducible refine updateExt_frame m33554562 ?_
    | with_reducible refine treePortGone_frame m8388610 ?_
    | with_reducible refine treeDetach_frame m8388754 ?_
    | with_reducible refine wrs_frame m2 ?_
    | with_reducible refine Frame.ite ?_ ?_
    | split
    | (apply Frame.lit m16777728 rfl; case e => constructor <;> (try dsimp only) <;> first | exact .inl rfl | exact .inr rfl)

theorem errorRecovery_frame {κ : Nat} {σ : State} {p : Nat} {s : State} (hk : Nat.testBit 194047634 κ = false) (hF : Frame κ σ s) :
    Frame κ σ (errorRecovery p s) := by
  have m194047634 := hk
  have m2 : Nat.testBit 2 κ = false := testBit_sub rfl hk
  have m130 : Nat.testBit 130 κ = false := testBit_sub rfl hk
  unfold errorRecovery
  try dsimp only
  repeat' first
    | with_reducible exact hF
    | with_reducible assumption
    | with_reducible refine raise_frame m130 ?_
    | with_reducible refine detachCore_frame m194047634 ?_
    | with_reducible refine State_inc_frame m2 ?_
    | with_reducible refine State_wr_frame m2 ?_
    | with_reducible refine Frame.ite ?_ ?_
    | split

theorem hardReset_frame {κ : Nat} {σ : State} {p : Nat} {sent : Bool} {s : State} (hk : Nat.testBit 194047634 κ = false) (hF : Frame κ σ s) :
    Frame κ σ (hardReset p sent s) := by
  have m194047634 := hk
  have m2 : Nat.testBit 2 κ = false := testBit_sub rfl hk
  have m16 : Nat.testBit 16 κ = false := testBit_sub rfl hk
  have m130 : Nat.testBit 130 κ = false := testBit_sub rfl hk
  have m16777216 : Nat.testBit 16777216 κ = false := testBit_sub rfl hk
  have m16777218 : Nat.testBit 16777218 κ = false := testBit_sub rfl hk
  unfold hardReset
  try dsimp only
  repeat' first
    | with_reducible exact hF
    | with_reducible assumption
    | with_reducible refine errorRecovery_frame m194047634 ?_
    | with_reducible refine raise_frame m130 ?_
    | with_reducible refine State_inc_frame m2 ?_
    | with_reducible refine State_emit_frame m16 ?_
    | with_reducible refine pdDiscard_frame m16777218 ?_
    | with_reducible refine State_wr_frame m2 ?_
    | with_reducible refine State_setPdp_frame m16777216 ?_
    | with_reducible refine setTarget_frame m16777218 ?_
    | with_reducible refine Frame.ite ?_ ?_
    | split

theorem sourceCaps_frame {κ : Nat} {σ : State} {p : Nat} {s : State} (hk : Nat.testBit 16777232 κ = false) (hF : Frame κ σ s) :
    Frame κ σ (sourceCaps p s) := by
  have m16 : Nat.testBit 16 κ = false := testBit_sub rfl hk
  have m16777216 : Nat.testBit 16777216 κ = false := testBit_sub rfl hk
  unfold sourceCaps
  try dsimp only
  repeat' first
    | with_reducible exact hF
    | with_reducible assumption
    | with_reducible refine State_setPdp_frame m16777216 ?_
    | with_reducible refine State_emit_frame m16 ?_
    | with_reducible refine Frame.ite ?_ ?_
    | split

theorem setLease_frame {κ : Nat} {σ : State} {n : Nat} {new : Nat} {s : State} (hk : Nat.testBit 16777234 κ = false) (hF : Frame κ σ s) :
    Frame κ σ (setLease n new s) := by
  have m2 : Nat.testBit 2 κ = false := testBit_sub rfl hk
  have m18 : Nat.testBit 18 κ = false := testBit_sub rfl hk
  have m16777216 : Nat.testBit 16777216 κ = false := testBit_sub rfl hk
  have m16777218 : Nat.testBit 16777218 κ = false := testBit_sub rfl hk
  have m16777232 : Nat.testBit 16777232 κ = false := testBit_sub rfl hk
  unfold setLease
  try dsimp only
  repeat' first
    | with_reducible exact hF
    | with_reducible assumption
    | with_reducible refine State_wr_frame m2 ?_
    | with_reducible refine State_setPdp_frame m16777216 ?_
    | with_reducible refine openChannel_frame m18 ?_
    | with_reducible refine pdDiscard_frame m16777218 ?_
    | with_reducible refine closeChannel_frame m18 ?_
    | with_reducible refine sourceCaps_frame m16777232 ?_
    | with_reducible refine wrs_frame m2 ?_
    | with_reducible refine Frame.ite ?_ ?_
    | split

theorem setTreeLease_frame {κ : Nat} {σ : State} {k : Nat} {has : Bool} {s : State} (hk : Nat.testBit 8388754 κ = false) (hF : Frame κ σ s) :
    Frame κ σ (setTreeLease k has s) := by
  have m8388754 := hk
  have m2 : Nat.testBit 2 κ = false := testBit_sub rfl hk
  have m18 : Nat.testBit 18 κ = false := testBit_sub rfl hk
  unfold setTreeLease
  try dsimp only
  repeat' first
    | with_reducible exact hF
    | with_reducible assumption
    | with_reducible refine State_wr_frame m2 ?_
    | with_reducible refine treeSwitch_frame m18 ?_
    | with_reducible refine treeOvercurrent_frame m8388754 ?_
    | with_reducible refine Frame.ite ?_ ?_
    | split

theorem applyLeases_frame {κ : Nat} {σ : State} {m : NMap Nat} {s : State} (hk : Nat.testBit 58720402 κ = false) (hF : Frame κ σ s) :
    Frame κ σ (applyLeases m s) := by
  have m8388754 : Nat.testBit 8388754 κ = false := testBit_sub rfl hk
  have m16777234 : Nat.testBit 16777234 κ = false := testBit_sub rfl hk
  have m33554432 : Nat.testBit 33554432 κ = false := testBit_sub rfl hk
  unfold applyLeases
  try dsimp only
  repeat' first
    | with_reducible exact hF
    | with_reducible assumption
    | with_reducible refine setLease_frame m16777234 ?_
    | with_reducible refine setTreeLease_frame m8388754 ?_
    | with_reducible refine treeOvercurrent_frame m8388754 ?_
    | with_reducible refine forAll_frame (fun _ _ _ => ?_) ?_
    | (apply Frame.lit m33554432 rfl; case e => constructor <;> (try dsimp only) <;> first | exact .inl rfl | exact .inr rfl)

theorem recomputeLeases_frame {κ : Nat} {σ : State} {s : State} (hk : Nat.testBit 58720914 κ = false) (hF : Frame κ σ s) :
    Frame κ σ (recomputeLeases s) := by
  have m130 : Nat.testBit 130 κ = false := testBit_sub rfl hk
  have m514 : Nat.testBit 514 κ = false := testBit_sub rfl hk
  have m33554562 : Nat.testBit 33554562 κ = false := testBit_sub rfl hk
  have m58720402 : Nat.testBit 58720402 κ = false := testBit_sub rfl hk
  unfold recomputeLeases
  try dsimp only
  repeat' first
    | with_reducible exact hF
    | with_reducible assumption
    | with_reducible refine updateExt_frame m33554562 ?_
    | with_reducible refine withBeff_frame m514 (fun _ _ => ?_) ?_
    | with_reducible refine applyLeases_frame m58720402 ?_
    | with_reducible refine raise_frame m130 ?_
    | with_reducible refine Frame.ite ?_ ?_
    | split

theorem applyShed_frame {κ : Nat} {σ : State} {s : State} (hk : Nat.testBit 58720402 κ = false) (hF : Frame κ σ s) :
    Frame κ σ (applyShed s) := by
  have m58720402 := hk
  have m130 : Nat.testBit 130 κ = false := testBit_sub rfl hk
  have m33554562 : Nat.testBit 33554562 κ = false := testBit_sub rfl hk
  unfold applyShed
  try dsimp only
  repeat' first
    | with_reducible exact hF
    | with_reducible assumption
    | with_reducible refine raise_frame m130 ?_
    | with_reducible refine updateExt_frame m33554562 ?_
    | with_reducible refine applyLeases_frame m58720402 ?_
    | with_reducible refine Frame.ite ?_ ?_
    | split

theorem vbusFault_frame {κ : Nat} {σ : State} {p : Nat} {sunk : Bool} {s : State} (hk : Nat.testBit 58720402 κ = false) (hF : Frame κ σ s) :
    Frame κ σ (vbusFault p sunk s) := by
  have m2 : Nat.testBit 2 κ = false := testBit_sub rfl hk
  have m8388754 : Nat.testBit 8388754 κ = false := testBit_sub rfl hk
  have m16777216 : Nat.testBit 16777216 κ = false := testBit_sub rfl hk
  have m16777218 : Nat.testBit 16777218 κ = false := testBit_sub rfl hk
  have m33554434 : Nat.testBit 33554434 κ = false := testBit_sub rfl hk
  have m33554562 : Nat.testBit 33554562 κ = false := testBit_sub rfl hk
  unfold vbusFault
  try dsimp only
  repeat' first
    | with_reducible exact hF
    | with_reducible assumption
    | with_reducible refine pdDiscard_frame m16777218 ?_
    | with_reducible refine State_wr_frame m2 ?_
    | with_reducible refine State_setPdp_frame m16777216 ?_
    | with_reducible refine updateExt_frame m33554562 ?_
    | with_reducible refine treeOvercurrent_frame m8388754 ?_
    | with_reducible refine supplyLost_frame m33554434 ?_
    | with_reducible refine Frame.ite ?_ ?_
    | split

theorem faultOpening_frame {κ : Nat} {σ : State} {n : Nat} {s : State} (hk : Nat.testBit 58720402 κ = false) (hF : Frame κ σ s) :
    Frame κ σ (faultOpening n s) := by
  have m58720402 := hk
  have m18 : Nat.testBit 18 κ = false := testBit_sub rfl hk
  have m130 : Nat.testBit 130 κ = false := testBit_sub rfl hk
  have m33554434 : Nat.testBit 33554434 κ = false := testBit_sub rfl hk
  have m33554562 : Nat.testBit 33554562 κ = false := testBit_sub rfl hk
  unfold faultOpening
  try dsimp only
  repeat' first
    | with_reducible exact hF
    | with_reducible assumption
    | with_reducible refine raise_frame m130 ?_
    | with_reducible refine followMode_frame m33554562 ?_
    | with_reducible refine openAt_frame m18 ?_
    | with_reducible refine supplyLost_frame m33554434 ?_
    | with_reducible refine vbusFault_frame m58720402 ?_
    | with_reducible refine Frame.ite ?_ ?_
    | split

end Sys2Proof.Laws
end

