-- ==== Sys2Proof/Laws/FramePd.lean ====
section
/-! SUPPORT. What each operation of Machine/Pd.lean leaves alone. -/

namespace Sys2Proof.Laws

open Sys2Proof Sys2Proof.Machine

set_option linter.unusedTactic false
set_option linter.unreachableTactic false
set_option linter.unusedVariables false

theorem sinkTx_frame {κ : Nat} {σ : State} {p : Nat} {ok : Bool} {s : State} (hk : Nat.testBit 2 κ = false) (hF : Frame κ σ s) :
    Frame κ σ (sinkTx p ok s) := by
  have m2 := hk
  unfold sinkTx
  try dsimp only
  repeat' first
    | with_reducible exact hF
    | with_reducible assumption
    | with_reducible refine State_wr_frame m2 ?_
    | with_reducible refine Frame.ite ?_ ?_
    | split

theorem startOwn_frame {κ : Nat} {σ : State} {p : Nat} {k : Nat} {s : State} (hk : Nat.testBit 16777234 κ = false) (hF : Frame κ σ s) :
    Frame κ σ (startOwn p k s) := by
  have m2 : Nat.testBit 2 κ = false := testBit_sub rfl hk
  have m16 : Nat.testBit 16 κ = false := testBit_sub rfl hk
  have m16777216 : Nat.testBit 16777216 κ = false := testBit_sub rfl hk
  unfold startOwn
  try dsimp only
  repeat' first
    | with_reducible exact hF
    | with_reducible assumption
    | with_reducible refine sinkTx_frame m2 ?_
    | with_reducible refine State_setPdp_frame m16777216 ?_
    | with_reducible refine State_emit_frame m16 ?_
    | with_reducible refine Frame.ite ?_ ?_
    | split

theorem endOwn_frame {κ : Nat} {σ : State} {p : Nat} {s : State} (hk : Nat.testBit 16777218 κ = false) (hF : Frame κ σ s) :
    Frame κ σ (endOwn p s) := by
  have m2 : Nat.testBit 2 κ = false := testBit_sub rfl hk
  have m16777216 : Nat.testBit 16777216 κ = false := testBit_sub rfl hk
  unfold endOwn
  try dsimp only
  repeat' first
    | with_reducible exact hF
    | with_reducible assumption
    | with_reducible refine sinkTx_frame m2 ?_
    | with_reducible refine State_setPdp_frame m16777216 ?_

theorem wantRole_frame {κ : Nat} {σ : State} {p : Nat} {s : State} (hk : Nat.testBit 16777234 κ = false) (hF : Frame κ σ s) :
    Frame κ σ (wantRole p s) := by
  have m16777234 := hk
  unfold wantRole
  try dsimp only
  repeat' first
    | with_reducible exact hF
    | with_reducible assumption
    | with_reducible refine startOwn_frame m16777234 ?_
    | with_reducible refine Frame.ite ?_ ?_
    | split

theorem attachLease_frame {κ : Nat} {σ : State} {p : Nat} {s : State} (hk : Nat.testBit 33554562 κ = false) (hF : Frame κ σ s) :
    Frame κ σ (attachLease p s) := by
  have m33554562 := hk
  have m2 : Nat.testBit 2 κ = false := testBit_sub rfl hk
  unfold attachLease
  try dsimp only
  repeat' first
    | with_reducible exact hF
    | with_reducible assumption
    | with_reducible refine updateExt_frame m33554562 ?_
    | with_reducible refine State_wr_frame m2 ?_
    | with_reducible refine Frame.ite ?_ ?_
    | split

theorem attachSource_frame {κ : Nat} {σ : State} {p : Nat} {info : CcInfo} {s : State} (hk : Nat.testBit 50331794 κ = false) (hF : Frame κ σ s) :
    Frame κ σ (attachSource p info s) := by
  have m2 : Nat.testBit 2 κ = false := testBit_sub rfl hk
  have m18 : Nat.testBit 18 κ = false := testBit_sub rfl hk
  have m16777218 : Nat.testBit 16777218 κ = false := testBit_sub rfl hk
  have m16777232 : Nat.testBit 16777232 κ = false := testBit_sub rfl hk
  have m33554562 : Nat.testBit 33554562 κ = false := testBit_sub rfl hk
  unfold attachSource
  try dsimp only
  repeat' first
    | with_reducible exact hF
    | with_reducible assumption
    | with_reducible refine setTarget_frame m16777218 ?_
    | with_reducible refine State_wr_frame m2 ?_
    | with_reducible refine attachLease_frame m33554562 ?_
    | with_reducible refine closeChannel_frame m18 ?_
    | with_reducible refine sourceCaps_frame m16777232 ?_
    | with_reducible refine wrs_frame m2 ?_
    | with_reducible refine Frame.ite ?_ ?_
    | split

theorem attachSink_frame {κ : Nat} {σ : State} {p : Nat} {info : CcInfo} {s : State} (hk : Nat.testBit 33554578 κ = false) (hF : Frame κ σ s) :
    Frame κ σ (attachSink p info s) := by
  have m2 : Nat.testBit 2 κ = false := testBit_sub rfl hk
  have m18 : Nat.testBit 18 κ = false := testBit_sub rfl hk
  have m33554562 : Nat.testBit 33554562 κ = false := testBit_sub rfl hk
  unfold attachSink
  try dsimp only
  repeat' first
    | with_reducible exact hF
    | with_reducible assumption
    | with_reducible refine updateExt_frame m33554562 ?_
    | with_reducible refine closeChannel_frame m18 ?_
    | with_reducible refine State_wr_frame m2 ?_
    | with_reducible refine wrs_frame m2 ?_
    | with_reducible refine Frame.ite ?_ ?_
    | split

theorem execCcAttach_frame {κ : Nat} {σ : State} {port : CanPort} {cc2 : Bool} {asSource : Bool} {info : CcInfo} {s : State} (hk : Nat.testBit 194014866 κ = false) (hF : Frame κ σ s) :
    FrameO κ σ (execCcAttach port cc2 asSource info s) := by
  have m2 : Nat.testBit 2 κ = false := testBit_sub rfl hk
  have m130 : Nat.testBit 130 κ = false := testBit_sub rfl hk
  have m514 : Nat.testBit 514 κ = false := testBit_sub rfl hk
  have m8192 : Nat.testBit 8192 κ = false := testBit_sub rfl hk
  have m24594 : Nat.testBit 24594 κ = false := testBit_sub rfl hk
  have m8388754 : Nat.testBit 8388754 κ = false := testBit_sub rfl hk
  have m16777216 : Nat.testBit 16777216 κ = false := testBit_sub rfl hk
  have m33554578 : Nat.testBit 33554578 κ = false := testBit_sub rfl hk
  have m50331794 : Nat.testBit 50331794 κ = false := testBit_sub rfl hk
  have m135270034 : Nat.testBit 135270034 κ = false := testBit_sub rfl hk
  unfold execCcAttach
  try dsimp only
  repeat' first
    | with_reducible exact hF
    | with_reducible assumption
    | with_reducible refine State_setPdp_frame m16777216 ?_
    | with_reducible refine State_setCan_frame m8192 ?_
    | with_reducible refine withBeff_frame m514 (fun _ _ => ?_) ?_
    | with_reducible refine attachSource_frame m50331794 ?_
    | with_reducible refine attachSink_frame m33554578 ?_
    | with_reducible refine attachEvent_frame m135270034 ?_
    | with_reducible refine raise_frame m130 ?_
    | with_reducible refine updateTree_frame m8388754 ?_
    | with_reducible refine enterChosen_frame m24594 ?_
    | with_reducible refine wrs_frame m2 ?_
    | with_reducible refine FrameO.next ?_
    | with_reducible refine FrameO.ite ?_ ?_
    | with_reducible refine Frame.ite ?_ ?_
    | split
    | (apply Frame.lit m16777216 rfl; case e => constructor <;> (try dsimp only) <;> first | exact .inl rfl | exact .inr rfl)

theorem execCcDetach_frame {κ : Nat} {σ : State} {port : CanPort} {s : State} (hk : Nat.testBit 194047634 κ = false) (hF : Frame κ σ s) :
    FrameO κ σ (execCcDetach port s) := by
  have m194047634 := hk
  have m514 : Nat.testBit 514 κ = false := testBit_sub rfl hk
  unfold execCcDetach
  try dsimp only
  repeat' first
    | with_reducible exact hF
    | with_reducible assumption
    | with_reducible refine withBeff_frame m514 (fun _ _ => ?_) ?_
    | with_reducible refine detachCore_frame m194047634 ?_
    | with_reducible refine FrameO.next ?_
    | with_reducible refine FrameO.ite ?_ ?_
    | with_reducible refine Frame.ite ?_ ?_
    | split

theorem execCcTerminationChange_frame {κ : Nat} {σ : State} {port : CanPort} {present : Bool} {s : State} (hk : Nat.testBit 16777218 κ = false) (hF : Frame κ σ s) :
    FrameO κ σ (execCcTerminationChange port present s) := by
  have m2 : Nat.testBit 2 κ = false := testBit_sub rfl hk
  have m16777216 : Nat.testBit 16777216 κ = false := testBit_sub rfl hk
  unfold execCcTerminationChange
  try dsimp only
  repeat' first
    | with_reducible exact hF
    | with_reducible assumption
    | with_reducible refine State_wr_frame m2 ?_
    | with_reducible refine State_setPdp_frame m16777216 ?_
    | with_reducible refine FrameO.next ?_
    | with_reducible refine FrameO.ite ?_ ?_
    | with_reducible refine Frame.ite ?_ ?_
    | split

theorem execVbusDischarged_frame {κ : Nat} {σ : State} {port : CanPort} {s : State} (hk : Nat.testBit 16777216 κ = false) (hF : Frame κ σ s) :
    FrameO κ σ (execVbusDischarged port s) := by
  have m16777216 := hk
  unfold execVbusDischarged
  try dsimp only
  repeat' first
    | with_reducible exact hF
    | with_reducible assumption
    | with_reducible refine State_setPdp_frame m16777216 ?_
    | with_reducible refine FrameO.next ?_

theorem execErrorRecoveryEnd_frame {κ : Nat} {σ : State} {port : CanPort} {s : State} (hk : Nat.testBit 2 κ = false) (hF : Frame κ σ s) :
    FrameO κ σ (execErrorRecoveryEnd port s) := by
  have m2 := hk
  unfold execErrorRecoveryEnd
  try dsimp only
  repeat' first
    | with_reducible exact hF
    | with_reducible assumption
    | with_reducible refine State_wr_frame m2 ?_
    | with_reducible refine FrameO.next ?_
    | with_reducible refine FrameO.ite ?_ ?_
    | with_reducible refine Frame.ite ?_ ?_
    | split

theorem execDrpToggle_frame {κ : Nat} {σ : State} {port : CanPort} {s : State} (hk : Nat.testBit 2 κ = false) (hF : Frame κ σ s) :
    FrameO κ σ (execDrpToggle port s) := by
  have m2 := hk
  unfold execDrpToggle
  try dsimp only
  repeat' first
    | with_reducible exact hF
    | with_reducible assumption
    | with_reducible refine State_wr_frame m2 ?_
    | with_reducible refine FrameO.next ?_
    | with_reducible refine FrameO.ite ?_ ?_
    | with_reducible refine Frame.ite ?_ ?_
    | split

theorem execSourceCapabilities_frame {κ : Nat} {σ : State} {port : CanPort} {pdos : Words} {s : State} (hk : Nat.testBit 16777240 κ = false) (hF : Frame κ σ s) :
    FrameO κ σ (execSourceCapabilities port pdos s) := by
  have m8 : Nat.testBit 8 κ = false := testBit_sub rfl hk
  have m16 : Nat.testBit 16 κ = false := testBit_sub rfl hk
  have m16777216 : Nat.testBit 16777216 κ = false := testBit_sub rfl hk
  unfold execSourceCapabilities
  try dsimp only
  repeat' first
    | with_reducible exact hF
    | with_reducible assumption
    | with_reducible refine State_emit_frame m16 ?_
    | with_reducible refine State_setPdp_frame m16777216 ?_
    | with_reducible refine State_free_frame m8 ?_
    | with_reducible refine FrameO.next ?_
    | with_reducible refine FrameO.ite ?_ ?_
    | with_reducible refine Frame.ite ?_ ?_
    | split
    | with_reducible refine Frame.snd (by assumption) ?_
    | with_reducible refine Frame.snd2 (by assumption) ?_
    | (dsimp only)

theorem execExplicitContract_frame {κ : Nat} {σ : State} {port : CanPort} {s : State} (hk : Nat.testBit 50332306 κ = false) (hF : Frame κ σ s) :
    FrameO κ σ (execExplicitContract port s) := by
  have m2 : Nat.testBit 2 κ = false := testBit_sub rfl hk
  have m130 : Nat.testBit 130 κ = false := testBit_sub rfl hk
  have m514 : Nat.testBit 514 κ = false := testBit_sub rfl hk
  have m16777216 : Nat.testBit 16777216 κ = false := testBit_sub rfl hk
  have m16777234 : Nat.testBit 16777234 κ = false := testBit_sub rfl hk
  have m33554562 : Nat.testBit 33554562 κ = false := testBit_sub rfl hk
  unfold execExplicitContract
  try dsimp only
  repeat' first
    | with_reducible exact hF
    | with_reducible assumption
    | with_reducible refine State_setPdp_frame m16777216 ?_
    | with_reducible refine withBeff_frame m514 (fun _ _ => ?_) ?_
    | with_reducible refine updateExt_frame m33554562 ?_
    | with_reducible refine wantRole_frame m16777234 ?_
    | with_reducible refine raise_frame m130 ?_
    | with_reducible refine wrs_frame m2 ?_
    | with_reducible refine FrameO.next ?_
    | with_reducible refine FrameO.ite ?_ ?_
    | with_reducible refine Frame.ite ?_ ?_
    | split

theorem crossed_frame {κ : Nat} {σ : State} {p : Nat} {s : State} (hk : Nat.testBit 146 κ = false) (hF : Frame κ σ s) :
    Frame κ σ (crossed p s) := by
  have m2 : Nat.testBit 2 κ = false := testBit_sub rfl hk
  have m16 : Nat.testBit 16 κ = false := testBit_sub rfl hk
  have m130 : Nat.testBit 130 κ = false := testBit_sub rfl hk
  unfold crossed
  try dsimp only
  repeat' first
    | with_reducible exact hF
    | with_reducible assumption
    | with_reducible refine raise_frame m130 ?_
    | with_reducible refine State_inc_frame m2 ?_
    | with_reducible refine State_emit_frame m16 ?_

theorem execRequest_frame {κ : Nat} {σ : State} {port : CanPort} {rdo : Word} {s : State} (hk : Nat.testBit 16777362 κ = false) (hF : Frame κ σ s) :
    FrameO κ σ (execRequest port rdo s) := by
  have m2 : Nat.testBit 2 κ = false := testBit_sub rfl hk
  have m16 : Nat.testBit 16 κ = false := testBit_sub rfl hk
  have m146 : Nat.testBit 146 κ = false := testBit_sub rfl hk
  have m16777216 : Nat.testBit 16777216 κ = false := testBit_sub rfl hk
  unfold execRequest
  try dsimp only
  repeat' first
    | with_reducible exact hF
    | with_reducible assumption
    | with_reducible refine crossed_frame m146 ?_
    | with_reducible refine State_emit_frame m16 ?_
    | with_reducible refine State_setPdp_frame m16777216 ?_
    | with_reducible refine State_wr_frame m2 ?_
    | with_reducible refine FrameO.next ?_
    | with_reducible refine FrameO.ite ?_ ?_
    | with_reducible refine Frame.ite ?_ ?_
    | split

theorem execConverterStep_frame {κ : Nat} {σ : State} {port : CanPort} {meas : Nat} {s : State} (hk : Nat.testBit 16777218 κ = false) (hF : Frame κ σ s) :
    FrameO κ σ (execConverterStep port meas s) := by
  have m2 : Nat.testBit 2 κ = false := testBit_sub rfl hk
  have m16777216 : Nat.testBit 16777216 κ = false := testBit_sub rfl hk
  unfold execConverterStep
  try dsimp only
  repeat' first
    | with_reducible exact hF
    | with_reducible assumption
    | with_reducible refine State_wr_frame m2 ?_
    | with_reducible refine State_setPdp_frame m16777216 ?_
    | with_reducible refine wrs_frame m2 ?_
    | with_reducible refine FrameO.next ?_
    | with_reducible refine FrameO.ite ?_ ?_
    | with_reducible refine Frame.ite ?_ ?_
    | split

theorem transitionOver_frame {κ : Nat} {σ : State} {p : Nat} {s : State} (hk : Nat.testBit 58720914 κ = false) (hF : Frame κ σ s) :
    Frame κ σ (transitionOver p s) := by
  have m58720914 := hk
  have m16777216 : Nat.testBit 16777216 κ = false := testBit_sub rfl hk
  unfold transitionOver
  try dsimp only
  repeat' first
    | with_reducible exact hF
    | with_reducible assumption
    | with_reducible refine recomputeLeases_frame m58720914 ?_
    | with_reducible refine State_setPdp_frame m16777216 ?_
    | with_reducible refine Frame.ite ?_ ?_
    | split

theorem execPsRdy_frame {κ : Nat} {σ : State} {port : CanPort} {s : State} (hk : Nat.testBit 58720914 κ = false) (hF : Frame κ σ s) :
    FrameO κ σ (execPsRdy port s) := by
  have m58720914 := hk
  have m2 : Nat.testBit 2 κ = false := testBit_sub rfl hk
  have m16 : Nat.testBit 16 κ = false := testBit_sub rfl hk
  have m18 : Nat.testBit 18 κ = false := testBit_sub rfl hk
  have m130 : Nat.testBit 130 κ = false := testBit_sub rfl hk
  have m16777216 : Nat.testBit 16777216 κ = false := testBit_sub rfl hk
  have m16777234 : Nat.testBit 16777234 κ = false := testBit_sub rfl hk
  unfold execPsRdy
  try dsimp only
  repeat' first
    | with_reducible exact hF
    | with_reducible assumption
    | with_reducible refine State_emit_frame m16 ?_
    | with_reducible refine State_setPdp_frame m16777216 ?_
    | with_reducible refine closeChannel_frame m18 ?_
    | with_reducible refine raise_frame m130 ?_
    | with_reducible refine wantRole_frame m16777234 ?_
    | with_reducible refine transitionOver_frame m58720914 ?_
    | with_reducible refine wrs_frame m2 ?_
    | with_reducible refine FrameO.next ?_
    | with_reducible refine FrameO.ite ?_ ?_
    | with_reducible refine Frame.ite ?_ ?_
    | split

theorem execTransitionLimit_frame {κ : Nat} {σ : State} {port : CanPort} {s : State} (hk : Nat.testBit 194047634 κ = false) (hF : Frame κ σ s) :
    FrameO κ σ (execTransitionLimit port s) := by
  have m194047634 := hk
  have m2 : Nat.testBit 2 κ = false := testBit_sub rfl hk
  have m130 : Nat.testBit 130 κ = false := testBit_sub rfl hk
  have m58720914 : Nat.testBit 58720914 κ = false := testBit_sub rfl hk
  unfold execTransitionLimit
  try dsimp only
  repeat' first
    | with_reducible exact hF
    | with_reducible assumption
    | with_reducible refine hardReset_frame m194047634 ?_
    | with_reducible refine raise_frame m130 ?_
    | with_reducible refine State_inc_frame m2 ?_
    | with_reducible refine State_wr_frame m2 ?_
    | with_reducible refine recomputeLeases_frame m58720914 ?_
    | with_reducible refine FrameO.next ?_
    | with_reducible refine FrameO.ite ?_ ?_
    | with_reducible refine Frame.ite ?_ ?_
    | split

theorem execHardReset_frame {κ : Nat} {σ : State} {port : CanPort} {s : State} (hk : Nat.testBit 194047634 κ = false) (hF : Frame κ σ s) :
    FrameO κ σ (execHardReset port s) := by
  have m194047634 := hk
  have m2 : Nat.testBit 2 κ = false := testBit_sub rfl hk
  have m514 : Nat.testBit 514 κ = false := testBit_sub rfl hk
  have m58720914 : Nat.testBit 58720914 κ = false := testBit_sub rfl hk
  unfold execHardReset
  try dsimp only
  repeat' first
    | with_reducible exact hF
    | with_reducible assumption
    | with_reducible refine withBeff_frame m514 (fun _ _ => ?_) ?_
    | with_reducible refine hardReset_frame m194047634 ?_
    | with_reducible refine State_wr_frame m2 ?_
    | with_reducible refine recomputeLeases_frame m58720914 ?_
    | with_reducible refine FrameO.next ?_
    | with_reducible refine FrameO.ite ?_ ?_
    | with_reducible refine Frame.ite ?_ ?_
    | split

theorem execPpsCurrentLimit_frame {κ : Nat} {σ : State} {port : CanPort} {above : Bool} {s : State} (hk : Nat.testBit 16777218 κ = false) (hF : Frame κ σ s) :
    FrameO κ σ (execPpsCurrentLimit port above s) := by
  have m16777218 := hk
  have m2 : Nat.testBit 2 κ = false := testBit_sub rfl hk
  unfold execPpsCurrentLimit
  try dsimp only
  repeat' first
    | with_reducible exact hF
    | with_reducible assumption
    | with_reducible refine setTarget_frame m16777218 ?_
    | with_reducible refine State_wr_frame m2 ?_
    | with_reducible refine FrameO.next ?_
    | with_reducible refine FrameO.ite ?_ ?_
    | with_reducible refine Frame.ite ?_ ?_
    | split

theorem execPpsTimeout_frame {κ : Nat} {σ : State} {port : CanPort} {s : State} (hk : Nat.testBit 194047634 κ = false) (hF : Frame κ σ s) :
    FrameO κ σ (execPpsTimeout port s) := by
  have m194047634 := hk
  unfold execPpsTimeout
  try dsimp only
  repeat' first
    | with_reducible exact hF
    | with_reducible assumption
    | with_reducible refine hardReset_frame m194047634 ?_
    | with_reducible refine FrameO.next ?_
    | with_reducible refine FrameO.ite ?_ ?_
    | with_reducible refine Frame.ite ?_ ?_
    | split

theorem execEprKeepaliveTimeout_frame {κ : Nat} {σ : State} {port : CanPort} {s : State} (hk : Nat.testBit 194047634 κ = false) (hF : Frame κ σ s) :
    FrameO κ σ (execEprKeepaliveTimeout port s) := by
  have m194047634 := hk
  unfold execEprKeepaliveTimeout
  try dsimp only
  repeat' first
    | with_reducible exact hF
    | with_reducible assumption
    | with_reducible refine hardReset_frame m194047634 ?_
    | with_reducible refine FrameO.next ?_
    | with_reducible refine FrameO.ite ?_ ?_
    | with_reducible refine Frame.ite ?_ ?_
    | split

theorem wrPdCtl_frame {κ : Nat} {σ : State} {p : Nat} {v : Nat} {s : State} (hk : Nat.testBit 194047634 κ = false) (hF : Frame κ σ s) :
    Frame κ σ (wrPdCtl p v s) := by
  have m194047634 := hk
  have m130 : Nat.testBit 130 κ = false := testBit_sub rfl hk
  have m514 : Nat.testBit 514 κ = false := testBit_sub rfl hk
  unfold wrPdCtl
  try dsimp only
  repeat' first
    | with_reducible exact hF
    | with_reducible assumption
    | with_reducible refine wrWord_frame m130 ?_
    | with_reducible refine withBeff_frame m514 (fun _ _ => ?_) ?_
    | with_reducible refine hardReset_frame m194047634 ?_
    | with_reducible refine errorRecovery_frame m194047634 ?_
    | with_reducible refine Frame.ite ?_ ?_
    | split

theorem swapData_frame {κ : Nat} {σ : State} {p : Nat} {s : State} (hk : Nat.testBit 8388754 κ = false) (hF : Frame κ σ s) :
    Frame κ σ (swapData p s) := by
  have m8388754 := hk
  have m2 : Nat.testBit 2 κ = false := testBit_sub rfl hk
  unfold swapData
  try dsimp only
  repeat' first
    | with_reducible exact hF
    | with_reducible assumption
    | with_reducible refine State_wr_frame m2 ?_
    | with_reducible refine updateTree_frame m8388754 ?_
    | with_reducible refine Frame.ite ?_ ?_
    | split

theorem swapPower_frame {κ : Nat} {σ : State} {p : Nat} {s : State} (hk : Nat.testBit 50331794 κ = false) (hF : Frame κ σ s) :
    Frame κ σ (swapPower p s) := by
  have m2 : Nat.testBit 2 κ = false := testBit_sub rfl hk
  have m18 : Nat.testBit 18 κ = false := testBit_sub rfl hk
  have m16777218 : Nat.testBit 16777218 κ = false := testBit_sub rfl hk
  have m16777232 : Nat.testBit 16777232 κ = false := testBit_sub rfl hk
  have m33554434 : Nat.testBit 33554434 κ = false := testBit_sub rfl hk
  have m33554562 : Nat.testBit 33554562 κ = false := testBit_sub rfl hk
  unfold swapPower
  try dsimp only
  repeat' first
    | with_reducible exact hF
    | with_reducible assumption
    | with_reducible refine openChannel_frame m18 ?_
    | with_reducible refine pdDiscard_frame m16777218 ?_
    | with_reducible refine supplyLost_frame m33554434 ?_
    | with_reducible refine setTarget_frame m16777218 ?_
    | with_reducible refine closeChannel_frame m18 ?_
    | with_reducible refine sourceCaps_frame m16777232 ?_
    | with_reducible refine attachLease_frame m33554562 ?_
    | with_reducible refine updateExt_frame m33554562 ?_
    | with_reducible refine wrs_frame m2 ?_
    | with_reducible refine Frame.ite ?_ ?_
    | split

theorem onCollision_frame {κ : Nat} {σ : State} {p : Nat} {answer : State → State} {s : State} (hk : Nat.testBit 16777362 κ = false) (hf : ∀ u, Frame κ σ u → Frame κ σ (answer u)) (hF : Frame κ σ s) :
    Frame κ σ (onCollision p answer s) := by
  have m2 : Nat.testBit 2 κ = false := testBit_sub rfl hk
  have m130 : Nat.testBit 130 κ = false := testBit_sub rfl hk
  have m146 : Nat.testBit 146 κ = false := testBit_sub rfl hk
  have m16777216 : Nat.testBit 16777216 κ = false := testBit_sub rfl hk
  unfold onCollision
  try dsimp only
  repeat' first
    | with_reducible exact hF
    | with_reducible assumption
    | with_reducible refine hf _ ?_
    | with_reducible refine crossed_frame m146 ?_
    | with_reducible refine raise_frame m130 ?_
    | with_reducible refine State_setPdp_frame m16777216 ?_
    | with_reducible refine State_inc_frame m2 ?_
    | with_reducible refine Frame.ite ?_ ?_
    | split

theorem execDrSwap_frame {κ : Nat} {σ : State} {port : CanPort} {fromPartner : Bool} {accepted : Bool} {s : State} (hk : Nat.testBit 25165970 κ = false) (hF : Frame κ σ s) :
    FrameO κ σ (execDrSwap port fromPartner accepted s) := by
  have m16 : Nat.testBit 16 κ = false := testBit_sub rfl hk
  have m8388754 : Nat.testBit 8388754 κ = false := testBit_sub rfl hk
  have m16777218 : Nat.testBit 16777218 κ = false := testBit_sub rfl hk
  have m16777362 : Nat.testBit 16777362 κ = false := testBit_sub rfl hk
  unfold execDrSwap
  try dsimp only
  repeat' first
    | with_reducible exact hF
    | with_reducible assumption
    | with_reducible refine onCollision_frame m16777362 (fun _ _ => ?_) ?_
    | with_reducible refine swapData_frame m8388754 ?_
    | with_reducible refine State_emit_frame m16 ?_
    | with_reducible refine endOwn_frame m16777218 ?_
    | with_reducible refine FrameO.next ?_
    | with_reducible refine FrameO.ite ?_ ?_
    | with_reducible refine Frame.ite ?_ ?_
    | split

theorem execPrSwap_frame {κ : Nat} {σ : State} {port : CanPort} {fromPartner : Bool} {accepted : Bool} {s : State} (hk : Nat.testBit 50332306 κ = false) (hF : Frame κ σ s) :
    FrameO κ σ (execPrSwap port fromPartner accepted s) := by
  have m16 : Nat.testBit 16 κ = false := testBit_sub rfl hk
  have m514 : Nat.testBit 514 κ = false := testBit_sub rfl hk
  have m16777218 : Nat.testBit 16777218 κ = false := testBit_sub rfl hk
  have m16777362 : Nat.testBit 16777362 κ = false := testBit_sub rfl hk
  have m50331794 : Nat.testBit 50331794 κ = false := testBit_sub rfl hk
  unfold execPrSwap
  try dsimp only
  repeat' first
    | with_reducible exact hF
    | with_reducible assumption
    | with_reducible refine onCollision_frame m16777362 (fun _ _ => ?_) ?_
    | with_reducible refine State_emit_frame m16 ?_
    | with_reducible refine withBeff_frame m514 (fun _ _ => ?_) ?_
    | with_reducible refine swapPower_frame m50331794 ?_
    | with_reducible refine endOwn_frame m16777218 ?_
    | with_reducible refine FrameO.next ?_
    | with_reducible refine FrameO.ite ?_ ?_
    | with_reducible refine Frame.ite ?_ ?_
    | split

theorem execVconnSwap_frame {κ : Nat} {σ : State} {port : CanPort} {s : State} (hk : Nat.testBit 18 κ = false) (hF : Frame κ σ s) :
    FrameO κ σ (execVconnSwap port s) := by
  have m2 : Nat.testBit 2 κ = false := testBit_sub rfl hk
  have m16 : Nat.testBit 16 κ = false := testBit_sub rfl hk
  unfold execVconnSwap
  try dsimp only
  repeat' first
    | with_reducible exact hF
    | with_reducible assumption
    | with_reducible refine State_wr_frame m2 ?_
    | with_reducible refine State_emit_frame m16 ?_
    | with_reducible refine FrameO.next ?_
    | with_reducible refine FrameO.ite ?_ ?_
    | with_reducible refine Frame.ite ?_ ?_
    | split

theorem execDiscoverSvids_frame {κ : Nat} {σ : State} {port : CanPort} {s : State} (hk : Nat.testBit 16 κ = false) (hF : Frame κ σ s) :
    FrameO κ σ (execDiscoverSvids port s) := by
  have m16 := hk
  unfold execDiscoverSvids
  try dsimp only
  repeat' first
    | with_reducible exact hF
    | with_reducible assumption
    | with_reducible refine State_emit_frame m16 ?_
    | with_reducible refine FrameO.next ?_
    | with_reducible refine FrameO.ite ?_ ?_
    | with_reducible refine Frame.ite ?_ ?_
    | split

theorem execDiscoverModes_frame {κ : Nat} {σ : State} {port : CanPort} {svid : BitVec 16} {s : State} (hk : Nat.testBit 16 κ = false) (hF : Frame κ σ s) :
    FrameO κ σ (execDiscoverModes port svid s) := by
  have m16 := hk
  unfold execDiscoverModes
  try dsimp only
  repeat' first
    | with_reducible exact hF
    | with_reducible assumption
    | with_reducible refine State_emit_frame m16 ?_
    | with_reducible refine FrameO.next ?_
    | with_reducible refine FrameO.ite ?_ ?_
    | with_reducible refine Frame.ite ?_ ?_
    | split

theorem execEnterUsb_frame {κ : Nat} {σ : State} {port : CanPort} {mode : Fin 8} {s : State} (hk : Nat.testBit 24594 κ = false) (hF : Frame κ σ s) :
    FrameO κ σ (execEnterUsb port mode s) := by
  have m16 : Nat.testBit 16 κ = false := testBit_sub rfl hk
  have m8192 : Nat.testBit 8192 κ = false := testBit_sub rfl hk
  have m24578 : Nat.testBit 24578 κ = false := testBit_sub rfl hk
  unfold execEnterUsb
  try dsimp only
  repeat' first
    | with_reducible exact hF
    | with_reducible assumption
    | with_reducible refine State_emit_frame m16 ?_
    | with_reducible refine startTraining_frame m24578 ?_
    | with_reducible refine State_setCan_frame m8192 ?_
    | with_reducible refine FrameO.next ?_
    | with_reducible refine FrameO.ite ?_ ?_
    | with_reducible refine Frame.ite ?_ ?_
    | split

end Sys2Proof.Laws
end

