-- ==== Sys2Proof/Laws/FrameVault.lean ====
section
/-! SUPPORT. What each operation of Machine/Vault.lean leaves alone. -/

namespace Sys2Proof.Laws

open Sys2Proof Sys2Proof.Machine

set_option linter.unusedTactic false
set_option linter.unreachableTactic false
set_option linter.unusedVariables false

theorem setSlot_frame {κ : Nat} {σ : State} {n : Nat} {state : Nat} {keyid : Nat} {len : Nat} {gen : Nat} {v : Bytes} {s : State} (hk : Nat.testBit 67108866 κ = false) (hF : Frame κ σ s) :
    Frame κ σ (setSlot n state keyid len gen v s) := by
  have m2 : Nat.testBit 2 κ = false := testBit_sub rfl hk
  have m67108864 : Nat.testBit 67108864 κ = false := testBit_sub rfl hk
  unfold setSlot
  try dsimp only
  repeat' first
    | with_reducible exact hF
    | with_reducible assumption
    | with_reducible refine State_setB_frame m2 ?_
    | with_reducible refine wrs_frame m2 ?_
    | with_reducible refine Frame.ite ?_ ?_
    | split
    | (apply Frame.lit m67108864 rfl; case e => constructor <;> (try dsimp only) <;> first | exact .inl rfl | exact .inr rfl)

theorem clearSlot_frame {κ : Nat} {σ : State} {n : Nat} {s : State} (hk : Nat.testBit 67108866 κ = false) (hF : Frame κ σ s) :
    Frame κ σ (clearSlot n s) := by
  have m67108866 := hk
  unfold clearSlot
  try dsimp only
  repeat' first
    | with_reducible exact hF
    | with_reducible assumption
    | with_reducible refine setSlot_frame m67108866 ?_

theorem deriveKek_frame {κ : Nat} {σ : State} {s : State} (hk : Nat.testBit 67108866 κ = false) (hF : Frame κ σ s) :
    Frame κ σ (deriveKek s) := by
  have m67108866 := hk
  have m67108864 : Nat.testBit 67108864 κ = false := testBit_sub rfl hk
  unfold deriveKek
  try dsimp only
  repeat' first
    | with_reducible exact hF
    | with_reducible assumption
    | with_reducible refine clearSlot_frame m67108866 ?_
    | with_reducible refine setSlot_frame m67108866 ?_
    | with_reducible refine Frame.ite ?_ ?_
    | split
    | (apply Frame.lit m67108864 rfl; case e => constructor <;> (try dsimp only) <;> first | exact .inl rfl | exact .inr rfl)

theorem scanBlobs_frame {κ : Nat} {σ : State} {s : State} (hk : Nat.testBit 2 κ = false) (hF : Frame κ σ s) :
    Frame κ σ (scanBlobs s) := by
  have m2 := hk
  unfold scanBlobs
  try dsimp only
  repeat' first
    | with_reducible exact hF
    | with_reducible assumption
    | with_reducible refine State_wr_frame m2 ?_
    | with_reducible refine wrs_frame m2 ?_

theorem putRecord_frame {κ : Nat} {σ : State} {r : Bytes} {s : State} (hk : Nat.testBit 34 κ = false)
    (h : Frame κ σ s) : Frame κ σ (putRecord r s) :=
  wrs_frame (testBit_sub rfl hk) (flash_frame (testBit_sub rfl hk) h)

theorem programRecord_frame {κ : Nat} {σ : State} {r : Bytes} {s : State} (hk : Nat.testBit 34 κ = false)
    (h : Frame κ σ s) : Frame κ σ (programRecord r s) := by
  have hp : Nat.testBit 34 κ = false := testBit_sub rfl hk
  unfold programRecord
  dsimp only
  split
  · exact putRecord_frame hp h
  · exact flashErase_frame (testBit_sub rfl hk) (forAll_frame (fun _ _ hu => putRecord_frame hp hu) (putRecord_frame hp h))

theorem endCommand_frame {κ : Nat} {σ : State} {i : Nat} {result : Nat} {resp : Bytes} {s : State} (hk : Nat.testBit 130 κ = false) (hF : Frame κ σ s) :
    Frame κ σ (endCommand i result resp s) := by
  have m130 := hk
  have m2 : Nat.testBit 2 κ = false := testBit_sub rfl hk
  unfold endCommand
  try dsimp only
  repeat' first
    | with_reducible exact hF
    | with_reducible assumption
    | with_reducible refine State_incMod_frame m2 ?_
    | with_reducible refine State_wr_frame m2 ?_
    | with_reducible refine raise_frame m130 ?_
    | with_reducible refine wrs_frame m2 ?_
    | with_reducible refine forAll_frame (fun _ _ _ => ?_) ?_
    | with_reducible refine Frame.ite ?_ ?_
    | split

theorem loadKey_frame {κ : Nat} {σ : State} {k : Nat} {s : State} (hk : Nat.testBit 67108866 κ = false) (hF : Frame κ σ s) :
    Frame κ σ (loadKey k s).2 := by
  have m67108866 := hk
  unfold loadKey
  try dsimp only
  repeat' first
    | with_reducible exact hF
    | with_reducible assumption
    | with_reducible refine clearSlot_frame m67108866 ?_
    | with_reducible refine setSlot_frame m67108866 ?_
    | with_reducible refine Frame.ite ?_ ?_
    | split
    | with_reducible refine Frame.snd (by assumption) ?_
    | with_reducible refine Frame.snd2 (by assumption) ?_
    | (dsimp only)

theorem attest_frame {κ : Nat} {σ : State} {i : Nat} {s : State} (hk : Nat.testBit 67108866 κ = false) (hF : Frame κ σ s) :
    Frame κ σ (attest i s).2.2 := by
  have m67108866 := hk
  unfold attest
  try dsimp only
  repeat' first
    | with_reducible exact hF
    | with_reducible assumption
    | with_reducible refine loadKey_frame m67108866 ?_
    | with_reducible refine Frame.ite ?_ ?_
    | split
    | with_reducible refine Frame.snd (by assumption) ?_
    | with_reducible refine Frame.snd2 (by assumption) ?_
    | (dsimp only)

theorem dropLinks_frame {κ : Nat} {σ : State} {s : State} (hk : Nat.testBit 135327378 κ = false) (hF : Frame κ σ s) :
    Frame κ σ (dropLinks s) := by
  have m135327378 := hk
  unfold dropLinks
  try dsimp only
  repeat' first
    | with_reducible exact hF
    | with_reducible assumption
    | with_reducible refine portDownAttached_frame m135327378 ?_
    | with_reducible refine retrainPort_frame m135327378 ?_
    | with_reducible refine forAll_frame (fun _ _ _ => ?_) ?_
    | with_reducible refine Frame.ite ?_ ?_
    | split

theorem imageHold_frame {κ : Nat} {σ : State} {s : State} (hk : Nat.testBit 258 κ = false) (hF : Frame κ σ s) :
    Frame κ σ (imageHold s) := by
  have m2 : Nat.testBit 2 κ = false := testBit_sub rfl hk
  have m256 : Nat.testBit 256 κ = false := testBit_sub rfl hk
  unfold imageHold
  try dsimp only
  repeat' first
    | with_reducible exact hF
    | with_reducible assumption
    | with_reducible refine wrs_frame m2 ?_
    | (apply Frame.lit m256 rfl; case e => constructor <;> (try dsimp only) <;> first | exact .inl rfl | exact .inr rfl)

theorem dropKey_frame {κ : Nat} {σ : State} {s : State} (hk : Nat.testBit 67108866 κ = false) (hF : Frame κ σ s) :
    Frame κ σ (dropKey s) := by
  have m67108866 := hk
  unfold dropKey
  try dsimp only
  repeat' first
    | with_reducible exact hF
    | with_reducible assumption
    | with_reducible refine clearSlot_frame m67108866 ?_
    | with_reducible refine Frame.ite ?_ ?_
    | split

theorem abortReload_frame {κ : Nat} {σ : State} {cause : Nat} {s : State} (hk : Nat.testBit 67109122 κ = false) (hF : Frame κ σ s) :
    Frame κ σ (abortReload cause s) := by
  have m2 : Nat.testBit 2 κ = false := testBit_sub rfl hk
  have m256 : Nat.testBit 256 κ = false := testBit_sub rfl hk
  have m67108866 : Nat.testBit 67108866 κ = false := testBit_sub rfl hk
  unfold abortReload
  try dsimp only
  repeat' first
    | with_reducible exact hF
    | with_reducible assumption
    | with_reducible refine dropKey_frame m67108866 ?_
    | with_reducible refine wrs_frame m2 ?_
    | with_reducible refine Frame.ite ?_ ?_
    | split
    | (apply Frame.lit m256 rfl; case e => constructor <;> (try dsimp only) <;> first | exact .inl rfl | exact .inr rfl)

theorem stopCheck_frame {κ : Nat} {σ : State} {s : State} (hk : Nat.testBit 258 κ = false) (hF : Frame κ σ s) :
    Frame κ σ (stopCheck s) := by
  have m2 : Nat.testBit 2 κ = false := testBit_sub rfl hk
  have m256 : Nat.testBit 256 κ = false := testBit_sub rfl hk
  unfold stopCheck
  try dsimp only
  repeat' first
    | with_reducible exact hF
    | with_reducible assumption
    | with_reducible refine State_wr_frame m2 ?_
    | (apply Frame.lit m256 rfl; case e => constructor <;> (try dsimp only) <;> first | exact .inl rfl | exact .inr rfl)

theorem keysLost_frame {κ : Nat} {σ : State} {s : State} (hk : Nat.testBit 67109122 κ = false) (hF : Frame κ σ s) :
    Frame κ σ (keysLost s) := by
  have m67109122 := hk
  have m256 : Nat.testBit 256 κ = false := testBit_sub rfl hk
  have m258 : Nat.testBit 258 κ = false := testBit_sub rfl hk
  have m67108866 : Nat.testBit 67108866 κ = false := testBit_sub rfl hk
  unfold keysLost
  try dsimp only
  repeat' first
    | with_reducible exact hF
    | with_reducible assumption
    | with_reducible refine imageHold_frame m258 ?_
    | with_reducible refine stopCheck_frame m258 ?_
    | with_reducible refine abortReload_frame m67109122 ?_
    | with_reducible refine dropKey_frame m67108866 ?_
    | with_reducible refine Frame.ite ?_ ?_
    | split
    | (apply Frame.lit m256 rfl; case e => constructor <;> (try dsimp only) <;> first | exact .inl rfl | exact .inr rfl)

theorem State_setKv_frame {κ : Nat} {σ : State} {s : State} {x : Vault} (hk : Nat.testBit 67108864 κ = false) (hF : Frame κ σ s) :
    Frame κ σ (State.setKv s x) := by
  have m67108864 := hk
  unfold State.setKv
  try dsimp only
  repeat' first
    | with_reducible exact hF
    | with_reducible assumption
    | (apply Frame.lit m67108864 rfl; case e => constructor <;> (try dsimp only) <;> first | exact .inl rfl | exact .inr rfl)

theorem abortStore_frame {κ : Nat} {σ : State} {result : Nat} {s : State} (hk : Nat.testBit 67108994 κ = false) (hF : Frame κ σ s) :
    Frame κ σ (abortStore result s) := by
  have m130 : Nat.testBit 130 κ = false := testBit_sub rfl hk
  have m67108864 : Nat.testBit 67108864 κ = false := testBit_sub rfl hk
  have m67108866 : Nat.testBit 67108866 κ = false := testBit_sub rfl hk
  unfold abortStore
  try dsimp only
  repeat' first
    | with_reducible exact hF
    | with_reducible assumption
    | with_reducible refine endCommand_frame m130 ?_
    | with_reducible refine clearSlot_frame m67108866 ?_
    | with_reducible refine State_setKv_frame m67108864 ?_
    | split

theorem zeroise_frame {κ : Nat} {σ : State} {s : State} (hk : Nat.testBit 202436498 κ = false) (hF : Frame κ σ s) :
    Frame κ σ (zeroise s) := by
  have m2 : Nat.testBit 2 κ = false := testBit_sub rfl hk
  have m130 : Nat.testBit 130 κ = false := testBit_sub rfl hk
  have m67108864 : Nat.testBit 67108864 κ = false := testBit_sub rfl hk
  have m67108866 : Nat.testBit 67108866 κ = false := testBit_sub rfl hk
  have m67108994 : Nat.testBit 67108994 κ = false := testBit_sub rfl hk
  have m67109122 : Nat.testBit 67109122 κ = false := testBit_sub rfl hk
  have m135327378 : Nat.testBit 135327378 κ = false := testBit_sub rfl hk
  unfold zeroise
  try dsimp only
  repeat' first
    | with_reducible exact hF
    | with_reducible assumption
    | with_reducible refine raise_frame m130 ?_
    | with_reducible refine clearSlot_frame m67108866 ?_
    | with_reducible refine abortStore_frame m67108994 ?_
    | with_reducible refine State_wr_frame m2 ?_
    | with_reducible refine keysLost_frame m67109122 ?_
    | with_reducible refine dropLinks_frame m135327378 ?_
    | with_reducible refine State_setKv_frame m67108864 ?_
    | with_reducible refine forAll_frame (fun _ _ _ => ?_) ?_

theorem runCommand_frame {κ : Nat} {σ : State} {p : Path} {s : State} (hk : Nat.testBit 202436498 κ = false) (hF : Frame κ σ s) :
    Frame κ σ (runCommand p s) := by
  have m202436498 := hk
  have m2 : Nat.testBit 2 κ = false := testBit_sub rfl hk
  have m130 : Nat.testBit 130 κ = false := testBit_sub rfl hk
  have m67108864 : Nat.testBit 67108864 κ = false := testBit_sub rfl hk
  have m67108866 : Nat.testBit 67108866 κ = false := testBit_sub rfl hk
  unfold runCommand
  try dsimp only
  repeat' first
    | with_reducible exact hF
    | with_reducible assumption
    | with_reducible refine endCommand_frame m130 ?_
    | with_reducible refine loadKey_frame m67108866 ?_
    | with_reducible refine setSlot_frame m67108866 ?_
    | with_reducible refine clearSlot_frame m67108866 ?_
    | with_reducible refine State_wr_frame m2 ?_
    | with_reducible refine attest_frame m67108866 ?_
    | with_reducible refine zeroise_frame m202436498 ?_
    | with_reducible refine Frame.ite ?_ ?_
    | split
    | with_reducible refine Frame.snd (by assumption) ?_
    | with_reducible refine Frame.snd2 (by assumption) ?_
    | (dsimp only)
    | (apply Frame.lit m67108864 rfl; case e => constructor <;> (try dsimp only) <;> first | exact .inl rfl | exact .inr rfl)

theorem drainKeys_frame {κ : Nat} {σ : State} {l : List Path} {s : State} (hk : Nat.testBit 202436498 κ = false)
    (h : Frame κ σ s) : Frame κ σ (drainKeys l s) := by
  have hd : Nat.testBit 67108864 κ = false := testBit_sub rfl hk
  induction l generalizing s with
  | nil => exact h
  | cons p rest ih =>
    unfold drainKeys
    split
    · exact Frame.lit (t := s) hd rfl h (by constructor <;> first | exact .inl rfl | exact .inr rfl)
    · exact ih (runCommand_frame (testBit_sub rfl hk) h)

theorem nextKeys_frame {κ : Nat} {σ : State} {s : State} (hk : Nat.testBit 202436498 κ = false) (hF : Frame κ σ s) :
    Frame κ σ (nextKeys s) := by
  have m202436498 := hk
  have m67108864 : Nat.testBit 67108864 κ = false := testBit_sub rfl hk
  unfold nextKeys
  try dsimp only
  repeat' first
    | with_reducible exact hF
    | with_reducible assumption
    | with_reducible refine drainKeys_frame m202436498 ?_
    | (apply Frame.lit m67108864 rfl; case e => constructor <;> (try dsimp only) <;> first | exact .inl rfl | exact .inr rfl)

theorem wrKeyCmd_frame {κ : Nat} {σ : State} {p : Path} {v : Nat} {s : State} (hk : Nat.testBit 202436498 κ = false) (hF : Frame κ σ s) :
    Frame κ σ (wrKeyCmd p v s) := by
  have m202436498 := hk
  have m2 : Nat.testBit 2 κ = false := testBit_sub rfl hk
  have m130 : Nat.testBit 130 κ = false := testBit_sub rfl hk
  have m67108864 : Nat.testBit 67108864 κ = false := testBit_sub rfl hk
  unfold wrKeyCmd
  try dsimp only
  repeat' first
    | with_reducible exact hF
    | with_reducible assumption
    | with_reducible refine wrField_frame m130 ?_
    | with_reducible refine cfgErr_frame m130 ?_
    | with_reducible refine drainKeys_frame m202436498 ?_
    | with_reducible refine wrs_frame m2 ?_
    | with_reducible refine Frame.ite ?_ ?_
    | split
    | (apply Frame.lit m67108864 rfl; case e => constructor <;> (try dsimp only) <;> first | exact .inl rfl | exact .inr rfl)

theorem execStoreComplete_frame {κ : Nat} {σ : State} {ok : Bool} {s : State} (hk : Nat.testBit 202436530 κ = false) (hF : Frame κ σ s) :
    FrameO κ σ (execStoreComplete ok s) := by
  have m2 : Nat.testBit 2 κ = false := testBit_sub rfl hk
  have m34 : Nat.testBit 34 κ = false := testBit_sub rfl hk
  have m130 : Nat.testBit 130 κ = false := testBit_sub rfl hk
  have m67108864 : Nat.testBit 67108864 κ = false := testBit_sub rfl hk
  have m202436498 : Nat.testBit 202436498 κ = false := testBit_sub rfl hk
  unfold execStoreComplete
  try dsimp only
  repeat' first
    | with_reducible exact hF
    | with_reducible assumption
    | with_reducible refine nextKeys_frame m202436498 ?_
    | with_reducible refine endCommand_frame m130 ?_
    | with_reducible refine scanBlobs_frame m2 ?_
    | with_reducible refine programRecord_frame m34 ?_
    | with_reducible refine State_wr_frame m2 ?_
    | with_reducible refine raise_frame m130 ?_
    | with_reducible refine FrameO.next ?_
    | with_reducible refine FrameO.ite ?_ ?_
    | with_reducible refine Frame.ite ?_ ?_
    | split
    | (apply Frame.lit m67108864 rfl; case e => constructor <;> (try dsimp only) <;> first | exact .inl rfl | exact .inr rfl)

theorem holdHub_frame {κ : Nat} {σ : State} {s : State} (hk : Nat.testBit 61314 κ = false) (hF : Frame κ σ s) :
    Frame κ σ (holdHub s) := by
  have m2 : Nat.testBit 2 κ = false := testBit_sub rfl hk
  have m258 : Nat.testBit 258 κ = false := testBit_sub rfl hk
  have m2690 : Nat.testBit 2690 κ = false := testBit_sub rfl hk
  have m59010 : Nat.testBit 59010 κ = false := testBit_sub rfl hk
  unfold holdHub
  try dsimp only
  repeat' first
    | with_reducible exact hF
    | with_reducible assumption
    | with_reducible refine imageHold_frame m258 ?_
    | with_reducible refine cancelSolve_frame m2690 ?_
    | with_reducible refine portDown_frame m59010 ?_
    | with_reducible refine wrs_frame m2 ?_
    | with_reducible refine forAll_frame (fun _ _ _ => ?_) ?_
    | with_reducible refine Frame.ite ?_ ?_
    | split

theorem tamperResponse_frame {κ : Nat} {σ : State} {sthold : Bool} {s : State} (hk : Nat.testBit 202436498 κ = false) (hF : Frame κ σ s) :
    Frame κ σ (tamperResponse sthold s) := by
  have m202436498 := hk
  have m2 : Nat.testBit 2 κ = false := testBit_sub rfl hk
  have m61314 : Nat.testBit 61314 κ = false := testBit_sub rfl hk
  unfold tamperResponse
  try dsimp only
  repeat' first
    | with_reducible exact hF
    | with_reducible assumption
    | with_reducible refine State_wr_frame m2 ?_
    | with_reducible refine holdHub_frame m61314 ?_
    | with_reducible refine zeroise_frame m202436498 ?_
    | with_reducible refine Frame.ite ?_ ?_
    | split

theorem wakeUp_frame {κ : Nat} {σ : State} {src : Nat} {s : State} (hk : Nat.testBit 204533650 κ = false) (hF : Frame κ σ s) :
    Frame κ σ (wakeUp src s) := by
  have m2 : Nat.testBit 2 κ = false := testBit_sub rfl hk
  have m16 : Nat.testBit 16 κ = false := testBit_sub rfl hk
  have m2097152 : Nat.testBit 2097152 κ = false := testBit_sub rfl hk
  have m134217728 : Nat.testBit 134217728 κ = false := testBit_sub rfl hk
  have m134217874 : Nat.testBit 134217874 κ = false := testBit_sub rfl hk
  have m135267474 : Nat.testBit 135267474 κ = false := testBit_sub rfl hk
  have m202436498 : Nat.testBit 202436498 κ = false := testBit_sub rfl hk
  unfold wakeUp
  try dsimp only
  repeat' first
    | with_reducible exact hF
    | with_reducible assumption
    | with_reducible refine State_wr_frame m2 ?_
    | with_reducible refine showIndicator_frame m16 ?_
    | with_reducible refine State_setPs_frame m134217728 ?_
    | with_reducible refine State_emit_frame m16 ?_
    | with_reducible refine nextKeys_frame m202436498 ?_
    | with_reducible refine psRefuse_frame m134217874 ?_
    | with_reducible refine toActive_frame m135267474 ?_
    | with_reducible refine wrs_frame m2 ?_
    | with_reducible refine Frame.ite ?_ ?_
    | split
    | (apply Frame.lit m2097152 rfl; case e => constructor <;> (try dsimp only) <;> first | exact .inl rfl | exact .inr rfl)

theorem latchAlarm_frame {κ : Nat} {σ : State} {src : Nat} {s : State} (hk : Nat.testBit 67108994 κ = false) (hF : Frame κ σ s) :
    Frame κ σ (latchAlarm src s) := by
  have m67108994 := hk
  have m2 : Nat.testBit 2 κ = false := testBit_sub rfl hk
  have m130 : Nat.testBit 130 κ = false := testBit_sub rfl hk
  unfold latchAlarm
  try dsimp only
  repeat' first
    | with_reducible exact hF
    | with_reducible assumption
    | with_reducible refine State_inc_frame m2 ?_
    | with_reducible refine raise_frame m130 ?_
    | with_reducible refine abortStore_frame m67108994 ?_
    | with_reducible refine wrs_frame m2 ?_
    | with_reducible refine Frame.ite ?_ ?_
    | split

theorem answerAlarm_frame {κ : Nat} {σ : State} {s : State} (hk : Nat.testBit 204533650 κ = false) (hF : Frame κ σ s) :
    Frame κ σ (answerAlarm s) := by
  have m204533650 := hk
  have m67108864 : Nat.testBit 67108864 κ = false := testBit_sub rfl hk
  have m67109122 : Nat.testBit 67109122 κ = false := testBit_sub rfl hk
  have m202436498 : Nat.testBit 202436498 κ = false := testBit_sub rfl hk
  unfold answerAlarm
  try dsimp only
  repeat' first
    | with_reducible exact hF
    | with_reducible assumption
    | with_reducible refine wakeUp_frame m204533650 ?_
    | with_reducible refine tamperResponse_frame m202436498 ?_
    | with_reducible refine State_setKv_frame m67108864 ?_
    | with_reducible refine keysLost_frame m67109122 ?_
    | with_reducible refine abortReload_frame m67109122 ?_
    | with_reducible refine Frame.ite ?_ ?_
    | split

theorem execTamperAlarm_frame {κ : Nat} {σ : State} {src : Fin 4} {s : State} (hk : Nat.testBit 204533650 κ = false) (hF : Frame κ σ s) :
    FrameO κ σ (execTamperAlarm src s) := by
  have m204533650 := hk
  have m67108994 : Nat.testBit 67108994 κ = false := testBit_sub rfl hk
  have m202436498 : Nat.testBit 202436498 κ = false := testBit_sub rfl hk
  unfold execTamperAlarm
  try dsimp only
  repeat' first
    | with_reducible exact hF
    | with_reducible assumption
    | with_reducible refine nextKeys_frame m202436498 ?_
    | with_reducible refine answerAlarm_frame m204533650 ?_
    | with_reducible refine latchAlarm_frame m67108994 ?_
    | with_reducible refine FrameO.next ?_

theorem releaseKey_frame {κ : Nat} {σ : State} {s : State} (hk : Nat.testBit 202436498 κ = false) (hF : Frame κ σ s) :
    Frame κ σ (releaseKey s) := by
  have m202436498 := hk
  have m67108864 : Nat.testBit 67108864 κ = false := testBit_sub rfl hk
  have m67108866 : Nat.testBit 67108866 κ = false := testBit_sub rfl hk
  unfold releaseKey
  try dsimp only
  repeat' first
    | with_reducible exact hF
    | with_reducible assumption
    | with_reducible refine deriveKek_frame m67108866 ?_
    | with_reducible refine tamperResponse_frame m202436498 ?_
    | with_reducible refine Frame.ite ?_ ?_
    | split
    | (apply Frame.lit m67108864 rfl; case e => constructor <;> (try dsimp only) <;> first | exact .inl rfl | exact .inr rfl)

end Sys2Proof.Laws
end

