-- ==== Sys2Proof/Laws/FrameReset.lean ====
section
/-! SUPPORT. What each operation of Machine/Reset.lean leaves alone. -/

namespace Sys2Proof.Laws

open Sys2Proof Sys2Proof.Machine

set_option linter.unusedTactic false
set_option linter.unreachableTactic false
set_option linter.unusedVariables false

theorem resetRegs_frame {κ : Nat} {σ : State} {reach : Nat} {s : State} (hk : Nat.testBit 2 κ = false)
    (h : Frame κ σ s) : Frame κ σ (resetRegs reach s) :=
  Frame.litc (t := s) hk (fun hc => ⟨rising_filter _ _ hc.1, hc.2⟩) h (by constructor <;> first | exact .inl rfl | exact .inr rfl)

theorem resetFabric_frame {κ : Nat} {σ : State} {s : State} (hk : Nat.testBit 596992 κ = false) (hF : Frame κ σ s) :
    Frame κ σ (resetFabric s) := by
  have m596992 := hk
  unfold resetFabric
  try dsimp only
  repeat' first
    | with_reducible exact hF
    | with_reducible assumption
    | (apply Frame.lit m596992 rfl; case e => constructor <;> (try dsimp only) <;> first | exact .inl rfl | exact .inr rfl)

theorem resetManagement_frame {κ : Nat} {σ : State} {s : State} (hk : Nat.testBit 394112 κ = false) (hF : Frame κ σ s) :
    Frame κ σ (resetManagement s) := by
  have m394112 := hk
  unfold resetManagement
  try dsimp only
  repeat' first
    | with_reducible exact hF
    | with_reducible assumption
    | (apply Frame.lit m394112 rfl; case e => constructor <;> (try dsimp only) <;> first | exact .inl rfl | exact .inr rfl)

theorem resetPorts_frame {κ : Nat} {σ : State} {cold : Bool} {s : State} (hk : Nat.testBit 12640256 κ = false) (hF : Frame κ σ s) :
    Frame κ σ (resetPorts cold s) := by
  have m12640256 := hk
  unfold resetPorts
  try dsimp only
  repeat' first
    | with_reducible exact hF
    | with_reducible assumption
    | with_reducible refine Frame.ite ?_ ?_
    | split
    | (apply Frame.lit m12640256 rfl; case e => constructor <;> (try dsimp only) <;> first | exact .inl rfl | exact .inr rfl)

theorem resetPipes_frame {κ : Nat} {σ : State} {cold : Bool} {s : State} (hk : Nat.testBit 1048640 κ = false)
    (h : Frame κ σ s) : Frame κ σ (resetPipes cold s) :=
  Frame.litc (t := s) hk (fun hc => ⟨hc.1, hc.2.1, by unfold resetPipes; dsimp only; split; exacts [mwf_nil _, hc.2.2.1], hc.2.2.2⟩) h (by constructor <;> first | exact .inl rfl | exact .inr rfl)

theorem resetVault_frame {κ : Nat} {σ : State} {s : State} (hk : Nat.testBit 503316480 κ = false) (hF : Frame κ σ s) :
    Frame κ σ (resetVault s) := by
  have m503316480 := hk
  unfold resetVault
  try dsimp only
  repeat' first
    | with_reducible exact hF
    | with_reducible assumption
    | (apply Frame.lit m503316480 rfl; case e => constructor <;> (try dsimp only) <;> first | exact .inl rfl | exact .inr rfl)

theorem mapPins_frame {κ : Nat} {σ : State} {s : State} (hk : Nat.testBit 2097152 κ = false) (hF : Frame κ σ s) :
    Frame κ σ (mapPins s) := by
  have m2097152 := hk
  unfold mapPins
  try dsimp only
  repeat' first
    | with_reducible exact hF
    | with_reducible assumption
    | with_reducible refine State_setPin_frame m2097152 ?_
    | with_reducible refine forAll_frame (fun _ _ _ => ?_) ?_

theorem resetPins_frame {κ : Nat} {σ : State} {cold : Bool} {s : State} (hk : Nat.testBit 2097152 κ = false) (hF : Frame κ σ s) :
    Frame κ σ (resetPins cold s) := by
  have m2097152 := hk
  unfold resetPins
  try dsimp only
  repeat' first
    | with_reducible exact hF
    | with_reducible assumption
    | with_reducible refine mapPins_frame m2097152 ?_
    | with_reducible refine Frame.ite ?_ ?_
    | split

theorem showFaults_frame {κ : Nat} {σ : State} {s : State} (hk : Nat.testBit 2 κ = false) (hF : Frame κ σ s) :
    Frame κ σ (showFaults s) := by
  have m2 := hk
  unfold showFaults
  try dsimp only
  repeat' first
    | with_reducible exact hF
    | with_reducible assumption
    | with_reducible refine State_wr_frame m2 ?_
    | with_reducible refine forAll_frame (fun _ _ _ => ?_) ?_
    | with_reducible refine Frame.ite ?_ ?_
    | split

theorem coreBack_frame {κ : Nat} {σ : State} {s : State} (hk : Nat.testBit 2097152 κ = false) (hF : Frame κ σ s) :
    Frame κ σ (coreBack s) := by
  have m2097152 := hk
  unfold coreBack
  try dsimp only
  repeat' first
    | with_reducible exact hF
    | with_reducible assumption
    | with_reducible refine Frame.ite ?_ ?_
    | split
    | (apply Frame.lit m2097152 rfl; case e => constructor <;> (try dsimp only) <;> first | exact .inl rfl | exact .inr rfl)

theorem holdDomains_frame {κ : Nat} {σ : State} {reach : Nat} {s : State} (hk : Nat.testBit 2097152 κ = false) (hF : Frame κ σ s) :
    Frame κ σ (holdDomains reach s) := by
  have m2097152 := hk
  unfold holdDomains
  try dsimp only
  repeat' first
    | with_reducible exact hF
    | with_reducible assumption
    | with_reducible refine coreBack_frame m2097152 ?_
    | (apply Frame.lit m2097152 rfl; case e => constructor <;> (try dsimp only) <;> first | exact .inl rfl | exact .inr rfl)

theorem resetClocks_frame {κ : Nat} {σ : State} {s : State} (hk : Nat.testBit 268435456 κ = false) (hF : Frame κ σ s) :
    Frame κ σ (resetClocks s) := by
  have m268435456 := hk
  unfold resetClocks
  try dsimp only
  repeat' first
    | with_reducible exact hF
    | with_reducible assumption
    | (apply Frame.lit m268435456 rfl; case e => constructor <;> (try dsimp only) <;> first | exact .inl rfl | exact .inr rfl)

theorem takeReset_frame {κ : Nat} {σ : State} {reach : Nat} {s : State} (hk : Nat.testBit 520093658 κ = false) (hF : Frame κ σ s) :
    Frame κ σ (takeReset reach s) := by
  have m2 : Nat.testBit 2 κ = false := testBit_sub rfl hk
  have m8 : Nat.testBit 8 κ = false := testBit_sub rfl hk
  have m16 : Nat.testBit 16 κ = false := testBit_sub rfl hk
  have m394112 : Nat.testBit 394112 κ = false := testBit_sub rfl hk
  have m596992 : Nat.testBit 596992 κ = false := testBit_sub rfl hk
  have m1048640 : Nat.testBit 1048640 κ = false := testBit_sub rfl hk
  have m2097152 : Nat.testBit 2097152 κ = false := testBit_sub rfl hk
  have m12640256 : Nat.testBit 12640256 κ = false := testBit_sub rfl hk
  have m268435456 : Nat.testBit 268435456 κ = false := testBit_sub rfl hk
  have m503316480 : Nat.testBit 503316480 κ = false := testBit_sub rfl hk
  unfold takeReset
  try dsimp only
  repeat' first
    | with_reducible exact hF
    | with_reducible assumption
    | with_reducible refine resetPipes_frame m1048640 ?_
    | with_reducible refine resetPorts_frame m12640256 ?_
    | with_reducible refine resetManagement_frame m394112 ?_
    | with_reducible refine resetFabric_frame m596992 ?_
    | with_reducible refine resetVault_frame m503316480 ?_
    | with_reducible refine holdDomains_frame m2097152 ?_
    | with_reducible refine State_emit_frame m16 ?_
    | with_reducible refine resetClocks_frame m268435456 ?_
    | with_reducible refine resetPins_frame m2097152 ?_
    | with_reducible refine showFaults_frame m2 ?_
    | with_reducible refine resetRegs_frame m2 ?_
    | with_reducible refine State_free_frame m8 ?_
    | with_reducible refine State_wr_frame m2 ?_
    | with_reducible refine wrs_frame m2 ?_
    | with_reducible refine Frame.ite ?_ ?_
    | split
    | with_reducible refine Frame.snd (by assumption) ?_
    | with_reducible refine Frame.snd2 (by assumption) ?_
    | (dsimp only)

theorem checkSapling_frame {κ : Nat} {σ : State} {s : State} (hk : Nat.testBit 2 κ = false) (hF : Frame κ σ s) :
    Frame κ σ (checkSapling s) := by
  have m2 := hk
  unfold checkSapling
  try dsimp only
  repeat' first
    | with_reducible exact hF
    | with_reducible assumption
    | with_reducible refine wrs_frame m2 ?_
    | with_reducible refine Frame.ite ?_ ?_
    | split

theorem domainEffect_frame {κ : Nat} {σ : State} {k : Nat} {s : State} (hk : Nat.testBit 246476690 κ = false) (hF : Frame κ σ s) :
    Frame κ σ (domainEffect k s) := by
  have m2 : Nat.testBit 2 κ = false := testBit_sub rfl hk
  have m128 : Nat.testBit 128 κ = false := testBit_sub rfl hk
  have m8388754 : Nat.testBit 8388754 κ = false := testBit_sub rfl hk
  have m35651584 : Nat.testBit 35651584 κ = false := testBit_sub rfl hk
  have m202436498 : Nat.testBit 202436498 κ = false := testBit_sub rfl hk
  unfold domainEffect
  try dsimp only
  repeat' first
    | with_reducible exact hF
    | with_reducible assumption
    | with_reducible refine releaseKey_frame m202436498 ?_
    | with_reducible refine updateTree_frame m8388754 ?_
    | with_reducible refine State_wr_frame m2 ?_
    | with_reducible refine reportsDue_frame m128 ?_
    | with_reducible refine Frame.ite ?_ ?_
    | split
    | (apply Frame.lit m35651584 rfl; case e => constructor <;> (try dsimp only) <;> first | exact .inl rfl | exact .inr rfl)

theorem releaseNext_frame {κ : Nat} {σ : State} {s : State} (hk : Nat.testBit 246476690 κ = false) (hF : Frame κ σ s) :
    Frame κ σ (releaseNext s) := by
  have m246476690 := hk
  have m2 : Nat.testBit 2 κ = false := testBit_sub rfl hk
  have m130 : Nat.testBit 130 κ = false := testBit_sub rfl hk
  have m2097152 : Nat.testBit 2097152 κ = false := testBit_sub rfl hk
  unfold releaseNext
  try dsimp only
  repeat' first
    | with_reducible exact hF
    | with_reducible assumption
    | with_reducible refine raise_frame m130 ?_
    | with_reducible refine State_wr_frame m2 ?_
    | with_reducible refine domainEffect_frame m246476690 ?_
    | with_reducible refine Frame.ite ?_ ?_
    | split
    | (apply Frame.lit m2097152 rfl; case e => constructor <;> (try dsimp only) <;> first | exact .inl rfl | exact .inr rfl)

theorem startFuses_frame {κ : Nat} {σ : State} {s : State} (hk : Nat.testBit 2097154 κ = false) (hF : Frame κ σ s) :
    Frame κ σ (startFuses s) := by
  have m2 : Nat.testBit 2 κ = false := testBit_sub rfl hk
  have m2097152 : Nat.testBit 2097152 κ = false := testBit_sub rfl hk
  unfold startFuses
  try dsimp only
  repeat' first
    | with_reducible exact hF
    | with_reducible assumption
    | with_reducible refine State_wr_frame m2 ?_
    | with_reducible refine State_inc_frame m2 ?_
    | with_reducible refine Frame.ite ?_ ?_
    | split
    | (apply Frame.lit m2097152 rfl; case e => constructor <;> (try dsimp only) <;> first | exact .inl rfl | exact .inr rfl)

theorem beginRelease_frame {κ : Nat} {σ : State} {s : State} (hk : Nat.testBit 246476690 κ = false) (hF : Frame κ σ s) :
    Frame κ σ (beginRelease s) := by
  have m246476690 := hk
  have m130 : Nat.testBit 130 κ = false := testBit_sub rfl hk
  have m2097154 : Nat.testBit 2097154 κ = false := testBit_sub rfl hk
  unfold beginRelease
  try dsimp only
  repeat' first
    | with_reducible exact hF
    | with_reducible assumption
    | with_reducible refine raise_frame m130 ?_
    | with_reducible refine startFuses_frame m2097154 ?_
    | with_reducible refine releaseNext_frame m246476690 ?_
    | with_reducible refine Frame.ite ?_ ?_
    | split

theorem requestReset_frame {κ : Nat} {σ : State} {alone : Bool} {reach : Nat} {cause : Nat} {s : State} (hk : Nat.testBit 520093658 κ = false) (hF : Frame κ σ s) :
    Frame κ σ (requestReset alone reach cause s) := by
  have m520093658 := hk
  have m2 : Nat.testBit 2 κ = false := testBit_sub rfl hk
  have m2097152 : Nat.testBit 2097152 κ = false := testBit_sub rfl hk
  unfold requestReset
  try dsimp only
  repeat' first
    | with_reducible exact hF
    | with_reducible assumption
    | with_reducible refine State_wr_frame m2 ?_
    | with_reducible refine takeReset_frame m520093658 ?_
    | with_reducible refine Frame.ite ?_ ?_
    | split
    | (apply Frame.lit m2097152 rfl; case e => constructor <;> (try dsimp only) <;> first | exact .inl rfl | exact .inr rfl)

theorem pulseReset_frame {κ : Nat} {σ : State} {reach : Nat} {cause : Nat} {s : State} (hk : Nat.testBit 520093658 κ = false) (hF : Frame κ σ s) :
    Frame κ σ (pulseReset reach cause s) := by
  have m520093658 := hk
  have m246476690 : Nat.testBit 246476690 κ = false := testBit_sub rfl hk
  unfold pulseReset
  try dsimp only
  repeat' first
    | with_reducible exact hF
    | with_reducible assumption
    | with_reducible refine requestReset_frame m520093658 ?_
    | with_reducible refine beginRelease_frame m246476690 ?_
    | with_reducible refine Frame.ite ?_ ?_
    | split

theorem assertReset_frame {κ : Nat} {σ : State} {src : ResetSrc} {reach : Nat} {cause : Nat} {s : State} (hk : Nat.testBit 520093658 κ = false) (hF : Frame κ σ s) :
    Frame κ σ (assertReset src reach cause s) := by
  have m520093658 := hk
  have m2097152 : Nat.testBit 2097152 κ = false := testBit_sub rfl hk
  unfold assertReset
  try dsimp only
  repeat' first
    | with_reducible exact hF
    | with_reducible assumption
    | with_reducible refine requestReset_frame m520093658 ?_
    | with_reducible refine Frame.ite ?_ ?_
    | split
    | (apply Frame.lit m2097152 rfl; case e => constructor <;> (try dsimp only) <;> first | exact .inl rfl | exact .inr rfl)

theorem powerOnReset_frame {κ : Nat} {σ : State} {s : State} (hk : Nat.testBit 536870866 κ = false)
    (h : Frame κ σ s) : Frame κ σ (powerOnReset s) :=
  Frame.litc (t := s) hk (fun hc => ⟨by simp [powerOnReset, State.reset], hc.2.1, by simp [powerOnReset, State.reset, mwf_nil], hc.2.2.2⟩) h (by constructor <;> first | exact .inl rfl | exact .inr rfl)

theorem closeSupply_frame {κ : Nat} {σ : State} {a : Nat} {fast : Bool} {s : State} (hk : Nat.testBit 18 κ = false) (hF : Frame κ σ s) :
    Frame κ σ (closeSupply a fast s) := by
  have m18 := hk
  have m2 : Nat.testBit 2 κ = false := testBit_sub rfl hk
  unfold closeSupply
  try dsimp only
  repeat' first
    | with_reducible exact hF
    | with_reducible assumption
    | with_reducible refine closeChannel_frame m18 ?_
    | with_reducible refine State_wr_frame m2 ?_
    | split

theorem openAllPaths_frame {κ : Nat} {σ : State} {s : State} (hk : Nat.testBit 194047634 κ = false) (hF : Frame κ σ s) :
    Frame κ σ (openAllPaths s) := by
  have m194047634 := hk
  have m2 : Nat.testBit 2 κ = false := testBit_sub rfl hk
  have m18 : Nat.testBit 18 κ = false := testBit_sub rfl hk
  have m33554432 : Nat.testBit 33554432 κ = false := testBit_sub rfl hk
  unfold openAllPaths
  try dsimp only
  repeat' first
    | with_reducible exact hF
    | with_reducible assumption
    | with_reducible refine detachCore_frame m194047634 ?_
    | with_reducible refine clearLatch_frame m2 ?_
    | with_reducible refine openChannel_frame m18 ?_
    | with_reducible refine State_wr_frame m2 ?_
    | with_reducible refine forAll_frame (fun _ _ _ => ?_) ?_
    | with_reducible refine Frame.ite ?_ ?_
    | split
    | (apply Frame.lit m33554432 rfl; case e => constructor <;> (try dsimp only) <;> first | exact .inl rfl | exact .inr rfl)

theorem execPor_frame {κ : Nat} {σ : State} {s : State} (hk : Nat.testBit 536870866 κ = false) (hF : Frame κ σ s) :
    FrameO κ σ (execPor s) := by
  have m536870866 := hk
  unfold execPor
  try dsimp only
  repeat' first
    | with_reducible exact hF
    | with_reducible assumption
    | with_reducible refine powerOnReset_frame m536870866 ?_
    | with_reducible refine FrameO.next ?_

theorem execBrownOut_frame {κ : Nat} {σ : State} {s : State} (hk : Nat.testBit 520093658 κ = false) (hF : Frame κ σ s) :
    FrameO κ σ (execBrownOut s) := by
  have m520093658 := hk
  unfold execBrownOut
  try dsimp only
  repeat' first
    | with_reducible exact hF
    | with_reducible assumption
    | with_reducible refine assertReset_frame m520093658 ?_
    | with_reducible refine FrameO.next ?_
    | with_reducible refine FrameO.ite ?_ ?_
    | with_reducible refine Frame.ite ?_ ?_
    | split

theorem execResetN_frame {κ : Nat} {σ : State} {s : State} (hk : Nat.testBit 520093658 κ = false) (hF : Frame κ σ s) :
    FrameO κ σ (execResetN s) := by
  have m520093658 := hk
  unfold execResetN
  try dsimp only
  repeat' first
    | with_reducible exact hF
    | with_reducible assumption
    | with_reducible refine assertReset_frame m520093658 ?_
    | with_reducible refine FrameO.next ?_

theorem execWarmN_frame {κ : Nat} {σ : State} {s : State} (hk : Nat.testBit 520093658 κ = false) (hF : Frame κ σ s) :
    FrameO κ σ (execWarmN s) := by
  have m520093658 := hk
  unfold execWarmN
  try dsimp only
  repeat' first
    | with_reducible exact hF
    | with_reducible assumption
    | with_reducible refine assertReset_frame m520093658 ?_
    | with_reducible refine FrameO.next ?_

theorem execThermalTrip_frame {κ : Nat} {σ : State} {s : State} (hk : Nat.testBit 536870874 κ = false) (hF : Frame κ σ s) :
    FrameO κ σ (execThermalTrip s) := by
  have m194047634 : Nat.testBit 194047634 κ = false := testBit_sub rfl hk
  have m520093658 : Nat.testBit 520093658 κ = false := testBit_sub rfl hk
  unfold execThermalTrip
  try dsimp only
  repeat' first
    | with_reducible exact hF
    | with_reducible assumption
    | with_reducible refine assertReset_frame m520093658 ?_
    | with_reducible refine openAllPaths_frame m194047634 ?_
    | with_reducible refine FrameO.next ?_

theorem execRouterReset_frame {κ : Nat} {σ : State} {s : State} (hk : Nat.testBit 520093658 κ = false) (hF : Frame κ σ s) :
    FrameO κ σ (execRouterReset s) := by
  have m520093658 := hk
  unfold execRouterReset
  try dsimp only
  repeat' first
    | with_reducible exact hF
    | with_reducible assumption
    | with_reducible refine pulseReset_frame m520093658 ?_
    | with_reducible refine FrameO.next ?_
    | with_reducible refine FrameO.ite ?_ ?_
    | with_reducible refine Frame.ite ?_ ?_
    | split

theorem wrRstCtl_frame {κ : Nat} {σ : State} {p : Path} {v : Nat} {s : State} (hk : Nat.testBit 520093658 κ = false) (hF : Frame κ σ s) :
    Frame κ σ (wrRstCtl p v s) := by
  have m520093658 := hk
  have m130 : Nat.testBit 130 κ = false := testBit_sub rfl hk
  have m135327378 : Nat.testBit 135327378 κ = false := testBit_sub rfl hk
  unfold wrRstCtl
  try dsimp only
  repeat' first
    | with_reducible exact hF
    | with_reducible assumption
    | with_reducible refine wrField_frame m130 ?_
    | with_reducible refine portDownAttached_frame m135327378 ?_
    | with_reducible refine raise_frame m130 ?_
    | with_reducible refine pulseReset_frame m520093658 ?_
    | with_reducible refine Frame.ite ?_ ?_
    | split

theorem execResetRelease_frame {κ : Nat} {σ : State} {src : ResetSrc} {s : State} (hk : Nat.testBit 246476698 κ = false) (hF : Frame κ σ s) :
    FrameO κ σ (execResetRelease src s) := by
  have m2 : Nat.testBit 2 κ = false := testBit_sub rfl hk
  have m8 : Nat.testBit 8 κ = false := testBit_sub rfl hk
  have m18 : Nat.testBit 18 κ = false := testBit_sub rfl hk
  have m2097152 : Nat.testBit 2097152 κ = false := testBit_sub rfl hk
  have m246476690 : Nat.testBit 246476690 κ = false := testBit_sub rfl hk
  unfold execResetRelease
  try dsimp only
  repeat' first
    | with_reducible exact hF
    | with_reducible assumption
    | with_reducible refine closeSupply_frame m18 ?_
    | with_reducible refine State_free_frame m8 ?_
    | with_reducible refine beginRelease_frame m246476690 ?_
    | with_reducible refine wrs_frame m2 ?_
    | with_reducible refine FrameO.next ?_
    | with_reducible refine FrameO.ite ?_ ?_
    | with_reducible refine Frame.ite ?_ ?_
    | split
    | with_reducible refine Frame.snd (by assumption) ?_
    | with_reducible refine Frame.snd2 (by assumption) ?_
    | (dsimp only)
    | (apply Frame.lit m2097152 rfl; case e => constructor <;> (try dsimp only) <;> first | exact .inl rfl | exact .inr rfl)

theorem execDomainRelease_frame {κ : Nat} {σ : State} {s : State} (hk : Nat.testBit 246476690 κ = false) (hF : Frame κ σ s) :
    FrameO κ σ (execDomainRelease s) := by
  have m246476690 := hk
  unfold execDomainRelease
  try dsimp only
  repeat' first
    | with_reducible exact hF
    | with_reducible assumption
    | with_reducible refine releaseNext_frame m246476690 ?_
    | with_reducible refine FrameO.next ?_

theorem execRefLock_frame {κ : Nat} {σ : State} {s : State} (hk : Nat.testBit 2097152 κ = false) (hF : Frame κ σ s) :
    FrameO κ σ (execRefLock s) := by
  have m2097152 := hk
  unfold execRefLock
  try dsimp only
  repeat' first
    | with_reducible exact hF
    | with_reducible assumption
    | with_reducible refine FrameO.next ?_
    | (apply Frame.lit m2097152 rfl; case e => constructor <;> (try dsimp only) <;> first | exact .inl rfl | exact .inr rfl)

theorem execPowerGateOpen_frame {κ : Nat} {σ : State} {s : State} (hk : Nat.testBit 2097154 κ = false) (hF : Frame κ σ s) :
    FrameO κ σ (execPowerGateOpen s) := by
  have m2 : Nat.testBit 2 κ = false := testBit_sub rfl hk
  have m2097152 : Nat.testBit 2097152 κ = false := testBit_sub rfl hk
  unfold execPowerGateOpen
  try dsimp only
  repeat' first
    | with_reducible exact hF
    | with_reducible assumption
    | with_reducible refine State_wr_frame m2 ?_
    | with_reducible refine FrameO.next ?_
    | with_reducible refine FrameO.ite ?_ ?_
    | with_reducible refine Frame.ite ?_ ?_
    | split
    | (apply Frame.lit m2097152 rfl; case e => constructor <;> (try dsimp only) <;> first | exact .inl rfl | exact .inr rfl)

theorem execCorePg_frame {κ : Nat} {σ : State} {high : Bool} {s : State} (hk : Nat.testBit 520093658 κ = false) (hF : Frame κ σ s) :
    FrameO κ σ (execCorePg high s) := by
  have m520093658 := hk
  have m2097152 : Nat.testBit 2097152 κ = false := testBit_sub rfl hk
  unfold execCorePg
  try dsimp only
  repeat' first
    | with_reducible exact hF
    | with_reducible assumption
    | with_reducible refine assertReset_frame m520093658 ?_
    | with_reducible refine FrameO.next ?_
    | with_reducible refine FrameO.ite ?_ ?_
    | with_reducible refine Frame.ite ?_ ?_
    | split
    | (apply Frame.lit m2097152 rfl; case e => constructor <;> (try dsimp only) <;> first | exact .inl rfl | exact .inr rfl)

theorem execCorePgTimeout_frame {κ : Nat} {σ : State} {s : State} (hk : Nat.testBit 2097168 κ = false) (hF : Frame κ σ s) :
    FrameO κ σ (execCorePgTimeout s) := by
  have m16 : Nat.testBit 16 κ = false := testBit_sub rfl hk
  have m2097152 : Nat.testBit 2097152 κ = false := testBit_sub rfl hk
  unfold execCorePgTimeout
  try dsimp only
  repeat' first
    | with_reducible exact hF
    | with_reducible assumption
    | with_reducible refine State_emit_frame m16 ?_
    | with_reducible refine FrameO.next ?_
    | with_reducible refine FrameO.ite ?_ ?_
    | with_reducible refine Frame.ite ?_ ?_
    | split
    | (apply Frame.lit m2097152 rfl; case e => constructor <;> (try dsimp only) <;> first | exact .inl rfl | exact .inr rfl)

theorem execCoreEnRetry_frame {κ : Nat} {σ : State} {s : State} (hk : Nat.testBit 2097168 κ = false) (hF : Frame κ σ s) :
    FrameO κ σ (execCoreEnRetry s) := by
  have m16 : Nat.testBit 16 κ = false := testBit_sub rfl hk
  have m2097152 : Nat.testBit 2097152 κ = false := testBit_sub rfl hk
  unfold execCoreEnRetry
  try dsimp only
  repeat' first
    | with_reducible exact hF
    | with_reducible assumption
    | with_reducible refine State_emit_frame m16 ?_
    | with_reducible refine FrameO.next ?_
    | with_reducible refine FrameO.ite ?_ ?_
    | with_reducible refine Frame.ite ?_ ?_
    | split
    | (apply Frame.lit m2097152 rfl; case e => constructor <;> (try dsimp only) <;> first | exact .inl rfl | exact .inr rfl)

theorem fusesDone_frame {κ : Nat} {σ : State} {s : State} (hk : Nat.testBit 520093658 κ = false) (hF : Frame κ σ s) :
    Frame κ σ (fusesDone s) := by
  have m520093658 := hk
  have m2097152 : Nat.testBit 2097152 κ = false := testBit_sub rfl hk
  have m246476690 : Nat.testBit 246476690 κ = false := testBit_sub rfl hk
  unfold fusesDone
  try dsimp only
  repeat' first
    | with_reducible exact hF
    | with_reducible assumption
    | with_reducible refine beginRelease_frame m246476690 ?_
    | with_reducible refine takeReset_frame m520093658 ?_
    | with_reducible refine Frame.ite ?_ ?_
    | split
    | (apply Frame.lit m2097152 rfl; case e => constructor <;> (try dsimp only) <;> first | exact .inl rfl | exact .inr rfl)

theorem execFuseLoadAttempt_frame {κ : Nat} {σ : State} {errs : List FuseErr} {s : State} (hk : Nat.testBit 520093658 κ = false) (hF : Frame κ σ s) :
    FrameO κ σ (execFuseLoadAttempt errs s) := by
  have m520093658 := hk
  have m2 : Nat.testBit 2 κ = false := testBit_sub rfl hk
  have m130 : Nat.testBit 130 κ = false := testBit_sub rfl hk
  have m2097152 : Nat.testBit 2097152 κ = false := testBit_sub rfl hk
  unfold execFuseLoadAttempt
  try dsimp only
  repeat' first
    | with_reducible exact hF
    | with_reducible assumption
    | with_reducible refine State_wr_frame m2 ?_
    | with_reducible refine mapPins_frame m2097152 ?_
    | with_reducible refine fusesDone_frame m520093658 ?_
    | with_reducible refine raise_frame m130 ?_
    | with_reducible refine wrs_frame m2 ?_
    | with_reducible refine FrameO.next ?_
    | with_reducible refine FrameO.ite ?_ ?_
    | with_reducible refine Frame.ite ?_ ?_
    | split

theorem psAsk_frame {κ : Nat} {σ : State} {target : Nat} {s : State} (hk : Nat.testBit 134217746 κ = false) (hF : Frame κ σ s) :
    Frame κ σ (psAsk target s) := by
  have m2 : Nat.testBit 2 κ = false := testBit_sub rfl hk
  have m16 : Nat.testBit 16 κ = false := testBit_sub rfl hk
  have m134217728 : Nat.testBit 134217728 κ = false := testBit_sub rfl hk
  unfold psAsk
  try dsimp only
  repeat' first
    | with_reducible exact hF
    | with_reducible assumption
    | with_reducible refine showIndicator_frame m16 ?_
    | with_reducible refine State_setPs_frame m134217728 ?_
    | with_reducible refine wrs_frame m2 ?_

theorem psRequest_frame {κ : Nat} {σ : State} {s : State} (hk : Nat.testBit 135267474 κ = false) (hF : Frame κ σ s) :
    Frame κ σ (psRequest s) := by
  have m135267474 := hk
  have m2 : Nat.testBit 2 κ = false := testBit_sub rfl hk
  have m134217746 : Nat.testBit 134217746 κ = false := testBit_sub rfl hk
  unfold psRequest
  try dsimp only
  repeat' first
    | with_reducible exact hF
    | with_reducible assumption
    | with_reducible refine toActive_frame m135267474 ?_
    | with_reducible refine psAsk_frame m134217746 ?_
    | with_reducible refine wrs_frame m2 ?_
    | with_reducible refine Frame.ite ?_ ?_
    | split

theorem setDuty_frame {κ : Nat} {σ : State} {d : Nat} {s : State} (hk : Nat.testBit 2 κ = false) (hF : Frame κ σ s) :
    Frame κ σ (setDuty d s) := by
  have m2 := hk
  unfold setDuty
  try dsimp only
  repeat' first
    | with_reducible exact hF
    | with_reducible assumption
    | with_reducible refine wrs_frame m2 ?_

theorem firmwareUp_frame {κ : Nat} {σ : State} {s : State} (hk : Nat.testBit 135267474 κ = false) (hF : Frame κ σ s) :
    Frame κ σ (firmwareUp s) := by
  have m135267474 := hk
  have m2 : Nat.testBit 2 κ = false := testBit_sub rfl hk
  have m128 : Nat.testBit 128 κ = false := testBit_sub rfl hk
  have m130 : Nat.testBit 130 κ = false := testBit_sub rfl hk
  unfold firmwareUp
  try dsimp only
  repeat' first
    | with_reducible exact hF
    | with_reducible assumption
    | with_reducible refine tunsDue_frame m128 ?_
    | with_reducible refine raise_frame m130 ?_
    | with_reducible refine setDuty_frame m2 ?_
    | with_reducible refine State_wr_frame m2 ?_
    | with_reducible refine scanBlobs_frame m2 ?_
    | with_reducible refine psRequest_frame m135267474 ?_
    | with_reducible refine wrs_frame m2 ?_
    | with_reducible refine Frame.ite ?_ ?_
    | split

theorem firmwareBoot_frame {κ : Nat} {σ : State} {sfdp : Option Nat} {s : State} (hk : Nat.testBit 135267482 κ = false) (hF : Frame κ σ s) :
    Frame κ σ (firmwareBoot sfdp s) := by
  have m2 : Nat.testBit 2 κ = false := testBit_sub rfl hk
  have m8 : Nat.testBit 8 κ = false := testBit_sub rfl hk
  have m16 : Nat.testBit 16 κ = false := testBit_sub rfl hk
  have m128 : Nat.testBit 128 κ = false := testBit_sub rfl hk
  have m130 : Nat.testBit 130 κ = false := testBit_sub rfl hk
  have m135267474 : Nat.testBit 135267474 κ = false := testBit_sub rfl hk
  unfold firmwareBoot
  try dsimp only
  repeat' first
    | with_reducible exact hF
    | with_reducible assumption
    | with_reducible refine raise_frame m130 ?_
    | with_reducible refine State_wr_frame m2 ?_
    | with_reducible refine State_emit_frame m16 ?_
    | with_reducible refine State_free_frame m8 ?_
    | with_reducible refine firmwareUp_frame m135267474 ?_
    | with_reducible refine wrs_frame m2 ?_
    | with_reducible refine Frame.ite ?_ ?_
    | split
    | with_reducible refine Frame.snd (by assumption) ?_
    | with_reducible refine Frame.snd2 (by assumption) ?_
    | (dsimp only)
    | (apply Frame.lit m128 rfl; case e => constructor <;> (try dsimp only) <;> first | exact .inl rfl | exact .inr rfl)

theorem execLpddrTrainingComplete_frame {κ : Nat} {σ : State} {s : State} (hk : Nat.testBit 2097154 κ = false) (hF : Frame κ σ s) :
    FrameO κ σ (execLpddrTrainingComplete s) := by
  have m2 : Nat.testBit 2 κ = false := testBit_sub rfl hk
  have m2097152 : Nat.testBit 2097152 κ = false := testBit_sub rfl hk
  unfold execLpddrTrainingComplete
  try dsimp only
  repeat' first
    | with_reducible exact hF
    | with_reducible assumption
    | with_reducible refine checkSapling_frame m2 ?_
    | with_reducible refine FrameO.next ?_
    | with_reducible refine FrameO.ite ?_ ?_
    | with_reducible refine Frame.ite ?_ ?_
    | split
    | (apply Frame.lit m2097152 rfl; case e => constructor <;> (try dsimp only) <;> first | exact .inl rfl | exact .inr rfl)

end Sys2Proof.Laws
end

