-- ==== Sys2Proof/Laws/FrameFault.lean ====
section
/-! SUPPORT. What each operation of Machine/Fault.lean leaves alone. -/

namespace Sys2Proof.Laws

open Sys2Proof Sys2Proof.Machine

set_option linter.unusedTactic false
set_option linter.unreachableTactic false
set_option linter.unusedVariables false

theorem writeEntry_frame {κ : Nat} {σ : State} {k : Nat} {kind : Nat} {unit : Nat} {tun : Nat} {det : Nat} {inj : Bool} {s : State} (hk : Nat.testBit 2 κ = false) (hF : Frame κ σ s) :
    Frame κ σ (writeEntry k kind unit tun det inj s) := by
  have m2 := hk
  unfold writeEntry
  try dsimp only
  repeat' first
    | with_reducible exact hF
    | with_reducible assumption
    | with_reducible refine wrs_frame m2 ?_

theorem noteReport_frame {κ : Nat} {σ : State} {kind : Nat} {unit : Nat} {k : Nat} {s : State} (hk : Nat.testBit 268435456 κ = false) (hF : Frame κ σ s) :
    Frame κ σ (noteReport kind unit k s) := by
  have m268435456 := hk
  unfold noteReport
  try dsimp only
  repeat' first
    | with_reducible exact hF
    | with_reducible assumption
    | (apply Frame.lit m268435456 rfl; case e => constructor <;> (try dsimp only) <;> first | exact .inl rfl | exact .inr rfl)

theorem logFault_frame {κ : Nat} {σ : State} {kind : Nat} {unit : Nat} {tun : Nat} {det : Nat} {inj : Bool} {s : State} (hk : Nat.testBit 268435586 κ = false) (hF : Frame κ σ s) :
    Frame κ σ (logFault kind unit tun det inj s) := by
  have m2 : Nat.testBit 2 κ = false := testBit_sub rfl hk
  have m130 : Nat.testBit 130 κ = false := testBit_sub rfl hk
  have m268435456 : Nat.testBit 268435456 κ = false := testBit_sub rfl hk
  unfold logFault
  try dsimp only
  repeat' first
    | with_reducible exact hF
    | with_reducible assumption
    | with_reducible refine State_inc_frame m2 ?_
    | with_reducible refine writeEntry_frame m2 ?_
    | with_reducible refine raise_frame m130 ?_
    | with_reducible refine noteReport_frame m268435456 ?_
    | with_reducible refine State_incMod_frame m2 ?_
    | with_reducible refine State_wr_frame m2 ?_
    | with_reducible refine wrs_frame m2 ?_
    | with_reducible refine Frame.ite ?_ ?_
    | split

theorem takeReport_frame {κ : Nat} {σ : State} {kind : Nat} {unit : Nat} {tun : Nat} {det : Nat} {inj : Bool} {s : State} (hk : Nat.testBit 268435586 κ = false) (hF : Frame κ σ s) :
    Frame κ σ (takeReport kind unit tun det inj s).2 := by
  have m268435586 := hk
  have m2 : Nat.testBit 2 κ = false := testBit_sub rfl hk
  have m268435456 : Nat.testBit 268435456 κ = false := testBit_sub rfl hk
  unfold takeReport
  try dsimp only
  repeat' first
    | with_reducible exact hF
    | with_reducible assumption
    | with_reducible refine noteReport_frame m268435456 ?_
    | with_reducible refine writeEntry_frame m2 ?_
    | with_reducible refine logFault_frame m268435586 ?_
    | with_reducible refine Frame.ite ?_ ?_
    | split
    | with_reducible refine Frame.snd (by assumption) ?_
    | with_reducible refine Frame.snd2 (by assumption) ?_
    | (dsimp only)

theorem restoreIn_frame {κ : Nat} {σ : State} {k : InCk} {n : Nat} {s : State} (hk : Nat.testBit 5122 κ = false) (hF : Frame κ σ s) :
    Frame κ σ (restoreIn k n s) := by
  have m2 : Nat.testBit 2 κ = false := testBit_sub rfl hk
  have m1024 : Nat.testBit 1024 κ = false := testBit_sub rfl hk
  have m4096 : Nat.testBit 4096 κ = false := testBit_sub rfl hk
  unfold restoreIn
  try dsimp only
  repeat' first
    | with_reducible exact hF
    | with_reducible assumption
    | with_reducible refine State_setIngress_frame m1024 ?_
    | with_reducible refine State_setCredit_frame m4096 ?_
    | with_reducible refine wrs_frame m2 ?_

theorem restoreShaper_frame {κ : Nat} {σ : State} {k : InCk} {n : Nat} {s : State} (hk : Nat.testBit 1024 κ = false) (hF : Frame κ σ s) :
    Frame κ σ (restoreShaper k n s) := by
  have m1024 := hk
  unfold restoreShaper
  try dsimp only
  repeat' first
    | with_reducible exact hF
    | with_reducible assumption
    | with_reducible refine State_setFlow_frame m1024 ?_

theorem restoreOut_frame {κ : Nat} {σ : State} {k : OutCk} {n : Nat} {s : State} (hk : Nat.testBit 5138 κ = false) (hF : Frame κ σ s) :
    Frame κ σ (restoreOut k n s) := by
  have m2 : Nat.testBit 2 κ = false := testBit_sub rfl hk
  have m16 : Nat.testBit 16 κ = false := testBit_sub rfl hk
  have m1024 : Nat.testBit 1024 κ = false := testBit_sub rfl hk
  have m4096 : Nat.testBit 4096 κ = false := testBit_sub rfl hk
  unfold restoreOut
  try dsimp only
  repeat' first
    | with_reducible exact hF
    | with_reducible assumption
    | with_reducible refine State_setFlow_frame m1024 ?_
    | with_reducible refine State_setCredit_frame m4096 ?_
    | with_reducible refine State_setTx_frame m1024 ?_
    | with_reducible refine wrs_frame m2 ?_
    | with_reducible refine Frame.ite ?_ ?_
    | split
    | (apply Frame.lit m16 rfl; case e => constructor <;> (try dsimp only) <;> first | exact .inl rfl | exact .inr rfl)

theorem backEpoch_frame {κ : Nat} {σ : State} {p : Nat} {epoch : Nat} {s : State} (hk : Nat.testBit 8194 κ = false) (hF : Frame κ σ s) :
    Frame κ σ (backEpoch p epoch s) := by
  have m2 : Nat.testBit 2 κ = false := testBit_sub rfl hk
  have m8192 : Nat.testBit 8192 κ = false := testBit_sub rfl hk
  unfold backEpoch
  try dsimp only
  repeat' first
    | with_reducible exact hF
    | with_reducible assumption
    | with_reducible refine State_setCan_frame m8192 ?_
    | with_reducible refine State_wr_frame m2 ?_
    | with_reducible refine Frame.ite ?_ ?_
    | split

theorem replayPort_frame {κ : Nat} {σ : State} {k : Ckpt} {p : Nat} {s : State} (hk : Nat.testBit 13330 κ = false) (hF : Frame κ σ s) :
    Frame κ σ (replayPort k p s) := by
  have m16 : Nat.testBit 16 κ = false := testBit_sub rfl hk
  have m18 : Nat.testBit 18 κ = false := testBit_sub rfl hk
  have m5122 : Nat.testBit 5122 κ = false := testBit_sub rfl hk
  have m8192 : Nat.testBit 8192 κ = false := testBit_sub rfl hk
  have m8194 : Nat.testBit 8194 κ = false := testBit_sub rfl hk
  unfold replayPort
  try dsimp only
  repeat' first
    | with_reducible exact hF
    | with_reducible assumption
    | with_reducible refine restoreIn_frame m5122 ?_
    | with_reducible refine backEpoch_frame m8194 ?_
    | with_reducible refine sendRnak_frame m18 ?_
    | with_reducible refine State_setCan_frame m8192 ?_
    | with_reducible refine State_emit_frame m16 ?_
    | with_reducible refine forAll_frame (fun _ _ _ => ?_) ?_
    | with_reducible refine Frame.ite ?_ ?_
    | split

theorem replayKeeper_frame {κ : Nat} {σ : State} {k : Ckpt} {p : Nat} {s : State} (hk : Nat.testBit 1170 κ = false) (hF : Frame κ σ s) :
    Frame κ σ (replayKeeper k p s) := by
  have m1170 := hk
  have m1024 : Nat.testBit 1024 κ = false := testBit_sub rfl hk
  unfold replayKeeper
  try dsimp only
  repeat' first
    | with_reducible exact hF
    | with_reducible assumption
    | with_reducible refine breakOff_frame m1170 ?_
    | with_reducible refine State_setTx_frame m1024 ?_
    | with_reducible refine State_setEg_frame m1024 ?_
    | split

theorem replayEgress_frame {κ : Nat} {σ : State} {g : Nat} {s : State} (hk : Nat.testBit 1218 κ = false) (hF : Frame κ σ s) :
    Frame κ σ (replayEgress g s) := by
  have m1218 := hk
  have m1024 : Nat.testBit 1024 κ = false := testBit_sub rfl hk
  unfold replayEgress
  try dsimp only
  repeat' first
    | with_reducible exact hF
    | with_reducible assumption
    | with_reducible refine State_setOutPos_frame m1024 ?_
    | with_reducible refine outArrive_frame m1218 ?_
    | with_reducible refine forAll_frame (fun _ _ _ => ?_) ?_

theorem remapGrove_frame {κ : Nat} {σ : State} {g : Nat} {s : State} (hk : Nat.testBit 324826 κ = false) (hF : Frame κ σ s) :
    Frame κ σ (remapGrove g s) := by
  have m2 : Nat.testBit 2 κ = false := testBit_sub rfl hk
  have m130 : Nat.testBit 130 κ = false := testBit_sub rfl hk
  have m1024 : Nat.testBit 1024 κ = false := testBit_sub rfl hk
  have m1170 : Nat.testBit 1170 κ = false := testBit_sub rfl hk
  have m1218 : Nat.testBit 1218 κ = false := testBit_sub rfl hk
  have m5138 : Nat.testBit 5138 κ = false := testBit_sub rfl hk
  have m8192 : Nat.testBit 8192 κ = false := testBit_sub rfl hk
  have m13330 : Nat.testBit 13330 κ = false := testBit_sub rfl hk
  have m16410 : Nat.testBit 16410 κ = false := testBit_sub rfl hk
  have m312450 : Nat.testBit 312450 κ = false := testBit_sub rfl hk
  unfold remapGrove
  try dsimp only
  repeat' first
    | with_reducible exact hF
    | with_reducible assumption
    | with_reducible refine raise_frame m130 ?_
    | with_reducible refine State_wr_frame m2 ?_
    | with_reducible refine restoreShaper_frame m1024 ?_
    | with_reducible refine deliverLate_frame m312450 ?_
    | with_reducible refine replayPort_frame m13330 ?_
    | with_reducible refine replayKeeper_frame m1170 ?_
    | with_reducible refine replayEgress_frame m1218 ?_
    | with_reducible refine restoreOut_frame m5138 ?_
    | with_reducible refine retrainCause_frame m16410 ?_
    | with_reducible refine State_setCan_frame m8192 ?_
    | with_reducible refine wrs_frame m2 ?_
    | with_reducible refine forAll_frame (fun _ _ _ => ?_) ?_

theorem remapDue_frame {κ : Nat} {σ : State} {s : State} (hk : Nat.testBit 324826 κ = false) (hF : Frame κ σ s) :
    Frame κ σ (remapDue s) := by
  have m324826 := hk
  unfold remapDue
  try dsimp only
  repeat' first
    | with_reducible exact hF
    | with_reducible assumption
    | with_reducible refine remapGrove_frame m324826 ?_
    | split

theorem takeover_frame {κ : Nat} {σ : State} {g : Nat} {s : State} (hk : Nat.testBit 335806722 κ = false) (hF : Frame κ σ s) :
    Frame κ σ (takeover g s) := by
  have m2 : Nat.testBit 2 κ = false := testBit_sub rfl hk
  have m67109122 : Nat.testBit 67109122 κ = false := testBit_sub rfl hk
  have m268697600 : Nat.testBit 268697600 κ = false := testBit_sub rfl hk
  unfold takeover
  try dsimp only
  repeat' first
    | with_reducible exact hF
    | with_reducible assumption
    | with_reducible refine restore_frame m2 ?_
    | with_reducible refine abortReload_frame m67109122 ?_
    | with_reducible refine wrs_frame m2 ?_
    | with_reducible refine Frame.ite ?_ ?_
    | split
    | (apply Frame.lit m268697600 rfl; case e => constructor <;> (try dsimp only) <;> first | exact .inl rfl | exact .inr rfl)

theorem loseGrove_frame {κ : Nat} {σ : State} {g : Nat} {s : State} (hk : Nat.testBit 202436498 κ = false) (hF : Frame κ σ s) :
    Frame κ σ (loseGrove g s) := by
  have m2 : Nat.testBit 2 κ = false := testBit_sub rfl hk
  have m59010 : Nat.testBit 59010 κ = false := testBit_sub rfl hk
  have m67109122 : Nat.testBit 67109122 κ = false := testBit_sub rfl hk
  have m135270034 : Nat.testBit 135270034 κ = false := testBit_sub rfl hk
  unfold loseGrove
  try dsimp only
  repeat' first
    | with_reducible exact hF
    | with_reducible assumption
    | with_reducible refine sumGrants_frame m2 ?_
    | with_reducible refine restore_frame m2 ?_
    | with_reducible refine abortReload_frame m67109122 ?_
    | with_reducible refine attachEvent_frame m135270034 ?_
    | with_reducible refine portDown_frame m59010 ?_
    | with_reducible refine wrs_frame m2 ?_
    | with_reducible refine forAll_frame (fun _ _ _ => ?_) ?_
    | with_reducible refine Frame.ite ?_ ?_
    | split

theorem loseFallow_frame {κ : Nat} {σ : State} {h : Nat} {s : State} (hk : Nat.testBit 202436498 κ = false) (hF : Frame κ σ s) :
    Frame κ σ (loseFallow h s) := by
  have m202436498 := hk
  have m2 : Nat.testBit 2 κ = false := testBit_sub rfl hk
  unfold loseFallow
  try dsimp only
  repeat' first
    | with_reducible exact hF
    | with_reducible assumption
    | with_reducible refine loseGrove_frame m202436498 ?_
    | with_reducible refine State_wr_frame m2 ?_
    | with_reducible refine wrs_frame m2 ?_

theorem groveFault_frame {κ : Nat} {σ : State} {g : Nat} {s : State} (hk : Nat.testBit 471134098 κ = false) (hF : Frame κ σ s) :
    Frame κ σ (groveFault g s) := by
  have m2 : Nat.testBit 2 κ = false := testBit_sub rfl hk
  have m202436498 : Nat.testBit 202436498 κ = false := testBit_sub rfl hk
  have m335806722 : Nat.testBit 335806722 κ = false := testBit_sub rfl hk
  unfold groveFault
  try dsimp only
  repeat' first
    | with_reducible exact hF
    | with_reducible assumption
    | with_reducible refine loseFallow_frame m202436498 ?_
    | with_reducible refine State_wr_frame m2 ?_
    | with_reducible refine takeover_frame m335806722 ?_
    | with_reducible refine loseGrove_frame m202436498 ?_
    | with_reducible refine Frame.ite ?_ ?_
    | split

theorem endTakeover_frame {κ : Nat} {σ : State} {s : State} (hk : Nat.testBit 324826 κ = false) (hF : Frame κ σ s) :
    Frame κ σ (endTakeover s) := by
  have m324826 := hk
  have m2 : Nat.testBit 2 κ = false := testBit_sub rfl hk
  have m130 : Nat.testBit 130 κ = false := testBit_sub rfl hk
  unfold endTakeover
  try dsimp only
  repeat' first
    | with_reducible exact hF
    | with_reducible assumption
    | with_reducible refine remapDue_frame m324826 ?_
    | with_reducible refine raise_frame m130 ?_
    | with_reducible refine wrs_frame m2 ?_
    | with_reducible refine Frame.ite ?_ ?_
    | split

theorem execFailover_frame {κ : Nat} {σ : State} {s : State} (hk : Nat.testBit 324826 κ = false) (hF : Frame κ σ s) :
    FrameO κ σ (execFailover s) := by
  have m324826 := hk
  unfold execFailover
  try dsimp only
  repeat' first
    | with_reducible exact hF
    | with_reducible assumption
    | with_reducible refine endTakeover_frame m324826 ?_
    | with_reducible refine FrameO.next ?_

theorem degradePort_frame {κ : Nat} {σ : State} {p : Nat} {s : State} (hk : Nat.testBit 135327386 κ = false) (hF : Frame κ σ s) :
    Frame κ σ (degradePort p s) := by
  have m2 : Nat.testBit 2 κ = false := testBit_sub rfl hk
  have m514 : Nat.testBit 514 κ = false := testBit_sub rfl hk
  have m25114 : Nat.testBit 25114 κ = false := testBit_sub rfl hk
  have m135327378 : Nat.testBit 135327378 κ = false := testBit_sub rfl hk
  unfold degradePort
  try dsimp only
  repeat' first
    | with_reducible exact hF
    | with_reducible assumption
    | with_reducible refine portDownAttached_frame m135327378 ?_
    | with_reducible refine takeSingle_frame m25114 ?_
    | with_reducible refine structuralEvent_frame m514 ?_
    | with_reducible refine reduceRate_frame m514 ?_
    | with_reducible refine retrainPort_frame m135327378 ?_
    | with_reducible refine State_wr_frame m2 ?_
    | with_reducible refine narrowTo_frame m514 ?_
    | with_reducible refine Frame.ite ?_ ?_
    | split

theorem failCell_frame {κ : Nat} {σ : State} {c : Nat} {s : State} (hk : Nat.testBit 135327386 κ = false) (hF : Frame κ σ s) :
    Frame κ σ (failCell c s) := by
  have m135327386 := hk
  have m2 : Nat.testBit 2 κ = false := testBit_sub rfl hk
  have m130 : Nat.testBit 130 κ = false := testBit_sub rfl hk
  have m16384 : Nat.testBit 16384 κ = false := testBit_sub rfl hk
  unfold failCell
  try dsimp only
  repeat' first
    | with_reducible exact hF
    | with_reducible assumption
    | with_reducible refine State_setLane_frame m16384 ?_
    | with_reducible refine restore_frame m2 ?_
    | with_reducible refine State_wr_frame m2 ?_
    | with_reducible refine raise_frame m130 ?_
    | with_reducible refine degradePort_frame m135327386 ?_
    | with_reducible refine Frame.ite ?_ ?_
    | split

theorem retireCell_frame {κ : Nat} {σ : State} {b : Nat} {s : State} (hk : Nat.testBit 2 κ = false) (hF : Frame κ σ s) :
    Frame κ σ (retireCell b s) := by
  have m2 := hk
  unfold retireCell
  try dsimp only
  repeat' first
    | with_reducible exact hF
    | with_reducible assumption
    | with_reducible refine wrs_frame m2 ?_
    | with_reducible refine Frame.ite ?_ ?_
    | split

theorem jumpBase_frame {κ : Nat} {σ : State} {n : Nat} {s : State} (hk : Nat.testBit 6359194 κ = false) (hF : Frame κ σ s) :
    Frame κ σ (jumpBase n s) := by
  have m8 : Nat.testBit 8 κ = false := testBit_sub rfl hk
  have m2048 : Nat.testBit 2048 κ = false := testBit_sub rfl hk
  have m65536 : Nat.testBit 65536 κ = false := testBit_sub rfl hk
  have m6291602 : Nat.testBit 6291602 κ = false := testBit_sub rfl hk
  unfold jumpBase
  try dsimp only
  repeat' first
    | with_reducible exact hF
    | with_reducible assumption
    | with_reducible refine State_free_frame m8 ?_
    | with_reducible refine noteChange_frame m2048 ?_
    | with_reducible refine fireCompare_frame m6291602 ?_
    | with_reducible refine forAll_frame (fun _ _ _ => ?_) ?_
    | split
    | with_reducible refine Frame.snd (by assumption) ?_
    | with_reducible refine Frame.snd2 (by assumption) ?_
    | (dsimp only)
    | (apply Frame.lit m65536 rfl; case e => constructor <;> (try dsimp only) <;> first | exact .inl rfl | exact .inr rfl)

theorem freezeVault_frame {κ : Nat} {σ : State} {s : State} (hk : Nat.testBit 67108994 κ = false) (hF : Frame κ σ s) :
    Frame κ σ (freezeVault s) := by
  have m67108994 := hk
  have m2 : Nat.testBit 2 κ = false := testBit_sub rfl hk
  have m130 : Nat.testBit 130 κ = false := testBit_sub rfl hk
  unfold freezeVault
  try dsimp only
  repeat' first
    | with_reducible exact hF
    | with_reducible assumption
    | with_reducible refine raise_frame m130 ?_
    | with_reducible refine abortStore_frame m67108994 ?_
    | with_reducible refine State_wr_frame m2 ?_
    | with_reducible refine Frame.ite ?_ ?_
    | split

theorem clockFault_frame {κ : Nat} {σ : State} {u : Nat} {s : State} (hk : Nat.testBit 520093658 κ = false) (hF : Frame κ σ s) :
    Frame κ σ (clockFault u s) := by
  have m520093658 := hk
  have m2 : Nat.testBit 2 κ = false := testBit_sub rfl hk
  have m130 : Nat.testBit 130 κ = false := testBit_sub rfl hk
  have m6359194 : Nat.testBit 6359194 κ = false := testBit_sub rfl hk
  have m67108994 : Nat.testBit 67108994 κ = false := testBit_sub rfl hk
  have m268435456 : Nat.testBit 268435456 κ = false := testBit_sub rfl hk
  unfold clockFault
  try dsimp only
  repeat' first
    | with_reducible exact hF
    | with_reducible assumption
    | with_reducible refine noteExcursion_frame m2 ?_
    | with_reducible refine pulseReset_frame m520093658 ?_
    | with_reducible refine freezeVault_frame m67108994 ?_
    | with_reducible refine raise_frame m130 ?_
    | with_reducible refine jumpBase_frame m6359194 ?_
    | with_reducible refine forAll_frame (fun _ _ _ => ?_) ?_
    | with_reducible refine Frame.ite ?_ ?_
    | split
    | (apply Frame.lit m268435456 rfl; case e => constructor <;> (try dsimp only) <;> first | exact .inl rfl | exact .inr rfl)

theorem mgmtFault_frame {κ : Nat} {σ : State} {cause : Nat} {s : State} (hk : Nat.testBit 268438146 κ = false) (hF : Frame κ σ s) :
    Frame κ σ (mgmtFault cause s) := by
  have m2 : Nat.testBit 2 κ = false := testBit_sub rfl hk
  have m130 : Nat.testBit 130 κ = false := testBit_sub rfl hk
  have m2562 : Nat.testBit 2562 κ = false := testBit_sub rfl hk
  have m268435456 : Nat.testBit 268435456 κ = false := testBit_sub rfl hk
  unfold mgmtFault
  try dsimp only
  repeat' first
    | with_reducible exact hF
    | with_reducible assumption
    | with_reducible refine dropSolve_frame m2562 ?_
    | with_reducible refine raise_frame m130 ?_
    | with_reducible refine State_wr_frame m2 ?_
    | with_reducible refine wrs_frame m2 ?_
    | with_reducible refine Frame.ite ?_ ?_
    | split
    | (apply Frame.lit m268435456 rfl; case e => constructor <;> (try dsimp only) <;> first | exact .inl rfl | exact .inr rfl)

theorem mgmtRestarted_frame {κ : Nat} {σ : State} {aOk : Bool} {bOk : Bool} {s : State} (hk : Nat.testBit 403703442 κ = false) (hF : Frame κ σ s) :
    Frame κ σ (mgmtRestarted aOk bOk s) := by
  have m2 : Nat.testBit 2 κ = false := testBit_sub rfl hk
  have m514 : Nat.testBit 514 κ = false := testBit_sub rfl hk
  have m135267474 : Nat.testBit 135267474 κ = false := testBit_sub rfl hk
  have m268435456 : Nat.testBit 268435456 κ = false := testBit_sub rfl hk
  unfold mgmtRestarted
  try dsimp only
  repeat' first
    | with_reducible exact hF
    | with_reducible assumption
    | with_reducible refine State_wr_frame m2 ?_
    | with_reducible refine firmwareUp_frame m135267474 ?_
    | with_reducible refine startSettle_frame m514 ?_
    | with_reducible refine Frame.ite ?_ ?_
    | split
    | (apply Frame.lit m268435456 rfl; case e => constructor <;> (try dsimp only) <;> first | exact .inl rfl | exact .inr rfl)

theorem handleFault_frame {κ : Nat} {σ : State} {kind : Nat} {unit : Nat} {s : State} (hk : Nat.testBit 520093658 κ = false) (hF : Frame κ σ s) :
    Frame κ σ (handleFault kind unit s) := by
  have m520093658 := hk
  have m2 : Nat.testBit 2 κ = false := testBit_sub rfl hk
  have m135327386 : Nat.testBit 135327386 κ = false := testBit_sub rfl hk
  have m268438146 : Nat.testBit 268438146 κ = false := testBit_sub rfl hk
  have m471134098 : Nat.testBit 471134098 κ = false := testBit_sub rfl hk
  unfold handleFault
  try dsimp only
  repeat' first
    | with_reducible exact hF
    | with_reducible assumption
    | with_reducible refine failCell_frame m135327386 ?_
    | with_reducible refine retireCell_frame m2 ?_
    | with_reducible refine groveFault_frame m471134098 ?_
    | with_reducible refine State_wr_frame m2 ?_
    | with_reducible refine clockFault_frame m520093658 ?_
    | with_reducible refine mgmtFault_frame m268438146 ?_
    | with_reducible refine pulseReset_frame m520093658 ?_
    | split

theorem reportFault_frame {κ : Nat} {σ : State} {kind : Nat} {unit : Nat} {tun : Nat} {det : Nat} {inj : Bool} {s : State} (hk : Nat.testBit 520093658 κ = false) (hF : Frame κ σ s) :
    Frame κ σ (reportFault kind unit tun det inj s) := by
  have m520093658 := hk
  have m268435586 : Nat.testBit 268435586 κ = false := testBit_sub rfl hk
  unfold reportFault
  try dsimp only
  repeat' first
    | with_reducible exact hF
    | with_reducible assumption
    | with_reducible refine takeReport_frame m268435586 ?_
    | with_reducible refine handleFault_frame m520093658 ?_
    | with_reducible refine Frame.ite ?_ ?_
    | split
    | with_reducible refine Frame.snd (by assumption) ?_
    | with_reducible refine Frame.snd2 (by assumption) ?_
    | (dsimp only)

theorem execFaultReport_frame {κ : Nat} {σ : State} {kind : Fin 16} {unit : Byte} {tun : Byte} {det : Byte} {s : State} (hk : Nat.testBit 520093658 κ = false) (hF : Frame κ σ s) :
    FrameO κ σ (execFaultReport kind unit tun det s) := by
  have m520093658 := hk
  unfold execFaultReport
  try dsimp only
  repeat' first
    | with_reducible exact hF
    | with_reducible assumption
    | with_reducible refine reportFault_frame m520093658 ?_
    | with_reducible refine FrameO.next ?_
    | with_reducible refine FrameO.ite ?_ ?_
    | with_reducible refine Frame.ite ?_ ?_
    | split

theorem execProgressWatchdog_frame {κ : Nat} {σ : State} {g : Grove} {s : State} (hk : Nat.testBit 520093658 κ = false) (hF : Frame κ σ s) :
    FrameO κ σ (execProgressWatchdog g s) := by
  have m520093658 := hk
  unfold execProgressWatchdog
  try dsimp only
  repeat' first
    | with_reducible exact hF
    | with_reducible assumption
    | with_reducible refine reportFault_frame m520093658 ?_
    | with_reducible refine FrameO.next ?_

theorem execArbiterWatchdog_frame {κ : Nat} {σ : State} {g : Grove} {s : State} (hk : Nat.testBit 520093658 κ = false) (hF : Frame κ σ s) :
    FrameO κ σ (execArbiterWatchdog g s) := by
  have m520093658 := hk
  unfold execArbiterWatchdog
  try dsimp only
  repeat' first
    | with_reducible exact hF
    | with_reducible assumption
    | with_reducible refine reportFault_frame m520093658 ?_
    | with_reducible refine FrameO.next ?_

theorem execXgapTimeout_frame {κ : Nat} {σ : State} {n : Tun} {s : State} (hk : Nat.testBit 520093658 κ = false) (hF : Frame κ σ s) :
    FrameO κ σ (execXgapTimeout n s) := by
  have m520093658 := hk
  have m2 : Nat.testBit 2 κ = false := testBit_sub rfl hk
  have m130 : Nat.testBit 130 κ = false := testBit_sub rfl hk
  unfold execXgapTimeout
  try dsimp only
  repeat' first
    | with_reducible exact hF
    | with_reducible assumption
    | with_reducible refine raise_frame m130 ?_
    | with_reducible refine State_wr_frame m2 ?_
    | with_reducible refine reportFault_frame m520093658 ?_
    | with_reducible refine FrameO.next ?_
    | with_reducible refine FrameO.ite ?_ ?_
    | with_reducible refine Frame.ite ?_ ?_
    | split

theorem execBufferCellRetire_frame {κ : Nat} {σ : State} {cell : BufCell} {_logic : Bool} {s : State} (hk : Nat.testBit 520093658 κ = false) (hF : Frame κ σ s) :
    FrameO κ σ (execBufferCellRetire cell _logic s) := by
  have m520093658 := hk
  unfold execBufferCellRetire
  try dsimp only
  repeat' first
    | with_reducible exact hF
    | with_reducible assumption
    | with_reducible refine reportFault_frame m520093658 ?_
    | with_reducible refine FrameO.next ?_

theorem execClockFailure_frame {κ : Nat} {σ : State} {clk : Clock} {s : State} (hk : Nat.testBit 520093658 κ = false) (hF : Frame κ σ s) :
    FrameO κ σ (execClockFailure clk s) := by
  have m520093658 := hk
  unfold execClockFailure
  try dsimp only
  repeat' first
    | with_reducible exact hF
    | with_reducible assumption
    | with_reducible refine reportFault_frame m520093658 ?_
    | with_reducible refine FrameO.next ?_
    | split

theorem execLockstepMismatch_frame {κ : Nat} {σ : State} {s : State} (hk : Nat.testBit 520093658 κ = false) (hF : Frame κ σ s) :
    FrameO κ σ (execLockstepMismatch s) := by
  have m520093658 := hk
  have m8 : Nat.testBit 8 κ = false := testBit_sub rfl hk
  unfold execLockstepMismatch
  try dsimp only
  repeat' first
    | with_reducible exact hF
    | with_reducible assumption
    | with_reducible refine State_free_frame m8 ?_
    | with_reducible refine reportFault_frame m520093658 ?_
    | with_reducible refine FrameO.next ?_
    | with_reducible refine FrameO.ite ?_ ?_
    | with_reducible refine Frame.ite ?_ ?_
    | split
    | with_reducible refine Frame.snd (by assumption) ?_
    | with_reducible refine Frame.snd2 (by assumption) ?_
    | (dsimp only)

theorem execManagementWatchdog_frame {κ : Nat} {σ : State} {s : State} (hk : Nat.testBit 520093658 κ = false) (hF : Frame κ σ s) :
    FrameO κ σ (execManagementWatchdog s) := by
  have m520093658 := hk
  have m8 : Nat.testBit 8 κ = false := testBit_sub rfl hk
  unfold execManagementWatchdog
  try dsimp only
  repeat' first
    | with_reducible exact hF
    | with_reducible assumption
    | with_reducible refine State_free_frame m8 ?_
    | with_reducible refine reportFault_frame m520093658 ?_
    | with_reducible refine FrameO.next ?_
    | split
    | with_reducible refine Frame.snd (by assumption) ?_
    | with_reducible refine Frame.snd2 (by assumption) ?_
    | (dsimp only)

theorem execSelfchkComplete_frame {κ : Nat} {σ : State} {cell : LaneCell} {pass : Bool} {s : State} (hk : Nat.testBit 520093658 κ = false) (hF : Frame κ σ s) :
    FrameO κ σ (execSelfchkComplete cell pass s) := by
  have m520093658 := hk
  have m2 : Nat.testBit 2 κ = false := testBit_sub rfl hk
  have m16384 : Nat.testBit 16384 κ = false := testBit_sub rfl hk
  have m135327378 : Nat.testBit 135327378 κ = false := testBit_sub rfl hk
  unfold execSelfchkComplete
  try dsimp only
  repeat' first
    | with_reducible exact hF
    | with_reducible assumption
    | with_reducible refine reportFault_frame m520093658 ?_
    | with_reducible refine State_setLane_frame m16384 ?_
    | with_reducible refine State_wr_frame m2 ?_
    | with_reducible refine portDownAttached_frame m135327378 ?_
    | with_reducible refine FrameO.next ?_
    | with_reducible refine FrameO.ite ?_ ?_
    | with_reducible refine Frame.ite ?_ ?_
    | split

theorem execCheckpoint_frame {κ : Nat} {σ : State} {g : Grove} {s : State} (hk : Nat.testBit 279552 κ = false) (hF : Frame κ σ s) :
    FrameO κ σ (execCheckpoint g s) := by
  have m279552 := hk
  unfold execCheckpoint
  try dsimp only
  repeat' first
    | with_reducible exact hF
    | with_reducible assumption
    | with_reducible refine capture_frame m279552 ?_
    | with_reducible refine FrameO.next ?_
    | with_reducible refine FrameO.ite ?_ ?_
    | with_reducible refine Frame.ite ?_ ?_
    | split

theorem execCheckpointComplete_frame {κ : Nat} {σ : State} {g : Grove} {s : State} (hk : Nat.testBit 422930 κ = false) (hF : Frame κ σ s) :
    FrameO κ σ (execCheckpointComplete g s) := by
  have m1040 : Nat.testBit 1040 κ = false := testBit_sub rfl hk
  have m4112 : Nat.testBit 4112 κ = false := testBit_sub rfl hk
  have m418834 : Nat.testBit 418834 κ = false := testBit_sub rfl hk
  unfold execCheckpointComplete
  try dsimp only
  repeat' first
    | with_reducible exact hF
    | with_reducible assumption
    | with_reducible refine ckComplete_frame m418834 ?_
    | with_reducible refine updatePause_frame m1040 ?_
    | with_reducible refine creditUpdate_frame m4112 ?_
    | with_reducible refine forAll_frame (fun _ _ _ => ?_) ?_
    | with_reducible refine FrameO.next ?_
    | with_reducible refine FrameO.ite ?_ ?_
    | with_reducible refine Frame.ite ?_ ?_
    | split

theorem retested_frame {κ : Nat} {σ : State} {g : Nat} {ok : Bool} {s : State} (hk : Nat.testBit 130 κ = false) (hF : Frame κ σ s) :
    Frame κ σ (retested g ok s) := by
  have m130 := hk
  have m2 : Nat.testBit 2 κ = false := testBit_sub rfl hk
  unfold retested
  try dsimp only
  repeat' first
    | with_reducible exact hF
    | with_reducible assumption
    | with_reducible refine raise_frame m130 ?_
    | with_reducible refine State_wr_frame m2 ?_
    | with_reducible refine wrs_frame m2 ?_
    | with_reducible refine forAll_frame (fun _ _ _ => ?_) ?_
    | with_reducible refine Frame.ite ?_ ?_
    | split

theorem execGfSelftest_frame {κ : Nat} {σ : State} {ok : Bool} {s : State} (hk : Nat.testBit 520093658 κ = false) (hF : Frame κ σ s) :
    FrameO κ σ (execGfSelftest ok s) := by
  have m520093658 := hk
  have m8 : Nat.testBit 8 κ = false := testBit_sub rfl hk
  have m130 : Nat.testBit 130 κ = false := testBit_sub rfl hk
  have m2097152 : Nat.testBit 2097152 κ = false := testBit_sub rfl hk
  unfold execGfSelftest
  try dsimp only
  repeat' first
    | with_reducible exact hF
    | with_reducible assumption
    | with_reducible refine retested_frame m130 ?_
    | with_reducible refine State_free_frame m8 ?_
    | with_reducible refine reportFault_frame m520093658 ?_
    | with_reducible refine FrameO.next ?_
    | with_reducible refine FrameO.ite ?_ ?_
    | with_reducible refine Frame.ite ?_ ?_
    | split
    | with_reducible refine Frame.snd (by assumption) ?_
    | with_reducible refine Frame.snd2 (by assumption) ?_
    | (dsimp only)
    | (apply Frame.lit m2097152 rfl; case e => constructor <;> (try dsimp only) <;> first | exact .inl rfl | exact .inr rfl)

theorem wrRstFltinj_frame {κ : Nat} {σ : State} {v : Nat} {s : State} (hk : Nat.testBit 520093658 κ = false) (hF : Frame κ σ s) :
    Frame κ σ (wrRstFltinj v s) := by
  have m520093658 := hk
  have m8 : Nat.testBit 8 κ = false := testBit_sub rfl hk
  have m130 : Nat.testBit 130 κ = false := testBit_sub rfl hk
  unfold wrRstFltinj
  try dsimp only
  repeat' first
    | with_reducible exact hF
    | with_reducible assumption
    | with_reducible refine wrField_frame m130 ?_
    | with_reducible refine cfgErr_frame m130 ?_
    | with_reducible refine State_free_frame m8 ?_
    | with_reducible refine reportFault_frame m520093658 ?_
    | with_reducible refine Frame.ite ?_ ?_
    | split
    | with_reducible refine Frame.snd (by assumption) ?_
    | with_reducible refine Frame.snd2 (by assumption) ?_
    | (dsimp only)

theorem execRemask_frame {κ : Nat} {σ : State} {flip : Bool} {s : State} (hk : Nat.testBit 520093658 κ = false) (hF : Frame κ σ s) :
    FrameO κ σ (execRemask flip s) := by
  have m520093658 := hk
  have m2 : Nat.testBit 2 κ = false := testBit_sub rfl hk
  have m130 : Nat.testBit 130 κ = false := testBit_sub rfl hk
  have m67108864 : Nat.testBit 67108864 κ = false := testBit_sub rfl hk
  have m67108866 : Nat.testBit 67108866 κ = false := testBit_sub rfl hk
  have m135327378 : Nat.testBit 135327378 κ = false := testBit_sub rfl hk
  unfold execRemask
  try dsimp only
  repeat' first
    | with_reducible exact hF
    | with_reducible assumption
    | with_reducible refine State_incMod_frame m2 ?_
    | with_reducible refine State_setKv_frame m67108864 ?_
    | with_reducible refine setSlot_frame m67108866 ?_
    | with_reducible refine raise_frame m130 ?_
    | with_reducible refine portDownAttached_frame m135327378 ?_
    | with_reducible refine reportFault_frame m520093658 ?_
    | with_reducible refine FrameO.next ?_
    | with_reducible refine FrameO.ite ?_ ?_
    | with_reducible refine Frame.ite ?_ ?_
    | split

end Sys2Proof.Laws
end

