-- ==== Sys2Proof/Laws/FramePower.lean ====
section
/-! SUPPORT. What each operation of Machine/Power.lean leaves alone. -/

namespace Sys2Proof.Laws

open Sys2Proof Sys2Proof.Machine

set_option linter.unusedTactic false
set_option linter.unreachableTactic false
set_option linter.unusedVariables false

theorem execRampComplete_frame {κ : Nat} {σ : State} {ch : Channel} {s : State} (hk : Nat.testBit 2 κ = false) (hF : Frame κ σ s) :
    FrameO κ σ (execRampComplete ch s) := by
  have m2 := hk
  unfold execRampComplete
  try dsimp only
  repeat' first
    | with_reducible exact hF
    | with_reducible assumption
    | with_reducible refine State_wr_frame m2 ?_
    | with_reducible refine FrameO.next ?_
    | with_reducible refine FrameO.ite ?_ ?_
    | with_reducible refine Frame.ite ?_ ?_
    | split

theorem execPowerGood_frame {κ : Nat} {σ : State} {ch : Channel} {s : State} (hk : Nat.testBit 33554450 κ = false) (hF : Frame κ σ s) :
    FrameO κ σ (execPowerGood ch s) := by
  have m2 : Nat.testBit 2 κ = false := testBit_sub rfl hk
  have m16 : Nat.testBit 16 κ = false := testBit_sub rfl hk
  have m33554432 : Nat.testBit 33554432 κ = false := testBit_sub rfl hk
  unfold execPowerGood
  try dsimp only
  repeat' first
    | with_reducible exact hF
    | with_reducible assumption
    | with_reducible refine State_wr_frame m2 ?_
    | with_reducible refine State_emit_frame m16 ?_
    | with_reducible refine wrs_frame m2 ?_
    | with_reducible refine FrameO.next ?_
    | with_reducible refine FrameO.ite ?_ ?_
    | with_reducible refine Frame.ite ?_ ?_
    | split
    | (apply Frame.lit m33554432 rfl; case e => constructor <;> (try dsimp only) <;> first | exact .inl rfl | exact .inr rfl)

theorem withholdGood_frame {κ : Nat} {σ : State} {n : Nat} {s : State} (hk : Nat.testBit 18 κ = false) (hF : Frame κ σ s) :
    Frame κ σ (withholdGood n s) := by
  have m2 : Nat.testBit 2 κ = false := testBit_sub rfl hk
  have m16 : Nat.testBit 16 κ = false := testBit_sub rfl hk
  unfold withholdGood
  try dsimp only
  repeat' first
    | with_reducible exact hF
    | with_reducible assumption
    | with_reducible refine State_wr_frame m2 ?_
    | with_reducible refine State_emit_frame m16 ?_
    | with_reducible refine Frame.ite ?_ ?_
    | split

theorem execPowerGoodHold_frame {κ : Nat} {σ : State} {ch : Channel} {s : State} (hk : Nat.testBit 2 κ = false) (hF : Frame κ σ s) :
    FrameO κ σ (execPowerGoodHold ch s) := by
  have m2 := hk
  unfold execPowerGoodHold
  try dsimp only
  repeat' first
    | with_reducible exact hF
    | with_reducible assumption
    | with_reducible refine State_wr_frame m2 ?_
    | with_reducible refine FrameO.next ?_
    | with_reducible refine FrameO.ite ?_ ?_
    | with_reducible refine Frame.ite ?_ ?_
    | split

theorem trip_frame {κ : Nat} {σ : State} {n : Nat} {cause : Nat} {f : Fld} {s : State} (hk : Nat.testBit 58720914 κ = false) (hF : Frame κ σ s) :
    Frame κ σ (trip n cause f s) := by
  have m2 : Nat.testBit 2 κ = false := testBit_sub rfl hk
  have m514 : Nat.testBit 514 κ = false := testBit_sub rfl hk
  have m58720402 : Nat.testBit 58720402 κ = false := testBit_sub rfl hk
  unfold trip
  try dsimp only
  repeat' first
    | with_reducible exact hF
    | with_reducible assumption
    | with_reducible refine withBeff_frame m514 (fun _ _ => ?_) ?_
    | with_reducible refine faultOpening_frame m58720402 ?_
    | with_reducible refine State_wr_frame m2 ?_
    | with_reducible refine State_inc_frame m2 ?_
    | with_reducible refine Frame.ite ?_ ?_
    | split

theorem execShortCircuit_frame {κ : Nat} {σ : State} {ch : Channel} {s : State} (hk : Nat.testBit 58720914 κ = false) (hF : Frame κ σ s) :
    FrameO κ σ (execShortCircuit ch s) := by
  have m58720914 := hk
  unfold execShortCircuit
  try dsimp only
  repeat' first
    | with_reducible exact hF
    | with_reducible assumption
    | with_reducible refine trip_frame m58720914 ?_
    | with_reducible refine FrameO.next ?_

theorem execChannelOvercurrent_frame {κ : Nat} {σ : State} {ch : Channel} {s : State} (hk : Nat.testBit 18 κ = false) (hF : Frame κ σ s) :
    FrameO κ σ (execChannelOvercurrent ch s) := by
  have m18 := hk
  have m2 : Nat.testBit 2 κ = false := testBit_sub rfl hk
  unfold execChannelOvercurrent
  try dsimp only
  repeat' first
    | with_reducible exact hF
    | with_reducible assumption
    | with_reducible refine withholdGood_frame m18 ?_
    | with_reducible refine wrs_frame m2 ?_
    | with_reducible refine FrameO.next ?_
    | with_reducible refine FrameO.ite ?_ ?_
    | with_reducible refine Frame.ite ?_ ?_
    | split

theorem execOvercurrentEnd_frame {κ : Nat} {σ : State} {ch : Channel} {s : State} (hk : Nat.testBit 2 κ = false) (hF : Frame κ σ s) :
    FrameO κ σ (execOvercurrentEnd ch s) := by
  have m2 := hk
  unfold execOvercurrentEnd
  try dsimp only
  repeat' first
    | with_reducible exact hF
    | with_reducible assumption
    | with_reducible refine State_wr_frame m2 ?_
    | with_reducible refine FrameO.next ?_
    | with_reducible refine FrameO.ite ?_ ?_
    | with_reducible refine Frame.ite ?_ ?_
    | split

theorem execFaultTimer_frame {κ : Nat} {σ : State} {ch : Channel} {s : State} (hk : Nat.testBit 58720914 κ = false) (hF : Frame κ σ s) :
    FrameO κ σ (execFaultTimer ch s) := by
  have m58720914 := hk
  unfold execFaultTimer
  try dsimp only
  repeat' first
    | with_reducible exact hF
    | with_reducible assumption
    | with_reducible refine trip_frame m58720914 ?_
    | with_reducible refine FrameO.next ?_
    | with_reducible refine FrameO.ite ?_ ?_
    | with_reducible refine Frame.ite ?_ ?_
    | split

theorem execUndervoltage_frame {κ : Nat} {σ : State} {ch : Channel} {s : State} (hk : Nat.testBit 58720914 κ = false) (hF : Frame κ σ s) :
    FrameO κ σ (execUndervoltage ch s) := by
  have m58720914 := hk
  unfold execUndervoltage
  try dsimp only
  repeat' first
    | with_reducible exact hF
    | with_reducible assumption
    | with_reducible refine trip_frame m58720914 ?_
    | with_reducible refine FrameO.next ?_
    | with_reducible refine FrameO.ite ?_ ?_
    | with_reducible refine Frame.ite ?_ ?_
    | split

theorem execReverseCurrent_frame {κ : Nat} {σ : State} {ch : Channel} {s : State} (hk : Nat.testBit 58720914 κ = false) (hF : Frame κ σ s) :
    FrameO κ σ (execReverseCurrent ch s) := by
  have m58720914 := hk
  unfold execReverseCurrent
  try dsimp only
  repeat' first
    | with_reducible exact hF
    | with_reducible assumption
    | with_reducible refine trip_frame m58720914 ?_
    | with_reducible refine FrameO.next ?_

theorem leaveStop_frame {κ : Nat} {σ : State} {s : State} (hk : Nat.testBit 33554432 κ = false) (hF : Frame κ σ s) :
    Frame κ σ (leaveStop s) := by
  have m33554432 := hk
  unfold leaveStop
  try dsimp only
  repeat' first
    | with_reducible exact hF
    | with_reducible assumption
    | with_reducible refine Frame.ite ?_ ?_
    | split
    | (apply Frame.lit m33554432 rfl; case e => constructor <;> (try dsimp only) <;> first | exact .inl rfl | exact .inr rfl)

theorem closeFree_frame {κ : Nat} {σ : State} {n : Nat} {s : State} (hk : Nat.testBit 194047634 κ = false) (hF : Frame κ σ s) :
    Frame κ σ (closeFree n s) := by
  have m194047634 := hk
  have m2 : Nat.testBit 2 κ = false := testBit_sub rfl hk
  have m18 : Nat.testBit 18 κ = false := testBit_sub rfl hk
  have m33554432 : Nat.testBit 33554432 κ = false := testBit_sub rfl hk
  have m33554562 : Nat.testBit 33554562 κ = false := testBit_sub rfl hk
  unfold closeFree
  try dsimp only
  repeat' first
    | with_reducible exact hF
    | with_reducible assumption
    | with_reducible refine leaveStop_frame m33554432 ?_
    | with_reducible refine updateExt_frame m33554562 ?_
    | with_reducible refine closeSupply_frame m18 ?_
    | with_reducible refine closeChannel_frame m18 ?_
    | with_reducible refine State_wr_frame m2 ?_
    | with_reducible refine errorRecovery_frame m194047634 ?_
    | with_reducible refine Frame.ite ?_ ?_
    | split

theorem closeAgain_frame {κ : Nat} {σ : State} {n : Nat} {s : State} (hk : Nat.testBit 194047634 κ = false) (hF : Frame κ σ s) :
    Frame κ σ (closeAgain n s) := by
  have m194047634 := hk
  have m514 : Nat.testBit 514 κ = false := testBit_sub rfl hk
  unfold closeAgain
  try dsimp only
  repeat' first
    | with_reducible exact hF
    | with_reducible assumption
    | with_reducible refine withBeff_frame m514 (fun _ _ => ?_) ?_
    | with_reducible refine closeFree_frame m194047634 ?_

theorem execRetryBackoff_frame {κ : Nat} {σ : State} {ch : Channel} {s : State} (hk : Nat.testBit 194047634 κ = false) (hF : Frame κ σ s) :
    FrameO κ σ (execRetryBackoff ch s) := by
  have m194047634 := hk
  have m2 : Nat.testBit 2 κ = false := testBit_sub rfl hk
  unfold execRetryBackoff
  try dsimp only
  repeat' first
    | with_reducible exact hF
    | with_reducible assumption
    | with_reducible refine closeAgain_frame m194047634 ?_
    | with_reducible refine State_wr_frame m2 ?_
    | with_reducible refine FrameO.next ?_
    | with_reducible refine FrameO.ite ?_ ?_
    | with_reducible refine Frame.ite ?_ ?_
    | split

theorem wrPcCtl_frame {κ : Nat} {σ : State} {n : Nat} {v : Nat} {s : State} (hk : Nat.testBit 194047634 κ = false) (hF : Frame κ σ s) :
    Frame κ σ (wrPcCtl n v s) := by
  have m194047634 := hk
  have m2 : Nat.testBit 2 κ = false := testBit_sub rfl hk
  have m130 : Nat.testBit 130 κ = false := testBit_sub rfl hk
  unfold wrPcCtl
  try dsimp only
  repeat' first
    | with_reducible exact hF
    | with_reducible assumption
    | with_reducible refine wrWord_frame m130 ?_
    | with_reducible refine wrField_frame m130 ?_
    | with_reducible refine cfgErr_frame m130 ?_
    | with_reducible refine closeAgain_frame m194047634 ?_
    | with_reducible refine State_wr_frame m2 ?_
    | with_reducible refine Frame.ite ?_ ?_
    | split

theorem captureAll_frame {κ : Nat} {σ : State} {s : State} (hk : Nat.testBit 279552 κ = false) (hF : Frame κ σ s) :
    Frame κ σ (captureAll s) := by
  have m279552 := hk
  unfold captureAll
  try dsimp only
  repeat' first
    | with_reducible exact hF
    | with_reducible assumption
    | with_reducible refine capture_frame m279552 ?_
    | with_reducible refine forAll_frame (fun _ _ _ => ?_) ?_

theorem noSupply_frame {κ : Nat} {σ : State} {s : State} (hk : Nat.testBit 58720402 κ = false) (hF : Frame κ σ s) :
    Frame κ σ (noSupply s) := by
  have m58720402 := hk
  have m130 : Nat.testBit 130 κ = false := testBit_sub rfl hk
  have m8388754 : Nat.testBit 8388754 κ = false := testBit_sub rfl hk
  have m33554432 : Nat.testBit 33554432 κ = false := testBit_sub rfl hk
  unfold noSupply
  try dsimp only
  repeat' first
    | with_reducible exact hF
    | with_reducible assumption
    | with_reducible refine faultOpening_frame m58720402 ?_
    | with_reducible refine treeOvercurrent_frame m8388754 ?_
    | with_reducible refine raise_frame m130 ?_
    | with_reducible refine forAll_frame (fun _ _ _ => ?_) ?_
    | (apply Frame.lit m33554432 rfl; case e => constructor <;> (try dsimp only) <;> first | exact .inl rfl | exact .inr rfl)

theorem execPwrwarn_frame {κ : Nat} {σ : State} {s : State} (hk : Nat.testBit 59000466 κ = false) (hF : Frame κ σ s) :
    FrameO κ σ (execPwrwarn s) := by
  have m2 : Nat.testBit 2 κ = false := testBit_sub rfl hk
  have m16 : Nat.testBit 16 κ = false := testBit_sub rfl hk
  have m130 : Nat.testBit 130 κ = false := testBit_sub rfl hk
  have m514 : Nat.testBit 514 κ = false := testBit_sub rfl hk
  have m279552 : Nat.testBit 279552 κ = false := testBit_sub rfl hk
  have m58720402 : Nat.testBit 58720402 κ = false := testBit_sub rfl hk
  unfold execPwrwarn
  try dsimp only
  repeat' first
    | with_reducible exact hF
    | with_reducible assumption
    | with_reducible refine captureAll_frame m279552 ?_
    | with_reducible refine raise_frame m130 ?_
    | with_reducible refine State_wr_frame m2 ?_
    | with_reducible refine State_emit_frame m16 ?_
    | with_reducible refine withBeff_frame m514 (fun _ _ => ?_) ?_
    | with_reducible refine noSupply_frame m58720402 ?_
    | with_reducible refine FrameO.next ?_
    | with_reducible refine FrameO.ite ?_ ?_
    | with_reducible refine Frame.ite ?_ ?_
    | split

theorem execFeedLoss_frame {κ : Nat} {σ : State} {s : State} (hk : Nat.testBit 33555090 κ = false) (hF : Frame κ σ s) :
    FrameO κ σ (execFeedLoss s) := by
  have m2 : Nat.testBit 2 κ = false := testBit_sub rfl hk
  have m18 : Nat.testBit 18 κ = false := testBit_sub rfl hk
  have m130 : Nat.testBit 130 κ = false := testBit_sub rfl hk
  have m514 : Nat.testBit 514 κ = false := testBit_sub rfl hk
  have m33554434 : Nat.testBit 33554434 κ = false := testBit_sub rfl hk
  unfold execFeedLoss
  try dsimp only
  repeat' first
    | with_reducible exact hF
    | with_reducible assumption
    | with_reducible refine withBeff_frame m514 (fun _ _ => ?_) ?_
    | with_reducible refine supplyLost_frame m33554434 ?_
    | with_reducible refine raise_frame m130 ?_
    | with_reducible refine openAt_frame m18 ?_
    | with_reducible refine State_wr_frame m2 ?_
    | with_reducible refine FrameO.next ?_
    | with_reducible refine FrameO.ite ?_ ?_
    | with_reducible refine Frame.ite ?_ ?_
    | split

theorem changedOver_frame {κ : Nat} {σ : State} {code : Nat} {s : State} (hk : Nat.testBit 536870874 κ = false) (hF : Frame κ σ s) :
    Frame κ σ (changedOver code s) := by
  have m2 : Nat.testBit 2 κ = false := testBit_sub rfl hk
  have m8 : Nat.testBit 8 κ = false := testBit_sub rfl hk
  have m130 : Nat.testBit 130 κ = false := testBit_sub rfl hk
  have m58720402 : Nat.testBit 58720402 κ = false := testBit_sub rfl hk
  have m520093658 : Nat.testBit 520093658 κ = false := testBit_sub rfl hk
  unfold changedOver
  try dsimp only
  repeat' first
    | with_reducible exact hF
    | with_reducible assumption
    | with_reducible refine applyShed_frame m58720402 ?_
    | with_reducible refine raise_frame m130 ?_
    | with_reducible refine State_inc_frame m2 ?_
    | with_reducible refine State_free_frame m8 ?_
    | with_reducible refine reportFault_frame m520093658 ?_
    | with_reducible refine Frame.ite ?_ ?_
    | split
    | with_reducible refine Frame.snd (by assumption) ?_
    | with_reducible refine Frame.snd2 (by assumption) ?_
    | (dsimp only)

theorem execDeadTime_frame {κ : Nat} {σ : State} {s : State} (hk : Nat.testBit 536870874 κ = false) (hF : Frame κ σ s) :
    FrameO κ σ (execDeadTime s) := by
  have m536870874 := hk
  have m18 : Nat.testBit 18 κ = false := testBit_sub rfl hk
  have m514 : Nat.testBit 514 κ = false := testBit_sub rfl hk
  have m33554432 : Nat.testBit 33554432 κ = false := testBit_sub rfl hk
  have m33554562 : Nat.testBit 33554562 κ = false := testBit_sub rfl hk
  have m58720402 : Nat.testBit 58720402 κ = false := testBit_sub rfl hk
  unfold execDeadTime
  try dsimp only
  repeat' first
    | with_reducible exact hF
    | with_reducible assumption
    | with_reducible refine withBeff_frame m514 (fun _ _ => ?_) ?_
    | with_reducible refine noSupply_frame m58720402 ?_
    | with_reducible refine closeSupply_frame m18 ?_
    | with_reducible refine changedOver_frame m536870874 ?_
    | with_reducible refine updateExt_frame m33554562 ?_
    | with_reducible refine FrameO.next ?_
    | with_reducible refine FrameO.ite ?_ ?_
    | with_reducible refine Frame.ite ?_ ?_
    | split
    | (apply Frame.lit m33554432 rfl; case e => constructor <;> (try dsimp only) <;> first | exact .inl rfl | exact .inr rfl)

theorem takeFeed_frame {κ : Nat} {σ : State} {f : Nat} {first : Bool} {s : State} (hk : Nat.testBit 50331794 κ = false) (hF : Frame κ σ s) :
    Frame κ σ (takeFeed f first s) := by
  have m2 : Nat.testBit 2 κ = false := testBit_sub rfl hk
  have m18 : Nat.testBit 18 κ = false := testBit_sub rfl hk
  have m16777234 : Nat.testBit 16777234 κ = false := testBit_sub rfl hk
  have m33554432 : Nat.testBit 33554432 κ = false := testBit_sub rfl hk
  have m33554434 : Nat.testBit 33554434 κ = false := testBit_sub rfl hk
  have m33554562 : Nat.testBit 33554562 κ = false := testBit_sub rfl hk
  unfold takeFeed
  try dsimp only
  repeat' first
    | with_reducible exact hF
    | with_reducible assumption
    | with_reducible refine State_wr_frame m2 ?_
    | with_reducible refine updateExt_frame m33554562 ?_
    | with_reducible refine closeSupply_frame m18 ?_
    | with_reducible refine supplyLost_frame m33554434 ?_
    | with_reducible refine openChannel_frame m18 ?_
    | with_reducible refine leaveStop_frame m33554432 ?_
    | with_reducible refine startOwn_frame m16777234 ?_
    | with_reducible refine forAll_frame (fun _ _ _ => ?_) ?_
    | with_reducible refine Frame.ite ?_ ?_
    | split

theorem execFeedQualified_frame {κ : Nat} {σ : State} {feedB : Bool} {s : State} (hk : Nat.testBit 50332306 κ = false) (hF : Frame κ σ s) :
    FrameO κ σ (execFeedQualified feedB s) := by
  have m2 : Nat.testBit 2 κ = false := testBit_sub rfl hk
  have m514 : Nat.testBit 514 κ = false := testBit_sub rfl hk
  have m50331794 : Nat.testBit 50331794 κ = false := testBit_sub rfl hk
  unfold execFeedQualified
  try dsimp only
  repeat' first
    | with_reducible exact hF
    | with_reducible assumption
    | with_reducible refine State_wr_frame m2 ?_
    | with_reducible refine withBeff_frame m514 (fun _ _ => ?_) ?_
    | with_reducible refine takeFeed_frame m50331794 ?_
    | with_reducible refine FrameO.next ?_
    | with_reducible refine FrameO.ite ?_ ?_
    | with_reducible refine Frame.ite ?_ ?_
    | split

theorem execFeedReturn_frame {κ : Nat} {σ : State} {s : State} (hk : Nat.testBit 33554962 κ = false) (hF : Frame κ σ s) :
    FrameO κ σ (execFeedReturn s) := by
  have m18 : Nat.testBit 18 κ = false := testBit_sub rfl hk
  have m514 : Nat.testBit 514 κ = false := testBit_sub rfl hk
  have m33554434 : Nat.testBit 33554434 κ = false := testBit_sub rfl hk
  unfold execFeedReturn
  try dsimp only
  repeat' first
    | with_reducible exact hF
    | with_reducible assumption
    | with_reducible refine withBeff_frame m514 (fun _ _ => ?_) ?_
    | with_reducible refine supplyLost_frame m33554434 ?_
    | with_reducible refine openChannel_frame m18 ?_
    | with_reducible refine FrameO.next ?_
    | with_reducible refine FrameO.ite ?_ ?_
    | with_reducible refine Frame.ite ?_ ?_
    | split

theorem execFeedPresence_frame {κ : Nat} {σ : State} {feedB : Bool} {present : Bool} {s : State} (hk : Nat.testBit 33554434 κ = false) (hF : Frame κ σ s) :
    FrameO κ σ (execFeedPresence feedB present s) := by
  have m2 : Nat.testBit 2 κ = false := testBit_sub rfl hk
  have m33554432 : Nat.testBit 33554432 κ = false := testBit_sub rfl hk
  unfold execFeedPresence
  try dsimp only
  repeat' first
    | with_reducible exact hF
    | with_reducible assumption
    | with_reducible refine clearLatch_frame m2 ?_
    | with_reducible refine State_wr_frame m2 ?_
    | with_reducible refine FrameO.next ?_
    | with_reducible refine FrameO.ite ?_ ?_
    | with_reducible refine Frame.ite ?_ ?_
    | split
    | (apply Frame.lit m33554432 rfl; case e => constructor <;> (try dsimp only) <;> first | exact .inl rfl | exact .inr rfl)

theorem execLeaseRecompute_frame {κ : Nat} {σ : State} {s : State} (hk : Nat.testBit 58720914 κ = false) (hF : Frame κ σ s) :
    FrameO κ σ (execLeaseRecompute s) := by
  have m58720914 := hk
  unfold execLeaseRecompute
  try dsimp only
  repeat' first
    | with_reducible exact hF
    | with_reducible assumption
    | with_reducible refine recomputeLeases_frame m58720914 ?_
    | with_reducible refine FrameO.next ?_

theorem execLeaseOverdraw_frame {κ : Nat} {σ : State} {port : CanPort} {s : State} (hk : Nat.testBit 194047634 κ = false) (hF : Frame κ σ s) :
    FrameO κ σ (execLeaseOverdraw port s) := by
  have m194047634 := hk
  have m514 : Nat.testBit 514 κ = false := testBit_sub rfl hk
  have m16777216 : Nat.testBit 16777216 κ = false := testBit_sub rfl hk
  unfold execLeaseOverdraw
  try dsimp only
  repeat' first
    | with_reducible exact hF
    | with_reducible assumption
    | with_reducible refine withBeff_frame m514 (fun _ _ => ?_) ?_
    | with_reducible refine hardReset_frame m194047634 ?_
    | with_reducible refine State_setPdp_frame m16777216 ?_
    | with_reducible refine FrameO.next ?_
    | with_reducible refine FrameO.ite ?_ ?_
    | with_reducible refine Frame.ite ?_ ?_
    | split

theorem wrBudget_frame {κ : Nat} {σ : State} {v : Nat} {s : State} (hk : Nat.testBit 33555074 κ = false) (hF : Frame κ σ s) :
    Frame κ σ (wrBudget v s) := by
  have m130 : Nat.testBit 130 κ = false := testBit_sub rfl hk
  have m514 : Nat.testBit 514 κ = false := testBit_sub rfl hk
  have m33554562 : Nat.testBit 33554562 κ = false := testBit_sub rfl hk
  unfold wrBudget
  try dsimp only
  repeat' first
    | with_reducible exact hF
    | with_reducible assumption
    | with_reducible refine cfgErr_frame m130 ?_
    | with_reducible refine wrField_frame m130 ?_
    | with_reducible refine structuralEvent_frame m514 ?_
    | with_reducible refine updateExt_frame m33554562 ?_
    | with_reducible refine Frame.ite ?_ ?_
    | split

theorem execVbusLoss_frame {κ : Nat} {σ : State} {port : CanPort} {s : State} (hk : Nat.testBit 536870866 κ = false) (hF : Frame κ σ s) :
    FrameO κ σ (execVbusLoss port s) := by
  have m536870866 := hk
  have m514 : Nat.testBit 514 κ = false := testBit_sub rfl hk
  have m194047634 : Nat.testBit 194047634 κ = false := testBit_sub rfl hk
  unfold execVbusLoss
  try dsimp only
  repeat' first
    | with_reducible exact hF
    | with_reducible assumption
    | with_reducible refine powerOnReset_frame m536870866 ?_
    | with_reducible refine withBeff_frame m514 (fun _ _ => ?_) ?_
    | with_reducible refine detachCore_frame m194047634 ?_
    | with_reducible refine FrameO.next ?_
    | with_reducible refine FrameO.ite ?_ ?_
    | with_reducible refine Frame.ite ?_ ?_
    | split

theorem setOutside_frame {κ : Nat} {σ : State} {k : Nat} {out : Bool} {s : State} (hk : Nat.testBit 33554434 κ = false) (hF : Frame κ σ s) :
    Frame κ σ (setOutside k out s) := by
  have m2 : Nat.testBit 2 κ = false := testBit_sub rfl hk
  have m33554432 : Nat.testBit 33554432 κ = false := testBit_sub rfl hk
  unfold setOutside
  try dsimp only
  repeat' first
    | with_reducible exact hF
    | with_reducible assumption
    | with_reducible refine noteExcursion_frame m2 ?_
    | with_reducible refine Frame.ite ?_ ?_
    | split
    | (apply Frame.lit m33554432 rfl; case e => constructor <;> (try dsimp only) <;> first | exact .inl rfl | exact .inr rfl)

theorem execRatingExcursion_frame {κ : Nat} {σ : State} {supply : Byte} {ended : Bool} {s : State} (hk : Nat.testBit 33554434 κ = false) (hF : Frame κ σ s) :
    FrameO κ σ (execRatingExcursion supply ended s) := by
  have m33554434 := hk
  unfold execRatingExcursion
  try dsimp only
  repeat' first
    | with_reducible exact hF
    | with_reducible assumption
    | with_reducible refine setOutside_frame m33554434 ?_
    | with_reducible refine FrameO.next ?_
    | with_reducible refine FrameO.ite ?_ ?_
    | with_reducible refine Frame.ite ?_ ?_
    | split

theorem execAvsDeviation_frame {κ : Nat} {σ : State} {meas : BitVec 12} {s : State} (hk : Nat.testBit 130 κ = false) (hF : Frame κ σ s) :
    FrameO κ σ (execAvsDeviation meas s) := by
  have m130 := hk
  have m2 : Nat.testBit 2 κ = false := testBit_sub rfl hk
  unfold execAvsDeviation
  try dsimp only
  repeat' first
    | with_reducible exact hF
    | with_reducible assumption
    | with_reducible refine State_wr_frame m2 ?_
    | with_reducible refine raise_frame m130 ?_
    | with_reducible refine FrameO.next ?_
    | with_reducible refine FrameO.ite ?_ ?_
    | with_reducible refine Frame.ite ?_ ?_
    | split

theorem execThermalSample_frame {κ : Nat} {σ : State} {temp : BitVec 16} {s : State} (hk : Nat.testBit 33554562 κ = false) (hF : Frame κ σ s) :
    FrameO κ σ (execThermalSample temp s) := by
  have m2 : Nat.testBit 2 κ = false := testBit_sub rfl hk
  have m130 : Nat.testBit 130 κ = false := testBit_sub rfl hk
  have m33554434 : Nat.testBit 33554434 κ = false := testBit_sub rfl hk
  unfold execThermalSample
  try dsimp only
  repeat' first
    | with_reducible exact hF
    | with_reducible assumption
    | with_reducible refine State_wr_frame m2 ?_
    | with_reducible refine raise_frame m130 ?_
    | with_reducible refine setOutside_frame m33554434 ?_
    | with_reducible refine FrameO.next ?_
    | with_reducible refine FrameO.ite ?_ ?_
    | with_reducible refine Frame.ite ?_ ?_
    | split

end Sys2Proof.Laws
end

