-- ==== Sys2Proof/Laws/FramePowerState.lean ====
section
/-! SUPPORT. What each operation of Machine/PowerState.lean leaves alone. -/

namespace Sys2Proof.Laws

open Sys2Proof Sys2Proof.Machine

set_option linter.unusedTactic false
set_option linter.unreachableTactic false
set_option linter.unusedVariables false

theorem wrPsctl_frame {κ : Nat} {σ : State} {v : Nat} {s : State} (hk : Nat.testBit 135267474 κ = false) (hF : Frame κ σ s) :
    Frame κ σ (wrPsctl v s) := by
  have m135267474 := hk
  have m2 : Nat.testBit 2 κ = false := testBit_sub rfl hk
  have m130 : Nat.testBit 130 κ = false := testBit_sub rfl hk
  unfold wrPsctl
  try dsimp only
  repeat' first
    | with_reducible exact hF
    | with_reducible assumption
    | with_reducible refine wrWord_frame m130 ?_
    | with_reducible refine State_wr_frame m2 ?_
    | with_reducible refine psRequest_frame m135267474 ?_
    | with_reducible refine wrs_frame m2 ?_
    | with_reducible refine Frame.ite ?_ ?_
    | split

theorem execAutoDrowse_frame {κ : Nat} {σ : State} {s : State} (hk : Nat.testBit 134217746 κ = false) (hF : Frame κ σ s) :
    FrameO κ σ (execAutoDrowse s) := by
  have m134217746 := hk
  unfold execAutoDrowse
  try dsimp only
  repeat' first
    | with_reducible exact hF
    | with_reducible assumption
    | with_reducible refine psAsk_frame m134217746 ?_
    | with_reducible refine FrameO.next ?_
    | with_reducible refine FrameO.ite ?_ ?_
    | with_reducible refine Frame.ite ?_ ?_
    | split

theorem endRequest_frame {κ : Nat} {σ : State} {w : Nat} {r : Nat} {s : State} (hk : Nat.testBit 202436498 κ = false) (hF : Frame κ σ s) :
    Frame κ σ (endRequest w r s) := by
  have m202436498 := hk
  have m134217874 : Nat.testBit 134217874 κ = false := testBit_sub rfl hk
  unfold endRequest
  try dsimp only
  repeat' first
    | with_reducible exact hF
    | with_reducible assumption
    | with_reducible refine nextKeys_frame m202436498 ?_
    | with_reducible refine psRefuse_frame m134217874 ?_

theorem putOff_frame {κ : Nat} {σ : State} {w : Nat} {n : Nat} {s : State} (hk : Nat.testBit 202436498 κ = false) (hF : Frame κ σ s) :
    Frame κ σ (putOff w n s) := by
  have m202436498 := hk
  have m2 : Nat.testBit 2 κ = false := testBit_sub rfl hk
  have m134217728 : Nat.testBit 134217728 κ = false := testBit_sub rfl hk
  unfold putOff
  try dsimp only
  repeat' first
    | with_reducible exact hF
    | with_reducible assumption
    | with_reducible refine State_inc_frame m2 ?_
    | with_reducible refine endRequest_frame m202436498 ?_
    | with_reducible refine State_setPs_frame m134217728 ?_
    | with_reducible refine Frame.ite ?_ ?_
    | split

theorem execParticipantAnswer_frame {κ : Nat} {σ : State} {who : Participant} {ans : Answer} {s : State} (hk : Nat.testBit 202436506 κ = false) (hF : Frame κ σ s) :
    FrameO κ σ (execParticipantAnswer who ans s) := by
  have m8 : Nat.testBit 8 κ = false := testBit_sub rfl hk
  have m134217728 : Nat.testBit 134217728 κ = false := testBit_sub rfl hk
  have m202436498 : Nat.testBit 202436498 κ = false := testBit_sub rfl hk
  unfold execParticipantAnswer
  try dsimp only
  repeat' first
    | with_reducible exact hF
    | with_reducible assumption
    | with_reducible refine endRequest_frame m202436498 ?_
    | with_reducible refine State_free_frame m8 ?_
    | with_reducible refine putOff_frame m202436498 ?_
    | with_reducible refine State_setPs_frame m134217728 ?_
    | with_reducible refine FrameO.next ?_
    | with_reducible refine FrameO.ite ?_ ?_
    | with_reducible refine Frame.ite ?_ ?_
    | split
    | with_reducible refine Frame.snd (by assumption) ?_
    | with_reducible refine Frame.snd2 (by assumption) ?_
    | (dsimp only)

theorem execDeferExpiry_frame {κ : Nat} {σ : State} {who : Participant} {s : State} (hk : Nat.testBit 134217728 κ = false) (hF : Frame κ σ s) :
    FrameO κ σ (execDeferExpiry who s) := by
  have m134217728 := hk
  unfold execDeferExpiry
  try dsimp only
  repeat' first
    | with_reducible exact hF
    | with_reducible assumption
    | with_reducible refine State_setPs_frame m134217728 ?_
    | with_reducible refine FrameO.next ?_
    | with_reducible refine FrameO.ite ?_ ?_
    | with_reducible refine Frame.ite ?_ ?_
    | split

theorem execAnswerTimeout_frame {κ : Nat} {σ : State} {who : Participant} {s : State} (hk : Nat.testBit 202436498 κ = false) (hF : Frame κ σ s) :
    FrameO κ σ (execAnswerTimeout who s) := by
  have m202436498 := hk
  unfold execAnswerTimeout
  try dsimp only
  repeat' first
    | with_reducible exact hF
    | with_reducible assumption
    | with_reducible refine endRequest_frame m202436498 ?_
    | with_reducible refine FrameO.next ?_
    | with_reducible refine FrameO.ite ?_ ?_
    | with_reducible refine Frame.ite ?_ ?_
    | split

theorem enterState_frame {κ : Nat} {σ : State} {st : Nat} {s : State} (hk : Nat.testBit 202436498 κ = false) (hF : Frame κ σ s) :
    Frame κ σ (enterState st s) := by
  have m202436498 := hk
  have m2 : Nat.testBit 2 κ = false := testBit_sub rfl hk
  have m16 : Nat.testBit 16 κ = false := testBit_sub rfl hk
  have m130 : Nat.testBit 130 κ = false := testBit_sub rfl hk
  unfold enterState
  try dsimp only
  repeat' first
    | with_reducible exact hF
    | with_reducible assumption
    | with_reducible refine nextKeys_frame m202436498 ?_
    | with_reducible refine showIndicator_frame m16 ?_
    | with_reducible refine raise_frame m130 ?_
    | with_reducible refine wrs_frame m2 ?_

theorem enterDoze_frame {κ : Nat} {σ : State} {s : State} (hk : Nat.testBit 202436498 κ = false) (hF : Frame κ σ s) :
    Frame κ σ (enterDoze s) := by
  have m202436498 := hk
  have m2 : Nat.testBit 2 κ = false := testBit_sub rfl hk
  have m59010 : Nat.testBit 59010 κ = false := testBit_sub rfl hk
  have m134217728 : Nat.testBit 134217728 κ = false := testBit_sub rfl hk
  have m135270034 : Nat.testBit 135270034 κ = false := testBit_sub rfl hk
  unfold enterDoze
  try dsimp only
  repeat' first
    | with_reducible exact hF
    | with_reducible assumption
    | with_reducible refine portDown_frame m59010 ?_
    | with_reducible refine attachEvent_frame m135270034 ?_
    | with_reducible refine State_wr_frame m2 ?_
    | with_reducible refine enterState_frame m202436498 ?_
    | with_reducible refine State_setPs_frame m134217728 ?_
    | with_reducible refine forAll_frame (fun _ _ _ => ?_) ?_
    | with_reducible refine Frame.ite ?_ ?_
    | split

theorem execEntryCommit_frame {κ : Nat} {σ : State} {s : State} (hk : Nat.testBit 202436498 κ = false) (hF : Frame κ σ s) :
    FrameO κ σ (execEntryCommit s) := by
  have m202436498 := hk
  have m2 : Nat.testBit 2 κ = false := testBit_sub rfl hk
  have m134217728 : Nat.testBit 134217728 κ = false := testBit_sub rfl hk
  unfold execEntryCommit
  try dsimp only
  repeat' first
    | with_reducible exact hF
    | with_reducible assumption
    | with_reducible refine enterState_frame m202436498 ?_
    | with_reducible refine State_setPs_frame m134217728 ?_
    | with_reducible refine enterDoze_frame m202436498 ?_
    | with_reducible refine State_wr_frame m2 ?_
    | with_reducible refine FrameO.next ?_
    | with_reducible refine FrameO.ite ?_ ?_
    | with_reducible refine Frame.ite ?_ ?_
    | split

theorem allPortsDown_frame {κ : Nat} {σ : State} {s : State} (hk : Nat.testBit 61058 κ = false) (hF : Frame κ σ s) :
    Frame κ σ (allPortsDown s) := by
  have m2 : Nat.testBit 2 κ = false := testBit_sub rfl hk
  have m1154 : Nat.testBit 1154 κ = false := testBit_sub rfl hk
  have m2690 : Nat.testBit 2690 κ = false := testBit_sub rfl hk
  have m59010 : Nat.testBit 59010 κ = false := testBit_sub rfl hk
  unfold allPortsDown
  try dsimp only
  repeat' first
    | with_reducible exact hF
    | with_reducible assumption
    | with_reducible refine portDown_frame m59010 ?_
    | with_reducible refine cancelSolve_frame m2690 ?_
    | with_reducible refine State_wr_frame m2 ?_
    | with_reducible refine enterQuarantine_frame m2 ?_
    | with_reducible refine flushTunnel_frame m1154 ?_
    | with_reducible refine wrs_frame m2 ?_
    | with_reducible refine forAll_frame (fun _ _ _ => ?_) ?_

theorem gateRest_frame {κ : Nat} {σ : State} {s : State} (hk : Nat.testBit 35651586 κ = false) (hF : Frame κ σ s) :
    Frame κ σ (gateRest s) := by
  have m2 : Nat.testBit 2 κ = false := testBit_sub rfl hk
  have m35651584 : Nat.testBit 35651584 κ = false := testBit_sub rfl hk
  unfold gateRest
  try dsimp only
  repeat' first
    | with_reducible exact hF
    | with_reducible assumption
    | with_reducible refine setDuty_frame m2 ?_
    | (apply Frame.lit m35651584 rfl; case e => constructor <;> (try dsimp only) <;> first | exact .inl rfl | exact .inr rfl)

theorem stopForDormant_frame {κ : Nat} {σ : State} {s : State} (hk : Nat.testBit 76546194 κ = false) (hF : Frame κ σ s) :
    Frame κ σ (stopForDormant s) := by
  have m2 : Nat.testBit 2 κ = false := testBit_sub rfl hk
  have m16 : Nat.testBit 16 κ = false := testBit_sub rfl hk
  have m1048576 : Nat.testBit 1048576 κ = false := testBit_sub rfl hk
  have m8388754 : Nat.testBit 8388754 κ = false := testBit_sub rfl hk
  have m67108866 : Nat.testBit 67108866 κ = false := testBit_sub rfl hk
  unfold stopForDormant
  try dsimp only
  repeat' first
    | with_reducible exact hF
    | with_reducible assumption
    | with_reducible refine treeReset_frame m8388754 ?_
    | with_reducible refine State_wr_frame m2 ?_
    | with_reducible refine State_setPipe_frame m1048576 ?_
    | with_reducible refine State_emit_frame m16 ?_
    | with_reducible refine clearSlot_frame m67108866 ?_
    | with_reducible refine wrs_frame m2 ?_
    | with_reducible refine forAll_frame (fun _ _ _ => ?_) ?_

theorem gateDormant_frame {κ : Nat} {σ : State} {s : State} (hk : Nat.testBit 112198098 κ = false)
    (h : Frame κ σ s) : Frame κ σ (gateDormant s) := by
  unfold gateDormant
  generalize hu : stopForDormant s = u
  have h1 : Frame κ σ u := hu ▸ stopForDormant_frame (testBit_sub rfl hk) h
  exact Frame.litc (t := u) (m := 35651904) (testBit_sub rfl hk) (fun hc => ⟨hc.1, hc.2.1, mwf_nil _, hc.2.2.2⟩) h1
    (by constructor <;> first | exact .inl rfl | exact .inr rfl)

theorem execAonArmed_frame {κ : Nat} {σ : State} {s : State} (hk : Nat.testBit 246743002 κ = false) (hF : Frame κ σ s) :
    FrameO κ σ (execAonArmed s) := by
  have m61058 : Nat.testBit 61058 κ = false := testBit_sub rfl hk
  have m324826 : Nat.testBit 324826 κ = false := testBit_sub rfl hk
  have m35651586 : Nat.testBit 35651586 κ = false := testBit_sub rfl hk
  have m112198098 : Nat.testBit 112198098 κ = false := testBit_sub rfl hk
  have m134217728 : Nat.testBit 134217728 κ = false := testBit_sub rfl hk
  have m135267330 : Nat.testBit 135267330 κ = false := testBit_sub rfl hk
  have m202436498 : Nat.testBit 202436498 κ = false := testBit_sub rfl hk
  have m204533650 : Nat.testBit 204533650 κ = false := testBit_sub rfl hk
  unfold execAonArmed
  try dsimp only
  repeat' first
    | with_reducible exact hF
    | with_reducible assumption
    | with_reducible refine endTakeover_frame m324826 ?_
    | with_reducible refine leaveDoze_frame m135267330 ?_
    | with_reducible refine allPortsDown_frame m61058 ?_
    | with_reducible refine gateDormant_frame m112198098 ?_
    | with_reducible refine gateRest_frame m35651586 ?_
    | with_reducible refine enterState_frame m202436498 ?_
    | with_reducible refine State_setPs_frame m134217728 ?_
    | with_reducible refine wakeUp_frame m204533650 ?_
    | with_reducible refine forAll_frame (fun _ _ _ => ?_) ?_
    | with_reducible refine FrameO.next ?_
    | with_reducible refine FrameO.ite ?_ ?_
    | with_reducible refine Frame.ite ?_ ?_
    | split

theorem execWake_frame {κ : Nat} {σ : State} {src : WakeSrc} {s : State} (hk : Nat.testBit 204533650 κ = false) (hF : Frame κ σ s) :
    FrameO κ σ (execWake src s) := by
  have m204533650 := hk
  unfold execWake
  try dsimp only
  repeat' first
    | with_reducible exact hF
    | with_reducible assumption
    | with_reducible refine wakeUp_frame m204533650 ?_
    | with_reducible refine FrameO.next ?_
    | with_reducible refine FrameO.ite ?_ ?_
    | with_reducible refine Frame.ite ?_ ?_
    | split

theorem trainPorts_frame {κ : Nat} {σ : State} {s : State} (hk : Nat.testBit 24594 κ = false) (hF : Frame κ σ s) :
    Frame κ σ (trainPorts s) := by
  have m24594 := hk
  have m24578 : Nat.testBit 24578 κ = false := testBit_sub rfl hk
  unfold trainPorts
  try dsimp only
  repeat' first
    | with_reducible exact hF
    | with_reducible assumption
    | with_reducible refine startTraining_frame m24578 ?_
    | with_reducible refine enterChosen_frame m24594 ?_
    | with_reducible refine forAll_frame (fun _ _ _ => ?_) ?_
    | with_reducible refine Frame.ite ?_ ?_
    | split

theorem returned_frame {κ : Nat} {σ : State} {s : State} (hk : Nat.testBit 202436498 κ = false) (hF : Frame κ σ s) :
    Frame κ σ (returned s) := by
  have m202436498 := hk
  have m2 : Nat.testBit 2 κ = false := testBit_sub rfl hk
  have m512 : Nat.testBit 512 κ = false := testBit_sub rfl hk
  have m134217728 : Nat.testBit 134217728 κ = false := testBit_sub rfl hk
  unfold returned
  try dsimp only
  repeat' first
    | with_reducible exact hF
    | with_reducible assumption
    | with_reducible refine enterState_frame m202436498 ?_
    | with_reducible refine State_setPs_frame m134217728 ?_
    | with_reducible refine wrs_frame m2 ?_
    | (apply Frame.lit m512 rfl; case e => constructor <;> (try dsimp only) <;> first | exact .inl rfl | exact .inr rfl)

theorem restLogic_frame {κ : Nat} {σ : State} {s : State} (hk : Nat.testBit 204533650 κ = false) (hF : Frame κ σ s) :
    Frame κ σ (restLogic s) := by
  have m514 : Nat.testBit 514 κ = false := testBit_sub rfl hk
  have m24594 : Nat.testBit 24594 κ = false := testBit_sub rfl hk
  have m2097152 : Nat.testBit 2097152 κ = false := testBit_sub rfl hk
  have m135267474 : Nat.testBit 135267474 κ = false := testBit_sub rfl hk
  have m202436498 : Nat.testBit 202436498 κ = false := testBit_sub rfl hk
  unfold restLogic
  try dsimp only
  repeat' first
    | with_reducible exact hF
    | with_reducible assumption
    | with_reducible refine returned_frame m202436498 ?_
    | with_reducible refine firmwareUp_frame m135267474 ?_
    | with_reducible refine trainPorts_frame m24594 ?_
    | with_reducible refine startSettle_frame m514 ?_
    | with_reducible refine Frame.ite ?_ ?_
    | split
    | (apply Frame.lit m2097152 rfl; case e => constructor <;> (try dsimp only) <;> first | exact .inl rfl | exact .inr rfl)

theorem execReturnStep_frame {κ : Nat} {σ : State} {s : State} (hk : Nat.testBit 238088082 κ = false) (hF : Frame κ σ s) :
    FrameO κ σ (execReturnStep s) := by
  have m2 : Nat.testBit 2 κ = false := testBit_sub rfl hk
  have m35651584 : Nat.testBit 35651584 κ = false := testBit_sub rfl hk
  have m134217728 : Nat.testBit 134217728 κ = false := testBit_sub rfl hk
  have m202436498 : Nat.testBit 202436498 κ = false := testBit_sub rfl hk
  have m204533650 : Nat.testBit 204533650 κ = false := testBit_sub rfl hk
  unfold execReturnStep
  try dsimp only
  repeat' first
    | with_reducible exact hF
    | with_reducible assumption
    | with_reducible refine setDuty_frame m2 ?_
    | with_reducible refine State_setPs_frame m134217728 ?_
    | with_reducible refine restLogic_frame m204533650 ?_
    | with_reducible refine returned_frame m202436498 ?_
    | with_reducible refine FrameO.next ?_
    | with_reducible refine FrameO.ite ?_ ?_
    | with_reducible refine Frame.ite ?_ ?_
    | split
    | (apply Frame.lit m35651584 rfl; case e => constructor <;> (try dsimp only) <;> first | exact .inl rfl | exact .inr rfl)

theorem execReturnTimeout_frame {κ : Nat} {σ : State} {s : State} (hk : Nat.testBit 236978322 κ = false) (hF : Frame κ σ s) :
    FrameO κ σ (execReturnTimeout s) := by
  have m2 : Nat.testBit 2 κ = false := testBit_sub rfl hk
  have m16 : Nat.testBit 16 κ = false := testBit_sub rfl hk
  have m130 : Nat.testBit 130 κ = false := testBit_sub rfl hk
  have m2097152 : Nat.testBit 2097152 κ = false := testBit_sub rfl hk
  have m35651586 : Nat.testBit 35651586 κ = false := testBit_sub rfl hk
  have m67108866 : Nat.testBit 67108866 κ = false := testBit_sub rfl hk
  have m134217728 : Nat.testBit 134217728 κ = false := testBit_sub rfl hk
  unfold execReturnTimeout
  try dsimp only
  repeat' first
    | with_reducible exact hF
    | with_reducible assumption
    | with_reducible refine showIndicator_frame m16 ?_
    | with_reducible refine raise_frame m130 ?_
    | with_reducible refine State_setPs_frame m134217728 ?_
    | with_reducible refine gateRest_frame m35651586 ?_
    | with_reducible refine clearSlot_frame m67108866 ?_
    | with_reducible refine State_emit_frame m16 ?_
    | with_reducible refine wrs_frame m2 ?_
    | with_reducible refine forAll_frame (fun _ _ _ => ?_) ?_
    | with_reducible refine FrameO.next ?_
    | with_reducible refine FrameO.ite ?_ ?_
    | with_reducible refine Frame.ite ?_ ?_
    | split
    | (apply Frame.lit m2097152 rfl; case e => constructor <;> (try dsimp only) <;> first | exact .inl rfl | exact .inr rfl)

theorem execButton_frame {κ : Nat} {σ : State} {e : BtnPort} {s : State} (hk : Nat.testBit 204533650 κ = false) (hF : Frame κ σ s) :
    FrameO κ σ (execButton e s) := by
  have m204533650 := hk
  have m130 : Nat.testBit 130 κ = false := testBit_sub rfl hk
  unfold execButton
  try dsimp only
  repeat' first
    | with_reducible exact hF
    | with_reducible assumption
    | with_reducible refine wakeUp_frame m204533650 ?_
    | with_reducible refine raise_frame m130 ?_
    | with_reducible refine FrameO.next ?_
    | with_reducible refine FrameO.ite ?_ ?_
    | with_reducible refine Frame.ite ?_ ?_
    | split

theorem execLinkIdle_frame {κ : Nat} {σ : State} {port : Port} {s : State} (hk : Nat.testBit 2 κ = false) (hF : Frame κ σ s) :
    FrameO κ σ (execLinkIdle port s) := by
  have m2 := hk
  unfold execLinkIdle
  try dsimp only
  repeat' first
    | with_reducible exact hF
    | with_reducible assumption
    | with_reducible refine State_wr_frame m2 ?_
    | with_reducible refine FrameO.next ?_
    | with_reducible refine FrameO.ite ?_ ?_
    | with_reducible refine Frame.ite ?_ ?_
    | split

end Sys2Proof.Laws
end

