-- ==== Sys2Proof/Laws/FrameLoader.lean ====
section
/-! SUPPORT. What each operation of Machine/Loader.lean leaves alone. -/

namespace Sys2Proof.Laws

open Sys2Proof Sys2Proof.Machine

set_option linter.unusedTactic false
set_option linter.unreachableTactic false
set_option linter.unusedVariables false

theorem setRes_frame {κ : Nat} {σ : State} {copyB : Bool} {code : Nat} {s : State} (hk : Nat.testBit 2 κ = false) (hF : Frame κ σ s) :
    Frame κ σ (setRes copyB code s) := by
  have m2 := hk
  unfold setRes
  try dsimp only
  repeat' first
    | with_reducible exact hF
    | with_reducible assumption
    | with_reducible refine State_wr_frame m2 ?_
    | with_reducible refine Frame.ite ?_ ?_
    | split

theorem holdKey_frame {κ : Nat} {σ : State} {copyB : Bool} {s : State} (hk : Nat.testBit 67108866 κ = false) (hF : Frame κ σ s) :
    Frame κ σ (holdKey copyB s) := by
  have m67108866 := hk
  unfold holdKey
  try dsimp only
  repeat' first
    | with_reducible exact hF
    | with_reducible assumption
    | with_reducible refine setSlot_frame m67108866 ?_
    | with_reducible refine Frame.ite ?_ ?_
    | split

theorem startStream_frame {κ : Nat} {σ : State} {copyB : Bool} {other : Bool} {second : Bool} {s : State} (hk : Nat.testBit 67109122 κ = false) (hF : Frame κ σ s) :
    Frame κ σ (startStream copyB other second s) := by
  have m256 : Nat.testBit 256 κ = false := testBit_sub rfl hk
  have m67108866 : Nat.testBit 67108866 κ = false := testBit_sub rfl hk
  unfold startStream
  try dsimp only
  repeat' first
    | with_reducible exact hF
    | with_reducible assumption
    | with_reducible refine holdKey_frame m67108866 ?_
    | (apply Frame.lit m256 rfl; case e => constructor <;> (try dsimp only) <;> first | exact .inl rfl | exact .inr rfl)

theorem loadHold_frame {κ : Nat} {σ : State} {s : State} (hk : Nat.testBit 67109122 κ = false) (hF : Frame κ σ s) :
    Frame κ σ (loadHold s) := by
  have m2 : Nat.testBit 2 κ = false := testBit_sub rfl hk
  have m258 : Nat.testBit 258 κ = false := testBit_sub rfl hk
  have m67108866 : Nat.testBit 67108866 κ = false := testBit_sub rfl hk
  unfold loadHold
  try dsimp only
  repeat' first
    | with_reducible exact hF
    | with_reducible assumption
    | with_reducible refine checkSapling_frame m2 ?_
    | with_reducible refine imageHold_frame m258 ?_
    | with_reducible refine dropKey_frame m67108866 ?_

theorem execImageLoad_frame {κ : Nat} {σ : State} {s : State} (hk : Nat.testBit 67109122 κ = false) (hF : Frame κ σ s) :
    FrameO κ σ (execImageLoad s) := by
  have m67109122 := hk
  have m2 : Nat.testBit 2 κ = false := testBit_sub rfl hk
  have m256 : Nat.testBit 256 κ = false := testBit_sub rfl hk
  unfold execImageLoad
  try dsimp only
  repeat' first
    | with_reducible exact hF
    | with_reducible assumption
    | with_reducible refine loadHold_frame m67109122 ?_
    | with_reducible refine setRes_frame m2 ?_
    | with_reducible refine startStream_frame m67109122 ?_
    | with_reducible refine FrameO.next ?_
    | with_reducible refine FrameO.ite ?_ ?_
    | with_reducible refine Frame.ite ?_ ?_
    | split
    | (apply Frame.lit m256 rfl; case e => constructor <;> (try dsimp only) <;> first | exact .inl rfl | exact .inr rfl)

theorem giveFields_frame {κ : Nat} {σ : State} {l : List (Fld × Nat)} {s : State} (hk : Nat.testBit 2 κ = false) (hF : Frame κ σ s) :
    Frame κ σ (giveFields l s) := by
  have m2 := hk
  unfold giveFields
  try dsimp only
  repeat' first
    | with_reducible exact hF
    | with_reducible assumption
    | with_reducible refine wrs_frame m2 ?_

theorem showImage_frame {κ : Nat} {σ : State} {copyB : Bool} {im : Image} {s : State} (hk : Nat.testBit 2 κ = false) (hF : Frame κ σ s) :
    Frame κ σ (showImage copyB im s) := by
  have m2 := hk
  unfold showImage
  try dsimp only
  repeat' first
    | with_reducible exact hF
    | with_reducible assumption
    | with_reducible refine wrs_frame m2 ?_

theorem takeImage_frame {κ : Nat} {σ : State} {copyB : Bool} {second : Bool} {im : Image} {s : State} (hk : Nat.testBit 127927186 κ = false) (hF : Frame κ σ s) :
    Frame κ σ (takeImage copyB second im s) := by
  have m2 : Nat.testBit 2 κ = false := testBit_sub rfl hk
  have m256 : Nat.testBit 256 κ = false := testBit_sub rfl hk
  have m2097168 : Nat.testBit 2097168 κ = false := testBit_sub rfl hk
  have m58720914 : Nat.testBit 58720914 κ = false := testBit_sub rfl hk
  have m67108866 : Nat.testBit 67108866 κ = false := testBit_sub rfl hk
  unfold takeImage
  try dsimp only
  repeat' first
    | with_reducible exact hF
    | with_reducible assumption
    | with_reducible refine showImage_frame m2 ?_
    | with_reducible refine dropKey_frame m67108866 ?_
    | with_reducible refine State_setB_frame m2 ?_
    | with_reducible refine giveFields_frame m2 ?_
    | with_reducible refine applyPins_frame m2097168 ?_
    | with_reducible refine recomputeLeases_frame m58720914 ?_
    | (apply Frame.lit m256 rfl; case e => constructor <;> (try dsimp only) <;> first | exact .inl rfl | exact .inr rfl)

theorem loadFailed_frame {κ : Nat} {σ : State} {copyB : Bool} {other : Bool} {code : Nat} {s : State} (hk : Nat.testBit 67109122 κ = false) (hF : Frame κ σ s) :
    Frame κ σ (loadFailed copyB other code s) := by
  have m67109122 := hk
  have m2 : Nat.testBit 2 κ = false := testBit_sub rfl hk
  have m67108866 : Nat.testBit 67108866 κ = false := testBit_sub rfl hk
  unfold loadFailed
  try dsimp only
  repeat' first
    | with_reducible exact hF
    | with_reducible assumption
    | with_reducible refine setRes_frame m2 ?_
    | with_reducible refine dropKey_frame m67108866 ?_
    | with_reducible refine startStream_frame m67109122 ?_
    | with_reducible refine loadHold_frame m67109122 ?_
    | with_reducible refine Frame.ite ?_ ?_
    | split

theorem execImageStreamComplete_frame {κ : Nat} {σ : State} {s : State} (hk : Nat.testBit 127927186 κ = false) (hF : Frame κ σ s) :
    FrameO κ σ (execImageStreamComplete s) := by
  have m127927186 := hk
  have m2 : Nat.testBit 2 κ = false := testBit_sub rfl hk
  have m67109122 : Nat.testBit 67109122 κ = false := testBit_sub rfl hk
  unfold execImageStreamComplete
  try dsimp only
  repeat' first
    | with_reducible exact hF
    | with_reducible assumption
    | with_reducible refine takeImage_frame m127927186 ?_
    | with_reducible refine setRes_frame m2 ?_
    | with_reducible refine loadFailed_frame m67109122 ?_
    | with_reducible refine FrameO.next ?_
    | split

theorem rejectReload_frame {κ : Nat} {σ : State} {cause : Nat} {s : State} (hk : Nat.testBit 2 κ = false) (hF : Frame κ σ s) :
    Frame κ σ (rejectReload cause s) := by
  have m2 := hk
  unfold rejectReload
  try dsimp only
  repeat' first
    | with_reducible exact hF
    | with_reducible assumption
    | with_reducible refine wrs_frame m2 ?_

theorem endReload_frame {κ : Nat} {σ : State} {s : State} (hk : Nat.testBit 67109122 κ = false) (hF : Frame κ σ s) :
    Frame κ σ (endReload s) := by
  have m2 : Nat.testBit 2 κ = false := testBit_sub rfl hk
  have m256 : Nat.testBit 256 κ = false := testBit_sub rfl hk
  have m67108866 : Nat.testBit 67108866 κ = false := testBit_sub rfl hk
  unfold endReload
  try dsimp only
  repeat' first
    | with_reducible exact hF
    | with_reducible assumption
    | with_reducible refine dropKey_frame m67108866 ?_
    | with_reducible refine State_wr_frame m2 ?_
    | (apply Frame.lit m256 rfl; case e => constructor <;> (try dsimp only) <;> first | exact .inl rfl | exact .inr rfl)

theorem wrReload_frame {κ : Nat} {σ : State} {v : Nat} {s : State} (hk : Nat.testBit 67109250 κ = false) (hF : Frame κ σ s) :
    Frame κ σ (wrReload v s) := by
  have m2 : Nat.testBit 2 κ = false := testBit_sub rfl hk
  have m130 : Nat.testBit 130 κ = false := testBit_sub rfl hk
  have m256 : Nat.testBit 256 κ = false := testBit_sub rfl hk
  have m67108866 : Nat.testBit 67108866 κ = false := testBit_sub rfl hk
  unfold wrReload
  try dsimp only
  repeat' first
    | with_reducible exact hF
    | with_reducible assumption
    | with_reducible refine wrField_frame m130 ?_
    | with_reducible refine rejectReload_frame m2 ?_
    | with_reducible refine holdKey_frame m67108866 ?_
    | with_reducible refine wrs_frame m2 ?_
    | with_reducible refine Frame.ite ?_ ?_
    | split
    | (apply Frame.lit m256 rfl; case e => constructor <;> (try dsimp only) <;> first | exact .inl rfl | exact .inr rfl)

theorem clampField_frame {κ : Nat} {σ : State} {r : Bytes} {s : State} (hk : Nat.testBit 130 κ = false) (hF : Frame κ σ s) :
    Frame κ σ (clampField r s) := by
  have m130 := hk
  have m2 : Nat.testBit 2 κ = false := testBit_sub rfl hk
  unfold clampField
  try dsimp only
  repeat' first
    | with_reducible exact hF
    | with_reducible assumption
    | with_reducible refine envEvent_frame m130 ?_
    | with_reducible refine State_wr_frame m2 ?_
    | with_reducible refine Frame.ite ?_ ?_
    | split

theorem clampSlice_frame {κ : Nat} {σ : State} {g : Nat} {im : Image} {s : State} (hk : Nat.testBit 130 κ = false) (hF : Frame κ σ s) :
    Frame κ σ (clampSlice g im s) := by
  have m130 := hk
  unfold clampSlice
  try dsimp only
  repeat' first
    | with_reducible exact hF
    | with_reducible assumption
    | with_reducible refine clampField_frame m130 ?_
    | with_reducible refine forAll_frame (fun _ _ _ => ?_) ?_

theorem newOverhead_frame {κ : Nat} {σ : State} {old : Image} {im : Image} {p : Nat} {s : State} (hk : Nat.testBit 2050 κ = false) (hF : Frame κ σ s) :
    Frame κ σ (newOverhead old im p s) := by
  have m2 : Nat.testBit 2 κ = false := testBit_sub rfl hk
  have m2048 : Nat.testBit 2048 κ = false := testBit_sub rfl hk
  unfold newOverhead
  try dsimp only
  repeat' first
    | with_reducible exact hF
    | with_reducible assumption
    | with_reducible refine State_wr_frame m2 ?_
    | with_reducible refine Frame.ite ?_ ?_
    | split
    | (apply Frame.lit m2048 rfl; case e => constructor <;> (try dsimp only) <;> first | exact .inl rfl | exact .inr rfl)

theorem commitReload_frame {κ : Nat} {σ : State} {r : Reload} {old : Image} {im : Image} {s : State} (hk : Nat.testBit 202436498 κ = false) (hF : Frame κ σ s) :
    Frame κ σ (commitReload r old im s) := by
  have m2 : Nat.testBit 2 κ = false := testBit_sub rfl hk
  have m130 : Nat.testBit 130 κ = false := testBit_sub rfl hk
  have m256 : Nat.testBit 256 κ = false := testBit_sub rfl hk
  have m514 : Nat.testBit 514 κ = false := testBit_sub rfl hk
  have m2050 : Nat.testBit 2050 κ = false := testBit_sub rfl hk
  have m59010 : Nat.testBit 59010 κ = false := testBit_sub rfl hk
  have m67108866 : Nat.testBit 67108866 κ = false := testBit_sub rfl hk
  have m67109122 : Nat.testBit 67109122 κ = false := testBit_sub rfl hk
  have m135270034 : Nat.testBit 135270034 κ = false := testBit_sub rfl hk
  unfold commitReload
  try dsimp only
  repeat' first
    | with_reducible exact hF
    | with_reducible assumption
    | with_reducible refine showImage_frame m2 ?_
    | with_reducible refine dropKey_frame m67108866 ?_
    | with_reducible refine structuralEvent_frame m514 ?_
    | with_reducible refine State_wr_frame m2 ?_
    | with_reducible refine clampSlice_frame m130 ?_
    | with_reducible refine newOverhead_frame m2050 ?_
    | with_reducible refine endReload_frame m67109122 ?_
    | with_reducible refine attachEvent_frame m135270034 ?_
    | with_reducible refine portDown_frame m59010 ?_
    | with_reducible refine forAll_frame (fun _ _ _ => ?_) ?_
    | with_reducible refine Frame.ite ?_ ?_
    | split
    | (apply Frame.lit m256 rfl; case e => constructor <;> (try dsimp only) <;> first | exact .inl rfl | exact .inr rfl)

theorem execSliceReloadCommit_frame {κ : Nat} {σ : State} {s : State} (hk : Nat.testBit 202436498 κ = false) (hF : Frame κ σ s) :
    FrameO κ σ (execSliceReloadCommit s) := by
  have m202436498 := hk
  have m2 : Nat.testBit 2 κ = false := testBit_sub rfl hk
  have m67109122 : Nat.testBit 67109122 κ = false := testBit_sub rfl hk
  unfold execSliceReloadCommit
  try dsimp only
  repeat' first
    | with_reducible exact hF
    | with_reducible assumption
    | with_reducible refine setRes_frame m2 ?_
    | with_reducible refine commitReload_frame m202436498 ?_
    | with_reducible refine rejectReload_frame m2 ?_
    | with_reducible refine endReload_frame m67109122 ?_
    | with_reducible refine FrameO.next ?_
    | with_reducible refine FrameO.ite ?_ ?_
    | with_reducible refine Frame.ite ?_ ?_
    | split

theorem setUpPort_frame {κ : Nat} {σ : State} {im : Image} {p : Nat} {s : State} (hk : Nat.testBit 26642 κ = false) (hF : Frame κ σ s) :
    Frame κ σ (setUpPort im p s) := by
  have m2 : Nat.testBit 2 κ = false := testBit_sub rfl hk
  have m2048 : Nat.testBit 2048 κ = false := testBit_sub rfl hk
  have m24578 : Nat.testBit 24578 κ = false := testBit_sub rfl hk
  have m24594 : Nat.testBit 24594 κ = false := testBit_sub rfl hk
  unfold setUpPort
  try dsimp only
  repeat' first
    | with_reducible exact hF
    | with_reducible assumption
    | with_reducible refine enterChosen_frame m24594 ?_
    | with_reducible refine startTraining_frame m24578 ?_
    | with_reducible refine wrs_frame m2 ?_
    | with_reducible refine Frame.ite ?_ ?_
    | split
    | (apply Frame.lit m2048 rfl; case e => constructor <;> (try dsimp only) <;> first | exact .inl rfl | exact .inr rfl)

theorem execReloadReconfigComplete_frame {κ : Nat} {σ : State} {s : State} (hk : Nat.testBit 67135762 κ = false) (hF : Frame κ σ s) :
    FrameO κ σ (execReloadReconfigComplete s) := by
  have m2 : Nat.testBit 2 κ = false := testBit_sub rfl hk
  have m26642 : Nat.testBit 26642 κ = false := testBit_sub rfl hk
  have m67109122 : Nat.testBit 67109122 κ = false := testBit_sub rfl hk
  unfold execReloadReconfigComplete
  try dsimp only
  repeat' first
    | with_reducible exact hF
    | with_reducible assumption
    | with_reducible refine endReload_frame m67109122 ?_
    | with_reducible refine setUpPort_frame m26642 ?_
    | with_reducible refine wrs_frame m2 ?_
    | with_reducible refine forAll_frame (fun _ _ _ => ?_) ?_
    | with_reducible refine FrameO.next ?_
    | with_reducible refine FrameO.ite ?_ ?_
    | with_reducible refine Frame.ite ?_ ?_
    | split

theorem reloadReadError_frame {κ : Nat} {σ : State} {copyB : Bool} {s : State} (hk : Nat.testBit 67109122 κ = false) (hF : Frame κ σ s) :
    Frame κ σ (reloadReadError copyB s) := by
  have m67109122 := hk
  have m2 : Nat.testBit 2 κ = false := testBit_sub rfl hk
  unfold reloadReadError
  try dsimp only
  repeat' first
    | with_reducible exact hF
    | with_reducible assumption
    | with_reducible refine rejectReload_frame m2 ?_
    | with_reducible refine endReload_frame m67109122 ?_
    | with_reducible refine setRes_frame m2 ?_

theorem execFlashReadError_frame {κ : Nat} {σ : State} {copyB : Bool} {s : State} (hk : Nat.testBit 67109122 κ = false) (hF : Frame κ σ s) :
    FrameO κ σ (execFlashReadError copyB s) := by
  have m67109122 := hk
  have m256 : Nat.testBit 256 κ = false := testBit_sub rfl hk
  unfold execFlashReadError
  try dsimp only
  repeat' first
    | with_reducible exact hF
    | with_reducible assumption
    | with_reducible refine loadFailed_frame m67109122 ?_
    | with_reducible refine reloadReadError_frame m67109122 ?_
    | with_reducible refine FrameO.next ?_
    | with_reducible refine FrameO.ite ?_ ?_
    | with_reducible refine Frame.ite ?_ ?_
    | split
    | (apply Frame.lit m256 rfl; case e => constructor <;> (try dsimp only) <;> first | exact .inl rfl | exact .inr rfl)

theorem denyStart_frame {κ : Nat} {σ : State} {s : State} (hk : Nat.testBit 130 κ = false) (hF : Frame κ σ s) :
    Frame κ σ (denyStart s) := by
  have m130 := hk
  have m2 : Nat.testBit 2 κ = false := testBit_sub rfl hk
  unfold denyStart
  try dsimp only
  repeat' first
    | with_reducible exact hF
    | with_reducible assumption
    | with_reducible refine raise_frame m130 ?_
    | with_reducible refine State_wr_frame m2 ?_
    | with_reducible refine Frame.ite ?_ ?_
    | split

theorem startRaster_frame {κ : Nat} {σ : State} {s : State} (hk : Nat.testBit 2048 κ = false) (hF : Frame κ σ s) :
    Frame κ σ (startRaster s) := by
  have m2048 := hk
  unfold startRaster
  try dsimp only
  repeat' first
    | with_reducible exact hF
    | with_reducible assumption
    | split
    | (apply Frame.lit m2048 rfl; case e => constructor <;> (try dsimp only) <;> first | exact .inl rfl | exact .inr rfl)

theorem configureHub_frame {κ : Nat} {σ : State} {im : Image} {s : State} (hk : Nat.testBit 27474 κ = false) (hF : Frame κ σ s) :
    Frame κ σ (configureHub im s) := by
  have m2 : Nat.testBit 2 κ = false := testBit_sub rfl hk
  have m64 : Nat.testBit 64 κ = false := testBit_sub rfl hk
  have m256 : Nat.testBit 256 κ = false := testBit_sub rfl hk
  have m514 : Nat.testBit 514 κ = false := testBit_sub rfl hk
  have m2048 : Nat.testBit 2048 κ = false := testBit_sub rfl hk
  have m24594 : Nat.testBit 24594 κ = false := testBit_sub rfl hk
  unfold configureHub
  try dsimp only
  repeat' first
    | with_reducible exact hF
    | with_reducible assumption
    | with_reducible refine giveFields_frame m2 ?_
    | with_reducible refine State_wr_frame m2 ?_
    | with_reducible refine startRaster_frame m2048 ?_
    | with_reducible refine structuralEvent_frame m514 ?_
    | with_reducible refine checkSapling_frame m2 ?_
    | with_reducible refine trainPorts_frame m24594 ?_
    | with_reducible refine copyNotices_frame m64 ?_
    | with_reducible refine wrs_frame m2 ?_
    | (apply Frame.lit m256 rfl; case e => constructor <;> (try dsimp only) <;> first | exact .inl rfl | exact .inr rfl)

theorem execImageConfigComplete_frame {κ : Nat} {σ : State} {s : State} (hk : Nat.testBit 33582034 κ = false) (hF : Frame κ σ s) :
    FrameO κ σ (execImageConfigComplete s) := by
  have m130 : Nat.testBit 130 κ = false := testBit_sub rfl hk
  have m27474 : Nat.testBit 27474 κ = false := testBit_sub rfl hk
  have m33554562 : Nat.testBit 33554562 κ = false := testBit_sub rfl hk
  unfold execImageConfigComplete
  try dsimp only
  repeat' first
    | with_reducible exact hF
    | with_reducible assumption
    | with_reducible refine denyStart_frame m130 ?_
    | with_reducible refine updateExt_frame m33554562 ?_
    | with_reducible refine configureHub_frame m27474 ?_
    | with_reducible refine FrameO.next ?_
    | with_reducible refine FrameO.ite ?_ ?_
    | with_reducible refine Frame.ite ?_ ?_
    | split

theorem advance_frame {κ : Nat} {σ : State} {s : State} (hk : Nat.testBit 536870914 κ = false)
    (h : Frame κ σ s) : Frame κ σ (advance s) := by
  have ho : Nat.testBit 0x20000000 κ = false := testBit_sub rfl hk
  unfold advance
  split
  · exact h
  · dsimp only
    split
    · exact h
    · exact wrs_frame (testBit_sub rfl hk) (otp_frame ho (otp_frame ho h))

theorem wrCfgCtl_frame {κ : Nat} {σ : State} {v : Nat} {s : State} (hk : Nat.testBit 603980034 κ = false) (hF : Frame κ σ s) :
    Frame κ σ (wrCfgCtl v s) := by
  have m2 : Nat.testBit 2 κ = false := testBit_sub rfl hk
  have m256 : Nat.testBit 256 κ = false := testBit_sub rfl hk
  have m67108866 : Nat.testBit 67108866 κ = false := testBit_sub rfl hk
  have m536870914 : Nat.testBit 536870914 κ = false := testBit_sub rfl hk
  unfold wrCfgCtl
  try dsimp only
  repeat' first
    | with_reducible exact hF
    | with_reducible assumption
    | with_reducible refine holdKey_frame m67108866 ?_
    | with_reducible refine State_wr_frame m2 ?_
    | with_reducible refine advance_frame m536870914 ?_
    | with_reducible refine Frame.ite ?_ ?_
    | split
    | (apply Frame.lit m256 rfl; case e => constructor <;> (try dsimp only) <;> first | exact .inl rfl | exact .inr rfl)

theorem execCheckComplete_frame {κ : Nat} {σ : State} {s : State} (hk : Nat.testBit 67109122 κ = false) (hF : Frame κ σ s) :
    FrameO κ σ (execCheckComplete s) := by
  have m2 : Nat.testBit 2 κ = false := testBit_sub rfl hk
  have m258 : Nat.testBit 258 κ = false := testBit_sub rfl hk
  have m67108866 : Nat.testBit 67108866 κ = false := testBit_sub rfl hk
  unfold execCheckComplete
  try dsimp only
  repeat' first
    | with_reducible exact hF
    | with_reducible assumption
    | with_reducible refine dropKey_frame m67108866 ?_
    | with_reducible refine stopCheck_frame m258 ?_
    | with_reducible refine setRes_frame m2 ?_
    | with_reducible refine FrameO.next ?_
    | with_reducible refine FrameO.ite ?_ ?_
    | with_reducible refine Frame.ite ?_ ?_
    | split

end Sys2Proof.Laws
end

