-- ==== Sys2Proof/Laws/FrameAllot.lean ====
section
/-! SUPPORT. What each operation of Machine/Allot.lean leaves alone. -/

namespace Sys2Proof.Laws

open Sys2Proof Sys2Proof.Machine

set_option linter.unusedTactic false
set_option linter.unreachableTactic false
set_option linter.unusedVariables false

end Sys2Proof.Laws
end

