-- ==== Sys2Proof/Laws/FrameSolver.lean ====
section
/-! SUPPORT. What each operation of Machine/Solver.lean leaves alone. -/

namespace Sys2Proof.Laws

open Sys2Proof Sys2Proof.Machine

set_option linter.unusedTactic false
set_option linter.unreachableTactic false
set_option linter.unusedVariables false

theorem execSettleTimerExpiry_frame {κ : Nat} {σ : State} {s : State} (hk : Nat.testBit 58722962 κ = false) (hF : Frame κ σ s) :
    FrameO κ σ (execSettleTimerExpiry s) := by
  have m2 : Nat.testBit 2 κ = false := testBit_sub rfl hk
  have m2560 : Nat.testBit 2560 κ = false := testBit_sub rfl hk
  have m58720914 : Nat.testBit 58720914 κ = false := testBit_sub rfl hk
  unfold execSettleTimerExpiry
  try dsimp only
  repeat' first
    | with_reducible exact hF
    | with_reducible assumption
    | with_reducible refine recomputeLeases_frame m58720914 ?_
    | with_reducible refine wrs_frame m2 ?_
    | with_reducible refine FrameO.next ?_
    | with_reducible refine FrameO.ite ?_ ?_
    | with_reducible refine Frame.ite ?_ ?_
    | split
    | (apply Frame.lit m2560 rfl; case e => constructor <;> (try dsimp only) <;> first | exact .inl rfl | exact .inr rfl)

theorem fillEntry_frame {κ : Nat} {σ : State} {x : TunPlan} {s : State} (hk : Nat.testBit 2 κ = false) (hF : Frame κ σ s) :
    Frame κ σ (fillEntry x s) := by
  have m2 := hk
  unfold fillEntry
  try dsimp only
  repeat' first
    | with_reducible exact hF
    | with_reducible assumption
    | with_reducible refine applyTemplate_frame m2 ?_
    | with_reducible refine wrs_frame m2 ?_
    | with_reducible refine Frame.ite ?_ ?_
    | split

theorem commitEntry_frame {κ : Nat} {σ : State} {x : TunPlan} {s : State} (hk : Nat.testBit 2 κ = false) (hF : Frame κ σ s) :
    Frame κ σ (commitEntry x s) := by
  have m2 := hk
  unfold commitEntry
  try dsimp only
  repeat' first
    | with_reducible exact hF
    | with_reducible assumption
    | with_reducible refine State_wr_frame m2 ?_
    | with_reducible refine fillEntry_frame m2 ?_
    | with_reducible refine wrs_frame m2 ?_
    | with_reducible refine Frame.ite ?_ ?_
    | split

theorem commitMap_frame {κ : Nat} {σ : State} {m : NMap Nat} {s : State} (hk : Nat.testBit 2 κ = false) (hF : Frame κ σ s) :
    Frame κ σ (commitMap m s) := by
  have m2 := hk
  unfold commitMap
  try dsimp only
  repeat' first
    | with_reducible exact hF
    | with_reducible assumption
    | with_reducible refine State_wr_frame m2 ?_
    | with_reducible refine forAll_frame (fun _ _ _ => ?_) ?_
    | with_reducible refine Frame.ite ?_ ?_
    | split

theorem commitCalendars_frame {κ : Nat} {σ : State} {rs : List SReq} {s : State} (hk : Nat.testBit 2 κ = false) (hF : Frame κ σ s) :
    Frame κ σ (commitCalendars rs s) := by
  have m2 := hk
  unfold commitCalendars
  try dsimp only
  repeat' first
    | with_reducible exact hF
    | with_reducible assumption
    | with_reducible refine writeBank_frame m2 ?_
    | with_reducible refine forAll_frame (fun _ _ _ => ?_) ?_

theorem State_setSv_frame {κ : Nat} {σ : State} {s : State} {x : Solver} (hk : Nat.testBit 512 κ = false) (hF : Frame κ σ s) :
    Frame κ σ (State.setSv s x) := by
  have m512 := hk
  unfold State.setSv
  try dsimp only
  repeat' first
    | with_reducible exact hF
    | with_reducible assumption
    | (apply Frame.lit m512 rfl; case e => constructor <;> (try dsimp only) <;> first | exact .inl rfl | exact .inr rfl)

theorem commitSolve_frame {κ : Nat} {σ : State} {t : Nat} {att : NMap Partner} {s : State} (hk : Nat.testBit 642 κ = false) (hF : Frame κ σ s) :
    Frame κ σ (commitSolve t att s) := by
  have m2 : Nat.testBit 2 κ = false := testBit_sub rfl hk
  have m130 : Nat.testBit 130 κ = false := testBit_sub rfl hk
  have m512 : Nat.testBit 512 κ = false := testBit_sub rfl hk
  unfold commitSolve
  try dsimp only
  repeat' first
    | with_reducible exact hF
    | with_reducible assumption
    | with_reducible refine commitEntry_frame m2 ?_
    | with_reducible refine State_wr_frame m2 ?_
    | with_reducible refine commitMap_frame m2 ?_
    | with_reducible refine commitCalendars_frame m2 ?_
    | with_reducible refine raise_frame m130 ?_
    | with_reducible refine State_setSv_frame m512 ?_
    | with_reducible refine wrs_frame m2 ?_
    | with_reducible refine forAll_frame (fun _ _ _ => ?_) ?_
    | with_reducible refine Frame.ite ?_ ?_
    | split

theorem execSolveCommit_frame {κ : Nat} {σ : State} {t : Nat} {s : State} (hk : Nat.testBit 642 κ = false) (hF : Frame κ σ s) :
    FrameO κ σ (execSolveCommit t s) := by
  have m642 := hk
  unfold execSolveCommit
  try dsimp only
  repeat' first
    | with_reducible exact hF
    | with_reducible assumption
    | with_reducible refine commitSolve_frame m642 ?_
    | with_reducible refine FrameO.next ?_
    | with_reducible refine FrameO.ite ?_ ?_
    | with_reducible refine Frame.ite ?_ ?_
    | split

theorem becomeActive_frame {κ : Nat} {σ : State} {x : TunPlan} {s : State} (hk : Nat.testBit 1053698 κ = false) (hF : Frame κ σ s) :
    Frame κ σ (becomeActive x s) := by
  have m2 : Nat.testBit 2 κ = false := testBit_sub rfl hk
  have m1024 : Nat.testBit 1024 κ = false := testBit_sub rfl hk
  have m4096 : Nat.testBit 4096 κ = false := testBit_sub rfl hk
  have m1048576 : Nat.testBit 1048576 κ = false := testBit_sub rfl hk
  unfold becomeActive
  try dsimp only
  repeat' first
    | with_reducible exact hF
    | with_reducible assumption
    | with_reducible refine startFlow_frame m1024 ?_
    | with_reducible refine State_setCredit_frame m4096 ?_
    | with_reducible refine State_setPipe_frame m1048576 ?_
    | with_reducible refine wrs_frame m2 ?_
    | with_reducible refine Frame.ite ?_ ?_
    | split

theorem retrainTo_frame {κ : Nat} {σ : State} {p : Nat} {kind : Nat} {st : Nat} {s : State} (hk : Nat.testBit 2 κ = false) (hF : Frame κ σ s) :
    Frame κ σ (retrainTo p kind st s) := by
  have m2 := hk
  unfold retrainTo
  try dsimp only
  repeat' first
    | with_reducible exact hF
    | with_reducible assumption
    | with_reducible refine State_wr_frame m2 ?_
    | with_reducible refine wrs_frame m2 ?_
    | with_reducible refine forAll_frame (fun _ _ _ => ?_) ?_
    | with_reducible refine Frame.ite ?_ ?_
    | split

theorem imposeStep_frame {κ : Nat} {σ : State} {x : TunPlan} {s : State} (hk : Nat.testBit 1048594 κ = false) (hF : Frame κ σ s) :
    Frame κ σ (imposeStep x s) := by
  have m2 : Nat.testBit 2 κ = false := testBit_sub rfl hk
  have m16 : Nat.testBit 16 κ = false := testBit_sub rfl hk
  have m1048576 : Nat.testBit 1048576 κ = false := testBit_sub rfl hk
  unfold imposeStep
  try dsimp only
  repeat' first
    | with_reducible exact hF
    | with_reducible assumption
    | with_reducible refine State_wr_frame m2 ?_
    | with_reducible refine State_emit_frame m16 ?_
    | with_reducible refine retrainTo_frame m2 ?_
    | with_reducible refine showReduced_frame m1048576 ?_
    | with_reducible refine Frame.ite ?_ ?_
    | split

theorem noteMoved_frame {κ : Nat} {σ : State} {n : Nat} {s : State} (hk : Nat.testBit 512 κ = false) (hF : Frame κ σ s) :
    Frame κ σ (noteMoved n s) := by
  have m512 := hk
  unfold noteMoved
  try dsimp only
  repeat' first
    | with_reducible exact hF
    | with_reducible assumption
    | with_reducible refine State_setSv_frame m512 ?_

theorem swapEntry_frame {κ : Nat} {σ : State} {x : TunPlan} {s : State} (hk : Nat.testBit 1054226 κ = false) (hF : Frame κ σ s) :
    Frame κ σ (swapEntry x s) := by
  have m2 : Nat.testBit 2 κ = false := testBit_sub rfl hk
  have m512 : Nat.testBit 512 κ = false := testBit_sub rfl hk
  have m1048594 : Nat.testBit 1048594 κ = false := testBit_sub rfl hk
  have m1053698 : Nat.testBit 1053698 κ = false := testBit_sub rfl hk
  unfold swapEntry
  try dsimp only
  repeat' first
    | with_reducible exact hF
    | with_reducible assumption
    | with_reducible refine imposeStep_frame m1048594 ?_
    | with_reducible refine becomeActive_frame m1053698 ?_
    | with_reducible refine teardown_frame m2 ?_
    | with_reducible refine noteMoved_frame m512 ?_
    | with_reducible refine Frame.ite ?_ ?_
    | split

theorem swapGone_frame {κ : Nat} {σ : State} {plan : List TunPlan} {n : Nat} {s : State} (hk : Nat.testBit 2 κ = false) (hF : Frame κ σ s) :
    Frame κ σ (swapGone plan n s) := by
  have m2 := hk
  unfold swapGone
  try dsimp only
  repeat' first
    | with_reducible exact hF
    | with_reducible assumption
    | with_reducible refine State_wr_frame m2 ?_
    | with_reducible refine teardown_frame m2 ?_
    | with_reducible refine Frame.ite ?_ ?_
    | split

theorem flipCalendars_frame {κ : Nat} {σ : State} {s : State} (hk : Nat.testBit 67714 κ = false) (hF : Frame κ σ s) :
    Frame κ σ (flipCalendars s) := by
  have m67714 := hk
  have m2 : Nat.testBit 2 κ = false := testBit_sub rfl hk
  have m2048 : Nat.testBit 2048 κ = false := testBit_sub rfl hk
  unfold flipCalendars
  try dsimp only
  repeat' first
    | with_reducible exact hF
    | with_reducible assumption
    | with_reducible refine adoptQbv_frame m67714 ?_
    | with_reducible refine wrs_frame m2 ?_
    | with_reducible refine forAll_frame (fun _ _ _ => ?_) ?_
    | split
    | (apply Frame.lit m2048 rfl; case e => constructor <;> (try dsimp only) <;> first | exact .inl rfl | exact .inr rfl)

theorem giveGrants_frame {κ : Nat} {σ : State} {g : NMap Nat} {s : State} (hk : Nat.testBit 2 κ = false) (hF : Frame κ σ s) :
    Frame κ σ (giveGrants g s) := by
  have m2 := hk
  unfold giveGrants
  try dsimp only
  repeat' first
    | with_reducible exact hF
    | with_reducible assumption
    | with_reducible refine sumGrants_frame m2 ?_
    | with_reducible refine wrs_frame m2 ?_
    | with_reducible refine Frame.ite ?_ ?_
    | split

theorem enterStand_frame {κ : Nat} {σ : State} {s : State} (hk : Nat.testBit 642 κ = false) (hF : Frame κ σ s) :
    Frame κ σ (enterStand s) := by
  have m2 : Nat.testBit 2 κ = false := testBit_sub rfl hk
  have m130 : Nat.testBit 130 κ = false := testBit_sub rfl hk
  have m512 : Nat.testBit 512 κ = false := testBit_sub rfl hk
  unfold enterStand
  try dsimp only
  repeat' first
    | with_reducible exact hF
    | with_reducible assumption
    | with_reducible refine raise_frame m130 ?_
    | with_reducible refine State_setSv_frame m512 ?_
    | with_reducible refine wrs_frame m2 ?_
    | with_reducible refine Frame.ite ?_ ?_
    | split

theorem toChild_frame {κ : Nat} {σ : State} {p : Nat} {b : Nat} {op : Nat} {count : Nat} {addr : Word} {data : Words} {s : State} (hk : Nat.testBit 1168 κ = false) (hF : Frame κ σ s) :
    Frame κ σ (toChild p b op count addr data s) := by
  have m16 : Nat.testBit 16 κ = false := testBit_sub rfl hk
  have m128 : Nat.testBit 128 κ = false := testBit_sub rfl hk
  have m1024 : Nat.testBit 1024 κ = false := testBit_sub rfl hk
  unfold toChild
  try dsimp only
  repeat' first
    | with_reducible exact hF
    | with_reducible assumption
    | with_reducible refine agentMessage_frame m1024 ?_
    | with_reducible refine State_emit_frame m16 ?_
    | (apply Frame.lit m128 rfl; case e => constructor <;> (try dsimp only) <;> first | exact .inl rfl | exact .inr rfl)

theorem readReport_frame {κ : Nat} {σ : State} {p : Nat} {b : Nat} {s : State} (hk : Nat.testBit 1168 κ = false) (hF : Frame κ σ s) :
    Frame κ σ (readReport p b s) := by
  have m1168 := hk
  unfold readReport
  try dsimp only
  repeat' first
    | with_reducible exact hF
    | with_reducible assumption
    | with_reducible refine toChild_frame m1168 ?_

theorem tellChild_frame {κ : Nat} {σ : State} {plan : List TunPlan} {e : Nat × Nat × Nat} {s : State} (hk : Nat.testBit 1168 κ = false) (hF : Frame κ σ s) :
    Frame κ σ (tellChild plan e s) := by
  have m1168 := hk
  unfold tellChild
  try dsimp only
  repeat' first
    | with_reducible exact hF
    | with_reducible assumption
    | with_reducible refine toChild_frame m1168 ?_
    | with_reducible refine readReport_frame m1168 ?_

theorem reportUp_frame {κ : Nat} {σ : State} {hubs : Nat} {s : State} (hk : Nat.testBit 130 κ = false) (hF : Frame κ σ s) :
    Frame κ σ (reportUp hubs s) := by
  have m130 := hk
  unfold reportUp
  try dsimp only
  repeat' first
    | with_reducible exact hF
    | with_reducible assumption
    | with_reducible refine writeReport_frame m130 ?_
    | with_reducible refine forAll_frame (fun _ _ _ => ?_) ?_
    | with_reducible refine Frame.ite ?_ ?_
    | split

theorem swapAllot_frame {κ : Nat} {σ : State} {n : Nat} {s : State} (hk : Nat.testBit 1026 κ = false) (hF : Frame κ σ s) :
    Frame κ σ (swapAllot n s) := by
  have m2 : Nat.testBit 2 κ = false := testBit_sub rfl hk
  have m1024 : Nat.testBit 1024 κ = false := testBit_sub rfl hk
  unfold swapAllot
  try dsimp only
  repeat' first
    | with_reducible exact hF
    | with_reducible assumption
    | with_reducible refine State_setFlow_frame m1024 ?_
    | with_reducible refine State_wr_frame m2 ?_
    | with_reducible refine Frame.ite ?_ ?_
    | split

theorem swapTables_frame {κ : Nat} {σ : State} {c : Commit} {s : State} (hk : Nat.testBit 1154706 κ = false) (hF : Frame κ σ s) :
    Frame κ σ (swapTables c s) := by
  have m2 : Nat.testBit 2 κ = false := testBit_sub rfl hk
  have m130 : Nat.testBit 130 κ = false := testBit_sub rfl hk
  have m512 : Nat.testBit 512 κ = false := testBit_sub rfl hk
  have m642 : Nat.testBit 642 κ = false := testBit_sub rfl hk
  have m1024 : Nat.testBit 1024 κ = false := testBit_sub rfl hk
  have m1026 : Nat.testBit 1026 κ = false := testBit_sub rfl hk
  have m1168 : Nat.testBit 1168 κ = false := testBit_sub rfl hk
  have m2048 : Nat.testBit 2048 κ = false := testBit_sub rfl hk
  have m2178 : Nat.testBit 2178 κ = false := testBit_sub rfl hk
  have m4112 : Nat.testBit 4112 κ = false := testBit_sub rfl hk
  have m32768 : Nat.testBit 32768 κ = false := testBit_sub rfl hk
  have m67714 : Nat.testBit 67714 κ = false := testBit_sub rfl hk
  have m1048576 : Nat.testBit 1048576 κ = false := testBit_sub rfl hk
  have m1054226 : Nat.testBit 1054226 κ = false := testBit_sub rfl hk
  unfold swapTables
  try dsimp only
  repeat' first
    | with_reducible exact hF
    | with_reducible assumption
    | with_reducible refine swapEntry_frame m1054226 ?_
    | with_reducible refine swapAllot_frame m1026 ?_
    | with_reducible refine swapGone_frame m2 ?_
    | with_reducible refine adoptOwn_frame m32768 ?_
    | with_reducible refine adoptEth_frame m32768 ?_
    | with_reducible refine flipCalendars_frame m67714 ?_
    | with_reducible refine adoptGeometry_frame m2178 ?_
    | with_reducible refine reservePlaces_frame m1024 ?_
    | with_reducible refine sendCredit_frame m4112 ?_
    | with_reducible refine armAttrs_frame m1048576 ?_
    | with_reducible refine giveGrants_frame m2 ?_
    | with_reducible refine raise_frame m130 ?_
    | with_reducible refine State_setSv_frame m512 ?_
    | with_reducible refine reportUp_frame m130 ?_
    | with_reducible refine enterStand_frame m642 ?_
    | with_reducible refine tellChild_frame m1168 ?_
    | with_reducible refine State_wr_frame m2 ?_
    | with_reducible refine wrs_frame m2 ?_
    | with_reducible refine forAll_frame (fun _ _ _ => ?_) ?_
    | with_reducible refine Frame.ite ?_ ?_
    | split
    | (apply Frame.lit m2048 rfl; case e => constructor <;> (try dsimp only) <;> first | exact .inl rfl | exact .inr rfl)

theorem execTableSwap_frame {κ : Nat} {σ : State} {s : State} (hk : Nat.testBit 1154706 κ = false) (hF : Frame κ σ s) :
    FrameO κ σ (execTableSwap s) := by
  have m1154706 := hk
  unfold execTableSwap
  try dsimp only
  repeat' first
    | with_reducible exact hF
    | with_reducible assumption
    | with_reducible refine swapTables_frame m1154706 ?_
    | with_reducible refine FrameO.next ?_
    | with_reducible refine FrameO.ite ?_ ?_
    | with_reducible refine Frame.ite ?_ ?_
    | split

theorem refreshLimits_frame {κ : Nat} {σ : State} {p : Nat} {was : State} {now : State} (hk : Nat.testBit 2 κ = false) (hF : Frame κ σ now) :
    Frame κ σ (refreshLimits p was now) := by
  have m2 := hk
  unfold refreshLimits
  try dsimp only
  repeat' first
    | with_reducible exact hF
    | with_reducible assumption
    | with_reducible refine wrs_frame m2 ?_
    | with_reducible refine forAll_frame (fun _ _ _ => ?_) ?_
    | with_reducible refine Frame.ite ?_ ?_
    | split

theorem childAnswer_frame {κ : Nat} {σ : State} {p : Nat} {b : Nat} {op : Nat} {tag : Nat} {status : Nat} {count : Nat} {addr : Word} {data : Words} {s : State} (hk : Nat.testBit 135270034 κ = false) (hF : Frame κ σ s) :
    Frame κ σ (childAnswer p b op tag status count addr data s) := by
  have m135270034 := hk
  have m2 : Nat.testBit 2 κ = false := testBit_sub rfl hk
  have m16 : Nat.testBit 16 κ = false := testBit_sub rfl hk
  have m1168 : Nat.testBit 1168 κ = false := testBit_sub rfl hk
  unfold childAnswer
  try dsimp only
  repeat' first
    | with_reducible exact hF
    | with_reducible assumption
    | with_reducible refine State_emit_frame m16 ?_
    | with_reducible refine readReport_frame m1168 ?_
    | with_reducible refine refreshLimits_frame m2 ?_
    | with_reducible refine attachPartner_frame m135270034 ?_
    | with_reducible refine Frame.ite ?_ ?_
    | split

theorem execCascadeMgmtResponse_frame {κ : Nat} {σ : State} {port : CanPort} {op : Byte} {tag : Byte} {status : Byte} {count : Byte} {addr : Word} {data : Words} {s : State} (hk : Nat.testBit 135270034 κ = false) (hF : Frame κ σ s) :
    FrameO κ σ (execCascadeMgmtResponse port op tag status count addr data s) := by
  have m135270034 := hk
  have m16 : Nat.testBit 16 κ = false := testBit_sub rfl hk
  unfold execCascadeMgmtResponse
  try dsimp only
  repeat' first
    | with_reducible exact hF
    | with_reducible assumption
    | with_reducible refine childAnswer_frame m135270034 ?_
    | with_reducible refine State_emit_frame m16 ?_
    | with_reducible refine FrameO.next ?_
    | with_reducible refine FrameO.ite ?_ ?_
    | with_reducible refine Frame.ite ?_ ?_
    | split

end Sys2Proof.Laws
end

