-- ==== Sys2Proof/Laws/FrameRegAccess.lean ====
section
/-! SUPPORT. What each operation of Machine/RegAccess.lean leaves alone. -/

namespace Sys2Proof.Laws

open Sys2Proof Sys2Proof.Machine

set_option linter.unusedTactic false
set_option linter.unreachableTactic false
set_option linter.unusedVariables false

theorem decodeError_frame {κ : Nat} {σ : State} {s : State} (hk : Nat.testBit 130 κ = false) (hF : Frame κ σ s) :
    Frame κ σ (decodeError s) := by
  have m130 := hk
  unfold decodeError
  try dsimp only
  repeat' first
    | with_reducible exact hF
    | with_reducible assumption
    | with_reducible refine raise_frame m130 ?_
    | with_reducible refine Frame.ite ?_ ?_
    | split

theorem fabricRead_frame {κ : Nat} {σ : State} {p : Path} {a : Nat} {s : State} (hk : Nat.testBit 130 κ = false) (hF : Frame κ σ s) :
    Frame κ σ (fabricRead p a s).2 := by
  have m130 := hk
  unfold fabricRead
  try dsimp only
  repeat' first
    | with_reducible exact hF
    | with_reducible assumption
    | with_reducible refine decodeError_frame m130 ?_
    | with_reducible refine Frame.ite ?_ ?_
    | split
    | with_reducible refine Frame.snd (by assumption) ?_
    | with_reducible refine Frame.snd2 (by assumption) ?_
    | (dsimp only)

theorem windowError_frame {κ : Nat} {σ : State} {i : Nat} {s : State} (hk : Nat.testBit 130 κ = false) (hF : Frame κ σ s) :
    Frame κ σ (windowError i s) := by
  have m130 := hk
  have m2 : Nat.testBit 2 κ = false := testBit_sub rfl hk
  unfold windowError
  try dsimp only
  repeat' first
    | with_reducible exact hF
    | with_reducible assumption
    | with_reducible refine raise_frame m130 ?_
    | with_reducible refine State_wr_frame m2 ?_

theorem armWindow_frame {κ : Nat} {σ : State} {i : Nat} {s : State} (hk : Nat.testBit 130 κ = false) (hF : Frame κ σ s) :
    Frame κ σ (armWindow i s) := by
  have m130 := hk
  have m2 : Nat.testBit 2 κ = false := testBit_sub rfl hk
  have m128 : Nat.testBit 128 κ = false := testBit_sub rfl hk
  unfold armWindow
  try dsimp only
  repeat' first
    | with_reducible exact hF
    | with_reducible assumption
    | with_reducible refine windowError_frame m130 ?_
    | with_reducible refine State_wr_frame m2 ?_
    | with_reducible refine Frame.ite ?_ ?_
    | split
    | (apply Frame.lit m128 rfl; case e => constructor <;> (try dsimp only) <;> first | exact .inl rfl | exact .inr rfl)

theorem wrDwctl_frame {κ : Nat} {σ : State} {p : Path} {v : Nat} {s : State} (hk : Nat.testBit 130 κ = false) (hF : Frame κ σ s) :
    Frame κ σ (wrDwctl p v s) := by
  have m130 := hk
  unfold wrDwctl
  try dsimp only
  repeat' first
    | with_reducible exact hF
    | with_reducible assumption
    | with_reducible refine wrWord_frame m130 ?_
    | with_reducible refine armWindow_frame m130 ?_
    | with_reducible refine Frame.ite ?_ ?_
    | split

theorem tunFollow_frame {κ : Nat} {σ : State} {c : Nat} {before : State} {s : State} (hk : Nat.testBit 128 κ = false) (hF : Frame κ σ s) :
    Frame κ σ (tunFollow c before s) := by
  have m128 := hk
  unfold tunFollow
  try dsimp only
  repeat' first
    | with_reducible exact hF
    | with_reducible assumption
    | with_reducible refine tunReportState_frame m128 ?_
    | with_reducible refine tunReportDrop_frame m128 ?_
    | with_reducible refine Frame.ite ?_ ?_
    | split

theorem wrPath_frame {κ : Nat} {σ : State} {v : Nat} {s : State} (hk : Nat.testBit 130 κ = false) (hF : Frame κ σ s) :
    Frame κ σ (wrPath v s) := by
  have m130 := hk
  have m128 : Nat.testBit 128 κ = false := testBit_sub rfl hk
  unfold wrPath
  try dsimp only
  repeat' first
    | with_reducible exact hF
    | with_reducible assumption
    | with_reducible refine wrWord_frame m130 ?_
    | with_reducible refine tunFollow_frame m128 ?_

theorem wrTunMask_frame {κ : Nat} {σ : State} {v : Nat} {s : State} (hk : Nat.testBit 130 κ = false) (hF : Frame κ σ s) :
    Frame κ σ (wrTunMask v s) := by
  have m130 := hk
  have m2 : Nat.testBit 2 κ = false := testBit_sub rfl hk
  unfold wrTunMask
  try dsimp only
  repeat' first
    | with_reducible exact hF
    | with_reducible assumption
    | with_reducible refine wrWord_frame m130 ?_
    | with_reducible refine State_wr_frame m2 ?_
    | with_reducible refine forAll_frame (fun _ _ _ => ?_) ?_
    | with_reducible refine Frame.ite ?_ ?_
    | split

theorem writeReg_frame {κ : Nat} {σ : State} {p : Path} {r : RegId} {i : Nat} {j : Nat} {a : Nat} {v : Nat} {s : State} (hk : Nat.testBit 1073741786 κ = false) (hF : Frame κ σ s) :
    Frame κ σ (writeReg p r i j a v s) := by
  have m2 : Nat.testBit 2 κ = false := testBit_sub rfl hk
  have m130 : Nat.testBit 130 κ = false := testBit_sub rfl hk
  have m146 : Nat.testBit 146 κ = false := testBit_sub rfl hk
  have m642 : Nat.testBit 642 κ = false := testBit_sub rfl hk
  have m1024 : Nat.testBit 1024 κ = false := testBit_sub rfl hk
  have m1154 : Nat.testBit 1154 κ = false := testBit_sub rfl hk
  have m2178 : Nat.testBit 2178 κ = false := testBit_sub rfl hk
  have m2690 : Nat.testBit 2690 κ = false := testBit_sub rfl hk
  have m16530 : Nat.testBit 16530 κ = false := testBit_sub rfl hk
  have m32914 : Nat.testBit 32914 κ = false := testBit_sub rfl hk
  have m67714 : Nat.testBit 67714 κ = false := testBit_sub rfl hk
  have m526466 : Nat.testBit 526466 κ = false := testBit_sub rfl hk
  have m4194434 : Nat.testBit 4194434 κ = false := testBit_sub rfl hk
  have m6291602 : Nat.testBit 6291602 κ = false := testBit_sub rfl hk
  have m33555074 : Nat.testBit 33555074 κ = false := testBit_sub rfl hk
  have m67109250 : Nat.testBit 67109250 κ = false := testBit_sub rfl hk
  have m135267474 : Nat.testBit 135267474 κ = false := testBit_sub rfl hk
  have m135327378 : Nat.testBit 135327378 κ = false := testBit_sub rfl hk
  have m135327386 : Nat.testBit 135327386 κ = false := testBit_sub rfl hk
  have m194047634 : Nat.testBit 194047634 κ = false := testBit_sub rfl hk
  have m202436498 : Nat.testBit 202436498 κ = false := testBit_sub rfl hk
  have m520093658 : Nat.testBit 520093658 κ = false := testBit_sub rfl hk
  have m603980034 : Nat.testBit 603980034 κ = false := testBit_sub rfl hk
  unfold writeReg
  try dsimp only
  repeat' first
    | with_reducible exact hF
    | with_reducible assumption
    | with_reducible refine wrPath_frame m130 ?_
    | with_reducible refine wrDwctl_frame m130 ?_
    | with_reducible refine wrTunMask_frame m130 ?_
    | with_reducible refine wrEven_frame m130 ?_
    | with_reducible refine wrCfgCtl_frame m603980034 ?_
    | with_reducible refine wrReload_frame m67109250 ?_
    | with_reducible refine wrTtLimit_frame m642 ?_
    | with_reducible refine wrTtParam_frame m1154 ?_
    | with_reducible refine meter_frame m1024 ?_
    | with_reducible refine wrHostsel_frame m642 ?_
    | with_reducible refine wrBulk_frame m130 ?_
    | with_reducible refine wrSpill_frame m130 ?_
    | with_reducible refine wrSpshare_frame m130 ?_
    | with_reducible refine wrSpq_frame m130 ?_
    | with_reducible refine wrFlow_frame m130 ?_
    | with_reducible refine wrSchedLead_frame m642 ?_
    | with_reducible refine wrSchedVirt_frame m2690 ?_
    | with_reducible refine wrCalctl_frame m2178 ?_
    | with_reducible refine wrCanCtl_frame m135327378 ?_
    | with_reducible refine wrUpref_frame m642 ?_
    | with_reducible refine wrLcCtl_frame m135327386 ?_
    | with_reducible refine wrLcTest_frame m16530 ?_
    | with_reducible refine wrLcInj_frame m146 ?_
    | with_reducible refine wrFsbase_frame m130 ?_
    | with_reducible refine wrLayerCtl_frame m130 ?_
    | with_reducible refine wrAdpPcie_frame m32914 ?_
    | with_reducible refine wrEthmap_frame m130 ?_
    | with_reducible refine wrEthctl_frame m642 ?_
    | with_reducible refine wrTbctl_frame m2178 ?_
    | with_reducible refine wrTbinci_frame m526466 ?_
    | with_reducible refine wrTbld_frame m67714 ?_
    | with_reducible refine takeSnapshot_frame m2 ?_
    | with_reducible refine wrEvctl_frame m6291602 ?_
    | with_reducible refine wrEvras_frame m4194434 ?_
    | with_reducible refine wrRstCtl_frame m520093658 ?_
    | with_reducible refine wrRstFltinj_frame m520093658 ?_
    | with_reducible refine wrPsctl_frame m135267474 ?_
    | with_reducible refine wrPdCtl_frame m194047634 ?_
    | with_reducible refine wrPcCtl_frame m194047634 ?_
    | with_reducible refine wrBudget_frame m33555074 ?_
    | with_reducible refine wrKeyCmd_frame m202436498 ?_
    | with_reducible refine State_wr_frame m2 ?_
    | with_reducible refine wrWord_frame m130 ?_
    | with_reducible refine Frame.ite ?_ ?_
    | split
    | with_reducible refine Frame.snd (by assumption) ?_
    | with_reducible refine Frame.snd2 (by assumption) ?_
    | (dsimp only)

theorem fabricWrite_frame {κ : Nat} {σ : State} {p : Path} {a : Nat} {v : Nat} {s : State} (hk : Nat.testBit 1073741786 κ = false) (hF : Frame κ σ s) :
    Frame κ σ (fabricWrite p a v s) := by
  have m1073741786 := hk
  have m130 : Nat.testBit 130 κ = false := testBit_sub rfl hk
  unfold fabricWrite
  try dsimp only
  repeat' first
    | with_reducible exact hF
    | with_reducible assumption
    | with_reducible refine decodeError_frame m130 ?_
    | with_reducible refine envEvent_frame m130 ?_
    | with_reducible refine writeReg_frame m1073741786 ?_
    | with_reducible refine Frame.ite ?_ ?_
    | split

theorem advanceBurst_frame {κ : Nat} {σ : State} {i : Nat} {b : Burst} {s : State} (hk : Nat.testBit 130 κ = false) (hF : Frame κ σ s) :
    Frame κ σ (advanceBurst i b s) := by
  have m2 : Nat.testBit 2 κ = false := testBit_sub rfl hk
  have m128 : Nat.testBit 128 κ = false := testBit_sub rfl hk
  unfold advanceBurst
  try dsimp only
  repeat' first
    | with_reducible exact hF
    | with_reducible assumption
    | with_reducible refine State_wr_frame m2 ?_
    | with_reducible refine Frame.ite ?_ ?_
    | split
    | (apply Frame.lit m128 rfl; case e => constructor <;> (try dsimp only) <;> first | exact .inl rfl | exact .inr rfl)

theorem windowAccess_frame {κ : Nat} {σ : State} {p : Path} {w : Option Nat} {s : State} (hk : Nat.testBit 1073741786 κ = false) (hF : Frame κ σ s) :
    Frame κ σ (windowAccess p w s).2 := by
  have m1073741786 := hk
  have m2 : Nat.testBit 2 κ = false := testBit_sub rfl hk
  have m130 : Nat.testBit 130 κ = false := testBit_sub rfl hk
  unfold windowAccess
  try dsimp only
  repeat' first
    | with_reducible exact hF
    | with_reducible assumption
    | with_reducible refine windowError_frame m130 ?_
    | with_reducible refine State_wr_frame m2 ?_
    | with_reducible refine fabricRead_frame m130 ?_
    | with_reducible refine fabricWrite_frame m1073741786 ?_
    | with_reducible refine advanceBurst_frame m130 ?_
    | with_reducible refine Frame.ite ?_ ?_
    | split
    | with_reducible refine Frame.snd (by assumption) ?_
    | with_reducible refine Frame.snd2 (by assumption) ?_
    | (dsimp only)

theorem regRead_frame {κ : Nat} {σ : State} {p : Path} {a : Nat} {s : State} (hk : Nat.testBit 1073741786 κ = false) (hF : Frame κ σ s) :
    Frame κ σ (regRead p a s).2 := by
  have m1073741786 := hk
  have m130 : Nat.testBit 130 κ = false := testBit_sub rfl hk
  unfold regRead
  try dsimp only
  repeat' first
    | with_reducible exact hF
    | with_reducible assumption
    | with_reducible refine windowAccess_frame m1073741786 ?_
    | with_reducible refine fabricRead_frame m130 ?_
    | with_reducible refine Frame.ite ?_ ?_
    | split
    | with_reducible refine Frame.snd (by assumption) ?_
    | with_reducible refine Frame.snd2 (by assumption) ?_
    | (dsimp only)

theorem regWrite_frame {κ : Nat} {σ : State} {p : Path} {a : Nat} {v : Nat} {s : State} (hk : Nat.testBit 1073741786 κ = false) (hF : Frame κ σ s) :
    Frame κ σ (regWrite p a v s) := by
  have m1073741786 := hk
  unfold regWrite
  try dsimp only
  repeat' first
    | with_reducible exact hF
    | with_reducible assumption
    | with_reducible refine windowAccess_frame m1073741786 ?_
    | with_reducible refine fabricWrite_frame m1073741786 ?_
    | with_reducible refine Frame.ite ?_ ?_
    | split
    | with_reducible refine Frame.snd (by assumption) ?_
    | with_reducible refine Frame.snd2 (by assumption) ?_
    | (dsimp only)

theorem readWords_frame {κ : Nat} {σ : State} {p : Path} {a n : Nat} {s : State} (hk : Nat.testBit 1073741786 κ = false)
    (h : Frame κ σ s) : Frame κ σ (readWords p a n s).2 := by
  induction n generalizing a s with
  | zero => exact h
  | succ n ih =>
    unfold readWords
    exact ih (regRead_frame (testBit_sub rfl hk) h)

theorem writeWords_frame {κ : Nat} {σ : State} {p : Path} {a : Nat} {l : List Nat} {s : State} (hk : Nat.testBit 1073741786 κ = false)
    (h : Frame κ σ s) : Frame κ σ (writeWords p a l s) := by
  induction l generalizing a s with
  | nil => exact h
  | cons v t ih =>
    unfold writeWords
    exact ih (regWrite_frame (testBit_sub rfl hk) h)

theorem pathWrite_frame {κ : Nat} {σ : State} {p : Path} {a : Nat} {v : Nat} {s : State} (hk : Nat.testBit 1073741786 κ = false) (hF : Frame κ σ s) :
    Frame κ σ (pathWrite p a v s) := by
  have m1073741786 := hk
  unfold pathWrite
  try dsimp only
  repeat' first
    | with_reducible exact hF
    | with_reducible assumption
    | with_reducible refine regWrite_frame m1073741786 ?_
    | with_reducible refine Frame.ite ?_ ?_
    | split

theorem pathRead_frame {κ : Nat} {σ : State} {p : Path} {a n : Nat} {s : State} (hk : Nat.testBit 1073741786 κ = false)
    (h : Frame κ σ s) : Frame κ σ (pathRead p a n s).2 := by
  unfold pathRead
  split
  · exact h
  · exact readWords_frame (testBit_sub rfl hk) h
  · dsimp only
    suffices hl : ∀ (l : List Nat) (x : List Nat × State), Frame κ σ x.2 →
        Frame κ σ (l.foldl (fun (acc : List Nat × State) k =>
          let b := (a + 4 * k) % 2 ^ 32
          if inAon b then (let r := regRead p b acc.2; (acc.1 ++ [r.1], r.2)) else (acc.1 ++ [0], acc.2)) x).2 from hl _ _ h
    intro l
    induction l with
    | nil => exact fun _ hx => hx
    | cons k l ih =>
      intro x hx
      refine ih _ ?_
      dsimp only
      split
      · exact regRead_frame (testBit_sub rfl hk) hx
      · exact hx

end Sys2Proof.Laws
end

