-- ==== Sys2Proof/Laws/FramePaths.lean ====
section
/-! SUPPORT. What each operation of Machine/Paths.lean leaves alone. -/

namespace Sys2Proof.Laws

open Sys2Proof Sys2Proof.Machine

set_option linter.unusedTactic false
set_option linter.unreachableTactic false
set_option linter.unusedVariables false

theorem flashRequest_frame {κ : Nat} {σ : State} {erase : Bool} {off : Nat} {n : Nat} {data : Bytes} {reply : Option (Crown × Nat × Nat × Word)} {s : State} (hk : Nat.testBit 128 κ = false) (hF : Frame κ σ s) :
    Frame κ σ (flashRequest erase off n data reply s).2 := by
  have m128 := hk
  unfold flashRequest
  try dsimp only
  repeat' first
    | with_reducible exact hF
    | with_reducible assumption
    | with_reducible refine Frame.ite ?_ ?_
    | split
    | with_reducible refine Frame.snd (by assumption) ?_
    | with_reducible refine Frame.snd2 (by assumption) ?_
    | (dsimp only)
    | (apply Frame.lit m128 rfl; case e => constructor <;> (try dsimp only) <;> first | exact .inl rfl | exact .inr rfl)

theorem vendorRequest_frame {κ : Nat} {σ : State} {f : State → State} {s : State} (hk : Nat.testBit 18 κ = false) (hf : ∀ u, Frame κ σ u → Frame κ σ (f u)) (hF : Frame κ σ s) :
    Frame κ σ (vendorRequest f s) := by
  have m2 : Nat.testBit 2 κ = false := testBit_sub rfl hk
  have m16 : Nat.testBit 16 κ = false := testBit_sub rfl hk
  unfold vendorRequest
  try dsimp only
  repeat' first
    | with_reducible exact hF
    | with_reducible assumption
    | with_reducible refine hf _ ?_
    | with_reducible refine State_inc_frame m2 ?_
    | with_reducible refine State_emit_frame m16 ?_
    | with_reducible refine Frame.ite ?_ ?_
    | split

theorem loadBurst_frame {κ : Nat} {σ : State} {a len : Nat} {wr : Bool} {s : State} (hk : Nat.testBit 130 κ = false)
    (h : Frame κ σ s) : Frame κ σ (loadBurst a len wr s).2 := by
  unfold loadBurst
  exact armWindow_frame (testBit_sub rfl hk) (wrs_frame (testBit_sub rfl hk) h)

theorem readWindow_frame {κ : Nat} {σ : State} {p : Path} {n : Nat} {s : State} (hk : Nat.testBit 1073741786 κ = false)
    (h : Frame κ σ s) : Frame κ σ (readWindow p n s).2 := by
  induction n generalizing s with
  | zero => exact h
  | succ n ih =>
    unfold readWindow
    exact ih (windowAccess_frame (testBit_sub rfl hk) h)

theorem writeWindow_frame {κ : Nat} {σ : State} {p : Path} {ws : Words} {s : State} (hk : Nat.testBit 1073741786 κ = false) (hF : Frame κ σ s) :
    Frame κ σ (writeWindow p ws s) := by
  have m1073741786 := hk
  unfold writeWindow
  try dsimp only
  repeat' first
    | with_reducible exact hF
    | with_reducible assumption
    | with_reducible refine windowAccess_frame m1073741786 ?_
    | with_reducible refine forAll_frame (fun _ _ _ => ?_) ?_
    | split
    | with_reducible refine Frame.snd (by assumption) ?_
    | with_reducible refine Frame.snd2 (by assumption) ?_
    | (dsimp only)

theorem execRead32_frame {κ : Nat} {σ : State} {req : Byte} {span : Span} {s : State} (hk : Nat.testBit 1073741786 κ = false) (hF : Frame κ σ s) :
    FrameO κ σ (execRead32 req span s) := by
  have m1073741786 := hk
  have m16 : Nat.testBit 16 κ = false := testBit_sub rfl hk
  have m18 : Nat.testBit 18 κ = false := testBit_sub rfl hk
  unfold execRead32
  try dsimp only
  repeat' first
    | with_reducible exact hF
    | with_reducible assumption
    | with_reducible refine vendorRequest_frame m18 (fun _ _ => ?_) ?_
    | with_reducible refine State_emit_frame m16 ?_
    | with_reducible refine readWords_frame m1073741786 ?_
    | with_reducible refine FrameO.next ?_
    | with_reducible refine FrameO.ite ?_ ?_
    | with_reducible refine Frame.ite ?_ ?_
    | split
    | with_reducible refine Frame.snd (by assumption) ?_
    | with_reducible refine Frame.snd2 (by assumption) ?_
    | (dsimp only)

theorem execWrite32_frame {κ : Nat} {σ : State} {span : Span} {v : Word} {status : Bool} {s : State} (hk : Nat.testBit 1073741786 κ = false) (hF : Frame κ σ s) :
    FrameO κ σ (execWrite32 span v status s) := by
  have m1073741786 := hk
  have m16 : Nat.testBit 16 κ = false := testBit_sub rfl hk
  have m18 : Nat.testBit 18 κ = false := testBit_sub rfl hk
  unfold execWrite32
  try dsimp only
  repeat' first
    | with_reducible exact hF
    | with_reducible assumption
    | with_reducible refine vendorRequest_frame m18 (fun _ _ => ?_) ?_
    | with_reducible refine State_emit_frame m16 ?_
    | with_reducible refine regWrite_frame m1073741786 ?_
    | with_reducible refine FrameO.next ?_
    | with_reducible refine FrameO.ite ?_ ?_
    | with_reducible refine Frame.ite ?_ ?_
    | split

theorem execDread_frame {κ : Nat} {σ : State} {addr : Word} {wlen : Nat} {s : State} (hk : Nat.testBit 1073741786 κ = false) (hF : Frame κ σ s) :
    FrameO κ σ (execDread addr wlen s) := by
  have m1073741786 := hk
  have m16 : Nat.testBit 16 κ = false := testBit_sub rfl hk
  have m18 : Nat.testBit 18 κ = false := testBit_sub rfl hk
  have m130 : Nat.testBit 130 κ = false := testBit_sub rfl hk
  unfold execDread
  try dsimp only
  repeat' first
    | with_reducible exact hF
    | with_reducible assumption
    | with_reducible refine vendorRequest_frame m18 (fun _ _ => ?_) ?_
    | with_reducible refine State_emit_frame m16 ?_
    | with_reducible refine loadBurst_frame m130 ?_
    | with_reducible refine readWindow_frame m1073741786 ?_
    | with_reducible refine FrameO.next ?_
    | with_reducible refine FrameO.ite ?_ ?_
    | with_reducible refine Frame.ite ?_ ?_
    | split
    | with_reducible refine Frame.snd (by assumption) ?_
    | with_reducible refine Frame.snd2 (by assumption) ?_
    | (dsimp only)

theorem execDwrite_frame {κ : Nat} {σ : State} {addr : Word} {data : Bytes} {status : Bool} {s : State} (hk : Nat.testBit 1073741786 κ = false) (hF : Frame κ σ s) :
    FrameO κ σ (execDwrite addr data status s) := by
  have m1073741786 := hk
  have m16 : Nat.testBit 16 κ = false := testBit_sub rfl hk
  have m18 : Nat.testBit 18 κ = false := testBit_sub rfl hk
  have m130 : Nat.testBit 130 κ = false := testBit_sub rfl hk
  unfold execDwrite
  try dsimp only
  repeat' first
    | with_reducible exact hF
    | with_reducible assumption
    | with_reducible refine vendorRequest_frame m18 (fun _ _ => ?_) ?_
    | with_reducible refine State_emit_frame m16 ?_
    | with_reducible refine loadBurst_frame m130 ?_
    | with_reducible refine writeWindow_frame m1073741786 ?_
    | with_reducible refine FrameO.next ?_
    | with_reducible refine FrameO.ite ?_ ?_
    | with_reducible refine Frame.ite ?_ ?_
    | split
    | with_reducible refine Frame.snd (by assumption) ?_
    | with_reducible refine Frame.snd2 (by assumption) ?_
    | (dsimp only)

theorem execFlashErase_frame {κ : Nat} {σ : State} {span : Span} {status : Bool} {s : State} (hk : Nat.testBit 146 κ = false) (hF : Frame κ σ s) :
    FrameO κ σ (execFlashErase span status s) := by
  have m16 : Nat.testBit 16 κ = false := testBit_sub rfl hk
  have m18 : Nat.testBit 18 κ = false := testBit_sub rfl hk
  have m128 : Nat.testBit 128 κ = false := testBit_sub rfl hk
  unfold execFlashErase
  try dsimp only
  repeat' first
    | with_reducible exact hF
    | with_reducible assumption
    | with_reducible refine vendorRequest_frame m18 (fun _ _ => ?_) ?_
    | with_reducible refine State_emit_frame m16 ?_
    | with_reducible refine flashRequest_frame m128 ?_
    | with_reducible refine FrameO.next ?_
    | with_reducible refine FrameO.ite ?_ ?_
    | with_reducible refine Frame.ite ?_ ?_
    | split
    | with_reducible refine Frame.snd (by assumption) ?_
    | with_reducible refine Frame.snd2 (by assumption) ?_
    | (dsimp only)

theorem execFlashProg_frame {κ : Nat} {σ : State} {off : Word} {data : Bytes} {status : Bool} {s : State} (hk : Nat.testBit 146 κ = false) (hF : Frame κ σ s) :
    FrameO κ σ (execFlashProg off data status s) := by
  have m16 : Nat.testBit 16 κ = false := testBit_sub rfl hk
  have m18 : Nat.testBit 18 κ = false := testBit_sub rfl hk
  have m128 : Nat.testBit 128 κ = false := testBit_sub rfl hk
  unfold execFlashProg
  try dsimp only
  repeat' first
    | with_reducible exact hF
    | with_reducible assumption
    | with_reducible refine vendorRequest_frame m18 (fun _ _ => ?_) ?_
    | with_reducible refine State_emit_frame m16 ?_
    | with_reducible refine flashRequest_frame m128 ?_
    | with_reducible refine FrameO.next ?_
    | with_reducible refine FrameO.ite ?_ ?_
    | with_reducible refine Frame.ite ?_ ?_
    | split
    | with_reducible refine Frame.snd (by assumption) ?_
    | with_reducible refine Frame.snd2 (by assumption) ?_
    | (dsimp only)

theorem execFlashRead_frame {κ : Nat} {σ : State} {off : Word} {wlen : Nat} {s : State} (hk : Nat.testBit 18 κ = false) (hF : Frame κ σ s) :
    FrameO κ σ (execFlashRead off wlen s) := by
  have m18 := hk
  have m16 : Nat.testBit 16 κ = false := testBit_sub rfl hk
  unfold execFlashRead
  try dsimp only
  repeat' first
    | with_reducible exact hF
    | with_reducible assumption
    | with_reducible refine vendorRequest_frame m18 (fun _ _ => ?_) ?_
    | with_reducible refine State_emit_frame m16 ?_
    | with_reducible refine FrameO.next ?_
    | with_reducible refine FrameO.ite ?_ ?_
    | with_reducible refine Frame.ite ?_ ?_
    | split

theorem execFlashStat_frame {κ : Nat} {σ : State} {wlen : Nat} {s : State} (hk : Nat.testBit 18 κ = false) (hF : Frame κ σ s) :
    FrameO κ σ (execFlashStat wlen s) := by
  have m18 := hk
  have m16 : Nat.testBit 16 κ = false := testBit_sub rfl hk
  unfold execFlashStat
  try dsimp only
  repeat' first
    | with_reducible exact hF
    | with_reducible assumption
    | with_reducible refine vendorRequest_frame m18 (fun _ _ => ?_) ?_
    | with_reducible refine State_emit_frame m16 ?_
    | with_reducible refine FrameO.next ?_
    | with_reducible refine FrameO.ite ?_ ?_
    | with_reducible refine Frame.ite ?_ ?_
    | split

theorem sendMgmt_frame {κ : Nat} {σ : State} {c : Crown} {op : Nat} {tag : Nat} {status : Nat} {addr : Word} {data : Words} {s : State} (hk : Nat.testBit 1040 κ = false) (hF : Frame κ σ s) :
    Frame κ σ (sendMgmt c op tag status addr data s) := by
  have m16 : Nat.testBit 16 κ = false := testBit_sub rfl hk
  have m1024 : Nat.testBit 1024 κ = false := testBit_sub rfl hk
  unfold sendMgmt
  try dsimp only
  repeat' first
    | with_reducible exact hF
    | with_reducible assumption
    | with_reducible refine agentMessage_frame m1024 ?_
    | with_reducible refine State_emit_frame m16 ?_

theorem respond_frame {κ : Nat} {σ : State} {c : Crown} {op : Nat} {tag : Nat} {status : Nat} {addr : Word} {data : Words} {s : State} (hk : Nat.testBit 1040 κ = false) (hF : Frame κ σ s) :
    Frame κ σ (respond c op tag status addr data s) := by
  have m1040 := hk
  unfold respond
  try dsimp only
  repeat' first
    | with_reducible exact hF
    | with_reducible assumption
    | with_reducible refine sendMgmt_frame m1040 ?_

theorem serveRead_frame {κ : Nat} {σ : State} {c : Crown} {tag : Byte} {count : Byte} {addr : Word} {s : State} (hk : Nat.testBit 1073741786 κ = false) (hF : Frame κ σ s) :
    Frame κ σ (serveRead c tag count addr s) := by
  have m1073741786 := hk
  have m1040 : Nat.testBit 1040 κ = false := testBit_sub rfl hk
  unfold serveRead
  try dsimp only
  repeat' first
    | with_reducible exact hF
    | with_reducible assumption
    | with_reducible refine respond_frame m1040 ?_
    | with_reducible refine readWords_frame m1073741786 ?_
    | with_reducible refine Frame.ite ?_ ?_
    | split
    | with_reducible refine Frame.snd (by assumption) ?_
    | with_reducible refine Frame.snd2 (by assumption) ?_
    | (dsimp only)

theorem sendWaiting_frame {κ : Nat} {σ : State} {c : Nat} {s : State} (hk : Nat.testBit 13330 κ = false) (hF : Frame κ σ s) :
    Frame κ σ (sendWaiting c s) := by
  have m13330 := hk
  have m1024 : Nat.testBit 1024 κ = false := testBit_sub rfl hk
  unfold sendWaiting
  try dsimp only
  repeat' first
    | with_reducible exact hF
    | with_reducible assumption
    | with_reducible refine sendSeg_frame m13330 ?_
    | with_reducible refine State_setTx_frame m1024 ?_
    | with_reducible refine State_setSecond_frame m1024 ?_
    | with_reducible refine forAll_frame (fun _ _ _ => ?_) ?_

theorem serveWrite_frame {κ : Nat} {σ : State} {c : Crown} {tag : Byte} {count : Byte} {addr : Word} {data : Words} {s : State} (hk : Nat.testBit 1073741786 κ = false) (hF : Frame κ σ s) :
    Frame κ σ (serveWrite c tag count addr data s) := by
  have m1073741786 := hk
  have m1040 : Nat.testBit 1040 κ = false := testBit_sub rfl hk
  have m13330 : Nat.testBit 13330 κ = false := testBit_sub rfl hk
  unfold serveWrite
  try dsimp only
  repeat' first
    | with_reducible exact hF
    | with_reducible assumption
    | with_reducible refine respond_frame m1040 ?_
    | with_reducible refine writeWords_frame m1073741786 ?_
    | with_reducible refine sendWaiting_frame m13330 ?_
    | with_reducible refine Frame.ite ?_ ?_
    | split

theorem startFlash_frame {κ : Nat} {σ : State} {c : Crown} {op tag : Nat} {off : Word} {r : Nat × State} (hk : Nat.testBit 1040 κ = false)
    (h : Frame κ σ r.2) : Frame κ σ (startFlash c op tag off r) := by
  unfold startFlash
  exact Frame.ite h (respond_frame (testBit_sub rfl hk) h)

theorem serveErase_frame {κ : Nat} {σ : State} {c : Crown} {tag : Byte} {count : Byte} {off : Word} {s : State} (hk : Nat.testBit 1168 κ = false) (hF : Frame κ σ s) :
    Frame κ σ (serveErase c tag count off s) := by
  have m128 : Nat.testBit 128 κ = false := testBit_sub rfl hk
  have m1040 : Nat.testBit 1040 κ = false := testBit_sub rfl hk
  unfold serveErase
  try dsimp only
  repeat' first
    | with_reducible exact hF
    | with_reducible assumption
    | with_reducible refine respond_frame m1040 ?_
    | with_reducible refine startFlash_frame m1040 ?_
    | with_reducible refine flashRequest_frame m128 ?_
    | with_reducible refine Frame.ite ?_ ?_
    | split
    | with_reducible refine Frame.snd (by assumption) ?_
    | with_reducible refine Frame.snd2 (by assumption) ?_
    | (dsimp only)

theorem serveProg_frame {κ : Nat} {σ : State} {c : Crown} {tag : Byte} {count : Byte} {off : Word} {data : Words} {s : State} (hk : Nat.testBit 1168 κ = false) (hF : Frame κ σ s) :
    Frame κ σ (serveProg c tag count off data s) := by
  have m128 : Nat.testBit 128 κ = false := testBit_sub rfl hk
  have m1040 : Nat.testBit 1040 κ = false := testBit_sub rfl hk
  unfold serveProg
  try dsimp only
  repeat' first
    | with_reducible exact hF
    | with_reducible assumption
    | with_reducible refine respond_frame m1040 ?_
    | with_reducible refine startFlash_frame m1040 ?_
    | with_reducible refine flashRequest_frame m128 ?_
    | with_reducible refine Frame.ite ?_ ?_
    | split
    | with_reducible refine Frame.snd (by assumption) ?_
    | with_reducible refine Frame.snd2 (by assumption) ?_
    | (dsimp only)

theorem serveFlashRead_frame {κ : Nat} {σ : State} {c : Crown} {tag : Byte} {count : Byte} {off : Word} {s : State} (hk : Nat.testBit 1040 κ = false) (hF : Frame κ σ s) :
    Frame κ σ (serveFlashRead c tag count off s) := by
  have m1040 := hk
  unfold serveFlashRead
  try dsimp only
  repeat' first
    | with_reducible exact hF
    | with_reducible assumption
    | with_reducible refine respond_frame m1040 ?_
    | with_reducible refine Frame.ite ?_ ?_
    | split

theorem serveReserved_frame {κ : Nat} {σ : State} {c : Crown} {op : Byte} {tag : Byte} {count : Byte} {addr : Word} {s : State} (hk : Nat.testBit 1040 κ = false) (hF : Frame κ σ s) :
    Frame κ σ (serveReserved c op tag count addr s) := by
  have m1040 := hk
  unfold serveReserved
  try dsimp only
  repeat' first
    | with_reducible exact hF
    | with_reducible assumption
    | with_reducible refine respond_frame m1040 ?_
    | with_reducible refine Frame.ite ?_ ?_
    | split

theorem serve_frame {κ : Nat} {σ : State} {m : Instr} {s : State} (hk : Nat.testBit 1073741786 κ = false) (hF : Frame κ σ s) :
    Frame κ σ (serve m s) := by
  have m1073741786 := hk
  have m1040 : Nat.testBit 1040 κ = false := testBit_sub rfl hk
  have m1168 : Nat.testBit 1168 κ = false := testBit_sub rfl hk
  unfold serve
  try dsimp only
  repeat' first
    | with_reducible exact hF
    | with_reducible assumption
    | with_reducible refine serveRead_frame m1073741786 ?_
    | with_reducible refine serveWrite_frame m1073741786 ?_
    | with_reducible refine serveErase_frame m1168 ?_
    | with_reducible refine serveProg_frame m1168 ?_
    | with_reducible refine serveFlashRead_frame m1040 ?_
    | with_reducible refine serveReserved_frame m1040 ?_
    | with_reducible refine Frame.ite ?_ ?_
    | split

theorem holdMessage_frame {κ : Nat} {σ : State} {c : Nat} {m : Instr} {s : State} (hk : Nat.testBit 128 κ = false) (hF : Frame κ σ s) :
    Frame κ σ (holdMessage c m s) := by
  have m128 := hk
  unfold holdMessage
  try dsimp only
  repeat' first
    | with_reducible exact hF
    | with_reducible assumption
    | with_reducible refine Frame.ite ?_ ?_
    | split
    | (apply Frame.lit m128 rfl; case e => constructor <;> (try dsimp only) <;> first | exact .inl rfl | exact .inr rfl)

theorem arrive_frame {κ : Nat} {σ : State} {c : Crown} {m : Instr} {s : State} (hk : Nat.testBit 1073741786 κ = false) (hF : Frame κ σ s) :
    Frame κ σ (arrive c m s) := by
  have m1073741786 := hk
  have m128 : Nat.testBit 128 κ = false := testBit_sub rfl hk
  unfold arrive
  try dsimp only
  repeat' first
    | with_reducible exact hF
    | with_reducible assumption
    | with_reducible refine serve_frame m1073741786 ?_
    | with_reducible refine holdMessage_frame m128 ?_
    | with_reducible refine Frame.ite ?_ ?_
    | split

theorem serveQueue_frame {κ : Nat} {σ : State} {c : Nat} {s : State} (hk : Nat.testBit 1073741786 κ = false) (hF : Frame κ σ s) :
    Frame κ σ (serveQueue c s) := by
  have m1073741786 := hk
  have m128 : Nat.testBit 128 κ = false := testBit_sub rfl hk
  unfold serveQueue
  try dsimp only
  repeat' first
    | with_reducible exact hF
    | with_reducible assumption
    | with_reducible refine holdMessage_frame m128 ?_
    | with_reducible refine serve_frame m1073741786 ?_
    | with_reducible refine forAll_frame (fun _ _ _ => ?_) ?_
    | with_reducible refine Frame.ite ?_ ?_
    | split
    | (apply Frame.lit m128 rfl; case e => constructor <;> (try dsimp only) <;> first | exact .inl rfl | exact .inr rfl)

theorem serveHeld_frame {κ : Nat} {σ : State} {s : State} (hk : Nat.testBit 1073741786 κ = false) (hF : Frame κ σ s) :
    Frame κ σ (serveHeld s) := by
  have m1073741786 := hk
  unfold serveHeld
  try dsimp only
  repeat' first
    | with_reducible exact hF
    | with_reducible assumption
    | with_reducible refine serveQueue_frame m1073741786 ?_

theorem answerFlash_frame {κ : Nat} {σ : State} {op : FlashOp} {ok : Bool} {s : State} (hk : Nat.testBit 1073741786 κ = false) (hF : Frame κ σ s) :
    Frame κ σ (answerFlash op ok s) := by
  have m1073741786 := hk
  have m1040 : Nat.testBit 1040 κ = false := testBit_sub rfl hk
  unfold answerFlash
  try dsimp only
  repeat' first
    | with_reducible exact hF
    | with_reducible assumption
    | with_reducible refine serveQueue_frame m1073741786 ?_
    | with_reducible refine respond_frame m1040 ?_
    | with_reducible refine Frame.ite ?_ ?_
    | split

theorem execFlashOpComplete_frame {κ : Nat} {σ : State} {ok : Bool} {s : State} (hk : Nat.testBit 1073741818 κ = false)
    (h : Frame κ σ s) : FrameO κ σ (execFlashOpComplete ok s) := by
  unfold execFlashOpComplete
  split
  · exact FrameO.next h
  · refine FrameO.next (answerFlash_frame (testBit_sub rfl hk) (Frame.litc (t := s) (testBit_sub (a := 168) rfl hk) (fun hc => ⟨hc.1, ?_, hc.2.2⟩) h (by constructor <;> first | exact .inl rfl | exact .inr rfl)))
    dsimp only [State.free]
    split
    · exact mwf_memWrite _ _ _ _ hc.2.1
    · split
      · exact mwf_filter _ _ _ hc.2.1
      · exact mwf_memWrite _ _ _ _ hc.2.1

theorem execRead_frame {κ : Nat} {σ : State} {crown : Crown} {tag : Byte} {count : Byte} {addr : Word} {s : State} (hk : Nat.testBit 1073741786 κ = false) (hF : Frame κ σ s) :
    FrameO κ σ (execRead crown tag count addr s) := by
  have m1073741786 := hk
  unfold execRead
  try dsimp only
  repeat' first
    | with_reducible exact hF
    | with_reducible assumption
    | with_reducible refine arrive_frame m1073741786 ?_
    | with_reducible refine FrameO.next ?_

theorem execWrite_frame {κ : Nat} {σ : State} {crown : Crown} {tag : Byte} {count : Byte} {addr : Word} {data : Words} {s : State} (hk : Nat.testBit 1073741786 κ = false) (hF : Frame κ σ s) :
    FrameO κ σ (execWrite crown tag count addr data s) := by
  have m1073741786 := hk
  unfold execWrite
  try dsimp only
  repeat' first
    | with_reducible exact hF
    | with_reducible assumption
    | with_reducible refine arrive_frame m1073741786 ?_
    | with_reducible refine FrameO.next ?_

theorem execMgmtFlashErase_frame {κ : Nat} {σ : State} {crown : Crown} {tag : Byte} {count : Byte} {off : Word} {s : State} (hk : Nat.testBit 1073741786 κ = false) (hF : Frame κ σ s) :
    FrameO κ σ (execMgmtFlashErase crown tag count off s) := by
  have m1073741786 := hk
  unfold execMgmtFlashErase
  try dsimp only
  repeat' first
    | with_reducible exact hF
    | with_reducible assumption
    | with_reducible refine arrive_frame m1073741786 ?_
    | with_reducible refine FrameO.next ?_

theorem execMgmtFlashProg_frame {κ : Nat} {σ : State} {crown : Crown} {tag : Byte} {count : Byte} {off : Word} {data : Words} {s : State} (hk : Nat.testBit 1073741786 κ = false) (hF : Frame κ σ s) :
    FrameO κ σ (execMgmtFlashProg crown tag count off data s) := by
  have m1073741786 := hk
  unfold execMgmtFlashProg
  try dsimp only
  repeat' first
    | with_reducible exact hF
    | with_reducible assumption
    | with_reducible refine arrive_frame m1073741786 ?_
    | with_reducible refine FrameO.next ?_

theorem execMgmtFlashRead_frame {κ : Nat} {σ : State} {crown : Crown} {tag : Byte} {count : Byte} {off : Word} {s : State} (hk : Nat.testBit 1073741786 κ = false) (hF : Frame κ σ s) :
    FrameO κ σ (execMgmtFlashRead crown tag count off s) := by
  have m1073741786 := hk
  unfold execMgmtFlashRead
  try dsimp only
  repeat' first
    | with_reducible exact hF
    | with_reducible assumption
    | with_reducible refine arrive_frame m1073741786 ?_
    | with_reducible refine FrameO.next ?_

theorem execMgmtReservedOp_frame {κ : Nat} {σ : State} {crown : Crown} {op : Byte} {tag : Byte} {r : MgmtRange} {s : State} (hk : Nat.testBit 1073741786 κ = false) (hF : Frame κ σ s) :
    FrameO κ σ (execMgmtReservedOp crown op tag r s) := by
  have m1073741786 := hk
  unfold execMgmtReservedOp
  try dsimp only
  repeat' first
    | with_reducible exact hF
    | with_reducible assumption
    | with_reducible refine arrive_frame m1073741786 ?_
    | with_reducible refine FrameO.next ?_

theorem execFirmwareBoot_frame {κ : Nat} {σ : State} {sfdp : Option Nat} {s : State} (hk : Nat.testBit 1073741786 κ = false) (hF : Frame κ σ s) :
    FrameO κ σ (execFirmwareBoot sfdp s) := by
  have m1073741786 := hk
  have m135267482 : Nat.testBit 135267482 κ = false := testBit_sub rfl hk
  unfold execFirmwareBoot
  try dsimp only
  repeat' first
    | with_reducible exact hF
    | with_reducible assumption
    | with_reducible refine serveHeld_frame m1073741786 ?_
    | with_reducible refine firmwareBoot_frame m135267482 ?_
    | with_reducible refine FrameO.next ?_

theorem execMgmtRestartComplete_frame {κ : Nat} {σ : State} {aOk : Bool} {bOk : Bool} {s : State} (hk : Nat.testBit 1073741786 κ = false) (hF : Frame κ σ s) :
    FrameO κ σ (execMgmtRestartComplete aOk bOk s) := by
  have m1073741786 := hk
  have m403703442 : Nat.testBit 403703442 κ = false := testBit_sub rfl hk
  unfold execMgmtRestartComplete
  try dsimp only
  repeat' first
    | with_reducible exact hF
    | with_reducible assumption
    | with_reducible refine serveHeld_frame m1073741786 ?_
    | with_reducible refine mgmtRestarted_frame m403703442 ?_
    | with_reducible refine FrameO.next ?_

theorem execEvent_frame {κ : Nat} {σ : State} {crown : Crown} {s : State} (hk : Nat.testBit 1168 κ = false) (hF : Frame κ σ s) :
    FrameO κ σ (execEvent crown s) := by
  have m128 : Nat.testBit 128 κ = false := testBit_sub rfl hk
  have m1040 : Nat.testBit 1040 κ = false := testBit_sub rfl hk
  unfold execEvent
  try dsimp only
  repeat' first
    | with_reducible exact hF
    | with_reducible assumption
    | with_reducible refine sendMgmt_frame m1040 ?_
    | with_reducible refine FrameO.next ?_
    | with_reducible refine FrameO.ite ?_ ?_
    | with_reducible refine Frame.ite ?_ ?_
    | split
    | (apply Frame.lit m128 rfl; case e => constructor <;> (try dsimp only) <;> first | exact .inl rfl | exact .inr rfl)

theorem execEp1InToken_frame {κ : Nat} {σ : State} {s : State} (hk : Nat.testBit 146 κ = false) (hF : Frame κ σ s) :
    FrameO κ σ (execEp1InToken s) := by
  have m2 : Nat.testBit 2 κ = false := testBit_sub rfl hk
  have m16 : Nat.testBit 16 κ = false := testBit_sub rfl hk
  have m128 : Nat.testBit 128 κ = false := testBit_sub rfl hk
  have m130 : Nat.testBit 130 κ = false := testBit_sub rfl hk
  unfold execEp1InToken
  try dsimp only
  repeat' first
    | with_reducible exact hF
    | with_reducible assumption
    | with_reducible refine State_inc_frame m2 ?_
    | with_reducible refine raise_frame m130 ?_
    | with_reducible refine State_wr_frame m2 ?_
    | with_reducible refine State_emit_frame m16 ?_
    | with_reducible refine FrameO.next ?_
    | with_reducible refine FrameO.ite ?_ ?_
    | with_reducible refine Frame.ite ?_ ?_
    | split
    | (apply Frame.lit m128 rfl; case e => constructor <;> (try dsimp only) <;> first | exact .inl rfl | exact .inr rfl)

theorem execEp1Ack_frame {κ : Nat} {σ : State} {s : State} (hk : Nat.testBit 8388736 κ = false) (hF : Frame κ σ s) :
    FrameO κ σ (execEp1Ack s) := by
  have m8388736 := hk
  unfold execEp1Ack
  try dsimp only
  repeat' first
    | with_reducible exact hF
    | with_reducible assumption
    | with_reducible refine FrameO.next ?_
    | with_reducible refine FrameO.ite ?_ ?_
    | with_reducible refine Frame.ite ?_ ?_
    | split
    | (apply Frame.lit m8388736 rfl; case e => constructor <;> (try dsimp only) <;> first | exact .inl rfl | exact .inr rfl)

theorem p43Write_frame {κ : Nat} {σ : State} {a : Nat} {ws : Words} {s : State} (hk : Nat.testBit 1073741786 κ = false)
    (h : Frame κ σ s) : Frame κ σ (p43Write a ws s) := by
  unfold p43Write
  suffices hl : ∀ (l : Words) (x : Nat × State), Frame κ σ x.2 →
      Frame κ σ (l.foldl (fun (acc : Nat × State) w => (acc.1 + 4, pathWrite Path.p43 (acc.1 % 2 ^ 32) (BitVec.toNat w) acc.2)) x).2 from
    hl ws (a, s) h
  intro l
  induction l with
  | nil => exact fun _ hx => hx
  | cons k l ih => exact fun x hx => ih _ (pathWrite_frame (testBit_sub rfl hk) hx)

theorem p43Read_frame {κ : Nat} {σ : State} {a : Nat} {n : Nat} {s : State} (hk : Nat.testBit 1073741786 κ = false) (hF : Frame κ σ s) :
    Frame κ σ (p43Read a n s).2 := by
  have m1073741786 := hk
  unfold p43Read
  try dsimp only
  repeat' first
    | with_reducible exact hF
    | with_reducible assumption
    | with_reducible refine pathRead_frame m1073741786 ?_
    | split
    | with_reducible refine Frame.snd (by assumption) ?_
    | with_reducible refine Frame.snd2 (by assumption) ?_
    | (dsimp only)

theorem execI2cWriteTransfer_frame {κ : Nat} {σ : State} {addr : I2c Word} {data : Bytes} {s : State} (hk : Nat.testBit 1073741786 κ = false) (hF : Frame κ σ s) :
    FrameO κ σ (execI2cWriteTransfer addr data s) := by
  have m1073741786 := hk
  unfold execI2cWriteTransfer
  try dsimp only
  repeat' first
    | with_reducible exact hF
    | with_reducible assumption
    | with_reducible refine p43Write_frame m1073741786 ?_
    | with_reducible refine FrameO.next ?_
    | with_reducible refine FrameO.ite ?_ ?_
    | with_reducible refine Frame.ite ?_ ?_
    | split

theorem execI2cSetReadAddress_frame {κ : Nat} {σ : State} {addr : I2c Word} {s : State} (hk : Nat.testBit 128 κ = false) (hF : Frame κ σ s) :
    FrameO κ σ (execI2cSetReadAddress addr s) := by
  have m128 := hk
  unfold execI2cSetReadAddress
  try dsimp only
  repeat' first
    | with_reducible exact hF
    | with_reducible assumption
    | with_reducible refine FrameO.next ?_
    | with_reducible refine FrameO.ite ?_ ?_
    | with_reducible refine Frame.ite ?_ ?_
    | split
    | (apply Frame.lit m128 rfl; case e => constructor <;> (try dsimp only) <;> first | exact .inl rfl | exact .inr rfl)

theorem execI2cReadTransfer_frame {κ : Nat} {σ : State} {nbytes : I2c Nat} {s : State} (hk : Nat.testBit 1073741786 κ = false) (hF : Frame κ σ s) :
    FrameO κ σ (execI2cReadTransfer nbytes s) := by
  have m1073741786 := hk
  have m16 : Nat.testBit 16 κ = false := testBit_sub rfl hk
  have m128 : Nat.testBit 128 κ = false := testBit_sub rfl hk
  unfold execI2cReadTransfer
  try dsimp only
  repeat' first
    | with_reducible exact hF
    | with_reducible assumption
    | with_reducible refine p43Read_frame m1073741786 ?_
    | with_reducible refine State_emit_frame m16 ?_
    | with_reducible refine FrameO.next ?_
    | with_reducible refine FrameO.ite ?_ ?_
    | with_reducible refine Frame.ite ?_ ?_
    | split
    | with_reducible refine Frame.snd (by assumption) ?_
    | with_reducible refine Frame.snd2 (by assumption) ?_
    | (dsimp only)
    | (apply Frame.lit m128 rfl; case e => constructor <;> (try dsimp only) <;> first | exact .inl rfl | exact .inr rfl)

theorem execI2cInvalidCommand_frame {κ : Nat} {σ : State} {cmd : I2c Byte} {s : State} (hk : Nat.testBit 16 κ = false) (hF : Frame κ σ s) :
    FrameO κ σ (execI2cInvalidCommand cmd s) := by
  have m16 := hk
  unfold execI2cInvalidCommand
  try dsimp only
  repeat' first
    | with_reducible exact hF
    | with_reducible assumption
    | with_reducible refine State_emit_frame m16 ?_
    | with_reducible refine FrameO.next ?_
    | with_reducible refine FrameO.ite ?_ ?_
    | with_reducible refine Frame.ite ?_ ?_
    | split

theorem execSpiWriteFrame_frame {κ : Nat} {σ : State} {addr : Word} {data : Bytes} {s : State} (hk : Nat.testBit 1073741786 κ = false) (hF : Frame κ σ s) :
    FrameO κ σ (execSpiWriteFrame addr data s) := by
  have m1073741786 := hk
  unfold execSpiWriteFrame
  try dsimp only
  repeat' first
    | with_reducible exact hF
    | with_reducible assumption
    | with_reducible refine p43Write_frame m1073741786 ?_
    | with_reducible refine FrameO.next ?_
    | with_reducible refine FrameO.ite ?_ ?_
    | with_reducible refine Frame.ite ?_ ?_
    | split

theorem execSpiReadFrame_frame {κ : Nat} {σ : State} {addr : Word} {nbytes : Nat} {s : State} (hk : Nat.testBit 1073741786 κ = false) (hF : Frame κ σ s) :
    FrameO κ σ (execSpiReadFrame addr nbytes s) := by
  have m1073741786 := hk
  have m8 : Nat.testBit 8 κ = false := testBit_sub rfl hk
  have m16 : Nat.testBit 16 κ = false := testBit_sub rfl hk
  unfold execSpiReadFrame
  try dsimp only
  repeat' first
    | with_reducible exact hF
    | with_reducible assumption
    | with_reducible refine State_free_frame m8 ?_
    | with_reducible refine p43Read_frame m1073741786 ?_
    | with_reducible refine State_emit_frame m16 ?_
    | with_reducible refine FrameO.next ?_
    | with_reducible refine FrameO.ite ?_ ?_
    | with_reducible refine Frame.ite ?_ ?_
    | split
    | with_reducible refine Frame.snd (by assumption) ?_
    | with_reducible refine Frame.snd2 (by assumption) ?_
    | (dsimp only)

theorem execSpiInvalidCommand_frame {κ : Nat} {σ : State} {cmd : Byte} {nbytes : Nat} {s : State} (hk : Nat.testBit 16 κ = false) (hF : Frame κ σ s) :
    FrameO κ σ (execSpiInvalidCommand cmd nbytes s) := by
  have m16 := hk
  unfold execSpiInvalidCommand
  try dsimp only
  repeat' first
    | with_reducible exact hF
    | with_reducible assumption
    | with_reducible refine State_emit_frame m16 ?_
    | with_reducible refine FrameO.next ?_
    | with_reducible refine FrameO.ite ?_ ?_
    | with_reducible refine Frame.ite ?_ ?_
    | split

theorem writeBits_frame {κ : Nat} {σ : State} {p : Path} {a : Nat} {set : Nat} {s : State} (hk : Nat.testBit 1073741786 κ = false) (hF : Frame κ σ s) :
    Frame κ σ (writeBits p a set s) := by
  have m1073741786 := hk
  unfold writeBits
  try dsimp only
  repeat' first
    | with_reducible exact hF
    | with_reducible assumption
    | with_reducible refine pathWrite_frame m1073741786 ?_

theorem execRegisterWrite_frame {κ : Nat} {σ : State} {path : Path} {addr : Word} {v : Word} {s : State} (hk : Nat.testBit 1073741786 κ = false) (hF : Frame κ σ s) :
    FrameO κ σ (execRegisterWrite path addr v s) := by
  have m1073741786 := hk
  unfold execRegisterWrite
  try dsimp only
  repeat' first
    | with_reducible exact hF
    | with_reducible assumption
    | with_reducible refine pathWrite_frame m1073741786 ?_
    | with_reducible refine FrameO.next ?_

theorem execUnmappedAccess_frame {κ : Nat} {σ : State} {path : Path} {addr : Word} {wr : Bool} {s : State} (hk : Nat.testBit 1073741786 κ = false) (hF : Frame κ σ s) :
    FrameO κ σ (execUnmappedAccess path addr wr s) := by
  have m1073741786 := hk
  have m16 : Nat.testBit 16 κ = false := testBit_sub rfl hk
  unfold execUnmappedAccess
  try dsimp only
  repeat' first
    | with_reducible exact hF
    | with_reducible assumption
    | with_reducible refine pathWrite_frame m1073741786 ?_
    | with_reducible refine pathRead_frame m1073741786 ?_
    | with_reducible refine State_emit_frame m16 ?_
    | with_reducible refine FrameO.next ?_
    | with_reducible refine FrameO.ite ?_ ?_
    | with_reducible refine Frame.ite ?_ ?_
    | split
    | with_reducible refine Frame.snd (by assumption) ?_
    | with_reducible refine Frame.snd2 (by assumption) ?_
    | (dsimp only)

theorem execArm_frame {κ : Nat} {σ : State} {path : Path} {v : Word} {s : State} (hk : Nat.testBit 1073741786 κ = false) (hF : Frame κ σ s) :
    FrameO κ σ (execArm path v s) := by
  have m1073741786 := hk
  unfold execArm
  try dsimp only
  repeat' first
    | with_reducible exact hF
    | with_reducible assumption
    | with_reducible refine pathWrite_frame m1073741786 ?_
    | with_reducible refine FrameO.next ?_

theorem execSysDwdataAccess_frame {κ : Nat} {σ : State} {path : Path} {w : Option Word} {s : State} (hk : Nat.testBit 1073741786 κ = false) (hF : Frame κ σ s) :
    FrameO κ σ (execSysDwdataAccess path w s) := by
  have m1073741786 := hk
  have m16 : Nat.testBit 16 κ = false := testBit_sub rfl hk
  unfold execSysDwdataAccess
  try dsimp only
  repeat' first
    | with_reducible exact hF
    | with_reducible assumption
    | with_reducible refine pathWrite_frame m1073741786 ?_
    | with_reducible refine pathRead_frame m1073741786 ?_
    | with_reducible refine State_emit_frame m16 ?_
    | with_reducible refine FrameO.next ?_
    | split
    | with_reducible refine Frame.snd (by assumption) ?_
    | with_reducible refine Frame.snd2 (by assumption) ?_
    | (dsimp only)

theorem execCheck_frame {κ : Nat} {σ : State} {path : Path} {s : State} (hk : Nat.testBit 1073741786 κ = false) (hF : Frame κ σ s) :
    FrameO κ σ (execCheck path s) := by
  have m1073741786 := hk
  unfold execCheck
  try dsimp only
  repeat' first
    | with_reducible exact hF
    | with_reducible assumption
    | with_reducible refine pathWrite_frame m1073741786 ?_
    | with_reducible refine FrameO.next ?_

theorem execAdvance_frame {κ : Nat} {σ : State} {path : Path} {s : State} (hk : Nat.testBit 1073741786 κ = false) (hF : Frame κ σ s) :
    FrameO κ σ (execAdvance path s) := by
  have m1073741786 := hk
  unfold execAdvance
  try dsimp only
  repeat' first
    | with_reducible exact hF
    | with_reducible assumption
    | with_reducible refine pathWrite_frame m1073741786 ?_
    | with_reducible refine FrameO.next ?_

theorem execGo_frame {κ : Nat} {σ : State} {path : Path} {v : Word} {s : State} (hk : Nat.testBit 1073741786 κ = false) (hF : Frame κ σ s) :
    FrameO κ σ (execGo path v s) := by
  have m1073741786 := hk
  unfold execGo
  try dsimp only
  repeat' first
    | with_reducible exact hF
    | with_reducible assumption
    | with_reducible refine pathWrite_frame m1073741786 ?_
    | with_reducible refine FrameO.next ?_

theorem execHostselChange_frame {κ : Nat} {σ : State} {path : Path} {v : Word} {s : State} (hk : Nat.testBit 1073741786 κ = false) (hF : Frame κ σ s) :
    FrameO κ σ (execHostselChange path v s) := by
  have m1073741786 := hk
  unfold execHostselChange
  try dsimp only
  repeat' first
    | with_reducible exact hF
    | with_reducible assumption
    | with_reducible refine pathWrite_frame m1073741786 ?_
    | with_reducible refine FrameO.next ?_

theorem execTtLimitWrite_frame {κ : Nat} {σ : State} {path : Path} {n : Tun} {v : Word} {s : State} (hk : Nat.testBit 1073741786 κ = false) (hF : Frame κ σ s) :
    FrameO κ σ (execTtLimitWrite path n v s) := by
  have m1073741786 := hk
  unfold execTtLimitWrite
  try dsimp only
  repeat' first
    | with_reducible exact hF
    | with_reducible assumption
    | with_reducible refine pathWrite_frame m1073741786 ?_
    | with_reducible refine FrameO.next ?_

theorem execTtParamWrite_frame {κ : Nat} {σ : State} {path : Path} {n : Tun} {reg : TtParam} {v : Word} {s : State} (hk : Nat.testBit 1073741786 κ = false) (hF : Frame κ σ s) :
    FrameO κ σ (execTtParamWrite path n reg v s) := by
  have m1073741786 := hk
  unfold execTtParamWrite
  try dsimp only
  repeat' first
    | with_reducible exact hF
    | with_reducible assumption
    | with_reducible refine pathWrite_frame m1073741786 ?_
    | with_reducible refine FrameO.next ?_

theorem execNsrcWrite_frame {κ : Nat} {σ : State} {path : Path} {v : Word} {s : State} (hk : Nat.testBit 1073741786 κ = false) (hF : Frame κ σ s) :
    FrameO κ σ (execNsrcWrite path v s) := by
  have m1073741786 := hk
  unfold execNsrcWrite
  try dsimp only
  repeat' first
    | with_reducible exact hF
    | with_reducible assumption
    | with_reducible refine pathWrite_frame m1073741786 ?_
    | with_reducible refine FrameO.next ?_

theorem execSchedVirtWrite_frame {κ : Nat} {σ : State} {path : Path} {v : Word} {s : State} (hk : Nat.testBit 1073741786 κ = false) (hF : Frame κ σ s) :
    FrameO κ σ (execSchedVirtWrite path v s) := by
  have m1073741786 := hk
  unfold execSchedVirtWrite
  try dsimp only
  repeat' first
    | with_reducible exact hF
    | with_reducible assumption
    | with_reducible refine pathWrite_frame m1073741786 ?_
    | with_reducible refine FrameO.next ?_

theorem execOvhWrite_frame {κ : Nat} {σ : State} {path : Path} {port : Port} {v : Word} {s : State} (hk : Nat.testBit 1073741786 κ = false) (hF : Frame κ σ s) :
    FrameO κ σ (execOvhWrite path port v s) := by
  have m1073741786 := hk
  unfold execOvhWrite
  try dsimp only
  repeat' first
    | with_reducible exact hF
    | with_reducible assumption
    | with_reducible refine pathWrite_frame m1073741786 ?_
    | with_reducible refine FrameO.next ?_

theorem execRetrain_frame {κ : Nat} {σ : State} {path : Path} {port : CanPort} {s : State} (hk : Nat.testBit 1073741786 κ = false) (hF : Frame κ σ s) :
    FrameO κ σ (execRetrain path port s) := by
  have m1073741786 := hk
  unfold execRetrain
  try dsimp only
  repeat' first
    | with_reducible exact hF
    | with_reducible assumption
    | with_reducible refine writeBits_frame m1073741786 ?_
    | with_reducible refine FrameO.next ?_

theorem execUprefWrite_frame {κ : Nat} {σ : State} {crown : Crown} {v : Word} {s : State} (hk : Nat.testBit 1073741786 κ = false) (hF : Frame κ σ s) :
    FrameO κ σ (execUprefWrite crown v s) := by
  have m1073741786 := hk
  unfold execUprefWrite
  try dsimp only
  repeat' first
    | with_reducible exact hF
    | with_reducible assumption
    | with_reducible refine pathWrite_frame m1073741786 ?_
    | with_reducible refine FrameO.next ?_

theorem execRtrn_frame {κ : Nat} {σ : State} {path : Path} {cell : LaneCell} {s : State} (hk : Nat.testBit 1073741786 κ = false) (hF : Frame κ σ s) :
    FrameO κ σ (execRtrn path cell s) := by
  have m1073741786 := hk
  unfold execRtrn
  try dsimp only
  repeat' first
    | with_reducible exact hF
    | with_reducible assumption
    | with_reducible refine writeBits_frame m1073741786 ?_
    | with_reducible refine FrameO.next ?_

theorem execHold_frame {κ : Nat} {σ : State} {path : Path} {cell : LaneCell} {on : Bool} {s : State} (hk : Nat.testBit 1073741786 κ = false) (hF : Frame κ σ s) :
    FrameO κ σ (execHold path cell on s) := by
  have m1073741786 := hk
  unfold execHold
  try dsimp only
  repeat' first
    | with_reducible exact hF
    | with_reducible assumption
    | with_reducible refine pathWrite_frame m1073741786 ?_
    | with_reducible refine FrameO.next ?_

theorem execTestEnable_frame {κ : Nat} {σ : State} {path : Path} {cell : LaneCell} {v : Word} {s : State} (hk : Nat.testBit 1073741786 κ = false) (hF : Frame κ σ s) :
    FrameO κ σ (execTestEnable path cell v s) := by
  have m1073741786 := hk
  unfold execTestEnable
  try dsimp only
  repeat' first
    | with_reducible exact hF
    | with_reducible assumption
    | with_reducible refine pathWrite_frame m1073741786 ?_
    | with_reducible refine FrameO.next ?_

theorem execClr_frame {κ : Nat} {σ : State} {path : Path} {cell : LaneCell} {s : State} (hk : Nat.testBit 1073741786 κ = false) (hF : Frame κ σ s) :
    FrameO κ σ (execClr path cell s) := by
  have m1073741786 := hk
  unfold execClr
  try dsimp only
  repeat' first
    | with_reducible exact hF
    | with_reducible assumption
    | with_reducible refine writeBits_frame m1073741786 ?_
    | with_reducible refine FrameO.next ?_

theorem execInject_frame {κ : Nat} {σ : State} {path : Path} {cell : LaneCell} {v : Word} {s : State} (hk : Nat.testBit 1073741786 κ = false) (hF : Frame κ σ s) :
    FrameO κ σ (execInject path cell v s) := by
  have m1073741786 := hk
  unfold execInject
  try dsimp only
  repeat' first
    | with_reducible exact hF
    | with_reducible assumption
    | with_reducible refine pathWrite_frame m1073741786 ?_
    | with_reducible refine FrameO.next ?_

theorem execFsbaseWrite_frame {κ : Nat} {σ : State} {path : Path} {d : Pipe} {v : Word} {s : State} (hk : Nat.testBit 1073741786 κ = false) (hF : Frame κ σ s) :
    FrameO κ σ (execFsbaseWrite path d v s) := by
  have m1073741786 := hk
  unfold execFsbaseWrite
  try dsimp only
  repeat' first
    | with_reducible exact hF
    | with_reducible assumption
    | with_reducible refine pathWrite_frame m1073741786 ?_
    | with_reducible refine FrameO.next ?_

theorem execEjreq_frame {κ : Nat} {σ : State} {path : Path} {port : Port} {s : State} (hk : Nat.testBit 1073741786 κ = false) (hF : Frame κ σ s) :
    FrameO κ σ (execEjreq path port s) := by
  have m1073741786 := hk
  unfold execEjreq
  try dsimp only
  repeat' first
    | with_reducible exact hF
    | with_reducible assumption
    | with_reducible refine pathWrite_frame m1073741786 ?_
    | with_reducible refine FrameO.next ?_

theorem execEthmapWrite_frame {κ : Nat} {σ : State} {path : Path} {port : Port} {v : Word} {s : State} (hk : Nat.testBit 1073741786 κ = false) (hF : Frame κ σ s) :
    FrameO κ σ (execEthmapWrite path port v s) := by
  have m1073741786 := hk
  unfold execEthmapWrite
  try dsimp only
  repeat' first
    | with_reducible exact hF
    | with_reducible assumption
    | with_reducible refine pathWrite_frame m1073741786 ?_
    | with_reducible refine FrameO.next ?_

theorem execMaxfrmWrite_frame {κ : Nat} {σ : State} {path : Path} {port : Port} {v : Word} {s : State} (hk : Nat.testBit 1073741786 κ = false) (hF : Frame κ σ s) :
    FrameO κ σ (execMaxfrmWrite path port v s) := by
  have m1073741786 := hk
  unfold execMaxfrmWrite
  try dsimp only
  repeat' first
    | with_reducible exact hF
    | with_reducible assumption
    | with_reducible refine pathWrite_frame m1073741786 ?_
    | with_reducible refine FrameO.next ?_

theorem execPfcenWrite_frame {κ : Nat} {σ : State} {path : Path} {port : Port} {v : Word} {s : State} (hk : Nat.testBit 1073741786 κ = false) (hF : Frame κ σ s) :
    FrameO κ σ (execPfcenWrite path port v s) := by
  have m1073741786 := hk
  unfold execPfcenWrite
  try dsimp only
  repeat' first
    | with_reducible exact hF
    | with_reducible assumption
    | with_reducible refine pathWrite_frame m1073741786 ?_
    | with_reducible refine FrameO.next ?_

theorem execTbinciWrite_frame {κ : Nat} {σ : State} {path : Path} {n : TimeBase} {v : Word} {s : State} (hk : Nat.testBit 1073741786 κ = false) (hF : Frame κ σ s) :
    FrameO κ σ (execTbinciWrite path n v s) := by
  have m1073741786 := hk
  unfold execTbinciWrite
  try dsimp only
  repeat' first
    | with_reducible exact hF
    | with_reducible assumption
    | with_reducible refine pathWrite_frame m1073741786 ?_
    | with_reducible refine FrameO.next ?_

theorem execTbincfWrite_frame {κ : Nat} {σ : State} {path : Path} {n : TimeBase} {v : Word} {s : State} (hk : Nat.testBit 1073741786 κ = false) (hF : Frame κ σ s) :
    FrameO κ σ (execTbincfWrite path n v s) := by
  have m1073741786 := hk
  unfold execTbincfWrite
  try dsimp only
  repeat' first
    | with_reducible exact hF
    | with_reducible assumption
    | with_reducible refine pathWrite_frame m1073741786 ?_
    | with_reducible refine FrameO.next ?_

theorem execRun_frame {κ : Nat} {σ : State} {path : Path} {n : TimeBase} {v : Word} {s : State} (hk : Nat.testBit 1073741786 κ = false) (hF : Frame κ σ s) :
    FrameO κ σ (execRun path n v s) := by
  have m1073741786 := hk
  unfold execRun
  try dsimp only
  repeat' first
    | with_reducible exact hF
    | with_reducible assumption
    | with_reducible refine pathWrite_frame m1073741786 ?_
    | with_reducible refine FrameO.next ?_

theorem execTbldWrite_frame {κ : Nat} {σ : State} {path : Path} {n : TimeBase} {fr : Bool} {v : Word} {s : State} (hk : Nat.testBit 1073741786 κ = false) (hF : Frame κ σ s) :
    FrameO κ σ (execTbldWrite path n fr v s) := by
  have m1073741786 := hk
  unfold execTbldWrite
  try dsimp only
  repeat' first
    | with_reducible exact hF
    | with_reducible assumption
    | with_reducible refine pathWrite_frame m1073741786 ?_
    | with_reducible refine FrameO.next ?_
    | with_reducible refine FrameO.ite ?_ ?_
    | with_reducible refine Frame.ite ?_ ?_
    | split

theorem execTake_frame {κ : Nat} {σ : State} {path : Path} {s : State} (hk : Nat.testBit 1073741786 κ = false) (hF : Frame κ σ s) :
    FrameO κ σ (execTake path s) := by
  have m1073741786 := hk
  unfold execTake
  try dsimp only
  repeat' first
    | with_reducible exact hF
    | with_reducible assumption
    | with_reducible refine pathWrite_frame m1073741786 ?_
    | with_reducible refine FrameO.next ?_

theorem execLvlclr_frame {κ : Nat} {σ : State} {path : Path} {e : EvtPin} {s : State} (hk : Nat.testBit 1073741786 κ = false) (hF : Frame κ σ s) :
    FrameO κ σ (execLvlclr path e s) := by
  have m1073741786 := hk
  unfold execLvlclr
  try dsimp only
  repeat' first
    | with_reducible exact hF
    | with_reducible assumption
    | with_reducible refine writeBits_frame m1073741786 ?_
    | with_reducible refine FrameO.next ?_

theorem execFltinj_frame {κ : Nat} {σ : State} {path : Path} {v : Word} {s : State} (hk : Nat.testBit 1073741786 κ = false) (hF : Frame κ σ s) :
    FrameO κ σ (execFltinj path v s) := by
  have m1073741786 := hk
  unfold execFltinj
  try dsimp only
  repeat' first
    | with_reducible exact hF
    | with_reducible assumption
    | with_reducible refine pathWrite_frame m1073741786 ?_
    | with_reducible refine FrameO.next ?_

theorem execCold_frame {κ : Nat} {σ : State} {path : Path} {v : Word} {s : State} (hk : Nat.testBit 1073741786 κ = false) (hF : Frame κ σ s) :
    FrameO κ σ (execCold path v s) := by
  have m1073741786 := hk
  unfold execCold
  try dsimp only
  repeat' first
    | with_reducible exact hF
    | with_reducible assumption
    | with_reducible refine pathWrite_frame m1073741786 ?_
    | with_reducible refine FrameO.next ?_

theorem execWarm_frame {κ : Nat} {σ : State} {path : Path} {v : Word} {s : State} (hk : Nat.testBit 1073741786 κ = false) (hF : Frame κ σ s) :
    FrameO κ σ (execWarm path v s) := by
  have m1073741786 := hk
  unfold execWarm
  try dsimp only
  repeat' first
    | with_reducible exact hF
    | with_reducible assumption
    | with_reducible refine pathWrite_frame m1073741786 ?_
    | with_reducible refine FrameO.next ?_

theorem execPrst_frame {κ : Nat} {σ : State} {path : Path} {v : Word} {s : State} (hk : Nat.testBit 1073741786 κ = false) (hF : Frame κ σ s) :
    FrameO κ σ (execPrst path v s) := by
  have m1073741786 := hk
  unfold execPrst
  try dsimp only
  repeat' first
    | with_reducible exact hF
    | with_reducible assumption
    | with_reducible refine pathWrite_frame m1073741786 ?_
    | with_reducible refine FrameO.next ?_

theorem execPsRequest_frame {κ : Nat} {σ : State} {path : Path} {v : Word} {s : State} (hk : Nat.testBit 1073741786 κ = false) (hF : Frame κ σ s) :
    FrameO κ σ (execPsRequest path v s) := by
  have m1073741786 := hk
  unfold execPsRequest
  try dsimp only
  repeat' first
    | with_reducible exact hF
    | with_reducible assumption
    | with_reducible refine pathWrite_frame m1073741786 ?_
    | with_reducible refine FrameO.next ?_

theorem execHrst_frame {κ : Nat} {σ : State} {path : Path} {port : CanPort} {s : State} (hk : Nat.testBit 1073741786 κ = false) (hF : Frame κ σ s) :
    FrameO κ σ (execHrst path port s) := by
  have m1073741786 := hk
  unfold execHrst
  try dsimp only
  repeat' first
    | with_reducible exact hF
    | with_reducible assumption
    | with_reducible refine writeBits_frame m1073741786 ?_
    | with_reducible refine FrameO.next ?_

theorem execErrec_frame {κ : Nat} {σ : State} {path : Path} {port : CanPort} {s : State} (hk : Nat.testBit 1073741786 κ = false) (hF : Frame κ σ s) :
    FrameO κ σ (execErrec path port s) := by
  have m1073741786 := hk
  unfold execErrec
  try dsimp only
  repeat' first
    | with_reducible exact hF
    | with_reducible assumption
    | with_reducible refine writeBits_frame m1073741786 ?_
    | with_reducible refine FrameO.next ?_

theorem execChannelClr_frame {κ : Nat} {σ : State} {path : Path} {ch : Channel} {s : State} (hk : Nat.testBit 1073741786 κ = false) (hF : Frame κ σ s) :
    FrameO κ σ (execChannelClr path ch s) := by
  have m1073741786 := hk
  unfold execChannelClr
  try dsimp only
  repeat' first
    | with_reducible exact hF
    | with_reducible assumption
    | with_reducible refine writeBits_frame m1073741786 ?_
    | with_reducible refine FrameO.next ?_

theorem execBudgetWrite_frame {κ : Nat} {σ : State} {path : Path} {v : Word} {s : State} (hk : Nat.testBit 1073741786 κ = false) (hF : Frame κ σ s) :
    FrameO κ σ (execBudgetWrite path v s) := by
  have m1073741786 := hk
  unfold execBudgetWrite
  try dsimp only
  repeat' first
    | with_reducible exact hF
    | with_reducible assumption
    | with_reducible refine pathWrite_frame m1073741786 ?_
    | with_reducible refine FrameO.next ?_

theorem execLoad_frame {κ : Nat} {σ : State} {path : Path} {v : Word} {s : State} (hk : Nat.testBit 1073741786 κ = false) (hF : Frame κ σ s) :
    FrameO κ σ (execLoad path v s) := by
  have m1073741786 := hk
  unfold execLoad
  try dsimp only
  repeat' first
    | with_reducible exact hF
    | with_reducible assumption
    | with_reducible refine pathWrite_frame m1073741786 ?_
    | with_reducible refine FrameO.next ?_

theorem execKeyWrite_frame {κ : Nat} {σ : State} {path : Path} {v : Word} {s : State} (hk : Nat.testBit 1073741786 κ = false) (hF : Frame κ σ s) :
    FrameO κ σ (execKeyWrite path v s) := by
  have m1073741786 := hk
  unfold execKeyWrite
  try dsimp only
  repeat' first
    | with_reducible exact hF
    | with_reducible assumption
    | with_reducible refine pathWrite_frame m1073741786 ?_
    | with_reducible refine FrameO.next ?_

theorem execStore_frame {κ : Nat} {σ : State} {path : Path} {v : Word} {s : State} (hk : Nat.testBit 1073741786 κ = false) (hF : Frame κ σ s) :
    FrameO κ σ (execStore path v s) := by
  have m1073741786 := hk
  unfold execStore
  try dsimp only
  repeat' first
    | with_reducible exact hF
    | with_reducible assumption
    | with_reducible refine pathWrite_frame m1073741786 ?_
    | with_reducible refine FrameO.next ?_

theorem execDestroy_frame {κ : Nat} {σ : State} {path : Path} {v : Word} {s : State} (hk : Nat.testBit 1073741786 κ = false) (hF : Frame κ σ s) :
    FrameO κ σ (execDestroy path v s) := by
  have m1073741786 := hk
  unfold execDestroy
  try dsimp only
  repeat' first
    | with_reducible exact hF
    | with_reducible assumption
    | with_reducible refine pathWrite_frame m1073741786 ?_
    | with_reducible refine FrameO.next ?_

theorem execAttest_frame {κ : Nat} {σ : State} {path : Path} {v : Word} {s : State} (hk : Nat.testBit 1073741786 κ = false) (hF : Frame κ σ s) :
    FrameO κ σ (execAttest path v s) := by
  have m1073741786 := hk
  unfold execAttest
  try dsimp only
  repeat' first
    | with_reducible exact hF
    | with_reducible assumption
    | with_reducible refine pathWrite_frame m1073741786 ?_
    | with_reducible refine FrameO.next ?_

theorem execZeroise_frame {κ : Nat} {σ : State} {path : Path} {s : State} (hk : Nat.testBit 1073741786 κ = false) (hF : Frame κ σ s) :
    FrameO κ σ (execZeroise path s) := by
  have m1073741786 := hk
  unfold execZeroise
  try dsimp only
  repeat' first
    | with_reducible exact hF
    | with_reducible assumption
    | with_reducible refine pathWrite_frame m1073741786 ?_
    | with_reducible refine FrameO.next ?_

end Sys2Proof.Laws
end

