-- ==== Sys2Proof/Laws/FrameAgent.lean ====
section
/-! SUPPORT. What each operation of Machine/Agent.lean leaves alone. -/

namespace Sys2Proof.Laws

open Sys2Proof Sys2Proof.Machine

set_option linter.unusedTactic false
set_option linter.unreachableTactic false
set_option linter.unusedVariables false

theorem agentTake_frame {κ : Nat} {σ : State} {m : Nat × Bytes} {s : State} (hk : Nat.testBit 1073741786 κ = false) (hF : Frame κ σ s) :
    Frame κ σ (agentTake m s) := by
  have m1073741786 := hk
  have m135270034 : Nat.testBit 135270034 κ = false := testBit_sub rfl hk
  unfold agentTake
  try dsimp only
  repeat' first
    | with_reducible exact hF
    | with_reducible assumption
    | with_reducible refine arrive_frame m1073741786 ?_
    | with_reducible refine childAnswer_frame m135270034 ?_
    | with_reducible refine Frame.ite ?_ ?_
    | split

theorem agentWork_frame {κ : Nat} {σ : State} {s : State} (hk : Nat.testBit 1073741786 κ = false) (hF : Frame κ σ s) :
    Frame κ σ (agentWork s) := by
  have m1073741786 := hk
  have m128 : Nat.testBit 128 κ = false := testBit_sub rfl hk
  unfold agentWork
  try dsimp only
  repeat' first
    | with_reducible exact hF
    | with_reducible assumption
    | with_reducible refine agentTake_frame m1073741786 ?_
    | with_reducible refine forAll_frame (fun _ _ _ => ?_) ?_
    | (apply Frame.lit m128 rfl; case e => constructor <;> (try dsimp only) <;> first | exact .inl rfl | exact .inr rfl)

theorem execSegmentIngress_frame {κ : Nat} {σ : State} {port : Port} {hdr : BitVec 64} {payload : Bytes} {s : State} (hk : Nat.testBit 1073741786 κ = false) (hF : Frame κ σ s) :
    FrameO κ σ (execSegmentIngress port hdr payload s) := by
  have m1073741786 := hk
  have m29842 : Nat.testBit 29842 κ = false := testBit_sub rfl hk
  unfold execSegmentIngress
  try dsimp only
  repeat' first
    | with_reducible exact hF
    | with_reducible assumption
    | with_reducible refine agentWork_frame m1073741786 ?_
    | with_reducible refine segmentArrives_frame m29842 ?_
    | with_reducible refine FrameO.next ?_

theorem execFabricSlot_frame {κ : Nat} {σ : State} {accBad : BitVec 20} {retBad : BitVec 20} {outBad : BitVec 20} {s : State} (hk : Nat.testBit 1073741786 κ = false) (hF : Frame κ σ s) :
    FrameO κ σ (execFabricSlot accBad retBad outBad s) := by
  have m1073741786 := hk
  have m283858 : Nat.testBit 283858 κ = false := testBit_sub rfl hk
  have m324826 : Nat.testBit 324826 κ = false := testBit_sub rfl hk
  unfold execFabricSlot
  try dsimp only
  repeat' first
    | with_reducible exact hF
    | with_reducible assumption
    | with_reducible refine agentWork_frame m1073741786 ?_
    | with_reducible refine slotStep_frame m283858 ?_
    | with_reducible refine remapDue_frame m324826 ?_
    | with_reducible refine FrameO.next ?_
    | with_reducible refine FrameO.ite ?_ ?_
    | with_reducible refine Frame.ite ?_ ?_
    | split

end Sys2Proof.Laws
end

