-- ==== Sys2Proof/Tests/Slice0.lean ====
section
/-! SUPPORT. The model's own tests: ill-formed terms, single steps, and for every statement with hypotheses, states and operands
that meet them, clause by clause (`test_<statement>_hyps`; where a clause asks that a cryptographic check passes, the theorem assumes
an outcome of that check, since the model gives none). Hash, signature and key functions are constants without a body. -/

namespace Sys2Proof.Tests
open Sys2Proof Sys2Proof.Machine
set_option Elab.async false

/-! ### Small states -/

/-- Fields on top of reset. -/
def st (l : List (Fld × Nat)) : State := State.reset.wrs l
/-- A hub of the TL9648 that has started. -/
def up (l : List (Fld × Nat)) : State := { st ([(SYS_STAGE_FWRDY, 1), (FUSE_VAR_V, 1)] ++ l) with
  bt := { released := 18, fusing := false, refLock := true, gate := true, corePg := true, trained := true } }
/-- A one-segment unit of a tunnel. -/
def seg (n : Nat) : Seg := { tun := n, cls := 2, gen := 0, first := true, last := true, col := 0, seq := 0, line := 0, payload := [7] }
/-- An ACTIVE tunnel from port `a` to port `b`, its fabric places given, of a kind and class. -/
def tun (n a b kind cls : Nat) : List (Fld × Nat) := [(TT_STATE_STATE n, 2), (TT_STATE_KIND n, kind), (TT_STATE_CLS n, cls), (TT_ENDP_INPORT n, a),
  (TT_ENDP_OUTPORT n, b), (TT_ENDP_INFAB n, 2 * portGrove a), (TT_ENDP_OUTFAB n, 2 * portGrove b)]
def img (secs : List Sec) : Image := { header := List.replicate 256 0, svn := 1, serial := 1, enc := false, digest := [], secs := secs }
/-- An image with the port records given as port, TYPE, MODES, WIDTH. -/
def ports (l : List (Nat × Nat × Nat × Nat)) : Image := img [⟨1, 0, l.flatMap fun e => [BitVec.ofNat 8 e.1, BitVec.ofNat 8 e.2.1, BitVec.ofNat 8 e.2.2.1, BitVec.ofNat 8 e.2.2.2, 0, 0, 0, 0]⟩]
def withImg (im : Image) (s : State) : State := { s with ld := { s.ld with image := some im } }
/-- A template record of a kind and port. -/
def tmpl (kind port : Nat) : Bytes := [BitVec.ofNat 8 kind, 255, BitVec.ofNat 8 port, 0] ++ List.replicate 28 0
/-- Floor 16, ceiling 1024, burst 4096, CIR 256, PIR 512, CBS 1280, PBS 1536. -/
def tmplParams : Bytes := leBytes 2 16 ++ leBytes 2 1024 ++ leBytes 4 4096 ++ leBytes 2 256 ++ leBytes 2 512 ++ leBytes 4 1280 ++ leBytes 4 1536 ++
  List.replicate 8 0
/-- A PCIe template of P12. -/
def tmplX : Bytes := [1, 1, 12, 0] ++ tmplParams
/-- An Ethernet template of P16, index 0. -/
def tmplE : Bytes := [3, 1, 16, 0] ++ tmplParams
/-- A tombstone record of a KEYID and GEN in the USB path's KEY_DATA. -/
def tomb (k g : Nat) : List (Fld × Nat) := [(KEY_DATA_DATA 1 0, 0x424C424B), (KEY_DATA_DATA 1 1, k), (KEY_DATA_DATA 1 2, g)]
/-- A Canopy port with its link active. -/
def can (p : Nat) (c : Can) (s : State) : State := { s with cn := mins s.cn p c, regs := (s.wr (CAN_STAT_STATE p) 4).regs }
def ad (f : Fld) : Word := BitVec.ofNat 32 (f.key / 32 * 4)
def cc : CcInfo := { rp := 2, cable5A := false, cableEpr := false, vconnNeeded := false, pd := false }
def dirty : State := { State.reset.wrs [(TT_STATE_STATE 5, 2), (LC_STAT_STATE 3, 9), (PD_GLOB_FWPOL, 1), (MEM_SPSIZE_SIZE, 3), (KEY_VAULT_FROZEN, 1)] with
  bt := { released := 18, fusing := false, refLock := true, gate := true, corePg := true, trained := true }, flash := [(3, 5)] }
def pins : Sec := ⟨0x12, 0xFFFF, List.replicate 30 0 ++ [0x30, 0, 0x31, 0] ++ List.replicate 40 0⟩
/-- An image whose POWER section says BASE 0x0BB8 and little else. -/
def pwr : Sec := ⟨0x11, 0xFFFF, [0x98, 0x3A, 0xB8, 0x0B, 0xDC, 0x05] ++ List.replicate 400 0⟩
/-- Stream attributes of a 64 by 16 raster at 60 Hz, 8 bits. -/
def attr : Bytes := [0, 8, 0, 64, 0, 160, 0, 16, 0, 40, 0, 0, 0, 0, 0, 0, 0, 0, 0, 0, 1, 128, 0, 0, 0]
def attr2 : Bytes := [0, 10, 0, 64, 0, 160, 0, 16, 0, 40, 0, 0, 0, 0, 0, 0, 0, 0, 0, 0, 1, 128, 0, 0, 0]
/-- A segment header with its check. -/
def hdr (g : Seg) : BitVec 64 :=
  let x := g.tun * 2 ^ 40 + g.cls * 2 ^ 37 + g.gen * 2 ^ 35 + b2n g.first * 2 ^ 34 + b2n g.last * 2 ^ 33 + g.col * 2 ^ 31 + g.seq * 2 ^ 20 + g.line * 2 ^ 7 + g.payload.length
  BitVec.ofNat 64 (x * 65536 + crc16 (beBytes 6 x))
def pad (b : Bytes) : Bytes := b ++ List.replicate (120 - b.length) 0
/-- Reserved ingress places. -/
def places (n k : Nat) (s : State) : State := { s with fb := { s.fb with flow := mins s.fb.flow n { (mget {} s.fb.flow n) with places := k } } }
/-- A pipe whose stream tunnel 5 (from P0, peer 4) to P`8+d` is ACTIVE. -/
def pipe (d : Nat) (x : PipeSt) (l : List (Fld × Nat)) : State :=
  { up (tun 5 0 (8 + d) 0 1 ++ [(TT_ENDP_PIPEV 5, 1), (TT_ENDP_PIPE 5, d), (PIPE_ROUTE_PORT d, 8 + d), (TT_STATE_PEER 5, 4)] ++ tun 4 (8 + d) 0 0 1 ++ [(TT_STATE_DIR 4, 1)] ++ l) with pp := [(d, x)] }
def pt : Partner := { supports := 1, pers := 0, rate := 0, width := 0, speed := 0, txMbps := 100, rxMbps := 100 }
/-- A hub with the port records given and fields on top. -/
def cfgd (l : List (Nat × Nat × Nat × Nat)) (f : List (Fld × Nat)) : State := withImg (ports l) (up f)
/-- An image whose PINS section gives EVT pin 0 an eject function of P12. -/
def pinsE : Sec := ⟨0x12, 0xFFFF, List.replicate 30 0 ++ [0x10, 0, 0x31, 0] ++ List.replicate 40 0⟩
/-- The template that `tmplX` reads as, and a hub with a tunnel of it. -/
def tmplX1 : Tmpl := ((homes (withImg (img [⟨3, 0, tmplX⟩]) (up []))).map (·.1)).headD
  { kind := 0, cls := 0, port := 0, index := 0, floor := 0, ceil := 0, burst := 0, cir := 0, pir := 0, cbs := 0, pbs := 0, caware := 0 }
def hubX : State := withImg (img [⟨3, 0, tmplX⟩]) (up (tun 2 12 0 1 1 ++ [(TT_REQ_PORT 2, 12), (TT_REQ_KIND 2, 1), (CFG_STATUS_LOADED, 1)]))

/-! ### CRC-32, evaluated byte by byte -/

/-- The fold of `crc32`, which looks at the sum so far at every byte. -/
def crcGo : Bytes → Nat → Nat
  | [], c => c
  | b :: r, 0 => crcGo r (crc32Bits 8 (0 ^^^ b.toNat))
  | b :: r, c + 1 => crcGo r (crc32Bits 8 ((c + 1) ^^^ b.toNat))
def crcStrict (b : Bytes) : Nat := crcGo b 0xFFFFFFFF ^^^ 0xFFFFFFFF
theorem crcGo_eq (b : Bytes) (c : Nat) : b.foldl (fun c b => crc32Bits 8 (c ^^^ b.toNat)) c = crcGo b c := by
  induction b generalizing c with
  | nil => rfl
  | cons x r ih => cases c <;> exact ih _
theorem crc32_eq : crc32 = crcStrict := by
  funext b
  simp only [crc32, crcStrict, crcGo_eq]
theorem beNat_lt (b : Bytes) : beNat b < 256 ^ b.length := by
  suffices h : ∀ (b : Bytes) (a : Nat), b.foldl (fun a b => 256 * a + b.toNat) a < (a + 1) * 256 ^ b.length by simpa [beNat] using h b 0
  intro b
  induction b with
  | nil => intro a; simp
  | cons x r ih =>
    intro a
    refine Nat.lt_of_lt_of_le (ih _) ?_
    have hx := x.isLt
    rw [List.length_cons, pow_succ, Nat.mul_comm (256 ^ _) 256, ← Nat.mul_assoc]
    exact Nat.mul_le_mul_right _ (show 256 * a + x.toNat + 1 ≤ (a + 1) * 256 by omega)
theorem beNat_slice_lt (b : Bytes) (o n : Nat) : beNat (slice b o n) < 256 ^ n :=
  Nat.lt_of_lt_of_le (beNat_lt _) (Nat.pow_le_pow_right (by omega) (by simp [slice]))
theorem tag_toNat (k r : Bytes) (n : Nat) : (BitVec.ofNat 128 (recordTag k r n)).toNat = recordTag k r n :=
  (BitVec.toNat_ofNat ..).trans (Nat.mod_eq_of_lt (beNat_slice_lt _ _ 16))
theorem tag_other (k r : Bytes) (n : Nat) : (BitVec.ofNat 128 (recordTag k r n + 1)).toNat ≠ recordTag k r n := by
  have h : recordTag k r n < 2 ^ 128 := beNat_slice_lt _ _ 16
  simp only [BitVec.toNat_ofNat]
  omega
theorem verify_toNat (k h : Bytes) (r : Nat) : (BitVec.ofNat 32 (verifyOf k h r)).toNat = verifyOf k h r :=
  (BitVec.toNat_ofNat ..).trans (Nat.mod_eq_of_lt (beNat_slice_lt _ _ 4))
theorem verify_other (k h : Bytes) (r : Nat) : (BitVec.ofNat 32 (verifyOf k h r + 1)).toNat ≠ verifyOf k h r := by
  have h : verifyOf k h r < 2 ^ 32 := beNat_slice_lt _ _ 4
  simp only [BitVec.toNat_ofNat]
  omega

/-! ### WellFormed refuses each kind of term that is no event of the block -/

theorem test_wf_addresses : Instr.wellFormed (.registerWrite .usb 0x40001 0) = false ∧ Instr.wellFormed (.unmappedAccess .p43 0x40002 0) = false ∧
    Instr.wellFormed (.registerWrite .usb 0x40004 0) = true := by decide
theorem test_wf_segment : Instr.wellFormed (.segmentIngress 0 0 (List.replicate 119 0)) = false ∧
    Instr.wellFormed (.segmentIngress 0 0 (List.replicate 120 0)) = true := by decide
theorem test_wf_counts : Instr.wellFormed (.read 0 0 29 0) = false ∧ Instr.wellFormed (.write 0 0 2 0 [1]) = false ∧
    Instr.wellFormed (.mgmtFlashErase 0 0 1 0) = false ∧ Instr.wellFormed (.mgmtFlashProg 0 0 0 0 []) = false ∧
    Instr.wellFormed (.mgmtFlashRead 0 0 0 0) = false ∧ Instr.wellFormed (.read 0 0 28 0) = true := by decide
theorem test_wf_ops : Instr.wellFormed (.mgmtReservedOp 0 0x10 0 ⟨0, 0⟩) = false ∧ Instr.wellFormed (.mgmtReservedOp 0 0x10 0 ⟨1, 0⟩) = true ∧
    Instr.wellFormed (.read32 0x02 ⟨0, 0⟩) = false ∧ Instr.wellFormed (.read32 0x01 ⟨0, 0⟩) = true ∧
    Instr.wellFormed (.i2cInvalidCommand ⟨0x3A, 1⟩) = false ∧ Instr.wellFormed (.spiInvalidCommand 0x0B 0) = false := by decide
theorem test_wf_lines : Instr.wellFormed (.pixelUnit 0 8192 []) = false ∧ Instr.wellFormed (.secondaryDataPacket 0 8192 []) = false := by decide
theorem test_wf_rest : Instr.wellFormed (.portReset 0 3) = false ∧ Instr.wellFormed (.participantAnswer 0 (.refuse 16)) = false ∧
    Instr.wellFormed (.participantAnswer 0 (.defer 0)) = false ∧ Instr.wellFormed (.converterStep 0 4096) = false := by decide

/-! ### Single steps and formulas -/

/-- R31's own examples: 128 bytes at 10.3125 Gb/s take about 99 ns, and 1,522 at 25.78125 Gb/s about 472 ns. -/
theorem test_txTime : txTime 128 0 (byteTime 10312) = 100 ∧ txTime 1522 0 (byteTime 25781) = 473 := by decide
/-- The check values of the two CRCs over the digits 1 to 9. -/
theorem test_crcs : crc32 [49, 50, 51, 52, 53, 54, 55, 56, 57] = 0xCBF43926 ∧ crc16 [49, 50, 51, 52, 53, 54, 55, 56, 57] = 0x29B1 := by decide +kernel
/-- The state that a command leaves. -/
def after (c : Instr) (s : State) : State := match exec c s with | .next t => t | _ => s
/-- R425: a COLD without KEY 0xA5 resets nothing and is recorded; with it the causes show SWCOLD. -/
theorem test_cold_key : (after (.cold .usb 0x00000004) (up [])).rd SYS_STAGE_FWRDY = 1 ∧
    bit ((after (.cold .usb 0x00000004) (up [])).rd (EVSTAT 24)) 1 = true ∧
    (after (.cold .usb 0xA5000004) (up [])).rd RST_CAUSE_SWCOLD = 1 ∧ (after (.cold .usb 0xA5000004) (up [])).rd SYS_STAGE_FWRDY = 0 := by
  decide +kernel
/-- R7, R8: a write of ones to a read-only register changes nothing. -/
theorem test_write_ro : (after (.registerWrite .usb 0 0xFFFFFFFF) (up [])).rd SYS_ID_VENDOR = SYS_ID_VENDOR.reset := by decide +kernel
/-- R106: an entry's quarantine ends FREE. -/
theorem test_quarantine : (after (.quarantineEnd 5) (up [(TT_STATE_STATE 5, 4)])).rd (TT_STATE_STATE 5) = 0 := by decide +kernel
/-- R128: the slot counter wraps. -/
theorem test_slot_wraps : (fabricSlot 0 0 0 (st [(FAB_SLOT_COUNT, 2 ^ FAB_SLOT_COUNT.w - 1)])).rd FAB_SLOT_COUNT = 0 := by decide +kernel
/-- R80: an erase leaves its sector reading 0xFF and the byte before it as it was. -/
theorem test_erase :
    (after (.flashOpComplete true) { up [] with
      flash := [(0xFFF, 1), (0x1000, 2)], mg := { ({} : Mgmt) with flashOp := some { erase := true, off := 0x1000, data := [] } } }).flash = [(0xFFF, 1)] := by
  decide +kernel
/-- A step takes the front command and leaves the rest; on an empty queue the clock goes on. -/
theorem test_step : (match step { st [] with pending := [.zeroise .usb, .load .usb 0] } with | .next t => t.pending | _ => []) = [.load .usb 0] ∧
    (match step (st []) with | .next t => t.clock | _ => 0) = 1 := by decide +kernel
/-- The table gives its rows no bits. -/
theorem test_no_bits : decodeTableWord 32 0 = none ∧ State.reset.withFetchWord 32 5 = State.reset := ⟨rfl, rfl⟩

/-! ### States that meet the hypotheses of the statements -/

theorem test_TeardownEndsInQuarantineThenFree_hyps :
    (∃ (n : Tun) (s : State), s.rd (TT_STATE_STATE n.val) = stTEARING) ∧
    (∃ (n : Tun) (s : State), s.rd (TT_STATE_STATE n.val) = stQUAR ∧ 2 ≤ n.val) ∧
    (∃ (n : Tun) (s : State), s.rd (TT_STATE_STATE n.val) = stQUAR ∧ n.val < 2) ∧
    (∃ (n : Tun) (s : State), s.rd (TT_STATE_STATE n.val) ≠ stTEARING) ∧
    (∃ (n : Tun) (s : State), s.rd (TT_STATE_STATE n.val) ≠ stQUAR) :=
  ⟨⟨5, up [(TT_STATE_STATE 5, 3)], by decide +kernel⟩,
   ⟨255, up [(TT_STATE_STATE 255, 4)], by decide +kernel⟩,
   ⟨1, up [(TT_STATE_STATE 1, 4), (CAN_STAT_STATE 1, 4)], by decide +kernel⟩,
   ⟨5, up [], by decide +kernel⟩,
   ⟨5, up [], by decide +kernel⟩⟩

theorem test_FabricSlotAdvances_hyps :
    (∃ s : State, s.rd FAB_SLOT_COUNT % 20 = 0 → awaitsRemap s = none) ∧
    (∃ s : State, s.mg.inbox = []) :=
  ⟨⟨up [], by decide +kernel⟩,
   ⟨up [], by decide +kernel⟩⟩

theorem test_FabricEventsTakeEffect_hyps :
    (∃ s : State, s.on FAB_STATUS_MAPPEND = true ∧ s.sv.commit = none ∧ s.rd FAB_SLOT_COUNT % 20 = 0) ∧
    (∃ s : State, s.on FAB_STATUS_MAPPEND = false ∨ s.sv.commit ≠ none ∨ s.rd FAB_SLOT_COUNT % 20 ≠ 0) ∧
    (∃ (n : Tun) (s : State), isBulk s n.val = true ∧ s.rd (TT_SEQ_OUTSEQ n.val) ≠ (s.flow n.val).lastRet) ∧
    (∃ (n : Tun) (g : Fin 4) (s : State), mget 0 s.fb.voids (4 * n.val + g.val) ≠ 0) ∧
    (∃ (c : BufCell) (s : State), bit (s.rd (FAB_PART_EVAC (c.val / 4))) (c.val % 4) = true) ∧
    (∃ (c : BufCell) (s : State), reportable 2 c.val s = true) ∧
    (∃ (n : Tun) (s : State), isBulk s n.val = false ∧ twoPass s n.val = false ∧ fenced s (outPosOf s n.val) = false ∧ s.rd RST_FLTSTAT_SEQ ≠ 6 ∧ ((s.outPos (outPosOf s n.val)).parked.any fun q => q.seg.tun = n.val) = true) :=
  ⟨⟨up [(FAB_STATUS_MAPPEND, 1)], by decide +kernel⟩,
   ⟨up [], by decide +kernel⟩,
   ⟨5, up [(TT_STATE_CLS 5, 2), (TT_SEQ_OUTSEQ 5, 7)], by decide +kernel⟩,
   ⟨5, 1, { up [] with fb := { ({} : Fab) with voids := [(21, 1)], spill := [(3, [{ page := 0, wrote := 0, segs := [{ seg 5 with gen := 1 }, { seg 5 with gen := 2 }, seg 6] }])] } }, by decide +kernel⟩,
   ⟨5, up [(FAB_PART_EVAC 1, 2)], by decide +kernel⟩,
   ⟨79, up [], by decide +kernel⟩,
   ⟨5, { up (tun 5 8 10 1 0) with fb := { ({} : Fab) with pos := [(10, { parked := [{ seg := seg 5, area := true }] })] } }, by decide +kernel⟩⟩

theorem test_EgressPortsSendAndPause_hyps :
    (∃ (p : Port) (s : State) (c n : Nat) (u rest : List Seg) (ct : Bool), fenced s (fabOf p.val) = false ∧ (s.eg p.val).ct = none ∧ (chooseUnit p.val classOrder (clearDeficits p.val s)).1 = some (c, n, u, rest, ct)) ∧
    (∃ (p : Port) (s : State) (n : Nat), fenced s (fabOf p.val) = false ∧ (s.eg p.val).ct = some n ∧ headUnit (s.tx n) = none) ∧
    (∃ (p : Port) (s : State) (n : Nat) (u rest : List Seg), fenced s (fabOf p.val) = false ∧ (s.eg p.val).ct = some n ∧ headUnit (s.tx n) = some (u, rest)) ∧
    (∃ (p : Port) (s : State) (n : Nat), (s.eg p.val).ct = some n) ∧
    (∃ (p : Port) (s : State), (s.eg p.val).ct = none) ∧
    (∃ (p : Port) (s : State), (s.eg p.val).pausing = [8]) ∧
    (∃ (p : Port) (k : Fin 8) (s : State), (s.eg p.val).pausing = [k.val]) :=
  ⟨⟨8, { up (tun 5 10 8 1 2 ++ [(GRV_CALA_ENTRY 8 0, 0xF8000000)]) with fb := { ({} : Fab) with txq := [(5, [seg 5, seg 5])], flow := [(5, { deficit := 1000 })] } }, 2, 5, [seg 5], [seg 5], false, by decide +kernel⟩,
   ⟨8, { up (tun 5 10 8 1 0) with fb := { ({} : Fab) with eg := [(8, { ct := some 5, ctSent := [seg 5] })], txq := [(5, [{ seg 5 with last := false }])] } }, 5, by decide +kernel⟩,
   ⟨8, { up (tun 5 10 8 1 0) with fb := { ({} : Fab) with eg := [(8, { ct := some 5, ctSent := [{ seg 5 with last := false }] })], txq := [(5, [{ seg 5 with first := false }])] } }, 5, [{ seg 5 with first := false }], [], by decide +kernel⟩,
   ⟨8, { up (tun 5 10 8 1 0) with fb := { ({} : Fab) with eg := [(8, { ct := some 5, ctSent := [seg 5] })], txq := [(5, [{ seg 5 with last := false }])] } }, 5, by decide +kernel⟩,
   ⟨8, up [], by decide +kernel⟩,
   ⟨8, { up [] with fb := { ({} : Fab) with eg := [(8, { pausing := [8] })] } }, by decide +kernel⟩,
   ⟨8, 3, { up [] with fb := { ({} : Fab) with eg := [(8, { pausing := [3] })] } }, by decide +kernel⟩⟩

theorem test_StalledPortsGoDownAndTrainAfresh_hyps :
    (∃ (p : Port) (s : State), s.on (GRV_FLST_EGHELD p.val) = true ∧ portStalled s p.val = true) ∧
    (∃ (p : Port) (s : State), s.on (GRV_FLST_EGHELD p.val) = true ∧ portStalled s p.val = false) ∧
    (∃ (p : Port) (s : State), s.on (GRV_FLST_EGHELD p.val) = false) ∧
    (∃ (p : Port) (s : State), (s.eg p.val).waiting = true ∧ retrainBlocked s p.val = false ∧ ((s.can p.val).entered ≠ 1 ∨ 8 ≤ p.val)) ∧
    (∃ (p : CanPort) (s : State), (s.eg p.val).waiting = true ∧ retrainBlocked s p.val = false ∧ (s.can p.val).entered = 1 ∧ (∃ c ∈ portCells p.val, (s.lane c).faulted = false)) ∧
    (∃ (p : Port) (s : State), portUp s p.val = true) :=
  ⟨⟨8, { up (tun 5 10 8 1 2 ++ [(GRV_FLST_EGHELD 8, 1)]) with fb := { ({} : Fab) with txq := [(5, [seg 5])], eg := [(8, { paused := [(8, 1000)] })] } }, by decide +kernel⟩,
   ⟨8, up [(GRV_FLST_EGHELD 8, 1)], by decide +kernel⟩,
   ⟨8, up [], by decide +kernel⟩,
   ⟨8, withImg (ports [(8, 3, 1, 0)]) { up [] with fb := { ({} : Fab) with eg := [(8, { waiting := true })] } }, by decide +kernel⟩,
   ⟨7, withImg (ports [(7, 2, 1, 0)]) { up [] with fb := { ({} : Fab) with eg := [(7, { waiting := true })] }, cn := [(7, { entered := 1 })] }, by decide +kernel⟩,
   ⟨8, { up [(ADP_STAT_STATE 8, 2)] with fb := { ({} : Fab) with eg := [(8, { wait := 40 })] } }, by decide +kernel⟩⟩

theorem test_LeadRasterEvents_hyps :
    (∃ s : State, leadEnds s = true) ∧
    (∃ (n k : Nat) (s : State), leadEnds s = false ∨ n ≠ s.rd SCHED_LTOT_TOTAL ∨ k ≠ s.rd SCHED_LINC_INC) ∧
    (∃ s : State, s.rd SCHED_LEAD_SRC ≠ 9 ∧ s.rd SCHED_LEAD_STATE ≠ 3) ∧
    (∃ s : State, s.rd SCHED_LEAD_SRC = 9 ∨ s.rd SCHED_LEAD_STATE = 3) ∧
    (∃ (p : Port) (s : State), s.on (GRV_CALCTL_MODE p.val) = true ∧ tbRunning s (mget {} s.sc.qbv p.val).tb = true ∧ (mget {} s.sc.qbv p.val).start ≤ extTime s (mget {} s.sc.qbv p.val).tb) :=
  ⟨⟨{ up [(SCHED_LTOT_TOTAL, 1125), (SCHED_LINC_INC, 1)] with sc := { ({} : Sched) with lpos := 1125 * 2 ^ 32 - 1 } }, by decide +kernel⟩,
   ⟨1125, 1, up [(SCHED_LEAD_SRC, 9)], by decide +kernel⟩,
   ⟨up [(SCHED_LEAD_SRC, 0), (SCHED_LEAD_STATE, 2)], by decide +kernel⟩,
   ⟨up [(SCHED_LEAD_SRC, 9)], by decide +kernel⟩,
   ⟨8, { up [(GRV_CALCTL_MODE 8, 1), (TIM_TBCTL_RUN 0, 1)] with sc := { ({} : Sched) with qbv := [(8, { held := 5 })] } }, by decide +kernel⟩⟩

theorem test_CreditAndGrants_hyps :
    (∃ (p : CanPort) (n : Tun) (l : BitVec 16) (s : State), canActive s p.val = true ∧ outsideHome s p.val n.val = false ∧ (l.toNat + 65536 - (s.credit (rewriteIn s p.val n.val)).limit) % 65536 ≠ 0 ∧ (l.toNat + 65536 - (s.credit (rewriteIn s p.val n.val)).limit) % 65536 ≤ 32767) ∧
    (∃ (p : CanPort) (n : Tun) (l : BitVec 16) (s : State), canActive s p.val = true ∧ 32767 < (l.toNat + 65536 - (s.credit (rewriteIn s p.val n.val)).limit) % 65536) ∧
    (∃ (n : Tun) (s : State), inPortOf s n.val < 8 ∧ canActive s (inPortOf s n.val) = true ∧ portFenced s (inPortOf s n.val) = false ∧ creditGoverned s n.val = true ∧ tunActive s n.val = true) ∧
    (∃ (p : CanPort) (n : Tun) (s : State) (b : Nat), cascadeBase s p.val = some b ∧ outsideHome s p.val n.val = false ∧ tunActive s (rewriteIn s p.val n.val) = true ∧ canActive s p.val = true ∧ s.rd (TT_ENDP_INPORT (rewriteIn s p.val n.val)) < 2 ∧ canActive s (s.rd (TT_ENDP_INPORT (rewriteIn s p.val n.val))) = true) :=
  ⟨⟨0, 5, 10, can 0 {} (up []), by decide +kernel⟩,
   ⟨0, 5, 32768, can 0 {} (up []), by decide +kernel⟩,
   ⟨5, can 0 {} (up (tun 5 0 8 1 2)), by decide +kernel⟩,
   ⟨2, 5, withImg (img [⟨3, 0, tmpl 6 2⟩]) (can 0 {} (can 2 {} (up (tun 7 0 2 0 0)))), 2, by decide +kernel⟩⟩

theorem test_RetryOfCanopyUnits_hyps :
    (∃ (p : CanPort) (l : BitVec 16) (s : State), canActive s p.val = true ∧ (l.toNat + 65536 - (s.can p.val).lunOld) % 65536 < ((s.can p.val).lunTx + 65536 - (s.can p.val).lunOld) % 65536) ∧
    (∃ (p : CanPort) (l : BitVec 16) (s : State), canActive s p.val = true ∧ ((s.can p.val).lunTx + 65536 - (s.can p.val).lunOld) % 65536 ≤ (l.toNat + 65536 - (s.can p.val).lunOld) % 65536) ∧
    (∃ (p : CanPort) (l : BitVec 16) (s : State), canActive s p.val = true ∧ (l.toNat + 65536 - (s.can p.val).lunOld) % 65536 ≤ ((s.can p.val).lunTx + 65536 - (s.can p.val).lunOld) % 65536) ∧
    (∃ (p : CanPort) (l : BitVec 16) (s : State), canActive s p.val = true ∧ ((s.can p.val).lunTx + 65536 - (s.can p.val).lunOld) % 65536 < (l.toNat + 65536 - (s.can p.val).lunOld) % 65536) ∧
    (∃ (p : CanPort) (s : State), canActive s p.val = true ∧ (s.can p.val).discarding = true) ∧
    (∃ (p : CanPort) (w : Option Word) (s : State), canActive s p.val = true ∧ (s.can p.val).discarding = false ∧ (∀ x, w = some x → readWord x = .reserved)) ∧
    (∃ (p : CanPort) (l : BitVec 16) (s : State), canActive s p.val = true ∧ l.toNat = (s.can p.val).lunRx) ∧
    (∃ (p : CanPort) (l : BitVec 16) (s : State), canActive s p.val = true ∧ l.toNat ≠ (s.can p.val).lunRx) ∧
    (∃ (c : LaneCell) (s : State), canRunning s (cellPort c.val) = true) ∧
    (∃ (c : LaneCell) (s : State), canRunning s (cellPort c.val) = true) :=
  ⟨⟨0, 2, can 0 { lunTx := 5, lunOld := 1 } (up []), by decide +kernel⟩,
   ⟨0, 6, can 0 { lunTx := 5, lunOld := 1 } (up []), by decide +kernel⟩,
   ⟨0, 2, can 0 { lunTx := 5, lunOld := 1, retry := [⟨1, some (seg 5), 0, 0, 0, 0⟩, ⟨2, some (seg 5), 0, 0, 0, 0⟩] } (up []), by decide +kernel⟩,
   ⟨0, 6, can 0 { lunTx := 5, lunOld := 1 } (up []), by decide +kernel⟩,
   ⟨3, can 3 { discarding := true, lunRx := 9 } (up []), by decide +kernel⟩,
   ⟨3, some 0xFFE30000, can 3 { lunRx := 9 } (up []), by decide +kernel, by decide +kernel, by intro x h; cases h; decide +kernel⟩,
   ⟨3, 9, can 3 { lunRx := 9, discarding := true } (up []), by decide +kernel⟩,
   ⟨3, 8, can 3 { lunRx := 9, discarding := true } (up []), by decide +kernel⟩,
   ⟨0, { can 0 {} (up [(LC_STAT_LOCKB 0, 1)]) with lc := [(0, { runB := 2 })] }, by decide +kernel⟩,
   ⟨0, can 0 {} (up []), by decide +kernel⟩⟩

theorem test_RecordsTagsAndKeyUpdates_hyps :
    (∃ (p : CanPort) (s : State), canActive s p.val = true ∧ (s.can p.val).txSegs ≠ 0 ∧ (s.can p.val).upd = none) ∧
    (∃ (p : CanPort) (e : Bool) (r : BitVec 15) (g : BitVec 128) (s : State), canActive s p.val = true ∧ (s.can p.val).discarding = false ∧ (s.can p.val).updRx = none ∧ e = bit (s.rd (CAN_STAT_RXEP p.val)) 0 ∧ r.toNat = (s.can p.val).rxRecno % 32768 ∧ g.toNat = recordTag (s.can p.val).secRx (s.can p.val).rxRec (s.can p.val).rxRecno) ∧
    (∃ (p : CanPort) (g : BitVec 128) (s : State), canActive s p.val = true ∧ (s.can p.val).discarding = false ∧ (s.can p.val).updRx = none ∧ g.toNat ≠ recordTag (s.can p.val).secRx (s.can p.val).rxRec (s.can p.val).rxRecno) ∧
    (∃ (p : CanPort) (s : State), canActive s p.val = true ∧ (s.can p.val).upd = none ∧ epochWorn s p.val = true) ∧
    (∃ (p : CanPort) (s : State), epochWorn s p.val = false) ∧
    (∃ (p : CanPort) (e : Byte) (s : State), canActive s p.val = true ∧ e.toNat = (s.rd (CAN_STAT_RXEP p.val) + 1) % 256) ∧
    (∃ (p : CanPort) (l : Nat) (s : State), canActive s p.val = true ∧ (s.can p.val).upd = some l ∧ (s.can p.val).updAck = false) ∧
    (∃ (p : CanPort) (e : Byte) (l : Nat) (s : State), canActive s p.val = true ∧ (s.can p.val).upd = some l ∧ e.toNat = (s.rd (CAN_STAT_TXEP p.val) + 1) % 256) ∧
    (∃ (p : CanPort) (l : Nat) (s : State), canActive s p.val = true ∧ (s.can p.val).upd = some l ∧ (s.can p.val).updAck = false) :=
  ⟨⟨0, can 0 { txSegs := 3, txRec := [1, 2], secTx := [1], txRecno := 40000 } (up [(CAN_STAT_TXEP 0, 3)]), by decide +kernel⟩,
   ⟨0, true, 3, BitVec.ofNat 128 (recordTag [1] [9] 3), can 0 { rxSegs := 3, rxRec := [9], rxRecno := 3, secRx := [1] } (up [(CAN_STAT_RXEP 0, 1)]), by decide +kernel, by decide +kernel, by decide +kernel, by decide +kernel, by decide +kernel, tag_toNat ..⟩,
   ⟨0, BitVec.ofNat 128 (recordTag [1] [9] 3 + 1), can 0 { rxSegs := 3, rxRec := [9], rxRecno := 3, secRx := [1] } (up [(CAN_STAT_RXEP 0, 1)]), by decide +kernel, by decide +kernel, by decide +kernel, tag_other _ _ _⟩,
   ⟨0, can 0 { lunTx := 65530, txRecno := 70000 } (up [(CAN_CTL_KEYIVL 0, 0)]), by decide +kernel⟩,
   ⟨0, can 0 {} (up []), by decide +kernel⟩,
   ⟨0, 1, can 0 { secRx := [1] } (up []), by decide +kernel⟩,
   ⟨0, 80, can 0 { upd := some 80 } (up []), by decide +kernel⟩,
   ⟨0, 1, 80, can 0 { upd := some 80 } (up []), by decide +kernel⟩,
   ⟨0, 80, can 0 { upd := some 80, secTx := [3] } (up []), by decide +kernel⟩⟩

theorem test_CanopyBringUp_hyps :
    (∃ (p : CanPort) (s : State), configured s p.val = true ∧ offersCanopy s p.val = true ∧ (∃ c ∈ portCells p.val, (s.lane c).faulted = false) ∧ s.on KEY_VAULT_HALT = false) ∧
    (∃ (p : CanPort) (s : State), configured s p.val = false ∨ offersCanopy s p.val = false) ∧
    (∃ (p : CanPort) (k : Fin 4) (x : BitVec 36) (s : State), s.rd (CAN_STAT_STATE p.val) = 2 ∧ k.val ≠ 0 ∧ (mins (s.can p.val).caps k.val x.toNat).length ≠ 4) ∧
    (∃ (p : CanPort) (x : BitVec 36) (s : State), s.rd (CAN_STAT_STATE p.val) = 2 ∧ bits x.toNat 35 32 = 1 ∧ bit x.toNat 31 = isUpEnd s p.val ∧ (mins (s.can p.val).caps 0 x.toNat).length ≠ 4) ∧
    (∃ (p : CanPort) (k : Fin 4) (x : BitVec 36) (s : State), s.rd (CAN_STAT_STATE p.val) = 2 ∧ vaultHeld s = false ∧ (mins (s.can p.val).caps k.val x.toNat).length = 4 ∧ bits (mget 0 (mins (s.can p.val).caps k.val x.toNat) 0) 35 32 = 1 ∧ bit (mget 0 (mins (s.can p.val).caps k.val x.toNat) 0) 31 = isUpEnd s p.val) ∧
    (∃ (p : CanPort) (k : Fin 24) (w : Word) (s : State), s.rd (CAN_STAT_STATE p.val) = 3 ∧ (s.can p.val).prk = [] ∧ vaultHeld s = false ∧ (mins (s.can p.val).share k.val w.toNat).length ≠ 24) ∧
    (∃ (p : CanPort) (v : Word) (s : State), s.rd (CAN_STAT_STATE p.val) = 3 ∧ vaultHeld s = false ∧ (s.can p.val).prk ≠ [] ∧ v.toNat = verifyOf (s.can p.val).prk (thBytes s p.val) (b2n (isUpEnd s p.val)) ∧ turning s p.val = false) ∧
    (∃ (p : CanPort) (v : Word) (s : State), s.rd (CAN_STAT_STATE p.val) = 3 ∧ vaultHeld s = false ∧ (s.can p.val).prk ≠ [] ∧ v.toNat = verifyOf (s.can p.val).prk (thBytes s p.val) (b2n (isUpEnd s p.val)) ∧ turning s p.val = true) ∧
    (∃ (p : CanPort) (v : Word) (s : State), s.rd (CAN_STAT_STATE p.val) = 3 ∧ vaultHeld s = false ∧ v.toNat ≠ verifyOf (s.can p.val).prk (thBytes s p.val) (b2n (isUpEnd s p.val))) ∧
    (∃ (p : CanPort) (s : State), bringingUp s p.val = true) ∧
    (∃ (p : CanPort) (s : State), bringingUp s p.val = false) :=
  ⟨⟨7, cfgd [(7, 2, 1, 0)] [], by decide +kernel⟩,
   ⟨0, up [], by decide +kernel⟩,
   ⟨0, 1, 5, up [(CAN_STAT_STATE 0, 2)], by decide +kernel⟩,
   ⟨0, 0x100000000, up [(CAN_STAT_STATE 0, 2)], by decide +kernel⟩,
   ⟨0, 3, 7, { up [(CAN_STAT_STATE 0, 2)] with cn := [(0, { caps := [(0, 0x100000000), (1, 2), (2, 3)] })] }, by decide +kernel⟩,
   ⟨0, 23, 7, up [(CAN_STAT_STATE 0, 3)], by decide +kernel⟩,
   ⟨0, BitVec.ofNat 32 (verifyOf [1] (thBytes (up []) 0) 0), { up [(CAN_STAT_STATE 0, 3)] with cn := [(0, { prk := [1] })] }, by decide +kernel, by decide +kernel, by decide +kernel, verify_toNat .., by decide +kernel⟩,
   ⟨0, BitVec.ofNat 32 (verifyOf [1] (thBytes (up []) 0) 0), { up [(CAN_STAT_STATE 0, 3)] with cn := [(0, { prk := [1] })], lc := [(0, { turnA := true })] }, by decide +kernel, by decide +kernel, by decide +kernel, verify_toNat .., by decide +kernel⟩,
   ⟨0, BitVec.ofNat 32 (verifyOf [1] (thBytes (up []) 0) 0 + 1), { up [(CAN_STAT_STATE 0, 3)] with cn := [(0, { prk := [1] })] }, by decide +kernel, by decide +kernel, verify_other _ _ _⟩,
   ⟨0, { up [(CAN_STAT_STATE 0, 1)] with cn := [(0, { entered := 1 })] }, by decide +kernel⟩,
   ⟨0, up [], by decide +kernel⟩⟩

theorem test_LaneCellTraining_hyps :
    (∃ (c : LaneCell) (s : State), s.rd (LC_STAT_STATE c.val) = 1 ∧ cellPort c.val < 8 ∧ (s.can (cellPort c.val)).entered = 1) ∧
    (∃ (c : LaneCell) (b : Bool) (i : BitVec 11) (s : State), cellPort c.val < 8 ∧ pairTx s c.val b = false ∧ (s.lane c.val).faulted = false ∧ bit i.toNat 6 = false ∧ trainState (s.rd (LC_STAT_STATE c.val)) = true) ∧
    (∃ (c : LaneCell) (b : Bool) (k : Fin 16) (s : State), cellPort c.val < 8 ∧ pairTx s c.val b = false ∧ s.rd (LC_STAT_STATE c.val) = lcTS2 ∧ k.val ≠ 0) ∧
    (∃ (c : LaneCell) (b : Bool) (s : State), cellPort c.val < 8 ∧ pairTx s c.val b = false ∧ (s.rd (LC_STAT_STATE c.val) = lcTS2 ∨ s.rd (LC_STAT_STATE c.val) = lcRETRAIN ∧ (s.lane c.val).ts2 = true) ∧ s.rd (CAN_STAT_STATE (cellPort c.val)) ≠ 3) ∧
    (∃ (c : LaneCell) (b : Bool) (s : State), cellPort c.val < 8 ∧ pairTx s c.val b = false ∧ s.rd (LC_STAT_STATE c.val) = lcUP ∧ (if b then (s.lane c.val).turnB else (s.lane c.val).turnA) = true ∧ s.on (lockF c.val b) = true ∧ (s.can (cellPort c.val)).checked = false) :=
  ⟨⟨0, { up [(LC_STAT_STATE 0, 1)] with cn := [(0, { entered := 1 })] }, by decide +kernel⟩,
   ⟨0, false, 0x7BF, { up [(LC_STAT_STATE 0, 2)] with cn := [(0, { entered := 1 })] }, by decide +kernel⟩,
   ⟨0, true, 1, up [(LC_STAT_STATE 0, 3)], by decide +kernel⟩,
   ⟨0, true, up [(LC_STAT_STATE 0, 3)], by decide +kernel⟩,
   ⟨0, true, { can 0 {} (up [(LC_STAT_STATE 0, 4), (LC_STAT_LOCKB 0, 1)]) with lc := [(0, { turnB := true })] }, by decide +kernel⟩⟩

theorem test_DetectorsAndTestLogic_hyps :
    (∃ (p : CanPort) (s : State), canRetrain s p.val = true) ∧
    (∃ (p : CanPort) (s : State), canRunning s p.val = true ∧ allLos s (liveCells s p.val) = true) ∧
    (∃ (c : LaneCell) (s : State), cellPort c.val < 8 ∧ cellDark s c.val = true ∧ canActive s (cellPort c.val) = true ∧ (s.can (cellPort c.val)).single = 0) ∧
    (∃ (p : Port) (s : State) (c : Nat), c ∈ liveCells s p.val ∧ s.rd (LC_STAT_STATE c) = lcRETRAIN) ∧
    (∃ (c : LaneCell) (b : Bool) (s : State), checks s c.val b = true) ∧
    (∃ (c : LaneCell) (b : Bool) (s : State), s.on (if b then LC_CHKB_SYNC c.val else LC_CHKA_SYNC c.val) = true) :=
  ⟨⟨0, up [(CAN_STAT_STATE 0, 4), (LC_STAT_STATE 0, 4)], by decide +kernel⟩,
   ⟨0, up [(CAN_STAT_STATE 0, 4), (LC_STAT_LOSA 0, 1), (LC_STAT_LOSB 0, 1), (LC_STAT_LOSA 1, 1), (LC_STAT_LOSB 1, 1)], by decide +kernel⟩,
   ⟨0, up [(CAN_STAT_STATE 0, 4), (LC_STAT_LOSA 0, 1), (LC_STAT_LOSB 0, 1)], by decide +kernel⟩,
   ⟨0, up [(LC_STAT_STATE 1, 5)], 1, by decide +kernel⟩,
   ⟨0, true, up [(LC_STAT_STATE 0, 6), (LC_TEST_PATB 0, 1)], by decide +kernel⟩,
   ⟨0, true, up [(LC_CHKB_SYNC 0, 1)], by decide +kernel⟩⟩

theorem test_SegmentsAreAdmittedOrDiscarded_hyps :
    (∃ (p : Port) (h : BitVec 64) (b : Bytes) (g : Seg) (s : State), fencedPort s p.val = false ∧ (8 ≤ p.val ∨ canActive s p.val = false) ∧ parseSeg h b = some g ∧ admits s p.val g.tun ∧ g.gen = s.rd (TT_STATE_GEN g.tun)) ∧
    (∃ (p : CanPort) (h : BitVec 64) (b : Bytes) (g : Seg) (n : Nat) (s : State), fencedPort s p.val = false ∧ canActive s p.val = true ∧ (s.can p.val).discarding = false ∧ parseSeg h b = some g ∧ n = rewriteIn s p.val g.tun ∧ outsideHome s p.val g.tun = false ∧ beyondGrant s n g.line = false ∧ beyondCredit s n = false ∧ cascadeBase s p.val ≠ some (n - 1) ∧ admits s p.val n ∧ g.gen = s.rd (TT_STATE_GEN n)) ∧
    (∃ (p : Port) (h : BitVec 64) (b : Bytes) (s : State), fencedPort s p.val = false ∧ parseSeg h b = none ∧ (8 ≤ p.val ∨ canActive s p.val = false)) ∧
    (∃ (p : CanPort) (h : BitVec 64) (b : Bytes) (s : State), fencedPort s p.val = false ∧ parseSeg h b = none ∧ canActive s p.val = true ∧ (s.can p.val).discarding = false) ∧
    (∃ (p : Port) (h : BitVec 64) (b : Bytes) (g : Seg) (s : State), fencedPort s p.val = false ∧ parseSeg h b = some g ∧ (8 ≤ p.val ∨ canActive s p.val = false) ∧ s.pw.stopped = false ∧ g.tun < 256 ∧ (tunActive s g.tun = false ∨ g.gen ≠ s.rd (TT_STATE_GEN g.tun) ∨ inPortOf s g.tun ≠ p.val)) :=
  ⟨⟨8, hdr (seg 5), pad [7], seg 5, places 5 1 (up (tun 5 8 0 1 2)), by decide +kernel, by decide +kernel, by decide +kernel, by unfold admits; decide +kernel, by decide +kernel⟩,
   ⟨0, hdr (seg 5), pad [7], seg 5, 5, places 5 1 { can 0 {} (up (tun 5 0 8 1 2)) with cr := [(5, { told := 1 })] }, by decide +kernel, by decide +kernel, by decide +kernel, by decide +kernel, by decide +kernel, by decide +kernel, by decide +kernel, by decide +kernel, by decide +kernel, by unfold admits; decide +kernel, by decide +kernel⟩,
   ⟨8, 0, pad [7], up [], by decide +kernel⟩,
   ⟨0, hdr (seg 5) + 1, pad [7], can 0 { lunRx := 4 } (up []), by decide +kernel⟩,
   ⟨8, hdr (seg 5), pad [7], seg 5, up [], by decide +kernel⟩⟩

theorem test_AttributesAndAuxTravelByThePipe_hyps :
    (∃ (d : Pipe) (b : Bytes) (s : State), pipeActive s d.val = true ∧ attrsOk (b.take 25) = true ∧ (s.pipe d.val).fresh = true) ∧
    (∃ (d : Pipe) (b : Bytes) (s : State), pipeActive s d.val = true ∧ attrsOk (b.take 25) = true ∧ (s.pipe d.val).fresh = false ∧ (s.pipe d.val).seen ≠ some (b.take 25) ∧ (s.pipe d.val).attrs ≠ some (b.take 25)) ∧
    (∃ (d : Pipe) (b : Bytes) (s : State), pipeActive s d.val = true ∧ attrsOk (b.take 25) = false ∧ ((s.pipe d.val).fresh = true ∨ (s.pipe d.val).seen ≠ some (b.take 25))) ∧
    (∃ (d : Pipe) (b : Bytes) (n : Nat) (s : State), pipeTunnel s d.val = some n ∧ tunActive s n = true ∧ groveDark s (portGrove (s.rd (PIPE_ROUTE_PORT d.val))) = false ∧ admits s (s.rd (PIPE_ROUTE_PORT d.val)) (s.rd (TT_STATE_PEER n)) ∧ (s.pipe d.val).remote = none ∧ (shownReply d.val b s).1.length < 120) ∧
    (∃ (d : Pipe) (n : Nat) (s : State), pipeTunnel s d.val = some n ∧ tunActive s n = true ∧ groveDark s (portGrove (s.rd (PIPE_ROUTE_PORT d.val))) = false ∧ admits s (s.rd (PIPE_ROUTE_PORT d.val)) (s.rd (TT_STATE_PEER n))) ∧
    (∃ (d : Pipe) (b : Bytes) (n : Nat) (s : State), pipeTunnel s d.val = some n ∧ tunActive s n = true ∧ groveDark s (portGrove (s.rd (PIPE_ROUTE_PORT d.val))) = false ∧ admits s (s.rd (PIPE_ROUTE_PORT d.val)) (s.rd (TT_STATE_PEER n)) ∧ byteAt b 0 / 16 = 8 ∧ byteAt b 0 % 16 = 0 ∧ byteAt b 1 = 1 ∧ byteAt b 2 < 0x20) ∧
    (∃ (d : Pipe) (b : Bytes) (s : State), (s.pipe d.val).aux = none ∨ byteAt b 0 ≠ 0) ∧
    (∃ (d : Pipe) (b : Bytes) (s : State), pipeActive s d.val = true ∧ groveDark s (portGrove (s.rd (PIPE_ROUTE_PORT d.val))) = false ∧ byteAt b 0 / 16 ≠ 8 ∧ byteAt b 0 / 16 ≠ 9) :=
  ⟨⟨0, attr, pipe 0 {} [], by decide +kernel⟩,
   ⟨0, attr2, pipe 0 { fresh := false, attrs := some attr, seen := some attr } [], by decide +kernel⟩,
   ⟨0, [1], pipe 0 {} [], by decide +kernel⟩,
   ⟨0, List.replicate 119 1, 5, places 4 1 (pipe 0 {} []), by decide +kernel, by decide +kernel, by decide +kernel, by unfold admits; decide +kernel, by decide +kernel⟩,
   ⟨0, 5, places 4 1 (pipe 0 {} []), by decide +kernel, by decide +kernel, by decide +kernel, by unfold admits; decide +kernel⟩,
   ⟨0, [0x80, 1, 0x1F, 0], 5, places 4 1 (pipe 0 {} []), by decide +kernel, by decide +kernel, by decide +kernel, by unfold admits; decide +kernel, by decide +kernel⟩,
   ⟨0, [1], pipe 0 {} [], by decide +kernel⟩,
   ⟨0, [0x40, 1, 0x1F, 0], pipe 0 {} [], by decide +kernel⟩⟩

theorem test_PixelUnitsReachBufferAndStore_hyps :
    (∃ (d : Pipe) (y : Nat) (b a : Bytes) (s : State), (s.pipe d.val).attrs = some a ∧ pipeActive s d.val = true ∧ y < aVActive a ∧ b.length = unitBytes a ∧ (s.pipe d.val).lines.length < 16 ∧ (∀ z l, (s.pipe d.val).decided = some (z, l) → (y + aVTotal a - z) % aVTotal a ≠ 0 ∧ (y + aVTotal a - z) % aVTotal a ≤ aVTotal a / 2)) ∧
    (∃ (d : Pipe) (y : Nat) (b a : Bytes) (s : State), (s.pipe d.val).attrs = some a ∧ pipeActive s d.val = true ∧ y < aVActive a ∧ b.length ≠ unitBytes a) ∧
    (∃ (d : Pipe) (b : Bytes) (s : State), byteAt b 0 = 1 ∧ pipeActive s d.val = true) ∧
    (∃ b : Bytes, byteAt b 0 ≠ 1) :=
  ⟨⟨0, 3, List.replicate 192 9, attr, pipe 0 { attrs := some attr, fresh := false } [], by decide +kernel, by decide +kernel, by decide +kernel, by decide +kernel, by decide +kernel, fun _ _ h => nomatch h⟩,
   ⟨0, 3, List.replicate 191 9, attr, pipe 0 { attrs := some attr, fresh := false } [], by decide +kernel⟩,
   ⟨0, [1, 2], pipe 0 {} [], by decide +kernel⟩,
   ⟨[0, 2], by decide +kernel⟩⟩

theorem test_PipeTiming_hyps :
    (∃ (d : Pipe) (a : Bytes) (s : State), (s.pipe d.val).attrs = some a ∧ nextLine s d.val < aVActive a ∧ aDsc a = false) ∧
    (∃ (d : Pipe) (s : State), (s.pipe d.val).attrs ≠ none ∧ nextLine s d.val ≠ 0) ∧
    (∃ (d : Pipe) (s : State), (s.pipe d.val).attrs ≠ none) ∧
    (∃ (d : Pipe) (s : State), (s.pipe d.val).attrs ≠ none ∧ s.rd (PIPE_CTL_TSRC d.val) = 2 ∧ (s.pipe d.val).teSeen = false ∧ s.rd (PIPE_VTIM_VTOTAL d.val) ≤ (s.pipe d.val).extended) ∧
    (∃ (k : Fin 4) (d : Pipe) (s : State), p46Stopped s = false ∧ s.rd (PIPE_CTL_TSRC d.val) = 2 ∧ s.rd (PIPE_CTL_TESEL d.val) = k.val ∧ (s.pipe d.val).attrs ≠ none ∧ s.rd (PIPE_VTIM_VACTIVE d.val) ≤ s.rd (PIPE_STAT_LINE d.val)) ∧
    (∃ s : State, p46Stopped s = false) ∧
    (∃ s : State, p46Stopped s = true) ∧
    (∃ s : State, p46Stopped s = true) :=
  ⟨⟨0, attr, pipe 0 { attrs := some attr, lines := [(1, [3])] } [(PIPE_VTIM_VTOTAL 0, 40), (PIPE_VTIM_VACTIVE 0, 16)], by decide +kernel⟩,
   ⟨0, pipe 0 { attrs := some attr, lines := [(1, [3])] } [(PIPE_VTIM_VTOTAL 0, 40), (PIPE_VTIM_VACTIVE 0, 16)], by decide +kernel⟩,
   ⟨0, pipe 0 { attrs := some attr } [(PIPE_VTIM_VTOTAL 0, 40), (PIPE_VTIM_VACTIVE 0, 16), (PIPE_FRAME_COUNT 0, 0xFFFFFFFF), (PIPE_STAT_LINE 0, 39)], by decide +kernel⟩,
   ⟨0, pipe 0 { attrs := some attr, extended := 40 } [(PIPE_VTIM_VTOTAL 0, 40), (PIPE_VTIM_VACTIVE 0, 16), (PIPE_CTL_TSRC 0, 2), (PIPE_CNT_TEMISS 0, 3)], by decide +kernel⟩,
   ⟨3, 0, pipe 0 { attrs := some attr } [(PIPE_VTIM_VTOTAL 0, 40), (PIPE_VTIM_VACTIVE 0, 16), (PIPE_CTL_TSRC 0, 2), (PIPE_CTL_TESEL 0, 3), (PIPE_STAT_LINE 0, 16)], by decide +kernel⟩,
   ⟨up [], by decide +kernel⟩,
   ⟨{ up [] with pw := { ({} : Power) with outside := [6] } }, by decide +kernel⟩,
   ⟨{ up [] with pw := { ({} : Power) with outside := [6] } }, by decide +kernel⟩⟩

theorem test_AdapterUnitsEnterTheirTunnels_hyps :
    (∃ (p : Port) (s : State), persEth (s.rd (ADP_STAT_PERS p.val)) = true) ∧
    (∃ (p : Port) (n : Tun) (b x y z : Bytes) (s : State), b = x ++ y ++ z ∧ 2 ≤ p.val ∧ portFenced s p.val = false ∧ admits s p.val n.val ∧ b.length ≤ 120) ∧
    (∃ (p : Port) (n : Tun) (b x y z : Bytes) (s : State), b = x ++ y ++ z ∧ 2 ≤ p.val ∧ portFenced s p.val = false ∧ admits s p.val n.val ∧ b.length ≤ 120) ∧
    (∃ (p : Port) (b x y z : Bytes) (s : State), b = x ++ y ++ z ∧ p.val < 2 ∧ routeTlp s p.val (tlpHeader b.length b) = .nowhere) ∧
    (∃ (p : Port) (b h x y z : Bytes) (s : State), b = x ++ y ++ z ∧ p.val < 2 ∧ h = tlpHeader b.length b ∧ byteAt h 0 = 4 ∧ byteAt h 9 % 8 = 0 ∧ byteAt h 10 % 16 = 0 ∧ byteAt h 11 < 4 ∧ s.rd (CAN_STAT_STATE p.val) = 5) ∧
    (∃ (p : Port) (n d : Tun) (b x y z : Bytes) (q : Nat) (s : State), b = x ++ y ++ z ∧ p.val < 2 ∧ routeTlp s p.val (tlpHeader b.length b) = .port q false ∧ downTunnel s p.val q 1 = some d.val ∧ (s.rd (CAN_STAT_STATE p.val) = 5 ∨ d = n) ∧ s.rd (ADP_STAT_STATE q) ≠ 4 ∧ s.rd (ADP_STAT_STATE q) ≠ 5 ∧ portFenced s p.val = false ∧ admits s p.val d.val ∧ b.length ≤ 120) ∧
    (∃ (p : Port) (b y z : Bytes) (s : State), b = y ++ z ∧ p.val < 2 ∧ byteAt b 0 % 32 ≠ 12 ∧ routeNibble s p.val b ≠ 0 ∧ hubPortLive s (routeNibble s p.val b) = false) ∧
    (∃ (p : Port) (n d : Tun) (b y z : Bytes) (q : Nat) (s : State), b = y ++ z ∧ p.val < 2 ∧ byteAt b 0 % 32 ≠ 12 ∧ routeNibble s p.val b ≠ 0 ∧ hubPortLive s (routeNibble s p.val b) = true ∧ hubPort (routeNibble s p.val b) = some q ∧ downTunnel s p.val q 2 = some d.val ∧ (s.rd (CAN_STAT_STATE p.val) = 5 ∨ d = n) ∧ portFenced s p.val = false ∧ admits s p.val d.val ∧ b.length ≤ 120) ∧
    (∃ (p : Port) (b : Bytes) (s : State) (n : _), persEth (s.rd (ADP_STAT_PERS p.val)) = true ∧ 60 ≤ b.length ∧ b.length ≤ 120 ∧ b.length + 4 ≤ s.rd (ADP_ETHCTL_MAXFRM p.val) ∧ (etherType b).2 ≠ 0x8808 ∧ ptpAt b = none ∧ beAt b 12 2 ≠ 0x8100 ∧ beAt b 12 2 ≠ 0x88A8 ∧ upTunnel s p.val 3 (s.adp p.val).untag = some n ∧ portFenced s p.val = false ∧ admits s p.val n) ∧
    (∃ (p : Port) (b : Bytes) (s : State), persEth (s.rd (ADP_STAT_PERS p.val)) = true ∧ 60 ≤ b.length ∧ b.length ≤ 120 ∧ b.length + 4 ≤ s.rd (ADP_ETHCTL_MAXFRM p.val) ∧ (etherType b).2 ≠ 0x8808 ∧ ptpAt b = none ∧ beAt b 12 2 ≠ 0x8100 ∧ beAt b 12 2 ≠ 0x88A8 ∧ upTunnel s p.val 3 (s.adp p.val).untag = none) :=
  ⟨⟨8, up [(ADP_STAT_PERS 8, 2)], by decide +kernel⟩,
   ⟨8, 5, List.replicate 120 3, [], List.replicate 12 3, List.replicate 108 3, places 5 1 (up (tun 5 8 0 1 2)), by decide +kernel, by decide +kernel, by decide +kernel, by unfold admits; decide +kernel, by decide +kernel⟩,
   ⟨8, 5, List.replicate 120 3, [], List.replicate 12 3, List.replicate 108 3, places 5 1 (up (tun 5 8 0 1 2)), by decide +kernel, by decide +kernel, by decide +kernel, by unfold admits; decide +kernel, by decide +kernel⟩,
   ⟨0, [0, 0, 0, 1, 0, 0, 0, 15, 16, 0, 0, 0], [], [0, 0, 0, 1, 0, 0, 0, 15, 16, 0, 0, 0], [], up [], by decide +kernel⟩,
   ⟨0, [4, 0, 0, 1, 0, 0, 0, 15, 0, 0, 0, 0], [4, 0, 0, 1, 0, 0, 0, 15, 0, 0, 0, 0], [], [4, 0, 0, 1, 0, 0, 0, 15, 0, 0, 0, 0], [], up [(CAN_STAT_STATE 0, 5)], by decide +kernel⟩,
   ⟨0, 5, 5, [0x4A, 0, 0, 1, 0, 0, 0, 4, 3, 0, 0, 0, 1, 2, 3, 4], [], [0x4A, 0, 0, 1, 0, 0, 0, 4, 3, 0, 0, 0], [1, 2, 3, 4], 12, places 5 1 { cfgd [(12, 4, 1, 1)] (tun 5 0 12 1 2 ++ [(TT_REQ_PORT 5, 12), (TT_REQ_KIND 5, 1)]) with ad := [(0, { cfg := [(1024 * 12 + 6, 0x040300)] })] }, by decide +kernel, by decide +kernel, by decide +kernel, by decide +kernel, by decide +kernel, by decide +kernel, by decide +kernel, by decide +kernel, by unfold admits; decide +kernel, by decide +kernel⟩,
   ⟨0, [0, 1, 0, 0], [0, 1], [0, 0], up [], by decide +kernel⟩,
   ⟨0, 5, 5, [0xE0, 0, 0, 0, 1], [0xE0, 0, 0, 0], [1], 12, places 5 1 (cfgd [(12, 4, 5, 1)] (tun 5 0 12 2 2 ++ [(TT_REQ_PORT 5, 12), (TT_REQ_KIND 5, 2)])), by decide +kernel, by decide +kernel, by decide +kernel, by decide +kernel, by decide +kernel, by decide +kernel, by decide +kernel, by decide +kernel, by decide +kernel, by unfold admits; decide +kernel, by decide +kernel⟩,
   ⟨8, List.replicate 60 3, places 5 1 (up (tun 5 8 0 3 2 ++ [(ADP_STAT_PERS 8, 2), (TT_STATE_DIR 5, 1), (TT_REQ_PORT 5, 8), (TT_REQ_KIND 5, 3), (ADP_ETHCTL_MAXFRM 8, 1522)])), 5, by decide +kernel, by decide +kernel, by decide +kernel, by decide +kernel, by decide +kernel, by decide +kernel, by decide +kernel, by decide +kernel, by decide +kernel, by decide +kernel, by unfold admits; decide +kernel⟩,
   ⟨8, List.replicate 60 3, up [(ADP_STAT_PERS 8, 2), (ADP_ETHCTL_MAXFRM 8, 1522)], by decide +kernel⟩⟩

theorem test_LinksComeAndGoAndSlotsEject_hyps :
    (∃ (p : Port) (q : Partner) (s : State), (s.rd PST_PSSTAT_STATE ≠ 2 ∨ p.val ∉ s.ps.downed) ∧ retrainBlocked s p.val = false ∧ q.usb4 = false ∧ rateUsable s p.val q.rate = true) ∧
    (∃ (p : CanPort) (q : Partner) (s : State), (s.rd PST_PSSTAT_STATE ≠ 2 ∨ p.val ∉ s.ps.downed) ∧ retrainBlocked s p.val = false ∧ q.usb4 = true ∧ (s.can p.val).entered = 2 ∧ usb4Rate q.rate = true) ∧
    (∃ (p : CanPort) (q : Partner) (s : State), (s.rd PST_PSSTAT_STATE ≠ 2 ∨ p.val ∉ s.ps.downed) ∧ retrainBlocked s p.val = false ∧ q.usb4 = true ∧ (s.can p.val).entered = 2 ∧ usb4Rate q.rate = false) ∧
    (∃ (p : Port) (s : State), s.rd PST_PSSTAT_STATE = 2 ∧ p.val ∈ s.ps.downed) ∧
    (∃ (p : Port) (s : State), portUp s p.val = true ∧ (8 ≤ p.val ∨ canActive s p.val = false)) ∧
    (∃ (p : Port) (s : State), portUp s p.val = true ∧ (8 ≤ p.val ∨ canActive s p.val = false)) ∧
    (∃ (p : Port) (s : State), persDp (persOf s p.val) = true ∧ groveDark s (portGrove p.val) = false ∧ s.rd PST_PSSTAT_STATE < 3) ∧
    (∃ (p : Port) (s : State), persDp (persOf s p.val) = true ∧ groveDark s (portGrove p.val) = false ∧ s.rd PST_PSSTAT_STATE < 3) ∧
    (∃ (p : Port) (l m : List DpTry) (s : State) (g : _), persDp (persOf s p.val) = true ∧ s.on (ADP_DP_HPD p.val) = true ∧ groveDark s (portGrove p.val) = false ∧ s.rd PST_PSSTAT_STATE < 3 ∧ m = (l.filter fun x => x.lanes ≤ 2 * ((groupCells s p.val).filter fun c => !(s.lane c).faulted && !(altUsb s p.val && !isY c)).length && [1, 2, 4].contains x.lanes && rateUsable s p.val x.rate) ∧ m.find? (·.ok) = some g) ∧
    (∃ (p : Port) (l m : List DpTry) (s : State), persDp (persOf s p.val) = true ∧ s.on (ADP_DP_HPD p.val) = true ∧ groveDark s (portGrove p.val) = false ∧ s.rd PST_PSSTAT_STATE < 3 ∧ m = (l.filter fun x => x.lanes ≤ 2 * ((groupCells s p.val).filter fun c => !(s.lane c).faulted && !(altUsb s p.val && !isY c)).length && [1, 2, 4].contains x.lanes && rateUsable s p.val x.rate) ∧ m.find? (·.ok) = none) ∧
    (∃ (p : Port) (s : State), 12 ≤ p.val ∧ p46Stopped s = false ∧ evtOf s (0x10 + (p.val - 12)) ≠ none ∧ s.rd (ADP_STAT_PERS p.val) = 1 ∧ s.rd (ADP_STAT_STATE p.val) ≠ 1 ∧ s.rd (ADP_STAT_STATE p.val) ≠ 6) ∧
    (∃ (p : Port) (s : State), 12 ≤ p.val ∧ p46Stopped s = false ∧ evtOf s (0x10 + (p.val - 12)) ≠ none ∧ s.rd (ADP_STAT_PERS p.val) = 1 ∧ (s.rd (ADP_STAT_STATE p.val) = 1 ∨ s.rd (ADP_STAT_STATE p.val) = 6)) ∧
    (∃ (p : Port) (s : State), persOf s p.val = 1 ∧ s.rd (ADP_STAT_STATE p.val) ≠ 4 ∧ s.rd (ADP_STAT_STATE p.val) ≠ 5) ∧
    (∃ (p : Port) (s : State), s.rd (ADP_STAT_STATE p.val) = 4) ∧
    (∃ (p : Port) (s : State), s.rd (ADP_STAT_STATE p.val) = 5) ∧
    (∃ (p : Port) (s : State), s.rd (ADP_STAT_PERS p.val) = 1 ∧ (s.rd (ADP_STAT_STATE p.val) = 2 ∨ s.rd (ADP_STAT_STATE p.val) = 3 ∨ s.rd (ADP_STAT_STATE p.val) = 6)) :=
  ⟨⟨8, { pt with rate := 3 }, cfgd [(8, 3, 1, 0)] [], by decide +kernel⟩,
   ⟨0, { pt with usb4 := true, rate := 12 }, { cfgd [(0, 1, 2, 0)] [] with cn := [(0, { entered := 2 })] }, by decide +kernel⟩,
   ⟨0, { pt with usb4 := true, rate := 3 }, { cfgd [(0, 1, 2, 0)] [] with cn := [(0, { entered := 2 })] }, by decide +kernel⟩,
   ⟨8, { cfgd [(8, 3, 1, 0)] [(PST_PSSTAT_STATE, 2)] with ps := { ({} : PsReq) with downed := [8] } }, by decide +kernel⟩,
   ⟨8, up [(ADP_STAT_STATE 8, 2)], by decide +kernel⟩,
   ⟨8, up [(ADP_STAT_STATE 8, 2)], by decide +kernel⟩,
   ⟨8, withImg (ports [(8, 3, 1, 0)]) (up []), by decide +kernel⟩,
   ⟨8, withImg (ports [(8, 3, 1, 0)]) { up [(ADP_DP_HPD 8, 1), (ADP_STAT_STATE 8, 2)] with sv := { ({} : Solver) with att := [(8, pt)] }, fb := { ({} : Fab) with eg := [(8, { waiting := true, wait := 8 })] } }, by decide +kernel⟩,
   ⟨8, [⟨2, 4, true⟩, ⟨3, 1, true⟩], [⟨2, 4, true⟩, ⟨3, 1, true⟩], cfgd [(8, 3, 1, 0)] [(ADP_DP_HPD 8, 1), (ADP_STAT_STATE 8, 1)], ⟨2, 4, true⟩, by decide +kernel⟩,
   ⟨8, [⟨2, 4, false⟩], [⟨2, 4, false⟩], cfgd [(8, 3, 1, 0)] [(ADP_DP_HPD 8, 1), (ADP_STAT_STATE 8, 1)], by decide +kernel⟩,
   ⟨12, { up [(ADP_STAT_PERS 12, 1), (ADP_STAT_STATE 12, 2)] with bt := { (up []).bt with pinFns := List.replicate 15 0 ++ [0x10] } }, by decide +kernel⟩,
   ⟨12, { up [(ADP_STAT_PERS 12, 1), (ADP_STAT_STATE 12, 6)] with bt := { (up []).bt with pinFns := List.replicate 15 0 ++ [0x10] } }, by decide +kernel⟩,
   ⟨12, withImg (ports [(12, 4, 1, 1)]) (up []), by decide +kernel⟩,
   ⟨12, up [(ADP_STAT_STATE 12, 4), (ADP_STAT_PERS 12, 1)], by decide +kernel⟩,
   ⟨12, { up [(ADP_STAT_STATE 12, 5), (ADP_STAT_PERS 12, 1)] with ad := [(12, { ejected := true, slotOff := true })] }, by decide +kernel⟩,
   ⟨12, { up [(ADP_STAT_STATE 12, 3), (ADP_STAT_PERS 12, 1)] with ad := [(12, { outstanding := [[1]] })] }, by decide +kernel⟩⟩

theorem test_UsbUpstreamAndFunction_hyps :
    (∃ (c : Crown) (s : State), s.rd USB_STAT_UPSEL = c.val + 1 ∧ candidate s (1 - c.val) = true ∧ bit s.ut.passed (1 - c.val) = false ∧ treeRuns s = true) ∧
    (∃ s : State, s.on USB_STAT_PULLUP = true) ∧
    (∃ c : Byte, c.toNat ≤ 1) ∧
    (∃ c : Byte, 1 < c.toNat) ∧
    (∃ (a : Byte) (s : State), s.on USB_MGT_CONF = true ∧ a.toNat ≤ 3) ∧
    (∃ (a : Byte) (s : State), s.on USB_MGT_CONF = false ∨ 3 < a.toNat) :=
  ⟨⟨0, up [(PD_STAT_CCST 1, 3), (PD_STAT_CCST 0, 3), (USB_STAT_UPSEL, 1)], by decide +kernel⟩,
   ⟨up [(USB_STAT_PULLUP, 1), (USB_MGT_CONF, 1), (USB_PST_EN 34, 1)], by decide +kernel⟩,
   ⟨1, by decide +kernel⟩,
   ⟨2, by decide +kernel⟩,
   ⟨3, up [(USB_MGT_CONF, 1)], by decide +kernel⟩,
   ⟨3, up [], by decide +kernel⟩⟩

theorem test_TreePortsConnectAndFail_hyps :
    (∃ (n : TreePort) (s : State), (treeExternal s n.val).isSome = true ∧ treeData s n.val = true) ∧
    (∃ (n : TreePort) (s : State), (treeExternal s n.val).isSome = true ∧ treeData s n.val = true ∧ s.on (USB_PST_CONN n.val) = true) ∧
    (∃ (n : TreePort) (v : Fin 4) (s : State), 5 ≤ n.val ∧ s.on (USB_PST_CONN n.val) = true ∧ v.val ≠ 3) ∧
    (∃ (n : TreePort) (v : Fin 4) (s : State), n.val < 4 ∧ s.on (USB_PST_CONN n.val) = true ∧ v.val ≠ 3) ∧
    (∃ (n : TreePort) (s : State), (treeExternal s n.val).isSome = true ∧ 7 ≤ n.val ∧ n.val ≤ 26 ∧ s.on (USB_PST_PWR n.val) = true) ∧
    (∃ (n : TreePort) (s : State), s.on (USB_PST_EN n.val) = true) ∧
    (∃ (n : TreePort) (p : Nat) (s : State), treeRuns s = true ∧ treeInternal n.val = false ∧ treeExternal s n.val = some p ∧ 20 ≤ p ∧ treeMayPower s n.val = true) ∧
    (∃ (n : TreePort) (p : Nat) (s : State), treeRuns s = true ∧ treeInternal n.val = false ∧ treeExternal s n.val = some p ∧ 20 ≤ p ∧ treeMayPower s n.val = true) :=
  ⟨⟨7, { up [(USB_PST_PWR 7, 1)] with ut := { ({} : Tree) with ports := [(7, { on := true })] } }, by decide +kernel⟩,
   ⟨7, { up [(USB_PST_PWR 7, 1), (USB_PST_CONN 7, 1), (USB_PST_EN 7, 1)] with ut := { ({} : Tree) with ports := [(7, { on := true })] } }, by decide +kernel⟩,
   ⟨7, 2, up [(USB_PST_CONN 7, 1)], by decide +kernel⟩,
   ⟨0, 2, up [(USB_PST_CONN 0, 1)], by decide +kernel⟩,
   ⟨7, up [(USB_PST_PWR 7, 1)], by decide +kernel⟩,
   ⟨0, up [(USB_PST_EN 0, 1)], by decide +kernel⟩,
   ⟨7, 20, up [], by decide +kernel⟩,
   ⟨7, 20, { up [(USB_PST_PWR 7, 1)] with ut := { ({} : Tree) with ports := [(7, { on := true })] } }, by decide +kernel⟩⟩

theorem test_UsbSuspendAndResume_hyps :
    (∃ s : State, s.on USB_STAT_PULLUP = true ∧ s.on USB_STAT_SUSP = false) ∧
    (∃ s : State, s.on USB_STAT_SUSP = true) ∧
    (∃ (n : TreePort) (s : State), s.on (USB_PST_EN n.val) = true) ∧
    (∃ (n : TreePort) (s : State), s.on (USB_PST_CONN n.val) = true ∧ s.on (USB_PST_SUSP n.val) = true) ∧
    (∃ (n : TreePort) (s : State), s.on (USB_PST_SUSP n.val) = true) ∧
    (∃ (n : TreePort) (s : State), (s.tree n.val).resumeHost = true ∨ (s.tree n.val).resumeDev = true) :=
  ⟨⟨up [(USB_STAT_PULLUP, 1)], by decide +kernel⟩,
   ⟨up [(USB_STAT_SUSP, 1)], by decide +kernel⟩,
   ⟨7, up [(USB_PST_EN 7, 1)], by decide +kernel⟩,
   ⟨7, up [(USB_PST_CONN 7, 1), (USB_PST_SUSP 7, 1)], by decide +kernel⟩,
   ⟨7, up [(USB_PST_SUSP 7, 1)], by decide +kernel⟩,
   ⟨7, { up [(USB_PST_SUSP 7, 1), (USB_PST_RWAKE 7, 1)] with ut := { ({} : Tree) with ports := [(7, { resumeDev := true })] } }, by decide +kernel⟩⟩

theorem test_TimeBasesFramesAndEvents_hyps :
    (∃ (n : TimeBase) (s : State), tbRunning s n.val = true ∧ baseCarries s n.val = true) ∧
    (∃ (e : EvtPin) (s : State), comparing s e.val = true ∧ compareReached s e.val = true) ∧
    (∃ (e : EvtPin) (s : State), (evtMode s e.val = 3 ∨ evtMode s e.val = 4) ∧ s.rd (TIM_EVRAS_LINE e.val) < s.rd SCHED_LTOT_TOTAL ∧ rasterReached s e.val = true ∧ (s.evt e.val).frames % s.rd (TIM_EVCTL_DIV e.val) = 0) ∧
    (∃ (e : EvtPin) (s : State), (evtMode s e.val = 1 ∨ evtMode s e.val = 3) ∧ (s.evt e.val).active = true) ∧
    (∃ (e : EvtPin) (s : State), evtMode s e.val = 5 ∨ evtMode s e.val = 7) ∧
    (∃ h : Bytes, byteAt h 0 = 0x10) ∧
    (∃ (p : Port) (h : Bytes) (s : State), byteAt h 0 = 0x11 ∧ (∃ n, ((List.range 16).findSome? fun i => upTunnel s p.val 4 i) = some n)) ∧
    (∃ (p : Port) (h : Bytes) (s : State), byteAt h 0 = 0x11 ∧ ((List.range 16).findSome? fun i => upTunnel s p.val 4 i) = none) ∧
    (∃ (p : Port) (h f g : Bytes) (s : State), byteAt h 0 = 0x12 ∧ corrected (stampOut s p.val (cmdBase h)) h f = some g) ∧
    (∃ (p : Port) (h f : Bytes) (s : State), byteAt h 0 = 0x12 ∧ corrected (stampOut s p.val (cmdBase h)) h f = none) ∧
    (∃ (p : CanPort) (s : State), carriesTime s p.val = true ∧ isUpEnd s p.val = true) ∧
    (∃ (p : CanPort) (s : State), carriesTime s p.val = true ∧ isUpEnd s p.val = false) ∧
    (∃ (p : CanPort) (q : Fin 64) (x : Xch) (s : State), carriesTime s p.val = true ∧ (s.can p.val).xch = some x ∧ x.seq = q.val ∧ x.times = []) ∧
    (∃ (p : CanPort) (q : Fin 64) (x : Xch) (s : State), carriesTime s p.val = true ∧ (s.can p.val).xch = some x ∧ x.seq = q.val ∧ x.times = []) ∧
    (∃ (p : CanPort) (q : Fin 64) (x : Xch) (s : State), carriesTime s p.val = true ∧ (s.can p.val).xch = some x ∧ x.seq = q.val ∧ isUpEnd s p.val = true ∧ (mfind x.times 1).isSome = true ∧ (mfind x.times 2).isSome = true ∧ (mfind x.times 4).isSome = true) ∧
    (∃ (p : CanPort) (s : State), (s.can p.val).xch ≠ none) :=
  ⟨⟨0, { up [(TIM_TBCTL_RUN 0, 1)] with tb := [(0, 2 ^ 64 - 1)] }, by decide +kernel⟩,
   ⟨0, up [(TIM_EVCTL_MODE 0, 1), (TIM_TBCTL_RUN 0, 1), (TIM_EVPER_PERIOD 0, 1000)], by decide +kernel⟩,
   ⟨0, up [(TIM_EVCTL_MODE 0, 3), (SCHED_LTOT_TOTAL, 1000), (TIM_EVCTL_DIV 0, 1)], by decide +kernel⟩,
   ⟨0, { up [(TIM_EVCTL_MODE 0, 1)] with ev := [(0, { active := true })] }, by decide +kernel⟩,
   ⟨0, up [(TIM_EVCTL_MODE 0, 5)], by decide +kernel⟩,
   ⟨[0x10, 0], by decide +kernel⟩,
   ⟨8, [0x11, 0], up (tun 5 8 0 4 2 ++ [(TT_STATE_DIR 5, 1), (TT_REQ_PORT 5, 8), (TT_REQ_KIND 5, 4)]), by decide +kernel, ⟨5, by decide +kernel⟩⟩,
   ⟨8, [0x11, 0], up [], by decide +kernel⟩,
   ⟨8, [0x12, 0, 0, 0, 0, 20, 0, 0, 0, 0, 0, 0], List.replicate 60 1, (corrected (stampOut (up []) 8 (cmdBase [0x12, 0, 0, 0, 0, 20, 0, 0, 0, 0, 0, 0])) [0x12, 0, 0, 0, 0, 20, 0, 0, 0, 0, 0, 0] (List.replicate 60 1)).getD [], up [], by decide +kernel⟩,
   ⟨8, [0x12, 0, 0, 0, 0, 60, 0, 0, 0, 0, 0, 0], List.replicate 60 1, up [], by decide +kernel⟩,
   ⟨2, can 2 { caps := [(0, 2 ^ 26)] } (up [(CAN_CTL_TIME 2, 1)]), by decide +kernel⟩,
   ⟨0, can 0 { caps := [(0, 2 ^ 26)] } (up [(CAN_CTL_TIME 0, 1)]), by decide +kernel⟩,
   ⟨2, 5, ⟨5, []⟩, can 2 { caps := [(0, 2 ^ 26)], xch := some ⟨5, []⟩ } (up [(CAN_CTL_TIME 2, 1)]), by decide +kernel⟩,
   ⟨2, 5, ⟨5, []⟩, can 2 { caps := [(0, 2 ^ 26)], xch := some ⟨5, []⟩ } (up [(CAN_CTL_TIME 2, 1)]), by decide +kernel⟩,
   ⟨2, 5, ⟨5, [(1, 5), (2, 6), (4, 9)]⟩, can 2 { caps := [(0, 2 ^ 26)], missed := 2, xch := some ⟨5, [(1, 5), (2, 6), (4, 9)]⟩ } (up [(CAN_CTL_TIME 2, 1)]), by decide +kernel⟩,
   ⟨2, can 2 { xch := some ⟨5, []⟩ } (up []), by decide +kernel⟩⟩

theorem test_FaultReportsAreLoggedAndHandled_hyps :
    (∃ (k : Fin 16) (u : Byte) (s : State), (k = 5 ∨ k = 9) ∧ reportable k.val u.toNat s = true ∧ recentReports s = []) ∧
    (∃ s : State, reportable 5 8 s = true ∧ recentReports s = [] ∧ s.bt.retest = []) ∧
    (∃ s : State, s.bt.retest = []) ∧
    (∃ (g : Grove) (l : List Nat) (s : State), s.bt.retest = g.val :: l ∧ 4 ≤ s.bt.released) ∧
    (∃ s : State, engineRuns s = true ∧ recentReports s = [] ∧ s.rd RST_FLTSTAT_MGT = 0) ∧
    (∃ s : State, engineRuns s = true ∧ recentReports s = []) ∧
    (∃ s : State, s.rd RST_FLTSTAT_MGT ≠ 0) ∧
    (∃ s : State, recentReports s = [] ∧ s.ft.refFailed = false ∧ s.ft.pll = none) ∧
    (∃ s : State, recentReports s = [] ∧ s.ft.refFailed = false ∧ s.ft.pll = none) ∧
    (∃ (k : Clock) (u : Nat) (s : State), (k = .sys ∧ u = 2 ∨ k = .fab ∧ u = 3 ∨ k = .mem ∧ u = 4 ∨ k = .time ∧ u = 5 ∨ k = .usb ∧ u = 6 ∨ k = .standby ∧ u = 8 ∨ ∃ d : Pipe, k = .pix d ∧ u = 16 + d.val ∧ d.val < pipeCount (variant s)) ∧ recentReports s = [] ∧ s.ft.refFailed = false ∧ s.ft.pll = none) ∧
    (∃ (k : Clock) (s : State), (∀ d : Pipe, k = .pix d → d.val < pipeCount (variant s)) ∧ recentReports s = [] ∧ (s.ft.refFailed = true ∨ s.ft.pll ≠ none)) ∧
    (∃ s : State, recentReports s = []) :=
  ⟨⟨5, 8, up [], by decide +kernel⟩,
   ⟨up [], by decide +kernel⟩,
   ⟨up [], by decide +kernel⟩,
   ⟨3, [4], { up [(RST_FLTSTAT_FENCED, 8), (RST_FLTSTAT_GFFOR, 3)] with bt := { (up []).bt with retest := [3, 4] } }, by decide +kernel⟩,
   ⟨up [], by decide +kernel⟩,
   ⟨up [], by decide +kernel⟩,
   ⟨up [(RST_FLTSTAT_MGT, 1)], by decide +kernel⟩,
   ⟨up [], by decide +kernel⟩,
   ⟨up [], by decide +kernel⟩,
   ⟨.sys, 2, up [], by decide +kernel⟩,
   ⟨.ref, { up [] with ft := { ({} : Faults) with refFailed := true } }, by decide +kernel⟩,
   ⟨up [], by decide +kernel⟩⟩

theorem test_TakeoverAndFailover_hyps :
    (∃ (g : Grove) (s : State), g.val < 8 ∧ reportable 3 g.val s = true ∧ recentReports s = [] ∧ gfFor s = none ∧ s.on RST_FLTSTAT_GFOK = true) ∧
    (∃ (g : Grove) (s : State), g.val < 8 ∧ reportable 3 g.val s = true ∧ recentReports s = [] ∧ gfFor s = none ∧ s.on RST_FLTSTAT_GFOK = true) ∧
    (∃ (g : Grove) (s : State), g.val < 8 ∧ awaitsRemap s = some g.val ∧ s.rd FAB_SLOT_COUNT % 20 = 0) ∧
    (∃ g : Nat, g < 8) ∧
    (∃ s : State, s.rd RST_FLTSTAT_SEQ ≠ 0) ∧
    (∃ s : State, s.rd RST_FLTSTAT_SEQ = 0) :=
  ⟨⟨0, up [], by decide +kernel⟩,
   ⟨0, up [], by decide +kernel⟩,
   ⟨0, up [(RST_FLTSTAT_SEQ, 4), (RST_FLTSTAT_GFFOR, 0), (RST_FLTSTAT_FENCED, 1)], by decide +kernel⟩,
   ⟨0, by decide +kernel⟩,
   ⟨up [(RST_FLTSTAT_SEQ, 6)], by decide +kernel⟩,
   ⟨up [], by decide +kernel⟩⟩

theorem test_CheckpointsAndSelfChecks_hyps :
    (∃ (g : Grove) (h : Nat) (s : State), ckGrove s g.val = some h ∧ (g.val = 8 → awaitsRemap s = none) ∧ bit (s.rd RST_FLTSTAT_FENCED) g.val = false) ∧
    (∃ (g : Grove) (h : Nat) (k : Ckpt) (s : State), ckGrove s g.val = some h ∧ (g.val = 8 → awaitsRemap s = none) ∧ bit (s.rd RST_FLTSTAT_FENCED) g.val = false ∧ mfind s.ckp h = some k) ∧
    (∃ (g : Grove) (s : State), bit (s.rd RST_FLTSTAT_FENCED) g.val = true) ∧
    (∃ (g : Grove) (s : State), bit (s.rd RST_FLTSTAT_FENCED) g.val = true) ∧
    (∃ (c : LaneCell) (s : State), s.rd (LC_STAT_STATE c.val) = 8 ∧ reportable 1 c.val s = true) ∧
    (∃ (c : LaneCell) (s : State), s.rd (LC_STAT_STATE c.val) = 8 ∧ (∀ d ∈ groupCells s (servedPort s c.val), d ≠ c.val → s.rd (LC_STAT_STATE d) ≠ 8 ∨ (s.lane d).checked ≠ none)) ∧
    (∃ (c : LaneCell) (d : Nat) (s : State), s.rd (LC_STAT_STATE c.val) = 8 ∧ d ∈ groupCells s (servedPort s c.val) ∧ d ≠ c.val ∧ s.rd (LC_STAT_STATE d) = 8 ∧ (s.lane d).checked = none) ∧
    (∃ (c : LaneCell) (s : State), s.rd (LC_STAT_STATE c.val) ≠ 8) ∧
    (∃ s : State, 2 ≤ s.bt.released ∧ s.on KEY_VAULT_FROZEN = false) ∧
    (∃ s : State, 2 ≤ s.bt.released ∧ s.on KEY_VAULT_FROZEN = false ∧ recentReports s = []) :=
  ⟨⟨3, 3, can 6 { rxSegs := 2 } (up (tun 5 6 8 1 2)), by decide +kernel⟩,
   ⟨3, 3, {}, { can 6 { rxSegs := 2 } (up (tun 5 6 8 1 2)) with ckp := [(3, {})] }, by decide +kernel⟩,
   ⟨7, up [(RST_FLTSTAT_FENCED, 128)], by decide +kernel⟩,
   ⟨7, up [(RST_FLTSTAT_FENCED, 128)], by decide +kernel⟩,
   ⟨0, up [(LC_STAT_STATE 0, 8)], by decide +kernel⟩,
   ⟨0, { up [(LC_STAT_STATE 0, 8), (LC_STAT_STATE 1, 8)] with lc := [(1, { checked := some true })] }, by decide +kernel⟩,
   ⟨0, 1, up [(LC_STAT_STATE 0, 8), (LC_STAT_STATE 1, 8)], by decide +kernel⟩,
   ⟨0, up [], by decide +kernel⟩,
   ⟨up [], by decide +kernel⟩,
   ⟨up [], by decide +kernel⟩⟩

theorem test_ResetsRestoreTheirReach_hyps :
    (∃ s : State, s.bt.coreEn = true) ∧
    (∃ s : State, s.bt.coreEn = false) ∧
    (∃ s : State, ¬(s.bt.fusing = true ∧ 1 ≤ s.bt.released ∧ ∀ x ∈ s.bt.srcs, x = .warmN)) ∧
    (∃ s : State, s.bt.fusing = true ∧ 1 ≤ s.bt.released ∧ (∀ x ∈ s.bt.srcs, x = .warmN)) ∧
    (∃ (c : Crown) (s : State), isDown s c.val = false ∧ s.rd (CAN_STAT_STATE c.val) = 5) :=
  ⟨⟨dirty, by decide +kernel⟩,
   ⟨{ up [] with bt := { (up []).bt with coreEn := false } }, by decide +kernel⟩,
   ⟨dirty, by decide +kernel⟩,
   ⟨st [], by decide +kernel⟩,
   ⟨1, up [(CAN_STAT_STATE 1, 5)], by decide +kernel⟩⟩

theorem test_ReleaseFusesAndFirmware_hyps :
    (∃ (x : ResetSrc) (s : State), x ∈ s.bt.srcs) ∧
    (∃ (x : ResetSrc) (s : State), x ∉ s.bt.srcs) ∧
    (∃ s : State, s.rd PST_PSSTAT_STATE < 3 ∧ s.bt.srcs = [] ∧ 1 ≤ s.bt.released ∧ s.bt.released < 18 ∧ domainWaits (s.bt.released + 1) s = false) ∧
    (∃ s : State, s.rd PST_PSSTAT_STATE < 3 ∧ s.bt.srcs = [] ∧ s.bt.released = 3 ∧ s.bt.gate = false ∧ s.on RST_BOOT_WAITPWR = false) ∧
    (∃ s : State, anyFeed s = true) ∧
    (∃ s : State, s.bt.coreEn = true ∧ coreOff s = false) ∧
    (∃ s : State, s.bt.coreEn = true ∧ coreOff s = false ∧ s.bt.corePg = true) ∧
    (∃ s : State, s.bt.coreEn = true ∧ s.bt.corePg = false) ∧
    (∃ s : State, s.bt.coreEn = false ∧ coreOff s = false ∧ 1 ≤ s.bt.released) ∧
    (∃ s : State, 6 ≤ s.bt.released) ∧
    (∃ (l : List FuseErr) (s : State), s.bt.fusing = true ∧ 1 ≤ s.bt.released ∧ (∀ x ∈ s.bt.srcs, x = .warmN) ∧ fuseCrc s l = fuseWord s l 0x200) ∧
    (∃ (l : List FuseErr) (s : State), s.bt.fusing = true ∧ 1 ≤ s.bt.released ∧ (∀ x ∈ s.bt.srcs, x = .warmN) ∧ fuseCrc s l ≠ fuseWord s l 0x200 ∧ s.rd FUSE_LDST_ATTEMPT < 2) ∧
    (∃ (l : List FuseErr) (s : State), s.bt.fusing = true ∧ 1 ≤ s.bt.released ∧ (∀ x ∈ s.bt.srcs, x = .warmN) ∧ fuseCrc s l ≠ fuseWord s l 0x200 ∧ s.rd FUSE_LDST_ATTEMPT = 2 ∧ s.bt.later = []) ∧
    (∃ s : State, 4 ≤ s.bt.released ∧ s.on SYS_STAGE_FWRDY = false ∧ s.on RST_BOOT_FWFAIL = false ∧ s.rd RST_FLTSTAT_MGT ≠ 3 ∧ s.mg.held = [] ∧ firmwarePasses s false = false ∧ firmwarePasses s true = false) ∧
    (∃ s : State, s.ft.restarting = true ∧ s.on PD_GLOB_FWPOL = true ∧ s.mg.held = []) ∧
    (∃ s : State, s.ft.restarting = true ∧ s.mg.held = []) :=
  ⟨⟨.por, { st [] with bt := { srcs := [.por], released := 0, reach := 3 } }, by decide +kernel⟩,
   ⟨.por, up [], by decide +kernel⟩,
   ⟨{ up [(FUSE_LDST_SHADOW_VALID, 1)] with bt := { (up []).bt with released := 1 } }, by decide +kernel⟩,
   ⟨{ up [] with bt := { (up []).bt with released := 3, gate := false } }, by decide +kernel⟩,
   ⟨up [(PP_FEED_QUALA, 1), (RST_BOOT_WAITPWR, 1)], by decide +kernel⟩,
   ⟨up [], by decide +kernel⟩,
   ⟨up [], by decide +kernel⟩,
   ⟨{ up [] with bt := { (up []).bt with corePg := false } }, by decide +kernel⟩,
   ⟨{ up [] with bt := { (up []).bt with coreEn := false } }, by decide +kernel⟩,
   ⟨up [], by decide +kernel⟩,
   ⟨[], st [], by decide +kernel, by decide +kernel, by decide +kernel, by unfold fuseCrc; rw [crc32_eq]; decide +kernel⟩,
   ⟨[⟨0x14, 1⟩], st [], by decide +kernel, by decide +kernel, by decide +kernel, by unfold fuseCrc; rw [crc32_eq]; decide +kernel, by decide +kernel⟩,
   ⟨[⟨0x14, 1⟩], st [(FUSE_LDST_ATTEMPT, 2)], by decide +kernel, by decide +kernel, by decide +kernel, by unfold fuseCrc; rw [crc32_eq]; decide +kernel, by decide +kernel⟩,
   ⟨(up []).wr SYS_STAGE_FWRDY 0, by decide +kernel⟩,
   ⟨{ up [(PD_GLOB_FWPOL, 1), (RST_FLTSTAT_MGT, 1), (SYS_STAGE_FWRDY, 0)] with ft := { ({} : Faults) with restarting := true } }, by decide +kernel⟩,
   ⟨{ up [(PD_GLOB_FWPOL, 1), (RST_FLTSTAT_MGT, 1), (SYS_STAGE_FWRDY, 0)] with ft := { ({} : Faults) with restarting := true } }, by decide +kernel⟩⟩

theorem test_PowerStateRequestsAreAnswered_hyps :
    (∃ s : State, s.on PST_PSCTL_AUTO = true ∧ s.on SYS_STAGE_FWRDY = true ∧ s.rd PST_PSSTAT_STATE = 0 ∧ s.rd PST_PSSTAT_PHASE = 0 ∧ quiet s = true) ∧
    (∃ s : State, s.on PST_PSCTL_AUTO = false) ∧
    (∃ (w : Participant) (s : State), s.rd PST_PSSTAT_PHASE = 1 ∧ w.val ∈ s.ps.waiting ∧ w.val ∉ s.ps.deferring ∧ mustRefuse s w.val = none ∧ mustDefer s w.val = false) ∧
    (∃ (w : Participant) (s : State), s.rd PST_PSSTAT_PHASE = 1 ∧ w.val ∈ s.ps.waiting ∧ w.val ∉ s.ps.deferring ∧ mustRefuse s w.val = none ∧ mustDefer s w.val = true ∧ s.ps.deferSum ≤ 1745) ∧
    (∃ (w : Participant) (s : State), s.rd PST_PSSTAT_PHASE = 1 ∧ w.val ∈ s.ps.waiting ∧ w.val ∉ s.ps.deferring ∧ mustRefuse s w.val = none) ∧
    (∃ (w : Participant) (s : State) (n : _), s.rd PST_PSSTAT_PHASE = 1 ∧ w.val ∈ s.ps.waiting ∧ w.val ∉ s.ps.deferring ∧ mustRefuse s w.val = none ∧ s.ps.deferSum + n ≤ 2000) ∧
    (∃ (w : Participant) (s : State) (n : _), s.rd PST_PSSTAT_PHASE = 1 ∧ w.val ∈ s.ps.waiting ∧ w.val ∉ s.ps.deferring ∧ mustRefuse s w.val = none ∧ 2000 < s.ps.deferSum + n) ∧
    (∃ (w : Participant) (r : Nat) (s : State), s.rd PST_PSSTAT_PHASE = 1 ∧ w.val ∈ s.ps.waiting ∧ w.val ∉ s.ps.deferring ∧ mustRefuse s w.val = some r) ∧
    (∃ s : State, s.rd RST_FLTSTAT_SEQ ≠ 0) ∧
    (∃ (w : Participant) (s : State), s.rd PST_PSSTAT_PHASE = 1 ∧ w.val ∈ s.ps.waiting ∧ w.val ∉ s.ps.deferring) ∧
    (∃ u : State, u.kv.waiting = []) ∧
    (∃ s : State, s.rd PST_PSSTAT_PHASE = 1) ∧
    (∃ s : State, s.rd PST_PSSTAT_PHASE ≠ 1) ∧
    (∃ s : State, s.rd PST_PSSTAT_PHASE ≠ 1) ∧
    (∃ s : State, s.rd PST_PSSTAT_PHASE ≠ 1) :=
  ⟨⟨up [(PST_PSCTL_AUTO, 1)], by decide +kernel⟩,
   ⟨(up []).wr PST_PSCTL_AUTO 0, by decide +kernel⟩,
   ⟨3, { up [(PST_PSSTAT_PHASE, 1)] with ps := { ({} : PsReq) with target := 2, waiting := [3, 17] } }, by decide +kernel⟩,
   ⟨15, { up [(PST_PSSTAT_PHASE, 1)] with ps := { ({} : PsReq) with target := 2, waiting := [15, 17] }, pd := [(3, { own := 1 })] }, by decide +kernel⟩,
   ⟨3, { up [(PST_PSSTAT_PHASE, 1)] with ps := { ({} : PsReq) with target := 2, waiting := [3, 17] } }, by decide +kernel⟩,
   ⟨3, { up [(PST_PSSTAT_PHASE, 1)] with ps := { ({} : PsReq) with target := 2, waiting := [3, 17] } }, 2000, by decide +kernel⟩,
   ⟨3, { up [(PST_PSSTAT_PHASE, 1)] with ps := { ({} : PsReq) with target := 2, waiting := [3, 17], deferSum := 1 } }, 2000, by decide +kernel⟩,
   ⟨17, 5, { up [(PST_PSSTAT_PHASE, 1), (RST_FLTSTAT_SEQ, 4)] with ps := { ({} : PsReq) with target := 2, waiting := [3, 17] } }, by decide +kernel⟩,
   ⟨up [(RST_FLTSTAT_SEQ, 4)], by decide +kernel⟩,
   ⟨17, { up [(PST_PSSTAT_PHASE, 1)] with ps := { ({} : PsReq) with target := 2, waiting := [3, 17] } }, by decide +kernel⟩,
   ⟨up [], by decide +kernel⟩,
   ⟨{ up [(PST_PSSTAT_PHASE, 1)] with ps := { ({} : PsReq) with target := 2, waiting := [3, 17], deferring := [3, 17] } }, by decide +kernel⟩,
   ⟨up [], by decide +kernel⟩,
   ⟨up [], by decide +kernel⟩,
   ⟨up [(PST_PSSTAT_PHASE, 2)], by decide +kernel⟩⟩

theorem test_PowerStatesAreEntered_hyps :
    (∃ s : State, s.rd PST_PSSTAT_PHASE = 1 ∧ s.ps.waiting = [] ∧ s.ps.target = 1) ∧
    (∃ s : State, s.rd PST_PSSTAT_PHASE = 1 ∧ s.ps.waiting = [] ∧ s.ps.target = 2) ∧
    (∃ s : State, s.rd PST_PSSTAT_PHASE = 1 ∧ s.ps.waiting = [] ∧ (s.ps.target = 3 ∨ s.ps.target = 4)) ∧
    (∃ s : State, s.rd PST_PSSTAT_PHASE ≠ 1 ∨ s.ps.waiting ≠ []) ∧
    (∃ s : State, s.rd PST_PSSTAT_PHASE = 2 ∧ s.ps.target = 3 ∧ s.kv.waiting = []) ∧
    (∃ s : State, s.rd PST_PSSTAT_PHASE = 2 ∧ s.ps.target = 4 ∧ s.ps.level = 0 ∧ s.kv.waiting = []) ∧
    (∃ s : State, s.rd PST_PSSTAT_PHASE ≠ 2) :=
  ⟨⟨{ up [(PST_PSSTAT_PHASE, 1), (PST_PSCTL_GO, 1)] with ps := { ({} : PsReq) with target := 1 } }, by decide +kernel⟩,
   ⟨{ up [(PST_PSSTAT_PHASE, 1), (PST_PSCTL_GO, 1), (CAN_STAT_STATE 0, 4), (ADP_STAT_STATE 8, 2), (ADP_STAT_STATE 9, 2)] with ps := { ({} : PsReq) with target := 2 } }, by decide +kernel⟩,
   ⟨{ up [(PST_PSSTAT_PHASE, 1), (PST_PSCTL_GO, 1), (CAN_STAT_STATE 0, 4)] with ps := { ({} : PsReq) with target := 3 } }, by decide +kernel⟩,
   ⟨up [], by decide +kernel⟩,
   ⟨{ up [(PST_PSSTAT_PHASE, 2), (PST_PSCTL_GO, 1), (CAN_STAT_STATE 0, 4)] with ps := { ({} : PsReq) with target := 3 } }, by decide +kernel⟩,
   ⟨{ up [(PST_PSSTAT_PHASE, 2), (PST_PSCTL_GO, 1), (CAN_STAT_STATE 0, 4), (CFG_STATUS_LOADED, 1), (USB_STAT_PULLUP, 1)] with ps := { ({} : PsReq) with target := 4 }, dram := [(3, 4)] }, by decide +kernel⟩,
   ⟨up [], by decide +kernel⟩⟩

theorem test_WakingAndReturning_hyps :
    (∃ (k : WakeSrc) (s : State), 3 ≤ s.rd PST_PSSTAT_STATE ∧ s.rd PST_PSSTAT_PHASE ≠ 3 ∧ wakeEnabled s k.val = true) ∧
    (∃ (k : WakeSrc) (s : State), 3 ≤ s.rd PST_PSSTAT_STATE ∧ s.rd PST_PSSTAT_PHASE ≠ 3 ∧ wakeEnabled s k.val = false) ∧
    (∃ (k : WakeSrc) (s : State), (s.rd PST_PSSTAT_STATE = 1 ∨ s.rd PST_PSSTAT_STATE = 2) ∧ s.rd PST_PSSTAT_PHASE = 0 ∧ k.val ≠ 4 ∧ k.val ≠ 5) ∧
    (∃ (k : WakeSrc) (s : State), s.rd PST_PSSTAT_STATE < 3 ∧ s.rd PST_PSSTAT_PHASE = 0 ∧ (k.val = 4 ∨ k.val = 5)) ∧
    (∃ (k : WakeSrc) (s : State), s.rd PST_PSSTAT_STATE < 3 ∧ s.rd PST_PSSTAT_PHASE = 1 ∧ wakeEnabled s k.val = true) ∧
    (∃ s : State, s.rd PST_PSSTAT_PHASE = 3 ∧ s.rd PST_PSSTAT_STATE = 3 ∧ s.ps.step = 1) ∧
    (∃ (s : State) (n : _), s.rd PST_PSSTAT_PHASE = 3 ∧ s.rd PST_PSSTAT_STATE = 3 ∧ (n = 2 ∨ n = 3) ∧ s.ps.step = n) ∧
    (∃ s : State, s.rd PST_PSSTAT_PHASE = 3 ∧ s.rd PST_PSSTAT_STATE = 3 ∧ s.ps.step = 4 ∧ s.kv.waiting = []) ∧
    (∃ s : State, s.rd PST_PSSTAT_PHASE = 3 ∧ s.rd PST_PSSTAT_STATE = 4 ∧ s.ps.step = 1 ∧ s.bt.corePg = true) ∧
    (∃ s : State, s.rd PST_PSSTAT_PHASE = 3 ∧ s.rd PST_PSSTAT_STATE = 4 ∧ s.ps.step = 2) ∧
    (∃ s : State, s.rd PST_PSSTAT_PHASE = 3 ∧ s.rd PST_PSSTAT_STATE = 4 ∧ s.ps.step = 4 ∧ s.on SYS_STAGE_FWRDY = true ∧ s.kv.waiting = []) ∧
    (∃ s : State, s.rd PST_PSSTAT_PHASE = 3 ∧ s.rd PST_PSSTAT_STATE = 4 ∧ s.ps.step = 4 ∧ s.on SYS_STAGE_FWRDY = false) ∧
    (∃ s : State, s.rd PST_PSSTAT_PHASE = 3) ∧
    (∃ s : State, s.rd PST_PSSTAT_PHASE ≠ 3) ∧
    (∃ s : State, s.rd PST_PSSTAT_PHASE ≠ 3) ∧
    (∃ (e : BtnPort) (s : State), isButton s e.val = true ∧ s.rd PST_PSSTAT_STATE < 3 ∧ s.rd PST_PSSTAT_PHASE = 0) ∧
    (∃ (e : BtnPort) (s : State), isButton s e.val = true ∧ 3 ≤ s.rd PST_PSSTAT_STATE ∧ s.rd PST_PSSTAT_PHASE = 0 ∧ wakeEnabled s (4 + e.val) = true) ∧
    (∃ (e : BtnPort) (s : State), isButton s e.val = true ∧ 3 ≤ s.rd PST_PSSTAT_STATE ∧ s.rd PST_PSSTAT_PHASE = 0 ∧ wakeEnabled s (4 + e.val) = false) ∧
    (∃ (e : BtnPort) (s : State), isButton s e.val = false) ∧
    (∃ (p : Port) (s : State), (s.rd PST_PSSTAT_STATE = 1 ∨ s.rd PST_PSSTAT_STATE = 2) ∧ s.rd (ADP_STAT_STATE p.val) = 2 ∧ (s.rd (ADP_STAT_PERS p.val) = 1 ∨ persUsb (s.rd (ADP_STAT_PERS p.val)) = true)) ∧
    (∃ (p : Port) (s : State), s.rd PST_PSSTAT_STATE = 0 ∨ 3 ≤ s.rd PST_PSSTAT_STATE ∨ s.rd (ADP_STAT_STATE p.val) ≠ 2) :=
  ⟨⟨0, up [(PST_PSSTAT_STATE, 3)], by decide +kernel⟩,
   ⟨6, up [(PST_PSSTAT_STATE, 3)], by decide +kernel⟩,
   ⟨0, up [(PST_PSSTAT_STATE, 1), (PST_PSCTL_GO, 1)], by decide +kernel⟩,
   ⟨4, up [], by decide +kernel⟩,
   ⟨7, { up [(PST_PSSTAT_PHASE, 1)] with ps := { ({} : PsReq) with target := 2, waiting := [3] } }, by decide +kernel⟩,
   ⟨{ up [(PST_PSSTAT_STATE, 3), (PST_PSSTAT_PHASE, 3)] with ps := { ({} : PsReq) with step := 1 } }, by decide +kernel⟩,
   ⟨{ up [(PST_PSSTAT_STATE, 3), (PST_PSSTAT_PHASE, 3)] with ps := { ({} : PsReq) with step := 2 }, pw := { ({} : Power) with stopped := true } }, 2, by decide +kernel⟩,
   ⟨{ up [(PST_PSSTAT_STATE, 3), (PST_PSSTAT_PHASE, 3), (SYS_STAGE_FWRDY, 0)] with ps := { ({} : PsReq) with step := 4 }, clock := 5000000, bt := { (up []).bt with released := 3 } }, by decide +kernel⟩,
   ⟨{ up [(PST_PSSTAT_STATE, 4), (PST_PSSTAT_PHASE, 3)] with ps := { ({} : PsReq) with step := 1 }, bt := { released := 1, corePg := true } }, by decide +kernel⟩,
   ⟨{ up [(PST_PSSTAT_STATE, 4), (PST_PSSTAT_PHASE, 3)] with ps := { ({} : PsReq) with step := 2 }, bt := { released := 1, corePg := true } }, by decide +kernel⟩,
   ⟨{ up [(PST_PSSTAT_STATE, 4), (PST_PSSTAT_PHASE, 3)] with ps := { ({} : PsReq) with step := 4 }, clock := 99999 }, by decide +kernel⟩,
   ⟨{ up [(PST_PSSTAT_STATE, 4), (PST_PSSTAT_PHASE, 3), (SYS_STAGE_FWRDY, 0)] with ps := { ({} : PsReq) with step := 4 } }, by decide +kernel⟩,
   ⟨{ up [(PST_PSSTAT_STATE, 4), (PST_PSSTAT_PHASE, 3)] with ps := { ({} : PsReq) with step := 4 } }, by decide +kernel⟩,
   ⟨up [], by decide +kernel⟩,
   ⟨up [], by decide +kernel⟩,
   ⟨0, { up [] with bt := { (up []).bt with pinFns := List.replicate 15 0 ++ [0x30, 0x31] } }, by decide +kernel⟩,
   ⟨0, { up [(PST_PSSTAT_STATE, 3), (PST_WAKEEN_EN, 0x10)] with bt := { (up []).bt with pinFns := List.replicate 15 0 ++ [0x30, 0x31] } }, by decide +kernel⟩,
   ⟨0, { up [(PST_PSSTAT_STATE, 3), (PST_WAKEEN_EN, 0)] with bt := { (up []).bt with pinFns := List.replicate 15 0 ++ [0x30, 0x31] } }, by decide +kernel⟩,
   ⟨0, up [], by decide +kernel⟩,
   ⟨12, up [(PST_PSSTAT_STATE, 1), (ADP_STAT_STATE 12, 2), (ADP_STAT_PERS 12, 1)], by decide +kernel⟩,
   ⟨12, up [], by decide +kernel⟩⟩

theorem test_PortsAttachAndDetach_hyps :
    (∃ (p : CanPort) (s : State), s.rd (PD_STAT_CCST p.val) < 2 ∧ (s.pdp p.val).waitVbus = false ∧ maySource s p.val = true) ∧
    (∃ (p : CanPort) (s : State), s.rd (PD_STAT_CCST p.val) < 2 ∧ (s.pdp p.val).waitVbus = false ∧ maySink s p.val = true) ∧
    (∃ (p : CanPort) (s : State), maySource s p.val = false) ∧
    (∃ (p : CanPort) (s : State), maySink s p.val = false) ∧
    (∃ (p : CanPort) (s : State), 2 ≤ s.rd (PD_STAT_CCST p.val) ∨ (s.pdp p.val).waitVbus = true) ∧
    (∃ (p : CanPort) (s : State), asSource s p.val = true) ∧
    (∃ (p : CanPort) (s : State), asSource s p.val = false) ∧
    (∃ (p : CanPort) (s : State), asSink s p.val = true ∧ (s.pdp p.val).own ≠ 2 ∧ (crownActive s ≠ some p.val ∨ anyFeed s = true ∨ asSink s (1 - p.val) = true)) ∧
    (∃ (p : CanPort) (s : State), asSink s p.val = true ∧ (s.pdp p.val).own ≠ 2 ∧ crownActive s = some p.val ∧ anyFeed s = false ∧ asSink s (1 - p.val) = false) ∧
    (∃ (p : CanPort) (s : State), (s.pdp p.val).own = 2 ∨ asSink s p.val = false) ∧
    (∃ (p : CanPort) (s : State), s.rd (PD_STAT_CCST p.val) < 2 ∧ (s.pdp p.val).waitVbus = false) ∧
    (∃ (p : CanPort) (s : State), s.rd (PD_STAT_CCST p.val) = 2) ∧
    (∃ (p : CanPort) (s : State), 3 ≤ s.rd (PD_STAT_CCST p.val)) ∧
    (∃ (p : CanPort) (s : State), s.rd (PD_STAT_CCST p.val) = 4) ∧
    (∃ (p : CanPort) (s : State), s.rd (PD_STAT_CCST p.val) ≠ 4) ∧
    (∃ (p : CanPort) (s : State), maySink s p.val = true ∧ s.rd (PD_STAT_CCST p.val) = 0 ∧ anyFeed s = true ∧ (s.pdp p.val).waitVbus = false) :=
  ⟨⟨0, { up [(PP_FEED_QUALA, 1), (PD_GLOB_FWPOL, 1)] with pw := { ({} : Power) with leased := true } }, by decide +kernel⟩,
   ⟨0, up [], by decide +kernel⟩,
   ⟨3, (up []).wr SYS_STAGE_FWRDY 0, by decide +kernel⟩,
   ⟨2, up [], by decide +kernel⟩,
   ⟨0, up [(PD_STAT_CCST 0, 2)], by decide +kernel⟩,
   ⟨0, up [(PD_STAT_CCST 0, 2), (PD_CV_CVEN 0, 1), (PD_STAT_CONTR 0, 2), (PC_STAT_STATE 2, 3)], by decide +kernel⟩,
   ⟨0, up [(PD_STAT_CCST 0, 3)], by decide +kernel⟩,
   ⟨0, up [(PD_STAT_CCST 0, 3), (PD_STAT_CONTR 0, 2)], by decide +kernel⟩,
   ⟨1, up [(PD_STAT_CCST 1, 3), (PD_STAT_CONTR 1, 2), (PC_STAT_STATE 3, 3), (PC_STAT_REV 3, 1), (PP_FEED_ACTIVE, 3)], by decide +kernel⟩,
   ⟨1, { up [(PD_STAT_CCST 1, 3)] with pd := [(1, { own := 2 })] }, by decide +kernel⟩,
   ⟨1, up [], by decide +kernel⟩,
   ⟨1, { up [(PD_STAT_CCST 1, 2), (PD_STAT_CONTR 1, 2), (PD_CV_STATE 1, 1)] with pd := [(1, { holding := true })] }, by decide +kernel⟩,
   ⟨1, up [(PD_STAT_CCST 1, 3)], by decide +kernel⟩,
   ⟨1, up [(PD_STAT_CCST 1, 4)], by decide +kernel⟩,
   ⟨1, up [], by decide +kernel⟩,
   ⟨1, up [(PP_FEED_QUALB, 1)], by decide +kernel⟩⟩

theorem test_ContractsAreMade_hyps :
    (∃ (p : CanPort) (s : State), asSink s p.val = true ∧ s.on PD_GLOB_FWPOL = false) ∧
    (∃ (p : CanPort) (s : State), asSink s p.val = true ∧ s.on PD_GLOB_FWPOL = true ∧ s.on SYS_STAGE_FWRDY = true) ∧
    (∃ (p : CanPort) (s : State), asSink s p.val = true ∧ s.on PD_GLOB_FWPOL = true ∧ s.on SYS_STAGE_FWRDY = false) ∧
    (∃ (p : CanPort) (s : State), asSink s p.val = false) ∧
    (∃ (p : CanPort) (n : Nat) (rdo : Word) (s : State), asSink s p.val = true ∧ (s.pdp p.val).moving = some (n, rdo)) ∧
    (∃ (p : CanPort) (s : State), (s.pdp p.val).moving = none) ∧
    (∃ (p : CanPort) (s : State), (s.pdp p.val).moving = none) ∧
    (∃ (p : CanPort) (s : State), (s.pdp p.val).moving = none) ∧
    (∃ (p : CanPort) (rdo : Word) (s : State), asSource s p.val = true ∧ (s.pdp p.val).own = 0 ∧ policyAbsent s = false ∧ requestOk (s.pdp p.val).offer rdo.toNat = true) ∧
    (∃ (p : CanPort) (rdo : Word) (s : State), asSource s p.val = true ∧ (s.pdp p.val).own = 0 ∧ policyAbsent s = false ∧ requestOk (s.pdp p.val).offer rdo.toNat = false) ∧
    (∃ (p : CanPort) (s : State), asSource s p.val = true ∧ (s.pdp p.val).own = 0 ∧ policyAbsent s = true) ∧
    (∃ (p : CanPort) (s : State), asSource s p.val = true ∧ (s.pdp p.val).own ≠ 0) ∧
    (∃ (p : CanPort) (s : State), asSource s p.val = false) ∧
    (∃ (p : CanPort) (m : Nat) (s : State), m < 4096 ∧ s.on (PD_CV_CVEN p.val) = false) ∧
    (∃ (p : CanPort) (m : Nat) (s : State) (n : _) (rdo : _), m < 4096 ∧ s.on (PD_CV_CVEN p.val) = true ∧ (s.pdp p.val).holding = false ∧ (s.pdp p.val).moving = some (n, rdo) ∧ (s.pdp p.val).rampAt ≤ s.clock) ∧
    (∃ (p : CanPort) (m : Nat) (s : State), m < 4096 ∧ s.on (PD_CV_CVEN p.val) = true ∧ ((s.pdp p.val).holding = true ∨ (s.pdp p.val).moving = none ∨ s.clock < (s.pdp p.val).rampAt)) ∧
    (∃ (p : CanPort) (n : Nat) (rdo : Word) (s : State), asSource s p.val = true ∧ (s.pdp p.val).moving = some (n, rdo) ∧ (s.pdp p.val).pos = 40 * n ∧ (s.pdp p.val).holding = false ∧ (s.pdp p.val).revokeDue = false) :=
  ⟨⟨0, up [(PD_STAT_CCST 0, 3), (PD_STAT_RPLVL 0, 2)], by decide +kernel⟩,
   ⟨0, up [(PD_STAT_CCST 0, 3), (PD_STAT_RPLVL 0, 2), (PD_GLOB_FWPOL, 1)], by decide +kernel⟩,
   ⟨0, (up [(PD_STAT_CCST 0, 3), (PD_STAT_RPLVL 0, 2), (PD_GLOB_FWPOL, 1)]).wr SYS_STAGE_FWRDY 0, by decide +kernel⟩,
   ⟨0, up [], by decide +kernel⟩,
   ⟨0, 5, 0x1004B12C, { up [(PD_STAT_CCST 0, 3)] with pd := [(0, { moving := some (5, 0x1004B12C), offer := [102700], hards := 2 })] }, by decide +kernel⟩,
   ⟨0, up [(PD_STAT_CCST 0, 3)], by decide +kernel⟩,
   ⟨0, up [(PD_STAT_CCST 0, 2)], by decide +kernel⟩,
   ⟨0, up [(PD_STAT_CCST 0, 2)], by decide +kernel⟩,
   ⟨3, 0x1004B12C, { up [(PD_STAT_CCST 3, 2)] with pd := [(3, { offer := [102700] })] }, by decide +kernel⟩,
   ⟨3, 0x2004B12C, { up [(PD_STAT_CCST 3, 2)] with pd := [(3, { offer := [102700] })] }, by decide +kernel⟩,
   ⟨3, { (up [(PD_STAT_CCST 3, 2), (PD_GLOB_FWPOL, 1)]).wr SYS_STAGE_FWRDY 0 with pd := [(3, { offer := [102700] })] }, by decide +kernel⟩,
   ⟨3, { up [(PD_STAT_CCST 3, 2), (PD_CNT_COLL 3, 255)] with pd := [(3, { offer := [102700], own := 1 })] }, by decide +kernel⟩,
   ⟨3, up [], by decide +kernel⟩,
   ⟨3, 4095, up [], by decide +kernel⟩,
   ⟨3, 4095, { up [(PD_CV_CVEN 3, 1)] with pd := [(3, { offer := [102700], moving := some (450, 0x1004B12C), pos := 10000 })] }, 450, 0x1004B12C, by decide +kernel⟩,
   ⟨3, 0, { up [(PD_CV_CVEN 3, 1)] with pd := [(3, { offer := [102700], moving := some (450, 0x1004B12C), holding := true })] }, by decide +kernel⟩,
   ⟨3, 250, 0x1004B12C, { up [(PD_STAT_CCST 3, 2), (PD_CV_CVEN 3, 1)] with pd := [(3, { offer := [102700], moving := some (250, 0x1004B12C), pos := 10000 })] }, by decide +kernel⟩⟩

theorem test_HardResetsAndCurrentLimits_hyps :
    (∃ (p : CanPort) (s : State), (asSource s p.val = true ∨ asSink s p.val = true) ∧ (s.pdp p.val).revokeDue = false ∧ (s.pdp p.val).hards < 3) ∧
    (∃ (p : CanPort) (s : State), (asSource s p.val = true ∨ asSink s p.val = true) ∧ (s.pdp p.val).revokeDue = false ∧ 3 ≤ (s.pdp p.val).hards) ∧
    (∃ (p : CanPort) (n : Nat) (rdo : Word) (s : State), asSource s p.val = true ∧ (s.pdp p.val).moving = some (n, rdo) ∧ (s.pdp p.val).revokeDue = false ∧ (s.pdp p.val).hards < 3) ∧
    (∃ (p : CanPort) (s : State), asSource s p.val = true ∧ (s.pdp p.val).moving ≠ none ∧ (s.pdp p.val).revokeDue = false ∧ 3 ≤ (s.pdp p.val).hards) ∧
    (∃ (p : CanPort) (s : State), asSource s p.val = false) ∧
    (∃ (p : CanPort) (s : State), asSource s p.val = true ∧ (s.pdp p.val).hards < 3 ∧ s.rd (PD_STAT_CONTR p.val) = 3) ∧
    (∃ (p : CanPort) (s : State), asSource s p.val = true ∧ (s.pdp p.val).hards < 3 ∧ s.rd (PD_STAT_CONTR p.val) ≠ 3) ∧
    (∃ (p : CanPort) (s : State), asSource s p.val = true ∧ (s.pdp p.val).hards < 3 ∧ s.rd (PD_STAT_CONTR p.val) = 4) ∧
    (∃ (p : CanPort) (s : State), asSource s p.val = true ∧ (s.pdp p.val).hards < 3 ∧ s.rd (PD_STAT_CONTR p.val) ≠ 4) ∧
    (∃ (p : CanPort) (s : State), asSource s p.val = true ∧ s.rd (PD_STAT_CONTR p.val) = 3 ∧ (s.pdp p.val).moving = none ∧ (s.pdp p.val).holding = false ∧ 5 * bits (objectAt (s.pdp p.val).offer (bits (s.rd (PD_RDO_RDO p.val)) 31 28)) 15 8 < s.rd (PD_VBUS_TARGET p.val)) ∧
    (∃ (p : CanPort) (s : State), asSource s p.val = true ∧ s.rd (PD_STAT_CONTR p.val) = 3 ∧ (s.pdp p.val).moving = none ∧ (s.pdp p.val).holding = false ∧ s.rd (PD_VBUS_TARGET p.val) ≤ 5 * bits (objectAt (s.pdp p.val).offer (bits (s.rd (PD_RDO_RDO p.val)) 31 28)) 15 8) ∧
    (∃ (p : CanPort) (s : State), asSource s p.val = true ∧ s.rd (PD_STAT_CONTR p.val) = 3 ∧ (s.pdp p.val).moving = none ∧ (s.pdp p.val).holding = false ∧ s.rd (PD_VBUS_TARGET p.val) < (requested (s.pdp p.val).offer (s.rd (PD_RDO_RDO p.val))).1 / 20 ∧ s.rd (PD_VBUS_TARGET p.val) < 4095) ∧
    (∃ (p : CanPort) (s : State), asSource s p.val = true ∧ s.rd (PD_STAT_CONTR p.val) = 3 ∧ (s.pdp p.val).moving = none ∧ (s.pdp p.val).holding = false ∧ (requested (s.pdp p.val).offer (s.rd (PD_RDO_RDO p.val))).1 / 20 ≤ s.rd (PD_VBUS_TARGET p.val)) :=
  ⟨⟨0, { up [(PD_STAT_CCST 0, 2), (PD_STAT_CONTR 0, 4), (PD_VBUS_TARGET 0, 1000)] with pd := [(0, { offer := [102700], moving := some (1400, 5), pos := 40000, hards := 2 })] }, by decide +kernel⟩,
   ⟨0, { up [(PD_STAT_CCST 0, 2)] with pd := [(0, { hards := 3 })] }, by decide +kernel⟩,
   ⟨0, 1400, 5, { up [(PD_STAT_CCST 0, 2), (PD_STAT_CONTR 0, 4), (PD_VBUS_TARGET 0, 1000)] with pd := [(0, { offer := [102700], moving := some (1400, 5), pos := 40000, hards := 2 })] }, by decide +kernel⟩,
   ⟨0, { up [(PD_STAT_CCST 0, 2)] with pd := [(0, { hards := 3, moving := some (450, 5) })] }, by decide +kernel⟩,
   ⟨7, up [(PD_STAT_CCST 7, 3), (PD_STAT_CONTR 7, 4)], by decide +kernel⟩,
   ⟨7, up [(PD_STAT_CCST 7, 2), (PD_STAT_CONTR 7, 3)], by decide +kernel⟩,
   ⟨7, up [(PD_STAT_CCST 7, 2), (PD_STAT_CONTR 7, 4)], by decide +kernel⟩,
   ⟨7, up [(PD_STAT_CCST 7, 2), (PD_STAT_CONTR 7, 4)], by decide +kernel⟩,
   ⟨7, up [(PD_STAT_CCST 7, 2), (PD_STAT_CONTR 7, 3)], by decide +kernel⟩,
   ⟨7, { up [(PD_STAT_CCST 7, 2), (PD_STAT_CONTR 7, 3), (PD_RDO_RDO 7, 0x200FA13C)] with pd := [(7, { offer := [102700, 0xC0000000 + (110 * 0x20000) + 33 * 256 + 60] })] }, by decide +kernel⟩,
   ⟨7, { up [(PD_STAT_CCST 7, 2), (PD_STAT_CONTR 7, 3), (PD_RDO_RDO 7, 0x200FA13C), (PD_VBUS_TARGET 7, 165)] with pd := [(7, { offer := [102700, 0xC0000000 + (110 * 0x20000) + 33 * 256 + 60] })] }, by decide +kernel⟩,
   ⟨7, { up [(PD_STAT_CCST 7, 2), (PD_STAT_CONTR 7, 3), (PD_RDO_RDO 7, 0x200FA13C), (PD_VBUS_TARGET 7, 249)] with pd := [(7, { offer := [102700, 0xC0000000 + (110 * 0x20000) + 33 * 256 + 60] })] }, by decide +kernel⟩,
   ⟨7, { up [(PD_STAT_CCST 7, 2), (PD_STAT_CONTR 7, 3), (PD_RDO_RDO 7, 0x200FA13C), (PD_VBUS_TARGET 7, 4095)] with pd := [(7, { offer := [102700, 0xC0000000 + (110 * 0x20000) + 33 * 256 + 60] })] }, by decide +kernel⟩⟩

theorem test_SwapsAndModes_hyps :
    (∃ (p : CanPort) (s : State), attached s p.val = true ∧ (s.pdp p.val).own = 0 ∧ p.val < 2 ∧ s.rd (PD_STAT_DROLE p.val) ≠ b2n (isDown s p.val)) ∧
    (∃ (p : CanPort) (s : State), attached s p.val = true ∧ (s.pdp p.val).own = 0 ∧ (2 ≤ p.val ∨ s.rd (PD_STAT_DROLE p.val) = b2n (isDown s p.val))) ∧
    (∃ (p : CanPort) (s : State), attached s p.val = true ∧ (s.pdp p.val).own = 0) ∧
    (∃ (p : CanPort) (s : State), attached s p.val = true ∧ (s.pdp p.val).own = 1) ∧
    (∃ (p : CanPort) (s : State), attached s p.val = true ∧ (s.pdp p.val).own = 1) ∧
    (∃ (p : CanPort) (s : State), asSource s p.val = true ∧ (s.pdp p.val).own ≠ 0) ∧
    (∃ (p : CanPort) (s : State), attached s p.val = true ∧ (s.pdp p.val).own = 0 ∧ policyAbsent s = false ∧ maySink s p.val = true ∧ asSource s p.val = true) ∧
    (∃ (p : CanPort) (s : State), attached s p.val = true ∧ (s.pdp p.val).own = 0 ∧ policyAbsent s = false ∧ maySink s p.val = true ∧ asSink s p.val = true ∧ anyFeed s = true) ∧
    (∃ (p : CanPort) (s : State), attached s p.val = true ∧ (s.pdp p.val).own = 0 ∧ policyAbsent s = false ∧ (maySink s p.val = false ∨ asSink s p.val = true ∧ anyFeed s = false)) ∧
    (∃ (p : CanPort) (s : State), asSource s p.val = true ∧ (s.pdp p.val).own = 2) ∧
    (∃ (p : CanPort) (s : State), asSink s p.val = true ∧ (s.pdp p.val).own = 2) ∧
    (∃ (p : CanPort) (s : State), attached s p.val = true ∧ (s.on (PD_STAT_VCONN p.val) = true ∨ asSource s p.val = true)) ∧
    (∃ (p : CanPort) (s : State), attached s p.val = true ∧ s.on (PD_STAT_VCONN p.val) = false ∧ asSource s p.val = false) ∧
    (∃ (p : CanPort) (s : State), announces s p.val = true) ∧
    (∃ (p : CanPort) (s : State), announces s p.val = true ∧ (s.can p.val).failed = false ∧ s.on KEY_VAULT_HALT = false) ∧
    (∃ (p : CanPort) (s : State), announces s p.val = false) ∧
    (∃ (p : CanPort) (s : State), p.val < 2 ∧ isDown s p.val = false ∧ bit (portModes s p.val) 1 = true ∧ attached s p.val = true ∧ (s.can p.val).entered ≠ 2 ∧ ((s.can p.val).entered = 1 → (s.can p.val).failed = true)) ∧
    (∃ (p : CanPort) (m : Fin 8) (s : State), m.val ≠ 2 ∨ 2 ≤ p.val ∨ attached s p.val = false) :=
  ⟨⟨0, up [(PD_STAT_CCST 0, 3), (PD_STAT_DROLE 0, 1)], by decide +kernel⟩,
   ⟨7, up [(PD_STAT_CCST 7, 2), (PD_STAT_DROLE 7, 1)], by decide +kernel⟩,
   ⟨7, up [(PD_STAT_CCST 7, 2), (PD_STAT_DROLE 7, 1)], by decide +kernel⟩,
   ⟨0, { up [(PD_STAT_CCST 0, 3), (PD_STAT_DROLE 0, 1)] with pd := [(0, { own := 1 })] }, by decide +kernel⟩,
   ⟨0, { up [(PD_STAT_CCST 0, 3), (PD_STAT_DROLE 0, 1)] with pd := [(0, { own := 1 })] }, by decide +kernel⟩,
   ⟨2, { up [(PD_STAT_CCST 2, 2)] with pd := [(2, { own := 1 })] }, by decide +kernel⟩,
   ⟨0, up [(PD_STAT_CCST 0, 2), (PD_STAT_PROLE 0, 1), (PD_CV_CVEN 0, 1), (PC_STAT_STATE 2, 3)], by decide +kernel⟩,
   ⟨0, up [(PD_STAT_CCST 0, 3), (PP_FEED_QUALA, 1)], by decide +kernel⟩,
   ⟨2, up [(PD_STAT_CCST 2, 2)], by decide +kernel⟩,
   ⟨0, { up [(PD_STAT_CCST 0, 2), (PD_STAT_PROLE 0, 1)] with pd := [(0, { own := 2 })] }, by decide +kernel⟩,
   ⟨0, { up [(PD_STAT_CCST 0, 3), (PD_STAT_PROLE 0, 0)] with pd := [(0, { own := 2 })] }, by decide +kernel⟩,
   ⟨0, up [(PD_STAT_CCST 0, 2)], by decide +kernel⟩,
   ⟨0, up [(PD_STAT_CCST 0, 3)], by decide +kernel⟩,
   ⟨0, withImg (ports [(0, 1, 3, 0)]) (up [(PD_STAT_CCST 0, 3)]), by decide +kernel⟩,
   ⟨0, withImg (ports [(0, 1, 3, 0)]) (up [(PD_STAT_CCST 0, 3)]), by decide +kernel⟩,
   ⟨0, up [], by decide +kernel⟩,
   ⟨0, withImg (ports [(0, 1, 3, 0)]) (up [(PD_STAT_CCST 0, 3)]), by decide +kernel⟩,
   ⟨0, 3, up [(PD_STAT_CCST 0, 3)], by decide +kernel⟩⟩

theorem test_ChannelsCloseAndQualify_hyps :
    (∃ (n : Channel) (s : State), s.rd (PC_STAT_STATE n.val) = 1) ∧
    (∃ (n : Channel) (s : State), s.rd (PC_STAT_STATE n.val) ≠ 1) ∧
    (∃ (n : Channel) (s : State), s.rd (PC_STAT_STATE n.val) = 2) ∧
    (∃ (n : Channel) (s : State), s.rd (PC_STAT_STATE n.val) ≠ 2) ∧
    (∃ (n : Channel) (s : State), s.on (PC_STAT_PG n.val) = true) ∧
    (∃ (n : Channel) (s : State), s.on (PC_STAT_PG n.val) = false) ∧
    (∃ (n : Channel) (s : State), pathClosed s n.val = true) ∧
    (∃ (n : Channel) (s : State), pathClosed s n.val = false) ∧
    (∃ (n : Channel) (s : State), s.rd (PC_STAT_STATE n.val) = 4) ∧
    (∃ (n : Channel) (s : State), s.rd (PC_STAT_STATE n.val) ≠ 4) ∧
    (∃ (n : Channel) (s : State), s.rd (PC_STAT_STATE n.val) ≠ 4) ∧
    (∃ (n : Channel) (s : State), s.rd (PC_STAT_STATE n.val) = 5 ∧ n.val < 2 ∧ s.rd PP_FEED_ACTIVE = 0 ∧ s.pw.dead = none ∧ s.on (if n.val = 0 then PP_FEED_QUALA else PP_FEED_QUALB) = true) ∧
    (∃ (n : Channel) (s : State), s.rd (PC_STAT_STATE n.val) = 5 ∧ 2 ≤ n.val ∧ asSource s (n.val - 2) = true ∧ (s.pdp (n.val - 2)).erDue = false) ∧
    (∃ (n : Channel) (s : State), s.rd (PC_STAT_STATE n.val) = 5 ∧ 2 ≤ n.val ∧ asSink s (n.val - 2) = true ∧ (s.pdp (n.val - 2)).erDue = false ∧ s.rd PP_FEED_ACTIVE = 0 ∧ s.pw.dead = none ∧ anyFeed s = false) ∧
    (∃ (n : Channel) (s : State), s.rd (PC_STAT_STATE n.val) = 5 ∧ 2 ≤ n.val ∧ asSource s (n.val - 2) = true ∧ (s.pdp (n.val - 2)).erDue = true) ∧
    (∃ (n : Channel) (s : State), s.rd (PC_STAT_STATE n.val) ≠ 5) :=
  ⟨⟨0, up [(PC_STAT_STATE 0, 1)], by decide +kernel⟩,
   ⟨9, up [], by decide +kernel⟩,
   ⟨0, up [(PC_STAT_STATE 0, 2), (PP_FEED_WARN, 1), (PP_FEED_ACTIVE, 1)], by decide +kernel⟩,
   ⟨9, up [], by decide +kernel⟩,
   ⟨9, up [(PC_STAT_PG 9, 1), (PC_STAT_ATTEMPT 9, 3)], by decide +kernel⟩,
   ⟨9, up [], by decide +kernel⟩,
   ⟨9, up [(PC_STAT_STATE 9, 1)], by decide +kernel⟩,
   ⟨9, up [], by decide +kernel⟩,
   ⟨9, up [(PC_STAT_STATE 9, 4)], by decide +kernel⟩,
   ⟨9, up [], by decide +kernel⟩,
   ⟨9, up [], by decide +kernel⟩,
   ⟨1, up [(PC_STAT_STATE 1, 5), (PP_FEED_QUALB, 1)], by decide +kernel⟩,
   ⟨9, up [(PC_STAT_STATE 9, 5), (PD_STAT_CCST 7, 2)], by decide +kernel⟩,
   ⟨9, up [(PC_STAT_STATE 9, 5), (PD_STAT_CCST 7, 3)], by decide +kernel⟩,
   ⟨9, { up [(PC_STAT_STATE 9, 5), (PD_STAT_CCST 7, 2)] with pd := [(7, { erDue := true })] }, by decide +kernel⟩,
   ⟨9, up [], by decide +kernel⟩⟩

theorem test_TripsOpenTheChannel_hyps :
    (∃ (n : Channel) (s : State) (c : Instr) (k : Nat) (f : Fld), (c = .shortCircuit n ∧ k = 1 ∧ f = PC_CNT_SC n.val ∨ c = .faultTimer n ∧ s.rd (PC_STAT_STATE n.val) = 4 ∧ k = 2 ∧ f = PC_CNT_OC n.val ∨ c = .reverseCurrent n ∧ k = 4 ∧ f = PC_CNT_UV n.val ∨ c = .undervoltage n ∧ k = 3 ∧ f = PC_CNT_UV n.val ∧ (n.val < 2 ∨ s.on (PC_STAT_PG n.val) = true ∧ s.on (PC_STAT_REV n.val) = false ∧ (s.pdp (n.val - 2)).moving = none)) ∧ pathClosed s n.val = true) ∧
    (∃ (n : Channel) (s : State) (c : Instr) (k : Nat) (f : Fld), (c = .shortCircuit n ∧ k = 1 ∧ f = PC_CNT_SC n.val ∨ c = .faultTimer n ∧ s.rd (PC_STAT_STATE n.val) = 4 ∧ k = 2 ∧ f = PC_CNT_OC n.val ∨ c = .reverseCurrent n ∧ k = 4 ∧ f = PC_CNT_UV n.val ∨ c = .undervoltage n ∧ k = 3 ∧ f = PC_CNT_UV n.val ∧ (n.val < 2 ∨ s.on (PC_STAT_PG n.val) = true ∧ s.on (PC_STAT_REV n.val) = false ∧ (s.pdp (n.val - 2)).moving = none)) ∧ pathClosed s n.val = false) ∧
    (∃ (n : Channel) (s : State), 2 ≤ n.val ∧ (s.on (PC_STAT_PG n.val) = false ∨ s.on (PC_STAT_REV n.val) = true ∨ (s.pdp (n.val - 2)).moving ≠ none)) :=
  ⟨⟨9, up [(PC_STAT_STATE 9, 3), (PC_STAT_PG 9, 1), (PD_STAT_CCST 7, 2), (PD_STAT_CONTR 7, 2), (PST_LEASE_MW 9, 15000)], .shortCircuit 9, 1, PC_CNT_SC 9, by decide +kernel⟩,
   ⟨9, up [], .shortCircuit 9, 1, PC_CNT_SC 9, by decide +kernel⟩,
   ⟨4, up [], by decide +kernel⟩⟩

theorem test_FeedsChangeOver_hyps :
    (∃ (b : Bool) (s : State), s.on (if b then PP_FEED_QUALB else PP_FEED_QUALA) = false ∧ 1 ≤ s.bt.released ∧ s.rd (PC_STAT_STATE (b2n b)) < 5 ∧ s.rd PP_FEED_ACTIVE = 0 ∧ s.pw.dead = none) ∧
    (∃ (b : Bool) (s : State), s.on (if b then PP_FEED_QUALB else PP_FEED_QUALA) = false ∧ 1 ≤ s.bt.released ∧ s.rd (PC_STAT_STATE (b2n b)) < 5 ∧ s.rd PP_FEED_ACTIVE = 3) ∧
    (∃ (b : Bool) (s : State), s.on (if b then PP_FEED_QUALB else PP_FEED_QUALA) = false ∧ s.bt.released = 0) ∧
    (∃ (b : Bool) (s : State), s.on (if b then PP_FEED_QUALB else PP_FEED_QUALA) = true) ∧
    (∃ (a : Nat) (s : State), s.rd PP_FEED_ACTIVE = a ∧ (a = 1 ∨ a = 2)) ∧
    (∃ (a : Nat) (s : State), s.rd PP_FEED_ACTIVE = a ∧ (a = 1 ∨ a = 2)) ∧
    (∃ s : State, s.rd PP_FEED_ACTIVE = 0 ∨ s.rd PP_FEED_ACTIVE = 3) ∧
    (∃ s : State, s.rd PP_FEED_ACTIVE = 0 ∨ s.rd PP_FEED_ACTIVE = 3) ∧
    (∃ s : State, s.rd PP_FEED_ACTIVE = 2 ∧ feedReady s 0 = true) ∧
    (∃ s : State, s.rd PP_FEED_ACTIVE ≠ 2 ∨ feedReady s 0 = false) ∧
    (∃ s : State, s.pw.dead = none) ∧
    (∃ (k a : Nat) (l : List Nat) (s : State), s.pw.dead = some k ∧ nextSupplies s k = a :: l) ∧
    (∃ (k : Nat) (s : State), s.pw.dead = some k ∧ nextSupplies s k = []) :=
  ⟨⟨false, up [(PD_GLOB_DBDENY, 1)], by decide +kernel⟩,
   ⟨false, up [(PP_FEED_ACTIVE, 3), (PC_STAT_STATE 2, 3), (PC_STAT_REV 2, 1), (PD_STAT_CCST 0, 3)], by decide +kernel⟩,
   ⟨false, { up [] with bt := { (up []).bt with released := 0, srcs := [.por] } }, by decide +kernel⟩,
   ⟨false, up [(PP_FEED_QUALA, 1)], by decide +kernel⟩,
   ⟨1, up [(PP_FEED_QUALA, 1), (PP_FEED_ACTIVE, 1), (PC_STAT_STATE 0, 3)], by decide +kernel⟩,
   ⟨1, up [(PP_FEED_QUALA, 1), (PP_FEED_ACTIVE, 1), (PC_STAT_STATE 0, 3)], by decide +kernel⟩,
   ⟨up [(PP_FEED_ACTIVE, 3)], by decide +kernel⟩,
   ⟨up [(PP_FEED_ACTIVE, 3)], by decide +kernel⟩,
   ⟨up [(PP_FEED_QUALB, 1), (PP_FEED_QUALA, 1), (PP_FEED_ACTIVE, 2), (PC_STAT_STATE 1, 3)], by decide +kernel⟩,
   ⟨up [(PP_FEED_QUALB, 1), (PP_FEED_QUALA, 1), (PP_FEED_ACTIVE, 2), (PC_STAT_STATE 1, 3), (PC_STAT_STATE 0, 5)], by decide +kernel⟩,
   ⟨up [], by decide +kernel⟩,
   ⟨1, 2, [], { up [(PP_FEED_QUALB, 1)] with pw := { ({} : Power) with dead := some 1 } }, by decide +kernel⟩,
   ⟨1, { up [(PC_STAT_STATE 4, 3), (PD_STAT_CCST 2, 2), (PC_STAT_STATE 2, 3)] with pw := { ({} : Power) with dead := some 1 } }, by decide +kernel⟩⟩

theorem test_LeasesAndMonitors_hyps :
    (∃ s : State, stewardUp s = true) ∧
    (∃ s : State, stewardUp s = false) ∧
    (∃ (p : CanPort) (s : State), (s.pdp p.val).overdrawn = true ∧ asSource s p.val = true ∧ (s.pdp p.val).hards < 3) ∧
    (∃ (p : CanPort) (s : State), (s.pdp p.val).overdrawn = false) ∧
    (∃ k : Byte, k.toNat < 8) ∧
    (∃ k : Byte, k.toNat < 8) ∧
    (∃ k : Byte, 8 ≤ k.toNat) :=
  ⟨⟨withImg (img [pwr]) (up []), by decide +kernel⟩,
   ⟨up [], by decide +kernel⟩,
   ⟨3, { up [(PD_STAT_CCST 3, 2), (PD_STAT_CONTR 3, 2)] with pd := [(3, { overdrawn := true })] }, by decide +kernel⟩,
   ⟨3, up [], by decide +kernel⟩,
   ⟨7, by decide +kernel⟩,
   ⟨7, by decide +kernel⟩,
   ⟨8, by decide +kernel⟩⟩

theorem test_RegisterWritesFollowTheirAccessCodes_hyps :
    (∃ (p : Path) (a v : Word) (r : RegId) (i j : Nat) (s : State), plainly s p (wordAddr a) ∧ wordAddr a ≠ 0x28 ∧ decodeFor p.idx (wordAddr a) = some (r, i, j) ∧ lacksPersonality s r i = false ∧ (∀ t, writeReg p r i j (wordAddr a) v.toNat t = wrWord (wordAddr a) v.toNat (regFields r i j) t)) ∧
    (∃ (p : Path) (a : Word) (s : State), scopeOf s p = .none ∨ scopeOf s p = .aon ∧ inAon (wordAddr a) = false ∨ scopeOf s p = .whole ∧ absentAddr (variant s) (wordAddr a) = true) ∧
    (∃ (p : Path) (a : Word) (s : State), scopeOf s p = .whole ∧ absentAddr (variant s) (wordAddr a) = false ∧ wordAddr a ≠ 0x28 ∧ lockedAddr s (wordAddr a) = true ∧ (decodeFor p.idx (wordAddr a)).isSome = true) ∧
    (∃ (p : Path) (a : Word) (s : State), scopeOf s p = .whole ∧ absentAddr (variant s) (wordAddr a) = false ∧ decodeFor p.idx (wordAddr a) = none ∧ reservedWord (wordAddr a) = false ∧ 4 ≤ s.bt.released) ∧
    (∃ (p : Path) (a : Word) (s : State), scopeOf s p = .whole ∧ absentAddr (variant s) (wordAddr a) = false ∧ decodeFor p.idx (wordAddr a) = none ∧ reservedWord (wordAddr a) = false ∧ 4 ≤ s.bt.released) :=
  ⟨⟨.usb, ad CFG_ENVERR_ERR, 0xFFFFFFFF, .CFG_ENVERR, 0, 0, up [(CFG_ENVERR_ERR, 1), (CFG_ENVERR_CLAMP, 1), (CFG_ENVERR_COUNT, 7)], ⟨by unfold writable; decide +kernel, fun _ _ => rfl⟩, by decide +kernel, by decide +kernel, by decide +kernel, fun _ => rfl⟩,
   ⟨.p43, 0x24, up [], by decide +kernel⟩,
   ⟨.usb, ad (LC_CTL_HOLD 4), { up [] with ld := { ({} : Loader) with lock := some 1 } }, by decide +kernel⟩,
   ⟨.usb, 0xFFFFFFF0, up [], by decide +kernel⟩,
   ⟨.usb, 0xFFFFFFF0, up [], by decide +kernel⟩⟩

theorem test_DataWindowsMoveWords_hyps :
    (∃ (p : Path) (v : Word) (s : State), plainly s p 0x24 ∧ 1 ≤ bits v.toNat 26 16 ∧ bits v.toNat 26 16 ≤ 1024 ∧ s.on (SYS_DWCTL_BUSY p.idx) = false ∧ burstFits (4 * s.rd (SYS_DWADDR_ADDR p.idx)) (bits v.toNat 26 16) (bits v.toNat 11 4) = true) ∧
    (∃ (p : Path) (v : Word) (s : State), plainly s p 0x24 ∧ 1 ≤ bits v.toNat 26 16 ∧ bits v.toNat 26 16 ≤ 1024 ∧ (s.on (SYS_DWCTL_BUSY p.idx) = true ∨ burstFits (4 * s.rd (SYS_DWADDR_ADDR p.idx)) (bits v.toNat 26 16) (bits v.toNat 11 4) = false)) ∧
    (∃ (p : Path) (b : Burst) (s : State), scopeOf s p = .whole ∧ mfind s.mg.bursts p.idx = some b ∧ 4 * s.rd (SYS_DWADDR_ADDR p.idx) ≠ 0x28 ∧ b.wr = true) ∧
    (∃ (p : Path) (b : Burst) (s : State), scopeOf s p = .whole ∧ mfind s.mg.bursts p.idx = some b ∧ 4 * s.rd (SYS_DWADDR_ADDR p.idx) ≠ 0x28 ∧ b.wr = false) ∧
    (∃ (p : Path) (s : State), scopeOf s p = .whole ∧ (mfind s.mg.bursts p.idx = none ∨ (∃ b, mfind s.mg.bursts p.idx = some b ∧ b.wr = false))) ∧
    (∃ (p : Path) (s : State), scopeOf s p = .whole ∧ (mfind s.mg.bursts p.idx = none ∨ (∃ b, mfind s.mg.bursts p.idx = some b ∧ b.wr = true))) :=
  ⟨⟨.usb, 0x04000011, { up [] with bt := (up []).bt }, ⟨by unfold writable; decide +kernel, fun _ _ => rfl⟩, by decide +kernel⟩,
   ⟨.usb, 0x04000011, up [(SYS_DWADDR_ADDR 1, 0x3FFF)], ⟨by unfold writable; decide +kernel, fun _ _ => rfl⟩, by decide +kernel⟩,
   ⟨.usb, ⟨2, 1, true⟩, { up [(SYS_DWADDR_ADDR 1, (ad (EVEN 20)).toNat / 4), (SYS_DWCTL_BUSY 1, 1)] with mg := { ({} : Mgmt) with bursts := [(1, ⟨2, 1, true⟩)] } }, by decide +kernel⟩,
   ⟨.usb, ⟨1, 1, false⟩, { up [(SYS_DWADDR_ADDR 1, (ad (EVEN 20)).toNat / 4), (SYS_DWCTL_BUSY 1, 1)] with mg := { ({} : Mgmt) with bursts := [(1, ⟨1, 1, false⟩)] } }, by decide +kernel⟩,
   ⟨.usb, up [], by decide +kernel⟩,
   ⟨.usb, up [], by decide +kernel⟩⟩

theorem test_UsbRequestsAreServed_hyps :
    (∃ (a : Word) (s : State), s.on SYS_STAGE_FWRDY = true ∧ s.on SYS_PATH_ENUSB = true ∧ a.toNat % 4 = 0 ∧ a.toNat ≠ 0x28 ∧ (decodeFor 1 a.toNat).isSome = true) ∧
    (∃ (a : Word) (s : State), s.on SYS_STAGE_FWRDY = true ∧ s.on SYS_PATH_ENUSB = true ∧ a.toNat % 4 = 0) ∧
    (∃ (a : Word) (s : State), s.on SYS_STAGE_FWRDY = true ∧ s.on SYS_PATH_ENUSB = true ∧ a.toNat % 4 = 0) ∧
    (∃ (a : Word) (s : State) (n : _), s.on SYS_STAGE_FWRDY = true ∧ s.on SYS_PATH_ENUSB = true ∧ a.toNat % 4 = 0 ∧ burstLength n = true ∧ s.on (SYS_DWCTL_BUSY 1) = false ∧ burstFits a.toNat (n / 4) 1 = true) ∧
    (∃ (a : Word) (s : State), s.on SYS_STAGE_FWRDY = true ∧ s.on SYS_PATH_ENUSB = true ∧ a.toNat % 4 = 0 ∧ s.on (SYS_DWCTL_BUSY 1) = false) ∧
    (∃ (a : Word) (s : State), s.on SYS_STAGE_FWRDY = true ∧ s.on SYS_PATH_ENUSB = true ∧ a.toNat % 4 = 0 ∧ s.on (SYS_DWCTL_BUSY 1) = false) ∧
    (∃ (a : Word) (s : State), s.on SYS_STAGE_FWRDY = true ∧ s.on SYS_PATH_ENUSB = true ∧ a.toNat % 4 = 0) ∧
    (∃ (a : Word) (s : State), s.on SYS_STAGE_FWRDY = true ∧ s.on SYS_PATH_ENUSB = true ∧ a.toNat % 4 = 0 ∧ s.on (SYS_DWCTL_BUSY 1) = true) ∧
    (∃ (a : Word) (s : State), s.on SYS_STAGE_FWRDY = true ∧ s.on SYS_PATH_ENUSB = true ∧ a.toNat % 4 = 0 ∧ s.on (SYS_DWCTL_BUSY 1) = true) ∧
    (∃ (a : Word) (s : State), s.on SYS_STAGE_FWRDY = true ∧ (s.on SYS_PATH_ENUSB = false ∨ a.toNat % 4 ≠ 0)) ∧
    (∃ (a : Word) (s : State), s.on SYS_STAGE_FWRDY = true ∧ (s.on SYS_PATH_ENUSB = false ∨ a.toNat % 4 ≠ 0)) ∧
    (∃ (a : Word) (s : State), s.on SYS_STAGE_FWRDY = true ∧ (s.on SYS_PATH_ENUSB = false ∨ a.toNat % 4 ≠ 0)) ∧
    (∃ (a : Word) (s : State), s.on SYS_STAGE_FWRDY = true ∧ (s.on SYS_PATH_ENUSB = false ∨ a.toNat % 4 ≠ 0)) ∧
    (∃ (a : Word) (s : State), s.on SYS_STAGE_FWRDY = true ∧ (s.on SYS_PATH_ENUSB = false ∨ a.toNat % 4 ≠ 0)) ∧
    (∃ (r : Byte) (s : State), s.on SYS_STAGE_FWRDY = true ∧ r ≠ 1) ∧
    (∃ (n : Nat) (s : State), s.on SYS_STAGE_FWRDY = true ∧ n ≠ 4) ∧
    (∃ (n : Nat) (s : State), s.on SYS_STAGE_FWRDY = true ∧ n ≠ 4) ∧
    (∃ (n : Nat) (s : State), s.on SYS_STAGE_FWRDY = true ∧ n ≠ 4) ∧
    (∃ (n : Nat) (s : State), s.on SYS_STAGE_FWRDY = true ∧ n ≠ 0) ∧
    (∃ (n : Nat) (s : State), s.on SYS_STAGE_FWRDY = true ∧ burstLength n = false) ∧
    (∃ (n : Nat) (s : State), s.on SYS_STAGE_FWRDY = true ∧ burstLength n = false) ∧
    (∃ s : State, s.on SYS_STAGE_FWRDY = false) ∧
    (∃ (a : Word) (s : State), s.on SYS_STAGE_FWRDY = true ∧ s.on SYS_PATH_ENUSB = true ∧ s.mg.flashOp = none ∧ a.toNat % 65536 = 0 ∧ a.toNat + 65536 ≤ s.mg.flashSize ∧ protectedRange s a.toNat 65536 = false) ∧
    (∃ (a : Word) (s : State), s.on SYS_STAGE_FWRDY = true ∧ s.on SYS_PATH_ENUSB = true ∧ s.mg.flashOp = none ∧ a.toNat % 65536 = 0) ∧
    (∃ (a : Word) (d : Bytes) (s : State), s.on SYS_STAGE_FWRDY = true ∧ s.on SYS_PATH_ENUSB = true ∧ s.mg.flashOp = none ∧ burstLength d.length = true ∧ a.toNat % 4 = 0 ∧ a.toNat % 65536 + d.length ≤ 65536 ∧ a.toNat + d.length ≤ s.mg.flashSize ∧ protectedRange s a.toNat d.length = false) ∧
    (∃ (a : Word) (d : Bytes) (s : State), s.on SYS_STAGE_FWRDY = true ∧ s.on SYS_PATH_ENUSB = true ∧ s.mg.flashOp = none ∧ burstLength d.length = true ∧ a.toNat % 4 = 0 ∧ a.toNat % 65536 + d.length ≤ 65536 ∧ a.toNat + d.length ≤ s.mg.flashSize ∧ protectedRange s a.toNat d.length = true) ∧
    (∃ (a : Word) (n : Nat) (s : State), s.on SYS_STAGE_FWRDY = true ∧ s.on SYS_PATH_ENUSB = true ∧ burstLength n = true ∧ a.toNat % 4 = 0 ∧ a.toNat + n ≤ s.mg.flashSize) ∧
    (∃ s : State, s.on SYS_STAGE_FWRDY = true ∧ s.on SYS_PATH_ENUSB = true) ∧
    (∃ (o : FlashOp) (s : State), Canonical s ∧ s.mg.flashOp = some o ∧ o.reply = none ∧ o.erase = true) ∧
    (∃ (o : FlashOp) (s : State), Canonical s ∧ s.mg.flashOp = some o ∧ o.reply = none ∧ o.erase = false ∧ (∀ k, k < o.data.length → memGet 0xFF s.flash (o.off + k) = 0xFF)) ∧
    (∃ (o : FlashOp) (s : State), Canonical s ∧ s.mg.flashOp = some o ∧ o.reply = none) ∧
    (∃ s : State, s.mg.flashOp = none) :=
  ⟨⟨0x20, up [], by decide +kernel⟩,
   ⟨0x20, up [], by decide +kernel⟩,
   ⟨0x20, up [], by decide +kernel⟩,
   ⟨0x0, up [], 64, by decide +kernel⟩,
   ⟨0x20, up [], by decide +kernel⟩,
   ⟨0x20, up [], by decide +kernel⟩,
   ⟨0x20, up [], by decide +kernel⟩,
   ⟨0x20, up [(SYS_DWCTL_BUSY 1, 1)], by decide +kernel⟩,
   ⟨0x20, up [(SYS_DWCTL_BUSY 1, 1)], by decide +kernel⟩,
   ⟨0x20, up [(SYS_PATH_ENUSB, 0)], by decide +kernel⟩,
   ⟨0x20, up [(SYS_PATH_ENUSB, 0)], by decide +kernel⟩,
   ⟨0x20, up [(SYS_PATH_ENUSB, 0)], by decide +kernel⟩,
   ⟨0x20, up [(SYS_PATH_ENUSB, 0)], by decide +kernel⟩,
   ⟨0x20, up [(SYS_PATH_ENUSB, 0)], by decide +kernel⟩,
   ⟨2, up [], by decide +kernel⟩,
   ⟨2, up [], by decide +kernel⟩,
   ⟨8, up [], by decide +kernel⟩,
   ⟨2, up [], by decide +kernel⟩,
   ⟨2, up [], by decide +kernel⟩,
   ⟨6, up [], by decide +kernel⟩,
   ⟨6, up [], by decide +kernel⟩,
   ⟨(up []).wr SYS_STAGE_FWRDY 0, by decide +kernel⟩,
   ⟨0xC00000, up [], by decide +kernel⟩,
   ⟨0xC00000, up [], by decide +kernel⟩,
   ⟨0xC00000, [1, 2, 3, 4], up [], by decide +kernel⟩,
   ⟨0x3F0000, [1, 2, 3, 4], up [], by decide +kernel⟩,
   ⟨0xFFFFFC, 4, { up [] with flash := [(0xFFFFFD, 7)] }, by decide +kernel⟩,
   ⟨up [], by decide +kernel⟩,
   ⟨{ erase := true, off := 0x10000, data := [] }, { up [] with mg := { ({} : Mgmt) with flashOp := some { erase := true, off := 0x10000, data := [] } }, flash := [(0xFFFF, 7), (0x10000, 5), (0x1FFFF, 5), (0x20000, 5)] }, by unfold Canonical; decide +kernel, by decide +kernel⟩,
   ⟨{ erase := false, off := 0x10000, data := [1, 0xFF, 3] }, { up [] with mg := { ({} : Mgmt) with flashOp := some { erase := false, off := 0x10000, data := [1, 0xFF, 3] } }, flash := [(0xFFFF, 7), (0x10004, 5), (0x1FFFF, 5), (0x20000, 5)] }, by unfold Canonical; decide +kernel, by decide +kernel⟩,
   ⟨{ erase := false, off := 0x10000, data := [1, 0xFF, 3] }, { up [] with mg := { ({} : Mgmt) with flashOp := some { erase := false, off := 0x10000, data := [1, 0xFF, 3] } }, flash := [(0xFFFF, 7), (0x10004, 5), (0x1FFFF, 5), (0x20000, 5)] }, by unfold Canonical; decide +kernel, by decide +kernel⟩,
   ⟨up [], by decide +kernel⟩⟩

theorem test_ManagementMessagesAreAnswered_hyps :
    (∃ (c : Crown) (a : Word) (s : State), tunReachable s c.val = true ∧ pathEnabled s (tunPath c.val) = true ∧ s.on SYS_STAGE_FWRDY = true ∧ flashPending s c.val = false ∧ a.toNat % 4 = 0 ∧ a.toNat ≠ 0x28 ∧ (decodeFor (tunPath c.val).idx a.toNat).isSome = true) ∧
    (∃ (c : Crown) (a w : Word) (s : State), tunReachable s c.val = true ∧ pathEnabled s (tunPath c.val) = true ∧ s.on SYS_STAGE_FWRDY = true ∧ flashPending s c.val = false ∧ a.toNat % 4 = 0 ∧ a.toNat ≠ 0x28 ∧ requestsReset a.toNat [w.toNat] = false) ∧
    (∃ (c : Crown) (a w : Word) (s : State), tunReachable s c.val = true ∧ pathEnabled s (tunPath c.val) = true ∧ s.on SYS_STAGE_FWRDY = true ∧ flashPending s c.val = false ∧ a.toNat % 4 = 0 ∧ a.toNat ≠ 0x28 ∧ requestsReset a.toNat [w.toNat] = true) ∧
    (∃ (c : Crown) (n : Byte) (s : State), tunReachable s c.val = true ∧ pathEnabled s (tunPath c.val) = true ∧ s.on SYS_STAGE_FWRDY = true ∧ flashPending s c.val = false ∧ goodCount n = false) ∧
    (∃ (c : Crown) (n : Byte) (a : Word) (s : State), tunReachable s c.val = true ∧ pathEnabled s (tunPath c.val) = true ∧ s.on SYS_STAGE_FWRDY = true ∧ flashPending s c.val = false ∧ goodCount n = true ∧ badRange a n.toNat = true) ∧
    (∃ (c : Crown) (a : Word) (s : State), tunReachable s c.val = true ∧ pathEnabled s (tunPath c.val) = true ∧ s.on SYS_STAGE_FWRDY = true ∧ flashPending s c.val = false ∧ a.toNat % 65536 = 0 ∧ s.mg.flashOp = none ∧ a.toNat + 65536 ≤ s.mg.flashSize ∧ protectedRange s a.toNat 65536 = false) ∧
    (∃ (c : Crown) (n : Byte) (a : Word) (d : Words) (s : State), tunReachable s c.val = true ∧ pathEnabled s (tunPath c.val) = true ∧ s.on SYS_STAGE_FWRDY = true ∧ flashPending s c.val = false ∧ goodCount n = true ∧ badRange a n.toNat = false ∧ s.mg.flashOp = none ∧ a.toNat + 4 * n.toNat ≤ s.mg.flashSize ∧ d.length = n.toNat ∧ protectedRange s a.toNat (4 * n.toNat) = false) ∧
    (∃ (c : Crown) (a : Word) (s : State), tunReachable s c.val = true ∧ pathEnabled s (tunPath c.val) = true ∧ s.on SYS_STAGE_FWRDY = true ∧ flashPending s c.val = false ∧ s.mg.flashOp.isSome = true ∧ a.toNat % 65536 = 0) ∧
    (∃ (c : Crown) (n : Byte) (a : Word) (s : State), tunReachable s c.val = true ∧ pathEnabled s (tunPath c.val) = true ∧ s.on SYS_STAGE_FWRDY = true ∧ flashPending s c.val = false ∧ goodCount n = true ∧ badRange a n.toNat = false ∧ a.toNat + 4 * n.toNat ≤ s.mg.flashSize) ∧
    (∃ (c : Crown) (n : Byte) (s : State) (op : _), tunReachable s c.val = true ∧ pathEnabled s (tunPath c.val) = true ∧ s.on SYS_STAGE_FWRDY = true ∧ flashPending s c.val = false ∧ requestForm op n = false) ∧
    (∃ (o : FlashOp) (c : Crown) (k g : Nat) (a : Word) (s : State), s.mg.flashOp = some o ∧ o.reply = some (c, k, g, a) ∧ tunReachable s c.val = true ∧ pathEnabled s (tunPath c.val) = true) ∧
    (∃ (c : Crown) (s : State), tunReachable s c.val = false ∨ pathEnabled s (tunPath c.val) = false) ∧
    (∃ (c : Crown) (s : State), tunReachable s c.val = false ∨ pathEnabled s (tunPath c.val) = false) ∧
    (∃ (c : Crown) (s : State), tunReachable s c.val = false ∨ pathEnabled s (tunPath c.val) = false) ∧
    (∃ (c : Crown) (s : State), tunReachable s c.val = false ∨ pathEnabled s (tunPath c.val) = false) ∧
    (∃ (c : Crown) (s : State), tunReachable s c.val = false ∨ pathEnabled s (tunPath c.val) = false) ∧
    (∃ (c : Crown) (s : State), tunReachable s c.val = false ∨ pathEnabled s (tunPath c.val) = false) ∧
    (∃ (c : Crown) (s : State), tunReachable s c.val = true ∧ pathEnabled s (tunPath c.val) = true ∧ (s.on SYS_STAGE_FWRDY = false ∨ flashPending s c.val = true) ∧ (mget [] s.mg.held c.val).length < 16) ∧
    (∃ (p : CanPort) (b : Nat) (op g : Byte) (s : State), cascadeBase s p.val = some b ∧ tunActive s (b + 1) = true ∧ op ≠ 5 ∧ g.toNat < 0xC0) ∧
    (∃ (p : CanPort) (b : Nat) (op g st : Byte) (s : State), cascadeBase s p.val = some b ∧ tunActive s (b + 1) = true ∧ op ≠ 5 ∧ 0xC0 ≤ g.toNat ∧ (op.toNat ≠ 0x81 ∨ st ≠ 0)) ∧
    (∃ (p : CanPort) (b : Nat) (op : Byte) (s : State), cascadeBase s p.val = some b ∧ tunActive s (b + 1) = true ∧ op = 5) :=
  ⟨⟨0, ad (PST_THERM_WARN), can 0 {} (up []), by decide +kernel⟩,
   ⟨0, ad (PST_THERM_WARN), 0x3C000000, can 0 {} (up []), by decide +kernel⟩,
   ⟨0, 0x10004, 0xA5000002, can 0 {} (up []), by decide +kernel⟩,
   ⟨0, 0, can 0 {} (up []), by decide +kernel⟩,
   ⟨0, 28, 0x1FF9C, can 0 {} (up []), by decide +kernel⟩,
   ⟨0, 0xC00000, can 0 {} (up []), by decide +kernel⟩,
   ⟨0, 1, 0xC00000, [1], can 0 {} (up []), by decide +kernel⟩,
   ⟨1, 0, { can 1 {} (up []) with mg := { ({} : Mgmt) with flashOp := some { erase := true, off := 0, data := [] } } }, by decide +kernel⟩,
   ⟨1, 28, 0xC0FF90, { can 1 {} (up []) with flash := [(0xC0FFFF, 3)] }, by decide +kernel⟩,
   ⟨1, 29, can 1 {} (up []), 1, by decide +kernel⟩,
   ⟨{ erase := true, off := 0x10000, data := [], reply := some (1, 0x10, 7, 0x10000) }, 1, 0x10, 7, 0x10000, { can 1 {} (up []) with mg := { ({} : Mgmt) with flashOp := some { erase := true, off := 0x10000, data := [], reply := some (1, 0x10, 7, 0x10000) }, flashStat := 1 } }, by decide +kernel⟩,
   ⟨1, up [], by decide +kernel⟩,
   ⟨1, up [], by decide +kernel⟩,
   ⟨1, can 1 {} (up [(SYS_PATH_ENTUN1, 0)]), by decide +kernel⟩,
   ⟨1, up [], by decide +kernel⟩,
   ⟨1, up [], by decide +kernel⟩,
   ⟨1, up [], by decide +kernel⟩,
   ⟨1, (can 1 {} (up [])).wr SYS_STAGE_FWRDY 0, by decide +kernel⟩,
   ⟨2, 2, 0x81, 0xBF, withImg (img [⟨3, 0, tmpl 6 2⟩]) (can 0 {} (can 2 {} (up [(TT_STATE_STATE 3, 2)]))), by decide +kernel⟩,
   ⟨2, 2, 0x81, 0xC0, 1, withImg (img [⟨3, 0, tmpl 6 2⟩]) (can 0 {} (can 2 {} (up [(TT_STATE_STATE 3, 2)]))), by decide +kernel⟩,
   ⟨2, 2, 5, withImg (img [⟨3, 0, tmpl 6 2⟩]) (can 0 {} (can 2 {} (up [(TT_STATE_STATE 3, 2)]))), by decide +kernel⟩⟩

theorem test_BoardTransfersReachRegisters_hyps :
    (∃ (v : BitVec 7) (s : State), i2cAnswers s v = true) ∧
    (∃ (v : BitVec 7) (s : State), i2cAnswers s v = true) ∧
    (∃ (v : BitVec 7) (s : State), i2cAnswers s v = true) ∧
    (∃ (v : BitVec 7) (s : State), v ≠ (if s.bt.asel then 0x3B else 0x3A)) ∧
    (∃ (v : BitVec 7) (s : State), v ≠ (if s.bt.asel then 0x3B else 0x3A)) ∧
    (∃ (v : BitVec 7) (s : State), v ≠ (if s.bt.asel then 0x3B else 0x3A)) ∧
    (∃ (v : BitVec 7) (s : State), v ≠ (if s.bt.asel then 0x3B else 0x3A)) ∧
    (∃ d : Bytes, d.length < 4) ∧
    (∃ (v : BitVec 7) (s : State), i2cAnswers s v = true ∧ scopeOf s .p43 = .whole ∧ s.mg.i2cAddr < 2 ^ 32 ∧ s.mg.i2cAddr ≠ 0x28 ∧ (decodeFor 0 s.mg.i2cAddr).isSome = true) ∧
    (∃ (v : BitVec 7) (b : Byte) (s : State), i2cAnswers s v = true ∧ b ≠ 1 ∧ b ≠ 2) ∧
    (∃ s : State, spiAnswers s = true) ∧
    (∃ (a : Word) (s : State), spiAnswers s = true ∧ scopeOf s .p43 = .whole ∧ wordAddr a ≠ 0x28 ∧ (decodeFor 0 (wordAddr a)).isSome = true) ∧
    (∃ (b : Byte) (s : State), spiAnswers s = true ∧ b ≠ 2 ∧ b ≠ 0x0B) :=
  ⟨⟨0x3A, up [(SYS_STAGE_STAGE, 1)], by decide +kernel⟩,
   ⟨0x3A, up [(SYS_STAGE_STAGE, 1)], by decide +kernel⟩,
   ⟨0x3A, up [(SYS_STAGE_STAGE, 1)], by decide +kernel⟩,
   ⟨0x3B, up [(SYS_STAGE_STAGE, 1)], by decide +kernel⟩,
   ⟨0x3B, up [(SYS_STAGE_STAGE, 1)], by decide +kernel⟩,
   ⟨0x3B, up [(SYS_STAGE_STAGE, 1)], by decide +kernel⟩,
   ⟨0x3B, up [(SYS_STAGE_STAGE, 1)], by decide +kernel⟩,
   ⟨[5, 6, 7], by decide +kernel⟩,
   ⟨0x3A, { up [(SYS_STAGE_STAGE, 1)] with mg := { ({} : Mgmt) with i2cAddr := 0x20 } }, by decide +kernel⟩,
   ⟨0x3A, 7, up [(SYS_STAGE_STAGE, 1)], by decide +kernel⟩,
   ⟨up [(SYS_STAGE_STAGE, 1)], by decide +kernel⟩,
   ⟨0x10005, up [(SYS_STAGE_STAGE, 1)], by decide +kernel⟩,
   ⟨0, up [(SYS_STAGE_STAGE, 1)], by decide +kernel⟩⟩

theorem test_EventReportsGoOut_hyps :
    (∃ (c : Crown) (s : State), (if c.val = 0 then s.mg.tun0 else s.mg.tun1).due = true ∧ tunCarries s c.val = true ∧ s.on SYS_STAGE_FWRDY = true) ∧
    (∃ (c : Crown) (s : State), (if c.val = 0 then s.mg.tun0 else s.mg.tun1).due = false ∨ tunCarries s c.val = false ∨ s.on SYS_STAGE_FWRDY = false) ∧
    (∃ s : State, treeRuns s = true ∧ s.on USB_MGT_CONF = true ∧ s.on SYS_STAGE_FWRDY = true ∧ s.on USB_MGT_EP1HALT = false ∧ s.mg.ep1Sent = none ∧ s.mg.ep1.due = true) ∧
    (∃ s : State, treeRuns s = true ∧ s.on USB_MGT_CONF = true ∧ s.on SYS_STAGE_FWRDY = true ∧ s.on USB_MGT_EP1HALT = false ∧ s.mg.ep1Sent = none ∧ s.mg.ep1.due = false) ∧
    (∃ (s : State) (d : _), treeRuns s = true ∧ s.on USB_MGT_CONF = true ∧ s.on SYS_STAGE_FWRDY = true ∧ s.on USB_MGT_EP1HALT = false ∧ s.mg.ep1Sent = some d) ∧
    (∃ (s : State) (d : _), treeRuns s = true ∧ s.on USB_MGT_CONF = true ∧ s.on SYS_STAGE_FWRDY = true ∧ s.on USB_MGT_EP1HALT = false ∧ s.mg.ep1Sent = some d) ∧
    (∃ s : State, treeRuns s = true ∧ s.on USB_MGT_CONF = true ∧ s.on SYS_STAGE_FWRDY = true ∧ s.on USB_MGT_EP1HALT = true) ∧
    (∃ s : State, treeRuns s = true ∧ s.on USB_MGT_CONF = true ∧ s.on SYS_STAGE_FWRDY = false) ∧
    (∃ s : State, treeRuns s = false ∨ s.on USB_MGT_CONF = false) ∧
    (∃ s : State, s.mg.ep1Sent = none) ∧
    (∃ s : State, s.mg.ep1.due = true) :=
  ⟨⟨0, { can 0 {} (up [(SYS_EVMASK_TUN_MASK, 0xFFFF), (EVSTAT 24, 3), (EVEN 24, 3)]) with mg := { ({} : Mgmt) with tun0 := { due := true, seq := 255 } } }, by decide +kernel⟩,
   ⟨0, up [], by decide +kernel⟩,
   ⟨{ up [(USB_MGT_CONF, 1), (SYS_EVMASK_EP1_MASK, 0x1FFFFFF), (EVSTAT 24, 3), (EVEN 24, 3)] with mg := { ({} : Mgmt) with ep1 := { due := true, seq := 300 } } }, by decide +kernel⟩,
   ⟨up [(USB_MGT_CONF, 1)], by decide +kernel⟩,
   ⟨{ up [(USB_MGT_CONF, 1)] with mg := { ({} : Mgmt) with ep1Sent := some [3] } }, [3], by decide +kernel⟩,
   ⟨{ up [(USB_MGT_CONF, 1)] with mg := { ({} : Mgmt) with ep1Sent := some [3] } }, [3], by decide +kernel⟩,
   ⟨up [(USB_MGT_CONF, 1), (USB_MGT_EP1HALT, 1)], by decide +kernel⟩,
   ⟨(up [(USB_MGT_CONF, 1), (USB_MGT_SILENT, 255)]).wr SYS_STAGE_FWRDY 0, by decide +kernel⟩,
   ⟨up [], by decide +kernel⟩,
   ⟨up [], by decide +kernel⟩,
   ⟨{ up [(EVEN 24, 7)] with mg := { ({} : Mgmt) with ep1Sent := some [3], ep1 := { due := true, seq := 9 } } }, by decide +kernel⟩⟩

theorem test_ImagesLoad_hyps :
    (∃ s : State, s.on SYS_STAGE_FWRDY = true ∧ engineRuns s = true ∧ s.on CFG_STATUS_LOADED = false ∧ s.on CFG_STATUS_HOLD = false ∧ s.ld.doing = .idle ∧ s.on KEY_VAULT_STHOLD = false ∧ s.on KEY_VAULT_HALT = false ∧ headerResult s false ≠ 1 ∧ headerResult s true ≠ 1) ∧
    (∃ s : State, s.on SYS_STAGE_FWRDY = true ∧ engineRuns s = true ∧ s.on CFG_STATUS_LOADED = false ∧ s.on CFG_STATUS_HOLD = false ∧ s.ld.doing = .idle ∧ (s.on KEY_VAULT_STHOLD = true ∨ s.on KEY_VAULT_HALT = true)) ∧
    (∃ s : State, s.on CFG_STATUS_LOADED = true ∨ s.ld.doing ≠ .idle) ∧
    (∃ (b o x : Bool) (s : State), s.ld.doing = .streaming b o x) ∧
    (∃ (b o x : Bool) (s : State), s.ld.doing = .streaming b o x) ∧
    (∃ (a b : Bool) (s : State), s.ld.doing = .idle ∧ s.ld.reload = none ∧ s.ld.check = some (a, b)) ∧
    (∃ s : State, s.ld.doing = .idle ∧ s.ld.reload = none ∧ s.ld.check = none ∧ s.on SYS_STAGE_FWRDY = true ∧ s.on CFG_STATUS_LOADED = false ∧ s.on CFG_STATUS_HOLD = false) ∧
    (∃ (im : Image) (s : State), s.ld.doing = .configuring ∧ s.ld.image = some im ∧ s.bt.retest = [] ∧ startDenied s = true ∧ s.on PD_GLOB_DBDENY = false) ∧
    (∃ (im : Image) (s : State), s.ld.doing = .configuring ∧ s.ld.image = some im ∧ s.bt.retest = [] ∧ startDenied s = false ∧ beff s < baseMw s) ∧
    (∃ (im : Image) (s : State), s.ld.doing = .configuring ∧ s.ld.image = some im ∧ s.bt.retest = [] ∧ startDenied s = false ∧ baseMw s ≤ beff s) ∧
    (∃ s : State, s.ld.doing = .idle ∨ s.ld.image = none ∨ s.bt.retest ≠ []) :=
  ⟨⟨up [], by decide +kernel⟩,
   ⟨up [(KEY_VAULT_STHOLD, 1)], by decide +kernel⟩,
   ⟨up [(CFG_STATUS_LOADED, 1)], by decide +kernel⟩,
   ⟨true, true, false, { up [] with ld := { ({} : Loader) with doing := .streaming true true false } }, by decide +kernel⟩,
   ⟨true, true, false, { up [] with ld := { ({} : Loader) with doing := .streaming true true false } }, by decide +kernel⟩,
   ⟨false, true, { up [] with ld := { ({} : Loader) with check := some (false, true) } }, by decide +kernel⟩,
   ⟨up [], by decide +kernel⟩,
   ⟨img [], { up [(PP_FEED_ACTIVE, 3), (PC_STAT_STATE 2, 3), (PC_STAT_REV 2, 1), (PD_STAT_CCST 0, 3)] with ld := { ({} : Loader) with doing := .configuring, image := some (img []) } }, by decide +kernel⟩,
   ⟨img [pwr], { up [(PST_CORE_BUDGET, 9000)] with ld := { ({} : Loader) with doing := .configuring, image := some (img [pwr]) } }, by decide +kernel⟩,
   ⟨img [], { up [] with ld := { ({} : Loader) with doing := .configuring, image := some (img []) } }, by decide +kernel⟩,
   ⟨up [], by decide +kernel⟩⟩

theorem test_ChecksAndSliceReloads_hyps :
    (∃ (p : Path) (s : State), writable s p 0x40040 ∧ s.on CFG_RLDST_BUSY = false ∧ s.ld.check = none) ∧
    (∃ (p : Path) (s : State), writable s p 0x40040 ∧ (s.on CFG_RLDST_BUSY = true ∨ s.ld.check.isSome = true)) ∧
    (∃ (p : Path) (s : State), writable s p 0x40040 ∧ s.on CFG_STATUS_LOADED = true ∧ s.rd SYS_STAGE_STAGE = 2 ∧ s.on CFG_STATUS_FALLBK = false ∧ bits (s.rd FUSE_ARB_V) 5 0 < min (s.rd CFG_STATUS_SVN) (svnSerial s (firmwareBase (s.on RST_BOOT_FWCOPY))).1) ∧
    (∃ (p : Path) (s : State), writable s p 0x40040 ∧ (s.on CFG_STATUS_LOADED = false ∨ s.rd SYS_STAGE_STAGE ≠ 2 ∨ s.on CFG_STATUS_FALLBK = true)) ∧
    (∃ (p : Path) (s : State), writable s p 0x40040 ∧ min (s.rd CFG_STATUS_SVN) (svnSerial s (firmwareBase (s.on RST_BOOT_FWCOPY))).1 ≤ bits (s.rd FUSE_ARB_V) 5 0) ∧
    (∃ (a b : Bool) (s : State), s.ld.check = some (a, b)) ∧
    (∃ s : State, s.ld.check = none) ∧
    (∃ (p : Path) (v : Word) (s : State), plainly s p 0x40044 ∧ bits v.toNat 3 0 < 8 ∧ reloadCause s (bits v.toNat 3 0) = 0) ∧
    (∃ (p : Path) (v : Word) (s : State), plainly s p 0x40044 ∧ bits v.toNat 3 0 < 8 ∧ reloadCause s (bits v.toNat 3 0) ≠ 0) ∧
    (∃ (p : Path) (v : Word) (s : State), plainly s p 0x40044 ∧ 8 ≤ bits v.toNat 3 0) ∧
    (∃ (r : Reload) (old : Image) (s : State), s.ld.reload = some r ∧ s.ld.image = some old ∧ r.committed = false ∧ (headerCode s r.copyB ≠ 1 ∨ (∃ k, streamCode s r.copyB = (k, none)))) ∧
    (∃ (r : Reload) (im : Image) (s : State), s.ld.reload = some r ∧ s.ld.image = some im ∧ r.committed = true) ∧
    (∃ (r : Reload) (im : Image) (s : State), s.ld.reload = some r ∧ s.ld.image = some im ∧ r.committed = true) ∧
    (∃ s : State, s.ld.reload = none) ∧
    (∃ s : State, s.ld.reload = none) :=
  ⟨⟨.usb, up [], by unfold writable; decide +kernel, by decide +kernel⟩,
   ⟨.usb, up [(CFG_RLDST_BUSY, 1)], by unfold writable; decide +kernel, by decide +kernel⟩,
   ⟨.usb, { up [(CFG_STATUS_LOADED, 1), (SYS_STAGE_STAGE, 2), (CFG_STATUS_SVN, 5)] with flash := (memWrite 0xFF [] (firmwareBase false + 0x10) [4, 0, 0, 0]) }, by unfold writable; decide +kernel, by decide +kernel⟩,
   ⟨.usb, up [], by unfold writable; decide +kernel, by decide +kernel⟩,
   ⟨.usb, up [], by unfold writable; decide +kernel, by decide +kernel⟩,
   ⟨true, false, { up [(CFG_CTL_CHECK, 1)] with ld := { ({} : Loader) with check := some (true, false) } }, by decide +kernel⟩,
   ⟨up [], by decide +kernel⟩,
   ⟨.usb, 0x80000007, up [(CFG_STATUS_LOADED, 1), (FUSE_RLD_V, 0x80)], ⟨by unfold writable; decide +kernel, fun _ _ => rfl⟩, by decide +kernel⟩,
   ⟨.usb, 0x80000007, up [], ⟨by unfold writable; decide +kernel, fun _ _ => rfl⟩, by decide +kernel⟩,
   ⟨.usb, 0x80000008, up [], ⟨by unfold writable; decide +kernel, fun _ _ => rfl⟩, by decide +kernel⟩,
   ⟨⟨1, true, false, []⟩, img [], { up [(CFG_RLDST_BUSY, 1)] with ld := { ({} : Loader) with reload := some ⟨1, true, false, []⟩, lock := some 1, image := some (img []) } }, by decide +kernel, by decide +kernel, by decide +kernel, .inl (by decide +kernel)⟩,
   ⟨⟨1, true, true, [3]⟩, img [], { up [(CFG_RLDST_BUSY, 1)] with ld := { ({} : Loader) with reload := some ⟨1, true, true, [3]⟩, lock := some 1, image := some (img []) } }, by decide +kernel⟩,
   ⟨⟨1, true, true, [3]⟩, img [], { up [(CFG_RLDST_BUSY, 1)] with ld := { ({} : Loader) with reload := some ⟨1, true, true, [3]⟩, lock := some 1, image := some (img []) } }, by decide +kernel⟩,
   ⟨up [], by decide +kernel⟩,
   ⟨up [], by decide +kernel⟩⟩

theorem test_SolvesCommitAndSwap_hyps :
    (∃ s : State, s.sv.tied = false ∧ holdsOff s 18 = false ∧ s.on SYS_SETTLE_RUN = true ∧ s.on SYS_STAGE_FWRDY = true ∧ s.on CFG_STATUS_LOADED = true ∧ engineRuns s = true ∧ s.sv.sample = none ∧ s.sv.commit = none) ∧
    (∃ s : State, s.sv.tied = true) ∧
    (∃ s : State, s.sv.tied = false ∧ (s.on SYS_SETTLE_RUN = false ∨ s.on SYS_STAGE_FWRDY = false ∨ s.on CFG_STATUS_LOADED = false ∨ s.sv.sample.isSome = true ∨ holdsOff s 18 = true)) ∧
    (∃ (a : NMap Partner) (s : State), s.sv.sample = some a ∧ s.on SYS_STAGE_FWRDY = true ∧ engineRuns s = true ∧ s.sv.commit = none) ∧
    (∃ s : State, s.sv.sample = none ∨ s.on SYS_STAGE_FWRDY = false) ∧
    (∃ (c : Commit) (s : State), s.sv.commit = some c ∧ s.sc.lpos = 0 ∧ 1000 * s.sv.committedAt + 2 * linePs s ≤ 1000 * s.clock) ∧
    (∃ s : State, s.sv.commit = none ∨ s.sc.lpos ≠ 0 ∨ 1000 * s.clock < 1000 * s.sv.committedAt + 2 * linePs s) ∧
    (∃ (p : Path) (v : Word) (s : State), plainly s p 0x20804 ∧ v.toNat % 2 ^ 20 / 4 * 4 ≠ s.rd PST_HOSTSEL_SEL) ∧
    (∃ (p : Path) (v : Word) (s : State), plainly s p 0x20804 ∧ v.toNat % 2 ^ 20 / 4 * 4 = s.rd PST_HOSTSEL_SEL) :=
  ⟨⟨{ up [(SYS_SETTLE_RUN, 1), (SYS_SETTLE_PEND, 1), (CFG_STATUS_LOADED, 1)] with sv := { ({} : Solver) with att := [(3, pt)] } }, by decide +kernel⟩,
   ⟨{ up [] with sv := { (up []).sv with tied := true } }, by decide +kernel⟩,
   ⟨up [], by decide +kernel⟩,
   ⟨[], { up [(PST_SOLVE_BUSY, 1)] with sv := { ({} : Solver) with sample := some [] } }, by decide +kernel⟩,
   ⟨up [], by decide +kernel⟩,
   ⟨{ plan := [], prev := [], refused := 0, degraded := 0, prevRefused := [], grants := [], leads := [], hubs := 0 }, { up [] with sv := { ({} : Solver) with commit := some { plan := [], prev := [], refused := 0, degraded := 0, prevRefused := [], grants := [], leads := [], hubs := 0 } } }, by decide +kernel⟩,
   ⟨up [], by decide +kernel⟩,
   ⟨.usb, 0xFFFFF, up [(CFG_STATUS_LOADED, 1)], ⟨by unfold writable; decide +kernel, fun _ _ => rfl⟩, by decide +kernel⟩,
   ⟨.usb, 0xFFF00003, up [], ⟨by unfold writable; decide +kernel, fun _ _ => rfl⟩, by decide +kernel⟩⟩

theorem test_TunnelParametersStayInTheirTemplates_hyps :
    (∃ (p : Path) (n : Tun) (v : Word) (m : Tmpl) (s : State), writable s p (0x400010 + 0x40 * n.val) ∧ entryTmpl s n.val = some m ∧ entryLive s n.val = true ∧ bits v.toNat 26 16 ≤ m.ceil ∧ m.floor ≤ bits v.toNat 10 0 ∧ bits v.toNat 10 0 ≤ bits v.toNat 26 16) ∧
    (∃ (p : Path) (n : Tun) (v : Word) (m : Tmpl) (s : State), writable s p (0x400010 + 0x40 * n.val) ∧ entryTmpl s n.val = some m ∧ entryLive s n.val = true ∧ m.ceil < bits v.toNat 26 16) ∧
    (∃ (p : Path) (n : Tun) (v : Word) (m : Tmpl) (s : State), entryTmpl s n.val = some m ∧ entryLive s n.val = true ∧ writable s p (0x400014 + 0x40 * n.val) ∧ 128 ≤ v.toNat ∧ v.toNat ≤ m.burst) ∧
    (∃ (p : Path) (n : Tun) (v : Word) (m : Tmpl) (s : State), entryTmpl s n.val = some m ∧ entryLive s n.val = true ∧ writable s p (0x400014 + 0x40 * n.val) ∧ (v.toNat < 128 ∨ m.burst < v.toNat)) ∧
    (∃ (p : Path) (n : Tun) (v : Word) (m : Tmpl) (s : State), entryTmpl s n.val = some m ∧ entryLive s n.val = true ∧ writable s p (0x400018 + 0x40 * n.val) ∧ bits v.toNat 10 0 ≤ m.cir ∧ bits v.toNat 10 0 ≤ bits v.toNat 26 16 ∧ bits v.toNat 26 16 ≤ m.pir) ∧
    (∃ (p : Path) (n : Tun) (v : Word) (m : Tmpl) (s : State), entryTmpl s n.val = some m ∧ entryLive s n.val = true ∧ writable s p (0x40001C + 0x40 * n.val) ∧ v.toNat ≤ m.cbs) ∧
    (∃ (p : Path) (n : Tun) (v : Word) (m : Tmpl) (s : State), entryTmpl s n.val = some m ∧ entryLive s n.val = true ∧ writable s p (0x400020 + 0x40 * n.val) ∧ v.toNat ≤ m.pbs) ∧
    (∃ (p : Path) (n : Tun) (s : State), entryLive s n.val = false ∧ writable s p (0x400010 + 0x40 * n.val)) ∧
    (∃ (p : Path) (n : Tun) (k : TtParam) (s : State), entryLive s n.val = false ∧ writable s p (0x400000 + 0x40 * n.val + ttOffset k)) :=
  ⟨⟨.usb, 2, 0x00200010, tmplX1, hubX, by unfold writable; decide +kernel, by decide +kernel⟩,
   ⟨.usb, 2, 0x04010010, tmplX1, hubX, by unfold writable; decide +kernel, by decide +kernel⟩,
   ⟨.usb, 2, 128, tmplX1, hubX, by decide +kernel, by decide +kernel, by unfold writable; decide +kernel, by decide +kernel⟩,
   ⟨.usb, 2, 127, tmplX1, hubX, by decide +kernel, by decide +kernel, by unfold writable; decide +kernel, by decide +kernel⟩,
   ⟨.usb, 2, 0x02000100, tmplX1, hubX, by decide +kernel, by decide +kernel, by unfold writable; decide +kernel, by decide +kernel⟩,
   ⟨.usb, 2, 0x500, tmplX1, hubX, by decide +kernel, by decide +kernel, by unfold writable; decide +kernel, by decide +kernel⟩,
   ⟨.usb, 2, 0x600, tmplX1, hubX, by decide +kernel, by decide +kernel, by unfold writable; decide +kernel, by decide +kernel⟩,
   ⟨.usb, 2, up [], by decide +kernel, by unfold writable; decide +kernel⟩,
   ⟨.usb, 2, .pbs, up [], by decide +kernel, by unfold writable; decide +kernel⟩⟩

theorem test_SchedulerAndPortSettings_hyps :
    (∃ (p : Path) (v : Word) (s : State), plainly s p 0xC0000 ∧ bits v.toNat 23 20 ≤ 9) ∧
    (∃ (p : Path) (v : Word) (s : State), plainly s p 0xC0014 ∧ 24000 ≤ bits v.toNat 31 14 ∧ bits v.toNat 31 14 ≤ 240000 ∧ 2 ≤ bits v.toNat 12 0) ∧
    (∃ (p : Path) (q : Port) (v : Word) (s : State), plainly s p (portReg q.val 0x480 4) ∧ bits v.toNat 26 24 ≤ 3 ∧ keepsR31 s q.val (bits v.toNat 9 0) (s.adp q.val).maxfrm = true) ∧
    (∃ (p : Path) (q : Port) (v : Word) (s : State), plainly s p (portReg q.val 0x480 4) ∧ bits v.toNat 26 24 ≤ 3 ∧ keepsR31 s q.val (bits v.toNat 9 0) (s.adp q.val).maxfrm = false) ∧
    (∃ (p : Path) (d : Pipe) (v : Word) (s : State), plainly s p (0x300020 + 0x10000 * d.val) ∧ pipeStateNow s d.val = 0 ∧ overlaps (bits v.toNat 4 0 * 0x10000000) 0x10000000 (s.rd MEM_SPBASE_BASE * 0x8000000) (s.rd MEM_SPSIZE_SIZE * 0x8000000) = false ∧ (∀ e, e < pipeCount (variant s) → e ≠ d.val → overlaps (bits v.toNat 4 0 * 0x10000000) 0x10000000 (storeBase s e) 0x10000000 = false)) ∧
    (∃ (p : Path) (d : Pipe) (s : State), plainly s p (0x300020 + 0x10000 * d.val) ∧ pipeStateNow s d.val ≠ 0) ∧
    (∃ (p : Path) (q : Port) (s : State), writable s p (portReg q.val 0x3004 0x100) ∧ persOf s q.val = 1 ∧ s.rd (ADP_STAT_PERS q.val) = 1 ∧ s.rd (ADP_STAT_STATE q.val) ≠ 1 ∧ s.rd (ADP_STAT_STATE q.val) ≠ 6) ∧
    (∃ (p : Path) (q : Port) (v : Word) (s : State), plainly s p (portReg q.val 0x3008 0x100) ∧ persEth (persOf s q.val) = true ∧ (∀ k, k < 8 → ethTemplate s q.val (bits v.toNat (4 * k + 3) (4 * k)) = true)) ∧
    (∃ (p : Path) (q : Port) (v : Word) (k : Nat) (s : State), plainly s p (portReg q.val 0x3008 0x100) ∧ persEth (persOf s q.val) = true ∧ k < 8 ∧ ethTemplate s q.val (bits v.toNat (4 * k + 3) (4 * k)) = false) ∧
    (∃ (p : Path) (q : Port) (s : State), plainly s p (portReg q.val 0x300C 0x100) ∧ persEth (persOf s q.val) = true) ∧
    (∃ (p : Path) (q : Port) (v : Word) (s : State), plainly s p (portReg q.val 0x300C 0x100) ∧ persEth (persOf s q.val) = true ∧ 1518 ≤ bits v.toNat 13 0 ∧ bits v.toNat 13 0 ≤ 9216 ∧ keepsR31 s q.val (ovhOf s q.val) (bits v.toNat 13 0) = true) ∧
    (∃ (p : Path) (q : Port) (v : Word) (s : State), plainly s p (portReg q.val 0x300C 0x100) ∧ persEth (persOf s q.val) = true ∧ 1518 ≤ bits v.toNat 13 0 ∧ bits v.toNat 13 0 ≤ 9216 ∧ keepsR31 s q.val (ovhOf s q.val) (bits v.toNat 13 0) = false) :=
  ⟨⟨.usb, 0x900000, up [(CFG_STATUS_LOADED, 1)], ⟨by unfold writable; decide +kernel, fun _ _ => rfl⟩, by decide +kernel⟩,
   ⟨.usb, 0x17700002, up [(SCHED_LEAD_SRC, 9)], ⟨by unfold writable; decide +kernel, fun _ _ => rfl⟩, by decide +kernel⟩,
   ⟨.usb, 8, 0x030003FF, up [], ⟨by unfold writable; decide +kernel, fun _ _ => rfl⟩, by decide +kernel⟩,
   ⟨.usb, 8, 0x030003FF, up [(GRV_CALST_BT 8, 4000), (GRV_CALA_ENTRY 8 0, 0xF8000000), (GRV_CALB_ENTRY 8 0, 0xC8000000)], ⟨by unfold writable; decide +kernel, fun _ _ => rfl⟩, by decide +kernel⟩,
   ⟨.usb, 0, 0x1F, up [], ⟨by unfold writable; decide +kernel, fun _ _ => rfl⟩, by decide +kernel⟩,
   ⟨.usb, 0, up [(PIPE_ROUTE_VALID 0, 1), (PIPE_ROUTE_PORT 0, 8), (ADP_STAT_STATE 8, 2)], ⟨by unfold writable; decide +kernel, fun _ _ => rfl⟩, by decide +kernel⟩,
   ⟨.usb, 12, withImg (ports [(12, 4, 1, 1)]) (up [(ADP_STAT_PERS 12, 1), (ADP_STAT_STATE 12, 2)]), by unfold writable; decide +kernel, by decide +kernel⟩,
   ⟨.usb, 16, 0x00000000, withImg (img [⟨1, 0, [16, 4, 2, 1, 0, 0, 0, 0]⟩, ⟨3, 0, tmplE⟩]) (up []), ⟨by unfold writable; decide +kernel, fun _ _ => rfl⟩, by decide +kernel⟩,
   ⟨.usb, 16, 0x50000000, 7, withImg (img [⟨1, 0, [16, 4, 2, 1, 0, 0, 0, 0]⟩, ⟨3, 0, tmplE⟩]) (up []), ⟨by unfold writable; decide +kernel, fun _ _ => rfl⟩, by decide +kernel⟩,
   ⟨.usb, 16, withImg (img [⟨1, 0, [16, 4, 2, 1, 0, 0, 0, 0]⟩, ⟨3, 0, tmplE⟩]) (up [(CFG_STATUS_LOADED, 1)]), ⟨by unfold writable; decide +kernel, fun _ _ => rfl⟩, by decide +kernel⟩,
   ⟨.usb, 16, 9216, withImg (img [⟨1, 0, [16, 4, 2, 1, 0, 0, 0, 0]⟩, ⟨3, 0, tmplE⟩]) (up [(CFG_STATUS_LOADED, 1)]), ⟨by unfold writable; decide +kernel, fun _ _ => rfl⟩, by decide +kernel⟩,
   ⟨.usb, 16, 9216, withImg (img [⟨1, 0, [16, 4, 2, 1, 0, 0, 0, 0]⟩, ⟨3, 0, tmplE⟩]) (up [(GRV_CALST_BT 16, 300), (ADP_STAT_PERS 16, 2), (GRV_CALA_ENTRY 16 0, 0x18000000)]), ⟨by unfold writable; decide +kernel, fun _ _ => rfl⟩, by decide +kernel⟩⟩

theorem test_LinkAndLaneCommands_hyps :
    (∃ (p : Path) (q : CanPort) (s : State), plainly s p (portReg q.val 0x600 4) ∧ canActive s q.val = true) ∧
    (∃ (p : Path) (q : CanPort) (s : State), plainly s p (portReg q.val 0x600 4) ∧ canActive s q.val = false ∧ bringingUp s q.val = true ∧ (portCells q.val).any (fun c => !(s.lane c).faulted) = true) ∧
    (∃ (c : Crown) (v : Word) (s : State), plainly s (tunPath c.val) (0x102004 + 0x10000 * c.val) ∧ bits v.toNat 14 0 ≠ s.rd (CAN_UPREF_REF c.val)) ∧
    (∃ (c : Crown) (v : Word) (s : State), plainly s (tunPath c.val) (0x102004 + 0x10000 * c.val) ∧ bits v.toNat 14 0 = s.rd (CAN_UPREF_REF c.val)) ∧
    (∃ (p : Path) (c : LaneCell) (s : State), plainly s p (0x200000 + 0x1000 * c.val) ∧ cellPort c.val < 8 ∧ canRetrain s (cellPort c.val) = true ∧ portFenced s (cellPort c.val) = false) ∧
    (∃ (p : Path) (c : LaneCell) (s : State), plainly s p (0x200000 + 0x1000 * c.val) ∧ cellPort c.val < 8 ∧ canRetrain s (cellPort c.val) = true ∧ portFenced s (cellPort c.val) = true) ∧
    (∃ (p : Path) (c : LaneCell) (s : State), plainly s p (0x200000 + 0x1000 * c.val) ∧ s.rd (LC_CTL_RTRN c.val) = 0 ∧ (∀ d ∈ groupCells s (servedPort s c.val), s.rd (LC_CTL_HOLD d) = 0) ∧ (s.ld.image = none ∨ configured s (servedPort s c.val) = true) ∧ c.val ∈ groupCells s (servedPort s c.val) ∧ (s.lane c.val).faulted = false ∧ s.rd (LC_TEST_EN c.val) = 0) ∧
    (∃ (p : Path) (c : LaneCell) (s : State), plainly s p (0x200000 + 0x1000 * c.val) ∧ s.rd (LC_CTL_RTRN c.val) = 0 ∧ s.rd (LC_CTL_HOLD c.val) = 1) ∧
    (∃ (p : Path) (c : LaneCell) (v : Word) (s : State), plainly s p (0x200020 + 0x1000 * c.val) ∧ bit v.toNat 31 = true ∧ s.rd (LC_TEST_EN c.val) = 0 ∧ s.rd (LC_CTL_HOLD c.val) = 1 ∧ s.rd (LC_STAT_STATE c.val) = 7) ∧
    (∃ (p : Path) (c : LaneCell) (v : Word) (s : State), plainly s p (0x200020 + 0x1000 * c.val) ∧ bit v.toNat 31 = true ∧ s.rd (LC_TEST_EN c.val) = 0 ∧ (s.rd (LC_CTL_HOLD c.val) = 0 ∨ s.rd (LC_STAT_STATE c.val) ≠ 7)) ∧
    (∃ (p : Path) (c : LaneCell) (v : Word) (s : State), plainly s p (0x200020 + 0x1000 * c.val) ∧ bit v.toNat 31 = false ∧ s.rd (LC_TEST_EN c.val) = 1 ∧ s.rd (LC_STAT_STATE c.val) = 6) ∧
    (∃ (p : Path) (c : LaneCell) (s : State), plainly s p (0x200020 + 0x1000 * c.val)) ∧
    (∃ (p : Path) (c : LaneCell) (s : State), plainly s p (0x200024 + 0x1000 * c.val) ∧ (s.rd (LC_STAT_STATE c.val) = 6 ∨ s.rd (LC_STAT_STATE c.val) = lcUP ∧ debugLocked s = false)) ∧
    (∃ (p : Path) (c : LaneCell) (s : State), plainly s p (0x200024 + 0x1000 * c.val) ∧ s.rd (LC_STAT_STATE c.val) ≠ 6 ∧ (s.rd (LC_STAT_STATE c.val) ≠ lcUP ∨ debugLocked s = true)) :=
  ⟨⟨.usb, 0, can 0 { entered := 1 } (up []), ⟨by unfold writable; decide +kernel, fun _ _ => rfl⟩, by decide +kernel⟩,
   ⟨.usb, 0, { up [(CAN_STAT_STATE 0, 2)] with cn := [(0, { entered := 1 })] }, ⟨by unfold writable; decide +kernel, fun _ _ => rfl⟩, by decide +kernel⟩,
   ⟨0, 0x7FFF, can 0 { entered := 1 } (up [(CFG_STATUS_LOADED, 1)]), ⟨by unfold writable; decide +kernel, fun _ _ => rfl⟩, by decide +kernel⟩,
   ⟨1, 3, can 1 { entered := 1 } (up [(CFG_STATUS_LOADED, 0), (CAN_UPREF_REF 1, 3)]), ⟨by unfold writable; decide +kernel, fun _ _ => rfl⟩, by decide +kernel⟩,
   ⟨.usb, 0, can 0 { entered := 1 } (up [(LC_STAT_STATE 0, 4), (LC_STAT_STATE 1, 4)]), ⟨by unfold writable; decide +kernel, fun _ _ => rfl⟩, by decide +kernel⟩,
   ⟨.usb, 0, can 0 { entered := 1 } (up [(LC_STAT_STATE 0, 4), (LC_STAT_STATE 1, 4), (RST_FLTSTAT_SEQ, 4), (RST_FLTSTAT_GFFOR, 0)]), ⟨by unfold writable; decide +kernel, fun _ _ => rfl⟩, by decide +kernel⟩,
   ⟨.usb, 0, can 0 { entered := 1 } (up [(LC_STAT_STATE 0, 4), (LC_STAT_STATE 1, 4)]), ⟨by unfold writable; decide +kernel, fun _ _ => rfl⟩, by decide +kernel⟩,
   ⟨.usb, 31, up [(LC_CTL_HOLD 31, 1), (LC_STAT_STATE 31, 7)], ⟨by unfold writable; decide +kernel, fun _ _ => rfl⟩, by decide +kernel⟩,
   ⟨.usb, 31, 0x80000000, up [(LC_CTL_HOLD 31, 1), (LC_STAT_STATE 31, 7)], ⟨by unfold writable; decide +kernel, fun _ _ => rfl⟩, by decide +kernel⟩,
   ⟨.usb, 31, 0x80000000, up [], ⟨by unfold writable; decide +kernel, fun _ _ => rfl⟩, by decide +kernel⟩,
   ⟨.usb, 31, 0x7FFFFFFF, up [(LC_TEST_EN 31, 1), (LC_STAT_STATE 31, 6), (LC_CTL_HOLD 31, 1)], ⟨by unfold writable; decide +kernel, fun _ _ => rfl⟩, by decide +kernel⟩,
   ⟨.usb, 31, up [(LC_TEST_EN 31, 1), (LC_STAT_STATE 31, 6), (LC_CTL_HOLD 31, 1), (LC_CHKA_ERR 31, 3), (LC_CHKB_ERR 31, 3)], ⟨by unfold writable; decide +kernel, fun _ _ => rfl⟩⟩,
   ⟨.usb, 31, up [(LC_TEST_EN 31, 1), (LC_STAT_STATE 31, 6), (LC_CTL_HOLD 31, 1)], ⟨by unfold writable; decide +kernel, fun _ _ => rfl⟩, by decide +kernel⟩,
   ⟨.usb, 31, up [], ⟨by unfold writable; decide +kernel, fun _ _ => rfl⟩, by decide +kernel⟩⟩

theorem test_TimeBaseCommands_hyps :
    (∃ (p : Path) (n : TimeBase) (s : State), plainly s p (0x50004 + 0x40 * n.val)) ∧
    (∃ (p : Path) (n : TimeBase) (s : State), plainly s p (0x50008 + 0x40 * n.val)) ∧
    (∃ (p : Path) (n : TimeBase) (v : Word) (s : State), plainly s p (0x50000 + 0x40 * n.val) ∧ bit v.toNat 31 = true ∧ bits v.toNat 30 27 = 0 ∧ tbRunning s n.val = false) ∧
    (∃ (p : Path) (n : TimeBase) (v : Word) (s : State), plainly s p (0x50000 + 0x40 * n.val) ∧ bit v.toNat 31 = true ∧ 8 ≤ bits v.toNat 30 27 ∧ tbRunning s n.val = false) ∧
    (∃ (p : Path) (n : TimeBase) (v : Word) (s : State), plainly s p (0x50000 + 0x40 * n.val) ∧ bit v.toNat 31 = true ∧ tbRunning s n.val = true) ∧
    (∃ (p : Path) (n : TimeBase) (v : Word) (s : State), plainly s p (0x50000 + 0x40 * n.val) ∧ bit v.toNat 31 = false) ∧
    (∃ (p : Path) (n : TimeBase) (b : Bool) (s : State), plainly s p ((if b then 0x50010 else 0x5000C) + 0x40 * n.val) ∧ tbRunning s n.val = false) ∧
    (∃ (p : Path) (n : TimeBase) (b : Bool) (s : State), plainly s p ((if b then 0x50010 else 0x5000C) + 0x40 * n.val) ∧ tbRunning s n.val = true) ∧
    (∃ (p : Path) (s : State), writable s p 0x50200) ∧
    (∃ (p : Path) (e : EvtPin) (s : State), plainly s p (0x50400 + 0x20 * e.val) ∧ evtFn s e.val = 0 ∧ (s.evt e.val).active = true ∧ (s.rd (TIM_EVCTL_MODE e.val) = 2 ∨ s.rd (TIM_EVCTL_MODE e.val) = 4)) :=
  ⟨⟨.usb, 3, up [(TIM_TBINCF_FRAC 3, 0xFFFFFFFF)], ⟨by unfold writable; decide +kernel, fun _ _ => rfl⟩⟩,
   ⟨.usb, 3, up [(TIM_TBINCF_FRAC 3, 0xFFFFFFFF)], ⟨by unfold writable; decide +kernel, fun _ _ => rfl⟩⟩,
   ⟨.usb, 3, 0x80000000, up [(TIM_TBWRAP_WRAPS 3, 5)], ⟨by unfold writable; decide +kernel, fun _ _ => rfl⟩, by decide +kernel⟩,
   ⟨.usb, 3, 0xC0000000, up [(TIM_TBWRAP_WRAPS 3, 5)], ⟨by unfold writable; decide +kernel, fun _ _ => rfl⟩, by decide +kernel⟩,
   ⟨.usb, 3, 0xC0000000, up [(TIM_TBWRAP_WRAPS 3, 5), (TIM_TBCTL_RUN 3, 1)], ⟨by unfold writable; decide +kernel, fun _ _ => rfl⟩, by decide +kernel⟩,
   ⟨.usb, 3, 0x7FFFFFFF, up [(TIM_TBWRAP_WRAPS 3, 5), (TIM_TBCTL_RUN 3, 1), (TIM_TBCTL_ARMED 3, 1)], ⟨by unfold writable; decide +kernel, fun _ _ => rfl⟩, by decide +kernel⟩,
   ⟨.usb, 3, true, up [], ⟨by unfold writable; decide +kernel, fun _ _ => rfl⟩, by decide +kernel⟩,
   ⟨.usb, 3, true, up [(TIM_TBCTL_RUN 3, 1)], ⟨by unfold writable; decide +kernel, fun _ _ => rfl⟩, by decide +kernel⟩,
   ⟨.usb, { up [(SCHED_FRAME_COUNT, 77)] with tb := [(3, 2 ^ 64 - 1)], sc := { ({} : Sched) with lpos := 2 ^ 40 } }, by unfold writable; decide +kernel⟩,
   ⟨.usb, 7, { up [(TIM_EVCTL_MODE 7, 4), (TIM_EVCTL_POL 7, 1)] with ev := [(7, { active := true })] }, ⟨by unfold writable; decide +kernel, fun _ _ => rfl⟩, by decide +kernel⟩⟩

theorem test_ResetAndPowerCommands_hyps :
    (∃ (p : Path) (s : State), plainly s p 0x1010C ∧ debugLocked s = true) ∧
    (∃ (p : Path) (v : Word) (s : State), plainly s p 0x1010C ∧ debugLocked s = false ∧ bits v.toNat 27 24 = 1 ∧ reportable 1 (bits v.toNat 7 0) s = true ∧ recentReports s = []) ∧
    (∃ (p : Path) (v : Word) (s : State), plainly s p 0x10004 ∧ bits v.toNat 31 24 = 0xA5) ∧
    (∃ (p : Path) (v : Word) (s : State), plainly s p 0x10004 ∧ bits v.toNat 31 24 = 0xA5 ∧ bit v.toNat 2 = false ∧ ¬(s.bt.srcs = [] ∧ s.bt.fusing = true ∧ 1 ≤ s.bt.released)) ∧
    (∃ (p : Path) (v : Word) (s : State), plainly s p 0x10004 ∧ bits v.toNat 31 24 = 0xA5 ∧ bit v.toNat 2 = false ∧ bit v.toNat 3 = false ∧ s.bt.srcs = [] ∧ s.bt.fusing = true ∧ 1 ≤ s.bt.released) ∧
    (∃ (p : Path) (v : Word) (s : State), plainly s p 0x10004 ∧ bits v.toNat 31 24 ≠ 0xA5 ∧ bit v.toNat 3 = false) ∧
    (∃ (p : Path) (v : Word) (s : State), plainly s p 0x10004 ∧ bit v.toNat 1 = false ∧ bit v.toNat 2 = false ∧ bits v.toNat 12 8 < 20 ∧ configured s (bits v.toNat 12 8) = true) ∧
    (∃ (p : Path) (v : Word) (s : State), plainly s p 0x20000 ∧ bits v.toNat 2 0 ≤ 4 ∧ s.rd PST_PSSTAT_STATE < 3 ∧ s.rd PST_PSSTAT_PHASE = 0 ∧ s.on SYS_STAGE_FWRDY = true ∧ entryAllowed (s.rd PST_PSSTAT_STATE) (bits v.toNat 2 0) = true ∧ bits v.toNat 2 0 ≠ 0) ∧
    (∃ (p : Path) (v : Word) (s : State), plainly s p 0x20000 ∧ bits v.toNat 2 0 ≤ 4 ∧ s.rd PST_PSSTAT_STATE < 3 ∧ s.rd PST_PSSTAT_PHASE = 0 ∧ s.on SYS_STAGE_FWRDY = true ∧ entryAllowed (s.rd PST_PSSTAT_STATE) (bits v.toNat 2 0) = true ∧ bits v.toNat 2 0 = 0) ∧
    (∃ (p : Path) (v : Word) (s : State), plainly s p 0x20000 ∧ bits v.toNat 2 0 ≤ 4 ∧ s.rd PST_PSSTAT_STATE < 3 ∧ (s.rd PST_PSSTAT_PHASE ≠ 0 ∨ s.on SYS_STAGE_FWRDY = true ∧ entryAllowed (s.rd PST_PSSTAT_STATE) (bits v.toNat 2 0) = false)) ∧
    (∃ (p : Path) (q : CanPort) (s : State), plainly s p (0x70000 + 0x40 * q.val) ∧ attached s q.val = true ∧ s.rd (PD_CTL_HRST q.val) = 0 ∧ s.rd (PD_CTL_ERREC q.val) = 0 ∧ (s.pdp q.val).hards < 3) ∧
    (∃ (p : Path) (q : CanPort) (s : State), plainly s p (0x70000 + 0x40 * q.val) ∧ attached s q.val = true ∧ s.rd (PD_CTL_HRST q.val) = 0 ∧ s.rd (PD_CTL_ERREC q.val) = 0) ∧
    (∃ (p : Path) (n : Channel) (s : State), plainly s p (0x80000 + 0x20 * n.val) ∧ s.rd (PC_STAT_STATE n.val) = 6 ∧ mget 0 s.pw.latchedAt n.val ≠ s.clock + 1) ∧
    (∃ (p : Path) (v : Word) (s : State), plainly s p 0x20020 ∧ 6000 ≤ bits v.toNat 15 0 ∧ bits v.toNat 15 0 ≤ s.rd PST_CORE_CEIL) ∧
    (∃ (p : Path) (v : Word) (s : State), plainly s p 0x20020 ∧ (bits v.toNat 15 0 < 6000 ∨ s.rd PST_CORE_CEIL < bits v.toNat 15 0)) :=
  ⟨⟨.usb, up [(FUSE_DBG_V, 1)], ⟨by unfold writable; decide +kernel, fun _ _ => rfl⟩, by decide +kernel⟩,
   ⟨.usb, 0x81000003, up [], ⟨by unfold writable; decide +kernel, fun _ _ => rfl⟩, by decide +kernel⟩,
   ⟨.usb, 0xA5000002, up [(PC_STAT_STATE 3, 3), (CFG_STATUS_LOADED, 1)], ⟨by unfold writable; decide +kernel, fun _ _ => rfl⟩, by decide +kernel⟩,
   ⟨.usb, 0xA5000000, up [(PC_STAT_STATE 3, 3), (CFG_STATUS_LOADED, 1)], ⟨by unfold writable; decide +kernel, fun _ _ => rfl⟩, by decide +kernel⟩,
   ⟨.usb, 0xA5000000, { up [] with bt := { (up []).bt with fusing := true } }, ⟨by unfold writable; decide +kernel, fun _ _ => rfl⟩, by decide +kernel⟩,
   ⟨.usb, 0xA4000006, up [], ⟨by unfold writable; decide +kernel, fun _ _ => rfl⟩, by decide +kernel⟩,
   ⟨.usb, 0x00000808, withImg (ports [(8, 3, 1, 0)]) (up [(ADP_STAT_STATE 8, 2)]), ⟨by unfold writable; decide +kernel, fun _ _ => rfl⟩, by decide +kernel⟩,
   ⟨.usb, 4, up [], ⟨by unfold writable; decide +kernel, fun _ _ => rfl⟩, by decide +kernel⟩,
   ⟨.usb, 0, up [(PST_PSSTAT_STATE, 1)], ⟨by unfold writable; decide +kernel, fun _ _ => rfl⟩, by decide +kernel⟩,
   ⟨.usb, 0, up [], ⟨by unfold writable; decide +kernel, fun _ _ => rfl⟩, by decide +kernel⟩,
   ⟨.usb, 7, { up [(PD_STAT_CCST 7, 2), (PD_STAT_CONTR 7, 4)] with pd := [(7, { hards := 2 })] }, ⟨by unfold writable; decide +kernel, fun _ _ => rfl⟩, by decide +kernel⟩,
   ⟨.usb, 7, { up [(PD_STAT_CCST 7, 2), (PD_STAT_CONTR 7, 4)] with pd := [(7, { hards := 2 })] }, ⟨by unfold writable; decide +kernel, fun _ _ => rfl⟩, by decide +kernel⟩,
   ⟨.usb, 9, up [(PC_STAT_STATE 9, 6)], ⟨by unfold writable; decide +kernel, fun _ _ => rfl⟩, by decide +kernel⟩,
   ⟨.usb, 6000, up [(PST_CORE_CEIL, 9000), (CFG_STATUS_LOADED, 1)], ⟨by unfold writable; decide +kernel, fun _ _ => rfl⟩, by decide +kernel⟩,
   ⟨.usb, 5999, up [(PST_CORE_CEIL, 9000), (CFG_STATUS_LOADED, 1)], ⟨by unfold writable; decide +kernel, fun _ _ => rfl⟩, by decide +kernel⟩⟩

theorem test_KeyCommands_hyps :
    (∃ (p : Path) (v : Word) (s : State), plainly s p 0x60000 ∧ s.on (KEY_STAT_BUSY p.idx) = false ∧ s.kv.storing = none ∧ holdsOff s 16 = false ∧ s.kv.waiting = [] ∧ s.on KEY_VAULT_FROZEN = false ∧ s.on KEY_VAULT_HALT = false ∧ s.on KEY_VAULT_KEKV = true ∧ s.on KEY_VAULT_STHOLD = false ∧ 1 ≤ bits v.toNat 15 8 ∧ bits v.toNat 15 8 ≤ 4 ∧ keyRecord s (bits v.toNat 15 8) = none) ∧
    (∃ (p : Path) (v : Word) (s : State), plainly s p 0x60000 ∧ s.on (KEY_STAT_BUSY p.idx) = false ∧ s.kv.storing = none ∧ holdsOff s 16 = false ∧ s.kv.waiting = [] ∧ s.on KEY_VAULT_FROZEN = false ∧ s.on KEY_VAULT_HALT = false ∧ p = .p43 ∧ bit (s.rd FUSE_KEYPOL_V) 0 = true ∧ 2 ≤ bits v.toNat 20 16 ∧ bits v.toNat 20 16 ≤ 5 ∧ (bits v.toNat 15 8 = 32 ∨ bits v.toNat 15 8 = 48 ∨ bits v.toNat 15 8 = 64)) ∧
    (∃ (p : Path) (s : State), plainly s p 0x60000 ∧ s.on (KEY_STAT_BUSY p.idx) = false ∧ s.kv.storing = none ∧ holdsOff s 16 = false ∧ s.kv.waiting = [] ∧ s.on KEY_VAULT_FROZEN = false ∧ s.on KEY_VAULT_HALT = false ∧ (p ≠ .p43 ∨ bit (s.rd FUSE_KEYPOL_V) 0 = false)) ∧
    (∃ (p : Path) (v : Word) (s : State), plainly s p 0x60000 ∧ s.on (KEY_STAT_BUSY p.idx) = false ∧ s.kv.storing = none ∧ holdsOff s 16 = false ∧ s.kv.waiting = [] ∧ s.on KEY_VAULT_FROZEN = false ∧ s.on KEY_VAULT_HALT = false ∧ 2 ≤ bits v.toNat 20 16 ∧ bits v.toNat 20 16 ≤ 5) ∧
    (∃ (p : Path) (v : Word) (s : State), plainly s p 0x60000 ∧ s.on (KEY_STAT_BUSY p.idx) = false ∧ s.kv.storing = none ∧ holdsOff s 16 = false ∧ s.kv.waiting = [] ∧ s.on KEY_VAULT_FROZEN = false ∧ s.on KEY_VAULT_HALT = false ∧ s.on KEY_VAULT_KEKV = true ∧ s.on KEY_VAULT_STHOLD = false ∧ 2 ≤ bits v.toNat 20 16 ∧ bits v.toNat 20 16 ≤ 5 ∧ bits v.toNat 15 8 = 0 ∧ s.on CFG_STATUS_LOADED = true ∧ s.rd (KEY_SLOT_STATE (bits v.toNat 20 16)) = 2) ∧
    (∃ (p : Path) (s : State), plainly s p 0x60000 ∧ s.on (KEY_STAT_BUSY p.idx) = false ∧ s.kv.storing = none ∧ holdsOff s 16 = false ∧ s.kv.waiting = [] ∧ s.on KEY_VAULT_FROZEN = false ∧ s.on KEY_VAULT_HALT = false ∧ s.on KEY_VAULT_KEKV = true ∧ s.on KEY_VAULT_STHOLD = false ∧ recordCode s (keyData s p.idx 128) = 1 ∧ (∀ b, currentRecord s (byteAt (keyData s p.idx 128) 4) = some b → leAt b 8 4 < leAt (keyData s p.idx 128) 8 4)) ∧
    (∃ (p : Path) (s : State), plainly s p 0x60000 ∧ s.on (KEY_STAT_BUSY p.idx) = false ∧ s.kv.storing = none ∧ holdsOff s 16 = false ∧ s.kv.waiting = [] ∧ s.on KEY_VAULT_FROZEN = false ∧ s.on KEY_VAULT_HALT = false ∧ s.on KEY_VAULT_KEKV = true ∧ s.on KEY_VAULT_STHOLD = false ∧ recordCode s (keyData s p.idx 128) ≠ 1) ∧
    (∃ (p : Path) (s : State), plainly s p 0x60000 ∧ s.on (KEY_STAT_BUSY p.idx) = false ∧ s.kv.storing = none ∧ holdsOff s 16 = false ∧ s.kv.waiting = [] ∧ s.on KEY_VAULT_FROZEN = false ∧ s.on KEY_VAULT_HALT = false) ∧
    (∃ (p : Path) (s : State), plainly s p 0x60000 ∧ s.on (KEY_STAT_BUSY p.idx) = false ∧ s.kv.storing = none ∧ holdsOff s 16 = false ∧ s.kv.waiting = [] ∧ (s.on KEY_VAULT_FROZEN = true ∨ s.on KEY_VAULT_HALT = true)) ∧
    (∃ (p : Path) (s : State), plainly s p 0x60000 ∧ s.on (KEY_STAT_BUSY p.idx) = true) ∧
    (∃ (p : Path) (s : State), plainly s p 0x60000 ∧ s.on (KEY_STAT_BUSY p.idx) = true) ∧
    (∃ (p : Path) (s : State), plainly s p 0x60000 ∧ s.on (KEY_STAT_BUSY p.idx) = true) ∧
    (∃ (p : Path) (s : State), plainly s p 0x60000 ∧ s.on (KEY_STAT_BUSY p.idx) = true) ∧
    (∃ (p : Path) (s : State), plainly s p 0x60000 ∧ s.on (KEY_STAT_BUSY p.idx) = true) ∧
    (∃ (p : Path) (s : State), plainly s p 0x60000 ∧ s.on (KEY_STAT_BUSY p.idx) = true) ∧
    (∃ (p : Path) (s : State), plainly s p 0x60000 ∧ s.on (KEY_STAT_BUSY p.idx) = false ∧ (s.kv.storing.isSome = true ∨ holdsOff s 16 = true) ∧ s.kv.waiting = []) :=
  ⟨⟨.usb, 0x100, up [(KEY_VAULT_KEKV, 1)], ⟨by unfold writable; decide +kernel, fun _ _ => rfl⟩, by decide +kernel⟩,
   ⟨.p43, 0x052000, up [(FUSE_KEYPOL_V, 1), (SYS_STAGE_STAGE, 1), (KEY_DATA_DATA 0 0, 0x12345678), (KEY_DATA_DATA 0 7, 0x12345678)], ⟨by unfold writable; decide +kernel, fun _ _ => rfl⟩, by decide +kernel⟩,
   ⟨.usb, up [(FUSE_KEYPOL_V, 1)], ⟨by unfold writable; decide +kernel, fun _ _ => rfl⟩, by decide +kernel⟩,
   ⟨.usb, 0x052000, { up [(KEY_SLOT_STATE 5, 2)] with kv := { ({} : Vault) with slots := [(5, [1, 2])] } }, ⟨by unfold writable; decide +kernel, fun _ _ => rfl⟩, by decide +kernel⟩,
   ⟨.usb, 0x020000, { up [(KEY_SLOT_STATE 2, 2), (KEY_SLOT_LEN 2, 32), (KEY_VAULT_KEKV, 1), (CFG_STATUS_LOADED, 1)] with kv := { ({} : Vault) with slots := [(2, List.replicate 32 7)] } }, ⟨by unfold writable; decide +kernel, fun _ _ => rfl⟩, by decide +kernel⟩,
   ⟨.usb, up ([(KEY_VAULT_KEKV, 1)] ++ tomb 1 5), ⟨by unfold writable; decide +kernel, fun _ _ => rfl⟩, by decide +kernel⟩,
   ⟨.usb, up [(KEY_VAULT_KEKV, 1)], ⟨by unfold writable; decide +kernel, fun _ _ => rfl⟩, by decide +kernel⟩,
   ⟨.usb, { up [(KEY_VAULT_KEKV, 1), (KEY_SLOT_STATE 9, 2)] with kv := { ({} : Vault) with slots := [(9, [3])] } }, ⟨by unfold writable; decide +kernel, fun _ _ => rfl⟩, by decide +kernel⟩,
   ⟨.usb, up [(KEY_VAULT_HALT, 1)], ⟨by unfold writable; decide +kernel, fun _ _ => rfl⟩, by decide +kernel⟩,
   ⟨.usb, up [(KEY_STAT_BUSY 1, 1)], ⟨by unfold writable; decide +kernel, fun _ _ => rfl⟩, by decide +kernel⟩,
   ⟨.usb, up [(KEY_STAT_BUSY 1, 1)], ⟨by unfold writable; decide +kernel, fun _ _ => rfl⟩, by decide +kernel⟩,
   ⟨.usb, up [(KEY_STAT_BUSY 1, 1)], ⟨by unfold writable; decide +kernel, fun _ _ => rfl⟩, by decide +kernel⟩,
   ⟨.usb, up [(KEY_STAT_BUSY 1, 1)], ⟨by unfold writable; decide +kernel, fun _ _ => rfl⟩, by decide +kernel⟩,
   ⟨.usb, up [(KEY_STAT_BUSY 1, 1)], ⟨by unfold writable; decide +kernel, fun _ _ => rfl⟩, by decide +kernel⟩,
   ⟨.usb, up [(KEY_STAT_BUSY 1, 1)], ⟨by unfold writable; decide +kernel, fun _ _ => rfl⟩, by decide +kernel⟩,
   ⟨.usb, { up [(KEY_VAULT_KEKV, 1)] with kv := { ({} : Vault) with storing := some (.tun0, []) } }, ⟨by unfold writable; decide +kernel, fun _ _ => rfl⟩, by decide +kernel⟩⟩

theorem test_StoresEndAndAlarmsLatch_hyps :
    (∃ (p : Path) (r : Bytes) (s : State), Canonical s ∧ s.kv.storing = some (p, r) ∧ s.kv.waiting = [] ∧ r.length = 128 ∧ s.rd KEY_BLOB_NEXT ≠ 31) ∧
    (∃ (p : Path) (r : Bytes) (s : State), Canonical s ∧ s.kv.storing = some (p, r) ∧ s.kv.waiting = []) ∧
    (∃ s : State, s.kv.storing = none) ∧
    (∃ s : State, s.kv.storing = none ∧ s.kv.waiting = []) :=
  ⟨⟨.usb, List.replicate 128 7, { up [(KEY_STAT_BUSY 1, 1), (KEY_BLOB_PAGE, 15), (KEY_BLOB_NEXT, 30)] with kv := { ({} : Vault) with storing := some (.usb, List.replicate 128 7) } }, by unfold Canonical; decide +kernel, by decide +kernel⟩,
   ⟨.usb, List.replicate 128 7, { up [(KEY_STAT_BUSY 1, 1), (KEY_BLOB_PAGE, 15), (KEY_BLOB_NEXT, 31)] with kv := { ({} : Vault) with storing := some (.usb, List.replicate 128 7) } }, by unfold Canonical; decide +kernel, by decide +kernel⟩,
   ⟨up [], by decide +kernel⟩,
   ⟨{ up [(FUSE_TAMPOL_V, 2), (KEY_SLOT_STATE 9, 2), (CFG_STATUS_LOADED, 1)] with kv := { ({} : Vault) with slots := [(9, [3])] } }, by decide +kernel⟩⟩


/-! ### Copies of an image in the boot flash -/

/-- A smallest image of the TL9616: every port unused. -/
def smallSecs : List Sec :=
  [0, 1, 4].flatMap (fun g =>
    [⟨1, g, ((List.range 20).filter fun p => portGrove p = g).flatMap fun p => BitVec.ofNat 8 p :: List.replicate 7 0⟩,
     ⟨2, g, [0, 1, 2, 3].flatMap fun c => (c : Byte) :: List.replicate 7 0⟩]) ++
  [⟨0x10, 0xFFFF, [0, 3, 2, 3, 1, 4, 7, 0]⟩,
   ⟨0x11, 0xFFFF, [152, 58, 184, 11, 220, 5, 0, 0] ++
      [1, 2].flatMap (fun _ => [128, 169, 3, 0, 224, 147, 4, 0, 160, 15, 8, 82, 136, 19, 0, 0]) ++
      (List.range 6).flatMap (fun _ => [136, 19, 64, 31, 30, 0, 10, 10, 0, 3, 0, 0, 0, 0, 0, 0]) ++
      List.replicate 104 0 ++ List.replicate 32 0xFF⟩,
   ⟨0x12, 0xFFFF, List.replicate 12 0 ++ [1, 2, 3, 4, 5].flatMap (fun _ => [1, 0]) ++ (List.range 17).flatMap fun _ => [255, 0]⟩]
/-- Sections laid out from an offset, each at a multiple of 16. -/
def layout : Nat → List Sec → List (Sec × Nat)
  | _, [] => []
  | o, x :: r => (x, o) :: layout (o + (x.data.length + 15) / 16 * 16) r
/-- A byte string in the flash from an address on. -/
def put : Nat → Bytes → NMap Byte
  | _, [] => []
  | a, x :: r => (a, x) :: put (a + 1) r
/-- A container of sections with a MAGIC: header, directory, sections, and a signature block of zeros. -/
def container (magic : Bytes) (secs : List Sec) : Bytes :=
  let l := layout 0x500 secs
  let len := 0x600 + (l.map fun e => (e.1.data.length + 15) / 16 * 16).sum
  let d := l.flatMap fun e => leBytes 2 e.1.ty ++ leBytes 2 e.1.inst ++ leBytes 4 e.2 ++ leBytes 4 e.1.data.length ++ leBytes 4 (crcStrict e.1.data)
  magic ++ leBytes 2 1 ++ leBytes 2 0x100 ++ leBytes 4 len ++ leBytes 4 7 ++ leBytes 4 1 ++ leBytes 4 5 ++ leBytes 4 0 ++ leBytes 2 secs.length ++
    List.replicate 226 0 ++ d ++ List.replicate (0x400 - d.length) 0 ++
    secs.flatMap (fun e => e.data ++ List.replicate ((e.data.length + 15) / 16 * 16 - e.data.length) 0) ++ List.replicate 256 0
def smallImage : Bytes := container [0x54, 0x4C, 0x49, 0x4D] smallSecs
/-- The header of a copy alone, and the key of its signature. -/
def header (a : Nat) : NMap Byte :=
  put a ([0x54, 0x4C, 0x49, 0x4D] ++ leBytes 2 1 ++ leBytes 2 0x100 ++ leBytes 4 0x600 ++ leBytes 4 7 ++ leBytes 4 1) ++ [(a + 0x500, 0)]
/-- A started TL9616 with a boot flash. -/
def hub (l : List (Fld × Nat)) (f : NMap Byte) (ld : Loader) : State := { up (l ++ [(FUSE_VAR_V, 3)]) with flash := f, ld := ld }
theorem mfind_put (b : Bytes) (a i : Nat) : mfind (put a b) (a + i) = b[i]? := by
  induction b generalizing a i with
  | nil => rfl
  | cons x r ih =>
    cases i with
    | zero => simp [put, mfind]
    | succ i =>
      have h : a + (i + 1) ≠ a := by omega
      simp only [put, mfind, h, if_false, List.getElem?_cons_succ]
      rw [← ih (a + 1) i]
      congr 1
      omega
theorem memRead_put (d : Byte) (a n : Nat) (b : Bytes) (h : n ≤ b.length) : memRead d (put a b) a n = b.take n := by
  apply List.ext_getElem?
  intro i
  by_cases hi : i < n
  · have hb : i < b.length := by omega
    simp [memRead, memGet, mget, mfind_put, hi, hb]
  · simp [memRead, hi]

/-! ### Statements that rest on a cryptographic check, whose outcome no file of the model gives -/

theorem test_step_hyps : (∃ (c : Instr) (q : List Instr) (s : State), s.pending = c :: q) ∧ (∃ s : State, s.pending = []) ∧
    (∃ s t : State, Canonical s ∧ step s = .next t) :=
  ⟨⟨.load .usb 0, [.zeroise .usb], { st [] with pending := [.load .usb 0, .zeroise .usb] }, rfl⟩, ⟨st [], rfl⟩,
   ⟨{ st [] with pending := [.zeroise .usb] }, _, by unfold Canonical; decide +kernel, rfl⟩⟩

/-- A hub about to load an image, and one that streams copy A. -/
def loading (f : NMap Byte) : State := hub [] f {}
def streaming (o : Bool) (f : NMap Byte) : State := hub [] f { ({} : Loader) with doing := .streaming false o false }
theorem test_ImagesLoad_ready : (let s := loading []
    s.on SYS_STAGE_FWRDY = true ∧ engineRuns s = true ∧ s.on CFG_STATUS_LOADED = false ∧ s.on CFG_STATUS_HOLD = false ∧ s.ld.doing = .idle ∧
      s.on KEY_VAULT_STHOLD = false ∧ s.on KEY_VAULT_HALT = false) := by decide +kernel
theorem test_ImagesLoad_candidates_hyps (hash : Config.sha384 = fun _ => List.replicate 48 0) :
    (headerResult (loading (header 0x400000)) false = 1 ∧ headerResult (loading (header 0x400000)) true ≠ 1) ∧
    (headerResult (loading (header 0x800000)) false ≠ 1 ∧ headerResult (loading (header 0x800000)) true = 1) ∧
    (headerResult (loading (header 0x400000 ++ header 0x800000)) false = 1 ∧
      headerResult (loading (header 0x400000 ++ header 0x800000)) true = 1) := by
  unfold headerResult headerCode headerCodeAt
  rw [hash]
  decide +kernel
theorem test_ImagesLoad_fail_hyps :
    (∃ k s, s.ld.doing = .streaming false true false ∧ streamCode s false = (k, none)) ∧
    (∃ k s, s.ld.doing = .streaming false false false ∧ streamCode s false = (k, none)) :=
  ⟨⟨9, streaming true (header 0x400000), rfl, by decide +kernel⟩, ⟨9, streaming false (header 0x400000), rfl, by decide +kernel⟩⟩

theorem small_read : flashBytes (hub [] (put 0x400000 smallImage) {}) 0x400000 2032 = smallImage := by
  have h : smallImage.length = 2032 := by decide +kernel
  refine (memRead_put _ _ _ _ (by omega)).trans ?_
  exact List.take_of_length_le (by omega)

def smallIm : Image := { header := slice smallImage 0 0x500, svn := 1, serial := 5, enc := false, digest := List.replicate 48 0, secs := smallSecs }
/-- Every ball's bank is fed 1.8 V (`Config.bank33`, log entry 119). -/
theorem small_content (bank : Config.bank33 = fun _ => false) : contentCode 3 smallIm = 1 := by
  unfold contentCode otherOk pinsOk
  rw [bank]
  decide +kernel
theorem small_secs : ((directory smallImage).map fun e => ({ ty := e.ty, inst := e.inst, data := slice smallImage e.off e.len } : Sec)) = smallSecs := by decide +kernel
theorem small_crcs : ((directory smallImage).all fun e => decide (crcStrict (slice smallImage e.off e.len) = e.crc)) = true := by decide +kernel
theorem small_directory : directoryOk smallImage 2032 = true := by decide +kernel
theorem small_fields : leAt (smallImage.take 0x100) 8 4 = 2032 ∧ bit (leAt smallImage 0x18 4) 0 = false ∧
    leAt smallImage 0x10 4 = 1 ∧ leAt smallImage 0x14 4 = 5 := by decide +kernel
theorem small_stream (s : State) (hf : s.flash = put 0x400000 smallImage) (hv : variant s = 3)
    (hash : Config.sha384 = fun _ => List.replicate 48 0) (sig : Config.ecdsaOk = fun _ _ _ => true) (bank : Config.bank33 = fun _ => false) :
    streamCode s false = (1, some smallIm) := by
  have h : smallImage.length = 2032 := by decide +kernel
  have hb : flashBytes s 0x400000 2032 = smallImage := by
    rw [flashBytes, hf, memRead_put _ _ _ _ (by omega), List.take_of_length_le (by omega)]
  have hc : leAt (copyHeader s false) 8 4 = 2032 := by
    rw [show copyHeader s false = smallImage.take 0x100 by rw [copyHeader, flashBytes, hf]; exact memRead_put _ _ _ _ (by omega)]
    exact small_fields.1
  have hp : plaintext s smallImage = some smallImage := by rw [plaintext]; simp [small_fields.2.1]
  have hi : imageOf smallImage (List.replicate 48 0) = smallIm := by
    rw [imageOf, small_secs, small_fields.2.1, small_fields.2.2.1, small_fields.2.2.2]
    rfl
  unfold streamCode
  dsimp only
  rw [hc, show copyBase false = 0x400000 from rfl, hb, hash, sig, crc32_eq, hp]
  dsimp only
  rw [small_directory, small_crcs, hi, hv, small_content bank]
  rfl
theorem test_ImagesLoad_pass_hyps (hash : Config.sha384 = fun _ => List.replicate 48 0) (sig : Config.ecdsaOk = fun _ _ _ => true)
    (bank : Config.bank33 = fun _ => false) :
    ∃ k im s, s.ld.doing = .streaming false true false ∧ streamCode s false = (k, some im) :=
  ⟨1, smallIm, streaming true (put 0x400000 smallImage), rfl,
    small_stream _ rfl (by decide +kernel) hash sig bank⟩
/-- A reload of grove 1 from copy A under a running image. -/
def reloading (old : Image) : State :=
  hub [] (put 0x400000 smallImage) { ({} : Loader) with image := some old, reload := some ⟨1, false, false, []⟩ }
theorem reloading_header (hash : Config.sha384 = fun _ => List.replicate 48 0) :
    headerCode (reloading (img [])) false = 1 ∧ headerCode (reloading smallIm) false = 1 := by
  unfold headerCode headerCodeAt
  rw [hash]
  decide +kernel
theorem test_Reloads_hyps (hash : Config.sha384 = fun _ => List.replicate 48 0) (sig : Config.ecdsaOk = fun _ _ _ => true)
    (bank : Config.bank33 = fun _ => false) :
    (∃ r old s k new, s.ld.reload = some r ∧ s.ld.image = some old ∧ r.committed = false ∧ headerCode s r.copyB = 1 ∧
      streamCode s r.copyB = (k, some new) ∧ stagedCause old k (some new) r.grove ≠ 0) ∧
    (∃ r old s k new, s.ld.reload = some r ∧ s.ld.image = some old ∧ r.committed = false ∧ headerCode s r.copyB = 1 ∧
      streamCode s r.copyB = (k, some new) ∧ stagedCause old k (some new) r.grove = 0) :=
  ⟨⟨⟨1, false, false, []⟩, img [], reloading (img []), 1, smallIm, rfl, rfl, rfl, (reloading_header hash).1,
      small_stream _ rfl (by decide +kernel) hash sig bank, by decide +kernel⟩,
    ⟨⟨1, false, false, []⟩, smallIm, reloading smallIm, 1, smallIm, rfl, rfl, rfl, (reloading_header hash).2,
      small_stream _ rfl (by decide +kernel) hash sig bank, by decide +kernel⟩⟩
/-- A key record of KEYID 1, GEN 1, 32 bytes, its KCV 0. -/
def keyRec : Bytes := [0x4B, 0x42, 0x4C, 0x42, 1, 4, 0, 0, 1, 0, 0, 0, 0, 0, 0, 0] ++ List.replicate 48 0 ++ List.replicate 60 0 ++ [0xA5, 0xA5, 0x5A, 0x5A]
def keyHub : State := hub [(KEY_VAULT_KEKV, 1)] (put 0x3F0000 keyRec) {}
theorem test_KeyCommands_load_hyps (mac : Config.hmac256 = fun _ _ => List.replicate 32 0)
    (unwrap : Config.kwpUnwrap = fun _ _ => some ([1, 4, 0, 0, 1, 0, 0, 0] ++ List.replicate 32 7)) :
    (plainly keyHub .usb 0x60000 ∧ keyHub.on (KEY_STAT_BUSY Path.usb.idx) = false ∧ keyHub.kv.storing = none ∧ holdsOff keyHub 16 = false ∧ keyHub.kv.waiting = [] ∧
      keyHub.on KEY_VAULT_FROZEN = false ∧ keyHub.on KEY_VAULT_HALT = false ∧ keyHub.on KEY_VAULT_KEKV = true ∧ keyHub.on KEY_VAULT_STHOLD = false) ∧
    ∃ x, keyRecord keyHub (bits (0x100 : Word).toNat 15 8) = some keyRec ∧ unwrapRecord keyHub keyRec = some x := by
  have hu : unwrapRecord keyHub keyRec = some ([1, 4, 0, 0, 1, 0, 0, 0] ++ List.replicate 32 7) := by
    unfold unwrapRecord
    rw [unwrap]
    decide +kernel
  refine ⟨⟨⟨by unfold writable; decide +kernel, fun _ _ => rfl⟩, by decide +kernel⟩, _, ?_, hu⟩
  unfold keyRecord currentRecord recordComplete recordCode unwrapRecord
  rw [mac, unwrap]
  decide +kernel
/-- The firmware container of R405, with a section of three bytes. -/
def fwImage : Bytes := container [0x54, 0x4C, 0x46, 0x57] [⟨0x100, 0xFFFF, [1, 2, 3]⟩]
def fwHub : State := { hub [(SYS_STAGE_FWRDY, 0)] (put 0x10000 fwImage) {} with }
theorem fw_facts : (directory fwImage).all (fun e => e.ty = 0x100 && e.inst = 0xFFFF && 0x500 ≤ e.off && e.off % 16 = 0 && e.off + e.len ≤ 1552 - 256 &&
      crcStrict (slice fwImage e.off e.len) = e.crc) = true ∧ leAt fwImage 0x1C 2 = 1 ∧ ((slice fwImage 0x110 0x3F0).all (· = 0)) = true ∧
    leAt (fwImage.take 0x100) 8 4 = 1552 ∧ fwImage.length = 1552 := by decide +kernel
theorem fwHub_header (hash : Config.sha384 = fun _ => List.replicate 48 0) : firmwareHeader fwHub false = 1 := by
  unfold firmwareHeader headerCodeAt
  rw [hash]
  decide +kernel
theorem test_Firmware_hyps (hash : Config.sha384 = fun _ => List.replicate 48 0) (sig : Config.ecdsaOk = fun _ _ _ => true) :
    4 ≤ fwHub.bt.released ∧ fwHub.on SYS_STAGE_FWRDY = false ∧ fwHub.on RST_BOOT_FWFAIL = false ∧ fwHub.rd RST_FLTSTAT_MGT ≠ 3 ∧
      fwHub.mg.held = [] ∧ firmwarePasses fwHub false = true := by
  refine ⟨by decide +kernel, by decide +kernel, by decide +kernel, by decide +kernel, rfl, ?_⟩
  obtain ⟨h1, h2, h3, h4, h5⟩ := fw_facts
  have hb : flashBytes fwHub 0x10000 1552 = fwImage :=
    (memRead_put 0xFF 0x10000 1552 fwImage (by omega)).trans (List.take_of_length_le (by omega))
  have hc : flashBytes fwHub 0x10000 0x100 = fwImage.take 0x100 := memRead_put 0xFF 0x10000 0x100 fwImage (by omega)
  unfold firmwarePasses
  dsimp only
  rw [fwHub_header hash, show firmwareBase false = 0x10000 from rfl, hc, h4, hb, sig, crc32_eq, h1, h2, h3]
  rfl
theorem test_CanopyBringUp_kshare_hyps (point : Config.pointOk = fun _ => true) :
    ∃ (p : CanPort) (k : Fin 24) (w : Word) (s : State), s.rd (CAN_STAT_STATE p.val) = 3 ∧ (s.can p.val).prk = [] ∧ vaultHeld s = false ∧
      (mins (s.can p.val).share k.val w.toNat).length = 24 ∧
      Config.pointOk ((List.range 24).flatMap fun j => beBytes 4 (mget 0 (mins (s.can p.val).share k.val w.toNat) j)) = true :=
  ⟨0, 23, 7, { up [(CAN_STAT_STATE 0, 3)] with cn := [(0, { share := (List.range 23).map fun k => (k, k) })] },
    by decide +kernel, by decide +kernel, by decide +kernel, by decide +kernel, by rw [point]⟩

end Sys2Proof.Tests
end

section
/-! Rules of the register operations that the statements about register access share: frames put together write by write, event
leaves, and the parts of a written word. -/

namespace Sys2Proof.Machine

open Sys2Proof Sys2Proof.Laws

/-! ### Frames, put together operation by operation -/

theorem fieldsOnly.refl (fs : List Fld) (s : State) : fieldsOnly fs s s := fun _ _ => rfl

theorem fieldsOnly.trans {fs : List Fld} {s t u : State} (h : fieldsOnly fs s t) (g : fieldsOnly fs t u) : fieldsOnly fs s u :=
  fun f hf => (g f hf).trans (h f hf)

theorem fieldsOnly.mono {fs gs : List Fld} {s t : State} (h : fieldsOnly fs s t) (hs : fs ⊆ gs) : fieldsOnly gs s t :=
  fun f hf => h f fun g hg => hf g (hs hg)

theorem fieldsOnly_wr {fs : List Fld} {f : Fld} (hf : f ∈ fs) (s : State) (v : Nat) : fieldsOnly fs s (s.wr f v) :=
  fun g hg => State.rd_wr_ne s f g v (hg f hf)

theorem fieldsOnly_wrs {fs : List Fld} (s : State) (l : List (Fld × Nat)) (h : ∀ e ∈ l, e.1 ∈ fs) : fieldsOnly fs s (s.wrs l) :=
  fun g hg => State.rd_wrs_ne s l g fun e he => hg e.1 (h e he)

theorem partsOnly.refl (ps : List Part) (s : State) : partsOnly ps s s := fun p _ => by cases p <;> rfl

theorem Part.same_trans {p : Part} {s t u : State} (h : p.same s t) (g : p.same t u) : p.same s u := by
  cases p <;> exact g.trans h

theorem partsOnly.trans {ps : List Part} {s t u : State} (h : partsOnly ps s t) (g : partsOnly ps t u) : partsOnly ps s u :=
  fun p hp => Part.same_trans (h p hp) (g p hp)

theorem partsOnly.mono {ps qs : List Part} {s t : State} (h : partsOnly ps s t) (hs : ps ⊆ qs) : partsOnly qs s t :=
  fun p hp => h p fun hm => hp (hs hm)

/-- The frame lemmas number the components of the state in the order in which `Part` lists them. -/
theorem Part.same_of_frame {p : Part} {s t : State} (h : Frame p.ctorIdx s t) : p.same s t := by
  cases p <;> exact h

/-- Mask 130 of the frame lemmas: the registers and the management paths. -/
theorem partsOnly_of_frame {s t : State} (h : ∀ k, Nat.testBit 130 k = false → Frame k s t) : partsOnly [.regs, .mg] s t := by
  intro p hp
  refine Part.same_of_frame (h _ ?_)
  cases p
  case regs => simp at hp
  case mg => simp at hp
  all_goals rfl

theorem onlyWrites.refl (fs : List Fld) (ps : List Part) (s : State) : onlyWrites fs ps s s := ⟨.refl fs s, .refl _ s⟩

theorem onlyWrites.trans {fs : List Fld} {ps : List Part} {s t u : State} (h : onlyWrites fs ps s t) (g : onlyWrites fs ps t u) :
    onlyWrites fs ps s u := ⟨h.1.trans g.1, h.2.trans g.2⟩

theorem onlyWrites.mono {fs gs : List Fld} {ps qs : List Part} {s t : State} (h : onlyWrites fs ps s t) (hf : fs ⊆ gs) (hp : ps ⊆ qs) :
    onlyWrites gs qs s t := ⟨h.1.mono hf, h.2.mono (List.cons_subset_cons _ hp)⟩

theorem onlyWrites_emit (fs : List Fld) (s : State) (o : Out) : onlyWrites fs [.sent] s (s.emit o) := by
  refine ⟨fun _ _ => rfl, fun p hp => ?_⟩
  cases p
  case sent => simp at hp
  all_goals rfl

/-! ### Event leaves -/

theorem bits_lt (x hi lo : Nat) : bits x hi lo < 2 ^ (hi + 1 - lo) := Nat.mod_lt _ (Nat.two_pow_pos _)

theorem bit_eq_testBit (x k : Nat) : bit x k = x.testBit k := (Nat.testBit_eq_decide_div_mod_eq).symm

@[simp] theorem rd_markDue (s : State) (n : Nat) (f : Fld) : (markDue s n).rd f = s.rd f := rfl

@[simp] theorem bursts_markDue (s : State) (n : Nat) : (markDue s n).mg.bursts = s.mg.bursts := rfl

/-- Raising a leaf writes no field but the unit's status. -/
theorem rd_raise_ne (u b : Nat) (s : State) (f : Fld) (h : f.key ≠ (EVSTAT u).key) : (raise u b s).rd f = s.rd f := by
  simp only [raise]
  split
  · rfl
  · split
    · simp [State.rd_wr_ne _ _ _ _ h]
    · exact State.rd_wr_ne _ _ _ _ h

@[simp] theorem bursts_raise (u b : Nat) (s : State) : (raise u b s).mg.bursts = s.mg.bursts := by
  simp only [raise]
  split
  · rfl
  · split <;> simp

/-- A leaf that was raised stands. -/
theorem leafSet_raise (u b : Nat) (s : State) (hb : b < 32) : leafSet (raise u b s) u b := by
  have hadd : bit (s.rd (EVSTAT u)) b ≠ true → bit ((s.rd (EVSTAT u) + 2 ^ b) % 2 ^ (EVSTAT u).w) b = true := by
    intro h
    rw [bit_eq_testBit] at h ⊢
    rw [show (EVSTAT u).w = 32 from rfl, Nat.testBit_mod_two_pow, Nat.add_comm, Nat.testBit_two_pow_add_eq]
    simp [hb, h]
  simp only [leafSet, raise]
  split
  · assumption
  · next h =>
    split <;> simpa using hadd h

theorem onlyWrites_raise (u b : Nat) (s : State) : onlyWrites [EVSTAT u] [.mg] s (raise u b s) :=
  ⟨fun f hf => rd_raise_ne u b s f (hf _ (by simp)), partsOnly_of_frame fun k hk => raise_frame hk (.refl k s)⟩

/-! ### Written words -/

/-- Setting bits below a field leaves the field. -/
theorem bits_or_of_lt (x m hi lo : Nat) (h : m < 2 ^ lo) : bits (x ||| m) hi lo = bits x hi lo := by
  simp [bits, ← Nat.shiftRight_eq_div_pow, Nat.shiftRight_or_distrib, Nat.shiftRight_eq_zero m lo h]

/-- Where no envelope bounds a field, a value in its range is stored (R8, R46). -/
theorem wrField_of_unbounded {a : Nat} {f : Fld} {v : Nat} {s : State} (hu : unbounded s a) (hlo : f.lo ≤ v) (hhi : v ≤ f.hi) :
    wrField a f v s = s.wr f v := by
  have hr : ¬ (v < f.lo ∨ f.hi < v) := by omega
  simp [wrField, hr, ifAllowed, envAllows, hu f.pos f.w]

/-- A read-write field takes its bits of the word (R7). -/
theorem wrAcc_rw_of_unbounded {a v : Nat} {f : Fld} {s : State} (hacc : f.acc = .rw) (hu : unbounded s a)
    (hlo : f.lo ≤ bits v (f.pos + f.w - 1) f.pos) (hhi : bits v (f.pos + f.w - 1) f.pos ≤ f.hi) :
    wrAcc a v f s = s.wr f (bits v (f.pos + f.w - 1) f.pos) := by
  simp only [wrAcc, hacc, wrField_of_unbounded hu hlo hhi]

/-- A field that a 1 clears loses the bits that the word sets (R7). -/
theorem wrAcc_w1c {a v : Nat} {f : Fld} {s : State} (hacc : f.acc = .w1c) :
    wrAcc a v f s = s.wr f (s.rd f &&& (2 ^ f.w - 1 - bits v (f.pos + f.w - 1) f.pos)) := by
  simp only [wrAcc, hacc]

/-- A word is written field by field (R7). -/
theorem wrWord_cons (a v : Nat) (f : Fld) (fs : List Fld) (s : State) : wrWord a v (f :: fs) s = wrWord a v fs (wrAcc a v f s) := by
  rw [wrWord, forAll, List.foldl_cons, wrWord, forAll]

theorem wrWord_nil (a v : Nat) (s : State) : wrWord a v [] s = s := rfl

/-- A path that reaches the whole map writes a register by the register's own rule (R3, R58, R69). -/
theorem pathWrite_of_plainly {s : State} {p : Path} {a v : Nat} {r : RegId} {i j : Nat} (h : plainly s p a) (ha : a ≠ 0x28)
    (hd : decodeFor p.idx a = some (r, i, j)) (hp : lacksPersonality s r i = false) :
    pathWrite p a v s = writeReg p r i j a v s := by
  obtain ⟨⟨hscope, habs, hlock⟩, -⟩ := h
  simp [pathWrite, hscope, regWrite, ha, fabricWrite, habs, hd, hlock, hp]

theorem pathWrite_of_whole {s : State} {p : Path} (a v : Nat) (h : scopeOf s p = .whole) : pathWrite p a v s = regWrite p a v s := by
  simp [pathWrite, h]

theorem wordAddr_ofNat (n : Nat) (h : 4 * n < 2 ^ 32) : wordAddr (BitVec.ofNat 32 (4 * n)) = 4 * n := by
  simp only [wordAddr, BitVec.toNat_ofNat, Nat.mod_eq_of_lt h]
  omega

/-! ### Reads -/

/-- A read by the fabric gives the word that stands at the address: 0 where none does (R3, R73). -/
@[simp] theorem fabricRead_fst (p : Path) (a : Nat) (s : State) : (fabricRead p a s).1 = peekWord p a s := by
  simp only [fabricRead]
  split
  · rfl
  · next h =>
    obtain ⟨habs, hdec, -⟩ : absentAddr (variant s) a = false ∧ decodeFor p.idx a = none ∧ reservedWord a = false := by simpa using h
    simp [peekWord, habs, hdec]

/-- A read by the fabric changes nothing but, at an unmapped address, a leaf (R73, R74). -/
theorem onlyWrites_fabricRead (p : Path) (a : Nat) (s : State) : onlyWrites [EVSTAT 25] [.mg] s (fabricRead p a s).2 := by
  simp only [fabricRead, decodeError]
  split
  · exact .refl ..
  · split
    · exact onlyWrites_raise ..
    · exact .refl ..

theorem sent_fabricRead (p : Path) (a : Nat) (s : State) : (fabricRead p a s).2.sent = s.sent :=
  (onlyWrites_fabricRead p a s).2 .sent (by decide)

end Sys2Proof.Machine
end

section
/-! The data window of a path (R75 to R77): its registers, the arm, the step of a burst and the access to SYS_DWDATA. -/

namespace Sys2Proof.Machine

open Sys2Proof Sys2Proof.Laws

/-! ### The window's registers -/

theorem window_keys (i : Nat) :
    (SYS_DWADDR_ADDR i).key = 34359738368 * i + 258 ∧ (SYS_DWCTL_BUSY i).key = 34359738368 * i + 319 ∧
    (SYS_DWCTL_ERR i).key = 34359738368 * i + 318 ∧ (SYS_DWCTL_LEN i).key = 34359738368 * i + 304 ∧
    (SYS_DWCTL_STEP i).key = 34359738368 * i + 292 ∧ (SYS_DWCTL_DIR i).key = 34359738368 * i + 288 := by
  refine ⟨?_, ?_, ?_, ?_, ?_, ?_⟩ <;>
    simp only [SYS_DWADDR_ADDR, SYS_DWCTL_BUSY, SYS_DWCTL_ERR, SYS_DWCTL_LEN, SYS_DWCTL_STEP, SYS_DWCTL_DIR, fld, instanceAddr] <;> omega

theorem window_widths (i : Nat) :
    (SYS_DWADDR_ADDR i).w = 30 ∧ (SYS_DWCTL_BUSY i).w = 1 ∧ (SYS_DWCTL_ERR i).w = 1 ∧ (SYS_DWCTL_LEN i).w = 11 ∧
    (SYS_DWCTL_STEP i).w = 8 ∧ (SYS_DWCTL_DIR i).w = 1 := ⟨rfl, rfl, rfl, rfl, rfl, rfl⟩

theorem window_ranges (i : Nat) :
    (SYS_DWCTL_LEN i).lo = 1 ∧ (SYS_DWCTL_LEN i).hi = 1024 ∧ (SYS_DWCTL_STEP i).lo = 0 ∧ (SYS_DWCTL_STEP i).hi = 255 ∧
    (SYS_DWCTL_DIR i).lo = 0 ∧ (SYS_DWCTL_DIR i).hi = 1 := ⟨rfl, rfl, rfl, rfl, rfl, rfl⟩

theorem window_pos (i : Nat) :
    (SYS_DWCTL_ERR i).pos = 30 ∧ (SYS_DWCTL_LEN i).pos = 16 ∧ (SYS_DWCTL_STEP i).pos = 4 ∧ (SYS_DWCTL_DIR i).pos = 0 := by
  simp only [Fld.pos, window_keys]
  omega

/-- The leaves of unit SYS stand apart from every window's registers. -/
theorem window_ne_evstat (i : Nat) : (SYS_DWADDR_ADDR i).key ≠ (EVSTAT 25).key ∧ (SYS_DWCTL_BUSY i).key ≠ (EVSTAT 25).key ∧
    (SYS_DWCTL_ERR i).key ≠ (EVSTAT 25).key := by
  have hkey : (EVSTAT 25).key = 32640 := rfl
  simp only [window_keys, hkey]
  omega

/-- The armed bursts of a state, replaced. -/
def State.setBursts (s : State) (m : NMap Burst) : State := { s with mg := { s.mg with bursts := m } }

@[simp] theorem State.rd_setBursts (s : State) (m : NMap Burst) (f : Fld) : (s.setBursts m).rd f = s.rd f := rfl

@[simp] theorem State.bursts_setBursts (s : State) (m : NMap Burst) : (s.setBursts m).mg.bursts = m := rfl

theorem fieldsOnly_setBursts (fs : List Fld) (s : State) (m : NMap Burst) : fieldsOnly fs s (s.setBursts m) := fun _ _ => rfl

/-! ### A refused access or arm -/

theorem rd_err_windowError (i : Nat) (s : State) : (windowError i s).rd (SYS_DWCTL_ERR i) = 1 := by
  rw [windowError, rd_raise_ne _ _ _ _ (window_ne_evstat i).2.2]
  exact State.rd_wr_same ..

theorem leafSet_windowError (i : Nat) (s : State) : leafSet (windowError i s) 25 1 := leafSet_raise 25 1 _ (by decide)

@[simp] theorem bursts_windowError (i : Nat) (s : State) : (windowError i s).mg.bursts = s.mg.bursts := by simp [windowError]

theorem onlyWrites_windowError (i : Nat) (s : State) : onlyWrites [SYS_DWCTL_ERR i, EVSTAT 25] [.mg] s (windowError i s) :=
  ⟨(fieldsOnly_wr (by simp) s 1).trans ((onlyWrites_raise ..).1.mono (by simp)),
    partsOnly_of_frame fun k hk => windowError_frame hk (.refl k s)⟩

theorem sent_windowError (i : Nat) (s : State) : (windowError i s).sent = s.sent := (onlyWrites_windowError i s).2 .sent (by decide)

/-! ### The arm (R76) -/

theorem armWindow_of_fits {i : Nat} {s : State} (hbusy : s.on (SYS_DWCTL_BUSY i) = false)
    (hfits : burstFits (4 * s.rd (SYS_DWADDR_ADDR i)) (s.rd (SYS_DWCTL_LEN i)) (s.rd (SYS_DWCTL_STEP i)) = true) :
    armWindow i s = (s.wr (SYS_DWCTL_BUSY i) 1).setBursts
      (mins s.mg.bursts i { left := s.rd (SYS_DWCTL_LEN i), step := s.rd (SYS_DWCTL_STEP i), wr := s.on (SYS_DWCTL_DIR i) }) := by
  simp only [armWindow, hbusy, hfits]
  rfl

theorem onlyWrites_armWindow {i : Nat} {s : State} (hbusy : s.on (SYS_DWCTL_BUSY i) = false)
    (hfits : burstFits (4 * s.rd (SYS_DWADDR_ADDR i)) (s.rd (SYS_DWCTL_LEN i)) (s.rd (SYS_DWCTL_STEP i)) = true) :
    onlyWrites [SYS_DWCTL_BUSY i] [.mg] s (armWindow i s) := by
  refine ⟨?_, partsOnly_of_frame fun k hk => armWindow_frame hk (.refl k s)⟩
  rw [armWindow_of_fits hbusy hfits]
  exact (fieldsOnly_wr (by simp) s 1).trans (fieldsOnly_setBursts _ _ _)

theorem armWindow_refused {i : Nat} {s : State} (h : s.on (SYS_DWCTL_BUSY i) = true ∨
    burstFits (4 * s.rd (SYS_DWADDR_ADDR i)) (s.rd (SYS_DWCTL_LEN i)) (s.rd (SYS_DWCTL_STEP i)) = false) :
    armWindow i s = windowError i s := by
  rcases h with h | h <;> simp [armWindow, h]

/-- What a word of SYS_DWCTL leaves in the window's registers: ERR by its access code, LEN, STEP and DIR as written (R75). -/
def windowLoaded (i v : Nat) (s : State) : State :=
  s.wrs [(SYS_DWCTL_ERR i, s.rd (SYS_DWCTL_ERR i) &&& (1 - bits v 30 30)), (SYS_DWCTL_LEN i, bits v 26 16),
    (SYS_DWCTL_STEP i, bits v 11 4), (SYS_DWCTL_DIR i, bits v 0 0)]

theorem wrAcc_dwctl_err (i v : Nat) (s : State) :
    wrAcc 0x24 v (SYS_DWCTL_ERR i) s = s.wr (SYS_DWCTL_ERR i) (s.rd (SYS_DWCTL_ERR i) &&& (1 - bits v 30 30)) :=
  (wrAcc_w1c rfl).trans (by simp [window_pos, window_widths])

theorem wrAcc_dwctl_len {i v : Nat} {s : State} (hu : unbounded s 0x24) (hlo : 1 ≤ bits v 26 16) (hhi : bits v 26 16 ≤ 1024) :
    wrAcc 0x24 v (SYS_DWCTL_LEN i) s = s.wr (SYS_DWCTL_LEN i) (bits v 26 16) :=
  (wrAcc_rw_of_unbounded rfl hu (by simpa [window_pos, window_widths, window_ranges] using hlo)
    (by simpa [window_pos, window_widths, window_ranges] using hhi)).trans (by simp [window_pos, window_widths])

theorem wrAcc_dwctl_step {i v : Nat} {s : State} (hu : unbounded s 0x24) :
    wrAcc 0x24 v (SYS_DWCTL_STEP i) s = s.wr (SYS_DWCTL_STEP i) (bits v 11 4) := by
  have hhi : bits v 11 4 < 256 := bits_lt v 11 4
  exact (wrAcc_rw_of_unbounded rfl hu (by simp [window_ranges])
    (by simpa [window_pos, window_widths, window_ranges] using Nat.le_of_lt_succ hhi)).trans (by simp [window_pos, window_widths])

theorem wrAcc_dwctl_dir {i v : Nat} {s : State} (hu : unbounded s 0x24) :
    wrAcc 0x24 v (SYS_DWCTL_DIR i) s = s.wr (SYS_DWCTL_DIR i) (bits v 0 0) := by
  have hhi : bits v 0 0 < 2 := bits_lt v 0 0
  exact (wrAcc_rw_of_unbounded rfl hu (by simp [window_ranges])
    (by simpa [window_pos, window_widths, window_ranges] using Nat.le_of_lt_succ hhi)).trans (by simp [window_pos, window_widths])

theorem unbounded_wr {a : Nat} {s : State} (h : unbounded s a) (f : Fld) (v : Nat) : unbounded (s.wr f v) a := h

theorem wrWord_dwctl {i v : Nat} {s : State} (hu : unbounded s 0x24) (hlo : 1 ≤ bits v 26 16) (hhi : bits v 26 16 ≤ 1024) :
    wrWord 0x24 v [SYS_DWCTL_ERR i, SYS_DWCTL_LEN i, SYS_DWCTL_STEP i, SYS_DWCTL_DIR i] s = windowLoaded i v s := by
  rw [wrWord_cons, wrAcc_dwctl_err, wrWord_cons, wrAcc_dwctl_len (unbounded_wr hu _ _) hlo hhi,
    wrWord_cons, wrAcc_dwctl_step (unbounded_wr (unbounded_wr hu _ _) _ _),
    wrWord_cons, wrAcc_dwctl_dir (unbounded_wr (unbounded_wr (unbounded_wr hu _ _) _ _) _ _), wrWord_nil]
  rfl

/-- What a loaded window's registers read. -/
theorem rd_windowLoaded (i v : Nat) (s : State) :
    (windowLoaded i v s).rd (SYS_DWADDR_ADDR i) = s.rd (SYS_DWADDR_ADDR i) ∧
    (windowLoaded i v s).rd (SYS_DWCTL_BUSY i) = s.rd (SYS_DWCTL_BUSY i) ∧
    (windowLoaded i v s).rd (SYS_DWCTL_LEN i) = bits v 26 16 ∧ (windowLoaded i v s).rd (SYS_DWCTL_STEP i) = bits v 11 4 ∧
    (windowLoaded i v s).on (SYS_DWCTL_DIR i) = bit v 0 := by
  have hlen : bits v 26 16 < 2048 := bits_lt v 26 16
  have hstep : bits v 11 4 < 256 := bits_lt v 11 4
  refine ⟨?_, ?_, ?_, ?_, ?_⟩
  · exact State.rd_wrs_ne _ _ _ (by simp [window_keys])
  · exact State.rd_wrs_ne _ _ _ (by simp [window_keys])
  · simp [windowLoaded, State.rd_wr_ne, window_keys, window_widths, hlen]
  · simp [windowLoaded, State.rd_wr_ne, window_keys, window_widths, hstep]
  · simp [windowLoaded, State.on, window_widths, bits, bit]

theorem on_busy_windowLoaded (i v : Nat) (s : State) :
    (windowLoaded i v s).on (SYS_DWCTL_BUSY i) = s.on (SYS_DWCTL_BUSY i) := by
  simp only [State.on, rd_windowLoaded]

/-- The range that an arm checks is the one of the word just written (R76). -/
theorem burstFits_windowLoaded (i v : Nat) (s : State) :
    burstFits (4 * (windowLoaded i v s).rd (SYS_DWADDR_ADDR i)) ((windowLoaded i v s).rd (SYS_DWCTL_LEN i))
      ((windowLoaded i v s).rd (SYS_DWCTL_STEP i)) = burstFits (4 * s.rd (SYS_DWADDR_ADDR i)) (bits v 26 16) (bits v 11 4) := by
  simp only [rd_windowLoaded]

theorem onlyWrites_windowLoaded (i v : Nat) (s : State) :
    onlyWrites [SYS_DWCTL_ERR i, SYS_DWCTL_LEN i, SYS_DWCTL_STEP i, SYS_DWCTL_DIR i] [.mg] s (windowLoaded i v s) :=
  ⟨fieldsOnly_wrs _ _ (by simp), partsOnly_of_frame fun k hk => wrs_frame (testBit_sub rfl hk) (.refl k s)⟩

/-- ARM stands beside LEN, STEP, DIR and ERR in the word. -/
theorem windowLoaded_or_arm (i v : Nat) (s : State) : windowLoaded i (v ||| 2) s = windowLoaded i v s := by
  have hdir : bits (v ||| 2) 0 0 = bits v 0 0 := by
    have : (v ||| 2) % 2 = v % 2 := by simpa using Nat.or_mod_two_pow (a := v) (b := 2) (n := 1)
    simpa [bits] using this
  simp only [windowLoaded, hdir, bits_or_of_lt v 2 _ _ (show 2 < 2 ^ 30 by decide), bits_or_of_lt v 2 _ _ (show 2 < 2 ^ 16 by decide),
    bits_or_of_lt v 2 _ _ (show 2 < 2 ^ 4 by decide)]

theorem decodeFor_dwctl (p : Path) : decodeFor p.idx 0x24 = some (.SYS_DWCTL, p.idx, 0) := by cases p <;> rfl

/-- ARM loads the window's registers and arms the window (R75, R76). -/
theorem exec_arm {p : Path} {v : Word} {s : State} (h : plainly s p 0x24) (hlo : 1 ≤ bits v.toNat 26 16)
    (hhi : bits v.toNat 26 16 ≤ 1024) : exec (.arm p v) s = .next (armWindow p.idx (windowLoaded p.idx v.toNat s)) := by
  have hlen : bits (v.toNat ||| 2) 26 16 = bits v.toNat 26 16 := bits_or_of_lt _ _ _ _ (by decide)
  have harm : bit (v.toNat ||| 2) 1 = true := by simp [bit_eq_testBit, show Nat.testBit 2 1 = true from rfl]
  have hw : pathWrite p 0x24 (v.toNat ||| 2) s = wrDwctl p (v.toNat ||| 2) s :=
    pathWrite_of_plainly h (by decide) (decodeFor_dwctl p) rfl
  change Host.Outcome.next (pathWrite p 0x24 (v.toNat ||| 2) s) = _
  rw [hw, wrDwctl, if_pos harm, wrWord_dwctl h.2 (by rwa [hlen]) (by rwa [hlen]), windowLoaded_or_arm]

/-- The window is free and the range stays in its block: the burst is armed. -/
theorem arm_accepted {p : Path} {v : Word} {s : State} (h : plainly s p 0x24) (hlo : 1 ≤ bits v.toNat 26 16)
    (hhi : bits v.toNat 26 16 ≤ 1024) (hbusy : s.on (SYS_DWCTL_BUSY p.idx) = false)
    (hfits : burstFits (4 * s.rd (SYS_DWADDR_ADDR p.idx)) (bits v.toNat 26 16) (bits v.toNat 11 4) = true) :
    ∃ t, exec (.arm p v) s = .next t ∧ t.rd (SYS_DWCTL_BUSY p.idx) = 1 ∧
      mfind t.mg.bursts p.idx = some { left := bits v.toNat 26 16, step := bits v.toNat 11 4, wr := bit v.toNat 0 } ∧
      onlyWrites [SYS_DWCTL_ERR p.idx, SYS_DWCTL_LEN p.idx, SYS_DWCTL_STEP p.idx, SYS_DWCTL_DIR p.idx, SYS_DWCTL_BUSY p.idx] [.mg] s t := by
  rw [← on_busy_windowLoaded p.idx v.toNat] at hbusy
  rw [← burstFits_windowLoaded] at hfits
  refine ⟨_, exec_arm h hlo hhi, ?_, ?_, ?_⟩
  · rw [armWindow_of_fits hbusy hfits, State.rd_setBursts, State.rd_wr_same, (window_widths p.idx).2.1]
    rfl
  · simp only [armWindow_of_fits hbusy hfits, State.bursts_setBursts, mfind_mins, rd_windowLoaded, if_true]
  · exact ((onlyWrites_windowLoaded ..).mono (by simp) (List.Subset.refl _)).trans
      ((onlyWrites_armWindow hbusy hfits).mono (by simp) (List.Subset.refl _))

/-- BUSY stands, or the range leaves its block: the arm is refused. -/
theorem arm_refused {p : Path} {v : Word} {s : State} (h : plainly s p 0x24) (hlo : 1 ≤ bits v.toNat 26 16)
    (hhi : bits v.toNat 26 16 ≤ 1024) (hr : s.on (SYS_DWCTL_BUSY p.idx) = true ∨
      burstFits (4 * s.rd (SYS_DWADDR_ADDR p.idx)) (bits v.toNat 26 16) (bits v.toNat 11 4) = false) :
    ∃ t, exec (.arm p v) s = .next t ∧ t.rd (SYS_DWCTL_ERR p.idx) = 1 ∧ leafSet t 25 1 ∧ t.mg.bursts = s.mg.bursts ∧
      t.rd (SYS_DWCTL_BUSY p.idx) = s.rd (SYS_DWCTL_BUSY p.idx) := by
  refine ⟨_, exec_arm h hlo hhi, ?_⟩
  rw [armWindow_refused (by rwa [on_busy_windowLoaded, burstFits_windowLoaded])]
  refine ⟨rd_err_windowError .., leafSet_windowError .., bursts_windowError .., ?_⟩
  rw [(onlyWrites_windowError ..).1 _ (by simpa [window_keys] using (window_ne_evstat p.idx).2.1), (rd_windowLoaded ..).2.1]

/-! ### The step of a burst (R77) -/

theorem advanceBurst_last {i : Nat} {b : Burst} (s : State) (hb : b.left ≤ 1) : advanceBurst i b s =
    ((s.wr (SYS_DWADDR_ADDR i) (s.rd (SYS_DWADDR_ADDR i) + b.step)).setBursts (mdel s.mg.bursts i)).wr (SYS_DWCTL_BUSY i) 0 := by
  simp [advanceBurst, show b.left - 1 = 0 by omega, State.setBursts]

theorem advanceBurst_more {i : Nat} {b : Burst} (s : State) (hb : 2 ≤ b.left) : advanceBurst i b s =
    (s.wr (SYS_DWADDR_ADDR i) (s.rd (SYS_DWADDR_ADDR i) + b.step)).setBursts (mins s.mg.bursts i { b with left := b.left - 1 }) := by
  simp [advanceBurst, show b.left - 1 ≠ 0 by omega, State.setBursts]

/-- ADDR advances by STEP, and the remaining count falls by one: at 0 the window is free. -/
def Advanced (i : Nat) (b : Burst) (u t : State) : Prop :=
  t.rd (SYS_DWADDR_ADDR i) = (u.rd (SYS_DWADDR_ADDR i) + b.step) % 2 ^ 30 ∧
  (b.left ≤ 1 → t.rd (SYS_DWCTL_BUSY i) = 0 ∧ mfind t.mg.bursts i = none) ∧
  (2 ≤ b.left → mfind t.mg.bursts i = some { b with left := b.left - 1 }) ∧
  onlyWrites [SYS_DWADDR_ADDR i, SYS_DWCTL_BUSY i] [.mg] u t

theorem advanced_advanceBurst (i : Nat) (b : Burst) (s : State) : Advanced i b s (advanceBurst i b s) := by
  have hframe : partsOnly [.regs, .mg] s (advanceBurst i b s) := partsOnly_of_frame fun k hk => advanceBurst_frame hk (.refl k s)
  have haddr (v : Nat) : fieldsOnly [SYS_DWADDR_ADDR i, SYS_DWCTL_BUSY i] s (s.wr (SYS_DWADDR_ADDR i) v) := fieldsOnly_wr (by simp) s v
  rcases Nat.lt_or_ge b.left 2 with hb | hb
  · rw [advanceBurst_last s (by omega)] at hframe ⊢
    refine ⟨by simp [State.rd_wr_ne, window_keys, window_widths], fun _ => by simp [mfind_mdel], by omega, ?_, hframe⟩
    exact ((haddr _).trans (fieldsOnly_setBursts _ _ _)).trans (fieldsOnly_wr (by simp) _ 0)
  · rw [advanceBurst_more s hb] at hframe ⊢
    exact ⟨by simp [window_widths], by omega, fun _ => by simp [mfind_mins], (haddr _).trans (fieldsOnly_setBursts _ _ _), hframe⟩

/-! ### The access to SYS_DWDATA (R77) -/

theorem windowAccess_write {p : Path} {b : Burst} {v : Nat} {s : State} (hb : mfind s.mg.bursts p.idx = some b) (hwr : b.wr = true)
    (ha : 4 * s.rd (SYS_DWADDR_ADDR p.idx) ≠ 0x28) : windowAccess p (some v) s =
      (0, advanceBurst p.idx b (fabricWrite p (4 * s.rd (SYS_DWADDR_ADDR p.idx)) v s)) := by
  simp [windowAccess, hb, hwr, ha]

theorem windowAccess_read {p : Path} {b : Burst} {s : State} (hb : mfind s.mg.bursts p.idx = some b) (hwr : b.wr = false)
    (ha : 4 * s.rd (SYS_DWADDR_ADDR p.idx) ≠ 0x28) : windowAccess p none s =
      (peekWord p (4 * s.rd (SYS_DWADDR_ADDR p.idx)) s,
        advanceBurst p.idx b (fabricRead p (4 * s.rd (SYS_DWADDR_ADDR p.idx)) s).2) := by
  simp [windowAccess, hb, hwr, ha]

/-- Without a burst, or against its direction, nothing moves. -/
theorem windowAccess_refused {p : Path} {w : Option Nat} {s : State}
    (h : mfind s.mg.bursts p.idx = none ∨ ∃ b, mfind s.mg.bursts p.idx = some b ∧ b.wr = !w.isSome) :
    windowAccess p w s = (0, windowError p.idx s) := by
  rcases h with hb | ⟨b, hb, hwr⟩
  · simp [windowAccess, hb]
  · cases w <;> simp_all [windowAccess]

theorem exec_dwdata_write {p : Path} {s : State} (v : Word) (h : scopeOf s p = .whole) :
    exec (.sysDwdataAccess p (some v)) s = .next (windowAccess p (some v.toNat) s).2 := by
  change Host.Outcome.next (pathWrite p 0x28 v.toNat s) = _
  rw [pathWrite_of_whole _ _ h]
  rfl

theorem exec_dwdata_read {p : Path} {s : State} (h : scopeOf s p = .whole) : exec (.sysDwdataAccess p none) s =
    .next ((windowAccess p none s).2.emit (.readData p (BitVec.ofNat 32 (windowAccess p none s).1))) := by
  have hr : pathRead p 0x28 1 s = (some [(windowAccess p none s).1], (windowAccess p none s).2) := by
    simp [pathRead, h, readWords, regRead]
  change execSysDwdataAccess p none s = _
  simp only [execSysDwdataAccess, hr]

theorem exec_registerWrite_of_whole {p : Path} {n : Nat} {s : State} (v : Word) (h : scopeOf s p = .whole) (hn : 4 * n < 2 ^ 32)
    (ha : 4 * n ≠ 0x28) : exec (.registerWrite p (BitVec.ofNat 32 (4 * n)) v) s = .next (fabricWrite p (4 * n) v.toNat s) := by
  change Host.Outcome.next (pathWrite p (wordAddr (BitVec.ofNat 32 (4 * n))) v.toNat s) = _
  rw [wordAddr_ofNat n hn, pathWrite_of_whole _ _ h, regWrite, if_neg ha]

/-- A word of a burst of writes is a write of the path to ADDR; then the burst advances. -/
theorem dwdata_write_moves {p : Path} {b : Burst} (v : Word) {s : State} (h : scopeOf s p = .whole)
    (hb : mfind s.mg.bursts p.idx = some b) (ha : 4 * s.rd (SYS_DWADDR_ADDR p.idx) ≠ 0x28) (hwr : b.wr = true) :
    ∃ u t, exec (.registerWrite p (BitVec.ofNat 32 (4 * s.rd (SYS_DWADDR_ADDR p.idx))) v) s = .next u ∧
      exec (.sysDwdataAccess p (some v)) s = .next t ∧ Advanced p.idx b u t := by
  have hn : 4 * s.rd (SYS_DWADDR_ADDR p.idx) < 2 ^ 32 := by
    have := State.rd_lt s (SYS_DWADDR_ADDR p.idx)
    rw [(window_widths p.idx).1] at this
    omega
  refine ⟨_, _, exec_registerWrite_of_whole v h hn ha, exec_dwdata_write v h, ?_⟩
  rw [windowAccess_write hb hwr ha]
  exact advanced_advanceBurst ..

/-- A word of a burst of reads is what stands at ADDR; then the burst advances. -/
theorem dwdata_read_moves {p : Path} {b : Burst} {s : State} (h : scopeOf s p = .whole)
    (hb : mfind s.mg.bursts p.idx = some b) (ha : 4 * s.rd (SYS_DWADDR_ADDR p.idx) ≠ 0x28) (hwr : b.wr = false) :
    ∃ t, exec (.sysDwdataAccess p none) s = .next t ∧
      t.sent = .readData p (BitVec.ofNat 32 (peekWord p (4 * s.rd (SYS_DWADDR_ADDR p.idx)) s)) :: s.sent ∧
      t.rd (SYS_DWADDR_ADDR p.idx) = (s.rd (SYS_DWADDR_ADDR p.idx) + b.step) % 2 ^ 30 ∧
      (b.left ≤ 1 → t.rd (SYS_DWCTL_BUSY p.idx) = 0 ∧ mfind t.mg.bursts p.idx = none) ∧
      (2 ≤ b.left → mfind t.mg.bursts p.idx = some { b with left := b.left - 1 }) ∧
      onlyWrites [SYS_DWADDR_ADDR p.idx, SYS_DWCTL_BUSY p.idx, EVSTAT 25] [.mg, .sent] s t := by
  have hread := onlyWrites_fabricRead p (4 * s.rd (SYS_DWADDR_ADDR p.idx)) s
  obtain ⟨haddr, hlast, hmore, hframe⟩ :=
    advanced_advanceBurst p.idx b (fabricRead p (4 * s.rd (SYS_DWADDR_ADDR p.idx)) s).2
  rw [hread.1 _ (by simpa using (window_ne_evstat p.idx).1)] at haddr
  have hsent := (hframe.2 .sent (by decide)).trans (sent_fabricRead p (4 * s.rd (SYS_DWADDR_ADDR p.idx)) s)
  refine ⟨_, exec_dwdata_read h, ?_⟩
  rw [windowAccess_read hb hwr ha]
  refine ⟨congrArg _ hsent, haddr, hlast, hmore, ?_⟩
  exact ((hread.mono (by simp) (by simp)).trans (hframe.mono (by simp) (by simp))).trans
    ((onlyWrites_emit _ _ _).mono (List.Subset.refl _) (by simp))

theorem dwdata_write_refused {p : Path} (v : Word) {s : State} (h : scopeOf s p = .whole)
    (hr : mfind s.mg.bursts p.idx = none ∨ ∃ b, mfind s.mg.bursts p.idx = some b ∧ b.wr = false) :
    exec (.sysDwdataAccess p (some v)) s = .next (windowError p.idx s) := by
  rw [exec_dwdata_write v h, windowAccess_refused (by simpa using hr)]

theorem dwdata_read_refused {p : Path} {s : State} (h : scopeOf s p = .whole)
    (hr : mfind s.mg.bursts p.idx = none ∨ ∃ b, mfind s.mg.bursts p.idx = some b ∧ b.wr = true) :
    exec (.sysDwdataAccess p none) s = .next ((windowError p.idx s).emit (.readData p 0)) := by
  rw [exec_dwdata_read h, windowAccess_refused (by simpa using hr)]
  rfl

/-- Settles O45: an arm and an access each come to an equation of `armWindow`, `advanceBurst` or `windowError`, whose frames and reads
stand above. -/
theorem dataWindowsMoveWords : Obligations.DataWindowsMoveWords := by
  unfold Obligations.DataWindowsMoveWords
  refine ⟨fun p v s h hlo hhi => ⟨arm_accepted h hlo hhi, arm_refused h hlo hhi⟩,
    fun p b v s h hb ha => ⟨dwdata_write_moves v h hb ha, dwdata_read_moves h hb ha⟩, fun p v s h => ⟨fun hr => ?_, fun hr => ?_⟩⟩
  · exact ⟨_, dwdata_write_refused v h hr, rd_err_windowError .., leafSet_windowError .., bursts_windowError .., onlyWrites_windowError ..⟩
  · refine ⟨_, dwdata_read_refused h hr, congrArg _ (sent_windowError ..), rd_err_windowError .., leafSet_windowError ..,
      bursts_windowError .., ?_⟩
    exact ((onlyWrites_windowError ..).mono (List.Subset.refl _) (by simp)).trans
      ((onlyWrites_emit _ _ _).mono (List.Subset.refl _) (by simp))

end Sys2Proof.Machine
end

section
/-! Event reports (R90, R91, R343): what a report reads of the state, the EVENT of a management tunnel, and the tokens and ACKs of EP1. -/

namespace Sys2Proof.Machine

open Sys2Proof Sys2Proof.Laws

/-! ### The management paths and what is sent -/

/-- The management paths of a state, replaced. -/
def State.setMgmt (s : State) (m : Mgmt) : State := { s with mg := m }

@[simp] theorem State.mg_setMgmt (s : State) (m : Mgmt) : (s.setMgmt m).mg = m := rfl

/-- A frame by mask is a frame by parts, where the list holds every part that the mask names. -/
theorem partsOnly_of_mask {m : Nat} {ps : List Part} {s t : State} (hm : ∀ p ∉ ps, m.testBit p.ctorIdx = false)
    (h : ∀ k, m.testBit k = false → Frame k s t) : partsOnly ps s t := fun p hp => Part.same_of_frame (h _ (hm p hp))

theorem partsOnly_setMgmt (s : State) (m : Mgmt) : partsOnly [.mg] s (s.setMgmt m) := by
  intro p hp
  cases p
  case mg => simp at hp
  all_goals rfl

theorem partsOnly_setMgmt_emit (s : State) (m : Mgmt) (o : Out) : partsOnly [.mg, .sent] s ((s.setMgmt m).emit o) := by
  intro p hp
  cases p
  case mg => simp at hp
  case sent => simp at hp
  all_goals rfl

/-! ### The EVENT of a management tunnel (R91) -/

/-- The report of a crown port's management tunnel. -/
def Mgmt.tunReport (m : Mgmt) (c : Nat) : Report := if c = 0 then m.tun0 else m.tun1

def Mgmt.setTunReport (m : Mgmt) (c : Nat) (r : Report) : Mgmt := if c = 0 then { m with tun0 := r } else { m with tun1 := r }

@[simp] theorem Mgmt.tunReport_setTunReport (m : Mgmt) (c : Nat) (r : Report) : (m.setTunReport c r).tunReport c = r := by
  unfold Mgmt.tunReport Mgmt.setTunReport
  split <;> rfl

/-- The DATA of the EVENT that a tunnel's report comes to (R90). -/
def eventData (c : Nat) (s : State) : Words :=
  bytesWords (reportBytes s (s.rd SYS_EVMASK_TUN_MASK) ((s.mg.tunReport c).seq % 256) 13)

/-- The tunnel's report once it has gone out: no longer due, under the next sequence number. -/
def eventTaken (c : Nat) (s : State) : State :=
  s.setMgmt (s.mg.setTunReport c { due := false, seq := ((s.mg.tunReport c).seq + 1) % 256 })

theorem exec_event_of_due {c : Crown} {s : State} (hdue : (s.mg.tunReport c.val).due = true) (hcar : tunCarries s c.val = true)
    (hrdy : s.on SYS_STAGE_FWRDY = true) :
    exec (.event c) s = .next (sendMgmt c 5 0 0 0 (eventData c.val s) (eventTaken c.val s)) := by
  rw [Mgmt.tunReport] at hdue
  change execEvent c s = _
  simp only [execEvent, hdue, hcar, hrdy]
  rfl

theorem exec_event_of_idle {c : Crown} {s : State} (h : (s.mg.tunReport c.val).due = false ∨ tunCarries s c.val = false ∨
    s.on SYS_STAGE_FWRDY = false) : exec (.event c) s = .next s := by
  have hidle : (!(s.mg.tunReport c.val).due) = true ∨ (!tunCarries s c.val) = true ∨ (!s.on SYS_STAGE_FWRDY) = true := by simpa using h
  exact if_pos hidle

/-- The message is sent, and the fabric takes it from there. -/
theorem sent_sendMgmt (c : Crown) (op tag status : Nat) (addr : Word) (data : Words) (s : State) :
    (sendMgmt c op tag status addr data s).sent = .mgmt c op tag status data.length addr data :: s.sent :=
  agentMessage_frame (κ := 4) (by decide) (.refl 4 (s.emit _))

theorem mg_sendMgmt (c : Crown) (op tag status : Nat) (addr : Word) (data : Words) (s : State) :
    (sendMgmt c op tag status addr data s).mg = s.mg := sendMgmt_frame (κ := 7) (by decide) (.refl 7 s)

theorem partsOnly_event {c : Crown} {s t : State} (h : exec (.event c) s = .next t) : partsOnly [.mg, .sent, .fb] s t := by
  refine partsOnly_of_mask (m := 1168) (fun p hp => ?_) fun k hk => execEvent_frame hk (.refl k s) t h
  cases p
  case mg => simp at hp
  case sent => simp at hp
  case fb => simp at hp
  all_goals rfl

/-! ### The IN token of EP1 (R91, R341, R343) -/

theorem exec_ep1InToken_of_off {s : State} (h : treeRuns s = false ∨ s.on USB_MGT_CONF = false) : exec .ep1InToken s = .next s := by
  have hoff : (!treeRuns s) = true ∨ (!s.on USB_MGT_CONF) = true := by simpa using h
  exact if_pos hoff

/-- The management paths once a token has been heard: the count of silences starts again. -/
def ep1Heard (s : State) : Mgmt := { s.mg with ep1Silent := 0 }

/-- The report that a token finds due, made of registers alone but for its number (R90, R336). -/
def ep1Data (s : State) : Bytes :=
  reportBytes s (s.rd SYS_EVMASK_EP1_MASK) (s.mg.ep1.seq % 256) ((ep1Size s - 8) / 8)

/-- The report waits for its ACK, and is no longer due. -/
def ep1Taken (s : State) : Mgmt :=
  { ep1Heard s with ep1Sent := some (ep1Data s), ep1 := { due := false, seq := (s.mg.ep1.seq + 1) % 256 } }

/-- A token that FWRDY leaves without an answer, counted in SILENT and in succession (R341). -/
def ep1Silenced (s : State) : State := (s.inc USB_MGT_SILENT).setMgmt { s.mg with ep1Silent := s.mg.ep1Silent + 1 }

/-- Three errors in succession: the host halts the endpoint (R341). -/
def ep1Halted (s : State) : State := raise 19 7 (s.wr USB_MGT_EP1HALT 1)

section
variable {s : State} (hrun : treeRuns s = true) (hconf : s.on USB_MGT_CONF = true)
include hrun hconf

theorem exec_ep1InToken_of_unready (hrdy : s.on SYS_STAGE_FWRDY = false) :
    exec .ep1InToken s = .next (if s.mg.ep1Silent = 2 then ep1Halted (ep1Silenced s) else ep1Silenced s) := by
  have hthree : (s.mg.ep1Silent + 1 = 3) = (s.mg.ep1Silent = 2) := by simp
  change execEp1InToken s = _
  simp only [execEp1InToken, hrun, hconf, hrdy]
  change Host.Outcome.next (if s.mg.ep1Silent + 1 = 3 then ep1Halted (ep1Silenced s) else ep1Silenced s) = _
  simp only [hthree]

variable (hrdy : s.on SYS_STAGE_FWRDY = true)
include hrdy

/-- Once FWRDY is 1 a token always gets an answer, by the endpoint's halt, the report in flight and the report due. -/
theorem exec_ep1InToken_of_ready : exec .ep1InToken s = .next (
    if s.on USB_MGT_EP1HALT = true then (s.setMgmt (ep1Heard s)).emit .stall
    else match s.mg.ep1Sent with
      | some b => (s.setMgmt (ep1Heard s)).emit (.ep1Report b)
      | none => if s.mg.ep1.due = true then (s.setMgmt (ep1Taken s)).emit (.ep1Report (ep1Data s))
          else (s.setMgmt (ep1Heard s)).emit .ep1Nak) := by
  change execEp1InToken s = _
  simp only [execEp1InToken, hrun, hconf, hrdy]
  change (if s.on USB_MGT_EP1HALT = true then Host.Outcome.next ((s.setMgmt (ep1Heard s)).emit .stall) else
    match s.mg.ep1Sent with
    | some b => .next ((s.setMgmt (ep1Heard s)).emit (.ep1Report b))
    | none => if (!s.mg.ep1.due) = true then .next ((s.setMgmt (ep1Heard s)).emit .ep1Nak)
        else .next ((s.setMgmt (ep1Taken s)).emit (.ep1Report (ep1Data s)))) = _
  split
  · rfl
  · cases s.mg.ep1Sent with
    | some b => rfl
    | none => cases s.mg.ep1.due <;> rfl

theorem exec_ep1InToken_of_halted (hhalt : s.on USB_MGT_EP1HALT = true) :
    exec .ep1InToken s = .next ((s.setMgmt (ep1Heard s)).emit .stall) := by
  rw [exec_ep1InToken_of_ready hrun hconf hrdy, if_pos hhalt]

variable (hhalt : s.on USB_MGT_EP1HALT = false)
include hhalt

theorem exec_ep1InToken_of_sent {d : Bytes} (hsent : s.mg.ep1Sent = some d) :
    exec .ep1InToken s = .next ((s.setMgmt (ep1Heard s)).emit (.ep1Report d)) := by
  simp [exec_ep1InToken_of_ready hrun hconf hrdy, hhalt, hsent]

theorem exec_ep1InToken_of_due (hsent : s.mg.ep1Sent = none) (hdue : s.mg.ep1.due = true) :
    exec .ep1InToken s = .next ((s.setMgmt (ep1Taken s)).emit (.ep1Report (ep1Data s))) := by
  simp [exec_ep1InToken_of_ready hrun hconf hrdy, hhalt, hsent, hdue]

theorem exec_ep1InToken_of_none_due (hsent : s.mg.ep1Sent = none) (hdue : s.mg.ep1.due = false) :
    exec .ep1InToken s = .next ((s.setMgmt (ep1Heard s)).emit .ep1Nak) := by
  simp [exec_ep1InToken_of_ready hrun hconf hrdy, hhalt, hsent, hdue]

end

/-! ### The ACK of EP1 (R343) -/

/-- The report is delivered: none waits, and the toggle advances. -/
def ep1Delivered (s : State) : State :=
  { s.setMgmt { s.mg with ep1Sent := none } with ut := { s.ut with toggle := !s.ut.toggle } }

theorem exec_ep1Ack_of_sent {s : State} {d : Bytes} (h : s.mg.ep1Sent = some d) : exec .ep1Ack s = .next (ep1Delivered s) := by
  change execEp1Ack s = _
  simp only [execEp1Ack, h]
  rfl

theorem exec_ep1Ack_of_none {s : State} (h : s.mg.ep1Sent = none) : exec .ep1Ack s = .next s := by
  change execEp1Ack s = _
  simp [execEp1Ack, h]

theorem partsOnly_ep1Delivered (s : State) : partsOnly [.mg, .ut] s (ep1Delivered s) := by
  intro p hp
  cases p
  case mg => simp at hp
  case ut => simp at hp
  all_goals rfl

/-! ### A silence of EP1 (R341) -/

theorem onlyWrites_wr (f : Fld) (v : Nat) (s : State) : onlyWrites [f] [] s (s.wr f v) := by
  refine ⟨fieldsOnly_wr (by simp) s v, fun p hp => ?_⟩
  cases p
  case regs => simp at hp
  all_goals rfl

theorem onlyWrites_setMgmt (fs : List Fld) (s : State) (m : Mgmt) : onlyWrites fs [.mg] s (s.setMgmt m) :=
  ⟨fun _ _ => rfl, (partsOnly_setMgmt s m).mono (by simp)⟩

theorem onlyWrites_ep1Silenced (s : State) : onlyWrites [USB_MGT_SILENT] [.mg] s (ep1Silenced s) :=
  ((onlyWrites_wr USB_MGT_SILENT _ s).mono (List.Subset.refl _) (by simp)).trans (onlyWrites_setMgmt _ (s.inc USB_MGT_SILENT) _)

theorem onlyWrites_ep1Halted (s : State) : onlyWrites [USB_MGT_EP1HALT, EVSTAT 19] [.mg] s (ep1Halted s) :=
  ((onlyWrites_wr USB_MGT_EP1HALT 1 s).mono (by simp) (by simp)).trans ((onlyWrites_raise 19 7 _).mono (by simp) (by simp))

theorem rd_silent_ep1Silenced (s : State) : (ep1Silenced s).rd USB_MGT_SILENT = satInc 255 (s.rd USB_MGT_SILENT) := by
  have hfits : satInc 255 (s.rd USB_MGT_SILENT) < 2 ^ 8 := by
    have hlt : s.rd USB_MGT_SILENT < 2 ^ 8 := State.rd_lt s USB_MGT_SILENT
    unfold satInc
    split <;> omega
  exact (State.rd_inc_same s USB_MGT_SILENT).trans (Nat.mod_eq_of_lt hfits)

theorem rd_silent_ep1Halted (s : State) : (ep1Halted s).rd USB_MGT_SILENT = s.rd USB_MGT_SILENT :=
  (onlyWrites_ep1Halted s).1 USB_MGT_SILENT (by decide)

theorem rd_ep1halt_ep1Halted (s : State) : (ep1Halted s).rd USB_MGT_EP1HALT = 1 := by
  rw [ep1Halted, rd_raise_ne _ _ _ _ (by decide)]
  exact State.rd_wr_same ..

theorem leafSet_ep1Halted (s : State) : leafSet (ep1Halted s) 19 7 := leafSet_raise 19 7 _ (by decide)

/-! ### A rising leaf and EP1 (R91) -/

/-- A leaf's rise leaves the management paths, or marks reports due. -/
theorem raise_mg (u b : Nat) (s : State) : (raise u b s).mg = s.mg ∨ ∃ t n, raise u b s = markDue t n ∧ t.mg = s.mg := by
  simp only [raise]
  split
  · exact .inl rfl
  · split
    · exact .inr ⟨_, _, rfl, rfl⟩
    · exact .inl rfl

/-- A rise merges into the report of EP1: it takes none back and counts none (R91). -/
theorem ep1_raise (u b : Nat) (s : State) : (raise u b s).mg.ep1Sent = s.mg.ep1Sent ∧ (raise u b s).mg.ep1.seq = s.mg.ep1.seq ∧
    (s.mg.ep1.due = true → (raise u b s).mg.ep1.due = true) := by
  rcases raise_mg u b s with h | ⟨t, n, h, hmg⟩
  · rw [h]
    exact ⟨rfl, rfl, id⟩
  · rw [h, ← hmg]
    exact ⟨rfl, rfl, fun hdue => by simp [markDue, hdue]⟩

/-! ### What the obligation says, output by output -/

theorem event_goes_out {c : Crown} {s : State} (hdue : (s.mg.tunReport c.val).due = true) (hcar : tunCarries s c.val = true)
    (hrdy : s.on SYS_STAGE_FWRDY = true) :
    ∃ t d, exec (.event c) s = .next t ∧
      d = bytesWords (reportBytes s (s.rd SYS_EVMASK_TUN_MASK) ((s.mg.tunReport c.val).seq % 256) 13) ∧
      t.sent = .mgmt c 5 0 0 d.length 0 d :: s.sent ∧ (t.mg.tunReport c.val).due = false ∧
      (t.mg.tunReport c.val).seq = ((s.mg.tunReport c.val).seq + 1) % 256 ∧ partsOnly [.mg, .sent, .fb] s t := by
  have hexec := exec_event_of_due hdue hcar hrdy
  refine ⟨_, _, hexec, rfl, sent_sendMgmt .., ?_, ?_, partsOnly_event hexec⟩
  · simp [mg_sendMgmt, eventTaken]
  · simp [mg_sendMgmt, eventTaken]

theorem ep1_silence {s : State} (hrun : treeRuns s = true) (hconf : s.on USB_MGT_CONF = true) (hrdy : s.on SYS_STAGE_FWRDY = false) :
    ∃ t, exec .ep1InToken s = .next t ∧ t.rd USB_MGT_SILENT = satInc 255 (s.rd USB_MGT_SILENT) ∧
      (s.mg.ep1Silent = 2 → t.rd USB_MGT_EP1HALT = 1 ∧ leafSet t 19 7) ∧
      onlyWrites [USB_MGT_SILENT, USB_MGT_EP1HALT, EVSTAT 19] [.mg] s t := by
  refine ⟨_, exec_ep1InToken_of_unready hrun hconf hrdy, ?_⟩
  have hframe := (onlyWrites_ep1Silenced s).mono (gs := [USB_MGT_SILENT, USB_MGT_EP1HALT, EVSTAT 19]) (by simp) (List.Subset.refl _)
  split
  · exact ⟨(rd_silent_ep1Halted _).trans (rd_silent_ep1Silenced s), fun _ => ⟨rd_ep1halt_ep1Halted _, leafSet_ep1Halted _⟩,
      hframe.trans ((onlyWrites_ep1Halted _).mono (by simp) (List.Subset.refl _))⟩
  · next hfew => exact ⟨rd_silent_ep1Silenced s, fun hthird => absurd hthird hfew, hframe⟩

/-- Settles O49: a token, an ACK or an EVENT is one equation in each case of the endpoint or tunnel, and a rise of a leaf only marks reports due. -/
theorem eventReportsGoOut : Obligations.EventReportsGoOut := by
  unfold Obligations.EventReportsGoOut
  refine ⟨fun c s => event_goes_out, fun c s => exec_event_of_idle, fun s hrun hconf hrdy hhalt =>
      ⟨fun hsent hdue => ?_, fun hsent hdue => ?_, fun d hsent => ⟨?_, ?_⟩⟩,
    fun s hrun hconf hrdy hhalt => ?_, fun s => ep1_silence, fun s => exec_ep1InToken_of_off, fun s => exec_ep1Ack_of_none, ep1_raise⟩
  · exact ⟨_, _, exec_ep1InToken_of_due hrun hconf hrdy hhalt hsent hdue, rfl, rfl, rfl, rfl, rfl, partsOnly_setMgmt_emit _ _ _⟩
  · exact ⟨_, exec_ep1InToken_of_none_due hrun hconf hrdy hhalt hsent hdue, rfl, partsOnly_setMgmt_emit _ _ _⟩
  · exact ⟨_, exec_ep1InToken_of_sent hrun hconf hrdy hhalt hsent, rfl, partsOnly_setMgmt_emit _ _ _⟩
  · exact ⟨_, exec_ep1Ack_of_sent hsent, rfl, rfl, partsOnly_ep1Delivered s⟩
  · exact ⟨_, exec_ep1InToken_of_halted hrun hconf hrdy hhalt, rfl, partsOnly_setMgmt_emit _ _ _⟩

end Sys2Proof.Machine
end

section
/-! Writes of a field, of a list of fields and of one bit of a word, as the statements about the time unit need them beside the rules
above. -/

namespace Sys2Proof.Machine

open Sys2Proof Sys2Proof.Laws

theorem decodeFor_of_decodeAddr {p a i j : Nat} {r : RegId} (h : decodeAddr a = some (r, i, j)) (hr : perPath r = false) :
    decodeFor p a = some (r, i, j) := by
  simp [decodeFor, h, hr]

/-- The envelopes stand in the image: a write of other parts of the state leaves them. -/
theorem unbounded_of_onlyWrites {a : Nat} {fs : List Fld} {ps : List Part} {s t : State} (hu : unbounded s a) (h : onlyWrites fs ps s t)
    (hps : .ld ∉ ps) : unbounded t a := by
  have hld : t.ld = s.ld := h.2 .ld (by simpa using hps)
  intro lo w
  rw [← hu lo w, envelope, hld, envelope]

/-- A configuration error of a register outside the tunnel table is a leaf of its unit (R8). -/
theorem cfgErr_of_lt {a : Nat} (ha : a < 0x400000) (s : State) : cfgErr a s = raise (unitOfAddr a) 31 s :=
  if_neg (by omega)

/-- Where no envelope bounds a field, a write stores the value, or only raises the configuration error (R8). -/
theorem wrField_cases {a : Nat} (hu : unbounded s a) (ha : a < 0x400000) (f : Fld) (v : Nat) :
    wrField a f v s = s.wr f v ∨ wrField a f v s = raise (unitOfAddr a) 31 s := by
  by_cases hr : v < f.lo ∨ f.hi < v
  · exact .inr ((if_pos hr).trans (cfgErr_of_lt ha s))
  · exact .inl (wrField_of_unbounded hu (by omega) (by omega))

theorem onlyWrites_wrField {a : Nat} {s : State} (hu : unbounded s a) (ha : a < 0x400000) (f : Fld) (v : Nat) :
    onlyWrites [f, EVSTAT (unitOfAddr a)] [.mg] s (wrField a f v s) := by
  rcases wrField_cases hu ha f v with h | h <;> rw [h]
  · exact (onlyWrites_wr f v s).mono (by simp) (by simp)
  · exact (onlyWrites_raise ..).mono (by simp) (by simp)

/-- A field that is written with what it reads keeps reading it, whether or not its range holds that value. -/
theorem rd_wrField_rewritten {a : Nat} {s : State} (hu : unbounded s a) (ha : a < 0x400000) {f g : Fld} (hg : g = f ∨ g.key ≠ f.key)
    (he : g.key ≠ (EVSTAT (unitOfAddr a)).key) : (wrField a f (s.rd f) s).rd g = s.rd g := by
  rcases wrField_cases hu ha f (s.rd f) with h | h <;> rw [h]
  · rcases hg with rfl | hne
    · rw [State.rd_wr_same, Nat.mod_eq_of_lt (State.rd_lt s g)]
    · exact State.rd_wr_ne _ _ _ _ hne
  · exact rd_raise_ne _ _ _ _ he

/-- A word that gives each of a register's fields what it reads leaves what they read. -/
theorem rd_wrWord_rewritten {a v : Nat} (ha : a < 0x400000) {fs : List Fld} {s : State} (hu : unbounded s a)
    (hfs : ∀ f ∈ fs, f.acc = .rw ∧ f.key ≠ (EVSTAT (unitOfAddr a)).key) (hkeys : ∀ f ∈ fs, ∀ g ∈ fs, g = f ∨ g.key ≠ f.key)
    (hv : ∀ f ∈ fs, bits v (f.pos + f.w - 1) f.pos = s.rd f) {g : Fld} (hg : ∀ f ∈ fs, g = f ∨ g.key ≠ f.key)
    (he : g.key ≠ (EVSTAT (unitOfAddr a)).key) : (wrWord a v fs s).rd g = s.rd g := by
  induction fs generalizing s with
  | nil => rfl
  | cons f fs ih =>
    simp only [List.forall_mem_cons] at hfs hv hg
    have hwr : wrAcc a v f s = wrField a f (s.rd f) s := by simp only [wrAcc, hfs.1.1, hv.1]
    have hkeep {h : Fld} (hh : h = f ∨ h.key ≠ f.key) (hhe : h.key ≠ (EVSTAT (unitOfAddr a)).key) : (wrAcc a v f s).rd h = s.rd h :=
      hwr ▸ rd_wrField_rewritten hu ha hh hhe
    have hu' : unbounded (wrAcc a v f s) a := hwr ▸ unbounded_of_onlyWrites hu (onlyWrites_wrField hu ha f _) (by simp)
    have hv' : ∀ h ∈ fs, bits v (h.pos + h.w - 1) h.pos = (wrAcc a v f s).rd h := fun h hm =>
      (hv.2 h hm).trans (hkeep (hkeys f (by simp) h (by simp [hm])) (hfs.2 h hm).2).symm
    rw [wrWord_cons, ih hu' hfs.2 (fun h hm k km => hkeys h (by simp [hm]) k (by simp [km])) hv' hg.2, hkeep hg.1 he]

/-- Reads after a list of writes to distinct fields: each reads what it was given. -/
theorem State.rd_wrs_of_mem {l : List (Fld × Nat)} {e : Fld × Nat} (hl : (l.map fun x => x.1.key).Nodup) (he : e ∈ l) (s : State) :
    (s.wrs l).rd e.1 = e.2 % 2 ^ e.1.w := by
  induction l generalizing s with
  | nil => simp at he
  | cons x l ih =>
    obtain ⟨hx, hl⟩ := List.nodup_cons.1 hl
    rw [State.wrs_cons]
    rcases List.mem_cons.1 he with rfl | hm
    · rw [State.rd_wrs_ne _ _ _ fun y hy hkey => hx (List.mem_map.2 ⟨y, hy, hkey.symm⟩), State.rd_wr_same]
    · exact ih hl hm _

theorem wrs_append (s : State) (l m : List (Fld × Nat)) : s.wrs (l ++ m) = (s.wrs l).wrs m := List.foldl_append

theorem forAll_wrs {α : Type} (l : List α) (g : α → List (Fld × Nat)) (s : State) :
    forAll l (fun x t => t.wrs (g x)) s = s.wrs (l.flatMap g) := List.foldl_flatMap.symm

/-- Setting a bit above a field leaves the field. -/
theorem bits_or_two_pow_of_lt (x : Nat) {k hi lo : Nat} (h : hi < k) : bits (x ||| 2 ^ k) hi lo = bits x hi lo := by
  refine Nat.eq_of_testBit_eq fun i => ?_
  simp only [bits, Nat.testBit_mod_two_pow, Nat.testBit_div_two_pow, Nat.testBit_or, Nat.testBit_two_pow]
  by_cases hi : i < hi + 1 - lo
  · simp [show k ≠ i + lo by omega]
  · simp [hi]

end Sys2Proof.Machine
end

section
/-! The time unit (R354 to R358, R374): writes of a time base's registers, the snapshot, and the end of an event pin's level. -/

namespace Sys2Proof.Machine

open Sys2Proof Sys2Proof.Laws

/-! ### The registers of the unit (R378 to R380) -/

theorem decodeAddr_timeBase : ∀ n : TimeBase,
    decodeAddr (0x50000 + 0x40 * n.val) = some (.TIM_TBCTL, n.val, 0) ∧ decodeAddr (0x50004 + 0x40 * n.val) = some (.TIM_TBINCI, n.val, 0) ∧
    decodeAddr (0x50008 + 0x40 * n.val) = some (.TIM_TBINCF, n.val, 0) ∧ decodeAddr (0x5000C + 0x40 * n.val) = some (.TIM_TBLDNS, n.val, 0) ∧
    decodeAddr (0x50010 + 0x40 * n.val) = some (.TIM_TBLDFR, n.val, 0) := by decide

theorem decodeAddr_eventPin : ∀ e : EvtPin, decodeAddr (0x50400 + 0x20 * e.val) = some (.TIM_EVCTL, e.val, 0) := by decide

theorem decodeAddr_snapshot : decodeAddr 0x50200 = some (.TIM_SNAP, 0, 0) := by decide

theorem timeBase_keys (n : Nat) :
    (TIM_TBCTL_RUN n).key = 512 * n + 2621471 ∧ (TIM_TBCTL_STSRC n).key = 512 * n + 2621467 ∧
    (TIM_TBCTL_ARMED n).key = 512 * n + 2621466 ∧ (TIM_TBCTL_HOSTSRV n).key = 512 * n + 2621455 ∧
    (TIM_TBINCI_NS n).key = 512 * n + 2621472 ∧ (TIM_TBINCF_FRAC n).key = 512 * n + 2621504 ∧
    (TIM_TBWRAP_WRAPS n).key = 512 * n + 2621600 := by
  refine ⟨?_, ?_, ?_, ?_, ?_, ?_, ?_⟩ <;>
    simp only [TIM_TBCTL_RUN, TIM_TBCTL_STSRC, TIM_TBCTL_ARMED, TIM_TBCTL_HOSTSRV, TIM_TBINCI_NS, TIM_TBINCF_FRAC, TIM_TBWRAP_WRAPS,
      fld] <;> omega

/-- The time unit's leaves stand apart from its bases' registers. -/
theorem key_evstat_tim : (EVSTAT 20).key = 2654080 := rfl

theorem unitOfAddr_tbctl : ∀ n : TimeBase, unitOfAddr (0x50000 + 0x40 * n.val) = 20 := by decide

/-! ### What is in force of a base, replaced -/

def State.setIncs (s : State) (m : NMap Nat) : State := { s with incs := m }

def State.setTb (s : State) (m : NMap Nat) : State := { s with tb := m }

theorem onlyWrites_setIncs (fs : List Fld) (s : State) (m : NMap Nat) : onlyWrites fs [.incs] s (s.setIncs m) := by
  refine ⟨fun _ _ => rfl, fun p hp => ?_⟩
  cases p
  case incs => simp at hp
  all_goals rfl

theorem onlyWrites_setTb (fs : List Fld) (s : State) (m : NMap Nat) : onlyWrites fs [.tb] s (s.setTb m) := by
  refine ⟨fun _ _ => rfl, fun p hp => ?_⟩
  cases p
  case tb => simp at hp
  all_goals rfl

/-- The marks of a base are the scheduler's, which no register shows (R361). -/
theorem onlyWrites_noteChange (fs : List Fld) (n : Nat) (s : State) : onlyWrites fs [.sc] s (noteChange n s) := by
  refine ⟨fun _ _ => rfl, fun p hp => ?_⟩
  cases p
  case sc => simp at hp
  all_goals rfl

@[simp] theorem rd_restartSeries (n : Nat) (s : State) (f : Fld) : (restartSeries n s).rd f = s.rd f := rfl

/-! ### The increment (R355) -/

theorem wrTbinci_of_unbounded {n v : Nat} {s : State} (hu : unbounded s (0x50004 + 0x40 * n)) :
    wrTbinci n v s = (noteChange n (s.wr (TIM_TBINCI_NS n) (v % 256))).setIncs
      (mput (2 ^ 32) s.incs n (v % 256 * 2 ^ 32 + s.rd (TIM_TBINCF_FRAC n))) := by
  have hwr : wrField (0x50004 + 0x40 * n) (TIM_TBINCI_NS n) (v % 256) s = s.wr (TIM_TBINCI_NS n) (v % 256) :=
    wrField_of_unbounded hu (Nat.zero_le _) (Nat.le_of_lt_succ (Nat.mod_lt _ (by decide)))
  have hns : (s.wr (TIM_TBINCI_NS n) (v % 256)).rd (TIM_TBINCI_NS n) = v % 256 :=
    (State.rd_wr_same ..).trans (Nat.mod_mod _ _)
  have hfrac : (s.wr (TIM_TBINCI_NS n) (v % 256)).rd (TIM_TBINCF_FRAC n) = s.rd (TIM_TBINCF_FRAC n) :=
    State.rd_wr_ne _ _ _ _ (by simp [timeBase_keys])
  simp only [wrTbinci, hwr, hns, hfrac, if_true]
  rfl

theorem exec_tbinciWrite {p : Path} {n : TimeBase} {v : Word} {s : State} (h : plainly s p (0x50004 + 0x40 * n.val)) :
    exec (.tbinciWrite p n v) s = .next (wrTbinci n.val v.toNat s) :=
  congrArg Host.Outcome.next (pathWrite_of_plainly h (by omega) (decodeFor_of_decodeAddr (decodeAddr_timeBase n).2.1 rfl) rfl)

/-- The integer part applies the increment with the fraction held. -/
theorem tbinci_applies {p : Path} {n : TimeBase} {v : Word} {s : State} (h : plainly s p (0x50004 + 0x40 * n.val)) :
    ∃ t, exec (.tbinciWrite p n v) s = .next t ∧ t.rd (TIM_TBINCI_NS n.val) = v.toNat % 256 ∧
      mget (2 ^ 32) t.incs n.val = v.toNat % 256 * 2 ^ 32 + s.rd (TIM_TBINCF_FRAC n.val) ∧
      onlyWrites [TIM_TBINCI_NS n.val] [.incs, .sc] s t := by
  refine ⟨_, exec_tbinciWrite h, ?_⟩
  rw [wrTbinci_of_unbounded h.2]
  refine ⟨(State.rd_wr_same ..).trans (Nat.mod_mod _ _), mget_mput_same .., ?_⟩
  exact ((onlyWrites_wr _ _ s).mono (List.Subset.refl _) (by simp)).trans
    (((onlyWrites_noteChange _ n.val _).mono (List.Subset.refl _) (by simp)).trans
      ((onlyWrites_setIncs _ _ _).mono (List.Subset.refl _) (by simp)))

theorem bits_word (v : Word) : bits v.toNat 31 0 = v.toNat := by
  simp [bits, Nat.mod_eq_of_lt v.isLt]

theorem tbincf_pos (n : Nat) : (TIM_TBINCF_FRAC n).pos = 0 := by
  simp only [Fld.pos, timeBase_keys]
  omega

theorem exec_tbincfWrite {p : Path} {n : TimeBase} {v : Word} {s : State} (h : plainly s p (0x50008 + 0x40 * n.val)) :
    exec (.tbincfWrite p n v) s = .next (s.wr (TIM_TBINCF_FRAC n.val) v.toNat) := by
  have hbits : bits v.toNat ((TIM_TBINCF_FRAC n.val).pos + (TIM_TBINCF_FRAC n.val).w - 1) (TIM_TBINCF_FRAC n.val).pos = v.toNat := by
    rw [tbincf_pos]
    exact bits_word v
  have hhi : v.toNat ≤ (TIM_TBINCF_FRAC n.val).hi := by
    rw [show (TIM_TBINCF_FRAC n.val).hi = 2 ^ 32 - 1 from rfl]
    omega
  have hacc : wrAcc (0x50008 + 0x40 * n.val) v.toNat (TIM_TBINCF_FRAC n.val) s = s.wr (TIM_TBINCF_FRAC n.val) v.toNat := by
    rw [wrAcc_rw_of_unbounded rfl h.2 (Nat.zero_le _) (hbits.le.trans hhi), hbits]
  rw [← hacc]
  exact congrArg Host.Outcome.next (pathWrite_of_plainly h (by omega) (decodeFor_of_decodeAddr (decodeAddr_timeBase n).2.2.1 rfl) rfl)

/-! ### The start and the stop (R356) -/

/-- What a word of TIM_TBCTL leaves in STSRC and HOSTSRV, before RUN is looked at. -/
def tbctlPlaced (n v : Nat) (s : State) : State :=
  wrField (0x50000 + 0x40 * n) (TIM_TBCTL_HOSTSRV n) (bits v 15 15)
    (if 1 ≤ bits v 30 27 ∧ bits v 30 27 ≤ 7 then cfgErr (0x50000 + 0x40 * n) s
      else wrField (0x50000 + 0x40 * n) (TIM_TBCTL_STSRC n) (bits v 30 27) s)

section
variable {n : TimeBase} {v : Nat} {s : State} (hu : unbounded s (0x50000 + 0x40 * n.val))
include hu

theorem onlyWrites_tbctlPlaced :
    onlyWrites [TIM_TBCTL_STSRC n.val, TIM_TBCTL_HOSTSRV n.val, EVSTAT 20] [.mg] s (tbctlPlaced n.val v s) := by
  have ha : 0x50000 + 0x40 * n.val < 0x400000 := by omega
  have hsrc : onlyWrites [TIM_TBCTL_STSRC n.val, EVSTAT 20] [.mg] s
      (if 1 ≤ bits v 30 27 ∧ bits v 30 27 ≤ 7 then cfgErr (0x50000 + 0x40 * n.val) s
        else wrField (0x50000 + 0x40 * n.val) (TIM_TBCTL_STSRC n.val) (bits v 30 27) s) := by
    split
    · rw [cfgErr_of_lt ha, unitOfAddr_tbctl]
      exact (onlyWrites_raise ..).mono (by simp) (by simp)
    · exact unitOfAddr_tbctl n ▸ onlyWrites_wrField hu ha _ _
  have hsrv := onlyWrites_wrField (unbounded_of_onlyWrites hu hsrc (by simp)) ha (TIM_TBCTL_HOSTSRV n.val) (bits v 15 15)
  rw [unitOfAddr_tbctl] at hsrv
  exact (hsrc.mono (by simp) (by simp)).trans (hsrv.mono (by simp) (by simp))

theorem rd_tbctlPlaced :
    (tbctlPlaced n.val v s).rd (TIM_TBCTL_RUN n.val) = s.rd (TIM_TBCTL_RUN n.val) ∧
    (tbctlPlaced n.val v s).rd (TIM_TBCTL_ARMED n.val) = s.rd (TIM_TBCTL_ARMED n.val) ∧
    (tbctlPlaced n.val v s).rd (TIM_TBWRAP_WRAPS n.val) = s.rd (TIM_TBWRAP_WRAPS n.val) := by
  have hne := fun f hf => (onlyWrites_tbctlPlaced (v := v) hu).1 f hf
  refine ⟨hne _ ?_, hne _ ?_, hne _ ?_⟩ <;> simp [timeBase_keys, key_evstat_tim] <;> omega

theorem tbRunning_tbctlPlaced : tbRunning (tbctlPlaced n.val v s) n.val = tbRunning s n.val := by
  obtain ⟨hrun, harmed, -⟩ := rd_tbctlPlaced (v := v) hu
  simp only [tbRunning, State.on, hrun, harmed]

/-- A start source that is not reserved is stored. -/
theorem rd_stsrc_tbctlPlaced (hsrc : bits v 30 27 = 0 ∨ 8 ≤ bits v 30 27) :
    (tbctlPlaced n.val v s).rd (TIM_TBCTL_STSRC n.val) = bits v 30 27 := by
  have hlt : bits v 30 27 < 2 ^ 4 := bits_lt v 30 27
  have ha : 0x50000 + 0x40 * n.val < 0x400000 := by omega
  rw [tbctlPlaced, if_neg (by omega), wrField_of_unbounded hu (Nat.zero_le _) (Nat.le_of_lt_succ hlt)]
  rw [(onlyWrites_wrField (unbounded_wr hu _ _) ha _ _).1 _ ?_, State.rd_wr_same]
  · exact Nat.mod_eq_of_lt hlt
  · simp [unitOfAddr_tbctl, timeBase_keys, key_evstat_tim]
    omega

theorem wrTbctl_of_unbounded : wrTbctl n.val v s = setRun n.val (bit v 31) (tbctlPlaced n.val v s) := by
  have henv : envelope (tbctlPlaced n.val v s) (0x50000 + 0x40 * n.val) 31 1 = none :=
    unbounded_of_onlyWrites hu (onlyWrites_tbctlPlaced hu) (by simp) 31 1
  simp only [wrTbctl]
  split
  · next hsome => exact absurd (henv.symm.trans hsome) (by simp)
  · rfl

end

theorem setRun_stop (n : Nat) (s : State) :
    (setRun n false s).rd (TIM_TBCTL_RUN n) = 0 ∧ (setRun n false s).rd (TIM_TBCTL_ARMED n) = 0 := by
  simp [setRun, State.rd_wr_ne, timeBase_keys]

theorem setRun_of_running {n : Nat} {s : State} (h : tbRunning s n = true) : setRun n true s = s := by
  simp [setRun, h]

theorem setRun_start {n : Nat} {s : State} (h : tbRunning s n = false) (hsrc : s.rd (TIM_TBCTL_STSRC n) = 0) :
    setRun n true s = startBase n s := by
  simp [setRun, h, hsrc]

theorem setRun_arm {n : Nat} {s : State} (h : tbRunning s n = false) (hsrc : s.rd (TIM_TBCTL_STSRC n) ≠ 0) :
    setRun n true s = s.wrs [(TIM_TBCTL_RUN n, 1), (TIM_TBCTL_ARMED n, 1)] := by
  simp [setRun, h, hsrc]

theorem timeBase_widths (n : Nat) : (TIM_TBCTL_RUN n).w = 1 ∧ (TIM_TBCTL_ARMED n).w = 1 ∧ (TIM_TBWRAP_WRAPS n).w = 32 := ⟨rfl, rfl, rfl⟩

theorem rd_startBase (n : Nat) (s : State) : (startBase n s).rd (TIM_TBCTL_RUN n) = 1 ∧ (startBase n s).rd (TIM_TBCTL_ARMED n) = 0 ∧
    (startBase n s).rd (TIM_TBWRAP_WRAPS n) = 0 := by
  simp [startBase, State.rd_wr_ne, timeBase_keys, timeBase_widths]

theorem exec_run {p : Path} {n : TimeBase} {v : Word} {s : State} (h : plainly s p (0x50000 + 0x40 * n.val)) :
    exec (.run p n v) s = .next (setRun n.val (bit v.toNat 31) (tbctlPlaced n.val v.toNat s)) := by
  rw [← wrTbctl_of_unbounded h.2]
  exact congrArg Host.Outcome.next (pathWrite_of_plainly h (by omega) (decodeFor_of_decodeAddr (decodeAddr_timeBase n).1 rfl) rfl)

section
variable {p : Path} {n : TimeBase} {v : Word} {s : State} (h : plainly s p (0x50000 + 0x40 * n.val))
include h

theorem run_starts (hrun : bit v.toNat 31 = true) (hsrc : bits v.toNat 30 27 = 0) (hstop : tbRunning s n.val = false) :
    ∃ t, exec (.run p n v) s = .next t ∧ t.rd (TIM_TBCTL_RUN n.val) = 1 ∧ t.rd (TIM_TBCTL_ARMED n.val) = 0 ∧
      t.rd (TIM_TBWRAP_WRAPS n.val) = 0 := by
  refine ⟨_, exec_run h, ?_⟩
  rw [hrun, setRun_start ((tbRunning_tbctlPlaced h.2).trans hstop) ((rd_stsrc_tbctlPlaced h.2 (.inl hsrc)).trans hsrc)]
  exact rd_startBase ..

theorem run_arms (hrun : bit v.toNat 31 = true) (hsrc : 8 ≤ bits v.toNat 30 27) (hstop : tbRunning s n.val = false) :
    ∃ t, exec (.run p n v) s = .next t ∧ t.rd (TIM_TBCTL_RUN n.val) = 1 ∧ t.rd (TIM_TBCTL_ARMED n.val) = 1 ∧
      t.rd (TIM_TBWRAP_WRAPS n.val) = s.rd (TIM_TBWRAP_WRAPS n.val) := by
  refine ⟨_, exec_run h, ?_⟩
  rw [hrun, setRun_arm ((tbRunning_tbctlPlaced h.2).trans hstop) (by rw [rd_stsrc_tbctlPlaced h.2 (.inr hsrc)]; omega)]
  simp [State.rd_wr_ne, timeBase_keys, timeBase_widths, rd_tbctlPlaced h.2]

theorem run_keeps (hrun : bit v.toNat 31 = true) (hgo : tbRunning s n.val = true) :
    ∃ t, exec (.run p n v) s = .next t ∧ tbRunning t n.val = true ∧ t.rd (TIM_TBWRAP_WRAPS n.val) = s.rd (TIM_TBWRAP_WRAPS n.val) := by
  have hgo' := (tbRunning_tbctlPlaced (v := v.toNat) h.2).trans hgo
  refine ⟨_, exec_run h, ?_⟩
  rw [hrun, setRun_of_running hgo']
  exact ⟨hgo', (rd_tbctlPlaced h.2).2.2⟩

theorem run_stops (hrun : bit v.toNat 31 = false) :
    ∃ t, exec (.run p n v) s = .next t ∧ t.rd (TIM_TBCTL_RUN n.val) = 0 ∧ t.rd (TIM_TBCTL_ARMED n.val) = 0 := by
  refine ⟨_, exec_run h, ?_⟩
  rw [hrun]
  exact setRun_stop ..

end

/-! ### The load (R356) -/

/-- The half of a base's load value: the fraction, or the nanoseconds. -/
def tbldFld (n : Nat) (fr : Bool) : Fld := if fr then TIM_TBLDFR_FRAC n else TIM_TBLDNS_NS n

/-- A base's value with one half replaced. -/
def tbLoaded (x v : Nat) (fr : Bool) : Nat := if fr then x / 2 ^ 32 * 2 ^ 32 + v else v * 2 ^ 32 + x % 2 ^ 32

theorem tbldFld_word (n : Nat) (fr : Bool) : (tbldFld n fr).w = 32 ∧ (tbldFld n fr).lo = 0 ∧ (tbldFld n fr).hi = 2 ^ 32 - 1 := by
  cases fr <;> exact ⟨rfl, rfl, rfl⟩

theorem wrTbld_of_running {n v : Nat} {fr : Bool} {s : State} (h : tbRunning s n = true) : wrTbld n fr v s = raise 20 4 s := if_pos h

theorem wrTbld_of_stopped {n : Nat} {fr : Bool} {v : Word} {s : State} (hstop : tbRunning s n = false)
    (hu : unbounded s ((if fr then 0x50010 else 0x5000C) + 0x40 * n)) :
    wrTbld n fr v.toNat s = (noteChange n (s.wr (tbldFld n fr) v.toNat)).setTb (mput 0 s.tb n (tbLoaded (mget 0 s.tb n) v.toNat fr)) := by
  obtain ⟨hw, hlo, hhi⟩ := tbldFld_word n fr
  have hwr : wrField ((if fr then 0x50010 else 0x5000C) + 0x40 * n) (tbldFld n fr) v.toNat s = s.wr (tbldFld n fr) v.toNat :=
    wrField_of_unbounded hu (by simp [hlo]) (by rw [hhi]; exact Nat.le_of_lt_succ v.isLt)
  have hrd : (s.wr (tbldFld n fr) v.toNat).rd (tbldFld n fr) = v.toNat := by
    rw [State.rd_wr_same, hw, Nat.mod_eq_of_lt v.isLt]
  rw [tbldFld] at hwr hrd ⊢
  simp only [wrTbld, hstop, hwr, hrd, ne_eq, not_true_eq_false, Bool.false_eq_true, if_false]
  rfl

theorem exec_tbldWrite {p : Path} {n : TimeBase} {fr : Bool} {v : Word} {s : State}
    (h : plainly s p ((if fr then 0x50010 else 0x5000C) + 0x40 * n.val)) :
    exec (.tbldWrite p n fr v) s = .next (wrTbld n.val fr v.toNat s) := by
  obtain ⟨-, -, -, hns, hfr⟩ := decodeAddr_timeBase n
  cases fr with
  | false => exact congrArg Host.Outcome.next (pathWrite_of_plainly h (by simp; omega) (decodeFor_of_decodeAddr hns rfl) rfl)
  | true => exact congrArg Host.Outcome.next (pathWrite_of_plainly h (by simp; omega) (decodeFor_of_decodeAddr hfr rfl) rfl)

/-- A stopped base takes the half that is written at once. -/
theorem tbld_loads {p : Path} {n : TimeBase} {fr : Bool} {v : Word} {s : State}
    (h : plainly s p ((if fr then 0x50010 else 0x5000C) + 0x40 * n.val)) (hstop : tbRunning s n.val = false) :
    ∃ t, exec (.tbldWrite p n fr v) s = .next t ∧ t.rd (tbldFld n.val fr) = v.toNat ∧
      mget 0 t.tb n.val = tbLoaded (mget 0 s.tb n.val) v.toNat fr ∧ onlyWrites [tbldFld n.val fr] [.tb, .sc] s t := by
  refine ⟨_, exec_tbldWrite h, ?_⟩
  rw [wrTbld_of_stopped hstop h.2]
  refine ⟨?_, mget_mput_same .., ?_⟩
  · exact (State.rd_wr_same ..).trans (by rw [(tbldFld_word n.val fr).1, Nat.mod_eq_of_lt v.isLt])
  · exact ((onlyWrites_wr _ _ s).mono (List.Subset.refl _) (by simp)).trans
      (((onlyWrites_noteChange _ n.val _).mono (List.Subset.refl _) (by simp)).trans
        ((onlyWrites_setTb _ _ _).mono (List.Subset.refl _) (by simp)))

/-! ### The snapshot (R358) -/

/-- The snapshot registers of one base, and what TAKE copies into them. -/
def baseSnapshot (s : State) (n : Nat) : List (Fld × Nat) :=
  [(TIM_SNNS_NS n, mget 0 s.tb n / 2 ^ 32), (TIM_SNFR_FRAC n, mget 0 s.tb n), (TIM_SNWR_WRAPS n, s.rd (TIM_TBWRAP_WRAPS n))]

/-- All that TAKE writes: four bases, the lead position and the frame count, and its own bit, which clears. -/
def snapshot (s : State) : List (Fld × Nat) :=
  (List.range 4).flatMap (baseSnapshot s) ++
    [(TIM_SNRAS_POS, s.sc.lpos / 2 ^ 16), (TIM_SNFRM_FRAME, s.rd SCHED_FRAME_COUNT), (TIM_SNAP_TAKE, 0)]

theorem takeSnapshot_eq_wrs (s : State) : takeSnapshot s = s.wrs (snapshot s) := by
  rw [snapshot, wrs_append, ← forAll_wrs]
  rfl

/-- No register of the snapshot is written twice. -/
theorem nodup_snapshot (s : State) : ((snapshot s).map fun x => x.1.key).Nodup := by
  change ((snapshot State.reset).map fun x => x.1.key).Nodup
  decide

theorem rd_takeSnapshot {s : State} {f : Fld} {v : Nat} (h : (f, v) ∈ snapshot s) : (takeSnapshot s).rd f = v % 2 ^ f.w := by
  rw [takeSnapshot_eq_wrs]
  exact State.rd_wrs_of_mem (nodup_snapshot s) h s

theorem rd_takeSnapshot_base {s : State} {n : Nat} (hn : n < 4) {f : Fld} {v : Nat} (h : (f, v) ∈ baseSnapshot s n) :
    (takeSnapshot s).rd f = v % 2 ^ f.w :=
  rd_takeSnapshot (List.mem_append_left _ (List.mem_flatMap.2 ⟨n, List.mem_range.2 hn, h⟩))

theorem exec_take {p : Path} {s : State} (h : writable s p 0x50200) : exec (.take p) s = .next (takeSnapshot s) := by
  obtain ⟨hscope, habs, hlock⟩ := h
  have hdec : decodeFor p.idx 0x50200 = some (.TIM_SNAP, 0, 0) := decodeFor_of_decodeAddr decodeAddr_snapshot rfl
  have hwrite : pathWrite p 0x50200 (2 ^ 31) s = writeReg p .TIM_SNAP 0 0 0x50200 (2 ^ 31) s := by
    simp [pathWrite_of_whole _ _ hscope, regWrite, fabricWrite, habs, hlock, hdec, lacksPersonality]
  exact congrArg Host.Outcome.next hwrite

theorem take_copies {p : Path} {s : State} (h : writable s p 0x50200) :
    ∃ t, exec (.take p) s = .next t ∧
      (∀ n, n < 4 → t.rd (TIM_SNNS_NS n) = mget 0 s.tb n / 2 ^ 32 % 2 ^ 32 ∧ t.rd (TIM_SNFR_FRAC n) = mget 0 s.tb n % 2 ^ 32 ∧
        t.rd (TIM_SNWR_WRAPS n) = s.rd (TIM_TBWRAP_WRAPS n)) ∧
      t.rd TIM_SNRAS_POS = s.sc.lpos / 2 ^ 16 % 2 ^ 32 ∧ t.rd TIM_SNFRM_FRAME = s.rd SCHED_FRAME_COUNT ∧
      t.rd TIM_SNAP_TAKE = 0 ∧ partsOnly [.regs] s t := by
  refine ⟨_, exec_take h, fun n hn => ⟨?_, ?_, ?_⟩, ?_, ?_, ?_, ?_⟩
  · exact rd_takeSnapshot_base hn (by simp [baseSnapshot])
  · exact rd_takeSnapshot_base hn (by simp [baseSnapshot])
  · exact (rd_takeSnapshot_base hn (by simp [baseSnapshot])).trans (Nat.mod_eq_of_lt (State.rd_lt s (TIM_TBWRAP_WRAPS n)))
  · exact rd_takeSnapshot (by simp [snapshot])
  · exact (rd_takeSnapshot (by simp [snapshot])).trans (Nat.mod_eq_of_lt (State.rd_lt s SCHED_FRAME_COUNT))
  · exact rd_takeSnapshot (v := 0) (by simp [snapshot])
  · refine partsOnly_of_mask (m := 2) (fun q hq => ?_) fun k hk => takeSnapshot_frame hk (.refl k s)
    cases q
    case regs => simp at hq
    all_goals rfl

/-! ### The end of a level (R374) -/

/-- The fields of TIM_EVCTL that a write stores. -/
def evctlFields (e : Nat) : List Fld := [TIM_EVCTL_MODE e, TIM_EVCTL_TBSEL e, TIM_EVCTL_POL e, TIM_EVCTL_DIV e, TIM_EVCTL_WIDTH e]

/-- TIM_EVCTL as it reads where the pin is of its own function. -/
def evctlWord (e : Nat) (s : State) : Nat := wordOf s (regFields .TIM_EVCTL e 0)

theorem evctlFields_apart : ∀ e : EvtPin, ∀ f ∈ evctlFields e.val,
    (f.acc = .rw ∧ f.key ≠ (EVSTAT (unitOfAddr (0x50400 + 0x20 * e.val))).key) ∧
    ∀ g ∈ evctlFields e.val, g = f ∨ g.key ≠ f.key := by decide

theorem evctl_pos : ∀ e : EvtPin, (TIM_EVCTL_MODE e.val).pos = 28 ∧ (TIM_EVCTL_TBSEL e.val).pos = 26 ∧ (TIM_EVCTL_POL e.val).pos = 25 ∧
    (TIM_EVCTL_LVLCLR e.val).pos = 24 ∧ (TIM_EVCTL_DIV e.val).pos = 20 ∧ (TIM_EVCTL_WIDTH e.val).pos = 0 := by decide

theorem evctl_widths (e : Nat) : (TIM_EVCTL_MODE e).w = 4 ∧ (TIM_EVCTL_TBSEL e).w = 2 ∧ (TIM_EVCTL_POL e).w = 1 ∧
    (TIM_EVCTL_LVLCLR e).w = 1 ∧ (TIM_EVCTL_DIV e).w = 4 ∧ (TIM_EVCTL_WIDTH e).w = 12 := ⟨rfl, rfl, rfl, rfl, rfl, rfl⟩

theorem evctlWord_eq_sum (e : EvtPin) (s : State) : evctlWord e.val s =
    s.rd (TIM_EVCTL_MODE e.val) * 2 ^ 28 + (s.rd (TIM_EVCTL_TBSEL e.val) * 2 ^ 26 + (s.rd (TIM_EVCTL_POL e.val) * 2 ^ 25 +
      (s.rd (TIM_EVCTL_LVLCLR e.val) * 2 ^ 24 + (s.rd (TIM_EVCTL_DIV e.val) * 2 ^ 20 + s.rd (TIM_EVCTL_WIDTH e.val) * 2 ^ 0)))) := by
  obtain ⟨hmode, htb, hpol, hclr, hdiv, hwidth⟩ := evctl_pos e
  simp only [← hmode, ← htb, ← hpol, ← hclr, ← hdiv, ← hwidth]
  rfl

/-- The word that LVLCLR is written beside gives every stored field what it reads. -/
theorem bits_evctlWord (e : EvtPin) (s : State) :
    ∀ f ∈ evctlFields e.val, bits (evctlWord e.val s ||| 2 ^ 24) (f.pos + f.w - 1) f.pos = s.rd f := by
  obtain ⟨hmode, htb, hpol, -, hdiv, hwidth⟩ := evctl_pos e
  obtain ⟨wmode, wtb, wpol, wclr, wdiv, wwidth⟩ := evctl_widths e.val
  have hword := evctlWord_eq_sum e s
  have lmode := State.rd_lt s (TIM_EVCTL_MODE e.val)
  have ltb := State.rd_lt s (TIM_EVCTL_TBSEL e.val)
  have lpol := State.rd_lt s (TIM_EVCTL_POL e.val)
  have lclr := State.rd_lt s (TIM_EVCTL_LVLCLR e.val)
  have ldiv := State.rd_lt s (TIM_EVCTL_DIV e.val)
  have lwidth := State.rd_lt s (TIM_EVCTL_WIDTH e.val)
  simp only [wmode, wtb, wpol, wclr, wdiv, wwidth] at lmode ltb lpol lclr ldiv lwidth
  simp only [evctlFields, List.forall_mem_cons, List.not_mem_nil, false_imp_iff, implies_true, and_true, hmode, htb, hpol, hdiv, hwidth,
    wmode, wtb, wpol, wdiv, wwidth]
  refine ⟨?_, ?_, ?_, ?_, ?_⟩
  · rw [bits_or_of_lt _ _ _ _ (by decide), bits]
    omega
  · rw [bits_or_of_lt _ _ _ _ (by decide), bits]
    omega
  · rw [bits_or_of_lt _ _ _ _ (by decide), bits]
    omega
  · rw [bits_or_two_pow_of_lt _ (by decide), bits]
    omega
  · rw [bits_or_two_pow_of_lt _ (by decide), bits]
    omega

theorem peekWord_evctl {p : Path} {e : EvtPin} {s : State} (h : writable s p (0x50400 + 0x20 * e.val)) (hfn : evtFn s e.val = 0) :
    peekWord p (0x50400 + 0x20 * e.val) s = evctlWord e.val s := by
  obtain ⟨-, habs, -⟩ := h
  have hdec : decodeFor p.idx (0x50400 + 0x20 * e.val) = some (.TIM_EVCTL, e.val, 0) := decodeFor_of_decodeAddr (decodeAddr_eventPin e) rfl
  simp [peekWord, habs, hdec, regWord, hfn, evctlWord]

theorem exec_lvlclr {p : Path} {e : EvtPin} {s : State} (h : plainly s p (0x50400 + 0x20 * e.val)) (hfn : evtFn s e.val = 0) :
    exec (.lvlclr p e) s = .next (wrEvctl e.val (evctlWord e.val s ||| 2 ^ 24) s) := by
  rw [← peekWord_evctl h.1 hfn]
  exact congrArg Host.Outcome.next (pathWrite_of_plainly h (by omega) (decodeFor_of_decodeAddr (decodeAddr_eventPin e) rfl) rfl)

/-- The register written with what it reads. -/
def evctlRewritten (e : Nat) (s : State) : State := wrWord (0x50400 + 0x20 * e) (evctlWord e s ||| 2 ^ 24) (evctlFields e) s

theorem rd_evctlRewritten {e : EvtPin} {s : State} (hu : unbounded s (0x50400 + 0x20 * e.val)) {g : Fld} (hg : g ∈ evctlFields e.val) :
    (evctlRewritten e.val s).rd g = s.rd g :=
  rd_wrWord_rewritten (by omega) hu (fun f hf => (evctlFields_apart e f hf).1) (fun f hf => (evctlFields_apart e f hf).2)
    (bits_evctlWord e s) (fun f hf => (evctlFields_apart e f hf).2 g hg) (evctlFields_apart e g hg).1.2

theorem partsOnly_evctlRewritten (e : Nat) (s : State) : partsOnly [.regs, .mg] s (evctlRewritten e s) :=
  partsOnly_of_frame fun k hk => wrWord_frame hk (.refl k s)

theorem evt_evctlRewritten (e k : Nat) (s : State) : (evctlRewritten e s).evt k = s.evt k := by
  rw [State.evt, (partsOnly_evctlRewritten e s) .ev (by decide), State.evt]

/-- What a pin shows on its ball is the board's part of the state alone. -/
theorem partsOnly_showEvt (e : Nat) (s : State) : partsOnly [.bt] s (showEvt e s) := by
  refine partsOnly_of_mask (m := 2097152) (fun p hp => ?_) fun k hk => showEvt_frame hk (.refl k s)
  cases p
  case bt => simp at hp
  all_goals rfl

@[simp] theorem rd_showEvt (e : Nat) (s : State) (f : Fld) : (showEvt e s).rd f = s.rd f := by
  rw [State.rd, (partsOnly_showEvt e s) .regs (by decide), State.rd]

@[simp] theorem sent_showEvt (e : Nat) (s : State) : (showEvt e s).sent = s.sent := (partsOnly_showEvt e s) .sent (by decide)

@[simp] theorem evt_showEvt (e k : Nat) (s : State) : (showEvt e s).evt k = s.evt k := by
  rw [State.evt, (partsOnly_showEvt e s) .ev (by decide), State.evt]

theorem driveEvt_shows (e : Nat) (b : Bool) (s : State) : ((driveEvt e b s).evt e).active = b ∧
    (driveEvt e b s).sent = .pin "EVT" e (b == s.on (TIM_EVCTL_POL e)) :: s.sent := by
  refine ⟨by simp [driveEvt], ?_⟩
  rw [driveEvt, State.emit, sent_showEvt]
  rfl

theorem wrEvctl_lvlclr {e : EvtPin} {s : State} (hu : unbounded s (0x50400 + 0x20 * e.val)) (hfn : evtFn s e.val = 0)
    (hact : (s.evt e.val).active = true) (hmode : s.rd (TIM_EVCTL_MODE e.val) = 2 ∨ s.rd (TIM_EVCTL_MODE e.val) = 4) :
    wrEvctl e.val (evctlWord e.val s ||| 2 ^ 24) s = driveEvt e.val false (showEvt e.val (evctlRewritten e.val s)) := by
  have hrd : (evctlRewritten e.val s).rd (TIM_EVCTL_MODE e.val) = s.rd (TIM_EVCTL_MODE e.val) := rd_evctlRewritten hu (by simp [evctlFields])
  have hclr : bit (evctlWord e.val s ||| 2 ^ 24) 24 = true := by simp [bit_eq_testBit, show Nat.testBit 16777216 24 = true from rfl]
  have hstored : wrWord (0x50400 + 0x20 * e.val) (evctlWord e.val s ||| 2 ^ 24)
      ((regFields .TIM_EVCTL e.val 0).filter fun f => f.acc = .rw) s = evctlRewritten e.val s := rfl
  rw [wrEvctl, if_neg (by simpa using hfn)]
  generalize evctlWord e.val s ||| 2 ^ 24 = v at hclr hstored
  simp [hstored, hrd, hclr, evt_evctlRewritten, hact, hmode]

/-- LVLCLR drives an active level pin inactive, and leaves the rest of its register. -/
theorem lvlclr_ends_level {p : Path} {e : EvtPin} {s : State} (h : plainly s p (0x50400 + 0x20 * e.val)) (hfn : evtFn s e.val = 0)
    (hact : (s.evt e.val).active = true) (hmode : s.rd (TIM_EVCTL_MODE e.val) = 2 ∨ s.rd (TIM_EVCTL_MODE e.val) = 4) :
    ∃ t, exec (.lvlclr p e) s = .next t ∧ (t.evt e.val).active = false ∧
      t.sent = .pin "EVT" e.val (false == s.on (TIM_EVCTL_POL e.val)) :: s.sent := by
  obtain ⟨hend, hsent⟩ := driveEvt_shows e.val false (showEvt e.val (evctlRewritten e.val s))
  have hpol : (showEvt e.val (evctlRewritten e.val s)).on (TIM_EVCTL_POL e.val) = s.on (TIM_EVCTL_POL e.val) := by
    rw [State.on, rd_showEvt, rd_evctlRewritten h.2 (by simp [evctlFields]), State.on]
  have hbefore : (showEvt e.val (evctlRewritten e.val s)).sent = s.sent :=
    (sent_showEvt ..).trans ((partsOnly_evctlRewritten e.val s) .sent (by decide))
  refine ⟨_, exec_lvlclr h hfn, ?_⟩
  rw [wrEvctl_lvlclr h.2 hfn hact hmode]
  exact ⟨hend, by rw [hsent, hpol, hbefore]⟩

/-- Settles O56: a write of each register is one equation in each case of the base or pin, and TAKE is a list of writes to distinct
registers. -/
theorem timeBaseCommands : Obligations.TimeBaseCommands := by
  unfold Obligations.TimeBaseCommands
  refine ⟨fun p n v s => ⟨tbinci_applies, fun h => ?_⟩, fun p n v s h => ⟨run_starts h, run_arms h, run_keeps h, run_stops h⟩,
    fun p n b v s h => ⟨fun hstop => ?_, fun hgo => ?_⟩, fun p s => take_copies, fun p e s => lvlclr_ends_level⟩
  · exact ⟨_, exec_tbincfWrite h, (State.rd_wr_same ..).trans (Nat.mod_eq_of_lt v.isLt), onlyWrites_wr ..⟩
  · exact tbld_loads h hstop
  · refine ⟨_, exec_tbldWrite h, ?_⟩
    rw [wrTbld_of_running hgo]
    exact ⟨leafSet_raise 20 4 s (by decide), onlyWrites_raise ..⟩

end Sys2Proof.Machine
end

section
set_option Elab.async false
/-! What holds of every command and every step: a command answers a next state, keeps the parts that `touches` does not give it, and
keeps the canonical form; the reset state has it. -/

namespace Sys2Proof.Machine

open Sys2Proof Sys2Proof.Laws

/-! ### Every command answers a next state -/

/-- An outcome that is a next state. -/
def Answers (o : Host.Outcome State Fault Refusal) : Prop := ∃ t, o = .next t

theorem Answers.next (t : State) : Answers (.next t) := ⟨t, rfl⟩

theorem Answers.ite {c : Prop} [Decidable c] {o p : Host.Outcome State Fault Refusal} (h : Answers o) (g : Answers p) :
    Answers (if c then o else p) := by
  split <;> assumption

theorem exec_answers (c : Instr) (s : State) : Answers (exec c s) := by
  cases c
  all_goals
    dsimp only [exec,
      execUnmappedAccess, execClockFailure, execSettleTimerExpiry, execSolveCommit, execTableSwap, execImageLoad,
      execImageStreamComplete, execFlashReadError, execImageConfigComplete, execCheckComplete, execSliceReloadCommit,
      execReloadReconfigComplete, execFlashOpComplete, execEvent, execEp1InToken, execSysDwdataAccess, execI2cReadTransfer,
      execSpiReadFrame, execFlushComplete, execMapSwitch, execXgapTimeout, execReturnTimer, execCutThroughAbort, execStallTimerExpiry,
      execPortRetrainWait, execCellEvacuated, execLeadSourceLost, execQbvCycleStart, execCredit, execCreditTimer, execLgrant, execRack,
      execRnak, execRnakRepeat, execResume, execUncorrectableCodeword, execRecordClose, execTag, execKeyUpdateStart, execKupd,
      execKupdRepeat, execKack, execKackTimeout, execCaps, execKshare, execHsfin, execTsync, execLinkTimeTsync, execExchangeAbandon,
      execEnterMode, execReceiverDetect, execTs1, execTs2, execLos, execLosTimeout, execRetrainTimeout, execSelfchkComplete, execHold,
      execPipeLineStart, execLineDecision, execAuxReply, execTeEdge, execTeMiss, execTlp, execUsb3Packet, execEthernetFrame,
      execHpdChange, execDpLinkTraining, execEjectPress, execEjectLinkDisable, execSurpriseRemoval, execLinkUp, execLinkDown,
      execPassOver, execPortReset, execDeviceConnect, execOvercurrent, execBabble, execRemoteWake, execResumeEnd, execPortPower,
      execClearFeatureEndpointHalt, execTimeSendCorrection, execRasterCompare, execPulseEnd, execCapture, execCheckpointComplete,
      execGfSelftest, execLockstepMismatch, execManagementWatchdog, execResetRelease, execFuseLoadAttempt, execCorePg,
      execParticipantAnswer, execEntryCommit, execAonArmed, execWake, execReturnStep, execReturnTimeout, execButton, execLinkIdle,
      execCcAttach, execVbusLoss, execDrpToggle, execSourceCapabilities, execRequest, execConverterStep, execPsRdy, execTransitionLimit,
      execHardReset, execDrSwap, execPrSwap, execVconnSwap, execPpsCurrentLimit, execDiscoverModes, execEnterUsb, execPowerGood,
      execUndervoltage, execFeedQualified, execFeedLoss, execDeadTime, execPwrwarn, execFeedPresence, execLeaseOverdraw,
      execStoreComplete, execRemask, execThermalSample, execCellLosTimeout, execStandardRecovery, execCheckerSync, execCheckerError,
      execPortUpHold, execCcTerminationChange, execVbusDischarged, execExplicitContract, execCascadeMgmtResponse, execAvsDeviation]
  all_goals
    repeat' first
      | with_reducible exact .next _
      | with_reducible refine .ite ?_ ?_
      | split
  all_goals exact .next _

/-! ### What a command leaves alone -/

/-- A list of parts as a mask of the frame lemmas. -/
def partMask : List Part → Nat
  | [] => 0
  | p :: ps => 2 ^ p.ctorIdx ||| partMask ps

theorem Part.ctorIdx_injective {p q : Part} (h : p.ctorIdx = q.ctorIdx) : p = q := by
  cases p <;> cases q <;> first | rfl | cases h

theorem testBit_partMask {p : Part} {ps : List Part} (h : p ∉ ps) : (partMask ps).testBit p.ctorIdx = false := by
  induction ps with
  | nil => simp [partMask]
  | cons q ps ih =>
    obtain ⟨hq, hps⟩ := not_or.1 (mt List.mem_cons.2 h)
    have hne : q.ctorIdx ≠ p.ctorIdx := fun e => hq (Part.ctorIdx_injective e).symm
    rw [partMask, Nat.testBit_or, ih hps, Nat.testBit_two_pow_of_ne hne, Bool.or_false]

/-- The frame lemmas of an operation, whose mask lies within a list of parts. -/
theorem partsOnly_of_frames {m : Nat} {ps : List Part} {s t : State} (h : ∀ k, m.testBit k = false → Frame k s t)
    (hm : m &&& partMask ps = m) : partsOnly ps s t :=
  partsOnly_of_mask (fun _ hp => testBit_sub hm (testBit_partMask hp)) h

theorem partsOnly_of_frameO {m : Nat} {ps : List Part} {s t : State} {o : Host.Outcome State Fault Refusal}
    (h : ∀ k, m.testBit k = false → FrameO k s o) (ho : o = .next t) (hm : m &&& partMask ps = m) : partsOnly ps s t :=
  partsOnly_of_frames (fun k hk => h k hk t ho) hm

/-- Each command's frame lemma lies within the command's row of `touches`. -/
theorem exec_frame (c : Instr) {k : Nat} {s : State} (hk : (partMask (touches c)).testBit k = false) : FrameO k s (exec c s) := by
  cases c
  all_goals dsimp only [touches, exec] at hk ⊢
  case registerWrite => exact execRegisterWrite_frame (testBit_sub rfl hk) (.refl k s)
  case unmappedAccess => exact execUnmappedAccess_frame (testBit_sub rfl hk) (.refl k s)
  case segmentIngress => exact execSegmentIngress_frame (testBit_sub rfl hk) (.refl k s)
  case clockFailure => exact execClockFailure_frame (testBit_sub rfl hk) (.refl k s)
  case settleTimerExpiry => exact execSettleTimerExpiry_frame (testBit_sub rfl hk) (.refl k s)
  case solveCommit => exact execSolveCommit_frame (testBit_sub rfl hk) (.refl k s)
  case tableSwap => exact execTableSwap_frame (testBit_sub rfl hk) (.refl k s)
  case imageLoad => exact execImageLoad_frame (testBit_sub rfl hk) (.refl k s)
  case imageStreamComplete => exact execImageStreamComplete_frame (testBit_sub rfl hk) (.refl k s)
  case flashReadError => exact execFlashReadError_frame (testBit_sub rfl hk) (.refl k s)
  case imageConfigComplete => exact execImageConfigComplete_frame (testBit_sub rfl hk) (.refl k s)
  case check => exact execCheck_frame (testBit_sub rfl hk) (.refl k s)
  case checkComplete => exact execCheckComplete_frame (testBit_sub rfl hk) (.refl k s)
  case advance => exact execAdvance_frame (testBit_sub rfl hk) (.refl k s)
  case go => exact execGo_frame (testBit_sub rfl hk) (.refl k s)
  case sliceReloadCommit => exact execSliceReloadCommit_frame (testBit_sub rfl hk) (.refl k s)
  case reloadReconfigComplete => exact execReloadReconfigComplete_frame (testBit_sub rfl hk) (.refl k s)
  case read32 => exact execRead32_frame (testBit_sub rfl hk) (.refl k s)
  case write32 => exact execWrite32_frame (testBit_sub rfl hk) (.refl k s)
  case dread => exact execDread_frame (testBit_sub rfl hk) (.refl k s)
  case dwrite => exact execDwrite_frame (testBit_sub rfl hk) (.refl k s)
  case flashErase => exact execFlashErase_frame (testBit_sub rfl hk) (.refl k s)
  case flashProg => exact execFlashProg_frame (testBit_sub rfl hk) (.refl k s)
  case flashRead => exact execFlashRead_frame (testBit_sub rfl hk) (.refl k s)
  case flashStat => exact execFlashStat_frame (testBit_sub rfl hk) (.refl k s)
  case flashOpComplete => exact execFlashOpComplete_frame (testBit_sub rfl hk) (.refl k s)
  case read => exact execRead_frame (testBit_sub rfl hk) (.refl k s)
  case write => exact execWrite_frame (testBit_sub rfl hk) (.refl k s)
  case mgmtFlashErase => exact execMgmtFlashErase_frame (testBit_sub rfl hk) (.refl k s)
  case mgmtFlashProg => exact execMgmtFlashProg_frame (testBit_sub rfl hk) (.refl k s)
  case mgmtFlashRead => exact execMgmtFlashRead_frame (testBit_sub rfl hk) (.refl k s)
  case mgmtReservedOp => exact execMgmtReservedOp_frame (testBit_sub rfl hk) (.refl k s)
  case event => exact execEvent_frame (testBit_sub rfl hk) (.refl k s)
  case ep1InToken => exact execEp1InToken_frame (testBit_sub rfl hk) (.refl k s)
  case ep1Ack => exact execEp1Ack_frame (testBit_sub rfl hk) (.refl k s)
  case arm => exact execArm_frame (testBit_sub rfl hk) (.refl k s)
  case sysDwdataAccess => exact execSysDwdataAccess_frame (testBit_sub rfl hk) (.refl k s)
  case i2cWriteTransfer => exact execI2cWriteTransfer_frame (testBit_sub rfl hk) (.refl k s)
  case i2cSetReadAddress => exact execI2cSetReadAddress_frame (testBit_sub rfl hk) (.refl k s)
  case i2cReadTransfer => exact execI2cReadTransfer_frame (testBit_sub rfl hk) (.refl k s)
  case i2cInvalidCommand => exact execI2cInvalidCommand_frame (testBit_sub rfl hk) (.refl k s)
  case spiWriteFrame => exact execSpiWriteFrame_frame (testBit_sub rfl hk) (.refl k s)
  case spiReadFrame => exact execSpiReadFrame_frame (testBit_sub rfl hk) (.refl k s)
  case spiInvalidCommand => exact execSpiInvalidCommand_frame (testBit_sub rfl hk) (.refl k s)
  case hostselChange => exact execHostselChange_frame (testBit_sub rfl hk) (.refl k s)
  case ttLimitWrite => exact execTtLimitWrite_frame (testBit_sub rfl hk) (.refl k s)
  case ttParamWrite => exact execTtParamWrite_frame (testBit_sub rfl hk) (.refl k s)
  case flushComplete => exact execFlushComplete_frame (testBit_sub rfl hk) (.refl k s)
  case quarantineEnd => exact execQuarantineEnd_frame (testBit_sub rfl hk) (.refl k s)
  case fabricSlot => exact execFabricSlot_frame (testBit_sub rfl hk) (.refl k s)
  case mapSwitch => exact execMapSwitch_frame (testBit_sub rfl hk) (.refl k s)
  case xgapTimeout => exact execXgapTimeout_frame (testBit_sub rfl hk) (.refl k s)
  case returnTimer => exact execReturnTimer_frame (testBit_sub rfl hk) (.refl k s)
  case egressUnitStart => exact execEgressUnitStart_frame (testBit_sub rfl hk) (.refl k s)
  case cutThroughAbort => exact execCutThroughAbort_frame (testBit_sub rfl hk) (.refl k s)
  case backoffEnd => exact execBackoffEnd_frame (testBit_sub rfl hk) (.refl k s)
  case stallTimerExpiry => exact execStallTimerExpiry_frame (testBit_sub rfl hk) (.refl k s)
  case pauseRepeat => exact execPauseRepeat_frame (testBit_sub rfl hk) (.refl k s)
  case portRetrainWait => exact execPortRetrainWait_frame (testBit_sub rfl hk) (.refl k s)
  case voidReclaim => exact execVoidReclaim_frame (testBit_sub rfl hk) (.refl k s)
  case bufferCellRetire => exact execBufferCellRetire_frame (testBit_sub rfl hk) (.refl k s)
  case cellEvacuated => exact execCellEvacuated_frame (testBit_sub rfl hk) (.refl k s)
  case leadFrameStart => exact execLeadFrameStart_frame (testBit_sub rfl hk) (.refl k s)
  case leadSourceLost => exact execLeadSourceLost_frame (testBit_sub rfl hk) (.refl k s)
  case nsrcWrite => exact execNsrcWrite_frame (testBit_sub rfl hk) (.refl k s)
  case schedVirtWrite => exact execSchedVirtWrite_frame (testBit_sub rfl hk) (.refl k s)
  case ovhWrite => exact execOvhWrite_frame (testBit_sub rfl hk) (.refl k s)
  case qbvCycleStart => exact execQbvCycleStart_frame (testBit_sub rfl hk) (.refl k s)
  case credit => exact execCredit_frame (testBit_sub rfl hk) (.refl k s)
  case creditTimer => exact execCreditTimer_frame (testBit_sub rfl hk) (.refl k s)
  case lgrant => exact execLgrant_frame (testBit_sub rfl hk) (.refl k s)
  case rack => exact execRack_frame (testBit_sub rfl hk) (.refl k s)
  case rnak => exact execRnak_frame (testBit_sub rfl hk) (.refl k s)
  case rnakRepeat => exact execRnakRepeat_frame (testBit_sub rfl hk) (.refl k s)
  case resume => exact execResume_frame (testBit_sub rfl hk) (.refl k s)
  case uncorrectableCodeword => exact execUncorrectableCodeword_frame (testBit_sub rfl hk) (.refl k s)
  case recordClose => exact execRecordClose_frame (testBit_sub rfl hk) (.refl k s)
  case tag => exact execTag_frame (testBit_sub rfl hk) (.refl k s)
  case keyUpdateStart => exact execKeyUpdateStart_frame (testBit_sub rfl hk) (.refl k s)
  case kupd => exact execKupd_frame (testBit_sub rfl hk) (.refl k s)
  case kupdRepeat => exact execKupdRepeat_frame (testBit_sub rfl hk) (.refl k s)
  case kack => exact execKack_frame (testBit_sub rfl hk) (.refl k s)
  case kackTimeout => exact execKackTimeout_frame (testBit_sub rfl hk) (.refl k s)
  case caps => exact execCaps_frame (testBit_sub rfl hk) (.refl k s)
  case kshare => exact execKshare_frame (testBit_sub rfl hk) (.refl k s)
  case hsfin => exact execHsfin_frame (testBit_sub rfl hk) (.refl k s)
  case tsync => exact execTsync_frame (testBit_sub rfl hk) (.refl k s)
  case ttx => exact execTtx_frame (testBit_sub rfl hk) (.refl k s)
  case trx => exact execTrx_frame (testBit_sub rfl hk) (.refl k s)
  case linkTimeTsync => exact execLinkTimeTsync_frame (testBit_sub rfl hk) (.refl k s)
  case exchangeAbandon => exact execExchangeAbandon_frame (testBit_sub rfl hk) (.refl k s)
  case enterMode => exact execEnterMode_frame (testBit_sub rfl hk) (.refl k s)
  case trainingLimit => exact execTrainingLimit_frame (testBit_sub rfl hk) (.refl k s)
  case retrain => exact execRetrain_frame (testBit_sub rfl hk) (.refl k s)
  case uprefWrite => exact execUprefWrite_frame (testBit_sub rfl hk) (.refl k s)
  case receiverDetect => exact execReceiverDetect_frame (testBit_sub rfl hk) (.refl k s)
  case ts1 => exact execTs1_frame (testBit_sub rfl hk) (.refl k s)
  case ts2 => exact execTs2_frame (testBit_sub rfl hk) (.refl k s)
  case lossOfLock => exact execLossOfLock_frame (testBit_sub rfl hk) (.refl k s)
  case los => exact execLos_frame (testBit_sub rfl hk) (.refl k s)
  case losTimeout => exact execLosTimeout_frame (testBit_sub rfl hk) (.refl k s)
  case retrainTimeout => exact execRetrainTimeout_frame (testBit_sub rfl hk) (.refl k s)
  case selfchkComplete => exact execSelfchkComplete_frame (testBit_sub rfl hk) (.refl k s)
  case rtrn => exact execRtrn_frame (testBit_sub rfl hk) (.refl k s)
  case hold => exact execHold_frame (testBit_sub rfl hk) (.refl k s)
  case testEnable => exact execTestEnable_frame (testBit_sub rfl hk) (.refl k s)
  case clr => exact execClr_frame (testBit_sub rfl hk) (.refl k s)
  case inject => exact execInject_frame (testBit_sub rfl hk) (.refl k s)
  case injectComplete => exact execInjectComplete_frame (testBit_sub rfl hk) (.refl k s)
  case pipeLineStart => exact execPipeLineStart_frame (testBit_sub rfl hk) (.refl k s)
  case lineDecision => exact execLineDecision_frame (testBit_sub rfl hk) (.refl k s)
  case pixelUnit => exact execPixelUnit_frame (testBit_sub rfl hk) (.refl k s)
  case secondaryDataPacket => exact execSecondaryDataPacket_frame (testBit_sub rfl hk) (.refl k s)
  case auxRequest => exact execAuxRequest_frame (testBit_sub rfl hk) (.refl k s)
  case auxReply => exact execAuxReply_frame (testBit_sub rfl hk) (.refl k s)
  case hpdInterrupt => exact execHpdInterrupt_frame (testBit_sub rfl hk) (.refl k s)
  case streamAttributes => exact execStreamAttributes_frame (testBit_sub rfl hk) (.refl k s)
  case pipeFrameStart => exact execPipeFrameStart_frame (testBit_sub rfl hk) (.refl k s)
  case teEdge => exact execTeEdge_frame (testBit_sub rfl hk) (.refl k s)
  case teMiss => exact execTeMiss_frame (testBit_sub rfl hk) (.refl k s)
  case genlockEdge => exact execGenlockEdge_frame (testBit_sub rfl hk) (.refl k s)
  case fsbaseWrite => exact execFsbaseWrite_frame (testBit_sub rfl hk) (.refl k s)
  case tlp => exact execTlp_frame (testBit_sub rfl hk) (.refl k s)
  case usb3Packet => exact execUsb3Packet_frame (testBit_sub rfl hk) (.refl k s)
  case ethernetFrame => exact execEthernetFrame_frame (testBit_sub rfl hk) (.refl k s)
  case hpdChange => exact execHpdChange_frame (testBit_sub rfl hk) (.refl k s)
  case dpLinkTraining => exact execDpLinkTraining_frame (testBit_sub rfl hk) (.refl k s)
  case ejectPress => exact execEjectPress_frame (testBit_sub rfl hk) (.refl k s)
  case ejreq => exact execEjreq_frame (testBit_sub rfl hk) (.refl k s)
  case powerControllerOff => exact execPowerControllerOff_frame (testBit_sub rfl hk) (.refl k s)
  case powerControllerOn => exact execPowerControllerOn_frame (testBit_sub rfl hk) (.refl k s)
  case ejectLinkDisable => exact execEjectLinkDisable_frame (testBit_sub rfl hk) (.refl k s)
  case surpriseRemoval => exact execSurpriseRemoval_frame (testBit_sub rfl hk) (.refl k s)
  case ethmapWrite => exact execEthmapWrite_frame (testBit_sub rfl hk) (.refl k s)
  case maxfrmWrite => exact execMaxfrmWrite_frame (testBit_sub rfl hk) (.refl k s)
  case pfcenWrite => exact execPfcenWrite_frame (testBit_sub rfl hk) (.refl k s)
  case linkUp => exact execLinkUp_frame (testBit_sub rfl hk) (.refl k s)
  case linkDown => exact execLinkDown_frame (testBit_sub rfl hk) (.refl k s)
  case passOver => exact execPassOver_frame (testBit_sub rfl hk) (.refl k s)
  case upstreamChange => exact execUpstreamChange_frame (testBit_sub rfl hk) (.refl k s)
  case busReset => exact execBusReset_frame (testBit_sub rfl hk) (.refl k s)
  case portReset => exact execPortReset_frame (testBit_sub rfl hk) (.refl k s)
  case deviceConnect => exact execDeviceConnect_frame (testBit_sub rfl hk) (.refl k s)
  case overcurrent => exact execOvercurrent_frame (testBit_sub rfl hk) (.refl k s)
  case babble => exact execBabble_frame (testBit_sub rfl hk) (.refl k s)
  case globalSuspend => exact execGlobalSuspend_frame (testBit_sub rfl hk) (.refl k s)
  case remoteWake => exact execRemoteWake_frame (testBit_sub rfl hk) (.refl k s)
  case resumeEnd => exact execResumeEnd_frame (testBit_sub rfl hk) (.refl k s)
  case portSuspend => exact execPortSuspend_frame (testBit_sub rfl hk) (.refl k s)
  case portPower => exact execPortPower_frame (testBit_sub rfl hk) (.refl k s)
  case clearTtBuffer => exact execClearTtBuffer_frame (testBit_sub rfl hk) (.refl k s)
  case resetTt => exact execResetTt_frame (testBit_sub rfl hk) (.refl k s)
  case clearFeatureEndpointHalt => exact execClearFeatureEndpointHalt_frame (testBit_sub rfl hk) (.refl k s)
  case setConfiguration => exact execSetConfiguration_frame (testBit_sub rfl hk) (.refl k s)
  case setInterface => exact execSetInterface_frame (testBit_sub rfl hk) (.refl k s)
  case tbinciWrite => exact execTbinciWrite_frame (testBit_sub rfl hk) (.refl k s)
  case tbincfWrite => exact execTbincfWrite_frame (testBit_sub rfl hk) (.refl k s)
  case run => exact execRun_frame (testBit_sub rfl hk) (.refl k s)
  case tbldWrite => exact execTbldWrite_frame (testBit_sub rfl hk) (.refl k s)
  case wrap => exact execWrap_frame (testBit_sub rfl hk) (.refl k s)
  case take => exact execTake_frame (testBit_sub rfl hk) (.refl k s)
  case timeSend => exact execTimeSend_frame (testBit_sub rfl hk) (.refl k s)
  case timeSendReport => exact execTimeSendReport_frame (testBit_sub rfl hk) (.refl k s)
  case timeSendCorrection => exact execTimeSendCorrection_frame (testBit_sub rfl hk) (.refl k s)
  case compare => exact execCompare_frame (testBit_sub rfl hk) (.refl k s)
  case rasterCompare => exact execRasterCompare_frame (testBit_sub rfl hk) (.refl k s)
  case pulseEnd => exact execPulseEnd_frame (testBit_sub rfl hk) (.refl k s)
  case lvlclr => exact execLvlclr_frame (testBit_sub rfl hk) (.refl k s)
  case capture => exact execCapture_frame (testBit_sub rfl hk) (.refl k s)
  case faultReport => exact execFaultReport_frame (testBit_sub rfl hk) (.refl k s)
  case failover => exact execFailover_frame (testBit_sub rfl hk) (.refl k s)
  case progressWatchdog => exact execProgressWatchdog_frame (testBit_sub rfl hk) (.refl k s)
  case arbiterWatchdog => exact execArbiterWatchdog_frame (testBit_sub rfl hk) (.refl k s)
  case checkpoint => exact execCheckpoint_frame (testBit_sub rfl hk) (.refl k s)
  case checkpointComplete => exact execCheckpointComplete_frame (testBit_sub rfl hk) (.refl k s)
  case gfSelftest => exact execGfSelftest_frame (testBit_sub rfl hk) (.refl k s)
  case lockstepMismatch => exact execLockstepMismatch_frame (testBit_sub rfl hk) (.refl k s)
  case managementWatchdog => exact execManagementWatchdog_frame (testBit_sub rfl hk) (.refl k s)
  case mgmtRestartComplete => exact execMgmtRestartComplete_frame (testBit_sub rfl hk) (.refl k s)
  case fltinj => exact execFltinj_frame (testBit_sub rfl hk) (.refl k s)
  case por => exact execPor_frame (testBit_sub rfl hk) (.refl k s)
  case brownOut => exact execBrownOut_frame (testBit_sub rfl hk) (.refl k s)
  case resetN => exact execResetN_frame (testBit_sub rfl hk) (.refl k s)
  case warmN => exact execWarmN_frame (testBit_sub rfl hk) (.refl k s)
  case thermalTrip => exact execThermalTrip_frame (testBit_sub rfl hk) (.refl k s)
  case cold => exact execCold_frame (testBit_sub rfl hk) (.refl k s)
  case warm => exact execWarm_frame (testBit_sub rfl hk) (.refl k s)
  case prst => exact execPrst_frame (testBit_sub rfl hk) (.refl k s)
  case resetRelease => exact execResetRelease_frame (testBit_sub rfl hk) (.refl k s)
  case domainRelease => exact execDomainRelease_frame (testBit_sub rfl hk) (.refl k s)
  case fuseLoadAttempt => exact execFuseLoadAttempt_frame (testBit_sub rfl hk) (.refl k s)
  case powerGateOpen => exact execPowerGateOpen_frame (testBit_sub rfl hk) (.refl k s)
  case firmwareBoot => exact execFirmwareBoot_frame (testBit_sub rfl hk) (.refl k s)
  case lpddrTrainingComplete => exact execLpddrTrainingComplete_frame (testBit_sub rfl hk) (.refl k s)
  case corePg => exact execCorePg_frame (testBit_sub rfl hk) (.refl k s)
  case corePgTimeout => exact execCorePgTimeout_frame (testBit_sub rfl hk) (.refl k s)
  case psRequest => exact execPsRequest_frame (testBit_sub rfl hk) (.refl k s)
  case autoDrowse => exact execAutoDrowse_frame (testBit_sub rfl hk) (.refl k s)
  case participantAnswer => exact execParticipantAnswer_frame (testBit_sub rfl hk) (.refl k s)
  case deferExpiry => exact execDeferExpiry_frame (testBit_sub rfl hk) (.refl k s)
  case entryCommit => exact execEntryCommit_frame (testBit_sub rfl hk) (.refl k s)
  case aonArmed => exact execAonArmed_frame (testBit_sub rfl hk) (.refl k s)
  case wake => exact execWake_frame (testBit_sub rfl hk) (.refl k s)
  case returnStep => exact execReturnStep_frame (testBit_sub rfl hk) (.refl k s)
  case returnTimeout => exact execReturnTimeout_frame (testBit_sub rfl hk) (.refl k s)
  case button => exact execButton_frame (testBit_sub rfl hk) (.refl k s)
  case linkIdle => exact execLinkIdle_frame (testBit_sub rfl hk) (.refl k s)
  case ccAttach => exact execCcAttach_frame (testBit_sub rfl hk) (.refl k s)
  case ccDetach => exact execCcDetach_frame (testBit_sub rfl hk) (.refl k s)
  case vbusLoss => exact execVbusLoss_frame (testBit_sub rfl hk) (.refl k s)
  case drpToggle => exact execDrpToggle_frame (testBit_sub rfl hk) (.refl k s)
  case sourceCapabilities => exact execSourceCapabilities_frame (testBit_sub rfl hk) (.refl k s)
  case request => exact execRequest_frame (testBit_sub rfl hk) (.refl k s)
  case converterStep => exact execConverterStep_frame (testBit_sub rfl hk) (.refl k s)
  case psRdy => exact execPsRdy_frame (testBit_sub rfl hk) (.refl k s)
  case transitionLimit => exact execTransitionLimit_frame (testBit_sub rfl hk) (.refl k s)
  case hardReset => exact execHardReset_frame (testBit_sub rfl hk) (.refl k s)
  case hrst => exact execHrst_frame (testBit_sub rfl hk) (.refl k s)
  case errec => exact execErrec_frame (testBit_sub rfl hk) (.refl k s)
  case drSwap => exact execDrSwap_frame (testBit_sub rfl hk) (.refl k s)
  case prSwap => exact execPrSwap_frame (testBit_sub rfl hk) (.refl k s)
  case vconnSwap => exact execVconnSwap_frame (testBit_sub rfl hk) (.refl k s)
  case ppsCurrentLimit => exact execPpsCurrentLimit_frame (testBit_sub rfl hk) (.refl k s)
  case ppsTimeout => exact execPpsTimeout_frame (testBit_sub rfl hk) (.refl k s)
  case eprKeepaliveTimeout => exact execEprKeepaliveTimeout_frame (testBit_sub rfl hk) (.refl k s)
  case discoverSvids => exact execDiscoverSvids_frame (testBit_sub rfl hk) (.refl k s)
  case discoverModes => exact execDiscoverModes_frame (testBit_sub rfl hk) (.refl k s)
  case enterUsb => exact execEnterUsb_frame (testBit_sub rfl hk) (.refl k s)
  case powerGood => exact execPowerGood_frame (testBit_sub rfl hk) (.refl k s)
  case shortCircuit => exact execShortCircuit_frame (testBit_sub rfl hk) (.refl k s)
  case channelOvercurrent => exact execChannelOvercurrent_frame (testBit_sub rfl hk) (.refl k s)
  case faultTimer => exact execFaultTimer_frame (testBit_sub rfl hk) (.refl k s)
  case undervoltage => exact execUndervoltage_frame (testBit_sub rfl hk) (.refl k s)
  case reverseCurrent => exact execReverseCurrent_frame (testBit_sub rfl hk) (.refl k s)
  case retryBackoff => exact execRetryBackoff_frame (testBit_sub rfl hk) (.refl k s)
  case channelClr => exact execChannelClr_frame (testBit_sub rfl hk) (.refl k s)
  case feedQualified => exact execFeedQualified_frame (testBit_sub rfl hk) (.refl k s)
  case feedLoss => exact execFeedLoss_frame (testBit_sub rfl hk) (.refl k s)
  case deadTime => exact execDeadTime_frame (testBit_sub rfl hk) (.refl k s)
  case feedReturn => exact execFeedReturn_frame (testBit_sub rfl hk) (.refl k s)
  case pwrwarn => exact execPwrwarn_frame (testBit_sub rfl hk) (.refl k s)
  case feedPresence => exact execFeedPresence_frame (testBit_sub rfl hk) (.refl k s)
  case leaseRecompute => exact execLeaseRecompute_frame (testBit_sub rfl hk) (.refl k s)
  case leaseOverdraw => exact execLeaseOverdraw_frame (testBit_sub rfl hk) (.refl k s)
  case budgetWrite => exact execBudgetWrite_frame (testBit_sub rfl hk) (.refl k s)
  case load => exact execLoad_frame (testBit_sub rfl hk) (.refl k s)
  case keyWrite => exact execKeyWrite_frame (testBit_sub rfl hk) (.refl k s)
  case store => exact execStore_frame (testBit_sub rfl hk) (.refl k s)
  case storeComplete => exact execStoreComplete_frame (testBit_sub rfl hk) (.refl k s)
  case destroy => exact execDestroy_frame (testBit_sub rfl hk) (.refl k s)
  case attest => exact execAttest_frame (testBit_sub rfl hk) (.refl k s)
  case zeroise => exact execZeroise_frame (testBit_sub rfl hk) (.refl k s)
  case remask => exact execRemask_frame (testBit_sub rfl hk) (.refl k s)
  case tamperAlarm => exact execTamperAlarm_frame (testBit_sub rfl hk) (.refl k s)
  case thermalSample => exact execThermalSample_frame (testBit_sub rfl hk) (.refl k s)
  case lossOfAlignment => exact execLossOfAlignment_frame (testBit_sub rfl hk) (.refl k s)
  case delineationError => exact execDelineationError_frame (testBit_sub rfl hk) (.refl k s)
  case cellLosTimeout => exact execCellLosTimeout_frame (testBit_sub rfl hk) (.refl k s)
  case standardRecovery => exact execStandardRecovery_frame (testBit_sub rfl hk) (.refl k s)
  case checkerSync => exact execCheckerSync_frame (testBit_sub rfl hk) (.refl k s)
  case checkerError => exact execCheckerError_frame (testBit_sub rfl hk) (.refl k s)
  case portUpHold => exact execPortUpHold_frame (testBit_sub rfl hk) (.refl k s)
  case powerGoodHold => exact execPowerGoodHold_frame (testBit_sub rfl hk) (.refl k s)
  case refLock => exact execRefLock_frame (testBit_sub rfl hk) (.refl k s)
  case coreEnRetry => exact execCoreEnRetry_frame (testBit_sub rfl hk) (.refl k s)
  case ccTerminationChange => exact execCcTerminationChange_frame (testBit_sub rfl hk) (.refl k s)
  case vbusDischarged => exact execVbusDischarged_frame (testBit_sub rfl hk) (.refl k s)
  case errorRecoveryEnd => exact execErrorRecoveryEnd_frame (testBit_sub rfl hk) (.refl k s)
  case explicitContract => exact execExplicitContract_frame (testBit_sub rfl hk) (.refl k s)
  case clearfeaturePortSuspend => exact execClearfeaturePortSuspend_frame (testBit_sub rfl hk) (.refl k s)
  case globalSuspendEnd => exact execGlobalSuspendEnd_frame (testBit_sub rfl hk) (.refl k s)
  case routerReset => exact execRouterReset_frame (testBit_sub rfl hk) (.refl k s)
  case cascadeMgmtResponse => exact execCascadeMgmtResponse_frame (testBit_sub rfl hk) (.refl k s)
  case answerTimeout => exact execAnswerTimeout_frame (testBit_sub rfl hk) (.refl k s)
  case rampComplete => exact execRampComplete_frame (testBit_sub rfl hk) (.refl k s)
  case overcurrentEnd => exact execOvercurrentEnd_frame (testBit_sub rfl hk) (.refl k s)
  case ratingExcursion => exact execRatingExcursion_frame (testBit_sub rfl hk) (.refl k s)
  case avsDeviation => exact execAvsDeviation_frame (testBit_sub rfl hk) (.refl k s)

/-- Settles O60: `exec_answers` with `exec_frame`, whose masks are the rows of `touches`. -/
theorem everyCommandKeepsWhatItDoesNotTouch : Obligations.EveryCommandKeepsWhatItDoesNotTouch := by
  unfold Obligations.EveryCommandKeepsWhatItDoesNotTouch
  intro c s
  obtain ⟨t, ht⟩ := exec_answers c s
  exact ⟨t, ht, fun p hp => Part.same_of_frame (exec_frame c (testBit_partMask hp) t ht)⟩

/-! ### The step, and the canonical form -/

theorem step_cons {c : Instr} {q : List Instr} {s : State} (h : s.pending = c :: q) : step s = exec c (s.withPending q) := by
  simp only [step, h]

theorem step_nil {s : State} (h : s.pending = []) : step s = .next (tick s) := by simp only [step, h]

/-- Settles O1. -/
theorem stepRunsTheFrontCommand : Obligations.StepRunsTheFrontCommand := by
  unfold Obligations.StepRunsTheFrontCommand
  intro c q s h
  exact step_cons h

theorem canonical_tick {s : State} (h : Canonical s) : Canonical (tick s) := tick_frame (κ := 30) rfl (.refl 30 s) h

/-- No row of `touches` reaches component 30 of the frame lemmas, the canonical form. -/
theorem testBit_partMask_thirty (ps : List Part) : (partMask ps).testBit 30 = false := by
  induction ps with
  | nil => rfl
  | cons p ps ih =>
    have hne : p.ctorIdx ≠ 30 := by cases p <;> decide
    rw [partMask, Nat.testBit_or, ih, Nat.testBit_two_pow_of_ne hne, Bool.or_false]

theorem canonical_exec {c : Instr} {s t : State} (h : Canonical s) (ht : exec c s = .next t) : Canonical t :=
  exec_frame c (testBit_partMask_thirty _) t ht h

/-- Settles O4: a command keeps the canonical form by the frame lemmas, and so does a tick. -/
theorem stepsKeepTheCanonicalForm : Obligations.StepsKeepTheCanonicalForm := by
  unfold Obligations.StepsKeepTheCanonicalForm
  intro s t hc ht
  cases hq : s.pending with
  | nil =>
    rw [step_nil hq] at ht
    cases ht
    exact canonical_tick hc
  | cons c q =>
    rw [step_cons hq] at ht
    exact canonical_exec (s := s.withPending q) hc ht

/-! ### Reset -/

/-- Settles O3. -/
theorem resetIsCanonical : Obligations.ResetIsCanonical := by
  unfold Obligations.ResetIsCanonical Canonical
  refine ⟨by simp [State.reset], mwf_nil _, mwf_nil _, by simp [State.reset]⟩

theorem rd_reset (f : Fld) : State.reset.rd f = (if f.key = RST_CAUSE_POR.key then 1 else f.reset) % 2 ^ f.w := by
  simp only [State.rd, State.reset, mget, mfind]
  split <;> rfl

/-- Settles O5: the register map of the reset state lists RST_CAUSE.POR alone. -/
theorem resetValues : Obligations.ResetValues := by
  unfold Obligations.ResetValues
  refine ⟨fun f hf => ?_, rfl, rfl, rfl, rfl⟩
  rw [rd_reset, if_neg hf]

end Sys2Proof.Machine
end


section
set_option Elab.async false
/-! What an operation writes of the register map, where the fields are many or depend on the state: a predicate on keys, and the leaves
that stand. Then the operations that follow a port's loss: the attach event, the teardown of its tunnels, the port reset. -/

namespace Sys2Proof.Machine

open Sys2Proof Sys2Proof.Laws

/-! ### Fields by key, and leaves -/

/-- An EVSTAT register ends at offset 0xFF0 of its range. -/
abbrev leafKey (k : Nat) : Prop := k % 32768 = 32640

theorem leafKey_evstat (u : Nat) : leafKey (EVSTAT u).key := by
  have hbase : evBase u % 4096 = 0 := by
    unfold evBase
    split
    · omega
    · split
      · omega
      · split
        · omega
        · split <;> rfl
  simp only [leafKey, EVSTAT, fld]
  omega

/-- Only fields whose key lies in `K` change, and every leaf that stands keeps standing. -/
def onlyKeys (K : Nat → Prop) (s t : State) : Prop :=
  (∀ f : Fld, ¬ K f.key → t.rd f = s.rd f) ∧ ∀ u b, leafSet s u b → leafSet t u b

theorem onlyKeys.refl (K : Nat → Prop) (s : State) : onlyKeys K s s := ⟨fun _ _ => rfl, fun _ _ => id⟩

theorem onlyKeys.trans {K : Nat → Prop} {s t u : State} (h : onlyKeys K s t) (g : onlyKeys K t u) : onlyKeys K s u :=
  ⟨fun f hf => (g.1 f hf).trans (h.1 f hf), fun u b hl => g.2 u b (h.2 u b hl)⟩

theorem onlyKeys.mono {K L : Nat → Prop} {s t : State} (h : onlyKeys K s t) (hKL : ∀ k, K k → L k) : onlyKeys L s t :=
  ⟨fun f hf => h.1 f fun hk => hf (hKL _ hk), h.2⟩

/-- An update of the state that leaves the registers. -/
theorem onlyKeys.of_regs {K : Nat → Prop} {s t u : State} (h : onlyKeys K s t) (hr : u.regs = t.regs) : onlyKeys K s u := by
  have hrd (f : Fld) : u.rd f = t.rd f := by simp only [State.rd, hr]
  exact ⟨fun f hf => (hrd f).trans (h.1 f hf), fun v b hl => by simpa only [leafSet, hrd] using h.2 v b hl⟩

theorem onlyKeys.emit {K : Nat → Prop} {s t : State} {o : Out} (h : onlyKeys K s t) : onlyKeys K s (t.emit o) := h.of_regs rfl
theorem onlyKeys.setPs {K : Nat → Prop} {s t : State} {x : PsReq} (h : onlyKeys K s t) : onlyKeys K s (t.setPs x) := h.of_regs rfl
theorem onlyKeys.setEg {K : Nat → Prop} {s t : State} {p : Nat} {x : Egress} (h : onlyKeys K s t) : onlyKeys K s (t.setEg p x) := h.of_regs rfl
theorem onlyKeys.setCan {K : Nat → Prop} {s t : State} {p : Nat} {x : Can} (h : onlyKeys K s t) : onlyKeys K s (t.setCan p x) := h.of_regs rfl
theorem onlyKeys.setAdp {K : Nat → Prop} {s t : State} {p : Nat} {x : Adapter} (h : onlyKeys K s t) : onlyKeys K s (t.setAdp p x) :=
  h.of_regs rfl
theorem onlyKeys.setLane {K : Nat → Prop} {s t : State} {c : Nat} {x : Lane} (h : onlyKeys K s t) : onlyKeys K s (t.setLane c x) :=
  h.of_regs rfl

theorem onlyKeys.wr {K : Nat → Prop} {s t : State} {f : Fld} {v : Nat} (h : onlyKeys K s t) (hK : K f.key) (hl : ¬ leafKey f.key) :
    onlyKeys K s (t.wr f v) := by
  refine ⟨fun g hg => ?_, fun u b hs => ?_⟩
  · rw [State.rd_wr_ne t f g v fun e => hg (e ▸ hK), h.1 g hg]
  · rw [leafSet, State.rd_wr_ne _ _ _ _ fun e => hl (e ▸ leafKey_evstat u)]
    exact h.2 u b hs

theorem onlyKeys.wrs {K : Nat → Prop} {s t : State} {l : List (Fld × Nat)} (h : onlyKeys K s t)
    (hl : ∀ e ∈ l, K e.1.key ∧ ¬ leafKey e.1.key) : onlyKeys K s (t.wrs l) := by
  induction l generalizing t with
  | nil => exact h
  | cons e l ih => exact ih (h.wr (hl e (by simp)).1 (hl e (by simp)).2) fun x hx => hl x (by simp [hx])

theorem onlyKeys.forAll {K : Nat → Prop} {α : Type} {s t : State} {l : List α} {f : α → State → State} (h : onlyKeys K s t)
    (hf : ∀ x ∈ l, ∀ u, onlyKeys K u (f x u)) : onlyKeys K s (forAll l f t) := by
  unfold Machine.forAll
  induction l generalizing t with
  | nil => exact h
  | cons x l ih => exact ih (h.trans (hf x (by simp) t)) fun y hy => hf y (by simp [hy])

theorem onlyKeys.ite {K : Nat → Prop} {s t u : State} {c : Prop} [Decidable c] (h : onlyKeys K s t) (g : onlyKeys K s u) :
    onlyKeys K s (if c then t else u) := by
  split <;> assumption

/-- Setting a clear bit leaves the bits that stand. -/
theorem testBit_add_two_pow {x b c : Nat} (hb : x.testBit b = false) (hc : x.testBit c = true) : (x + 2 ^ b).testBit c = true := by
  induction b generalizing x c with
  | zero =>
    cases c with
    | zero => simp_all
    | succ c =>
      have hodd : x % 2 = 0 := by simpa using hb
      rw [Nat.testBit_succ] at hc ⊢
      rwa [show (x + 2 ^ 0) / 2 = x / 2 by omega]
  | succ b ih =>
    cases c with
    | zero =>
      simp only [Nat.testBit_zero, decide_eq_true_eq] at hc ⊢
      omega
    | succ c =>
      rw [Nat.testBit_succ] at hb hc ⊢
      rw [show (x + 2 ^ (b + 1)) / 2 = x / 2 + 2 ^ b by omega]
      exact ih hb hc

/-- A leaf that stands keeps standing when another rises. -/
theorem leafSet_raise_of_leafSet {u b v c : Nat} {s : State} (h : leafSet s v c) : leafSet (raise u b s) v c := by
  by_cases hkey : (EVSTAT v).key = (EVSTAT u).key
  · have hread (t : State) : t.rd (EVSTAT v) = t.rd (EVSTAT u) := by
      simp only [State.rd, hkey]
      rfl
    rw [leafSet, hread, bit_eq_testBit] at h ⊢
    have hadd : bit (s.rd (EVSTAT u)) b ≠ true → ((s.rd (EVSTAT u) + 2 ^ b) % 2 ^ 32).testBit c = true := by
      intro hb
      have hlt := State.rd_lt s (EVSTAT u)
      rw [show (EVSTAT u).w = 32 from rfl] at hlt
      have hc : c < 32 := by
        by_contra hge
        rw [Nat.testBit_lt_two_pow (hlt.trans_le (Nat.pow_le_pow_right (by decide) (by omega)))] at h
        cases h
      rw [bit_eq_testBit] at hb
      rw [Nat.testBit_mod_two_pow, testBit_add_two_pow (by simpa using hb) h]
      simp [hc]
    simp only [raise]
    split
    · exact h
    · next hb =>
      split <;> simpa [show (EVSTAT u).w = 32 from rfl] using hadd hb
  · rw [leafSet, rd_raise_ne _ _ _ _ hkey]
    exact h

theorem onlyKeys.raise {K : Nat → Prop} {s t : State} {u b : Nat} (h : onlyKeys K s t) (hK : K (EVSTAT u).key) :
    onlyKeys K s (raise u b t) :=
  ⟨fun f hf => (rd_raise_ne _ _ _ _ fun e => hf (e ▸ hK)).trans (h.1 f hf), fun v c hs => leafSet_raise_of_leafSet (h.2 v c hs)⟩

end Sys2Proof.Machine
end


section
set_option Elab.async false
/-! The attach and detach event (R22, R117, R436) and the port-down (R119, R167, R417): what they write, and what they leave of the
attached partners, the adapters and the links. -/

namespace Sys2Proof.Machine

open Sys2Proof Sys2Proof.Laws

/-! ### The attach and detach event -/

/-- The fields that an attach or detach event can write: the power state's, the solver's, the settle timer's, and the states and
generations that a cancelled solve had changed. -/
def attachKeys (k : Nat) : Prop :=
  k ∈ [PST_PSSTAT_STATE.key, PST_PSCTL_GO.key, (EVSTAT 16).key, PST_SOLVE_BUSY.key, PST_SOLVE_ARMED.key, PST_SOLVE_CANCEL.key,
    FAB_STATUS_MAPPEND.key, SYS_SETTLE_PEND.key, SYS_SETTLE_RUN.key, SYS_GUARD_SETTLED.key] ∨
  (∃ d, k = (PIPE_CTL_FHOLD d).key) ∨ ∃ n, k = (TT_STATE_STATE n).key ∨ k = (TT_STATE_GEN n).key

/-- What the settling of the attached set can write. -/
def settleKeys (k : Nat) : Prop :=
  k ∈ [(EVSTAT 16).key, PST_SOLVE_BUSY.key, PST_SOLVE_ARMED.key, PST_SOLVE_CANCEL.key, FAB_STATUS_MAPPEND.key, SYS_SETTLE_PEND.key, SYS_SETTLE_RUN.key,
    SYS_GUARD_SETTLED.key] ∨ ∃ n, k = (TT_STATE_STATE n).key ∨ k = (TT_STATE_GEN n).key

theorem attachKeys_of_settleKeys {k : Nat} (h : settleKeys k) : attachKeys k := by
  rcases h with h | h
  · exact .inl (by simp only [List.mem_cons, List.not_mem_nil, or_false] at h ⊢; tauto)
  · exact .inr (.inr h)

theorem not_leafKey_fhold (d : Nat) : ¬ leafKey (PIPE_CTL_FHOLD d).key := by
  simp only [leafKey, PIPE_CTL_FHOLD, fld]
  omega

theorem not_leafKey_ttState (n : Nat) : ¬ leafKey (TT_STATE_STATE n).key ∧ ¬ leafKey (TT_STATE_GEN n).key := by
  simp only [leafKey, TT_STATE_STATE, TT_STATE_GEN, fld]
  omega

theorem onlyKeys_showIndicator (K : Nat → Prop) (s : State) : onlyKeys K s (showIndicator s) := by
  unfold showIndicator
  split
  · exact (onlyKeys.refl K s).of_regs rfl
  · exact .refl K s

theorem onlyKeys_leaveDoze (s : State) : onlyKeys attachKeys s (leaveDoze s) := by
  unfold leaveDoze
  dsimp only
  refine .setPs (.forAll (.forAll (.refl _ _) fun d _ u => ?_) fun p _ u => (onlyKeys.refl _ u).of_regs rfl)
  refine onlyKeys.of_regs (t := if u.on (PIPE_ROUTE_VALID d) then u.wr (PIPE_CTL_FHOLD d) 0 else u) (.ite (.wr (.refl _ _) ?_ ?_) (.refl _ _)) rfl
  · exact .inr (.inl ⟨d, rfl⟩)
  · exact not_leafKey_fhold d

theorem onlyKeys_toActive (s : State) : onlyKeys attachKeys s (toActive s) := by
  unfold toActive
  refine .ite (.refl _ _) ?_
  have h : onlyKeys attachKeys s (showIndicator (raise 16 0 (s.wrs [(PST_PSSTAT_STATE, 0), (PST_PSCTL_GO, 0)]))) := by
    refine .trans (.raise (.wrs (.refl _ _) ?_) ?_) (onlyKeys_showIndicator _ _)
    · simp only [List.forall_mem_cons]
      exact ⟨⟨.inl (by simp), by decide⟩, ⟨.inl (by simp), by decide⟩, by simp⟩
    · exact .inl (by simp)
  exact .ite (h.trans (onlyKeys_leaveDoze _)) h

theorem onlyKeys_attachWakes (s : State) : onlyKeys attachKeys s (attachWakes s) := by
  unfold attachWakes
  exact .ite (onlyKeys_toActive s) (.refl _ _)

theorem onlyKeys_settleTie_settle (s : State) : onlyKeys settleKeys s (settleTie s) := by
  unfold settleTie
  refine .ite ((onlyKeys.refl _ s).of_regs rfl) (.ite (.of_regs (t := s.wr PST_SOLVE_BUSY 0) (.wr (.refl _ _) ?_ ?_) rfl) (.refl _ _))
  · exact .inl (by simp)
  · decide

theorem onlyKeys_settleTie (s : State) : onlyKeys attachKeys s (settleTie s) := (onlyKeys_settleTie_settle s).mono fun _ => attachKeys_of_settleKeys

theorem onlyKeys_cancelSolve_settle (s : State) : onlyKeys settleKeys s (cancelSolve s) := by
  unfold cancelSolve
  refine .ite (.refl _ _) (.raise (.wrs (.of_regs (t := match s.sv.commit with | none => s | some c => _) ?_ rfl) ?_) (.inl (by simp)))
  · split
    · exact .refl _ _
    · refine onlyKeys.of_regs (.forAll (.refl _ _) fun e _ u => .ite (.wr (.wr (.refl _ _) ?_ ?_) ?_ ?_) (.refl _ _)) rfl
      · exact .inr ⟨e.1, .inl rfl⟩
      · exact (not_leafKey_ttState e.1).1
      · exact .inr ⟨e.1, .inr rfl⟩
      · exact (not_leafKey_ttState e.1).2
  · simp only [List.forall_mem_cons]
    exact ⟨⟨.inl (by simp), by decide⟩, ⟨.inl (by simp), by decide⟩, ⟨.inl (by simp), by decide⟩, ⟨.inl (by simp), by decide⟩, by simp⟩

theorem onlyKeys_cancelSolve (s : State) : onlyKeys attachKeys s (cancelSolve s) := (onlyKeys_cancelSolve_settle s).mono fun _ => attachKeys_of_settleKeys

theorem onlyKeys_startSettle_settle (s : State) : onlyKeys settleKeys s (startSettle s) := by
  unfold startSettle
  refine onlyKeys.of_regs (t := s.wrs _) (.wrs (.refl _ _) ?_) rfl
  simp only [List.forall_mem_cons]
  exact ⟨⟨.inl (by simp), by decide⟩, ⟨.inl (by simp), by decide⟩, ⟨.inl (by simp), by decide⟩, by simp⟩

theorem onlyKeys_startSettle (s : State) : onlyKeys attachKeys s (startSettle s) := (onlyKeys_startSettle_settle s).mono fun _ => attachKeys_of_settleKeys

theorem onlyKeys_attachEvent (s : State) : onlyKeys attachKeys s (attachEvent s) := by
  unfold attachEvent
  exact .ite ((onlyKeys_attachWakes s).trans ((onlyKeys_settleTie _).trans ((onlyKeys_cancelSolve _).trans (onlyKeys_startSettle _))))
    (onlyKeys_attachWakes s)

end Sys2Proof.Machine
end


section
set_option Elab.async false
/-! The port-down (R119, R167, R417): what it writes, and what it leaves of the attached partners, the links and the adapters. -/

namespace Sys2Proof.Machine

open Sys2Proof Sys2Proof.Laws

/-! ### What an attach or detach event leaves alone -/

@[simp] theorem att_attachEvent (s : State) : (attachEvent s).sv.att = s.sv.att := by
  have hwake : (attachWakes s).sv = s.sv := attachWakes_frame (κ := 9) rfl (.refl 9 s)
  have htie (t : State) : (settleTie t).sv.att = t.sv.att := by
    unfold settleTie
    split
    · rfl
    · split <;> rfl
  have hcancel (t : State) : (cancelSolve t).sv.att = t.sv.att := by
    unfold cancelSolve
    split
    · rfl
    · have hraise (u b : Nat) (v : State) : (raise u b v).sv = v.sv := raise_frame (κ := 9) rfl (.refl 9 v)
      have hwrs (v : State) (l : List (Fld × Nat)) : (v.wrs l).sv = v.sv := wrs_frame (k := 9) rfl (.refl 9 v)
      simp only [hraise, hwrs]
      split
      · rfl
      · next c _ =>
        have hall (v : State) : (forAll c.prev (fun e st =>
            if st.rd (TT_STATE_STATE e.1) = stADMIT ∨ st.rd (TT_STATE_STATE e.1) = stREFUSED then
              (st.wr (TT_STATE_STATE e.1) e.2.1).wr (TT_STATE_GEN e.1) e.2.2 else st) v).sv = v.sv := by
          refine forAll_frame (k := 9) (fun e u h => Frame.ite ?_ h) (.refl 9 v)
          exact State_wr_frame rfl (State_wr_frame rfl h)
        change (forAll c.prev _ t).sv.att = _
        rw [hall]
  unfold attachEvent
  dsimp only
  split
  · simp only [startSettle, State.wrs_cons, State.wrs_nil, State.wr_rest, hcancel, htie, hwake]
  · rw [hwake]

@[simp] theorem cn_attachEvent (s : State) : (attachEvent s).cn = s.cn := attachEvent_frame (κ := 13) rfl (.refl 13 s)
@[simp] theorem lc_attachEvent (s : State) : (attachEvent s).lc = s.lc := attachEvent_frame (κ := 14) rfl (.refl 14 s)
@[simp] theorem ad_attachEvent (s : State) : (attachEvent s).ad = s.ad := attachEvent_frame (κ := 15) rfl (.refl 15 s)
@[simp] theorem ld_attachEvent (s : State) : (attachEvent s).ld = s.ld := attachEvent_frame (κ := 8) rfl (.refl 8 s)
@[simp] theorem clock_attachEvent (s : State) : (attachEvent s).clock = s.clock := attachEvent_frame (κ := 2) rfl (.refl 2 s)

/-! ### The port-down -/

/-- The fields of port reach that every port has. -/
def portReach (p : Nat) : List Fld := [
  GRV_FLOW_STALL p, GRV_FLOW_HEAD p, GRV_FLOW_ICL p, GRV_FLST_EGHELD p, GRV_FLST_INHELD p, GRV_FLST_TIMER p, GRV_CALST_BT p,
  ADP_STAT_STATE p, ADP_STAT_PERS p, ADP_STAT_RATE p, ADP_STAT_WIDTH p, ADP_STAT_SPEED p, ADP_PCIE_EJREQ p, ADP_PCIE_PRESENT p,
  ADP_PCIE_DLLACT p, ADP_PCIE_PIND p, ADP_DP_SINKDSC p]

/-- The fields of port reach that a port of a Canopy link has beside the words of its partner's CAPS and of its transcript. -/
def canReach (p : Nat) : List Fld := [
  CAN_CTL_RETRAIN p, CAN_STAT_STATE p, CAN_STAT_MODE p, CAN_STAT_ROLE p, CAN_STAT_PKIND p, CAN_STAT_TXEP p, CAN_STAT_RXEP p,
  CAN_ERR_UNCORR p, CAN_ERR_RNAKTX p, CAN_ERR_RNAKRX p, CAN_ERR_CSLOT p, CAN_ERR2_EARLY p, TIM_LNKOFF_OFF p, TIM_LNKDLY_DLY p,
  TIM_LNK_SEQ p, TIM_LNK_MISSED p, TIM_LNK_EXCH p]

/-- The fields of port reach of a lane cell. -/
def cellReach (c : Nat) : List Fld := [
  LC_CTL_RTRN c, LC_STAT_STATE c, LC_STAT_RATE c, LC_STAT_ORIENT c, LC_STAT_LOCKA c, LC_STAT_LOCKB c, LC_STAT_INVA c, LC_STAT_INVB c,
  LC_STAT_RANKA c, LC_STAT_RANKB c, LC_RTR_CONSEC c, LC_FECA_CORR c, LC_FECA_UNCORR c, LC_FECB_CORR c, LC_FECB_UNCORR c, LC_HOLD_USED c,
  LC_HOLD_PEAK c]

/-- The fields that a port-down can write, with the port's cells: the tunnel table's and the paths' windows, the fields of port reach,
the causes and the port's leaves (R119, R167, R424). -/
def portDownKeys (p : Nat) (cs : List Nat) (k : Nat) : Prop :=
  0x2000000 ≤ k ∨ (∃ f ∈ portReach p, k = f.key) ∨
    (p < 8 ∧ ((∃ f ∈ canReach p, k = f.key) ∨ (∃ j < 3, k = (CAN_PEER_V p j).key) ∨ ∃ j < 12, k = (CAN_THASH_V p j).key)) ∨
    (∃ c ∈ cs, ∃ f ∈ cellReach c, k = f.key) ∨ k = RST_PRTRC_PORTS.key ∨ k = RST_CAUSE_PORT.key ∨ k = (EVSTAT (portGrove p)).key

/-- The fields that a port reset restores, by name. -/
theorem mem_portFields {p : Nat} {cs : List Nat} {f : Fld} (h : f ∈ portFields p cs) : f ∈ portReach p ∨
    (p < 8 ∧ (f ∈ canReach p ∨ (∃ j < 3, f = CAN_PEER_V p j) ∨ ∃ j < 12, f = CAN_THASH_V p j)) ∨ ∃ c ∈ cs, f ∈ cellReach c := by
  obtain ⟨hf, hreach⟩ := List.mem_filter.1 h
  have hin {l m : List Fld} (hl : f ∈ l) (hm : l.filter (fun f => decide (f.reach = .P)) = m) : f ∈ m :=
    hm ▸ List.mem_filter.2 ⟨hl, hreach⟩
  rcases List.mem_append.1 hf with hf | hcell
  · rcases List.mem_append.1 hf with hport | hcan
    · exact .inl (hin hport rfl)
    · right; left
      split at hcan
      · next hp =>
        refine ⟨hp, ?_⟩
        simp only [List.append_assoc, List.mem_append, List.mem_flatMap, List.mem_range] at hcan
        have hcanReach (h : f ∈ regFields .CAN_CTL p 0 ++ regFields .CAN_STAT p 0 ++ regFields .CAN_ERR p 0 ++ regFields .CAN_ERR2 p 0 ++
            regFields .TIM_LNKOFF p 0 ++ regFields .TIM_LNKDLY p 0 ++ regFields .TIM_LNK p 0) : f ∈ canReach p := hin h rfl
        simp only [List.mem_append] at hcanReach
        rcases hcan with h | h | h | h | ⟨j, hj, h⟩ | ⟨j, hj, h⟩ | h | h | h
        case inr.inr.inr.inr.inl => exact .inr (.inl ⟨j, hj, List.mem_singleton.1 h⟩)
        case inr.inr.inr.inr.inr.inl => exact .inr (.inr ⟨j, hj, List.mem_singleton.1 h⟩)
        all_goals exact .inl (hcanReach (by simp only [h, true_or, or_true]))
      · simp at hcan
  · obtain ⟨c, hc, hfc⟩ := List.mem_flatMap.1 hcell
    exact .inr (.inr ⟨c, hc, hin hfc rfl⟩)

theorem onlyKeys_restore {K : Nat → Prop} {fs : List Fld} (s : State) (h : ∀ f ∈ fs, K f.key ∧ ¬ leafKey f.key) :
    onlyKeys K s (restore fs s) := by
  unfold restore
  exact .forAll (.refl _ _) fun f hf u => .wr (.refl _ _) (h f hf).1 (h f hf).2

theorem onlyKeys_applyTemplate {K : Nat → Prop} (hK : ∀ k, 0x2000000 ≤ k → K k) (n : Nat) (s : State) :
    onlyKeys K s (applyTemplate n s) := by
  unfold applyTemplate
  split
  · exact .refl _ _
  · refine .wrs (.refl _ _) ?_
    simp only [List.forall_mem_cons, leafKey, TT_LIMIT_CEIL, TT_LIMIT_FLOOR, TT_SHAPE_BURST, TT_METER_CAWARE, TT_METER_PIR, TT_METER_CIR,
      TT_CBS_CBS, TT_PBS_PBS, fld]
    refine ⟨⟨hK _ ?_, ?_⟩, ⟨hK _ ?_, ?_⟩, ⟨hK _ ?_, ?_⟩, ⟨hK _ ?_, ?_⟩, ⟨hK _ ?_, ?_⟩, ⟨hK _ ?_, ?_⟩, ⟨hK _ ?_, ?_⟩, ⟨hK _ ?_, ?_⟩, by simp⟩ <;>
      omega

theorem onlyKeys_teardown {K : Nat → Prop} (hK : ∀ k, 0x2000000 ≤ k → K k) (n c : Nat) (s : State) : onlyKeys K s (teardown n c s) := by
  unfold teardown
  refine .forAll (.refl _ _) fun m _ u => .ite (.trans (.wr (.wr (.refl _ _) (hK _ ?_) ?_) (hK _ ?_) ?_) (onlyKeys_applyTemplate hK m _)) (.refl _ _)
  all_goals
    simp only [leafKey, TT_STATE_STATE, TT_STATE_CAUSE, fld]
    omega

theorem onlyKeys_dropTunnels {K : Nat → Prop} (hK : ∀ k, 0x2000000 ≤ k → K k) (p c : Nat) (s : State) :
    onlyKeys K s (dropTunnels p c s) := by
  unfold dropTunnels
  exact .forAll (.refl _ _) fun n _ u => onlyKeys_teardown hK n c u

theorem portDownKeys_of_mem {p : Nat} {cs : List Nat} {f : Fld} (h : f ∈ portFields p cs) : portDownKeys p cs f.key := by
  rcases mem_portFields h with h | ⟨hp, h | ⟨j, hj, rfl⟩ | ⟨j, hj, rfl⟩⟩ | ⟨c, hc, h⟩
  · exact .inr (.inl ⟨f, h, rfl⟩)
  · exact .inr (.inr (.inl ⟨hp, .inl ⟨f, h, rfl⟩⟩))
  · exact .inr (.inr (.inl ⟨hp, .inr (.inl ⟨j, hj, rfl⟩)⟩))
  · exact .inr (.inr (.inl ⟨hp, .inr (.inr ⟨j, hj, rfl⟩)⟩))
  · exact .inr (.inr (.inr (.inl ⟨c, hc, f, h, rfl⟩)))

theorem portPlace_lt (p : Nat) : portPlace p < 4 := by
  unfold portPlace
  split <;> decide

theorem portGrove_lt (p : Nat) : portGrove p < 9 := by
  unfold portGrove
  split <;> decide

theorem not_leafKey_portReach (p : Nat) : ∀ f ∈ portReach p, ¬ leafKey f.key := by
  have hplace := portPlace_lt p
  simp only [portReach, List.forall_mem_cons, List.not_mem_nil, false_implies, implies_true, and_true, leafKey, GRV_FLOW_STALL, GRV_FLOW_HEAD, GRV_FLOW_ICL, GRV_FLST_EGHELD, GRV_FLST_INHELD,
    GRV_FLST_TIMER, GRV_CALST_BT, ADP_STAT_STATE, ADP_STAT_PERS, ADP_STAT_RATE, ADP_STAT_WIDTH, ADP_STAT_SPEED, ADP_PCIE_EJREQ,
    ADP_PCIE_PRESENT, ADP_PCIE_DLLACT, ADP_PCIE_PIND, ADP_DP_SINKDSC, fld, portReg]
  omega

theorem not_leafKey_canReach {p : Nat} (hp : p < 8) : ∀ f ∈ canReach p, ¬ leafKey f.key := by
  have hplace := portPlace_lt p
  simp only [canReach, List.forall_mem_cons, List.not_mem_nil, false_implies, implies_true, and_true, leafKey, CAN_CTL_RETRAIN, CAN_STAT_STATE, CAN_STAT_MODE, CAN_STAT_ROLE, CAN_STAT_PKIND,
    CAN_STAT_TXEP, CAN_STAT_RXEP, CAN_ERR_UNCORR, CAN_ERR_RNAKTX, CAN_ERR_RNAKRX, CAN_ERR_CSLOT, CAN_ERR2_EARLY, TIM_LNKOFF_OFF,
    TIM_LNKDLY_DLY, TIM_LNK_SEQ, TIM_LNK_MISSED, TIM_LNK_EXCH, fld, portReg]
  omega

theorem not_leafKey_cellReach (c : Nat) : ∀ f ∈ cellReach c, ¬ leafKey f.key := by
  simp only [cellReach, List.forall_mem_cons, List.not_mem_nil, false_implies, implies_true, and_true, leafKey, LC_CTL_RTRN, LC_STAT_STATE, LC_STAT_RATE, LC_STAT_ORIENT, LC_STAT_LOCKA,
    LC_STAT_LOCKB, LC_STAT_INVA, LC_STAT_INVB, LC_STAT_RANKA, LC_STAT_RANKB, LC_RTR_CONSEC, LC_FECA_CORR, LC_FECA_UNCORR, LC_FECB_CORR,
    LC_FECB_UNCORR, LC_HOLD_USED, LC_HOLD_PEAK, fld]
  omega

theorem not_leafKey_of_mem_portFields {p : Nat} {cs : List Nat} {f : Fld} (h : f ∈ portFields p cs) : ¬ leafKey f.key := by
  have hplace := portPlace_lt p
  rcases mem_portFields h with h | ⟨hp, h | ⟨j, hj, rfl⟩ | ⟨j, hj, rfl⟩⟩ | ⟨c, -, h⟩
  · exact not_leafKey_portReach p f h
  · exact not_leafKey_canReach hp f h
  · simp only [leafKey, CAN_PEER_V, fld, portReg]
    omega
  · simp only [leafKey, CAN_THASH_V, fld, portReg]
    omega
  · exact not_leafKey_cellReach c f h

theorem onlyKeys_restore_portFields (p : Nat) (cs : List Nat) (s : State) :
    onlyKeys (portDownKeys p cs) s (restore (portFields p cs) s) :=
  onlyKeys_restore s fun _ hf => ⟨portDownKeys_of_mem hf, not_leafKey_of_mem_portFields hf⟩

theorem portDownKeys_tt {p : Nat} {cs : List Nat} {k : Nat} (h : 0x2000000 ≤ k) : portDownKeys p cs k := .inl h

theorem portDownKeys_lcState {p : Nat} {cs : List Nat} {c : Nat} (h : c ∈ cs) : portDownKeys p cs (LC_STAT_STATE c).key :=
  .inr (.inr (.inr (.inl ⟨c, h, LC_STAT_STATE c, by simp [cellReach], rfl⟩)))

theorem onlyKeys_restore_tunPortFields (p : Nat) (cs : List Nat) (n : Nat) (s : State) :
    onlyKeys (portDownKeys p cs) s (restore (tunPortFields n) s) := by
  refine onlyKeys_restore s ?_
  simp only [tunPortFields, List.forall_mem_cons]
  refine ⟨⟨.inl ?_, ?_⟩, ⟨.inl ?_, ?_⟩, ⟨.inl ?_, ?_⟩, ⟨.inl ?_, ?_⟩, ⟨.inl ?_, ?_⟩, ⟨.inl ?_, ?_⟩, ⟨.inl ?_, ?_⟩, by simp⟩
  all_goals
    simp only [leafKey, TT_STATE_MODE, TT_ALLOT_ACT, TT_ALLOT_NEXT, TT_SEQ_INSEQ, TT_SEQ_OUTSEQ, TT_SEGIN_COUNT, TT_SEGOUT_COUNT, fld]
    omega

theorem onlyKeys_portReset (p : Nat) (s : State) : onlyKeys (portDownKeys p (groupCells s p)) s (portReset p s) := by
  unfold portReset
  dsimp only
  refine .wr (.wr (.forAll (.ite (.wr (.setAdp (.setCan (.setEg (.forAll (onlyKeys_restore_portFields _ _ _) fun n _ u => ?_)))) ?_ ?_) (.setAdp (.setCan (.setEg (.forAll (onlyKeys_restore_portFields _ _ _) fun n _ u => ?_))))) fun c hc u => ?_) ?_ ?_) ?_ ?_
  · exact onlyKeys_restore_tunPortFields p _ n u
  · exact .inr (.inl ⟨ADP_STAT_STATE p, by simp [portReach], rfl⟩)
  · exact not_leafKey_portReach p _ (by simp [portReach])
  · exact onlyKeys_restore_tunPortFields p _ n u
  · have hwr (v : Nat) (t : State) : onlyKeys (portDownKeys p (groupCells s p)) t (t.wr (LC_STAT_STATE c) v) :=
      .wr (.refl _ _) (portDownKeys_lcState hc) (not_leafKey_cellReach c _ (by simp [cellReach]))
    exact .ite ((onlyKeys.refl _ u).setLane.trans (hwr _ _)) (.ite ((onlyKeys.refl _ u).setLane.trans (hwr _ _)) (.setLane (.refl _ _)))
  · exact .inr (.inr (.inr (.inr (.inl rfl))))
  · decide
  · exact .inr (.inr (.inr (.inr (.inr (.inl rfl)))))
  · decide

theorem groupCells_of_ld {s t : State} (h : t.ld = s.ld) (p : Nat) : groupCells t p = groupCells s p := by
  simp only [groupCells, portRecord, h]

/-- The attached partners without a port's. -/
def State.dropAtt (s : State) (p : Nat) : State := { s with sv := { s.sv with att := mdel s.sv.att p } }

/-- The leaves of a link that was active, or of an adapter that was up, in `s`. -/
def lossLeaves (p : Nat) (s t : State) : State :=
  let u := if p < 8 && canActive s p then raise (portGrove p) 12 t else t
  if s.rd (ADP_STAT_STATE p) = 2 then raise (portGrove p) 18 u else u

/-- The management paths without what a crown port's path held (R82, R91). -/
def quietMgmt (p : Nat) (m : Mgmt) : Mgmt :=
  let quiet (op : FlashOp) : FlashOp := if op.reply.any (fun r => r.1.val = p) then { op with reply := none } else op
  { m with bursts := mdel m.bursts (2 + p), held := mdel m.held p, flashOp := m.flashOp.map quiet }

/-- A crown port's path goes quiet: its window is free, what it held is dropped, and so is a due report. -/
def quietPath (p : Nat) (u : State) : State :=
  tunReportDrop p ((u.wr (SYS_DWCTL_BUSY (2 + p)) 0).setMgmt (quietMgmt p u.mg))

theorem portDown_eq (p c : Nat) (s : State) : portDown p c s =
    if p < 2 then quietPath p (lossLeaves p s ((portReset p (dropTunnels p c s)).dropAtt p))
    else lossLeaves p s ((portReset p (dropTunnels p c s)).dropAtt p) := rfl

theorem onlyKeys_lossLeaves {K : Nat → Prop} {p : Nat} (hK : K (EVSTAT (portGrove p)).key) (s t : State) :
    onlyKeys K t (lossLeaves p s t) := by
  unfold lossLeaves
  have hlink : onlyKeys K t (if p < 8 && canActive s p then raise (portGrove p) 12 t else t) := .ite (.raise (.refl _ _) hK) (.refl _ _)
  exact .ite (hlink.raise hK) hlink

theorem onlyKeys_quietPath {K : Nat → Prop} (hK : ∀ k, 0x2000000 ≤ k → K k) (p : Nat) (u : State) : onlyKeys K u (quietPath p u) := by
  refine onlyKeys.of_regs (t := u.wr (SYS_DWCTL_BUSY (2 + p)) 0) (.wr (.refl _ _) (hK _ ?_) ?_) (tunReportDrop_frame (κ := 1) rfl (.refl 1 _))
  all_goals
    simp only [leafKey, SYS_DWCTL_BUSY, instanceAddr, fld]
    omega

theorem onlyKeys_portDown (p c : Nat) (s : State) : onlyKeys (portDownKeys p (groupCells s p)) s (portDown p c s) := by
  have hcells : groupCells (dropTunnels p c s) p = groupCells s p := groupCells_of_ld (dropTunnels_frame (κ := 8) rfl (.refl 8 s)) p
  have hreset : onlyKeys (portDownKeys p (groupCells s p)) s (portReset p (dropTunnels p c s)) :=
    (onlyKeys_dropTunnels (fun _ => .inl) p c s).trans (hcells ▸ onlyKeys_portReset p _)
  have hleaves : onlyKeys (portDownKeys p (groupCells s p)) s (lossLeaves p s ((portReset p (dropTunnels p c s)).dropAtt p)) :=
    (hreset.of_regs rfl).trans (onlyKeys_lossLeaves (.inr (.inr (.inr (.inr (.inr (.inr rfl)))))) _ _)
  rw [portDown_eq]
  exact .ite (hleaves.trans (onlyKeys_quietPath (fun _ => .inl) p _)) hleaves

/-! ### What stands after a port-down -/

theorem quietPath_frame {k p : Nat} (hk : Nat.testBit 130 k = false) {s u : State} (h : Frame k s u) : Frame k s (quietPath p u) := by
  have hwr : Frame k s (u.wr (SYS_DWCTL_BUSY (2 + p)) 0) := State_wr_frame (testBit_sub rfl hk) h
  refine tunReportDrop_frame (testBit_sub rfl hk) (Frame.lit (m := 128) (testBit_sub rfl hk) rfl hwr ?_)
  constructor <;> first | exact .inl rfl | exact .inr rfl

/-- A part of the state that neither leaves nor reports belong to is after a port-down what the port reset and the loss of the partner
make of it. -/
theorem frame_portDown {k : Nat} (hk : Nat.testBit 130 k = false) (p c : Nat) (s : State) :
    Frame k ((portReset p (dropTunnels p c s)).dropAtt p) (portDown p c s) := by
  have hleaves : Frame k ((portReset p (dropTunnels p c s)).dropAtt p) (lossLeaves p s ((portReset p (dropTunnels p c s)).dropAtt p)) := by
    unfold lossLeaves
    have hlink : Frame k ((portReset p (dropTunnels p c s)).dropAtt p) (if p < 8 && canActive s p then
      raise (portGrove p) 12 ((portReset p (dropTunnels p c s)).dropAtt p) else (portReset p (dropTunnels p c s)).dropAtt p) :=
      .ite (raise_frame hk (.refl k _)) (.refl k _)
    exact .ite (raise_frame hk hlink) hlink
  rw [portDown_eq]
  exact .ite (quietPath_frame hk hleaves) hleaves

theorem att_portDown (p c : Nat) (s : State) : (portDown p c s).sv.att = mdel s.sv.att p := by
  have h : (portDown p c s).sv = _ := frame_portDown (k := 9) rfl p c s
  have hsv : (portReset p (dropTunnels p c s)).sv = s.sv := portReset_frame (κ := 9) rfl (dropTunnels_frame (κ := 9) rfl (.refl 9 s))
  rw [h, State.dropAtt, hsv]

theorem mfind_att_portDown (p c : Nat) (s : State) : mfind (portDown p c s).sv.att p = none := by
  rw [att_portDown, mfind_mdel, if_pos rfl]

/-- What outlasts a port reset of a link's own state (R417, R424). -/
def Can.reset (c : Can) : Can :=
  { entered := c.entered, failed := c.failed, withdrawn := c.withdrawn, supports := c.supports, flip := c.flip }

/-- The same of an adapter's. -/
def Adapter.reset (a : Adapter) : Adapter :=
  { ejected := a.ejected, slotOff := a.slotOff, downs := a.downs, ethmap := a.ethmap, untag := a.untag, maxfrm := a.maxfrm,
    noStep0 := a.noStep0 }

/-- The same of an egress port's. -/
def Egress.reset (e : Egress) : Egress := { wait := e.wait, waiting := e.waiting, headroom := e.headroom, icl := e.icl }

/-- The registers that a port reset restores before it clears the port's state. -/
def portRestored (p : Nat) (s : State) : State :=
  forAll (entriesOf s p) (fun n u => restore (tunPortFields n) u) (restore (portFields p (groupCells s p)) s)

/-- A lane cell of a port that is reset. -/
def laneReset (held : Bool) (c : Nat) (u : State) : State :=
  let x := u.lane c
  let u := u.setLane c { faulted := x.faulted, chkAt := x.chkAt, arrivals := x.arrivals }
  if x.faulted then u.wr (LC_STAT_STATE c) 9 else if held then u.wr (LC_STAT_STATE c) (if u.on (LC_TEST_EN c) then 6 else 7) else u

/-- The port's own state cleared, before its cells are. -/
def portCleared (p : Nat) (s : State) : State :=
  let t := portRestored p s
  let t := t.setEg p (t.eg p).reset
  let t := t.setCan p (t.can p).reset
  let a := t.adp p
  let t := t.setAdp p a.reset
  if a.ejected then t.wr (ADP_STAT_STATE p) 5 else t

theorem portReset_eq (p : Nat) (s : State) : portReset p s =
    let t := forAll (groupCells s p) (laneReset ((groupCells s p).any fun c => s.on (LC_CTL_HOLD c))) (portCleared p s)
    (t.wr RST_PRTRC_PORTS (t.rd RST_PRTRC_PORTS ||| 2 ^ p)).wr RST_CAUSE_PORT 1 := rfl

theorem portRestored_frame {k p : Nat} (hk : Nat.testBit 2 k = false) (s : State) : Frame k s (portRestored p s) :=
  forAll_frame (fun _ _ h => restore_frame hk h) (restore_frame hk (.refl k s))

theorem laneReset_frame {k c : Nat} {held : Bool} (hk : Nat.testBit 16386 k = false) {s u : State} (h : Frame k s u) :
    Frame k s (laneReset held c u) := by
  have hset := State_setLane_frame (c := c) (x := { faulted := (u.lane c).faulted, chkAt := (u.lane c).chkAt, arrivals := (u.lane c).arrivals })
    (testBit_sub rfl hk) h
  exact .ite (State_wr_frame (testBit_sub rfl hk) hset) (.ite (State_wr_frame (testBit_sub rfl hk) hset) hset)

/-- What a port reset does beside registers and lane cells it does to the port's own entries. -/
theorem frame_portReset {k : Nat} (hk : Nat.testBit 16386 k = false) (p : Nat) (s : State) : Frame k (portCleared p s) (portReset p s) := by
  rw [portReset_eq]
  exact State_wr_frame (testBit_sub rfl hk) (State_wr_frame (testBit_sub rfl hk) (forAll_frame (fun _ _ h => laneReset_frame hk h) (.refl k _)))

theorem can_portReset (p q : Nat) (s : State) : (portReset p s).can q = if q = p then (s.can p).reset else s.can q := by
  have hcn : (portReset p s).cn = (portCleared p s).cn := frame_portReset (k := 13) rfl p s
  have hres : (portRestored p s).cn = s.cn := portRestored_frame (k := 13) rfl s
  have hclear : (portCleared p s).cn = mput {} s.cn p (mget {} s.cn p : Can).reset := by
    unfold portCleared
    dsimp only
    split <;> simp [State.setCan, State.can, hres]
  simp only [State.can, hcn, hclear, mget_mput]

theorem eg_portReset (p q : Nat) (s : State) : (portReset p s).eg q = if q = p then (s.eg p).reset else s.eg q := by
  have hfb : (portReset p s).fb = (portCleared p s).fb := frame_portReset (k := 10) rfl p s
  have hres : (portRestored p s).fb = s.fb := portRestored_frame (k := 10) rfl s
  have hclear : (portCleared p s).fb.eg = mput {} s.fb.eg p (mget {} s.fb.eg p : Egress).reset := by
    unfold portCleared
    dsimp only
    split <;> simp [State.setEg, State.eg, hres]
  simp only [State.eg, hfb, hclear, mget_mput]

theorem adp_portReset (p q : Nat) (s : State) : (portReset p s).adp q = if q = p then (s.adp p).reset else s.adp q := by
  have had : (portReset p s).ad = (portCleared p s).ad := frame_portReset (k := 15) rfl p s
  have hres : (portRestored p s).ad = s.ad := portRestored_frame (k := 15) rfl s
  have hclear : (portCleared p s).ad = mput {} s.ad p (mget {} s.ad p : Adapter).reset := by
    unfold portCleared
    dsimp only
    split <;> simp [State.setAdp, State.adp, hres]
  simp only [State.adp, had, hclear, mget_mput]

theorem can_portDown (p c q : Nat) (s : State) : (portDown p c s).can q = if q = p then (s.can p).reset else s.can q := by
  have h : (portDown p c s).cn = (portReset p (dropTunnels p c s)).cn := frame_portDown (k := 13) rfl p c s
  have hdrop : (dropTunnels p c s).cn = s.cn := dropTunnels_frame (κ := 13) rfl (.refl 13 s)
  have hreset := can_portReset p q (dropTunnels p c s)
  simp only [State.can, hdrop] at hreset ⊢
  rw [h, hreset]

theorem eg_portDown (p c q : Nat) (s : State) : (portDown p c s).eg q = if q = p then (s.eg p).reset else s.eg q := by
  have h : (portDown p c s).fb = (portReset p (dropTunnels p c s)).fb := frame_portDown (k := 10) rfl p c s
  have hdrop : (dropTunnels p c s).fb = s.fb := dropTunnels_frame (κ := 10) rfl (.refl 10 s)
  have hreset := eg_portReset p q (dropTunnels p c s)
  simp only [State.eg, hdrop] at hreset ⊢
  rw [h, hreset]

theorem adp_portDown (p c q : Nat) (s : State) : (portDown p c s).adp q = if q = p then (s.adp p).reset else s.adp q := by
  have h : (portDown p c s).ad = (portReset p (dropTunnels p c s)).ad := frame_portDown (k := 15) rfl p c s
  have hdrop : (dropTunnels p c s).ad = s.ad := dropTunnels_frame (κ := 15) rfl (.refl 15 s)
  have hreset := adp_portReset p q (dropTunnels p c s)
  simp only [State.adp, hdrop] at hreset ⊢
  rw [h, hreset]

/-! ### A port-down whose partner stays (R22, R527) -/

theorem mfind_att_portDownAttached (p c : Nat) (s : State) : mfind (portDownAttached p c s).sv.att p = none := by
  change mfind (attachEvent (portDown p c s)).sv.att p = none
  rw [att_attachEvent, mfind_att_portDown]

theorem waiting_portDownAttached (p c : Nat) (s : State) : ((portDownAttached p c s).eg p).waiting = true := by
  simp [portDownAttached, scheduleRetrain]

theorem can_portDownAttached (p c q : Nat) (s : State) :
    (portDownAttached p c s).can q = if q = p then (s.can p).reset else s.can q := by
  change mget {} (attachEvent (portDown p c s)).cn q = _
  rw [cn_attachEvent]
  exact can_portDown p c q s

theorem adp_portDownAttached (p c q : Nat) (s : State) :
    (portDownAttached p c s).adp q = if q = p then (s.adp p).reset else s.adp q := by
  change mget {} (attachEvent (portDown p c s)).ad q = _
  rw [ad_attachEvent]
  exact adp_portDown p c q s

theorem onlyKeys_portDownAttached (p c : Nat) (s : State) :
    onlyKeys (fun k => portDownKeys p (groupCells s p) k ∨ attachKeys k) s (portDownAttached p c s) :=
  (((onlyKeys_portDown p c s).mono fun _ => .inl).trans ((onlyKeys_attachEvent _).mono fun _ => .inr)).setEg

end Sys2Proof.Machine
end

section
set_option Elab.async false
/-! The Canopy link's retry, and the training of its cells: what a RACK, an RNAK, a RESUME and a codeword that fails do. -/

namespace Sys2Proof.Machine

open Sys2Proof Sys2Proof.Laws

theorem protoError_effects (p : Nat) (s : State) :
    mfind (protoError p s).sv.att p = none ∧ ((protoError p s).eg p).waiting = true :=
  ⟨mfind_att_portDownAttached .., waiting_portDownAttached ..⟩

theorem cn_dropKept (l : List (Nat × Nat)) (s : State) : (dropKept l s).cn = s.cn := rfl

theorem can_settleOwed (p q : Nat) (s : State) : (settleOwed p s).can q = s.can q := rfl

theorem can_releaseTo (p m : Nat) (s : State) : ((releaseTo p m s).can p).lunOld = m ∧ ((releaseTo p m s).can p).lunTx = (s.can p).lunTx := by
  unfold releaseTo
  simp [can_settleOwed]

/-- RACK within the units sent. -/
theorem exec_rack_within {p : CanPort} {l : BitVec 16} {s : State} (hact : canActive s p.val = true)
    (hlun : (l.toNat + 65536 - (s.can p.val).lunOld) % 65536 < ((s.can p.val).lunTx + 65536 - (s.can p.val).lunOld) % 65536) :
    exec (.rack p l) s = .next (releaseTo p.val ((l.toNat + 1) % 65536) s) := by
  simp [exec, execRack, hact, hlun]

theorem exec_rack_outside {p : CanPort} {l : BitVec 16} {s : State} (hact : canActive s p.val = true)
    (hlun : ((s.can p.val).lunTx + 65536 - (s.can p.val).lunOld) % 65536 ≤ (l.toNat + 65536 - (s.can p.val).lunOld) % 65536) :
    exec (.rack p l) s = .next (protoError p.val s) := by
  simp [exec, execRack, hact, hlun]

/-- What an RNAK releases, and the RESUME that answers it. -/
def rnakReleased (p l : Nat) (s : State) : State := (releaseTo p l (s.inc (CAN_ERR_RNAKRX p))).emit (.can p "RESUME" [l])

theorem exec_rnak_within {p : CanPort} {l : BitVec 16} {s : State} (hact : canActive s p.val = true)
    (hlun : (l.toNat + 65536 - (s.can p.val).lunOld) % 65536 ≤ ((s.can p.val).lunTx + 65536 - (s.can p.val).lunOld) % 65536) :
    exec (.rnak p l) s = .next (forAll ((rnakReleased p.val l.toNat s).can p.val).retry (resend p.val) (rnakReleased p.val l.toNat s)) := by
  simp [exec, execRnak, hact, hlun, rnakReleased]

theorem exec_rnak_outside {p : CanPort} {l : BitVec 16} {s : State} (hact : canActive s p.val = true)
    (hlun : ((s.can p.val).lunTx + 65536 - (s.can p.val).lunOld) % 65536 < (l.toNat + 65536 - (s.can p.val).lunOld) % 65536) :
    exec (.rnak p l) s = .next (protoError p.val s) := by
  simp [exec, execRnak, hact, hlun]

/-- What has been sent is not taken back by sending kept units again. -/
theorem mem_sent_resend_forAll {o : Out} {p : Nat} (us : List LUnit) {s : State} (h : o ∈ s.sent) : o ∈ (forAll us (resend p) s).sent := by
  unfold forAll
  induction us generalizing s with
  | nil => exact h
  | cons u us ih =>
    refine ih (s := resend p u s) ?_
    unfold resend
    split <;> exact List.mem_cons_of_mem _ h

theorem cn_resend_forAll (p : Nat) (us : List LUnit) (s : State) : (forAll us (resend p) s).cn = s.cn :=
  forAll_frame (k := 13) (fun _ _ h => resend_frame rfl h) (.refl 13 s)

theorem rnak_resumes {p : CanPort} {l : BitVec 16} {s : State} (hact : canActive s p.val = true)
    (hlun : (l.toNat + 65536 - (s.can p.val).lunOld) % 65536 ≤ ((s.can p.val).lunTx + 65536 - (s.can p.val).lunOld) % 65536) :
    ∃ t, exec (.rnak p l) s = .next t ∧ (t.can p.val).lunOld = l.toNat ∧ Out.can p.val "RESUME" [l.toNat] ∈ t.sent ∧
      partsOnly [.regs, .sent, .fb, .cn] s t := by
  refine ⟨_, exec_rnak_within hact hlun, ?_, mem_sent_resend_forAll _ (by simp [rnakReleased, State.emit]), ?_⟩
  · rw [State.can, cn_resend_forAll]
    exact (can_releaseTo _ _ _).1
  · refine partsOnly_of_frames (m := 9234) (fun k hk => ?_) rfl
    refine forAll_frame (fun _ _ h => resend_frame (testBit_sub rfl hk) h) ?_
    exact State_emit_frame (testBit_sub rfl hk) (releaseTo_frame (testBit_sub rfl hk) (State_inc_frame (testBit_sub rfl hk) (.refl k s)))

theorem exec_rnakRepeat {p : CanPort} {s : State} (hact : canActive s p.val = true) (hd : (s.can p.val).discarding = true) :
    exec (.rnakRepeat p) s = .next (sendRnak p.val s) := by
  simp [exec, execRnakRepeat, hact, hd]

theorem exec_delineationError {p : CanPort} {w : Option Word} {s : State} (hw : ∀ x, w = some x → readWord x = .reserved) :
    exec (.delineationError ⟨p, w⟩) s = .next (linkError p.val s) := by
  have h : (w.map readWord).getD .reserved = .reserved := by
    cases w with
    | none => rfl
    | some x => exact hw x rfl
  simp [exec, execDelineationError, h]

theorem onlyWrites_setCan (fs : List Fld) (s : State) (p : Nat) (c : Can) : onlyWrites fs [.cn] s (s.setCan p c) := by
  refine ⟨fun _ _ => rfl, fun q hq => ?_⟩
  cases q
  case cn => simp at hq
  all_goals rfl

theorem onlyWrites_inc (f : Fld) (s : State) : onlyWrites [f] [] s (s.inc f) := onlyWrites_wr f _ s

theorem sent_sendRnak (p : Nat) (s : State) : (sendRnak p s).sent = .can p "RNAK" [(s.can p).lunRx] :: s.sent := rfl

theorem can_sendRnak (p q : Nat) (s : State) : (sendRnak p s).can q = s.can q := rfl

theorem onlyWrites_sendRnak (p : Nat) (s : State) : onlyWrites [CAN_ERR_RNAKTX p] [.sent] s (sendRnak p s) :=
  (onlyWrites_emit _ s _).trans ((onlyWrites_inc _ _).mono (List.Subset.refl _) (by simp))

/-- A receiver that begins to discard asks for the unit expected. -/
def discardFrom (p : Nat) (s : State) : State := sendRnak p (s.setCan p { s.can p with discarding := true })

theorem discardFrom_effects (p : Nat) (s : State) : ((discardFrom p s).can p).discarding = true ∧
    (discardFrom p s).sent = .can p "RNAK" [(s.can p).lunRx] :: s.sent ∧
    onlyWrites [CAN_ERR_RNAKTX p] [.sent, .cn] s (discardFrom p s) := by
  refine ⟨by simp [discardFrom, can_sendRnak], by simp [discardFrom, sent_sendRnak], ?_⟩
  exact ((onlyWrites_setCan _ s p _).mono (List.Subset.refl _) (by simp)).trans
    ((onlyWrites_sendRnak p _).mono (List.Subset.refl _) (by simp))

theorem linkError_eq {p : Nat} {s : State} (hact : canActive s p = true) (hd : (s.can p).discarding = false) :
    linkError p s = discardFrom p s := by
  simp [linkError, hact, hd, discardFrom]

theorem exec_resume_expected {p : CanPort} {l : BitVec 16} {s : State} (hact : canActive s p.val = true)
    (hl : l.toNat = (s.can p.val).lunRx) :
    exec (.resume p l) s = .next (s.setCan p.val { s.can p.val with discarding := false }) := by
  simp [exec, execResume, hact, hl]

theorem exec_resume_other {p : CanPort} {l : BitVec 16} {s : State} (hact : canActive s p.val = true)
    (hl : l.toNat ≠ (s.can p.val).lunRx) : exec (.resume p l) s = .next (discardFrom p.val s) := by
  simp [exec, execResume, hact, hl, discardFrom]


/-- A field of a lane cell that training writes: its state and its two locks. -/
abbrev trainKey (k : Nat) : Prop := 0x1000020 ≤ k ∧ ((k - 0x1000020) % 0x8000 = 28 ∨ (k - 0x1000020) % 0x8000 = 14 ∨ (k - 0x1000020) % 0x8000 = 6)

theorem trainKey_lcState (c : Nat) : trainKey (LC_STAT_STATE c).key := by
  simp only [trainKey, LC_STAT_STATE, fld]
  omega

theorem trainKey_lockF (c : Nat) (b : Bool) : trainKey (lockF c b).key := by
  cases b <;> simp only [trainKey, lockF, LC_STAT_LOCKA, LC_STAT_LOCKB, fld] <;> simp <;> omega

theorem not_leafKey_of_trainKey {k : Nat} (h : trainKey k) : ¬ leafKey k := by
  simp only [trainKey, leafKey] at *
  omega

theorem onlyKeys_sendTraining {K : Nat → Prop} {s t : State} (p : Nat) (ts2 lock : Bool) (pairs : List (Nat × Bool)) (h : onlyKeys K s t) :
    onlyKeys K s (sendTraining p ts2 lock pairs t) :=
  h.of_regs (sendTraining_frame (κ := 1) rfl (.refl 1 t))

theorem onlyKeys_trainCells (p st : Nat) (s : State) : onlyKeys trainKey s (trainCells p st s) := by
  refine onlyKeys_sendTraining _ _ _ _ (.forAll (.refl _ s) fun c _ u => .setLane ?_)
  refine ((onlyKeys.refl trainKey u).wr (f := LC_STAT_STATE c) (v := st) (trainKey_lcState c)
    (not_leafKey_of_trainKey (trainKey_lcState c))).trans (onlyKeys_restore _ fun f hf => ?_)
  simp only [List.mem_cons, List.not_mem_nil, or_false] at hf
  obtain rfl | rfl := hf <;> exact ⟨trainKey_lockF _ _, not_leafKey_of_trainKey (trainKey_lockF _ _)⟩

theorem onlyKeys_retrainCause (p : Nat) (s : State) : onlyKeys trainKey s (retrainCause p s) :=
  .ite (onlyKeys_trainCells p _ s) (.refl _ s)

/-- What holds of a state and is kept by every pass holds after the loop. -/
theorem forAll_induction {P : State → Prop} {α : Type} {l : List α} {f : α → State → State} {s : State} (h : P s)
    (hf : ∀ x ∈ l, ∀ u, P u → P (f x u)) : P (forAll l f s) := by
  unfold forAll
  induction l generalizing s with
  | nil => exact h
  | cons x l ih => exact ih (hf x (by simp) s h) fun y hy => hf y (by simp [hy])

/-- A field that reads 0 reads 0 once any field has been cleared. -/
theorem rd_wr_zero {f g : Fld} {s : State} (h : s.rd g = 0) (hr : g.reset = f.reset) : (s.wr f 0).rd g = 0 := by
  by_cases hk : g.key = f.key
  · simp [State.rd, State.wr, hk, hr, mget_mput_same]
  · rw [State.rd_wr_ne _ _ _ _ hk, h]

/-- A lock that has been lost stays lost as its cell trains again. -/
theorem lockF_trainCells_zero (p st c : Nat) (b : Bool) {s : State} (h : s.rd (lockF c b) = 0) : (trainCells p st s).rd (lockF c b) = 0 := by
  have hkey (d : Nat) : (lockF c b).key ≠ (LC_STAT_STATE d).key := by
    cases b <;> simp only [lockF, LC_STAT_LOCKA, LC_STAT_LOCKB, LC_STAT_STATE, fld] <;> simp <;> omega
  refine (congrArg (fun r => State.rd { s with regs := r } (lockF c b)) (sendTraining_frame (κ := 1) rfl (.refl 1 _))).trans ?_
  refine forAll_induction (P := fun u => u.rd (lockF c b) = 0) h fun d _ u hu => ?_
  have hreset (e : Bool) : (lockF c b).reset = (lockF d e).reset := by cases b <;> cases e <;> rfl
  have hst : (u.wr (LC_STAT_STATE d) st).rd (lockF c b) = 0 := (State.rd_wr_ne _ _ _ _ (hkey d)).trans hu
  exact rd_wr_zero (f := lockF d true) (rd_wr_zero (f := lockF d false) hst (hreset _)) (hreset _)

theorem lockF_retrainCause_zero (p c : Nat) (b : Bool) {s : State} (h : s.rd (lockF c b) = 0) : (retrainCause p s).rd (lockF c b) = 0 := by
  unfold retrainCause startRetrain
  split
  · exact lockF_trainCells_zero _ _ _ _ h
  · exact h

/-- The keys that the loss of lock of a cell writes. -/
abbrev loseLockKey (c k : Nat) : Prop := trainKey k ∨ k = (EVSTAT (32 + c)).key

theorem onlyKeys_loseLock (c : Nat) (b : Bool) (s : State) : onlyKeys (loseLockKey c) s (loseLock c b s) := by
  have h : onlyKeys (loseLockKey c) s (raise (32 + c) 1 (s.wr (lockF c b) 0)) :=
    ((onlyKeys.refl _ s).wr (.inl (trainKey_lockF c b)) (not_leafKey_of_trainKey (trainKey_lockF c b))).raise (.inr rfl)
  exact .ite (h.trans ((onlyKeys_retrainCause _ _).mono fun _ => .inl)) h

/-- A cell's lock has gone and its leaf stands. -/
theorem loseLock_effects (c : Nat) (b : Bool) (s : State) : (loseLock c b s).rd (lockF c b) = 0 ∧ leafSet (loseLock c b s) (32 + c) 1 := by
  have hrd : (raise (32 + c) 1 (s.wr (lockF c b) 0)).rd (lockF c b) = 0 := by
    rw [rd_raise_ne _ _ _ _ fun e => not_leafKey_of_trainKey (trainKey_lockF c b) (e ▸ leafKey_evstat _), State.rd_wr_same, Nat.zero_mod]
  have hleaf : leafSet (raise (32 + c) 1 (s.wr (lockF c b) 0)) (32 + c) 1 := leafSet_raise _ _ _ (by decide)
  unfold loseLock
  dsimp only
  split
  · exact ⟨lockF_retrainCause_zero _ _ _ hrd, (onlyKeys_retrainCause _ _).2 _ _ hleaf⟩
  · exact ⟨hrd, hleaf⟩

/-- The counters of a run of errors: a saturating counter incremented once for each of a list. -/
theorem rd_forAll_inc {α : Type} (f : Fld) (l : List α) (s : State) (hf : 0 < f.w) :
    (forAll l (fun _ u => u.inc f) s).rd f = min (2 ^ f.w - 1) (s.rd f + l.length) := by
  have hpos : 2 ≤ 2 ^ f.w := Nat.pow_le_pow_right (n := 2) (by decide) hf
  unfold forAll
  induction l generalizing s with
  | nil =>
    have := State.rd_lt s f
    simp only [List.foldl_nil, List.length_nil]
    omega
  | cons x l ih =>
    rw [List.foldl_cons, ih (s.inc f), State.rd_inc_same, List.length_cons]
    have hsat : satInc (2 ^ f.w - 1) (s.rd f) = min (2 ^ f.w - 1) (s.rd f + 1) := by
      have := State.rd_lt s f
      unfold satInc
      split <;> omega
    rw [hsat, Nat.mod_eq_of_lt (by omega)]
    omega

theorem onlyWrites_forAll_inc {α : Type} (f : Fld) (l : List α) (s : State) : onlyWrites [f] [] s (forAll l (fun _ u => u.inc f) s) :=
  forAll_induction (P := onlyWrites [f] [] s) (.refl ..) fun _ _ u h => h.trans (onlyWrites_inc f u)

/-- The run of uncorrectable codewords of a receive pair after this one. -/
def codewordRun (c : Nat) (b next : Bool) (s : State) : Nat := 1 + if !next then 0 else if b then (s.lane c).runB else (s.lane c).runA

/-- The control slots of a codeword counted, its run taken and the codeword counted for the pair and the port. -/
def codewordCounted (c : Nat) (b next : Bool) (l : List (BitVec 64)) (s : State) : State :=
  let t := forAll (l.filter fun w => true || !slotOk w) (fun _ u => u.inc (CAN_ERR_CSLOT (cellPort c))) s
  let x := t.lane c
  ((t.setLane c (if b then { x with runB := codewordRun c b next t } else { x with runA := codewordRun c b next t })).inc
    (if b then LC_FECB_UNCORR c else LC_FECA_UNCORR c)).inc (CAN_ERR_UNCORR (cellPort c))

theorem exec_uncorrectable {c : LaneCell} {b next hits : Bool} {l : List (BitVec 64)} {s : State} (hrun : canRunning s (cellPort c.val) = true) :
    exec (.uncorrectableCodeword c b ⟨true, next, hits⟩ l) s =
      .next (let t := if hits then linkError (cellPort c.val) (codewordCounted c.val b next l s) else codewordCounted c.val b next l s
        if 3 ≤ codewordRun c.val b next s then loseLock c.val b t else t) := by
  have hl (l : List (BitVec 64)) : (forAll l (fun _ u => u.inc (CAN_ERR_CSLOT (cellPort c.val))) s).lc = s.lc :=
    forAll_frame (k := 14) (fun _ _ h => State_inc_frame rfl h) (.refl 14 s)
  have hlane : (forAll (l.filter fun w => true || !slotOk w) (fun _ u => u.inc (CAN_ERR_CSLOT (cellPort c.val))) s).lane c.val = s.lane c.val := by
    simp only [State.lane, hl]
  simp only [exec, execUncorrectableCodeword, hrun, codewordCounted, codewordRun, hlane]
  simp

theorem cellPort_lt_of_running {c : Nat} {s : State} (h : canRunning s (cellPort c) = true) : cellPort c < 8 := by
  simp only [canRunning, Bool.and_eq_true, decide_eq_true_eq] at h
  exact h.1.1

/-- The counters of a Canopy port are none of the fields of a lane cell, and no leaves. -/
theorem not_loseLockKey_uncorr {p c : Nat} : ¬ loseLockKey c (CAN_ERR_UNCORR p).key := by
  have hplace := portPlace_lt p
  have hgrove := portGrove_lt p
  have hleaf := leafKey_evstat (32 + c)
  rintro (h | h)
  · simp only [trainKey, CAN_ERR_UNCORR, fld, portReg] at h
    omega
  · rw [← h] at hleaf
    simp only [leafKey, CAN_ERR_UNCORR, fld, portReg] at hleaf
    omega

theorem linkError_onlyWrites (p : Nat) (s : State) : onlyWrites [CAN_ERR_RNAKTX p] [.sent, .cn] s (linkError p s) := by
  unfold linkError
  split
  · exact .refl ..
  · exact (discardFrom_effects p s).2.2

/-- An error within a unit makes the receiver of an active link discard. -/
theorem discarding_linkError {p : Nat} {s : State} (hact : canActive s p = true) : ((linkError p s).can p).discarding = true := by
  cases hd : (s.can p).discarding with
  | true => simp [linkError, hd]
  | false => rw [linkError_eq hact hd]; exact (discardFrom_effects p s).1

theorem onlyWrites_setLane (fs : List Fld) (s : State) (c : Nat) (x : Lane) : onlyWrites fs [.lc] s (s.setLane c x) := by
  refine ⟨fun _ _ => rfl, fun q hq => ?_⟩
  cases q
  case lc => simp at hq
  all_goals rfl

/-- The fields that count an uncorrectable codeword. -/
def codewordFields (c : Nat) (b : Bool) : List Fld :=
  [CAN_ERR_CSLOT (cellPort c), if b then LC_FECB_UNCORR c else LC_FECA_UNCORR c, CAN_ERR_UNCORR (cellPort c)]

theorem onlyWrites_codewordCounted (c : Nat) (b next : Bool) (l : List (BitVec 64)) (s : State) :
    onlyWrites (codewordFields c b) [.lc] s (codewordCounted c b next l s) := by
  have hslots := (onlyWrites_forAll_inc (CAN_ERR_CSLOT (cellPort c)) (l.filter fun w => true || !slotOk w) s).mono
    (gs := codewordFields c b) (qs := [.lc]) (by simp [codewordFields]) (by simp)
  refine ((hslots.trans (onlyWrites_setLane _ _ c _)).trans ((onlyWrites_inc _ _).mono (by simp [codewordFields]) (by simp))).trans
    ((onlyWrites_inc _ _).mono (by simp [codewordFields]) (by simp))

theorem canActive_codewordCounted (c : Nat) (b next : Bool) (l : List (BitVec 64)) (s : State) {p : Nat} :
    canActive (codewordCounted c b next l s) p = canActive s p := by
  have hplace := portPlace_lt p
  have hgrove := portGrove_lt p
  have hplace' := portPlace_lt (cellPort c)
  have hgrove' := portGrove_lt (cellPort c)
  unfold canActive
  rw [(onlyWrites_codewordCounted c b next l s).1 _ fun g hg => ?_]
  simp only [codewordFields, List.mem_cons, List.not_mem_nil, or_false] at hg
  obtain rfl | rfl | rfl := hg
  · simp only [CAN_STAT_STATE, CAN_ERR_CSLOT, fld, portReg]
    omega
  · cases b <;> simp only [CAN_STAT_STATE, LC_FECA_UNCORR, LC_FECB_UNCORR, fld, portReg] <;> simp <;> omega
  · simp only [CAN_STAT_STATE, CAN_ERR_UNCORR, fld, portReg]
    omega

/-- A saturating counter counts one more, at most its largest value. -/
theorem rd_inc_eq_satInc (f : Fld) (s : State) : (s.inc f).rd f = satInc (2 ^ f.w - 1) (s.rd f) := by
  have := State.rd_lt s f
  rw [State.rd_inc_same, Nat.mod_eq_of_lt]
  unfold satInc
  split <;> omega

theorem rd_codewordCounted_uncorr (c : Nat) (b next : Bool) (l : List (BitVec 64)) (s : State) :
    (codewordCounted c b next l s).rd (CAN_ERR_UNCORR (cellPort c)) =
      satInc (2 ^ (CAN_ERR_UNCORR (cellPort c)).w - 1) (s.rd (CAN_ERR_UNCORR (cellPort c))) := by
  have hplace := portPlace_lt (cellPort c)
  have hgrove := portGrove_lt (cellPort c)
  refine (rd_inc_eq_satInc _ _).trans (congrArg _ ?_)
  refine (State.rd_inc_ne _ _ _ ?_).trans (((onlyWrites_forAll_inc _ _ _).1 _ fun g hg => ?_ :))
  · cases b <;> simp only [CAN_ERR_UNCORR, LC_FECA_UNCORR, LC_FECB_UNCORR, fld, portReg] <;> simp <;> omega
  · rw [List.mem_singleton.1 hg]
    simp only [CAN_ERR_UNCORR, CAN_ERR_CSLOT, fld]
    omega

theorem cn_loseLock (c : Nat) (b : Bool) (s : State) : (loseLock c b s).cn = s.cn := loseLock_frame (κ := 13) rfl (.refl 13 s)

/-- The uncorrectable codeword of a running port: counted, a unit discarded, the third in succession is loss of lock. -/
theorem exec_uncorrectable_effects (c : LaneCell) (b next hits : Bool) (l : List (BitVec 64)) (s : State)
    (hrun : canRunning s (cellPort c.val) = true) :
    ∃ t, exec (.uncorrectableCodeword c b ⟨true, next, hits⟩ l) s = .next t ∧
      t.rd (CAN_ERR_UNCORR (cellPort c.val)) = satInc (2 ^ (CAN_ERR_UNCORR (cellPort c.val)).w - 1) (s.rd (CAN_ERR_UNCORR (cellPort c.val))) ∧
      (hits = true → canActive s (cellPort c.val) = true → (t.can (cellPort c.val)).discarding = true) ∧
      (next = true → 2 ≤ (if b then (s.lane c.val).runB else (s.lane c.val).runA) → t.rd (lockF c.val b) = 0 ∧ leafSet t (32 + c.val) 1) ∧
      partsOnly [.regs, .freeCtr, .sent, .mg, .cn, .lc] s t := by
  let x := codewordCounted c.val b next l s
  let y := if hits then linkError (cellPort c.val) x else x
  have hxy : onlyWrites [CAN_ERR_RNAKTX (cellPort c.val)] [.sent, .cn] x y := by
    cases hits
    · exact .refl ..
    · exact linkError_onlyWrites _ _
  have hy : y.rd (CAN_ERR_UNCORR (cellPort c.val)) =
      satInc (2 ^ (CAN_ERR_UNCORR (cellPort c.val)).w - 1) (s.rd (CAN_ERR_UNCORR (cellPort c.val))) := by
    rw [hxy.1 _ fun g hg => ?_]
    · exact rd_codewordCounted_uncorr ..
    · rw [List.mem_singleton.1 hg]
      simp only [CAN_ERR_UNCORR, CAN_ERR_RNAKTX, fld, portReg]
      omega
  have hdis : hits = true → canActive s (cellPort c.val) = true → (y.can (cellPort c.val)).discarding = true := by
    rintro rfl hact
    exact discarding_linkError ((canActive_codewordCounted ..).trans hact)
  have hexec : exec (.uncorrectableCodeword c b ⟨true, next, hits⟩ l) s =
      .next (if 3 ≤ codewordRun c.val b next s then loseLock c.val b y else y) := exec_uncorrectable hrun
  refine ⟨_, hexec, ?_, ?_, ?_, ?_⟩
  · split
    · rw [(onlyKeys_loseLock _ _ _).1 _ not_loseLockKey_uncorr, hy]
    · exact hy
  · intro hh hact
    split
    · simpa only [State.can, cn_loseLock] using hdis hh hact
    · exact hdis hh hact
  · rintro rfl hr
    rw [if_pos (show 3 ≤ codewordRun c.val b true s by simp only [codewordRun]; simp; omega)]
    exact loseLock_effects ..
  · refine ((onlyWrites_codewordCounted c.val b next l s).2.mono (by simp)).trans ((hxy.2.mono (by simp)).trans ?_)
    split
    · exact partsOnly_of_frames (m := 16538) (fun k hk => loseLock_frame hk (.refl k y)) rfl
    · exact partsOnly.refl _ y

/-- Without an uncorrectable codeword only the control slots that fail are counted. -/
theorem exec_failedSlots (c : LaneCell) (b next hits : Bool) (l : List (BitVec 64)) (s : State)
    (hrun : canRunning s (cellPort c.val) = true) :
    exec (.uncorrectableCodeword c b ⟨false, next, hits⟩ l) s =
      .next (forAll (l.filter fun w => !slotOk w) (fun _ u => u.inc (CAN_ERR_CSLOT (cellPort c.val))) s) := by
  simp [exec, execUncorrectableCodeword, hrun]

/-- Settles O13. -/
theorem retryOfCanopyUnits : Obligations.RetryOfCanopyUnits := by
  refine ⟨?_, ?_, ?_, ?_, ?_, ?_, ?_, ?_, ?_, ?_⟩
  · intro p l s hact hlun
    exact ⟨_, exec_rack_within hact hlun, (can_releaseTo _ _ _).1, (can_releaseTo _ _ _).2,
      partsOnly_of_frames (fun k hk => releaseTo_frame hk (.refl k s)) rfl⟩
  · intro p l s hact hlun
    exact ⟨_, exec_rack_outside hact hlun, protoError_effects _ _⟩
  · exact fun p l s hact hlun => rnak_resumes hact hlun
  · intro p l s hact hlun
    exact ⟨_, exec_rnak_outside hact hlun, protoError_effects _ _⟩
  · intro p s hact hd
    exact ⟨_, exec_rnakRepeat hact hd, sent_sendRnak _ _, onlyWrites_sendRnak _ _⟩
  · intro p w s hact hd hw
    exact ⟨_, exec_delineationError hw, linkError_eq hact hd ▸ discardFrom_effects _ _⟩
  · intro p l s hact hl
    exact ⟨_, exec_resume_expected hact hl, by simp,
      partsOnly_of_frames (fun k hk => State_setCan_frame hk (.refl k s)) rfl⟩
  · intro p l s hact hl
    exact ⟨_, exec_resume_other hact hl, discardFrom_effects _ _⟩
  · exact exec_uncorrectable_effects
  · intro c b next hits l s hrun
    exact ⟨_, exec_failedSlots c b next hits l s hrun, onlyWrites_forAll_inc .., rd_forAll_inc _ _ _ (show 0 < 8 by decide)⟩

end Sys2Proof.Machine
end

section
set_option Elab.async false
/-! The credit of a tunnel on a Canopy link, and the line grants. -/

namespace Sys2Proof.Machine

open Sys2Proof Sys2Proof.Laws

theorem onlyWrites_setCredit (fs : List Fld) (s : State) (n : Nat) (c : Credit) : onlyWrites fs [.cr] s (s.setCredit n c) := by
  refine ⟨fun _ _ => rfl, fun p hp => ?_⟩
  cases p
  case cr => simp at hp
  all_goals rfl

/-- A fresh CREDIT raises the limit. -/
theorem credit_raises {p : CanPort} {n : Tun} {l : BitVec 16} {s : State} (hact : canActive s p.val = true)
    (hhome : outsideHome s p.val n.val = false)
    (hnew : (l.toNat + 65536 - (s.credit (rewriteIn s p.val n.val)).limit) % 65536 ≠ 0)
    (hold : (l.toNat + 65536 - (s.credit (rewriteIn s p.val n.val)).limit) % 65536 ≤ 32767) :
    exec (.credit p n l) s = .next ((s.setCredit (rewriteIn s p.val n.val)
      { s.credit (rewriteIn s p.val n.val) with limit := l.toNat }).wr (GRV_FLST_EGHELD p.val) 0) := by
  have hd : ¬ ((l.toNat + 65536 - (s.credit (rewriteIn s p.val n.val)).limit) % 65536 = 0 ∨
      32767 < (l.toNat + 65536 - (s.credit (rewriteIn s p.val n.val)).limit) % 65536) := by omega
  simp only [exec, execCredit, hact, hhome, hd, Bool.not_true, Bool.false_eq_true, or_self, if_false]

theorem credit_of_old {p : CanPort} {n : Tun} {l : BitVec 16} {s : State}
    (hold : 32767 < (l.toNat + 65536 - (s.credit (rewriteIn s p.val n.val)).limit) % 65536) :
    exec (.credit p n l) s = .next s := by
  have hd : (l.toNat + 65536 - (s.credit (rewriteIn s p.val n.val)).limit) % 65536 = 0 ∨
      32767 < (l.toNat + 65536 - (s.credit (rewriteIn s p.val n.val)).limit) % 65536 := .inr hold
  simp only [exec, execCredit, hd, if_true, ite_self]

theorem creditTimer_sends {n : Tun} {s : State} (hp : inPortOf s n.val < 8) (hact : canActive s (inPortOf s n.val) = true)
    (hfence : portFenced s (inPortOf s n.val) = false) (hgov : creditGoverned s n.val = true) (hlive : tunActive s n.val = true) :
    exec (.creditTimer n) s = .next (sendCredit n.val s) := by
  simp only [exec, execCreditTimer, hp, hact, hfence, hgov, hlive, decide_true, Bool.not_false, Bool.and_self, if_true]

theorem lgrant_relayed {p : CanPort} {n : Tun} {d : Pipe} {y : Fin 8192} {f : Fin 16} {s : State} {b : Nat}
    (hbase : cascadeBase s p.val = some b) (hhome : outsideHome s p.val n.val = false)
    (hlive : tunActive s (rewriteIn s p.val n.val) = true) (hact : canActive s p.val = true)
    (hcrown : s.rd (TT_ENDP_INPORT (rewriteIn s p.val n.val)) < 2)
    (hup : canActive s (s.rd (TT_ENDP_INPORT (rewriteIn s p.val n.val))) = true) :
    exec (.lgrant p n d y f) s = .next (s.emit (.can (s.rd (TT_ENDP_INPORT (rewriteIn s p.val n.val))) "LGRANT"
      [rewriteIn s p.val n.val, d.val, y.val, f.val])) := by
  simp only [exec, execLgrant, hbase, hhome, hlive, hact, hcrown, hup, Option.isSome_some, decide_true, Bool.not_false, Bool.and_self,
    if_true]

/-- Settles O12: each command is one update of the state. -/
theorem creditAndGrants : Obligations.CreditAndGrants := by
  unfold Obligations.CreditAndGrants
  refine ⟨fun p n l s hact hhome hnew hold => ?_, fun p n l s _ hold => credit_of_old hold, fun n s hp hact hfence hgov hlive => ?_,
    fun p n d y f s b hbase hhome hlive hact hcrown hup => lgrant_relayed hbase hhome hlive hact hcrown hup⟩
  · refine ⟨_, credit_raises hact hhome hnew hold, by simp, by simp, ?_⟩
    exact (onlyWrites_setCredit _ _ _ _).trans ((onlyWrites_wr _ _ _).mono (List.Subset.refl _) (by simp))
  · refine ⟨_, creditTimer_sends hp hact hfence hgov hlive, by simp [sendCredit], rfl, ?_⟩
    exact partsOnly_of_frames (fun k hk => sendCredit_frame hk (.refl k s)) rfl

end Sys2Proof.Machine
end

section
set_option Elab.async false
/-! The records of a Canopy link, their tags, and the updates of its keys. -/

namespace Sys2Proof.Machine

open Sys2Proof Sys2Proof.Laws

/-- A transition that leaves every component but those listed. -/
theorem partsOnly_of_parts {ps : List Part} {s t : State} (h : ∀ k, (partMask ps).testBit k = false → Frame k s t) : partsOnly ps s t :=
  partsOnly_of_frames h (Nat.and_self _)

/-! ### Records and tags (R234, R235, R238) -/

/-- The open transmit record closed with its tag unit, before a switch of the epoch (R234). -/
def recordClosed (p : Nat) (s : State) : State :=
  let c := s.can p
  let tag := recordTag c.secTx c.txRec c.txRecno
  let unit : LUnit := { lun := c.lunTx, seg := none, tag := tag, epoch := s.rd (CAN_STAT_TXEP p), recno := c.txRecno, place := 0 }
  (s.setCan p { c with lunTx := (c.lunTx + 1) % 65536, txSegs := 0, txRec := [], txRecno := c.txRecno + 1, retry := c.retry ++ [unit] }).emit
    (.can p "TAG" [s.rd (CAN_STAT_TXEP p) % 2, c.txRecno % 32768, tag])

/-- With no update announced the epoch does not switch. -/
theorem closeRecord_eq {p : Nat} {s : State} (hupd : (s.can p).upd = none) : closeRecord p s = recordClosed p s :=
  if_neg fun h => by simp [hupd] at h

theorem exec_recordClose {p : CanPort} {s : State} (hact : canActive s p.val = true) (hsegs : (s.can p.val).txSegs ≠ 0)
    (hupd : (s.can p.val).upd = none) : exec (.recordClose p) s = .next (recordClosed p.val s) := by
  have hclosed : closeDue p.val (recordClosed p.val s) = recordClosed p.val s := by
    simp [closeDue, recordClosed, beforeSwitch, hupd]
  simp [exec, execRecordClose, hact, hsegs, closeRecord_eq hupd, hclosed]

theorem switchRx_of_none {p : Nat} {s : State} (h : (s.can p).updRx = none) : switchRx p s = s := by
  simp [switchRx, h]

theorem exec_tag_checked {p : CanPort} {e : Bool} {r : BitVec 15} {g : BitVec 128} {s : State} (hact : canActive s p.val = true)
    (hdis : (s.can p.val).discarding = false) (hupd : (s.can p.val).updRx = none) (he : e = bit (s.rd (CAN_STAT_RXEP p.val)) 0)
    (hr : r.toNat = (s.can p.val).rxRecno % 32768) (hg : g.toNat = recordTag (s.can p.val).secRx (s.can p.val).rxRec (s.can p.val).rxRecno) :
    exec (.tag p e r g) s = .next (s.setCan p.val { s.can p.val with
      lunRx := ((s.can p.val).lunRx + 1) % 65536, rxSegs := 0, rxRec := [], rxRecno := (s.can p.val).rxRecno + 1 }) := by
  simp [exec, execTag, hact, hdis, switchRx_of_none hupd, he, hr, hg]

theorem exec_tag_failed {p : CanPort} {e : Bool} {r : BitVec 15} {g : BitVec 128} {s : State} (hact : canActive s p.val = true)
    (hdis : (s.can p.val).discarding = false) (hupd : (s.can p.val).updRx = none)
    (hg : g.toNat ≠ recordTag (s.can p.val).secRx (s.can p.val).rxRec (s.can p.val).rxRecno) :
    exec (.tag p e r g) s = .next (tagFail p.val s) := by
  simp [exec, execTag, hact, hdis, switchRx_of_none hupd, hg]

theorem not_leafKey_tagFail (p : Nat) : ¬ leafKey (CAN_ERR2_TAGFAIL p).key := by
  have hplace := portPlace_lt p
  simp only [leafKey, CAN_ERR2_TAGFAIL, fld, portReg]
  omega

/-- A key that is no leaf's differs from every leaf register's. -/
theorem ne_evstat {k : Nat} (h : ¬ leafKey k) (u : Nat) : k ≠ (EVSTAT u).key := fun e => h (e ▸ leafKey_evstat u)

/-- A field of a grove's range that is no leaf's is none of those that an attach event writes. -/
theorem not_attachKeys_of_grove {k : Nat} (hleaf : ¬ leafKey k) (hlo : 0x800000 ≤ k) (hhi : k < 0x1000000) : ¬ attachKeys k := by
  rintro (h | ⟨d, h⟩ | ⟨n, h⟩)
  · simp only [List.mem_cons, List.not_mem_nil, or_false, PST_PSSTAT_STATE, PST_PSCTL_GO, PST_SOLVE_BUSY, PST_SOLVE_ARMED, PST_SOLVE_CANCEL,
      FAB_STATUS_MAPPEND, SYS_SETTLE_PEND, SYS_SETTLE_RUN, SYS_GUARD_SETTLED, fld] at h
    have := ne_evstat hleaf 16
    omega
  · simp only [PIPE_CTL_FHOLD, fld] at h
    omega
  · simp only [TT_STATE_STATE, TT_STATE_GEN, fld] at h
    omega

/-- A field of a grove's range that is no leaf's, no field of port reach and no word of the partner's CAPS or of the transcript stays
through a port-down and its attach event. -/
theorem not_portDownKeys_of_grove {p k : Nat} (cs : List Nat) (hport : ∀ f ∈ portReach p, k ≠ f.key) (hcan : ∀ f ∈ canReach p, k ≠ f.key)
    (hpeer : ∀ j < 3, k ≠ (CAN_PEER_V p j).key) (hhash : ∀ j < 12, k ≠ (CAN_THASH_V p j).key) (hleaf : ¬ leafKey k)
    (hlo : 0x800000 ≤ k) (hhi : k < 0x1000000) : ¬ (portDownKeys p cs k ∨ attachKeys k) := by
  rintro ((h | ⟨f, hf, h⟩ | ⟨hp, ⟨f, hf, h⟩ | ⟨j, hj, h⟩ | ⟨j, hj, h⟩⟩ | ⟨c, hc, f, hf, h⟩ | h | h | h) | h)
  · omega
  · exact hport f hf h
  · exact hcan f hf h
  · exact hpeer j hj h
  · exact hhash j hj h
  · have hge : ∀ f ∈ cellReach c, 0x1000000 ≤ f.key := by
      simp only [cellReach, List.forall_mem_cons, List.not_mem_nil, false_implies, implies_true, and_true, LC_CTL_RTRN, LC_STAT_STATE,
        LC_STAT_RATE, LC_STAT_ORIENT, LC_STAT_LOCKA, LC_STAT_LOCKB, LC_STAT_INVA, LC_STAT_INVB, LC_STAT_RANKA, LC_STAT_RANKB, LC_RTR_CONSEC,
        LC_FECA_CORR, LC_FECA_UNCORR, LC_FECB_CORR, LC_FECB_UNCORR, LC_HOLD_USED, LC_HOLD_PEAK, fld]
      omega
    have := hge f hf
    omega
  · simp only [RST_PRTRC_PORTS, fld] at h
    omega
  · simp only [RST_CAUSE_PORT, fld] at h
    omega
  · exact ne_evstat hleaf _ h
  · exact not_attachKeys_of_grove hleaf hlo hhi h

/-- The counter of failed tags stays through the port-down that follows (R232). -/
theorem not_portDownKeys_tagFail (p : Nat) (cs : List Nat) : ¬ (portDownKeys p cs (CAN_ERR2_TAGFAIL p).key ∨ attachKeys (CAN_ERR2_TAGFAIL p).key) := by
  have hplace := portPlace_lt p
  have hgrove := portGrove_lt p
  refine not_portDownKeys_of_grove cs ?_ ?_ (fun j hj => ?_) (fun j hj => ?_) (not_leafKey_tagFail p) ?_ ?_
  · simp only [portReach, List.forall_mem_cons, List.not_mem_nil, false_implies, implies_true, and_true, GRV_FLOW_STALL, GRV_FLOW_HEAD,
      GRV_FLOW_ICL, GRV_FLST_EGHELD, GRV_FLST_INHELD, GRV_FLST_TIMER, GRV_CALST_BT, ADP_STAT_STATE, ADP_STAT_PERS, ADP_STAT_RATE,
      ADP_STAT_WIDTH, ADP_STAT_SPEED, ADP_PCIE_EJREQ, ADP_PCIE_PRESENT, ADP_PCIE_DLLACT, ADP_PCIE_PIND, ADP_DP_SINKDSC,
      CAN_ERR2_TAGFAIL, fld, portReg]
    omega
  · simp only [canReach, List.forall_mem_cons, List.not_mem_nil, false_implies, implies_true, and_true, CAN_CTL_RETRAIN, CAN_STAT_STATE,
      CAN_STAT_MODE, CAN_STAT_ROLE, CAN_STAT_PKIND, CAN_STAT_TXEP, CAN_STAT_RXEP, CAN_ERR_UNCORR, CAN_ERR_RNAKTX, CAN_ERR_RNAKRX,
      CAN_ERR_CSLOT, CAN_ERR2_EARLY, TIM_LNKOFF_OFF, TIM_LNKDLY_DLY, TIM_LNK_SEQ, TIM_LNK_MISSED, TIM_LNK_EXCH, CAN_ERR2_TAGFAIL, fld, portReg]
    omega
  · simp only [CAN_ERR2_TAGFAIL, CAN_PEER_V, fld, portReg]
    omega
  · simp only [CAN_ERR2_TAGFAIL, CAN_THASH_V, fld, portReg]
    omega
  · simp only [CAN_ERR2_TAGFAIL, fld, portReg]
    omega
  · simp only [CAN_ERR2_TAGFAIL, fld, portReg]
    omega

theorem tagFail_effects (p : Nat) (s : State) :
    ((tagFail p s).can p).secTx = [] ∧ ((tagFail p s).can p).secRx = [] ∧ ((tagFail p s).can p).prk = [] ∧
      (tagFail p s).rd (CAN_ERR2_TAGFAIL p) = satInc 255 (s.rd (CAN_ERR2_TAGFAIL p)) ∧
      leafSet (tagFail p s) (portGrove p) 13 ∧ ((tagFail p s).eg p).waiting = true := by
  have hkeys := onlyKeys_portDownAttached p 1 (raise (portGrove p) 13 (s.inc (CAN_ERR2_TAGFAIL p)))
  unfold tagFail
  rw [can_portDownAttached, if_pos rfl]
  refine ⟨rfl, rfl, rfl, ?_, hkeys.2 _ _ (leafSet_raise _ _ _ (by decide)), waiting_portDownAttached ..⟩
  rw [hkeys.1 _ (not_portDownKeys_tagFail _ _), rd_raise_ne _ _ _ _ (ne_evstat (not_leafKey_tagFail p) _), rd_inc_eq_satInc]
  rfl

/-! ### Key updates (R237) -/

theorem exec_keyUpdateStart_idle {p : CanPort} {s : State} (h : epochWorn s p.val = false) : exec (.keyUpdateStart p) s = .next s := by
  simp [exec, execKeyUpdateStart, h]

theorem exec_keyUpdateStart_effects (p : CanPort) (s : State) (hact : canActive s p.val = true) (hupd : (s.can p.val).upd = none)
    (hworn : epochWorn s p.val = true) :
    ∃ t l, exec (.keyUpdateStart p) s = .next t ∧ (t.can p.val).upd = some l ∧ (t.can p.val).updAck = false ∧
      63 ≤ (l + 65536 - (s.can p.val).lunTx % 65536) % 65536 ∧
      t.sent = .can p.val "KUPD" [(s.rd (CAN_STAT_TXEP p.val) + 1) % 256, l] :: s.sent ∧ partsOnly [.freeCtr, .sent, .cn] s t := by
  let l := ((s.can p.val).lunTx + 63 + s.free.1 % 16384) % 65536
  have hexec : exec (.keyUpdateStart p) s =
      .next (sendKupd p.val l (s.free.2.setCan p.val { s.can p.val with upd := some l, updAck := false })) := by
    simp [exec, execKeyUpdateStart, hact, hupd, hworn, l]
  refine ⟨_, l, hexec, by simp [sendKupd], by simp [sendKupd], ?_, rfl, ?_⟩
  · have := Nat.mod_lt s.free.1 (show 0 < 16384 by decide)
    simp only [l]
    omega
  · exact partsOnly_of_parts fun k hk => State_emit_frame (testBit_sub rfl hk) (State_setCan_frame (testBit_sub rfl hk)
      (State_free_frame (testBit_sub rfl hk) (.refl k s)))

theorem exec_kupd_next {p : CanPort} {e : Byte} {l : BitVec 16} {s : State} (hact : canActive s p.val = true)
    (he : e.toNat = (s.rd (CAN_STAT_RXEP p.val) + 1) % 256) :
    exec (.kupd p e l) s = .next ((s.setCan p.val { s.can p.val with updRx := some (l.toNat, nextOf (s.can p.val).secRx) }).emit
      (.can p.val "KACK" [e.toNat])) := by
  simp [exec, execKupd, hact, he]

theorem exec_kupdRepeat {p : CanPort} {l : Nat} {s : State} (hact : canActive s p.val = true) (hupd : (s.can p.val).upd = some l)
    (hack : (s.can p.val).updAck = false) :
    exec (.kupdRepeat p) s = .next (s.emit (.can p.val "KUPD" [(s.rd (CAN_STAT_TXEP p.val) + 1) % 256, l])) := by
  simp [exec, execKupdRepeat, hact, hupd, hack, sendKupd]

theorem exec_kack_effects (p : CanPort) (e : Byte) (l : Nat) (s : State) (hact : canActive s p.val = true)
    (hupd : (s.can p.val).upd = some l) (he : e.toNat = (s.rd (CAN_STAT_TXEP p.val) + 1) % 256) :
    ∃ t, exec (.kack p e) s = .next t ∧ onlyWrites [CAN_STAT_TXEP p.val] [.cn] s t ∧
      (l ≠ (s.can p.val).lunTx → (t.can p.val).updAck = true ∧ t.rd (CAN_STAT_TXEP p.val) = s.rd (CAN_STAT_TXEP p.val)) ∧
      (l = (s.can p.val).lunTx → (t.can p.val).secTx = nextOf (s.can p.val).secTx ∧ (t.can p.val).upd = none ∧
        t.rd (CAN_STAT_TXEP p.val) = e.toNat) := by
  let acked := s.setCan p.val { s.can p.val with updAck := true }
  have hexec : exec (.kack p e) s = .next (switchTx p.val acked) := by
    simp [exec, execKack, hact, hupd, he, acked]
  have hset : onlyWrites [CAN_STAT_TXEP p.val] [.cn] s acked := onlyWrites_setCan _ s _ _
  by_cases hl : l = (s.can p.val).lunTx
  · refine ⟨_, hexec, ?_, fun h => absurd hl h, fun _ => ?_⟩
    · refine hset.trans ?_
      simp only [switchTx, acked, State.can_setCan_same, hupd, hl, and_self, if_true]
      exact (onlyWrites_setCan _ _ _ _).trans ((onlyWrites_wr _ _ _).mono (List.Subset.refl _) (by simp))
    · have hrd (x y : Can) : ((s.setCan p.val x).setCan p.val y).rd (CAN_STAT_TXEP p.val) = s.rd (CAN_STAT_TXEP p.val) := rfl
      simp only [switchTx, acked, State.can_setCan_same, hupd, hl, and_self, if_true, State.rd_incMod_same, hrd]
      simp [State.incMod, he]
      rfl
  · have hsame : switchTx p.val acked = acked := by simp [switchTx, acked, hupd, hl]
    rw [hsame] at hexec
    exact ⟨_, hexec, hset, fun _ => ⟨by simp [acked], rfl⟩, fun h => absurd h hl⟩

theorem exec_kackTimeout {p : CanPort} {l : Nat} {s : State} (hact : canActive s p.val = true) (hupd : (s.can p.val).upd = some l)
    (hack : (s.can p.val).updAck = false) : exec (.kackTimeout p) s = .next (portDownAttached p.val 1 s) := by
  simp [exec, execKackTimeout, hact, hupd, hack]

/-- Settles O14. -/
theorem recordsTagsAndKeyUpdates : Obligations.RecordsTagsAndKeyUpdates := by
  refine ⟨?_, ?_, ?_, exec_keyUpdateStart_effects, fun p s h => exec_keyUpdateStart_idle h, ?_, ?_, exec_kack_effects, ?_⟩
  · intro p s hact hsegs hupd
    exact ⟨_, exec_recordClose hact hsegs hupd, by simp [recordClosed], by simp [recordClosed], by simp [recordClosed], rfl,
      partsOnly_of_parts fun k hk => State_emit_frame (testBit_sub rfl hk) (State_setCan_frame (testBit_sub rfl hk) (.refl k s))⟩
  · intro p e r g s hact hdis hupd he hr hg
    exact ⟨_, exec_tag_checked hact hdis hupd he hr hg, by simp, by simp, by simp, by simp,
      partsOnly_of_frames (fun k hk => State_setCan_frame hk (.refl k s)) rfl⟩
  · intro p e r g s hact hdis hupd hg
    exact ⟨_, exec_tag_failed hact hdis hupd hg, tagFail_effects _ _⟩
  · intro p e l s hact he
    exact ⟨_, exec_kupd_next hact he, by simp, rfl,
      partsOnly_of_parts fun k hk => State_emit_frame (testBit_sub rfl hk) (State_setCan_frame (testBit_sub rfl hk) (.refl k s))⟩
  · exact fun p l s hact hupd hack => exec_kupdRepeat hact hupd hack
  · intro p l s hact hupd hack
    refine ⟨_, exec_kackTimeout hact hupd hack, ?_, ?_, waiting_portDownAttached ..⟩ <;> rw [can_portDownAttached, if_pos rfl] <;> rfl

end Sys2Proof.Machine
end

section
set_option Elab.async false
/-! Stalled ports, their fresh training, and the training of a link from its first step. -/

namespace Sys2Proof.Machine

open Sys2Proof Sys2Proof.Laws

/-- What a command leaves, by the table of what each touches. -/
theorem partsOnly_of_exec {c : Instr} {ps : List Part} {s t : State} (h : exec c s = .next t) (hs : touches c ⊆ ps) : partsOnly ps s t := by
  obtain ⟨u, hu, hp⟩ := everyCommandKeepsWhatItDoesNotTouch c s
  obtain rfl : u = t := by simpa [hu] using h
  exact hp.mono hs

/-- A value within its field's width reads back. -/
theorem rd_wr_of_lt (f : Fld) (v : Nat) (s : State) (h : v < 2 ^ f.w) : (s.wr f v).rd f = v := by
  rw [State.rd_wr_same, Nat.mod_eq_of_lt h]

@[simp] theorem State.sv_inc (s : State) (f : Fld) : (s.inc f).sv = s.sv := rfl
@[simp] theorem State.eg_inc (s : State) (f : Fld) (p : Nat) : (s.inc f).eg p = s.eg p := rfl

/-! ### A link's training (R240, R259) -/

/-- The two cells of a Canopy port are not of one rank. -/
theorem isY_portCells : ∀ p : CanPort, ∀ c ∈ portCells p.val, ∀ d ∈ portCells p.val, isY c = isY d → c = d := by decide

/-- The first training of a Canopy port: its single-cell mode, its own CAPS and the preference it goes by. -/
def canopyBegun (p : Nat) (s : State) : State :=
  let sg := match (portCells p).filter fun c => (s.lane c).faulted with | [] => 0 | c :: _ => if isY c then 1 else 2
  s.setCan p { s.can p with single := sg, own := ownCaps s p, wants := s.rd (CAN_CTL_PREF p) }

/-- A cell of the port that is not in FAULT is one that the training uses. -/
theorem liveCells_canopyBegun {p : CanPort} {c : Nat} {s : State} (hc : c ∈ portCells p.val) (hf : (s.lane c).faulted = false) :
    c ∈ liveCells (canopyBegun p.val s) p.val := by
  have hlane : ((canopyBegun p.val s).lane c).faulted = false := hf
  refine List.mem_filter.2 ⟨hc, ?_⟩
  rw [hlane]
  have hcan : ((canopyBegun p.val s).can p.val).single =
      match (portCells p.val).filter fun c => (s.lane c).faulted with | [] => 0 | c :: _ => if isY c then 1 else 2 := by
    simp [canopyBegun]
  rw [hcan]
  cases hbad : (portCells p.val).filter fun c => (s.lane c).faulted with
  | nil => rfl
  | cons d l =>
    obtain ⟨hd, hfd⟩ := List.mem_filter.1 (show d ∈ (portCells p.val).filter fun c => (s.lane c).faulted by simp [hbad])
    have hne : isY c ≠ isY d := fun e => by
      rw [isY_portCells p c hc d hd e, hfd] at hf
      cases hf
    cases hy : isY d <;> cases hx : isY c <;> simp_all

theorem rd_startCanopy (p : Nat) (s : State) (h : liveCells (canopyBegun p s) p ≠ []) : (startCanopy p s).rd (CAN_STAT_STATE p) = 1 := by
  have hplace := portPlace_lt p
  have hgrove := portGrove_lt p
  unfold startCanopy
  change (if liveCells (canopyBegun p s) p = [] then _ else _ : State).rd _ = 1
  rw [if_neg h]
  refine forAll_induction (P := fun u => u.rd (CAN_STAT_STATE p) = 1) ?_ fun c _ u hu => ?_
  · refine forAll_induction (P := fun u => u.rd (CAN_STAT_STATE p) = 1) ?_ fun c _ u hu => ?_
    · simp only [State.wrs_cons, State.wrs_nil]
      rw [State.rd_wr_ne, State.rd_wr_ne, rd_wr_of_lt _ _ _ (show 1 < 2 ^ 3 by decide)]
      all_goals
        simp only [CAN_STAT_STATE, CAN_STAT_MODE, CAN_STAT_ROLE, fld]
        omega
    · rw [State.rd_wr_ne, hu]
      simp only [CAN_STAT_STATE, LC_STAT_DIR, fld, portReg]
      omega
  · refine (State.rd_wrs_ne _ _ _ ?_).trans hu
    simp only [List.forall_mem_cons, List.not_mem_nil, false_implies, implies_true, and_true, CAN_STAT_STATE, LC_STAT_STATE, LC_STAT_RATE,
      LC_STAT_ORIENT, lockF, LC_STAT_LOCKA, LC_STAT_LOCKB, fld, portReg]
    simp only [Bool.false_eq_true, if_false, if_true]
    omega

theorem settleStall_of_stalled {p : Nat} {s : State} (h : portStalled s p = true) : settleStall p s = s := by
  simp [settleStall, h]

theorem exec_stallTimerExpiry_stalled {p : Port} {s : State} (hheld : s.on (GRV_FLST_EGHELD p.val) = true) (h : portStalled s p.val = true) :
    exec (.stallTimerExpiry p) s = .next ((portDownAttached p.val 1 s).inc (GRV_FLST_STALLS p.val)) := by
  simp [exec, execStallTimerExpiry, settleStall_of_stalled h, hheld]

theorem exec_stallTimerExpiry_free {p : Port} {s : State} (hheld : s.on (GRV_FLST_EGHELD p.val) = true) (h : portStalled s p.val = false) :
    exec (.stallTimerExpiry p) s = .next (s.wr (GRV_FLST_EGHELD p.val) 0) := by
  have hsettle : settleStall p.val s = s.wr (GRV_FLST_EGHELD p.val) 0 := by simp [settleStall, h, hheld]
  simp [exec, execStallTimerExpiry, hsettle, State.on]

theorem exec_stallTimerExpiry_idle {p : Port} {s : State} (hheld : s.on (GRV_FLST_EGHELD p.val) = false) :
    exec (.stallTimerExpiry p) s = .next s := by
  simp [exec, execStallTimerExpiry, settleStall, hheld]

theorem exec_portRetrainWait {p : Port} {s : State} (hw : (s.eg p.val).waiting = true) (hb : retrainBlocked s p.val = false) :
    exec (.portRetrainWait p) s = .next (startTraining p.val (s.setEg p.val { s.eg p.val with waiting := false })) := by
  simp [exec, execPortRetrainWait, hw, hb]

/-- A standard's link in training: its adapter shows it, whatever its cells write. -/
theorem rd_startTraining_standard {p : Nat} {s : State} (h : ¬ (p < 8 ∧ (s.can p).entered = 1)) :
    (startTraining p s).rd (ADP_STAT_STATE p) = 1 := by
  have hplace := portPlace_lt p
  have hgrove := portGrove_lt p
  simp only [startTraining, if_neg h]
  refine forAll_induction (P := fun u => u.rd (ADP_STAT_STATE p) = 1) (rd_wr_of_lt _ _ _ (show 1 < 2 ^ 4 by decide)) fun c _ u hu => ?_
  rw [State.rd_wrs_ne, hu]
  simp only [List.forall_mem_cons, List.not_mem_nil, false_implies, implies_true, and_true, ADP_STAT_STATE, LC_STAT_STATE, LC_STAT_ORIENT, fld, portReg]
  omega

theorem eg_startTraining (p q : Nat) (s : State) : (startTraining p s).eg q = s.eg q := by
  have h : (startTraining p s).fb = s.fb := startTraining_frame (κ := 10) rfl (.refl 10 s)
  simp only [State.eg, h]

theorem exec_portUpHold {p : Port} {s : State} (hup : portUp s p.val = true) :
    exec (.portUpHold p) s = .next (s.setEg p.val { s.eg p.val with wait := 1 }) := by
  simp [exec, execPortUpHold, hup]

/-- Settles O10. -/
theorem stalledPortsGoDownAndTrainAfresh : Obligations.StalledPortsGoDownAndTrainAfresh := by
  refine ⟨?_, ?_, ?_, ?_, ?_, ?_⟩
  · intro p s hheld hst
    have hexec := exec_stallTimerExpiry_stalled hheld hst
    exact ⟨_, hexec, by rw [State.sv_inc, mfind_att_portDownAttached], by rw [State.eg_inc, waiting_portDownAttached], partsOnly_of_exec hexec (List.Subset.refl _)⟩
  · intro p s hheld hst
    exact ⟨_, exec_stallTimerExpiry_free hheld hst, State.rd_wr_same .., onlyWrites_wr ..⟩
  · exact fun p s hheld => exec_stallTimerExpiry_idle hheld
  · intro p s hw hb hent
    have hexec := exec_portRetrainWait hw hb
    have hother : ¬ (p.val < 8 ∧ (s.can p.val).entered = 1) := by
      rintro ⟨hp, he⟩
      exact hent.elim (· he) (by omega)
    exact ⟨_, hexec, by simp [eg_startTraining], rd_startTraining_standard hother, partsOnly_of_exec hexec (by simp [touches])⟩
  · intro p s hw hb hent ⟨c, hc, hf⟩
    let t := s.setEg p.val { s.eg p.val with waiting := false }
    have hlive : liveCells (canopyBegun p.val t) p.val ≠ [] :=
      List.ne_nil_of_mem (liveCells_canopyBegun (s := t) hc hf)
    have hcanopy : startTraining p.val t = startCanopy p.val t := if_pos ⟨p.isLt, hent⟩
    have hexec := exec_portRetrainWait (p := ⟨p.val, by omega⟩) hw hb
    refine ⟨_, hexec, by simp [eg_startTraining], ?_⟩
    exact hcanopy ▸ rd_startCanopy _ _ hlive
  · intro p s hup
    have hexec := exec_portUpHold hup
    exact ⟨_, hexec, by simp, partsOnly_of_exec hexec (by simp [touches])⟩

end Sys2Proof.Machine
end

section
set_option Elab.async false
/-! The training of a lane cell: what TS1 and TS2 sequences set. -/

namespace Sys2Proof.Machine

open Sys2Proof Sys2Proof.Laws

/-! ### What training does to a cell -/

/-- The operations on a port's registers leave those of the regs component's readers alone: a reading after training sequences is as before. -/
@[simp] theorem rd_sendTraining (p : Nat) (ts2 lock : Bool) (pairs : List (Nat × Bool)) (s : State) (f : Fld) :
    (sendTraining p ts2 lock pairs s).rd f = s.rd f := by
  simp only [State.rd, show (sendTraining p ts2 lock pairs s).regs = s.regs from sendTraining_frame (κ := 1) rfl (.refl 1 s)]

theorem onlyWrites_sendTraining (fs : List Fld) (p : Nat) (ts2 lock : Bool) (pairs : List (Nat × Bool)) (s : State) :
    onlyWrites fs [.freeCtr, .sent] s (sendTraining p ts2 lock pairs s) :=
  ⟨fun _ _ => rd_sendTraining .., partsOnly_of_parts fun _ hk => sendTraining_frame (testBit_sub rfl hk) (.refl _ s)⟩

theorem exec_receiverDetect {c : LaneCell} {s : State} (hst : s.rd (LC_STAT_STATE c.val) = 1) (hp : cellPort c.val < 8)
    (he : (s.can (cellPort c.val)).entered = 1) :
    exec (.receiverDetect c) s =
      .next (sendTraining (cellPort c.val) false false (txPairs s [c.val]) (s.wr (LC_STAT_STATE c.val) lcTS1)) := by
  simp [exec, execReceiverDetect, hst, hp, he]

/-- The fields of a receive pair that training sequences set. -/
theorem pairLocks_rd (c : Nat) (b : Bool) (i : Nat) (v : Bool) (s : State) :
    (pairLocks c b i v s).rd (lockF c b) = 1 ∧ (pairLocks c b i v s).rd (invF c b) = b2n v ∧
      (pairLocks c b i v s).rd (rankF c b) = bits i 10 9 := by
  have hleaf : ¬ leafKey (lockF c b).key ∧ ¬ leafKey (invF c b).key ∧ ¬ leafKey (rankF c b).key := by
    cases b <;> simp only [leafKey, lockF, invF, rankF, LC_STAT_LOCKA, LC_STAT_LOCKB, LC_STAT_INVA, LC_STAT_INVB, LC_STAT_RANKA,
      LC_STAT_RANKB, fld, if_true, if_false, Bool.false_eq_true] <;> omega
  have hnodup : ([(lockF c b, 1), (invF c b, b2n v), (rankF c b, bits i 10 9), (losF c b, 0)].map fun x => x.1.key).Nodup := by
    cases b <;> simp [lockF, invF, rankF, losF, LC_STAT_LOCKA, LC_STAT_LOCKB, LC_STAT_INVA, LC_STAT_INVB, LC_STAT_RANKA,
      LC_STAT_RANKB, LC_STAT_LOSA, LC_STAT_LOSB, fld]
  have hset (e : Fld × Nat) (he : e ∈ [(lockF c b, 1), (invF c b, b2n v), (rankF c b, bits i 10 9), (losF c b, 0)])
      (hl : ¬ leafKey e.1.key) : (pairLocks c b i v s).rd e.1 = e.2 % 2 ^ e.1.w := by
    simp only [pairLocks]
    split
    · rw [rd_raise_ne _ _ _ _ (ne_evstat hl _), State.rd_wrs_of_mem hnodup he]
    · exact State.rd_wrs_of_mem hnodup he _
  have hw : (lockF c b).w = 1 ∧ (invF c b).w = 1 ∧ (rankF c b).w = 2 := by cases b <;> exact ⟨rfl, rfl, rfl⟩
  refine ⟨?_, ?_, ?_⟩
  · rw [hset (lockF c b, 1) (by simp) hleaf.1, hw.1]
    rfl
  · rw [hset (invF c b, b2n v) (by simp) hleaf.2.1, hw.2.1]
    cases v <;> rfl
  · rw [hset (rankF c b, bits i 10 9) (by simp) hleaf.2.2, hw.2.2, Nat.mod_eq_of_lt (bits_lt i 10 9)]

/-- The advance to TS2 changes states of cells alone among the registers. -/
theorem onlyKeys_advanceTs2 (p : Nat) (s : State) : onlyKeys (fun k => ∃ c, k = (LC_STAT_STATE c).key) s (advanceTs2 p s) := by
  unfold advanceTs2
  dsimp only
  refine .ite (.refl _ s) (onlyKeys_sendTraining _ _ _ _ (.forAll (.refl _ s) fun c _ u => .setLane (.ite (.wr (.refl _ u) ⟨c, rfl⟩ ?_) (.refl _ u))))
  exact not_leafKey_of_trainKey (trainKey_lcState c)

/-- A receive pair locked, with the sequences that follow once the port's last receive pair has lock (R258). -/
def ts1Locked (c : Nat) (b v : Bool) (i : Nat) (s : State) : State :=
  let p := cellPort c
  let t := pairLocks c b i v (askEngine c true b s)
  let locked (u : State) : Bool := (rxPairs u (liveCells u p)).all fun e => u.on (lockF e.1 e.2)
  if locked t && !locked s then sendTraining p false true (txPairs t (liveCells t p)) t else t

theorem onlyWrites_ts1Sequences (c : Nat) (b v : Bool) (i : Nat) (s : State) :
    onlyWrites [] [.freeCtr, .sent] (pairLocks c b i v (askEngine c true b s)) (ts1Locked c b v i s) := by
  unfold ts1Locked
  dsimp only
  split
  · exact onlyWrites_sendTraining ..
  · exact .refl ..

/-- A TS1 on a pair of a cell in training locks the pair; the cells may go on to TS2. -/
theorem exec_ts1_trains {c : LaneCell} {b v : Bool} {i : BitVec 11} {s : State} (hp : cellPort c.val < 8) (hrx : pairTx s c.val b = false)
    (hf : (s.lane c.val).faulted = false) (hone : bit i.toNat 6 = false) (htr : trainState (s.rd (LC_STAT_STATE c.val)) = true) :
    exec (.ts1 c b i v) s = .next (advanceTs2 (cellPort c.val) ((ts1Locked c.val b v i.toNat s).setLane c.val
      (if b then { (ts1Locked c.val b v i.toNat s).lane c.val with lockB := bit i.toNat 7 }
        else { (ts1Locked c.val b v i.toNat s).lane c.val with lockA := bit i.toNat 7 }))) := by
  have hup : s.rd (LC_STAT_STATE c.val) ≠ lcUP := by
    rintro e
    simp [e, trainState, lcTS1, lcRETRAIN, lcUP] at htr
  simp only [exec, execTs1, hp, hrx, hf, hone, hup, ts1Locked]
  simp [htr]

theorem ts1_effects (c : LaneCell) (b v : Bool) (i : BitVec 11) (s : State) (hp : cellPort c.val < 8) (hrx : pairTx s c.val b = false)
    (hf : (s.lane c.val).faulted = false) (hone : bit i.toNat 6 = false) (htr : trainState (s.rd (LC_STAT_STATE c.val)) = true) :
    ∃ t, exec (.ts1 c b i v) s = .next t ∧ t.rd (lockF c.val b) = 1 ∧ t.rd (invF c.val b) = b2n v ∧
      t.rd (rankF c.val b) = bits i.toNat 10 9 ∧ (v = true → leafSet t (32 + c.val) 5) ∧
      partsOnly [.regs, .freeCtr, .sent, .mg, .lc] s t := by
  let t := pairLocks c.val b i.toNat v (askEngine c.val true b s)
  let u := ts1Locked c.val b v i.toNat s
  have hu : onlyWrites [] [.freeCtr, .sent] t u := onlyWrites_ts1Sequences ..
  have hkept (x : Lane) (f : Fld) (hne : ∀ d, f.key ≠ (LC_STAT_STATE d).key) :
      (advanceTs2 (cellPort c.val) (u.setLane c.val x)).rd f = t.rd f := by
    rw [(onlyKeys_advanceTs2 _ _).1 f fun ⟨d, hd⟩ => hne d hd, State.rd_setLane, hu.1 f (by simp)]
  have hne : (∀ d, (lockF c.val b).key ≠ (LC_STAT_STATE d).key) ∧ (∀ d, (invF c.val b).key ≠ (LC_STAT_STATE d).key) ∧
      ∀ d, (rankF c.val b).key ≠ (LC_STAT_STATE d).key := by
    refine ⟨fun d => ?_, fun d => ?_, fun d => ?_⟩ <;> cases b <;> simp only [lockF, invF, rankF, LC_STAT_LOCKA, LC_STAT_LOCKB,
      LC_STAT_INVA, LC_STAT_INVB, LC_STAT_RANKA, LC_STAT_RANKB, LC_STAT_STATE, fld, if_true, if_false, Bool.false_eq_true] <;> omega
  obtain ⟨hlock, hinv, hrank⟩ := pairLocks_rd c.val b i.toNat v (askEngine c.val true b s)
  have hexec := exec_ts1_trains (v := v) hp hrx hf hone htr
  refine ⟨_, hexec, ?_, ?_, ?_, ?_, ?_⟩
  · rw [hkept _ _ hne.1, hlock]
  · rw [hkept _ _ hne.2.1, hinv]
  · rw [hkept _ _ hne.2.2, hrank]
  · rintro rfl
    refine (onlyKeys_advanceTs2 _ _).2 _ _ ?_
    have hstands : leafSet t (32 + c.val) 5 := leafSet_raise _ _ _ (by decide)
    rw [leafSet] at hstands ⊢
    rw [← hu.1 (EVSTAT (32 + c.val)) (by simp)] at hstands
    exact hstands
  · refine partsOnly.trans (t := t) ?_ (partsOnly.trans (t := u) (hu.2.mono (by simp)) ?_)
    · exact partsOnly_of_parts fun k hk => pairLocks_frame (testBit_sub rfl hk) (askEngine_frame (testBit_sub rfl hk) (.refl k s))
    · exact partsOnly_of_parts fun k hk => advanceTs2_frame (testBit_sub rfl hk) (State_setLane_frame (testBit_sub rfl hk) (.refl k u))

/-! ### TS2 (R258) -/

theorem exec_ts2_seed {c : LaneCell} {b : Bool} {k : Fin 16} {x : BitVec 31} {s : State} (hp : cellPort c.val < 8)
    (hrx : pairTx s c.val b = false) (hst : s.rd (LC_STAT_STATE c.val) = lcTS2) (hk : k.val ≠ 0) :
    exec (.ts2 c b k x) s = .next (s.setLane c.val
      (if b then { s.lane c.val with seedB := x.toNat } else { s.lane c.val with seedA := x.toNat })) := by
  simp [exec, execTs2, hp, hrx, hst, hk, lcTS2, lcUP]

/-- A cell that has come up: its seed taken, its shared engine asked for the periodic calibration (R258, R252). -/
def cellUp (c : Nat) (b : Bool) (x : Nat) (s : State) : State :=
  let y : Lane := if b then { s.lane c with seedB := x } else { s.lane c with seedA := x }
  let t := s.setLane c y
  askControl c ((t.wr (LC_STAT_STATE c) lcUP).setLane c { t.lane c with ts2 := false })

/-- The retrain that a cell has completed, counted (R260). -/
def retrainDone (c : Nat) (t : State) : State := raise (32 + c) 2 ((t.inc (LC_RTR_RETRAINS c)).wr (LC_RTR_CONSEC c) 0)

theorem exec_ts2_last {c : LaneCell} {b : Bool} {x : BitVec 31} {s : State} (hp : cellPort c.val < 8) (hrx : pairTx s c.val b = false)
    (hst : s.rd (LC_STAT_STATE c.val) = lcTS2 ∨ s.rd (LC_STAT_STATE c.val) = lcRETRAIN ∧ (s.lane c.val).ts2 = true) :
    exec (.ts2 c b 0 x) s = .next (portCellsUp (cellPort c.val) (s.rd (LC_STAT_STATE c.val) = lcRETRAIN)
      (if s.rd (LC_STAT_STATE c.val) = lcRETRAIN then retrainDone c.val (cellUp c.val b x.toNat s) else cellUp c.val b x.toNat s)) := by
  obtain h | ⟨h, h2⟩ := hst
  · simp [exec, execTs2, hp, hrx, h, lcTS2, lcRETRAIN, lcUP, cellUp]
  · simp [exec, execTs2, hp, hrx, h, h2, lcTS2, lcRETRAIN, lcUP, cellUp, retrainDone]

theorem rd_cellUp_state (c : Nat) (b : Bool) (x : Nat) (s : State) : (cellUp c b x s).rd (LC_STAT_STATE c) = lcUP := by
  have hcontrol (t : State) : (askControl c t).rd (LC_STAT_STATE c) = t.rd (LC_STAT_STATE c) := by
    simp only [State.rd, show (askControl c t).regs = t.regs from askControl_frame (κ := 1) rfl (.refl 1 t)]
  simp only [cellUp, hcontrol, State.rd_setLane]
  exact rd_wr_of_lt _ _ _ (show 4 < 2 ^ 4 by decide)

/-- The fields that a completed retrain counts in. -/
theorem onlyWrites_retrainDone (c : Nat) (t : State) :
    onlyWrites [LC_RTR_RETRAINS c, LC_RTR_CONSEC c, EVSTAT (32 + c)] [.mg] t (retrainDone c t) :=
  (((onlyWrites_inc _ t).mono (by simp) (by simp)).trans ((onlyWrites_wr _ _ _).mono (by simp) (by simp))).trans
    ((onlyWrites_raise _ _ _).mono (by simp) (by simp))

theorem rd_retrainDone_state (c : Nat) (t : State) : (retrainDone c t).rd (LC_STAT_STATE c) = t.rd (LC_STAT_STATE c) := by
  refine (onlyWrites_retrainDone c t).1 _ fun g hg => ?_
  simp only [List.mem_cons, List.not_mem_nil, or_false] at hg
  obtain rfl | rfl | rfl := hg
  · simp only [LC_STAT_STATE, LC_RTR_RETRAINS, fld]
    omega
  · simp only [LC_STAT_STATE, LC_RTR_CONSEC, fld]
    omega
  · exact ne_evstat (not_leafKey_of_trainKey (trainKey_lcState c)) _

/-- Outside a handshake, the cells of a port that are all up begin the exchange of CAPS or ask for the unit expected. -/
theorem portCellsUp_effects {p : Nat} {re : Bool} {s : State} (h : s.rd (CAN_STAT_STATE p) ≠ 3) :
    onlyWrites [CAN_STAT_STATE p, CAN_ERR_RNAKTX p] [.sent, .cn] s (portCellsUp p re s) := by
  have hturn : finishTurn p s = s := by simp [finishTurn, h]
  unfold portCellsUp
  rw [hturn]
  split
  · exact .refl ..
  split
  · exact ((onlyWrites_wr (CAN_STAT_STATE p) _ _).mono (by simp) (by simp)).trans ((onlyWrites_emit _ _ _).mono (List.Subset.refl _) (by simp))
  split
  · exact (discardFrom_effects p s).2.2.mono (by simp) (by simp)
  · exact .refl ..

/-- The state of a port's link is none of the fields that its cells write as they come up. -/
theorem rd_canState_cellUp (p c : Nat) (b : Bool) (x : Nat) (s : State) :
    (cellUp c b x s).rd (CAN_STAT_STATE p) = s.rd (CAN_STAT_STATE p) := by
  have hplace := portPlace_lt p
  have hgrove := portGrove_lt p
  have hcontrol (t : State) : (askControl c t).rd (CAN_STAT_STATE p) = t.rd (CAN_STAT_STATE p) := by
    simp only [State.rd, show (askControl c t).regs = t.regs from askControl_frame (κ := 1) rfl (.refl 1 t)]
  simp only [cellUp, hcontrol, State.rd_setLane]
  refine (State.rd_wr_ne _ _ _ _ ?_).trans (State.rd_setLane ..)
  simp only [CAN_STAT_STATE, LC_STAT_STATE, fld, portReg]
  omega

theorem not_leafKey_canState (p : Nat) : ¬ leafKey (CAN_STAT_STATE p).key := by
  have hplace := portPlace_lt p
  simp only [leafKey, CAN_STAT_STATE, fld, portReg]
  omega

theorem rd_canState_retrainDone (p c : Nat) (t : State) : (retrainDone c t).rd (CAN_STAT_STATE p) = t.rd (CAN_STAT_STATE p) := by
  have hplace := portPlace_lt p
  have hgrove := portGrove_lt p
  refine (onlyWrites_retrainDone c t).1 _ fun g hg => ?_
  simp only [List.mem_cons, List.not_mem_nil, or_false] at hg
  obtain rfl | rfl | rfl := hg
  · simp only [CAN_STAT_STATE, LC_RTR_RETRAINS, fld, portReg]
    omega
  · simp only [CAN_STAT_STATE, LC_RTR_CONSEC, fld, portReg]
    omega
  · exact ne_evstat (not_leafKey_canState p) _

/-- A cell's state is none of the fields of a link. -/
theorem rd_lcState_portCellsUp {p c : Nat} {re : Bool} {s : State} (h : s.rd (CAN_STAT_STATE p) ≠ 3) :
    (portCellsUp p re s).rd (LC_STAT_STATE c) = s.rd (LC_STAT_STATE c) := by
  have hplace := portPlace_lt p
  have hgrove := portGrove_lt p
  refine (portCellsUp_effects h).1 _ fun g hg => ?_
  simp only [List.mem_cons, List.not_mem_nil, or_false] at hg
  obtain rfl | rfl := hg <;> simp only [CAN_STAT_STATE, CAN_ERR_RNAKTX, LC_STAT_STATE, fld, portReg] <;> omega

theorem ts2_last_effects (c : LaneCell) (b : Bool) (x : BitVec 31) (s : State) (hp : cellPort c.val < 8) (hrx : pairTx s c.val b = false)
    (hst : s.rd (LC_STAT_STATE c.val) = lcTS2 ∨ s.rd (LC_STAT_STATE c.val) = lcRETRAIN ∧ (s.lane c.val).ts2 = true)
    (hcan : s.rd (CAN_STAT_STATE (cellPort c.val)) ≠ 3) :
    ∃ t, exec (.ts2 c b 0 x) s = .next t ∧ t.rd (LC_STAT_STATE c.val) = lcUP ∧ partsOnly [.regs, .sent, .mg, .cn, .lc] s t := by
  let u := if s.rd (LC_STAT_STATE c.val) = lcRETRAIN then retrainDone c.val (cellUp c.val b x.toNat s) else cellUp c.val b x.toNat s
  have hu : u.rd (CAN_STAT_STATE (cellPort c.val)) = s.rd (CAN_STAT_STATE (cellPort c.val)) ∧ u.rd (LC_STAT_STATE c.val) = lcUP ∧
      partsOnly [.regs, .mg, .lc] s u := by
    have hup : partsOnly [.regs, .mg, .lc] s (cellUp c.val b x.toNat s) := partsOnly_of_parts fun k hk =>
      askControl_frame (testBit_sub rfl hk) (State_setLane_frame (testBit_sub rfl hk) (State_wr_frame (testBit_sub rfl hk)
        (State_setLane_frame (testBit_sub rfl hk) (.refl k s))))
    simp only [u]
    split
    · rw [rd_canState_retrainDone, rd_canState_cellUp, rd_retrainDone_state, rd_cellUp_state]
      exact ⟨rfl, rfl, hup.trans ((onlyWrites_retrainDone _ _).2.mono (by simp))⟩
    · rw [rd_canState_cellUp, rd_cellUp_state]
      exact ⟨rfl, rfl, hup⟩
  obtain ⟨hstate, hlane, hparts⟩ := hu
  rw [← hstate] at hcan
  have hexec : exec (.ts2 c b 0 x) s = .next (portCellsUp (cellPort c.val) (s.rd (LC_STAT_STATE c.val) = lcRETRAIN) u) :=
    exec_ts2_last hp hrx hst
  refine ⟨_, hexec, ?_, (hparts.mono (by simp)).trans ((portCellsUp_effects hcan).2.mono (by simp))⟩
  rw [rd_lcState_portCellsUp hcan, hlane]

theorem exec_ts2_turned {c : LaneCell} {b : Bool} {x : BitVec 31} {s : State} (hp : cellPort c.val < 8) (hrx : pairTx s c.val b = false)
    (hst : s.rd (LC_STAT_STATE c.val) = lcUP) (hturn : (if b then (s.lane c.val).turnB else (s.lane c.val).turnA) = true)
    (hlock : s.on (lockF c.val b) = true) (hchk : (s.can (cellPort c.val)).checked = false) :
    exec (.ts2 c b 0 x) s = .next ((s.setLane c.val
      (if b then { s.lane c.val with seedB := x.toNat } else { s.lane c.val with seedA := x.toNat })).setLane c.val
      (if b then { s.lane c.val with seedB := x.toNat, turnB := false } else { s.lane c.val with seedA := x.toNat, turnA := false })) := by
  have hfin (t : State) (h : t.cn = s.cn) : finishTurn (cellPort c.val) t = t := by
    have : (t.can (cellPort c.val)).checked = false := by rw [State.can, h]; exact hchk
    simp [finishTurn, this]
  cases b <;> simp_all [exec, execTs2, lcUP, State.setLane]

/-- Settles O16. -/
theorem laneCellTraining : Obligations.LaneCellTraining := by
  refine ⟨?_, ts1_effects, ?_, ts2_last_effects, ?_⟩
  · intro c s hst hp he
    refine ⟨_, exec_receiverDetect hst hp he, ?_, ?_⟩
    · rw [rd_sendTraining]
      exact rd_wr_of_lt _ _ _ (show 2 < 2 ^ 4 by decide)
    · exact ((onlyWrites_wr _ _ _).mono (by simp) (by simp)).trans (onlyWrites_sendTraining ..)
  · intro c b k x s hp hrx hst hk
    refine ⟨_, exec_ts2_seed hp hrx hst hk, ?_, partsOnly_of_parts fun k hk => State_setLane_frame (testBit_sub rfl hk) (.refl k s)⟩
    cases b <;> simp
  · intro c b x s hp hrx hst hturn hlock hchk
    refine ⟨_, exec_ts2_turned hp hrx hst hturn hlock hchk, ?_, partsOnly_of_parts fun k hk =>
      State_setLane_frame (testBit_sub rfl hk) (State_setLane_frame (testBit_sub rfl hk) (.refl k s))⟩
    cases b <;> simp

end Sys2Proof.Machine
end

section
set_option Elab.async false
/-! The detectors of a lane cell, its single-cell mode, its failed retrains and its checkers. -/

namespace Sys2Proof.Machine

open Sys2Proof Sys2Proof.Laws

/-! ### A cell's detectors (R260 to R263, R213) -/

theorem los_effects (c : LaneCell) (b : Bool) (s : State) : ∃ t, exec (.los c b) s = .next t ∧ t.rd (losF c.val b) = 1 ∧
    leafSet t (32 + c.val) 0 ∧ partsOnly [.regs, .freeCtr, .sent, .mg, .lc] s t := by
  let u := raise (32 + c.val) 0 (s.wr (losF c.val b) 1)
  have hexec : exec (.los c b) s = .next (if cellPort c.val < 8 && !pairTx s c.val b then retrainCause (cellPort c.val) u else u) := rfl
  have hfield : ¬ leafKey (losF c.val b).key ∧ ¬ trainKey (losF c.val b).key := by
    cases b <;> simp only [leafKey, trainKey, losF, LC_STAT_LOSA, LC_STAT_LOSB, fld, if_true, if_false, Bool.false_eq_true] <;> omega
  have hw : 1 < 2 ^ (losF c.val b).w := by cases b <;> exact (show 1 < 2 ^ 1 by decide)
  have hrd : u.rd (losF c.val b) = 1 := by
    rw [rd_raise_ne _ _ _ _ (ne_evstat hfield.1 _), rd_wr_of_lt _ _ _ hw]
  have hleaf : leafSet u (32 + c.val) 0 := leafSet_raise _ _ _ (by decide)
  refine ⟨_, hexec, ?_, ?_, partsOnly_of_exec hexec (List.Subset.refl _)⟩
  · split
    · rw [(onlyKeys_retrainCause _ _).1 _ hfield.2, hrd]
    · exact hrd
  · split
    · exact (onlyKeys_retrainCause _ _).2 _ _ hleaf
    · exact hleaf

theorem onlyWrites.ite {fs : List Fld} {ps : List Part} {s t u : State} {c : Prop} [Decidable c] (ht : onlyWrites fs ps s t)
    (hu : onlyWrites fs ps s u) : onlyWrites fs ps s (if c then t else u) := by
  split <;> assumption

/-- What the pass over one element brings about, and every pass keeps, holds after the loop. -/
theorem forAll_establishes {P : State → Prop} {α : Type} {l : List α} {f : α → State → State} {x : α} (s : State) (hx : x ∈ l)
    (hset : ∀ u, P (f x u)) (hkeep : ∀ y ∈ l, ∀ u, P u → P (f y u)) : P (forAll l f s) := by
  obtain ⟨l₁, l₂, rfl⟩ := List.append_of_mem hx
  have hsplit : forAll (l₁ ++ x :: l₂) f s = forAll l₂ f (f x (forAll l₁ f s)) := by simp [forAll]
  rw [hsplit]
  exact forAll_induction (hset _) fun y hy => hkeep y (by simp [hy])

theorem rd_restore_ne {g : Fld} {fs : List Fld} (s : State) (h : ∀ f ∈ fs, g.key ≠ f.key) : (restore fs s).rd g = s.rd g :=
  forAll_induction (P := fun u => u.rd g = s.rd g) rfl fun f hf _ hu => (State.rd_wr_ne _ _ _ _ (h f hf)).trans hu

theorem lcState_key_inj {c d : Nat} (h : (LC_STAT_STATE c).key = (LC_STAT_STATE d).key) : c = d := by
  simp only [LC_STAT_STATE, fld] at h
  omega

/-- Every cell that trains has the state of its training. -/
theorem rd_lcState_trainCells {p st c : Nat} {s : State} (hst : st < 16) (hc : c ∈ liveCells s p) :
    (trainCells p st s).rd (LC_STAT_STATE c) = st := by
  have hlocks (d : Nat) : ∀ f ∈ [lockF d false, lockF d true], (LC_STAT_STATE c).key ≠ f.key := by
    intro f hf
    simp only [List.mem_cons, List.not_mem_nil, or_false] at hf
    obtain rfl | rfl := hf <;> simp only [LC_STAT_STATE, lockF, LC_STAT_LOCKA, LC_STAT_LOCKB, fld, if_true, if_false, Bool.false_eq_true] <;>
      omega
  have hset (u : State) : (u.wr (LC_STAT_STATE c) st).rd (LC_STAT_STATE c) = st := rd_wr_of_lt _ _ _ (show st < 2 ^ 4 from hst)
  unfold trainCells
  rw [rd_sendTraining]
  refine forAll_establishes (P := fun u => u.rd (LC_STAT_STATE c) = st) s hc (fun _ => ?_) fun d _ u hu => ?_
  · rw [State.rd_setLane, rd_restore_ne _ (hlocks c), hset]
  · rw [State.rd_setLane, rd_restore_ne _ (hlocks d)]
    by_cases hd : c = d
    · rw [← hd, hset]
    · rw [State.rd_wr_ne _ _ _ _ fun h => hd (lcState_key_inj h), hu]

theorem exec_losTimeout {p : CanPort} {s : State} (hrun : canRunning s p.val = true) (hlos : allLos s (liveCells s p.val) = true) :
    exec (.losTimeout ⟨p.val, by omega⟩) s = .next (portDownAttached p.val 1 s) := by
  simp [exec, execLosTimeout, hrun, hlos]

/-! ### Single-cell mode (R219) -/

theorem onlyKeys_structuralEvent (s : State) : onlyKeys attachKeys s (structuralEvent s) := by
  unfold structuralEvent
  refine .ite (.refl ..) (.ite (.wr (.refl ..) (.inl (by simp)) ?_) (onlyKeys_startSettle s))
  simp only [leafKey, SYS_SETTLE_PEND, fld]
  decide

theorem cn_structuralEvent (s : State) : (structuralEvent s).cn = s.cn := structuralEvent_frame (κ := 13) rfl (.refl 13 s)

/-- The link's mode is none of the fields of an attach event or of a cell in training. -/
theorem canMode_key (p : Nat) : ¬ attachKeys (CAN_STAT_MODE p).key ∧ ¬ trainKey (CAN_STAT_MODE p).key := by
  have hplace := portPlace_lt p
  have hgrove := portGrove_lt p
  have hleaf : ¬ leafKey (CAN_STAT_MODE p).key := by
    simp only [leafKey, CAN_STAT_MODE, fld, portReg]
    omega
  constructor
  · refine not_attachKeys_of_grove hleaf ?_ ?_ <;> simp only [CAN_STAT_MODE, fld, portReg] <;> omega
  · simp only [trainKey, CAN_STAT_MODE, fld, portReg]
    omega

theorem onlyKeys_trainSingle (p : Nat) (s : State) : onlyKeys trainKey s (trainSingle p s) :=
  .ite (onlyKeys_trainCells ..) (onlyKeys_trainCells ..)

theorem cn_trainSingle (p : Nat) (s : State) : (trainSingle p s).cn = s.cn := trainSingle_frame (κ := 13) rfl (.refl 13 s)

/-- A port that enters single-cell mode, before its cell trains. -/
def singleTaken (c : Nat) (s : State) : State :=
  let p := cellPort c
  let t := s.setCan p { s.can p with single := if isY c then 2 else 1 }
  let t := ((t.wr (CAN_STAT_MODE p) 3).wr (GRV_CALST_BT p) (byteTime 76800)).wr (LC_STAT_DIR c) (dirCode (isUpEnd s p) (isY c) 3)
  forAll ((portCells p).filter fun d => d ≠ c && !(s.lane d).faulted) (fun d u => u.wr (LC_STAT_STATE d) 0) t

theorem singleTaken_effects (c : Nat) (s : State) : (singleTaken c s).rd (CAN_STAT_MODE (cellPort c)) = 3 ∧
    ((singleTaken c s).can (cellPort c)).single ≠ 0 := by
  have hplace := portPlace_lt (cellPort c)
  have hgrove := portGrove_lt (cellPort c)
  constructor
  · refine forAll_induction (P := fun u => u.rd (CAN_STAT_MODE (cellPort c)) = 3) ?_ fun d _ u hu => ?_
    · rw [State.rd_wr_ne, State.rd_wr_ne, rd_wr_of_lt _ _ _ (show 3 < 2 ^ 2 by decide)]
      · simp only [CAN_STAT_MODE, GRV_CALST_BT, fld, portReg]
        omega
      · simp only [CAN_STAT_MODE, LC_STAT_DIR, fld, portReg]
        omega
    · rw [State.rd_wr_ne, hu]
      simp only [CAN_STAT_MODE, LC_STAT_STATE, fld, portReg]
      omega
  · refine forAll_induction (P := fun u => (u.can (cellPort c)).single ≠ 0) ?_ fun d _ u hu => hu
    simp only [State.can_wr, State.can_setCan_same]
    split <;> decide

/-- The single-cell mode stands once the port's cell trains. -/
theorem enterSingle_effects (c : Nat) (s : State) : (enterSingle c s).rd (CAN_STAT_MODE (cellPort c)) = 3 ∧
    ((enterSingle c s).can (cellPort c)).single ≠ 0 := by
  obtain ⟨hmode, hsingle⟩ := singleTaken_effects c s
  have hafter (u : State) (hr : u.regs = (singleTaken c s).regs) (hcn : u.cn = (singleTaken c s).cn) :
      (trainSingle (cellPort c) u).rd (CAN_STAT_MODE (cellPort c)) = 3 ∧ ((trainSingle (cellPort c) u).can (cellPort c)).single ≠ 0 := by
    rw [(onlyKeys_trainSingle _ _).1 _ (canMode_key _).2, State.rd, hr, State.can, cn_trainSingle, hcn]
    exact ⟨hmode, hsingle⟩
  have henter : enterSingle c s = match mfind (singleTaken c s).sv.att (cellPort c) with
      | none => trainSingle (cellPort c) (singleTaken c s)
      | some q => trainSingle (cellPort c) { singleTaken c s with sv := { (singleTaken c s).sv with
          att := mins (singleTaken c s).sv.att (cellPort c) { q with txMbps := 76800, rxMbps := 76800 } } } := rfl
  rw [henter]
  split
  · exact hafter _ rfl rfl
  · exact hafter _ rfl rfl

theorem mem_portCells {p d : Nat} : d ∈ portCells p ↔ d < 32 ∧ cellPort d = p := by
  simp [portCells]

theorem exec_cellLosTimeout_effects (c : LaneCell) (s : State) (hp : cellPort c.val < 8) (hdark : cellDark s c.val = true)
    (hact : canActive s (cellPort c.val) = true) (hsingle : (s.can (cellPort c.val)).single = 0) :
    ∃ t, exec (.cellLosTimeout c) s = .next t ∧ t.rd (CAN_STAT_MODE (cellPort c.val)) = 3 ∧ (t.can (cellPort c.val)).single ≠ 0 := by
  cases hfind : (liveCells s (cellPort c.val)).find? (· ≠ c.val) with
  | none =>
    have hnone : ∀ d ∈ liveCells s (cellPort c.val), d = c.val := by simpa using hfind
    simp only [cellDark, Bool.and_eq_true, decide_eq_true_eq] at hdark
    refine absurd (List.filter_eq_nil_iff.2 fun d hd => ?_) hdark.1.2
    simpa using hnone d hd
  | some d =>
    have hmem := List.mem_filter.1 (List.mem_of_find?_eq_some hfind)
    have hport : cellPort d = cellPort c.val := (mem_portCells.1 hmem.1).2
    have hd : (s.lane d).faulted = false := by
      have := hmem.2
      simp only [Bool.and_eq_true, Bool.not_eq_true'] at this
      exact this.1
    have htake : takeSingle d s = structuralEvent (enterSingle d s) := by simp [takeSingle, hport, hsingle, hd, hact]
    have hexec : exec (.cellLosTimeout c) s = .next (structuralEvent (enterSingle d s)) := by
      simp only [exec, execCellLosTimeout, hp, hdark, hfind, htake, decide_true, Bool.and_self, if_true]
    obtain ⟨hmode, hone⟩ := enterSingle_effects d s
    rw [hport] at hmode hone
    refine ⟨_, hexec, ?_, ?_⟩
    · rw [(onlyKeys_structuralEvent _).1 _ (canMode_key _).1, hmode]
    · rw [State.can, cn_structuralEvent]
      exact hone

/-! ### Retrains that fail (R260, R261) -/

/-- A loop over different elements whose pass over one of them alone changes a field changes it once. -/
theorem rd_forAll_once {α : Type} {l : List α} {f : α → State → State} {x : α} {g : Fld} {F : Nat → Nat} (s : State) (hl : l.Nodup)
    (hx : x ∈ l) (hset : ∀ u, (f x u).rd g = F (u.rd g)) (hkeep : ∀ y ∈ l, y ≠ x → ∀ u, (f y u).rd g = u.rd g) :
    (forAll l f s).rd g = F (s.rd g) := by
  obtain ⟨l₁, l₂, rfl⟩ := List.append_of_mem hx
  have hsplit : forAll (l₁ ++ x :: l₂) f s = forAll l₂ f (f x (forAll l₁ f s)) := by simp [forAll]
  obtain ⟨-, hl₂, hdis⟩ := List.nodup_append.1 hl
  have h₁ : (forAll l₁ f s).rd g = s.rd g := forAll_induction (P := fun u => u.rd g = s.rd g) rfl fun y hy u hu =>
    (hkeep y (by simp [hy]) (hdis y hy x (by simp)) u).trans hu
  have h₂ (t : State) : (forAll l₂ f t).rd g = t.rd g := forAll_induction (P := fun u => u.rd g = t.rd g) rfl fun y hy u hu =>
    (hkeep y (by simp [hy]) (fun e => (List.nodup_cons.1 hl₂).1 (e ▸ hy)) u).trans hu
  rw [hsplit, h₂, hset, h₁]

theorem nodup_liveCells (s : State) (p : Nat) : (liveCells s p).Nodup := (List.nodup_range.filter _).filter _

/-- The counter of failed retrains is none of the fields that follow a failed retrain. -/
theorem rd_fails_countFail (c d : Nat) (u : State) : (countFail d u).rd (LC_RTR_FAILS c) = u.rd (LC_RTR_FAILS c) := by
  have hleaf : ¬ leafKey (LC_RTR_FAILS c).key := by
    simp only [leafKey, LC_RTR_FAILS, fld]
    omega
  have hconsec : (LC_RTR_FAILS c).key ≠ (LC_RTR_CONSEC d).key := by
    simp only [LC_RTR_FAILS, LC_RTR_CONSEC, fld]
    omega
  have hstate : (LC_RTR_FAILS c).key ≠ (LC_STAT_STATE d).key := by
    simp only [LC_RTR_FAILS, LC_STAT_STATE, fld]
    omega
  unfold countFail
  dsimp only
  split
  · exact State.rd_wr_ne _ _ _ _ hconsec
  · rw [rd_raise_ne _ _ _ _ (ne_evstat hleaf _), State.rd_wr_ne _ _ _ _ hstate, State.rd_wr_ne _ _ _ _ hconsec]

theorem exec_retrainTimeout_effects (p : Port) (s : State) (c : Nat) (hc : c ∈ liveCells s p.val)
    (hst : s.rd (LC_STAT_STATE c) = lcRETRAIN) :
    ∃ t, exec (.retrainTimeout p) s = .next t ∧ t.rd (LC_RTR_FAILS c) = satInc (2 ^ (LC_RTR_FAILS c).w - 1) (s.rd (LC_RTR_FAILS c)) ∧
      partsOnly [.regs, .freeCtr, .sent, .mg, .lc] s t := by
  let cs := (liveCells s p.val).filter fun c => s.rd (LC_STAT_STATE c) = lcRETRAIN
  have hmem : c ∈ cs := List.mem_filter.2 ⟨hc, by simpa using hst⟩
  let t := forAll cs (fun c u => u.inc (LC_RTR_FAILS c)) s
  let u := if (liveCells s p.val).any (cellDark s) then t else forAll cs countFail t
  have hexec : exec (.retrainTimeout p) s = .next (if (liveCells u p.val).any (fun c => u.rd (LC_STAT_STATE c) = 8) then u
      else startRetrain p.val u) := by
    refine (if_neg (List.ne_nil_of_mem hmem) : _)
  have ht : t.rd (LC_RTR_FAILS c) = satInc (2 ^ (LC_RTR_FAILS c).w - 1) (s.rd (LC_RTR_FAILS c)) := by
    refine rd_forAll_once (F := satInc _) s ((nodup_liveCells s p.val).filter _) hmem (fun u => rd_inc_eq_satInc _ u) fun d _ hd u =>
      State.rd_inc_ne _ _ _ ?_
    simp only [LC_RTR_FAILS, fld]
    omega
  have hu : u.rd (LC_RTR_FAILS c) = t.rd (LC_RTR_FAILS c) := by
    simp only [u]
    split
    · rfl
    · exact forAll_induction (P := fun v => v.rd (LC_RTR_FAILS c) = t.rd (LC_RTR_FAILS c)) rfl fun d _ v hv =>
        (rd_fails_countFail c d v).trans hv
  refine ⟨_, hexec, ?_, partsOnly_of_exec hexec (List.Subset.refl _)⟩
  split
  · rw [hu, ht]
  · rw [startRetrain, (onlyKeys_trainCells _ _ _).1, hu, ht]
    simp only [trainKey, LC_RTR_FAILS, fld]
    omega

/-! ### The checker (R269 to R271, R278) -/

theorem exec_checkerSync_effects (c : LaneCell) (b : Bool) (s : State) (hchk : checks s c.val b = true) :
    ∃ t, exec (.checkerSync c b) s = .next t ∧ t.rd (if b then LC_CHKB_SYNC c.val else LC_CHKA_SYNC c.val) = 1 ∧
      onlyWrites [if b then LC_CHKB_SYNC c.val else LC_CHKA_SYNC c.val] [.lc] s t := by
  let t := if s.on (LC_CHKA_SYNC c.val) ∨ s.on (LC_CHKB_SYNC c.val) then s else s.setLane c.val { s.lane c.val with chkAt := s.clock }
  have hexec : exec (.checkerSync c b) s = .next (t.wr (if b then LC_CHKB_SYNC c.val else LC_CHKA_SYNC c.val) 1) := by
    simp [exec, execCheckerSync, hchk, t]
  have hw : 1 < 2 ^ (if b then LC_CHKB_SYNC c.val else LC_CHKA_SYNC c.val).w := by cases b <;> exact (show 1 < 2 ^ 1 by decide)
  have ht : onlyWrites [if b then LC_CHKB_SYNC c.val else LC_CHKA_SYNC c.val] [.lc] s t :=
    .ite (.refl ..) (onlyWrites_setLane ..)
  exact ⟨_, hexec, rd_wr_of_lt _ _ _ hw, ht.trans ((onlyWrites_wr _ _ _).mono (List.Subset.refl _) (by simp))⟩

theorem exec_checkerError_effects (c : LaneCell) (b : Bool) (s : State)
    (hsync : s.on (if b then LC_CHKB_SYNC c.val else LC_CHKA_SYNC c.val) = true) :
    ∃ t, exec (.checkerError c b) s = .next t ∧
      t.rd (if b then LC_CHKB_ERR c.val else LC_CHKA_ERR c.val) =
        satInc (2 ^ (LC_CHKA_ERR c.val).w - 1) (s.rd (if b then LC_CHKB_ERR c.val else LC_CHKA_ERR c.val)) ∧
      (s.rd (LC_CHKA_ERR c.val) = 0 → s.rd (LC_CHKB_ERR c.val) = 0 → leafSet t (32 + c.val) 7) ∧
      onlyWrites [if b then LC_CHKB_ERR c.val else LC_CHKA_ERR c.val, EVSTAT (32 + c.val)] [.mg] s t := by
  let f := if b then LC_CHKB_ERR c.val else LC_CHKA_ERR c.val
  have hexec : exec (.checkerError c b) s = .next (if s.rd (LC_CHKA_ERR c.val) = 0 ∧ s.rd (LC_CHKB_ERR c.val) = 0 then
      raise (32 + c.val) 7 (s.inc f) else s.inc f) := by
    simp [exec, execCheckerError, hsync, f]
  have hleaf : ¬ leafKey f.key := by
    cases b <;> simp only [leafKey, f, LC_CHKA_ERR, LC_CHKB_ERR, fld, if_true, if_false, Bool.false_eq_true] <;> omega
  have hinc : (s.inc f).rd f = satInc (2 ^ (LC_CHKA_ERR c.val).w - 1) (s.rd f) := by
    rw [rd_inc_eq_satInc]
    cases b <;> rfl
  have hframe : onlyWrites [f, EVSTAT (32 + c.val)] [.mg] s (s.inc f) := (onlyWrites_inc f s).mono (by simp) (by simp)
  refine ⟨_, hexec, ?_, fun ha hb => ?_, ?_⟩
  · change (if _ then _ else _ : State).rd f = _
    split
    · rw [rd_raise_ne _ _ _ _ (ne_evstat hleaf _), hinc]
    · exact hinc
  · rw [if_pos ⟨ha, hb⟩]
    exact leafSet_raise _ _ _ (by decide)
  · exact .ite (hframe.trans ((onlyWrites_raise (32 + c.val) _ _).mono (by simp) (by simp))) hframe

/-- Settles O17. -/
theorem detectorsAndTestLogic : Obligations.DetectorsAndTestLogic := by
  refine ⟨?_, los_effects, ?_, ?_, exec_cellLosTimeout_effects, exec_retrainTimeout_effects, exec_checkerSync_effects,
    exec_checkerError_effects, ?_⟩
  · intro c b s
    have hexec : exec (.lossOfLock c b) s = .next (loseLock c.val b s) := rfl
    exact ⟨_, hexec, (loseLock_effects c.val b s).1, (loseLock_effects c.val b s).2, partsOnly_of_exec hexec (List.Subset.refl _)⟩
  · intro p s hre
    have hexec : exec (.lossOfAlignment p) s = .next (retrainCause p.val s) := rfl
    have htrain : retrainCause p.val s = trainCells p.val lcRETRAIN s := if_pos hre
    refine ⟨_, hexec, fun c hc => ?_, partsOnly_of_exec hexec (List.Subset.refl _)⟩
    rw [htrain, rd_lcState_trainCells (by decide) hc]
  · intro p s hrun hlos
    have hexec := exec_losTimeout hrun hlos
    exact ⟨_, hexec, mfind_att_portDownAttached .., waiting_portDownAttached ..⟩
  · intro c s
    have hexec : exec (.injectComplete c) s = .next (s.wr (LC_INJ_GO c.val) 0) := rfl
    exact ⟨_, hexec, State.rd_wr_same .., onlyWrites_wr ..⟩

end Sys2Proof.Machine
end

section
set_option Elab.async false
/-! The bring-up of a Canopy link: the exchange of CAPS, the handshake, the active link, and the failure of a bring-up. -/

namespace Sys2Proof.Machine

open Sys2Proof Sys2Proof.Laws

/-! ### The state of a link, and what leaves it -/

/-- The link's state and the fields of its port's grove that a bring-up writes beside it have different keys. -/
theorem canState_grove (p : Nat) : 0x800000 ≤ (CAN_STAT_STATE p).key ∧ (CAN_STAT_STATE p).key < 0x1000000 := by
  have hplace := portPlace_lt p
  have hgrove := portGrove_lt p
  simp only [CAN_STAT_STATE, fld, portReg]
  omega

/-- Every field but the one given, and the leaves that stand. -/
abbrev butKey (f : Fld) (k : Nat) : Prop := k ≠ f.key

theorem rd_of_butKey {f : Fld} {s t : State} (h : onlyKeys (butKey f) s t) : t.rd f = s.rd f := h.1 f fun h => h rfl

theorem butKey_attachEvent {f : Fld} (hf : ¬ attachKeys f.key) (s : State) : onlyKeys (butKey f) s (attachEvent s) :=
  (onlyKeys_attachEvent s).mono fun _ hk e => hf (e ▸ hk)

/-! ### The bring-up begins (R240, R241) -/

theorem exec_enterMode_starts {p : CanPort} {s : State} (hconf : configured s p.val = true) (hoff : offersCanopy s p.val = true)
    (hcell : ∃ c ∈ portCells p.val, (s.lane c).faulted = false) (hhalt : s.on KEY_VAULT_HALT = false) :
    exec (.enterMode p) s = .next (startCanopy p.val (s.setCan p.val { s.can p.val with entered := 1 })) := by
  obtain ⟨c, hc, hf⟩ := hcell
  have hall : ((portCells p.val).all fun c => (s.lane c).faulted) = false := by
    simp only [List.all_eq_false]
    exact ⟨c, hc, by simp [hf]⟩
  simp [exec, execEnterMode, hconf, hoff, hall, hhalt]

/-- A cell of a Canopy port begins its training. -/
def cellStarts (p c : Nat) (u : State) : State :=
  (u.wrs [(LC_STAT_STATE c, 1), (LC_STAT_RATE c, 0x10), (LC_STAT_ORIENT c, b2n (u.can p).flip), (lockF c false, 0), (lockF c true, 0)]).setLane c
    { u.lane c with lockA := false, lockB := false, ts2 := false, turnA := false, turnB := false, runA := 0, runB := 0 }

/-- What the training that has begun writes beside the link's own state. -/
def canopyCells (p sg : Nat) (t : State) : State :=
  if liveCells t p = [] then t
  else forAll (liveCells t p) (cellStarts p) (setDirs p (if sg = 0 then 0 else 3) (t.wrs [(CAN_STAT_STATE p, 1),
    (CAN_STAT_MODE p, if sg = 0 then 0 else 3), (CAN_STAT_ROLE p, b2n (isUpEnd t p))]))

theorem startCanopy_eq (p : Nat) (s : State) : startCanopy p s =
    canopyCells p (match (portCells p).filter fun c => (s.lane c).faulted with | [] => 0 | c :: _ => if isY c then 1 else 2) (canopyBegun p s) :=
  rfl

theorem cn_canopyCells (p sg : Nat) (t : State) : (canopyCells p sg t).cn = t.cn := by
  unfold canopyCells
  split
  · rfl
  · exact forAll_frame (k := 13) (fun c u h => State_setLane_frame rfl (wrs_frame rfl h)) (setDirs_frame rfl (wrs_frame rfl (.refl 13 t)))

/-- The entered mode outlasts the first step of the bring-up. -/
theorem entered_startCanopy (p : Nat) (s : State) : ((startCanopy p s).can p).entered = (s.can p).entered := by
  rw [startCanopy_eq, State.can, cn_canopyCells]
  change ((canopyBegun p s).can p).entered = _
  simp [canopyBegun]

theorem exec_enterMode_refused {p : CanPort} {s : State} (h : configured s p.val = false ∨ offersCanopy s p.val = false) :
    exec (.enterMode p) s = .next s := by
  obtain h | h := h <;> simp [exec, execEnterMode, h]

/-! ### A handshake that fails (R241) -/

/-- A training that is no Canopy link's leaves the link's state and what the link holds. -/
theorem startTraining_other {p : Nat} {s : State} (h : ¬ (p < 8 ∧ (s.can p).entered = 1)) :
    (startTraining p s).cn = s.cn ∧ onlyKeys (butKey (CAN_STAT_STATE p)) s (startTraining p s) := by
  have hplace := portPlace_lt p
  have hgrove := portGrove_lt p
  have hkeys : butKey (CAN_STAT_STATE p) (ADP_STAT_STATE p).key ∧ ¬ leafKey (ADP_STAT_STATE p).key := by
    simp only [butKey, leafKey, CAN_STAT_STATE, ADP_STAT_STATE, fld, portReg]
    omega
  simp only [startTraining, if_neg h]
  constructor
  · exact forAll_induction (P := fun u => u.cn = s.cn) rfl fun _ _ _ hu => hu
  · refine .forAll (.wr (.refl _ s) hkeys.1 hkeys.2) fun c _ u => .wrs (.refl _ u) ?_
    simp only [List.forall_mem_cons, List.not_mem_nil, false_implies, implies_true, and_true, butKey, leafKey, CAN_STAT_STATE, LC_STAT_STATE,
      LC_STAT_ORIENT, fld, portReg]
    omega

/-- The port goes on to its next mode; the failure stands, and so does the link's state. -/
theorem enterChosen_effects {p : Nat} {s : State} (hf : (s.can p).failed = true) :
    ((enterChosen p s).can p).failed = true ∧ onlyKeys (butKey (CAN_STAT_STATE p)) s (enterChosen p s) := by
  unfold enterChosen
  split
  · exact ⟨by simpa using hf, .setCan (.refl _ s)⟩
  · exact ⟨by simpa using hf, .emit (.setCan (.refl _ s))⟩
  · next k h0 h1 =>
    obtain ⟨hcn, hkeys⟩ := startTraining_other (p := p)
      (s := (s.setCan p { s.can p with entered := chosenMode s p }).emit (.pd p (if chosenMode s p = 2 then "Enter_USB" else "Enter_Mode") [chosenMode s p]))
      (by simpa using fun _ => h1)
    refine ⟨?_, .trans (.emit (.setCan (.refl _ s))) hkeys⟩
    rw [State.can, hcn]
    simpa [State.can, State.setCan, State.emit, mget_mput_same] using hf

/-- The lanes stopped and the mode withdrawn, before the port goes on to its next mode (R241). -/
def bringUpFailed (p : Nat) (s : State) : State :=
  let c := s.can p
  let t := (clearPort p s).setCan p { flip := c.flip, failed := true, withdrawn := c.withdrawn ||| 1, supports := c.supports }
  let t := forAll (portCells p) (fun x u => u.setLane x { faulted := (u.lane x).faulted, chkAt := (u.lane x).chkAt }) t
  raise (portGrove p) 14 ((t.wr (CAN_STAT_STATE p) 6).emit (.pd p "Attention" [0x4F5A, 2]))

theorem bringUpFailed_effects (p : Nat) (s : State) : (bringUpFailed p s).rd (CAN_STAT_STATE p) = 6 ∧
    ((bringUpFailed p s).can p).failed = true ∧ leafSet (bringUpFailed p s) (portGrove p) 14 := by
  have hcn (u : State) (b : Nat) : (raise (portGrove p) b u).cn = u.cn := raise_frame (κ := 13) rfl (.refl 13 u)
  unfold bringUpFailed
  refine ⟨?_, ?_, leafSet_raise _ _ _ (by decide)⟩
  · rw [rd_raise_ne _ _ _ _ (ne_evstat (not_leafKey_canState p) _), State.rd_emit]
    exact rd_wr_of_lt _ _ _ (show 6 < 2 ^ 3 by decide)
  · rw [State.can, hcn]
    refine forAll_induction (P := fun u => (u.can p).failed = true) ?_ fun _ _ _ hu => hu
    simp

theorem handshakeFail_effects (p : Nat) (s : State) : (handshakeFail p s).rd (CAN_STAT_STATE p) = 6 ∧
    ((handshakeFail p s).can p).failed = true ∧ leafSet (handshakeFail p s) (portGrove p) 14 := by
  obtain ⟨hstate, hfailed, hleaf⟩ := bringUpFailed_effects p s
  have heq : handshakeFail p s = if 2 ≤ p then enterChosen p (bringUpFailed p s) else bringUpFailed p s := rfl
  obtain ⟨hf, hkeys⟩ := enterChosen_effects hfailed
  rw [heq]
  split
  · exact ⟨(rd_of_butKey hkeys).trans hstate, hf, hkeys.2 _ _ hleaf⟩
  · exact ⟨hstate, hfailed, hleaf⟩

theorem exec_trainingLimit_fails {p : CanPort} {s : State} (h : bringingUp s p.val = true) :
    exec (.trainingLimit p) s = .next (handshakeFail p.val s) := by
  simp [exec, execTrainingLimit, h]

theorem exec_trainingLimit_idle {p : CanPort} {s : State} (h : bringingUp s p.val = false) : exec (.trainingLimit p) s = .next s := by
  simp [exec, execTrainingLimit, h]

/-! ### The exchange of CAPS (R222, R240) -/

/-- The part of the partner's CAPS recorded. -/
def capsRecorded (p k x pref : Nat) (s : State) : State :=
  let c := s.can p
  let t := s.setCan p { c with caps := mins c.caps k x, pref := if k = 0 then pref else c.pref }
  if k = 0 then t else t.wr (CAN_PEER_V p (k - 1)) (x % 2 ^ 32)

theorem caps_capsRecorded (p k x m : Nat) (s : State) : ((capsRecorded p k x m s).can p).caps = mins (s.can p).caps k x := by
  unfold capsRecorded
  dsimp only
  split <;> simp

theorem exec_caps {p : CanPort} {k : Fin 4} {x : BitVec 36} {m : Fin 3} {s : State} (hst : s.rd (CAN_STAT_STATE p.val) = 2)
    (hver : k.val = 0 → bits x.toNat 35 32 = 1 ∧ bit x.toNat 31 = isUpEnd s p.val) :
    exec (.caps p k x m) s = .next (if (mins (s.can p.val).caps k.val x.toNat).length = 4 then
      endCaps p.val (capsRecorded p.val k.val x.toNat m.val s) else capsRecorded p.val k.val x.toNat m.val s) := by
  have hup : isUpEnd (capsRecorded p.val k.val x.toNat m.val s) p.val = isUpEnd s p.val := by
    unfold capsRecorded
    dsimp only
    split <;> rfl
  have hgood : ¬ (k.val = 0 ∧ (bits x.toNat 35 32 ≠ 1 ∨ bit x.toNat 31 = !isUpEnd s p.val)) := by
    rintro ⟨h0, h⟩
    obtain ⟨hv, hr⟩ := hver h0
    rw [hr] at h
    cases isUpEnd s p.val <;> simp [hv] at h
  rw [← caps_capsRecorded p.val k.val x.toNat m.val s]
  simp only [exec, execCaps, hst, OfNat.ofNat_ne_one, or_true, if_false, hgood]
  rfl

@[simp] theorem State.rd_free (s : State) (f : Fld) : s.free.2.rd f = s.rd f := rfl

/-- The link's mode as the exchange of CAPS settles it, with the state of the handshake (R218, R240). -/
def modeSettled (p : Nat) (s : State) : State :=
  setDirs p (settledMode s p) (s.wrs [(CAN_STAT_MODE p, settledMode s p), (CAN_STAT_STATE p, 3),
    (CAN_STAT_PKIND p, bits (mget 0 (s.can p).caps 0) 30 29)])

theorem rd_modeSettled (p : Nat) (s : State) : (modeSettled p s).rd (CAN_STAT_STATE p) = 3 := by
  have hplace := portPlace_lt p
  have hgrove := portGrove_lt p
  refine forAll_induction (P := fun u => u.rd (CAN_STAT_STATE p) = 3) ?_ fun c _ u hu => ?_
  · refine (State.rd_wrs_of_mem (e := (CAN_STAT_STATE p, 3)) ?_ (by simp) s).trans rfl
    simp only [List.map_cons, List.map_nil, List.nodup_cons, List.mem_cons, List.not_mem_nil, or_false, CAN_STAT_MODE, CAN_STAT_STATE,
      CAN_STAT_PKIND, fld, not_false_eq_true, and_true, List.nodup_nil]
    omega
  · rw [State.rd_wr_ne, hu]
    simp only [CAN_STAT_STATE, LC_STAT_DIR, fld, portReg]
    omega

/-- The exchange of CAPS ends with a key share, in the state of the handshake. -/
theorem endCaps_effects {p : Nat} {s : State} (hheld : vaultHeld s = false) (hver : bits (mget 0 (s.can p).caps 0) 35 32 = 1)
    (hrole : bit (mget 0 (s.can p).caps 0) 31 = isUpEnd s p) :
    (endCaps p s).rd (CAN_STAT_STATE p) = 3 ∧ ∃ l, Out.can p "KSHARE" l ∈ (endCaps p s).sent := by
  have hplace := portPlace_lt p
  have hgrove := portGrove_lt p
  have hgood : ¬ (bits (mget 0 (s.can p).caps 0) 35 32 ≠ 1 ∨ bit (mget 0 (s.can p).caps 0) 31 = !isUpEnd s p) := by
    rw [hver, hrole]
    cases isUpEnd s p <;> simp
  have hlock (c : Nat) (b : Bool) : (CAN_STAT_STATE p).key ≠ (lockF c b).key := by
    cases b <;> simp only [CAN_STAT_STATE, lockF, LC_STAT_LOCKA, LC_STAT_LOCKB, fld, portReg, if_true, if_false, Bool.false_eq_true] <;> omega
  unfold endCaps
  simp only [hheld, hgood, if_false, Bool.false_eq_true]
  refine ⟨?_, _, List.mem_cons_self ..⟩
  rw [State.rd_emit, State.rd_setCan, rd_restore_ne]
  · rw [State.rd_free, rd_sendTraining, rd_sendTraining]
    refine forAll_induction (P := fun u => u.rd (CAN_STAT_STATE p) = 3) ?_ fun _ _ _ hu => hu
    rw [rd_restore_ne]
    · exact rd_modeSettled p s
    · intro f hf
      simp only [List.mem_flatMap, List.mem_map] at hf
      obtain ⟨c, -, b, -, rfl⟩ := hf
      exact hlock c b
  · simp only [List.forall_mem_cons, List.not_mem_nil, false_implies, implies_true, and_true, CAN_STAT_STATE, KEY_SLOT_STATE, fld, portReg]
    omega

/-- What the recording of a part of the CAPS leaves. -/
theorem capsRecorded_rest (p k x m : Nat) (s : State) : vaultHeld (capsRecorded p k x m s) = vaultHeld s ∧
    isUpEnd (capsRecorded p k x m s) p = isUpEnd s p := by
  have hplace := portPlace_lt p
  have hgrove := portGrove_lt p
  have hon (f : Fld) (hf : f.key < 0x800000) : (capsRecorded p k x m s).on f = s.on f := by
    have hrd : (capsRecorded p k x m s).rd f = s.rd f := by
      unfold capsRecorded
      dsimp only
      split
      · rfl
      · refine (State.rd_wr_ne _ _ _ _ ?_).trans (State.rd_setCan ..)
        simp only [CAN_PEER_V, fld, portReg]
        omega
    simp only [State.on, hrd]
  constructor
  · simp only [vaultHeld]
    rw [hon _ (by decide), hon _ (by decide), hon _ (by decide)]
  · unfold capsRecorded
    dsimp only
    split <;> rfl

theorem exec_caps_whole (p : CanPort) (k : Fin 4) (x : BitVec 36) (m : Fin 3) (s : State) (hst : s.rd (CAN_STAT_STATE p.val) = 2)
    (hheld : vaultHeld s = false) (hlen : (mins (s.can p.val).caps k.val x.toNat).length = 4)
    (hver : bits (mget 0 (mins (s.can p.val).caps k.val x.toNat) 0) 35 32 = 1)
    (hrole : bit (mget 0 (mins (s.can p.val).caps k.val x.toNat) 0) 31 = isUpEnd s p.val) :
    ∃ t, exec (.caps p k x m) s = .next t ∧ t.rd (CAN_STAT_STATE p.val) = 3 ∧ (∃ l, Out.can p.val "KSHARE" l ∈ t.sent) := by
  have hown : k.val = 0 → bits x.toNat 35 32 = 1 ∧ bit x.toNat 31 = isUpEnd s p.val := by
    intro h0
    rw [h0, mget_mins_same] at hver hrole
    exact ⟨hver, hrole⟩
  have hexec := exec_caps (m := m) hst hown
  rw [if_pos hlen] at hexec
  obtain ⟨hvault, hup⟩ := capsRecorded_rest p.val k.val x.toNat m.val s
  refine ⟨_, hexec, endCaps_effects (hvault.trans hheld) ?_ ?_⟩
  · rw [caps_capsRecorded, hver]
  · rw [caps_capsRecorded, hrole, hup]

/-! ### The key share and the handshake (R236, R240) -/

/-- A word of the partner's key share recorded. -/
def shareRecorded (p k w : Nat) (s : State) : State := s.setCan p { s.can p with share := mins (s.can p).share k w }

theorem exec_kshare {p : CanPort} {k : Fin 24} {w : Word} {s : State} (hst : s.rd (CAN_STAT_STATE p.val) = 3)
    (hprk : (s.can p.val).prk = []) (hheld : vaultHeld s = false) :
    exec (.kshare p k w) s = .next (if (mins (s.can p.val).share k.val w.toNat).length = 24 then
      deriveKeys p.val (shareRecorded p.val k.val w.toNat s) else shareRecorded p.val k.val w.toNat s) := by
  simp [exec, execKshare, hst, hprk, hheld, shareRecorded]

/-- What each pass of a loop sends has been sent after it. -/
theorem mem_sent_forAll_emit {α : Type} {l : List α} {o : Out} (s : State) (hl : l ≠ []) : o ∈ (forAll l (fun _ u => u.emit o) s).sent := by
  obtain ⟨x, hx⟩ := List.exists_mem_of_ne_nil l hl
  exact forAll_establishes (P := fun u => o ∈ u.sent) s hx (fun _ => List.mem_cons_self ..) fun _ _ _ hu => List.mem_cons_of_mem _ hu

/-- A valid public key brings HSFIN, and changes the transcript, what is sent and the link's secrets. -/
theorem deriveKeys_effects {p : Nat} {s : State}
    (hpoint : Config.pointOk ((List.range 24).flatMap fun j => beBytes 4 (mget 0 (s.can p).share j)) = true) :
    (∃ v, Out.can p "HSFIN" [v] ∈ (deriveKeys p s).sent) ∧ partsOnly [.regs, .sent, .cn] s (deriveKeys p s) := by
  unfold deriveKeys
  simp only [hpoint, Bool.not_true, Bool.false_eq_true, if_false]
  refine ⟨⟨_, mem_sent_forAll_emit _ (by decide)⟩, partsOnly_of_parts fun k hk => ?_⟩
  · refine forAll_frame (fun _ _ h => State_emit_frame (testBit_sub rfl hk) h) (State_setCan_frame (testBit_sub rfl hk) ?_)
    exact forAll_frame (fun _ _ h => State_wr_frame (testBit_sub rfl hk) h) (.refl k s)

theorem exec_hsfin_checks {p : CanPort} {v : Word} {s : State} (hst : s.rd (CAN_STAT_STATE p.val) = 3) (hheld : vaultHeld s = false)
    (hprk : (s.can p.val).prk ≠ []) (hv : v.toNat = verifyOf (s.can p.val).prk (thBytes s p.val) (b2n (isUpEnd s p.val))) :
    exec (.hsfin p v) s = .next (if turning s p.val then s.setCan p.val { s.can p.val with checked := true } else linkActive p.val s) := by
  simp [exec, execHsfin, hst, hheld, hprk, hv]

theorem exec_hsfin_fails {p : CanPort} {v : Word} {s : State} (hst : s.rd (CAN_STAT_STATE p.val) = 3) (hheld : vaultHeld s = false)
    (hv : v.toNat ≠ verifyOf (s.can p.val).prk (thBytes s p.val) (b2n (isUpEnd s p.val))) :
    exec (.hsfin p v) s = .next (handshakeFail p.val s) := by
  simp [exec, execHsfin, hst, hheld, hv]

/-! ### The link becomes active (R240 step 6, R22, R243) -/

theorem onlyKeys_attachPartner {f : Fld} (hf : ¬ attachKeys f.key) (p : Nat) (q : Partner) (s : State) :
    onlyKeys (butKey f) s (attachPartner p q s) := by
  have hset (v : Solver) : onlyKeys (butKey f) s { s with sv := v } := .of_regs (.refl _ s) rfl
  exact (hset _).trans (butKey_attachEvent hf _)

theorem mfind_att_attachPartner (p : Nat) (q : Partner) (s : State) : mfind (attachPartner p q s).sv.att p = some q := by
  unfold attachPartner
  rw [att_attachEvent, mfind_mins, if_pos rfl]

/-- The link shown active, with its leaf. -/
def linkShown (p : Nat) (s : State) : State :=
  raise (portGrove p) 11 ((s.setCan p { s.can p with epochAt := s.clock }).wr (CAN_STAT_STATE p) 4)

/-- The link active and its partner attached. -/
def linkAttached (p : Nat) (s : State) : State :=
  attachPartner p (canPartner (linkShown p s) p)
    ((linkShown p s).wr (GRV_CALST_BT p) (byteTime (canPartner (linkShown p s) p).txMbps))

theorem not_attachKeys_canState (p : Nat) : ¬ attachKeys (CAN_STAT_STATE p).key :=
  not_attachKeys_of_grove (not_leafKey_canState p) (canState_grove p).1 (canState_grove p).2

theorem linkAttached_effects (p : Nat) (s : State) : (linkAttached p s).rd (CAN_STAT_STATE p) = 4 ∧
    leafSet (linkAttached p s) (portGrove p) 11 ∧ mfind (linkAttached p s).sv.att p ≠ none := by
  have hplace := portPlace_lt p
  have hshown : (linkShown p s).rd (CAN_STAT_STATE p) = 4 ∧ leafSet (linkShown p s) (portGrove p) 11 := by
    unfold linkShown
    rw [rd_raise_ne _ _ _ _ (ne_evstat (not_leafKey_canState p) _)]
    exact ⟨rd_wr_of_lt _ _ _ (show 4 < 2 ^ 3 by decide), leafSet_raise _ _ _ (by decide)⟩
  have hbt : butKey (CAN_STAT_STATE p) (GRV_CALST_BT p).key ∧ ¬ leafKey (GRV_CALST_BT p).key := by
    simp only [butKey, leafKey, CAN_STAT_STATE, GRV_CALST_BT, fld, portReg]
    omega
  unfold linkAttached
  generalize linkShown p s = t at hshown ⊢
  have hkeys := (onlyKeys.wr (v := byteTime (canPartner t p).txMbps) (.refl (butKey (CAN_STAT_STATE p)) t) hbt.1 hbt.2).trans
    (onlyKeys_attachPartner (not_attachKeys_canState p) p (canPartner t p) _)
  refine ⟨(rd_of_butKey hkeys).trans hshown.1, hkeys.2 _ _ hshown.2, ?_⟩
  rw [mfind_att_attachPartner]
  simp

/-- What the hub does for its upstream link beside the attach: the management tunnel, its credit and the child's report (R100, R243). -/
def upstreamActive (p : Nat) (t : State) : State :=
  let t := activateMgmt p t
  let t := if tunActive t p then sendCredit p (t.setCredit p {}) else t
  let t := writeReport p (t.rd (CAN_UPHDR_HUBS p)) t
  let t := if hubAbove t p then t.wr SYS_EVMASK_TUN_MASK (t.rd SYS_EVMASK_TUN_MASK ||| 2 ^ portGrove p) else t
  tunReportState p t

theorem linkActive_eq (p : Nat) (s : State) :
    linkActive p s = if p < 2 ∧ !isDown (linkAttached p s) p then upstreamActive p (linkAttached p s) else linkAttached p s := rfl

theorem sv_upstreamActive (p : Nat) (t : State) : (upstreamActive p t).sv = t.sv := by
  have hframe : Frame 9 t (upstreamActive p t) := by
    unfold upstreamActive
    refine tunReportState_frame rfl (Frame.ite (State_wr_frame rfl ?_) ?_)
    all_goals exact writeReport_frame rfl (Frame.ite (sendCredit_frame rfl (State_setCredit_frame rfl (activateMgmt_frame rfl (.refl 9 t))))
      (activateMgmt_frame rfl (.refl 9 t)))
  exact hframe

theorem onlyKeys_activateMgmt {K : Nat → Prop} (hK : ∀ k, 0x2000000 ≤ k → K k) (n : Nat) (s : State) : onlyKeys K s (activateMgmt n s) := by
  unfold activateMgmt
  split
  · exact .refl ..
  · refine .of_regs (.wrs (l := _) (.refl K s) ?_) rfl
    simp only [List.forall_mem_cons, List.not_mem_nil, false_implies, implies_true, and_true]
    refine ⟨⟨hK _ ?_, ?_⟩, ⟨hK _ ?_, ?_⟩, ⟨hK _ ?_, ?_⟩, ⟨hK _ ?_, ?_⟩, ⟨hK _ ?_, ?_⟩, ⟨hK _ ?_, ?_⟩, ⟨hK _ ?_, ?_⟩, ⟨hK _ ?_, ?_⟩,
      ⟨hK _ ?_, ?_⟩, ⟨hK _ ?_, ?_⟩, ⟨hK _ ?_, ?_⟩, ⟨hK _ ?_, ?_⟩⟩ <;>
    simp only [leafKey, TT_STATE_STATE, TT_STATE_GEN, TT_STATE_KIND, TT_STATE_CLS, TT_ENDP_INPORT, TT_ENDP_OUTPORT, TT_ENDP_INFAB,
      TT_ENDP_OUTFAB, TT_REQ_PORT, TT_REQ_KIND, TT_SEQ_INSEQ, TT_SEQ_OUTSEQ, fld] <;> omega

/-- The child's report is written in the crown port's own range (R250). -/
theorem onlyKeys_writeReport (p h : Nat) (u : State) : onlyKeys (butKey (CAN_STAT_STATE p)) u (writeReport p h u) := by
  have hplace := portPlace_lt p
  have hgrove := portGrove_lt p
  have hleaf := ne_evstat (not_leafKey_canState p) p
  unfold writeReport
  refine .raise (.wr (.wr (.forAll (.refl _ u) fun k hk v => .wrs (.refl _ v) ?_) ?_ ?_) ?_ ?_) (Ne.symm hleaf)
  · have hlt := List.mem_range.1 hk
    simp only [List.forall_mem_cons, List.not_mem_nil, false_implies, implies_true, and_true, butKey, leafKey, CAN_STAT_STATE,
      CAN_UPREP_VALID, CAN_UPREP_CLS, CAN_UPREP_CEIL, CAN_UPREP_FLOOR, fld, portReg]
    omega
  all_goals
    simp only [butKey, leafKey, CAN_STAT_STATE, CAN_UPHDR_HUBS, CAN_UPHDR_SERIAL, fld, portReg]
    omega

theorem onlyKeys_upstreamActive (p : Nat) (t : State) : onlyKeys (butKey (CAN_STAT_STATE p)) t (upstreamActive p t) := by
  have htt (k : Nat) (hk : 0x2000000 ≤ k) : butKey (CAN_STAT_STATE p) k := by
    have := (canState_grove p).2
    simp only [butKey]
    omega
  have hmask : butKey (CAN_STAT_STATE p) SYS_EVMASK_TUN_MASK.key ∧ ¬ leafKey SYS_EVMASK_TUN_MASK.key := by
    have := (canState_grove p).1
    simp only [butKey, leafKey, SYS_EVMASK_TUN_MASK, fld] at this ⊢
    omega
  have hcredit (u : State) : onlyKeys (butKey (CAN_STAT_STATE p)) u (sendCredit p (u.setCredit p {})) := .of_regs (.refl _ u) rfl
  have hdue (u : State) : (tunReportState p u).regs = u.regs := tunReportState_frame (κ := 1) rfl (.refl 1 u)
  unfold upstreamActive
  dsimp only
  refine .of_regs ?_ (hdue _)
  have hmasked : ∀ u, onlyKeys (butKey (CAN_STAT_STATE p)) t u → onlyKeys (butKey (CAN_STAT_STATE p)) t
      (if hubAbove u p then u.wr SYS_EVMASK_TUN_MASK (u.rd SYS_EVMASK_TUN_MASK ||| 2 ^ portGrove p) else u) :=
    fun u h => .ite (.wr h hmask.1 hmask.2) h
  exact hmasked _ (.trans (.ite (.trans (onlyKeys_activateMgmt htt p t) (hcredit _)) (onlyKeys_activateMgmt htt p t)) (onlyKeys_writeReport p _ _))

theorem linkActive_effects (p : Nat) (s : State) : (linkActive p s).rd (CAN_STAT_STATE p) = 4 ∧
    leafSet (linkActive p s) (portGrove p) 11 ∧ mfind (linkActive p s).sv.att p ≠ none := by
  obtain ⟨hstate, hleaf, hatt⟩ := linkAttached_effects p s
  rw [linkActive_eq]
  split
  · have hkeys := onlyKeys_upstreamActive p (linkAttached p s)
    exact ⟨(rd_of_butKey hkeys).trans hstate, hkeys.2 _ _ hleaf, by rwa [sv_upstreamActive]⟩
  · exact ⟨hstate, hleaf, hatt⟩

/-- Settles O15. -/
theorem canopyBringUp : Obligations.CanopyBringUp := by
  refine ⟨?_, fun p s h => exec_enterMode_refused h, ?_, ?_, exec_caps_whole, ?_, ?_, ?_, ?_, ?_, ?_, fun p s h => exec_trainingLimit_idle h⟩
  · intro p s hconf hoff hcell hhalt
    let t := s.setCan p.val { s.can p.val with entered := 1 }
    obtain ⟨c, hc, hf⟩ := hcell
    have hlive : liveCells (canopyBegun p.val t) p.val ≠ [] := List.ne_nil_of_mem (liveCells_canopyBegun (s := t) hc hf)
    have hexec := exec_enterMode_starts hconf hoff ⟨c, hc, hf⟩ hhalt
    refine ⟨_, hexec, rd_startCanopy _ _ hlive, ?_, ?_⟩
    · rw [entered_startCanopy]
      simp
    · exact partsOnly_of_parts fun k hk => startCanopy_frame (testBit_sub rfl hk) (State_setCan_frame (testBit_sub rfl hk) (.refl k s))
  · intro p k x m s hst hk hlen
    have hexec := exec_caps (x := x) (m := m) hst fun h => absurd h hk
    rw [if_neg hlen] at hexec
    refine ⟨_, hexec, caps_capsRecorded .., ?_, ?_⟩
    · simp only [capsRecorded, if_neg hk]
      rw [State.rd_wr_same]
      exact Nat.mod_mod _ _
    · simp only [capsRecorded, if_neg hk]
      exact (onlyWrites_setCan _ s _ _).trans ((onlyWrites_wr _ _ _).mono (List.Subset.refl _) (by simp))
  · intro p x m s hst hver hrole hlen
    have hexec := exec_caps (k := 0) (m := m) hst fun _ => ⟨hver, hrole⟩
    have hrest : capsRecorded p.val 0 x.toNat m.val s =
        s.setCan p.val { s.can p.val with caps := mins (s.can p.val).caps 0 x.toNat, pref := m.val } := rfl
    rw [Fin.val_zero, if_neg hlen] at hexec
    refine ⟨_, hexec, caps_capsRecorded .., ?_, ?_⟩
    · simp [hrest]
    · rw [hrest]
      exact partsOnly_of_parts fun k hk => State_setCan_frame (testBit_sub rfl hk) (.refl k s)
  · intro p k w s hst hprk hheld hlen
    have hexec := exec_kshare (w := w) (k := k) hst hprk hheld
    rw [if_neg hlen] at hexec
    exact ⟨_, hexec, by simp [shareRecorded], partsOnly_of_parts fun k hk => State_setCan_frame (testBit_sub rfl hk) (.refl k s)⟩
  · intro p k w s hst hprk hheld hlen hpoint
    have hexec := exec_kshare (w := w) (k := k) hst hprk hheld
    rw [if_pos hlen] at hexec
    have hshare : ((shareRecorded p.val k.val w.toNat s).can p.val).share = mins (s.can p.val).share k.val w.toNat := by simp [shareRecorded]
    obtain ⟨hsent, hparts⟩ := deriveKeys_effects (p := p.val) (s := shareRecorded p.val k.val w.toNat s) (by rw [hshare]; exact hpoint)
    refine ⟨_, hexec, hsent, partsOnly.trans (t := shareRecorded p.val k.val w.toNat s) ?_ hparts⟩
    exact partsOnly_of_parts fun k hk => State_setCan_frame (testBit_sub rfl hk) (.refl k s)
  · intro p v s hst hheld hprk hv hturn
    have hexec := exec_hsfin_checks hst hheld hprk hv
    rw [hturn] at hexec
    exact ⟨_, hexec, linkActive_effects p.val s⟩
  · intro p v s hst hheld hprk hv hturn
    have hexec := exec_hsfin_checks hst hheld hprk hv
    rw [if_pos hturn] at hexec
    exact ⟨_, hexec, by simp, partsOnly_of_parts fun k hk => State_setCan_frame (testBit_sub rfl hk) (.refl k s)⟩
  · intro p v s hst hheld hv
    have hexec := exec_hsfin_fails hst hheld hv
    exact ⟨_, hexec, (handshakeFail_effects p.val s).1, (handshakeFail_effects p.val s).2.1⟩
  · intro p s h
    have hexec := exec_trainingLimit_fails h
    exact ⟨_, hexec, handshakeFail_effects p.val s⟩

end Sys2Proof.Machine
end

section
set_option Elab.async false
/-! The events of the lead raster. -/

namespace Sys2Proof.Machine

open Sys2Proof Sys2Proof.Laws

theorem leadCycle_ends {s : State} (h : leadEnds s = true) : leadCycle s = slewLine (frameInstant s) := by
  have hone : s.rd SCHED_LTOT_TOTAL ≠ 0 := by
    simp only [leadEnds, Bool.and_eq_true, decide_eq_true_eq] at h
    omega
  simp [leadCycle, hone, h]

/-- Only the increment moves with the line. -/
theorem slewLine_effects (s : State) : (slewLine s).sc = s.sc ∧ onlyWrites [SCHED_LINC_INC] [] s (slewLine s) := by
  unfold slewLine
  split
  · exact ⟨rfl, .refl ..⟩
  · exact ⟨rfl, onlyWrites_wr ..⟩

theorem lpos_frameInstant (s : State) : (frameInstant s).sc.lpos = 0 := by
  have hwr (u : State) (f : Fld) (v : Nat) : (u.wr f v).sc = u.sc := rfl
  have hevt (u : State) (n : Nat) (e : Evt) : (u.setEvt n e).sc = u.sc := rfl
  unfold frameInstant
  dsimp only
  rw [hwr]
  refine forAll_induction (P := fun u => u.sc.lpos = 0) (forAll_induction (P := fun u => u.sc.lpos = 0) rfl fun n _ u hu => ?_)
    fun e _ u hu => ?_
  · rw [hwr, hu]
  · rw [hevt, hu]

theorem not_leafKey_frameCount : ¬ leafKey SCHED_FRAME_COUNT.key := by decide

/-- The skipped entries are noted in leaves alone. -/
theorem onlyKeys_noteSkip (p : Nat) (s : State) : onlyKeys leafKey s (noteSkip p s) := by
  unfold noteSkip
  exact .ite (.refl _ s) (.raise (.of_regs (.refl _ s) rfl) (leafKey_evstat _))

theorem rd_frameInstant (s : State) :
    (frameInstant s).rd SCHED_FRAME_COUNT = (s.rd SCHED_FRAME_COUNT + 1) % 2 ^ SCHED_FRAME_COUNT.w := by
  let P (u : State) : Prop := u.rd SCHED_FRAME_COUNT = (s.rd SCHED_FRAME_COUNT + 1) % 2 ^ SCHED_FRAME_COUNT.w
  have hskip : (forAll (List.range 20) noteSkip s).rd SCHED_FRAME_COUNT = s.rd SCHED_FRAME_COUNT :=
    forAll_induction (P := fun u => u.rd SCHED_FRAME_COUNT = s.rd SCHED_FRAME_COUNT) rfl fun p _ u hu =>
      ((onlyKeys_noteSkip p u).1 _ not_leafKey_frameCount).trans hu
  have hcount : P ((forAll (List.range 20) noteSkip s).incMod SCHED_FRAME_COUNT) := by
    simp only [P]
    rw [State.rd_incMod_same, hskip]
  unfold frameInstant
  dsimp only
  generalize (forAll (List.range 20) noteSkip s) = t at hcount ⊢
  rw [State.rd_wr_ne _ _ _ _ (by decide)]
  refine forAll_induction (P := P) (forAll_induction (P := P) ?_ fun n _ u hu => ?_) fun e _ u hu => ?_
  · exact hcount
  · refine (State.rd_wr_ne _ _ _ _ ?_).trans hu
    simp only [SCHED_FRAME_COUNT, TIM_LFTNS_NS, fld]
    omega
  · exact (State.rd_setEvt ..).trans hu

theorem exec_leadFrameStart {s : State} (h : leadEnds s = true) :
    exec (.leadFrameStart (s.rd SCHED_LTOT_TOTAL) (s.rd SCHED_LINC_INC)) s = .next (slewLine (frameInstant s)) := by
  simp [exec, execLeadFrameStart, h, leadCycle_ends h]

theorem exec_leadFrameStart_other {n k : Nat} {s : State}
    (h : leadEnds s = false ∨ n ≠ s.rd SCHED_LTOT_TOTAL ∨ k ≠ s.rd SCHED_LINC_INC) : exec (.leadFrameStart n k) s = .next s := by
  have hnot : ¬ (leadEnds s ∧ n = s.rd SCHED_LTOT_TOTAL ∧ k = s.rd SCHED_LINC_INC) := by
    rintro ⟨he, hn, hk⟩
    obtain h | h | h := h
    · rw [he] at h; cases h
    · exact h hn
    · exact h hk
  simp only [exec, execLeadFrameStart, if_neg hnot]

/-- What the raster keeps of a source that it has lost. -/
def sourceLost (s : State) : Sched :=
  { s.sc with inPhase := 0, offTotal := 0, offPeriod := 0, target := 0
              edges := if 4 ≤ s.rd SCHED_LEAD_SRC then mdel s.sc.edges (s.rd SCHED_LEAD_SRC - 4) else s.sc.edges }

theorem exec_leadSourceLost {s : State} (hsrc : s.rd SCHED_LEAD_SRC ≠ 9) (hst : s.rd SCHED_LEAD_STATE ≠ 3) :
    exec .leadSourceLost s = .next (raise 15 1 (({ s with sc := sourceLost s } : State).wr SCHED_LEAD_STATE 3)) := by
  simp [exec, execLeadSourceLost, hsrc, hst, sourceLost]

theorem exec_leadSourceLost_idle {s : State} (h : s.rd SCHED_LEAD_SRC = 9 ∨ s.rd SCHED_LEAD_STATE = 3) : exec .leadSourceLost s = .next s := by
  simp only [exec, execLeadSourceLost, if_pos h]

theorem onlyWrites_setSc (fs : List Fld) (s : State) (x : Sched) : onlyWrites fs [.sc] s { s with sc := x } := by
  refine ⟨fun _ _ => rfl, fun q hq => ?_⟩
  cases q
  case sc => simp at hq
  all_goals rfl

/-- The gate list of a port as a cycle of its series begins. -/
def cycleBegun (p : Nat) (s : State) : State :=
  let q := mget {} s.sc.qbv p
  { s with sc := { s.sc with qbv := mput {} s.sc.qbv p { q with held := 0, began := none } } }

theorem exec_qbvCycleStart {p : Port} {s : State} (hmode : s.on (GRV_CALCTL_MODE p.val) = true)
    (hrun : tbRunning s (mget {} s.sc.qbv p.val).tb = true)
    (hstart : (mget {} s.sc.qbv p.val).start ≤ extTime s (mget {} s.sc.qbv p.val).tb) :
    exec (.qbvCycleStart p) s = .next (cycleBegun p.val s) := by
  have hlate : ¬ extTime s (mget {} s.sc.qbv p.val).tb < (mget {} s.sc.qbv p.val).start := by omega
  simp [exec, execQbvCycleStart, hmode, hrun, hlate, cycleBegun]

/-- Settles O11. -/
theorem leadRasterEvents : Obligations.LeadRasterEvents := by
  refine ⟨?_, fun n k s h => exec_leadFrameStart_other h, ?_, fun s h => exec_leadSourceLost_idle h, ?_⟩
  · intro s h
    have hexec := exec_leadFrameStart h
    refine ⟨_, hexec, ?_, ?_, partsOnly_of_exec hexec (List.Subset.refl _)⟩
    · rw [(slewLine_effects _).1, lpos_frameInstant]
    · rw [(slewLine_effects _).2.1 _ (by simp only [List.mem_singleton, forall_eq]; decide), rd_frameInstant]
  · intro s hsrc hst
    refine ⟨_, exec_leadSourceLost hsrc hst, ?_, leafSet_raise _ _ _ (by decide), ?_⟩
    · rw [rd_raise_ne _ _ _ _ (by decide), rd_wr_of_lt _ _ _ (by decide)]
    · exact ((onlyWrites_setSc _ s _).mono (List.Subset.refl _) (by simp)).trans
        (((onlyWrites_wr SCHED_LEAD_STATE _ _).mono (by simp) (by simp)).trans ((onlyWrites_raise 15 1 _).mono (by simp) (by simp)))
  · intro p s hmode hrun hstart
    have hexec := exec_qbvCycleStart hmode hrun hstart
    refine ⟨_, hexec, ?_, ?_, partsOnly_of_exec hexec (List.Subset.refl _)⟩ <;> simp [cycleBegun]

end Sys2Proof.Machine
end

section
set_option Elab.async false
/-! An egress port's units: what the transmit queues keep as segments pass, and what a port starts. -/

namespace Sys2Proof.Machine

open Sys2Proof Sys2Proof.Laws

/-! ### The transmit queues grow at their ends (R140, R162) -/

/-- The transmit queues have at most grown at their ends, and what is in cut-through goes on. -/
def txGrown (s t : State) : Prop :=
  (∀ n, ∃ l, t.tx n = s.tx n ++ l) ∧ ∀ p, (t.eg p).ct = (s.eg p).ct ∧ (t.eg p).ctSent = (s.eg p).ctSent

theorem txGrown.refl (s : State) : txGrown s s := ⟨fun _ => ⟨[], by simp⟩, fun _ => ⟨rfl, rfl⟩⟩

theorem txGrown.trans {s t u : State} (h : txGrown s t) (g : txGrown t u) : txGrown s u := by
  refine ⟨fun n => ?_, fun p => ⟨(g.2 p).1.trans (h.2 p).1, (g.2 p).2.trans (h.2 p).2⟩⟩
  obtain ⟨l, hl⟩ := h.1 n
  obtain ⟨m, hm⟩ := g.1 n
  exact ⟨l ++ m, by rw [hm, hl, List.append_assoc]⟩

/-- A change of other parts of the fabric's stores. -/
theorem txGrown.of_fb {s t u : State} (h : txGrown s t) (htx : u.fb.txq = t.fb.txq) (heg : u.fb.eg = t.fb.eg) : txGrown s u := by
  refine h.trans ⟨fun n => ⟨[], ?_⟩, fun p => ?_⟩
  · simp only [State.tx, htx, List.append_nil]
  · simp only [State.eg, heg, and_self]

theorem txGrown.wr {s t : State} {f : Fld} {v : Nat} (h : txGrown s t) : txGrown s (t.wr f v) := h.of_fb rfl rfl
theorem txGrown.incMod {s t : State} {f : Fld} (h : txGrown s t) : txGrown s (t.incMod f) := h.of_fb rfl rfl
theorem txGrown.emit {s t : State} {o : Out} (h : txGrown s t) : txGrown s (t.emit o) := h.of_fb rfl rfl
theorem txGrown.setCredit {s t : State} {n : Nat} {x : Credit} (h : txGrown s t) : txGrown s (t.setCredit n x) := h.of_fb rfl rfl

theorem txGrown.forAll {α : Type} {s t : State} {l : List α} {f : α → State → State} (h : txGrown s t)
    (hf : ∀ x ∈ l, ∀ u, txGrown u (f x u)) : txGrown s (forAll l f t) :=
  forAll_induction (P := txGrown s) h fun x hx u hu => hu.trans (hf x hx u)

theorem txGrown.ite {s t u : State} {c : Prop} [Decidable c] (h : txGrown s t) (g : txGrown s u) : txGrown s (if c then t else u) := by
  split <;> assumption

/-- A change of an egress port's state beside its cut-through. -/
theorem txGrown.setEg {s t : State} {p : Nat} {x : Egress} (h : txGrown s t) (hct : x.ct = (t.eg p).ct) (hsent : x.ctSent = (t.eg p).ctSent) :
    txGrown s (t.setEg p x) := by
  refine h.trans ⟨fun n => ⟨[], (List.append_nil _).symm⟩, fun q => ?_⟩
  by_cases hq : q = p
  · rw [hq, State.eg_setEg_same]
    exact ⟨hct, hsent⟩
  · rw [State.eg_setEg_ne _ _ _ _ hq]
    exact ⟨rfl, rfl⟩

theorem txGrown_toAdapter (p : Nat) (g : Seg) (s : State) : txGrown s (toAdapter p g s) := by
  have happend (t : State) : txGrown t (t.setTx g.tun (t.tx g.tun ++ [g])) := by
    refine ⟨fun n => ?_, fun _ => ⟨rfl, rfl⟩⟩
    by_cases hn : n = g.tun
    · exact ⟨[g], by rw [hn, State.tx_setTx_same]⟩
    · exact ⟨[], by rw [State.tx_setTx_ne _ _ _ _ hn, List.append_nil]⟩
  unfold toAdapter
  dsimp only
  refine txGrown.trans ?_ (happend _)
  exact .ite (.setEg (.refl s) rfl rfl) (.refl s)

theorem txGrown_advanceSeq (o n : Nat) (s : State) : txGrown s (advanceSeq o n s) :=
  .ite (.of_fb (.refl s) rfl rfl) (.of_fb (.refl s) rfl rfl)

theorem txGrown_handOver (o : Nat) (g : Seg) (s : State) : txGrown s (handOver o g s) := by
  have hbase : txGrown s ((advanceSeq o g.tun s).incMod (FAB_OUTSEG_COUNT o)) := .of_fb (txGrown_advanceSeq o g.tun s) rfl rfl
  unfold handOver
  refine .ite (.of_fb hbase rfl rfl) (.ite (.of_fb hbase rfl rfl) (.ite (.of_fb hbase rfl rfl) ?_))
  exact hbase.trans (txGrown_toAdapter _ _ _)

theorem txGrown_maybeReturn (o n : Nat) (s : State) : txGrown s (maybeReturn o n s) :=
  .ite (.of_fb (.refl s) rfl rfl) (.refl s)

theorem txGrown_unpark (o n fuel : Nat) (s : State) : txGrown s (unpark o n fuel s) := by
  induction fuel generalizing s with
  | zero => exact .refl s
  | succ fuel ih =>
    unfold unpark
    dsimp only
    split
    · exact .refl s
    · refine .ite (.refl s) (.trans ?_ (ih _))
      refine .trans ?_ (txGrown_maybeReturn ..)
      refine .trans ?_ (txGrown_handOver ..)
      exact .of_fb (.refl s) rfl rfl

theorem txGrown_unparkPort (p : Nat) (s : State) : txGrown s (unparkPort p s) :=
  .forAll (.refl s) fun n _ u => txGrown_unpark _ n 1024 u

theorem txGrown_updateStall (p : Nat) (b : Bool) (s : State) : txGrown s (updateStall p b s) := by
  refine .ite (.ite (.refl s) (.setEg (.of_fb (.refl s) rfl rfl) rfl rfl)) (.of_fb (.refl s) rfl rfl)

theorem txGrown_clearDeficits (p : Nat) (s : State) : txGrown s (clearDeficits p s) := .of_fb (.refl s) rfl rfl

/-! ### What the pipes take leaves egress alone (R143) -/

/-- The transmit queues and the egress ports stay. -/
def egressKept (s t : State) : Prop := t.fb.txq = s.fb.txq ∧ t.fb.eg = s.fb.eg

theorem egressKept.refl (s : State) : egressKept s s := ⟨rfl, rfl⟩
theorem egressKept.trans {s t u : State} (h : egressKept s t) (g : egressKept t u) : egressKept s u := ⟨g.1.trans h.1, g.2.trans h.2⟩
theorem egressKept.of_fb {s t u : State} (h : egressKept s t) (g : u.fb = t.fb) : egressKept s u := ⟨g ▸ h.1, g ▸ h.2⟩

theorem egressKept.ite {s t u : State} {c : Prop} [Decidable c] (h : egressKept s t) (g : egressKept s u) :
    egressKept s (if c then t else u) := by
  split <;> assumption

theorem egressKept.forAll {α : Type} {s t : State} {l : List α} {f : α → State → State} (h : egressKept s t)
    (hf : ∀ x ∈ l, ∀ u, egressKept u (f x u)) : egressKept s (forAll l f t) :=
  forAll_induction (P := egressKept s) h fun x hx u hu => hu.trans (hf x hx u)

/-- What leaves the whole fabric alone, by its frame. -/
theorem egressKept_of_frame {s t : State} (h : Frame 10 s t) : egressKept s t := .of_fb (.refl s) h

theorem egressKept_meter (n len pre : Nat) (s : State) : egressKept s (meter n len pre s).2 := by
  have hite {c : Prop} [Decidable c] {x y : Nat × State} (hx : egressKept s x.2) (hy : egressKept s y.2) :
      egressKept s (if c then x else y).2 := by split <;> assumption
  exact hite ⟨rfl, rfl⟩ (hite ⟨rfl, rfl⟩ ⟨rfl, rfl⟩)

theorem egressKept_admitSeg (n pre : Nat) (g : Seg) (s : State) : egressKept s (admitSeg n pre g s) := by
  have hcol : egressKept s (if isBulk s n && !s.on (TT_STATE_CASC n) then meter n g.payload.length pre s
      else (if s.on (TT_STATE_CASC n) then g.col else 0, s)).2 := by
    split
    · exact egressKept_meter ..
    · exact .refl s
  exact hcol.trans ⟨rfl, rfl⟩

theorem egressKept_ingressSeg (p n pre : Nat) (g : Seg) (s : State) : egressKept s (ingressSeg p n pre g s) := by
  have hwake : egressKept s (wakeLink p s) := egressKept_of_frame (wakeLink_frame rfl (.refl 10 s))
  unfold ingressSeg
  refine .ite hwake (.ite (hwake.trans ⟨rfl, rfl⟩) (.ite (hwake.trans ⟨rfl, rfl⟩) ?_))
  exact hwake.trans (egressKept_admitSeg ..)

theorem egressKept_ingressUnit (p n pre line : Nat) (data : Bytes) (s : State) : egressKept s (ingressUnit p n pre line data s) :=
  .forAll (.refl s) fun _ _ u => egressKept_ingressSeg _ _ _ _ u

theorem egressKept_pipeUpstream (d : Nat) (data : Bytes) (s : State) : egressKept s (pipeUpstream d data s) := by
  unfold pipeUpstream
  split
  · exact .refl s
  · exact .ite (.refl s) (egressKept_ingressUnit ..)

theorem egressKept_mstReply (k : Nat) (body : Bytes) (s : State) : egressKept s (mstReply k body s) :=
  egressKept.trans ⟨rfl, rfl⟩ (egressKept_pipeUpstream k [0x82] _)

theorem egressKept_mstNak (k id reason : Nat) (s : State) : egressKept s (mstNak k id reason s) :=
  egressKept.trans ⟨rfl, rfl⟩ (egressKept_mstReply k _ s.free.2)

theorem egressKept_mstRelay (k id d : Nat) (data : Bytes) (a : Option Nat) (s : State) : egressKept s (mstRelay k id d data a s) :=
  .ite (egressKept_mstNak ..) ⟨rfl, rfl⟩

theorem egressKept_mstRequest (k : Nat) (body : Bytes) (s : State) : egressKept s (mstRequest k body s) := by
  have hreply (t : State) (l : Bytes) (h : t.fb = s.fb) : egressKept s (mstReply k l t) :=
    egressKept.trans (.of_fb (.refl s) h) (egressKept_mstReply ..)
  unfold mstRequest
  dsimp only
  refine .ite (hreply _ _ rfl) (.ite (hreply _ _ rfl) ?_)
  split
  · exact egressKept_mstNak ..
  · split
    case h_1 | h_2 | h_7 | h_8 => exact hreply _ _ rfl
    case h_3 | h_4 | h_5 | h_6 => exact egressKept_mstRelay ..
    case h_9 => exact egressKept_mstNak ..

theorem egressKept_mstAck (k : Nat) (b : Branch) (s : State) : egressKept s (mstAck k b s) :=
  egressKept.trans ⟨rfl, rfl⟩ (egressKept_pipeUpstream k _ _)

theorem egressKept_mstPut (k off : Nat) (data : Bytes) (s : State) : egressKept s (mstPut k off data s) := by
  unfold mstPut
  dsimp only
  split
  · exact egressKept_mstAck ..
  · exact (egressKept_mstAck ..).trans (egressKept_mstRequest ..)

theorem egressKept_mstWrite (k a : Nat) (data : Bytes) (s : State) : egressKept s (mstWrite k a data s) :=
  .ite (egressKept_mstPut ..) (egressKept_mstAck ..)

theorem egressKept_auxRequest (k : Nat) (data : Bytes) (s : State) : egressKept s (auxRequest k data s) := by
  have hread (p a n : Nat) : egressKept s (dpcdRead p a n s).2 := egressKept_of_frame (dpcdRead_frame rfl (.refl 10 s))
  unfold auxRequest
  refine .ite (.refl s) (.ite ((hread _ _ _).trans (egressKept_pipeUpstream ..)) (.ite (egressKept_pipeUpstream ..) (.ite ?_
    (.ite (egressKept_pipeUpstream ..) (.ite (egressKept_mstWrite ..) ⟨rfl, rfl⟩)))))
  exact egressKept.trans ⟨rfl, rfl⟩ (egressKept_pipeUpstream k _ s.free.2)

theorem egressKept_streamUnit (d : Pipe) (line : Nat) (data : Bytes) (s : State) : egressKept s (streamUnit d line data s) := by
  unfold streamUnit
  refine .ite (egressKept_of_frame (takePixels_frame rfl (State_setPipe_frame rfl (.refl 10 s)))) ?_
  split
  · exact egressKept_of_frame (takePacket_frame rfl (.refl 10 s))
  · exact egressKept_auxRequest ..
  · exact egressKept_of_frame (takeAttributes_frame rfl (.refl 10 s))
  · exact egressKept_of_frame (reservedUnit_frame rfl (.refl 10 s))

theorem egressKept_pipeSegment (g : Seg) (s : State) : egressKept s (pipeSegment g s) := by
  unfold pipeSegment
  refine .ite (.refl s) (.ite ?_ ⟨rfl, rfl⟩)
  exact egressKept.trans ⟨rfl, rfl⟩ (egressKept_streamUnit ..)

theorem egressKept_pipesTake (s : State) : egressKept s (pipesTake s) := by
  unfold pipesTake
  exact .forAll ⟨rfl, rfl⟩ fun g _ u => egressKept_pipeSegment g u

theorem txGrown.of_egressKept {s t u : State} (h : txGrown s t) (g : egressKept t u) : txGrown s u := h.of_fb g.1 g.2

/-! ### Segments go out (R143, R187) -/

theorem txGrown_sendLink (p : Nat) (g : Seg) (s : State) : txGrown s (sendLink p g s) :=
  .of_egressKept (.refl s) (egressKept_of_frame (sendLink_frame rfl (.refl 10 s)))

/-- The keeper's record of a segment that goes out: its place in the log, or the discard of one sent before a takeover (R266). -/
def segLogged (p : Nat) (g : Seg) (t : State) : State :=
  let e := t.eg p
  t.setEg p (if e.redo.contains (g.tun, g.seq) then { e with redo := e.redo.erase (g.tun, g.seq) }
    else { e with log := e.log ++ [(g.tun, g.seq, (t.can p).lunTx)] })

theorem txGrown_segLogged (p : Nat) (g : Seg) (t : State) : txGrown t (segLogged p g t) := by
  refine .setEg (.refl t) ?_ ?_ <;> split <;> rfl

/-- A segment goes out on the port's link, or to the display pipes; one that the partner has is discarded (R143, R223, R266). -/
def segOut (p : Nat) (g : Seg) (can again : Bool) (t : State) : State :=
  let m := entryOf g.tun
  let c := t.credit m
  let t := if can then t.setCredit m { c with sent := (c.sent + 1) % 65536 } else t
  let out : Seg := { g with tun := rewriteOut t p g.tun }
  if again then t
  else if can then sendLink p out t
  else if isHandoff t p && t.rd (TT_STATE_KIND m) = 0 then { t with fb := { t.fb with handed := t.fb.handed ++ [g] } }
  else t.emit (.segment p (segWord out) (segPayload out))

theorem sendSeg_eq (p : Nat) (g : Seg) (s : State) : sendSeg p g s =
    segOut p g (p < 8 && canActive (wakeLink p s) p) (((wakeLink p s).eg p).redo.contains (g.tun, g.seq))
      ((segLogged p g (wakeLink p s)).incMod (TT_SEGOUT_COUNT (entryOf g.tun))) := rfl

theorem txGrown_segOut (p : Nat) (g : Seg) (can again : Bool) (t : State) : txGrown t (segOut p g can again t) := by
  have hout (v : State) (h : txGrown t v) (o : Seg) (w : Out) : txGrown t (if again then v else if can then sendLink p o v
      else if isHandoff v p && v.rd (TT_STATE_KIND (entryOf g.tun)) = 0 then { v with fb := { v.fb with handed := v.fb.handed ++ [g] } }
      else v.emit w) :=
    .ite h (.ite (h.trans (txGrown_sendLink ..)) (.ite (h.of_fb rfl rfl) h.emit))
  have hcredit (x : Credit) : txGrown t (if can then t.setCredit (entryOf g.tun) x else t) := .ite (txGrown.refl t).setCredit (.refl t)
  exact hout _ (hcredit _) _ _

theorem txGrown_sendSeg (p : Nat) (g : Seg) (s : State) : txGrown s (sendSeg p g s) := by
  have hwake : txGrown s (wakeLink p s) := .of_egressKept (.refl s) (egressKept_of_frame (wakeLink_frame rfl (.refl 10 s)))
  rw [sendSeg_eq]
  generalize wakeLink p s = t at hwake ⊢
  have hlogged := hwake.trans (txGrown_segLogged p g t)
  generalize segLogged p g t = u at hlogged ⊢
  exact hlogged.incMod.trans (txGrown_segOut ..)

theorem txGrown_sendSegs (p : Nat) (u : List Seg) (s : State) : txGrown s (sendSegs p u s) :=
  .forAll (.refl s) fun g _ t => txGrown_sendSeg p g t

/-! ### An egress port starts (R143, R144, R187) -/

theorem tx_setTx_grown {n : Nat} {q : List Seg} {s t : State} (h : txGrown (s.setTx n q) t) : ∃ l, t.tx n = q ++ l := by
  obtain ⟨l, hl⟩ := h.1 n
  exact ⟨l, by rw [hl, State.tx_setTx_same]⟩

/-- What a port starts when no unit is in cut-through, before the places that it frees are taken. -/
def unitStarted (p c n : Nat) (u rest : List Seg) (ct marked : Bool) (t : State) : State :=
  let t := clearDeficits p (sendSegs p u (t.setTx n rest))
  let x := t.eg p
  let t := t.setEg p { x with rr := mput 0 x.rr c n, ctMark := none, ct := if ct then some n else none, ctSent := if ct then u else [] }
  updateStall p true (if marked then t.incMod (FAB_STOMP_CTUNITS (outPosOf t n)) else t)

theorem unitStarted_effects (p c n : Nat) (u rest : List Seg) (ct marked : Bool) (t : State) :
    (∃ l, (unitStarted p c n u rest ct marked t).tx n = rest ++ l) ∧
      ((unitStarted p c n u rest ct marked t).eg p).ct = if ct then some n else none := by
  have hsent : txGrown (t.setTx n rest) (clearDeficits p (sendSegs p u (t.setTx n rest))) :=
    (txGrown_sendSegs ..).trans (txGrown_clearDeficits ..)
  obtain ⟨l, hl⟩ := tx_setTx_grown hsent
  unfold unitStarted
  generalize clearDeficits p (sendSegs p u (t.setTx n rest)) = v at hl
  dsimp only
  let w := v.setEg p { v.eg p with rr := mput 0 (v.eg p).rr c n, ctMark := none, ct := if ct then some n else none, ctSent := if ct then u else [] }
  have hw : (w.eg p).ct = if ct then some n else none := by simp [w]
  have hgrown : txGrown w (updateStall p true (if marked then w.incMod (FAB_STOMP_CTUNITS (outPosOf w n)) else w)) := by
    refine .trans ?_ (txGrown_updateStall ..)
    exact .ite (txGrown.refl w).incMod (.refl w)
  obtain ⟨m, hm⟩ := hgrown.1 n
  exact ⟨⟨l ++ m, hm.trans (by rw [← List.append_assoc, ← hl]; rfl)⟩, (hgrown.2 p).1.trans hw⟩

theorem egressStart_free {p c n : Nat} {u rest : List Seg} {ct : Bool} {s : State} (hf : fenced s (fabOf p) = false)
    (hct : (s.eg p).ct = none) (hc : (chooseUnit p classOrder (clearDeficits p s)).1 = some (c, n, u, rest, ct)) :
    egressStart p s = unparkPort p (unitStarted p c n u rest ct ((s.eg p).ctMark = some n) (chooseUnit p classOrder (clearDeficits p s)).2) := by
  have hpair : chooseUnit p classOrder (clearDeficits p s) = (some (c, n, u, rest, ct), (chooseUnit p classOrder (clearDeficits p s)).2) := by
    rw [← hc]
  simp only [egressStart, hf, hct, Bool.false_eq_true, if_false]
  rw [hpair]
  rfl

/-- A unit in cut-through goes on with what has come of it. -/
def ctContinued (p : Nat) (q : List Seg) (n : Nat) (s : State) : State :=
  let x := sendSegs p q (s.setTx n [])
  x.setEg p { x.eg p with ctSent := (s.eg p).ctSent ++ q }

/-- The last segments of a unit in cut-through. -/
def ctEnded (p n : Nat) (u rest : List Seg) (s : State) : State :=
  let x := sendSegs p u (s.setTx n rest)
  x.setEg p { x.eg p with ct := none, ctSent := [] }

theorem egressStart_continues {p n : Nat} {s : State} (hf : fenced s (fabOf p) = false) (hct : (s.eg p).ct = some n)
    (hq : headUnit (s.tx n) = none) : egressStart p s = unparkPort p (ctContinued p (s.tx n) n s) := by
  simp [egressStart, hf, hct, hq, ctContinued]

theorem egressStart_ends {p n : Nat} {u rest : List Seg} {s : State} (hf : fenced s (fabOf p) = false) (hct : (s.eg p).ct = some n)
    (hq : headUnit (s.tx n) = some (u, rest)) : egressStart p s = unparkPort p (ctEnded p n u rest s) := by
  simp [egressStart, hf, hct, hq, ctEnded]

/-- What follows the start of a unit leaves the port's cut-through and the queues but for what joins them. -/
theorem txGrown_started (p : Nat) (v : State) : txGrown v (pipesTake (unparkPort p v)) :=
  .of_egressKept (txGrown_unparkPort p v) (egressKept_pipesTake _)

theorem exec_egressUnitStart (p : Port) (s : State) : exec (.egressUnitStart p) s = .next (pipesTake (egressStart p.val s)) := rfl

theorem exec_cutThroughAbort {p : Port} {n : Nat} {s : State} (hct : (s.eg p.val).ct = some n) :
    exec (.cutThroughAbort p) s = .next (breakOff p.val n s) := by
  simp [exec, execCutThroughAbort, hct]

theorem onlyWrites_setTx (fs : List Fld) (s : State) (n : Nat) (q : List Seg) : onlyWrites fs [.fb] s (s.setTx n q) :=
  ⟨fun _ _ => rfl, partsOnly_of_parts fun k hk => State_setTx_frame (testBit_sub rfl hk) (.refl k s)⟩

theorem onlyWrites_setEg (fs : List Fld) (s : State) (p : Nat) (x : Egress) : onlyWrites fs [.fb] s (s.setEg p x) :=
  ⟨fun _ _ => rfl, partsOnly_of_parts fun k hk => State_setEg_frame (testBit_sub rfl hk) (.refl k s)⟩

theorem breakOff_effects (p n : Nat) (s : State) :
    ((breakOff p n s).eg p).ct = none ∧ ((breakOff p n s).eg p).backoff = true ∧
      (breakOff p n s).tx n = (s.eg p).ctSent ++ s.tx n ∧ leafSet (breakOff p n s) 13 1 ∧
      onlyWrites [FAB_STOMP_ABORTS (outPosOf s n), EVSTAT 13] [.sent, .mg, .fb] s (breakOff p n s) := by
  have hfb (b : Nat) (u : State) : (raise 13 b u).fb = u.fb := raise_frame (κ := 10) rfl (.refl 10 u)
  unfold breakOff
  dsimp only
  refine ⟨?_, ?_, ?_, leafSet_raise _ _ _ (by decide), ?_⟩
  · rw [State.eg, hfb]
    exact congrArg Egress.ct (State.eg_setEg_same ..)
  · rw [State.eg, hfb]
    exact congrArg Egress.backoff (State.eg_setEg_same ..)
  · rw [State.tx, hfb]
    exact State.tx_setTx_same s n _
  · have hset := ((onlyWrites_setTx [FAB_STOMP_ABORTS (outPosOf s n), EVSTAT 13] s n ((s.eg p).ctSent ++ s.tx n)).trans
      (onlyWrites_setEg _ _ p { s.eg p with ct := none, ctMark := none, ctSent := [], backoff := true, log := (s.eg p).log.filter fun x =>
        !((s.eg p).ctSent.any fun g => g.tun = x.1 && g.seq = x.2.1) })).mono (List.Subset.refl _) (qs := [.sent, .mg, .fb]) (by simp)
    exact ((hset.trans ((onlyWrites_inc (FAB_STOMP_ABORTS (outPosOf s n)) _).mono (by simp) (by simp))).trans ((onlyWrites_emit [] _ _).mono (by simp) (by simp))).trans
      ((onlyWrites_raise 13 1 _).mono (by simp) (by simp))

/-- Settles O9. -/
theorem egressPortsSendAndPause : Obligations.EgressPortsSendAndPause := by
  refine ⟨?_, ?_, ?_, ?_, ?_, ?_, ?_, ?_, ?_⟩
  · intro p s c n u rest ct hf hct hc
    have hexec := exec_egressUnitStart p s
    have hparts := partsOnly_of_exec hexec (List.Subset.refl _)
    rw [egressStart_free hf hct hc] at hexec hparts
    obtain ⟨⟨l, hl⟩, hgo⟩ := unitStarted_effects p.val c n u rest ct ((s.eg p.val).ctMark = some n) (chooseUnit p.val classOrder (clearDeficits p.val s)).2
    generalize unitStarted p.val c n u rest ct _ _ = v at hexec hparts hl hgo
    obtain ⟨m, hm⟩ := (txGrown_started p.val v).1 n
    exact ⟨_, l ++ m, hexec, by rw [hm, hl, List.append_assoc], ((txGrown_started p.val v).2 _).1.trans hgo, hparts⟩
  · intro p s n hf hct hq
    have hexec := exec_egressUnitStart p s
    rw [egressStart_continues hf hct hq] at hexec
    have hsent := txGrown_sendSegs p.val (s.tx n) (s.setTx n [])
    have hgrown := (txGrown_started p.val (ctContinued p.val (s.tx n) n s)).2 p.val
    have hct' : ((ctContinued p.val (s.tx n) n s).eg p.val).ct = some n :=
      (congrArg Egress.ct (State.eg_setEg_same ..)).trans ((hsent.2 p.val).1.trans hct)
    have hsent' : ((ctContinued p.val (s.tx n) n s).eg p.val).ctSent = (s.eg p.val).ctSent ++ s.tx n :=
      congrArg Egress.ctSent (State.eg_setEg_same ..)
    exact ⟨_, hexec, hgrown.1.trans hct', hgrown.2.trans hsent'⟩
  · intro p s n u rest hf hct hq
    have hexec := exec_egressUnitStart p s
    rw [egressStart_ends hf hct hq] at hexec
    obtain ⟨l, hl⟩ := tx_setTx_grown (txGrown_sendSegs p.val u (s.setTx n rest))
    have htx : (ctEnded p.val n u rest s).tx n = rest ++ l := hl
    have hct' : ((ctEnded p.val n u rest s).eg p.val).ct = none := congrArg Egress.ct (State.eg_setEg_same ..)
    have hgrown := txGrown_started p.val (ctEnded p.val n u rest s)
    obtain ⟨m, hm⟩ := hgrown.1 n
    exact ⟨_, l ++ m, hexec, by rw [hm, htx, List.append_assoc], (hgrown.2 p.val).1.trans hct'⟩
  · intro p s n hct
    exact ⟨_, exec_cutThroughAbort hct, breakOff_effects p.val n s⟩
  · intro p s hct
    simp [exec, execCutThroughAbort, hct]
  · intro p s
    have hexec : exec (.backoffEnd p) s = .next (s.setEg p.val { s.eg p.val with backoff := false }) := rfl
    exact ⟨_, hexec, by simp, partsOnly_of_exec hexec (List.Subset.refl _)⟩
  · intro p s hp
    simp [exec, execPauseRepeat, hp, pauseOut]
  · intro p k s hp
    have hk : k.val ≠ 8 := by omega
    simp [exec, execPauseRepeat, hp, pauseOut, hk.symm, k.isLt]
  · intro p s
    have hexec : exec (.pauseRepeat p) s = .next (pauseOut p.val 0xFFFF (s.eg p.val).pausing s) := rfl
    exact ⟨_, hexec, partsOnly_of_exec hexec (List.Subset.refl _)⟩

end Sys2Proof.Machine
end

section
set_option Elab.async false
/-! The USB tree: its upstream, its ports, and the management function's own requests. -/

namespace Sys2Proof.Machine

open Sys2Proof Sys2Proof.Laws

/-! ### The registers of a tree port (R337 to R340) -/

/-- The keys of a tree port's status register. -/
def treeWord (n : Nat) (k : Nat) : Prop := 0x480800 + 32 * n ≤ k ∧ k < 0x480820 + 32 * n

theorem treeWord_fields (n : Nat) : ∀ f ∈ [USB_PST_CONN n, USB_PST_EN n, USB_PST_SUSP n, USB_PST_SPEED n, USB_PST_PWR n, USB_PST_OC n,
    USB_PST_RWAKE n, USB_PST_BABBLE n, USB_PST_OCCNT n], treeWord n f.key := by
  simp only [List.forall_mem_cons, List.not_mem_nil, false_implies, implies_true, and_true, treeWord, fld, USB_PST_CONN, USB_PST_EN, USB_PST_SUSP,
    USB_PST_SPEED, USB_PST_PWR, USB_PST_OC, USB_PST_RWAKE, USB_PST_BABBLE, USB_PST_OCCNT]
  omega

theorem not_leafKey_treeWord {n k : Nat} (hn : n < 35) (h : treeWord n k) : ¬ leafKey k := by
  simp only [treeWord, leafKey] at h ⊢
  omega

theorem onlyKeys_treeDrop {n : Nat} (hn : n < 35) (s : State) : onlyKeys (treeWord n) s (treeDrop n s) := by
  have hw := treeWord_fields n
  refine .of_regs (.forAll (.refl _ s) fun f hf u => ?_) rfl
  have hk : treeWord n f.key := hw f (by fin_cases hf <;> simp)
  exact .wr (.refl _ u) hk (not_leafKey_treeWord hn hk)

theorem onlyKeys_treeSwitch {n : Nat} (hn : n < 35) (b : Bool) (s : State) : onlyKeys (treeWord n) s (treeSwitch n b s) := by
  have hk : treeWord n (USB_PST_PWR n).key := treeWord_fields n _ (by simp)
  exact .ite (.emit (.wr (.refl _ s) hk (not_leafKey_treeWord hn hk))) (.refl _ s)

theorem onlyKeys_treeOff {n : Nat} (hn : n < 35) (s : State) : onlyKeys (treeWord n) s (treeOff n s) := by
  have hoc : treeWord n (USB_PST_OC n).key := treeWord_fields n _ (by simp)
  have hpw : treeWord n (USB_PST_PWR n).key := treeWord_fields n _ (by simp)
  refine .wr (.wr (.of_regs ?_ rfl) hoc (not_leafKey_treeWord hn hoc)) hpw (not_leafKey_treeWord hn hpw)
  exact (onlyKeys_treeDrop hn s).trans (onlyKeys_treeSwitch hn false _)

/-- A field of another register than the port's keeps its value. -/
theorem not_treeWord_of_ne {n m : Nat} {f : Fld} (h : treeWord m f.key) (hne : m ≠ n) : ¬ treeWord n f.key := by
  simp only [treeWord] at h ⊢
  omega

theorem rd_treeDrop (n : Nat) (s : State) : (treeDrop n s).rd (USB_PST_CONN n) = 0 ∧ (treeDrop n s).rd (USB_PST_EN n) = 0 := by
  have hfree {u : State} {f : Fld} (v : Nat) (g : Fld) (hne : f.key ≠ g.key) : (u.wr g v).rd f = u.rd f := State.rd_wr_ne u g f v hne
  constructor
  all_goals simp only [treeDrop, State.rd_setTree, restore, forAll, List.foldl]
  · rw [hfree, hfree, hfree, State.rd_wr_same]
    · rfl
    all_goals simp [USB_PST_CONN, USB_PST_EN, USB_PST_SUSP, USB_PST_SPEED, fld]
  · rw [hfree, hfree, State.rd_wr_same]
    · rfl
    all_goals simp [USB_PST_EN, USB_PST_SUSP, USB_PST_SPEED, fld]

theorem rd_treeSwitch_ne (n : Nat) (b : Bool) (s : State) (f : Fld) (h : f.key ≠ (USB_PST_PWR n).key) : (treeSwitch n b s).rd f = s.rd f := by
  unfold treeSwitch
  split
  · exact State.rd_wr_ne s _ f _ h
  · rfl

theorem rd_treeOff (n : Nat) (s : State) : (treeOff n s).rd (USB_PST_EN n) = 0 ∧ (treeOff n s).rd (USB_PST_PWR n) = 0 := by
  have hpw : (USB_PST_EN n).key ≠ (USB_PST_PWR n).key := by simp [USB_PST_EN, USB_PST_PWR, fld]
  have hoc : (USB_PST_EN n).key ≠ (USB_PST_OC n).key := by simp [USB_PST_EN, USB_PST_OC, fld]
  constructor
  · rw [treeOff, State.rd_wr_ne _ _ _ _ hpw, State.rd_wr_ne _ _ _ _ hoc, State.rd_setTree, rd_treeSwitch_ne _ _ _ _ hpw]
    exact (rd_treeDrop n s).2
  · exact rd_wr_of_lt _ _ _ (show 0 < 2 ^ 1 by decide)

/-- Every port of a list that powers off is disabled and off. -/
theorem rd_forAll_treeOff {l : List Nat} (hl : ∀ n ∈ l, n < 35) {n : Nat} (hn : n ∈ l) (s : State) :
    (forAll l treeOff s).rd (USB_PST_EN n) = 0 ∧ (forAll l treeOff s).rd (USB_PST_PWR n) = 0 := by
  refine forAll_establishes (P := fun u => u.rd (USB_PST_EN n) = 0 ∧ u.rd (USB_PST_PWR n) = 0) s hn (rd_treeOff n) fun m hm u hu => ?_
  by_cases hmn : m = n
  · subst hmn
    exact rd_treeOff m u
  · have hkeep (f : Fld) (hf : treeWord n f.key) : (treeOff m u).rd f = u.rd f :=
      (onlyKeys_treeOff (hl m hm) u).1 f (not_treeWord_of_ne hf (Ne.symm hmn))
    rw [hkeep _ (treeWord_fields n _ (by simp)), hkeep _ (treeWord_fields n _ (by simp))]
    exact hu

/-! ### What keeps parts of the state -/

theorem onlyWrites_setTree (fs : List Fld) (s : State) (n : Nat) (x : TreeP) : onlyWrites fs [.ut] s (s.setTree n x) := by
  refine ⟨fun _ _ => rfl, fun q hq => ?_⟩
  cases q
  case ut => simp at hq
  all_goals rfl

theorem onlyWrites_wrs {fs : List Fld} {l : List (Fld × Nat)} (h : ∀ e ∈ l, e.1 ∈ fs) (s : State) : onlyWrites fs [] s (s.wrs l) := by
  induction l generalizing s with
  | nil => exact .refl _ _ s
  | cons e l ih =>
    exact ((onlyWrites_wr e.1 e.2 s).mono (by simpa using h e (by simp)) (by simp)).trans (ih (fun x hx => h x (by simp [hx])) _)

/-- A field of a list of writes to distinct fields reads back. -/
theorem rd_wrs_eq {l : List (Fld × Nat)} (hl : (l.map fun x => x.1.key).Nodup) {f : Fld} {v : Nat} (he : (f, v) ∈ l) (hv : v < 2 ^ f.w)
    (s : State) : (s.wrs l).rd f = v :=
  (State.rd_wrs_of_mem hl he s).trans (Nat.mod_eq_of_lt hv)

/-! ### Suspend and resume (R347 to R349) -/

theorem exec_globalSuspend {s : State} (hp : s.on USB_STAT_PULLUP = true) (hs : s.on USB_STAT_SUSP = false) :
    exec .globalSuspend s = .next (raise 19 5 (s.wr USB_STAT_SUSP 1)) := by
  simp [exec, execGlobalSuspend, hp, hs]

/-- The tree's global suspend has ended. -/
def suspendEnded (s : State) : State := raise 19 6 { s.wr USB_STAT_SUSP 0 with mg := { s.mg with wake := false } }

theorem exec_globalSuspendEnd {s : State} (hs : s.on USB_STAT_SUSP = true) : exec .globalSuspendEnd s = .next (suspendEnded s) := by
  simp [exec, execGlobalSuspendEnd, hs, suspendEnded]

/-- A device's wake of a port that is suspended alone. -/
def remoteWoken (k : Nat) (e : Bool) (s : State) : State :=
  let t := raise 19 4 (s.wr (USB_PST_RWAKE k) 1)
  let t := t.setTree k { (t.tree k) with resumeDev := true }
  if s.on USB_STAT_SUSP ∧ e then t.emit (.note "upstream resume" [k]) else t

theorem exec_remoteWake {n : TreePort} {e : Bool} {s : State} (hc : s.on (USB_PST_CONN n.val) = true) (hs : s.on (USB_PST_SUSP n.val) = true) :
    exec (.remoteWake n e) s = .next (remoteWoken n.val e s) := by
  simp [exec, execRemoteWake, hc, hs, remoteWoken]

/-- A port's resume has ended, of either end. -/
def resumeEnded (k : Nat) (s : State) : State :=
  let t := (s.wr (USB_PST_SUSP k) 0).setTree k { s.tree k with cSusp := true, resumeHost := false, resumeDev := false }
  if (s.tree k).resumeDev then raise 19 4 (t.wr (USB_PST_RWAKE k) 1) else t

theorem exec_resumeEnd {n : TreePort} {s : State} (h : (s.tree n.val).resumeHost = true ∨ (s.tree n.val).resumeDev = true) :
    exec (.resumeEnd n) s = .next (resumeEnded n.val s) := by
  have hun : ((!(s.tree n.val).resumeHost && !(s.tree n.val).resumeDev) : Bool) = false := by
    rcases h with h | h <;> simp [h]
  simp [exec, execResumeEnd, hun, resumeEnded]

theorem State.tree_raise (u b : Nat) (s : State) (n : Nat) : (raise u b s).tree n = s.tree n := by
  have hut : (raise u b s).ut = s.ut := raise_frame (κ := 23) (by decide) (.refl 23 s)
  rw [State.tree, hut, State.tree]

theorem ne_evstat_treeWord {n : TreePort} {f : Fld} (h : treeWord n.val f.key) : f.key ≠ (EVSTAT 19).key :=
  ne_evstat (not_leafKey_treeWord n.isLt h) 19

/-- Settles O26. -/
theorem usbSuspendAndResume : Obligations.UsbSuspendAndResume := by
  have hraise (f : Fld) (b v : Nat) (s : State) : onlyWrites [f, EVSTAT 19] [.mg] s (raise 19 b (s.wr f v)) :=
    ((onlyWrites_wr f v s).mono (by simp) (by simp)).trans ((onlyWrites_raise 19 b _).mono (by simp) (List.Subset.refl _))
  refine ⟨?_, ?_, ?_, ?_, ?_, ?_⟩
  · intro s hp hs
    refine ⟨_, exec_globalSuspend hp hs, ?_, leafSet_raise _ _ _ (by decide), hraise _ _ _ s⟩
    rw [rd_raise_ne _ _ _ _ (by decide)]
    exact rd_wr_of_lt _ _ _ (by decide)
  · intro s hs
    have hset : onlyWrites [USB_STAT_SUSP, EVSTAT 19] [.mg] s ((s.wr USB_STAT_SUSP 0).setMgmt { s.mg with wake := false }) :=
      ((onlyWrites_wr _ _ s).mono (by simp) (by simp)).trans (onlyWrites_setMgmt _ _ _)
    refine ⟨_, exec_globalSuspendEnd hs, ?_, leafSet_raise _ _ _ (by decide),
      hset.trans ((onlyWrites_raise 19 6 _).mono (by simp) (List.Subset.refl _))⟩
    rw [suspendEnded, rd_raise_ne _ _ _ _ (by decide)]
    exact rd_wr_of_lt USB_STAT_SUSP 0 s (by decide)
  · intro n s he
    have hexec : exec (.portSuspend n) s = .next (s.wr (USB_PST_SUSP n.val) 1) := by simp [exec, execPortSuspend, he]
    exact ⟨_, hexec, rd_wr_of_lt _ _ _ (show 1 < 2 ^ 1 by decide), onlyWrites_wr _ _ s⟩
  · intro n e s hc hs
    have hw := treeWord_fields n.val (USB_PST_RWAKE n.val) (by simp)
    have hset := ((hraise (USB_PST_RWAKE n.val) 4 1 s).mono (List.Subset.refl _) (qs := [.sent, .mg, .ut]) (by simp)).trans
      ((onlyWrites_setTree _ _ n.val { (raise 19 4 (s.wr (USB_PST_RWAKE n.val) 1)).tree n.val with resumeDev := true }).mono
        (List.Subset.refl _) (by simp))
    have hrd : (raise 19 4 (s.wr (USB_PST_RWAKE n.val) 1)).rd (USB_PST_RWAKE n.val) = 1 :=
      (rd_raise_ne _ _ _ _ (ne_evstat_treeWord hw)).trans (rd_wr_of_lt _ _ _ (show 1 < 2 ^ 1 by decide))
    have hleaf := leafSet_raise 19 4 (s.wr (USB_PST_RWAKE n.val) 1) (by decide)
    have hexec := exec_remoteWake (e := e) hc hs
    rw [remoteWoken] at hexec
    generalize raise 19 4 (s.wr (USB_PST_RWAKE n.val) 1) = u at hset hrd hleaf hexec
    refine ⟨_, hexec, ?_⟩
    split
    · exact ⟨hrd, by simp, hleaf, hset.trans ((onlyWrites_emit _ _ _).mono (List.Subset.refl _) (by simp))⟩
    · exact ⟨hrd, by simp, hleaf, hset⟩
  · intro n s hs
    have hexec : exec (.clearfeaturePortSuspend n) s = .next (s.setTree n.val { s.tree n.val with resumeHost := true }) := by
      simp [exec, execClearfeaturePortSuspend, hs]
    exact ⟨_, hexec, by simp, partsOnly_of_exec hexec (List.Subset.refl _)⟩
  · intro n s h
    have hsw := treeWord_fields n.val (USB_PST_SUSP n.val) (by simp)
    have hne : (USB_PST_SUSP n.val).key ≠ (USB_PST_RWAKE n.val).key := by simp [USB_PST_SUSP, USB_PST_RWAKE, fld]
    have hsusp : ((s.wr (USB_PST_SUSP n.val) 0).setTree n.val { s.tree n.val with cSusp := true, resumeHost := false, resumeDev := false }).rd
        (USB_PST_SUSP n.val) = 0 := (State.rd_setTree ..).trans (rd_wr_of_lt _ _ _ (show 0 < 2 ^ 1 by decide))
    have hset := ((onlyWrites_wr (USB_PST_SUSP n.val) 0 s).mono (gs := [USB_PST_SUSP n.val, USB_PST_RWAKE n.val, EVSTAT 19]) (qs := [.mg, .ut])
      (by simp) (by simp)).trans ((onlyWrites_setTree _ _ n.val { s.tree n.val with cSusp := true, resumeHost := false, resumeDev := false }).mono
        (List.Subset.refl _) (by simp))
    have htree := State.tree_setTree_same (s.wr (USB_PST_SUSP n.val) 0) n.val
      { s.tree n.val with cSusp := true, resumeHost := false, resumeDev := false }
    have hexec := exec_resumeEnd h
    rw [resumeEnded] at hexec
    generalize (s.wr (USB_PST_SUSP n.val) 0).setTree n.val _ = u at hsusp hset htree hexec
    refine ⟨_, hexec, ?_⟩
    split
    · refine ⟨?_, ?_, ?_, ?_, (hset.trans ((onlyWrites_wr _ _ _).mono (by simp) (by simp))).trans
        ((onlyWrites_raise 19 4 _).mono (by simp) (by simp))⟩
      · rw [rd_raise_ne _ _ _ _ (ne_evstat_treeWord hsw), State.rd_wr_ne _ _ _ _ hne, hsusp]
      all_goals rw [State.tree_raise, State.tree_wr, htree]
    · exact ⟨hsusp, by rw [htree], by rw [htree], by rw [htree], hset⟩

/-! ### Tree ports connect, reset and fail (R337 to R340, R344, R345) -/

theorem onlyWrites_treeSwitch (n : Nat) (b : Bool) (s : State) : onlyWrites [USB_PST_PWR n] [.sent] s (treeSwitch n b s) :=
  .ite (((onlyWrites_wr _ _ s).mono (List.Subset.refl _) (by simp)).trans (onlyWrites_emit _ _ _)) (.refl _ _ s)

/-- After a switch of a port's power the port has it, where the port has a switch or had it already. -/
theorem rd_treeSwitch {n : Nat} (b : Bool) {s : State} (hn : 7 ≤ n ∧ n ≤ 26) : (treeSwitch n b s).rd (USB_PST_PWR n) = b2n b := by
  have hlt : s.rd (USB_PST_PWR n) < 2 := State.rd_lt s (USB_PST_PWR n)
  by_cases hne : s.on (USB_PST_PWR n) = b
  · have : s.rd (USB_PST_PWR n) = b2n b := by
      cases b
      · simpa [State.on, b2n] using hne
      · have : s.rd (USB_PST_PWR n) ≠ 0 := by simpa [State.on] using hne
        simp only [b2n, if_true]
        omega
    simpa [treeSwitch, hne] using this
  · have hsw : treeSwitch n b s = (s.setB (USB_PST_PWR n) b).emit (.pin "UPEN" (n + 13) b) := if_pos ⟨hn.1, hn.2, hne⟩
    rw [hsw]
    exact rd_wr_of_lt _ _ _ (show b2n b < 2 ^ 1 by cases b <;> decide)

theorem tree_treeSwitch (n : Nat) (b : Bool) (s : State) (m : Nat) : (treeSwitch n b s).tree m = s.tree m := by
  have hut : (treeSwitch n b s).ut = s.ut := treeSwitch_frame (κ := 23) (by decide) (.refl 23 s)
  rw [State.tree, hut, State.tree]

/-- A device has appeared on a tree port. -/
theorem exec_deviceConnect {n : TreePort} {m : Bool} {s : State} (he : (treeExternal s n.val).isSome = true) (hd : treeData s n.val = true) :
    exec (.deviceConnect n (some m)) s =
      .next ((s.wrs [(USB_PST_CONN n.val, 1), (USB_PST_SPEED n.val, b2n m)]).setTree n.val { s.tree n.val with cConn := true }) := by
  have : treeExternal s n.val ≠ none := Option.isSome_iff_ne_none.1 he
  simp [exec, execDeviceConnect, this, hd]

theorem exec_deviceDisconnect {n : TreePort} {s : State} (he : (treeExternal s n.val).isSome = true) (hd : treeData s n.val = true)
    (hc : s.on (USB_PST_CONN n.val) = true) :
    exec (.deviceConnect n none) s = .next ((treeDrop n.val s).setTree n.val { (treeDrop n.val s).tree n.val with cConn := true }) := by
  have : treeExternal s n.val ≠ none := Option.isSome_iff_ne_none.1 he
  simp [exec, execDeviceConnect, this, hd, hc]

/-- A port's reset has ended: the port is enabled. -/
def portEnabled (k v : Nat) (s : State) : State :=
  (s.wrs [(USB_PST_EN k, 1), (USB_PST_SUSP k, 0), (USB_PST_SPEED k, v)]).setTree k
    { s.tree k with cRst := true, resumeHost := false, resumeDev := false }

theorem exec_portReset {n : TreePort} {v : Fin 4} {s : State} (hc : (resetBehind n.val s).on (USB_PST_CONN n.val) = true) (hv : v.val ≠ 3) :
    exec (.portReset n v) s = .next (portEnabled n.val v.val (resetBehind n.val s)) := by
  simp [exec, execPortReset, hc, hv, portEnabled]

theorem nodup_enabled (k v : Nat) :
    (([(USB_PST_EN k, 1), (USB_PST_SUSP k, 0), (USB_PST_SPEED k, v)] : List (Fld × Nat)).map fun x => x.1.key).Nodup := by
  simp [USB_PST_EN, USB_PST_SUSP, USB_PST_SPEED, fld]

theorem portEnabled_effects (k : Nat) {v : Nat} (hv : v < 4) (s : State) :
    (portEnabled k v s).rd (USB_PST_EN k) = 1 ∧ (portEnabled k v s).rd (USB_PST_SUSP k) = 0 ∧ (portEnabled k v s).rd (USB_PST_SPEED k) = v ∧
      ((portEnabled k v s).tree k).cRst = true ∧
      onlyWrites [USB_PST_EN k, USB_PST_SUSP k, USB_PST_SPEED k] [.ut] s (portEnabled k v s) := by
  refine ⟨rd_wrs_eq (nodup_enabled k v) (by simp) (show 1 < 2 ^ 1 by decide) s, rd_wrs_eq (nodup_enabled k v) (by simp) (show 0 < 2 ^ 1 by decide) s,
    rd_wrs_eq (nodup_enabled k v) (by simp) (show v < 2 ^ 2 from hv) s, ?_, ?_⟩
  · exact congrArg TreeP.cRst (State.tree_setTree_same ..)
  · exact ((onlyWrites_wrs (by simp) s).mono (List.Subset.refl _) (by simp)).trans (onlyWrites_setTree _ _ _ _)

/-- The ports of an internal hub, all of them beyond the internal ones. -/
theorem mem_hubPorts {k n : Nat} (hk : k < 4) (h : n ∈ (List.range 7).map (7 * (k + 1) + ·)) : 7 ≤ n ∧ n < 35 := by
  obtain ⟨j, hj, rfl⟩ := List.mem_map.1 h
  have := List.mem_range.1 hj
  omega

theorem resetBehind_external {k : Nat} (h : 5 ≤ k) (s : State) : resetBehind k s = s := by
  rw [resetBehind, if_neg (by omega), if_neg (by omega)]

theorem resetBehind_hub {k : Nat} (h : k < 4) (s : State) : resetBehind k s = forAll ((List.range 7).map (7 * (k + 1) + ·)) treeOff s := by
  rw [resetBehind, if_neg (by omega), if_pos h]

/-- A hub's reset leaves the registers of the internal ports. -/
theorem rd_resetBehind_hub {k : Nat} (h : k < 4) (s : State) (f : Fld) (hf : treeWord k f.key) : (resetBehind k s).rd f = s.rd f := by
  rw [resetBehind_hub h]
  refine forAll_induction (P := fun u => u.rd f = s.rd f) rfl fun n hn u hu => ?_
  have hrange := mem_hubPorts h hn
  exact ((onlyKeys_treeOff hrange.2 u).1 f (not_treeWord_of_ne hf (by omega))).trans hu

theorem nodup_functionReset :
    (([(USB_MGT_CONF, 0), (USB_MGT_ALT, 0), (USB_MGT_EP1HALT, 0), (USB_MGT_RWEN, 0), (USB_MGT_ADDR, 0), (SYS_DWCTL_BUSY 1, 0)] : List (Fld × Nat)).map
      fun x => x.1.key).Nodup := by decide

theorem functionReset_effects (s : State) :
    (functionReset s).rd USB_MGT_CONF = 0 ∧ (functionReset s).rd USB_MGT_ADDR = 0 ∧ (functionReset s).ut.toggle = false ∧
      mfind (functionReset s).mg.bursts 1 = none := by
  exact ⟨rd_wrs_eq nodup_functionReset (by simp) (by decide) s, rd_wrs_eq nodup_functionReset (by simp) (by decide) s, rfl,
    by simp [functionReset, mfind_mdel]⟩

/-- A babble has been reported: the port is disabled. -/
def babbled (k : Nat) (s : State) : State :=
  raise 19 2 (((s.wr (USB_PST_EN k) 0).inc (USB_PST_BABBLE k)).setTree k { s.tree k with cEn := true })

theorem exec_babble {n : TreePort} {s : State} (h : s.on (USB_PST_EN n.val) = true) : exec (.babble n) s = .next (babbled n.val s) := by
  simp [exec, execBabble, h, babbled]

theorem exec_overcurrent {n : TreePort} {s : State} (he : (treeExternal s n.val).isSome = true) (hlo : 7 ≤ n.val) (hhi : n.val ≤ 26)
    (hp : s.on (USB_PST_PWR n.val) = true) : exec (.overcurrent n) s = .next (treeOvercurrent n.val s) := by
  have : treeExternal s n.val ≠ none := Option.isSome_iff_ne_none.1 he
  simp [exec, execOvercurrent, he, hlo, hhi, hp]

/-- What an overcurrent has done to its port before its leaf is raised. -/
theorem treeOvercurrent_effects {n : Nat} (hn : 7 ≤ n ∧ n ≤ 26) (s : State) :
    (treeOvercurrent n s).rd (USB_PST_PWR n) = 0 ∧ (treeOvercurrent n s).rd (USB_PST_OC n) = 1 ∧
      (treeOvercurrent n s).rd (USB_PST_OCCNT n) = satInc 255 (s.rd (USB_PST_OCCNT n)) := by
  have hw := treeWord_fields n
  have hleaf (f : Fld) (h : treeWord n f.key) : f.key ≠ (EVSTAT 19).key := ne_evstat (not_leafKey_treeWord (by omega) h) 19
  have hdrop : (treeDrop n s).rd (USB_PST_OCCNT n) = s.rd (USB_PST_OCCNT n) :=
    rd_restore_ne s (by simp [USB_PST_OCCNT, USB_PST_CONN, USB_PST_EN, USB_PST_SUSP, USB_PST_SPEED, fld])
  have hsw := rd_treeSwitch false (s := treeDrop n s) hn
  have hcnt : (treeSwitch n false (treeDrop n s)).rd (USB_PST_OCCNT n) = s.rd (USB_PST_OCCNT n) :=
    (rd_treeSwitch_ne _ _ _ _ (by simp [USB_PST_OCCNT, USB_PST_PWR, fld])).trans hdrop
  simp only [treeOvercurrent]
  generalize treeSwitch n false (treeDrop n s) = u at hsw hcnt
  refine ⟨?_, ?_, ?_⟩
  · rw [rd_raise_ne _ _ _ _ (hleaf _ (hw _ (by simp))), State.inc, State.rd_wr_ne _ _ _ _ (by simp [USB_PST_OCCNT, USB_PST_PWR, fld]),
      State.rd_wr_ne _ _ _ _ (by simp [USB_PST_OC, USB_PST_PWR, fld]), State.rd_setTree]
    exact hsw
  · rw [rd_raise_ne _ _ _ _ (hleaf _ (hw _ (by simp))), State.inc, State.rd_wr_ne _ _ _ _ (by simp [USB_PST_OCCNT, USB_PST_OC, fld])]
    exact rd_wr_of_lt _ _ _ (show 1 < 2 ^ 1 by decide)
  · rw [rd_raise_ne _ _ _ _ (hleaf _ (hw _ (by simp))), rd_inc_eq_satInc, State.rd_wr_ne _ _ _ _ (by simp [USB_PST_OC, USB_PST_OCCNT, fld]),
      State.rd_setTree, hcnt]
    rfl

/-- A port that has a physical port with a switch of its own is one of UH1's to UH3's. -/
theorem treeExternal_switched {s : State} {n p : Nat} (h : treeExternal s n = some p) (hp : 20 ≤ p) (hn : n < 35) : 7 ≤ n ∧ n ≤ 26 := by
  by_contra hout
  simp only [treeExternal, if_neg hout] at h
  split at h
  · cases h
  · rename_i q hq
    have hqp : q = p := by
      split at h
      · exact Option.some.inj h
      · cases h
    subst hqp
    split at hq
    · split at hq <;> simp_all <;> omega
    · split at hq
      · simp at hq
        omega
      · cases hq

theorem exec_portPower_on {n : TreePort} {p : Nat} {s : State} (hr : treeRuns s = true) (hi : treeInternal n.val = false)
    (he : treeExternal s n.val = some p) (hp : 20 ≤ p) (hm : treeMayPower s n.val = true) :
    exec (.portPower n true) s = .next (treeSwitch n.val true ((s.setTree n.val { s.tree n.val with on := true }).wr (USB_PST_OC n.val) 0)) := by
  simp [exec, execPortPower, hr, hi, he, hp, hm]

theorem exec_portPower_off {n : TreePort} {p : Nat} {s : State} (hr : treeRuns s = true) (hi : treeInternal n.val = false)
    (he : treeExternal s n.val = some p) :
    exec (.portPower n false) s = .next ((treeSwitch n.val false (treeDrop n.val s)).setTree n.val
      { (treeSwitch n.val false (treeDrop n.val s)).tree n.val with on := false }) := by
  simp [exec, execPortPower, hr, hi, he]

theorem partsOnly_resetHub {k : Nat} (h : k < 4) (s : State) : partsOnly [.regs, .sent, .ut] s (resetBehind k s) := by
  rw [resetBehind_hub h]
  exact partsOnly_of_parts (fun k hk => forAll_frame (fun n u hu => treeOff_frame (testBit_sub rfl hk) hu) (.refl k s))

/-- A reset of the management function's port leaves the function in its default state, whether the port is then enabled or not. -/
theorem exec_functionPortReset (v : Fin 4) (s : State) : ∃ t, exec (.portReset 4 v) s = .next t ∧ t.rd USB_MGT_CONF = 0 ∧ t.rd USB_MGT_ADDR = 0 ∧
    t.ut.toggle = false ∧ mfind t.mg.bursts 1 = none ∧ partsOnly [.regs, .mg, .ut] s t := by
  have hfun : partsOnly [.regs, .mg, .ut] s (functionReset s) := partsOnly_of_parts (fun k hk => functionReset_frame (testBit_sub rfl hk) (.refl k s))
  obtain ⟨hconf, haddr, htog, hbursts⟩ := functionReset_effects s
  have hexec : exec (.portReset 4 v) s =
      .next (if !(functionReset s).on (USB_PST_CONN 4) ∨ v.val = 3 then functionReset s else portEnabled 4 v.val (functionReset s)) := by
    simp only [exec, execPortReset]
    exact (apply_ite Host.Outcome.next ..).symm
  refine ⟨_, hexec, ?_⟩
  split
  · exact ⟨hconf, haddr, htog, hbursts, hfun⟩
  · obtain ⟨-, -, -, -, hset⟩ := portEnabled_effects 4 v.isLt (functionReset s)
    have hkeep (f : Fld) (hf : f.key < 0x480800) : (portEnabled 4 v.val (functionReset s)).rd f = (functionReset s).rd f :=
      hset.1 f (by simp only [List.forall_mem_cons, List.not_mem_nil, false_implies, implies_true, and_true, USB_PST_EN, USB_PST_SUSP, USB_PST_SPEED, fld]; omega)
    exact ⟨(hkeep _ (by decide)).trans hconf, (hkeep _ (by decide)).trans haddr, htog, hbursts, hfun.trans (hset.2.mono (by simp))⟩

/-- Settles O25. -/
theorem treePortsConnectAndFail : Obligations.TreePortsConnectAndFail := by
  refine ⟨?_, ?_, ?_, ?_, ?_, ?_, ?_, ?_, ?_⟩
  · intro n m s he hd
    have hnodup : (([(USB_PST_CONN n.val, 1), (USB_PST_SPEED n.val, b2n m)] : List (Fld × Nat)).map fun x => x.1.key).Nodup := by
      simp [USB_PST_CONN, USB_PST_SPEED, fld]
    have hm : b2n m < 2 ^ 2 := by cases m <;> decide
    exact ⟨_, exec_deviceConnect he hd, rd_wrs_eq hnodup (by simp) (show 1 < 2 ^ 1 by decide) s, rd_wrs_eq hnodup (by simp) hm s,
      congrArg TreeP.cConn (State.tree_setTree_same ..),
      ((onlyWrites_wrs (by simp) s).mono (List.Subset.refl _) (by simp)).trans (onlyWrites_setTree _ _ _ _)⟩
  · intro n s he hd hc
    have hexec := exec_deviceDisconnect he hd hc
    have hdrop := rd_treeDrop n.val s
    exact ⟨_, hexec, hdrop.1, hdrop.2, congrArg TreeP.cConn (State.tree_setTree_same ..), partsOnly_of_exec hexec (by simp [touches])⟩
  · intro n v s hn hc hv
    have hexec := exec_portReset (n := n) (v := v) (s := s) (by rwa [resetBehind_external hn]) hv
    rw [resetBehind_external hn] at hexec
    exact ⟨_, hexec, portEnabled_effects n.val v.isLt s⟩
  · intro n v s hn hc hv
    have hconn : (resetBehind n.val s).on (USB_PST_CONN n.val) = true := by
      rw [State.on, rd_resetBehind_hub hn s _ (treeWord_fields n.val _ (by simp))]
      exact hc
    have hexec := exec_portReset (v := v) hconn hv
    obtain ⟨hen, -, hspeed, -, hset⟩ := portEnabled_effects n.val v.isLt (resetBehind n.val s)
    obtain ⟨t, ht, hparts⟩ : ∃ t, t = portEnabled n.val v.val (resetBehind n.val s) ∧ partsOnly [.regs, .sent, .ut] s t :=
      ⟨_, rfl, (partsOnly_resetHub hn s).trans (hset.2.mono (by simp))⟩
    rw [← ht] at hexec hen hspeed hset
    refine ⟨t, hexec, hen, hspeed, fun j hj => ?_, hparts⟩
    have hoff := rd_forAll_treeOff (fun m hm => (mem_hubPorts hn hm).2) (List.mem_map_of_mem (f := (7 * (n.val + 1) + ·)) (List.mem_range.2 hj)) s
    rw [← resetBehind_hub hn] at hoff
    have hkeep (f : Fld) (hf : treeWord (7 * (n.val + 1) + j) f.key) : t.rd f = (resetBehind n.val s).rd f := by
      have hout := not_treeWord_of_ne (n := n.val) hf (by omega)
      exact hset.1 f fun g hg e => hout (e ▸ treeWord_fields n.val g (by fin_cases hg <;> simp))
    exact ⟨(hkeep _ (treeWord_fields _ _ (by simp))).trans hoff.1, (hkeep _ (treeWord_fields _ _ (by simp))).trans hoff.2⟩
  · intro v s
    obtain ⟨t, hexec, h⟩ := exec_functionPortReset v s
    exact ⟨t, hexec, h⟩
  · intro n s he hlo hhi hp
    have hexec := exec_overcurrent he hlo hhi hp
    obtain ⟨hpwr, hoc, hcnt⟩ := treeOvercurrent_effects ⟨hlo, hhi⟩ s
    exact ⟨_, hexec, hpwr, hoc, leafSet_raise _ _ _ (by decide), hcnt, partsOnly_of_exec hexec (List.Subset.refl _)⟩
  · intro n s he
    have hw := treeWord_fields n.val
    have hen : (USB_PST_EN n.val).key ≠ (USB_PST_BABBLE n.val).key := by simp [USB_PST_EN, USB_PST_BABBLE, fld]
    refine ⟨_, exec_babble he, ?_, ?_, leafSet_raise _ _ _ (by decide), ?_⟩
    · rw [babbled, rd_raise_ne _ _ _ _ (ne_evstat_treeWord (hw _ (by simp))), State.rd_setTree, State.inc, State.rd_wr_ne _ _ _ _ hen]
      exact rd_wr_of_lt _ _ _ (show 0 < 2 ^ 1 by decide)
    · rw [babbled, rd_raise_ne _ _ _ _ (ne_evstat_treeWord (hw _ (by simp))), State.rd_setTree, rd_inc_eq_satInc, State.rd_wr_ne _ _ _ _ hen.symm]
      rfl
    · exact ((((onlyWrites_wr _ _ s).mono (by simp) (by simp)).trans ((onlyWrites_inc (USB_PST_BABBLE n.val) _).mono (by simp) (by simp))).trans
        ((onlyWrites_setTree _ _ _ _).mono (List.Subset.refl _) (by simp))).trans ((onlyWrites_raise 19 2 _).mono (by simp) (by simp))
  · intro n p s hr hi he hp hm
    have hn := treeExternal_switched he hp n.isLt
    constructor
    · have hexec := exec_portPower_on hr hi he hp hm
      refine ⟨_, hexec, rd_treeSwitch true hn, ?_, partsOnly_of_exec hexec (List.Subset.refl _)⟩
      rw [tree_treeSwitch, State.tree_wr, State.tree_setTree_same]
    · have hexec := exec_portPower_off hr hi he
      exact ⟨_, hexec, rd_treeSwitch false hn, congrArg TreeP.on (State.tree_setTree_same ..), partsOnly_of_exec hexec (List.Subset.refl _)⟩
  · intro n b s
    constructor
    · have hexec : exec (.clearTtBuffer n b) s = .next (s.setTree n.val { s.tree n.val with tt := (s.tree n.val).tt.filter (· ≠ b.toNat) }) := rfl
      exact ⟨_, hexec, by simp, partsOnly_of_exec hexec (List.Subset.refl _)⟩
    · have hexec : exec (.resetTt n) s = .next (s.setTree n.val { s.tree n.val with tt := [] }) := rfl
      exact ⟨_, hexec, by simp, partsOnly_of_exec hexec (List.Subset.refl _)⟩

/-! ### The upstream of UH0 and the management function (R328, R331, R342, R344) -/

/-- The tree's registers and the management function's: what a reset of the tree may write. -/
def treeResetKey (k : Nat) : Prop := (0x480800 ≤ k ∧ k < 0x480c60) ∨ k = USB_STAT_SUSP.key ∨
  k ∈ [USB_MGT_CONF.key, USB_MGT_ALT.key, USB_MGT_EP1HALT.key, USB_MGT_RWEN.key, USB_MGT_ADDR.key, (SYS_DWCTL_BUSY 1).key]

theorem onlyKeys_functionReset (s : State) : onlyKeys treeResetKey s (functionReset s) := by
  refine .of_regs (.wrs (.refl _ s) ?_) rfl
  simp only [List.forall_mem_cons, List.not_mem_nil, false_implies, implies_true, and_true]
  refine ⟨⟨.inr (.inr ?_), ?_⟩, ⟨.inr (.inr ?_), ?_⟩, ⟨.inr (.inr ?_), ?_⟩, ⟨.inr (.inr ?_), ?_⟩, ⟨.inr (.inr ?_), ?_⟩, .inr (.inr ?_), ?_⟩ <;> decide

theorem onlyKeys_treeReset (s : State) : onlyKeys treeResetKey s (treeReset s) := by
  refine .forAll (.wr (onlyKeys_functionReset s) (.inr (.inl rfl)) (by decide)) fun n hn u => ?_
  have hn := List.mem_range.1 hn
  refine (onlyKeys_treeOff hn u).mono fun k hk => .inl ?_
  simp only [treeWord] at hk
  omega

theorem treeReset_effects (s : State) :
    (treeReset s).rd USB_STAT_SUSP = 0 ∧ (treeReset s).rd USB_MGT_CONF = 0 ∧ (∀ n, n < 35 → (treeReset s).rd (USB_PST_EN n) = 0) := by
  have hkeep (f : Fld) (hf : f.key < 0x480800) (u : State) : (forAll (List.range 35) treeOff u).rd f = u.rd f :=
    forAll_induction (P := fun v => v.rd f = u.rd f) rfl fun n hn v hv =>
      ((onlyKeys_treeOff (List.mem_range.1 hn) v).1 f (by simp only [treeWord]; omega)).trans hv
  refine ⟨?_, ?_, fun n hn => ?_⟩
  · exact (hkeep _ (by decide) _).trans (rd_wr_of_lt _ _ _ (by decide))
  · exact (hkeep _ (by decide) _).trans ((State.rd_wr_ne _ _ _ _ (by decide)).trans (functionReset_effects s).1)
  · exact (rd_forAll_treeOff (fun m hm => List.mem_range.1 hm) (List.mem_range.2 hn) _).1

theorem ut_treeDrop (n : Nat) (s : State) : (treeDrop n s).ut.toggle = s.ut.toggle ∧ (treeDrop n s).ut.passed = s.ut.passed := by
  have hut : (restore [USB_PST_CONN n, USB_PST_EN n, USB_PST_SUSP n, USB_PST_SPEED n] s).ut = s.ut := restore_frame (κ := 23) (by decide) (.refl 23 s)
  unfold treeDrop
  generalize restore _ s = v at hut
  rw [← hut]
  exact ⟨rfl, rfl⟩

/-- The part of the tree's state that a reset of ports leaves. -/
theorem toggle_treeReset (s : State) : (treeReset s).ut.toggle = false ∧ (treeReset s).ut.passed = s.ut.passed := by
  refine forAll_induction (P := fun u => u.ut.toggle = false ∧ u.ut.passed = s.ut.passed) ⟨rfl, rfl⟩ fun n _ u hu => ?_
  have hdrop := ut_treeDrop n u
  have hsw (v : State) : (treeSwitch n false v).ut = v.ut := treeSwitch_frame (κ := 23) (by decide) (.refl 23 v)
  unfold treeOff
  have h := hsw (treeDrop n u)
  generalize treeSwitch n false _ = w at h
  exact ⟨(congrArg Tree.toggle h).trans (hdrop.1.trans hu.1), (congrArg Tree.passed h).trans (hdrop.2.trans hu.2)⟩

/-- The downstream candidate has been settled (R329). -/
def downstreamSet (s : State) : State :=
  let dn := crownCode ([0, 1].find? fun c => isDown s c && holdsRole s c 1)
  if dn = s.rd USB_STAT_DNSEL then s else (treeDrop 5 s).wr USB_STAT_DNSEL dn

/-- The upstream has become the one of a code (R331). -/
def upstreamSet (up : Nat) (s : State) : State :=
  let t := treeReset (s.wrs [(USB_STAT_PULLUP, 0), (USB_STAT_SPEED, 0)])
  let t := (t.wrs [(USB_STAT_UPSEL, up), (USB_STAT_PULLUP, b2n (up ≠ 0))]).inc USB_STAT_SWITCHES
  (raise 19 0 t).emit (.pin "UH0 pull-up" up (up ≠ 0))

/-- The code of the upstream that R328 names. -/
def upstreamCode (s : State) : Nat := crownCode (if treeRuns s then namedUpstream s else none)

theorem updateTree_eq (s : State) : updateTree s =
    if upstreamCode s = (downstreamSet s).rd USB_STAT_UPSEL then downstreamSet s else upstreamSet (upstreamCode s) (downstreamSet s) := rfl

theorem rd_upsel_downstreamSet (s : State) : (downstreamSet s).rd USB_STAT_UPSEL = s.rd USB_STAT_UPSEL := by
  unfold downstreamSet
  dsimp only
  split
  · rfl
  · rw [State.rd_wr_ne _ _ _ _ (by decide)]
    exact (onlyKeys_treeDrop (n := 5) (by decide) s).1 _ (by simp only [treeWord]; decide)

theorem namedUpstream_lt {s : State} {c : Nat} (h : namedUpstream s = some c) : c < 2 := by
  have := List.mem_of_find?_eq_some h
  simp only [List.mem_cons, List.not_mem_nil, or_false] at this
  omega

theorem upstreamCode_lt (s : State) : upstreamCode s < 4 := by
  unfold upstreamCode
  split
  · cases h : namedUpstream s with
    | none => decide
    | some c =>
      have := namedUpstream_lt h
      simp only [crownCode]
      omega
  · decide

theorem upstreamSet_effects {up : Nat} (hup : up < 4) (s : State) : (upstreamSet up s).rd USB_STAT_UPSEL = up ∧ leafSet (upstreamSet up s) 19 0 := by
  constructor
  · unfold upstreamSet
    dsimp only
    rw [State.rd_emit, rd_raise_ne _ _ _ _ (by decide), State.inc, State.rd_wr_ne _ _ _ _ (by decide)]
    exact rd_wrs_eq (by simp [USB_STAT_UPSEL, USB_STAT_PULLUP, fld]) (by simp) hup _
  · exact leafSet_raise 19 0 _ (by decide)

/-- Whether the upstream changes or stays, it is the one that R328 names. -/
theorem rd_upsel_updateTree (s : State) : (updateTree s).rd USB_STAT_UPSEL = upstreamCode s := by
  rw [updateTree_eq]
  split
  · next h => exact h.symm
  · exact (upstreamSet_effects (upstreamCode_lt s) _).1

/-- A change of the upstream sets its leaf. -/
theorem leafSet_updateTree {s : State} (h : upstreamCode s ≠ s.rd USB_STAT_UPSEL) : leafSet (updateTree s) 19 0 := by
  rw [updateTree_eq, rd_upsel_downstreamSet, if_neg h]
  exact (upstreamSet_effects (upstreamCode_lt s) _).2

theorem passed_updateTree (s : State) : (updateTree s).ut.passed = s.ut.passed := by
  have hdown : (downstreamSet s).ut.passed = s.ut.passed := by
    unfold downstreamSet
    dsimp only
    split
    · rfl
    · exact (ut_treeDrop 5 s).2
  rw [updateTree_eq]
  split
  · exact hdown
  · have hraise (t : State) : (raise 19 0 t).ut = t.ut := raise_frame (κ := 23) (by decide) (.refl 23 t)
    have hreset := (toggle_treeReset ((downstreamSet s).wrs [(USB_STAT_PULLUP, 0), (USB_STAT_SPEED, 0)])).2
    unfold upstreamSet
    dsimp only
    refine (congrArg Tree.passed (hraise _)).trans (.trans ?_ hdown)
    exact hreset

/-! #### Passing over a candidate -/

/-- The state in which a crown port has been passed over. -/
def passedOver (c : Nat) (s : State) : State :=
  { s with ut := { s.ut with passed := if bit s.ut.passed c then s.ut.passed else s.ut.passed + 2 ^ c } }

theorem exec_passOver {c : Crown} {s : State} (hup : s.rd USB_STAT_UPSEL = c.val + 1) (hother : candidate s (1 - c.val) = true) :
    exec (.passOver c) s = .next (updateTree (passedOver c.val s)) := by
  simp [exec, execPassOver, hup, hother, passedOver]

theorem bit_passedOver_self (c : Nat) (s : State) : bit (passedOver c s).ut.passed c = true := by
  by_cases h : bit s.ut.passed c = true
  · simp [passedOver, h]
  · simp only [passedOver, if_neg h]
    rw [bit_eq_testBit] at h ⊢
    rw [Nat.add_comm, Nat.testBit_two_pow_add_eq]
    simpa using h

theorem bit_passedOver_other {c : Nat} (hc : c < 2) (s : State) (h : bit s.ut.passed (1 - c) = false) :
    bit (passedOver c s).ut.passed (1 - c) = false := by
  by_cases hb : bit s.ut.passed c = true
  · simpa [passedOver, hb] using h
  · simp only [passedOver, if_neg hb]
    obtain rfl | rfl : c = 0 ∨ c = 1 := by omega
    all_goals simp only [bit, decide_eq_true_eq, decide_eq_false_iff_not] at h hb ⊢
    all_goals omega

/-- With one candidate passed over, R328 names the other one. -/
theorem namedUpstream_passedOver {c : Nat} {s : State} (hc : c < 2) (h : candidate s (1 - c) = true) (hb : bit s.ut.passed (1 - c) = false) :
    namedUpstream (passedOver c s) = some (1 - c) := by
  have hcand (d : Nat) : candidate (passedOver c s) d = candidate s d := rfl
  have hself := bit_passedOver_self c s
  have hother := bit_passedOver_other hc s hb
  obtain rfl | rfl : c = 0 ∨ c = 1 := by omega
  · simp only [Nat.sub_zero] at h hother ⊢
    simp [namedUpstream, List.find?, hcand, hself, hother, h]
  · simp only [Nat.sub_self] at h hother ⊢
    simp [namedUpstream, List.find?, hcand, hother, h]

theorem upstreamCode_passedOver {c : Nat} {s : State} (hc : c < 2) (h : candidate s (1 - c) = true) (hb : bit s.ut.passed (1 - c) = false)
    (hr : treeRuns s = true) : upstreamCode (passedOver c s) = 2 - c := by
  have hruns : treeRuns (passedOver c s) = true := hr
  rw [upstreamCode, if_pos hruns, namedUpstream_passedOver hc h hb]
  simp only [crownCode]
  omega

/-! #### A bus reset -/

/-- The upstream has been reset, at a speed. -/
def busReset (v : Nat) (s : State) : State := raise 19 1 (((treeReset s).wr USB_STAT_SPEED v).inc USB_MGT_RESETS)

theorem exec_busReset {h : Bool} {s : State} (hp : s.on USB_STAT_PULLUP = true) : exec (.busReset h) s = .next (busReset (if h then 2 else 1) s) := by
  simp [exec, execBusReset, hp, busReset]

/-- What neither the speed nor the count nor a leaf is stays as the tree's reset left it. -/
theorem rd_busReset (v : Nat) (s : State) (f : Fld) (hl : f.key ≠ (EVSTAT 19).key) (hs : f.key ≠ USB_STAT_SPEED.key)
    (hr : f.key ≠ USB_MGT_RESETS.key) : (busReset v s).rd f = (treeReset s).rd f := by
  rw [busReset, rd_raise_ne _ _ _ _ hl, State.inc, State.rd_wr_ne _ _ _ _ hr, State.rd_wr_ne _ _ _ _ hs]

theorem toggle_busReset (v : Nat) (s : State) : (busReset v s).ut.toggle = false := by
  have hraise (t : State) : (raise 19 1 t).ut = t.ut := raise_frame (κ := 23) (by decide) (.refl 23 t)
  exact (congrArg Tree.toggle (hraise _)).trans (toggle_treeReset s).1

theorem rd_busReset_counts {v : Nat} (hv : v < 4) (s : State) :
    (busReset v s).rd USB_STAT_SPEED = v ∧ (busReset v s).rd USB_MGT_RESETS = satInc 255 (s.rd USB_MGT_RESETS) := by
  have hkept : (treeReset s).rd USB_MGT_RESETS = s.rd USB_MGT_RESETS := (onlyKeys_treeReset s).1 _ (by simp only [treeResetKey]; decide)
  constructor
  · rw [busReset, rd_raise_ne _ _ _ _ (by decide), State.inc, State.rd_wr_ne _ _ _ _ (by decide)]
    exact rd_wr_of_lt _ _ _ hv
  · rw [busReset, rd_raise_ne _ _ _ _ (by decide), rd_inc_eq_satInc, State.rd_wr_ne _ _ _ _ (by decide), hkept]
    rfl

/-! #### The function's own requests -/

theorem onlyWrites_setTreeState (fs : List Fld) (s : State) (x : Tree) : onlyWrites fs [.ut] s { s with ut := x } := by
  refine ⟨fun _ _ => rfl, fun q hq => ?_⟩
  cases q
  case ut => simp at hq
  all_goals rfl

theorem exec_setConfiguration {c : Byte} {s : State} (h : c.toNat ≤ 1) :
    exec (.setConfiguration c) s = .next ((resetEp1 s).wrs [(USB_MGT_CONF, c.toNat), (USB_MGT_ALT, 0), (USB_MGT_EP1HALT, 0)]) := by
  simp only [exec, execSetConfiguration, if_pos h]

/-- The alternate setting has been taken. -/
def interfaceSet (a : Nat) (s : State) : State :=
  (resetEp1 (if a = s.rd USB_MGT_ALT then s else rebuildReport s)).wrs [(USB_MGT_ALT, a), (USB_MGT_EP1HALT, 0)]

theorem exec_setInterface {a : Byte} {s : State} (hc : s.on USB_MGT_CONF = true) (h : a.toNat ≤ 3) :
    exec (.setInterface a) s = .next (interfaceSet a.toNat s) := by
  simp only [exec, execSetInterface, if_pos (And.intro hc h), interfaceSet]

theorem onlyWrites_rebuildReport (fs : List Fld) (s : State) : onlyWrites fs [.mg] s (rebuildReport s) :=
  .ite (.refl _ _ s) (onlyWrites_setMgmt fs s _)

theorem interfaceSet_effects {a : Nat} (ha : a ≤ 3) (s : State) : (interfaceSet a s).rd USB_MGT_ALT = a ∧ (interfaceSet a s).ut.toggle = false ∧
    onlyWrites [USB_MGT_ALT, USB_MGT_EP1HALT] [.mg, .ut] s (interfaceSet a s) := by
  have hbuilt : onlyWrites [USB_MGT_ALT, USB_MGT_EP1HALT] [.mg, .ut] s (if a = s.rd USB_MGT_ALT then s else rebuildReport s) :=
    .ite (.refl _ _ s) ((onlyWrites_rebuildReport _ s).mono (List.Subset.refl _) (by simp))
  unfold interfaceSet
  generalize (if a = s.rd USB_MGT_ALT then s else rebuildReport s) = u at hbuilt
  refine ⟨rd_wrs_eq (by simp [USB_MGT_ALT, USB_MGT_EP1HALT, fld]) (by simp) (show a < 2 ^ 2 by omega) _, rfl, ?_⟩
  exact (hbuilt.trans ((onlyWrites_setTreeState _ u _).mono (List.Subset.refl _) (by simp))).trans
    ((onlyWrites_wrs (by simp) _).mono (List.Subset.refl _) (by simp))

/-! #### Descriptors (R333 to R335) -/

theorem hubDescriptors (n : Fin 5) (s : State) : ∃ d c h, treeDescriptor (.hub n) 1 s = some d ∧ treeDescriptor (.hub n) 2 s = some c ∧
    treeDescriptor (.hub n) 0x29 s = some h ∧ leAt d 2 2 = 0x0210 ∧ byteAt d 4 = 9 ∧ byteAt d 6 = (if highSpeed s then 2 else 0) ∧ byteAt d 7 = 64 ∧
    leAt d 8 2 = 0x4F5A ∧ leAt d 10 2 = (if n.val = 0 then 0x96A0 else 0x96A1) ∧ leAt d 12 2 = 0x0101 ∧ byteAt d 17 = 1 ∧
    byteAt c 7 = 0xE0 ∧ byteAt c 8 = 0 ∧ byteAt h 2 = 7 ∧ leAt h 3 2 = (if n.val = 0 then 0x000D else 0x0009) ∧ byteAt h 5 = 50 ∧ byteAt h 6 = 0 ∧
    byteAt h 7 = (match n.val with | 0 => 0xBE | 4 => 0xC0 | _ => 0x00) := by
  refine ⟨_, _, _, rfl, rfl, rfl, ?_⟩
  cases hs : highSpeed s
  all_goals
    fin_cases n
    all_goals simp only [deviceDescriptor, configurationDescriptor, hs]
    all_goals decide

/-- Settles O24. -/
theorem usbUpstreamAndFunction : Obligations.UsbUpstreamAndFunction := by
  refine ⟨?_, ?_, ?_, ?_, ?_, ?_, ?_, ?_, hubDescriptors, ?_⟩
  · intro s
    have hexec : exec .upstreamChange s = .next (updateTree s) := rfl
    exact ⟨_, hexec, rd_upsel_updateTree s, partsOnly_of_exec hexec (by simp [touches])⟩
  · intro c s hup hother hb hr
    have hc : c.val < 2 := c.isLt
    have hcode := upstreamCode_passedOver hc hother hb hr
    have hpassed := passed_updateTree (passedOver c.val s)
    refine ⟨_, exec_passOver hup hother, ?_, (rd_upsel_updateTree _).trans hcode, leafSet_updateTree ?_⟩
    · rw [hpassed]
      exact bit_passedOver_self c.val s
    · have hold : (passedOver c.val s).rd USB_STAT_UPSEL = c.val + 1 := hup
      rw [hcode, hold]
      omega
  · intro h s hp
    have hexec := exec_busReset (h := h) hp
    obtain ⟨hsusp, hconf, hen⟩ := treeReset_effects s
    have hv : (if h then 2 else 1) < 4 := by cases h <;> decide
    obtain ⟨hspeed, hcount⟩ := rd_busReset_counts hv s
    have hparts := partsOnly_of_exec (ps := [.regs, .sent, .mg, .ut]) hexec (by simp [touches])
    have hrd := rd_busReset (if h then 2 else 1) s
    refine ⟨_, hexec, hspeed, leafSet_raise _ _ _ (by decide), (hrd _ (by decide) (by decide) (by decide)).trans hsusp, hcount,
      (hrd _ (by decide) (by decide) (by decide)).trans hconf, toggle_busReset _ s, fun n hn => ?_, hparts⟩
    have hw : 0x480800 ≤ (USB_PST_EN n).key := (treeWord_fields n _ (by simp)).1.trans' (by omega)
    refine (hrd _ ?_ ?_ ?_).trans (hen n hn)
    · exact ne_evstat (not_leafKey_treeWord hn (treeWord_fields n _ (by simp))) 19
    · exact fun e => absurd (e ▸ hw) (by decide)
    · exact fun e => absurd (e ▸ hw) (by decide)
  · intro s
    have hexec : exec .clearFeatureEndpointHalt s =
        .next (((resetEp1 s).setMgmt { (resetEp1 s).mg with ep1Silent := 0 }).wr USB_MGT_EP1HALT 0) := rfl
    refine ⟨_, hexec, rd_wr_of_lt _ _ _ (by decide), rfl, ?_⟩
    exact (((onlyWrites_setTreeState _ s _).mono (List.Subset.refl _) (by simp)).trans
      ((onlyWrites_setMgmt _ (resetEp1 s) _).mono (List.Subset.refl _) (by simp))).trans ((onlyWrites_wr _ _ _).mono (by simp) (by simp))
  · intro c s hc
    have hnodup : (([(USB_MGT_CONF, c.toNat), (USB_MGT_ALT, 0), (USB_MGT_EP1HALT, 0)] : List (Fld × Nat)).map fun x => x.1.key).Nodup := by
      simp [USB_MGT_CONF, USB_MGT_ALT, USB_MGT_EP1HALT, fld]
    refine ⟨_, exec_setConfiguration hc, rd_wrs_eq hnodup (by simp) (show c.toNat < 2 ^ 1 by omega) _, rd_wrs_eq hnodup (by simp) (by decide) _, rfl,
      (onlyWrites_setTreeState _ s _).trans ((onlyWrites_wrs (by simp) _).mono (List.Subset.refl _) (by simp))⟩
  · intro c s hc
    simp [exec, execSetConfiguration, Nat.not_le.2 hc]
  · intro a s hc ha
    exact ⟨_, exec_setInterface hc ha, interfaceSet_effects ha s⟩
  · intro a s h
    have : ¬ (s.on USB_MGT_CONF = true ∧ a.toNat ≤ 3) := by
      rintro ⟨hc, ha⟩
      rcases h with h | h
      · simp [h] at hc
      · omega
    simp only [exec, execSetInterface, if_neg this]
  · intro f s
    exact ⟨_, by cases f <;> rfl, by simp [bosDescriptor, containerId]⟩

end Sys2Proof.Machine
end

section
set_option Elab.async false
/-! Time: bases, event pins, time frames and link time. -/

namespace Sys2Proof.Machine

open Sys2Proof Sys2Proof.Laws

/-! ### Time bases (R354) -/

theorem exec_wrap {n : TimeBase} {s : State} (hr : tbRunning s n.val = true) (hc : baseCarries s n.val = true) :
    exec (.wrap n) s =
      .next (raise 20 n.val ({ s with tb := mput 0 s.tb n.val ((mget 0 s.tb n.val + incOf s n.val) % 2 ^ 64) }.incMod (TIM_TBWRAP_WRAPS n.val))) := by
  simp only [exec, execWrap, hr, hc, Bool.and_self, if_true, baseCycle]

/-! ### Event pins (R374 to R377) -/

theorem onlyWrites_driveEvt (fs : List Fld) (e : Nat) (b : Bool) (s : State) : onlyWrites fs [.sent, .bt, .ev] s (driveEvt e b s) := by
  have hregs : (showEvt e (s.setEvt e { s.evt e with active := b })).regs = s.regs := showEvt_frame (κ := 1) (by decide) (by rfl)
  refine ⟨fun f _ => ?_, ?_⟩
  · rw [driveEvt, State.rd_emit]
    simp only [State.rd, hregs]
  · exact (partsOnly_of_parts (ps := [.sent, .bt, .ev]) fun k hk => driveEvt_frame (testBit_sub rfl hk) (.refl k s)).mono (by simp)

theorem evt_driveEvt (e : Nat) (b : Bool) (s : State) : ((driveEvt e b s).evt e).active = b := by
  have hev : (showEvt e (s.setEvt e { s.evt e with active := b })).ev = (s.setEvt e { s.evt e with active := b }).ev :=
    showEvt_frame (κ := 22) (by decide) (.refl 22 _)
  rw [driveEvt]
  show ((showEvt e _).evt e).active = b
  rw [State.evt, hev]
  exact congrArg Evt.active (State.evt_setEvt_same ..)

theorem evt_raise (u b : Nat) (s : State) (e : Nat) : (raise u b s).evt e = s.evt e := by
  have hev : (raise u b s).ev = s.ev := raise_frame (κ := 22) (by decide) (.refl 22 s)
  rw [State.evt, hev, State.evt]

theorem exec_compare {e : EvtPin} {s : State} (hc : comparing s e.val = true) (hr : compareReached s e.val = true) :
    exec (.compare e) s = .next (fireCompare e.val s) := by
  simp [exec, execCompare, hc, hr]

theorem exec_rasterCompare {e : EvtPin} {s : State} (hm : evtMode s e.val = 3 ∨ evtMode s e.val = 4)
    (hl : s.rd (TIM_EVRAS_LINE e.val) < s.rd SCHED_LTOT_TOTAL) (hr : rasterReached s e.val = true)
    (hd : (s.evt e.val).frames % s.rd (TIM_EVCTL_DIV e.val) = 0) :
    exec (.rasterCompare e) s = .next (raise 20 (8 + e.val) (driveEvt e.val true s)) := by
  simp [exec, execRasterCompare, hm, hl, hr, hd]

theorem exec_pulseEnd {e : EvtPin} {s : State} (hm : evtMode s e.val = 1 ∨ evtMode s e.val = 3) (ha : (s.evt e.val).active = true) :
    exec (.pulseEnd e) s = .next (driveEvt e.val false s) := by
  simp [exec, execPulseEnd, hm, ha]

/-- An edge's capture: the leaf of a lost edge, or the edge's time. -/
def captured (k : Nat) (s : State) : State :=
  if s.on (TIM_EVCST_VALID k) then raise 20 24 (s.wr (TIM_EVCST_OVF k) 1)
  else raise 20 (16 + k) (s.wrs [(TIM_EVCNS_NS k, mget 0 s.tb (s.rd (TIM_EVCTL_TBSEL k)) / 2 ^ 32),
    (TIM_EVCST_TFRAC k, mget 0 s.tb (s.rd (TIM_EVCTL_TBSEL k)) / 2 ^ 24), (TIM_EVCST_LINE k, s.sc.lpos / 2 ^ 32), (TIM_EVCST_LFRAC k, s.sc.lpos / 2 ^ 24),
    (TIM_EVCST_EDGE k, 1), (TIM_EVCST_VALID k, 1)])

/-- The bases that wait for an edge of a pin (R356). -/
def armedFor (k : Nat) (s : State) : List Nat :=
  (List.range 4).filter fun b => s.on (TIM_TBCTL_ARMED b) && s.rd (TIM_TBCTL_STSRC b) = 8 + k

theorem exec_capture {e : EvtPin} {s : State} (hm : evtMode s e.val = 5 ∨ evtMode s e.val = 7) :
    exec (.capture e true) s = .next (forAll (armedFor e.val s) startBase (captured e.val s)) := by
  rcases hm with hm | hm <;> simp [exec, execCapture, hm, captured, armedFor, b2n]

/-- The registers of the time bases. -/
def baseKey (k : Nat) : Prop := 0x280000 ≤ k ∧ k < 0x280800

theorem onlyKeys_startBase {n : Nat} (hn : n < 4) (s : State) : onlyKeys baseKey s (startBase n s) := by
  refine .of_regs (t := (noteChange n s).wrs _) (.wrs (.of_regs (.refl _ s) rfl) ?_) rfl
  simp only [List.forall_mem_cons, List.not_mem_nil, false_implies, implies_true, and_true, baseKey, leafKey, TIM_TBCTL_RUN, TIM_TBCTL_ARMED,
    TIM_TBWRAP_WRAPS, fld]
  omega

theorem onlyKeys_startArmed (k : Nat) (s t : State) : onlyKeys baseKey t (forAll (armedFor k s) startBase t) :=
  .forAll (.refl _ t) fun _ hn u => onlyKeys_startBase (List.mem_range.1 (List.mem_filter.1 hn).1) u

theorem nodup_captured (k a b c d : Nat) :
    (([(TIM_EVCNS_NS k, a), (TIM_EVCST_TFRAC k, b), (TIM_EVCST_LINE k, c), (TIM_EVCST_LFRAC k, d), (TIM_EVCST_EDGE k, 1), (TIM_EVCST_VALID k, 1)] :
      List (Fld × Nat)).map fun x => x.1.key).Nodup := by
  simp [TIM_EVCNS_NS, TIM_EVCST_TFRAC, TIM_EVCST_LINE, TIM_EVCST_LFRAC, TIM_EVCST_EDGE, TIM_EVCST_VALID, fld]
  omega

/-- The registers of an event pin are no leaf's, and no time base's. -/
theorem evtPinKey {k : Nat} (hk : k < 8) : ∀ f ∈ [TIM_EVCST_VALID k, TIM_EVCST_OVF k, TIM_EVCNS_NS k, TIM_EVCST_EDGE k, TIM_EVCMP_CMP k],
    f.key ≠ (EVSTAT 20).key ∧ ¬ baseKey f.key := by
  have hleaf {f : Fld} (h : ¬ leafKey f.key) : f.key ≠ (EVSTAT 20).key := ne_evstat h 20
  simp only [List.forall_mem_cons, List.not_mem_nil, false_implies, implies_true, and_true]
  refine ⟨⟨hleaf ?_, ?_⟩, ⟨hleaf ?_, ?_⟩, ⟨hleaf ?_, ?_⟩, ⟨hleaf ?_, ?_⟩, hleaf ?_, ?_⟩
  all_goals simp only [baseKey, leafKey, TIM_EVCST_VALID, TIM_EVCST_OVF, TIM_EVCNS_NS, TIM_EVCST_EDGE, TIM_EVCMP_CMP, fld]
  all_goals omega

theorem captured_lost {k : Nat} (hk : k < 8) {s : State} (h : s.on (TIM_EVCST_VALID k) = true) :
    (captured k s).rd (TIM_EVCST_OVF k) = 1 ∧ leafSet (captured k s) 20 24 ∧ (captured k s).rd (TIM_EVCNS_NS k) = s.rd (TIM_EVCNS_NS k) := by
  have hkey := evtPinKey hk
  rw [captured, if_pos h]
  refine ⟨?_, leafSet_raise _ _ _ (by decide), ?_⟩
  · rw [rd_raise_ne _ _ _ _ (hkey _ (by simp)).1]
    exact rd_wr_of_lt _ _ _ (show 1 < 2 ^ 1 by decide)
  · rw [rd_raise_ne _ _ _ _ (hkey _ (by simp)).1, State.rd_wr_ne]
    simp only [TIM_EVCNS_NS, TIM_EVCST_OVF, fld]
    omega

theorem captured_taken {k : Nat} (hk : k < 8) {s : State} (h : s.on (TIM_EVCST_VALID k) = false) :
    (captured k s).rd (TIM_EVCST_VALID k) = 1 ∧ leafSet (captured k s) 20 (16 + k) ∧ (captured k s).rd (TIM_EVCST_EDGE k) = 1 ∧
      (captured k s).rd (TIM_EVCNS_NS k) = mget 0 s.tb (s.rd (TIM_EVCTL_TBSEL k)) / 2 ^ 32 % 2 ^ 32 := by
  have hkey := evtPinKey hk
  rw [captured, if_neg (by simp [h])]
  refine ⟨?_, leafSet_raise _ _ _ (by omega), ?_, ?_⟩
  · rw [rd_raise_ne _ _ _ _ (hkey _ (by simp)).1]
    exact rd_wrs_eq (nodup_captured ..) (by simp) (show 1 < 2 ^ 1 by decide) s
  · rw [rd_raise_ne _ _ _ _ (hkey _ (by simp)).1]
    exact rd_wrs_eq (nodup_captured ..) (by simp) (show 1 < 2 ^ 1 by decide) s
  · rw [rd_raise_ne _ _ _ _ (hkey _ (by simp)).1]
    exact State.rd_wrs_of_mem (e := (TIM_EVCNS_NS k, _)) (nodup_captured ..) (by simp) s

/-! ### Time frames (R365 to R367) -/

theorem egressReport_none {p n : Nat} {h : Bytes} {s : State} (hn : ((List.range 16).findSome? fun i => upTunnel s p 4 i) = none) :
    egressReport p n h s = s := by
  simp only [egressReport, hn]

theorem sent_egressReport (p n : Nat) (h : Bytes) (s : State) : (egressReport p n h s).sent = s.sent :=
  egressReport_frame (κ := 4) (by decide) (.refl 4 s)

theorem exec_timeSendReport {p : Port} {h f : Bytes} {s : State} (hb : byteAt h 0 = 0x11) :
    exec (.timeSendReport p h f) s = .next (egressReport p.val (cmdBase h) h (sendFrame p.val f s)) := by
  simp [exec, execTimeSendReport, hb]

theorem exec_timeSendCorrection_none {p : Port} {h f : Bytes} {s : State} (hb : byteAt h 0 = 0x12)
    (hc : corrected (stampOut s p.val (cmdBase h)) h f = none) :
    exec (.timeSendCorrection p h f) s = .next (egressReport p.val (cmdBase h) h (sendFrame p.val f s)) := by
  simp [exec, execTimeSendCorrection, hb, hc]

/-! ### Link time (R369, R370) -/

/-- An exchange has begun at the upstream end: its TSYNC is sent. -/
def exchangeBegun (p : Nat) (s : State) : State :=
  (s.setCan p { s.can p with seqTx := ((s.can p).seqTx + 1) % 64, xch := some { seq := ((s.can p).seqTx + 1) % 64, times := [(1, quarterK (stampOut s p (linkBase s p)))] } }).emit
    (.can p "TSYNC" [((s.can p).seqTx + 1) % 64, linkBase s p])

theorem exec_linkTimeTsync {p : CanPort} {s : State} (hc : carriesTime s p.val = true) (hu : isUpEnd s p.val = true) :
    exec (.linkTimeTsync p) s = .next (exchangeBegun p.val s) := by
  simp [exec, execLinkTimeTsync, hc, hu, exchangeBegun]

/-- The downstream end has answered a TSYNC with its own and its two times. -/
def exchangeAnswered (p q : Nat) (s : State) : State :=
  let rx := quarterK (stampIn s p (linkBase s p))
  let tx := quarterK (stampOut s p (linkBase s p))
  let t := s.setCan p { s.can p with xch := some { seq := q, times := [(2, rx), (3, tx)] } }
  sendTimes p q tx rx (t.emit (.can p "TSYNC" [q, linkBase s p]))

theorem trx_mem_exchangeAnswered (p q : Nat) (s : State) :
    Out.can p "TRX" [q, linkBase s p, quarterK (stampIn s p (linkBase s p)) / 256, quarterK (stampIn s p (linkBase s p)) % 256] ∈
      (exchangeAnswered p q s).sent :=
  List.mem_cons_self ..

theorem exec_tsync {p : CanPort} {q : Fin 64} {b : TimeBase} {s : State} (hc : carriesTime s p.val = true) (hu : isUpEnd s p.val = false) :
    exec (.tsync p q b) s = .next (exchangeAnswered p.val q.val s) := by
  simp [exec, execTsync, hc, hu, exchangeAnswered]

theorem peerTime_eq {p q k v : Nat} {x : Xch} {s : State} (hc : carriesTime s p = true) (hx : (s.can p).xch = some x) (hq : x.seq = q) :
    peerTime p q k v s = completeExchange p (setTime p k v s) := by
  simp [peerTime, hx, hc, hq]

theorem setTime_eq {p k v : Nat} {x : Xch} {s : State} (hx : (s.can p).xch = some x) :
    setTime p k v s = s.setCan p { s.can p with xch := some { x with times := mins x.times k v } } := by
  simp only [setTime, hx]

theorem xch_setTime {p k v : Nat} {x : Xch} {s : State} (hx : (s.can p).xch = some x) :
    ((setTime p k v s).can p).xch = some { x with times := mins x.times k v } := by
  rw [setTime_eq hx]
  exact congrArg Can.xch (State.can_setCan_same ..)

/-- With a time still missing nothing is complete. -/
theorem completeExchange_eq_self {p k : Nat} {x : Xch} {s : State} (hx : (s.can p).xch = some x) (hk : k ∈ [1, 2, 3, 4]) (hm : mfind x.times k = none) :
    completeExchange p s = s := by
  simp only [completeExchange, hx]
  simp only [List.mem_cons, List.not_mem_nil, or_false] at hk
  split
  · rcases hk with rfl | rfl | rfl | rfl <;> simp_all
  · rfl

/-- The first time of an exchange is kept, and nothing is complete yet. -/
theorem peerTime_first {p q k v : Nat} {x : Xch} {s : State} (hc : carriesTime s p = true) (hx : (s.can p).xch = some x) (hq : x.seq = q)
    (ht : x.times = []) : ((peerTime p q k v s).can p).xch = some { x with times := mins [] k v } ∧ partsOnly [.cn] s (peerTime p q k v s) := by
  have hset := xch_setTime (k := k) (v := v) hx
  rw [ht] at hset
  obtain ⟨j, hj, hne⟩ : ∃ j ∈ [1, 2, 3, 4], j ≠ k := by
    by_cases h : k = 1
    · exact ⟨2, by simp, by omega⟩
    · exact ⟨1, by simp, Ne.symm h⟩
  have hmiss : mfind (mins ([] : NMap Nat) k v) j = none := by
    rw [mfind_mins, if_neg hne]
    rfl
  rw [peerTime_eq hc hx hq, completeExchange_eq_self hset hj hmiss]
  exact ⟨hset, partsOnly_of_parts fun k' hk => setTime_frame (testBit_sub rfl hk) (.refl k' s)⟩

theorem exec_ttx (p : CanPort) (q : Fin 64) (b : TimeBase) (ns : BitVec 22) (fr : BitVec 8) (s : State) :
    exec (.ttx p ⟨q, b⟩ ns fr) s = .next (peerTime p.val q.val (if isUpEnd s p.val then 3 else 1) (ns.toNat * 256 + fr.toNat) s) := rfl

theorem exec_trx (p : CanPort) (q : Fin 64) (b : TimeBase) (ns : BitVec 22) (fr : BitVec 8) (s : State) :
    exec (.trx p ⟨q, b⟩ ns fr) s = .next (peerTime p.val q.val (if isUpEnd s p.val then 2 else 4) (ns.toNat * 256 + fr.toNat) s) := rfl

/-! #### A complete exchange -/

/-- An exchange's results are in their registers. -/
def exchangeRecorded (p seq : Nat) (off dly : Int) (s : State) : State :=
  raise 20 5 (((s.setCan p { s.can p with xch := none, missed := 0 }).wrs
    [(TIM_LNKOFF_OFF p, word32 off), (TIM_LNKDLY_DLY p, word32 dly), (TIM_LNK_SEQ p, seq)]).incMod (TIM_LNK_EXCH p))

/-- At the upstream end no base is steered. -/
theorem finishExchange_up {p seq : Nat} {off dly : Int} {s : State} (hu : isUpEnd s p = true) :
    ∃ n, finishExchange p seq off dly s = linkReport p n (word32 off) (word32 dly) seq (exchangeRecorded p seq off dly s) := by
  have hld : (exchangeRecorded p seq off dly s).ld = s.ld := raise_frame (κ := 8) (by decide) rfl
  have hup : isUpEnd (exchangeRecorded p seq off dly s) p = true := by
    rw [← hu]
    simp only [isUpEnd, isDown, portModes, portRecord, hld]
  have hsteer : steered (exchangeRecorded p seq off dly s) p = none := by simp [steered, hup]
  refine ⟨linkBase (exchangeRecorded p seq off dly s) p, ?_⟩
  rw [exchangeRecorded] at hsteer ⊢
  simp only [finishExchange, hsteer]

theorem not_leafKey_linkTime (p : CanPort) : (TIM_LNK_SEQ p.val).key ≠ (EVSTAT 20).key ∧ (TIM_LNK_SEQ p.val).key ≠ (TIM_LNK_EXCH p.val).key := by
  have hp := p.isLt
  constructor
  · refine ne_evstat ?_ 20
    simp only [leafKey, TIM_LNK_SEQ, fld]
    omega
  · simp [TIM_LNK_SEQ, TIM_LNK_EXCH, fld]

theorem exchangeRecorded_effects (p : CanPort) {seq : Nat} (hseq : seq < 2 ^ 8) (off dly : Int) (s : State) :
    (exchangeRecorded p.val seq off dly s).rd (TIM_LNK_SEQ p.val) = seq ∧ leafSet (exchangeRecorded p.val seq off dly s) 20 5 ∧
      ((exchangeRecorded p.val seq off dly s).can p.val).xch = none ∧ ((exchangeRecorded p.val seq off dly s).can p.val).missed = 0 := by
  have hnodup : (([(TIM_LNKOFF_OFF p.val, word32 off), (TIM_LNKDLY_DLY p.val, word32 dly), (TIM_LNK_SEQ p.val, seq)] : List (Fld × Nat)).map
      fun x => x.1.key).Nodup := by
    simp only [List.map, List.nodup_cons, List.mem_cons, List.not_mem_nil, or_false, TIM_LNKOFF_OFF, TIM_LNKDLY_DLY, TIM_LNK_SEQ, fld, List.nodup_nil,
      not_false_eq_true, and_true]
    omega
  obtain ⟨hleaf, hne⟩ := not_leafKey_linkTime p
  have hcan (u b : Nat) (t : State) : (raise u b t).can p.val = t.can p.val := by
    have hcn : (raise u b t).cn = t.cn := raise_frame (κ := 13) (by decide) (.refl 13 t)
    rw [State.can, hcn, State.can]
  refine ⟨?_, leafSet_raise _ _ _ (by decide), ?_, ?_⟩
  · rw [exchangeRecorded, rd_raise_ne _ _ _ _ hleaf, State.incMod, State.rd_wr_ne _ _ _ _ hne]
    exact rd_wrs_eq hnodup (by simp) hseq _
  all_goals rw [exchangeRecorded, hcan]
  · exact congrArg Can.xch (State.can_setCan_same ..)
  · exact congrArg Can.missed (State.can_setCan_same ..)

/-- A report in the Time tunnel touches the fabric alone. -/
theorem linkReport_keeps (p n off dly seq : Nat) (s : State) :
    (linkReport p n off dly seq s).regs = s.regs ∧ (linkReport p n off dly seq s).cn = s.cn :=
  ⟨linkReport_frame (κ := 1) (by decide) (.refl 1 s), linkReport_frame (κ := 13) (by decide) (.refl 13 s)⟩

/-- With all four times held the exchange is complete. -/
theorem completeExchange_of_times {p t1 t2 t3 t4 : Nat} {x : Xch} {s : State} (hx : (s.can p).xch = some x) (h1 : mfind x.times 1 = some t1)
    (h2 : mfind x.times 2 = some t2) (h3 : mfind x.times 3 = some t3) (h4 : mfind x.times 4 = some t4) :
    ∃ off dly u, completeExchange p s = finishExchange p x.seq off dly u ∧ u.ld = s.ld := by
  have hfree (y : Int) (t : State) : (halfFree y t).2.ld = t.ld := halfFree_frame (κ := 8) (by decide) (.refl 8 t)
  simp only [completeExchange, hx, h1, h2, h3, h4]
  exact ⟨_, _, _, rfl, (hfree _ _).trans (hfree _ s)⟩

/-- With the third time known last, the upstream end completes the exchange. -/
theorem peerTime_third {p q v : Nat} {x : Xch} {s : State} (hc : carriesTime s p = true) (hx : (s.can p).xch = some x) (hq : x.seq = q)
    (h1 : (mfind x.times 1).isSome = true) (h2 : (mfind x.times 2).isSome = true) (h4 : (mfind x.times 4).isSome = true) :
    ∃ off dly u, peerTime p q 3 v s = finishExchange p q off dly u ∧ u.ld = s.ld := by
  obtain ⟨t1, h1⟩ := Option.isSome_iff_exists.1 h1
  obtain ⟨t2, h2⟩ := Option.isSome_iff_exists.1 h2
  obtain ⟨t4, h4⟩ := Option.isSome_iff_exists.1 h4
  have hld : (setTime p 3 v s).ld = s.ld := setTime_frame (κ := 8) (by decide) (.refl 8 s)
  have htime (k t : Nat) (hk : k ≠ 3) (h : mfind x.times k = some t) : mfind (mins x.times 3 v) k = some t := by rw [mfind_mins, if_neg hk, h]
  obtain ⟨off, dly, u, hdone, hu⟩ := completeExchange_of_times (xch_setTime (k := 3) (v := v) hx) (htime 1 t1 (by decide) h1) (htime 2 t2 (by decide) h2)
    ((mfind_mins ..).trans (if_pos rfl)) (htime 4 t4 (by decide) h4)
  rw [peerTime_eq hc hx hq, hdone, ← hq]
  exact ⟨off, dly, u, rfl, hu.trans hld⟩

/-- An exchange is given up (R369, R372). -/
def exchangeDropped (p : Nat) (s : State) : State :=
  (s.setCan p { s.can p with xch := none, missed := min 8 ((s.can p).missed + 1), good := 0 }).inc (TIM_LNK_MISSED p)

/-- An exchange is given up, and with the eighth in succession the lock of the base that it steers. -/
def exchangeAbandoned (p : Nat) (s : State) : State :=
  match steered s p with
  | none => exchangeDropped p s
  | some n => if 8 ≤ (s.can p).missed + 1 then setLock n false (exchangeDropped p s) else exchangeDropped p s

theorem exec_exchangeAbandon {p : CanPort} {s : State} (h : (s.can p.val).xch ≠ none) :
    exec (.exchangeAbandon p) s = .next (exchangeAbandoned p.val s) := by
  simp only [exec, execExchangeAbandon, Option.isNone_iff_eq_none, if_neg h]
  rfl

/-- What becomes of a base's lock leaves the exchange and its count. -/
theorem setLock_keeps (p : CanPort) (n : Nat) (b : Bool) (s : State) :
    (setLock n b s).can p.val = s.can p.val ∧ (setLock n b s).rd (TIM_LNK_MISSED p.val) = s.rd (TIM_LNK_MISSED p.val) := by
  have hp := p.isLt
  have hcn : (setLock n b s).cn = s.cn := setLock_frame (κ := 13) (by decide) (.refl 13 s)
  refine ⟨by rw [State.can, hcn, State.can], ?_⟩
  unfold setLock
  split
  · rfl
  · rw [rd_raise_ne, State.setB, State.rd_wr_ne]
    · simp only [TIM_LNK_MISSED, TIM_TBCTL_LOCK, fld]
      omega
    · refine ne_evstat ?_ 20
      simp only [leafKey, TIM_LNK_MISSED, fld]
      omega

theorem exchangeDropped_effects (p : Nat) (s : State) :
    ((exchangeDropped p s).can p).xch = none ∧ ((exchangeDropped p s).can p).good = 0 ∧
      (exchangeDropped p s).rd (TIM_LNK_MISSED p) = satInc (2 ^ (TIM_LNK_MISSED p).w - 1) (s.rd (TIM_LNK_MISSED p)) := by
  refine ⟨?_, ?_, rd_inc_eq_satInc _ _⟩
  · exact congrArg Can.xch (State.can_setCan_same ..)
  · exact congrArg Can.good (State.can_setCan_same ..)

theorem exchangeAbandoned_effects (p : CanPort) (s : State) :
    ((exchangeAbandoned p.val s).can p.val).xch = none ∧ ((exchangeAbandoned p.val s).can p.val).good = 0 ∧
      (exchangeAbandoned p.val s).rd (TIM_LNK_MISSED p.val) = satInc (2 ^ (TIM_LNK_MISSED p.val).w - 1) (s.rd (TIM_LNK_MISSED p.val)) := by
  have hdrop := exchangeDropped_effects p.val s
  unfold exchangeAbandoned
  split
  · exact hdrop
  · next n _ =>
    split
    · obtain ⟨hcan, hrd⟩ := setLock_keeps p n false (exchangeDropped p.val s)
      rw [hcan, hrd]
      exact hdrop
    · exact hdrop

/-- Settles O27. -/
theorem timeBasesFramesAndEvents : Obligations.TimeBasesFramesAndEvents := by
  refine ⟨?_, ?_, ?_, ?_, ?_, ?_, ?_, ?_, ?_, ?_, ?_, ?_, ?_, ?_⟩
  · intro n s hr hc
    have hn := n.isLt
    have hwraps : (TIM_TBWRAP_WRAPS n.val).key ≠ (EVSTAT 20).key := by
      refine ne_evstat ?_ 20
      simp only [leafKey, TIM_TBWRAP_WRAPS, fld]
      omega
    refine ⟨_, exec_wrap hr hc, ?_, leafSet_raise _ _ _ (by omega), ?_, ?_⟩
    · rw [rd_raise_ne _ _ _ _ hwraps]
      exact State.rd_wr_same ..
    · rw [show (raise 20 n.val _).tb = _ from raise_frame (κ := 16) (by decide) (.refl 16 _)]
      exact mget_mput_same ..
    · exact (((onlyWrites_setTb _ s (mput 0 s.tb n.val ((mget 0 s.tb n.val + incOf s n.val) % 2 ^ 64))).mono (List.Subset.refl _) (by simp)).trans
        ((onlyWrites_wr (TIM_TBWRAP_WRAPS n.val) _ _).mono (by simp) (by simp))).trans ((onlyWrites_raise 20 n.val _).mono (by simp) (by simp))
  · intro e s hc hr
    obtain ⟨hleaf, -⟩ := evtPinKey e.isLt (TIM_EVCMP_CMP e.val) (by simp)
    refine ⟨_, exec_compare hc hr, ?_, leafSet_raise _ _ _ (by omega), ?_, ?_⟩
    · rw [fireCompare, evt_raise]
      exact evt_driveEvt e.val true s
    · rw [fireCompare, rd_raise_ne _ _ _ _ hleaf]
      exact State.rd_wr_same ..
    · exact (((onlyWrites_driveEvt _ e.val true s).mono (List.Subset.refl _) (by simp)).trans ((onlyWrites_wr _ _ _).mono (by simp) (by simp))).trans
        ((onlyWrites_raise 20 _ _).mono (by simp) (by simp))
  · intro e s hm hl hr hd
    refine ⟨_, exec_rasterCompare hm hl hr hd, ?_, leafSet_raise _ _ _ (by omega), ?_⟩
    · rw [evt_raise]
      exact evt_driveEvt e.val true s
    · exact ((onlyWrites_driveEvt _ e.val true s).mono (List.Subset.refl _) (by simp)).trans
        ((onlyWrites_raise 20 _ _).mono (by simp) (by simp))
  · intro e s hm ha
    have hexec := exec_pulseEnd hm ha
    exact ⟨_, hexec, evt_driveEvt e.val false s, partsOnly_of_exec hexec (by simp [touches])⟩
  · intro e s hm
    have hexec := exec_capture hm
    have hkept := onlyKeys_startArmed e.val s (captured e.val s)
    have hkey := evtPinKey e.isLt
    refine ⟨_, hexec, fun h => ?_, fun h => ?_, partsOnly_of_exec hexec (by simp [touches])⟩
    · obtain ⟨hovf, hleaf, hns⟩ := captured_lost e.isLt h
      exact ⟨(hkept.1 _ (hkey _ (by simp)).2).trans hovf, hkept.2 _ _ hleaf, (hkept.1 _ (hkey _ (by simp)).2).trans hns⟩
    · obtain ⟨hvalid, hleaf, hedge, hns⟩ := captured_taken e.isLt h
      exact ⟨(hkept.1 _ (hkey _ (by simp)).2).trans hvalid, hkept.2 _ _ hleaf, (hkept.1 _ (hkey _ (by simp)).2).trans hedge,
        (hkept.1 _ (hkey _ (by simp)).2).trans hns⟩
  · intro p h f s hb
    simp [exec, execTimeSend, hb, sendFrame]
  · intro p h f s hb
    have hexec := exec_timeSendReport (p := p) (f := f) (s := s) hb
    refine ⟨fun _ => ⟨_, hexec, sent_egressReport .., partsOnly_of_exec hexec (List.Subset.refl _)⟩, fun hn => ?_⟩
    rw [hexec, egressReport_none]
    · rfl
    · exact hn
  · intro p h f g s hb hc
    simp [exec, execTimeSendCorrection, hb, hc, sendFrame]
  · intro p h f s hb hc
    have hexec := exec_timeSendCorrection_none hb hc
    exact ⟨_, hexec, sent_egressReport .., partsOnly_of_exec hexec (List.Subset.refl _)⟩
  · intro p s hc hu
    have hexec := exec_linkTimeTsync hc hu
    exact ⟨_, _, hexec, congrArg Can.xch (State.can_setCan_same ..), rfl, rfl, partsOnly_of_exec hexec (List.Subset.refl _)⟩
  · intro p q b s hc hu
    have hexec := exec_tsync (q := q) (b := b) hc hu
    refine ⟨_, _, hexec, congrArg Can.xch (State.can_setCan_same ..), rfl, rfl, rfl,
      ⟨_, _, trx_mem_exchangeAnswered p.val q.val s⟩, partsOnly_of_exec hexec (List.Subset.refl _)⟩
  · intro p q b ns fr x s hc hx hq ht
    constructor
    · obtain ⟨hset, hparts⟩ := peerTime_first (k := if isUpEnd s p.val then 3 else 1) (v := ns.toNat * 256 + fr.toNat) hc hx hq ht
      exact ⟨_, _, exec_ttx p q b ns fr s, hset, by simp [mfind_mins], hparts⟩
    · obtain ⟨hset, hparts⟩ := peerTime_first (k := if isUpEnd s p.val then 2 else 4) (v := ns.toNat * 256 + fr.toNat) hc hx hq ht
      exact ⟨_, _, exec_trx p q b ns fr s, hset, by simp [mfind_mins], hparts⟩
  · intro p q b ns fr x s hc hx hq hu h1 h2 h4
    have hexec := exec_ttx p q b ns fr s
    obtain ⟨off, dly, u, hpeer, hld⟩ := peerTime_third (v := ns.toNat * 256 + fr.toNat) hc hx hq h1 h2 h4
    have huu : isUpEnd u p.val = true := by
      rw [← hu]
      simp only [isUpEnd, isDown, portModes, portRecord, hld]
    obtain ⟨n, hfin⟩ := finishExchange_up (seq := q.val) (off := off) (dly := dly) huu
    rw [hu, if_pos rfl, hpeer, hfin] at hexec
    obtain ⟨hseq, hleaf, hxch, hmissed⟩ := exchangeRecorded_effects p (seq := q.val) (by have := q.isLt; omega) off dly u
    obtain ⟨hregs, hcn⟩ := linkReport_keeps p.val n (word32 off) (word32 dly) q.val (exchangeRecorded p.val q.val off dly u)
    have hkept := (onlyKeys.refl (fun _ => False) (exchangeRecorded p.val q.val off dly u)).of_regs hregs
    have hcan : (linkReport p.val n (word32 off) (word32 dly) q.val (exchangeRecorded p.val q.val off dly u)).can p.val =
        (exchangeRecorded p.val q.val off dly u).can p.val := by rw [State.can, hcn, State.can]
    exact ⟨_, hexec, by rw [hcan, hxch], by rw [hcan, hmissed], (hkept.1 _ id).trans hseq, hkept.2 _ _ hleaf⟩
  · intro p s hx
    have hexec := exec_exchangeAbandon hx
    obtain ⟨hxch, hgood, hmissed⟩ := exchangeAbandoned_effects p s
    exact ⟨_, hexec, hxch, hgood, hmissed, partsOnly_of_exec hexec (List.Subset.refl _)⟩

end Sys2Proof.Machine
end

section
set_option Elab.async false
/-! A path's write of a register, and the tunnel table's parameters. -/

namespace Sys2Proof.Machine

open Sys2Proof Sys2Proof.Laws

/-! ### A path's write of a register -/

/-- A path that reaches the whole map writes a register that its port has by the register's own rule. -/
theorem pathWrite_of_writable {s : State} {p : Path} {a v : Nat} {r : RegId} {i j : Nat} (h : writable s p a) (ha : a ≠ 0x28)
    (hd : decodeFor p.idx a = some (r, i, j)) (hp : lacksPersonality s r i = false) : pathWrite p a v s = writeReg p r i j a v s := by
  obtain ⟨hscope, habs, hlock⟩ := h
  simp [pathWrite, hscope, regWrite, ha, fabricWrite, habs, hd, hlock, hp]

/-! ### Structural events (R23) -/

theorem onlyWrites_structuralEvent (s : State) : onlyWrites [SYS_SETTLE_PEND, SYS_SETTLE_RUN, SYS_GUARD_SETTLED] [.sv] s (structuralEvent s) := by
  have hparts : partsOnly [.regs, .sv] s (structuralEvent s) := partsOnly_of_parts fun k hk => structuralEvent_frame (testBit_sub rfl hk) (.refl k s)
  refine ⟨fun f hf => ?_, hparts⟩
  have hstart : (startSettle s).rd f = s.rd f := State.rd_wrs_ne s _ f (by simpa using hf)
  unfold structuralEvent
  split
  · rfl
  · split
    · exact State.rd_wr_ne s _ f _ (hf _ (by simp))
    · exact hstart

/-- A structural event of a configured hub leaves the settle timer pending. -/
theorem settlePend_structuralEvent {s : State} (h : s.on CFG_STATUS_LOADED = true) : (structuralEvent s).rd SYS_SETTLE_PEND = 1 := by
  unfold structuralEvent
  rw [if_neg (by simp [h])]
  split
  · exact rd_wr_of_lt _ _ _ (by decide)
  · exact rd_wrs_eq (l := [(SYS_SETTLE_PEND, 1), (SYS_SETTLE_RUN, 1), (SYS_GUARD_SETTLED, 0)]) (by decide) (by simp) (by decide) s

/-! ### The tunnel table's parameters (R123) -/

/-- How many addresses a row of the address map spans from its base. -/
def MapRow.span (r : MapRow) : Nat := if r.s1 ≠ 0 then r.s1 * r.c1 else if r.s2 ≠ 0 then r.s2 * r.c2 else if r.s3 ≠ 0 then r.s3 * r.c3 else 1

theorem MapRow.split_lt {d s c : Nat} {x : Nat × Nat} (h : MapRow.split d s c = some x) : (s ≠ 0 → d < s * c) ∧ (s = 0 → x.2 = d) := by
  unfold MapRow.split at h
  split at h
  · next hs => exact ⟨fun hne => absurd hs hne, fun _ => by cases h; rfl⟩
  · next hs =>
    split at h
    · next hlt => exact ⟨fun _ => (Nat.div_lt_iff_lt_mul (by omega)).1 hlt |>.trans_eq (Nat.mul_comm ..), fun h0 => absurd h0 hs⟩
    · cases h

/-- A row holds no address beyond its span. -/
theorem MapRow.at?_of_span {r : MapRow} {a : Nat} (h : a < r.base ∨ r.base + r.span ≤ a) : r.at? a = none := by
  unfold MapRow.at?
  split
  · rfl
  · have ha : r.base + r.span ≤ a := by omega
    split
    · rfl
    · next x d h1 =>
      have h1 := MapRow.split_lt h1
      split
      · rfl
      · next y e h2 =>
        have h2 := MapRow.split_lt h2
        split
        · rfl
        · next z rest h3 =>
          have h3 := MapRow.split_lt h3
          unfold MapRow.span at ha
          rw [if_pos]
          grind

/-- Of the address map only the rows that meet a range decide what stands there. -/
theorem decodeAddr_of_range {lo hi a : Nat} (hlo : lo ≤ a) (hhi : a < hi) :
    decodeAddr a = (mapRows.filter fun r => r.base < hi && lo < r.base + r.span).findSome? fun r => (r.at? a).map fun x => (r.id, x.1, x.2) := by
  unfold decodeAddr
  induction mapRows with
  | nil => rfl
  | cons r l ih =>
    rw [List.filter_cons]
    split
    · rw [List.findSome?_cons, List.findSome?_cons, ih]
    · next hout =>
      have hnone : r.at? a = none := MapRow.at?_of_span (by
        simp only [Bool.and_eq_true, decide_eq_true_eq, not_and, not_lt] at hout
        omega)
      rw [List.findSome?_cons, hnone, ih]
      rfl

/-- The rows of the tunnel table. -/
def tunnelRows : List MapRow := [rowL .TT_STATE 0x400000 64 256, rowL .TT_ENDP 0x400004 64 256, rowL .TT_REQ 0x400008 64 256,
  rowL .TT_ALLOT 0x40000C 64 256, rowL .TT_LIMIT 0x400010 64 256, rowL .TT_SHAPE 0x400014 64 256, rowL .TT_METER 0x400018 64 256,
  rowL .TT_CBS 0x40001C 64 256, rowL .TT_PBS 0x400020 64 256, rowL .TT_SEQ 0x400024 64 256, rowL .TT_SEGIN 0x400028 64 256,
  rowL .TT_SEGOUT 0x40002C 64 256, rowL .TT_DISC 0x400030 64 256]

theorem decodeAddr_tunnelRow {a : Nat} (hlo : 0x400000 ≤ a) (hhi : a < 0x404000) :
    decodeAddr a = tunnelRows.findSome? fun r => (r.at? a).map fun x => (r.id, x.1, x.2) := by
  rw [decodeAddr_of_range hlo hhi]
  rw [show (mapRows.filter fun r => r.base < 0x404000 && 0x400000 < r.base + r.span) = tunnelRows by decide +kernel]

theorem decodeAddr_tunnel (n : Tun) : decodeAddr (0x400010 + 0x40 * n.val) = some (.TT_LIMIT, n.val, 0) ∧
    decodeAddr (0x400014 + 0x40 * n.val) = some (.TT_SHAPE, n.val, 0) ∧ decodeAddr (0x400018 + 0x40 * n.val) = some (.TT_METER, n.val, 0) ∧
    decodeAddr (0x40001C + 0x40 * n.val) = some (.TT_CBS, n.val, 0) ∧ decodeAddr (0x400020 + 0x40 * n.val) = some (.TT_PBS, n.val, 0) := by
  have hn := n.isLt
  refine ⟨?_, ?_, ?_, ?_, ?_⟩
  all_goals rw [decodeAddr_tunnelRow (by omega) (by omega)]
  all_goals revert n
  all_goals decide +kernel

theorem wrTun_of (f : Fld) {c : Prop} [Decidable c] (v : Nat) (s : State) (h : c) : wrTun f (decide c) v s = s.wr f v := if_pos (decide_eq_true h)

theorem wrTun_refused (f : Fld) {b : Bool} (v : Nat) (s : State) (h : b = false) : wrTun f b v s = raise 16 16 s := by
  rw [wrTun, h, if_neg (by simp)]

/-- The keys of an entry's parameters lie in the tunnel table, apart from the leaves of the steward. -/
theorem tunnelParam_keys (n : Nat) : ∀ f ∈ [TT_LIMIT_CEIL n, TT_LIMIT_FLOOR n, TT_SHAPE_BURST n, TT_METER_CIR n, TT_METER_PIR n, TT_CBS_CBS n, TT_PBS_PBS n],
    0x2000000 ≤ f.key := by
  simp only [List.forall_mem_cons, List.not_mem_nil, false_implies, implies_true, and_true, TT_LIMIT_CEIL, TT_LIMIT_FLOOR, TT_SHAPE_BURST,
    TT_METER_CIR, TT_METER_PIR, TT_CBS_CBS, TT_PBS_PBS, fld]
  omega

theorem limit_keys_ne (n : Nat) : (TT_LIMIT_CEIL n).key ≠ (TT_LIMIT_FLOOR n).key ∧ (TT_METER_CIR n).key ≠ (TT_METER_PIR n).key := by
  simp only [TT_LIMIT_CEIL, TT_LIMIT_FLOOR, TT_METER_CIR, TT_METER_PIR, fld]
  omega

/-- What an entry's limits become under a word, a change being a mode change. -/
def limitsPlaced (n v : Nat) (m : Tmpl) (s : State) : State :=
  wrTun (TT_LIMIT_FLOOR n) (m.floor ≤ bits v 10 0 && bits v 10 0 ≤ (wrTun (TT_LIMIT_CEIL n) (bits v 26 16 ≤ m.ceil) (bits v 26 16) s).rd (TT_LIMIT_CEIL n))
    (bits v 10 0) (wrTun (TT_LIMIT_CEIL n) (bits v 26 16 ≤ m.ceil) (bits v 26 16) s)

theorem wrTtLimit_live {n v : Nat} {m : Tmpl} {s : State} (ht : entryTmpl s n = some m) (hl : entryLive s n = true) :
    wrTtLimit n v s = if (limitsPlaced n v m s).rd (TT_LIMIT_CEIL n) ≠ s.rd (TT_LIMIT_CEIL n) ∨ (limitsPlaced n v m s).rd (TT_LIMIT_FLOOR n) ≠ s.rd (TT_LIMIT_FLOOR n)
      then structuralEvent (limitsPlaced n v m s) else limitsPlaced n v m s := by
  simp only [wrTtLimit, ht, hl, Bool.not_true, Bool.false_eq_true, if_false]
  rfl

theorem wrTtLimit_idle {n v : Nat} {s : State} (hl : entryLive s n = false) : wrTtLimit n v s = s := by
  unfold wrTtLimit
  split
  · rfl
  · rw [if_pos (by simp [hl])]

theorem wrTtParam_idle {n v : Nat} {k : TtParam} {s : State} (hl : entryLive s n = false) : wrTtParam n k v s = s := by
  unfold wrTtParam
  split
  · rfl
  · rw [if_pos (by simp [hl])]

/-- Limits within the template are both placed. -/
theorem limitsPlaced_of_within {n v : Nat} {m : Tmpl} {s : State} (hc : bits v 26 16 ≤ m.ceil) (hf : m.floor ≤ bits v 10 0) (hfc : bits v 10 0 ≤ bits v 26 16) :
    limitsPlaced n v m s = (s.wr (TT_LIMIT_CEIL n) (bits v 26 16)).wr (TT_LIMIT_FLOOR n) (bits v 10 0) := by
  have hceil : wrTun (TT_LIMIT_CEIL n) (bits v 26 16 ≤ m.ceil) (bits v 26 16) s = s.wr (TT_LIMIT_CEIL n) (bits v 26 16) := wrTun_of _ _ _ hc
  have hrd : (s.wr (TT_LIMIT_CEIL n) (bits v 26 16)).rd (TT_LIMIT_CEIL n) = bits v 26 16 := rd_wr_of_lt _ _ _ (bits_lt v 26 16)
  rw [limitsPlaced, hceil, hrd, wrTun, if_pos (by simp [hf, hfc])]

theorem rd_ceil_limitsPlaced_above {n v : Nat} {m : Tmpl} {s : State} (hc : m.ceil < bits v 26 16) :
    (limitsPlaced n v m s).rd (TT_LIMIT_CEIL n) = s.rd (TT_LIMIT_CEIL n) ∧ leafSet (limitsPlaced n v m s) 16 16 := by
  have hkey := tunnelParam_keys n
  have hleaf {k : Nat} (h : 0x2000000 ≤ k) : k ≠ (EVSTAT 16).key := fun e => absurd (e ▸ h) (by decide)
  rw [limitsPlaced, wrTun_refused (TT_LIMIT_CEIL n) _ _ (by simpa using hc)]
  generalize hu : raise 16 16 s = u
  have hceil : u.rd (TT_LIMIT_CEIL n) = s.rd (TT_LIMIT_CEIL n) := hu ▸ rd_raise_ne _ _ _ _ (hleaf (hkey _ (by simp)))
  have hset : leafSet u 16 16 := hu ▸ leafSet_raise _ _ _ (by decide)
  unfold wrTun
  split
  · refine ⟨(State.rd_wr_ne _ _ _ _ (limit_keys_ne n).1).trans hceil, ?_⟩
    rw [leafSet, State.rd_wr_ne _ _ _ _ (hleaf (hkey _ (by simp))).symm]
    exact hset
  · exact ⟨(rd_raise_ne _ _ _ _ (hleaf (hkey _ (by simp)))).trans hceil, leafSet_raise _ _ _ (by decide)⟩

theorem exec_ttLimitWrite {p : Path} {n : Tun} {v : Word} {s : State} (h : writable s p (0x400010 + 0x40 * n.val)) :
    exec (.ttLimitWrite p n v) s = .next (wrTtLimit n.val v.toNat s) :=
  congrArg Host.Outcome.next (pathWrite_of_writable h (by omega) (decodeFor_of_decodeAddr (decodeAddr_tunnel n).1 rfl) rfl)

theorem exec_ttParamWrite {p : Path} {n : Tun} {v : Word} {k : TtParam} {s : State} (h : writable s p (0x400000 + 0x40 * n.val + ttOffset k)) :
    exec (.ttParamWrite p n k v) s = .next (wrTtParam n.val k v.toNat s) := by
  obtain ⟨-, hshape, hmeter, hcbs, hpbs⟩ := decodeAddr_tunnel n
  have hat (off : Nat) : 0x400000 + 0x40 * n.val + off = 0x400000 + off + 0x40 * n.val := by omega
  have hne : 0x400000 + 0x40 * n.val + ttOffset k ≠ 0x28 := by omega
  refine congrArg Host.Outcome.next ?_
  cases k
  · exact pathWrite_of_writable (r := .TT_SHAPE) (i := n.val) (j := 0) h hne (decodeFor_of_decodeAddr (hat 0x14 ▸ hshape) rfl) rfl
  · exact pathWrite_of_writable (r := .TT_METER) (i := n.val) (j := 0) h hne (decodeFor_of_decodeAddr (hat 0x18 ▸ hmeter) rfl) rfl
  · exact pathWrite_of_writable (r := .TT_CBS) (i := n.val) (j := 0) h hne (decodeFor_of_decodeAddr (hat 0x1C ▸ hcbs) rfl) rfl
  · exact pathWrite_of_writable (r := .TT_PBS) (i := n.val) (j := 0) h hne (decodeFor_of_decodeAddr (hat 0x20 ▸ hpbs) rfl) rfl

/-- The address of a parameter word, as its offset from the table's first word or from its own. -/
theorem ttParam_address (n : Nat) (k : TtParam) : 0x400000 + 0x40 * n + ttOffset k = 0x400000 + ttOffset k + 0x40 * n := by omega

theorem wrTtParam_live {n v : Nat} {m : Tmpl} {k : TtParam} {s : State} (ht : entryTmpl s n = some m) (hl : entryLive s n = true) :
    wrTtParam n k v s = match k with
      | .shape => wrTun (TT_SHAPE_BURST n) (128 ≤ v && v ≤ m.burst) v s
      | .meter => wrTun (TT_METER_PIR n) ((wrTun (TT_METER_CIR n) (bits v 10 0 ≤ m.cir) (bits v 10 0) s).rd (TT_METER_CIR n) ≤ bits v 26 16 && bits v 26 16 ≤ m.pir)
          (bits v 26 16) (wrTun (TT_METER_CIR n) (bits v 10 0 ≤ m.cir) (bits v 10 0) s)
      | .cbs => wrTun (TT_CBS_CBS n) (v ≤ m.cbs) v s
      | .pbs => wrTun (TT_PBS_PBS n) (v ≤ m.pbs) v s := by
  cases k <;> simp only [wrTtParam, ht, hl, Bool.not_true, Bool.false_eq_true, if_false]

/-- Settles O53. -/
theorem tunnelParametersStayInTheirTemplates : Obligations.TunnelParametersStayInTheirTemplates := by
  refine ⟨?_, ?_, ?_⟩
  · intro p n v m s hw ht hl
    have hexec := exec_ttLimitWrite (v := v) hw
    rw [wrTtLimit_live ht hl] at hexec
    have hkey := tunnelParam_keys n.val
    have hsettle {f : Fld} (h : 0x2000000 ≤ f.key) : ∀ g ∈ [SYS_SETTLE_PEND, SYS_SETTLE_RUN, SYS_GUARD_SETTLED], f.key ≠ g.key := by
      simp only [List.forall_mem_cons, List.not_mem_nil, false_implies, implies_true, and_true, SYS_SETTLE_PEND, SYS_SETTLE_RUN, SYS_GUARD_SETTLED, fld]
      omega
    constructor
    · intro hc hf hfc
      rw [limitsPlaced_of_within hc hf hfc] at hexec
      have hceil : ((s.wr (TT_LIMIT_CEIL n.val) (bits v.toNat 26 16)).wr (TT_LIMIT_FLOOR n.val) (bits v.toNat 10 0)).rd (TT_LIMIT_CEIL n.val) = bits v.toNat 26 16 :=
        (State.rd_wr_ne _ _ _ _ (limit_keys_ne n.val).1).trans (rd_wr_of_lt _ _ _ (bits_lt v.toNat 26 16))
      have hfloor : ((s.wr (TT_LIMIT_CEIL n.val) (bits v.toNat 26 16)).wr (TT_LIMIT_FLOOR n.val) (bits v.toNat 10 0)).rd (TT_LIMIT_FLOOR n.val) = bits v.toNat 10 0 :=
        rd_wr_of_lt _ _ _ (bits_lt v.toNat 10 0)
      have hset : onlyWrites [TT_LIMIT_CEIL n.val, TT_LIMIT_FLOOR n.val, SYS_SETTLE_PEND, SYS_SETTLE_RUN, SYS_GUARD_SETTLED] [.sv] s
          ((s.wr (TT_LIMIT_CEIL n.val) (bits v.toNat 26 16)).wr (TT_LIMIT_FLOOR n.val) (bits v.toNat 10 0)) :=
        ((onlyWrites_wr _ _ s).mono (by simp) (by simp)).trans ((onlyWrites_wr _ _ _).mono (by simp) (by simp))
      have hloaded : ((s.wr (TT_LIMIT_CEIL n.val) (bits v.toNat 26 16)).wr (TT_LIMIT_FLOOR n.val) (bits v.toNat 10 0)).on CFG_STATUS_LOADED = s.on CFG_STATUS_LOADED := by
        have hne {f : Fld} (h : 0x2000000 ≤ f.key) : CFG_STATUS_LOADED.key ≠ f.key := fun e => absurd (e ▸ h) (by decide)
        rw [State.on, State.rd_wr_ne _ _ _ _ (hne (hkey _ (by simp))), State.rd_wr_ne _ _ _ _ (hne (hkey _ (by simp))), State.on]
      generalize (s.wr (TT_LIMIT_CEIL n.val) (bits v.toNat 26 16)).wr (TT_LIMIT_FLOOR n.val) (bits v.toNat 10 0) = u at hexec hceil hfloor hset hloaded
      rw [hceil, hfloor] at hexec
      have hevent := onlyWrites_structuralEvent u
      split at hexec
      · exact ⟨_, hexec, (hevent.1 _ (hsettle (hkey _ (by simp)))).trans hceil, (hevent.1 _ (hsettle (hkey _ (by simp)))).trans hfloor,
          fun _ hl => settlePend_structuralEvent (hloaded.trans hl), hset.trans (hevent.mono (by simp) (List.Subset.refl _))⟩
      · next hsame => exact ⟨_, hexec, hceil, hfloor, fun h => absurd h hsame, hset⟩
    · intro hc
      obtain ⟨hceil, hleaf⟩ := rd_ceil_limitsPlaced_above (n := n.val) (s := s) hc
      generalize limitsPlaced n.val v.toNat m s = u at hexec hceil hleaf
      have hevent := onlyWrites_structuralEvent u
      split at hexec
      · refine ⟨_, hexec, (hevent.1 _ (hsettle (hkey _ (by simp)))).trans hceil, ?_⟩
        rw [leafSet, hevent.1 (EVSTAT 16) (by decide)]
        exact hleaf
      · exact ⟨_, hexec, hceil, hleaf⟩
  · intro p n v m s ht hl
    have hexec (k : TtParam) (hw : writable s p (0x400000 + ttOffset k + 0x40 * n.val)) := (exec_ttParamWrite (v := v) ((ttParam_address n.val k).symm ▸ hw)).trans
      (congrArg Host.Outcome.next (wrTtParam_live ht hl))
    refine ⟨fun hw hlo hhi => ?_, fun hw hout => ?_, fun hw hc hcp hp => ?_, fun hw hc => ?_, fun hw hp => ?_⟩
    · have hwr : wrTun (TT_SHAPE_BURST n.val) (128 ≤ v.toNat && v.toNat ≤ m.burst) v.toNat s = s.wr (TT_SHAPE_BURST n.val) v.toNat := if_pos (by simp [hlo, hhi])
      exact ⟨_, (hexec .shape hw).trans (congrArg _ hwr), rd_wr_of_lt _ _ _ v.isLt, onlyWrites_wr _ _ s⟩
    · have hwr : wrTun (TT_SHAPE_BURST n.val) (128 ≤ v.toNat && v.toNat ≤ m.burst) v.toNat s = raise 16 16 s := wrTun_refused _ _ _ (by simp; omega)
      have hne : (TT_SHAPE_BURST n.val).key ≠ (EVSTAT 16).key := fun e => absurd (e ▸ tunnelParam_keys n.val (TT_SHAPE_BURST n.val) (by simp)) (by decide)
      exact ⟨_, (hexec .shape hw).trans (congrArg _ hwr), rd_raise_ne _ _ _ _ hne, leafSet_raise _ _ _ (by decide), onlyWrites_raise 16 16 s⟩
    · have hcir : wrTun (TT_METER_CIR n.val) (bits v.toNat 10 0 ≤ m.cir) (bits v.toNat 10 0) s = s.wr (TT_METER_CIR n.val) (bits v.toNat 10 0) := wrTun_of _ _ _ hc
      have hrd : (s.wr (TT_METER_CIR n.val) (bits v.toNat 10 0)).rd (TT_METER_CIR n.val) = bits v.toNat 10 0 := rd_wr_of_lt _ _ _ (bits_lt v.toNat 10 0)
      have hrun := hexec .meter hw
      simp only [hcir, hrd] at hrun
      rw [wrTun, if_pos (by simp [hcp, hp])] at hrun
      exact ⟨_, hrun, (State.rd_wr_ne _ _ _ _ (limit_keys_ne n.val).2).trans hrd, rd_wr_of_lt _ _ _ (bits_lt v.toNat 26 16),
        ((onlyWrites_wr _ _ s).mono (by simp) (by simp)).trans ((onlyWrites_wr _ _ _).mono (by simp) (by simp))⟩
    · exact ⟨_, (hexec .cbs hw).trans (congrArg _ (wrTun_of _ _ s hc)), rd_wr_of_lt _ _ _ v.isLt, onlyWrites_wr _ _ s⟩
    · exact ⟨_, (hexec .pbs hw).trans (congrArg _ (wrTun_of _ _ s hp)), rd_wr_of_lt _ _ _ v.isLt, onlyWrites_wr _ _ s⟩
  · intro p n v k s hl
    exact ⟨fun hw => (exec_ttLimitWrite hw).trans (congrArg _ (wrTtLimit_idle hl)), fun hw => (exec_ttParamWrite hw).trans (congrArg _ (wrTtParam_idle hl))⟩

end Sys2Proof.Machine
end

section
set_option Elab.async false
/-! Settings of the scheduler and of a port. -/

namespace Sys2Proof.Machine

open Sys2Proof Sys2Proof.Laws

/-! ### Settings of a port and the scheduler (chapters 07, 10 and 11) -/

theorem decodeAddr_portSettings : ∀ q : Port, decodeAddr (portReg q.val 0x480 4) = some (.GRV_CALCTL, q.val, 0) ∧
    decodeAddr (portReg q.val 0x3004 0x100) = some (.ADP_PCIE, q.val, 0) ∧ decodeAddr (portReg q.val 0x3008 0x100) = some (.ADP_ETHMAP, q.val, 0) ∧
    decodeAddr (portReg q.val 0x300C 0x100) = some (.ADP_ETHCTL, q.val, 0) := by decide +kernel

theorem decodeAddr_fsbase : ∀ d : Pipe, decodeAddr (0x300020 + 0x10000 * d.val) = some (.PIPE_FSBASE, d.val, 0) := by decide +kernel

theorem decodeAddr_raster : decodeAddr 0xC0000 = some (.SCHED_LEAD, 0, 0) ∧ decodeAddr 0xC0014 = some (.SCHED_VIRT, 0, 0) := by decide +kernel

/-- The grove of a port's register is its port's. -/
theorem unitOfAddr_portReg : ∀ q : Port, unitOfAddr (portReg q.val 0x480 4) = portGrove q.val ∧ unitOfAddr (portReg q.val 0x3008 0x100) = portGrove q.val ∧
    unitOfAddr (portReg q.val 0x300C 0x100) = portGrove q.val := by decide

theorem portReg_lt (p off st : Nat) (hoff : off + 4 * st ≤ 0x10000) : portReg p off st < 0x400000 ∧ portReg p off st ≠ 0x28 := by
  have := portPlace_lt p
  have := portGrove_lt p
  have hst : st * portPlace p ≤ st * 3 := Nat.mul_le_mul_left _ (by omega)
  simp only [portReg]
  omega

/-! #### The lead raster (R182, R183) -/

theorem wrWord_schedLead {v : Nat} {s : State} (hu : unbounded s 0xC0000) (hn : bits v 23 20 ≤ 9) :
    wrWord 0xC0000 v (regFields .SCHED_LEAD 0 0) s = wrField 0xC0000 SCHED_LEAD_LINES (bits v 12 0) (s.wr SCHED_LEAD_NSRC (bits v 23 20)) := by
  rw [← wrField_of_unbounded (a := 0xC0000) (f := SCHED_LEAD_NSRC) hu (Nat.zero_le _) hn]
  rfl

theorem wrWord_schedVirt {v : Nat} {s : State} (hu : unbounded s 0xC0014) (hlo : 24000 ≤ bits v 31 14) (hhi : bits v 31 14 ≤ 240000) (hv : 2 ≤ bits v 12 0) :
    wrWord 0xC0014 v (regFields .SCHED_VIRT 0 0) s = (s.wr SCHED_VIRT_RATE (bits v 31 14)).wr SCHED_VIRT_VLINES (bits v 12 0) := by
  have hmax : bits v 12 0 ≤ 8191 := Nat.le_of_lt_succ (bits_lt v 12 0)
  rw [← wrField_of_unbounded (a := 0xC0014) (f := SCHED_VIRT_VLINES) (s := s.wr SCHED_VIRT_RATE (bits v 31 14)) hu hv hmax,
    ← wrField_of_unbounded (a := 0xC0014) (f := SCHED_VIRT_RATE) hu hlo hhi]
  rfl

theorem exec_nsrcWrite {p : Path} {v : Word} {s : State} (h : plainly s p 0xC0000) : exec (.nsrcWrite p v) s = .next (wrSchedLead v.toNat s) :=
  congrArg Host.Outcome.next (pathWrite_of_plainly h (by decide) (decodeFor_of_decodeAddr decodeAddr_raster.1 rfl) rfl)

theorem exec_schedVirtWrite {p : Path} {v : Word} {s : State} (h : plainly s p 0xC0014) : exec (.schedVirtWrite p v) s = .next (wrSchedVirt v.toNat s) :=
  congrArg Host.Outcome.next (pathWrite_of_plainly h (by decide) (decodeFor_of_decodeAddr decodeAddr_raster.2 rfl) rfl)

/-- A change that is a structural event keeps what it does not write. -/
theorem rd_structuralEvent_ne {f : Fld} (s : State) (hp : f.key ≠ SYS_SETTLE_PEND.key) (hr : f.key ≠ SYS_SETTLE_RUN.key)
    (hg : f.key ≠ SYS_GUARD_SETTLED.key) : (structuralEvent s).rd f = s.rd f :=
  (onlyWrites_structuralEvent s).1 f (by simp [hp, hr, hg])

theorem leafSet_structuralEvent {u b : Nat} {s : State} (h : leafSet s u b) : leafSet (structuralEvent s) u b := (onlyKeys_structuralEvent s).2 u b h

theorem sc_structuralEvent (s : State) : (structuralEvent s).sc = s.sc := structuralEvent_frame (κ := 11) (by decide) (.refl 11 s)

theorem sc_raise (u b : Nat) (s : State) : (raise u b s).sc = s.sc := raise_frame (κ := 11) (by decide) (.refl 11 s)

/-- The raster in holdover, its new geometry declared: a mode change (R182). -/
theorem declareGeometry_effects (s : State) : (declareGeometry s).sc.changing = true ∧ (declareGeometry s).rd SCHED_LEAD_STATE = 3 ∧
    leafSet (declareGeometry s) 15 2 ∧ (s.on CFG_STATUS_LOADED = true → (declareGeometry s).rd SYS_SETTLE_PEND = 1) ∧
    (∀ f : Fld, f.key ∉ [SYS_SETTLE_PEND.key, SYS_SETTLE_RUN.key, SYS_GUARD_SETTLED.key, (EVSTAT 15).key, SCHED_LEAD_STATE.key] →
      (declareGeometry s).rd f = s.rd f) := by
  have hrd (f : Fld) (h : f.key ∉ [SYS_SETTLE_PEND.key, SYS_SETTLE_RUN.key, SYS_GUARD_SETTLED.key, (EVSTAT 15).key, SCHED_LEAD_STATE.key]) :
      (declareGeometry s).rd f = s.rd f := by
    simp only [List.mem_cons, List.not_mem_nil, or_false, not_or] at h
    obtain ⟨hp, hr, hg, he, hs⟩ := h
    rw [declareGeometry, rd_structuralEvent_ne _ hp hr hg, rd_raise_ne _ _ _ _ he, State.rd_wr_ne _ _ _ _ hs]
    rfl
  refine ⟨?_, ?_, leafSet_structuralEvent (leafSet_raise _ _ _ (by decide)), fun hl => settlePend_structuralEvent ?_, hrd⟩
  · rw [declareGeometry, sc_structuralEvent, sc_raise]
    rfl
  · rw [declareGeometry, rd_structuralEvent_ne _ (by decide) (by decide) (by decide), rd_raise_ne _ _ _ _ (by decide)]
    exact rd_wr_of_lt _ _ _ (by decide)
  · rw [State.on, rd_raise_ne _ _ _ _ (by decide), State.rd_wr_ne _ _ _ _ (by decide)]
    exact hl

/-! #### A port's calendar and frames (R190, R321, R322, R325) -/

/-- The keys that a port's settings write: none that R31 is judged by. -/
def settingKey (p : Nat) (k : Nat) : Prop := k ∈ [(GRV_CALCTL_TBSEL p).key, (ADP_ETHCTL_FEC p).key, (ADP_ETHCTL_PFCEN p).key, (ADP_ETHCTL_UNTAG p).key] ∨
  k ∈ [SYS_SETTLE_PEND.key, SYS_SETTLE_RUN.key, SYS_GUARD_SETTLED.key] ∨ leafKey k

/-- What R31 is judged by: a port's personality, its byte time, its banks and their entries. -/
theorem not_settingKey (p : Nat) : ∀ f ∈ [ADP_STAT_PERS p, GRV_CALST_BT p, GRV_CALST_BANK p, GRV_CALCTL_LASTA p, GRV_CALCTL_LASTB p, GRV_CALCTL_OVH p],
    ¬ settingKey p f.key := by
  have := portPlace_lt p
  have := portGrove_lt p
  simp only [List.forall_mem_cons, List.not_mem_nil, false_implies, implies_true, and_true]
  simp only [settingKey, leafKey, List.mem_cons, List.not_mem_nil, or_false, fld, portReg,
    ADP_STAT_PERS, GRV_CALST_BT, GRV_CALST_BANK, GRV_CALCTL_LASTA, GRV_CALCTL_LASTB, GRV_CALCTL_OVH, GRV_CALCTL_TBSEL, ADP_ETHCTL_FEC, ADP_ETHCTL_PFCEN, ADP_ETHCTL_UNTAG,
    SYS_SETTLE_PEND, SYS_SETTLE_RUN, SYS_GUARD_SETTLED]
  omega

theorem not_settingKey_entry (p : Nat) {j : Nat} (hj : j < 64) : ¬ settingKey p (GRV_CALA_ENTRY p j).key ∧ ¬ settingKey p (GRV_CALB_ENTRY p j).key := by
  have := portPlace_lt p
  have := portGrove_lt p
  simp only [settingKey, leafKey, List.mem_cons, List.not_mem_nil, or_false, fld, portReg, GRV_CALA_ENTRY, GRV_CALB_ENTRY, GRV_CALCTL_TBSEL,
    ADP_ETHCTL_FEC, ADP_ETHCTL_PFCEN, ADP_ETHCTL_UNTAG, SYS_SETTLE_PEND, SYS_SETTLE_RUN, SYS_GUARD_SETTLED]
  omega

/-- A port's settings leave R31's verdict on an overhead and a maximum frame. -/
theorem keepsR31_of_onlyKeys {p : Nat} {s t : State} (h : onlyKeys (settingKey p) s t) (hatt : t.sv.att = s.sv.att) (hcom : t.sv.commit = s.sv.commit)
    (o m : Nat) : keepsR31 t p o m = keepsR31 s p o m := by
  have hkey := not_settingKey p
  have hrd (f : Fld) (hf : f ∈ [ADP_STAT_PERS p, GRV_CALST_BT p, GRV_CALST_BANK p, GRV_CALCTL_LASTA p, GRV_CALCTL_LASTB p, GRV_CALCTL_OVH p]) :
      t.rd f = s.rd f := h.1 f (hkey f hf)
  have hpers := hrd (ADP_STAT_PERS p) (by simp)
  have halt : altUsb t p = altUsb s p := by rw [altUsb, hpers, hatt, altUsb]
  have hhand : isHandoff t p = isHandoff s p := by rw [isHandoff, hpers, isHandoff]
  have hmax : maxPayload t p = maxPayload s p := by rw [maxPayload, hatt, maxPayload]
  have hunit : worstUnit t p o m = worstUnit s p o m := by
    rw [worstUnit, halt, hhand, hmax, hpers, hrd (GRV_CALST_BT p) (by simp), worstUnit]
  have hbanks : liveBanks t p = liveBanks s p := by
    simp only [liveBanks, hcom, hrd (GRV_CALST_BANK p) (by simp)]
  have hentries (b : Nat) : bankEntries t p b = bankEntries s p b := by
    have hlast (f : Fld) (hw : f.w = 6) : s.rd f < 64 := (State.rd_lt s f).trans_eq (by rw [hw]; rfl)
    have hla := hlast (GRV_CALCTL_LASTA p) rfl
    have hlb := hlast (GRV_CALCTL_LASTB p) rfl
    simp only [bankEntries, hrd (GRV_CALCTL_LASTA p) (by simp), hrd (GRV_CALCTL_LASTB p) (by simp)]
    split
    · exact List.map_congr_left fun j hj => h.1 _ (not_settingKey_entry p (by have := List.mem_range.1 hj; omega)).1
    · exact List.map_congr_left fun j hj => h.1 _ (not_settingKey_entry p (by have := List.mem_range.1 hj; omega)).2
  simp only [keepsR31, hunit, hbanks, hentries, hrd (GRV_CALST_BT p) (by simp)]

theorem exec_ovhWrite {p : Path} {q : Port} {v : Word} {s : State} (h : plainly s p (portReg q.val 0x480 4)) :
    exec (.ovhWrite p q v) s = .next (wrCalctl q.val v.toNat s) :=
  congrArg Host.Outcome.next (pathWrite_of_plainly h (portReg_lt _ _ _ (by decide)).2 (decodeFor_of_decodeAddr (decodeAddr_portSettings q).1 rfl) rfl)

theorem onlyKeys_tbsel (p v : Nat) (s : State) : onlyKeys (settingKey p) s (s.wr (GRV_CALCTL_TBSEL p) v) := by
  refine .wr (.refl _ s) (.inl (by simp)) ?_
  have := portPlace_lt p
  have := portGrove_lt p
  simp only [leafKey, GRV_CALCTL_TBSEL, fld, portReg]
  omega

/-- An overhead waits for the swap (R190). -/
def ovhPlaced (p v : Nat) (s : State) : State :=
  { (s.wr (GRV_CALCTL_TBSEL p) (bits v 26 24)).wr (GRV_CALCTL_OVH p) (bits v 9 0) with sc := { s.sc with ovh := mins s.sc.ovh p (ovhOf s p) } }

theorem wrCalctl_eq {p v : Nat} {s : State} (hu : unbounded s (portReg p 0x480 4)) (ht : bits v 26 24 ≤ 3) :
    wrCalctl p v s = if keepsR31 s p (bits v 9 0) (s.adp p).maxfrm then ovhPlaced p v s else raise (portGrove p) 9 (s.wr (GRV_CALCTL_TBSEL p) (bits v 26 24)) := by
  have htb : wrField (portReg p 0x480 4) (GRV_CALCTL_TBSEL p) (bits v 26 24) s = s.wr (GRV_CALCTL_TBSEL p) (bits v 26 24) :=
    wrField_of_unbounded hu (Nat.zero_le _) ht
  have hovh : wrField (portReg p 0x480 4) (GRV_CALCTL_OVH p) (bits v 9 0) (s.wr (GRV_CALCTL_TBSEL p) (bits v 26 24)) =
      (s.wr (GRV_CALCTL_TBSEL p) (bits v 26 24)).wr (GRV_CALCTL_OVH p) (bits v 9 0) :=
    wrField_of_unbounded (unbounded_wr hu _ _) (Nat.zero_le _) (Nat.le_of_lt_succ (bits_lt v 9 0))
  have hkeep := keepsR31_of_onlyKeys (onlyKeys_tbsel p (bits v 26 24) s) rfl rfl (bits v 9 0) (s.adp p).maxfrm
  have hold : ovhOf (s.wr (GRV_CALCTL_TBSEL p) (bits v 26 24)) p = ovhOf s p := by
    rw [ovhOf, (onlyKeys_tbsel p (bits v 26 24) s).1 _ (not_settingKey p _ (by simp))]
    rfl
  simp only [wrCalctl, htb, hovh, State.adp_wr, hkeep, hold, Bool.not_eq_true', ← Bool.not_eq_true, ite_not]
  rfl

theorem onlyWrites_ovhPlaced (p v : Nat) (s : State) : onlyWrites [GRV_CALCTL_TBSEL p, GRV_CALCTL_OVH p] [.sc] s (ovhPlaced p v s) :=
  (((onlyWrites_wr (GRV_CALCTL_TBSEL p) (bits v 26 24) s).mono (by simp) (by simp)).trans
    ((onlyWrites_wr (GRV_CALCTL_OVH p) (bits v 9 0) _).mono (by simp) (by simp))).trans (onlyWrites_setSc _ _ _)

theorem ovhOf_ovhPlaced (p v : Nat) (s : State) : ovhOf (ovhPlaced p v s) p = ovhOf s p := by
  have hovh : mfind (ovhPlaced p v s).sc.ovh p = some (ovhOf s p) := (mfind_mins ..).trans (if_pos rfl)
  rw [ovhOf, hovh]
  rfl

theorem rd_ovh_refused (q : Port) (v : Nat) (s : State) :
    (raise (portGrove q.val) 9 (s.wr (GRV_CALCTL_TBSEL q.val) v)).rd (GRV_CALCTL_OVH q.val) = s.rd (GRV_CALCTL_OVH q.val) := by
  have hnot := not_settingKey q.val (GRV_CALCTL_OVH q.val) (by simp)
  rw [rd_raise_ne _ _ _ _ (ne_evstat (fun h => hnot (.inr (.inr h))) _)]
  exact (onlyKeys_tbsel q.val v s).1 _ hnot

/-! #### A frame store (R290) -/

theorem exec_fsbaseWrite {p : Path} {d : Pipe} {v : Word} {s : State} (h : plainly s p (0x300020 + 0x10000 * d.val)) :
    exec (.fsbaseWrite p d v) s = .next (wrFsbase d.val v.toNat s) :=
  congrArg Host.Outcome.next (pathWrite_of_plainly h (by omega) (decodeFor_of_decodeAddr (decodeAddr_fsbase d) rfl) rfl)

theorem wrFsbase_free {d v : Nat} {s : State} (hu : unbounded s (0x300020 + 0x10000 * d)) (hoff : pipeStateNow s d = 0)
    (hspill : overlaps (bits v 4 0 * 0x10000000) 0x10000000 (s.rd MEM_SPBASE_BASE * 0x8000000) (s.rd MEM_SPSIZE_SIZE * 0x8000000) = false)
    (hpipes : ∀ e, e < pipeCount (variant s) → e ≠ d → overlaps (bits v 4 0 * 0x10000000) 0x10000000 (storeBase s e) 0x10000000 = false) :
    wrFsbase d v s = s.wr (PIPE_FSBASE_BASE d) (bits v 4 0) := by
  have hany : ((List.range (pipeCount (variant s))).any fun e => e ≠ d && overlaps (bits v 4 0 * 0x10000000) 0x10000000 (storeBase s e) 0x10000000) = false := by
    refine List.any_eq_false.2 fun e he => ?_
    by_cases hed : e = d
    · simp [hed]
    · simp [hpipes e (List.mem_range.1 he) hed]
  rw [← wrField_of_unbounded hu (Nat.zero_le _) (Nat.le_of_lt_succ (bits_lt v 4 0))]
  simp only [wrFsbase, hoff, hspill, hany]
  rfl

theorem wrFsbase_busy {d v : Nat} {s : State} (h : pipeStateNow s d ≠ 0) : wrFsbase d v s = raise (9 + d) 8 s := if_pos (.inl h)

/-! #### The eject request and the PCP map (R318, R322) -/

theorem exec_ejreq {p : Path} {q : Port} {s : State} (h : writable s p (portReg q.val 0x3004 0x100)) (hp : persOf s q.val = 1) :
    exec (.ejreq p q) s = .next (ejectPress q.val s) :=
  congrArg Host.Outcome.next (pathWrite_of_writable h (portReg_lt _ _ _ (by decide)).2 (decodeFor_of_decodeAddr (decodeAddr_portSettings q).2.1 rfl)
    (by simp [lacksPersonality, hp]))

/-- The slot's Attention Button has been pressed (R318). -/
def attentionPressed (p : Nat) (s : State) : State :=
  raise (portGrove p) 19 ((s.setAdp p { s.adp p with attention := true, pressDue := false }).emit (.unit p "hot-plug interrupt" []))

theorem ejectPress_of_up {p : Nat} {s : State} (hp : s.rd (ADP_STAT_PERS p) = 1) (h1 : s.rd (ADP_STAT_STATE p) ≠ 1) (h6 : s.rd (ADP_STAT_STATE p) ≠ 6) :
    ejectPress p s = attentionPressed p s := by
  simp [ejectPress, hp, h1, h6, attentionPressed]

theorem onlyWrites_setAdp (fs : List Fld) (s : State) (p : Nat) (x : Adapter) : onlyWrites fs [.ad] s (s.setAdp p x) := by
  refine ⟨fun _ _ => rfl, fun q hq => ?_⟩
  cases q
  case ad => simp at hq
  all_goals rfl

theorem attentionPressed_effects (p : Nat) (s : State) : ((attentionPressed p s).adp p).attention = true ∧
    (attentionPressed p s).sent = .unit p "hot-plug interrupt" [] :: s.sent ∧ leafSet (attentionPressed p s) (portGrove p) 19 ∧
    onlyWrites [EVSTAT (portGrove p)] [.sent, .mg, .ad] s (attentionPressed p s) := by
  have had (u b : Nat) (t : State) : (raise u b t).ad = t.ad := raise_frame (κ := 15) (by decide) (.refl 15 t)
  have hsent (u b : Nat) (t : State) : (raise u b t).sent = t.sent := raise_frame (κ := 4) (by decide) (.refl 4 t)
  refine ⟨?_, ?_, leafSet_raise _ _ _ (by decide), ?_⟩
  · rw [State.adp, attentionPressed, had]
    exact congrArg Adapter.attention (State.adp_setAdp_same ..)
  · rw [attentionPressed, hsent]
    rfl
  · exact (((onlyWrites_setAdp _ s p _).mono (List.Subset.refl _) (by simp)).trans ((onlyWrites_emit _ _ _).mono (List.Subset.refl _) (by simp))).trans
      ((onlyWrites_raise _ _ _).mono (List.Subset.refl _) (by simp))

/-- Two operations that agree wherever an invariant holds agree over a list. -/
theorem forAll_congr_of {P : State → Prop} {α : Type} {l : List α} {f g : α → State → State} {s : State} (hs : P s)
    (hkeep : ∀ x ∈ l, ∀ u, P u → P (g x u)) (heq : ∀ x ∈ l, ∀ u, P u → f x u = g x u) : forAll l f s = forAll l g s := by
  induction l generalizing s with
  | nil => rfl
  | cons x l ih =>
    have hx := heq x (by simp) s hs
    have hg := hkeep x (by simp) s hs
    simp only [forAll, List.foldl_cons, hx] at ih ⊢
    exact ih hg (fun y hy => hkeep y (by simp [hy])) fun y hy => heq y (by simp [hy])

theorem ld_raise (u b : Nat) (s : State) : (raise u b s).ld = s.ld := raise_frame (κ := 8) (by decide) (.refl 8 s)

theorem unbounded_of_ld {a : Nat} {s t : State} (hu : unbounded s a) (h : t.ld = s.ld) : unbounded t a := by
  intro lo w
  rw [← hu lo w, envelope, h, envelope]

/-- The index that a word of the PCP map gives a priority. -/
def pcpOf (v k : Nat) : Nat := bits v (4 * k + 3) (4 * k)

theorem pcpOf_lt (v k : Nat) : pcpOf v k < 2 ^ 4 := by
  have := bits_lt v (4 * k + 3) (4 * k)
  rwa [show 4 * k + 3 + 1 - 4 * k = 4 by omega] at this

theorem wrEthmap_eq {p v : Nat} {s : State} (hu : unbounded s (portReg p 0x3008 0x100)) :
    wrEthmap p v s = forAll (List.range 8) (fun k t => if ethTemplate s p (pcpOf v k) then t.wr (ADP_ETHMAP_PCP p k) (pcpOf v k) else raise (portGrove p) 21 t) s := by
  refine forAll_congr_of (P := fun u => u.ld = s.ld) rfl (fun k _ u hld => ?_) fun k _ u hld => ?_
  · split
    · exact hld
    · exact (ld_raise _ _ _).trans hld
  · have hfield : wrField (portReg p 0x3008 0x100) (ADP_ETHMAP_PCP p k) (pcpOf v k) u = u.wr (ADP_ETHMAP_PCP p k) (pcpOf v k) :=
      wrField_of_unbounded (unbounded_of_ld hu hld) (Nat.zero_le _) (Nat.le_of_lt_succ (pcpOf_lt v k))
    dsimp only
    rw [← hfield]
    rfl

theorem exec_ethmapWrite {p : Path} {q : Port} {v : Word} {s : State} (h : plainly s p (portReg q.val 0x3008 0x100)) (hp : persEth (persOf s q.val) = true) :
    exec (.ethmapWrite p q v) s = .next (wrEthmap q.val v.toNat s) :=
  congrArg Host.Outcome.next (pathWrite_of_plainly h (portReg_lt _ _ _ (by decide)).2 (decodeFor_of_decodeAddr (decodeAddr_portSettings q).2.2.1 rfl)
    (by simp [lacksPersonality, hp]))

theorem pcp_keys (p : Nat) {k j : Nat} (h : k ≠ j) : (ADP_ETHMAP_PCP p k).key ≠ (ADP_ETHMAP_PCP p j).key := by
  simp only [ADP_ETHMAP_PCP, fld]
  omega

theorem not_leafKey_pcp (p : Nat) {k : Nat} (hk : k < 8) : ¬ leafKey (ADP_ETHMAP_PCP p k).key := by
  have := portPlace_lt p
  simp only [leafKey, ADP_ETHMAP_PCP, fld, portReg]
  omega

/-- Where every index has a template the whole map is taken. -/
theorem wrEthmap_taken {p v : Nat} {s : State} (hu : unbounded s (portReg p 0x3008 0x100)) (h : ∀ k, k < 8 → ethTemplate s p (pcpOf v k) = true) :
    (∀ k, k < 8 → (wrEthmap p v s).rd (ADP_ETHMAP_PCP p k) = pcpOf v k) ∧ onlyWrites ((List.range 8).map (ADP_ETHMAP_PCP p)) [] s (wrEthmap p v s) := by
  have hmap : wrEthmap p v s = forAll (List.range 8) (fun k t => t.wr (ADP_ETHMAP_PCP p k) (pcpOf v k)) s :=
    (wrEthmap_eq hu).trans (forAll_congr_of (P := fun _ => True) trivial (fun _ _ _ _ => trivial) fun k hk u _ => if_pos (h k (List.mem_range.1 hk)))
  rw [hmap]
  constructor
  · intro k hk
    refine forAll_establishes (P := fun u => u.rd (ADP_ETHMAP_PCP p k) = pcpOf v k) s (List.mem_range.2 hk) (fun u => rd_wr_of_lt _ _ _ (pcpOf_lt v k)) fun j _ u hu => ?_
    by_cases hj : j = k
    · subst hj
      exact rd_wr_of_lt _ _ _ (pcpOf_lt v j)
    · exact (State.rd_wr_ne _ _ _ _ (pcp_keys p (Ne.symm hj))).trans hu
  · exact forAll_induction (P := fun u => onlyWrites ((List.range 8).map (ADP_ETHMAP_PCP p)) [] s u) (.refl _ _ s) fun k hk u hu =>
      hu.trans ((onlyWrites_wr _ _ u).mono (by simpa using ⟨k, List.mem_range.1 hk, rfl⟩) (by simp))

/-- An index without a template leaves its priority and sets the leaf. -/
theorem wrEthmap_refused {p v k : Nat} {s : State} (hu : unbounded s (portReg p 0x3008 0x100)) (hk : k < 8) (h : ethTemplate s p (pcpOf v k) = false) :
    leafSet (wrEthmap p v s) (portGrove p) 21 ∧ (wrEthmap p v s).rd (ADP_ETHMAP_PCP p k) = s.rd (ADP_ETHMAP_PCP p k) := by
  rw [wrEthmap_eq hu]
  constructor
  · refine forAll_establishes (P := fun u => leafSet u (portGrove p) 21) s (List.mem_range.2 hk) (fun u => ?_) fun j hj u hl => ?_
    · rw [if_neg (by simp [h])]
      exact leafSet_raise _ _ _ (by decide)
    · have hkept : onlyKeys (fun _ => True) u (if ethTemplate s p (pcpOf v j) then u.wr (ADP_ETHMAP_PCP p j) (pcpOf v j) else raise (portGrove p) 21 u) :=
        .ite (.wr (.refl _ u) trivial (not_leafKey_pcp p (List.mem_range.1 hj))) (.raise (.refl _ u) trivial)
      exact hkept.2 _ _ hl
  · refine forAll_induction (P := fun u => u.rd (ADP_ETHMAP_PCP p k) = s.rd (ADP_ETHMAP_PCP p k)) rfl fun j _ u hrd => ?_
    split
    · next hj =>
      have hne : k ≠ j := by
        rintro rfl
        simp [h] at hj
      exact (State.rd_wr_ne _ _ _ _ (pcp_keys p hne)).trans hrd
    · exact (rd_raise_ne _ _ _ _ (ne_evstat (not_leafKey_pcp p hk) _)).trans hrd

/-! #### The Ethernet settings (R321, R325) -/

/-- What a word of ADP_ETHCTL leaves once FEC has been looked at. -/
def fecPlaced (p v : Nat) (s : State) : State := wrField (portReg p 0x300c 0x100) (ADP_ETHCTL_FEC p) (bits v 31 30) s

/-- What it leaves before MAXFRM is looked at: FEC, PFCEN whose change is a mode change, and UNTAG. -/
def ethctlPlaced (p v : Nat) (s : State) : State :=
  let a := portReg p 0x300c 0x100
  let t1 := wrField a (ADP_ETHCTL_PFCEN p) (bits v 29 29) (fecPlaced p v s)
  let t2 := if t1.rd (ADP_ETHCTL_PFCEN p) ≠ (fecPlaced p v s).rd (ADP_ETHCTL_PFCEN p) then structuralEvent t1 else t1
  if ethTemplate s p (bits v 28 25) then wrField a (ADP_ETHCTL_UNTAG p) (bits v 28 25) t2 else raise (portGrove p) 21 t2

theorem wrEthctl_eq (p v : Nat) (s : State) : wrEthctl p v s =
    if 1518 ≤ bits v 13 0 ∧ bits v 13 0 ≤ 9216 ∧ !keepsR31 (ethctlPlaced p v s) p (ovhOf (ethctlPlaced p v s) p) (bits v 13 0) then
      raise (portGrove p) 9 (ethctlPlaced p v s)
    else wrField (portReg p 0x300c 0x100) (ADP_ETHCTL_MAXFRM p) (bits v 13 0) (ethctlPlaced p v s) := rfl

theorem exec_ethctl {p : Path} {q : Port} {v : Word} {s : State} (h : plainly s p (portReg q.val 0x300C 0x100)) (hp : persEth (persOf s q.val) = true) :
    exec (.pfcenWrite p q v) s = .next (wrEthctl q.val v.toNat s) ∧ exec (.maxfrmWrite p q v) s = .next (wrEthctl q.val v.toNat s) := by
  have hwr := pathWrite_of_plainly (v := v.toNat) h (portReg_lt _ _ _ (by decide)).2 (decodeFor_of_decodeAddr (decodeAddr_portSettings q).2.2.2 rfl)
    (by simp [lacksPersonality, hp])
  exact ⟨congrArg Host.Outcome.next hwr, congrArg Host.Outcome.next hwr⟩

/-- The fields of the register and the leaves of its port's grove are apart. -/
theorem ethctl_keys (q : Port) : ∀ f ∈ [ADP_ETHCTL_FEC q.val, ADP_ETHCTL_PFCEN q.val, ADP_ETHCTL_UNTAG q.val, ADP_ETHCTL_MAXFRM q.val],
    f.key ≠ (EVSTAT (portGrove q.val)).key ∧ 0x800000 ≤ f.key ∧ ¬ leafKey f.key := by
  have := portPlace_lt q.val
  have hleaf {k : Nat} (h : 0x800000 ≤ k ∧ ¬ leafKey k) : k ≠ (EVSTAT (portGrove q.val)).key ∧ 0x800000 ≤ k ∧ ¬ leafKey k := ⟨ne_evstat h.2 _, h⟩
  simp only [List.forall_mem_cons, List.not_mem_nil, false_implies, implies_true, and_true]
  refine ⟨hleaf ?_, hleaf ?_, hleaf ?_, hleaf ?_⟩
  all_goals simp only [leafKey, ADP_ETHCTL_FEC, ADP_ETHCTL_PFCEN, ADP_ETHCTL_UNTAG, ADP_ETHCTL_MAXFRM, fld, portReg]
  all_goals omega

/-- What the register's settings may write, by keys. -/
def ethctlKey (p : Nat) (k : Nat) : Prop := k ∈ [(ADP_ETHCTL_FEC p).key, (ADP_ETHCTL_PFCEN p).key, (ADP_ETHCTL_UNTAG p).key, SYS_SETTLE_PEND.key,
  SYS_SETTLE_RUN.key, SYS_GUARD_SETTLED.key, (EVSTAT (portGrove p)).key]

theorem settingKey_of_ethctlKey (p k : Nat) (h : ethctlKey p k) : settingKey p k := by
  simp only [ethctlKey, List.mem_cons, List.not_mem_nil, or_false] at h
  rcases h with rfl | rfl | rfl | rfl | rfl | rfl | rfl
  · exact .inl (by simp)
  · exact .inl (by simp)
  · exact .inl (by simp)
  · exact .inr (.inl (by simp))
  · exact .inr (.inl (by simp))
  · exact .inr (.inl (by simp))
  · exact .inr (.inr (leafKey_evstat _))

theorem onlyKeys_structuralEvent_ethctl (p : Nat) (s : State) : onlyKeys (ethctlKey p) s (structuralEvent s) :=
  ⟨fun f hf => rd_structuralEvent_ne s (fun e => hf (by simp [ethctlKey, e])) (fun e => hf (by simp [ethctlKey, e])) (fun e => hf (by simp [ethctlKey, e])),
    (onlyKeys_structuralEvent s).2⟩

theorem sv_structuralEvent (s : State) : (structuralEvent s).sv.att = s.sv.att ∧ (structuralEvent s).sv.commit = s.sv.commit := by
  unfold structuralEvent
  split
  · exact ⟨rfl, rfl⟩
  · split
    · exact ⟨rfl, rfl⟩
    · exact ⟨rfl, rfl⟩

theorem sv_raise (u b : Nat) (s : State) : (raise u b s).sv = s.sv := raise_frame (κ := 9) (by decide) (.refl 9 s)

/-- The settings leave the image and the raster's schedule. -/
theorem ethctlPlaced_frame {κ : Nat} (hk : Nat.testBit 642 κ = false) (p v : Nat) (s : State) : Frame κ s (ethctlPlaced p v s) := by
  have hfec : Frame κ s (fecPlaced p v s) := wrField_frame (testBit_sub rfl hk) (.refl κ s)
  have hpfc := wrField_frame (a := portReg p 0x300c 0x100) (f := ADP_ETHCTL_PFCEN p) (v := bits v 29 29) (testBit_sub rfl hk) hfec
  have hevent : Frame κ s (if (wrField (portReg p 0x300c 0x100) (ADP_ETHCTL_PFCEN p) (bits v 29 29) (fecPlaced p v s)).rd (ADP_ETHCTL_PFCEN p) ≠
      (fecPlaced p v s).rd (ADP_ETHCTL_PFCEN p) then structuralEvent (wrField (portReg p 0x300c 0x100) (ADP_ETHCTL_PFCEN p) (bits v 29 29) (fecPlaced p v s))
      else wrField (portReg p 0x300c 0x100) (ADP_ETHCTL_PFCEN p) (bits v 29 29) (fecPlaced p v s)) := by
    split
    · exact structuralEvent_frame (testBit_sub rfl hk) hpfc
    · exact hpfc
  unfold ethctlPlaced
  dsimp only
  split
  · exact wrField_frame (testBit_sub rfl hk) hevent
  · exact raise_frame (testBit_sub rfl hk) hevent

theorem ethctlPlaced_ld (p v : Nat) (s : State) : (ethctlPlaced p v s).ld = s.ld := ethctlPlaced_frame (κ := 8) (by decide) p v s

theorem ethctlPlaced_sc (p v : Nat) (s : State) : (ethctlPlaced p v s).sc = s.sc := ethctlPlaced_frame (κ := 11) (by decide) p v s

section
variable {q : Port} {v : Nat} {s : State} (hu : unbounded s (portReg q.val 0x300c 0x100))
include hu

theorem fecPlaced_effects : (fecPlaced q.val v s).ld = s.ld ∧ (fecPlaced q.val v s).sv = s.sv ∧ onlyKeys (ethctlKey q.val) s (fecPlaced q.val v s) ∧
    (fecPlaced q.val v s).rd (ADP_ETHCTL_PFCEN q.val) = s.rd (ADP_ETHCTL_PFCEN q.val) := by
  have hkey := ethctl_keys q
  have hcases := wrField_cases hu (portReg_lt _ _ _ (by decide)).1 (ADP_ETHCTL_FEC q.val) (bits v 31 30)
  rw [(unitOfAddr_portReg q).2.2] at hcases
  refine ⟨wrField_frame (κ := 8) (by decide) (.refl 8 s), wrField_frame (κ := 9) (by decide) (.refl 9 s), ?_⟩
  rcases hcases with h | h <;> rw [fecPlaced, h]
  · exact ⟨.wr (.refl _ s) (by simp [ethctlKey]) (hkey _ (by simp)).2.2, State.rd_wr_ne _ _ _ _ (by simp [ADP_ETHCTL_FEC, ADP_ETHCTL_PFCEN, fld])⟩
  · exact ⟨.raise (.refl _ s) (by simp [ethctlKey]), rd_raise_ne _ _ _ _ (hkey _ (by simp)).1⟩

/-- PFCEN and UNTAG have every value in range. -/
theorem ethctlPlaced_eq : ethctlPlaced q.val v s =
    let t := (fecPlaced q.val v s).wr (ADP_ETHCTL_PFCEN q.val) (bits v 29 29)
    let t2 := if bits v 29 29 ≠ s.rd (ADP_ETHCTL_PFCEN q.val) then structuralEvent t else t
    if ethTemplate s q.val (bits v 28 25) then t2.wr (ADP_ETHCTL_UNTAG q.val) (bits v 28 25) else raise (portGrove q.val) 21 t2 := by
  obtain ⟨hld, -, -, hrd⟩ := fecPlaced_effects (v := v) hu
  have hpfc : wrField (portReg q.val 0x300c 0x100) (ADP_ETHCTL_PFCEN q.val) (bits v 29 29) (fecPlaced q.val v s) =
      (fecPlaced q.val v s).wr (ADP_ETHCTL_PFCEN q.val) (bits v 29 29) :=
    wrField_of_unbounded (unbounded_of_ld hu hld) (Nat.zero_le _) (Nat.le_of_lt_succ (bits_lt v 29 29))
  have hread : ((fecPlaced q.val v s).wr (ADP_ETHCTL_PFCEN q.val) (bits v 29 29)).rd (ADP_ETHCTL_PFCEN q.val) = bits v 29 29 :=
    rd_wr_of_lt _ _ _ (bits_lt v 29 29)
  have hunt {t : State} (h : t.ld = s.ld) : wrField (portReg q.val 0x300c 0x100) (ADP_ETHCTL_UNTAG q.val) (bits v 28 25) t =
      t.wr (ADP_ETHCTL_UNTAG q.val) (bits v 28 25) :=
    wrField_of_unbounded (unbounded_of_ld hu h) (Nat.zero_le _) (Nat.le_of_lt_succ (bits_lt v 28 25))
  have hevent (t : State) : (structuralEvent t).ld = t.ld := structuralEvent_frame (κ := 8) (by decide) (.refl 8 t)
  simp only [ethctlPlaced, hpfc, hread, hrd]
  split <;> split
  · exact hunt ((hevent _).trans hld)
  · exact hunt hld
  · rfl
  · rfl

/-- What stands before MAXFRM: PFCEN with the mode change that it is, and what R31 is judged by untouched. -/
theorem ethctlPlaced_effects : (ethctlPlaced q.val v s).rd (ADP_ETHCTL_PFCEN q.val) = bits v 29 29 ∧
    (bits v 29 29 ≠ s.rd (ADP_ETHCTL_PFCEN q.val) → s.on CFG_STATUS_LOADED = true → (ethctlPlaced q.val v s).rd SYS_SETTLE_PEND = 1) ∧
    onlyKeys (ethctlKey q.val) s (ethctlPlaced q.val v s) ∧ (ethctlPlaced q.val v s).sv.att = s.sv.att ∧
    (ethctlPlaced q.val v s).sv.commit = s.sv.commit := by
  obtain ⟨hld, hsv, hkeys, hrd⟩ := fecPlaced_effects (v := v) hu
  have hkey := ethctl_keys q
  have hpend {k : Nat} (h : 0x800000 ≤ k) : SYS_SETTLE_PEND.key ≠ k ∧ SYS_SETTLE_RUN.key ≠ k ∧ SYS_GUARD_SETTLED.key ≠ k ∧ CFG_STATUS_LOADED.key ≠ k := by
    refine ⟨?_, ?_, ?_, ?_⟩ <;> exact fun e => absurd (e ▸ h) (by decide)
  have hpfc : ((fecPlaced q.val v s).wr (ADP_ETHCTL_PFCEN q.val) (bits v 29 29)).rd (ADP_ETHCTL_PFCEN q.val) = bits v 29 29 :=
    rd_wr_of_lt _ _ _ (bits_lt v 29 29)
  have hloaded : ((fecPlaced q.val v s).wr (ADP_ETHCTL_PFCEN q.val) (bits v 29 29)).on CFG_STATUS_LOADED = s.on CFG_STATUS_LOADED := by
    have hnot : ¬ ethctlKey q.val CFG_STATUS_LOADED.key := by
      simp only [ethctlKey, List.mem_cons, List.not_mem_nil, or_false, not_or]
      exact ⟨(hpend (hkey _ (by simp)).2.1).2.2.2, (hpend (hkey _ (by simp)).2.1).2.2.2, (hpend (hkey _ (by simp)).2.1).2.2.2, by decide, by decide, by decide,
        ne_evstat (by decide) _⟩
    rw [State.on, State.rd_wr_ne _ _ _ _ (hpend (hkey _ (by simp)).2.1).2.2.2, hkeys.1 _ hnot, State.on]
  have hwr : onlyKeys (ethctlKey q.val) s ((fecPlaced q.val v s).wr (ADP_ETHCTL_PFCEN q.val) (bits v 29 29)) :=
    .wr hkeys (by simp [ethctlKey]) (hkey _ (by simp)).2.2
  have hsv' : ((fecPlaced q.val v s).wr (ADP_ETHCTL_PFCEN q.val) (bits v 29 29)).sv = s.sv := hsv
  have hevent (t : State) := sv_structuralEvent t
  rw [ethctlPlaced_eq hu]
  generalize (fecPlaced q.val v s).wr (ADP_ETHCTL_PFCEN q.val) (bits v 29 29) = t at hpfc hloaded hwr hsv'
  obtain ⟨u, hu2, hfc, hp, hk, ha, hc⟩ : ∃ u, u = (if bits v 29 29 ≠ s.rd (ADP_ETHCTL_PFCEN q.val) then structuralEvent t else t) ∧
      u.rd (ADP_ETHCTL_PFCEN q.val) = bits v 29 29 ∧
      (bits v 29 29 ≠ s.rd (ADP_ETHCTL_PFCEN q.val) → s.on CFG_STATUS_LOADED = true → u.rd SYS_SETTLE_PEND = 1) ∧ onlyKeys (ethctlKey q.val) s u ∧
      u.sv.att = s.sv.att ∧ u.sv.commit = s.sv.commit := by
    refine ⟨_, rfl, ?_⟩
    split
    · have hne := hpend (hkey (ADP_ETHCTL_PFCEN q.val) (by simp)).2.1
      exact ⟨(rd_structuralEvent_ne t hne.1.symm hne.2.1.symm hne.2.2.1.symm).trans hpfc, fun _ h => settlePend_structuralEvent (hloaded.trans h),
        hwr.trans (onlyKeys_structuralEvent_ethctl _ _), by rw [(hevent t).1, hsv'], by rw [(hevent t).2, hsv']⟩
    · next hsame => exact ⟨hpfc, fun h => absurd h hsame, hwr, by rw [hsv'], by rw [hsv']⟩
  simp only [← hu2]
  have hunt := hkey (ADP_ETHCTL_UNTAG q.val) (by simp)
  split
  · exact ⟨(State.rd_wr_ne _ _ _ _ (by simp [ADP_ETHCTL_UNTAG, ADP_ETHCTL_PFCEN, fld])).trans hfc,
      fun h hl => (State.rd_wr_ne _ _ _ _ (hpend hunt.2.1).1).trans (hp h hl), .wr hk (by simp [ethctlKey]) hunt.2.2, ha, hc⟩
  · exact ⟨(rd_raise_ne _ _ _ _ (hkey _ (by simp)).1).trans hfc, fun h hl => (rd_raise_ne _ _ _ _ (ne_evstat (by decide) _)).trans (hp h hl),
      .raise hk (by simp [ethctlKey]), by rw [sv_raise, ha], by rw [sv_raise, hc]⟩

/-- What R31 says of a maximum frame is not touched by the register's other settings. -/
theorem keepsR31_ethctlPlaced (m : Nat) : keepsR31 (ethctlPlaced q.val v s) q.val (ovhOf (ethctlPlaced q.val v s) q.val) m = keepsR31 s q.val (ovhOf s q.val) m := by
  obtain ⟨-, -, hkeys, hatt, hcom⟩ := ethctlPlaced_effects (v := v) hu
  have hset := hkeys.mono (settingKey_of_ethctlKey q.val)
  have hsc : (ethctlPlaced q.val v s).sc = s.sc := ethctlPlaced_sc q.val v s
  have hovh : ovhOf (ethctlPlaced q.val v s) q.val = ovhOf s q.val := by
    rw [ovhOf, hsc, hset.1 _ (not_settingKey q.val (GRV_CALCTL_OVH q.val) (by simp)), ovhOf]
  rw [hovh, keepsR31_of_onlyKeys hset hatt hcom]

/-- MAXFRM is looked at last, and leaves the other settings. -/
theorem wrEthctl_keeps {f : Fld} (hf : f.key ≠ (ADP_ETHCTL_MAXFRM q.val).key) (hl : f.key ≠ (EVSTAT (portGrove q.val)).key) :
    (wrEthctl q.val v s).rd f = (ethctlPlaced q.val v s).rd f := by
  have hld := ethctlPlaced_ld q.val v s
  rw [wrEthctl_eq]
  split
  · exact rd_raise_ne _ _ _ _ hl
  · have hcases := wrField_cases (unbounded_of_ld hu hld) (portReg_lt _ _ _ (by decide)).1 (ADP_ETHCTL_MAXFRM q.val) (bits v 13 0)
    rw [(unitOfAddr_portReg q).2.2] at hcases
    rcases hcases with h | h <;> rw [h]
    · exact State.rd_wr_ne _ _ _ _ hf
    · exact rd_raise_ne _ _ _ _ hl

theorem wrEthctl_maxfrm (hlo : 1518 ≤ bits v 13 0) (hhi : bits v 13 0 ≤ 9216) :
    wrEthctl q.val v s = if keepsR31 s q.val (ovhOf s q.val) (bits v 13 0) then (ethctlPlaced q.val v s).wr (ADP_ETHCTL_MAXFRM q.val) (bits v 13 0)
      else raise (portGrove q.val) 9 (ethctlPlaced q.val v s) := by
  have hwr : wrField (portReg q.val 0x300c 0x100) (ADP_ETHCTL_MAXFRM q.val) (bits v 13 0) (ethctlPlaced q.val v s) =
      (ethctlPlaced q.val v s).wr (ADP_ETHCTL_MAXFRM q.val) (bits v 13 0) :=
    wrField_of_unbounded (unbounded_of_ld hu (ethctlPlaced_ld q.val v s)) hlo hhi
  rw [wrEthctl_eq, keepsR31_ethctlPlaced hu, hwr]
  cases keepsR31 s q.val (ovhOf s q.val) (bits v 13 0) <;> simp [hlo, hhi]

end

/-- Settles O54. -/
theorem schedulerAndPortSettings : Obligations.SchedulerAndPortSettings := by
  refine ⟨?_, ?_, ?_, ?_, ?_, ?_, ?_, ?_⟩
  · intro p v s h hn
    have hexec := exec_nsrcWrite (v := v) h
    have hold := wrWord_schedLead h.2 hn
    have hcases := wrField_cases (a := 0xC0000) (unbounded_wr h.2 SCHED_LEAD_NSRC (bits v.toNat 23 20)) (by decide) SCHED_LEAD_LINES (bits v.toNat 12 0)
    have hrd : (wrWord 0xC0000 v.toNat (regFields .SCHED_LEAD 0 0) s).rd SCHED_LEAD_NSRC = bits v.toNat 23 20 ∧
        (wrWord 0xC0000 v.toNat (regFields .SCHED_LEAD 0 0) s).rd SCHED_LEAD_SRC = s.rd SCHED_LEAD_SRC ∧
        (wrWord 0xC0000 v.toNat (regFields .SCHED_LEAD 0 0) s).on CFG_STATUS_LOADED = s.on CFG_STATUS_LOADED := by
      have hline (f : Fld) (hf : f.key ≠ SCHED_LEAD_LINES.key) (he : f.key ≠ (EVSTAT 15).key) :
          (wrWord 0xC0000 v.toNat (regFields .SCHED_LEAD 0 0) s).rd f = (s.wr SCHED_LEAD_NSRC (bits v.toNat 23 20)).rd f := by
        rw [hold]
        rcases hcases with hl | hl <;> rw [hl]
        · exact State.rd_wr_ne _ _ _ _ hf
        · exact rd_raise_ne _ _ _ _ he
      refine ⟨(hline _ (by decide) (by decide)).trans (rd_wr_of_lt _ _ _ (bits_lt v.toNat 23 20)), (hline _ (by decide) (by decide)).trans (State.rd_wr_ne _ _ _ _ (by decide)), ?_⟩
      rw [State.on, hline _ (by decide) (by decide), State.rd_wr_ne _ _ _ _ (by decide), State.on]
    obtain ⟨hnsrc, hsrc, hloaded⟩ := hrd
    rw [wrSchedLead] at hexec
    generalize wrWord 0xC0000 v.toNat (regFields .SCHED_LEAD 0 0) s = t at hexec hnsrc hsrc hloaded
    rw [hnsrc] at hexec
    split at hexec
    · exact ⟨_, hexec, (rd_structuralEvent_ne t (by decide) (by decide) (by decide)).trans hnsrc, fun _ hl => settlePend_structuralEvent (hloaded.trans hl),
        (rd_structuralEvent_ne t (by decide) (by decide) (by decide)).trans hsrc⟩
    · next hsame => exact ⟨_, hexec, hnsrc, fun hne => absurd hne hsame, hsrc⟩
  · intro p v s h hlo hhi hv
    have hexec := exec_schedVirtWrite (v := v) h
    have hline : ((s.wr SCHED_VIRT_RATE (bits v.toNat 31 14)).wr SCHED_VIRT_VLINES (bits v.toNat 12 0)).rd SCHED_VIRT_VLINES = bits v.toNat 12 0 :=
      rd_wr_of_lt _ _ _ (bits_lt v.toNat 12 0)
    have hrate : ((s.wr SCHED_VIRT_RATE (bits v.toNat 31 14)).wr SCHED_VIRT_VLINES (bits v.toNat 12 0)).rd SCHED_VIRT_RATE = bits v.toNat 31 14 :=
      (State.rd_wr_ne _ _ _ _ (by decide)).trans (rd_wr_of_lt _ _ _ (bits_lt v.toNat 31 14))
    have hloaded : ((s.wr SCHED_VIRT_RATE (bits v.toNat 31 14)).wr SCHED_VIRT_VLINES (bits v.toNat 12 0)).on CFG_STATUS_LOADED = s.on CFG_STATUS_LOADED := by
      rw [State.on, State.rd_wr_ne _ _ _ _ (by decide), State.rd_wr_ne _ _ _ _ (by decide), State.on]
    rw [wrSchedVirt, wrWord_schedVirt h.2 hlo hhi hv] at hexec
    generalize (s.wr SCHED_VIRT_RATE (bits v.toNat 31 14)).wr SCHED_VIRT_VLINES (bits v.toNat 12 0) = t at hexec hline hrate hloaded
    split at hexec
    · obtain ⟨hch, hst, hleaf, hpend, hrd⟩ := declareGeometry_effects t
      exact ⟨_, hexec, (hrd _ (by decide)).trans hrate, (hrd _ (by decide)).trans hline, fun _ => ⟨hch, hst, hleaf, fun hl => hpend (hloaded.trans hl)⟩⟩
    · next hsrc => exact ⟨_, hexec, hrate, hline, fun h9 => absurd h9 hsrc⟩
  · intro p q v s h ht
    have hexec := exec_ovhWrite (v := v) h
    rw [wrCalctl_eq h.2 ht] at hexec
    refine ⟨fun hk => ?_, fun hk => ?_⟩
    · rw [if_pos hk] at hexec
      exact ⟨_, hexec, rd_wr_of_lt _ _ _ (bits_lt v.toNat 9 0), ovhOf_ovhPlaced .., onlyWrites_ovhPlaced ..⟩
    · rw [if_neg (by simp [hk])] at hexec
      exact ⟨_, hexec, rd_ovh_refused q _ s, leafSet_raise _ _ _ (by decide)⟩
  · intro p d v s h
    have hexec := exec_fsbaseWrite (v := v) h
    refine ⟨fun hoff hspill hpipes => ?_, fun hon => ?_⟩
    · rw [wrFsbase_free h.2 hoff hspill hpipes] at hexec
      exact ⟨_, hexec, rd_wr_of_lt _ _ _ (bits_lt v.toNat 4 0), onlyWrites_wr _ _ s⟩
    · rw [wrFsbase_busy hon] at hexec
      exact ⟨_, hexec, leafSet_raise _ _ _ (by decide), onlyWrites_raise _ _ s⟩
  · intro p q s h hp hpers h1 h6
    have hexec := exec_ejreq h hp
    rw [ejectPress_of_up hpers h1 h6] at hexec
    exact ⟨_, hexec, attentionPressed_effects q.val s⟩
  · intro p q v s h hp ht
    exact ⟨_, exec_ethmapWrite h hp, wrEthmap_taken h.2 ht⟩
  · intro p q v k s h hp hk ht
    exact ⟨_, exec_ethmapWrite h hp, wrEthmap_refused h.2 hk ht⟩
  · intro p q v s h hp
    obtain ⟨hexec, hexec'⟩ := exec_ethctl (v := v) h hp
    obtain ⟨hpfc, hpend, -⟩ := ethctlPlaced_effects (v := v.toNat) h.2
    have hkey := ethctl_keys q
    have hmax : SYS_SETTLE_PEND.key ≠ (ADP_ETHCTL_MAXFRM q.val).key := fun e => absurd (e ▸ (hkey (ADP_ETHCTL_MAXFRM q.val) (by simp)).2.1) (by decide)
    refine ⟨⟨_, hexec, ?_, fun hne hl => ?_⟩, fun hlo hhi => ⟨fun hk => ⟨_, hexec', ?_⟩, fun hk => ⟨_, hexec', ?_, ?_⟩⟩⟩
    · exact (wrEthctl_keeps h.2 (by simp [ADP_ETHCTL_PFCEN, ADP_ETHCTL_MAXFRM, fld]) (hkey _ (by simp)).1).trans hpfc
    · exact (wrEthctl_keeps h.2 hmax (ne_evstat (by decide) _)).trans (hpend hne hl)
    · rw [wrEthctl_maxfrm h.2 hlo hhi, if_pos hk]
      exact rd_wr_of_lt _ _ _ (bits_lt v.toNat 13 0)
    · rw [wrEthctl_maxfrm h.2 hlo hhi, if_neg (by simp [hk]), rd_raise_ne _ _ _ _ (hkey _ (by simp)).1]
      refine (ethctlPlaced_effects h.2).2.2.1.1 _ ?_
      have hmk := hkey (ADP_ETHCTL_MAXFRM q.val) (by simp)
      have hlow {k : Nat} (hk : k < 0x800000) : (ADP_ETHCTL_MAXFRM q.val).key ≠ k := fun e => absurd (e ▸ hmk.2.1) (by omega)
      simp only [ethctlKey, List.mem_cons, List.not_mem_nil, or_false, not_or]
      refine ⟨?_, ?_, ?_, hlow (by decide), hlow (by decide), hlow (by decide), hmk.1⟩
      all_goals simp [ADP_ETHCTL_MAXFRM, ADP_ETHCTL_FEC, ADP_ETHCTL_PFCEN, ADP_ETHCTL_UNTAG, fld]
    · rw [wrEthctl_maxfrm h.2 hlo hhi, if_neg (by simp [hk])]
      exact leafSet_raise _ _ _ (by decide)

end Sys2Proof.Machine
end

section
set_option Elab.async false
/-! The steward's registers and the power channels. -/

namespace Sys2Proof.Machine

open Sys2Proof Sys2Proof.Laws

/-! ### The steward's own registers (R477, R478, R481) -/

/-- What the steward writes as a supply or a lease changes: PST_EXT with its leaf, and the settle timer for a mode change. -/
def stewardKey (k : Nat) : Prop := k ∈ [PST_EXT_BUS.key, PST_EXT_AVAIL.key, PST_EXT_LOW.key, PST_EXT_LEASED.key, (EVSTAT 16).key,
  SYS_SETTLE_PEND.key, SYS_SETTLE_RUN.key, SYS_GUARD_SETTLED.key]

/-- The power channels, the feeds and the Type-C ports stand above the steward's registers. -/
theorem not_stewardKey {k : Nat} (h : 0x180000 ≤ k) : ¬ stewardKey k := by
  simp only [stewardKey, List.mem_cons, List.not_mem_nil, or_false, not_or]
  refine ⟨?_, ?_, ?_, ?_, ?_, ?_, ?_, ?_⟩
  all_goals exact fun e => absurd (e ▸ h) (by decide)

theorem onlyKeys_structuralEvent_steward (s : State) : onlyKeys stewardKey s (structuralEvent s) :=
  ⟨fun f hf => rd_structuralEvent_ne s (fun e => hf (by simp [stewardKey, e])) (fun e => hf (by simp [stewardKey, e])) (fun e => hf (by simp [stewardKey, e])),
    (onlyKeys_structuralEvent s).2⟩

theorem onlyKeys_precomputeShed {K : Nat → Prop} {s t : State} (h : onlyKeys K s t) : onlyKeys K s (precomputeShed t) := by
  unfold precomputeShed
  split
  · exact h
  · exact h.of_regs rfl

theorem onlyKeys_updateExt (s : State) : onlyKeys stewardKey s (updateExt s) := by
  have hwrs : onlyKeys stewardKey s (s.wrs [(PST_EXT_BUS, b2n (s.rd PP_FEED_ACTIVE = 3)), (PST_EXT_AVAIL, min 4095 (availMw s / 100)),
      (PST_EXT_LOW, b2n (beff s < baseMw s)), (PST_EXT_LEASED, min 4095 (leasedMw s / 100))]) := by
    refine .wrs (.refl _ s) ?_
    simp only [List.forall_mem_cons, List.not_mem_nil, false_implies, implies_true, and_true, stewardKey]
    decide
  exact .ite (.raise (onlyKeys_precomputeShed hwrs) (by simp [stewardKey])) (onlyKeys_precomputeShed hwrs)

/-- A change of the effective budget is a mode change, which writes the settle timer alone. -/
theorem onlyKeys_withBeff (f : State → State) (s : State) : onlyKeys stewardKey (f s) (withBeff f s) :=
  .ite (.refl _ _) (onlyKeys_structuralEvent_steward _)

/-- The state's parts that a mode change leaves: all but the settle timer's. -/
theorem withBeff_cases (f : State → State) (s : State) : withBeff f s = f s ∨ withBeff f s = structuralEvent (f s) := by
  by_cases h : beff (f s) = beff s
  · exact .inl (if_pos h)
  · exact .inr (if_neg h)

/-! ### A power channel's registers (R464 to R470) -/

/-- The fields of a channel's status and counters. -/
theorem channel_keys (n : Nat) : ∀ f ∈ [PC_STAT_STATE n, PC_STAT_PG n, PC_STAT_REV n, PC_STAT_ATTEMPT n, PC_STAT_CAUSE n, PC_CNT_SC n, PC_CNT_OC n, PC_CNT_UV n,
    PC_CNT_LATCH n], 0x400000 ≤ f.key := by
  simp only [List.forall_mem_cons, List.not_mem_nil, false_implies, implies_true, and_true, fld, PC_STAT_STATE, PC_STAT_PG, PC_STAT_REV, PC_STAT_ATTEMPT,
    PC_STAT_CAUSE, PC_CNT_SC, PC_CNT_OC, PC_CNT_UV, PC_CNT_LATCH]
  omega

/-- Closing a channel (R465). -/
theorem closeChannel_of_open {n : Nat} (fast rev : Bool) {s : State} (h : s.rd (PC_STAT_STATE n) = 0) : closeChannel n fast rev s =
    (s.wrs [(PC_STAT_STATE n, if fast then 2 else 1), (PC_STAT_PG n, 0), (PC_STAT_REV n, b2n rev)]).emit
      (.note "PCG up, microamperes" [n, if fast then 2000 else gateMicroamps s n]) := by
  simp [closeChannel, h, pathClosed]

theorem nodup_channel (n a b c : Nat) :
    (([(PC_STAT_STATE n, a), (PC_STAT_PG n, b), (PC_STAT_REV n, c)] : List (Fld × Nat)).map fun x => x.1.key).Nodup := by
  simp [PC_STAT_STATE, PC_STAT_PG, PC_STAT_REV, fld]

theorem rd_closeChannel_of_open {n : Nat} (rev : Bool) {s : State} (h : s.rd (PC_STAT_STATE n) = 0) :
    (closeChannel n false rev s).rd (PC_STAT_STATE n) = 1 ∧ (closeChannel n false rev s).rd (PC_STAT_PG n) = 0 := by
  rw [closeChannel_of_open false rev h]
  exact ⟨rd_wrs_eq (nodup_channel ..) (by simp) (show 1 < 2 ^ 4 by decide) s, rd_wrs_eq (nodup_channel ..) (by simp) (show 0 < 2 ^ 1 by decide) s⟩

/-- Closing writes the channel's own state alone. -/
theorem onlyWrites_closeChannel (n : Nat) (fast rev : Bool) (s : State) :
    onlyWrites [PC_STAT_STATE n, PC_STAT_PG n, PC_STAT_REV n] [.sent] s (closeChannel n fast rev s) := by
  unfold closeChannel
  split
  · exact .refl _ _ s
  · exact ((onlyWrites_wrs (by simp) s).mono (List.Subset.refl _) (by simp)).trans (onlyWrites_emit _ _ _)

theorem exec_rampComplete {n : Channel} {s : State} (h : s.rd (PC_STAT_STATE n.val) = 1) :
    exec (.rampComplete n) s = .next (s.wr (PC_STAT_STATE n.val) 2) := by
  simp [exec, execRampComplete, h]

/-- The feeds and the steward take a new state. -/
def State.setPw (s : State) (x : Power) : State := { s with pw := x }

@[simp] theorem State.rd_setPw (s : State) (x : Power) (f : Fld) : (s.setPw x).rd f = s.rd f := rfl
@[simp] theorem State.pw_setPw (s : State) (x : Power) : (s.setPw x).pw = x := rfl
@[simp] theorem State.sent_setPw (s : State) (x : Power) : (s.setPw x).sent = s.sent := rfl

/-- A channel is power-good; as the combiner's supply it releases PWRWARN_N (R466, R471). -/
def channelGood (n : Nat) (s : State) : State :=
  let t := s.wrs [(PC_STAT_STATE n, 3), (PC_STAT_PG n, 1)]
  let u := t.setPw { t.pw with good := some (n, t.clock, isSupply t n && t.on PP_FEED_WARN) }
  if isSupply t n && t.on PP_FEED_WARN then (u.wr PP_FEED_WARN 0).emit (.pin "PWRWARN_N" 0 true) else u

theorem exec_powerGood {n : Channel} {s : State} (h : s.rd (PC_STAT_STATE n.val) = 2) : exec (.powerGood n) s = .next (channelGood n.val s) := by
  simp only [exec, execPowerGood, h, ne_eq, not_true_eq_false, if_false]
  rfl

theorem onlyWrites_setPw (fs : List Fld) (s : State) (x : Power) : onlyWrites fs [.pw] s (s.setPw x) := by
  refine ⟨fun _ _ => rfl, fun q hq => ?_⟩
  cases q
  case pw => simp at hq
  all_goals rfl

theorem nodup_good (n a b : Nat) : (([(PC_STAT_STATE n, a), (PC_STAT_PG n, b)] : List (Fld × Nat)).map fun x => x.1.key).Nodup := by
  simp [PC_STAT_STATE, PC_STAT_PG, fld]

/-- The state and power-good of a channel leave what the combiner goes by. -/
theorem rd_wrs_good_ne (n a b : Nat) (s : State) (f : Fld) (hs : f.key ≠ (PC_STAT_STATE n).key) (hp : f.key ≠ (PC_STAT_PG n).key) :
    (s.wrs [(PC_STAT_STATE n, a), (PC_STAT_PG n, b)]).rd f = s.rd f := State.rd_wrs_ne s _ f (by simp [hs, hp])

theorem feed_keys (n : Channel) : (∀ f ∈ [PC_STAT_STATE n.val, PC_STAT_PG n.val], PP_FEED_WARN.key ≠ f.key ∧ PP_FEED_ACTIVE.key ≠ f.key) ∧
    (PC_STAT_REV n.val).key ≠ (PC_STAT_STATE n.val).key ∧ (PC_STAT_REV n.val).key ≠ (PC_STAT_PG n.val).key := by
  have := n.isLt
  simp only [List.forall_mem_cons, List.not_mem_nil, false_implies, implies_true, and_true, fld, PP_FEED_WARN, PP_FEED_ACTIVE, PC_STAT_STATE, PC_STAT_PG, PC_STAT_REV]
  omega

theorem isSupply_wrs (n : Channel) (a b : Nat) (s : State) : isSupply (s.wrs [(PC_STAT_STATE n.val, a), (PC_STAT_PG n.val, b)]) n.val = isSupply s n.val := by
  obtain ⟨hfeed, hrs, hrp⟩ := feed_keys n
  rw [isSupply, State.on, rd_wrs_good_ne _ _ _ _ _ (hfeed _ (by simp)).2 (hfeed _ (by simp)).2, rd_wrs_good_ne _ _ _ _ _ hrs hrp]
  rfl

theorem channelGood_effects (n : Channel) (s : State) : (channelGood n.val s).rd (PC_STAT_STATE n.val) = 3 ∧ (channelGood n.val s).rd (PC_STAT_PG n.val) = 1 ∧
    (s.on PP_FEED_WARN = true → isSupply s n.val = true → (channelGood n.val s).rd PP_FEED_WARN = 0 ∧ (channelGood n.val s).sent = .pin "PWRWARN_N" 0 true :: s.sent) ∧
    onlyWrites [PC_STAT_STATE n.val, PC_STAT_PG n.val, PP_FEED_WARN] [.sent, .pw] s (channelGood n.val s) := by
  obtain ⟨hfeed, -, -⟩ := feed_keys n
  have hst : (s.wrs [(PC_STAT_STATE n.val, 3), (PC_STAT_PG n.val, 1)]).rd (PC_STAT_STATE n.val) = 3 := rd_wrs_eq (nodup_good ..) (by simp) (show 3 < 2 ^ 4 by decide) s
  have hpg : (s.wrs [(PC_STAT_STATE n.val, 3), (PC_STAT_PG n.val, 1)]).rd (PC_STAT_PG n.val) = 1 := rd_wrs_eq (nodup_good ..) (by simp) (show 1 < 2 ^ 1 by decide) s
  have hwarn : (s.wrs [(PC_STAT_STATE n.val, 3), (PC_STAT_PG n.val, 1)]).on PP_FEED_WARN = s.on PP_FEED_WARN := by
    rw [State.on, rd_wrs_good_ne _ _ _ _ _ (hfeed _ (by simp)).1 (hfeed _ (by simp)).1, State.on]
  have hset : onlyWrites [PC_STAT_STATE n.val, PC_STAT_PG n.val, PP_FEED_WARN] [.sent, .pw] s (s.wrs [(PC_STAT_STATE n.val, 3), (PC_STAT_PG n.val, 1)]) :=
    (onlyWrites_wrs (by simp) s).mono (List.Subset.refl _) (by simp)
  have hsup := isSupply_wrs n 3 1 s
  have hsent : (s.wrs [(PC_STAT_STATE n.val, 3), (PC_STAT_PG n.val, 1)]).sent = s.sent := rfl
  unfold channelGood
  dsimp only
  generalize s.wrs [(PC_STAT_STATE n.val, 3), (PC_STAT_PG n.val, 1)] = t at hst hpg hwarn hset hsup hsent
  have hgood := hset.trans ((onlyWrites_setPw _ t { t.pw with good := some (n.val, t.clock, isSupply t n.val && t.on PP_FEED_WARN) }).mono (List.Subset.refl _) (by simp))
  split
  · have hkeep (f : Fld) (hf : f ∈ [PC_STAT_STATE n.val, PC_STAT_PG n.val]) (x : Power) (o : Out) : (((t.setPw x).wr PP_FEED_WARN 0).emit o).rd f = t.rd f :=
      (State.rd_emit ..).trans ((State.rd_wr_ne _ _ _ _ (hfeed f hf).1.symm).trans (State.rd_setPw ..))
    refine ⟨(hkeep _ (by simp) _ _).trans hst, (hkeep _ (by simp) _ _).trans hpg,
      fun _ _ => ⟨(State.rd_emit ..).trans (rd_wr_of_lt PP_FEED_WARN 0 _ (by decide)), congrArg _ hsent⟩, ?_⟩
    exact (hgood.trans ((onlyWrites_wr _ _ _).mono (by simp) (by simp))).trans ((onlyWrites_emit _ _ _).mono (List.Subset.refl _) (by simp))
  · next hno =>
    refine ⟨hst, hpg, fun hw hi => absurd ?_ hno, hgood⟩
    rw [hsup, hwarn, hw, hi]
    rfl

/-- A channel regulates at its limit, and a power-good of its cycle is withheld (R467, R470). -/
def channelLimits (n : Nat) (s : State) : State := withholdGood n (s.wrs [(PC_STAT_STATE n, 4), (PC_STAT_PG n, 0)])

theorem exec_channelOvercurrent {n : Channel} {s : State} (h : pathClosed s n.val = true) : exec (.channelOvercurrent n) s = .next (channelLimits n.val s) := by
  simp [exec, execChannelOvercurrent, h, channelLimits]

theorem withholdGood_other {n : Nat} {s : State} (h : s.pw.good ≠ some (n, s.clock, true)) : withholdGood n s = s := if_neg h

theorem withholdGood_this {n : Nat} {s : State} (h : s.pw.good = some (n, s.clock, true)) :
    withholdGood n s = (s.wr PP_FEED_WARN 1).emit (.pin "PWRWARN_N" 0 false) := if_pos h

theorem onlyWrites_withholdGood (n : Nat) (s : State) : onlyWrites [PP_FEED_WARN] [.sent] s (withholdGood n s) :=
  .ite (((onlyWrites_wr _ _ s).mono (List.Subset.refl _) (by simp)).trans (onlyWrites_emit _ _ _)) (.refl _ _ s)

theorem channelLimits_effects (n : Channel) (s : State) : (channelLimits n.val s).rd (PC_STAT_STATE n.val) = 4 ∧ (channelLimits n.val s).rd (PC_STAT_PG n.val) = 0 ∧
    onlyWrites [PC_STAT_STATE n.val, PC_STAT_PG n.val, PP_FEED_WARN] [.sent] s (channelLimits n.val s) ∧
    (s.pw.good ≠ some (n.val, s.clock, true) → (channelLimits n.val s).sent = s.sent ∧ (channelLimits n.val s).rd PP_FEED_WARN = s.rd PP_FEED_WARN) ∧
    (s.pw.good = some (n.val, s.clock, true) → (channelLimits n.val s).sent = .pin "PWRWARN_N" 0 false :: s.sent ∧ (channelLimits n.val s).rd PP_FEED_WARN = 1) := by
  obtain ⟨hfeed, -, -⟩ := feed_keys n
  have hst : (s.wrs [(PC_STAT_STATE n.val, 4), (PC_STAT_PG n.val, 0)]).rd (PC_STAT_STATE n.val) = 4 := rd_wrs_eq (nodup_good ..) (by simp) (show 4 < 2 ^ 4 by decide) s
  have hpg : (s.wrs [(PC_STAT_STATE n.val, 4), (PC_STAT_PG n.val, 0)]).rd (PC_STAT_PG n.val) = 0 := rd_wrs_eq (nodup_good ..) (by simp) (show 0 < 2 ^ 1 by decide) s
  have hkeep := onlyWrites_withholdGood n.val (s.wrs [(PC_STAT_STATE n.val, 4), (PC_STAT_PG n.val, 0)])
  refine ⟨(hkeep.1 _ (by simpa using (hfeed _ (by simp)).1.symm)).trans hst, (hkeep.1 _ (by simpa using (hfeed _ (by simp)).1.symm)).trans hpg,
    ((onlyWrites_wrs (by simp) s).mono (List.Subset.refl _) (by simp)).trans (hkeep.mono (by simp) (List.Subset.refl _)), fun h => ?_, fun h => ?_⟩
  · rw [channelLimits, withholdGood_other (s := s.wrs [(PC_STAT_STATE n.val, 4), (PC_STAT_PG n.val, 0)]) h]
    exact ⟨rfl, rd_wrs_good_ne _ _ _ _ _ (hfeed _ (by simp)).1 (hfeed _ (by simp)).1⟩
  · rw [channelLimits, withholdGood_this (s := s.wrs [(PC_STAT_STATE n.val, 4), (PC_STAT_PG n.val, 0)]) h]
    exact ⟨rfl, rd_wr_of_lt PP_FEED_WARN 1 _ (by decide)⟩

/-! ### A backoff's end (R468, R469, R471) -/

theorem closeSupply_feed {f : Nat} (hf : f < 2) (fast : Bool) (s : State) :
    closeSupply (f + 1) fast s = closeChannel f fast false (s.wr PP_FEED_ACTIVE (f + 1)) := by
  obtain rfl | rfl : f = 0 ∨ f = 1 := by omega
  · rfl
  · rfl

theorem onlyKeys_leaveStop {K : Nat → Prop} {s t : State} (h : onlyKeys K s t) : onlyKeys K s (leaveStop t) := by
  unfold leaveStop
  split
  · exact h.of_regs rfl
  · exact h

theorem exec_retryBackoff {n : Channel} {s : State} (h : s.rd (PC_STAT_STATE n.val) = 5) :
    exec (.retryBackoff n) s = .next (closeAgain n.val (s.wr (PC_STAT_STATE n.val) 0)) := by
  simp [exec, execRetryBackoff, h]

theorem not_leafKey_ccst (p : CanPort) : ¬ leafKey (PD_STAT_CCST p.val).key := by
  have := p.isLt
  simp only [leafKey, PD_STAT_CCST, fld]
  omega

/-- Error recovery takes the terminations away, with its leaf (R459). -/
theorem errorRecovery_effects (p : CanPort) (s : State) :
    (errorRecovery p.val s).rd (PD_STAT_CCST p.val) = 4 ∧ leafSet (errorRecovery p.val s) 18 7 := by
  refine ⟨?_, leafSet_raise _ _ _ (by decide)⟩
  rw [errorRecovery, rd_raise_ne _ _ _ _ (ne_evstat (not_leafKey_ccst p) _)]
  exact rd_wr_of_lt _ _ _ (show 4 < 2 ^ 3 by decide)

theorem closeFree_feed {n : Nat} {s : State} (hn : n < 2) (ha : s.rd PP_FEED_ACTIVE = 0) (hd : s.pw.dead = none) (hr : feedReady s n = true) :
    closeFree n s = leaveStop (updateExt (closeChannel n false false (s.wr PP_FEED_ACTIVE (n + 1)))) := by
  rw [← closeSupply_feed hn]
  simp [closeFree, hn, ha, hd, hr]

theorem closeFree_source {n : Nat} {s : State} (hn : 2 ≤ n) (hs : asSource s (n - 2) = true) :
    closeFree n s = if (s.pdp (n - 2)).erDue ∧ attached (closeChannel n false false s) (n - 2) then errorRecovery (n - 2) (closeChannel n false false s)
      else closeChannel n false false s := by
  simp only [closeFree, Nat.not_lt.2 hn, hs, if_true, if_false]

theorem closeFree_sink {n : Nat} {s : State} (hn : 2 ≤ n) (hs : asSink s (n - 2) = true) (he : (s.pdp (n - 2)).erDue = false)
    (ha : s.rd PP_FEED_ACTIVE = 0) (hd : s.pw.dead = none) (hf : anyFeed s = false) :
    closeFree n s = updateExt ((closeChannel n false true s).wr PP_FEED_ACTIVE 3) := by
  have hsrc : asSource s (n - 2) = false := by
    simp only [asSink, asSource, decide_eq_true_eq, decide_eq_false_iff_not] at hs ⊢
    omega
  simp [closeFree, Nat.not_lt.2 hn, hs, hsrc, he, ha, hd, hf]

theorem feed_active_ne (n : Channel) : PP_FEED_ACTIVE.key ≠ (PC_STAT_STATE n.val).key := ((feed_keys n).1 _ (by simp)).2

theorem feed_active_apart (n : Channel) : ∀ f ∈ [PC_STAT_STATE n.val, PC_STAT_PG n.val, PC_STAT_REV n.val], PP_FEED_ACTIVE.key ≠ f.key := by
  have := n.isLt
  simp only [List.forall_mem_cons, List.not_mem_nil, false_implies, implies_true, and_true, fld, PP_FEED_ACTIVE, PC_STAT_STATE, PC_STAT_PG, PC_STAT_REV]
  omega

theorem ccst_apart_channel (n : Channel) : ∀ f ∈ [PC_STAT_STATE n.val, PC_STAT_PG n.val, PC_STAT_REV n.val], (PD_STAT_CCST (n.val - 2)).key ≠ f.key := by
  have := n.isLt
  simp only [List.forall_mem_cons, List.not_mem_nil, false_implies, implies_true, and_true, fld, PD_STAT_CCST, PC_STAT_STATE, PC_STAT_PG, PC_STAT_REV]
  omega

theorem ccst_apart (n : Channel) : (PD_STAT_CCST (n.val - 2)).key ≠ (PC_STAT_STATE n.val).key := ccst_apart_channel n _ (by simp)

/-- Settles O40. -/
theorem channelsCloseAndQualify : Obligations.ChannelsCloseAndQualify := by
  intro n s
  have hkey := channel_keys n.val
  have hn := n.isLt
  have hsame {f : Fld} (h : 0x180000 ≤ f.key) (g : State → State) (u : State) : (withBeff g u).rd f = (g u).rd f :=
    (onlyKeys_withBeff g u).1 f (not_stewardKey h)
  have hfed {f : Fld} (h : 0x180000 ≤ f.key) (u : State) : (updateExt u).rd f = u.rd f := (onlyKeys_updateExt u).1 f (not_stewardKey h)
  have hchan {f : Fld} (hf : f ∈ [PC_STAT_STATE n.val, PC_STAT_PG n.val]) : 0x180000 ≤ f.key := by
    have := hkey f (by fin_cases hf <;> simp)
    omega
  have hidle : (s.wr (PC_STAT_STATE n.val) 0).rd (PC_STAT_STATE n.val) = 0 := rd_wr_of_lt _ _ _ (show 0 < 2 ^ 4 by decide)
  have hother {f : Fld} (h : f.key ≠ (PC_STAT_STATE n.val).key) : (s.wr (PC_STAT_STATE n.val) 0).rd f = s.rd f := State.rd_wr_ne _ _ _ _ h
  refine ⟨fun h => ?_, fun h => ?_, fun h => ?_, fun h => ?_, fun h => ?_, fun h => ?_, fun h => ?_, fun h => ?_, fun h => ?_, fun h => ?_,
    fun h h2 ha hd hq => ?_, fun h h2 hs he => ?_, fun h h2 hs he ha hd hf => ?_, fun h h2 hs he => ?_, fun h => ?_⟩
  · exact ⟨_, exec_rampComplete h, rd_wr_of_lt _ _ _ (show 2 < 2 ^ 4 by decide), onlyWrites_wr _ _ s⟩
  · simp [exec, execRampComplete, h]
  · exact ⟨_, exec_powerGood h, channelGood_effects n s⟩
  · simp [exec, execPowerGood, h]
  · have hexec : exec (.powerGoodHold n) s = .next (s.wr (PC_STAT_ATTEMPT n.val) 0) := by simp [exec, execPowerGoodHold, h]
    exact ⟨_, hexec, rd_wr_of_lt _ _ _ (show 0 < 2 ^ 4 by decide), onlyWrites_wr _ _ s⟩
  · simp [exec, execPowerGoodHold, h]
  · exact ⟨_, exec_channelOvercurrent h, channelLimits_effects n s⟩
  · simp [exec, execChannelOvercurrent, h]
  · have hexec : exec (.overcurrentEnd n) s = .next (s.wr (PC_STAT_STATE n.val) 2) := by simp [exec, execOvercurrentEnd, h]
    exact ⟨_, hexec, rd_wr_of_lt _ _ _ (show 2 < 2 ^ 4 by decide), onlyWrites_wr _ _ s⟩
  · simp [exec, execOvercurrentEnd, execFaultTimer, h]
  · have hexec := exec_retryBackoff h
    have hqual : feedReady (s.wr (PC_STAT_STATE n.val) 0) n.val = true := by
      have hne : (if n.val = 0 then PP_FEED_QUALA else PP_FEED_QUALB).key ≠ (PC_STAT_STATE n.val).key := by
        split <;> simp only [PP_FEED_QUALA, PP_FEED_QUALB, PC_STAT_STATE, fld] <;> omega
      rw [feedReady, State.on, hother hne, hidle]
      simpa [State.on] using hq
    rw [closeAgain] at hexec
    have hfree := closeFree_feed (s := s.wr (PC_STAT_STATE n.val) 0) h2 (by rw [hother (feed_active_ne n)]; exact ha) hd hqual
    have hopen : ((s.wr (PC_STAT_STATE n.val) 0).wr PP_FEED_ACTIVE (n.val + 1)).rd (PC_STAT_STATE n.val) = 0 :=
      (State.rd_wr_ne _ _ _ _ (feed_active_ne n).symm).trans hidle
    have hact : ((s.wr (PC_STAT_STATE n.val) 0).wr PP_FEED_ACTIVE (n.val + 1)).rd PP_FEED_ACTIVE = n.val + 1 :=
      rd_wr_of_lt _ _ _ (show n.val + 1 < 2 ^ 2 by omega)
    have hstop (f : Fld) (v : State) : (leaveStop v).rd f = v.rd f := (onlyKeys_leaveStop (.refl (fun _ => False) v)).1 f id
    refine ⟨_, hexec, ?_, ?_⟩
    · rw [hsame (hchan (by simp)), hfree, hstop, hfed (hchan (by simp))]
      exact (rd_closeChannel_of_open false hopen).1
    · rw [hsame (by decide), hfree, hstop, hfed (by decide), (onlyWrites_closeChannel ..).1 _ (feed_active_apart n), hact]
  · have hexec := exec_retryBackoff h
    have hfree := closeFree_source (s := s.wr (PC_STAT_STATE n.val) 0) h2 (by rw [asSource, hother (ccst_apart n)]; exact hs)
    have herd : ((s.wr (PC_STAT_STATE n.val) 0).pdp (n.val - 2)).erDue = false := he
    rw [if_neg fun hc => absurd hc.1 (by rw [herd]; decide)] at hfree
    rw [closeAgain] at hexec
    have hclose := rd_closeChannel_of_open false hidle
    refine ⟨_, hexec, ?_, ?_⟩
    · rw [hsame (hchan (by simp)), hfree, hclose.1]
    · rw [hsame (hchan (by simp)), hfree, hclose.2]
  · have hexec := exec_retryBackoff h
    have hq {f : Fld} (hf : f.key ≠ (PC_STAT_STATE n.val).key) : (s.wr (PC_STAT_STATE n.val) 0).on f = s.on f := by rw [State.on, hother hf, State.on]
    have hany : anyFeed (s.wr (PC_STAT_STATE n.val) 0) = false := by
      have hne : PP_FEED_QUALA.key ≠ (PC_STAT_STATE n.val).key ∧ PP_FEED_QUALB.key ≠ (PC_STAT_STATE n.val).key := by
        simp only [PP_FEED_QUALA, PP_FEED_QUALB, PC_STAT_STATE, fld]
        omega
      rw [anyFeed, hq hne.1, hq hne.2]
      exact hf
    have hfree := closeFree_sink (s := s.wr (PC_STAT_STATE n.val) 0) h2 (by rw [asSink, hother (ccst_apart n)]; exact hs) he
      (by rw [hother (feed_active_ne n)]; exact ha) hd hany
    rw [closeAgain] at hexec
    refine ⟨_, hexec, ?_, ?_⟩
    · rw [hsame (hchan (by simp)), hfree, hfed (hchan (by simp)), State.rd_wr_ne _ _ _ _ (feed_active_ne n).symm]
      exact (rd_closeChannel_of_open true hidle).1
    · rw [hsame (by decide), hfree, hfed (by decide)]
      exact rd_wr_of_lt _ _ _ (by decide)
  · have hexec := exec_retryBackoff h
    have hfree := closeFree_source (s := s.wr (PC_STAT_STATE n.val) 0) h2 (by rw [asSource, hother (ccst_apart n)]; exact hs)
    have hatt : attached (closeChannel n.val false false (s.wr (PC_STAT_STATE n.val) 0)) (n.val - 2) = true := by
      have hccst : (closeChannel n.val false false (s.wr (PC_STAT_STATE n.val) 0)).rd (PD_STAT_CCST (n.val - 2)) = s.rd (PD_STAT_CCST (n.val - 2)) :=
        ((onlyWrites_closeChannel ..).1 _ (ccst_apart_channel n)).trans (hother (ccst_apart n))
      rw [attached, asSource, hccst]
      rw [asSource] at hs
      rw [hs]
      rfl
    have herd : ((s.wr (PC_STAT_STATE n.val) 0).pdp (n.val - 2)).erDue = true := he
    rw [if_pos ⟨herd, hatt⟩] at hfree
    rw [closeAgain] at hexec
    obtain ⟨hccst, hleaf⟩ := errorRecovery_effects ⟨n.val - 2, by omega⟩ (closeChannel n.val false false (s.wr (PC_STAT_STATE n.val) 0))
    refine ⟨_, hexec, ?_, (onlyKeys_withBeff _ _).2 _ _ ?_⟩
    · rw [hsame (by simp only [PD_STAT_CCST, fld]; omega), hfree]
      exact hccst
    · rw [hfree]
      exact hleaf
  · simp [exec, execRetryBackoff, h]

end Sys2Proof.Machine
end

section
set_option Elab.async false
/-! The Type-C ports: detach, error recovery, Hard Resets and current limits. -/

namespace Sys2Proof.Machine

open Sys2Proof Sys2Proof.Laws

/-! ### The Type-C ports' registers (R444 to R460) -/

/-- The registers outside the Type-C ports' own. -/
def pdFar (k : Nat) : Prop := k < 0x380000 ∨ 0x381000 ≤ k

/-- A port's registers. -/
def pdFields (p : Nat) : List Fld := [PD_STAT_CCST p, PD_STAT_ORIENT p, PD_STAT_PROLE p, PD_STAT_DROLE p, PD_STAT_VCONN p, PD_STAT_CAB5A p, PD_STAT_CABEPR p,
  PD_STAT_RPLVL p, PD_STAT_CONTR p, PD_RDO_RDO p, PD_CV_CVEN p, PD_CV_STATE p, PD_CV_ADJ p, PD_VBUS_TARGET p, PD_CNT_HRST p, PD_CNT_ERREC p, PD_CNT_TRFAIL p,
  PD_CNT_COLL p]

theorem pdFields_near (p : CanPort) : ∀ f ∈ pdFields p.val, ¬ pdFar f.key ∧ ¬ leafKey f.key := by
  have := p.isLt
  simp only [pdFields, List.forall_mem_cons, List.not_mem_nil, false_implies, implies_true, and_true, pdFar, leafKey, fld, PD_STAT_CCST, PD_STAT_ORIENT, PD_STAT_PROLE,
    PD_STAT_DROLE, PD_STAT_VCONN, PD_STAT_CAB5A, PD_STAT_CABEPR, PD_STAT_RPLVL, PD_STAT_CONTR, PD_RDO_RDO, PD_CV_CVEN, PD_CV_STATE, PD_CV_ADJ, PD_VBUS_TARGET,
    PD_CNT_HRST, PD_CNT_ERREC, PD_CNT_TRFAIL, PD_CNT_COLL]
  omega

theorem pdFar_of_stewardKey {k : Nat} (h : stewardKey k) : pdFar k := .inl (by
  by_contra hk
  exact not_stewardKey (by omega) h)

theorem pdFar_of_attachKeys {k : Nat} (h : attachKeys k) : pdFar k := by
  rcases h with h | ⟨d, h⟩ | ⟨n, h⟩
  · fin_cases h <;> unfold pdFar <;> decide
  · subst h
    simp only [pdFar, PIPE_CTL_FHOLD, fld]
    omega
  · simp only [pdFar, TT_STATE_STATE, TT_STATE_GEN, fld] at h ⊢
    omega

theorem pdFar_of_portDownKeys {p k : Nat} {cs : List Nat} (h : portDownKeys p cs k) : pdFar k := by
  have hplace := portPlace_lt p
  have hgrove := portGrove_lt p
  rcases h with h | ⟨f, hf, rfl⟩ | ⟨hp, ⟨f, hf, rfl⟩ | ⟨j, hj, rfl⟩ | ⟨j, hj, rfl⟩⟩ | ⟨c, hc, f, hf, rfl⟩ | rfl | rfl | rfl
  · exact .inr (by omega)
  · revert f
    simp only [portReach, List.forall_mem_cons, List.not_mem_nil, false_implies, implies_true, and_true, pdFar, portReg, fld, GRV_FLOW_STALL, GRV_FLOW_HEAD,
      GRV_FLOW_ICL, GRV_FLST_EGHELD, GRV_FLST_INHELD, GRV_FLST_TIMER, GRV_CALST_BT, ADP_STAT_STATE, ADP_STAT_PERS, ADP_STAT_RATE, ADP_STAT_WIDTH, ADP_STAT_SPEED,
      ADP_PCIE_EJREQ, ADP_PCIE_PRESENT, ADP_PCIE_DLLACT, ADP_PCIE_PIND, ADP_DP_SINKDSC]
    omega
  · revert f
    simp only [canReach, List.forall_mem_cons, List.not_mem_nil, false_implies, implies_true, and_true, pdFar, portReg, fld, CAN_CTL_RETRAIN, CAN_STAT_STATE,
      CAN_STAT_MODE, CAN_STAT_ROLE, CAN_STAT_PKIND, CAN_STAT_TXEP, CAN_STAT_RXEP, CAN_ERR_UNCORR, CAN_ERR_RNAKTX, CAN_ERR_RNAKRX, CAN_ERR_CSLOT, CAN_ERR2_EARLY,
      TIM_LNKOFF_OFF, TIM_LNKDLY_DLY, TIM_LNK_SEQ, TIM_LNK_MISSED, TIM_LNK_EXCH]
    omega
  · simp only [pdFar, portReg, fld, CAN_PEER_V]
    omega
  · simp only [pdFar, portReg, fld, CAN_THASH_V]
    omega
  · revert f
    simp only [cellReach, List.forall_mem_cons, List.not_mem_nil, false_implies, implies_true, and_true, pdFar, LC_CTL_RTRN, LC_STAT_STATE,
      LC_STAT_RATE, LC_STAT_ORIENT, LC_STAT_LOCKA, LC_STAT_LOCKB, LC_STAT_INVA, LC_STAT_INVB, LC_STAT_RANKA, LC_STAT_RANKB, LC_RTR_CONSEC,
      LC_FECA_CORR, LC_FECA_UNCORR, LC_FECB_CORR, LC_FECB_UNCORR, LC_HOLD_USED, LC_HOLD_PEAK, fld]
    omega
  · unfold pdFar; decide
  · unfold pdFar; decide
  · unfold pdFar
    revert hgrove
    generalize portGrove p = g
    intro hg
    interval_cases g <;> decide

theorem onlyKeys.far_steward {s t : State} (h : onlyKeys stewardKey s t) : onlyKeys pdFar s t := h.mono fun _ => pdFar_of_stewardKey

theorem onlyKeys.inc {K : Nat → Prop} {s t : State} {f : Fld} (h : onlyKeys K s t) (hK : K f.key) (hf : ¬ leafKey f.key) : onlyKeys K s (t.inc f) :=
  h.wr hK hf

theorem onlyKeys.setPdp {K : Nat → Prop} {s t : State} {p : Nat} {x : PdPort} (h : onlyKeys K s t) : onlyKeys K s (t.setPdp p x) := h.of_regs rfl

theorem onlyKeys.setTree {K : Nat → Prop} {s t : State} {n : Nat} {x : TreeP} (h : onlyKeys K s t) : onlyKeys K s (t.setTree n x) := h.of_regs rfl

/-- The fields of the channels and the combiner stand outside the Type-C ports'. -/
theorem pdFar_channel (n : Nat) : ∀ f ∈ [PC_STAT_STATE n, PC_STAT_PG n, PC_STAT_REV n], pdFar f.key := by
  simp only [List.forall_mem_cons, List.not_mem_nil, false_implies, implies_true, and_true, pdFar, fld, PC_STAT_STATE, PC_STAT_PG, PC_STAT_REV]
  omega

theorem not_leafKey_channel (n : Nat) : ∀ f ∈ [PC_STAT_STATE n, PC_STAT_PG n, PC_STAT_REV n, PC_STAT_ATTEMPT n], ¬ leafKey f.key := by
  simp only [List.forall_mem_cons, List.not_mem_nil, false_implies, implies_true, and_true, leafKey, fld, PC_STAT_STATE, PC_STAT_PG, PC_STAT_REV, PC_STAT_ATTEMPT]
  omega

theorem onlyKeys_openChannel (n : Nat) (s : State) : onlyKeys pdFar s (openChannel n s) := by
  have hfar := pdFar_channel n
  have hleaf := not_leafKey_channel n
  refine .ite (.emit (.wrs (.refl _ s) ?_)) (.refl _ s)
  simp only [List.forall_mem_cons, List.not_mem_nil, false_implies, implies_true, and_true] at hfar hleaf ⊢
  exact ⟨⟨hfar.1, hleaf.1⟩, ⟨hfar.2.1, hleaf.2.1⟩, hfar.2.2, hleaf.2.2.1⟩

theorem onlyKeys_closeChannel (n : Nat) (fast rev : Bool) (s : State) : onlyKeys pdFar s (closeChannel n fast rev s) := by
  have hfar := pdFar_channel n
  have hleaf := not_leafKey_channel n
  refine .ite (.refl _ s) (.emit (.wrs (.refl _ s) ?_))
  simp only [List.forall_mem_cons, List.not_mem_nil, false_implies, implies_true, and_true] at hfar hleaf ⊢
  exact ⟨⟨hfar.1, hleaf.1⟩, ⟨hfar.2.1, hleaf.2.1⟩, hfar.2.2, hleaf.2.2.1⟩

theorem onlyKeys_clearLatch (n : Nat) (s : State) : onlyKeys pdFar s (clearLatch n s) := by
  have hfar : pdFar (PC_STAT_ATTEMPT n).key := .inr (by simp only [PC_STAT_ATTEMPT, fld]; omega)
  have ht : onlyKeys pdFar s (s.wr (PC_STAT_ATTEMPT n) 0) := .wr (.refl _ s) hfar (not_leafKey_channel n _ (by simp))
  exact .ite (ht.wr (pdFar_channel n _ (by simp)) (not_leafKey_channel n _ (by simp))) ht

theorem onlyKeys_supplyLost (c : Nat) (s : State) : onlyKeys pdFar s (supplyLost c s) :=
  .of_regs (.wr (f := PP_FEED_ACTIVE) (v := 0) (.refl _ s) (by unfold pdFar; decide) (by decide)) rfl

theorem pdFar_treeWord {n k : Nat} (h : treeWord n k) : pdFar k := by
  simp only [treeWord, pdFar] at h ⊢
  omega

theorem pdFar_treeResetKey {k : Nat} (h : treeResetKey k) : pdFar k := by
  rcases h with h | h | h
  · exact .inr (by omega)
  · subst h; unfold pdFar; decide
  · fin_cases h <;> unfold pdFar <;> decide

theorem onlyKeys_updateTree_far (s : State) : onlyKeys pdFar s (updateTree s) := by
  have hfar {f : Fld} (h : f ∈ [USB_STAT_PULLUP, USB_STAT_SPEED, USB_STAT_UPSEL, USB_STAT_SWITCHES, USB_STAT_DNSEL, EVSTAT 19]) : pdFar f.key := by
    fin_cases h <;> unfold pdFar <;> decide
  have hdown : onlyKeys pdFar s (downstreamSet s) := by
    refine .ite (.refl _ s) (.wr ((onlyKeys_treeDrop (n := 5) (by decide) s).mono fun _ => pdFar_treeWord) (hfar (by simp)) (by decide))
  have hup (u : Nat) : onlyKeys pdFar (downstreamSet s) (upstreamSet u (downstreamSet s)) := by
    refine .emit (.raise (.inc (.wrs (.trans (.wrs (.refl _ _) ?_) ((onlyKeys_treeReset _).mono fun _ => pdFar_treeResetKey)) ?_) (hfar (by simp)) (by decide)) (hfar (by simp)))
    all_goals
      simp only [List.forall_mem_cons, List.not_mem_nil, false_implies, implies_true, and_true]
      exact ⟨⟨hfar (by simp), by decide⟩, hfar (by simp), by decide⟩
  rw [updateTree_eq]
  exact .ite hdown (hdown.trans (hup _))

theorem onlyKeys_treeDetach_far (p : Nat) (s : State) : onlyKeys pdFar s (treeDetach p s) :=
  .trans (.of_regs (.refl _ s) rfl) (onlyKeys_updateTree_far _)

theorem treePortOf_lt {s : State} {p n : Nat} (hp : p < 8) (h : treePortOf s p = some n) : n < 35 := by
  unfold treePortOf at h
  split at h
  · simp only [Option.some.injEq] at h
    omega
  · split at h
    · simp only [Option.some.injEq] at h
      omega
    · exact absurd h (by simp)

theorem onlyKeys_treePortGone {p : Nat} (hp : p < 8) (s : State) : onlyKeys pdFar s (treePortGone p s) := by
  unfold treePortGone
  cases h : treePortOf s p with
  | none => exact .refl _ s
  | some n => exact .ite (.setTree ((onlyKeys_treeDrop (treePortOf_lt hp h) s).mono fun _ => pdFar_treeWord)) (.refl _ s)

/-! ### The detach (R446, R457) -/

/-- The port's protocol state after a detach. -/
def detachedPort (s : State) (p : Nat) : PdPort := { (s.pdp p) with
  pd := false, vconnNeeded := false, offer := [], own := 0, moving := none, pos := 10000, holding := false, hards := 0, discharge := asSource s p,
  withdrawnRp := false, erDue := false, waitVbus := asSource s p, overdrawn := false, revokeDue := false }

/-- The fields that a detach clears. -/
def detachClears (p : Nat) : List (Fld × Nat) := [(PD_CV_CVEN p, 0), (PD_CV_STATE p, 0), (PD_CV_ADJ p, 0), (PD_STAT_CCST p, 0), (PD_STAT_ORIENT p, 0),
  (PD_STAT_PROLE p, 0), (PD_STAT_DROLE p, 0), (PD_STAT_VCONN p, 0), (PD_STAT_CAB5A p, 0), (PD_STAT_CABEPR p, 0), (PD_STAT_RPLVL p, 3), (PST_LEASE_MW (p + 2), 0)]

/-- The path opens, with the latch and the backoff cleared. -/
def pathOff (p : Nat) (s : State) : State :=
  let t := clearLatch (p + 2) (openChannel (p + 2) s)
  if crownActive s = some p then supplyLost 3 t else t

/-- The port itself is detached. -/
def detachHere (p : Nat) (s : State) : State := ((setTarget p 250 (pdDiscard p (pathOff p s))).setPdp p (detachedPort s p)).wrs (detachClears p)

/-- The leaves of a detach. -/
def detachLeaves (p : Nat) (s t : State) : State :=
  if (s.pdp p).moving.isSome ∧ asSource s p then raise 18 5 (raise 18 1 t) else raise 18 1 t

/-- The port's link is lost. -/
def linkLost (p : Nat) (down : Bool) (t : State) : State :=
  if down then portDown p 1 t else let u := dropTunnels p 1 t; { u with sv := { u.sv with att := mdel u.sv.att p } }

/-- The port's link starts afresh at the next attach. -/
def linkFresh (p : Nat) (t : State) : State :=
  let t := (attachEvent t).setCan p {}
  t.setEg p { (t.eg p) with wait := 1, waiting := false }

/-- What a detach brings around the port: its link, the settle timer, the tree and the budget. -/
def detachAround (p : Nat) (down : Bool) (t : State) : State :=
  let t := updateExt (treePortGone p (linkFresh p (linkLost p down t)))
  if p < 2 then treeDetach p t else t

/-- The port had a link to lose. -/
def linkThere (p : Nat) (s : State) : Bool := portUp s p || 1 ≤ s.rd (CAN_STAT_STATE p) || 1 ≤ s.rd (ADP_STAT_STATE p)

theorem detachCore_eq (p : Nat) (s : State) : detachCore p s = detachAround p (linkThere p s) (detachLeaves p s (detachHere p s)) := rfl

theorem pd_linkLost (p : Nat) (down : Bool) (t : State) : (linkLost p down t).pd = t.pd := by
  unfold linkLost
  split
  · exact portDown_frame (κ := 24) rfl (.refl 24 t)
  · exact dropTunnels_frame (κ := 24) rfl (.refl 24 t)

theorem onlyKeys_linkLost (p : Nat) (down : Bool) (t : State) : onlyKeys pdFar t (linkLost p down t) := by
  unfold linkLost
  split
  · exact (onlyKeys_portDown p 1 t).mono fun _ => pdFar_of_portDownKeys
  · exact .of_regs (onlyKeys_dropTunnels (fun k hk => .inr (by omega)) p 1 t) rfl

theorem pd_linkFresh (p : Nat) (t : State) : (linkFresh p t).pd = t.pd :=
  State_setEg_frame (κ := 24) (σ := t) rfl (State_setCan_frame rfl (attachEvent_frame rfl (.refl 24 t)))

theorem onlyKeys_linkFresh (p : Nat) (t : State) : onlyKeys pdFar t (linkFresh p t) :=
  .setEg (.setCan ((onlyKeys_attachEvent t).mono fun _ => pdFar_of_attachKeys))

theorem pd_detachAround (p : Nat) (down : Bool) (t : State) : (detachAround p down t).pd = t.pd := by
  have hbudget (u : State) : (updateExt (treePortGone p u)).pd = u.pd := updateExt_frame (κ := 24) rfl (treePortGone_frame rfl (.refl 24 u))
  have htree (u : State) : (treeDetach p u).pd = u.pd := treeDetach_frame (κ := 24) rfl (.refl 24 u)
  have hall := (hbudget (linkFresh p (linkLost p down t))).trans ((pd_linkFresh p _).trans (pd_linkLost p down t))
  unfold detachAround
  dsimp only
  split
  · exact (htree _).trans hall
  · exact hall

theorem onlyKeys_detachAround {p : Nat} (hp : p < 8) (down : Bool) (t : State) : onlyKeys pdFar t (detachAround p down t) := by
  have hbudget := (onlyKeys_linkLost p down t).trans ((onlyKeys_linkFresh p _).trans
    ((onlyKeys_treePortGone hp _).trans (onlyKeys_updateExt _).far_steward))
  exact .ite (c := p < 2) (hbudget.trans (onlyKeys_treeDetach_far p _)) hbudget

theorem nodup_detachClears (p : CanPort) : ((detachClears p.val).map fun x => x.1.key).Nodup := by
  revert p
  decide

/-- The port's fields that a detach leaves to the others. -/
theorem not_detachClears (p : CanPort) : ∀ f ∈ [PD_STAT_CONTR p.val, PD_RDO_RDO p.val, PD_VBUS_TARGET p.val, PD_CNT_HRST p.val, PD_CNT_ERREC p.val, PD_CNT_TRFAIL p.val],
    ∀ e ∈ detachClears p.val, f.key ≠ e.1.key := by
  revert p
  decide

theorem onlyKeys_pathOff (p : Nat) (s : State) : onlyKeys pdFar s (pathOff p s) := by
  have h := (onlyKeys_openChannel (p + 2) s).trans (onlyKeys_clearLatch (p + 2) _)
  exact .ite (h.trans (onlyKeys_supplyLost 3 _)) h

/-- A contract is discarded with what goes with it (R457). -/
theorem pdDiscard_effects (p : CanPort) (s : State) : (pdDiscard p.val s).rd (PD_STAT_CONTR p.val) = 0 ∧ (pdDiscard p.val s).rd (PD_RDO_RDO p.val) = 0 ∧
    onlyKeys (fun k => pdFar k ∨ k ∈ [(PD_STAT_CONTR p.val).key, (PD_RDO_RDO p.val).key]) s (pdDiscard p.val s) ∧
    (pdDiscard p.val s).pdp p.val = { (s.pdp p.val) with offer := [], own := 0, moving := none, overdrawn := false, revokeDue := false } ∧
    ∀ q, q ≠ p.val → (pdDiscard p.val s).pdp q = s.pdp q := by
  have hnear {f : Fld} (hf : f ∈ [PD_STAT_CONTR p.val, PD_RDO_RDO p.val]) : ¬ pdFar f.key ∧ ¬ leafKey f.key :=
    pdFields_near p f (by simp only [List.mem_cons, List.not_mem_nil, or_false] at hf; obtain rfl | rfl := hf <;> simp [pdFields])
  have hseed : pdFar PD_GLOB_SEEDPORT.key := by unfold pdFar; decide
  have hne (f : Fld) (hf : ¬ pdFar f.key) (u : State) : (releaseSeed p.val u).rd f = u.rd f := by
    unfold releaseSeed
    split
    · exact State.rd_wr_ne _ _ _ _ fun e => hf (e ▸ hseed)
    · rfl
  have hpd (u : State) (q : Nat) : (releaseSeed p.val u).pdp q = u.pdp q := by
    unfold releaseSeed
    split <;> rfl
  have hkeys : (PD_STAT_CONTR p.val).key ≠ (PD_RDO_RDO p.val).key := by
    simp only [PD_STAT_CONTR, PD_RDO_RDO, fld]
    omega
  have hnodup : (([(PD_STAT_CONTR p.val, 0), (PD_RDO_RDO p.val, 0)] : List (Fld × Nat)).map fun x => x.1.key).Nodup := by simpa using hkeys
  unfold pdDiscard
  refine ⟨?_, ?_, ?_, ?_, fun q hq => ?_⟩
  · rw [hne _ (hnear (by simp)).1]
    exact rd_wrs_eq hnodup (by simp) (by simp [PD_STAT_CONTR, fld]) s
  · rw [hne _ (hnear (by simp)).1]
    exact rd_wrs_eq hnodup (by simp) (by simp [PD_RDO_RDO, fld]) s
  · have hwrs : onlyKeys (fun k => pdFar k ∨ k ∈ [(PD_STAT_CONTR p.val).key, (PD_RDO_RDO p.val).key]) s (s.wrs [(PD_STAT_CONTR p.val, 0), (PD_RDO_RDO p.val, 0)]) := by
      refine .wrs (.refl _ s) ?_
      simp only [List.forall_mem_cons, List.not_mem_nil, false_implies, implies_true, and_true]
      exact ⟨⟨.inr (by simp), (hnear (by simp)).2⟩, .inr (by simp), (hnear (by simp)).2⟩
    unfold releaseSeed
    exact .ite (.wr (.of_regs hwrs rfl) (.inl hseed) (by decide)) (.of_regs hwrs rfl)
  · rw [hpd, State.pdp_setPdp_same]
  · rw [hpd, State.pdp_setPdp_ne _ _ _ _ hq]
    rfl

/-- A port's target is set at once (R454). -/
theorem setTarget_effects (p : CanPort) {v : Nat} (hv : v < 2 ^ 12) (s : State) : (setTarget p.val v s).rd (PD_VBUS_TARGET p.val) = v ∧
    onlyKeys (fun k => k = (PD_VBUS_TARGET p.val).key) s (setTarget p.val v s) ∧ (setTarget p.val v s).pdp p.val = { (s.pdp p.val) with pos := 40 * v } ∧
    ∀ q, q ≠ p.val → (setTarget p.val v s).pdp q = s.pdp q :=
  ⟨rd_wr_of_lt _ _ _ hv, .of_regs (.wr (f := PD_VBUS_TARGET p.val) (v := v) (.refl _ s) rfl (pdFields_near p _ (by simp [pdFields])).2) rfl,
    State.pdp_setPdp_same _ _ _, fun q hq => State.pdp_setPdp_ne _ _ _ _ hq⟩

theorem pdp_pathOff (p : Nat) (s : State) (q : Nat) : (pathOff p s).pdp q = s.pdp q := by
  have hopen := clearLatch_frame (κ := 24) (n := p + 2) rfl (openChannel_frame (n := p + 2) rfl (.refl 24 s))
  have h : (pathOff p s).pd = s.pd := by
    unfold pathOff
    exact Frame.ite (supplyLost_frame (κ := 24) rfl hopen) hopen
  rw [State.pdp, h, State.pdp]

theorem not_leafKey_detachClears (p : CanPort) : ∀ e ∈ detachClears p.val, ¬ leafKey e.1.key := by
  have := p.isLt
  simp only [detachClears, List.forall_mem_cons, List.not_mem_nil, false_implies, implies_true, and_true, leafKey, fld, PD_STAT_CCST, PD_STAT_ORIENT, PD_STAT_PROLE,
    PD_STAT_DROLE, PD_STAT_VCONN, PD_STAT_CAB5A, PD_STAT_CABEPR, PD_STAT_RPLVL, PD_CV_CVEN, PD_CV_STATE, PD_CV_ADJ, PST_LEASE_MW]
  omega

@[simp] theorem State.pdp_wrs (s : State) (l : List (Fld × Nat)) (q : Nat) : (s.wrs l).pdp q = s.pdp q := by
  have h : (s.wrs l).pd = s.pd := wrs_frame (k := 24) (by decide) (.refl 24 s)
  rw [State.pdp, h, State.pdp]

/-- What a detach writes of the port itself. -/
def detachKeys (p k : Nat) : Prop := pdFar k ∨ k ∈ [(PD_STAT_CONTR p).key, (PD_RDO_RDO p).key] ∨ k = (PD_VBUS_TARGET p).key ∨ k ∈ (detachClears p).map fun e => e.1.key

/-- The port itself after a detach. -/
theorem detachHere_effects (p : CanPort) (s : State) :
    (∀ e ∈ detachClears p.val, e.2 < 2 ^ e.1.w → (detachHere p.val s).rd e.1 = e.2) ∧ (detachHere p.val s).rd (PD_STAT_CONTR p.val) = 0 ∧
    (detachHere p.val s).rd (PD_RDO_RDO p.val) = 0 ∧ (detachHere p.val s).rd (PD_VBUS_TARGET p.val) = 250 ∧
    onlyKeys (detachKeys p.val) s (detachHere p.val s) ∧
    (detachHere p.val s).pdp p.val = detachedPort s p.val ∧ ∀ q, q ≠ p.val → (detachHere p.val s).pdp q = s.pdp q := by
  have hclear := not_detachClears p
  have htail {f : Fld} (hf : f ∈ [PD_STAT_CONTR p.val, PD_RDO_RDO p.val, PD_VBUS_TARGET p.val, PD_CNT_HRST p.val, PD_CNT_ERREC p.val, PD_CNT_TRFAIL p.val]) :
      (detachHere p.val s).rd f = (setTarget p.val 250 (pdDiscard p.val (pathOff p.val s))).rd f := by
    rw [detachHere, State.rd_wrs_ne _ _ f (hclear f hf), State.rd_setPdp]
  obtain ⟨hcontr, hrdo, hdkeys, -, hdother⟩ := pdDiscard_effects p (pathOff p.val s)
  obtain ⟨htarget, htkeys, -, htother⟩ := setTarget_effects p (show 250 < 2 ^ 12 by decide) (pdDiscard p.val (pathOff p.val s))
  have hpath := onlyKeys_pathOff p.val s
  unfold detachHere at htail ⊢
  have hpdp := pdp_pathOff p.val s
  generalize pathOff p.val s = w at *
  have hct : (PD_STAT_CONTR p.val).key ≠ (PD_VBUS_TARGET p.val).key := by
    simp only [PD_STAT_CONTR, PD_VBUS_TARGET, fld]
    omega
  have hrt : (PD_RDO_RDO p.val).key ≠ (PD_VBUS_TARGET p.val).key := by
    simp only [PD_RDO_RDO, PD_VBUS_TARGET, fld]
    omega
  refine ⟨?_, ?_, ?_, ?_, ?_, ?_, ?_⟩
  · intro e he hlt
    exact rd_wrs_eq (nodup_detachClears p) (show (e.1, e.2) ∈ _ from he) hlt _
  · rw [htail (by simp), htkeys.1 _ hct, hcontr]
  · rw [htail (by simp), htkeys.1 _ hrt, hrdo]
  · rw [htail (by simp), htarget]
  · have hx : onlyKeys (detachKeys p.val) s (setTarget p.val 250 (pdDiscard p.val w)) :=
      (hpath.mono fun _ => .inl).trans ((hdkeys.mono fun k hk => hk.imp_right .inl).trans (htkeys.mono fun _ hk => Or.inr (Or.inr (Or.inl hk))))
    exact (onlyKeys.setPdp hx).wrs fun e he => ⟨.inr (.inr (.inr (List.mem_map_of_mem he))), not_leafKey_detachClears p e he⟩
  · rw [State.pdp_wrs, State.pdp_setPdp_same]
  · intro q hq
    rw [State.pdp_wrs, State.pdp_setPdp_ne _ _ _ _ hq, htother q hq, hdother q hq, hpdp]

theorem onlyKeys_detachCore {p : Nat} (hp : p < 8) (s : State) : onlyKeys pdFar (detachHere p s) (detachCore p s) := by
  have hleaf : pdFar (EVSTAT 18).key := by unfold pdFar; decide
  have hl : onlyKeys pdFar (detachHere p s) (detachLeaves p s (detachHere p s)) :=
    .ite (.raise (.raise (.refl _ _) hleaf) hleaf) (.raise (.refl _ _) hleaf)
  rw [detachCore_eq]
  exact hl.trans (onlyKeys_detachAround hp _ _)

/-- A field of a Type-C port after a detach is what the detach wrote. -/
theorem rd_detachCore {p : CanPort} {f : Fld} (hf : f ∈ pdFields p.val) (s : State) : (detachCore p.val s).rd f = (detachHere p.val s).rd f :=
  (onlyKeys_detachCore p.isLt s).1 f (pdFields_near p f hf).1

theorem leafSet_detachCore (p : CanPort) (s : State) : leafSet (detachCore p.val s) 18 1 := by
  have hl : leafSet (detachLeaves p.val s (detachHere p.val s)) 18 1 := by
    unfold detachLeaves
    split
    · exact leafSet_raise_of_leafSet (leafSet_raise _ _ _ (by decide))
    · exact leafSet_raise _ _ _ (by decide)
  rw [detachCore_eq]
  exact (onlyKeys_detachAround p.isLt _ _).2 _ _ hl

theorem pdp_detachCore (p : Nat) (s : State) (q : Nat) : (detachCore p s).pdp q = (detachHere p s).pdp q := by
  have hl : (detachLeaves p s (detachHere p s)).pd = (detachHere p s).pd := by
    unfold detachLeaves
    have hraise (b : Nat) (u : State) : (raise 18 b u).pd = u.pd := raise_frame (κ := 24) rfl (.refl 24 u)
    split
    · rw [hraise, hraise]
    · rw [hraise]
  rw [State.pdp, detachCore_eq, pd_detachAround, hl, State.pdp]

/-! ### Error recovery and Hard Resets (R455, R459) -/

theorem pdFar_leaf18 : pdFar (EVSTAT 18).key := by
  unfold pdFar
  decide

theorem not_detachKeys (p : CanPort) : ∀ f ∈ [PD_CNT_HRST p.val, PD_CNT_ERREC p.val, PD_CNT_TRFAIL p.val], ¬ detachKeys p.val f.key := by
  have hnear := pdFields_near p
  have hclear := not_detachClears p
  intro f hf
  have hf' : f ∈ pdFields p.val := by
    simp only [pdFields, List.mem_cons, List.not_mem_nil, or_false] at hf ⊢
    tauto
  have hmem : f ∈ [PD_STAT_CONTR p.val, PD_RDO_RDO p.val, PD_VBUS_TARGET p.val, PD_CNT_HRST p.val, PD_CNT_ERREC p.val, PD_CNT_TRFAIL p.val] := by
    simp only [List.mem_cons, List.not_mem_nil, or_false] at hf ⊢
    tauto
  have hlist : f.key ∉ [(PD_STAT_CONTR p.val).key, (PD_RDO_RDO p.val).key] ∧ f.key ≠ (PD_VBUS_TARGET p.val).key := by
    clear hmem hf' hnear hclear
    revert f p
    decide
  rintro (h | h | h | h)
  · exact (hnear f hf').1 h
  · exact hlist.1 h
  · exact hlist.2 h
  · obtain ⟨e, he, hk⟩ := List.mem_map.1 h
    exact hclear f hmem e he hk.symm

/-- Error recovery counts (R459). -/
theorem rd_errec_errorRecovery (p : CanPort) (s : State) : (errorRecovery p.val s).rd (PD_CNT_ERREC p.val) = satInc 255 (s.rd (PD_CNT_ERREC p.val)) := by
  have hgone : (if asSource s p.val || asSink s p.val then detachCore p.val s else s).rd (PD_CNT_ERREC p.val) = s.rd (PD_CNT_ERREC p.val) := by
    split
    · exact (rd_detachCore (by simp [pdFields]) s).trans ((detachHere_effects p s).2.2.2.2.1.1 _ (not_detachKeys p _ (by simp)))
    · rfl
  have hne : (PD_CNT_ERREC p.val).key ≠ (PD_STAT_CCST p.val).key := by
    simp only [PD_CNT_ERREC, PD_STAT_CCST, fld]
    omega
  have hleaf : ¬ leafKey (PD_CNT_ERREC p.val).key := (pdFields_near p _ (by simp [pdFields])).2
  rw [errorRecovery, rd_raise_ne _ _ _ _ (ne_evstat hleaf _), State.rd_wr_ne _ _ _ _ hne, rd_inc_eq_satInc, hgone]
  rfl

theorem contract_apart (p : CanPort) : (PD_RDO_RDO p.val).key ≠ (PD_STAT_CONTR p.val).key ∧ (PD_CNT_HRST p.val).key ≠ (PD_STAT_CONTR p.val).key ∧
    (PD_CNT_HRST p.val).key ∉ [(PD_STAT_CONTR p.val).key, (PD_RDO_RDO p.val).key] := by
  revert p
  decide

/-- The contract is discarded and the Hard Resets are counted (R455, R459). -/
def contractReset (p : Nat) (sent : Bool) (s : State) : State :=
  let t := raise 18 3 (s.inc (PD_CNT_HRST p))
  let t := if sent then t.emit (.pd p "Hard Reset" []) else t
  let t := (pdDiscard p t).wr (PD_STAT_CONTR p) 1
  t.setPdp p { (t.pdp p) with hards := (s.pdp p).hards + 1 }

theorem hardReset_attached {p : Nat} {sent : Bool} {s : State} (ha : asSource s p = true ∨ asSink s p = true) (hh : (s.pdp p).hards < 3) :
    hardReset p sent s = if asSource s p then setTarget p 250 ((contractReset p sent s).wr (PD_CV_STATE p) 1) else contractReset p sent s := by
  have ha' : (asSource s p || asSink s p) = true := by simpa using ha
  simp only [hardReset, ha', Bool.not_true, Nat.not_le.2 hh, Bool.false_eq_true, if_false]
  rfl

theorem hardReset_worn {p : Nat} {sent : Bool} {s : State} (ha : asSource s p = true ∨ asSink s p = true) (hh : 3 ≤ (s.pdp p).hards) :
    hardReset p sent s = errorRecovery p s := by
  have ha' : (asSource s p || asSink s p) = true := by simpa using ha
  simp only [hardReset, ha', Bool.not_true, hh, Bool.false_eq_true, if_false, if_true]

/-- What a Hard Reset writes. -/
def hardKeys (p k : Nat) : Prop := pdFar k ∨ k ∈ [(PD_STAT_CONTR p).key, (PD_RDO_RDO p).key, (PD_CNT_HRST p).key, (PD_CV_STATE p).key, (PD_VBUS_TARGET p).key]

theorem contractReset_effects (p : CanPort) (sent : Bool) (s : State) :
    (contractReset p.val sent s).rd (PD_STAT_CONTR p.val) = 1 ∧ (contractReset p.val sent s).rd (PD_RDO_RDO p.val) = 0 ∧
    (contractReset p.val sent s).rd (PD_CNT_HRST p.val) = satInc 255 (s.rd (PD_CNT_HRST p.val)) ∧
    (contractReset p.val sent s).pdp p.val =
      { (s.pdp p.val) with offer := [], own := 0, moving := none, overdrawn := false, revokeDue := false, hards := (s.pdp p.val).hards + 1 } ∧
    leafSet (contractReset p.val sent s) 18 3 ∧ onlyKeys (hardKeys p.val) s (contractReset p.val sent s) ∧
    (contractReset p.val sent s).sent = if sent then .pd p.val "Hard Reset" [] :: s.sent else s.sent := by
  have hnear {f : Fld} (hf : f ∈ pdFields p.val) := pdFields_near p f hf
  have hsent (u : State) : (pdDiscard p.val u).sent = u.sent := pdDiscard_frame (κ := 4) rfl (.refl 4 u)
  have hraise : (raise 18 3 (s.inc (PD_CNT_HRST p.val))).sent = s.sent := raise_frame (κ := 4) rfl (State_inc_frame rfl (.refl 4 s))
  have hpd : (raise 18 3 (s.inc (PD_CNT_HRST p.val))).pd = s.pd := raise_frame (κ := 24) rfl (State_inc_frame rfl (.refl 24 s))
  have hfirst : onlyKeys (hardKeys p.val) s (raise 18 3 (s.inc (PD_CNT_HRST p.val))) :=
    .raise (.inc (.refl _ s) (.inr (by simp)) (hnear (by simp [pdFields])).2) (.inl pdFar_leaf18)
  have hcount : (raise 18 3 (s.inc (PD_CNT_HRST p.val))).rd (PD_CNT_HRST p.val) = satInc 255 (s.rd (PD_CNT_HRST p.val)) := by
    rw [rd_raise_ne _ _ _ _ (ne_evstat (hnear (by simp [pdFields])).2 _), rd_inc_eq_satInc]
    rfl
  have hleaf : leafSet (raise 18 3 (s.inc (PD_CNT_HRST p.val))) 18 3 := leafSet_raise _ _ _ (by decide)
  unfold contractReset
  generalize raise 18 3 (s.inc (PD_CNT_HRST p.val)) = w at *
  have hkey : (PD_RDO_RDO p.val).key ≠ (PD_STAT_CONTR p.val).key ∧ (PD_CNT_HRST p.val).key ≠ (PD_STAT_CONTR p.val).key ∧
      (PD_CNT_HRST p.val).key ∉ [(PD_STAT_CONTR p.val).key, (PD_RDO_RDO p.val).key] := contract_apart p
  have hnote : onlyKeys (fun _ => False) w (if sent then w.emit (.pd p.val "Hard Reset" []) else w) := .ite (.emit (.refl _ w)) (.refl _ w)
  have hnpd : (if sent then w.emit (.pd p.val "Hard Reset" []) else w).pd = s.pd := by split <;> exact hpd
  have hnsent : (if sent then w.emit (.pd p.val "Hard Reset" []) else w).sent = if sent then .pd p.val "Hard Reset" [] :: s.sent else s.sent := by
    split
    · rw [← hraise]; rfl
    · exact hraise
  dsimp only
  generalize (if sent then w.emit (.pd p.val "Hard Reset" []) else w) = x at *
  obtain ⟨-, hrdo, hdkeys, hdpdp, -⟩ := pdDiscard_effects p x
  refine ⟨?_, ?_, ?_, ?_, ?_, ?_, ?_⟩
  · rw [State.rd_setPdp]
    exact rd_wr_of_lt _ _ _ (show 1 < 2 ^ 3 by decide)
  · rw [State.rd_setPdp, State.rd_wr_ne _ _ _ _ hkey.1, hrdo]
  · rw [State.rd_setPdp, State.rd_wr_ne _ _ _ _ hkey.2.1, hdkeys.1 _ (by simp only [hkey.2.2, (hnear (f := PD_CNT_HRST p.val) (by simp [pdFields])).1, or_self, not_false_eq_true]),
      hnote.1 _ not_false, hcount]
  · rw [State.pdp_setPdp_same, State.pdp_wr, hdpdp, State.pdp, hnpd]
    rfl
  · exact (onlyKeys.setPdp (.wr hdkeys (.inr (by simp)) (hnear (by simp [pdFields])).2)).2 _ _ (hnote.2 _ _ hleaf)
  · refine .setPdp (.wr ((hfirst.trans (hnote.mono fun _ h => h.elim)).trans (hdkeys.mono fun k hk => ?_)) (.inr (by simp)) (hnear (by simp [pdFields])).2)
    exact hk.imp_right fun hk => by
      simp only [List.mem_cons, List.not_mem_nil, or_false] at hk ⊢
      tauto
  · exact (hsent x).trans hnsent

theorem source_apart (p : CanPort) : ∀ f ∈ [PD_STAT_CONTR p.val, PD_RDO_RDO p.val, PD_CNT_HRST p.val], f.key ∉ [(PD_CV_STATE p.val).key, (PD_VBUS_TARGET p.val).key] := by
  revert p
  decide

/-- The port of a Hard Reset returns to 5 V (R455). -/
theorem hardReset_effects (p : CanPort) {sent : Bool} {s : State} (ha : asSource s p.val = true ∨ asSink s p.val = true) (hh : (s.pdp p.val).hards < 3) :
    (hardReset p.val sent s).rd (PD_STAT_CONTR p.val) = 1 ∧ (hardReset p.val sent s).rd (PD_RDO_RDO p.val) = 0 ∧
    (hardReset p.val sent s).rd (PD_CNT_HRST p.val) = satInc 255 (s.rd (PD_CNT_HRST p.val)) ∧
    (∃ x, (hardReset p.val sent s).pdp p.val = { (s.pdp p.val) with
      offer := [], own := 0, moving := none, overdrawn := false, revokeDue := false, hards := (s.pdp p.val).hards + 1, pos := x }) ∧
    leafSet (hardReset p.val sent s) 18 3 ∧ onlyKeys (hardKeys p.val) s (hardReset p.val sent s) ∧
    (hardReset p.val sent s).sent = (if sent then .pd p.val "Hard Reset" [] :: s.sent else s.sent) ∧
    (asSource s p.val = true → (hardReset p.val sent s).rd (PD_VBUS_TARGET p.val) = 250) := by
  obtain ⟨hcontr, hrdo, hcount, hpdp, hleaf, hkeys, hsent⟩ := contractReset_effects p sent s
  rw [hardReset_attached ha hh]
  generalize contractReset p.val sent s = w at *
  by_cases hsrc : asSource s p.val = true
  · obtain ⟨htarget, htkeys, htpdp, -⟩ := setTarget_effects p (show 250 < 2 ^ 12 by decide) (w.wr (PD_CV_STATE p.val) 1)
    have hwr : onlyKeys (fun k => k ∈ [(PD_CV_STATE p.val).key, (PD_VBUS_TARGET p.val).key]) w (setTarget p.val 250 (w.wr (PD_CV_STATE p.val) 1)) :=
      (onlyKeys.wr (.refl _ w) (by simp) (pdFields_near p _ (by simp [pdFields])).2).trans (htkeys.mono fun k hk => by simp [hk])
    have hapart := source_apart p
    have hsame {f : Fld} (hf : f ∈ [PD_STAT_CONTR p.val, PD_RDO_RDO p.val, PD_CNT_HRST p.val]) : (setTarget p.val 250 (w.wr (PD_CV_STATE p.val) 1)).rd f = w.rd f :=
      hwr.1 f (hapart f hf)
    have htsent : (setTarget p.val 250 (w.wr (PD_CV_STATE p.val) 1)).sent = w.sent := setTarget_frame (κ := 4) rfl (State_wr_frame rfl (.refl 4 w))
    rw [if_pos hsrc]
    refine ⟨(hsame (by simp)).trans hcontr, (hsame (by simp)).trans hrdo, (hsame (by simp)).trans hcount, ⟨_, by rw [htpdp, State.pdp_wr, hpdp]⟩, hwr.2 _ _ hleaf,
      hkeys.trans (hwr.mono fun k hk => .inr ?_), htsent.trans hsent, fun _ => htarget⟩
    simp only [List.mem_cons, List.not_mem_nil, or_false] at hk ⊢
    tauto
  · rw [if_neg hsrc]
    exact ⟨hcontr, hrdo, hcount, ⟨_, hpdp⟩, hleaf, hkeys, hsent, fun h => absurd h hsrc⟩

/-- A change of the budget's effect leaves the Type-C ports (R481). -/
theorem onlyKeys_withBeff_far (f : State → State) (s : State) : onlyKeys pdFar (f s) (withBeff f s) := (onlyKeys_withBeff f s).far_steward

theorem pdp_withBeff (f : State → State) (s : State) (q : Nat) : (withBeff f s).pdp q = (f s).pdp q := by
  have h (u : State) : (structuralEvent u).pd = u.pd := structuralEvent_frame (κ := 24) rfl (.refl 24 u)
  rcases withBeff_cases f s with e | e
  · rw [e]
  · rw [e, State.pdp, h, State.pdp]

theorem sent_withBeff (f : State → State) (s : State) : (withBeff f s).sent = (f s).sent := by
  have h (u : State) : (structuralEvent u).sent = u.sent := structuralEvent_frame (κ := 4) rfl (.refl 4 u)
  rcases withBeff_cases f s with e | e
  · rw [e]
  · rw [e, h]

/-- A source whose transition was cut short says so (R455). -/
def cutShort (p : Nat) (busy : Bool) (t : State) : State := if busy ∧ asSource t p then t.wr (PD_CV_STATE p) 5 else t

theorem exec_hardReset {p : CanPort} {s : State} (h : (s.pdp p.val).revokeDue = false) : exec (.hardReset p) s =
    .next (cutShort p.val (asSource s p.val && (s.pdp p.val).moving.isSome) (withBeff (hardReset p.val false) s)) := by
  simp only [exec, execHardReset, h, Bool.false_eq_true, if_false]
  rfl

theorem onlyKeys_cutShort (p : CanPort) (b : Bool) (t : State) : onlyKeys (fun k => k = (PD_CV_STATE p.val).key) t (cutShort p.val b t) :=
  .ite (.wr (.refl _ t) rfl (pdFields_near p _ (by simp [pdFields])).2) (.refl _ t)

theorem pdp_cutShort (p : Nat) (b : Bool) (t : State) (q : Nat) : (cutShort p b t).pdp q = t.pdp q := by
  unfold cutShort
  split <;> rfl

theorem cvState_apart (p : CanPort) : ∀ f ∈ [PD_STAT_CONTR p.val, PD_RDO_RDO p.val, PD_CNT_HRST p.val, PD_VBUS_TARGET p.val, PD_STAT_CCST p.val, PD_CNT_ERREC p.val,
    PD_CNT_TRFAIL p.val], f.key ≠ (PD_CV_STATE p.val).key := by
  revert p
  decide

theorem exec_transitionLimit {p : CanPort} {n : Nat} {rdo : Word} {s : State} (ha : asSource s p.val = true) (hm : (s.pdp p.val).moving = some (n, rdo))
    (hr : (s.pdp p.val).revokeDue = false) : exec (.transitionLimit p) s =
    .next (cutShort p.val true (hardReset p.val true (raise 18 4 (s.inc (PD_CNT_TRFAIL p.val))))) := by
  simp [exec, execTransitionLimit, ha, hm, hr, cutShort]

theorem hardKeys_apart (p : CanPort) : ∀ f ∈ [PD_STAT_CCST p.val, PD_CNT_TRFAIL p.val], f.key ∉ [(PD_STAT_CONTR p.val).key, (PD_RDO_RDO p.val).key,
    (PD_CNT_HRST p.val).key, (PD_CV_STATE p.val).key, (PD_VBUS_TARGET p.val).key] := by
  revert p
  decide

theorem not_hardKeys (p : CanPort) {f : Fld} (hf : f ∈ [PD_STAT_CCST p.val, PD_CNT_TRFAIL p.val]) : ¬ hardKeys p.val f.key := by
  have hin : f ∈ pdFields p.val := by
    simp only [pdFields, List.mem_cons, List.not_mem_nil, or_false] at hf ⊢
    tauto
  rintro (h | h)
  · exact (pdFields_near p f hin).1 h
  · exact hardKeys_apart p f hf h

/-- A late transition has been counted (R455). -/
theorem late_effects (p : CanPort) (s : State) :
    (raise 18 4 (s.inc (PD_CNT_TRFAIL p.val))).rd (PD_CNT_TRFAIL p.val) = satInc 255 (s.rd (PD_CNT_TRFAIL p.val)) ∧
    leafSet (raise 18 4 (s.inc (PD_CNT_TRFAIL p.val))) 18 4 ∧ (raise 18 4 (s.inc (PD_CNT_TRFAIL p.val))).sent = s.sent ∧
    (raise 18 4 (s.inc (PD_CNT_TRFAIL p.val))).pd = s.pd ∧
    asSource (raise 18 4 (s.inc (PD_CNT_TRFAIL p.val))) p.val = asSource s p.val := by
  have hnear {f : Fld} (hf : f ∈ pdFields p.val) := ne_evstat (pdFields_near p f hf).2 18
  have hne : (PD_STAT_CCST p.val).key ≠ (PD_CNT_TRFAIL p.val).key := by
    simp only [PD_STAT_CCST, PD_CNT_TRFAIL, fld]
    omega
  refine ⟨?_, leafSet_raise _ _ _ (by decide), raise_frame (κ := 4) rfl (State_inc_frame rfl (.refl 4 s)), raise_frame (κ := 24) rfl (State_inc_frame rfl (.refl 24 s)), ?_⟩
  · rw [rd_raise_ne _ _ _ _ (hnear (by simp [pdFields])), rd_inc_eq_satInc]
    rfl
  · rw [asSource, rd_raise_ne _ _ _ _ (hnear (by simp [pdFields])), State.inc, State.rd_wr_ne _ _ _ _ hne, asSource]

/-- An own Hard Reset of a source takes its contract (R455). -/
theorem ownReset_effects (p : CanPort) {s : State} (ha : asSource s p.val = true) (hh : (s.pdp p.val).hards < 3) :
    (hardReset p.val true s).rd (PD_STAT_CONTR p.val) = 1 ∧ (hardReset p.val true s).rd (PD_RDO_RDO p.val) = 0 ∧
    (hardReset p.val true s).sent = .pd p.val "Hard Reset" [] :: s.sent ∧ leafSet (hardReset p.val true s) 18 3 := by
  obtain ⟨hcontr, hrdo, -, -, hleaf, -, hsent, -⟩ := hardReset_effects p (sent := true) (.inl ha) hh
  exact ⟨hcontr, hrdo, hsent, hleaf⟩

theorem onlyWrites_setPdp (fs : List Fld) (s : State) (p : Nat) (x : PdPort) : onlyWrites fs [.pd] s (s.setPdp p x) := by
  refine ⟨fun _ _ => rfl, fun q hq => ?_⟩
  cases q
  case pd => simp at hq
  all_goals rfl

theorem onlyWrites_setTarget (p v : Nat) (s : State) : onlyWrites [PD_VBUS_TARGET p] [.pd] s (setTarget p v s) :=
  ((onlyWrites_wr (PD_VBUS_TARGET p) v s).mono (List.Subset.refl _) (by simp)).trans (onlyWrites_setPdp _ _ _ _)

/-- A source that lost its attachment to error recovery is one no more. -/
theorem asSource_of_recovering {p : CanPort} {t : State} (h : t.rd (PD_STAT_CCST p.val) = 4) (b : Bool) : cutShort p.val b t = t := by
  simp [cutShort, asSource, h]

theorem partnerReset (p : CanPort) (s : State) (ha : asSource s p.val = true ∨ asSink s p.val = true) (hr : (s.pdp p.val).revokeDue = false) :
    ((s.pdp p.val).hards < 3 → ∃ t, exec (.hardReset p) s = .next t ∧ t.rd (PD_STAT_CONTR p.val) = 1 ∧ t.rd (PD_RDO_RDO p.val) = 0 ∧
      t.rd (PD_CNT_HRST p.val) = satInc 255 (s.rd (PD_CNT_HRST p.val)) ∧ (t.pdp p.val).moving = none ∧
      (t.pdp p.val).hards = (s.pdp p.val).hards + 1 ∧ leafSet t 18 3 ∧ (asSource s p.val = true → t.rd (PD_VBUS_TARGET p.val) = 250)) ∧
    (3 ≤ (s.pdp p.val).hards → ∃ t, exec (.hardReset p) s = .next t ∧ t.rd (PD_STAT_CCST p.val) = 4 ∧
      t.rd (PD_CNT_ERREC p.val) = satInc 255 (s.rd (PD_CNT_ERREC p.val)) ∧ leafSet t 18 7) := by
  have hexec := exec_hardReset (p := p) hr
  have hbeff := onlyKeys_withBeff_far (hardReset p.val false) s
  have hfar {f : Fld} (hf : f ∈ pdFields p.val) : (withBeff (hardReset p.val false) s).rd f = (hardReset p.val false s).rd f := hbeff.1 f (pdFields_near p f hf).1
  refine ⟨fun hh => ?_, fun hh => ?_⟩
  · obtain ⟨hcontr, hrdo, hcount, ⟨x, hpdp⟩, hleaf, -, -, htarget⟩ := hardReset_effects p (sent := false) ha hh
    have hcut := onlyKeys_cutShort p (asSource s p.val && (s.pdp p.val).moving.isSome) (withBeff (hardReset p.val false) s)
    have hapart := cvState_apart p
    have hpdp' : (cutShort p.val (asSource s p.val && (s.pdp p.val).moving.isSome) (withBeff (hardReset p.val false) s)).pdp p.val = _ :=
      (pdp_cutShort _ _ _ _).trans ((pdp_withBeff _ _ _).trans hpdp)
    refine ⟨_, hexec, ?_, ?_, ?_, by rw [hpdp'], by rw [hpdp'], hcut.2 _ _ (hbeff.2 _ _ hleaf), fun hs => ?_⟩
    · rw [hcut.1 _ (hapart _ (by simp)), hfar (by simp [pdFields]), hcontr]
    · rw [hcut.1 _ (hapart _ (by simp)), hfar (by simp [pdFields]), hrdo]
    · rw [hcut.1 _ (hapart _ (by simp)), hfar (by simp [pdFields]), hcount]
    · rw [hcut.1 _ (hapart _ (by simp)), hfar (by simp [pdFields]), htarget hs]
  · obtain ⟨hccst, hleaf⟩ := errorRecovery_effects p s
    have hworn := hardReset_worn (sent := false) ha hh
    have hst : (withBeff (hardReset p.val false) s).rd (PD_STAT_CCST p.val) = 4 := by rw [hfar (by simp [pdFields]), hworn, hccst]
    rw [asSource_of_recovering hst] at hexec
    refine ⟨_, hexec, hst, ?_, hbeff.2 _ _ (hworn ▸ hleaf)⟩
    rw [hfar (by simp [pdFields]), hworn, rd_errec_errorRecovery]

theorem transitionLate (p : CanPort) (n : Nat) (rdo : Word) (s : State) (ha : asSource s p.val = true) (hm : (s.pdp p.val).moving = some (n, rdo))
    (hr : (s.pdp p.val).revokeDue = false) (hh : (s.pdp p.val).hards < 3) :
    ∃ t, exec (.transitionLimit p) s = .next t ∧ t.rd (PD_STAT_CONTR p.val) = 1 ∧ t.rd (PD_RDO_RDO p.val) = 0 ∧
      t.rd (PD_CNT_TRFAIL p.val) = satInc 255 (s.rd (PD_CNT_TRFAIL p.val)) ∧ t.rd (PD_VBUS_TARGET p.val) = 250 ∧
      t.rd (PD_CV_STATE p.val) = 5 ∧ (t.pdp p.val).moving = none ∧ t.sent = .pd p.val "Hard Reset" [] :: s.sent ∧ leafSet t 18 4 ∧
      leafSet t 18 3 := by
  have hexec := exec_transitionLimit ha hm hr
  obtain ⟨hcount, hlate, hsent, hpd, hsrc⟩ := late_effects p s
  generalize raise 18 4 (s.inc (PD_CNT_TRFAIL p.val)) = w at *
  have hpdp : w.pdp p.val = s.pdp p.val := by rw [State.pdp, hpd, State.pdp]
  obtain ⟨hcontr, hrdo, -, ⟨x, hhpdp⟩, hleaf, hkeys, hhsent, htarget⟩ := hardReset_effects p (sent := true) (s := w) (.inl (hsrc.trans ha)) (hpdp ▸ hh)
  have hstill : asSource (hardReset p.val true w) p.val = true := by rw [asSource, hkeys.1 _ (not_hardKeys p (by simp)), ← asSource, hsrc, ha]
  have hcut : cutShort p.val true (hardReset p.val true w) = (hardReset p.val true w).wr (PD_CV_STATE p.val) 5 := by simp [cutShort, hstill]
  have hapart := cvState_apart p
  have hwr := onlyKeys_cutShort p true (hardReset p.val true w)
  rw [hcut] at hexec hwr
  refine ⟨_, hexec, ?_, ?_, ?_, ?_, rd_wr_of_lt _ _ _ (show 5 < 2 ^ 3 by decide), ?_, ?_, hwr.2 _ _ (hkeys.2 _ _ hlate), hwr.2 _ _ hleaf⟩
  · rw [hwr.1 _ (hapart _ (by simp)), hcontr]
  · rw [hwr.1 _ (hapart _ (by simp)), hrdo]
  · rw [hwr.1 _ (hapart _ (by simp)), hkeys.1 _ (not_hardKeys p (by simp)), hcount]
  · rw [hwr.1 _ (hapart _ (by simp)), htarget (hsrc.trans ha)]
  · rw [State.pdp_wr, hhpdp]
  · exact hhsent.trans (by rw [hsent]; rfl)

theorem transitionWorn (p : CanPort) (s : State) (ha : asSource s p.val = true) (hm : (s.pdp p.val).moving ≠ none)
    (hr : (s.pdp p.val).revokeDue = false) (hh : 3 ≤ (s.pdp p.val).hards) :
    ∃ t, exec (.transitionLimit p) s = .next t ∧ t.rd (PD_STAT_CCST p.val) = 4 ∧ leafSet t 18 7 := by
  obtain ⟨⟨n, rdo⟩, hm⟩ := Option.ne_none_iff_exists'.1 hm
  have hexec := exec_transitionLimit ha hm hr
  obtain ⟨-, -, -, hpd, hsrc⟩ := late_effects p s
  generalize raise 18 4 (s.inc (PD_CNT_TRFAIL p.val)) = w at *
  have hpdp : w.pdp p.val = s.pdp p.val := by rw [State.pdp, hpd, State.pdp]
  obtain ⟨hccst, hleaf⟩ := errorRecovery_effects p w
  rw [hardReset_worn (.inl (hsrc.trans ha)) (hpdp ▸ hh), asSource_of_recovering hccst] at hexec
  exact ⟨_, hexec, hccst, hleaf⟩

theorem sinkSilent (p : CanPort) (s : State) (ha : asSource s p.val = true) (hh : (s.pdp p.val).hards < 3) :
    (s.rd (PD_STAT_CONTR p.val) = 3 → ∃ t, exec (.ppsTimeout p) s = .next t ∧ t.rd (PD_STAT_CONTR p.val) = 1 ∧
      t.rd (PD_RDO_RDO p.val) = 0 ∧ t.sent = .pd p.val "Hard Reset" [] :: s.sent ∧ leafSet t 18 3) ∧
    (s.rd (PD_STAT_CONTR p.val) ≠ 3 → exec (.ppsTimeout p) s = .next s) ∧
    (s.rd (PD_STAT_CONTR p.val) = 4 → ∃ t, exec (.eprKeepaliveTimeout p) s = .next t ∧ t.rd (PD_STAT_CONTR p.val) = 1 ∧
      t.rd (PD_RDO_RDO p.val) = 0 ∧ t.sent = .pd p.val "Hard Reset" [] :: s.sent ∧ leafSet t 18 3) ∧
    (s.rd (PD_STAT_CONTR p.val) ≠ 4 → exec (.eprKeepaliveTimeout p) s = .next s) := by
  have hown := ownReset_effects p ha hh
  refine ⟨fun h => ⟨hardReset p.val true s, by simp [exec, execPpsTimeout, h, ha], hown⟩, fun h => by simp [exec, execPpsTimeout, h],
    fun h => ⟨hardReset p.val true s, by simp [exec, execEprKeepaliveTimeout, h, ha], hown⟩, fun h => by simp [exec, execEprKeepaliveTimeout, h]⟩

/-- A PPS source regulates its current (R456). -/
theorem ppsRegulates (p : CanPort) (s : State) (ha : asSource s p.val = true) (hc : s.rd (PD_STAT_CONTR p.val) = 3) (hm : (s.pdp p.val).moving = none)
    (hh : (s.pdp p.val).holding = false) :
    (5 * bits (objectAt (s.pdp p.val).offer (bits (s.rd (PD_RDO_RDO p.val)) 31 28)) 15 8 < s.rd (PD_VBUS_TARGET p.val) →
      ∃ t, exec (.ppsCurrentLimit p true) s = .next t ∧ t.rd (PD_VBUS_TARGET p.val) = s.rd (PD_VBUS_TARGET p.val) - 1 ∧
        t.rd (PD_CV_STATE p.val) = 4 ∧ onlyWrites [PD_VBUS_TARGET p.val, PD_CV_STATE p.val] [.pd] s t) ∧
    (s.rd (PD_VBUS_TARGET p.val) ≤ 5 * bits (objectAt (s.pdp p.val).offer (bits (s.rd (PD_RDO_RDO p.val)) 31 28)) 15 8 →
      ∃ t, exec (.ppsCurrentLimit p true) s = .next t ∧ t.rd (PD_CV_STATE p.val) = 4 ∧ onlyWrites [PD_CV_STATE p.val] [] s t) ∧
    (s.rd (PD_VBUS_TARGET p.val) < (requested (s.pdp p.val).offer (s.rd (PD_RDO_RDO p.val))).1 / 20 →
      s.rd (PD_VBUS_TARGET p.val) < 4095 →
      ∃ t, exec (.ppsCurrentLimit p false) s = .next t ∧ t.rd (PD_VBUS_TARGET p.val) = s.rd (PD_VBUS_TARGET p.val) + 1 ∧
        onlyWrites [PD_VBUS_TARGET p.val, PD_CV_STATE p.val] [.pd] s t) ∧
    ((requested (s.pdp p.val).offer (s.rd (PD_RDO_RDO p.val))).1 / 20 ≤ s.rd (PD_VBUS_TARGET p.val) →
      ∃ t, exec (.ppsCurrentLimit p false) s = .next t ∧ onlyWrites [PD_CV_STATE p.val] [] s t) := by
  have hlt : s.rd (PD_VBUS_TARGET p.val) < 2 ^ 12 := State.rd_lt s _
  have hmove (v st : Nat) : onlyWrites [PD_VBUS_TARGET p.val, PD_CV_STATE p.val] [.pd] s (setTarget p.val v (s.wr (PD_CV_STATE p.val) st)) :=
    ((onlyWrites_wr (PD_CV_STATE p.val) st s).mono (by simp) (by simp)).trans ((onlyWrites_setTarget p.val v _).mono (by simp) (List.Subset.refl _))
  have hapart : (PD_CV_STATE p.val).key ≠ (PD_VBUS_TARGET p.val).key := (cvState_apart p (PD_VBUS_TARGET p.val) (by simp)).symm
  refine ⟨fun h => ?_, fun h => ?_, fun h hmax => ?_, fun h => ?_⟩
  · have hexec : exec (.ppsCurrentLimit p true) s = .next (setTarget p.val (s.rd (PD_VBUS_TARGET p.val) - 1) (s.wr (PD_CV_STATE p.val) 4)) := by
      simp [exec, execPpsCurrentLimit, ha, hc, hm, hh, h]
    obtain ⟨htarget, htkeys, -⟩ := setTarget_effects p (show s.rd (PD_VBUS_TARGET p.val) - 1 < 2 ^ 12 by omega) (s.wr (PD_CV_STATE p.val) 4)
    exact ⟨_, hexec, htarget, (htkeys.1 _ hapart).trans (rd_wr_of_lt _ _ _ (show 4 < 2 ^ 3 by decide)), hmove _ _⟩
  · have hexec : exec (.ppsCurrentLimit p true) s = .next (s.wr (PD_CV_STATE p.val) 4) := by
      simp [exec, execPpsCurrentLimit, ha, hc, hm, hh, Nat.not_lt.2 h]
    exact ⟨_, hexec, rd_wr_of_lt _ _ _ (show 4 < 2 ^ 3 by decide), (onlyWrites_wr _ _ s).mono (List.Subset.refl _) (by simp)⟩
  · have hexec : exec (.ppsCurrentLimit p false) s = .next (setTarget p.val (s.rd (PD_VBUS_TARGET p.val) + 1) (s.wr (PD_CV_STATE p.val)
        (if s.rd (PD_VBUS_TARGET p.val) + 1 < (requested (s.pdp p.val).offer (s.rd (PD_RDO_RDO p.val))).1 / 20 then 4 else 1))) := by
      simp [exec, execPpsCurrentLimit, ha, hc, hm, hh, h]
    obtain ⟨htarget, -⟩ := setTarget_effects p (show s.rd (PD_VBUS_TARGET p.val) + 1 < 2 ^ 12 by omega) (s.wr (PD_CV_STATE p.val)
        (if s.rd (PD_VBUS_TARGET p.val) + 1 < (requested (s.pdp p.val).offer (s.rd (PD_RDO_RDO p.val))).1 / 20 then 4 else 1))
    exact ⟨_, hexec, htarget, hmove _ _⟩
  · have hexec : exec (.ppsCurrentLimit p false) s = .next (if s.rd (PD_CV_STATE p.val) = 4 then s.wr (PD_CV_STATE p.val) 1 else s) := by
      simp [exec, execPpsCurrentLimit, ha, hc, hm, hh, Nat.not_lt.2 h]
    exact ⟨_, hexec, .ite ((onlyWrites_wr _ _ s).mono (List.Subset.refl _) (by simp)) (.refl _ _ s)⟩

/-- Settles O38. -/
theorem hardResetsAndCurrentLimits : Obligations.HardResetsAndCurrentLimits :=
  ⟨partnerReset, transitionLate, transitionWorn, fun p s h => by simp [exec, execTransitionLimit, h], sinkSilent, ppsRegulates⟩

end Sys2Proof.Machine
end

section
set_option Elab.async false
/-! Attach and detach of the Type-C ports. -/

namespace Sys2Proof.Machine

open Sys2Proof Sys2Proof.Laws

/-! ### What has been sent stays sent -/

/-- The outputs of a state are among those of the next. -/
def sentGrows (s t : State) : Prop := ∀ o ∈ s.sent, o ∈ t.sent

theorem sentGrows.refl (s : State) : sentGrows s s := fun _ h => h
theorem sentGrows.trans {s t u : State} (h : sentGrows s t) (g : sentGrows t u) : sentGrows s u := fun o ho => g o (h o ho)
theorem sentGrows.of_eq {s t : State} (h : t.sent = s.sent) : sentGrows s t := fun _ ho => h ▸ ho
theorem sentGrows.emit {s t : State} (h : sentGrows s t) (o : Out) : sentGrows s (t.emit o) := fun _ hx => List.mem_cons_of_mem _ (h _ hx)
theorem sentGrows.ite {s t u : State} {c : Prop} [Decidable c] (h : sentGrows s t) (g : sentGrows s u) : sentGrows s (if c then t else u) := by
  split <;> assumption

theorem sentGrows_forAll {α : Type} {l : List α} {f : α → State → State} (h : ∀ a ∈ l, ∀ u, sentGrows u (f a u)) (s : State) : sentGrows s (forAll l f s) :=
  forAll_induction (P := sentGrows s) (.refl s) fun a ha u hu => hu.trans (h a ha u)

theorem sentGrows_showIndicator (s : State) : sentGrows s (showIndicator s) := by
  unfold showIndicator
  split
  · exact .emit (.refl s) _
  · exact .refl s

theorem sent_leaveDoze (s : State) : (leaveDoze s).sent = s.sent := leaveDoze_frame (κ := 4) rfl (.refl 4 s)

theorem sentGrows_toActive (s : State) : sentGrows s (toActive s) := by
  have hraise : (raise 16 0 (s.wrs [(PST_PSSTAT_STATE, 0), (PST_PSCTL_GO, 0)])).sent = s.sent := raise_frame (κ := 4) rfl (wrs_frame rfl (.refl 4 s))
  have hshow := (sentGrows.of_eq hraise).trans (sentGrows_showIndicator _)
  exact .ite (.refl s) (.ite (hshow.trans (.of_eq (sent_leaveDoze _))) hshow)

theorem sentGrows_attachEvent (s : State) : sentGrows s (attachEvent s) := by
  have hwake : sentGrows s (attachWakes s) := .ite (sentGrows_toActive s) (.refl s)
  have hrest (u : State) : (startSettle (cancelSolve (settleTie u))).sent = u.sent :=
    startSettle_frame (κ := 4) rfl (cancelSolve_frame rfl (settleTie_frame rfl (.refl 4 u)))
  exact .ite (hwake.trans (.of_eq (hrest _))) hwake

theorem sentGrows_treeSwitch (n : Nat) (b : Bool) (s : State) : sentGrows s (treeSwitch n b s) := .ite (.emit (.of_eq rfl) _) (.refl s)

theorem sent_treeDrop (n : Nat) (s : State) : (treeDrop n s).sent = s.sent := treeDrop_frame (κ := 4) rfl (.refl 4 s)

theorem sentGrows_treeOff (n : Nat) (s : State) : sentGrows s (treeOff n s) :=
  .trans (.trans (.of_eq (sent_treeDrop n s)) (sentGrows_treeSwitch n false _)) (.of_eq rfl)

theorem sentGrows_treeReset (s : State) : sentGrows s (treeReset s) :=
  .trans (.of_eq (State_wr_frame (k := 4) rfl (functionReset_frame rfl (.refl 4 s)))) (sentGrows_forAll (fun n _ u => sentGrows_treeOff n u) _)

theorem sentGrows_updateTree (s : State) : sentGrows s (updateTree s) := by
  have hdown : sentGrows s (downstreamSet s) := by
    unfold downstreamSet
    dsimp only
    split
    · exact .refl s
    · exact .of_eq (State_wr_frame (k := 4) rfl (treeDrop_frame rfl (.refl 4 s)))
  have hup (n : Nat) (u : State) : sentGrows u (upstreamSet n u) := by
    have hwrs : sentGrows u (u.wrs [(USB_STAT_PULLUP, 0), (USB_STAT_SPEED, 0)]) := .of_eq (wrs_frame (k := 4) rfl (.refl 4 u))
    exact (hwrs.trans (sentGrows_treeReset _)).trans (.emit (.of_eq (raise_frame (κ := 4) rfl (State_inc_frame rfl (wrs_frame rfl (.refl 4 _))))) _)
  rw [updateTree_eq]
  exact .ite hdown (hdown.trans (hup _ _))

/-! ### A port's training (R240, R259) -/

/-- What a training writes: the link's and the adapter's states, and of the cells the state, the rate, the pairs' directions and locks. -/
def trainedKey (k : Nat) : Prop := (∃ p, ∃ f ∈ [CAN_STAT_STATE p, CAN_STAT_MODE p, CAN_STAT_ROLE p, ADP_STAT_STATE p], k = f.key) ∨
  ∃ c, ∃ f ∈ [LC_STAT_STATE c, LC_STAT_RATE c, LC_STAT_ORIENT c, LC_STAT_DIR c, lockF c false, lockF c true], k = f.key

/-- The registers of the groves' ports and of the lane cells. -/
def groveUp (k : Nat) : Prop := 0x800000 ≤ k

theorem groveUp_lane (c : Nat) : ∀ f ∈ [LC_STAT_STATE c, LC_STAT_RATE c, LC_STAT_ORIENT c, LC_STAT_DIR c, lockF c false, lockF c true],
    groveUp f.key ∧ ¬ leafKey f.key := by
  simp only [List.forall_mem_cons, List.not_mem_nil, false_implies, implies_true, and_true, groveUp, leafKey, LC_STAT_STATE, LC_STAT_RATE, LC_STAT_ORIENT, LC_STAT_DIR,
    lockF, LC_STAT_LOCKA, LC_STAT_LOCKB, fld, Bool.false_eq_true, if_false, if_true]
  omega

theorem groveUp_link (p : Nat) : ∀ f ∈ [CAN_STAT_STATE p, CAN_STAT_MODE p, CAN_STAT_ROLE p, ADP_STAT_STATE p], groveUp f.key ∧ ¬ leafKey f.key := by
  have hplace := portPlace_lt p
  have hgrove := portGrove_lt p
  simp only [List.forall_mem_cons, List.not_mem_nil, false_implies, implies_true, and_true, groveUp, leafKey, CAN_STAT_STATE, CAN_STAT_MODE, CAN_STAT_ROLE,
    ADP_STAT_STATE, portReg, fld]
  omega

theorem groveUp_of_trainedKey {k : Nat} (h : trainedKey k) : groveUp k := by
  rcases h with ⟨p, f, hf, rfl⟩ | ⟨c, f, hf, rfl⟩
  · exact (groveUp_link p f hf).1
  · exact (groveUp_lane c f hf).1

theorem trainedKey_lane (c : Nat) : ∀ f ∈ [LC_STAT_STATE c, LC_STAT_RATE c, LC_STAT_ORIENT c, LC_STAT_DIR c, lockF c false, lockF c true],
    trainedKey f.key ∧ ¬ leafKey f.key := fun f hf => ⟨.inr ⟨c, f, hf, rfl⟩, (groveUp_lane c f hf).2⟩

theorem trainedKey_link (p : Nat) : ∀ f ∈ [CAN_STAT_STATE p, CAN_STAT_MODE p, CAN_STAT_ROLE p, ADP_STAT_STATE p], trainedKey f.key ∧ ¬ leafKey f.key :=
  fun f hf => ⟨.inl ⟨p, f, hf, rfl⟩, (groveUp_link p f hf).2⟩

theorem onlyKeys_setDirs (p m : Nat) (s : State) : onlyKeys trainedKey s (setDirs p m s) :=
  .forAll (.refl _ s) fun c _ u => .wr (.refl _ u) (trainedKey_lane c _ (by simp)).1 (trainedKey_lane c _ (by simp)).2

theorem onlyKeys_cellStarts (p c : Nat) (u : State) : onlyKeys trainedKey u (cellStarts p c u) := by
  have hc := trainedKey_lane c
  refine .setLane (.wrs (.refl _ u) ?_)
  simp only [List.forall_mem_cons, List.not_mem_nil, false_implies, implies_true, and_true] at hc ⊢
  tauto

theorem onlyKeys_startCanopy (p : Nat) (s : State) : onlyKeys trainedKey s (startCanopy p s) := by
  have hp := trainedKey_link p
  have hbegun : onlyKeys trainedKey s (canopyBegun p s) := .setCan (.refl _ s)
  rw [startCanopy_eq]
  refine hbegun.trans (.ite (.refl _ _) (.forAll (.trans (.wrs (.refl _ _) ?_) (onlyKeys_setDirs _ _ _)) fun c _ u => onlyKeys_cellStarts p c u))
  simp only [List.forall_mem_cons, List.not_mem_nil, false_implies, implies_true, and_true] at hp ⊢
  tauto

theorem onlyKeys_startTraining (p : Nat) (s : State) : onlyKeys trainedKey s (startTraining p s) := by
  have hp := trainedKey_link p (ADP_STAT_STATE p) (by simp)
  refine .ite (onlyKeys_startCanopy p s) (.forAll (.wr (.refl _ s) hp.1 hp.2) fun c _ u => .wrs (.refl _ u) ?_)
  have hc := trainedKey_lane c
  simp only [List.forall_mem_cons, List.not_mem_nil, false_implies, implies_true, and_true] at hc ⊢
  tauto

theorem sent_startTraining (p : Nat) (s : State) : (startTraining p s).sent = s.sent := startTraining_frame (κ := 4) rfl (.refl 4 s)

theorem onlyKeys_enterChosen (p : Nat) (s : State) : onlyKeys groveUp s (enterChosen p s) := by
  unfold enterChosen
  split
  · exact .setCan (.refl _ s)
  · exact .emit (.setCan (.refl _ s))
  · exact .trans (.emit (.setCan (.refl _ s))) ((onlyKeys_startTraining p _).mono fun _ => groveUp_of_trainedKey)

theorem sentGrows_enterChosen (p : Nat) (s : State) : sentGrows s (enterChosen p s) := by
  unfold enterChosen
  split
  · exact .of_eq rfl
  · exact .emit (.of_eq rfl) _
  · exact .trans (.emit (.of_eq rfl) _) (.of_eq (sent_startTraining p _))

theorem pdFar_of_groveUp {k : Nat} (h : groveUp k) : pdFar k := .inr (Nat.le_trans (by decide) h)

/-! ### The attach (R446, R447) -/

/-- The termination has been read: orientation, cable and what the partner says of itself. -/
def attachRead (p : Nat) (cc2 : Bool) (i : CcInfo) (s : State) : State :=
  let t := s.wrs [(PD_STAT_ORIENT p, b2n cc2), (PD_STAT_CAB5A p, b2n i.cable5A), (PD_STAT_CABEPR p, b2n i.cableEpr), (PD_STAT_CONTR p, 1)]
  let t := t.setPdp p { (t.pdp p) with pd := i.pd, vconnNeeded := i.vconnNeeded }
  t.setCan p { supports := i.supports, flip := cc2 }

/-- What the attach brings around the port: the settle timer, the tree, the mode of the link. -/
def attachAround (p : Nat) (t : State) : State :=
  let t := attachEvent (raise 18 0 t)
  let t := if p < 2 then updateTree t else t
  if t.on CFG_STATUS_LOADED ∧ t.rd PST_PSSTAT_STATE < 3 ∧ (2 ≤ p ∨ isDown t p) then enterChosen p t else t

theorem exec_ccAttach {p : CanPort} {s : State} (cc2 b : Bool) (i : CcInfo) (hc : s.rd (PD_STAT_CCST p.val) < 2) (hw : (s.pdp p.val).waitVbus = false)
    (hmay : (if b then maySource s p.val else maySink s p.val) = true) : exec (.ccAttach p cc2 b i) s =
    .next (attachAround p.val (withBeff (fun u => if b then attachSource p.val i u else attachSink p.val i u) (attachRead p.val cc2 i s))) := by
  simp only [exec, execCcAttach, Nat.not_le.2 hc, hw, hmay, Bool.not_true, Bool.false_eq_true, or_self, if_false]
  rfl

theorem onlyKeys_attachAround (p : Nat) (t : State) : onlyKeys pdFar t (attachAround p t) ∧ leafSet (attachAround p t) 18 0 := by
  have hraise : leafSet (attachEvent (raise 18 0 t)) 18 0 := (onlyKeys_attachEvent _).2 _ _ (leafSet_raise _ _ _ (by decide))
  have hevent : onlyKeys pdFar t (attachEvent (raise 18 0 t)) :=
    .trans (.raise (.refl _ t) pdFar_leaf18) ((onlyKeys_attachEvent _).mono fun _ => pdFar_of_attachKeys)
  have hrest (u : State) : onlyKeys pdFar u (if p < 2 then updateTree u else u) := .ite (onlyKeys_updateTree_far u) (.refl _ u)
  have hlink (u : State) : onlyKeys pdFar u (if u.on CFG_STATUS_LOADED ∧ u.rd PST_PSSTAT_STATE < 3 ∧ (2 ≤ p ∨ isDown u p) then enterChosen p u else u) :=
    .ite ((onlyKeys_enterChosen p u).mono fun _ => pdFar_of_groveUp) (.refl _ u)
  exact ⟨hevent.trans ((hrest _).trans (hlink _)), ((hrest _).trans (hlink _)).2 _ _ hraise⟩

theorem sentGrows_attachAround (p : Nat) (t : State) : sentGrows t (attachAround p t) := by
  have hevent : sentGrows t (attachEvent (raise 18 0 t)) := .trans (.of_eq (raise_frame (κ := 4) rfl (.refl 4 t))) (sentGrows_attachEvent _)
  have hrest (u : State) : sentGrows u (if p < 2 then updateTree u else u) := .ite (sentGrows_updateTree u) (.refl u)
  have hlink (u : State) : sentGrows u (if u.on CFG_STATUS_LOADED ∧ u.rd PST_PSSTAT_STATE < 3 ∧ (2 ≤ p ∨ isDown u p) then enterChosen p u else u) :=
    .ite (sentGrows_enterChosen p u) (.refl u)
  exact hevent.trans ((hrest _).trans (hlink _))

/-- What an attach as source shows of the port. -/
def sourceShows (p : Nat) (i : CcInfo) : List (Fld × Nat) := [(PD_STAT_CCST p, 2), (PD_STAT_PROLE p, 1), (PD_STAT_DROLE p, 1), (PD_STAT_VCONN p, b2n i.vconnNeeded),
  (PD_STAT_RPLVL p, 2), (PD_CV_CVEN p, 1), (PD_CV_STATE p, 1)]

/-- What an attach as sink shows of the port. -/
def sinkShows (p : Nat) (i : CcInfo) : List (Fld × Nat) := [(PD_STAT_CCST p, 3), (PD_STAT_PROLE p, 0), (PD_STAT_DROLE p, 0), (PD_STAT_VCONN p, 0),
  (PD_STAT_RPLVL p, min 3 i.rp)]

theorem onlyKeys_attachLease {p : Nat} (hp : p < 8) (s : State) : onlyKeys pdFar s (attachLease p s) := by
  have hkey : pdFar (PST_LEASE_MW (p + 2)).key ∧ ¬ leafKey (PST_LEASE_MW (p + 2)).key := by
    simp only [pdFar, leafKey, PST_LEASE_MW, fld]
    omega
  exact .ite (.refl _ s) (.trans (.wr (.refl _ s) hkey.1 hkey.2) (onlyKeys_updateExt _).far_steward)

theorem onlyKeys_sourceCaps {K : Nat → Prop} (p : Nat) (s : State) : onlyKeys K s (sourceCaps p s) := .emit (.setPdp (.refl _ s))

theorem onlyKeys_attachSource (p : CanPort) (i : CcInfo) (s : State) : onlyKeys (fun k => pdFar k ∨ k = (PD_VBUS_TARGET p.val).key)
    (s.wrs (sourceShows p.val i)) (attachSource p.val i s) := by
  have hseed : pdFar PD_GLOB_SEEDPORT.key := by unfold pdFar; decide
  have htarget := (setTarget_effects p (show 250 < 2 ^ 12 by decide) (s.wrs (sourceShows p.val i))).2.1
  have hpick (u : State) : onlyKeys pdFar u (if !fwSources u ∧ u.rd PD_GLOB_SEEDPORT = 0xFF then u.wr PD_GLOB_SEEDPORT p.val else u) :=
    .ite (.wr (.refl _ u) hseed (by decide)) (.refl _ u)
  have hlease (u : State) : onlyKeys pdFar u (attachLease p.val (closeChannel (p.val + 2) false false u)) :=
    (onlyKeys_closeChannel _ _ _ u).trans (onlyKeys_attachLease p.isLt _)
  have hpath := (htarget.mono fun _ => .inr).trans (((hpick _).trans (hlease _)).mono fun _ => Or.inl)
  exact .ite (hpath.trans (onlyKeys_sourceCaps _ _)) hpath

theorem sent_attachSource {p : Nat} {i : CcInfo} (s : State) (hi : i.pd = true) : ∃ l, Out.pd p "Source_Capabilities" l ∈ (attachSource p i s).sent := by
  simp only [attachSource, hi, if_true]
  exact ⟨_, List.mem_cons_self⟩

theorem onlyKeys_attachSink (p : CanPort) (i : CcInfo) (s : State) : onlyKeys pdFar (s.wrs (sinkShows p.val i)) (attachSink p.val i s) := by
  have hfeed : pdFar PP_FEED_ACTIVE.key := by unfold pdFar; decide
  exact .ite (.trans (.wr (onlyKeys_closeChannel _ _ _ _) hfeed (by decide)) (onlyKeys_updateExt _).far_steward) (.refl _ _)

theorem nodup_sourceShows (p : CanPort) (i : CcInfo) : ((sourceShows p.val i).map fun x => x.1.key).Nodup := by
  obtain ⟨p, hp⟩ := p
  simp only [sourceShows, List.map_cons, List.map_nil]
  interval_cases p <;> decide

theorem nodup_sinkShows (p : CanPort) (i : CcInfo) : ((sinkShows p.val i).map fun x => x.1.key).Nodup := by
  obtain ⟨p, hp⟩ := p
  simp only [sinkShows, List.map_cons, List.map_nil]
  interval_cases p <;> decide

/-- The fields of the first reading stand apart from the role's. -/
theorem read_apart (p : CanPort) : ∀ f ∈ [PD_STAT_ORIENT p.val, PD_STAT_CAB5A p.val, PD_STAT_CONTR p.val], ∀ g ∈ [PD_STAT_CCST p.val, PD_STAT_PROLE p.val,
    PD_STAT_DROLE p.val, PD_STAT_VCONN p.val, PD_STAT_RPLVL p.val, PD_CV_CVEN p.val, PD_CV_STATE p.val, PD_VBUS_TARGET p.val], f.key ≠ g.key := by
  revert p
  decide

theorem target_apart (p : CanPort) : ∀ f ∈ [PD_STAT_CCST p.val, PD_STAT_PROLE p.val, PD_STAT_DROLE p.val, PD_STAT_VCONN p.val, PD_CV_CVEN p.val],
    f.key ≠ (PD_VBUS_TARGET p.val).key := by
  revert p
  decide

theorem rd_attachRead (p : CanPort) (cc2 : Bool) (i : CcInfo) (s : State) : (attachRead p.val cc2 i s).rd (PD_STAT_ORIENT p.val) = b2n cc2 ∧
    (attachRead p.val cc2 i s).rd (PD_STAT_CAB5A p.val) = b2n i.cable5A ∧ (attachRead p.val cc2 i s).rd (PD_STAT_CONTR p.val) = 1 := by
  have hb (b : Bool) : b2n b < 2 ^ 1 := by cases b <;> decide
  have hnodup : (([(PD_STAT_ORIENT p.val, b2n cc2), (PD_STAT_CAB5A p.val, b2n i.cable5A), (PD_STAT_CABEPR p.val, b2n i.cableEpr), (PD_STAT_CONTR p.val, 1)]
      : List (Fld × Nat)).map fun x => x.1.key).Nodup := by
    obtain ⟨p, hp⟩ := p
    simp only [List.map_cons, List.map_nil]
    interval_cases p <;> decide
  unfold attachRead
  dsimp only
  simp only [State.rd_setCan, State.rd_setPdp]
  exact ⟨rd_wrs_eq hnodup (by simp) (hb _) s, rd_wrs_eq hnodup (by simp) (hb _) s, rd_wrs_eq hnodup (by simp) (show 1 < 2 ^ 3 by decide) s⟩

/-- An attach as source (R446, R447, R450). -/
theorem attachedSource (p : CanPort) (cc2 : Bool) (i : CcInfo) (s : State) (hc : s.rd (PD_STAT_CCST p.val) < 2) (hw : (s.pdp p.val).waitVbus = false)
    (hmay : maySource s p.val = true) : ∃ t, exec (.ccAttach p cc2 true i) s = .next t ∧ t.rd (PD_STAT_CCST p.val) = 2 ∧
      t.rd (PD_STAT_PROLE p.val) = 1 ∧ t.rd (PD_STAT_DROLE p.val) = 1 ∧ t.rd (PD_STAT_CONTR p.val) = 1 ∧
      t.rd (PD_STAT_ORIENT p.val) = b2n cc2 ∧ t.rd (PD_STAT_CAB5A p.val) = b2n i.cable5A ∧ t.rd (PD_STAT_VCONN p.val) = b2n i.vconnNeeded ∧
      t.rd (PD_CV_CVEN p.val) = 1 ∧ leafSet t 18 0 ∧ (i.pd = true → ∃ l, Out.pd p.val "Source_Capabilities" l ∈ t.sent) := by
  have hexec := exec_ccAttach cc2 true i hc hw hmay
  simp only [if_true] at hexec
  obtain ⟨horient, hcab, hcontr⟩ := rd_attachRead p cc2 i s
  generalize attachRead p.val cc2 i s = w at *
  have hsrc := onlyKeys_attachSource p i w
  have hbeff := onlyKeys_withBeff_far (attachSource p.val i) w
  obtain ⟨haround, hleaf⟩ := onlyKeys_attachAround p.val (withBeff (attachSource p.val i) w)
  have hfield {f : Fld} (hf : f ∈ pdFields p.val) (ht : f.key ≠ (PD_VBUS_TARGET p.val).key) :
      (attachAround p.val (withBeff (attachSource p.val i) w)).rd f = (w.wrs (sourceShows p.val i)).rd f := by
    have hfar := (pdFields_near p f hf).1
    rw [haround.1 f hfar, hbeff.1 f hfar, hsrc.1 f (by simp [hfar, ht])]
  have hb : b2n i.vconnNeeded < 2 ^ 1 := by cases i.vconnNeeded <;> decide
  have hn := nodup_sourceShows p i
  have ht := target_apart p
  have hread := read_apart p
  have hfirst {f : Fld} (hf : f ∈ [PD_STAT_ORIENT p.val, PD_STAT_CAB5A p.val, PD_STAT_CONTR p.val]) : (w.wrs (sourceShows p.val i)).rd f = w.rd f := by
    refine State.rd_wrs_ne _ _ _ fun e he => ?_
    refine hread f hf e.1 ?_
    simp only [sourceShows, List.mem_cons, List.not_mem_nil, or_false] at he
    rcases he with rfl | rfl | rfl | rfl | rfl | rfl | rfl <;> simp
  refine ⟨_, hexec, ?_, ?_, ?_, ?_, ?_, ?_, ?_, ?_, hleaf, fun hi => ?_⟩
  · exact (hfield (by simp [pdFields]) (ht _ (by simp))).trans (rd_wrs_eq hn (by simp [sourceShows]) (show 2 < 2 ^ 3 by decide) w)
  · exact (hfield (by simp [pdFields]) (ht _ (by simp))).trans (rd_wrs_eq hn (by simp [sourceShows]) (show 1 < 2 ^ 1 by decide) w)
  · exact (hfield (by simp [pdFields]) (ht _ (by simp))).trans (rd_wrs_eq hn (by simp [sourceShows]) (show 1 < 2 ^ 1 by decide) w)
  · exact (hfield (by simp [pdFields]) (hread _ (by simp) _ (by simp))).trans ((hfirst (by simp)).trans hcontr)
  · exact (hfield (by simp [pdFields]) (hread _ (by simp) _ (by simp))).trans ((hfirst (by simp)).trans horient)
  · exact (hfield (by simp [pdFields]) (hread _ (by simp) _ (by simp))).trans ((hfirst (by simp)).trans hcab)
  · exact (hfield (by simp [pdFields]) (ht _ (by simp))).trans (rd_wrs_eq hn (by simp [sourceShows]) hb w)
  · exact (hfield (by simp [pdFields]) (ht _ (by simp))).trans (rd_wrs_eq hn (by simp [sourceShows]) (show 1 < 2 ^ 1 by decide) w)
  · obtain ⟨l, hl⟩ := sent_attachSource (p := p.val) w hi
    exact ⟨l, sentGrows_attachAround _ _ _ ((sent_withBeff _ _).symm ▸ hl)⟩

/-- An attach as sink (R446, R464). -/
theorem attachedSink (p : CanPort) (cc2 : Bool) (i : CcInfo) (s : State) (hc : s.rd (PD_STAT_CCST p.val) < 2) (hw : (s.pdp p.val).waitVbus = false)
    (hmay : maySink s p.val = true) : ∃ t, exec (.ccAttach p cc2 false i) s = .next t ∧ t.rd (PD_STAT_CCST p.val) = 3 ∧
      t.rd (PD_STAT_PROLE p.val) = 0 ∧ t.rd (PD_STAT_DROLE p.val) = 0 ∧ t.rd (PD_STAT_CONTR p.val) = 1 ∧
      t.rd (PD_STAT_RPLVL p.val) = min 3 i.rp ∧ leafSet t 18 0 := by
  have hexec := exec_ccAttach cc2 false i hc hw hmay
  simp only [Bool.false_eq_true, if_false] at hexec
  obtain ⟨-, -, hcontr⟩ := rd_attachRead p cc2 i s
  generalize attachRead p.val cc2 i s = w at *
  have hsink := onlyKeys_attachSink p i w
  have hbeff := onlyKeys_withBeff_far (attachSink p.val i) w
  obtain ⟨haround, hleaf⟩ := onlyKeys_attachAround p.val (withBeff (attachSink p.val i) w)
  have hfield {f : Fld} (hf : f ∈ pdFields p.val) : (attachAround p.val (withBeff (attachSink p.val i) w)).rd f = (w.wrs (sinkShows p.val i)).rd f := by
    have hfar := (pdFields_near p f hf).1
    rw [haround.1 f hfar, hbeff.1 f hfar, hsink.1 f hfar]
  have hn := nodup_sinkShows p i
  have hread := read_apart p
  refine ⟨_, hexec, ?_, ?_, ?_, ?_, ?_, hleaf⟩
  · exact (hfield (by simp [pdFields])).trans (rd_wrs_eq hn (by simp [sinkShows]) (show 3 < 2 ^ 3 by decide) w)
  · exact (hfield (by simp [pdFields])).trans (rd_wrs_eq hn (by simp [sinkShows]) (show 0 < 2 ^ 1 by decide) w)
  · exact (hfield (by simp [pdFields])).trans (rd_wrs_eq hn (by simp [sinkShows]) (show 0 < 2 ^ 1 by decide) w)
  · refine (hfield (by simp [pdFields])).trans ((State.rd_wrs_ne _ _ _ fun e he => ?_).trans hcontr)
    refine hread _ (by simp) e.1 ?_
    simp only [sinkShows, List.mem_cons, List.not_mem_nil, or_false] at he
    rcases he with rfl | rfl | rfl | rfl | rfl <;> simp
  · exact (hfield (by simp [pdFields])).trans (rd_wrs_eq hn (by simp [sinkShows]) (show min 3 i.rp < 2 ^ 2 by omega) w)

/-- A detached port as the steward leaves it. -/
theorem detached_effects (p : CanPort) (s : State) : (withBeff (detachCore p.val) s).rd (PD_STAT_CCST p.val) = 0 ∧
    (withBeff (detachCore p.val) s).rd (PD_STAT_CONTR p.val) = 0 ∧ (withBeff (detachCore p.val) s).rd (PD_RDO_RDO p.val) = 0 ∧
    (withBeff (detachCore p.val) s).rd (PD_CV_CVEN p.val) = 0 ∧ (withBeff (detachCore p.val) s).rd (PD_STAT_VCONN p.val) = 0 ∧
    (withBeff (detachCore p.val) s).pdp p.val = detachedPort s p.val ∧ leafSet (withBeff (detachCore p.val) s) 18 1 := by
  obtain ⟨hclear, hcontr, hrdo, -, -, hpdp, -⟩ := detachHere_effects p s
  have hbeff := onlyKeys_withBeff_far (detachCore p.val) s
  have hfield {f : Fld} (hf : f ∈ pdFields p.val) : (withBeff (detachCore p.val) s).rd f = (detachHere p.val s).rd f :=
    (hbeff.1 f (pdFields_near p f hf).1).trans (rd_detachCore hf s)
  refine ⟨?_, ?_, ?_, ?_, ?_, ?_, hbeff.2 _ _ (leafSet_detachCore p s)⟩
  · exact (hfield (by simp [pdFields])).trans (hclear (PD_STAT_CCST p.val, 0) (by simp [detachClears]) (show 0 < 2 ^ 3 by decide))
  · exact (hfield (by simp [pdFields])).trans hcontr
  · exact (hfield (by simp [pdFields])).trans hrdo
  · exact (hfield (by simp [pdFields])).trans (hclear (PD_CV_CVEN p.val, 0) (by simp [detachClears]) (show 0 < 2 ^ 1 by decide))
  · exact (hfield (by simp [pdFields])).trans (hclear (PD_STAT_VCONN p.val, 0) (by simp [detachClears]) (show 0 < 2 ^ 1 by decide))
  · rw [pdp_withBeff, pdp_detachCore, hpdp]

theorem vbusLost (p : CanPort) (s : State) (hs : asSink s p.val = true) (ho : (s.pdp p.val).own ≠ 2) :
    (crownActive s ≠ some p.val ∨ anyFeed s = true ∨ asSink s (1 - p.val) = true → ∃ t, exec (.vbusLoss p) s = .next t ∧ t.rd (PD_STAT_CCST p.val) = 0 ∧
      t.rd (PD_STAT_CONTR p.val) = 0 ∧ (t.pdp p.val).waitVbus = false ∧ leafSet t 18 1) ∧
    (crownActive s = some p.val → anyFeed s = false → asSink s (1 - p.val) = false → ∃ t, exec (.vbusLoss p) s = .next t ∧
      t.rd RST_CAUSE_POR = 1 ∧ ResetSrc.por ∈ t.bt.srcs ∧ t.bt.released = 0) := by
  refine ⟨fun h => ?_, fun hc hf ho' => ?_⟩
  · have hnot : ¬ (crownActive s = some p.val ∧ (!anyFeed s) = true ∧ (!asSink s (1 - p.val)) = true) := by
      rintro ⟨hc, hf, hn⟩
      rcases h with h | h | h
      · exact h hc
      · simp [h] at hf
      · simp [h] at hn
    have hexec : exec (.vbusLoss p) s = .next (withBeff (detachCore p.val) s) := by
      simp only [exec, execVbusLoss, hs, ho, Bool.not_true, Bool.false_eq_true, or_self, if_false]
      exact if_neg hnot
    obtain ⟨hccst, hcontr, -, -, -, hpdp, hleaf⟩ := detached_effects p s
    have hsrc : asSource s p.val = false := by
      simp only [asSink, asSource, decide_eq_true_eq, decide_eq_false_iff_not] at hs ⊢
      omega
    exact ⟨_, hexec, hccst, hcontr, by rw [hpdp]; exact hsrc, hleaf⟩
  · have hexec : exec (.vbusLoss p) s = .next (powerOnReset s) := by
      simp [exec, execVbusLoss, hs, ho, hc, hf, ho']
    refine ⟨_, hexec, rfl, ?_, rfl⟩
    unfold powerOnReset
    dsimp only
    split
    · next h => simpa using h
    · simp

theorem terminationChanges (p : CanPort) (b : Bool) (s : State) :
    (s.rd (PD_STAT_CCST p.val) < 2 → (s.pdp p.val).waitVbus = false → ∃ t, exec (.ccTerminationChange p b) s = .next t ∧
      t.rd (PD_STAT_CCST p.val) = b2n b ∧ onlyWrites [PD_STAT_CCST p.val] [] s t) ∧
    (s.rd (PD_STAT_CCST p.val) = 2 → ∃ t, exec (.ccTerminationChange p b) s = .next t ∧ (t.pdp p.val).holding = !b ∧
      t.rd (PD_STAT_CONTR p.val) = s.rd (PD_STAT_CONTR p.val) ∧
      (b = false → s.on (PD_CV_CVEN p.val) = true → t.rd (PD_CV_STATE p.val) = 1) ∧ onlyWrites [PD_CV_STATE p.val] [.pd] s t) ∧
    (3 ≤ s.rd (PD_STAT_CCST p.val) → exec (.ccTerminationChange p b) s = .next s) := by
  refine ⟨fun h hw => ?_, fun h => ?_, fun h => ?_⟩
  · have hexec : exec (.ccTerminationChange p b) s = .next (s.wr (PD_STAT_CCST p.val) (b2n b)) := by
      simp [exec, execCcTerminationChange, h, hw]
    exact ⟨_, hexec, rd_wr_of_lt _ _ _ (show b2n b < 2 ^ 3 by cases b <;> decide), onlyWrites_wr _ _ s⟩
  · have hheld := State.pdp_setPdp_same s p.val { s.pdp p.val with holding := !b }
    have hset := onlyWrites_setPdp [PD_CV_STATE p.val] s p.val { s.pdp p.val with holding := !b }
    by_cases hb : b = false ∧ s.on (PD_CV_CVEN p.val) = true
    · have hexec : exec (.ccTerminationChange p b) s = .next ((s.setPdp p.val { s.pdp p.val with holding := !b }).wr (PD_CV_STATE p.val) 1) := by
        obtain ⟨rfl, hon⟩ := hb
        simp [exec, execCcTerminationChange, h, State.on, ← hon]
      refine ⟨_, hexec, ?_, ?_, fun _ _ => rd_wr_of_lt _ _ _ (show 1 < 2 ^ 3 by decide), hset.trans ((onlyWrites_wr _ _ _).mono (List.Subset.refl _) (by simp))⟩
      · rw [State.pdp_wr, hheld]
      · rw [State.rd_wr_ne _ _ _ _ (cvState_apart p _ (by simp)), State.rd_setPdp]
    · have hexec : exec (.ccTerminationChange p b) s = .next (s.setPdp p.val { s.pdp p.val with holding := !b }) := by
        simp only [exec, execCcTerminationChange, h, Nat.lt_irrefl, if_true, if_false]
        refine congrArg _ (if_neg fun hc => hb ⟨by simpa using hc.1, hc.2⟩)
      exact ⟨_, hexec, by rw [hheld], rfl, fun hf hon => absurd ⟨hf, hon⟩ hb, hset⟩
  · simp [exec, execCcTerminationChange, show ¬ s.rd (PD_STAT_CCST p.val) < 2 by omega, show s.rd (PD_STAT_CCST p.val) ≠ 2 by omega]

/-- Settles O36. -/
theorem portsAttachAndDetach : Obligations.PortsAttachAndDetach := by
  refine ⟨fun p cc2 i s hc hw => ⟨attachedSource p cc2 i s hc hw, attachedSink p cc2 i s hc hw⟩, fun p cc2 i s => ⟨fun h => ?_, fun h => ?_⟩, fun p cc2 b i s h => ?_,
    fun p s h => ?_, fun p s h => ?_, vbusLost, fun p s h => ?_, terminationChanges, fun p s => ?_, fun p s h => ?_, fun p s h => ?_, fun p s hmay hc hf hw => ?_⟩
  · simp [exec, execCcAttach, h]
  · simp [exec, execCcAttach, h]
  · simp only [exec, execCcAttach]
    rw [if_pos (h.imp_right .inl)]
  · have hexec : exec (.ccDetach p) s = .next (withBeff (detachCore p.val) s) := by simp [exec, execCcDetach, h]
    obtain ⟨hccst, hcontr, hrdo, hcv, hvc, hpdp, hleaf⟩ := detached_effects p s
    exact ⟨_, hexec, hccst, hcontr, hrdo, hcv, hvc, by rw [hpdp]; exact h, by rw [hpdp]; exact h, hleaf, partsOnly_of_exec hexec (by simp [touches])⟩
  · simp [exec, execCcDetach, h]
  · rcases h with h | h <;> simp [exec, execVbusLoss, h]
  · have hexec : exec (.vbusDischarged p) s = .next (s.setPdp p.val { s.pdp p.val with discharge := false, waitVbus := false }) := rfl
    exact ⟨_, hexec, by rw [State.pdp_setPdp_same], by rw [State.pdp_setPdp_same], fun q hq => State.pdp_setPdp_ne _ _ _ _ hq,
      partsOnly_of_exec hexec (by simp [touches])⟩
  · have hexec : exec (.errorRecoveryEnd p) s = .next (s.wr (PD_STAT_CCST p.val) 0) := by simp [exec, execErrorRecoveryEnd, h]
    exact ⟨_, hexec, rd_wr_of_lt _ _ _ (show 0 < 2 ^ 3 by decide), onlyWrites_wr _ _ s⟩
  · simp [exec, execErrorRecoveryEnd, h]
  · have hexec : exec (.drpToggle p) s = .next (s.wr (PD_STAT_RPLVL p.val) (if s.rd (PD_STAT_RPLVL p.val) = 3 then 2 else 3)) := by
      simp [exec, execDrpToggle, hmay, hc, hf, hw]
    exact ⟨_, hexec, rd_wr_of_lt _ _ _ (show (if s.rd (PD_STAT_RPLVL p.val) = 3 then 2 else 3) < 2 ^ 2 by split <;> decide), onlyWrites_wr _ _ s⟩

end Sys2Proof.Machine
end

section
set_option Elab.async false
/-! Role swaps, VCONN and modes of the Type-C ports. -/

namespace Sys2Proof.Machine

open Sys2Proof Sys2Proof.Laws

/-! ### Swaps (R444, R448, R452, R458) -/

theorem attached_of_source {s : State} {p : Nat} (h : asSource s p = true) : attached s p = true := by simp [attached, h]
theorem attached_of_sink {s : State} {p : Nat} (h : asSink s p = true) : attached s p = true := by simp [attached, h]

theorem not_sink_of_source {s : State} {p : Nat} (h : asSource s p = true) : asSink s p = false := by
  simp only [asSource, asSink, decide_eq_true_eq, decide_eq_false_iff_not] at h ⊢
  omega

theorem not_source_of_sink {s : State} {p : Nat} (h : asSink s p = true) : asSource s p = false := by
  simp only [asSource, asSink, decide_eq_true_eq, decide_eq_false_iff_not] at h ⊢
  omega

theorem sentGrows.wr {s t : State} (h : sentGrows s t) (f : Fld) (v : Nat) : sentGrows s (t.wr f v) := h

theorem sentGrows.wrs {s t : State} (h : sentGrows s t) (l : List (Fld × Nat)) : sentGrows s (t.wrs l) := h.trans (.of_eq (wrs_frame (k := 4) rfl (.refl 4 t)))

/-- The data role turns (R448). -/
theorem swapData_effects (p : CanPort) (s : State) : (swapData p.val s).rd (PD_STAT_DROLE p.val) = 1 - s.rd (PD_STAT_DROLE p.val) ∧
    sentGrows s (swapData p.val s) ∧ ∀ q, (swapData p.val s).pdp q = s.pdp q := by
  have hlt : 1 - s.rd (PD_STAT_DROLE p.val) < 2 ^ 1 := by omega
  have hnear := (pdFields_near p (PD_STAT_DROLE p.val) (by simp [pdFields])).1
  have hpd (u : State) : (updateTree u).pd = u.pd := updateTree_frame (κ := 24) rfl (.refl 24 u)
  unfold swapData
  dsimp only
  split
  · exact ⟨((onlyKeys_updateTree_far _).1 _ hnear).trans (rd_wr_of_lt _ _ _ hlt), .trans (.wr (.refl s) _ _) (sentGrows_updateTree _),
      fun q => by rw [State.pdp, hpd, ← State.pdp, State.pdp_wr]⟩
  · exact ⟨rd_wr_of_lt _ _ _ hlt, .of_eq rfl, fun q => rfl⟩

theorem endOwn_effects (p : CanPort) (s : State) : (endOwn p.val s).pdp p.val = { (s.pdp p.val) with own := 0 } ∧
    onlyWrites [PD_STAT_RPLVL p.val] [.pd] s (endOwn p.val s) := by
  have hset := onlyWrites_setPdp [PD_STAT_RPLVL p.val] s p.val { s.pdp p.val with own := 0 }
  have hpdp := State.pdp_setPdp_same s p.val { s.pdp p.val with own := 0 }
  unfold endOwn sinkTx
  split
  · exact ⟨by rw [State.pdp_wr, hpdp], hset.trans ((onlyWrites_wr _ _ _).mono (List.Subset.refl _) (by simp))⟩
  · exact ⟨hpdp, hset⟩

theorem rplvl_apart (p : CanPort) : ∀ f ∈ [PD_STAT_DROLE p.val, PD_STAT_CCST p.val], f.key ≠ (PD_STAT_RPLVL p.val).key := by
  revert p
  decide

theorem rd_endOwn {p : CanPort} {f : Fld} (hf : f ∈ [PD_STAT_DROLE p.val, PD_STAT_CCST p.val]) (s : State) : (endOwn p.val s).rd f = s.rd f :=
  (endOwn_effects p s).2.1 f (by simpa using rplvl_apart p f hf)

theorem exec_drSwap_partner {p : CanPort} {s : State} (b : Bool) (ha : attached s p.val = true) (ho : (s.pdp p.val).own = 0) :
    exec (.drSwap p true b) s = .next (if p.val < 2 ∧ s.rd (PD_STAT_DROLE p.val) ≠ b2n (isDown s p.val) then swapData p.val (s.emit (.pd p.val "Accept" []))
      else s.emit (.pd p.val "Reject" [])) := by
  simp only [exec, execDrSwap, ha, onCollision, ho, Bool.not_true, Bool.false_eq_true, if_true, if_false]

theorem exec_drSwap_own {p : CanPort} {s : State} (b : Bool) (ha : attached s p.val = true) (ho : (s.pdp p.val).own = 1) :
    exec (.drSwap p false b) s = .next (if b then swapData p.val (endOwn p.val s) else endOwn p.val s) := by
  simp [exec, execDrSwap, ha, ho]

theorem exec_prSwap_own {p : CanPort} {s : State} (ha : attached s p.val = true) (ho : (s.pdp p.val).own = 2) :
    exec (.prSwap p false true) s = .next (withBeff (swapPower p.val) (endOwn p.val s)) := by
  simp [exec, execPrSwap, ha, ho]

theorem exec_prSwap_partner {p : CanPort} {s : State} (b : Bool) (ha : attached s p.val = true) (ho : (s.pdp p.val).own = 0) (hpol : policyAbsent s = false) :
    exec (.prSwap p true b) s = .next (if maySink s p.val ∧ (asSource s p.val ∨ anyFeed s) then withBeff (swapPower p.val) (s.emit (.pd p.val "Accept" []))
      else s.emit (.pd p.val "Reject" [])) := by
  simp only [exec, execPrSwap, ha, onCollision, ho, hpol, Bool.not_true, Bool.false_eq_true, if_true, if_false]

/-- The path has been opened and the contract starts afresh (R444). -/
def powerTurned (p : Nat) (s : State) : State :=
  let t := openChannel (p + 2) (pdDiscard p s)
  let t := if crownActive s = some p then supplyLost 5 t else t
  setTarget p 250 (t.wrs [(PD_STAT_CONTR p, 1), (PD_STAT_RPLVL p, 2), (PST_LEASE_MW (p + 2), 0)])

/-- What the port shows as a source again, and as a sink again. -/
def turnedSource (p : Nat) : List (Fld × Nat) := [(PD_STAT_CCST p, 2), (PD_STAT_PROLE p, 1), (PD_CV_CVEN p, 1), (PD_CV_STATE p, 1)]
def turnedSink (p : Nat) : List (Fld × Nat) := [(PD_STAT_CCST p, 3), (PD_STAT_PROLE p, 0), (PD_CV_CVEN p, 0), (PD_CV_STATE p, 0), (PD_CV_ADJ p, 0)]

theorem swapPower_eq (p : Nat) (s : State) : swapPower p s = if asSink s p then
    sourceCaps p (attachLease p (closeChannel (p + 2) false false ((powerTurned p s).wrs (turnedSource p)))) else updateExt ((powerTurned p s).wrs (turnedSink p)) := rfl

theorem sentGrows_openChannel (n : Nat) (s : State) : sentGrows s (openChannel n s) := .ite (.emit (.of_eq (wrs_frame (k := 4) rfl (.refl 4 s))) _) (.refl s)

theorem sentGrows_closeChannel (n : Nat) (a b : Bool) (s : State) : sentGrows s (closeChannel n a b s) :=
  .ite (.refl s) (.emit (.of_eq (wrs_frame (k := 4) rfl (.refl 4 s))) _)

theorem powerTurned_effects (p : CanPort) (s : State) : ((powerTurned p.val s).pdp p.val).own = 0 ∧ sentGrows s (powerTurned p.val s) := by
  have hown : ((pdDiscard p.val s).pdp p.val).own = 0 := by rw [(pdDiscard_effects p s).2.2.2.1]
  have hopen : (openChannel (p.val + 2) (pdDiscard p.val s)).pd = (pdDiscard p.val s).pd := openChannel_frame (κ := 24) rfl (.refl 24 _)
  have hsent : sentGrows s (openChannel (p.val + 2) (pdDiscard p.val s)) :=
    .trans (.of_eq (pdDiscard_frame (κ := 4) rfl (.refl 4 s))) (sentGrows_openChannel _ _)
  have hlost (u : State) : (if crownActive s = some p.val then supplyLost 5 u else u).pd = u.pd ∧ (if crownActive s = some p.val then supplyLost 5 u else u).sent = u.sent := by
    split <;> exact ⟨rfl, rfl⟩
  unfold powerTurned
  dsimp only
  generalize openChannel (p.val + 2) (pdDiscard p.val s) = w at *
  obtain ⟨hlpd, hlsent⟩ := hlost w
  generalize (if crownActive s = some p.val then supplyLost 5 w else w) = x at *
  refine ⟨?_, hsent.trans (.trans (.of_eq hlsent) (.of_eq (setTarget_frame (κ := 4) rfl (wrs_frame rfl (.refl 4 x)))))⟩
  rw [(setTarget_effects p (show 250 < 2 ^ 12 by decide) _).2.2.1, State.pdp_wrs, State.pdp, hlpd, hopen]
  exact hown

theorem nodup_turned (p : CanPort) : ((turnedSource p.val).map fun x => x.1.key).Nodup ∧ ((turnedSink p.val).map fun x => x.1.key).Nodup := by
  revert p
  decide

theorem sent_updateExt (s : State) : (updateExt s).sent = s.sent := updateExt_frame (κ := 4) rfl (.refl 4 s)

theorem sent_attachLease (p : Nat) (s : State) : (attachLease p s).sent = s.sent := attachLease_frame (κ := 4) rfl (.refl 4 s)

/-- A sink becomes source (R444). -/
theorem sinkTurns (p : CanPort) {s : State} (hs : asSink s p.val = true) : (swapPower p.val s).rd (PD_STAT_CCST p.val) = 2 ∧
    (swapPower p.val s).rd (PD_STAT_PROLE p.val) = 1 ∧ (swapPower p.val s).rd (PD_CV_CVEN p.val) = 1 ∧ ((swapPower p.val s).pdp p.val).own = 0 ∧
    sentGrows s (swapPower p.val s) := by
  obtain ⟨hown, hsent⟩ := powerTurned_effects p s
  have hn := (nodup_turned p).1
  rw [swapPower_eq, if_pos hs]
  generalize powerTurned p.val s = w at *
  have hfar : onlyKeys pdFar (w.wrs (turnedSource p.val)) (sourceCaps p.val (attachLease p.val (closeChannel (p.val + 2) false false (w.wrs (turnedSource p.val))))) :=
    .trans ((onlyKeys_closeChannel _ _ _ _).trans (onlyKeys_attachLease p.isLt _)) (onlyKeys_sourceCaps _ _)
  have hpd : (attachLease p.val (closeChannel (p.val + 2) false false (w.wrs (turnedSource p.val)))).pd = w.pd :=
    attachLease_frame (κ := 24) rfl (closeChannel_frame rfl (wrs_frame rfl (.refl 24 w)))
  have hgrow : sentGrows s (attachLease p.val (closeChannel (p.val + 2) false false (w.wrs (turnedSource p.val)))) :=
    ((hsent.wrs _).trans (sentGrows_closeChannel _ _ _ _)).trans (.of_eq (sent_attachLease _ _))
  generalize attachLease p.val (closeChannel (p.val + 2) false false (w.wrs (turnedSource p.val))) = x at *
  have hfield {f : Fld} {v : Nat} (hf : f ∈ pdFields p.val) (he : (f, v) ∈ turnedSource p.val) (hv : v < 2 ^ f.w) : (sourceCaps p.val x).rd f = v :=
    (hfar.1 f (pdFields_near p f hf).1).trans (rd_wrs_eq hn he hv w)
  refine ⟨hfield (by simp [pdFields]) (by simp [turnedSource]) (by simp [PD_STAT_CCST, fld]), hfield (by simp [pdFields]) (by simp [turnedSource]) (by simp [PD_STAT_PROLE, fld]),
    hfield (by simp [pdFields]) (by simp [turnedSource]) (by simp [PD_CV_CVEN, fld]), ?_, ?_⟩
  · unfold sourceCaps
    simp only [State.pdp_emit, State.pdp_setPdp_same]
    rw [State.pdp, hpd]
    exact hown
  · unfold sourceCaps
    exact .emit (.trans hgrow (.of_eq rfl)) _

/-- A source becomes sink (R444). -/
theorem sourceTurns (p : CanPort) {s : State} (hs : asSource s p.val = true) : (swapPower p.val s).rd (PD_STAT_CCST p.val) = 3 ∧
    (swapPower p.val s).rd (PD_STAT_PROLE p.val) = 0 ∧ (swapPower p.val s).rd (PD_CV_CVEN p.val) = 0 ∧ ((swapPower p.val s).pdp p.val).own = 0 ∧
    sentGrows s (swapPower p.val s) := by
  obtain ⟨hown, hsent⟩ := powerTurned_effects p s
  have hn := (nodup_turned p).2
  rw [swapPower_eq, not_sink_of_source hs, if_neg Bool.false_ne_true]
  generalize powerTurned p.val s = w at *
  have hfield {f : Fld} {v : Nat} (hf : f ∈ pdFields p.val) (he : (f, v) ∈ turnedSink p.val) (hv : v < 2 ^ f.w) : (updateExt (w.wrs (turnedSink p.val))).rd f = v :=
    ((onlyKeys_updateExt _).far_steward.1 f (pdFields_near p f hf).1).trans (rd_wrs_eq hn he hv w)
  have hpd : (updateExt (w.wrs (turnedSink p.val))).pd = w.pd := updateExt_frame (κ := 24) rfl (wrs_frame rfl (.refl 24 w))
  refine ⟨hfield (by simp [pdFields]) (by simp [turnedSink]) (by simp [PD_STAT_CCST, fld]), hfield (by simp [pdFields]) (by simp [turnedSink]) (by simp [PD_STAT_PROLE, fld]),
    hfield (by simp [pdFields]) (by simp [turnedSink]) (by simp [PD_CV_CVEN, fld]), ?_, (hsent.wrs _).trans (.of_eq (sent_updateExt _))⟩
  rw [State.pdp, hpd]
  exact hown

/-- What a swap settles stands as the steward looks at the budget (R481). -/
theorem swapped_effects (p : CanPort) (s : State) : (∀ f ∈ pdFields p.val, (withBeff (swapPower p.val) s).rd f = (swapPower p.val s).rd f) ∧
    (withBeff (swapPower p.val) s).pdp p.val = (swapPower p.val s).pdp p.val ∧ (withBeff (swapPower p.val) s).sent = (swapPower p.val s).sent :=
  ⟨fun f hf => (onlyKeys_withBeff_far (swapPower p.val) s).1 f (pdFields_near p f hf).1, pdp_withBeff _ _ _, sent_withBeff _ _⟩

theorem partsOnly_emit (o : Out) (s : State) : partsOnly [.sent] s (s.emit o) := by
  intro q hq
  cases q
  case sent => simp at hq
  all_goals rfl

theorem drSwapAnswered (p : CanPort) (b : Bool) (s : State) (ha : attached s p.val = true) (ho : (s.pdp p.val).own = 0) :
    (p.val < 2 → s.rd (PD_STAT_DROLE p.val) ≠ b2n (isDown s p.val) → ∃ t, exec (.drSwap p true b) s = .next t ∧
      t.rd (PD_STAT_DROLE p.val) = 1 - s.rd (PD_STAT_DROLE p.val) ∧ Out.pd p.val "Accept" [] ∈ t.sent) ∧
    (2 ≤ p.val ∨ s.rd (PD_STAT_DROLE p.val) = b2n (isDown s p.val) → ∃ t, exec (.drSwap p true b) s = .next t ∧
      t.sent = .pd p.val "Reject" [] :: s.sent ∧ partsOnly [.sent] s t) ∧
    exec (.drSwap p false b) s = .next s := by
  have hexec := exec_drSwap_partner b ha ho
  refine ⟨fun hp hr => ?_, fun h => ?_, ?_⟩
  · rw [if_pos ⟨hp, hr⟩] at hexec
    obtain ⟨hrole, hsent, -⟩ := swapData_effects p (s.emit (.pd p.val "Accept" []))
    exact ⟨_, hexec, hrole, hsent _ List.mem_cons_self⟩
  · rw [if_neg fun hc => h.elim (fun h2 => by omega) fun h2 => hc.2 h2] at hexec
    exact ⟨_, hexec, rfl, partsOnly_emit _ s⟩
  · simp [exec, execDrSwap, ha, ho]

theorem drSwapOwn (p : CanPort) (s : State) (ha : attached s p.val = true) (ho : (s.pdp p.val).own = 1) :
    (∃ t, exec (.drSwap p false true) s = .next t ∧ t.rd (PD_STAT_DROLE p.val) = 1 - s.rd (PD_STAT_DROLE p.val) ∧ (t.pdp p.val).own = 0) ∧
    (∃ t, exec (.drSwap p false false) s = .next t ∧ (t.pdp p.val).own = 0 ∧ onlyWrites [PD_STAT_RPLVL p.val] [.pd] s t) := by
  have hexec (b : Bool) := exec_drSwap_own b ha ho
  obtain ⟨hpdp, hwrites⟩ := endOwn_effects p s
  obtain ⟨hrole, -, hsame⟩ := swapData_effects p (endOwn p.val s)
  exact ⟨⟨_, hexec true, hrole.trans (by rw [rd_endOwn (by simp)]), by rw [if_pos rfl, hsame, hpdp]⟩, ⟨_, hexec false, by rw [if_neg Bool.false_ne_true, hpdp], hwrites⟩⟩

theorem requestsCross (p : CanPort) (b : Bool) (s : State) (hs : asSource s p.val = true) (ho : (s.pdp p.val).own ≠ 0) :
    ∃ t, exec (.drSwap p true b) s = .next t ∧ exec (.prSwap p true b) s = .next t ∧ t.sent = .pd p.val "Wait" [] :: s.sent ∧ leafSet t 18 6 ∧
      onlyWrites [PD_CNT_COLL p.val, EVSTAT 18] [.sent, .mg] s t := by
  have ha := attached_of_source hs
  have hdr : exec (.drSwap p true b) s = .next (crossed p.val s) := by simp [exec, execDrSwap, ha, onCollision, ho, hs]
  have hpr : exec (.prSwap p true b) s = .next (crossed p.val s) := by simp [exec, execPrSwap, ha, onCollision, ho, hs]
  have hinc : onlyWrites [PD_CNT_COLL p.val, EVSTAT 18] [.sent, .mg] s ((s.inc (PD_CNT_COLL p.val)).emit (.pd p.val "Wait" [])) :=
    ((onlyWrites_inc _ s).mono (by simp) (by simp)).trans ((onlyWrites_emit _ _ _).mono (List.Subset.refl _) (by simp))
  exact ⟨_, hdr, hpr, raise_frame (κ := 4) rfl (.refl 4 ((s.inc (PD_CNT_COLL p.val)).emit (.pd p.val "Wait" []))), leafSet_raise _ _ _ (by decide),
    hinc.trans ((onlyWrites_raise _ _ _).mono (by simp) (by simp))⟩

theorem prSwapAnswered (p : CanPort) (b : Bool) (s : State) (ha : attached s p.val = true) (ho : (s.pdp p.val).own = 0) (hpol : policyAbsent s = false) :
    (maySink s p.val = true → asSource s p.val = true → ∃ t, exec (.prSwap p true b) s = .next t ∧ t.rd (PD_STAT_CCST p.val) = 3 ∧
      t.rd (PD_STAT_PROLE p.val) = 0 ∧ t.rd (PD_CV_CVEN p.val) = 0 ∧ Out.pd p.val "Accept" [] ∈ t.sent) ∧
    (maySink s p.val = true → asSink s p.val = true → anyFeed s = true → ∃ t, exec (.prSwap p true b) s = .next t ∧
      t.rd (PD_STAT_CCST p.val) = 2 ∧ t.rd (PD_STAT_PROLE p.val) = 1 ∧ t.rd (PD_CV_CVEN p.val) = 1 ∧ Out.pd p.val "Accept" [] ∈ t.sent) ∧
    (maySink s p.val = false ∨ asSink s p.val = true ∧ anyFeed s = false → ∃ t, exec (.prSwap p true b) s = .next t ∧
      t.sent = .pd p.val "Reject" [] :: s.sent ∧ partsOnly [.sent] s t) := by
  have hexec := exec_prSwap_partner b ha ho hpol
  obtain ⟨hfield, -, hsent⟩ := swapped_effects p (s.emit (.pd p.val "Accept" []))
  refine ⟨fun hm hs => ?_, fun hm hs hf => ?_, fun h => ?_⟩
  · rw [if_pos ⟨hm, .inl hs⟩] at hexec
    obtain ⟨hcc, hrole, hcv, -, hgrow⟩ := sourceTurns p (s := s.emit (.pd p.val "Accept" [])) hs
    exact ⟨_, hexec, by rw [hfield _ (by simp [pdFields]), hcc], by rw [hfield _ (by simp [pdFields]), hrole], by rw [hfield _ (by simp [pdFields]), hcv],
      hsent ▸ hgrow _ List.mem_cons_self⟩
  · rw [if_pos ⟨hm, .inr hf⟩] at hexec
    obtain ⟨hcc, hrole, hcv, -, hgrow⟩ := sinkTurns p (s := s.emit (.pd p.val "Accept" [])) hs
    exact ⟨_, hexec, by rw [hfield _ (by simp [pdFields]), hcc], by rw [hfield _ (by simp [pdFields]), hrole], by rw [hfield _ (by simp [pdFields]), hcv],
      hsent ▸ hgrow _ List.mem_cons_self⟩
  · rw [if_neg] at hexec
    · exact ⟨_, hexec, rfl, partsOnly_emit _ s⟩
    · rintro ⟨hm, hor⟩
      rcases h with h | ⟨hs, hf⟩
      · simp [h] at hm
      · simp [not_source_of_sink hs, hf] at hor

theorem asSource_endOwn (p : CanPort) (s : State) : asSource (endOwn p.val s) p.val = asSource s p.val ∧ asSink (endOwn p.val s) p.val = asSink s p.val := by
  rw [asSource, asSink, rd_endOwn (by simp)]
  exact ⟨rfl, rfl⟩

theorem vconnSwaps (p : CanPort) (s : State) (ha : attached s p.val = true) :
    (s.on (PD_STAT_VCONN p.val) = true ∨ asSource s p.val = true → ∃ t, exec (.vconnSwap p) s = .next t ∧
      t.rd (PD_STAT_VCONN p.val) = 1 - s.rd (PD_STAT_VCONN p.val) ∧ t.sent = .pd p.val "Accept" [] :: s.sent ∧
      onlyWrites [PD_STAT_VCONN p.val] [.sent] s t) ∧
    (s.on (PD_STAT_VCONN p.val) = false → asSource s p.val = false → ∃ t, exec (.vconnSwap p) s = .next t ∧
      t.sent = .pd p.val "Reject" [] :: s.sent ∧ partsOnly [.sent] s t) := by
  have hlt : s.rd (PD_STAT_VCONN p.val) < 2 ^ 1 := State.rd_lt s _
  have hread {v : Nat} (hv : v < 2) : ((s.wr (PD_STAT_VCONN p.val) v).emit (.pd p.val "Accept" [])).rd (PD_STAT_VCONN p.val) = v :=
    (State.rd_emit _ _ _).trans (rd_wr_of_lt (PD_STAT_VCONN p.val) v s hv)
  have hwrites (v : Nat) : onlyWrites [PD_STAT_VCONN p.val] [.sent] s ((s.wr (PD_STAT_VCONN p.val) v).emit (.pd p.val "Accept" [])) :=
    ((onlyWrites_wr _ _ s).mono (List.Subset.refl _) (by simp)).trans (onlyWrites_emit _ _ _)
  refine ⟨fun h => ?_, fun h hs => ?_⟩
  · cases hv : s.on (PD_STAT_VCONN p.val) with
    | true =>
      have hexec : exec (.vconnSwap p) s = .next ((s.wr (PD_STAT_VCONN p.val) 0).emit (.pd p.val "Accept" [])) := by simp [exec, execVconnSwap, ha, hv]
      have hone : s.rd (PD_STAT_VCONN p.val) ≠ 0 := by simpa [State.on] using hv
      exact ⟨_, hexec, (hread (by decide)).trans (by omega), rfl, hwrites 0⟩
    | false =>
      have hs : asSource s p.val = true := by simpa [hv] using h
      have hexec : exec (.vconnSwap p) s = .next ((s.wr (PD_STAT_VCONN p.val) 1).emit (.pd p.val "Accept" [])) := by simp [exec, execVconnSwap, ha, hv, hs]
      have hzero : s.rd (PD_STAT_VCONN p.val) = 0 := by simpa [State.on] using hv
      exact ⟨_, hexec, (hread (by decide)).trans (by omega), rfl, hwrites 1⟩
  · exact ⟨_, by simp only [exec, execVconnSwap, ha, h, hs, Bool.not_true, Bool.false_eq_true, if_false], rfl, partsOnly_emit _ s⟩

theorem canopyAnnounced (p : CanPort) (v : BitVec 16) (s : State) :
    (announces s p.val = true → (∃ t, exec (.discoverSvids p) s = .next t ∧ t.sent = .pd p.val "SVIDs" [0x4F5A] :: s.sent ∧
      partsOnly [.sent] s t) ∧
      ((s.can p.val).failed = false → s.on KEY_VAULT_HALT = false → ∃ t, exec (.discoverModes p 0x4F5A) s = .next t ∧
        t.sent = .pd p.val "Modes" [1] :: s.sent ∧ partsOnly [.sent] s t)) ∧
    (announces s p.val = false → ∃ t, exec (.discoverSvids p) s = .next t ∧ t.sent = .pd p.val "NAK" [] :: s.sent ∧
      exec (.discoverModes p v) s = .next t ∧ partsOnly [.sent] s t) := by
  refine ⟨fun h => ⟨?_, fun hf hh => ?_⟩, fun h => ?_⟩
  · have hexec : exec (.discoverSvids p) s = .next (s.emit (.pd p.val "SVIDs" [0x4F5A])) := by simp [exec, execDiscoverSvids, h]
    exact ⟨_, hexec, rfl, partsOnly_emit _ s⟩
  · have hexec : exec (.discoverModes p 0x4F5A) s = .next (s.emit (.pd p.val "Modes" [1])) := by simp [exec, execDiscoverModes, h, hf, hh]
    exact ⟨_, hexec, rfl, partsOnly_emit _ s⟩
  · have hsvids : exec (.discoverSvids p) s = .next (s.emit (.pd p.val "NAK" [])) := by simp [exec, execDiscoverSvids, h]
    have hmodes : exec (.discoverModes p v) s = .next (s.emit (.pd p.val "NAK" [])) := by simp [exec, execDiscoverModes, h]
    exact ⟨_, hsvids, rfl, hmodes, partsOnly_emit _ s⟩

theorem usb4Entered (p : CanPort) (s : State) (hp : p < 2) (hd : isDown s p.val = false) (hm : bit (portModes s p.val) 1 = true) (ha : attached s p.val = true)
    (h2 : (s.can p.val).entered ≠ 2) (h1 : (s.can p.val).entered = 1 → (s.can p.val).failed = true) :
    ∃ t, exec (.enterUsb p 2) s = .next t ∧ (t.can p.val).entered = 2 ∧ t.rd (ADP_STAT_STATE p.val) = 1 ∧ Out.pd p.val "Accept" [] ∈ t.sent := by
  have hp' : p.val < 2 := hp
  have hexec : exec (.enterUsb p 2) s = .next (startTraining p.val ((s.setCan p.val { s.can p.val with entered := 2 }).emit (.pd p.val "Accept" []))) := by
    have hnot : ¬ ((s.can p.val).entered = 1 ∧ (!(s.can p.val).failed) = true) := fun ⟨he, hf⟩ => by simp [h1 he] at hf
    simp only [exec, execEnterUsb, hp', hd, hm, ha, h2, hnot, decide_true, Bool.not_true, Bool.false_eq_true, false_or, or_false, or_self]
    rfl
  have hentered : (((s.setCan p.val { s.can p.val with entered := 2 }).emit (.pd p.val "Accept" [])).can p.val).entered = 2 := by
    simp only [State.can_emit, State.can_setCan_same]
  have hother : ¬ (p.val < 8 ∧ (((s.setCan p.val { s.can p.val with entered := 2 }).emit (.pd p.val "Accept" [])).can p.val).entered = 1) := by
    rw [hentered]
    exact fun h => absurd h.2 (by decide)
  refine ⟨_, hexec, ?_, rd_startTraining_standard hother, ?_⟩
  · rw [State.can, (startTraining_other hother).1]
    exact hentered
  · rw [sent_startTraining]
    exact List.mem_cons_self

/-- Settles O39. -/
theorem swapsAndModes : Obligations.SwapsAndModes := by
  refine ⟨drSwapAnswered, drSwapOwn, requestsCross, prSwapAnswered, fun p s hs ho => ?_, fun p s hs ho => ?_, vconnSwaps, canopyAnnounced, usb4Entered, fun p m s h => ?_⟩
  · obtain ⟨hcc, hrole, -, hown, -⟩ := sourceTurns p ((asSource_endOwn p s).1.trans hs)
    obtain ⟨hfield, hpdp, -⟩ := swapped_effects p (endOwn p.val s)
    exact ⟨_, exec_prSwap_own (attached_of_source hs) ho, by rw [hfield _ (by simp [pdFields]), hcc], by rw [hfield _ (by simp [pdFields]), hrole], by rw [hpdp, hown]⟩
  · obtain ⟨hcc, hrole, -, hown, -⟩ := sinkTurns p ((asSource_endOwn p s).2.trans hs)
    obtain ⟨hfield, hpdp, -⟩ := swapped_effects p (endOwn p.val s)
    exact ⟨_, exec_prSwap_own (attached_of_sink hs) ho, by rw [hfield _ (by simp [pdFields]), hcc], by rw [hfield _ (by simp [pdFields]), hrole], by rw [hpdp, hown]⟩
  · have hexec : exec (.enterUsb p m) s = .next (s.emit (.pd p.val "Reject" [])) := by
      rcases h with h | h | h
      · simp [exec, execEnterUsb, h]
      · simp [exec, execEnterUsb, Nat.not_lt.2 h]
      · simp [exec, execEnterUsb, h]
    exact ⟨_, hexec, rfl, partsOnly_emit _ s⟩

end Sys2Proof.Machine
end

section
set_option Elab.async false
/-! Leases, the budget's effect and the monitors. -/

namespace Sys2Proof.Machine

open Sys2Proof Sys2Proof.Laws

/-! ### Leases (R477 to R481) -/

/-- What a channel's lease may write: the lease itself, the port's contract and advertisement, its channel and the seed port. -/
def leaseKey (n k : Nat) : Prop := k = (PST_LEASE_MW n).key ∨ k ∈ [(PD_STAT_CONTR (n - 2)).key, (PD_RDO_RDO (n - 2)).key, (PD_STAT_RPLVL (n - 2)).key] ∨
  k = PD_GLOB_SEEDPORT.key ∨ 0x400000 ≤ k

theorem pdFar_seedport : pdFar PD_GLOB_SEEDPORT.key ∧ ¬ leafKey PD_GLOB_SEEDPORT.key := by
  unfold pdFar
  decide

theorem channelUp (n : Nat) : ∀ f ∈ [PC_STAT_STATE n, PC_STAT_PG n, PC_STAT_REV n], 0x400000 ≤ f.key ∧ ¬ leafKey f.key := by
  simp only [List.forall_mem_cons, List.not_mem_nil, false_implies, implies_true, and_true, leafKey, fld, PC_STAT_STATE, PC_STAT_PG, PC_STAT_REV]
  omega

theorem onlyKeys_openChannel_lease (m n : Nat) (s : State) : onlyKeys (leaseKey m) s (openChannel n s) := by
  have h := channelUp n
  refine .ite (.emit (.wrs (.refl _ s) fun e he => ?_)) (.refl _ s)
  simp only [List.mem_cons, List.not_mem_nil, or_false] at he
  rcases he with rfl | rfl | rfl
  all_goals exact ⟨.inr (.inr (.inr (h _ (by simp)).1)), (h _ (by simp)).2⟩

theorem onlyKeys_closeChannel_lease (m n : Nat) (a b : Bool) (s : State) : onlyKeys (leaseKey m) s (closeChannel n a b s) := by
  have h := channelUp n
  refine .ite (.refl _ s) (.emit (.wrs (.refl _ s) fun e he => ?_))
  simp only [List.mem_cons, List.not_mem_nil, or_false] at he
  rcases he with rfl | rfl | rfl
  all_goals exact ⟨.inr (.inr (.inr (h _ (by simp)).1)), (h _ (by simp)).2⟩

theorem leaseKey_pd {n : Nat} (h2 : 2 ≤ n) (h9 : n ≤ 9) : ∀ f ∈ [PST_LEASE_MW n, PD_STAT_CONTR (n - 2), PD_RDO_RDO (n - 2), PD_STAT_RPLVL (n - 2)],
    leaseKey n f.key ∧ ¬ leafKey f.key := by
  have hpd : (PST_LEASE_MW n).key % 32768 ≠ 32640 := by
    simp only [PST_LEASE_MW, fld]
    omega
  have hnear := pdFields_near ⟨n - 2, by omega⟩
  simp only [List.forall_mem_cons, List.not_mem_nil, false_implies, implies_true, and_true]
  exact ⟨⟨.inl rfl, hpd⟩, ⟨.inr (.inl (by simp)), (hnear _ (by simp [pdFields])).2⟩, ⟨.inr (.inl (by simp)), (hnear _ (by simp [pdFields])).2⟩,
    .inr (.inl (by simp)), (hnear _ (by simp [pdFields])).2⟩

theorem onlyKeys_pdDiscard_lease {n : Nat} (h2 : 2 ≤ n) (h9 : n ≤ 9) (s : State) : onlyKeys (leaseKey n) s (pdDiscard (n - 2) s) := by
  have h := leaseKey_pd h2 h9
  have hwrs : onlyKeys (leaseKey n) s (s.wrs [(PD_STAT_CONTR (n - 2), 0), (PD_RDO_RDO (n - 2), 0)]) := by
    refine .wrs (.refl _ s) fun e he => ?_
    simp only [List.mem_cons, List.not_mem_nil, or_false] at he
    rcases he with rfl | rfl
    all_goals exact h _ (by simp)
  unfold pdDiscard releaseSeed
  exact .ite (.wr (.setPdp hwrs) (.inr (.inr (.inl rfl))) pdFar_seedport.2) (.setPdp hwrs)

theorem onlyKeys_setLease {n : Nat} (h2 : 2 ≤ n) (h9 : n ≤ 9) (v : Nat) (s : State) : onlyKeys (leaseKey n) s (setLease n v s) := by
  have h := leaseKey_pd h2 h9
  have hw (x : Nat) : onlyKeys (leaseKey n) s (s.wr (PST_LEASE_MW n) x) := .wr (.refl _ s) (h _ (by simp)).1 (h _ (by simp)).2
  unfold setLease
  dsimp only
  refine .ite (hw 0) (.ite (.setPdp (.refl _ s)) (.ite (.ite (hw v) ?_) (.ite ?_ (.ite (hw v) (.ite (.setPdp ?_) ?_)))))
  · exact .setPdp (.wr ((hw v).trans ((onlyKeys_pdDiscard_lease h2 h9 _).trans (onlyKeys_openChannel_lease _ _ _))) (h _ (by simp)).1 (h _ (by simp)).2)
  · refine .trans (.setPdp (.trans (.wrs (hw v) fun e he => ?_) (onlyKeys_closeChannel_lease _ _ _ _ _))) (onlyKeys_sourceCaps _ _)
    simp only [List.mem_cons, List.not_mem_nil, or_false] at he
    rcases he with rfl | rfl
    all_goals exact h _ (by simp)
  · exact (hw v).trans (onlyKeys_sourceCaps _ _)
  · exact (hw v).trans (onlyKeys_sourceCaps _ _)

/-- What a tree port's lease may write. -/
def treeLeaseKey (k : Nat) : Prop := k = PST_U2LEASE_PORTS.key ∨ 0x480000 ≤ k

theorem treeLeaseKey_of_treeWord {n k : Nat} (h : treeWord n k) : treeLeaseKey k := by
  simp only [treeWord, treeLeaseKey] at h ⊢
  omega

theorem onlyKeys_treeOvercurrent {n : Nat} (hn : n < 35) (s : State) : onlyKeys treeLeaseKey s (treeOvercurrent n s) := by
  have hword := treeWord_fields n
  have hoff : onlyKeys treeLeaseKey s (treeSwitch n false (treeDrop n s)) :=
    ((onlyKeys_treeDrop hn s).trans (onlyKeys_treeSwitch hn false _)).mono fun _ => treeLeaseKey_of_treeWord
  have hoc : treeLeaseKey (USB_PST_OC n).key ∧ ¬ leafKey (USB_PST_OC n).key :=
    ⟨treeLeaseKey_of_treeWord (hword _ (by simp)), not_leafKey_treeWord hn (hword _ (by simp))⟩
  have hcnt : treeLeaseKey (USB_PST_OCCNT n).key ∧ ¬ leafKey (USB_PST_OCCNT n).key :=
    ⟨treeLeaseKey_of_treeWord (hword _ (by simp)), not_leafKey_treeWord hn (hword _ (by simp))⟩
  exact .raise (.inc (.wr (.setTree hoff) hoc.1 hoc.2) hcnt.1 hcnt.2) (.inr (by decide))

theorem onlyKeys_setTreeLease {k : Nat} (hk : k < 20) (b : Bool) (s : State) : onlyKeys treeLeaseKey s (setTreeLease k b s) := by
  have hw (v : Nat) : onlyKeys treeLeaseKey s (s.wr PST_U2LEASE_PORTS v) := .wr (.refl _ s) (.inl rfl) (by decide)
  unfold setTreeLease
  dsimp only
  refine .ite (.refl _ s) (.ite (.ite ?_ (hw _)) (.ite ?_ (hw _)))
  · exact (hw _).trans ((onlyKeys_treeSwitch (by omega) true _).mono fun _ => treeLeaseKey_of_treeWord)
  · exact (hw _).trans (onlyKeys_treeOvercurrent (by omega) _)

/-- The CC states and the leases stand apart from what another channel's lease writes. -/
theorem ccst_not_leaseKey (n : Nat) {p : Nat} (hp : p < 8) : ¬ leaseKey n (PD_STAT_CCST p).key := by
  simp only [leaseKey, List.mem_cons, List.not_mem_nil, or_false, PD_STAT_CCST, PST_LEASE_MW, PD_STAT_CONTR, PD_RDO_RDO, PD_STAT_RPLVL, PD_GLOB_SEEDPORT, fld]
  omega

theorem lease_not_leaseKey {n m : Nat} (hm : m ≤ 9) (hne : m ≠ n) : ¬ leaseKey n (PST_LEASE_MW m).key := by
  simp only [leaseKey, List.mem_cons, List.not_mem_nil, or_false, PST_LEASE_MW, PD_STAT_CONTR, PD_RDO_RDO, PD_STAT_RPLVL, PD_GLOB_SEEDPORT, fld]
  omega

theorem lease_not_treeLeaseKey {m : Nat} (hm : m ≤ 9) : ¬ treeLeaseKey (PST_LEASE_MW m).key := by
  simp only [treeLeaseKey, PST_LEASE_MW, PST_U2LEASE_PORTS, fld]
  omega

theorem lease_not_stewardKey {m : Nat} (hm : m ≤ 9) : ¬ stewardKey (PST_LEASE_MW m).key := by
  unfold stewardKey
  interval_cases m <;> decide

/-- The leases of the channels have been given. -/
def channelLeases (m : NMap Nat) (s : State) : State :=
  forAll [2, 3, 4, 5, 6, 7, 8, 9] (fun n t => setLease n (mget 0 m n) t) (s.setPw { s.pw with leased := true })

theorem applyLeases_eq (m : NMap Nat) (s : State) : applyLeases m s =
    forAll ((List.range 20).filter fun k => !s.pw.leased &&
        !bit ((forAll (List.range 20) (fun k t => setTreeLease k (mget 0 m (20 + k) ≠ 0) t) (channelLeases m s)).rd PST_U2LEASE_PORTS) k &&
        (forAll (List.range 20) (fun k t => setTreeLease k (mget 0 m (20 + k) ≠ 0) t) (channelLeases m s)).on (USB_PST_PWR (k + 7)))
      (fun k t => treeOvercurrent (k + 7) t) (forAll (List.range 20) (fun k t => setTreeLease k (mget 0 m (20 + k) ≠ 0) t) (channelLeases m s)) := rfl

/-- The tree's leases leave the channels' (R477). -/
theorem onlyKeys_applyLeases_tree (m : NMap Nat) (s : State) : onlyKeys treeLeaseKey (channelLeases m s) (applyLeases m s) := by
  rw [applyLeases_eq]
  refine .trans (.forAll (.refl _ _) fun k hk u => onlyKeys_setTreeLease (List.mem_range.1 hk) _ u) (.forAll (.refl _ _) fun k hk u => ?_)
  have hk := List.mem_range.1 (List.mem_filter.1 hk).1
  exact onlyKeys_treeOvercurrent (by omega) u

theorem pw_applyLeases (m : NMap Nat) (s : State) : (applyLeases m s).pw = { s.pw with leased := true } := by
  have hch : (channelLeases m s).pw = { s.pw with leased := true } :=
    forAll_induction (P := fun u => u.pw = { s.pw with leased := true }) rfl fun n _ u hu =>
      (show (setLease n (mget 0 m n) u).pw = u.pw from setLease_frame (κ := 25) rfl (.refl 25 u)).trans hu
  rw [applyLeases_eq, ← hch]
  generalize channelLeases m s = w
  refine forAll_induction (P := fun u => u.pw = w.pw) (forAll_induction (P := fun u => u.pw = w.pw) rfl fun k _ u hu => ?_) fun k _ u hu => ?_
  · exact (show (setTreeLease k _ u).pw = u.pw from setTreeLease_frame (κ := 25) rfl (.refl 25 u)).trans hu
  · exact (show (treeOvercurrent (k + 7) u).pw = u.pw from treeOvercurrent_frame (κ := 25) rfl (.refl 25 u)).trans hu

theorem setLease_none {n : Nat} (v : Nat) {s : State} (h : asSource s (n - 2) = false) : setLease n v s = s.wr (PST_LEASE_MW n) 0 := by
  simp [setLease, h]

/-- A port that is not attached as source has no lease (R477). -/
theorem lease_channelLeases (m : NMap Nat) (s : State) {p : Nat} (hp : p < 8) (h : asSource s p = false) : (channelLeases m s).rd (PST_LEASE_MW (p + 2)) = 0 := by
  have hmem : p + 2 ∈ [2, 3, 4, 5, 6, 7, 8, 9] := by
    simp only [List.mem_cons, List.not_mem_nil, or_false]
    omega
  have hrange {n : Nat} (hn : n ∈ [2, 3, 4, 5, 6, 7, 8, 9]) : 2 ≤ n ∧ n ≤ 9 := by
    simp only [List.mem_cons, List.not_mem_nil, or_false] at hn
    omega
  have hcc {n : Nat} (hn : n ∈ [2, 3, 4, 5, 6, 7, 8, 9]) (v : Nat) (u : State) : (setLease n v u).rd (PD_STAT_CCST p) = u.rd (PD_STAT_CCST p) :=
    (onlyKeys_setLease (hrange hn).1 (hrange hn).2 v u).1 _ (ccst_not_leaseKey n hp)
  have hset (u : State) : (setLease (p + 2) (mget 0 m (p + 2)) u).rd (PD_STAT_CCST p) ≠ 2 → (setLease (p + 2) (mget 0 m (p + 2)) u).rd (PST_LEASE_MW (p + 2)) = 0 := by
    intro hne
    rw [hcc hmem] at hne
    rw [setLease_none _ (by simpa [asSource] using hne)]
    exact rd_wr_of_lt _ _ _ (show 0 < 2 ^ 32 by decide)
  have hkeep : ∀ n ∈ [2, 3, 4, 5, 6, 7, 8, 9], ∀ u : State, (u.rd (PD_STAT_CCST p) ≠ 2 → u.rd (PST_LEASE_MW (p + 2)) = 0) →
      (setLease n (mget 0 m n) u).rd (PD_STAT_CCST p) ≠ 2 → (setLease n (mget 0 m n) u).rd (PST_LEASE_MW (p + 2)) = 0 := by
    intro n hn u hu
    by_cases he : p + 2 = n
    · exact he ▸ hset u
    · rw [hcc hn, (onlyKeys_setLease (hrange hn).1 (hrange hn).2 _ u).1 _ (lease_not_leaseKey (by omega) he)]
      exact hu
  have hall := forAll_establishes (P := fun u => u.rd (PD_STAT_CCST p) ≠ 2 → u.rd (PST_LEASE_MW (p + 2)) = 0) (f := fun n t => setLease n (mget 0 m n) t)
    (s.setPw { s.pw with leased := true }) hmem hset hkeep
  refine hall ?_
  have hsame : (forAll [2, 3, 4, 5, 6, 7, 8, 9] (fun n t => setLease n (mget 0 m n) t) (s.setPw { s.pw with leased := true })).rd (PD_STAT_CCST p) =
      s.rd (PD_STAT_CCST p) := forAll_induction (P := fun u => u.rd (PD_STAT_CCST p) = s.rd (PD_STAT_CCST p)) rfl fun n hn u hu => (hcc hn _ u).trans hu
  rw [hsame]
  simpa [asSource] using h

/-! ### The budget's effect (R481) -/

/-- B_eff goes by the feeds, the ports and the image, not by what shows it. -/
theorem beff_congr {s t : State} (hrd : ∀ f : Fld, ¬ stewardKey f.key → t.rd f = s.rd f) (hld : t.ld = s.ld) (hpd : t.pd = s.pd) : beff t = beff s := by
  have hup {f : Fld} (h : 0x180000 ≤ f.key) : t.rd f = s.rd f := hrd f (not_stewardKey h)
  have hpdp (p : Nat) : t.pdp p = s.pdp p := by rw [State.pdp, hpd, State.pdp]
  have hport (p : Nat) : ∀ f ∈ [PD_STAT_CCST p, PD_STAT_CONTR p, PD_STAT_RPLVL p, PD_RDO_RDO p], t.rd f = s.rd f := by
    intro f hf
    refine hup ?_
    revert f
    simp only [List.forall_mem_cons, List.not_mem_nil, false_implies, implies_true, and_true, PD_STAT_CCST, PD_STAT_CONTR, PD_STAT_RPLVL, PD_RDO_RDO, fld]
    omega
  have hchan (n : Nat) : ∀ f ∈ [PC_STAT_STATE n, PC_STAT_REV n], t.rd f = s.rd f := by
    intro f hf
    refine hup ?_
    revert f
    simp only [List.forall_mem_cons, List.not_mem_nil, false_implies, implies_true, and_true, PC_STAT_STATE, PC_STAT_REV, fld]
    omega
  have hstate (n : Nat) : t.rd (PC_STAT_STATE n) = s.rd (PC_STAT_STATE n) := hchan n _ (by simp)
  have hrev (n : Nat) : t.rd (PC_STAT_REV n) = s.rd (PC_STAT_REV n) := hchan n _ (by simp)
  have hsrc (p : Nat) : asSource t p = asSource s p := by rw [asSource, hport p _ (by simp), asSource]
  have hsink (p : Nat) : asSink t p = asSink s p := by rw [asSink, hport p _ (by simp), asSink]
  have hvar : variant t = variant s := by
    have hsmall : ¬ stewardKey SYS_STAGE_FUSEFLT.key ∧ ¬ stewardKey FUSE_VAR_V.key := by
      unfold stewardKey
      decide
    rw [variant, fuseFault, State.on, hrd _ hsmall.1, hrd _ hsmall.2, variant, fuseFault, State.on]
  have hcontract (p : Nat) : contractMw t p = contractMw s p := by
    rw [contractMw, hport p _ (by simp), hport p (PD_STAT_RPLVL p) (by simp), hport p (PD_RDO_RDO p) (by simp), hpdp, contractMw]
  have hsec : powerSec t = powerSec s := by rw [powerSec, hld, powerSec]
  have hactive : t.rd PP_FEED_ACTIVE = s.rd PP_FEED_ACTIVE := hup (by decide)
  have hcrown : crownActive t = crownActive s ∧ crownSink t = crownSink s := by
    constructor
    · simp only [crownActive, pathClosed, State.on, hrev, hstate]
    · simp only [crownSink, hsink, hstate]
  have hwatts (f : Nat) : feedWatts t f = feedWatts s f := by rw [feedWatts, hsec, feedWatts]
  have havail : availMw t = availMw s := by
    simp only [availMw, supplyMw, hactive, hwatts, hcrown.1, hcrown.2, hcontract]
  have hfloors : floorsMw t = floorsMw s := by
    simp only [floorsMw, leasePorts, hactive, hsrc, hvar]
  have hbudget : t.rd PST_CORE_BUDGET = s.rd PST_CORE_BUDGET := hrd _ (by unfold stewardKey; decide)
  rw [beff, hbudget, havail, hfloors, auxMw, hsec, beff, auxMw]

theorem baseMw_congr {s t : State} (hld : t.ld = s.ld) : baseMw t = baseMw s := by
  rw [baseMw, powerSec, hld, baseMw, powerSec]

theorem ld_updateExt (s : State) : (updateExt s).ld = s.ld := updateExt_frame (κ := 8) rfl (.refl 8 s)
theorem pd_updateExt (s : State) : (updateExt s).pd = s.pd := updateExt_frame (κ := 24) rfl (.refl 24 s)

theorem beff_updateExt (s : State) : beff (updateExt s) = beff s := beff_congr (onlyKeys_updateExt s).1 (ld_updateExt s) (pd_updateExt s)

/-- PST_EXT says whether the budget carries BASE (R481). -/
theorem rd_low_updateExt (s : State) : (updateExt s).rd PST_EXT_LOW = if beff s < baseMw s then 1 else 0 := by
  have hlow : (s.wrs [(PST_EXT_BUS, b2n (s.rd PP_FEED_ACTIVE = 3)), (PST_EXT_AVAIL, min 4095 (availMw s / 100)), (PST_EXT_LOW, b2n (beff s < baseMw s)),
      (PST_EXT_LEASED, min 4095 (leasedMw s / 100))]).rd PST_EXT_LOW = b2n (beff s < baseMw s) :=
    rd_wrs_eq (by simp [PST_EXT_BUS, PST_EXT_AVAIL, PST_EXT_LOW, PST_EXT_LEASED, fld]) (by simp) (show _ < 2 ^ 1 by cases decide (beff s < baseMw s) <;> decide) s
  have hb : b2n (beff s < baseMw s) = if beff s < baseMw s then 1 else 0 := by
    split
    · next h => simp [b2n, h]
    · next h => simp [b2n, h]
  have hpre (u : State) : (precomputeShed u).rd PST_EXT_LOW = u.rd PST_EXT_LOW := by
    unfold precomputeShed
    split <;> rfl
  rw [← hb, ← hlow]
  unfold updateExt
  dsimp only
  split
  · rw [rd_raise_ne _ _ _ _ (by decide), hpre]
  · rw [hpre]

/-- The leases as the steward gives them from a table. -/
def leasesGiven (m : NMap Nat) (s : State) : State :=
  if lowers m s then raise 16 5 (updateExt (withBeff (applyLeases m) s)) else updateExt (withBeff (applyLeases m) s)

theorem recomputeLeases_up {s : State} (h : stewardUp s = true) : ∃ m, recomputeLeases s = leasesGiven m s := by
  unfold recomputeLeases
  rw [if_neg (by simp [h])]
  exact ⟨_, rfl⟩

theorem leased_precomputeShed (s : State) : (precomputeShed s).pw.leased = s.pw.leased := by
  unfold precomputeShed
  split <;> rfl

theorem leased_updateExt (s : State) : (updateExt s).pw.leased = s.pw.leased := by
  have hraise (u : State) : (raise 16 6 u).pw = u.pw := raise_frame (κ := 25) rfl (.refl 25 u)
  have hwrs (l : List (Fld × Nat)) : (s.wrs l).pw = s.pw := wrs_frame (k := 25) rfl (.refl 25 s)
  unfold updateExt
  dsimp only
  split
  · rw [hraise, leased_precomputeShed, hwrs]
  · rw [leased_precomputeShed, hwrs]

theorem leasesGiven_effects (m : NMap Nat) (s : State) : (leasesGiven m s).pw.leased = true ∧
    (leasesGiven m s).rd PST_EXT_LOW = (if beff (leasesGiven m s) < baseMw (leasesGiven m s) then 1 else 0) ∧
    ∀ p, p < 8 → asSource s p = false → (leasesGiven m s).rd (PST_LEASE_MW (p + 2)) = 0 := by
  have hraise : onlyKeys stewardKey (updateExt (withBeff (applyLeases m) s)) (raise 16 5 (updateExt (withBeff (applyLeases m) s))) := .raise (.refl _ _) (by simp [stewardKey])
  have hrpw (u : State) : (raise 16 5 u).pw = u.pw := raise_frame (κ := 25) rfl (.refl 25 u)
  have hrld (u : State) : (raise 16 5 u).ld = u.ld := raise_frame (κ := 8) rfl (.refl 8 u)
  have hrpd (u : State) : (raise 16 5 u).pd = u.pd := raise_frame (κ := 24) rfl (.refl 24 u)
  have hspw (u : State) : (structuralEvent u).pw = u.pw := structuralEvent_frame (κ := 25) rfl (.refl 25 u)
  have hleased : (withBeff (applyLeases m) s).pw.leased = true := by
    rcases withBeff_cases (applyLeases m) s with e | e
    · rw [e, pw_applyLeases]
    · rw [e, hspw, pw_applyLeases]
  have hlease {p : Nat} (hp : p < 8) (h : asSource s p = false) : (updateExt (withBeff (applyLeases m) s)).rd (PST_LEASE_MW (p + 2)) = 0 := by
    have hsteward := lease_not_stewardKey (show p + 2 ≤ 9 by omega)
    rw [(onlyKeys_updateExt _).1 _ hsteward, (onlyKeys_withBeff _ _).1 _ hsteward, (onlyKeys_applyLeases_tree m s).1 _ (lease_not_treeLeaseKey (by omega)),
      lease_channelLeases m s hp h]
  have hlow := rd_low_updateExt (withBeff (applyLeases m) s)
  rw [← beff_updateExt, ← baseMw_congr (ld_updateExt _)] at hlow
  have hkept := leased_updateExt (withBeff (applyLeases m) s)
  unfold leasesGiven
  generalize updateExt (withBeff (applyLeases m) s) = w at *
  split
  · refine ⟨by rw [hrpw, hkept, hleased], ?_, fun p hp h => ?_⟩
    · rw [beff_congr hraise.1 (hrld w) (hrpd w), baseMw_congr (hrld w), rd_raise_ne _ _ _ _ (by decide), hlow]
    · rw [hraise.1 _ (lease_not_stewardKey (by omega)), hlease hp h]
  · exact ⟨hkept.trans hleased, hlow, fun p hp h => hlease hp h⟩

/-! ### The monitors (R523 to R526) -/

/-- The monitors outside their ratings after one has been read. -/
def outsideNow (k : Nat) (out : Bool) (s : State) : List Nat :=
  if out then (if s.pw.outside.contains k then s.pw.outside else s.pw.outside ++ [k]) else s.pw.outside.filter (· ≠ k)

theorem setOutside_eq (k : Nat) (out : Bool) (s : State) : setOutside k out s =
    if allRated s ∧ !(outsideNow k out s).isEmpty then noteExcursion (s.setPw { s.pw with outside := outsideNow k out s })
    else s.setPw { s.pw with outside := outsideNow k out s } := rfl

theorem mem_outsideNow (k : Nat) (s : State) : k ∈ outsideNow k true s ∧ k ∉ outsideNow k false s := by
  constructor
  · simp only [outsideNow, if_true]
    split
    · next h => simpa using h
    · simp
  · simp [outsideNow]

theorem outside_setOutside (k : Nat) (out : Bool) (s : State) : (setOutside k out s).pw.outside = outsideNow k out s := by
  rw [setOutside_eq]
  split <;> rfl

theorem onlyWrites_setOutside (k : Nat) (out : Bool) (s : State) : onlyWrites [SYS_GUARD_EXC, SYS_GUARD_EXCUR] [.pw] s (setOutside k out s) := by
  have hset := onlyWrites_setPw [SYS_GUARD_EXC, SYS_GUARD_EXCUR] s { s.pw with outside := outsideNow k out s }
  have hexc (u : State) : onlyWrites [SYS_GUARD_EXC, SYS_GUARD_EXCUR] [.pw] u (noteExcursion u) :=
    ((onlyWrites_wr _ _ u).mono (by simp) (by simp)).trans ((onlyWrites_inc _ _).mono (by simp) (by simp))
  rw [setOutside_eq]
  exact .ite (hset.trans (hexc _)) hset

/-- All monitors within their ratings: none is outside. -/
theorem outside_of_allRated {s : State} (h : allRated s = true) : s.pw.outside = [] := by
  simp only [allRated, Bool.and_eq_true, List.isEmpty_iff] at h
  exact h.1.1

theorem setOutside_ended (k : Nat) (s : State) : setOutside k false s = s.setPw { s.pw with outside := outsideNow k false s } := by
  rw [setOutside_eq]
  refine if_neg fun ⟨h, hne⟩ => ?_
  simp [outsideNow, outside_of_allRated h] at hne

theorem excursion_effects (k : Nat) (s : State) : k ∈ (setOutside k true s).pw.outside ∧
    (allRated s = true → (setOutside k true s).rd SYS_GUARD_EXC = 1 ∧ (setOutside k true s).rd SYS_GUARD_EXCUR = satInc 255 (s.rd SYS_GUARD_EXCUR)) ∧
    (allRated s = false → (setOutside k true s).regs = s.regs) := by
  refine ⟨outside_setOutside k true s ▸ (mem_outsideNow k s).1, fun h => ?_, fun h => ?_⟩
  · have hne : (!(outsideNow k true s).isEmpty) = true := by
      have := List.ne_nil_of_mem (mem_outsideNow k s).1
      simpa [List.isEmpty_iff] using this
    rw [setOutside_eq, if_pos ⟨h, hne⟩]
    refine ⟨?_, ?_⟩
    · exact (State.rd_wr_ne _ _ _ _ (by decide)).trans (rd_wr_of_lt _ _ _ (show 1 < 2 ^ 1 by decide))
    · rw [noteExcursion, rd_inc_eq_satInc, State.rd_wr_ne _ _ _ _ (by decide), State.rd_setPw]
      rfl
  · rw [setOutside_eq, if_neg (by simp [h])]
    rfl

/-- The sensor has been read (R525). -/
def thermalRead (x : BitVec 16) (s : State) : State :=
  let t := s.wr PST_THERM_TEMP x.toNat
  let t := if t.rd PST_THERM_PEAK < (x.toInt / 16).toNat then t.wr PST_THERM_PEAK (min 255 (x.toInt / 16).toNat) else t
  if ((16 * t.rd PST_THERM_WARN : Nat) : Int) ≤ x.toInt then raise 16 8 t else t

theorem thermalRead_effects (x : BitVec 16) (s : State) : (thermalRead x s).rd PST_THERM_TEMP = x.toNat ∧
    (thermalRead x s).rd PST_THERM_PEAK = max (s.rd PST_THERM_PEAK) (min 255 (x.toInt / 16).toNat) ∧
    (((16 * s.rd PST_THERM_WARN : Nat) : Int) ≤ x.toInt → leafSet (thermalRead x s) 16 8) ∧
    onlyWrites [PST_THERM_TEMP, PST_THERM_PEAK, EVSTAT 16] [.mg] s (thermalRead x s) := by
  have hpeak : s.rd PST_THERM_PEAK < 2 ^ 8 := State.rd_lt s _
  have htemp : (s.wr PST_THERM_TEMP x.toNat).rd PST_THERM_TEMP = x.toNat := rd_wr_of_lt _ _ _ x.isLt
  have hkeep : (s.wr PST_THERM_TEMP x.toNat).rd PST_THERM_PEAK = s.rd PST_THERM_PEAK := State.rd_wr_ne _ _ _ _ (by decide)
  have hwarn : (s.wr PST_THERM_TEMP x.toNat).rd PST_THERM_WARN = s.rd PST_THERM_WARN := State.rd_wr_ne _ _ _ _ (by decide)
  have hfirst : onlyWrites [PST_THERM_TEMP, PST_THERM_PEAK, EVSTAT 16] [.mg] s (s.wr PST_THERM_TEMP x.toNat) := (onlyWrites_wr _ _ s).mono (by simp) (by simp)
  unfold thermalRead
  dsimp only
  generalize s.wr PST_THERM_TEMP x.toNat = w at *
  have hnext : (if w.rd PST_THERM_PEAK < (x.toInt / 16).toNat then w.wr PST_THERM_PEAK (min 255 (x.toInt / 16).toNat) else w).rd PST_THERM_PEAK =
      max (s.rd PST_THERM_PEAK) (min 255 (x.toInt / 16).toNat) := by
    split
    · next h => exact (rd_wr_of_lt _ _ _ (show min 255 (x.toInt / 16).toNat < 2 ^ 8 by omega)).trans (by omega)
    · next h => omega
  have hsame {f : Fld} (hf : f.key ≠ PST_THERM_PEAK.key) :
      (if w.rd PST_THERM_PEAK < (x.toInt / 16).toNat then w.wr PST_THERM_PEAK (min 255 (x.toInt / 16).toNat) else w).rd f = w.rd f := by
    split
    · exact State.rd_wr_ne _ _ _ _ hf
    · rfl
  have hwr : onlyWrites [PST_THERM_TEMP, PST_THERM_PEAK, EVSTAT 16] [.mg] s
      (if w.rd PST_THERM_PEAK < (x.toInt / 16).toNat then w.wr PST_THERM_PEAK (min 255 (x.toInt / 16).toNat) else w) :=
    .ite (hfirst.trans ((onlyWrites_wr _ _ w).mono (by simp) (by simp))) hfirst
  generalize (if w.rd PST_THERM_PEAK < (x.toInt / 16).toNat then w.wr PST_THERM_PEAK (min 255 (x.toInt / 16).toNat) else w) = u at *
  have hw : u.rd PST_THERM_WARN = s.rd PST_THERM_WARN := (hsame (by decide)).trans hwarn
  have ht : u.rd PST_THERM_TEMP = x.toNat := (hsame (by decide)).trans htemp
  rw [hw]
  refine ⟨?_, ?_, fun h => by rw [if_pos h]; exact leafSet_raise _ _ _ (by decide), .ite (hwr.trans ((onlyWrites_raise _ _ _).mono (by simp) (by simp))) hwr⟩
  · split
    · rw [rd_raise_ne _ _ _ _ (by decide), ht]
    · exact ht
  · split
    · rw [rd_raise_ne _ _ _ _ (by decide), hnext]
    · exact hnext

theorem sensorRead (x : BitVec 16) (s : State) : ∃ t, exec (.thermalSample x) s = .next t ∧ t.rd PST_THERM_TEMP = x.toNat ∧
    t.rd PST_THERM_PEAK = max (s.rd PST_THERM_PEAK) (min 255 (x.toInt / 16).toNat) ∧
    (((16 * s.rd PST_THERM_WARN : Nat) : Int) ≤ x.toInt → leafSet t 16 8) ∧ (105 * 16 < x.toInt → 256 ∈ t.pw.outside) ∧
    (x.toInt ≤ 105 * 16 → 256 ∉ t.pw.outside) ∧
    onlyWrites [PST_THERM_TEMP, PST_THERM_PEAK, SYS_GUARD_EXC, SYS_GUARD_EXCUR, EVSTAT 16] [.mg, .pw] s t := by
  have hexec : exec (.thermalSample x) s = .next (setOutside 256 (decide (105 * 16 < x.toInt)) (thermalRead x s)) := rfl
  obtain ⟨htemp, hpeak, hleaf, hwrites⟩ := thermalRead_effects x s
  generalize thermalRead x s = w at *
  have hout := onlyWrites_setOutside 256 (decide (105 * 16 < x.toInt)) w
  refine ⟨_, hexec, ?_, ?_, fun h => ?_, fun h => ?_, fun h => ?_, (hwrites.mono (by simp) (by simp)).trans (hout.mono (by simp) (by simp))⟩
  · rw [hout.1 _ (by decide), htemp]
  · rw [hout.1 _ (by decide), hpeak]
  · rw [leafSet, hout.1 _ (by decide)]
    exact hleaf h
  · rw [outside_setOutside, decide_eq_true h]
    exact (mem_outsideNow 256 w).1
  · rw [outside_setOutside, decide_eq_false (by omega)]
    exact (mem_outsideNow 256 w).2

theorem supplyRead (k : Byte) (s : State) (hk : k.toNat < 8) :
    (∃ t, exec (.ratingExcursion k false) s = .next t ∧ k.toNat ∈ t.pw.outside ∧
      (allRated s = true → t.rd SYS_GUARD_EXC = 1 ∧ t.rd SYS_GUARD_EXCUR = satInc 255 (s.rd SYS_GUARD_EXCUR)) ∧
      (allRated s = false → t.regs = s.regs) ∧ onlyWrites [SYS_GUARD_EXC, SYS_GUARD_EXCUR] [.pw] s t) ∧
    (∃ t, exec (.ratingExcursion k true) s = .next t ∧ k.toNat ∉ t.pw.outside ∧ partsOnly [.pw] s t) := by
  have hexec (b : Bool) : exec (.ratingExcursion k b) s = .next (setOutside k.toNat (!b) s) := by simp [exec, execRatingExcursion, hk]
  obtain ⟨hmem, hrated, hnot⟩ := excursion_effects k.toNat s
  refine ⟨⟨_, hexec false, hmem, hrated, hnot, onlyWrites_setOutside _ _ s⟩, _, hexec true, ?_, ?_⟩
  · rw [Bool.not_true, outside_setOutside]
    exact (mem_outsideNow _ s).2
  · rw [Bool.not_true, setOutside_ended]
    intro q hq
    cases q
    case pw => simp at hq
    all_goals rfl

theorem deviationRead (m : BitVec 12) (s : State) : ∃ t, exec (.avsDeviation m) s = .next t ∧ t.rd PST_AVS_MEAS = m.toNat ∧
    (4 * s.rd PST_AVS_TARGET < 100 * ((m.toNat - s.rd PST_AVS_TARGET) + (s.rd PST_AVS_TARGET - m.toNat)) → leafSet t 16 9) ∧
    onlyWrites [PST_AVS_MEAS, EVSTAT 16] [.mg] s t := by
  have hexec : exec (.avsDeviation m) s = .next (if 4 * s.rd PST_AVS_TARGET < 100 * ((m.toNat - s.rd PST_AVS_TARGET) + (s.rd PST_AVS_TARGET - m.toNat))
      then raise 16 9 (s.wr PST_AVS_MEAS m.toNat) else s.wr PST_AVS_MEAS m.toNat) := rfl
  have hmeas : (s.wr PST_AVS_MEAS m.toNat).rd PST_AVS_MEAS = m.toNat := rd_wr_of_lt _ _ _ m.isLt
  have hwr : onlyWrites [PST_AVS_MEAS, EVSTAT 16] [.mg] s (s.wr PST_AVS_MEAS m.toNat) := (onlyWrites_wr _ _ s).mono (by simp) (by simp)
  refine ⟨_, hexec, ?_, fun h => by rw [if_pos h]; exact leafSet_raise _ _ _ (by decide), .ite (hwr.trans ((onlyWrites_raise _ _ _).mono (by simp) (by simp))) hwr⟩
  split
  · rw [rd_raise_ne _ _ _ _ (by decide), hmeas]
  · exact hmeas

theorem overdrawnReset (p : CanPort) (s : State) (ho : (s.pdp p.val).overdrawn = true) (hs : asSource s p.val = true) (hh : (s.pdp p.val).hards < 3) :
    ∃ t, exec (.leaseOverdraw p) s = .next t ∧ t.rd (PD_STAT_CONTR p.val) = 1 ∧ Out.pd p.val "Hard Reset" [] ∈ t.sent ∧ leafSet t 18 3 ∧
      (t.pdp p.val).overdrawn = false := by
  have hexec : exec (.leaseOverdraw p) s = .next (withBeff (hardReset p.val true) (s.setPdp p.val { s.pdp p.val with overdrawn := false })) := by
    simp [exec, execLeaseOverdraw, ho, hs]
  have hhards : ((s.setPdp p.val { s.pdp p.val with overdrawn := false }).pdp p.val).hards < 3 := by rw [State.pdp_setPdp_same]; exact hh
  obtain ⟨hcontr, -, -, ⟨x, hpdp⟩, hleaf, -, hsent, -⟩ := hardReset_effects p (sent := true) (s := s.setPdp p.val { s.pdp p.val with overdrawn := false }) (.inl hs) hhards
  have hbeff := onlyKeys_withBeff_far (hardReset p.val true) (s.setPdp p.val { s.pdp p.val with overdrawn := false })
  refine ⟨_, hexec, ?_, ?_, hbeff.2 _ _ hleaf, ?_⟩
  · rw [hbeff.1 _ (pdFields_near p _ (by simp [pdFields])).1, hcontr]
  · rw [sent_withBeff, hsent, if_pos rfl]
    exact List.mem_cons_self
  · rw [pdp_withBeff, hpdp]

/-- Settles O43. -/
theorem leasesAndMonitors : Obligations.LeasesAndMonitors := by
  refine ⟨fun s h => ?_, fun s h => ?_, overdrawnReset, fun p s h => ?_, supplyRead, fun k b s h => ?_, deviationRead, sensorRead⟩
  · have hexec : exec .leaseRecompute s = .next (recomputeLeases s) := rfl
    obtain ⟨m, hm⟩ := recomputeLeases_up h
    rw [hm] at hexec
    exact ⟨_, hexec, leasesGiven_effects m s⟩
  · have hexec : exec .leaseRecompute s = .next (recomputeLeases s) := rfl
    rw [hexec, recomputeLeases, if_pos (by simp [h])]
  · simp [exec, execLeaseOverdraw, h]
  · simp [exec, execRatingExcursion, Nat.not_lt.2 h]

end Sys2Proof.Machine
end

section
set_option Elab.async false
/-! Pixel units reach the line buffer and the store. -/

namespace Sys2Proof.Machine

open Sys2Proof Sys2Proof.Laws

/-! ### Pixel units (R283, R284, R288, R290, R291) -/

theorem onlyWrites_setPipe (fs : List Fld) (s : State) (d : Nat) (x : PipeSt) : onlyWrites fs [.pp] s (s.setPipe d x) := by
  refine ⟨fun _ _ => rfl, fun q hq => ?_⟩
  cases q
  case pp => simp at hq
  all_goals rfl

/-- A unit of a line is no longer awaited. -/
def unitTaken (d line : Nat) (s : State) : State := s.setPipe d { (s.pipe d) with due := (s.pipe d).due.erase line }

theorem attrs_unitTaken (d line : Nat) (s : State) : ((unitTaken d line s).pipe d).attrs = (s.pipe d).attrs ∧
    ((unitTaken d line s).pipe d).lines = (s.pipe d).lines ∧ ((unitTaken d line s).pipe d).decided = (s.pipe d).decided := by
  unfold unitTaken
  rw [State.pipe_setPipe_same]
  exact ⟨rfl, rfl, rfl⟩

theorem exec_pixelUnit (d : Pipe) (y : Nat) (b : Bytes) (s : State) : exec (.pixelUnit d y b) s = .next (takePixels d.val y b (unitTaken d.val y s)) := rfl

/-- The unit joins the line buffer and its line is stored. -/
def lineTaken (d y : Nat) (a b : Bytes) (s : State) : State := storeLine d y a b (s.setPipe d { (s.pipe d) with lines := mins (s.pipe d).lines y b })

theorem takePixels_fits {d y : Nat} {a b : Bytes} {s : State} (ha : (s.pipe d).attrs = some a) (hact : pipeActive s d = true) (hy : y < aVActive a)
    (hb : b.length = unitBytes a) (hl : (s.pipe d).lines.length < 16)
    (hdec : ∀ z l, (s.pipe d).decided = some (z, l) → (y + aVTotal a - z) % aVTotal a ≠ 0 ∧ (y + aVTotal a - z) % aVTotal a ≤ aVTotal a / 2) :
    takePixels d y b s = lineTaken d y a b s := by
  unfold lineTaken
  cases hd : (s.pipe d).decided with
  | none =>
    simp only [takePixels, ha, hact, hd, hb, Nat.not_le.2 hy, Nat.not_le.2 hl, ne_eq, not_true_eq_false, Bool.not_true, Bool.false_eq_true, or_self, decide_false,
      Bool.or_self, if_false]
  | some x =>
    obtain ⟨z, l⟩ := x
    obtain ⟨h0, hhalf⟩ := hdec z l hd
    simp only [takePixels, ha, hact, hd, hb, h0, Nat.not_le.2 hy, Nat.not_le.2 hl, Nat.not_lt.2 hhalf, ne_eq, not_true_eq_false, Bool.not_true, Bool.false_eq_true,
      or_self, Bool.or_self, decide_false, if_false]

theorem takePixels_misfit {d y : Nat} {a b : Bytes} {s : State} (ha : (s.pipe d).attrs = some a) (hact : pipeActive s d = true) (hy : y < aVActive a)
    (hb : b.length ≠ unitBytes a) : takePixels d y b s = raise (9 + d) 6 s := by
  simp only [takePixels, ha, hact, Nat.not_le.2 hy, Bool.not_true, Bool.false_eq_true, or_self, if_false]
  exact if_pos hb

/-- The bytes of a line as stored (R290). -/
def storedLine (a b : Bytes) : Bytes := if aDsc a then b else (unpack (aFormat a) (aHActive a) b).flatMap (storeBytes (aFormat a))

/-- Where a line of the frame under way is stored (R291). -/
def storedAt (d y : Nat) (a : Bytes) (s : State) : Nat := bufferBase s d (1 - s.rd (PIPE_STAT_HBUF d)) + y * linePitch a

theorem pipe_raise (d u b : Nat) (s : State) : (raise u b s).pipe d = s.pipe d := by
  have h : (raise u b s).pp = s.pp := raise_frame (κ := 20) rfl (.refl 20 s)
  rw [State.pipe, h, State.pipe]

/-- A frame that ends early has been noted (R291). -/
def frameNoted (d y : Nat) (a : Bytes) (s : State) : State :=
  let x := s.pipe d
  if (x.wCount = 0 ∨ y ≤ x.wLast ∨ x.wAttrs ≠ some a) ∧ x.wCount ≠ 0 then raise (9 + d) 7 (s.inc (PIPE_CNT_INCOMP d)) else s

theorem storeLine_effects (d y : Nat) (a b : Bytes) (s : State) : ((storeLine d y a b s).pipe d).lines = (s.pipe d).lines ∧
    (storeLine d y a b s).dram = memWrite 0 s.dram (storedAt d y a s) (storedLine a b) := by
  have hnote : (frameNoted d y a s).dram = s.dram ∧ (frameNoted d y a s).pipe d = s.pipe d := by
    unfold frameNoted
    dsimp only
    split
    · exact ⟨raise_frame (κ := 6) rfl (State_inc_frame rfl (.refl 6 s)), pipe_raise _ _ _ _⟩
    · exact ⟨rfl, rfl⟩
  have hdone (c : Prop) [Decidable c] (u : State) : ((if c then frameComplete d u else u).pipe d).lines = (u.pipe d).lines ∧
      (if c then frameComplete d u else u).dram = u.dram := by
    split
    · refine ⟨?_, frameComplete_frame (κ := 6) rfl (.refl 6 u)⟩
      unfold frameComplete
      rw [State.pipe_setPipe_same]
    · exact ⟨rfl, rfl⟩
  unfold storeLine
  dsimp only
  rw [(hdone _ _).1, (hdone _ _).2, State.pipe_setPipe_same]
  constructor
  · change ((frameNoted d y a s).pipe d).lines = _
    rw [hnote.2]
  · change memWrite 0 (frameNoted d y a s).dram _ _ = _
    rw [hnote.1]
    rfl

/-- Settles O20. -/
theorem pixelUnitsReachBufferAndStore : Obligations.PixelUnitsReachBufferAndStore := by
  refine ⟨fun d y b a s ha hact hy hb hl hdec => ?_, fun d y b a s ha hact hy hb => ?_, fun d y b s hb hact => ?_, fun d y b s hb => ?_⟩
  · obtain ⟨hattrs, hlines, hdecided⟩ := attrs_unitTaken d.val y s
    have hexec := exec_pixelUnit d y b s
    rw [takePixels_fits (hattrs.trans ha) hact hy hb (hlines ▸ hl) fun z l h => hdec z l (hdecided ▸ h)] at hexec
    obtain ⟨hkept, hdram⟩ := storeLine_effects d.val y a b ((unitTaken d.val y s).setPipe d.val
      { ((unitTaken d.val y s).pipe d.val) with lines := mins ((unitTaken d.val y s).pipe d.val).lines y b })
    refine ⟨_, hexec, ?_, partsOnly_of_exec hexec (by simp [touches]), fun k hk => ?_, fun k hk => ?_⟩
    · rw [lineTaken, hkept, State.pipe_setPipe_same, mfind_mins, if_pos rfl]
    · rw [lineTaken, hdram]
      exact memGet_memWrite_inside _ _ _ _ _ hk
    · rw [lineTaken, hdram]
      exact memGet_memWrite_outside _ _ _ _ _ hk
  · have hexec := exec_pixelUnit d y b s
    rw [takePixels_misfit ((attrs_unitTaken d.val y s).1.trans ha) hact hy hb] at hexec
    exact ⟨_, hexec, leafSet_raise _ _ _ (by decide), ((onlyWrites_setPipe _ _ _ _).mono (List.Subset.refl _) (by simp)).trans
      ((onlyWrites_raise _ _ _).mono (List.Subset.refl _) (by simp))⟩
  · simp [exec, execSecondaryDataPacket, takePacket, hb, hact]
  · have hexec : exec (.secondaryDataPacket d y b) s = .next (raise (9 + d.val) 6 s) := by
      simp [exec, execSecondaryDataPacket, takePacket, hb, reservedUnit]
    exact ⟨_, hexec, leafSet_raise _ _ _ (by decide), onlyWrites_raise _ _ _⟩

end Sys2Proof.Machine
end

section
set_option Elab.async false
/-! A link setting that is no change, and a register map wider than its fields. -/

namespace Sys2Proof.Machine

open Sys2Proof Sys2Proof.Laws

/-- A hub that has started, whose register map holds sixteen bits at the fifteen of the parent's preference. -/
def overwideUpref : State :=
  { State.reset.wrs [(SYS_STAGE_FWRDY, 1), (FUSE_VAR_V, 1), (CAN_STAT_STATE 1, 4)] with
    regs := mins (State.reset.wrs [(SYS_STAGE_FWRDY, 1), (FUSE_VAR_V, 1), (CAN_STAT_STATE 1, 4)]).regs (CAN_UPREF_REF 1).key (2 ^ 15)
    cn := [(1, { entered := 1 })] }

/-- A field of sixteen bits at the place of the parent's preference. -/
def uprefWord : Fld := { CAN_UPREF_REF 1 with w := 16 }

theorem plainly_overwideUpref : plainly overwideUpref (tunPath 1) 0x112004 := ⟨by unfold writable; decide +kernel, fun _ _ => rfl⟩

theorem exec_uprefWrite_overwide : ∃ t, exec (.uprefWrite 1 0) overwideUpref = .next t ∧ t.rd uprefWord ≠ overwideUpref.rd uprefWord := by
  refine ⟨_, rfl, ?_⟩
  decide +kernel

/-- Refutes O55: a state may hold more at a register's place than its field's bits say. The parent's preference is then 0 for the rule that compares it,
and the write of 0 that R244 calls no change still cuts the entry to the field's fifteen bits, which a field of sixteen at the same place reads. -/
theorem not_linkAndLaneCommands : ¬ Obligations.LinkAndLaneCommands := by
  unfold Obligations.LinkAndLaneCommands
  rintro ⟨-, -, hupref, -⟩
  obtain ⟨t, ht, hsame⟩ := (hupref 1 0 overwideUpref plainly_overwideUpref).2 (by decide +kernel)
  obtain ⟨u, hu, hne⟩ := exec_uprefWrite_overwide
  obtain rfl : t = u := Host.Outcome.next.inj (ht.symm.trans hu)
  exact hne (hsame uprefWord (by simp))

end Sys2Proof.Machine
end

section
set_option Elab.async false
/-! What a port-down, a training and the loss of a cell leave: the port's registers, the other registers, and the cells in FAULT. -/

namespace Sys2Proof.Machine

open Sys2Proof Sys2Proof.Laws

/-! ### What a port-down leaves in the port's registers (R167, R424) -/

/-- A field that a port-down's leaves and paths do not touch is what the port reset makes of it. -/
theorem rd_portDown_of_reset {p c : Nat} {s : State} {f : Fld} (hleaf : ¬ leafKey f.key) (hlt : f.key < 0x2000000) :
    (portDown p c s).rd f = (portReset p (dropTunnels p c s)).rd f := by
  have hleaves : onlyKeys (fun k => leafKey k ∨ 0x2000000 ≤ k) (portReset p (dropTunnels p c s)) (lossLeaves p s ((portReset p (dropTunnels p c s)).dropAtt p)) :=
    by
    have hdrop : onlyKeys (fun k => leafKey k ∨ 0x2000000 ≤ k) (portReset p (dropTunnels p c s)) ((portReset p (dropTunnels p c s)).dropAtt p) := .of_regs (.refl _ _) rfl
    exact hdrop.trans (onlyKeys_lossLeaves (K := fun k => leafKey k ∨ 0x2000000 ≤ k) (Or.inl (leafKey_evstat _)) _ _)
  have hall : onlyKeys (fun k => leafKey k ∨ 0x2000000 ≤ k) (portReset p (dropTunnels p c s)) (portDown p c s) := by
    rw [portDown_eq]
    exact .ite (hleaves.trans (onlyKeys_quietPath (fun _ => Or.inr) p _)) hleaves
  exact hall.1 f (by rintro (h | h); exacts [hleaf h, by omega])

/-- Restoring gives a field its reset value where no other field of the list shares its key. -/
theorem rd_restore_of_mem {fs : List Fld} {f : Fld} (hf : f ∈ fs) (h : ∀ g ∈ fs, g = f ∨ f.key ≠ g.key) (s : State) :
    (restore fs s).rd f = f.reset % 2 ^ f.w :=
  forAll_establishes (P := fun u => u.rd f = f.reset % 2 ^ f.w) s hf (fun u => State.rd_wr_same u f f.reset) fun g hg u hu => by
    rcases h g hg with rfl | hne
    · exact State.rd_wr_same u g g.reset
    · exact (State.rd_wr_ne u g f g.reset hne).trans hu

theorem canState_portReach (p : Nat) : ∀ g ∈ portReach p, (CAN_STAT_STATE p).key ≠ g.key := by
  have := portPlace_lt p
  have := portGrove_lt p
  simp only [portReach, List.forall_mem_cons, List.not_mem_nil, false_implies, implies_true, and_true, portReg, fld, CAN_STAT_STATE, GRV_FLOW_STALL, GRV_FLOW_HEAD,
    GRV_FLOW_ICL, GRV_FLST_EGHELD, GRV_FLST_INHELD, GRV_FLST_TIMER, GRV_CALST_BT, ADP_STAT_STATE, ADP_STAT_PERS, ADP_STAT_RATE, ADP_STAT_WIDTH, ADP_STAT_SPEED,
    ADP_PCIE_EJREQ, ADP_PCIE_PRESENT, ADP_PCIE_DLLACT, ADP_PCIE_PIND, ADP_DP_SINKDSC]
  omega

theorem canState_canReach (p : Nat) : ∀ g ∈ canReach p, g = CAN_STAT_STATE p ∨ (CAN_STAT_STATE p).key ≠ g.key := by
  simp only [canReach, List.forall_mem_cons, List.not_mem_nil, false_implies, implies_true, and_true, true_or]
  simp only [portReg, fld, CAN_CTL_RETRAIN, CAN_STAT_STATE, CAN_STAT_MODE, CAN_STAT_ROLE, CAN_STAT_PKIND, CAN_STAT_TXEP, CAN_STAT_RXEP, CAN_ERR_UNCORR, CAN_ERR_RNAKTX,
    CAN_ERR_RNAKRX, CAN_ERR_CSLOT, CAN_ERR2_EARLY, TIM_LNKOFF_OFF, TIM_LNKDLY_DLY, TIM_LNK_SEQ, TIM_LNK_MISSED, TIM_LNK_EXCH]
  refine ⟨.inr ?_, trivial, .inr ?_, .inr ?_, .inr ?_, .inr ?_, .inr ?_, .inr ?_, .inr ?_, .inr ?_, .inr ?_, .inr ?_, .inr ?_, .inr ?_, .inr ?_, .inr ?_, .inr ?_⟩
  all_goals omega

theorem canState_cells (p c : Nat) : ∀ g ∈ cellReach c, (CAN_STAT_STATE p).key ≠ g.key := by
  have hlt := (canState_grove p).2
  simp only [cellReach, List.forall_mem_cons, List.not_mem_nil, false_implies, implies_true, and_true, LC_CTL_RTRN, LC_STAT_STATE,
    LC_STAT_RATE, LC_STAT_ORIENT, LC_STAT_LOCKA, LC_STAT_LOCKB, LC_STAT_INVA, LC_STAT_INVB, LC_STAT_RANKA, LC_STAT_RANKB, LC_RTR_CONSEC,
    LC_FECA_CORR, LC_FECA_UNCORR, LC_FECB_CORR, LC_FECB_UNCORR, LC_HOLD_USED, LC_HOLD_PEAK]
  simp only [fld]
  omega

theorem canState_portFields (p : Nat) (cs : List Nat) : ∀ g ∈ portFields p cs, g = CAN_STAT_STATE p ∨ (CAN_STAT_STATE p).key ≠ g.key := by
  intro g hg
  rcases mem_portFields hg with h | ⟨-, h | ⟨j, hj, rfl⟩ | ⟨j, hj, rfl⟩⟩ | ⟨c, -, h⟩
  · exact .inr (canState_portReach p g h)
  · exact canState_canReach p g h
  · right
    simp only [CAN_STAT_STATE, CAN_PEER_V, fld, portReg]
    omega
  · right
    simp only [CAN_STAT_STATE, CAN_THASH_V, fld, portReg]
    omega
  · exact .inr (canState_cells p c g h)

theorem canState_mem_portFields {p : Nat} (hp : p < 8) (cs : List Nat) : CAN_STAT_STATE p ∈ portFields p cs := by
  refine List.mem_filter.2 ⟨List.mem_append_left _ (List.mem_append_right _ ?_), by simp [CAN_STAT_STATE, fld]⟩
  simp only [hp, if_true, List.append_assoc, List.mem_append]
  exact .inr (.inl (show CAN_STAT_STATE p ∈ CAN_STAT_STATE p :: _ from List.mem_cons_self))

theorem onlyKeys_laneReset (held : Bool) (c : Nat) (u : State) : onlyKeys (fun k => k = (LC_STAT_STATE c).key) u (laneReset held c u) := by
  have hleaf : ¬ leafKey (LC_STAT_STATE c).key := (groveUp_lane c _ (by simp)).2
  exact .ite (.wr (.setLane (.refl _ u)) rfl hleaf) (.ite (.wr (.setLane (.refl _ u)) rfl hleaf) (.setLane (.refl _ u)))

/-- The link of a port that went down is off (R167, R240). -/
theorem rd_canState_portDown {p : Nat} (hp : p < 8) (c : Nat) (s : State) : (portDown p c s).rd (CAN_STAT_STATE p) = 0 := by
  have hgrove := canState_grove p
  have hleaf : ¬ leafKey (CAN_STAT_STATE p).key := (groveUp_link p _ (by simp)).2
  have hlane (d : Nat) : (CAN_STAT_STATE p).key ≠ (LC_STAT_STATE d).key := canState_cells p d _ (by simp [cellReach])
  have hadp : (CAN_STAT_STATE p).key ≠ (ADP_STAT_STATE p).key := canState_portReach p _ (by simp [portReach])
  rw [rd_portDown_of_reset hleaf (by omega), portReset_eq]
  dsimp only
  generalize dropTunnels p c s = w
  rw [State.rd_wr_ne _ _ _ _ (fun e => absurd (e ▸ hgrove.1) (by decide)), State.rd_wr_ne _ _ _ _ (fun e => absurd (e ▸ hgrove.1) (by decide))]
  refine forAll_induction (P := fun u => u.rd (CAN_STAT_STATE p) = 0) ?_ fun d _ u hu => ((onlyKeys_laneReset _ d u).1 _ (hlane d)).trans hu
  have hrestored : (portRestored p w).rd (CAN_STAT_STATE p) = 0 := by
    refine forAll_induction (P := fun u => u.rd (CAN_STAT_STATE p) = 0) (rd_restore_of_mem (canState_mem_portFields hp _) (canState_portFields p _) w) fun n _ u hu => ?_
    refine (rd_restore_ne u ?_).trans hu
    simp only [tunPortFields, List.forall_mem_cons, List.not_mem_nil, false_implies, implies_true, and_true, TT_STATE_MODE, TT_ALLOT_ACT, TT_ALLOT_NEXT, TT_SEQ_INSEQ,
      TT_SEQ_OUTSEQ, TT_SEGIN_COUNT, TT_SEGOUT_COUNT]
    simp only [fld] at hgrove ⊢
    omega
  unfold portCleared
  generalize portRestored p w = x at hrestored
  dsimp only
  split
  · rw [State.rd_wr_ne _ _ _ _ hadp, State.rd_setAdp, State.rd_setCan, State.rd_setEg, hrestored]
  · rw [State.rd_setAdp, State.rd_setCan, State.rd_setEg, hrestored]

theorem testEn_portFields {c : Nat} (hc : c < 40) (p : Nat) (cs : List Nat) : ∀ g ∈ portFields p cs, (LC_TEST_EN c).key ≠ g.key := by
  have := portPlace_lt p
  have := portGrove_lt p
  intro g hg
  rcases mem_portFields hg with h | ⟨-, h | ⟨j, hj, rfl⟩ | ⟨j, hj, rfl⟩⟩ | ⟨d, -, h⟩
  · have hlt : ∀ g ∈ portReach p, g.key < 0x1000000 := by
      simp only [portReach, List.forall_mem_cons, List.not_mem_nil, false_implies, implies_true, and_true, portReg, fld, GRV_FLOW_STALL, GRV_FLOW_HEAD, GRV_FLOW_ICL,
        GRV_FLST_EGHELD, GRV_FLST_INHELD, GRV_FLST_TIMER, GRV_CALST_BT, ADP_STAT_STATE, ADP_STAT_PERS, ADP_STAT_RATE, ADP_STAT_WIDTH, ADP_STAT_SPEED, ADP_PCIE_EJREQ,
        ADP_PCIE_PRESENT, ADP_PCIE_DLLACT, ADP_PCIE_PIND, ADP_DP_SINKDSC]
      omega
    have := hlt g h
    simp only [LC_TEST_EN, fld]
    omega
  · clear hg
    revert g
    simp only [canReach, List.forall_mem_cons, List.not_mem_nil, false_implies, implies_true, and_true, portReg, fld, LC_TEST_EN, CAN_CTL_RETRAIN, CAN_STAT_STATE,
      CAN_STAT_MODE, CAN_STAT_ROLE, CAN_STAT_PKIND, CAN_STAT_TXEP, CAN_STAT_RXEP, CAN_ERR_UNCORR, CAN_ERR_RNAKTX, CAN_ERR_RNAKRX, CAN_ERR_CSLOT, CAN_ERR2_EARLY,
      TIM_LNKOFF_OFF, TIM_LNKDLY_DLY, TIM_LNK_SEQ, TIM_LNK_MISSED, TIM_LNK_EXCH]
    omega
  · simp only [LC_TEST_EN, CAN_PEER_V, fld, portReg]
    omega
  · simp only [LC_TEST_EN, CAN_THASH_V, fld, portReg]
    omega
  · clear hg
    revert g
    simp only [cellReach, List.forall_mem_cons, List.not_mem_nil, false_implies, implies_true, and_true, LC_CTL_RTRN, LC_STAT_STATE, LC_TEST_EN,
      LC_STAT_RATE, LC_STAT_ORIENT, LC_STAT_LOCKA, LC_STAT_LOCKB, LC_STAT_INVA, LC_STAT_INVB, LC_STAT_RANKA, LC_STAT_RANKB, LC_RTR_CONSEC,
      LC_FECA_CORR, LC_FECA_UNCORR, LC_FECB_CORR, LC_FECB_UNCORR, LC_HOLD_USED, LC_HOLD_PEAK, fld]
    omega

theorem lc_portCleared (p : Nat) (s : State) : (portCleared p s).lc = s.lc := by
  have hres : (portRestored p s).lc = s.lc := portRestored_frame (k := 14) rfl s
  unfold portCleared
  generalize portRestored p s = x at hres
  dsimp only
  rw [← hres]
  split <;> rfl

theorem rd_testEn_portCleared {c : Nat} (hc : c < 40) (p : Nat) (s : State) : (portCleared p s).rd (LC_TEST_EN c) = s.rd (LC_TEST_EN c) := by
  have := portPlace_lt p
  have := portGrove_lt p
  have hadp : (LC_TEST_EN c).key ≠ (ADP_STAT_STATE p).key := by
    simp only [LC_TEST_EN, ADP_STAT_STATE, fld, portReg]
    omega
  have hres : (portRestored p s).rd (LC_TEST_EN c) = s.rd (LC_TEST_EN c) := by
    refine forAll_induction (P := fun u => u.rd (LC_TEST_EN c) = s.rd (LC_TEST_EN c)) (rd_restore_ne s (testEn_portFields hc p _)) fun n _ u hu => ?_
    refine (rd_restore_ne u ?_).trans hu
    simp only [tunPortFields, List.forall_mem_cons, List.not_mem_nil, false_implies, implies_true, and_true, TT_STATE_MODE, TT_ALLOT_ACT, TT_ALLOT_NEXT, TT_SEQ_INSEQ,
      TT_SEQ_OUTSEQ, TT_SEGIN_COUNT, TT_SEGOUT_COUNT, LC_TEST_EN, fld]
    omega
  unfold portCleared
  generalize portRestored p s = x at hres
  dsimp only
  split
  · rw [State.rd_wr_ne _ _ _ _ hadp, State.rd_setAdp, State.rd_setCan, State.rd_setEg, hres]
  · rw [State.rd_setAdp, State.rd_setCan, State.rd_setEg, hres]

theorem testEn_lcState (c d : Nat) : (LC_TEST_EN c).key ≠ (LC_STAT_STATE d).key := by
  simp only [LC_TEST_EN, LC_STAT_STATE, fld]
  omega

theorem faulted_laneReset (held : Bool) (c d : Nat) (u : State) : ((laneReset held d u).lane c).faulted = (u.lane c).faulted := by
  unfold laneReset
  dsimp only
  by_cases h : c = d
  · subst h
    split
    · rw [State.lane_wr, State.lane_setLane_same]
    · split
      · rw [State.lane_wr, State.lane_setLane_same]
      · rw [State.lane_setLane_same]
  · split
    · rw [State.lane_wr, State.lane_setLane_ne _ _ _ _ h]
    · split
      · rw [State.lane_wr, State.lane_setLane_ne _ _ _ _ h]
      · rw [State.lane_setLane_ne _ _ _ _ h]

theorem laneReset_held {c : Nat} {u : State} (hf : (u.lane c).faulted = false) (ht : u.rd (LC_TEST_EN c) = 0) :
    (laneReset true c u).rd (LC_STAT_STATE c) = 7 := by
  have hon : (u.setLane c { faulted := (u.lane c).faulted, chkAt := (u.lane c).chkAt, arrivals := (u.lane c).arrivals }).on (LC_TEST_EN c) = false := by
    simp [State.on, ht]
  unfold laneReset
  dsimp only
  rw [hf] at hon ⊢
  rw [if_neg Bool.false_ne_true, if_pos rfl, hon, if_neg Bool.false_ne_true]
  exact rd_wr_of_lt _ _ _ (show 7 < 2 ^ 4 by decide)

/-- A healthy cell outside test mode of a port that is held when it goes down is held (R272). -/
theorem rd_lcState_portDown_held {p c : Nat} {s : State} (hlt : c < 40) (hc : c ∈ groupCells s p) (hheld : s.rd (LC_CTL_HOLD c) ≠ 0) (hf : (s.lane c).faulted = false)
    (ht : s.rd (LC_TEST_EN c) = 0) (k : Nat) : (portDown p k s).rd (LC_STAT_STATE c) = 7 := by
  have hleaf : ¬ leafKey (LC_STAT_STATE c).key := (groveUp_lane c _ (by simp)).2
  have hrange : 0x1000000 ≤ (LC_STAT_STATE c).key ∧ (LC_STAT_STATE c).key < 0x2000000 := by
    simp only [LC_STAT_STATE, fld]
    omega
  have hdrop := onlyKeys_dropTunnels (K := fun k => 0x2000000 ≤ k) (fun _ h => h) p k s
  have hdt : (dropTunnels p k s).rd (LC_TEST_EN c) = 0 := (hdrop.1 _ (by simp only [LC_TEST_EN, fld]; omega)).trans ht
  have hdh : (dropTunnels p k s).rd (LC_CTL_HOLD c) ≠ 0 := by
    rw [hdrop.1 _ (by simp only [LC_CTL_HOLD, fld]; omega)]
    exact hheld
  have hlc : (dropTunnels p k s).lc = s.lc := dropTunnels_frame (κ := 14) rfl (.refl 14 s)
  have hcells : groupCells (dropTunnels p k s) p = groupCells s p := groupCells_of_ld (dropTunnels_frame (κ := 8) rfl (.refl 8 s)) p
  rw [rd_portDown_of_reset hleaf hrange.2, portReset_eq]
  dsimp only
  have hdf : ((dropTunnels p k s).lane c).faulted = false := by rw [State.lane, hlc]; exact hf
  rw [← hcells] at hc
  generalize dropTunnels p k s = w at hdt hdh hdf hc
  rw [State.rd_wr_ne _ _ _ _ (fun e => absurd (e ▸ hrange.1) (by decide)), State.rd_wr_ne _ _ _ _ (fun e => absurd (e ▸ hrange.1) (by decide))]
  have hany : ((groupCells w p).any fun d => w.on (LC_CTL_HOLD d)) = true := List.any_eq_true.2 ⟨c, hc, by simpa [State.on] using hdh⟩
  rw [hany]
  have hhealthy : ((forAll (groupCells w p) (laneReset true) (portCleared p w)).lane c).faulted = false ∧
      (forAll (groupCells w p) (laneReset true) (portCleared p w)).rd (LC_TEST_EN c) = 0 := by
    refine forAll_induction (P := fun u => (u.lane c).faulted = false ∧ u.rd (LC_TEST_EN c) = 0) ⟨?_, ?_⟩ fun d _ u hu => ⟨?_, ?_⟩
    · rw [State.lane, lc_portCleared]
      exact hdf
    · rw [rd_testEn_portCleared hlt, hdt]
    · rw [faulted_laneReset, hu.1]
    · rw [(onlyKeys_laneReset true d u).1 _ (testEn_lcState c d), hu.2]
  refine forAll_establishes (P := fun u => (u.lane c).faulted = false ∧ u.rd (LC_TEST_EN c) = 0 → u.rd (LC_STAT_STATE c) = 7) (portCleared p w) hc (fun u hu => ?_)
    (fun d _ u hu hnew => ?_) hhealthy
  · rw [faulted_laneReset, (onlyKeys_laneReset true c u).1 _ (testEn_lcState c c)] at hu
    exact laneReset_held hu.1 hu.2
  · rw [faulted_laneReset, (onlyKeys_laneReset true d u).1 _ (testEn_lcState c d)] at hnew
    by_cases h : c = d
    · exact h ▸ laneReset_held hnew.1 hnew.2
    · rw [(onlyKeys_laneReset true d u).1 _ fun e => h (lcState_key_inj e)]
      exact hu hnew

/-! ### What the loss of a link or of a cell writes -/

/-- The registers that port-downs, attach events and trainings can write: the groves', the links' time, the leaves, the causes of a port reset and the
settle timer's. -/
def lossKey (k : Nat) : Prop := groveUp k ∨ leafKey k ∨ (0x280000 ≤ k ∧ k < 0x300000) ∨
  k ∈ [PST_PSSTAT_STATE.key, PST_PSCTL_GO.key, PST_SOLVE_BUSY.key, PST_SOLVE_ARMED.key, PST_SOLVE_CANCEL.key, FAB_STATUS_MAPPEND.key, SYS_SETTLE_PEND.key,
    SYS_SETTLE_RUN.key, SYS_GUARD_SETTLED.key, RST_PRTRC_PORTS.key, RST_CAUSE_PORT.key]

theorem lossKey_leaf (u : Nat) : lossKey (EVSTAT u).key := .inr (.inl (leafKey_evstat u))

theorem lossKey_of_attachKeys {k : Nat} (h : attachKeys k) : lossKey k := by
  rcases h with h | ⟨d, rfl⟩ | ⟨n, rfl | rfl⟩
  · simp only [List.mem_cons, List.not_mem_nil, or_false] at h
    rcases h with rfl | rfl | rfl | rfl | rfl | rfl | rfl | rfl | rfl | rfl
    case inr.inr.inl => exact lossKey_leaf 16
    all_goals exact .inr (.inr (.inr (by simp)))
  all_goals
    left
    simp only [groveUp, PIPE_CTL_FHOLD, TT_STATE_STATE, TT_STATE_GEN, fld]
    omega

theorem lossKey_of_portDownKeys {p k : Nat} {cs : List Nat} (h : portDownKeys p cs k) : lossKey k := by
  rcases h with h | ⟨f, hf, rfl⟩ | ⟨hp, ⟨f, hf, rfl⟩ | ⟨j, hj, rfl⟩ | ⟨j, hj, rfl⟩⟩ | ⟨c, hc, f, hf, rfl⟩ | rfl | rfl | rfl
  · exact .inl (Nat.le_trans (by decide) h)
  · left
    revert f
    simp only [portReach, List.forall_mem_cons, List.not_mem_nil, false_implies, implies_true, and_true, groveUp, portReg, fld, GRV_FLOW_STALL, GRV_FLOW_HEAD,
      GRV_FLOW_ICL, GRV_FLST_EGHELD, GRV_FLST_INHELD, GRV_FLST_TIMER, GRV_CALST_BT, ADP_STAT_STATE, ADP_STAT_PERS, ADP_STAT_RATE, ADP_STAT_WIDTH, ADP_STAT_SPEED,
      ADP_PCIE_EJREQ, ADP_PCIE_PRESENT, ADP_PCIE_DLLACT, ADP_PCIE_PIND, ADP_DP_SINKDSC]
    omega
  · have hnear : 0x800000 ≤ f.key ∨ 0x280000 ≤ f.key ∧ f.key < 0x300000 := by
      revert f
      simp only [canReach, List.forall_mem_cons, List.not_mem_nil, false_implies, implies_true, and_true, portReg, fld, CAN_CTL_RETRAIN, CAN_STAT_STATE,
        CAN_STAT_MODE, CAN_STAT_ROLE, CAN_STAT_PKIND, CAN_STAT_TXEP, CAN_STAT_RXEP, CAN_ERR_UNCORR, CAN_ERR_RNAKTX, CAN_ERR_RNAKRX, CAN_ERR_CSLOT, CAN_ERR2_EARLY,
        TIM_LNKOFF_OFF, TIM_LNKDLY_DLY, TIM_LNK_SEQ, TIM_LNK_MISSED, TIM_LNK_EXCH]
      omega
    exact hnear.imp id fun h => .inr (.inl h)
  · left
    simp only [groveUp, portReg, fld, CAN_PEER_V]
    omega
  · left
    simp only [groveUp, portReg, fld, CAN_THASH_V]
    omega
  · left
    revert f
    simp only [cellReach, List.forall_mem_cons, List.not_mem_nil, false_implies, implies_true, and_true, groveUp, LC_CTL_RTRN, LC_STAT_STATE,
      LC_STAT_RATE, LC_STAT_ORIENT, LC_STAT_LOCKA, LC_STAT_LOCKB, LC_STAT_INVA, LC_STAT_INVB, LC_STAT_RANKA, LC_STAT_RANKB, LC_RTR_CONSEC,
      LC_FECA_CORR, LC_FECA_UNCORR, LC_FECB_CORR, LC_FECB_UNCORR, LC_HOLD_USED, LC_HOLD_PEAK, fld]
    omega
  · exact .inr (.inr (.inr (by simp)))
  · exact .inr (.inr (.inr (by simp)))
  · exact lossKey_leaf _

theorem lossKey_of_trainedKey {k : Nat} (h : trainedKey k) : lossKey k := .inl (groveUp_of_trainedKey h)

theorem lossKey_lane (c : Nat) : lossKey (LC_STAT_STATE c).key := .inl (groveUp_lane c _ (by simp)).1

theorem lossKey_of_trainKey {k : Nat} (h : trainKey k) : lossKey k := by
  left
  unfold trainKey at h
  unfold groveUp
  omega

theorem onlyKeys_portDown_loss (p c : Nat) (s : State) : onlyKeys lossKey s (portDown p c s) := (onlyKeys_portDown p c s).mono fun _ => lossKey_of_portDownKeys

theorem onlyKeys_attachEvent_loss (s : State) : onlyKeys lossKey s (attachEvent s) := (onlyKeys_attachEvent s).mono fun _ => lossKey_of_attachKeys

theorem onlyKeys_portDownAttached_loss (p c : Nat) (s : State) : onlyKeys lossKey s (portDownAttached p c s) :=
  .setEg ((onlyKeys_portDown_loss p c s).trans (onlyKeys_attachEvent_loss _))

theorem onlyKeys_structuralEvent_loss (s : State) : onlyKeys lossKey s (structuralEvent s) := (onlyKeys_structuralEvent s).mono fun _ => lossKey_of_attachKeys

theorem onlyKeys_startTraining_loss (p : Nat) (s : State) : onlyKeys lossKey s (startTraining p s) := (onlyKeys_startTraining p s).mono fun _ => lossKey_of_trainedKey

theorem onlyKeys_startCanopy_loss (p : Nat) (s : State) : onlyKeys lossKey s (startCanopy p s) := (onlyKeys_startCanopy p s).mono fun _ => lossKey_of_trainedKey

theorem onlyKeys_clearPort (p : Nat) (s : State) : onlyKeys lossKey s (clearPort p s) :=
  .forAll ((onlyKeys_restore_portFields p _ s).mono fun _ => lossKey_of_portDownKeys) fun c _ u =>
    .ite (.wr (.refl _ u) (lossKey_lane c) (groveUp_lane c _ (by simp)).2) (.refl _ u)

theorem onlyKeys_retrainPort (p : Nat) (s : State) : onlyKeys lossKey s (retrainPort p s) := by
  unfold retrainPort
  exact .ite ((onlyKeys_portDown_loss p 1 s).trans ((onlyKeys_attachEvent_loss _).trans (onlyKeys_startTraining_loss p _)))
    (.ite ((onlyKeys.setCan (onlyKeys_clearPort p s)).trans (onlyKeys_startCanopy_loss p _)) (.refl _ s))

theorem onlyKeys_trainCells_loss (p st : Nat) (s : State) : onlyKeys lossKey s (trainCells p st s) := (onlyKeys_trainCells p st s).mono fun _ => lossKey_of_trainKey

theorem byteTime_field (p : Nat) : lossKey (GRV_CALST_BT p).key ∧ ¬ leafKey (GRV_CALST_BT p).key := by
  have := portPlace_lt p
  simp only [lossKey, groveUp, leafKey, GRV_CALST_BT, portReg, fld]
  omega

theorem width_field (p : Nat) : ∀ f ∈ [ADP_STAT_WIDTH p, ADP_STAT_STATE p, ADP_STAT_PERS p], lossKey f.key ∧ ¬ leafKey f.key := by
  have := portPlace_lt p
  simp only [List.forall_mem_cons, List.not_mem_nil, false_implies, implies_true, and_true, lossKey, groveUp, leafKey, ADP_STAT_WIDTH, ADP_STAT_STATE, ADP_STAT_PERS,
    portReg, fld]
  omega


theorem laneDir_field (c : Nat) : lossKey (LC_STAT_DIR c).key ∧ ¬ leafKey (LC_STAT_DIR c).key :=
  ⟨.inl (groveUp_lane c _ (by simp)).1, (groveUp_lane c _ (by simp)).2⟩

theorem linkMode_field (p : Nat) : lossKey (CAN_STAT_MODE p).key ∧ ¬ leafKey (CAN_STAT_MODE p).key :=
  ⟨.inl (groveUp_link p _ (by simp)).1, (groveUp_link p _ (by simp)).2⟩

theorem onlyKeys_singleTaken (c : Nat) (s : State) : onlyKeys lossKey s (singleTaken c s) :=
  .forAll (.wr (.wr (.wr (.setCan (.refl _ s)) (linkMode_field _).1 (linkMode_field _).2) (byteTime_field _).1 (byteTime_field _).2) (laneDir_field c).1 (laneDir_field c).2)
    fun d _ u => .wr (.refl _ u) (lossKey_lane d) (groveUp_lane d _ (by simp)).2

/-- Single-cell mode is entered in the registers before the cell trains; the rest of the entry is the partner's rate. -/
theorem enterSingle_trains (c : Nat) (s : State) : ∃ u : State, u.regs = (singleTaken c s).regs ∧ u.lc = (singleTaken c s).lc ∧ enterSingle c s = trainSingle (cellPort c) u := by
  have henter : enterSingle c s = match mfind (singleTaken c s).sv.att (cellPort c) with
      | none => trainSingle (cellPort c) (singleTaken c s)
      | some q => trainSingle (cellPort c) { singleTaken c s with sv := { (singleTaken c s).sv with
          att := mins (singleTaken c s).sv.att (cellPort c) { q with txMbps := 76800, rxMbps := 76800 } } } := rfl
  rw [henter]
  split
  · exact ⟨_, rfl, rfl, rfl⟩
  · refine ⟨_, ?_, ?_, rfl⟩ <;> rfl

theorem onlyKeys_takeSingle (c : Nat) (s : State) : onlyKeys lossKey s (takeSingle c s) := by
  have henter : onlyKeys lossKey s (enterSingle c s) := by
    obtain ⟨u, hr, -, he⟩ := enterSingle_trains c s
    rw [he]
    exact (onlyKeys.of_regs (onlyKeys_singleTaken c s) hr).trans ((onlyKeys_trainSingle _ u).mono fun _ => lossKey_of_trainKey)
  unfold takeSingle
  exact .ite (.refl _ s) (.ite (henter.trans (onlyKeys_structuralEvent_loss _)) (.ite henter (.refl _ s)))

theorem onlyKeys_reduceRate (p num den : Nat) (s : State) : onlyKeys lossKey s (reduceRate p num den s) := by
  unfold reduceRate
  split
  · exact .refl _ s
  · exact .wr (.of_regs (.refl _ s) rfl) (byteTime_field p).1 (byteTime_field p).2

theorem onlyKeys_narrowTo (p w : Nat) (s : State) : onlyKeys lossKey s (narrowTo p w s) := by
  have hw : onlyKeys lossKey s (s.wr (ADP_STAT_WIDTH p) w) := .wr (.refl _ s) (width_field p _ (by simp)).1 (width_field p _ (by simp)).2
  have hrate := hw.trans (onlyKeys_reduceRate p w (max 1 (s.rd (ADP_STAT_WIDTH p))) (s.wr (ADP_STAT_WIDTH p) w))
  unfold narrowTo
  refine onlyKeys.trans ?_ (onlyKeys_structuralEvent_loss _)
  split
  · exact hrate
  · exact .of_regs hrate rfl

theorem onlyKeys_degradePort (p : Nat) (s : State) : onlyKeys lossKey s (degradePort p s) := by
  have hfield {t : State} {f : Fld} (v : Nat) (hf : f ∈ [ADP_STAT_WIDTH p, ADP_STAT_STATE p, ADP_STAT_PERS p]) : onlyKeys lossKey t (t.wr f v) :=
    .wr (.refl _ t) (width_field p _ hf).1 (width_field p _ hf).2
  unfold degradePort
  refine .ite (.refl _ s) (.ite (onlyKeys_portDownAttached_loss p 1 s) (.ite ?_ (.ite ?_ (.ite ?_ (.ite ?_ (.ite ?_ (.ite ?_ ?_)))))))
  · split
    · exact onlyKeys_takeSingle _ s
    · exact .refl _ s
  · exact (onlyKeys_reduceRate p 1 2 s).trans (onlyKeys_structuralEvent_loss _)
  · exact onlyKeys_retrainPort p s
  · exact (hfield 1 (by simp)).trans (onlyKeys_structuralEvent_loss _)
  · exact (hfield 5 (by simp)).trans (onlyKeys_narrowTo p 1 _)
  · exact onlyKeys_narrowTo p _ s
  · exact onlyKeys_portDownAttached_loss p 1 s

/-! ### A cell in FAULT -/

/-- A lane cell is in FAULT and shows it. -/
def inFault (c : Nat) (s : State) : Prop := (s.lane c).faulted = true ∧ s.rd (LC_STAT_STATE c) = 9

theorem inFault.of_same {c : Nat} {s t : State} (h : inFault c s) (hl : t.lc = s.lc) (hr : t.rd (LC_STAT_STATE c) = s.rd (LC_STAT_STATE c)) : inFault c t :=
  ⟨by rw [State.lane, hl]; exact h.1, hr.trans h.2⟩

theorem inFault_laneReset {c : Nat} (held : Bool) (d : Nat) {u : State} (h : (u.lane c).faulted = true) :
    ((laneReset held d u).lane c).faulted = true ∧ (c = d ∨ u.rd (LC_STAT_STATE c) = 9 → (laneReset held d u).rd (LC_STAT_STATE c) = 9) := by
  refine ⟨(faulted_laneReset held c d u).trans h, fun hcd => ?_⟩
  by_cases e : c = d
  · subst e
    unfold laneReset
    dsimp only
    rw [if_pos h]
    exact rd_wr_of_lt _ _ _ (show 9 < 2 ^ 4 by decide)
  · rw [(onlyKeys_laneReset held d u).1 _ fun h => e (lcState_key_inj h)]
    exact hcd.resolve_left e

/-- A cell of another port keeps its state when a port goes down. -/
theorem lcState_not_portDownKeys {c p : Nat} (hc : c < 40) {cs : List Nat} (h : c ∉ cs) : ¬ portDownKeys p cs (LC_STAT_STATE c).key := by
  have := portPlace_lt p
  have := portGrove_lt p
  have hleaf : ¬ leafKey (LC_STAT_STATE c).key := (groveUp_lane c _ (by simp)).2
  have hrange : 0x1000000 ≤ (LC_STAT_STATE c).key ∧ (LC_STAT_STATE c).key < 0x2000000 := by
    simp only [LC_STAT_STATE, fld]
    omega
  rintro (hk | ⟨f, hf, hk⟩ | ⟨hp, ⟨f, hf, hk⟩ | ⟨j, hj, hk⟩ | ⟨j, hj, hk⟩⟩ | ⟨d, hd, f, hf, hk⟩ | hk | hk | hk)
  · omega
  · have hlt : f.key < 0x1000000 := by
      clear hk
      revert f
      simp only [portReach, List.forall_mem_cons, List.not_mem_nil, false_implies, implies_true, and_true, portReg, fld, GRV_FLOW_STALL, GRV_FLOW_HEAD,
        GRV_FLOW_ICL, GRV_FLST_EGHELD, GRV_FLST_INHELD, GRV_FLST_TIMER, GRV_CALST_BT, ADP_STAT_STATE, ADP_STAT_PERS, ADP_STAT_RATE, ADP_STAT_WIDTH, ADP_STAT_SPEED,
        ADP_PCIE_EJREQ, ADP_PCIE_PRESENT, ADP_PCIE_DLLACT, ADP_PCIE_PIND, ADP_DP_SINKDSC]
      omega
    omega
  · have hlt : f.key < 0x1000000 := by
      clear hk
      revert f
      simp only [canReach, List.forall_mem_cons, List.not_mem_nil, false_implies, implies_true, and_true, portReg, fld, CAN_CTL_RETRAIN, CAN_STAT_STATE,
        CAN_STAT_MODE, CAN_STAT_ROLE, CAN_STAT_PKIND, CAN_STAT_TXEP, CAN_STAT_RXEP, CAN_ERR_UNCORR, CAN_ERR_RNAKTX, CAN_ERR_RNAKRX, CAN_ERR_CSLOT, CAN_ERR2_EARLY,
        TIM_LNKOFF_OFF, TIM_LNKDLY_DLY, TIM_LNK_SEQ, TIM_LNK_MISSED, TIM_LNK_EXCH]
      omega
    omega
  · simp only [CAN_PEER_V, fld, portReg] at hk hrange
    omega
  · simp only [CAN_THASH_V, fld, portReg] at hk hrange
    omega
  · have hcd : (LC_STAT_STATE c).key = f.key → c = d := by
      clear hk
      revert f
      simp only [cellReach, List.forall_mem_cons, List.not_mem_nil, false_implies, implies_true, and_true, LC_CTL_RTRN, LC_STAT_STATE,
        LC_STAT_RATE, LC_STAT_ORIENT, LC_STAT_LOCKA, LC_STAT_LOCKB, LC_STAT_INVA, LC_STAT_INVB, LC_STAT_RANKA, LC_STAT_RANKB, LC_RTR_CONSEC,
        LC_FECA_CORR, LC_FECA_UNCORR, LC_FECB_CORR, LC_FECB_UNCORR, LC_HOLD_USED, LC_HOLD_PEAK, fld]
      omega
    exact h (hcd hk ▸ hd)
  · exact absurd (hk ▸ hrange.1) (by decide)
  · exact absurd (hk ▸ hrange.1) (by decide)
  · exact hleaf (hk ▸ leafKey_evstat _)

theorem inFault_portDown {c : Nat} (hc : c < 40) (p k : Nat) {s : State} (h : inFault c s) : inFault c (portDown p k s) := by
  have hleaf : ¬ leafKey (LC_STAT_STATE c).key := (groveUp_lane c _ (by simp)).2
  have hrange : 0x1000000 ≤ (LC_STAT_STATE c).key ∧ (LC_STAT_STATE c).key < 0x2000000 := by
    simp only [LC_STAT_STATE, fld]
    omega
  have hdrop : (dropTunnels p k s).lc = s.lc := dropTunnels_frame (κ := 14) rfl (.refl 14 s)
  have hgroup : groupCells (dropTunnels p k s) p = groupCells s p := groupCells_of_ld (dropTunnels_frame (κ := 8) rfl (.refl 8 s)) p
  have hfault : ((portCleared p (dropTunnels p k s)).lane c).faulted = true := by
    rw [State.lane, lc_portCleared, hdrop]
    exact h.1
  have hlc : (portDown p k s).lc = (portReset p (dropTunnels p k s)).lc := frame_portDown (k := 14) rfl p k s
  have hreset : (portReset p (dropTunnels p k s)).lc = (forAll (groupCells s p) (laneReset ((groupCells s p).any fun d => (dropTunnels p k s).on (LC_CTL_HOLD d)))
      (portCleared p (dropTunnels p k s))).lc := by
    rw [portReset_eq, hgroup]
    rfl
  constructor
  · rw [State.lane, hlc, hreset]
    exact forAll_induction (P := fun u => (u.lane c).faulted = true) hfault fun d _ u hu => (inFault_laneReset _ d hu).1
  · by_cases hcell : c ∈ groupCells s p
    · rw [rd_portDown_of_reset hleaf hrange.2, portReset_eq, hgroup]
      dsimp only
      generalize ((groupCells s p).any fun d => (dropTunnels p k s).on (LC_CTL_HOLD d)) = held
      rw [State.rd_wr_ne _ _ _ _ (fun e => absurd (e ▸ hrange.1) (by decide)), State.rd_wr_ne _ _ _ _ (fun e => absurd (e ▸ hrange.1) (by decide))]
      refine forAll_establishes (P := fun u => (u.lane c).faulted = true → u.rd (LC_STAT_STATE c) = 9) _ hcell (fun u hu => ?_) (fun d _ u hu hnew => ?_) ?_
      · exact (inFault_laneReset held c ((faulted_laneReset held c c u).symm.trans hu)).2 (.inl rfl)
      · have hold := (faulted_laneReset held c d u).symm.trans hnew
        exact (inFault_laneReset held d hold).2 (.inr (hu hold))
      · exact forAll_induction (P := fun u => (u.lane c).faulted = true) hfault fun d _ u hu => (inFault_laneReset held d hu).1
    · exact ((onlyKeys_portDown p k s).1 _ (lcState_not_portDownKeys hc hcell)).trans h.2

theorem not_attachKeys_lane (c : Nat) (hc : c < 40) : ¬ attachKeys (LC_STAT_STATE c).key := by
  have hleaf : ¬ leafKey (LC_STAT_STATE c).key := (groveUp_lane c _ (by simp)).2
  have hrange : 0x1000000 ≤ (LC_STAT_STATE c).key := by
    simp only [LC_STAT_STATE, fld]
    omega
  rintro (h | ⟨d, h⟩ | ⟨n, h | h⟩)
  · simp only [List.mem_cons, List.not_mem_nil, or_false] at h
    rcases h with h | h | h | h | h | h | h | h | h | h
    case inl.inr.inr.inl => exact hleaf (h ▸ leafKey_evstat 16)
    all_goals exact absurd (h ▸ hrange) (by decide)
  all_goals
    simp only [LC_STAT_STATE, PIPE_CTL_FHOLD, TT_STATE_STATE, TT_STATE_GEN, fld] at h
    omega

theorem inFault_attachEvent {c : Nat} (hc : c < 40) {s : State} (h : inFault c s) : inFault c (attachEvent s) :=
  h.of_same (lc_attachEvent s) ((onlyKeys_attachEvent s).1 _ (not_attachKeys_lane c hc))

theorem inFault_structuralEvent {c : Nat} (hc : c < 40) {s : State} (h : inFault c s) : inFault c (structuralEvent s) :=
  h.of_same (structuralEvent_frame (κ := 14) rfl (.refl 14 s)) ((onlyKeys_structuralEvent s).1 _ (not_attachKeys_lane c hc))

theorem inFault_portDownAttached {c : Nat} (hc : c < 40) (p k : Nat) {s : State} (h : inFault c s) : inFault c (portDownAttached p k s) :=
  (inFault_attachEvent hc (inFault_portDown hc p k h)).of_same rfl rfl

/-- A write to fields that are not the cell's state. -/
theorem inFault.wrs {c : Nat} {s : State} {l : List (Fld × Nat)} (h : inFault c s) (hl : ∀ e ∈ l, (LC_STAT_STATE c).key ≠ e.1.key) : inFault c (s.wrs l) :=
  h.of_same (wrs_frame (k := 14) rfl (.refl 14 s)) (State.rd_wrs_ne s l _ hl)

theorem lane_apart {c d : Nat} (h : c ≠ d) : ∀ f ∈ [LC_STAT_STATE d, LC_STAT_RATE d, LC_STAT_ORIENT d, LC_STAT_DIR d, lockF d false, lockF d true],
    (LC_STAT_STATE c).key ≠ f.key := by
  simp only [List.forall_mem_cons, List.not_mem_nil, false_implies, implies_true, and_true, LC_STAT_STATE, LC_STAT_RATE, LC_STAT_ORIENT, LC_STAT_DIR, lockF,
    LC_STAT_LOCKA, LC_STAT_LOCKB, fld, Bool.false_eq_true, if_false, if_true]
  omega

theorem link_apart (c p : Nat) : ∀ f ∈ [CAN_STAT_STATE p, CAN_STAT_MODE p, CAN_STAT_ROLE p, ADP_STAT_STATE p, GRV_CALST_BT p, ADP_STAT_WIDTH p, ADP_STAT_PERS p],
    (LC_STAT_STATE c).key ≠ f.key := by
  have := portPlace_lt p
  have := portGrove_lt p
  simp only [List.forall_mem_cons, List.not_mem_nil, false_implies, implies_true, and_true, LC_STAT_STATE, CAN_STAT_STATE, CAN_STAT_MODE, CAN_STAT_ROLE, ADP_STAT_STATE,
    GRV_CALST_BT, ADP_STAT_WIDTH, ADP_STAT_PERS, portReg, fld]
  omega

theorem healthy_of_mem {s : State} {c d : Nat} {cs : List Nat} (hc : (s.lane c).faulted = true) (hd : d ∈ cs.filter fun x => !(s.lane x).faulted) : c ≠ d := by
  rintro rfl
  simp [hc] at hd

theorem healthy_of_live {s : State} {c d p : Nat} (hc : (s.lane c).faulted = true) (hd : d ∈ liveCells s p) : c ≠ d := by
  rintro rfl
  simp [liveCells, hc] at hd

theorem inFault.setLane {c d : Nat} {s : State} {x : Lane} (h : inFault c s) (hd : c ≠ d) : inFault c (s.setLane d x) :=
  ⟨by rw [State.lane_setLane_ne _ _ _ _ hd]; exact h.1, (State.rd_setLane _ _ _ _).trans h.2⟩

theorem inFault_setDirs {c : Nat} (p m : Nat) {s : State} (h : inFault c s) : inFault c (setDirs p m s) := by
  refine forAll_induction (P := inFault c) h fun d _ u hu => hu.of_same rfl (State.rd_wr_ne _ _ _ _ ?_)
  simp only [LC_STAT_STATE, LC_STAT_DIR, fld]
  omega

theorem inFault_cellStarts {c d : Nat} (p : Nat) {u : State} (h : inFault c u) (hd : c ≠ d) : inFault c (cellStarts p d u) := by
  refine (h.wrs ?_).setLane hd
  simp only [List.forall_mem_cons, List.not_mem_nil, false_implies, implies_true, and_true]
  exact ⟨lane_apart hd _ (by simp), lane_apart hd _ (by simp), lane_apart hd _ (by simp), lane_apart hd _ (by simp), lane_apart hd _ (by simp)⟩

theorem inFault_startCanopy {c : Nat} (p : Nat) {s : State} (h : inFault c s) : inFault c (startCanopy p s) := by
  rw [startCanopy_eq]
  have hbegun : inFault c (canopyBegun p s) := h.of_same rfl rfl
  generalize canopyBegun p s = t at hbegun
  generalize (match (portCells p).filter fun c => (s.lane c).faulted with | [] => 0 | c :: _ => if isY c then 1 else 2) = sg
  unfold canopyCells
  split
  · exact hbegun
  · refine forAll_induction (P := inFault c) (inFault_setDirs _ _ (hbegun.wrs ?_)) fun d hd u hu => inFault_cellStarts p hu (healthy_of_live hbegun.1 hd)
    simp only [List.forall_mem_cons, List.not_mem_nil, false_implies, implies_true, and_true]
    exact ⟨link_apart c p _ (by simp), link_apart c p _ (by simp), link_apart c p _ (by simp)⟩

theorem inFault_startTraining {c : Nat} (p : Nat) {s : State} (h : inFault c s) : inFault c (startTraining p s) := by
  unfold startTraining
  split
  · exact inFault_startCanopy p h
  · refine forAll_induction (P := inFault c) (h.of_same rfl (State.rd_wr_ne _ _ _ _ (link_apart c p _ (by simp)))) fun d hd u hu => hu.wrs ?_
    have hcd := healthy_of_mem h.1 hd
    simp only [List.forall_mem_cons, List.not_mem_nil, false_implies, implies_true, and_true]
    exact ⟨lane_apart hcd _ (by simp), lane_apart hcd _ (by simp)⟩

theorem inFault_clearPort {c : Nat} (hc : c < 40) (p : Nat) {s : State} (h : inFault c s) : inFault c (clearPort p s) := by
  have hlc : (restore (portFields p (portCells p)) s).lc = s.lc := restore_frame (κ := 14) rfl (.refl 14 s)
  have hfault : ((restore (portFields p (portCells p)) s).lane c).faulted = true := by
    rw [State.lane, hlc]
    exact h.1
  have hkeep (d : Nat) (u : State) : ((if (u.lane d).faulted then u.wr (LC_STAT_STATE d) 9 else u).lane c).faulted = (u.lane c).faulted := by split <;> rfl
  have hall : ((clearPort p s).lane c).faulted = true :=
    forAll_induction (P := fun u => (u.lane c).faulted = true) hfault fun d _ u hu => (hkeep d u).trans hu
  refine ⟨hall, ?_⟩
  by_cases hcell : c ∈ portCells p
  · refine forAll_establishes (P := fun u => (u.lane c).faulted = true → u.rd (LC_STAT_STATE c) = 9) _ hcell (fun u hu => ?_) (fun d _ u hu hnew => ?_) hall
    · rw [hkeep] at hu
      rw [if_pos hu]
      exact rd_wr_of_lt _ _ _ (show 9 < 2 ^ 4 by decide)
    · rw [hkeep] at hnew
      split
      · by_cases e : c = d
        · subst e
          exact rd_wr_of_lt _ _ _ (show 9 < 2 ^ 4 by decide)
        · exact (State.rd_wr_ne _ _ _ _ (lane_apart e _ (by simp))).trans (hu hnew)
      · exact hu hnew
  · refine forAll_induction (P := fun u => u.rd (LC_STAT_STATE c) = 9) ?_ fun d hd u hu => ?_
    · exact ((onlyKeys_restore_portFields p _ s).1 _ (lcState_not_portDownKeys hc hcell)).trans h.2
    · split
      · exact (State.rd_wr_ne _ _ _ _ (lane_apart (c := c) (d := d) (fun e => hcell (e ▸ hd)) _ (by simp))).trans hu
      · exact hu

theorem inFault_trainCells {c : Nat} (p st : Nat) {s : State} (h : inFault c s) : inFault c (trainCells p st s) := by
  have hcells : inFault c (forAll (liveCells s p) (fun d t => (restore [lockF d false, lockF d true] (t.wr (LC_STAT_STATE d) st)).setLane d
      { (t.lane d) with lockA := false, lockB := false, ts2 := false, turnA := false, turnB := false, runA := 0, runB := 0 }) s) := by
    refine forAll_induction (P := inFault c) h fun d hd u hu => inFault.setLane ?_ (healthy_of_live h.1 hd)
    have hcd := healthy_of_live h.1 hd
    refine (hu.of_same (t := u.wr (LC_STAT_STATE d) st) rfl (State.rd_wr_ne _ _ _ _ (lane_apart hcd _ (by simp)))).of_same (restore_frame (κ := 14) rfl (.refl 14 _)) ?_
    refine rd_restore_ne _ ?_
    simp only [List.forall_mem_cons, List.not_mem_nil, false_implies, implies_true, and_true]
    exact ⟨lane_apart hcd _ (by simp), lane_apart hcd _ (by simp)⟩
  unfold trainCells
  exact hcells.of_same (sendTraining_frame (κ := 14) rfl (.refl 14 _)) (rd_sendTraining ..)

theorem inFault_takeSingle {c : Nat} (hc : c < 40) (d : Nat) {s : State} (h : inFault c s) : inFault c (takeSingle d s) := by
  by_cases hd : (s.can (cellPort d)).single ≠ 0 || (s.lane d).faulted
  · rw [takeSingle, if_pos (by simpa using hd)]
    exact h
  · have hcd : c ≠ d := by
      rintro rfl
      simp [h.1] at hd
    have htaken : inFault c (singleTaken d s) := by
      unfold singleTaken
      refine forAll_induction (P := inFault c) ?_ fun x hx u hu => hu.of_same rfl (State.rd_wr_ne _ _ _ _ (lane_apart (c := c) (d := x) ?_ _ (by simp)))
      · refine (h.of_same rfl ?_)
        rw [State.rd_wr_ne _ _ _ _ (lane_apart hcd _ (by simp)), State.rd_wr_ne _ _ _ _ (link_apart c (cellPort d) _ (by simp)), State.rd_wr_ne _ _ _ _ (link_apart c (cellPort d) _ (by simp)),
          State.rd_setCan]
      · rintro rfl
        simp [h.1] at hx
    have henter : inFault c (enterSingle d s) := by
      obtain ⟨u, hr, hl, he⟩ := enterSingle_trains d s
      have hu : inFault c u := htaken.of_same hl (by simp only [State.rd, hr])
      rw [he]
      unfold trainSingle
      split
      · exact inFault_trainCells _ _ hu
      · exact inFault_trainCells _ _ hu
    unfold takeSingle
    dsimp only
    split
    · exact h
    · split
      · exact inFault_structuralEvent hc henter
      · split
        · exact henter
        · exact h

theorem inFault_reduceRate {c : Nat} (p num den : Nat) {s : State} (h : inFault c s) : inFault c (reduceRate p num den s) := by
  unfold reduceRate
  split
  · exact h
  · exact h.of_same rfl (State.rd_wr_ne _ _ _ _ (link_apart c p _ (by simp)))

theorem inFault_narrowTo {c : Nat} (hc : c < 40) (p w : Nat) {s : State} (h : inFault c s) : inFault c (narrowTo p w s) := by
  have hw : inFault c (s.wr (ADP_STAT_WIDTH p) w) := h.of_same rfl (State.rd_wr_ne _ _ _ _ (link_apart c p _ (by simp)))
  have hrate := inFault_reduceRate p w (max 1 (s.rd (ADP_STAT_WIDTH p))) hw
  unfold narrowTo
  refine inFault_structuralEvent hc ?_
  split
  · exact hrate
  · exact hrate.of_same rfl rfl

theorem inFault_retrainPort {c : Nat} (hc : c < 40) (p : Nat) {s : State} (h : inFault c s) : inFault c (retrainPort p s) := by
  unfold retrainPort
  split
  · exact inFault_startTraining p (inFault_attachEvent hc (inFault_portDown hc p 1 h))
  · split
    · exact inFault_startCanopy p ((inFault_clearPort hc p h).of_same rfl rfl)
    · exact h

/-- Whatever a port does with the cells it has left, a cell in FAULT stays there (R395). -/
theorem inFault_degradePort {c : Nat} (hc : c < 40) (p : Nat) {s : State} (h : inFault c s) : inFault c (degradePort p s) := by
  have hfield {f : Fld} (v : Nat) (hf : f ∈ [CAN_STAT_STATE p, CAN_STAT_MODE p, CAN_STAT_ROLE p, ADP_STAT_STATE p, GRV_CALST_BT p, ADP_STAT_WIDTH p, ADP_STAT_PERS p]) :
      inFault c (s.wr f v) := h.of_same rfl (State.rd_wr_ne _ _ _ _ (link_apart c p _ hf))
  have hite {b : Prop} [Decidable b] {t u : State} (ht : inFault c t) (hu : inFault c u) : inFault c (if b then t else u) := by split <;> assumption
  unfold degradePort
  refine hite h (hite (inFault_portDownAttached hc p 1 h) (hite ?_ (hite ?_ (hite ?_ (hite ?_ (hite ?_ (hite ?_ ?_)))))))
  · split
    · exact inFault_takeSingle hc _ h
    · exact h
  · exact inFault_structuralEvent hc (inFault_reduceRate p 1 2 h)
  · exact inFault_retrainPort hc p h
  · exact inFault_structuralEvent hc (hfield 1 (by simp))
  · exact inFault_narrowTo hc p 1 (hfield 5 (by simp))
  · exact inFault_narrowTo hc p _ h
  · exact inFault_portDownAttached hc p 1 h

end Sys2Proof.Machine
end

section
set_option Elab.async false
/-! What the vault's responses, the hold of the hub, a reset and the release that follows write of the register map. -/

namespace Sys2Proof.Machine

open Sys2Proof Sys2Proof.Laws

/-! ### What the vault and the hold of the hub write (R51, R502, R504) -/

/-- The registers of slots, of commands and of their data. -/
def slotKeys (k : Nat) : Prop := leafKey k ∨ groveUp k ∨ (0x300000 ≤ k ∧ k < 0x300080) ∨ (0x300800 ≤ k ∧ k < 0x380000)

/-- What shows a load stopped. -/
def loaderKeys (k : Nat) : Prop :=
  k ∈ [CFG_STATUS_HOLD.key, SYS_STAGE_HOLD.key, CFG_CTL_CHECK.key, CFG_RLDST_BUSY.key, CFG_RLDST_ABORT.key, CFG_RLDST_CAUSE.key]

/-- The registers of slots, of the load and of a zeroise. -/
def stopKeys (k : Nat) : Prop := slotKeys k ∨ loaderKeys k ∨ k ∈ [KEY_VAULT_KEKV.key, RST_CAUSE_ZERO.key]

/-- The registers that a zeroise and the hold of the hub can write: what the loss of links writes, the vault's own, and the loader's. -/
def haltKey (k : Nat) : Prop := lossKey k ∨ stopKeys k

theorem haltKey_leaf (u : Nat) : haltKey (EVSTAT u).key := .inl (lossKey_leaf u)

theorem stopKeys_leaf (u : Nat) : stopKeys (EVSTAT u).key := .inl (.inl (leafKey_evstat u))

theorem onlyKeys.halt {s t : State} (h : onlyKeys lossKey s t) : onlyKeys haltKey s t := h.mono fun _ => .inl

theorem onlyKeys.held {s t : State} (h : onlyKeys stopKeys s t) : onlyKeys haltKey s t := h.mono fun _ => .inr

theorem onlyKeys.load_stop {s t : State} (h : onlyKeys loaderKeys s t) : onlyKeys stopKeys s t := h.mono fun _ hk => .inr (.inl hk)

theorem onlyKeys.slots_stop {s t : State} (h : onlyKeys slotKeys s t) : onlyKeys stopKeys s t := h.mono fun _ => .inl

theorem slot_fields {n : Nat} (hn : n < 32) : ∀ f ∈ [KEY_SLOT_STATE n, KEY_SLOT_KEYID n, KEY_SLOT_LEN n, KEY_SLOT_GEN n, KEY_TAG_TAG n],
    slotKeys f.key ∧ ¬ leafKey f.key := by
  simp only [List.forall_mem_cons, List.not_mem_nil, false_implies, implies_true, and_true, slotKeys, leafKey, KEY_SLOT_STATE, KEY_SLOT_KEYID, KEY_SLOT_LEN,
    KEY_SLOT_GEN, KEY_TAG_TAG, fld]
  omega

theorem command_fields (p : Path) : ∀ f ∈ [KEY_STAT_RESULT p.idx, KEY_STAT_BUSY p.idx, KEY_CMD_GO p.idx, KEY_STAT_SEQ p.idx], slotKeys f.key ∧ ¬ leafKey f.key := by
  cases p
  all_goals
    simp only [List.forall_mem_cons, List.not_mem_nil, false_implies, implies_true, and_true, slotKeys, groveUp, leafKey]
    decide

theorem data_fields (p : Path) {j : Nat} (hj : j < 32) : ∀ f ∈ [KEY_DATA_DATA p.idx j, KEY_RESP_RESP p.idx (j % 8)], slotKeys f.key ∧ ¬ leafKey f.key := by
  cases p
  all_goals
    simp only [List.forall_mem_cons, List.not_mem_nil, false_implies, implies_true, and_true, slotKeys, groveUp, leafKey, KEY_DATA_DATA, KEY_RESP_RESP, fld,
      Path.idx, instanceAddr]
    omega

/-- A slot other than the KEK's. -/
theorem onlyKeys_setSlot_plain {n : Nat} (hn : n < 32) (h0 : n ≠ 0) (st keyid len gen : Nat) (v : Bytes) (s : State) :
    onlyKeys slotKeys s (setSlot n st keyid len gen v s) := by
  have hfields : onlyKeys slotKeys s (s.wrs [(KEY_SLOT_STATE n, st), (KEY_SLOT_KEYID n, keyid), (KEY_SLOT_LEN n, len), (KEY_SLOT_GEN n, gen), (KEY_TAG_TAG n, slotTag n v)]) :=
    .wrs (.refl _ s) (by
      simp only [List.forall_mem_cons, List.not_mem_nil, false_implies, implies_true, and_true]
      exact ⟨slot_fields hn _ (by simp), slot_fields hn _ (by simp), slot_fields hn _ (by simp), slot_fields hn _ (by simp), slot_fields hn _ (by simp)⟩)
  unfold setSlot
  dsimp only
  rw [if_neg h0]
  exact .of_regs hfields rfl

theorem onlyKeys_setSlot {n : Nat} (hn : n < 32) (st keyid len gen : Nat) (v : Bytes) (s : State) : onlyKeys stopKeys s (setSlot n st keyid len gen v s) := by
  by_cases h0 : n = 0
  · have hfields : onlyKeys stopKeys s (s.wrs [(KEY_SLOT_STATE n, st), (KEY_SLOT_KEYID n, keyid), (KEY_SLOT_LEN n, len), (KEY_SLOT_GEN n, gen), (KEY_TAG_TAG n, slotTag n v)]) :=
      (onlyKeys.wrs (.refl slotKeys s) (by
        simp only [List.forall_mem_cons, List.not_mem_nil, false_implies, implies_true, and_true]
        exact ⟨slot_fields hn _ (by simp), slot_fields hn _ (by simp), slot_fields hn _ (by simp), slot_fields hn _ (by simp), slot_fields hn _ (by simp)⟩)).slots_stop
    exact .of_regs (.ite (.wr hfields (.inr (.inr (by simp))) (by decide)) hfields) rfl
  · exact (onlyKeys_setSlot_plain hn h0 ..).slots_stop

theorem onlyKeys_clearSlot {n : Nat} (hn : n < 32) (s : State) : onlyKeys stopKeys s (clearSlot n s) := onlyKeys_setSlot hn ..

theorem onlyKeys_endCommand (p : Path) (r : Nat) (resp : Bytes) (s : State) : onlyKeys slotKeys s (endCommand p.idx r resp s) := by
  have hstat : onlyKeys slotKeys s ((s.wrs [(KEY_STAT_RESULT p.idx, r), (KEY_STAT_BUSY p.idx, 0), (KEY_CMD_GO p.idx, 0)]).incMod (KEY_STAT_SEQ p.idx)) := by
    refine .wr (.wrs (.refl _ s) ?_) (command_fields p _ (by simp)).1 (command_fields p _ (by simp)).2
    simp only [List.forall_mem_cons, List.not_mem_nil, false_implies, implies_true, and_true]
    exact ⟨command_fields p _ (by simp), command_fields p _ (by simp), command_fields p _ (by simp)⟩
  have hdata := hstat.forAll (l := List.range 32) (f := fun j u => u.wr (KEY_DATA_DATA p.idx j) 0) fun j hj u =>
    .wr (.refl _ u) (data_fields p (List.mem_range.1 hj) _ (by simp)).1 (data_fields p (List.mem_range.1 hj) _ (by simp)).2
  refine .raise (hdata.forAll fun j hj u => ?_) (.inl (leafKey_evstat 21))
  have hresp := data_fields p (j := j) (Nat.lt_trans (List.mem_range.1 hj) (by decide)) (KEY_RESP_RESP p.idx j) (by
    rw [Nat.mod_eq_of_lt (List.mem_range.1 hj)]
    simp)
  exact .wr (.refl _ u) hresp.1 hresp.2

theorem onlyKeys_abortStore_slots (r : Nat) (s : State) : onlyKeys slotKeys s (abortStore r s) := by
  unfold abortStore
  split
  · exact .refl _ s
  · exact .of_regs ((onlyKeys_setSlot_plain (by decide) (by decide) 0 0 0 0 [] s).trans (onlyKeys_endCommand _ r [] _)) rfl

theorem onlyKeys_abortStore (r : Nat) (s : State) : onlyKeys stopKeys s (abortStore r s) := (onlyKeys_abortStore_slots r s).slots_stop

theorem onlyKeys_dropLinks (s : State) : onlyKeys lossKey s (dropLinks s) :=
  .forAll (.refl _ s) fun p _ u => .ite (onlyKeys_portDownAttached_loss p 1 u) (.ite (onlyKeys_retrainPort p u) (.refl _ u))

theorem onlyKeys_dropKey (s : State) : onlyKeys stopKeys s (dropKey s) := .ite (.refl _ s) (onlyKeys_clearSlot (by decide) s)

theorem onlyKeys_imageHold (s : State) : onlyKeys loaderKeys s (imageHold s) :=
  .of_regs (t := s.wrs [(CFG_STATUS_HOLD, 1), (SYS_STAGE_HOLD, 1)]) (.wrs (.refl _ s) (by
    simp only [List.forall_mem_cons, List.not_mem_nil, false_implies, implies_true, and_true]
    exact ⟨⟨by simp [loaderKeys], by decide⟩, ⟨by simp [loaderKeys], by decide⟩⟩)) rfl

theorem onlyKeys_stopCheck (s : State) : onlyKeys loaderKeys s (stopCheck s) := .of_regs (t := s.wr CFG_CTL_CHECK 0) (.wr (.refl _ s) (by simp [loaderKeys]) (by decide)) rfl

/-- The lock of a reload that aborts before its commit. -/
def reloadAborted (cause : Nat) (s : State) : State :=
  let t := s.wrs [(CFG_RLDST_BUSY, 0), (CFG_RLDST_ABORT, 1), (CFG_RLDST_CAUSE, cause)]
  { t with ld := { t.ld with reload := none, lock := none } }

theorem onlyKeys_reloadAborted (cause : Nat) (s : State) : onlyKeys loaderKeys s (reloadAborted cause s) :=
  .of_regs (t := s.wrs [(CFG_RLDST_BUSY, 0), (CFG_RLDST_ABORT, 1), (CFG_RLDST_CAUSE, cause)]) (.wrs (.refl _ s) (by
    simp only [List.forall_mem_cons, List.not_mem_nil, false_implies, implies_true, and_true]
    exact ⟨⟨by simp [loaderKeys], by decide⟩, ⟨by simp [loaderKeys], by decide⟩, ⟨by simp [loaderKeys], by decide⟩⟩)) rfl

theorem abortReload_cases (cause : Nat) (s : State) : abortReload cause s = s ∨ abortReload cause s = dropKey (reloadAborted cause s) := by
  unfold abortReload
  split
  · exact .inl rfl
  · split
    · exact .inl rfl
    · exact .inr rfl

theorem onlyKeys_abortReload (cause : Nat) (s : State) : onlyKeys stopKeys s (abortReload cause s) := by
  rcases abortReload_cases cause s with h | h <;> rw [h]
  · exact .refl _ s
  · exact (onlyKeys_reloadAborted cause s).load_stop.trans (onlyKeys_dropKey _)

/-- A load stopped by the loss of its key (R61). -/
def loadStopped (s : State) : State :=
  match s.ld.doing with
  | .streaming _ _ _ => imageHold s
  | .configuring => imageHold { s with ld := { s.ld with image := none } }
  | .idle => s

theorem keysLost_eq (s : State) : keysLost s =
    abortReload 9 (dropKey (if (loadStopped s).ld.check.isSome then stopCheck (loadStopped s) else loadStopped s)) := rfl

theorem onlyKeys_loadStopped (s : State) : onlyKeys loaderKeys s (loadStopped s) := by
  unfold loadStopped
  split
  · exact onlyKeys_imageHold s
  · exact .trans (.of_regs (.refl _ s) rfl) (onlyKeys_imageHold _)
  · exact .refl _ s

theorem onlyKeys_keysLost (s : State) : onlyKeys stopKeys s (keysLost s) := by
  have hload := (onlyKeys_loadStopped s).load_stop
  rw [keysLost_eq]
  generalize loadStopped s = t at hload
  have hcheck : onlyKeys stopKeys s (if t.ld.check.isSome then stopCheck t else t) := .ite (hload.trans (onlyKeys_stopCheck t).load_stop) hload
  exact (hcheck.trans (onlyKeys_dropKey _)).trans (onlyKeys_abortReload 9 _)

/-- Every slot emptied and the zeroise shown, before the links and the load follow. -/
def slotsZeroised (s : State) : State := raise 21 3 ((forAll (List.range 32) clearSlot (abortStore 10 s)).wr RST_CAUSE_ZERO 1)

theorem zeroise_eq (s : State) : zeroise s = keysLost (dropLinks ((slotsZeroised s).setKv { (slotsZeroised s).kv with zeroised := true })) := rfl

theorem onlyKeys_slotsZeroised (s : State) : onlyKeys stopKeys s (slotsZeroised s) := by
  have hclear := (onlyKeys_abortStore 10 s).forAll (l := List.range 32) (f := clearSlot) fun n hn u => onlyKeys_clearSlot (List.mem_range.1 hn) u
  unfold slotsZeroised
  generalize forAll (List.range 32) clearSlot (abortStore 10 s) = t at hclear
  exact .raise (hclear.wr (.inr (.inr (by simp))) (by decide)) (stopKeys_leaf 21)

theorem onlyKeys_zeroise (s : State) : onlyKeys haltKey s (zeroise s) := by
  have hslots := (onlyKeys_slotsZeroised s).held
  rw [zeroise_eq]
  generalize slotsZeroised s = t at hslots
  have hkv : onlyKeys haltKey s (t.setKv { t.kv with zeroised := true }) := .of_regs hslots rfl
  exact (hkv.trans (onlyKeys_dropLinks _).halt).trans (onlyKeys_keysLost _).held

/-- The same with what the response to an alarm shows, and CFG_STATUS.LOADED, which the hold clears. -/
def offKey (k : Nat) : Prop := haltKey k ∨ k ∈ [CFG_STATUS_LOADED.key, KEY_VAULT_STHOLD.key, KEY_VAULT_HALT.key]

theorem onlyKeys.off {s t : State} (h : onlyKeys haltKey s t) : onlyKeys offKey s t := h.mono fun _ => .inl

theorem not_haltKey_loaded : ¬ haltKey CFG_STATUS_LOADED.key := by
  unfold haltKey stopKeys loaderKeys slotKeys lossKey groveUp
  decide

/-- What the hold of the hub writes beside LOADED. -/
def hubKeys (k : Nat) : Prop := lossKey k ∨ loaderKeys k

/-- The hold of the hub clears LOADED; else the load is stopped and the links are lost (R504). -/
theorem onlyKeys_holdHub (s : State) : onlyKeys hubKeys (s.wr CFG_STATUS_LOADED 0) (holdHub s) := by
  have hoff : onlyKeys hubKeys (s.wr CFG_STATUS_LOADED 0) ((s.wr CFG_STATUS_LOADED 0).wrs [(SYS_SETTLE_RUN, 0), (SYS_SETTLE_PEND, 0)]) := .wrs (.refl _ _) (by
    simp only [List.forall_mem_cons, List.not_mem_nil, false_implies, implies_true, and_true]
    exact ⟨⟨.inl (.inr (.inr (.inr (by simp)))), by decide⟩, ⟨.inl (.inr (.inr (.inr (by simp)))), by decide⟩⟩)
  have hcancel := hoff.trans ((onlyKeys_cancelSolve _).mono fun _ h => .inl (lossKey_of_attachKeys h))
  exact (hcancel.trans ((onlyKeys_imageHold _).mono fun _ => .inr)).forAll fun p _ u => .ite ((onlyKeys_portDown_loss p 1 u).mono fun _ => .inl) (.refl _ u)

theorem hubKeys_halt {k : Nat} (h : hubKeys k) : haltKey k := h.imp_right fun hl => .inr (.inl hl)

theorem onlyKeys_holdHub_off (s : State) : onlyKeys offKey s (holdHub s) := (onlyKeys.wr (.refl _ s) (.inr (by simp)) (by decide)).trans ((onlyKeys_holdHub s).mono fun _ h => .inl (hubKeys_halt h))

theorem loaded_holdHub (s : State) : (holdHub s).rd CFG_STATUS_LOADED = 0 := ((onlyKeys_holdHub s).1 _ fun h => not_haltKey_loaded (hubKeys_halt h)).trans (State.rd_wr_same s CFG_STATUS_LOADED 0)

/-- The alarm's response before its zeroise: STHOLD and the hold of a configured hub. -/
def alarmHeld (b : Bool) (s : State) : State :=
  let t := if b then s.wr KEY_VAULT_STHOLD 1 else s
  if b ∧ t.on CFG_STATUS_LOADED then holdHub t else t

theorem tamperResponse_eq (b : Bool) (s : State) : tamperResponse b s =
    let t := if 1 ≤ tamperPolicy s then zeroise (alarmHeld b s) else alarmHeld b s
    if 2 ≤ tamperPolicy s then holdHub (t.wr KEY_VAULT_HALT 1) else t := rfl

theorem alarmHeld_effects (b : Bool) (s : State) : onlyKeys offKey s (alarmHeld b s) ∧ (s.rd CFG_STATUS_LOADED = 0 → (alarmHeld b s).rd CFG_STATUS_LOADED = 0) := by
  have hsthold : onlyKeys offKey s (if b then s.wr KEY_VAULT_STHOLD 1 else s) := .ite (.wr (.refl _ s) (.inr (by simp)) (by decide)) (.refl _ s)
  have hkept : (if b then s.wr KEY_VAULT_STHOLD 1 else s).rd CFG_STATUS_LOADED = s.rd CFG_STATUS_LOADED := by
    split
    · exact State.rd_wr_ne _ _ _ _ (by decide)
    · rfl
  unfold alarmHeld
  dsimp only
  generalize (if b = true then s.wr KEY_VAULT_STHOLD 1 else s) = t at hsthold hkept
  refine ⟨.ite (hsthold.trans (onlyKeys_holdHub_off t)) hsthold, fun h => ?_⟩
  split
  · exact loaded_holdHub t
  · exact hkept.trans h

theorem tamperResponse_effects (b : Bool) (s : State) : onlyKeys offKey s (tamperResponse b s) ∧
    (s.rd CFG_STATUS_LOADED = 0 → (tamperResponse b s).rd CFG_STATUS_LOADED = 0) := by
  obtain ⟨hheld, hoff⟩ := alarmHeld_effects b s
  rw [tamperResponse_eq]
  generalize alarmHeld b s = u at hheld hoff
  have hzero : onlyKeys haltKey u (if 1 ≤ tamperPolicy s then zeroise u else u) := .ite (onlyKeys_zeroise u) (.refl _ u)
  dsimp only
  generalize (if 1 ≤ tamperPolicy s then zeroise u else u) = t at hzero
  have hhalt : onlyKeys offKey u (t.wr KEY_VAULT_HALT 1) := hzero.off.wr (.inr (by simp)) (by decide)
  refine ⟨.ite ((hheld.trans hhalt).trans (onlyKeys_holdHub_off _)) (hheld.trans hzero.off), fun h => ?_⟩
  split
  · exact loaded_holdHub _
  · exact (hzero.1 _ not_haltKey_loaded).trans (hoff h)

theorem onlyKeys_deriveKek (s : State) : onlyKeys stopKeys s (deriveKek s) := by
  have hslot (v : Bytes) : onlyKeys stopKeys s (if !dsValid || s.kv.zeroised || s.on KEY_VAULT_HALT then clearSlot 0 s else setSlot 0 2 0 32 0 v s) :=
    .ite (onlyKeys_clearSlot (by decide) s) (onlyKeys_setSlot (by decide) ..)
  unfold deriveKek
  generalize Config.hkdfExpand (Config.hmac384 (uidBytes s) Config.deviceSecret) (ascii "tirlos kek") 32 = v
  have hv := hslot v
  generalize (if !dsValid || s.kv.zeroised || s.on KEY_VAULT_HALT then clearSlot 0 s else setSlot 0 2 0 32 0 v s) = t at hv
  exact .of_regs hv rfl

theorem releaseKey_effects (s : State) : onlyKeys offKey s (releaseKey s) ∧ (s.rd CFG_STATUS_LOADED = 0 → (releaseKey s).rd CFG_STATUS_LOADED = 0) := by
  have hkek := (onlyKeys_deriveKek s).held
  unfold releaseKey
  generalize deriveKek s = t at hkek
  have halarm : onlyKeys haltKey s { t with kv := { t.kv with alarmDue := false } } := .of_regs hkek rfl
  obtain ⟨hkeys, hoff⟩ := tamperResponse_effects true { t with kv := { t.kv with alarmDue := false } }
  dsimp only
  split
  · exact ⟨halarm.off.trans hkeys, fun h => hoff ((halarm.1 _ not_haltKey_loaded).trans h)⟩
  · exact ⟨hkek.off, fun h => (hkek.1 _ not_haltKey_loaded).trans h⟩

/-! ### A reset and the release that follows (R416 to R420) -/

theorem mfind_filter {α : Type} (q : Nat → Bool) (m : NMap α) (k : Nat) : mfind (m.filter fun e => q e.1) k = if q k then mfind m k else none := by
  induction m with
  | nil => simp [mfind]
  | cons e m ih => grind [mfind]

/-- The restoring of a reset's reach: what outlasts it stays, all else reads its reset value. -/
theorem rd_resetRegs (reach : Nat) (s : State) (f : Fld) :
    (resetRegs reach s).rd f = if outlasts reach f.key then s.rd f else f.reset % 2 ^ f.w := by
  have hfind : mget f.reset (resetRegs reach s).regs f.key = if outlasts reach f.key then mget f.reset s.regs f.key else f.reset := by
    rw [mget, resetRegs, mfind_filter]
    split <;> rfl
  rw [State.rd, hfind]
  split <;> rfl

/-- The state as a reset of a reach has taken the parts beside the registers. -/
def partsReset (reach : Nat) (s : State) : State :=
  let t := (resetPipes (2 ≤ reach) (resetPorts (2 ≤ reach) (resetManagement (resetFabric (resetVault (holdDomains reach s)))))).emit (.pin "UH0 pull-up" 0 false)
  if 2 ≤ reach then resetClocks t else t

/-- The registers shown afresh after the restoring. -/
def regsReset (reach : Nat) (t : State) : State :=
  resetPins (2 ≤ reach) (showFaults ((resetRegs reach t).wrs [(PD_GLOB_FWPOL, 0), (RST_FLTSTAT_SEQ, 0)]))

theorem takeReset_eq (reach : Nat) (s : State) : takeReset reach s =
    let t := regsReset reach (partsReset reach s)
    if t.rd RST_FLTSTAT_MGT = 3 then t.free.2.wr RST_FLTSTAT_MGT (t.free.1 % 3) else t := by
  unfold takeReset partsReset regsReset
  simp only

theorem regs_partsReset (reach : Nat) (s : State) : (partsReset reach s).regs = s.regs := by
  have hparts : (resetPipes (2 ≤ reach) (resetPorts (2 ≤ reach) (resetManagement (resetFabric (resetVault (holdDomains reach s)))))).regs = s.regs :=
    resetPipes_frame (κ := 1) rfl (resetPorts_frame (κ := 1) rfl (resetManagement_frame (κ := 1) rfl (resetFabric_frame (κ := 1) rfl (resetVault_frame (κ := 1) rfl
      (holdDomains_frame (κ := 1) rfl (.refl 1 s))))))
  unfold partsReset
  generalize resetPipes (2 ≤ reach) (resetPorts (2 ≤ reach) (resetManagement (resetFabric (resetVault (holdDomains reach s))))) = t at hparts
  dsimp only
  split <;> exact hparts

/-- The fields that a reset writes after the restoring. -/
def shownKey (k : Nat) : Prop := k = PD_GLOB_FWPOL.key ∨ k = RST_FLTSTAT_SEQ.key ∨ k = RST_FLTSTAT_MGT.key ∨ ∃ c, k = (LC_STAT_STATE c).key

theorem rd_takeReset {reach : Nat} {f : Fld} (h : ¬ shownKey f.key) (s : State) :
    (takeReset reach s).rd f = if outlasts reach f.key then s.rd f else f.reset % 2 ^ f.w := by
  have hregs := regs_partsReset reach s
  rw [takeReset_eq]
  generalize partsReset reach s = t at hregs
  have hrd : (resetRegs reach t).rd f = if outlasts reach f.key then s.rd f else f.reset % 2 ^ f.w := by
    rw [rd_resetRegs]
    simp only [State.rd, hregs]
  have hshown : (regsReset reach t).rd f = (resetRegs reach t).rd f := by
    have hpins (u : State) : (resetPins (2 ≤ reach) u).regs = u.regs := resetPins_frame (κ := 1) rfl (.refl 1 u)
    rw [regsReset, State.rd, hpins]
    refine forAll_induction (P := fun u => u.rd f = (resetRegs reach t).rd f) ?_ fun c _ u hu => ?_
    · refine State.rd_wrs_ne _ _ _ ?_
      simp only [List.forall_mem_cons, List.not_mem_nil, false_implies, implies_true, and_true]
      exact ⟨fun e => h (.inl e), fun e => h (.inr (.inl e))⟩
    · split
      · exact (State.rd_wr_ne _ _ _ _ fun e => h (.inr (.inr (.inr ⟨c, e⟩)))).trans hu
      · exact hu
  dsimp only
  generalize regsReset reach t = u at hshown
  rw [← hrd, ← hshown]
  split
  · exact State.rd_wr_ne _ _ _ _ fun e => h (.inr (.inr (.inl e)))
  · rfl

/-- The pin reset map changes of the start's state the pins alone. -/
theorem bt_resetPins (cold : Bool) (u : State) : (resetPins cold u).bt = { u.bt with pins := (resetPins cold u).bt.pins } := by
  unfold resetPins
  split
  · rfl
  · refine forAll_induction (P := fun v => v.bt = { u.bt with pins := v.bt.pins }) rfl fun b _ v hv => ?_
    generalize u.rd (FUSE_PINMAP_V (b / 16)) / 4 ^ (b % 16) % 4 = c
    show { v.bt with pins := mput 0 v.bt.pins b c } = { u.bt with pins := mput 0 v.bt.pins b c }
    generalize mput 0 v.bt.pins b c = m
    rw [hv]

theorem bt_takeReset (reach : Nat) (s : State) : (takeReset reach s).bt = { (holdDomains reach s).bt with pins := (takeReset reach s).bt.pins } := by
  have hparts : (partsReset reach s).bt = (holdDomains reach s).bt := by
    have h : (resetPipes (2 ≤ reach) (resetPorts (2 ≤ reach) (resetManagement (resetFabric (resetVault (holdDomains reach s)))))).bt = (holdDomains reach s).bt :=
      resetPipes_frame (κ := 21) rfl (resetPorts_frame (κ := 21) rfl (resetManagement_frame (κ := 21) rfl (resetFabric_frame (κ := 21) rfl
        (resetVault_frame (κ := 21) rfl (.refl 21 _)))))
    unfold partsReset
    generalize resetPipes (2 ≤ reach) (resetPorts (2 ≤ reach) (resetManagement (resetFabric (resetVault (holdDomains reach s))))) = t at h
    dsimp only
    split <;> exact h
  have hshown (t : State) : (showFaults ((resetRegs reach t).wrs [(PD_GLOB_FWPOL, 0), (RST_FLTSTAT_SEQ, 0)])).bt = t.bt :=
    showFaults_frame (κ := 21) rfl (wrs_frame (k := 21) rfl (resetRegs_frame (κ := 21) rfl (.refl 21 t)))
  have hregs : (regsReset reach (partsReset reach s)).bt = { (holdDomains reach s).bt with pins := (regsReset reach (partsReset reach s)).bt.pins } := by
    unfold regsReset
    rw [bt_resetPins, hshown, hparts]
  rw [takeReset_eq]
  generalize regsReset reach (partsReset reach s) = t at hregs
  dsimp only
  split <;> exact hregs

/-- The domains that a reset holds, and the reach that stands. -/
theorem bt_holdDomains (reach : Nat) (s : State) : (holdDomains reach s).bt.reach = max reach s.bt.reach ∧ (holdDomains reach s).bt.released ≤ 1 ∧
    (holdDomains reach s).bt.later = [] ∧ (holdDomains reach s).bt.srcs = s.bt.srcs := by
  have hback : (coreBack s).bt.reach = s.bt.reach ∧ (coreBack s).bt.srcs = s.bt.srcs := by
    unfold coreBack
    split <;> exact ⟨rfl, rfl⟩
  exact ⟨congrArg (max reach) hback.1, Nat.min_le_left .., rfl, hback.2⟩

theorem released_takeReset (reach : Nat) (s : State) : (takeReset reach s).bt.released ≤ 1 := by
  rw [bt_takeReset]
  exact (bt_holdDomains reach s).2.1

theorem reach_takeReset (reach : Nat) (s : State) : reach ≤ (takeReset reach s).bt.reach := by
  rw [bt_takeReset]
  show reach ≤ (holdDomains reach s).bt.reach
  rw [(bt_holdDomains reach s).1]
  exact Nat.le_max_left ..

/-- What the release that follows a reset writes beside what the response to an alarm does. -/
def releaseKeys (k : Nat) : Prop := offKey k ∨ k ∈ [FUSE_LDST_SHADOW_VALID.key, FUSE_LDST_RESTARTS.key, FUSE_LDST_ATTEMPT.key]

theorem onlyKeys_startFuses (s : State) : onlyKeys (fun k => k ∈ [FUSE_LDST_SHADOW_VALID.key, FUSE_LDST_RESTARTS.key, FUSE_LDST_ATTEMPT.key]) s (startFuses s) := by
  have hvalid : onlyKeys (fun k => k ∈ [FUSE_LDST_SHADOW_VALID.key, FUSE_LDST_RESTARTS.key, FUSE_LDST_ATTEMPT.key]) s (s.wr FUSE_LDST_SHADOW_VALID 0) :=
    .wr (.refl _ s) (by simp) (by decide)
  exact .ite (.refl _ s) (.of_regs (.ite (hvalid.inc (by simp) (by decide)) (hvalid.wr (by simp) (by decide))) rfl)

theorem releaseNext_effects {s : State} (h : s.bt.released ≤ 1) : onlyKeys offKey s (releaseNext s) ∧
    (s.rd CFG_STATUS_LOADED = 0 → (releaseNext s).rd CFG_STATUS_LOADED = 0) := by
  unfold releaseNext
  dsimp only
  split
  · exact ⟨.refl _ s, id⟩
  · next hgo =>
    have hone : s.bt.released = 1 := by
      simp only [not_or] at hgo
      omega
    rw [hone, if_neg (show ¬ (1 + 1 = 4 ∧ (!s.on RST_BOOT_WAITPWR) = true) by simp)]
    have hdue (b : Boot) : onlyKeys offKey s (releaseKey { s with bt := b }) ∧ (s.rd CFG_STATUS_LOADED = 0 → (releaseKey { s with bt := b }).rd CFG_STATUS_LOADED = 0) :=
      ⟨(onlyKeys.of_regs (.refl _ s) rfl).trans (releaseKey_effects _).1, (releaseKey_effects { s with bt := b }).2⟩
    split
    · exact ⟨.refl _ s, id⟩
    · show onlyKeys offKey s (releaseKey _) ∧ (_ → (releaseKey _).rd _ = 0)
      split
      · exact hdue _
      · exact hdue _

theorem not_leafKey_loaded : ¬ leafKey CFG_STATUS_LOADED.key := by decide

theorem beginRelease_effects {s : State} (h : s.bt.released ≤ 1) : onlyKeys releaseKeys s (beginRelease s) ∧
    (s.rd CFG_STATUS_LOADED = 0 → (beginRelease s).rd CFG_STATUS_LOADED = 0) := by
  have hraise : onlyKeys haltKey s (raise 24 0 s) := .raise (.refl _ s) (haltKey_leaf 24)
  have hbt : (raise 24 0 s).bt = s.bt := raise_frame (κ := 21) rfl (.refl 21 s)
  have hfuses := onlyKeys_startFuses (raise 24 0 s)
  obtain ⟨hnext, hoff⟩ := releaseNext_effects (s := raise 24 0 s) (by rw [hbt]; exact h)
  refine ⟨.ite (.refl _ s) (.ite ((hraise.off.mono fun _ => .inl).trans (hfuses.mono fun _ => .inr)) ((hraise.off.trans hnext).mono fun _ => .inl)), fun hl => ?_⟩
  have hl' : (raise 24 0 s).rd CFG_STATUS_LOADED = 0 := (rd_raise_ne _ _ _ _ (ne_evstat not_leafKey_loaded 24)).trans hl
  unfold beginRelease
  dsimp only
  split
  · exact hl
  · split
    · exact (hfuses.1 _ (by decide)).trans hl'
    · exact hoff hl'

/-- A field outside all that a reset and its release write is after a pulse source what the restoring made of it, or stands. -/
theorem pulseReset_release (reach cause : Nat) (s : State) : onlyKeys releaseKeys (requestReset s.bt.srcs.isEmpty reach cause s) (pulseReset reach cause s) ∧
    ((requestReset s.bt.srcs.isEmpty reach cause s).rd CFG_STATUS_LOADED = 0 → (pulseReset reach cause s).rd CFG_STATUS_LOADED = 0) := by
  unfold pulseReset
  generalize ht : requestReset s.bt.srcs.isEmpty reach cause s = t
  dsimp only
  split
  · next hlater =>
    refine beginRelease_effects ?_
    rw [← ht] at hlater ⊢
    unfold requestReset at hlater ⊢
    dsimp only at hlater ⊢
    split
    · next hwait =>
      rw [if_pos hwait] at hlater
      simp at hlater
    · exact released_takeReset _ _
  · exact ⟨.refl _ t, id⟩

theorem not_shownKey {k : Nat} (h : k < 0x1000000) (hne : k ∉ [PD_GLOB_FWPOL.key, RST_FLTSTAT_SEQ.key, RST_FLTSTAT_MGT.key]) : ¬ shownKey k := by
  rintro (e | e | e | ⟨c, e⟩)
  · exact hne (by simp [e])
  · exact hne (by simp [e])
  · exact hne (by simp [e])
  · simp only [LC_STAT_STATE, fld] at e
    omega

theorem outlasts_cause : ∀ (cause : Fin 12) (reach : Fin 3), outlasts reach.val (causeFld cause.val).key = true := by decide +kernel

/-- The causes that a pulse source records. -/
theorem cause_apart (cause : Fin 12) : ¬ releaseKeys (causeFld cause.val).key ∧ ¬ shownKey (causeFld cause.val).key ∧ (causeFld cause.val).w = 1 := by
  refine ⟨?_, not_shownKey ?_ ?_, ?_⟩
  · unfold releaseKeys offKey haltKey stopKeys loaderKeys slotKeys lossKey groveUp
    revert cause
    decide
  all_goals
    revert cause
    decide

theorem rd_requestReset_cause (cause : Fin 12) {reach : Nat} (hr : reach < 3) (alone : Bool) (s : State) : (requestReset alone reach cause.val s).rd (causeFld cause.val) = 1 := by
  obtain ⟨-, hshown, hw⟩ := cause_apart cause
  have hset : (s.wr (causeFld cause.val) 1).rd (causeFld cause.val) = 1 := by rw [State.rd_wr_same, hw]; rfl
  unfold requestReset
  dsimp only
  split
  · exact hset
  · rw [rd_takeReset hshown, outlasts_cause cause ⟨reach, hr⟩, if_pos rfl]
    split <;> exact hset

theorem rd_pulseReset_cause (cause : Fin 12) {reach : Nat} (hr : reach < 3) (s : State) : (pulseReset reach cause.val s).rd (causeFld cause.val) = 1 :=
  ((pulseReset_release reach cause.val s).1.1 _ (cause_apart cause).1).trans (rd_requestReset_cause cause hr _ s)

end Sys2Proof.Machine
end

section
set_option Elab.async false
/-! Fault reports: the log, the engine, the clocks, the chip-level fault. -/

namespace Sys2Proof.Machine

open Sys2Proof Sys2Proof.Laws

/-! ### The fault log (R385, R401) -/

/-- The fault counter, the log with its pointer, and the leaves. -/
def logKey (k : Nat) : Prop := leafKey k ∨ (0x80840 ≤ k ∧ k < 0x80860) ∨ (0x80880 ≤ k ∧ k < 0x80A80) ∨ k ∈ [SYS_GUARD_FAULTS.key, SYS_GUARD_SINGLE.key]

/-- A log entry's fields. -/
def entryFields (k : Nat) : List Fld := [RST_FLTLOG0_KIND k, RST_FLTLOG0_INJ k, RST_FLTLOG0_UNIT k, RST_FLTLOG0_TUN k, RST_FLTLOG0_DET k, RST_FLTLOG0_SECOND k, RST_FLTLOG1_TIME k]

theorem entryFields_log {k : Nat} (hk : k < 8) : ∀ f ∈ entryFields k, (0x80880 ≤ f.key ∧ f.key < 0x80A80) ∧ ¬ leafKey f.key := by
  simp only [entryFields, List.forall_mem_cons, List.not_mem_nil, false_implies, implies_true, and_true, leafKey, RST_FLTLOG0_KIND, RST_FLTLOG0_INJ, RST_FLTLOG0_UNIT,
    RST_FLTLOG0_TUN, RST_FLTLOG0_DET, RST_FLTLOG0_SECOND, RST_FLTLOG1_TIME, fld]
  omega

/-- The entry as it is written, before the report is noted and the pointer moves. -/
def entryLogged (kind unit tun det : Nat) (inj : Bool) (s : State) : State :=
  let t := writeEntry (s.rd RST_FLTPTR_NEXT) kind unit tun det inj (s.inc SYS_GUARD_FAULTS)
  t.wrs [(RST_FLTLOG0_SECOND (s.rd RST_FLTPTR_NEXT), b2n (decide (2 ≤ (s.inc SYS_GUARD_FAULTS).rd SYS_GUARD_FAULTS))), (RST_FLTLOG1_TIME (s.rd RST_FLTPTR_NEXT), mget 0 t.tb 0 / 2 ^ 32)]

theorem logFault_eq (kind unit tun det : Nat) (inj : Bool) (s : State) : logFault kind unit tun det inj s =
    let t := raise 25 6 (noteReport kind unit (s.rd RST_FLTPTR_NEXT) (((entryLogged kind unit tun det inj s).inc RST_FLTPTR_COUNT).incMod RST_FLTPTR_NEXT))
    if 2 ≤ (s.inc SYS_GUARD_FAULTS).rd SYS_GUARD_FAULTS ∨ kind = 0xB then raise 25 8 (t.wr SYS_GUARD_SINGLE 0) else t := by
  unfold logFault
  simp only
  rfl

theorem next_lt (s : State) : s.rd RST_FLTPTR_NEXT < 8 := State.rd_lt s RST_FLTPTR_NEXT

theorem onlyKeys_entryLogged (kind unit tun det : Nat) (inj : Bool) (s : State) :
    onlyKeys (fun k => (0x80880 ≤ k ∧ k < 0x80A80) ∨ k = SYS_GUARD_FAULTS.key) s (entryLogged kind unit tun det inj s) := by
  have hf (f : Fld) (h : f ∈ entryFields (s.rd RST_FLTPTR_NEXT)) : ((0x80880 ≤ f.key ∧ f.key < 0x80A80) ∨ f.key = SYS_GUARD_FAULTS.key) ∧ ¬ leafKey f.key :=
    ⟨.inl (entryFields_log (next_lt s) f h).1, (entryFields_log (next_lt s) f h).2⟩
  refine .wrs (.wrs (.inc (.refl _ s) (.inr rfl) (by decide)) ?_) ?_
  · simp only [List.forall_mem_cons, List.not_mem_nil, false_implies, implies_true, and_true]
    exact ⟨hf _ (by simp [entryFields]), hf _ (by simp [entryFields]), hf _ (by simp [entryFields]), hf _ (by simp [entryFields]), hf _ (by simp [entryFields])⟩
  · simp only [List.forall_mem_cons, List.not_mem_nil, false_implies, implies_true, and_true]
    exact ⟨hf _ (by simp [entryFields]), hf _ (by simp [entryFields])⟩

/-- What a log entry says of its fault. -/
def entrySays (k kind unit tun det : Nat) (inj : Bool) : List (Fld × Nat) :=
  [(RST_FLTLOG0_KIND k, kind), (RST_FLTLOG0_INJ k, b2n inj), (RST_FLTLOG0_UNIT k, unit), (RST_FLTLOG0_TUN k, tun), (RST_FLTLOG0_DET k, det)]

theorem nodup_entrySays {k : Nat} (hk : k < 8) (kind unit tun det : Nat) (inj : Bool) : ((entrySays k kind unit tun det inj).map fun e => e.1.key).Nodup := by
  simp only [entrySays, List.map_cons, List.map_nil]
  interval_cases k <;> decide

theorem entrySays_apart (k : Nat) : ∀ f ∈ [RST_FLTLOG0_KIND k, RST_FLTLOG0_INJ k, RST_FLTLOG0_UNIT k, RST_FLTLOG0_DET k],
    f.key ≠ (RST_FLTLOG0_SECOND k).key ∧ f.key ≠ (RST_FLTLOG1_TIME k).key := by
  simp only [List.forall_mem_cons, List.not_mem_nil, false_implies, implies_true, and_true, RST_FLTLOG0_KIND, RST_FLTLOG0_INJ, RST_FLTLOG0_UNIT, RST_FLTLOG0_DET,
    RST_FLTLOG0_SECOND, RST_FLTLOG1_TIME, fld]
  omega

theorem rd_entryLogged {kind unit tun det : Nat} (inj : Bool) (s : State) {e : Fld × Nat}
    (he : e ∈ entrySays (s.rd RST_FLTPTR_NEXT) kind unit tun det inj) (ht : e.1 ≠ RST_FLTLOG0_TUN (s.rd RST_FLTPTR_NEXT)) (hv : e.2 < 2 ^ e.1.w) :
    (entryLogged kind unit tun det inj s).rd e.1 = e.2 := by
  have hapart : e.1.key ≠ (RST_FLTLOG0_SECOND (s.rd RST_FLTPTR_NEXT)).key ∧ e.1.key ≠ (RST_FLTLOG1_TIME (s.rd RST_FLTPTR_NEXT)).key := by
    refine entrySays_apart _ _ ?_
    simp only [entrySays, List.mem_cons, List.not_mem_nil, or_false] at he
    rcases he with rfl | rfl | rfl | rfl | rfl
    case inr.inr.inr.inl => exact absurd rfl ht
    all_goals simp
  unfold entryLogged
  dsimp only
  rw [State.rd_wrs_ne]
  · exact rd_wrs_eq (nodup_entrySays (next_lt s) kind unit tun det inj) he hv _
  · simp only [List.forall_mem_cons, List.not_mem_nil, false_implies, implies_true, and_true]
    exact hapart

theorem entrySays_fields {k kind unit tun det : Nat} {inj : Bool} {e : Fld × Nat} (he : e ∈ entrySays k kind unit tun det inj) : e.1 ∈ entryFields k := by
  simp only [entrySays, List.mem_cons, List.not_mem_nil, or_false] at he
  rcases he with rfl | rfl | rfl | rfl | rfl
  all_goals simp [entryFields]

theorem faults_entryLogged (kind unit tun det : Nat) (inj : Bool) (s : State) :
    (entryLogged kind unit tun det inj s).rd SYS_GUARD_FAULTS = satInc 255 (s.rd SYS_GUARD_FAULTS) := by
  have hf (f : Fld) (h : f ∈ entryFields (s.rd RST_FLTPTR_NEXT)) : SYS_GUARD_FAULTS.key ≠ f.key := fun e =>
    absurd (e ▸ (entryFields_log (next_lt s) f h).1) (by decide)
  unfold entryLogged writeEntry
  dsimp only
  rw [State.rd_wrs_ne, State.rd_wrs_ne, rd_inc_eq_satInc]
  · rfl
  all_goals
    simp only [List.forall_mem_cons, List.not_mem_nil, false_implies, implies_true, and_true]
  · exact ⟨hf _ (by simp [entryFields]), hf _ (by simp [entryFields]), hf _ (by simp [entryFields]), hf _ (by simp [entryFields]), hf _ (by simp [entryFields])⟩
  · exact ⟨hf _ (by simp [entryFields]), hf _ (by simp [entryFields])⟩

theorem onlyKeys.incMod {K : Nat → Prop} {s t : State} {f : Fld} (h : onlyKeys K s t) (hK : K f.key) (hl : ¬ leafKey f.key) : onlyKeys K s (t.incMod f) := h.wr hK hl

theorem onlyKeys_logFault (kind unit tun det : Nat) (inj : Bool) (s : State) : onlyKeys logKey s (logFault kind unit tun det inj s) := by
  have hentry : onlyKeys logKey s (entryLogged kind unit tun det inj s) := (onlyKeys_entryLogged kind unit tun det inj s).mono fun k h =>
    h.elim (fun h => .inr (.inr (.inl h))) (fun h => .inr (.inr (.inr (by simp [h]))))
  rw [logFault_eq]
  generalize entryLogged kind unit tun det inj s = t at hentry
  have hleaf : logKey (EVSTAT 25).key := .inl (leafKey_evstat 25)
  have hnote : onlyKeys logKey s (noteReport kind unit (s.rd RST_FLTPTR_NEXT) ((t.inc RST_FLTPTR_COUNT).incMod RST_FLTPTR_NEXT)) :=
    .of_regs ((hentry.inc (f := RST_FLTPTR_COUNT) (.inr (.inl (by decide))) (by decide)).incMod (f := RST_FLTPTR_NEXT) (.inr (.inl (by decide))) (by decide)) rfl
  generalize noteReport kind unit (s.rd RST_FLTPTR_NEXT) ((t.inc RST_FLTPTR_COUNT).incMod RST_FLTPTR_NEXT) = u at hnote
  have hraise := hnote.raise (b := 6) hleaf
  exact .ite (.raise (hraise.wr (.inr (.inr (.inr (by simp)))) (by decide)) hleaf) hraise

/-- A report that begins a new entry: the entry, the pointer, the count and the leaf (R401). -/
theorem logFault_effects (kind unit tun det : Nat) (inj : Bool) (s : State) :
    (∀ e ∈ entrySays (s.rd RST_FLTPTR_NEXT) kind unit tun det inj, e.1 ≠ RST_FLTLOG0_TUN (s.rd RST_FLTPTR_NEXT) → e.2 < 2 ^ e.1.w →
      (logFault kind unit tun det inj s).rd e.1 = e.2) ∧
    (logFault kind unit tun det inj s).rd RST_FLTPTR_NEXT = (s.rd RST_FLTPTR_NEXT + 1) % 8 ∧
    (logFault kind unit tun det inj s).rd SYS_GUARD_FAULTS = satInc 255 (s.rd SYS_GUARD_FAULTS) ∧ leafSet (logFault kind unit tun det inj s) 25 6 := by
  have hsays := fun e => rd_entryLogged (kind := kind) (unit := unit) (tun := tun) (det := det) inj s (e := e)
  have hfaults := faults_entryLogged kind unit tun det inj s
  have hptr : (entryLogged kind unit tun det inj s).rd RST_FLTPTR_NEXT = s.rd RST_FLTPTR_NEXT := (onlyKeys_entryLogged kind unit tun det inj s).1 _ (by decide)
  rw [logFault_eq]
  generalize entryLogged kind unit tun det inj s = t at hsays hfaults hptr
  have hlater (u : State) : onlyKeys (fun k => leafKey k ∨ k = SYS_GUARD_SINGLE.key) u
      (if 2 ≤ (s.inc SYS_GUARD_FAULTS).rd SYS_GUARD_FAULTS ∨ kind = 0xB then raise 25 8 (u.wr SYS_GUARD_SINGLE 0) else u) :=
    .ite (.raise (.wr (.refl _ u) (.inr rfl) (by decide)) (.inl (leafKey_evstat 25))) (.refl _ u)
  dsimp only
  have hup := hlater (raise 25 6 (noteReport kind unit (s.rd RST_FLTPTR_NEXT) ((t.inc RST_FLTPTR_COUNT).incMod RST_FLTPTR_NEXT)))
  generalize (if 2 ≤ (s.inc SYS_GUARD_FAULTS).rd SYS_GUARD_FAULTS ∨ kind = 0xB then raise 25 8 ((raise 25 6 (noteReport kind unit (s.rd RST_FLTPTR_NEXT)
    ((t.inc RST_FLTPTR_COUNT).incMod RST_FLTPTR_NEXT))).wr SYS_GUARD_SINGLE 0) else
    raise 25 6 (noteReport kind unit (s.rd RST_FLTPTR_NEXT) ((t.inc RST_FLTPTR_COUNT).incMod RST_FLTPTR_NEXT))) = w at hup
  have hrd {f : Fld} (h1 : ¬ leafKey f.key) (h2 : f.key ≠ SYS_GUARD_SINGLE.key) : w.rd f = ((t.inc RST_FLTPTR_COUNT).incMod RST_FLTPTR_NEXT).rd f :=
    (hup.1 f (by rintro (h | h); exacts [h1 h, h2 h])).trans (rd_raise_ne _ _ _ _ fun e => h1 (e ▸ leafKey_evstat 25))
  have hold {f : Fld} (h1 : ¬ leafKey f.key) (h2 : f.key ∉ [SYS_GUARD_SINGLE.key, RST_FLTPTR_COUNT.key, RST_FLTPTR_NEXT.key]) : w.rd f = t.rd f := by
    simp only [List.mem_cons, List.not_mem_nil, or_false, not_or] at h2
    rw [hrd h1 h2.1]
    exact (State.rd_wr_ne _ _ _ _ h2.2.2).trans (State.rd_wr_ne _ _ _ _ h2.2.1)
  refine ⟨fun e he ht hv => (hold ?_ ?_).trans (hsays e he ht hv), ?_, (hold (by decide) (by decide)).trans hfaults, hup.2 _ _ (leafSet_raise _ _ _ (by decide))⟩
  · exact (entryFields_log (next_lt s) _ (entrySays_fields he)).2
  · intro hmem
    have hrange := (entryFields_log (next_lt s) _ (entrySays_fields he)).1
    simp only [List.mem_cons, List.not_mem_nil, or_false] at hmem
    rcases hmem with h | h | h
    all_goals exact absurd (h ▸ hrange) (by decide)
  · rw [hrd (by decide) (by decide), State.incMod, State.rd_wr_same]
    have hcount : (t.inc RST_FLTPTR_COUNT).rd RST_FLTPTR_NEXT = t.rd RST_FLTPTR_NEXT := State.rd_wr_ne _ _ _ _ (by decide)
    rw [hcount, hptr]
    rfl


/-- A report with no other before it begins a new entry, and its unit is handled (R385). -/
theorem reportFault_fresh {kind unit tun det : Nat} {inj : Bool} {s : State} (hr : reportable kind unit s = true) (hfresh : recentReports s = []) :
    reportFault kind unit tun det inj s = handleFault kind unit (logFault kind unit tun det inj s) := by
  simp [reportFault, hr, takeReport, hfresh]

/-- What of the state a log entry changes. -/
theorem frame_logFault {k : Nat} (hk : Nat.testBit 268435586 k = false) (kind unit tun det : Nat) (inj : Bool) (s : State) : Frame k s (logFault kind unit tun det inj s) :=
  logFault_frame hk (.refl k s)

theorem ft_raise (u b : Nat) (s : State) : (raise u b s).ft = s.ft := raise_frame (κ := 28) rfl (.refl 28 s)

theorem ft_logFault (kind unit tun det : Nat) (inj : Bool) (s : State) :
    (logFault kind unit tun det inj s).ft = { s.ft with recent := recentReports s ++ [(s.clock, kind, unit, s.rd RST_FLTPTR_NEXT)] } := by
  have hft : (entryLogged kind unit tun det inj s).ft = s.ft := wrs_frame (k := 28) rfl (wrs_frame (k := 28) rfl (.refl 28 _))
  have hclock : (entryLogged kind unit tun det inj s).clock = s.clock := wrs_frame (k := 2) rfl (wrs_frame (k := 2) rfl (.refl 2 _))
  rw [logFault_eq]
  generalize entryLogged kind unit tun det inj s = t at hft hclock
  generalize s.rd RST_FLTPTR_NEXT = k
  have hnote : (raise 25 6 (noteReport kind unit k ((t.inc RST_FLTPTR_COUNT).incMod RST_FLTPTR_NEXT))).ft =
      { s.ft with recent := recentReports s ++ [(s.clock, kind, unit, k)] } := by
    rw [ft_raise]
    show { t.ft with recent := (t.ft.recent.filter fun e : Nat × Nat × Nat × Nat => t.clock ≤ e.1 + 50000) ++ [(t.clock, kind, unit, k)] } = _
    rw [hft, hclock]
    rfl
  dsimp only
  generalize raise 25 6 (noteReport kind unit k ((t.inc RST_FLTPTR_COUNT).incMod RST_FLTPTR_NEXT)) = u at hnote
  split
  · rw [ft_raise]
    exact hnote
  · exact hnote

/-! ### Reports and what they bring (R19, R383, R394, R396) -/

/-- A report of GF's self-test or of the pads is logged; the self-test's withdraws GF. -/
theorem faultLogged (k : Fin 16) (u n d : Byte) (s : State) (hk : k = 5 ∨ k = 9) (hr : reportable k.val u.toNat s = true) (hfresh : recentReports s = []) :
    ∃ t, exec (.faultReport k u n d) s = .next t ∧ (k = 5 → t.rd RST_FLTSTAT_GFOK = 0) ∧
      t.rd (RST_FLTLOG0_KIND (s.rd RST_FLTPTR_NEXT)) = k.val ∧
      t.rd (RST_FLTLOG0_UNIT (s.rd RST_FLTPTR_NEXT)) = u.toNat ∧ t.rd (RST_FLTLOG0_DET (s.rd RST_FLTPTR_NEXT)) = d.toNat ∧
      t.rd RST_FLTPTR_NEXT = (s.rd RST_FLTPTR_NEXT + 1) % 8 ∧ t.rd SYS_GUARD_FAULTS = satInc 255 (s.rd SYS_GUARD_FAULTS) ∧ leafSet t 25 6 := by
  have hexec : exec (.faultReport k u n d) s = .next (reportFault k.val u.toNat (if k.val = 10 then n.toNat else 0) d.toNat false s) := rfl
  generalize (if k.val = 10 then n.toNat else 0) = tun at hexec
  rw [reportFault_fresh hr hfresh] at hexec
  obtain ⟨hsays, hptr, hcount, hleaf⟩ := logFault_effects k.val u.toNat tun d.toNat false s
  have hkind := hsays (RST_FLTLOG0_KIND (s.rd RST_FLTPTR_NEXT), k.val) (by simp [entrySays]) (by simp [RST_FLTLOG0_KIND, RST_FLTLOG0_TUN, fld]) k.isLt
  have hunit := hsays (RST_FLTLOG0_UNIT (s.rd RST_FLTPTR_NEXT), u.toNat) (by simp [entrySays]) (by simp [RST_FLTLOG0_UNIT, RST_FLTLOG0_TUN, fld]) u.isLt
  have hdet := hsays (RST_FLTLOG0_DET (s.rd RST_FLTPTR_NEXT), d.toNat) (by simp [entrySays]) (by simp [RST_FLTLOG0_DET, RST_FLTLOG0_TUN, fld]) d.isLt
  generalize logFault k.val u.toNat tun d.toNat false s = t at hexec hkind hunit hdet hptr hcount hleaf
  rcases hk with rfl | rfl
  · have hgf : onlyWrites [RST_FLTSTAT_GFOK] [] t (t.wr RST_FLTSTAT_GFOK 0) := onlyWrites_wr ..
    have hentry (f : Fld) (hf : f ∈ entryFields (s.rd RST_FLTPTR_NEXT)) : ∀ g ∈ [RST_FLTSTAT_GFOK], f.key ≠ g.key := by
      have := (entryFields_log (next_lt s) f hf).1
      intro g hg e
      rw [List.mem_singleton.1 hg] at e
      exact absurd (e ▸ this) (by decide)
    refine ⟨_, hexec, fun _ => State.rd_wr_same t RST_FLTSTAT_GFOK 0, (hgf.1 _ (hentry _ (by simp [entryFields]))).trans hkind, (hgf.1 _ (hentry _ (by simp [entryFields]))).trans hunit,
      (hgf.1 _ (hentry _ (by simp [entryFields]))).trans hdet, (hgf.1 _ (by decide)).trans hptr, (hgf.1 _ (by decide)).trans hcount, ?_⟩
    exact (onlyKeys.wr (K := fun _ => True) (.refl _ t) trivial (by decide)).2 _ _ hleaf
  · exact ⟨_, hexec, fun h => absurd h (by decide), hkind, hunit, hdet, hptr, hcount, hleaf⟩

/-- A self-test of the fallow GF that fails withdraws it (R394). -/
theorem selftestFails (s : State) (hr : reportable 5 8 s = true) (hfresh : recentReports s = []) (hn : s.bt.retest = []) :
    ∃ t, exec (.gfSelftest false) s = .next t ∧ t.rd RST_FLTSTAT_GFOK = 0 ∧ leafSet t 25 6 := by
  have hexec : exec (.gfSelftest false) s = .next (reportFault 5 8 0 (s.free.1 % 256) false s.free.2) := by
    simp only [exec, execGfSelftest, hn, if_neg Bool.false_ne_true]
  rw [reportFault_fresh (s := s.free.2) hr hfresh] at hexec
  refine ⟨_, hexec, State.rd_wr_same _ RST_FLTSTAT_GFOK 0, ?_⟩
  exact (onlyKeys.wr (K := fun _ => True) (f := RST_FLTSTAT_GFOK) (.refl _ _) trivial (by decide)).2 _ _ (logFault_effects ..).2.2.2

/-- A mask with one of its bits taken away does not have it. -/
theorem bit_sub_two_pow {x n : Nat} (h : bit x n = true) : bit (x - 2 ^ n) n = false := by
  rw [bit_eq_testBit] at h ⊢
  obtain ⟨y, rfl⟩ : ∃ y, x = 2 ^ n + y := ⟨x - 2 ^ n, by have := Nat.ge_two_pow_of_testBit h; omega⟩
  rw [Nat.add_sub_cancel_left]
  rw [Nat.testBit_two_pow_add_eq] at h
  simpa using h


/-- The fence mask without a grove. -/
theorem fenceTaken (f g : Nat) (hf : f < 512) : (if bit f g then f - 2 ^ g else f) < 512 ∧ bit (if bit f g then f - 2 ^ g else f) g = false := by
  split
  · next h => exact ⟨Nat.lt_of_le_of_lt (Nat.sub_le _ _) hf, bit_sub_two_pow h⟩
  · next h => exact ⟨hf, by simpa using h⟩

/-- A grove whose self-test passes at a reset is taken back (R394). -/
theorem retested_effects (g : Grove) (s : State) : bit ((retested g.val true s).rd RST_FLTSTAT_FENCED) g.val = false ∧
    onlyWrites [RST_FLTSTAT_FENCED, RST_FLTSTAT_GFFOR, RST_FLTSTAT_GFOK] [] s (retested g.val true s) := by
  obtain ⟨hlt, hbit⟩ := fenceTaken (s.rd RST_FLTSTAT_FENCED) g.val (State.rd_lt s RST_FLTSTAT_FENCED)
  unfold retested
  dsimp only
  generalize (if bit (s.rd RST_FLTSTAT_FENCED) g.val then s.rd RST_FLTSTAT_FENCED - 2 ^ g.val else s.rd RST_FLTSTAT_FENCED) = f at hlt hbit
  have hrd (x : Fld) (hx : RST_FLTSTAT_FENCED.key ≠ x.key) (v : Nat) : (s.wrs [(RST_FLTSTAT_FENCED, f), (x, v)]).rd RST_FLTSTAT_FENCED = f :=
    (State.rd_wr_ne _ _ _ _ hx).trans (rd_wr_of_lt _ _ _ hlt)
  rw [if_pos rfl, if_pos rfl]
  split
  · rw [hrd _ (by decide)]
    exact ⟨hbit, onlyWrites_wrs (by simp) s⟩
  · rw [hrd _ (by decide)]
    exact ⟨hbit, onlyWrites_wrs (by simp) s⟩

theorem groveTakenBack (g : Grove) (l : List Nat) (s : State) (hl : s.bt.retest = g.val :: l) (hr : 4 ≤ s.bt.released) :
    ∃ t, exec (.gfSelftest true) s = .next t ∧ t.bt.retest = l ∧ bit (t.rd RST_FLTSTAT_FENCED) g.val = false ∧
      onlyWrites [RST_FLTSTAT_FENCED, RST_FLTSTAT_GFFOR, RST_FLTSTAT_GFOK] [.bt] s t := by
  have hexec : exec (.gfSelftest true) s = .next (retested g.val true { s with bt := { s.bt with retest := l } }) := by
    simp only [exec, execGfSelftest, hl, if_neg (Nat.not_lt.2 hr)]
  obtain ⟨hbit, hw⟩ := retested_effects g { s with bt := { s.bt with retest := l } }
  have hbt : (retested g.val true { s with bt := { s.bt with retest := l } }).bt = { s.bt with retest := l } := hw.2 .bt (by decide)
  have hset : onlyWrites [RST_FLTSTAT_FENCED, RST_FLTSTAT_GFFOR, RST_FLTSTAT_GFOK] [.bt] s { s with bt := { s.bt with retest := l } } := by
    refine ⟨fun _ _ => rfl, fun q hq => ?_⟩
    cases q
    case bt => simp at hq
    all_goals rfl
  exact ⟨_, hexec, by rw [hbt], hbit, hset.trans (hw.mono (List.Subset.refl _) (by simp))⟩

theorem onlyKeys_dropSolve (s : State) : onlyKeys (fun k => k = PST_SOLVE_BUSY.key) s (dropSolve s) :=
  .ite (.of_regs (t := s.wr PST_SOLVE_BUSY 0) (.wr (.refl _ s) rfl (by decide)) rfl) (.refl _ s)

/-- The engine's fault: the firmware goes down with its cause, and both cores restart or an engine of one core stops (R396, R398). -/
theorem mgmtFault_effects {cause : Nat} (hc : cause = 10 ∨ cause = 11) (s : State) : (mgmtFault cause s).rd SYS_STAGE_FWRDY = 0 ∧ (mgmtFault cause s).rd (causeFld cause) = 1 ∧
    leafSet (mgmtFault cause s) 25 9 ∧ (∀ u b, leafSet s u b → leafSet (mgmtFault cause s) u b) ∧
    (s.rd RST_FLTSTAT_MGT = 0 → (mgmtFault cause s).ft.restarting = true) ∧ (s.rd RST_FLTSTAT_MGT ≠ 0 → (mgmtFault cause s).rd RST_FLTSTAT_MGT = 3) := by
  have hkeys : SYS_STAGE_FWRDY.key ≠ (causeFld cause).key ∧ ¬ leafKey (causeFld cause).key ∧ (causeFld cause).key ∉ [PST_SOLVE_BUSY.key, RST_FLTSTAT_MGT.key] ∧
      (causeFld cause).w = 1 := by
    rcases hc with rfl | rfl <;> decide
  obtain ⟨hne, hleaf, hcapart, hw⟩ := hkeys
  simp only [List.mem_cons, List.not_mem_nil, or_false, not_or] at hcapart
  have hdown : ((s.wrs [(SYS_STAGE_FWRDY, 0), (causeFld cause, 1)]).rd SYS_STAGE_FWRDY = 0) ∧ ((s.wrs [(SYS_STAGE_FWRDY, 0), (causeFld cause, 1)]).rd (causeFld cause) = 1) :=
    ⟨(State.rd_wr_ne _ _ _ _ hne).trans (State.rd_wr_same _ _ 0), rd_wr_of_lt _ _ _ (by rw [hw]; exact Nat.one_lt_two)⟩
  have hstand : onlyKeys (fun _ => True) s (s.wrs [(SYS_STAGE_FWRDY, 0), (causeFld cause, 1)]) := .wrs (.refl _ s) (by
    simp only [List.forall_mem_cons, List.not_mem_nil, false_implies, implies_true, and_true, true_and]
    exact ⟨by decide, hleaf⟩)
  unfold mgmtFault
  dsimp only
  generalize s.wrs [(SYS_STAGE_FWRDY, 0), (causeFld cause, 1)] = t at hdown hstand
  have hdrop := onlyKeys_dropSolve (raise 25 9 t)
  have hrd {f : Fld} (h1 : ¬ leafKey f.key) (h2 : f.key ≠ PST_SOLVE_BUSY.key) : (dropSolve (raise 25 9 t)).rd f = t.rd f :=
    (hdrop.1 f h2).trans (rd_raise_ne _ _ _ _ fun e => h1 (e ▸ leafKey_evstat 25))
  have hset : leafSet (dropSolve (raise 25 9 t)) 25 9 := hdrop.2 _ _ (leafSet_raise _ _ _ (by decide))
  have hold (u b : Nat) (h : leafSet s u b) : leafSet (dropSolve (raise 25 9 t)) u b := hdrop.2 _ _ (leafSet_raise_of_leafSet (hstand.2 u b h))
  have hready := (hrd (f := SYS_STAGE_FWRDY) (by decide) (by decide)).trans hdown.1
  have hcause := (hrd hleaf hcapart.1).trans hdown.2
  generalize dropSolve (raise 25 9 t) = w at hset hold hready hcause
  split
  · next hm => exact ⟨hready, hcause, hset, hold, fun _ => rfl, fun h => absurd hm h⟩
  · next hm =>
    have hmgt : onlyKeys (fun k => k = RST_FLTSTAT_MGT.key) w (w.wr RST_FLTSTAT_MGT 3) := .wr (.refl _ w) rfl (by decide)
    exact ⟨(hmgt.1 _ (by decide)).trans hready, (hmgt.1 _ hcapart.2).trans hcause, hmgt.2 _ _ hset, fun u b h => hmgt.2 _ _ (hold u b h), fun h => absurd h hm,
      fun _ => rd_wr_of_lt _ _ _ (show 3 < 2 ^ 2 by decide)⟩


theorem handleFault_mgmt (u : Nat) (s : State) : handleFault 7 u s = mgmtFault 10 s ∧ handleFault 8 u s = mgmtFault 11 s := ⟨rfl, rfl⟩

theorem logKey_apart : ∀ f ∈ [RST_FLTSTAT_MGT, SYS_GUARD_EXC, KEY_VAULT_FROZEN, RST_FLTSTAT_GFOK, RST_FLTSTAT_GFFOR, RST_FLTSTAT_FENCED, RST_FLTSTAT_SEQ, FAB_STATUS_FENCE],
    ¬ logKey f.key := by
  unfold logKey
  decide

/-- A mismatch or an expiry while the engine runs, once its report is logged. -/
theorem mgmtReported (kind cause unit det : Nat) (hk : kind = 7 ∧ cause = 10 ∨ kind = 8 ∧ cause = 11) (s : State) (hr : reportable kind unit s = true) (hfresh : recentReports s = []) :
    (reportFault kind unit 0 det false s).rd SYS_STAGE_FWRDY = 0 ∧ (reportFault kind unit 0 det false s).rd (causeFld cause) = 1 ∧
    leafSet (reportFault kind unit 0 det false s) 25 9 ∧ leafSet (reportFault kind unit 0 det false s) 25 6 ∧
    (s.rd RST_FLTSTAT_MGT = 0 → (reportFault kind unit 0 det false s).ft.restarting = true) ∧
    (s.rd RST_FLTSTAT_MGT ≠ 0 → (reportFault kind unit 0 det false s).rd RST_FLTSTAT_MGT = 3) := by
  have hhandle : reportFault kind unit 0 det false s = mgmtFault cause (logFault kind unit 0 det false s) := by
    rw [reportFault_fresh hr hfresh]
    rcases hk with ⟨rfl, rfl⟩ | ⟨rfl, rfl⟩ <;> rfl
  have hmgt : (logFault kind unit 0 det false s).rd RST_FLTSTAT_MGT = s.rd RST_FLTSTAT_MGT := (onlyKeys_logFault ..).1 _ (logKey_apart _ (by simp))
  obtain ⟨hready, hcause, hset, hold, hzero, hone⟩ := mgmtFault_effects (cause := cause) (by omega) (logFault kind unit 0 det false s)
  rw [hhandle]
  rw [hmgt] at hzero hone
  exact ⟨hready, hcause, hset, hold _ _ (logFault_effects ..).2.2.2, hzero, hone⟩

theorem engineFaults (s : State) (he : engineRuns s = true) (hfresh : recentReports s = []) :
    (s.rd RST_FLTSTAT_MGT = 0 → ∃ t, exec .lockstepMismatch s = .next t ∧ t.rd SYS_STAGE_FWRDY = 0 ∧ t.ft.restarting = true ∧
      t.rd RST_CAUSE_LOCKSTEP = 1 ∧ leafSet t 25 9 ∧ leafSet t 25 6) ∧
    (∃ t, exec .managementWatchdog s = .next t ∧ t.rd SYS_STAGE_FWRDY = 0 ∧ t.rd RST_CAUSE_MWDOG = 1 ∧ leafSet t 25 9 ∧
      (if s.rd RST_FLTSTAT_MGT = 0 then t.ft.restarting = true else t.rd RST_FLTSTAT_MGT = 3)) := by
  have hruns : engineRuns s.free.2 = true := he
  have hfree : recentReports s.free.2 = [] := hfresh
  constructor
  · intro hm
    have hexec : exec .lockstepMismatch s = .next (reportFault 7 (s.free.1 % 2) 0 13 false s.free.2) := by
      simp [exec, execLockstepMismatch, hm]
    obtain ⟨hready, hcause, hnine, hsix, hzero, -⟩ := mgmtReported 7 10 (s.free.1 % 2) 13 (by simp) s.free.2
      (by
      simp only [reportable, hruns, Bool.and_true, decide_eq_true_eq]
      exact Nat.mod_lt _ (by decide)) hfree
    exact ⟨_, hexec, hready, hzero hm, hcause, hnine, hsix⟩
  · have hexec : exec .managementWatchdog s = .next (reportFault 8 (match s.rd RST_FLTSTAT_MGT with | 1 => 0 | 2 => 1 | _ => s.free.1 % 2) 0 14 false s.free.2) := rfl
    have hcore : (match s.rd RST_FLTSTAT_MGT with | 1 => 0 | 2 => 1 | _ => s.free.1 % 2) < 2 := by
      split
      · decide
      · decide
      · exact Nat.mod_lt _ (by decide)
    generalize (match s.rd RST_FLTSTAT_MGT with | 1 => 0 | 2 => 1 | _ => s.free.1 % 2) = core at hexec hcore
    obtain ⟨hready, hcause, hnine, -, hzero, hone⟩ := mgmtReported 8 11 core 14 (by simp) s.free.2 (by simp [reportable, hruns, hcore]) hfree
    refine ⟨_, hexec, hready, hcause, hnine, ?_⟩
    split
    · next hm => exact hzero hm
    · next hm => exact hone hm

theorem lockstepAbsent (s : State) (h : s.rd RST_FLTSTAT_MGT ≠ 0) : exec .lockstepMismatch s = .next s := by
  simp [exec, execLockstepMismatch, h]


/-! ### The clocks (R18, R19) -/

theorem clock_fields : ¬ leafKey SYS_GUARD_EXC.key ∧ ¬ leafKey SYS_GUARD_EXCUR.key ∧ ¬ leafKey KEY_VAULT_FROZEN.key := by decide

/-- The state as the loss of a clock finds it: an excursion where all else read within the ratings (R30). -/
def clockNoted (s : State) : State := if allRated s then noteExcursion s else s

theorem clockNoted_effects (s : State) : (clockNoted s).ft = s.ft ∧ (∀ u b, leafSet s u b → leafSet (clockNoted s) u b) ∧
    onlyWrites [SYS_GUARD_EXC, SYS_GUARD_EXCUR] [] s (clockNoted s) ∧ (allRated s = true → (clockNoted s).rd SYS_GUARD_EXC = 1) := by
  have hnote : onlyKeys (fun _ => True) s (noteExcursion s) := (onlyKeys.wr (.refl _ s) trivial clock_fields.1).inc trivial clock_fields.2.1
  have hw : onlyWrites [SYS_GUARD_EXC, SYS_GUARD_EXCUR] [] s (noteExcursion s) :=
    ((onlyWrites_wr SYS_GUARD_EXC 1 s).mono (by simp) (List.Subset.refl _)).trans ((onlyWrites_inc SYS_GUARD_EXCUR _).mono (by simp) (List.Subset.refl _))
  unfold clockNoted
  split
  · exact ⟨noteExcursion_frame (κ := 28) rfl (.refl 28 s), hnote.2, hw, fun _ => (State.rd_wr_ne _ _ _ _ (by decide)).trans (rd_wr_of_lt _ _ _ (by decide))⟩
  · next h => exact ⟨rfl, fun _ _ => id, .refl _ _ s, fun hr => absurd hr h⟩

theorem clockFault_first {u : Nat} {s : State} (hr : s.ft.refFailed = false) (hp : s.ft.pll = none) : clockFault u s =
    if u = 1 then { clockNoted s with ft := { (clockNoted s).ft with refFailed := true } }
    else if u = 7 then freezeVault (clockNoted s)
    else if u = 5 then raise 20 7 (forAll ((List.range 4).filter (tbRunning { clockNoted s with ft := { (clockNoted s).ft with pll := some u } })) jumpBase
      { clockNoted s with ft := { (clockNoted s).ft with pll := some u } })
    else { clockNoted s with ft := { (clockNoted s).ft with pll := some u } } := by
  have hft := (clockNoted_effects s).1
  unfold clockFault
  rw [← clockNoted]
  generalize clockNoted s = t at hft
  simp [hft, hr, hp]

theorem clockFault_second {u : Nat} {s : State} (h : s.ft.refFailed = true ∨ s.ft.pll ≠ none) : clockFault u s = pulseReset 2 5 (clockNoted s) := by
  have hft := (clockNoted_effects s).1
  unfold clockFault
  rw [← clockNoted]
  generalize clockNoted s = t at hft
  have hc : t.ft.refFailed = true ∨ t.ft.pll.isSome = true := by
    rw [hft]
    exact h.imp id fun h => by simpa [Option.isSome_iff_ne_none] using h
  exact if_pos hc

theorem not_slotKeys_frozen : ¬ slotKeys KEY_VAULT_FROZEN.key := by
  have hkey : KEY_VAULT_FROZEN.key = 0x30009E := rfl
  rw [hkey]
  unfold slotKeys groveUp leafKey
  omega

theorem freezeVault_effects (s : State) : (freezeVault s).rd KEY_VAULT_FROZEN = 1 ∧ (∀ u b, leafSet s u b → leafSet (freezeVault s) u b) ∧
    (s.on KEY_VAULT_FROZEN = false → leafSet (freezeVault s) 21 4) := by
  unfold freezeVault
  split
  · next h =>
    have hlt : s.rd KEY_VAULT_FROZEN < 2 := State.rd_lt s KEY_VAULT_FROZEN
    have hne : s.rd KEY_VAULT_FROZEN ≠ 0 := by simpa [State.on] using h
    exact ⟨by omega, fun _ _ => id, fun hoff => absurd h (by simp [hoff])⟩
  · have habort := onlyKeys_abortStore_slots 11 (s.wr KEY_VAULT_FROZEN 1)
    have hwr : onlyKeys (fun _ => True) s (s.wr KEY_VAULT_FROZEN 1) := .wr (.refl _ s) trivial clock_fields.2.2
    refine ⟨?_, fun u b h => leafSet_raise_of_leafSet (habort.2 _ _ (hwr.2 u b h)), fun _ => leafSet_raise _ _ _ (by decide)⟩
    rw [rd_raise_ne _ _ _ _ (ne_evstat clock_fields.2.2 21), habort.1 _ not_slotKeys_frozen]
    exact rd_wr_of_lt _ _ _ (by decide)

theorem leaves_jumpBase (n : Nat) (s : State) : onlyKeys (fun _ => True) s (jumpBase n s) := by
  have hmoved : onlyKeys (fun _ => True) s { noteChange n s.free.2 with tb := mput 0 s.tb n (min (2 ^ 64 - 1) (mget 0 s.tb n + s.free.1 % (2 ^ 34 + 1) - 2 ^ 33)) } :=
    .of_regs (.refl _ s) rfl
  unfold jumpBase
  refine hmoved.forAll fun e he u => ?_
  have hdrive : onlyKeys (fun _ => True) u (driveEvt e true u) := .of_regs (.refl _ u) (driveEvt_frame (κ := 1) rfl (.refl 1 u))
  refine .raise (hdrive.wr trivial ?_) trivial
  have he8 : e < 8 := List.mem_range.1 (List.mem_filter.1 he).1
  simp only [leafKey, TIM_EVCMP_CMP, fld]
  omega

theorem ft_jumpBase (n : Nat) (s : State) : (jumpBase n s).ft = s.ft := jumpBase_frame (κ := 28) rfl (.refl 28 s)


theorem allRated_logFault (kind unit tun det : Nat) (inj : Bool) (s : State) : allRated (logFault kind unit tun det inj s) = allRated s := by
  have hpw : (logFault kind unit tun det inj s).pw = s.pw := logFault_frame (κ := 25) rfl (.refl 25 s)
  have hfrozen : (logFault kind unit tun det inj s).rd KEY_VAULT_FROZEN = s.rd KEY_VAULT_FROZEN := (onlyKeys_logFault ..).1 _ (logKey_apart _ (by simp))
  rw [allRated, hpw, State.on, hfrozen, ft_logFault]
  rfl

/-- The first loss of a clock, by the clock's number (R19). -/
theorem clockReported {u : Nat} {s : State} (hu : reportable 6 u s = true) (hfresh : recentReports s = []) (hr : s.ft.refFailed = false) (hp : s.ft.pll = none) :
    (u = 1 → (reportFault 6 u 0 12 false s).ft.refFailed = true ∧ (reportFault 6 u 0 12 false s).ft.pll = none ∧
      (allRated s = true → (reportFault 6 u 0 12 false s).rd SYS_GUARD_EXC = 1)) ∧
    (u = 7 → (reportFault 6 u 0 12 false s).rd KEY_VAULT_FROZEN = 1 ∧ (s.on KEY_VAULT_FROZEN = false → leafSet (reportFault 6 u 0 12 false s) 21 4)) ∧
    (u ≠ 1 → u ≠ 7 → (reportFault 6 u 0 12 false s).ft.pll = some u) ∧ (u = 5 → leafSet (reportFault 6 u 0 12 false s) 20 7) ∧
    leafSet (reportFault 6 u 0 12 false s) 25 6 := by
  have hleaf := (logFault_effects 6 u 0 12 false s).2.2.2
  have hrated := allRated_logFault 6 u 0 12 false s
  have hfrozen : (logFault 6 u 0 12 false s).on KEY_VAULT_FROZEN = s.on KEY_VAULT_FROZEN := by
    rw [State.on, State.on, (onlyKeys_logFault ..).1 _ (logKey_apart _ (by simp))]
  have hft := ft_logFault 6 u 0 12 false s
  rw [reportFault_fresh hu hfresh]
  generalize logFault 6 u 0 12 false s = l at hleaf hrated hfrozen hft
  have hclock : handleFault 6 u l = clockFault u l := rfl
  rw [hclock, clockFault_first (by rw [hft]; exact hr) (by rw [hft]; exact hp)]
  obtain ⟨hnft, hnleaf, hnw, hnexc⟩ := clockNoted_effects l
  have hnsix := hnleaf _ _ hleaf
  have hnfrozen : (clockNoted l).on KEY_VAULT_FROZEN = s.on KEY_VAULT_FROZEN := by
    rw [← hfrozen, State.on, State.on, hnw.1 _ (by decide)]
  have hnpll : (clockNoted l).ft.pll = none := by rw [hnft, hft]; exact hp
  generalize clockNoted l = w at hnft hnsix hnexc hnfrozen hnpll
  by_cases h1 : u = 1
  · rw [if_pos h1]
    exact ⟨fun _ => ⟨rfl, hnpll, fun h => hnexc (hrated.trans h)⟩, fun h => by omega, fun h => absurd h1 h, fun h => by omega, hnsix⟩
  · rw [if_neg h1]
    by_cases h7 : u = 7
    · rw [if_pos h7]
      obtain ⟨hon, hkeep, hfour⟩ := freezeVault_effects w
      exact ⟨fun h => absurd h h1, fun _ => ⟨hon, fun h => hfour (hnfrozen.trans h)⟩, fun _ h => absurd h7 h, fun h => by omega, hkeep _ _ hnsix⟩
    · rw [if_neg h7]
      have hpll : ({ w with ft := { w.ft with pll := some u } } : State).ft.pll = some u := rfl
      have hsix : leafSet { w with ft := { w.ft with pll := some u } } 25 6 := hnsix
      generalize ({ w with ft := { w.ft with pll := some u } } : State) = x at hpll hsix
      by_cases h5 : u = 5
      · rw [if_pos h5]
        have hjump : onlyKeys (fun _ => True) x (forAll ((List.range 4).filter (tbRunning x)) jumpBase x) := .forAll (.refl _ x) fun n _ v => leaves_jumpBase n v
        have hjft : (forAll ((List.range 4).filter (tbRunning x)) jumpBase x).ft = x.ft :=
          forAll_induction (P := fun v => v.ft = x.ft) rfl fun n _ v hv => (ft_jumpBase n v).trans hv
        refine ⟨fun h => absurd h h1, fun h => absurd h h7, fun _ _ => ?_, fun _ => leafSet_raise _ _ _ (by decide), leafSet_raise_of_leafSet (hjump.2 _ _ hsix)⟩
        rw [ft_raise, hjft]
        exact hpll
      · rw [if_neg h5]
        exact ⟨fun h => absurd h h1, fun h => absurd h h7, fun _ _ => hpll, fun h => absurd h h5, hsix⟩

/-- The number of a clock in a report. -/
def clockUnit (k : Clock) : Nat :=
  match k with
  | .ref => 1 | .sys => 2 | .fab => 3 | .mem => 4 | .time => 5 | .usb => 6 | .key => 7 | .standby => 8 | .pix d => 16 + d.val

theorem exec_clockFailure (k : Clock) (s : State) : exec (.clockFailure k) s = .next (reportFault 6 (clockUnit k) 0 12 false s) := by
  cases k <;> rfl

theorem clock_reportable {k : Clock} {s : State} (h : ∀ d : Pipe, k = .pix d → d.val < pipeCount (variant s)) : reportable 6 (clockUnit k) s = true := by
  cases k
  case pix d =>
    have := h d rfl
    have hin : 16 ≤ 16 + d.val ∧ 16 + d.val < 16 + pipeCount (variant s) := by omega
    simp [reportable, clockUnit, hin]
  all_goals simp [reportable, clockUnit]

/-- A second failed clock is a cold reset (R19). -/
theorem clockSecond (k : Clock) (s : State) (hk : ∀ d : Pipe, k = .pix d → d.val < pipeCount (variant s)) (hfresh : recentReports s = [])
    (h : s.ft.refFailed = true ∨ s.ft.pll ≠ none) : ∃ t, exec (.clockFailure k) s = .next t ∧ t.rd RST_CAUSE_SEQCOLD = 1 := by
  have hexec := exec_clockFailure k s
  rw [reportFault_fresh (clock_reportable hk) hfresh] at hexec
  have hft := ft_logFault 6 (clockUnit k) 0 12 false s
  generalize logFault 6 (clockUnit k) 0 12 false s = l at hexec hft
  refine ⟨_, hexec, ?_⟩
  have hclock : handleFault 6 (clockUnit k) l = clockFault (clockUnit k) l := rfl
  rw [hclock, clockFault_second (by rw [hft]; exact h)]
  exact rd_pulseReset_cause 5 (by decide) _

/-- A chip-level fault is a warm reset by the sequencer (R383). -/
theorem chipReset {unit tun det : Nat} {inj : Bool} {s : State} (hfresh : recentReports s = []) : (reportFault 11 unit tun det inj s).rd RST_CAUSE_SEQWARM = 1 := by
  rw [reportFault_fresh rfl hfresh]
  exact rd_pulseReset_cause 9 (reach := 1) (by decide) _

/-- Settles O28, from the log's entry (`logFault_effects`) and what each detector does after it. -/
theorem faultReportsAreLoggedAndHandled : Obligations.FaultReportsAreLoggedAndHandled := by
  unfold Obligations.FaultReportsAreLoggedAndHandled
  refine ⟨faultLogged, selftestFails, fun s hn => ?_, groveTakenBack, engineFaults, lockstepAbsent, fun s hfresh hr hp => ⟨?_, ?_⟩, ?_, clockSecond, ?_⟩
  · simp [exec, execGfSelftest, hn]
  · obtain ⟨href, -, -, -, hsix⟩ := clockReported (clock_reportable (k := .ref) (by simp)) hfresh hr hp
    obtain ⟨hfail, hpll, hexc⟩ := href rfl
    exact ⟨_, exec_clockFailure .ref s, hfail, hpll, hsix, hexc⟩
  · obtain ⟨-, hkey, -, -, hsix⟩ := clockReported (clock_reportable (k := .key) (by simp)) hfresh hr hp
    obtain ⟨hfrozen, hfour⟩ := hkey rfl
    exact ⟨_, exec_clockFailure .key s, hfrozen, hsix, hfour⟩
  · intro k u s hk hfresh hr hp
    have hunit : u = clockUnit k ∧ u ≠ 1 ∧ u ≠ 7 ∧ (k = .time → u = 5) ∧ ∀ d : Pipe, k = .pix d → d.val < pipeCount (variant s) := by
      rcases hk with ⟨rfl, rfl⟩ | ⟨rfl, rfl⟩ | ⟨rfl, rfl⟩ | ⟨rfl, rfl⟩ | ⟨rfl, rfl⟩ | ⟨rfl, rfl⟩ | ⟨d, rfl, rfl, hd⟩
      case inr.inr.inr.inr.inr.inr => exact ⟨rfl, by omega, by omega, by simp, fun e he => by injection he with he; exact he ▸ hd⟩
      all_goals simp [clockUnit]
    obtain ⟨rfl, h1, h7, h5, hpix⟩ := hunit
    obtain ⟨-, -, hpll, htime, hsix⟩ := clockReported (clock_reportable hpix) hfresh hr hp
    exact ⟨_, exec_clockFailure k s, hpll h1 h7, hsix, fun h => htime (h5 h)⟩
  · intro u n d s hfresh
    exact ⟨_, rfl, chipReset hfresh⟩

end Sys2Proof.Machine
end

section
set_option Elab.async false
/-! Checkpoints, self-checks and re-masking. -/

namespace Sys2Proof.Machine

open Sys2Proof Sys2Proof.Laws

/-! ### Checkpoints (R386) -/

theorem ckHolds {g : Grove} {h : Nat} {s : State} (hg : ckGrove s g.val = some h) (hw : g.val = 8 → awaitsRemap s = none) :
    (if (awaitsRemap s).isSome && g.val = 8 then none else ckGrove s g.val) = some h := by
  rw [if_neg, hg]
  intro hc
  simp only [Bool.and_eq_true, decide_eq_true_eq] at hc
  rw [hw hc.2] at hc
  exact absurd hc.1 (by simp)

theorem captureKept (g : Grove) (h : Nat) (s : State) (hg : ckGrove s g.val = some h) (hw : g.val = 8 → awaitsRemap s = none)
    (hf : bit (s.rd RST_FLTSTAT_FENCED) g.val = false) :
    ∃ t, exec (.checkpoint g) s = .next t ∧ (mfind t.ckp h).isSome = true ∧ t.ck = s.ck ∧ partsOnly [.fb, .lc, .ckp] s t := by
  have hexec : exec (.checkpoint g) s = .next (capture g.val s) := by simp [exec, execCheckpoint, hf]
  refine ⟨_, hexec, ?_, capture_frame (κ := 17) rfl (.refl 17 s), partsOnly_of_exec hexec (by simp [touches])⟩
  unfold capture
  rw [ckHolds hg hw]
  dsimp only
  rw [mfind_mins, if_pos rfl]
  rfl

/-- What the sealing of a checkpoint brings a port. -/
def portSealed (k prev : Ckpt) (p : Nat) (u : State) : State :=
  let e := u.eg p
  let u := settleOwed p (u.setEg p { e with log := e.log.drop e.mark, mark := 0, owed := e.owed ++ e.log.take e.mark })
  let now := (mget {} k.ports p).lun
  let u := forgetOldKey p now u
  if p < 8 && canActive u p && now ≠ (mget {} prev.ports p).lun then u.emit (.can p "RACK" [(now + 65535) % 65536])
  else if u.rd (ADP_STAT_PERS p) = 1 then u.emit (.note "PCIe ACK" [p])
  else if u.rd (ADP_STAT_PERS p) = 5 ∨ u.rd (ADP_STAT_PERS p) = 10 then u.emit (.note "LGOOD" [p])
  else u

/-- What it brings a lane cell's hold buffer. -/
def cellSealed (c : Nat) (u : State) : State :=
  let x := u.lane c
  let y : Lane := { x with hold := x.hold.filter fun e => !e.captured }
  let y : Lane := { y with stopped := x.stopped && holdGo u (servedPort u c) c < holdKib y }
  (u.setLane c y).wr (LC_HOLD_USED c) (holdKib y)

theorem portSealed_frame {κ : Nat} (hκ : Nat.testBit 9232 κ = false) (k prev : Ckpt) (p : Nat) {s u : State} (h : Frame κ s u) : Frame κ s (portSealed k prev p u) := by
  have hsent : Nat.testBit 16 κ = false := testBit_sub rfl hκ
  have hgone := forgetOldKey_frame (p := p) (now := (mget {} k.ports p).lun) (testBit_sub rfl hκ) (settleOwed_frame (p := p) (testBit_sub rfl hκ)
    (State_setEg_frame (p := p) (x := { (u.eg p) with log := (u.eg p).log.drop (u.eg p).mark, mark := 0, owed := (u.eg p).owed ++ (u.eg p).log.take (u.eg p).mark })
      (testBit_sub rfl hκ) h))
  exact .ite (State_emit_frame hsent hgone) (.ite (State_emit_frame hsent hgone) (.ite (State_emit_frame hsent hgone) hgone))

theorem cellSealed_frame {κ : Nat} (hκ : Nat.testBit 16386 κ = false) (c : Nat) {s u : State} (h : Frame κ s u) : Frame κ s (cellSealed c u) :=
  State_wr_frame (testBit_sub rfl hκ) (State_setLane_frame (testBit_sub rfl hκ) h)

theorem ckComplete_of_captured {g : Grove} {h : Nat} {k : Ckpt} {s : State} (hg : ckGrove s g.val = some h) (hw : g.val = 8 → awaitsRemap s = none) (hk : mfind s.ckp h = some k) :
    ckComplete g.val s = forAll ((grovePorts h).flatMap portCells) cellSealed
      (forAll (grovePorts h) (portSealed k (mget {} s.ck h)) { s with ck := mins s.ck h k, ckp := mdel s.ckp h }) := by
  unfold ckComplete
  rw [ckHolds hg hw]
  dsimp only
  rw [hk]
  rfl

/-- The halves of the checkpoint swap as it is sealed (R386). -/
theorem checkpointSealed (g : Grove) (h : Nat) (k : Ckpt) (s : State) (hg : ckGrove s g.val = some h) (hw : g.val = 8 → awaitsRemap s = none)
    (hf : bit (s.rd RST_FLTSTAT_FENCED) g.val = false) (hk : mfind s.ckp h = some k) :
    ∃ t, exec (.checkpointComplete g) s = .next t ∧ mfind t.ck h = some k ∧ mfind t.ckp h = none ∧
      partsOnly [.regs, .sent, .fb, .cr, .cn, .lc, .ck, .ckp] s t := by
  have hexec : exec (.checkpointComplete g) s = .next (forAll (List.range 20) updatePause (forAll (List.range 256) creditUpdate (ckComplete g.val s))) := by
    simp [exec, execCheckpointComplete, hf]
  have hsame {κ : Nat} (hsealed : Nat.testBit 25618 κ = false) (hcr : Nat.testBit 4112 κ = false) (hpause : Nat.testBit 1040 κ = false) :
      Frame κ { s with ck := mins s.ck h k, ckp := mdel s.ckp h } (forAll (List.range 20) updatePause (forAll (List.range 256) creditUpdate (ckComplete g.val s))) := by
    rw [ckComplete_of_captured hg hw hk]
    exact forAll_frame (fun _ _ hu => updatePause_frame hpause hu) (forAll_frame (fun _ _ hu => creditUpdate_frame hcr hu)
      (forAll_frame (fun c _ hu => cellSealed_frame (testBit_sub rfl hsealed) c hu) (forAll_frame (fun p _ hu => portSealed_frame (testBit_sub rfl hsealed) _ _ p hu) (.refl _ _))))
  have hck : (forAll (List.range 20) updatePause (forAll (List.range 256) creditUpdate (ckComplete g.val s))).ck = mins s.ck h k := hsame (κ := 17) rfl rfl rfl
  have hckp : (forAll (List.range 20) updatePause (forAll (List.range 256) creditUpdate (ckComplete g.val s))).ckp = mdel s.ckp h := hsame (κ := 18) rfl rfl rfl
  refine ⟨_, hexec, ?_, ?_, partsOnly_of_exec hexec (by simp [touches])⟩
  · rw [hck, mfind_mins, if_pos rfl]
  · rw [hckp, mfind_mdel, if_pos rfl]

/-! ### Self-checks (R261) -/

theorem faultBegun_inFault (c : LaneCell) (s : State) : inFault c.val (raise (32 + c.val) 4 (restore [LC_HOLD_USED c.val]
    ((s.setLane c.val { faulted := true, chkAt := (s.lane c.val).chkAt }).wr (LC_STAT_STATE c.val) 9))) := by
  have hleaf : ¬ leafKey (LC_STAT_STATE c.val).key := (groveUp_lane c.val _ (by simp)).2
  have hshown : inFault c.val ((s.setLane c.val { faulted := true, chkAt := (s.lane c.val).chkAt }).wr (LC_STAT_STATE c.val) 9) :=
    ⟨by rw [State.lane_wr, State.lane_setLane_same], rd_wr_of_lt _ _ _ (show 9 < 2 ^ 4 by decide)⟩
  refine (hshown.of_same (restore_frame (κ := 14) rfl (.refl 14 _)) (rd_restore_ne _ ?_)).of_same (raise_frame (κ := 14) rfl (.refl 14 _)) (rd_raise_ne _ _ _ _ (ne_evstat hleaf _))
  simp only [List.forall_mem_cons, List.not_mem_nil, false_implies, implies_true, and_true, LC_STAT_STATE, LC_HOLD_USED, fld]
  omega

/-- A cell that fails enters FAULT and stays there, whatever its port does (R261, R395). -/
theorem failCell_inFault (c : LaneCell) {s : State} (h : (s.lane c.val).faulted = false) : inFault c.val (failCell c.val s) := by
  have hbegun := faultBegun_inFault c s
  have hleaf : ¬ leafKey (LC_STAT_STATE c.val).key := (groveUp_lane c.val _ (by simp)).2
  unfold failCell
  rw [if_neg (by simp [h])]
  dsimp only
  refine (inFault_degradePort (Nat.lt_trans c.isLt (by decide)) (servedPort s c.val) hbegun).of_same (raise_frame (κ := 14) rfl (.refl 14 _)) (rd_raise_ne _ _ _ _ (ne_evstat hleaf _))

theorem handled_lane {unit tun det : Nat} {inj : Bool} {s : State} (hr : reportable 1 unit s = true) :
    ∃ u : State, u.lc = s.lc ∧ reportFault 1 unit tun det inj s = failCell unit u := by
  have htake : (takeReport 1 unit tun det inj s).2.lc = s.lc := by
    unfold takeReport
    split
    · rfl
    · split
      · next e he => exact absurd (List.find?_some he) (by simp [widens, faultGrove])
      · exact logFault_frame (κ := 14) rfl (.refl 14 s)
  refine ⟨_, htake, ?_⟩
  simp only [reportFault, hr]
  simp [handleFault]

theorem selfcheckFails (c : LaneCell) (s : State) (hst : s.rd (LC_STAT_STATE c.val) = 8) (hr : reportable 1 c.val s = true) :
    ∃ t, exec (.selfchkComplete c false) s = .next t ∧ (t.lane c.val).faulted = true ∧ t.rd (LC_STAT_STATE c.val) = 9 := by
  have hexec : exec (.selfchkComplete c false) s = .next (reportFault 1 c.val 0 1 false s) := by simp [exec, execSelfchkComplete, hst]
  obtain ⟨u, hlc, heq⟩ := handled_lane (tun := 0) (det := 1) (inj := false) hr
  rw [heq] at hexec
  have hfine : (u.lane c.val).faulted = false := by
    have hs : (s.lane c.val).faulted = false := by
      simp only [reportable, Bool.and_eq_true] at hr
      simpa using hr.2
    rw [State.lane, hlc]
    exact hs
  obtain ⟨hf, hs⟩ := failCell_inFault c hfine
  exact ⟨_, hexec, hf, hs⟩


/-- A cell that passed, before its port follows. -/
def selfPassed (c : Nat) (s : State) : State := (s.setLane c { s.lane c with checked := some true }).wr (LC_RTR_CONSEC c) 0

theorem exec_selfcheckPasses {c : LaneCell} {s : State} (hst : s.rd (LC_STAT_STATE c.val) = 8) : exec (.selfchkComplete c true) s =
    .next (if (groupCells (selfPassed c.val s) (servedPort (selfPassed c.val s) c.val)).any fun d =>
        (selfPassed c.val s).rd (LC_STAT_STATE d) = 8 && ((selfPassed c.val s).lane d).checked.isNone then selfPassed c.val s
      else portDownAttached (servedPort (selfPassed c.val s) c.val) 1 (selfPassed c.val s)) := by
  simp only [exec, execSelfchkComplete, hst]
  rfl

theorem selfPassed_effects (c : Nat) (s : State) : ((selfPassed c s).lane c).checked = some true ∧ onlyWrites [LC_RTR_CONSEC c] [.lc] s (selfPassed c s) ∧
    ∀ d, d ≠ c → (selfPassed c s).rd (LC_STAT_STATE d) = s.rd (LC_STAT_STATE d) ∧ (selfPassed c s).lane d = s.lane d := by
  have hw : onlyWrites [LC_RTR_CONSEC c] [.lc] s (selfPassed c s) :=
    (onlyWrites_setLane _ s c _).trans ((onlyWrites_wr _ 0 _).mono (List.Subset.refl _) (by simp))
  refine ⟨?_, hw, fun d hd => ⟨hw.1 _ ?_, ?_⟩⟩
  · rw [selfPassed, State.lane_wr, State.lane_setLane_same]
  · simp only [List.forall_mem_cons, List.not_mem_nil, false_implies, implies_true, and_true, LC_STAT_STATE, LC_RTR_CONSEC, fld]
    omega
  · rw [selfPassed, State.lane_wr, State.lane_setLane_ne _ _ _ _ hd]

theorem served_selfPassed (c d : Nat) (s : State) : groupCells (selfPassed c s) d = groupCells s d ∧ servedPort (selfPassed c s) d = servedPort s d := ⟨rfl, rfl⟩

theorem selfcheckPasses (c : LaneCell) (s : State) (hst : s.rd (LC_STAT_STATE c.val) = 8)
    (hall : ∀ d ∈ groupCells s (servedPort s c.val), d ≠ c.val → s.rd (LC_STAT_STATE d) ≠ 8 ∨ (s.lane d).checked ≠ none) :
    ∃ t, exec (.selfchkComplete c true) s = .next t ∧ mfind t.sv.att (servedPort s c.val) = none ∧ (t.eg (servedPort s c.val)).waiting = true := by
  have hexec := exec_selfcheckPasses hst
  obtain ⟨hself, -, hrest⟩ := selfPassed_effects c.val s
  rw [(served_selfPassed ..).1, (served_selfPassed ..).2, if_neg] at hexec
  · exact ⟨_, hexec, mfind_att_portDownAttached .., waiting_portDownAttached ..⟩
  · rw [Bool.not_eq_true, List.any_eq_false]
    intro d hd
    by_cases e : d = c.val
    · simp [e, hself]
    · rw [(hrest d e).1, (hrest d e).2]
      rcases hall d hd e with h | h
      · simp [h]
      · cases hc : (s.lane d).checked with
        | none => exact absurd hc h
        | some _ => simp

theorem selfcheckWaits (c : LaneCell) (d : Nat) (s : State) (hst : s.rd (LC_STAT_STATE c.val) = 8) (hd : d ∈ groupCells s (servedPort s c.val)) (hne : d ≠ c.val)
    (hds : s.rd (LC_STAT_STATE d) = 8) (hdc : (s.lane d).checked = none) :
    ∃ t, exec (.selfchkComplete c true) s = .next t ∧ (t.lane c.val).checked = some true ∧ onlyWrites [LC_RTR_CONSEC c.val] [.lc] s t := by
  have hexec := exec_selfcheckPasses hst
  obtain ⟨hself, hw, hrest⟩ := selfPassed_effects c.val s
  rw [(served_selfPassed ..).1, (served_selfPassed ..).2, if_pos] at hexec
  · exact ⟨_, hexec, hself, hw⟩
  · refine List.any_eq_true.2 ⟨d, hd, ?_⟩
    rw [(hrest d hne).1, (hrest d hne).2]
    simp [hds, hdc]

/-! ### Re-masking (R490) -/

/-- The vault's place of re-masking moved on. -/
def remasked (s : State) : State := (if s.kv.next = 31 then s.incMod KEY_VAULT_REMASK else s).setKv { s.kv with next := (s.kv.next + 1) % 32 }

theorem onlyWrites_remasked (s : State) : onlyWrites [KEY_VAULT_REMASK] [.kv] s (remasked s) := by
  have hcount : onlyWrites [KEY_VAULT_REMASK] [] s (if s.kv.next = 31 then s.incMod KEY_VAULT_REMASK else s) := .ite (onlyWrites_wr _ _ s) (.refl _ _ s)
  unfold remasked
  generalize (if s.kv.next = 31 then s.incMod KEY_VAULT_REMASK else s) = t at hcount
  refine (hcount.mono (List.Subset.refl _) (by simp)).trans ⟨fun _ _ => rfl, fun q hq => ?_⟩
  cases q
  case kv => simp at hq
  all_goals rfl

theorem exec_remask {flip : Bool} {s : State} (hr : 2 ≤ s.bt.released) (hf : s.on KEY_VAULT_FROZEN = false) : exec (.remask flip) s =
    .next (if flip then reportFault 0xB 0 0 6 false (let t := raise 21 1 (setSlot s.kv.next 3 0 0 0 [] (remasked s))
      if 6 ≤ s.kv.next ∧ s.kv.next < 22 ∧ (canActive t ((s.kv.next - 6) / 2) ∨ bringingUp t ((s.kv.next - 6) / 2)) then portDownAttached ((s.kv.next - 6) / 2) 1 t else t)
      else remasked s) := by
  have hgo : ¬ (s.bt.released < 2 ∨ s.on KEY_VAULT_FROZEN) := by
    rw [hf]
    simp [Nat.not_lt.2 hr]
  show execRemask flip s = _
  unfold execRemask
  rw [if_neg hgo]
  cases flip <;> rfl

theorem remask_effects (s : State) (hr : 2 ≤ s.bt.released) (hf : s.on KEY_VAULT_FROZEN = false) :
    (∃ t, exec (.remask false) s = .next t ∧ t.kv.next = (s.kv.next + 1) % 32 ∧ t.kv.slots = s.kv.slots ∧ onlyWrites [KEY_VAULT_REMASK] [.kv] s t) ∧
    (recentReports s = [] → ∃ t, exec (.remask true) s = .next t ∧ t.rd RST_CAUSE_SEQWARM = 1) := by
  constructor
  · exact ⟨_, exec_remask hr hf, rfl, rfl, onlyWrites_remasked s⟩
  · intro hfresh
    have hexec := exec_remask (flip := true) hr hf
    rw [if_pos rfl] at hexec
    refine ⟨_, hexec, chipReset ?_⟩
    have hft : (raise 21 1 (setSlot s.kv.next 3 0 0 0 [] (remasked s))).ft = s.ft :=
      raise_frame (κ := 28) rfl (setSlot_frame (κ := 28) rfl (show (remasked s).ft = s.ft from (onlyWrites_remasked s).2 .ft (by decide)))
    have hclock : (raise 21 1 (setSlot s.kv.next 3 0 0 0 [] (remasked s))).clock = s.clock :=
      raise_frame (κ := 2) rfl (setSlot_frame (κ := 2) rfl (show (remasked s).clock = s.clock from (onlyWrites_remasked s).2 .clock (by decide)))
    generalize raise 21 1 (setSlot s.kv.next 3 0 0 0 [] (remasked s)) = t at hft hclock
    have hrecent {u : State} (h1 : u.ft = t.ft) (h2 : u.clock = t.clock) : recentReports u = [] := by
      unfold recentReports at hfresh ⊢
      rw [h1, h2, hft, hclock]
      exact hfresh
    dsimp only
    split
    · exact hrecent (portDownAttached_frame (κ := 28) rfl (.refl 28 t)) (portDownAttached_frame (κ := 2) rfl (.refl 2 t))
    · exact hrecent rfl rfl

/-- Settles O30, from the failed cell, the completed self-check, the seal of a checkpoint and the re-masking. -/
theorem checkpointsAndSelfChecks : Obligations.CheckpointsAndSelfChecks := by
  unfold Obligations.CheckpointsAndSelfChecks
  refine ⟨captureKept, checkpointSealed, fun g s hf => ?_, selfcheckFails, selfcheckPasses, selfcheckWaits, fun c b s hst => ?_, remask_effects⟩
  · constructor
    · simp [exec, execCheckpoint, hf]
    · simp [exec, execCheckpointComplete, hf]
  · simp [exec, execSelfchkComplete, hst]

end Sys2Proof.Machine
end

section
set_option Elab.async false
/-! What the movement of segments writes of the register map. -/

namespace Sys2Proof.Machine

open Sys2Proof Sys2Proof.Laws

/-! ### What segments and units write as they move (R104, R140, R143) -/

/-- The registers that the movement of segments writes: the leaves, the counters of the output positions, those of the groves' ports, and the tunnel table. -/
def fabricKeys (k : Nat) : Prop := leafKey k ∨ (0x502800 ≤ k ∧ k < 0x504000) ∨ (0x800000 ≤ k ∧ k < 0x1000000) ∨ 0x2000000 ≤ k

theorem fabricKeys_leaf (u : Nat) : fabricKeys (EVSTAT u).key := .inl (leafKey_evstat u)

theorem position_fields {o : Nat} (ho : o < 32) : ∀ f ∈ [FAB_OUTSEG_COUNT o, FAB_PARK_AREA o, FAB_PARK_PEAK o, FAB_STOMP_ABORTS o, FAB_STOMP_CTUNITS o, FAB_XGAP_TUN o],
    fabricKeys f.key ∧ ¬ leafKey f.key := by
  simp only [List.forall_mem_cons, List.not_mem_nil, false_implies, implies_true, and_true, fabricKeys, leafKey, FAB_OUTSEG_COUNT, FAB_PARK_AREA, FAB_PARK_PEAK,
    FAB_STOMP_ABORTS, FAB_STOMP_CTUNITS, FAB_XGAP_TUN, fld]
  omega

theorem entry_fields (n : Nat) : ∀ f ∈ [TT_SEQ_INSEQ n, TT_SEQ_OUTSEQ n, TT_SEGIN_COUNT n, TT_SEGOUT_COUNT n, TT_DISC_GENDIS n], fabricKeys f.key ∧ ¬ leafKey f.key := by
  simp only [List.forall_mem_cons, List.not_mem_nil, false_implies, implies_true, and_true, fabricKeys, leafKey, TT_SEQ_INSEQ, TT_SEQ_OUTSEQ, TT_SEGIN_COUNT,
    TT_SEGOUT_COUNT, TT_DISC_GENDIS, fld]
  omega

theorem port_fields (p : Nat) : ∀ f ∈ [GRV_FLST_XDISC p, GRV_FLST_OVRUN p, ADP_STAT_STATE p, CAN_ERR_RNAKTX p, CAN_STAT_RXEP p], fabricKeys f.key ∧ ¬ leafKey f.key := by
  have := portPlace_lt p
  have := portGrove_lt p
  simp only [List.forall_mem_cons, List.not_mem_nil, false_implies, implies_true, and_true, fabricKeys, leafKey, GRV_FLST_XDISC, GRV_FLST_OVRUN, ADP_STAT_STATE,
    CAN_ERR_RNAKTX, CAN_STAT_RXEP, portReg, fld]
  omega

theorem outPos_lt (s : State) (n : Nat) : outPosOf s n < 32 := by
  unfold outPosOf
  split
  · next h =>
    obtain he | he : entryOf n = 0 ∨ entryOf n = 1 := by omega
    · rw [he]; decide
    · rw [he]; decide
  · exact State.rd_lt s (TT_ENDP_OUTFAB (entryOf n))

theorem onlyKeys.fabricWr {s t : State} {f : Fld} {v : Nat} (h : onlyKeys fabricKeys s t) (hf : fabricKeys f.key ∧ ¬ leafKey f.key) : onlyKeys fabricKeys s (t.wr f v) := h.wr hf.1 hf.2

theorem onlyKeys_advanceSeq (o n : Nat) (s : State) : onlyKeys fabricKeys s (advanceSeq o n s) :=
  .ite (.of_regs (.refl _ s) rfl) (.fabricWr (.refl _ s) (entry_fields n _ (by simp)))

theorem onlyKeys_handOver {o : Nat} (ho : o < 32) (g : Seg) (s : State) : onlyKeys fabricKeys s (handOver o g s) := by
  have hcount : onlyKeys fabricKeys s ((advanceSeq o g.tun s).incMod (FAB_OUTSEG_COUNT o)) := (onlyKeys_advanceSeq o g.tun s).fabricWr (position_fields ho _ (by simp))
  unfold handOver
  dsimp only
  generalize (advanceSeq o g.tun s).incMod (FAB_OUTSEG_COUNT o) = t at hcount
  refine .ite (.of_regs hcount rfl) (.ite (.of_regs hcount rfl) (.ite ?_ ?_))
  · have hdisc := hcount.fabricWr (f := GRV_FLST_XDISC (outPortOf s g.tun)) (v := satInc (2 ^ (GRV_FLST_XDISC (outPortOf s g.tun)).w - 1) (t.rd (GRV_FLST_XDISC (outPortOf s g.tun))))
      (port_fields (outPortOf s g.tun) _ (by simp))
    exact .of_regs hdisc rfl
  · have hmark : onlyKeys fabricKeys s (if g.first && cutsThrough t (outPortOf s g.tun) g.tun then
        t.setEg (outPortOf s g.tun) { (t.eg (outPortOf s g.tun)) with ctMark := some g.tun } else t) := .ite (.of_regs hcount rfl) hcount
    unfold toAdapter
    generalize (if g.first && cutsThrough t (outPortOf s g.tun) g.tun then
        t.setEg (outPortOf s g.tun) { (t.eg (outPortOf s g.tun)) with ctMark := some g.tun } else t) = u at hmark
    exact .of_regs hmark rfl

theorem regs_maybeReturn (o n : Nat) (s : State) : (maybeReturn o n s).regs = s.regs := by
  unfold maybeReturn
  split <;> rfl

theorem onlyKeys_unpark {o : Nat} (ho : o < 32) (n fuel : Nat) (s : State) : onlyKeys fabricKeys s (unpark o n fuel s) := by
  induction fuel generalizing s with
  | zero => exact .refl _ s
  | succ fuel ih =>
    unfold unpark
    dsimp only
    split
    · exact .refl _ s
    · next q _ =>
      refine .ite (.refl _ s) (.trans ?_ (ih _))
      have hset : onlyKeys fabricKeys s (s.setOutPos o { (s.outPos o) with parked := (s.outPos o).parked.erase q }) := .of_regs (.refl _ s) rfl
      exact .of_regs (hset.trans (onlyKeys_handOver ho q.seg _)) (regs_maybeReturn ..)

theorem onlyKeys_park {o : Nat} (ho : o < 32) (g : Seg) (s : State) : onlyKeys fabricKeys s (park o g s) := by
  unfold park
  dsimp only
  generalize (isBulk s g.tun && 224 ≤ ((s.outPos o).parked.filter fun q => !q.area && isBulk s q.seg.tun).length) = area
  have hset : onlyKeys fabricKeys s (s.setOutPos o { (s.outPos o) with parked := (s.outPos o).parked ++ [{ seg := g, area := area }] }) := .of_regs (.refl _ s) rfl
  generalize s.setOutPos o { (s.outPos o) with parked := (s.outPos o).parked ++ [{ seg := g, area := area }] } = t at hset
  refine .ite (.raise (.fabricWr ?_ (position_fields ho _ (by simp))) (fabricKeys_leaf 13)) (.ite (hset.fabricWr (position_fields ho _ (by simp))) hset)
  exact .of_regs hset rfl

theorem onlyKeys_outArrive {o : Nat} (ho : o < 32) (g : Seg) (s : State) : onlyKeys fabricKeys s (outArrive o g s) :=
  .ite (.refl _ s) (.ite ((onlyKeys.of_regs (onlyKeys_handOver ho g s) (regs_maybeReturn ..)).trans (onlyKeys_unpark ho _ _ _)) (.ite (.refl _ s) (onlyKeys_park ho g s)))

theorem regs_meter (n len pre : Nat) (s : State) : (meter n len pre s).2.regs = s.regs := meter_frame (κ := 1) rfl (.refl 1 s)

theorem onlyKeys_admitSeg (n pre : Nat) (g : Seg) (s : State) : onlyKeys fabricKeys s (admitSeg n pre g s) := by
  have hmark : onlyKeys fabricKeys s (if isBulk s n && !s.on (TT_STATE_CASC n) then meter n g.payload.length pre s
      else (if s.on (TT_STATE_CASC n) then g.col else 0, s)).2 := by
    split
    · exact .of_regs (.refl _ s) (regs_meter ..)
    · exact .refl _ s
  unfold admitSeg
  dsimp only
  generalize (if isBulk s n && !s.on (TT_STATE_CASC n) then meter n g.payload.length pre s
      else (if s.on (TT_STATE_CASC n) then g.col else 0, s)) = x at hmark
  exact .fabricWr (.fabricWr (.of_regs hmark rfl) (entry_fields n _ (by simp))) (entry_fields n _ (by simp))

theorem onlyKeys_ingressSeg (p n pre : Nat) (g : Seg) (s : State) : onlyKeys fabricKeys s (ingressSeg p n pre g s) := by
  have hwake : onlyKeys fabricKeys s (wakeLink p s) := .ite (.fabricWr (.refl _ s) (port_fields p _ (by simp))) (.refl _ s)
  unfold ingressSeg
  dsimp only
  generalize wakeLink p s = t at hwake
  exact .ite hwake (.ite (hwake.fabricWr (entry_fields n _ (by simp))) (.ite (hwake.fabricWr (port_fields p _ (by simp))) (hwake.trans (onlyKeys_admitSeg n pre g t))))

theorem onlyKeys_ingressUnit (p n pre line : Nat) (data : Bytes) (s : State) : onlyKeys fabricKeys s (ingressUnit p n pre line data s) :=
  .forAll (.refl _ s) fun _ _ u => onlyKeys_ingressSeg p n pre _ u

theorem onlyKeys_deliver (p line : Nat) (x : LateUnit) (s : State) : onlyKeys fabricKeys s (deliver p line x s) := by
  unfold deliver
  split
  · exact onlyKeys_ingressUnit ..
  · next tb capture _ =>
    have hhead : onlyKeys fabricKeys s (ingressHeader p tb capture s).2 := by
      unfold ingressHeader
      dsimp only
      split
      · exact .refl _ s
      · split
        · exact .refl _ s
        · exact .raise (.refl _ s) (fabricKeys_leaf 20)
    exact hhead.trans (onlyKeys_ingressUnit ..)

theorem onlyKeys_breakOff (p n : Nat) (s : State) : onlyKeys fabricKeys s (breakOff p n s) := by
  unfold breakOff
  dsimp only
  refine .raise (.emit (.fabricWr (.of_regs (.refl _ s) rfl) (position_fields (outPos_lt s n) _ (by simp)))) (fabricKeys_leaf 13)

theorem onlyKeys_sendRnak (p : Nat) (s : State) : onlyKeys fabricKeys s (sendRnak p s) := .fabricWr (.emit (.refl _ s)) (port_fields p _ (by simp))

end Sys2Proof.Machine
end

section
set_option Elab.async false
/-! Takeover and failover. -/

namespace Sys2Proof.Machine

open Sys2Proof Sys2Proof.Laws

/-! ### A takeover begins (R391, R394) -/

/-- What the fault sequencer writes as it fences a grove for which GF stands in. -/
def takeoverWrites (g : Nat) (s : State) : List (Fld × Nat) := [(RST_CAUSE_GRV, s.rd RST_CAUSE_GRV ||| 2 ^ g), (RST_FLTSTAT_FENCED, s.rd RST_FLTSTAT_FENCED ||| 2 ^ g),
  (FAB_STATUS_FENCE, s.rd FAB_STATUS_FENCE ||| (3 * 4 ^ g)), (RST_FLTSTAT_GFFOR, g), (RST_FLTSTAT_SEQ, 4), (PST_GRANT_MW 8, s.rd (PST_GRANT_MW g)), (PST_GRANT_MW g, 0)]

theorem nodup_takeoverWrites {g : Nat} (hg : g < 8) (s : State) : ((takeoverWrites g s).map fun e => e.1.key).Nodup := by
  simp only [takeoverWrites, List.map_cons, List.map_nil]
  interval_cases g <;> decide

/-- A slice reload of the grove ends with the takeover. -/
def reloadDropped (g : Nat) (t : State) : State := match t.ld.reload with | some r => if r.grove = g then abortReload 8 t else t | none => t

theorem takeover_eq (g : Nat) (s : State) : takeover g s =
    let t := reloadDropped g (restore [EVSTAT g, EVEN g] (s.wrs (takeoverWrites g s)))
    { t with ckp := mdel t.ckp g, ft := { t.ft with start := t.clock } } := rfl

theorem onlyKeys_reloadDropped (g : Nat) (t : State) : onlyKeys haltKey t (reloadDropped g t) := by
  unfold reloadDropped
  split
  · exact .ite ((onlyKeys_abortReload 8 t).held) (.refl _ t)
  · exact .refl _ t

theorem takeover_fields : ∀ f ∈ [RST_FLTSTAT_FENCED, FAB_STATUS_FENCE, RST_FLTSTAT_GFFOR, RST_FLTSTAT_SEQ, RST_FLTSTAT_GFOK], ¬ haltKey f.key ∧ ¬ leafKey f.key := by
  unfold haltKey stopKeys loaderKeys slotKeys lossKey groveUp
  decide

theorem grant_fields {g : Nat} (hg : g < 9) : ¬ haltKey (PST_GRANT_MW g).key ∧ ¬ leafKey (PST_GRANT_MW g).key := by
  unfold haltKey stopKeys loaderKeys slotKeys lossKey groveUp
  interval_cases g <;> decide

theorem grove_unit {g : Nat} (hg : g < 9) : (EVSTAT 25).key ≠ (EVSTAT g).key ∧ (EVSTAT 25).key ≠ (EVEN g).key := by
  interval_cases g <;> decide

theorem even_apart {g : Nat} (hg : g < 9) : ∀ f ∈ [RST_FLTSTAT_FENCED, FAB_STATUS_FENCE, RST_FLTSTAT_GFFOR, RST_FLTSTAT_SEQ], f.key ≠ (EVEN g).key ∧ f.key ≠ (EVSTAT g).key := by
  interval_cases g <;> decide

theorem grant_apart {g h : Nat} (hg : g < 9) (hh : h < 9) : (PST_GRANT_MW h).key ≠ (EVEN g).key ∧ (PST_GRANT_MW h).key ≠ (EVSTAT g).key := by
  interval_cases g <;> interval_cases h <;> decide

theorem ckp_reloadDropped (g : Nat) (t : State) : (reloadDropped g t).ckp = t.ckp ∧ (reloadDropped g t).clock = t.clock := by
  unfold reloadDropped
  split
  · split
    · exact ⟨abortReload_frame (κ := 18) rfl (.refl 18 t), abortReload_frame (κ := 2) rfl (.refl 2 t)⟩
    · exact ⟨rfl, rfl⟩
  · exact ⟨rfl, rfl⟩

theorem bit_or_two_pow (x k : Nat) : bit (x ||| 2 ^ k) k = true := by simp [bit_eq_testBit]

/-- The two positions of a grove are the two bits at its place. -/
theorem fence_bits (x : Nat) {g : Nat} (hg : g < 8) : bit (x ||| 3 * 4 ^ g) (2 * g) = true ∧ bit (x ||| 3 * 4 ^ g) (2 * g + 1) = true ∧ 3 * 4 ^ g < 2 ^ 20 := by
  have hbits : (3 * 4 ^ g).testBit (2 * g) = true ∧ (3 * 4 ^ g).testBit (2 * g + 1) = true ∧ 3 * 4 ^ g < 2 ^ 20 := by
    interval_cases g <;> decide
  simp [bit_eq_testBit, hbits]
  exact hbits.2.2

theorem takeover_effects {g : Nat} (hg : g < 8) (s : State) :
    (takeover g s).rd RST_FLTSTAT_GFFOR = g ∧ bit ((takeover g s).rd RST_FLTSTAT_FENCED) g = true ∧ (takeover g s).rd RST_FLTSTAT_SEQ = 4 ∧
    bit ((takeover g s).rd FAB_STATUS_FENCE) (2 * g) = true ∧ bit ((takeover g s).rd FAB_STATUS_FENCE) (2 * g + 1) = true ∧
    (takeover g s).rd (PST_GRANT_MW 8) = s.rd (PST_GRANT_MW g) ∧ (takeover g s).rd (PST_GRANT_MW g) = 0 ∧ (takeover g s).ft.start = s.clock ∧
    mfind (takeover g s).ckp g = none ∧ (leafSet s 25 6 → leafSet (takeover g s) 25 6) := by
  have hval {f : Fld} {v : Nat} (he : (f, v) ∈ takeoverWrites g s) (hv : v < 2 ^ f.w) (h1 : f.key ≠ (EVEN g).key ∧ f.key ≠ (EVSTAT g).key) (h2 : ¬ haltKey f.key) :
      (takeover g s).rd f = v := by
    rw [takeover_eq]
    have hdrop := (onlyKeys_reloadDropped g (restore [EVSTAT g, EVEN g] (s.wrs (takeoverWrites g s)))).1 f h2
    refine Eq.trans (Eq.trans ?_ hdrop) ((rd_restore_ne _ (by simp [h1])).trans (rd_wrs_eq (nodup_takeoverWrites hg s) he hv s))
    rfl
  obtain ⟨hb0, hb1, hlt⟩ := fence_bits (s.rd FAB_STATUS_FENCE) hg
  have hfence : s.rd FAB_STATUS_FENCE < 2 ^ 20 := State.rd_lt s FAB_STATUS_FENCE
  have hfenced : s.rd RST_FLTSTAT_FENCED < 2 ^ 9 := State.rd_lt s RST_FLTSTAT_FENCED
  have hfl : s.rd FAB_STATUS_FENCE ||| 3 * 4 ^ g < 2 ^ 20 := Nat.or_lt_two_pow hfence hlt
  have hfd : s.rd RST_FLTSTAT_FENCED ||| 2 ^ g < 2 ^ 9 := Nat.or_lt_two_pow hfenced (Nat.pow_lt_pow_right (by decide) (by omega))
  have hgrant : s.rd (PST_GRANT_MW g) < 2 ^ 16 := State.rd_lt s (PST_GRANT_MW g)
  have hgl : g < 2 ^ 4 := by omega
  refine ⟨hval (by simp [takeoverWrites]) hgl (even_apart (by omega) _ (by simp)) (takeover_fields _ (by simp)).1, ?_,
    hval (by simp [takeoverWrites]) (show 4 < 2 ^ 3 by decide) (even_apart (by omega) _ (by simp)) (takeover_fields _ (by simp)).1, ?_, ?_,
    hval (by simp [takeoverWrites]) hgrant (grant_apart (by omega) (by omega)) (grant_fields (by omega)).1,
    hval (by simp [takeoverWrites]) (show 0 < 2 ^ 16 by decide) (grant_apart (by omega) (by omega)) (grant_fields (by omega)).1, ?_, ?_, ?_⟩
  · rw [hval (f := RST_FLTSTAT_FENCED) (by simp [takeoverWrites]) hfd (even_apart (by omega) _ (by simp)) (takeover_fields _ (by simp)).1]
    exact bit_or_two_pow _ _
  · rw [hval (f := FAB_STATUS_FENCE) (by simp [takeoverWrites]) hfl (even_apart (by omega) _ (by simp)) (takeover_fields _ (by simp)).1]
    exact hb0
  · rw [hval (f := FAB_STATUS_FENCE) (by simp [takeoverWrites]) hfl (even_apart (by omega) _ (by simp)) (takeover_fields _ (by simp)).1]
    exact hb1
  · have hclock : (restore [EVSTAT g, EVEN g] (s.wrs (takeoverWrites g s))).clock = s.clock := restore_frame (κ := 2) rfl (wrs_frame (k := 2) rfl (.refl 2 s))
    exact (ckp_reloadDropped g _).2.trans hclock
  · rw [takeover_eq]
    show mfind (mdel _ g) g = none
    rw [mfind_mdel, if_pos rfl]
  · intro hleaf
    rw [takeover_eq]
    have hwrs : onlyKeys (fun _ => True) s (s.wrs (takeoverWrites g s)) := .wrs (.refl _ s) (by
      simp only [takeoverWrites, List.forall_mem_cons, List.not_mem_nil, false_implies, implies_true, and_true, true_and]
      exact ⟨by decide, by decide, by decide, by decide, by decide, (grant_fields (by omega)).2, (grant_fields (by omega)).2⟩)
    have hrestore : leafSet (restore [EVSTAT g, EVEN g] (s.wrs (takeoverWrites g s))) 25 6 := by
      rw [leafSet, rd_restore_ne _ (by simp [grove_unit (g := g) (by omega)])]
      exact hwrs.2 _ _ hleaf
    exact (onlyKeys_reloadDropped g _).2 _ _ hrestore


/-- A report of a grove for which GF is fallow (R391, R394). -/
theorem groveReported {kind det : Nat} (hk : kind = 3 ∨ kind = 4) {g : Nat} {s : State} (hg : g < 8) (hr : reportable kind g s = true) (hfresh : recentReports s = [])
    (hgf : gfFor s = none) (hok : s.on RST_FLTSTAT_GFOK = true) : reportFault kind g 0 det false s = takeover g (logFault kind g 0 det false s) := by
  have hkeys := onlyKeys_logFault kind g 0 det false s
  have hhandle (u : State) : handleFault kind g u = groveFault g u := by rcases hk with rfl | rfl <;> rfl
  have hfenced : bit (s.rd RST_FLTSTAT_FENCED) g = false := by
    have hlast : (!bit (s.rd RST_FLTSTAT_FENCED) g) = true := by
      rcases hk with rfl | rfl
      · simp only [reportable, Bool.and_eq_true] at hr
        exact hr.2
      · simp only [reportable, Bool.and_eq_true] at hr
        exact hr.2
    simpa using hlast
  have hf : bit ((logFault kind g 0 det false s).rd RST_FLTSTAT_FENCED) g = false := by rw [hkeys.1 _ (logKey_apart _ (by simp))]; exact hfenced
  have hon : (logFault kind g 0 det false s).on RST_FLTSTAT_GFOK = true := by rw [State.on, hkeys.1 _ (logKey_apart _ (by simp))]; exact hok
  have hfor : gfFor (logFault kind g 0 det false s) = none := by rw [gfFor, hkeys.1 _ (logKey_apart _ (by simp))]; exact hgf
  rw [reportFault_fresh hr hfresh, hhandle]
  unfold groveFault
  rw [if_neg (by omega), hf, if_neg Bool.false_ne_true, if_pos (by simp [hfor, hon])]

theorem takeoverTaken {kind det : Nat} (hk : kind = 3 ∨ kind = 4) {g : Nat} {s : State} (hg : g < 8) (hr : reportable kind g s = true) (hfresh : recentReports s = [])
    (hgf : gfFor s = none) (hok : s.on RST_FLTSTAT_GFOK = true) (t : State) (ht : reportFault kind g 0 det false s = t) :
    t.rd RST_FLTSTAT_GFFOR = g ∧ bit (t.rd RST_FLTSTAT_FENCED) g = true ∧
      t.rd RST_FLTSTAT_SEQ = 4 ∧ bit (t.rd FAB_STATUS_FENCE) (2 * g) = true ∧ bit (t.rd FAB_STATUS_FENCE) (2 * g + 1) = true ∧
      t.rd (PST_GRANT_MW 8) = s.rd (PST_GRANT_MW g) ∧ t.rd (PST_GRANT_MW g) = 0 ∧ t.ft.start = s.clock ∧
      mfind t.ckp g = none ∧ leafSet t 25 6 ∧ partsOnly [.regs, .mg, .ld, .ckp, .kv, .ft] s t := by
  have hgrant : (logFault kind g 0 det false s).rd (PST_GRANT_MW g) = s.rd (PST_GRANT_MW g) := by
    refine (onlyKeys_logFault ..).1 _ ?_
    unfold logKey
    interval_cases g <;> decide
  have hclock : (logFault kind g 0 det false s).clock = s.clock := logFault_frame (κ := 2) rfl (.refl 2 s)
  obtain ⟨h1, h2, h3, h4, h5, h6, h7, h8, h9, hleaf⟩ := takeover_effects hg (logFault kind g 0 det false s)
  have hparts : partsOnly [.regs, .mg, .ld, .ckp, .kv, .ft] s (takeover g (logFault kind g 0 det false s)) :=
    partsOnly_of_parts fun k hk => takeover_frame (testBit_sub rfl hk) (logFault_frame (testBit_sub rfl hk) (.refl k s))
  rw [groveReported hk hg hr hfresh hgf hok] at ht
  subst ht
  rw [hgrant] at h6
  rw [hclock] at h8
  exact ⟨h1, h2, h3, h4, h5, h6, h7, h8, h9, hleaf (logFault_effects ..).2.2.2, hparts⟩

theorem takeoverBegins (g : Grove) (s : State) (hg : g.val < 8) (hr : reportable 3 g.val s = true) (hfresh : recentReports s = []) (hgf : gfFor s = none)
    (hok : s.on RST_FLTSTAT_GFOK = true) :
    (∃ t, exec (.progressWatchdog g) s = .next t ∧ t.rd RST_FLTSTAT_GFFOR = g.val ∧ bit (t.rd RST_FLTSTAT_FENCED) g.val = true ∧
      t.rd RST_FLTSTAT_SEQ = 4 ∧ bit (t.rd FAB_STATUS_FENCE) (2 * g.val) = true ∧ bit (t.rd FAB_STATUS_FENCE) (2 * g.val + 1) = true ∧
      t.rd (PST_GRANT_MW 8) = s.rd (PST_GRANT_MW g.val) ∧ t.rd (PST_GRANT_MW g.val) = 0 ∧ t.ft.start = s.clock ∧
      mfind t.ckp g.val = none ∧ leafSet t 25 6 ∧ partsOnly [.regs, .mg, .ld, .ckp, .kv, .ft] s t) ∧
    (∃ t, exec (.arbiterWatchdog g) s = .next t ∧ t.rd RST_FLTSTAT_GFFOR = g.val ∧ bit (t.rd RST_FLTSTAT_FENCED) g.val = true ∧
      t.rd RST_FLTSTAT_SEQ = 4 ∧ bit (t.rd FAB_STATUS_FENCE) (2 * g.val) = true ∧ bit (t.rd FAB_STATUS_FENCE) (2 * g.val + 1) = true ∧
      leafSet t 25 6 ∧ partsOnly [.regs, .mg, .ld, .ckp, .kv, .ft] s t) := by
  constructor
  · exact ⟨_, rfl, takeoverTaken (.inl rfl) hg hr hfresh hgf hok _ rfl⟩
  · obtain ⟨h1, h2, h3, h4, h5, -, -, -, -, hleaf, hparts⟩ := takeoverTaken (det := 10) (.inr rfl) hg (show reportable 4 g.val s = true from hr) hfresh hgf hok _ rfl
    exact ⟨_, rfl, h1, h2, h3, h4, h5, hleaf, hparts⟩

/-! ### The switch of a takeover (R145, R393) -/

/-- The registers that the replay after a switch writes. -/
def replayKeys (k : Nat) : Prop := fabricKeys k ∨ trainKey k

theorem onlyKeys.replay {s t : State} (h : onlyKeys fabricKeys s t) : onlyKeys replayKeys s t := h.mono fun _ => .inl

theorem regs_restoreShaper (k : InCk) (n : Nat) (s : State) : (restoreShaper k n s).regs = s.regs := rfl

theorem onlyKeys_restoreIn (k : InCk) (n : Nat) (s : State) : onlyKeys fabricKeys s (restoreIn k n s) := by
  have hq : onlyKeys fabricKeys s (s.setIngress n ((s.ingressQ n).filter fun g => !decide ((g.seq + 2048 - k.inseq) % 2048 < 1024))) := .of_regs (.refl _ s) rfl
  unfold restoreIn
  dsimp only
  generalize s.setIngress n ((s.ingressQ n).filter fun g => !decide ((g.seq + 2048 - k.inseq) % 2048 < 1024)) = t at hq
  have hseq : onlyKeys fabricKeys s (t.wrs [(TT_SEQ_INSEQ n, k.inseq), (TT_SEGIN_COUNT n, k.segin)]) := hq.wrs (by
    simp only [List.forall_mem_cons, List.not_mem_nil, false_implies, implies_true, and_true]
    exact ⟨entry_fields n _ (by simp), entry_fields n _ (by simp)⟩)
  exact .of_regs hseq rfl

theorem onlyKeys_restoreOut (k : OutCk) (n : Nat) (s : State) : onlyKeys fabricKeys s (restoreOut k n s) := by
  have hflow : onlyKeys fabricKeys s (s.setFlow n { (s.flow n) with deficit := k.deficit, lastRet := k.lastRet }) := .of_regs (.refl _ s) rfl
  unfold restoreOut
  dsimp only
  generalize s.setFlow n { (s.flow n) with deficit := k.deficit, lastRet := k.lastRet } = t at hflow
  have hseq : onlyKeys fabricKeys s (if 256 ≤ n then t.setFlow n { (t.flow n) with mid := k.next } else t.wrs [(TT_SEQ_OUTSEQ n, k.next), (TT_SEGOUT_COUNT n, k.segout)]) := by
    refine .ite (.of_regs hflow rfl) (hflow.wrs ?_)
    simp only [List.forall_mem_cons, List.not_mem_nil, false_implies, implies_true, and_true]
    exact ⟨entry_fields n _ (by simp), entry_fields n _ (by simp)⟩
  generalize (if 256 ≤ n then t.setFlow n { (t.flow n) with mid := k.next } else t.wrs [(TT_SEQ_OUTSEQ n, k.next), (TT_SEGOUT_COUNT n, k.segout)]) = u at hseq
  have hcredit : onlyKeys fabricKeys s (if outPosOf s n < 19 then u.setCredit (entryOf n) { (u.credit (entryOf n)) with limit := k.limit, sent := k.sent } else u) :=
    .ite (.of_regs hseq rfl) hseq
  exact .of_regs hcredit rfl

theorem onlyKeys_backEpoch (p epoch : Nat) (s : State) : onlyKeys fabricKeys s (backEpoch p epoch s) := by
  unfold backEpoch
  dsimp only
  split
  · exact .refl _ s
  · split
    · exact .refl _ s
    · exact .fabricWr (.setCan (.refl _ s)) (port_fields p _ (by simp))

theorem onlyKeys_replayPort (k : Ckpt) (p : Nat) (s : State) : onlyKeys fabricKeys s (replayPort k p s) := by
  have hin : onlyKeys fabricKeys s (forAll (ingressTunnels s p) (fun n t => restoreIn (mget {} k.ins n) n t) s) := .forAll (.refl _ s) fun n _ u => onlyKeys_restoreIn _ n u
  unfold replayPort
  dsimp only
  generalize forAll (ingressTunnels s p) (fun n t => restoreIn (mget {} k.ins n) n t) s = t at hin
  refine .ite (.refl _ s) (.ite ?_ (.ite (.emit hin) (.ite (.emit hin) hin)))
  exact (onlyKeys.setCan (hin.trans (onlyKeys_backEpoch p _ t))).trans (onlyKeys_sendRnak p _)

/-- A unit that the fence cut off in cut-through is broken off and its queue is emptied. -/
def cutOff (p : Nat) (s : State) : State := match (s.eg p).ct with | none => s | some n => (breakOff p n s).setTx n []

theorem replayKeeper_eq (k : Ckpt) (p : Nat) (s : State) : replayKeeper k p s = (cutOff p s).setEg p { ((cutOff p s).eg p) with
    paused := (mget {} k.ports p).paused, pausing := (mget {} k.ports p).pausing, ctMark := none, redo := ((cutOff p s).eg p).log.map fun x => (x.1, x.2.1) } := rfl

theorem onlyKeys_replayKeeper (k : Ckpt) (p : Nat) (s : State) : onlyKeys fabricKeys s (replayKeeper k p s) := by
  have hcut : onlyKeys fabricKeys s (cutOff p s) := by
    unfold cutOff
    split
    · exact .refl _ s
    · next n _ => exact .of_regs (onlyKeys_breakOff p n s) rfl
  rw [replayKeeper_eq]
  exact .setEg hcut

theorem onlyKeys_replayEgress {g : Nat} (hg : g < 16) (s : State) : onlyKeys fabricKeys s (replayEgress g s) := by
  have hparked : onlyKeys fabricKeys s (forAll [2 * g, 2 * g + 1] (fun o t => t.setOutPos o { (t.outPos o) with parked := [] }) s) :=
    .forAll (.refl _ s) fun o _ u => .of_regs (.refl _ u) rfl
  unfold replayEgress
  dsimp only
  generalize forAll [2 * g, 2 * g + 1] (fun o t => t.setOutPos o { (t.outPos o) with parked := [] }) s = t at hparked
  refine hparked.forAll fun e he u => onlyKeys_outArrive ?_ e.2 u
  obtain ⟨j, -, hj⟩ := List.mem_flatMap.1 he
  have hpos := (List.mem_filter.1 hj).2
  simp only [decide_eq_true_eq] at hpos
  omega

theorem onlyKeys_deliverLate (p : Nat) (s : State) : onlyKeys fabricKeys s (deliverLate p s) :=
  .forAll (.setAdp (.refl _ s)) fun x _ u => onlyKeys_deliver p _ x u

/-- The registers of the switch itself. -/
def remapWrites (g : Nat) (s : State) : List (Fld × Nat) := [(FAB_REMAP_PHYS (2 * g), 16), (FAB_REMAP_PHYS (2 * g + 1), 17), (FAB_REMAP_ATT 16, 0), (FAB_REMAP_ATT 17, 0),
  (FAB_STATUS_FENCE, s.rd FAB_STATUS_FENCE - (s.rd FAB_STATUS_FENCE &&& (3 * 4 ^ g))), (RST_FLTSTAT_SEQ, 6)]

/-- The grove's cells and positions attached to GF, before the replay. -/
def groveSwitched (g : Nat) (s : State) : State :=
  raise 13 3 (forAll [4 * g, 4 * g + 1, 4 * g + 2, 4 * g + 3] (fun c u => u.wr (LC_STAT_OWNER c) 8) (s.wrs (remapWrites g s)))

/-- The replay that follows the switch. -/
def groveReplayed (g : Nat) (t : State) : State :=
  let k := mget {} t.ck g
  let t := forAll ((List.range 256).filter fun n => tunActive t n && inPosOf t n / 2 = g) (fun n u => restoreShaper (mget {} k.ins n) n u) t
  let t := forAll (grovePorts g) deliverLate (forAll (grovePorts g) (replayPort k) t)
  let t := forAll (grovePorts g) (replayKeeper k) t
  let t := replayEgress g (forAll (outStreams t g) (fun n u => restoreOut (mget {} k.outs n) n u) t)
  forAll ((grovePorts g).filter fun p => p < 8 && (t.can p).rtrn) (fun p u => retrainCause p (u.setCan p { (u.can p) with rtrn := false })) t

theorem remapGrove_eq (g : Nat) (s : State) : remapGrove g s = groveReplayed g (groveSwitched g s) := rfl

theorem onlyKeys_groveReplayed {g : Nat} (hg : g < 16) (t : State) : onlyKeys replayKeys t (groveReplayed g t) := by
  unfold groveReplayed
  dsimp only
  generalize mget {} t.ck g = k
  have hshaper : onlyKeys fabricKeys t (forAll ((List.range 256).filter fun n => tunActive t n && inPosOf t n / 2 = g) (fun n u => restoreShaper (mget {} k.ins n) n u) t) :=
    .forAll (.refl _ t) fun n _ u => .of_regs (.refl _ u) rfl
  generalize forAll ((List.range 256).filter fun n => tunActive t n && inPosOf t n / 2 = g) (fun n u => restoreShaper (mget {} k.ins n) n u) t = a at hshaper
  have hports := ((hshaper.forAll (l := grovePorts g) (f := replayPort k) fun p _ u => onlyKeys_replayPort k p u).forAll (l := grovePorts g) (f := deliverLate)
    fun p _ u => onlyKeys_deliverLate p u).forAll (l := grovePorts g) (f := replayKeeper k) fun p _ u => onlyKeys_replayKeeper k p u
  generalize forAll (grovePorts g) (replayKeeper k) (forAll (grovePorts g) deliverLate (forAll (grovePorts g) (replayPort k) a)) = b at hports
  have hout := (hports.forAll (l := outStreams b g) (f := fun n u => restoreOut (mget {} k.outs n) n u) fun n _ u => onlyKeys_restoreOut _ n u).trans (onlyKeys_replayEgress hg _)
  generalize replayEgress g (forAll (outStreams b g) (fun n u => restoreOut (mget {} k.outs n) n u) b) = c at hout
  exact hout.replay.forAll fun p _ u => (onlyKeys.setCan (.refl _ u)).trans ((onlyKeys_retrainCause p _).mono fun _ => .inr)


theorem nodup_remapWrites {g : Nat} (hg : g < 8) (s : State) : ((remapWrites g s).map fun e => e.1.key).Nodup := by
  simp only [remapWrites, List.map_cons, List.map_nil]
  interval_cases g <;> decide

theorem remap_fields {g : Nat} (hg : g < 8) : ∀ f ∈ [FAB_REMAP_PHYS (2 * g), FAB_REMAP_PHYS (2 * g + 1), FAB_STATUS_FENCE, RST_FLTSTAT_SEQ],
    ¬ replayKeys f.key ∧ ¬ leafKey f.key ∧ f.key < 0x1000000 := by
  simp only [List.forall_mem_cons, List.not_mem_nil, false_implies, implies_true, and_true, replayKeys, fabricKeys, leafKey, trainKey, FAB_REMAP_PHYS, FAB_STATUS_FENCE,
    RST_FLTSTAT_SEQ, fld]
  omega

theorem owner_field {c : Nat} (hc : c < 40) : ¬ replayKeys (LC_STAT_OWNER c).key ∧ ¬ leafKey (LC_STAT_OWNER c).key := by
  simp only [replayKeys, fabricKeys, leafKey, trainKey, LC_STAT_OWNER, fld]
  omega

/-- A mask without a part of it has none of the part's bits. -/
theorem testBit_sub_and {x m i : Nat} (hm : m.testBit i = true) : (x - (x &&& m)).testBit i = false := by
  have hhalf (x m : Nat) : (x &&& m) / 2 = x / 2 &&& m / 2 := Nat.and_div_two
  have hparity (x m : Nat) : (x &&& m) % 2 = 1 ↔ x % 2 = 1 ∧ m % 2 = 1 := Nat.and_mod_two_eq_one
  induction i generalizing x m with
  | zero =>
    have hodd : m % 2 = 1 := by simpa using hm
    have := hparity x m
    have := Nat.and_le_left (n := x) (m := m)
    simp only [Nat.testBit_zero, decide_eq_false_iff_not]
    omega
  | succ i ih =>
    rw [Nat.testBit_succ] at hm ⊢
    have := hparity x m
    have := hhalf x m
    have := Nat.and_le_left (n := x) (m := m)
    rw [show (x - (x &&& m)) / 2 = x / 2 - (x / 2 &&& m / 2) by omega]
    exact ih hm

theorem fence_cleared (x : Nat) {g : Nat} (hg : g < 8) : bit (x - (x &&& (3 * 4 ^ g))) (2 * g) = false ∧ bit (x - (x &&& (3 * 4 ^ g))) (2 * g + 1) = false := by
  have hbits : (3 * 4 ^ g).testBit (2 * g) = true ∧ (3 * 4 ^ g).testBit (2 * g + 1) = true := by interval_cases g <;> decide
  rw [bit_eq_testBit, bit_eq_testBit]
  exact ⟨testBit_sub_and hbits.1, testBit_sub_and hbits.2⟩

theorem groveSwitched_effects {g : Nat} (hg : g < 8) (s : State) : (groveSwitched g s).rd (FAB_REMAP_PHYS (2 * g)) = 16 ∧ (groveSwitched g s).rd (FAB_REMAP_PHYS (2 * g + 1)) = 17 ∧
    bit ((groveSwitched g s).rd FAB_STATUS_FENCE) (2 * g) = false ∧ bit ((groveSwitched g s).rd FAB_STATUS_FENCE) (2 * g + 1) = false ∧
    (∀ c, c < 4 → (groveSwitched g s).rd (LC_STAT_OWNER (4 * g + c)) = 8) ∧ (groveSwitched g s).rd RST_FLTSTAT_SEQ = 6 ∧ leafSet (groveSwitched g s) 13 3 := by
  have howner (f : Fld) (hf : f.key < 0x1000000) (c : Nat) : f.key ≠ (LC_STAT_OWNER c).key := by
    simp only [LC_STAT_OWNER, fld]
    omega
  have hval {f : Fld} {v : Nat} (he : (f, v) ∈ remapWrites g s) (hv : v < 2 ^ f.w) (h1 : ¬ leafKey f.key) (h2 : f.key < 0x1000000) : (groveSwitched g s).rd f = v := by
    rw [groveSwitched, rd_raise_ne _ _ _ _ (ne_evstat h1 13)]
    exact forAll_induction (P := fun u => u.rd f = v) (rd_wrs_eq (nodup_remapWrites hg s) he hv s) fun c _ u hu => (State.rd_wr_ne _ _ _ _ (howner f h2 c)).trans hu
  have hfield := remap_fields hg
  have hfence : s.rd FAB_STATUS_FENCE < 2 ^ 20 := State.rd_lt s FAB_STATUS_FENCE
  have hfl : s.rd FAB_STATUS_FENCE - (s.rd FAB_STATUS_FENCE &&& (3 * 4 ^ g)) < 2 ^ 20 := Nat.lt_of_le_of_lt (Nat.sub_le _ _) hfence
  have hf := hval (f := FAB_STATUS_FENCE) (by simp [remapWrites]) hfl (hfield _ (by simp)).2.1 (hfield _ (by simp)).2.2
  refine ⟨hval (by simp [remapWrites]) (show 16 < 2 ^ 5 by decide) (hfield _ (by simp)).2.1 (hfield _ (by simp)).2.2,
    hval (by simp [remapWrites]) (show 17 < 2 ^ 5 by decide) (hfield _ (by simp)).2.1 (hfield _ (by simp)).2.2, ?_, ?_, ?_,
    hval (by simp [remapWrites]) (show 6 < 2 ^ 3 by decide) (hfield _ (by simp)).2.1 (hfield _ (by simp)).2.2, leafSet_raise _ _ _ (by decide)⟩
  · rw [hf]
    exact (fence_cleared _ hg).1
  · rw [hf]
    exact (fence_cleared _ hg).2
  · intro c hc
    rw [groveSwitched, rd_raise_ne _ _ _ _ (ne_evstat (owner_field (by omega)).2 13)]
    have hset (u : State) : (u.wr (LC_STAT_OWNER (4 * g + c)) 8).rd (LC_STAT_OWNER (4 * g + c)) = 8 := rd_wr_of_lt _ _ _ (show 8 < 2 ^ 4 by decide)
    refine forAll_establishes (P := fun u => u.rd (LC_STAT_OWNER (4 * g + c)) = 8) (x := 4 * g + c) _ ?_ hset fun d _ u hu => ?_
    · simp only [List.mem_cons, List.not_mem_nil, or_false]
      omega
    · by_cases e : 4 * g + c = d
      · exact e ▸ hset u
      · exact (State.rd_wr_ne _ _ _ _ (by simp only [LC_STAT_OWNER, fld]; omega)).trans hu

theorem remapGrove_effects (g : Nat) (s : State) (hg : g < 8) : (remapGrove g s).rd (FAB_REMAP_PHYS (2 * g)) = 16 ∧ (remapGrove g s).rd (FAB_REMAP_PHYS (2 * g + 1)) = 17 ∧
    bit ((remapGrove g s).rd FAB_STATUS_FENCE) (2 * g) = false ∧ bit ((remapGrove g s).rd FAB_STATUS_FENCE) (2 * g + 1) = false ∧
    (∀ c, c < 4 → (remapGrove g s).rd (LC_STAT_OWNER (4 * g + c)) = 8) ∧ (remapGrove g s).rd RST_FLTSTAT_SEQ = 6 ∧
    leafSet (remapGrove g s) 13 3 := by
  obtain ⟨h1, h2, h3, h4, h5, h6, h7⟩ := groveSwitched_effects hg s
  have hkeys := onlyKeys_groveReplayed (g := g) (by omega) (groveSwitched g s)
  have hfield := remap_fields hg
  rw [remapGrove_eq]
  generalize groveSwitched g s = t at h1 h2 h3 h4 h5 h6 h7 hkeys
  refine ⟨?_, ?_, ?_, ?_, fun c hc => ?_, ?_, hkeys.2 _ _ h7⟩
  · rw [hkeys.1 _ (hfield _ (by simp)).1, h1]
  · rw [hkeys.1 _ (hfield _ (by simp)).1, h2]
  · rw [hkeys.1 _ (hfield _ (by simp)).1, h3]
  · rw [hkeys.1 _ (hfield _ (by simp)).1, h4]
  · rw [hkeys.1 _ (owner_field (by omega)).1, h5 c hc]
  · rw [hkeys.1 _ (hfield _ (by simp)).1, h6]

theorem remapDue_effects (s : State) : (remapDue s).clock = s.clock ∧ (remapDue s).ft = s.ft ∧ (awaitsRemap s = none → remapDue s = s) ∧
    (remapDue s).rd RST_FLTTIME_MAX = s.rd RST_FLTTIME_MAX := by
  unfold remapDue
  split
  · exact ⟨rfl, rfl, fun _ => rfl, rfl⟩
  · next g hg =>
    refine ⟨remapGrove_frame (κ := 2) rfl (.refl 2 s), remapGrove_frame (κ := 28) rfl (.refl 28 s), fun h => absurd (hg ▸ h) (by simp), ?_⟩
    have hg16 : g < 16 := by
      unfold awaitsRemap at hg
      split at hg
      · unfold gfFor at hg
        split at hg
        · exact absurd hg (by simp)
        · exact Option.some.inj hg ▸ State.rd_lt s RST_FLTSTAT_GFFOR
      · exact absurd hg (by simp)
    have hlong : ¬ replayKeys RST_FLTTIME_MAX.key := by
      simp only [replayKeys, fabricKeys, leafKey, trainKey, RST_FLTTIME_MAX, fld]
      omega
    rw [remapGrove_eq, (onlyKeys_groveReplayed hg16 _).1 _ hlong, groveSwitched, rd_raise_ne _ _ _ _ (ne_evstat (by decide) 13)]
    refine forAll_induction (P := fun u => u.rd RST_FLTTIME_MAX = s.rd RST_FLTTIME_MAX) (State.rd_wrs_ne _ _ _ ?_) fun c _ u hu => (State.rd_wr_ne _ _ _ _ ?_).trans hu
    · simp only [remapWrites, List.forall_mem_cons, List.not_mem_nil, false_implies, implies_true, and_true, RST_FLTTIME_MAX, FAB_REMAP_PHYS, FAB_REMAP_ATT, FAB_STATUS_FENCE,
        RST_FLTSTAT_SEQ, fld]
      omega
    · simp only [RST_FLTTIME_MAX, LC_STAT_OWNER, fld]
      omega

/-- The end of a takeover is a failover with its time (R391). -/
def takeoverEnded (us : Nat) (u : State) : State :=
  raise 25 7 (u.wrs [(RST_FLTSTAT_SEQ, 0), (RST_FLTTIME_LAST, us), (RST_FLTTIME_MAX, max us (u.rd RST_FLTTIME_MAX))])

theorem failoverEnds (s : State) (h : s.rd RST_FLTSTAT_SEQ ≠ 0) :
    ∃ t, exec .failover s = .next t ∧ t.rd RST_FLTSTAT_SEQ = 0 ∧ leafSet t 25 7 ∧
      t.rd RST_FLTTIME_LAST = min 65535 ((s.clock - s.ft.start) / 1000) ∧
      t.rd RST_FLTTIME_MAX = max (min 65535 ((s.clock - s.ft.start) / 1000)) (s.rd RST_FLTTIME_MAX) ∧
      (awaitsRemap s = none → onlyWrites [RST_FLTSTAT_SEQ, RST_FLTTIME_LAST, RST_FLTTIME_MAX, EVSTAT 25] [.mg] s t) := by
  have hexec : exec .failover s = .next (takeoverEnded (min 65535 (((remapDue s).clock - (remapDue s).ft.start) / 1000)) (remapDue s)) := by
    simp only [exec, execFailover, endTakeover, if_neg h]
    rfl
  obtain ⟨hclock, hft, hsame, hmax⟩ := remapDue_effects s
  rw [hclock, hft] at hexec
  have hus : min 65535 ((s.clock - s.ft.start) / 1000) < 2 ^ 16 := Nat.lt_of_le_of_lt (Nat.min_le_left _ _) (by decide)
  generalize min 65535 ((s.clock - s.ft.start) / 1000) = us at hexec hus
  generalize remapDue s = u at hexec hsame hmax
  have hm : max us (u.rd RST_FLTTIME_MAX) < 2 ^ 16 := max_lt hus (State.rd_lt u RST_FLTTIME_MAX)
  have hnodup : (([(RST_FLTSTAT_SEQ, 0), (RST_FLTTIME_LAST, us), (RST_FLTTIME_MAX, max us (u.rd RST_FLTTIME_MAX))] : List (Fld × Nat)).map fun e => e.1.key).Nodup := by
    simp only [List.map_cons, List.map_nil]
    decide
  have hval {f : Fld} {v : Nat} (he : (f, v) ∈ [(RST_FLTSTAT_SEQ, 0), (RST_FLTTIME_LAST, us), (RST_FLTTIME_MAX, max us (u.rd RST_FLTTIME_MAX))]) (hv : v < 2 ^ f.w)
      (hl : ¬ leafKey f.key) : (takeoverEnded us u).rd f = v := (rd_raise_ne _ _ _ _ (ne_evstat hl 25)).trans (rd_wrs_eq hnodup he hv u)
  refine ⟨_, hexec, hval (by simp) (show 0 < 2 ^ 3 by decide) (by decide), leafSet_raise _ _ _ (by decide), hval (by simp) hus (by decide), ?_, fun ha => ?_⟩
  · rw [hval (f := RST_FLTTIME_MAX) (by simp) hm (by decide), hmax]
  · rw [← hsame ha]
    exact ((onlyWrites_wrs (by simp) u).mono (List.Subset.refl _) (by simp)).trans ((onlyWrites_raise 25 7 _).mono (by simp) (List.Subset.refl _))

/-- Settles O29, from the takeover's and the remap's effects (`takeover_effects`, `remapDue_effects`). -/
theorem takeoverAndFailover : Obligations.TakeoverAndFailover := by
  unfold Obligations.TakeoverAndFailover
  refine ⟨takeoverBegins, fun g a r o s _ hw hc => ?_, remapGrove_effects, failoverEnds, fun s h => ?_⟩
  · have hdue : remapDue s = remapGrove g.val s := by simp [remapDue, hw]
    show Host.Outcome.next (agentWork (slotStep a r o (if s.rd FAB_SLOT_COUNT % 20 = 0 then remapDue s else s))) = _
    rw [if_pos hc, hdue]
  · simp [exec, execFailover, endTakeover, h]

end Sys2Proof.Machine
end

section
set_option Elab.async false
/-! Resets, power-state requests, Hard Resets, latches and the budget by command. -/

namespace Sys2Proof.Machine

open Sys2Proof Sys2Proof.Laws

/-! ### An injected report (R400) -/

/-- The fields that a report is injected by. -/
def injected (u : Nat) (s : State) : State := (s.wr RST_FLTINJ_KIND 1).wr RST_FLTINJ_UNIT u

theorem onlyWrites_injected (u : Nat) (s : State) : onlyWrites [RST_FLTINJ_KIND, RST_FLTINJ_UNIT] [] s (injected u s) :=
  ((onlyWrites_wr ..).mono (by simp) (by simp)).trans ((onlyWrites_wr ..).mono (by simp) (by simp))

theorem variant_congr {s t : State} (h : ∀ f ∈ [SYS_STAGE_FUSEFLT, FUSE_VAR_V], t.rd f = s.rd f) : variant t = variant s := by
  rw [variant, variant, fuseFault, fuseFault, State.on, State.on, h SYS_STAGE_FUSEFLT (by simp), h FUSE_VAR_V (by simp)]

theorem onlyKeys_failCell (c : Nat) (s : State) : onlyKeys lossKey s (failCell c s) := by
  have hstate : onlyKeys lossKey s ((s.setLane c { faulted := true, chkAt := (s.lane c).chkAt }).wr (LC_STAT_STATE c) 9) :=
    (onlyKeys.setLane (.refl _ s)).wr (lossKey_lane c) (groveUp_lane c _ (by simp)).2
  have hhold : groveUp (LC_HOLD_USED c).key ∧ ¬ leafKey (LC_HOLD_USED c).key := by
    simp only [groveUp, leafKey, LC_HOLD_USED, fld]
    omega
  have hrestore := hstate.trans (onlyKeys_restore (K := lossKey) (fs := [LC_HOLD_USED c]) _ fun f hf => by rw [List.mem_singleton.1 hf]; exact ⟨.inl hhold.1, hhold.2⟩)
  have hleaf := hrestore.raise (b := 4) (lossKey_leaf (32 + c))
  exact .ite (.refl _ s) ((hleaf.trans (onlyKeys_degradePort _ _)).raise (lossKey_leaf 25))

theorem entry_not_lossKey {k : Nat} (hk : k < 8) : ∀ f ∈ entryFields k, ¬ lossKey f.key := by
  intro f hf
  obtain ⟨hkey, hleaf⟩ := entryFields_log hk f hf
  generalize f.key = x at hkey hleaf
  simp only [lossKey, hleaf, false_or]
  unfold groveUp
  simp only [PST_PSSTAT_STATE, PST_PSCTL_GO, PST_SOLVE_BUSY, PST_SOLVE_ARMED, PST_SOLVE_CANCEL, FAB_STATUS_MAPPEND, SYS_SETTLE_PEND, SYS_SETTLE_RUN,
    SYS_GUARD_SETTLED, RST_PRTRC_PORTS, RST_CAUSE_PORT, fld, List.mem_cons, List.not_mem_nil, or_false, not_or, not_and]
  omega

/-- A report of a lane cell with no other shortly before: its entry, and its cell in FAULT. -/
theorem laneReported {u det : Nat} {inj : Bool} {s : State} (hr : reportable 1 u s = true) (hfresh : recentReports s = []) :
    let t := reportFault 1 u 0 det inj s
    t.rd (RST_FLTLOG0_KIND (s.rd RST_FLTPTR_NEXT)) = 1 ∧ t.rd (RST_FLTLOG0_INJ (s.rd RST_FLTPTR_NEXT)) = b2n inj ∧
      t.rd (RST_FLTLOG0_UNIT (s.rd RST_FLTPTR_NEXT)) = u ∧ (t.lane u).faulted = true ∧ leafSet t 25 6 := by
  have hu : u < 32 ∧ (s.lane u).faulted = false := by
    simp only [reportable, Bool.and_eq_true, decide_eq_true_eq, Bool.not_eq_true'] at hr
    exact ⟨hr.1.1, hr.2⟩
  obtain ⟨hsays, -, -, hleaf⟩ := logFault_effects 1 u 0 det inj s
  have hkind := hsays (RST_FLTLOG0_KIND (s.rd RST_FLTPTR_NEXT), 1) (by simp [entrySays]) (by simp [RST_FLTLOG0_KIND, RST_FLTLOG0_TUN, fld]) (show 1 < 2 ^ 4 by decide)
  have hinj := hsays (RST_FLTLOG0_INJ (s.rd RST_FLTPTR_NEXT), b2n inj) (by simp [entrySays]) (by simp [RST_FLTLOG0_INJ, RST_FLTLOG0_TUN, fld])
    (show b2n inj < 2 ^ 1 by cases inj <;> decide)
  have hunit := hsays (RST_FLTLOG0_UNIT (s.rd RST_FLTPTR_NEXT), u) (by simp [entrySays]) (by simp [RST_FLTLOG0_UNIT, RST_FLTLOG0_TUN, fld])
    (show u < 2 ^ 8 by omega)
  have hlc : (logFault 1 u 0 det inj s).lc = s.lc := logFault_frame (κ := 14) rfl (.refl 14 s)
  have hlane : (logFault 1 u 0 det inj s).lane u = s.lane u := by rw [State.lane, hlc, State.lane]
  have hkeep := onlyKeys_failCell u (logFault 1 u 0 det inj s)
  have hapart := entry_not_lossKey (next_lt s)
  have hfault := failCell_inFault ⟨u, hu.1⟩ (s := logFault 1 u 0 det inj s) (by rw [hlane]; exact hu.2)
  dsimp only
  rw [reportFault_fresh hr hfresh]
  show (failCell u (logFault 1 u 0 det inj s)).rd _ = 1 ∧ (failCell u (logFault 1 u 0 det inj s)).rd _ = b2n inj ∧ (failCell u (logFault 1 u 0 det inj s)).rd _ = u ∧
    ((failCell u (logFault 1 u 0 det inj s)).lane u).faulted = true ∧ leafSet (failCell u (logFault 1 u 0 det inj s)) 25 6
  exact ⟨(hkeep.1 _ (hapart _ (by simp [entryFields]))).trans hkind, (hkeep.1 _ (hapart _ (by simp [entryFields]))).trans hinj,
    (hkeep.1 _ (hapart _ (by simp [entryFields]))).trans hunit, hfault.1, hkeep.2 _ _ hleaf⟩

theorem exec_fltinj {p : Path} {v : Word} {s : State} (h : plainly s p 0x1010C) : exec (.fltinj p v) s = .next (wrRstFltinj (v.toNat ||| 2 ^ 31) s) :=
  congrArg Host.Outcome.next (pathWrite_of_plainly (v := v.toNat ||| 2 ^ 31) h (by decide) (decodeFor_of_decodeAddr (show decodeAddr 0x1010C = some (.RST_FLTINJ, 0, 0) by decide +kernel) rfl) rfl)

theorem wrRstFltinj_lane {v : Nat} {s : State} (hu : unbounded s 0x1010C) (hl : debugLocked s = false) (hk : bits v 27 24 = 1) :
    wrRstFltinj (v ||| 2 ^ 31) s = reportFault 1 (bits v 7 0) 0 (Config.free s.freeCtr % 256) true (injected (bits v 7 0) s).free.2 := by
  have hkind : bits (v ||| 2 ^ 31) 27 24 = 1 := (bits_or_two_pow_of_lt v (by decide)).trans hk
  have hunit : bits (v ||| 2 ^ 31) 7 0 = bits v 7 0 := bits_or_two_pow_of_lt v (by decide)
  have h1 : wrField 0x1010C RST_FLTINJ_KIND 1 s = s.wr RST_FLTINJ_KIND 1 := wrField_of_unbounded hu (by decide) (by decide)
  have h2 : wrField 0x1010C RST_FLTINJ_UNIT (bits v 7 0) (s.wr RST_FLTINJ_KIND 1) = injected (bits v 7 0) s :=
    wrField_of_unbounded (unbounded_wr hu _ _) (Nat.zero_le _) (Nat.le_of_lt_succ (bits_lt v 7 0))
  have hrd : (injected (bits v 7 0) s).rd RST_FLTINJ_KIND = 1 :=
    (State.rd_wr_ne _ _ _ _ (by decide)).trans (State.rd_wr_same s RST_FLTINJ_KIND 1)
  have hrdu : (injected (bits v 7 0) s).rd RST_FLTINJ_UNIT = bits v 7 0 := rd_wr_of_lt _ _ _ (bits_lt v 7 0)
  unfold wrRstFltinj
  rw [if_neg (by simp [hl])]
  dsimp only
  rw [hkind, hunit, if_pos (show injectable 1 = true by rfl), h1, h2, hrd, if_neg (by rw [bit_or_two_pow]; decide)]
  show reportFault ((injected (bits v 7 0) s).rd RST_FLTINJ_KIND) ((injected (bits v 7 0) s).rd RST_FLTINJ_UNIT) 0 (Config.free s.freeCtr % 256) true _ = _
  rw [hrd, hrdu]

theorem reportInjected (p : Path) (v : Word) (s : State) (h : plainly s p 0x1010C) :
    (debugLocked s = true → exec (.fltinj p v) s = .next s) ∧
    (debugLocked s = false → bits v.toNat 27 24 = 1 → reportable 1 (bits v.toNat 7 0) s = true → recentReports s = [] →
      ∃ t, exec (.fltinj p v) s = .next t ∧ t.rd (RST_FLTLOG0_KIND (s.rd RST_FLTPTR_NEXT)) = 1 ∧
        t.rd (RST_FLTLOG0_INJ (s.rd RST_FLTPTR_NEXT)) = 1 ∧ t.rd (RST_FLTLOG0_UNIT (s.rd RST_FLTPTR_NEXT)) = bits v.toNat 7 0 ∧
        (t.lane (bits v.toNat 7 0)).faulted = true ∧ leafSet t 25 6) := by
  refine ⟨fun hl => (exec_fltinj h).trans ?_, fun hl hk hr hfresh => ⟨_, (exec_fltinj h).trans (congrArg _ (wrRstFltinj_lane h.2 hl hk)), ?_⟩⟩
  · rw [wrRstFltinj, if_pos hl]
  · have hr' : reportable 1 (bits v.toNat 7 0) (injected (bits v.toNat 7 0) s).free.2 = true := by
      have hvariant : variant (injected (bits v.toNat 7 0) s).free.2 = variant s := variant_congr fun f hf => (onlyWrites_injected _ s).1 f (by
        revert f
        decide)
      rw [← hr, reportable, reportable, hvariant]
      rfl
    have hptr : (injected (bits v.toNat 7 0) s).free.2.rd RST_FLTPTR_NEXT = s.rd RST_FLTPTR_NEXT :=
      (State.rd_wr_ne _ _ _ _ (by decide)).trans (State.rd_wr_ne _ _ _ _ (by decide))
    have heffects := laneReported (det := Config.free s.freeCtr % 256) (inj := true) hr' hfresh
    rw [hptr] at heffects
    exact heffects

/-! ### The budget (R474) -/

theorem exec_budgetWrite {p : Path} {v : Word} {s : State} (h : plainly s p 0x20020) : exec (.budgetWrite p v) s = .next (wrBudget v.toNat s) :=
  congrArg Host.Outcome.next (pathWrite_of_plainly h (by decide) (decodeFor_of_decodeAddr (show decodeAddr 0x20020 = some (.PST_CORE, 0, 0) by decide +kernel) rfl) rfl)

theorem budgetPlaced (p : Path) (v : Word) (s : State) (h : plainly s p 0x20020) :
    (6000 ≤ bits v.toNat 15 0 → bits v.toNat 15 0 ≤ s.rd PST_CORE_CEIL → ∃ t, exec (.budgetWrite p v) s = .next t ∧
      t.rd PST_CORE_BUDGET = bits v.toNat 15 0 ∧
      (bits v.toNat 15 0 ≠ s.rd PST_CORE_BUDGET → s.on CFG_STATUS_LOADED = true → t.rd SYS_SETTLE_PEND = 1)) ∧
    (bits v.toNat 15 0 < 6000 ∨ s.rd PST_CORE_CEIL < bits v.toNat 15 0 → ∃ t, exec (.budgetWrite p v) s = .next t ∧
      t.rd PST_CORE_BUDGET = s.rd PST_CORE_BUDGET ∧ leafSet t 16 31 ∧ onlyWrites [EVSTAT 16] [.mg] s t) := by
  have hexec := exec_budgetWrite (v := v) h
  have hlt : bits v.toNat 15 0 < 2 ^ 16 := bits_lt v.toNat 15 0
  generalize hx : bits v.toNat 15 0 = x at hlt
  unfold wrBudget at hexec
  rw [hx] at hexec
  refine ⟨fun hlo hhi => ⟨_, hexec, ?_⟩, fun hbad => ⟨_, hexec, ?_⟩⟩
  · have hset : wrField 0x20020 PST_CORE_BUDGET x s = s.wr PST_CORE_BUDGET x := wrField_of_unbounded h.2 (Nat.zero_le _) (Nat.le_of_lt_succ hlt)
    have hrd : (s.wr PST_CORE_BUDGET x).rd PST_CORE_BUDGET = x := rd_wr_of_lt _ _ _ hlt
    rw [if_neg (by omega)]
    dsimp only
    rw [hset, hrd]
    split
    · next he => exact ⟨hrd, fun hne => absurd he hne⟩
    · have hbudget : (structuralEvent (updateExt (s.wr PST_CORE_BUDGET x))).rd PST_CORE_BUDGET = x := by
        rw [rd_structuralEvent_ne _ (by decide) (by decide) (by decide), (onlyKeys_updateExt _).1 _ (by unfold stewardKey; decide), hrd]
      refine ⟨hbudget, fun _ hl => settlePend_structuralEvent ?_⟩
      rw [State.on, (onlyKeys_updateExt _).1 _ (by unfold stewardKey; decide), State.rd_wr_ne _ _ _ _ (by decide)]
      exact hl
  · rw [if_pos hbad, cfgErr_of_lt (by decide)]
    have honly : onlyWrites [EVSTAT 16] [.mg] s (raise (unitOfAddr 0x20020) 31 s) := onlyWrites_raise 16 31 s
    exact ⟨honly.1 _ (by decide), leafSet_raise 16 31 s (by decide), honly⟩

/-! ### Resets by command (R423, R425) -/

theorem portCause_portDownAttached (p c : Nat) (s : State) : (portDownAttached p c s).rd RST_CAUSE_PORT = 1 := by
  have hattach (k : Nat) (h : k = RST_CAUSE_PORT.key) : ¬ (attachKeys k) := by
    subst h
    simp only [attachKeys, not_or, not_exists]
    refine ⟨by decide, fun d => ?_, fun n => ?_⟩
    all_goals
      simp only [RST_CAUSE_PORT, PIPE_CTL_FHOLD, TT_STATE_STATE, TT_STATE_GEN, fld]
      omega
  have hreset : ((portReset p (dropTunnels p c s)).dropAtt p).rd RST_CAUSE_PORT = 1 := State.rd_wr_same _ RST_CAUSE_PORT 1
  have hloss : (lossLeaves p s ((portReset p (dropTunnels p c s)).dropAtt p)).rd RST_CAUSE_PORT = 1 :=
    ((onlyKeys_lossLeaves (K := fun k => leafKey k) (leafKey_evstat _) s _).1 RST_CAUSE_PORT (by decide)).trans hreset
  have hdown : (portDown p c s).rd RST_CAUSE_PORT = 1 := by
    rw [portDown_eq]
    split
    · exact ((onlyKeys_quietPath (K := fun k => 0x2000000 ≤ k) (fun _ h => h) p _).1 RST_CAUSE_PORT (by decide)).trans hloss
    · exact hloss
  exact ((onlyKeys_attachEvent _).1 _ (hattach _ rfl)).trans hdown

/-- What RST_CTL's PORT and PRST do, before COLD and WARM. -/
def portTaken (v : Nat) (s : State) : State :=
  let t := wrField 0x10004 RST_CTL_PORT (bits v 12 8) s
  if bit v 3 ∧ configured t (t.rd RST_CTL_PORT) then portDownAttached (t.rd RST_CTL_PORT) 1 t else t

theorem wrRstCtl_eq (p : Path) (v : Nat) (s : State) : wrRstCtl p v s =
    if !bit v 1 ∧ !bit v 2 then portTaken v s
    else if bits v 31 24 ≠ 0xA5 then raise 24 1 (portTaken v s)
    else if bit v 2 then pulseReset 2 3 (portTaken v s)
    else pulseReset 1 (if p = .p43 then 7 else 8) (portTaken v s) := rfl

theorem portTaken_of_off {v : Nat} (h : bit v 3 = false) (s : State) : portTaken v s = wrField 0x10004 RST_CTL_PORT (bits v 12 8) s := by
  unfold portTaken
  dsimp only
  rw [if_neg (by simp [h])]

theorem bt_portTaken {v : Nat} {s : State} : (portTaken v s).bt = s.bt := by
  have hport : (wrField 0x10004 RST_CTL_PORT (bits v 12 8) s).bt = s.bt := wrField_frame (κ := 21) rfl (.refl 21 s)
  unfold portTaken
  dsimp only
  split
  · exact Eq.trans (show _ = _ from portDownAttached_frame (κ := 21) rfl (.refl 21 _)) hport
  · exact hport

theorem rd_portTaken {v : Nat} {s : State} (hu : unbounded s 0x10004) {f : Fld} (hloss : ¬ lossKey f.key) (hf : f.key ≠ RST_CTL_PORT.key) :
    (portTaken v s).rd f = s.rd f := by
  have hport : (wrField 0x10004 RST_CTL_PORT (bits v 12 8) s).rd f = s.rd f :=
    (onlyWrites_wrField hu (by decide) RST_CTL_PORT _).1 f (by simpa using ⟨hf, fun e => hloss (e ▸ lossKey_leaf _)⟩)
  unfold portTaken
  dsimp only
  split
  · exact ((onlyKeys_portDownAttached_loss ..).1 f hloss).trans hport
  · exact hport

/-- A reset that does not wait for a fuse load restores what it reaches. -/
theorem rd_requestReset {alone : Bool} {reach cause : Nat} {s : State} (h : ¬(alone ∧ reach < 2 ∧ s.bt.fusing ∧ 1 ≤ s.bt.released)) {f : Fld} (hs : ¬ shownKey f.key) :
    (requestReset alone reach cause s).rd f = if outlasts reach f.key then (s.wr (causeFld cause) 1).rd f else f.reset % 2 ^ f.w := by
  have hrest (t : State) (hreg : t.regs = (s.wr (causeFld cause) 1).regs) :
      (takeReset reach t).rd f = if outlasts reach f.key then (s.wr (causeFld cause) 1).rd f else f.reset % 2 ^ f.w := by
    rw [rd_takeReset hs t, State.rd, hreg, State.rd]
  unfold requestReset
  dsimp only
  rw [if_neg h]
  split <;> exact hrest _ rfl

/-- The firmware's flag and the mark of a load go with any reset. -/
theorem stageLost {reach cause : Nat} (hreach : reach = 1 ∨ reach = 2) {s : State}
    (h : ¬(s.bt.srcs.isEmpty ∧ reach < 2 ∧ s.bt.fusing ∧ 1 ≤ s.bt.released)) :
    (pulseReset reach cause s).rd SYS_STAGE_FWRDY = 0 ∧ (pulseReset reach cause s).rd CFG_STATUS_LOADED = 0 := by
  obtain ⟨hkeys, hoff⟩ := pulseReset_release reach cause s
  have hout : outlasts reach SYS_STAGE_FWRDY.key = false ∧ outlasts reach CFG_STATUS_LOADED.key = false := by
    rcases hreach with rfl | rfl <;> decide +kernel
  have hready := rd_requestReset (cause := cause) h (f := SYS_STAGE_FWRDY) (not_shownKey (by decide) (by decide))
  have hloaded := rd_requestReset (cause := cause) h (f := CFG_STATUS_LOADED) (not_shownKey (by decide) (by decide))
  rw [hout.1] at hready
  rw [hout.2] at hloaded
  refine ⟨(hkeys.1 _ ?_).trans hready, hoff hloaded⟩
  unfold releaseKeys offKey haltKey stopKeys loaderKeys slotKeys lossKey groveUp
  decide

theorem channelState_apart : ∀ n : Channel, ¬ releaseKeys (PC_STAT_STATE n.val).key ∧ ¬ shownKey (PC_STAT_STATE n.val).key ∧ outlasts 2 (PC_STAT_STATE n.val).key = true ∧
    (PC_STAT_STATE n.val).key ≠ RST_CTL_PORT.key ∧ (PC_STAT_STATE n.val).key ≠ RST_CAUSE_SWCOLD.key := by
  intro n
  refine ⟨?_, not_shownKey ?_ ?_, ?_, ?_, ?_⟩
  · unfold releaseKeys offKey haltKey stopKeys loaderKeys slotKeys lossKey groveUp
    revert n
    decide
  all_goals
    revert n
    decide +kernel

theorem exec_rstCtl {p : Path} {s : State} (h : plainly s p 0x10004) (v : Nat) : pathWrite p 0x10004 v s = wrRstCtl p v s :=
  pathWrite_of_plainly h (by decide) (decodeFor_of_decodeAddr (show decodeAddr 0x10004 = some (.RST_CTL, 0, 0) by decide +kernel) rfl) rfl

theorem exec_cold {p : Path} {v : Word} {s : State} (h : plainly s p 0x10004) : exec (.cold p v) s = .next (wrRstCtl p (v.toNat ||| 4) s) :=
  congrArg Host.Outcome.next (exec_rstCtl h (v.toNat ||| 4))

theorem exec_warm {p : Path} {v : Word} {s : State} (h : plainly s p 0x10004) : exec (.warm p v) s = .next (wrRstCtl p (v.toNat ||| 2) s) :=
  congrArg Host.Outcome.next (exec_rstCtl h (v.toNat ||| 2))

theorem exec_prst {p : Path} {v : Word} {s : State} (h : plainly s p 0x10004) : exec (.prst p v) s = .next (wrRstCtl p (v.toNat ||| 8) s) :=
  congrArg Host.Outcome.next (exec_rstCtl h (v.toNat ||| 8))

theorem bit_or_two_pow_ne (x : Nat) {j k : Nat} (h : j ≠ k) : bit (x ||| 2 ^ k) j = bit x j := by
  simp [bit_eq_testBit, h.symm]

theorem bits_cold (v : Nat) : bit (v ||| 4) 2 = true ∧ bit (v ||| 4) 3 = bit v 3 := ⟨bit_or_two_pow v 2, bit_or_two_pow_ne v (k := 2) (by decide)⟩

theorem bits_warm (v : Nat) : bit (v ||| 2) 1 = true ∧ bit (v ||| 2) 2 = bit v 2 := ⟨bit_or_two_pow v 1, bit_or_two_pow_ne v (k := 1) (by decide)⟩

theorem bits_prst (v : Nat) : bit (v ||| 8) 3 = true ∧ bit (v ||| 8) 1 = bit v 1 ∧ bit (v ||| 8) 2 = bit v 2 :=
  ⟨bit_or_two_pow v 3, bit_or_two_pow_ne v (k := 3) (by decide), bit_or_two_pow_ne v (k := 3) (by decide)⟩

theorem coldTaken {p : Path} {v : Word} {s : State} (h : plainly s p 0x10004) (hkey : bits v.toNat 31 24 = 0xA5) :
    ∃ t, exec (.cold p v) s = .next t ∧ t.rd RST_CAUSE_SWCOLD = 1 ∧ t.rd SYS_STAGE_FWRDY = 0 ∧
      t.rd CFG_STATUS_LOADED = 0 ∧ ∀ n, n < 10 → t.rd (PC_STAT_STATE n) = s.rd (PC_STAT_STATE n) := by
  have hexec : exec (.cold p v) s = .next (pulseReset 2 3 (portTaken (v.toNat ||| 4) s)) := by
    refine (exec_cold h).trans (congrArg _ ?_)
    rw [wrRstCtl_eq, if_neg (by simp [(bits_cold v.toNat).1]), if_neg (by rw [bits_or_of_lt _ _ _ _ (by decide), hkey]; simp), if_pos (bits_cold v.toNat).1]
  obtain ⟨hready, hloaded⟩ := stageLost (reach := 2) (cause := 3) (.inr rfl) (s := portTaken (v.toNat ||| 4) s) (by omega)
  refine ⟨_, hexec, rd_pulseReset_cause 3 (by decide) _, hready, hloaded, fun n hn => ?_⟩
  obtain ⟨hrel, hshown, hout, hport, hcause⟩ := channelState_apart ⟨n, hn⟩
  rw [(pulseReset_release ..).1.1 _ hrel, rd_requestReset (by omega) hshown, if_pos hout, State.rd_wr_ne _ (causeFld 3) _ _ hcause,
    rd_portTaken h.2 (fun hl => hrel (.inl (.inl (.inl hl)))) hport]

theorem exec_warm_keyed {p : Path} {v : Word} {s : State} (h : plainly s p 0x10004) (hkey : bits v.toNat 31 24 = 0xA5) (hcold : bit v.toNat 2 = false) :
    exec (.warm p v) s = .next (pulseReset 1 (if p = .p43 then 7 else 8) (portTaken (v.toNat ||| 2) s)) := by
  refine (exec_warm h).trans (congrArg _ ?_)
  rw [wrRstCtl_eq, if_neg (by simp [(bits_warm v.toNat).1]), if_neg (by rw [bits_or_of_lt _ _ _ _ (by decide), hkey]; simp),
    if_neg (by rw [(bits_warm v.toNat).2, hcold]; decide)]

/-- The cause that a path's warm reset records. -/
theorem warmCause (p : Path) {reach : Nat} (hr : reach < 3) (s : State) :
    (pulseReset reach (if p = .p43 then 7 else 8) s).rd (if p = .p43 then RST_CAUSE_SWWARM else RST_CAUSE_HOST) = 1 := by
  split
  · exact rd_pulseReset_cause 7 hr s
  · exact rd_pulseReset_cause 8 hr s

theorem warmTaken {p : Path} {v : Word} {s : State} (h : plainly s p 0x10004) (hkey : bits v.toNat 31 24 = 0xA5) (hcold : bit v.toNat 2 = false)
    (hfree : ¬(s.bt.srcs = [] ∧ s.bt.fusing = true ∧ 1 ≤ s.bt.released)) :
    ∃ t, exec (.warm p v) s = .next t ∧
      t.rd (if p = .p43 then RST_CAUSE_SWWARM else RST_CAUSE_HOST) = 1 ∧ t.rd SYS_STAGE_FWRDY = 0 ∧ t.rd CFG_STATUS_LOADED = 0 := by
  refine ⟨_, exec_warm_keyed h hkey hcold, warmCause p (by decide) _, stageLost (.inl rfl) ?_⟩
  rw [bt_portTaken]
  rintro ⟨hs, -, hf, hl⟩
  exact hfree ⟨List.isEmpty_iff.1 hs, hf, hl⟩

/-- A warm reset during a fuse load waits for its end (R411). -/
theorem pulseReset_waits {cause : Nat} {s : State} (hs : s.bt.srcs = []) (hf : s.bt.fusing = true) (hl : 1 ≤ s.bt.released) :
    (pulseReset 1 cause s).bt = { s.bt with later := s.bt.later ++ [cause] } := by
  have hreq : requestReset s.bt.srcs.isEmpty 1 cause s = { s.wr (causeFld cause) 1 with bt := { s.bt with later := s.bt.later ++ [cause] } } := by
    unfold requestReset
    dsimp only
    exact if_pos ⟨by simp [hs], by decide, hf, hl⟩
  unfold pulseReset
  rw [hreq]
  dsimp only
  rw [if_neg (by simp)]

theorem warmWaits {p : Path} {v : Word} {s : State} (h : plainly s p 0x10004) (hkey : bits v.toNat 31 24 = 0xA5) (hcold : bit v.toNat 2 = false)
    (hs : s.bt.srcs = []) (hf : s.bt.fusing = true) (hl : 1 ≤ s.bt.released) :
    ∃ t, exec (.warm p v) s = .next t ∧ t.rd (if p = .p43 then RST_CAUSE_SWWARM else RST_CAUSE_HOST) = 1 ∧
      t.bt = { s.bt with later := s.bt.later ++ [if p = .p43 then 7 else 8] } := by
  have hbt : (portTaken (v.toNat ||| 2) s).bt = s.bt := bt_portTaken
  refine ⟨_, exec_warm_keyed h hkey hcold, warmCause p (by decide) _, ?_⟩
  rw [pulseReset_waits (by rw [hbt]; exact hs) (by rw [hbt]; exact hf) (by rw [hbt]; exact hl), hbt]

theorem keyRejected {p : Path} {v : Word} {s : State} (h : plainly s p 0x10004) (hkey : bits v.toNat 31 24 ≠ 0xA5) (hport : bit v.toNat 3 = false) :
    ∃ t, leafSet t 24 1 ∧ exec (.cold p v) s = .next t ∧ onlyWrites [RST_CTL_PORT, EVSTAT 24] [.mg] s t := by
  have hexec : exec (.cold p v) s = .next (raise 24 1 (portTaken (v.toNat ||| 4) s)) := by
    refine (exec_cold h).trans (congrArg _ ?_)
    rw [wrRstCtl_eq, if_neg (by simp [(bits_cold v.toNat).1]), if_pos (by rw [bits_or_of_lt _ _ _ _ (by decide)]; exact hkey)]
  refine ⟨_, leafSet_raise 24 1 _ (by decide), hexec, ?_⟩
  rw [portTaken_of_off (by rw [(bits_cold v.toNat).2, hport])]
  exact (onlyWrites_wrField h.2 (by decide) RST_CTL_PORT _).trans ((onlyWrites_raise ..).mono (by decide) (by simp))

theorem portTakenDown {p : Path} {v : Word} {s : State} (h : plainly s p 0x10004) (hwarm : bit v.toNat 1 = false) (hcold : bit v.toNat 2 = false)
    (hp : bits v.toNat 12 8 < 20) (hc : configured s (bits v.toNat 12 8) = true) :
    ∃ t, exec (.prst p v) s = .next t ∧ mfind t.sv.att (bits v.toNat 12 8) = none ∧ (t.eg (bits v.toNat 12 8)).waiting = true ∧
        t.rd RST_CAUSE_PORT = 1 := by
  have hbits : bits (v.toNat ||| 8) 12 8 = bits v.toNat 12 8 := bits_or_of_lt _ _ _ _ (by decide)
  have hport : wrField 0x10004 RST_CTL_PORT (bits v.toNat 12 8) s = s.wr RST_CTL_PORT (bits v.toNat 12 8) :=
    wrField_of_unbounded h.2 (Nat.zero_le _) (Nat.le_of_lt_succ hp)
  have hrd : (s.wr RST_CTL_PORT (bits v.toNat 12 8)).rd RST_CTL_PORT = bits v.toNat 12 8 := rd_wr_of_lt _ _ _ (Nat.lt_trans hp (by decide))
  have htaken : portTaken (v.toNat ||| 8) s = portDownAttached (bits v.toNat 12 8) 1 (s.wr RST_CTL_PORT (bits v.toNat 12 8)) := by
    unfold portTaken
    dsimp only
    rw [hbits, hport, hrd, if_pos ⟨(bits_prst v.toNat).1, hc⟩]
  have hexec : exec (.prst p v) s = .next (portTaken (v.toNat ||| 8) s) := by
    refine (exec_prst h).trans (congrArg _ ?_)
    rw [wrRstCtl_eq, if_pos ⟨by rw [(bits_prst v.toNat).2.1, hwarm]; rfl, by rw [(bits_prst v.toNat).2.2, hcold]; rfl⟩]
  rw [htaken] at hexec
  exact ⟨_, hexec, mfind_att_portDownAttached .., waiting_portDownAttached .., portCause_portDownAttached ..⟩

/-- Fields of settings alone are written with what they allow. -/
theorem onlyWrites_wrWord_settings {a v : Nat} {fs : List Fld} {s : State} (hu : unbounded s a) (ha : a < 0x400000) (hfs : ∀ f ∈ fs, f.acc = .rw) :
    onlyWrites (EVSTAT (unitOfAddr a) :: fs) [.mg] s (wrWord a v fs s) := by
  induction fs generalizing s with
  | nil => exact .refl _ _ s
  | cons f fs ih =>
    have hstep : onlyWrites (EVSTAT (unitOfAddr a) :: f :: fs) [.mg] s (wrAcc a v f s) := by
      have hacc : wrAcc a v f s = wrField a f (bits v (f.pos + f.w - 1) f.pos) s := by simp only [wrAcc, hfs f (by simp)]
      rw [hacc]
      exact (onlyWrites_wrField hu ha f _).mono (by simp) (List.Subset.refl _)
    rw [wrWord_cons]
    exact hstep.trans ((ih (unbounded_of_onlyWrites hu hstep (by simp)) fun g hg => hfs g (by simp [hg])).mono (by intro g; simp; tauto) (List.Subset.refl _))

/-! ### Requests for a power state (R432) -/

theorem exec_psRequest {p : Path} {v : Word} {s : State} (h : plainly s p 0x20000) : exec (.psRequest p v) s = .next (wrPsctl (v.toNat ||| 2 ^ 31) s) :=
  congrArg Host.Outcome.next (pathWrite_of_plainly (v := v.toNat ||| 2 ^ 31) h (by decide)
    (decodeFor_of_decodeAddr (show decodeAddr 0x20000 = some (.PST_PSCTL, 0, 0) by decide +kernel) rfl) rfl)

/-- PST_PSCTL's settings as they are written. -/
def psSettings (v : Nat) (s : State) : State := wrWord 0x20000 v [PST_PSCTL_AUTO, PST_PSCTL_IDLE, PST_PSCTL_TARGET] s

theorem unit_psSettings : unitOfAddr 0x20000 = 16 := rfl

theorem psSettings_rw : ∀ f ∈ [PST_PSCTL_AUTO, PST_PSCTL_IDLE, PST_PSCTL_TARGET], f.acc = .rw := by decide

theorem onlyWrites_psSettings {v : Nat} {s : State} (hu : unbounded s 0x20000) :
    onlyWrites [EVSTAT 16, PST_PSCTL_AUTO, PST_PSCTL_IDLE, PST_PSCTL_TARGET] [.mg] s (psSettings v s) :=
  unit_psSettings ▸ onlyWrites_wrWord_settings hu (by decide) psSettings_rw

theorem target_psSettings {v : Nat} {s : State} (hu : unbounded s 0x20000) (ht : bits v 2 0 ≤ 4) : (psSettings v s).rd PST_PSCTL_TARGET = bits v 2 0 := by
  have hbefore : onlyWrites [EVSTAT 16, PST_PSCTL_AUTO, PST_PSCTL_IDLE] [.mg] s (wrWord 0x20000 v [PST_PSCTL_AUTO, PST_PSCTL_IDLE] s) :=
    unit_psSettings ▸ onlyWrites_wrWord_settings hu (by decide) fun f hf => psSettings_rw f (by simp at hf ⊢; tauto)
  have hlast : psSettings v s = wrAcc 0x20000 v PST_PSCTL_TARGET (wrWord 0x20000 v [PST_PSCTL_AUTO, PST_PSCTL_IDLE] s) := rfl
  rw [hlast, wrAcc_rw_of_unbounded rfl (unbounded_of_onlyWrites hu hbefore (by simp)) (Nat.zero_le _) ht]
  exact rd_wr_of_lt _ _ _ (bits_lt v 2 0)

theorem rd_psSettings {v : Nat} {s : State} (hu : unbounded s 0x20000) :
    ∀ f ∈ [PST_PSSTAT_STATE, PST_PSSTAT_PHASE, SYS_STAGE_FWRDY, SYS_STAGE_FUSEFLT, FUSE_VAR_V, RST_FLTSTAT_FENCED], ((psSettings v s).wr PST_PSCTL_GO 1).rd f = s.rd f ∧
      (psSettings v s).rd f = s.rd f := by
  intro f hf
  have hne : f.key ≠ PST_PSCTL_GO.key ∧ ∀ g ∈ [EVSTAT 16, PST_PSCTL_AUTO, PST_PSCTL_IDLE, PST_PSCTL_TARGET], f.key ≠ g.key := by
    revert f
    decide
  have hset := (onlyWrites_psSettings (v := v) hu).1 f hne.2
  exact ⟨(State.rd_wr_ne _ _ _ _ hne.1).trans hset, hset⟩

theorem wrPsctl_eq (v : Nat) (s : State) : wrPsctl (v ||| 2 ^ 31) s =
    let t := psSettings (v ||| 2 ^ 31) s
    if t.rd PST_PSSTAT_PHASE ≠ 0 ∨ 3 ≤ t.rd PST_PSSTAT_STATE then t.wrs [(PST_PSSTAT_WHO, 18), (PST_PSSTAT_REASON, 0xA)]
    else if (t.wr PST_PSCTL_GO 1).on SYS_STAGE_FWRDY then psRequest (t.wr PST_PSCTL_GO 1) else t.wr PST_PSCTL_GO 1 := by
  have hgo := bit_or_two_pow v 31
  generalize v ||| 2 ^ 31 = w at hgo
  unfold wrPsctl
  dsimp only
  rw [if_neg (by simp [hgo])]
  rfl

theorem rd_leaveDoze {f : Fld} (h : ∀ d, f.key ≠ (PIPE_CTL_FHOLD d).key) (s : State) : (leaveDoze s).rd f = s.rd f := by
  have hkeys : onlyKeys (fun k => ∃ d, k = (PIPE_CTL_FHOLD d).key) s (leaveDoze s) := by
    unfold leaveDoze
    dsimp only
    refine .setPs (.forAll (.forAll (.refl _ _) fun d _ u => ?_) fun p _ u => (onlyKeys.refl _ u).of_regs rfl)
    exact onlyKeys.of_regs (t := if u.on (PIPE_ROUTE_VALID d) then u.wr (PIPE_CTL_FHOLD d) 0 else u) (.ite (.wr (.refl _ _) ⟨d, rfl⟩ (not_leafKey_fhold d)) (.refl _ _)) rfl
  exact hkeys.1 f fun ⟨d, hd⟩ => h d hd

theorem toActive_effects {s : State} (h : s.rd PST_PSSTAT_STATE = 1 ∨ s.rd PST_PSSTAT_STATE = 2) :
    (toActive s).rd PST_PSSTAT_STATE = 0 ∧ (toActive s).rd PST_PSCTL_GO = 0 := by
  have hshown (f : Fld) (hf : f ∈ [PST_PSSTAT_STATE, PST_PSCTL_GO]) :
      (showIndicator (raise 16 0 (s.wrs [(PST_PSSTAT_STATE, 0), (PST_PSCTL_GO, 0)]))).rd f = 0 := by
    have hleaf : f.key ≠ (EVSTAT 16).key := by
      revert f
      decide
    rw [(onlyKeys_showIndicator (fun _ => False) _).1 _ id, rd_raise_ne _ _ _ _ hleaf]
    simp only [List.mem_cons, List.not_mem_nil, or_false] at hf
    rcases hf with rfl | rfl
    · exact rd_wrs_eq (by decide) (by simp) (by decide) s
    · exact rd_wrs_eq (by decide) (by simp) (by decide) s
  have hfar (f : Fld) (hf : f ∈ [PST_PSSTAT_STATE, PST_PSCTL_GO]) (d : Nat) : f.key ≠ (PIPE_CTL_FHOLD d).key := by
    simp only [List.mem_cons, List.not_mem_nil, or_false] at hf
    rcases hf with rfl | rfl
    all_goals
      simp only [PST_PSSTAT_STATE, PST_PSCTL_GO, PIPE_CTL_FHOLD, fld]
      omega
  have hboth (f : Fld) (hf : f ∈ [PST_PSSTAT_STATE, PST_PSCTL_GO]) : (toActive s).rd f = 0 := by
    unfold toActive
    dsimp only
    rw [if_neg (by omega)]
    split
    · rw [rd_leaveDoze (hfar f hf), hshown f hf]
    · exact hshown f hf
  exact ⟨hboth _ (by simp), hboth _ (by simp)⟩

theorem psAsk_effects (target : Nat) (s : State) : (psAsk target s).rd PST_PSSTAT_PHASE = 1 ∧ (psAsk target s).rd PST_PSSTAT_DEFERS = 0 ∧
    (psAsk target s).ps.target = target ∧ (psAsk target s).ps.waiting = participants s := by
  have hps : (psAsk target s).ps = { downed := s.ps.downed, gated := s.ps.gated, dozeAt := s.ps.dozeAt, target := target, waiting := participants s } :=
    showIndicator_frame (κ := 27) rfl (.refl 27 _)
  have hrd (f : Fld) : (psAsk target s).rd f = (s.wrs [(PST_PSSTAT_PHASE, 1), (PST_PSSTAT_DEFERS, 0)]).rd f := (onlyKeys_showIndicator (fun _ => False) _).1 f id
  rw [hrd, hrd, hps]
  exact ⟨rd_wrs_eq (by decide) (by simp) (by decide) s, rd_wrs_eq (by decide) (by simp) (by decide) s, rfl, rfl⟩

theorem participants_congr {s t : State} (h : ∀ f ∈ [SYS_STAGE_FUSEFLT, FUSE_VAR_V, RST_FLTSTAT_FENCED], t.rd f = s.rd f) : participants t = participants s := by
  have hvariant : variant t = variant s := variant_congr fun f hf => h f (by simp at hf ⊢; tauto)
  rw [participants, participants, hvariant, h RST_FLTSTAT_FENCED (by simp)]

theorem powerRequested (p : Path) (v : Word) (s : State) (h : plainly s p 0x20000) (ht : bits v.toNat 2 0 ≤ 4) (hs : s.rd PST_PSSTAT_STATE < 3) :
    (s.rd PST_PSSTAT_PHASE = 0 → s.on SYS_STAGE_FWRDY = true → entryAllowed (s.rd PST_PSSTAT_STATE) (bits v.toNat 2 0) = true →
      (bits v.toNat 2 0 ≠ 0 → ∃ t, exec (.psRequest p v) s = .next t ∧ t.rd PST_PSSTAT_PHASE = 1 ∧ t.rd PST_PSSTAT_DEFERS = 0 ∧ t.ps.target = bits v.toNat 2 0 ∧
        t.ps.waiting = participants s) ∧
      (bits v.toNat 2 0 = 0 → ∃ t, exec (.psRequest p v) s = .next t ∧ t.rd PST_PSSTAT_STATE = 0 ∧ t.rd PST_PSCTL_GO = 0)) ∧
    (s.rd PST_PSSTAT_PHASE ≠ 0 ∨ s.on SYS_STAGE_FWRDY = true ∧ entryAllowed (s.rd PST_PSSTAT_STATE) (bits v.toNat 2 0) = false →
      ∃ t, exec (.psRequest p v) s = .next t ∧ t.rd PST_PSSTAT_WHO = 18 ∧ t.rd PST_PSSTAT_REASON = 0xA ∧
        (s.rd PST_PSSTAT_PHASE = 0 → t.rd PST_PSCTL_GO = 0) ∧ t.rd PST_PSSTAT_PHASE = s.rd PST_PSSTAT_PHASE ∧ t.rd PST_PSSTAT_STATE = s.rd PST_PSSTAT_STATE) := by
  have hexec := (exec_psRequest (v := v) h).trans (congrArg _ (wrPsctl_eq v.toNat s))
  have hbits : bits (v.toNat ||| 2 ^ 31) 2 0 = bits v.toNat 2 0 := bits_or_two_pow_of_lt _ (by decide)
  have htarget : (psSettings (v.toNat ||| 2 ^ 31) s).rd PST_PSCTL_TARGET = bits v.toNat 2 0 := (target_psSettings h.2 (by rw [hbits]; exact ht)).trans hbits
  have hkeep := rd_psSettings (v := v.toNat ||| 2 ^ 31) h.2
  generalize psSettings (v.toNat ||| 2 ^ 31) s = u at hexec htarget hkeep
  generalize bits v.toNat 2 0 = x at ht htarget
  have hphase := (hkeep PST_PSSTAT_PHASE (by simp)).2
  have hstate := (hkeep PST_PSSTAT_STATE (by simp)).2
  have hready : (u.wr PST_PSCTL_GO 1).on SYS_STAGE_FWRDY = s.on SYS_STAGE_FWRDY := by rw [State.on, (hkeep SYS_STAGE_FWRDY (by simp)).1, State.on]
  have hgstate := (hkeep PST_PSSTAT_STATE (by simp)).1
  have hgphase := (hkeep PST_PSSTAT_PHASE (by simp)).1
  have hgtarget : (u.wr PST_PSCTL_GO 1).rd PST_PSCTL_TARGET = x := (State.rd_wr_ne _ _ _ _ (by decide)).trans htarget
  have hpart : participants (u.wr PST_PSCTL_GO 1) = participants s := participants_congr fun f hf => (hkeep f (by simp at hf ⊢; tauto)).1
  dsimp only at hexec
  rw [hphase, hstate, hready] at hexec
  generalize u.wr PST_PSCTL_GO 1 = w at hexec hgstate hgphase hgtarget hpart
  refine ⟨fun hp hf hallowed => ?_, fun hbad => ?_⟩
  · rw [if_neg (by omega), if_pos hf] at hexec
    unfold psRequest at hexec
    dsimp only at hexec
    rw [hgstate, hgtarget, if_neg (by simp [hallowed])] at hexec
    refine ⟨fun hx => ?_, fun hx => ?_⟩
    · rw [if_neg hx] at hexec
      obtain ⟨hone, hzero, htgt, hwait⟩ := psAsk_effects x w
      exact ⟨_, hexec, hone, hzero, htgt, hwait.trans hpart⟩
    · rw [if_pos hx] at hexec
      refine ⟨_, hexec, toActive_effects ?_⟩
      rw [hx] at hallowed
      have hstates : ∀ st < 3, entryAllowed st 0 = true → st = 1 ∨ st = 2 := by decide
      rw [hgstate]
      exact hstates _ hs hallowed
  · by_cases hp : s.rd PST_PSSTAT_PHASE = 0
    · have hno := hbad.resolve_left (fun hne => hne hp)
      rw [if_neg (by omega), if_pos hno.1] at hexec
      unfold psRequest at hexec
      dsimp only at hexec
      rw [hgstate, hgtarget, if_pos (by simp [hno.2])] at hexec
      refine ⟨_, hexec, rd_wrs_eq (by decide) (by simp) (by decide) w, rd_wrs_eq (by decide) (by simp) (by decide) w, fun _ => rd_wrs_eq (by decide) (by simp) (by decide) w, ?_, ?_⟩
      · exact ((onlyWrites_wrs (fs := [PST_PSSTAT_WHO, PST_PSSTAT_REASON, PST_PSCTL_GO]) (by simp) w).1 _ (by decide)).trans hgphase
      · exact ((onlyWrites_wrs (fs := [PST_PSSTAT_WHO, PST_PSSTAT_REASON, PST_PSCTL_GO]) (by simp) w).1 _ (by decide)).trans hgstate
    · rw [if_pos (.inl hp)] at hexec
      refine ⟨_, hexec, rd_wrs_eq (by decide) (by simp) (by decide) u, rd_wrs_eq (by decide) (by simp) (by decide) u, fun h0 => absurd h0 hp, ?_, ?_⟩
      · exact ((onlyWrites_wrs (fs := [PST_PSSTAT_WHO, PST_PSSTAT_REASON]) (by simp) u).1 _ (by decide)).trans hphase
      · exact ((onlyWrites_wrs (fs := [PST_PSSTAT_WHO, PST_PSSTAT_REASON]) (by simp) u).1 _ (by decide)).trans hstate

/-! ### Channels through a detach (R482) -/

/-- Outside the channels' own registers. -/
def offChannel (k : Nat) : Prop := k < 0x400000 ∨ 0x400A00 ≤ k

theorem offChannel_leaf {k : Nat} (h : leafKey k) : offChannel k := by
  unfold leafKey at h
  unfold offChannel
  omega

theorem offChannel_of_lossKey {k : Nat} (h : lossKey k) : offChannel k := by
  rcases h with h | h | h | h
  · exact .inr (Nat.le_trans (by decide) h)
  · exact offChannel_leaf h
  · exact .inl (by omega)
  · fin_cases h <;> unfold offChannel <;> decide

theorem offChannel_of_stewardKey {k : Nat} (h : stewardKey k) : offChannel k := by
  unfold stewardKey at h
  fin_cases h <;> exact .inl (by decide)

theorem offChannel_treeWord {n k : Nat} (h : treeWord n k) : offChannel k := by
  simp only [treeWord, offChannel] at h ⊢
  omega

theorem offChannel_treeResetKey {k : Nat} (h : treeResetKey k) : offChannel k := by
  rcases h with h | h | h
  · exact .inr (by omega)
  · subst h; unfold offChannel; decide
  · fin_cases h <;> unfold offChannel <;> decide

theorem onlyKeys_updateTree_off (s : State) : onlyKeys offChannel s (updateTree s) := by
  have hoff {f : Fld} (h : f ∈ [USB_STAT_PULLUP, USB_STAT_SPEED, USB_STAT_UPSEL, USB_STAT_SWITCHES, USB_STAT_DNSEL, EVSTAT 19]) : offChannel f.key := by
    fin_cases h <;> unfold offChannel <;> decide
  have hdown : onlyKeys offChannel s (downstreamSet s) :=
    .ite (.refl _ s) (.wr ((onlyKeys_treeDrop (n := 5) (by decide) s).mono fun _ => offChannel_treeWord) (hoff (by simp)) (by decide))
  have hup (u : Nat) : onlyKeys offChannel (downstreamSet s) (upstreamSet u (downstreamSet s)) := by
    refine .emit (.raise (.inc (.wrs (.trans (.wrs (.refl _ _) ?_) ((onlyKeys_treeReset _).mono fun _ => offChannel_treeResetKey)) ?_) (hoff (by simp)) (by decide)) (hoff (by simp)))
    all_goals
      simp only [List.forall_mem_cons, List.not_mem_nil, false_implies, implies_true, and_true]
      exact ⟨⟨hoff (by simp), by decide⟩, hoff (by simp), by decide⟩
  rw [updateTree_eq]
  exact .ite hdown (hdown.trans (hup _))

theorem onlyKeys_treePortGone_off {p : Nat} (hp : p < 8) (s : State) : onlyKeys offChannel s (treePortGone p s) := by
  unfold treePortGone
  cases h : treePortOf s p with
  | none => exact .refl _ s
  | some n => exact .ite (.setTree ((onlyKeys_treeDrop (treePortOf_lt hp h) s).mono fun _ => offChannel_treeWord)) (.refl _ s)

theorem onlyKeys_linkLost_off (p : Nat) (down : Bool) (t : State) : onlyKeys offChannel t (linkLost p down t) := by
  unfold linkLost
  split
  · exact (onlyKeys_portDown_loss p 1 t).mono fun _ => offChannel_of_lossKey
  · exact .of_regs (onlyKeys_dropTunnels (fun k hk => .inr (by omega)) p 1 t) rfl

theorem onlyKeys_detachAround_off {p : Nat} (hp : p < 8) (down : Bool) (t : State) : onlyKeys offChannel t (detachAround p down t) := by
  have hfresh : onlyKeys offChannel (linkLost p down t) (linkFresh p (linkLost p down t)) :=
    .setEg (.setCan ((onlyKeys_attachEvent_loss _).mono fun _ => offChannel_of_lossKey))
  have hbudget := (onlyKeys_linkLost_off p down t).trans (hfresh.trans
    ((onlyKeys_treePortGone_off hp _).trans ((onlyKeys_updateExt _).mono fun _ => offChannel_of_stewardKey)))
  exact .ite (c := p < 2) (hbudget.trans (.trans (.of_regs (.refl _ _) rfl) (onlyKeys_updateTree_off _))) hbudget

theorem detachFields_off (p : CanPort) : ∀ f ∈ [PD_STAT_CONTR p.val, PD_RDO_RDO p.val, PD_VBUS_TARGET p.val, PD_CNT_ERREC p.val, PD_STAT_CCST p.val], offChannel f.key ∧ ¬ leafKey f.key := by
  have := p.isLt
  simp only [List.forall_mem_cons, List.not_mem_nil, false_implies, implies_true, and_true, leafKey, offChannel, fld, PD_STAT_CONTR, PD_RDO_RDO, PD_VBUS_TARGET,
    PD_CNT_ERREC, PD_STAT_CCST]
  omega

theorem offChannel_detachClears (p : CanPort) : ∀ e ∈ detachClears p.val, offChannel e.1.key := by
  have := p.isLt
  simp only [detachClears, List.forall_mem_cons, List.not_mem_nil, false_implies, implies_true, and_true, offChannel, fld, PD_STAT_CCST, PD_STAT_ORIENT, PD_STAT_PROLE,
    PD_STAT_DROLE, PD_STAT_VCONN, PD_STAT_CAB5A, PD_STAT_CABEPR, PD_STAT_RPLVL, PD_CV_CVEN, PD_CV_STATE, PD_CV_ADJ, PST_LEASE_MW]
  omega

/-- Once its path is open, a detach leaves the channels. -/
theorem onlyKeys_detachCore_off (p : CanPort) (s : State) : onlyKeys offChannel (pathOff p.val s) (detachCore p.val s) := by
  have hf := detachFields_off p
  have hdiscard (t : State) : onlyKeys offChannel t (pdDiscard p.val t) := by
    have hwrs : onlyKeys offChannel t (t.wrs [(PD_STAT_CONTR p.val, 0), (PD_RDO_RDO p.val, 0)]) := by
      refine .wrs (.refl _ t) ?_
      simp only [List.forall_mem_cons, List.not_mem_nil, false_implies, implies_true, and_true]
      exact ⟨hf _ (by simp), hf _ (by simp)⟩
    unfold pdDiscard releaseSeed
    exact .ite (.wr (.setPdp hwrs) (by unfold offChannel; decide) pdFar_seedport.2) (.setPdp hwrs)
  have htarget (t : State) : onlyKeys offChannel t (setTarget p.val 250 t) :=
    .of_regs (.wr (f := PD_VBUS_TARGET p.val) (v := 250) (.refl _ t) (hf _ (by simp)).1 (hf _ (by simp)).2) rfl
  have hhere : onlyKeys offChannel (pathOff p.val s) (detachHere p.val s) :=
    (onlyKeys.setPdp ((hdiscard _).trans (htarget _))).wrs fun e he => ⟨offChannel_detachClears p e he, not_leafKey_detachClears p e he⟩
  have hleaf := offChannel_leaf (leafKey_evstat 18)
  have hleaves : onlyKeys offChannel (detachHere p.val s) (detachLeaves p.val s (detachHere p.val s)) :=
    .ite (.raise (.raise (.refl _ _) hleaf) hleaf) (.raise (.refl _ _) hleaf)
  rw [detachCore_eq]
  exact hhere.trans (hleaves.trans (onlyKeys_detachAround_off p.isLt _ _))

theorem state_not_off (n : Channel) : ¬ offChannel (PC_STAT_STATE n.val).key := by
  have := n.isLt
  simp only [offChannel, PC_STAT_STATE, fld]
  omega

theorem rd_state_pathOff {p : Nat} {s : State} (h : s.rd (PC_STAT_STATE (p + 2)) ≠ 6) : (pathOff p s).rd (PC_STAT_STATE (p + 2)) ≠ 6 := by
  have hopen : (openChannel (p + 2) s).rd (PC_STAT_STATE (p + 2)) ≠ 6 := by
    unfold openChannel openAt
    split
    · have hnodup := nodup_channel (p + 2) 0 0 0
      have hzero : (s.wrs [(PC_STAT_STATE (p + 2), 0), (PC_STAT_PG (p + 2), 0), (PC_STAT_REV (p + 2), 0)]).rd (PC_STAT_STATE (p + 2)) = 0 :=
        rd_wrs_eq hnodup (by simp) (show 0 < 2 ^ 4 by decide) s
      show (s.wrs [(PC_STAT_STATE (p + 2), 0), (PC_STAT_PG (p + 2), 0), (PC_STAT_REV (p + 2), 0)]).rd (PC_STAT_STATE (p + 2)) ≠ 6
      omega
    · exact h
  have hclear : (clearLatch (p + 2) (openChannel (p + 2) s)).rd (PC_STAT_STATE (p + 2)) ≠ 6 := by
    generalize openChannel (p + 2) s = t at hopen
    have hne : (PC_STAT_STATE (p + 2)).key ≠ (PC_STAT_ATTEMPT (p + 2)).key := by
      simp only [PC_STAT_STATE, PC_STAT_ATTEMPT, fld]
      omega
    unfold clearLatch
    dsimp only
    split
    · rw [rd_wr_of_lt _ _ _ (show 0 < 2 ^ 4 by decide)]
      decide
    · rw [State.rd_wr_ne _ _ _ _ hne]
      exact hopen
  have hne : (PC_STAT_STATE (p + 2)).key ≠ PP_FEED_ACTIVE.key := by
    simp only [PC_STAT_STATE, PP_FEED_ACTIVE, fld]
    omega
  unfold pathOff
  dsimp only
  split
  · show ((clearLatch (p + 2) (openChannel (p + 2) s)).wr PP_FEED_ACTIVE 0).rd _ ≠ 6
    rw [State.rd_wr_ne _ _ _ _ hne]
    exact hclear
  · exact hclear

theorem rd_state_errorRecovery (p : CanPort) {s : State} (h : s.rd (PC_STAT_STATE (p.val + 2)) ≠ 6) :
    (errorRecovery p.val s).rd (PC_STAT_STATE (p.val + 2)) ≠ 6 := by
  have hn := state_not_off ⟨p.val + 2, by omega⟩
  have hf := detachFields_off p
  have hgone : (if asSource s p.val || asSink s p.val then detachCore p.val s else s).rd (PC_STAT_STATE (p.val + 2)) ≠ 6 := by
    split
    · rw [(onlyKeys_detachCore_off p s).1 _ hn]
      exact rd_state_pathOff h
    · exact h
  generalize ht : (if asSource s p.val || asSink s p.val then detachCore p.val s else s) = t at hgone
  have htail : onlyKeys offChannel t (raise 18 7 ((t.inc (PD_CNT_ERREC p.val)).wr (PD_STAT_CCST p.val) 4)) :=
    .raise (.wr (.inc (.refl _ t) (hf _ (by simp)).1 (hf _ (by simp)).2) (hf _ (by simp)).1 (hf _ (by simp)).2) (offChannel_leaf (leafKey_evstat 18))
  unfold errorRecovery
  rw [ht, htail.1 _ hn]
  exact hgone

/-! ### Hard Reset and error recovery by command (R459, R460) -/

theorem decodeAddr_pdctl : ∀ q : CanPort, decodeAddr (0x70000 + 0x40 * q.val) = some (.PD_CTL, q.val, 0) := by decide +kernel

theorem pdctl_pos : ∀ q : CanPort, (PD_CTL_HRST q.val).pos = 31 ∧ (PD_CTL_ERREC q.val).pos = 30 ∧ (PD_CTL_SLEW q.val).pos = 20 ∧ (PD_CTL_TRLIM q.val).pos = 12 ∧
    (PD_CTL_EPREN q.val).pos = 11 ∧ (PD_CTL_PPSEN q.val).pos = 10 ∧ (PD_CTL_TRYSRC q.val).pos = 9 := by decide

theorem peekWord_pdctl {p : Path} {q : CanPort} {s : State} (h : writable s p (0x70000 + 0x40 * q.val)) : peekWord p (0x70000 + 0x40 * q.val) s =
    s.rd (PD_CTL_HRST q.val) * 2 ^ 31 + (s.rd (PD_CTL_ERREC q.val) * 2 ^ 30 + (s.rd (PD_CTL_SLEW q.val) * 2 ^ 20 + (s.rd (PD_CTL_TRLIM q.val) * 2 ^ 12 +
      (s.rd (PD_CTL_EPREN q.val) * 2 ^ 11 + (s.rd (PD_CTL_PPSEN q.val) * 2 ^ 10 + s.rd (PD_CTL_TRYSRC q.val) * 2 ^ 9))))) := by
  obtain ⟨-, habs, -⟩ := h
  have hdec : decodeFor p.idx (0x70000 + 0x40 * q.val) = some (.PD_CTL, q.val, 0) := decodeFor_of_decodeAddr (decodeAddr_pdctl q) rfl
  obtain ⟨hh, he, hs, ht, hep, hpp, htr⟩ := pdctl_pos q
  simp only [← hh, ← he, ← hs, ← ht, ← hep, ← hpp, ← htr]
  simp only [peekWord, habs, hdec]
  rfl

/-- With HRST and ERREC not asked for, the word that is written beside has neither. -/
theorem pdctlWord_low {p : Path} {q : CanPort} {s : State} (h : writable s p (0x70000 + 0x40 * q.val)) (hh : s.rd (PD_CTL_HRST q.val) = 0) (he : s.rd (PD_CTL_ERREC q.val) = 0) :
    bit (peekWord p (0x70000 + 0x40 * q.val) s) 31 = false ∧ bit (peekWord p (0x70000 + 0x40 * q.val) s) 30 = false := by
  have hslew : s.rd (PD_CTL_SLEW q.val) < 2 ^ 8 := State.rd_lt s _
  have htr : s.rd (PD_CTL_TRLIM q.val) < 2 ^ 8 := State.rd_lt s _
  have hep : s.rd (PD_CTL_EPREN q.val) < 2 ^ 1 := State.rd_lt s _
  have hpp : s.rd (PD_CTL_PPSEN q.val) < 2 ^ 1 := State.rd_lt s _
  have htry : s.rd (PD_CTL_TRYSRC q.val) < 2 ^ 1 := State.rd_lt s _
  have hlt : peekWord p (0x70000 + 0x40 * q.val) s < 2 ^ 30 := by
    rw [peekWord_pdctl h, hh, he]
    omega
  rw [bit_eq_testBit, bit_eq_testBit]
  exact ⟨Nat.testBit_lt_two_pow (Nat.lt_trans hlt (by decide)), Nat.testBit_lt_two_pow hlt⟩

/-- PD_CTL's settings as they are written. -/
def pdSettings (q v : Nat) (s : State) : State := wrWord (0x70000 + 0x40 * q) v ((regFields .PD_CTL q 0).filter fun f => f.acc = .rw) s

theorem pdSettings_fields (q : Nat) : (regFields .PD_CTL q 0).filter (fun f => f.acc = .rw) = [PD_CTL_SLEW q, PD_CTL_TRLIM q, PD_CTL_EPREN q, PD_CTL_PPSEN q, PD_CTL_TRYSRC q] := rfl

theorem unit_pdSettings : ∀ q : CanPort, unitOfAddr (0x70000 + 0x40 * q.val) = 18 := by decide

theorem onlyWrites_pdSettings {q : CanPort} {v : Nat} {s : State} (hu : unbounded s (0x70000 + 0x40 * q.val)) :
    onlyWrites [EVSTAT 18, PD_CTL_SLEW q.val, PD_CTL_TRLIM q.val, PD_CTL_EPREN q.val, PD_CTL_PPSEN q.val, PD_CTL_TRYSRC q.val] [.mg] s (pdSettings q.val v s) := by
  have h := onlyWrites_wrWord_settings (v := v) (fs := [PD_CTL_SLEW q.val, PD_CTL_TRLIM q.val, PD_CTL_EPREN q.val, PD_CTL_PPSEN q.val, PD_CTL_TRYSRC q.val]) hu (by omega) (by
    simp only [List.forall_mem_cons, List.not_mem_nil, false_implies, implies_true, and_true]
    exact ⟨rfl, rfl, rfl, rfl, rfl⟩)
  rw [unit_pdSettings] at h
  exact h

theorem pdSettings_apart : ∀ q : CanPort, ∀ f ∈ [PD_STAT_CCST q.val, PD_CNT_HRST q.val, PD_CNT_ERREC q.val],
    ∀ g ∈ [EVSTAT 18, PD_CTL_SLEW q.val, PD_CTL_TRLIM q.val, PD_CTL_EPREN q.val, PD_CTL_PPSEN q.val, PD_CTL_TRYSRC q.val], f.key ≠ g.key := by decide

theorem rd_pdSettings {q : CanPort} {v : Nat} {s : State} (hu : unbounded s (0x70000 + 0x40 * q.val)) :
    ∀ f ∈ [PD_STAT_CCST q.val, PD_CNT_HRST q.val, PD_CNT_ERREC q.val], (pdSettings q.val v s).rd f = s.rd f := by
  intro f hf
  exact (onlyWrites_pdSettings hu).1 f (pdSettings_apart q f hf)

theorem exec_pdctl {p : Path} {q : CanPort} {s : State} (h : plainly s p (0x70000 + 0x40 * q.val)) (v : Nat) : pathWrite p (0x70000 + 0x40 * q.val) v s = wrPdCtl q.val v s :=
  pathWrite_of_plainly h (by omega) (decodeFor_of_decodeAddr (decodeAddr_pdctl q) rfl) rfl

theorem hardResetAsked {p : Path} {q : CanPort} {s : State} (h : plainly s p (0x70000 + 0x40 * q.val)) (ha : attached s q.val = true) (hh : s.rd (PD_CTL_HRST q.val) = 0)
    (he : s.rd (PD_CTL_ERREC q.val) = 0) (hhards : (s.pdp q.val).hards < 3) :
    ∃ t, exec (.hrst p q) s = .next t ∧ t.rd (PD_STAT_CONTR q.val) = 1 ∧
      t.rd (PD_CNT_HRST q.val) = satInc 255 (s.rd (PD_CNT_HRST q.val)) ∧ Out.pd q.val "Hard Reset" [] ∈ t.sent ∧ leafSet t 18 3 := by
  obtain ⟨-, hlow⟩ := pdctlWord_low h.1 hh he
  generalize hw : peekWord p (0x70000 + 0x40 * q.val) s = w at hlow
  have hexec : exec (.hrst p q) s = .next (withBeff (hardReset q.val true) (pdSettings q.val (w ||| 2 ^ 31) s)) := by
    have hwrite : exec (.hrst p q) s = .next (wrPdCtl q.val (peekWord p (0x70000 + 0x40 * q.val) s ||| 2 ^ 31) s) := congrArg Host.Outcome.next (exec_pdctl h _)
    rw [hwrite, hw]
    unfold wrPdCtl
    dsimp only
    rw [if_pos (bit_or_two_pow w 31), if_neg (by rw [bit_or_two_pow_ne w (by decide), hlow]; decide)]
    rfl
  have hkeep := rd_pdSettings (v := w ||| 2 ^ 31) h.2
  have hpd : (pdSettings q.val (w ||| 2 ^ 31) s).pdp q.val = s.pdp q.val := by
    rw [State.pdp, (onlyWrites_pdSettings h.2).2 .pd (by simp), State.pdp]
  generalize pdSettings q.val (w ||| 2 ^ 31) s = t at hexec hkeep hpd
  have hatt : asSource t q.val = true ∨ asSink t q.val = true := by
    rw [attached, Bool.or_eq_true, asSource, asSink] at ha
    rw [asSource, asSink, hkeep _ (by simp)]
    exact ha
  obtain ⟨hcontr, -, hcount, -, hleaf, -, hsent, -⟩ := hardReset_effects q (sent := true) hatt (by rw [hpd]; exact hhards)
  have hfar := onlyKeys_withBeff_far (hardReset q.val true) t
  have hnear := pdFields_near q
  refine ⟨_, hexec, (hfar.1 _ (hnear _ (by simp [pdFields])).1).trans hcontr, ?_, ?_, hfar.2 _ _ hleaf⟩
  · rw [hfar.1 _ (hnear _ (by simp [pdFields])).1, hcount, hkeep _ (by simp)]
  · rw [sent_withBeff, hsent, if_pos rfl]
    exact List.mem_cons_self

theorem errorRecoveryAsked {p : Path} {q : CanPort} {s : State} (h : plainly s p (0x70000 + 0x40 * q.val)) (hh : s.rd (PD_CTL_HRST q.val) = 0)
    (he : s.rd (PD_CTL_ERREC q.val) = 0) :
    ∃ t, exec (.errec p q) s = .next t ∧ t.rd (PD_STAT_CCST q.val) = 4 ∧
      t.rd (PD_CNT_ERREC q.val) = satInc 255 (s.rd (PD_CNT_ERREC q.val)) ∧ leafSet t 18 7 := by
  obtain ⟨hlow, -⟩ := pdctlWord_low h.1 hh he
  generalize hw : peekWord p (0x70000 + 0x40 * q.val) s = w at hlow
  have hexec : exec (.errec p q) s = .next (withBeff (errorRecovery q.val) (pdSettings q.val (w ||| 2 ^ 30) s)) := by
    have hwrite : exec (.errec p q) s = .next (wrPdCtl q.val (peekWord p (0x70000 + 0x40 * q.val) s ||| 2 ^ 30) s) := congrArg Host.Outcome.next (exec_pdctl h _)
    rw [hwrite, hw]
    unfold wrPdCtl
    dsimp only
    rw [if_pos (bit_or_two_pow w 30), if_neg (by rw [bit_or_two_pow_ne w (by decide), hlow]; decide)]
    rfl
  have hkeep := rd_pdSettings (v := w ||| 2 ^ 30) h.2
  generalize pdSettings q.val (w ||| 2 ^ 30) s = t at hexec hkeep
  obtain ⟨hccst, hleaf⟩ := errorRecovery_effects q t
  have hfar := onlyKeys_withBeff_far (errorRecovery q.val) t
  have hnear := pdFields_near q
  refine ⟨_, hexec, (hfar.1 _ (hnear _ (by simp [pdFields])).1).trans hccst, ?_, hfar.2 _ _ hleaf⟩
  rw [hfar.1 _ (hnear _ (by simp [pdFields])).1, rd_errec_errorRecovery, hkeep _ (by simp)]

/-! ### Latches cleared by command (R482) -/

theorem decodeAddr_pcctl : ∀ n : Channel, decodeAddr (0x80000 + 0x20 * n.val) = some (.PC_CTL, n.val, 0) := by decide +kernel

/-- PC_CTL's settings as they are written; the image bounds ILIM. -/
def pcSettings (n v : Nat) (s : State) : State :=
  let a := 0x80000 + 0x20 * n
  let t := wrWord a v [PC_CTL_MODE n, PC_CTL_RETRIES n, PC_CTL_FLTT n, PC_CTL_GATE n] s
  match t.ld.image with
  | none => wrField a (PC_CTL_ILIM n) (bits v 19 7) t
  | some im => if leAt (im.chip 0x11) (40 + 16 * n) 2 < bits v 19 7 then cfgErr a t else wrField a (PC_CTL_ILIM n) (bits v 19 7) t

theorem wrPcCtl_eq (n v : Nat) (s : State) : wrPcCtl n v s =
    let t := pcSettings n v s
    if bit v 31 ∧ t.rd (PC_STAT_STATE n) = 6 ∧ mget 0 t.pw.latchedAt n ≠ t.clock + 1 then closeAgain n (t.wr (PC_STAT_STATE n) 0) else t := rfl

theorem onlyWrites_pcSettings {n : Channel} {v : Nat} {s : State} (hu : unbounded s (0x80000 + 0x20 * n.val)) :
    onlyWrites [EVSTAT (unitOfAddr (0x80000 + 0x20 * n.val)), PC_CTL_MODE n.val, PC_CTL_RETRIES n.val, PC_CTL_FLTT n.val, PC_CTL_GATE n.val, PC_CTL_ILIM n.val] [.mg] s
      (pcSettings n.val v s) := by
  have ha : 0x80000 + 0x20 * n.val < 0x400000 := by omega
  have hset := onlyWrites_wrWord_settings (v := v) (fs := [PC_CTL_MODE n.val, PC_CTL_RETRIES n.val, PC_CTL_FLTT n.val, PC_CTL_GATE n.val]) hu ha (by
    simp only [List.forall_mem_cons, List.not_mem_nil, false_implies, implies_true, and_true]
    exact ⟨rfl, rfl, rfl, rfl⟩)
  have hu' := unbounded_of_onlyWrites hu hset (by simp)
  unfold pcSettings
  dsimp only
  generalize wrWord (0x80000 + 0x20 * n.val) v [PC_CTL_MODE n.val, PC_CTL_RETRIES n.val, PC_CTL_FLTT n.val, PC_CTL_GATE n.val] s = t at hset hu'
  have hwide := hset.mono (gs := [EVSTAT (unitOfAddr (0x80000 + 0x20 * n.val)), PC_CTL_MODE n.val, PC_CTL_RETRIES n.val, PC_CTL_FLTT n.val, PC_CTL_GATE n.val, PC_CTL_ILIM n.val])
    (by simp) (List.Subset.refl _)
  have hilim := (onlyWrites_wrField hu' ha (PC_CTL_ILIM n.val) (bits v 19 7)).mono
    (gs := [EVSTAT (unitOfAddr (0x80000 + 0x20 * n.val)), PC_CTL_MODE n.val, PC_CTL_RETRIES n.val, PC_CTL_FLTT n.val, PC_CTL_GATE n.val, PC_CTL_ILIM n.val]) (by simp) (List.Subset.refl _)
  split
  · exact hwide.trans hilim
  · split
    · rw [cfgErr_of_lt ha]
      exact hwide.trans ((onlyWrites_raise ..).mono (by simp) (List.Subset.refl _))
    · exact hwide.trans hilim

theorem pcSettings_apart (n : Channel) : ∀ f ∈ [PC_STAT_STATE n.val, PD_STAT_CCST (n.val - 2)], f.key ≠ (EVSTAT (unitOfAddr (0x80000 + 0x20 * n.val))).key ∧
    ∀ g ∈ [PC_CTL_MODE n.val, PC_CTL_RETRIES n.val, PC_CTL_FLTT n.val, PC_CTL_GATE n.val, PC_CTL_ILIM n.val], f.key ≠ g.key := by
  revert n
  decide

theorem rd_pcSettings {n : Channel} {v : Nat} {s : State} (hu : unbounded s (0x80000 + 0x20 * n.val)) :
    ∀ f ∈ [PC_STAT_STATE n.val, PD_STAT_CCST (n.val - 2)], (pcSettings n.val v s).rd f = s.rd f := by
  intro f hf
  obtain ⟨hunit, hset⟩ := pcSettings_apart n f hf
  refine (onlyWrites_pcSettings hu).1 f fun g hg => ?_
  rcases List.mem_cons.1 hg with rfl | hg
  · exact hunit
  · exact hset g hg

/-- A feed's or a port's free channel is not latched once closing has been tried. -/
theorem closeFree_unlatched {n : Channel} {s : State} (h : s.rd (PC_STAT_STATE n.val) = 0) : (closeFree n.val s).rd (PC_STAT_STATE n.val) ≠ 6 := by
  have hsteward : ¬ stewardKey (PC_STAT_STATE n.val).key := fun hk => state_not_off n (offChannel_of_stewardKey hk)
  have hext (t : State) : (updateExt t).rd (PC_STAT_STATE n.val) = t.rd (PC_STAT_STATE n.val) := (onlyKeys_updateExt t).1 _ hsteward
  have hactive : (PC_STAT_STATE n.val).key ≠ PP_FEED_ACTIVE.key := by
    simp only [PC_STAT_STATE, PP_FEED_ACTIVE, fld]
    omega
  by_cases hn : n.val < 2
  · have hclose : (closeSupply (n.val + 1) false s).rd (PC_STAT_STATE n.val) = 1 := by
      rw [closeSupply_feed hn]
      exact (rd_closeChannel_of_open false ((State.rd_wr_ne _ _ _ _ hactive).trans h)).1
    unfold closeFree
    rw [if_pos hn]
    split
    · rw [(onlyKeys_leaveStop (K := fun _ => False) (.refl _ _)).1 _ id, hext, hclose]
      decide
    · omega
  · obtain ⟨p, hp⟩ : ∃ p : CanPort, n.val = p.val + 2 := ⟨⟨n.val - 2, by omega⟩, by simp; omega⟩
    have hclosed (rev : Bool) : (closeChannel n.val false rev s).rd (PC_STAT_STATE n.val) = 1 := (rd_closeChannel_of_open rev h).1
    have hpair : n.val - 2 = p.val := by omega
    have htried : (if asSource s p.val then closeChannel n.val false false s
      else if asSink s p.val ∧ (s.rd PP_FEED_ACTIVE = 0 && s.pw.dead.isNone) ∧ !anyFeed s then updateExt ((closeChannel n.val false true s).wr PP_FEED_ACTIVE 3)
      else s).rd (PC_STAT_STATE n.val) ≠ 6 := by
      split
      · rw [hclosed]
        decide
      · split
        · rw [hext, State.rd_wr_ne _ _ _ _ hactive, hclosed]
          decide
        · omega
    unfold closeFree
    rw [if_neg hn]
    dsimp only
    rw [hpair]
    generalize (if asSource s p.val then closeChannel n.val false false s
      else if asSink s p.val ∧ (s.rd PP_FEED_ACTIVE = 0 && s.pw.dead.isNone) ∧ !anyFeed s then updateExt ((closeChannel n.val false true s).wr PP_FEED_ACTIVE 3)
      else s) = t at htried
    split
    · rw [hp] at htried ⊢
      exact rd_state_errorRecovery p htried
    · exact htried

theorem latchCleared (p : Path) (n : Channel) (s : State) (h : plainly s p (0x80000 + 0x20 * n.val)) (hs : s.rd (PC_STAT_STATE n.val) = 6)
    (hl : mget 0 s.pw.latchedAt n.val ≠ s.clock + 1) : ∃ t, exec (.channelClr p n) s = .next t ∧ t.rd (PC_STAT_STATE n.val) ≠ 6 ∧
      (2 ≤ n.val → attached s (n.val - 2) = false → t.rd (PC_STAT_STATE n.val) = 0) ∧
      (2 ≤ n.val → asSource s (n.val - 2) = true → (s.pdp (n.val - 2)).erDue = false → t.rd (PC_STAT_STATE n.val) = 1) := by
  generalize hw : peekWord p (0x80000 + 0x20 * n.val) s ||| 2 ^ 31 = w
  have hwrite : exec (.channelClr p n) s = .next (wrPcCtl n.val w s) := by
    rw [← hw]
    exact congrArg Host.Outcome.next (pathWrite_of_plainly h (by omega) (decodeFor_of_decodeAddr (decodeAddr_pcctl n) rfl) rfl)
  have honly := onlyWrites_pcSettings (v := w) h.2
  have hkeep := rd_pcSettings (v := w) h.2
  have hpw : (pcSettings n.val w s).pw = s.pw := honly.2 .pw (by simp)
  have hclock : (pcSettings n.val w s).clock = s.clock := honly.2 .clock (by simp)
  have hpd : (pcSettings n.val w s).pd = s.pd := honly.2 .pd (by simp)
  rw [wrPcCtl_eq] at hwrite
  generalize pcSettings n.val w s = t at hwrite hkeep hpw hclock hpd
  dsimp only at hwrite
  rw [if_pos ⟨by rw [← hw]; exact bit_or_two_pow _ _, (hkeep _ (by simp)).trans hs, by rw [hpw, hclock]; exact hl⟩] at hwrite
  have hzero : (t.wr (PC_STAT_STATE n.val) 0).rd (PC_STAT_STATE n.val) = 0 := rd_wr_of_lt _ _ _ (show 0 < 2 ^ 4 by decide)
  have hccst : (t.wr (PC_STAT_STATE n.val) 0).rd (PD_STAT_CCST (n.val - 2)) = s.rd (PD_STAT_CCST (n.val - 2)) := by
    have hne : (PD_STAT_CCST (n.val - 2)).key ≠ (PC_STAT_STATE n.val).key := by
      simp only [PD_STAT_CCST, PC_STAT_STATE, fld]
      omega
    exact (State.rd_wr_ne _ _ _ _ hne).trans (hkeep _ (by simp))
  have hpdp : (t.wr (PC_STAT_STATE n.val) 0).pdp (n.val - 2) = s.pdp (n.val - 2) := by
    show mget {} t.pd (n.val - 2) = _
    rw [hpd, State.pdp]
  generalize t.wr (PC_STAT_STATE n.val) 0 = u at hwrite hzero hccst hpdp
  have hsteward : ¬ stewardKey (PC_STAT_STATE n.val).key := fun hk => state_not_off n (offChannel_of_stewardKey hk)
  have hfree : (closeAgain n.val u).rd (PC_STAT_STATE n.val) = (closeFree n.val u).rd (PC_STAT_STATE n.val) := (onlyKeys_withBeff _ u).1 _ hsteward
  refine ⟨_, hwrite, ?_, fun hn hatt => ?_, fun hn hsrc hdue => ?_⟩
  · rw [hfree]
    exact closeFree_unlatched hzero
  · have hnot : asSource u (n.val - 2) = false ∧ asSink u (n.val - 2) = false := by
      rw [asSource, asSink, hccst]
      rwa [attached, Bool.or_eq_false_iff, asSource, asSink] at hatt
    rw [hfree, ← hzero]
    simp [closeFree, Nat.not_lt.2 hn, hnot.1, hnot.2, attached]
  · have hsrc' : asSource u (n.val - 2) = true := by rw [asSource, hccst]; exact hsrc
    rw [hfree, closeFree_source hn hsrc', if_neg (by simp [hpdp, hdue])]
    exact (rd_closeChannel_of_open false hzero).1

/-- Settles O57. -/
theorem resetAndPowerCommands : Obligations.ResetAndPowerCommands := by
  unfold Obligations.ResetAndPowerCommands
  exact ⟨reportInjected, fun p v s h => ⟨coldTaken h, warmTaken h, fun hk hc _ => warmWaits h hk hc, keyRejected h, portTakenDown h⟩, powerRequested,
    fun p q s h ha hh he => ⟨hardResetAsked h ha hh he, errorRecoveryAsked h hh he⟩, latchCleared, budgetPlaced⟩

end Sys2Proof.Machine
end

section
set_option Elab.async false
/-! The end of a source, the release of the domains, the fuse load and the firmware's start. -/

namespace Sys2Proof.Machine

open Sys2Proof Sys2Proof.Laws

/-! ### Sources and domains (R419, R420) -/

/-- What a domain's release brings leaves the order of the release. -/
theorem domainEffect_bt (k : Nat) (s : State) : (domainEffect k s).bt.released = s.bt.released ∧ (domainEffect k s).bt.srcs = s.bt.srcs ∧
    (domainEffect k s).bt.fusing = s.bt.fusing := by
  have hkey (u : State) : (releaseKey u).bt = u.bt := releaseKey_frame (κ := 21) rfl (.refl 21 u)
  have htree (u : State) : (updateTree u).bt = u.bt := updateTree_frame (κ := 21) rfl (.refl 21 u)
  have hdue (u : State) : (reportsDue u).bt = u.bt := reportsDue_frame (κ := 21) rfl (.refl 21 u)
  unfold domainEffect
  split
  · rw [hkey]
    split <;> exact ⟨rfl, rfl, rfl⟩
  · rw [htree]
    exact ⟨rfl, rfl, rfl⟩
  · exact ⟨rfl, rfl, rfl⟩
  · exact ⟨rfl, rfl, rfl⟩
  · rw [hdue]
    exact ⟨rfl, rfl, rfl⟩
  · exact ⟨rfl, rfl, rfl⟩

theorem releaseNext_bt (s : State) : (releaseNext s).bt.srcs = s.bt.srcs ∧ (releaseNext s).bt.fusing = s.bt.fusing := by
  unfold releaseNext
  dsimp only
  split
  · exact ⟨rfl, rfl⟩
  · split
    · split
      · have h : (raise 24 3 (s.wr RST_BOOT_WAITPWR 1)).bt = s.bt := raise_frame (κ := 21) rfl (.refl 21 _)
        rw [h]
        exact ⟨rfl, rfl⟩
      · exact ⟨rfl, rfl⟩
    · obtain ⟨-, hsrcs, hfusing⟩ := domainEffect_bt (s.bt.released + 1) { s with bt := { s.bt with released := s.bt.released + 1 } }
      exact ⟨hsrcs, hfusing⟩

theorem srcs_beginRelease (s : State) : (beginRelease s).bt.srcs = s.bt.srcs := by
  have hraise : (raise 24 0 s).bt = s.bt := raise_frame (κ := 21) rfl (.refl 21 s)
  have hfuses : (startFuses (raise 24 0 s)).bt.srcs = (raise 24 0 s).bt.srcs := by
    generalize raise 24 0 s = t
    unfold startFuses
    split
    · rfl
    · dsimp only
      split <;> rfl
  unfold beginRelease
  dsimp only
  split
  · rfl
  · split
    · rw [hfuses, hraise]
    · rw [(releaseNext_bt _).1, hraise]

/-- The state in which a source has ended. -/
def sourceEnded (x : ResetSrc) (s : State) : State :=
  let t := { s with bt := { s.bt with srcs := s.bt.srcs.filter (· ≠ x) } }
  if x = .thermal then (match (supplies t).head? with | some a => closeSupply a false t | none => t) else t

theorem bt_closeSupply (a : Nat) (fast : Bool) (s : State) : (closeSupply a fast s).bt = s.bt := closeSupply_frame (κ := 21) rfl (.refl 21 s)

theorem bt_sourceEnded (x : ResetSrc) (s : State) : (sourceEnded x s).bt = { s.bt with srcs := s.bt.srcs.filter (· ≠ x) } := by
  unfold sourceEnded
  dsimp only
  split
  · split
    · exact bt_closeSupply ..
    · rfl
  · rfl

/-- The state as the power-on reset's end finds its supply. -/
def supplyFound (t : State) : State :=
  if anyFeed t.free.2 then (match (supplies t.free.2).head? with | some f => closeSupply f false t.free.2 | none => t.free.2)
  else t.free.2.wrs [(PD_GLOB_DBBOOT, 1), (PD_GLOB_DBPORT, t.free.1 % 2)]

theorem bt_supplyFound (t : State) : (supplyFound t).bt = t.bt := by
  unfold supplyFound
  split
  · split
    · exact bt_closeSupply ..
    · rfl
  · exact wrs_frame (k := 21) (by decide) (.refl 21 _)

theorem execResetRelease_eq (x : ResetSrc) (s : State) (h : x ∈ s.bt.srcs) : exec (.resetRelease x) s = .next (
    if x = .por then { supplyFound (sourceEnded x s) with
      bt := { (supplyFound (sourceEnded x s)).bt with released := 1, fusing := true, coreEn := true, t0 := (supplyFound (sourceEnded x s)).clock } }
    else if s.bt.released = 0 ∨ !s.bt.later.isEmpty then sourceEnded x s else beginRelease (sourceEnded x s)) := by
  have hexec : exec (.resetRelease x) s = if !s.bt.srcs.contains x then .next s else
      if x = .por then .next { supplyFound (sourceEnded x s) with
        bt := { (supplyFound (sourceEnded x s)).bt with released := 1, fusing := true, coreEn := true, t0 := (supplyFound (sourceEnded x s)).clock } }
      else if s.bt.released = 0 ∨ !s.bt.later.isEmpty then .next (sourceEnded x s) else .next (beginRelease (sourceEnded x s)) := rfl
  rw [hexec, if_neg (by simpa using h)]
  split
  · rfl
  · split <;> rfl

theorem sourceReleased {x : ResetSrc} {s : State} (h : x ∈ s.bt.srcs) : ∃ t, exec (.resetRelease x) s = .next t ∧ x ∉ t.bt.srcs ∧
    (x = .por → t.bt.released = 1 ∧ t.bt.fusing = true) := by
  have hgone : x ∉ (sourceEnded x s).bt.srcs := by
    rw [bt_sourceEnded]
    simp
  refine ⟨_, execResetRelease_eq x s h, ?_⟩
  split
  · refine ⟨?_, fun _ => ⟨rfl, rfl⟩⟩
    show x ∉ (supplyFound (sourceEnded x s)).bt.srcs
    rw [bt_supplyFound]
    exact hgone
  · next hx =>
    refine ⟨?_, fun e => absurd e hx⟩
    split
    · exact hgone
    · rw [srcs_beginRelease]
      exact hgone

theorem domainReleased {s : State} (haway : s.rd PST_PSSTAT_STATE < 3) (hsrcs : s.bt.srcs = []) (h1 : 1 ≤ s.bt.released) (h18 : s.bt.released < 18)
    (hgo : domainWaits (s.bt.released + 1) s = false) : ∃ t, exec .domainRelease s = .next t ∧ t.bt.released = s.bt.released + 1 := by
  refine ⟨_, rfl, ?_⟩
  unfold releaseNext
  dsimp only
  rw [if_neg (by simp [hsrcs]; omega), if_neg (by simp [hgo])]
  exact (domainEffect_bt ..).1

theorem domainHeld {s : State} (haway : s.rd PST_PSSTAT_STATE < 3) (hsrcs : s.bt.srcs = []) (h3 : s.bt.released = 3) (hgate : s.bt.gate = false)
    (hwait : s.on RST_BOOT_WAITPWR = false) : ∃ t, exec .domainRelease s = .next t ∧ t.bt = s.bt ∧ t.rd RST_BOOT_WAITPWR = 1 ∧ leafSet t 24 3 ∧
      onlyWrites [RST_BOOT_WAITPWR, EVSTAT 24] [.mg] s t := by
  have hexec : exec .domainRelease s = .next (raise 24 3 (s.wr RST_BOOT_WAITPWR 1)) := by
    refine congrArg Host.Outcome.next ?_
    unfold releaseNext
    dsimp only
    rw [h3, if_neg (by simp [hsrcs]; omega), if_pos (by simp [domainWaits, hgate]), if_pos (by simp [hwait])]
  refine ⟨_, hexec, raise_frame (κ := 21) rfl (.refl 21 _), ?_, leafSet_raise 24 3 _ (by decide), ?_⟩
  · rw [rd_raise_ne _ _ _ _ (by decide)]
    exact State.rd_wr_same s RST_BOOT_WAITPWR 1
  · exact ((onlyWrites_wr ..).mono (by simp) (by simp)).trans ((onlyWrites_raise ..).mono (by simp) (List.Subset.refl _))

/-! ### The supplies of the start (R404, R407, R515) -/

theorem partsOnly_bt (s : State) (b : Boot) : partsOnly [.bt] s { s with bt := b } := by
  intro p hp
  cases p
  case bt => simp at hp
  all_goals rfl

theorem gateOpened {s : State} (h : anyFeed s = true) :
    ∃ t, exec .powerGateOpen s = .next t ∧ t.bt.gate = true ∧ t.rd RST_BOOT_WAITPWR = 0 ∧ onlyWrites [RST_BOOT_WAITPWR] [.bt] s t := by
  have hexec : exec .powerGateOpen s = .next { s.wr RST_BOOT_WAITPWR 0 with bt := { s.bt with gate := true } } := by
    refine congrArg Host.Outcome.next ?_
    rw [if_pos (.inl h)]
    rfl
  refine ⟨_, hexec, rfl, State.rd_wr_same s RST_BOOT_WAITPWR 0, ?_⟩
  exact ((onlyWrites_wr RST_BOOT_WAITPWR 0 s).mono (List.Subset.refl _) (by simp)).trans ⟨fun _ _ => rfl, (partsOnly_bt _ _).mono (by simp)⟩

/-- A brown-out is taken: its cause, and its source until the release. -/
theorem brownOut_asserted (s : State) : (assertReset .brownOut 2 1 s).rd RST_CAUSE_BOR = 1 ∧ ResetSrc.brownOut ∈ (assertReset .brownOut 2 1 s).bt.srcs := by
  have hsrc : ResetSrc.brownOut ∈ (if s.bt.srcs.contains .brownOut then s else { s with bt := { s.bt with srcs := s.bt.srcs ++ [.brownOut] } }).bt.srcs := by
    split
    · next h => exact List.contains_iff_mem.1 h
    · simp
  unfold assertReset
  generalize (if s.bt.srcs.contains .brownOut then s else { s with bt := { s.bt with srcs := s.bt.srcs ++ [.brownOut] } }) = t at hsrc
  refine ⟨rd_requestReset_cause 1 (by decide) _ t, ?_⟩
  have hkeep (u : State) : (takeReset 2 u).bt.srcs = u.bt.srcs := by
    rw [bt_takeReset]
    exact (bt_holdDomains 2 u).2.2.2
  unfold requestReset
  dsimp only
  rw [if_neg (by omega), hkeep]
  split <;> exact hsrc

theorem corePgTaken {s : State} (he : s.bt.coreEn = true) (ho : coreOff s = false) :
    (∃ t, exec (.corePg true) s = .next t ∧ t.bt.corePg = true ∧ partsOnly [.bt] s t) ∧
    (s.bt.corePg = true → ∃ t, exec (.corePg false) s = .next t ∧ t.rd RST_CAUSE_BOR = 1 ∧ ResetSrc.brownOut ∈ t.bt.srcs) := by
  have hexec (high : Bool) : exec (.corePg high) s =
      .next (if !high ∧ s.bt.corePg then assertReset .brownOut 2 1 { s with bt := { s.bt with corePg := high } } else { s with bt := { s.bt with corePg := high } }) := by
    show execCorePg high s = _
    unfold execCorePg
    rw [if_neg (by simp [he, ho])]
  refine ⟨⟨_, hexec true, rfl, partsOnly_bt _ _⟩, fun hpg => ⟨_, hexec false, ?_⟩⟩
  rw [if_pos ⟨rfl, hpg⟩]
  exact brownOut_asserted _

theorem partsOnly_pin (s : State) (b : Boot) (high : Bool) : partsOnly [.sent, .bt] s (({ s with bt := b } : State).emit (.pin "CORE_EN" 0 high)) := by
  intro p hp
  cases p
  case sent => simp at hp
  case bt => simp at hp
  all_goals rfl

theorem coreEnDropped {s : State} (he : s.bt.coreEn = true) (hp : s.bt.corePg = false) :
    ∃ t, exec .corePgTimeout s = .next t ∧ t.bt.coreEn = false ∧ t.sent = .pin "CORE_EN" 0 false :: s.sent ∧ partsOnly [.sent, .bt] s t := by
  have hexec : exec .corePgTimeout s = .next (({ s with bt := { s.bt with coreEn := false } } : State).emit (.pin "CORE_EN" 0 false)) :=
    congrArg Host.Outcome.next (if_pos ⟨he, by simp [hp]⟩)
  exact ⟨_, hexec, rfl, rfl, partsOnly_pin _ _ _⟩

theorem coreEnDriven {s : State} (he : s.bt.coreEn = false) (ho : coreOff s = false) (h1 : 1 ≤ s.bt.released) :
    ∃ t, exec .coreEnRetry s = .next t ∧ t.bt.coreEn = true ∧ t.sent = .pin "CORE_EN" 0 true :: s.sent ∧ partsOnly [.sent, .bt] s t := by
  have hexec : exec .coreEnRetry s = .next (({ s with bt := { s.bt with coreEn := true } } : State).emit (.pin "CORE_EN" 0 true)) :=
    congrArg Host.Outcome.next (if_pos ⟨by simp [he], by simp [ho], h1⟩)
  exact ⟨_, hexec, rfl, rfl, partsOnly_pin _ _ _⟩

theorem lpddrTrained {s : State} (h : 6 ≤ s.bt.released) : ∃ t, exec .lpddrTrainingComplete s = .next t ∧ t.bt.trained = true ∧
    onlyWrites [RST_BOOT_SAPDONE, RST_BOOT_SAPTIME] [.bt] s t := by
  have hexec : exec .lpddrTrainingComplete s = .next (checkSapling { s with bt := { s.bt with trained := true } }) := congrArg Host.Outcome.next (if_pos h)
  have htrained : onlyWrites [RST_BOOT_SAPDONE, RST_BOOT_SAPTIME] [.bt] s { s with bt := { s.bt with trained := true } } := ⟨fun _ _ => rfl, (partsOnly_bt _ _).mono (by simp)⟩
  refine ⟨_, hexec, ?_, ?_⟩
  · have hbt : (checkSapling { s with bt := { s.bt with trained := true } }).bt = { s.bt with trained := true } := checkSapling_frame (κ := 21) rfl (.refl 21 _)
    rw [hbt]
  · unfold checkSapling
    split
    · exact htrained.trans ((onlyWrites_wrs (by simp) _).mono (List.Subset.refl _) (by simp))
    · exact htrained

/-! ### The fuse load (R410 to R412) -/

/-- A load that ends leaves what outlasts a warm reset and the release of KEY. -/
theorem fusesDone_effects (s : State) : (fusesDone s).bt.fusing = false ∧
    (∀ f : Fld, ¬ offKey f.key → ¬ shownKey f.key → outlasts 1 f.key = true → (fusesDone s).rd f = s.rd f) ∧
    (s.bt.later = [] → (fusesDone s).regs = s.regs) := by
  generalize hu : takeReset 1 { s with bt := { s.bt with fusing := false, later := [], reach := 0 } } = u
  have heq : fusesDone s = if s.bt.later.isEmpty then { s with bt := { s.bt with fusing := false, later := [] } } else beginRelease u := by
    rw [← hu]
    rfl
  have hheld : ((holdDomains 1 { s with bt := { s.bt with fusing := false, later := [], reach := 0 } }).bt.fusing = false) ∧
      (holdDomains 1 { s with bt := { s.bt with fusing := false, later := [], reach := 0 } }).bt.reach = 1 := by
    constructor
    · unfold holdDomains coreBack
      dsimp only
      split <;> rfl
    · exact (bt_holdDomains 1 _).1
  have hbt : u.bt.fusing = false ∧ u.bt.reach = 1 ∧ u.bt.released ≤ 1 := by
    rw [← hu]
    refine ⟨?_, ?_, released_takeReset _ _⟩
    · rw [bt_takeReset]
      exact hheld.1
    · rw [bt_takeReset]
      exact hheld.2
  have hrd {f : Fld} (hs : ¬ shownKey f.key) (ho : outlasts 1 f.key = true) : u.rd f = s.rd f := by
    rw [← hu, rd_takeReset hs, if_pos ho]
    rfl
  have hraise : (raise 24 0 u).bt = u.bt := raise_frame (κ := 21) rfl (.refl 21 u)
  have hbegin : beginRelease u = if !u.bt.srcs.isEmpty ∨ u.bt.reach = 0 then u else releaseNext (raise 24 0 u) := by
    unfold beginRelease
    dsimp only
    split
    · rfl
    · rw [if_neg (by omega)]
  rw [heq]
  refine ⟨?_, fun f hoff hshown hout => ?_, fun hl => ?_⟩
  · split
    · rfl
    · rw [hbegin]
      split
      · exact hbt.1
      · rw [(releaseNext_bt _).2, hraise]
        exact hbt.1
  · split
    · rfl
    · rw [← hrd hshown hout, hbegin]
      split
      · rfl
      · have hnext := (releaseNext_effects (s := raise 24 0 u) (by rw [hraise]; exact hbt.2.2)).1
        rw [hnext.1 _ hoff, rd_raise_ne _ _ _ _ fun e => hoff (.inl (.inl (e ▸ lossKey_leaf 24)))]
  · rw [if_pos (by simp [hl])]

theorem regs_mapPins (s : State) : (mapPins s).regs = s.regs := mapPins_frame (κ := 1) rfl (.refl 1 s)

/-- A load that matches has been put into the shadow. -/
def fusesShown (l : List FuseErr) (s : State) : State :=
  let t := (s.wr FUSE_LDST_CRCLO (fuseCrc s l)).wrs (shadowFields.map fun e => (e.1, fuseWord s l e.2))
  let t := mapPins (t.wr FUSE_LDST_SHADOW_VALID 1)
  t.wrs [(PD_GLOB_FPDOV, b2n (fuseListValid t)), (PD_GLOB_FPDOC, (fuseList t).length)]

theorem nodup_shadowFields : (shadowFields.map fun e => e.1.key).Nodup := by decide +kernel

theorem fusesShown_effects (l : List FuseErr) (s : State) : (fusesShown l s).rd FUSE_LDST_SHADOW_VALID = 1 ∧
    (fusesShown l s).rd FUSE_VAR_V = fuseWord s l 0x10 % 2 ^ FUSE_VAR_V.w := by
  generalize ht : (s.wr FUSE_LDST_CRCLO (fuseCrc s l)).wrs (shadowFields.map fun e => (e.1, fuseWord s l e.2)) = t
  have hvar : t.rd FUSE_VAR_V = fuseWord s l 0x10 % 2 ^ FUSE_VAR_V.w := by
    have hmem : (FUSE_VAR_V, fuseWord s l 0x10) ∈ shadowFields.map fun e => (e.1, fuseWord s l e.2) :=
      List.mem_map.2 ⟨(FUSE_VAR_V, 0x10), by simp [shadowFields], rfl⟩
    rw [← ht]
    exact State.rd_wrs_of_mem (e := (FUSE_VAR_V, fuseWord s l 0x10)) (by rw [List.map_map]; exact nodup_shadowFields) hmem _
  have hlast {f : Fld} (hne : ∀ g ∈ [PD_GLOB_FPDOV, PD_GLOB_FPDOC], f.key ≠ g.key) : (fusesShown l s).rd f = (t.wr FUSE_LDST_SHADOW_VALID 1).rd f := by
    unfold fusesShown
    dsimp only
    rw [ht, (onlyWrites_wrs (fs := [PD_GLOB_FPDOV, PD_GLOB_FPDOC]) (by simp) _).1 f hne, State.rd, regs_mapPins, State.rd]
  refine ⟨(hlast (by decide)).trans (State.rd_wr_same t FUSE_LDST_SHADOW_VALID 1), (hlast (by decide)).trans ?_⟩
  rw [State.rd_wr_ne _ _ _ _ (by decide), hvar]

/-- A load that does not match has been counted. -/
def fusesFailed (l : List FuseErr) (s : State) : State :=
  raise 23 0 ((s.wr FUSE_LDST_CRCLO (fuseCrc s l)).wr FUSE_LDST_ATTEMPT (s.rd FUSE_LDST_ATTEMPT + 1))

theorem exec_fuseLoadAttempt {l : List FuseErr} {s : State} (hf : s.bt.fusing = true) (h1 : 1 ≤ s.bt.released) (hsrc : ∀ x ∈ s.bt.srcs, x = .warmN) :
    exec (.fuseLoadAttempt l) s = if fuseCrc s l = fuseWord s l 0x200 then .next (fusesDone (fusesShown l s))
      else if (fusesFailed l s).rd FUSE_LDST_ATTEMPT < 3 then .next (fusesFailed l s)
      else .next (fusesDone (raise 23 1 ((fusesFailed l s).wrs [(SYS_STAGE_FUSEFLT, 1), (FUSE_LDST_FAULT, 1), (PD_GLOB_FPDOV, 0), (PD_GLOB_FPDOC, 0)]))) := by
  have hall : s.bt.srcs.all (· == .warmN) = true := by simpa using hsrc
  show execFuseLoadAttempt l s = _
  unfold execFuseLoadAttempt
  rw [if_neg (by simp only [hf, hall]; simp; omega)]
  rfl

theorem fuseApart : ∀ f ∈ [FUSE_LDST_SHADOW_VALID, FUSE_VAR_V], ¬ offKey f.key ∧ ¬ shownKey f.key ∧ outlasts 1 f.key = true := by
  simp only [List.forall_mem_cons, List.not_mem_nil, false_implies, implies_true, and_true]
  refine ⟨⟨?_, not_shownKey (by decide) (by decide), by decide +kernel⟩, ?_, not_shownKey (by decide) (by decide), by decide +kernel⟩
  all_goals
    unfold offKey haltKey stopKeys loaderKeys slotKeys lossKey groveUp
    decide

theorem fuseLoaded (l : List FuseErr) (s : State) (hf : s.bt.fusing = true) (h1 : 1 ≤ s.bt.released) (hsrc : ∀ x ∈ s.bt.srcs, x = .warmN) :
    (fuseCrc s l = fuseWord s l 0x200 → ∃ t, exec (.fuseLoadAttempt l) s = .next t ∧ t.rd FUSE_LDST_SHADOW_VALID = 1 ∧
      t.bt.fusing = false ∧ t.rd FUSE_VAR_V = fuseWord s l 0x10 % 2 ^ FUSE_VAR_V.w) ∧
    (fuseCrc s l ≠ fuseWord s l 0x200 → s.rd FUSE_LDST_ATTEMPT < 2 → ∃ t, exec (.fuseLoadAttempt l) s = .next t ∧
      t.rd FUSE_LDST_ATTEMPT = s.rd FUSE_LDST_ATTEMPT + 1 ∧ t.bt = s.bt ∧ leafSet t 23 0 ∧
      onlyWrites [FUSE_LDST_CRCLO, FUSE_LDST_ATTEMPT, EVSTAT 23] [.mg] s t) ∧
    (fuseCrc s l ≠ fuseWord s l 0x200 → s.rd FUSE_LDST_ATTEMPT = 2 → s.bt.later = [] → ∃ t, exec (.fuseLoadAttempt l) s = .next t ∧
      t.rd SYS_STAGE_FUSEFLT = 1 ∧ t.bt.fusing = false ∧ leafSet t 23 1) := by
  have hexec := exec_fuseLoadAttempt (l := l) hf h1 hsrc
  have hcount (hlt : s.rd FUSE_LDST_ATTEMPT + 1 < 4) : (fusesFailed l s).rd FUSE_LDST_ATTEMPT = s.rd FUSE_LDST_ATTEMPT + 1 :=
    (rd_raise_ne _ _ _ _ (by decide)).trans (rd_wr_of_lt FUSE_LDST_ATTEMPT _ _ hlt)
  have honly : onlyWrites [FUSE_LDST_CRCLO, FUSE_LDST_ATTEMPT, EVSTAT 23] [.mg] s (fusesFailed l s) :=
    (((onlyWrites_wr FUSE_LDST_CRCLO _ s).mono (by simp) (by simp)).trans ((onlyWrites_wr ..).mono (by simp) (by simp))).trans
      ((onlyWrites_raise ..).mono (by simp) (List.Subset.refl _))
  refine ⟨fun hc => ?_, fun hc ha => ?_, fun hc ha hl => ?_⟩
  · rw [if_pos hc] at hexec
    obtain ⟨hvalid, hvar⟩ := fusesShown_effects l s
    obtain ⟨hdone, hkeep, -⟩ := fusesDone_effects (fusesShown l s)
    obtain ⟨ho1, hs1, hw1⟩ := fuseApart FUSE_LDST_SHADOW_VALID (by simp)
    obtain ⟨ho2, hs2, hw2⟩ := fuseApart FUSE_VAR_V (by simp)
    exact ⟨_, hexec, (hkeep _ ho1 hs1 hw1).trans hvalid, hdone, (hkeep _ ho2 hs2 hw2).trans hvar⟩
  · rw [if_neg hc, hcount (by omega), if_pos (by omega)] at hexec
    exact ⟨_, hexec, hcount (by omega), honly.2 .bt (by simp), leafSet_raise 23 0 _ (by decide), honly⟩
  · rw [if_neg hc, hcount (by omega), if_neg (by omega)] at hexec
    have hlater : (fusesFailed l s).bt.later = [] := by
      rw [show (fusesFailed l s).bt = s.bt from honly.2 .bt (by simp), hl]
    generalize fusesFailed l s = t at hexec hlater
    have hbt : (raise 23 1 (t.wrs [(SYS_STAGE_FUSEFLT, 1), (FUSE_LDST_FAULT, 1), (PD_GLOB_FPDOV, 0), (PD_GLOB_FPDOC, 0)])).bt = t.bt :=
      raise_frame (κ := 21) rfl (wrs_frame (k := 21) (by decide) (.refl 21 t))
    obtain ⟨hdone, -, hregs⟩ := fusesDone_effects (raise 23 1 (t.wrs [(SYS_STAGE_FUSEFLT, 1), (FUSE_LDST_FAULT, 1), (PD_GLOB_FPDOV, 0), (PD_GLOB_FPDOC, 0)]))
    have hsame := hregs (by rw [hbt, hlater])
    refine ⟨_, hexec, ?_, hdone, ?_⟩
    · rw [State.rd, hsame]
      exact (rd_raise_ne _ _ _ _ (by decide)).trans (rd_wrs_eq (by decide) (by simp) (by decide) t)
    · rw [leafSet, State.rd, hsame]
      exact leafSet_raise 23 1 _ (by decide)

/-! ### The firmware (R396, R403, R406) -/

/-- What firmware that comes up writes beside its flag. -/
def upKeys (k : Nat) : Prop := attachKeys k ∨ k ∈ [PST_AVS_DUTY.key, PST_AVS_TARGET.key, PST_U2LEASE_PORTS.key, KEY_BLOB_PRESENT.key, KEY_BLOB_PAGE.key, KEY_BLOB_NEXT.key,
  PST_PSSTAT_WHO.key, PST_PSSTAT_REASON.key, PST_PSSTAT_PHASE.key, PST_PSSTAT_DEFERS.key]

theorem onlyKeys_psAsk (target : Nat) (s : State) : onlyKeys upKeys s (psAsk target s) :=
  .trans (.setPs (.wrs (.refl _ s) (by
    simp only [List.forall_mem_cons, List.not_mem_nil, false_implies, implies_true, and_true]
    exact ⟨⟨.inr (by decide), by decide⟩, .inr (by decide), by decide⟩))) (onlyKeys_showIndicator _ _)

theorem onlyKeys_psRequest (s : State) : onlyKeys upKeys s (psRequest s) := by
  unfold psRequest
  refine .ite (.wrs (.refl _ s) ?_) (.ite ((onlyKeys_toActive s).mono fun _ => .inl) (onlyKeys_psAsk _ s))
  simp only [List.forall_mem_cons, List.not_mem_nil, false_implies, implies_true, and_true]
  exact ⟨⟨.inr (by decide), by decide⟩, ⟨.inr (by decide), by decide⟩, .inl (.inl (by decide)), by decide⟩

theorem held_raise (u b : Nat) (s : State) : (raise u b s).mg.held = s.mg.held := by
  simp only [raise]
  split
  · rfl
  · split <;> rfl

theorem held_psRequest (s : State) : (psRequest s).mg.held = s.mg.held := by
  have hactive : (toActive s).mg.held = s.mg.held := by
    have hdoze (u : State) : (leaveDoze u).mg = u.mg := leaveDoze_frame (κ := 7) rfl (.refl 7 u)
    have hshow (u : State) : (showIndicator u).mg = u.mg := showIndicator_frame (κ := 7) rfl (.refl 7 u)
    have hwrs : (s.wrs [(PST_PSSTAT_STATE, 0), (PST_PSCTL_GO, 0)]).mg = s.mg := wrs_frame (k := 7) (by decide) (.refl 7 s)
    unfold toActive
    dsimp only
    split
    · rfl
    · split
      · rw [hdoze, hshow, held_raise, hwrs]
      · rw [hshow, held_raise, hwrs]
  have hwrs : (s.wrs [(PST_PSSTAT_WHO, 18), (PST_PSSTAT_REASON, 0xA), (PST_PSCTL_GO, 0)]).mg = s.mg := wrs_frame (k := 7) (by decide) (.refl 7 s)
  have hask : (psAsk (s.rd PST_PSCTL_TARGET) s).mg = s.mg := psAsk_frame (κ := 7) rfl (.refl 7 s)
  unfold psRequest
  dsimp only
  split
  · rw [hwrs]
  · split
    · exact hactive
    · rw [hask]

/-- The flag is up and its leaf raised; the rest of the start has not begun. -/
def flagUp (s : State) : State := tunsDue (raise 25 5 (s.wrs [(SYS_STAGE_FWRDY, 1), (PD_GLOB_FWPOL, 1)]))

theorem flagUp_effects (s : State) : (flagUp s).rd SYS_STAGE_FWRDY = 1 ∧ (flagUp s).rd PD_GLOB_FWPOL = 1 ∧ leafSet (flagUp s) 25 5 ∧ (flagUp s).mg.held = s.mg.held ∧
    (flagUp s).rd RST_FLTSTAT_MGT = s.rd RST_FLTSTAT_MGT := by
  have hwrs : (s.wrs [(SYS_STAGE_FWRDY, 1), (PD_GLOB_FWPOL, 1)]).mg = s.mg := wrs_frame (k := 7) (by decide) (.refl 7 s)
  refine ⟨?_, ?_, leafSet_raise 25 5 _ (by decide), ?_, ?_⟩
  · exact (rd_raise_ne _ _ _ _ (by decide)).trans (rd_wrs_eq (by decide) (by simp) (by decide) s)
  · exact (rd_raise_ne _ _ _ _ (by decide)).trans (rd_wrs_eq (by decide) (by simp) (by decide) s)
  · exact (held_raise 25 5 _).trans (congrArg Mgmt.held hwrs)
  · exact (rd_raise_ne _ _ _ _ (by decide)).trans ((onlyWrites_wrs (fs := [SYS_STAGE_FWRDY, PD_GLOB_FWPOL]) (by simp) s).1 _ (by decide))

/-- What the firmware sets of itself once its flag is up. -/
def firmwareSet (first : Bool) (t : State) : State :=
  let t := if t.rd PST_AVS_DUTY = 128 then setDuty (avsDuty t) t else t
  let t := if first ∧ !t.on PD_GLOB_DBBOOT then
    t.wr PST_U2LEASE_PORTS (((List.range 20).map fun k => b2n (t.on (USB_PST_PWR (k + 7))) * 2 ^ k).sum) else t
  if t.on KEY_VAULT_KEKV then scanBlobs t else t

theorem firmwareUp_eq (s : State) : firmwareUp s =
    let t := firmwareSet (!s.on PD_GLOB_FWPOL) (flagUp s)
    if t.on PST_PSCTL_GO ∧ t.rd PST_PSSTAT_PHASE = 0 ∧ t.rd PST_PSSTAT_STATE < 3 then psRequest t else t := rfl

theorem firmwareSet_effects (first : Bool) (t : State) : onlyKeys upKeys t (firmwareSet first t) ∧ (firmwareSet first t).mg = t.mg := by
  have hup {f : Fld} (h : f ∈ [PST_AVS_DUTY, PST_AVS_TARGET, PST_U2LEASE_PORTS, KEY_BLOB_PRESENT, KEY_BLOB_PAGE, KEY_BLOB_NEXT]) : upKeys f.key ∧ ¬ leafKey f.key := by
    fin_cases h <;> exact ⟨.inr (by decide), by decide⟩
  have hduty : onlyKeys upKeys t (if t.rd PST_AVS_DUTY = 128 then setDuty (avsDuty t) t else t) ∧
      (if t.rd PST_AVS_DUTY = 128 then setDuty (avsDuty t) t else t).mg = t.mg := by
    refine ⟨.ite (.wrs (.refl _ t) ?_) (.refl _ t), ?_⟩
    · simp only [List.forall_mem_cons, List.not_mem_nil, false_implies, implies_true, and_true]
      exact ⟨hup (by simp), hup (by simp)⟩
    · split
      · exact setDuty_frame (κ := 7) rfl (.refl 7 t)
      · rfl
  unfold firmwareSet
  generalize (if t.rd PST_AVS_DUTY = 128 then setDuty (avsDuty t) t else t) = u at hduty
  have hlease (v : Nat) : onlyKeys upKeys t (if first ∧ !u.on PD_GLOB_DBBOOT then u.wr PST_U2LEASE_PORTS v else u) ∧
      (if first ∧ !u.on PD_GLOB_DBBOOT then u.wr PST_U2LEASE_PORTS v else u).mg = t.mg := by
    refine ⟨.ite (hduty.1.wr (hup (by simp)).1 (hup (by simp)).2) hduty.1, ?_⟩
    split <;> exact hduty.2
  dsimp only
  generalize ((List.range 20).map fun k => b2n (u.on (USB_PST_PWR (k + 7))) * 2 ^ k).sum = v
  have hl := hlease v
  generalize (if first ∧ !u.on PD_GLOB_DBBOOT then u.wr PST_U2LEASE_PORTS v else u) = w at hl
  refine ⟨.ite (.wrs (.wr hl.1 (hup (by simp)).1 (hup (by simp)).2) ?_) hl.1, ?_⟩
  · simp only [List.forall_mem_cons, List.not_mem_nil, false_implies, implies_true, and_true]
    exact ⟨hup (by simp), hup (by simp)⟩
  · split
    · exact Eq.trans (show (scanBlobs w).mg = w.mg from scanBlobs_frame (κ := 7) rfl (.refl 7 w)) hl.2
    · exact hl.2

theorem upApart : ∀ f ∈ [SYS_STAGE_FWRDY, PD_GLOB_FWPOL, RST_FLTSTAT_MGT], ¬ upKeys f.key ∧ ¬ attachKeys f.key := by
  intro f hf
  have hattach : ¬ attachKeys f.key := by
    rintro (h | ⟨d, h⟩ | ⟨n, h | h⟩)
    · revert f
      decide
    all_goals
      simp only [List.mem_cons, List.not_mem_nil, or_false] at hf
      rcases hf with rfl | rfl | rfl
      all_goals
        simp only [SYS_STAGE_FWRDY, PD_GLOB_FWPOL, RST_FLTSTAT_MGT, PIPE_CTL_FHOLD, TT_STATE_STATE, TT_STATE_GEN, fld] at h
        omega
  refine ⟨?_, hattach⟩
  rintro (h | h)
  · exact hattach h
  · clear hattach
    revert f
    decide

theorem firmwareUp_effects (s : State) : (firmwareUp s).rd SYS_STAGE_FWRDY = 1 ∧ (firmwareUp s).rd PD_GLOB_FWPOL = 1 ∧ leafSet (firmwareUp s) 25 5 ∧
    (firmwareUp s).mg.held = s.mg.held ∧ (firmwareUp s).rd RST_FLTSTAT_MGT = s.rd RST_FLTSTAT_MGT := by
  obtain ⟨hready, hpol, hleaf, hheld, hmgt⟩ := flagUp_effects s
  obtain ⟨hset, hmg⟩ := firmwareSet_effects (!s.on PD_GLOB_FWPOL) (flagUp s)
  have hall : onlyKeys upKeys (flagUp s) (firmwareUp s) := by
    rw [firmwareUp_eq]
    exact .ite (hset.trans (onlyKeys_psRequest _)) hset
  have hheld' : (firmwareUp s).mg.held = (flagUp s).mg.held := by
    rw [firmwareUp_eq]
    dsimp only
    split
    · rw [held_psRequest, hmg]
    · rw [hmg]
  exact ⟨(hall.1 _ (upApart _ (by simp)).1).trans hready, (hall.1 _ (upApart _ (by simp)).1).trans hpol, hall.2 _ _ hleaf, hheld'.trans hheld,
    (hall.1 _ (upApart _ (by simp)).1).trans hmgt⟩

theorem serveQueue_of_nil (c : Nat) {s : State} (h : s.mg.held = []) : serveQueue c s = s := by
  unfold serveQueue
  split
  · rfl
  · rw [h]
    show { s with mg := { s.mg with held := [] } } = s
    rw [← h]

/-- With nothing held, nothing is served late. -/
theorem serveHeld_of_nil {s : State} (h : s.mg.held = []) : serveHeld s = s := by
  rw [serveHeld, serveQueue_of_nil 0 h, serveQueue_of_nil 1 h]

theorem firmwareStarted (z : Option Nat) (s : State) (h4 : 4 ≤ s.bt.released) (hready : s.on SYS_STAGE_FWRDY = false) (hfail : s.on RST_BOOT_FWFAIL = false)
    (hmgt : s.rd RST_FLTSTAT_MGT ≠ 3) (hheld : s.mg.held = []) :
    (firmwarePasses s false = true ∨ firmwarePasses s true = true →
      ∃ t, exec (.firmwareBoot z) s = .next t ∧ t.rd SYS_STAGE_FWRDY = 1 ∧ t.rd PD_GLOB_FWPOL = 1 ∧ leafSet t 25 5) ∧
    (firmwarePasses s false = false → firmwarePasses s true = false →
      ∃ t, exec (.firmwareBoot z) s = .next t ∧ t.rd RST_BOOT_FWFAIL = 1 ∧ t.rd SYS_STAGE_FWRDY = 0 ∧ leafSet t 24 2) := by
  have hexec : exec (.firmwareBoot z) s = .next (serveHeld (firmwareBoot z s)) := rfl
  have hsame (b : Bool) : firmwarePasses { s with mg := { s.mg with flashSize := z.getD 0x1000000 } } b = firmwarePasses s b := rfl
  unfold firmwareBoot at hexec
  rw [if_neg (by simp [hready, hfail, hmgt]; omega)] at hexec
  dsimp only at hexec
  rw [hsame, hsame] at hexec
  refine ⟨fun hpass => ?_, fun ha hb => ?_⟩
  · rw [if_neg (by rcases hpass with h | h <;> simp [h])] at hexec
    generalize (b2n (firmwarePasses s true && (!firmwarePasses s false || preferB { s with mg := { s.mg with flashSize := z.getD 0x1000000 } } 0x10000 0x200000))) = x at hexec
    generalize hu : (State.wrs _ _ : State) = u at hexec
    have hmg : u.mg.held = [] := by
      rw [← hu]
      exact (congrArg Mgmt.held (wrs_frame (k := 7) (by decide) (.refl 7 _))).trans hheld
    obtain ⟨hr, hp, hl, hh, -⟩ := firmwareUp_effects u
    rw [serveHeld_of_nil (hh.trans hmg)] at hexec
    exact ⟨_, hexec, hr, hp, hl⟩
  · rw [if_pos (by simp [ha, hb])] at hexec
    generalize hu : ({ s with mg := { s.mg with flashSize := z.getD 0x1000000 } } : State) = u at hexec
    have hregs : u.regs = s.regs := by rw [← hu]
    have hmg : ((raise 24 2 (u.wr RST_BOOT_FWFAIL 1)).emit (.pin "P42" 0 false)).mg.held = [] := by
      refine (held_raise 24 2 _).trans ?_
      rw [← hu]
      exact hheld
    rw [serveHeld_of_nil hmg] at hexec
    refine ⟨_, hexec, ?_, ?_, ?_⟩
    · exact (rd_raise_ne _ _ _ _ (by decide)).trans (State.rd_wr_same u RST_BOOT_FWFAIL 1)
    · refine (rd_raise_ne _ _ _ _ (by decide)).trans ((State.rd_wr_ne _ _ _ _ (by decide)).trans ?_)
      rw [State.rd, hregs, ← State.rd]
      simpa [State.on] using hready
    · exact leafSet_raise 24 2 (u.wr RST_BOOT_FWFAIL 1) (by decide)

theorem restartedBoth {s : State} (hr : s.ft.restarting = true) (hp : s.on PD_GLOB_FWPOL = true) (hheld : s.mg.held = []) :
    ∃ t, exec (.mgmtRestartComplete true true) s = .next t ∧ t.rd SYS_STAGE_FWRDY = 1 ∧ t.rd RST_FLTSTAT_MGT = 0 ∧ t.ft.restarting = false := by
  generalize hu : State.wr { s with ft := { s.ft with restarting := false } } RST_FLTSTAT_MGT 0 = u
  have hpol : u.on PD_GLOB_FWPOL = true := by
    rw [← hu, State.on, State.rd_wr_ne _ _ _ _ (by decide)]
    exact hp
  have hexec : exec (.mgmtRestartComplete true true) s = .next (serveHeld (if (firmwareUp u).on CFG_STATUS_LOADED then startSettle (firmwareUp u) else firmwareUp u)) := by
    refine congrArg (fun t => Host.Outcome.next (serveHeld t)) ?_
    have hboth : mgmtRestarted true true s = if !s.ft.restarting then s else if !u.on PD_GLOB_FWPOL then u
        else if (firmwareUp u).on CFG_STATUS_LOADED then startSettle (firmwareUp u) else firmwareUp u := by
      rw [← hu]
      rfl
    rw [hboth, if_neg (by simp [hr]), if_neg (by simp [hpol])]
  obtain ⟨hready, -, -, hh, hmgt⟩ := firmwareUp_effects u
  have hzero : u.rd RST_FLTSTAT_MGT = 0 := by
    rw [← hu]
    exact State.rd_wr_same _ RST_FLTSTAT_MGT 0
  have hft : (firmwareUp u).ft = u.ft := firmwareUp_frame (κ := 28) rfl (.refl 28 u)
  have hkeys : onlyKeys attachKeys (firmwareUp u) (if (firmwareUp u).on CFG_STATUS_LOADED then startSettle (firmwareUp u) else firmwareUp u) :=
    .ite (onlyKeys_startSettle _) (.refl _ _)
  have hframe (k : Nat) (hk : Nat.testBit 514 k = false) : Frame k (firmwareUp u) (if (firmwareUp u).on CFG_STATUS_LOADED then startSettle (firmwareUp u) else firmwareUp u) :=
    Frame.ite (startSettle_frame hk (.refl k _)) (.refl k _)
  have hmg : (if (firmwareUp u).on CFG_STATUS_LOADED then startSettle (firmwareUp u) else firmwareUp u).mg.held = [] := by
    rw [show _ = (firmwareUp u).mg from hframe 7 rfl, hh, ← hu]
    exact hheld
  have hft' : (if (firmwareUp u).on CFG_STATUS_LOADED then startSettle (firmwareUp u) else firmwareUp u).ft = (firmwareUp u).ft := hframe 28 rfl
  generalize (if (firmwareUp u).on CFG_STATUS_LOADED then startSettle (firmwareUp u) else firmwareUp u) = w at hexec hkeys hmg hft'
  rw [serveHeld_of_nil hmg] at hexec
  refine ⟨_, hexec, (hkeys.1 _ (upApart _ (by simp)).2).trans hready, (hkeys.1 _ (upApart _ (by simp)).2).trans (hmgt.trans hzero), ?_⟩
  rw [hft', hft, ← hu]
  rfl

theorem restartedNone {s : State} (hr : s.ft.restarting = true) (hheld : s.mg.held = []) :
    ∃ t, exec (.mgmtRestartComplete false false) s = .next t ∧ t.rd RST_FLTSTAT_MGT = 3 ∧ t.ft.restarting = false ∧
      onlyWrites [RST_FLTSTAT_MGT] [.ft] s t := by
  have hexec : exec (.mgmtRestartComplete false false) s = .next (serveHeld (State.wr { s with ft := { s.ft with restarting := false } } RST_FLTSTAT_MGT 3)) := by
    refine congrArg (fun t => Host.Outcome.next (serveHeld t)) ?_
    rw [mgmtRestarted, if_neg (by simp [hr])]
    rfl
  rw [serveHeld_of_nil (by exact hheld)] at hexec
  refine ⟨_, hexec, State.rd_wr_same _ RST_FLTSTAT_MGT 3, rfl, ?_⟩
  have hft : partsOnly [.regs, .ft] s { s with ft := { s.ft with restarting := false } } := by
    intro p hp
    cases p
    case ft => simp at hp
    all_goals rfl
  have hstep : onlyWrites [RST_FLTSTAT_MGT] [.ft] s { s with ft := { s.ft with restarting := false } } := ⟨fun _ _ => rfl, hft⟩
  exact hstep.trans ((onlyWrites_wr ..).mono (List.Subset.refl _) (by simp))

/-- Settles O32. -/
theorem releaseFusesAndFirmware : Obligations.ReleaseFusesAndFirmware := by
  unfold Obligations.ReleaseFusesAndFirmware
  refine ⟨fun x s h => sourceReleased h, fun x s h => ?_, fun s ha hs h1 h18 hg => domainReleased ha hs h1 h18 hg, fun s ha hs h3 hg hw => domainHeld ha hs h3 hg hw,
    fun s => ⟨_, rfl, rfl, partsOnly_bt _ _⟩, fun s h => gateOpened h, fun s he ho => corePgTaken he ho, fun s he hp => coreEnDropped he hp,
    fun s he ho h1 => coreEnDriven he ho h1, fun s h => lpddrTrained h, fuseLoaded, firmwareStarted, fun s hr hp hh => restartedBoth hr hp hh,
    fun s hr hh => restartedNone hr hh⟩
  show execResetRelease x s = _
  rw [execResetRelease, if_pos (by simpa using h)]

end Sys2Proof.Machine
end

section
set_option Elab.async false
/-! The end of a STORE and the answer to a tamper alarm. -/

namespace Sys2Proof.Machine

open Sys2Proof Sys2Proof.Laws

/-! ### A wake (R435, R436) -/

theorem nextKeys_of_nil {s : State} (h : s.kv.waiting = []) : nextKeys s = s := by
  rw [nextKeys, h]
  show { s with kv := { s.kv with waiting := [] } } = s
  rw [← h]

/-- What a wake writes. -/
def wakeKeys (k : Nat) : Prop := attachKeys k ∨
  k ∈ [PST_WAKEST_SRC.key, PST_PSSTAT_PHASE.key, PST_PSSTAT_FROM.key, PST_PSSTAT_WHO.key, PST_PSSTAT_REASON.key]

/-- The first step of a return from the state `st` (R437). -/
def returnStarted (st : Nat) (t : State) : State :=
  showIndicator ((t.wrs [(PST_PSSTAT_PHASE, 3), (PST_PSSTAT_FROM, st)]).setPs { t.ps with step := 1, wakeAt := t.clock })

/-- A return begins, unless one runs; from Dormant it drives CORE_EN. -/
def returnAsked (st : Nat) (t : State) : State :=
  if t.rd PST_PSSTAT_PHASE = 3 then t
  else if st = 4 then ({ returnStarted st t with bt := { (returnStarted st t).bt with coreEn := true } } : State).emit (.pin "CORE_EN" 0 true) else returnStarted st t

theorem wakeUp_eq (src : Nat) (s : State) : wakeUp src s =
    if 3 ≤ s.rd PST_PSSTAT_STATE then returnAsked (s.rd PST_PSSTAT_STATE) (s.wr PST_WAKEST_SRC (s.rd PST_WAKEST_SRC ||| 2 ^ src))
    else if s.rd PST_PSSTAT_PHASE = 1 then nextKeys (psRefuse 18 9 s)
    else if s.rd PST_PSSTAT_PHASE = 2 then (if edgeWake s src then s else s.setPs { s.ps with level := s.ps.level ||| 2 ^ src })
    else toActive s := rfl

theorem returnStarted_effects (st : Nat) (t : State) : onlyKeys wakeKeys t (returnStarted st t) ∧ (returnStarted st t).kv = t.kv ∧ (returnStarted st t).ld = t.ld ∧
    (returnStarted st t).rd PST_PSSTAT_PHASE = 3 ∧ (returnStarted st t).rd PST_WAKEST_SRC = t.rd PST_WAKEST_SRC := by
  have hsame (k : Nat) (hk : Nat.testBit 134217746 k = false) : Frame k t (returnStarted st t) :=
    showIndicator_frame (testBit_sub rfl hk) (State_setPs_frame (testBit_sub rfl hk) (wrs_frame (testBit_sub rfl hk) (.refl k t)))
  have hshow (f : Fld) : (returnStarted st t).rd f = (t.wrs [(PST_PSSTAT_PHASE, 3), (PST_PSSTAT_FROM, st)]).rd f := (onlyKeys_showIndicator (fun _ => False) _).1 f id
  refine ⟨?_, hsame 26 rfl, hsame 8 rfl, (hshow _).trans (rd_wrs_eq (by simp [PST_PSSTAT_PHASE, PST_PSSTAT_FROM, fld]) (by simp) (by decide) t),
    (hshow _).trans ((onlyWrites_wrs (fs := [PST_PSSTAT_PHASE, PST_PSSTAT_FROM]) (by simp) t).1 _ (by decide))⟩
  refine .trans (.setPs (.wrs (.refl _ t) ?_)) (onlyKeys_showIndicator _ _)
  simp only [List.forall_mem_cons, List.not_mem_nil, false_implies, implies_true, and_true]
  exact ⟨⟨.inr (by simp), by decide⟩, .inr (by simp), by decide⟩

theorem returnAsked_effects (st : Nat) (t : State) : onlyKeys wakeKeys t (returnAsked st t) ∧ (returnAsked st t).kv = t.kv ∧ (returnAsked st t).ld = t.ld ∧
    (returnAsked st t).rd PST_PSSTAT_PHASE = 3 ∧ (returnAsked st t).rd PST_WAKEST_SRC = t.rd PST_WAKEST_SRC := by
  have h := returnStarted_effects st t
  unfold returnAsked
  split
  · next h3 => exact ⟨.refl _ t, rfl, rfl, h3, rfl⟩
  · generalize returnStarted st t = u at h
    split
    · exact ⟨h.1.of_regs rfl, h.2⟩
    · exact h

theorem onlyKeys_psRefuse (who reason : Nat) (s : State) : onlyKeys wakeKeys s (psRefuse who reason s) := by
  refine .trans (.raise (.setPs (.wrs (.refl _ s) ?_)) (.inl (.inl (by simp)))) (onlyKeys_showIndicator _ _)
  simp only [List.forall_mem_cons, List.not_mem_nil, false_implies, implies_true, and_true]
  exact ⟨⟨.inr (by simp), by decide⟩, ⟨.inr (by simp), by decide⟩, ⟨.inr (by simp), by decide⟩, .inl (.inl (by simp)), by decide⟩

theorem onlyKeys_wakeUp {s : State} (hw : s.kv.waiting = []) (src : Nat) : onlyKeys wakeKeys s (wakeUp src s) ∧ (wakeUp src s).kv = s.kv ∧ (wakeUp src s).ld = s.ld := by
  have hrefuse : nextKeys (psRefuse 18 9 s) = psRefuse 18 9 s := nextKeys_of_nil ((congrArg Vault.waiting (show (psRefuse 18 9 s).kv = s.kv from psRefuse_frame (κ := 26) rfl (.refl 26 s))).trans hw)
  rw [wakeUp_eq]
  split
  · obtain ⟨hkeys, hkv, hld, -⟩ := returnAsked_effects (s.rd PST_PSSTAT_STATE) (s.wr PST_WAKEST_SRC (s.rd PST_WAKEST_SRC ||| 2 ^ src))
    exact ⟨(onlyKeys.wr (f := PST_WAKEST_SRC) (.refl _ s) (.inr (by simp)) (by decide)).trans hkeys, hkv, hld⟩
  · split
    · rw [hrefuse]
      exact ⟨onlyKeys_psRefuse 18 9 s, psRefuse_frame (κ := 26) rfl (.refl 26 s), psRefuse_frame (κ := 8) rfl (.refl 8 s)⟩
    · split
      · split
        · exact ⟨.refl _ s, rfl, rfl⟩
        · exact ⟨.setPs (.refl _ s), rfl, rfl⟩
      · exact ⟨(onlyKeys_toActive s).mono fun _ => .inl, toActive_frame (κ := 26) rfl (.refl 26 s), toActive_frame (κ := 8) rfl (.refl 8 s)⟩

/-- In Rest and Dormant a wake shows its source and begins the return, unless one runs. -/
theorem wakeUp_away {s : State} (h : 3 ≤ s.rd PST_PSSTAT_STATE) {src : Nat} (hsrc : src < 8) :
    (wakeUp src s).rd PST_PSSTAT_PHASE = 3 ∧ bit ((wakeUp src s).rd PST_WAKEST_SRC) src = true := by
  have hset : bit ((s.wr PST_WAKEST_SRC (s.rd PST_WAKEST_SRC ||| 2 ^ src)).rd PST_WAKEST_SRC) src = true := by
    rw [rd_wr_of_lt PST_WAKEST_SRC _ _ (Nat.or_lt_two_pow (State.rd_lt s PST_WAKEST_SRC) (Nat.pow_lt_pow_right (by decide) (show src < PST_WAKEST_SRC.w from hsrc)))]
    exact bit_or_two_pow _ _
  obtain ⟨-, -, -, hphase, hkeep⟩ := returnAsked_effects (s.rd PST_PSSTAT_STATE) (s.wr PST_WAKEST_SRC (s.rd PST_WAKEST_SRC ||| 2 ^ src))
  rw [wakeUp_eq, if_pos h, hkeep]
  exact ⟨hphase, hset⟩

/-! ### The power state through the loss of links (R435) -/

/-- In Rest and Dormant the power state stays. -/
def awayKept (s t : State) : Prop := 3 ≤ s.rd PST_PSSTAT_STATE → t.rd PST_PSSTAT_STATE = s.rd PST_PSSTAT_STATE

theorem awayKept.refl (s : State) : awayKept s s := fun _ => rfl

theorem awayKept.trans {s t u : State} (h : awayKept s t) (h' : awayKept t u) : awayKept s u := fun hs => (h' (by rw [h hs]; exact hs)).trans (h hs)

theorem awayKept.of_keys {K : Nat → Prop} {s t : State} (h : onlyKeys K s t) (hK : ¬ K PST_PSSTAT_STATE.key) : awayKept s t := fun _ => h.1 _ hK

theorem awayKept.ite {c : Prop} [Decidable c] {s t u : State} (ht : awayKept s t) (hu : awayKept s u) : awayKept s (if c then t else u) := by
  split
  · exact ht
  · exact hu

theorem awayKept.forAll {α : Type} {s t : State} {l : List α} {f : α → State → State} (h : awayKept s t) (hf : ∀ x ∈ l, ∀ u, awayKept u (f x u)) : awayKept s (forAll l f t) :=
  forAll_induction (P := awayKept s) h fun x hx u hu => hu.trans (hf x hx u)

theorem state_not_settleKeys : ¬ settleKeys PST_PSSTAT_STATE.key := by
  rintro (h | ⟨n, h | h⟩)
  · revert h
    decide
  all_goals
    simp only [PST_PSSTAT_STATE, TT_STATE_STATE, TT_STATE_GEN, fld] at h
    omega

theorem state_not_portDownKeys {p : Nat} {cs : List Nat} : ¬ portDownKeys p cs PST_PSSTAT_STATE.key := by
  rintro (h | ⟨f, hf, h⟩ | ⟨hp, ⟨f, hf, h⟩ | ⟨j, hj, h⟩ | ⟨j, hj, h⟩⟩ | ⟨c, hc, f, hf, h⟩ | h | h | h)
  · exact absurd h (by decide)
  · revert f
    simp only [portReach, List.forall_mem_cons, List.not_mem_nil, false_implies, implies_true, and_true, portReg, fld, GRV_FLOW_STALL, GRV_FLOW_HEAD,
      GRV_FLOW_ICL, GRV_FLST_EGHELD, GRV_FLST_INHELD, GRV_FLST_TIMER, GRV_CALST_BT, ADP_STAT_STATE, ADP_STAT_PERS, ADP_STAT_RATE, ADP_STAT_WIDTH, ADP_STAT_SPEED,
      ADP_PCIE_EJREQ, ADP_PCIE_PRESENT, ADP_PCIE_DLLACT, ADP_PCIE_PIND, ADP_DP_SINKDSC, PST_PSSTAT_STATE]
    omega
  · revert f
    simp only [canReach, List.forall_mem_cons, List.not_mem_nil, false_implies, implies_true, and_true, portReg, fld, CAN_CTL_RETRAIN, CAN_STAT_STATE,
      CAN_STAT_MODE, CAN_STAT_ROLE, CAN_STAT_PKIND, CAN_STAT_TXEP, CAN_STAT_RXEP, CAN_ERR_UNCORR, CAN_ERR_RNAKTX, CAN_ERR_RNAKRX, CAN_ERR_CSLOT, CAN_ERR2_EARLY,
      TIM_LNKOFF_OFF, TIM_LNKDLY_DLY, TIM_LNK_SEQ, TIM_LNK_MISSED, TIM_LNK_EXCH, PST_PSSTAT_STATE]
    omega
  · simp only [portReg, fld, CAN_PEER_V, PST_PSSTAT_STATE] at h
    omega
  · simp only [portReg, fld, CAN_THASH_V, PST_PSSTAT_STATE] at h
    omega
  · revert f
    simp only [cellReach, List.forall_mem_cons, List.not_mem_nil, false_implies, implies_true, and_true, LC_CTL_RTRN, LC_STAT_STATE,
      LC_STAT_RATE, LC_STAT_ORIENT, LC_STAT_LOCKA, LC_STAT_LOCKB, LC_STAT_INVA, LC_STAT_INVB, LC_STAT_RANKA, LC_STAT_RANKB, LC_RTR_CONSEC,
      LC_FECA_CORR, LC_FECA_UNCORR, LC_FECB_CORR, LC_FECB_UNCORR, LC_HOLD_USED, LC_HOLD_PEAK, fld, PST_PSSTAT_STATE]
    omega
  · exact absurd h (by decide)
  · exact absurd h (by decide)
  · exact ne_evstat (by decide) _ h

theorem state_not_groveUp : ¬ groveUp PST_PSSTAT_STATE.key := by
  unfold groveUp
  decide

/-- An attach event in Rest or Dormant does not bring the hub back to Active. -/
theorem awayKept_attachEvent (s : State) : awayKept s (attachEvent s) := by
  intro h
  have hactive : toActive s = s := if_pos (.inr h)
  have hwake : attachWakes s = s := by rw [attachWakes, hactive, ite_self]
  have hsettle : onlyKeys settleKeys s (startSettle (cancelSolve (settleTie s))) :=
    (onlyKeys_settleTie_settle s).trans ((onlyKeys_cancelSolve_settle _).trans (onlyKeys_startSettle_settle _))
  unfold attachEvent
  rw [hwake]
  dsimp only
  split
  · exact hsettle.1 _ state_not_settleKeys
  · rfl

theorem awayKept_portDown (p c : Nat) (s : State) : awayKept s (portDown p c s) := .of_keys (onlyKeys_portDown p c s) state_not_portDownKeys

theorem awayKept_portDownAttached (p c : Nat) (s : State) : awayKept s (portDownAttached p c s) :=
  ((awayKept_portDown p c s).trans (awayKept_attachEvent _)).trans (.of_keys (K := fun _ => False) (.setEg (.refl _ _)) id)

theorem awayKept_retrainPort (p : Nat) (s : State) : awayKept s (retrainPort p s) := by
  have htrained {s t : State} (h : onlyKeys trainedKey s t) : awayKept s t := .of_keys h fun hk => state_not_groveUp (groveUp_of_trainedKey hk)
  have hclear (u : State) : awayKept u (clearPort p u) := by
    refine .forAll (.of_keys (onlyKeys_restore_portFields p _ u) state_not_portDownKeys) fun c _ v => ?_
    exact .ite (.of_keys (K := groveUp) (.wr (.refl _ v) (groveUp_lane c _ (by simp)).1 (groveUp_lane c _ (by simp)).2) state_not_groveUp) (.refl v)
  unfold retrainPort
  refine .ite (((awayKept_portDown p 1 s).trans (awayKept_attachEvent _)).trans (htrained (onlyKeys_startTraining p _))) (.ite ?_ (.refl s))
  exact ((hclear s).trans (.of_keys (K := fun _ => False) (.setCan (.refl _ _)) id)).trans (htrained (onlyKeys_startCanopy p _))

theorem awayKept_dropLinks (s : State) : awayKept s (dropLinks s) :=
  .forAll (.refl s) fun p _ u => .ite (awayKept_portDownAttached p 1 u) (.ite (awayKept_retrainPort p u) (.refl u))

theorem state_not_stopKeys : ¬ stopKeys PST_PSSTAT_STATE.key := by
  unfold stopKeys slotKeys loaderKeys groveUp
  decide

theorem awayKept_zeroise (s : State) : awayKept s (zeroise s) := by
  have hslots := onlyKeys_slotsZeroised s
  rw [zeroise_eq]
  generalize slotsZeroised s = t at hslots
  have hkv : onlyKeys stopKeys s (t.setKv { t.kv with zeroised := true }) := .of_regs hslots rfl
  exact ((awayKept.of_keys hkv state_not_stopKeys).trans (awayKept_dropLinks _)).trans (.of_keys (onlyKeys_keysLost _) state_not_stopKeys)

theorem awayKept_holdHub (s : State) : awayKept s (holdHub s) := by
  have hload : ¬ loaderKeys PST_PSSTAT_STATE.key := fun h => state_not_stopKeys (.inr (.inl h))
  have hoff : awayKept s (s.wrs [(CFG_STATUS_LOADED, 0), (SYS_SETTLE_RUN, 0), (SYS_SETTLE_PEND, 0)]) :=
    fun _ => (onlyWrites_wrs (fs := [CFG_STATUS_LOADED, SYS_SETTLE_RUN, SYS_SETTLE_PEND]) (by simp) s).1 _ (by decide)
  unfold holdHub
  generalize s.wrs [(CFG_STATUS_LOADED, 0), (SYS_SETTLE_RUN, 0), (SYS_SETTLE_PEND, 0)] = t at hoff
  have hcancel : awayKept t (cancelSolve t) := .of_keys (onlyKeys_cancelSolve_settle t) state_not_settleKeys
  have hhold : awayKept (cancelSolve t) (imageHold (cancelSolve t)) := .of_keys (onlyKeys_imageHold _) hload
  exact .forAll (hoff.trans (hcancel.trans hhold)) fun p _ u => .ite (awayKept_portDown p 1 u) (.refl u)

theorem awayKept_tamperResponse (b : Bool) (s : State) : awayKept s (tamperResponse b s) := by
  have hheld : awayKept s (alarmHeld b s) := by
    have hset : awayKept s (if b then s.wr KEY_VAULT_STHOLD 1 else s) := .ite (fun _ => State.rd_wr_ne _ _ _ _ (by decide)) (.refl s)
    unfold alarmHeld
    dsimp only
    exact .ite (hset.trans (awayKept_holdHub _)) hset
  have hzero : awayKept s (if 1 ≤ tamperPolicy s then zeroise (alarmHeld b s) else alarmHeld b s) := .ite (hheld.trans (awayKept_zeroise _)) hheld
  rw [tamperResponse_eq]
  exact .ite ((hzero.trans fun _ => State.rd_wr_ne _ KEY_VAULT_HALT _ _ (by decide)).trans (awayKept_holdHub _)) hzero

/-! ### A zeroise and the response to an alarm (R502, R504) -/

/-- Every slot shows EMPTY, and the zeroise its cause and its leaf. -/
def emptied (t : State) : Prop := (∀ n, n < 32 → t.rd (KEY_SLOT_STATE n) = 0) ∧ t.rd RST_CAUSE_ZERO = 1 ∧ leafSet t 21 3

theorem slotState_fields (n : Nat) : 0x300800 ≤ (KEY_SLOT_STATE n).key ∧ (n < 32 → (KEY_SLOT_STATE n).key < 0x300C00) := by
  simp only [KEY_SLOT_STATE, fld]
  omega

theorem slotState_not_lossKey {n : Nat} (hn : n < 32) : ¬ lossKey (KEY_SLOT_STATE n).key := by
  obtain ⟨hlo, hhi⟩ := slotState_fields n
  have hhi := hhi hn
  generalize (KEY_SLOT_STATE n).key = k at hlo hhi
  rintro (h | h | h | h)
  · unfold groveUp at h
    omega
  · unfold leafKey at h
    omega
  · omega
  · have hout : k < 0x200000 ∨ 0x400000 ≤ k := by fin_cases h <;> decide
    omega

theorem slotState_not_loaderKeys (n : Nat) : ¬ loaderKeys (KEY_SLOT_STATE n).key := by
  intro h
  have hlo := (slotState_fields n).1
  generalize (KEY_SLOT_STATE n).key = k at hlo h
  have hout : k < 0x300800 := by
    unfold loaderKeys at h
    fin_cases h <;> decide
  omega

theorem cause_zero_apart : ¬ hubKeys RST_CAUSE_ZERO.key := by
  unfold hubKeys lossKey loaderKeys groveUp
  decide

theorem emptied.of_hub {s t : State} (h : emptied s) (hkeys : onlyKeys hubKeys s t) : emptied t := by
  obtain ⟨hslots, hcause, hleaf⟩ := h
  refine ⟨fun n hn => (hkeys.1 _ ?_).trans (hslots n hn), (hkeys.1 _ cause_zero_apart).trans hcause, hkeys.2 _ _ hleaf⟩
  rintro (h | h)
  · exact slotState_not_lossKey hn h
  · exact slotState_not_loaderKeys n h

theorem dropKey_of_empty {s : State} (h : s.rd (KEY_SLOT_STATE 1) = 0) : dropKey s = s := if_pos h

theorem abortReload_of_empty (cause : Nat) {s : State} (h : s.rd (KEY_SLOT_STATE 1) = 0) : onlyKeys loaderKeys s (abortReload cause s) := by
  have hkeys := onlyKeys_reloadAborted cause s
  rcases abortReload_cases cause s with he | he <;> rw [he]
  · exact .refl _ s
  · rw [dropKey_of_empty ((hkeys.1 _ (slotState_not_loaderKeys 1)).trans h)]
    exact hkeys

/-- With KS1 empty the loss of the keys stops the load alone. -/
theorem keysLost_of_empty {s : State} (h : s.rd (KEY_SLOT_STATE 1) = 0) : onlyKeys loaderKeys s (keysLost s) := by
  have hload := onlyKeys_loadStopped s
  rw [keysLost_eq]
  generalize loadStopped s = t at hload
  have hcheck : onlyKeys loaderKeys s (if t.ld.check.isSome then stopCheck t else t) := .ite (hload.trans (onlyKeys_stopCheck t)) hload
  generalize (if t.ld.check.isSome then stopCheck t else t) = u at hcheck
  have hu : u.rd (KEY_SLOT_STATE 1) = 0 := (hcheck.1 _ (slotState_not_loaderKeys 1)).trans h
  rw [dropKey_of_empty hu]
  exact hcheck.trans (abortReload_of_empty 9 hu)

theorem slotState_setSlot (n st keyid len gen : Nat) (v : Bytes) (s : State) (hst : st < 4) :
    (setSlot n st keyid len gen v s).rd (KEY_SLOT_STATE n) = st := by
  have hkekv : (KEY_SLOT_STATE n).key ≠ KEY_VAULT_KEKV.key := fun e => absurd (e ▸ (slotState_fields n).1) (by decide)
  have hwrs : (s.wrs [(KEY_SLOT_STATE n, st), (KEY_SLOT_KEYID n, keyid), (KEY_SLOT_LEN n, len), (KEY_SLOT_GEN n, gen), (KEY_TAG_TAG n, slotTag n v)]).rd (KEY_SLOT_STATE n) = st := by
    refine rd_wrs_eq ?_ (by simp) hst s
    simp only [List.map_cons, List.map_nil, List.nodup_cons, List.mem_cons, List.not_mem_nil, or_false, not_or, KEY_SLOT_STATE, KEY_SLOT_KEYID, KEY_SLOT_LEN, KEY_SLOT_GEN,
      KEY_TAG_TAG, fld, List.nodup_nil, not_false_eq_true, and_true]
    omega
  unfold setSlot
  generalize s.wrs [(KEY_SLOT_STATE n, st), (KEY_SLOT_KEYID n, keyid), (KEY_SLOT_LEN n, len), (KEY_SLOT_GEN n, gen), (KEY_TAG_TAG n, slotTag n v)] = t at hwrs
  show (if n = 0 then t.setB KEY_VAULT_KEKV (st = 2) else t).rd (KEY_SLOT_STATE n) = st
  split
  · exact (State.rd_wr_ne _ _ _ _ hkekv).trans hwrs
  · exact hwrs

theorem slotState_clearSlot {n m : Nat} (s : State) (h : n = m ∨ s.rd (KEY_SLOT_STATE m) = 0) : (clearSlot n s).rd (KEY_SLOT_STATE m) = 0 := by
  by_cases he : n = m
  · exact he ▸ slotState_setSlot n 0 0 0 0 [] s (by decide)
  · have hne : ∀ f ∈ [KEY_VAULT_KEKV, KEY_SLOT_STATE n, KEY_SLOT_KEYID n, KEY_SLOT_LEN n, KEY_SLOT_GEN n, KEY_TAG_TAG n], (KEY_SLOT_STATE m).key ≠ f.key := by
      simp only [List.forall_mem_cons, List.not_mem_nil, false_implies, implies_true, and_true, KEY_VAULT_KEKV, KEY_SLOT_STATE, KEY_SLOT_KEYID, KEY_SLOT_LEN, KEY_SLOT_GEN,
        KEY_TAG_TAG, fld]
      omega
    have hwrs : (s.wrs [(KEY_SLOT_STATE n, 0), (KEY_SLOT_KEYID n, 0), (KEY_SLOT_LEN n, 0), (KEY_SLOT_GEN n, 0), (KEY_TAG_TAG n, slotTag n [])]).rd (KEY_SLOT_STATE m) = s.rd (KEY_SLOT_STATE m) :=
      (onlyWrites_wrs (fs := [KEY_VAULT_KEKV, KEY_SLOT_STATE n, KEY_SLOT_KEYID n, KEY_SLOT_LEN n, KEY_SLOT_GEN n, KEY_TAG_TAG n]) (by simp) s).1 _ hne
    have hzero := hwrs.trans (h.resolve_left he)
    unfold clearSlot setSlot
    generalize s.wrs [(KEY_SLOT_STATE n, 0), (KEY_SLOT_KEYID n, 0), (KEY_SLOT_LEN n, 0), (KEY_SLOT_GEN n, 0), (KEY_TAG_TAG n, slotTag n [])] = t at hzero
    show (if n = 0 then t.setB KEY_VAULT_KEKV ((0 : Nat) = 2) else t).rd (KEY_SLOT_STATE m) = 0
    split
    · exact (State.rd_wr_ne _ _ _ _ (hne _ (by simp))).trans hzero
    · exact hzero

theorem emptied_slotsZeroised (s : State) : emptied (slotsZeroised s) := by
  have hclear (n : Nat) (hn : n < 32) : (forAll (List.range 32) clearSlot (abortStore 10 s)).rd (KEY_SLOT_STATE n) = 0 :=
    forAll_establishes (P := fun u => u.rd (KEY_SLOT_STATE n) = 0) (abortStore 10 s) (List.mem_range.2 hn) (fun u => slotState_clearSlot u (.inl rfl))
      fun m _ u hu => slotState_clearSlot u (.inr hu)
  unfold slotsZeroised
  generalize forAll (List.range 32) clearSlot (abortStore 10 s) = t at hclear
  refine ⟨fun n hn => ?_, ?_, leafSet_raise 21 3 _ (by decide)⟩
  · have hleaf : ¬ leafKey (KEY_SLOT_STATE n).key := fun h => slotState_not_lossKey hn (.inr (.inl h))
    have hne : (KEY_SLOT_STATE n).key ≠ RST_CAUSE_ZERO.key := fun e => absurd (e ▸ (slotState_fields n).1) (by decide)
    rw [rd_raise_ne _ _ _ _ (ne_evstat hleaf 21), State.rd_wr_ne _ _ _ _ hne, hclear n hn]
  · exact (rd_raise_ne _ _ _ _ (by decide)).trans (State.rd_wr_same t RST_CAUSE_ZERO 1)

theorem emptied_zeroise (s : State) : emptied (zeroise s) := by
  have hslots := emptied_slotsZeroised s
  rw [zeroise_eq]
  generalize slotsZeroised s = t at hslots
  have hkv : onlyKeys hubKeys t (t.setKv { t.kv with zeroised := true }) := .of_regs (.refl _ t) rfl
  have hlinks : emptied (dropLinks (t.setKv { t.kv with zeroised := true })) :=
    hslots.of_hub (hkv.trans ((onlyKeys_dropLinks _).mono fun _ => .inl))
  exact hlinks.of_hub ((keysLost_of_empty (hlinks.1 1 (by decide))).mono fun _ => .inr)

/-! ### The load and the vault's waiting commands through a response (R61) -/

/-- What a response to an alarm keeps of the load and of the vault: a load that has been stopped stays so, and the same commands wait. -/
def stillStopped (s t : State) : Prop := (s.ld.check = none → t.ld.check = none) ∧
  (s.rd CFG_STATUS_HOLD = 1 ∧ s.ld.doing = .idle → t.rd CFG_STATUS_HOLD = 1 ∧ t.ld.doing = .idle) ∧ t.kv.waiting = s.kv.waiting

theorem stillStopped.refl (s : State) : stillStopped s s := ⟨id, id, rfl⟩

theorem stillStopped.trans {s t u : State} (h : stillStopped s t) (g : stillStopped t u) : stillStopped s u :=
  ⟨g.1 ∘ h.1, g.2.1 ∘ h.2.1, g.2.2.trans h.2.2⟩

theorem stillStopped.ite {c : Prop} [Decidable c] {s t u : State} (ht : stillStopped s t) (hu : stillStopped s u) : stillStopped s (if c then t else u) := by
  split
  · exact ht
  · exact hu

theorem stillStopped.of_same {s t : State} (hld : t.ld = s.ld) (hkv : t.kv.waiting = s.kv.waiting) (hhold : t.rd CFG_STATUS_HOLD = s.rd CFG_STATUS_HOLD) : stillStopped s t :=
  ⟨fun h => by rw [hld, h], fun h => by rw [hld, hhold]; exact h, hkv⟩

theorem stillStopped.of_keys {K : Nat → Prop} {s t : State} (h : onlyKeys K s t) (hK : ¬ K CFG_STATUS_HOLD.key) (hld : t.ld = s.ld) (hkv : t.kv = s.kv) : stillStopped s t :=
  .of_same hld (congrArg Vault.waiting hkv) (h.1 _ hK)

theorem stillStopped.forAll {α : Type} {s t : State} {l : List α} {f : α → State → State} (h : stillStopped s t) (hf : ∀ x ∈ l, ∀ u, stillStopped u (f x u)) :
    stillStopped s (forAll l f t) := forAll_induction (P := stillStopped s) h fun x hx u hu => hu.trans (hf x hx u)

theorem hold_not_lossKey : ¬ lossKey CFG_STATUS_HOLD.key ∧ ¬ slotKeys CFG_STATUS_HOLD.key := by
  unfold lossKey slotKeys groveUp
  decide

theorem stillStopped_clearSlot (n : Nat) (s : State) : stillStopped s (clearSlot n s) := by
  have hne : ∀ f ∈ [KEY_VAULT_KEKV, KEY_SLOT_STATE n, KEY_SLOT_KEYID n, KEY_SLOT_LEN n, KEY_SLOT_GEN n, KEY_TAG_TAG n], CFG_STATUS_HOLD.key ≠ f.key := by
    simp only [List.forall_mem_cons, List.not_mem_nil, false_implies, implies_true, and_true, CFG_STATUS_HOLD, KEY_VAULT_KEKV, KEY_SLOT_STATE, KEY_SLOT_KEYID, KEY_SLOT_LEN,
      KEY_SLOT_GEN, KEY_TAG_TAG, fld]
    omega
  have hwrs := onlyWrites_wrs (fs := [KEY_VAULT_KEKV, KEY_SLOT_STATE n, KEY_SLOT_KEYID n, KEY_SLOT_LEN n, KEY_SLOT_GEN n, KEY_TAG_TAG n])
    (l := [(KEY_SLOT_STATE n, 0), (KEY_SLOT_KEYID n, 0), (KEY_SLOT_LEN n, 0), (KEY_SLOT_GEN n, 0), (KEY_TAG_TAG n, slotTag n [])]) (by simp) s
  have hld := hwrs.2 .ld (by simp)
  have hkv := hwrs.2 .kv (by simp)
  have hrd := hwrs.1 CFG_STATUS_HOLD hne
  unfold clearSlot setSlot
  generalize s.wrs [(KEY_SLOT_STATE n, 0), (KEY_SLOT_KEYID n, 0), (KEY_SLOT_LEN n, 0), (KEY_SLOT_GEN n, 0), (KEY_TAG_TAG n, slotTag n [])] = t at hld hkv hrd
  have hkek : stillStopped s (if n = 0 then t.setB KEY_VAULT_KEKV ((0 : Nat) = 2) else t) := by
    refine .ite (.of_same hld (congrArg Vault.waiting hkv) ?_) (.of_same hld (congrArg Vault.waiting hkv) hrd)
    exact (State.rd_wr_ne _ _ _ _ (hne _ (by simp))).trans hrd
  dsimp only
  generalize (if n = 0 then t.setB KEY_VAULT_KEKV ((0 : Nat) = 2) else t) = u at hkek
  exact hkek

theorem stillStopped_abortStore (r : Nat) (s : State) : stillStopped s (abortStore r s) := by
  have hrd := (onlyKeys_abortStore_slots r s).1 _ hold_not_lossKey.2
  have hend (p : Path) (t : State) : (endCommand p.idx r [] t).kv = t.kv := endCommand_frame (κ := 26) rfl (.refl 26 t)
  refine .of_same (abortStore_frame (κ := 8) rfl (.refl 8 s)) ?_ hrd
  unfold abortStore
  split
  · rfl
  · next p _ _ =>
    show (endCommand p.idx r [] (clearSlot 31 s)).kv.waiting = s.kv.waiting
    rw [hend]
    exact (stillStopped_clearSlot 31 s).2.2

theorem stillStopped_links {s t : State} (h : onlyKeys lossKey s t) (hld : t.ld = s.ld) (hkv : t.kv = s.kv) : stillStopped s t := .of_keys h hold_not_lossKey.1 hld hkv

theorem stillStopped_dropLinks (s : State) : stillStopped s (dropLinks s) :=
  stillStopped_links (onlyKeys_dropLinks s) (dropLinks_frame (κ := 8) rfl (.refl 8 s)) (dropLinks_frame (κ := 26) rfl (.refl 26 s))

theorem hold_imageHold (s : State) : (imageHold s).rd CFG_STATUS_HOLD = 1 := rd_wrs_eq (l := [(CFG_STATUS_HOLD, 1), (SYS_STAGE_HOLD, 1)]) (by decide) (by simp) (by decide) s

theorem imageHold_stops (s : State) : (imageHold s).rd CFG_STATUS_HOLD = 1 ∧ (imageHold s).ld = { s.ld with doing := .idle } ∧ (imageHold s).kv = s.kv :=
  ⟨hold_imageHold s, rfl, rfl⟩

theorem stillStopped_imageHold (s : State) : stillStopped s (imageHold s) := ⟨id, fun _ => ⟨hold_imageHold s, rfl⟩, rfl⟩

/-- A load under way is stopped and holds; the CHECK stays. -/
theorem loadStopped_effects (s : State) : (loadStopped s).ld.check = s.ld.check ∧ (loadStopped s).kv = s.kv ∧ (loadStopped s).ld.doing = .idle ∧
    (s.ld.doing ≠ .idle → (loadStopped s).rd CFG_STATUS_HOLD = 1) ∧ (s.ld.doing = .idle → loadStopped s = s) := by
  unfold loadStopped
  split
  · next a b c h => exact ⟨rfl, rfl, rfl, fun _ => hold_imageHold s, fun he => absurd (h.symm.trans he) (by simp)⟩
  · next h => exact ⟨rfl, rfl, rfl, fun _ => hold_imageHold _, fun he => absurd (h.symm.trans he) (by simp)⟩
  · next h => exact ⟨rfl, rfl, h, fun hne => absurd h hne, fun _ => rfl⟩

theorem stillStopped_dropKey (s : State) : stillStopped s (dropKey s) := .ite (.refl s) (stillStopped_clearSlot 1 s)

theorem stillStopped_abortReload (cause : Nat) (s : State) : stillStopped s (abortReload cause s) := by
  rcases abortReload_cases cause s with h | h <;> rw [h]
  · exact .refl s
  · refine stillStopped.trans (t := reloadAborted cause s) ⟨id, fun h => ⟨?_, h.2⟩, rfl⟩ (stillStopped_dropKey _)
    exact ((onlyWrites_wrs (fs := [CFG_RLDST_BUSY, CFG_RLDST_ABORT, CFG_RLDST_CAUSE]) (by simp) s).1 _ (by decide)).trans h.1

/-- The loss of the keys stops a load, which holds, and a CHECK (R61). -/
theorem keysLost_stops (s : State) : stillStopped s (keysLost s) ∧ (keysLost s).ld.check = none ∧
    (s.ld.doing ≠ .idle → (keysLost s).rd CFG_STATUS_HOLD = 1 ∧ (keysLost s).ld.doing = .idle) := by
  obtain ⟨hcheck, hkv, hidle, hhold, hsame⟩ := loadStopped_effects s
  rw [keysLost_eq]
  generalize loadStopped s = t at hcheck hkv hidle hhold hsame
  have hstop : (if t.ld.check.isSome then stopCheck t else t).ld.check = none ∧ (if t.ld.check.isSome then stopCheck t else t).ld.doing = .idle ∧
      (if t.ld.check.isSome then stopCheck t else t).rd CFG_STATUS_HOLD = t.rd CFG_STATUS_HOLD ∧ (if t.ld.check.isSome then stopCheck t else t).kv = t.kv := by
    split
    · exact ⟨rfl, hidle, (State.rd_wr_ne t CFG_CTL_CHECK CFG_STATUS_HOLD 0 (by decide) :), rfl⟩
    · next h => exact ⟨by simpa using h, hidle, rfl, rfl⟩
  generalize (if t.ld.check.isSome then stopCheck t else t) = u at hstop
  obtain ⟨hnone, huidle, huhold, hukv⟩ := hstop
  have hrest := (stillStopped_dropKey u).trans (stillStopped_abortReload 9 _)
  refine ⟨⟨fun _ => hrest.1 hnone, fun h => hrest.2.1 ⟨?_, huidle⟩, ?_⟩, hrest.1 hnone, fun hne => hrest.2.1 ⟨huhold.trans (hhold hne), huidle⟩⟩
  · rw [huhold, hsame h.2]
    exact h.1
  · rw [hrest.2.2, hukv, hkv]

theorem stillStopped_zeroise (s : State) : stillStopped s (zeroise s) := by
  have hslots : stillStopped s (slotsZeroised s) := by
    have hclear := (stillStopped_abortStore 10 s).forAll (l := List.range 32) (f := clearSlot) fun n _ u => stillStopped_clearSlot n u
    unfold slotsZeroised
    generalize forAll (List.range 32) clearSlot (abortStore 10 s) = t at hclear
    refine hclear.trans (.of_same (raise_frame (κ := 8) rfl (.refl 8 _)) (congrArg Vault.waiting (raise_frame (κ := 26) rfl (.refl 26 _))) ?_)
    rw [rd_raise_ne _ _ _ _ (by decide)]
    exact State.rd_wr_ne _ _ _ _ (by decide)
  rw [zeroise_eq]
  generalize slotsZeroised s = t at hslots
  have hkv : stillStopped s (t.setKv { t.kv with zeroised := true }) := hslots.trans (.of_same rfl rfl rfl)
  exact (hkv.trans (stillStopped_dropLinks _)).trans (keysLost_stops _).1

theorem stillStopped_holdHub (s : State) : stillStopped s (holdHub s) := by
  have hoff : stillStopped s (s.wrs [(CFG_STATUS_LOADED, 0), (SYS_SETTLE_RUN, 0), (SYS_SETTLE_PEND, 0)]) :=
    .of_keys (K := fun k => k ∈ [CFG_STATUS_LOADED.key, SYS_SETTLE_RUN.key, SYS_SETTLE_PEND.key]) (.wrs (.refl _ s) (by
      simp only [List.forall_mem_cons, List.not_mem_nil, false_implies, implies_true, and_true]
      exact ⟨⟨by simp, by decide⟩, ⟨by simp, by decide⟩, by simp, by decide⟩)) (by decide) (wrs_frame (k := 8) (by decide) (.refl 8 s)) (wrs_frame (k := 26) (by decide) (.refl 26 s))
  unfold holdHub
  generalize s.wrs [(CFG_STATUS_LOADED, 0), (SYS_SETTLE_RUN, 0), (SYS_SETTLE_PEND, 0)] = t at hoff
  have hcancel : stillStopped t (cancelSolve t) :=
    stillStopped_links ((onlyKeys_cancelSolve t).mono fun _ => lossKey_of_attachKeys) (cancelSolve_frame (κ := 8) rfl (.refl 8 t)) (cancelSolve_frame (κ := 26) rfl (.refl 26 t))
  exact .forAll (hoff.trans (hcancel.trans (stillStopped_imageHold _))) fun p _ u =>
    .ite (stillStopped_links (onlyKeys_portDown_loss p 1 u) (portDown_frame (κ := 8) rfl (.refl 8 u)) (portDown_frame (κ := 26) rfl (.refl 26 u))) (.refl u)

/-- The response shows STHOLD, the zeroise and the halt as the policy has them (R504). -/
theorem tamperResponse_shows (b : Bool) (s : State) : stillStopped s (tamperResponse b s) ∧ (b = true → (tamperResponse b s).rd KEY_VAULT_STHOLD = 1) ∧
    (1 ≤ tamperPolicy s → emptied (tamperResponse b s)) ∧
    (2 ≤ tamperPolicy s → (tamperResponse b s).rd KEY_VAULT_HALT = 1 ∧ (tamperResponse b s).rd CFG_STATUS_LOADED = 0) := by
  have hapart : ∀ f ∈ [KEY_VAULT_STHOLD, KEY_VAULT_HALT], ¬ haltKey f.key ∧ f.key ≠ CFG_STATUS_LOADED.key := by
    unfold haltKey stopKeys slotKeys loaderKeys lossKey groveUp
    decide
  have hhub (t : State) (f : Fld) (hf : f ∈ [KEY_VAULT_STHOLD, KEY_VAULT_HALT]) : (holdHub t).rd f = t.rd f :=
    ((onlyKeys_holdHub t).1 _ fun h => (hapart f hf).1 (hubKeys_halt h)).trans (State.rd_wr_ne _ _ _ _ (hapart f hf).2)
  have hheld : stillStopped s (alarmHeld b s) ∧ (b = true → (alarmHeld b s).rd KEY_VAULT_STHOLD = 1) := by
    have hset : stillStopped s (if b then s.wr KEY_VAULT_STHOLD 1 else s) ∧ (b = true → (if b then s.wr KEY_VAULT_STHOLD 1 else s).rd KEY_VAULT_STHOLD = 1) := by
      refine ⟨.ite (.of_same rfl rfl (State.rd_wr_ne _ _ _ _ (by decide))) (.refl s), fun hb => ?_⟩
      rw [if_pos hb]
      exact State.rd_wr_same s KEY_VAULT_STHOLD 1
    unfold alarmHeld
    dsimp only
    generalize (if b = true then s.wr KEY_VAULT_STHOLD 1 else s) = t at hset
    refine ⟨.ite (hset.1.trans (stillStopped_holdHub t)) hset.1, fun hb => ?_⟩
    split
    · rw [hhub t _ (by simp), hset.2 hb]
    · exact hset.2 hb
  rw [tamperResponse_eq]
  generalize alarmHeld b s = u at hheld
  have hzero : stillStopped u (if 1 ≤ tamperPolicy s then zeroise u else u) ∧ (if 1 ≤ tamperPolicy s then zeroise u else u).rd KEY_VAULT_STHOLD = u.rd KEY_VAULT_STHOLD ∧
      (1 ≤ tamperPolicy s → emptied (if 1 ≤ tamperPolicy s then zeroise u else u)) := by
    refine ⟨.ite (stillStopped_zeroise u) (.refl u), ?_, fun h => ?_⟩
    · split
      · exact (onlyKeys_zeroise u).1 _ (hapart _ (by simp)).1
      · rfl
    · rw [if_pos h]
      exact emptied_zeroise u
  dsimp only
  generalize (if 1 ≤ tamperPolicy s then zeroise u else u) = t at hzero
  obtain ⟨hstill, hst, hempty⟩ := hzero
  by_cases hpol : 2 ≤ tamperPolicy s
  · rw [if_pos hpol]
    have hhalt : stillStopped t (t.wr KEY_VAULT_HALT 1) := .of_same rfl rfl (State.rd_wr_ne _ _ _ _ (by decide))
    refine ⟨((hheld.1.trans hstill).trans hhalt).trans (stillStopped_holdHub _), fun hb => ?_, fun h1 => ?_, fun _ => ⟨?_, loaded_holdHub _⟩⟩
    · rw [hhub _ _ (by simp), State.rd_wr_ne _ _ _ _ (by decide), hst, hheld.2 hb]
    · have hwr : onlyKeys (fun k => k ∈ [KEY_VAULT_HALT.key, CFG_STATUS_LOADED.key]) t ((t.wr KEY_VAULT_HALT 1).wr CFG_STATUS_LOADED 0) :=
        .wr (.wr (.refl _ t) (by simp) (by decide)) (by simp) (by decide)
      have hkept : emptied ((t.wr KEY_VAULT_HALT 1).wr CFG_STATUS_LOADED 0) := by
        obtain ⟨hslots, hcause, hleaf⟩ := hempty h1
        refine ⟨fun n hn => (hwr.1 _ fun hk => ?_).trans (hslots n hn), (hwr.1 _ (by decide)).trans hcause, hwr.2 _ _ hleaf⟩
        have hlo := (slotState_fields n).1
        generalize (KEY_SLOT_STATE n).key = k at hlo hk
        have hout : k < 0x300800 := by fin_cases hk <;> decide
        omega
      exact hkept.of_hub (onlyKeys_holdHub _)
    · rw [hhub _ _ (by simp)]
      exact State.rd_wr_same t KEY_VAULT_HALT 1
  · rw [if_neg hpol]
    exact ⟨hheld.1.trans hstill, fun hb => hst.trans (hheld.2 hb), hempty, fun h => absurd h hpol⟩

/-! ### An alarm (R503, R504) -/

theorem tamperPolicy_congr {s t : State} (h : ∀ f ∈ [SYS_STAGE_FUSEFLT, FUSE_TAMPOL_V], t.rd f = s.rd f) : tamperPolicy t = tamperPolicy s := by
  rw [tamperPolicy, tamperPolicy, fuseFault, fuseFault, State.on, State.on, h SYS_STAGE_FUSEFLT (by simp), h FUSE_TAMPOL_V (by simp)]

/-- Latching an alarm writes the latch, the count and a leaf. -/
def latchKeys (k : Nat) : Prop := leafKey k ∨ k ∈ [KEY_TAMP_ALARM.key, KEY_TAMP_SRC.key, KEY_TAMP_COUNT.key]

theorem latchAlarm_effects {s : State} (h : s.kv.storing = none) {src : Nat} (hsrc : src < 4) : onlyKeys latchKeys s (latchAlarm src s) ∧
    (latchAlarm src s).rd KEY_TAMP_ALARM = 1 ∧ bit ((latchAlarm src s).rd KEY_TAMP_SRC) src = true ∧
    (latchAlarm src s).rd KEY_TAMP_COUNT = satInc 255 (s.rd KEY_TAMP_COUNT) ∧ (s.on KEY_TAMP_ALARM = false → leafSet (latchAlarm src s) 21 2) ∧
    (latchAlarm src s).kv = s.kv ∧ (latchAlarm src s).ld = s.ld ∧ (latchAlarm src s).bt = s.bt := by
  have hbits : s.rd KEY_TAMP_SRC ||| 2 ^ src < 2 ^ 4 := Nat.or_lt_two_pow (State.rd_lt s KEY_TAMP_SRC) (Nat.pow_lt_pow_right (by decide) hsrc)
  generalize ht : s.wrs [(KEY_TAMP_ALARM, 1), (KEY_TAMP_SRC, s.rd KEY_TAMP_SRC ||| 2 ^ src)] = t
  have hkeys : onlyKeys latchKeys s t := by
    rw [← ht]
    refine .wrs (.refl _ s) ?_
    simp only [List.forall_mem_cons, List.not_mem_nil, false_implies, implies_true, and_true]
    exact ⟨⟨.inr (by simp), by decide⟩, .inr (by simp), by decide⟩
  have halarm : t.rd KEY_TAMP_ALARM = 1 := by
    rw [← ht]
    exact rd_wrs_eq (by simp [KEY_TAMP_ALARM, KEY_TAMP_SRC, fld]) (by simp) (by decide) s
  have hshown : t.rd KEY_TAMP_SRC = s.rd KEY_TAMP_SRC ||| 2 ^ src := by
    rw [← ht]
    exact rd_wrs_eq (by simp [KEY_TAMP_ALARM, KEY_TAMP_SRC, fld]) (by simp) hbits s
  have hcount : t.rd KEY_TAMP_COUNT = s.rd KEY_TAMP_COUNT := by
    rw [← ht]
    exact (onlyWrites_wrs (fs := [KEY_TAMP_ALARM, KEY_TAMP_SRC]) (by simp) s).1 _ (by decide)
  have hparts : t.kv = s.kv ∧ t.ld = s.ld ∧ t.bt = s.bt := by
    rw [← ht]
    exact ⟨wrs_frame (k := 26) (by decide) (.refl 26 s), wrs_frame (k := 8) (by decide) (.refl 8 s), wrs_frame (k := 21) (by decide) (.refl 21 s)⟩
  have hinc : onlyKeys latchKeys s (t.inc KEY_TAMP_COUNT) := hkeys.inc (.inr (by simp)) (by decide)
  have hvals : (t.inc KEY_TAMP_COUNT).rd KEY_TAMP_ALARM = 1 ∧ bit ((t.inc KEY_TAMP_COUNT).rd KEY_TAMP_SRC) src = true ∧
      (t.inc KEY_TAMP_COUNT).rd KEY_TAMP_COUNT = satInc 255 (s.rd KEY_TAMP_COUNT) := by
    have honly := onlyWrites_inc KEY_TAMP_COUNT t
    refine ⟨(honly.1 _ (by decide)).trans halarm, ?_, ?_⟩
    · rw [honly.1 _ (by decide), hshown]
      exact bit_or_two_pow _ _
    · rw [rd_inc_eq_satInc, hcount]
      rfl
  have hparts' : (t.inc KEY_TAMP_COUNT).kv = s.kv ∧ (t.inc KEY_TAMP_COUNT).ld = s.ld ∧ (t.inc KEY_TAMP_COUNT).bt = s.bt := hparts
  have hlatch : latchAlarm src s = if s.on KEY_TAMP_ALARM then t.inc KEY_TAMP_COUNT else raise 21 2 (t.inc KEY_TAMP_COUNT) := by
    unfold latchAlarm
    rw [ht]
    dsimp only
    generalize t.inc KEY_TAMP_COUNT = w at hparts'
    have hkv : (if s.on KEY_TAMP_ALARM then w else raise 21 2 w).kv = s.kv := by
      split
      · exact hparts'.1
      · exact Eq.trans (show (raise 21 2 w).kv = w.kv from raise_frame (κ := 26) rfl (.refl 26 w)) hparts'.1
    rw [hkv, h]
    rfl
  rw [hlatch]
  generalize t.inc KEY_TAMP_COUNT = w at hinc hvals hparts'
  split
  · next hon => exact ⟨hinc, hvals.1, hvals.2.1, hvals.2.2, fun hoff => absurd hon (by simp [hoff]), hparts'⟩
  · obtain ⟨hkv, hld, hbt⟩ := hparts'
    refine ⟨hinc.raise (.inl (leafKey_evstat 21)), (rd_raise_ne _ _ _ _ (by decide)).trans hvals.1, ?_, (rd_raise_ne _ _ _ _ (by decide)).trans hvals.2.2,
      fun _ => leafSet_raise 21 2 w (by decide), ?_, ?_, ?_⟩
    · rw [rd_raise_ne _ _ _ _ (by decide)]
      exact hvals.2.1
    · exact Eq.trans (show (raise 21 2 w).kv = w.kv from raise_frame (κ := 26) rfl (.refl 26 w)) hkv
    · exact Eq.trans (show (raise 21 2 w).ld = w.ld from raise_frame (κ := 8) rfl (.refl 8 w)) hld
    · exact Eq.trans (show (raise 21 2 w).bt = w.bt from raise_frame (κ := 21) rfl (.refl 21 w)) hbt

/-- What the answer to an alarm can write. -/
def answerKeys (k : Nat) : Prop := offKey k ∨ wakeKeys k

/-- The response to an alarm before the hub is woken. -/
def alarmAnswered (s : State) : State :=
  if 3 ≤ s.rd PST_PSSTAT_STATE then tamperResponse false s
  else if s.rd SYS_STAGE_STAGE < 2 then tamperResponse true (keysLost s) else tamperResponse false (abortReload 9 s)

theorem answerAlarm_eq {s : State} (h : 2 ≤ s.bt.released ∨ 3 ≤ s.rd PST_PSSTAT_STATE) : answerAlarm s = alarmAnswered s ∨ answerAlarm s = wakeUp 7 (alarmAnswered s) := by
  unfold answerAlarm alarmAnswered
  dsimp only
  split
  · exact .inr rfl
  · rw [if_neg (by omega)]
    split
    · split
      · exact .inl rfl
      · exact .inr rfl
    · split
      · exact .inl rfl
      · exact .inr rfl

theorem policy_not_stopKeys : ∀ f ∈ [SYS_STAGE_FUSEFLT, FUSE_TAMPOL_V], ¬ stopKeys f.key := by
  unfold stopKeys slotKeys loaderKeys groveUp
  decide

theorem alarmAnswered_effects (s : State) : onlyKeys offKey s (alarmAnswered s) ∧ stillStopped s (alarmAnswered s) ∧
    (1 ≤ tamperPolicy s → emptied (alarmAnswered s)) ∧
    (2 ≤ tamperPolicy s → (alarmAnswered s).rd KEY_VAULT_HALT = 1 ∧ (alarmAnswered s).rd CFG_STATUS_LOADED = 0) := by
  have hpass {t : State} (b : Bool) (hkeys : onlyKeys stopKeys s t) (hstill : stillStopped s t) : onlyKeys offKey s (tamperResponse b t) ∧ stillStopped s (tamperResponse b t) ∧
      (1 ≤ tamperPolicy s → emptied (tamperResponse b t)) ∧
      (2 ≤ tamperPolicy s → (tamperResponse b t).rd KEY_VAULT_HALT = 1 ∧ (tamperResponse b t).rd CFG_STATUS_LOADED = 0) := by
    obtain ⟨hshow, -, hempty, hhalt⟩ := tamperResponse_shows b t
    have hpol : tamperPolicy t = tamperPolicy s := tamperPolicy_congr fun f hf => hkeys.1 f (policy_not_stopKeys f hf)
    rw [hpol] at hempty hhalt
    exact ⟨hkeys.held.off.trans (tamperResponse_effects b t).1, hstill.trans hshow, hempty, hhalt⟩
  unfold alarmAnswered
  split
  · exact hpass false (.refl _ s) (.refl s)
  · split
    · exact hpass true (onlyKeys_keysLost s) (keysLost_stops s).1
    · exact hpass false (onlyKeys_abortReload 9 s) (stillStopped_abortReload 9 s)

/-- A wake leaves what a response has shown. -/
theorem wake_apart : (∀ n, n < 32 → ¬ wakeKeys (KEY_SLOT_STATE n).key) ∧
    ∀ f ∈ [RST_CAUSE_ZERO, KEY_VAULT_STHOLD, KEY_VAULT_HALT, CFG_STATUS_LOADED, CFG_STATUS_HOLD], ¬ wakeKeys f.key := by
  refine ⟨fun n hn => ?_, fun f hf => ?_⟩
  · have hfar := slotState_not_lossKey hn
    have hlo := (slotState_fields n).1
    generalize (KEY_SLOT_STATE n).key = k at hlo hfar
    rintro (h | h)
    · exact hfar (lossKey_of_attachKeys h)
    · have hout : k < 0x300800 := by fin_cases h <;> decide
      omega
  · rintro (h | h)
    · have hfar : ¬ lossKey f.key := by
        clear h
        revert f
        unfold lossKey groveUp
        decide
      exact hfar (lossKey_of_attachKeys h)
    · revert f
      decide

theorem emptied.of_wake {s t : State} (h : emptied s) (hkeys : onlyKeys wakeKeys s t) : emptied t :=
  ⟨fun n hn => (hkeys.1 _ (wake_apart.1 n hn)).trans (h.1 n hn), (hkeys.1 _ (wake_apart.2 _ (by simp))).trans h.2.1, hkeys.2 _ _ h.2.2⟩

/-- The answer to an alarm, with no key command waiting, is within `answerKeys` and shows what the response showed. -/
theorem answerAlarm_effects {s : State} (hw : s.kv.waiting = []) (h : 2 ≤ s.bt.released ∨ 3 ≤ s.rd PST_PSSTAT_STATE) :
    onlyKeys wakeKeys (alarmAnswered s) (answerAlarm s) ∧ (answerAlarm s).kv = (alarmAnswered s).kv ∧ (answerAlarm s).ld = (alarmAnswered s).ld := by
  have hwait : (alarmAnswered s).kv.waiting = [] := (alarmAnswered_effects s).2.1.2.2.trans hw
  rcases answerAlarm_eq h with he | he <;> rw [he]
  · exact ⟨.refl _ _, rfl, rfl⟩
  · exact onlyKeys_wakeUp hwait 7

theorem tamp_apart : ∀ f ∈ [KEY_TAMP_ALARM, KEY_TAMP_SRC, KEY_TAMP_COUNT], ¬ offKey f.key ∧ ¬ wakeKeys f.key := by
  have hoff : ∀ f ∈ [KEY_TAMP_ALARM, KEY_TAMP_SRC, KEY_TAMP_COUNT], ¬ offKey f.key ∧ f.key ∉ [PST_WAKEST_SRC.key, PST_PSSTAT_PHASE.key, PST_PSSTAT_FROM.key, PST_PSSTAT_WHO.key, PST_PSSTAT_REASON.key] := by
    unfold offKey haltKey stopKeys slotKeys loaderKeys lossKey groveUp
    decide
  refine fun f hf => ⟨(hoff f hf).1, ?_⟩
  rintro (h | h)
  · exact (hoff f hf).1 (.inl (.inl (lossKey_of_attachKeys h)))
  · exact (hoff f hf).2 h

theorem latch_apart : ∀ f ∈ [PST_PSSTAT_STATE, SYS_STAGE_STAGE, SYS_STAGE_FUSEFLT, FUSE_TAMPOL_V], ¬ latchKeys f.key := by
  unfold latchKeys
  decide

theorem alarmTaken (k : Fin 4) (s : State) (hs : s.kv.storing = none) (hw : s.kv.waiting = []) : ∃ t, exec (.tamperAlarm k) s = .next t ∧
    t.rd KEY_TAMP_ALARM = 1 ∧ bit (t.rd KEY_TAMP_SRC) k.val = true ∧ t.rd KEY_TAMP_COUNT = satInc 255 (s.rd KEY_TAMP_COUNT) ∧
    (s.on KEY_TAMP_ALARM = false → leafSet t 21 2) ∧
    (s.rd PST_PSSTAT_STATE < 3 → s.bt.released < 2 → t.kv = { s.kv with alarmDue := true }) ∧
    (3 ≤ s.rd PST_PSSTAT_STATE → t.rd PST_PSSTAT_PHASE = 3 ∧ bit (t.rd PST_WAKEST_SRC) 7 = true) ∧
    (s.rd PST_PSSTAT_STATE < 3 → 2 ≤ s.bt.released → s.rd SYS_STAGE_STAGE < 2 → t.rd KEY_VAULT_STHOLD = 1 ∧ t.ld.check = none ∧
      (s.ld.doing ≠ .idle → t.rd CFG_STATUS_HOLD = 1 ∧ t.ld.doing = .idle)) ∧
    (2 ≤ s.bt.released ∨ 3 ≤ s.rd PST_PSSTAT_STATE →
      (1 ≤ tamperPolicy s → (∀ n, n < 32 → t.rd (KEY_SLOT_STATE n) = 0) ∧ t.rd RST_CAUSE_ZERO = 1 ∧ leafSet t 21 3) ∧
      (tamperPolicy s = 2 → t.rd KEY_VAULT_HALT = 1 ∧ t.rd CFG_STATUS_LOADED = 0)) := by
  have hexec : exec (.tamperAlarm k) s = .next (nextKeys (answerAlarm (latchAlarm k.val s))) := rfl
  obtain ⟨hkeys, halarm, hsrc, hcount, hleaf, hkv, hld, hbt⟩ := latchAlarm_effects hs k.isLt
  generalize latchAlarm k.val s = l at hexec hkeys halarm hsrc hcount hleaf hkv hld hbt
  have hstate : l.rd PST_PSSTAT_STATE = s.rd PST_PSSTAT_STATE := hkeys.1 _ (latch_apart _ (by simp))
  have hstage : l.rd SYS_STAGE_STAGE = s.rd SYS_STAGE_STAGE := hkeys.1 _ (latch_apart _ (by simp))
  have hpol : tamperPolicy l = tamperPolicy s := tamperPolicy_congr fun f hf => hkeys.1 f (latch_apart f (by
    simp only [List.mem_cons, List.not_mem_nil, or_false] at hf ⊢
    tauto))
  have hwait : l.kv.waiting = [] := by rw [hkv, hw]
  by_cases hlive : 2 ≤ s.bt.released ∨ 3 ≤ s.rd PST_PSSTAT_STATE
  · obtain ⟨hresp, hstill, hempty, hhalt⟩ := alarmAnswered_effects l
    obtain ⟨hwake, hakv, hald⟩ := answerAlarm_effects hwait (by rw [hbt, hstate]; exact hlive)
    have hdone : nextKeys (answerAlarm l) = answerAlarm l := nextKeys_of_nil (by rw [hakv, hstill.2.2, hwait])
    have hfar (f : Fld) (hf : f ∈ [KEY_TAMP_ALARM, KEY_TAMP_SRC, KEY_TAMP_COUNT]) : (answerAlarm l).rd f = l.rd f :=
      (hwake.1 f (tamp_apart f hf).2).trans (hresp.1 f (tamp_apart f hf).1)
    rw [hdone] at hexec
    rw [hpol] at hempty hhalt
    refine ⟨_, hexec, (hfar _ (by simp)).trans halarm, ?_, (hfar _ (by simp)).trans hcount, fun h => hwake.2 _ _ (hresp.2 _ _ (hleaf h)), ?_, ?_, ?_, fun _ => ⟨?_, ?_⟩⟩
    · rw [hfar _ (by simp)]
      exact hsrc
    · intro h3 h2
      omega
    · intro h3
      have haway : 3 ≤ l.rd PST_PSSTAT_STATE := by rw [hstate]; exact h3
      have hanswer : answerAlarm l = wakeUp 7 (tamperResponse false l) := by
        unfold answerAlarm
        dsimp only
        rw [if_pos haway]
      have hkept : 3 ≤ (tamperResponse false l).rd PST_PSSTAT_STATE := by
        rw [awayKept_tamperResponse false l haway]
        exact haway
      rw [hanswer]
      exact wakeUp_away hkept (by decide)
    · intro h3 h2 hst
      have hanswered : alarmAnswered l = tamperResponse true (keysLost l) := by
        unfold alarmAnswered
        rw [if_neg (by omega), if_pos (by omega)]
      obtain ⟨-, hnone, hstop⟩ := keysLost_stops l
      obtain ⟨hshow, hsthold, -⟩ := tamperResponse_shows true (keysLost l)
      rw [hanswered] at hwake hald
      refine ⟨(hwake.1 _ (wake_apart.2 _ (by simp))).trans (hsthold rfl), ?_, fun hne => ?_⟩
      · rw [hald]
        exact hshow.1 hnone
      · rw [hald, hwake.1 _ (wake_apart.2 _ (by simp))]
        exact hshow.2.1 (hstop (by rw [hld]; exact hne))
    · intro h1
      exact (hempty h1).of_wake hwake
    · intro h2
      obtain ⟨hh, hl⟩ := hhalt (by omega)
      exact ⟨(hwake.1 _ (wake_apart.2 _ (by simp))).trans hh, (hwake.1 _ (wake_apart.2 _ (by simp))).trans hl⟩
  · have hanswer : answerAlarm l = l.setKv { l.kv with alarmDue := true } := by
      unfold answerAlarm
      dsimp only
      rw [if_neg (by omega), if_pos (by rw [hbt]; omega)]
    have hdone : nextKeys (l.setKv { l.kv with alarmDue := true }) = l.setKv { l.kv with alarmDue := true } := nextKeys_of_nil hwait
    rw [hanswer, hdone] at hexec
    refine ⟨_, hexec, halarm, hsrc, hcount, hleaf, fun _ _ => ?_, fun h => absurd (Or.inr h) hlive, fun _ h => absurd (Or.inl h) hlive, fun h => absurd h hlive⟩
    show { l.kv with alarmDue := true } = _
    rw [hkv]

/-! ### The end of a command (R498, R505) -/

/-- What the end of a path's command writes. -/
def commandKeys (p : Path) (k : Nat) : Prop := leafKey k ∨
  k ∈ [(KEY_STAT_RESULT p.idx).key, (KEY_STAT_BUSY p.idx).key, (KEY_CMD_GO p.idx).key, (KEY_STAT_SEQ p.idx).key] ∨
  (∃ j < 32, k = (KEY_DATA_DATA p.idx j).key) ∨ ∃ j < 8, k = (KEY_RESP_RESP p.idx j).key

/-- The command is shown ended, its data and its response still as they were. -/
def statEnded (i result : Nat) (s : State) : State := (s.wrs [(KEY_STAT_RESULT i, result), (KEY_STAT_BUSY i, 0), (KEY_CMD_GO i, 0)]).incMod (KEY_STAT_SEQ i)

theorem endCommand_eq (i result : Nat) (resp : Bytes) (s : State) : endCommand i result resp s =
    raise 21 0 (forAll (List.range 8) (fun j u => u.wr (KEY_RESP_RESP i j) (if result = 1 then leAt resp (4 * j) 4 else 0))
      (forAll (List.range 32) (fun j u => u.wr (KEY_DATA_DATA i j) 0) (statEnded i result s))) := rfl

theorem stat_nodup : ∀ p : Path, [(KEY_STAT_RESULT p.idx).key, (KEY_STAT_BUSY p.idx).key, (KEY_CMD_GO p.idx).key, (KEY_STAT_SEQ p.idx).key].Nodup := by
  intro p
  cases p <;> decide

theorem stat_apart (p : Path) (j : Nat) : ∀ f ∈ [KEY_STAT_RESULT p.idx, KEY_STAT_BUSY p.idx, KEY_CMD_GO p.idx, KEY_STAT_SEQ p.idx],
    f.key ≠ (KEY_DATA_DATA p.idx j).key ∧ f.key ≠ (KEY_RESP_RESP p.idx j).key ∧ ¬ leafKey f.key := by
  cases p
  all_goals
    simp only [List.forall_mem_cons, List.not_mem_nil, false_implies, implies_true, and_true, leafKey, KEY_STAT_RESULT, KEY_STAT_BUSY, KEY_CMD_GO, KEY_STAT_SEQ, KEY_DATA_DATA,
      KEY_RESP_RESP, fld, Path.idx, instanceAddr]
    omega

theorem onlyKeys_endCommand_path (p : Path) (r : Nat) (resp : Bytes) (s : State) : onlyKeys (commandKeys p) s (endCommand p.idx r resp s) := by
  have hstat : onlyKeys (commandKeys p) s (statEnded p.idx r s) := by
    refine .wr (.wrs (.refl _ s) ?_) (.inr (.inl (by simp))) (command_fields p _ (by simp)).2
    simp only [List.forall_mem_cons, List.not_mem_nil, false_implies, implies_true, and_true]
    exact ⟨⟨.inr (.inl (by simp)), (command_fields p _ (by simp)).2⟩, ⟨.inr (.inl (by simp)), (command_fields p _ (by simp)).2⟩,
      .inr (.inl (by simp)), (command_fields p _ (by simp)).2⟩
  rw [endCommand_eq]
  refine .raise ((hstat.forAll fun j hj u => ?_).forAll fun j hj u => ?_) (.inl (leafKey_evstat 21))
  · exact .wr (.refl _ u) (.inr (.inr (.inl ⟨j, List.mem_range.1 hj, rfl⟩))) (data_fields p (List.mem_range.1 hj) _ (by simp)).2
  · have hresp := data_fields p (j := j) (Nat.lt_trans (List.mem_range.1 hj) (by decide)) (KEY_RESP_RESP p.idx j) (by
      rw [Nat.mod_eq_of_lt (List.mem_range.1 hj)]
      simp)
    exact .wr (.refl _ u) (.inr (.inr (.inr ⟨j, List.mem_range.1 hj, rfl⟩))) hresp.2

/-- The command's status once it has ended. -/
theorem endCommand_effects (p : Path) {r : Nat} (hr : r < 16) (resp : Bytes) (s : State) : (endCommand p.idx r resp s).rd (KEY_STAT_RESULT p.idx) = r ∧
    (endCommand p.idx r resp s).rd (KEY_STAT_BUSY p.idx) = 0 ∧ (endCommand p.idx r resp s).rd (KEY_STAT_SEQ p.idx) = (s.rd (KEY_STAT_SEQ p.idx) + 1) % 65536 ∧
    leafSet (endCommand p.idx r resp s) 21 0 := by
  have hnodup := stat_nodup p
  generalize hw : s.wrs [(KEY_STAT_RESULT p.idx, r), (KEY_STAT_BUSY p.idx, 0), (KEY_CMD_GO p.idx, 0)] = w
  simp only [List.nodup_cons, List.mem_cons, List.not_mem_nil, or_false, not_or, List.nodup_nil, not_false_eq_true, and_true] at hnodup
  obtain ⟨⟨h12, h13, h14⟩, ⟨h23, h24⟩, h34⟩ := hnodup
  have hlist : ([(KEY_STAT_RESULT p.idx, r), (KEY_STAT_BUSY p.idx, 0), (KEY_CMD_GO p.idx, 0)].map fun x => x.1.key).Nodup := by
    simp [h12, h13, h23]
  have hresult : w.rd (KEY_STAT_RESULT p.idx) = r := by
    rw [← hw]
    exact rd_wrs_eq hlist (by simp) hr s
  have hbusy : w.rd (KEY_STAT_BUSY p.idx) = 0 := by
    rw [← hw]
    exact rd_wrs_eq hlist (by simp) (show 0 < 2 ^ 1 by decide) s
  have hseq : w.rd (KEY_STAT_SEQ p.idx) = s.rd (KEY_STAT_SEQ p.idx) := by
    rw [← hw]
    exact State.rd_wrs_ne s _ _ (by
      simp only [List.forall_mem_cons, List.not_mem_nil, false_implies, implies_true, and_true]
      exact ⟨Ne.symm h14, Ne.symm h24, Ne.symm h34⟩)
  have hstat : (statEnded p.idx r s).rd (KEY_STAT_RESULT p.idx) = r ∧ (statEnded p.idx r s).rd (KEY_STAT_BUSY p.idx) = 0 ∧
      (statEnded p.idx r s).rd (KEY_STAT_SEQ p.idx) = (s.rd (KEY_STAT_SEQ p.idx) + 1) % 65536 := by
    unfold statEnded State.incMod
    rw [hw]
    refine ⟨(State.rd_wr_ne _ _ _ _ h14).trans hresult, (State.rd_wr_ne _ _ _ _ h24).trans hbusy, ?_⟩
    rw [State.rd_wr_same, hseq]
    rfl
  have htail (f : Fld) (hf : f ∈ [KEY_STAT_RESULT p.idx, KEY_STAT_BUSY p.idx, KEY_CMD_GO p.idx, KEY_STAT_SEQ p.idx]) :
      (endCommand p.idx r resp s).rd f = (statEnded p.idx r s).rd f := by
    rw [endCommand_eq, rd_raise_ne _ _ _ _ (ne_evstat (stat_apart p 0 f hf).2.2 21)]
    refine forAll_induction (P := fun u => u.rd f = (statEnded p.idx r s).rd f) ?_ fun j _ u hu => (State.rd_wr_ne _ _ _ _ (stat_apart p j f hf).2.1).trans hu
    exact forAll_induction (P := fun u => u.rd f = (statEnded p.idx r s).rd f) rfl fun j _ u hu => (State.rd_wr_ne _ _ _ _ (stat_apart p j f hf).1).trans hu
  exact ⟨(htail _ (by simp)).trans hstat.1, (htail _ (by simp)).trans hstat.2.1, (htail _ (by simp)).trans hstat.2.2, leafSet_raise 21 0 _ (by decide)⟩

/-- The words of a path's commands, data and responses stand apart from the slots and from the blob's. -/
theorem commandKeys_apart (p : Path) {k : Nat} (h : commandKeys p k) : leafKey k ∨ k < 0x300080 ∨ 0x301000 ≤ k := by
  rcases h with h | h | ⟨j, hj, rfl⟩ | ⟨j, hj, rfl⟩
  · exact .inl h
  · right
    cases p
    all_goals
      simp only [List.mem_cons, List.not_mem_nil, or_false, KEY_STAT_RESULT, KEY_STAT_BUSY, KEY_CMD_GO, KEY_STAT_SEQ, fld, Path.idx, instanceAddr] at h
      omega
  · right
    simp only [KEY_DATA_DATA, fld]
    omega
  · right
    simp only [KEY_RESP_RESP, fld]
    omega

/-! ### The end of a STORE (R494, R497) -/

theorem memRead_memWrite (d : Byte) (m : NMap Byte) (a : Nat) (bs : Bytes) : memRead d (memWrite d m a bs) a bs.length = bs := by
  refine List.ext_getElem (by simp [memRead]) fun i h₁ h₂ => ?_
  simp only [memRead, List.getElem_map, List.getElem_range]
  rw [memGet_memWrite_inside d m a i bs h₂]
  simp [h₂]

/-- A record with its COMMIT programmed at the write position, which moves on within its page. -/
theorem putRecord_effects {s : State} (rec : Bytes) (hn : s.rd KEY_BLOB_NEXT ≠ 31) : (putRecord rec s).rd KEY_BLOB_NEXT ≠ 0 ∧
    (putRecord rec s).flash = memWrite 0xFF s.flash (0x3F0000 + 128 * (32 * s.rd KEY_BLOB_PAGE + s.rd KEY_BLOB_NEXT)) rec := by
  have hlt : s.rd KEY_BLOB_NEXT < 32 := State.rd_lt s KEY_BLOB_NEXT
  refine ⟨?_, wrs_frame (k := 5) (by decide) (.refl 5 _)⟩
  unfold putRecord
  dsimp only
  rw [rd_wrs_eq (v := (32 * s.rd KEY_BLOB_PAGE + s.rd KEY_BLOB_NEXT + 1) % 32) (by simp [KEY_BLOB_PAGE, KEY_BLOB_NEXT, fld]) (by simp) (Nat.mod_lt _ (by decide)) _]
  omega

theorem result_not_blob (p : Path) : ¬ commandKeys p KEY_BLOB_ERR.key := by
  intro h
  have := commandKeys_apart p h
  revert this
  decide

/-- A STORE ends; no command waits behind it. -/
theorem storeEnds {p : Path} {r : Bytes} {s : State} (hs : s.kv.storing = some (p, r)) (hw : s.kv.waiting = []) :
    exec (.storeComplete true) s = .next (endCommand p.idx 1 [] (scanBlobs ((programRecord r (s.setKv { s.kv with storing := none })).wr KEY_BLOB_ERR 0))) ∧
    exec (.storeComplete false) s = .next (endCommand p.idx 12 [] (if (s.setKv { s.kv with storing := none }).on KEY_BLOB_ERR then s.setKv { s.kv with storing := none }
      else raise 21 5 ((s.setKv { s.kv with storing := none }).wr KEY_BLOB_ERR 1))) := by
  have hexec (ok : Bool) : exec (.storeComplete ok) s = if ok then .next (nextKeys (endCommand p.idx 1 [] (scanBlobs ((programRecord r (s.setKv { s.kv with storing := none })).wr KEY_BLOB_ERR 0))))
      else .next (nextKeys (endCommand p.idx 12 [] (if (s.setKv { s.kv with storing := none }).on KEY_BLOB_ERR then s.setKv { s.kv with storing := none }
        else raise 21 5 ((s.setKv { s.kv with storing := none }).wr KEY_BLOB_ERR 1)))) := by
    show execStoreComplete ok s = _
    unfold execStoreComplete
    rw [hs]
    rfl
  generalize ht : s.setKv { s.kv with storing := none } = t at hexec
  have hwait : t.kv.waiting = [] := by
    rw [← ht]
    exact hw
  have hend (x : Nat) {u : State} (hu : u.kv = t.kv) : nextKeys (endCommand p.idx x [] u) = endCommand p.idx x [] u :=
    nextKeys_of_nil ((congrArg Vault.waiting (Eq.trans (show (endCommand p.idx x [] u).kv = u.kv from endCommand_frame (κ := 26) rfl (.refl 26 u)) hu)).trans hwait)
  constructor
  · refine (hexec true).trans (congrArg _ (hend 1 ?_))
    have hprog : (programRecord r t).kv = t.kv := programRecord_frame (κ := 26) rfl (.refl 26 t)
    have hscan : (scanBlobs ((programRecord r t).wr KEY_BLOB_ERR 0)).kv = ((programRecord r t).wr KEY_BLOB_ERR 0).kv := scanBlobs_frame (κ := 26) rfl (.refl 26 _)
    rw [hscan]
    exact hprog
  · have hfalse := hexec false
    rw [if_neg (by decide)] at hfalse
    refine hfalse.trans (congrArg _ (hend 12 ?_))
    split
    · rfl
    · exact raise_frame (κ := 26) rfl (.refl 26 _)

theorem storeCompleted (p : Path) (r : Bytes) (s : State) (hs : s.kv.storing = some (p, r)) (hw : s.kv.waiting = []) :
    (r.length = 128 → s.rd KEY_BLOB_NEXT ≠ 31 → ∃ t, exec (.storeComplete true) s = .next t ∧ t.kv.storing = none ∧
      t.rd (KEY_STAT_RESULT p.idx) = 1 ∧ t.rd (KEY_STAT_BUSY p.idx) = 0 ∧ t.rd KEY_BLOB_ERR = 0 ∧
      blobRecord t (32 * s.rd KEY_BLOB_PAGE + s.rd KEY_BLOB_NEXT) = r.take 124 ++ leBytes 4 0x5A5AA5A5 ∧ leafSet t 21 0) ∧
    (∃ t, exec (.storeComplete false) s = .next t ∧ t.kv.storing = none ∧ t.rd (KEY_STAT_RESULT p.idx) = 12 ∧
      t.rd (KEY_STAT_BUSY p.idx) = 0 ∧ t.rd KEY_BLOB_ERR = 1 ∧ t.flash = s.flash ∧ leafSet t 21 0) := by
  obtain ⟨hdone, hfail⟩ := storeEnds hs hw
  generalize ht : s.setKv { s.kv with storing := none } = t at hdone hfail
  have hregs : t.regs = s.regs := by rw [← ht]; rfl
  have hflash : t.flash = s.flash := by rw [← ht]; rfl
  have hstoring : t.kv.storing = none := by rw [← ht]; rfl
  have hrd (f : Fld) : t.rd f = s.rd f := by rw [State.rd, hregs, State.rd]
  have hkv (x : Nat) (u : State) : (endCommand p.idx x [] u).kv = u.kv := endCommand_frame (κ := 26) rfl (.refl 26 u)
  have hfl (x : Nat) (u : State) : (endCommand p.idx x [] u).flash = u.flash := endCommand_frame (κ := 5) rfl (.refl 5 u)
  refine ⟨fun hlen hnext => ⟨_, hdone, ?_⟩, ⟨_, hfail, ?_⟩⟩
  · obtain ⟨hnz, hput⟩ := putRecord_effects (s := t) (r.take 124 ++ leBytes 4 0x5A5AA5A5) (by rw [hrd]; exact hnext)
    have hprog : programRecord r t = putRecord (r.take 124 ++ leBytes 4 0x5A5AA5A5) t := if_pos hnz
    have hpkv : (putRecord (r.take 124 ++ leBytes 4 0x5A5AA5A5) t).kv = t.kv := putRecord_frame (κ := 26) rfl (.refl 26 t)
    rw [hprog]
    generalize putRecord (r.take 124 ++ leBytes 4 0x5A5AA5A5) t = w at hput hpkv
    have herr : (scanBlobs (w.wr KEY_BLOB_ERR 0)).rd KEY_BLOB_ERR = 0 := by
      unfold scanBlobs
      dsimp only
      rw [(onlyWrites_wrs (fs := [KEY_BLOB_PAGE, KEY_BLOB_NEXT]) (by simp) _).1 _ (by decide), State.rd_wr_ne _ _ _ _ (by decide)]
      exact State.rd_wr_same w KEY_BLOB_ERR 0
    have hskv : (scanBlobs (w.wr KEY_BLOB_ERR 0)).kv = w.kv := scanBlobs_frame (κ := 26) rfl (.refl 26 _)
    have hsflash : (scanBlobs (w.wr KEY_BLOB_ERR 0)).flash = w.flash := scanBlobs_frame (κ := 5) rfl (.refl 5 _)
    generalize scanBlobs (w.wr KEY_BLOB_ERR 0) = u at herr hskv hsflash
    obtain ⟨hresult, hbusy, -, hleaf⟩ := endCommand_effects p (r := 1) (by decide) [] u
    refine ⟨?_, hresult, hbusy, ((onlyKeys_endCommand_path p 1 [] u).1 _ (result_not_blob p)).trans herr, ?_, hleaf⟩
    · rw [hkv, hskv, hpkv, hstoring]
    · have hlength : (r.take 124 ++ leBytes 4 0x5A5AA5A5).length = 128 := by simp [leBytes, hlen]
      rw [blobRecord, flashBytes, hfl, hsflash, hput, hrd, hrd, ← hlength]
      exact memRead_memWrite ..
  · have herr : (if t.on KEY_BLOB_ERR then t else raise 21 5 (t.wr KEY_BLOB_ERR 1)).rd KEY_BLOB_ERR = 1 ∧
        (if t.on KEY_BLOB_ERR then t else raise 21 5 (t.wr KEY_BLOB_ERR 1)).kv = t.kv ∧ (if t.on KEY_BLOB_ERR then t else raise 21 5 (t.wr KEY_BLOB_ERR 1)).flash = t.flash := by
      split
      · next h =>
        have hlt : t.rd KEY_BLOB_ERR < 2 := State.rd_lt t KEY_BLOB_ERR
        have hne : t.rd KEY_BLOB_ERR ≠ 0 := by simpa [State.on] using h
        exact ⟨by omega, rfl, rfl⟩
      · exact ⟨(rd_raise_ne _ _ _ _ (by decide)).trans (State.rd_wr_same t KEY_BLOB_ERR 1), raise_frame (κ := 26) rfl (.refl 26 _), raise_frame (κ := 5) rfl (.refl 5 _)⟩
    generalize (if t.on KEY_BLOB_ERR then t else raise 21 5 (t.wr KEY_BLOB_ERR 1)) = u at herr
    obtain ⟨hone, hukv, huflash⟩ := herr
    obtain ⟨hresult, hbusy, -, hleaf⟩ := endCommand_effects p (r := 12) (by decide) [] u
    refine ⟨?_, hresult, hbusy, ((onlyKeys_endCommand_path p 12 [] u).1 _ (result_not_blob p)).trans hone, ?_, hleaf⟩
    · rw [hkv, hukv, hstoring]
    · rw [hfl, huflash, hflash]

/-- Settles O59. -/
theorem storesEndAndAlarmsLatch : Obligations.StoresEndAndAlarmsLatch := by
  unfold Obligations.StoresEndAndAlarmsLatch
  refine ⟨fun p r s _ hs hw => storeCompleted p r s hs hw, fun ok s hs => ?_, alarmTaken⟩
  show execStoreComplete ok s = _
  unfold execStoreComplete
  rw [hs]

end Sys2Proof.Machine
end

section
set_option Elab.async false
/-! The commands of the key vault: how they are taken, what each leaves, and when they wait (chapter 19). -/

namespace Sys2Proof.Machine

open Sys2Proof Sys2Proof.Laws

/-! ### A command as it is taken (R497, R505) -/

theorem decode_keyCmd (p : Path) : decodeFor p.idx 0x60000 = some (.KEY_CMD, p.idx, 0) := by
  have h : decodeAddr 0x60000 = some (.KEY_CMD, 0, 0) := by decide +kernel
  simp [decodeFor, h, perPath]

/-- The command as the vault finds it. -/
def commanded (p : Path) (op v : Nat) (s : State) : State :=
  (((s.wr (KEY_CMD_SLOT p.idx) (bits v 20 16)).wr (KEY_CMD_ARG p.idx) (bits v 15 8)).wr (KEY_CMD_OP p.idx) op).wrs [(KEY_CMD_GO p.idx, 1), (KEY_STAT_BUSY p.idx, 1)]

/-- The fields of a path's command. -/
def commandFields (p : Path) : List Fld := [KEY_CMD_GO p.idx, KEY_CMD_OP p.idx, KEY_CMD_SLOT p.idx, KEY_CMD_ARG p.idx, KEY_STAT_BUSY p.idx]

theorem commandFields_nodup : ∀ p : Path, ((commandFields p).map Fld.key).Nodup := by
  intro p
  cases p <;> decide

theorem onlyWrites_commanded (p : Path) (op v : Nat) (s : State) : onlyWrites (commandFields p) [] s (commanded p op v s) := by
  have hwr (f : Fld) (x : Nat) (t : State) (hf : f ∈ commandFields p) : onlyWrites (commandFields p) [] t (t.wr f x) := (onlyWrites_wr f x t).mono (by simpa using hf) (by simp)
  exact (((hwr _ _ s (by simp [commandFields])).trans (hwr _ _ _ (by simp [commandFields]))).trans (hwr _ _ _ (by simp [commandFields]))).trans
    (onlyWrites_wrs (by simp [commandFields]) _)

theorem commanded_effects (p : Path) {op : Nat} (hop : op < 16) (v : Nat) (s : State) : (commanded p op v s).rd (KEY_CMD_OP p.idx) = op ∧
    (commanded p op v s).rd (KEY_CMD_SLOT p.idx) = bits v 20 16 ∧ (commanded p op v s).rd (KEY_CMD_ARG p.idx) = bits v 15 8 ∧
    (commanded p op v s).rd (KEY_STAT_BUSY p.idx) = 1 ∧ (commanded p op v s).kv = s.kv := by
  have hnodup := commandFields_nodup p
  simp only [commandFields, List.map_cons, List.map_nil, List.nodup_cons, List.mem_cons, List.not_mem_nil, or_false, not_or, List.nodup_nil, not_false_eq_true, and_true] at hnodup
  obtain ⟨⟨hgo, hgs, hga, hgb⟩, ⟨hos, hoa, hob⟩, ⟨hsa, hsb⟩, hab⟩ := hnodup
  have hlast (f : Fld) (h1 : f.key ≠ (KEY_CMD_GO p.idx).key) (h2 : f.key ≠ (KEY_STAT_BUSY p.idx).key) (t : State) :
      (t.wrs [(KEY_CMD_GO p.idx, 1), (KEY_STAT_BUSY p.idx, 1)]).rd f = t.rd f := State.rd_wrs_ne t _ f (by simpa using ⟨h1, h2⟩)
  unfold commanded
  refine ⟨?_, ?_, ?_, ?_, wrs_frame (k := 26) (by decide) (.refl 26 _)⟩
  · rw [hlast _ (Ne.symm hgo) hob]
    exact rd_wr_of_lt _ _ _ hop
  · rw [hlast _ (Ne.symm hgs) hsb, State.rd_wr_ne _ _ _ _ (Ne.symm hos), State.rd_wr_ne _ _ _ _ hsa]
    exact rd_wr_of_lt _ _ _ (bits_lt v 20 16)
  · rw [hlast _ (Ne.symm hga) hab, State.rd_wr_ne _ _ _ _ (Ne.symm hoa)]
    exact rd_wr_of_lt _ _ _ (bits_lt v 15 8)
  · exact rd_wrs_eq (by simpa using hgb) (by simp) (show 1 < 2 ^ 1 by decide) _

theorem pathWrite_keyCmd {p : Path} {s : State} (h : plainly s p 0x60000) (v : Nat) : pathWrite p 0x60000 v s = wrKeyCmd p v s :=
  pathWrite_of_plainly h (by decide) (decode_keyCmd p) rfl

theorem wrKeyCmd_busy {p : Path} {s : State} (h : s.on (KEY_STAT_BUSY p.idx) = true) (v : Nat) : wrKeyCmd p v s = s := if_pos h

/-- A field of the command takes its value: every value fits. -/
theorem wrField_commandField {f : Fld} {s : State} {x : Nat} (hu : unbounded s 0x60000) (hlo : f.lo = 0) (hx : x ≤ f.hi) : wrField 0x60000 f x s = s.wr f x :=
  wrField_of_unbounded hu (by rw [hlo]; exact Nat.zero_le x) hx

/-- The state as GO finds it. -/
def settled (p : Path) (op v : Nat) (s : State) : State := ((s.wr (KEY_CMD_SLOT p.idx) (bits v 20 16)).wr (KEY_CMD_ARG p.idx) (bits v 15 8)).wr (KEY_CMD_OP p.idx) op

theorem commanded_eq (p : Path) (op v : Nat) (s : State) : commanded p op v s = (settled p op v s).wrs [(KEY_CMD_GO p.idx, 1), (KEY_STAT_BUSY p.idx, 1)] := rfl

theorem settled_of_unbounded {p : Path} {op v : Nat} {s : State} (hu : unbounded s 0x60000) (hop : op ≤ 15) : wrField 0x60000 (KEY_CMD_OP p.idx) op
    (wrField 0x60000 (KEY_CMD_ARG p.idx) (bits v 15 8) (wrField 0x60000 (KEY_CMD_SLOT p.idx) (bits v 20 16) s)) = settled p op v s := by
  rw [wrField_commandField (f := KEY_CMD_SLOT p.idx) hu rfl (Nat.le_of_lt_succ (bits_lt v 20 16)), wrField_commandField (f := KEY_CMD_ARG p.idx) (unbounded_wr hu _ _) rfl (Nat.le_of_lt_succ (bits_lt v 15 8)),
    wrField_commandField (f := KEY_CMD_OP p.idx) (unbounded_wr (unbounded_wr hu _ _) _ _) rfl hop]
  rfl

/-- The word `w` names the command `op`, with the rest as in `v`. -/
structure namesCommand (op v w : Nat) : Prop where
  op_eq : bits w 27 24 = op
  slot_eq : bits w 20 16 = bits v 20 16
  arg_eq : bits w 15 8 = bits v 15 8
  go_eq : bit w 31 = true

theorem namesCommand_keyWord {op : Nat} (hop : op < 16) (v : Nat) : namesCommand op v (keyWord op v) := by
  have hgo : keyWord op v / 2 ^ 31 % 2 = 1 := by
    unfold keyWord
    omega
  refine ⟨?_, ?_, ?_, by rw [bit, hgo]; rfl⟩
  all_goals
    simp only [bits, keyWord]
    omega

theorem wrKeyCmd_queued {p : Path} {s : State} {w op v : Nat} (hb : s.on (KEY_STAT_BUSY p.idx) = false) (h1 : 1 ≤ op) (h6 : op ≤ 6) (hu : unbounded s 0x60000)
    (hword : namesCommand op v w) :
    wrKeyCmd p w s = drainKeys ((commanded p op v s).kv.waiting ++ [p]) ((commanded p op v s).setKv { (commanded p op v s).kv with waiting := [] }) := by
  have hrd : (settled p op v s).rd (KEY_CMD_OP p.idx) = op := rd_wr_of_lt _ _ _ (show op < 2 ^ 4 by omega)
  unfold wrKeyCmd
  dsimp only
  rw [if_neg (by simp [hb]), hword.op_eq, hword.slot_eq, hword.arg_eq, if_neg (by omega), settled_of_unbounded hu (by omega), hrd, if_neg (by simp [hword.go_eq]; omega), ← commanded_eq, State.setKv]

theorem noneWaiting {t : State} (h : t.kv.waiting = []) : t.setKv { t.kv with waiting := [] } = t := by
  obtain ⟨_, _, _, _, _, _, _, _, _, _, _, _, _, _, _, _, _, _, _, _, _, _, _, _, _, _, ⟨⟩, _⟩ := t
  cases h
  rfl

theorem wrKeyCmd_taken {p : Path} {s : State} {w op v : Nat} (hu : unbounded s 0x60000) (hb : s.on (KEY_STAT_BUSY p.idx) = false) (hw : s.kv.waiting = []) (h1 : 1 ≤ op) (h6 : op ≤ 6)
    (hword : namesCommand op v w) : wrKeyCmd p w s = drainKeys [p] (commanded p op v s) := by
  have hkv : (commanded p op v s).kv = s.kv := (commanded_effects p (by omega) v s).2.2.2.2
  rw [wrKeyCmd_queued hb h1 h6 hu hword]
  generalize commanded p op v s = t at hkv ⊢
  rw [noneWaiting (hkv ▸ hw), hkv, hw, List.nil_append]

/-- What the vault answers by: the state as the command was taken, but for the command's own fields. -/
structure atVault (p : Path) (op v : Nat) (s u : State) : Prop where
  op_eq : u.rd (KEY_CMD_OP p.idx) = op
  slot_eq : u.rd (KEY_CMD_SLOT p.idx) = bits v 20 16
  arg_eq : u.rd (KEY_CMD_ARG p.idx) = bits v 15 8
  busy_eq : u.rd (KEY_STAT_BUSY p.idx) = 1
  kv_eq : u.kv = s.kv
  flash_eq : u.flash = s.flash
  ld_eq : u.ld = s.ld
  rd_eq : ∀ f : Fld, f.key ∉ (commandFields p).map Fld.key → u.rd f = s.rd f

theorem atVault_commanded (p : Path) {op : Nat} (hop : op < 16) (v : Nat) (s : State) : atVault p op v s (commanded p op v s) := by
  obtain ⟨ho, hs, ha, hb, hkv⟩ := commanded_effects p hop v s
  have honly := onlyWrites_commanded p op v s
  exact ⟨ho, hs, ha, hb, hkv, honly.2 .flash (by simp), honly.2 .ld (by simp), fun f hf => honly.1 f fun g hg e => hf (e ▸ List.mem_map_of_mem hg)⟩

theorem drainKeys_free {p : Path} {s : State} (hst : s.kv.storing = none) (hh : holdsOff s 16 = false) : drainKeys [p] s = runCommand p s := by
  rw [drainKeys, if_neg (by simp [hst, hh]), drainKeys]

theorem drainKeys_held {p : Path} {s : State} (h : s.kv.storing.isSome = true ∨ holdsOff s 16 = true) :
    drainKeys [p] s = s.setKv { s.kv with waiting := [p] } := by
  rw [drainKeys, if_pos (by simpa using h), State.setKv]

/-- The fields that the vault's state is shown by, and that a command reads, are none of the command's own. -/
theorem commandFields_apart (p : Path) : (∀ f ∈ [KEY_VAULT_KEKV, KEY_VAULT_STHOLD, KEY_VAULT_FROZEN, KEY_VAULT_HALT, FUSE_KEYPOL_V, CFG_STATUS_LOADED, CFG_STATUS_SVN,
    FUSE_UID_V 0, FUSE_UID_V 1, PST_PSSTAT_PHASE, KEY_STAT_SEQ p.idx], f.key ∉ (commandFields p).map Fld.key) ∧
    (∀ j < 32, (KEY_DATA_DATA p.idx j).key ∉ (commandFields p).map Fld.key) ∧
    ∀ n < 32, (KEY_SLOT_STATE n).key ∉ (commandFields p).map Fld.key ∧ (KEY_SLOT_LEN n).key ∉ (commandFields p).map Fld.key := by
  refine ⟨?_, fun j hj => ?_, fun n hn => ?_⟩
  · cases p <;> decide
  · simp only [commandFields, List.map_cons, List.map_nil, List.mem_cons, List.not_mem_nil, or_false, KEY_DATA_DATA, KEY_CMD_GO, KEY_CMD_OP, KEY_CMD_SLOT, KEY_CMD_ARG, KEY_STAT_BUSY,
      fld]
    omega
  · cases p
    all_goals
      simp only [commandFields, List.map_cons, List.map_nil, List.mem_cons, List.not_mem_nil, or_false, KEY_SLOT_STATE, KEY_SLOT_LEN, KEY_CMD_GO, KEY_CMD_OP, KEY_CMD_SLOT,
        KEY_CMD_ARG, KEY_STAT_BUSY, fld, Path.idx, instanceAddr, not_or]
      omega

theorem holdsOff_commanded (p : Path) (op v : Nat) (s : State) : holdsOff (commanded p op v s) 16 = holdsOff s 16 := by
  have honly := onlyWrites_commanded p op v s
  have hps : (commanded p op v s).ps = s.ps := honly.2 .ps (by simp)
  have hphase : (commanded p op v s).rd PST_PSSTAT_PHASE = s.rd PST_PSSTAT_PHASE :=
    honly.1 _ fun g hg e => (commandFields_apart p).1 PST_PSSTAT_PHASE (by simp) (e ▸ List.mem_map_of_mem hg)
  rw [holdsOff, holdsOff, hps, hphase]

/-- A command of a free path and a free vault runs at once. -/
theorem command_runs {p : Path} {s : State} {op : Nat} (h : plainly s p 0x60000) (hb : s.on (KEY_STAT_BUSY p.idx) = false) (hst : s.kv.storing = none) (hh : holdsOff s 16 = false)
    (hw : s.kv.waiting = []) (h1 : 1 ≤ op) (h6 : op ≤ 6) (v : Nat) :
    ∃ u, atVault p op v s u ∧ pathWrite p 0x60000 (keyWord op v) s = runCommand p u := by
  have hat := atVault_commanded p (show op < 16 by omega) v s
  refine ⟨_, hat, ?_⟩
  rw [pathWrite_keyCmd h, wrKeyCmd_taken h.2 hb hw h1 h6 (namesCommand_keyWord (by omega) v), drainKeys_free (by rw [hat.kv_eq]; exact hst) (by rw [holdsOff_commanded]; exact hh)]

/-! ### A slot as it is written (R489) -/

/-- The fields of a slot. -/
def slotFields (n : Nat) : List Fld := [KEY_SLOT_STATE n, KEY_SLOT_KEYID n, KEY_SLOT_LEN n, KEY_SLOT_GEN n, KEY_TAG_TAG n]

theorem slotFields_apart (p : Path) {n : Nat} (hn : n < 32) : ∀ f ∈ slotFields n, ¬ commandKeys p f.key := by
  intro f hf h
  obtain ⟨hslot, hleaf⟩ := slot_fields hn f hf
  have hrange : 0x300800 ≤ f.key ∧ f.key < 0x301000 := by
    revert f
    simp only [slotFields, List.forall_mem_cons, List.not_mem_nil, false_implies, implies_true, and_true, KEY_SLOT_STATE, KEY_SLOT_KEYID, KEY_SLOT_LEN, KEY_SLOT_GEN, KEY_TAG_TAG, fld]
    omega
  rcases commandKeys_apart p h with hk | hk | hk
  · exact hleaf hk
  · omega
  · omega

theorem setSlot_of_ne {n : Nat} (h0 : n ≠ 0) (st keyid len gen : Nat) (v : Bytes) (s : State) : setSlot n st keyid len gen v s =
    (s.wrs [(KEY_SLOT_STATE n, st), (KEY_SLOT_KEYID n, keyid), (KEY_SLOT_LEN n, len), (KEY_SLOT_GEN n, gen), (KEY_TAG_TAG n, slotTag n v)]).setKv
      { s.kv with slots := mput [] s.kv.slots n v } := by
  have hkv : (s.wrs [(KEY_SLOT_STATE n, st), (KEY_SLOT_KEYID n, keyid), (KEY_SLOT_LEN n, len), (KEY_SLOT_GEN n, gen), (KEY_TAG_TAG n, slotTag n v)]).kv = s.kv :=
    wrs_frame (k := 26) (by decide) (.refl 26 _)
  unfold setSlot
  dsimp only
  rw [if_neg h0, hkv]
  rfl

theorem slotFields_nodup (n : Nat) : ((slotFields n).map Fld.key).Nodup := by
  simp only [slotFields, List.map_cons, List.map_nil, List.nodup_cons, List.mem_cons, List.not_mem_nil, or_false, not_or, KEY_SLOT_STATE, KEY_SLOT_KEYID, KEY_SLOT_LEN, KEY_SLOT_GEN,
    KEY_TAG_TAG, fld, List.nodup_nil, not_false_eq_true, and_true]
  omega

/-- A slot written shows its words. -/
theorem rd_setSlot {n st keyid len gen : Nat} {v : Bytes} (h0 : n ≠ 0) {f : Fld} {x : Nat}
    (hf : (f, x) ∈ [(KEY_SLOT_STATE n, st), (KEY_SLOT_KEYID n, keyid), (KEY_SLOT_LEN n, len), (KEY_SLOT_GEN n, gen), (KEY_TAG_TAG n, slotTag n v)]) (hx : x < 2 ^ f.w) (s : State) :
    (setSlot n st keyid len gen v s).rd f = x := by
  have hnodup : ([(KEY_SLOT_STATE n, st), (KEY_SLOT_KEYID n, keyid), (KEY_SLOT_LEN n, len), (KEY_SLOT_GEN n, gen), (KEY_TAG_TAG n, slotTag n v)].map fun x => x.1.key).Nodup :=
    slotFields_nodup n
  rw [setSlot_of_ne h0]
  exact rd_wrs_eq hnodup hf hx s

theorem rd_setSlot_ne {n : Nat} (h0 : n ≠ 0) (st keyid len gen : Nat) (v : Bytes) (s : State) {f : Fld} (hf : ∀ g ∈ slotFields n, f.key ≠ g.key) :
    (setSlot n st keyid len gen v s).rd f = s.rd f := by
  rw [setSlot_of_ne h0]
  exact (onlyWrites_wrs (fs := slotFields n) (by simp [slotFields]) s).1 f hf

theorem kv_setSlot {n : Nat} (h0 : n ≠ 0) (st keyid len gen : Nat) (v : Bytes) (s : State) :
    (setSlot n st keyid len gen v s).kv = { s.kv with slots := mput [] s.kv.slots n v } := by
  rw [setSlot_of_ne h0]
  rfl

theorem slotFields_distinct {n m : Nat} (hn : n < 32) (hm : m < 32) (h : m ≠ n) : ∀ f ∈ slotFields m, ∀ g ∈ slotFields n, f.key ≠ g.key := by
  simp only [slotFields, List.forall_mem_cons, List.not_mem_nil, false_implies, implies_true, and_true, KEY_SLOT_STATE, KEY_SLOT_KEYID, KEY_SLOT_LEN, KEY_SLOT_GEN, KEY_TAG_TAG, fld]
  omega

/-! ### What a command reads (R491 to R500) -/

section
variable {p : Path} {op v : Nat} {s u : State} (h : atVault p op v s u)
include h

theorem atVault.on_eq {f : Fld} (hf : f ∈ [KEY_VAULT_KEKV, KEY_VAULT_STHOLD, KEY_VAULT_FROZEN, KEY_VAULT_HALT, CFG_STATUS_LOADED]) : u.on f = s.on f :=
  congrArg (fun x => decide (x ≠ 0)) (h.rd_eq f ((commandFields_apart p).1 f (by simp at hf ⊢; tauto)))

theorem atVault.kek_eq : kek u = kek s := by
  rw [kek, kek, h.on_eq (by simp), h.kv_eq]

theorem atVault.unwrapRecord_eq (r : Bytes) : unwrapRecord u r = unwrapRecord s r := by
  rw [unwrapRecord, unwrapRecord, h.kek_eq]

theorem atVault.recordCode_eq (r : Bytes) : recordCode u r = recordCode s r := by
  unfold recordCode
  rw [h.unwrapRecord_eq]

theorem atVault.currentRecord_eq (k : Nat) : currentRecord u k = currentRecord s k := by
  unfold currentRecord recordComplete blobRecord flashBytes
  simp only [h.recordCode_eq, h.flash_eq]

theorem atVault.keyRecord_eq (k : Nat) : keyRecord u k = keyRecord s k := by
  rw [keyRecord, keyRecord, h.currentRecord_eq]

theorem atVault.keyData_eq (n : Nat) : keyData u p.idx n = keyData s p.idx n := by
  have hwords : ((List.range 32).flatMap fun j => leBytes 4 (u.rd (KEY_DATA_DATA p.idx j))) = (List.range 32).flatMap fun j => leBytes 4 (s.rd (KEY_DATA_DATA p.idx j)) := by
    refine List.flatMap_congr fun j hj => ?_
    rw [h.rd_eq _ ((commandFields_apart p).2.1 j (List.mem_range.1 hj))]
  rw [keyData, keyData, hwords]

theorem atVault.slotKey_eq {n : Nat} (hn : n < 32) : slotKey u n = slotKey s n := by
  rw [slotKey, slotKey, h.kv_eq, h.rd_eq _ ((commandFields_apart p).2.2 n hn).2]

theorem atVault.attestMessage_eq (challenge : Bytes) : attestMessage u challenge 0 = attestMessage s challenge 0 := by
  have hfld (f : Fld) (hf : f ∈ [CFG_STATUS_SVN, FUSE_UID_V 0, FUSE_UID_V 1]) : u.rd f = s.rd f := h.rd_eq f ((commandFields_apart p).1 f (by simp at hf ⊢; tauto))
  unfold attestMessage uidBytes
  rw [h.ld_eq, hfld _ (by simp), hfld _ (by simp), hfld _ (by simp)]
  rfl

theorem atVault.seq_eq : u.rd (KEY_STAT_SEQ p.idx) = s.rd (KEY_STAT_SEQ p.idx) := h.rd_eq _ ((commandFields_apart p).1 _ (by simp))

end

/-! ### The commands (R495 to R500, R502) -/

/-- The GEN of the current record, 0 with none. -/
def currentGen (s : State) (k : Nat) : Nat := match currentRecord s k with | some b => leAt b 8 4 | none => 0

theorem runCommand_held {p : Path} {u : State} (h : u.on KEY_VAULT_FROZEN = true ∨ u.on KEY_VAULT_HALT = true) : runCommand p u = endCommand p.idx 11 [] u := by
  unfold runCommand
  dsimp only
  rw [if_pos (by simpa using h)]

section
variable {p : Path} {u : State} (hf : u.on KEY_VAULT_FROZEN = false) (hh : u.on KEY_VAULT_HALT = false)
include hf hh

theorem runCommand_load (hop : u.rd (KEY_CMD_OP p.idx) = 1) : runCommand p u =
    if u.rd (KEY_CMD_ARG p.idx) = 0 ∨ 4 < u.rd (KEY_CMD_ARG p.idx) then endCommand p.idx 3 [] u
    else if !u.on KEY_VAULT_KEKV || u.on KEY_VAULT_STHOLD then endCommand p.idx 11 [] u
    else endCommand p.idx (loadKey (u.rd (KEY_CMD_ARG p.idx)) u).1 [] (loadKey (u.rd (KEY_CMD_ARG p.idx)) u).2 := by
  unfold runCommand
  dsimp only
  rw [if_neg (by simp [hf, hh]), hop]
  rfl

theorem runCommand_keyWrite (hop : u.rd (KEY_CMD_OP p.idx) = 2) : runCommand p u =
    if !bit (u.rd FUSE_KEYPOL_V) 0 ∨ p ≠ .p43 then endCommand p.idx 2 [] u
    else if u.rd (KEY_CMD_SLOT p.idx) < 2 ∨ 5 < u.rd (KEY_CMD_SLOT p.idx) ∨ !([32, 48, 64].contains (u.rd (KEY_CMD_ARG p.idx))) then endCommand p.idx 3 [] u
    else endCommand p.idx 1 [] (setSlot (u.rd (KEY_CMD_SLOT p.idx)) 2 0 (u.rd (KEY_CMD_ARG p.idx)) 0 (keyData u p.idx (u.rd (KEY_CMD_ARG p.idx))) u) := by
  unfold runCommand
  dsimp only
  rw [if_neg (by simp [hf, hh]), hop]
  rfl

theorem runCommand_store (hop : u.rd (KEY_CMD_OP p.idx) = 3) : runCommand p u =
    if !u.on KEY_VAULT_KEKV || u.on KEY_VAULT_STHOLD then endCommand p.idx 11 [] u
    else if recordCode u (keyData u p.idx 128) ≠ 1 then endCommand p.idx (recordCode u (keyData u p.idx 128)) [] u
    else if leAt (keyData u p.idx 128) 8 4 ≤ currentGen u (byteAt (keyData u p.idx 128) 4) then endCommand p.idx 7 [] u
    else (clearSlot 31 u).setKv { (clearSlot 31 u).kv with storing := some (p, keyData u p.idx 128) } := by
  unfold runCommand
  dsimp only
  rw [if_neg (by simp [hf, hh]), hop]
  unfold currentGen
  generalize currentRecord u (byteAt (keyData u p.idx 128) 4) = r
  rfl

theorem runCommand_destroy (hop : u.rd (KEY_CMD_OP p.idx) = 4) : runCommand p u =
    if u.rd (KEY_CMD_SLOT p.idx) < 2 ∨ 5 < u.rd (KEY_CMD_SLOT p.idx) then endCommand p.idx 3 [] u
    else endCommand p.idx 1 [] ((clearSlot (u.rd (KEY_CMD_SLOT p.idx)) u).wr KEY_ZTAG_TAG (slotTag (u.rd (KEY_CMD_SLOT p.idx)) [])) := by
  unfold runCommand
  dsimp only
  rw [if_neg (by simp [hf, hh]), hop]
  rfl

theorem runCommand_attest (hop : u.rd (KEY_CMD_OP p.idx) = 5) : runCommand p u =
    if !u.on KEY_VAULT_KEKV || u.on KEY_VAULT_STHOLD then endCommand p.idx 11 [] u
    else endCommand p.idx (attest p.idx u).1 (attest p.idx u).2.1 (attest p.idx u).2.2 := by
  unfold runCommand
  dsimp only
  rw [if_neg (by simp [hf, hh]), hop]
  rfl

theorem runCommand_zeroise (hop : u.rd (KEY_CMD_OP p.idx) = 6) : runCommand p u = endCommand p.idx 1 [] (zeroise u) := by
  unfold runCommand
  dsimp only
  rw [if_neg (by simp [hf, hh]), hop]
  rfl

end

/-! ### What each command leaves (R495 to R500) -/

theorem kv_endCommand (p : Path) (r : Nat) (resp : Bytes) (s : State) : (endCommand p.idx r resp s).kv = s.kv :=
  endCommand_frame (κ := 26) rfl (.refl 26 s)

theorem rd_endCommand_slot (p : Path) {n : Nat} (hn : n < 32) (r : Nat) (resp : Bytes) (s : State) : ∀ f ∈ slotFields n, (endCommand p.idx r resp s).rd f = s.rd f :=
  fun f hf => (onlyKeys_endCommand_path p r resp s).1 f (slotFields_apart p hn f hf)

theorem seq_setSlot (p : Path) {n : Nat} (h0 : n ≠ 0) (hn : n < 32) (st keyid len gen : Nat) (v : Bytes) (s : State) :
    (setSlot n st keyid len gen v s).rd (KEY_STAT_SEQ p.idx) = s.rd (KEY_STAT_SEQ p.idx) :=
  rd_setSlot_ne h0 st keyid len gen v s fun g hg e => slotFields_apart p hn g hg (e ▸ .inr (.inl (by simp)))

/-- The record's key comes into its slot. -/
theorem loadKey_done {k : Nat} (h1 : 1 ≤ k) (h4 : k ≤ 4) {u : State} {r x : Bytes} (hr : keyRecord u k = some r) (hx : unwrapRecord u r = some x) :
    (loadKey k u).1 = 1 ∧ (loadKey k u).2.rd (KEY_SLOT_STATE (1 + k)) = 2 ∧ (loadKey k u).2.rd (KEY_SLOT_KEYID (1 + k)) = k ∧
    mget [] (loadKey k u).2.kv.slots (1 + k) = x.drop 8 ∧ ∀ p : Path, (loadKey k u).2.rd (KEY_STAT_SEQ p.idx) = u.rd (KEY_STAT_SEQ p.idx) := by
  have h0 : 1 + k ≠ 0 := by omega
  have hn : 1 + k < 32 := by omega
  have h31 : 1 + k ≠ 31 := by omega
  have hload : loadKey k u = (1, if bit (u.rd FUSE_KEYPOL_V) 0 then setSlot (1 + k) 2 k (8 * byteAt r 5) (leAt r 8 2) (x.drop 8) u
      else clearSlot 31 (setSlot (1 + k) 2 k (8 * byteAt r 5) (leAt r 8 2) (x.drop 8) u)) := by
    unfold loadKey
    rw [hr]
    dsimp only
    rw [hx]
  have hstate := slotState_setSlot (1 + k) 2 k (8 * byteAt r 5) (leAt r 8 2) (x.drop 8) u (by decide)
  have hid : (setSlot (1 + k) 2 k (8 * byteAt r 5) (leAt r 8 2) (x.drop 8) u).rd (KEY_SLOT_KEYID (1 + k)) = k := rd_setSlot h0 (by simp) (show k < 2 ^ 4 by omega) u
  have hkv := kv_setSlot h0 2 k (8 * byteAt r 5) (leAt r 8 2) (x.drop 8) u
  have hseq (p : Path) := seq_setSlot p h0 hn 2 k (8 * byteAt r 5) (leAt r 8 2) (x.drop 8) u
  have hslot : mget [] (setSlot (1 + k) 2 k (8 * byteAt r 5) (leAt r 8 2) (x.drop 8) u).kv.slots (1 + k) = x.drop 8 := by
    rw [hkv]
    exact mget_mput_same ..
  rw [hload]
  generalize setSlot (1 + k) 2 k (8 * byteAt r 5) (leAt r 8 2) (x.drop 8) u = t at hstate hid hseq hslot
  refine ⟨rfl, ?_⟩
  dsimp only
  split
  · exact ⟨hstate, hid, hslot, hseq⟩
  · have hkeep (f : Fld) (hf : f ∈ slotFields (1 + k)) : (clearSlot 31 t).rd f = t.rd f :=
      rd_setSlot_ne (by decide) 0 0 0 0 [] t (slotFields_distinct (by decide) hn h31 f hf)
    refine ⟨(hkeep _ (by simp [slotFields])).trans hstate, (hkeep _ (by simp [slotFields])).trans hid, ?_, fun p => (seq_setSlot p (by decide) (by decide) 0 0 0 0 [] t).trans (hseq p)⟩
    rw [clearSlot, kv_setSlot (by decide)]
    show mget [] (mput [] t.kv.slots 31 []) (1 + k) = _
    exact (mget_mput_ne _ _ _ _ _ _ h31).trans hslot

/-- What the commands that end at once have in common. -/
def endsWith (p : Path) (r : Nat) (s t : State) : Prop := t.rd (KEY_STAT_RESULT p.idx) = r ∧ t.rd (KEY_STAT_BUSY p.idx) = 0 ∧
  t.rd (KEY_STAT_SEQ p.idx) = (s.rd (KEY_STAT_SEQ p.idx) + 1) % 65536 ∧ leafSet t 21 0

/-- The response of a command that is done (R505). -/
theorem response_endCommand (p : Path) {j : Nat} (hj : j < 8) (resp : Bytes) (s : State) : (endCommand p.idx 1 resp s).rd (KEY_RESP_RESP p.idx j) = leAt resp (4 * j) 4 % 2 ^ 32 := by
  have hleaf : ¬ leafKey (KEY_RESP_RESP p.idx j).key := by
    have := (data_fields p (j := j) (by omega) (KEY_RESP_RESP p.idx j) (by simp [Nat.mod_eq_of_lt hj])).2
    exact this
  rw [endCommand_eq, rd_raise_ne _ _ _ _ (ne_evstat hleaf 21)]
  generalize forAll (List.range 32) (fun j u => u.wr (KEY_DATA_DATA p.idx j) 0) (statEnded p.idx 1 s) = t
  refine forAll_establishes (P := fun u => u.rd (KEY_RESP_RESP p.idx j) = leAt resp (4 * j) 4 % 2 ^ 32) t (List.mem_range.2 hj) (fun u => State.rd_wr_same u _ _) fun i _ u hu => ?_
  by_cases he : i = j
  · rw [he]
    exact State.rd_wr_same u _ _
  · refine (State.rd_wr_ne _ _ _ _ ?_).trans hu
    simp only [KEY_RESP_RESP, fld]
    omega

theorem endsWith_plain {p : Path} {op v : Nat} {s u : State} (h : atVault p op v s u) {r : Nat} (hr : r < 16) (resp : Bytes) : endsWith p r s (endCommand p.idx r resp u) := by
  obtain ⟨hres, hbusy, hseq, hleaf⟩ := endCommand_effects p hr resp u
  exact ⟨hres, hbusy, hseq.trans (by rw [h.seq_eq]), hleaf⟩

/-- A record that passes has a GEN above 0 (R493). -/
theorem gen_ne_zero {s : State} {r : Bytes} (h : recordCode s r = 1) : leAt r 8 4 ≠ 0 := by
  intro h0
  unfold recordCode at h
  rw [if_pos (by simp [h0])] at h
  exact absurd h (by decide)

theorem recordCode_lt (s : State) (r : Bytes) : recordCode s r < 16 := by
  unfold recordCode
  dsimp only
  split
  · decide
  · split
    · split <;> decide
    · split
      · decide
      · split
        · decide
        · split <;> decide

theorem zeroised_dropKey (s : State) : (dropKey s).kv.zeroised = s.kv.zeroised := by
  unfold dropKey
  split
  · rfl
  · have hkv : (clearSlot 1 s).kv = { s.kv with slots := mput [] s.kv.slots 1 [] } := kv_setSlot (by decide) 0 0 0 0 [] s
    rw [hkv]

theorem zeroised_keysLost (s : State) : (keysLost s).kv.zeroised = s.kv.zeroised := by
  have hload := (loadStopped_effects s).2.1
  rw [keysLost_eq]
  generalize loadStopped s = t at hload
  have hcheck : (if t.ld.check.isSome then stopCheck t else t).kv = t.kv := by
    split <;> rfl
  generalize (if t.ld.check.isSome then stopCheck t else t) = u at hcheck
  have hreload : (abortReload 9 (dropKey u)).kv.zeroised = (dropKey u).kv.zeroised := by
    rcases abortReload_cases 9 (dropKey u) with h | h
    · rw [h]
    · rw [h, zeroised_dropKey]
      rfl
  rw [hreload, zeroised_dropKey, hcheck, hload]

/-- The mark of a zeroise outlasts what the loss of the links and of the load does to the vault. -/
theorem zeroised_zeroise (s : State) : (zeroise s).kv.zeroised = true := by
  rw [zeroise_eq, zeroised_keysLost]
  generalize slotsZeroised s = t
  have hlinks : (dropLinks (t.setKv { t.kv with zeroised := true })).kv = (t.setKv { t.kv with zeroised := true }).kv := dropLinks_frame (κ := 26) rfl (.refl 26 _)
  rw [hlinks]
  rfl

section
variable {p : Path} {v : Nat} {s u : State} (hf : s.on KEY_VAULT_FROZEN = false) (hh : s.on KEY_VAULT_HALT = false)
include hf hh

theorem load_done (h : atVault p 1 v s u) (hk : s.on KEY_VAULT_KEKV = true) (hs : s.on KEY_VAULT_STHOLD = false) (h1 : 1 ≤ bits v 15 8) (h4 : bits v 15 8 ≤ 4) {r x : Bytes}
    (hr : keyRecord s (bits v 15 8) = some r) (hx : unwrapRecord s r = some x) : endsWith p 1 s (runCommand p u) ∧
    (runCommand p u).rd (KEY_SLOT_STATE (1 + bits v 15 8)) = 2 ∧ (runCommand p u).rd (KEY_SLOT_KEYID (1 + bits v 15 8)) = bits v 15 8 ∧
    mget [] (runCommand p u).kv.slots (1 + bits v 15 8) = x.drop 8 := by
  obtain ⟨hres, hstate, hid, hslot, hseq⟩ := loadKey_done h1 h4 ((h.keyRecord_eq _).trans hr) ((h.unwrapRecord_eq r).trans hx)
  have hrun : runCommand p u = endCommand p.idx 1 [] (loadKey (bits v 15 8) u).2 := by
    rw [runCommand_load ((h.on_eq (by simp)).trans hf) ((h.on_eq (by simp)).trans hh) h.op_eq, h.arg_eq, if_neg (by omega), if_neg (by simp [h.on_eq, hk, hs]), hres]
  rw [hrun]
  generalize (loadKey (bits v 15 8) u).2 = t at hstate hid hslot hseq
  obtain ⟨eres, ebusy, eseq, eleaf⟩ := endCommand_effects p (show 1 < 16 by decide) [] t
  have hkeep := rd_endCommand_slot p (show 1 + bits v 15 8 < 32 by omega) 1 [] t
  refine ⟨⟨eres, ebusy, by rw [eseq, hseq p, h.seq_eq], eleaf⟩, (hkeep _ (by simp [slotFields])).trans hstate, (hkeep _ (by simp [slotFields])).trans hid, ?_⟩
  rw [kv_endCommand]
  exact hslot

theorem load_none (h : atVault p 1 v s u) (hk : s.on KEY_VAULT_KEKV = true) (hs : s.on KEY_VAULT_STHOLD = false) (h1 : 1 ≤ bits v 15 8) (h4 : bits v 15 8 ≤ 4)
    (hr : keyRecord s (bits v 15 8) = none) : endsWith p 7 s (runCommand p u) ∧ (runCommand p u).kv = s.kv := by
  have hload : loadKey (bits v 15 8) u = (7, u) := by
    unfold loadKey
    rw [h.keyRecord_eq, hr]
  have hrun : runCommand p u = endCommand p.idx 7 [] u := by
    rw [runCommand_load ((h.on_eq (by simp)).trans hf) ((h.on_eq (by simp)).trans hh) h.op_eq, h.arg_eq, if_neg (by omega), if_neg (by simp [h.on_eq, hk, hs]), hload]
  rw [hrun]
  exact ⟨endsWith_plain h (by decide) [], (kv_endCommand ..).trans h.kv_eq⟩

theorem keyWrite_done (h : atVault p 2 v s u) (hp : p = .p43) (hpol : bit (s.rd FUSE_KEYPOL_V) 0 = true) (h2 : 2 ≤ bits v 20 16) (h5 : bits v 20 16 ≤ 5)
    (hlen : bits v 15 8 = 32 ∨ bits v 15 8 = 48 ∨ bits v 15 8 = 64) : (runCommand p u).rd (KEY_STAT_RESULT p.idx) = 1 ∧ (runCommand p u).rd (KEY_SLOT_STATE (bits v 20 16)) = 2 ∧
    (runCommand p u).rd (KEY_SLOT_LEN (bits v 20 16)) = bits v 15 8 ∧ mget [] (runCommand p u).kv.slots (bits v 20 16) = keyData s p.idx (bits v 15 8) := by
  have hpolu : u.rd FUSE_KEYPOL_V = s.rd FUSE_KEYPOL_V := h.rd_eq _ ((commandFields_apart p).1 _ (by simp))
  have hrun : runCommand p u = endCommand p.idx 1 [] (setSlot (bits v 20 16) 2 0 (bits v 15 8) 0 (keyData s p.idx (bits v 15 8)) u) := by
    rw [runCommand_keyWrite ((h.on_eq (by simp)).trans hf) ((h.on_eq (by simp)).trans hh) h.op_eq, h.arg_eq, h.slot_eq, hpolu, h.keyData_eq, if_neg (by simp [hp, hpol]), if_neg]
    rw [not_or, not_or]
    exact ⟨by omega, by omega, by rcases hlen with hl | hl | hl <;> simp [hl]⟩
  have hkeep := rd_endCommand_slot p (show bits v 20 16 < 32 by omega) 1 [] (setSlot (bits v 20 16) 2 0 (bits v 15 8) 0 (keyData s p.idx (bits v 15 8)) u)
  have h0 : bits v 20 16 ≠ 0 := by omega
  rw [hrun]
  refine ⟨(endCommand_effects p (by decide) [] _).1, (hkeep _ (by simp [slotFields])).trans (slotState_setSlot _ _ _ _ _ _ _ (by decide)),
    (hkeep _ (by simp [slotFields])).trans (rd_setSlot h0 (by simp) (bits_lt v 15 8) u), ?_⟩
  rw [kv_endCommand, kv_setSlot h0]
  exact mget_mput_same ..

theorem keyWrite_refused (h : atVault p 2 v s u) (hp : p ≠ .p43 ∨ bit (s.rd FUSE_KEYPOL_V) 0 = false) : endsWith p 2 s (runCommand p u) ∧ (runCommand p u).kv = s.kv := by
  have hpolu : u.rd FUSE_KEYPOL_V = s.rd FUSE_KEYPOL_V := h.rd_eq _ ((commandFields_apart p).1 _ (by simp))
  have hrun : runCommand p u = endCommand p.idx 2 [] u := by
    rw [runCommand_keyWrite ((h.on_eq (by simp)).trans hf) ((h.on_eq (by simp)).trans hh) h.op_eq, hpolu, if_pos]
    rcases hp with hp | hp
    · exact .inr hp
    · exact .inl (by simp [hp])
  rw [hrun]
  exact ⟨endsWith_plain h (by decide) [], (kv_endCommand ..).trans h.kv_eq⟩

theorem destroy_done (h : atVault p 4 v s u) (h2 : 2 ≤ bits v 20 16) (h5 : bits v 20 16 ≤ 5) : (runCommand p u).rd (KEY_STAT_RESULT p.idx) = 1 ∧
    (runCommand p u).rd (KEY_SLOT_STATE (bits v 20 16)) = 0 ∧ mget [] (runCommand p u).kv.slots (bits v 20 16) = [] ∧
    (runCommand p u).rd KEY_ZTAG_TAG = slotTag (bits v 20 16) [] % 2 ^ 32 ∧ leafSet (runCommand p u) 21 0 := by
  have hn : bits v 20 16 < 32 := by omega
  have h0 : bits v 20 16 ≠ 0 := by omega
  have hrun : runCommand p u = endCommand p.idx 1 [] ((clearSlot (bits v 20 16) u).wr KEY_ZTAG_TAG (slotTag (bits v 20 16) [])) := by
    rw [runCommand_destroy ((h.on_eq (by simp)).trans hf) ((h.on_eq (by simp)).trans hh) h.op_eq, h.slot_eq, if_neg (by omega)]
  have htag : ¬ commandKeys p KEY_ZTAG_TAG.key := fun hk => absurd (commandKeys_apart p hk) (by decide)
  have hstate : ((clearSlot (bits v 20 16) u).wr KEY_ZTAG_TAG (slotTag (bits v 20 16) [])).rd (KEY_SLOT_STATE (bits v 20 16)) = 0 :=
    (State.rd_wr_ne _ _ _ _ fun e => absurd (e ▸ (slotState_fields (bits v 20 16)).1) (by decide)).trans (slotState_clearSlot u (.inl rfl))
  rw [hrun]
  obtain ⟨hres, -, -, hleaf⟩ := endCommand_effects p (show 1 < 16 by decide) [] ((clearSlot (bits v 20 16) u).wr KEY_ZTAG_TAG (slotTag (bits v 20 16) []))
  refine ⟨hres, (rd_endCommand_slot p hn 1 [] _ _ (by simp [slotFields])).trans hstate, ?_, ?_, hleaf⟩
  · have hkv : (clearSlot (bits v 20 16) u).kv = { u.kv with slots := mput [] u.kv.slots (bits v 20 16) [] } := kv_setSlot h0 0 0 0 0 [] u
    rw [kv_endCommand]
    show mget [] (clearSlot (bits v 20 16) u).kv.slots (bits v 20 16) = []
    rw [hkv]
    exact mget_mput_same [] u.kv.slots (bits v 20 16) []
  · rw [(onlyKeys_endCommand_path p 1 [] _).1 _ htag]
    exact State.rd_wr_same ..

theorem store_runs (h : atVault p 3 v s u) (hk : s.on KEY_VAULT_KEKV = true) (hs : s.on KEY_VAULT_STHOLD = false) (hcode : recordCode s (keyData s p.idx 128) = 1)
    (hgen : ∀ b, currentRecord s (byteAt (keyData s p.idx 128) 4) = some b → leAt b 8 4 < leAt (keyData s p.idx 128) 8 4) :
    (runCommand p u).kv.storing = some (p, keyData s p.idx 128) ∧ (runCommand p u).rd (KEY_STAT_BUSY p.idx) = 1 ∧ (runCommand p u).flash = s.flash := by
  have hpos := gen_ne_zero hcode
  have hnew : ¬ leAt (keyData s p.idx 128) 8 4 ≤ currentGen u (byteAt (keyData s p.idx 128) 4) := by
    unfold currentGen
    rw [h.currentRecord_eq]
    cases hcur : currentRecord s (byteAt (keyData s p.idx 128) 4) with
    | none => simpa using hpos
    | some b => simpa using hgen b hcur
  have hrun : runCommand p u = (clearSlot 31 u).setKv { (clearSlot 31 u).kv with storing := some (p, keyData s p.idx 128) } := by
    rw [runCommand_store ((h.on_eq (by simp)).trans hf) ((h.on_eq (by simp)).trans hh) h.op_eq, h.keyData_eq, h.recordCode_eq, if_neg (by simp [h.on_eq, hk, hs]), if_neg (by simp [hcode]),
      if_neg hnew]
  have hbusy : (clearSlot 31 u).rd (KEY_STAT_BUSY p.idx) = u.rd (KEY_STAT_BUSY p.idx) :=
    rd_setSlot_ne (by decide) 0 0 0 0 [] u fun g hg e => slotFields_apart p (by decide) g hg (e ▸ .inr (.inl (by simp)))
  have hflash : (clearSlot 31 u).flash = u.flash := clearSlot_frame (κ := 5) rfl (.refl 5 u)
  rw [hrun]
  exact ⟨rfl, hbusy.trans h.busy_eq, hflash.trans h.flash_eq⟩

theorem store_refused (h : atVault p 3 v s u) (hk : s.on KEY_VAULT_KEKV = true) (hs : s.on KEY_VAULT_STHOLD = false) (hcode : recordCode s (keyData s p.idx 128) ≠ 1) :
    endsWith p (recordCode s (keyData s p.idx 128) % 16) s (runCommand p u) ∧ (runCommand p u).kv = s.kv := by
  have hlt := recordCode_lt s (keyData s p.idx 128)
  have hrun : runCommand p u = endCommand p.idx (recordCode s (keyData s p.idx 128)) [] u := by
    rw [runCommand_store ((h.on_eq (by simp)).trans hf) ((h.on_eq (by simp)).trans hh) h.op_eq, h.keyData_eq, h.recordCode_eq, if_neg (by simp [h.on_eq, hk, hs]), if_pos hcode]
  rw [hrun, Nat.mod_eq_of_lt hlt]
  exact ⟨endsWith_plain h hlt [], (kv_endCommand ..).trans h.kv_eq⟩

theorem zeroise_done (h : atVault p 6 v s u) : (runCommand p u).rd (KEY_STAT_RESULT p.idx) = 1 ∧ emptied (runCommand p u) ∧ (runCommand p u).kv.zeroised = true := by
  have hrun : runCommand p u = endCommand p.idx 1 [] (zeroise u) := runCommand_zeroise ((h.on_eq (by simp)).trans hf) ((h.on_eq (by simp)).trans hh) h.op_eq
  obtain ⟨hslots, hcause, hleaf⟩ := emptied_zeroise u
  have hzero : ¬ slotKeys RST_CAUSE_ZERO.key := by
    unfold slotKeys groveUp
    decide
  have hkeys := onlyKeys_endCommand p 1 [] (zeroise u)
  rw [hrun]
  refine ⟨(endCommand_effects p (by decide) [] _).1, ⟨fun n hn => (rd_endCommand_slot p hn 1 [] _ _ (by simp [slotFields])).trans (hslots n hn), (hkeys.1 _ hzero).trans hcause, hkeys.2 21 3 hleaf⟩, ?_⟩
  rw [kv_endCommand]
  exact zeroised_zeroise u

theorem attest_done (h : atVault p 5 v s u) (hk : s.on KEY_VAULT_KEKV = true) (hs : s.on KEY_VAULT_STHOLD = false) (h2 : 2 ≤ bits v 20 16) (h5 : bits v 20 16 ≤ 5) (h0 : bits v 15 8 = 0)
    (hl : s.on CFG_STATUS_LOADED = true) (hfull : s.rd (KEY_SLOT_STATE (bits v 20 16)) = 2) : (runCommand p u).rd (KEY_STAT_RESULT p.idx) = 1 ∧
    ∀ j, j < 8 → (runCommand p u).rd (KEY_RESP_RESP p.idx j) =
      leAt (Config.hmac256 (slotKey s (bits v 20 16)) (attestMessage s (keyData s p.idx 32) 0)) (4 * j) 4 % 2 ^ 32 := by
  have hn : bits v 20 16 < 32 := by omega
  have hstate : u.rd (KEY_SLOT_STATE (bits v 20 16)) = 2 := (h.rd_eq _ ((commandFields_apart p).2.2 _ hn).1).trans hfull
  have hattest : attest p.idx u = (1, Config.hmac256 (slotKey s (bits v 20 16)) (attestMessage s (keyData s p.idx 32) 0), u) := by
    unfold attest
    dsimp only
    rw [h.slot_eq, h.arg_eq, h0, if_neg (by simp; omega), if_neg (by simp [h.on_eq, hl]), if_pos hstate]
    dsimp only
    rw [if_neg (by simp), h.slotKey_eq hn, h.attestMessage_eq, h.keyData_eq]
  have hrun : runCommand p u = endCommand p.idx 1 (Config.hmac256 (slotKey s (bits v 20 16)) (attestMessage s (keyData s p.idx 32) 0)) u := by
    rw [runCommand_attest ((h.on_eq (by simp)).trans hf) ((h.on_eq (by simp)).trans hh) h.op_eq, if_neg (by simp [h.on_eq, hk, hs]), hattest]
  rw [hrun]
  exact ⟨(endCommand_effects p (by decide) _ u).1, fun j hj => response_endCommand p hj _ u⟩

end

/-! ### The six commands (R497) -/

theorem exec_keyCommands (p : Path) (v : Word) (s : State) : exec (.load p v) s = .next (pathWrite p 0x60000 (keyWord 1 v.toNat) s) ∧
    exec (.keyWrite p v) s = .next (pathWrite p 0x60000 (keyWord 2 v.toNat) s) ∧ exec (.store p v) s = .next (pathWrite p 0x60000 (keyWord 3 v.toNat) s) ∧
    exec (.destroy p v) s = .next (pathWrite p 0x60000 (keyWord 4 v.toNat) s) ∧ exec (.attest p v) s = .next (pathWrite p 0x60000 (keyWord 5 v.toNat) s) ∧
    exec (.zeroise p) s = .next (pathWrite p 0x60000 (keyWord 6 0) s) := ⟨rfl, rfl, rfl, rfl, rfl, rfl⟩

/-- A command that waits is shown busy and changes no slot (R433, R496). -/
theorem command_waits {p : Path} {s : State} {op : Nat} (h : plainly s p 0x60000) (hb : s.on (KEY_STAT_BUSY p.idx) = false) (hheld : s.kv.storing.isSome = true ∨ holdsOff s 16 = true)
    (hw : s.kv.waiting = []) (h1 : 1 ≤ op) (h6 : op ≤ 6) (v : Nat) : (pathWrite p 0x60000 (keyWord op v) s).kv.waiting = [p] ∧
    (pathWrite p 0x60000 (keyWord op v) s).rd (KEY_STAT_BUSY p.idx) = 1 ∧ (pathWrite p 0x60000 (keyWord op v) s).kv.slots = s.kv.slots := by
  have hat := atVault_commanded p (show op < 16 by omega) v s
  have hoff := holdsOff_commanded p op v s
  rw [pathWrite_keyCmd h, wrKeyCmd_taken h.2 hb hw h1 h6 (namesCommand_keyWord (by omega) v)]
  generalize commanded p op v s = t at hat hoff
  rw [drainKeys_held (by rw [hat.kv_eq, hoff]; exact hheld)]
  refine ⟨rfl, (State.rd_setKv t _ _).trans hat.busy_eq, ?_⟩
  show t.kv.slots = s.kv.slots
  rw [hat.kv_eq]

theorem command_ignored {p : Path} {s : State} (h : plainly s p 0x60000) (hb : s.on (KEY_STAT_BUSY p.idx) = true) (w : Nat) : pathWrite p 0x60000 w s = s := by
  rw [pathWrite_keyCmd h, wrKeyCmd_busy hb]

/-- While the vault is frozen or halted, a command ends with 11. -/
theorem command_frozen {p : Path} {s : State} {op : Nat} (h : plainly s p 0x60000) (hb : s.on (KEY_STAT_BUSY p.idx) = false) (hst : s.kv.storing = none) (hh : holdsOff s 16 = false)
    (hw : s.kv.waiting = []) (hheld : s.on KEY_VAULT_FROZEN = true ∨ s.on KEY_VAULT_HALT = true) (h1 : 1 ≤ op) (h6 : op ≤ 6) (v : Nat) :
    (pathWrite p 0x60000 (keyWord op v) s).rd (KEY_STAT_RESULT p.idx) = 11 ∧ (pathWrite p 0x60000 (keyWord op v) s).kv = s.kv := by
  obtain ⟨u, hat, hrun⟩ := command_runs h hb hst hh hw h1 h6 v
  rw [hrun, runCommand_held (by rw [hat.on_eq (by simp), hat.on_eq (by simp)]; exact hheld)]
  exact ⟨(endCommand_effects p (by decide) [] u).1, (kv_endCommand ..).trans hat.kv_eq⟩

/-- Settles O58: a free vault runs the command on the state as it was taken, which each command reads as it stood before. -/
theorem keyCommands : Obligations.KeyCommands := by
  unfold Obligations.KeyCommands
  refine ⟨fun p v s hpl hb hst hoff hw hf hh => ⟨fun hk hs h1 h4 => ⟨fun r x hr hx => ?_, fun hr => ?_⟩, fun hp hpol h2 h5 hlen => ?_, fun hp => ?_, fun h2 h5 => ?_,
    fun hk hs h2 h5 h0 hl hfull => ?_, fun hk hs hcode hgen => ?_, fun hk hs hcode => ?_, ?_⟩, fun p v s hpl hb hst hoff hw hheld => ?_, fun p v s hpl hb => ?_,
    fun p v s hpl hb hheld hw => ?_⟩
  all_goals obtain ⟨hload, hwrite, hstore, hdestroy, hattest, hzero⟩ := exec_keyCommands p v s
  · obtain ⟨u, hat, hrun⟩ := command_runs hpl hb hst hoff hw (show 1 ≤ 1 by decide) (by decide) v.toNat
    obtain ⟨⟨hres, hbusy, hseq, hleaf⟩, hslot⟩ := load_done hf hh hat hk hs h1 h4 hr hx
    exact ⟨_, hload.trans (congrArg _ hrun), hres, hbusy, hseq, hslot.1, hslot.2.1, hslot.2.2, hleaf⟩
  · obtain ⟨u, hat, hrun⟩ := command_runs hpl hb hst hoff hw (show 1 ≤ 1 by decide) (by decide) v.toNat
    obtain ⟨⟨hres, hbusy, -, hleaf⟩, hkv⟩ := load_none hf hh hat hk hs h1 h4 hr
    exact ⟨_, hload.trans (congrArg _ hrun), hres, hbusy, congrArg Vault.slots hkv, hleaf⟩
  · obtain ⟨u, hat, hrun⟩ := command_runs hpl hb hst hoff hw (show 1 ≤ 2 by decide) (by decide) v.toNat
    exact ⟨_, hwrite.trans (congrArg _ hrun), keyWrite_done hf hh hat hp hpol h2 h5 hlen⟩
  · obtain ⟨u, hat, hrun⟩ := command_runs hpl hb hst hoff hw (show 1 ≤ 2 by decide) (by decide) v.toNat
    obtain ⟨⟨hres, -, -, hleaf⟩, hkv⟩ := keyWrite_refused hf hh hat hp
    exact ⟨_, hwrite.trans (congrArg _ hrun), hres, congrArg Vault.slots hkv, hleaf⟩
  · obtain ⟨u, hat, hrun⟩ := command_runs hpl hb hst hoff hw (show 1 ≤ 4 by decide) (by decide) v.toNat
    exact ⟨_, hdestroy.trans (congrArg _ hrun), destroy_done hf hh hat h2 h5⟩
  · obtain ⟨u, hat, hrun⟩ := command_runs hpl hb hst hoff hw (show 1 ≤ 5 by decide) (by decide) v.toNat
    exact ⟨_, hattest.trans (congrArg _ hrun), attest_done hf hh hat hk hs h2 h5 h0 hl hfull⟩
  · obtain ⟨u, hat, hrun⟩ := command_runs hpl hb hst hoff hw (show 1 ≤ 3 by decide) (by decide) v.toNat
    exact ⟨_, hstore.trans (congrArg _ hrun), store_runs hf hh hat hk hs hcode hgen⟩
  · obtain ⟨u, hat, hrun⟩ := command_runs hpl hb hst hoff hw (show 1 ≤ 3 by decide) (by decide) v.toNat
    obtain ⟨⟨hres, hbusy, -, -⟩, hkv⟩ := store_refused hf hh hat hk hs hcode
    exact ⟨_, hstore.trans (congrArg _ hrun), hres, hbusy, (congrArg Vault.storing hkv).trans hst⟩
  · obtain ⟨u, hat, hrun⟩ := command_runs hpl hb hst hoff hw (show 1 ≤ 6 by decide) (by decide) 0
    obtain ⟨hres, ⟨hslots, hcause, hleaf⟩, hmark⟩ := zeroise_done hf hh hat
    exact ⟨_, hzero.trans (congrArg _ hrun), hres, hslots, hcause, hmark, hleaf⟩
  · obtain ⟨hlres, hlkv⟩ := command_frozen hpl hb hst hoff hw hheld (show 1 ≤ 1 by decide) (by decide) v.toNat
    obtain ⟨hzres, hzkv⟩ := command_frozen hpl hb hst hoff hw hheld (show 1 ≤ 6 by decide) (by decide) 0
    exact ⟨_, _, hload, hlres, hlkv, hzero, hzres, hzkv⟩
  · have hsame := command_ignored hpl hb
    rw [hload, hwrite, hstore, hdestroy, hattest, hzero, hsame, hsame, hsame, hsame, hsame, hsame]
    exact ⟨rfl, rfl, rfl, rfl, rfl, rfl⟩
  · exact ⟨_, hload, command_waits hpl hb hheld hw (by decide) (by decide) v.toNat⟩

end Sys2Proof.Machine
end

section
set_option Elab.async false
/-! Requests for a power state: what each answer of a participant does (R432, R433). -/

namespace Sys2Proof.Machine

open Sys2Proof Sys2Proof.Laws

/-! ### What a chain of updates writes -/

section
variable {fs : List Fld} {ps : List Part} {s t : State} (h : onlyWrites fs ps s t)
include h

theorem onlyWrites.wr_of {f : Fld} (hf : f ∈ fs) (v : Nat) : onlyWrites fs ps s (t.wr f v) :=
  h.trans ((onlyWrites_wr f v t).mono (by simpa using hf) (List.nil_subset _))

theorem onlyWrites.wrs_of {l : List (Fld × Nat)} (hl : ∀ e ∈ l, e.1 ∈ fs) : onlyWrites fs ps s (t.wrs l) :=
  h.trans ((onlyWrites_wrs hl t).mono (List.Subset.refl _) (List.nil_subset _))

theorem onlyWrites.setPs_of (hp : .ps ∈ ps) (x : PsReq) : onlyWrites fs ps s (t.setPs x) := by
  refine h.trans ⟨fun _ _ => rfl, fun q hq => ?_⟩
  cases q
  case ps => exact absurd (List.mem_cons_of_mem _ hp) hq
  all_goals rfl

theorem onlyWrites.emit_of (hp : .sent ∈ ps) (o : Out) : onlyWrites fs ps s (t.emit o) :=
  h.trans ((onlyWrites_emit fs t o).mono (List.Subset.refl _) (by simpa using hp))

theorem onlyWrites.raise_of {u : Nat} (hf : EVSTAT u ∈ fs) (hp : .mg ∈ ps) (b : Nat) : onlyWrites fs ps s (raise u b t) :=
  h.trans ((onlyWrites_raise u b t).mono (by simpa using hf) (by simpa using hp))

theorem onlyWrites.show_of (hp : .sent ∈ ps) : onlyWrites fs ps s (showIndicator t) := by
  unfold showIndicator
  split
  · exact h.emit_of hp _
  · exact h

end

/-! ### A request and its refusal (R433) -/

theorem onlyWrites_psAsk (target : Nat) (s : State) : onlyWrites [PST_PSSTAT_PHASE, PST_PSSTAT_DEFERS] [.sent, .ps] s (psAsk target s) :=
  (((onlyWrites.refl _ _ s).wrs_of (by simp)).setPs_of (by simp) _).show_of (by simp)

/-- The fields of a refusal. -/
def refusalFields : List Fld := [PST_PSSTAT_WHO, PST_PSSTAT_REASON, PST_PSSTAT_PHASE, PST_PSCTL_GO, EVSTAT 16]

/-- A refusal is written, and not yet shown. -/
def refusalWritten (who reason : Nat) (s : State) : State := s.wrs [(PST_PSSTAT_WHO, who), (PST_PSSTAT_REASON, reason), (PST_PSSTAT_PHASE, 0), (PST_PSCTL_GO, 0)]

/-- What of the last entry outlasts a request (R430). -/
def requestEnded (s : State) : PsReq := { downed := s.ps.downed, gated := s.ps.gated, dozeAt := s.ps.dozeAt }

theorem psRefuse_eq (who reason : Nat) (s : State) : psRefuse who reason s = showIndicator (raise 16 1 ((refusalWritten who reason s).setPs (requestEnded s))) := rfl

theorem onlyWrites_psRefuse (who reason : Nat) (s : State) : onlyWrites refusalFields [.sent, .mg, .ps] s (psRefuse who reason s) := by
  have h : onlyWrites refusalFields [.sent, .mg, .ps] s (refusalWritten who reason s) := (onlyWrites.refl _ _ s).wrs_of (by simp [refusalFields])
  rw [psRefuse_eq]
  exact ((h.setPs_of (by simp) _).raise_of (by simp [refusalFields]) (by simp) 1).show_of (by simp)

theorem psRefuse_effects {who : Nat} (hw : who < 32) (reason : Nat) (s : State) : (psRefuse who reason s).rd PST_PSSTAT_WHO = who ∧
    (psRefuse who reason s).rd PST_PSSTAT_REASON = reason % 16 ∧ (psRefuse who reason s).rd PST_PSSTAT_PHASE = 0 ∧ (psRefuse who reason s).rd PST_PSCTL_GO = 0 ∧
    leafSet (psRefuse who reason s) 16 1 := by
  have hnodup : ([(PST_PSSTAT_WHO, who), (PST_PSSTAT_REASON, reason), (PST_PSSTAT_PHASE, 0), (PST_PSCTL_GO, 0)].map fun x => x.1.key).Nodup :=
    show [PST_PSSTAT_WHO.key, PST_PSSTAT_REASON.key, PST_PSSTAT_PHASE.key, PST_PSCTL_GO.key].Nodup by decide
  have hwritten (e : Fld × Nat) (he : e ∈ [(PST_PSSTAT_WHO, who), (PST_PSSTAT_REASON, reason), (PST_PSSTAT_PHASE, 0), (PST_PSCTL_GO, 0)]) :
      (refusalWritten who reason s).rd e.1 = e.2 % 2 ^ e.1.w := State.rd_wrs_of_mem hnodup he s
  have hwho := (hwritten (PST_PSSTAT_WHO, who) (by simp)).trans (Nat.mod_eq_of_lt (show who < 2 ^ 5 from hw))
  have hreason := hwritten (PST_PSSTAT_REASON, reason) (by simp)
  have hphase := hwritten (PST_PSSTAT_PHASE, 0) (by simp)
  have hgo := hwritten (PST_PSCTL_GO, 0) (by simp)
  rw [psRefuse_eq]
  generalize refusalWritten who reason s = t at hwho hreason hphase hgo
  have hshow := onlyKeys_showIndicator (fun _ => False) (raise 16 1 (t.setPs (requestEnded s)))
  have hrd (f : Fld) (hf : f.key ≠ (EVSTAT 16).key) : (showIndicator (raise 16 1 (t.setPs (requestEnded s)))).rd f = t.rd f :=
    (hshow.1 f id).trans (rd_raise_ne 16 1 _ f hf)
  exact ⟨(hrd _ (by decide)).trans hwho, (hrd _ (by decide)).trans hreason, (hrd _ (by decide)).trans hphase, (hrd _ (by decide)).trans hgo,
    hshow.2 16 1 (leafSet_raise 16 1 _ (by decide))⟩

/-! ### What a participant answers (R433) -/

section
variable {w : Participant} {s : State} (h1 : s.rd PST_PSSTAT_PHASE = 1) (hw : w.val ∈ s.ps.waiting) (hd : w.val ∉ s.ps.deferring)
include h1 hw hd

theorem exec_answer_refused {r : Nat} (hr : mustRefuse s w.val = some r) (a : Answer) : exec (.participantAnswer w a) s = .next (endRequest w.val r s) := by
  show execParticipantAnswer w a s = _
  unfold execParticipantAnswer
  dsimp only
  rw [if_neg (by simp [h1, hw, hd]), hr]

variable (hr : mustRefuse s w.val = none)
include hr

theorem exec_accept (hm : mustDefer s w.val = false) :
    exec (.participantAnswer w .accept) s = .next (s.setPs { s.ps with waiting := s.ps.waiting.filter (· ≠ w.val) }) := by
  show execParticipantAnswer w .accept s = _
  unfold execParticipantAnswer
  dsimp only
  rw [if_neg (by simp [h1, hw, hd]), hr]
  dsimp only
  rw [if_neg (by simp [hm])]

theorem exec_accept_deferred (hm : mustDefer s w.val = true) : exec (.participantAnswer w .accept) s = .next (putOff w.val (s.free.1 % 255 + 1) s.free.2) := by
  show execParticipantAnswer w .accept s = _
  unfold execParticipantAnswer
  dsimp only
  rw [if_neg (by simp [h1, hw, hd]), hr]
  dsimp only
  rw [if_pos hm]

theorem exec_refuse (r : Nat) : exec (.participantAnswer w (.refuse r)) s = .next (endRequest w.val r s) := by
  show execParticipantAnswer w (.refuse r) s = _
  unfold execParticipantAnswer
  dsimp only
  rw [if_neg (by simp [h1, hw, hd]), hr]

theorem exec_defer (n : Nat) : exec (.participantAnswer w (.defer n)) s = .next (putOff w.val n s) := by
  show execParticipantAnswer w (.defer n) s = _
  unfold execParticipantAnswer
  dsimp only
  rw [if_neg (by simp [h1, hw, hd]), hr]

end

theorem participant_lt (w : Participant) : w.val < 32 := by omega

theorem putOff_within {w n : Nat} {s : State} (h : s.ps.deferSum + n ≤ 2000) :
    putOff w n s = (s.inc PST_PSSTAT_DEFERS).setPs { s.ps with deferring := s.ps.deferring ++ [w], deferSum := s.ps.deferSum + n } := if_neg (by omega)

theorem putOff_beyond {w n : Nat} {s : State} (h : 2000 < s.ps.deferSum + n) : putOff w n s = endRequest w 8 (s.inc PST_PSSTAT_DEFERS) := if_pos h

/-- A deferral within the 2 s is counted and taken. -/
theorem putOff_effects {w n : Nat} {s : State} (h : s.ps.deferSum + n ≤ 2000) : w ∈ (putOff w n s).ps.deferring ∧ (putOff w n s).ps.deferSum = s.ps.deferSum + n ∧
    (putOff w n s).rd PST_PSSTAT_DEFERS = satInc 255 (s.rd PST_PSSTAT_DEFERS) ∧ onlyWrites [PST_PSSTAT_DEFERS] [.ps] s (putOff w n s) := by
  have hrd := rd_inc_eq_satInc PST_PSSTAT_DEFERS s
  have hinc : onlyWrites [PST_PSSTAT_DEFERS] [.ps] s (s.inc PST_PSSTAT_DEFERS) := (onlyWrites_inc PST_PSSTAT_DEFERS s).mono (List.Subset.refl _) (List.nil_subset _)
  rw [putOff_within h]
  generalize s.inc PST_PSSTAT_DEFERS = t at hrd hinc
  exact ⟨by simp [State.setPs], rfl, hrd, hinc.setPs_of (by simp) _⟩

theorem requestRefused {s u : State} {w r : Nat} (hw : w < 32) (hu : u = psRefuse w r s) : u.rd PST_PSSTAT_WHO = w ∧ u.rd PST_PSSTAT_REASON = r % 16 ∧
    u.rd PST_PSSTAT_PHASE = 0 ∧ leafSet u 16 1 := by
  obtain ⟨hwho, hreason, hphase, -, hleaf⟩ := psRefuse_effects hw r s
  rw [hu]
  exact ⟨hwho, hreason, hphase, hleaf⟩

theorem mustRefuse_lt {s : State} {w r : Nat} (h : mustRefuse s w = some r) : r < 16 := by
  unfold mustRefuse at h
  split at h
  · cases h
    decide
  · split at h
    · cases h
      decide
    · cases h

theorem participantAnswers (w : Participant) (s : State) (h1 : s.rd PST_PSSTAT_PHASE = 1) (hw : w.val ∈ s.ps.waiting) (hd : w.val ∉ s.ps.deferring) (hr : mustRefuse s w.val = none) :
    (mustDefer s w.val = false → ∃ t, exec (.participantAnswer w .accept) s = .next t ∧ w.val ∉ t.ps.waiting ∧
      (∀ v, v ≠ w.val → (v ∈ t.ps.waiting ↔ v ∈ s.ps.waiting)) ∧ partsOnly [.ps] s t) ∧
    (mustDefer s w.val = true → s.ps.deferSum ≤ 1745 → ∃ t n, exec (.participantAnswer w .accept) s = .next t ∧ 1 ≤ n ∧ n ≤ 255 ∧
      w.val ∈ t.ps.deferring ∧ t.ps.deferSum = s.ps.deferSum + n ∧ onlyWrites [PST_PSSTAT_DEFERS] [.freeCtr, .ps] s t) ∧
    (∀ r, ∃ u, exec (.participantAnswer w (.refuse r)) s = .next (nextKeys u) ∧ u.rd PST_PSSTAT_WHO = w.val ∧ u.rd PST_PSSTAT_REASON = r % 16 ∧
      u.rd PST_PSSTAT_PHASE = 0 ∧ u.rd PST_PSCTL_GO = 0 ∧ leafSet u 16 1 ∧
      onlyWrites [PST_PSSTAT_WHO, PST_PSSTAT_REASON, PST_PSSTAT_PHASE, PST_PSCTL_GO, EVSTAT 16] [.sent, .mg, .ps] s u) ∧
    (∀ n, s.ps.deferSum + n ≤ 2000 → ∃ t, exec (.participantAnswer w (.defer n)) s = .next t ∧ w.val ∈ t.ps.deferring ∧
      t.ps.deferSum = s.ps.deferSum + n ∧ t.rd PST_PSSTAT_DEFERS = satInc 255 (s.rd PST_PSSTAT_DEFERS) ∧
      onlyWrites [PST_PSSTAT_DEFERS] [.ps] s t) ∧
    (∀ n, 2000 < s.ps.deferSum + n → ∃ u, exec (.participantAnswer w (.defer n)) s = .next (nextKeys u) ∧ u.rd PST_PSSTAT_WHO = w.val ∧
      u.rd PST_PSSTAT_REASON = 8 ∧ u.rd PST_PSSTAT_PHASE = 0 ∧ leafSet u 16 1) := by
  refine ⟨fun hm => ⟨_, exec_accept h1 hw hd hr hm, by simp [State.setPs], fun v hv => by simp [State.setPs, hv], fun q hq => ?_⟩, fun hm hsum => ?_, fun r => ?_, fun n hn => ?_,
    fun n hn => ?_⟩
  · cases q
    case ps => simp at hq
    all_goals rfl
  · obtain ⟨hin, hnew, -, honly⟩ := putOff_effects (w := w.val) (n := s.free.1 % 255 + 1) (s := s.free.2) (by
      show s.ps.deferSum + (s.free.1 % 255 + 1) ≤ 2000
      omega)
    have hfree : onlyWrites [PST_PSSTAT_DEFERS] [.freeCtr, .ps] s s.free.2 := by
      refine ⟨fun _ _ => rfl, fun q hq => ?_⟩
      cases q
      case freeCtr => simp at hq
      all_goals rfl
    exact ⟨_, _, exec_accept_deferred h1 hw hd hr hm, by omega, by omega, hin, hnew, hfree.trans (honly.mono (List.Subset.refl _) (by simp))⟩
  · obtain ⟨hwho, hreason, hphase, hgo, hleaf⟩ := psRefuse_effects (participant_lt w) r s
    exact ⟨_, exec_refuse h1 hw hd hr r, hwho, hreason, hphase, hgo, hleaf, onlyWrites_psRefuse w.val r s⟩
  · exact ⟨_, exec_defer h1 hw hd hr n, putOff_effects hn⟩
  · exact ⟨_, (exec_defer h1 hw hd hr n).trans (congrArg _ (putOff_beyond hn)), requestRefused (participant_lt w) rfl⟩

/-- Settles O33, by the cases of an answer. -/
theorem powerStateRequestsAreAnswered : Obligations.PowerStateRequestsAreAnswered := by
  unfold Obligations.PowerStateRequestsAreAnswered
  refine ⟨fun s hauto hfw h0 h1 hq => ?_, fun s hauto => ?_, fun w s h1 hw hd hr => participantAnswers w s h1 hw hd hr, fun w a r s h1 hw hd hr => ?_, fun s hs => if_pos ⟨rfl, hs⟩,
    fun w s h1 hw hd => ?_, fun u hu => nextKeys_of_nil hu, fun w s h1 => ?_, fun w s h1 => ⟨?_, ?_, fun a => ?_⟩⟩
  · have hexec : exec .autoDrowse s = .next (psAsk 1 s) := congrArg _ (if_pos ⟨hauto, hfw, h0, h1, hq⟩)
    obtain ⟨hphase, -, htarget, hwaiting⟩ := psAsk_effects 1 s
    exact ⟨_, hexec, hphase, htarget, hwaiting, onlyWrites_psAsk 1 s⟩
  · exact congrArg _ (if_neg (by simp [hauto]))
  · obtain ⟨hwho, hreason, hrest⟩ := requestRefused (s := s) (r := r) (participant_lt w) rfl
    exact ⟨_, exec_answer_refused h1 hw hd hr a, hwho, hreason.trans (Nat.mod_eq_of_lt (mustRefuse_lt hr)), hrest⟩
  · have hexec : exec (.answerTimeout w) s = .next (endRequest w.val 7 s) := congrArg _ (if_pos ⟨h1, by simpa using hw, by simpa using hd⟩)
    exact ⟨_, hexec, requestRefused (participant_lt w) rfl⟩
  · have hexec : exec (.deferExpiry w) s = .next (s.setPs { s.ps with deferring := s.ps.deferring.filter (· ≠ w.val) }) := congrArg _ (if_pos h1)
    refine ⟨_, hexec, by simp [State.setPs], rfl, fun q hq => ?_⟩
    cases q
    case ps => simp at hq
    all_goals rfl
  · exact congrArg _ (if_neg h1)
  · exact congrArg _ (if_neg fun h => h1 h.1)
  · exact if_pos (.inl h1)

end Sys2Proof.Machine
end

section
set_option Elab.async false
/-! The entry to a power state: the shutdown into Rest and Dormant, and a level that wakes from it (R428, R431, R434, R435). -/

namespace Sys2Proof.Machine

open Sys2Proof Sys2Proof.Laws

/-! ### The flush of a tunnel (R106, R167) -/

theorem fabOf_lt (p : Nat) : fabOf p < 32 := by
  have hg := portGrove_lt p
  have hq := portPlace_lt p
  unfold fabOf
  split
  · decide
  · split <;> omega

/-- What the flush of a tunnel writes: what the movement of segments does, and the void counts. -/
def flushKeys (k : Nat) : Prop := fabricKeys k ∨ ∃ n, k = (MEM_VOID_GEN0 n).key ∨ k = (MEM_VOID_GEN1 n).key ∨ k = (MEM_VOID_GEN2 n).key ∨ k = (MEM_VOID_GEN3 n).key

theorem void_not_leaf {n : Nat} (hn : n < 256) : ∀ f ∈ [MEM_VOID_GEN0 n, MEM_VOID_GEN1 n, MEM_VOID_GEN2 n, MEM_VOID_GEN3 n], ¬ leafKey f.key := by
  simp only [List.forall_mem_cons, List.not_mem_nil, false_implies, implies_true, and_true, leafKey, MEM_VOID_GEN0, MEM_VOID_GEN1, MEM_VOID_GEN2, MEM_VOID_GEN3, fld]
  omega

theorem onlyKeys_setVoid {n : Nat} (hn : n < 256) (g c : Nat) (s : State) : onlyKeys flushKeys s (setVoid n g c s) := by
  unfold setVoid
  dsimp only
  split
  · exact .of_regs (.wr (.refl _ s) (.inr ⟨n, .inl rfl⟩) (void_not_leaf hn _ (by simp))) rfl
  · exact .of_regs (.wr (.refl _ s) (.inr ⟨n, .inr (.inl rfl)⟩) (void_not_leaf hn _ (by simp))) rfl
  · exact .of_regs (.wr (.refl _ s) (.inr ⟨n, .inr (.inr (.inl rfl))⟩) (void_not_leaf hn _ (by simp))) rfl
  · exact .of_regs (.wr (.refl _ s) (.inr ⟨n, .inr (.inr (.inr rfl))⟩) (void_not_leaf hn _ (by simp))) rfl

theorem onlyKeys_unparkPort (p : Nat) (s : State) : onlyKeys fabricKeys s (unparkPort p s) :=
  .forAll (.refl _ s) fun n _ u => onlyKeys_unpark (fabOf_lt p) n 1024 u

theorem onlyKeys_flushTunnel {n : Nat} (hn : n < 256) (s : State) : onlyKeys flushKeys s (flushTunnel n s) := by
  unfold flushTunnel
  dsimp only
  refine .forAll (.ite (.of_regs (.refl _ s) rfl) ?_) fun p _ u => ?_
  · exact .trans (.of_regs (.refl _ s) rfl) (onlyKeys_setVoid hn ..)
  · exact .ite ((onlyKeys_unparkPort p u).mono fun _ => .inl) (.refl _ u)

theorem onlyKeys_enterQuarantine (n : Nat) (s : State) : onlyKeys fabricKeys s (enterQuarantine n s) := by
  refine .forAll (.refl _ s) fun m _ u => .ite (.wr (.refl _ u) (.inr (.inr (.inr ?_))) (not_leafKey_ttState m).1) (.refl _ u)
  simp only [TT_STATE_STATE, fld]
  omega

/-! ### Every port goes down (R431, R434) -/

theorem seq_not_settleKeys : ¬ settleKeys RST_FLTSTAT_SEQ.key := by
  rintro (h | ⟨n, h | h⟩)
  · revert h
    decide
  all_goals
    simp only [RST_FLTSTAT_SEQ, TT_STATE_STATE, TT_STATE_GEN, fld] at h
    omega

theorem seq_not_portDownKeys {p : Nat} {cs : List Nat} : ¬ portDownKeys p cs RST_FLTSTAT_SEQ.key := by
  rintro (h | ⟨f, hf, h⟩ | ⟨hp, ⟨f, hf, h⟩ | ⟨j, hj, h⟩ | ⟨j, hj, h⟩⟩ | ⟨c, hc, f, hf, h⟩ | h | h | h)
  · exact absurd h (by decide)
  · revert f
    simp only [portReach, List.forall_mem_cons, List.not_mem_nil, false_implies, implies_true, and_true, portReg, fld, GRV_FLOW_STALL, GRV_FLOW_HEAD,
      GRV_FLOW_ICL, GRV_FLST_EGHELD, GRV_FLST_INHELD, GRV_FLST_TIMER, GRV_CALST_BT, ADP_STAT_STATE, ADP_STAT_PERS, ADP_STAT_RATE, ADP_STAT_WIDTH, ADP_STAT_SPEED,
      ADP_PCIE_EJREQ, ADP_PCIE_PRESENT, ADP_PCIE_DLLACT, ADP_PCIE_PIND, ADP_DP_SINKDSC, RST_FLTSTAT_SEQ]
    omega
  · revert f
    simp only [canReach, List.forall_mem_cons, List.not_mem_nil, false_implies, implies_true, and_true, portReg, fld, CAN_CTL_RETRAIN, CAN_STAT_STATE,
      CAN_STAT_MODE, CAN_STAT_ROLE, CAN_STAT_PKIND, CAN_STAT_TXEP, CAN_STAT_RXEP, CAN_ERR_UNCORR, CAN_ERR_RNAKTX, CAN_ERR_RNAKRX, CAN_ERR_CSLOT, CAN_ERR2_EARLY,
      TIM_LNKOFF_OFF, TIM_LNKDLY_DLY, TIM_LNK_SEQ, TIM_LNK_MISSED, TIM_LNK_EXCH, RST_FLTSTAT_SEQ]
    omega
  · simp only [portReg, fld, CAN_PEER_V, RST_FLTSTAT_SEQ] at h
    omega
  · simp only [portReg, fld, CAN_THASH_V, RST_FLTSTAT_SEQ] at h
    omega
  · revert f
    simp only [cellReach, List.forall_mem_cons, List.not_mem_nil, false_implies, implies_true, and_true, LC_CTL_RTRN, LC_STAT_STATE,
      LC_STAT_RATE, LC_STAT_ORIENT, LC_STAT_LOCKA, LC_STAT_LOCKB, LC_STAT_INVA, LC_STAT_INVB, LC_STAT_RANKA, LC_STAT_RANKB, LC_RTR_CONSEC,
      LC_FECA_CORR, LC_FECA_UNCORR, LC_FECB_CORR, LC_FECB_UNCORR, LC_HOLD_USED, LC_HOLD_PEAK, fld, RST_FLTSTAT_SEQ]
    omega
  · exact absurd h (by decide)
  · exact absurd h (by decide)
  · exact ne_evstat (by decide) _ h

theorem seq_not_flushKeys : ¬ flushKeys RST_FLTSTAT_SEQ.key := by
  rintro (h | ⟨n, h⟩)
  · revert h
    unfold fabricKeys
    decide
  · simp only [RST_FLTSTAT_SEQ, MEM_VOID_GEN0, MEM_VOID_GEN1, MEM_VOID_GEN2, MEM_VOID_GEN3, fld] at h
    omega

/-- The flush of every tunnel that is torn down. -/
def tunnelsFlushed (t : State) : State :=
  forAll ((List.range 256).filter fun n => t.rd (TT_STATE_STATE n) = stTEARING) (fun n u => enterQuarantine n (flushTunnel n u)) t

theorem onlyKeys_tunnelsFlushed (s : State) : onlyKeys flushKeys s (tunnelsFlushed s) :=
  .forAll (.refl _ s) fun n hn u => (onlyKeys_flushTunnel (List.mem_range.1 (List.mem_filter.1 hn).1) u).trans ((onlyKeys_enterQuarantine n _).mono fun _ => .inl)

theorem allPortsDown_eq (s : State) : allPortsDown s =
    (tunnelsFlushed ((forAll (goingDown s 3) (fun p u => portDown p 1 u) (cancelSolve s)).wr RST_CAUSE_PORT (s.rd RST_CAUSE_PORT))).wrs
      [(SYS_SETTLE_RUN, 0), (SYS_SETTLE_PEND, 0), (SYS_STAGE_FWRDY, 0)] := rfl

theorem allPortsDown_effects (s : State) : (allPortsDown s).rd SYS_STAGE_FWRDY = 0 ∧ (allPortsDown s).rd RST_FLTSTAT_SEQ = s.rd RST_FLTSTAT_SEQ := by
  have hdown : (forAll (goingDown s 3) (fun p u => portDown p 1 u) (cancelSolve s)).rd RST_FLTSTAT_SEQ = s.rd RST_FLTSTAT_SEQ :=
    forAll_induction (P := fun u => u.rd RST_FLTSTAT_SEQ = s.rd RST_FLTSTAT_SEQ) ((onlyKeys_cancelSolve_settle s).1 _ seq_not_settleKeys)
      fun p _ u hu => ((onlyKeys_portDown p 1 u).1 _ seq_not_portDownKeys).trans hu
  rw [allPortsDown_eq]
  generalize forAll (goingDown s 3) (fun p u => portDown p 1 u) (cancelSolve s) = t at hdown
  have hflush := (onlyKeys_tunnelsFlushed (t.wr RST_CAUSE_PORT (s.rd RST_CAUSE_PORT))).1 _ seq_not_flushKeys
  have hcause : (t.wr RST_CAUSE_PORT (s.rd RST_CAUSE_PORT)).rd RST_FLTSTAT_SEQ = t.rd RST_FLTSTAT_SEQ := State.rd_wr_ne _ _ _ _ (by decide)
  exact ⟨rd_wrs_eq (by decide) (by simp) (by decide) _, (State.rd_wrs_ne _ _ _ (by decide)).trans (hflush.trans (hcause.trans hdown))⟩

/-! ### A state takes effect, and a level wakes from it (R434, R435) -/

/-- A state as it is shown, before the vault takes up what waited. -/
def stateShown (st : Nat) (s : State) : State := showIndicator (raise 16 0 (s.wrs [(PST_PSSTAT_STATE, st), (PST_PSSTAT_PHASE, 0), (PST_PSCTL_GO, 0)]))

theorem enterState_eq (st : Nat) (s : State) : enterState st s = nextKeys (stateShown st s) := rfl

theorem onlyWrites_stateShown (st : Nat) (s : State) : onlyWrites [PST_PSSTAT_STATE, PST_PSSTAT_PHASE, PST_PSCTL_GO, EVSTAT 16] [.sent, .mg] s (stateShown st s) :=
  (((onlyWrites.refl _ _ s).wrs_of (by simp)).raise_of (by simp) (by simp) 0).show_of (by simp)

theorem stateShown_effects {st : Nat} (hst : st < 8) (s : State) : (stateShown st s).rd PST_PSSTAT_STATE = st ∧ (stateShown st s).rd PST_PSSTAT_PHASE = 0 ∧
    (stateShown st s).rd PST_PSCTL_GO = 0 ∧ leafSet (stateShown st s) 16 0 := by
  have hnodup : ([(PST_PSSTAT_STATE, st), (PST_PSSTAT_PHASE, 0), (PST_PSCTL_GO, 0)].map fun x => x.1.key).Nodup :=
    show [PST_PSSTAT_STATE.key, PST_PSSTAT_PHASE.key, PST_PSCTL_GO.key].Nodup by decide
  have hstate : (s.wrs [(PST_PSSTAT_STATE, st), (PST_PSSTAT_PHASE, 0), (PST_PSCTL_GO, 0)]).rd PST_PSSTAT_STATE = st := rd_wrs_eq hnodup (by simp) hst s
  have hphase : (s.wrs [(PST_PSSTAT_STATE, st), (PST_PSSTAT_PHASE, 0), (PST_PSCTL_GO, 0)]).rd PST_PSSTAT_PHASE = 0 := rd_wrs_eq hnodup (by simp) (by decide) s
  have hgo : (s.wrs [(PST_PSSTAT_STATE, st), (PST_PSSTAT_PHASE, 0), (PST_PSCTL_GO, 0)]).rd PST_PSCTL_GO = 0 := rd_wrs_eq hnodup (by simp) (by decide) s
  unfold stateShown
  generalize s.wrs [(PST_PSSTAT_STATE, st), (PST_PSSTAT_PHASE, 0), (PST_PSCTL_GO, 0)] = t at hstate hphase hgo
  have hshow := onlyKeys_showIndicator (fun _ => False) (raise 16 0 t)
  have hrd (f : Fld) (hf : f.key ≠ (EVSTAT 16).key) : (showIndicator (raise 16 0 t)).rd f = t.rd f := (hshow.1 f id).trans (rd_raise_ne 16 0 _ f hf)
  exact ⟨(hrd _ (by decide)).trans hstate, (hrd _ (by decide)).trans hphase, (hrd _ (by decide)).trans hgo, hshow.2 16 0 (leafSet_raise 16 0 _ (by decide))⟩

theorem onlyWrites.coreEn_of {fs : List Fld} {ps : List Part} {s t : State} (h : onlyWrites fs ps s t) (hp : .bt ∈ ps) (x : Boot) : onlyWrites fs ps s { t with bt := x } := by
  refine h.trans ⟨fun _ _ => rfl, fun q hq => ?_⟩
  cases q
  case bt => exact absurd (List.mem_cons_of_mem _ hp) hq
  all_goals rfl

theorem onlyWrites_returnStarted (st : Nat) (t : State) : onlyWrites [PST_PSSTAT_PHASE, PST_PSSTAT_FROM, PST_WAKEST_SRC] [.sent, .bt, .ps] t (returnStarted st t) :=
  (((onlyWrites.refl _ _ t).wrs_of (by simp)).setPs_of (by simp) _).show_of (by simp)

theorem onlyWrites_returnAsked (st : Nat) (t : State) : onlyWrites [PST_PSSTAT_PHASE, PST_PSSTAT_FROM, PST_WAKEST_SRC] [.sent, .bt, .ps] t (returnAsked st t) := by
  have h := onlyWrites_returnStarted st t
  unfold returnAsked
  generalize returnStarted st t = u at h
  exact .ite (.refl _ _ t) (.ite ((h.coreEn_of (by simp) _).emit_of (by simp) _) h)

/-- In Rest and Dormant a wake writes what it shows, and drives CORE_EN at the most. -/
theorem onlyWrites_wakeUp_away {s : State} (h : 3 ≤ s.rd PST_PSSTAT_STATE) (src : Nat) :
    onlyWrites [PST_PSSTAT_PHASE, PST_PSSTAT_FROM, PST_WAKEST_SRC] [.sent, .bt, .ps] s (wakeUp src s) := by
  rw [wakeUp_eq, if_pos h]
  exact ((onlyWrites.refl _ _ s).wr_of (by simp) _).trans (onlyWrites_returnAsked _ _)

theorem released_wakeUp_away {s : State} (h : 3 ≤ s.rd PST_PSSTAT_STATE) (src : Nat) : (wakeUp src s).bt.released = s.bt.released := by
  have hstart (st : Nat) (t : State) : (returnStarted st t).bt = t.bt := showIndicator_frame (κ := 21) rfl (State_setPs_frame rfl (wrs_frame (k := 21) (by decide) (.refl 21 t)))
  rw [wakeUp_eq, if_pos h]
  unfold returnAsked
  split
  · rfl
  · have hbt := hstart (s.rd PST_PSSTAT_STATE) (s.wr PST_WAKEST_SRC (s.rd PST_WAKEST_SRC ||| 2 ^ src))
    generalize returnStarted (s.rd PST_PSSTAT_STATE) (s.wr PST_WAKEST_SRC (s.rd PST_WAKEST_SRC ||| 2 ^ src)) = u at hbt
    have hrel : u.bt.released = s.bt.released := congrArg Boot.released hbt
    split
    · exact hrel
    · exact hrel

/-- The shown sources only grow. -/
theorem wakeUp_away_keeps {s : State} (h : 3 ≤ s.rd PST_PSSTAT_STATE) {src : Nat} (hsrc : src < 8) {k : Nat} (hk : bit (s.rd PST_WAKEST_SRC) k = true) :
    bit ((wakeUp src s).rd PST_WAKEST_SRC) k = true := by
  obtain ⟨-, -, -, -, hkeep⟩ := returnAsked_effects (s.rd PST_PSSTAT_STATE) (s.wr PST_WAKEST_SRC (s.rd PST_WAKEST_SRC ||| 2 ^ src))
  rw [wakeUp_eq, if_pos h, hkeep,
    rd_wr_of_lt PST_WAKEST_SRC _ _ (Nat.or_lt_two_pow (State.rd_lt s PST_WAKEST_SRC) (Nat.pow_lt_pow_right (by decide) (show src < PST_WAKEST_SRC.w from hsrc)))]
  rw [bit_eq_testBit] at hk ⊢
  rw [Nat.testBit_or, hk, Bool.true_or]

/-- What the levels that were asserted do as Rest or Dormant is entered. -/
theorem wakes_away {ks : List Nat} (hks : ∀ k ∈ ks, k < 8) {s : State} (h : 3 ≤ s.rd PST_PSSTAT_STATE) :
    onlyWrites [PST_PSSTAT_PHASE, PST_PSSTAT_FROM, PST_WAKEST_SRC] [.sent, .bt, .ps] s (forAll ks wakeUp s) ∧ (forAll ks wakeUp s).bt.released = s.bt.released ∧
    (s.rd PST_PSSTAT_PHASE = 3 → (forAll ks wakeUp s).rd PST_PSSTAT_PHASE = 3) ∧
    (∀ k, bit (s.rd PST_WAKEST_SRC) k = true → bit ((forAll ks wakeUp s).rd PST_WAKEST_SRC) k = true) ∧
    ∀ k ∈ ks, (forAll ks wakeUp s).rd PST_PSSTAT_PHASE = 3 ∧ bit ((forAll ks wakeUp s).rd PST_WAKEST_SRC) k = true := by
  induction ks generalizing s with
  | nil => exact ⟨.refl _ _ s, rfl, id, fun _ => id, by simp⟩
  | cons k ks ih =>
    have hk : k < 8 := hks k (by simp)
    have honly := onlyWrites_wakeUp_away h k
    obtain ⟨hphase, hbit⟩ := wakeUp_away h hk
    have hrel := released_wakeUp_away h k
    have hkeep (j : Nat) (hj : bit (s.rd PST_WAKEST_SRC) j = true) := wakeUp_away_keeps h hk hj
    have hstate : (wakeUp k s).rd PST_PSSTAT_STATE = s.rd PST_PSSTAT_STATE := honly.1 _ (by decide)
    have hcons : forAll (k :: ks) wakeUp s = forAll ks wakeUp (wakeUp k s) := rfl
    rw [hcons]
    generalize wakeUp k s = t at honly hphase hbit hrel hkeep hstate
    obtain ⟨honly', hrel', hphase', hbits', hall⟩ := ih (fun j hj => hks j (by simp [hj])) (s := t) (by omega)
    refine ⟨honly.trans honly', hrel'.trans hrel, fun _ => hphase' hphase, fun j hj => hbits' j (hkeep j hj), fun j hj => ?_⟩
    rcases List.mem_cons.1 hj with rfl | hj
    · exact ⟨hphase' hphase, hbits' _ hbit⟩
    · exact hall j hj

/-! ### The shutdown into Rest and Dormant (R428, R431, R434) -/

/-- The hub with its ports down, before it is gated. -/
def shutDown (s : State) : State := allPortsDown (if (endTakeover s).rd PST_PSSTAT_STATE = 2 then leaveDoze (endTakeover s) else endTakeover s)

theorem seq_endTakeover (s : State) : (endTakeover s).rd RST_FLTSTAT_SEQ = 0 ∧ (s.rd RST_FLTSTAT_SEQ = 0 → endTakeover s = s) := by
  unfold endTakeover
  split
  · next h => exact ⟨h, fun _ => rfl⟩
  · next h =>
    refine ⟨?_, fun h0 => absurd h0 h⟩
    dsimp only
    rw [rd_raise_ne _ _ _ _ (by decide)]
    refine rd_wrs_eq ?_ (by simp) (by decide) _
    show [RST_FLTSTAT_SEQ.key, RST_FLTTIME_LAST.key, RST_FLTTIME_MAX.key].Nodup
    decide

theorem shutDown_effects (s : State) : (shutDown s).rd SYS_STAGE_FWRDY = 0 ∧ (shutDown s).rd RST_FLTSTAT_SEQ = 0 ∧ (shutDown s).kv = s.kv ∧
    (s.rd RST_FLTSTAT_SEQ = 0 → (shutDown s).dram = s.dram) := by
  obtain ⟨hseq, hsame⟩ := seq_endTakeover s
  have hkv : (endTakeover s).kv = s.kv := endTakeover_frame (κ := 26) rfl (.refl 26 s)
  have hdram (h : s.rd RST_FLTSTAT_SEQ = 0) : (endTakeover s).dram = s.dram := congrArg State.dram (hsame h)
  unfold shutDown
  generalize endTakeover s = t at hseq hkv hdram
  have hdoze : (if t.rd PST_PSSTAT_STATE = 2 then leaveDoze t else t).rd RST_FLTSTAT_SEQ = t.rd RST_FLTSTAT_SEQ ∧
      (if t.rd PST_PSSTAT_STATE = 2 then leaveDoze t else t).kv = t.kv ∧ (if t.rd PST_PSSTAT_STATE = 2 then leaveDoze t else t).dram = t.dram := by
    split
    · refine ⟨rd_leaveDoze (fun d => ?_) t, leaveDoze_frame (κ := 26) rfl (.refl 26 t), leaveDoze_frame (κ := 6) rfl (.refl 6 t)⟩
      simp only [RST_FLTSTAT_SEQ, PIPE_CTL_FHOLD, fld]
      omega
    · exact ⟨rfl, rfl, rfl⟩
  generalize (if t.rd PST_PSSTAT_STATE = 2 then leaveDoze t else t) = u at hdoze
  obtain ⟨hseq', hkv', hdram'⟩ := hdoze
  obtain ⟨hfw, hsq⟩ := allPortsDown_effects u
  refine ⟨hfw, hsq.trans (hseq'.trans hseq), ?_, fun h => ?_⟩
  · exact (show (allPortsDown u).kv = u.kv from allPortsDown_frame (κ := 26) rfl (.refl 26 u)).trans (hkv'.trans hkv)
  · exact (show (allPortsDown u).dram = u.dram from allPortsDown_frame (κ := 6) rfl (.refl 6 u)).trans (hdram'.trans (hdram h))

theorem exec_aonArmed {s : State} (h : s.rd PST_PSSTAT_PHASE = 2) : exec .aonArmed s = .next (forAll ((List.range 8).filter fun k => bit s.ps.level k) wakeUp
    ((enterState s.ps.target (if s.ps.target = 4 then gateDormant (shutDown s) else gateRest (shutDown s))).setPs {})) := by
  show execAonArmed s = _
  unfold execAonArmed
  rw [if_neg (by simp [h])]
  rfl

theorem gateRest_effects (s : State) : (gateRest s).pw.stopped = true ∧ (gateRest s).bt.released ≤ 3 ∧ (gateRest s).kv = s.kv ∧ (gateRest s).dram = s.dram ∧
    (gateRest s).rd PST_AVS_DUTY = 43 ∧ ∀ f : Fld, f.key ∉ [PST_AVS_DUTY.key, PST_AVS_TARGET.key] → (gateRest s).rd f = s.rd f := by
  refine ⟨rfl, Nat.min_le_left _ _, gateRest_frame (κ := 26) rfl (.refl 26 s), gateRest_frame (κ := 6) rfl (.refl 6 s),
    ?_, fun f hf => ?_⟩
  · exact rd_wrs_eq (l := [(PST_AVS_DUTY, 43), (PST_AVS_TARGET, 600 + 300 * 43 / 256)]) (f := PST_AVS_DUTY) (v := 43) (by decide) (by simp) (by decide) s
  · exact (onlyWrites_wrs (l := [(PST_AVS_DUTY, 43), (PST_AVS_TARGET, 600 + 300 * 43 / 256)]) (fs := [PST_AVS_DUTY, PST_AVS_TARGET]) (by simp) s).1 f (by simpa using hf)

theorem enterState_of_nil {s : State} (h : s.kv.waiting = []) (st : Nat) : enterState st s = stateShown st s := by
  have hkv : (stateShown st s).kv = s.kv := (onlyWrites_stateShown st s).2 .kv (by simp)
  rw [enterState_eq, nextKeys_of_nil (by rw [hkv]; exact h)]

theorem restEntered {s : State} (h : s.rd PST_PSSTAT_PHASE = 2) (ht : s.ps.target = 3) (hw : s.kv.waiting = []) : ∃ t, exec .aonArmed s = .next t ∧
    t.rd PST_PSSTAT_STATE = 3 ∧ t.rd SYS_STAGE_FWRDY = 0 ∧ t.pw.stopped = true ∧ t.bt.released ≤ 3 ∧ t.rd RST_FLTSTAT_SEQ = 0 ∧
    (s.rd RST_FLTSTAT_SEQ = 0 → t.dram = s.dram) ∧
    (s.ps.level = 0 → t.rd PST_PSSTAT_PHASE = 0) ∧
    (∀ k, k < 8 → bit s.ps.level k = true → t.rd PST_PSSTAT_PHASE = 3 ∧ bit (t.rd PST_WAKEST_SRC) k = true) := by
  have hexec := exec_aonArmed h
  rw [ht, if_neg (by decide)] at hexec
  obtain ⟨hfw, hseq, hkv, hdram⟩ := shutDown_effects s
  generalize shutDown s = d at hexec hfw hseq hkv hdram
  obtain ⟨hstop, hrel, hgkv, hgdram, -, hgrd⟩ := gateRest_effects d
  have hgfw := (hgrd SYS_STAGE_FWRDY (by decide)).trans hfw
  have hgseq := (hgrd RST_FLTSTAT_SEQ (by decide)).trans hseq
  generalize gateRest d = g at hexec hstop hrel hgkv hgdram hgfw hgseq
  rw [enterState_of_nil (by rw [hgkv, hkv]; exact hw)] at hexec
  have honly := onlyWrites_stateShown 3 g
  obtain ⟨hstate, hphase, -, -⟩ := stateShown_effects (st := 3) (by decide) g
  generalize stateShown 3 g = v at hexec honly hstate hphase
  have hstate' : (v.setPs {}).rd PST_PSSTAT_STATE = 3 := hstate
  obtain ⟨hwake, hwrel, -, -, hbits⟩ := wakes_away (ks := (List.range 8).filter fun k => bit s.ps.level k) (fun k hk => List.mem_range.1 (List.mem_filter.1 hk).1) (s := v.setPs {}) (by omega)
  have hzero : s.ps.level = 0 → (List.range 8).filter (fun k => bit s.ps.level k) = [] := fun h0 => by
    rw [h0]
    decide
  refine ⟨_, hexec, (hwake.1 _ (by decide)).trans hstate', (hwake.1 _ (by decide)).trans ((honly.1 SYS_STAGE_FWRDY (by decide)).trans hgfw), ?_, ?_,
    (hwake.1 _ (by decide)).trans ((honly.1 RST_FLTSTAT_SEQ (by decide)).trans hgseq), fun h0 => ?_, fun h0 => ?_, fun k hk hb => hbits k (List.mem_filter.2 ⟨List.mem_range.2 hk, hb⟩)⟩
  · have hpw : (forAll ((List.range 8).filter fun k => bit s.ps.level k) wakeUp (v.setPs {})).pw = g.pw := (hwake.2 .pw (by simp)).trans (honly.2 .pw (by simp))
    rw [hpw]
    exact hstop
  · have hbt : v.bt = g.bt := honly.2 .bt (by simp)
    rw [hwrel]
    show v.bt.released ≤ 3
    rw [hbt]
    exact hrel
  · exact ((hwake.2 .dram (by simp)).trans (honly.2 .dram (by simp))).trans (hgdram.trans (hdram h0))
  · rw [hzero h0]
    exact hphase

/-- The frame stores of the pipes are given up. -/
def framesDropped (t : State) : State := forAll (List.range 4) (fun d u => (u.wr (PIPE_STAT_FSVAL d) 0).setPipe d { (u.pipe d) with hAttrs := none }) t

/-- What Dormant shows of the load and of the supply. -/
def dormantShown : List (Fld × Nat) :=
  [(CFG_STATUS_LOADED, 0), (CFG_STATUS_HOLD, 0), (SYS_STAGE_HOLD, 0), (RST_BOOT_SAPDONE, 0), (PST_AVS_DUTY, 128), (PST_AVS_TARGET, 750)]

theorem stopForDormant_eq (s : State) : stopForDormant s =
    ((forAll (List.range 32) clearSlot (framesDropped ((treeReset (s.wr USB_STAT_PULLUP 0)).emit (.pin "UH0 pull-up" 0 false)))).wrs dormantShown).emit (.pin "CORE_EN" 0 false) := rfl

theorem rd_framesDropped {f : Fld} (hf : ∀ d, f.key ≠ (PIPE_STAT_FSVAL d).key) (s : State) : (framesDropped s).rd f = s.rd f :=
  forAll_induction (P := fun u => u.rd f = s.rd f) rfl fun d _ u hu => (State.rd_wr_ne u (PIPE_STAT_FSVAL d) f 0 (hf d)).trans hu

theorem slotsCleared_keeps (s : State) : onlyKeys stopKeys s (forAll (List.range 32) clearSlot s) ∧ (forAll (List.range 32) clearSlot s).kv.waiting = s.kv.waiting :=
  ⟨.forAll (.refl _ s) fun n hn u => onlyKeys_clearSlot (List.mem_range.1 hn) u,
    forAll_induction (P := fun u => u.kv.waiting = s.kv.waiting) rfl fun _ _ u hu => (stillStopped_clearSlot _ u).2.2.trans hu⟩

theorem dormant_apart : ∀ f ∈ [USB_STAT_PULLUP, SYS_STAGE_FWRDY], ¬ treeResetKey f.key ∧ ¬ stopKeys f.key ∧ ∀ g ∈ dormantShown, f.key ≠ g.1.key := by
  unfold treeResetKey stopKeys slotKeys loaderKeys groveUp
  decide

theorem stopForDormant_effects (s : State) : (stopForDormant s).rd CFG_STATUS_LOADED = 0 ∧ (stopForDormant s).rd USB_STAT_PULLUP = 0 ∧
    (stopForDormant s).rd SYS_STAGE_FWRDY = s.rd SYS_STAGE_FWRDY ∧ (stopForDormant s).kv.waiting = s.kv.waiting := by
  have hfsval (f : Fld) (hf : f ∈ [USB_STAT_PULLUP, SYS_STAGE_FWRDY]) (d : Nat) : f.key ≠ (PIPE_STAT_FSVAL d).key := by
    simp only [List.mem_cons, List.not_mem_nil, or_false] at hf
    rcases hf with rfl | rfl
    all_goals
      simp only [USB_STAT_PULLUP, SYS_STAGE_FWRDY, PIPE_STAT_FSVAL, fld]
      omega
  have htree := onlyKeys_treeReset (s.wr USB_STAT_PULLUP 0)
  have htreekv : (treeReset (s.wr USB_STAT_PULLUP 0)).kv = s.kv := treeReset_frame (κ := 26) rfl (show Frame 26 s (s.wr USB_STAT_PULLUP 0) from rfl)
  have hpull : (s.wr USB_STAT_PULLUP 0).rd USB_STAT_PULLUP = 0 := State.rd_wr_same s _ 0
  have hfw : (s.wr USB_STAT_PULLUP 0).rd SYS_STAGE_FWRDY = s.rd SYS_STAGE_FWRDY := State.rd_wr_ne _ _ _ _ (by decide)
  have hkv' (t : State) : (framesDropped (t.emit (.pin "UH0 pull-up" 0 false))).kv = t.kv :=
    forAll_induction (P := fun u => u.kv = t.kv) rfl fun d _ u hu => hu
  rw [stopForDormant_eq]
  generalize s.wr USB_STAT_PULLUP 0 = a at htree htreekv hpull hfw
  generalize treeReset a = b at htree htreekv
  have hframes (f : Fld) (hf : f ∈ [USB_STAT_PULLUP, SYS_STAGE_FWRDY]) : (framesDropped (b.emit (.pin "UH0 pull-up" 0 false))).rd f = a.rd f :=
    (rd_framesDropped (hfsval f hf) _).trans (htree.1 f (dormant_apart f hf).1)
  have hfkv := hkv' b
  generalize framesDropped (b.emit (.pin "UH0 pull-up" 0 false)) = c at hframes hfkv
  obtain ⟨hslots, hwait⟩ := slotsCleared_keeps c
  generalize forAll (List.range 32) clearSlot c = e at hslots hwait
  have hlast (f : Fld) (hf : f ∈ [USB_STAT_PULLUP, SYS_STAGE_FWRDY]) : (e.wrs dormantShown).rd f = a.rd f :=
    (State.rd_wrs_ne e _ f ((dormant_apart f hf).2.2)).trans ((hslots.1 f (dormant_apart f hf).2.1).trans (hframes f hf))
  have hkv : (e.wrs dormantShown).kv = e.kv := wrs_frame (k := 26) (by decide) (.refl 26 e)
  refine ⟨rd_wrs_eq (l := dormantShown) (f := CFG_STATUS_LOADED) (v := 0) (by decide) (by decide) (by decide) e, (hlast _ (by simp)).trans hpull, (hlast _ (by simp)).trans hfw, ?_⟩
  show (e.wrs dormantShown).kv.waiting = s.kv.waiting
  rw [hkv, hwait, hfkv, htreekv]

/-- The parts that Dormant gates. -/
def dormantGated (t : State) : State :=
  { t with dram := [], ld := { t.ld with doing := .idle, image := none, reload := none, lock := none }
           pw := { t.pw with stopped := true }
           bt := { t.bt with released := min 1 t.bt.released, coreEn := false, corePg := false, refLock := false, trained := false } }

theorem gateDormant_eq (s : State) : gateDormant s = dormantGated (stopForDormant s) := rfl

theorem dormantGated_effects (t : State) : (∀ f, (dormantGated t).rd f = t.rd f) ∧ (dormantGated t).kv = t.kv ∧ (dormantGated t).bt.released ≤ 1 ∧
    (dormantGated t).bt.coreEn = false ∧ (dormantGated t).dram = [] ∧ (dormantGated t).ld.image = none := ⟨fun _ => rfl, rfl, Nat.min_le_left _ _, rfl, rfl, rfl⟩

theorem dormantEntered {s : State} (h : s.rd PST_PSSTAT_PHASE = 2) (ht : s.ps.target = 4) (hl : s.ps.level = 0) (hw : s.kv.waiting = []) : ∃ t, exec .aonArmed s = .next t ∧
    t.rd PST_PSSTAT_STATE = 4 ∧ t.rd PST_PSSTAT_PHASE = 0 ∧ t.rd SYS_STAGE_FWRDY = 0 ∧ t.bt.released ≤ 1 ∧ t.bt.coreEn = false ∧ t.dram = [] ∧
    t.ld.image = none ∧ t.rd CFG_STATUS_LOADED = 0 ∧ t.rd USB_STAT_PULLUP = 0 := by
  have hexec := exec_aonArmed h
  have hzero : (List.range 8).filter (fun k => bit 0 k) = [] := by decide
  rw [ht, hl, hzero, if_pos rfl] at hexec
  obtain ⟨hfw, -, hkv, -⟩ := shutDown_effects s
  generalize shutDown s = d at hexec hfw hkv
  obtain ⟨hload, hpull, hfw', hwait⟩ := stopForDormant_effects d
  rw [gateDormant_eq] at hexec
  generalize stopForDormant d = e at hexec hload hpull hfw' hwait
  obtain ⟨hrd, hgkv, hrel, hcore, hdram', himage⟩ := dormantGated_effects e
  generalize dormantGated e = g at hexec hrd hgkv hrel hcore hdram' himage
  rw [enterState_of_nil (by rw [hgkv, hwait, hkv]; exact hw)] at hexec
  have honly := onlyWrites_stateShown 4 g
  obtain ⟨hstate, hphase, -, -⟩ := stateShown_effects (st := 4) (by decide) g
  have hbt := honly.2 .bt (by simp)
  have hdram := honly.2 .dram (by simp)
  have hld := honly.2 .ld (by simp)
  have hkeep (f : Fld) (hf : ∀ g ∈ [PST_PSSTAT_STATE, PST_PSSTAT_PHASE, PST_PSCTL_GO, EVSTAT 16], f.key ≠ g.key) : (stateShown 4 g).rd f = e.rd f := (honly.1 f hf).trans (hrd f)
  generalize stateShown 4 g = v at hexec hstate hphase hbt hdram hld hkeep
  refine ⟨_, hexec, hstate, hphase, (hkeep _ (by decide)).trans (hfw'.trans hfw), ?_, ?_, hdram.trans hdram', ?_, (hkeep _ (by decide)).trans hload, (hkeep _ (by decide)).trans hpull⟩
  · exact (congrArg Boot.released hbt).trans_le hrel
  · exact (congrArg Boot.coreEn hbt).trans hcore
  · exact (congrArg Loader.image hld).trans himage

/-! ### ENTRY_COMMIT (R434) -/

theorem exec_entryCommit {s : State} (h1 : s.rd PST_PSSTAT_PHASE = 1) (hw : s.ps.waiting = []) :
    (s.ps.target = 1 → exec .entryCommit s = .next ((enterState 1 s).setPs {})) ∧ (s.ps.target = 2 → exec .entryCommit s = .next (enterDoze s)) ∧
    (s.ps.target = 3 ∨ s.ps.target = 4 → exec .entryCommit s = .next (s.wr PST_PSSTAT_PHASE 2)) := by
  have hexec : exec .entryCommit s = execEntryCommit s := rfl
  rw [hexec, execEntryCommit, if_neg (by simp [h1, hw])]
  refine ⟨fun ht => ?_, fun ht => ?_, fun ht => ?_⟩
  · rw [ht]
    rfl
  · rw [ht]
    rfl
  · rcases ht with ht | ht
    all_goals
      rw [ht]
      rfl

/-- The hub as Doze finds it: what is gated is down, and the routed pipes are held (R430). -/
def dozeReady (s : State) : State :=
  let down := goingDown s 2
  let t := forAll down (fun p u => portDown p 1 u) s
  let t := if down.isEmpty then t else attachEvent t
  forAll ((List.range 4).filter fun d => t.on (PIPE_ROUTE_VALID d)) (fun d u => u.wr (PIPE_CTL_FHOLD d) 1) t

theorem enterDoze_eq (s : State) : enterDoze s = (nextKeys (stateShown 2 (dozeReady s))).setPs
    { downed := goingDown s 2, gated := (List.range 9).filter fun g => !dozePowered s g, dozeAt := (dozeReady s).clock } := rfl

/-- Settles O34, by the target of the entry. -/
theorem powerStatesAreEntered : Obligations.PowerStatesAreEntered := by
  unfold Obligations.PowerStatesAreEntered
  refine ⟨fun s h1 hw => ?_, fun s h => if_pos ?_, fun s h ht hw => restEntered h ht hw, fun s h ht hl hw => dormantEntered h ht hl hw, fun s h => if_pos h⟩
  · obtain ⟨hdrowse, hdoze, hdeep⟩ := exec_entryCommit h1 hw
    refine ⟨fun ht => ?_, fun ht => ?_, fun ht => ⟨_, hdeep ht, rd_wr_of_lt _ _ _ (by decide), onlyWrites_wr _ _ s⟩⟩
    · obtain ⟨hstate, hphase, hgo, hleaf⟩ := stateShown_effects (st := 1) (by decide) s
      exact ⟨stateShown 1 s, hdrowse ht, hstate, hphase, hgo, hleaf, onlyWrites_stateShown 1 s⟩
    · obtain ⟨hstate, hphase, hgo, hleaf⟩ := stateShown_effects (st := 2) (by decide) (dozeReady s)
      exact ⟨stateShown 2 (dozeReady s), _, (hdoze ht).trans (congrArg _ (enterDoze_eq s)), rfl, hstate, hphase, hgo, hleaf⟩
  · rcases h with h | h
    · exact .inl h
    · exact .inr (by simpa using h)

end Sys2Proof.Machine
end

section
set_option Elab.async false
/-! Waking and the return: sources, steps, their limit, buttons and idle links (R429, R435 to R438). -/

namespace Sys2Proof.Machine

open Sys2Proof Sys2Proof.Laws

/-! ### A source wakes the hub, or ends a request (R435, R436) -/

theorem exec_wake_enabled {k : WakeSrc} {s : State} (h : 3 ≤ s.rd PST_PSSTAT_STATE ∨ s.rd PST_PSSTAT_PHASE ≠ 0) :
    (wakeEnabled s k.val = true → exec (.wake k) s = .next (wakeUp k.val s)) ∧ (wakeEnabled s k.val = false → exec (.wake k) s = .next s) := by
  have hlight : ¬ (s.rd PST_PSSTAT_STATE < 3 ∧ s.rd PST_PSSTAT_PHASE = 0) := by omega
  have hexec : exec (.wake k) s = execWake k s := rfl
  rw [hexec, execWake]
  rw [if_neg hlight]
  exact ⟨fun hk => congrArg _ (if_pos hk), fun hk => congrArg _ (if_neg (by simp [hk]))⟩

theorem exec_wake_light {k : WakeSrc} {s : State} (hs : s.rd PST_PSSTAT_STATE < 3) (hp : s.rd PST_PSSTAT_PHASE = 0) :
    (k.val = 4 ∨ k.val = 5 → exec (.wake k) s = .next s) ∧ (k.val ≠ 4 → k.val ≠ 5 → exec (.wake k) s = .next (wakeUp k.val s)) := by
  have hexec : exec (.wake k) s = execWake k s := rfl
  rw [hexec, execWake]
  rw [if_pos ⟨hs, hp⟩]
  exact ⟨fun hk => congrArg _ (if_pos hk), fun h4 h5 => congrArg _ (if_neg (by omega))⟩

/-- The return as it begins: what it shows, and CORE_EN from Dormant (R437). -/
theorem returnBegins {st : Nat} (hst : st < 8) {t : State} (hp : t.rd PST_PSSTAT_PHASE ≠ 3) : (returnAsked st t).rd PST_PSSTAT_FROM = st ∧ (returnAsked st t).ps.step = 1 ∧
    (returnAsked st t).ps.wakeAt = t.clock ∧ (st = 4 → (returnAsked st t).bt.coreEn = true ∧ (returnAsked st t).sent.head? = some (.pin "CORE_EN" 0 true)) := by
  have hnodup : ([(PST_PSSTAT_PHASE, 3), (PST_PSSTAT_FROM, st)].map fun x => x.1.key).Nodup := show [PST_PSSTAT_PHASE.key, PST_PSSTAT_FROM.key].Nodup by decide
  have hfrom : (returnStarted st t).rd PST_PSSTAT_FROM = st := ((onlyKeys_showIndicator (fun _ => False) _).1 _ id).trans (rd_wrs_eq hnodup (by simp) hst t)
  have hps : (returnStarted st t).ps = { (t.wrs [(PST_PSSTAT_PHASE, 3), (PST_PSSTAT_FROM, st)]).ps with step := 1, wakeAt := (t.wrs [(PST_PSSTAT_PHASE, 3), (PST_PSSTAT_FROM, st)]).clock } :=
    showIndicator_frame (κ := 27) rfl (.refl 27 _)
  have hclock : (t.wrs [(PST_PSSTAT_PHASE, 3), (PST_PSSTAT_FROM, st)]).clock = t.clock := wrs_frame (k := 2) (by decide) (.refl 2 t)
  have hstep : (returnStarted st t).ps.step = 1 := congrArg PsReq.step hps
  have hat : (returnStarted st t).ps.wakeAt = t.clock := (congrArg PsReq.wakeAt hps).trans hclock
  unfold returnAsked
  rw [if_neg hp]
  generalize returnStarted st t = u at hfrom hstep hat
  split
  · exact ⟨hfrom, hstep, hat, fun _ => ⟨rfl, rfl⟩⟩
  · next h4 => exact ⟨hfrom, hstep, hat, fun h => absurd h h4⟩

theorem wakesFromRest {k : WakeSrc} {s : State} (hs : 3 ≤ s.rd PST_PSSTAT_STATE) (hp : s.rd PST_PSSTAT_PHASE ≠ 3) :
    (wakeEnabled s k.val = true → ∃ t, exec (.wake k) s = .next t ∧ t.rd PST_PSSTAT_PHASE = 3 ∧
      t.rd PST_PSSTAT_FROM = s.rd PST_PSSTAT_STATE ∧ bit (t.rd PST_WAKEST_SRC) k.val = true ∧ t.ps.step = 1 ∧ t.ps.wakeAt = s.clock ∧
      (s.rd PST_PSSTAT_STATE = 4 → t.bt.coreEn = true ∧ t.sent.head? = some (.pin "CORE_EN" 0 true)) ∧
      onlyWrites [PST_PSSTAT_PHASE, PST_PSSTAT_FROM, PST_WAKEST_SRC] [.sent, .bt, .ps] s t) ∧
    (wakeEnabled s k.val = false → exec (.wake k) s = .next s) := by
  obtain ⟨hon, hoff⟩ := exec_wake_enabled (k := k) (s := s) (.inl hs)
  refine ⟨fun hk => ?_, hoff⟩
  obtain ⟨hphase, hbit⟩ := wakeUp_away hs k.isLt
  have honly := onlyWrites_wakeUp_away hs k.val
  have hwr : (s.wr PST_WAKEST_SRC (s.rd PST_WAKEST_SRC ||| 2 ^ k.val)).rd PST_PSSTAT_PHASE ≠ 3 := by
    rw [State.rd_wr_ne _ _ _ _ (by decide)]
    exact hp
  obtain ⟨hfrom, hstep, hat, hcore⟩ := returnBegins (State.rd_lt s PST_PSSTAT_STATE) hwr
  have heq : wakeUp k.val s = returnAsked (s.rd PST_PSSTAT_STATE) (s.wr PST_WAKEST_SRC (s.rd PST_WAKEST_SRC ||| 2 ^ k.val)) := by
    rw [wakeUp_eq, if_pos hs]
  rw [← heq] at hfrom hstep hat hcore
  exact ⟨_, hon hk, hphase, hfrom, hbit, hstep, hat, hcore, honly⟩

theorem leafSet_toActive {s : State} (h : s.rd PST_PSSTAT_STATE = 1 ∨ s.rd PST_PSSTAT_STATE = 2) : leafSet (toActive s) 16 0 := by
  have hshow : leafSet (showIndicator (raise 16 0 (s.wrs [(PST_PSSTAT_STATE, 0), (PST_PSCTL_GO, 0)]))) 16 0 :=
    (onlyKeys_showIndicator (fun _ => False) _).2 16 0 (leafSet_raise 16 0 _ (by decide))
  unfold toActive
  dsimp only
  rw [if_neg (by omega)]
  split
  · exact (onlyKeys_leaveDoze _).2 16 0 hshow
  · exact hshow

theorem wakesFromDoze {k : WakeSrc} {s : State} (hs : s.rd PST_PSSTAT_STATE = 1 ∨ s.rd PST_PSSTAT_STATE = 2) (hp : s.rd PST_PSSTAT_PHASE = 0) (h4 : k.val ≠ 4) (h5 : k.val ≠ 5) :
    ∃ t, exec (.wake k) s = .next t ∧ t.rd PST_PSSTAT_STATE = 0 ∧ t.rd PST_PSCTL_GO = 0 ∧ leafSet t 16 0 ∧ partsOnly [.regs, .sent, .mg, .fb, .pp, .ps] s t := by
  have hexec := (exec_wake_light (k := k) (s := s) (by omega) hp).2 h4 h5
  rw [wakeUp_eq, if_neg (by omega), if_neg (by omega), if_neg (by omega)] at hexec
  obtain ⟨hstate, hgo⟩ := toActive_effects hs
  refine ⟨_, hexec, hstate, hgo, leafSet_toActive hs, partsOnly_of_frames (fun k hk => toActive_frame hk (.refl k s)) rfl⟩

/-! ### The return from Rest and from Dormant (R437) -/

theorem exec_returnStep {s : State} (hp : s.rd PST_PSSTAT_PHASE = 3) :
    (s.rd PST_PSSTAT_STATE = 3 → (s.ps.step = 1 → exec .returnStep s = .next (setDuty (avsDuty s) (s.setPs { s.ps with step := 2 }))) ∧
      (s.ps.step = 2 → exec .returnStep s = .next (s.setPs { s.ps with step := 3 })) ∧
      (s.ps.step = 3 → exec .returnStep s = .next { (s.setPs { s.ps with step := 4 }) with pw := { s.pw with stopped := false } }) ∧
      (s.ps.step = 4 → exec .returnStep s = .next (restLogic s))) ∧
    (s.rd PST_PSSTAT_STATE = 4 → (s.ps.step = 1 → s.bt.corePg = true → exec .returnStep s = .next { (s.setPs { s.ps with step := 2 }) with bt := { s.bt with t0 := s.clock } }) ∧
      (s.ps.step = 2 → exec .returnStep s = .next { (s.setPs { s.ps with step := 4 }) with bt := { s.bt with refLock := true } }) ∧
      (s.ps.step = 4 → exec .returnStep s = .next (if s.on SYS_STAGE_FWRDY then returned s else s))) := by
  have hexec : exec .returnStep s = execReturnStep s := rfl
  rw [hexec, execReturnStep]
  dsimp only
  rw [if_neg (by simp [hp])]
  refine ⟨fun h3 => ?_, fun h4 => ?_⟩
  · rw [if_pos h3]
    refine ⟨fun h => ?_, fun h => ?_, fun h => ?_, fun h => ?_⟩
    all_goals
      rw [h]
      rfl
  · rw [if_neg (by omega)]
    refine ⟨fun h hpg => ?_, fun h => ?_, fun h => ?_⟩
    · rw [h, if_pos hpg]
      rfl
    · rw [h]
      rfl
    · rw [h]
      rfl

theorem avsDuty_lt (s : State) : avsDuty s < 256 := by
  have := Nat.mod_lt (Config.avsTrim ((List.range 32).map fun n => s.rd (FUSE_TRIM_V n))) (show 0 < 171 by decide)
  unfold avsDuty
  omega

theorem setDuty_effects {d : Nat} (hd : d < 256) (s : State) : (setDuty d s).rd PST_AVS_DUTY = d ∧ (setDuty d s).rd PST_AVS_TARGET = 600 + 300 * d / 256 ∧
    onlyWrites [PST_AVS_DUTY, PST_AVS_TARGET] [] s (setDuty d s) := by
  have hnodup : ([(PST_AVS_DUTY, d), (PST_AVS_TARGET, 600 + 300 * d / 256)].map fun x => x.1.key).Nodup := show [PST_AVS_DUTY.key, PST_AVS_TARGET.key].Nodup by decide
  exact ⟨rd_wrs_eq hnodup (by simp) hd s, rd_wrs_eq hnodup (by simp) (show 600 + 300 * d / 256 < 2 ^ 12 by omega) s, onlyWrites_wrs (by simp) s⟩

/-- The return as it ends, before the state is shown. -/
def returnTimed (s : State) : State := s.wrs [(PST_RETTIME_LAST, min (2 ^ 32 - 1) ((s.clock - s.ps.wakeAt) / 1000)), (SYS_STAGE_STAGE, 1)]

/-- The parts that the end of a return leaves. -/
def returnDone (s : State) : State := { s.setPs {} with sv := { s.sv with stood := false } }

theorem returned_eq (s : State) : returned s = returnDone (enterState 0 (returnTimed s)) := rfl

theorem rd_returnDone (s : State) (f : Fld) : (returnDone s).rd f = s.rd f := rfl

theorem returned_effects {s : State} (hw : s.kv.waiting = []) : (returned s).rd PST_PSSTAT_STATE = 0 ∧ (returned s).rd PST_PSSTAT_PHASE = 0 ∧
    (returned s).rd SYS_STAGE_STAGE = 1 ∧ (returned s).rd PST_RETTIME_LAST = min (2 ^ 32 - 1) ((s.clock - s.ps.wakeAt) / 1000) ∧
    (returned s).rd SYS_STAGE_FWRDY = s.rd SYS_STAGE_FWRDY ∧ (returned s).bt = s.bt := by
  have hkv : (returnTimed s).kv = s.kv := wrs_frame (k := 26) (by decide) (.refl 26 s)
  have hbt : (returnTimed s).bt = s.bt := wrs_frame (k := 21) (by decide) (.refl 21 s)
  have hnodup : ([(PST_RETTIME_LAST, min (2 ^ 32 - 1) ((s.clock - s.ps.wakeAt) / 1000)), (SYS_STAGE_STAGE, 1)].map fun x => x.1.key).Nodup :=
    show [PST_RETTIME_LAST.key, SYS_STAGE_STAGE.key].Nodup by decide
  have htime : (returnTimed s).rd PST_RETTIME_LAST = min (2 ^ 32 - 1) ((s.clock - s.ps.wakeAt) / 1000) :=
    rd_wrs_eq hnodup (by simp) (Nat.lt_of_le_of_lt (Nat.min_le_left _ _) (by decide)) s
  have hstage : (returnTimed s).rd SYS_STAGE_STAGE = 1 := rd_wrs_eq hnodup (by simp) (by decide) s
  have hfw : (returnTimed s).rd SYS_STAGE_FWRDY = s.rd SYS_STAGE_FWRDY := (onlyWrites_wrs (fs := [PST_RETTIME_LAST, SYS_STAGE_STAGE]) (by simp) s).1 _ (by decide)
  rw [returned_eq]
  generalize returnTimed s = t at hkv hbt htime hstage hfw
  rw [enterState_of_nil (by rw [hkv]; exact hw)]
  have honly := onlyWrites_stateShown 0 t
  obtain ⟨hstate, hphase, -, -⟩ := stateShown_effects (st := 0) (by decide) t
  generalize stateShown 0 t = u at honly hstate hphase
  simp only [rd_returnDone]
  exact ⟨hstate, hphase, (honly.1 _ (by decide)).trans hstage, (honly.1 _ (by decide)).trans htime, (honly.1 _ (by decide)).trans hfw, (honly.2 .bt (by simp)).trans hbt⟩

/-- The fields that the firmware sets of itself. -/
def startFields : List Fld := [PST_AVS_DUTY, PST_AVS_TARGET, PST_U2LEASE_PORTS, KEY_BLOB_PRESENT, KEY_BLOB_PAGE, KEY_BLOB_NEXT]

theorem onlyWrites_scanBlobs {fs : List Fld} {ps : List Part} {s t : State} (h : onlyWrites fs ps s t) (hfs : startFields ⊆ fs) : onlyWrites fs ps s (scanBlobs t) := by
  unfold scanBlobs
  dsimp only
  generalize (((List.range 4).map fun k => b2n (keyRecord t (k + 1)).isSome * 2 ^ k).sum) = v
  exact (h.wr_of (hfs (by simp [startFields])) v).wrs_of (by
    simp only [List.forall_mem_cons, List.not_mem_nil, false_implies, implies_true, and_true]
    exact ⟨hfs (by simp [startFields]), hfs (by simp [startFields])⟩)

theorem onlyWrites_firmwareSet (first : Bool) (t : State) : onlyWrites startFields [] t (firmwareSet first t) := by
  have hduty : onlyWrites startFields [] t (if t.rd PST_AVS_DUTY = 128 then setDuty (avsDuty t) t else t) :=
    .ite ((onlyWrites.refl _ _ t).wrs_of (by simp [startFields])) (.refl _ _ t)
  unfold firmwareSet
  generalize (if t.rd PST_AVS_DUTY = 128 then setDuty (avsDuty t) t else t) = u at hduty
  dsimp only
  generalize ((List.range 20).map fun k => b2n (u.on (USB_PST_PWR (k + 7))) * 2 ^ k).sum = v
  have hlease : onlyWrites startFields [] t (if first ∧ !u.on PD_GLOB_DBBOOT then u.wr PST_U2LEASE_PORTS v else u) := .ite (hduty.wr_of (by simp [startFields]) v) hduty
  generalize (if first ∧ !u.on PD_GLOB_DBBOOT then u.wr PST_U2LEASE_PORTS v else u) = w at hlease
  exact .ite (onlyWrites_scanBlobs hlease (List.Subset.refl _)) hlease

/-- While a return runs, the firmware that comes up takes no request up. -/
theorem firmwareUp_returning {s : State} (hp : s.rd PST_PSSTAT_PHASE = 3) : (firmwareUp s).rd SYS_STAGE_FWRDY = 1 ∧ (firmwareUp s).ps = s.ps ∧ (firmwareUp s).clock = s.clock ∧
    (firmwareUp s).kv = s.kv ∧ (firmwareUp s).bt = s.bt := by
  have hflag : (flagUp s).rd PST_PSSTAT_PHASE = s.rd PST_PSSTAT_PHASE :=
    (rd_raise_ne _ _ _ _ (by decide)).trans ((onlyWrites_wrs (fs := [SYS_STAGE_FWRDY, PD_GLOB_FWPOL]) (by simp) s).1 _ (by decide))
  have hflagps : (flagUp s).ps = s.ps := tunsDue_frame (κ := 27) rfl (raise_frame rfl (wrs_frame (k := 27) (by decide) (.refl 27 s)))
  have hset := onlyWrites_firmwareSet (!s.on PD_GLOB_FWPOL) (flagUp s)
  have hkept : firmwareUp s = firmwareSet (!s.on PD_GLOB_FWPOL) (flagUp s) := by
    rw [firmwareUp_eq]
    dsimp only
    rw [if_neg]
    rw [hset.1 PST_PSSTAT_PHASE (by decide), hflag, hp]
    simp
  refine ⟨(firmwareUp_effects s).1, ?_, firmwareUp_frame (κ := 2) rfl (.refl 2 s), firmwareUp_frame (κ := 26) rfl (.refl 26 s), firmwareUp_frame (κ := 21) rfl (.refl 21 s)⟩
  rw [hkept]
  exact (hset.2 .ps (by simp)).trans hflagps

/-- The domains of the logic step are released. -/
def logicReleased (s : State) : State := { s with bt := { s.bt with released := 18 } }

theorem restLogic_eq (s : State) : restLogic s = (if (trainPorts (returned (firmwareUp (logicReleased s)))).on CFG_STATUS_LOADED
    then startSettle (trainPorts (returned (firmwareUp (logicReleased s)))) else trainPorts (returned (firmwareUp (logicReleased s)))) := rfl

theorem onlyKeys_trainPorts (s : State) : onlyKeys groveUp s (trainPorts s) := by
  refine .forAll (.refl _ s) fun p _ u => ?_
  have htrain : onlyKeys groveUp u (startTraining p u) := (onlyKeys_startTraining p u).mono fun _ => groveUp_of_trainedKey
  exact .ite (.refl _ u) (.ite (.ite htrain (.ite (onlyKeys_enterChosen p u) (.refl _ u))) htrain)

/-- The fields by which a return is shown stand apart from what training and the settle timer write. -/
theorem returned_apart : ∀ f ∈ [PST_PSSTAT_STATE, PST_PSSTAT_PHASE, SYS_STAGE_FWRDY, SYS_STAGE_STAGE, PST_RETTIME_LAST],
    ¬ groveUp f.key ∧ ∀ g ∈ [SYS_SETTLE_PEND, SYS_SETTLE_RUN, SYS_GUARD_SETTLED], f.key ≠ g.key := by
  unfold groveUp
  decide

theorem onlyWrites_startSettle (s : State) : onlyWrites [SYS_SETTLE_PEND, SYS_SETTLE_RUN, SYS_GUARD_SETTLED] [.sv] s (startSettle s) := by
  have h := (onlyWrites.refl [SYS_SETTLE_PEND, SYS_SETTLE_RUN, SYS_GUARD_SETTLED] [.sv] s).wrs_of (l := [(SYS_SETTLE_PEND, 1), (SYS_SETTLE_RUN, 1), (SYS_GUARD_SETTLED, 0)]) (by simp)
  unfold startSettle
  generalize s.wrs [(SYS_SETTLE_PEND, 1), (SYS_SETTLE_RUN, 1), (SYS_GUARD_SETTLED, 0)] = t at h
  refine h.trans ⟨fun _ _ => rfl, fun q hq => ?_⟩
  cases q
  case sv => simp at hq
  all_goals rfl

theorem restLogic_effects {s : State} (hp : s.rd PST_PSSTAT_PHASE = 3) (hw : s.kv.waiting = []) : (restLogic s).rd PST_PSSTAT_STATE = 0 ∧ (restLogic s).rd PST_PSSTAT_PHASE = 0 ∧
    (restLogic s).rd SYS_STAGE_FWRDY = 1 ∧ (restLogic s).rd SYS_STAGE_STAGE = 1 ∧
    (restLogic s).rd PST_RETTIME_LAST = min (2 ^ 32 - 1) ((s.clock - s.ps.wakeAt) / 1000) ∧ (restLogic s).bt.released = 18 := by
  have hp' : (logicReleased s).rd PST_PSSTAT_PHASE = 3 := hp
  have hparts : (logicReleased s).ps = s.ps ∧ (logicReleased s).clock = s.clock ∧ (logicReleased s).kv = s.kv ∧ (logicReleased s).bt.released = 18 := ⟨rfl, rfl, rfl, rfl⟩
  rw [restLogic_eq]
  generalize logicReleased s = a at hp' hparts
  obtain ⟨hps, hclock, hkv, hrel⟩ := hparts
  obtain ⟨hfw, hfps, hfclock, hfkv, hfbt⟩ := firmwareUp_returning hp'
  generalize firmwareUp a = b at hfw hfps hfclock hfkv hfbt
  obtain ⟨hstate, hphase, hstage, htime, hfw', hbt⟩ := returned_effects (s := b) (by rw [hfkv, hkv]; exact hw)
  rw [hfclock, hclock, hfps, hps] at htime
  generalize returned b = c at hstate hphase hstage htime hfw' hbt
  have htrain := onlyKeys_trainPorts c
  have htbt : (trainPorts c).bt = c.bt := trainPorts_frame (κ := 21) rfl (.refl 21 c)
  generalize trainPorts c = d at htrain htbt
  have hsettle : onlyWrites [SYS_SETTLE_PEND, SYS_SETTLE_RUN, SYS_GUARD_SETTLED] [.sv] d (startSettle d) := onlyWrites_startSettle d
  have hlast : onlyWrites [SYS_SETTLE_PEND, SYS_SETTLE_RUN, SYS_GUARD_SETTLED] [.sv] d (if d.on CFG_STATUS_LOADED then startSettle d else d) := .ite hsettle (.refl _ _ d)
  have hkeep (f : Fld) (hf : f ∈ [PST_PSSTAT_STATE, PST_PSSTAT_PHASE, SYS_STAGE_FWRDY, SYS_STAGE_STAGE, PST_RETTIME_LAST]) :
      (if d.on CFG_STATUS_LOADED then startSettle d else d).rd f = c.rd f := (hlast.1 f (returned_apart f hf).2).trans (htrain.1 f (returned_apart f hf).1)
  refine ⟨(hkeep _ (by simp)).trans hstate, (hkeep _ (by simp)).trans hphase, (hkeep _ (by simp)).trans (hfw'.trans hfw), (hkeep _ (by simp)).trans hstage,
    (hkeep _ (by simp)).trans htime, ?_⟩
  rw [hlast.2 .bt (by simp), htbt, hbt, hfbt, hrel]

theorem partsOnly_setPs (s : State) (x : PsReq) : partsOnly [.ps] s (s.setPs x) := by
  intro q hq
  cases q
  case ps => simp at hq
  all_goals rfl

theorem returnsFromRest {s : State} (hp : s.rd PST_PSSTAT_PHASE = 3) (hs : s.rd PST_PSSTAT_STATE = 3) :
    (s.ps.step = 1 → ∃ t, exec .returnStep s = .next t ∧ t.ps.step = 2 ∧ t.rd PST_AVS_TARGET = 600 + 300 * t.rd PST_AVS_DUTY / 256 ∧
      onlyWrites [PST_AVS_DUTY, PST_AVS_TARGET] [.ps] s t) ∧
    (∀ n, n = 2 ∨ n = 3 → s.ps.step = n → ∃ t, exec .returnStep s = .next t ∧ t.ps.step = n + 1 ∧
      (n = 3 → t.pw.stopped = false) ∧ partsOnly [.ps, .pw] s t) ∧
    (s.ps.step = 4 → s.kv.waiting = [] → ∃ t, exec .returnStep s = .next t ∧ t.rd PST_PSSTAT_STATE = 0 ∧ t.rd PST_PSSTAT_PHASE = 0 ∧
      t.rd SYS_STAGE_FWRDY = 1 ∧ t.rd SYS_STAGE_STAGE = 1 ∧
      t.rd PST_RETTIME_LAST = min (2 ^ 32 - 1) ((s.clock - s.ps.wakeAt) / 1000) ∧ t.bt.released = 18) := by
  obtain ⟨h1, h2, h3, h4⟩ := (exec_returnStep hp).1 hs
  refine ⟨fun h => ?_, fun n hn h => ?_, fun h hw => ⟨_, h4 h, restLogic_effects hp hw⟩⟩
  · obtain ⟨hduty, htarget, honly⟩ := setDuty_effects (avsDuty_lt s) (s.setPs { s.ps with step := 2 })
    have hps : (setDuty (avsDuty s) (s.setPs { s.ps with step := 2 })).ps = { s.ps with step := 2 } := honly.2 .ps (by simp)
    refine ⟨_, h1 h, congrArg PsReq.step hps, by rw [htarget, hduty], ?_⟩
    exact ((onlyWrites.refl _ _ s).setPs_of (by simp) _).trans (honly.mono (List.Subset.refl _) (by simp))
  · rcases hn with rfl | rfl
    · exact ⟨_, h2 h, rfl, fun e => absurd e (by decide), (partsOnly_setPs s _).mono (by simp)⟩
    · refine ⟨_, h3 h, rfl, fun _ => rfl, fun q hq => ?_⟩
      cases q
      case ps => simp at hq
      case pw => simp at hq
      all_goals rfl

theorem returnsFromDormant {s : State} (hp : s.rd PST_PSSTAT_PHASE = 3) (hs : s.rd PST_PSSTAT_STATE = 4) :
    (s.ps.step = 1 → s.bt.corePg = true → ∃ t, exec .returnStep s = .next t ∧ t.ps.step = 2 ∧ t.bt.t0 = s.clock ∧ partsOnly [.ps, .bt] s t) ∧
    (s.ps.step = 2 → ∃ t, exec .returnStep s = .next t ∧ t.ps.step = 4 ∧ t.bt.refLock = true ∧ partsOnly [.ps, .bt] s t) ∧
    (s.ps.step = 4 → s.on SYS_STAGE_FWRDY = true → s.kv.waiting = [] → ∃ t, exec .returnStep s = .next t ∧ t.rd PST_PSSTAT_STATE = 0 ∧
      t.rd PST_PSSTAT_PHASE = 0 ∧ t.rd PST_RETTIME_LAST = min (2 ^ 32 - 1) ((s.clock - s.ps.wakeAt) / 1000)) ∧
    (s.ps.step = 4 → s.on SYS_STAGE_FWRDY = false → exec .returnStep s = .next s) := by
  obtain ⟨h1, h2, h4⟩ := (exec_returnStep hp).2 hs
  refine ⟨fun h hpg => ⟨_, h1 h hpg, rfl, rfl, fun q hq => ?_⟩, fun h => ⟨_, h2 h, rfl, rfl, fun q hq => ?_⟩, fun h hfw hw => ?_, fun h hfw => (h4 h).trans (congrArg _ (if_neg (by simp [hfw])))⟩
  · cases q
    case ps => simp at hq
    case bt => simp at hq
    all_goals rfl
  · cases q
    case ps => simp at hq
    case bt => simp at hq
    all_goals rfl
  · obtain ⟨hstate, hphase, -, htime, -, -⟩ := returned_effects hw
    exact ⟨_, (h4 h).trans (congrArg _ (if_pos hfw)), hstate, hphase, htime⟩

/-! ### A return that is late (R437) -/

/-- The return given up, before the hub is gated again. -/
def returnFailed (s : State) : State := showIndicator (raise 16 2 ((s.wrs [(PST_PSSTAT_PHASE, 0), (SYS_STAGE_FWRDY, 0)]).setPs {}))

/-- The parts that stop as Dormant is taken again. -/
def supplyOff (t : State) : State :=
  ({ t with bt := { t.bt with released := min 1 t.bt.released, coreEn := false, corePg := false, refLock := false, trained := false } }).emit (.pin "CORE_EN" 0 false)

theorem exec_returnTimeout {s : State} (hp : s.rd PST_PSSTAT_PHASE = 3) : exec .returnTimeout s =
    if (returnFailed s).rd PST_PSSTAT_STATE = 3 then .next (gateRest (returnFailed s)) else .next (supplyOff (forAll (List.range 32) clearSlot (returnFailed s))) := by
  have hexec : exec .returnTimeout s = execReturnTimeout s := rfl
  rw [hexec, execReturnTimeout, if_neg (by simp [hp])]
  rfl

theorem returnFailed_effects (s : State) : (returnFailed s).rd PST_PSSTAT_PHASE = 0 ∧ (returnFailed s).rd PST_PSSTAT_STATE = s.rd PST_PSSTAT_STATE ∧
    (returnFailed s).rd SYS_STAGE_FWRDY = 0 ∧ leafSet (returnFailed s) 16 2 := by
  have hshow := onlyKeys_showIndicator (fun _ => False) (raise 16 2 ((s.wrs [(PST_PSSTAT_PHASE, 0), (SYS_STAGE_FWRDY, 0)]).setPs {}))
  have hrd (f : Fld) (hf : f.key ≠ (EVSTAT 16).key) : (returnFailed s).rd f = (s.wrs [(PST_PSSTAT_PHASE, 0), (SYS_STAGE_FWRDY, 0)]).rd f :=
    (hshow.1 f id).trans (rd_raise_ne 16 2 _ f hf)
  refine ⟨(hrd _ (by decide)).trans (rd_wrs_eq (by decide) (by simp) (by decide) s), (hrd _ (by decide)).trans ?_,
    (hrd _ (by decide)).trans (rd_wrs_eq (by decide) (by simp) (by decide) s), hshow.2 16 2 (leafSet_raise 16 2 _ (by decide))⟩
  exact (onlyWrites_wrs (fs := [PST_PSSTAT_PHASE, SYS_STAGE_FWRDY]) (by simp) s).1 _ (by decide)

theorem returnTimesOut {s : State} (hp : s.rd PST_PSSTAT_PHASE = 3) : ∃ t, exec .returnTimeout s = .next t ∧ t.rd PST_PSSTAT_PHASE = 0 ∧
    t.rd PST_PSSTAT_STATE = s.rd PST_PSSTAT_STATE ∧ t.rd SYS_STAGE_FWRDY = 0 ∧ leafSet t 16 2 ∧
    (s.rd PST_PSSTAT_STATE = 3 → t.rd PST_AVS_DUTY = 43 ∧ t.pw.stopped = true ∧ t.bt.released ≤ 3) ∧
    (s.rd PST_PSSTAT_STATE = 4 → t.bt.coreEn = false ∧ t.bt.released ≤ 1) := by
  have hexec := exec_returnTimeout hp
  obtain ⟨hphase, hstate, hfw, hleaf⟩ := returnFailed_effects s
  generalize returnFailed s = u at hexec hphase hstate hfw hleaf
  by_cases h3 : s.rd PST_PSSTAT_STATE = 3
  · rw [if_pos (hstate.trans h3)] at hexec
    obtain ⟨hstop, hrel, -, -, hduty, hrd⟩ := gateRest_effects u
    have hev : (gateRest u).rd (EVSTAT 16) = u.rd (EVSTAT 16) := hrd _ (by decide)
    have hleaf' : leafSet (gateRest u) 16 2 := by
      unfold leafSet at hleaf ⊢
      rw [hev]
      exact hleaf
    exact ⟨_, hexec, (hrd _ (by decide)).trans hphase, (hrd _ (by decide)).trans hstate, (hrd _ (by decide)).trans hfw, hleaf', fun _ => ⟨hduty, hstop, hrel⟩, fun h4 => by omega⟩
  · rw [if_neg (by rw [hstate]; exact h3)] at hexec
    obtain ⟨hkeys, -⟩ := slotsCleared_keeps u
    generalize forAll (List.range 32) clearSlot u = v at hexec hkeys
    have hne (f : Fld) (hf : f ∈ [PST_PSSTAT_PHASE, PST_PSSTAT_STATE, SYS_STAGE_FWRDY]) : ¬ stopKeys f.key := by
      revert f
      unfold stopKeys slotKeys loaderKeys groveUp
      decide
    exact ⟨_, hexec, (hkeys.1 _ (hne _ (by simp))).trans hphase, (hkeys.1 _ (hne _ (by simp))).trans hstate, (hkeys.1 _ (hne _ (by simp))).trans hfw, hkeys.2 16 2 hleaf,
      fun h => absurd h h3, fun _ => ⟨rfl, Nat.min_le_left _ _⟩⟩

/-! ### Buttons and links (R429, R438) -/

theorem exec_button {e : BtnPort} {s : State} (hb : isButton s e.val = true) :
    (3 ≤ s.rd PST_PSSTAT_STATE → exec (.button e) s = .next (if wakeEnabled s (4 + e.val) then wakeUp (4 + e.val) s else s)) ∧
    (s.rd PST_PSSTAT_STATE < 3 → s.rd PST_PSSTAT_PHASE = 0 → exec (.button e) s = .next (raise 16 3 s)) := by
  have hexec : exec (.button e) s = execButton e s := rfl
  have hphase : (raise 16 3 s).rd PST_PSSTAT_PHASE = s.rd PST_PSSTAT_PHASE := rd_raise_ne 16 3 s _ (by decide)
  rw [hexec, execButton]
  dsimp only
  rw [if_neg (by simp [hb])]
  refine ⟨fun h => if_pos h, fun h h0 => ?_⟩
  rw [if_neg (by omega), if_neg]
  rw [hphase, h0]
  simp

theorem buttonPressed (e : BtnPort) (s : State) :
    (isButton s e.val = true → s.rd PST_PSSTAT_STATE < 3 → s.rd PST_PSSTAT_PHASE = 0 → ∃ t, exec (.button e) s = .next t ∧ leafSet t 16 3 ∧
      onlyWrites [EVSTAT 16] [.mg] s t) ∧
    (isButton s e.val = true → 3 ≤ s.rd PST_PSSTAT_STATE → s.rd PST_PSSTAT_PHASE = 0 →
      (wakeEnabled s (4 + e.val) = true →
        ∃ t, exec (.button e) s = .next t ∧ t.rd PST_PSSTAT_PHASE = 3 ∧ bit (t.rd PST_WAKEST_SRC) (4 + e.val) = true) ∧
      (wakeEnabled s (4 + e.val) = false → exec (.button e) s = .next s)) ∧
    (isButton s e.val = false → exec (.button e) s = .next s) := by
  have hlt := e.isLt
  refine ⟨fun hb hs hp => ⟨_, (exec_button hb).2 hs hp, leafSet_raise 16 3 s (by decide), onlyWrites_raise 16 3 s⟩, fun hb hs hp => ⟨fun hk => ?_, fun hk => ?_⟩, fun hb => ?_⟩
  · exact ⟨_, ((exec_button hb).1 hs).trans (congrArg _ (if_pos hk)), wakeUp_away hs (by omega)⟩
  · exact ((exec_button hb).1 hs).trans (congrArg _ (if_neg (by simp [hk])))
  · exact if_pos (by simp [hb])

theorem linkGoesIdle {p : Port} {s : State} (hs : s.rd PST_PSSTAT_STATE = 1 ∨ s.rd PST_PSSTAT_STATE = 2) (h2 : s.rd (ADP_STAT_STATE p.val) = 2)
    (hk : s.rd (ADP_STAT_PERS p.val) = 1 ∨ persUsb (s.rd (ADP_STAT_PERS p.val)) = true) :
    ∃ t, exec (.linkIdle p) s = .next t ∧ t.rd (ADP_STAT_STATE p.val) = 3 ∧ onlyWrites [ADP_STAT_STATE p.val] [] s t := by
  have hexec : exec (.linkIdle p) s = .next (s.wr (ADP_STAT_STATE p.val) 3) := congrArg Host.Outcome.next (if_pos ⟨hs, h2, hk⟩)
  exact ⟨_, hexec, rd_wr_of_lt _ _ _ (show 3 < 2 ^ 4 by decide), onlyWrites_wr _ _ s⟩

/-- Settles O35, by the state in which the source, the ready signal or the limit finds the hub. -/
theorem wakingAndReturning : Obligations.WakingAndReturning := by
  unfold Obligations.WakingAndReturning
  refine ⟨fun k s hs hp => wakesFromRest hs hp, fun k s hs hp h4 h5 => wakesFromDoze hs hp h4 h5, fun k s hs hp hk => (exec_wake_light hs hp).1 hk, fun k s hs hp hk => ?_,
    fun s hp hs => returnsFromRest hp hs, fun s hp hs => returnsFromDormant hp hs, fun s hp => returnTimesOut hp, fun s hp => ⟨if_pos hp, if_pos hp⟩, buttonPressed,
    fun p s hs h2 hk => linkGoesIdle hs h2 hk, fun p s h => congrArg Host.Outcome.next (if_neg fun hc => ?_)⟩
  · have hexec := (exec_wake_enabled (k := k) (s := s) (.inr (by omega))).1 hk
    rw [wakeUp_eq, if_neg (by omega), if_pos hp] at hexec
    exact ⟨_, hexec, requestRefused (by decide) rfl⟩
  · obtain ⟨hs, h2, -⟩ := hc
    omega

end Sys2Proof.Machine
end

section
set_option Elab.async false
/-! The end of the settle epoch, the solve's commit and the table swap (R23, R24, R95, R115 to R117). -/

namespace Sys2Proof.Machine

open Sys2Proof Sys2Proof.Laws

/-! ### The solve's commit (R115) -/

/-- The inactive banks as a solve leaves them. -/
def solveTables (att : NMap Partner) (s : State) : State :=
  let rs := solved s att
  let u := forAll (commitRecord s att rs).plan commitEntry (forAll (List.range 256) (fun n t => t.wr (TT_ALLOT_NEXT n) 0) s)
  commitMap (chooseColours (raiseColours (ceilingDemand (solveEnv s att) rs) 400 (colourDemand (solveEnv s att) rs))) (commitCalendars rs u)

/-- What the solve shows of itself. -/
def solveShown (n refused degraded solves : Nat) : List (Fld × Nat) :=
  [(PST_SOLVE_BUSY, 0), (PST_SOLVE_ARMED, 1), (PST_SOLVE_REFUSED, refused), (PST_SOLVE_DEGRADED, degraded), (PST_SOLVE_TIME, min 255 n), (SYS_SETTLE_SOLVES, solves)]

theorem commitSolve_eq (n : Nat) (att : NMap Partner) (s : State) : ∃ refused degraded solves l,
    commitSolve n att s = (if solveCoreOver s att then raise 16 7 ((solveTables att s).wrs (solveShown n refused degraded solves)) else (solveTables att s).wrs (solveShown n refused degraded solves)).setSv
      { (if solveCoreOver s att then raise 16 7 ((solveTables att s).wrs (solveShown n refused degraded solves)) else (solveTables att s).wrs (solveShown n refused degraded solves)).sv with
        sample := none, commit := some (commitRecord s att (solved s att)), lastRefused := l, committedAt := s.clock } := ⟨_, _, _, _, rfl⟩

theorem sv_solveTables (att : NMap Partner) (s : State) : (solveTables att s).sv = s.sv :=
  commitMap_frame (κ := 9) rfl (commitCalendars_frame (κ := 9) rfl (forAll_induction (P := Frame 9 s)
    (forAll_induction (P := Frame 9 s) (.refl 9 s) fun _ _ _ hu => hu) fun _ _ _ hu => commitEntry_frame rfl hu))

theorem solveShown_effects (n refused degraded solves : Nat) (s : State) : (s.wrs (solveShown n refused degraded solves)).rd PST_SOLVE_BUSY = 0 ∧
    (s.wrs (solveShown n refused degraded solves)).rd PST_SOLVE_ARMED = 1 ∧ (s.wrs (solveShown n refused degraded solves)).rd PST_SOLVE_TIME = min 255 n := by
  have hnodup : ((solveShown n refused degraded solves).map fun x => x.1.key).Nodup :=
    show [PST_SOLVE_BUSY.key, PST_SOLVE_ARMED.key, PST_SOLVE_REFUSED.key, PST_SOLVE_DEGRADED.key, PST_SOLVE_TIME.key, SYS_SETTLE_SOLVES.key].Nodup by decide
  exact ⟨rd_wrs_eq hnodup (by simp [solveShown]) (by decide) s, rd_wrs_eq hnodup (by simp [solveShown]) (by decide) s,
    rd_wrs_eq hnodup (by simp [solveShown]) (Nat.lt_of_le_of_lt (Nat.min_le_left _ _) (by decide)) s⟩

theorem commitSolve_effects (n : Nat) (att : NMap Partner) (s : State) : (commitSolve n att s).sv.sample = none ∧ (commitSolve n att s).sv.commit.isSome = true ∧
    (commitSolve n att s).sv.committedAt = s.clock ∧ (commitSolve n att s).rd PST_SOLVE_BUSY = 0 ∧ (commitSolve n att s).rd PST_SOLVE_ARMED = 1 ∧
    (commitSolve n att s).rd PST_SOLVE_TIME = min 255 n ∧ (commitSolve n att s).sv.active = s.sv.active := by
  obtain ⟨refused, degraded, solves, l, heq⟩ := commitSolve_eq n att s
  have hsv := sv_solveTables att s
  rw [heq]
  generalize solveTables att s = t at hsv
  generalize commitRecord s att (solved s att) = c
  generalize solveCoreOver s att = b
  obtain ⟨hbusy, harmed, htime⟩ := solveShown_effects n refused degraded solves t
  have hsv' : (t.wrs (solveShown n refused degraded solves)).sv = t.sv := wrs_frame (k := 9) (by decide) (.refl 9 t)
  generalize t.wrs (solveShown n refused degraded solves) = u at hbusy harmed htime hsv'
  have hrd (f : Fld) (hf : f.key ≠ (EVSTAT 16).key) : (if b then raise 16 7 u else u).rd f = u.rd f := by
    split
    · exact rd_raise_ne 16 7 u f hf
    · rfl
  have hlast : (if b then raise 16 7 u else u).sv = u.sv := by
    split
    · exact raise_frame (κ := 9) rfl (.refl 9 u)
    · rfl
  generalize (if b then raise 16 7 u else u) = w at hrd hlast
  have hactive : w.sv.active = s.sv.active := congrArg Solver.active (hlast.trans (hsv'.trans hsv))
  exact ⟨rfl, rfl, rfl, (hrd _ (by decide)).trans hbusy, (hrd _ (by decide)).trans harmed, (hrd _ (by decide)).trans htime, hactive⟩

/-! ### A field that a chain of updates leaves (R116) -/

/-- The field reads as before. -/
def keeps (f : Fld) (s t : State) : Prop := t.rd f = s.rd f

section
variable {f : Fld} {s t u : State}

theorem keeps.refl (f : Fld) (s : State) : keeps f s s := rfl

theorem keeps.trans (h : keeps f s t) (g : keeps f t u) : keeps f s u := Eq.trans g h

theorem keeps.of_regs (h : keeps f s t) (hr : u.regs = t.regs) : keeps f s u := by
  unfold keeps at h ⊢
  rw [State.rd, hr]
  exact h

theorem keeps.wr_of (h : keeps f s t) {g : Fld} (hg : f.key ≠ g.key) (v : Nat) : keeps f s (t.wr g v) := Eq.trans (State.rd_wr_ne t g f v hg) h

theorem keeps.wrs_of (h : keeps f s t) {l : List (Fld × Nat)} (hl : ∀ e ∈ l, f.key ≠ e.1.key) : keeps f s (t.wrs l) := Eq.trans (State.rd_wrs_ne t l f hl) h

theorem keeps.raise_of (h : keeps f s t) (hf : ¬ leafKey f.key) (n b : Nat) : keeps f s (raise n b t) := Eq.trans (rd_raise_ne n b t f (ne_evstat hf n)) h

theorem keeps.ite {c : Prop} [Decidable c] (ht : keeps f s t) (hu : keeps f s u) : keeps f s (if c then t else u) := by
  split
  · exact ht
  · exact hu

theorem keeps.forAll {α : Type} {l : List α} {g : α → State → State} (h : keeps f s t) (hg : ∀ x ∈ l, ∀ u, keeps f u (g x u)) : keeps f s (forAll l g t) :=
  forAll_induction (P := keeps f s) h fun x hx _ hu => hu.trans (hg x hx _)

end

theorem keeps_of_keys {K : Nat → Prop} {f : Fld} {s t : State} (h : onlyKeys K s t) (hK : ¬ K f.key) : keeps f s t := h.1 f hK

/-! ### The swap leaves the bank's number to its end (R116) -/

/-- The registers of the chip's own units: below the tunnel table and below each grove's range. -/
def chipKey (k : Nat) : Prop := k < 0x800000

theorem chip_bank : chipKey PST_SOLVE_BANK.key ∧ ¬ leafKey PST_SOLVE_BANK.key := by
  unfold chipKey
  decide

section
variable {f : Fld} (hf : chipKey f.key)
include hf

theorem chip_ne {g : Fld} (hg : 0x800000 ≤ g.key) : f.key ≠ g.key := by
  unfold chipKey at hf
  omega

theorem keeps_applyTemplate (n : Nat) (s : State) : keeps f s (applyTemplate n s) :=
  keeps_of_keys (K := fun k => 0x2000000 ≤ k) (onlyKeys_applyTemplate (fun _ h => h) n s) (by
    unfold chipKey at hf
    omega)

theorem keeps_teardown (n c : Nat) (s : State) : keeps f s (teardown n c s) :=
  keeps_of_keys (K := fun k => 0x2000000 ≤ k) (onlyKeys_teardown (fun _ h => h) n c s) (by
    unfold chipKey at hf
    omega)

theorem keeps_becomeActive (x : TunPlan) (s : State) : keeps f s (becomeActive x s) := by
  have hwrs : keeps f s (s.wrs [(TT_STATE_STATE x.tun, stACTIVE), (TT_SEQ_INSEQ x.tun, 0), (TT_SEQ_OUTSEQ x.tun, 0)]) := by
    refine (keeps.refl f s).wrs_of ?_
    unfold chipKey at hf
    simp only [List.forall_mem_cons, List.not_mem_nil, false_implies, implies_true, and_true, TT_STATE_STATE, TT_SEQ_INSEQ, TT_SEQ_OUTSEQ, fld]
    omega
  unfold becomeActive
  dsimp only
  generalize s.wrs [(TT_STATE_STATE x.tun, stACTIVE), (TT_SEQ_INSEQ x.tun, 0), (TT_SEQ_OUTSEQ x.tun, 0)] = t at hwrs
  split
  · exact hwrs.of_regs rfl
  · exact .ite (hwrs.of_regs rfl) (hwrs.of_regs rfl)

theorem keeps_retrainTo (p kind st : Nat) (s : State) : keeps f s (retrainTo p kind st s) := by
  have hlink : ∀ g ∈ [ADP_STAT_STATE p, ADP_STAT_WIDTH p, ADP_STAT_RATE p, GRV_CALST_BT p], f.key ≠ g.key := by
    unfold chipKey at hf
    simp only [List.forall_mem_cons, List.not_mem_nil, false_implies, implies_true, and_true, ADP_STAT_STATE, ADP_STAT_WIDTH, ADP_STAT_RATE, GRV_CALST_BT, portReg, fld]
    omega
  unfold retrainTo
  split
  · exact .refl f s
  · next q _ =>
    refine .forAll ((keeps.refl f s).wrs_of ?_) fun c _ u => (keeps.refl f u).wr_of ?_ _
    · simp only [List.forall_mem_cons, List.not_mem_nil, false_implies, implies_true, and_true] at hlink ⊢
      exact hlink
    · unfold chipKey at hf
      simp only [LC_STAT_RATE, fld]
      omega

theorem keeps_imposeStep (x : TunPlan) (s : State) : keeps f s (imposeStep x s) := by
  have hmode : keeps f s (s.wr (TT_STATE_MODE x.tun) x.mode) := (keeps.refl f s).wr_of (chip_ne hf (by
    simp only [TT_STATE_MODE, fld]
    omega)) _
  unfold imposeStep
  dsimp only
  generalize s.wr (TT_STATE_MODE x.tun) x.mode = t at hmode
  refine .ite hmode ?_
  have hnote : keeps f s (t.emit (.note "mode step imposed" [x.port, x.kind, x.mode])) := hmode.of_regs rfl
  generalize t.emit (.note "mode step imposed" [x.port, x.kind, x.mode]) = u at hnote
  have hretrain : keeps f s (if (x.kind = 1 ∨ x.kind = 2) ∧ portUp u x.port then retrainTo x.port x.kind x.mode u else u) :=
    .ite (hnote.trans (keeps_retrainTo hf _ _ _ u)) hnote
  generalize (if (x.kind = 1 ∨ x.kind = 2) ∧ portUp u x.port then retrainTo x.port x.kind x.mode u else u) = w at hretrain
  refine .ite ?_ hretrain
  split
  · exact hretrain.of_regs rfl
  · exact hretrain

theorem keeps_swapEntry (x : TunPlan) (s : State) : keeps f s (swapEntry x s) := by
  unfold swapEntry
  refine .ite (.ite ((keeps_becomeActive hf x s).trans (keeps_imposeStep hf x _)) (.ite (.refl f s) (.ite (keeps_teardown hf _ _ s) (.ite ?_ (keeps_imposeStep hf x s)))))
    (.ite (keeps_teardown hf _ _ s) (.refl f s))
  exact (keeps_teardown hf x.tun 6 s).of_regs rfl

theorem keeps_swapAllot (n : Nat) (s : State) : keeps f s (swapAllot n s) := by
  refine .ite (.refl f s) (keeps.wr_of (.of_regs (.refl f s) rfl) (chip_ne hf ?_) _)
  simp only [TT_ALLOT_ACT, fld]
  omega

theorem keeps_swapGone (plan : List TunPlan) (n : Nat) (s : State) : keeps f s (swapGone plan n s) := by
  refine .ite (.refl f s) (.ite ((keeps.refl f s).wr_of (chip_ne hf ?_) _) (.ite (keeps_teardown hf n 1 s) (.refl f s)))
  simp only [TT_STATE_STATE, fld]
  omega

theorem keeps_flipCalendars (hleaf : ¬ leafKey f.key) (s : State) : keeps f s (flipCalendars s) := by
  have hqbv (p : Nat) (u : State) : keeps f u (adoptQbv p u) := by
    unfold adoptQbv
    refine .ite (.refl f u) ?_
    dsimp only
    refine .ite (keeps.raise_of ?_ hleaf _ _) (.of_regs (.refl f u) rfl)
    exact .of_regs (.refl f u) rfl
  unfold flipCalendars
  dsimp only
  refine .forAll (.of_regs (.forAll (.refl f s) fun p _ u => (keeps.refl f u).wrs_of ?_) rfl) fun p _ u => hqbv p u
  unfold chipKey at hf
  simp only [List.forall_mem_cons, List.not_mem_nil, false_implies, implies_true, and_true, GRV_CALST_BANK, GRV_CALCTL_MODE, portReg, fld]
  omega

end

theorem bank_adoptGeometry (s : State) : keeps PST_SOLVE_BANK s (adoptGeometry s) := by
  unfold adoptGeometry
  split
  · exact .refl _ s
  · next src total lp _ =>
    dsimp only
    generalize (s.sc.changing && decide (src = s.rd SCHED_LEAD_SRC)) = hold
    have hwrs : keeps PST_SOLVE_BANK s (s.wrs [(SCHED_LEAD_SRC, src), (SCHED_LTOT_TOTAL, total), (SCHED_LINC_INC, lincOf lp), (SCHED_LEAD_STATE, if hold then 3 else if src = 9 then 0 else 1)]) := by
      refine (keeps.refl _ s).wrs_of ?_
      simp only [List.forall_mem_cons, List.not_mem_nil, false_implies, implies_true, and_true]
      decide
    refine .ite (hwrs.of_regs rfl) (keeps.raise_of ?_ (by decide) 15 3)
    exact hwrs.of_regs rfl

theorem bank_giveGrants (g : NMap Nat) (s : State) : keeps PST_SOLVE_BANK s (giveGrants g s) := by
  unfold giveGrants
  refine keeps.wr_of (.wrs_of (.refl _ s) fun e he => ?_) (by decide) _
  obtain ⟨k, hk, rfl⟩ := List.mem_map.1 he
  have hlt := List.mem_range.1 hk
  simp only [PST_SOLVE_BANK, PST_GRANT_MW, fld]
  omega

/-- The tables as the swap leaves them, before it shows that it is done. -/
def tablesSwapped (c : Commit) (s : State) : State :=
  let t := forAll c.plan swapEntry (forAll (List.range 256) swapAllot s)
  let t := forAll ((List.range 256).drop 2) (swapGone c.plan) t
  reservePlaces (adoptOwn (adoptEth (flipCalendars (adoptGeometry t))))

/-- Credits, attributes and leases, which follow the tables. -/
def swapFollowed (c : Commit) (s t : State) : State :=
  let t := forAll (c.plan.filter fun x => s.rd (TT_STATE_STATE x.tun) = stADMIT) (fun x u =>
    let p := u.rd (TT_ENDP_INPORT x.tun)
    if p < 8 && canActive u p && creditGoverned u x.tun then sendCredit x.tun u else u) t
  giveGrants c.grants (armAttrs { t with sc := { t.sc with leads := c.leads } })

/-- The leaves of a swap that refuses or raises a step. -/
def swapReported (c : Commit) (s t : State) : State :=
  let raised := c.plan.any fun x => x.admitted && s.rd (TT_STATE_MODE x.tun) < x.mode
  let t := if 1 ≤ c.refused then raise 16 17 t else t
  if raised then raise 16 18 t else t

theorem bank_tablesSwapped (c : Commit) (s : State) : keeps PST_SOLVE_BANK s (tablesSwapped c s) := by
  obtain ⟨hchip, hleaf⟩ := chip_bank
  have hentries : keeps PST_SOLVE_BANK s (forAll c.plan swapEntry (forAll (List.range 256) swapAllot s)) :=
    .forAll (.forAll (.refl _ s) fun n _ u => keeps_swapAllot hchip n u) fun x _ u => keeps_swapEntry hchip x u
  unfold tablesSwapped
  dsimp only
  generalize forAll c.plan swapEntry (forAll (List.range 256) swapAllot s) = t at hentries
  have hgone : keeps PST_SOLVE_BANK s (forAll ((List.range 256).drop 2) (swapGone c.plan) t) := .forAll hentries fun n _ u => keeps_swapGone hchip c.plan n u
  generalize forAll ((List.range 256).drop 2) (swapGone c.plan) t = u at hgone
  have hflip := (hgone.trans (bank_adoptGeometry u)).trans (keeps_flipCalendars hchip hleaf _)
  generalize flipCalendars (adoptGeometry u) = w at hflip
  have heth : keeps PST_SOLVE_BANK s (adoptEth w) := hflip.of_regs (adoptEth_frame (κ := 1) rfl (.refl 1 w))
  generalize adoptEth w = x at heth
  have hown : keeps PST_SOLVE_BANK s (adoptOwn x) := heth.of_regs (adoptOwn_frame (κ := 1) rfl (.refl 1 x))
  generalize adoptOwn x = y at hown
  exact hown.of_regs (reservePlaces_frame (κ := 1) rfl (.refl 1 y))

theorem bank_swapFollowed (c : Commit) (s t : State) : keeps PST_SOLVE_BANK t (swapFollowed c s t) := by
  have hcredit : keeps PST_SOLVE_BANK t (forAll (c.plan.filter fun x => s.rd (TT_STATE_STATE x.tun) = stADMIT) (fun x u =>
      let p := u.rd (TT_ENDP_INPORT x.tun)
      if p < 8 && canActive u p && creditGoverned u x.tun then sendCredit x.tun u else u) t) := by
    refine .forAll (.refl _ t) fun x _ u => ?_
    exact .ite (.of_regs (.refl _ u) rfl) (.refl _ u)
  unfold swapFollowed
  generalize forAll (c.plan.filter fun x => s.rd (TT_STATE_STATE x.tun) = stADMIT) (fun x u =>
      let p := u.rd (TT_ENDP_INPORT x.tun)
      if p < 8 && canActive u p && creditGoverned u x.tun then sendCredit x.tun u else u) t = u at hcredit
  dsimp only
  have hleads : keeps PST_SOLVE_BANK t { u with sc := { u.sc with leads := c.leads } } := hcredit.of_regs rfl
  generalize ({ u with sc := { u.sc with leads := c.leads } } : State) = w at hleads
  have hattrs : keeps PST_SOLVE_BANK t (armAttrs w) := hleads.of_regs (armAttrs_frame (κ := 1) rfl (.refl 1 w))
  exact hattrs.trans (bank_giveGrants c.grants _)

theorem bank_swapReported (c : Commit) (s t : State) : keeps PST_SOLVE_BANK t (swapReported c s t) := by
  have hrefused : keeps PST_SOLVE_BANK t (if 1 ≤ c.refused then raise 16 17 t else t) := .ite ((keeps.refl _ t).raise_of chip_bank.2 16 17) (.refl _ t)
  unfold swapReported
  dsimp only
  exact .ite (hrefused.raise_of chip_bank.2 16 18) hrefused

/-! ### The swap shows that it is done (R116, R408) -/

/-- The swap with its bank, its leaf and its plan. -/
def swapShown (c : Commit) (t : State) : State :=
  let t := raise 25 2 (t.wrs [(PST_SOLVE_ARMED, 0), (PST_SOLVE_BANK, 1 - t.rd PST_SOLVE_BANK)])
  t.setSv { t.sv with commit := none, active := c.plan }

/-- What is told once the swap is done. -/
def swapTold (c : Commit) (t : State) : State :=
  let t := reportUp c.hubs (enterStand t)
  let t := forAll (cascadePorts t t.sv.att) (tellChild c.plan) t
  if !t.on SYS_SETTLE_RUN ∧ !t.on SYS_SETTLE_PEND then t.wr SYS_GUARD_SETTLED 1 else t

theorem swapTables_eq (c : Commit) (s : State) : swapTables c s = swapTold c (swapShown c (swapReported c s (swapFollowed c s (tablesSwapped c s)))) := by
  rfl

/-- What a report to the parent and the entry to Stand write: leaves, a crown grove's range, and the stage. -/
def toldKeys (k : Nat) : Prop := leafKey k ∨ groveUp k ∨ k ∈ [SYS_STAGE_STAGE.key, RST_BOOT_STANDTIME.key, SYS_GUARD_SETTLED.key]

theorem onlyKeys_writeReport_told {p : Nat} (hp : p < 2) (h : Nat) (u : State) : onlyKeys toldKeys u (writeReport p h u) := by
  unfold writeReport
  refine .raise (.wr (.wr (.forAll (.refl _ u) fun k hk v => .wrs (.refl _ v) ?_) ?_ ?_) ?_ ?_) (.inl (leafKey_evstat p))
  · have hlt := List.mem_range.1 hk
    simp only [List.forall_mem_cons, List.not_mem_nil, false_implies, implies_true, and_true, toldKeys, groveUp, leafKey,
      CAN_UPREP_VALID, CAN_UPREP_CLS, CAN_UPREP_CEIL, CAN_UPREP_FLOOR, fld]
    omega
  all_goals
    simp only [toldKeys, groveUp, leafKey, CAN_UPHDR_HUBS, CAN_UPHDR_SERIAL, fld]
    omega

theorem enterStand_effects (s : State) : onlyKeys toldKeys s (enterStand s) ∧ (enterStand s).sv = { s.sv with stood := true } := by
  unfold enterStand
  split
  · next h =>
    refine ⟨.refl _ s, ?_⟩
    rw [← h]
  · refine ⟨.raise (.wrs (.of_regs (.refl _ s) rfl) ?_) (.inl (leafKey_evstat 24)), ?_⟩
    · simp only [List.forall_mem_cons, List.not_mem_nil, false_implies, implies_true, and_true]
      exact ⟨⟨.inr (.inr (by simp)), by decide⟩, .inr (.inr (by simp)), by decide⟩
    · have hsv : (raise 24 4 ((s.setSv { s.sv with stood := true }).wrs [(SYS_STAGE_STAGE, 2), (RST_BOOT_STANDTIME, min 65535 (sinceStart s))])).sv = (s.setSv { s.sv with stood := true }).sv :=
        raise_frame (κ := 9) rfl (wrs_frame (k := 9) (by decide) (.refl 9 _))
      exact hsv

theorem swapTold_effects (c : Commit) (s : State) : onlyKeys toldKeys s (swapTold c s) ∧ (swapTold c s).sv = { s.sv with stood := true } := by
  obtain ⟨hstand, hsv⟩ := enterStand_effects s
  unfold swapTold
  generalize enterStand s = t at hstand hsv
  have hreport : onlyKeys toldKeys t (reportUp c.hubs t) := .forAll (.refl _ t) fun k hk u => .ite (onlyKeys_writeReport_told (by
    simp only [List.mem_cons, List.not_mem_nil, or_false] at hk
    omega) _ u) (.refl _ u)
  have hrsv : (reportUp c.hubs t).sv = t.sv := reportUp_frame (κ := 9) rfl (.refl 9 t)
  generalize reportUp c.hubs t = u at hreport hrsv
  dsimp only
  have htell : (forAll (cascadePorts u u.sv.att) (tellChild c.plan) u).regs = u.regs ∧ (forAll (cascadePorts u u.sv.att) (tellChild c.plan) u).sv = u.sv :=
    forAll_induction (P := fun w => w.regs = u.regs ∧ w.sv = u.sv) ⟨rfl, rfl⟩ fun e _ w hw =>
      ⟨(show (tellChild c.plan e w).regs = w.regs from tellChild_frame (κ := 1) rfl (.refl 1 w)).trans hw.1,
        (show (tellChild c.plan e w).sv = w.sv from tellChild_frame (κ := 9) rfl (.refl 9 w)).trans hw.2⟩
  have htold : onlyKeys toldKeys s (forAll (cascadePorts u u.sv.att) (tellChild c.plan) u) := (hstand.trans hreport).of_regs htell.1
  have htsv : (forAll (cascadePorts u u.sv.att) (tellChild c.plan) u).sv = { s.sv with stood := true } := htell.2.trans (hrsv.trans hsv)
  generalize forAll (cascadePorts u u.sv.att) (tellChild c.plan) u = w at htold htsv
  refine ⟨.ite (htold.wr (.inr (.inr (by simp))) (by decide)) htold, ?_⟩
  split
  · exact htsv
  · exact htsv

theorem swapShown_effects (c : Commit) (t : State) : (swapShown c t).rd PST_SOLVE_ARMED = 0 ∧ (swapShown c t).rd PST_SOLVE_BANK = 1 - t.rd PST_SOLVE_BANK ∧
    leafSet (swapShown c t) 25 2 ∧ (swapShown c t).sv.commit = none ∧ (swapShown c t).sv.active = c.plan := by
  have hlt : 1 - t.rd PST_SOLVE_BANK < 2 ^ 1 := by omega
  have hnodup : ([(PST_SOLVE_ARMED, 0), (PST_SOLVE_BANK, 1 - t.rd PST_SOLVE_BANK)].map fun x => x.1.key).Nodup := show [PST_SOLVE_ARMED.key, PST_SOLVE_BANK.key].Nodup by decide
  refine ⟨?_, ?_, leafSet_raise 25 2 _ (by decide), rfl, rfl⟩
  · exact (rd_raise_ne 25 2 _ PST_SOLVE_ARMED (by decide)).trans (rd_wrs_eq hnodup (by simp) (by decide) t)
  · exact (rd_raise_ne 25 2 _ PST_SOLVE_BANK (by decide)).trans (rd_wrs_eq hnodup (by simp) hlt t)

theorem told_apart : ∀ f ∈ [PST_SOLVE_ARMED, PST_SOLVE_BANK], ¬ toldKeys f.key := by
  unfold toldKeys groveUp
  decide

theorem swapTables_effects (c : Commit) (s : State) : (swapTables c s).sv.commit = none ∧ (swapTables c s).sv.active = c.plan ∧ (swapTables c s).rd PST_SOLVE_ARMED = 0 ∧
    (swapTables c s).rd PST_SOLVE_BANK = 1 - s.rd PST_SOLVE_BANK ∧ (swapTables c s).sv.stood = true ∧ leafSet (swapTables c s) 25 2 := by
  have hbank := ((bank_tablesSwapped c s).trans (bank_swapFollowed c s _)).trans (bank_swapReported c s _)
  rw [swapTables_eq]
  generalize swapReported c s (swapFollowed c s (tablesSwapped c s)) = t at hbank
  obtain ⟨harmed, hnew, hleaf, hcommit, hactive⟩ := swapShown_effects c t
  rw [hbank] at hnew
  generalize swapShown c t = u at harmed hnew hleaf hcommit hactive
  obtain ⟨hkeys, hsv⟩ := swapTold_effects c u
  rw [hsv]
  exact ⟨hcommit, hactive, (hkeys.1 _ (told_apart _ (by simp))).trans harmed, (hkeys.1 _ (told_apart _ (by simp))).trans hnew, rfl, hkeys.2 25 2 hleaf⟩

/-! ### The end of the settle epoch (R23, R24) -/

theorem att_withBeff {f : State → State} (hf : ∀ s, (f s).sv = s.sv) (s : State) : (withBeff f s).sv.att = s.sv.att := by
  rcases withBeff_cases f s with h | h
  · rw [h, hf]
  · rw [h, (sv_structuralEvent _).1, hf]

theorem att_recomputeLeases (s : State) : (recomputeLeases s).sv.att = s.sv.att := by
  have hgiven (m : NMap Nat) : (updateExt (withBeff (applyLeases m) s)).sv.att = s.sv.att :=
    (congrArg Solver.att (show (updateExt (withBeff (applyLeases m) s)).sv = _ from updateExt_frame (κ := 9) rfl (.refl 9 _))).trans
      (att_withBeff (fun u => applyLeases_frame (κ := 9) rfl (.refl 9 u)) s)
  unfold recomputeLeases
  split
  · rfl
  · dsimp only
    generalize leaseTable s (s.rd PP_FEED_ACTIVE) _ = m
    have h := hgiven m
    generalize updateExt (withBeff (applyLeases m) s) = t at h
    split
    · exact (congrArg Solver.att (show (raise 16 5 t).sv = t.sv from raise_frame (κ := 9) rfl (.refl 9 t))).trans h
    · exact h

theorem settleExpires {s : State} (ht : s.sv.tied = false) (hh : holdsOff s 18 = false) (hr : s.on SYS_SETTLE_RUN = true) (hf : s.on SYS_STAGE_FWRDY = true)
    (hl : s.on CFG_STATUS_LOADED = true) (he : engineRuns s = true) (hs : s.sv.sample = none) (hc : s.sv.commit = none) :
    ∃ t, exec .settleTimerExpiry s = .next t ∧ t.sv.sample = some s.sv.att ∧ t.rd PST_SOLVE_BUSY = 1 ∧ t.rd SYS_SETTLE_RUN = 0 ∧ t.rd SYS_SETTLE_PEND = 0 := by
  have hexec : exec .settleTimerExpiry s = execSettleTimerExpiry s := rfl
  have hatt := att_recomputeLeases s
  rw [execSettleTimerExpiry, if_neg (by simp [ht]), if_neg (by simp [hr, hf, hl, he, hh, hs, hc])] at hexec
  dsimp only at hexec
  have hwsv : ((recomputeLeases s).wrs [(SYS_SETTLE_RUN, 0), (SYS_SETTLE_PEND, 0), (PST_SOLVE_BUSY, 1)]).sv = (recomputeLeases s).sv := wrs_frame (k := 9) (by decide) (.refl 9 _)
  have hrun : ((recomputeLeases s).wrs [(SYS_SETTLE_RUN, 0), (SYS_SETTLE_PEND, 0), (PST_SOLVE_BUSY, 1)]).rd SYS_SETTLE_RUN = 0 := rd_wrs_eq (by decide) (by simp) (by decide) _
  have hpend : ((recomputeLeases s).wrs [(SYS_SETTLE_RUN, 0), (SYS_SETTLE_PEND, 0), (PST_SOLVE_BUSY, 1)]).rd SYS_SETTLE_PEND = 0 := rd_wrs_eq (by decide) (by simp) (by decide) _
  have hbusy : ((recomputeLeases s).wrs [(SYS_SETTLE_RUN, 0), (SYS_SETTLE_PEND, 0), (PST_SOLVE_BUSY, 1)]).rd PST_SOLVE_BUSY = 1 := rd_wrs_eq (by decide) (by simp) (by decide) _
  generalize (recomputeLeases s).wrs [(SYS_SETTLE_RUN, 0), (SYS_SETTLE_PEND, 0), (PST_SOLVE_BUSY, 1)] = t at hexec hwsv hrun hpend hbusy
  exact ⟨_, hexec, congrArg some ((congrArg Solver.att hwsv).trans hatt), hbusy, hrun, hpend⟩

/-! ### The host's choice (R95, R125) -/

theorem exec_hostselChange {p : Path} {v : Word} {s : State} (h : plainly s p 0x20804) : exec (.hostselChange p v) s = .next (wrHostsel v.toNat s) := by
  have hdecode : decodeAddr 0x20804 = some (.PST_HOSTSEL, 0, 0) := by decide +kernel
  exact congrArg Host.Outcome.next (pathWrite_of_plainly h (by decide) (decodeFor_of_decodeAddr hdecode rfl) rfl)

theorem runs_structuralEvent {s : State} (h : s.on CFG_STATUS_LOADED = true) : (structuralEvent s).rd SYS_SETTLE_RUN = 1 := by
  unfold structuralEvent
  rw [if_neg (by simp [h])]
  split
  · next hrun =>
    have hlt : s.rd SYS_SETTLE_RUN < 2 ^ 1 := State.rd_lt s SYS_SETTLE_RUN
    have hne : s.rd SYS_SETTLE_RUN ≠ 0 := by simpa [State.on] using hrun
    exact (State.rd_wr_ne s SYS_SETTLE_PEND SYS_SETTLE_RUN 1 (by decide)).trans (by omega)
  · exact rd_wrs_eq (l := [(SYS_SETTLE_PEND, 1), (SYS_SETTLE_RUN, 1), (SYS_GUARD_SETTLED, 0)]) (by decide) (by simp) (by decide) s

theorem hostChosen {p : Path} {v : Word} {s : State} (h : plainly s p 0x20804) : (v.toNat % 2 ^ 20 / 4 * 4 ≠ s.rd PST_HOSTSEL_SEL → ∃ t, exec (.hostselChange p v) s = .next t ∧
      t.rd PST_HOSTSEL_SEL = v.toNat % 2 ^ 20 / 4 * 4 ∧ (s.on CFG_STATUS_LOADED = true → t.rd SYS_SETTLE_PEND = 1 ∧ t.rd SYS_SETTLE_RUN = 1) ∧
      onlyWrites [PST_HOSTSEL_SEL, SYS_SETTLE_PEND, SYS_SETTLE_RUN, SYS_GUARD_SETTLED] [.sv] s t) ∧
    (v.toNat % 2 ^ 20 / 4 * 4 = s.rd PST_HOSTSEL_SEL → exec (.hostselChange p v) s = .next s) := by
  have hexec := exec_hostselChange (v := v) h
  have hx : v.toNat % 2 ^ 20 / 4 * 4 < 2 ^ 20 := by omega
  unfold wrHostsel at hexec
  dsimp only at hexec
  generalize v.toNat % 2 ^ 20 / 4 * 4 = x at hexec hx
  refine ⟨fun hne => ?_, fun he => by rw [hexec, if_pos he]⟩
  rw [if_neg hne, ifAllowed, if_pos (by simp [envAllows, h.2 PST_HOSTSEL_SEL.pos PST_HOSTSEL_SEL.w])] at hexec
  have hwr := onlyWrites_wr PST_HOSTSEL_SEL x s
  have hsel : (s.wr PST_HOSTSEL_SEL x).rd PST_HOSTSEL_SEL = x := rd_wr_of_lt _ _ _ hx
  have hload : (s.wr PST_HOSTSEL_SEL x).on CFG_STATUS_LOADED = s.on CFG_STATUS_LOADED :=
    congrArg (fun n => decide (n ≠ 0)) (State.rd_wr_ne s PST_HOSTSEL_SEL CFG_STATUS_LOADED x (by decide))
  generalize s.wr PST_HOSTSEL_SEL x = t at hexec hwr hsel hload
  have hevent := onlyWrites_structuralEvent t
  exact ⟨_, hexec, (hevent.1 _ (by decide)).trans hsel, fun hl => ⟨settlePend_structuralEvent (hload.trans hl), runs_structuralEvent (hload.trans hl)⟩,
    (hwr.mono (by simp) (by simp)).trans (hevent.mono (by simp) (by simp))⟩

/-- Settles O52, from what a commit and a swap leave (`commitSolve_effects`, `swapTables_effects`). -/
theorem solvesCommitAndSwap : Obligations.SolvesCommitAndSwap := by
  unfold Obligations.SolvesCommitAndSwap
  refine ⟨fun s ht hh hr hf hl he hs hc => settleExpires ht hh hr hf hl he hs hc, fun s ht => ⟨_, if_pos ht, rfl, fun q hq => ?_⟩, fun s ht h => ?_, fun n a s hs hf he hc => ?_,
    fun n s h => ?_, fun c s hc h0 hdue => ?_, fun s h => ?_, fun p v s h => hostChosen h⟩
  · cases q
    case sv => simp at hq
    all_goals rfl
  · have hexec : exec .settleTimerExpiry s = execSettleTimerExpiry s := rfl
    rw [hexec, execSettleTimerExpiry, if_neg (by simp [ht]), if_pos]
    rcases h with h | h | h | h | h
    all_goals simp [h]
  · have hexec : exec (.solveCommit n) s = execSolveCommit n s := rfl
    rw [execSolveCommit, hs] at hexec
    dsimp only at hexec
    rw [if_pos ⟨hf, he, by simp [hc]⟩] at hexec
    exact ⟨_, hexec, commitSolve_effects n a s⟩
  · have hexec : exec (.solveCommit n) s = execSolveCommit n s := rfl
    rw [hexec, execSolveCommit]
    rcases h with h | h
    · rw [h]
    · cases s.sv.sample with
      | none => rfl
      | some a => exact congrArg Host.Outcome.next (if_neg (by simp [h]))
  · have hexec : exec .tableSwap s = execTableSwap s := rfl
    rw [execTableSwap, hc] at hexec
    dsimp only at hexec
    rw [if_pos ⟨h0, hdue⟩] at hexec
    exact ⟨_, hexec, swapTables_effects c s⟩
  · have hexec : exec .tableSwap s = execTableSwap s := rfl
    rw [hexec, execTableSwap]
    cases hc : s.sv.commit with
    | none => rfl
    | some c =>
      refine congrArg Host.Outcome.next (if_neg fun hd => ?_)
      rcases h with h | h | h
      · exact absurd (hc.symm.trans h) (by simp)
      · exact h hd.1
      · omega

end Sys2Proof.Machine
end

section
set_option Elab.async false
/-! Images load (R47 to R53). -/

namespace Sys2Proof.Machine

open Sys2Proof Sys2Proof.Laws

theorem keeps.rd {f : Fld} {s t : State} (h : keeps f s t) : t.rd f = s.rd f := h

/-! ### What the loader's steps leave (R47 to R53) -/

/-- The loader's own fields, which no other unit's registers share. -/
def loadFields : List Fld := [CFG_STATUS_RESA, CFG_STATUS_RESB, CFG_STATUS_HOLD, SYS_STAGE_HOLD, CFG_RLDST_BUSY, CFG_RLDST_REJ, CFG_RLDST_CAUSE, CFG_CTL_CHECK, CFG_STATUS_LOADED,
  CFG_RELOAD_GROVE]

/-- The result of a copy. -/
def resOf (copyB : Bool) : Fld := if copyB then CFG_STATUS_RESB else CFG_STATUS_RESA

theorem resOf_mem (b : Bool) : resOf b ∈ loadFields := by
  cases b
  all_goals simp [resOf, loadFields]

theorem loadFields_apart : ∀ f ∈ loadFields, f.key < 0x300000 ∧ ¬ leafKey f.key ∧ f.key ≠ RST_BOOT_SAPDONE.key ∧ f.key ≠ RST_BOOT_SAPTIME.key := by decide

section
variable {f : Fld} (hf : f ∈ loadFields)
include hf

theorem keeps_setSlot_load (st keyid len gen : Nat) (v : Bytes) (s : State) : keeps f s (setSlot 1 st keyid len gen v s) := by
  have hlt := (loadFields_apart f hf).1
  refine rd_setSlot_ne (by decide) st keyid len gen v s fun g hg e => ?_
  have hge : 0x300000 ≤ g.key := by
    revert g
    simp only [slotFields]
    decide +revert
  omega

theorem keeps_dropKey (s : State) : keeps f s (dropKey s) := .ite (.refl f s) (keeps_setSlot_load hf 0 0 0 0 [] s)

theorem keeps_holdKey (b : Bool) (s : State) : keeps f s (holdKey b s) := by
  unfold holdKey
  refine .ite ?_ (.refl f s)
  split
  · exact keeps_setSlot_load hf ..
  · exact .refl f s

theorem keeps_startStream (b o x : Bool) (s : State) : keeps f s (startStream b o x s) := (keeps_holdKey hf b s).of_regs rfl

theorem keeps_checkSapling (s : State) : keeps f s (checkSapling s) := by
  obtain ⟨-, -, hdone, htime⟩ := loadFields_apart f hf
  refine .ite ((keeps.refl f s).wrs_of ?_) (.refl f s)
  simp only [List.forall_mem_cons, List.not_mem_nil, false_implies, implies_true, and_true]
  exact ⟨hdone, htime⟩

end

theorem dropKey_ld (s : State) : (dropKey s).ld = s.ld := dropKey_frame (κ := 8) rfl (.refl 8 s)

/-- A load that neither copy serves holds (R51). -/
theorem loadHold_effects (s : State) : (loadHold s).rd CFG_STATUS_HOLD = 1 ∧ (loadHold s).rd SYS_STAGE_HOLD = 1 ∧ (loadHold s).ld = { s.ld with doing := .idle } ∧
    ∀ b, (loadHold s).rd (resOf b) = s.rd (resOf b) := by
  have hdrop (b : Bool) := keeps_dropKey (resOf_mem b) s
  have hld := dropKey_ld s
  have hload : loadHold s = checkSapling (imageHold (dropKey s)) := rfl
  rw [hload]
  generalize dropKey s = t at hdrop hld
  have hhold : (imageHold t).rd CFG_STATUS_HOLD = 1 := hold_imageHold t
  have hstage : (imageHold t).rd SYS_STAGE_HOLD = 1 := rd_wrs_eq (l := [(CFG_STATUS_HOLD, 1), (SYS_STAGE_HOLD, 1)]) (by decide) (by simp) (by decide) t
  have hres (b : Bool) : (imageHold t).rd (resOf b) = t.rd (resOf b) := by
    refine (onlyWrites_wrs (l := [(CFG_STATUS_HOLD, 1), (SYS_STAGE_HOLD, 1)]) (fs := [CFG_STATUS_HOLD, SYS_STAGE_HOLD]) (by simp) t).1 _ ?_
    cases b <;> decide
  have hidle : (imageHold t).ld = { t.ld with doing := .idle } := (imageHold_stops t).2.1
  generalize imageHold t = u at hhold hstage hres hidle
  have hsap : (checkSapling u).ld = u.ld := checkSapling_frame (κ := 8) rfl (.refl 8 u)
  refine ⟨(keeps_checkSapling (by simp [loadFields]) u).rd.trans hhold, (keeps_checkSapling (by simp [loadFields]) u).rd.trans hstage, ?_, fun b => ?_⟩
  · rw [hsap, hidle, hld]
  · exact (keeps_checkSapling (resOf_mem b) u).rd.trans ((hres b).trans (hdrop b))

theorem rd_setRes (b : Bool) (code : Nat) (s : State) : (setRes b code s).rd (resOf b) = code % 16 ∧ (setRes b code s).rd (resOf !b) = s.rd (resOf !b) := by
  cases b
  · exact ⟨State.rd_wr_same s CFG_STATUS_RESA code, State.rd_wr_ne s CFG_STATUS_RESA CFG_STATUS_RESB code (by decide)⟩
  · exact ⟨State.rd_wr_same s CFG_STATUS_RESB code, State.rd_wr_ne s CFG_STATUS_RESB CFG_STATUS_RESA code (by decide)⟩

theorem startStream_doing (b o x : Bool) (s : State) : (startStream b o x s).ld.doing = .streaming b o x := rfl

theorem loadFailed_effects (b o : Bool) (code : Nat) (s : State) : (loadFailed b o code s).rd (resOf b) = code % 16 ∧
    (o = true → (loadFailed b o code s).ld.doing = .streaming (!b) false true) ∧
    (o = false → (loadFailed b o code s).ld.doing = .idle ∧ (loadFailed b o code s).rd CFG_STATUS_HOLD = 1) := by
  have hres := (rd_setRes b code (dropKey s)).1
  unfold loadFailed
  generalize setRes b code (dropKey s) = t at hres
  obtain ⟨hhold, -, hld, hkeep⟩ := loadHold_effects t
  cases o
  · exact ⟨(hkeep b).trans hres, fun h => absurd h (by decide), fun _ => ⟨congrArg Loader.doing hld, hhold⟩⟩
  · exact ⟨(keeps_startStream (resOf_mem b) (!b) false true t).rd.trans hres, fun _ => rfl, fun h => absurd h (by decide)⟩

/-! ### IMAGE_LOAD (R50, R51, R504) -/

/-- The codes of both headers are recorded: a copy that may stream reports 0. -/
def codesRecorded (s : State) : State :=
  setRes true (if headerResult s true = 1 then 0 else headerResult s true) (setRes false (if headerResult s false = 1 then 0 else headerResult s false) s)

/-- The read errors that the headers met are used up. -/
def headsTaken (t : State) : State := { t with ld := { t.ld with headA := false, headB := false } }

/-- Both headers are read and their codes recorded. -/
def headersRead (s : State) : State := headsTaken (codesRecorded s)

theorem headsTaken_effects (t : State) (f : Fld) : (headsTaken t).rd f = t.rd f := rfl

theorem headersRead_effects (s : State) (b : Bool) : (headersRead s).rd (resOf b) = (if headerResult s b = 1 then 0 else headerResult s b) % 16 := by
  unfold headersRead
  rw [headsTaken_effects]
  unfold codesRecorded
  cases b
  · have hfirst := (rd_setRes false (if headerResult s false = 1 then 0 else headerResult s false) s).1
    generalize setRes false (if headerResult s false = 1 then 0 else headerResult s false) s = t at hfirst
    exact (rd_setRes true _ t).2.trans hfirst
  · exact (rd_setRes true _ _).1

section
variable {s : State} (hf : s.on SYS_STAGE_FWRDY = true) (he : engineRuns s = true) (hl : s.on CFG_STATUS_LOADED = false) (hh : s.on CFG_STATUS_HOLD = false) (hd : s.ld.doing = .idle)
include hf he hl hh hd

theorem exec_imageLoad_held (hv : s.on KEY_VAULT_STHOLD = true ∨ s.on KEY_VAULT_HALT = true) : exec .imageLoad s = .next (loadHold s) := by
  have hexec : exec .imageLoad s = execImageLoad s := rfl
  rw [hexec, execImageLoad, if_neg (by simp [hf, he, hl, hh, hd]), if_pos hv]

theorem exec_imageLoad (hs : s.on KEY_VAULT_STHOLD = false) (hk : s.on KEY_VAULT_HALT = false) : exec .imageLoad s =
    if headerResult s false ≠ 1 ∧ headerResult s true ≠ 1 then .next (loadHold (headersRead s))
    else .next (startStream (headerResult s true = 1 && (headerResult s false ≠ 1 || preferB s (copyBase false) (copyBase true)))
      (headerResult s false = 1 && headerResult s true = 1) false (headersRead s)) := by
  have hexec : exec .imageLoad s = execImageLoad s := rfl
  rw [hexec, execImageLoad, if_neg (by simp [hf, he, hl, hh, hd]), if_neg (by simp [hs, hk])]
  rfl

end

theorem imageLoads {s : State} (hf : s.on SYS_STAGE_FWRDY = true) (he : engineRuns s = true) (hl : s.on CFG_STATUS_LOADED = false) (hh : s.on CFG_STATUS_HOLD = false)
    (hd : s.ld.doing = .idle) (hs : s.on KEY_VAULT_STHOLD = false) (hk : s.on KEY_VAULT_HALT = false) :
    (headerResult s false ≠ 1 → headerResult s true ≠ 1 → ∃ t, exec .imageLoad s = .next t ∧ t.rd CFG_STATUS_HOLD = 1 ∧
      t.rd SYS_STAGE_HOLD = 1 ∧ t.rd CFG_STATUS_RESA = headerResult s false % 16 ∧ t.rd CFG_STATUS_RESB = headerResult s true % 16 ∧
      t.ld.doing = .idle) ∧
    (headerResult s false = 1 → headerResult s true ≠ 1 → ∃ t, exec .imageLoad s = .next t ∧ t.ld.doing = .streaming false false false ∧
      t.rd CFG_STATUS_RESA = 0 ∧ t.rd CFG_STATUS_RESB = headerResult s true % 16) ∧
    (headerResult s false ≠ 1 → headerResult s true = 1 → ∃ t, exec .imageLoad s = .next t ∧ t.ld.doing = .streaming true false false ∧
      t.rd CFG_STATUS_RESA = headerResult s false % 16 ∧ t.rd CFG_STATUS_RESB = 0) ∧
    (headerResult s false = 1 → headerResult s true = 1 → ∃ t, exec .imageLoad s = .next t ∧
      t.ld.doing = .streaming (preferB s (copyBase false) (copyBase true)) true false ∧ t.rd CFG_STATUS_RESA = 0 ∧
      t.rd CFG_STATUS_RESB = 0) := by
  have hexec := exec_imageLoad hf he hl hh hd hs hk
  have hresA := headersRead_effects s false
  have hresB := headersRead_effects s true
  generalize headersRead s = t at hexec hresA hresB
  generalize preferB s (copyBase false) (copyBase true) = pref at hexec ⊢
  generalize headerResult s false = a at hexec hresA ⊢
  generalize headerResult s true = b at hexec hresB ⊢
  have hstream (x y : Bool) : (startStream x y false t).rd CFG_STATUS_RESA = t.rd CFG_STATUS_RESA ∧ (startStream x y false t).rd CFG_STATUS_RESB = t.rd CFG_STATUS_RESB :=
    ⟨keeps_startStream (by simp [loadFields]) x y false t, keeps_startStream (by simp [loadFields]) x y false t⟩
  refine ⟨fun ha hb => ?_, fun ha hb => ?_, fun ha hb => ?_, fun ha hb => ?_⟩
  · rw [if_pos ⟨ha, hb⟩] at hexec
    rw [if_neg ha] at hresA
    rw [if_neg hb] at hresB
    obtain ⟨hhold, hstage, hld, hkeep⟩ := loadHold_effects t
    exact ⟨_, hexec, hhold, hstage, (hkeep false).trans hresA, (hkeep true).trans hresB, congrArg Loader.doing hld⟩
  · rw [if_neg (by simp [ha])] at hexec
    rw [if_pos ha] at hresA
    rw [if_neg hb] at hresB
    exact ⟨_, hexec, by simp [startStream_doing, ha, hb], (hstream _ _).1.trans hresA, (hstream _ _).2.trans hresB⟩
  · rw [if_neg (by simp [hb])] at hexec
    rw [if_neg ha] at hresA
    rw [if_pos hb] at hresB
    exact ⟨_, hexec, by simp [startStream_doing, ha, hb], (hstream _ _).1.trans hresA, (hstream _ _).2.trans hresB⟩
  · rw [if_neg (by simp [ha])] at hexec
    rw [if_pos ha] at hresA
    rw [if_pos hb] at hresB
    exact ⟨_, hexec, by simp [startStream_doing, ha, hb], (hstream _ _).1.trans hresA, (hstream _ _).2.trans hresB⟩

/-! ### A copy that passes (R48, R54) -/

/-- What an image gives: fields of the raster, of pipes, of lane cells and groves, of the time bases, of the supply and of the channels. -/
def imageKeys (k : Nat) : Prop := 0x280000 ≤ k ∨ k < 0x200000

theorem resOf_apart (b : Bool) : ¬ imageKeys (resOf b).key := by
  unfold imageKeys
  cases b <;> decide

theorem imageFields_keys (im : Image) : ∀ e ∈ imageFields im, imageKeys e.1.key := by
  unfold imageFields
  dsimp only
  generalize im.chip 0x13 = disp
  generalize im.chip 0x11 = pw
  generalize im.chip 0x14 = tm
  simp only [List.forall_mem_append]
  refine ⟨⟨⟨⟨⟨⟨?_, ?_⟩, ?_⟩, ?_⟩, ?_⟩, ?_⟩, ?_⟩
  · split
    all_goals
      simp only [List.forall_mem_cons, List.not_mem_nil, false_implies, implies_true, and_true, imageKeys]
      decide
  · intro e he
    obtain ⟨d, -, he⟩ := List.mem_flatMap.1 he
    simp only [List.mem_cons, List.not_mem_nil, or_false] at he
    rcases he with rfl | rfl | rfl
    all_goals
      simp only [imageKeys, PIPE_ROUTE_VALID, PIPE_ROUTE_PORT, PIPE_NOTICE_DELAY, fld]
      omega
  · intro e he
    obtain ⟨r, -, he⟩ := List.mem_flatMap.1 he
    simp only [List.mem_cons, List.not_mem_nil, or_false] at he
    rcases he with rfl | rfl | rfl | rfl | rfl
    all_goals
      simp only [imageKeys, LC_CTL_TXPA, LC_CTL_TXPB, LC_CTL_RXPA, LC_CTL_RXPB, LC_STAT_DIR, fld]
      omega
  · intro e he
    obtain ⟨r, -, he⟩ := List.mem_flatMap.1 he
    rcases List.mem_append.1 he with he | he
    · simp only [List.mem_cons, List.not_mem_nil, or_false] at he
      rcases he with rfl | rfl | rfl
      all_goals
        simp only [imageKeys, GRV_CALCTL_MODE, GRV_CALCTL_LASTA, GRV_CALCTL_OVH, portReg, fld]
        omega
    · obtain ⟨k, -, rfl⟩ := List.mem_map.1 he
      simp only [imageKeys, GRV_CALA_ENTRY, portReg, fld]
      omega
  · split
    · simp
    · intro e he
      obtain ⟨k, -, he⟩ := List.mem_flatMap.1 he
      simp only [List.mem_cons, List.not_mem_nil, or_false] at he
      rcases he with rfl | rfl
      all_goals
        simp only [imageKeys, TIM_TBCTL_ROLE, TIM_TBCTL_ARG, fld]
        omega
  · simp only [List.forall_mem_cons, List.not_mem_nil, false_implies, implies_true, and_true, imageKeys]
    decide
  · intro e he
    obtain ⟨n, -, he⟩ := List.mem_flatMap.1 he
    simp only [List.mem_cons, List.not_mem_nil, or_false] at he
    rcases he with rfl | rfl | rfl | rfl
    all_goals
      simp only [imageKeys, PC_CTL_MODE, PC_CTL_RETRIES, PC_CTL_FLTT, PC_CTL_ILIM, fld]
      omega

theorem keeps_giveFields {f : Fld} {l : List (Fld × Nat)} (hl : ∀ e ∈ l, f.key ≠ e.1.key) (s : State) : keeps f s (giveFields l s) :=
  (keeps.refl f s).wrs_of fun e he => hl e (List.mem_filter.1 he).1

theorem resOf_not_lease (b : Bool) : (∀ n, ¬ leaseKey n (resOf b).key) ∧ ¬ treeLeaseKey (resOf b).key ∧ ¬ stewardKey (resOf b).key := by
  refine ⟨fun n => ?_, ?_, ?_⟩
  · cases b
    all_goals
      simp only [leaseKey, List.mem_cons, List.not_mem_nil, or_false, resOf, if_true, if_false, Bool.false_eq_true, CFG_STATUS_RESA, CFG_STATUS_RESB, PST_LEASE_MW, PD_STAT_CONTR, PD_RDO_RDO, PD_STAT_RPLVL,
        PD_GLOB_SEEDPORT, fld]
      omega
  · unfold treeLeaseKey
    cases b <;> decide
  · unfold stewardKey
    cases b <;> decide

theorem keeps_recomputeLeases (b : Bool) (s : State) : keeps (resOf b) s (recomputeLeases s) := by
  obtain ⟨hlease, htree, hsteward⟩ := resOf_not_lease b
  have hleaf : ¬ leafKey (resOf b).key := (loadFields_apart _ (resOf_mem b)).2.1
  have hchannels (m : NMap Nat) : keeps (resOf b) s (channelLeases m s) := by
    refine .forAll (.of_regs (.refl _ s) rfl) fun n hn u => keeps_of_keys (onlyKeys_setLease ?_ ?_ _ u) (hlease n)
    all_goals
      simp only [List.mem_cons, List.not_mem_nil, or_false] at hn
      omega
  have hgiven (m : NMap Nat) : keeps (resOf b) s (updateExt (withBeff (applyLeases m) s)) :=
    ((hchannels m).trans (keeps_of_keys (onlyKeys_applyLeases_tree m s) htree)).trans
      ((keeps_of_keys (onlyKeys_withBeff _ s) hsteward).trans (keeps_of_keys (onlyKeys_updateExt _) hsteward))
  unfold recomputeLeases
  refine .ite (.refl _ s) ?_
  dsimp only
  generalize leaseTable s (s.rd PP_FEED_ACTIVE) _ = m
  have h := hgiven m
  generalize updateExt (withBeff (applyLeases m) s) = t at h
  exact .ite (h.raise_of hleaf 16 5) h

theorem keeps_showImage (b c : Bool) (im : Image) (s : State) : keeps (resOf b) s (showImage c im s) := by
  unfold showImage
  refine (keeps.wrs_of (.refl _ s) ?_).wrs_of fun e he => ?_
  · simp only [List.forall_mem_cons, List.not_mem_nil, false_implies, implies_true, and_true]
    cases b <;> decide
  · obtain ⟨n, -, rfl⟩ := List.mem_map.1 he
    cases b
    all_goals
      simp only [resOf, if_true, if_false, Bool.false_eq_true, CFG_STATUS_RESA, CFG_STATUS_RESB, CFG_DIGEST_DIGEST, fld]
      omega

/-- The image store as it is taken, before the chip's sections apply. -/
def imageStored (x : Bool) (im : Image) (t : State) : State := { (t.setB CFG_STATUS_FALLBK x) with ld := { t.ld with doing := .configuring, image := some im } }

/-- The image's chip sections are in force. -/
def sectionsApplied (t : State) : State := applyPins (recomputeLeases { t with ld := { t.ld with porApplied := true } })

theorem takeImage_eq (b x : Bool) (im : Image) (s : State) : takeImage b x im s =
    sectionsApplied (giveFields ((imageFields im).filter fun e => !groveScoped e.1) (imageStored x im (showImage b im (dropKey s)))) := rfl

theorem sectionsApplied_effects (b : Bool) (t : State) : (sectionsApplied t).rd (resOf b) = t.rd (resOf b) ∧ (sectionsApplied t).ld = { t.ld with porApplied := true } := by
  have hmark : keeps (resOf b) t { t with ld := { t.ld with porApplied := true } } := .of_regs (.refl _ t) rfl
  have hld : ({ t with ld := { t.ld with porApplied := true } } : State).ld = { t.ld with porApplied := true } := rfl
  unfold sectionsApplied
  generalize ({ t with ld := { t.ld with porApplied := true } } : State) = u at hmark hld
  have hlease := hmark.trans (keeps_recomputeLeases b u)
  have hlld : (recomputeLeases u).ld = u.ld := recomputeLeases_frame (κ := 8) rfl (.refl 8 u)
  generalize recomputeLeases u = w at hlease hlld
  exact ⟨hlease.of_regs (applyPins_frame (κ := 1) rfl (.refl 1 w)), (show (applyPins w).ld = w.ld from applyPins_frame (κ := 8) rfl (.refl 8 w)).trans (hlld.trans hld)⟩

theorem takeImage_effects (b x : Bool) (im : Image) (s : State) : (takeImage b x im s).ld.image = some im ∧ (takeImage b x im s).ld.doing = .configuring ∧
    (takeImage b x im s).rd (resOf b) = s.rd (resOf b) := by
  have hshown := (keeps_dropKey (resOf_mem b) s).trans (keeps_showImage b b im _)
  rw [takeImage_eq]
  generalize showImage b im (dropKey s) = t at hshown
  have hstored : keeps (resOf b) s (imageStored x im t) := by
    refine (hshown.wr_of (g := CFG_STATUS_FALLBK) ?_ (b2n x)).of_regs rfl
    cases b <;> decide
  have hparts : (imageStored x im t).ld.image = some im ∧ (imageStored x im t).ld.doing = .configuring := ⟨rfl, rfl⟩
  generalize imageStored x im t = u at hstored hparts
  have hgiven := hstored.trans (keeps_giveFields (l := (imageFields im).filter fun e => !groveScoped e.1) (fun e he h =>
    resOf_apart b (h ▸ imageFields_keys im e (List.mem_filter.1 he).1)) u)
  have hgld : (giveFields ((imageFields im).filter fun e => !groveScoped e.1) u).ld = u.ld := giveFields_frame (κ := 8) rfl (.refl 8 u)
  generalize giveFields ((imageFields im).filter fun e => !groveScoped e.1) u = w at hgiven hgld
  obtain ⟨hres, hld⟩ := sectionsApplied_effects b w
  rw [hld, hgld]
  exact ⟨hparts.1, hparts.2, hres.trans hgiven⟩

/-! ### The end of a stream, and read errors (R47, R50) -/

theorem exec_imageStreamComplete_passes {b o x : Bool} {k : Nat} {im : Image} {s : State} (hd : s.ld.doing = .streaming b o x)
    (hc : streamCode s b = (k, some im)) : exec .imageStreamComplete s = .next (takeImage b x im (setRes b 1 s)) := by
  have hexec : exec .imageStreamComplete s = execImageStreamComplete s := rfl
  rw [execImageStreamComplete, hd] at hexec
  dsimp only at hexec
  rw [hc] at hexec
  exact hexec

theorem exec_imageStreamComplete_fails {b o x : Bool} {k : Nat} {s : State} (hd : s.ld.doing = .streaming b o x)
    (hc : streamCode s b = (k, none)) : exec .imageStreamComplete s = .next (loadFailed b o k s) := by
  have hexec : exec .imageStreamComplete s = execImageStreamComplete s := rfl
  rw [execImageStreamComplete, hd] at hexec
  dsimp only at hexec
  rw [hc] at hexec
  exact hexec

theorem exec_flashReadError {b o x : Bool} {s : State} (hd : s.ld.doing = .streaming b o x) (c : Bool) :
    exec (.flashReadError c) s = .next (if b = c then loadFailed c o 0xF s else s) := by
  have hexec : exec (.flashReadError c) s = execFlashReadError c s := rfl
  rw [hexec, execFlashReadError, hd]

theorem copiesStream {b o x : Bool} {s : State} (hd : s.ld.doing = .streaming b o x) :
    (∀ k im, streamCode s b = (k, some im) → ∃ t, exec .imageStreamComplete s = .next t ∧ t.ld.image = some im ∧
      t.ld.doing = .configuring ∧ t.rd (resOf b) = 1) ∧
    (∀ k, streamCode s b = (k, none) → o = true → ∃ t, exec .imageStreamComplete s = .next t ∧ t.ld.doing = .streaming (!b) false true ∧
      t.rd (resOf b) = k % 16) ∧
    (∀ k, streamCode s b = (k, none) → o = false → ∃ t, exec .imageStreamComplete s = .next t ∧ t.ld.doing = .idle ∧
      t.rd CFG_STATUS_HOLD = 1 ∧ t.rd (resOf b) = k % 16) ∧
    (∃ t, exec (.flashReadError b) s = .next t ∧ t.rd (resOf b) = 15 ∧ t.ld.doing = (if o then .streaming (!b) false true else .idle)) ∧
    exec (.flashReadError (!b)) s = .next s := by
  have hread := exec_flashReadError hd
  have hfailed (k : Nat) := loadFailed_effects b o k s
  refine ⟨fun k im hc => ?_, fun k hc ho => ?_, fun k hc ho => ?_, ?_, ?_⟩
  · obtain ⟨himage, hdoing, hres⟩ := takeImage_effects b x im (setRes b 1 s)
    exact ⟨_, exec_imageStreamComplete_passes hd hc, himage, hdoing, hres.trans (rd_setRes b 1 s).1⟩
  · obtain ⟨hres, hother, -⟩ := hfailed k
    exact ⟨_, exec_imageStreamComplete_fails hd hc, hother ho, hres⟩
  · obtain ⟨hres, -, hhold⟩ := hfailed k
    exact ⟨_, exec_imageStreamComplete_fails hd hc, (hhold ho).1, (hhold ho).2, hres⟩
  · obtain ⟨hres, hother, hhold⟩ := hfailed 0xF
    rw [hread b, if_pos rfl]
    refine ⟨_, rfl, hres, ?_⟩
    cases o
    · exact (hhold rfl).1
    · exact hother rfl
  · rw [hread (!b), if_neg (by cases b <;> decide)]

/-- The read error stands against a CHECK that runs. -/
theorem flashReadError_checked {a b : Bool} {s : State} (hd : s.ld.doing = .idle) (hr : s.ld.reload = none) (hc : s.ld.check = some (a, b)) (x : Bool) :
    ∃ t, exec (.flashReadError x) s = .next t ∧ t.ld.check = some (a || !x, b || x) ∧ partsOnly [.ld] s t := by
  have hexec : exec (.flashReadError x) s = execFlashReadError x s := rfl
  rw [execFlashReadError, hd] at hexec
  dsimp only at hexec
  rw [hr, hc] at hexec
  refine ⟨_, hexec, rfl, fun q hq => ?_⟩
  cases q
  case ld => exact absurd (List.mem_singleton.2 rfl) hq
  all_goals rfl

/-- Before a load the read error is met in the header. -/
theorem flashReadError_unread {s : State} (hd : s.ld.doing = .idle) (hr : s.ld.reload = none) (hc : s.ld.check = none) (hf : s.on SYS_STAGE_FWRDY = true)
    (hl : s.on CFG_STATUS_LOADED = false) (hh : s.on CFG_STATUS_HOLD = false) (x : Bool) :
    ∃ t, exec (.flashReadError x) s = .next t ∧ headerResult t x = 15 ∧ partsOnly [.ld] s t := by
  have hexec : exec (.flashReadError x) s = execFlashReadError x s := rfl
  rw [execFlashReadError, hd] at hexec
  dsimp only at hexec
  rw [hr, hc] at hexec
  dsimp only at hexec
  rw [if_neg (by simp [hf, hl, hh])] at hexec
  refine ⟨_, hexec, ?_, fun q hq => ?_⟩
  · unfold headerResult
    cases x
    all_goals simp
  · cases q
    case ld => exact absurd (List.mem_singleton.2 rfl) hq
    all_goals rfl

/-! ### The groves are configured (R53, R408) -/

/-- The grove's sections are in force, and the load is done. -/
def grovesConfigured (im : Image) (s : State) : State :=
  let t := giveFields ((imageFields im).filter fun e => groveScoped e.1) (s.wr PD_GLOB_DBDENY 0)
  { t with ld := { t.ld with doing := .idle } }

/-- The image is loaded, and its BASE is granted. -/
def loadedNow (t : State) : State := t.wrs [(CFG_STATUS_LOADED, 1), (PST_CUSE_GRANTED, baseMw t)]

theorem configureHub_eq (im : Image) (s : State) :
    configureHub im s = structuralEvent (checkSapling (trainPorts (copyNotices (startRaster (loadedNow (grovesConfigured im s)))))) := rfl

theorem loadedNow_effects (t : State) : (loadedNow t).rd CFG_STATUS_LOADED = 1 ∧ (loadedNow t).ld = t.ld := by
  refine ⟨?_, rfl⟩
  unfold loadedNow
  generalize baseMw t = v
  exact rd_wrs_eq (l := [(CFG_STATUS_LOADED, 1), (PST_CUSE_GRANTED, v)]) (f := CFG_STATUS_LOADED) (v := 1)
    (show [CFG_STATUS_LOADED.key, PST_CUSE_GRANTED.key].Nodup by decide) (by simp) (by decide) t

theorem configureHub_effects (im : Image) (s : State) : (configureHub im s).rd CFG_STATUS_LOADED = 1 ∧ (configureHub im s).ld.doing = .idle ∧
    (configureHub im s).rd SYS_SETTLE_PEND = 1 ∧ (configureHub im s).rd SYS_SETTLE_RUN = 1 := by
  rw [configureHub_eq]
  have hdoing : (grovesConfigured im s).ld.doing = .idle := rfl
  generalize grovesConfigured im s = t at hdoing
  obtain ⟨hloaded, hld⟩ := loadedNow_effects t
  generalize loadedNow t = u at hloaded hld
  have hready : keeps CFG_STATUS_LOADED u (copyNotices (startRaster u)) :=
    .of_regs (.of_regs (.refl _ u) rfl) (copyNotices_frame (κ := 1) rfl (.refl 1 _))
  have hready8 : (copyNotices (startRaster u)).ld = u.ld := copyNotices_frame (κ := 8) rfl (startRaster_frame (κ := 8) rfl (.refl 8 u))
  generalize copyNotices (startRaster u) = v at hready hready8
  have htrained : keeps CFG_STATUS_LOADED u (trainPorts v) :=
    hready.trans (keeps_of_keys (onlyKeys_trainPorts v) (by unfold groveUp; decide))
  have htrained8 : (trainPorts v).ld = v.ld := trainPorts_frame (κ := 8) rfl (.refl 8 v)
  generalize trainPorts v = w at htrained htrained8
  have hsap := htrained.trans (keeps_checkSapling (f := CFG_STATUS_LOADED) (by simp [loadFields]) w)
  have hsap8 : (checkSapling w).ld = w.ld := checkSapling_frame (κ := 8) rfl (.refl 8 w)
  generalize checkSapling w = z at hsap hsap8
  have hz : z.rd CFG_STATUS_LOADED = 1 := hsap.rd.trans hloaded
  have hon : z.on CFG_STATUS_LOADED = true := by simp [State.on, hz]
  have hev8 : (structuralEvent z).ld = z.ld := structuralEvent_frame (κ := 8) rfl (.refl 8 z)
  refine ⟨?_, ?_, settlePend_structuralEvent hon, runs_structuralEvent hon⟩
  · exact (rd_structuralEvent_ne z (by decide) (by decide) (by decide)).trans hz
  · rw [hev8, hsap8, htrained8, hready8, hld]
    exact hdoing

section
variable {im : Image} {s : State} (hd : s.ld.doing = .configuring) (hi : s.ld.image = some im) (hb : s.bt.retest = [])
include hd hi hb

theorem exec_imageConfigComplete : exec .imageConfigComplete s =
    if startDenied s then .next (denyStart s) else if beff s < baseMw s then .next (updateExt s) else .next (configureHub im s) := by
  have hexec : exec .imageConfigComplete s = execImageConfigComplete s := rfl
  rw [execImageConfigComplete, hd, hi] at hexec
  dsimp only at hexec
  rw [if_neg (by simp [hb])] at hexec
  exact hexec

theorem imageConfigures :
    (startDenied s = true → s.on PD_GLOB_DBDENY = false → ∃ t, exec .imageConfigComplete s = .next t ∧ t.rd PD_GLOB_DBDENY = 1 ∧
      leafSet t 18 8 ∧ onlyWrites [PD_GLOB_DBDENY, EVSTAT 18] [.mg] s t) ∧
    (startDenied s = false → beff s < baseMw s → ∃ t, exec .imageConfigComplete s = .next t ∧ t.rd PST_EXT_LOW = 1 ∧
      t.ld = s.ld ∧ t.rd CFG_STATUS_LOADED = s.rd CFG_STATUS_LOADED) ∧
    (startDenied s = false → baseMw s ≤ beff s → ∃ t, exec .imageConfigComplete s = .next t ∧ t.rd CFG_STATUS_LOADED = 1 ∧
      t.ld.doing = .idle ∧ t.rd SYS_SETTLE_PEND = 1 ∧ t.rd SYS_SETTLE_RUN = 1) := by
  have hexec := exec_imageConfigComplete hd hi hb
  refine ⟨fun hs hdb => ?_, fun hs hlow => ?_, fun hs hlow => ?_⟩
  · rw [if_pos hs, denyStart, if_neg (by simp [hdb])] at hexec
    refine ⟨_, hexec, ?_, leafSet_raise 18 8 _ (by decide), ((onlyWrites.refl _ _ s).wr_of (by simp) 1).raise_of (by simp) (by simp) 8⟩
    rw [rd_raise_ne 18 8 _ PD_GLOB_DBDENY (by decide)]
    exact State.rd_wr_same s PD_GLOB_DBDENY 1
  · rw [if_neg (by simp [hs]), if_pos hlow] at hexec
    refine ⟨_, hexec, ?_, ld_updateExt s, (onlyKeys_updateExt s).1 _ (by unfold stewardKey; decide)⟩
    rw [rd_low_updateExt, if_pos hlow]
  · rw [if_neg (by simp [hs]), if_neg (Nat.not_lt.2 hlow)] at hexec
    obtain ⟨hloaded, hdoing, hpend, hrun⟩ := configureHub_effects im s
    exact ⟨_, hexec, hloaded, hdoing, hpend, hrun⟩

end

theorem exec_imageLoad_idle {s : State} (h : s.on CFG_STATUS_LOADED = true ∨ s.ld.doing ≠ .idle) : exec .imageLoad s = .next s := by
  have hexec : exec .imageLoad s = execImageLoad s := rfl
  rw [hexec, execImageLoad, if_pos]
  rcases h with h | h
  · simp [h]
  · simp [h]

theorem exec_imageConfigComplete_idle {s : State} (h : s.ld.doing = .idle ∨ s.ld.image = none ∨ s.bt.retest ≠ []) : exec .imageConfigComplete s = .next s := by
  have hexec : exec .imageConfigComplete s = execImageConfigComplete s := rfl
  rw [hexec, execImageConfigComplete]
  split
  next im hd hi =>
    rcases h with h | h | h
    · simp [h] at hd
    · simp [h] at hi
    · rw [if_pos (by simpa using h)]
  next => rfl

/-- Settles O50. -/
theorem imagesLoad : Obligations.ImagesLoad := by
  unfold Obligations.ImagesLoad
  refine ⟨fun s hf he hl hh hd hs hk => imageLoads hf he hl hh hd hs hk, fun s hf he hl hh hd hv => ?_, fun s h => exec_imageLoad_idle h,
    fun b o x s hd => copiesStream hd, fun x a b s hd hr hc => flashReadError_checked hd hr hc x,
    fun x s hd hr hc hf hl hh => flashReadError_unread hd hr hc hf hl hh x, fun im s hd hi hb => imageConfigures hd hi hb,
    fun s h => exec_imageConfigComplete_idle h⟩
  obtain ⟨hhold, -, hld, -⟩ := loadHold_effects s
  exact ⟨_, exec_imageLoad_held hf he hl hh hd hv, hhold, congrArg Loader.doing hld,
    partsOnly_of_frames (fun k hk => loadHold_frame hk (.refl k s)) rfl⟩

end Sys2Proof.Machine
end

section
set_option Elab.async false
/-! CHECK, ADVANCE and slice reloads (R49, R55 to R67). -/

namespace Sys2Proof.Machine

open Sys2Proof Sys2Proof.Laws

/-! ### CHECK and ADVANCE (R49, R62, R66) -/

theorem pathWrite_cfgCtl {s : State} {p : Path} (h : writable s p 0x40040) (v : Nat) : pathWrite p 0x40040 v s = wrCfgCtl v s :=
  pathWrite_of_writable (r := .CFG_CTL) (i := 0) (j := 0) h (by decide) (decodeFor_of_decodeAddr (by decide) rfl) rfl

theorem exec_check {s : State} {p : Path} (h : writable s p 0x40040) : exec (.check p) s = .next (wrCfgCtl 4 s) :=
  congrArg Host.Outcome.next (pathWrite_cfgCtl h 4)

theorem wrCfgCtl_advance (s : State) : wrCfgCtl 2 s = advance s := by
  unfold wrCfgCtl
  simp [show bit 2 2 = false by decide, show bit 2 1 = true by decide]

theorem exec_advance {s : State} {p : Path} (h : writable s p 0x40040) : exec (.advance p) s = .next (advance s) :=
  congrArg Host.Outcome.next ((pathWrite_cfgCtl h 2).trans (wrCfgCtl_advance s))

/-- A check of both copies has begun, before their keys are fetched. -/
def checking (s : State) : State := { (s.wr CFG_CTL_CHECK 1) with ld := { s.ld with check := some (false, false) } }

theorem checking_effects (s : State) (f : Fld) : (checking s).rd f = (s.wr CFG_CTL_CHECK 1).rd f := rfl

theorem wrCfgCtl_check (s : State) : wrCfgCtl 4 s = if s.on CFG_RLDST_BUSY = false ∧ s.ld.check = none then holdKey false (holdKey true (checking s)) else s := by
  have hcond : (bit 4 2 = true ∧ (!s.on CFG_RLDST_BUSY) = true ∧ s.ld.check.isNone = true) ↔ s.on CFG_RLDST_BUSY = false ∧ s.ld.check = none := by
    simp [show bit 4 2 = true by decide]
  unfold wrCfgCtl
  simp only [hcond]
  rfl

theorem holdKey_ld (b : Bool) (s : State) : (holdKey b s).ld = s.ld := holdKey_frame (κ := 8) rfl (.refl 8 s)

theorem checking_parts (s : State) : partsOnly [.regs, .ld, .kv] s (checking s) := by
  intro q hq
  cases q
  case regs => simp at hq
  case ld => simp at hq
  all_goals rfl

theorem holdKey_parts (b : Bool) (s : State) : partsOnly [.regs, .ld, .kv] s (holdKey b s) :=
  partsOnly_of_parts fun k hk => holdKey_frame (testBit_sub rfl hk) (.refl k s)

theorem check_starts {s : State} {p : Path} (h : writable s p 0x40040) (hb : s.on CFG_RLDST_BUSY = false) (hc : s.ld.check = none) :
    ∃ t, exec (.check p) s = .next t ∧ t.ld.check = some (false, false) ∧ t.rd CFG_CTL_CHECK = 1 ∧ partsOnly [.regs, .ld, .kv] s t := by
  have hmark : (checking s).rd CFG_CTL_CHECK = 1 := (checking_effects s _).trans (rd_wr_of_lt _ _ _ (by decide))
  have hcheck : (checking s).ld.check = some (false, false) := rfl
  have hparts := checking_parts s
  refine ⟨_, exec_check h, ?_⟩
  rw [wrCfgCtl_check, if_pos ⟨hb, hc⟩]
  generalize checking s = t at hmark hcheck hparts ⊢
  have hkept : keeps CFG_CTL_CHECK t (holdKey false (holdKey true t)) :=
    (keeps_holdKey (by simp [loadFields]) true t).trans (keeps_holdKey (by simp [loadFields]) false _)
  exact ⟨(congrArg Loader.check ((holdKey_ld false _).trans (holdKey_ld true t))).trans hcheck, hkept.rd.trans hmark,
    hparts.trans ((holdKey_parts true t).trans (holdKey_parts false _))⟩

theorem check_ignored {s : State} {p : Path} (h : writable s p 0x40040) (hb : s.on CFG_RLDST_BUSY = true ∨ s.ld.check.isSome = true) :
    exec (.check p) s = .next s := by
  rw [exec_check h, wrCfgCtl_check, if_neg]
  rintro ⟨hn, hc⟩
  rcases hb with hb | hb
  · simp [hn] at hb
  · simp [hc] at hb

/-- The counter's word as ADVANCE programs it. -/
def raisedCount (s : State) : Nat := s.rd FUSE_ARB_V / 64 * 64 + min (s.rd CFG_STATUS_SVN) (svnSerial s (firmwareBase (s.on RST_BOOT_FWCOPY))).1

theorem onlyWrites_fuses (m : NMap Nat) (s : State) : onlyWrites [FUSE_ARB_V, FUSE_CRC_V] [.otp] s { s with otp := m } := by
  refine ⟨fun _ _ => rfl, fun q hq => ?_⟩
  cases q
  case otp => simp at hq
  all_goals rfl

theorem advance_raises {s : State} (hl : s.on CFG_STATUS_LOADED = true) (hs : s.rd SYS_STAGE_STAGE = 2) (hf : s.on CFG_STATUS_FALLBK = false)
    (hn : bits (s.rd FUSE_ARB_V) 5 0 < min (s.rd CFG_STATUS_SVN) (svnSerial s (firmwareBase (s.on RST_BOOT_FWCOPY))).1) :
    (advance s).rd FUSE_ARB_V = raisedCount s % 2 ^ 32 ∧ onlyWrites [FUSE_ARB_V, FUSE_CRC_V] [.otp] s (advance s) := by
  have hw : s.rd FUSE_ARB_V / 64 * 64 + min (s.rd CFG_STATUS_SVN) (svnSerial s (firmwareBase (s.on RST_BOOT_FWCOPY))).1 = raisedCount s := rfl
  have hcond : ¬ ((!s.on CFG_STATUS_LOADED) = true ∨ s.rd SYS_STAGE_STAGE ≠ 2 ∨ s.on CFG_STATUS_FALLBK = true) := by simp [hl, hs, hf]
  unfold advance
  rw [if_neg hcond]
  dsimp only
  rw [if_neg (Nat.not_le.2 hn), hw]
  generalize raisedCount s = w
  generalize fuseCrc _ _ = c
  refine ⟨State.rd_wrs_of_mem (l := [(FUSE_ARB_V, w), (FUSE_CRC_V, c)]) (e := (FUSE_ARB_V, w)) (show [FUSE_ARB_V.key, FUSE_CRC_V.key].Nodup by decide) (by simp) _,
    (onlyWrites_fuses _ s).wrs_of (by simp)⟩

theorem advance_refused {s : State} (h : s.on CFG_STATUS_LOADED = false ∨ s.rd SYS_STAGE_STAGE ≠ 2 ∨ s.on CFG_STATUS_FALLBK = true) : advance s = s := by
  unfold advance
  rw [if_pos (by simpa using h)]

theorem advance_reached {s : State} (h : min (s.rd CFG_STATUS_SVN) (svnSerial s (firmwareBase (s.on RST_BOOT_FWCOPY))).1 ≤ bits (s.rd FUSE_ARB_V) 5 0) :
    advance s = s := by
  unfold advance
  split
  · rfl
  · exact if_pos h

/-! ### The end of CHECK (R66) -/

theorem exec_checkComplete {a b : Bool} {s : State} (hc : s.ld.check = some (a, b)) : exec .checkComplete s =
    .next (dropKey (stopCheck (setRes true (if b then 0xF else copyCode s true) (setRes false (if a then 0xF else copyCode s false) s)))) := by
  have hexec : exec .checkComplete s = execCheckComplete s := rfl
  rw [execCheckComplete, hc] at hexec
  exact hexec

theorem exec_checkComplete_idle {s : State} (hc : s.ld.check = none) : exec .checkComplete s = .next s := by
  have hexec : exec .checkComplete s = execCheckComplete s := rfl
  rw [execCheckComplete, hc] at hexec
  exact hexec

theorem stopCheck_effects (s : State) : (stopCheck s).rd CFG_CTL_CHECK = 0 ∧ (stopCheck s).ld.check = none ∧ ∀ b, keeps (resOf b) s (stopCheck s) := by
  have hkeep {f : Fld} (h : f.key ≠ CFG_CTL_CHECK.key) : keeps f s (stopCheck s) := ((keeps.refl f s).wr_of h 0).of_regs rfl
  have hcleared (x : Loader) (t : State) (f : Fld) : ({ t with ld := x } : State).rd f = t.rd f := rfl
  refine ⟨(hcleared _ _ _).trans (rd_wr_of_lt _ _ _ (by decide)), rfl, fun b => hkeep ?_⟩
  cases b <;> decide

theorem checkCompletes {a b : Bool} {s : State} (hc : s.ld.check = some (a, b)) : ∃ t, exec .checkComplete s = .next t ∧ t.ld.check = none ∧
    t.rd CFG_CTL_CHECK = 0 ∧ t.rd CFG_STATUS_RESA = (if a then 15 else copyCode s false % 16) ∧
    t.rd CFG_STATUS_RESB = (if b then 15 else copyCode s true % 16) := by
  have hcode (c : Bool) (n : Nat) : (if c then 0xF else n) % 16 = if c then 15 else n % 16 := by cases c <;> rfl
  refine ⟨_, exec_checkComplete hc, ?_⟩
  rw [← hcode a, ← hcode b]
  generalize (if a then 0xF else copyCode s false) = ca
  generalize (if b then 0xF else copyCode s true) = cb
  have hfirst := (rd_setRes false ca s).1
  generalize setRes false ca s = t at hfirst ⊢
  obtain ⟨hsecond, hother⟩ := rd_setRes true cb t
  generalize setRes true cb t = u at hsecond hother ⊢
  obtain ⟨hcheck, hnone, hres⟩ := stopCheck_effects u
  generalize stopCheck u = v at hcheck hnone hres ⊢
  have hkeep {f : Fld} (hf : f ∈ loadFields) := keeps_dropKey hf v
  exact ⟨(congrArg Loader.check (dropKey_ld v)).trans hnone, (hkeep (by simp [loadFields])).rd.trans hcheck,
    ((hkeep (resOf_mem false)).rd.trans (hres false).rd).trans (hother.trans hfirst), ((hkeep (resOf_mem true)).rd.trans (hres true).rd).trans hsecond⟩

/-! ### GO (R55, R58, R67) -/

theorem goWord (v : Word) : bits (v.toNat ||| 2 ^ 31) 3 0 = bits v.toNat 3 0 ∧ bit (v.toNat ||| 2 ^ 31) 31 = true :=
  ⟨bits_or_two_pow_of_lt v.toNat (by decide), bit_or_two_pow v.toNat 31⟩

/-- The reload of a grove has begun, before the key of its copy is fetched. -/
def reloadTaken (s : State) : State := s.wrs [(CFG_RLDST_BUSY, 1), (CFG_RLDST_CAUSE, 0)]

/-- The reload and its lock are entered. -/
def reloadEntered (g : Nat) (b : Bool) (t : State) : State :=
  { t with ld := { t.ld with reload := some { grove := g, copyB := b, committed := false, ports := [] }, lock := some g } }

theorem reloadEntered_effects (g : Nat) (b : Bool) (t : State) (f : Fld) : (reloadEntered g b t).rd f = t.rd f := rfl

/-- What GO does once the field is written. -/
def goes (t : State) : State :=
  let g := t.rd CFG_RELOAD_GROVE
  if reloadCause t g ≠ 0 then rejectReload (reloadCause t g) t
  else reloadEntered g (!t.on CFG_STATUS_COPY) (holdKey (!t.on CFG_STATUS_COPY) (reloadTaken t))

theorem wrReload_go {v : Nat} (h : bit v 31 = true) (s : State) : wrReload v s = goes (wrField 0x40044 CFG_RELOAD_GROVE (bits v 3 0) s) := by
  unfold wrReload
  rw [if_neg (by simp [h])]
  rfl

theorem exec_go {s : State} {p : Path} (h : plainly s p 0x40044) (v : Word) :
    exec (.go p v) s = .next (goes (wrField 0x40044 CFG_RELOAD_GROVE (bits v.toNat 3 0) s)) := by
  have hwrite : pathWrite p 0x40044 (v.toNat ||| 2 ^ 31) s = wrReload (v.toNat ||| 2 ^ 31) s :=
    pathWrite_of_plainly (r := .CFG_RELOAD) (i := 0) (j := 0) h (by decide) (decodeFor_of_decodeAddr (by decide) rfl) rfl
  rw [wrReload_go (goWord v).2, (goWord v).1] at hwrite
  exact congrArg Host.Outcome.next hwrite

/-- The fields that decide whether a GO is taken. -/
def reloadFields : List Fld := [CFG_RLDST_BUSY, CFG_STATUS_LOADED, SYS_STAGE_FUSEFLT, FUSE_RLD_V, FUSE_VAR_V, RST_FLTSTAT_GFFOR, CFG_STATUS_COPY]

theorem reloadCause_congr {s t : State} (h : ∀ f ∈ reloadFields, t.rd f = s.rd f) (g : Nat) : reloadCause t g = reloadCause s g := by
  have hon {f : Fld} (hf : f ∈ reloadFields) : t.on f = s.on f := by rw [State.on, State.on, h f hf]
  have hgf : gfFor t = gfFor s := by rw [gfFor, gfFor, h RST_FLTSTAT_GFFOR (by simp [reloadFields])]
  have hvar : variant t = variant s := variant_congr fun f hf => h f (by simp only [List.mem_cons, List.not_mem_nil, or_false] at hf; rcases hf with rfl | rfl <;> simp [reloadFields])
  have hfuse : fuseFault t = fuseFault s := hon (by simp [reloadFields])
  rw [reloadCause, reloadCause, hgf, hvar, hfuse, hon (by simp [reloadFields]), hon (by simp [reloadFields]), h FUSE_RLD_V (by simp [reloadFields])]

theorem rejectReload_effects {c : Nat} (hc : c < 16) (s : State) : (rejectReload c s).rd CFG_RLDST_REJ = 1 ∧ (rejectReload c s).rd CFG_RLDST_CAUSE = c ∧
    onlyWrites [CFG_RLDST_REJ, CFG_RLDST_CAUSE] [] s (rejectReload c s) := by
  have hnodup : ([(CFG_RLDST_REJ, 1), (CFG_RLDST_CAUSE, c)].map fun x => x.1.key).Nodup := show [CFG_RLDST_REJ.key, CFG_RLDST_CAUSE.key].Nodup by decide
  exact ⟨rd_wrs_eq hnodup (by simp) (by decide) s, rd_wrs_eq hnodup (by simp) (show c < 2 ^ 4 by omega) s, onlyWrites_wrs (by simp) s⟩

theorem reloadCause_lt (s : State) (g : Nat) : reloadCause s g < 16 := by
  unfold reloadCause
  split
  · decide
  · split
    · decide
    · split
      · decide
      · split
        · decide
        · split
          · decide
          · decide

theorem reloadTaken_effects (s : State) : (reloadTaken s).rd CFG_RLDST_BUSY = 1 ∧ (reloadTaken s).rd CFG_RLDST_CAUSE = 0 ∧
    onlyWrites [CFG_RLDST_BUSY, CFG_RLDST_CAUSE] [] s (reloadTaken s) :=
  ⟨rd_wrs_eq (l := [(CFG_RLDST_BUSY, 1), (CFG_RLDST_CAUSE, 0)]) (by decide) (by simp) (by decide) s,
    rd_wrs_eq (l := [(CFG_RLDST_BUSY, 1), (CFG_RLDST_CAUSE, 0)]) (by decide) (by simp) (by decide) s, onlyWrites_wrs (by simp) s⟩

/-- What GO writes past its field. -/
def goKeys (k : Nat) : Prop := slotKeys k ∨ k ∈ [CFG_RLDST_BUSY.key, CFG_RLDST_CAUSE.key, CFG_RLDST_REJ.key]

theorem onlyKeys_holdKey (b : Bool) (s : State) : onlyKeys slotKeys s (holdKey b s) := by
  unfold holdKey
  refine .ite ?_ (.refl _ s)
  split
  · exact onlyKeys_setSlot_plain (by decide) (by decide) ..
  · exact .refl _ s

theorem onlyKeys_goes (t : State) : onlyKeys goKeys t (goes t) := by
  have hrej (c : Nat) : onlyKeys goKeys t (rejectReload c t) := .wrs (.refl _ t) (by
    simp only [List.forall_mem_cons, List.not_mem_nil, false_implies, implies_true, and_true]
    exact ⟨⟨.inr (by simp), by decide⟩, ⟨.inr (by simp), by decide⟩⟩)
  have htaken : onlyKeys goKeys t (reloadTaken t) := .wrs (.refl _ t) (by
    simp only [List.forall_mem_cons, List.not_mem_nil, false_implies, implies_true, and_true]
    exact ⟨⟨.inr (by simp), by decide⟩, ⟨.inr (by simp), by decide⟩⟩)
  exact .ite (hrej _) ((htaken.trans ((onlyKeys_holdKey _ _).mono fun _ => .inl)).of_regs rfl)

section
variable {s : State} {p : Path} {v : Word} (h : plainly s p 0x40044)
include h

theorem exec_go_inRange (hg : bits v.toNat 3 0 < 8) : exec (.go p v) s = .next (goes (s.wr CFG_RELOAD_GROVE (bits v.toNat 3 0))) := by
  rw [exec_go h, wrField_of_unbounded h.2 (Nat.zero_le _) (show bits v.toNat 3 0 ≤ 7 by omega)]

theorem go_inRange (hg : bits v.toNat 3 0 < 8) :
    (reloadCause s (bits v.toNat 3 0) = 0 → ∃ t, exec (.go p v) s = .next t ∧ t.rd CFG_RLDST_BUSY = 1 ∧ t.rd CFG_RLDST_CAUSE = 0 ∧
      t.ld.lock = some (bits v.toNat 3 0) ∧
      t.ld.reload = some { grove := bits v.toNat 3 0, copyB := !s.on CFG_STATUS_COPY, committed := false, ports := [] }) ∧
    (reloadCause s (bits v.toNat 3 0) ≠ 0 → ∃ t, exec (.go p v) s = .next t ∧ t.rd CFG_RLDST_REJ = 1 ∧
      t.rd CFG_RLDST_CAUSE = reloadCause s (bits v.toNat 3 0) ∧
      onlyWrites [CFG_RELOAD_GROVE, CFG_RLDST_REJ, CFG_RLDST_CAUSE] [] s t) := by
  have hexec := exec_go_inRange h hg
  generalize bits v.toNat 3 0 = g at hg hexec ⊢
  have hwr := onlyWrites_wr CFG_RELOAD_GROVE g s
  have hgrove : (s.wr CFG_RELOAD_GROVE g).rd CFG_RELOAD_GROVE = g := rd_wr_of_lt _ _ _ (show g < 2 ^ 4 by omega)
  generalize s.wr CFG_RELOAD_GROVE g = t at hexec hwr hgrove
  have hsame : ∀ f ∈ reloadFields, t.rd f = s.rd f := fun f hf => hwr.1 f (by
    revert f
    decide)
  have hcause := reloadCause_congr hsame g
  have hcopy : t.on CFG_STATUS_COPY = s.on CFG_STATUS_COPY := by rw [State.on, State.on, hsame CFG_STATUS_COPY (by simp [reloadFields])]
  unfold goes at hexec
  rw [hgrove] at hexec
  dsimp only at hexec
  rw [hcause, hcopy] at hexec
  refine ⟨fun hc => ?_, fun hc => ?_⟩
  · rw [if_neg (by simp [hc])] at hexec
    obtain ⟨hbusy, hclear, -⟩ := reloadTaken_effects t
    generalize reloadTaken t = u at hexec hbusy hclear
    have hkeep {f : Fld} (hf : f ∈ loadFields) := keeps_holdKey hf (!s.on CFG_STATUS_COPY) u
    refine ⟨_, hexec, ?_, ?_, rfl, rfl⟩
    · rw [reloadEntered_effects]
      exact (hkeep (by simp [loadFields])).rd.trans hbusy
    · rw [reloadEntered_effects]
      exact (hkeep (by simp [loadFields])).rd.trans hclear
  · rw [if_pos hc] at hexec
    obtain ⟨hrej, hcaused, hwrites⟩ := rejectReload_effects (reloadCause_lt s g) t
    exact ⟨_, hexec, hrej, hcaused, (hwr.mono (by simp) (by simp)).trans (hwrites.mono (by simp) (by simp))⟩

theorem go_reserved (hg : 8 ≤ bits v.toNat 3 0) :
    ∃ t, exec (.go p v) s = .next t ∧ t.rd CFG_RELOAD_GROVE = s.rd CFG_RELOAD_GROVE ∧ leafSet t 22 31 := by
  have hexec := exec_go h v
  have hfield : wrField 0x40044 CFG_RELOAD_GROVE (bits v.toNat 3 0) s = raise 22 31 s :=
    (if_pos (.inr (show 7 < bits v.toNat 3 0 by omega))).trans (cfgErr_of_lt (by decide) s)
  rw [hfield] at hexec
  have hleaf : leafSet (raise 22 31 s) 22 31 := leafSet_raise 22 31 s (by decide)
  have hkept : (raise 22 31 s).rd CFG_RELOAD_GROVE = s.rd CFG_RELOAD_GROVE := rd_raise_ne 22 31 s _ (by decide)
  generalize raise 22 31 s = t at hexec hleaf hkept
  have hkeys := onlyKeys_goes t
  exact ⟨_, hexec, (hkeys.1 _ (by unfold goKeys slotKeys leafKey groveUp; decide)).trans hkept, hkeys.2 22 31 hleaf⟩

end

/-! ### The commit of a reload (R55 to R58) -/

/-- The reload and its lock are gone. -/
def reloadLeft (t : State) : State := { t with ld := { t.ld with reload := none, lock := none } }

theorem endReload_eq (s : State) : endReload s = reloadLeft (dropKey (s.wr CFG_RLDST_BUSY 0)) := rfl

theorem reloadLeft_effects (t : State) (f : Fld) : (reloadLeft t).rd f = t.rd f := rfl

theorem endReload_effects (s : State) : (endReload s).rd CFG_RLDST_BUSY = 0 ∧ (endReload s).ld = { s.ld with reload := none, lock := none } := by
  have hbusy : (s.wr CFG_RLDST_BUSY 0).rd CFG_RLDST_BUSY = 0 := rd_wr_of_lt _ _ _ (by decide)
  have hld : (s.wr CFG_RLDST_BUSY 0).ld = s.ld := rfl
  rw [endReload_eq]
  generalize s.wr CFG_RLDST_BUSY 0 = t at hbusy hld
  have hdrop := keeps_dropKey (f := CFG_RLDST_BUSY) (by simp [loadFields]) t
  have hdld := (dropKey_ld t).trans hld
  generalize dropKey t = u at hdrop hdld
  refine ⟨(reloadLeft_effects u _).trans (hdrop.rd.trans hbusy), ?_⟩
  rw [← hdld]
  rfl

theorem reloadRefused_effects {c : Nat} (hc : c < 16) (s : State) : (rejectReload c (endReload s)).rd CFG_RLDST_REJ = 1 ∧
    (rejectReload c (endReload s)).rd CFG_RLDST_CAUSE = c ∧ (rejectReload c (endReload s)).rd CFG_RLDST_BUSY = 0 ∧
    (rejectReload c (endReload s)).ld = { s.ld with reload := none, lock := none } := by
  obtain ⟨hbusy, hld⟩ := endReload_effects s
  generalize endReload s = t at hbusy hld
  obtain ⟨hrej, hcause, hwrites⟩ := rejectReload_effects hc t
  exact ⟨hrej, hcause, (hwrites.1 CFG_RLDST_BUSY (by decide)).trans hbusy, hld⟩

theorem stagedCause_lt (old : Image) (k : Nat) (im : Option Image) (g : Nat) : stagedCause old k im g < 16 := by
  unfold stagedCause
  split
  · decide
  · split
    · decide
    · split
      · decide
      · split
        · decide
        · decide

theorem ld_setRes (b : Bool) (code : Nat) (s : State) : (setRes b code s).ld = s.ld := rfl

section
variable {r : Reload} {old : Image} {s : State} (hr : s.ld.reload = some r) (hi : s.ld.image = some old) (hc : r.committed = false)
include hr hi hc

theorem exec_sliceReloadCommit_fails (hv : headerCode s r.copyB ≠ 1 ∨ ∃ k, streamCode s r.copyB = (k, none)) :
    ∃ u, u.ld = s.ld ∧ exec .sliceReloadCommit s = .next (rejectReload 4 (endReload u)) := by
  have hexec : exec .sliceReloadCommit s = execSliceReloadCommit s := rfl
  rw [execSliceReloadCommit, hr, hi] at hexec
  dsimp only at hexec
  rw [if_neg (by simp [hc])] at hexec
  by_cases hh : headerCode s r.copyB = 1
  · obtain ⟨k, hk⟩ := hv.resolve_left fun h => h hh
    rw [if_pos hh, hk] at hexec
    exact ⟨_, ld_setRes _ _ s, hexec⟩
  · rw [if_neg hh] at hexec
    exact ⟨_, ld_setRes _ _ s, hexec⟩

theorem exec_sliceReloadCommit_streams {k : Nat} {new : Image} (hh : headerCode s r.copyB = 1) (hk : streamCode s r.copyB = (k, some new)) :
    exec .sliceReloadCommit s = .next (if stagedCause old k (some new) r.grove = 0 then commitReload r old new (setRes r.copyB k s)
      else rejectReload (stagedCause old k (some new) r.grove) (endReload (setRes r.copyB k s))) := by
  have hexec : exec .sliceReloadCommit s = execSliceReloadCommit s := rfl
  rw [execSliceReloadCommit, hr, hi] at hexec
  dsimp only at hexec
  rw [if_neg (by simp [hc]), if_pos hh, hk] at hexec
  exact hexec

end

/-- The image store holds the staged image. -/
def imageReplaced (im : Image) (t : State) : State := { (t.wr CFG_RLDST_DONE 1) with ld := { t.ld with image := some im } }

/-- The commit as far as it goes for every reload. -/
def slicePlaced (r : Reload) (old im : Image) (t : State) : State :=
  forAll (grovePorts r.grove) (newOverhead old im) (clampSlice r.grove im (structuralEvent (imageReplaced im t)))

/-- A structural reload's ports go down. -/
def slicePortsDown (r : Reload) (ch : List Nat) (t : State) : State :=
  let t := t.wr CFG_RLDST_PORTS ((ch.map fun p => 2 ^ portPlace p).sum)
  let t := attachEvent (forAll ch (fun p u => portDown p 5 u) t)
  { t with ld := { t.ld with reload := some { r with committed := true, ports := ch } } }

theorem commitReload_eq (r : Reload) (old im : Image) (s : State) : commitReload r old im s =
    if (changedPorts old im r.grove).isEmpty then endReload (slicePlaced r old im (showImage r.copyB im (dropKey s)))
    else slicePortsDown r (changedPorts old im r.grove) (slicePlaced r old im (showImage r.copyB im (dropKey s))) := rfl

theorem slicePlaced_ld (r : Reload) (old im : Image) (t : State) : (slicePlaced r old im t).ld = { t.ld with image := some im } := by
  have hreplaced : (imageReplaced im t).ld = { t.ld with image := some im } := rfl
  unfold slicePlaced
  generalize imageReplaced im t = u at hreplaced
  have h1 : (structuralEvent u).ld = u.ld := structuralEvent_frame (κ := 8) rfl (.refl 8 u)
  have h2 : (clampSlice r.grove im (structuralEvent u)).ld = (structuralEvent u).ld := clampSlice_frame (κ := 8) rfl (.refl 8 _)
  generalize clampSlice r.grove im (structuralEvent u) = v at h2
  have h3 : (forAll (grovePorts r.grove) (newOverhead old im) v).ld = v.ld := forAll_frame (k := 8) (fun _ _ hw => newOverhead_frame rfl hw) (.refl 8 v)
  rw [h3, h2, h1, hreplaced]

theorem slicePortsDown_ld (r : Reload) (ch : List Nat) (t : State) :
    (slicePortsDown r ch t).ld = { t.ld with reload := some { r with committed := true, ports := ch } } := by
  have hwr : (t.wr CFG_RLDST_PORTS ((ch.map fun p => 2 ^ portPlace p).sum)).ld = t.ld := rfl
  unfold slicePortsDown
  dsimp only
  generalize t.wr CFG_RLDST_PORTS ((ch.map fun p => 2 ^ portPlace p).sum) = u at hwr
  have hdown : (forAll ch (fun p u => portDown p 5 u) u).ld = u.ld := forAll_frame (k := 8) (fun _ _ hw => portDown_frame rfl hw) (.refl 8 u)
  generalize forAll ch (fun p u => portDown p 5 u) u = v at hdown
  have hattach : (attachEvent v).ld = v.ld := attachEvent_frame (κ := 8) rfl (.refl 8 v)
  rw [hattach, hdown, hwr]

theorem commitReload_effects (r : Reload) (old im : Image) (s : State) : (commitReload r old im s).ld.image = some im ∧
    (changedPorts old im r.grove = [] → (commitReload r old im s).ld.reload = none ∧ (commitReload r old im s).ld.lock = none ∧
      (commitReload r old im s).rd CFG_RLDST_BUSY = 0) ∧
    (changedPorts old im r.grove ≠ [] →
      (commitReload r old im s).ld.reload = some { r with committed := true, ports := changedPorts old im r.grove } ∧
      (commitReload r old im s).ld.lock = s.ld.lock) := by
  have hshown : (showImage r.copyB im (dropKey s)).ld = s.ld := showImage_frame (κ := 8) rfl (dropKey_frame (κ := 8) rfl (.refl 8 s))
  rw [commitReload_eq]
  generalize changedPorts old im r.grove = ch
  generalize showImage r.copyB im (dropKey s) = t at hshown
  have hplaced := slicePlaced_ld r old im t
  generalize slicePlaced r old im t = u at hplaced
  rw [hshown] at hplaced
  by_cases he : ch = []
  · rw [if_pos (by simp [he])]
    obtain ⟨hbusy, hld⟩ := endReload_effects u
    rw [hld, hplaced]
    exact ⟨rfl, fun _ => ⟨rfl, rfl, hbusy⟩, fun h => absurd he h⟩
  · rw [if_neg (by simp [he]), slicePortsDown_ld, hplaced]
    exact ⟨rfl, fun h => absurd h he, fun _ => ⟨rfl, rfl⟩⟩

theorem sliceReloadCommits {r : Reload} {old : Image} {s : State} (hr : s.ld.reload = some r) (hi : s.ld.image = some old) (hc : r.committed = false) :
    (headerCode s r.copyB ≠ 1 ∨ (∃ k, streamCode s r.copyB = (k, none)) → ∃ t, exec .sliceReloadCommit s = .next t ∧
      t.rd CFG_RLDST_REJ = 1 ∧ t.rd CFG_RLDST_CAUSE = 4 ∧ t.rd CFG_RLDST_BUSY = 0 ∧ t.ld.reload = none ∧ t.ld.lock = none ∧
      t.ld.image = some old) ∧
    (∀ k new, headerCode s r.copyB = 1 → streamCode s r.copyB = (k, some new) →
      (stagedCause old k (some new) r.grove ≠ 0 → ∃ t, exec .sliceReloadCommit s = .next t ∧ t.rd CFG_RLDST_REJ = 1 ∧
        t.rd CFG_RLDST_CAUSE = stagedCause old k (some new) r.grove ∧ t.rd CFG_RLDST_BUSY = 0 ∧ t.ld.reload = none ∧ t.ld.lock = none ∧
        t.ld.image = some old) ∧
      (stagedCause old k (some new) r.grove = 0 → ∃ t, exec .sliceReloadCommit s = .next t ∧ t.ld.image = some new ∧
        (changedPorts old new r.grove = [] → t.ld.reload = none ∧ t.ld.lock = none ∧ t.rd CFG_RLDST_BUSY = 0) ∧
        (changedPorts old new r.grove ≠ [] →
          t.ld.reload = some { r with committed := true, ports := changedPorts old new r.grove } ∧ t.ld.lock = s.ld.lock))) := by
  refine ⟨fun hv => ?_, fun k new hh hk => ?_⟩
  · obtain ⟨u, hu, hexec⟩ := exec_sliceReloadCommit_fails hr hi hc hv
    obtain ⟨hrej, hcause, hbusy, hld⟩ := reloadRefused_effects (c := 4) (by decide) u
    refine ⟨_, hexec, hrej, hcause, hbusy, ?_⟩
    rw [hld, hu]
    exact ⟨rfl, rfl, hi⟩
  · have hexec := exec_sliceReloadCommit_streams hr hi hc hh hk
    have hlt := stagedCause_lt old k (some new) r.grove
    have hres := ld_setRes r.copyB k s
    generalize stagedCause old k (some new) r.grove = c at hexec hlt ⊢
    generalize setRes r.copyB k s = u at hexec hres
    refine ⟨fun hne => ?_, fun he => ?_⟩
    · rw [if_neg hne] at hexec
      obtain ⟨hrej, hcause, hbusy, hld⟩ := reloadRefused_effects hlt u
      refine ⟨_, hexec, hrej, hcause, hbusy, ?_⟩
      rw [hld, hres]
      exact ⟨rfl, rfl, hi⟩
    · rw [if_pos he] at hexec
      obtain ⟨himage, hsame, hchanged⟩ := commitReload_effects r old new u
      rw [hres] at hchanged
      exact ⟨_, hexec, himage, hsame, hchanged⟩

/-! ### The changed ports are set up (R57, R58) -/

theorem exec_reloadReconfigComplete {r : Reload} {im : Image} {s : State} (hr : s.ld.reload = some r) (hi : s.ld.image = some im) (hc : r.committed = true) :
    (∃ u, exec .reloadReconfigComplete s = .next (endReload u)) ∧ exec .sliceReloadCommit s = .next s := by
  have hexec : exec .reloadReconfigComplete s = execReloadReconfigComplete s := rfl
  have hexec' : exec .sliceReloadCommit s = execSliceReloadCommit s := rfl
  rw [execReloadReconfigComplete, hr, hi] at hexec
  rw [execSliceReloadCommit, hr, hi] at hexec'
  dsimp only at hexec hexec'
  rw [if_neg (by simp [hc])] at hexec
  rw [if_pos hc] at hexec'
  exact ⟨⟨_, hexec⟩, hexec'⟩

/-- Settles O51. -/
theorem checksAndSliceReloads : Obligations.ChecksAndSliceReloads := by
  unfold Obligations.ChecksAndSliceReloads
  refine ⟨fun p s h => ⟨check_starts h, check_ignored h, fun hl hs hf hn => ?_, fun hc => ?_, fun hn => ?_⟩, fun a b s hc => checkCompletes hc,
    fun s hc => exec_checkComplete_idle hc, fun p v s h hg => go_inRange h hg, fun p v s h hg => go_reserved h hg,
    fun r old s hr hi hc => sliceReloadCommits hr hi hc, fun r im s hr hi hc => ?_, fun s hr => ⟨?_, ?_⟩⟩
  · obtain ⟨hcount, hwrites⟩ := advance_raises hl hs hf hn
    exact ⟨_, exec_advance h, hcount, hwrites⟩
  · rw [exec_advance h, advance_refused hc]
  · rw [exec_advance h, advance_reached hn]
  · obtain ⟨⟨u, hexec⟩, hidle⟩ := exec_reloadReconfigComplete hr hi hc
    obtain ⟨hbusy, hld⟩ := endReload_effects u
    refine ⟨⟨_, hexec, hbusy, ?_⟩, hidle⟩
    rw [hld]
    exact ⟨rfl, rfl⟩
  · have hexec : exec .sliceReloadCommit s = execSliceReloadCommit s := rfl
    rw [hexec, execSliceReloadCommit, hr]
  · have hexec : exec .reloadReconfigComplete s = execReloadReconfigComplete s := rfl
    rw [hexec, execReloadReconfigComplete, hr]

end Sys2Proof.Machine
end

section
set_option Elab.async false
/-! Register writes by access code (R7, R8, R46, R69, R73). -/

namespace Sys2Proof.Machine

open Sys2Proof Sys2Proof.Laws

/-! ### The fields of a register lie apart in one word (R72) -/

/-- The field at a bit of the register at an address. -/
def InWord (a : Nat) (f : Fld) (p : Nat) : Prop := ∃ w acc reach v mn mx, f = fld a p w acc reach v mn mx

theorem inWord_fld (a p w : Nat) (acc : Acc) (reach : Reach) (v mn mx : Nat) : InWord a (fld a p w acc reach v mn mx) p := ⟨_, _, _, _, _, _, rfl⟩

theorem InWord.key {a p : Nat} {f : Fld} (h : InWord a f p) : f.key = 8 * a + p := by
  obtain ⟨w, acc, reach, v, mn, mx, rfl⟩ := h
  rfl

/-- Fields of one word at different bits. -/
def WordOf (a : Nat) (fs : List Fld) : Prop := ∃ ps : List Nat, ps.Nodup ∧ (∀ p ∈ ps, p < 32) ∧ List.Forall₂ (InWord a) fs ps

theorem exists_wordOf {a : Nat} {fs : List Fld} {ps : List Nat} (each : List.Forall₂ (InWord a) fs ps) (apart : ps.Nodup) (low : ∀ p ∈ ps, p < 32) :
    ∃ a, WordOf a fs := ⟨a, ps, apart, low, each⟩

theorem regFields_wordOf (r : RegId) (i j : Nat) : ∃ a, WordOf a (regFields r i j) := by
  cases r
  all_goals
    apply exists_wordOf
    · dsimp only [regFields]
      repeat
        apply List.Forall₂.cons
        · apply inWord_fld
      exact .nil
    · decide
    · decide

theorem WordOf.nodup {a : Nat} {fs : List Fld} (h : WordOf a fs) : (fs.map Fld.key).Nodup := by
  obtain ⟨ps, hapart, -, heach⟩ := h
  have hkeys : fs.map Fld.key = ps.map (8 * a + ·) := by
    clear hapart
    induction heach with
    | nil => rfl
    | cons h _ ih => rw [List.map_cons, List.map_cons, h.key, ih]
  rw [hkeys]
  exact hapart.map fun x y e => Nat.add_left_cancel e

theorem regFields_nodup (r : RegId) (i j : Nat) : ((regFields r i j).map Fld.key).Nodup := by
  obtain ⟨a, h⟩ := regFields_wordOf r i j
  exact h.nodup

/-! ### Registers with reserved encodings, and the event status words (R8, R85) -/

/-- The field has encodings that its table reserves. -/
def Fld.reserves (f : Fld) : Bool := f.lo != 0 || f.hi != 2 ^ f.w - 1

/-- The registers with a field that has reserved encodings. -/
def reserving : List RegId := [.CFG_RELOAD, .SYS_DWCTL, .FAB_CTCTL, .FAB_BULK, .FAB_CETHR, .MEM_SPSIZE, .MEM_SPSHARE, .MEM_SPQ, .GRV_FLOW, .SCHED_LEAD, .SCHED_VIRT,
  .SCHED_SLEW, .GRV_CALCTL, .CAN_CTL, .LC_LOS, .LC_TEST, .LC_INJ, .PIPE_CTL, .PIPE_L1CTL, .PIPE_L2CTL, .PIPE_L2SIZE, .PIPE_NOTICE, .ADP_ETHCTL, .TIM_EVCTL, .RST_CTL,
  .PST_PSCTL, .PD_CTL, .PC_CTL, .PP_FEEDCTL, .PST_THERM]

theorem reserves_or (r : RegId) (i j : Nat) : (reserving.contains r || (regFields r i j).all fun f => !f.reserves) = true := by
  cases r <;> rfl

/-- The word is no event status register. -/
def Quiet (a : Nat) : Prop := a % 4 = 0 ∧ a % 4096 ≠ 4080

theorem not_leafKey_of_wordOf {a : Nat} {fs : List Fld} (h : WordOf a fs) (ha : Quiet a) : ∀ f ∈ fs, ¬ leafKey f.key := by
  obtain ⟨ps, -, hlow, heach⟩ := h
  obtain ⟨h4, hq⟩ := ha
  induction heach with
  | nil => simp
  | @cons f p fs ps h _ ih =>
    obtain ⟨hp, hlow⟩ := List.forall_mem_cons.1 hlow
    refine List.forall_mem_cons.2 ⟨?_, ih hlow⟩
    rw [h.key]
    unfold leafKey
    omega

theorem exists_quiet {a : Nat} {fs : List Fld} {ps : List Nat} (each : List.Forall₂ (InWord a) fs ps) (apart : ps.Nodup) (low : ∀ p ∈ ps, p < 32) (quiet : Quiet a) :
    ∃ a, WordOf a fs ∧ Quiet a := ⟨a, ⟨ps, apart, low, each⟩, quiet⟩

theorem reserving_quiet {r : RegId} (hr : r ∈ reserving) {i : Nat} (hi : i < 256) (j : Nat) : ∃ a, WordOf a (regFields r i j) ∧ Quiet a := by
  have hplace := portPlace_lt i
  fin_cases hr
  all_goals
    apply exists_quiet
    · dsimp only [regFields]
      repeat
        apply List.Forall₂.cons
        · apply inWord_fld
      exact .nil
    · decide
    · decide
    · simp only [Quiet, portReg, instanceAddr, true_and]
      omega

/-! ### The indices of the map (R72) -/

theorem MapRow.split_index {d s c : Nat} {x : Nat × Nat} (h : MapRow.split d s c = some x) : x.1 < max c 1 := by
  unfold MapRow.split at h
  split at h
  · cases h
    exact Nat.lt_of_lt_of_le Nat.zero_lt_one (Nat.le_max_right c 1)
  · split at h
    · next hlt =>
      cases h
      exact Nat.lt_of_lt_of_le hlt (Nat.le_max_left c 1)
    · cases h

theorem portOf_lt {g k p : Nat} (h : portOf g k = some p) : p < 20 := List.mem_range.1 (List.mem_of_find?_eq_some h)

theorem MapRow.at?_index {r : MapRow} {a : Nat} {x : Nat × Nat} (h : r.at? a = some x) (hr : max r.c1 1 + r.i0 ≤ 256) : x.1 < 256 := by
  unfold MapRow.at? at h
  split at h
  · cases h
  · split at h
    · cases h
    · next y d h1 =>
      have hy := MapRow.split_index h1
      split at h
      · cases h
      · split at h
        · cases h
        · split at h
          · cases h
          · split at h
            · obtain ⟨p, hp, rfl⟩ := Option.map_eq_some_iff.1 h
              exact Nat.lt_trans (portOf_lt hp) (by decide)
            · cases h
              dsimp only at hy ⊢
              omega

theorem decodeAddr_index {a : Nat} {r : RegId} {i j : Nat} (h : decodeAddr a = some (r, i, j)) : i < 256 := by
  obtain ⟨row, hrow, hat⟩ := List.exists_of_findSome?_eq_some h
  obtain ⟨x, hx, he⟩ := Option.map_eq_some_iff.1 hat
  cases he
  exact MapRow.at?_index hx ((show ∀ row ∈ mapRows, max row.c1 1 + row.i0 ≤ 256 by decide +kernel) row hrow)

theorem decodeFor_index {p : Path} {a : Nat} {r : RegId} {i j : Nat} (h : decodeFor p.idx a = some (r, i, j)) : i < 256 := by
  unfold decodeFor at h
  split at h
  · cases h
  · next r' i' j' hd =>
    split at h
    · cases h
      cases p <;> decide
    · cases h
      exact decodeAddr_index hd

/-! ### A written word, field by field (R7, R8) -/

theorem wrWord_append (a v : Nat) (l m : List Fld) (s : State) : wrWord a v (l ++ m) s = wrWord a v m (wrWord a v l s) := List.foldl_append

/-- The leaf that a configuration error sets (R8). -/
def errorLeaf (a : Nat) : Nat × Nat := if 0x400000 ≤ a ∧ a < 0x404000 then (16, 16) else (unitOfAddr a, 31)

theorem cfgErr_eq (a : Nat) (s : State) : cfgErr a s = raise (errorLeaf a).1 (errorLeaf a).2 s := by
  unfold cfgErr errorLeaf
  split <;> rfl

theorem errorLeaf_lt (a : Nat) : (errorLeaf a).2 < 32 := by
  unfold errorLeaf
  split
  · exact show 16 < 32 by decide
  · exact show 31 < 32 by decide

/-- A field's bits of a written word. -/
def partOf (v : Nat) (f : Fld) : Nat := bits v (f.pos + f.w - 1) f.pos

theorem partOf_lt (v : Nat) {f : Fld} (hw : 1 ≤ f.w) : partOf v f < 2 ^ f.w := by
  have h := bits_lt v (f.pos + f.w - 1) f.pos
  rwa [show f.pos + f.w - 1 + 1 - f.pos = f.w by omega] at h

section
variable {a : Nat} {s : State} (hu : unbounded s a)
include hu

/-- What one field of a written word can come to where no envelope bounds it. -/
theorem wrAcc_cases (v : Nat) {g : Fld} (hw : 1 ≤ g.w) :
    wrAcc a v g s = s ∨ (∃ x, wrAcc a v g s = s.wr g x) ∨ (g.reserves = true ∧ wrAcc a v g s = cfgErr a s) := by
  have hfield : (∃ x, wrField a g (partOf v g) s = s.wr g x) ∨ (g.reserves = true ∧ wrField a g (partOf v g) s = cfgErr a s) := by
    by_cases hr : partOf v g < g.lo ∨ g.hi < partOf v g
    · refine .inr ⟨?_, if_pos hr⟩
      have hlt := partOf_lt v hw
      simp only [Fld.reserves, Bool.or_eq_true, bne_iff_ne]
      omega
    · exact .inl ⟨_, wrField_of_unbounded hu (by omega) (by omega)⟩
  unfold wrAcc
  split
  · exact .inl rfl
  · exact .inl rfl
  · exact .inr hfield
  · split
    · exact .inl rfl
    · exact .inr hfield
  · exact .inr (.inl ⟨_, rfl⟩)
  · exact .inr (.inl ⟨_, rfl⟩)

theorem unbounded_wrAcc (v : Nat) {g : Fld} (hw : 1 ≤ g.w) : unbounded (wrAcc a v g s) a := by
  rcases wrAcc_cases hu v hw with h | ⟨x, h⟩ | ⟨-, h⟩
  · rwa [h]
  · rw [h]
    exact unbounded_wr hu g x
  · rw [h]
    exact unbounded_of_ld hu (cfgErr_frame (κ := 8) rfl (.refl 8 s))

/-- A field apart from the one written keeps its value. -/
theorem keeps_wrAcc (v : Nat) {f g : Fld} (hw : 1 ≤ g.w) (hne : f.key ≠ g.key) (hleaf : g.reserves = true → ¬ leafKey f.key) : keeps f s (wrAcc a v g s) := by
  rcases wrAcc_cases hu v hw with h | ⟨x, h⟩ | ⟨hr, h⟩
  · rw [h]
    exact .refl f s
  · rw [h]
    exact (keeps.refl f s).wr_of hne x
  · rw [h, cfgErr_eq]
    exact (keeps.refl f s).raise_of (hleaf hr) _ _

theorem keeps_wrWord (v : Nat) {f : Fld} {gs : List Fld} (hgs : ∀ g ∈ gs, 1 ≤ g.w ∧ f.key ≠ g.key ∧ (g.reserves = true → ¬ leafKey f.key)) :
    keeps f s (wrWord a v gs s) ∧ unbounded (wrWord a v gs s) a := by
  induction gs generalizing s with
  | nil => exact ⟨.refl f s, hu⟩
  | cons g gs ih =>
    obtain ⟨⟨hw, hne, hleaf⟩, hgs⟩ := List.forall_mem_cons.1 hgs
    obtain ⟨hkeep, hbound⟩ := ih (unbounded_wrAcc hu v hw) hgs
    rw [wrWord_cons]
    exact ⟨(keeps_wrAcc hu v hw hne hleaf).trans hkeep, hbound⟩

/-- A leaf stands through a written word of fields that are none. -/
theorem leafSet_wrWord {u b : Nat} (hl : leafSet s u b) (v : Nat) {gs : List Fld} (hgs : ∀ g ∈ gs, 1 ≤ g.w ∧ ¬ leafKey g.key) : leafSet (wrWord a v gs s) u b := by
  induction gs generalizing s with
  | nil => exact hl
  | cons g gs ih =>
    obtain ⟨⟨hw, hkey⟩, hgs⟩ := List.forall_mem_cons.1 hgs
    rw [wrWord_cons]
    refine ih (unbounded_wrAcc hu v hw) ?_ hgs
    rcases wrAcc_cases hu v hw with h | ⟨x, h⟩ | ⟨-, h⟩
    · rwa [h]
    · rw [h, leafSet, State.rd_wr_ne s g (EVSTAT u) x (ne_evstat hkey u).symm]
      exact hl
    · rw [h, cfgErr_eq]
      exact leafSet_raise_of_leafSet hl

end

/-! ### The access codes (R7) -/

theorem regFields_width (r : RegId) (i j : Nat) : ((regFields r i j).all fun f => Nat.blt 0 f.w) = true := by
  cases r <;> rfl

/-- RWL stands at the path enables and at the fault injection alone. -/
theorem locked_or (r : RegId) (i j : Nat) : ((regFields r i j).all (fun f => f.acc != .rwl) || [RegId.SYS_PATH, .RST_FLTINJ].contains r) = true := by
  cases r <;> rfl

theorem debugFields_apart : ∀ d ∈ [SYS_STAGE_FUSEFLT, FUSE_DBG_V], ¬ leafKey d.key ∧ (∀ g ∈ regFields .SYS_PATH 0 0, d.key ≠ g.key) ∧
    ∀ g ∈ regFields .RST_FLTINJ 0 0, d.key ≠ g.key := by
  unfold leafKey
  decide

theorem debugFields_ne {r : RegId} {i j : Nat} {f : Fld} (hf : f ∈ regFields r i j) (hl : f.acc = .rwl) :
    ∀ d ∈ [SYS_STAGE_FUSEFLT, FUSE_DBG_V], ∀ g ∈ regFields r i j, d.key ≠ g.key := by
  have hor := locked_or r i j
  have hnot : ¬ ((regFields r i j).all fun f => f.acc != .rwl) = true := by
    rw [List.all_eq_true]
    intro h
    simpa [hl] using h f hf
  rw [Bool.or_eq_true] at hor
  have hr := hor.resolve_left hnot
  simp only [List.contains_eq_mem, List.mem_cons, List.not_mem_nil, or_false, decide_eq_true_eq] at hr
  intro d hd
  obtain ⟨-, hpath, hinj⟩ := debugFields_apart d hd
  rcases hr with rfl | rfl
  · exact hpath
  · exact hinj

theorem debugLocked_congr {s t : State} (h : ∀ d ∈ [SYS_STAGE_FUSEFLT, FUSE_DBG_V], t.rd d = s.rd d) : debugLocked t = debugLocked s := by
  rw [debugLocked, debugLocked, fuseFault, fuseFault, State.on, State.on, h SYS_STAGE_FUSEFLT (by simp), h FUSE_DBG_V (by simp)]

section
variable {a : Nat} {s : State} {f : Fld}

theorem wrAcc_locked (v : Nat) (h : f.acc = .ro ∨ f.acc = .wo ∨ f.acc = .rwl ∧ debugLocked s = true) : wrAcc a v f s = s := by
  rcases h with h | h | ⟨h, hd⟩
  · simp only [wrAcc, h]
  · simp only [wrAcc, h]
  · simp only [wrAcc, h, hd, if_true]

theorem rd_wrAcc_w1c (v : Nat) (h : f.acc = .w1c) : (wrAcc a v f s).rd f = s.rd f &&& (2 ^ f.w - 1 - partOf v f) := by
  rw [wrAcc_w1c h]
  refine rd_wr_of_lt _ _ _ (Nat.lt_of_le_of_lt Nat.and_le_right ?_)
  have := Nat.two_pow_pos f.w
  omega

theorem rd_wrAcc_w1s (v : Nat) (hw : 1 ≤ f.w) (h : f.acc = .w1s) : (wrAcc a v f s).rd f = s.rd f ||| partOf v f := by
  simp only [wrAcc, h]
  exact rd_wr_of_lt _ _ _ (Nat.or_lt_two_pow (Nat.mod_lt _ (Nat.two_pow_pos f.w)) (partOf_lt v hw))

theorem wrAcc_open (v : Nat) (h : f.acc = .rw ∨ f.acc = .rwl ∧ debugLocked s = false) : wrAcc a v f s = wrField a f (partOf v f) s := by
  rcases h with h | ⟨h, hd⟩
  · simp only [wrAcc, h, partOf]
  · simp only [wrAcc, h, hd, partOf, Bool.false_eq_true, if_false]

end

section
variable {p : Path} {a v : Nat} {r : RegId} {i j : Nat} {s : State} (hd : decodeFor p.idx a = some (r, i, j)) (hu : unbounded s a)
include hd

/-- Where a field of the register has reserved encodings, none of them is a leaf's. -/
theorem not_leafKey_of_reserves {g : Fld} (hg : g ∈ regFields r i j) (hr : g.reserves = true) : ∀ f ∈ regFields r i j, ¬ leafKey f.key := by
  have hor := reserves_or r i j
  have hnot : ¬ ((regFields r i j).all fun f => !f.reserves) = true := by
    rw [List.all_eq_true]
    intro h
    simpa [hr] using h g hg
  rw [Bool.or_eq_true] at hor
  obtain ⟨w, hw, hq⟩ := reserving_quiet (by simpa using hor.resolve_right hnot) (decodeFor_index hd) j
  exact not_leafKey_of_wordOf hw hq

include hu

/-- A field of a register takes what its own access code makes of the word: the register's other fields leave it. -/
theorem wrWord_field {f : Fld} (hf : f ∈ regFields r i j) : ∃ t, t.rd f = s.rd f ∧ unbounded t a ∧ (f.acc = .rwl → debugLocked t = debugLocked s) ∧
    (wrWord a v (regFields r i j) s).rd f = (wrAcc a v f t).rd f ∧
    (f.reserves = true → ∀ u b, leafSet (wrAcc a v f t) u b → leafSet (wrWord a v (regFields r i j) s) u b) := by
  have hwidth : ∀ g ∈ regFields r i j, 1 ≤ g.w := fun g hg => Nat.le_of_ble_eq_true (List.all_eq_true.1 (regFields_width r i j) g hg)
  have hnodup := regFields_nodup r i j
  have hleaf := fun g hg hr => not_leafKey_of_reserves hd (g := g) hg hr
  have hdebug := fun h => debugFields_ne hf h
  obtain ⟨before, after, hsplit⟩ := List.append_of_mem hf
  rw [hsplit] at hwidth hnodup hleaf hdebug hf ⊢
  have hother : ∀ g ∈ before ++ after, f.key ≠ g.key := by
    rw [List.map_append, List.map_cons, List.nodup_middle] at hnodup
    intro g hg e
    exact (List.nodup_cons.1 hnodup).1 (by rw [e, ← List.map_append]; exact List.mem_map_of_mem hg)
  have hin {g : Fld} (hg : g ∈ before ++ after) : g ∈ before ++ f :: after := by
    rcases List.mem_append.1 hg with h | h
    · exact List.mem_append_left _ h
    · exact List.mem_append_right _ (List.mem_cons_of_mem _ h)
  have hapart : ∀ g ∈ before ++ after, 1 ≤ g.w ∧ f.key ≠ g.key ∧ (g.reserves = true → ¬ leafKey f.key) := fun g hg =>
    ⟨hwidth g (hin hg), hother g hg, fun hr => hleaf g (hin hg) hr f hf⟩
  obtain ⟨hkeep, hbound⟩ := keeps_wrWord hu v (f := f) (gs := before) fun g hg => hapart g (List.mem_append_left _ hg)
  have hbound' := unbounded_wrAcc hbound v (hwidth f hf)
  obtain ⟨hkeep', -⟩ := keeps_wrWord hbound' v (f := f) (gs := after) fun g hg => hapart g (List.mem_append_right _ hg)
  rw [wrWord_append, wrWord_cons]
  refine ⟨wrWord a v before s, hkeep.rd, hbound, fun hl => debugLocked_congr fun d hmem => ?_, hkeep'.rd, fun hr u b hset => ?_⟩
  · exact (keeps_wrWord hu v (f := d) (gs := before) fun g hg =>
      ⟨hwidth g (List.mem_append_left _ hg), hdebug hl d hmem g (List.mem_append_left _ hg), fun _ => (debugFields_apart d hmem).1⟩).1.rd
  · exact leafSet_wrWord hbound' hset v fun g hg =>
      ⟨hwidth g (hin (List.mem_append_right _ hg)), hleaf f hf hr g (hin (List.mem_append_right _ hg))⟩

end

theorem fieldsTakeTheirParts {p : Path} {a v : Nat} {r : RegId} {i j : Nat} {s : State} (hd : decodeFor p.idx a = some (r, i, j)) (hu : unbounded s a) :
    ∀ f ∈ regFields r i j,
      (f.acc = .ro ∨ f.acc = .wo ∨ f.acc = .rwl ∧ debugLocked s = true → (wrWord a v (regFields r i j) s).rd f = s.rd f) ∧
      (f.acc = .w1c → (wrWord a v (regFields r i j) s).rd f = (s.rd f &&& (2 ^ f.w - 1 - partOf v f))) ∧
      (f.acc = .w1s → (wrWord a v (regFields r i j) s).rd f = (s.rd f ||| partOf v f)) ∧
      (f.acc = .rw ∨ f.acc = .rwl ∧ debugLocked s = false →
        (f.lo ≤ partOf v f → partOf v f ≤ f.hi → (wrWord a v (regFields r i j) s).rd f = partOf v f) ∧
        (partOf v f < f.lo ∨ f.hi < partOf v f → (wrWord a v (regFields r i j) s).rd f = s.rd f ∧
          leafSet (wrWord a v (regFields r i j) s) (errorLeaf a).1 (errorLeaf a).2)) := by
  intro f hf
  have hw : 1 ≤ f.w := Nat.le_of_ble_eq_true (List.all_eq_true.1 (regFields_width r i j) f hf)
  obtain ⟨t, hrd, hbound, hlock, hres, hleaf⟩ := wrWord_field (v := v) hd hu hf
  rw [hres]
  refine ⟨fun h => ?_, fun h => ?_, fun h => ?_, fun h => ?_⟩
  · rw [wrAcc_locked v (h.imp_right fun h => h.imp_right fun h => ⟨h.1, (hlock h.1).trans h.2⟩), hrd]
  · rw [rd_wrAcc_w1c v h, hrd]
  · rw [rd_wrAcc_w1s v hw h, hrd]
  · have hopen := wrAcc_open (a := a) v (s := t) (h.imp_right fun h => ⟨h.1, (hlock h.1).trans h.2⟩)
    rw [hopen]
    refine ⟨fun hlo hhi => ?_, fun hout => ?_⟩
    · rw [wrField_of_unbounded hbound hlo hhi]
      exact rd_wr_of_lt _ _ _ (partOf_lt v hw)
    · have hreserves : f.reserves = true := by
        have hlt := partOf_lt v hw
        simp only [Fld.reserves, Bool.or_eq_true, bne_iff_ne]
        omega
      have herr : wrField a f (partOf v f) t = raise (errorLeaf a).1 (errorLeaf a).2 t := (if_pos hout).trans (cfgErr_eq a t)
      rw [hopen, herr] at hleaf
      rw [herr]
      exact ⟨(rd_raise_ne _ _ t f (ne_evstat (not_leafKey_of_reserves hd hf hreserves f hf) _)).trans hrd,
        hleaf hreserves _ _ (leafSet_raise _ _ t (errorLeaf_lt a))⟩

theorem wordAddr_lt (a : Word) : wordAddr a < 2 ^ 32 := Nat.lt_of_le_of_lt (Nat.div_mul_le_self a.toNat 4) a.isLt

theorem exec_registerWrite (p : Path) (a v : Word) (s : State) : exec (.registerWrite p a v) s = .next (pathWrite p (wordAddr a) v.toNat s) := rfl

theorem exec_unmappedWrite {p : Path} {a : Word} {s : State} (hd : decodeFor p.idx (wordAddr a) = none) (ha : absentAddr (variant s) (wordAddr a) = false)
    (hr : reservedWord (wordAddr a) = false) : exec (.unmappedAccess p a true) s = .next (pathWrite p (wordAddr a) 0 s) := by
  have hexec : exec (.unmappedAccess p a true) s = execUnmappedAccess p a true s := rfl
  rw [hexec, execUnmappedAccess]
  simp only [hd, ha, hr]
  rfl

theorem regWrite_absent {a : Nat} {s : State} (p : Path) (v : Nat) (ha : absentAddr (variant s) a = true) : regWrite p a v s = s := by
  have hne : a ≠ 0x28 := by
    rintro rfl
    revert ha
    generalize variant s = k
    simp [absentAddr]
  simp [regWrite, hne, fabricWrite, ha]

theorem pathWrite_outOfReach {a : Nat} {p : Path} {s : State} (v : Nat)
    (h : scopeOf s p = .none ∨ scopeOf s p = .aon ∧ inAon a = false ∨ scopeOf s p = .whole ∧ absentAddr (variant s) a = true) : pathWrite p a v s = s := by
  unfold pathWrite
  rcases h with h | ⟨h, ha⟩ | ⟨h, ha⟩
  · rw [h]
  · simp [h, ha]
  · simp only [h]
    exact regWrite_absent p v ha

theorem regWrite_locked {a : Nat} {p : Path} {s : State} (v : Nat) (ha : absentAddr (variant s) a = false) (hne : a ≠ 0x28) (hl : lockedAddr s a = true)
    (hd : (decodeFor p.idx a).isSome = true) : regWrite p a v s = envEvent CFG_ENVERR_LOCK a s := by
  obtain ⟨⟨r, i, j⟩, hd⟩ := Option.isSome_iff_exists.1 hd
  simp [regWrite, hne, fabricWrite, ha, hd, hl]

/-- A refused write is counted and its address kept (R68). -/
theorem envLock_effects {a : Nat} (ha : a < 2 ^ 32) (s : State) : (envEvent CFG_ENVERR_LOCK a s).rd CFG_ENVERR_LOCK = 1 ∧
    (envEvent CFG_ENVERR_LOCK a s).rd CFG_ENVADDR_ADDR = a ∧ (envEvent CFG_ENVERR_LOCK a s).rd CFG_ENVERR_COUNT = satInc 65535 (s.rd CFG_ENVERR_COUNT) ∧
    leafSet (envEvent CFG_ENVERR_LOCK a s) 25 4 ∧
    onlyWrites [CFG_ENVERR_LOCK, CFG_ENVERR_COUNT, CFG_ENVADDR_ADDR, EVSTAT 25] [.mg] s (envEvent CFG_ENVERR_LOCK a s) := by
  have hlock : (s.setB CFG_ENVERR_LOCK true).rd CFG_ENVERR_LOCK = 1 := rd_wr_of_lt _ _ _ (by decide)
  have hfirst : onlyWrites [CFG_ENVERR_LOCK] [] s (s.setB CFG_ENVERR_LOCK true) := onlyWrites_wr ..
  unfold envEvent
  generalize s.setB CFG_ENVERR_LOCK true = t at hlock hfirst
  have hcount := rd_inc_eq_satInc CFG_ENVERR_COUNT t
  have hsecond := onlyWrites_inc CFG_ENVERR_COUNT t
  generalize t.inc CFG_ENVERR_COUNT = u at hcount hsecond
  have haddr : (u.wr CFG_ENVADDR_ADDR a).rd CFG_ENVADDR_ADDR = a := rd_wr_of_lt _ _ _ ha
  have hthird := onlyWrites_wr CFG_ENVADDR_ADDR a u
  generalize u.wr CFG_ENVADDR_ADDR a = w at haddr hthird
  have hraise {f : Fld} (hf : f.key ≠ (EVSTAT 25).key) := rd_raise_ne 25 4 w f hf
  refine ⟨?_, ?_, ?_, leafSet_raise 25 4 w (by decide), ?_⟩
  · rw [hraise (by decide), hthird.1 _ (by decide), hsecond.1 _ (by decide), hlock]
  · rw [hraise (by decide), haddr]
  · rw [hraise (by decide), hthird.1 _ (by decide), hcount, hfirst.1 _ (by decide)]
    rfl
  · exact ((((hfirst.mono (by simp) (by simp)).trans (hsecond.mono (by simp) (by simp))).trans (hthird.mono (by simp) (by simp))).trans
      ((onlyWrites_raise 25 4 w).mono (by simp) (by simp)))

theorem decodeFor_window (p : Path) : (decodeFor p.idx 0x28).isSome = true := by
  cases p <;> decide

section
variable {a : Nat} {p : Path} {s : State} (hs : scopeOf s p = .whole) (ha : absentAddr (variant s) a = false) (hd : decodeFor p.idx a = none)
  (hr : reservedWord a = false) (hb : 4 ≤ s.bt.released)
include hs ha hd hr hb

theorem pathWrite_unmapped (v : Nat) : pathWrite p a v s = raise 25 0 s := by
  have hne : a ≠ 0x28 := by
    rintro rfl
    have h := decodeFor_window p
    simp [hd] at h
  simp [pathWrite, hs, regWrite, hne, fabricWrite, ha, hd, hr, decodeError, hb]

omit hs in
theorem regRead_unmapped : regRead p a s = (0, raise 25 0 s) := by
  have hne : a ≠ 0x28 := by
    rintro rfl
    have h := decodeFor_window p
    simp [hd] at h
  simp [regRead, hne, fabricRead, ha, hd, hr, decodeError, hb]

theorem pathRead_unmapped (hlt : a < 2 ^ 32) : pathRead p a 1 s = (some [0], raise 25 0 s) := by
  have hread : readWords p a 1 s = ([0], raise 25 0 s) := by
    rw [readWords, readWords, Nat.mod_eq_of_lt hlt, regRead_unmapped ha hd hr hb]
  unfold pathRead
  rw [hs]
  dsimp only
  rw [hread]

end

theorem exec_unmappedRead {p : Path} {a : Word} {t s : State} (hd : decodeFor p.idx (wordAddr a) = none) (ha : absentAddr (variant s) (wordAddr a) = false)
    (hr : reservedWord (wordAddr a) = false) (hread : pathRead p (wordAddr a) 1 s = (some [0], t)) :
    exec (.unmappedAccess p a false) s = .next (t.emit (.readData p 0)) := by
  have hexec : exec (.unmappedAccess p a false) s = execUnmappedAccess p a false s := rfl
  rw [execUnmappedAccess] at hexec
  dsimp only at hexec
  rw [if_neg (by simp [hd, ha, hr]), if_neg (by decide), hread] at hexec
  exact hexec

/-- Settles O44. -/
theorem registerWritesFollowTheirAccessCodes : Obligations.RegisterWritesFollowTheirAccessCodes := by
  unfold Obligations.RegisterWritesFollowTheirAccessCodes
  refine ⟨fun p a v r i j s h hne hd hp hw => ?_, fun p a v s h => ?_, fun p a v s hs ha hne hl hd => ?_, fun p a v s hs ha hd hr hb => ⟨?_, ?_⟩⟩
  · have hwrite := (pathWrite_of_plainly (v := v.toNat) h hne hd hp).trans (hw s)
    have hall := fieldsTakeTheirParts (v := v.toNat) hd h.2
    refine ⟨_, (exec_registerWrite p a v s).trans (congrArg _ hwrite), fun f hf => ?_⟩
    generalize wrWord (wordAddr a) v.toNat (regFields r i j) s = t at hall
    obtain ⟨hro, hw1c, hw1s, hrw⟩ := hall f hf
    refine ⟨hro, hw1c, hw1s, fun ho => ⟨(hrw ho).1, fun hout => ?_⟩⟩
    obtain ⟨hkeep, hleaf⟩ := (hrw ho).2 hout
    refine ⟨hkeep, ?_⟩
    unfold errorLeaf at hleaf
    split
    · next hin => rwa [if_pos hin] at hleaf
    · next hin => rwa [if_neg hin] at hleaf
  · rw [exec_registerWrite, pathWrite_outOfReach v.toNat h]
  · rw [exec_registerWrite, pathWrite_of_whole _ _ hs, regWrite_locked v.toNat ha hne hl hd]
    obtain ⟨hlock, haddr, hcount, hleaf, hwrites⟩ := envLock_effects (wordAddr_lt a) s
    exact ⟨_, rfl, hlock, haddr, hcount, hleaf, hwrites⟩
  · refine ⟨_, (exec_registerWrite p a v s).trans (congrArg _ (pathWrite_unmapped hs ha hd hr hb v.toNat)),
      (exec_unmappedWrite hd ha hr).trans (congrArg _ (pathWrite_unmapped hs ha hd hr hb 0)), leafSet_raise 25 0 s (by decide), onlyWrites_raise 25 0 s⟩
  · have hsent : (raise 25 0 s).sent = s.sent := raise_frame (κ := 4) rfl (.refl 4 s)
    have hleaf : leafSet (raise 25 0 s) 25 0 := leafSet_raise 25 0 s (by decide)
    refine ⟨_, exec_unmappedRead hd ha hr (pathRead_unmapped hs ha hd hr hb (wordAddr_lt a)), congrArg _ hsent, hleaf, ?_⟩
    exact ((onlyWrites_raise 25 0 s).mono (by simp) (by simp)).trans ((onlyWrites_emit [EVSTAT 25] _ _).mono (by simp) (by simp))

end Sys2Proof.Machine
end

section
set_option Elab.async false
/-! USB vendor requests (R78 to R82). -/

namespace Sys2Proof.Machine

open Sys2Proof Sys2Proof.Laws

/-! ### Vendor requests (R78 to R80) -/

theorem vendorRequest_served {f : State → State} {s : State} (hf : s.on SYS_STAGE_FWRDY = true) (he : s.on SYS_PATH_ENUSB = true) : vendorRequest f s = f s := by
  simp [vendorRequest, hf, he]

theorem vendorRequest_silent {s : State} (hf : s.on SYS_STAGE_FWRDY = false) (f : State → State) :
    vendorRequest f s = if treeRuns s then s.inc USB_MGT_SILENT else s := by
  simp [vendorRequest, hf]

/-- A request that its own form stalls is stalled on the path off as well. -/
theorem vendorRequest_stalled {f : State → State} {s : State} (hf : s.on SYS_STAGE_FWRDY = true) (h : s.on SYS_PATH_ENUSB = false ∨ f s = s.emit .stall) :
    vendorRequest f s = s.emit .stall := by
  rcases h with h | h
  · simp [vendorRequest, hf, h]
  · simp [vendorRequest, hf, h]

/-- What a request does once its path is up: the functions that the commands pass on. -/
def reads32 (r : Byte) (a : Word) (n : Nat) (s : State) : State :=
  if r ≠ 1 ∨ n ≠ 4 ∨ a.toNat % 4 ≠ 0 then s.emit .stall
  else (readWords .usb a.toNat 1 s).2.emit (.readBytes .usb (wordsBytes (asWords (readWords .usb a.toNat 1 s).1)))

def writes32 (a : Word) (n : Nat) (v : Word) (b : Bool) (s : State) : State :=
  if n ≠ 4 ∨ a.toNat % 4 ≠ 0 then s.emit .stall else if b then regWrite .usb a.toNat v.toNat s else s

def readsBurst (a : Word) (n : Nat) (s : State) : State :=
  if !burstLength n ∨ a.toNat % 4 ≠ 0 then s.emit .stall
  else if !(loadBurst a.toNat (n / 4) false s).1 then (loadBurst a.toNat (n / 4) false s).2.emit .stall
  else (readWindow .usb (n / 4) (loadBurst a.toNat (n / 4) false s).2).2.emit
    (.readBytes .usb (wordsBytes (asWords (readWindow .usb (n / 4) (loadBurst a.toNat (n / 4) false s).2).1)))

def writesBurst (a : Word) (d : Bytes) (b : Bool) (s : State) : State :=
  if !burstLength d.length ∨ a.toNat % 4 ≠ 0 then s.emit .stall
  else if !b then s
  else if !(loadBurst a.toNat (d.length / 4) true s).1 then (loadBurst a.toNat (d.length / 4) true s).2.emit .stall
  else writeWindow .usb (bytesWords d) (loadBurst a.toNat (d.length / 4) true s).2

def erases (a : Word) (n : Nat) (b : Bool) (s : State) : State :=
  if n ≠ 0 ∨ a.toNat % 65536 ≠ 0 then s.emit .stall else if b then (flashRequest true a.toNat 65536 [] none s).2 else s

def programs (a : Word) (d : Bytes) (b : Bool) (s : State) : State :=
  if !burstLength d.length ∨ a.toNat % 4 ≠ 0 ∨ 65536 < a.toNat % 65536 + d.length then s.emit .stall
  else if b then (flashRequest false a.toNat d.length d none s).2 else s

def readsFlash (a : Word) (n : Nat) (s : State) : State :=
  if !burstLength n ∨ a.toNat % 4 ≠ 0 ∨ s.mg.flashSize < a.toNat + n then s.emit .stall else s.emit (.readBytes .usb (flashBytes s a.toNat n))

def readsStatus (n : Nat) (s : State) : State := if n ≠ 4 then s.emit .stall else s.emit (.readBytes .usb (leBytes 4 s.mg.flashStat))

theorem exec_read32 (r : Byte) (a : Word) (n : Nat) (s : State) : exec (.read32 r ⟨a, n⟩) s = .next (vendorRequest (reads32 r a n) s) := rfl
theorem exec_write32 (a : Word) (n : Nat) (v : Word) (b : Bool) (s : State) : exec (.write32 ⟨a, n⟩ v b) s = .next (vendorRequest (writes32 a n v b) s) := rfl
theorem exec_dread (a : Word) (n : Nat) (s : State) : exec (.dread a n) s = .next (vendorRequest (readsBurst a n) s) := rfl
theorem exec_dwrite (a : Word) (d : Bytes) (b : Bool) (s : State) : exec (.dwrite a d b) s = .next (vendorRequest (writesBurst a d b) s) := rfl
theorem exec_flashErase (a : Word) (n : Nat) (b : Bool) (s : State) : exec (.flashErase ⟨a, n⟩ b) s = .next (vendorRequest (erases a n b) s) := rfl
theorem exec_flashProg (a : Word) (d : Bytes) (b : Bool) (s : State) : exec (.flashProg a d b) s = .next (vendorRequest (programs a d b) s) := rfl
theorem exec_flashRead (a : Word) (n : Nat) (s : State) : exec (.flashRead a n) s = .next (vendorRequest (readsFlash a n) s) := rfl
theorem exec_flashStat (n : Nat) (s : State) : exec (.flashStat n) s = .next (vendorRequest (readsStatus n) s) := rfl

/-! ### Requests in the wrong form -/

theorem reads32_stalls {r : Byte} {a : Word} {n : Nat} (h : r ≠ 1 ∨ n ≠ 4 ∨ a.toNat % 4 ≠ 0) (s : State) : reads32 r a n s = s.emit .stall := if_pos h
theorem writes32_stalls {a : Word} {n : Nat} (h : n ≠ 4 ∨ a.toNat % 4 ≠ 0) (v : Word) (b : Bool) (s : State) : writes32 a n v b s = s.emit .stall := if_pos h
theorem readsBurst_stalls {a : Word} {n : Nat} (h : burstLength n = false ∨ a.toNat % 4 ≠ 0) (s : State) : readsBurst a n s = s.emit .stall := if_pos (by simpa using h)
theorem readsFlash_stalls {a : Word} {n : Nat} (h : burstLength n = false ∨ a.toNat % 4 ≠ 0) (s : State) : readsFlash a n s = s.emit .stall := by
  refine if_pos ?_
  rcases h with h | h
  · simp [h]
  · simp [h]
theorem erases_stalls {a : Word} {n : Nat} (h : n ≠ 0 ∨ a.toNat % 65536 ≠ 0) (b : Bool) (s : State) : erases a n b s = s.emit .stall := if_pos h
theorem readsStatus_stalls {n : Nat} (h : n ≠ 4) (s : State) : readsStatus n s = s.emit .stall := if_pos h

section
variable {a v : Word} {r : Byte} {n : Nat} {s : State} (hf : s.on SYS_STAGE_FWRDY = true)
include hf

/-- A request whose own form stalls it, or that the path off stalls. -/
theorem stalled {f : State → State} (h : s.on SYS_PATH_ENUSB = false ∨ f s = s.emit .stall) :
    (.next (vendorRequest f s) : Host.Outcome State Fault Refusal) = .next (s.emit .stall) := congrArg _ (vendorRequest_stalled hf h)

theorem requests_unaligned (h : s.on SYS_PATH_ENUSB = false ∨ a.toNat % 4 ≠ 0) : exec (.read32 r ⟨a, n⟩) s = .next (s.emit .stall) ∧
    exec (.write32 ⟨a, n⟩ v true) s = .next (s.emit .stall) ∧ exec (.dread a n) s = .next (s.emit .stall) ∧
    exec (.flashRead a n) s = .next (s.emit .stall) ∧ exec (.flashErase ⟨a, n⟩ true) s = .next (s.emit .stall) :=
  ⟨stalled hf (h.imp_right fun h => reads32_stalls (.inr (.inr h)) s), stalled hf (h.imp_right fun h => writes32_stalls (.inr h) v true s),
    stalled hf (h.imp_right fun h => readsBurst_stalls (.inr h) s), stalled hf (h.imp_right fun h => readsFlash_stalls (.inr h) s),
    stalled hf (h.imp_right fun h => erases_stalls (a := a) (n := n) (.inr (by omega)) true s)⟩

theorem requests_wrongLength (h : n ≠ 4) : exec (.read32 r ⟨a, n⟩) s = .next (s.emit .stall) ∧ exec (.write32 ⟨a, n⟩ v true) s = .next (s.emit .stall) ∧
    exec (.flashStat n) s = .next (s.emit .stall) :=
  ⟨stalled hf (.inr (reads32_stalls (.inr (.inl h)) s)), stalled hf (.inr (writes32_stalls (.inl h) v true s)), stalled hf (.inr (readsStatus_stalls h s))⟩

theorem requests_wrongBurst (h : burstLength n = false) : exec (.dread a n) s = .next (s.emit .stall) ∧ exec (.flashRead a n) s = .next (s.emit .stall) :=
  ⟨stalled hf (.inr (readsBurst_stalls (.inl h) s)), stalled hf (.inr (readsFlash_stalls (.inl h) s))⟩

end

/-! ### The requests of the boot flash (R78, R80) -/

theorem partsOnly_mg (m : Mgmt) (s : State) : partsOnly [.mg] s { s with mg := m } := by
  intro q hq
  cases q
  case mg => simp at hq
  all_goals rfl

section
variable {a : Word} {d : Bytes} {s : State} (hf : s.on SYS_STAGE_FWRDY = true) (he : s.on SYS_PATH_ENUSB = true)
include hf he

theorem flashErases (hn : s.mg.flashOp = none) (ha : a.toNat % 65536 = 0) (hsize : a.toNat + 65536 ≤ s.mg.flashSize)
    (hp : protectedRange s a.toNat 65536 = false) : ∃ t, exec (.flashErase ⟨a, 0⟩ true) s = .next t ∧
      t.mg.flashOp = some { erase := true, off := a.toNat, data := [] } ∧ t.mg.flashStat = 1 ∧ partsOnly [.mg] s t := by
  have hserved : vendorRequest (erases a 0 true) s = _ := vendorRequest_served hf he
  rw [erases, if_neg (by simp [ha]), if_pos rfl, flashRequest, if_neg (by simp [hn]), if_neg (Nat.not_lt.2 hsize), if_neg (by simp [hp])] at hserved
  exact ⟨_, (exec_flashErase ..).trans (congrArg Host.Outcome.next hserved), rfl, rfl, partsOnly_mg _ s⟩

theorem flashErase_unfinished (ha : a.toNat % 65536 = 0) : exec (.flashErase ⟨a, 0⟩ false) s = .next s := by
  rw [exec_flashErase, vendorRequest_served hf he, erases, if_neg (by simp [ha])]
  rfl

theorem flashPrograms (hn : s.mg.flashOp = none) (hd : burstLength d.length = true) (ha : a.toNat % 4 = 0) (hsector : a.toNat % 65536 + d.length ≤ 65536)
    (hsize : a.toNat + d.length ≤ s.mg.flashSize) :
    (protectedRange s a.toNat d.length = false → ∃ t, exec (.flashProg a d true) s = .next t ∧
      t.mg.flashOp = some { erase := false, off := a.toNat, data := d } ∧ t.mg.flashStat = 1 ∧ partsOnly [.mg] s t) ∧
    (protectedRange s a.toNat d.length = true → ∃ t, exec (.flashProg a d true) s = .next t ∧ t.mg.flashOp = none ∧
      t.mg.flashStat = 3 ∧ partsOnly [.mg] s t) := by
  have hserved : vendorRequest (programs a d true) s = _ := vendorRequest_served hf he
  rw [programs, if_neg (by simp [hd, ha, hsector]), if_pos rfl, flashRequest, if_neg (by simp [hn]), if_neg (Nat.not_lt.2 hsize)] at hserved
  refine ⟨fun hp => ?_, fun hp => ?_⟩
  · rw [if_neg (by simp [hp])] at hserved
    exact ⟨_, (exec_flashProg ..).trans (congrArg Host.Outcome.next hserved), rfl, rfl, partsOnly_mg _ s⟩
  · rw [if_pos hp] at hserved
    exact ⟨_, (exec_flashProg ..).trans (congrArg Host.Outcome.next hserved), hn, rfl, partsOnly_mg _ s⟩

theorem flashReads {n : Nat} (hn : burstLength n = true) (ha : a.toNat % 4 = 0) (hsize : a.toNat + n ≤ s.mg.flashSize) : ∃ t, exec (.flashRead a n) s = .next t ∧
    t.sent = .readBytes .usb (flashBytes s a.toNat n) :: s.sent ∧ partsOnly [.sent] s t := by
  have hserved : vendorRequest (readsFlash a n) s = _ := vendorRequest_served hf he
  rw [readsFlash, if_neg (by simp [hn, ha, hsize])] at hserved
  exact ⟨_, (exec_flashRead ..).trans (congrArg Host.Outcome.next hserved), rfl, partsOnly_emit _ s⟩

theorem flashShown : ∃ t, exec (.flashStat 4) s = .next t ∧ t.sent = .readBytes .usb (leBytes 4 s.mg.flashStat) :: s.sent ∧ partsOnly [.sent] s t :=
  ⟨_, (exec_flashStat 4 s).trans (congrArg Host.Outcome.next (vendorRequest_served hf he)), rfl, partsOnly_emit _ s⟩

end

/-! ### READ32 and WRITE32 (R78, R79) -/

theorem scopeOf_usb {s : State} (hf : s.on SYS_STAGE_FWRDY = true) (he : s.on SYS_PATH_ENUSB = true) : scopeOf s .usb = .whole := by
  simp [scopeOf, hf, he]

theorem leBytes_mod (x : Nat) : leBytes 4 (x % 2 ^ 32) = leBytes 4 x := by
  simp only [leBytes, List.cons.injEq, and_true]
  refine ⟨?_, ?_, ?_, ?_⟩
  all_goals
    apply BitVec.eq_of_toNat_eq
    simp only [BitVec.toNat_ofNat]
    omega

theorem bytesWords_leBytes (v : Word) : bytesWords (leBytes 4 v.toNat) = [v] := by
  simp only [leBytes, bytesWords, List.cons.injEq, and_true]
  apply BitVec.eq_of_toNat_eq
  have hlt := v.isLt
  simp only [leNat, BitVec.toNat_ofNat]
  omega

theorem wordsBytes_asWords_one (x : Nat) : wordsBytes (asWords [x]) = leBytes 4 x := by
  simp only [asWords, List.map_cons, List.map_nil, wordsBytes, List.flatMap_cons, List.flatMap_nil, List.append_nil, BitVec.toNat_ofNat]
  exact leBytes_mod x

theorem leBytes_length (n x : Nat) : (leBytes n x).length = n := by
  induction n generalizing x with
  | zero => rfl
  | succ n ih => rw [leBytes, List.length_cons, ih]

theorem wordsBytes_length (ws : Words) : (wordsBytes ws).length = 4 * ws.length := by
  induction ws with
  | nil => rfl
  | cons w ws ih =>
    have hw := leBytes_length 4 w.toNat
    simp only [wordsBytes, List.flatMap_cons, List.length_append, List.length_cons] at ih ⊢
    omega

/-- A word of the map reads without a change. -/
theorem readWords_mapped {p : Path} {a : Nat} (hlt : a < 2 ^ 32) (hne : a ≠ 0x28) (hd : (decodeFor p.idx a).isSome = true) (s : State) :
    readWords p a 1 s = ([peekWord p a s], s) := by
  have hread : regRead p (a % 2 ^ 32) s = (peekWord p a s, s) := by
    rw [Nat.mod_eq_of_lt hlt, regRead, if_neg hne, fabricRead, if_pos (.inr (.inl hd))]
  rw [readWords, readWords, hread]

section
variable {a v : Word} {s : State} (hf : s.on SYS_STAGE_FWRDY = true) (he : s.on SYS_PATH_ENUSB = true) (ha : a.toNat % 4 = 0)
include hf he ha

theorem read32_answers (hne : a.toNat ≠ 0x28) (hd : (decodeFor 1 a.toNat).isSome = true) : ∃ t, exec (.read32 1 ⟨a, 4⟩) s = .next t ∧
    t.sent = .readBytes .usb (leBytes 4 (peekWord .usb a.toNat s)) :: s.sent ∧ partsOnly [.sent] s t := by
  have hserved : vendorRequest (reads32 1 a 4) s = _ := vendorRequest_served hf he
  rw [reads32, if_neg (by simp [ha]), readWords_mapped (p := .usb) a.isLt hne hd, wordsBytes_asWords_one] at hserved
  exact ⟨_, (exec_read32 ..).trans (congrArg Host.Outcome.next hserved), rfl, partsOnly_emit _ s⟩

theorem write32_writes : ∃ t, exec (.write32 ⟨a, 4⟩ v true) s = .next t ∧ exec (.registerWrite .usb a v) s = .next t := by
  have hserved : vendorRequest (writes32 a 4 v true) s = _ := vendorRequest_served hf he
  rw [writes32, if_neg (by simp [ha]), if_pos rfl] at hserved
  refine ⟨_, (exec_write32 ..).trans (congrArg Host.Outcome.next hserved), ?_⟩
  rw [exec_registerWrite, pathWrite_of_whole _ _ (scopeOf_usb hf he), wordAddr, Nat.div_mul_cancel (Nat.dvd_of_mod_eq_zero ha)]

theorem write32_unfinished : exec (.write32 ⟨a, 4⟩ v false) s = .next s := by
  rw [exec_write32, vendorRequest_served hf he, writes32, if_neg (by simp [ha])]
  rfl

end

/-! ### The USB window's bursts (R76 to R78) -/

/-- The window's registers as a request sets them. -/
def windowSet (a len : Nat) (wr : Bool) (s : State) : State :=
  s.wrs [(SYS_DWADDR_ADDR 1, a / 4), (SYS_DWCTL_LEN 1, len), (SYS_DWCTL_STEP 1, 1), (SYS_DWCTL_DIR 1, b2n wr)]

theorem loadBurst_eq (a len : Nat) (wr : Bool) (s : State) :
    loadBurst a len wr s = (!(s.on (SYS_DWCTL_BUSY 1) || !burstFits a len 1), armWindow 1 (windowSet a len wr s)) := rfl

theorem windowSet_effects {a len : Nat} (ha : a < 2 ^ 32) (hlen : len ≤ 1024) (wr : Bool) (s : State) :
    (windowSet a len wr s).rd (SYS_DWADDR_ADDR 1) = a / 4 ∧ (windowSet a len wr s).rd (SYS_DWCTL_LEN 1) = len ∧ (windowSet a len wr s).rd (SYS_DWCTL_STEP 1) = 1 ∧
    (windowSet a len wr s).on (SYS_DWCTL_DIR 1) = wr ∧ (windowSet a len wr s).rd (SYS_DWCTL_BUSY 1) = s.rd (SYS_DWCTL_BUSY 1) := by
  have hnodup : ([(SYS_DWADDR_ADDR 1, a / 4), (SYS_DWCTL_LEN 1, len), (SYS_DWCTL_STEP 1, 1), (SYS_DWCTL_DIR 1, b2n wr)].map fun x => x.1.key).Nodup :=
    show [(SYS_DWADDR_ADDR 1).key, (SYS_DWCTL_LEN 1).key, (SYS_DWCTL_STEP 1).key, (SYS_DWCTL_DIR 1).key].Nodup by decide
  have hdir : (windowSet a len wr s).rd (SYS_DWCTL_DIR 1) = b2n wr := rd_wrs_eq hnodup (by simp) (show b2n wr < 2 ^ 1 by cases wr <;> decide) s
  refine ⟨rd_wrs_eq hnodup (by simp) (show a / 4 < 2 ^ 30 by omega) s, rd_wrs_eq hnodup (by simp) (show len < 2 ^ 11 by omega) s,
    rd_wrs_eq hnodup (by simp) (show 1 < 2 ^ 8 by decide) s, ?_, ?_⟩
  · rw [State.on, hdir]
    cases wr <;> rfl
  · refine State.rd_wrs_ne s _ _ ?_
    simp only [List.forall_mem_cons, List.not_mem_nil, false_implies, implies_true, and_true]
    decide

theorem loadBurst_taken {a len : Nat} (ha : a < 2 ^ 32) (h4 : a % 4 = 0) (hlen : len ≤ 1024) {s : State} (hb : s.on (SYS_DWCTL_BUSY 1) = false)
    (hfit : burstFits a len 1 = true) (wr : Bool) : (loadBurst a len wr s).1 = true ∧
    mfind (loadBurst a len wr s).2.mg.bursts 1 = some { left := len, step := 1, wr := wr } ∧ (loadBurst a len wr s).2.rd (SYS_DWADDR_ADDR 1) = a / 4 ∧
    (loadBurst a len wr s).2.sent = s.sent := by
  obtain ⟨haddr, hl, hstep, hdir, hbusy⟩ := windowSet_effects ha hlen wr s
  have hsent : (windowSet a len wr s).sent = s.sent := rfl
  rw [loadBurst_eq]
  generalize windowSet a len wr s = t at haddr hl hstep hdir hbusy hsent
  have hfree : t.on (SYS_DWCTL_BUSY 1) = false := by rwa [State.on, hbusy, ← State.on]
  have hfits : burstFits (4 * t.rd (SYS_DWADDR_ADDR 1)) (t.rd (SYS_DWCTL_LEN 1)) (t.rd (SYS_DWCTL_STEP 1)) = true := by
    rwa [haddr, hl, hstep, Nat.mul_div_cancel' (Nat.dvd_of_mod_eq_zero h4)]
  refine ⟨by simp [hb, hfit], ?_, ?_, ?_⟩
  · show mfind (armWindow 1 t).mg.bursts 1 = _
    rw [armWindow_of_fits hfree hfits, State.bursts_setBursts, mfind_mins, if_pos rfl, hl, hstep, hdir]
  · exact ((onlyWrites_armWindow hfree hfits).1 _ (by decide)).trans haddr
  · exact ((onlyWrites_armWindow hfree hfits).2 .sent (by decide)).trans hsent

theorem loadBurst_busy {a len : Nat} (ha : a < 2 ^ 32) (hlen : len ≤ 1024) {s : State} (hb : s.on (SYS_DWCTL_BUSY 1) = true) (wr : Bool) :
    (loadBurst a len wr s).1 = false ∧ (loadBurst a len wr s).2.rd (SYS_DWCTL_ERR 1) = 1 ∧ (loadBurst a len wr s).2.rd (SYS_DWADDR_ADDR 1) = a / 4 ∧
    leafSet (loadBurst a len wr s).2 25 1 ∧ (loadBurst a len wr s).2.mg.bursts = s.mg.bursts ∧ (loadBurst a len wr s).2.sent = s.sent := by
  obtain ⟨haddr, -, -, -, hbusy⟩ := windowSet_effects ha hlen wr s
  have hsent : (windowSet a len wr s).sent = s.sent := rfl
  have hbursts : (windowSet a len wr s).mg.bursts = s.mg.bursts := rfl
  rw [loadBurst_eq]
  generalize windowSet a len wr s = t at haddr hbusy hsent hbursts
  have hrefused : armWindow 1 t = windowError 1 t := armWindow_refused (.inl (by rwa [State.on, hbusy, ← State.on]))
  rw [hrefused]
  exact ⟨by simp [hb], rd_err_windowError 1 t, ((onlyWrites_windowError 1 t).1 _ (by decide)).trans haddr, leafSet_windowError 1 t,
    (bursts_windowError 1 t).trans hbursts, (sent_windowError 1 t).trans hsent⟩

/-- A read through the window leaves all but the window and the leaf of an unmapped word. -/
theorem windowAccess_reads {p : Path} {b : Burst} {s : State} (hb : mfind s.mg.bursts p.idx = some b) (hwr : b.wr = false) :
    ∃ u, (windowAccess p none s).2 = advanceBurst p.idx b u ∧ onlyWrites [EVSTAT 25] [.mg] s u ∧ u.sent = s.sent := by
  by_cases ha : 4 * s.rd (SYS_DWADDR_ADDR p.idx) = 0x28
  · refine ⟨s, ?_, .refl .., rfl⟩
    simp [windowAccess, hb, hwr, ha]
  · rw [windowAccess_read hb hwr ha]
    exact ⟨_, rfl, onlyWrites_fabricRead .., sent_fabricRead ..⟩

theorem readWindow_effects {p : Path} {k : Nat} (hk : 1 ≤ k) {s : State} (hb : mfind s.mg.bursts p.idx = some { left := k, step := 1, wr := false }) :
    (readWindow p k s).1.length = k ∧ (readWindow p k s).2.rd (SYS_DWCTL_BUSY p.idx) = 0 ∧
    (readWindow p k s).2.rd (SYS_DWADDR_ADDR p.idx) = (s.rd (SYS_DWADDR_ADDR p.idx) + k) % 2 ^ 30 ∧ (readWindow p k s).2.sent = s.sent := by
  induction k generalizing s with
  | zero => omega
  | succ k ih =>
    obtain ⟨u, hu, hread, hsent⟩ := windowAccess_reads hb rfl
    obtain ⟨haddr, hlast, hmore, hframe⟩ := advanced_advanceBurst p.idx { left := k + 1, step := 1, wr := false } u
    rw [← hu] at haddr hlast hmore hframe
    have hkept : u.rd (SYS_DWADDR_ADDR p.idx) = s.rd (SYS_DWADDR_ADDR p.idx) := hread.1 _ (by simpa using (window_ne_evstat p.idx).1)
    have hsame : (windowAccess p none s).2.sent = s.sent := (hframe.2 .sent (by decide)).trans hsent
    rw [hkept] at haddr
    have hstep : readWindow p (k + 1) s = ((windowAccess p none s).1 :: (readWindow p k (windowAccess p none s).2).1, (readWindow p k (windowAccess p none s).2).2) := rfl
    rw [hstep]
    generalize (windowAccess p none s).1 = w
    generalize (windowAccess p none s).2 = t at haddr hlast hmore hsame
    rcases Nat.eq_zero_or_pos k with rfl | hpos
    · exact ⟨rfl, (hlast (by simp)).1, haddr, hsame⟩
    · obtain ⟨hlen, hbusy, haddr', hsent'⟩ := ih hpos (s := t) (hmore (Nat.succ_le_succ hpos))
      refine ⟨by simp [hlen], hbusy, ?_, hsent'.trans hsame⟩
      rw [haddr', haddr]
      dsimp only
      omega

section
variable {a v : Word} {s : State} (hf : s.on SYS_STAGE_FWRDY = true) (he : s.on SYS_PATH_ENUSB = true) (ha : a.toNat % 4 = 0)
include hf he ha

theorem dread_answers {n : Nat} (hn : burstLength n = true) (hb : s.on (SYS_DWCTL_BUSY 1) = false) (hfit : burstFits a.toNat (n / 4) 1 = true) :
    ∃ t d, exec (.dread a n) s = .next t ∧ t.sent = .readBytes .usb d :: s.sent ∧ d.length = n ∧ t.rd (SYS_DWCTL_BUSY 1) = 0 ∧
      t.rd (SYS_DWADDR_ADDR 1) = (a.toNat / 4 + n / 4) % 2 ^ 30 := by
  have hlen : 4 ≤ n ∧ n ≤ 4096 ∧ n % 4 = 0 := by simpa [burstLength, and_assoc] using hn
  obtain ⟨htaken, hburst, haddr, hsent⟩ := loadBurst_taken a.isLt ha (show n / 4 ≤ 1024 by omega) hb hfit false
  have hserved : vendorRequest (readsBurst a n) s = _ := vendorRequest_served hf he
  rw [readsBurst, if_neg (by simp [hn, ha]), if_neg (by simp [htaken])] at hserved
  generalize (loadBurst a.toNat (n / 4) false s).2 = t at hserved hburst haddr hsent
  obtain ⟨hwords, hbusy, haddr', hsent'⟩ := readWindow_effects (p := .usb) (show 1 ≤ n / 4 by omega) hburst
  generalize readWindow .usb (n / 4) t = r at hserved hwords hbusy haddr' hsent'
  refine ⟨_, _, (exec_dread ..).trans (congrArg Host.Outcome.next hserved), congrArg _ (hsent'.trans hsent), ?_, hbusy, ?_⟩
  · rw [wordsBytes_length, asWords, List.length_map, hwords]
    omega
  · rw [State.rd_emit, ← haddr]
    exact haddr'

theorem dwrite_writes (hb : s.on (SYS_DWCTL_BUSY 1) = false) : (loadBurst a.toNat 1 true s).1 = true ∧
    exec (.dwrite a (leBytes 4 v.toNat) true) s = .next (windowAccess .usb (some v.toNat) (loadBurst a.toNat 1 true s).2).2 := by
  have hfit : burstFits a.toNat 1 1 = true := by simp [burstFits]
  obtain ⟨htaken, -, -, -⟩ := loadBurst_taken a.isLt ha (show 1 ≤ 1024 by decide) hb hfit true
  have hlen : (leBytes 4 v.toNat).length = 4 := leBytes_length 4 v.toNat
  refine ⟨htaken, ?_⟩
  rw [exec_dwrite, vendorRequest_served hf he, writesBurst, hlen, if_neg (by simp [ha, burstLength]), if_neg (by simp), if_neg (by simp [htaken]), bytesWords_leBytes]
  rfl

theorem dwrite_unfinished : exec (.dwrite a (leBytes 4 v.toNat) false) s = .next s := by
  have hlen : (leBytes 4 v.toNat).length = 4 := leBytes_length 4 v.toNat
  rw [exec_dwrite, vendorRequest_served hf he, writesBurst, hlen, if_neg (by simp [ha, burstLength])]
  rfl

theorem bursts_busy (hb : s.on (SYS_DWCTL_BUSY 1) = true) :
    (∃ t, exec (.dwrite a (leBytes 4 v.toNat) true) s = .next t ∧ t.sent = .stall :: s.sent ∧
        t.rd (SYS_DWCTL_ERR 1) = 1 ∧ t.rd (SYS_DWADDR_ADDR 1) = a.toNat / 4 ∧ leafSet t 25 1 ∧ t.mg.bursts = s.mg.bursts) ∧
    (∃ t, exec (.dread a 4) s = .next t ∧ t.sent = .stall :: s.sent ∧ t.rd (SYS_DWCTL_ERR 1) = 1 ∧
        t.rd (SYS_DWADDR_ADDR 1) = a.toNat / 4 ∧ leafSet t 25 1 ∧ t.mg.bursts = s.mg.bursts) := by
  have hlen : (leBytes 4 v.toNat).length = 4 := leBytes_length 4 v.toNat
  have hw : vendorRequest (writesBurst a (leBytes 4 v.toNat) true) s = _ := vendorRequest_served hf he
  have hr : vendorRequest (readsBurst a 4) s = _ := vendorRequest_served hf he
  obtain ⟨hwno, hwerr, hwaddr, hwleaf, hwbursts, hwsent⟩ := loadBurst_busy a.isLt (show 1 ≤ 1024 by decide) hb true
  obtain ⟨hrno, hrerr, hraddr, hrleaf, hrbursts, hrsent⟩ := loadBurst_busy a.isLt (show 1 ≤ 1024 by decide) hb false
  rw [writesBurst, hlen, if_neg (by simp [ha, burstLength]), if_neg (by simp), if_pos (by simp [hwno])] at hw
  rw [readsBurst, if_neg (by simp [ha, burstLength]), if_pos (by simp [hrno])] at hr
  exact ⟨⟨_, (exec_dwrite ..).trans (congrArg Host.Outcome.next hw), congrArg _ hwsent, hwerr, hwaddr, hwleaf, hwbursts⟩,
    ⟨_, (exec_dread ..).trans (congrArg Host.Outcome.next hr), congrArg _ hrsent, hrerr, hraddr, hrleaf, hrbursts⟩⟩

end

/-! ### The end of a flash operation (R80) -/

/-- The flash as an operation leaves it. -/
def flashAfter (o : FlashOp) (ok : Bool) (s : State) : NMap Byte :=
  if !ok then memWrite 0xFF s.flash o.off (leBytes (if o.erase then 0x10000 else o.data.length) s.free.1)
  else if o.erase then s.flash.filter fun e => e.1 < o.off || o.off + 0x10000 ≤ e.1
  else programBytes o.off o.data s.free.1 s.flash

/-- The operation is over. -/
def flashDone (o : FlashOp) (ok : Bool) (s : State) : State :=
  { s.free.2 with flash := flashAfter o ok s, mg := { s.mg with flashOp := none, flashStat := if ok then 2 else 4 } }

theorem exec_flashOpComplete {o : FlashOp} {s : State} (ho : s.mg.flashOp = some o) (hr : o.reply = none) (ok : Bool) :
    exec (.flashOpComplete ok) s = .next (flashDone o ok s) := by
  have hanswer : execFlashOpComplete ok s = .next (answerFlash o ok (flashDone o ok s)) := by
    rw [execFlashOpComplete, ho]
    rfl
  have hnone : answerFlash o ok (flashDone o ok s) = flashDone o ok s := by rw [answerFlash, hr]
  rw [show exec (.flashOpComplete ok) s = execFlashOpComplete ok s from rfl, hanswer, hnone]

theorem flashDone_parts (o : FlashOp) (ok : Bool) (s : State) : partsOnly [.flash, .mg, .freeCtr] s (flashDone o ok s) := by
  intro q hq
  cases q
  case flash => simp at hq
  case mg => simp at hq
  case freeCtr => simp at hq
  all_goals rfl

/-- An erase makes its sector read 0xFF. -/
theorem memGet_erased (m : NMap Byte) (off x : Nat) :
    memGet 0xFF (m.filter fun e => e.1 < off || off + 0x10000 ≤ e.1) x = if off ≤ x ∧ x < off + 65536 then 0xFF else memGet 0xFF m x := by
  have hfind := mfind_filter (fun j => j < off || off + 0x10000 ≤ j) m x
  unfold memGet mget
  rw [hfind]
  by_cases h : off ≤ x ∧ x < off + 65536
  · rw [if_pos h, if_neg (by simp only [Bool.or_eq_true, decide_eq_true_eq]; omega)]
    rfl
  · rw [if_neg h, if_pos (by simp only [Bool.or_eq_true, decide_eq_true_eq]; omega)]

/-- What programming stores at bytes that read 0xFF. -/
theorem programBytes_erased {off : Nat} {data : Bytes} {m : NMap Byte} (h : ∀ k, k < data.length → memGet 0xFF m (off + k) = 0xFF) (x : Nat) :
    programBytes off data x m = memWrite 0xFF m off data := by
  have hbytes : ((data.zip ((memRead 0xFF m off data.length).zip (leBytes data.length x))).map fun e => if e.2.1 = 0xFF ∨ e.2.1 = e.1 then e.1 else e.2.2) = data := by
    refine List.ext_getElem (by simp [memRead, leBytes_length]) fun i h₁ h₂ => ?_
    simp only [List.getElem_map, List.getElem_zip, memRead, List.getElem_range]
    rw [if_pos (.inl (h i h₂))]
  unfold programBytes
  dsimp only
  rw [hbytes]

section
variable {o : FlashOp} {s : State}

theorem flashErased (he : o.erase = true) (x : Nat) :
    memGet 0xFF (flashDone o true s).flash x = if o.off ≤ x ∧ x < o.off + 65536 then 0xFF else memGet 0xFF s.flash x := by
  have hflash : (flashDone o true s).flash = s.flash.filter fun e => e.1 < o.off || o.off + 0x10000 ≤ e.1 := by
    show flashAfter o true s = _
    rw [flashAfter, if_neg (by decide), if_pos he]
  rw [hflash, memGet_erased]

theorem flashProgrammed (he : o.erase = false) (h : ∀ k, k < o.data.length → memGet 0xFF s.flash (o.off + k) = 0xFF) :
    flashBytes (flashDone o true s) o.off o.data.length = o.data ∧
    ∀ x, x < o.off ∨ o.off + o.data.length ≤ x → memGet 0xFF (flashDone o true s).flash x = memGet 0xFF s.flash x := by
  have hflash : (flashDone o true s).flash = memWrite 0xFF s.flash o.off o.data := by
    show flashAfter o true s = _
    rw [flashAfter, if_neg (by decide), if_neg (by simp [he]), programBytes_erased h]
  rw [flashBytes, hflash]
  exact ⟨memRead_memWrite .., fun x hx => memGet_memWrite_outside _ _ _ _ _ hx⟩

theorem flashFailed (x : Nat) (hx : x < o.off ∨ o.off + max 65536 o.data.length ≤ x) :
    memGet 0xFF (flashDone o false s).flash x = memGet 0xFF s.flash x := by
  have hflash : (flashDone o false s).flash = memWrite 0xFF s.flash o.off (leBytes (if o.erase then 0x10000 else o.data.length) s.free.1) := by
    show flashAfter o false s = _
    rw [flashAfter, if_pos (by decide)]
  rw [hflash]
  refine memGet_memWrite_outside _ _ _ _ _ ?_
  rw [leBytes_length]
  split <;> omega

end

theorem rd_silent (s : State) : (s.inc USB_MGT_SILENT).rd USB_MGT_SILENT = satInc 255 (s.rd USB_MGT_SILENT) := rd_inc_eq_satInc USB_MGT_SILENT s

/-- Settles O46. -/
theorem usbRequestsAreServed : Obligations.UsbRequestsAreServed := by
  unfold Obligations.UsbRequestsAreServed
  refine ⟨fun a v s hf he ha => ⟨read32_answers hf he ha, write32_writes hf he ha, write32_unfinished hf he ha, fun n => dread_answers hf he ha,
      dwrite_writes hf he ha, dwrite_unfinished hf he ha, bursts_busy hf he ha⟩,
    fun a v r n s hf => ⟨requests_unaligned hf, fun hr => stalled hf (.inr (reads32_stalls (.inl hr) s)), requests_wrongLength hf,
      fun hn => stalled hf (.inr (erases_stalls (.inl hn) true s)), requests_wrongBurst hf⟩,
    fun a v r n b s hf => ?_,
    fun a d s hf he hn => ⟨flashErases hf he hn, flashErase_unfinished hf he, flashPrograms hf he hn⟩,
    fun a n s hf he => ⟨flashReads hf he, flashShown hf he⟩, fun o s _ ho hr => ⟨fun he => ?_, fun he hff => ?_, ?_⟩, fun b s hn => ?_⟩
  · refine ⟨if treeRuns s then s.inc USB_MGT_SILENT else s, .ite (onlyWrites_inc USB_MGT_SILENT s) (.refl ..), fun ht => ?_, ?_⟩
    · rw [if_pos ht]
      exact rd_silent s
    · exact ⟨congrArg _ (vendorRequest_silent hf _), congrArg _ (vendorRequest_silent hf _), congrArg _ (vendorRequest_silent hf _),
        congrArg _ (vendorRequest_silent hf _), congrArg _ (vendorRequest_silent hf _)⟩
  · exact ⟨_, exec_flashOpComplete ho hr true, rfl, rfl, flashErased he, flashDone_parts o true s⟩
  · obtain ⟨hdata, hrest⟩ := flashProgrammed he hff
    exact ⟨_, exec_flashOpComplete ho hr true, rfl, rfl, hdata, hrest, flashDone_parts o true s⟩
  · exact ⟨_, exec_flashOpComplete ho hr false, rfl, rfl, flashFailed, flashDone_parts o false s⟩
  · have hexec : exec (.flashOpComplete b) s = execFlashOpComplete b s := rfl
    rw [hexec, execFlashOpComplete, hn]

end Sys2Proof.Machine
end

section
set_option Elab.async false
/-! Management messages (R69 to R71, R81, R82). -/

namespace Sys2Proof.Machine

open Sys2Proof Sys2Proof.Laws

/-! ### A message arrives (R69, R71, R82) -/

section
variable {c : Crown} {s : State}

theorem arrive_serves (hr : tunReachable s c.val = true) (he : pathEnabled s (tunPath c.val) = true) (hf : s.on SYS_STAGE_FWRDY = true)
    (hn : flashPending s c.val = false) (m : Instr) : arrive c m s = serve m s := by
  simp [arrive, hr, he, hf, hn]

theorem arrive_discards (h : tunReachable s c.val = false ∨ pathEnabled s (tunPath c.val) = false) (m : Instr) : arrive c m s = s :=
  if_pos (by simpa using h)

theorem arrive_holds (hr : tunReachable s c.val = true) (he : pathEnabled s (tunPath c.val) = true)
    (h : s.on SYS_STAGE_FWRDY = false ∨ flashPending s c.val = true) (m : Instr) : arrive c m s = holdMessage c.val m s := by
  rcases h with h | h
  · simp [arrive, hr, he, h]
  · simp [arrive, hr, he, h]

theorem holdMessage_effects {n : Nat} (hlen : (mget [] s.mg.held n).length < 16) (m : Instr) :
    mget [] (holdMessage n m s).mg.held n = mget [] s.mg.held n ++ [m] ∧ partsOnly [.mg] s (holdMessage n m s) := by
  unfold holdMessage
  dsimp only
  rw [if_pos hlen]
  refine ⟨?_, partsOnly_mg _ s⟩
  show mget [] (mins s.mg.held n _) n = _
  rw [mget_mins, if_pos rfl]

end

/-! ### The agent answers (R81) -/

theorem sent_respond (c : Crown) (op tag status : Nat) (addr : Word) (data : Words) (s : State) :
    (respond c op tag status addr data s).sent = .mgmt c (op ||| 0x80) tag status data.length addr data :: s.sent := sent_sendMgmt ..

theorem respond_parts {c : Crown} {op tag status : Nat} {addr : Word} {data : Words} {s : State} :
    partsOnly [.sent, .fb] s (respond c op tag status addr data s) := partsOnly_of_parts fun k hk => respond_frame (testBit_sub rfl hk) (.refl k s)

theorem scopeOf_tunPath {c : Crown} {s : State} (hr : tunReachable s c.val = true) (he : pathEnabled s (tunPath c.val) = true) (hf : s.on SYS_STAGE_FWRDY = true) :
    scopeOf s (tunPath c.val) = .whole := by
  revert hr he
  match c with
  | 0 => 
    intro hr he
    show (if s.on SYS_STAGE_FWRDY && tunReachable s 0 && s.on SYS_PATH_ENTUN0 then Scope.whole else .none) = .whole
    rw [if_pos]
    simp only [hf, Bool.true_and, Bool.and_eq_true]
    exact ⟨hr, he⟩
  | 1 =>
    intro hr he
    show (if s.on SYS_STAGE_FWRDY && tunReachable s 1 && s.on SYS_PATH_ENTUN1 then Scope.whole else .none) = .whole
    rw [if_pos]
    simp only [hf, Bool.true_and, Bool.and_eq_true]
    exact ⟨hr, he⟩

theorem messageWords_exact {n : Byte} {d : Words} (h : d.length = n.toNat) : messageWords n d = d := by
  rw [messageWords, ← h, List.take_left]

theorem bytesWords_length (n : Nat) {b : Bytes} (h : b.length = 4 * n) : (bytesWords b).length = n := by
  induction n generalizing b with
  | zero =>
    rw [List.eq_nil_of_length_eq_zero h]
    rfl
  | succ n ih =>
    match b, h with
    | w :: x :: y :: z :: b, h =>
      rw [bytesWords, List.length_cons, ih (b := b) (by simp only [List.length_cons] at h; omega)]

theorem badRange_one {a : Word} (ha : a.toNat % 4 = 0) : badRange a 1 = false := by simp [badRange, ha, burstFits]

section
variable {c : Crown} {s : State} (hr : tunReachable s c.val = true) (he : pathEnabled s (tunPath c.val) = true) (hf : s.on SYS_STAGE_FWRDY = true)
  (hn : flashPending s c.val = false)
include hr he hf hn

theorem exec_read_serves (g n : Byte) (a : Word) : exec (.read c g n a) s = .next (serveRead c g n a s) :=
  congrArg Host.Outcome.next ((arrive_serves hr he hf hn _).trans (if_pos he))

theorem exec_write_serves (g n : Byte) (a : Word) (d : Words) : exec (.write c g n a d) s = .next (serveWrite c g n a d s) :=
  congrArg Host.Outcome.next ((arrive_serves hr he hf hn _).trans (if_pos he))

theorem exec_mgmtFlashErase_serves (g n : Byte) (a : Word) : exec (.mgmtFlashErase c g n a) s = .next (serveErase c g n a s) :=
  congrArg Host.Outcome.next ((arrive_serves hr he hf hn _).trans (if_pos he))

theorem exec_mgmtFlashProg_serves (g n : Byte) (a : Word) (d : Words) : exec (.mgmtFlashProg c g n a d) s = .next (serveProg c g n a d s) :=
  congrArg Host.Outcome.next ((arrive_serves hr he hf hn _).trans (if_pos he))

theorem exec_mgmtFlashRead_serves (g n : Byte) (a : Word) : exec (.mgmtFlashRead c g n a) s = .next (serveFlashRead c g n a s) :=
  congrArg Host.Outcome.next ((arrive_serves hr he hf hn _).trans (if_pos he))

theorem exec_mgmtReservedOp_serves (op g n : Byte) (a : Word) : exec (.mgmtReservedOp c op g ⟨n, a⟩) s = .next (serveReserved c op g n a s) :=
  congrArg Host.Outcome.next ((arrive_serves hr he hf hn _).trans (if_pos he))

/-! ### READ and WRITE -/

theorem read_answers {g : Byte} {a : Word} (ha : a.toNat % 4 = 0) (hne : a.toNat ≠ 0x28) (hd : (decodeFor (tunPath c.val).idx a.toNat).isSome = true) :
    ∃ t, exec (.read c g 1 a) s = .next t ∧
      t.sent = .mgmt c 0x81 g.toNat 0 1 a [BitVec.ofNat 32 (peekWord (tunPath c.val) a.toNat s)] :: s.sent ∧ partsOnly [.sent, .fb] s t := by
  have hserve : serveRead c g 1 a s = respond c 1 g.toNat 0 a (asWords [peekWord (tunPath c.val) a.toNat s]) s := by
    have hread := readWords_mapped (p := tunPath c.val) a.isLt hne hd s
    rw [serveRead, if_neg (by decide), if_neg (by rw [show (1 : Byte).toNat = 1 from rfl, badRange_one ha]; decide)]
    dsimp only
    rw [show (1 : Byte).toNat = 1 from rfl, hread]
  exact ⟨_, (exec_read_serves hr he hf hn g 1 a).trans (congrArg _ hserve), sent_respond .., respond_parts⟩

theorem write_answers {g : Byte} {a w : Word} (ha : a.toNat % 4 = 0) :
    (requestsReset a.toNat [w.toNat] = false → ∃ u t, exec (.registerWrite (tunPath c.val) a w) s = .next u ∧
        exec (.write c g 1 a [w]) s = .next t ∧ t.sent = .mgmt c 0x82 g.toNat 0 0 a [] :: u.sent ∧ partsOnly [.sent, .fb] u t) ∧
    (requestsReset a.toNat [w.toNat] = true → exec (.write c g 1 a [w]) s =
        .next (writeWords (tunPath c.val) a.toNat [w.toNat] (sendWaiting c.val (respond c 2 g.toNat 0 a [] s)))) := by
  have hserve : serveWrite c g 1 a [w] s = if requestsReset a.toNat [w.toNat] then
      writeWords (tunPath c.val) a.toNat [w.toNat] (sendWaiting c.val (respond c 2 g.toNat 0 a [] s))
      else respond c 2 g.toNat 0 a [] (writeWords (tunPath c.val) a.toNat [w.toNat] s) := by
    rw [serveWrite, if_neg (by decide), if_neg (by rw [show (1 : Byte).toNat = 1 from rfl, badRange_one ha]; decide)]
    rfl
  have hexec := exec_write_serves hr he hf hn g 1 a [w]
  refine ⟨fun hq => ?_, fun hq => ?_⟩
  · rw [hserve, if_neg (by simp [hq])] at hexec
    have hword : wordAddr a = a.toNat := Nat.div_mul_cancel (Nat.dvd_of_mod_eq_zero ha)
    have hwrite : exec (.registerWrite (tunPath c.val) a w) s = .next (writeWords (tunPath c.val) a.toNat [w.toNat] s) := by
      rw [exec_registerWrite, pathWrite_of_whole _ _ (scopeOf_tunPath hr he hf), hword, writeWords, writeWords, Nat.mod_eq_of_lt a.isLt]
    exact ⟨_, _, hwrite, hexec, sent_respond .., respond_parts⟩
  · rw [hexec, hserve, if_pos hq]

theorem count_refused {g n : Byte} {a : Word} {d : Words} (hc : goodCount n = false) :
    ∃ t u, exec (.read c g n a) s = .next t ∧ t.sent = .mgmt c 0x81 g.toNat 2 0 a [] :: s.sent ∧
      partsOnly [.sent, .fb] s t ∧ exec (.write c g n a d) s = .next u ∧ u.sent = .mgmt c 0x82 g.toNat 2 0 a [] :: s.sent ∧
      partsOnly [.sent, .fb] s u := by
  have hread : serveRead c g n a s = respond c 1 g.toNat 2 a [] s := if_pos (by simp [hc])
  have hwrite : serveWrite c g n a d s = respond c 2 g.toNat 2 a [] s := if_pos (by simp [hc])
  exact ⟨_, _, (exec_read_serves hr he hf hn g n a).trans (congrArg _ hread), sent_respond .., respond_parts,
    (exec_write_serves hr he hf hn g n a d).trans (congrArg _ hwrite), sent_respond .., respond_parts⟩

theorem range_refused {g n : Byte} {a : Word} {d : Words} (hc : goodCount n = true) (hb : badRange a n.toNat = true) :
    ∃ t u, exec (.read c g n a) s = .next t ∧
      t.sent = .mgmt c 0x81 g.toNat 1 0 a [] :: s.sent ∧ partsOnly [.sent, .fb] s t ∧ exec (.write c g n a d) s = .next u ∧
      u.sent = .mgmt c 0x82 g.toNat 1 0 a [] :: s.sent ∧ partsOnly [.sent, .fb] s u := by
  have hread : serveRead c g n a s = respond c 1 g.toNat 1 a [] s := by rw [serveRead, if_neg (by simp [hc]), if_pos hb]
  have hwrite : serveWrite c g n a d s = respond c 2 g.toNat 1 a [] s := by rw [serveWrite, if_neg (by simp [hc]), if_pos hb]
  exact ⟨_, _, (exec_read_serves hr he hf hn g n a).trans (congrArg _ hread), sent_respond .., respond_parts,
    (exec_write_serves hr he hf hn g n a d).trans (congrArg _ hwrite), sent_respond .., respond_parts⟩

/-! ### The flash's messages -/

theorem mgmtErase_begins {g : Byte} {a : Word} (ha : a.toNat % 65536 = 0) (ho : s.mg.flashOp = none) (hsize : a.toNat + 65536 ≤ s.mg.flashSize)
    (hp : protectedRange s a.toNat 65536 = false) : ∃ t, exec (.mgmtFlashErase c g 0 a) s = .next t ∧ t.mg.flashStat = 1 ∧
      t.mg.flashOp = some { erase := true, off := a.toNat, data := [], reply := some (c, 0x10, g.toNat, a) } ∧ partsOnly [.mg] s t := by
  have hexec := exec_mgmtFlashErase_serves hr he hf hn g 0 a
  rw [serveErase, if_neg (by decide), if_neg (by simp [ha]), flashRequest, if_neg (by simp [ho]), if_neg (Nat.not_lt.2 hsize), if_neg (by simp [hp])] at hexec
  exact ⟨_, hexec, rfl, rfl, partsOnly_mg _ s⟩

theorem mgmtProg_begins {g n : Byte} {a : Word} {d : Words} (hc : goodCount n = true) (hb : badRange a n.toNat = false) (ho : s.mg.flashOp = none)
    (hsize : a.toNat + 4 * n.toNat ≤ s.mg.flashSize) (hd : d.length = n.toNat) (hp : protectedRange s a.toNat (4 * n.toNat) = false) :
    ∃ t, exec (.mgmtFlashProg c g n a d) s = .next t ∧ t.mg.flashStat = 1 ∧
        t.mg.flashOp = some { erase := false, off := a.toNat, data := wordsBytes d, reply := some (c, 0x11, g.toNat, a) } ∧ partsOnly [.mg] s t := by
  have hexec := exec_mgmtFlashProg_serves hr he hf hn g n a d
  rw [serveProg, if_neg (by simp [hc]), if_neg (by simp [hb]), messageWords_exact hd, flashRequest, if_neg (by simp [ho]), if_neg (Nat.not_lt.2 hsize),
    if_neg (by simp [hp])] at hexec
  exact ⟨_, hexec, rfl, rfl, partsOnly_mg _ s⟩

theorem mgmtErase_busy {g : Byte} {a : Word} (ho : s.mg.flashOp.isSome = true) (ha : a.toNat % 65536 = 0) : ∃ t, exec (.mgmtFlashErase c g 0 a) s = .next t ∧
      t.sent = .mgmt c 0x90 g.toNat 3 0 a [] :: s.sent ∧ partsOnly [.sent, .fb] s t := by
  have hexec := exec_mgmtFlashErase_serves hr he hf hn g 0 a
  rw [serveErase, if_neg (by decide), if_neg (by simp [ha]), flashRequest, if_pos ho, startFlash, if_neg (show ¬ (3 : Nat) = 0 by decide)] at hexec
  exact ⟨_, hexec, sent_respond .., respond_parts⟩

theorem mgmtRead_answers {g n : Byte} {a : Word} (hc : goodCount n = true) (hb : badRange a n.toNat = false) (hsize : a.toNat + 4 * n.toNat ≤ s.mg.flashSize) :
    ∃ t, exec (.mgmtFlashRead c g n a) s = .next t ∧ partsOnly [.sent, .fb] s t ∧
        t.sent = .mgmt c 0x92 g.toNat 0 n.toNat a (bytesWords (flashBytes s a.toNat (4 * n.toNat))) :: s.sent := by
  have hexec := exec_mgmtFlashRead_serves hr he hf hn g n a
  rw [serveFlashRead, if_neg (by simp [hc]), if_neg (by simp [hb]), if_neg (Nat.not_lt.2 hsize)] at hexec
  refine ⟨_, hexec, respond_parts, ?_⟩
  rw [sent_respond, bytesWords_length n.toNat (by simp [flashBytes, memRead])]
  rfl

theorem reservedOp_answers {op g n : Byte} {a : Word} (h : requestForm op n = false) : ∃ t, exec (.mgmtReservedOp c op g ⟨n, a⟩) s = .next t ∧
      t.sent = .mgmt c (op.toNat ||| 0x80) g.toNat 2 0 a [] :: s.sent ∧ partsOnly [.sent, .fb] s t := by
  have hexec := exec_mgmtReservedOp_serves hr he hf hn op g n a
  rw [serveReserved, if_neg (by simp [h])] at hexec
  exact ⟨_, hexec, sent_respond .., respond_parts⟩

end

/-! ### The answer to a flash operation -/

theorem exec_flashOpComplete_answers {o : FlashOp} {c : Crown} {k g : Nat} {a : Word} {s : State} (ho : s.mg.flashOp = some o) (hreply : o.reply = some (c, k, g, a))
    (hr : tunReachable s c.val = true) (he : pathEnabled s (tunPath c.val) = true) (b : Bool) :
    exec (.flashOpComplete b) s = .next (serveQueue c.val (respond c k g (if b then 0 else 5) a [] (flashDone o b s))) := by
  have hdone : execFlashOpComplete b s = .next (answerFlash o b (flashDone o b s)) := by
    rw [execFlashOpComplete, ho]
    rfl
  have hreach : tunReachable (flashDone o b s) c.val = true := hr
  have henabled : pathEnabled (flashDone o b s) (tunPath c.val) = true := he
  have hanswer : answerFlash o b (flashDone o b s) = serveQueue c.val (respond c k g (if b then 0 else 5) a [] (flashDone o b s)) := by
    rw [answerFlash, hreply]
    dsimp only
    rw [if_neg (by simp [hreach, henabled])]
  rw [show exec (.flashOpComplete b) s = execFlashOpComplete b s from rfl, hdone, hanswer]

/-! ### Messages of a child (R70) -/

theorem sent_toChild {o : Out} {p b op n : Nat} {a : Word} {d : Words} {s : State} (h : o ∈ s.sent) : o ∈ (toChild p b op n a d s).sent := by
  have hsent : (toChild p b op n a d s).sent = .toChild p op (0xC0 + s.mg.tagNext % 64) n a d :: s.sent :=
    agentMessage_frame (κ := 4) (by decide) (.refl 4 _)
  rw [hsent]
  exact List.mem_cons_of_mem _ h

section
variable {p : CanPort} {b : Nat} {op g st n : Byte} {a : Word} {d : Words} {s : State} (hc : cascadeBase s p.val = some b) (ht : tunActive s (b + 1) = true)
include hc ht

theorem exec_cascadeMgmtResponse : exec (.cascadeMgmtResponse p op g st n a d) s =
    if op.toNat = 5 then .next (childAnswer p.val b op.toNat g.toNat st.toNat n.toNat a d (s.emit (.relay false op.toNat g.toNat st.toNat n.toNat a d)))
    else if g.toNat < 0xC0 then .next (s.emit (.relay false op.toNat g.toNat st.toNat n.toNat a d))
    else .next (childAnswer p.val b op.toNat g.toNat st.toNat n.toNat a d s) := by
  have hexec : exec (.cascadeMgmtResponse p op g st n a d) s = execCascadeMgmtResponse p op g st n a d s := rfl
  rw [execCascadeMgmtResponse, hc] at hexec
  dsimp only at hexec
  rw [if_neg (by simp [ht])] at hexec
  exact hexec

theorem childMessages :
    (op ≠ 5 → g.toNat < 0xC0 → exec (.cascadeMgmtResponse p op g st n a d) s =
      .next (s.emit (.relay false op.toNat g.toNat st.toNat n.toNat a d))) ∧
    (op ≠ 5 → 0xC0 ≤ g.toNat → op.toNat ≠ 0x81 ∨ st ≠ 0 → exec (.cascadeMgmtResponse p op g st n a d) s =
      .next (s.emit (.relay true op.toNat g.toNat st.toNat n.toNat a d))) ∧
    (op = 5 → ∃ t, exec (.cascadeMgmtResponse p op g st n a d) s = .next t ∧
      Out.relay false 5 g.toNat st.toNat n.toNat a d ∈ t.sent ∧ Out.relay true 5 g.toNat st.toNat n.toNat a d ∈ t.sent) := by
  have hexec := exec_cascadeMgmtResponse (op := op) (g := g) (st := st) (n := n) (a := a) (d := d) hc ht
  have hop {k : Nat} (hk : k < 256) : op.toNat = k ↔ op = BitVec.ofNat 8 k := by
    rw [BitVec.toNat_eq, BitVec.toNat_ofNat, Nat.mod_eq_of_lt hk]
  refine ⟨fun h5 hg => ?_, fun h5 hg hother => ?_, fun h5 => ?_⟩
  · rw [hexec, if_neg (fun h => h5 ((hop (by decide)).1 h)), if_pos hg]
  · have hne : op.toNat ≠ 5 := fun h => h5 ((hop (by decide)).1 h)
    rw [hexec, if_neg hne, if_neg (Nat.not_lt.2 hg), childAnswer, if_neg hne]
    split
    · rfl
    · rw [if_neg]
      rintro ⟨h81, h0, -⟩
      rcases hother with h | h
      · exact h h81
      · exact h (BitVec.eq_of_toNat_eq h0)
  · have h5n : op.toNat = 5 := (hop (by decide)).2 h5
    rw [if_pos h5n, h5n, childAnswer, if_pos rfl] at hexec
    exact ⟨_, hexec, sent_toChild (sent_toChild (.tail _ (.head _))), sent_toChild (sent_toChild (.head _))⟩

end

/-- Settles O47. -/
theorem managementMessagesAreAnswered : Obligations.ManagementMessagesAreAnswered := by
  unfold Obligations.ManagementMessagesAreAnswered
  refine ⟨fun c g n a w d s hr he hf hn => ⟨fun ha hne => ⟨read_answers hr he hf hn ha hne, write_answers hr he hf hn ha⟩, count_refused hr he hf hn,
      range_refused hr he hf hn, mgmtErase_begins hr he hf hn, mgmtProg_begins hr he hf hn, mgmtErase_busy hr he hf hn, mgmtRead_answers hr he hf hn,
      fun op => reservedOp_answers hr he hf hn⟩,
    fun b o c k g a s ho hreply hr he => ⟨_, exec_flashOpComplete_answers ho hreply hr he b, rfl, rfl, flashDone_parts o b s⟩,
    fun c g n a d s h => ?_, fun c g n a s hr he h hlen => ?_, fun p b op g st n a d s hc ht => childMessages hc ht⟩
  · have hdrop (m : Instr) : (.next (arrive c m s) : Host.Outcome State Fault Refusal) = .next s := congrArg _ (arrive_discards h m)
    exact ⟨hdrop _, hdrop _, hdrop _, hdrop _, hdrop _, fun op => hdrop _⟩
  · obtain ⟨hheld, hparts⟩ := holdMessage_effects hlen (.read c g n a)
    exact ⟨_, congrArg Host.Outcome.next (arrive_holds hr he h _), hheld, hparts⟩

end Sys2Proof.Machine
end

section
set_option Elab.async false
/-! Board transfers (R83, R84). -/

namespace Sys2Proof.Machine

open Sys2Proof Sys2Proof.Laws

/-! ### Words that P43 carries (R83, R84) -/

theorem p43Write_one {a : Nat} (ha : a < 2 ^ 32) (w : Word) (s : State) : p43Write a [w] s = pathWrite .p43 a w.toNat s := by
  show pathWrite .p43 (a % 2 ^ 32) w.toNat s = _
  rw [Nat.mod_eq_of_lt ha]

theorem p43Write_two {a : Nat} (ha : a < 2 ^ 32) (w x : Word) (s : State) :
    p43Write a [w, x] s = pathWrite .p43 ((a + 4) % 2 ^ 32) x.toNat (pathWrite .p43 a w.toNat s) := by
  show pathWrite .p43 ((a + 4) % 2 ^ 32) x.toNat (pathWrite .p43 (a % 2 ^ 32) w.toNat s) = _
  rw [Nat.mod_eq_of_lt ha]

theorem wordAddr_add_four (a : Word) : wordAddr (a + 4) = (wordAddr a + 4) % 2 ^ 32 := by
  have hlt := a.isLt
  have hsum : (a + 4).toNat = (a.toNat + 4) % 2 ^ 32 := rfl
  rw [wordAddr, wordAddr, hsum]
  omega

theorem bytesWords_two (w x : Word) : bytesWords (leBytes 4 w.toNat ++ leBytes 4 x.toNat) = [w, x] := by
  have hw := bytesWords_leBytes w
  have hx := bytesWords_leBytes x
  generalize leBytes 4 x.toNat = d at hx
  simp only [leBytes, bytesWords, List.cons_append, List.nil_append, List.cons.injEq, and_true] at hw ⊢
  exact ⟨hw, hx⟩

theorem bytesWords_short {d : Bytes} (h : d.length < 4) : bytesWords d = [] := by
  match d, h with
  | [], _ => rfl
  | [_], _ => rfl
  | [_, _], _ => rfl
  | [_, _, _], _ => rfl

theorem p43Read_one {a : Nat} {s : State} (hs : scopeOf s .p43 = .whole) (ha : a < 2 ^ 32) (hne : a ≠ 0x28) (hd : (decodeFor 0 a).isSome = true) :
    p43Read a 4 s = (leBytes 4 (peekWord .p43 a s), s) := by
  have hread : pathRead .p43 a (ceilDiv 4 4) s = (some [peekWord .p43 a s], s) := by
    rw [show ceilDiv 4 4 = 1 by decide, pathRead, hs]
    dsimp only
    rw [readWords_mapped (p := .p43) ha hne hd]
  unfold p43Read
  rw [hread]
  dsimp only
  rw [Option.getD_some, wordsBytes_asWords_one]
  rfl

/-! ### I2C (R83) -/

section
variable {v : BitVec 7} {s : State} (hv : i2cAnswers s v = true)
include hv

theorem exec_i2cWriteTransfer (a : Word) (d : Bytes) : exec (.i2cWriteTransfer ⟨v, a⟩ d) s = .next (p43Write (wordAddr a) (bytesWords d) s) :=
  congrArg Host.Outcome.next (if_pos hv)

theorem i2cWrites (a w x : Word) :
    (∃ t, exec (.i2cWriteTransfer ⟨v, a⟩ (leBytes 4 w.toNat)) s = .next t ∧ exec (.registerWrite .p43 a w) s = .next t) ∧
    (∃ u t, exec (.i2cWriteTransfer ⟨v, a⟩ (leBytes 4 w.toNat ++ leBytes 4 x.toNat)) s = .next t ∧ exec (.registerWrite .p43 a w) s = .next u ∧
      exec (.registerWrite .p43 (a + 4) x) u = .next t) ∧
    (∃ t, exec (.i2cSetReadAddress ⟨v, a⟩) s = .next t ∧ t.mg.i2cAddr = wordAddr a ∧ partsOnly [.mg] s t) := by
  have hone := exec_i2cWriteTransfer hv a (leBytes 4 w.toNat)
  have htwo := exec_i2cWriteTransfer hv a (leBytes 4 w.toNat ++ leBytes 4 x.toNat)
  rw [bytesWords_leBytes, p43Write_one (wordAddr_lt a)] at hone
  rw [bytesWords_two, p43Write_two (wordAddr_lt a), ← wordAddr_add_four] at htwo
  refine ⟨⟨_, hone, rfl⟩, ⟨_, _, htwo, rfl, rfl⟩, ?_⟩
  have hset : exec (.i2cSetReadAddress ⟨v, a⟩) s = .next { s with mg := { s.mg with i2cAddr := wordAddr a } } := congrArg Host.Outcome.next (if_pos hv)
  exact ⟨_, hset, rfl, partsOnly_mg _ s⟩

theorem i2cReads (hs : scopeOf s .p43 = .whole) (ha : s.mg.i2cAddr < 2 ^ 32) (hne : s.mg.i2cAddr ≠ 0x28) (hd : (decodeFor 0 s.mg.i2cAddr).isSome = true) :
    ∃ t, exec (.i2cReadTransfer ⟨v, 4⟩) s = .next t ∧
      t.sent = .readBytes .p43 (leBytes 4 (peekWord .p43 s.mg.i2cAddr s)) :: s.sent ∧ t.mg.i2cAddr = (s.mg.i2cAddr + 4) % 2 ^ 32 ∧
      partsOnly [.mg, .sent] s t := by
  have hexec : exec (.i2cReadTransfer ⟨v, 4⟩) s = execI2cReadTransfer ⟨v, 4⟩ s := rfl
  rw [execI2cReadTransfer, if_neg (by simp [hv]), p43Read_one hs ha hne hd] at hexec
  have hnext : (s.mg.i2cAddr + 4 / 4 * 4) % 2 ^ 32 = (s.mg.i2cAddr + 4) % 2 ^ 32 := by rw [show 4 / 4 * 4 = 4 by decide]
  refine ⟨_, hexec, rfl, hnext, ?_⟩
  exact ((partsOnly_mg _ s).mono (by simp)).trans ((partsOnly_emit _ _).mono (by simp))

theorem i2cRefuses {b : Byte} (h1 : b ≠ 1) (h2 : b ≠ 2) : ∃ t, exec (.i2cInvalidCommand ⟨v, b⟩) s = .next t ∧
    t.sent = .nack :: s.sent ∧ partsOnly [.sent] s t := by
  have hexec : exec (.i2cInvalidCommand ⟨v, b⟩) s = .next (s.emit .nack) := congrArg Host.Outcome.next (if_pos ⟨hv, h1, h2⟩)
  exact ⟨_, hexec, rfl, partsOnly_emit _ s⟩

end

/-- The target answers its own address alone. -/
theorem i2c_otherAddress {v : BitVec 7} {s : State} (h : v ≠ (if s.bt.asel then 0x3B else 0x3A)) (a : Word) (d : Bytes) (n : Nat) (b : Byte) :
    exec (.i2cWriteTransfer ⟨v, a⟩ d) s = .next s ∧ exec (.i2cSetReadAddress ⟨v, a⟩) s = .next s ∧ exec (.i2cReadTransfer ⟨v, n⟩) s = .next s ∧
      exec (.i2cInvalidCommand ⟨v, b⟩) s = .next s := by
  have hno : i2cAnswers s v = false := by rw [i2cAnswers, decide_eq_false h, Bool.and_false]
  have hneg : ¬ i2cAnswers s v = true := by simp [hno]
  have hread : exec (.i2cReadTransfer ⟨v, n⟩) s = execI2cReadTransfer ⟨v, n⟩ s := rfl
  rw [execI2cReadTransfer, if_pos (by simp [hno])] at hread
  exact ⟨congrArg Host.Outcome.next (if_neg hneg), congrArg Host.Outcome.next (if_neg hneg), hread,
    congrArg Host.Outcome.next (if_neg fun h => hneg h.1)⟩

theorem i2cWrite_short {d : Bytes} (h : d.length < 4) (v : BitVec 7) (a : Word) (s : State) : exec (.i2cWriteTransfer ⟨v, a⟩ d) s = .next s := by
  have hexec : exec (.i2cWriteTransfer ⟨v, a⟩ d) s = .next (if i2cAnswers s v then p43Write (wordAddr a) (bytesWords d) s else s) := rfl
  rw [hexec, bytesWords_short h]
  exact congrArg Host.Outcome.next (ite_self s)

/-! ### SPI (R84) -/

theorem peekWord_free (p : Path) (a : Nat) (s : State) : peekWord p a s.free.2 = peekWord p a s := rfl

theorem scopeOf_free (p : Path) (s : State) : scopeOf s.free.2 p = scopeOf s p := rfl

theorem partsOnly_free (s : State) : partsOnly [.freeCtr] s s.free.2 := by
  intro q hq
  cases q
  case freeCtr => simp at hq
  all_goals rfl

section
variable {s : State} (hv : spiAnswers s = true)
include hv

theorem spiWrites (a w : Word) : ∃ t, exec (.spiWriteFrame a (leBytes 4 w.toNat)) s = .next t ∧ exec (.registerWrite .p43 a w) s = .next t := by
  have hexec : exec (.spiWriteFrame a (leBytes 4 w.toNat)) s = .next (p43Write (wordAddr a) (bytesWords (leBytes 4 w.toNat)) s) :=
    congrArg Host.Outcome.next (if_pos hv)
  rw [bytesWords_leBytes, p43Write_one (wordAddr_lt a)] at hexec
  exact ⟨_, hexec, rfl⟩

theorem spiReads {a : Word} (hs : scopeOf s .p43 = .whole) (hne : wordAddr a ≠ 0x28) (hd : (decodeFor 0 (wordAddr a)).isSome = true) :
    ∃ t l, exec (.spiReadFrame a 4) s = .next t ∧ l.length = 4 ∧
      t.sent = .readBytes .p43 (l ++ leBytes 4 (peekWord .p43 (wordAddr a) s)) :: s.sent ∧ partsOnly [.freeCtr, .sent] s t := by
  have hread := p43Read_one (s := s.free.2) ((scopeOf_free .p43 s).trans hs) (wordAddr_lt a) hne hd
  rw [peekWord_free] at hread
  have hexec : exec (.spiReadFrame a 4) s = if !spiAnswers s then .next s
      else .next ((p43Read (wordAddr a) 4 s.free.2).2.emit (.readBytes .p43 (leBytes 4 s.free.1 ++ (p43Read (wordAddr a) 4 s.free.2).1))) := rfl
  rw [if_neg (by simp [hv]), hread] at hexec
  refine ⟨_, leBytes 4 s.free.1, hexec, leBytes_length 4 _, rfl, ?_⟩
  exact ((partsOnly_free s).mono (by simp)).trans ((partsOnly_emit _ _).mono (by simp))

theorem spiRefuses {b : Byte} (h1 : b ≠ 2) (h2 : b ≠ 0x0B) (n : Nat) : ∃ t, exec (.spiInvalidCommand b n) s = .next t ∧
    t.sent = .readBytes .p43 (List.replicate n 0xFF) :: s.sent ∧ partsOnly [.sent] s t := by
  have hexec : exec (.spiInvalidCommand b n) s = .next (s.emit (.readBytes .p43 (List.replicate n 0xFF))) := congrArg Host.Outcome.next (if_pos ⟨hv, h1, h2⟩)
  exact ⟨_, hexec, rfl, partsOnly_emit _ s⟩

end

/-- Settles O48. -/
theorem boardTransfersReachRegisters : Obligations.BoardTransfersReachRegisters := by
  unfold Obligations.BoardTransfersReachRegisters
  exact ⟨fun v a w x s hv => i2cWrites hv a w x, fun v a d n b s h => i2c_otherAddress h a d n b, fun v a d s h => i2cWrite_short h v a s,
    fun v s hv hs ha hne hd => i2cReads hv hs ha hne hd, fun v b s hv h1 h2 => i2cRefuses hv h1 h2, fun a w s hv => spiWrites hv a w,
    fun a s hv hs hne hd => spiReads hv hs hne hd, fun b n s hv h1 h2 => spiRefuses hv h1 h2 n⟩

end Sys2Proof.Machine
end

section
set_option Elab.async false
/-! The segments of a port's link: admitted, counted or discarded. -/

namespace Sys2Proof.Machine

open Sys2Proof Sys2Proof.Laws

/-! ### What a segment's arrival leaves of the tunnel table (R21, R104, R265) -/

/-- A field of the tunnel table that is no leaf's. -/
def tableField (f : Fld) : Prop := 0x2000000 ≤ f.key ∧ ¬ leafKey f.key

theorem table_fields (n : Nat) : ∀ f ∈ [TT_STATE_STATE n, TT_STATE_GEN n, TT_STATE_KIND n, TT_STATE_CASC n, TT_STATE_CLS n, TT_STATE_DIR n, TT_ENDP_INPORT n, TT_DISC_GENDIS n],
    tableField f := by
  simp only [List.forall_mem_cons, List.not_mem_nil, false_implies, implies_true, and_true, tableField, leafKey, TT_STATE_STATE, TT_STATE_GEN, TT_STATE_KIND, TT_STATE_CASC,
    TT_STATE_CLS, TT_STATE_DIR, TT_ENDP_INPORT, TT_DISC_GENDIS, fld]
  omega

theorem keeps_of_table {f : Fld} (hf : tableField f) {K : Nat → Prop} {s t : State} (h : onlyKeys K s t) (hK : ∀ k, 0x2000000 ≤ k → ¬ leafKey k → ¬ K k) : keeps f s t :=
  h.1 f (hK _ hf.1 hf.2)

theorem keeps_wakeLink {f : Fld} (hf : tableField f) (p : Nat) (s : State) : keeps f s (wakeLink p s) := by
  refine .ite ((keeps.refl f s).wr_of (fun e => ?_) 2) (.refl f s)
  have := portPlace_lt p
  have := portGrove_lt p
  have := hf.1
  rw [e] at this
  simp only [ADP_STAT_STATE, portReg, fld] at this
  omega

theorem groupCells_lt {s : State} {p c : Nat} (hp : p < 20) (hc : c ∈ groupCells s p) : c < 320 := by
  have hown {d : Nat} (hd : d ∈ portCells p) : d < 320 := Nat.lt_trans (List.mem_range.1 (List.mem_filter.1 hd).1) (by decide)
  unfold groupCells at hc
  split at hc
  · exact hown hc
  · split at hc
    · exact hown hc
    · next r _ =>
      split at hc
      · simp at hc
      · obtain ⟨k, hk, rfl⟩ := List.mem_map.1 hc
        have hbyte : byteAt r 3 < 256 := (r.getD 3 0).isLt
        have := List.mem_range.1 hk
        omega

/-- A cell's hold buffer with one unit more, its occupancy shown. -/
def unitHeld (c : Nat) (y : Lane) (s : State) : State :=
  let t := (s.setLane c y).wr (LC_HOLD_USED c) (holdKib y)
  if t.rd (LC_HOLD_PEAK c) < holdKib y then t.wr (LC_HOLD_PEAK c) (holdKib y) else t

/-- A hold buffer that is full stops inflow. -/
def inflowStopped (c : Nat) (y : Lane) (t : State) : State := raise (32 + c) 6 ((t.setLane c { y with stopped := true }).inc (LC_HOLD_STOPS c))

theorem holdUnit_cases (p n : Nat) (s : State) : holdUnit p n s = s ∨
    ∃ c ∈ groupCells s p, ∃ y, holdUnit p n s = unitHeld c y s ∨ holdUnit p n s = inflowStopped c y (unitHeld c y s) := by
  unfold holdUnit
  split
  · exact .inl rfl
  · next c hfind =>
    refine .inr ⟨c, List.mem_of_find?_eq_some hfind,
      { s.lane c with hold := (s.lane c).hold ++ [{ number := (s.lane c).arrivals, bytes := n, captured := false }], arrivals := (s.lane c).arrivals + 1 }, ?_⟩
    dsimp only
    split
    · exact .inr rfl
    · exact .inl rfl

theorem keeps_unitHeld {f : Fld} {c : Nat} (hu : f.key ≠ (LC_HOLD_USED c).key) (hp : f.key ≠ (LC_HOLD_PEAK c).key) (y : Lane) (s : State) :
    keeps f s (unitHeld c y s) := by
  have hset : keeps f s (s.setLane c y) := .of_regs (.refl f s) rfl
  unfold unitHeld
  dsimp only
  exact .ite ((hset.wr_of hu _).wr_of hp _) (hset.wr_of hu _)

theorem keeps_holdUnit {f : Fld} (hf : tableField f) {p : Nat} (hp : p < 20) (n : Nat) (s : State) : keeps f s (holdUnit p n s) := by
  obtain ⟨hlo, hleaf⟩ := hf
  rcases holdUnit_cases p n s with h | ⟨c, hmem, y, h⟩
  · rw [h]
    exact .refl f s
  · have hc := groupCells_lt hp hmem
    have hfields : f.key ≠ (LC_HOLD_USED c).key ∧ f.key ≠ (LC_HOLD_PEAK c).key ∧ f.key ≠ (LC_HOLD_STOPS c).key := by
      simp only [LC_HOLD_USED, LC_HOLD_PEAK, LC_HOLD_STOPS, fld]
      omega
    obtain ⟨hused, hpeak, hstops⟩ := hfields
    have hheld := keeps_unitHeld hused hpeak y s
    generalize unitHeld c y s = t at h hheld
    rcases h with h | h
    · rwa [h]
    · rw [h]
      have hset : keeps f t (t.setLane c { y with stopped := true }) := .of_regs (.refl f t) rfl
      exact hheld.trans ((hset.wr_of hstops _).raise_of hleaf _ _)

/-! ### Admission (R21, R104) -/

theorem ingressQ_of_fb {s t : State} (h : t.fb = s.fb) (n : Nat) : t.ingressQ n = s.ingressQ n := by rw [State.ingressQ, h, State.ingressQ]

/-- The tokens of a mark leave the ingress stores. -/
theorem ingress_meter (n len pre : Nat) (s : State) : (meter n len pre s).2.fb.ingress = s.fb.ingress := by
  unfold meter
  dsimp only
  generalize (if s.on (TT_METER_CAWARE n) = true then pre else 0) = c
  split
  · rfl
  · split
    · rfl
    · rfl

/-- The segment joins the store behind what was there. -/
def joins (n : Nat) (g : Seg) (s t : State) : Prop := ∃ e : Seg, t.ingressQ n = s.ingressQ n ++ [e] ∧ e.tun = n ∧ e.payload = g.payload ∧ e.first = g.first ∧ e.last = g.last

theorem joins.of_ingress {n : Nat} {g : Seg} {s t u : State} (h : joins n g s t) (hu : u.fb.ingress = t.fb.ingress) : joins n g s u := by
  obtain ⟨e, hq, he⟩ := h
  have hsame : u.ingressQ n = t.ingressQ n := by rw [State.ingressQ, hu, State.ingressQ]
  exact ⟨e, hsame.trans hq, he⟩

theorem admitSeg_joins (n pre : Nat) (g : Seg) (s : State) : joins n g s (admitSeg n pre g s) := by
  have hmark : (if isBulk s n && !s.on (TT_STATE_CASC n) then meter n g.payload.length pre s
      else (if s.on (TT_STATE_CASC n) then g.col else 0, s)).2.fb.ingress = s.fb.ingress := by
    split
    · exact ingress_meter ..
    · rfl
  unfold admitSeg
  dsimp only
  generalize (if isBulk s n && !s.on (TT_STATE_CASC n) then meter n g.payload.length pre s else (if s.on (TT_STATE_CASC n) then g.col else 0, s)) = r at hmark ⊢
  have hq : r.2.ingressQ n = s.ingressQ n := by rw [State.ingressQ, hmark, State.ingressQ]
  rw [joins, ← hq]
  refine ⟨_, State.ingressQ_setIngress_same .., ?_⟩
  exact ⟨rfl, rfl, rfl, rfl⟩

theorem admits_congr {s t : State} {p n : Nat} (hfields : ∀ f, tableField f → keeps f s t) (hfb : t.fb = s.fb) (hpw : t.pw = s.pw) (h : admits s p n) : admits t p n := by
  obtain ⟨hactive, hin, hplace, hstop⟩ := h
  have hkeep {f : Fld} (hf : f ∈ [TT_STATE_STATE n, TT_STATE_GEN n, TT_STATE_KIND n, TT_STATE_CASC n, TT_STATE_CLS n, TT_STATE_DIR n, TT_ENDP_INPORT n, TT_DISC_GENDIS n]) :=
    (hfields f (table_fields n f hf)).rd
  refine ⟨?_, (hkeep (by simp)).trans hin, ?_, ?_⟩
  · rw [tunActive, hkeep (by simp)]
    exact hactive
  · rw [placeFree, ingressQ_of_fb hfb, State.flow, hfb]
    exact hplace
  · rw [hpw]
    exact hstop

theorem fb_wakeLink (p : Nat) (s : State) : (wakeLink p s).fb = s.fb := wakeLink_frame (κ := 10) rfl (.refl 10 s)
theorem pw_wakeLink (p : Nat) (s : State) : (wakeLink p s).pw = s.pw := wakeLink_frame (κ := 25) rfl (.refl 25 s)
theorem fb_holdUnit (p n : Nat) (s : State) : (holdUnit p n s).fb = s.fb := holdUnit_frame (κ := 10) rfl (.refl 10 s)
theorem pw_holdUnit (p n : Nat) (s : State) : (holdUnit p n s).pw = s.pw := holdUnit_frame (κ := 25) rfl (.refl 25 s)

theorem gen_field (n : Nat) : tableField (TT_STATE_GEN n) := table_fields n _ (by simp)

/-- A segment of an established tunnel joins its ingress store. -/
theorem ingressSeg_joins {p n : Nat} {g : Seg} {s : State} (ha : admits s p n) (hg : g.gen = s.rd (TT_STATE_GEN n)) (pre : Nat) : joins n g s (ingressSeg p n pre g s) := by
  obtain ⟨hactive, hin, hplace, hstop⟩ := admits_congr (fun f hf => keeps_wakeLink hf p s) (fb_wakeLink p s) (pw_wakeLink p s) ha
  have hgen := (keeps_wakeLink (gen_field n) p s).rd
  have hq := ingressQ_of_fb (fb_wakeLink p s) n
  unfold ingressSeg
  dsimp only
  generalize wakeLink p s = t at hactive hin hplace hstop hgen hq
  rw [if_neg (by simp [hstop]), if_neg (by simp [hactive, hin, hg, hgen]), if_neg (by simp [hplace])]
  obtain ⟨e, he, hrest⟩ := admitSeg_joins n pre g t
  exact ⟨e, by rw [he, hq], hrest⟩

/-- A segment of another GEN, tunnel or port is discarded and counted. -/
theorem ingressSeg_discards {p n : Nat} {g : Seg} {s : State} (hstop : s.pw.stopped = false)
    (h : tunActive s n = false ∨ g.gen ≠ s.rd (TT_STATE_GEN n) ∨ inPortOf s n ≠ p) (pre : Nat) :
    (ingressSeg p n pre g s).fb = s.fb ∧ (ingressSeg p n pre g s).rd (TT_DISC_GENDIS n) = satInc (2 ^ (TT_DISC_GENDIS n).w - 1) (s.rd (TT_DISC_GENDIS n)) := by
  have hkeep {f : Fld} (hf : f ∈ [TT_STATE_STATE n, TT_STATE_GEN n, TT_STATE_KIND n, TT_STATE_CASC n, TT_STATE_CLS n, TT_STATE_DIR n, TT_ENDP_INPORT n, TT_DISC_GENDIS n]) :=
    (keeps_wakeLink (table_fields n f hf) p s).rd
  have hfb := fb_wakeLink p s
  have hpw := pw_wakeLink p s
  have hst := hkeep (f := TT_STATE_STATE n) (by simp)
  have hgen := hkeep (f := TT_STATE_GEN n) (by simp)
  have hport := hkeep (f := TT_ENDP_INPORT n) (by simp)
  have hdis := hkeep (f := TT_DISC_GENDIS n) (by simp)
  unfold ingressSeg
  dsimp only
  generalize wakeLink p s = t at hfb hpw hst hgen hport hdis
  have hcond : (!tunActive t n || decide (g.gen ≠ t.rd (TT_STATE_GEN n)) || decide (inPortOf t n ≠ p)) = true := by
    rw [tunActive, hst, ← tunActive, hgen, inPortOf, hport, ← inPortOf]
    rcases h with h | h | h
    · simp [h]
    · simp [h]
    · simp [h]
  rw [if_neg (by rw [hpw]; simp [hstop]), if_pos hcond, genDiscard, ← hdis]
  exact ⟨hfb, rd_inc_eq_satInc (TT_DISC_GENDIS n) t⟩

theorem fb_pauseOut (p quanta : Nat) (ks : List Nat) (s : State) : (pauseOut p quanta ks s).fb = s.fb := pauseOut_frame (κ := 10) rfl (.refl 10 s)

theorem fb_notes (l : List Nat) (o : Nat → State → Out) (s : State) : (forAll l (fun k u => u.emit (o k u)) s).fb = s.fb :=
  forAll_frame (k := 10) (fun _ _ h => h) (.refl 10 s)

/-- Pause frames leave the segments where they are. -/
theorem ingress_updatePause (p : Nat) (s : State) : (updatePause p s).fb.ingress = s.fb.ingress := by
  unfold updatePause
  dsimp only
  split
  · rfl
  · generalize hy : State.setEg _ _ _ = t
    have ht : t.fb.ingress = s.fb.ingress := by rw [← hy]; rfl
    rw [fb_notes _ fun k u => .note (creditForm u p ++ " restored") [p, k - 16], fb_notes _ fun k u => .note (creditForm u p ++ " withheld") [p, k - 16],
      fb_pauseOut, fb_pauseOut, ht]

theorem regs_updatePause (p : Nat) (s : State) : (updatePause p s).regs = s.regs := updatePause_frame (κ := 1) rfl (.refl 1 s)

/-! ### A unit of a Canopy link, in order (R224, R226, R228, R237) -/

/-- The fields and parts that a received unit leaves: all but the epoch of its link and the link's own state. -/
theorem keeps_receiveUnit {f : Fld} {p : Nat} (hf : f.key ≠ (CAN_STAT_RXEP p).key) (h : BitVec 64) (b : Bytes) (s : State) : keeps f s (receiveUnit p h b s).2 := by
  have hswitch : keeps f s (switchRx p s) := by
    unfold switchRx
    dsimp only
    split
    · exact .refl f s
    · refine .ite ?_ (.refl f s)
      exact (keeps.of_regs (.refl f s) rfl : keeps f s (s.setCan p _)).wr_of hf _
  exact hswitch.of_regs rfl

theorem parts_receiveUnit (p : Nat) (h : BitVec 64) (b : Bytes) (s : State) : partsOnly [.regs, .cn] s (receiveUnit p h b s).2 :=
  partsOnly_of_frames (fun _ hk => receiveUnit_frame hk (.refl _ s)) rfl

theorem variant_ne_rxep (p : Nat) : ∀ f ∈ [SYS_STAGE_FUSEFLT, FUSE_VAR_V], f.key ≠ (CAN_STAT_RXEP p).key := by
  simp only [List.forall_mem_cons, List.not_mem_nil, false_implies, implies_true, and_true, SYS_STAGE_FUSEFLT, FUSE_VAR_V, CAN_STAT_RXEP, portReg, fld]
  omega

theorem tableField_ne_rxep {f : Fld} (hf : tableField f) (p : Nat) : f.key ≠ (CAN_STAT_RXEP p).key := by
  have := hf.1
  have := portPlace_lt p
  have := portGrove_lt p
  simp only [CAN_STAT_RXEP, portReg, fld]
  omega

theorem cascadeBase_congr {s t : State} {p : Nat} (hst : t.rd (CAN_STAT_STATE p) = s.rd (CAN_STAT_STATE p)) (hld : t.ld = s.ld) (hv : variant t = variant s) :
    cascadeBase t p = cascadeBase s p := by
  rw [cascadeBase, canActive, hst, ← canActive, homes, hld, hv, ← homes, cascadeBase]

theorem governs_fields (n : Nat) : ∀ f ∈ [TT_STATE_KIND (entryOf n), TT_STATE_CASC (entryOf n), TT_STATE_CLS (entryOf n), TT_STATE_DIR (entryOf n)], tableField f :=
  fun f hf => table_fields (entryOf n) f (by simp only [List.mem_cons] at hf ⊢; tauto)

theorem creditGoverned_congr {s t : State} (h : ∀ f, tableField f → keeps f s t) (n : Nat) : creditGoverned t n = creditGoverned s n := by
  have hkeep {f : Fld} (hf : f ∈ [TT_STATE_KIND (entryOf n), TT_STATE_CASC (entryOf n), TT_STATE_CLS (entryOf n), TT_STATE_DIR (entryOf n)]) := (h f (governs_fields n f hf)).rd
  simp only [creditGoverned, State.on, hkeep (f := TT_STATE_KIND (entryOf n)) (by simp), hkeep (f := TT_STATE_CASC (entryOf n)) (by simp),
    hkeep (f := TT_STATE_CLS (entryOf n)) (by simp), hkeep (f := TT_STATE_DIR (entryOf n)) (by simp)]

theorem beyondCredit_congr {s t : State} (h : ∀ f, tableField f → keeps f s t) (hcr : t.cr = s.cr) (n : Nat) : beyondCredit t n = beyondCredit s n := by
  rw [beyondCredit, creditGoverned_congr h, State.credit, hcr, beyondCredit, State.credit]

/-- A unit of a stream, counted against the credit that the partner has been given. -/
def unitCounted (n : Nat) (t : State) : State :=
  if creditGoverned t n then t.setCredit n { t.credit n with received := ((t.credit n).received + 1) % 65536 } else t

theorem keeps_unitCounted (f : Fld) (n : Nat) (t : State) : keeps f t (unitCounted n t) := .ite (.of_regs (.refl f t) rfl) (.refl f t)

theorem parts_unitCounted (n : Nat) (t : State) : partsOnly [.cr] t (unitCounted n t) := by
  unfold unitCounted
  split
  · exact partsOnly_of_parts fun _ hk => State_setCredit_frame hk (.refl _ t)
  · exact .refl _ _

/-- A unit within its grant, its credit and its home block is admitted, and its credit is brought up to date. -/
theorem canopySegment_admits {p : Nat} {hdr : BitVec 64} {payload : Bytes} {g : Seg} {s u : State} (hhome : outsideHome s p g.tun = false)
    (hgrant : beyondGrant s (rewriteIn s p g.tun) g.line = false) (hu : (receiveUnit p hdr payload s).2 = u) (hcredit : beyondCredit u (rewriteIn s p g.tun) = false)
    (hbase : cascadeBase (unitCounted (rewriteIn s p g.tun) u) p ≠ some (rewriteIn s p g.tun - 1)) :
    canopySegment p hdr payload g s = creditUpdate (rewriteIn s p g.tun) (ingressSeg p (rewriteIn s p g.tun) g.col
      { g with payload := (receiveUnit p hdr payload s).1.take g.payload.length } (unitCounted (rewriteIn s p g.tun) u)) := by
  unfold canopySegment
  generalize receiveUnit p hdr payload s = r at hu ⊢
  obtain ⟨plain, t⟩ := r
  subst hu
  generalize rewriteIn s p g.tun = n at *
  have hcounted : unitCounted n t = if creditGoverned t n then t.setCredit n { t.credit n with received := ((t.credit n).received + 1) % 65536 } else t := rfl
  dsimp only at hcredit hbase ⊢
  rw [if_neg (by simp [hhome]), if_neg (by simp [hgrant]), if_neg (by simp [hcredit]), ← hcounted, if_neg hbase]
  rfl

/-! ### Segments on a port's link (R21, R104, R226, R229) -/

theorem exec_segmentIngress {p : Port} {h : BitVec 64} {b : Bytes} {s t : State} (ht : segmentArrives p.val h b s = t) :
    exec (.segmentIngress p h b) s = .next (agentWork t) := by
  have hexec : exec (.segmentIngress p h b) s = .next (agentWork (segmentArrives p.val h b s)) := rfl
  rw [hexec, ht]

theorem noCanopyLink {p : Nat} {s : State} (hp : 8 ≤ p ∨ canActive s p = false) : ¬ (p < 8 ∧ canActive s p = true) := by
  rintro ⟨hlt, hact⟩
  rcases hp with hp | hp
  · omega
  · simp [hact] at hp

/-- A unit that the port holds, where it holds any. -/
def unitKept (p n : Nat) (s : State) : State := if holdsUnits s p then holdUnit p n s else s

theorem segmentArrives_bad {p : Nat} {h : BitVec 64} {b : Bytes} {s : State} (hf : fencedPort s p = false) (hp : 8 ≤ p ∨ canActive s p = false)
    (hg : parseSeg h b = none) : segmentArrives p h b s = rxBad p s := by
  rw [segmentArrives, if_neg (ne_true_of_eq_false hf), if_neg (noCanopyLink hp), hg]

theorem segmentArrives_good {p : Nat} {h : BitVec 64} {b : Bytes} {g : Seg} {s : State} (hf : fencedPort s p = false) (hp : 8 ≤ p ∨ canActive s p = false)
    (hg : parseSeg h b = some g) : segmentArrives p h b s = updatePause p (ingressSeg p g.tun 0 g (unitKept p b.length s)) := by
  rw [segmentArrives, if_neg (ne_true_of_eq_false hf), if_neg (noCanopyLink hp), hg, unitKept]

theorem segmentArrives_linkError {p : Nat} {h : BitVec 64} {b : Bytes} {s : State} (hf : fencedPort s p = false) (hp : p < 8) (ha : canActive s p = true)
    (hd : (s.can p).discarding = false) (hg : parseSeg h b = none) : segmentArrives p h b s = linkError p s := by
  rw [segmentArrives, if_neg (ne_true_of_eq_false hf), if_pos ⟨hp, ha⟩, if_neg (ne_true_of_eq_false hd), hg]

theorem segmentArrives_unit {p : Nat} {h : BitVec 64} {b : Bytes} {g : Seg} {s : State} (hf : fencedPort s p = false) (hp : p < 8) (ha : canActive s p = true)
    (hd : (s.can p).discarding = false) (hg : parseSeg h b = some g) : segmentArrives p h b s = canopySegment p h b g s := by
  rw [segmentArrives, if_neg (ne_true_of_eq_false hf), if_pos ⟨hp, ha⟩, if_neg (ne_true_of_eq_false hd), hg]

theorem parts_updatePause (p : Nat) (s : State) : partsOnly [.sent, .fb] s (updatePause p s) := partsOnly_of_frames (fun _ hk => updatePause_frame hk (.refl _ s)) rfl
theorem parts_ingressSeg (p n pre : Nat) (g : Seg) (s : State) : partsOnly [.regs, .fb] s (ingressSeg p n pre g s) :=
  partsOnly_of_frames (fun _ hk => ingressSeg_frame hk (.refl _ s)) rfl
theorem parts_holdUnit (p n : Nat) (s : State) : partsOnly [.regs, .mg, .lc] s (holdUnit p n s) := partsOnly_of_frames (fun _ hk => holdUnit_frame hk (.refl _ s)) rfl
theorem parts_creditUpdate (n : Nat) (s : State) : partsOnly [.sent, .cr] s (creditUpdate n s) := partsOnly_of_frames (fun _ hk => creditUpdate_frame hk (.refl _ s)) rfl

theorem unitKept_effects (p : Port) (n : Nat) (s : State) : (∀ f, tableField f → keeps f s (unitKept p.val n s)) ∧ (unitKept p.val n s).fb = s.fb ∧
    (unitKept p.val n s).pw = s.pw ∧ partsOnly [.regs, .mg, .lc] s (unitKept p.val n s) := by
  unfold unitKept
  split
  · exact ⟨fun f hf => keeps_holdUnit hf p.isLt n s, fb_holdUnit p.val n s, pw_holdUnit p.val n s, parts_holdUnit p.val n s⟩
  · exact ⟨fun f _ => .refl f s, rfl, rfl, .refl _ s⟩

theorem segment_joins (p : Port) {h : BitVec 64} {b : Bytes} {g : Seg} {s : State} (hf : fencedPort s p.val = false) (hp : 8 ≤ p.val ∨ canActive s p.val = false)
    (hg : parseSeg h b = some g) (ha : admits s p.val g.tun) (hgen : g.gen = s.rd (TT_STATE_GEN g.tun)) :
    ∃ u e, exec (.segmentIngress p h b) s = .next (agentWork u) ∧ u.ingressQ g.tun = s.ingressQ g.tun ++ [e] ∧ e.payload = g.payload ∧
      e.first = g.first ∧ e.last = g.last ∧ partsOnly [.regs, .sent, .mg, .fb, .lc] s u := by
  have harr := segmentArrives_good hf hp hg
  obtain ⟨hkeep, hfb, hpw, hparts⟩ := unitKept_effects p b.length s
  have hjoin := ingressSeg_joins (admits_congr hkeep hfb hpw ha) (hgen.trans (hkeep _ (gen_field g.tun)).rd.symm) 0
  have hingress := parts_ingressSeg p.val g.tun 0 g (unitKept p.val b.length s)
  obtain ⟨e, hq, -, hpay, hfirst, hlast⟩ := hjoin.of_ingress (ingress_updatePause p.val _)
  rw [ingressQ_of_fb hfb] at hq
  refine ⟨_, e, exec_segmentIngress harr, hq, hpay, hfirst, hlast, ?_⟩
  have hpause := parts_updatePause p.val (ingressSeg p.val g.tun 0 g (unitKept p.val b.length s))
  exact ((hparts.mono (by decide)).trans (hingress.mono (by decide))).trans (hpause.mono (by decide))

theorem segment_discarded (p : Port) {h : BitVec 64} {b : Bytes} {g : Seg} {s : State} (hf : fencedPort s p.val = false) (hg : parseSeg h b = some g)
    (hp : 8 ≤ p.val ∨ canActive s p.val = false) (hstop : s.pw.stopped = false)
    (hdis : tunActive s g.tun = false ∨ g.gen ≠ s.rd (TT_STATE_GEN g.tun) ∨ inPortOf s g.tun ≠ p.val) :
    ∃ u, exec (.segmentIngress p h b) s = .next (agentWork u) ∧ u.fb.ingress = s.fb.ingress ∧
      u.rd (TT_DISC_GENDIS g.tun) = satInc (2 ^ (TT_DISC_GENDIS g.tun).w - 1) (s.rd (TT_DISC_GENDIS g.tun)) := by
  have harr := segmentArrives_good hf hp hg
  obtain ⟨hkeep, hfb, hpw, -⟩ := unitKept_effects p b.length s
  have hfield {f : Fld} (hf : f ∈ [TT_STATE_STATE g.tun, TT_STATE_GEN g.tun, TT_STATE_KIND g.tun, TT_STATE_CASC g.tun, TT_STATE_CLS g.tun, TT_STATE_DIR g.tun,
      TT_ENDP_INPORT g.tun, TT_DISC_GENDIS g.tun]) := (hkeep f (table_fields g.tun f hf)).rd
  have hdis' : tunActive (unitKept p.val b.length s) g.tun = false ∨ g.gen ≠ (unitKept p.val b.length s).rd (TT_STATE_GEN g.tun) ∨
      inPortOf (unitKept p.val b.length s) g.tun ≠ p.val := by
    rwa [tunActive, hfield (by simp), ← tunActive, hfield (by simp), inPortOf, hfield (by simp), ← inPortOf]
  obtain ⟨hsame, hcount⟩ := ingressSeg_discards (by rw [hpw]; exact hstop) hdis' 0
  refine ⟨_, exec_segmentIngress harr, ?_, ?_⟩
  · exact (ingress_updatePause p.val _).trans ((congrArg Fab.ingress hsame).trans (congrArg Fab.ingress hfb))
  · rw [State.rd, regs_updatePause, ← State.rd]
    exact hcount.trans (by rw [hfield (by simp)])

theorem canopy_unit_joins (p : CanPort) {h : BitVec 64} {b : Bytes} {g : Seg} {n : Nat} {s : State} (hf : fencedPort s p.val = false) (hact : canActive s p.val = true)
    (hd : (s.can p.val).discarding = false) (hg : parseSeg h b = some g) (hn : n = rewriteIn s p.val g.tun) (hhome : outsideHome s p.val g.tun = false)
    (hgrant : beyondGrant s n g.line = false) (hcredit : beyondCredit s n = false) (hbase : cascadeBase s p.val ≠ some (n - 1)) (ha : admits s p.val n)
    (hgen : g.gen = s.rd (TT_STATE_GEN n)) :
    ∃ u e, exec (.segmentIngress ⟨p.val, by omega⟩ h b) s = .next (agentWork u) ∧ u.ingressQ n = s.ingressQ n ++ [e] ∧
      e.payload = (receiveUnit p.val h b s).1.take g.payload.length ∧ e.first = g.first ∧ e.last = g.last ∧ partsOnly [.regs, .sent, .fb, .cr, .cn] s u := by
  have hp := p.isLt
  have hreceived {f : Fld} (hf : f.key ≠ (CAN_STAT_RXEP p.val).key) := keeps_receiveUnit hf h b s
  have hparts := parts_receiveUnit p.val h b s
  have hfb : (receiveUnit p.val h b s).2.fb = s.fb := receiveUnit_frame (κ := 10) rfl (.refl 10 s)
  have hpw : (receiveUnit p.val h b s).2.pw = s.pw := receiveUnit_frame (κ := 25) rfl (.refl 25 s)
  have hld : (receiveUnit p.val h b s).2.ld = s.ld := receiveUnit_frame (κ := 8) rfl (.refl 8 s)
  have hcr : (receiveUnit p.val h b s).2.cr = s.cr := receiveUnit_frame (κ := 12) rfl (.refl 12 s)
  have harr := segmentArrives_unit hf hp hact hd hg
  generalize ht : (receiveUnit p.val h b s).2 = t at hreceived hparts hfb hpw hld hcr
  have hcounted := parts_unitCounted n t
  have htable (f : Fld) (hf : tableField f) : keeps f s (unitCounted n t) := (hreceived (tableField_ne_rxep hf p.val)).trans (keeps_unitCounted f n t)
  have hcfb : (unitCounted n t).fb = s.fb := (hcounted .fb (by decide)).trans hfb
  have hcpw : (unitCounted n t).pw = s.pw := (hcounted .pw (by decide)).trans hpw
  have hcld : (unitCounted n t).ld = s.ld := (hcounted .ld (by decide)).trans hld
  have hstate {f : Fld} (hf : f.key ≠ (CAN_STAT_RXEP p.val).key) : (unitCounted n t).rd f = s.rd f := ((hreceived hf).trans (keeps_unitCounted f n t)).rd
  have hvar : variant (unitCounted n t) = variant s := variant_congr fun f hf => hstate (variant_ne_rxep p.val f hf)
  have hbase' : cascadeBase (unitCounted n t) p.val ≠ some (n - 1) := by
    rwa [cascadeBase_congr (hstate (by simp [CAN_STAT_STATE, CAN_STAT_RXEP, fld])) hcld hvar]
  have hcredit' : beyondCredit t n = false := by rwa [beyondCredit_congr (fun f hf => hreceived (tableField_ne_rxep hf p.val)) hcr]
  subst hn
  have hadm := canopySegment_admits hhome hgrant ht hcredit' hbase'
  have hjoin := ingressSeg_joins (g := { g with payload := (receiveUnit p.val h b s).1.take g.payload.length }) (admits_congr htable hcfb hcpw ha)
    (hgen.trans (htable _ (gen_field _)).rd.symm) g.col
  obtain ⟨e, hq, -, hpay, hfirst, hlast⟩ := hjoin.of_ingress (u := creditUpdate (rewriteIn s p.val g.tun) _)
    (congrArg Fab.ingress (creditUpdate_frame (κ := 10) rfl (.refl 10 _)))
  rw [ingressQ_of_fb hcfb] at hq
  refine ⟨_, e, exec_segmentIngress (harr.trans hadm), hq, hpay, hfirst, hlast, ?_⟩
  have hingress := parts_ingressSeg p.val (rewriteIn s p.val g.tun) g.col { g with payload := (receiveUnit p.val h b s).1.take g.payload.length }
    (unitCounted (rewriteIn s p.val g.tun) t)
  have hcreditup := parts_creditUpdate (rewriteIn s p.val g.tun) (ingressSeg p.val (rewriteIn s p.val g.tun) g.col
    { g with payload := (receiveUnit p.val h b s).1.take g.payload.length } (unitCounted (rewriteIn s p.val g.tun) t))
  exact (((hparts.mono (by decide)).trans (hcounted.mono (by decide))).trans (hingress.mono (by decide))).trans (hcreditup.mono (by decide))

theorem bad_segment_counted (p : Port) {h : BitVec 64} {b : Bytes} {s : State} (hf : fencedPort s p.val = false) (hg : parseSeg h b = none)
    (hp : 8 ≤ p.val ∨ canActive s p.val = false) :
    ∃ u, exec (.segmentIngress p h b) s = .next (agentWork u) ∧ onlyWrites [ADP_CNT_RXBAD p.val] [] s u ∧
      u.rd (ADP_CNT_RXBAD p.val) = satInc (2 ^ (ADP_CNT_RXBAD p.val).w - 1) (s.rd (ADP_CNT_RXBAD p.val)) :=
  ⟨_, exec_segmentIngress (segmentArrives_bad hf hp hg), onlyWrites_inc _ s, rd_inc_eq_satInc _ s⟩

/-- The receiver of a malformed unit discards from here on and asks for the unit that it expects. -/
theorem bad_unit_refused (p : CanPort) {h : BitVec 64} {b : Bytes} {s : State} (hf : fencedPort s p.val = false) (hg : parseSeg h b = none)
    (hact : canActive s p.val = true) (hd : (s.can p.val).discarding = false) :
    ∃ u, exec (.segmentIngress ⟨p.val, by omega⟩ h b) s = .next (agentWork u) ∧ (u.can p.val).discarding = true ∧
      u.sent = .can p.val "RNAK" [(s.can p.val).lunRx] :: s.sent ∧ onlyWrites [CAN_ERR_RNAKTX p.val] [.sent, .cn] s u := by
  exact ⟨_, exec_segmentIngress ((segmentArrives_linkError hf p.isLt hact hd hg).trans (linkError_eq hact hd)), discardFrom_effects p.val s⟩

/-- Settles O18: what a segment's arrival admits, counts or refuses; what it then brings to the management agent follows it. -/
theorem segmentsAreAdmittedOrDiscarded : Obligations.SegmentsAreAdmittedOrDiscarded := by
  refine ⟨?_, ?_, ?_, ?_, ?_⟩
  · intro p h b g s hf hp hg ha hgen
    exact segment_joins p hf hp hg ha hgen
  · intro p h b g n s hf hact hd hg hn hhome hgrant hcredit hbase ha hgen
    exact canopy_unit_joins p hf hact hd hg hn hhome hgrant hcredit hbase ha hgen
  · intro p h b s hf hg hp
    exact bad_segment_counted p hf hg hp
  · intro p h b s hf hg hact hd
    exact bad_unit_refused p hf hg hact hd
  · intro p h b g s hf hg hp hstop _ hdis
    exact segment_discarded p hf hg hp hstop hdis

end Sys2Proof.Machine
end

section
set_option Elab.async false
/-! The attributes of a pipe's stream, its upstream units and its AUX channel. -/

namespace Sys2Proof.Machine

open Sys2Proof Sys2Proof.Laws

/-! ### Stream attributes (R285, R286) -/

section
variable {d : Nat} {b : Bytes} {s : State}

theorem takeAttributes_first (ha : pipeActive s d = true) (hok : attrsOk (b.take 25) = true) (hfresh : (s.pipe d).fresh = true) : takeAttributes d b s =
    s.setPipe d { s.pipe d with seen := some (b.take 25), fresh := false, next := some (b.take 25), armed := true } := by
  rw [takeAttributes, if_neg (by simp [ha, hfresh]), if_neg (by simp [hok]), if_pos hfresh]

theorem takeAttributes_changed (ha : pipeActive s d = true) (hok : attrsOk (b.take 25) = true) (hfresh : (s.pipe d).fresh = false)
    (hseen : (s.pipe d).seen ≠ some (b.take 25)) (hattrs : (s.pipe d).attrs ≠ some (b.take 25)) : takeAttributes d b s =
    structuralEvent (raise (9 + d) 4 (s.setPipe d { s.pipe d with seen := some (b.take 25), next := some (b.take 25), armed := false })) := by
  rw [takeAttributes, if_neg (by simp [ha, hseen]), if_neg (by simp [hok]), if_neg (by simp [hfresh]), if_neg hattrs]

theorem takeAttributes_outside (ha : pipeActive s d = true) (hok : attrsOk (b.take 25) = false)
    (hnew : (s.pipe d).fresh = true ∨ (s.pipe d).seen ≠ some (b.take 25)) : takeAttributes d b s =
    raise (9 + d) 3 (s.setPipe d { s.pipe d with seen := some (b.take 25), unsupp := true }) := by
  have hturn : ¬ ((!pipeActive s d) = true ∨ ((s.pipe d).seen = some (b.take 25) ∧ (!(s.pipe d).fresh) = true)) := by
    rcases hnew with h | h
    · simp [ha, h]
    · simp [ha, h]
  rw [takeAttributes, if_neg hturn, if_pos (by simp [hok])]

end

theorem pp_structuralEvent (s : State) : (structuralEvent s).pp = s.pp := structuralEvent_frame (κ := 20) rfl (.refl 20 s)
theorem pp_raise (u b : Nat) (s : State) : (raise u b s).pp = s.pp := raise_frame (κ := 20) rfl (.refl 20 s)

theorem pipe_of_pp {s t : State} (h : t.pp = s.pp) (d : Nat) : t.pipe d = s.pipe d := by rw [State.pipe, h, State.pipe]

theorem partsOnly_setPipe (d : Nat) (x : PipeSt) (s : State) : partsOnly [.pp] s (s.setPipe d x) := partsOnly_of_parts fun _ hk => State_setPipe_frame hk (.refl _ s)

/-! ### A pipe's upstream units and its AUX channel (R283, R314) -/

/-- A unit that fits one segment joins the store of a tunnel that admits it. -/
theorem ingressUnit_arrives {p n : Nat} {data : Bytes} {s : State} (ha : admits s p n) (hlen : data.length ≤ 120) (pre line : Nat) :
    arrived n data s (ingressUnit p n pre line data s) ∧ partsOnly [.regs, .fb] s (ingressUnit p n pre line data s) := by
  have hcut : cutUnit n 80 true data = [{ tun := n, cls := 0, gen := 0, first := true, last := true, col := 0, seq := 0, line := 0, payload := data }] := by
    rw [cutUnit, if_pos hlen]
  have hunit : ingressUnit p n pre line data s = ingressSeg p n pre
      { tun := n, cls := 0, gen := s.rd (TT_STATE_GEN n), first := true, last := true, col := 0, seq := 0, line := line, payload := data } s := by
    rw [ingressUnit, hcut]
    rfl
  rw [hunit]
  exact ⟨ingressSeg_joins ha rfl pre, parts_ingressSeg _ _ _ _ _⟩

theorem pipeTunnel_congr {s t : State} (h : t.regs = s.regs) (d : Nat) : pipeTunnel t d = pipeTunnel s d := by
  have hrd (f : Fld) : t.rd f = s.rd f := by rw [State.rd, h, State.rd]
  simp only [pipeTunnel, State.on, hrd]

theorem pipeActive_of_tunnel {s : State} {d n : Nat} (hn : pipeTunnel s d = some n) (ha : tunActive s n = true) : pipeActive s d = true := by
  rw [pipeActive, hn]
  exact ha

/-- A unit of a pipe whose tunnel is ACTIVE arrives in the upstream tunnel. -/
theorem pipeUpstream_arrives {d n : Nat} {data : Bytes} {s : State} (hn : pipeTunnel s d = some n) (hact : tunActive s n = true)
    (hdark : groveDark s (portGrove (s.rd (PIPE_ROUTE_PORT d))) = false) (ha : admits s (s.rd (PIPE_ROUTE_PORT d)) (s.rd (TT_STATE_PEER n)))
    (hlen : data.length ≤ 120) :
    arrived (s.rd (TT_STATE_PEER n)) data s (pipeUpstream d data s) ∧ partsOnly [.regs, .fb] s (pipeUpstream d data s) := by
  have hup : pipeUpstream d data s = ingressUnit (s.rd (PIPE_ROUTE_PORT d)) (s.rd (TT_STATE_PEER n)) 0 (s.rd (PIPE_STAT_LINE d)) data s := by
    rw [pipeUpstream, hn]
    exact if_neg (by simp [hact, hdark])
  rw [hup]
  exact ingressUnit_arrives ha hlen ..

section
variable {d : Pipe} {b : Bytes} {s : State}

theorem exec_hpdInterrupt : exec (.hpdInterrupt d) s = .next (pipeUpstream d.val [0x82] s) := rfl
theorem exec_streamAttributes {t : State} (ht : takeAttributes d.val b s = t) : exec (.streamAttributes d b) s = .next t := by
  have hexec : exec (.streamAttributes d b) s = .next (takeAttributes d.val b s) := rfl
  rw [hexec, ht]

theorem exec_auxRequest {t : State} (ht : auxRequest d.val b s = t) : exec (.auxRequest d b) s = .next t := by
  have hexec : exec (.auxRequest d b) s = .next (auxRequest d.val b s) := rfl
  rw [hexec, ht]

/-- The AUX channel is free again once the sink has answered. -/
def auxAnswered (d : Nat) (s t : State) : State := t.setPipe d { s.pipe d with aux := none, remote := none }

theorem auxAnswered_effects (d : Nat) (s t : State) : (auxAnswered d s t).regs = t.regs ∧ (auxAnswered d s t).fb = t.fb ∧ (auxAnswered d s t).pw = t.pw ∧
    partsOnly [.pp] t (auxAnswered d s t) := ⟨rfl, rfl, rfl, partsOnly_setPipe _ _ _⟩

theorem exec_auxReply_upstream (h : (s.pipe d.val).remote = none) :
    exec (.auxReply d b) s = .next (pipeUpstream d.val (0x81 :: (shownReply d.val b s).1) (auxAnswered d.val s (shownReply d.val b s).2)) := by
  have hexec : exec (.auxReply d b) s = execAuxReply d b s := rfl
  rw [hexec, execAuxReply]
  generalize shownReply d.val b s = r
  obtain ⟨shown, t⟩ := r
  dsimp only
  rw [h]
  rfl

theorem admits_of_parts {s t : State} {p n : Nat} (hr : t.regs = s.regs) (hfb : t.fb = s.fb) (hpw : t.pw = s.pw) (h : admits s p n) : admits t p n :=
  admits_congr (fun f _ => .of_regs (.refl f s) hr) hfb hpw h

theorem groveDark_congr {s t : State} (h : t.regs = s.regs) (g : Nat) : groveDark t g = groveDark s g := by
  have hrd (f : Fld) : t.rd f = s.rd f := by rw [State.rd, h, State.rd]
  rw [groveDark, gfFor, hrd, hrd, ← gfFor, ← groveDark]

theorem auxReply_arrives {n : Nat} (hn : pipeTunnel s d.val = some n) (hact : tunActive s n = true)
    (hdark : groveDark s (portGrove (s.rd (PIPE_ROUTE_PORT d.val))) = false) (ha : admits s (s.rd (PIPE_ROUTE_PORT d.val)) (s.rd (TT_STATE_PEER n)))
    (hrem : (s.pipe d.val).remote = none) (hlen : (shownReply d.val b s).1.length < 120) :
    ∃ t, exec (.auxReply d b) s = .next t ∧ arrived (s.rd (TT_STATE_PEER n)) (0x81 :: (shownReply d.val b s).1) s t ∧ partsOnly [.regs, .freeCtr, .fb, .pp] s t := by
  have hshown : partsOnly [.freeCtr] s (shownReply d.val b s).2 := partsOnly_of_frames (fun _ hk => shownReply_frame hk (.refl _ s)) rfl
  have hexec := exec_auxReply_upstream (b := b) hrem
  obtain ⟨hregs, hfb, hpw, hparts⟩ := auxAnswered_effects d.val s (shownReply d.val b s).2
  generalize auxAnswered d.val s (shownReply d.val b s).2 = t at hexec hregs hfb hpw hparts
  replace hregs := hregs.trans (hshown .regs (by decide))
  replace hfb := hfb.trans (hshown .fb (by decide))
  replace hpw := hpw.trans (hshown .pw (by decide))
  have hrd (f : Fld) : t.rd f = s.rd f := by rw [State.rd, hregs, State.rd]
  have hupstream := pipeUpstream_arrives (data := 0x81 :: (shownReply d.val b s).1) ((pipeTunnel_congr hregs d.val).trans hn) (by rw [tunActive, hrd, ← tunActive, hact])
    (by rw [hrd, groveDark_congr hregs, hdark]) (by rw [hrd, hrd]; exact admits_of_parts hregs hfb hpw ha) (by simpa using hlen)
  obtain ⟨⟨g, hq, hrest⟩, hupparts⟩ := hupstream
  rw [hrd] at hq hrest
  rw [ingressQ_of_fb hfb] at hq
  exact ⟨_, hexec, ⟨g, hq, hrest⟩, ((hshown.mono (by decide)).trans (hparts.mono (by decide))).trans (hupparts.mono (by decide))⟩

/-- A native write of what the hub owns is acknowledged here. -/
theorem auxRequest_owned (ha : pipeActive s d.val = true) (hdark : groveDark s (portGrove (s.rd (PIPE_ROUTE_PORT d.val))) = false)
    (hcmd : byteAt b 0 / 16 = 8) (hown : dpcdOwned (byteAt b 0 % 16 * 65536 + byteAt b 1 * 256 + byteAt b 2) = true) :
    auxRequest d.val b s = pipeUpstream d.val [0x81, 0] s := by
  rw [auxRequest]
  dsimp only
  rw [if_neg (by simp [ha, hdark]), if_neg (by simp [hcmd]), if_pos (by simp [hcmd, hown])]

/-- What is neither a native read nor a native write goes to the sink. -/
theorem auxRequest_relayed (ha : pipeActive s d.val = true) (hdark : groveDark s (portGrove (s.rd (PIPE_ROUTE_PORT d.val))) = false)
    (h8 : byteAt b 0 / 16 ≠ 8) (h9 : byteAt b 0 / 16 ≠ 9) :
    auxRequest d.val b s = (s.setPipe d.val { s.pipe d.val with aux := none }).emit (.unit (s.rd (PIPE_ROUTE_PORT d.val)) "AUX" b) := by
  rw [auxRequest]
  dsimp only
  rw [if_neg (by simp [ha, hdark]), if_neg (by simp [h9]), if_neg (by simp [h8]), if_neg (by simp [h9]), if_neg (by simp [h9]), if_neg (by simp [h8]), if_neg h9]

end

theorem shownReply_plain {d : Nat} {b : Bytes} {s : State} (h : (s.pipe d).aux = none ∨ byteAt b 0 ≠ 0) : shownReply d b s = (b, s) := by
  unfold shownReply
  dsimp only
  split
  · rfl
  · next heq =>
    rcases h with h | h
    · rw [h] at heq
      cases heq
    · rw [if_pos h]

/-- Settles O19: attributes are armed, wait for their swap or are never adopted; the AUX channel's units join the upstream tunnel or go to
the sink. -/
theorem attributesAndAuxTravelByThePipe : Obligations.AttributesAndAuxTravelByThePipe := by
  refine ⟨?_, ?_, ?_, ?_, ?_, ?_⟩
  · intro d b s ha hok hfresh
    refine ⟨_, exec_streamAttributes (takeAttributes_first ha hok hfresh), ?_, ?_, ?_, partsOnly_setPipe _ _ _⟩
    · rw [State.pipe_setPipe_same]
    · rw [State.pipe_setPipe_same]
    · rw [State.pipe_setPipe_same]
  · intro d b s ha hok hfresh hseen hattrs
    refine ⟨_, exec_streamAttributes (takeAttributes_changed ha hok hfresh hseen hattrs), ?_⟩
    generalize hx : ({ s.pipe d.val with seen := some (b.take 25), next := some (b.take 25), armed := false } : PipeSt) = x
    have hpipe : (structuralEvent (raise (9 + d.val) 4 (s.setPipe d.val x))).pipe d.val = x := by
      rw [pipe_of_pp ((pp_structuralEvent _).trans (pp_raise _ _ _)), State.pipe_setPipe_same]
    rw [hpipe]
    subst hx
    refine ⟨rfl, rfl, rfl, leafSet_structuralEvent (leafSet_raise _ _ _ (by decide)), ?_⟩
    exact (((partsOnly_setPipe _ _ _).mono (by decide)).trans ((onlyWrites_raise _ _ _).2.mono (by decide))).trans ((onlyWrites_structuralEvent _).2.mono (by decide))
  · intro d b s ha hok hnew
    refine ⟨_, exec_streamAttributes (takeAttributes_outside ha hok hnew), ?_⟩
    rw [pipe_of_pp (pp_raise _ _ _), State.pipe_setPipe_same]
    refine ⟨rfl, rfl, rfl, leafSet_raise _ _ _ (by decide), ?_⟩
    exact ((onlyWrites_setPipe _ _ _ _).mono (List.Subset.refl _) (by decide)).trans ((onlyWrites_raise _ _ _).mono (List.Subset.refl _) (by decide))
  · intro d b n s hn hact hdark ha
    refine ⟨fun hrem hlen => auxReply_arrives hn hact hdark ha hrem hlen, ⟨_, exec_hpdInterrupt, pipeUpstream_arrives hn hact hdark ha (by decide)⟩, ?_⟩
    intro hcmd h0 h1 h2
    have hown : dpcdOwned (byteAt b 0 % 16 * 65536 + byteAt b 1 * 256 + byteAt b 2) = true := by
      simp only [dpcdOwned, h0, h1, Bool.or_eq_true, Bool.and_eq_true, decide_eq_true_eq]
      omega
    exact ⟨_, exec_auxRequest (auxRequest_owned (pipeActive_of_tunnel hn hact) hdark hcmd hown), pipeUpstream_arrives hn hact hdark ha (by decide)⟩
  · intro d b s h
    exact shownReply_plain h
  · intro d b s ha hdark h8 h9
    refine ⟨_, exec_auxRequest (auxRequest_relayed ha hdark h8 h9), rfl, ?_, ?_⟩
    · exact congrArg PipeSt.aux (State.pipe_setPipe_same ..)
    · exact ((partsOnly_setPipe _ _ _).mono (by decide)).trans ((partsOnly_emit _ _).mono (by decide))

end Sys2Proof.Machine
end

section
set_option Elab.async false
/-! The units that the ports' adapters take in, route, turn away and count. -/

namespace Sys2Proof.Machine

open Sys2Proof Sys2Proof.Laws

/-! ### A unit that arrives at a port by its own standard (R264, R265, R309) -/

theorem admits_of_stores {s t : State} {p n : Nat} (hfields : ∀ f, tableField f → keeps f s t) (hq : t.ingressQ n = s.ingressQ n) (hf : t.flow n = s.flow n)
    (hpw : t.pw = s.pw) (h : admits s p n) : admits t p n := by
  obtain ⟨hactive, hin, hplace, hstop⟩ := h
  have hkeep {f : Fld} (hf : f ∈ [TT_STATE_STATE n, TT_STATE_GEN n, TT_STATE_KIND n, TT_STATE_CASC n, TT_STATE_CLS n, TT_STATE_DIR n, TT_ENDP_INPORT n, TT_DISC_GENDIS n]) :=
    (hfields f (table_fields n f hf)).rd
  refine ⟨?_, (hkeep (by simp)).trans hin, ?_, ?_⟩
  · rw [tunActive, hkeep (by simp)]
    exact hactive
  · rw [placeFree, hq, hf]
    exact hplace
  · rw [hpw]
    exact hstop

/-- Pause frames leave the stores and their tunnels' places. -/
theorem flow_updatePause (p n : Nat) (s : State) : (updatePause p s).flow n = s.flow n := by
  have hflow : (updatePause p s).fb.flow = s.fb.flow := by
    unfold updatePause
    dsimp only
    split
    · rfl
    · generalize hy : State.setEg _ _ _ = t
      have ht : t.fb.flow = s.fb.flow := by rw [← hy]; rfl
      rw [fb_notes _ fun k u => .note (creditForm u p ++ " restored") [p, k - 16], fb_notes _ fun k u => .note (creditForm u p ++ " withheld") [p, k - 16],
        fb_pauseOut, fb_pauseOut, ht]
  rw [State.flow, hflow, State.flow]

/-- A unit as the port's hold buffer has it, where the port holds any. -/
def unitRecorded (p n : Nat) (s : State) : State := if holdsUnits s p then updatePause p (holdUnit p n s) else s

theorem unitRecorded_effects {p : Nat} (hp : p < 20) (n m : Nat) (s : State) : (∀ f, tableField f → keeps f s (unitRecorded p m s)) ∧
    (unitRecorded p m s).ingressQ n = s.ingressQ n ∧ (unitRecorded p m s).flow n = s.flow n ∧ (unitRecorded p m s).pw = s.pw := by
  unfold unitRecorded
  split
  · have hfb := fb_holdUnit p m s
    have hpw : (updatePause p (holdUnit p m s)).pw = (holdUnit p m s).pw := updatePause_frame (κ := 25) rfl (.refl 25 _)
    refine ⟨fun f hf => (keeps_holdUnit hf hp m s).of_regs (regs_updatePause p _), ?_, ?_, hpw.trans (pw_holdUnit p m s)⟩
    · rw [State.ingressQ, ingress_updatePause, hfb, ← State.ingressQ]
    · rw [flow_updatePause, State.flow, hfb, ← State.flow]
  · exact ⟨fun f _ => .refl f s, rfl, rfl, rfl⟩

theorem takeIn_plain {p n pre line : Nat} {data : Bytes} {s : State} (hf : portFenced s p = false) :
    admitUnit p n pre line data s = ingressUnit p n pre line data (unitRecorded p data.length s) := by
  have hfence : fencedPort s p = false := by rw [fencedPort, hf, Bool.false_and]
  rw [admitUnit, takeIn, if_neg (ne_true_of_eq_false hfence)]
  dsimp only
  rw [if_neg (ne_true_of_eq_false hf)]
  rfl

/-- A unit that fits one segment, at a port that is not fenced, joins the store of a tunnel that admits it. -/
theorem admitUnit_arrives {p n : Nat} {data : Bytes} {s : State} (hp : p < 20) (hf : portFenced s p = false) (ha : admits s p n) (hlen : data.length ≤ 120)
    (pre line : Nat) : arrived n data s (admitUnit p n pre line data s) := by
  obtain ⟨hkeep, hq, hflow, hpw⟩ := unitRecorded_effects hp n data.length s
  obtain ⟨⟨g, hg, hrest⟩, -⟩ := ingressUnit_arrives (admits_of_stores hkeep hq hflow hpw ha) hlen pre line
  rw [takeIn_plain hf]
  exact ⟨g, by rw [hg, hq], hrest⟩

/-- The same of a port whose adapter's own state has changed. -/
theorem admitUnit_arrives_setAdp {p n : Nat} {data : Bytes} {s : State} (hp : p < 20) (hf : portFenced s p = false) (ha : admits s p n) (hlen : data.length ≤ 120)
    (pre line q : Nat) (x : Adapter) : arrived n data s (admitUnit p n pre line data (s.setAdp q x)) :=
  admitUnit_arrives (s := s.setAdp q x) hp hf ha hlen pre line

theorem rxBad_effects (p : Nat) (s : State) : onlyWrites [ADP_CNT_RXBAD p] [] s (rxBad p s) ∧
    (rxBad p s).rd (ADP_CNT_RXBAD p) = satInc (2 ^ (ADP_CNT_RXBAD p).w - 1) (s.rd (ADP_CNT_RXBAD p)) := ⟨onlyWrites_inc _ s, rd_inc_eq_satInc _ s⟩

theorem noTunnel_effects (p : Nat) (s : State) : onlyWrites [ADP_CNT_NOTUN p] [] s (noTunnel p s) ∧
    (noTunnel p s).rd (ADP_CNT_NOTUN p) = satInc (2 ^ (ADP_CNT_NOTUN p).w - 1) (s.rd (ADP_CNT_NOTUN p)) := ⟨onlyWrites_inc _ s, rd_inc_eq_satInc _ s⟩

/-! ### TLPs, USB 3 packets and Ethernet frames (R309 to R311, R315, R321) -/

section
variable {p : Port} {n : Tun} {b x y z : Bytes} {s : State}

theorem exec_tlp_bad : exec (.tlp p n false x y z) s = .next (rxBad p.val s) := rfl
theorem exec_usb3Packet_bad : exec (.usb3Packet p n false y z) s = .next (rxBad p.val s) := rfl

theorem exec_tlp_crown {t : State} (hb : b = x ++ y ++ z) (hp : p.val < 2) (ht : switchTlp p.val n.val b s = t) : exec (.tlp p n true x y z) s = .next t := by
  have hexec : exec (.tlp p n true x y z) s = execTlp p n true x y z s := rfl
  rw [hexec, execTlp]
  dsimp only
  rw [if_neg (by decide), if_pos hp, ← hb, ht]

theorem exec_tlp_port (hb : b = x ++ y ++ z) (hp : 2 ≤ p.val) : ∃ u, exec (.tlp p n true x y z) s = .next (admitUnit p.val n.val 0 (leadLine s) b u) ∧
    (u = s ∨ ∃ a, u = s.setAdp p.val a) := by
  have hexec : exec (.tlp p n true x y z) s = execTlp p n true x y z s := rfl
  rw [execTlp] at hexec
  dsimp only at hexec
  rw [if_neg (by decide), if_neg (Nat.not_lt.2 hp), ← hb] at hexec
  refine ⟨_, hexec, ?_⟩
  split
  · exact .inr ⟨_, rfl⟩
  · exact .inl rfl

theorem exec_usb3Packet_port (hp : 2 ≤ p.val) : exec (.usb3Packet p n true y z) s = .next (admitUnit p.val n.val 0 (leadLine s) (y ++ z) s) := by
  have hexec : exec (.usb3Packet p n true y z) s = execUsb3Packet p n true y z s := rfl
  rw [hexec, execUsb3Packet]
  rw [if_neg (by decide), if_neg (Nat.not_lt.2 hp)]

theorem exec_usb3Packet_crown (hp : p.val < 2) : exec (.usb3Packet p n true y z) s = .next (hubPacket p.val n.val (y ++ z) s) := by
  have hexec : exec (.usb3Packet p n true y z) s = execUsb3Packet p n true y z s := rfl
  rw [hexec, execUsb3Packet]
  rw [if_neg (by decide), if_pos hp]

theorem tlp_arrives (hb : b = x ++ y ++ z) (hp : 2 ≤ p.val) (hf : portFenced s p.val = false) (ha : admits s p.val n.val) (hlen : b.length ≤ 120) :
    ∃ t, exec (.tlp p n true x y z) s = .next t ∧ arrived n.val b s t := by
  obtain ⟨u, hexec, hu⟩ := exec_tlp_port (n := n) (s := s) hb hp
  refine ⟨_, hexec, ?_⟩
  rcases hu with rfl | ⟨a, rfl⟩
  · exact admitUnit_arrives p.isLt hf ha hlen ..
  · exact admitUnit_arrives_setAdp p.isLt hf ha hlen ..

/-! #### The switch at a crown port -/

theorem switchTlp_nowhere {c tun : Nat} (h : routeTlp s c (tlpHeader b.length b) = .nowhere) : switchTlp c tun b s = turnAway c (tlpHeader b.length b) s := by
  rw [switchTlp, h]

theorem switchTlp_port {c tun q : Nat} (h : routeTlp s c (tlpHeader b.length b) = .port q false) :
    switchTlp c tun b s = switchForward c tun q false b (tlpHeader b.length b) s := by
  rw [switchTlp, h]

theorem switchTlp_own {c tun dev : Nat} (h : routeTlp s c (tlpHeader b.length b) = .own dev) (hlink : s.rd (CAN_STAT_STATE c) = 5) :
    switchTlp c tun b s = switchAccess c dev (tlpHeader b.length b) s := by
  rw [switchTlp, h]
  exact if_pos (.inl hlink)

theorem routeTlp_config {c : Nat} {t : Bytes} (h : byteAt t 0 = 4) : routeTlp s c t = .own upstreamDev := by
  rw [routeTlp, h]
  rfl

/-- The first word of the switch's own configuration space. -/
theorem switchAccess_identity {c : Nat} {t : Bytes} (h0 : byteAt t 0 = 4) (h9 : byteAt t 9 % 8 = 0) (h10 : byteAt t 10 % 16 = 0) (h11 : byteAt t 11 < 4) :
    switchAccess c upstreamDev t s = s.emit (.unit c "TLP" (cfgCompletion t (some (deviceId s * 65536 + s.rd SYS_ID_VENDOR)))) := by
  have hword : byteAt t 10 % 16 * 64 + byteAt t 11 / 4 = 0 := by omega
  have hread : cfgRead s c upstreamDev 0 = (deviceId s * 65536 + s.rd SYS_ID_VENDOR, s) := rfl
  rw [switchAccess]
  dsimp only
  rw [hword, hread, if_neg (by simp [h0]), if_neg (by simp [h9]), if_pos (by simp [h0])]

theorem switchForward_arrives {c tun q d : Nat} {t : Bytes} (hc : c < 20) (hd : downTunnel s c q 1 = some d) (hlink : s.rd (CAN_STAT_STATE c) = 5 ∨ d = tun)
    (h4 : s.rd (ADP_STAT_STATE q) ≠ 4) (h5 : s.rd (ADP_STAT_STATE q) ≠ 5) (hf : portFenced s c = false) (ha : admits s c d) (hlen : b.length ≤ 120) :
    arrived d b s (switchForward c tun q false b t s) := by
  have hturn : ¬ ((decide (s.rd (CAN_STAT_STATE c) ≠ 5) && decide (d ≠ tun) || decide (s.rd (ADP_STAT_STATE q) = 4) || decide (s.rd (ADP_STAT_STATE q) = 5)) = true) := by
    rcases hlink with h | h
    · simp [h, h4, h5]
    · simp [h, h4, h5]
  have hforward : ∃ u, switchForward c tun q false b t s = admitUnit c d 0 (leadLine s) b u ∧ (u = s ∨ ∃ a, u = s.setAdp q a) := by
    rw [switchForward, hd]
    dsimp only
    rw [if_neg hturn]
    refine ⟨_, rfl, ?_⟩
    split
    · exact .inr ⟨_, rfl⟩
    · exact .inl rfl
  obtain ⟨u, hu, hcase⟩ := hforward
  rw [hu]
  rcases hcase with rfl | ⟨a, rfl⟩
  · exact admitUnit_arrives hc hf ha hlen ..
  · exact admitUnit_arrives_setAdp hc hf ha hlen ..

/-! #### The Enhanced SuperSpeed hub at a crown port -/

theorem hubPacket_routed {c tun : Nat} (h12 : byteAt b 0 % 32 ≠ 12) (hk : routeNibble s c b ≠ 0) : hubPacket c tun b s = hubForward c tun (routeNibble s c b) b s := by
  rw [hubPacket, if_neg h12, if_pos hk]

theorem hubForward_dead {c tun k : Nat} (h : hubPortLive s k = false) : hubForward c tun k b s = noTunnel c s := by
  unfold hubForward
  split
  · rfl
  · exact if_pos (by simp [h])

theorem hubForward_tunnel {c tun k q d : Nat} (hlive : hubPortLive s k = true) (hq : hubPort k = some q) (hd : downTunnel s c q 2 = some d)
    (hlink : s.rd (CAN_STAT_STATE c) = 5 ∨ d = tun) : hubForward c tun k b s = admitUnit c d 0 (leadLine s) b s := by
  have hturn : ¬ ((!hubPortLive s k || decide (s.rd (CAN_STAT_STATE c) ≠ 5) && decide (d ≠ tun)) = true) := by
    rcases hlink with h | h
    · simp [hlive, h]
    · simp [hlive, h]
  have hbind : ((hubPort k).bind fun q => downTunnel s c q 2) = some d := by rw [hq]; exact hd
  rw [hubForward, hbind]
  exact if_neg hturn

/-! #### Ethernet -/

theorem exec_ethernetFrame_bad (hk : persEth (s.rd (ADP_STAT_PERS p.val)) = true) : exec (.ethernetFrame p b false) s = .next (rxBad p.val s) := by
  have hexec : exec (.ethernetFrame p b false) s = execEthernetFrame p b false s := rfl
  rw [hexec, execEthernetFrame]
  dsimp only
  rw [if_neg (by simp [hk]), if_pos (.inl (by decide))]

/-- What an untagged frame that is no PTP message comes to. -/
def frameTaken (p : Nat) (b : Bytes) (s : State) : State :=
  match upTunnel s p 3 (s.adp p).untag with
  | none => noTunnel p s
  | some n => admitUnit p n 0 (leadLine s) b s

theorem exec_ethernetFrame_plain (hk : persEth (s.rd (ADP_STAT_PERS p.val)) = true) (h60 : 60 ≤ b.length) (hmax : b.length + 4 ≤ s.rd (ADP_ETHCTL_MAXFRM p.val))
    (htype : (etherType b).2 ≠ 0x8808) (hptp : ptpAt b = none) (h81 : beAt b 12 2 ≠ 0x8100) (h88 : beAt b 12 2 ≠ 0x88A8) :
    exec (.ethernetFrame p b true) s = .next (frameTaken p.val b s) := by
  have htag : ¬ (beAt b 12 2 = 0x8100 ∨ beAt b 12 2 = 0x88A8) := by simp [h81, h88]
  have hexec : exec (.ethernetFrame p b true) s = execEthernetFrame p b true s := rfl
  rw [hexec, execEthernetFrame]
  dsimp only
  rw [if_neg (by simp [hk]), if_neg (by simp only [Bool.not_true, Bool.false_eq_true, false_or]; omega), if_neg htype, hptp, if_neg htag]
  simp only [htag, decide_false, Bool.false_and]
  rfl

end

/-- Settles O22: what the adapters take in, route, turn away and count. -/
theorem adapterUnitsEnterTheirTunnels : Obligations.AdapterUnitsEnterTheirTunnels := by
  refine ⟨?_, ?_, ?_, ?_, ?_, ?_, ?_, ?_, ?_⟩
  · intro p n x y z s
    exact ⟨⟨_, exec_tlp_bad, rxBad_effects p.val s⟩, ⟨_, exec_usb3Packet_bad, rxBad_effects p.val s⟩⟩
  · intro p b s hk
    exact ⟨_, exec_ethernetFrame_bad hk, rxBad_effects p.val s⟩
  · intro p n b x y z s hb hp hf ha hlen
    refine ⟨tlp_arrives hb hp hf ha hlen, _, exec_usb3Packet_port hp, ?_⟩
    rw [← hb]
    exact admitUnit_arrives p.isLt hf ha hlen ..
  · intro p n b x y z s hb hp hroute
    exact exec_tlp_crown hb hp (switchTlp_nowhere hroute)
  · intro p n b h x y z s hb hp hh h0 h9 h10 h11 hlink
    subst hh
    exact exec_tlp_crown hb hp ((switchTlp_own (routeTlp_config h0) hlink).trans (switchAccess_identity h0 h9 h10 h11))
  · intro p n d b x y z q s hb hp hroute hd hlink h4 h5 hf ha hlen
    refine ⟨_, exec_tlp_crown hb hp (switchTlp_port hroute), ?_⟩
    exact switchForward_arrives p.isLt hd (hlink.imp_right (congrArg Fin.val)) h4 h5 hf ha hlen
  · intro p n b y z s hb hp h12 hk hlive
    subst hb
    refine ⟨_, exec_usb3Packet_crown hp, ?_⟩
    rw [hubPacket_routed h12 hk, hubForward_dead hlive]
    exact noTunnel_effects p.val s
  · intro p n d b y z q s hb hp h12 hk hlive hq hd hlink hf ha hlen
    subst hb
    refine ⟨_, exec_usb3Packet_crown hp, ?_⟩
    rw [hubPacket_routed h12 hk, hubForward_tunnel hlive hq hd (hlink.imp_right (congrArg Fin.val))]
    exact admitUnit_arrives p.isLt hf ha hlen ..
  · intro p b s hk h60 hlen hmax htype hptp h81 h88
    have hexec := exec_ethernetFrame_plain hk h60 hmax htype hptp h81 h88
    refine ⟨fun n hn hf ha => ⟨_, hexec, ?_⟩, fun hn => ⟨_, hexec, ?_⟩⟩
    · rw [frameTaken, hn]
      exact admitUnit_arrives p.isLt hf ha hlen ..
    · rw [frameTaken, hn]
      exact noTunnel_effects p.val s

end Sys2Proof.Machine
end

section
set_option Elab.async false
/-! Links that come up and go down, outputs that train, and slots that eject. -/

namespace Sys2Proof.Machine

open Sys2Proof Sys2Proof.Laws

/-! ### A port's link comes up (R17, R22, R242, R254) -/

/-- A field of a grove's registers that is no leaf's. -/
def groveField (f : Fld) : Prop := 0x800000 ≤ f.key ∧ f.key < 0x1000000 ∧ ¬ leafKey f.key

theorem linkFields (p : Nat) : ∀ f ∈ [ADP_STAT_STATE p, ADP_STAT_PERS p, ADP_STAT_RATE p, ADP_STAT_WIDTH p, ADP_DP_HPD p, CAN_STAT_STATE p], groveField f := by
  have hplace := portPlace_lt p
  have hgrove := portGrove_lt p
  simp only [List.forall_mem_cons, List.not_mem_nil, false_implies, implies_true, and_true, groveField, leafKey, ADP_STAT_STATE, ADP_STAT_PERS, ADP_STAT_RATE,
    ADP_STAT_WIDTH, ADP_DP_HPD, CAN_STAT_STATE, fld, portReg]
  omega

/-- The keys of lane cells and of what lies above them. -/
def aboveGroves (k : Nat) : Prop := 0x1000000 ≤ k

theorem keeps_of_above {f : Fld} (hf : groveField f) {s t : State} (h : onlyKeys aboveGroves s t) : keeps f s t :=
  keeps_of_keys h (Nat.not_le.2 hf.2.1)

theorem cellFields_above (c : Nat) : ∀ f ∈ [LC_STAT_STATE c, LC_STAT_RATE c, LC_STAT_ORIENT c, LC_STAT_DIR c, LC_STAT_INVA c, LC_STAT_INVB c, LC_RTR_CONSEC c],
    aboveGroves f.key ∧ ¬ leafKey f.key := by
  simp only [List.forall_mem_cons, List.not_mem_nil, false_implies, implies_true, and_true, aboveGroves, leafKey, LC_STAT_STATE, LC_STAT_RATE, LC_STAT_ORIENT,
    LC_STAT_DIR, LC_STAT_INVA, LC_STAT_INVB, LC_RTR_CONSEC, fld]
  omega

theorem onlyKeys_setDirs_above (p m : Nat) (s : State) : onlyKeys aboveGroves s (setDirs p m s) :=
  .forAll (.refl _ s) fun c _ u => .wr (.refl _ u) (cellFields_above c _ (by simp)).1 (cellFields_above c _ (by simp)).2

theorem onlyKeys_persDirs (p : Nat) (q : Partner) (s : State) : onlyKeys aboveGroves s (persDirs p q s) := by
  unfold persDirs
  refine .ite (.refl _ s) (.ite (onlyKeys_setDirs_above ..) (.ite (onlyKeys_setDirs_above ..) (.forAll (.refl _ s) fun c _ u => ?_)))
  exact .wr (.refl _ u) (cellFields_above c _ (by simp)).1 (cellFields_above c _ (by simp)).2

theorem onlyKeys_applyPol (p : Nat) (s : State) : onlyKeys aboveGroves s (applyPol p s) := by
  unfold applyPol
  dsimp only
  split
  · exact .refl _ s
  · refine .ite (.refl _ s) (.forAll (.refl _ s) fun c _ u => .wrs (.refl _ u) ?_)
    simp only [List.forall_mem_cons, List.not_mem_nil, false_implies, implies_true, and_true]
    exact ⟨cellFields_above c _ (by simp), cellFields_above c _ (by simp)⟩

/-- The cells of a port that works run at the link's rate. -/
def cellsUp (p rate : Nat) (t : State) : State :=
  forAll ((groupCells t p).filter fun c => !(t.lane c).faulted) (fun c u => u.wrs [(LC_STAT_STATE c, 4), (LC_STAT_RATE c, rate)]) t

theorem onlyKeys_cellsUp (p rate : Nat) (t : State) : onlyKeys aboveGroves t (cellsUp p rate t) := by
  refine .forAll (.refl _ t) fun c _ u => .wrs (.refl _ u) ?_
  simp only [List.forall_mem_cons, List.not_mem_nil, false_implies, implies_true, and_true]
  exact ⟨cellFields_above c _ (by simp), cellFields_above c _ (by simp)⟩

theorem not_attachKeys_of_groveField {f : Fld} (hf : groveField f) : ¬ attachKeys f.key := by
  obtain ⟨hlo, hhi, -⟩ := hf
  rintro (h | ⟨d, h⟩ | ⟨n, h | h⟩)
  · have hsmall : ∀ k ∈ [PST_PSSTAT_STATE.key, PST_PSCTL_GO.key, (EVSTAT 16).key, PST_SOLVE_BUSY.key, PST_SOLVE_ARMED.key, PST_SOLVE_CANCEL.key,
        FAB_STATUS_MAPPEND.key, SYS_SETTLE_PEND.key, SYS_SETTLE_RUN.key, SYS_GUARD_SETTLED.key], k < 0x800000 ∨ 0x1000000 ≤ k := by decide
    have := hsmall _ h
    omega
  · rw [h] at hhi
    simp only [PIPE_CTL_FHOLD, fld] at hhi
    omega
  · rw [h] at hhi
    simp only [TT_STATE_STATE, fld] at hhi
    omega
  · rw [h] at hhi
    simp only [TT_STATE_GEN, fld] at hhi
    omega

theorem keeps_attachEvent {f : Fld} (hf : groveField f) (s : State) : keeps f s (attachEvent s) := keeps_of_keys (onlyKeys_attachEvent s) (not_attachKeys_of_groveField hf)

theorem leafSet_attachEvent {u b : Nat} {s : State} (h : leafSet s u b) : leafSet (attachEvent s) u b := (onlyKeys_attachEvent s).2 u b h

/-- An attach or its replacement without an event. -/
def partnerSet (p : Nat) (q : Partner) (s : State) : State := if linkEvents p then attachPartner p q s else setPartner p q s

theorem partnerSet_effects (p : Nat) (q : Partner) (s : State) : (∀ f, groveField f → keeps f s (partnerSet p q s)) ∧ mfind (partnerSet p q s).sv.att p = some q ∧
    ∀ u b, leafSet s u b → leafSet (partnerSet p q s) u b := by
  have hset (f : Fld) : keeps f s (setPartner p q s) := .of_regs (.refl f s) rfl
  unfold partnerSet
  split
  · refine ⟨fun f hf => (hset f).trans (keeps_attachEvent hf _), mfind_att_attachPartner p q s, fun u b h => leafSet_attachEvent h⟩
  · refine ⟨fun f _ => hset f, ?_, fun u b h => h⟩
    rw [setPartner, mfind_mins, if_pos rfl]

/-- The registers of an adapter whose link has come up. -/
def adapterShown (p : Nat) (q : Partner) (s : State) : State :=
  s.wrs [(ADP_STAT_STATE p, 2), (ADP_STAT_PERS p, persOf s p), (ADP_STAT_RATE p, q.rate), (ADP_STAT_WIDTH p, q.width), (ADP_STAT_SPEED p, q.speed),
    (ADP_PCIE_PRESENT p, b2n (persOf s p = 1)), (ADP_PCIE_DLLACT p, b2n (persOf s p = 1)), (GRV_CALST_BT p, byteTime q.txMbps)]

theorem adapterUp_eq (p : Nat) (q : Partner) (s : State) : adapterUp p q s =
    partnerSet p q (raise (portGrove p) 17 (applyPol p (persDirs p q (cellsUp p q.rate (adapterShown p q s))))) := by
  unfold adapterUp partnerSet
  dsimp only
  split <;> rfl

theorem state_adapterShown (p : Nat) (q : Partner) (s : State) : (adapterShown p q s).rd (ADP_STAT_STATE p) = 2 := by
  rw [adapterShown, State.wrs_cons, State.rd_wrs_ne]
  · exact rd_wr_of_lt _ _ _ (show 2 < 2 ^ 4 by decide)
  · have hplace := portPlace_lt p
    simp only [List.forall_mem_cons, List.not_mem_nil, false_implies, implies_true, and_true, ADP_STAT_STATE, ADP_STAT_PERS, ADP_STAT_RATE, ADP_STAT_WIDTH,
      ADP_STAT_SPEED, ADP_PCIE_PRESENT, ADP_PCIE_DLLACT, GRV_CALST_BT, fld, portReg]
    omega

theorem adapterUp_effects (p : Nat) (q : Partner) (s : State) : (adapterUp p q s).rd (ADP_STAT_STATE p) = 2 ∧ mfind (adapterUp p q s).sv.att p = some q ∧
    leafSet (adapterUp p q s) (portGrove p) 17 := by
  have hstate : groveField (ADP_STAT_STATE p) := linkFields p _ (by simp)
  rw [adapterUp_eq]
  have hset : keeps (ADP_STAT_STATE p) (adapterShown p q s) (raise (portGrove p) 17 (applyPol p (persDirs p q (cellsUp p q.rate (adapterShown p q s))))) :=
    (((keeps_of_above hstate (onlyKeys_cellsUp ..)).trans (keeps_of_above hstate (onlyKeys_persDirs ..))).trans
      (keeps_of_above hstate (onlyKeys_applyPol ..))).raise_of hstate.2.2 _ _
  have hleaf : leafSet (raise (portGrove p) 17 (applyPol p (persDirs p q (cellsUp p q.rate (adapterShown p q s))))) (portGrove p) 17 := leafSet_raise _ _ _ (by decide)
  generalize raise (portGrove p) 17 _ = t at hset hleaf
  obtain ⟨hkeep, hatt, hleaves⟩ := partnerSet_effects p q t
  exact ⟨((hset.trans (hkeep _ hstate)).rd).trans (state_adapterShown p q s), hatt, hleaves _ _ hleaf⟩

/-! ### The eject press (R318) -/

theorem ejectPress_effects (p : Nat) (s : State) : (∀ f, groveField f → keeps f s (ejectPress p s)) ∧ (ejectPress p s).sv = s.sv ∧
    ∀ u b, leafSet s u b → leafSet (ejectPress p s) u b := by
  unfold ejectPress
  dsimp only
  split
  · exact ⟨fun f _ => .refl f s, rfl, fun u b h => h⟩
  · split
    · exact ⟨fun f _ => .of_regs (.refl f s) rfl, rfl, fun u b h => h⟩
    · generalize ht : State.emit _ _ = t
      have hregs : t.regs = s.regs := by rw [← ht]; rfl
      have hsv : t.sv = s.sv := by rw [← ht]; rfl
      have hraise : (raise (portGrove p) 19 t).sv = t.sv := raise_frame (κ := 9) rfl (.refl 9 t)
      have hkeys : onlyKeys (fun k => k = (EVSTAT (portGrove p)).key) s (raise (portGrove p) 19 t) := ((onlyKeys.refl _ s).of_regs hregs).raise rfl
      exact ⟨fun f hf => keeps_of_keys hkeys (ne_evstat hf.2.2 _), hraise.trans hsv, hkeys.2⟩

/-- A press that waited for the link is reported. -/
def pressReported (p : Nat) (s : State) : State := if (s.adp p).pressDue then ejectPress p s else s

theorem pressReported_effects (p : Nat) (s : State) : (∀ f, groveField f → keeps f s (pressReported p s)) ∧ (pressReported p s).sv = s.sv ∧
    ∀ u b, leafSet s u b → leafSet (pressReported p s) u b := by
  unfold pressReported
  split
  · exact ejectPress_effects p s
  · exact ⟨fun f _ => .refl f s, rfl, fun u b h => h⟩

/-! ### LINK_UP, LINK_DOWN and the standard's own recovery (R22, R242, R263) -/

section
variable {p : Port} {q : Partner} {s : State}

theorem exec_linkUp_downed (h2 : s.rd PST_PSSTAT_STATE = 2) (hd : p.val ∈ s.ps.downed) : exec (.linkUp p q) s = .next (toActive s) := by
  have hexec : exec (.linkUp p q) s = execLinkUp p q s := rfl
  rw [hexec, execLinkUp]
  exact if_pos ⟨h2, List.contains_iff_mem.2 hd⟩

theorem notDowned (h : s.rd PST_PSSTAT_STATE ≠ 2 ∨ p.val ∉ s.ps.downed) : ¬ (s.rd PST_PSSTAT_STATE = 2 ∧ s.ps.downed.contains p.val = true) := by
  rintro ⟨h2, hd⟩
  exact h.elim (· h2) (· (List.contains_iff_mem.1 hd))

theorem exec_linkUp_standard (hdown : s.rd PST_PSSTAT_STATE ≠ 2 ∨ p.val ∉ s.ps.downed) (hb : retrainBlocked s p.val = false) (hu : q.usb4 = false)
    (hr : rateUsable s p.val q.rate = true) : exec (.linkUp p q) s = .next (pressReported p.val (adapterUp p.val q s)) := by
  have hexec : exec (.linkUp p q) s = execLinkUp p q s := rfl
  rw [execLinkUp, if_neg (notDowned hdown), if_neg (ne_true_of_eq_false hb), if_neg (ne_true_of_eq_false hu), if_neg (by simp [hr])] at hexec
  exact hexec

theorem linkUp_standard (hdown : s.rd PST_PSSTAT_STATE ≠ 2 ∨ p.val ∉ s.ps.downed) (hb : retrainBlocked s p.val = false) (hu : q.usb4 = false)
    (hr : rateUsable s p.val q.rate = true) : ∃ t, exec (.linkUp p q) s = .next t ∧ t.rd (ADP_STAT_STATE p.val) = 2 ∧ mfind t.sv.att p.val = some q ∧
      leafSet t (portGrove p.val) 17 := by
  obtain ⟨hstate, hatt, hleaf⟩ := adapterUp_effects p.val q s
  obtain ⟨hkeep, hsv, hleaves⟩ := pressReported_effects p.val (adapterUp p.val q s)
  exact ⟨_, exec_linkUp_standard hdown hb hu hr, (hkeep _ (linkFields p.val _ (by simp))).rd.trans hstate, by rw [hsv, hatt], hleaves _ _ hleaf⟩

/-- A USB4 partner at the reference rates of its link. -/
def usb4Partner (q : Partner) : Partner := { q with txMbps := usb4Mbps q.txMbps, rxMbps := usb4Mbps q.rxMbps }

/-- The registers of a port whose USB4 link has come up. -/
def usb4Shown (p : Nat) (q : Partner) (s : State) : State := s.wrs [(CAN_STAT_STATE p, 5), (CAN_STAT_ROLE p, b2n (2 ≤ p)), (GRV_CALST_BT p, byteTime q.txMbps)]

theorem state_usb4Shown (p : Nat) (q : Partner) (s : State) : (usb4Shown p q s).rd (CAN_STAT_STATE p) = 5 := by
  rw [usb4Shown, State.wrs_cons, State.rd_wrs_ne]
  · exact rd_wr_of_lt _ _ _ (show 5 < 2 ^ 3 by decide)
  · have hplace := portPlace_lt p
    simp only [List.forall_mem_cons, List.not_mem_nil, false_implies, implies_true, and_true, CAN_STAT_STATE, CAN_STAT_ROLE, GRV_CALST_BT, fld, portReg]
    omega

/-- A USB4 link, up. -/
def usb4Up (p : Nat) (q : Partner) (s : State) : State := attachPartner p q (persDirs p q (cellsUp p q.rate (usb4Shown p q s)))

theorem usb4Up_effects (p : Nat) (q : Partner) (s : State) : (usb4Up p q s).rd (CAN_STAT_STATE p) = 5 ∧ mfind (usb4Up p q s).sv.att p = some q := by
  have hstate : groveField (CAN_STAT_STATE p) := linkFields p _ (by simp)
  have hset : keeps (CAN_STAT_STATE p) (usb4Shown p q s) (persDirs p q (cellsUp p q.rate (usb4Shown p q s))) :=
    (keeps_of_above hstate (onlyKeys_cellsUp ..)).trans (keeps_of_above hstate (onlyKeys_persDirs ..))
  unfold usb4Up
  generalize persDirs p q _ = t at hset
  have hatt : keeps (CAN_STAT_STATE p) t (setPartner p q t) := .of_regs (.refl _ t) rfl
  exact ⟨((hset.trans hatt).trans (keeps_attachEvent hstate _)).rd.trans (state_usb4Shown p q s), mfind_att_attachPartner p q t⟩

theorem linkUp_usb4 (p : CanPort) (hdown : s.rd PST_PSSTAT_STATE ≠ 2 ∨ p.val ∉ s.ps.downed) (hb : retrainBlocked s p.val = false) (hu : q.usb4 = true)
    (he : (s.can p.val).entered = 2) :
    (usb4Rate q.rate = true → ∃ t, exec (.linkUp ⟨p.val, by omega⟩ q) s = .next t ∧ t.rd (CAN_STAT_STATE p.val) = 5 ∧
      mfind t.sv.att p.val = some { q with txMbps := usb4Mbps q.txMbps, rxMbps := usb4Mbps q.rxMbps }) ∧
    (usb4Rate q.rate = false → ∃ t, exec (.linkUp ⟨p.val, by omega⟩ q) s = .next t ∧ (t.can p.val).entered = 0 ∧ partsOnly [.cn] s t) := by
  have hexec : exec (.linkUp ⟨p.val, by omega⟩ q) s = execLinkUp ⟨p.val, by omega⟩ q s := rfl
  rw [execLinkUp, if_neg (notDowned (p := ⟨p.val, by omega⟩) hdown), if_neg (ne_true_of_eq_false hb), if_pos hu] at hexec
  refine ⟨fun hr => ?_, fun hr => ?_⟩
  · rw [if_pos ⟨p.isLt, he, hr⟩] at hexec
    exact ⟨_, hexec, usb4Up_effects p.val (usb4Partner q) s⟩
  · rw [if_neg (by simp [hr]), if_pos ⟨p.isLt, he⟩] at hexec
    exact ⟨_, hexec, congrArg Can.entered (State.can_setCan_same ..), partsOnly_of_parts fun _ hk => State_setCan_frame hk (.refl _ s)⟩

/-- A standard link whose port has gone down, before its cells count it. -/
def standardLost (p : Nat) (s : State) : State :=
  if s.rd (ADP_STAT_PERS p) = 1 ∧ s.rd (ADP_STAT_STATE p) ≠ 4 then surpriseRemoval p s
  else if linkEvents p || s.rd (CAN_STAT_STATE p) = 5 then attachEvent (portDown p 1 s) else portDown p 1 s

/-- Unsupported Request completions for what a lost link leaves outstanding (R319). -/
def turnedAway (p : Nat) (s : State) : State :=
  forAll (s.adp p).outstanding (fun r u => (ingressUnit p ((upTunnel s p 1 0).getD 0) 0 (leadLine u) (urCompletion r) u).inc (ADP_PCIE_URSYN p)) s

/-- The port-down of a surprise removal. -/
def surprised (p : Nat) (s : State) : State :=
  attachEvent (portDown p 1 (raise (portGrove p) 20 ((turnedAway p s).setAdp p { s.adp p with outstanding := [] })))

theorem surpriseRemoval_eq (p : Nat) (s : State) : surpriseRemoval p s = (surprised p s).setAdp p { (surprised p s).adp p with dpc := true } := rfl

theorem att_surpriseRemoval (p : Nat) (s : State) : mfind (surpriseRemoval p s).sv.att p = none := by
  show mfind (surprised p s).sv.att p = none
  rw [surprised, att_attachEvent, mfind_att_portDown]

theorem att_standardLost (p : Nat) (s : State) : mfind (standardLost p s).sv.att p = none := by
  unfold standardLost
  split
  · exact att_surpriseRemoval p s
  · split
    · rw [att_attachEvent, mfind_att_portDown]
    · rw [mfind_att_portDown]

/-- The link-down that a cell counts: the third in succession leads to its self-check (R261, R263). -/
def downCounted (n c : Nat) (u : State) : State :=
  if n < 3 then u.wr (LC_RTR_CONSEC c) (min n 3) else raise (32 + c) 3 ((u.wr (LC_RTR_CONSEC c) (min n 3)).wr (LC_STAT_STATE c) 8)

/-- A lost link that its adapter has counted. -/
def lossNoted (p : Nat) (s : State) : State :=
  (standardLost p s).setAdp p { (standardLost p s).adp p with downs := if (s.adp p).downs + 1 < 3 then (s.adp p).downs + 1 else 0 }

theorem lossNoted_effects (p : Nat) (s : State) : mfind (lossNoted p s).sv.att p = none ∧
    ((lossNoted p s).adp p).downs = (if (s.adp p).downs + 1 < 3 then (s.adp p).downs + 1 else 0) :=
  ⟨att_standardLost p s, congrArg Adapter.downs (State.adp_setAdp_same ..)⟩

theorem linkDown_eq (p : Nat) (s : State) : linkDown p s =
    forAll ((groupCells (lossNoted p s) p).filter fun c => !((lossNoted p s).lane c).faulted) (downCounted ((s.adp p).downs + 1)) (lossNoted p s) := rfl

theorem downsCounted_frame {k : Nat} (hk : Nat.testBit 130 k = false) (l : List Nat) (n : Nat) (t : State) : Frame k t (forAll l (downCounted n) t) := by
  refine forAll_frame (fun c u h => ?_) (.refl k t)
  exact Frame.ite (State_wr_frame (testBit_sub rfl hk) h) (raise_frame hk (State_wr_frame (testBit_sub rfl hk) (State_wr_frame (testBit_sub rfl hk) h)))

theorem exec_linkDown (hup : portUp s p.val = true) (hp : 8 ≤ p.val ∨ canActive s p.val = false) : exec (.linkDown p) s = .next (linkDown p.val s) := by
  have hexec : exec (.linkDown p) s = execLinkDown p s := rfl
  rw [hexec, execLinkDown]
  rw [if_pos (by simpa [hup] using hp)]

theorem linkDown_effects (p : Nat) (s : State) : mfind (linkDown p s).sv.att p = none ∧
    ((linkDown p s).adp p).downs = (if (s.adp p).downs + 1 < 3 then (s.adp p).downs + 1 else 0) := by
  obtain ⟨hsv, had⟩ := lossNoted_effects p s
  rw [linkDown_eq, ← had]
  generalize lossNoted p s = t at hsv had
  generalize List.filter _ _ = l
  generalize (s.adp p).downs + 1 = n
  have hfsv : (forAll l (downCounted n) t).sv = t.sv := downsCounted_frame (k := 9) rfl l n t
  have hfad : (forAll l (downCounted n) t).ad = t.ad := downsCounted_frame (k := 15) rfl l n t
  exact ⟨by rw [hfsv, hsv], by rw [State.adp, hfad, ← State.adp]⟩

end

/-! ### The standard's own recovery (R263) -/

/-- A partner at a new rate or width. -/
def partnerAt (p : Nat) (r : Partner) (s : State) : State := { s with sv := { s.sv with att := mins s.sv.att p r } }

theorem reduceRate_cases (p num den : Nat) (s : State) : reduceRate p num den s = s ∨ ∃ r : Partner, reduceRate p num den s = (partnerAt p r s).wr (GRV_CALST_BT p) (byteTime r.txMbps) := by
  unfold reduceRate
  split
  · exact .inl rfl
  · exact .inr ⟨_, rfl⟩

theorem keeps_reduceRate {f : Fld} {p : Nat} (hf : f.key ≠ (GRV_CALST_BT p).key) (num den : Nat) (s : State) : keeps f s (reduceRate p num den s) := by
  rcases reduceRate_cases p num den s with h | ⟨r, h⟩
  · rw [h]
    exact .refl f s
  · have hset : keeps f s (partnerAt p r s) := .of_regs (.refl f s) rfl
    rw [h]
    exact hset.wr_of hf _

theorem narrowTo_cases (p w : Nat) (s : State) : ∃ u, narrowTo p w s = structuralEvent u ∧
    u.regs = (reduceRate p w (max 1 (s.rd (ADP_STAT_WIDTH p))) (s.wr (ADP_STAT_WIDTH p) w)).regs := by
  unfold narrowTo
  dsimp only
  generalize reduceRate p w _ _ = t
  refine ⟨_, rfl, ?_⟩
  split
  · rfl
  · rfl

theorem link_ne_byteTime (p : Nat) : (ADP_STAT_STATE p).key ≠ (GRV_CALST_BT p).key ∧ (ADP_STAT_WIDTH p).key ≠ (GRV_CALST_BT p).key ∧
    (ADP_STAT_STATE p).key ≠ (ADP_STAT_WIDTH p).key := by
  have := portPlace_lt p
  simp only [ADP_STAT_STATE, ADP_STAT_WIDTH, GRV_CALST_BT, fld, portReg]
  omega

theorem keeps_structuralEvent {f : Fld} (hf : groveField f) (s : State) : keeps f s (structuralEvent s) :=
  keeps_of_keys (onlyKeys_structuralEvent s) (not_attachKeys_of_groveField hf)

theorem narrowTo_effects {p w : Nat} (hw : w < 8) (s : State) : (narrowTo p w s).rd (ADP_STAT_WIDTH p) = w ∧ keeps (ADP_STAT_STATE p) s (narrowTo p w s) ∧
    (narrowTo p w s).ad = s.ad := by
  obtain ⟨hstate, hwidth, hne⟩ := link_ne_byteTime p
  obtain ⟨u, hu, hregs⟩ := narrowTo_cases p w s
  have had : (narrowTo p w s).ad = s.ad := narrowTo_frame (κ := 15) rfl (.refl 15 s)
  refine ⟨?_, ?_, had⟩
  · rw [hu]
    have hkeep : keeps (ADP_STAT_WIDTH p) (s.wr (ADP_STAT_WIDTH p) w) (structuralEvent u) :=
      ((keeps_reduceRate hwidth w (max 1 (s.rd (ADP_STAT_WIDTH p))) _).of_regs hregs).trans (keeps_structuralEvent (linkFields p _ (by simp)) u)
    exact hkeep.rd.trans (rd_wr_of_lt _ _ _ hw)
  · rw [hu]
    exact ((((keeps.refl _ s).wr_of hne w).trans (keeps_reduceRate hstate w (max 1 (s.rd (ADP_STAT_WIDTH p))) _)).of_regs hregs).trans
      (keeps_structuralEvent (linkFields p _ (by simp)) u)

theorem downs_ejectPress (p : Nat) (s : State) : ((ejectPress p s).adp p).downs = (s.adp p).downs := by
  unfold ejectPress
  dsimp only
  split
  · rfl
  · split
    · rw [State.adp_setAdp_same]
    · have hraise (t : State) : (raise (portGrove p) 19 t).adp p = t.adp p := by
        rw [State.adp, raise_frame (κ := 15) (s := t) rfl (.refl 15 t), ← State.adp]
      rw [hraise, State.adp_emit, State.adp_setAdp_same]

theorem downs_pressReported (p : Nat) (s : State) : ((pressReported p s).adp p).downs = (s.adp p).downs := by
  unfold pressReported
  split
  · exact downs_ejectPress p s
  · rfl

/-- The link goes on, on the lanes that its recovery has left. -/
def recoveredOn (p w : Nat) (s : State) : State :=
  if 1 ≤ w ∧ w < s.rd (ADP_STAT_WIDTH p) then narrowTo p w (s.setAdp p { s.adp p with downs := 0 }) else s.setAdp p { s.adp p with downs := 0 }

theorem recoveredOn_effects {p w : Nat} (hw : w < 8) (s : State) : keeps (ADP_STAT_STATE p) s (recoveredOn p w s) ∧ ((recoveredOn p w s).adp p).downs = 0 ∧
    (recoveredOn p w s).rd (ADP_STAT_WIDTH p) = (if 1 ≤ w ∧ w < s.rd (ADP_STAT_WIDTH p) then w else s.rd (ADP_STAT_WIDTH p)) := by
  have hdowns : ((s.setAdp p { s.adp p with downs := 0 }).adp p).downs = 0 := congrArg Adapter.downs (State.adp_setAdp_same ..)
  have hset (f : Fld) : keeps f s (s.setAdp p { s.adp p with downs := 0 }) := .of_regs (.refl f s) rfl
  unfold recoveredOn
  generalize s.setAdp p { s.adp p with downs := 0 } = t at hdowns hset
  split
  · obtain ⟨hwidth, hstate, had⟩ := narrowTo_effects (p := p) hw t
    exact ⟨(hset _).trans hstate, by rw [State.adp, had, ← State.adp, hdowns], hwidth⟩
  · exact ⟨hset _, hdowns, (hset _).rd⟩

/-- A port that was recovering is up. -/
def recoveryOver (p : Nat) (s t : State) : State := if s.rd (ADP_STAT_STATE p) = 6 then t.wr (ADP_STAT_STATE p) 2 else t

theorem recoveryOver_effects {p : Nat} {s t : State} (h : keeps (ADP_STAT_STATE p) s t) :
    (recoveryOver p s t).rd (ADP_STAT_STATE p) = (if s.rd (ADP_STAT_STATE p) = 6 then 2 else s.rd (ADP_STAT_STATE p)) ∧
    (recoveryOver p s t).rd (ADP_STAT_WIDTH p) = t.rd (ADP_STAT_WIDTH p) ∧ (recoveryOver p s t).ad = t.ad := by
  unfold recoveryOver
  split
  · exact ⟨rd_wr_of_lt _ _ _ (show 2 < 2 ^ 4 by decide), State.rd_wr_ne _ _ _ _ (link_ne_byteTime p).2.2.symm, rfl⟩
  · exact ⟨h.rd, rfl, rfl⟩

theorem exec_standardRecovery {p : Port} {w : Fin 8} {s : State} (hup : portUp s p.val = true) (hp : 8 ≤ p.val ∨ canActive s p.val = false) :
    exec (.standardRecovery ⟨p, w⟩) s = .next (pressReported p.val (recoveryOver p.val s (recoveredOn p.val w.val s))) := by
  have hexec : exec (.standardRecovery ⟨p, w⟩) s = execStandardRecovery ⟨p, w⟩ s := rfl
  have hturn : ¬ ((!portUp s p.val) = true ∨ (p.val < 8 ∧ canActive s p.val = true)) := by
    rintro (h | h)
    · simp [hup] at h
    · exact noCanopyLink hp h
  have hrd : (recoveredOn p.val w.val s).rd (ADP_STAT_STATE p.val) = s.rd (ADP_STAT_STATE p.val) := (recoveredOn_effects w.isLt s).1
  rw [execStandardRecovery, if_neg hturn] at hexec
  rw [hexec, recoveryOver, ← hrd]
  rfl

theorem standardRecovery_effects {p : Port} {w : Fin 8} {s : State} (hup : portUp s p.val = true) (hp : 8 ≤ p.val ∨ canActive s p.val = false) :
    ∃ t, exec (.standardRecovery ⟨p, w⟩) s = .next t ∧ (t.adp p.val).downs = 0 ∧
      t.rd (ADP_STAT_STATE p.val) = (if s.rd (ADP_STAT_STATE p.val) = 6 then 2 else s.rd (ADP_STAT_STATE p.val)) ∧
      t.rd (ADP_STAT_WIDTH p.val) = (if 1 ≤ w.val ∧ w.val < s.rd (ADP_STAT_WIDTH p.val) then w.val else s.rd (ADP_STAT_WIDTH p.val)) ∧
      partsOnly [.regs, .sent, .mg, .sv, .ad] s t := by
  have hexec := exec_standardRecovery (w := w) hup hp
  obtain ⟨hstate, hdowns, hwidth⟩ := recoveredOn_effects (p := p.val) w.isLt s
  obtain ⟨hst, hwd, had⟩ := recoveryOver_effects hstate
  have hkeep := (pressReported_effects p.val (recoveryOver p.val s (recoveredOn p.val w.val s))).1
  refine ⟨_, hexec, ?_, ?_, ?_, partsOnly_of_exec hexec (List.Subset.refl _)⟩
  · rw [downs_pressReported, State.adp, had, ← State.adp, hdowns]
  · rw [(hkeep _ (linkFields p.val _ (by simp))).rd, hst]
  · rw [(hkeep _ (linkFields p.val _ (by simp))).rd, hwd, hwidth]

/-! ### HPD (R314, R22) -/

/-- A field outside the tunnel table that is no leaf's, nor what a unit's arrival wakes or counts at a port. -/
def apartFromUnits (f : Fld) : Prop := f.key < 0x2000000 ∧ ∀ q, f.key ≠ (ADP_STAT_STATE q).key ∧ f.key ≠ (GRV_FLST_OVRUN q).key

theorem apartFromUnits_hpd (p : Nat) : apartFromUnits (ADP_DP_HPD p) := by
  have := portPlace_lt p
  have := portGrove_lt p
  refine ⟨?_, fun q => ?_⟩
  · simp only [ADP_DP_HPD, fld, portReg]
    omega
  · have := portPlace_lt q
    have := portGrove_lt q
    simp only [ADP_DP_HPD, ADP_STAT_STATE, GRV_FLST_OVRUN, fld, portReg]
    omega

theorem entry_ge (n : Nat) : ∀ f ∈ [TT_SEQ_INSEQ n, TT_SEGIN_COUNT n, TT_DISC_GENDIS n], 0x2000000 ≤ f.key := by
  simp only [List.forall_mem_cons, List.not_mem_nil, false_implies, implies_true, and_true, TT_SEQ_INSEQ, TT_SEGIN_COUNT, TT_DISC_GENDIS, fld]
  omega

section
variable {f : Fld} (hf : apartFromUnits f)
include hf

theorem ne_entry (n : Nat) {g : Fld} (hg : g ∈ [TT_SEQ_INSEQ n, TT_SEGIN_COUNT n, TT_DISC_GENDIS n]) : f.key ≠ g.key :=
  fun e => absurd (entry_ge n g hg) (by have := hf.1; omega)

theorem keeps_admitSeg (n pre : Nat) (g : Seg) (s : State) : keeps f s (admitSeg n pre g s) := by
  have hmark : keeps f s (if isBulk s n && !s.on (TT_STATE_CASC n) then meter n g.payload.length pre s
      else (if s.on (TT_STATE_CASC n) then g.col else 0, s)).2 := by
    split
    · exact .of_regs (.refl f s) (regs_meter ..)
    · exact .refl f s
  unfold admitSeg
  dsimp only
  generalize (if isBulk s n && !s.on (TT_STATE_CASC n) then meter n g.payload.length pre s
      else (if s.on (TT_STATE_CASC n) then g.col else 0, s)) = x at hmark
  generalize hy : State.setIngress _ _ _ = t
  have ht : keeps f s t := hmark.of_regs (by rw [← hy]; rfl)
  exact (ht.wr_of (ne_entry hf n (by simp)) _).wr_of (ne_entry hf n (by simp)) _

theorem keeps_ingressSeg (p n pre : Nat) (g : Seg) (s : State) : keeps f s (ingressSeg p n pre g s) := by
  obtain ⟨hstate, hover⟩ := hf.2 p
  have hwake : keeps f s (wakeLink p s) := .ite ((keeps.refl f s).wr_of hstate _) (.refl f s)
  unfold ingressSeg
  dsimp only
  generalize wakeLink p s = t at hwake
  exact .ite hwake (.ite (hwake.wr_of (ne_entry hf n (by simp)) _) (.ite (hwake.wr_of hover _) (hwake.trans (keeps_admitSeg hf n pre g t))))

theorem keeps_pipeUpstream (d : Nat) (data : Bytes) (s : State) : keeps f s (pipeUpstream d data s) := by
  unfold pipeUpstream
  split
  · exact .refl f s
  · exact .ite (.refl f s) (.forAll (.refl f s) fun g _ u => keeps_ingressSeg hf _ _ _ _ u)

end

/-- The change travels upstream. -/
def hpdTold (p : Nat) (s : State) : State := match pipeOfPort s p with | none => s | some d => pipeUpstream d [0x82] s

theorem keeps_hpdTold {f : Fld} (hf : apartFromUnits f) (p : Nat) (s : State) : keeps f s (hpdTold p s) := by
  unfold hpdTold
  split
  · exact .refl f s
  · exact keeps_pipeUpstream hf ..

/-- Whether a sink takes compressed streams. -/
def sinkDsc : Option Partner → Nat
  | none => 0
  | some q => b2n (q.reqs.any (·.dscOk))

/-- A sink that has shown itself, with what it takes of compression. -/
def sinkShown (p : Nat) (partner : Option Partner) (s t : State) : State :=
  t.wrs [(ADP_STAT_STATE p, 1), (ADP_STAT_PERS p, persOf s p), (ADP_DP_SINKDSC p, sinkDsc partner)]

theorem hpd_ne (p : Nat) : ∀ f ∈ [ADP_STAT_STATE p, ADP_STAT_PERS p, ADP_DP_SINKDSC p], (ADP_DP_HPD p).key ≠ f.key := by
  simp only [List.forall_mem_cons, List.not_mem_nil, false_implies, implies_true, and_true, ADP_DP_HPD, ADP_STAT_STATE, ADP_STAT_PERS, ADP_DP_SINKDSC, fld, portReg]
  omega

theorem sinkShown_effects (p : Nat) (partner : Option Partner) (s t : State) : (sinkShown p partner s t).rd (ADP_STAT_STATE p) = 1 ∧
    keeps (ADP_DP_HPD p) t (sinkShown p partner s t) := by
  refine ⟨?_, (keeps.refl _ t).wrs_of ?_⟩
  · rw [sinkShown, State.wrs_cons, State.rd_wrs_ne]
    · exact rd_wr_of_lt _ _ _ (show 1 < 2 ^ 4 by decide)
    · simp only [List.forall_mem_cons, List.not_mem_nil, false_implies, implies_true, and_true, ADP_STAT_STATE, ADP_STAT_PERS, ADP_DP_SINKDSC, fld, portReg]
      omega
  · have h := hpd_ne p
    simp only [List.forall_mem_cons, List.not_mem_nil, false_implies, implies_true, and_true] at h ⊢
    exact h

/-- The attach that a sink's appearance is. -/
def sinkAttached (p : Nat) (partner : Option Partner) (t : State) : State := match partner with | none => attachEvent t | some q => attachPartner p q t

theorem sinkAttached_effects (p : Nat) (partner : Option Partner) (t : State) : (∀ f, groveField f → keeps f t (sinkAttached p partner t)) ∧
    ∀ r, partner = some r → mfind (sinkAttached p partner t).sv.att p = partner := by
  unfold sinkAttached
  split
  · exact ⟨fun f hf => keeps_attachEvent hf t, fun r h => by cases h⟩
  · next q =>
    have hset (f : Fld) : keeps f t (setPartner p q t) := .of_regs (.refl f t) rfl
    exact ⟨fun f hf => (hset f).trans (keeps_attachEvent hf _), fun r _ => mfind_att_attachPartner p q t⟩

section
variable {p : Port} {q : Option Partner} {s : State}

theorem exec_hpdChange_high (hp : persDp (persOf s p.val) = true) (hd : groveDark s (portGrove p.val) = false) (h3 : s.rd PST_PSSTAT_STATE < 3) :
    exec (.hpdChange p true q) s = .next (sinkAttached p.val q (sinkShown p.val q s (hpdTold p.val (s.setB (ADP_DP_HPD p.val) true)))) := by
  have hexec : exec (.hpdChange p true q) s = execHpdChange p true q s := rfl
  unfold execHpdChange at hexec
  dsimp only at hexec
  rw [if_neg (by simp [hp, hd]), if_neg (Nat.not_le.2 h3), if_pos rfl] at hexec
  rw [hexec]
  cases q <;> rfl

theorem hpd_rises (hp : persDp (persOf s p.val) = true) (hd : groveDark s (portGrove p.val) = false) (h3 : s.rd PST_PSSTAT_STATE < 3) :
    ∃ t, exec (.hpdChange p true q) s = .next t ∧ t.rd (ADP_DP_HPD p.val) = 1 ∧ t.rd (ADP_STAT_STATE p.val) = 1 ∧ ∀ r, q = some r → mfind t.sv.att p.val = q := by
  refine ⟨_, exec_hpdChange_high hp hd h3, ?_⟩
  have hhigh : (s.setB (ADP_DP_HPD p.val) true).rd (ADP_DP_HPD p.val) = 1 := rd_wr_of_lt _ _ _ (show b2n true < 2 ^ 1 by decide)
  have htold := keeps_hpdTold (apartFromUnits_hpd p.val) p.val (s.setB (ADP_DP_HPD p.val) true)
  generalize hpdTold p.val _ = u at htold
  obtain ⟨hstate, hhpd⟩ := sinkShown_effects p.val q s u
  obtain ⟨hkeep, hatt⟩ := sinkAttached_effects p.val q (sinkShown p.val q s u)
  have hhpd' := (htold.trans hhpd).trans (hkeep (ADP_DP_HPD p.val) (linkFields p.val _ (by simp)))
  exact ⟨hhpd'.rd.trans hhigh, (hkeep (ADP_STAT_STATE p.val) (linkFields p.val _ (by simp))).rd.trans hstate, hatt⟩

/-- A port whose sink is gone: down, or reset where it was not up. -/
def sinkDown (p : Nat) (s t : State) : State :=
  if portUp s p then portDown p 1 t else (portReset p (dropTunnels p 1 t)).wr RST_CAUSE_PORT (s.rd RST_CAUSE_PORT)

theorem hpd_not_portDownKeys (p : Nat) (cs : List Nat) : ¬ portDownKeys p cs (ADP_DP_HPD p).key := by
  have hplace := portPlace_lt p
  have hfield : groveField (ADP_DP_HPD p) := linkFields p _ (by simp)
  obtain ⟨hlo, hhi, hleaf⟩ := hfield
  refine fun h => not_portDownKeys_of_grove cs ?_ ?_ ?_ ?_ hleaf hlo hhi (.inl h)
  · simp only [portReach, List.forall_mem_cons, List.not_mem_nil, false_implies, implies_true, and_true, ADP_DP_HPD, GRV_FLOW_STALL, GRV_FLOW_HEAD, GRV_FLOW_ICL,
      GRV_FLST_EGHELD, GRV_FLST_INHELD, GRV_FLST_TIMER, GRV_CALST_BT, ADP_STAT_STATE, ADP_STAT_PERS, ADP_STAT_RATE, ADP_STAT_WIDTH, ADP_STAT_SPEED, ADP_PCIE_EJREQ,
      ADP_PCIE_PRESENT, ADP_PCIE_DLLACT, ADP_PCIE_PIND, ADP_DP_SINKDSC, fld, portReg]
    omega
  · simp only [canReach, List.forall_mem_cons, List.not_mem_nil, false_implies, implies_true, and_true, ADP_DP_HPD, CAN_CTL_RETRAIN, CAN_STAT_STATE, CAN_STAT_MODE,
      CAN_STAT_ROLE, CAN_STAT_PKIND, CAN_STAT_TXEP, CAN_STAT_RXEP, CAN_ERR_UNCORR, CAN_ERR_RNAKTX, CAN_ERR_RNAKRX, CAN_ERR_CSLOT, CAN_ERR2_EARLY, TIM_LNKOFF_OFF,
      TIM_LNKDLY_DLY, TIM_LNK_SEQ, TIM_LNK_MISSED, TIM_LNK_EXCH, fld, portReg]
    omega
  · simp only [ADP_DP_HPD, CAN_PEER_V, fld, portReg]
    omega
  · simp only [ADP_DP_HPD, CAN_THASH_V, fld, portReg]
    omega

theorem hpd_sinkDown (p : Nat) (s t : State) : keeps (ADP_DP_HPD p) t (sinkDown p s t) := by
  unfold sinkDown
  split
  · exact keeps_of_keys (onlyKeys_portDown p 1 t) (hpd_not_portDownKeys p _)
  · have hdrop : onlyKeys (portDownKeys p (groupCells (dropTunnels p 1 t) p)) t (dropTunnels p 1 t) := onlyKeys_dropTunnels (fun _ => .inl) p 1 t
    refine (keeps_of_keys (hdrop.trans (onlyKeys_portReset p _)) (hpd_not_portDownKeys p _)).wr_of ?_ _
    have := portPlace_lt p
    simp only [ADP_DP_HPD, RST_CAUSE_PORT, fld, portReg]
    omega

/-- The detach, after which the port may train at once. -/
def sinkDetached (p : Nat) (t : State) : State :=
  let u := (detachPartner p t).setAdp p { t.adp p with noStep0 := false }
  u.setEg p { u.eg p with wait := 1, waiting := false }

theorem sinkDetached_effects (p : Nat) (t : State) : keeps (ADP_DP_HPD p) t (sinkDetached p t) ∧ mfind (sinkDetached p t).sv.att p = none ∧
    ((sinkDetached p t).eg p).waiting = false ∧ ((sinkDetached p t).eg p).wait = 1 := by
  have hset : keeps (ADP_DP_HPD p) t (t.dropAtt p) := .of_regs (.refl _ t) rfl
  have hatt : mfind (detachPartner p t).sv.att p = none := by
    rw [detachPartner, att_attachEvent, mfind_mdel, if_pos rfl]
  have hdetach : keeps (ADP_DP_HPD p) t (detachPartner p t) := hset.trans (keeps_attachEvent (linkFields p _ (by simp)) _)
  unfold sinkDetached
  generalize detachPartner p t = u at hatt hdetach
  exact ⟨hdetach.of_regs rfl, hatt, congrArg Egress.waiting (State.eg_setEg_same ..), congrArg Egress.wait (State.eg_setEg_same ..)⟩

theorem exec_hpdChange_low (hp : persDp (persOf s p.val) = true) (hd : groveDark s (portGrove p.val) = false) (h3 : s.rd PST_PSSTAT_STATE < 3) :
    exec (.hpdChange p false q) s = .next (sinkDetached p.val (sinkDown p.val s (hpdTold p.val (s.setB (ADP_DP_HPD p.val) false)))) := by
  have hexec : exec (.hpdChange p false q) s = execHpdChange p false q s := rfl
  unfold execHpdChange at hexec
  dsimp only at hexec
  rw [if_neg (by simp [hp, hd]), if_neg (Nat.not_le.2 h3), if_neg (by decide)] at hexec
  exact hexec

theorem hpd_falls (hp : persDp (persOf s p.val) = true) (hd : groveDark s (portGrove p.val) = false) (h3 : s.rd PST_PSSTAT_STATE < 3) :
    ∃ t, exec (.hpdChange p false q) s = .next t ∧ t.rd (ADP_DP_HPD p.val) = 0 ∧ mfind t.sv.att p.val = none ∧ (t.eg p.val).waiting = false ∧ (t.eg p.val).wait = 1 := by
  refine ⟨_, exec_hpdChange_low hp hd h3, ?_⟩
  have hlow : (s.setB (ADP_DP_HPD p.val) false).rd (ADP_DP_HPD p.val) = 0 := rd_wr_of_lt _ _ _ (show b2n false < 2 ^ 1 by decide)
  have htold := keeps_hpdTold (apartFromUnits_hpd p.val) p.val (s.setB (ADP_DP_HPD p.val) false)
  generalize hpdTold p.val _ = u at htold
  obtain ⟨hhpd, hrest⟩ := sinkDetached_effects p.val (sinkDown p.val s u)
  exact ⟨((htold.trans (hpd_sinkDown p.val s u)).trans hhpd).rd.trans hlow, hrest⟩

end

/-! ### The training of an output (R313) -/

/-- The attempts that a port can make. -/
def triesOf (s : State) (p : Nat) (l : List DpTry) : List DpTry :=
  l.filter fun x => x.lanes ≤ 2 * ((groupCells s p).filter fun c => !(s.lane c).faulted && !(altUsb s p && !isY c)).length &&
    [1, 2, 4].contains x.lanes && rateUsable s p x.rate

/-- The training and its fallbacks, counted. -/
def trainCounted (p n : Nat) (s : State) : State := forAll (List.range n) (fun _ u => u.inc (ADP_DP_FALLBK p)) (s.inc (ADP_DP_TRAINS p))

theorem onlyWrites_trainCounted (p n : Nat) (s : State) : onlyWrites [ADP_DP_TRAINS p, ADP_DP_FALLBK p] [] s (trainCounted p n s) := by
  have hinc : onlyWrites [ADP_DP_TRAINS p, ADP_DP_FALLBK p] [] s (s.inc (ADP_DP_TRAINS p)) := (onlyWrites_inc _ s).mono (by simp) (by simp)
  exact forAll_induction (P := onlyWrites [ADP_DP_TRAINS p, ADP_DP_FALLBK p] [] s) hinc fun _ _ u hu => hu.trans ((onlyWrites_inc _ u).mono (by simp) (by simp))

/-- An output that trains at a rate and width. -/
def outputShown (p : Nat) (g : DpTry) (s t : State) : State :=
  t.wrs [(ADP_STAT_STATE p, 2), (ADP_STAT_PERS p, persOf s p), (ADP_STAT_RATE p, g.rate), (ADP_STAT_WIDTH p, g.lanes), (GRV_CALST_BT p, 417)]

theorem outputShown_effects (p : Nat) (g : DpTry) (s t : State) : (outputShown p g s t).rd (ADP_STAT_STATE p) = 2 ∧
    (outputShown p g s t).rd (ADP_STAT_RATE p) = g.rate % 2 ^ (ADP_STAT_RATE p).w ∧ (outputShown p g s t).rd (ADP_STAT_WIDTH p) = g.lanes % 2 ^ (ADP_STAT_WIDTH p).w := by
  have hplace := portPlace_lt p
  have hkey : ∀ f ∈ [ADP_STAT_PERS p, ADP_STAT_RATE p, ADP_STAT_WIDTH p, GRV_CALST_BT p], (ADP_STAT_STATE p).key ≠ f.key := by
    simp only [List.forall_mem_cons, List.not_mem_nil, false_implies, implies_true, and_true, ADP_STAT_STATE, ADP_STAT_PERS, ADP_STAT_RATE, ADP_STAT_WIDTH,
      GRV_CALST_BT, fld, portReg]
    omega
  have hrate : ∀ f ∈ [ADP_STAT_WIDTH p, GRV_CALST_BT p], (ADP_STAT_RATE p).key ≠ f.key := by
    simp only [List.forall_mem_cons, List.not_mem_nil, false_implies, implies_true, and_true, ADP_STAT_RATE, ADP_STAT_WIDTH, GRV_CALST_BT, fld, portReg]
    omega
  have hwidth := (link_ne_byteTime p).2.1
  simp only [List.forall_mem_cons, List.not_mem_nil, false_implies, implies_true, and_true] at hkey hrate
  simp only [outputShown, State.wrs_cons, State.wrs_nil]
  refine ⟨?_, ?_, ?_⟩
  · rw [State.rd_wr_ne _ _ _ _ hkey.2.2.2, State.rd_wr_ne _ _ _ _ hkey.2.2.1, State.rd_wr_ne _ _ _ _ hkey.2.1, State.rd_wr_ne _ _ _ _ hkey.1]
    exact rd_wr_of_lt _ _ _ (show 2 < 2 ^ 4 by decide)
  · rw [State.rd_wr_ne _ _ _ _ hrate.2, State.rd_wr_ne _ _ _ _ hrate.1]
    exact State.rd_wr_same ..
  · rw [State.rd_wr_ne _ _ _ _ hwidth]
    exact State.rd_wr_same ..

/-- The pair directions of the partner attached. -/
def partnerDirs (p : Nat) (t : State) : State := match mfind t.sv.att p with | none => t | some q => persDirs p q t

theorem onlyKeys_partnerDirs (p : Nat) (t : State) : onlyKeys aboveGroves t (partnerDirs p t) := by
  unfold partnerDirs
  split
  · exact .refl _ t
  · exact onlyKeys_persDirs ..

theorem pipeTiming_above (d : Nat) : ∀ f ∈ [PIPE_HTIM_HTOTAL d, PIPE_HTIM_HACTIVE d, PIPE_VTIM_VTOTAL d, PIPE_VTIM_VACTIVE d, PIPE_PCLK_PCLK d, PIPE_FMT_FORMAT d,
    PIPE_FMT_DSCBPP d, PIPE_FMT_SLICEH d, PIPE_STAT_DSC d], aboveGroves f.key ∧ ¬ leafKey f.key := by
  simp only [List.forall_mem_cons, List.not_mem_nil, false_implies, implies_true, and_true, aboveGroves, leafKey, PIPE_HTIM_HTOTAL, PIPE_HTIM_HACTIVE,
    PIPE_VTIM_VTOTAL, PIPE_VTIM_VACTIVE, PIPE_PCLK_PCLK, PIPE_FMT_FORMAT, PIPE_FMT_DSCBPP, PIPE_FMT_SLICEH, PIPE_STAT_DSC, fld]
  omega

theorem onlyKeys_adoptAttrs (d : Nat) (a : Bytes) (s : State) : onlyKeys aboveGroves s (adoptAttrs d a s) := by
  have h := pipeTiming_above d
  simp only [List.forall_mem_cons, List.not_mem_nil, false_implies, implies_true, and_true] at h
  unfold adoptAttrs
  refine .of_regs (.wrs (.refl _ s) ?_) rfl
  simp only [List.forall_mem_cons, List.not_mem_nil, false_implies, implies_true, and_true]
  exact h

theorem onlyKeys_resumeHold (d : Nat) (s : State) : onlyKeys aboveGroves s (resumeHold d s) := by
  unfold resumeHold
  split
  · exact .ite (onlyKeys_adoptAttrs ..) (.refl _ s)
  · exact .refl _ s

/-- Whether an output's link is too slow for the stream of its pipe. -/
def tooSlow (d : Nat) (g : DpTry) (t : State) : Bool :=
  match (t.pipe d).attrs with | none => false | some a => decide (dpLaneMbps g.rate * g.lanes * 1000 < streamKbps a)

/-- The pipe of an output that has come up resumes. -/
def pipeResumed (p : Nat) (g : DpTry) (t : State) : State :=
  match pipeOfPort t p with
  | none => t
  | some d => (resumeHold d t).setAdp p { (resumeHold d t).adp p with noStep0 := tooSlow d g (resumeHold d t) }

theorem pipeResumed_none {p : Nat} {g : DpTry} {t : State} (h : pipeOfPort t p = none) : pipeResumed p g t = t := by rw [pipeResumed, h]

theorem pipeResumed_some {p d : Nat} {g : DpTry} {t : State} (h : pipeOfPort t p = some d) :
    pipeResumed p g t = (resumeHold d t).setAdp p { (resumeHold d t).adp p with noStep0 := tooSlow d g (resumeHold d t) } := by rw [pipeResumed, h]

theorem onlyKeys_pipeResumed (p : Nat) (g : DpTry) (t : State) : onlyKeys aboveGroves t (pipeResumed p g t) := by
  unfold pipeResumed
  split
  · exact .refl _ t
  · exact (onlyKeys_resumeHold _ t).setAdp

/-- An output whose training has succeeded. -/
def outputUp (p : Nat) (g : DpTry) (s t : State) : State :=
  pipeResumed p g (raise (portGrove p) 17 (applyPol p (partnerDirs p (cellsUp p g.rate (outputShown p g s t)))))

theorem outputUp_effects (p : Nat) (g : DpTry) (s t : State) : (outputUp p g s t).rd (ADP_STAT_STATE p) = 2 ∧
    (outputUp p g s t).rd (ADP_STAT_RATE p) = g.rate % 2 ^ (ADP_STAT_RATE p).w ∧ (outputUp p g s t).rd (ADP_STAT_WIDTH p) = g.lanes % 2 ^ (ADP_STAT_WIDTH p).w ∧
    leafSet (outputUp p g s t) (portGrove p) 17 := by
  obtain ⟨hstate, hrate, hwidth⟩ := outputShown_effects p g s t
  have hset {f : Fld} (hf : groveField f) : keeps f (outputShown p g s t) (raise (portGrove p) 17 (applyPol p (partnerDirs p (cellsUp p g.rate (outputShown p g s t))))) :=
    (((keeps_of_above hf (onlyKeys_cellsUp ..)).trans (keeps_of_above hf (onlyKeys_partnerDirs ..))).trans
      (keeps_of_above hf (onlyKeys_applyPol ..))).raise_of hf.2.2 _ _
  have hleaf : leafSet (raise (portGrove p) 17 (applyPol p (partnerDirs p (cellsUp p g.rate (outputShown p g s t))))) (portGrove p) 17 := leafSet_raise _ _ _ (by decide)
  unfold outputUp
  generalize raise (portGrove p) 17 _ = u at hset hleaf
  have hresume := onlyKeys_pipeResumed p g u
  have hkeep {f : Fld} (hf : groveField f) : (pipeResumed p g u).rd f = (outputShown p g s t).rd f := ((hset hf).trans (keeps_of_above hf hresume)).rd
  refine ⟨?_, ?_, ?_, hresume.2 _ _ hleaf⟩
  · rw [hkeep (linkFields p _ (by simp)), hstate]
  · rw [hkeep (linkFields p _ (by simp)), hrate]
  · rw [hkeep (linkFields p _ (by simp)), hwidth]

/-- How often a training falls back. -/
def fallsOf (m : List DpTry) : Nat := if (m.find? (·.ok)).isSome then (m.takeWhile fun t => !t.ok).length else (m.takeWhile fun t => !t.ok).length - 1

section
variable {p : Port} {l : List DpTry} {s : State}

/-- What a training comes to. -/
def trained (p : Nat) (m : List DpTry) (s : State) : State :=
  match m.find? (·.ok) with
  | none => raise (portGrove p) 22 ((trainCounted p (fallsOf m) s).wr (ADP_STAT_STATE p) 0)
  | some g => outputUp p g s (trainCounted p (fallsOf m) s)

theorem exec_dpLinkTraining (hp : persDp (persOf s p.val) = true) (hh : s.on (ADP_DP_HPD p.val) = true) (hd : groveDark s (portGrove p.val) = false)
    (h3 : s.rd PST_PSSTAT_STATE < 3) : exec (.dpLinkTraining p l) s = .next (trained p.val (triesOf s p.val l) s) := by
  have hturn : ¬ ((!persDp (persOf s p.val)) = true ∨ (!s.on (ADP_DP_HPD p.val)) = true ∨ groveDark s (portGrove p.val) = true ∨ 3 ≤ s.rd PST_PSSTAT_STATE) := by
    rintro (h | h | h | h)
    · simp [hp] at h
    · simp [hh] at h
    · simp [hd] at h
    · omega
  have hexec : exec (.dpLinkTraining p l) s = execDpLinkTraining p l s := rfl
  unfold execDpLinkTraining at hexec
  dsimp only at hexec
  rw [if_neg hturn] at hexec
  generalize hm : List.filter _ l = m at hexec
  have htries : triesOf s p.val l = m := hm
  rw [htries, hexec, trained, fallsOf]
  cases m.find? (·.ok) with
  | none => rfl
  | some g =>
    dsimp only
    split
    · next heq => exact congrArg _ (pipeResumed_none heq).symm
    · next heq => exact congrArg _ (pipeResumed_some heq).symm

/-- A training that succeeds, and one that does not (R313). -/
theorem dpLinkTraining_effects {m : List DpTry} (hp : persDp (persOf s p.val) = true) (hh : s.on (ADP_DP_HPD p.val) = true)
    (hd : groveDark s (portGrove p.val) = false) (h3 : s.rd PST_PSSTAT_STATE < 3) (hm : m = triesOf s p.val l) :
    (∀ g, m.find? (·.ok) = some g →
      ∃ t, exec (.dpLinkTraining p l) s = .next t ∧ t.rd (ADP_STAT_STATE p.val) = 2 ∧ t.rd (ADP_STAT_RATE p.val) = g.rate % 2 ^ (ADP_STAT_RATE p.val).w ∧
        t.rd (ADP_STAT_WIDTH p.val) = g.lanes % 2 ^ (ADP_STAT_WIDTH p.val).w ∧ leafSet t (portGrove p.val) 17 ∧ partsOnly [.regs, .mg, .ad, .pp] s t) ∧
    (m.find? (·.ok) = none →
      ∃ t, exec (.dpLinkTraining p l) s = .next t ∧ t.rd (ADP_STAT_STATE p.val) = 0 ∧ leafSet t (portGrove p.val) 22 ∧
        onlyWrites [ADP_DP_TRAINS p.val, ADP_DP_FALLBK p.val, ADP_STAT_STATE p.val, EVSTAT (portGrove p.val)] [.mg] s t) := by
  have hexec := exec_dpLinkTraining (l := l) hp hh hd h3
  rw [← hm] at hexec
  refine ⟨fun g hg => ?_, fun hnone => ?_⟩
  · rw [trained, hg] at hexec
    obtain ⟨hstate, hrate, hwidth, hleaf⟩ := outputUp_effects p.val g s (trainCounted p.val (fallsOf m) s)
    exact ⟨_, hexec, hstate, hrate, hwidth, hleaf, partsOnly_of_exec hexec (List.Subset.refl _)⟩
  · rw [trained, hnone] at hexec
    have hfield : groveField (ADP_STAT_STATE p.val) := linkFields p.val _ (by simp)
    refine ⟨_, hexec, ?_, leafSet_raise _ _ _ (by decide), ?_⟩
    · rw [rd_raise_ne _ _ _ _ (ne_evstat hfield.2.2 _)]
      exact rd_wr_of_lt _ _ _ (show 0 < 2 ^ 4 by decide)
    · have hcounted := (onlyWrites_trainCounted p.val (fallsOf m) s).mono (gs := [ADP_DP_TRAINS p.val, ADP_DP_FALLBK p.val, ADP_STAT_STATE p.val, EVSTAT (portGrove p.val)])
        (qs := [.mg]) (by simp) (by simp)
      exact (hcounted.trans ((onlyWrites_wr _ _ _).mono (by simp) (by simp))).trans ((onlyWrites_raise _ _ _).mono (by simp) (by simp))

end

/-! ### Slots (R318, R319) -/

section
variable {p : Port} {s : State}

theorem exec_ejectPress (h12 : 12 ≤ p.val) (h46 : p46Stopped s = false) (he : evtOf s (0x10 + (p.val - 12)) ≠ none) :
    exec (.ejectPress p) s = .next (ejectPress p.val s) := by
  have hexec : exec (.ejectPress p) s = execEjectPress p s := rfl
  rw [hexec, execEjectPress, if_pos ⟨h12, by simp [h46], Option.isSome_iff_ne_none.2 he⟩]

theorem ejectPress_reported (h12 : 12 ≤ p.val) (h46 : p46Stopped s = false) (he : evtOf s (0x10 + (p.val - 12)) ≠ none) (hp : s.rd (ADP_STAT_PERS p.val) = 1)
    (h1 : s.rd (ADP_STAT_STATE p.val) ≠ 1) (h6 : s.rd (ADP_STAT_STATE p.val) ≠ 6) :
    ∃ t, exec (.ejectPress p) s = .next t ∧ (t.adp p.val).attention = true ∧ leafSet t (portGrove p.val) 19 ∧
      onlyWrites [EVSTAT (portGrove p.val)] [.sent, .mg, .ad] s t := by
  have hpress : ejectPress p.val s = raise (portGrove p.val) 19
      ((s.setAdp p.val { s.adp p.val with attention := true, pressDue := false }).emit (.unit p.val "hot-plug interrupt" [])) := by
    rw [ejectPress, if_neg (by simp [hp]), if_neg (by simp [h1, h6])]
  have hraise (t : State) : (raise (portGrove p.val) 19 t).adp p.val = t.adp p.val := by
    rw [State.adp, raise_frame (κ := 15) (s := t) rfl (.refl 15 t), ← State.adp]
  refine ⟨_, (exec_ejectPress h12 h46 he).trans (congrArg _ hpress), ?_, leafSet_raise _ _ _ (by decide), ?_⟩
  · rw [hraise, State.adp_emit, State.adp_setAdp_same]
  · exact (((onlyWrites_setAdp [] _ _ _).mono (by simp) (by simp)).trans ((onlyWrites_emit [] _ _).mono (by simp) (by simp))).trans
      ((onlyWrites_raise _ _ _).mono (by simp) (by simp))

theorem ejectPress_waits (h12 : 12 ≤ p.val) (h46 : p46Stopped s = false) (he : evtOf s (0x10 + (p.val - 12)) ≠ none) (hp : s.rd (ADP_STAT_PERS p.val) = 1)
    (hst : s.rd (ADP_STAT_STATE p.val) = 1 ∨ s.rd (ADP_STAT_STATE p.val) = 6) :
    ∃ t, exec (.ejectPress p) s = .next t ∧ (t.adp p.val).pressDue = true ∧ partsOnly [.ad] s t := by
  have hpress : ejectPress p.val s = s.setAdp p.val { s.adp p.val with pressDue := true } := by
    rw [ejectPress, if_neg (by simp [hp]), if_pos hst]
  refine ⟨_, (exec_ejectPress h12 h46 he).trans (congrArg _ hpress), ?_, partsOnly_of_parts fun _ hk => State_setAdp_frame hk (.refl _ s)⟩
  rw [State.adp_setAdp_same]

/-- A slot's control switched off: the port is on its way out, or out where its link was down. -/
theorem slotPowerOff_effects (hp : persOf s p.val = 1) (h4 : s.rd (ADP_STAT_STATE p.val) ≠ 4) (h5 : s.rd (ADP_STAT_STATE p.val) ≠ 5) :
    ((slotPowerOff p.val s).adp p.val).slotOff = true ∧ (slotPowerOff p.val s).rd (ADP_STAT_STATE p.val) = (if s.rd (ADP_STAT_STATE p.val) = 0 then 5 else 4) ∧
      onlyWrites [ADP_STAT_STATE p.val] [.ad] s (slotPowerOff p.val s) := by
  have hwrites (x : Adapter) (v : Nat) : onlyWrites [ADP_STAT_STATE p.val] [.ad] s ((s.setAdp p.val x).wr (ADP_STAT_STATE p.val) v) :=
    ((onlyWrites_setAdp [] _ _ _).mono (by simp) (by simp)).trans ((onlyWrites_wr _ _ _).mono (by simp) (by simp))
  rw [slotPowerOff, if_neg (by simp [hp])]
  dsimp only
  split
  · next h => exact absurd h h4
  · next h => exact absurd h h5
  · next h =>
    rw [if_pos h]
    refine ⟨?_, rd_wr_of_lt _ _ _ (show 5 < 2 ^ 4 by decide), hwrites _ _⟩
    rw [State.adp_wr, State.adp_setAdp_same]
  · next h =>
    rw [if_neg h]
    refine ⟨?_, rd_wr_of_lt _ _ _ (show 4 < 2 ^ 4 by decide), hwrites _ _⟩
    rw [State.adp_wr, State.adp_setAdp_same]

/-- The port-down of a slot whose link is disabled. -/
def slotDown (p : Nat) (s : State) : State := attachEvent (portDown p 1 (s.setAdp p { s.adp p with ejected := true }))

theorem exec_ejectLinkDisable (h : s.rd (ADP_STAT_STATE p.val) = 4) :
    exec (.ejectLinkDisable p) s = .next (raise (portGrove p.val) 18 ((slotDown p.val s).wr (ADP_STAT_STATE p.val) 5)) := by
  have hexec : exec (.ejectLinkDisable p) s = execEjectLinkDisable p s := rfl
  rw [hexec, execEjectLinkDisable, if_neg (by simp [h]), slotDown]

theorem slotDown_effects (p : Nat) (s : State) : ((slotDown p s).adp p).ejected = true ∧ mfind (slotDown p s).sv.att p = none := by
  have hset : ((s.setAdp p { s.adp p with ejected := true }).adp p).ejected = true := congrArg Adapter.ejected (State.adp_setAdp_same ..)
  unfold slotDown
  generalize s.setAdp p _ = t at hset
  refine ⟨?_, by rw [att_attachEvent, mfind_att_portDown]⟩
  rw [State.adp, ad_attachEvent, ← State.adp, adp_portDown, if_pos rfl]
  exact hset

theorem ejectLinkDisable_effects (h : s.rd (ADP_STAT_STATE p.val) = 4) :
    ∃ t, exec (.ejectLinkDisable p) s = .next t ∧ t.rd (ADP_STAT_STATE p.val) = 5 ∧ (t.adp p.val).ejected = true ∧ mfind t.sv.att p.val = none ∧
      leafSet t (portGrove p.val) 18 := by
  obtain ⟨hej, hatt⟩ := slotDown_effects p.val s
  refine ⟨_, exec_ejectLinkDisable h, ?_⟩
  generalize slotDown p.val s = u at hej hatt
  have had : (raise (portGrove p.val) 18 (u.wr (ADP_STAT_STATE p.val) 5)).ad = u.ad := raise_frame (κ := 15) rfl (State_wr_frame rfl (.refl 15 u))
  have hsv : (raise (portGrove p.val) 18 (u.wr (ADP_STAT_STATE p.val) 5)).sv = u.sv := raise_frame (κ := 9) rfl (State_wr_frame rfl (.refl 9 u))
  have hfield : groveField (ADP_STAT_STATE p.val) := linkFields p.val _ (by simp)
  refine ⟨?_, by rw [State.adp, had, ← State.adp, hej], by rw [hsv, hatt], leafSet_raise _ _ _ (by decide)⟩
  rw [rd_raise_ne _ _ _ _ (ne_evstat hfield.2.2 _)]
  exact rd_wr_of_lt _ _ _ (show 5 < 2 ^ 4 by decide)

/-- What keeps a port from training does not lie in the adapter's own state register. -/
theorem retrainBlocked_congr {p : Nat} {t : State} (hld : t.ld = s.ld) (hej : (t.adp p).ejected = (s.adp p).ejected) (hcn : t.cn = s.cn) (hps : t.ps = s.ps)
    (hrd : ∀ f : Fld, f.key ≠ (ADP_STAT_STATE p).key → t.rd f = s.rd f) : retrainBlocked t p = retrainBlocked s p := by
  have hplace := portPlace_lt p
  have hgrove := portGrove_lt p
  have hhold (c : Nat) : t.on (LC_CTL_HOLD c) = s.on (LC_CTL_HOLD c) := by
    rw [State.on, hrd, ← State.on]
    simp only [LC_CTL_HOLD, ADP_STAT_STATE, fld, portReg]
    omega
  have hfields : ∀ f ∈ [KEY_VAULT_HALT, RST_FLTSTAT_FENCED, RST_FLTSTAT_GFFOR, PST_PSSTAT_STATE], t.rd f = s.rd f := by
    refine fun f hf => hrd f ?_
    have hlow : ∀ f ∈ [KEY_VAULT_HALT, RST_FLTSTAT_FENCED, RST_FLTSTAT_GFFOR, PST_PSSTAT_STATE], f.key < 0x800000 ∨ 0x1000000 ≤ f.key := by decide
    have hstate : groveField (ADP_STAT_STATE p) := linkFields p _ (by simp)
    have := hlow f hf
    have := hstate.1
    have := hstate.2.1
    omega
  simp only [List.forall_mem_cons, List.not_mem_nil, false_implies, implies_true, and_true] at hfields
  obtain ⟨hhalt, hfenced, hgf, hstate⟩ := hfields
  have hdark : groveDark t (portGrove p) = groveDark s (portGrove p) := by rw [groveDark, gfFor, hfenced, hgf, ← gfFor, ← groveDark]
  have hconf : configured t p = configured s p := by simp only [configured, portRecord, hld]
  have hcan : t.can p = s.can p := by rw [State.can, hcn, ← State.can]
  have hon : t.on KEY_VAULT_HALT = s.on KEY_VAULT_HALT := by rw [State.on, hhalt, ← State.on]
  simp only [retrainBlocked, hconf, groupCells_of_ld hld, hej, hcan, hps, hhold, hdark, hon, hstate]

/-- A slot's control switched on, before its port trains. -/
def slotBack (p : Nat) (s : State) : State := (s.setAdp p { s.adp p with ejected := false, slotOff := false }).wr (ADP_STAT_STATE p) 0

theorem slotPowerOn_eq (p : Nat) (h : s.rd (ADP_STAT_STATE p) = 5) :
    slotPowerOn p s = if retrainBlocked (s.setAdp p { s.adp p with ejected := false }) p then slotBack p s else startTraining p (slotBack p s) := by
  have hblocked : retrainBlocked (slotBack p s) p = retrainBlocked (s.setAdp p { s.adp p with ejected := false }) p := by
    refine retrainBlocked_congr rfl ?_ rfl rfl fun f hf => State.rd_wr_ne _ _ _ _ hf
    rw [slotBack, State.adp_wr, State.adp_setAdp_same, State.adp_setAdp_same]
  rw [slotPowerOn, if_neg (by simp [h]), ← hblocked]
  rfl

theorem slotPowerOn_effects (h : s.rd (ADP_STAT_STATE p.val) = 5) :
    ((slotPowerOn p.val s).adp p.val).ejected = false ∧ ((slotPowerOn p.val s).adp p.val).slotOff = false ∧
      (8 ≤ p.val → (slotPowerOn p.val s).rd (ADP_STAT_STATE p.val) = (if retrainBlocked (s.setAdp p.val { (s.adp p.val) with ejected := false }) p.val then 0 else 1)) := by
  have hback : (slotBack p.val s).adp p.val = { s.adp p.val with ejected := false, slotOff := false } := by
    rw [slotBack, State.adp_wr, State.adp_setAdp_same]
  have had : (startTraining p.val (slotBack p.val s)).ad = (slotBack p.val s).ad := startTraining_frame (κ := 15) rfl (.refl 15 _)
  rw [slotPowerOn_eq p.val h]
  split
  · exact ⟨by rw [hback], by rw [hback], fun _ => rd_wr_of_lt _ _ _ (show 0 < 2 ^ 4 by decide)⟩
  · refine ⟨by rw [State.adp, had, ← State.adp, hback], by rw [State.adp, had, ← State.adp, hback], fun h8 => ?_⟩
    exact rd_startTraining_standard fun h => by omega

theorem surprised_effects (p : Nat) (s : State) : ((surprised p s).adp p).outstanding = [] ∧ leafSet (surprised p s) (portGrove p) 20 := by
  have hleaf : leafSet (raise (portGrove p) 20 ((turnedAway p s).setAdp p { s.adp p with outstanding := [] })) (portGrove p) 20 := leafSet_raise _ _ _ (by decide)
  unfold surprised
  generalize raise (portGrove p) 20 _ = t at hleaf
  refine ⟨?_, leafSet_attachEvent ((onlyKeys_portDown p 1 t).2 _ _ hleaf)⟩
  rw [State.adp, ad_attachEvent, ← State.adp, adp_portDown, if_pos rfl]
  rfl

theorem exec_surpriseRemoval (hp : s.rd (ADP_STAT_PERS p.val) = 1)
    (hst : s.rd (ADP_STAT_STATE p.val) = 2 ∨ s.rd (ADP_STAT_STATE p.val) = 3 ∨ s.rd (ADP_STAT_STATE p.val) = 6) :
    exec (.surpriseRemoval p) s = .next (surpriseRemoval p.val s) := by
  have hexec : exec (.surpriseRemoval p) s = execSurpriseRemoval p s := rfl
  rw [hexec, execSurpriseRemoval, if_pos ⟨hp, hst⟩]

theorem surpriseRemoval_effects (p : Nat) (s : State) : ((surpriseRemoval p s).adp p).dpc = true ∧ ((surpriseRemoval p s).adp p).outstanding = [] ∧
    mfind (surpriseRemoval p s).sv.att p = none ∧ leafSet (surpriseRemoval p s) (portGrove p) 20 := by
  obtain ⟨hout, hleaf⟩ := surprised_effects p s
  have hatt := att_surpriseRemoval p s
  have hkeys := (onlyKeys.refl (fun _ => True) (surprised p s)).setAdp (p := p) (x := { (surprised p s).adp p with dpc := true })
  rw [surpriseRemoval_eq] at hatt ⊢
  refine ⟨?_, ?_, hatt, hkeys.2 _ _ hleaf⟩
  · rw [State.adp_setAdp_same]
  · rw [State.adp_setAdp_same]
    exact hout

end

/-- Settles O23: links that come up and go down, outputs that train, and slots that eject. -/
theorem linksComeAndGoAndSlotsEject : Obligations.LinksComeAndGoAndSlotsEject := by
  refine ⟨?_, ?_, ?_, ?_, ?_, ?_, ?_, ?_, ?_, ?_, ?_⟩
  · intro p q s hdown hb hu hr
    exact linkUp_standard hdown hb hu hr
  · intro p q s hdown hb hu he
    exact linkUp_usb4 p hdown hb hu he
  · intro p q s h2 hd
    exact exec_linkUp_downed h2 hd
  · intro p w s hup hp
    exact ⟨⟨_, exec_linkDown hup hp, linkDown_effects p.val s⟩, standardRecovery_effects hup hp⟩
  · intro p q s hp hd h3
    exact ⟨hpd_rises hp hd h3, hpd_falls hp hd h3⟩
  · intro p l m s hp hh hd h3 hm
    exact dpLinkTraining_effects hp hh hd h3 hm
  · intro p s h12 h46 he hp
    exact ⟨ejectPress_reported h12 h46 he hp, ejectPress_waits h12 h46 he hp⟩
  · intro p s hp h4 h5
    exact ⟨_, rfl, slotPowerOff_effects hp h4 h5⟩
  · intro p s h
    exact ejectLinkDisable_effects h
  · intro p s h
    have hexec : exec (.powerControllerOn p) s = .next (slotPowerOn p.val s) := rfl
    obtain ⟨hej, hoff, hstate⟩ := slotPowerOn_effects h
    exact ⟨_, hexec, hej, hoff, hstate, partsOnly_of_exec hexec (List.Subset.refl _)⟩
  · intro p s hp hst
    exact ⟨_, exec_surpriseRemoval hp hst, surpriseRemoval_effects p.val s⟩

end Sys2Proof.Machine
end

section
set_option Elab.async false
/-! The flush of a tunnel and the end of its quarantine. -/

namespace Sys2Proof.Machine

open Sys2Proof Sys2Proof.Laws

/-! ### A tunnel of which nothing is left (R106, R167) -/

/-- No segment of a tunnel waits in its ingress store, in its transmit queue or parked at an output. -/
def nothingLeft (n : Nat) (s : State) : Prop := s.ingressQ n = [] ∧ s.tx n = [] ∧ ∀ o, ∀ q ∈ (s.outPos o).parked, q.seg.tun ≠ n

theorem nothingLeft.of_stores {n : Nat} {s t : State} (h : nothingLeft n s) (hi : t.fb.ingress = s.fb.ingress) (ht : t.fb.txq = s.fb.txq)
    (hp : ∀ o, (t.outPos o).parked = (s.outPos o).parked) : nothingLeft n t := by
  obtain ⟨hingress, htx, hparked⟩ := h
  refine ⟨?_, ?_, fun o => by rw [hp]; exact hparked o⟩
  · rw [State.ingressQ, hi, ← State.ingressQ, hingress]
  · rw [State.tx, ht, ← State.tx, htx]

theorem nothingLeft.of_fb {n : Nat} {s t : State} (h : nothingLeft n s) (hfb : t.fb = s.fb) : nothingLeft n t :=
  h.of_stores (by rw [hfb]) (by rw [hfb]) fun o => by rw [State.outPos, hfb, ← State.outPos]

theorem outPos_setOutPos (s : State) (o k : Nat) (x : OutPos) : (s.setOutPos o x).outPos k = if k = o then x else s.outPos k := mget_mput _ _ _ _ _

/-- Fewer segments parked at a position. -/
theorem nothingLeft.setOutPos {n : Nat} {s : State} (h : nothingLeft n s) (o : Nat) {x : OutPos} (hx : x.parked ⊆ (s.outPos o).parked) :
    nothingLeft n (s.setOutPos o x) := by
  obtain ⟨hingress, htx, hparked⟩ := h
  refine ⟨hingress, htx, fun k q hq => ?_⟩
  rw [outPos_setOutPos] at hq
  split at hq
  · exact hparked o q (hx hq)
  · exact hparked k q hq

/-! #### What passes at an output -/

theorem nothingLeft_advanceSeq {n : Nat} {s : State} (h : nothingLeft n s) (o m : Nat) : nothingLeft n (advanceSeq o m s) := by
  unfold advanceSeq
  split
  · exact h.of_stores rfl rfl fun _ => rfl
  · exact h.of_fb rfl

theorem nothingLeft_toAdapter {n : Nat} {s : State} (h : nothingLeft n s) (p : Nat) {g : Seg} (hg : g.tun ≠ n) : nothingLeft n (toAdapter p g s) := by
  have hmark : nothingLeft n (if g.first && cutsThrough s p g.tun then s.setEg p { (s.eg p) with ctMark := some g.tun } else s) := by
    split
    · exact h.of_stores rfl rfl fun _ => rfl
    · exact h
  unfold toAdapter
  generalize (if g.first && cutsThrough s p g.tun then s.setEg p { (s.eg p) with ctMark := some g.tun } else s) = t at hmark
  obtain ⟨hingress, htx, hparked⟩ := hmark
  refine ⟨hingress, ?_, hparked⟩
  exact (mget_mput_ne _ _ _ _ _ _ hg.symm).trans htx

theorem nothingLeft_handOver {n : Nat} {s : State} (h : nothingLeft n s) (o : Nat) {g : Seg} (hg : g.tun ≠ n) : nothingLeft n (handOver o g s) := by
  have hcount : nothingLeft n ((advanceSeq o g.tun s).incMod (FAB_OUTSEG_COUNT o)) := (nothingLeft_advanceSeq h o g.tun).of_fb rfl
  unfold handOver
  dsimp only
  generalize (advanceSeq o g.tun s).incMod (FAB_OUTSEG_COUNT o) = t at hcount
  split
  · exact hcount.of_stores rfl rfl fun _ => rfl
  · split
    · exact hcount.of_fb rfl
    · split
      · exact hcount.of_stores rfl rfl fun _ => rfl
      · exact nothingLeft_toAdapter hcount _ hg

theorem nothingLeft_maybeReturn {n : Nat} {s : State} (h : nothingLeft n s) (o m : Nat) : nothingLeft n (maybeReturn o m s) := by
  unfold maybeReturn
  split
  · have hset := h.setOutPos o (x := { s.outPos o with retq := (s.outPos o).retq.filter (· ≠ m) ++ [m] }) (List.Subset.refl _)
    exact hset.of_stores rfl rfl fun _ => rfl
  · exact h

theorem nothingLeft_unpark {n : Nat} (o m fuel : Nat) {s : State} (h : nothingLeft n s) : nothingLeft n (unpark o m fuel s) := by
  induction fuel generalizing s with
  | zero => exact h
  | succ fuel ih =>
    unfold unpark
    dsimp only
    split
    · exact h
    · next q hq =>
      split
      · exact h
      · have hne : q.seg.tun ≠ n := h.2.2 o q (List.mem_of_find?_eq_some hq)
        exact ih (nothingLeft_maybeReturn (nothingLeft_handOver (h.setOutPos o List.erase_subset) o hne) o m)

theorem nothingLeft_unparkPort {n : Nat} (p : Nat) {s : State} (h : nothingLeft n s) : nothingLeft n (unparkPort p s) :=
  forAll_induction (P := nothingLeft n) h fun m _ _ hu => nothingLeft_unpark (fabOf p) m 1024 hu

/-! #### The flush -/

theorem mfind_mmap {α : Type} (f : Nat → α → α) (m : NMap α) (k : Nat) : mfind (mmap f m) k = (mfind m k).map (f k) := by
  induction m with
  | nil => rfl
  | cons e m ih =>
    rw [mmap, List.map_cons, ← mmap, mfind, mfind]
    split
    · next h => rw [h]; rfl
    · exact ih

/-- Parked segments without a tunnel's. -/
def parkedBut (n : Nat) (x : OutPos) : OutPos := { x with parked := x.parked.filter fun q => entryOf q.seg.tun ≠ n, retq := x.retq.filter (· ≠ n) }

theorem parked_mmap (n o : Nat) (m : NMap OutPos) : (mget {} (mmap (fun _ x => parkedBut n x) m) o).parked = (mget {} m o).parked.filter fun q => entryOf q.seg.tun ≠ n := by
  rw [mget, mfind_mmap, mget]
  cases mfind m o with
  | none => rfl
  | some x => rfl

theorem fb_setVoid (n g c : Nat) (s : State) : (setVoid n g c s).fb.ingress = s.fb.ingress ∧ (setVoid n g c s).fb.txq = s.fb.txq ∧ (setVoid n g c s).fb.pos = s.fb.pos := ⟨rfl, rfl, rfl⟩

/-- A tunnel's stores as the flush clears them, and what it keeps of the others'. -/
theorem stores_flushTunnel {n m : Nat} {s t : State} (hn : n < 256) (h : m = n ∨ nothingLeft n s) (hi : t.fb.ingress = mdel s.fb.ingress m)
    (ht : t.fb.txq = mdel (mdel s.fb.txq m) (256 + m)) (hp : t.fb.pos = mmap (fun _ x => parkedBut m x) s.fb.pos) : nothingLeft n t := by
  refine ⟨?_, ?_, fun o q hq => ?_⟩
  · rw [State.ingressQ, hi, mget, mfind_mdel]
    split
    · rfl
    · next hne => exact (h.resolve_left (Ne.symm hne)).1
  · rw [State.tx, ht, mget, mfind_mdel, mfind_mdel]
    split
    · rfl
    · split
      · rfl
      · next hne => exact (h.resolve_left (Ne.symm hne)).2.1
  · rw [State.outPos, hp, parked_mmap, List.mem_filter] at hq
    obtain ⟨hmem, hkeep⟩ := hq
    rcases h with rfl | h
    · rintro rfl
      exact absurd (Nat.mod_eq_of_lt hn) (by simpa [entryOf] using hkeep)
    · exact h.2.2 o q hmem

theorem nothingLeft_flushTunnel {n m : Nat} {s : State} (hn : n < 256) (h : m = n ∨ nothingLeft n s) : nothingLeft n (flushTunnel m s) := by
  unfold flushTunnel
  dsimp only
  refine forAll_induction (P := nothingLeft n) ?_ fun p _ u hu => ?_
  · split
    · exact stores_flushTunnel hn h rfl rfl rfl
    · exact stores_flushTunnel hn h (fb_setVoid ..).1 (fb_setVoid ..).2.1 (fb_setVoid ..).2.2
  · split
    · exact nothingLeft_unparkPort p hu
    · exact hu

theorem nothingLeft_enterQuarantine {n : Nat} (m : Nat) {s : State} (h : nothingLeft n s) : nothingLeft n (enterQuarantine m s) :=
  h.of_fb (enterQuarantine_frame (κ := 10) rfl (.refl 10 s))

theorem nothingLeft_updatePause {n : Nat} (p : Nat) {s : State} (h : nothingLeft n s) : nothingLeft n (updatePause p s) := by
  unfold updatePause
  dsimp only
  split
  · exact h
  · generalize hy : State.setEg _ _ _ = t
    have ht : nothingLeft n t := h.of_stores (by rw [← hy]; rfl) (by rw [← hy]; rfl) fun _ => by rw [← hy]; rfl
    refine ht.of_fb ?_
    rw [fb_notes _ fun k u => .note (creditForm u p ++ " restored") [p, k - 16], fb_notes _ fun k u => .note (creditForm u p ++ " withheld") [p, k - 16],
      fb_pauseOut, fb_pauseOut]

theorem nothingLeft_settleStall {n : Nat} (p : Nat) {s : State} (h : nothingLeft n s) : nothingLeft n (settleStall p s) :=
  h.of_fb (settleStall_frame (κ := 10) rfl (.refl 10 s))

/-! ### The state of an entry through the flush and the quarantine (R100, R106) -/

section
variable (n : Nat)

theorem state_ne_count (m : Nat) : ∀ f ∈ [TT_SEQ_OUTSEQ m, MEM_VOID_GEN0 (m % 256), MEM_VOID_GEN1 (m % 256), MEM_VOID_GEN2 (m % 256), MEM_VOID_GEN3 (m % 256),
    FAB_OUTSEG_COUNT (m % 32), GRV_FLST_XDISC m, GRV_FLST_EGHELD m], (TT_STATE_STATE n).key ≠ f.key := by
  have := portPlace_lt m
  have := portGrove_lt m
  simp only [List.forall_mem_cons, List.not_mem_nil, false_implies, implies_true, and_true, TT_STATE_STATE, TT_SEQ_OUTSEQ, MEM_VOID_GEN0, MEM_VOID_GEN1,
    MEM_VOID_GEN2, MEM_VOID_GEN3, FAB_OUTSEG_COUNT, GRV_FLST_XDISC, GRV_FLST_EGHELD, fld, portReg]
  omega

theorem keeps_advanceSeq (o m : Nat) (s : State) : keeps (TT_STATE_STATE n) s (advanceSeq o m s) :=
  .ite (.of_regs (.refl _ s) rfl) ((keeps.refl _ s).wr_of (state_ne_count n m _ (by simp)) _)

theorem keeps_handOver {o : Nat} (ho : o < 32) (g : Seg) (s : State) : keeps (TT_STATE_STATE n) s (handOver o g s) := by
  have hcount : keeps (TT_STATE_STATE n) s ((advanceSeq o g.tun s).incMod (FAB_OUTSEG_COUNT o)) :=
    (keeps_advanceSeq n o g.tun s).wr_of (Nat.mod_eq_of_lt ho ▸ state_ne_count n o (FAB_OUTSEG_COUNT (o % 32)) (by simp)) _
  unfold handOver
  dsimp only
  generalize (advanceSeq o g.tun s).incMod (FAB_OUTSEG_COUNT o) = t at hcount
  refine .ite (.of_regs hcount rfl) (.ite (.of_regs hcount rfl) (.ite ?_ ?_))
  · have hdisc := hcount.wr_of (g := GRV_FLST_XDISC (outPortOf s g.tun)) (state_ne_count n (outPortOf s g.tun) _ (by simp))
      (satInc (2 ^ (GRV_FLST_XDISC (outPortOf s g.tun)).w - 1) (t.rd (GRV_FLST_XDISC (outPortOf s g.tun))))
    exact .of_regs hdisc rfl
  · have hmark : keeps (TT_STATE_STATE n) s (if g.first && cutsThrough t (outPortOf s g.tun) g.tun then
        t.setEg (outPortOf s g.tun) { (t.eg (outPortOf s g.tun)) with ctMark := some g.tun } else t) := .ite (.of_regs hcount rfl) hcount
    unfold toAdapter
    generalize (if g.first && cutsThrough t (outPortOf s g.tun) g.tun then
        t.setEg (outPortOf s g.tun) { (t.eg (outPortOf s g.tun)) with ctMark := some g.tun } else t) = u at hmark
    exact .of_regs hmark rfl

theorem keeps_unpark {o : Nat} (ho : o < 32) (m fuel : Nat) (s : State) : keeps (TT_STATE_STATE n) s (unpark o m fuel s) := by
  induction fuel generalizing s with
  | zero => exact .refl _ s
  | succ fuel ih =>
    unfold unpark
    dsimp only
    split
    · exact .refl _ s
    · next q _ =>
      refine .ite (.refl _ s) (.trans ?_ (ih _))
      have hset : keeps (TT_STATE_STATE n) s (s.setOutPos o { (s.outPos o) with parked := (s.outPos o).parked.erase q }) := .of_regs (.refl _ s) rfl
      exact .of_regs (hset.trans (keeps_handOver n ho q.seg _)) (regs_maybeReturn ..)

theorem keeps_setVoid {m : Nat} (hm : m < 256) (g c : Nat) (s : State) : keeps (TT_STATE_STATE n) s (setVoid m g c s) := by
  have hne := state_ne_count n m
  rw [Nat.mod_eq_of_lt hm] at hne
  unfold setVoid
  dsimp only
  split
  · exact .of_regs ((keeps.refl _ s).wr_of (hne (MEM_VOID_GEN0 m) (by simp)) _) rfl
  · exact .of_regs ((keeps.refl _ s).wr_of (hne (MEM_VOID_GEN1 m) (by simp)) _) rfl
  · exact .of_regs ((keeps.refl _ s).wr_of (hne (MEM_VOID_GEN2 m) (by simp)) _) rfl
  · exact .of_regs ((keeps.refl _ s).wr_of (hne (MEM_VOID_GEN3 m) (by simp)) _) rfl

theorem keeps_flushTunnel {m : Nat} (hm : m < 256) (s : State) : keeps (TT_STATE_STATE n) s (flushTunnel m s) := by
  unfold flushTunnel
  dsimp only
  refine .forAll (.ite (.of_regs (.refl _ s) rfl) (.trans (.of_regs (.refl _ s) rfl) (keeps_setVoid n hm ..))) fun p _ u => .ite ?_ (.refl _ u)
  exact .forAll (.refl _ u) fun k _ v => keeps_unpark n (fabOf_lt p) k 1024 v

end

theorem pairOf_lt {s : State} {n : Nat} (hn : n < 256) : ∀ m ∈ pairOf s n, m < 256 := by
  unfold pairOf
  split
  · simpa using hn
  · simpa using ⟨hn, State.rd_lt s (TT_STATE_PEER n)⟩

theorem mem_pairOf (s : State) (n : Nat) : ∃ l, pairOf s n = n :: l := by
  unfold pairOf
  split
  · exact ⟨[], rfl⟩
  · exact ⟨_, rfl⟩

/-- An entry of a pair enters quarantine. -/
def quarantined (m : Nat) (t : State) : State := if t.rd (TT_STATE_STATE m) = stTEARING then t.wr (TT_STATE_STATE m) stQUAR else t

theorem rd_state_wr (n m v : Nat) (s : State) : (s.wr (TT_STATE_STATE m) v).rd (TT_STATE_STATE n) = if n = m then v % 2 ^ 3 else s.rd (TT_STATE_STATE n) := by
  split
  · next h => rw [h]; exact State.rd_wr_same ..
  · refine State.rd_wr_ne _ _ _ _ ?_
    simp only [TT_STATE_STATE, fld]
    omega

theorem quarantined_keeps {n : Nat} (m : Nat) {t : State} (h : t.rd (TT_STATE_STATE n) = stQUAR) : (quarantined m t).rd (TT_STATE_STATE n) = stQUAR := by
  unfold quarantined
  split
  · rw [rd_state_wr]
    split
    · rfl
    · exact h
  · exact h

theorem enterQuarantine_state {n : Nat} {s : State} (h : s.rd (TT_STATE_STATE n) = stTEARING) : (enterQuarantine n s).rd (TT_STATE_STATE n) = stQUAR := by
  obtain ⟨l, hl⟩ := mem_pairOf s n
  have hfirst : (quarantined n s).rd (TT_STATE_STATE n) = stQUAR := by
    rw [quarantined, if_pos h, rd_state_wr, if_pos rfl]
    rfl
  have henter : enterQuarantine n s = forAll l quarantined (quarantined n s) := by
    rw [enterQuarantine, hl]
    rfl
  rw [henter]
  exact forAll_induction (P := fun t => t.rd (TT_STATE_STATE n) = stQUAR) hfirst fun m _ _ ht => quarantined_keeps m ht

theorem exec_flushComplete {n : Tun} {s : State} (h : s.rd (TT_STATE_STATE n.val) = stTEARING) : exec (.flushComplete n) s =
    .next (forAll (List.range 20) (fun p u => settleStall p (updatePause p u)) (enterQuarantine n.val (forAll (pairOf s n.val) flushTunnel s))) := by
  have hexec : exec (.flushComplete n) s = execFlushComplete n s := rfl
  rw [hexec, execFlushComplete, if_neg (by simp [h])]

theorem flushComplete_effects {n : Tun} {s : State} (h : s.rd (TT_STATE_STATE n.val) = stTEARING) :
    ∃ t, exec (.flushComplete n) s = .next t ∧ t.rd (TT_STATE_STATE n.val) = stQUAR ∧ t.ingressQ n.val = [] ∧ t.tx n.val = [] ∧
      partsOnly [.regs, .sent, .mg, .fb] s t := by
  have hexec := exec_flushComplete h
  have hlt := pairOf_lt (s := s) n.isLt
  obtain ⟨l, hl⟩ := mem_pairOf s n.val
  have hflushed : nothingLeft n.val (forAll (pairOf s n.val) flushTunnel s) := by
    rw [hl]
    show nothingLeft n.val (forAll l flushTunnel (flushTunnel n.val s))
    exact forAll_induction (P := nothingLeft n.val) (nothingLeft_flushTunnel n.isLt (.inl rfl)) fun m _ _ hu => nothingLeft_flushTunnel n.isLt (.inr hu)
  have hstate : keeps (TT_STATE_STATE n.val) s (forAll (pairOf s n.val) flushTunnel s) := .forAll (.refl _ s) fun m hm u => keeps_flushTunnel n.val (hlt m hm) u
  have hquar := enterQuarantine_state (hstate.rd.trans h)
  have hleft := nothingLeft_enterQuarantine n.val hflushed
  have hparts := partsOnly_of_exec hexec (List.Subset.refl _)
  generalize enterQuarantine n.val _ = t at hexec hquar hleft hparts
  have hsettle : ∀ p ∈ List.range 20, ∀ u, keeps (TT_STATE_STATE n.val) u (settleStall p (updatePause p u)) := fun p _ u =>
    (keeps.of_regs (.refl _ u) (regs_updatePause p u)).trans (.ite ((keeps.refl _ _).wr_of (state_ne_count n.val p _ (by simp)) _) (.refl _ _))
  obtain ⟨hingress, htx, -⟩ := forAll_induction (l := List.range 20) (P := nothingLeft n.val) hleft fun p _ _ hu => nothingLeft_settleStall p (nothingLeft_updatePause p hu)
  exact ⟨_, hexec, (keeps.forAll (.refl _ t) hsettle).rd.trans hquar, hingress, htx, hparts⟩

/-! ### The end of a quarantine (R95, R100, R106) -/

theorem stillRefused_congr {s t : State} (h : t.sv = s.sv) (n : Nat) : stillRefused t n = stillRefused s n := by rw [stillRefused, h, ← stillRefused]

/-- The fields that a management tunnel's activation sets. -/
def mgmtFields (n : Nat) : List Fld := [TT_STATE_STATE n, TT_STATE_GEN n, TT_STATE_KIND n, TT_STATE_CLS n, TT_ENDP_INPORT n, TT_ENDP_OUTPORT n, TT_ENDP_INFAB n,
  TT_ENDP_OUTFAB n, TT_REQ_PORT n, TT_REQ_KIND n, TT_SEQ_INSEQ n, TT_SEQ_OUTSEQ n]

theorem state_ne_mgmt {n m : Nat} (h : n ≠ m) : ∀ f ∈ mgmtFields m, (TT_STATE_STATE n).key ≠ f.key := by
  simp only [mgmtFields, List.forall_mem_cons, List.not_mem_nil, false_implies, implies_true, and_true, TT_STATE_STATE, TT_STATE_GEN, TT_STATE_KIND, TT_STATE_CLS,
    TT_ENDP_INPORT, TT_ENDP_OUTPORT, TT_ENDP_INFAB, TT_ENDP_OUTFAB, TT_REQ_PORT, TT_REQ_KIND, TT_SEQ_INSEQ, TT_SEQ_OUTSEQ, fld]
  omega

theorem state_ne_mgmt_rest (n : Nat) : ∀ f ∈ (mgmtFields n).tail, (TT_STATE_STATE n).key ≠ f.key := by
  simp only [mgmtFields, List.tail_cons, List.forall_mem_cons, List.not_mem_nil, false_implies, implies_true, and_true, TT_STATE_STATE, TT_STATE_GEN, TT_STATE_KIND,
    TT_STATE_CLS, TT_ENDP_INPORT, TT_ENDP_OUTPORT, TT_ENDP_INFAB, TT_ENDP_OUTFAB, TT_REQ_PORT, TT_REQ_KIND, TT_SEQ_INSEQ, TT_SEQ_OUTSEQ, fld]
  omega

theorem keeps_activateMgmt {n m : Nat} (h : n ≠ m) (s : State) : keeps (TT_STATE_STATE n) s (activateMgmt m s) := by
  have hne := state_ne_mgmt h
  simp only [mgmtFields, List.forall_mem_cons, List.not_mem_nil, false_implies, implies_true, and_true] at hne
  unfold activateMgmt
  refine .ite (.refl _ s) ?_
  refine .of_regs ((keeps.refl _ s).wrs_of ?_) rfl
  simp only [List.forall_mem_cons, List.not_mem_nil, false_implies, implies_true, and_true]
  exact hne

/-- The registers of a management tunnel that becomes active. -/
def mgmtShown (n : Nat) (s : State) : State :=
  s.wrs [(TT_STATE_STATE n, stACTIVE), (TT_STATE_GEN n, s.rd (TT_STATE_GEN n) + 1), (TT_STATE_KIND n, 5), (TT_STATE_CLS n, 4), (TT_ENDP_INPORT n, n),
    (TT_ENDP_OUTPORT n, 31), (TT_ENDP_INFAB n, fabOf n), (TT_ENDP_OUTFAB n, 19), (TT_REQ_PORT n, n), (TT_REQ_KIND n, 5), (TT_SEQ_INSEQ n, 0), (TT_SEQ_OUTSEQ n, 0)]

theorem state_mgmtShown (n : Nat) (s : State) : (mgmtShown n s).rd (TT_STATE_STATE n) = stACTIVE := by
  have hne := state_ne_mgmt_rest n
  simp only [mgmtFields, List.tail_cons, List.forall_mem_cons, List.not_mem_nil, false_implies, implies_true, and_true] at hne
  rw [mgmtShown, State.wrs_cons, State.rd_wrs_ne]
  · exact rd_wr_of_lt _ _ _ (show stACTIVE < 2 ^ 3 by decide)
  · simp only [List.forall_mem_cons, List.not_mem_nil, false_implies, implies_true, and_true]
    exact hne

theorem activateMgmt_eq {n : Nat} {s : State} (h : s.rd (TT_STATE_STATE n) = stFREE) : activateMgmt n s = (mgmtShown n s).setCredit n {} := by
  rw [activateMgmt, if_neg (by simp [h]), mgmtShown]

theorem activateMgmt_state {n : Nat} {s : State} (h : s.rd (TT_STATE_STATE n) = stFREE) : (activateMgmt n s).rd (TT_STATE_STATE n) = stACTIVE := by
  have hstate := state_mgmtShown n s
  rw [activateMgmt_eq h]
  generalize mgmtShown n s = t at hstate
  have hset : keeps (TT_STATE_STATE n) t (t.setCredit n {}) := .of_regs (.refl _ t) rfl
  exact hset.rd.trans hstate

/-- Another entry's quarantine ends without this one's. -/
theorem leaveQuarantine_other {n m : Nat} {t : State} (h : n ≠ m) : keeps (TT_STATE_STATE n) t (leaveQuarantine m t) := by
  have hne (v : Nat) : keeps (TT_STATE_STATE n) t (t.wr (TT_STATE_STATE m) v) := by
    refine (keeps.refl _ t).wr_of ?_ v
    simp only [TT_STATE_STATE, fld]
    omega
  unfold leaveQuarantine
  dsimp only
  exact .ite (.refl _ t) (.ite (.ite ((hne _).trans (keeps_activateMgmt h _)) (hne _)) (hne _))

/-- What the quarantine of an entry leads to. -/
def afterQuarantine (s : State) (n : Nat) : Nat :=
  if n < 2 then (if canActive s n && !isDown s n then stACTIVE else stFREE) else (if stillRefused s n then stREFUSED else stFREE)

theorem afterQuarantine_ne (s : State) (n : Nat) : afterQuarantine s n ≠ stQUAR := by
  unfold afterQuarantine
  split
  · split <;> decide
  · split <;> decide

theorem leaveQuarantine_state {n : Nat} (hn : n < 256) {s : State} (h : s.rd (TT_STATE_STATE n) = stQUAR) :
    (leaveQuarantine n s).rd (TT_STATE_STATE n) = afterQuarantine s n := by
  have hlink : (s.wr (TT_STATE_STATE n) stFREE).rd (CAN_STAT_STATE n) = s.rd (CAN_STAT_STATE n) := by
    have := portPlace_lt n
    have := portGrove_lt n
    refine State.rd_wr_ne _ _ _ _ ?_
    simp only [CAN_STAT_STATE, TT_STATE_STATE, fld, portReg]
    omega
  have hfree : (s.wr (TT_STATE_STATE n) stFREE).rd (TT_STATE_STATE n) = stFREE := rd_wr_of_lt _ _ _ (show stFREE < 2 ^ 3 by decide)
  have hact : canActive (s.wr (TT_STATE_STATE n) stFREE) n = canActive s n := by rw [canActive, hlink, ← canActive]
  have hdown : isDown (s.wr (TT_STATE_STATE n) stFREE) n = isDown s n := rfl
  rw [leaveQuarantine, if_neg (by simp [h]), afterQuarantine]
  dsimp only
  split
  · rw [hact, hdown]
    split
    · exact activateMgmt_state hfree
    · exact hfree
  · have hsmall : (if stillRefused s n = true then stREFUSED else stFREE) < 2 ^ 3 := by
      split
      · decide
      · decide
    exact rd_wr_of_lt _ _ _ hsmall

/-- An entry that has left quarantine stays where it is. -/
theorem leaveQuarantine_again {n : Nat} (m : Nat) {t : State} {v : Nat} (hv : v ≠ stQUAR) (h : t.rd (TT_STATE_STATE n) = v) :
    (leaveQuarantine m t).rd (TT_STATE_STATE n) = v := by
  by_cases hm : n = m
  · subst hm
    rw [leaveQuarantine, if_pos (by rw [h]; exact hv), h]
  · exact (leaveQuarantine_other hm).rd.trans h

/-- The tunnels whose upstream crown port has changed, without a pair's. -/
def movedBut (l : List Nat) (t : State) : State := { t with sv := { t.sv with moved := t.sv.moved.filter fun m => !l.contains m } }

theorem endQuarantine_eq {n : Nat} {s : State} (h : s.rd (TT_STATE_STATE n) = stQUAR) : endQuarantine n s =
    if ((pairOf s n).any fun m => s.sv.moved.contains m) = true then structuralEvent (movedBut (pairOf s n) (forAll (pairOf s n) leaveQuarantine s))
    else movedBut (pairOf s n) (forAll (pairOf s n) leaveQuarantine s) := by
  rw [endQuarantine, if_neg (by simp [h])]
  rfl

theorem endQuarantine_state {n : Nat} (hn : n < 256) {s : State} (h : s.rd (TT_STATE_STATE n) = stQUAR) :
    (endQuarantine n s).rd (TT_STATE_STATE n) = afterQuarantine s n := by
  obtain ⟨l, hl⟩ := mem_pairOf s n
  have hpair : (forAll (pairOf s n) leaveQuarantine s).rd (TT_STATE_STATE n) = afterQuarantine s n := by
    rw [hl]
    show (forAll l leaveQuarantine (leaveQuarantine n s)).rd _ = _
    exact forAll_induction (P := fun t => t.rd (TT_STATE_STATE n) = afterQuarantine s n) (leaveQuarantine_state hn h) fun m _ _ ht =>
      leaveQuarantine_again m (afterQuarantine_ne s n) ht
  rw [endQuarantine_eq h]
  generalize forAll (pairOf s n) leaveQuarantine s = t at hpair
  have hmoved : keeps (TT_STATE_STATE n) t (movedBut (pairOf s n) t) := .of_regs (.refl _ t) rfl
  have hevent (u : State) : keeps (TT_STATE_STATE n) u (structuralEvent u) := by
    refine (onlyWrites_structuralEvent u).1 _ ?_
    simp only [List.forall_mem_cons, List.not_mem_nil, false_implies, implies_true, and_true, TT_STATE_STATE, SYS_SETTLE_PEND, SYS_SETTLE_RUN, SYS_GUARD_SETTLED, fld]
    omega
  exact (keeps.ite (hmoved.trans (hevent _)) hmoved).rd.trans hpair

/-- Settles O6: the flush leaves nothing of a tunnel, and its quarantine ends free, refused or, for management, active again. -/
theorem teardownEndsInQuarantineThenFree : Obligations.TeardownEndsInQuarantineThenFree := by
  have hexec (n : Tun) (s : State) : exec (.quarantineEnd n) s = .next (endQuarantine n.val s) := rfl
  refine ⟨?_, ?_, ?_, ?_, ?_⟩
  · intro n s h
    exact flushComplete_effects h
  · intro n s h hn
    refine ⟨_, hexec n s, ?_, partsOnly_of_exec (hexec n s) (List.Subset.refl _)⟩
    rw [endQuarantine_state n.isLt h, afterQuarantine, if_neg (Nat.not_lt.2 hn)]
  · intro n s h hn
    refine ⟨_, hexec n s, ?_, partsOnly_of_exec (hexec n s) (List.Subset.refl _)⟩
    rw [endQuarantine_state n.isLt h, afterQuarantine, if_pos hn]
  · intro n s h
    have hflush : exec (.flushComplete n) s = execFlushComplete n s := rfl
    rw [hflush, execFlushComplete, if_pos h]
  · intro n s h
    rw [hexec, endQuarantine, if_pos h]

end Sys2Proof.Machine
end

section
set_option Elab.async false
/-! Events of the fabric. -/

namespace Sys2Proof.Machine

open Sys2Proof Sys2Proof.Laws

/-! ### Events of the fabric (R135, R141, R142, R169, R171, R172) -/

/-! #### The map, the returns and the express gap -/

theorem exec_mapSwitch {s : State} (h : s.on FAB_STATUS_MAPPEND = true) (hc : s.sv.commit = none) (h0 : s.rd FAB_SLOT_COUNT % 20 = 0) :
    exec .mapSwitch s = .next (raise 13 2 (s.wrs [(FAB_STATUS_MAPBANK, 1 - s.rd FAB_STATUS_MAPBANK), (FAB_STATUS_MAPPEND, 0)])) := by
  have hexec : exec .mapSwitch s = execMapSwitch s := rfl
  rw [hexec, execMapSwitch, if_pos ⟨h, by simp [hc], h0⟩]

theorem exec_mapSwitch_waits {s : State} (h : s.on FAB_STATUS_MAPPEND = false ∨ s.sv.commit ≠ none ∨ s.rd FAB_SLOT_COUNT % 20 ≠ 0) : exec .mapSwitch s = .next s := by
  have hexec : exec .mapSwitch s = execMapSwitch s := rfl
  have hwait : ¬ (s.on FAB_STATUS_MAPPEND = true ∧ s.sv.commit.isNone = true ∧ s.rd FAB_SLOT_COUNT % 20 = 0) := by
    rintro ⟨hpend, hnone, h0⟩
    rcases h with h | h | h
    · simp [h] at hpend
    · exact h (Option.isNone_iff_eq_none.1 hnone)
    · exact h h0
  rw [hexec, execMapSwitch, if_neg hwait]

theorem mapSwitch_effects {s : State} (h : s.on FAB_STATUS_MAPPEND = true) (hc : s.sv.commit = none) (h0 : s.rd FAB_SLOT_COUNT % 20 = 0) :
    ∃ t, exec .mapSwitch s = .next t ∧ t.rd FAB_STATUS_MAPBANK = 1 - s.rd FAB_STATUS_MAPBANK ∧ t.rd FAB_STATUS_MAPPEND = 0 ∧
      leafSet t 13 2 ∧ onlyWrites [FAB_STATUS_MAPBANK, FAB_STATUS_MAPPEND, EVSTAT 13] [.mg] s t := by
  have hnodup : ([(FAB_STATUS_MAPBANK, 1 - s.rd FAB_STATUS_MAPBANK), (FAB_STATUS_MAPPEND, 0)].map fun x => x.1.key).Nodup :=
    show [FAB_STATUS_MAPBANK.key, FAB_STATUS_MAPPEND.key].Nodup by decide
  have hbank : 1 - s.rd FAB_STATUS_MAPBANK < 2 ^ 1 := by omega
  refine ⟨_, exec_mapSwitch h hc h0, ?_, ?_, leafSet_raise 13 2 _ (by decide), ?_⟩
  · rw [rd_raise_ne 13 2 _ _ (by decide)]
    exact rd_wrs_eq hnodup (by simp) hbank s
  · rw [rd_raise_ne 13 2 _ _ (by decide)]
    exact rd_wrs_eq hnodup (by simp) (by decide) s
  · exact ((onlyWrites.refl _ _ s).wrs_of (by simp)).raise_of (by simp) (by simp) 2

/-- The output owes a return of a stream. -/
def returnQueued (n : Nat) (s : State) : State :=
  s.setOutPos (outPosOf s n) { s.outPos (outPosOf s n) with retq := (s.outPos (outPosOf s n)).retq.filter (· ≠ n) ++ [n] }

theorem exec_returnTimer {n : Tun} {s : State} (hb : isBulk s n.val = true) (h : s.rd (TT_SEQ_OUTSEQ n.val) ≠ (s.flow n.val).lastRet) :
    exec (.returnTimer n) s = .next ((returnQueued n.val s).setFlow n.val { s.flow n.val with lastRet := s.rd (TT_SEQ_OUTSEQ n.val) }) := by
  have hexec : exec (.returnTimer n) s = execReturnTimer n s := rfl
  rw [hexec, execReturnTimer, if_pos ⟨hb, h⟩, returnQueued]

theorem returnTimer_effects {n : Tun} {s : State} (hb : isBulk s n.val = true) (h : s.rd (TT_SEQ_OUTSEQ n.val) ≠ (s.flow n.val).lastRet) :
    ∃ t, exec (.returnTimer n) s = .next t ∧ n.val ∈ (t.outPos (outPosOf s n.val)).retq ∧
      (t.flow n.val).lastRet = s.rd (TT_SEQ_OUTSEQ n.val) ∧ partsOnly [.fb] s t := by
  have hqueued : n.val ∈ ((returnQueued n.val s).outPos (outPosOf s n.val)).retq := by
    rw [returnQueued, outPos_setOutPos, if_pos rfl]
    simp
  have hexec := exec_returnTimer hb h
  refine ⟨_, hexec, hqueued, ?_, partsOnly_of_exec hexec (List.Subset.refl _)⟩
  exact congrArg Flow.lastRet (mget_mput_same ..)

/-- The report of an express gap. -/
def gapReported (s : State) (n : Nat) (u : State) : State :=
  if inPosOf s n / 2 < 8 then reportFault 0xA (servedBy s (inPosOf s n / 2)) n 9 false u else reportFault 0xB (inPosOf s n / 2) 0 9 false u

theorem exec_xgapTimeout {n : Tun} {s : State} (hb : isBulk s n.val = false) (h2 : twoPass s n.val = false) (hf : fenced s (outPosOf s n.val) = false)
    (hseq : s.rd RST_FLTSTAT_SEQ ≠ 6) (hp : ((s.outPos (outPosOf s n.val)).parked.any fun q => q.seg.tun = n.val) = true) :
    exec (.xgapTimeout n) s = .next (gapReported s n.val (raise 13 0 (s.wr (FAB_XGAP_TUN (outPosOf s n.val)) n.val))) := by
  have hexec : exec (.xgapTimeout n) s = execXgapTimeout n s := rfl
  have hpos : (if (twoPass s n.val && (s.outPos 19).parked.any (fun q => q.seg.tun = n.val)) = true then 19 else outPosOf s n.val) = outPosOf s n.val :=
    if_neg (by simp [h2])
  rw [execXgapTimeout] at hexec
  dsimp only at hexec
  rw [hpos, if_neg] at hexec
  · rw [hexec, gapReported]
  · simpa [hb, hf, hseq] using hp

theorem xgapTimeout_effects {n : Tun} {s : State} (hb : isBulk s n.val = false) (h2 : twoPass s n.val = false) (hf : fenced s (outPosOf s n.val) = false)
    (hseq : s.rd RST_FLTSTAT_SEQ ≠ 6) (hp : ((s.outPos (outPosOf s n.val)).parked.any fun q => q.seg.tun = n.val) = true) :
    ∃ u, exec (.xgapTimeout n) s = .next (gapReported s n.val u) ∧ u.rd (FAB_XGAP_TUN (outPosOf s n.val)) = n.val ∧ leafSet u 13 0 := by
  refine ⟨_, exec_xgapTimeout hb h2 hf hseq hp, ?_, leafSet_raise 13 0 _ (by decide)⟩
  rw [rd_raise_ne 13 0 _ _ (ne_evstat (position_fields (outPos_lt s n.val) _ (by simp)).2 13)]
  exact rd_wr_of_lt _ _ _ n.isLt

/-! #### Buffer cells -/

/-- A cell's bit that is set, taken away. -/
theorem bit_cleared : ∀ x < 16, ∀ k < 4, bit x k = true → x - 2 ^ k < 16 ∧ bit (x - 2 ^ k) k = false := by decide

theorem cellEvacuated_effects {c : BufCell} {s : State} (h : bit (s.rd (FAB_PART_EVAC (c.val / 4))) (c.val % 4) = true) :
    ∃ t, exec (.cellEvacuated c) s = .next t ∧ bit (t.rd (FAB_PART_EVAC (c.val / 4))) (c.val % 4) = false ∧ onlyWrites [FAB_PART_EVAC (c.val / 4)] [] s t := by
  have hexec : exec (.cellEvacuated c) s = execCellEvacuated c s := rfl
  rw [execCellEvacuated, if_pos h] at hexec
  obtain ⟨hlt, hbit⟩ := bit_cleared _ (State.rd_lt s (FAB_PART_EVAC (c.val / 4))) _ (Nat.mod_lt c.val (by decide)) h
  refine ⟨_, hexec, ?_, onlyWrites_wr _ _ s⟩
  rw [rd_wr_of_lt _ _ _ hlt]
  exact hbit

theorem cellRetired_retireCell (b : Nat) (s : State) : cellRetired (retireCell b s) b = true := by
  by_cases h : cellRetired s b = true
  · rw [retireCell, if_pos h, h]
  · have hin : bit (s.rd (FAB_PART_INSVC (b / 4))) (b % 4) = true := by simpa [cellRetired] using h
    obtain ⟨hlt, hbit⟩ := bit_cleared _ (State.rd_lt s (FAB_PART_INSVC (b / 4))) _ (Nat.mod_lt b (by decide)) hin
    have hne : (FAB_PART_INSVC (b / 4)).key ≠ (FAB_PART_EVAC (b / 4)).key := by
      simp only [FAB_PART_INSVC, FAB_PART_EVAC, fld]
      omega
    rw [retireCell, if_neg h, State.wrs_cons, State.wrs_cons, State.wrs_nil, cellRetired, State.rd_wr_ne _ _ _ _ hne, rd_wr_of_lt _ _ _ hlt, hbit]
    rfl

theorem bufferCellRetire_effects {c : BufCell} {l : Bool} {s : State} (h : reportable 2 c.val s = true) :
    ∃ t, exec (.bufferCellRetire c l) s = .next t ∧ cellRetired t c.val = true := by
  have hexec : exec (.bufferCellRetire c l) s = .next (reportFault 2 c.val 0 3 false s) := rfl
  have hreport : reportFault 2 c.val 0 3 false s = retireCell c.val (takeReport 2 c.val 0 3 false s).2 := by
    rw [reportFault, if_neg (by simp [h])]
    dsimp only
    rw [if_neg (by simp)]
    rfl
  refine ⟨_, hexec, ?_⟩
  rw [hreport]
  exact cellRetired_retireCell c.val _

/-! #### The reclaim of void segments -/

theorem onlyFb_updateSpill (o : Nat) (s : State) : (updateSpill o s).fb = s.fb := updateSpill_frame (κ := 10) rfl (.refl 10 s)

theorem pageSegs_keepPages (f : Seg → Bool) (l : List SPage) : ∀ q ∈ pageSegs (keepPages f l), f q = true := by
  intro q hq
  obtain ⟨e, he, hmem⟩ := List.mem_flatMap.1 hq
  obtain ⟨d, -, rfl⟩ := List.mem_map.1 (List.mem_filter.1 he).1
  exact (List.mem_filter.1 hmem).2

/-- The spill pages without the segments of a (tunnel, GEN) pair. -/
def spillBut (n g : Nat) (s : State) : State :=
  { s with fb := { s.fb with spill := (mmap (fun _ l => keepPages (fun q => !(q.tun = n && q.gen = g)) l) s.fb.spill).filter fun e => e.2 ≠ [] } }

theorem voidReclaim_eq {n g : Nat} {s : State} (h : mget 0 s.fb.voids (4 * n + g) ≠ 0) :
    voidReclaim n g s = forAll (List.range 20) updateSpill (setVoid n g 0 (spillBut n g s)) := by
  rw [voidReclaim, if_neg h]
  rfl

theorem spillBut_clear (n g : Nat) (s : State) : ∀ e ∈ (spillBut n g s).fb.spill, ∀ q ∈ pageSegs e.2, ¬ (q.tun = n ∧ q.gen = g) := by
  intro e he q hq
  obtain ⟨d, -, rfl⟩ := List.mem_map.1 (List.mem_filter.1 he).1
  rintro ⟨hn, hg⟩
  have hkept := pageSegs_keepPages _ _ q hq
  simp [hn, hg] at hkept

theorem voidReclaim_effects {n : Tun} {g : Fin 4} {s : State} (h : mget 0 s.fb.voids (4 * n.val + g.val) ≠ 0) :
    ∃ t, exec (.voidReclaim n g) s = .next t ∧ mget 0 t.fb.voids (4 * n.val + g.val) = 0 ∧
      (∀ e ∈ t.fb.spill, ∀ q ∈ pageSegs e.2, ¬(q.tun = n.val ∧ q.gen = g.val)) ∧ partsOnly [.regs, .mg, .fb] s t := by
  have hexec : exec (.voidReclaim n g) s = .next (voidReclaim n.val g.val s) := rfl
  have hparts := partsOnly_of_exec hexec (List.Subset.refl _)
  refine ⟨_, hexec, ?_⟩
  rw [voidReclaim_eq h] at hparts ⊢
  have hvoid : mget 0 (setVoid n.val g.val 0 (spillBut n.val g.val s)).fb.voids (4 * n.val + g.val) = 0 :=
    mget_mput_same 0 (spillBut n.val g.val s).fb.voids (4 * n.val + g.val) 0
  have hspill : (setVoid n.val g.val 0 (spillBut n.val g.val s)).fb.spill = (spillBut n.val g.val s).fb.spill := rfl
  have hfb := forAll_induction (l := List.range 20) (f := updateSpill) (P := fun u => u.fb = (setVoid n.val g.val 0 (spillBut n.val g.val s)).fb) rfl
    fun o _ u hu => (onlyFb_updateSpill o u).trans hu
  rw [hfb]
  exact ⟨hvoid, hspill ▸ spillBut_clear n.val g.val s, hparts⟩

/-- Settles O8: what each event of the fabric brings about. -/
theorem fabricEventsTakeEffect : Obligations.FabricEventsTakeEffect := by
  refine ⟨?_, ?_, ?_, ?_, ?_, ?_, ?_⟩
  · intro s h hc h0
    exact mapSwitch_effects h hc h0
  · intro s h
    exact exec_mapSwitch_waits h
  · intro n s hb h
    exact returnTimer_effects hb h
  · intro n g s h
    exact voidReclaim_effects h
  · intro c s h
    exact cellEvacuated_effects h
  · intro c l s h
    exact bufferCellRetire_effects h
  · intro n s hb h2 hf hseq hp
    exact xgapTimeout_effects hb h2 hf hseq hp

end Sys2Proof.Machine
end

section
set_option Elab.async false
/-! A slot of the fabric. -/

namespace Sys2Proof.Machine

open Sys2Proof Sys2Proof.Laws

/-! ### A slot of the fabric (R127, R128) -/

/-! #### The slot counter stands while segments move -/

theorem slot_not_fabricKeys : ¬ fabricKeys FAB_SLOT_COUNT.key := by
  unfold fabricKeys leafKey
  decide

theorem slot_not_leafKey : ¬ leafKey FAB_SLOT_COUNT.key := fun h => slot_not_fabricKeys (.inl h)

theorem slot_ne_memory (n : Nat) : ∀ f ∈ [MEM_VOID_GEN0 n, MEM_VOID_GEN1 n, MEM_VOID_GEN2 n, MEM_VOID_GEN3 n, MEM_SPUSE_PAGES n, MEM_SPUSE_HELD n, MEM_SPSTAT_GLOBAL],
    FAB_SLOT_COUNT.key ≠ f.key := by
  simp only [List.forall_mem_cons, List.not_mem_nil, false_implies, implies_true, and_true, FAB_SLOT_COUNT, MEM_VOID_GEN0, MEM_VOID_GEN1, MEM_VOID_GEN2, MEM_VOID_GEN3,
    MEM_SPUSE_PAGES, MEM_SPUSE_HELD, MEM_SPSTAT_GLOBAL, fld]
  omega

/-- The slot counter stands. -/
abbrev slotKept (s t : State) : Prop := keeps FAB_SLOT_COUNT s t

theorem slotKept_setVoid (n g c : Nat) (s : State) : slotKept s (setVoid n g c s) := by
  have hne := slot_ne_memory n
  unfold setVoid
  dsimp only
  split
  · exact .of_regs ((keeps.refl _ s).wr_of (hne (MEM_VOID_GEN0 n) (by simp)) _) rfl
  · exact .of_regs ((keeps.refl _ s).wr_of (hne (MEM_VOID_GEN1 n) (by simp)) _) rfl
  · exact .of_regs ((keeps.refl _ s).wr_of (hne (MEM_VOID_GEN2 n) (by simp)) _) rfl
  · exact .of_regs ((keeps.refl _ s).wr_of (hne (MEM_VOID_GEN3 n) (by simp)) _) rfl

theorem slotKept_updateSpill (o : Nat) (s : State) : slotKept s (updateSpill o s) := by
  have hne := slot_ne_memory o
  have hpages : FAB_SLOT_COUNT.key ≠ (MEM_SPUSE_PAGES o).key := hne _ (by simp)
  have hheld : FAB_SLOT_COUNT.key ≠ (MEM_SPUSE_HELD o).key := hne _ (by simp)
  have hglobal : FAB_SLOT_COUNT.key ≠ MEM_SPSTAT_GLOBAL.key := hne _ (by simp)
  have hused : slotKept s (s.wr (MEM_SPUSE_PAGES o) (outPages s o)) := (keeps.refl _ s).wr_of hpages _
  unfold updateSpill
  dsimp only
  generalize s.wr (MEM_SPUSE_PAGES o) (outPages s o) = t at hused
  have hquota : slotKept s (if s.rd (MEM_SPQ_QUOTA o) ≤ outPages s o then (if t.on (MEM_SPUSE_HELD o) then t else raise 14 0 (t.wr (MEM_SPUSE_HELD o) 1))
      else if outPages s o ≤ s.rd (MEM_SPQ_QUOTA o) * 7 / 8 then t.wr (MEM_SPUSE_HELD o) 0 else t) :=
    .ite (.ite hused ((hused.wr_of hheld _).raise_of slot_not_leafKey _ _)) (.ite (hused.wr_of hheld _) hused)
  generalize (if s.rd (MEM_SPQ_QUOTA o) ≤ outPages s o then (if t.on (MEM_SPUSE_HELD o) then t else raise 14 0 (t.wr (MEM_SPUSE_HELD o) 1))
      else if outPages s o ≤ s.rd (MEM_SPQ_QUOTA o) * 7 / 8 then t.wr (MEM_SPUSE_HELD o) 0 else t) = u at hquota
  exact .ite (.ite hquota ((hquota.wr_of hglobal _).raise_of slot_not_leafKey _ _)) (.ite (hquota.wr_of hglobal _) hquota)

theorem slotKept_outArrive {o : Nat} (ho : o < 32) (g : Seg) (s : State) : slotKept s (outArrive o g s) := keeps_of_keys (onlyKeys_outArrive ho g s) slot_not_fabricKeys

/-! #### Stage two -/

theorem regs_appendSpill (k : Nat) (g : Seg) (s : State) : (appendSpill k g s).regs = s.regs := by
  unfold appendSpill
  dsimp only
  split
  · split <;> rfl
  · rfl

theorem slotKept_toMemoryAgent (j : Nat) (s : State) : slotKept s (toMemoryAgent j s) := by
  unfold toMemoryAgent
  dsimp only
  split
  · exact .refl _ s
  · next q rest _ =>
    generalize ht : appendSpill _ _ _ = t
    have hstored : slotKept s t := .of_regs (.refl _ s) (by rw [← ht, regs_appendSpill]; rfl)
    exact (hstored.trans (.ite (slotKept_setVoid ..) (.refl _ t))).trans (slotKept_updateSpill _ _)

theorem slotKept_stageTwo (t j : Nat) (s : State) : slotKept s (stageTwo t j s) := by
  have ho : (j + t) % 20 < 32 := by omega
  have hset (x : Inter) : slotKept s (s.setInter j x) := .of_regs (.refl _ s) rfl
  unfold stageTwo
  dsimp only
  refine .ite (.refl _ s) (.ite (slotKept_toMemoryAgent j s) ?_)
  split
  · exact (hset _).trans (slotKept_outArrive ho _ _)
  · split
    · exact (hset _).trans (slotKept_outArrive ho _ _)
    · split
      · exact (hset _).trans (slotKept_outArrive ho _ _)
      · exact .refl _ s

/-! #### Stage one -/

theorem slotKept_joinBulk (j o : Nat) (q : QSeg) (s : State) : slotKept s (joinBulk j o q s) := by
  have hset (x : Inter) : slotKept s (s.setInter j x) := .of_regs (.refl _ s) rfl
  unfold joinBulk
  dsimp only
  split
  · exact hset _
  · exact .ite (hset _) ((hset _).raise_of slot_not_leafKey _ _)

theorem slotKept_bulkArrive (j o : Nat) (q : QSeg) (s : State) : slotKept s (bulkArrive j o q s) := by
  unfold bulkArrive
  exact .ite (.of_regs (.refl _ s) rfl) (slotKept_joinBulk ..)

/-- A queue as it was served last. -/
def servedNow (k n : Nat) (t : State) : State := { t with fb := { t.fb with served := mput 0 t.fb.served k n } }

theorem slotKept_readBack (j : Nat) (s : State) : slotKept s (readBack j s) := by
  unfold readBack
  dsimp only
  split
  · exact .refl _ s
  · next k _ =>
    split
    · exact .refl _ s
    · next g _ _ =>
      have hset (l : List SPage) : slotKept s (s.setSpill k l) := .of_regs (.refl _ s) rfl
      have hpast (l : List Seg) (t : State) : slotKept t (forAll l passVoid t) := .forAll (.refl _ t) fun g _ u => slotKept_setVoid g.tun g.gen _ u
      have hserved (t : State) : slotKept t (servedNow k (s.rd FAB_SLOT_COUNT + 1) t) := .of_regs (.refl _ t) rfl
      exact (((((hset _).trans (hpast _ _)).trans (hserved _)).trans (slotKept_joinBulk ..))).trans (slotKept_updateSpill ..)

theorem regs_take {i : Nat} {k : Pick} {s u : State} {g : Seg} (h : take i k s = some (g, u)) : u.regs = s.regs := by
  unfold take at h
  split at h
  · cases h
  · obtain ⟨-, rfl⟩ := Prod.mk.inj (Option.some.inj h)
    dsimp only
    split <;> rfl

theorem slotKept_stageOne (t i : Nat) (s : State) : slotKept s (stageOne t i s) := by
  have htaken {k : Pick} {g : Seg} {u : State} (h : take i k s = some (g, u)) : slotKept s u := .of_regs (.refl _ s) (regs_take h)
  unfold stageOne
  dsimp only
  refine .ite (.refl _ s) (.ite (slotKept_readBack _ s) ?_)
  split
  · split
    · exact .refl _ s
    · next h => exact (htaken h).of_regs rfl
  · split
    · exact .refl _ s
    · split
      · exact .refl _ s
      · next h => exact (htaken h).trans (slotKept_bulkArrive ..)

/-! #### The sidebands and the slot -/

theorem slotKept_checkWord (w : Nat) (s : State) : slotKept s (checkWord w s) := .ite (.refl _ s) ((keeps.refl _ s).raise_of slot_not_leafKey _ _)

theorem slotKept_sidebandTwo (t : Nat) (bad : BitVec 20) (j : Nat) (s : State) : slotKept s (sidebandTwo t bad j s) := by
  have hset (o : Nat) (x : OutPos) : slotKept s (s.setOutPos o x) := .of_regs (.refl _ s) rfl
  unfold sidebandTwo
  dsimp only
  have hword (w o : Nat) (x : OutPos) := (hset o x).trans (slotKept_checkWord w (s.setOutPos o x))
  split
  · exact hword ..
  · exact (hword ..).of_regs rfl

/-- The words of a position as its intermediate has them. -/
def wordsSeen (k m : Nat) (u : State) : State := { u with fb := { u.fb with seen := mput 0 u.fb.seen k m } }

theorem slotKept_sidebandOne (t : Nat) (badAcc badRet : BitVec 20) (i : Nat) (s : State) : slotKept s (sidebandOne t badAcc badRet i s) := by
  have hset (j : Nat) (x : Inter) : slotKept s (s.setInter j x) := .of_regs (.refl _ s) rfl
  have hseen (k m : Nat) (u : State) : slotKept u (wordsSeen k m u) := .of_regs (.refl _ u) rfl
  have hwords (j k m v w : Nat) (x : Inter) : slotKept s (checkWord v (checkWord w (wordsSeen k m (s.setInter j x)))) :=
    (((hset j x).trans (hseen k m _)).trans (slotKept_checkWord w _)).trans (slotKept_checkWord v _)
  unfold sidebandOne
  dsimp only
  split
  · exact hwords ..
  · exact (hwords ..).of_regs rfl

theorem rd_fabricSlot (a r o : BitVec 20) (s : State) : (fabricSlot a r o s).rd FAB_SLOT_COUNT = (s.rd FAB_SLOT_COUNT + 1) % 2 ^ FAB_SLOT_COUNT.w := by
  have htwo (t : Nat) (u : State) : slotKept u (forAll (List.range 20) (stageTwo t) u) := .forAll (.refl _ u) fun j _ v => slotKept_stageTwo t j v
  have hone (t : Nat) (u : State) : slotKept u (forAll (List.range 20) (stageOne t) u) := .forAll (.refl _ u) fun j _ v => slotKept_stageOne t j v
  have hside2 (t : Nat) (u : State) : slotKept u (forAll (List.range 20) (sidebandTwo t o) u) := .forAll (.refl _ u) fun j _ v => slotKept_sidebandTwo t o j v
  have hside1 (t : Nat) (u : State) : slotKept u (forAll (List.range 20) (sidebandOne t a r) u) := .forAll (.refl _ u) fun j _ v => slotKept_sidebandOne t a r j v
  have hmoved (t : Nat) := (((htwo t s).trans (hone t _)).trans (hside2 t _)).trans (hside1 t _)
  unfold fabricSlot
  dsimp only
  generalize s.rd FAB_SLOT_COUNT % 20 = t
  replace hmoved := hmoved t
  generalize forAll (List.range 20) (sidebandOne t a r) _ = u at hmoved
  rw [← hmoved.rd]
  exact State.rd_wr_same ..

theorem regs_pressure (b s : State) : (pressure b s).regs = s.regs := pressure_frame (κ := 1) rfl (.refl 1 s)
theorem regs_creditUpdates (l : List Nat) (s : State) : (forAll l creditUpdate s).regs = s.regs := forAll_frame (k := 1) (fun _ _ h => creditUpdate_frame rfl h) (.refl 1 s)
theorem regs_updatePauses (l : List Nat) (s : State) : (forAll l updatePause s).regs = s.regs := forAll_frame (k := 1) (fun _ _ h => updatePause_frame rfl h) (.refl 1 s)

theorem rd_slotStep (a r o : BitVec 20) (s : State) : (slotStep a r o s).rd FAB_SLOT_COUNT = (s.rd FAB_SLOT_COUNT + 1) % 2 ^ FAB_SLOT_COUNT.w := by
  have hregs : (slotStep a r o s).regs = (fabricSlot a r o s).regs := (regs_updatePauses _ _).trans ((regs_creditUpdates _ _).trans (regs_pressure _ _))
  rw [State.rd, hregs, ← State.rd, rd_fabricSlot]

/-! #### The switch of a takeover before the slot -/

theorem awaitsRemap_lt {s : State} {g : Nat} (h : awaitsRemap s = some g) : g < 16 := by
  unfold awaitsRemap at h
  split at h
  · unfold gfFor at h
    split at h
    · exact absurd h (by simp)
    · exact Option.some.inj h ▸ State.rd_lt s RST_FLTSTAT_GFFOR
  · exact absurd h (by simp)

theorem slot_ne_remap (g : Nat) (s : State) : ∀ e ∈ remapWrites g s, FAB_SLOT_COUNT.key ≠ e.1.key := by
  simp only [remapWrites, List.forall_mem_cons, List.not_mem_nil, false_implies, implies_true, and_true, FAB_SLOT_COUNT, FAB_REMAP_PHYS, FAB_REMAP_ATT, FAB_STATUS_FENCE,
    RST_FLTSTAT_SEQ, fld]
  omega

theorem slotKept_remapDue (s : State) : slotKept s (remapDue s) := by
  unfold remapDue
  split
  · exact .refl _ s
  · next g hg =>
    have howner (c : Nat) (u : State) : slotKept u (u.wr (LC_STAT_OWNER c) 8) := by
      refine (keeps.refl _ u).wr_of ?_ _
      simp only [FAB_SLOT_COUNT, LC_STAT_OWNER, fld]
      omega
    have hswitched : slotKept s (groveSwitched g s) :=
      ((((keeps.refl _ s).wrs_of (slot_ne_remap g s)).forAll fun c _ u => howner c u)).raise_of slot_not_leafKey _ _
    have hreplay : ¬ replayKeys FAB_SLOT_COUNT.key := by
      rintro (h | h)
      · exact slot_not_fabricKeys h
      · simp only [trainKey, FAB_SLOT_COUNT, fld] at h
        omega
    rw [remapGrove_eq]
    exact hswitched.trans (keeps_of_keys (onlyKeys_groveReplayed (awaitsRemap_lt hg) _) hreplay)

/-- The state in which a slot begins: at a phase 0, after the switch that a takeover waits for. -/
def slotBegins (s : State) : State := if s.rd FAB_SLOT_COUNT % 20 = 0 then remapDue s else s

theorem slotKept_slotBegins (s : State) : slotKept s (slotBegins s) := .ite (slotKept_remapDue s) (.refl _ s)

theorem slotBegins_eq {s : State} (h : s.rd FAB_SLOT_COUNT % 20 = 0 → awaitsRemap s = none) : slotBegins s = s := by
  unfold slotBegins
  split
  · next h0 => exact (remapDue_effects s).2.2.1 (h h0)
  · rfl

theorem exec_fabricSlot (a r o : BitVec 20) (s : State) : exec (.fabricSlot a r o) s = .next (agentWork (slotStep a r o (slotBegins s))) := rfl

theorem agentWork_idle {s : State} (h : s.mg.inbox = []) : agentWork s = s := by
  have hemptied : agentWork s = { s with mg := { s.mg with inbox := [] } } := by rw [agentWork, h]; rfl
  rw [hemptied, ← h]

/-- Settles O7: a slot counts itself, whatever it moves, and the agent's work follows. -/
theorem fabricSlotAdvances : Obligations.FabricSlotAdvances := by
  refine ⟨?_, ?_, ?_⟩
  · intro a r o s
    refine ⟨_, exec_fabricSlot a r o s, ?_⟩
    rw [rd_slotStep, (slotKept_slotBegins s).rd]
  · intro a r o s h
    have hexec := exec_fabricSlot a r o s
    rw [slotBegins_eq h] at hexec
    exact ⟨_, hexec, partsOnly_of_frames (fun _ hk => slotStep_frame hk (.refl _ s)) rfl⟩
  · intro s h
    exact agentWork_idle h

end Sys2Proof.Machine
end
